-- ==== Sys2Proof/Word.lean ====
section
/-!
DEFINITION. The machine's plainest words. Everything wider is a list of bytes, little-endian
unless a rule says otherwise (R6); counts, times and exact quantities are `Nat` or `Int`.
-/

namespace Sys2Proof

/-- One byte as it stands in a register, a message, a record or a log entry. -/
abbrev Byte := BitVec 8

/-- A string of bytes, lowest offset first. -/
abbrev Bytes := List Byte

/-- One 32-bit host register (R446) or stream word (R454). -/
abbrev Word32 := BitVec 32

end Sys2Proof
end

