-- ==== Sys2Proof/Syntax.lean ====
section
/-!
DEFINITION. The commands of the block: one constructor per row of spec/opcode_table.json, and the plain-data
operands they carry.
-/

namespace Sys2Proof

/-- The header of a request as rung (19 R451, 20 R469): mailbox, request tag, the flags word (PART in bits 7:0, MORE
bit 8, reserved bits 15:9), and the interface that carried it (false QSPI, true HETH). -/
structure Hdr where
  mbx : Nat
  tag : Nat
  flags : Nat
  heth : Bool
deriving DecidableEq, Repr


/-- A PTP Announce message (03 R67): port 0 LKA, 1 LKB, 2 HETH; `supported` false for a message that uses a part of
IEEE 1588 which Table 3.2 does not list as supported. (log 3) -/
structure Announce where
  port : Nat
  domain : Nat
  supported : Bool
  ptpTimescale : Bool
  gm : Nat
  prio1 : Nat
  cls : Nat
  acc : Nat
  var : Nat
  prio2 : Nat
  steps : Nat
  sender : Nat
  utc : Int
  utcValid : Bool
  leap59 : Bool
  leap61 : Bool
deriving DecidableEq, Repr

/-- A PTP event, delay or management message (03 R67, R68): timestamps in ns of TAI, the correction field in ns. (log 3) -/
structure PtpMsg where
  port : Nat
  domain : Nat
  supported : Bool
  sender : Nat
  seq : Nat
  kind : Nat
  stamp : Int
  stamp2 : Int
  corr : Int
deriving DecidableEq, Repr

/-- A mains beacon (03 R76, 13 R332): the mains port, the sender's node ID and branch position, the beacon period's
number, its servo state, error bound in ns and mains hop count, its node times of the anchored crossing and of the start
of the preamble, and whether the sender is a Carfel 4016. (log 3) -/
structure Beacon where
  port : Nat
  node : Nat
  pos : Nat
  number : Nat
  servo : Nat
  bound : Nat
  hops : Nat
  crossing : Int
  tx : Int
  is4016 : Bool
deriving DecidableEq, Repr

/-- What the world gives one slice in a frame: the 2,048 modulator samples (04 R95), the clocks over which the clip comparator stood
beyond full scale and over which the common mode was out of range (04 R97: first clock, and the clock after the last), and the
slice input behind the injection switch in µV, each of 25 values held 10 µs, for the residual paths (04 R100). (log 3) -/
structure ChanObs where
  chan : Nat
  bits : List Int
  clips : List (Nat × Nat)
  common : List (Nat × Nat)
  input : List Int
deriving DecidableEq, Repr

/-- What the world gives the engine in a frame: the slices, frets whose context shows a parity error (01 R32), and cycles that a
hardware fault takes from a fret (02 R60: fret and cycles). (log 3) -/
structure FrameObs where
  chans : List ChanObs
  parity : List Nat
  stalls : List (Nat × Nat)
deriving DecidableEq, Repr

/-- What a monitor scan finds (16 R392, Table 16.2): the sum of the 256 codes of each item, VSW / 16, VIO / 2, VANA / 2, VCORE, the die
temperature, VREFA, VREFB, and of the reference resistor of each active excitation source. (log 3) -/
structure MonObs where
  vsw : Nat
  vio : Nat
  vana : Nat
  vcore : Nat
  die : Nat
  refA : Nat
  refB : Nat
  exc : List (Nat × Nat)
deriving DecidableEq, Repr

/-- A message of a vehicle that the SECC of a port accepts (12 R305–R309). `kind`: 0 supportedAppProtocol with the offered
protocols (Table 12.10 codes) by the vehicle's priority, 1 service selection, 2 identification, 3 a contract chain in DER,
leaf first, 4 PowerDeliveryReq Start, 5 CableCheckReq, 6 PowerDeliveryReq Stop, 7 SessionStopReq that terminates, 8
SessionStopReq that pauses, 9 a vehicle status that asks to stop, 10 DC targets in 0.1 V and 0.1 A, 11 any other. `state` is
the protocol state after it. (log 3) -/
structure V2gMsg where
  kind : Nat
  offered : List Nat
  service : Nat
  ident : Nat
  chain : List Bytes
  tgtV : Nat
  tgtI : Nat
  state : Nat
deriving DecidableEq, Repr

/-- A Yudaix frame that arrives (17 R399, R400): port 0 LKA, 1 LKB, 2 MPL0, 3 MPL1; `kind` 0 ordinary, 1 ring test, 2 the ring
manager's word that it has blocked its closing port again; `mine` for a frame addressed to this node alone. (log 3) -/
structure YuFrame where
  port : Nat
  prio : Nat
  kind : Nat
  src : Nat
  dst : Nat
  mine : Bool
  bytes : Bytes
deriving DecidableEq, Repr

/-- One entry of a discovery token (17 R408): node ID, hop count, ingress port, roles of LKA and LKB, and balance status: too
deep, or not aligned. (log 3) -/
structure DiscEntry where
  node : Nat
  hops : Nat
  port : Nat
  roleA : Nat
  roleB : Nat
  deep : Bool
  unaligned : Bool
deriving DecidableEq, Repr

/-- A discovery token as it arrives (17 R407, R408): the claimant of the root role with its PTP hop count. -/
structure Token where
  port : Nat
  root : Nat
  ptpHops : Nat
  run : Nat
  hops : Nat
  entries : List DiscEntry
deriving DecidableEq, Repr

/-- One node of the published map, in tour order (17 R408, R409): its branch and position, and whether the branch closes a
ring. -/
structure MapEntry where
  entry : DiscEntry
  branch : Nat
  position : Nat
  ring : Bool
deriving DecidableEq, Repr

/-- A symbol that a port presents for a turn (13 R324–R327): `tx` a transmit symbol, `alt` a frame-control alternate, `age`
the turns since it became complete, `last` the last symbol of its frame; `mod` of Table 13.2, 15 for frame control, 14 for a
modulation that is not supported. `time` is the node time of its first sample in ns, `index` its index in the frame, `blanked`
the samples blanked (R322), `snr` in 0.1 dB, `atten` in dB, `words` the packed samples of its body; `peer` for a frame of the
matched peer, and `frame` the management message that its last symbol completes. -/
structure Sym where
  port : Nat
  tx : Bool
  alt : Bool
  age : Nat
  last : Bool
  mod : Nat
  time : Nat
  index : Nat
  blanked : Nat
  snr : Int
  atten : Nat
  words : List Nat
  peer : Bool
  frame : Bytes
deriving DecidableEq, Repr

/-- A host datagram on HETH (19 R447, Table 19.2): source address and port, the address and port it is sent to, and its fields; `bads` lists the stream-port reads of
the transaction, counted from 0, whose word fails its parity. (log 3) -/
structure Datagram where
  src : Nat
  port : Nat
  dst : Nat
  dport : Nat
  op : Nat
  seq : Nat
  addr : Nat
  len : Nat
  data : Bytes
  bads : List Nat
deriving DecidableEq, Repr

/-- The commands the block takes: the host's Uasko commands, its register and stream accesses, and every event of
the part's own and of the world around it (spec/opcode_table.json, one constructor a row). A host command carries the
request's header and its payload bytes; an event that the part's time base bounds carries `t`, its instant on the
model's elapsed clock in nanoseconds (log entry 1). -/
inductive Instr where
  /-- Host command that returns vendor, device, ordering code, versions, serial, lifecycle and node ID. (R479)
  -/
  | identity (h : Hdr) (p : Bytes)
  /-- Host command that returns mode, servo state, seals, costliest-frame cost, counters and die temperature.
  (R479) -/
  | nodeStatus (h : Hdr) (p : Bytes)
  /-- Host command that returns the oldest unread detail of an event, the details left in its queue and its lost
  count. (R460) -/
  | eventDetail (h : Hdr) (p : Bytes)
  /-- Host command that, with SEAL0 closed and every point idle, defaults every parameter outside family 5/0,
  clears registers, journal and ledger, and restarts the Capo. (R482) -/
  | factoryReset (h : Hdr) (p : Bytes)
  /-- Host command that returns the stored values of 1 to 15 parameters. (R473) -/
  | parameterRead (h : Hdr) (p : Bytes)
  /-- Host command that opens a batch or adds 0 to 20 entries to the open batch. (R475) -/
  | parameterWrite (h : Hdr) (p : Bytes)
  /-- The COMMIT flag of parameter-write, which checks the whole batch in order and applies it or refuses it.
  (R476) -/
  | batchCommit (h : Hdr) (p : Bytes)
  /-- The ABORT flag of parameter-write, which discards the open batch together with the request's entries.
  (R475) -/
  | batchAbort (h : Hdr) (p : Bytes)
  /-- The CHECK flag set with COMMIT, which runs every commit check and then discards the batch without applying
  it. (R475) -/
  | batchCheck (h : Hdr) (p : Bytes)
  /-- Host command that returns the type, effect, seal, range and default of one parameter. (R479) -/
  | parameterDescribe (h : Hdr) (p : Bytes)
  /-- Host command that lists up to 120 PIDs in ascending order from a given PID. (R479) -/
  | parameterList (h : Hdr) (p : Bytes)
  /-- Host command that moves a session point from IDLE to AUTHORISING. (R228) -/
  | sessionRequest (h : Hdr) (p : Bytes)
  /-- Host command that returns a point in AUTHORISING to IDLE. (R228) -/
  | sessionReject (h : Hdr) (p : Bytes)
  /-- Host command that returns a point in AUTHORISED to IDLE. (R228) -/
  | sessionCancel (h : Hdr) (p : Bytes)
  /-- Host command that stops a transferring session with cause HOST_STOP. (R238) -/
  | sessionStop (h : Hdr) (p : Bytes)
  /-- Host command that stops a session with cause AUTH_REVOKED. (R231) -/
  | sessionRevoke (h : Hdr) (p : Bytes)
  /-- Host command that, when the cause's conditions hold, releases the holds it owns and moves the point from
  FAULT to IDLE. (R545) -/
  | faultAcknowledge (h : Hdr) (p : Bytes)
  /-- Host command that authorises a session with a reference, preset, credit limit and optional prices, and
  assigns its session number. (R232) -/
  | sessionAuthorise (h : Hdr) (p : Bytes)
  /-- Host command that changes the preset or credit limit of a session from the next frame. (R232) -/
  | sessionModify (h : Hdr) (p : Bytes)
  /-- Host command that returns the session state, causes, Q, cost and reference of a point. (R479) -/
  | sessionStatus (h : Hdr) (p : Bytes)
  /-- Host command that returns a point's electrical or fluid quantities in parts. (R480) -/
  | pointQuantities (h : Hdr) (p : Bytes)
  /-- Host command that returns the harmonic values of a slot for the last window or for the interval. (R175) -/
  | pointHarmonics (h : Hdr) (p : Bytes)
  /-- Host command that returns the supraharmonic band values of the last block of a slot. (R179) -/
  | pointSupraharmonics (h : Hdr) (p : Bytes)
  /-- Host command that returns every register, displayed value and wrap count of a point in three parts. (R256)
  -/
  | pointRegisters (h : Hdr) (p : Bytes)
  /-- Host command that returns the type, service state, sequences and status counters of a point. (R479) -/
  | pointStatus (h : Hdr) (p : Bytes)
  /-- Host command that returns a channel's gain index, course state, DC-block estimates, factory trim and frame
  mean. (R479) -/
  | channelStatus (h : Hdr) (p : Bytes)
  /-- Host command that queues a course in SINGLE for diagnosis at the next point interval boundary. (R116) -/
  | courseRestore (h : Hdr) (p : Bytes)
  /-- Host command that triggers a waveform capture of one point. (R181) -/
  | capture (h : Hdr) (p : Bytes)
  /-- Host command that sets the host limit on an outlet's available current from the next frame. (R297) -/
  | outletLimit (h : Hdr) (p : Bytes)
  /-- Host command that refreshes a DC charger's limits and state and returns the vehicle's targets. (R308) -/
  | outletDcStatus (h : Hdr) (p : Bytes)
  /-- Host command that loads or clears one certificate slot of the contract root store. (R309) -/
  | outletRootStore (h : Hdr) (p : Bytes)
  /-- Host command that requests a switch channel on or off at rank 6. (R33) -/
  | switchCommand (h : Hdr) (p : Bytes)
  /-- Host command that returns the switch-die registers. (R352) -/
  | switchStatus (h : Hdr) (p : Bytes)
  /-- Host command that reloads a channel's retry counter, clears EXHAUSTED and releases an overload turn-off.
  (R344) -/
  | switchReset (h : Hdr) (p : Bytes)
  /-- Host command that acknowledges a dual input or a faulted consumer entry, clearing a latch or releasing a
  demand where the conditions hold. (R362) -/
  | safetyAcknowledge (h : Hdr) (p : Bytes)
  /-- Host command that returns the dual-input levels, latches and consumer entry states. (R479) -/
  | safetyStatus (h : Hdr) (p : Bytes)
  /-- Host command that returns one journalled record with its status in two parts. (R259) -/
  | journalRead (h : Hdr) (p : Bytes)
  /-- Host command that acknowledges every journalled record of a series up to a sequence number. (R260) -/
  | recordAcknowledge (h : Hdr) (p : Bytes)
  /-- Host command that returns one legal event log entry with its status. (R377) -/
  | logRead (h : Hdr) (p : Bytes)
  /-- Host command that acknowledges legal event log entries up to an index. (R377) -/
  | logAcknowledge (h : Hdr) (p : Bytes)
  /-- Host command that returns journal occupancy and the next and acknowledged numbers of every series. (R479)
  -/
  | journalStatus (h : Hdr) (p : Bytes)
  /-- Host command that returns the generations and states of the node, point and TLS keys. (R479) -/
  | keyStatus (h : Hdr) (p : Bytes)
  /-- Host command that invalidates the named keys, logs each and ends or blocks the sessions concerned. (R430)
  -/
  | keyInvalidate (h : Hdr) (p : Bytes)
  /-- Host command that makes the next generation of each named invalidated key usable. (R432) -/
  | keyNextGeneration (h : Hdr) (p : Bytes)
  /-- Host command that runs the root regeneration procedure again. (R434) -/
  | keyRegenerate (h : Hdr) (p : Bytes)
  /-- Host command that queues a key attestation request and returns its request tag. (R436) -/
  | keyAttest (h : Hdr) (p : Bytes)
  /-- Host command that returns an attestation statement or session certificate. (R436) -/
  | keyStatementRead (h : Hdr) (p : Bytes)
  /-- Host command that returns the node and intermediate certificates in parts. (R438) -/
  | keyNodeCertificate (h : Hdr) (p : Bytes)
  /-- Host command that loads the certificate chain of an EVSE TLS key, refusing a leaf that does not match the
  usable key. (R438) -/
  | keyTlsCertificateLoad (h : Hdr) (p : Bytes)
  /-- Host command that, with SEAL0 closed, overwrites both helper-data copies and the certificates
  irreversibly. (R441) -/
  | keyErase (h : Hdr) (p : Bytes)
  /-- Host command that returns the public key of a node, point or TLS key. (R438) -/
  | keyPublicRead (h : Hdr) (p : Bytes)
  /-- Host command that opens the staging of an image of a given kind, length and digest. (R486) -/
  | fwBegin (h : Hdr) (p : Bytes)
  /-- Host command that carries one piece of the staged file to its slot. (R487) -/
  | fwData (h : Hdr) (p : Bytes)
  /-- Host command that closes a transfer and checks that the file is complete and matches its digest. (R488) -/
  | fwVerify (h : Hdr) (p : Bytes)
  /-- Host command that starts a service handover, or schedules a legal or microcode swap at the next boundary.
  (R489) -/
  | fwHandover (h : Hdr) (p : Bytes)
  /-- Host command that ends a service image trial and confirms the new image. (R491) -/
  | fwConfirm (h : Hdr) (p : Bytes)
  /-- Host command that returns the firmware staging state. (R502) -/
  | fwStatus (h : Hdr) (p : Bytes)
  /-- Host command that returns the servo state, source, offset, error bound and node time. (R71) -/
  | timeStatus (h : Hdr) (p : Bytes)
  /-- Host command that accepts a refused time correction as STEP or SLEW. (R78) -/
  | timeAccept (h : Hdr) (p : Bytes)
  /-- Host command that programs one time-triggered output. (R85) -/
  | ttoSet (h : Hdr) (p : Bytes)
  /-- Host command that sets the edges and filter of a capture input. (R87) -/
  | tciSet (h : Hdr) (p : Bytes)
  /-- Host command that reads the timestamps held in a capture input FIFO. (R87) -/
  | tciRead (h : Hdr) (p : Bytes)
  /-- Host command that returns the last 16 intervals of a balance group. (R418) -/
  | balanceResults (h : Hdr) (p : Bytes)
  /-- Host command that returns the root, the nodes in balance and the discovery map in tour order. (R408) -/
  | ringMap (h : Hdr) (p : Bytes)
  /-- Host command that holds one page on the display for up to 300 s, or releases it. (R279) -/
  | displayPin (h : Hdr) (p : Bytes)
  /-- Host command that sets the host segments for the next update. (R282) -/
  | displayStatic (h : Hdr) (p : Bytes)
  /-- Host command that loads the waveform table of a temperature band if it is balanced. (R283) -/
  | displayWaveform (h : Hdr) (p : Bytes)
  /-- Host command that supplies the panel temperature for 600 s. (R286) -/
  | displayTemperature (h : Hdr) (p : Bytes)
  /-- Host command that starts a display update. (R292) -/
  | displayUpdate (h : Hdr) (p : Bytes)
  /-- Host command that returns the result registers of a converter. (R389) -/
  | sarResults (h : Hdr) (p : Bytes)
  /-- Host command that fires the command trigger of the named converters. (R384) -/
  | sarTrigger (h : Hdr) (p : Bytes)
  /-- Host command that requests a converter self-test. (R395) -/
  | sarSelftest (h : Hdr) (p : Bytes)
  /-- Host command that unlocks the test window with SEAL2 closed. (R520) -/
  | testUnlock (h : Hdr) (p : Bytes)
  /-- Host command that relocks the test window and returns its registers to reset. (R520) -/
  | testRelock (h : Hdr) (p : Bytes)
  /-- A request part with MORE set, held for its mailbox and answered with status 0. (R469) -/
  | requestPart (h : Hdr) (code : Nat) (p : Bytes)
  /-- A request with PART above 0 that returns one part of a held answer. (R470) -/
  | responsePartRead (h : Hdr) (code : Nat) (p : Bytes)
  /-- Host writes RSP = 1 to free a mailbox after reading its response. `heth` is the interface. (R451) -/
  | mailboxRelease (m : Nat) (heth : Bool)
  /-- Host writes H_EV_CLEAR to clear pending event bits, and INTn follows. `hi` names H_EV_CLEAR_HI. (R460) -/
  | eventClear (hi : Bool) (v : BitVec 32)
  /-- Host writes H_HEARTBEAT, which restarts the host watchdog and clears HOST_LOST. (R463) -/
  | heartbeat (v : BitVec 32)
  /-- Host reads H_FRAME_LO, which latches H_FRAME_HI. (R446) -/
  | frameLoRead
  /-- Host reads five bytes of a stream port, advancing the FIFO or flagging underrun or poison. `bad` says that
  the parity of the word read fails. (R457) -/
  | streamPortRead (k : Nat) (bad : Bool)
  /-- Host writes FLUSH to discard a stream's words up to its last complete unit. `v` is written to H_STRs_CTRL.
  (R459) -/
  | streamFlush (k : Nat) (v : BitVec 32)
  /-- Host writes CLEAR to return every test register to reset. `v` is written to H_TEST_CTRL. (R522) -/
  | testClear (v : BitVec 32)
  /-- Host writes a stretch entry of the test window. (R523) -/
  | testStretchWrite (i : Nat) (v : BitVec 32)
  /-- Host writes H_TEST_FIFO to force FIFOs full or to hold them empty. (R523) -/
  | testFifoWrite (v : BitVec 32)
  /-- Host writes H_TEST_RING to delay frames leaving the line ports. (R523) -/
  | testRingWrite (v : BitVec 32)
  /-- Host writes H_TEST_ZC to offset zero-crossing timestamps. (R523) -/
  | testZcWrite (v : BitVec 32)
  /-- Host writes H_TEST_SAFETY to drop, corrupt or delay safety messages. (R523) -/
  | testSafetyWrite (v : BitVec 32)
  /-- Host writes H_TEST_PLC to starve power-line slots. (R523) -/
  | testPlcWrite (v : BitVec 32)
  /-- Host writes H_TEST_MRAM to delay MRAM writes. (R523) -/
  | testMramWrite (v : BitVec 32)
  /-- Host writes H_TEST_WD to withhold watchdog feeds or send a wrong answer. (R523) -/
  | testWdWrite (v : BitVec 32)
  /-- A host write to any other writable register, applied by its access code. `a` is the register's byte
  address; `heth` the interface. (R13) -/
  | registerWrite (a : Nat) (v : BitVec 32) (heth : Bool)
  /-- A QSPI transaction with an unlisted instruction or an incomplete address, which does nothing and sets an
  error bit. `short` says that HCSn rose before the address was complete; else the instruction is unlisted.
  (R445) -/
  | qspiTransactionError (short : Bool)
  /-- A host datagram received on HETH, which is refused, answered from the reply cache or executed. (R447) -/
  | hethDatagram (t : Nat) (g : Datagram)
  /-- A cached HETH reply is discarded 2 s after it was sent. (R449) -/
  | replyCacheExpiry (t : Nat)
  /-- An open batch is discarded after 10 s without a request. (R475) -/
  | batchTimeout (t : Nat)
  /-- The host watchdog expires: HOST_LOST is set and sessions that stop on host loss end. (R463) -/
  | hostWatchdogTimeout (t : Nat)
  /-- A stream has held words unread for its tail time and raises its event. (R458) -/
  | streamTailTimeout (t : Nat) (k : Nat)
  /-- A queued record is pushed to the record stream once room for 64 words frees. (R263) -/
  | recordStreamDequeue (t : Nat)
  /-- Node time crosses a frame boundary, the frame counter advances and the engine starts its schedule. `obs`
  is what was measured in the frame that ends. (R39) -/
  | frameTick (t : Nat) (obs : FrameObs)
  /-- The cycle count reaches the cut-off with frets unfinished: they are abandoned, the frame is marked invalid
  and fret 145 runs. (R60) -/
  | fretCutoff (t : Nat)
  /-- Fret 145 completes the hand-over block of a frame. (R48) -/
  | handoverBlockReady (t : Nat)
  /-- The Capo reads the hand-over block and adds the frame to the legal accumulators, sessions, display feed
  and pulse accumulators. (R147) -/
  | frameAccumulate (t : Nat)
  /-- At the close of an interval the Capo closes intervals, saves the ledger, posts balance, closes periods and
  builds records. (R47) -/
  | intervalBoundary (t : Nat)
  /-- The key unit completes a signature and the record is journalled and pushed to the record stream. (R38) -/
  | recordSigned (t : Nat)
  /-- At frame b+16 the new mode's schedule takes over and the old decimator settings stop. (R57) -/
  | modeChangeoverComplete (t : Nat)
  /-- The overload comparator crosses 70 % of g_hi full scale and the slice switches to g_lo. (R103) -/
  | autoGainSwitchUp (t : Nat) (c : Nat)
  /-- After a qualifying window below 4 % and a zero crossing or one further cycle, the slice switches to g_hi.
  `bits` are the slice's modulator samples from the start of the running frame to `t`. (R104) -/
  | autoGainSwitchDown (t : Nat) (c : Nat) (bits : List Int)
  /-- A modulator held at one value for 64 clocks has its integrators clamped and restarted. (R96) -/
  | modulatorRestart (t : Nat) (c : Nat)
  /-- A residual-trip comparator's hold expires and the switch die forces the contactor safe at rank 1.
  Comparator `comp` of slice `c`; `input` is the slice input in µV from the start of the running frame to `t`,
  each value held 10 µs. (R100) -/
  | residualTrip (t : Nat) (c : Nat) (comp : Nat) (input : List Int)
  /-- The residual self-test ends by a trip within 100 ms or without one, and passes or fails. (R313) -/
  | residualSelfTestResult (t : Nat) (p : Nat)
  /-- A queued course begins its 32-frame diagnosis in fret 146. (R114) -/
  | courseDiagnosisStart (t : Nat)
  /-- At frame d+32 the diagnosis gives its verdict and the course enters its next state. (R115) -/
  | courseVerdict (t : Nat)
  /-- An unresolved course falls due for a repeated diagnosis ND_DIAG_REPEAT after its verdict. (R113) -/
  | courseDiagRepeat (t : Nat) (j : Nat)
  /-- An unresolved course returns to AGREED after 4,000 frames without mismatch. (R113) -/
  | courseAgreedRestored (t : Nat) (j : Nat)
  /-- A role's fault count reaches its threshold and the fault is declared, with substitution from the next
  frame. `src` is a slot 0–7 or a pulse input 16, 17; `cause` is of Table 8.8. (R213) -/
  | sensorFaultDeclared (t : Nat) (p : Nat) (src : Nat) (cause : Nat)
  /-- A faulty role has been good for its clearing count and the fault clears. As SENSOR_FAULT_DECLARED. (R213)
  -/
  | sensorFaultCleared (t : Nat) (p : Nat) (src : Nat) (cause : Nat)
  /-- An excitation source reaches its compliance limit and its comparator trips. The comparator of source `p`
  trips, or releases. (R109) -/
  | excitationCompliance (t : Nat) (p : Nat) (tripped : Bool)
  /-- An accepted edge on a pulse input is timestamped and counted toward its frame. `t` is the first transition
  of PLS(2p), or PLS(2p+1) where `lineB`; the line then stayed stable for `held` ns; `both` says that both lines
  changed in one 8 ns sample. (R192) -/
  | pulseEdge (t : Nat) (p : Nat) (lineB : Bool) (rising : Bool) (both : Bool) (held : Nat)
  /-- A scheduled meter pulse edge is driven on MPOp, or waits in the backlog. (R161) -/
  | mpoPulseEdge (t : Nat) (p : Nat)
  /-- A positive-going crossing of the reference channel is timestamped and accepted or rejected against its
  prediction. The content instant of the crossing that the row reports, in node time. (R74) -/
  | zeroCrossing (t : Nat) (x : Nat)
  /-- No crossing has occurred 200 µs after its prediction, so the prediction is used in its place. (R74) -/
  | zcPredictionTimeout (t : Nat)
  /-- A Sync message gives an offset that the servo slews, tests against the jump threshold or uses to lock.
  `m.stamp` is the origin timestamp, of the Sync or of its Follow_Up. (R77) -/
  | ptpSyncReceived (t : Nat) (m : PtpMsg)
  /-- An Announce message feeds the best-master algorithm. (R67) -/
  | ptpAnnounceReceived (t : Nat) (a : Announce)
  /-- A delay or peer-delay message is timestamped and answered or used. Kind 0 Delay_Req, 1 Delay_Resp (`stamp`
  its receive timestamp), 2 Pdelay_Req, 3 Pdelay_Resp (`stamp` request receipt, `stamp2` response origin). (R68)
  -/
  | ptpDelayMessageReceived (t : Nat) (m : PtpMsg)
  /-- A management message is answered for GET or discarded. Kind 0 GET, 1 SET, 2 COMMAND. (R67) -/
  | ptpManagementReceived (t : Nat) (m : PtpMsg)
  /-- The announce receipt timeout expires and a locked servo enters HOLDOVER. (R71) -/
  | ptpAnnounceTimeout (t : Nat)
  /-- No Sync arrives for 4 sync intervals and a locked servo enters HOLDOVER. (R71) -/
  | ptpSyncTimeout (t : Nat)
  /-- PTP restarts on the ports concerned after a write of its parameters. (R88) -/
  | ptpRestart (t : Nat)
  /-- At the first interval boundary after 8 agreeing offsets the frame counter is loaded with the TAI frame
  number. (R72) -/
  | frameCounterLoad (t : Nat)
  /-- An accepted STEP reloads the frame counter at an interval boundary and closes the running periods. (R78)
  -/
  | timeStepApply (t : Nat)
  /-- A mains beacon is decoded, classified by phase and used for time or grid anchoring. `t` is the arrival of
  the preamble. (R334) -/
  | beaconReceived (t : Nat) (b : Beacon)
  /-- The node's beacon slot of a beacon period arrives and it sends its beacon. (R331) -/
  | beaconSlot (t : Nat)
  /-- A beacon period begins at the anchor crossing. (R330) -/
  | beaconPeriodStart (t : Nat)
  /-- No valid beacon arrives for 25 periods: mains time is left and the neighbour is declared lost. `node` is
  the sender that has fallen silent. (R333) -/
  | beaconTimeout (t : Nat) (node : Nat)
  /-- A time-triggered output reaches a programmed edge time and drives it. (R85) -/
  | ttoEdge (t : Nat) (i : Nat)
  /-- A capture input edge is timestamped into its FIFO. `t` is the first transition, and the input was then
  stable for `clocks` clocks of 8 ns. (R87) -/
  | tciEdge (t : Nat) (i : Nat) (rising : Bool) (clocks : Nat)
  /-- A pilot period of a port begins and takes any new duty. (R295) -/
  | pilotPeriod (t : Nat) (p : Nat)
  /-- A SAR general timer fires. (R385) -/
  | sarTimerTick (t : Nat) (i : Nat)
  /-- An entry's trigger plus delay falls and the entry becomes pending, or its trigger is dropped. Entry `i` of
  converter `k`. (R386) -/
  | sarTriggerFire (t : Nat) (k : Nat) (i : Nat)
  /-- A conversion completes, updating the result register and limit state of its entry. The conversion that
  converter `k` has in hand gives `code`; its sample was taken at `sampled`. (R389) -/
  | sarConversionComplete (t : Nat) (k : Nat) (code : Nat) (sampled : Nat)
  /-- A pilot code has appeared in PT_CP_STABLE consecutive samples and acts on the session. (R301) -/
  | pilotCodeAccepted (t : Nat) (p : Nat)
  /-- A proximity code has appeared in 10 consecutive samples and changes the cable rating or faults the point.
  (R304) -/
  | proximityCodeAccepted (t : Nat) (p : Nat)
  /-- Once per interval each converter converts its monitor list for references, excitation, supplies and
  temperature. The scan of the four converters. (R392) -/
  | monitorScan (t : Nat) (m : MonObs)
  /-- A converter self-test falls due by period, at start-up or each second while failed. (R395) -/
  | sarSelftestRun (t : Nat) (k : Nat)
  /-- A converter self-test completes, passing or failing. `sums` are the sums of the 16 codes at AGND and at
  DAC codes 51, 512 and 972. (R395) -/
  | sarSelftestComplete (t : Nat) (k : Nat) (sums : List Nat)
  /-- A V2G message from a vehicle requests energy, stops, or advances the protocol. (R306) -/
  | v2gMessageReceived (t : Nat) (p : Nat) (m : V2gMsg)
  /-- A SLAC parameter request is answered by eligible ports. The request of RunID `run` is heard on the ports
  `heard`. (R310) -/
  | cmSlacParmReq (t : Nat) (run : Nat) (heard : List Nat)
  /-- At the end of a sounding run only the port with the least attenuation and enough margin answers. The
  attenuations of the run on each port that received it, in dB, one for each sounding and tone group. (R310) -/
  | slacRunJudged (t : Nat) (run : Nat) (atten : List (Nat × List Nat)) (mac : Bytes)
  /-- The CM_SET_KEY exchange completes and the outlet link comes up. (R328) -/
  | plcLinkUp (t : Nat) (p : Nat)
  /-- No frame is decoded from the matched peer for ND_PLC_LINK_TIMEOUT and the link goes down. (R328) -/
  | plcLinkTimeout (t : Nat) (p : Nat)
  /-- The link has been down for PT_PLC_LOSS in TRANSFERRING, giving PLC_LOST. (R307) -/
  | plcLossTimeout (t : Nat) (p : Nat)
  /-- The V2G communication session ends by a protocol timeout, giving PLC_LOST. (R307) -/
  | v2gSessionTimeout (t : Nat) (p : Nat)
  /-- 250 ms pass without an outlet-DC-status refresh and the SECC reports shutdown. (R308) -/
  | dcStatusTimeout (t : Nat) (p : Nat)
  /-- A port's correlator detects a preamble, sets the AGC and opens a receive stream. `gain` is the AGC's
  setting in dB. (R320) -/
  | preambleDetected (t : Nat) (port : Nat) (gain : Nat)
  /-- A transform turn starts and slots are granted to presented symbols by class. (R326) -/
  | plcTurn (t : Nat) (syms : List Sym)
  /-- A weld condition holds after PT_WELD_DELAY from the off command and WELDED_CONTACT is declared. (R314) -/
  | weldedContactDeclared (t : Nat) (p : Nat)
  /-- The weld condition has been absent for 1 s and clears. (R315) -/
  | weldCleared (t : Nat) (p : Nat)
  /-- PT_AUTH_TIMEOUT elapses in AUTHORISING and the point returns to IDLE. (R228) -/
  | authTimeout (t : Nat) (p : Nat)
  /-- PT_START_TIMEOUT elapses in AUTHORISED and the point returns to IDLE. (R228) -/
  | startTimeout (t : Nat) (p : Nat)
  /-- PT_STOP_GRACE elapses in STOPPING and the path switches are commanded off. (R229) -/
  | stopGraceExpiry (t : Nat) (p : Nat)
  /-- PT_STOP_SETTLE elapses after the off command and the session enters CLOSED. (R229) -/
  | stopSettleExpiry (t : Nat) (p : Nat)
  /-- A safety input's filtered level changes after PT_SI_FILTER equal samples, and a demand trips its switches
  at rank 1. Channel A or B of dual input `k` has shown `level` in `n` consecutive samples. (R358) -/
  | siLevelChange (t : Nat) (k : Nat) (chanB : Bool) (level : Bool) (n : Nat)
  /-- A disagreement run reaches 10 × T_d + 1 samples and a discrepancy latches. (R361) -/
  | safetyDiscrepancyLatch (t : Nat) (k : Nat)
  /-- Under automatic restart, 100 ms without demand release the rank-1 latch. `src` 0–31 dual input, 32–47
  connection entry, 48 the own site stop. (R360) -/
  | safetyAutoRelease (t : Nat) (src : Nat)
  /-- A producer sends a safety message at its send period or after a demand change. (R365) -/
  | safetyMessageSend (t : Nat) (i : Nat)
  /-- A consumer checks a safety message and accepts, discards or faults on it. `i` is the consumer entry whose
  identity the Yudaix header names. (R366) -/
  | safetyMessageReceived (t : Nat) (i : Nat) (msg : Bytes)
  /-- A consumer entry's timer exceeds its time expectation and the entry faults. (R367) -/
  | safetyTimeExpectationExpiry (t : Nat) (i : Nat)
  /-- A seal land holds a new level for 20 ms: the change is logged, a SEAL record is built and the event is
  raised. The land of SEALi has held the level from `since` to `t`. (R375) -/
  | sealChange (t : Nat) (i : Nat) (closed : Bool) (since : Nat)
  /-- A channel stays in current limit for PT_SW_OVL_TIME and is turned off by overload. (R343) -/
  | overloadTimeout (t : Nat) (ch : Nat)
  /-- A channel's junction reaches 175 °C and its thermal latch opens it, or regulates a safe-on channel. `tj`
  is the junction in 0.1 °C. (R343) -/
  | thermalLatch (t : Nat) (ch : Nat) (tj : Int)
  /-- The junction falls to 160 °C, the latch releases and a retry is taken. `tj` is the junction in 0.1 °C.
  (R344) -/
  | thermalRelease (t : Nat) (ch : Nat) (tj : Int)
  /-- The retry delay after an overload ends and the channel retries or is marked EXHAUSTED. (R344) -/
  | retryDelayExpiry (t : Nat) (ch : Nat)
  /-- After 10 s of clean on-time the retry counter reloads. (R344) -/
  | retryCounterReload (t : Nat) (ch : Nat)
  /-- An off output stays above the threshold for 10 ms and an open load is declared. The output has stayed
  above the threshold from `since` to `t`. (R342) -/
  | openLoadDeclared (t : Nat) (ch : Nat) (since : Nat)
  /-- The output stays below the threshold for 10 ms and the open load clears. The output has stayed below the
  threshold from `since` to `t`. (R342) -/
  | openLoadCleared (t : Nat) (ch : Nat) (since : Nat)
  /-- VSW falls below the under-voltage threshold and safe-off channels turn off. `vsw` in 10 mV. (R347) -/
  | vswUndervoltage (t : Nat) (vsw : Nat)
  /-- VSW rises above the restore threshold and rank 2 releases. `vsw` in 10 mV. (R347) -/
  | vswRestore (t : Nat) (vsw : Nat)
  /-- VSW falls below 6.0 V and every safe-off channel turns off in every phase. `vsw` in 10 mV. (R347) -/
  | vswBelowRide (t : Nat) (vsw : Nat)
  /-- VSW falls below 5.0 V and the switch die resets. `vsw` in 10 mV. (R347) -/
  | switchDieReset (t : Nat) (vsw : Nat)
  /-- The switch die powers up with every channel off and enters START. `vsw` in 10 mV. (R346) -/
  | switchDiePowerUp (t : Nat) (vsw : Nat)
  /-- START or RECOVERY ends 10 s after it began. (R346) -/
  | supplyPhaseTimeout (t : Nat)
  /-- The Capo arms the watchdog with a new key and seed. Key and seed come from the TRNG. (R348) -/
  | watchdogArm (t : Nat) (key : BitVec 32) (seed : BitVec 32)
  /-- The Capo writes an answer, which is a good feed or applies the fail-safe table, and releases it after
  three good feeds. (R349) -/
  | watchdogFeed (t : Nat)
  /-- No good feed arrives within the window and the fail-safe table applies at rank 3. (R349) -/
  | watchdogWindowExpiry (t : Nat)
  /-- The die-to-die link is lost, outputs are held and it is treated as a missing feed. (R349) -/
  | dieLinkLost (t : Nat)
  /-- A Yudaix frame arrives on a port and is forwarded by priority or taken. (R400) -/
  | yudaixFrameReceived (t : Nat) (f : YuFrame)
  /-- A frame queued on a mains port is not delivered within 20 ms and is dropped. (R401) -/
  | mainsFrameTimeout (t : Nat)
  /-- A line port loses its link and sends a link-down notice. 0 LKA, 1 LKB. (R411) -/
  | lineLinkDown (t : Nat) (port : Nat)
  /-- A line port regains its link and keeps it blocked until the ring is restored. 0 LKA, 1 LKB. (R411) -/
  | lineLinkUp (t : Nat) (port : Nat)
  /-- The ring head sends a ring-test frame every 100 µs. (R411) -/
  | ringTestSend (t : Nat)
  /-- Three consecutive ring-test frames are missing and the ring manager unblocks its closing port. (R411) -/
  | ringTestMissing (t : Nat)
  /-- The ring manager receives a link-down notice, unblocks its closing port and flushes. The port on which the
  notice arrives. (R411) -/
  | linkDownNotice (t : Nat) (port : Nat)
  /-- A node receives a flush and clears its learned addresses. The port on which the flush arrives. (R411) -/
  | ringFlush (t : Nat) (port : Nat)
  /-- The root starts a discovery run on root choice, a link change or ND_DISC_PERIOD. (R408) -/
  | discoveryStart (t : Nat)
  /-- A node appends its entry to a discovery token and forwards it, or yields to a better root. (R408) -/
  | discoveryTokenReceived (t : Nat) (k : Token)
  /-- The root publishes the map, tour and positions. The root and the map that its run has found, in tour
  order. (R408) -/
  | discoveryComplete (t : Nat) (root : Nat) (m : List MapEntry)
  /-- The root launches the balance frame of an interval with its own record added. (R416) -/
  | balanceFrameLaunch (t : Nat)
  /-- The balance frame has not returned after ND_BALANCE_RETRY and the root launches a retry. (R416) -/
  | balanceRetry (t : Nat)
  /-- A node adds its contribution and fault reports to a passing balance frame and reads the results. (R415) -/
  | balanceFramePass (t : Nat) (frame : Bytes)
  /-- A copy returns to the root, which judges each group and raises coalesced faults. (R417) -/
  | balanceFrameReturn (t : Nat) (frame : Bytes)
  /-- No copy has returned 100 ms after the boundary and the interval is judged for no group. (R417) -/
  | balanceReturnLate (t : Nat)
  /-- Three intervals pass without a balance frame and every node reselects the root. (R421) -/
  | rootLost (t : Nat)
  /-- The core rails pass their start thresholds with REFCLK25 running and start-up begins. The rails in mV.
  (R503) -/
  | powerGood (t : Nat) (vcore : Nat) (vio : Nat) (vana : Nat) (refclk : Bool)
  /-- The boot ROM verifies the active legal slot, or falls back or stays in the recovery loader. Which legal
  slot verifies. (R499) -/
  | capoBootVerified (t : Nat) (ok0 : Bool) (ok1 : Bool)
  /-- The parameter store is loaded, the fail-safe table written and the watchdog armed. The offset of an
  uncorrectable word in each copy; key and seed of the watchdog come from the TRNG. (R507) -/
  | parameterStoreLoaded (t : Nat) (badNew : Option Nat) (badOld : Option Nat) (key : BitVec 32) (seed : BitVec 32)
  /-- Root regeneration ends with the root rebuilt or KEY_REGEN_FAIL. What each attempt on each copy would find,
  as codes of Table 18.5; the word of each copy that an uncorrectable error stands in, copy 1's times 512 plus
  copy 0's; the bits corrected in the last attempt and the duration in ms. (R425) -/
  | rootRegenerated (t : Nat) (copy0 : List Nat) (copy1 : List Nat) (words : Nat) (errors : Nat) (ms : Nat)
  /-- The Capo merges the newest ledger entry and residual bank, ends open sessions and starts metering. Entry
  slots, banks and high-water lines that do not verify, and the offsets in the ledger of uncorrectable words.
  (R270) -/
  | holdupMerge (t : Nat) (badE : List Nat) (badB : List Nat) (badL : List Nat) (words : List Nat)
  /-- The service pair boots from a confirmed slot and READY is set. Which service slot verifies. (R494) -/
  | serviceImageBooted (t : Nat) (okA : Bool) (okB : Bool)
  /-- PFWn has been low for ND_PFW_FILTER and the power-fail warning begins. PFWn has been low from `since` to
  `t`. (R266) -/
  | pfwWarning (t : Nat) (since : Nat)
  /-- VSW falls below ND_VSW_WARN and the power-fail warning begins. `vsw` in 10 mV. (R513) -/
  | vswMonitorTrip (t : Nat) (vsw : Nat)
  /-- The supply has been good for ND_HOLDUP_RESUME and the warning ends. The supply has been good from `since`
  to `t`; `vsw` in 10 mV. (R272) -/
  | warningEnd (t : Nat) (since : Nat) (vsw : Nat)
  /-- The brown-out detector trips and the last complete frame is banked. The rails in mV. (R268) -/
  | brownOut (t : Nat) (vcore : Nat) (vio : Nat)
  /-- 600 µs after the brown-out trip the core die enters reset. (R505) -/
  | brownOutReset (t : Nat)
  /-- A core rail falls below its restart threshold and the core die resets. `rail` 0 VCORE, 1 VIO, 2 VANA.
  (R504) -/
  | railRestartTrip (t : Nat) (rail : Nat) (mV : Nat)
  /-- The clock monitor detects REFCLK25 lost and resets the core die. (R64) -/
  | refclkLoss (t : Nat)
  /-- The die reaches 150 °C and is held in reset until it cools below 130 °C. `temp` in 0.1 °C. (R515) -/
  | thermalShutdown (t : Nat) (temp : Int)
  /-- RESETn falls, resetting the core die and applying the fail-safe table by FSRST. RESETn has been low for
  `width` ns; `fsrst` is the strap at its falling edge. (R511) -/
  | resetnAssert (t : Nat) (width : Nat) (fsrst : Bool)
  /-- RESETn rises and start-up begins from tp. (R507) -/
  | resetnRelease (t : Nat)
  /-- The lockstep cores diverge and the Capo resets. `code` is the exception code of the core. (R31) -/
  | capoDivergence (t : Nat) (code : Nat)
  /-- An exception in the legal image resets the Capo. `code` is the exception code of the core. (R509) -/
  | capoException (t : Nat) (code : Nat)
  /-- The Capo restarts from the ledger and adds frames again, counting the lost frames. As HOLDUP_MERGE, with
  the key and seed of the watchdog. (R510) -/
  | capoRestart (t : Nat) (badE : List Nat) (badB : List Nat) (badL : List Nat) (words : List Nat) (key : BitVec 32) (seed : BitVec 32)
  /-- After the holdup merge the display rails start and the clear and first page are drawn. The ns after `t` at
  which each rail is good. (R288) -/
  | displayStart (t : Nat) (vep : Nat) (ven : Nat) (ladder : Nat)
  /-- A display rail is out of tolerance at its maximum time: rails are removed and a retry is due 10 s later.
  (R288) -/
  | displayRailTimeout (t : Nat)
  /-- A dwell ends and the next page starts a routine update. (R279) -/
  | displayPageChange (t : Nat)
  /-- ND_DISP_REFRESH passes within a dwell and an update starts if any segment would change. (R284) -/
  | displayRefresh (t : Nat)
  /-- A waveform phase ends, the book advances and the next phase or the update's end follows. (R285) -/
  | displayPhaseEnd (t : Nat)
  /-- Every 10 ms of a phase the elapsed time is written to the book. (R285) -/
  | displayBookMark (t : Nat)
  /-- A pinned page's hold time ends. (R279) -/
  | displayPinExpiry (t : Nat)
  /-- A host-supplied panel temperature expires after 600 s and the die source serves. (R286) -/
  | displayTempExpiry (t : Nat)
  /-- A segment or COM output detects overcurrent and raises DISPLAY_FAULT. `seg` 0–159, or 255 for COM. (R534)
  -/
  | displayOvercurrent (t : Nat) (seg : Nat)
  /-- A queued attestation statement is signed and ATTESTATION_READY is raised. (R436) -/
  | attestationComplete (t : Nat)
  /-- Verification of a staged image completes and FW_STAGED gives the outcome. (R488) -/
  | fwStageVerified (t : Nat)
  /-- The standby core is booted on the new image and the handover runs at the next frame boundary. (R489) -/
  | standbyReady (t : Nat)
  /-- The standby core is not ready 2 s after fw-handover and the handover is abandoned. (R489) -/
  | handoverBootTimeout (t : Nat)
  /-- ND_FW_CONFIRM_TIMEOUT passes in a trial and the node falls back warm. (R492) -/
  | fwConfirmTimeout (t : Nat)
  /-- The active service core fails its liveness check or stops by exception, and the standby core takes over
  cold. `exc` is the code of the exception that stopped the active core; none where it failed to answer. (R492)
  -/
  | serviceLivenessFail (t : Nat) (exc : Option Nat)
  /-- ND_TEST_TIMEOUT passes with no write to the window and it relocks. (R520) -/
  | testTimeout (t : Nat)
  /-- A safety message held by the delay perturbation is sent at its due time. (R523) -/
  | testSafetyDelayRelease (t : Nat)
  /-- At each of its announce, sync or peer-delay intervals the node sends its PTP message as master, slave or
  peer, with the clockClass and timestamps its state gives. Kind 0 Announce, 1 Sync, 2 delay request. (R67) -/
  | ptpMessageTransmit (t : Nat) (port : Nat) (kind : Nat)
  /-- Ten seconds after a display rail failed its tolerance the driver tries the rail start again. As
  DISPLAY_START. (R288) -/
  | displayStartRetry (t : Nat) (vep : Nat) (ven : Nat) (ladder : Nat)
  /-- The die cools below 130 °C, the thermal comparator releases the core-die reset and start-up begins from
  tp. `temp` in 0.1 °C. (R515) -/
  | thermalShutdownEnd (t : Nat) (temp : Int)
  /-- A switch channel's load current reaches its limit, so it enters regulation with LIMITING set and its
  overload timer starts, or it leaves regulation and the timer resets. `reached` false says that the current has
  left the limit again; `mA` is the channel's sense. (R343) -/
  | switchCurrentLimit (t : Nat) (ch : Nat) (reached : Bool) (mA : Nat)
deriving DecidableEq, Repr

end Sys2Proof
end

