-- ==== Sys2Proof/Decode.lean ====
section
/-!
DEFINITION. The commands carry no instruction words: spec/opcode_table.json gives none of its rows bits, so no word spells a command.
-/

namespace Sys2Proof

/-- The command that a word spells by the table's bits: the table gives no row any. -/
def decodeTableWord (_nbits _w : Nat) : Option Instr := none

end Sys2Proof
end

