-- ==== Sys2Proof/Machine/Bytes.lean ====
section
/-!
DEFINITION. Bytes and fields: little-endian packing (R6, R468), two's complement, saturating counts (R253), bitmaps
and the list updates the machine's parts use.
-/

namespace Sys2Proof.Machine

/-- One byte of a number. -/
def byteOf (n : Nat) : Byte := BitVec.ofNat 8 n

/-- `k` bytes of `n`, least significant first (R6). -/
def le : Nat → Nat → Bytes
  | 0, _ => []
  | k + 1, n => byteOf n :: le k (n / 256)

/-- `k` bytes of a signed number in two's complement, least significant first. -/
def leI (k : Nat) (i : Int) : Bytes := le k (i % (2 ^ (8 * k) : Nat)).toNat

/-- The number that bytes spell, least significant first. -/
def fromLe : Bytes → Nat
  | [] => 0
  | b :: bs => b.toNat + 256 * fromLe bs

/-- The number that bytes spell, most significant first. -/
def fromBe (bs : Bytes) : Nat := bs.foldl (fun a b => a * 256 + b.toNat) 0

/-- `k` bytes of `n`, most significant first. -/
def be (k n : Nat) : Bytes := (le k n).reverse

/-- `k` bytes of a payload from an offset. -/
def slice (p : Bytes) (off k : Nat) : Bytes := (p.drop off).take k

/-- The unsigned field of `k` bytes at an offset (R468). -/
def fld (p : Bytes) (off k : Nat) : Nat := fromLe (slice p off k)

/-- The value of `n` read as two's complement of `bits` bits. -/
def signed (bits n : Nat) : Int := if n < 2 ^ (bits - 1) then n else (n : Int) - (2 ^ bits : Nat)

/-- The signed field of `k` bytes at an offset. -/
def fldI (p : Bytes) (off k : Nat) : Int := signed (8 * k) (fld p off k)

/-- `n` zero bytes. -/
def zeros (n : Nat) : Bytes := List.replicate n 0

/-- Bytes cut or filled with zeros to `n`. -/
def padTo (n : Nat) (bs : Bytes) : Bytes := (bs ++ zeros n).take n

/-- A sum that stops at the width's largest value (R253). -/
def satAdd (bits a b : Nat) : Nat := min (a + b) (2 ^ bits - 1)

/-- A saturating 32-bit count, one up. -/
def inc32 (a : Nat) : Nat := satAdd 32 a 1

/-- A counter that wraps, one up. -/
def wrapInc (bits a : Nat) : Nat := (a + 1) % 2 ^ bits

/-- A number clipped to a signed width. -/
def clipI (bits : Nat) (i : Int) : Int := max (-(2 ^ (bits - 1) : Nat) : Int) (min i ((2 ^ (bits - 1) : Nat) - 1))

/-- A bitmap from a list of flags, bit 0 first. -/
def bitmapOf : List Bool → Nat
  | [] => 0
  | b :: bs => (if b then 1 else 0) + 2 * bitmapOf bs

/-- The numbers below `n` whose bit is set in a bitmap. -/
def bitsOf (n m : Nat) : List Nat := (List.range n).filter (fun i => m.testBit i)

/-- A bitmap from the numbers of its bits. -/
def mapOf (n : Nat) (l : List Nat) : Nat := bitmapOf ((List.range n).map (fun i => l.contains i))

/-- A bitmap with one bit put. -/
def putBit (m i : Nat) (b : Bool) : Nat :=
  if m.testBit i = b then m else if b then m + 2 ^ i else m - 2 ^ i

/-- The number of a flag. -/
def b2n (b : Bool) : Nat := if b then 1 else 0

/-- The entry at an index changed by `f`; an index outside the list changes nothing. -/
def upd {α : Type} (l : List α) (i : Nat) (f : α → α) : List α := l.modify i f

/-- The entry at an index replaced. -/
def put {α : Type} (l : List α) (i : Nat) (a : α) : List α := l.set i a

/-- Integer division rounding half away from zero (R236). -/
def divHalfAway (a : Int) (d : Nat) : Int :=
  if 0 ≤ a then (2 * a + d) / (2 * d) else -((2 * -a + d) / (2 * d))

/-- Integer division rounding to nearest, ties to even. -/
def divHalfEven (a : Int) (d : Nat) : Int :=
  let q := a / d
  let r := a % d
  if 2 * r < d then q else if (d : Int) < 2 * r then q + 1 else if q % 2 = 0 then q else q + 1

/-- Integer square root by halving, structural on its fuel. -/
def isqrtAux : Nat → Nat → Nat → Nat → Nat
  | 0, _, lo, _ => lo
  | k + 1, n, lo, hi =>
    if hi ≤ lo + 1 then lo
    else
      let m := (lo + hi) / 2
      if m * m ≤ n then isqrtAux k n m hi else isqrtAux k n lo m

/-- The integer part of a square root. -/
def isqrt (n : Nat) : Nat := isqrtAux (n.log2 + 3) n 0 (2 ^ (n.log2 / 2 + 1))

/-- A timer that is due at or before `t`. -/
def ripeAt (d : Option Nat) (t : Nat) : Bool :=
  match d with
  | some x => x ≤ t
  | none => false

/-- Split a list into pieces of `k` entries, structural on a fuel. -/
def chunksAux {α : Type} : Nat → Nat → List α → List (List α)
  | 0, _, _ => []
  | f + 1, k, l => if l.isEmpty then [] else l.take k :: chunksAux f k (l.drop k)

/-- Split a list into pieces of `k` entries, the last one shorter. -/
def chunks {α : Type} (k : Nat) (l : List α) : List (List α) := chunksAux (l.length + 1) k l

end Sys2Proof.Machine
end

