-- ==== Sys2Proof/Machine/Fixed.lean ====
section
/-!
DEFINITION. Real functions that the spec's formulas use, evaluated by their power series in units of 2^-60: sine and cosine
(05 R128, 07 R172), the arc tangent (07 R174), the exponential, the logarithm and real powers (08 R199, R200), and the Bessel
function of a Kaiser window (05 R128, 06 R150, 03 R73). The spec states no precision for them; what is cut off lies below
2^-52 (log entry 4).
-/

namespace Sys2Proof.Machine

/-! ### Numbers in units of 2^-60 -/

/-- One. -/
def qOne : Int := 2 ^ 60

/-- π. -/
def qPi : Int := 3622009729038561421

/-- ln 2. -/
def qLn2 : Int := 799144290325165979

/-- √2. -/
def qSqrt2 : Int := 1630477228166597777

/-- Product. (log 4) -/
def qm (a b : Int) : Int := a * b / 2 ^ 60

/-- Quotient. (log 4) -/
def qd (a b : Int) : Int := a * 2 ^ 60 / b

/-- The rational `n / d`. (log 4) -/
def qr (n : Int) (d : Nat) : Int := n * 2 ^ 60 / d

/-! ### Sine and cosine -/

/-- The series 1 − x²/((j+1)(j+2)) · (1 − x²/((j+3)(j+4)) · …) to `k` terms: cos x for j = 0, sin x / x for j = 1. -/
def circSeries (x2 : Int) : Nat → Nat → Int
  | 0, _ => qOne
  | k + 1, j => qOne - qm x2 (circSeries x2 k (j + 2)) / ((j + 1) * (j + 2) : Nat)

/-- sin x for x from −π to π. (log 4) -/
def qSin (x : Int) : Int := qm x (circSeries (qm x x) 20 1)

/-- cos x for x from −π to π. (log 4) -/
def qCos (x : Int) : Int := circSeries (qm x x) 20 0

/-- The angle of `n / d` of a turn, from −π to π. -/
def turnAngle (n : Int) (d : Nat) : Int :=
  let r := n % d
  2 * qPi * (if 2 * r ≤ d then r else r - d) / d

/-- sin of `n / d` of a turn. -/
def sinTurn (n : Int) (d : Nat) : Int := qSin (turnAngle n d)

/-- cos of `n / d` of a turn. -/
def cosTurn (n : Int) (d : Nat) : Int := qCos (turnAngle n d)

/-! ### Exponential, logarithm and power -/

/-- The series 1 + x/(j+1) · (1 + x/(j+2) · …) to `k` terms. -/
def expSeries (x : Int) : Nat → Nat → Int
  | 0, _ => qOne
  | k + 1, j => qOne + qm x (expSeries x k (j + 1)) / ((j + 1 : Nat) : Int)

/-- e^x. (log 4) -/
def expQ (x : Int) : Int :=
  let k := x / qLn2
  let y := expSeries (x - k * qLn2) 22 0
  if 0 ≤ k then y * 2 ^ k.toNat else y / 2 ^ (-k).toNat

/-- The series 1/j + z² · (1/(j+2) + z² · …) to `k` terms. -/
def atanhSeries (z2 : Int) : Nat → Nat → Int
  | 0, _ => 0
  | k + 1, j => qOne / (j : Int) + qm z2 (atanhSeries z2 k (j + 2))

/-- ln x for x > 0: x = 2^k · m with m from 1 to 2, and ln m = 2 · artanh((m − 1)/(m + 1)). (log 4) -/
def lnQ (x : Int) : Int :=
  let k : Int := (Nat.log2 x.toNat : Int) - 60
  let m := if 0 ≤ k then x / 2 ^ k.toNat else x * 2 ^ (-k).toNat
  let z := qd (m - qOne) (m + qOne)
  k * qLn2 + 2 * qm z (atanhSeries (qm z z) 24 1)

/-- x^e for x > 0, and 0 for x ≤ 0. (log 4) -/
def powQ (x e : Int) : Int := if x ≤ 0 then 0 else expQ (qm e (lnQ x))

/-! ### Arc tangent -/

/-- The series 1/j − t² · (1/(j+2) − t² · …) to `k` terms. -/
def atanSeries (t2 : Int) : Nat → Nat → Int
  | 0, _ => 0
  | k + 1, j => qOne / (j : Int) - qm t2 (atanSeries t2 k (j + 2))

/-- The tangent of half the angle of tangent `t`. -/
def halfTan (t : Int) : Int := qd t (qOne + (isqrt (qOne * qOne + t * t).toNat : Nat))

/-- arctan t for t from 0 to 1, by halving the angle twice. -/
def atanUnit (t : Int) : Int :=
  let h := halfTan (halfTan t)
  4 * qm h (atanSeries (qm h h) 24 1)

/-- The angle of the phasor re + j·im from −π to π, and 0 for the phasor 0. (log 4) -/
def angleQ (re im : Int) : Int :=
  let a : Int := re.natAbs
  let b : Int := im.natAbs
  let first := if a = 0 ∧ b = 0 then 0 else if b ≤ a then atanUnit (qd b a) else qPi / 2 - atanUnit (qd a b)
  let half := if re < 0 then qPi - first else first
  if im < 0 then -half else half

/-! ### Kaiser windows -/

/-- I₀ of 2√u by its series Σ uⁿ / (n!)², to `k` terms. -/
def besselSeries (u : Int) : Nat → Nat → Int
  | 0, _ => qOne
  | k + 1, j => qOne + qm u (besselSeries u k (j + 1)) / ((j * j : Nat) : Int)

/-- The Kaiser window of parameter β at the fraction `d / half` of its half length, not normalised: I₀(β √(1 − (d / half)²)).
(log 4) -/
def kaiser (beta : Nat) (d : Int) (half : Nat) : Int :=
  if half ^ 2 < d.natAbs ^ 2 then 0
  else besselSeries (qr (beta ^ 2 * (half ^ 2 - d.natAbs ^ 2) : Nat) (4 * half ^ 2)) 40 1

end Sys2Proof.Machine
end

