-- ==== Sys2Proof/Config.lean ====
section
/-!
DEFINITION. What one node fixes and what the spec leaves open: identity values from final test, free values, and
functions the spec names by a published standard or by a physical source, none of which has a body here (log entry 5).
-/

namespace Sys2Proof.Config

/-- A free bit: whether an unstated rounding of `num / den` goes up (log entry 4). -/
opaque roundUp (num : Int) (den : Nat) : Bool

/-- The `n`-th free value of the machine (log entry 5). -/
opaque freeValue (n : Nat) : Nat

/-- What the host interface holds after the `n`-th case that the host must avoid (R465, R483): item `i`. (log 8) -/
opaque hostFree (n i : Nat) : Nat

/-- Silicon revision, from final test (Table 19.3). (log 41) -/
opaque siliconRevision : Nat

/-- The module's serial number, from final test (Tables 18.2, 20.4). (log 41) -/
opaque serial : Nat

/-- Ordering code: 0 CF9128-I, 1 CF9128-X (R5). (log 41) -/
opaque orderingCode : Nat

/-- ECDSA signature r ‖ s of a digest under a private key (R254, R435); the nonce is not stated. -/
opaque ecdsaSign (d : Nat) (digest : Bytes) : Bytes

/-- Public key x ‖ y of a P-256 private key (R427). -/
opaque p256Public (d : Nat) : Bytes

/-- Public key x ‖ y of a P-521 private key (R427). -/
opaque p521Public (d : Nat) : Bytes

/-- The key unit's random numbers (R428). -/
opaque trng (n : Nat) : Nat

/-- The 256-bit root that the key unit rebuilds from this module's silicon (R425). -/
opaque pufRoot : Bytes

/-- How the `n`-th run of root regeneration by command goes (R434): what each attempt on both helper copies would find (Table 18.5), the bits
corrected in the last one, and the duration in ms. (log 31) -/
opaque regeneration (n : Nat) : List Nat × List Nat × Nat × Nat

/-- Whether the `n`-th read of a word of the MRAM meets an uncorrectable error (R36). (log 44) -/
opaque mramBad (n : Nat) : Bool

/-- The node certificate in DER, from final test (R426). (log 41) -/
opaque nodeCertificate : Bytes

/-- The Ghengaos intermediate certificate in DER (R426). (log 41) -/
opaque intermediateCertificate : Bytes

/-- The uncompressed public key that a DER certificate holds (R438). -/
opaque certificateKey (der : Bytes) : Bytes

/-- Whether a chain of DER certificates, leaf first, is verified by a root certificate (R309); validity is by published
standards. -/
opaque chainVerifies (chain : List Bytes) (root : Bytes) : Bool

/-- The servo's filter: the filtered offset after a measured one, in ns (R71, R72). (log 15) -/
opaque filterOffset (filtered measured : Int) : Int

/-- The servo's frequency correction after a measured offset of local time, in ppb: the spec gives its bound and not its law (R64).
(log 15) -/
opaque steer (ppb offset : Int) : Int

/-- Bytes of a ring-control frame, whose layout the spec does not give (R408, R411): 0 link-down notice, 1 ring test, 2 flush,
3 ring restored, 4 discovery token. (log 20) -/
opaque ringFrame (kind : Nat) : Bytes

/-- The 8 bytes of a discovery entry, whose layout the spec does not give (R408). (log 20) -/
opaque discoveryEntry (e : List Nat) : Bytes

/-- Node ID of the node whose clockIdentity this is, or 0xFFF for a clock that is not a node (Table 17.7). -/
opaque clockNode (gm : Nat) : Nat

/-- Whether an image header's signature verifies under the key of the Capo's boot ROM (R484). (log 45) -/
opaque headerSigned (header : Bytes) : Bool

/-- The cost table at the end of a microcode body, whose layout the spec does not give (R485): the rows of Tables 2.4 and 2.5
as the schedule reads them. (log 45) -/
opaque costTable (microcode : Bytes) : List Nat

/-- Whether the Capo can build one parameter format from another (R488, R495). (log 45) -/
opaque canBuildFormat (running wanted : Nat) : Bool

/-- The node's own clockIdentity (R67). (log 41) -/
opaque clockIdentity : Nat

/-- The node's own offsetScaledLogVariance (R67). -/
opaque clockVariance : Nat

/-- Factory trim offset of a slice at a gain index, s2.30, from final test (R129). -/
opaque trimOffset (slice gain : Nat) : Int

/-- Factory trim gain of a slice at a gain index, u2.30, from final test (R129). -/
opaque trimGain (slice gain : Nat) : Nat

/-- Taps of the FIR stages of Table 5.1 that the spec names without coefficients, 30 fraction bits: 0 the 17-tap and 1 the 65-tap
decimator, 2 the 15-tap droop equaliser; tap `k` counts from either end, the stages being linear-phase (R121). (log 50) -/
opaque firTap (stage k : Nat) : Int

/-- Taps of the linear-phase anti-alias filter from 128 kSa/s to 1 kSa/s, 30 fraction bits, by their distance from the centre
(R149): the spec gives its passband and no coefficients. (log 50) -/
opaque slowTap (distance : Nat) : Int

/-- Gain and corner, in 2^-30 of their nominal values, of a slice's residual paths: 0 DC gain, 1 DC corner, 2 AC gain, 3 AC
corner. R100 gives their tolerances alone. -/
opaque residualPath (slice which : Nat) : Nat

/-- The relative error of an IF97 value, in units of 2^-60 of the 1 part in 10^8 that R195 allows: region, which value of it,
and its operands. (log 49) -/
opaque steamError (region which : Nat) (p t : Int) : Int

/-- Z of air outside Table 8.7, which the spec does not state (R210), at a pressure in Pa and a temperature in K, in units
of 2^-60. -/
opaque airZOutside (p t : Int) : Int

end Sys2Proof.Config
end

