-- ==== Sys2Proof/Machine/State.lean ====
section
/-!
DEFINITION. The machine's state as plain data: every register, counter, FIFO, buffer, timer and pin the spec
gives the block, the queue of commands that wait, and the state right after reset (before POWER_GOOD).
Marks: a field whose reset value the spec does not give is named in the assumption log (6).
-/

namespace Sys2Proof.Machine

/-- How a step can stop. No command of the block stops: what the spec calls undefined (Tables 19.16 and 20.8) it confines to the
host interface (R465), and the model goes on with free values there. -/
inductive Fault where
deriving DecidableEq, Repr

/-- Why a command has no meaning here. -/
inductive Refusal where
  /-- Raised by an arm of `exec` whose command has no meaning yet, under the mnemonic of its row. Safe. -/
  | notModelled (mnemonic : String)
deriving DecidableEq, Repr

/-- When a written parameter takes effect (R18), coded in the order of R18. -/
inductive Effect where
  | immediate | nextFrame | nextInterval | nextPointInterval | nextSession | nextStart
deriving DecidableEq, Repr

/-- The servo states of Table 3.3. -/
inductive ServoState where
  | free | acquiring | locked | mains | holdover
deriving DecidableEq, Repr

/-- Use of zero crossings (R75, Table 20.6): 0 valid, 1 lost, 2 none. -/
inductive ZcState where
  | valid | lost | none
deriving DecidableEq, Repr

/-- The states of a course (Table 4.7). -/
inductive CourseState where
  | agreed | mismatched | diagnosing | single | unresolved
deriving DecidableEq, Repr

/-- The session states of Table 9.5. -/
inductive SessState where
  | idle | authorising | authorised | transferring | stopping | closed | fault
deriving DecidableEq, Repr

/-- An order of the Capo's to the switch die beside a channel command (01 R33 rank 4, 14 R344). -/
inductive DieOp where
  /-- A rank-4 source holds a channel. -/
  | hold (src n : Nat)
  /-- A rank-4 source leaves a channel. -/
  | free (src n : Nat)
  /-- A rank-4 source leaves every channel. -/
  | freeAll (src : Nat)
  /-- The retry counter of a channel is reloaded. -/
  | reload (n : Nat)
deriving DecidableEq, Repr

/-- Node time counters (02, 03). -/
structure Clock where
  /-- model's own: elapsed ns of the clock that REFCLK25 gives, before the servo's correction, since the model's start (03 R66; log 1). -/
  up : Nat
  /-- 48 bits (02 R39). -/
  frame : Nat
  /-- 32 bits (02 R41). -/
  interval : Nat
  /-- 48 bits, first frame of the running interval (02 R42). -/
  ivalStart : Nat
  /-- 1 bit, frame counter loaded from TAI (02 R40, 03 R72). -/
  loaded : Bool
  /-- model's own: counter that indexes free values (log 5). -/
  freeCtr : Nat
  /-- first frame of the interval whose boundary work (Table 2.2) is still to be done (02 R47). -/
  bdry : Option Nat
  /-- model's own: elapsed ns of that boundary (02 R47). -/
  bdryAt : Nat
  /-- last frame of the interval that this work closes (02 R47). -/
  bdryEnd : Nat
  /-- that boundary is the boundary of an accepted STEP (03 R79). -/
  stepped : Bool
  /-- model's own: elapsed ns at the last frame tick (02 R39; log 1). -/
  lastTick : Nat
  /-- 32 bits, fraction of node time at the last frame tick, 2^-32 ns (03 R66). -/
  frac : Nat
  /-- what the time base gains on the elapsed clock in the running frame, 2^-32 of it: frequency correction and slew, within 200 ppm (03 R64, R66, R72). -/
  rate : Int
  /-- model's own: modulator clocks counted at the start of the running frame, 2,048 a frame (03 R66). -/
  mclk : Nat
deriving DecidableEq, Repr

/-- Clock at reset. -/
def Clock.reset : Clock where
  up := 0
  frame := 0
  interval := 0
  ivalStart := 0
  loaded := false
  freeCtr := 0
  bdry := none
  bdryAt := 0
  bdryEnd := 0
  stepped := false
  lastTick := 0
  frac := 0
  rate := 0
  mclk := 49152

/-- A refused time correction (03 R77). -/
structure RefusedCorrection where
  /-- s64 ns (03 R77). -/
  offset : Int
  /-- enum 1 PTP, 2 beacon (19 Table 19.11). -/
  source : Nat
  /-- 12-bit node ID (19 Table 19.11). -/
  sender : Nat
  /-- 64-bit clockIdentity (19 Table 19.11). -/
  gm : Nat
deriving DecidableEq, Repr

/-- RefusedCorrection at reset. -/
def RefusedCorrection.reset : RefusedCorrection where
  offset := 0
  source := 0
  sender := 0
  gm := 0

/-- A PTP message that the node sent, answered or forwarded (03 R67-R69). -/
structure PtpTx where
  /-- 0 Announce, 1 Sync, 2 delay request, 3 Follow_Up, 10 Delay_Resp, 12 Pdelay_Resp, 13 Pdelay_Resp_Follow_Up, 20 GET response, 21 a forwarded Sync, 22 a forwarded Delay_Req (03 R67). -/
  kind : Nat
  /-- 0 LKA, 1 LKB, 2 HETH (03 R67). -/
  port : Nat
  /-- sequenceId (03 R67). -/
  seq : Nat
  /-- over UDP and IPv4, else over Ethernet (03 R67). -/
  udp : Bool
  /-- units of 0.2 ns: node time at which it left (03 R68). -/
  stamp : Int
  /-- units of 0.2 ns: originTimestamp or requestReceiptTimestamp that the frame carries (03 R69). -/
  origin : Int
  /-- units of 0.2 ns: correctionField (03 R69). -/
  corr : Int
deriving DecidableEq, Repr

/-- PtpTx at reset. -/
def PtpTx.reset : PtpTx where
  kind := 0
  port := 0
  seq := 0
  udp := false
  stamp := 0
  origin := 0
  corr := 0

/-- A mains neighbour heard by beacons (13 R334). -/
structure Neighbour where
  /-- 12 bits (13 R332). -/
  node : Nat
  /-- 16 or 17 (13 R319). -/
  port : Nat
  /-- Table 13.5 code 0-3, accepted (13 R334). -/
  cls : Nat
  /-- class of the latest beacons (13 R334). -/
  cand : Nat
  /-- consecutive beacons in cand (13 R334). -/
  run : Nat
  /-- elapsed ns of the last beacon (13 R333). -/
  lastAt : Nat
  /-- mains hop count of the sender (03 R76). -/
  hops : Nat
  /-- servo state of the sender in its last beacon, Table 3.3 (03 R76). -/
  servo : Nat
  /-- the sender is a Carfel 4016 (13 R334). -/
  is4016 : Bool
deriving DecidableEq, Repr

/-- Neighbour at reset. -/
def Neighbour.reset : Neighbour where
  node := 0
  port := 16
  cls := 0
  cand := 0
  run := 0
  lastAt := 0
  hops := 0
  servo := 0
  is4016 := false

/-- The beacon grid of the branch on one mains port (13 R330). (log 57) -/
structure Grid where
  /-- the node's position in the branch, 0-31 (13 R331, 17 R408). -/
  pos : Option Nat
  /-- node ID of the grid master on whose crossing the grid is anchored (13 R330, Table 13.7). -/
  master : Option Nat
  /-- class accepted for that grid master (13 R330, R334). -/
  cls : Nat
  /-- u32, beacon period number (13 R330). -/
  number : Nat
  /-- ns, anchor of the running beacon period (13 R330). -/
  anchor : Nat
  /-- the running period is the node's own, by its predicted crossings (13 R330, Table 13.7). -/
  on : Bool
  /-- the last beacon sent (13 R332). -/
  out : Option Beacon
deriving DecidableEq, Repr

/-- Grid at reset. -/
def Grid.reset : Grid where
  pos := none
  master := none
  cls := 0
  number := 0
  anchor := 0
  on := false
  out := none

/-- A time-triggered output (03 R84). -/
structure Tto where
  /-- enum 0-2 (03 Table 3.6). -/
  mode : Nat
  /-- u64 ns (03 Table 3.6). -/
  start : Nat
  /-- u32 ns (03 Table 3.6). -/
  period : Nat
  /-- u32 ns (03 Table 3.6). -/
  width : Nat
  /-- 1 bit (03 Table 3.6). -/
  polarity : Bool
  /-- 1 bit (03 Table 3.6). -/
  report : Bool
  /-- 1 bit, a leading edge is still to come (03 R85). -/
  armed : Bool
  /-- node time ns of the next leading edge (03 R85). -/
  next : Nat
  /-- elapsed ns of a running pulse's trailing edge (03 R86). -/
  trailAt : Option Nat
  /-- pin level of TTOi (24 R536). -/
  level : Bool
  /-- u32 saturating (19 Table 19.15). -/
  edges : Nat
  /-- one-shot passed over by a forward step (03 R86). -/
  late : Bool
deriving DecidableEq, Repr

/-- Tto at reset. -/
def Tto.reset : Tto where
  mode := 0
  start := 0
  period := 0
  width := 0
  polarity := false
  report := false
  armed := false
  next := 0
  trailAt := none
  level := false
  edges := 0
  late := false

/-- A FIFO with the behaviour of 19 R454. -/
structure Fifo where
  /-- word, last-of-record, parity bad (19 R454). -/
  words : List (Nat × Bool × Bool)
  /-- a+1 bits (19 R454). -/
  wptr : Nat
  /-- a+1 bits (19 R454). -/
  rptr : Nat
  /-- last word delivered (19 R454). -/
  lastWord : Nat
  /-- TAIL (19 Table 19.3). -/
  tail : Bool
  /-- POISON (19 Table 19.3). -/
  poison : Bool
  /-- OVERRUN (19 Table 19.3). -/
  overrun : Bool
  /-- UNDERRUN (19 Table 19.3). -/
  underrun : Bool
  /-- elapsed ns since which words have been held unread (19 R454, R458). -/
  heldSince : Option Nat
  /-- the tail timeout has fired since the last read (19 R454). -/
  tailFired : Bool
  /-- units completed since the last report (19 R458). -/
  units : Nat
  /-- frame in which the stream's event was raised (19 R458). -/
  evFrame : Option Nat
  /-- frame in which FIFO_OVERRUN was raised (19 R454). -/
  ovFrame : Option Nat
  /-- frame in which FIFO_POISON was raised (19 R454). -/
  poFrame : Option Nat
deriving DecidableEq, Repr

/-- Fifo at reset. -/
def Fifo.reset : Fifo where
  words := []
  wptr := 0
  rptr := 0
  lastWord := 0
  tail := false
  poison := false
  overrun := false
  underrun := false
  heldSince := none
  tailFired := false
  units := 0
  evFrame := none
  ovFrame := none
  poFrame := none

/-- A capture input (03 R87). -/
structure Tci where
  /-- enum 0-3 (03 Table 3.7). -/
  edges : Nat
  /-- u8 (03 Table 3.7). -/
  filter : Nat
  /-- 16 entries of 80 bits (03 R87, 19 R454). -/
  fifo : Fifo
deriving DecidableEq, Repr

/-- Tci at reset. -/
def Tci.reset : Tci where
  edges := 0
  filter := 0
  fifo := Fifo.reset

/-- The selected PTP master's data (03 R67). -/
structure PtpMaster where
  /-- 64-bit clockIdentity (03 R67). -/
  gm : Nat
  /-- 8 bits (03 R67). -/
  prio1 : Nat
  /-- clockClass, 8 bits (03 R67). -/
  cls : Nat
  /-- clockAccuracy, 8 bits (03 R67). -/
  acc : Nat
  /-- offsetScaledLogVariance, 16 bits (03 R67). -/
  var : Nat
  /-- 8 bits (03 R67). -/
  prio2 : Nat
  /-- stepsRemoved, 16 bits (03 R67). -/
  steps : Nat
  /-- 0 LKA, 1 LKB, 2 HETH (03 R67). -/
  port : Nat
  /-- 64-bit port identity (03 R67). -/
  sender : Nat
deriving DecidableEq, Repr

/-- PtpMaster at reset. -/
def PtpMaster.reset : PtpMaster where
  gm := 0
  prio1 := 0
  cls := 0
  acc := 0
  var := 0
  prio2 := 0
  steps := 0
  port := 0
  sender := 0

/-- The node-time servo and its sources (03). -/
structure Servo where
  /-- enum, Table 3.3 (03 R71). -/
  state : ServoState
  /-- 0 none, 1 PTP, 2 mains beacon (03 R71). -/
  source : Nat
  /-- Table 19.11 port code (19 Table 19.11). -/
  port : Nat
  /-- node ID of the beacon sender followed (03 R76). -/
  sender : Nat
  /-- 64 bits (03 R67). -/
  gm : Nat
  /-- u16 (03 R70, 20 Table 20.6). -/
  ptpHops : Nat
  /-- u16 (03 R76). -/
  mainsHops : Nat
  /-- s64 ns, filtered offset (03 R71). -/
  offset : Int
  /-- u32 ns, error bound in MAINS (03 Table 3.3). -/
  bound : Nat
  /-- ns, filtered offset at holdover entry (03 R81). -/
  e0 : Int
  /-- 0.001 ppb, standard error of frequency (03 R81). -/
  f0 : Nat
  /-- elapsed ns of holdover entry (03 R81). -/
  holdAt : Nat
  /-- ns, the last offsets measured, at most 8, newest first (03 R72). -/
  recent : List Int
  /-- consecutive offsets within the lock threshold (03 Table 3.4). -/
  inRun : Nat
  /-- consecutive filtered offsets above it (03 R72). -/
  outRun : Nat
  /-- consecutive offsets above ND_JUMP_THRESH (03 R77). -/
  jumpRun : Nat
  /-- consecutive offsets back within it (03 R77). -/
  lapseRun : Nat
  /-- the source whose offsets these runs count: 2^64 + grandmaster, or beacon sender (03 R77). -/
  runKey : Nat
  /-- the refusal in force (03 R77). -/
  refused : Option RefusedCorrection
  /-- ns of a load, STEP or accepted SLEW still to be removed from local time (03 R72). -/
  slew : Int
  /-- ns of the last measured offset beyond slew, still to be removed from local time (03 R72). -/
  trim : Int
  /-- ppb, the servo's frequency correction, within 200,000 (03 R64). -/
  freq : Int
  /-- the slew is an accepted correction (03 R78). -/
  accSlew : Bool
  /-- accepted STEP, ns to be removed from local time, first elapsed ns of its boundary (03 R78). -/
  step : Option (Int × Nat)
  /-- 8 offsets agreed; load at the next boundary (03 R72). -/
  loadReady : Bool
  /-- node has been locked (03 R67). -/
  everLocked : Bool
  /-- s16 s, UTC offset in force (03 R80). -/
  utc : Int
  /-- a valid offset has been received (03 R80). -/
  utcValid : Bool
  /-- the offset in force was saved in the holdup ledger as a valid one (03 R80). -/
  utcSaved : Bool
  /-- unannounced offset waiting for a period boundary (03 R80). -/
  utcNew : Option Int
  /-- announced leap, new offset (03 R80, 02 R44). -/
  leap : Option Int
  /-- best master (03 R67). -/
  master : Option PtpMaster
  /-- announce receipt timeout (03 Table 3.4). -/
  annDue : Option Nat
  /-- 4 sync intervals (03 Table 3.4). -/
  syncDue : Option Nat
  /-- PTP restart within 10 ms (03 R88). -/
  restartDue : Option Nat
  /-- u32 sat, discarded PTP messages of ports LKA, LKB and HETH (03 R67). -/
  discards : List Nat
  /-- 16 bits, wraps (10 Table 10.3). -/
  seqId : Nat
  /-- units of 0.2 ns, origin timestamp of the last Sync (03 R68). -/
  lastT1 : Int
  /-- units of 0.2 ns, receipt timestamp of the last Sync (03 R68). -/
  lastT2 : Int
  /-- next announce, sync and peer-delay message of each of the three ports (03 R67). -/
  txDue : List (Option Nat)
  /-- per port: measured path or link delay, units of 0.2 ns (03 R68). -/
  linkDelay : List Int
  /-- the last 16 messages sent, answered or forwarded, newest first (03 R68, R69). -/
  txMsgs : List PtpTx
  /-- the masters heard, each with its last Announce and the elapsed ns of its receipt timeout (03 R67, R71). -/
  foreign : List (Announce × Nat)
  /-- bitmap of the ports that restart (03 R88). -/
  restartPorts : Nat
  /-- 0 valid, 1 lost, 2 none (20 Table 20.6, 03 R75). -/
  zc : ZcState
  /-- ns, last used crossing (03 R74). -/
  zcLast : Option Nat
  /-- ns, crossings of ND_ZC_CHANNEL that wait to be judged, oldest first (03 R73). -/
  zcFound : List Nat
  /-- last 8 accepted periods, ns (03 R74). -/
  zcPeriods : List Nat
  /-- consecutive rejected crossings (03 R75). -/
  zcRejects : Nat
  /-- ns, error of the last rejected crossing (19 Table 19.11). -/
  zcErr : Int
  /-- the branches of MPL0 and MPL1 (13 R330). -/
  grids : List Grid
  /-- mains neighbours (13 R334). -/
  neighbours : List Neighbour
  /-- 8 outputs (03 R84). -/
  ttos : List Tto
  /-- 4 inputs (03 R87). -/
  tcis : List Tci
deriving DecidableEq, Repr

/-- Servo at reset. -/
def Servo.reset : Servo where
  state := .free
  source := 0
  port := 255
  sender := 0
  gm := 0
  ptpHops := 0
  mainsHops := 0
  offset := 0
  bound := 0
  e0 := 0
  f0 := 0
  holdAt := 0
  recent := []
  inRun := 0
  outRun := 0
  jumpRun := 0
  lapseRun := 0
  runKey := 0
  refused := none
  slew := 0
  trim := 0
  freq := 0
  accSlew := false
  step := none
  loadReady := false
  everLocked := false
  utc := 37
  utcValid := false
  utcSaved := false
  utcNew := none
  leap := none
  master := none
  annDue := none
  syncDue := none
  restartDue := none
  discards := [0, 0, 0]
  seqId := 0
  lastT1 := 0
  lastT2 := 0
  txDue := List.replicate 9 none
  linkDelay := [0, 0, 0]
  txMsgs := []
  foreign := []
  restartPorts := 0
  zc := .none
  zcLast := none
  zcFound := []
  zcPeriods := []
  zcRejects := 0
  zcErr := 0
  grids := List.replicate 2 Grid.reset
  neighbours := []
  ttos := List.replicate 8 Tto.reset
  tcis := List.replicate 4 Tci.reset

/-- A parameter value waiting for its moment (00 R18, 20 R477). -/
structure Staged where
  /-- 16 bits (20 R472). -/
  pid : Nat
  /-- 16 bits (20 R472). -/
  inst : Nat
  /-- up to 64 bits (20 R472). -/
  val : Int
  /-- R18 (00 R18). -/
  effect : Effect
  /-- the boundary that applies it has passed; the engine uses it, the Capo applies it at INTERVAL_BOUNDARY (02 R46). -/
  ripe : Bool
  /-- first elapsed ns at which a boundary may take it (02 R46). -/
  dueAt : Nat
deriving DecidableEq, Repr

/-- Staged at reset. -/
def Staged.reset : Staged where
  pid := 0
  inst := 0
  val := 0
  effect := .immediate
  ripe := false
  dueAt := 0

/-- One entry of the open batch (20 R475). -/
structure BatchEntry where
  /-- 16 bits (20 R475). -/
  pid : Nat
  /-- 16 bits (20 R475). -/
  inst : Nat
  /-- u64 as carried (20 R472). -/
  raw : Nat
deriving DecidableEq, Repr

/-- BatchEntry at reset. -/
def BatchEntry.reset : BatchEntry where
  pid := 0
  inst := 0
  raw := 0

/-- The open batch (20 R475). -/
structure Batch where
  /-- u16 (20 R475). -/
  num : Nat
  /-- at most 1,024 (20 R475). -/
  entries : List BatchEntry
  /-- elapsed ns of the 10 s timeout (20 R475). -/
  due : Nat
deriving DecidableEq, Repr

/-- Batch at reset. -/
def Batch.reset : Batch where
  num := 0
  entries := []
  due := 0

/-- The parameter store (01 Table 1.7, 20). -/
structure ParamStore where
  /-- stored values that differ from the default (pid, instance, value) (20 R473). -/
  stored : List (Nat × Nat × Int)
  /-- values that govern now and differ from the default (00 R18). -/
  active : List (Nat × Nat × Int)
  /-- values waiting for their moment (20 R477). -/
  staged : List Staged
  /-- the open batch (20 R475). -/
  batch : Option Batch
  /-- batches waiting for CONFIG_APPLIED at a boundary: tag, due (20 R477). -/
  applyTag : List (Nat × Nat)
  /-- u32, costliest-frame cost of the running configuration (02 R51, 20 Table 20.4). -/
  cost : Nat
  /-- old-format copy (21 R495). -/
  oldCopy : List (Nat × Nat × Int)
deriving DecidableEq, Repr

/-- ParamStore at reset. -/
def ParamStore.reset : ParamStore where
  stored := []
  active := []
  staged := []
  batch := none
  applyTag := []
  cost := 2592
  oldCopy := []

/-- A request held for a mailbox (20 R469). -/
structure Held where
  /-- u16 (20 R469). -/
  code : Nat
  /-- u16 (20 R469). -/
  tag : Nat
  /-- payloads of parts 0.. (20 R469). -/
  parts : List (List Byte)
deriving DecidableEq, Repr

/-- Held at reset. -/
def Held.reset : Held where
  code := 0
  tag := 0
  parts := []

/-- An answer held in parts (20 R470). -/
structure Answer where
  /-- u16 (20 R470). -/
  code : Nat
  /-- u16 (20 R470). -/
  tag : Nat
  /-- the parts' payloads (20 R470). -/
  parts : List (List Byte)
deriving DecidableEq, Repr

/-- Answer at reset. -/
def Answer.reset : Answer where
  code := 0
  tag := 0
  parts := []

/-- A request rung while mailboxes were not served (19 R452, R453). -/
structure HeldReq where
  /-- u16 (19 R451). -/
  code : Nat
  /-- header (19 R451). -/
  hdr : Hdr
  /-- payload (19 R451). -/
  payload : Bytes
deriving DecidableEq, Repr

/-- HeldReq at reset. -/
def HeldReq.reset : HeldReq where
  code := 0
  hdr := ⟨0, 0, 0, false⟩
  payload := []

/-- One mailbox (19 R451, Table 19.3). -/
structure Mailbox where
  /-- TAG (19 Table 19.3). -/
  tag : BitVec 16
  /-- ERROR (19 Table 19.3). -/
  error : Bool
  /-- BUSY (19 Table 19.3). -/
  busy : Bool
  /-- RSP (19 Table 19.3). -/
  rsp : Bool
  /-- REQ (19 Table 19.3). -/
  req : Bool
  /-- interface of the request in the mailbox: true HETH, false QSPI (19 Table 19.16). -/
  via : Option Bool
  /-- request buffer words written (offset, word), unlisted words 0 (19 Table 19.3). -/
  reqBuf : List (Nat × Nat)
  /-- response buffer, header and payload (19 Table 19.3). -/
  resp : List Byte
  /-- parts held (20 R469). -/
  held : Option Held
  /-- answer held (20 R470). -/
  answer : Option Answer
deriving DecidableEq, Repr

/-- Mailbox at reset. -/
def Mailbox.reset : Mailbox where
  tag := 0
  error := false
  busy := false
  rsp := false
  req := false
  via := none
  reqBuf := []
  resp := []
  held := none
  answer := none

/-- A cached HETH reply (19 R449). -/
structure Reply where
  /-- IPv4 address (19 R449). -/
  src : Nat
  /-- u16 (19 R449). -/
  port : Nat
  /-- u16 (19 R449). -/
  seq : Nat
  /-- the reply (19 R449). -/
  bytes : List Byte
  /-- elapsed ns of expiry, 2 s (19 R449). -/
  due : Nat
deriving DecidableEq, Repr

/-- Reply at reset. -/
def Reply.reset : Reply where
  src := 0
  port := 0
  seq := 0
  bytes := []
  due := 0

/-- The queue of one event (19 R460). -/
structure EventQueue where
  /-- at most 8 details of 32 bytes, oldest first (19 R460). -/
  details : List (List Byte)
  /-- u32 lost count (19 R460). -/
  lost : Nat
  /-- raises per subject since start, u32 saturating (19 R460). -/
  counts : List (Nat × Nat)
deriving DecidableEq, Repr

/-- EventQueue at reset. -/
def EventQueue.reset : EventQueue where
  details := []
  lost := 0
  counts := []

/-- The host register space (19). -/
structure HostPort where
  /-- H_STATUS.CAPO (19 Table 19.3). -/
  capo : Bool
  /-- H_STATUS.METERING (19 Table 19.3). -/
  metering : Bool
  /-- H_STATUS.READY (19 Table 19.3). -/
  ready : Bool
  /-- H_STATUS.PAUSE (19 Table 19.3). -/
  pause : Bool
  /-- H_STATUS.HOST_LOST (19 Table 19.3). -/
  hostLost : Bool
  /-- H_EV_PEND_LO/HI (19 Table 19.3). -/
  pend : BitVec 64
  /-- H_EV_MASK_LO/HI (19 Table 19.3). -/
  mask : BitVec 64
  /-- H_INT_CTRL.ENABLE (19 Table 19.3). -/
  enable : Bool
  /-- H_INT_CTRL.FORCE (19 Table 19.3). -/
  force : Bool
  /-- H_FRAME_HI latch (19 R446). -/
  frameHi : BitVec 16
  /-- H_SCRATCH (19 Table 19.3). -/
  scratch : BitVec 32
  /-- H_IF_ERR.BAD_INSTR (19 Table 19.3). -/
  badInstr : Bool
  /-- H_IF_ERR.SHORT (19 Table 19.3). -/
  short : Bool
  /-- H_IF_ERR.HETH_REFUSED (19 Table 19.3). -/
  hethRefused : Bool
  /-- u32 sat, datagrams dropped (19 R447). -/
  hethDropped : Nat
  /-- 8 mailboxes (19 R451). -/
  mbx : List Mailbox
  /-- requests rung while not served, in ringing order (19 R452, R453). -/
  held : List HeldReq
  /-- HETH reply cache (19 R449). -/
  replies : List Reply
  /-- 4 stream FIFOs (19 Table 19.5). -/
  streams : List Fifo
  /-- 64 event queues (19 R460). -/
  events : List EventQueue
  /-- host watchdog expiry (19 R463). -/
  wdDue : Option Nat
  /-- frame of the last heartbeat since READY (19 Table 19.15). -/
  beatFrame : Option Nat
  /-- bytes the last read transaction returned on QSPI or HETH (19 R446, R457). -/
  lastRead : List Byte
  /-- H_REVISION.SERVICE, u16; loaded during start-up, and before any image is loaded a value of the model's choice (19 Table 19.3). -/
  service : Nat
  /-- mailbox, and the ND_HOST_PEER, ND_HETH_IPV4 and ND_HOST_UDP_PORT that govern HETH until the response in that mailbox has been sent (19 R466). -/
  peerHold : Option (Nat × List Nat)
deriving DecidableEq, Repr

/-- HostPort at reset. (logs 6, 41) -/
def HostPort.reset : HostPort where
  capo := false
  metering := false
  ready := false
  pause := false
  hostLost := false
  pend := 0
  mask := 0xFFFFFFFFFFFFFFFF
  enable := false
  force := false
  frameHi := 0
  scratch := 0
  badInstr := false
  short := false
  hethRefused := false
  hethDropped := 0
  mbx := List.replicate 8 Mailbox.reset
  held := []
  replies := []
  streams := List.replicate 4 Fifo.reset
  events := List.replicate 64 EventQueue.reset
  wdDue := none
  beatFrame := none
  lastRead := []
  service := 0
  peerHold := none

/-- The registers of the test window (23 Table 23.1). -/
structure TestRegs where
  /-- H_TEST_FIFO 15:0 (23 Table 23.1). -/
  fifo : BitVec 16
  /-- H_TEST_RING.DELAY (23 Table 23.1). -/
  ringDelay : BitVec 10
  /-- H_TEST_RING.LKA (23 Table 23.1). -/
  ringLka : Bool
  /-- H_TEST_RING.LKB (23 Table 23.1). -/
  ringLkb : Bool
  /-- H_TEST_ZC.OFFSET, s32 ns (23 Table 23.1). -/
  zc : Int
  /-- H_TEST_SAFETY.DELAY (23 Table 23.1). -/
  safDelay : BitVec 16
  /-- H_TEST_SAFETY.COUNT (23 Table 23.1). -/
  safCount : BitVec 8
  /-- H_TEST_SAFETY.ACTION (23 Table 23.1). -/
  safAction : BitVec 2
  /-- H_TEST_SAFETY.ENTRY (23 Table 23.1). -/
  safEntry : BitVec 4
  /-- H_TEST_PLC.STARVE (23 Table 23.1). -/
  starve : BitVec 5
  /-- H_TEST_MRAM.DELAY (23 Table 23.1). -/
  mram : BitVec 14
  /-- H_TEST_WD.WRONG (23 Table 23.1). -/
  wrong : Bool
  /-- H_TEST_WD.SKIP (23 Table 23.1). -/
  skip : BitVec 8
  /-- H_TEST_STRETCH0-7 (23 Table 23.1). -/
  stretch : List (BitVec 32)
deriving DecidableEq, Repr

/-- TestRegs at reset. -/
def TestRegs.reset : TestRegs where
  fifo := 0
  ringDelay := 0
  ringLka := false
  ringLkb := false
  zc := 0
  safDelay := 0
  safCount := 0
  safAction := 0
  safEntry := 0
  starve := 0
  mram := 0
  wrong := false
  skip := 0
  stretch := List.replicate 8 0

/-- The test window (23). -/
structure TestWin where
  /-- H_TEST_CTRL.UNLOCKED (23 Table 23.1). -/
  unlocked : Bool
  /-- the registers as they read (23 Table 23.1). -/
  regs : TestRegs
  /-- the values that act from the start of the running frame (23 R522). -/
  eff : TestRegs
  /-- relock by ND_TEST_TIMEOUT (23 R520). -/
  due : Option Nat
  /-- a core-die reset relocked the window and the legal event log does not say so yet (15 Table 15.15). -/
  relockDue : Bool
  /-- u32, entry of the unlock in force (23 Table 23.3). -/
  logIdx : Nat
  /-- delayed safety messages: entry, due, bytes (16 places) (23 R523). -/
  held : List (Nat × Nat × List Byte)
deriving DecidableEq, Repr

/-- TestWin at reset. -/
def TestWin.reset : TestWin where
  unlocked := false
  regs := TestRegs.reset
  eff := TestRegs.reset
  due := none
  relockDue := false
  logIdx := 0
  held := []

/-- One residual-trip comparator (04 Table 4.5). -/
structure Comparator where
  /-- 10-bit DAC code (04 R99). -/
  thr : Nat
  /-- 0.1 ms, 0-100,000 (04 R99). -/
  hold : Nat
  /-- 1 bit (04 R99). -/
  en : Bool
deriving DecidableEq, Repr

/-- Comparator at reset. -/
def Comparator.reset : Comparator where
  thr := 0
  hold := 0
  en := false

/-- One analogue slice and its channel engine (04, 05). -/
structure Slice where
  /-- gain index 0-5 (04 R90). -/
  gain : Nat
  /-- gain switches still in the chains, newest first: first modulator clock at the gain, and its index (05 R129, R131). -/
  gains : List (Nat × Nat)
  /-- modulator samples of the last five frames, oldest first, each -1, 0 or +1 times 2^(5 - gain index) (04 R95, 05 R121). -/
  bits : List Int
  /-- interpolator outputs at 128 kSa/s, the last 1,312 by content instant, oldest first (05 Table 5.1, 06 R149). -/
  stream : List Int
  /-- chain outputs of the last frame: s2.30, gain index when taken, gain index at the content instant (05 R122, R124). -/
  raw : List (Int × Nat × Nat)
  /-- wideband outputs of the last frame (05 R121). -/
  wideRaw : List (Int × Nat × Nat)
  /-- 1 kSa/s samples after steps 1 and 2, the last 255, newest first, 2^-35 V (03 R73). -/
  slowHist : List Int
  /-- fundamental-filtered sample before the last one (03 R73). -/
  fundPrev : Int
  /-- last fundamental-filtered sample (03 R73). -/
  fundNow : Int
  /-- samples of the last frame after step 2, with gain index (05 R129, 04 R112). -/
  cal : List (Int × Nat)
  /-- clipped samples of the last frame, bit i for sample i (04 R97). -/
  clipMap : Nat
  /-- causes of Table 19.13 in the last frame (19 Table 19.13). -/
  clipCause : Nat
  /-- modulator clocks at which restarts began that still last (04 R96). -/
  restarts : List Nat
  /-- DC path of the residual block, 2^-32 uV (04 R100). -/
  dcPath : Int
  /-- AC path of the residual block, 2^-32 uV (04 R100). -/
  acPath : Int
  /-- output samples below 4 % in the qualifying window (04 R104). -/
  qual : Nat
  /-- sign of the last output sample (04 R104). -/
  lastSign : Int
  /-- 6 residual-trip comparators, DC 0-2, AC 0-2 (04 R99). -/
  comps : List Comparator
  /-- per comparator: elapsed ns since its path stands above the threshold (04 R100). -/
  aboveAt : List (Option Nat)
  /-- frame at which a blanking ends (04 R117). -/
  blankTo : Option Nat
  /-- injection switch: none the sensor, else the test DAC's level in uV (04 R114, 12 R313). -/
  inject : Option Int
  /-- first DC block estimate, s2.30 with 32 extra bits (05 R132). -/
  m1 : Option Int
  /-- second DC block estimate (05 R134). -/
  m2 : Option Int
  /-- integrator, s2.30 with 32 extra bits (05 R136). -/
  v : Int
  /-- previous integrator input, s2.30 (05 R136). -/
  xPrev : Int
  /-- gain index to which the filter state is scaled (04 R105). -/
  stateG : Nat
  /-- reactive-path integrator (06 R149). -/
  rv : Int
  /-- its previous input (06 R149). -/
  rxPrev : Int
  /-- reactive-path second DC block (06 R149). -/
  rm : Option Int
  /-- s32 uV, frame mean of the calibrated input; of the course in COURSED mode (04 R110, 20 Table 20.4). -/
  mean : Int
  /-- samples of the last frame after step 5, with gain index (05 R129). -/
  out : List (Int × Nat)
  /-- wideband samples of the last two frames (07 R178). -/
  wide : List (Int × Nat)
  /-- reactive-path sample of the last group of 4 frames, 2^-35 V (06 R149). -/
  rOut : Option Int
  /-- frame mean of the calibrated samples, full scale 2^62 (04 R115). -/
  cmean : Int
  /-- clipped samples of the last frame (04 R97). -/
  clip : Nat
  /-- a gain switch fell in the frame (04 R105). -/
  seam : Bool
  /-- end of CH_CLIP_HOLDOFF (04 R98). -/
  clipDue : Option Nat
  /-- u32, clipped frames held off (19 Table 19.13). -/
  clipHeld : Nat
  /-- consecutive frames outside the limits (04 R110). -/
  outRun : Nat
  /-- limit that the last of them passed: 0 CH_LIMIT_LO, 1 CH_LIMIT_HI (08 Table 8.8). -/
  outSide : Nat
  /-- consecutive frames inside (04 R110). -/
  inRun : Nat
  /-- limit fault in force, its cause 0 or 1 (04 R110). -/
  limFault : Option Nat
  /-- channel marked invalid for the frame (02 R61). -/
  invalid : Bool
  /-- the slice had a filter in the last frame (05 R132). -/
  configured : Bool
deriving DecidableEq, Repr

/-- Slice at reset. -/
def Slice.reset : Slice where
  gain := 0
  gains := []
  bits := []
  stream := []
  raw := []
  wideRaw := []
  slowHist := []
  fundPrev := 0
  fundNow := 0
  cal := []
  clipMap := 0
  clipCause := 0
  restarts := []
  dcPath := 0
  acPath := 0
  qual := 0
  lastSign := 0
  comps := List.replicate 6 Comparator.reset
  aboveAt := List.replicate 6 none
  blankTo := none
  inject := none
  m1 := none
  m2 := none
  v := 0
  xPrev := 0
  stateG := 0
  rv := 0
  rxPrev := 0
  rm := none
  mean := 0
  out := []
  wide := []
  rOut := none
  cmean := 0
  clip := 0
  seam := false
  clipDue := none
  clipHeld := 0
  outRun := 0
  outSide := 0
  inRun := 0
  limFault := none
  invalid := false
  configured := false

/-- One course (04 R113). -/
structure Course where
  /-- Table 4.7 (04 R113). -/
  state : CourseState
  /-- 0 or 1: the good slice in SINGLE (04 R115). -/
  good : Nat
  /-- consecutive mismatched frames, to 8 (04 R113). -/
  misRun : Nat
  /-- consecutive frames without mismatch, to 4,000 (04 R113). -/
  okRun : Nat
  /-- ND_DIAG_REPEAT after the last verdict (04 R113). -/
  repeatDue : Option Nat
  /-- a restore by the host leads to the diagnosis (04 R116). -/
  restoring : Bool
  /-- 0-4 (19 Table 19.13). -/
  verdict : Nat
  /-- step and offset errors of both slices, ppm (04 R115). -/
  errs : List Int
deriving DecidableEq, Repr

/-- Course at reset. -/
def Course.reset : Course where
  state := .agreed
  good := 0
  misRun := 0
  okRun := 0
  repeatDue := none
  restoring := false
  verdict := 0
  errs := [0,0,0,0]

/-- The diagnosis running in fret 146 (04 R114). -/
structure Diagnosis where
  /-- 0-63 (04 R114). -/
  course : Nat
  /-- frame d (04 R114). -/
  first : Nat
  /-- the evaluated means +L, -L of slices 2j+1 and 2j (04 R115). -/
  means : List Int
deriving DecidableEq, Repr

/-- Diagnosis at reset. -/
def Diagnosis.reset : Diagnosis where
  course := 0
  first := 0
  means := []

/-- The open span of an interval, a period or a session: what its record will carry. -/
structure Span where
  /-- 48 bits, first frame (10 Table 10.4). -/
  start : Nat
  /-- 38 integer parts before the first frame (10 R256). -/
  regs : List Nat
  /-- 13 bits of Table 10.5 (00 R21, 10 Table 10.5). -/
  flags : Nat
  /-- u32 saturating missing frames (10 R253). -/
  missing : Nat
  /-- 2 bits, Table 3.5 (03 R83). -/
  regime : Nat
  /-- 8 bits, tariffs in force (10 Table 10.4). -/
  tariffs : Nat
deriving DecidableEq, Repr

/-- Span at reset. -/
def Span.reset : Span where
  start := 0
  regs := List.replicate 38 0
  flags := 0
  missing := 0
  regime := 0
  tariffs := 0

/-- The session of a point (09 R226-R241). -/
structure Session where
  /-- Table 9.5 (09 R226). -/
  state : SessState
  /-- frame from which the state holds (09 R226). -/
  since : Nat
  /-- elapsed ns of the entry into the state (09 R228). -/
  entry : Nat
  /-- causes that have arisen and are not yet applied (Table 9.7) (09 R238). -/
  causes : List Nat
  /-- cause that entered FAULT (09 R545). -/
  faultCause : Nat
  /-- a session has been authorised and not yet left the status (09 R232). -/
  present : Bool
  /-- u32 session number (09 R230). -/
  number : Nat
  /-- u32, next session number (09 R230, 10 R253). -/
  nextNumber : Nat
  /-- 16 bytes (09 R230). -/
  reference : Bytes
  /-- 0 host, 1 Plug & Charge (10 Table 10.8). -/
  authBy : Nat
  /-- u64, 0 none (09 R232). -/
  preset : Nat
  /-- u64 minor units, 0 none (09 R232). -/
  credit : Nat
  /-- preset and credit of a session-modify that applies from the next frame (09 R232). -/
  modify : Option (Option Nat × Option Nat)
  /-- 8 prices, u32 (09 R235). -/
  prices : List Nat
  /-- u16 (10 Table 10.9). -/
  currency : Nat
  /-- PT_PRESET_LEAD of the session (09 R234). -/
  lead : Nat
  /-- s, first frame of TRANSFERRING (09 R230). -/
  sFrame : Nat
  /-- frame in which the point last left TRANSFERRING (05 R135). -/
  xferTo : Option Nat
  /-- e, last frame, once known (09 R230). -/
  eFrame : Option Nat
  /-- frames have begun (s reached) and SESSION_END is not yet built (09 R230). -/
  running : Bool
  /-- 38 integer parts before frame s (09 R230). -/
  startRegs : Option (List Nat)
  /-- flags, missing frames, regime and tariffs of the session (10 Table 10.4). -/
  span : Span
  /-- 38 integer parts after frame e (09 R230). -/
  endRegs : List Nat
  /-- Table 9.7 (09 R230). -/
  stopCause : Nat
  /-- Table 9.7 (09 R230). -/
  endCause : Nat
  /-- u32 saturating, causes counted in STOPPING (09 R238). -/
  counted : Nat
  /-- sequence of the SESSION_END record (09 R228). -/
  endSeq : Option Nat
  /-- SESSION_END is in the journal and the stream (09 R228). -/
  endDone : Bool
  /-- PT_STOP_GRACE (09 R229). -/
  graceDue : Option Nat
  /-- PT_STOP_SETTLE (09 R229). -/
  settleDue : Option Nat
  /-- the path switches have been commanded off in STOPPING (09 R229). -/
  offDone : Bool
  /-- the session's parent key was invalidated (09 R240). -/
  parentRevoked : Bool
  /-- session private key (18 R428). -/
  key : Option Bytes
  /-- generation of the point key that signed the session certificate (18 R437). -/
  keyGen : Nat
  /-- the current and the last four session certificates, newest first (18 R437). -/
  certs : List Bytes
  /-- the session number has stuck (10 R253). -/
  stuck : Bool
deriving DecidableEq, Repr

/-- Session at reset. -/
def Session.reset : Session where
  state := .idle
  since := 0
  entry := 0
  causes := []
  faultCause := 0
  present := false
  number := 0
  nextNumber := 0
  reference := List.replicate 16 0
  authBy := 0
  preset := 0
  credit := 0
  modify := none
  prices := List.replicate 8 0
  currency := 0
  lead := 0
  sFrame := 0
  xferTo := none
  eFrame := none
  running := false
  startRegs := none
  span := Span.reset
  endRegs := []
  stopCause := 0
  endCause := 0
  counted := 0
  endSeq := none
  endDone := false
  graceDue := none
  settleDue := none
  offDone := false
  parentRevoked := false
  key := none
  keyGen := 0
  certs := []
  stuck := false

/-- One pulse input of the node (08 R191-R194). -/
structure Pulse where
  /-- filtered level of the land (08 R192). -/
  level : Bool
  /-- 16-bit hardware edge counter, wraps (10 Table 10.3). -/
  hw : Nat
  /-- elapsed ns of the last edge of the kind counted (08 R204). -/
  lastAt : Option Nat
  /-- elapsed ns of the last level change (08 R193). -/
  chgAt : Nat
deriving DecidableEq, Repr

/-- Pulse at reset. -/
def Pulse.reset : Pulse where
  level := false
  hw := 0
  lastAt := none
  chgAt := 0

/-- The pulse counting of a point (08 R191-R194). -/
structure PulseLine where
  /-- 32-bit check counter, wraps (08 R191). -/
  check : Nat
  /-- u32 saturating, pulse sequence errors (08 R194). -/
  seqErr : Nat
  /-- errors of the running interval (08 R194). -/
  ivlErr : Nat
  /-- the last interval closed without errors (08 R194). -/
  cleanIvl : Bool
  /-- counted units not yet taken by a frame: instant, reverse (08 R192, R216). -/
  pend : List (Nat × Bool)
  /-- units taken: frame and instant, newest first (08 R203). -/
  hist : List (Nat × Nat)
deriving DecidableEq, Repr

/-- PulseLine at reset. -/
def PulseLine.reset : PulseLine where
  check := 0
  seqErr := 0
  ivlErr := 0
  cleanIvl := false
  pend := []
  hist := []

/-- The meter pulse output of a point (06 R161-R164). -/
structure Mpo where
  /-- A times C, register units scaled 2^32 (06 R161). -/
  acc : Nat
  /-- u16 saturating (06 R162). -/
  backlog : Nat
  /-- u32 saturating (06 R162). -/
  dropped : Nat
  /-- a pulse runs on MPOp (06 R161). -/
  level : Bool
  /-- level of the MPOp pin, high or low (06 R162, 24 Table 24.6). -/
  pin : Bool
  /-- elapsed ns of the leading edges placed and not yet reached (06 R161). -/
  sched : List Nat
  /-- elapsed ns of the running pulse's trailing edge (06 R162). -/
  trailDue : Option Nat
  /-- elapsed ns before which no leading edge may come (06 R162). -/
  notBefore : Nat
deriving DecidableEq, Repr

/-- Mpo at reset. -/
def Mpo.reset : Mpo where
  acc := 0
  backlog := 0
  dropped := 0
  level := false
  pin := false
  sched := []
  trailDue := none
  notBefore := 0

/-- A record of a point that waits for its frame to be added, and for the records that go before it (01 R38). -/
structure LateRec where
  /-- record type of Table 10.4, 2 or 4 (10 Table 10.4). -/
  ty : Nat
  /-- its frame, and what that frame carries (00 R21, 01 R38). -/
  span : Span
  /-- u16 wrap count (10 R251). -/
  wrap : Nat
  /-- key class wanted (10 Table 10.6). -/
  want : Nat
  /-- body from offset 40 (10 R254). -/
  body : Bytes
deriving DecidableEq, Repr

/-- LateRec at reset. -/
def LateRec.reset : LateRec where
  ty := 0
  span := Span.reset
  wrap := 0
  want := 0
  body := []

/-- A record built and not yet signed and journalled (01 R38, 10 R254). -/
structure DueRec where
  /-- 0-15 point, 16 node scope (10 R255). -/
  series : Nat
  /-- u32 (10 R255). -/
  seq : Nat
  /-- bytes 0-191 (10 R254). -/
  head : Bytes
  /-- key class of Table 10.6 (10 Table 10.6). -/
  cls : Nat
  /-- point of the key, 255 node (10 Table 10.6). -/
  pt : Nat
  /-- u16 generation of the key (10 Table 10.6). -/
  gen : Nat
  /-- u32 session number of class 3 (10 Table 10.6). -/
  ses : Nat
  /-- frame at which it fell due (01 R38). -/
  frame : Nat
deriving DecidableEq, Repr

/-- DueRec at reset. -/
def DueRec.reset : DueRec where
  series := 0
  seq := 0
  head := []
  cls := 0
  pt := 0
  gen := 0
  ses := 0
  frame := 0

/-- One used journal slot (10 R259, R261). (log 44) -/
structure JSlot where
  /-- 0-40,959 (10 R253). -/
  slot : Nat
  /-- 0-16 (10 R255). -/
  series : Nat
  /-- u32 (10 R255). -/
  seq : Nat
  /-- 256 bytes (10 R254). -/
  bytes : Bytes
  /-- model's own: order of building (10 R261; log 6). -/
  order : Nat
  /-- an uncorrectable word was found in the slot (01 R36). -/
  damaged : Bool
deriving DecidableEq, Repr

/-- JSlot at reset. -/
def JSlot.reset : JSlot where
  slot := 0
  series := 0
  seq := 0
  bytes := []
  order := 0
  damaged := false

/-- Records, journal and record stream queue (10). -/
structure RecordStore where
  /-- records due, in the order of R38 (01 R38). -/
  due : List DueRec
  /-- used slots of 40,960 (10 R259). -/
  journal : List JSlot
  /-- series and sequence of records never journalled (10 R259). -/
  withheld : List (Nat × Nat)
  /-- model's own: records built, the order of building (10 R261; log 6). -/
  built : Nat
  /-- u32, next node-scope sequence (10 R255). -/
  nodeNext : Nat
  /-- highest acknowledged of node scope (10 R260). -/
  nodeAcked : Option Nat
  /-- series that have stuck (10 R253). -/
  stuckSeries : List Nat
  /-- at most 32 records waiting for room in the stream (10 R263). -/
  queue : List Bytes
  /-- u32 saturating (10 R253). -/
  notStreamed : Nat
  /-- u32 saturating (10 R253). -/
  lost : Nat
  /-- reached 36,864 and not yet below 32,768 (10 R262). -/
  nearFull : Bool
  /-- the first withheld record has been reported (10 R262). -/
  withheldEv : Bool
  /-- end frame of the last SEAL record (10 R258). -/
  sealEnd : Option Nat
  /-- SHA-256 over bytes 0-191 of the last SEAL record (10 R258). -/
  sealHash : Bytes
  /-- 13 bits of Table 10.5, of the frames since the last SEAL record's end frame (00 R21). -/
  sealFlags : Nat
  /-- 2 bits, highest regime of the intervals since then (03 R83). -/
  sealRegime : Nat
  /-- 8 bits, seals closed after the last SEAL record (10 R264). -/
  sealsAfter : Nat
deriving DecidableEq, Repr

/-- RecordStore at reset. -/
def RecordStore.reset : RecordStore where
  due := []
  journal := []
  withheld := []
  built := 0
  nodeNext := 0
  nodeAcked := none
  stuckSeries := []
  queue := []
  notStreamed := 0
  lost := 0
  nearFull := false
  withheldEv := false
  sealEnd := none
  sealHash := List.replicate 32 0
  sealFlags := 0
  sealRegime := 0
  sealsAfter := 0

/-- One point in a ledger entry (10 R264). -/
structure LedgerPoint where
  /-- 38 registers scaled 2^32 (10 R264). -/
  regs : List Nat
  /-- open period (10 R264). -/
  per : Span
  /-- session state, number, authorisation, start, stop cause (10 R264). -/
  ses : Session
  /-- u32 (10 R264). -/
  seqNext : Nat
  /-- u32 (10 R264). -/
  acked : Option Nat
  /-- 32 wrap counts (10 R264). -/
  wraps : List Nat
  /-- records due whose frame is not yet added (10 R264). -/
  late : List LateRec
deriving DecidableEq, Repr

/-- LedgerPoint at reset. -/
def LedgerPoint.reset : LedgerPoint where
  regs := []
  per := Span.reset
  ses := Session.reset
  seqNext := 0
  acked := none
  wraps := []
  late := []

/-- One ledger entry (10 R264). (log 44) -/
structure LedgerEntry where
  /-- u32 generation (10 R264). -/
  gen : Nat
  /-- warning commit, else interval save (10 R264). -/
  warning : Bool
  /-- last frame included, u48 (10 R264). -/
  frame : Nat
  /-- u32 (10 R264). -/
  interval : Nat
  /-- s, last valid UTC offset, the last valid offset if any (10 R264). -/
  utc : Option Int
  /-- 16 points (10 R264). -/
  pts : List LedgerPoint
  /-- u32 (10 R264). -/
  nodeNext : Nat
  /-- u32 (10 R264). -/
  nodeAcked : Option Nat
  /-- 8 bits (10 R264). -/
  seals : Nat
  /-- frame (10 R264). -/
  sealEnd : Option Nat
  /-- 32 bytes (10 R264). -/
  sealHash : Bytes
  /-- records due and not yet journalled (10 R264). -/
  due : List DueRec
deriving DecidableEq, Repr

/-- LedgerEntry at reset. -/
def LedgerEntry.reset : LedgerEntry where
  gen := 0
  warning := false
  frame := 0
  interval := 0
  utc := none
  pts := []
  nodeNext := 0
  nodeAcked := none
  seals := 0
  sealEnd := none
  sealHash := []
  due := []

/-- One residual bank (10 R267). (log 44) -/
structure Bank where
  /-- generation of its entry (10 R267). -/
  gen : Nat
  /-- last frame copied (10 R267). -/
  frame : Nat
  /-- 16 tariffs (10 R267). -/
  tariffs : List Nat
  /-- 16 lines of eight u32.32 advances (10 R267). -/
  adv : List (List Nat)
deriving DecidableEq, Repr

/-- Bank at reset. -/
def Bank.reset : Bank where
  gen := 0
  frame := 0
  tariffs := []
  adv := []

/-- One high-water line (10 R264). -/
structure HighWater where
  /-- rises by one at every write (10 R264). -/
  count : Nat
  /-- next sequence of the 17 series (10 R264). -/
  seqs : List Nat
  /-- next session number of the 16 points (10 R264). -/
  sess : List Nat
deriving DecidableEq, Repr

/-- HighWater at reset. -/
def HighWater.reset : HighWater where
  count := 0
  seqs := []
  sess := []

/-- The holdup ledger (10 R264-R272). -/
structure Ledger where
  /-- 4 entry slots (10 R264). -/
  slots : List (Option LedgerEntry)
  /-- 2 residual banks (10 R267). -/
  banks : List (Option Bank)
  /-- 1 bit, bank written next (10 R253). -/
  sel : Nat
  /-- 2 high-water lines (10 R264). -/
  lines : List (Option HighWater)
  /-- t0 of the running warning, elapsed ns (10 R266). -/
  warnFrom : Option Nat
  /-- source of the warning, bits 0 PFWn, 1 VSW (10 R266). -/
  warnSrc : Nat
  /-- the warning commit waits for frame w (10 R266). -/
  commitDue : Bool
  /-- frame w of the warning commit (10 R266). -/
  warnFrame : Nat
  /-- the tailpiece writes banks (10 R266, R272). -/
  tailing : Bool
  /-- the last core-die reset fell in a warning whose commit was not complete (10 R268, R271). -/
  cut : Bool
deriving DecidableEq, Repr

/-- Ledger at reset. -/
def Ledger.reset : Ledger where
  slots := List.replicate 4 none
  banks := [none, none]
  sel := 0
  lines := [none, none]
  warnFrom := none
  warnSrc := 0
  commitDue := false
  warnFrame := 0
  tailing := false
  cut := false

/-- The outlet port of a point (12). -/
structure Outlet where
  /-- 0-2,000 in 0.05 %, 2,000 constant high, 0 constant low (12 R295, Table 12.9). -/
  duty : Nat
  /-- duty set by the Capo and the elapsed ns at which it was set (12 R295). -/
  dutyNext : Option (Nat × Nat)
  /-- elapsed ns of the running pilot period's rising edge (12 R295). -/
  periodAt : Nat
  /-- 12-bit high plateau sample of the period (12 R299). -/
  hi : Option Nat
  /-- 12-bit low plateau sample of the period (12 R299). -/
  lo : Option Nat
  /-- accepted pilot code, Table 12.2 (12 R300). -/
  code : Nat
  /-- code of the latest samples (12 R300). -/
  cand : Nat
  /-- consecutive samples in cand (12 R300). -/
  run : Nat
  /-- accepted proximity code, Table 12.5 (12 R303). -/
  ppCode : Nat
  /-- code of the latest samples (12 R303). -/
  ppCand : Nat
  /-- consecutive samples in ppCand (12 R303). -/
  ppRun : Nat
  /-- ohms, saturating; 65,535 above 65,534 or in mode 0 (12 Table 12.9). -/
  rc : Nat
  /-- 0.1 A, outlet-limit (12 R297). -/
  hostLimit : Option Nat
  /-- 0.1 A, a limit that applies from the next frame (12 R297). -/
  limitNext : Option Nat
  /-- u32 saturating change count since start (12 Table 12.9). -/
  changes : Nat
  /-- 0 basic, 1 DIN SPEC 70121, 2 ISO 15118-2, 3 ISO 15118-20 (12 Table 12.10). -/
  protocol : Nat
  /-- 0 AC, 1 DC, 2 AC_BPT, 3 DC_BPT (12 Table 12.10). -/
  service : Nat
  /-- 0 EIM, 1 Plug & Charge (12 Table 12.10). -/
  ident : Option Nat
  /-- a V2G communication session is open (12 R307). -/
  v2g : Bool
  /-- it is in an agreed pause (12 R307). -/
  paused : Bool
  /-- the vehicle requests energy under high-level communication (12 R306). -/
  wants : Bool
  /-- reference of a verified contract waiting for the host (PT_AUTH_MODE 2) (09 R231). -/
  contract : Option Bytes
  /-- present voltage that the SECC reports, in V scaled 2^47 (12 R308). -/
  seccV : Int
  /-- present current that the SECC reports, in A scaled 2^47 (12 R308). -/
  seccI : Int
  /-- the EVSE status that the SECC sends asks the vehicle to stop (12 R306). -/
  seccStop : Bool
  /-- the EVSE status that the SECC sends reports shutdown (12 R308). -/
  seccShut : Bool
  /-- 0.1 A, the current of the one schedule; on DC the host's limit (12 R305, Table 12.6). -/
  seccLimit : Nat
  /-- the SECC's signature of the last TLS handshake (12 R309). -/
  tlsSig : Bytes
  /-- u8 protocol state reported by outlet-dc-status (20 Table 20.4). -/
  protoState : Nat
  /-- 6 bytes, vehicle MAC from SLAC (12 Table 12.10). -/
  mac : Bytes
  /-- dB, matched attenuation (12 R310). -/
  atten : Option Nat
  /-- RunIDs answered with CM_SLAC_PARM.CNF and not judged (12 R310). -/
  slacPending : List Nat
  /-- RunID of the run this port answered (12 R310). -/
  slacMatched : Option Nat
  /-- u32 saturating, attempts without a match (12 R310). -/
  slacFails : Nat
  /-- PT_PLC_LOSS (12 R307). -/
  lossDue : Option Nat
  /-- 0.1 V (12 R308). -/
  dcMaxV : Nat
  /-- 0.1 A (12 R308). -/
  dcMaxI : Nat
  /-- W (12 R308). -/
  dcMaxP : Nat
  /-- u8 isolation status (12 R308). -/
  dcIso : Nat
  /-- u8 power-stage state (12 R308). -/
  dcStage : Nat
  /-- 250 ms refresh (12 R308). -/
  dcDue : Option Nat
  /-- the SECC reports shutdown (12 R308). -/
  dcShutdown : Bool
  /-- 0.1 V target (12 R308). -/
  tgtV : Nat
  /-- 0.1 A target (12 R308). -/
  tgtI : Nat
  /-- EVSE status carries the request to stop (12 R306). -/
  asksStop : Bool
  /-- residual latch (12 R312). -/
  trip : Bool
  /-- a trip that the Capo has not yet reported (12 R312). -/
  tripOwed : Bool
  /-- comparator that tripped, 255 none (12 Table 12.11). -/
  tripComp : Nat
  /-- slice that tripped (12 Table 12.11). -/
  tripSlice : Nat
  /-- elapsed ns at which a path last stood above an enabled threshold (12 R312). -/
  lastAbove : Option Nat
  /-- 0 not run, 1 running, 2 passed, 3 failed, 4 waiting for a diagnosis (12 R313). -/
  test : Nat
  /-- slices still to test, the one under test first (12 R313). -/
  testSlices : List Nat
  /-- elapsed ns of the 100 ms (12 R313). -/
  testDue : Option Nat
  /-- the switch die has reported the rank-1 trip of the test (12 R313). -/
  testTrip : Bool
  /-- weld declared (12 R315). -/
  weld : Bool
  /-- declared by the mirror contact (12 Table 12.12). -/
  weldMirror : Bool
  /-- slot, 255 mirror (12 Table 12.12). -/
  weldSlot : Nat
  /-- elapsed ns since which the condition has been absent (12 R315). -/
  weldGone : Option Nat
  /-- rank-4 hold of the other switch (12 R315). -/
  backup : Bool
  /-- elapsed ns of the off command in force (12 R314). -/
  offAt : Option Nat
  /-- its frame (12 Table 12.12). -/
  offFrame : Nat
  /-- elapsed ns since which the pilot has been accepted in A or B (12 R314). -/
  abAt : Option Nat
deriving DecidableEq, Repr

/-- Outlet at reset. -/
def Outlet.reset : Outlet where
  duty := 0
  dutyNext := none
  periodAt := 0
  hi := none
  lo := none
  code := 0
  cand := 0
  run := 0
  ppCode := 0
  ppCand := 0
  ppRun := 0
  rc := 65535
  hostLimit := none
  limitNext := none
  changes := 0
  protocol := 0
  service := 0
  ident := none
  v2g := false
  paused := false
  wants := false
  contract := none
  seccV := 0
  seccI := 0
  seccStop := false
  seccShut := false
  seccLimit := 0
  tlsSig := []
  protoState := 0
  mac := List.replicate 6 0
  atten := none
  slacPending := []
  slacMatched := none
  slacFails := 0
  lossDue := none
  dcMaxV := 0
  dcMaxI := 0
  dcMaxP := 0
  dcIso := 0
  dcStage := 0
  dcDue := none
  dcShutdown := false
  tgtV := 0
  tgtI := 0
  asksStop := false
  trip := false
  tripOwed := false
  tripComp := 255
  tripSlice := 0
  lastAbove := none
  test := 0
  testSlices := []
  testDue := none
  testTrip := false
  weld := false
  weldMirror := false
  weldSlot := 255
  weldGone := none
  backup := false
  offAt := none
  offFrame := 0
  abAt := none

/-- One port of the power-line engine, 0-15 outlets, 16-17 mains (13). -/
structure PlcPort where
  /-- open stream: true transmit, false receive (13 R324). -/
  stream : Option Bool
  /-- dB, AGC gain (13 R320). -/
  gain : Nat
  /-- dB, transmit attenuation of the frame the port last began to send (13 Table 13.1, R338). -/
  attenTx : Nat
  /-- Green PHY link up (13 R328). -/
  link : Bool
  /-- ND_PLC_LINK_TIMEOUT (13 R328). -/
  linkDue : Option Nat
  /-- u32, frames decoded since the link came up (13 R337). -/
  frames : Nat
  /-- u32 saturating, lost symbols (13 R327). -/
  lost : Nat
  /-- u32 saturating, dropped alternates (13 R327). -/
  alts : Nat
  /-- u32 saturating, frames of another modulation (13 R321). -/
  badMod : Nat
  /-- u32 saturating, blanked samples (13 R322). -/
  blanked : Nat
  /-- u32 saturating, raw records without room (13 R335). -/
  rawShort : Nat
  /-- modulation of the last frame decoded, 255 none (13 Table 13.8). -/
  lastMod : Nat
  /-- dB, mean of the last frame, 255 none (13 Table 13.8). -/
  lastAtten : Nat
  /-- management messages waiting, at most 32 (13 R329). -/
  rxQueue : List Bytes
  /-- u32 saturating, frames beyond the queue (13 R329). -/
  rxDropped : Nat
deriving DecidableEq, Repr

/-- PlcPort at reset. -/
def PlcPort.reset : PlcPort where
  stream := none
  gain := 0
  attenTx := 0
  link := false
  linkDue := none
  frames := 0
  lost := 0
  alts := 0
  badMod := 0
  blanked := 0
  rawShort := 0
  lastMod := 255
  lastAtten := 255
  rxQueue := []
  rxDropped := 0

/-- One switch channel (14). -/
structure SwCh where
  /-- CMD, standing command of ranks 5 and 6 (14 Table 14.6). -/
  cmd : Bool
  /-- ON (14 Table 14.6). -/
  on : Bool
  /-- UV (14 Table 14.6). -/
  uv : Bool
  /-- OVL (14 Table 14.6). -/
  ovl : Bool
  /-- THERM (14 Table 14.6). -/
  therm : Bool
  /-- REGULATING (14 Table 14.6). -/
  regulating : Bool
  /-- LIMITING (14 Table 14.6). -/
  limiting : Bool
  /-- OPEN_LOAD (14 Table 14.6). -/
  openLoad : Bool
  /-- EXHAUSTED (14 Table 14.6). -/
  exhausted : Bool
  /-- RETRIES, 0-15 (14 Table 14.6). -/
  retries : Nat
  /-- LIMIT, 2 bits (14 Table 14.6). -/
  limit : Nat
  /-- SLEW, 2 bits (14 Table 14.6). -/
  slew : Nat
  /-- RIDE (14 Table 14.6). -/
  ride : Bool
  /-- TJ, 0.1 degC (14 Table 14.6, 14.9). -/
  tj : Int
  /-- last sense (14 Table 14.9). -/
  mA : Nat
  /-- rank 1: residual trip (14 Table 14.6, 01 R33). -/
  resHold : Bool
  /-- rank 1: dual inputs in demand (01 R33, 15 R358). -/
  siHold : List Nat
  /-- rank 3: fail-safe state table (14 Table 14.6). -/
  fsHold : Bool
  /-- rank 4 sources: 0-31 discrepancy of dual input, 32-47 consumer entry fault, 48-63 remote stop of entry, 64+p weld backup of outlet p, 80 own site stop (01 R33). -/
  hold4 : List Nat
  /-- rank 2 has been released: the Capo re-applies the standing command in the next frame (14 R344, R347). -/
  reapply : Bool
  /-- elapsed ns of the last turn-off (14 R342). -/
  offAt : Nat
  /-- elapsed ns since which it has been on without limit or latch (14 R344). -/
  onSince : Option Nat
  /-- PT_SW_OVL_TIME (14 R343). -/
  ovlDue : Option Nat
  /-- PT_SW_RETRY_DELAY (14 R344). -/
  retryDue : Option Nat
deriving DecidableEq, Repr

/-- SwCh at reset. -/
def SwCh.reset : SwCh where
  cmd := false
  on := false
  uv := false
  ovl := false
  therm := false
  regulating := false
  limiting := false
  openLoad := false
  exhausted := false
  retries := 3
  limit := 1
  slew := 1
  ride := false
  tj := -500
  mA := 0
  resHold := false
  siHold := []
  fsHold := false
  hold4 := []
  reapply := false
  offAt := 0
  onSince := none
  ovlDue := none
  retryDue := none

/-- The switch die (14). -/
structure SwitchDie where
  /-- VSW powers the die (14 R347). -/
  powered : Bool
  /-- 32 channels (14 R339). -/
  ch : List SwCh
  /-- elapsed ns of the power-up (14 Table 14.8). -/
  upAt : Nat
  /-- SW_SUPPLY.PHASE, Table 14.2 (14 Table 14.7). -/
  phase : Nat
  /-- end of START or RECOVERY (14 R346). -/
  phaseDue : Option Nat
  /-- SW_SUPPLY.UV (14 Table 14.7). -/
  uv : Bool
  /-- SW_SUPPLY.BELOW_RIDE (14 Table 14.7). -/
  belowRide : Bool
  /-- SW_SUPPLY.VSW, 10 mV (14 Table 14.7). -/
  vsw : Nat
  /-- SW_FSTABLE, 32 bits (14 Table 14.7). -/
  fstable : Nat
  /-- SW_WDSTAT.WINDOW, ms; loaded at arming, and before the first arming a value of the model's choice (14 Table 14.7). -/
  window : Nat
  /-- SW_WDSTAT.CAUSE, 4 bits (14 Table 14.7). -/
  wcause : Nat
  /-- SW_WDSTAT.FAILSAFE (14 Table 14.7). -/
  failsafe : Bool
  /-- SW_WDSTAT.ARMED (14 Table 14.7). -/
  armed : Bool
  /-- SW_WDCHAL (14 Table 14.7). -/
  chal : BitVec 32
  /-- SW_WDANS, last answer written (14 Table 14.7). -/
  ans : BitVec 32
  /-- K (14 R348). -/
  key : BitVec 32
  /-- elapsed ns of the last good feed or of arming (14 R349). -/
  lastGood : Option Nat
  /-- good feeds since arming, to 3 (14 R350). -/
  goodFeeds : Nat
  /-- 32-bit bitmap, channels the table changed (14 Table 14.8). -/
  changed : Nat
  /-- an application not yet reported: cause, die time in ms (14 R350). -/
  reportDue : Option (Nat × Nat)
  /-- frame in which the Capo saw the application that is not yet reported (14 R350). -/
  seenFrame : Option Nat
  /-- ms of the die's life at the last application (14 Table 14.8). -/
  appliedMs : Nat
  /-- die-to-die link up (14 R349). -/
  link : Bool
  /-- commands that wait until the die answers (22 R503). -/
  waiting : List (Nat × Bool)
  /-- the Capo's other orders that wait until the die answers, oldest first (22 R503, 01 R28). -/
  waitOps : List DieOp
  /-- the Capo is to arm the watchdog afresh (14 R350, R355). -/
  rearm : Bool
  /-- an under-voltage turn-off fell in NORMAL or RECOVERY and VSW has not recovered (14 Table 14.2). -/
  uvNormal : Bool
deriving DecidableEq, Repr

/-- SwitchDie at reset. (log 6) -/
def SwitchDie.reset : SwitchDie where
  powered := false
  ch := List.replicate 32 SwCh.reset
  upAt := 0
  phase := 1
  phaseDue := none
  uv := false
  belowRide := false
  vsw := 0
  fstable := 0
  window := 0
  wcause := 0
  failsafe := false
  armed := false
  chal := 0
  ans := 0
  key := 0
  lastGood := none
  goodFeeds := 0
  changed := 0
  reportDue := none
  seenFrame := none
  appliedMs := 0
  link := false
  waiting := []
  waitOps := []
  rearm := false
  uvNormal := false

/-- One dual safety input (15 R356-R362). -/
structure SafIn where
  /-- filtered level of channel A, none before the first (15 R358). -/
  a : Option Bool
  /-- filtered level of channel B (15 R358). -/
  b : Option Bool
  /-- in demand, as reported (15 R360). -/
  demand : Bool
  /-- elapsed ns of the first sample of the disagreement run (15 R361). -/
  disFrom : Option Nat
  /-- channel in demand alone: 0 A, 1 B (15 Table 15.9). -/
  first : Nat
  /-- discrepancy latched (15 R361). -/
  latched : Bool
  /-- R362 step 1: 0 nothing yet, 1 both in demand, 2 one has left, 3 complete (15 R362). -/
  cycle : Nat
  /-- elapsed ns at which the first channel left (15 R362). -/
  cycleAt : Nat
  /-- rank-1 latch of this input (15 R358). -/
  trip : Bool
  /-- 100 ms without demand (15 R360). -/
  autoDue : Option Nat
deriving DecidableEq, Repr

/-- SafIn at reset. -/
def SafIn.reset : SafIn where
  a := none
  b := none
  demand := false
  disFrom := none
  first := 0
  latched := false
  cycle := 0
  cycleAt := 0
  trip := false
  autoDue := none

/-- One connection entry (15 R363-R369). -/
structure ScEntry where
  /-- 0 WAITING, 1 RUNNING, 2 FAULTED (15 Table 15.4). -/
  state : Nat
  /-- u16 last accepted sequence (15 R366). -/
  last : Option Nat
  /-- elapsed ns of the last accepted message (15 R367). -/
  lastAt : Nat
  /-- demand bit of the last accepted message (15 R368). -/
  demand : Bool
  /-- 16-bit point mask of the last accepted message (15 Table 15.2). -/
  mask : Nat
  /-- points held at rank 4 by this entry (15 R368). -/
  held : List Nat
  /-- u32 saturating lost messages (15 R366). -/
  lost : Nat
  /-- u32 saturating repeats and stale messages (15 R366). -/
  discarded : Nat
  /-- elapsed ns since which messages are accepted without fault in FAULTED (15 R369). -/
  goodFrom : Option Nat
  /-- u16 next sequence of a producer, wraps (15 Table 15.2). -/
  seq : Nat
  /-- next send of a producer (15 R365). -/
  sendDue : Option Nat
  /-- demand bit last sent (15 R365). -/
  sentDemand : Bool
  /-- messages sent, the last one only (15 R365). -/
  sent : List Bytes
  /-- 100 ms without demand, of a demand received by message (15 R369). -/
  autoDue : Option Nat
  /-- a demand received by message has ended and waits for its release (15 R369). -/
  ended : Bool
deriving DecidableEq, Repr

/-- ScEntry at reset. -/
def ScEntry.reset : ScEntry where
  state := 0
  last := none
  lastAt := 0
  demand := false
  mask := 0
  held := []
  lost := 0
  discarded := 0
  goodFrom := none
  seq := 0
  sendDue := none
  sentDemand := false
  sent := []
  autoDue := none
  ended := false

/-- Safety functions (15). -/
structure Safety where
  /-- the safety-input logic is out of reset and the Capo has loaded its parameters (15 R358). -/
  live : Bool
  /-- elapsed ns at which the Capo loaded the safety parameters (15 R358). -/
  liveAt : Nat
  /-- 64-bit bitmap of the SI lands, bit 2k A, 2k+1 B (15 R356). -/
  lands : Nat
  /-- 32 dual inputs (15 R356). -/
  ins : List SafIn
  /-- 16 connection entries (15 R363). -/
  entries : List ScEntry
  /-- the node's own site stop holds (15 R368). -/
  ownStop : Bool
  /-- points held at rank 4 by the own site stop (15 R368). -/
  ownHeld : List Nat
  /-- 100 ms without the own site stop (15 R368, R360). -/
  ownAutoDue : Option Nat
  /-- 8 bits, bit i SEALi closed, after the 20 ms filter (15 R373). -/
  seals : Nat
  /-- 8 bits, the lands themselves (15 R373). -/
  sealLands : Nat
deriving DecidableEq, Repr

/-- Safety at reset. -/
def Safety.reset : Safety where
  live := false
  liveAt := 0
  lands := 0
  ins := List.replicate 32 SafIn.reset
  entries := List.replicate 16 ScEntry.reset
  ownStop := false
  ownHeld := []
  ownAutoDue := none
  seals := 0
  sealLands := 0

/-- One legal event log entry held (15 R376). (log 44) -/
structure LogSlot where
  /-- u32 (15 Table 15.7). -/
  index : Nat
  /-- 64 bytes (15 Table 15.7). -/
  bytes : Bytes
  /-- an uncorrectable word was found (01 Table 1.8). -/
  damaged : Bool
deriving DecidableEq, Repr

/-- LogSlot at reset. -/
def LogSlot.reset : LogSlot where
  index := 0
  bytes := []
  damaged := false

/-- The legal event log (15 R376, R377). -/
structure LegalLog where
  /-- at most 4,096 entries, ascending index (15 R376). -/
  held : List LogSlot
  /-- u32, next index (15 R376). -/
  next : Nat
  /-- highest acknowledged index (15 R377). -/
  acked : Option Nat
  /-- reached 3,687 and not yet below 3,277 (15 R377). -/
  nearFull : Bool
  /-- the first refused request has been reported (19 Table 19.15). -/
  fullEv : Bool
  /-- indices consumed by lost entries (15 R377). -/
  lost : List Nat
  /-- u32 saturating, entries not streamed for lack of room (19 Table 19.5). -/
  notStreamed : Nat
  /-- u32 saturating, writes refused (15 R376). -/
  refused : Nat
  /-- first index that the next SEAL record covers (10 Table 10.11). -/
  sealFrom : Nat
deriving DecidableEq, Repr

/-- LegalLog at reset. -/
def LegalLog.reset : LegalLog where
  held := []
  next := 0
  acked := none
  nearFull := false
  fullEv := false
  lost := []
  notStreamed := 0
  refused := 0
  sealFrom := 0

/-- One entry of a converter's sequence (16 R384-R390). -/
structure SarEntry where
  /-- VALID (16 Table 16.6). -/
  valid : Bool
  /-- OVERRUN (16 Table 16.6). -/
  overrun : Bool
  /-- LIMIT, 2 bits (16 Table 16.6). -/
  limit : Nat
  /-- CODE, 12 bits (16 Table 16.6). -/
  code : Nat
  /-- OFFSET, 0.1 us, 0-2,499 (16 Table 16.6). -/
  offset : Nat
  /-- frame of the sample (16 R389). -/
  frame : Nat
  /-- side of the running limit run: 0 inside, 1 below, 2 above (16 R390). -/
  side : Nat
  /-- consecutive results on that side (16 R390). -/
  run : Nat
  /-- elapsed ns of the triggers waiting for their delay (16 R386). -/
  trigAt : List Nat
deriving DecidableEq, Repr

/-- SarEntry at reset. -/
def SarEntry.reset : SarEntry where
  valid := false
  overrun := false
  limit := 0
  code := 0
  offset := 0
  frame := 0
  side := 0
  run := 0
  trigAt := []

/-- One SAR converter (16). -/
structure SarConv where
  /-- 32 entries (16 R384). -/
  entries : List SarEntry
  /-- pending entries with the descriptor they became pending under and the elapsed ns, in order (16 R386, R396). -/
  pend : List (Nat × Nat × Nat)
  /-- the last self-test failed (16 R395). -/
  suspect : Bool
  /-- a self-test waits for the test DAC (16 R394). -/
  stWait : Bool
  /-- a self-test runs (16 R395). -/
  stRun : Bool
  /-- next self-test (16 R395). -/
  stDue : Option Nat
  /-- u32 saturating, self-tests completed (10 R253). -/
  stCount : Nat
  /-- use of the test DAC: 0 none, 1 course diagnosis, 2 residual self-test, 3 converter self-test (16 R394). -/
  dac : Nat
  /-- frame in which SAR_SEQUENCE_DONE was raised (16 R391). -/
  doneFrame : Option Nat
  /-- completions since (16 R391). -/
  merged : Nat
  /-- the first 20 bytes of the detail owed for them (16 R391). -/
  mergedDet : Bytes
deriving DecidableEq, Repr

/-- SarConv at reset. -/
def SarConv.reset : SarConv where
  entries := List.replicate 32 SarEntry.reset
  pend := []
  suspect := false
  stWait := false
  stRun := false
  stDue := none
  stCount := 0
  dac := 0
  doneFrame := none
  merged := 0
  mergedDet := []

/-- The converters, general timers and the monitor scan (16, 22). -/
structure Sar where
  /-- 4 converters (16 R382). -/
  conv : List SarConv
  /-- 8 general timers, elapsed ns of the next tick (16 R385). -/
  timerNext : List (Option Nat)
  /-- mV, last monitor mean of VSW (16 R392). -/
  monVsw : Nat
  /-- mV (16 R392). -/
  monVio : Nat
  /-- mV (16 R392). -/
  monVana : Nat
  /-- mV (16 R392). -/
  monVcore : Nat
  /-- 0.1 degC (16 R383). -/
  dieTemp : Int
  /-- reference ratio deviation, ppm (04 R94). -/
  refPpm : Int
  /-- reference monitor condition in force (04 R94). -/
  refBad : Bool
  /-- reference monitor suspended (16 Table 16.7). -/
  refHeld : Bool
  /-- nA, last excitation currents of the 16 sources (04 R108). -/
  exc : List Nat
  /-- the current has been measured since the last change (04 R120). -/
  excGood : List Bool
  /-- 4-bit bitmap of supplies out of limits, VSW VIO VANA VCORE (22 R514). -/
  supBad : Nat
  /-- die-temperature warning in force (22 R515). -/
  tempWarn : Bool
  /-- above 125 degC (22 R515). -/
  tempHot : Bool
deriving DecidableEq, Repr

/-- Sar at reset. -/
def Sar.reset : Sar where
  conv := List.replicate 4 SarConv.reset
  timerNext := List.replicate 8 none
  monVsw := 0
  monVio := 0
  monVana := 0
  monVcore := 0
  dieTemp := 0
  refPpm := 0
  refBad := false
  refHeld := false
  exc := List.replicate 16 0
  excGood := List.replicate 16 false
  supBad := 0
  tempWarn := false
  tempHot := false

/-- The node's record or result of one balance group (17 R413-R418). -/
structure GroupRec where
  /-- 0-63 (17 R412). -/
  group : Nat
  /-- u48 saturating (17 R413). -/
  p : Nat
  /-- u48 saturating (17 R413). -/
  n : Nat
  /-- u16 saturating (17 R413). -/
  contrib : Nat
  /-- 12 bits saturating (17 R413). -/
  absent : Nat
  /-- bit 12 SUBSTITUTED, bit 13 TEST (17 Table 17.4). -/
  flags : Nat
  /-- 32-bit result field (17 Table 17.4). -/
  result : Nat
deriving DecidableEq, Repr

/-- GroupRec at reset. -/
def GroupRec.reset : GroupRec where
  group := 0
  p := 0
  n := 0
  contrib := 0
  absent := 0
  flags := 0
  result := 0

/-- The record posted, or kept, for one interval (17 R413, R418). -/
structure BalRec where
  /-- first frame of the interval, u48 (17 Table 17.4). -/
  interval : Nat
  /-- groups (17 R413). -/
  groups : List GroupRec
deriving DecidableEq, Repr

/-- BalRec at reset. -/
def BalRec.reset : BalRec where
  interval := 0
  groups := []

/-- The judging run of one group at the root (17 R417). -/
structure GroupRun where
  /-- 0-63 (17 R417). -/
  group : Nat
  /-- side of the run (17 R417). -/
  outside : Bool
  /-- consecutive judged intervals on it (17 R417). -/
  run : Nat
  /-- over state (17 R417). -/
  isOver : Bool
deriving DecidableEq, Repr

/-- GroupRun at reset. -/
def GroupRun.reset : GroupRun where
  group := 0
  outside := false
  run := 0
  isOver := false

/-- The Yudaix ring and sympathetic balance (17). -/
structure Ring where
  /-- link of LKA (17 R411). -/
  lkaUp : Bool
  /-- link of LKB (17 R411). -/
  lkbUp : Bool
  /-- LKA blocked after its link returned (17 R411). -/
  lkaBlocked : Bool
  /-- LKB blocked after its link returned (17 R411). -/
  lkbBlocked : Bool
  /-- node ID on LKA, 0 none (17 Table 17.9). -/
  nbrA : Nat
  /-- node ID on LKB (17 Table 17.9). -/
  nbrB : Nat
  /-- learned addresses: MAC, port (17 R411). -/
  learned : List (Nat × Nat)
  /-- this node's branch closes a ring (17 R408, R411). -/
  inRing : Bool
  /-- head of a ring (17 R411). -/
  head : Bool
  /-- next ring-test frame (17 R411). -/
  testDue : Option Nat
  /-- ring manager (17 R408, R411). -/
  manager : Bool
  /-- the manager's closing port, 0 LKA, 1 LKB (17 R408). -/
  closing : Nat
  /-- the closing port is blocked (17 R411). -/
  closingBlocked : Bool
  /-- elapsed ns of the last ring-test frame expected or seen (17 R411). -/
  testSeen : Option Nat
  /-- elapsed ns since which ring-test frames are seen again (17 R411). -/
  testsFrom : Option Nat
  /-- node ID of the balance root, 0 none (17 R407). -/
  root : Nat
  /-- this node is the root (17 R407). -/
  isRoot : Bool
  /-- u16, run number of the last discovery (17 R408). -/
  runNo : Nat
  /-- port on which the running token came first (17 R408). -/
  runPort : Option Nat
  /-- entries gathered by the root in the running run (17 R408). -/
  gathered : List DiscEntry
  /-- entries of the published map, tour order (17 R408). -/
  map : List DiscEntry
  /-- a discovery run is under way (17 R408). -/
  running : Bool
  /-- u16, nodes in balance (root's map) (17 R406). -/
  inBal : Nat
  /-- the last discovery of the current root placed this node (17 R406). -/
  placed : Bool
  /-- this node's ID is duplicated (17 R406). -/
  dup : Bool
  /-- PTP hop count above d_max (17 R404). -/
  tooDeep : Bool
  /-- u16, branch number in the map (17 Table 17.9). -/
  branch : Nat
  /-- u8, position in the branch (17 R408). -/
  position : Nat
  /-- node ID of the tour successor, 0 none (17 R409). -/
  successor : Nat
  /-- ND_DISC_PERIOD (17 R408). -/
  discDue : Option Nat
  /-- intervals without a balance frame, to 3 (17 R421). -/
  noFrame : Nat
  /-- a balance frame has passed since the last boundary (17 R421). -/
  sawFrame : Bool
  /-- the node was in balance for that interval (17 R406). -/
  postedIn : Bool
  /-- record held for the interval (17 R413). -/
  posted : Option BalRec
  /-- B + 2 ms (17 R416). -/
  launchDue : Option Nat
  /-- B + 2 ms + ND_BAL_RETRY (17 R416). -/
  retryDue : Option Nat
  /-- B + 100 ms (17 R417). -/
  lateDue : Option Nat
  /-- elapsed ns of the first launch (17 Table 17.9). -/
  launchedAt : Nat
  /-- a copy is out and none has returned (17 R416). -/
  awaiting : Bool
  /-- judging runs at the root (17 R417). -/
  runs : List GroupRun
  /-- results to carry in the next frame (17 R417). -/
  results : List GroupRec
  /-- interval of the results (17 Table 17.4). -/
  resInterval : Nat
  /-- last 16 intervals, newest first (17 R418). -/
  history : List BalRec
  /-- groups of this node's points whose bit 1 was last read as 1 (17 R418). -/
  overSeen : List Nat
  /-- queued 8-byte reports, at most 16 (17 R419). -/
  faults : List Bytes
  /-- u32 saturating, reports beyond 16 (17 R419). -/
  faultsLost : Nat
  /-- the group table CRC of the last balance frame differed (17 R415, R419). -/
  crcBad : Bool
  /-- the interval of the last balance frame differed (17 R415, R419). -/
  ivalBad : Bool
  /-- us, tour time of the last returned copy (17 Table 17.9). -/
  tour : Nat
  /-- frames queued on mains ports: port, due, frame (17 R401). -/
  mainsQueue : List (Nat × Nat × Bytes)
  /-- u32 saturating (17 R401). -/
  mainsDropped : Nat
  /-- frames put on the ports by the last step that sends: port, priority, bytes (17 R400). -/
  sent : List (Nat × Nat × Bytes)
deriving DecidableEq, Repr

/-- Ring at reset. -/
def Ring.reset : Ring where
  lkaUp := false
  lkbUp := false
  lkaBlocked := false
  lkbBlocked := false
  nbrA := 0
  nbrB := 0
  learned := []
  inRing := false
  head := false
  testDue := none
  manager := false
  closing := 0
  closingBlocked := false
  testSeen := none
  testsFrom := none
  root := 0
  isRoot := false
  runNo := 0
  runPort := none
  gathered := []
  map := []
  running := false
  inBal := 0
  placed := false
  dup := false
  tooDeep := false
  branch := 0
  position := 0
  successor := 0
  discDue := none
  noFrame := 0
  sawFrame := false
  postedIn := false
  posted := none
  launchDue := none
  retryDue := none
  lateDue := none
  launchedAt := 0
  awaiting := false
  runs := []
  results := []
  resInterval := 0
  history := []
  overSeen := []
  faults := []
  faultsLost := 0
  crcBad := false
  ivalBad := false
  tour := 0
  mainsQueue := []
  mainsDropped := 0
  sent := []

/-- Generation and state of one derived key (18 R429). -/
structure KeyState where
  /-- u16 (18 R429). -/
  gen : Nat
  /-- invalidated (18 R429). -/
  invalid : Bool
  /-- frame f of the invalidation (18 R431). -/
  since : Nat
deriving DecidableEq, Repr

/-- KeyState at reset. -/
def KeyState.reset : KeyState where
  gen := 0
  invalid := false
  since := 0

/-- An attestation request waiting (18 R436). -/
structure AttReq where
  /-- u16 request tag (18 R436). -/
  tag : Nat
  /-- key class 1, 2, 4, 5 (18 Table 18.2). -/
  cls : Nat
  /-- point or 255 (18 Table 18.2). -/
  pt : Nat
  /-- 16 bytes (18 Table 18.2). -/
  nonce : Bytes
deriving DecidableEq, Repr

/-- AttReq at reset. -/
def AttReq.reset : AttReq where
  tag := 0
  cls := 0
  pt := 0
  nonce := []

/-- A loaded certificate chain (18 R438). -/
structure TlsChain where
  /-- 0-15 (18 R438). -/
  port : Nat
  /-- 4 or 5 (18 R438). -/
  cls : Nat
  /-- up to 3 DER certificates (18 R438). -/
  certs : List Bytes
deriving DecidableEq, Repr

/-- TlsChain at reset. -/
def TlsChain.reset : TlsChain where
  port := 0
  cls := 0
  certs := []

/-- The key unit and the key states (18). -/
structure Keys where
  /-- 32-byte root, while rebuilt (18 R425). -/
  root : Option Bytes
  /-- both helper copies and the certificates are overwritten (18 R441). -/
  erased : Bool
  /-- Table 18.5 code of the last run (18 Table 18.5). -/
  copy0 : Nat
  /-- Table 18.5 code (18 Table 18.5). -/
  copy1 : Nat
  /-- attempts made in all (18 Table 18.5). -/
  attempts : Nat
  /-- KEY_REGEN_FAIL in force (18 R433). -/
  regenFail : Bool
  /-- node identity key (18 R427). -/
  node : KeyState
  /-- 16 point keys (18 R427). -/
  pts : List KeyState
  /-- 16 pairs of TLS keys (18 R427). -/
  tls : List KeyState
  /-- u32 saturating (01 R34). -/
  refusals : Nat
  /-- at most 4 requests (18 R436). -/
  queue : List AttReq
  /-- u16 (18 R436). -/
  nextTag : Nat
  /-- statements signed, by request tag, the last 4 (18 R436). -/
  ready : List (Nat × Bytes)
  /-- certificate chains (18 R438). -/
  chains : List TlsChain
  /-- 8 slots of the contract root store (12 R309). -/
  roots : List (Option Bytes)
deriving DecidableEq, Repr

/-- Keys at reset. -/
def Keys.reset : Keys where
  root := none
  erased := false
  copy0 := 0
  copy1 := 0
  attempts := 0
  regenFail := false
  node := KeyState.reset
  pts := List.replicate 16 KeyState.reset
  tls := List.replicate 16 KeyState.reset
  refusals := 0
  queue := []
  nextTag := 0
  ready := []
  chains := []
  roots := List.replicate 8 none

/-- One phase of a waveform table (11 R283). -/
structure WavePhase where
  /-- 1-1,000 (11 R283). -/
  ms : Nat
  /-- level code 0-4 (11 R277). -/
  com : Nat
  /-- level code (11 R283). -/
  dark : Nat
  /-- level code (11 R283). -/
  light : Nat
  /-- level code (11 R283). -/
  hold : Nat
deriving DecidableEq, Repr

/-- WavePhase at reset. -/
def WavePhase.reset : WavePhase where
  ms := 0
  com := 0
  dark := 0
  light := 0
  hold := 0

/-- The update, clear or compensation that runs (11 R284, R285). -/
structure DispRun where
  /-- 0 update, 1 full clear dark pass, 2 full clear light pass, 3 redraw, 4 remainder of an interrupted phase (11 R284). -/
  kind : Nat
  /-- Table 11.6 cause (11 Table 11.6). -/
  cause : Nat
  /-- 0-7 (11 R287). -/
  band : Nat
  /-- phase index, none for the compensation phase (11 R285). -/
  phase : Option Nat
  /-- elapsed ns at which the phase began (11 R285). -/
  start : Nat
  /-- duration of the phase (11 R285). -/
  ms : Nat
  /-- voltage across each of 160 segments in the phase, half-volts 2^-1 V (11 R277). -/
  volts : List Int
  /-- ms each of 160 segments is driven in the phase (11 R285). -/
  comp : List Nat
  /-- 160-bit image to reach (11 R284). -/
  target : Nat
  /-- ms booked at the last 10 ms mark (11 R285). -/
  marked : Nat
  /-- ms of the phases of the update that have ended (11 Table 11.6). -/
  total : Nat
  /-- ms of compensation in the update (11 Table 11.6). -/
  compMs : Nat
  /-- frame of R280 (11 R280). -/
  snapshot : Nat
  /-- u32 displayed value drawn (11 Table 11.6). -/
  shown : Nat
  /-- page drawn (11 R279). -/
  page : Nat × Nat
deriving DecidableEq, Repr

/-- DispRun at reset. -/
def DispRun.reset : DispRun where
  kind := 0
  cause := 0
  band := 0
  phase := none
  start := 0
  ms := 0
  volts := []
  comp := []
  target := 0
  marked := 0
  total := 0
  compMs := 0
  snapshot := 0
  shown := 0
  page := (0, 0)

/-- The legal display (11). -/
structure Display where
  /-- 0 off, 1 VEP starting, 2 VEN starting, 3 ladder starting, 4 on (11 Table 11.4). -/
  rails : Nat
  /-- maximum time of the rail starting (11 Table 11.4). -/
  railDue : Option Nat
  /-- 10 s after a rail failure (11 R288). -/
  retryDue : Option Nat
  /-- FLEN (24 Table 24.6). -/
  flen : Bool
  /-- 160-bit image of the last completed update, bit i: SEGi lit (11 R284). -/
  image : Nat
  /-- a completed image stands (SEG111 dark) (11 R280). -/
  valid : Bool
  /-- 160 book values, half-volt milliseconds (11 R285). -/
  book : List Int
  /-- a booked phase that did not end (11 R290). -/
  openRun : Option DispRun
  /-- what runs now (11 R284). -/
  run : Option DispRun
  /-- what follows: kind of DispRun and Table 11.6 cause (11 R288, R292). -/
  todo : List (Nat × Nat)
  /-- u32 saturating update number (11 Table 11.6). -/
  updates : Nat
  /-- current page (p, i) (11 R279). -/
  page : Nat × Nat
  /-- ND_DISP_DWELL (11 R279). -/
  dwellDue : Option Nat
  /-- ND_DISP_REFRESH (11 R284). -/
  refreshDue : Option Nat
  /-- pinned page (11 R279). -/
  pin : Option (Nat × Nat)
  /-- its hold time (11 R279). -/
  pinDue : Option Nat
  /-- 48 host segments (11 R282). -/
  hostSegs : Nat
  /-- 8 waveform tables, empty none (11 R283). -/
  waves : List (List WavePhase)
  /-- 0.1 degC, display-temperature (11 R286). -/
  hostTemp : Option Int
  /-- 600 s (11 R286). -/
  tempDue : Option Nat
  /-- cause of the deferral in force (11 R286). -/
  deferred : Option Nat
  /-- the next update is a full clear and redraw (11 R287). -/
  fullNext : Bool
  /-- ND_DISP_ENABLE 0 waits for the running update (11 R289). -/
  offPending : Bool
  /-- u32 saturating fault count (11 Table 11.7). -/
  faults : Nat
deriving DecidableEq, Repr

/-- Display at reset. -/
def Display.reset : Display where
  rails := 0
  railDue := none
  retryDue := none
  flen := false
  image := 0
  valid := false
  book := List.replicate 160 0
  openRun := none
  run := none
  todo := []
  updates := 0
  page := (0, 0)
  dwellDue := none
  refreshDue := none
  pin := none
  pinDue := none
  hostSegs := 0
  waves := List.replicate 8 []
  hostTemp := none
  tempDue := none
  deferred := none
  fullNext := false
  offPending := false
  faults := 0

/-- What the node knows of an image in a slot (21 Table 21.1). -/
structure ImageInfo where
  /-- u16 (21 Table 21.1). -/
  version : Nat
  /-- u16 state exported (21 Table 21.1). -/
  exported : Nat
  /-- u16 (21 Table 21.1). -/
  importLo : Nat
  /-- u16 (21 Table 21.1). -/
  importHi : Nat
  /-- u16 parameter format (21 Table 21.1). -/
  format : Nat
  /-- u16 minimum silicon (21 Table 21.1). -/
  silicon : Nat
  /-- 32-byte body digest (21 Table 21.1). -/
  digest : Bytes
  /-- SHA-256 of the whole image (21 Table 21.2). -/
  fileHash : Bytes
  /-- the whole image, header included (01 Table 1.7). -/
  image : Bytes
deriving DecidableEq, Repr

/-- ImageInfo at reset. (log 41) -/
def ImageInfo.reset : ImageInfo where
  version := 0
  exported := 0
  importLo := 0
  importHi := 0
  format := 0
  silicon := 0
  digest := []
  fileHash := []
  image := []

/-- One image slot (21). (log 44) -/
structure Slot where
  /-- image, none when marked empty (21 R488). -/
  info : Option ImageInfo
  /-- confirmed service slot (21 R494). -/
  confirmed : Bool
  /-- model's own: order of confirmation, newest highest (21 R494; log 6). -/
  order : Nat
deriving DecidableEq, Repr

/-- Slot at reset. (log 41) -/
def Slot.reset : Slot where
  info := none
  confirmed := false
  order := 0

/-- The open staging (21 R486). -/
structure Staging where
  /-- 0-3 (20 Table 20.5). -/
  kind : Nat
  /-- u32 (21 R486). -/
  length : Nat
  /-- 32 bytes (21 R486). -/
  sha : Bytes
  /-- pieces received (21 R486). -/
  pieces : List (Nat × Bytes)
  /-- 0 receiving, 1 verifying, 2 verified, 3 scheduled or handing over (21 R488). -/
  state : Nat
  /-- image built (21 R487). -/
  built : Bytes
  /-- header of the verified image (21 R484). -/
  info : Option ImageInfo
  /-- the carrying interface of the last command (15 Table 15.7). -/
  heth : Bool
  /-- its tag (15 Table 15.7). -/
  tag : Nat
  /-- u32, log entry of its last command of kind 2 or 3 (21 Table 21.6). -/
  logIdx : Nat
deriving DecidableEq, Repr

/-- Staging at reset. -/
def Staging.reset : Staging where
  kind := 0
  length := 0
  sha := []
  pieces := []
  state := 0
  built := []
  info := none
  heth := false
  tag := 0
  logIdx := 0

/-- Images, staging, handover and trial (21). -/
structure Firmware where
  /-- active service slot, 0 A, 1 B (21 R489). -/
  active : Nat
  /-- 2 service slots (21 R489). -/
  svc : List Slot
  /-- active legal slot, 0 or 1 (21 R496). -/
  legal : Nat
  /-- 2 legal slots (21 R496). -/
  legals : List Slot
  /-- the other legal slot becomes active at the next start (21 R497). -/
  legalPending : Bool
  /-- a pending legal image has started and the legal event log does not say so yet (21 R498). -/
  swapLog : Bool
  /-- open staging (21 R486). -/
  stage : Option Staging
  /-- 2 s for the standby core (21 R489). -/
  bootDue : Option Nat
  /-- the active service image is on trial (21 R491). -/
  trial : Bool
  /-- ND_FW_CONFIRM_TIMEOUT (21 R492). -/
  confirmDue : Option Nat
  /-- elapsed ns from which a boundary may take the scheduled legal or microcode swap (21 R496). -/
  swapAt : Option Nat
  /-- the Capo stays in the recovery loader (21 R499). -/
  recovery : Bool
  /-- the service pair runs (21 R494). -/
  svcRunning : Bool
  /-- parameter format governing, u16 (21 R495). -/
  format : Nat
  /-- cost table of the running microcode, rows of Tables 2.4 and 2.5 (21 R485). -/
  costs : List Nat
  /-- frame F of a service handover under way; true when it runs back (21 R489, R492). -/
  hand : Option (Nat × Bool)
  /-- u16, version of the running microcode (21 Table 21.1). -/
  mcVersion : Nat
deriving DecidableEq, Repr

/-- Firmware at reset. (log 41) -/
def Firmware.reset : Firmware where
  active := 0
  svc := [⟨some ImageInfo.reset, true, 1⟩, Slot.reset]
  legal := 0
  legals := [⟨some ImageInfo.reset, false, 0⟩, Slot.reset]
  legalPending := false
  swapLog := false
  stage := none
  bootDue := none
  trial := false
  confirmDue := none
  swapAt := none
  recovery := false
  svcRunning := false
  format := 0
  costs := []
  hand := none
  mcVersion := 0

/-- Supplies, resets and start-up (22). -/
structure Power where
  /-- the core die is out of reset (22 R507). -/
  coreOn : Bool
  /-- what holds it in reset: bit 0 rails or REFCLK25, 1 RESETn, 2 thermal shutdown (22 Table 22.4). -/
  coreHeld : Nat
  /-- milestones reached: 0 none, 1 reset released, 2 CAPO, 3 parameters, 4 root, 5 metering, 6 ready (22 Table 22.3). -/
  stage : Nat
  /-- the Capo adds frames (22 R510). -/
  capoOn : Bool
  /-- the Capo is in reset after a divergence or exception (22 R509). -/
  capoReset : Bool
  /-- Table 22.8 source of that reset (22 Table 22.8). -/
  capoCause : Nat
  /-- u32 exception code (22 Table 22.8). -/
  capoCode : Nat
  /-- frame of that reset (22 Table 22.8). -/
  capoFrame : Nat
  /-- cause of the last core-die reset: 0 power loss or rail, 1 brown-out, 2 RESETn, 3 REFCLK25, 4 thermal shutdown, 5 factory reset (22 Table 22.4). -/
  cause : Nat
  /-- PFWn asserted (low) (22 R513). -/
  pfw : Bool
  /-- VSW monitor below ND_VSW_WARN (22 R513). -/
  vswLow : Bool
  /-- frames copied by the tailpiece in the warning, saturating (22 Table 22.6). -/
  banked : Nat
  /-- elapsed ns of the brown-out trip (22 R505). -/
  tb : Option Nat
  /-- FSRST strap high (22 R511). -/
  fsrst : Bool
  /-- RESETn low (22 R511). -/
  resetn : Bool
  /-- u32 saturating, MRAM corrected errors (01 R36). -/
  corrected : Nat
  /-- THERMAL_DIE kind shutdown still to be raised (22 R515). -/
  shutdown : Bool
  /-- furthest values since kind 0 or 1 was raised, 4 rails, ratio, temperature (22 Table 22.7). -/
  supExt : List Int
deriving DecidableEq, Repr

/-- Power at reset. -/
def Power.reset : Power where
  coreOn := false
  coreHeld := 1
  stage := 0
  capoOn := false
  capoReset := false
  capoCause := 0
  capoCode := 0
  capoFrame := 0
  cause := 0
  pfw := false
  vswLow := false
  banked := 0
  tb := none
  fsrst := false
  resetn := false
  corrected := 0
  shutdown := false
  supExt := List.replicate 6 0

/-- The electrical engine of a point (06). -/
structure Electrical where
  /-- release lines of the total and of phases 1-3: future slots, s32.32 W, at most 1,024 (06 R143). -/
  line : List (List Int)
  /-- reactive release lines, at 1 kSa/s (06 R151). -/
  lineR : List (List Int)
  /-- per slot: last 64 reactive-path samples, newest first (06 R150). -/
  rHist : List (List Int)
  /-- per slot: samples of the last cycle in primary units 2^-47, newest first, at most 753 (06 R152). -/
  rms : List (List Int)
  /-- ns, T_c: the last accepted period, or the nominal one (06 R144). -/
  tc : Nat
  /-- ns, last accepted period (06 R144). -/
  accT : Nat
  /-- ns of the last crossing of the reference voltage (06 R144). -/
  crossAt : Option Nat
  /-- elapsed ns of the last accepted period (06 R144). -/
  periodAt : Option Nat
  /-- the frequency is valid (06 R144). -/
  valid : Bool
  /-- accepted cycles that ended in the interval (06 R153). -/
  cycles : Nat
  /-- first crossing of the interval, ns (06 R153). -/
  firstCross : Option Nat
  /-- last crossing of the interval, ns (06 R153). -/
  lastCross : Option Nat
  /-- per slot: sum of squares over the interval (06 R152). -/
  ivlSq : List Nat
  /-- per slot: sum over the interval (DC wiring) (06 R152). -/
  ivlSum : List Int
  /-- per slot: samples of the interval (06 R152). -/
  ivlN : List Nat
  /-- total and phases: released active energy of the interval (06 R156). -/
  ivlP : List Int
  /-- total and phases: released reactive energy of the interval (06 R156). -/
  ivlQ : List Int
  /-- total and phases: apparent energy of the interval (06 R156). -/
  ivlS : List Nat
  /-- per slot: one-cycle RMS or mean of the last frame, primary units 2^-47 (06 R152). -/
  oneRms : List Int
  /-- energy readings, scaled 2^32: per-phase import 1-3, export 1-3, apparent, fundamental import, export (06 Table 6.3). -/
  readings : List Nat
  /-- readings that have stuck (10 R253). -/
  stuckRd : List Nat
  /-- s32.32 W, released active power of the last frame: total and phases (06 R156). -/
  pNow : List Int
  /-- s32.32 var, released reactive power of the last reactive sample: total and phases (06 R156). -/
  qNow : List Int
  /-- 2^-32 VA, apparent power of the last frame: total and phases (06 R154). -/
  sNow : List Nat
  /-- s1.15, power factor of the last interval: total and phases (06 R154). -/
  pf : List Int
  /-- per slot: RMS or mean of the last interval, primary units 2^-47 (06 R152). -/
  rmsIvl : List Int
  /-- released active and reactive power and apparent power of the last interval, per second: total and phases, 2^-32 (06 R156). -/
  powIvl : List (List Int)
  /-- uHz, frequency of the last interval, 0 none (06 R153). -/
  freqIvl : Nat
  /-- CLIP and GAIN_SEAM of the last frame, by slot: bit k clip, bit 8+k seam (20 Table 20.4). -/
  frmFlags : Nat
  /-- frmFlags of the frames of the interval together (20 Table 20.4). -/
  flgIvl : Nat
  /-- frmFlags of the frames of the last interval together (20 Table 20.4). -/
  flgRes : Nat
  /-- sums over the interval's windows: voltage negative and zero sequence, current negative and zero sequence, 0.001 % (06 Table 6.3). -/
  unbIvl : List Int
  /-- windows in these sums (06 Table 6.3). -/
  unbN : Nat
  /-- unbalances of the last interval: the means of its windows (06 Table 6.3). -/
  unbRes : List Int
  /-- fundamental phasors of the last window per slot, real and imaginary part, primary units 2^-32 (06 R155). -/
  fund : List (Nat × Int × Int)
deriving DecidableEq, Repr

/-- Electrical at reset. -/
def Electrical.reset : Electrical where
  line := [[], [], [], []]
  lineR := [[], [], [], []]
  rHist := List.replicate 8 []
  rms := List.replicate 8 []
  tc := 20000000
  accT := 20000000
  crossAt := none
  periodAt := none
  valid := false
  cycles := 0
  firstCross := none
  lastCross := none
  ivlSq := List.replicate 8 0
  ivlSum := List.replicate 8 0
  ivlN := List.replicate 8 0
  ivlP := List.replicate 4 0
  ivlQ := List.replicate 4 0
  ivlS := List.replicate 4 0
  oneRms := List.replicate 8 0
  readings := List.replicate 9 0
  stuckRd := []
  pNow := List.replicate 4 0
  qNow := List.replicate 4 0
  sNow := List.replicate 4 0
  pf := List.replicate 4 0
  rmsIvl := List.replicate 8 0
  powIvl := List.replicate 3 (List.replicate 4 0)
  freqIvl := 0
  frmFlags := 0
  flgIvl := 0
  flgRes := 0
  unbIvl := List.replicate 4 0
  unbN := 0
  unbRes := List.replicate 4 0
  fund := []

/-- A dip, swell or interruption under way (07 R168). -/
structure PqEvent where
  /-- 0 dip, 1 swell, 2 interruption (07 Table 7.6). -/
  kind : Nat
  /-- frame at which it began (07 Table 7.6). -/
  start : Nat
  /-- extreme of the half-cycle or one-cycle RMS, 2^-47 (07 R169). -/
  extreme : Nat
  /-- bitmap of the voltages that crossed the start threshold (07 Table 7.6). -/
  phases : Nat
  /-- voltage of the extreme, 0-2 (07 Table 7.6). -/
  extV : Nat
  /-- an invalid frame fell in it (07 R170). -/
  missing : Bool
deriving DecidableEq, Repr

/-- PqEvent at reset. -/
def PqEvent.reset : PqEvent where
  kind := 0
  start := 0
  extreme := 0
  phases := 0
  extV := 0
  missing := false

/-- The power-quality engine of a point (07). -/
structure Quality where
  /-- events under way (07 R168). -/
  events : List PqEvent
  /-- per slot: samples by content instant, primary units 2^-47, newest first, at most 14,336 (07 R171, R172). -/
  hist : List (List Int)
  /-- ns, content instant of the sample that follows the newest (07 R171). -/
  histEnd : Nat
  /-- frames of the history, newest first: content instant; bits 0-7 clip and 8-15 seam by slot, bit 16 invalid, bit 17 frequency invalid (07 R175, R176). -/
  frames : List (Nat × Nat)
  /-- ns, last crossing used for windows (07 R171). -/
  lastUsed : Option Nat
  /-- ns, content instant from which the next window may begin (07 R176). -/
  winFrom : Nat
  /-- cycles counted in the running window (07 R172). -/
  winCycles : Nat
  /-- ns, content time at which the running window began, 0 none (07 R171). -/
  winStart : Nat
  /-- per slot: interharmonic values Y_ih,0.. of the last window, primary units 2^-32 (07 R173). -/
  lastIh : List (List Nat)
  /-- per slot: THD of the last window, 0.001 % (07 R173). -/
  lastThd : List Nat
  /-- per slot: flags of the last window, bit 0 unsynchronised, bit 1 clip, bit 2 seam (07 R175). -/
  lastFlags : List Nat
  /-- windows discarded in the running interval (07 R176). -/
  ivlDisc : Nat
  /-- windows discarded in the last interval (07 R176). -/
  ivlDiscRes : Nat
  /-- per slot: Y_h and angle of the last window (07 R175). -/
  lastWin : List (List (Nat × Int))
  /-- per slot: sums over the windows of the interval of the squares of THD, Y_h, Y_h/Y_1, Y_ih and angles (07 R175). -/
  ivlWin : List (List (List Nat))
  /-- per slot: interval values of the last interval, in the same order (07 R175). -/
  ivlRes : List (List (List Nat))
  /-- windows of the running interval (07 R175). -/
  windows : Nat
  /-- windows of the last interval (07 R175). -/
  windowsRes : Nat
  /-- u32 saturating discarded windows (07 R176). -/
  discarded : Nat
  /-- limit runs: slot, order (1 for THD), run, in excess (07 R177). -/
  limRuns : List (Nat × Nat × Nat × Bool)
  /-- per slot: spectra of the running block, and sum and largest of the squares of the 75 bands (07 R179). -/
  block : List (Nat × List (Nat × Nat))
  /-- the finished block, published one frame later: first frame, and per slot its spectra and sums (07 R179). -/
  blockPend : Option (Nat × List (Nat × List (Nat × Nat)))
  /-- per slot: first frame of the last block published, its spectra, band RMS and maximum (07 R179). -/
  blockRes : List (Nat × Nat × List (Nat × Nat))
  /-- supraharmonic limit runs: slot, band set, run, in excess (07 R180). -/
  shRuns : List (Nat × Nat × Nat × Bool)
  /-- the last 64 frames, newest first: frame marker and the samples of the 8 slots (07 R181). -/
  pre : List (Nat × List (List Int))
deriving DecidableEq, Repr

/-- Quality at reset. -/
def Quality.reset : Quality where
  events := []
  hist := List.replicate 8 []
  histEnd := 0
  frames := []
  lastUsed := none
  winFrom := 0
  winCycles := 0
  winStart := 0
  lastIh := List.replicate 8 []
  lastThd := List.replicate 8 0
  lastFlags := List.replicate 8 0
  ivlDisc := 0
  ivlDiscRes := 0
  lastWin := List.replicate 8 []
  ivlWin := List.replicate 8 []
  ivlRes := List.replicate 8 []
  windows := 0
  windowsRes := 0
  discarded := 0
  limRuns := []
  block := List.replicate 8 (0, [])
  blockPend := none
  blockRes := List.replicate 8 (0, 0, [])
  shRuns := []
  pre := []

/-- The capture that runs (07 R181-R183). -/
structure Capture where
  /-- point (07 R181). -/
  pt : Nat
  /-- frames still to write after the trigger (07 R181). -/
  left : Nat
  /-- u8 saturating missed triggers (07 R182). -/
  missed : Nat
  /-- words written (07 R183). -/
  words : Nat
  /-- slots captured (07 R182). -/
  slots : Nat
  /-- frame blocks written (07 Table 7.5). -/
  frames : Nat
deriving DecidableEq, Repr

/-- Capture at reset. -/
def Capture.reset : Capture where
  pt := 0
  left := 0
  missed := 0
  words := 0
  slots := 0
  frames := 0

/-- One fluid role's fault and last good state (08 R213, R214). -/
structure RoleState where
  /-- consecutive frames with an RTD resistance out of range (08 Table 8.8). -/
  bad : Nat
  /-- consecutive frames with it in range (08 Table 8.8). -/
  good : Nat
  /-- bitmap of the causes in force, Table 8.8 (08 R213). -/
  faults : Nat
  /-- measured value of the last frame, role unit 2^-32 (08 R188). -/
  value : Int
  /-- a value has been measured since configuration (04 R120). -/
  known : Bool
  /-- frame and role value of the last 16 frames processed, newest first (08 R197). -/
  recent : List (Nat × Int)
  /-- frame and measured value of the last 16 frames measured, newest first (08 Table 8.8). -/
  seen : List (Nat × Int)
  /-- the role was faulty in the interval (08 R214). -/
  ivlBad : Bool
  /-- last good interval mean (08 R214). -/
  lastGood : Int
  /-- an interval mean has been formed (08 R214). -/
  hasGood : Bool
  /-- sum over the good frames of the interval (08 R214). -/
  ivlSum : Int
  /-- good frames of the interval (08 R214). -/
  ivlN : Nat
deriving DecidableEq, Repr

/-- RoleState at reset. -/
def RoleState.reset : RoleState where
  bad := 0
  good := 0
  faults := 0
  value := 0
  known := false
  recent := []
  seen := []
  ivlBad := false
  lastGood := 0
  hasGood := false
  ivlSum := 0
  ivlN := 0

/-- One fluid state evaluated by the burst (08 R195-R198). -/
structure FluidState where
  /-- kg/m3, 2^-60 (08 R195). -/
  rho : Int
  /-- J/kg, 2^-60 (08 R195). -/
  h : Int
  /-- state class, Table 8.5 (08 R196). -/
  cls : Nat
  /-- out of region, as reported (08 R198). -/
  oor : Bool
  /-- PT_FL_OOR_RULE as the last burst out of region applied it (08 Table 8.12). -/
  rule : Nat
  /-- rho of the last burst in region (08 R198). -/
  goodRho : Int
  /-- h of the last burst in region (08 R198). -/
  goodH : Int
  /-- a burst has been in region (08 R198). -/
  hasGood : Bool
deriving DecidableEq, Repr

/-- FluidState at reset. -/
def FluidState.reset : FluidState where
  rho := 0
  h := 0
  cls := 0
  oor := false
  rule := 0
  goodRho := 0
  goodH := 0
  hasGood := false

/-- The fluid engine of a point (08). -/
structure Fluid where
  /-- 8 slots (08 R213). -/
  roles : List RoleState
  /-- the pulse role (08 R213). -/
  pls : RoleState
  /-- state 0 supply or flow side, state 1 return (08 R196). -/
  st : List FluidState
  /-- discharge coefficient C, 2^-60; 0 before the first burst (08 R201). -/
  cC : Int
  /-- K, kg/s by the root of a pascal, 2^-60 (08 R202). -/
  kFlow : Int
  /-- base or reference density, kg/m3, 2^-60 (08 R210, R211). -/
  rhoRef : Int
  /-- HEAT: Ts - Tr of the last burst, 0.001 C 2^-32 (08 R212). -/
  dT : Int
  /-- AIR: pressure, temperature outside Table 8.7 in the last burst (08 Table 8.8). -/
  lineBad : List Bool
  /-- the compliance comparator is tripped (04 R109). -/
  exLevel : Bool
  /-- frame in which it last tripped, until its faults clear (08 Table 8.8). -/
  exTrip : Option Nat
  /-- consecutive frames without a trip (08 Table 8.8). -/
  exRun : Nat
  /-- expansibility, 2^-60 (08 R199). -/
  eps : Int
  /-- Reynolds number, 2^-60 (08 R201). -/
  reD : Int
  /-- rates of the main and second quantity in the last frame, register units a second, 2^-32 (20 R480). -/
  flow : List Int
  /-- pulse frequency, Hz 2^-60 (08 R203). -/
  freq : Int
  /-- u32 saturating non-converged bursts (08 R201). -/
  nonConv : Nat
  /-- u32 saturating bursts outside limits (08 R202). -/
  outLim : Nat
  /-- u32 saturating negative heat differences (08 R212). -/
  negHeat : Nat
  /-- reverse flow has been seen in the interval (08 R206). -/
  revSeen : Bool
deriving DecidableEq, Repr

/-- Fluid at reset. -/
def Fluid.reset : Fluid where
  roles := List.replicate 8 RoleState.reset
  pls := RoleState.reset
  st := List.replicate 2 FluidState.reset
  cC := 0
  kFlow := 0
  rhoRef := 0
  dT := 0
  lineBad := [false, false]
  exLevel := false
  exTrip := none
  exRun := 0
  eps := 0
  reD := 0
  flow := [0, 0]
  freq := 0
  nonConv := 0
  outLim := 0
  negHeat := 0
  revSeen := false

/-- Transfer point (09, 10). -/
structure Point where
  /-- 38 legal and per-point registers, u64 with 32-bit fraction, scaled 2^32 (10 R248). -/
  regs : List Nat
  /-- 32 wrap counts, u16 saturating (10 R251). -/
  wraps : List Nat
  /-- register indices that have stuck (10 R249). -/
  stuck : List Nat
  /-- u32 saturating, saturated frame quantities (10 R248). -/
  satFrames : Nat
  /-- tariff in force, 0-7 (09 R237). -/
  tariff : Nat
  /-- out of service (09 R242). -/
  outService : Bool
  /-- running interval (02 R47). -/
  ivl : Span
  /-- running period (02 R43). -/
  per : Span
  /-- records due whose frame is not yet added, or that go after its PERIOD record (01 R38). -/
  late : List LateRec
  /-- a session frame fell in the running period (10 R274). -/
  ivlSes : Bool
  /-- session (09 R226). -/
  ses : Session
  /-- u32 next record sequence (10 R255). -/
  seqNext : Nat
  /-- highest acknowledged sequence (10 R260). -/
  acked : Option Nat
  /-- 38 registers at the last ledger entry, for the residual bank (10 R266). -/
  advBase : List Nat
  /-- PLS(2p) (08 R191). -/
  plsA : Pulse
  /-- PLS(2p+1) (08 R191). -/
  plsB : Pulse
  /-- pulse counting (08 R191). -/
  pulse : PulseLine
  /-- meter pulse output (06 R161). -/
  mpo : Mpo
  /-- electrical quantities (06). -/
  el : Electrical
  /-- power quality (07). -/
  pq : Quality
  /-- fluid quantities (08). -/
  fl : Fluid
  /-- outlet port (12). -/
  out : Outlet
  /-- the next PERIOD record carries MISSING_FRAMES (10 R271, 01 Table 1.8). -/
  missedRestart : Bool
deriving DecidableEq, Repr

/-- Point at reset. -/
def Point.reset : Point where
  regs := List.replicate 38 0
  wraps := List.replicate 32 0
  stuck := []
  satFrames := 0
  tariff := 0
  outService := false
  ivl := Span.reset
  per := Span.reset
  late := []
  ivlSes := false
  ses := Session.reset
  seqNext := 0
  acked := none
  advBase := List.replicate 38 0
  plsA := Pulse.reset
  plsB := Pulse.reset
  pulse := PulseLine.reset
  mpo := Mpo.reset
  el := Electrical.reset
  pq := Quality.reset
  fl := Fluid.reset
  out := Outlet.reset
  missedRestart := false

/-- One point in the hand-over block (02 R48, 06 R147, 08 R208). -/
structure PtBlock where
  /-- the frame is valid for the point (02 R61). -/
  valid : Bool
  /-- eight u32.32 frame quantities in the order of R267 (06 R147, 08 R207, R214). -/
  q : List Nat
  /-- flags of the frame, Table 10.5 (00 R21). -/
  flags : Nat
  /-- quantities of the frame that saturated (10 R248). -/
  sat : Nat
  /-- the main quantity went to the substitute registers (08 R214). -/
  subst : Bool
deriving DecidableEq, Repr

/-- PtBlock at reset. -/
def PtBlock.reset : PtBlock where
  valid := true
  q := []
  flags := 0
  sat := 0
  subst := false

/-- A hand-over block (02 R48). -/
structure Block where
  /-- frame n (02 R48). -/
  frame : Nat
  /-- 16 points (02 R48). -/
  pts : List PtBlock
  /-- warning mark (10 R266). -/
  warn : Bool
  /-- model's own: elapsed ns of t0 of the frame (02 R48). -/
  start : Nat
  /-- time regime of the frame, Table 3.5 (03 R83). -/
  regime : Nat
  /-- UNALIGNED and TIME_STEP of the frame, Table 10.5 (03 R82, R79). -/
  time : Nat
deriving DecidableEq, Repr

/-- Block at reset. -/
def Block.reset : Block where
  frame := 0
  pts := []
  warn := false
  start := 0
  regime := 0
  time := 0

/-- The quantity engine (02). -/
structure Engine where
  /-- running mode, Table 2.6 (02 R52). -/
  mode : Nat
  /-- changeover: first frame b, old mode, new mode (02 R57). -/
  change : Option (Nat × Nat × Nat)
  /-- the running interval is the changeover interval (02 R56). -/
  ivlChange : Bool
  /-- block of the frame just processed, fret 145 not yet complete (02 R48). -/
  work : Option Block
  /-- hand-over buffers n mod 2 (02 R48). -/
  buf : List (Option Block)
  /-- frame, fret abandoned in its schedule, cycle count, stretch (02 R60). -/
  cut : Option (Nat × Nat × Nat × Nat)
  /-- diagnosis in fret 146 (04 R114). -/
  diag : Option Diagnosis
  /-- courses waiting for diagnosis (04 R114). -/
  diagQueue : List Nat
  /-- frames for which the first of them has waited while fret 146 was free (04 R114). -/
  diagWait : Nat
  /-- courses queued by course-restore for the next point interval boundary (04 R116). -/
  restores : List Nat
  /-- parity errors to be reported: frame and fret (01 R32). -/
  parityEv : List (Nat × Nat)
  /-- capture that runs (07 R181). -/
  capture : Option Capture
  /-- frames before this one carry TEST (23 R525). -/
  testFrames : Nat
  /-- last frame added to the legal registers (10 R266). -/
  added : Option Nat
deriving DecidableEq, Repr

/-- Engine at reset. -/
def Engine.reset : Engine where
  mode := 0
  change := none
  ivlChange := false
  work := none
  buf := [none, none]
  cut := none
  diag := none
  diagQueue := []
  diagWait := 0
  restores := []
  parityEv := []
  capture := none
  testFrames := 0
  added := none

/-- The power-line engine (13). -/
structure Plc where
  /-- 18 ports (13 R319). -/
  ports : List PlcPort
  /-- u32, turns started, wraps (13 R323). -/
  turns : Nat
  /-- two slots of every turn serve the supraharmonic transforms (13 R325). -/
  borrow : Bool
deriving DecidableEq, Repr

/-- Plc at reset. -/
def Plc.reset : Plc where
  ports := List.replicate 18 PlcPort.reset
  turns := 0
  borrow := false

/-- The whole block. -/
structure State where
  /-- node time counters (02, 03). -/
  clk : Clock
  /-- node time (03). -/
  servo : Servo
  /-- parameter store (20 R473). -/
  par : ParamStore
  /-- host register space (19). -/
  host : HostPort
  /-- test window (23). -/
  test : TestWin
  /-- 128 slices and channels (04 R89). -/
  slices : List Slice
  /-- 64 courses (04 R113). -/
  courses : List Course
  /-- quantity engine (02 R49). -/
  eng : Engine
  /-- 16 transfer points (01 R26). -/
  pts : List Point
  /-- records (10). -/
  recs : RecordStore
  /-- holdup ledger (10 R264). -/
  led : Ledger
  /-- switch die (14). -/
  sw : SwitchDie
  /-- safety functions (15). -/
  saf : Safety
  /-- legal event log (15 R376). -/
  log : LegalLog
  /-- key unit (18). -/
  keys : Keys
  /-- legal display (11). -/
  disp : Display
  /-- power-line engine (13). -/
  plc : Plc
  /-- Yudaix ring and balance (17). -/
  ring : Ring
  /-- SAR converters (16). -/
  sar : Sar
  /-- firmware (21). -/
  fw : Firmware
  /-- supplies and reset (22). -/
  pwr : Power
  /-- commands waiting, first in first out (19 R452; log 2). -/
  pending : List Instr
deriving DecidableEq, Repr

/-- The machine right after reset: the core die and the switch die without power, the parameter store at
its defaults (R20), ledger and journal empty (R271), host registers at their Reset values (Table 19.3). (log 6) -/
def State.reset : State where
  clk := Clock.reset
  servo := Servo.reset
  par := ParamStore.reset
  host := HostPort.reset
  test := TestWin.reset
  slices := List.replicate 128 Slice.reset
  courses := List.replicate 64 Course.reset
  eng := Engine.reset
  pts := List.replicate 16 Point.reset
  recs := RecordStore.reset
  led := Ledger.reset
  sw := SwitchDie.reset
  saf := Safety.reset
  log := LegalLog.reset
  keys := Keys.reset
  disp := Display.reset
  plc := Plc.reset
  ring := Ring.reset
  sar := Sar.reset
  fw := Firmware.reset
  pwr := Power.reset
  pending := []

/-- Change `clk` alone. -/
def State.modClk (s : State) (f : Clock → Clock) : State := { s with clk := f s.clk }

/-- Change `servo` alone. -/
def State.modServo (s : State) (f : Servo → Servo) : State := { s with servo := f s.servo }

/-- Change `par` alone. -/
def State.modPar (s : State) (f : ParamStore → ParamStore) : State := { s with par := f s.par }

/-- Change `host` alone. -/
def State.modHost (s : State) (f : HostPort → HostPort) : State := { s with host := f s.host }

/-- Change `test` alone. -/
def State.modTest (s : State) (f : TestWin → TestWin) : State := { s with test := f s.test }

/-- Change `slices` alone. -/
def State.modSlices (s : State) (f : List Slice → List Slice) : State := { s with slices := f s.slices }

/-- Change `courses` alone. -/
def State.modCourses (s : State) (f : List Course → List Course) : State := { s with courses := f s.courses }

/-- Change `eng` alone. -/
def State.modEng (s : State) (f : Engine → Engine) : State := { s with eng := f s.eng }

/-- Change `pts` alone. -/
def State.modPts (s : State) (f : List Point → List Point) : State := { s with pts := f s.pts }

/-- Change `recs` alone. -/
def State.modRecs (s : State) (f : RecordStore → RecordStore) : State := { s with recs := f s.recs }

/-- Change `led` alone. -/
def State.modLed (s : State) (f : Ledger → Ledger) : State := { s with led := f s.led }

/-- Change `sw` alone. -/
def State.modSw (s : State) (f : SwitchDie → SwitchDie) : State := { s with sw := f s.sw }

/-- Change `saf` alone. -/
def State.modSaf (s : State) (f : Safety → Safety) : State := { s with saf := f s.saf }

/-- Change `log` alone. -/
def State.modLog (s : State) (f : LegalLog → LegalLog) : State := { s with log := f s.log }

/-- Change `keys` alone. -/
def State.modKeys (s : State) (f : Keys → Keys) : State := { s with keys := f s.keys }

/-- Change `disp` alone. -/
def State.modDisp (s : State) (f : Display → Display) : State := { s with disp := f s.disp }

/-- Change `plc` alone. -/
def State.modPlc (s : State) (f : Plc → Plc) : State := { s with plc := f s.plc }

/-- Change `ring` alone. -/
def State.modRing (s : State) (f : Ring → Ring) : State := { s with ring := f s.ring }

/-- Change `sar` alone. -/
def State.modSar (s : State) (f : Sar → Sar) : State := { s with sar := f s.sar }

/-- Change `fw` alone. -/
def State.modFw (s : State) (f : Firmware → Firmware) : State := { s with fw := f s.fw }

/-- Change `pwr` alone. -/
def State.modPwr (s : State) (f : Power → Power) : State := { s with pwr := f s.pwr }

/-- Change `pending` alone. -/
def State.modPending (s : State) (f : List Instr → List Instr) : State := { s with pending := f s.pending }

end Sys2Proof.Machine
end

