-- ==== Sys2Proof/Machine/Params.lean ====
section
/-!
DEFINITION. The parameter dictionary (00 R16–R20, 20 R472–R474): the PIDs of every family's table under the
manual's own names, one row per PID or run of PIDs with its type, range, default, effect and seal, and the
defaults that go by point type.
-/

namespace Sys2Proof.Machine

/-- One row of a parameter table (R16). `ty` is the type code of parameter-describe (Table 20.4); `lo`–`hi` is the
main contiguous range as stored integers rounded inward (R20); `extra` the further values accepted. `sealNo` is 0
none, 1 SEAL0, 2 SEAL1 (R19); `logged` says that an accepted write makes a log entry of kind 2 (R478). -/
structure ParamRow where
  first : Nat
  last : Nat
  ty : Nat
  frac : Nat
  lo : Int
  hi : Int
  extra : List Int
  dflt : Int
  effect : Effect
  sealNo : Nat
  logged : Bool
deriving DecidableEq, Repr

/-- PID of CH_GAIN (chapter 04). -/
abbrev CH_GAIN : Nat := 0x3000
/-- PID of CH_AUX (chapter 04). -/
abbrev CH_AUX : Nat := 0x3001
/-- PID of CH_AG_CYCLE_REF (chapter 04). -/
abbrev CH_AG_CYCLE_REF : Nat := 0x3002
/-- PID of CH_COURSE_TOL (chapter 04). -/
abbrev CH_COURSE_TOL : Nat := 0x3003
/-- PID of CH_FILTER (chapter 05). -/
abbrev CH_FILTER : Nat := 0x3100
/-- PID of CH_WIDEBAND (chapter 05). -/
abbrev CH_WIDEBAND : Nat := 0x3101
/-- PID of CH_DC_BLOCK (chapter 05). -/
abbrev CH_DC_BLOCK : Nat := 0x3102
/-- PID of CH_DCB_FREEZE (chapter 05). -/
abbrev CH_DCB_FREEZE : Nat := 0x3103
/-- PID of CH_INTEGRATOR (chapter 05). -/
abbrev CH_INTEGRATOR : Nat := 0x3104
/-- PID of CH_CAL_GAIN_G0 to CH_CAL_GAIN_G5 (chapter 05). -/
abbrev CH_CAL_GAIN_G0 : Nat := 0x3200
/-- PID of CH_CAL_OFFSET_G0 to CH_CAL_OFFSET_G5 (chapter 05). -/
abbrev CH_CAL_OFFSET_G0 : Nat := 0x3206
/-- PID of CH_COARSE_DELAY (chapter 05). -/
abbrev CH_COARSE_DELAY : Nat := 0x320C
/-- PID of CH_FINE_DELAY (chapter 05). -/
abbrev CH_FINE_DELAY : Nat := 0x320D
/-- PID of CH_LIMIT_LO (chapter 04). -/
abbrev CH_LIMIT_LO : Nat := 0x3300
/-- PID of CH_LIMIT_HI (chapter 04). -/
abbrev CH_LIMIT_HI : Nat := 0x3301
/-- PID of CH_LIMIT_FRAMES (chapter 04). -/
abbrev CH_LIMIT_FRAMES : Nat := 0x3302
/-- PID of CH_CLIP_HOLDOFF (chapter 04). -/
abbrev CH_CLIP_HOLDOFF : Nat := 0x3303
/-- PID of PT_TYPE (chapter 09). -/
abbrev PT_TYPE : Nat := 0x4000
/-- PID of PT_SERVICE (chapter 09). -/
abbrev PT_SERVICE : Nat := 0x4001
/-- PID of PT_OPT_ROLES (chapter 09). -/
abbrev PT_OPT_ROLES : Nat := 0x4002
/-- PID of PT_PATH_SW (chapter 09). -/
abbrev PT_PATH_SW : Nat := 0x4003
/-- PID of PT_SESSIONS (chapter 09). -/
abbrev PT_SESSIONS : Nat := 0x4004
/-- PID of PT_AUTH_MODE (chapter 09). -/
abbrev PT_AUTH_MODE : Nat := 0x4100
/-- PID of PT_AUTH_TIMEOUT (chapter 09). -/
abbrev PT_AUTH_TIMEOUT : Nat := 0x4101
/-- PID of PT_START_TIMEOUT (chapter 09). -/
abbrev PT_START_TIMEOUT : Nat := 0x4102
/-- PID of PT_STOP_GRACE (chapter 09). -/
abbrev PT_STOP_GRACE : Nat := 0x4103
/-- PID of PT_STOP_SETTLE (chapter 09). -/
abbrev PT_STOP_SETTLE : Nat := 0x4104
/-- PID of PT_PRESET_LEAD (chapter 09). -/
abbrev PT_PRESET_LEAD : Nat := 0x4105
/-- PID of PT_STOP_ON_HOST_LOSS (chapter 09). -/
abbrev PT_STOP_ON_HOST_LOSS : Nat := 0x4106
/-- PID of PT_STOP_ON_SUBST (chapter 09). -/
abbrev PT_STOP_ON_SUBST : Nat := 0x4107
/-- PID of PT_CURRENCY (chapter 09). -/
abbrev PT_CURRENCY : Nat := 0x4108
/-- PID of PT_TARIFF_MODE (chapter 09). -/
abbrev PT_TARIFF_MODE : Nat := 0x4109
/-- PID of PT_TARIFF_FIXED (chapter 09). -/
abbrev PT_TARIFF_FIXED : Nat := 0x410A
/-- PID of PT_TZ_OFFSET (chapter 09). -/
abbrev PT_TZ_OFFSET : Nat := 0x410B
/-- PID of PT_PRICE_0 to PT_PRICE_7 (chapter 09). -/
abbrev PT_PRICE_0 : Nat := 0x4110
/-- PID of PT_CAL_0 to PT_CAL_23 (chapter 09). -/
abbrev PT_CAL_0 : Nat := 0x4120
/-- PID of PT_RATIO_0 to PT_RATIO_7 (chapter 06). -/
abbrev PT_RATIO_0 : Nat := 0x4200
/-- PID of PT_WIRING (chapter 06). -/
abbrev PT_WIRING : Nat := 0x4208
/-- PID of PT_F_NOM (chapter 06). -/
abbrev PT_F_NOM : Nat := 0x4209
/-- PID of PT_F_REF_SLOT (chapter 06). -/
abbrev PT_F_REF_SLOT : Nat := 0x420A
/-- PID of PT_DIR_INVERT (chapter 06). -/
abbrev PT_DIR_INVERT : Nat := 0x420B
/-- PID of PT_START_CURRENT (chapter 06). -/
abbrev PT_START_CURRENT : Nat := 0x420C
/-- PID of PT_PQ_ENABLE (chapter 07). -/
abbrev PT_PQ_ENABLE : Nat := 0x4300
/-- PID of PT_U_DECLARED (chapter 07). -/
abbrev PT_U_DECLARED : Nat := 0x4301
/-- PID of PT_DIP_THRESH (chapter 07). -/
abbrev PT_DIP_THRESH : Nat := 0x4302
/-- PID of PT_SWELL_THRESH (chapter 07). -/
abbrev PT_SWELL_THRESH : Nat := 0x4303
/-- PID of PT_INTR_THRESH (chapter 07). -/
abbrev PT_INTR_THRESH : Nat := 0x4304
/-- PID of PT_PQ_HYST (chapter 07). -/
abbrev PT_PQ_HYST : Nat := 0x4305
/-- PID of PT_HARM_GROUPING (chapter 07). -/
abbrev PT_HARM_GROUPING : Nat := 0x4306
/-- PID of PT_THD_U_LIMIT (chapter 07). -/
abbrev PT_THD_U_LIMIT : Nat := 0x4307
/-- PID of PT_THD_I_LIMIT (chapter 07). -/
abbrev PT_THD_I_LIMIT : Nat := 0x4308
/-- PID of PT_HARM_LIMIT_WINDOWS (chapter 07). -/
abbrev PT_HARM_LIMIT_WINDOWS : Nat := 0x4309
/-- PID of PT_SH_LIMIT_LOW (chapter 07). -/
abbrev PT_SH_LIMIT_LOW : Nat := 0x430A
/-- PID of PT_SH_LIMIT_HIGH (chapter 07). -/
abbrev PT_SH_LIMIT_HIGH : Nat := 0x430B
/-- PID of PT_SH_LIMIT_BLOCKS (chapter 07). -/
abbrev PT_SH_LIMIT_BLOCKS : Nat := 0x430C
/-- PID of PT_CAP_TRIGGERS (chapter 07). -/
abbrev PT_CAP_TRIGGERS : Nat := 0x430D
/-- PID of PT_CAP_SLOTS (chapter 07). -/
abbrev PT_CAP_SLOTS : Nat := 0x430E
/-- PID of PT_CAP_PRE (chapter 07). -/
abbrev PT_CAP_PRE : Nat := 0x430F
/-- PID of PT_CAP_POST (chapter 07). -/
abbrev PT_CAP_POST : Nat := 0x4310
/-- PID of PT_HARM_U_LIM_2 to PT_HARM_U_LIM_63 (chapter 07). -/
abbrev PT_HARM_U_LIM_2 : Nat := 0x4311
/-- PID of PT_FL_FLOW_SRC (chapter 08). -/
abbrev PT_FL_FLOW_SRC : Nat := 0x4400
/-- PID of PT_FL_BIDIR (chapter 08). -/
abbrev PT_FL_BIDIR : Nat := 0x4401
/-- PID of PT_FL_DIR_INVERT (chapter 08). -/
abbrev PT_FL_DIR_INVERT : Nat := 0x4402
/-- PID of PT_FL_CUTOFF (chapter 08). -/
abbrev PT_FL_CUTOFF : Nat := 0x4403
/-- PID of PT_FL_REV_EVENT (chapter 08). -/
abbrev PT_FL_REV_EVENT : Nat := 0x4404
/-- PID of PT_FL_P_GAUGE (chapter 08). -/
abbrev PT_FL_P_GAUGE : Nat := 0x4405
/-- PID of PT_FL_P_ATM (chapter 08). -/
abbrev PT_FL_P_ATM : Nat := 0x4406
/-- PID of PT_FL_RTD (chapter 08). -/
abbrev PT_FL_RTD : Nat := 0x4407
/-- PID of PT_FL_ORI_D20 (chapter 08). -/
abbrev PT_FL_ORI_D20 : Nat := 0x4408
/-- PID of PT_FL_ORI_PIPE20 (chapter 08). -/
abbrev PT_FL_ORI_PIPE20 : Nat := 0x4409
/-- PID of PT_FL_ORI_TAPS (chapter 08). -/
abbrev PT_FL_ORI_TAPS : Nat := 0x440A
/-- PID of PT_FL_ORI_ALPHA_D (chapter 08). -/
abbrev PT_FL_ORI_ALPHA_D : Nat := 0x440B
/-- PID of PT_FL_ORI_ALPHA_PIPE (chapter 08). -/
abbrev PT_FL_ORI_ALPHA_PIPE : Nat := 0x440C
/-- PID of PT_FL_KAPPA (chapter 08). -/
abbrev PT_FL_KAPPA : Nat := 0x440D
/-- PID of PT_FL_VISC (chapter 08). -/
abbrev PT_FL_VISC : Nat := 0x440E
/-- PID of PT_STEAM_SAT_MODE (chapter 08). -/
abbrev PT_STEAM_SAT_MODE : Nat := 0x440F
/-- PID of PT_STEAM_SAT_BAND (chapter 08). -/
abbrev PT_STEAM_SAT_BAND : Nat := 0x4410
/-- PID of PT_FL_OOR_RULE (chapter 08). -/
abbrev PT_FL_OOR_RULE : Nat := 0x4411
/-- PID of PT_FL_OOR_RHO (chapter 08). -/
abbrev PT_FL_OOR_RHO : Nat := 0x4412
/-- PID of PT_FL_OOR_H (chapter 08). -/
abbrev PT_FL_OOR_H : Nat := 0x4413
/-- PID of PT_FL_OOR_H_RET (chapter 08). -/
abbrev PT_FL_OOR_H_RET : Nat := 0x4414
/-- PID of PT_AIR_BASE_T (chapter 08). -/
abbrev PT_AIR_BASE_T : Nat := 0x4415
/-- PID of PT_AIR_BASE_P (chapter 08). -/
abbrev PT_AIR_BASE_P : Nat := 0x4416
/-- PID of PT_WATER_REF_T (chapter 08). -/
abbrev PT_WATER_REF_T : Nat := 0x4417
/-- PID of PT_WATER_REF_P (chapter 08). -/
abbrev PT_WATER_REF_P : Nat := 0x4418
/-- PID of PT_HEAT_FLOW_SIDE (chapter 08). -/
abbrev PT_HEAT_FLOW_SIDE : Nat := 0x4419
/-- PID of PT_HEAT_DT_CUT (chapter 08). -/
abbrev PT_HEAT_DT_CUT : Nat := 0x441A
/-- PID of PT_FL_INPUT_0 to PT_FL_INPUT_7 (chapter 08). -/
abbrev PT_FL_INPUT_0 : Nat := 0x4420
/-- PID of PT_FL_LRV_0 to PT_FL_LRV_7 (chapter 08). -/
abbrev PT_FL_LRV_0 : Nat := 0x4428
/-- PID of PT_FL_URV_0 to PT_FL_URV_7 (chapter 08). -/
abbrev PT_FL_URV_0 : Nat := 0x4430
/-- PID of PT_FL_FIXED_0 to PT_FL_FIXED_7 (chapter 08). -/
abbrev PT_FL_FIXED_0 : Nat := 0x4438
/-- PID of PT_FL_SUBST_RULE_0 to PT_FL_SUBST_RULE_7 (chapter 08). -/
abbrev PT_FL_SUBST_RULE_0 : Nat := 0x4440
/-- PID of PT_FL_SUBST_VAL_0 to PT_FL_SUBST_VAL_7 (chapter 08). -/
abbrev PT_FL_SUBST_VAL_0 : Nat := 0x4448
/-- PID of PT_REC_IDLE_PERIODS (chapter 10). -/
abbrev PT_REC_IDLE_PERIODS : Nat := 0x4500
/-- PID of PT_REG_DECADE (chapter 10). -/
abbrev PT_REG_DECADE : Nat := 0x4501
/-- PID of PT_OUT_CONTACTOR (chapter 12). -/
abbrev PT_OUT_CONTACTOR : Nat := 0x4600
/-- PID of PT_OUT_MAX_CURRENT (chapter 12). -/
abbrev PT_OUT_MAX_CURRENT : Nat := 0x4601
/-- PID of PT_OUT_PP_MODE (chapter 12). -/
abbrev PT_OUT_PP_MODE : Nat := 0x4602
/-- PID of PT_OUT_CABLE_A (chapter 12). -/
abbrev PT_OUT_CABLE_A : Nat := 0x4603
/-- PID of PT_OUT_HLC (chapter 12). -/
abbrev PT_OUT_HLC : Nat := 0x4604
/-- PID of PT_OUT_PROTOCOLS (chapter 12). -/
abbrev PT_OUT_PROTOCOLS : Nat := 0x4605
/-- PID of PT_OUT_BPT (chapter 12). -/
abbrev PT_OUT_BPT : Nat := 0x4606
/-- PID of PT_OUT_VENT (chapter 12). -/
abbrev PT_OUT_VENT : Nat := 0x4607
/-- PID of PT_CP_STABLE (chapter 12). -/
abbrev PT_CP_STABLE : Nat := 0x4608
/-- PID of PT_PLC_LOSS (chapter 12). -/
abbrev PT_PLC_LOSS : Nat := 0x4609
/-- PID of PT_SLAC_ATTEN_MAX (chapter 12). -/
abbrev PT_SLAC_ATTEN_MAX : Nat := 0x460A
/-- PID of PT_SLAC_MARGIN (chapter 12). -/
abbrev PT_SLAC_MARGIN : Nat := 0x460B
/-- PID of PT_RCD_SENS (chapter 12). -/
abbrev PT_RCD_SENS : Nat := 0x460C
/-- PID of PT_RCD_ENABLE (chapter 12). -/
abbrev PT_RCD_ENABLE : Nat := 0x460D
/-- PID of PT_RCD_DC_MA_0 to PT_RCD_DC_MA_2 (chapter 12). -/
abbrev PT_RCD_DC_MA_0 : Nat := 0x4610
/-- PID of PT_RCD_DC_HOLD_0 to PT_RCD_DC_HOLD_2 (chapter 12). -/
abbrev PT_RCD_DC_HOLD_0 : Nat := 0x4613
/-- PID of PT_RCD_AC_MA_0 to PT_RCD_AC_MA_2 (chapter 12). -/
abbrev PT_RCD_AC_MA_0 : Nat := 0x4616
/-- PID of PT_RCD_AC_HOLD_0 to PT_RCD_AC_HOLD_2 (chapter 12). -/
abbrev PT_RCD_AC_HOLD_0 : Nat := 0x4619
/-- PID of PT_WELD_THRESH (chapter 12). -/
abbrev PT_WELD_THRESH : Nat := 0x461C
/-- PID of PT_WELD_DELAY (chapter 12). -/
abbrev PT_WELD_DELAY : Nat := 0x461D
/-- PID of PT_WELD_MIRROR (chapter 12). -/
abbrev PT_WELD_MIRROR : Nat := 0x461E
/-- PID of PT_WELD_BACKUP (chapter 12). -/
abbrev PT_WELD_BACKUP : Nat := 0x461F
/-- PID of PT_SW_LIMIT_0, PT_SW_LIMIT_1 (chapter 14). -/
abbrev PT_SW_LIMIT_0 : Nat := 0x4700
/-- PID of PT_SW_SLEW_0, PT_SW_SLEW_1 (chapter 14). -/
abbrev PT_SW_SLEW_0 : Nat := 0x4702
/-- PID of PT_SW_OVL_TIME_0, PT_SW_OVL_TIME_1 (chapter 14). -/
abbrev PT_SW_OVL_TIME_0 : Nat := 0x4704
/-- PID of PT_SW_RETRIES_0, PT_SW_RETRIES_1 (chapter 14). -/
abbrev PT_SW_RETRIES_0 : Nat := 0x4706
/-- PID of PT_SW_RETRY_DELAY_0, PT_SW_RETRY_DELAY_1 (chapter 14). -/
abbrev PT_SW_RETRY_DELAY_0 : Nat := 0x4708
/-- PID of PT_SW_OL_ENABLE (chapter 14). -/
abbrev PT_SW_OL_ENABLE : Nat := 0x470A
/-- PID of PT_SW_RIDE (chapter 14). -/
abbrev PT_SW_RIDE : Nat := 0x470B
/-- PID of PT_SI_MODE_0, PT_SI_MODE_1 (chapter 15). -/
abbrev PT_SI_MODE_0 : Nat := 0x4800
/-- PID of PT_SI_FILTER_0, PT_SI_FILTER_1 (chapter 15). -/
abbrev PT_SI_FILTER_0 : Nat := 0x4802
/-- PID of PT_SI_TD_0, PT_SI_TD_1 (chapter 15). -/
abbrev PT_SI_TD_0 : Nat := 0x4804
/-- PID of PT_SI_ACT_0, PT_SI_ACT_1 (chapter 15). -/
abbrev PT_SI_ACT_0 : Nat := 0x4806
/-- PID of PT_SI_RESTART_0, PT_SI_RESTART_1 (chapter 15). -/
abbrev PT_SI_RESTART_0 : Nat := 0x4808
/-- PID of PT_SAFE_REMOTE_SW (chapter 15). -/
abbrev PT_SAFE_REMOTE_SW : Nat := 0x480A
/-- PID of PT_SI_SITE_STOP (chapter 15). -/
abbrev PT_SI_SITE_STOP : Nat := 0x480B
/-- PID of PT_KEY_SEAL0_BIND (chapter 18). -/
abbrev PT_KEY_SEAL0_BIND : Nat := 0x4900
/-- PID of PT_KEY_TLS_BIND (chapter 18). -/
abbrev PT_KEY_TLS_BIND : Nat := 0x4901
/-- PID of PT_DISP_REGS (chapter 11). -/
abbrev PT_DISP_REGS : Nat := 0x4A00
/-- PID of PT_DISP_DP (chapter 11). -/
abbrev PT_DISP_DP : Nat := 0x4A01
/-- PID of PT_BAL_GROUP (chapter 17). -/
abbrev PT_BAL_GROUP : Nat := 0x4B00
/-- PID of PT_BAL_SIGN (chapter 17). -/
abbrev PT_BAL_SIGN : Nat := 0x4B01
/-- PID of PT_MPO_ENABLE (chapter 06). -/
abbrev PT_MPO_ENABLE : Nat := 0x4C00
/-- PID of PT_MPO_SOURCE (chapter 06). -/
abbrev PT_MPO_SOURCE : Nat := 0x4C01
/-- PID of PT_MPO_CONST (chapter 06). -/
abbrev PT_MPO_CONST : Nat := 0x4C02
/-- PID of PT_MPO_WIDTH (chapter 06). -/
abbrev PT_MPO_WIDTH : Nat := 0x4C03
/-- PID of PT_MPO_POLARITY (chapter 06). -/
abbrev PT_MPO_POLARITY : Nat := 0x4C04
/-- PID of PT_PLS_MODE (chapter 08). -/
abbrev PT_PLS_MODE : Nat := 0x4D00
/-- PID of PT_PLS_FILTER (chapter 08). -/
abbrev PT_PLS_FILTER : Nat := 0x4D01
/-- PID of PT_PLS_KFACTOR (chapter 08). -/
abbrev PT_PLS_KFACTOR : Nat := 0x4D02
/-- PID of PT_PLS_MIN_FREQ (chapter 08). -/
abbrev PT_PLS_MIN_FREQ : Nat := 0x4D03
/-- PID of PT_PLS_ERR_LIMIT (chapter 08). -/
abbrev PT_PLS_ERR_LIMIT : Nat := 0x4D04
/-- PID of PT_PLS_LIN_N (chapter 08). -/
abbrev PT_PLS_LIN_N : Nat := 0x4D05
/-- PID of PT_PLS_LIN_F_0 to PT_PLS_LIN_F_7 (chapter 08). -/
abbrev PT_PLS_LIN_F_0 : Nat := 0x4D08
/-- PID of PT_PLS_LIN_MF_0 to PT_PLS_LIN_MF_7 (chapter 08). -/
abbrev PT_PLS_LIN_MF_0 : Nat := 0x4D10
/-- PID of ND_NODE_ID (chapter 20). -/
abbrev ND_NODE_ID : Nat := 0x5000
/-- PID of ND_LIFECYCLE (chapter 20). -/
abbrev ND_LIFECYCLE : Nat := 0x5001
/-- PID of ND_SITE_ID (chapter 20). -/
abbrev ND_SITE_ID : Nat := 0x5002
/-- PID of ND_ASSET_0 to ND_ASSET_3 (chapter 20). -/
abbrev ND_ASSET_0 : Nat := 0x5003
/-- PID of ND_MODE (chapter 02). -/
abbrev ND_MODE : Nat := 0x5100
/-- PID of ND_PERIOD_LEN (chapter 02). -/
abbrev ND_PERIOD_LEN : Nat := 0x5101
/-- PID of ND_INCOMPLETE_MIN (chapter 02). -/
abbrev ND_INCOMPLETE_MIN : Nat := 0x5102
/-- PID of ND_PTP_PROFILE (chapter 03). -/
abbrev ND_PTP_PROFILE : Nat := 0x5200
/-- PID of ND_PTP_DOMAIN (chapter 03). -/
abbrev ND_PTP_DOMAIN : Nat := 0x5201
/-- PID of ND_PTP_TRANSPORT (chapter 03). -/
abbrev ND_PTP_TRANSPORT : Nat := 0x5202
/-- PID of ND_PTP_DELAY (chapter 03). -/
abbrev ND_PTP_DELAY : Nat := 0x5203
/-- PID of ND_PTP_STEP (chapter 03). -/
abbrev ND_PTP_STEP : Nat := 0x5204
/-- PID of ND_PTP_ROLE (chapter 03). -/
abbrev ND_PTP_ROLE : Nat := 0x5205
/-- PID of ND_PTP_PRIO1 (chapter 03). -/
abbrev ND_PTP_PRIO1 : Nat := 0x5206
/-- PID of ND_PTP_PRIO2 (chapter 03). -/
abbrev ND_PTP_PRIO2 : Nat := 0x5207
/-- PID of ND_PTP_LOG_ANNOUNCE (chapter 03). -/
abbrev ND_PTP_LOG_ANNOUNCE : Nat := 0x5208
/-- PID of ND_PTP_LOG_SYNC (chapter 03). -/
abbrev ND_PTP_LOG_SYNC : Nat := 0x5209
/-- PID of ND_PTP_LOG_PDELAY (chapter 03). -/
abbrev ND_PTP_LOG_PDELAY : Nat := 0x520A
/-- PID of ND_PTP_ANNOUNCE_TIMEOUT (chapter 03). -/
abbrev ND_PTP_ANNOUNCE_TIMEOUT : Nat := 0x520B
/-- PID of ND_PTP_PORTS (chapter 03). -/
abbrev ND_PTP_PORTS : Nat := 0x520C
/-- PID of ND_PTP_ASYM_LKA (chapter 03). -/
abbrev ND_PTP_ASYM_LKA : Nat := 0x520D
/-- PID of ND_PTP_ASYM_LKB (chapter 03). -/
abbrev ND_PTP_ASYM_LKB : Nat := 0x520E
/-- PID of ND_PTP_ASYM_HETH (chapter 03). -/
abbrev ND_PTP_ASYM_HETH : Nat := 0x520F
/-- PID of ND_JUMP_THRESH (chapter 03). -/
abbrev ND_JUMP_THRESH : Nat := 0x5210
/-- PID of ND_LOCK_THRESH (chapter 03). -/
abbrev ND_LOCK_THRESH : Nat := 0x5211
/-- PID of ND_HOLDOVER_MAX_ERR (chapter 03). -/
abbrev ND_HOLDOVER_MAX_ERR : Nat := 0x5212
/-- PID of ND_MAINS_MAX_ERR (chapter 03). -/
abbrev ND_MAINS_MAX_ERR : Nat := 0x5213
/-- PID of ND_OSC_DRIFT (chapter 03). -/
abbrev ND_OSC_DRIFT : Nat := 0x5214
/-- PID of ND_ZC_CHANNEL (chapter 03). -/
abbrev ND_ZC_CHANNEL : Nat := 0x5215
/-- PID of ND_TIME_SOURCES (chapter 03). -/
abbrev ND_TIME_SOURCES : Nat := 0x5216
/-- PID of ND_UTC_OFFSET (chapter 03). -/
abbrev ND_UTC_OFFSET : Nat := 0x5217
/-- PID of ND_RING_LKA_ROLE (chapter 17). -/
abbrev ND_RING_LKA_ROLE : Nat := 0x5300
/-- PID of ND_RING_LKB_ROLE (chapter 17). -/
abbrev ND_RING_LKB_ROLE : Nat := 0x5301
/-- PID of ND_BAL_ROOT (chapter 17). -/
abbrev ND_BAL_ROOT : Nat := 0x5302
/-- PID of ND_ALIGN_BUDGET (chapter 17). -/
abbrev ND_ALIGN_BUDGET : Nat := 0x5303
/-- PID of ND_BAL_RUN (chapter 17). -/
abbrev ND_BAL_RUN : Nat := 0x5304
/-- PID of ND_BAL_RETRY (chapter 17). -/
abbrev ND_BAL_RETRY : Nat := 0x5305
/-- PID of ND_DISC_PERIOD (chapter 17). -/
abbrev ND_DISC_PERIOD : Nat := 0x5306
/-- PID of ND_BAL_KIND_0 to ND_BAL_KIND_63 (chapter 17). -/
abbrev ND_BAL_KIND_0 : Nat := 0x5340
/-- PID of ND_BAL_TOL_ABS_0 to ND_BAL_TOL_ABS_63 (chapter 17). -/
abbrev ND_BAL_TOL_ABS_0 : Nat := 0x5380
/-- PID of ND_BAL_TOL_PPM_0 to ND_BAL_TOL_PPM_63 (chapter 17). -/
abbrev ND_BAL_TOL_PPM_0 : Nat := 0x53C0
/-- PID of ND_HETH_IPV4 (chapter 19). -/
abbrev ND_HETH_IPV4 : Nat := 0x5400
/-- PID of ND_HETH_NETMASK (chapter 19). -/
abbrev ND_HETH_NETMASK : Nat := 0x5401
/-- PID of ND_HETH_GATEWAY (chapter 19). -/
abbrev ND_HETH_GATEWAY : Nat := 0x5402
/-- PID of ND_HOST_UDP_PORT (chapter 19). -/
abbrev ND_HOST_UDP_PORT : Nat := 0x5403
/-- PID of ND_HOST_PEER (chapter 19). -/
abbrev ND_HOST_PEER : Nat := 0x5404
/-- PID of ND_HOST_WD_TIMEOUT (chapter 19). -/
abbrev ND_HOST_WD_TIMEOUT : Nat := 0x5405
/-- PID of ND_STREAM_TAIL_0 to ND_STREAM_TAIL_3 (chapter 19). -/
abbrev ND_STREAM_TAIL_0 : Nat := 0x5406
/-- PID of ND_KEY_SEAL0_BIND (chapter 18). -/
abbrev ND_KEY_SEAL0_BIND : Nat := 0x5500
/-- PID of ND_KEY_REGEN_ATTEMPTS (chapter 18). -/
abbrev ND_KEY_REGEN_ATTEMPTS : Nat := 0x5501
/-- PID of ND_FW_SERVICE_METHOD (chapter 21). -/
abbrev ND_FW_SERVICE_METHOD : Nat := 0x5600
/-- PID of ND_FW_CONFIRM_TIMEOUT (chapter 21). -/
abbrev ND_FW_CONFIRM_TIMEOUT : Nat := 0x5601
/-- PID of ND_FW_SVC_WD (chapter 21). -/
abbrev ND_FW_SVC_WD : Nat := 0x5602
/-- PID of ND_SITE_STOP_POINTS (chapter 15). -/
abbrev ND_SITE_STOP_POINTS : Nat := 0x5700
/-- PID of ND_SC_CONF_0 to ND_SC_CONF_15 (chapter 15). -/
abbrev ND_SC_CONF_0 : Nat := 0x5710
/-- PID of ND_SC_TIME_0 to ND_SC_TIME_15 (chapter 15). -/
abbrev ND_SC_TIME_0 : Nat := 0x5720
/-- PID of ND_SC_POINTS_0 to ND_SC_POINTS_15 (chapter 15). -/
abbrev ND_SC_POINTS_0 : Nat := 0x5730
/-- PID of ND_SC_SOURCES_0 to ND_SC_SOURCES_15 (chapter 15). -/
abbrev ND_SC_SOURCES_0 : Nat := 0x5740
/-- PID of ND_DISP_ENABLE (chapter 11). -/
abbrev ND_DISP_ENABLE : Nat := 0x5800
/-- PID of ND_DISP_DWELL (chapter 11). -/
abbrev ND_DISP_DWELL : Nat := 0x5801
/-- PID of ND_DISP_REFRESH (chapter 11). -/
abbrev ND_DISP_REFRESH : Nat := 0x5802
/-- PID of ND_DISP_TEMP_SRC (chapter 11). -/
abbrev ND_DISP_TEMP_SRC : Nat := 0x5803
/-- PID of ND_DISP_TEMP_OFFSET (chapter 11). -/
abbrev ND_DISP_TEMP_OFFSET : Nat := 0x5804
/-- PID of ND_DISP_FLEN (chapter 11). -/
abbrev ND_DISP_FLEN : Nat := 0x5805
/-- PID of ND_DISP_DONE_ALL (chapter 11). -/
abbrev ND_DISP_DONE_ALL : Nat := 0x5806
/-- PID of ND_PLC_MAINS (chapter 13). -/
abbrev ND_PLC_MAINS : Nat := 0x5900
/-- PID of ND_PLC_BLANK_DB (chapter 13). -/
abbrev ND_PLC_BLANK_DB : Nat := 0x5901
/-- PID of ND_PLC_BLANK_ENABLE (chapter 13). -/
abbrev ND_PLC_BLANK_ENABLE : Nat := 0x5902
/-- PID of ND_PLC_FC_ALT (chapter 13). -/
abbrev ND_PLC_FC_ALT : Nat := 0x5903
/-- PID of ND_PLC_TX_ATTEN_OUT (chapter 13). -/
abbrev ND_PLC_TX_ATTEN_OUT : Nat := 0x5904
/-- PID of ND_PLC_TX_ATTEN_MAINS (chapter 13). -/
abbrev ND_PLC_TX_ATTEN_MAINS : Nat := 0x5905
/-- PID of ND_PLC_LINK_TIMEOUT (chapter 13). -/
abbrev ND_PLC_LINK_TIMEOUT : Nat := 0x5906
/-- PID of ND_PLC_RAW_MODE (chapter 13). -/
abbrev ND_PLC_RAW_MODE : Nat := 0x5907
/-- PID of ND_PLC_RAW_PORTS (chapter 13). -/
abbrev ND_PLC_RAW_PORTS : Nat := 0x5908
/-- PID of ND_PLC_RAW_TRIGGER (chapter 13). -/
abbrev ND_PLC_RAW_TRIGGER : Nat := 0x5909
/-- PID of ND_SAR_LOWPOWER (chapter 16). -/
abbrev ND_SAR_LOWPOWER : Nat := 0x5A00
/-- PID of ND_SAR_SELFTEST_PERIOD (chapter 16). -/
abbrev ND_SAR_SELFTEST_PERIOD : Nat := 0x5A01
/-- PID of ND_SAR_SELFTEST_TOL (chapter 16). -/
abbrev ND_SAR_SELFTEST_TOL : Nat := 0x5A02
/-- PID of ND_SAR_TIMER_0 to ND_SAR_TIMER_7 (chapter 16). -/
abbrev ND_SAR_TIMER_0 : Nat := 0x5A08
/-- PID of ND_SAR_ENTRY (chapter 16). -/
abbrev ND_SAR_ENTRY : Nat := 0x5A40
/-- PID of ND_VSW_WARN (chapter 22). -/
abbrev ND_VSW_WARN : Nat := 0x5B00
/-- PID of ND_TDIE_WARN (chapter 22). -/
abbrev ND_TDIE_WARN : Nat := 0x5B01
/-- PID of ND_SUPPLY_MON_MASK (chapter 22). -/
abbrev ND_SUPPLY_MON_MASK : Nat := 0x5B02
/-- PID of ND_HOLDUP_SOURCES (chapter 10). -/
abbrev ND_HOLDUP_SOURCES : Nat := 0x5B20
/-- PID of ND_PFW_FILTER (chapter 10). -/
abbrev ND_PFW_FILTER : Nat := 0x5B21
/-- PID of ND_HOLDUP_RESUME (chapter 10). -/
abbrev ND_HOLDUP_RESUME : Nat := 0x5B22
/-- PID of ND_TEST_TIMEOUT (chapter 23). -/
abbrev ND_TEST_TIMEOUT : Nat := 0x5C00
/-- PID of ND_TEST_ALLOW (chapter 23). -/
abbrev ND_TEST_ALLOW : Nat := 0x5C01
/-- PID of ND_WD_WINDOW (chapter 14). -/
abbrev ND_WD_WINDOW : Nat := 0x5D00
/-- PID of ND_SW_FAILSAFE (chapter 14). -/
abbrev ND_SW_FAILSAFE : Nat := 0x5D01
/-- PID of ND_REF_MON_TOL (chapter 04). -/
abbrev ND_REF_MON_TOL : Nat := 0x5E00
/-- PID of ND_EXC_LEVELS (chapter 04). -/
abbrev ND_EXC_LEVELS : Nat := 0x5E01
/-- PID of ND_DIAG_LEVEL (chapter 04). -/
abbrev ND_DIAG_LEVEL : Nat := 0x5E02
/-- PID of ND_DIAG_REPEAT (chapter 04). -/
abbrev ND_DIAG_REPEAT : Nat := 0x5E03

/-- The rows of family 3/0 (Table 20.3). -/
def paramRows30 : List ParamRow :=
  [⟨0x3000, 0x3000, 0, 0, 0, 85, [], 0, .nextPointInterval, 1, true⟩,
   ⟨0x3001, 0x3001, 8, 0, 0, 1, [], 0, .nextPointInterval, 0, false⟩,
   ⟨0x3002, 0x3002, 9, 0, 0, 2, [], 0, .nextPointInterval, 1, true⟩,
   ⟨0x3003, 0x3003, 1, 0, 5, 500, [], 25, .nextPointInterval, 1, true⟩]

/-- The rows of family 3/1 (Table 20.3). -/
def paramRows31 : List ParamRow :=
  [⟨0x3100, 0x3100, 9, 0, 0, 2, [], 0, .nextPointInterval, 1, true⟩,
   ⟨0x3101, 0x3101, 8, 0, 0, 1, [], 0, .nextPointInterval, 1, true⟩,
   ⟨0x3102, 0x3102, 9, 0, 0, 3, [], 1, .nextPointInterval, 1, true⟩,
   ⟨0x3103, 0x3103, 9, 0, 0, 2, [], 0, .nextFrame, 1, true⟩,
   ⟨0x3104, 0x3104, 9, 0, 0, 2, [], 0, .nextPointInterval, 1, true⟩]

/-- The rows of family 3/2 (Table 20.3). -/
def paramRows32 : List ParamRow :=
  [⟨0x3200, 0x3205, 11, 30, 966367642, 1181116006, [], 1073741824, .nextPointInterval, 1, true⟩,
   ⟨0x3206, 0x320B, 12, 31, (-21474836), 21474836, [], 0, .nextPointInterval, 1, true⟩,
   ⟨0x320C, 0x320C, 0, 0, 0, 255, [], 0, .nextPointInterval, 1, true⟩,
   ⟨0x320D, 0x320D, 5, 0, (-4096), 4096, [], 0, .nextPointInterval, 1, true⟩]

/-- The rows of family 3/3 (Table 20.3). -/
def paramRows33 : List ParamRow :=
  [⟨0x3300, 0x3300, 6, 0, (-1000000), 1000000, [], (-1000000), .nextPointInterval, 0, false⟩,
   ⟨0x3301, 0x3301, 6, 0, (-1000000), 1000000, [], 1000000, .nextPointInterval, 0, false⟩,
   ⟨0x3302, 0x3302, 1, 0, 1, 4000, [], 40, .nextPointInterval, 0, false⟩,
   ⟨0x3303, 0x3303, 1, 0, 0, 3600, [], 1, .immediate, 0, false⟩]

/-- The rows of family 4/0 (Table 20.3). -/
def paramRows40 : List ParamRow :=
  [⟨0x4000, 0x4000, 9, 0, 0, 7, [], 0, .nextPointInterval, 1, true⟩,
   ⟨0x4001, 0x4001, 9, 0, 0, 1, [], 0, .nextPointInterval, 0, false⟩,
   ⟨0x4002, 0x4002, 10, 0, 0, 255, [], 0, .nextPointInterval, 1, true⟩,
   ⟨0x4003, 0x4003, 10, 0, 0, 3, [], 0, .nextPointInterval, 2, true⟩,
   ⟨0x4004, 0x4004, 9, 0, 0, 1, [], 0, .nextPointInterval, 1, true⟩]

/-- The rows of family 4/1 (Table 20.3). -/
def paramRows41 : List ParamRow :=
  [⟨0x4100, 0x4100, 9, 0, 0, 2, [], 0, .nextSession, 0, false⟩,
   ⟨0x4101, 0x4101, 1, 0, 1, 3600, [], 120, .immediate, 0, false⟩,
   ⟨0x4102, 0x4102, 1, 0, 1, 3600, [], 600, .immediate, 0, false⟩,
   ⟨0x4103, 0x4103, 1, 0, 0, 10000, [], 0, .nextSession, 0, false⟩,
   ⟨0x4104, 0x4104, 1, 0, 100, 60000, [], 0, .nextSession, 0, false⟩,
   ⟨0x4105, 0x4105, 2, 0, 0, 4000000000, [], 0, .nextSession, 0, false⟩,
   ⟨0x4106, 0x4106, 8, 0, 0, 1, [], 0, .immediate, 0, false⟩,
   ⟨0x4107, 0x4107, 8, 0, 0, 1, [], 0, .immediate, 0, false⟩,
   ⟨0x4108, 0x4108, 1, 0, 0, 999, [], 0, .nextSession, 0, false⟩,
   ⟨0x4109, 0x4109, 9, 0, 0, 1, [], 0, .nextPointInterval, 1, true⟩,
   ⟨0x410A, 0x410A, 0, 0, 0, 7, [], 0, .nextPointInterval, 1, true⟩,
   ⟨0x410B, 0x410B, 5, 0, (-840), 840, [], 0, .nextPointInterval, 1, true⟩,
   ⟨0x4110, 0x4117, 2, 0, 0, 4294967295, [], 0, .nextSession, 0, false⟩,
   ⟨0x4120, 0x4137, 2, 0, 0, 4294967295, [], 0, .nextPointInterval, 1, true⟩]

/-- The rows of family 4/2 (Table 20.3). -/
def paramRows42 : List ParamRow :=
  [⟨0x4200, 0x4207, 11, 12, 5, 4096000000, [], 4096, .nextPointInterval, 1, true⟩,
   ⟨0x4208, 0x4208, 9, 0, 0, 3, [], 0, .nextPointInterval, 1, true⟩,
   ⟨0x4209, 0x4209, 9, 0, 0, 1, [], 0, .nextPointInterval, 1, true⟩,
   ⟨0x420A, 0x420A, 0, 0, 0, 7, [], 0, .nextPointInterval, 1, true⟩,
   ⟨0x420B, 0x420B, 8, 0, 0, 1, [], 0, .nextPointInterval, 1, true⟩,
   ⟨0x420C, 0x420C, 2, 0, 0, 100000, [], 0, .nextPointInterval, 1, true⟩]

/-- The rows of family 4/3 (Table 20.3). -/
def paramRows43 : List ParamRow :=
  [⟨0x4300, 0x4300, 8, 0, 0, 1, [], 1, .nextPointInterval, 0, false⟩,
   ⟨0x4301, 0x4301, 2, 0, 100, 100000000, [], 23000, .nextPointInterval, 0, false⟩,
   ⟨0x4302, 0x4302, 1, 0, 100, 990, [], 900, .nextPointInterval, 0, false⟩,
   ⟨0x4303, 0x4303, 1, 0, 1010, 2000, [], 1100, .nextPointInterval, 0, false⟩,
   ⟨0x4304, 0x4304, 1, 0, 10, 500, [], 50, .nextPointInterval, 0, false⟩,
   ⟨0x4305, 0x4305, 1, 0, 0, 100, [], 20, .nextPointInterval, 0, false⟩,
   ⟨0x4306, 0x4306, 9, 0, 0, 1, [], 0, .nextPointInterval, 0, false⟩,
   ⟨0x4307, 0x4307, 1, 0, 0, 10000, [], 800, .nextPointInterval, 0, false⟩,
   ⟨0x4308, 0x4308, 1, 0, 0, 10000, [], 0, .nextPointInterval, 0, false⟩,
   ⟨0x4309, 0x4309, 1, 0, 1, 3000, [], 15, .nextPointInterval, 0, false⟩,
   ⟨0x430A, 0x430A, 2, 0, 0, 4000000000, [], 0, .nextPointInterval, 0, false⟩,
   ⟨0x430B, 0x430B, 2, 0, 0, 4000000000, [], 0, .nextPointInterval, 0, false⟩,
   ⟨0x430C, 0x430C, 1, 0, 1, 3000, [], 5, .nextPointInterval, 0, false⟩,
   ⟨0x430D, 0x430D, 10, 0, 0, 31, [], 0, .immediate, 0, false⟩,
   ⟨0x430E, 0x430E, 10, 0, 0, 255, [], 255, .immediate, 0, false⟩,
   ⟨0x430F, 0x430F, 0, 0, 0, 64, [], 16, .immediate, 0, false⟩,
   ⟨0x4310, 0x4310, 1, 0, 1, 1024, [], 400, .immediate, 0, false⟩,
   ⟨0x4311, 0x434E, 1, 0, 0, 10000, [], 0, .nextPointInterval, 0, false⟩]

/-- The rows of family 4/4 (Table 20.3). -/
def paramRows44 : List ParamRow :=
  [⟨0x4400, 0x4400, 9, 0, 0, 2, [], 0, .nextPointInterval, 1, true⟩,
   ⟨0x4401, 0x4401, 8, 0, 0, 1, [], 0, .nextPointInterval, 1, true⟩,
   ⟨0x4402, 0x4402, 8, 0, 0, 1, [], 0, .nextPointInterval, 1, true⟩,
   ⟨0x4403, 0x4403, 1, 0, 0, 1000, [], 50, .nextPointInterval, 1, true⟩,
   ⟨0x4404, 0x4404, 8, 0, 0, 1, [], 0, .nextPointInterval, 0, false⟩,
   ⟨0x4405, 0x4405, 8, 0, 0, 1, [], 0, .nextPointInterval, 1, true⟩,
   ⟨0x4406, 0x4406, 2, 0, 50000, 110000, [], 101325, .nextPointInterval, 1, true⟩,
   ⟨0x4407, 0x4407, 9, 0, 0, 1, [], 0, .nextPointInterval, 1, true⟩,
   ⟨0x4408, 0x4408, 2, 0, 12500, 750000, [], 50000, .nextPointInterval, 1, true⟩,
   ⟨0x4409, 0x4409, 2, 0, 50000, 1000000, [], 100000, .nextPointInterval, 1, true⟩,
   ⟨0x440A, 0x440A, 9, 0, 0, 2, [], 2, .nextPointInterval, 1, true⟩,
   ⟨0x440B, 0x440B, 1, 0, 0, 3000, [], 1600, .nextPointInterval, 1, true⟩,
   ⟨0x440C, 0x440C, 1, 0, 0, 3000, [], 1200, .nextPointInterval, 1, true⟩,
   ⟨0x440D, 0x440D, 1, 0, 1000, 2000, [], 0, .nextPointInterval, 1, true⟩,
   ⟨0x440E, 0x440E, 2, 0, 100, 1000000, [], 0, .nextPointInterval, 1, true⟩,
   ⟨0x440F, 0x440F, 9, 0, 0, 1, [], 0, .nextPointInterval, 1, true⟩,
   ⟨0x4410, 0x4410, 1, 0, 0, 10000, [], 2000, .nextPointInterval, 1, true⟩,
   ⟨0x4411, 0x4411, 9, 0, 0, 1, [], 0, .nextPointInterval, 1, true⟩,
   ⟨0x4412, 0x4412, 2, 0, 1, 2000000, [], 1000, .nextPointInterval, 1, true⟩,
   ⟨0x4413, 0x4413, 2, 0, 0, 4000000, [], 0, .nextPointInterval, 1, true⟩,
   ⟨0x4414, 0x4414, 2, 0, 0, 4000000, [], 0, .nextPointInterval, 1, true⟩,
   ⟨0x4415, 0x4415, 6, 0, (-20000), 80000, [], 0, .nextPointInterval, 1, true⟩,
   ⟨0x4416, 0x4416, 2, 0, 1, 1600000, [], 101325, .nextPointInterval, 1, true⟩,
   ⟨0x4417, 0x4417, 6, 0, 0, 99000, [], 20000, .nextPointInterval, 1, true⟩,
   ⟨0x4418, 0x4418, 2, 0, 1000, 100000000, [], 101325, .nextPointInterval, 1, true⟩,
   ⟨0x4419, 0x4419, 9, 0, 0, 1, [], 1, .nextPointInterval, 1, true⟩,
   ⟨0x441A, 0x441A, 1, 0, 0, 5000, [], 200, .nextPointInterval, 1, true⟩,
   ⟨0x4420, 0x4427, 9, 0, 0, 3, [], 0, .nextPointInterval, 1, true⟩,
   ⟨0x4428, 0x442F, 6, 0, (-2147483648), 2147483647, [], 0, .nextPointInterval, 1, true⟩,
   ⟨0x4430, 0x4437, 6, 0, (-2147483648), 2147483647, [], 0, .nextPointInterval, 1, true⟩,
   ⟨0x4438, 0x443F, 6, 0, (-2147483648), 2147483647, [], 0, .nextPointInterval, 1, true⟩,
   ⟨0x4440, 0x4447, 9, 0, 0, 1, [], 0, .nextPointInterval, 1, true⟩,
   ⟨0x4448, 0x444F, 6, 0, (-2147483648), 2147483647, [], 0, .nextPointInterval, 1, true⟩]

/-- The rows of family 4/5 (Table 20.3). -/
def paramRows45 : List ParamRow :=
  [⟨0x4500, 0x4500, 9, 0, 0, 1, [], 0, .nextPointInterval, 1, true⟩,
   ⟨0x4501, 0x4501, 0, 0, 0, 12, [], 0, .nextPointInterval, 1, true⟩]

/-- The rows of family 4/6 (Table 20.3). -/
def paramRows46 : List ParamRow :=
  [⟨0x4600, 0x4600, 9, 0, 0, 1, [], 0, .nextPointInterval, 2, true⟩,
   ⟨0x4601, 0x4601, 1, 0, 60, 800, [], 160, .immediate, 0, false⟩,
   ⟨0x4602, 0x4602, 9, 0, 0, 1, [], 0, .nextSession, 2, true⟩,
   ⟨0x4603, 0x4603, 1, 0, 60, 800, [], 320, .nextSession, 2, true⟩,
   ⟨0x4604, 0x4604, 9, 0, 0, 1, [], 0, .nextSession, 0, false⟩,
   ⟨0x4605, 0x4605, 10, 0, 0, 7, [], 0, .nextSession, 0, false⟩,
   ⟨0x4606, 0x4606, 8, 0, 0, 1, [], 0, .nextSession, 0, false⟩,
   ⟨0x4607, 0x4607, 8, 0, 0, 1, [], 0, .nextSession, 2, true⟩,
   ⟨0x4608, 0x4608, 0, 0, 2, 50, [], 4, .nextPointInterval, 2, true⟩,
   ⟨0x4609, 0x4609, 1, 0, 100, 10000, [], 2000, .immediate, 0, false⟩,
   ⟨0x460A, 0x460A, 0, 0, 10, 70, [], 45, .immediate, 0, false⟩,
   ⟨0x460B, 0x460B, 0, 0, 0, 20, [], 6, .immediate, 0, false⟩,
   ⟨0x460C, 0x460C, 1, 0, 10, 5000, [], 400, .nextPointInterval, 2, true⟩,
   ⟨0x460D, 0x460D, 10, 0, 0, 63, [], 31, .nextPointInterval, 2, true⟩,
   ⟨0x4610, 0x4610, 2, 0, 100, 1000000, [], 5000, .nextPointInterval, 2, true⟩,
   ⟨0x4611, 0x4611, 2, 0, 100, 1000000, [], 45000, .nextPointInterval, 2, true⟩,
   ⟨0x4612, 0x4612, 2, 0, 100, 1000000, [], 150000, .nextPointInterval, 2, true⟩,
   ⟨0x4613, 0x4613, 2, 0, 0, 100000, [], 50000, .nextPointInterval, 2, true⟩,
   ⟨0x4614, 0x4614, 2, 0, 0, 100000, [], 5000, .nextPointInterval, 2, true⟩,
   ⟨0x4615, 0x4615, 2, 0, 0, 100000, [], 200, .nextPointInterval, 2, true⟩,
   ⟨0x4616, 0x4616, 2, 0, 100, 1000000, [], 25000, .nextPointInterval, 2, true⟩,
   ⟨0x4617, 0x4617, 2, 0, 100, 1000000, [], 110000, .nextPointInterval, 2, true⟩,
   ⟨0x4618, 0x4618, 2, 0, 100, 1000000, [], 250000, .nextPointInterval, 2, true⟩,
   ⟨0x4619, 0x4619, 2, 0, 0, 100000, [], 2000, .nextPointInterval, 2, true⟩,
   ⟨0x461A, 0x461A, 2, 0, 0, 100000, [], 100, .nextPointInterval, 2, true⟩,
   ⟨0x461B, 0x461B, 2, 0, 0, 100000, [], 0, .nextPointInterval, 2, true⟩,
   ⟨0x461C, 0x461C, 1, 0, 100, 2000, [], 500, .nextPointInterval, 2, true⟩,
   ⟨0x461D, 0x461D, 1, 0, 20, 2000, [], 100, .nextPointInterval, 2, true⟩,
   ⟨0x461E, 0x461E, 8, 0, 0, 1, [], 0, .nextPointInterval, 2, true⟩,
   ⟨0x461F, 0x461F, 8, 0, 0, 1, [], 0, .nextPointInterval, 2, true⟩]

/-- The rows of family 4/7 (Table 20.3). -/
def paramRows47 : List ParamRow :=
  [⟨0x4700, 0x4701, 9, 0, 0, 2, [], 1, .nextFrame, 2, true⟩,
   ⟨0x4702, 0x4703, 9, 0, 0, 2, [], 1, .nextFrame, 0, false⟩,
   ⟨0x4704, 0x4705, 1, 0, 1, 1000, [], 50, .nextFrame, 2, true⟩,
   ⟨0x4706, 0x4707, 0, 0, 0, 15, [], 3, .nextFrame, 2, true⟩,
   ⟨0x4708, 0x4709, 1, 0, 10, 1000, [], 100, .nextFrame, 2, true⟩,
   ⟨0x470A, 0x470A, 10, 0, 0, 3, [], 0, .nextFrame, 0, false⟩,
   ⟨0x470B, 0x470B, 10, 0, 0, 3, [], 0, .nextFrame, 2, true⟩]

/-- The rows of family 4/8 (Table 20.3). -/
def paramRows48 : List ParamRow :=
  [⟨0x4800, 0x4801, 9, 0, 0, 2, [], 0, .nextPointInterval, 2, true⟩,
   ⟨0x4802, 0x4803, 0, 0, 2, 50, [], 10, .nextPointInterval, 2, true⟩,
   ⟨0x4804, 0x4805, 1, 0, 1, 1000, [], 100, .nextPointInterval, 2, true⟩,
   ⟨0x4806, 0x4807, 10, 0, 0, 3, [], 3, .nextPointInterval, 2, true⟩,
   ⟨0x4808, 0x4809, 9, 0, 0, 1, [], 0, .nextPointInterval, 2, true⟩,
   ⟨0x480A, 0x480A, 10, 0, 0, 3, [], 3, .nextPointInterval, 2, true⟩,
   ⟨0x480B, 0x480B, 10, 0, 0, 3, [], 0, .nextPointInterval, 2, true⟩]

/-- The rows of family 4/9 (Table 20.3). -/
def paramRows49 : List ParamRow :=
  [⟨0x4900, 0x4900, 9, 0, 0, 2, [], 0, .immediate, 1, true⟩,
   ⟨0x4901, 0x4901, 8, 0, 0, 1, [], 0, .immediate, 1, true⟩]

/-- The rows of family 4/A (Table 20.3). -/
def paramRows4A : List ParamRow :=
  [⟨0x4A00, 0x4A00, 10, 0, 0, 4294967295, [], 1, .nextPointInterval, 1, true⟩,
   ⟨0x4A01, 0x4A01, 0, 0, 0, 8, [], 0, .nextPointInterval, 1, true⟩]

/-- The rows of family 4/B (Table 20.3). -/
def paramRows4B : List ParamRow :=
  [⟨0x4B00, 0x4B00, 0, 0, 0, 63, [255], 255, .nextPointInterval, 0, false⟩,
   ⟨0x4B01, 0x4B01, 9, 0, 0, 1, [], 0, .nextPointInterval, 0, false⟩]

/-- The rows of family 4/C (Table 20.3). -/
def paramRows4C : List ParamRow :=
  [⟨0x4C00, 0x4C00, 8, 0, 0, 1, [], 0, .nextPointInterval, 0, false⟩,
   ⟨0x4C01, 0x4C01, 9, 0, 0, 5, [], 0, .nextPointInterval, 1, true⟩,
   ⟨0x4C02, 0x4C02, 2, 0, 1, 100000, [], 1000, .nextPointInterval, 1, true⟩,
   ⟨0x4C03, 0x4C03, 0, 0, 2, 100, [], 10, .nextPointInterval, 0, false⟩,
   ⟨0x4C04, 0x4C04, 8, 0, 0, 1, [], 0, .nextPointInterval, 0, false⟩]

/-- The rows of family 4/D (Table 20.3). -/
def paramRows4D : List ParamRow :=
  [⟨0x4D00, 0x4D00, 9, 0, 0, 3, [], 0, .nextPointInterval, 1, true⟩,
   ⟨0x4D01, 0x4D01, 0, 0, 0, 200, [], 20, .nextPointInterval, 1, true⟩,
   ⟨0x4D02, 0x4D02, 2, 0, 1, 4000000000, [], 1000000, .nextPointInterval, 1, true⟩,
   ⟨0x4D03, 0x4D03, 1, 0, 0, 10000, [], 0, .nextPointInterval, 1, true⟩,
   ⟨0x4D04, 0x4D04, 1, 0, 1, 1000, [], 4, .nextPointInterval, 1, true⟩,
   ⟨0x4D05, 0x4D05, 0, 0, 0, 8, [], 0, .nextPointInterval, 1, true⟩,
   ⟨0x4D08, 0x4D0F, 2, 0, 0, 80000000, [], 0, .nextPointInterval, 1, true⟩,
   ⟨0x4D10, 0x4D17, 11, 30, 966367642, 1181116006, [], 1073741824, .nextPointInterval, 1, true⟩]

/-- The rows of family 5/0 (Table 20.3). -/
def paramRows50 : List ParamRow :=
  [⟨0x5000, 0x5000, 1, 0, 0, 4094, [], 0, .nextInterval, 1, true⟩,
   ⟨0x5001, 0x5001, 9, 0, 0, 1, [], 0, .immediate, 1, true⟩,
   ⟨0x5002, 0x5002, 2, 0, 0, 4294967295, [], 0, .immediate, 0, false⟩,
   ⟨0x5003, 0x5006, 2, 0, 0, 4294967295, [], 0, .immediate, 0, false⟩]

/-- The rows of family 5/1 (Table 20.3). -/
def paramRows51 : List ParamRow :=
  [⟨0x5100, 0x5100, 9, 0, 0, 3, [], 0, .nextInterval, 1, true⟩,
   ⟨0x5101, 0x5101, 9, 0, 0, 5, [], 3, .nextInterval, 1, true⟩,
   ⟨0x5102, 0x5102, 1, 0, 1, 4000, [], 1, .nextInterval, 0, false⟩]

/-- The rows of family 5/2 (Table 20.3). -/
def paramRows52 : List ParamRow :=
  [⟨0x5200, 0x5200, 9, 0, 0, 1, [], 0, .immediate, 0, false⟩,
   ⟨0x5201, 0x5201, 0, 0, 0, 127, [], 0, .immediate, 0, false⟩,
   ⟨0x5202, 0x5202, 9, 0, 0, 1, [], 0, .immediate, 0, false⟩,
   ⟨0x5203, 0x5203, 9, 0, 0, 1, [], 0, .immediate, 0, false⟩,
   ⟨0x5204, 0x5204, 9, 0, 0, 1, [], 1, .immediate, 0, false⟩,
   ⟨0x5205, 0x5205, 9, 0, 0, 2, [], 1, .immediate, 0, false⟩,
   ⟨0x5206, 0x5206, 0, 0, 0, 255, [], 128, .immediate, 0, false⟩,
   ⟨0x5207, 0x5207, 0, 0, 0, 255, [], 128, .immediate, 0, false⟩,
   ⟨0x5208, 0x5208, 4, 0, (-4), 4, [], (-4), .immediate, 0, false⟩,
   ⟨0x5209, 0x5209, 4, 0, (-7), 1, [], (-4), .immediate, 0, false⟩,
   ⟨0x520A, 0x520A, 4, 0, (-4), 4, [], 0, .immediate, 0, false⟩,
   ⟨0x520B, 0x520B, 0, 0, 2, 10, [], 3, .immediate, 0, false⟩,
   ⟨0x520C, 0x520C, 10, 0, 0, 7, [], 3, .immediate, 0, false⟩,
   ⟨0x520D, 0x520D, 6, 0, (-100000), 100000, [], 0, .immediate, 0, false⟩,
   ⟨0x520E, 0x520E, 6, 0, (-100000), 100000, [], 0, .immediate, 0, false⟩,
   ⟨0x520F, 0x520F, 6, 0, (-100000), 100000, [], 0, .immediate, 0, false⟩,
   ⟨0x5210, 0x5210, 2, 0, 100, 1000000000, [], 10000, .immediate, 1, true⟩,
   ⟨0x5211, 0x5211, 2, 0, 20, 10000, [], 100, .immediate, 0, false⟩,
   ⟨0x5212, 0x5212, 2, 0, 100, 1000000000, [], 500, .nextInterval, 0, false⟩,
   ⟨0x5213, 0x5213, 2, 0, 1000, 1000000, [], 10000, .nextInterval, 0, false⟩,
   ⟨0x5214, 0x5214, 1, 0, 1, 10000, [], 10, .immediate, 0, false⟩,
   ⟨0x5215, 0x5215, 0, 0, 0, 127, [255], 255, .nextInterval, 0, false⟩,
   ⟨0x5216, 0x5216, 10, 0, 0, 3, [], 3, .immediate, 0, false⟩,
   ⟨0x5217, 0x5217, 5, 0, 0, 100, [], 37, .immediate, 0, false⟩]

/-- The rows of family 5/3 (Table 20.3). -/
def paramRows53 : List ParamRow :=
  [⟨0x5300, 0x5300, 9, 0, 0, 2, [], 1, .immediate, 0, false⟩,
   ⟨0x5301, 0x5301, 9, 0, 0, 2, [], 1, .immediate, 0, false⟩,
   ⟨0x5302, 0x5302, 1, 0, 1, 4094, [0], 0, .immediate, 0, false⟩,
   ⟨0x5303, 0x5303, 2, 0, 100, 10000, [], 500, .nextInterval, 0, false⟩,
   ⟨0x5304, 0x5304, 0, 0, 1, 60, [], 3, .nextInterval, 0, false⟩,
   ⟨0x5305, 0x5305, 0, 0, 10, 90, [], 40, .nextInterval, 0, false⟩,
   ⟨0x5306, 0x5306, 1, 0, 10, 3600, [], 60, .immediate, 0, false⟩,
   ⟨0x5340, 0x537F, 9, 0, 0, 4, [], 0, .nextInterval, 0, false⟩,
   ⟨0x5380, 0x53BF, 2, 0, 0, 4294967295, [], 0, .nextInterval, 0, false⟩,
   ⟨0x53C0, 0x53FF, 2, 0, 0, 1000000, [], 10000, .nextInterval, 0, false⟩]

/-- The rows of family 5/4 (Table 20.3). -/
def paramRows54 : List ParamRow :=
  [⟨0x5400, 0x5400, 2, 0, 0, 4294967295, [], 3232235648, .immediate, 0, false⟩,
   ⟨0x5401, 0x5401, 2, 0, 4278190080, 4294967292, [], 4294967040, .immediate, 0, false⟩,
   ⟨0x5402, 0x5402, 2, 0, 0, 4294967295, [], 0, .immediate, 0, false⟩,
   ⟨0x5403, 0x5403, 1, 0, 1024, 65535, [], 40128, .immediate, 0, false⟩,
   ⟨0x5404, 0x5404, 2, 0, 0, 4294967295, [], 0, .immediate, 0, false⟩,
   ⟨0x5405, 0x5405, 1, 0, 100, 60000, [0], 0, .immediate, 0, false⟩,
   ⟨0x5406, 0x5409, 1, 0, 0, 65535, [], 1000, .immediate, 0, false⟩]

/-- The rows of family 5/5 (Table 20.3). -/
def paramRows55 : List ParamRow :=
  [⟨0x5500, 0x5500, 9, 0, 0, 2, [], 0, .immediate, 1, true⟩,
   ⟨0x5501, 0x5501, 0, 0, 1, 4, [], 4, .nextStart, 1, true⟩]

/-- The rows of family 5/6 (Table 20.3). -/
def paramRows56 : List ParamRow :=
  [⟨0x5600, 0x5600, 10, 0, 1, 3, [], 3, .immediate, 0, false⟩,
   ⟨0x5601, 0x5601, 2, 0, 60, 86400, [], 600, .immediate, 0, false⟩,
   ⟨0x5602, 0x5602, 1, 0, 200, 10000, [], 1000, .immediate, 0, false⟩]

/-- The rows of family 5/7 (Table 20.3). -/
def paramRows57 : List ParamRow :=
  [⟨0x5700, 0x5700, 10, 0, 0, 65535, [], 65535, .nextInterval, 2, true⟩,
   ⟨0x5710, 0x571F, 2, 0, 0, 4294967295, [], 0, .nextInterval, 2, true⟩,
   ⟨0x5720, 0x572F, 1, 0, 1, 1000, [], 100, .nextInterval, 2, true⟩,
   ⟨0x5730, 0x573F, 10, 0, 0, 65535, [], 0, .nextInterval, 2, true⟩,
   ⟨0x5740, 0x574F, 10, 0, 0, 4294967295, [], 0, .nextInterval, 2, true⟩]

/-- The rows of family 5/8 (Table 20.3). -/
def paramRows58 : List ParamRow :=
  [⟨0x5800, 0x5800, 8, 0, 0, 1, [], 0, .immediate, 1, true⟩,
   ⟨0x5801, 0x5801, 0, 0, 2, 60, [], 8, .immediate, 0, false⟩,
   ⟨0x5802, 0x5802, 0, 0, 1, 60, [], 5, .immediate, 0, false⟩,
   ⟨0x5803, 0x5803, 9, 0, 0, 1, [], 0, .immediate, 0, false⟩,
   ⟨0x5804, 0x5804, 5, 0, (-500), 500, [], 100, .immediate, 0, false⟩,
   ⟨0x5805, 0x5805, 9, 0, 0, 1, [], 1, .immediate, 0, false⟩,
   ⟨0x5806, 0x5806, 8, 0, 0, 1, [], 0, .immediate, 0, false⟩]

/-- The rows of family 5/9 (Table 20.3). -/
def paramRows59 : List ParamRow :=
  [⟨0x5900, 0x5900, 10, 0, 0, 3, [], 0, .immediate, 0, false⟩,
   ⟨0x5901, 0x5901, 0, 0, 0, 24, [], 12, .immediate, 0, false⟩,
   ⟨0x5902, 0x5902, 10, 0, 0, 262143, [], 262143, .immediate, 0, false⟩,
   ⟨0x5903, 0x5903, 8, 0, 0, 1, [], 1, .immediate, 0, false⟩,
   ⟨0x5904, 0x5904, 0, 0, 0, 30, [], 10, .immediate, 0, false⟩,
   ⟨0x5905, 0x5905, 0, 0, 0, 30, [], 0, .immediate, 0, false⟩,
   ⟨0x5906, 0x5906, 1, 0, 100, 5000, [], 500, .immediate, 0, false⟩,
   ⟨0x5907, 0x5907, 9, 0, 0, 2, [], 0, .immediate, 0, false⟩,
   ⟨0x5908, 0x5908, 10, 0, 0, 262143, [], 0, .immediate, 0, false⟩,
   ⟨0x5909, 0x5909, 9, 0, 0, 2, [], 0, .immediate, 0, false⟩]

/-- The rows of family 5/A (Table 20.3). -/
def paramRows5A : List ParamRow :=
  [⟨0x5A00, 0x5A00, 10, 0, 0, 15, [], 0, .nextInterval, 0, false⟩,
   ⟨0x5A01, 0x5A01, 1, 0, 10, 3600, [], 60, .immediate, 0, false⟩,
   ⟨0x5A02, 0x5A02, 0, 0, 2, 32, [], 8, .immediate, 0, false⟩,
   ⟨0x5A08, 0x5A0F, 2, 0, 1000, 100000000, [0], 0, .nextInterval, 0, false⟩,
   ⟨0x5A40, 0x5ABF, 3, 0, 0, 18446744073709551615, [], 33550336, .nextFrame, 0, false⟩]

/-- The rows of family 5/B (Table 20.3). -/
def paramRows5B : List ParamRow :=
  [⟨0x5B00, 0x5B00, 1, 0, 600, 3000, [], 1800, .immediate, 1, true⟩,
   ⟨0x5B01, 0x5B01, 5, 0, 700, 1250, [], 1150, .immediate, 0, false⟩,
   ⟨0x5B02, 0x5B02, 10, 0, 0, 15, [], 15, .nextInterval, 0, false⟩,
   ⟨0x5B20, 0x5B20, 10, 0, 0, 3, [], 3, .immediate, 1, true⟩,
   ⟨0x5B21, 0x5B21, 0, 0, 1, 100, [], 10, .immediate, 1, true⟩,
   ⟨0x5B22, 0x5B22, 1, 0, 10, 10000, [], 100, .immediate, 0, false⟩]

/-- The rows of family 5/C (Table 20.3). -/
def paramRows5C : List ParamRow :=
  [⟨0x5C00, 0x5C00, 1, 0, 60, 43200, [], 3600, .immediate, 0, true⟩,
   ⟨0x5C01, 0x5C01, 10, 0, 0, 255, [], 255, .immediate, 2, true⟩]

/-- The rows of family 5/D (Table 20.3). -/
def paramRows5D : List ParamRow :=
  [⟨0x5D00, 0x5D00, 0, 0, 1, 100, [], 20, .nextInterval, 2, true⟩,
   ⟨0x5D01, 0x5D01, 10, 0, 0, 4294967295, [], 0, .nextInterval, 2, true⟩]

/-- The rows of family 5/E (Table 20.3). -/
def paramRows5E : List ParamRow :=
  [⟨0x5E00, 0x5E00, 1, 0, 100, 10000, [], 2000, .nextInterval, 0, false⟩,
   ⟨0x5E01, 0x5E01, 10, 0, 0, 2863311530, [], 0, .nextInterval, 1, true⟩,
   ⟨0x5E02, 0x5E02, 0, 0, 25, 75, [], 50, .nextInterval, 1, true⟩,
   ⟨0x5E03, 0x5E03, 1, 0, 10, 3600, [], 60, .nextInterval, 0, false⟩]

/-- The rows of one family, by the high byte of the PID. -/
def familyRows (f : Nat) : List ParamRow :=
  if f = 0x30 then paramRows30
  else if f = 0x31 then paramRows31
  else if f = 0x32 then paramRows32
  else if f = 0x33 then paramRows33
  else if f = 0x40 then paramRows40
  else if f = 0x41 then paramRows41
  else if f = 0x42 then paramRows42
  else if f = 0x43 then paramRows43
  else if f = 0x44 then paramRows44
  else if f = 0x45 then paramRows45
  else if f = 0x46 then paramRows46
  else if f = 0x47 then paramRows47
  else if f = 0x48 then paramRows48
  else if f = 0x49 then paramRows49
  else if f = 0x4A then paramRows4A
  else if f = 0x4B then paramRows4B
  else if f = 0x4C then paramRows4C
  else if f = 0x4D then paramRows4D
  else if f = 0x50 then paramRows50
  else if f = 0x51 then paramRows51
  else if f = 0x52 then paramRows52
  else if f = 0x53 then paramRows53
  else if f = 0x54 then paramRows54
  else if f = 0x55 then paramRows55
  else if f = 0x56 then paramRows56
  else if f = 0x57 then paramRows57
  else if f = 0x58 then paramRows58
  else if f = 0x59 then paramRows59
  else if f = 0x5A then paramRows5A
  else if f = 0x5B then paramRows5B
  else if f = 0x5C then paramRows5C
  else if f = 0x5D then paramRows5D
  else if f = 0x5E then paramRows5E
  else []

/-- Every row of every family, by ascending PID. -/
def paramTable : List ParamRow :=
  paramRows30 ++ paramRows31 ++ paramRows32 ++ paramRows33 ++ paramRows40 ++ paramRows41 ++ paramRows42 ++ paramRows43 ++ paramRows44 ++ paramRows45 ++ paramRows46 ++ paramRows47 ++ paramRows48 ++ paramRows49 ++ paramRows4A ++ paramRows4B ++ paramRows4C ++ paramRows4D ++ paramRows50 ++ paramRows51 ++ paramRows52 ++ paramRows53 ++ paramRows54 ++ paramRows55 ++ paramRows56 ++ paramRows57 ++ paramRows58 ++ paramRows59 ++ paramRows5A ++ paramRows5B ++ paramRows5C ++ paramRows5D ++ paramRows5E

/-- The row that covers a PID, or none (R472: no such parameter). -/
def rowOf (pid : Nat) : Option ParamRow :=
  (familyRows (pid / 256)).find? (fun r => r.first ≤ pid && pid ≤ r.last)

/-- The defaults the tables give "by type" (R20), for the point type of Table 9.1:
R165, R166, R217, R245, R246, R274, R293 and Table 12.13. -/
def typeDefault (pid ty : Nat) : Option Int :=
  if pid = PT_WIRING then some (if ty = 2 then 3 else 1)
  else if pid = PT_MPO_SOURCE then some (if 4 ≤ ty then 5 else 0)
  else if pid = PT_PATH_SW then some (if 4 ≤ ty then 1 else 0)
  else if pid = PT_SESSIONS then some (if ty = 1 ∨ ty = 2 then 1 else 0)
  else if pid = PT_STOP_GRACE then some (if ty = 1 ∨ ty = 2 then 3000 else 0)
  else if pid = PT_STOP_SETTLE then some (if 4 ≤ ty then 5000 else 100)
  else if pid = PT_REG_DECADE then some (if ty = 5 ∨ ty = 6 then 3 else 6)
  else if pid = PT_DISP_DP then some (if 4 ≤ ty then 0 else 3)
  else if pid = PT_OUT_HLC then some (if ty = 2 then 1 else 0)
  else if pid = PT_OUT_PROTOCOLS then some (if ty = 2 then 7 else 6)
  else if pid = PT_FL_KAPPA then some (if ty = 4 then 1300 else 1400)
  else if pid = PT_FL_VISC then
    some (if ty = 4 then 1600 else if ty = 5 then 1800 else if ty = 7 then 50000 else 100000)
  else none

/-- The default of a parameter for a point type (R20); the type matters only to the "by type" rows. -/
def defaultOf (pid ty : Nat) : Int :=
  match typeDefault pid ty with
  | some v => v
  | none => match rowOf pid with
    | some r => r.dflt
    | none => 0

/-- The largest instance of a PID: 127 for channels, 15 for points, 0 for the node (R472). -/
def maxInstance (pid : Nat) : Nat :=
  if pid / 0x1000 = 3 then 127 else if pid / 0x1000 = 4 then 15 else 0

end Sys2Proof.Machine
end

