-- ==== Sys2Proof/Machine/Sha.lean ====
section
/-!
DEFINITION. The digests and codes the spec names and whose definitions are published standards: SHA-256 (R258, R486),
HMAC and HKDF over it (R427), CRC-32C (R364) and the watchdog's shift register (R348).
-/

namespace Sys2Proof.Machine

/-- The greatest `r` that adds to `acc` bits below 2^k and whose `d`-th power is at most `n`, found from the highest bit down. -/
def rootBits (d n : Nat) : Nat → Nat → Nat
  | 0, acc => acc
  | k + 1, acc => rootBits d n k (if (acc + 2 ^ k) ^ d ≤ n then acc + 2 ^ k else acc)

/-- The first 32 fraction bits of the `d`-th root of a prime below 512, as FIPS 180-4 defines the constants of SHA-256. -/
def rootWord (d prime : Nat) : BitVec 32 := BitVec.ofNat 32 (rootBits d (prime * 2 ^ (32 * d)) 37 0)

/-- Whether a number below 512 is prime: no smaller number from 2 on divides it. -/
def isPrime (n : Nat) : Bool := 2 ≤ n && (List.range 21).all (fun k => k + 2 ≥ n || n % (k + 2) != 0)

/-- The first 64 primes. -/
def shaPrimes : List Nat := (List.range 312).filter isPrime

/-- The round constants of SHA-256, from the cube roots of the first 64 primes. -/
def shaRounds : List (BitVec 32) := shaPrimes.map (rootWord 3)

/-- The initial hash value of SHA-256, from the square roots of the first 8. -/
def shaInit : List (BitVec 32) := (shaPrimes.take 8).map (rootWord 2)

/-- The schedule word that follows the 16 words last made, given newest first. -/
def shaNext (w : List (BitVec 32)) : BitVec 32 :=
  let x := w.getD 14 0
  let y := w.getD 1 0
  let s0 := (x.rotateRight 7) ^^^ (x.rotateRight 18) ^^^ (x >>> 3)
  let s1 := (y.rotateRight 17) ^^^ (y.rotateRight 19) ^^^ (y >>> 10)
  w.getD 15 0 + s0 + w.getD 6 0 + s1

/-- `k` further schedule words, newest first. -/
def shaSchedule : Nat → List (BitVec 32) → List (BitVec 32)
  | 0, w => w
  | k + 1, w => shaSchedule k (shaNext w :: w)

/-- One round over the eight working words. -/
def shaRound (v : List (BitVec 32)) (kw : BitVec 32 × BitVec 32) : List (BitVec 32) :=
  match v with
  | [a, b, c, d, e, f, g, h] =>
    let s1 := (e.rotateRight 6) ^^^ (e.rotateRight 11) ^^^ (e.rotateRight 25)
    let ch := (e &&& f) ^^^ (~~~e &&& g)
    let t1 := h + s1 + ch + kw.1 + kw.2
    let s0 := (a.rotateRight 2) ^^^ (a.rotateRight 13) ^^^ (a.rotateRight 22)
    let mj := (a &&& b) ^^^ (a &&& c) ^^^ (b &&& c)
    [t1 + (s0 + mj), a, b, c, d + t1, e, f, g]
  | other => other

/-- One block of 64 bytes folded into the hash. -/
def shaBlock (h : List (BitVec 32)) (block : Bytes) : List (BitVec 32) :=
  let w0 := (chunks 4 block).map (fun c => BitVec.ofNat 32 (fromBe c))
  let w := (shaSchedule 48 w0.reverse).reverse
  let v := (shaRounds.zip w).foldl shaRound h
  (h.zip v).map (fun x => x.1 + x.2)

/-- SHA-256 of a byte string (FIPS 180-4). -/
def sha256 (m : Bytes) : Bytes :=
  let padded := m ++ [0x80#8] ++ zeros ((119 - m.length % 64) % 64) ++ be 8 (8 * m.length)
  ((chunks 64 padded).foldl shaBlock shaInit).flatMap (fun w => be 4 w.toNat)

/-- HMAC-SHA-256 (RFC 2104). -/
def hmac256 (key msg : Bytes) : Bytes :=
  let k := padTo 64 (if 64 < key.length then sha256 key else key)
  sha256 (k.map (· ^^^ 0x5C#8) ++ sha256 (k.map (· ^^^ 0x36#8) ++ msg))

/-- The blocks of HKDF-Expand from the `i`-th on. -/
def hkdfBlocks : Nat → Nat → Bytes → Bytes → Bytes → Bytes
  | 0, _, _, _, _ => []
  | k + 1, i, prk, info, prev =>
    let t := hmac256 prk (prev ++ info ++ [byteOf i])
    t ++ hkdfBlocks k (i + 1) prk info t

/-- HKDF-SHA-256 (RFC 5869): `len` bytes. -/
def hkdf256 (salt ikm info : Bytes) (len : Nat) : Bytes :=
  let prk := hmac256 (if salt.isEmpty then zeros 32 else salt) ikm
  (hkdfBlocks ((len + 31) / 32) 1 prk info []).take len

/-- Eight steps of the reflected CRC-32C register. -/
def crcSteps : Nat → BitVec 32 → BitVec 32
  | 0, c => c
  | k + 1, c => crcSteps k (if c.getLsbD 0 then (c >>> 1) ^^^ 0x82F63B78#32 else c >>> 1)

/-- CRC-32C of a byte string (R364: initial and final value all ones, reflected). -/
def crc32c (m : Bytes) : BitVec 32 :=
  (m.foldl (fun c b => crcSteps 8 (c ^^^ b.setWidth 32)) 0xFFFFFFFF#32) ^^^ 0xFFFFFFFF#32

/-- `n` steps of the Galois shift register with mask 0x8020_0003 (R348). -/
def lfsr : Nat → BitVec 32 → BitVec 32
  | 0, x => x
  | n + 1, x => lfsr n (if x.getLsbD 0 then (x >>> 1) ^^^ 0x80200003#32 else x >>> 1)

end Sys2Proof.Machine
end

