-- ==== Sys2Proof/Machine/Ops.lean ====
section
/-!
DEFINITION. The shared operations: reading and changing the indexed parts of the state, parameters as they govern,
time, events (19 R460), FIFOs and streams (19 R454–R459), mailbox service (19 R451–R453, 20 R469–R470).
-/

namespace Sys2Proof.Machine

/-! ### Indexed parts -/

/-- Point `p`. -/
def State.pt (s : State) (p : Nat) : Point := s.pts.getD p Point.reset

/-- Change point `p` alone. -/
def State.modPt (s : State) (p : Nat) (f : Point → Point) : State := s.modPts (fun l => upd l p f)

/-- The session of point `p`. -/
def State.sesOf (s : State) (p : Nat) : Session := (s.pt p).ses

/-- Change the session of point `p` alone. -/
def State.modSes (s : State) (p : Nat) (f : Session → Session) : State :=
  s.modPt p (fun x => { x with ses := f x.ses })

/-- The outlet port of point `p`. -/
def State.outOf (s : State) (p : Nat) : Outlet := (s.pt p).out

/-- Change the outlet port of point `p` alone. -/
def State.modOut (s : State) (p : Nat) (f : Outlet → Outlet) : State :=
  s.modPt p (fun x => { x with out := f x.out })

/-- Slice (channel) `c`. -/
def State.slice (s : State) (c : Nat) : Slice := s.slices.getD c Slice.reset

/-- Change slice `c` alone. -/
def State.modSlice (s : State) (c : Nat) (f : Slice → Slice) : State := s.modSlices (fun l => upd l c f)

/-- Course `j`. -/
def State.course (s : State) (j : Nat) : Course := s.courses.getD j Course.reset

/-- Change course `j` alone. -/
def State.modCourse (s : State) (j : Nat) (f : Course → Course) : State := s.modCourses (fun l => upd l j f)

/-- Switch channel `n`. -/
def State.swch (s : State) (n : Nat) : SwCh := s.sw.ch.getD n SwCh.reset

/-- Change switch channel `n` alone. -/
def State.modSwch (s : State) (n : Nat) (f : SwCh → SwCh) : State :=
  s.modSw (fun d => { d with ch := upd d.ch n f })

/-- Dual safety input `k`. -/
def State.safIn (s : State) (k : Nat) : SafIn := s.saf.ins.getD k SafIn.reset

/-- Change dual safety input `k` alone. -/
def State.modSafIn (s : State) (k : Nat) (f : SafIn → SafIn) : State :=
  s.modSaf (fun x => { x with ins := upd x.ins k f })

/-- Connection entry `i`. -/
def State.scEntry (s : State) (i : Nat) : ScEntry := s.saf.entries.getD i ScEntry.reset

/-- Change connection entry `i` alone. -/
def State.modScEntry (s : State) (i : Nat) (f : ScEntry → ScEntry) : State :=
  s.modSaf (fun x => { x with entries := upd x.entries i f })

/-- Converter `k`. -/
def State.conv (s : State) (k : Nat) : SarConv := s.sar.conv.getD k SarConv.reset

/-- Change converter `k` alone. -/
def State.modConv (s : State) (k : Nat) (f : SarConv → SarConv) : State :=
  s.modSar (fun x => { x with conv := upd x.conv k f })

/-- Mailbox `m`. -/
def State.mbox (s : State) (m : Nat) : Mailbox := s.host.mbx.getD m Mailbox.reset

/-- Change mailbox `m` alone. -/
def State.modMbox (s : State) (m : Nat) (f : Mailbox → Mailbox) : State :=
  s.modHost (fun x => { x with mbx := upd x.mbx m f })

/-- Stream FIFO `k`. -/
def State.stream (s : State) (k : Nat) : Fifo := s.host.streams.getD k Fifo.reset

/-- Change stream FIFO `k` alone. -/
def State.modStream (s : State) (k : Nat) (f : Fifo → Fifo) : State :=
  s.modHost (fun x => { x with streams := upd x.streams k f })

/-- Power-line port `p`. -/
def State.plcPort (s : State) (p : Nat) : PlcPort := s.plc.ports.getD p PlcPort.reset

/-- Change power-line port `p` alone. -/
def State.modPlcPort (s : State) (p : Nat) (f : PlcPort → PlcPort) : State :=
  s.modPlc (fun x => { x with ports := upd x.ports p f })

/-- Do `f` for each number of a list in order. -/
def forAll (l : List Nat) (f : Nat → State → State) (s : State) : State := l.foldl (fun s i => f i s) s

/-- The 16 points in ascending order. -/
def points16 : List Nat := [0, 1, 2, 3, 4, 5, 6, 7, 8, 9, 10, 11, 12, 13, 14, 15]

/-! ### Parameters -/

/-- The value listed for a PID and instance. -/
def lookupP : List (Nat × Nat × Int) → Nat → Nat → Option Int
  | [], _, _ => none
  | (a, b, v) :: l, pid, inst => if a = pid ∧ b = inst then some v else lookupP l pid inst

/-- A sparse list without an entry for a PID and instance. -/
def removeP (l : List (Nat × Nat × Int)) (pid inst : Nat) : List (Nat × Nat × Int) :=
  l.filter (fun e => !(e.1 == pid && e.2.1 == inst))

/-- A sparse list, ascending, with one entry put in place. -/
def insertP : List (Nat × Nat × Int) → Nat → Nat → Int → List (Nat × Nat × Int)
  | [], pid, inst, v => [(pid, inst, v)]
  | (a, b, w) :: l, pid, inst, v =>
    if a = pid ∧ b = inst then (pid, inst, v) :: l
    else if pid < a ∨ (pid = a ∧ inst < b) then (pid, inst, v) :: (a, b, w) :: l
    else (a, b, w) :: insertP l pid inst v

/-- A value put into a sparse list that holds only what differs from the default. -/
def putP (l : List (Nat × Nat × Int)) (pid inst : Nat) (dflt v : Int) : List (Nat × Nat × Int) :=
  if v = dflt then removeP l pid inst else insertP l pid inst v

/-- The point type in a parameter list: 0 NONE by default (Table 9.1). (log 29) -/
def typeIn (l : List (Nat × Nat × Int)) (p : Nat) : Nat := ((lookupP l PT_TYPE p).getD 0).toNat

/-- The type that decides a by-type default: a point parameter's own point. (log 29) -/
def typeFor (l : List (Nat × Nat × Int)) (pid inst : Nat) : Nat :=
  if pid / 0x1000 = 4 then typeIn l inst else 0

/-- A value of a sparse list, or the default (R20). -/
def valueIn (l : List (Nat × Nat × Int)) (pid inst : Nat) : Int :=
  (lookupP l pid inst).getD (defaultOf pid (typeFor l pid inst))

/-- The value that governs now (R18). -/
def State.pv (s : State) (pid : Nat) (inst : Nat := 0) : Int := valueIn s.par.active pid inst

/-- The governing value of an unsigned parameter. -/
def State.pn (s : State) (pid : Nat) (inst : Nat := 0) : Nat := (s.pv pid inst).toNat

/-- The governing value of a bool. -/
def State.pb (s : State) (pid : Nat) (inst : Nat := 0) : Bool := s.pv pid inst != 0

/-- The stored value, which a read returns (R473). -/
def State.stored (s : State) (pid inst : Nat) : Int := valueIn s.par.stored pid inst

/-- The staged value for the boundary that has passed, or else the governing one: what the engine works under
between the boundary and the Capo's boundary work (02 R46, R57). -/
def State.pvE (s : State) (pid : Nat) (inst : Nat := 0) : Int :=
  match s.par.staged.find? (fun e => e.ripe && e.pid == pid && e.inst == inst) with
  | some e => e.val
  | none => s.pv pid inst

/-- `pvE` of an unsigned parameter. -/
def State.pnE (s : State) (pid : Nat) (inst : Nat := 0) : Nat := (s.pvE pid inst).toNat

/-- `pvE` of a bool. -/
def State.pbE (s : State) (pid : Nat) (inst : Nat := 0) : Bool := s.pvE pid inst != 0

/-- The present type of a point (Table 9.1): 0 NONE, 1 AC_OUTLET, 2 DC_OUTLET, 3 FEEDER, 4 STEAM, 5 AIR, 6 WATER,
7 HEAT as `PT_TYPE` codes them. -/
def State.ptType (s : State) (p : Nat) : Nat := typeIn s.par.active p

/-! ### Time -/

/-- Elapsed time moves to `t` and never back (log entry 1). (logs 1, 43) -/
def State.at (s : State) (t : Nat) : State := s.modClk (fun c => { c with up := max c.up t })

/-- Node time that one elapsed ns gives in the running frame, 2^-32 ns (03 R64, R66). -/
def State.timeStep (s : State) : Nat := (2 ^ 32 + s.clk.rate).toNat

/-- Node time since the start of the running frame at the elapsed instant `t`, 2^-32 ns (03 R66). (log 1) -/
def State.fineTime (s : State) (t : Nat) : Nat := s.clk.frac + (t - s.clk.lastTick) * s.timeStep

/-- Node time now, ns: the frame counter's frames and what has passed since the last frame tick (R39). (log 1) -/
def State.nodeNow (s : State) : Nat := s.clk.frame * 250000 + s.fineTime s.clk.up / 2 ^ 32

/-- The elapsed instant of the next frame tick: node time crosses a multiple of 250,000 ns (03 R66). (log 1) -/
def State.tickAt (s : State) : Nat :=
  s.clk.lastTick + (250000 * 2 ^ 32 - s.clk.frac + s.timeStep - 1) / s.timeStep

/-- Elapsed time at the start t0(n) of frame `n`, for the frames near the running one, at the rate of the running frame. (log 1) -/
def State.t0 (s : State) (n : Nat) : Nat :=
  (s.clk.lastTick - ((s.clk.frac : Int) - ((n : Int) - s.clk.frame) * (250000 * 2 ^ 32)) / s.timeStep).toNat

/-- The running frame. -/
def State.frm (s : State) : Nat := s.clk.frame

/-- A free value, and the counter moved on (log entry 5). -/
def State.free (s : State) : Nat := Config.freeValue s.clk.freeCtr

/-- Move to the next free value. (log 5) -/
def State.bump (s : State) : State := s.modClk (fun c => { c with freeCtr := c.freeCtr + 1 })

/-- Floor of `num / den`, with a free bit where the spec does not state the rounding (log entry 4). -/
def divFree (num : Int) (den : Nat) : Int :=
  if num % (den : Int) = 0 then num / den else if Config.roundUp num den then num / den + 1 else num / den

/-! ### Events -/

/-- The raises of an event for a subject since the start (R460). (log 47) -/
def countOf (l : List (Nat × Nat)) (sub : Nat) : Nat :=
  match l.find? (fun x => x.1 == sub) with
  | some x => x.2
  | none => 0

/-- One more raise of an event for a subject, saturating. (log 47) -/
def bumpCount (l : List (Nat × Nat)) (sub : Nat) : List (Nat × Nat) :=
  if l.any (fun x => x.1 == sub) then l.map (fun x => if x.1 == sub then (sub, inc32 x.2) else x)
  else l ++ [(sub, 1)]

/-- A detail stored in a queue of 8: the oldest goes when the queue is full (R460). -/
def EventQueue.add (q : EventQueue) (d : Bytes) : EventQueue :=
  if 8 ≤ q.details.length then { q with details := q.details.drop 1 ++ [d], lost := inc32 q.lost }
  else { q with details := q.details ++ [d] }

/-- A detail stored and the pending bit set; before READY the bit waits (R460, R508). -/
def State.addDetail (s : State) (ev : Nat) (d : Bytes) : State :=
  s.modHost (fun h => { h with
    events := upd h.events ev (fun q => q.add d)
    pend := if h.ready then h.pend ||| BitVec.ofNat 64 (2 ^ ev) else h.pend })

/-- Raise an event whose detail closes with a Count for the subject `sub` (R460). (log 47) -/
def State.raise (s : State) (ev sub : Nat) (body : Bytes) : State :=
  let q := s.host.events.getD ev EventQueue.reset
  let n := inc32 (countOf q.counts sub)
  (s.modHost (fun h => { h with events := upd h.events ev (fun q => { q with counts := bumpCount q.counts sub }) })).addDetail
    ev (padTo 28 body ++ le 4 n)

/-- Raise an event whose Count stands at offset 24, with 4 more bytes after it. (log 47) -/
def State.raiseMid (s : State) (ev sub : Nat) (body tail : Bytes) : State :=
  let q := s.host.events.getD ev EventQueue.reset
  let n := inc32 (countOf q.counts sub)
  (s.modHost (fun h => { h with events := upd h.events ev (fun q => { q with counts := bumpCount q.counts sub }) })).addDetail
    ev (padTo 24 body ++ le 4 n ++ padTo 4 tail)

/-- A start is counted without an event. -/
def State.countStart (s : State) (ev sub : Nat) : State :=
  s.modHost (fun h => { h with events := upd h.events ev (fun q => { q with counts := bumpCount q.counts sub }) })

/-- Raise an event whose Count stands at offset `off`, with bytes after it; the count moves on only when `up` says so. (log 47) -/
def State.raiseAt (s : State) (ev sub off : Nat) (up : Bool) (body tail : Bytes) : State :=
  let q := s.host.events.getD ev EventQueue.reset
  let n := if up then inc32 (countOf q.counts sub) else countOf q.counts sub
  (if up then s.countStart ev sub else s).addDetail ev (padTo off body ++ le 4 n ++ padTo (28 - off) tail)

/-- Raise an event whose detail has no Count. -/
def State.raiseRaw (s : State) (ev : Nat) (d : Bytes) : State := s.addDetail ev (padTo 32 d)

/-- Queue a fault report for the balance frame (17 R419, Table 17.7): at most 16 wait. -/
def State.queueFault (s : State) (cls node detail : Nat) : State :=
  s.modRing (fun r =>
    if r.faults.length < 16 then
      { r with faults := r.faults ++ [le 2 (node % 4096 + cls * 4096) ++ le 2 (s.pn ND_NODE_ID % 4096) ++ zeros 2 ++ le 2 detail] }
    else { r with faultsLost := inc32 r.faultsLost })

/-! ### FIFOs and streams -/

/-- Level by the pointers, a+1 bits wide (R454). -/
def fifoLevel (a : Nat) (f : Fifo) : Nat := (f.wptr + 2 ^ (a + 1) - f.rptr) % 2 ^ (a + 1)

/-- One word pushed into a FIFO that is not full; `t` starts the tail time of an empty FIFO. -/
def fifoPush (a t : Nat) (w : Nat) (last : Bool) (f : Fifo) : Fifo :=
  { f with
    words := f.words ++ [(w % 2 ^ 32, last, false)]
    wptr := wrapInc (a + 1) f.wptr
    heldSince := if f.words.isEmpty then some t else f.heldSince }

/-- Words pushed in order, the last one marked last-of-record. -/
def fifoPushUnit (a t : Nat) : List Nat → Fifo → Fifo
  | [], f => f
  | [w], f => fifoPush a t w true f
  | w :: ws, f => fifoPushUnit a t ws (fifoPush a t w false f)

/-- The address bits of the four streams (Table 19.5). -/
def streamBits (k : Nat) : Nat := [14, 12, 16, 13].getD k 0

/-- Free words of stream `k`; none while the test window forces it full (R454, R523). -/
def State.streamRoom (s : State) (k : Nat) : Nat :=
  if s.test.regs.fifo.getLsbD k then 0 else 2 ^ streamBits k - fifoLevel (streamBits k) (s.stream k)

/-- The body of Table 19.9. -/
def fifoBody (k cause level frame amount : Nat) : Bytes :=
  [byteOf k, byteOf cause, 0, 0] ++ le 4 level ++ le 8 frame ++ le 4 amount

/-- Raise FIFO_OVERRUN with cause 1 for a unit not written for lack of room (R456, Table 19.9), at most once per
frame for each FIFO. -/
def State.unitLost (s : State) (k units : Nat) : State :=
  if (s.stream k).ovFrame = some s.frm then s
  else (s.modStream k (fun f => { f with ovFrame := some s.frm })).raise 6 k
    (fifoBody k 1 (fifoLevel (streamBits k) (s.stream k)) s.frm units)

/-- A word written while stream `k` is forced full is ignored: OVERRUN, and FIFO_OVERRUN with cause 0 at most once per frame (R454, 23
R523). -/
def State.wordLost (s : State) (k : Nat) : State :=
  let s := s.modStream k (fun f => { f with overrun := true })
  if (s.stream k).ovFrame = some s.frm then s
  else (s.modStream k (fun f => { f with ovFrame := some s.frm })).raise 6 k
    (fifoBody k 0 (fifoLevel (streamBits k) (s.stream k)) s.frm 1)

/-- Raise a stream's event with the units completed since the last report (R458). -/
def State.streamReport (s : State) (k cause : Nat) : State :=
  let f := s.stream k
  (s.modStream k (fun f => { f with units := 0, evFrame := some s.frm })).raise (2 + k) k
    (fifoBody k cause (fifoLevel (streamBits k) f) s.frm f.units)

/-- A unit completed: the stream's event at most once per frame, the rest at the next frame's start (R458). -/
def State.unitDone (s : State) (k : Nat) : State :=
  let s := s.modStream k (fun f => { f with units := inc32 f.units })
  if (s.stream k).evFrame = some s.frm then s else s.streamReport k 0

/-- Write a whole unit where there is room for it. -/
def State.writeUnit (s : State) (k : Nat) (ws : List Nat) : State :=
  (s.modStream k (fifoPushUnit (streamBits k) s.clk.up ws)).unitDone k

/-- The 32-bit words of a byte string. -/
def wordsOf (bs : Bytes) : List Nat := (chunks 4 bs).map fromLe

/-- The result of one FIFO read: the word, its tag, the FIFO after it (R454, R457). `hold` is the test window's
forced-empty bit. -/
def fifoRead (a t : Nat) (hold : Bool) (f : Fifo) : Nat × Nat × Fifo :=
  match f.words, hold with
  | (w, last, bad) :: ws, false =>
    (w, b2n bad + 4 * b2n last,
      { f with
        words := ws
        rptr := wrapInc (a + 1) f.rptr
        lastWord := w
        poison := f.poison || bad
        heldSince := if ws.isEmpty then none else some t
        tailFired := false })
  | _, _ => (f.lastWord, 2, { f with underrun := true, tailFired := false,
                                     heldSince := if f.words.isEmpty then none else some t })

/-! ### Test window -/

/-- H_TEST_ACTIVE 7:0 (R522): which registers hold other than their reset value. -/
def activeOf (r : TestRegs) : Nat :=
  bitmapOf [r.stretch != TestRegs.reset.stretch, r.fifo != 0, r.ringDelay != 0 || r.ringLka || r.ringLkb, r.zc != 0,
    r.safDelay != 0 || r.safCount != 0 || r.safAction != 0 || r.safEntry != 0, r.starve != 0, r.mram != 0,
    r.wrong || r.skip != 0]

/-- Whether any perturbation is active (R522, R525). -/
def State.testing (s : State) : Bool := activeOf s.test.regs != 0

/-! ### Holds and FAILn -/

/-- FAILn low: a hold of rank 1, 3 or 4 stands on a channel (R371), or the switch die is below its reset threshold
(R535). -/
def State.failsafeLow (s : State) : Bool :=
  !s.sw.powered || s.sw.ch.any (fun c => c.resHold || !c.siHold.isEmpty || c.fsHold || !c.hold4.isEmpty)

/-! ### Mailbox service -/

/-- What a command answers: the state after it, its status, its payload, or its payload's parts (R470). -/
structure Ans where
  st : State
  status : Nat
  body : Bytes
  parts : List Bytes

/-- Done, with an empty payload. -/
def okS (s : State) : Ans := ⟨s, 0, [], []⟩

/-- Done, with a payload. -/
def okB (s : State) (b : Bytes) : Ans := ⟨s, 0, b, []⟩

/-- Done, with a payload in parts (R470). -/
def okParts (s : State) (ps : List Bytes) : Ans := ⟨s, 0, [], ps⟩

/-- Refused: nothing changes (R471). (log 27) -/
def refuse (s : State) (status : Nat) : Ans := ⟨s, status, [], []⟩

/-- A byte string as an answer in parts of 246 bytes (R470). -/
def byteParts (b : Bytes) : List Bytes := if b.isEmpty then [[]] else chunks 246 b

/-- Entries packed whole into parts of 246 bytes after a head that begins part 0 (R470). -/
def packParts : List Bytes → Bytes → List Bytes → List Bytes
  | [], cur, done => done ++ [cur]
  | e :: es, cur, done =>
    if 246 < cur.length + e.length then packParts es e (done ++ [cur]) else packParts es (cur ++ e) done

/-- PART of a request (Table 20.1). -/
def hdrPart (h : Hdr) : Nat := h.flags % 256

/-- MORE of a request. -/
def hdrMore (h : Hdr) : Bool := h.flags.testBit 8

/-- Flags bits 15:9 are zero, and the mailbox exists. (log 8) -/
def hdrLegal (h : Hdr) : Bool := h.flags / 512 == 0 && h.mbx < 8 && h.tag < 65536

/-- The header of a request or response as bytes (Table 20.1). -/
def hdrBytes (code tag len last : Nat) : Bytes := le 2 code ++ le 2 tag ++ le 2 len ++ le 2 last

/-- New bytes over the start of a buffer. -/
def overlay (new old : Bytes) : Bytes := new ++ old.drop new.length

/-- Words listed for a buffer written from its start: only non-zero words are listed. -/
def bufWords : Nat → List Nat → List (Nat × Nat)
  | _, [] => []
  | off, w :: ws => if w = 0 then bufWords (off + 4) ws else (off, w) :: bufWords (off + 4) ws

/-- Post the response: buffer, then RSP, ERROR, TAG, REQ and BUSY in one update, then the event (R451, Table 19.8).
The service time is a free value (log entry 5). (log 43) -/
def State.post (s : State) (m code tag status : Nat) (body : Bytes) : State :=
  let s := s.modMbox m (fun b => { b with
    resp := overlay (hdrBytes code tag body.length status ++ body) b.resp
    rsp := true, error := status != 0, tag := BitVec.ofNat 16 tag, req := false, busy := false })
  s.bump.raise (if status = 0 then 0 else 1) m
    ([byteOf m, 0] ++ le 2 code ++ le 2 tag ++ le 2 status ++ le 8 s.frm ++ le 4 s.free)

/-- Drop what a mailbox holds of an answer. -/
def State.dropAnswer (s : State) (m : Nat) : State := s.modMbox m (fun b => { b with answer := none })

/-- Drop the parts a mailbox holds of a request. -/
def State.dropHeld (s : State) (m : Nat) : State := s.modMbox m (fun b => { b with held := none })

/-- Post an answer; an answer in parts is held for its mailbox and part 0 is posted (R470). -/
def Ans.send (a : Ans) (h : Hdr) (code : Nat) : State :=
  match a.parts with
  | [] => a.st.post h.mbx code h.tag a.status a.body
  | q :: qs =>
    (a.st.modMbox h.mbx (fun b => { b with answer := some ⟨code, h.tag, q :: qs⟩ })).post h.mbx code h.tag a.status
      ([0, byteOf (qs.length + 1)] ++ q)

/-- Answer a request for part k of a held answer (R470). -/
def State.answerPart (s : State) (h : Hdr) (code : Nat) : State :=
  match (s.mbox h.mbx).answer with
  | some a =>
    if a.code = code ∧ a.tag = h.tag ∧ hdrPart h < a.parts.length then
      s.post h.mbx code h.tag 0 ([byteOf (hdrPart h), byteOf a.parts.length] ++ a.parts.getD (hdrPart h) [])
    else (if a.code = code then s else s.dropAnswer h.mbx).post h.mbx code h.tag 3 []
  | none => s.post h.mbx code h.tag 3 []

/-- What a command answers while the Capo stays in the recovery loader: only families 0x01 and 0x06 are served, and no area
that a factory reset writes is written (21 R499; log entry 9). -/
def loaderOnly (code : Nat) (serve : Bytes → State → Ans) (p : Bytes) (s : State) : Ans :=
  if s.fw.recovery ∧ (code = 0x0104 ∨ ¬ (code / 256 = 1 ∨ code / 256 = 6)) then refuse s 8 else serve p s

/-- Take a request whose mailbox is served (R469, R470): a part with MORE is held, a last part runs the command on
the joined payload, PART above 0 with nothing held asks for a part of the answer, and PART 0 runs the command. (logs 9, 43) -/
def State.take (s : State) (code : Nat) (h : Hdr) (p : Bytes) (serve : Bytes → State → Ans) : State :=
  if 248 < p.length then s.post h.mbx code h.tag 2 []
  else if hdrPart h = 0 then
    let s := (s.dropAnswer h.mbx).dropHeld h.mbx
    if hdrMore h then
      (s.modMbox h.mbx (fun b => { b with held := some ⟨code, h.tag, [p]⟩ })).post h.mbx code h.tag 0 []
    else (loaderOnly code serve p s).send h code
  else
    match (s.mbox h.mbx).held with
    | some d =>
      if d.code = code ∧ d.tag = h.tag ∧ hdrPart h = d.parts.length ∧ hdrPart h < 32 ∧ ¬ (hdrPart h = 31 ∧ hdrMore h = true) then
        if hdrMore h then
          (s.modMbox h.mbx (fun b => { b with held := some ⟨code, h.tag, d.parts ++ [p]⟩ })).post h.mbx code h.tag 0 []
        else (loaderOnly code serve (d.parts.flatten ++ p) (s.dropHeld h.mbx)).send h code
      else (s.dropHeld h.mbx).post h.mbx code h.tag 3 []
    | none => if hdrMore h then s.post h.mbx code h.tag 3 [] else s.answerPart h code

/-- Mailboxes are served: READY, no handover pauses them (R452, R453), and no reset of the Capo, which every request reaches (R30),
is under way (22 R510; log entry 7). -/
def State.serving (s : State) : Bool := s.host.ready && !s.host.pause && !s.pwr.capoReset

/-- A mailbox is free (R451). -/
def State.mboxFree (s : State) (m : Nat) : Bool := !(s.mbox m).req && !(s.mbox m).rsp

/-- Words of a request over what a request buffer held; the words behind them stay. -/
def overWords (old : List (Nat × Nat)) (ws : List Nat) : List (Nat × Nat) :=
  bufWords 0 ws ++ old.filter (fun x => decide (4 * ws.length ≤ x.1))

/-- The request as the host wrote it into the request buffer. -/
def State.writeReq (s : State) (code : Nat) (h : Hdr) (p : Bytes) : State :=
  s.modMbox h.mbx (fun b => { b with
    via := some h.heth, reqBuf := overWords b.reqBuf (wordsOf (hdrBytes code h.tag p.length h.flags ++ p)) })

/-- Reserved payload fields that the host must leave zero (Table 20.8), by command code. (log 8) -/
def reservedZero (code : Nat) (p : Bytes) : Bool :=
  if code = 0x0202 then fld p 2 1 == 0 && fld p 3 1 / 8 == 0
  else if code = 0x0307 then fld p 2 2 == 0
  else if code = 0x0308 then fld p 2 2 == 0
  else if code = 0x0401 ∨ code = 0x0402 then fld p 1 1 == 0
  else if code = 0x0601 then fld p 1 3 == 0
  else true

/-- Hold a request rung while mailboxes are not served (R452, R453; log entry 7). -/
def State.holdReq (s : State) (code : Nat) (h : Hdr) (p : Bytes) : State :=
  (s.modMbox h.mbx (fun b => { b with req := true })).modHost
    (fun x => { x with held := x.held ++ [⟨code, h, p⟩] })

/-- The first interval boundary at least 1 ms from now, by its frame (R46). -/
def State.nextBoundary (s : State) : Nat :=
  (s.frm + (s.fineTime (s.clk.up + 1000000) / 2 ^ 32 + 249999) / 250000 + 3999) / 4000 * 4000

/-- A write or a read of the host's that a core die in reset does not answer: its registers stand at their Reset values (R450;
log entry 7). (logs 7, 43) -/
def hostAct (f : State → State) (s : State) : Host.Outcome State Fault Refusal := .next (if s.pwr.coreOn then f s else s)

/-! ### The cases that the host must avoid (R465, R483) -/

/-- `k` bytes that the spec leaves open, from item `i`. (log 8) -/
def freeBytes (n i k : Nat) : Bytes := (List.range k).map (fun j => byteOf (Config.hostFree n (i + j)))

/-- Mailbox `m` after an undefined case: its register and buffers hold free values, and what it held of parts may be gone.
(log 8) -/
def Mailbox.confined (n m : Nat) (b : Mailbox) : Mailbox :=
  let v (k : Nat) : Nat := Config.hostFree n (4096 * (m + 1) + k)
  let on (k : Nat) : Bool := v k % 2 == 1
  { b with
    tag := BitVec.ofNat 16 (v 0), error := on 1, busy := on 2, req := v 3 % 3 == 1, rsp := v 3 % 3 == 2
    via := if on 4 then b.via else none
    reqBuf := bufWords 0 ((List.range 64).map (fun k => v (16 + k) % 2 ^ 32))
    resp := freeBytes n (4096 * (m + 1) + 1024) 256
    held := if on 5 then b.held else none
    answer := if on 6 then b.answer else none }

/-- Stream `k` after an undefined case: some words were read out of it (its read side). (log 8) -/
def Fifo.confined (n k : Nat) (f : Fifo) : Fifo :=
  let d := Config.hostFree n (64 + k) % (f.words.length + 1)
  { f with
    words := f.words.drop d, rptr := (f.rptr + d) % 2 ^ (streamBits k + 1)
    lastWord := Config.hostFree n (72 + k) % 2 ^ 32, underrun := Config.hostFree n (80 + k) % 2 == 1 }

/-- The outcome of a case of Table 19.16 or 20.8 is undefined, but confined to the host interface: the host registers, the
mailbox buffers, the read side of the streams, and the pending bits and detail queues (R465, R483). Each of them holds a
free value; nothing else changes. (log 8) -/
def State.confined (s : State) : State :=
  let n := s.clk.freeCtr
  let v (k : Nat) : Nat := Config.hostFree n k
  let on (k : Nat) : Bool := v k % 2 == 1
  s.bump.modHost (fun x => { x with
    pend := BitVec.ofNat 64 (v 0), mask := BitVec.ofNat 64 (v 1), enable := on 2, force := on 3
    frameHi := BitVec.ofNat 16 (v 4), scratch := BitVec.ofNat 32 (v 5)
    badInstr := on 6, short := on 7, hethRefused := on 8
    mbx := x.mbx.mapIdx (fun m b => b.confined n m)
    streams := x.streams.mapIdx (fun k f => f.confined n k)
    events := x.events.mapIdx (fun e q => { q with details := q.details.drop (v (128 + e)) })
    lastRead := freeBytes n 256 (v 9 % 1024) })

/-- A request in an undefined case: the Capo checks it as any other (R30, R465), or it is not taken; a free value decides.
(log 8) -/
def State.undefinedRequest (s : State) (run : State → State) : State :=
  if s.serving = true ∧ s.free % 2 = 1 then run s.bump else s.confined

/-- A host command: the request is written and rung. A mailbox not served keeps the request; otherwise it is taken and answered
(R451). The cases of Tables 19.16 and 20.8 have the outcome that R465 confines. A core die in reset answers nothing.
(logs 7, 8, 43) -/
def hostCmd (code : Nat) (h : Hdr) (p : Bytes) (serve : Bytes → State → Ans) (s : State) :
    Host.Outcome State Fault Refusal :=
  if s.pwr.coreOn = false then .next s
  else if hdrLegal h && s.mboxFree h.mbx && reservedZero code p then
    if s.serving then .next ((s.writeReq code h p).take code h p serve)
    else .next ((s.writeReq code h p).holdReq code h p)
  else if h.mbx < 8 then .next (s.undefinedRequest (fun s => (s.writeReq code h p).take code h p serve))
  else .next s.confined

end Sys2Proof.Machine
end

