-- ==== Sys2Proof/Machine/Tables.lean ====
section
/-!
DEFINITION. Numbers that the spec gives by formula: the coefficients of the DC block (05 R132) and of the integrator
(05 R136, 06 R149), and the Hilbert pair with its gain table (06 R150). The DC block's coefficient is u0.32 as R132 says;
the word length of the others is not stated, and they stand here to the fraction bits their docstrings name (log entry 4).
-/

namespace Sys2Proof.Machine

/-- α of R132 as u0.32: corner code of `CH_DC_BLOCK` and sample rate. (log 4) -/
def dcAlpha (fc fs : Nat) : Nat :=
  if fs = 32000 then [0, 421637, 843232, 1686299].getD fc 0
  else if fs = 8000 then [0, 1686299, 3371935, 6741223].getD fc 0
  else if fs = 4000 then [0, 3371935, 6741223, 13471865].getD fc 0
  else [0, 13471865, 26901473, 53634450].getD fc 0

/-- K of R136 with 48 fraction bits: code of `CH_INTEGRATOR` (1 50 Hz, 2 60 Hz) and sample rate. (log 4) -/
def integK (code fs : Nat) : Nat :=
  if fs = 32000 then [0, 2763374121886, 3316048946263].getD code 0
  else if fs = 8000 then [0, 11053496487544, 13264195785053].getD code 0
  else if fs = 4000 then [0, 22106992975089, 26528391570107].getD code 0
  else [0, 88427971900356, 106113566280427].getD code 0

/-- H[0] to H[63] of R150, 40 fraction bits. (log 4) -/
def hilbertTaps : List Int :=
  [-165252417, -281015460, -432857939, -627048229, -870416457, -1170379330, -1534976172, -1972921718,
   -2493682965, -3107589794, -3825992413, -4661483451, -5628209361, -6742306008, -8022508658, -9491010269,
   -11174679486, -13106810388, -15329677269, -17898341855, -20886470749, -24395497634, -28569587809,
   -33621175136, -39876929146, -47866142429, -58505514254, -73530264088, -96664215471, -137597942618,
   -231879236420, -699488271629] ++
  [699488271629, 231879236420, 137597942618, 96664215471, 73530264088, 58505514254, 47866142429, 39876929146,
   33621175136, 28569587809, 24395497634, 20886470749, 17898341855, 15329677269, 13106810388, 11174679486,
   9491010269, 8022508658, 6742306008, 5628209361, 4661483451, 3825992413, 3107589794, 2493682965, 1972921718,
   1534976172, 1170379330, 870416457, 627048229, 432857939, 281015460, 165252417]

/-- M[0] to M[63] of R150, 40 fraction bits. -/
def halfTaps : List Int :=
  [-165252417, 281015460, -432857939, 627048229, -870416457, 1170379330, -1534976172, 1972921718, -2493682965,
   3107589794, -3825992413, 4661483451, -5628209361, 6742306008, -8022508658, 9491010269, -11174679486,
   13106810388, -15329677269, 17898341855, -20886470749, 24395497634, -28569587809, 33621175136, -39876929146,
   47866142429, -58505514254, 73530264088, -96664215471, 137597942618, -231879236420, 699488271629] ++
  [699488271629, -231879236420, 137597942618, -96664215471, 73530264088, -58505514254, 47866142429,
   -39876929146, 33621175136, -28569587809, 24395497634, -20886470749, 17898341855, -15329677269, 13106810388,
   -11174679486, 9491010269, -8022508658, 6742306008, -5628209361, 4661483451, -3825992413, 3107589794,
   -2493682965, 1972921718, -1534976172, 1170379330, -870416457, 627048229, -432857939, 281015460, -165252417]

/-- κ of R150 at 256 frequencies from 40 Hz to 70 Hz, 40 fraction bits. (log 4) -/
def kappaTable : List Nat :=
  [1099861982303, 1099906814569, 1099950655398, 1099993470363, 1100035227072, 1100075895137, 1100115446143,
   1100153853611, 1100191092969, 1100227141517, 1100261978393, 1100295584541, 1100327942673, 1100359037239,
   1100388854393, 1100417381953, 1100444609373, 1100470527704, 1100495129561, 1100518409088, 1100540361921,
   1100560985156, 1100580277312, 1100598238296, 1100614869367, 1100630173104, 1100644153368, 1100656815267,
   1100668165121, 1100678210430, 1100686959833, 1100694423080] ++
  [1100700610993, 1100705535431, 1100709209259, 1100711646310, 1100712861353, 1100712870057, 1100711688962,
   1100709335438, 1100705827658, 1100701184561, 1100695425821, 1100688571813, 1100680643583, 1100671662813,
   1100661651790, 1100650633375, 1100638630972, 1100625668496, 1100611770343, 1100596961361, 1100581266816,
   1100564712369, 1100547324041, 1100529128186, 1100510151464, 1100490420811, 1100469963414, 1100448806680,
   1100426978213, 1100404505786, 1100381417314, 1100357740831] ++
  [1100333504462, 1100308736401, 1100283464887, 1100257718176, 1100231524525, 1100204912162, 1100177909268,
   1100150543956, 1100122844246, 1100094838045, 1100066553130, 1100038017126, 1100009257484, 1099980301466,
   1099951176127, 1099921908292, 1099892524545, 1099863051206, 1099833514321, 1099803939640, 1099774352607,
   1099744778339, 1099715241617, 1099685766872, 1099656378166, 1099627099186, 1099597953225, 1099568963177,
   1099540151519, 1099511540305, 1099483151152, 1099455005233] ++
  [1099427123264, 1099399525499, 1099372231718, 1099345261220, 1099318632816, 1099292364822, 1099266475051,
   1099240980807, 1099215898879, 1099191245539, 1099167036531, 1099143287071, 1099120011842, 1099097224990,
   1099074940121, 1099053170296, 1099031928032, 1099011225300, 1098991073520, 1098971483563, 1098952465747,
   1098934029842, 1098916185063, 1098898940077, 1098882302998, 1098866281392, 1098850882276, 1098836112124,
   1098821976861, 1098808481873, 1098795632008, 1098783431577] ++
  [1098771884357, 1098760993599, 1098750762028, 1098741191848, 1098732284748, 1098724041905, 1098716463991,
   1098709551177, 1098703303141, 1098697719069, 1098692797666, 1098688537161, 1098684935312, 1098681989416,
   1098679696312, 1098678052393, 1098677053610, 1098676695479, 1098676973093, 1098677881127, 1098679413847,
   1098681565118, 1098684328412, 1098687696820, 1098691663056, 1098696219471, 1098701358057, 1098707070461,
   1098713347991, 1098720181628, 1098727562033, 1098735479561] ++
  [1098743924264, 1098752885909, 1098762353979, 1098772317693, 1098782766008, 1098793687632, 1098805071036,
   1098816904460, 1098829175930, 1098841873261, 1098854984071, 1098868495791, 1098882395677, 1098896670817,
   1098911308144, 1098926294444, 1098941616371, 1098957260451, 1098973213097, 1098989460618, 1099005989230,
   1099022785064, 1099039834178, 1099057122567, 1099074636172, 1099092360891, 1099110282590, 1099128387110,
   1099146660279, 1099165087922, 1099183655867, 1099202349959] ++
  [1099221156069, 1099240060099, 1099259047996, 1099278105757, 1099297219444, 1099316375185, 1099335559189,
   1099354757751, 1099373957263, 1099393144221, 1099412305231, 1099431427023, 1099450496451, 1099469500508,
   1099488426329, 1099507261200, 1099525992566, 1099544608036, 1099563095392, 1099581442593, 1099599637785,
   1099617669306, 1099635525692, 1099653195681, 1099670668223, 1099687932482, 1099704977844, 1099721793922,
   1099738370559, 1099754697834, 1099770766068, 1099786565827] ++
  [1099802087927, 1099817323437, 1099832263686, 1099846900263, 1099861225022, 1099875230086, 1099888907848,
   1099902250979, 1099915252424, 1099927905408, 1099940203440, 1099952140311, 1099963710099, 1099974907171,
   1099985726180, 1099996162074, 1100006210090, 1100015865757, 1100025124901, 1100033983638, 1100042438381,
   1100050485836, 1100058123005, 1100065347183, 1100072155959, 1100078547216, 1100084519128, 1100090070163,
   1100095199077, 1100099904916, 1100104187014, 1100108044990]

end Sys2Proof.Machine
end

