-- ==== Sys2Proof/Machine/Decim.lean ====
section
/-!
DEFINITION. The decimation hardware (05): from a slice's modulator samples to chain outputs. The modulator samples stand in
State referred to the slice's input (a sample at gain index g counts 2^(5−g)), so that the exact shift of R105 at a gain
switch is the scale alone. Positions count modulator clocks. A frame is 2,048 clocks and the metrology latency 4,096 (05
R124); the fine delay's step is a quarter clock (05 R128).
-/

namespace Sys2Proof.Machine

/-! ### Filters over lists, oldest sample first -/

/-- Sum of the products of two lists. -/
def dot : List Int → List Int → Int
  | a :: l, b :: r => a * b + dot l r
  | _, _ => 0

/-- `k` outputs of an FIR filter, one each `d` inputs. -/
def firEvery (taps : List Int) (d : Nat) : Nat → List Int → List Int
  | 0, _ => []
  | k + 1, l => dot taps l :: firEvery taps d k (l.drop d)

/-- The last `n` entries of a list, zeros put before a shorter one. -/
def lastN (n : Nat) (l : List Int) : List Int := List.replicate (n - l.length) 0 ++ l.drop (l.length - n)

/-- n (n − 1) (n − 2) / 6. -/
def choose3 (n : Nat) : Nat := n * (n - 1) * (n - 2) / 6

/-- Tap `k` of four cascaded boxcars of `r` clocks: sinc⁴ (Table 5.1). -/
def boxTap (r k : Nat) : Int :=
  ([1, -4, 6, -4, 1].mapIdx (fun j (b : Int) => if k < j * r then 0 else b * choose3 (k + 3 - j * r))).foldl (· + ·) 0

/-- The 4r − 3 taps of sinc⁴ over `r`; they add up to r⁴. -/
def boxTaps (r : Nat) : List Int := (List.range (4 * r - 3)).map (boxTap r)

/-- sinc⁴ of stages 1 and 2. -/
def sincTaps : List Int := boxTaps 8

/-- The weights of a SETTLE window (R123). (log 51) -/
def settleTaps : List Int := boxTaps 512

/-- The taps of a linear-phase FIR stage of Table 5.1 whose coefficients the spec does not give. -/
def finalTaps (stage len : Nat) : List Int := (List.range len).map (fun k => Config.firTap stage (min k (len - 1 - k)))

/-! ### The fractional-delay interpolator (R128) -/

/-- Tap `k` of phase φ before normalisation, up to the factor common to a phase: a sinc at distance k − 7 − φ / 1,024 under a
Kaiser window of β = 8 and half length 8. (log 50) -/
def interpRaw (phase k : Nat) : Int :=
  let d : Int := 1024 * (k : Int) - 7168 - phase
  if phase = 0 then (if k = 7 then qOne else 0)
  else (if k % 2 = 0 then 1 else -1) * kaiser 8 d 8192 * 2 ^ 20 / d

/-- The 16 taps of a phase, unity gain at 0 Hz, in units of 2^-60, for samples oldest first. (log 50) -/
def interpTaps (phase : Nat) : List Int :=
  let raw := (List.range 16).map (fun i => interpRaw phase (15 - i))
  let sum := raw.foldl (· + ·) 0
  raw.map (fun x => x * 2 ^ 60 / sum)

/-! ### Chains -/

/-- Group delay of a chain in clocks (Table 5.2): 0 standard at 32 kSa/s, 1 standard at 8 kSa/s, 2 wideband stream. -/
def groupDelay (code : Nat) : Nat := [1150, 2686, 134].getD code 0

/-- Phase steps of the interpolator in a clock (R128). -/
def phaseSteps (code : Nat) : Nat := if code = 2 then 128 else 16

/-- The pad in phase steps that follows the coarse delay: 500 µs − G − CH_FINE_DELAY (R126, R127). The coarse delay, which R126 counts
with the pad, has acted before stage 1. (log 51) -/
def padSteps (code : Nat) (fine : Int) : Nat :=
  ((4096 - groupDelay code : Nat) * phaseSteps code - fine * (phaseSteps code / 4 : Nat)).toNat

/-- Stage 1 at `cnt` positions 8 apart, the first `back` clocks before the frame's start; `h` holds 8,192 clocks before the frame and
the frame, and `coarse` delays them (R127). -/
def stage1 (h : List Int) (back coarse cnt : Nat) : List Int :=
  firEvery sincTaps 8 cnt (h.drop (8192 - back - 28 - coarse))

/-- Stage 2 at `cnt` positions 64 apart. -/
def stage2 (h : List Int) (back coarse cnt : Nat) : List Int :=
  firEvery sincTaps 8 cnt (stage1 h (back + 224) coarse (8 * cnt + 21))

/-- The interpolator at 128 kSa/s behind its pad, at `cnt` positions 64 apart. -/
def interp128 (h : List Int) (back coarse pad cnt : Nat) : List Int :=
  firEvery (interpTaps (pad % 1024)) 1 cnt (stage2 h (back + 64 * (pad / 1024 + 16)) coarse (cnt + 15))

/-- The interpolator at 1.024 MSa/s behind its pad, at `cnt` positions 8 apart. -/
def interpWide (h : List Int) (back coarse pad cnt : Nat) : List Int :=
  firEvery (interpTaps (pad % 1024)) 1 cnt (stage1 h (back + 8 * (pad / 1024 + 16)) coarse (cnt + 15))

/-- The interpolator outputs that a standard chain's frame takes in; `fast` is 32 kSa/s. -/
def standardFeed (fast : Bool) (h : List Int) (coarse : Nat) (fine : Int) : List Int :=
  if fast then interp128 h 1024 coarse (padSteps 0 fine) 45 else interp128 h 4096 coarse (padSteps 1 fine) 81

/-- The 8 or 2 outputs of a standard chain's frame, in units of 2^-114 of full scale at gain index 5. -/
def standardOut (fast : Bool) (feed : List Int) : List Int :=
  if fast then firEvery (finalTaps 0 17) 4 8 feed else firEvery (finalTaps 1 65) 16 2 feed

/-- The 32 interpolator outputs whose content is one frame's, from t0 − 500 µs on: the 128 kSa/s stream that the reactive path and the
fundamental filter share (06 R149). -/
def commonStream (fast : Bool) (feed : List Int) : List Int := (feed.drop (if fast then 8 else 32)).take 32

/-- The 256 outputs of the wideband stream's frame, in units of 2^-102 of full scale at gain index 5. -/
def wideOut (h : List Int) (coarse : Nat) (fine : Int) : List Int :=
  firEvery (finalTaps 2 15) 1 256 (interpWide h 112 coarse (padSteps 2 fine) 270)

/-- The SETTLE output of a frame: the weighted mean of the window two frames before, after the coarse delay, and no state before it
(R123, Table 5.2), in units of 2^-36 of full scale at gain index 5. (log 51) -/
def settleOut (h : List Int) (coarse : Nat) : Int := dot settleTaps (h.drop (8192 - 4096 - coarse + 3))

/-! ### Samples of a frame -/

/-- The gain index that a slice held at a modulator clock. -/
def Slice.gainAt (x : Slice) (pos : Nat) : Nat :=
  match x.gains.find? (fun e => e.1 ≤ pos) with
  | some e => e.2
  | none => x.gain

/-- A slice takes a gain from a modulator clock on. -/
def Slice.takeGain (x : Slice) (pos g : Nat) : Slice := { x with gain := g, gains := (pos, g) :: x.gains, qual := 0 }

/-- Switches older than any sample in the chains are forgotten. -/
def pruneGains (horizon : Nat) : List (Nat × Nat) → List (Nat × Nat)
  | [] => []
  | e :: l => if e.1 ≤ horizon then [e] else e :: pruneGains horizon l

/-- A modulator sample is −1, 0 or +1 (04 Table 4.1). -/
def trit (b : Int) : Int := max (-1) (min 1 b)

/-- The modulator samples of a frame that began at clock `m0`, as the chains take them in. -/
def Slice.inputBits (x : Slice) (m0 : Nat) (bits : List Int) : List Int :=
  bits.mapIdx (fun i b => trit b * 2 ^ (5 - x.gainAt (m0 + i)))

/-- A chain output as a sample: s2.30 of the full scale that the slice had when the sample was taken (R122), with the gain index of that
moment and the one of its content instant (R129). `below` is the unit of the output. (log 4) -/
def Slice.sampleAt (x : Slice) (below pos : Nat) (acc : Int) : Int × Nat × Nat :=
  let g := x.gainAt pos
  (clipI 32 (divFree acc (2 ^ (below + 5 - g))), g, x.gainAt (pos - 4096))

/-- The samples of the frame that began at clock `m0`: filter code 1 standard, 2 SETTLE (R95, R124). -/
def Slice.samples (x : Slice) (filter : Nat) (fast : Bool) (m0 coarse : Nat) (feed : List Int) : List (Int × Nat × Nat) :=
  if filter = 2 then [x.sampleAt 6 (m0 + 1024) (settleOut x.bits coarse)]
  else (standardOut fast feed).mapIdx (fun i a => x.sampleAt 84 (m0 + (if fast then 256 else 1024) * i) a)

/-- The wideband samples of the frame. -/
def Slice.wideSamples (x : Slice) (m0 coarse : Nat) (fine : Int) : List (Int × Nat × Nat) :=
  (wideOut x.bits coarse fine).mapIdx (fun i a => x.sampleAt 72 (m0 + 8 * i) a)

/-! ### The 1 kSa/s path (06 R149, 03 R73) -/

/-- The taps of the anti-alias filter, 1,153 of them: what R149's 36 ms leave for it beside the Hilbert pair. (log 52) -/
def slowTaps : List Int := (List.range 1153).map (fun k => Config.slowTap (if k ≤ 576 then 576 - k else k - 576))

/-- The 1 kSa/s sample of the four frames that end with the one begun at clock `m0`: its content lies 5 ms before the start of the
four (R149, R151). -/
def Slice.slowRaw (x : Slice) (m0 : Nat) : Int × Nat × Nat :=
  let g := x.gainAt (m0 - 6144)
  (clipI 32 (divFree (dot slowTaps (x.stream.drop 32)) (2 ^ (84 + 5 - g))), g, x.gainAt (m0 - 47104))

/-- Tap at distance `d` from the centre of the fundamental filter before normalisation: a sinc of 75 Hz at 1 kSa/s under a Kaiser window
of β = 6 and 255 taps (03 R73). (log 50) -/
def fundRaw (d : Int) : Int :=
  if d = 0 then qm (qr 3 20) (kaiser 6 0 127) else qm (sinTurn (3 * d) 40) (kaiser 6 d 127) * 2 ^ 60 / (qPi * d)

/-- The 255 taps of the fundamental filter, unity gain at 0 Hz, in units of 2^-60 (03 R73). (log 50) -/
def fundTaps : List Int :=
  let raw := (List.range 255).map (fun (k : Nat) => fundRaw ((k : Int) - 127))
  let sum := raw.foldl (· + ·) 0
  raw.map (fun x => x * 2 ^ 60 / sum)

/-- A 1 kSa/s sample after steps 1 and 2, in units of 2^-35 of a volt, goes through the fundamental filter (03 R73). -/
def Slice.fundStep (x : Slice) (a : Int) : Slice :=
  let l := (a :: x.slowHist).take 255
  { x with slowHist := l, fundPrev := x.fundNow, fundNow := dot fundTaps l / 2 ^ 30 }

/-- The positive-going crossing between two fundamental-filtered samples, the later one taken in the four frames that end with frame
`n`: its content instant in node time, to 8 ns (03 R73). (log 4) -/
def crossingAt (n : Nat) (y0 y1 : Int) : Option Nat :=
  if y0 < 0 ∧ 0 ≤ y1 then
    some (8 * divFree ((n * 250000 - 133750000 : Int) * (y1 - y0) + 1000000 * (-y0)) (8 * (y1 - y0).toNat)).toNat
  else none

/-! ### Residual paths (04 R100) -/

/-- The step of a 10 Hz low-pass over 10 µs, in units of 2^-60, with the corner's tolerance. -/
def pathAlpha (corner : Nat) : Int := qOne - expQ (-(qm (qPi * 2 / 10000) (corner * 2 ^ 30)))

/-- One step of 10 µs at a slice input of `u` µV: the DC and the AC path, in units of 2^-32 µV. -/
def pathStep (a0 a1 : Int) (u : Int) (y : Int × Int) : Int × Int :=
  (y.1 + qm a0 (u * 2 ^ 32 - y.1), y.2 + qm a1 (u.natAbs * 2 ^ 32 - y.2))

/-- The gain or corner of a residual path, within the tolerance of R100: `tol` in percent. -/
def pathTol (c which tol : Nat) : Nat :=
  max (2 ^ 30 * (100 - tol) / 100) (min (2 ^ 30 * (100 + tol) / 100) (Config.residualPath c which))

/-- Comparator `k` sees its path above its threshold: 0–2 the DC path, 3–5 the AC path; the DAC has 10 bits over 1 V. -/
def pathAbove (c k thr : Nat) (y : Int × Int) : Bool :=
  let v := if k < 3 then y.1.natAbs * pathTol c 0 1 else y.2.natAbs * pathTol c 2 1
  thr * 1000000 * 2 ^ 62 < v * 1024

/-- The paths and comparators of slice `c` over its inputs, each held 10 µs, the first from the elapsed instant `at'`: how each
comparator stands above its threshold without a break (R100). -/
def residualRun (c : Nat) (a0 a1 : Int) : List Int → Nat → Slice → Slice
  | [], _, x => x
  | u :: l, at', x =>
    let y := pathStep a0 a1 u (x.dcPath, x.acPath)
    residualRun c a0 a1 l (at' + 10000) { x with
      dcPath := y.1, acPath := y.2
      aboveAt := x.comps.mapIdx (fun k m =>
        if m.en && pathAbove c k m.thr y then some ((x.aboveAt.getD k none).getD (at' + 10000)) else none) }

/-- What the residual paths tap behind the injection switch: the sensor, or the test DAC (04 R99, R114). -/
def Slice.pathInput (x : Slice) (input : List Int) : List Int :=
  match x.inject with
  | some v => input.map (fun _ => v)
  | none => input

/-- A slice's residual block over part of a frame. A blanked one stands at zero (R117). -/
def Slice.residual (c : Nat) (blank : Bool) (input : List Int) (at' : Nat) (x : Slice) : Slice :=
  if blank then { x with dcPath := 0, acPath := 0, aboveAt := List.replicate 6 none }
  else if x.comps.any (·.en) then residualRun c (pathAlpha (pathTol c 1 5)) (pathAlpha (pathTol c 3 5)) input at' x
  else { x with aboveAt := List.replicate 6 none }

end Sys2Proof.Machine
end

