-- ==== Sys2Proof/Machine/Flags.lean ====
section
/-!
DEFINITION. Flags: the bits of Table 10.5 that frames, intervals and records carry (00 R21), and the computed bits of the
host's status registers (19 Table 19.3, R461).
-/

namespace Sys2Proof.Machine

/-! ### Table 10.5 -/

abbrev flagSeam : Nat := 0
abbrev flagClip : Nat := 1
abbrev flagMismatch : Nat := 2
abbrev flagSingle : Nat := 3
abbrev flagUnaligned : Nat := 4
abbrev flagTimeStep : Nat := 5
abbrev flagModeChange : Nat := 6
abbrev flagTest : Nat := 7
abbrev flagCut : Nat := 8
abbrev flagRevoked : Nat := 9
abbrev flagUnsigned : Nat := 10
abbrev flagSubst : Nat := 11
abbrev flagMissing : Nat := 12

/-- A span takes the flags, regime and tariffs of a frame or of a shorter span (R21, R83). -/
def Span.join (a : Span) (flags missing regime tariffs : Nat) : Span :=
  { a with flags := a.flags ||| flags, missing := satAdd 32 a.missing missing, regime := max a.regime regime,
           tariffs := a.tariffs ||| tariffs }

/-! ### Host status -/

/-- INTn low (R461). -/
def State.intLow (s : State) : Bool := s.host.force || (s.host.enable && (s.host.pend &&& ~~~s.host.mask) != 0)

/-- Servo state code (Table 3.3). -/
def servoCode : ServoState → Nat
  | .free => 0
  | .acquiring => 1
  | .locked => 2
  | .mains => 3
  | .holdover => 4

/-- H_STATUS bits 7:0 (Table 19.3). -/
def State.statusLow (s : State) : Nat :=
  bitmapOf [s.host.ready, s.host.metering, s.host.capo, s.host.pause, s.failsafeLow, s.keys.regenFail, s.testing,
    s.host.hostLost]

/-- H_STATUS (Table 19.3). -/
def State.hStatus (s : State) : Nat :=
  s.statusLow + s.saf.seals * 2 ^ 8 + servoCode s.servo.state * 2 ^ 16 + s.eng.mode * 2 ^ 19

/-- H_INT_CTRL (Table 19.3). -/
def State.hIntCtrl (s : State) : Nat := bitmapOf [s.host.enable, s.host.force, s.intLow]

end Sys2Proof.Machine
end

