-- ==== Sys2Proof/Machine/Records.lean ====
section
/-!
DEFINITION. Keys and what they sign (18), the legal event log (15 R376, R377, R544), and the records: building,
signing, journal and stream (10 R254–R264).
-/

namespace Sys2Proof.Machine

/-! ### Keys -/

/-- The order of P-256's group (R427). (log 31) -/
def p256Order : Nat := 0xFFFFFFFF00000000FFFFFFFFFFFFFFFFBCE6FAADA7179E84F3B9CAC2FC632551

/-- The order of P-521's group (R427). (log 31) -/
def p521Order : Nat :=
  0x01FFFFFFFFFFFFFFFFFFFFFFFFFFFFFFFFFFFFFFFFFFFFFFFFFFFFFFFFFFFFFFFFFFFA51868783BF2F966B7FCC0148F709A5D03BB5C9B8899C47AEBB6FB71E91386409

/-- ASCII bytes of a label. -/
def ascii (x : String) : Bytes := x.toList.map (fun c => byteOf c.toNat)

/-- The derivation label of a key class, point and generation (Table 18.1). (log 31) -/
def keyLabel (cls p gen : Nat) : Bytes :=
  if cls = 1 then ascii "CARFEL-9128 NODE" ++ le 2 gen
  else if cls = 2 then ascii "CARFEL-9128 PNT" ++ [byteOf p] ++ le 2 gen
  else if cls = 4 then ascii "CARFEL-9128 TLS" ++ [byteOf p] ++ le 2 gen
  else ascii "CARFEL-9128 T20" ++ [byteOf p] ++ le 2 gen

/-- A derived private key (R427). (log 31) -/
def deriveKey (root : Bytes) (cls p gen : Nat) : Nat :=
  let n := if cls = 5 then p521Order else p256Order
  fromBe (hkdf256 (zeros 32) root (keyLabel cls p gen) (if cls = 5 then 74 else 48)) % (n - 1) + 1

/-- Generation and state of a key: class 1 node, 2 point, 4 and 5 TLS of a port. -/
def State.keyState (s : State) (cls p : Nat) : KeyState :=
  if cls = 1 then s.keys.node
  else if cls = 2 then s.keys.pts.getD p KeyState.reset
  else s.keys.tls.getD p KeyState.reset

/-- Change the generation and state of one key. -/
def State.modKey (s : State) (cls p : Nat) (f : KeyState → KeyState) : State :=
  s.modKeys (fun k =>
    if cls = 1 then { k with node := f k.node }
    else if cls = 2 then { k with pts := upd k.pts p f }
    else { k with tls := upd k.tls p f })

/-- The private key of a class, point and generation, while the root stands. -/
def State.privKey (s : State) (cls p gen : Nat) : Option Nat :=
  match s.keys.root with
  | some r => some (deriveKey r cls p gen)
  | none => none

/-- Whether a key signs what ends at `endFrame`: usable, or invalidated after it (R431). -/
def keyUsable (k : KeyState) (endFrame : Nat) : Bool := !k.invalid || endFrame < k.since

/-- The node ID (R403). -/
def State.nodeId (s : State) : Nat := s.pn ND_NODE_ID

/-! ### The legal event log -/

/-- Entries held and not acknowledged. -/
def LegalLog.unacked (l : LegalLog) : Nat :=
  (l.held.filter (fun e => match l.acked with | some a => decide (a < e.index) | none => true)).length

/-- Whether a host request that would make `n` entries leaves fewer than 64 free places (R377). -/
def State.logFull (s : State) (n : Nat) : Bool := 4096 < s.log.unacked + n + 64

/-- The bytes of an entry (Table 15.7). -/
def logBytes (index frame kind seals pid inst source tag : Nat) (old new : Bytes) (eff : Nat) : Bytes :=
  le 4 index ++ le 6 frame ++ [byteOf kind, byteOf seals] ++ le 2 pid ++ le 2 inst ++ [byteOf source, 0] ++ le 2 tag ++
    padTo 16 old ++ padTo 16 new ++ le 6 eff ++ zeros 6

/-- An entry stored: into a free place, over the earliest acknowledged entry, or nowhere (R377). -/
def LegalLog.store (l : LegalLog) (b : Bytes) : LegalLog :=
  let e : LogSlot := ⟨l.next, b, false⟩
  if l.held.length < 4096 then { l with held := l.held ++ [e], next := l.next + 1 }
  else
    match l.held with
    | o :: rest =>
      if (match l.acked with | some a => decide (o.index ≤ a) | none => false) then
        { l with held := rest ++ [e], next := l.next + 1 }
      else { l with lost := l.lost ++ [l.next], next := l.next + 1 }
    | [] => { l with next := l.next + 1 }

/-- Highest acknowledged number as status fields carry it: 0xFFFF_FFFF for none (R260). -/
def ackedField (a : Option Nat) : Nat := a.getD 0xFFFFFFFF

/-- LEGAL_LOG_NEAR_FULL (Table 19.15): `src` 0 journal, 1 legal event log. (log 30) -/
def State.nearFull (s : State) (src kind value acked : Nat) : State :=
  s.raise 61 0 ([byteOf src, byteOf kind, 0, 0] ++ le 4 value ++ le 8 s.frm ++ le 8 acked)

/-- The near-full report of the log, once until the count falls below 3,277 (R377). -/
def State.logNear (s : State) : State :=
  if !s.log.nearFull && 3687 ≤ s.log.unacked then
    (s.modLog (fun l => { l with nearFull := true })).nearFull 1 0 s.log.unacked (ackedField s.log.acked)
  else s

/-- A host request refused with LOG_FULL is reported once (Table 19.15, kind 1). -/
def State.logRefused (s : State) : State :=
  let s := s.modLog (fun l => { l with refused := inc32 l.refused })
  if s.log.fullEv then s
  else (s.modLog (fun l => { l with fullEv := true })).nearFull 1 1 s.log.unacked (ackedField s.log.acked)

/-- One entry made: stored, and pushed to the event-log stream where 16 words fit (R376, Table 19.5). -/
def State.enter (s : State) (kind pid inst source tag : Nat) (old new : Bytes) (eff seals : Nat) : State :=
  let b := logBytes s.log.next s.frm kind seals pid inst source tag old new eff
  let s := (s.modLog (fun l => l.store b)).logNear
  if 16 ≤ s.streamRoom 1 then s.writeUnit 1 (wordsOf b)
  else (s.modLog (fun l => { l with notStreamed := inc32 l.notStreamed })).unitLost 1 1

/-- Source and tag of an entry a host command makes: 1 QSPI, 2 HETH (Table 15.7). -/
def hostSrc (h : Hdr) : Nat := if h.heth then 2 else 1

/-- An entry made by a host command, effective at frame `eff`. -/
def State.enterHost (s : State) (h : Hdr) (kind pid inst : Nat) (old new : Bytes) (eff : Nat) : State :=
  s.enter kind pid inst (hostSrc h) h.tag old new eff s.saf.seals

/-- An entry made by the Capo itself. -/
def State.enterCapo (s : State) (kind pid inst : Nat) (old new : Bytes) (eff : Nat) : State :=
  s.enter kind pid inst 0 0 old new eff s.saf.seals

/-! ### Registers -/

/-- Integer part of register `i` of a point (R248). -/
def Point.int (p : Point) (i : Nat) : Nat := p.regs.getD i 0 / 2 ^ 32

/-- The 38 integer parts. -/
def Point.ints (p : Point) : List Nat := p.regs.map (fun r => r / 2 ^ 32)

/-- Displayed register: (integer part / 10^D) mod 10^9 (R250). -/
def displayed (d i : Nat) : Nat := i / 10 ^ d % 1000000000

/-- Wrap count of a record: the registers' sum, saturating at 65,535 (R251). -/
def Point.wrapSum (p : Point) : Nat := min (p.wraps.foldl (· + ·) 0) 65535

/-- Advance of register `i` over a span, from the integer parts at its start (R256). -/
def advance (now start : List Nat) (i : Nat) : Nat := now.getD i 0 - start.getD i 0

/-- A u56 field, saturating (R256). -/
def u56 (n : Nat) : Bytes := le 7 (min n (2 ^ 56 - 1))

/-- The tariffs' sum of advances at register offset `k`. -/
def advSum (now start : List Nat) (k : Nat) : Nat :=
  (List.range 8).foldl (fun a t => a + advance now start (4 * t + k)) 0

/-! ### Building a record -/

/-- Next sequence number of a series: 0–15 the points, 16 node scope (R255). -/
def State.seqNext (s : State) (series : Nat) : Nat := if series = 16 then s.recs.nodeNext else (s.pt series).seqNext

/-- Highest acknowledged number of a series (R260). -/
def State.seqAcked (s : State) (series : Nat) : Option Nat :=
  if series = 16 then s.recs.nodeAcked else (s.pt series).acked

/-- The series moves to its next number. -/
def State.bumpSeq (s : State) (series : Nat) : State :=
  if series = 16 then s.modRecs (fun r => { r with nodeNext := r.nodeNext + 1 })
  else s.modPt series (fun p => { p with seqNext := p.seqNext + 1 })

/-- A high-water line written over the older of the two (R264). -/
def State.writeLine (s : State) : State :=
  let l0 := s.led.lines.getD 0 none
  let l1 := s.led.lines.getD 1 none
  let c0 := match l0 with | some x => x.count | none => 0
  let c1 := match l1 with | some x => x.count | none => 0
  let line : HighWater := ⟨max c0 c1 + 1, (List.range 17).map s.seqNext, s.pts.map (fun p => p.ses.nextNumber)⟩
  let k := if l0.isNone then 0 else if l1.isNone then 1 else if c0 ≤ c1 then 0 else 1
  s.modLed (fun d => { d with lines := put d.lines k (some line) })

/-- The key identifier of Table 10.6. -/
def keyIdBytes (cls p gen ses : Nat) : Bytes :=
  if cls = 0 then zeros 8 else [byteOf cls, byteOf p] ++ le 2 gen ++ le 4 ses

/-- Which key a record takes: the class wanted if it is usable at the end frame, else none (R431, R433). A session
record names the generation of the point key behind its session key. -/
def State.recKey (s : State) (want p endFrame : Nat) : Nat × Nat × Nat × Nat :=
  if s.keys.regenFail || s.keys.root.isNone then (0, 0, 0, 0)
  else if want = 3 then (3, p, (s.sesOf p).keyGen, (s.sesOf p).number)
  else if keyUsable (s.keyState want p) endFrame then (want, if want = 1 then 0xFF else p, (s.keyState want p).gen, 0)
  else (0, 0, 0, 0)

/-- Bytes 0–191 of a record (Table 10.4). -/
def recHead (ty series ptype node flags seq start stop missing regime tariffs wrap : Nat) (key body : Bytes) : Bytes :=
  [1, byteOf ty, byteOf (if series = 16 then 0xFF else series), byteOf ptype] ++ le 2 (node % 4096) ++ le 2 flags ++
    le 4 seq ++ le 6 start ++ le 6 stop ++ le 4 missing ++ [byteOf regime, byteOf tariffs] ++ le 2 wrap ++ key ++
    padTo 152 body

/-- Where a record stands in the order of R38: by frame, node scope first, then the points ascending. -/
def dueBefore (a b : DueRec) : Bool :=
  a.frame < b.frame || (a.frame == b.frame && (a.series + 1) % 17 < (b.series + 1) % 17)

/-- A record put among those due, after every one that goes first or belongs to its own series (R38). -/
def insertDue (d : DueRec) : List DueRec → List DueRec
  | [] => [d]
  | x :: xs =>
    if dueBefore d x && !(xs.any (fun y => y.series == d.series)) && x.series != d.series then d :: x :: xs
    else x :: insertDue d xs

/-- Build a record (R254, R255): number, key identifier, head; it then waits for its signature. A series that has
stuck builds nothing and counts the record as lost (R253). -/
def State.build (s : State) (ty series due : Nat) (sp : Span) (stop wrap flags want : Nat) (body : Bytes) : State :=
  if s.recs.stuckSeries.contains series then s.modRecs (fun r => { r with lost := inc32 r.lost })
  else
    let seq := s.seqNext series
    let k := s.recKey want (if series = 16 then 0xFF else series) stop
    let fl := if k.1 = 0 then putBit flags 10 true else flags
    let head := recHead ty series (if series = 16 then 0 else s.ptType series) s.nodeId fl seq sp.start stop
      sp.missing sp.regime sp.tariffs wrap (keyIdBytes k.1 k.2.1 k.2.2.1 k.2.2.2) body
    let d : DueRec := ⟨series, seq, head, k.1, k.2.1, k.2.2.1, k.2.2.2, due⟩
    let s := ((s.bumpSeq series).modRecs (fun r => { r with due := insertDue d r.due, built := r.built + 1 })).writeLine
    if s.seqNext series = 2 ^ 32 - 1 then
      (s.modRecs (fun r => { r with stuckSeries := r.stuckSeries ++ [series] })).raiseRaw 18
        ([byteOf (if series = 16 then 0xFF else series), 3, 0xFF, 0] ++ zeros 4 ++ le 8 s.frm)
    else s

/-- Body of a PERIOD record (Table 10.7). -/
def periodBody (now start : List Nat) : Bytes :=
  (List.range 8).flatMap (fun t => u56 (advance now start (4 * t))) ++
  (List.range 8).flatMap (fun t => u56 (advance now start (4 * t + 1))) ++
  le 8 (min (advSum now start 2) (2 ^ 64 - 1)) ++ le 8 (min (advSum now start 3) (2 ^ 64 - 1)) ++
  le 8 (advance now start 32) ++ le 8 (advance now start 34) ++ le 8 (advance now start 35)

/-- Body of a SESSION_START record (Table 10.8). -/
def startBody (regs : List Nat) (reference : Bytes) (number by' : Nat) : Bytes :=
  (List.range 8).flatMap (fun t => le 8 (regs.getD (4 * t) 0)) ++
  (List.range 8).flatMap (fun t => le 8 (regs.getD (4 * t + 1) 0)) ++
  padTo 16 reference ++ le 4 number ++ [byteOf by']

/-- Body of a SESSION_END record (Table 10.9). -/
def endBody (now start : List Nat) (reference : Bytes) (cost stopCause endCause number currency : Nat) : Bytes :=
  (List.range 8).flatMap (fun t => u56 (advance now start (4 * t))) ++
  (List.range 8).flatMap (fun t => u56 (advance now start (4 * t + 1))) ++
  padTo 16 reference ++ le 6 (min cost (2 ^ 48 - 1)) ++ [byteOf stopCause, byteOf endCause] ++ le 4 number ++
  u56 (advSum now start 2) ++ le 2 currency

/-! ### The frames of a record (00 R21, 01 R38) -/

/-- Flags that a frame has for the whole node: UNALIGNED, TIME_STEP, MODE_CHANGE and TEST (Table 10.5). (log 53) -/
def nodeBits (flags : Nat) : Nat := flags &&& 0xF0

/-- Bytes 0–191 of a record that is not yet signed, with what one more frame of its span carries (R21, 03 R83). -/
def headJoin (h : Bytes) (flags missing regime : Nat) : Bytes :=
  h.take 6 ++ le 2 (fld h 6 2 ||| flags) ++ (h.drop 8).take 16 ++ le 4 (satAdd 32 (fld h 24 4) missing) ++
    [byteOf (max (fld h 28 1) regime)] ++ h.drop 29

/-- Frame `n` reaches the records due of a series whose span holds it (R21). -/
def State.joinDue (s : State) (series n flags missing regime : Nat) : State :=
  s.modRecs (fun r => { r with due := r.due.map (fun d =>
    if d.series = series ∧ fld d.head 12 6 ≤ n ∧ n ≤ fld d.head 18 6 then { d with head := headJoin d.head flags missing regime }
    else d) })

/-- Frame `n` of a point reaches its records: those due, and those that wait for it. -/
def State.joinRecords (s : State) (p n flags missing regime : Nat) : State :=
  (s.joinDue p n flags missing regime).modPt p (fun x => { x with late := x.late.map (fun r =>
    if r.span.start = n then { r with span := { r.span.join flags missing regime 0 with tariffs := 2 ^ x.tariff } } else r) })

/-- A record of one frame that waits for the frame and for what goes before it (R38). -/
def State.later (s : State) (ty p frame want : Nat) (body : Bytes) : State :=
  s.modPt p (fun x => { x with late := x.late ++ [⟨ty,
    { Span.reset with start := frame, regime := x.ivl.regime, tariffs := 2 ^ x.tariff }, x.wrapSum, want, body⟩] })

/-- Whether record `a` of a point goes before record `b` of it: by frame, then EVENT before SESSION_START, EVENT by kind (R38). -/
def lateBefore (a b : LateRec) : Bool :=
  a.span.start < b.span.start || (a.span.start == b.span.start &&
    (b.ty < a.ty || (a.ty == b.ty && (a.body.getD 0 0).toNat < (b.body.getD 0 0).toNat && a.ty == 4)))

/-- A record put among those of its point that wait, after those that go first. -/
def insertLate (r : LateRec) : List LateRec → List LateRec
  | [] => [r]
  | x :: xs => if lateBefore r x then r :: x :: xs else x :: insertLate r xs

/-- The records of point `p` that wait for frames up to `n` are built, in the order of R38. -/
def State.buildLate (s : State) (p n : Nat) : State :=
  let l := (s.pt p).late.foldl (fun a r => insertLate r a) []
  (l.filter (fun r => r.span.start ≤ n)).foldl
    (fun s r => s.build r.ty p r.span.start r.span r.span.start r.wrap r.span.flags r.want r.body)
    (s.modPt p (fun x => { x with late := l.filter (fun r => n < r.span.start) }))

/-- An EVENT record of a point at a frame (R257), signed by the point key. -/
def State.buildEvent (s : State) (p kind part frame : Nat) (data : Bytes) : State :=
  s.later 4 p frame 2 ([byteOf kind, byteOf part, 0, 0] ++ data)

/-- The SEAL record of a change at frame `f` (R258, Table 10.11): it covers the log entries since the previous one,
and the chain's digest and end frame move on. `flags` and `regime` are those of the moment, which join those of the frames
since the previous record (R21, 03 R83). -/
def State.buildSeal (s : State) (before after f flags regime : Nat) : State :=
  let flags := s.recs.sealFlags ||| flags
  let regime := max s.recs.sealRegime regime
  let first := s.log.sealFrom
  let last := s.log.next - 1
  let covered := (s.log.held.filter (fun e => first ≤ e.index && e.index ≤ last)).flatMap (fun e => e.bytes)
  let body := [byteOf before, byteOf after, 0, 0] ++ le 4 first ++ le 4 last ++ sha256 covered ++
    (match s.recs.sealEnd with | some _ => s.recs.sealHash | none => zeros 32)
  let start := s.recs.sealEnd.getD f
  let n := s.recs.due.length
  let s' := s.build 5 16 f { Span.reset with start := start, regime := regime } f 0 flags 1 body
  let head := match s'.recs.due.find? (fun d => d.series == 16 && d.seq == s.recs.nodeNext) with
    | some d => d.head
    | none => []
  if s'.recs.due.length = n then s'
  else (s'.modRecs (fun r => { r with
      sealEnd := some f, sealHash := sha256 head, sealsAfter := after
      sealFlags := 0, sealRegime := (s.pt 0).ivl.regime })).modLog
    (fun l => { l with sealFrom := l.next })

/-! ### Signing, journal, stream -/

/-- The keys that Table 1.6 lets an agent use, by key class: agent 1 Capo, 2 service pair; use 1–6 the record types, 7 the
certificate of a session key, 8 an attestation statement, 9 a TLS handshake (01 R34). -/
def keyAllows (agent cls use : Nat) : Bool :=
  match cls with
  | 1 => (agent == 1 && (use == 5 || use == 6)) || (agent == 2 && use == 8)
  | 2 => agent == 1 && (use == 1 || use == 3 || use == 4 || use == 7)
  | 3 => agent == 1 && (use == 1 || use == 2 || use == 3)
  | 4 | 5 => agent == 2 && use == 9
  | _ => false

/-- Bytes of a digest that a key signs: 32 for P-256, 64 for the P-521 key (01 R34). -/
def digestSize (cls : Nat) : Nat := if cls = 5 then 64 else 32

/-- A digest of `len` bytes is presented to the key unit with a key class: one that is not allowed is refused, and the refusal
counted (01 R34). -/
def State.askKey (s : State) (agent cls use len : Nat) : State :=
  if keyAllows agent cls use && len == digestSize cls then s
  else s.modKeys (fun k => { k with refusals := satAdd 32 k.refusals 1 })

/-- The signature of a record's digest, or zeros without a key that Table 1.6 allows (R254). A session record is signed by the
session key. -/
def State.signRec (s : State) (d : DueRec) : Bytes :=
  let digest := sha256 d.head
  if d.cls = 0 ∨ keyAllows 1 d.cls (fld d.head 1 1) = false then zeros 64
  else if d.cls = 3 then
    match (s.sesOf d.pt).key with
    | some k => padTo 64 (Config.ecdsaSign (fromBe k) digest)
    | none => zeros 64
  else
    match s.privKey d.cls d.pt d.gen with
    | some k => padTo 64 (Config.ecdsaSign k digest)
    | none => zeros 64

/-- Whether a slot's record is acknowledged (R260). -/
def State.slotAcked (s : State) (j : JSlot) : Bool :=
  match s.seqAcked j.series with
  | some a => j.seq ≤ a
  | none => false

/-- Journalled records not acknowledged. -/
def State.journalUnacked (s : State) : Nat := (s.recs.journal.filter (fun j => !s.slotAcked j)).length

/-- The earliest-built acknowledged slot. -/
def earliest (l : List JSlot) : Option JSlot :=
  l.foldl (fun a j => match a with | some x => if j.order < x.order then some j else some x | none => some j) none

/-- Journal a record: first free slot, else over the earliest-built acknowledged one, else withheld (R261). (log 30) -/
def State.journalRec (s : State) (d : DueRec) (bytes : Bytes) : State :=
  let s := s.modRecs (fun r => { r with built := r.built + 1 })
  let e (slot : Nat) : JSlot := ⟨slot, d.series, d.seq, bytes, s.recs.built, false⟩
  if s.recs.journal.length < 40960 then
    s.modRecs (fun r => { r with journal := r.journal ++ [e r.journal.length] })
  else
    match earliest (s.recs.journal.filter s.slotAcked) with
    | some o => s.modRecs (fun r => { r with journal := r.journal.map (fun j => if j.slot = o.slot then e o.slot else j) })
    | none => s.modRecs (fun r => { r with withheld := r.withheld ++ [(d.series, d.seq)] })

/-- Whether a record was withheld (R261). (log 30) -/
def State.isWithheld (s : State) (series seq : Nat) : Bool := s.recs.withheld.contains (series, seq)

/-- The near-full reports of the journal (R262). (log 30) -/
def State.journalNear (s : State) (d : DueRec) : State :=
  let s := if !s.recs.nearFull && 36864 ≤ s.journalUnacked then
      (s.modRecs (fun r => { r with nearFull := true })).nearFull 0 0 s.journalUnacked (ackedField (s.seqAcked d.series))
    else s
  if s.isWithheld d.series d.seq && !s.recs.withheldEv then
    (s.modRecs (fun r => { r with withheldEv := true })).nearFull 0 1 s.journalUnacked (ackedField (s.seqAcked d.series))
  else s

/-- A record to the stream: written where 64 words fit and none waits, else queued up to 32, else counted (R263). -/
def State.streamRec (s : State) (d : DueRec) (bytes : Bytes) : State :=
  if s.recs.queue.isEmpty && 64 ≤ s.streamRoom 0 then s.writeUnit 0 (wordsOf bytes)
  else if s.recs.queue.length < 32 then s.modRecs (fun r => { r with queue := r.queue ++ [bytes] })
  else
    (s.modRecs (fun r => { r with
      notStreamed := inc32 r.notStreamed
      lost := if s.isWithheld d.series d.seq then inc32 r.lost else r.lost })).unitLost 0 1

/-! ### The MRAM die (01 R35, R36) -/

/-- The areas of Table 1.7: first offset, size, and the agents that write them, by the codes of Table 22.8. -/
def mramMap : List (Nat × Nat × List Nat) :=
  [(0x000000, 0x080000, [1]), (0x080000, 0x080000, [1]), (0x100000, 0x200000, [2]), (0x300000, 0x200000, [2]),
   (0x500000, 0x040000, [1]), (0x540000, 0x040000, [1]), (0x580000, 0xA00000, [1]), (0xF80000, 0x010000, [1, 4]),
   (0xF90000, 0x020000, [1]), (0xFB0000, 0x001000, [3]), (0xFB1000, 0x001000, [3]), (0xFB2000, 0x040000, [1]),
   (0xFF2000, 0x00E000, [])]

/-- The area of an offset, the row of Table 1.7 counted from 0. -/
def mramArea (off : Nat) : Nat := (mramMap.findIdx? (fun x => decide (x.1 ≤ off ∧ off < x.1 + x.2.1))).getD 12

/-- Whether the MRAM controller lets an agent write at an offset (R35): only the agent of Table 1.7, a legal image slot only with
SEAL0 closed, and a service image slot only while it is the inactive one. (log 44) -/
def State.mayWrite (s : State) (agent off : Nat) : Bool :=
  let a := mramArea off
  (mramMap.getD a (0, 0, [])).2.2.contains agent && (2 ≤ a || s.saf.seals.testBit 0) && (4 ≤ a || a != 2 + s.fw.active)

/-- A write of an agent at an offset: a blocked one changes nothing and raises CORE_EXCEPTION with the offset, which names the
area, and the agent (R35, 22 Table 22.8). (log 44) -/
def State.writeMram (s : State) (agent off : Nat) (f : State → State) : State :=
  if s.mayWrite agent off then f s
  else s.raise 63 0 ([4, byteOf agent, 0xFF, 0xFF] ++ le 4 off ++ le 8 s.frm)

/-- MRAM_ERROR (19 Table 19.15) for a word at an offset in an area of Table 1.7. (log 44) -/
def State.mramError (s : State) (area off : Nat) : State := s.raise 60 0 ([byteOf area, 0, 0, 0] ++ le 4 off ++ le 8 s.frm)

/-- A read of the MRAM corrects what single-bit errors it meets, and counts them; how many is a free value (R36; log entry 5).
(log 44) -/
def State.repairWords (s : State) : State := (s.modPwr (fun x => { x with corrected := satAdd 32 x.corrected s.free })).bump

/-- An uncorrectable word is met in an area that begins at `first`; where is a free value (R36). (log 44) -/
def State.badWord (s : State) (area first size : Nat) : State := s.bump.mramError area (first + 8 * (s.free % (size / 8)))

/-- A read of an area of Table 1.7: single-bit errors are corrected and counted, and an uncorrectable word is reported.
Whether one is met is a free value (log entry 5). (log 44) -/
def State.readMram (s : State) (area first size : Nat) : Bool × State :=
  let bad := Config.mramBad s.clk.freeCtr
  let s := s.repairWords
  if bad then (true, s.badWord area first size) else (false, s)

/-- A boot's read of an image slot: one that does not verify may hold an uncorrectable word (R36, Table 1.8). (log 44) -/
def State.readSlot (s : State) (area first size : Nat) (ok : Bool) : State :=
  if ok then s.repairWords else (s.readMram area first size).2

end Sys2Proof.Machine
end

