-- ==== Sys2Proof/Machine/Operands.lean ====
section
/-!
DEFINITION. Checks that host commands share: seals (00 R19), room in the legal event log (15 R377), and the naming of
points, channels and other resources (20 Table 20.2).
-/

namespace Sys2Proof.Machine

/-- Go on only while a seal is closed (R19, R374); else SEALED. (log 27) -/
def withSeal (i : Nat) (k : State → Ans) (s : State) : Ans := if s.saf.seals.testBit i then k s else refuse s 7

/-- Go on only where the log keeps 64 free places after `n` entries; else LOG_FULL, which is counted and reported
(R377, Table 19.15). (log 27) -/
def withLog (n : Nat) (k : State → Ans) (s : State) : Ans :=
  if s.logFull n then ⟨s.logRefused, 11, [], []⟩ else k s

/-- A command whose payload is one point number; a number above 15 names no point. (log 27) -/
def onPoint (k : Nat → State → Ans) (p : Bytes) (s : State) : Ans :=
  if p.length ≠ 1 then refuse s 2 else if 16 ≤ fld p 0 1 then refuse s 5 else k (fld p 0 1) s

/-- A command without payload. -/
def noPayload (k : State → Ans) (p : Bytes) (s : State) : Ans := if p.length ≠ 0 then refuse s 2 else k s

/-- Every point of type IDLE state (R482). -/
def State.allIdle (s : State) : Bool := s.pts.all (fun x => x.ses.state == .idle)

/-- The point of a channel (R24). -/
def pointOf (c : Nat) : Nat := c / 8

/-- The 1-second-based period of a log2 interval in ns (Table 3.8). -/
def logNs (i : Int) : Nat := if 0 ≤ i then 1000000000 * 2 ^ i.toNat else 1000000000 / 2 ^ (-i).toNat

end Sys2Proof.Machine
end

