-- ==== Sys2Proof/Machine/Chain.lean ====
section
/-!
DEFINITION. The slices' hardware in a frame (04 R97, R104; 05 R121) and the channel fret (05): trim, calibration, DC blocks and integrator on each sample, the reactive path's
sample (06 R149), auto-gain's qualifying window (04 R104), channel limits (04 R110), clipping (04 R97, R98), and the
courses' cross-check (04 R112, R113).
-/

namespace Sys2Proof.Machine

/-! ### Parameters of the frame being processed -/

/-- Parameters that take the new type's default at a retype (09 R244, Table 9.12). (log 29) -/
def typeDependent (pid : Nat) : Bool :=
  let f := pid / 0x100
  pid == PT_OPT_ROLES || pid == PT_PATH_SW || pid == PT_SESSIONS || (0x41 ≤ f && f ≤ 0x46) || (0x4A ≤ f && f ≤ 0x4D)

/-- A parameter list without the type-dependent values of a point. (log 29) -/
def clearType (l : List (Nat × Nat × Int)) (p : Nat) : List (Nat × Nat × Int) :=
  l.filter (fun e => !(e.2.1 == p && typeDependent e.1))

/-- Values put into a parameter list in order; a change of type first clears what depends on it (R244). -/
def putAll (l : List (Nat × Nat × Int)) (es : List (Nat × Nat × Int)) : List (Nat × Nat × Int) :=
  let retypes := es.filter (fun e => e.1 == PT_TYPE && (typeIn l e.2.1 : Int) != e.2.2)
  let l := retypes.foldl (fun a e => putP (clearType a e.2.1) PT_TYPE e.2.1 0 e.2.2) l
  es.foldl (fun a e => putP a e.1 e.2.1 (defaultOf e.1 (typeFor a e.1 e.2.1)) e.2.2) l

/-- Values of a retyped point that were accepted with its retype or since, and wait for nothing else: they stand under the new
type (R244). -/
def ParamStore.keptValues (x : ParamStore) (l : List (Nat × Nat × Int)) : List (Nat × Nat × Int) :=
  (l.filter (fun e => e.1 == PT_TYPE && (typeIn x.active e.2.1 : Int) != e.2.2)).flatMap (fun e =>
    x.stored.filter (fun v => v.2.1 == e.2.1 && typeDependent v.1 &&
      !(x.staged.any (fun y => !y.ripe && y.pid == v.1 && y.inst == v.2.1))))

/-- The values that a boundary has made ripe. -/
def ParamStore.ripeValues (x : ParamStore) : List (Nat × Nat × Int) :=
  let l := (x.staged.filter (fun e => e.ripe)).map (fun e => (e.pid, e.inst, e.val))
  x.keptValues l ++ l

/-- The state as the parameters staged for the boundary that has passed leave it: what governs the samples of the frame
being processed (02 R46). -/
def State.ripened (s : State) : State := s.modPar (fun x => { x with active := putAll x.active x.ripeValues })

/-! ### Roles and slots -/

/-- An electrical type (R140). -/
def isElec (ty : Nat) : Bool := ty == 1 || ty == 2 || ty == 3

/-- A fluid type. -/
def isFluid (ty : Nat) : Bool := 4 ≤ ty && ty ≤ 7

/-- Voltage roles that a wiring uses, by the slot of Table 9.2 (Table 6.1). -/
def voltSlots (wiring : Nat) : List Nat := if wiring = 1 then [0, 1, 2] else if wiring = 2 then [0, 2] else [0]

/-- Current roles that a wiring uses. -/
def currSlots (wiring : Nat) : List Nat := if wiring = 1 then [4, 5, 6] else if wiring = 2 then [4, 6] else [4]

/-- Phase of a current slot: 1–3. -/
def phaseOf (slot : Nat) : Nat := if slot < 4 then slot + 1 else slot - 3

/-- Slot on which a role of Table 9.2 or 8.1 is read in COURSED mode (Table 9.3). -/
def courseSlot (ty role : Nat) : Option Nat :=
  if ty = 1 ∨ ty = 2 then
    (if role = 0 then some 0 else if role = (if ty = 1 then 3 else 1) then some 2 else if role = 4 then some 4
     else if role = 7 then some 6 else none)
  else if ty = 3 then (if role = 0 ∨ role = 2 ∨ role = 4 ∨ role = 6 then some role else none)
  else if role = 0 then some 0
  else if role = 2 then some 2
  else if role = 1 then some 4
  else if role = 3 ∧ (ty = 4 ∨ ty = 7) then some 6
  else none

/-- Channel that carries a role of point `p` in the running mode (R222). -/
def State.roleChan (s : State) (p role : Nat) : Option Nat :=
  if s.eng.mode = 1 then (courseSlot (s.ptType p) role).map (fun k => 8 * p + k) else some (8 * p + role)

/-- Voltage and current roles of an electrical point: those the wiring uses and an outlet's optional voltage in use
(Table 9.2). -/
def State.vAndI (s : State) (p : Nat) : List Nat :=
  let w := s.pn PT_WIRING p
  let opt := if s.ptType p = 1 then 3 else 1
  voltSlots w ++ currSlots w ++ (if (s.ptType p = 1 ∨ s.ptType p = 2) ∧ (s.pn PT_OPT_ROLES p).testBit opt then [opt] else [])

/-- Slots of the fluid roles of a type that carry a temperature (08 Table 8.1). -/
def tempSlots (ty : Nat) : List Nat := if ty = 4 then [1, 3] else if ty = 7 then [0, 1] else [1]

/-- Slots of the fluid roles of a type that carry a pressure (08 Table 8.1). -/
def pressSlots (ty : Nat) : List Nat := if ty = 4 then [0, 4] else if ty = 7 then [3, 4] else [0]

/-- Slots with a fluid role (08 Table 8.1): slot 2 only while PT_FL_FLOW_SRC selects an orifice or a transmitter. -/
def State.fluidSlots (g : State) (p : Nat) : List Nat :=
  if isFluid (g.ptType p) then
    tempSlots (g.ptType p) ++ pressSlots (g.ptType p) ++ (if g.pn PT_FL_FLOW_SRC p = 2 then [] else [2])
  else []

/-- Input kind of a slot (08 Table 8.2). -/
def State.inputKind (g : State) (p k : Nat) : Nat := g.pn (PT_FL_INPUT_0 + k) p

/-- A role in use: a slot with a fluid role and an input, which a course reads in COURSED mode (08 R187, 09 R221). -/
def State.roleUsed (g : State) (p k : Nat) : Bool :=
  (g.fluidSlots p).contains k && g.inputKind p k != 0 && (g.roleChan p k).isSome

/-- Excitation level that applies to point `p` (04 R107, R120): 0 off, 1 250 µA, 2 1 mA; a point without an RTD role idles
its source. -/
def State.excLevel (g : State) (p : Nat) : Nat :=
  if (tempSlots (g.ptType p)).any (fun k => g.roleUsed p k && g.inputKind p k == 3) then
    g.pn ND_EXC_LEVELS / 4 ^ p % 4
  else 0

/-- The roles in use of a point (09 R220, 08 R187): those of its wiring, the residual current of an outlet, optional ones with their bit,
and fluid roles with an input. -/
def State.rolesInUse (g : State) (p : Nat) : List Nat :=
  let ty := g.ptType p
  if isElec ty then
    g.vAndI p ++ (if ty = 1 ∨ (ty = 2 ∧ (g.pn PT_OPT_ROLES p).testBit 7 = true) then [7] else [])
  else (g.fluidSlots p).filter (g.roleUsed p)

/-- Slots of point `p` that are assigned: those that carry a role in use, both of a course in COURSED mode (R220, Table 9.3). -/
def State.assignedSlots (g : State) (p : Nat) : List Nat :=
  let l := ((g.rolesInUse p).filterMap (g.roleChan p)).map (· % 8)
  if g.eng.mode = 1 then l.flatMap (fun k => [k, k + 1]) else l

/-- A channel that serves as an auxiliary channel: its slot is unassigned (01 R27). -/
def State.auxChannel (g : State) (c : Nat) : Bool := g.pb CH_AUX c && !(g.assignedSlots (pointOf c)).contains (c % 8)

/-- Channel `c` carries a voltage or current role of its point. -/
def State.carriesVI (s : State) (c : Nat) : Bool :=
  isElec (s.ptType (pointOf c)) && (s.vAndI (pointOf c)).any (fun r => s.roleChan (pointOf c) r == some c)

/-! ### Samples -/

/-- Output rate of a channel in samples a second (Table 4.3). -/
def State.rate (s : State) (c : Nat) : Nat :=
  if s.pn CH_FILTER c = 2 then 4000 else if s.eng.mode = 3 then 8000 else 32000

/-- Steps 1 and 2 of Table 5.3: each product formed exactly and rounded once, ties to even. `cal` is the channel whose
calibration governs (R130). -/
def State.calibrate (s : State) (slice cal : Nat) (x : Int) (g : Nat) : Int :=
  let x1 := clipI 32 (divHalfEven ((x - Config.trimOffset slice g) * Config.trimGain slice g) (2 ^ 30))
  clipI 32 (divHalfEven ((2 * x1 - s.pv (CH_CAL_OFFSET_G0 + g) cal) * s.pv (CH_CAL_GAIN_G0 + g) cal) (2 ^ 31))

/-- A filter state rescaled from one gain index to another: an exact shift (R105). -/
def regain (old new : Nat) (x : Int) : Int := if old ≤ new then x * 2 ^ (new - old) else x / 2 ^ (old - new)

/-- The filter state of a slice rescaled to the gain index of the next sample (R105). -/
def Slice.toGain (x : Slice) (g : Nat) : Slice :=
  if x.stateG = g then x
  else { x with stateG := g, m1 := x.m1.map (regain x.stateG g), m2 := x.m2.map (regain x.stateG g),
                v := regain x.stateG g x.v, xPrev := regain x.stateG g x.xPrev, rv := regain x.stateG g x.rv,
                rxPrev := regain x.stateG g x.rxPrev, rm := x.rm.map (regain x.stateG g) }

/-- One sample through a DC block (R132, R135): the output in s2.30 (R122) and the offset estimate after it. (log 4) -/
def dcStep (alpha : Nat) (frozen : Bool) (x m : Int) : Int × Int :=
  let d := x * 2 ^ 32 - m
  (clipI 32 (divFree d (2 ^ 32)), if frozen then m else m + divFree (alpha * d) (2 ^ 32))

/-- One sample through the integrator (R136): K has 48 fraction bits, and v 32 bits below s2.30. (log 4) -/
def integStep (k : Nat) (x xPrev v : Int) : Int := v + divFree (k * (x + xPrev) * 2 ^ 32) (2 ^ 49)

/-- Mean of samples with 32 extra fraction bits. -/
def meanOf (l : List Int) : Int := if l.isEmpty then 0 else divFree (l.foldl (· + ·) 0 * 2 ^ 32) l.length

/-- Mean of samples with 32 extra fraction bits at the gain index of the first of them: where an offset estimate starts
(R132). -/
def startMean (l : List (Int × Nat)) : Int :=
  match l with
  | [] => 0
  | a :: _ => meanOf (l.map (fun x => regain x.2 a.2 x.1))

/-- What steps 3 to 5 of Table 5.3 need of a channel: the corner, whether the blocks are frozen, the integrator's code,
whether the second block applies, and the sample rate. -/
structure ChainSet where
  corner : Nat
  frozen : Bool
  integ : Nat
  second : Bool
  fs : Nat
deriving DecidableEq, Repr

/-- A DC block over the samples of a frame: the estimate `m`, scaled to gain index `g`, follows every switch (R105). Answers the
outputs and the estimate at the gain index of the last sample. -/
def dcRun (alpha : Nat) (frozen : Bool) : List (Int × Nat) → Nat → Int → List (Int × Nat) × Int
  | [], _, m => ([], m)
  | (x, gx) :: l, g, m =>
    let r := dcStep alpha frozen x (regain g gx m)
    let rest := dcRun alpha frozen l gx r.2
    ((r.1, gx) :: rest.1, rest.2)

/-- The integrator over the samples of a frame: outputs, last input and v at the gain index of the last sample. -/
def integRun (k : Nat) : List (Int × Nat) → Nat → Int → Int → List (Int × Nat) × Int × Int
  | [], _, xp, v => ([], xp, v)
  | (x, gx) :: l, g, xp, v =>
    let v' := integStep k x (regain g gx xp) (regain g gx v)
    let rest := integRun k l gx x v'
    ((clipI 32 (divFree v' (2 ^ 32)), gx) :: rest.1, rest.2)

/-- Steps 3 to 5 of Table 5.3 over the samples of a frame (R132–R136). An estimate that has none yet starts at the frame mean. Where
an integrator begins on a running channel it goes on from v and the input that State holds. (log 53) -/
def Slice.chain (k : ChainSet) (l : List (Int × Nat)) (x : Slice) : Slice :=
  let g := match l with | a :: _ => a.2 | [] => x.stateG
  let x := x.toGain g
  let r3 := if k.corner = 0 then (l, none)
    else
      let r := dcRun (dcAlpha k.corner k.fs) k.frozen l g (x.m1.getD (startMean l))
      (r.1, some r.2)
  let r4 := if k.integ = 0 then (r3.1, x.xPrev, x.v) else integRun (integK k.integ k.fs) r3.1 g x.xPrev x.v
  let r5 := if !k.second then (r4.1, none)
    else
      let r := dcRun (dcAlpha k.corner k.fs) k.frozen r4.1 g (x.m2.getD (startMean r4.1))
      (r.1, some r.2)
  let last := match l.getLast? with | some a => a.2 | none => g
  let y := { x with xPrev := regain g last x.xPrev, v := regain g last x.v, rv := regain g last x.rv
                    rxPrev := regain g last x.rxPrev, rm := x.rm.map (regain g last) }
  { y with out := r5.1, m1 := r3.2, m2 := r5.2, stateG := last
           xPrev := if k.integ = 0 then y.xPrev else r4.2.1, v := if k.integ = 0 then y.v else r4.2.2 }

/-- The frame being processed lies in TRANSFERRING of its point, from the first frame after its entry to the frame in which the point
leaves it (R135). -/
def State.inTransfer (s : State) (p : Nat) : Bool :=
  let x := s.sesOf p
  (x.state == .transferring && decide (x.since ≤ s.frm)) || (match x.xferTo with | some f => decide (s.frm ≤ f) | none => false)

/-- Steps 3 to 5 of the settings of a channel; `cal` is the channel whose parameters govern (R111, R134). -/
def State.chainSet (s : State) (cal : Nat) : ChainSet :=
  let p := pointOf cal
  let frz := s.pn CH_DCB_FREEZE cal
  let peers := if s.carriesVI cal then (s.vAndI p).filterMap (s.roleChan p) else [cal]
  { corner := s.pn CH_DC_BLOCK cal
    frozen := frz == 1 || (frz == 2 && s.inTransfer p)
    integ := s.pn CH_INTEGRATOR cal
    second := peers.any (fun c => s.pn CH_INTEGRATOR c != 0)
    fs := s.rate cal }

/-- One sample of the reactive path (R149) after steps 1 and 2, with its gain index: the integrator at 1 kSa/s, then the second DC
block; the result in units of 2^-35 V. -/
def Slice.slowStages (k : ChainSet) (a : Int) (g : Nat) (x : Slice) : Slice :=
  let x := x.toGain g
  let v := if k.integ = 0 then x.rv else integStep (integK k.integ 1000) a x.rxPrev x.rv
  let b := if k.integ = 0 then a else clipI 32 (divFree v (2 ^ 32))
  let m := x.rm.getD (b * 2 ^ 32)
  let r := if k.second then dcStep (dcAlpha k.corner 1000) k.frozen b m else (b, m)
  { x with rxPrev := a, rv := v, rm := if k.second then some r.2 else none, rOut := some (r.1 * 2 ^ (5 - g)) }

/-! ### The slices' hardware in a frame -/

/-- 32 kSa/s rather than 8 kSa/s on the standard filter (Table 4.3). -/
def State.fast (g : State) : Bool := g.eng.mode != 3

/-- The channel whose parameters govern a slice: 2j for both slices of a course (R111). -/
def State.governs (s : State) (c : Nat) : Nat := if s.eng.mode = 1 then c / 2 * 2 else c

/-- A slice is powered (R92): a filter is configured or waits for its boundary, or a comparator of it is armed. -/
def State.slicePowered (s g : State) (c : Nat) : Bool :=
  let cal := g.governs c
  g.pn CH_FILTER cal != 0 || s.par.staged.any (fun e => e.pid == CH_FILTER && e.inst == cal && e.val != 0) ||
    (s.slice c).comps.any (·.en)

/-- The wideband stream of a slice runs (R121, Table 2.8). -/
def State.wideOn (g : State) (c : Nat) : Bool := g.eng.mode == 2 && g.pb CH_WIDEBAND c && g.pn CH_FILTER c == 1

/-- The qualifying window of R104 over output samples with their positions: consecutive samples after the last switch at g_lo, below
4 % of full scale; with it the sign of the last sample, and whether that sample changed it. -/
def Slice.qualify (gLo : Nat) (l : List (Nat × Int × Nat)) (x : Slice) : Slice × Bool :=
  let from' := match x.gains with | e :: _ => e.1 | [] => 0
  l.foldl (fun (y : Slice × Bool) a =>
    let sign : Int := if a.2.1 < 0 then -1 else if 0 < a.2.1 then 1 else y.1.lastSign
    ({ y.1 with
        qual := if a.1 < from' then y.1.qual else if a.2.2 = gLo ∧ 25 * a.2.1.natAbs < 2 ^ 30 then y.1.qual + 1 else 0
        lastSign := sign }, y.1.lastSign != 0 && sign != y.1.lastSign)) (x, false)

/-- Modulator clocks from one output sample to the next (Table 4.3). -/
def oversampling (filter : Nat) (fast : Bool) : Nat := if filter = 2 then 2048 else if fast then 256 else 1024

/-- Output samples with the clocks at which they were taken. -/
def placed (m0 step first : Nat) (l : List (Int × Nat × Nat)) : List (Nat × Int × Nat) :=
  l.mapIdx (fun i a => (m0 + first + step * i, a.1, a.2.1))

/-- The samples that a slice's chain gives over the clocks from `m0`, with their clocks. -/
def State.placedSamples (g : State) (c m0 : Nat) (x : Slice) (feed : List Int) : List (Nat × Int × Nat) :=
  let cal := g.governs c
  let f := g.pn CH_FILTER cal
  placed m0 (oversampling f g.fast) (if f = 2 then 1024 else 0) (x.samples f g.fast m0 (g.pn CH_COARSE_DELAY cal) feed)

/-- The interpolator outputs that a channel's standard chain takes in. -/
def State.feedOf (g : State) (c : Nat) (h : List Int) : List Int :=
  let cal := g.governs c
  if g.pn CH_FILTER cal = 1 then standardFeed g.fast h (g.pn CH_COARSE_DELAY cal) (g.pv CH_FINE_DELAY cal) else []

/-- Clocks of a frame in which one of some stretches lies, one bit for each output sample of `step` clocks. -/
def clipBits (step : Nat) (l : List (Nat × Nat)) : Nat :=
  mapOf (2048 / step) ((List.range (2048 / step)).filter (fun i => l.any (fun r => r.1 < i * step + step && i * step < r.2)))

/-- The hardware of slice `c` over the frame begun at clock `m0` (05 R121–R127, 04 R96, R97): its modulator samples into the chain,
the chain's outputs, the clipped samples, and auto-gain's window. -/
def State.sliceHardware (s g : State) (c : Nat) (o : ChanObs) (x : Slice) : Slice :=
  let m0 := s.clk.mclk
  let cal := g.governs c
  let f := g.pn CH_FILTER cal
  let x := { x with gains := pruneGains (m0 - 49152) x.gains }
  let bits := lastN 10240 (x.bits ++ x.inputBits m0 ((o.bits ++ List.replicate 2048 0).take 2048))
  let feed := g.feedOf c bits
  let x := { x with bits := bits, stream := if f = 1 then lastN 1312 (x.stream ++ commonStream g.fast feed) else [] }
  let step := oversampling f g.fast
  let again := x.restarts.map (fun r => (r - m0, r + 16 - m0))
  let x := { x with
    raw := if f = 0 then [] else x.samples f g.fast m0 (g.pn CH_COARSE_DELAY cal) feed
    wideRaw := if g.wideOn c then x.wideSamples m0 (g.pn CH_COARSE_DELAY cal) (g.pv CH_FINE_DELAY cal) else []
    clipMap := if f = 0 then 0 else clipBits step (o.clips ++ o.common ++ again)
    clipCause := if f = 0 then 0 else
      b2n (clipBits step o.clips != 0) + 2 * b2n (clipBits step o.common != 0) + 4 * b2n (clipBits step again != 0)
    restarts := x.restarts.filter (fun r => m0 + 2048 < r + 16) }
  (x.qualify (g.pn CH_GAIN c % 8) (placed m0 step (if f = 2 then 1024 else 0) x.raw)).1

/-- Whether a slice's residual block is blanked in the frame (R117). (log 17) -/
def State.blanked (s : State) (c : Nat) : Bool := match (s.slice c).blankTo with | some f => s.frm < f | none => false

/-- The hardware of every slice over the frame that ends: chains of the powered slices, and the residual blocks. -/
def State.hardware (s g : State) (obs : FrameObs) : State :=
  let l := s.slices.mapIdx (fun c x =>
    let o := match obs.chans.find? (fun o => o.chan == c) with | some o => o | none => ⟨c, [], [], [], []⟩
    let x := if s.slicePowered g c then s.sliceHardware g c o x
      else { x with bits := [], stream := [], raw := [], wideRaw := [], clipMap := 0, clipCause := 0, restarts := [] }
    x.residual c (s.blanked c) (x.pathInput o.input) s.clk.lastTick)
  s.modSlices (fun _ => l)

/-! ### Per-frame checks of a channel -/

/-- A mean of a frame in µV (R110): samples in s2.30 with their gain index. -/
def microvolts (l : List (Int × Nat)) : Int :=
  if l.isEmpty then 0
  else clipI 32 (divFree (l.foldl (fun a x => a + x.1 * 2 ^ (5 - x.2)) 0 * 1000000) (l.length * 2 ^ 35))

/-- The runs outside and inside the channel limits (R110). -/
def State.limitRuns (s : State) (cal : Nat) (x : Slice) : Slice :=
  if x.mean < s.pv CH_LIMIT_LO cal then { x with outRun := x.outRun + 1, outSide := 0, inRun := 0 }
  else if s.pv CH_LIMIT_HI cal < x.mean then { x with outRun := x.outRun + 1, outSide := 1, inRun := 0 }
  else { x with inRun := x.inRun + 1, outRun := 0 }

/-- CHANNEL_CLIP (R98, Table 19.13) for channel `c`, unless it was raised within CH_CLIP_HOLDOFF: causes, clipped samples, samples of the
frame, and the gain index at the first clipped one. -/
def State.clipEvent (s : State) (c causes clipped all gain : Nat) : State :=
  let x := s.slice c
  if ripeAt x.clipDue s.clk.up ∨ x.clipDue.isNone then
    (s.modSlice c (fun x => { x with
      clipHeld := 0, clipDue := some (s.clk.up + s.pn CH_CLIP_HOLDOFF c * 1000000000) })).raise 25 c
      ([byteOf c, byteOf (pointOf c), byteOf causes, byteOf gain] ++ le 2 clipped ++ le 2 all ++
        le 8 s.frm ++ le 4 x.clipHeld ++ zeros 8)
  else s.modSlice c (fun x => { x with clipHeld := inc32 x.clipHeld })

/-- The wideband samples of the last two frames after steps 1 and 2 (07 R178). -/
def State.wideNext (g : State) (c : Nat) (x : Slice) : List (Int × Nat) :=
  if x.wideRaw.isEmpty then []
  else x.wide.drop (x.wide.length - 256) ++ x.wideRaw.map (fun a => (g.calibrate c (g.governs c) a.1 a.2.2, a.2.1))

/-- The 1 kSa/s sample of the four frames that end with frame `n` (R149, R151): through steps 1 and 2 to the fundamental filter, and, in
a frame that is valid for the channel, through the reactive path's stages. (log 52) -/
def State.slowFrame (s g : State) (c n : Nat) (x : Slice) : Slice :=
  let cal := g.governs c
  if n % 4 ≠ 3 ∨ g.pn CH_FILTER cal ≠ 1 then x
  else
    let r := x.slowRaw s.clk.mclk
    let a := g.calibrate c cal r.1 r.2.2
    let x := x.fundStep (a * 2 ^ (5 - r.2.1))
    if x.invalid then x else x.slowStages (g.chainSet cal) a r.2.1

/-- One slice's fret work in frame `n`: a channel without a filter keeps no filter state; an invalid one keeps its state of the last
completed frame (Table 5.4). (log 39) -/
def State.sliceFrame (s g : State) (n c : Nat) (x : Slice) : Slice :=
  let cal := g.governs c
  if g.pn CH_FILTER cal = 0 then
    { x with out := [], cal := [], wide := [], m1 := none, m2 := none, rm := none, configured := false, slowHist := [],
             fundPrev := 0, fundNow := 0, clip := 0, mean := 0, cmean := 0 }
  else
    let x := if x.configured then x else { x with
      m1 := none, m2 := none, v := 0, xPrev := 0, rm := none, rv := 0, rxPrev := 0, configured := true }
    let x := s.slowFrame g c n { x with wide := g.wideNext c x }
    if x.invalid then { x with out := [], cal := [], clip := 0 }
    else
      let smp := x.raw.map (fun a => (g.calibrate c cal a.1 a.2.2, a.2.1))
      let x := x.chain (g.chainSet cal) smp
      { x with cal := smp, mean := microvolts smp, cmean := startMean smp, clip := (bitsOf 256 x.clipMap).length }

/-! ### Courses -/

/-- Sum of squares at 35 fraction bits of a volt, so that slices of different gains compare (R112). (log 4) -/
def scaled (l : List (Int × Nat)) : List Int := l.map (fun (a : Int × Nat) => a.1 * (2 ^ (5 - a.2) : Nat))

/-- RMS of scaled samples. (log 4) -/
def rmsOf (l : List Int) : Nat := if l.isEmpty then 0 else isqrt (l.foldl (fun a x => a + x.natAbs ^ 2) 0 / l.length)

/-- Mean of scaled samples. -/
def avgOf (l : List Int) : Int := if l.isEmpty then 0 else divFree (l.foldl (· + ·) 0) l.length

/-- Larger of the mean and RMS differences of the two slices of a course, in units of 2^-35 V (R112). -/
def courseDiff (a b : List (Int × Nat)) : Nat :=
  let x := scaled a
  let y := scaled b
  max (avgOf x - avgOf y).natAbs ((rmsOf x : Int) - rmsOf y).natAbs

/-- CH_COURSE_TOL of full scale at g_lo of channel 2j, in units of 2^-35 V times 10,000. -/
def State.courseTol (s : State) (j : Nat) : Nat := s.pn CH_COURSE_TOL (2 * j) * 2 ^ (35 - s.pn CH_GAIN (2 * j) % 8)

/-- A difference in parts per million of full scale at g_lo. -/
def State.coursePpm (s : State) (j d : Nat) : Nat := min (d * 1000000 / 2 ^ (35 - s.pn CH_GAIN (2 * j) % 8)) (2 ^ 32 - 1)

/-- The sample-by-sample mean of two slices, at the lower of the two gain indices. -/
def courseMean : List (Int × Nat) → List (Int × Nat) → List (Int × Nat)
  | (a, ga) :: l, (b, gb) :: r =>
    let g := min ga gb
    (divFree (a * (2 ^ (5 - ga) : Nat) + b * (2 ^ (5 - gb) : Nat)) (2 * 2 ^ (5 - g)), g) :: courseMean l r
  | _, _ => []

/-- State code of a course (Table 19.13). -/
def courseCode : CourseState → Nat
  | .agreed => 0
  | .mismatched => 1
  | .diagnosing => 2
  | .single => 3
  | .unresolved => 4

/-- COURSE_MISMATCH (Table 19.13). -/
def State.courseEvent (s : State) (j amount : Nat) : State :=
  let x := s.course j
  s.raiseRaw 24 ([byteOf (2 * j), byteOf (j / 4), byteOf (courseCode x.state), byteOf x.verdict] ++ le 4 amount ++
    le 8 s.frm ++ x.errs.flatMap (leI 4))

/-- Which slice a course under diagnosis uses in frame `n`: the one not under test (Table 4.8). -/
def State.testedSlice (s : State) (j n : Nat) : Option Nat :=
  match s.eng.diag with
  | some d => if d.course = j ∧ d.first ≤ n then (if n < d.first + 16 then some 1 else some 0) else none
  | none => none

/-- What a course gives in frame `n` of something that both its slices have (Table 4.7). -/
def State.courseOf {α : Type} (s : State) (j n : Nat) (f : Slice → α) (mean : α → α → α) : α :=
  let a := f (s.slice (2 * j))
  let b := f (s.slice (2 * j + 1))
  match (s.course j).state with
  | .single => if (s.course j).good = 0 then a else b
  | .diagnosing =>
    (match s.testedSlice j n with
    | some k => if k = 0 then b else a
    | none => mean a b)
  | _ => mean a b

/-- The value of a course in frame `n`. -/
def State.courseOut (s : State) (j n : Nat) : List (Int × Nat) := s.courseOf j n (·.out) courseMean

/-- The reactive-path sample of a course. -/
def State.courseSlow (s : State) (j n : Nat) : Option Int :=
  s.courseOf j n (·.rOut) (fun a b => match a, b with | some x, some y => some (divFree (x + y) 2) | _, _ => none)

/-- The cross-check of course `j` in a frame (R112, R113), over the calibrated samples: the runs, and MISMATCHED at the eighth
mismatched frame, when the course joins the diagnosis queue and has no verdict yet. -/
def State.crossCheck (s g : State) (j : Nat) : State :=
  let a := (s.slice (2 * j)).cal
  let b := (s.slice (2 * j + 1)).cal
  let st := (s.course j).state
  if g.pn CH_FILTER (2 * j) = 0 ∨ st = .single ∨ st = .diagnosing then s
  else
    let d := courseDiff a b
    if 10000 * d ≤ g.courseTol j then
      s.modCourse j (fun x => { x with misRun := 0, okRun := min 4000 (x.okRun + 1) })
    else
      let s := s.modCourse j (fun x => { x with misRun := min 8 (x.misRun + 1), okRun := 0 })
      if st = .agreed ∧ (s.course j).misRun = 8 then
        ((s.modCourse j (fun x => { x with state := .mismatched, verdict := 0, errs := [0, 0, 0, 0] })).modEng (fun e => { e with
          diagQueue := e.diagQueue ++ [j] })).courseEvent j (g.coursePpm j d)
      else s

/-- Flags of a course's frame (Table 4.7). -/
def courseFlags : CourseState → Nat
  | .agreed => 0
  | .single => 2 ^ flagSingle
  | _ => 2 ^ flagMismatch

/-- A channel's clipping, and its mean against its limits (R98, R110): of the course under channel 2j in COURSED mode (R24). -/
def State.channelChecks (s g : State) (n c : Nat) : State :=
  let x := s.slice c
  if x.invalid ∨ g.pn CH_FILTER c = 0 then s
  else if g.eng.mode = 1 then
    let y := s.slice (c + 1)
    let both := x.clipMap ||| y.clipMap
    let first := (bitsOf 256 both).headD 0
    let s := s.modSlice c (fun z => g.limitRuns c { z with
      mean := microvolts (s.courseOf (c / 2) n (·.cal) courseMean) })
    if both = 0 then s
    else s.clipEvent c (x.clipCause ||| y.clipCause) (bitsOf 256 both).length x.raw.length
      ((if x.clipMap.testBit first then x else y).raw.getD first (0, 0, 0)).2.1
  else
    let s := s.modSlice c (fun z => g.limitRuns c z)
    if x.clipMap = 0 then s
    else s.clipEvent c x.clipCause x.clip x.raw.length (x.raw.getD ((bitsOf 256 x.clipMap).headD 0) (0, 0, 0)).2.1

/-- The samples of a role of point `p` in frame `n` after step 5, with their gain index. -/
def State.roleOut (s : State) (p role n : Nat) : List (Int × Nat) :=
  match s.roleChan p role with
  | some c => if s.eng.mode = 1 then s.courseOut (c / 2) n else (s.slice c).out
  | none => []

/-- The reactive-path sample of a role. -/
def State.roleSlow (s : State) (p role n : Nat) : Option Int :=
  match s.roleChan p role with
  | some c => if s.eng.mode = 1 then s.courseSlow (c / 2) n else (s.slice c).rOut
  | none => none

/-- The last two fundamental-filtered samples of a channel, of the course in COURSED mode (03 R73). -/
def State.fundOf (s : State) (c n : Nat) : Int × Int :=
  let pair (x : Slice) : Int × Int := (x.fundPrev, x.fundNow)
  if s.eng.mode = 1 then s.courseOf (c / 2) n pair (fun a b => (a.1 + b.1, a.2 + b.2)) else pair (s.slice c)

/-- The crossing of a channel that its filter's last sample shows, in frames n mod 4 = 3 (03 R73): only on the standard filter. -/
def State.crossingOf (s g : State) (c n : Nat) : Option Nat :=
  if n % 4 ≠ 3 ∨ g.pn CH_FILTER (g.governs c) ≠ 1 then none
  else
    let y := s.fundOf c n
    crossingAt n y.1 y.2

end Sys2Proof.Machine
end

