-- ==== Sys2Proof/Machine/Energy.lean ====
section
/-!
DEFINITION. Electrical energy (06): primary units, phase powers, the release lines, the reactive path, RMS values and
frequency, the frame energies handed over, the energy readings, and the meter pulse outputs.
-/

namespace Sys2Proof.Machine

/-! ### Corrections -/

/-- π² with 48 fraction bits. -/
def piSquared48 : Nat := 2778046668940015

/-- R_int(h · f) of R136 with 48 fraction bits: x · cot x for x = π h f / fs, by its power series, with the period T in ns
(log entry 4). -/
def rInt (T fs h : Nat) : Nat :=
  let x2 := piSquared48 * (1000000000 * h) ^ 2 / (T * fs) ^ 2
  let p (k : Nat) := x2 ^ k / 2 ^ (48 * (k - 1))
  2 ^ 48 - (x2 / 3 + p 2 / 45 + 2 * p 3 / 945 + p 4 / 4725 + 2 * p 5 / 93555 + 1382 * p 6 / 638512875 +
    4 * p 7 / 18243225)

/-- 1 / G_dc(h · f)² = 1 + (fc / (h f))² as numerator over denominator, for a corner code and the period T in ns (R132). -/
def dcInv (corner T h : Nat) : Nat × Nat :=
  let c := [0, 1, 2, 4].getD corner 0
  (4 * 10 ^ 18 * h * h + c * c * T * T, 4 * 10 ^ 18 * h * h)

/-- How many DC-block stages a channel has (R133, R134). -/
def dcStages (k : ChainSet) : Nat := b2n (k.corner != 0) + b2n k.second

/-! ### Primary units -/

/-- The primary value of a sample in units of 2^-47 (R140). -/
def primary (ratio : Nat) (a : Int × Nat) : Int := a.1 * ratio * (2 ^ (5 - a.2) : Nat)

/-- One product of R142: exact, shifted by the gain indices, scaled by both ratios, and rounded once, ties to even, to
s32.32 W; a product beyond that format saturates (log entry 53). -/
def product (ru ri : Nat) (u i : Int × Nat) : Int :=
  clipI 64 (divHalfEven (u.1 * i.1 * (ru * ri : Nat)) (2 ^ (52 + u.2 + i.2)))

/-- Pair the samples of two roles; a role with one SETTLE sample pairs it with every sample of the other (R142). -/
def pairUp (a b : List (Int × Nat)) : List ((Int × Nat) × (Int × Nat)) :=
  match a, b with
  | [x], l => l.map (fun y => (x, y))
  | l, [y] => l.map (fun x => (x, y))
  | _, _ => a.zip b

/-- The chain settings of the channel that carries a role. -/
def State.roleSet (g : State) (p role : Nat) : ChainSet := g.chainSet ((g.roleChan p role).getD 0)

/-- A phase power corrected for the DC block and, on an integrated current, for R_int (R142). AC wirings only. -/
def State.corrected (g : State) (p cslot T : Nat) (x : Int) : Int :=
  let k := g.roleSet p cslot
  let d := dcInv k.corner T 1
  let n := dcStages k
  let y := if n = 0 then x else divFree (x * (d.1 ^ n : Nat)) (d.2 ^ n)
  if k.integ = 0 then y else divFree (y * 2 ^ 48) (rInt T k.fs 1)

/-- The phase powers of a frame: one list a phase (R142). -/
def State.phasePowers (s g : State) (p n T : Nat) : List (List Int) :=
  let w := g.pn PT_WIRING p
  let z := if w = 1 then [(0, 4), (1, 5), (2, 6)] else if w = 2 then [(0, 4), (2, 6)] else [(0, 4)]
  z.map (fun r =>
    (pairUp (s.roleOut p r.1 n) (s.roleOut p r.2 n)).map (fun a =>
      let x := product (g.pn (PT_RATIO_0 + r.1) p) (g.pn (PT_RATIO_0 + r.2) p) a.1 a.2
      if w = 3 then x else g.corrected p r.2 T x))

/-- Position by position sum of lists. -/
def sumLists (ls : List (List Int)) : List Int :=
  match ls with
  | [] => []
  | a :: rest => rest.foldl (fun x y => List.zipWith (· + ·) x y) a

/-! ### The release line (R143) -/

/-- The shares of one sample added to a line: `k` whole slots, then the rest. -/
def addShares : Nat → Int → Int → List Int → List Int
  | 0, _, rest, l => (l.headD 0 + rest) :: l.drop 1
  | k + 1, sh, rest, l => (l.headD 0 + sh) :: addShares k sh rest (l.drop 1)

/-- One sample into a line of at most 1,024 slots and the slot that falls due out of it. N = fs × T: `num / 10^9`. -/
def releaseOne (num : Nat) (x : Int) (line : List Int) : Int × List Int :=
  let k := num / 1000000000
  let sh := if num = 0 then 0 else Int.tdiv (x * 1000000000) num
  let l := (addShares k sh (x - k * sh) line).take 1024
  (l.headD 0, l.drop 1)

/-- The samples of a frame through a line: what each releases. -/
def releaseRun (num : Nat) : List Int → List Int → List Int × List Int
  | [], line => ([], line)
  | x :: xs, line =>
    let r := releaseOne num x line
    let rest := releaseRun num xs r.2
    (r.1 :: rest.1, rest.2)

/-- Sum of the positive values of a list. -/
def posSum (l : List Int) : Nat := l.foldl (fun a x => if 0 < x then a + x.toNat else a) 0

/-- Sum of the magnitudes of the negative values of a list. -/
def negSum (l : List Int) : Nat := l.foldl (fun a x => if x < 0 then a + x.natAbs else a) 0

/-- A frame quantity in u32.32, saturating at its largest value (R248). -/
def sat6432 (n : Nat) : Nat := min n (2 ^ 64 - 1)

/-- Energy in µWh or µvarh, u32.32, of summed powers in 2^-32 W at a sample rate: 1 J is 2,500/9 µWh (R145, R147). -/
def microWh (sum fs : Nat) : Nat := (divFree (sum * 2500 : Nat) (9 * fs)).toNat

/-! ### Frequency and RMS -/

/-- T_c while no period counts: the nominal period of PT_F_NOM (R144). -/
def State.nominalT (g : State) (p : Nat) : Nat := if g.pn PT_F_NOM p = 1 then 16666667 else 20000000

/-- A period from one crossing to the next that R144 accepts. -/
def acceptedPeriod (a c : Nat) : Bool := 14490000 ≤ c - a && c - a ≤ 23530000

/-- One crossing of the reference voltage, by its content instant (R144, R153). -/
def Electrical.cross (up c : Nat) (e : Electrical) : Electrical :=
  let e' := { e with crossAt := some c, firstCross := some (e.firstCross.getD c), lastCross := some c }
  match e.crossAt with
  | some c0 =>
    if acceptedPeriod c0 c then
      { e' with accT := c - c0, periodAt := some up, cycles := e.cycles + 1 }
    else e'
  | none => e'

/-- Full scale of a role in primary units 2^-47, at g_lo of its channel. -/
def State.fullScale (g : State) (p role : Nat) : Nat :=
  let c := (g.roleChan p role).getD 0
  2 ^ 30 * g.pn (PT_RATIO_0 + role) p * 2 ^ (5 - g.pn CH_GAIN c % 8)

/-- T_c: the last accepted period, or the nominal one (R144). -/
def State.settlePeriod (s g : State) (p : Nat) : State :=
  let e := (s.pt p).el
  let ref := g.pn PT_F_REF_SLOT p
  let lost := match e.periodAt with | some a => decide (a + 100000000 ≤ s.clk.up) | none => true
  let bad := lost || decide (10 * (e.oneRms.getD ref 0).natAbs < g.fullScale p ref)
  s.modPt p (fun x => { x with el := { x.el with tc := if bad then g.nominalT p else e.accT, valid := !bad } })

/-- Mean square corrected for the DC block and the integrator (R152): numerator and denominator. -/
def rmsCorrected (k : ChainSet) (T sq n : Nat) : Nat :=
  let d := dcInv k.corner T 1
  let m := dcStages k
  let a := sq * d.1 ^ m / (max 1 n * d.2 ^ m)
  if k.integ = 0 then a else a * 2 ^ 96 / (rInt T k.fs 1) ^ 2

/-- One-cycle RMS, or on the DC wiring the mean, of a role (R152), in primary units 2^-47. -/
def oneCycle (k : ChainSet) (dc : Bool) (T N : Nat) (l : List Int) : Int :=
  let w := l.take N
  if w.isEmpty then 0
  else if dc then divFree (w.foldl (· + ·) 0) w.length
  else isqrt (rmsCorrected k T (w.foldl (fun a x => a + x.natAbs ^ 2) 0) w.length)

/-- The roles of the point take the frame's samples: the last cycle, the one-cycle values and the interval's sums. -/
def State.rmsFrame (s g : State) (p n : Nat) : State :=
  let w := g.pn PT_WIRING p
  (g.vAndI p).foldl (fun s r =>
    let ratio := g.pn (PT_RATIO_0 + r) p
    let l := (s.roleOut p r n).map (primary ratio)
    let k := g.roleSet p r
    s.modPt p (fun x =>
      let e := x.el
      let line := (l.reverse ++ e.rms.getD r []).take 753
      { x with el := { e with
        rms := put e.rms r line
        oneRms := put e.oneRms r (oneCycle k (w == 3) e.tc (k.fs * e.tc / 1000000000) line)
        ivlSq := put e.ivlSq r (e.ivlSq.getD r 0 + l.foldl (fun a x => a + x.natAbs ^ 2) 0)
        ivlSum := put e.ivlSum r (e.ivlSum.getD r 0 + l.foldl (· + ·) 0)
        ivlN := put e.ivlN r (e.ivlN.getD r 0 + l.length) } })) s

/-- Whether the point is idle in the frame (R146). -/
def State.isIdle (s g : State) (p : Nat) : Bool :=
  let lim := g.pn PT_START_CURRENT p
  lim != 0 && (currSlots (g.pn PT_WIRING p)).all (fun r =>
    ((s.pt p).el.oneRms.getD r 0).natAbs * 1000 < lim * 2 ^ 47)

/-! ### The reactive path (R149–R151) -/

/-- κ at the point frequency, 40 fraction bits, by linear interpolation (R150). -/
def kappa (T : Nat) : Nat :=
  let pos := (10 ^ 9 * 2 ^ 16 / max 1 T - 40 * 2 ^ 16) * 255 / 30
  let i := min 254 (pos / 2 ^ 16)
  let f := min (2 ^ 16) (pos - i * 2 ^ 16)
  let a := kappaTable.getD i 0
  let b := kappaTable.getD (i + 1) 0
  (a * (2 ^ 16 - f) + b * f) / 2 ^ 16

/-- A filter's taps over the last samples, newest first. -/
def taps (t l : List Int) : Int := (List.zipWith (· * ·) t l).foldl (· + ·) 0

/-- The phase reactive powers of the 1 kSa/s sample that stands in the last 64 of every role, in 2^-32 var (R151). -/
def State.phaseVars (s g : State) (p : Nat) : List Int :=
  let w := g.pn PT_WIRING p
  let e := (s.pt p).el
  let z := if w = 1 then [(0, 4), (1, 5), (2, 6)] else if w = 2 then [(0, 4), (2, 6)] else [(0, 4)]
  z.map (fun r =>
    let k := g.roleSet p r.2
    let d := dcInv k.corner e.tc 1
    let m := b2n k.second
    let num := kappa e.tc * taps hilbertTaps (e.rHist.getD r.1 []) * taps halfTaps (e.rHist.getD r.2 [])
    let x := divFree (num * (d.1 ^ m : Nat)) (2 ^ 182 * d.2 ^ m)
    clipI 64 (if k.integ = 0 then x else divFree (x * 2 ^ 48) (rInt e.tc 1000 1)))

/-- The reactive energies of the frame, positive then negative, with the state after it: only frames with n mod 4 = 3 carry a
sample (R151). On the DC wiring nothing enters the lines, and what they hold is still released (R159). -/
def State.reactiveFrame (s g : State) (p n : Nat) (idle : Bool) : State × Nat × Nat :=
  let w := g.pn PT_WIRING p
  if n % 4 ≠ 3 then (s, 0, 0)
  else
    let roles := if w = 3 then [] else voltSlots w ++ currSlots w
    let s := roles.foldl (fun s r => s.modPt p (fun x => { x with el := { x.el with
      rHist := put x.el.rHist r (((s.roleSlow p r n).getD 0 * (g.pn (PT_RATIO_0 + r) p : Nat) :: x.el.rHist.getD r []).take 64) } })) s
    let e := (s.pt p).el
    let q := if w = 3 ∨ idle = true then [] else s.phaseVars g p
    let lanes := [q.foldl (· + ·) 0, q.getD 0 0, if w = 2 then 0 else q.getD 1 0, q.getD (if w = 2 then 1 else 2) 0]
    let rel := (List.range 4).map (fun i => releaseOne (1000 * e.tc) (lanes.getD i 0) (e.lineR.getD i []))
    let out := rel.map (·.1)
    let s := s.modPt p (fun x => { x with el := { x.el with
      lineR := rel.map (·.2), qNow := out
      ivlQ := List.zipWith (· + ·) x.el.ivlQ out } })
    let tot := out.getD 0 0
    (s, microWh tot.toNat 1000, microWh (-tot).toNat 1000)

/-! ### A point's frame -/

/-- A reading advances; it sticks at its largest value and then raises ACCUMULATOR_ROLLOVER once (R156, R253). -/
def State.addReading (s : State) (p i d : Nat) : State :=
  let e := (s.pt p).el
  let v := e.readings.getD i 0 + d
  let top := 2 ^ 96 - 1
  if v < top then s.modPt p (fun x => { x with el := { x.el with readings := put x.el.readings i v } })
  else if e.stuckRd.contains i then s
  else (s.modPt p (fun x => { x with el := { x.el with readings := put x.el.readings i top, stuckRd := x.el.stuckRd ++ [i] } })).raiseRaw
    18 ([byteOf p, 2, if i < 6 then 11 else if i = 6 then 12 else 13, 0] ++ zeros 4 ++ le 8 s.frm ++ le 8 (top / 2 ^ 32))

/-- Apparent power of the frame in 2^-32 VA: phases from the one-cycle RMS values; the total their sum, or √(P² + Q²) on
wiring 2 (R154). -/
def State.apparent (s g : State) (p : Nat) : List Nat :=
  let e := (s.pt p).el
  let w := g.pn PT_WIRING p
  let z := if w = 1 then [(0, 4), (1, 5), (2, 6)] else if w = 2 then [(0, 4), (2, 6)] else [(0, 4)]
  let ph := z.map (fun r => (e.oneRms.getD r.1 0).natAbs * (e.oneRms.getD r.2 0).natAbs / 2 ^ 62)
  let tot := if w = 2 then isqrt ((e.pNow.getD 0 0).natAbs ^ 2 + (e.qNow.getD 0 0).natAbs ^ 2) else ph.foldl (· + ·) 0
  [tot, ph.getD 0 0, if w = 2 then 0 else ph.getD 1 0, ph.getD (if w = 2 then 1 else 2) 0]

/-- What a frame's samples release in each lane, the lines after it, and the sample rate: on an AC wiring through the lines (R143); on the
DC wiring the samples themselves, and beside them what an earlier AC wiring left in the lines (R159). -/
def releaseFrame (dc : Bool) (fs stdN tc : Nat) (lanes line : List (List Int)) : List (List Int × List Int × List Int) :=
  (List.range 4).map (fun i =>
    let l := lanes.getD i []
    let l := if l.isEmpty then List.replicate (lanes.headD []).length 0 else l
    if dc then
      let r := releaseRun 0 (List.replicate stdN 0) (line.getD i [])
      (l, r.1, r.2)
    else
      let r := releaseRun (fs * tc) l (line.getD i [])
      (r.1, [], r.2))

/-- Energies of one lane, positive and negative, in µWh u32.32: samples at the rate `fs`, and what a line releases at the rate `fl`. -/
def laneEnergy (fs fl : Nat) (x : List Int × List Int × List Int) : Nat × Nat :=
  (microWh (posSum x.1) fs + microWh (posSum x.2.1) fl, microWh (negSum x.1) fs + microWh (negSum x.2.1) fl)

/-- The frame of an electrical point (R142–R147): the state and its eight frame quantities. -/
def State.elecFrame (s g : State) (p n : Nat) (cross : Option Nat) : State × List Nat :=
  let s := match cross with
    | some c => s.modPt p (fun x => { x with el := x.el.cross s.clk.up c })
    | none => s
  let s := ((s.settlePeriod g p).rmsFrame g p n).settlePeriod g p
  let w := g.pn PT_WIRING p
  let e := (s.pt p).el
  let idle := s.isIdle g p
  let ph0 := s.phasePowers g p n e.tc
  let ph := if idle then ph0.map (fun l => l.map (fun _ => (0 : Int))) else ph0
  let lanes := if w = 2 then [sumLists ph, ph.getD 0 [], [], ph.getD 1 []]
    else [sumLists ph, ph.getD 0 [], ph.getD 1 [], ph.getD 2 []]
  let fs := 4000 * max 1 (lanes.headD []).length
  let stdN := if g.fast then 8 else 2
  let rel := releaseFrame (w == 3) fs stdN e.tc lanes e.line
  let inv := g.pb PT_DIR_INVERT p
  let nrg (i : Nat) : Nat × Nat :=
    let x := laneEnergy fs (4000 * stdN) (rel.getD i ([], [], []))
    if inv then (x.2, x.1) else x
  let mean := rel.map (fun x => (if x.1.isEmpty then 0 else divFree (x.1.foldl (· + ·) 0) x.1.length) +
    divFree (x.2.1.foldl (· + ·) 0) stdN)
  let s := s.modPt p (fun x => { x with el := { x.el with
    line := rel.map (·.2.2), pNow := mean, ivlP := List.zipWith (· + ·) x.el.ivlP mean } })
  let r := s.reactiveFrame g p n idle
  let ap := r.1.apparent g p
  let s := r.1.modPt p (fun x => { x with el := { x.el with sNow := ap, ivlS := List.zipWith (· + ·) x.el.ivlS ap } })
  let s := [1, 2, 3].foldl (fun s i => (s.addReading p (i - 1) (nrg i).1).addReading p (i + 2) (nrg i).2) s
  let s := s.addReading p 6 (microWh (ap.getD 0 0) 4000)
  (s, [(nrg 0).1, (nrg 0).2, r.2.1, r.2.2, 0, 0, 0, 0])

/-- What is left in both release lines goes into the frame before a retype, split by the sign of its total (R159). -/
def State.flushLines (s g : State) (p : Nat) (q : List Nat) : List Nat :=
  let e := (s.pt p).el
  let a := (e.line.headD []).foldl (· + ·) 0
  let r := (e.lineR.headD []).foldl (· + ·) 0
  let fs := 4000 * (if g.eng.mode = 3 then 2 else 8)
  let inv := g.pb PT_DIR_INVERT p
  let up := microWh a.toNat fs
  let dn := microWh (-a).toNat fs
  [q.getD 0 0 + (if inv then dn else up), q.getD 1 0 + (if inv then up else dn),
   q.getD 2 0 + microWh r.toNat 1000, q.getD 3 0 + microWh (-r).toNat 1000] ++ q.drop 4

/-- The electrical interval of `frames` frames closes (R153, R154, R156): powers per second, power factors and frequency, and the sums
begin afresh. -/
def Electrical.closeInterval (frames : Nat) (e : Electrical) : Electrical :=
  let pf := (List.range 4).map (fun i =>
    let sp := e.ivlS.getD i 0
    if sp = 0 then 0 else clipI 16 (divHalfAway (e.ivlP.getD i 0 * 2 ^ 15) sp))
  let f := match e.firstCross, e.lastCross with
    | some a, some b => if a < b then (divHalfAway (e.cycles * 10 ^ 15 : Nat) (b - a)).toNat else 0
    | _, _ => 0
  let n := max 1 frames
  { e with pf := pf, freqIvl := f, cycles := 0, firstCross := none, lastCross := none
           powIvl := [e.ivlP.map (fun x => divFree x n), e.ivlQ.map (fun x => divFree (4 * x) n),
             e.ivlS.map (fun (x : Nat) => divFree x n)]
           ivlSq := List.replicate 8 0, ivlSum := List.replicate 8 0, ivlN := List.replicate 8 0
           ivlP := List.replicate 4 0, ivlQ := List.replicate 4 0, ivlS := List.replicate 4 0
           unbRes := e.unbIvl.map (fun x => divHalfAway x (max 1 e.unbN)), unbIvl := List.replicate 4 0, unbN := 0
           flgRes := e.flgIvl, flgIvl := 0 }

/-- RMS, or on the DC wiring the mean, of a role over the interval (R152). -/
def State.intervalRms (s : State) (p r : Nat) : Int :=
  let e := (s.pt p).el
  let n := e.ivlN.getD r 0
  if n = 0 then 0
  else if s.pn PT_WIRING p = 3 then divFree (e.ivlSum.getD r 0) n
  else isqrt (rmsCorrected (s.roleSet p r) e.tc (e.ivlSq.getD r 0) n)

/-- The interval of a point's electrical quantities closes. -/
def State.closeElectrical (s : State) (frames p : Nat) : State :=
  let rms := (List.range 8).map (fun r => s.intervalRms p r)
  s.modPt p (fun x => { x with el := { x.el.closeInterval frames with rmsIvl := rms } })

/-! ### Meter pulse outputs (R160–R164) -/

/-- The quantum q of one pulse, scaled 2^32 times C (Table 6.6, Table 8.6). -/
def mpoQuantum (ty source : Nat) : Nat :=
  (if source < 5 then 10 ^ 9 else if ty = 7 then 3600000 else 10 ^ 6) * 2 ^ 32

/-- Pulses placed in a span: A ≥ q again and again (R161). Quantities are scaled by the constant C so that q is whole.
`edge` is the elapsed time of t0(n) + 1,000 µs, `span` its length in ns. -/
def mpoPlace : Nat → Nat → Nat → Nat → Nat → Nat → List Nat → Nat × List Nat
  | 0, _, a, _, _, _, l => (a, l)
  | k + 1, q, a, d, edge, span, l =>
    if a < q then (a, l)
    else
      let f := d - (a - q)
      mpoPlace k q (a - q) d edge span (l ++ [(edge + f * span / max 1 d + 500) / 1000 * 1000])

/-- The pulses of frame `n` for a point: `d` the quantity handed over, over `span` frames (R161). -/
def State.mpoFrame (s : State) (p n d span : Nat) : State :=
  let x := s.pt p
  let c := s.pn PT_MPO_CONST p
  let q := mpoQuantum (s.ptType p) (s.pn PT_MPO_SOURCE p)
  let a := x.mpo.acc + d * c
  let r := mpoPlace (a / max 1 q) q a (d * c) (s.t0 n + 1000000) (span * 250000) []
  s.modPt p (fun y => { y with mpo := { y.mpo with acc := r.1, sched := y.mpo.sched ++ r.2 } })

/-- The pulse output is enabled and its point uses a source (R164, R27). -/
def State.mpoOn (s : State) (p : Nat) : Bool := s.pb PT_MPO_ENABLE p && s.ptType p != 0

/-- MPOp driven: to its active level in a pulse, else to its idle level; PT_MPO_POLARITY 1 makes the pulse low (R162, R164). On NONE it
is held low (01 R27). -/
def State.driveMpo (s : State) (p : Nat) (f : Mpo → Mpo) : State :=
  s.modPt p (fun x =>
    let m := f x.mpo
    { x with mpo := { m with pin := s.ptType p != 0 && m.level != s.pb PT_MPO_POLARITY p } })

/-- A pulse output that is off: A is cleared, no pulse runs, waits or is placed, and the output idles (R164, R27). -/
def State.mpoIdle (s : State) (p : Nat) : State :=
  s.driveMpo p (fun m => { m with acc := 0, backlog := 0, sched := [], level := false, trailDue := none })

/-- MPO_PULSE_EDGE (R161, R162): a trailing edge, else a leading edge that is due: it is driven, or waits in the backlog; a
pulse due while the backlog is full is dropped. -/
def execMpoPulseEdge (t p : Nat) (s : State) : Host.Outcome State Fault Refusal :=
  let s := s.at t
  let m := (s.pt p).mpo
  let W := s.pn PT_MPO_WIDTH p * 1000000
  let drive (m : Mpo) (edge : Nat) : Mpo :=
    { m with level := true, trailDue := some (edge + W), notBefore := edge + 2 * W }
  if ripeAt m.trailDue t then .next (s.driveMpo p (fun x => { x with level := false, trailDue := none }))
  else if !s.mpoOn p then .next s
  else if 0 < m.backlog ∧ m.notBefore ≤ t ∧ m.trailDue = none then
    .next (s.driveMpo p (fun x => { drive x m.notBefore with backlog := m.backlog - 1 }))
  else
    match m.sched with
    | e :: rest =>
      if t < e then .next s
      else if m.notBefore ≤ e ∧ m.trailDue = none ∧ m.backlog = 0 then
        .next (s.driveMpo p (fun x => { drive x e with sched := rest }))
      else if m.backlog < 65535 then
        .next (s.modPt p (fun x => { x with mpo := { x.mpo with sched := rest, backlog := m.backlog + 1 } }))
      else .next (s.modPt p (fun x => { x with mpo := { x.mpo with sched := rest, dropped := inc32 m.dropped } }))
    | [] => .next s

end Sys2Proof.Machine
end

