-- ==== Sys2Proof/Machine/Steam.lean ====
section
/-!
DEFINITION. The IAPWS-IF97 equations that the engine evaluates (08 R195, Table 8.4): regions 1 and 2, saturation (region 4) and
the B23 boundary. R195 fixes the coefficients as those of the IAPWS release; their numbers stand here as that release prints
them (PRESUMED, log entry 49). Inner numbers are in units of 2^-200.
-/

namespace Sys2Proof.Machine

/-! ### Numbers in units of 2^-200 -/

/-- Product. -/
def em (a b : Int) : Int := a * b / 2 ^ 200

/-- Quotient. -/
def ed (a b : Int) : Int := a * 2 ^ 200 / b

/-- Square root. -/
def esqrt (a : Int) : Int := (isqrt (a.toNat * 2 ^ 200) : Nat)

/-- The decimal number m / 10^k. -/
def edec (m : Int) (k : Nat) : Int := m * 2 ^ 200 / 10 ^ k

/-- A number in units of 2^-60 taken into units of 2^-200. -/
def widen (x : Int) : Int := x * 2 ^ 140

/-- A number in units of 2^-200 brought back to units of 2^-60. -/
def narrow (x : Int) : Int := x / 2 ^ 140

/-- x^k. -/
def epow (x : Int) : Nat → Int
  | 0 => 2 ^ 200
  | k + 1 => em x (epow x k)

/-- x^e for an integer e. -/
def ezpow (x e : Int) : Int := if 0 ≤ e then epow x e.toNat else ed (2 ^ 200) (epow x (-e).toNat)

/-! ### Coefficients: I, J, and n as mantissa and decimals (log entry 49) -/

/-- Region 1. (log 49) -/
def if97Basic : List (Int × Int × Int × Nat) :=
  [(0, -2, 14632971213167, 14), (0, -1, -84548187169114, 14), (0, 0, -3756360367204, 12),
   (0, 1, 33855169168385, 13), (0, 2, -95791963387872, 14), (0, 3, 15772038513228, 14),
   (0, 4, -16616417199501, 15), (0, 5, 81214629983568, 17), (1, -9, 28319080123804, 17),
   (1, -7, -60706301565874, 17), (1, -1, -18990068218419, 15), (1, 0, -32529748770505, 15)] ++
  [(1, 1, -21841717175414, 15), (1, 3, -5283835796993, 17), (2, -3, -47184321073267, 17),
   (2, 0, -30001780793026, 17), (2, 1, 47661393906987, 18), (2, 3, -44141845330846, 19),
   (2, 17, -72694996297594, 29), (3, -4, -31679644845054, 18), (3, 0, -28270797985312, 19),
   (3, 6, -85205128120103, 23), (4, -5, -22425281908, 16), (4, -2, -65171222895601, 20)] ++
  [(4, 10, -14341729937924, 26), (5, -8, -40516996860117, 20), (8, -11, -12734301741641, 22),
   (8, -6, -17424871230634, 23), (21, -29, -68762131295531, 32), (23, -31, 14478307828521, 33),
   (29, -38, 26335781662795, 36), (30, -39, -11947622640071, 36), (31, -40, 18228094581404, 37),
   (32, -41, -93537087292458, 39)]

/-- Region 2, ideal part: only J counts. (log 49) -/
def if97Ideal : List (Int × Int × Int × Nat) :=
  [(0, 0, -96927686500217, 13), (0, 1, 10086655968018, 12), (0, -5, -5608791128302, 15),
   (0, -4, 71452738081455, 15), (0, -3, -40710498223928, 14), (0, -2, 14240819171444, 13),
   (0, -1, -4383951131945, 12), (0, 2, -28408632460772, 14), (0, 3, 21268463753307, 15)]

/-- Region 2, residual part. (log 49) -/
def if97Residual : List (Int × Int × Int × Nat) :=
  [(1, 0, -17731742473213, 16), (1, 1, -17834862292358, 15), (1, 2, -45996013696365, 15),
   (1, 3, -57581259083432, 15), (1, 6, -5032527872793, 14), (2, 1, -33032641670203, 18),
   (2, 2, -18948987516315, 17), (2, 4, -39392777243355, 16), (2, 7, -43797295650573, 15),
   (2, 36, -26674547914087, 18), (3, 0, 20481737692309, 21), (3, 1, 43870667284435, 20)] ++
  [(3, 3, -3227767723857, 17), (3, 6, -15033924542148, 16), (3, 35, -40668253562649, 15),
   (4, 1, -78847309559367, 23), (4, 2, 12790717852285, 21), (4, 3, 48225372718507, 20),
   (5, 7, 22922076337661, 19), (6, 3, -16714766451061, 24), (6, 16, -21171472321355, 16),
   (6, 35, -23895741934104, 12), (7, 0, -5905956432427, 30), (7, 11, -12621808899101, 19)] ++
  [(7, 25, -38946842435739, 15), (8, 8, 11256211360459, 24), (8, 36, -82311340897998, 13),
   (9, 13, 19809712802088, 21), (10, 4, 10406965210174, 32), (10, 10, -10234747095929, 26),
   (10, 14, -10018179379511, 22), (16, 29, -80882908646985, 24), (16, 50, 10693031879409, 14),
   (18, 57, -33662250574171, 14), (20, 20, 89185845355421, 38), (20, 35, 30629316876232, 26)] ++
  [(20, 48, -42002467698208, 19), (21, 21, -59056029685639, 39), (22, 53, 37826947613457, 19),
   (23, 39, -12768608934681, 28), (24, 26, 73087610595061, 42), (24, 40, 55414715350778, 30),
   (24, 58, -9436970724121, 19)]

/-- Region 4. (log 49) -/
def if97Saturation : List (Int × Nat) :=
  [(11670521452767, 10), (-72421316703206, 8), (-17073846940092, 12), (1202082470247, 8), (-32325550322333, 7)] ++
  [(1491510861353, 11), (-48232657361591, 10), (40511340542057, 8), (-23855557567849, 14), (65017534844798, 11)]

/-- The first three coefficients of the B23 equation. (log 49) -/
def if97Boundary : List (Int × Nat) := [(34805185628969, 11), (-11671859879975, 13), (10192970039326, 16)]

/-! ### Regions 1 and 2 -/

/-- Σ n · I · x^(I−1) · y^J over coefficients: the derivative by x. -/
def sumByX (x y : Int) (l : List (Int × Int × Int × Nat)) : Int :=
  l.foldl (fun a c =>
    if c.1 = 0 then a
    else a + em (edec (c.1 * c.2.2.1) c.2.2.2) (em (ezpow x (c.1 - 1)) (ezpow y c.2.1))) 0

/-- Σ n · x^I · J · y^(J−1) over coefficients: the derivative by y. -/
def sumByY (x y : Int) (l : List (Int × Int × Int × Nat)) : Int :=
  l.foldl (fun a c =>
    if c.2.1 = 0 then a
    else a + em (edec (c.2.1 * c.2.2.1) c.2.2.2) (em (ezpow x c.1) (ezpow y (c.2.1 - 1)))) 0

/-- π · γ_π and τ · γ_τ of region 1 (π = p / 16.53 MPa, τ = 1,386 K / T) or 2 (p / 1 MPa, 540 K / T). -/
def gibbs (region : Nat) (p t : Int) : Int × Int :=
  if region = 1 then
    let x := p / 16530000
    let y := ed (edec 1386 0) t
    (em x (-(sumByX (edec 71 1 - x) (y - edec 1222 3) if97Basic)), em y (sumByY (edec 71 1 - x) (y - edec 1222 3) if97Basic))
  else
    let x := p / 1000000
    let y := ed (edec 540 0) t
    let d := y - edec 5 1
    (2 ^ 200 + em x (sumByX x d if97Residual), em y (sumByY 0 y if97Ideal + sumByY x d if97Residual))

/-- A value with the relative error that R195 allows the engine: at most 1 part in 10^8, free within that. -/
def within8 (err v : Int) : Int := v + v * max (-(2 ^ 60)) (min (2 ^ 60) err) / (10 ^ 8 * 2 ^ 60)

/-- Density in kg/m³ and specific enthalpy in J/kg of region 1 or 2 at a pressure in Pa and a temperature in K, in units of
2^-60 (R195): 1 / v with v = R T π γ_π / p, and h = R T τ γ_τ, R = 461.526 J/(kg K). (log 49) -/
def if97 (region : Nat) (p t : Int) : Int × Int :=
  let g := gibbs region (widen p) (widen t)
  let rt := em (edec 461526 3) (widen t)
  (within8 (Config.steamError region 0 p t) (narrow (ed (widen p) (em rt g.1))),
   within8 (Config.steamError region 1 p t) (narrow (em rt g.2)))

/-! ### Region 4 and B23 -/

/-- Coefficient `i` of region 4, from 1. -/
def satN (i : Nat) : Int := let c := if97Saturation.getD (i - 1) (0, 0); edec c.1 c.2

/-- The quadratic a x² + b x + c. -/
def quad (a b c x : Int) : Int := em (em a x + b) x + c

/-- Saturation pressure in Pa of a temperature in K, in units of 2^-60 (R195). (log 49) -/
def satP (t : Int) : Int :=
  let t := widen t
  let th := t + ed (satN 9) (t - satN 10)
  let a := quad (2 ^ 200) (satN 1) (satN 2) th
  let b := quad (satN 3) (satN 4) (satN 5) th
  let c := quad (satN 6) (satN 7) (satN 8) th
  let r := ed (2 * c) (esqrt (em b b - 4 * em a c) - b)
  within8 (Config.steamError 4 0 0 t) (narrow (1000000 * epow r 4))

/-- Saturation temperature in K of a pressure in Pa, in units of 2^-60 (R195). (log 49) -/
def satT (p : Int) : Int :=
  let be := esqrt (esqrt (widen p / 1000000))
  let e := quad (2 ^ 200) (satN 3) (satN 6) be
  let f := quad (satN 1) (satN 4) (satN 7) be
  let g := quad (satN 2) (satN 5) (satN 8) be
  let d := ed (2 * g) (-f - esqrt (em f f - 4 * em e g))
  let m := satN 10 + d
  within8 (Config.steamError 4 1 p 0) (narrow ((m - esqrt (em m m - 4 * (satN 9 + em (satN 10) d))) / 2))

/-- The B23 boundary pressure in Pa of a temperature in K, in units of 2^-60 (R195). (log 49) -/
def b23 (t : Int) : Int :=
  let n (i : Nat) : Int := let c := if97Boundary.getD i (0, 0); edec c.1 c.2
  narrow (1000000 * quad (n 2) (n 1) (n 0) (widen t))

end Sys2Proof.Machine
end

