-- ==== Sys2Proof/Machine/Fluid.lean ====
section
/-!
DEFINITION. Fluids (08): role values and their faults, pulse inputs, the burst of properties, flow, the frame quantities of
steam, air, water and heat points, substitution, and the excitation sources' compliance (04 R107–R109). Real numbers are
held in units of 2^-60; the spec states no precision for them (log entry 4).
-/

namespace Sys2Proof.Machine

/-! ### Numbers in units of 2^-60 -/

/-- Square root. (log 4) -/
def qsqrt (a : Int) : Int := isqrt (a.toNat * 2 ^ 60)

/-- Mean of a list. -/
def meanInt (l : List Int) : Int := if l.isEmpty then 0 else divFree (l.foldl (· + ·) 0) l.length

/-! ### Roles (R187–R190) -/

/-- Engineering value of a transmitter in the role unit, 2^-32 (R188): signal in units of 2^-47. -/
def State.transmit (g : State) (p k : Nat) (sig : Int) : Int :=
  let lrv := g.pv (PT_FL_LRV_0 + k) p
  let span := g.pv (PT_FL_URV_0 + k) p - lrv
  let s0 : Int := if g.inputKind p k = 1 then 4 else 0
  let ds : Nat := if g.inputKind p k = 1 then 16 else 10
  lrv * 2 ^ 32 + divFree ((sig - s0 * 2 ^ 47) * span) (ds * 2 ^ 15)

/-- The closed form of IEC 60751 (R190): temperature in °C, 2^-32, of R/R0 in units of 2^-40. -/
def rtdClosed (x : Int) : Int :=
  let d := 39083 ^ 2 * 2 ^ 80 + 231000000 * (2 ^ 40 - x) * 2 ^ 40
  (39083 * 2 ^ 40 - (isqrt d.toNat : Int)) * 100 / (1155 * 2 ^ 8)

/-- Newton steps on the full equation: at most 4, until a step is below 0.1 mK. -/
def rtdNewton : Nat → Int → Int → Int
  | 0, _, t => t
  | k + 1, x, t =>
    let f := 10 ^ 15 * 2 ^ 88 * (2 ^ 40 - x) + 3908300000000 * t * 2 ^ 96 - 577500000 * t ^ 2 * 2 ^ 64 -
      4183 * (t - 100 * 2 ^ 32) * t ^ 3
    let f' := 3908300000000 * 2 ^ 96 - 1155000000 * t * 2 ^ 64 - 4183 * (4 * t ^ 3 - 300 * 2 ^ 32 * t ^ 2)
    let st := f / f'
    if st.natAbs < 429497 then t - st else rtdNewton k x (t - st)

/-- Temperature in 0.001 °C, 2^-32, of R/R0 in units of 2^-40 (R190). -/
def rtdTemp (x : Int) : Int :=
  let t := rtdClosed x
  1000 * (if 2 ^ 40 ≤ x then t else rtdNewton 4 x t)

/-- R/R0 of an RTD slot in units of 2^-40: the voltage over the measured current (R108, R190). -/
def State.rtdRatio (s g : State) (p : Nat) (sig : Int) : Int :=
  let r0 := if g.pn PT_FL_RTD p = 1 then 1000 else 100
  sig * 1000000000 / (2 ^ 7 * max 1 (s.sar.exc.getD p 0) * r0 : Nat)

/-- Value of one signal of a slot, in the role unit, 2^-32. -/
def State.roleValue (s g : State) (p k : Nat) (sig : Int) : Int :=
  if g.inputKind p k = 3 then rtdTemp (s.rtdRatio g p sig) else g.transmit p k sig

/-- The role's source of excitation, which started or changed level, is not measured afresh yet; a source that stopped leaves nothing
to substitute (R120). (log 18) -/
def State.exHold (s g : State) (p k : Nat) : Bool :=
  g.inputKind p k == 3 && g.excLevel p != 0 && !s.sar.excGood.getD p false

/-- The substitute value of a role (R214), 2^-32. -/
def State.substValue (g : State) (p k : Nat) (x : RoleState) : Int :=
  if g.pn (PT_FL_SUBST_RULE_0 + k) p = 0 ∧ x.hasGood = true then x.lastGood else g.pv (PT_FL_SUBST_VAL_0 + k) p * 2 ^ 32

/-- A role is substituted in the frame: faulty (R214), or held by R120. -/
def State.roleSubst (s g : State) (p k : Nat) : Bool :=
  g.roleUsed p k && (((s.pt p).fl.roles.getD k RoleState.reset).faults != 0 || s.exHold g p k)

/-- The value that the role of a slot has in the frame, 2^-32 (R187, R214, R120). (log 18) -/
def State.roleNow (s g : State) (p k : Nat) : Int :=
  let x := (s.pt p).fl.roles.getD k RoleState.reset
  if !g.roleUsed p k then g.pv (PT_FL_FIXED_0 + k) p * 2 ^ 32
  else if x.faults != 0 then g.substValue p k x
  else if s.exHold g p k then (if x.known then x.value else g.pv (PT_FL_SUBST_VAL_0 + k) p * 2 ^ 32)
  else x.value

/-- Change one role of a point. -/
def State.modRole (s : State) (p k : Nat) (f : RoleState → RoleState) : State :=
  s.modPt p (fun x => { x with fl := { x.fl with roles := upd x.fl.roles k f } })

/-- Change the fluid engine of a point. -/
def State.modFl (s : State) (p : Nat) (f : Fluid → Fluid) : State := s.modPt p (fun x => { x with fl := f x.fl })

/-- The signals of a slot in frame `n`, primary values in units of 2^-47 (R188). -/
def State.signals (s g : State) (p k n : Nat) : List Int :=
  (s.roleOut p k n).map (primary (g.pn (PT_RATIO_0 + k) p))

/-- The values of frames n − 15 to n (R197). -/
def lastBurst (n : Nat) (l : List (Nat × Int)) : List Int := (l.filter (fun x => n < x.1 + 16)).map (·.2)

/-- A slot takes its frame (R188, Table 8.8): its measured value, the run of RTD range, its role value and the interval's
mean. -/
def State.takeRole (s g : State) (p n k : Nat) : State :=
  let l := s.signals g p k n
  let used := g.roleUsed p k && !l.isEmpty
  let s := if used && !s.exHold g p k then
      let sig := meanInt l
      let bad := g.inputKind p k == 3 && (let t := s.roleValue g p k sig
                                          t < -200000 * 2 ^ 32 || 850000 * 2 ^ 32 < t)
      s.modRole p k (fun x => { x with
        value := s.roleValue g p k sig, known := true, seen := ((n, s.roleValue g p k sig) :: x.seen).take 16
        bad := if bad then x.bad + 1 else 0, good := if bad then 0 else x.good + 1 })
    else s
  let v := s.roleNow g p k
  let sub := s.roleSubst g p k
  s.modRole p k (fun x => { x with
    recent := ((n, v) :: x.recent).take 16, ivlBad := x.ivlBad || sub
    ivlSum := if sub then x.ivlSum else x.ivlSum + v, ivlN := if sub then x.ivlN else x.ivlN + 1 })

/-! ### Pulse inputs (R191–R194) -/

/-- PULSE_EDGE (R191–R194, R204): an edge whose line then stayed stable for `held` ns; `both` says that both lines changed
in the same sample, one change whichever line's row tells it. (log 18) -/
def execPulseEdge (t p : Nat) (lineB rising both : Bool) (held : Nat) (s : State) : Host.Outcome State Fault Refusal :=
  let s := s.at t
  let x := s.pt p
  let mode := if isFluid (s.ptType p) then s.pn PT_PLS_MODE p else 0
  if mode = 0 ∨ held < 100 * s.pn PT_PLS_FILTER p then .next s
  else
    let at' := t / 8 * 8
    let lvl (s : State) : State := s.modPt p (fun x =>
      if both then { x with plsA := { x.plsA with level := if lineB then !x.plsA.level else rising, chgAt := at' },
                            plsB := { x.plsB with level := if lineB then rising else !x.plsB.level, chgAt := at' } }
      else if lineB then { x with plsB := { x.plsB with level := rising, chgAt := at' } }
      else { x with plsA := { x.plsA with level := rising, chgAt := at' } })
    let mine := if lineB then x.plsB else x.plsA
    if mode = 3 ∧ both = true ∧ mine.chgAt = at' ∧ mine.level = rising then .next s
    else if mode = 3 ∧ both = true then
      .next ((lvl s).modPt p (fun x => { x with pulse := { x.pulse with
        seqErr := inc32 x.pulse.seqErr, ivlErr := x.pulse.ivlErr + 1 } }))
    else
      let counted := mode == 3 || (rising && (!lineB || mode == 1))
      if !counted then .next (lvl s)
      else
        let mf := s.pn PT_PLS_MIN_FREQ p
        let slow := mf != 0 && (match mine.lastAt with | some a => decide (100 * 10 ^ 9 < (at' - a) * mf) | none => true)
        let sure := x.plsB.chgAt + 10000 ≤ at'
        let rev := if mode = 1 then false
          else if mode = 2 then (if sure then x.plsB.level else s.free % 2 == 1)
          else if lineB then rising != x.plsA.level else rising == x.plsB.level
        let s := if mode = 2 ∧ sure = false then s.bump else s
        .next ((lvl s).modPt p (fun x =>
          let put (w : Pulse) : Pulse := { w with hw := wrapInc 16 w.hw, lastAt := some at' }
          { x with
            plsA := if lineB then x.plsA else put x.plsA
            plsB := if lineB then put x.plsB else x.plsB
            pulse := if slow then x.pulse
              else if mode = 1 ∧ lineB = true then { x.pulse with check := wrapInc 32 x.pulse.check }
              else { x.pulse with pend := x.pulse.pend ++ [(at', rev)] } }))

/-- Counted units that belong to frame `n` or were left by an invalid one (R192, R216): forward and reverse, and the line
without them. -/
def takeUnits (n limit : Nat) (x : PulseLine) : Nat × Nat × PulseLine :=
  let l := x.pend.filter (fun u => u.1 < limit)
  let hist := (l.map (fun u => (n, u.1))).reverse ++ x.hist
  ((l.filter (fun u => !u.2)).length, (l.filter (fun u => u.2)).length,
    { x with pend := x.pend.filter (fun u => !(u.1 < limit)),
             hist := hist.take (max 2 (hist.filter (fun u => n < u.1 + 16)).length) })

/-- f of the burst in frame `n` (R203), Hz in 2^-60. -/
def pulseFreq (n : Nat) (old : Int) (x : PulseLine) : Int :=
  let l := x.hist.filter (fun u => n < u.1 + 16)
  let l := if l.length < 2 then x.hist.take 2 else l
  match l.head?, l.getLast? with
  | some a, some b => if b.2 < a.2 then qr (((l.length - 1) * 1000000000 : Nat)) (a.2 - b.2) else old
  | _, _ => old

/-- The meter factor by linear interpolation (R203), 2^-60. -/
def State.meterFactor (g : State) (p : Nat) (f : Int) : Int :=
  let n := g.pn PT_PLS_LIN_N p
  let fr (i : Nat) : Int := qr (g.pn (PT_PLS_LIN_F_0 + i) p) 1000
  let mf (i : Nat) : Int := g.pn (PT_PLS_LIN_MF_0 + i) p * 2 ^ 30
  if n = 0 then 2 ^ 60
  else if f ≤ fr 0 then mf 0
  else
    match (List.range (n - 1)).find? (fun i => decide (f ≤ fr (i + 1))) with
    | some i => mf i + qd (qm (mf (i + 1) - mf i) (f - fr i)) (fr (i + 1) - fr i)
    | none => mf (n - 1)

/-! ### States and properties (R195–R198, R210) -/

/-- Temperature in K, 2^-60, of a role value in 0.001 °C, 2^-32. -/
def kelvin (v : Int) : Int := (v + 273150 * 2 ^ 32) * 2 ^ 28 / 1000

/-- Absolute pressure in Pa, 2^-60, of a role value in Pa, 2^-32 (R189). -/
def State.absPress (g : State) (p : Nat) (v : Int) : Int :=
  v * 2 ^ 28 + (if g.pb PT_FL_P_GAUGE p then g.pv PT_FL_P_ATM p * 2 ^ 60 else 0)

/-- Class of a state (Table 8.5), coded as Table 8.12 has it: 0 out of range, 1 above the region, 2 saturated, 3 liquid,
4 vapour, 5 region 3; 6 evaluated. (log 18) -/
def stateClass (supply : Bool) (band : Nat) (p t : Int) : Nat :=
  let k := (2 : Int) ^ 60
  if p ≤ 0 ∨ 100000000 * k < p ∨ 20 * t < 5463 * k then 0
  else if 20 * t > 21463 * k then 1
  else if supply = true ∧ p ≤ 16529000 * k ∧ 1000 * (t - satT p).natAbs ≤ band * 2 ^ 60 then 2
  else if 20 * t ≤ 12463 * k then
    (if satP t ≤ p then (if supply then 3 else 6) else (if supply then 6 else 4))
  else if 20 * t ≤ 17263 * k ∧ b23 t < p then (if supply then 5 else 1)
  else if supply then 6 else 1

/-- Table 8.7 in units of 10^-5: rows −20 °C to 80 °C, columns 0, 2, 4, 8, 12 and 16 bar. -/
def airTable : List (List Nat) :=
  [[100000, 99825, 99652, 99313, 98981, 98658], [100000, 99882, 99766, 99539, 99319, 99106],
   [100000, 99927, 99855, 99717, 99586, 99460], [100000, 99958, 99918, 99842, 99772, 99707],
   [100000, 99983, 99966, 99937, 99913, 99894], [100000, 100004, 100009, 100022, 100039, 100060]]

/-- Z of dry air, bilinear in Table 8.7 (R210): Pa and K in 2^-60. (log 18) -/
def airZ (p t : Int) : Int :=
  let k := (2 : Int) ^ 60
  if p < 0 ∨ 1600000 * k < p ∨ 20 * t < 5063 * k ∨ 7063 * k < 20 * t then Config.airZOutside p t
  else
    let ps := [0, 200000, 400000, 800000, 1200000, 1600000]
    let i := ((List.range 5).find? (fun i => decide (p ≤ (ps.getD (i + 1) 0 : Nat) * k))).getD 4
    let c := t - 5063 * k / 20
    let j := min 4 (c / (20 * k)).toNat
    let z (a b : Nat) : Int := ((airTable.getD a []).getD b 0 : Nat)
    let u := (p - (ps.getD i 0 : Nat) * k) / ((ps.getD (i + 1) 0 - ps.getD i 0 : Nat) : Int)
    let w := (c - j * 20 * k) / 20
    let row (a : Nat) := z a i * k + u * (z a (i + 1) - z a i)
    qm (k - w) (row j) / 100000 + qm w (row (j + 1)) / 100000

/-- Density of dry air (R210): Pa and K in 2^-60. -/
def airRho (p t : Int) : Int := p * 289647 * 2 ^ 120 / (83144620 * airZ p t * t)

/-- STEAM_OUT_OF_REGION (Table 8.12): Count counts the starts. -/
def State.regionEvent (s : State) (p i cls edge rule n : Nat) (press t : Int) : State :=
  let k := (2 : Int) ^ 60
  let ts := if 16529000 * k < press then (le 4 0x80000000) else leI 4 (clipI 32 ((satT press * 1000 / k) - 273150))
  s.raiseAt 28 p 28 (edge == 0) ([byteOf p, byteOf i, byteOf cls, byteOf edge, byteOf rule, 0, 0, 0] ++ le 8 n ++
    le 4 (min (press / k).toNat (2 ^ 32 - 1)) ++ leI 4 (clipI 32 (t * 1000 / k - 273150)) ++ ts) []

/-- One state evaluated in the burst of frame `n` (R196–R198). -/
def State.evalState (s g : State) (p i n : Nat) (supply : Bool) (press t : Int) : State :=
  let cls := stateClass supply (g.pn PT_STEAM_SAT_BAND p) press t
  let dry := cls == 2 && g.pn PT_STEAM_SAT_MODE p == 1
  let x := (s.pt p).fl.st.getD i FluidState.reset
  let put (s : State) (y : FluidState) : State := s.modFl p (fun f => { f with st := Machine.put f.st i y })
  if cls = 6 ∨ dry = true then
    let v := if97 (if supply then 2 else 1) press (if dry then satT press else t)
    let s := put s { x with rho := v.1, h := v.2, cls := cls, oor := false, goodRho := v.1, goodH := v.2, hasGood := true }
    if x.oor then s.regionEvent p i cls 1 x.rule n press t else s
  else
    let rule := if x.hasGood then g.pn PT_FL_OOR_RULE p else 1
    let rho := if rule = 0 then x.goodRho else qr (g.pn PT_FL_OOR_RHO p) 1000
    let h := if rule = 0 then x.goodH else (g.pn (if i = 0 then PT_FL_OOR_H else PT_FL_OOR_H_RET) p : Int) * 2 ^ 60
    let s := put s { x with rho := rho, h := h, cls := cls, oor := true, rule := rule }
    if x.oor then s else s.regionEvent p i cls 0 rule n press t

/-! ### The orifice (R199–R202) -/

/-- Bore and pipe diameter in m at a temperature in 0.001 °C 2^-32 (R199), 2^-60. -/
def State.plate (g : State) (p : Nat) (t : Int) : Int × Int :=
  let dt := t - 20000 * 2 ^ 32
  let grow (d a : Nat) : Int := (d * 2 ^ 60 : Nat) / 1000000 + (d * a : Nat) * dt * 2 ^ 28 / (10 ^ 6 * 10 ^ 8 * 1000)
  (grow (g.pn PT_FL_ORI_D20 p) (g.pn PT_FL_ORI_ALPHA_D p), grow (g.pn PT_FL_ORI_PIPE20 p) (g.pn PT_FL_ORI_ALPHA_PIPE p))

/-- ε of R199: 1 on WATER and HEAT. -/
def expansibility (ty kappa : Nat) (beta ratio : Int) : Int :=
  if ty = 6 ∨ ty = 7 then 2 ^ 60
  else
    let b4 := qm (qm beta beta) (qm beta beta)
    2 ^ 60 - qm (qr 351 1000 + qm (qr 256 1000) b4 + qm (qr 93 100) (qm b4 b4))
      (2 ^ 60 - powQ ratio (qr 1000 kappa))

/-- The Reader-Harris/Gallagher equation (R200). -/
def rhgC (taps : Nat) (beta pipe re : Int) : Int :=
  let one := (2 : Int) ^ 60
  let b2 := qm beta beta
  let b4 := qm b2 b2
  let inch := qd (qr 254 10000) pipe
  let l1 := if taps = 0 then 0 else if taps = 1 then one else inch
  let l2 := if taps = 0 then 0 else if taps = 1 then qr 47 100 else inch
  let m2 := qd (2 * l2) (one - beta)
  let a := powQ (qd (19000 * beta) re) (qr 8 10)
  let r := qd (1000000 * one) re
  qr 5961 10000 + qm (qr 261 10000) b2 - qm (qr 216 1000) (qm b4 b4) +
    qm (qr 521 1000000) (powQ (qm beta r) (qr 7 10)) +
    qm (qm (qr 188 10000 + qm (qr 63 10000) a) (powQ beta (qr 35 10))) (powQ r (qr 3 10)) +
    qm (qm (qr 43 1000 + qm (qr 80 1000) (expQ (-10 * l1)) - qm (qr 123 1000) (expQ (-7 * l1)))
      (one - qm (qr 11 100) a)) (qd b4 (one - b4)) -
    qm (qm (qr 31 1000) (m2 - qm (qr 8 10) (powQ m2 (qr 11 10)))) (powQ beta (qr 13 10)) +
    (if pipe < qr 7112 100000 then qm (qr 11 1000) (qm (qr 75 100 - beta) (qr 28 10 - qd pipe (qr 254 10000))) else 0)

/-- K of R202 over C: √(2ρ) ε (π/4) d² / √(1 − β⁴). -/
def flowFactor (beta bore eps rho : Int) : Int :=
  let b4 := qm (qm beta beta) (qm beta beta)
  qm (qm (qd eps (qsqrt (2 ^ 60 - b4))) (qm (qPi / 4) (qm bore bore))) (qsqrt (2 * rho))

/-- Re_D of a mass flow (R200): viscosity in 0.01 µPa·s. -/
def reynolds (q pipe : Int) (visc : Nat) : Int := qd (4 * q) (qm (qm qPi (qr visc 100000000)) pipe)

/-- The iteration of R201: C, its Re_D, and whether it met the test. -/
def iterateC (taps visc : Nat) (beta pipe f root : Int) : Nat → Int → Int × Int × Bool
  | 0, c => (c, reynolds (qm (qm c f) root) pipe visc, false)
  | k + 1, c =>
    let re := reynolds (qm (qm c f) root) pipe visc
    let c' := rhgC taps beta pipe re
    if 1000000 * (c' - c).natAbs ≤ c' then (c', re, true) else iterateC taps visc beta pipe f root k c'

/-- Low-flow cut-off (R204): a magnitude below PT_FL_CUTOFF of |URV| of slot 2, both in the role unit, 2^-32. -/
def State.belowCutoff (g : State) (p : Nat) (v : Int) : Bool :=
  decide (v.natAbs * 10000 < g.pn PT_FL_CUTOFF p * (g.pv (PT_FL_URV_0 + 2) p).natAbs * 2 ^ 32)

/-- The orifice in the burst (R199–R202): density and pressure of the flow side, its temperature in 0.001 °C 2^-32. (log 18) -/
def State.burstOrifice (s g : State) (p n : Nat) (rho press t : Int) : State :=
  let fl := (s.pt p).fl
  let ty := g.ptType p
  let d := g.plate p t
  let beta := qd d.1 d.2
  let dp := meanInt ((lastBurst n (fl.roles.getD 2 RoleState.reset).recent).map (fun v => (v.natAbs : Int)))
  let dpPa := dp * 2 ^ 28 / 100
  let ratio := qd (press - dpPa) press
  let eps := expansibility ty (g.pn PT_FL_KAPPA p) beta ratio
  let f := flowFactor beta d.1 eps rho
  let c0 := if fl.cC = 0 then qr 6 10 else fl.cC
  if g.belowCutoff p dp then s.modFl p (fun x => { x with cC := c0, eps := eps, kFlow := qm c0 f })
  else
    let r := iterateC (g.pn PT_FL_ORI_TAPS p) (g.pn PT_FL_VISC p) beta d.2 f (qsqrt dpPa) 8 c0
    let low := if beta ≤ qr 56 100 then decide (r.2.1 < 5000 * 2 ^ 60) else decide (r.2.1 < 16000 * qm beta beta)
    let out := low || decide (ratio < qr 75 100)
    s.modFl p (fun x => { x with
      cC := r.1, eps := eps, reD := r.2.1, kFlow := qm r.1 f
      nonConv := if r.2.2 then x.nonConv else inc32 x.nonConv
      outLim := if out then inc32 x.outLim else x.outLim })

/-! ### The burst (R197) -/

/-- Mean of a role's values over frames n − 15 to n. -/
def State.burstMean (s : State) (p n k : Nat) : Int :=
  meanInt (lastBurst n ((s.pt p).fl.roles.getD k RoleState.reset).recent)

/-- The flow side of a point: index of its state and slots of its temperature and pressure. -/
def State.flowSide (g : State) (p : Nat) : Nat × Nat × Nat :=
  if g.ptType p = 7 then (if g.pn PT_HEAT_FLOW_SIDE p = 1 then (1, 1, 4) else (0, 0, 3)) else (0, 1, 0)

/-- Density of the flow side. -/
def State.flowRho (s g : State) (p : Nat) : Int := ((s.pt p).fl.st.getD (g.flowSide p).1 FluidState.reset).rho

/-- The burst of point `p` in frame `n`. -/
def State.burst (s g : State) (p n : Nat) : State :=
  let ty := g.ptType p
  let pr (k : Nat) := g.absPress p (s.burstMean p n k)
  let tk (k : Nat) := kelvin (s.burstMean p n k)
  let s := s.modFl p (fun f => { f with freq := pulseFreq n f.freq (s.pt p).pulse })
  let s := if ty = 4 then
      (s.evalState g p 0 n true (pr 0) (tk 1)).evalState g p 1 n false (pr 4) (tk 3)
    else if ty = 5 then
      let seen (k : Nat) : Int := meanInt (lastBurst n ((s.pt p).fl.roles.getD k RoleState.reset).seen)
      let pb := g.roleUsed p 0 && decide (1600000 * 2 ^ 60 < g.absPress p (seen 0))
      let tb := g.roleUsed p 1 && decide (seen 1 < -20000 * 2 ^ 32 ∨ 80000 * 2 ^ 32 < seen 1)
      s.modFl p (fun f => { f with
        lineBad := [pb, tb]
        st := put f.st 0 { FluidState.reset with rho := airRho (pr 0) (tk 1), cls := 6 }
        rhoRef := airRho (g.pn PT_AIR_BASE_P p * 2 ^ 60) (kelvin (g.pv PT_AIR_BASE_T p * 2 ^ 32)) })
    else if ty = 6 then
      (s.evalState g p 0 n false (pr 0) (tk 1)).modFl p (fun f => { f with
        rhoRef := (if97 1 (g.pn PT_WATER_REF_P p * 2 ^ 60) (kelvin (g.pv PT_WATER_REF_T p * 2 ^ 32))).1 })
    else ((s.evalState g p 0 n false (pr 3) (tk 0)).evalState g p 1 n false (pr 4) (tk 1)).modFl p (fun f => { f with
      dT := s.burstMean p n 0 - s.burstMean p n 1 })
  if g.pn PT_FL_FLOW_SRC p = 0 then
    s.burstOrifice g p n (s.flowRho g p) (pr (g.flowSide p).2.2) (s.burstMean p n (g.flowSide p).2.1)
  else s

/-! ### Flow in a frame (R199–R206) -/

/-- What a flow adds in a frame: forward and reverse, mass in kg or volume in m³, 2^-60. -/
structure FlowSum where
  fwd : Int
  rev : Int
deriving DecidableEq, Repr

/-- One signed contribution. -/
def FlowSum.add (x : FlowSum) (v : Int) (inv : Bool) : FlowSum :=
  if (v < 0) = (inv = true) then { x with fwd := x.fwd + v.natAbs } else { x with rev := x.rev + v.natAbs }

/-- Signed mass flow in kg/s of a Δp in 0.01 Pa 2^-32 (R202). -/
def massFlow (k v : Int) : Int :=
  let m := qm k (qsqrt (v.natAbs * 2 ^ 28 / 100))
  if v < 0 then -m else m

/-- The volume of one counted unit, m³ 2^-60 (R203). -/
def State.unitVolume (s g : State) (p : Nat) : Int :=
  g.meterFactor p (s.pt p).fl.freq * 1000 / max 1 (g.pn PT_PLS_KFACTOR p)

/-- The pulse flow of a frame, L/h 2^-32, joins the mean of the interval that rule 0 may take (R214). -/
def State.takePulses (s g : State) (p fwd rev : Nat) : State :=
  if g.pn PT_FL_FLOW_SRC p ≠ 2 then s
  else
    let v := divFree (((fwd : Int) - rev) * s.unitVolume g p * 14400000000) (2 ^ 28)
    s.modFl p (fun f =>
      let bad := f.pls.faults != 0
      { f with pls := { f.pls with
        value := v, known := true, ivlBad := f.pls.ivlBad || bad
        ivlSum := if bad then f.pls.ivlSum else f.pls.ivlSum + v, ivlN := if bad then f.pls.ivlN else f.pls.ivlN + 1 } })

/-- The frame's flow: mass for an orifice, volume else (R202–R205); and whether it is substituted. (log 18) -/
def State.frameFlow (s g : State) (p n fwd rev : Nat) : FlowSum × Bool :=
  let src := g.pn PT_FL_FLOW_SRC p
  let inv := g.pb PT_FL_DIR_INVERT p
  let fl := (s.pt p).fl
  let z : FlowSum := ⟨0, 0⟩
  if src = 2 then
    if fl.pls.faults != 0 then (z.add (g.substValue p 2 fl.pls * 2 ^ 28 / (3600000 * 4000)) inv, true)
    else
      let u := s.unitVolume g p
      ((z.add (fwd * u) inv).add (-(rev * u)) inv, false)
  else
    let one (v : Int) : Int := if src = 0 then massFlow fl.kFlow v else v * 2 ^ 28 / 3600000
    if s.roleSubst g p 2 then (z.add (one (s.roleNow g p 2) / 4000) inv, true)
    else if !g.roleUsed p 2 then (z.add (one (s.roleNow g p 2) / 4000) inv, false)
    else
      let l := (s.signals g p 2 n).map (g.transmit p 2)
      (l.foldl (fun x v => if g.belowCutoff p v then x else x.add (one v / (4000 * l.length)) inv) z, false)

/-- FLOW_REVERSAL at the first reverse sample or edge of the interval (R206, Table 8.11); its count is of the intervals with reverse
flow, raised or not. -/
def State.reversal (s g : State) (p n : Nat) : State :=
  let bidir := g.pb PT_FL_BIDIR p
  if (s.pt p).fl.revSeen then s
  else
    let s := (s.modFl p (fun f => { f with revSeen := true })).countStart 27 p
    if bidir && !g.pb PT_FL_REV_EVENT p then s
    else s.raiseAt 27 p 20 false
    ([byteOf p, byteOf (b2n bidir), byteOf (g.pn PT_FL_FLOW_SRC p)] ++ zeros 5 ++ le 8 n ++ le 4 s.clk.interval) (zeros 8)

/-- A quantity in register units, u32.32, of an amount in kg, m³ or J, 2^-60: `k` register units a unit. -/
def regUnits (k : Nat) (v : Int) : Nat := (divFree (v * k) (2 ^ 28)).toNat

/-- Which quantities of a point are substituted in the frame (Table 8.9, R198): main and second. -/
def State.dependsSubst (s g : State) (p : Nat) (flow : Bool) : Bool × Bool :=
  let ty := g.ptType p
  let r (k : Nat) := s.roleSubst g p k
  let o (i : Nat) := ((s.pt p).fl.st.getD i FluidState.reset).oor
  let orif := g.pn PT_FL_FLOW_SRC p == 0
  let side := g.flowSide p
  if ty = 4 then (flow || r 0 || r 1 || o 0, flow || r 0 || r 1 || r 3 || r 4 || o 0 || o 1)
  else if ty = 5 then (flow || r 0 || r 1, flow || (orif && (r 0 || r 1)))
  else if ty = 6 then (flow || r 0 || r 1 || o 0, flow || r 0 || r 1 || o 0)
  else (flow || r 0 || r 1 || r 3 || r 4 || o 0 || o 1,
    flow || (orif && (r side.2.1 || r side.2.2 || o side.1)))

/-- Difference of enthalpies that the point bills, J/kg 2^-60 (R209, R212). (log 18) -/
def State.heatDiff (s g : State) (p : Nat) : Int :=
  let h (i : Nat) := ((s.pt p).fl.st.getD i FluidState.reset).h
  if g.ptType p = 7 ∧ (s.pt p).fl.dT.natAbs < g.pn PT_HEAT_DT_CUT p * 2 ^ 32 then 0 else h 0 - h 1

/-- Main and second quantity of a frame, each forward and reverse, u32.32 (Table 8.6, R209–R212). -/
def State.fluidQuantities (s g : State) (p : Nat) (x : FlowSum) : Nat × Nat × Nat × Nat :=
  let ty := g.ptType p
  let orif := g.pn PT_FL_FLOW_SRC p = 0
  let rho := s.flowRho g p
  let mass (v : Int) : Int := if orif then v else qm v rho
  let vol (v : Int) : Int := if orif then qd v rho else v
  let split (e : Int → Int) : Nat × Nat :=
    let a := e x.fwd
    let b := -(e x.rev)
    (regUnits 1 (max a 0 + max b 0), regUnits 1 (max (-a) 0 + max (-b) 0))
  if ty = 4 then
    let e := split (fun v => qm (mass v) (s.heatDiff g p))
    (regUnits 1000000 (mass x.fwd), regUnits 1000000 (mass x.rev), e.1, e.2)
  else if ty = 5 then
    let base (v : Int) : Int := qd (mass v) (s.pt p).fl.rhoRef
    (regUnits 1000000 (base x.fwd), regUnits 1000000 (base x.rev), regUnits 1000000 (vol x.fwd), regUnits 1000000 (vol x.rev))
  else if ty = 6 then
    let ref (v : Int) : Int := qd (mass v) (s.pt p).fl.rhoRef
    (regUnits 1000000 (ref x.fwd), regUnits 1000000 (ref x.rev), regUnits 1000000 (mass x.fwd), regUnits 1000000 (mass x.rev))
  else
    let e := split (fun v => qm (mass v) (s.heatDiff g p))
    (e.1, e.2, regUnits 1000000 (vol x.fwd), regUnits 1000000 (vol x.rev))

/-- The frame of a fluid point (R197–R214): the state, its eight frame quantities in the order of R267, and whether a
quantity was substituted. (log 18) -/
def State.fluidFrame (s g : State) (p n : Nat) : State × List Nat × Bool × Bool :=
  let s := (List.range 8).foldl (fun s k => if (g.fluidSlots p).contains k then s.takeRole g p n k else s) s
  let s := s.modFl p (fun f => { f with
    exTrip := if f.exLevel then some n else f.exTrip, exRun := if f.exLevel then 0 else f.exRun + 1 })
  let u := takeUnits n (s.t0 n - 250000) (s.pt p).pulse
  let s := s.modPt p (fun x => { x with
    pulse := u.2.2 })
  let s := if n % 16 = p then s.burst g p n else s
  let s := s.takePulses g p u.1 u.2.1
  let fl := s.frameFlow g p n u.1 u.2.1
  let q := s.fluidQuantities g p fl.1
  let d := s.dependsSubst g p fl.2
  let s := if 0 < fl.1.rev ∧ fl.2 = false then s.reversal g p n else s
  let neg := g.ptType p == 7 && decide (0 < fl.1.fwd) && decide (s.heatDiff g p < 0)
  let s := s.modFl p (fun f => { f with
    negHeat := if neg then inc32 f.negHeat else f.negHeat
    flow := [((q.1 : Int) - q.2.1) * 4000, ((q.2.2.1 : Int) - q.2.2.2) * 4000] })
  let m := [q.1, q.2.1]
  let e := [q.2.2.1, q.2.2.2]
  let z := [0, 0]
  let used := (g.fluidSlots p).any (fun k => s.roleSubst g p k)
  (s, (if d.1 then z else m) ++ (if d.2 then z else e) ++ (if d.1 then m else z) ++ (if d.2 then e else z),
    d.1 || d.2 || used, d.1)

/-- A role's interval closes (R214): its mean is good where it was free of faults. -/
def RoleState.closeInterval (x : RoleState) : RoleState :=
  let x := if !x.ivlBad && 0 < x.ivlN then { x with lastGood := divFree x.ivlSum x.ivlN, hasGood := true } else x
  { x with ivlSum := 0, ivlN := 0, ivlBad := false }

/-- The fluid interval closes (R194, R206, R214). -/
def Point.closeFluid (x : Point) : Point :=
  { x with
    fl := { x.fl with roles := x.fl.roles.map RoleState.closeInterval, pls := x.fl.pls.closeInterval, revSeen := false }
    pulse := { x.pulse with cleanIvl := x.pulse.ivlErr == 0, ivlErr := 0 } }

/-! ### Sensor faults (R109, R110, R213) -/

/-- EXCITATION_COMPLIANCE (R107, R109): the comparator of source `p` trips or releases. -/
def execExcitationCompliance (t p : Nat) (tripped : Bool) (s : State) : Host.Outcome State Fault Refusal :=
  let s := s.at t
  if s.excLevel p = 0 then .next s
  else .next (s.modFl p (fun f =>
    if tripped then { f with exLevel := true, exTrip := some s.frm, exRun := 0 } else { f with exLevel := false }))

/-- The role state behind a fault source: a slot 0–7, or the pulse input (0x10, 0x11). -/
def State.roleAt (s : State) (p src : Nat) : RoleState :=
  if src < 8 then (s.pt p).fl.roles.getD src RoleState.reset else (s.pt p).fl.pls

/-- The source is a role in use of a fluid point. -/
def State.srcUsed (s : State) (p src : Nat) : Bool :=
  if src < 8 then s.roleUsed p src else isFluid (s.ptType p) && s.pn PT_FL_FLOW_SRC p == 2

/-- The channel whose limits a slot source stands for: the one that carries the slot's role, or, where no role has channel 8p + slot,
that channel, a course's first in COURSED mode (04 R24, R110, 09 R222). -/
def State.limitChan (s : State) (p src : Nat) : Option Nat :=
  if 8 ≤ src then none
  else if s.roleUsed p src then s.roleChan p src
  else if (s.fluidSlots p).any (fun r => s.roleUsed p r && s.roleChan p r == some (8 * p + src)) then none
  else if s.eng.mode = 1 ∧ src % 2 = 1 then none
  else some (8 * p + src)

/-- Whether the condition of a cause has lasted long enough to declare it (R110, Table 8.8). -/
def State.faultDue (s : State) (p src cause : Nat) : Bool :=
  let r := s.roleAt p src
  let f := (s.pt p).fl
  if cause < 2 then
    (match s.limitChan p src with
    | some c => s.pn CH_FILTER c != 0 && (s.slice c).limFault.isNone && (s.slice c).outSide == cause &&
        decide (s.pn CH_LIMIT_FRAMES c ≤ (s.slice c).outRun)
    | none => false)
  else if !s.srcUsed p src || r.faults.testBit cause then false
  else if cause = 2 then src < 8 && s.inputKind p src == 3 && (match f.exTrip with | some a => decide (a < s.frm) | none => false) && f.exRun < 40
  else if cause = 3 then src < 8 && s.inputKind p src == 3 && 4 ≤ r.bad
  else if cause = 4 then 16 ≤ src && s.pn PT_PLS_ERR_LIMIT p ≤ (s.pt p).pulse.ivlErr
  else cause == 5 && s.ptType p == 5 && src < 2 && f.lineBad.getD src false

/-- Whether a fault in force has been good for its clearing count (Table 8.8). -/
def State.faultOver (s : State) (p src cause : Nat) : Bool :=
  let r := s.roleAt p src
  let f := (s.pt p).fl
  if cause < 2 then
    (match s.limitChan p src with
    | some c => (s.slice c).limFault == some cause && decide (s.pn CH_LIMIT_FRAMES c ≤ (s.slice c).inRun)
    | none => false)
  else if !r.faults.testBit cause then false
  else if cause = 2 then 40 ≤ f.exRun
  else if cause = 3 then 4 ≤ r.good
  else if cause = 4 then (s.pt p).pulse.cleanIvl && (s.pt p).pulse.ivlErr == 0
  else cause == 5 && !f.lineBad.getD src false

/-- SENSOR_FAULT (Table 8.10). (log 18) -/
def State.faultEvent (s : State) (p src cause edge : Nat) : State :=
  let r := s.roleAt p src
  let k := if src < 8 then src else 2
  let fluid := isFluid (s.ptType p) && s.srcUsed p src
  let rule := if !fluid then 255 else if s.pn (PT_FL_SUBST_RULE_0 + k) p = 0 ∧ r.hasGood = true then 0 else 1
  let value := if fluid then r.value / 2 ^ 32 else (s.slice ((s.limitChan p src).getD (8 * p + src))).mean
  let sub := if fluid ∧ edge = 0 then s.substValue p k r / 2 ^ 32 else 0
  s.raiseAt 26 p 24 (edge == 0) ([byteOf p, byteOf src, byteOf cause, byteOf edge, byteOf rule, 0, 0, 0] ++ le 8 s.frm ++
    leI 4 (clipI 32 value) ++ leI 4 (clipI 32 sub)) (zeros 4)

/-- A cause put in force or out of force on its channel and role. -/
def State.putFault (s : State) (p src cause : Nat) (b : Bool) : State :=
  let s := if cause < 2 then s.modSlice ((s.limitChan p src).getD (8 * p + src)) (fun x => { x with
      limFault := if b then some cause else none }) else s
  if !s.srcUsed p src then s
  else if src < 8 then s.modRole p src (fun x => { x with faults := putBit x.faults cause b })
  else s.modFl p (fun f => { f with pls := { f.pls with faults := putBit f.pls.faults cause b } })

/-- SENSOR_FAULT_DECLARED (R110, R213). -/
def execSensorFaultDeclared (t p src cause : Nat) (s : State) : Host.Outcome State Fault Refusal :=
  let s := s.at t
  if s.faultDue p src cause then .next ((s.faultEvent p src cause 0).putFault p src cause true) else .next s

/-- SENSOR_FAULT_CLEARED (R110, R213). -/
def execSensorFaultCleared (t p src cause : Nat) (s : State) : Host.Outcome State Fault Refusal :=
  let s := s.at t
  if s.faultOver p src cause then
    let s := (s.faultEvent p src cause 1).putFault p src cause false
    .next (if cause = 2 then s.modFl p (fun f => { f with exTrip := none }) else s)
  else .next s

end Sys2Proof.Machine
end

