-- ==== Sys2Proof/Machine/Spectrum.lean ====
section
/-!
DEFINITION. The transforms of power quality (07 R172–R174, R178): resampling of a window, the bins of its transform with the
responses of the channel's stages divided out, grouping, and the bands of a wideband spectrum. Numbers without another unit
are in units of 2^-60 (log entry 4).
-/

namespace Sys2Proof.Machine

/-! ### Resampling (R172) -/

/-- Tap at `d` / 1,024 input samples from the centre of the resampler's kernel, before normalisation: a sinc of cut-off 0.45 times the new
rate under a Kaiser window of β = 8 and half length 24. `num / den` is the new rate over the old one. (log 50) -/
def resampleRaw (num den : Nat) (d : Int) : Int :=
  if d = 0 then qm (2 * qPi * (45 * num : Nat) / (102400 * den : Nat)) (kaiser 8 0 24576)
  else qm (sinTurn (45 * num * d) (102400 * den)) (kaiser 8 d 24576) / d

/-- The 48 taps of a phase, unity gain at 0 Hz. -/
def resampleTaps (num den phase : Nat) : List Int :=
  let raw := (List.range 48).map (fun (k : Nat) => resampleRaw num den (1024 * ((k : Int) - 23) - phase))
  let sum := raw.foldl (· + ·) 0
  raw.map (fun x => x * 2 ^ 60 / sum)

/-- A window's `points` values, equally spaced from `start` (ns) to `stop`, exclusive: `hist` holds the samples newest first, one each `T` ns,
and the sample after the newest would lie at `endAt`. -/
def resampled (hist : List Int) (T endAt start stop points : Nat) : List Int :=
  let x := hist.toArray
  let table := ((List.range 1024).map (resampleTaps (points * T) (stop - start))).toArray
  (List.range points).map (fun i =>
    let q := ((endAt - T) * points - (start * points + i * (stop - start))) * 1024 / (T * points)
    let a := q / 1024
    let taps := table.getD (q % 1024) []
    (taps.mapIdx (fun k c => c * x.getD (a + k - 23) 0)).foldl (· + ·) 0 / 2 ^ 60)

/-! ### Responses of a channel's stages (R172, R133, R136) -/

/-- Response of a linear-phase FIR stage, in the unit of its taps, at `num / den` turns a sample. -/
def firResponse (taps : List Int) (num den : Nat) : Int :=
  let c : Int := taps.length - 1
  (taps.mapIdx (fun (k : Nat) t => qm t (cosTurn ((2 * (k : Int) - c) * num) (2 * den)))).foldl (· + ·) 0

/-- Response of the interpolator at a phase, at `num / den` turns a sample: about the delay it stands for (R128). -/
def interpResponse (phase num den : Nat) : Int :=
  ((interpTaps phase).mapIdx (fun (k : Nat) t =>
    qm t (cosTurn ((1024 * (8 - (k : Int)) - phase) * num) (1024 * den)))).foldl (· + ·) 0

/-- Response of the decimation chain of Table 5.1 at `num / den` Hz: standard at 32 or 8 kSa/s, or the wideband stream. (log 50) -/
def chainResponse (code : Nat) (fine : Int) (num den : Nat) : Int :=
  let phase := padSteps code fine % 1024
  let s1 := firResponse sincTaps num (8192000 * den) * 2 ^ 60 / 4096
  if code = 2 then
    qm (qm s1 (interpResponse phase num (1024000 * den))) (firResponse (finalTaps 2 15) num (1024000 * den) * 2 ^ 30)
  else
    let s2 := firResponse sincTaps num (1024000 * den) * 2 ^ 60 / 4096
    let last := if code = 0 then firResponse (finalTaps 0 17) num (128000 * den) else firResponse (finalTaps 1 65) num (128000 * den)
    qm (qm s1 s2) (qm (interpResponse phase num (128000 * den)) (last * 2 ^ 30))

/-- Quotient of a phasor and a real response; a response of 0 leaves 0. -/
def overResponse (x : Int × Int) (r : Int) : Int × Int := (qd x.1 r, qd x.2 r)

/-- One DC-block stage divided out: 1 − j fc / f, with fc / f in units of 2^-60 (R132, R133). -/
def undoBlock (ratio : Int) (x : Int × Int) : Int × Int := (x.1 + qm x.2 ratio, x.2 - qm x.1 ratio)

/-! ### Bins (R172) -/

/-- Bin `k` of the transform of `xs`: Σ x e^(−2πj k i / N). -/
def dftBin (cosT sinT : Array Int) (xs : Array Int) (k : Nat) : Int × Int :=
  let n := xs.size
  let r := (List.range n).foldl (fun (a : Int × Int) i =>
    let x := xs.getD i 0
    (a.1 + x * cosT.getD (k * i % n) 0, a.2 - x * sinT.getD (k * i % n) 0)) (0, 0)
  (r.1 / 2 ^ 60, r.2 / 2 ^ 60)

/-- What a channel's stages do to a bin (R172). -/
structure Response where
  code : Nat
  fine : Int
  chain : ChainSet
deriving DecidableEq, Repr

/-- The RMS phasors of bins 0 to `count` − 1 of a window of `points` samples in primary units 2^-47 and `length` ns, in primary units 2^-32,
after the responses are divided out. -/
def windowBins (r : Response) (xs : List Int) (length points count : Nat) : Array (Int × Int) :=
  let cosT := ((List.range points).map (fun (i : Nat) => cosTurn i points)).toArray
  let sinT := ((List.range points).map (fun (i : Nat) => sinTurn i points)).toArray
  let x := xs.toArray
  ((List.range count).map (fun k =>
    if k = 0 then (0, 0)
    else
      let b := dftBin cosT sinT x k
      let c := (qm b.1 qSqrt2 / (points : Int), qm b.2 qSqrt2 / (points : Int))
      let c := overResponse c (chainResponse r.code r.fine (k * 1000000000) length)
      let ratio := qr ([0, 1, 2, 4].getD r.chain.corner 0 * length : Nat) (2 * k * 1000000000)
      let c := (List.range (dcStages r.chain)).foldl (fun c _ => undoBlock ratio c) c
      let c := if r.chain.integ = 0 then c else overResponse c (rInt length r.chain.fs k * 2 ^ 12)
      (c.1 / 2 ^ 15, c.2 / 2 ^ 15))).toArray

/-- Square of a bin. -/
def binSq (b : Int × Int) : Nat := b.1.natAbs ^ 2 + b.2.natAbs ^ 2

/-! ### Grouping and angles (R173, R174) -/

/-- Y_h by subgroup or group over the squares of the bins (Table 7.3). (log 4) -/
def harmonic (sq : Nat → Nat) (C h grouping : Nat) : Nat :=
  let m := C * h
  if grouping = 0 then isqrt (sq (m - 1) + sq m + sq (m + 1))
  else
    let P := C / 2
    isqrt ((sq (m - P) + sq (m + P)) / 2 + (List.range (2 * P - 1)).foldl (fun a i => a + sq (m + i + 1 - P)) 0)

/-- Y_ih between orders h and h+1 (Table 7.3). (log 4) -/
def interharmonic (sq : Nat → Nat) (C h grouping : Nat) : Nat :=
  let lo := if grouping = 0 then 2 else 1
  let hi := if grouping = 0 then C - 2 else C - 1
  let lo := if h = 0 then 1 else lo
  isqrt ((List.range (hi + 1 - lo)).foldl (fun a i => a + sq (C * h + lo + i)) 0)

/-- An angle brought to −18,000 to 17,999 hundredths of a degree (R174). -/
def wrapAngle (a : Int) : Int := (a + 18000) % 36000 - 18000

/-- An angle in units of 2^-60 as hundredths of a degree (R174). (log 4) -/
def hundredths (a : Int) : Int := wrapAngle (divFree (a * 18000) qPi.toNat)

/-- A ratio in 0.001 %. (log 54) -/
def ratioOf (y y1 : Nat) : Nat := if y1 = 0 then 0 else min (y * 100000 / y1) (2 ^ 32 - 1)

/-! ### Wideband spectra (R178) -/

/-- The periodic Hann window at sample `i` of 512. -/
def hann (i : Nat) : Int := (qOne - cosTurn i 512) / 2

/-- Band `m` of a spectrum: the square of Y_m in millionths of the primary unit, from 512 samples in primary units 2^-47 oldest first,
corrected for the droop of the wideband chain. (log 54) -/
def bandSquare (fine : Int) (xs : List Int) (m : Nat) : Nat :=
  let cosT := ((List.range 512).map (fun (i : Nat) => cosTurn i 512)).toArray
  let sinT := ((List.range 512).map (fun (i : Nat) => sinTurn i 512)).toArray
  let b := dftBin cosT sinT (xs.mapIdx (fun i x => x * hann i / 2 ^ 60)).toArray m
  let c := overResponse b (chainResponse 2 fine (2000 * m) 1)
  2 * binSq c * 10 ^ 12 / (65536 * 2 ^ 94)

/-! ### Unbalance (06 R155) -/

/-- An unsigned value that fits `bits` (06 R156). -/
def fitU (bits : Nat) (v : Int) : Int := max 0 (min v ((2 ^ bits : Nat) - 1))

/-- The magnitude of a phasor. -/
def magnitude (a : Int × Int) : Nat := isqrt (a.1.natAbs ^ 2 + a.2.natAbs ^ 2)

/-- √3 / 2 with 60 fraction bits. -/
def halfRoot3 : Int := 998459311558907193

/-- Three times a symmetrical component times 2^61 (06 R155): `sign` 1 for V1, −1 for V2, 0 for V0. -/
def component (a b c : Int × Int) (sign : Int) : Int × Int :=
  if sign = 0 then ((a.1 + b.1 + c.1) * 2 ^ 61, (a.2 + b.2 + c.2) * 2 ^ 61)
  else
    (a.1 * 2 ^ 61 - (b.1 + c.1) * 2 ^ 60 - sign * 2 * halfRoot3 * (b.2 - c.2),
     a.2 * 2 ^ 61 - (b.2 + c.2) * 2 ^ 60 + sign * 2 * halfRoot3 * (b.1 - c.1))

/-- An unbalance in 0.001 %, u16 (06 R155). -/
def unbalance (a b c : Int × Int) (sign : Int) : Int :=
  let d := magnitude (component a b c 1)
  if d = 0 then 0 else fitU 16 (divHalfAway (magnitude (component a b c sign) * 100000) d)

/-- The fundamental phasor of a slot. -/
def Electrical.phasor (e : Electrical) (k : Nat) : Int × Int := match e.fund.find? (fun x => x.1 == k) with | some x => x.2 | none => (0, 0)

/-- The line phasors behind the unbalance: voltages from slot 0, currents from slot 4 (06 R155). -/
def Electrical.three (e : Electrical) (w k : Nat) : (Int × Int) × (Int × Int) × (Int × Int) :=
  let a := e.phasor k
  let b := e.phasor (k + 1)
  let c := e.phasor (k + 2)
  if w ≠ 2 then (a, b, c)
  else if k = 0 then (a, (-c.1, -c.2), (c.1 - a.1, c.2 - a.2))
  else (a, (-a.1 - c.1, -a.2 - c.2), c)

/-- The four unbalances of a point, 0.001 %: voltage negative and zero sequence, current negative and zero sequence (06 R155). -/
def Electrical.unbalances (e : Electrical) (w : Nat) : List Int :=
  let v := e.three w 0
  let c := e.three w 4
  [unbalance v.1 v.2.1 v.2.2 (-1), unbalance v.1 v.2.1 v.2.2 0, unbalance c.1 c.2.1 c.2.2 (-1), unbalance c.1 c.2.1 c.2.2 0]

/-- The window's unbalances join the interval's means (06 Table 6.3). -/
def Electrical.takeUnbalances (w : Nat) (e : Electrical) : Electrical :=
  { e with unbIvl := (e.unbalances w).mapIdx (fun i x => e.unbIvl.getD i 0 + x), unbN := e.unbN + 1 }

end Sys2Proof.Machine
end

