-- ==== Sys2Proof/Machine/Quality.lean ====
section
/-!
DEFINITION. Power quality (07): dips, swells and interruptions, harmonic windows and limits, supraharmonic blocks and
limits, and waveform capture.
-/

namespace Sys2Proof.Machine

/-! ### Capture (R181–R183) -/

/-- Header words of a capture (Table 7.5). -/
def capHeader (p slots cause first pre rate : Nat) : List Nat :=
  [2 ^ 24 + p * 2 ^ 16 + slots * 2 ^ 8 + cause, first % 2 ^ 32, first / 2 ^ 32 % 2 ^ 16, pre * 2 ^ 16 + rate]

/-- The words of one frame block: marker, and for each sample index one word a captured slot; an invalid frame is its
marker alone. -/
def capBlock (slots : Nat) (b : Nat × List (List Int)) : List Nat :=
  let l : List (List Int) := (bitsOf 8 slots).map (fun k => b.2.getD k [])
  let n := l.foldl (fun a x => max a x.length) 0
  b.1 :: (List.range n).flatMap (fun i => l.map (fun x => (x.getD i 0 % 4294967296).toNat))

/-- Words pushed into the capture stream while its unit is still being written. -/
def State.capPush (s : State) (ws : List Nat) : State :=
  s.modStream 2 (fun f => ws.foldl (fun f w => fifoPush 16 s.clk.up w false f) f)

/-- The trailer ends the capture (Table 7.5). -/
def State.capTrailer (s : State) (c : Capture) (truncated : Bool) : State :=
  let w := b2n truncated * 2 ^ 31 + min c.missed 255 * 2 ^ 16 + c.frames % 2 ^ 16
  ((s.modEng (fun e => { e with capture := none })).modStream 2 (fun f => fifoPush 16 s.clk.up w true f)).unitDone 2

/-- One frame block of the running capture, where the FIFO has room for it and one word more (R183). (log 39) -/
def State.capFrame (s : State) (b : Nat × List (List Int)) : State :=
  match s.eng.capture with
  | some c =>
    let ws := capBlock c.slots b
    if s.streamRoom 2 < ws.length + 1 then (if 0 < s.streamRoom 2 then s.capTrailer c true
      else (s.modEng (fun e => { e with capture := none })).wordLost 2)
    else
      let c' := { c with frames := c.frames + 1, words := c.words + ws.length, left := c.left - 1 }
      let s := (s.capPush ws).modEng (fun e => { e with capture := some c' })
      if c'.left = 0 then s.capTrailer c' false else s
  | none => s

/-- A trigger at this moment starts a capture: none runs, and the header and a trailer find room (R181, R183). (log 39) -/
def State.canCapture (s : State) : Bool := s.eng.capture.isNone && 5 ≤ s.streamRoom 2

/-- A trigger at a point (R181): served where no capture runs, else counted as missed. (log 39) -/
def State.capTrigger (s : State) (p cause n : Nat) : State :=
  match s.eng.capture with
  | some c => s.modEng (fun e => { e with capture := some { c with missed := satAdd 8 c.missed 1 } })
  | none =>
    let rate := if s.eng.mode = 3 then 2 else 8
    let slots := mapOf 8 ((bitsOf 8 (s.pn PT_CAP_SLOTS p)).filter (fun k => s.pn CH_FILTER (8 * p + k) == 1))
    let old := ((s.pt p).pq.pre.take (s.pn PT_CAP_PRE p)).reverse
    let pre := old.length
    if s.canCapture = false then s
    else
      let s := (s.modEng (fun e => { e with
        capture := some ⟨p, s.pn PT_CAP_POST p + pre, 0, 4, slots, 0⟩ })).capPush
          (capHeader p slots cause (n - pre) pre rate)
      old.foldl (fun s b => s.capFrame b) s

/-- The frame block of a point: its marker and its slots' samples after step 5, each slice's own at its gain (R182). -/
def State.capRecord (s : State) (p : Nat) (valid : Bool) : Nat × List (List Int) :=
  let sl := (List.range 8).map (fun k => s.slice (8 * p + k))
  if !valid then (2 ^ 24 - 1, [])
  else
    let clip := bitmapOf (sl.map (fun x => x.clip != 0))
    let gains := (List.range 8).foldl (fun a k =>
      a + (match (sl.getD k Slice.reset).out with | x :: _ => x.2 | [] => 0) * 2 ^ (3 * k)) 0
    (clip * 2 ^ 24 + gains, sl.map (fun x => x.out.map (·.1)))

/-- The last 64 frames are kept, and a capture of the point goes on (R181). -/
def State.capStep (s : State) (p : Nat) (valid : Bool) : State :=
  let b := s.capRecord p valid
  let s := s.modPt p (fun x => { x with pq := { x.pq with pre := (b :: x.pq.pre).take 64 } })
  match s.eng.capture with
  | some c => if c.pt = p then s.capFrame b else s
  | none => s

/-- capture (R181): WRONG_STATE while a capture runs. (log 39) -/
def serveCapture (p : Bytes) (s : State) : Ans :=
  onPoint (fun p s =>
    if s.ptType p = 0 then refuse s 5
    else if s.eng.capture.isSome then refuse s 8
    else okS (s.capTrigger p 0 s.frm)) p s

/-- CAPTURE. -/
def execCapture (h : Hdr) (p : Bytes) (s : State) : Host.Outcome State Fault Refusal := hostCmd 0x0311 h p serveCapture s

/-! ### Dips, swells and interruptions (R168–R170) -/

/-- Power quality is measured on the point. -/
def State.pqOn (g : State) (p : Nat) : Bool :=
  (g.ptType p == 1 || g.ptType p == 3) && g.pn PT_WIRING p != 3 && g.pb PT_PQ_ENABLE p

/-- One-cycle RMS of every examined voltage, 2^-47 V. -/
def State.pqVolts (s g : State) (p : Nat) : List Nat :=
  let e := (s.pt p).el
  let w := g.pn PT_WIRING p
  let one := (voltSlots w).map (fun r => (e.oneRms.getD r 0).natAbs)
  if w = 2 then
    let k := g.roleSet p 0
    let d := List.zipWith (· - ·) (e.rms.getD 2 []) (e.rms.getD 0 [])
    one ++ [(oneCycle k false e.tc (k.fs * e.tc / 1000000000) d).natAbs]
  else one

/-- A voltage below a fraction of U_d: `th` in 0.1 %. -/
def belowUd (ud th v : Nat) : Bool := v * 100000 < ud * th * 2 ^ 47

/-- A voltage above a fraction of U_d. -/
def aboveUd (ud th v : Nat) : Bool := ud * th * 2 ^ 47 < v * 100000

/-- A voltage crosses the start threshold of a kind (Table 7.1). -/
def State.pqCross (g : State) (p kind v : Nat) : Bool :=
  let ud := g.pn PT_U_DECLARED p
  if kind = 0 then belowUd ud (g.pn PT_DIP_THRESH p) v
  else if kind = 1 then aboveUd ud (g.pn PT_SWELL_THRESH p) v
  else belowUd ud (g.pn PT_INTR_THRESH p) v

/-- The start condition of a kind (Table 7.1). -/
def State.pqStart (g : State) (p kind : Nat) (vs : List Nat) : Bool :=
  if kind = 2 then !vs.isEmpty && vs.all (g.pqCross p kind) else vs.any (g.pqCross p kind)

/-- The end condition of a kind (Table 7.1). -/
def State.pqEnd (g : State) (p kind : Nat) (vs : List Nat) : Bool :=
  let ud := g.pn PT_U_DECLARED p
  let h := g.pn PT_PQ_HYST p
  if kind = 0 then vs.all (fun v => !belowUd ud (g.pn PT_DIP_THRESH p + h) v)
  else if kind = 1 then vs.all (fun v => !aboveUd ud (g.pn PT_SWELL_THRESH p - h) v)
  else vs.any (fun v => !belowUd ud (g.pn PT_INTR_THRESH p + h) v)

/-- An event takes a frame's voltages: the extreme, and who crossed (R169, Table 7.6). -/
def State.pqTake (g : State) (p : Nat) (vs : List Nat) (e : PqEvent) : PqEvent :=
  (List.range vs.length).foldl (fun e i =>
    let v := vs.getD i 0
    let e := if (if e.kind = 1 then e.extreme < v else v < e.extreme) then { e with extreme := v, extV := i } else e
    if g.pqCross p e.kind v then { e with phases := putBit e.phases i true } else e) e

/-- Raise QUALITY_EVENT (Table 7.6). (logs 39, 54) -/
def State.pqEvent (s g : State) (p edge n : Nat) (e : PqEvent) (cap : Bool) : State :=
  let el := (s.pt p).el
  let clip := el.frmFlags % 256 != 0
  s.raiseMid 21 p ([byteOf p, byteOf e.kind, byteOf edge, byteOf e.phases] ++ le 8 (e.start * 250000 - 250000) ++
    le 4 (if edge = 0 then 0 else min (n - e.start) (2 ^ 32 - 1)) ++ le 4 (min (e.extreme * 10000 / 2 ^ 47) (2 ^ 32 - 1)) ++
    [byteOf e.extV, byteOf (bitmapOf [!el.valid, clip, e.missing, cap]), 0, 0])
    (le 4 (min (g.pn PT_U_DECLARED p * 100) (2 ^ 32 - 1)))

/-- Every event under way at a point ends in frame `n` (R170, R185). (log 39) -/
def State.pqEndAll (s g : State) (p n : Nat) : State :=
  let evs := (s.pt p).pq.events
  evs.foldl (fun s e => s.pqEvent g p 1 n e false) (s.modPt p (fun x => { x with pq := { x.pq with events := [] } }))

/-- One kind in one frame (R168, R169, R181). The frame that ends an event is not of it. -/
def State.pqKind (s g : State) (p n kind : Nat) (vs : List Nat) : State :=
  match (s.pt p).pq.events.find? (fun e => e.kind == kind) with
  | some e =>
    if g.pqEnd p kind vs then
      (s.modPt p (fun x => { x with pq := { x.pq with events := x.pq.events.filter (fun y => y.kind != kind) } })).pqEvent g p 1 n
        e false
    else s.modPt p (fun x => { x with pq := { x.pq with
      events := x.pq.events.map (fun y => if y.kind = kind then g.pqTake p vs e else y) } })
  | none =>
    if g.pqStart p kind vs then
      let e := g.pqTake p vs ⟨kind, n, vs.headD 0, 0, 0, false⟩
      let cap := (g.pn PT_CAP_TRIGGERS p).testBit kind
      let go := cap && s.canCapture
      let s := s.modPt p (fun x => { x with pq := { x.pq with events := x.pq.events ++ [e] } })
      let s := s.pqEvent g p 0 n e go
      if cap then s.capTrigger p (kind + 1) n else s
    else s

/-- Detection in frame `n` (R168, R170). -/
def State.pqDetect (s g : State) (p n : Nat) (valid : Bool) : State :=
  if !valid then
    s.modPt p (fun x => { x with pq := { x.pq with events := x.pq.events.map (fun e => { e with missing := true }) } })
  else if g.pqOn p then
    let vs := s.pqVolts g p
    [0, 1, 2].foldl (fun s k => s.pqKind g p n k vs) s
  else s.pqEndAll g p n

/-! ### Harmonic windows (R171–R176) -/

/-- C, the cycles of a window (R171). -/
def State.winC (g : State) (p : Nat) : Nat := if g.pn PT_F_NOM p = 1 then 12 else 10

/-- H_max of the running mode (Table 7.2). -/
def hMax (mode : Nat) : Nat := if mode = 2 then 50 else if mode = 3 then 25 else 63

/-- N_w of the running mode (Table 7.2). -/
def winPoints (mode : Nat) : Nat := if mode = 3 then 1024 else 2048

/-- The roles a window analyses: voltages and currents of the wiring. -/
def State.winRoles (g : State) (p : Nat) : List Nat := voltSlots (g.pn PT_WIRING p) ++ currSlots (g.pn PT_WIRING p)

/-- The stages of the channel that carries a role, as its bins are corrected for them (R172). -/
def State.responseOf (g : State) (p r : Nat) : Response :=
  ⟨if g.fast then 0 else 1, g.pv CH_FINE_DELAY ((g.roleChan p r).getD 0), g.roleSet p r⟩

/-- Nanoseconds from one standard sample to the next. -/
def State.samplePeriod (g : State) : Nat := if g.fast then 31250 else 125000

/-- The bins of a role in the window from `start` to `stop`. -/
def State.winBins (s g : State) (p r start stop : Nat) : Array (Int × Int) :=
  let q := (s.pt p).pq
  let N := winPoints g.eng.mode
  windowBins (g.responseOf p r) (resampled (q.hist.getD r []) g.samplePeriod q.histEnd start stop N) (stop - start) N
    (g.winC p * (hMax g.eng.mode + 2))

/-- The values of one window for a role: Y_1 to Y_Hmax with their angles, Y_ih, THD and the fundamental phasor. `ref` is φ_ref in units
of 2^-60. -/
def State.winValues (g : State) (p : Nat) (bins : Array (Int × Int)) (ref : Int) :
    List (Nat × Int) × List Nat × Nat × (Int × Int) :=
  let C := g.winC p
  let H := hMax g.eng.mode
  let bin (k : Nat) := bins.getD k (0, 0)
  let sq (k : Nat) := binSq (bin k)
  let gr := g.pn PT_HARM_GROUPING p
  let ys := (List.range H).map (fun (i : Nat) =>
    (harmonic sq C (i + 1) gr, hundredths (angleQ (bin (C * (i + 1))).1 (bin (C * (i + 1))).2 - ((i : Int) + 1) * ref)))
  let y1 := match ys with | a :: _ => a.1 | [] => 0
  let thd := ratioOf (isqrt ((ys.drop 1).foldl (fun a y => a + y.1 ^ 2) 0)) y1
  (ys, (List.range H).map (fun h => interharmonic sq C h gr), thd, bin C)

/-- P1 of the window in 2^-64 W: the real part of U1 times the conjugate of I1 over the phases (R155). -/
def fundPower (w : Nat) (f : List (Nat × Int × Int)) : Int :=
  let ph (r : Nat) : Int × Int := match f.find? (fun x => x.1 == r) with | some x => x.2 | none => (0, 0)
  let z := if w = 1 then [(0, 4), (1, 5), (2, 6)] else if w = 2 then [(0, 4), (2, 6)] else [(0, 4)]
  z.foldl (fun a r => a + (ph r.1).1 * (ph r.2).1 + (ph r.1).2 * (ph r.2).2) 0

/-- One limit of R177 and R180: in excess or clear after a run. Answers the new entry. -/
def limitStep (runs : List (Nat × Nat × Nat × Bool)) (slot order value limit need : Nat) : Nat × Nat × Nat × Bool :=
  let old := match runs.find? (fun x => x.1 == slot && x.2.1 == order) with | some x => x | none => (slot, order, 0, false)
  let exceed := limit < value
  if old.2.2.2 then
    (if exceed then (slot, order, 0, true)
     else if need ≤ old.2.2.1 + 1 then (slot, order, 0, false) else (slot, order, old.2.2.1 + 1, true))
  else if exceed then
    (if need ≤ old.2.2.1 + 1 then (slot, order, 0, true) else (slot, order, old.2.2.1 + 1, false))
  else (slot, order, 0, false)

/-- The checked quantities of a window: slot, order (1 for THD), value as reported and limit, in 0.001 % (R177).
(log 54) -/
def State.harmChecks (s g : State) (p : Nat) : List (Nat × Nat × Nat × Nat) :=
  let q := (s.pt p).pq
  let w := g.pn PT_WIRING p
  let v := (voltSlots w).flatMap (fun r =>
    let ys := q.lastWin.getD r []
    let y1 := match ys with | a :: _ => a.1 | [] => 0
    ((List.range (hMax g.eng.mode - 1)).map (fun i =>
      (r, i + 2, ratioOf (ys.getD (i + 1) (0, 0)).1 y1, 10 * g.pn (PT_HARM_U_LIM_2 + i) p))) ++
    [(r, 1, q.lastThd.getD r 0, 10 * g.pn PT_THD_U_LIMIT p)])
  let i := (currSlots w).map (fun r => (r, 1, q.lastThd.getD r 0, 10 * g.pn PT_THD_I_LIMIT p))
  (v ++ i).filter (fun x => x.2.2.2 != 0)

/-- The quantity with the highest ratio of value to limit. -/
def worstOf (l : List (Nat × Nat × Nat × Nat)) : Nat × Nat × Nat × Nat :=
  l.foldl (fun a x => if a.2.2.1 * x.2.2.2 < x.2.2.1 * a.2.2.2 then x else a) (l.headD (0, 0, 0, 1))

/-- The harmonic limits at the end of a window (R177). -/
def State.harmLimits (s g : State) (p n start : Nat) : State :=
  let q := (s.pt p).pq
  let need := g.pn PT_HARM_LIMIT_WINDOWS p
  let chk := s.harmChecks g p
  let runs := chk.map (fun x => limitStep q.limRuns x.1 x.2.1 x.2.2.1 x.2.2.2 need)
  let was := q.limRuns.any (fun x => x.2.2.2)
  let beyond := (runs.filter (fun x => x.2.2.2)).length
  let s := s.modPt p (fun x => { x with pq := { x.pq with limRuns := runs } })
  if was = decide (0 < beyond) then s
  else
    let b := worstOf chk
    let cur := 4 ≤ b.1
    let s := s.raiseRaw 22 ([byteOf p, byteOf b.1, byteOf (if cur then 2 else if b.2.1 = 1 then 1 else 0),
      byteOf (if b.2.1 = 1 then 0 else b.2.1), byteOf (if was then 1 else 0), byteOf (g.pn PT_HARM_GROUPING p), byteOf beyond, 0] ++
      le 8 start ++ le 4 b.2.2.1 ++ le 4 b.2.2.2 ++ le 4 need)
    if !was && (g.pn PT_CAP_TRIGGERS p).testBit 3 then s.capTrigger p 4 n else s

/-- Sums of squares of a window's values, added to the interval's, kind by kind and order by order (R175). -/
def addSquares (sums vals : List (List Nat)) : List (List Nat) :=
  vals.mapIdx (fun i l => (List.range (max l.length (sums.getD i []).length)).map (fun h =>
    (sums.getD i []).getD h 0 + (l.getD h 0) ^ 2))

/-- The values of a window that have interval values: THD, Y_h, Y_h / Y_1, Y_ih and the size of the angles (R175). -/
def winKinds (v : List (Nat × Int) × List Nat × Nat × (Int × Int)) : List (List Nat) :=
  let y1 := match v.1 with | a :: _ => a.1 | [] => 0
  [[v.2.2.1], v.1.map (·.1), v.1.map (fun y => ratioOf y.1 y1), v.2.1, v.1.map (fun y => y.2.natAbs)]

/-- Flags of the frames whose content overlaps a stretch, all together. -/
def Quality.flagsOver (q : Quality) (start stop : Nat) : Nat :=
  (q.frames.filter (fun f => f.1 < stop && start < f.1 + 250000)).foldl (fun a f => a ||| f.2) 0

/-- Flags of a role in a window (R175): bit 0 unsynchronised, bit 1 clip, bit 2 seam, from the frames' flags and the slots whose channels
carry the role. -/
def roleFlags (slots : List Nat) (nominal : Bool) (f : Nat) : Nat :=
  bitmapOf [nominal || f.testBit 17, slots.any (fun k => f.testBit k), slots.any (fun k => f.testBit (8 + k))]

/-- The slots whose channels carry a role: both of a course. -/
def State.slotsOf (g : State) (p r : Nat) : List Nat :=
  match g.roleChan p r with
  | some c => if g.eng.mode = 1 then [c % 8, c % 8 + 1] else [c % 8]
  | none => []

/-- A window ends (R172–R175): its values, the fundamental energy readings, the interval's sums and the limits. -/
def State.closeWindow (s g : State) (p n start stop : Nat) (nominal : Bool) : State :=
  let bins := (g.winRoles p).map (fun r => (r, s.winBins g p r start stop))
  let refBin := match bins.find? (fun b => b.1 == g.pn PT_F_REF_SLOT p) with
    | some b => b.2.getD (g.winC p) (0, 0)
    | none => (0, 0)
  let vals := bins.map (fun b => (b.1, g.winValues p b.2 (angleQ refBin.1 refBin.2)))
  let seen := (s.pt p).pq.flagsOver start stop
  let s := vals.foldl (fun s v =>
    s.modPt p (fun x => { x with pq := { x.pq with
      lastWin := put x.pq.lastWin v.1 v.2.1, lastIh := put x.pq.lastIh v.1 v.2.2.1
      lastThd := put x.pq.lastThd v.1 v.2.2.2.1
      lastFlags := put x.pq.lastFlags v.1 (roleFlags (g.slotsOf p v.1) nominal seen)
      ivlWin := put x.pq.ivlWin v.1 (addSquares (x.pq.ivlWin.getD v.1 []) (winKinds v.2)) } })) s
  let f := vals.map (fun v => (v.1, v.2.2.2.2))
  let e := fundPower (g.pn PT_WIRING p) f * ((stop - start : Nat) : Int)
  let e' := if g.pb PT_DIR_INVERT p then -e else e
  let u (x : Int) : Nat := (divFree (x * 2500) (9 * 10 ^ 9 * 2 ^ 32)).toNat
  let s := s.modPt p (fun x => { x with
    el := { x.el with fund := f }.takeUnbalances (g.pn PT_WIRING p), pq := { x.pq with windows := x.pq.windows + 1 } })
  let s := (s.addReading p 7 (u (max e' 0))).addReading p 8 (u (max (-e') 0))
  s.harmLimits g p n start

/-- The running window is discarded (R176); the next starts at the first accepted crossing at or after the content instant `from'`. -/
def State.dropWindow (s : State) (p from' : Nat) : State :=
  s.modPt p (fun x => { x with pq := { x.pq with
    discarded := if x.pq.winStart = 0 then x.pq.discarded else inc32 x.pq.discarded
    ivlDisc := if x.pq.winStart = 0 then x.pq.ivlDisc else x.pq.ivlDisc + 1
    winStart := 0, winCycles := 0, winFrom := max x.pq.winFrom from' } })

/-- A window begins at a content instant (R171). -/
def State.openWindow (s : State) (p start : Nat) : State :=
  s.modPt p (fun x => { x with pq := { x.pq with winStart := start, winCycles := 0 } })

/-- The running window reaches its end: reported, or discarded where it holds an invalid frame (R176); the next begins there. -/
def State.endWindow (s g : State) (p n stop : Nat) (nominal : Bool) : State :=
  let start := (s.pt p).pq.winStart
  if ((s.pt p).pq.flagsOver start stop).testBit 16 then s.dropWindow p stop
  else (s.closeWindow g p n start stop nominal).openWindow p stop

/-- Content instant at which frame `n` begins (05 R124). -/
def contentOf (n : Nat) : Nat := n * 250000 - 500000

/-- The samples of frame `n` join the history that windows are cut from (R171); an invalid frame is marked in it. (log 54) -/
def State.keepSamples (s g : State) (p n : Nat) (valid : Bool) : State :=
  let count := if g.fast then 8 else 2
  let e := (s.pt p).el
  let flags := e.frmFlags % 2 ^ 16 + b2n (!valid) * 2 ^ 16 + b2n (!e.valid) * 2 ^ 17
  (g.winRoles p).foldl (fun s r => s.modPt p (fun x =>
    let l := (s.roleOut p r n).map (primary (g.pn (PT_RATIO_0 + r) p))
    let l := if valid ∧ l.length = count then l else List.replicate count 0
    { x with pq := { x.pq with hist := put x.pq.hist r ((l.reverse ++ x.pq.hist.getD r []).take 14336) } }))
    (s.modPt p (fun x => { x with pq := { x.pq with
      histEnd := contentOf n + 250000, frames := ((contentOf n, flags) :: x.pq.frames).take 1792 } }))

/-- A crossing of the reference voltage meets the windows (R171, R176): it is used as it is, or the previous one plus T_c in its place;
it ends a window that has its C cycles, ends one that holds an invalid frame, or begins the first. -/
def State.windowCross (s g : State) (p n c : Nat) : State :=
  let q := (s.pt p).pq
  let ok := match q.lastUsed with | some a => acceptedPeriod a c | none => false
  let used := match q.lastUsed with | some a => if ok then c else a + (s.pt p).el.tc | none => c
  let s := s.modPt p (fun x => { x with pq := { x.pq with lastUsed := some used } })
  if q.winStart = 0 then (if ok && q.winFrom ≤ used then s.openWindow p used else s)
  else if used ≤ q.winStart then s
  else if (q.flagsOver q.winStart used).testBit 16 then
    let s := s.dropWindow p used
    if ok then s.openWindow p used else s
  else if g.winC p ≤ q.winCycles + 1 then s.endWindow g p n used false
  else s.modPt p (fun x => { x with pq := { x.pq with winCycles := x.pq.winCycles + 1 } })

/-- While the frequency is invalid a window is C nominal periods long (R171); it ends once the kernel has its samples. -/
def State.windowNominal (s g : State) (p n : Nat) (valid : Bool) : State :=
  let q := (s.pt p).pq
  if q.winStart = 0 then (if valid && q.winFrom ≤ contentOf n then s.openWindow p (contentOf n) else s)
  else
    let stop := q.winStart + g.winC p * g.nominalT p
    if stop + 24 * g.samplePeriod ≤ q.histEnd then s.endWindow g p n stop true else s

/-- The windows of a point in frame `n` (R171, R176). While power quality is off nothing is kept for them. (log 54) -/
def State.windowFrame (s g : State) (p n : Nat) (valid : Bool) (cross : Option Nat) : State :=
  if !g.pqOn p then
    s.modPt p (fun x => { x with pq := { x.pq with hist := List.replicate 8 [], frames := [], winStart := 0, winCycles := 0, lastUsed := none } })
  else
    let s := s.keepSamples g p n valid
    if (s.pt p).el.valid then (match cross with | some c => s.windowCross g p n c | none => s)
    else s.windowNominal g p n valid

/-- The interval's values (R175): the RMS over the windows that ended in it. (logs 4, 54) -/
def Quality.closeInterval (q : Quality) : Quality :=
  { q with
    ivlRes := q.ivlWin.map (fun k => k.map (fun l => l.map (fun x => if q.windows = 0 then 0 else isqrt (x / q.windows))))
    windowsRes := q.windows, ivlDiscRes := q.ivlDisc, windows := 0, ivlDisc := 0, ivlWin := List.replicate 8 [] }

/-! ### Supraharmonics (R178–R180) -/

/-- Wideband slots of a point in SPECTRUM. -/
def State.wideSlots (g : State) (p : Nat) : List Nat :=
  if g.eng.mode = 2 then (List.range 8).filter (fun k => g.pb CH_WIDEBAND (8 * p + k) && g.pn CH_FILTER (8 * p + k) == 1) else []

/-- The spectrum of frame `n` of one slot, where both frames' samples stand, joins the block: 75 squares and a count. -/
def State.spectrum (s g : State) (p k : Nat) : State :=
  let ratio := g.pn (PT_RATIO_0 + k) p
  let l := (s.slice (8 * p + k)).wide.map (primary ratio)
  if l.length < 512 then s
  else
    s.modPt p (fun x =>
      let old := x.pq.block.getD k (0, [])
      { x with pq := { x.pq with block := put x.pq.block k (old.1 + 1, (List.range 75).map (fun m =>
        let y := bandSquare (g.pv CH_FINE_DELAY (8 * p + k)) l (m + 1)
        let o := old.2.getD m (0, 0)
        (o.1 + y, max o.2 y))) } })

/-- The checked bands of a published block: slot, band, value as reported and limit in millionths of the primary unit (R180).
(log 54) -/
def State.bandChecks (g : State) (p : Nat) (res : List (Nat × List (Nat × Nat))) : List (Nat × Nat × Nat × Nat) :=
  (((g.wideSlots p).filter (fun k => (res.getD k (0, [])).1 != 0)).flatMap (fun k => (List.range 75).map (fun m =>
    (k, m + 1, ((res.getD k (0, [])).2.getD m (0, 0)).1, g.pn (if m < 4 then PT_SH_LIMIT_LOW else PT_SH_LIMIT_HIGH) p)))).filter
    (fun x => x.2.2.2 != 0)

/-- Raise SUPRAHARMONIC_LIMIT (Table 7.8). -/
def State.shEvent (s : State) (p edge beyond start spectra need : Nat) (b : Nat × Nat × Nat × Nat) : State :=
  s.raiseRaw 23 ([byteOf p, byteOf b.1, byteOf b.2.1, byteOf edge, byteOf beyond, 0, 0, 0] ++ le 8 start ++ le 4 b.2.2.1 ++
    le 4 b.2.2.2 ++ le 4 need ++ le 2 spectra)

/-- The run of a band whose channel had no spectra in the block stands as it is (R179). -/
def keptRuns (old new : List (Nat × Nat × Nat × Bool)) (slots : List Nat) : List (Nat × Nat × Nat × Bool) :=
  new ++ old.filter (fun x => slots.contains x.1)

/-- A block is published and its bands compared, for the channels that have spectra in it (R179, R180). -/
def State.publishBlock (s g : State) (p n : Nat) : State :=
  match (s.pt p).pq.blockPend with
  | some (start, vals) =>
    let s := s.modPt p (fun x => { x with pq := { x.pq with blockPend := none } })
    if vals.all (fun v => v.1 == 0) then s
    else
      let res := vals.map (fun v => (v.1, v.2.map (fun x => (isqrt (x.1 / max 1 v.1), isqrt x.2))))
      let s := s.modPt p (fun x => { x with pq := { x.pq with
        blockRes := res.mapIdx (fun k v => if v.1 = 0 then x.pq.blockRes.getD k (0, 0, []) else (start, v)) } })
      let need := g.pn PT_SH_LIMIT_BLOCKS p
      let chk := g.bandChecks p res
      let q := (s.pt p).pq
      let runs := keptRuns q.shRuns (chk.map (fun x => limitStep q.shRuns x.1 x.2.1 x.2.2.1 x.2.2.2 need))
        ((g.wideSlots p).filter (fun k => (res.getD k (0, [])).1 == 0))
      let was := q.shRuns.any (fun x => x.2.2.2)
      let beyond := (runs.filter (fun x => x.2.2.2)).length
      let s := s.modPt p (fun x => { x with pq := { x.pq with shRuns := runs } })
      if was = decide (0 < beyond) then s
      else
        let w := worstOf chk
        let s := s.shEvent p (if was then 1 else 0) beyond start (res.getD w.1 (0, [])).1 need w
        if !was && (g.pn PT_CAP_TRIGGERS p).testBit 4 then s.capTrigger p 5 n else s
  | none => s

/-- The supraharmonic analysis of a point in frame `n` (R178, R179). -/
def State.supraFrame (s g : State) (p n : Nat) (valid : Bool) : State :=
  if g.eng.mode ≠ 2 then s
  else
    let s := if n % 800 = 0 then
        s.modPt p (fun x => { x with pq := { x.pq with
          blockPend := some (n - 800, x.pq.block), block := List.replicate 8 (0, []) } })
      else if n % 800 = 1 then s.publishBlock g p n else s
    if valid then (g.wideSlots p).foldl (fun s k => s.spectrum g p k) s else s

/-- SPECTRUM is left (R185): the over state clears. (log 39) -/
def State.leaveSpectrum (s : State) (p : Nat) : State :=
  let q := (s.pt p).pq
  let s' := s.modPt p (fun x => { x with pq := { x.pq with
    shRuns := [], block := List.replicate 8 (0, []), blockPend := none } })
  let last := q.blockRes.getD (((q.shRuns.find? (fun x => x.2.2.2)).getD (0, 0, 0, false)).1) (0, 0, [])
  if q.shRuns.any (fun x => x.2.2.2) then s'.shEvent p 1 0 last.1 last.2.1 (s.pn PT_SH_LIMIT_BLOCKS p) (0, 0, 0, 0)
  else s'

/-! ### Host commands -/

/-- A u32 in 100 µV or 100 µA of a value in 2^-32 units. (log 54) -/
def unit100 (y : Nat) : Bytes := le 4 (min (y * 10000 / 2 ^ 32) (2 ^ 32 - 1))

/-- point-harmonics (R175, Table 20.4): the last window or the interval. -/
def servePointHarmonics (p : Bytes) (s : State) : Ans :=
  let pt := fld p 0 1
  let k := fld p 1 1
  let which := fld p 2 1
  if p.length ≠ 3 then refuse s 2
  else if 16 ≤ pt ∨ 8 ≤ k then refuse s 5
  else if 2 ≤ which then refuse s 6
  else if !s.pqOn pt ∨ !(s.winRoles pt).contains k then refuse s 5
  else
    let q := (s.pt pt).pq
    let H := hMax s.eng.mode
    let win := q.lastWin.getD k []
    let res := q.ivlRes.getD k []
    let ivl (kind h : Nat) := (res.getD kind []).getD h 0
    let y1 := match win with | a :: _ => a.1 | [] => 0
    let head := if which = 0 then le 4 (if win.isEmpty then 0 else 1) ++ le 4 q.discarded ++ le 4 (q.lastThd.getD k 0)
      else le 4 q.windowsRes ++ le 4 q.ivlDiscRes ++ le 4 (ivl 0 0)
    let entries := (List.range H).map (fun i =>
      let w := win.getD i (0, 0)
      if which = 0 then unit100 w.1 ++ le 4 (ratioOf w.1 y1) ++ leI 2 w.2
      else unit100 (ivl 1 i) ++ le 4 (ivl 2 i) ++ leI 2 (ivl 4 i : Nat))
    okParts s (packParts entries head [])

/-- POINT_HARMONICS. -/
def execPointHarmonics (h : Hdr) (p : Bytes) (s : State) : Host.Outcome State Fault Refusal :=
  hostCmd 0x030B h p servePointHarmonics s

/-- point-supraharmonics (R179, Table 20.4). -/
def servePointSupraharmonics (p : Bytes) (s : State) : Ans :=
  let pt := fld p 0 1
  let k := fld p 1 1
  if p.length ≠ 2 then refuse s 2
  else if 16 ≤ pt ∨ 8 ≤ k then refuse s 5
  else if !(s.wideSlots pt).contains k then refuse s 5
  else
    let q := (s.pt pt).pq
    let b := q.blockRes.getD k (0, 0, [])
    let r := b.2.2
    let entries := (List.range 75).map (fun m =>
      le 4 (min (r.getD m (0, 0)).1 (2 ^ 32 - 1)) ++ le 4 (min (r.getD m (0, 0)).2 (2 ^ 32 - 1)))
    okParts s (packParts entries (le 8 b.1 ++ le 2 b.2.1) [])

/-- POINT_SUPRAHARMONICS. -/
def execPointSupraharmonics (h : Hdr) (p : Bytes) (s : State) : Host.Outcome State Fault Refusal :=
  hostCmd 0x030C h p servePointSupraharmonics s

end Sys2Proof.Machine
end

