-- ==== Sys2Proof/Machine/Holds.lean ====
section
/-!
DEFINITION. The switch channels and the precedence of Table 1.5 over them (01 R33), the causes that end sessions
(09 R238), and the shared actions of the switch die (14).
-/

namespace Sys2Proof.Machine

/-! ### Types and causes -/

/-- Whether point `p` transfers in sessions (Table 9.1, PT_SESSIONS). -/
def State.isSession (s : State) (p : Nat) : Bool :=
  let ty := s.ptType p
  ty == 1 || ty == 2 || (4 ≤ ty && s.pb PT_SESSIONS p)

/-- Whether point `p` is an outlet. -/
def State.isOutlet (s : State) (p : Nat) : Bool := s.ptType p == 1 || s.ptType p == 2

/-- Note a stop cause of Table 9.7 for a session point; it is decided between frames (R226, R238). (log 17) -/
def State.addCause (s : State) (p c : Nat) : State :=
  if s.isSession p then s.modSes p (fun x => { x with causes := if x.causes.contains c then x.causes else x.causes ++ [c] })
  else s

/-- The contactor switch of an outlet (PT_OUT_CONTACTOR). -/
def State.contactor (s : State) (p : Nat) : Nat := 2 * p + s.pn PT_OUT_CONTACTOR p

/-- The path switches of a point (R227): the contactor of an outlet, the switches of PT_PATH_SW of a fluid point. -/
def State.pathSwitches (s : State) (p : Nat) : List Nat :=
  if s.isOutlet p then [s.contactor p]
  else if 4 ≤ s.ptType p then (bitsOf 2 (s.pn PT_PATH_SW p)).map (fun b => 2 * p + b)
  else []

/-! ### Switch channels -/

/-- Safe state on (R345): the channel's bit in SW_FSTABLE. -/
def State.safeOn (s : State) (n : Nat) : Bool := s.sw.fstable.testBit n

/-- A hold of rank 1, 3 or 4 stands (Table 1.5). -/
def SwCh.held134 (c : SwCh) : Bool := c.resHold || !c.siHold.isEmpty || c.fsHold || !c.hold4.isEmpty

/-- Channel protection, rank 2, holds the channel off (R343–R347). -/
def SwCh.held2 (c : SwCh) : Bool := c.uv || c.ovl || c.therm || c.exhausted

/-- The output put on or off at `t`, with what runs from the edge: the 10 s of clean on-time, the limit and its timer. -/
def SwCh.setOut (c : SwCh) (t : Nat) (b : Bool) : SwCh :=
  if c.on = b then c
  else if b then { c with on := true, onSince := some t }
  else { c with on := false, offAt := t, onSince := none, limiting := false, regulating := false, ovlDue := none }

/-- A channel forced to its safe state by rank 1, 3 or 4: the standing command goes to it, so the channel stays there
after the release until it is commanded again (R33). -/
def SwCh.force (c : SwCh) (t : Nat) (safe powered : Bool) : SwCh :=
  { (c.setOut t (safe && powered && !(c.held2 && !safe))) with cmd := safe, reapply := false }

/-- Force channel `n` safe. -/
def State.forceSafe (s : State) (n : Nat) : State :=
  s.modSwch n (fun c => c.force s.clk.up (s.safeOn n) s.sw.powered)

/-- The switch die answers the Capo: it is powered and the die-to-die link is up (R28, 22 R503). -/
def State.dieAnswers (s : State) : Bool := s.sw.powered && s.sw.link

/-- A rank-5 or rank-6 command (R33): taken only while no higher rank holds; protection keeps an off channel off and the
command stands; commands wait while the die does not answer (R503). -/
def State.command (s : State) (n : Nat) (b : Bool) : State :=
  let s := if s.isOutlet (n / 2) && s.contactor (n / 2) == n then
      s.modOut (n / 2) (fun o =>
        if b then { o with offAt := none }
        else if o.offAt.isSome then o
        else { o with offAt := some s.clk.up, offFrame := s.frm })
    else s
  if !s.dieAnswers then s.modSw (fun d => { d with waiting := (d.waiting.filter (fun w => w.1 != n)) ++ [(n, b)] })
  else s.modSwch n (fun c =>
    if c.held134 then c
    else if c.held2 && b then { c with cmd := b }
    else { (c.setOut s.clk.up b) with cmd := b, reapply := false })

/-- Re-apply the standing commands whose rank-2 hold has been released, over the link (R28, R344, R347). (logs 19, 37) -/
def State.reapplyAll (s : State) : State :=
  if s.dieAnswers then
    s.modSw (fun d => { d with ch := d.ch.map (fun c =>
      if c.reapply && !c.held134 && !c.held2 then { (c.setOut s.clk.up c.cmd) with reapply := false } else c) })
  else s

/-- The switch channels of a point of type NONE are held off: one that a rank above held on is commanded off once it is free (R27). -/
def State.idleSwitches (s : State) : State :=
  forAll (List.range 32) (fun n s =>
    if s.ptType (n / 2) = 0 ∧ (s.swch n).held134 = false ∧ ((s.swch n).on || (s.swch n).cmd) = true then s.command n false else s) s

/-- Rank-1 hold by dual input `k` on channel `n` (R358). -/
def State.holdSi (s : State) (k n : Nat) : State :=
  (s.modSwch n (fun c => { c with siHold := if c.siHold.contains k then c.siHold else c.siHold ++ [k] })).forceSafe n

/-- Whether an order reaches the switch die now: it answers, or it is unpowered, when the order stands for its next power-up. -/
def State.orderNow (s : State) : Bool := s.dieAnswers || !s.sw.powered

/-- An order that the switch die takes: a rank-4 hold or release, or a reloaded counter (R33, R344). -/
def State.dieOp (s : State) (o : DieOp) : State :=
  match o with
  | .hold src n =>
    (s.modSwch n (fun c => { c with hold4 := if c.hold4.contains src then c.hold4 else c.hold4 ++ [src] })).forceSafe n
  | .free src n => s.modSwch n (fun c => { c with hold4 := c.hold4.filter (· != src) })
  | .freeAll src => s.modSw (fun d => { d with ch := d.ch.map (fun c => { c with hold4 := c.hold4.filter (· != src) }) })
  | .reload n => s.modSwch n (fun c => { c with
      retries := s.pn (PT_SW_RETRIES_0 + n % 2) (n / 2), exhausted := false, ovl := false, retryDue := none
      reapply := c.reapply || c.ovl || c.exhausted })

/-- The Capo orders the switch die, which takes the order when it answers (R28, 22 R503). (logs 32, 37) -/
def State.orderDie (s : State) (o : DieOp) : State :=
  if s.orderNow then s.dieOp o else s.modSw (fun d => { d with waitOps := d.waitOps ++ [o] })

/-- Rank-4 hold of a source on channel `n` (R33). -/
def State.hold4 (s : State) (src n : Nat) : State := s.orderDie (.hold src n)

/-- Release a rank-4 source on every channel. -/
def State.release4 (s : State) (src : Nat) : State := s.orderDie (.freeAll src)

/-- Release the rank-1 hold of dual input `k` on every channel. -/
def State.releaseSi (s : State) (k : Nat) : State :=
  s.modSw (fun d => { d with ch := d.ch.map (fun c => { c with siHold := c.siHold.filter (· != k) }) })

/-- Limit, slew and ride-through of every channel as the parameters stand, over the link (R28, 14 R340, R341, R347). (log 37) -/
def State.refreshSw (s : State) : State :=
  if s.dieAnswers then
    s.modSw (fun d => { d with ch := d.ch.mapIdx (fun n c => { c with
      limit := s.pn (PT_SW_LIMIT_0 + n % 2) (n / 2), slew := s.pn (PT_SW_SLEW_0 + n % 2) (n / 2)
      ride := (s.pn PT_SW_RIDE (n / 2)).testBit (n % 2) }) })
  else s

/-! ### Events of the switch die -/

/-- Bitmap of the channels on. -/
def State.onMap (s : State) : Nat := bitmapOf (s.sw.ch.map (fun c => c.on))

/-- Raise a switch event (Table 14.9): 34 overload, 35 thermal, 36 open load. -/
def State.swEvent (s : State) (ev n kind : Nat) : State :=
  let c := s.swch n
  s.raise ev n ([byteOf n, byteOf (n / 2), byteOf kind, byteOf c.retries, byteOf s.sw.phase, byteOf c.limit, 0, 0] ++
    le 8 s.frm ++ le 2 s.sw.vsw ++ leI 2 c.tj ++ le 2 c.mA ++ zeros 2 ++ le 4 s.onMap)

/-- Raise SWITCH_SUPPLY: kind 0 turn-off, 1 restore, 2 below 6.0 V, 3 phase change. -/
def State.supplyEvent (s : State) (kind : Nat) : State :=
  s.raise 37 0xFF ([0xFF, 0xFF, byteOf kind, 0, byteOf s.sw.phase, 0, 0, 0] ++
    le 8 s.frm ++ le 2 s.sw.vsw ++ zeros 6 ++ le 4 s.onMap)

/-- Enter a supply phase (Table 14.2); START and RECOVERY end 10 s later. -/
def State.enterPhase (s : State) (ph : Nat) : State :=
  if s.sw.phase = ph then s
  else (s.modSw (fun d => { d with
    phase := ph
    phaseDue := if ph = 1 ∨ ph = 3 then some (s.clk.up + 10000000000) else none })).supplyEvent 3

/-- The fail-safe table applied to every channel at rank 3 (R349), with its cause; the report waits until the Capo sees
it and the service pair can carry it (R350). (log 37) -/
def State.applyFailsafe (s : State) (cause : Nat) : State :=
  let before := s.onMap
  let s := s.modSw (fun d => { d with
    armed := false, failsafe := true, wcause := cause, goodFeeds := 0
    ch := d.ch.map (fun c => { c with fsHold := true }) })
  let s := forAll (List.range 32) (fun n s => s.forceSafe n) s
  s.modSw (fun d => { d with
    changed := Nat.xor before s.onMap
    appliedMs := (s.clk.up - d.upAt) / 1000000
    seenFrame := none
    reportDue := some (cause, (s.clk.up - d.upAt) / 1000000) })

/-- Rank 3 released after the third good feed of a new arming (R350). (log 37) -/
def State.releaseFailsafe (s : State) : State :=
  (s.modSw (fun d => { d with failsafe := false, ch := d.ch.map (fun c => { c with fsHold := false }) })).raise 38 0
    ([byteOf s.sw.wcause, 1, 0, 0] ++ le 4 s.sw.changed ++ le 8 s.frm ++ le 4 s.sw.appliedMs ++ le 4 s.sw.fstable)

/-- The table and the window loaded at an arming; a channel that rank 1, 3 or 4 holds takes its safe state from the new
table (R355, Table 14.5). SW_FSTABLE is an RWS field of SEAL1: with that seal open the write is ignored and the table stays
(00 R13, 15 Table 15.6). (logs 37, 56) -/
def State.loadTable (s : State) : State :=
  forAll (List.range 32) (fun n s => if (s.swch n).held134 then s.forceSafe n else s)
    (s.modSw (fun d => { d with
      fstable := if s.saf.seals.testBit 1 then s.pn ND_SW_FAILSAFE else d.fstable, window := s.pn ND_WD_WINDOW }))

/-- What waited for the switch die follows: the Capo's orders, the channels' settings, and the commands (R503). (logs 32, 37) -/
def State.replayCommands (s : State) : State :=
  let ops := s.sw.waitOps
  let cmds := s.sw.waiting
  let s := s.modSw (fun d => { d with waiting := [], waitOps := [] })
  cmds.foldl (fun s x => s.command x.1 x.2) ((ops.foldl (fun s o => s.dieOp o) s).refreshSw)

/-- Arm the watchdog with a key and seed: the table and window are loaded and the first challenge follows (R348,
R355). (logs 37, 56) -/
def State.armWatchdog (s : State) (key seed : BitVec 32) : State :=
  (s.loadTable.modSw (fun d => { d with
    key := key, chal := lfsr 16 seed, armed := true,
    lastGood := some s.clk.up, goodFeeds := 0, rearm := false, link := true })).replayCommands

/-- The first frame in which the Capo sees an applied table: cause 19 for every session point, and a new arming unless a
start has armed already. A table applied over a reset of the core die stops no session, since none ran (R350; log
entry 37). (log 37) -/
def State.sightFailsafe (s : State) : State :=
  let ran := s.sw.wcause < 3 || !s.sw.armed
  let s := s.modSw (fun d => { d with seenFrame := some s.frm, rearm := d.rearm || !d.armed })
  if ran then forAll points16 (fun p s => s.addCause p 19) s else s

/-- WATCHDOG_FAILSAFE with edge applied, as soon as the service pair can report (R350, Table 14.8). (log 37) -/
def State.reportFailsafe (s : State) : State :=
  match s.sw.reportDue, s.sw.seenFrame with
  | some (cause, die), some f =>
    if s.fw.svcRunning then
      ((s.modSw (fun d => { d with reportDue := none })).raise 38 0
        ([byteOf cause, 0, 0, 0] ++ le 4 s.sw.changed ++ le 8 f ++ le 4 die ++ le 4 s.sw.fstable)).queueFault
        6 (s.pn ND_NODE_ID) cause
    else s
  | _, _ => s

/-- The Capo sees an applied table, and reports it (R350). (log 37) -/
def State.seeFailsafe (s : State) : State :=
  (if s.sw.reportDue.isSome && s.sw.seenFrame.isNone then s.sightFailsafe else s).reportFailsafe

/-! ### The test window -/

/-- The values that still act when a register has returned to its reset value: that perturbation has ended (R524). -/
def cutEffect (r e : TestRegs) : TestRegs :=
  let z := TestRegs.reset
  { e with
    fifo := r.fifo
    ringDelay := if r.ringDelay = 0 then 0 else e.ringDelay
    ringLka := r.ringLka && e.ringLka
    ringLkb := r.ringLkb && e.ringLkb
    zc := if r.zc = 0 then 0 else e.zc
    safDelay := if r.safAction = 0 then 0 else e.safDelay
    safCount := if r.safAction = 0 then 0 else r.safCount
    safAction := if r.safAction = 0 then 0 else e.safAction
    starve := if r.starve = 0 then 0 else e.starve
    mram := if r.mram = 0 then 0 else e.mram
    wrong := r.wrong
    skip := r.skip
    stretch := if r.stretch = z.stretch then z.stretch else e.stretch }

/-- Raise TEST_ACTIVE (Table 23.3): edge 0 started, 1 ended. -/
def State.testEvent (s : State) (edge active cause frame : Nat) : State :=
  s.raise 58 0 ([byteOf edge, byteOf active, byteOf cause, 0] ++ le 4 s.test.logIdx ++ le 8 frame)

/-- The test registers change (R522–R526): a perturbation that ends stops at once, and H_TEST_ACTIVE leaving or
reaching 0 raises TEST_ACTIVE and moves the switch die into or out of phase TEST. -/
def State.setTest (s : State) (r : TestRegs) (cause : Nat) : State :=
  let a0 := activeOf s.test.regs
  let a1 := activeOf r
  let s := s.modTest (fun x => { x with regs := r, eff := cutEffect r x.eff })
  if a0 = 0 ∧ a1 ≠ 0 then
    let s := s.testEvent 0 a1 0 (s.frm - 2)
    if s.sw.powered then s.enterPhase 2 else s
  else if a0 ≠ 0 ∧ a1 = 0 then
    let s := (s.modEng (fun e => { e with testFrames := s.frm + 1 })).testEvent 1 0 cause s.frm
    if s.sw.phase = 2 then s.enterPhase 0 else s
  else s

end Sys2Proof.Machine
end

