-- ==== Sys2Proof/Machine/Sessions.lean ====
section
/-!
DEFINITION. Sessions (09 R226–R241) and the outlet port beside them (12): the pilot that is driven, the events of an
outlet, entering each state, the residual self-test, and the session's records.
-/

namespace Sys2Proof.Machine

/-! ### The pilot -/

/-- Cable rating in 0.1 A (R303, Table 12.5). -/
def State.cableRating (s : State) (p : Nat) : Nat :=
  if s.pn PT_OUT_PP_MODE p = 1 then [0, 130, 200, 320, 630, 0, 0].getD (s.outOf p).ppCode 0
  else s.pn PT_OUT_CABLE_A p

/-- Available current I_a in 0.1 A (R297). -/
def State.available (s : State) (p : Nat) : Nat :=
  let a := min (s.pn PT_OUT_MAX_CURRENT p) (s.cableRating p)
  match (s.outOf p).hostLimit with
  | some l => min a l
  | none => a

/-- The duty of R297 in 0.05 %: constant high below 6.0 A. -/
def dutyOf (ia : Nat) : Nat :=
  if ia < 60 then 2000 else if ia ≤ 510 then ia * 10 / 3 else min 1920 (ia * 4 / 5 + 1280)

/-- The pilot of port `p` by Table 12.1. The 5 % duty starts when the pilot is first accepted in a state other than
A (R296). -/
def State.pilotWanted (s : State) (p : Nat) : Nat :=
  let x := s.pt p
  if !s.isOutlet p || x.outService then 0
  else if s.pn PT_OUT_HLC p = 0 then
    match x.ses.state with
    | .authorised => dutyOf (s.available p)
    | .transferring => dutyOf (s.available p)
    | .fault => 0
    | _ => 2000
  else
    match x.ses.state with
    | .authorising => if x.out.code = 0 then 2000 else 100
    | .authorised => if x.out.code = 0 then 2000 else 100
    | .transferring => 100
    | .stopping => 100
    | .fault => 0
    | _ => 2000

/-- The Capo sets the pilot of port `p`; it acts at the first period 250 µs later (R295). -/
def State.setPilot (s : State) (p : Nat) : State :=
  let d := s.pilotWanted p
  s.modOut p (fun o =>
    match o.dutyNext with
    | some (d', t) => { o with dutyNext := if d' = d then some (d', t) else if d = o.duty then none else some (d, s.clk.up) }
    | none => if d = o.duty then o else { o with dutyNext := some (d, s.clk.up) })

/-! ### Events of an outlet -/

/-- The number of a session state (Table 9.5). -/
def sesCode : SessState → Nat
  | .idle => 0
  | .authorising => 1
  | .authorised => 2
  | .transferring => 3
  | .stopping => 4
  | .closed => 5
  | .fault => 6

/-- Raise OUTLET_SESSION (Table 12.10) for a change of session state on an outlet. -/
def State.outletSession (s : State) (p : Nat) (old new : SessState) (cause : Nat) : State :=
  if s.isOutlet p then
    let o := s.outOf p
    s.raise 30 p ([byteOf p, byteOf (sesCode old), byteOf (sesCode new), byteOf cause, byteOf o.protocol,
      byteOf o.service, byteOf (o.ident.getD 0xFF), 0] ++ le 8 (s.frm + 1) ++
      le 4 (if (s.sesOf p).present then (s.sesOf p).number else 0) ++ padTo 6 o.mac ++ [byteOf (o.atten.getD 0xFF), 0])
  else s

/-- Raise OUTLET_STATE_CHANGE (Table 12.9): `sig` 0 pilot, 1 proximity. -/
def State.outletChange (s : State) (p sig old new : Nat) (hi : Int) (lo : Option Int) : State :=
  let s := s.modOut p (fun o => { o with changes := inc32 o.changes })
  let o := s.outOf p
  s.raiseRaw 29 ([byteOf p, byteOf sig, byteOf old, byteOf new] ++ le 2 o.duty ++ le 2 (s.available p) ++ le 8 s.frm ++
    leI 2 hi ++ (match lo with | some v => leI 2 v | none => le 2 0x8000) ++ le 2 (s.cableRating p) ++ le 2 o.rc ++
    le 4 o.changes)

/-- Raise RESIDUAL_CURRENT_TRIP (Table 12.11). -/
def State.rcdEvent (s : State) (p kind comp c : Nat) : State :=
  let sens := s.pn PT_RCD_SENS p
  let thr := if comp < 3 then s.pn (PT_RCD_DC_MA_0 + comp) p
    else if comp < 6 then s.pn (PT_RCD_AC_MA_0 + (comp - 3)) p else 0
  let hold := if comp < 3 then s.pn (PT_RCD_DC_HOLD_0 + comp) p
    else if comp < 6 then s.pn (PT_RCD_AC_HOLD_0 + (comp - 3)) p else 0
  let cur : Int := if s.pn CH_FILTER c = 0 ∨ sens = 0 then -(2 ^ 31 : Nat)
    else clipI 32 (divFree ((s.slice c).mean * 100000) sens)
  s.raise 31 p ([byteOf p, byteOf kind, byteOf comp, byteOf c, byteOf (sesCode (s.sesOf p).state), 0, 0, 0] ++
    le 8 s.frm ++ leI 4 cur ++ le 4 thr ++ le 4 hold)

/-! ### State changes -/

/-- A session state entered from the first frame whose samples are taken after the change (R226): the state, its
frame, the instant of entry, the event, and the pilot of Table 12.1. (log 16) -/
def State.enterState (s : State) (p : Nat) (new : SessState) (cause : Nat) : State :=
  let old := (s.sesOf p).state
  let s := s.modSes p (fun x => { x with
    state := new, since := s.frm + 1, entry := s.clk.up, xferTo := if old = .transferring then some s.frm else x.xferTo })
  let s := (s.outletSession p old new cause).setPilot p
  let s := if new = .idle ∨ new = .stopping ∨ new = .fault then s.modOut p (fun o => { o with wants := false }) else s
  if new = .idle then s.modSes p (fun x => { x with present := false, parentRevoked := false }) else s

/-- Erase the session key (R428). -/
def State.eraseKey (s : State) (p : Nat) : State := s.modSes p (fun x => { x with key := none })

/-- The session returns to IDLE without a record (Table 9.6). -/
def State.backToIdle (s : State) (p cause : Nat) : State :=
  (s.enterState p .idle cause).modSes p (fun x => { x with key := none, causes := [] })

/-- Put the parameters of point `p` that wait for its next session in force (R18; log entry 10). -/
def State.applyNextSession (s : State) (p : Nat) : State :=
  let mine := s.par.staged.filter (fun e => e.effect == .nextSession && e.inst == p)
  s.modPar (fun x => { x with
    active := mine.foldl (fun a e => putP a e.pid e.inst (defaultOf e.pid (typeIn a e.inst)) e.val) x.active
    staged := x.staged.filter (fun e => !(e.effect == .nextSession && e.inst == p)) })

/-- An attestation statement (Table 18.2), bytes 0–127 and its signature. -/
def statement (kind cls pt gen node : Nat) (nonce : Bytes) (frame ses props : Nat) (pub : Bytes)
    (scls spt sgen signer : Nat) : Bytes :=
  let body := [1, byteOf kind, byteOf cls, byteOf pt] ++ le 2 gen ++ le 2 (node % 4096) ++ le 8 Config.serial ++
    padTo 16 nonce ++ le 8 frame ++ le 4 ses ++ le 4 props ++ padTo 64 pub ++ [byteOf scls, byteOf spt] ++ le 2 sgen ++
    zeros 12
  body ++ padTo 64 (Config.ecdsaSign signer (sha256 body))

/-- The session key drawn and certified by the point key, with ATTESTATION_READY (R428, R437); none is made under
KEY_REGEN_FAIL (R433). -/
def State.makeSessionKey (s : State) (p : Nat) : State :=
  if s.keys.regenFail then s.modSes p (fun x => { x with key := none })
  else
    match s.privKey 2 p (s.keyState 2 p).gen with
    | some signer =>
      let g := (s.keyState 2 p).gen
      let d := Config.trng s.clk.freeCtr % (p256Order - 1) + 1
      let n := (s.sesOf p).number
      let cert := statement 1 3 p 0 s.nodeId (zeros 16) s.frm n (3 + (if s.pb ND_LIFECYCLE then 8 else 0))
        (Config.p256Public d) 2 p g signer
      ((s.bump.modSes p (fun x => { x with key := some (be 32 d), keyGen := g, certs := (cert :: x.certs).take 5 })).raise
        50 0 ([1, 3, byteOf p, 0] ++ zeros 2 ++ zeros 2 ++ le 8 s.frm ++ le 4 n))
    | none => s.modSes p (fun x => { x with key := none })

/-! ### The link of an outlet port (13 R328) -/

/-- The port has its front end powered (13 R319, R27): an outlet with PT_OUT_HLC 1, or a mains port of ND_PLC_MAINS. -/
def State.plcPowered (s : State) (port : Nat) : Bool :=
  if port < 16 then s.isOutlet port && s.pn PT_OUT_HLC port == 1 else (s.pn ND_PLC_MAINS).testBit (port - 16)

/-- Raise PLC_LINK_CHANGE for an outlet link (13 Table 13.8). -/
def State.linkEvent (s : State) (p edge cause : Nat) : State :=
  let x := s.plcPort p
  s.raiseMid 33 p ([byteOf p, 0, byteOf edge, byteOf cause] ++ padTo 6 (s.outOf p).mac ++
    [0, byteOf x.lastMod, byteOf x.lastAtten, 0, 0, 0] ++ le 8 s.frm) (le 4 x.lost)

/-- The link goes down (13 R328); the count of PT_PLC_LOSS starts (R307). -/
def State.linkDown (s : State) (p cause : Nat) : State :=
  if (s.plcPort p).link then
    ((s.modPlcPort p (fun x => { x with link := false, linkDue := none })).modOut p (fun o => { o with
      lossDue := some (s.clk.up + s.pn PT_PLC_LOSS p * 1000000), slacMatched := none })).linkEvent p 0 cause
  else s

/-- An outlet port whose front end is no longer powered: its link and its stream end (R27, Table 13.7). -/
def State.linkIdle (s : State) (p : Nat) : State :=
  if s.plcPowered p then s else (s.linkDown p 3).modPlcPort p (fun x => { x with stream := none })

/-! ### Entering the states of a session -/

/-- Enter AUTHORISED (R228, R230, R232, R235): the next-session parameters come into force, the session number is
assigned and the high-water line written, prices and currency are held, and the session key is made. (log 10) -/
def State.authorise (s : State) (p : Nat) (reference : Bytes) (preset credit : Nat) (prices : Option (List Nat))
    (by' : Nat) : State :=
  let s := (s.applyNextSession p).linkIdle p
  let n := (s.sesOf p).nextNumber
  let s := (s.modSes p (fun x => { x with
    present := true, number := n, nextNumber := n + 1, reference := padTo 16 reference, authBy := by',
    preset := preset, credit := credit, modify := none,
    prices := prices.getD ((List.range 8).map (fun t => s.pn (PT_PRICE_0 + t) p)),
    currency := s.pn PT_CURRENCY p, lead := s.pn PT_PRESET_LEAD p,
    stopCause := 0, endCause := 0, counted := 0, eFrame := none, startRegs := none, endSeq := none, endDone := false,
    running := false, offDone := false, parentRevoked := false, causes := [], faultCause := 0 })).writeLine
  let s := if n + 1 = 2 ^ 32 - 1 then
      (s.modSes p (fun x => { x with stuck := true })).raiseRaw 18 ([byteOf p, 4, 0xFF, 0] ++ zeros 4 ++ le 8 s.frm)
    else s
  (s.makeSessionKey p).enterState p .authorised 0

/-- Enter TRANSFERRING from the next frame: the path switches are commanded on at rank 5 (Table 9.5). -/
def State.startTransfer (s : State) (p : Nat) : State :=
  let s := s.modSes p (fun x => { x with sFrame := s.frm + 1, running := true, startRegs := none })
  let s := s.enterState p .transferring 0
  (s.pathSwitches p).foldl (fun s n => s.command n true) s

/-- The path switches commanded off (R229). -/
def State.pathOff (s : State) (p : Nat) : State :=
  (s.pathSwitches p).foldl (fun s n => s.command n false) s

/-- Enter STOPPING with a cause; the vehicle is asked to stop (R229, R302, R306). -/
def State.startStopping (s : State) (p cause : Nat) (atOnce : Bool) : State :=
  let grace := if atOnce then 0 else s.pn PT_STOP_GRACE p * 1000000
  let s := s.modSes p (fun x => { x with
    stopCause := cause, offDone := false, graceDue := some (s.clk.up + grace), settleDue := none,
    parentRevoked := x.parentRevoked || cause == 10 })
  let s := s.enterState p .stopping cause
  s.modOut p (fun o => { o with asksStop := s.isOutlet p && s.pn PT_OUT_HLC p = 1 })

/-- Step 2 of the stopping sequence done: the path is off and PT_STOP_SETTLE runs (R229). -/
def State.stopOff (s : State) (p : Nat) : State :=
  (s.pathOff p).modSes p (fun x => { x with
    offDone := true, graceDue := none, settleDue := some (s.clk.up + s.pn PT_STOP_SETTLE p * 1000000) })

/-- The session's frames end with the frame that runs (R230): e is fixed and SESSION_END follows with that frame. (log 16) -/
def State.endSession (s : State) (p endCause : Nat) : State :=
  s.modSes p (fun x => { x with
    eFrame := some (max s.frm x.sFrame), endCause := endCause
    stopCause := if x.stopCause = 0 then endCause else x.stopCause, settleDue := none, graceDue := none })

/-- Enter CLOSED (Table 9.6). -/
def State.close (s : State) (p : Nat) : State :=
  let c := (s.sesOf p).stopCause
  ((s.endSession p c).modOut p (fun o => { o with asksStop := false })).enterState p .closed c

/-- Enter FAULT (R228, R238): a session ends with the fault cause; without one an EVENT record of kind 4 is built. The
path is opened at once. -/
def State.toFault (s : State) (p cause : Nat) : State :=
  let old := (s.sesOf p).state
  let s := s.modSes p (fun x => { x with faultCause := cause })
  let s := (s.pathOff p).modOut p (fun o => { o with asksStop := false })
  if old = .transferring ∨ old = .stopping then (s.endSession p cause).enterState p .fault cause
  else
    ((s.buildEvent p 4 0 (s.frm + 1) [byteOf cause, byteOf (sesCode old)]).modSes p
      (fun x => { x with key := none, endDone := true })).enterState p .fault cause

/-! ### The residual self-test -/

/-- The slices with an armed residual role (R101, R221): slot 7, or both slices of course slot 6 in COURSED mode. -/
def State.rcdSlices (s : State) (p : Nat) : List Nat :=
  if s.ptType p = 1 ∨ (s.ptType p = 2 ∧ (s.pn PT_OPT_ROLES p).testBit 7) then
    if s.eng.mode = 1 then [8 * p + 6, 8 * p + 7] else [8 * p + 7]
  else []

/-- Whether a diagnosis of the residual course runs (Table 12.8). -/
def State.rcdDiagnosed (s : State) (p : Nat) : Bool :=
  match s.eng.diag with
  | some d => d.course == 4 * p + 3
  | none => false

/-- The self-test of port `p` starts on its first slice, or waits for the diagnosis, for the test DAC of converter 3, or
for the contactor, which is open throughout a test (R313, R394, Table 12.8). (log 17) -/
def State.runSelfTest (s : State) (p : Nat) : State :=
  match (s.outOf p).testSlices with
  | [] => s
  | c :: _ =>
    if s.rcdDiagnosed p || (s.conv 3).dac != 0 || (s.swch (s.contactor p)).on then s.modOut p (fun o => { o with test := 4 })
    else
      ((s.modOut p (fun o => { o with test := 1, testTrip := false, testDue := some (s.clk.up + 100000000) })).modConv 3
        (fun k => { k with dac := 2 })).modSlice c (fun x => { x with
          inject := some ((12 * (x.comps.getD 2 Comparator.reset).thr * 1000000 / 10240 : Nat) : Int) })

/-- The pilot has left A: the self-test of every armed slice begins; with none armed it counts as passed (R313). (log 17) -/
def State.startSelfTest (s : State) (p : Nat) : State :=
  let l := s.rcdSlices p
  if l.isEmpty then s.modOut p (fun o => { o with test := 2, testSlices := [] })
  else (s.modOut p (fun o => { o with testSlices := l })).runSelfTest p

/-- The start condition of a session (Table 9.6, R301, R304, R306, R313). (log 16) -/
def State.startCondition (s : State) (p : Nat) : Bool :=
  if !s.isOutlet p then true
  else
    let o := s.outOf p
    let pilot := o.code == 2 || (o.code == 3 && s.pb PT_OUT_VENT p)
    let passed := o.test == 2 || (s.rcdSlices p).isEmpty
    let cable := s.pn PT_OUT_PP_MODE p = 0 || !(o.ppCode == 0 || o.ppCode == 5 || o.ppCode == 6)
    passed && cable && (if s.pn PT_OUT_HLC p = 0 then pilot
      else o.wants && (s.ptType p == 2 || pilot))

/-! ### Quantities, cost and records of a session -/

/-- F: register units per price unit (Table 9.1). -/
def priceUnits (ty : Nat) : Nat :=
  if ty = 1 ∨ ty = 2 then 1000000000 else if ty = 7 then 3600000 else 1000000

/-- Q_t since the start of s (R234, R236); after SESSION_END, to the end of e. -/
def State.sesQ (s : State) (p t : Nat) : Nat :=
  let y := s.sesOf p
  let now := if y.endSeq.isSome then y.endRegs.getD (4 * t) 0 else (s.pt p).int (4 * t)
  match y.startRegs with
  | some r => now - r.getD (4 * t) 0
  | none => 0

/-- Q, the delivered quantity (R234). -/
def State.sesQuantity (s : State) (p : Nat) : Nat := (List.range 8).foldl (fun a t => a + s.sesQ p t) 0

/-- S, the exact cost sum (R236). -/
def State.sesSum (s : State) (p : Nat) : Nat :=
  (List.range 8).foldl (fun a t => a + s.sesQ p t * (s.sesOf p).prices.getD t 0) 0

/-- The cost in minor units, rounded half away from zero (R236). -/
def costOf (sum f : Nat) : Nat := (2 * sum + 10000 * f) / (2 * (10000 * f))

/-- Build SESSION_START with the register values before frame s (R230). -/
def State.buildStart (s : State) (p n : Nat) : State :=
  let x := s.pt p
  let s := s.modSes p (fun y => { y with
    startRegs := some x.ints
    span := { Span.reset with start := n, regs := x.ints, regime := x.ivl.regime } })
  s.later 2 p n 3 (startBody x.ints x.ses.reference x.ses.number x.ses.authBy)

/-- Build SESSION_END for frames s to `e` (R230, R240). A session whose key is gone takes the point key (R239). -/
def State.buildEnd (s : State) (p e flags want : Nat) : State :=
  let x := s.pt p
  let y := x.ses
  let start := y.startRegs.getD x.ints
  let fl := if y.parentRevoked then putBit (y.span.flags ||| flags) 9 true else y.span.flags ||| flags
  let seq := x.seqNext
  let cost := costOf (s.sesSum p) (priceUnits (s.ptType p))
  let s := s.build 3 p e y.span e x.wrapSum fl want
    (endBody x.ints start y.reference cost y.stopCause y.endCause y.number y.currency)
  s.modSes p (fun z => { z with running := false, endRegs := x.ints, endSeq := some seq })

/-- CLOSED goes to IDLE once SESSION_END is journalled and streamed (Table 9.6). -/
def State.closedToIdle (s : State) (p : Nat) : State :=
  if (s.sesOf p).state = .closed ∧ (s.sesOf p).endDone = true then s.enterState p .idle 0 else s

end Sys2Proof.Machine
end

