-- ==== Sys2Proof/Machine/KeyOps.lean ====
section
/-!
DEFINITION. Invalidation of keys (18 R430, R431), the flags of node-scope records (03 R81–R83, 23 R525), and the relock
of the test window (23 R520).
-/

namespace Sys2Proof.Machine

/-! ### Time flags -/

/-- error(t) of R81 in ns, from the filtered offset, the frequency's standard error (0.001 ppb) and ND_OSC_DRIFT. -/
def State.holdError (s : State) : Int :=
  let dt := s.clk.up - s.servo.holdAt
  s.servo.e0 + divFree (s.servo.f0 * dt : Nat) 1000000000000 +
    divFree (s.pn ND_OSC_DRIFT * dt * dt : Nat) (7200 * 1000000000000000000)

/-- Whether a frame now is UNALIGNED (R82). -/
def State.unaligned (s : State) : Bool :=
  match s.servo.state with
  | .free => true
  | .acquiring => true
  | .holdover => decide (s.pv ND_HOLDOVER_MAX_ERR < s.holdError)
  | .mains => decide (s.pn ND_MAINS_MAX_ERR < s.servo.bound)
  | .locked => false

/-- Time regime of a frame now (Table 3.5). -/
def State.regime (s : State) : Nat :=
  match s.servo.state with
  | .locked => 0
  | .mains => 1
  | .holdover => 2
  | _ => 3

/-- Flags of a node-scope record now: UNALIGNED and TEST. -/
def State.nodeFlags (s : State) : Nat := 16 * b2n s.unaligned + 128 * b2n s.testing

/-! ### Invalidation -/

/-- Key class as the log names it: 4 stands for both TLS keys (Table 15.15). -/
def logClass (cls : Nat) : Nat := if cls = 5 then 4 else cls

/-- The 5 bytes that name a key and its state in a log entry of kind 8 (Table 15.15). -/
def keyValue (cls p gen st : Nat) : Bytes :=
  [byteOf (logClass cls), byteOf (if cls = 1 then 0xFF else p)] ++ le 2 gen ++ [byteOf st]

/-- Raise KEY_INVALIDATED (Table 18.4). -/
def State.keyEvent (s : State) (cls p edge cause gen sessions logIdx : Nat) : State :=
  let pt := if cls = 1 then 0xFF else p
  s.raise 48 (logClass cls * 256 + pt)
    ([byteOf (logClass cls), byteOf pt, byteOf edge, byteOf cause] ++ le 2 gen ++ le 2 sessions ++ le 8 s.frm ++ le 4 logIdx)

/-- A session whose parent key is invalidated (R240): TRANSFERRING and STOPPING take the cause PARENT_REVOKED; AUTHORISED
returns to IDLE and its key is erased. -/
def State.revokeParent (s : State) (p : Nat) : State :=
  match (s.sesOf p).state with
  | .transferring => (s.modSes p (fun x => { x with parentRevoked := true })).addCause p 10
  | .stopping => (s.modSes p (fun x => { x with parentRevoked := true })).addCause p 10
  | .authorised => s.backToIdle p 10
  | _ => s

/-- Points among `l` whose session is open. -/
def State.openSessions (s : State) (l : List Nat) : Nat :=
  mapOf 16 (l.filter (fun p => (s.sesOf p).state == .transferring || (s.sesOf p).state == .stopping))

/-- One key invalidated (R430, R431): state, log entry, event, and its point's session. `src` and `tag` are those of the
log entry. Invalidating an invalidated key does nothing. -/
def State.invalidateOne (s : State) (cls p cause src tag : Nat) (pts : List Nat) : State :=
  let k := s.keyState cls p
  if k.invalid then s
  else
    let idx := s.log.next
    let open' := s.openSessions pts
    let s := s.modKey cls p (fun k => { k with invalid := true, since := s.frm })
    let s := s.enter 8 0 0 src tag (keyValue cls p k.gen 0) (keyValue cls p k.gen 1 ++ [byteOf cause]) s.frm s.saf.seals
    let s := s.keyEvent cls p 0 cause k.gen open' idx
    if cls = 2 then s.revokeParent p else s

/-- A key invalidated with what follows it: the node key takes every point key, and the TLS keys bound to their point
(R430). -/
def State.invalidate (s : State) (cls p cause src tag : Nat) : State :=
  if cls = 1 then
    if s.keys.node.invalid then s
    else
      let s := s.invalidateOne 1 0 cause src tag points16
      forAll points16 (fun q s =>
        let s := s.invalidateOne 2 q 2 src tag [q]
        let s := s.revokeParent q
        if s.pb PT_KEY_TLS_BIND q then s.invalidateOne 4 q 2 src tag [] else s) s
  else s.invalidateOne cls p cause src tag [p]

/-! ### The test window -/

/-- The window relocks (R520): every register at reset, entered as kind 9. `evCause` is TEST_ACTIVE's cause, `logCause`
that of Table 15.15. (log 38) -/
def State.relock (s : State) (evCause logCause src tag : Nat) : State :=
  if s.test.unlocked then
    let s := s.setTest TestRegs.reset evCause
    (s.modTest (fun x => { x with unlocked := false, due := none })).enter 9 0 0 src tag [1] [0, byteOf logCause] s.frm
      s.saf.seals
  else s

end Sys2Proof.Machine
end

