-- ==== Sys2Proof/Machine/Sar.lean ====
section
/-!
DEFINITION. SAR converters (16): descriptors and reserved entries, timers and triggers, results and limits, what the
results of reserved entries mean (12 R299–R303, 14 R341), the monitor scan (04 R94, R108, 22 R514, R515), the self-test.
-/

namespace Sys2Proof.Machine

/-! ### Descriptors -/

/-- High time of the pilot that a port drives, in ns (R295). -/
def State.highTime (s : State) (p : Nat) : Nat := (s.outOf p).duty * 500

/-- Whether the pilot of a port is PWM rather than constant. -/
def State.isPwm (s : State) (p : Nat) : Bool := (s.outOf p).duty != 0 && (s.outOf p).duty != 2000

/-- Delay of the high-plateau entry in 10 ns (R299). -/
def State.highDelay (s : State) (p : Nat) : Nat :=
  if s.isPwm p then min (s.highTime p - 5000) (max 10000 (s.highTime p / 2)) / 10 else 50000

/-- Whether point `p` is an outlet with a socket (`PT_OUT_PP_MODE` 1). -/
def State.hasSocket (s : State) (p : Nat) : Bool := s.isOutlet p && s.pn PT_OUT_PP_MODE p == 1

/-- Whether any outlet has a socket: then timer 0 is held at 1 ms (R387). -/
def State.anySocket (s : State) : Bool := points16.any s.hasSocket

/-- Input, trigger and delay of a reserved entry (Table 16.5). -/
def State.reservedEntry (s : State) (k i : Nat) : Option (Nat × Nat × Nat) :=
  if k = 0 then
    let p := i / 2
    if s.isOutlet p then
      (if i % 2 = 0 then some (p, 16 + p, s.highDelay p) else some (p, 32 + p, (1000000 - s.highTime p) / 20))
    else none
  else if k = 1 then
    (if i < 16 then (if s.hasSocket i then some (i, 1, 1000 * i) else none)
     else if i = 16 ∧ s.anySocket = true then some (18, 1, 17000) else none)
  else if i < 16 then some (i, 48, 0) else none

/-- PID of an entry's descriptor (R398). -/
def sarPid (k i : Nat) : Nat := ND_SAR_ENTRY + 32 * k + i

/-- A descriptor with the Capo's input, trigger and delay over the written ones (R388). -/
def State.overDescr (s : State) (k i w : Nat) : Nat :=
  match s.reservedEntry k i with
  | some (a, b, c) => a * 2 ^ 58 + b * 2 ^ 50 + c * 2 ^ 34 + w % 2 ^ 34
  | none => w

/-- The descriptor that governs entry `i` of converter `k` (Table 16.3). -/
def State.descr (s : State) (k i : Nat) : Nat := s.overDescr k i (s.pn (sarPid k i))

/-- Fields of a descriptor (Table 16.3). -/
def dInput (d : Nat) : Nat := d / 2 ^ 58 % 64
def dTrigger (d : Nat) : Nat := d / 2 ^ 50 % 256
def dDelay (d : Nat) : Nat := d / 2 ^ 34 % 65536
def dReport (d : Nat) : Bool := d.testBit 33
def dLimitEn (d : Nat) : Bool := d.testBit 32
def dRun (d : Nat) : Nat := d / 2 ^ 24 % 256
def dHigh (d : Nat) : Nat := d / 2 ^ 12 % 4096
def dLow (d : Nat) : Nat := d % 4096

/-- Period of general timer `i` in ns, 0 off (R385, R387). -/
def State.sarTimer (s : State) (i : Nat) : Nat :=
  if i = 0 ∧ s.anySocket = true then 1000000 else s.pnE (ND_SAR_TIMER_0 + i) * 10

/-! ### Triggers -/

/-- Entry `i` of converter `k`. -/
def State.sarEntry (s : State) (k i : Nat) : SarEntry := (s.conv k).entries.getD i SarEntry.reset

/-- Change one entry. -/
def State.modEntry (s : State) (k i : Nat) (f : SarEntry → SarEntry) : State :=
  s.modConv k (fun c => { c with entries := upd c.entries i f })

/-- A trigger fires at `at'`: every entry that names it falls due after its delay (R384, R386). (log 46) -/
def State.fireTrigger (s : State) (code at' : Nat) (ks : List Nat) : State :=
  ks.foldl (fun s k => (List.range 32).foldl (fun s i =>
    let d := s.descr k i
    if dTrigger d = code then s.modEntry k i (fun e => { e with trigAt := e.trigAt ++ [at' + 10 * dDelay d] }) else s) s) s

/-- The four converters. -/
def convs : List Nat := [0, 1, 2, 3]

/-- The general timers at the boundary `b0` (elapsed ns): a changed or newly running timer ticks there first (R385). -/
def State.timersAtBoundary (s : State) (b0 : Nat) (changed : List Nat) : State :=
  s.modSar (fun x => { x with timerNext := (List.range 8).map (fun i =>
    if s.sarTimer i = 0 then none
    else if changed.contains i then some b0
    else match x.timerNext.getD i none with
      | some d => some d
      | none => some b0) })

/-- SAR_TIMER_TICK (R385). -/
def execSarTimerTick (t i : Nat) (s : State) : Host.Outcome State Fault Refusal :=
  let s := s.at t
  match s.sar.timerNext.getD i none with
  | some d =>
    if 3 ≤ s.pwr.stage ∧ d ≤ t ∧ i < 8 then
      .next ((s.fireTrigger (1 + i) d convs).modSar (fun x => { x with
        timerNext := put x.timerNext i (if s.sarTimer i = 0 then none else some (d + s.sarTimer i)) }))
    else .next s
  | none => .next s

/-- Pending entries in the order in which they became pending, ties to the lower index (R386). (log 46) -/
def insertPend (i d at' : Nat) : List (Nat × Nat × Nat) → List (Nat × Nat × Nat)
  | [] => [(i, d, at')]
  | x :: xs =>
    if at' < x.2.2 ∨ (at' = x.2.2 ∧ i < x.1) then (i, d, at') :: x :: xs else x :: insertPend i d at' xs

/-- SAR_TRIGGER_FIRE (R386): the entry is pending, or keeps its first conversion and sets OVERRUN. -/
def execSarTriggerFire (t k i : Nat) (s : State) : Host.Outcome State Fault Refusal :=
  let s := s.at t
  match (s.sarEntry k i).trigAt with
  | a :: rest =>
    if k < 4 ∧ i < 32 ∧ a ≤ t then
      let busy := (s.conv k).pend.any (fun x => x.1 == i)
      let s := s.modEntry k i (fun e => { e with trigAt := rest, overrun := e.overrun || busy })
      .next (if busy then s else s.modConv k (fun c => { c with pend := insertPend i (s.descr k i) a c.pend }))
    else .next s
  | [] => .next s

/-! ### Results -/

/-- The frame that an elapsed instant lies in, and the ns after its start. -/
def State.frameAt (s : State) (e : Nat) : Nat × Nat :=
  if s.clk.lastTick ≤ e then (s.frm, s.fineTime e / 2 ^ 32)
  else
    let n := (s.clk.lastTick - e + 249999) / 250000
    (s.frm - n, e + n * 250000 - s.clk.lastTick)

/-- The body of Table 16.10 up to its Count. -/
def sarBody (k i kind input result reference frame offset merged : Nat) : Bytes :=
  [byteOf k, byteOf i, byteOf kind, byteOf input] ++ le 2 result ++ le 2 reference ++ le 8 frame ++ le 4 offset ++ le 4 merged

/-- SAR_SEQUENCE_DONE, at most once a frame and converter; the rest is merged (R391). (log 46) -/
def State.sequenceDone (s : State) (k : Nat) (body : Bytes) : State :=
  if (s.conv k).doneFrame = some s.frm then
    s.modConv k (fun c => { c with merged := inc32 c.merged, mergedDet := body.take 20 })
  else (s.modConv k (fun c => { c with doneFrame := some s.frm })).raise 43 k body

/-- The completions merged in the frame before are reported at a frame's start (R391). (log 46) -/
def State.flushMerged (s : State) : State :=
  convs.foldl (fun s k =>
    let c := s.conv k
    if c.merged = 0 then s
    else (s.modConv k (fun c => { c with merged := 0, doneFrame := some s.frm })).raise 43 k (c.mergedDet ++ le 4 c.merged)) s

/-- Side of a result under a descriptor: 0 inside, 1 below, 2 above (R390). -/
def sideOf (d code : Nat) : Nat := if code < dLow d then 1 else if dHigh d < code then 2 else 0

/-- The limit state of an entry after a result (R390). -/
def State.limitCheck (s : State) (k i d code frame offset : Nat) : State :=
  if !dLimitEn d then s
  else
    let e := s.sarEntry k i
    let side := sideOf d code
    let run := if side = e.side then e.run + 1 else 1
    let s := s.modEntry k i (fun e => { e with side := side, run := run })
    if side ≠ e.limit ∧ max 1 (dRun d) ≤ run then
      let bound := if side = 1 ∨ (side = 0 ∧ e.limit = 1) then dLow d else dHigh d
      (s.modEntry k i (fun e => { e with limit := side })).raise 44 k
        (sarBody k i ([2, 0, 1].getD side 0) (dInput d) code bound frame offset run)
    else s

/-- V_cp in mV times 4,096 of a pilot code (R298). -/
def pilotMv (code : Nat) : Int := (code * 25000 : Nat) - 51200000

/-- V_cp in mV as reported (Table 12.9). -/
def pilotReport (code : Nat) : Int := clipI 16 (divFree (pilotMv code) 4096)

/-- The code of a high plateau, with the low plateau of the period while PWM is driven (Table 12.2). -/
def decodePilot (hi : Nat) (low : Option Nat) : Nat :=
  let v := pilotMv hi
  let within (a b : Int) : Bool := decide (a * 4096 ≤ v) && decide (v ≤ b * 4096)
  let c := if within 11000 13000 then 0 else if within 8000 10000 then 1 else if within 5000 7000 then 2
    else if within 2000 4000 then 3 else if within (-1000) 1000 then 4 else if within (-13000) (-11000) then 5 else 6
  match low with
  | some l => if (c = 1 ∨ c = 2 ∨ c = 3) ∧ -11000 * 4096 < pilotMv l then 7 else c
  | none => c

/-- A decoded pilot sample of a port: the run of equal codes (R300); a failed converter 0 decodes code 6 (Table 16.7). -/
def State.pilotSample (s : State) (p code : Nat) : State :=
  let c := if (s.conv 0).suspect then 6 else code
  s.modOut p (fun o => { o with cand := c, run := if o.cand = c then o.run + 1 else 1 })

/-- A result of a plateau entry (R299, R300): the high plateau decides, with the low one of its period while PWM is
driven. Constant low is not decoded. -/
def State.plateau (s : State) (i code : Nat) : State :=
  let p := i / 2
  let o := s.outOf p
  if !s.isOutlet p || !s.pwr.capoOn then s
  else if o.duty = 0 then s.modOut p (fun o => { o with lo := some code, hi := none })
  else if o.duty = 2000 then (s.modOut p (fun o => { o with hi := some code, lo := none })).pilotSample p (decodePilot code none)
  else if i % 2 = 0 then s.modOut p (fun o => { o with hi := some code, lo := none })
  else
    match o.hi with
    | some h => (s.modOut p (fun o => { o with lo := some code })).pilotSample p (decodePilot h (some code))
    | none => s.modOut p (fun o => { o with lo := some code })

/-- The proximity code of V over VANA/2 (R303, Table 12.5): R_c = 1,000 Ω × V / (VANA − V). -/
def decodeProx (v half : Nat) : Nat :=
  let num := 1000 * v
  let den := 2 * half - v
  if 2600 * den < num ∨ 2 * half ≤ v then 0
  else if 1100 * den ≤ num ∧ num ≤ 2460 * den then 1
  else if 400 * den ≤ num ∧ num ≤ 936 * den then 2
  else if 164 * den ≤ num ∧ num ≤ 308 * den then 3
  else if 75 * den ≤ num ∧ num ≤ 140 * den then 4
  else if num < 60 * den then 5
  else 6

/-- R_c in Ω as reported: 65,535 above 65,534 (Table 12.9). -/
def proxOhms (v half : Nat) : Nat := if 2 * half ≤ v then 65535 else min 65535 (divFree (1000 * v : Nat) (2 * half - v)).toNat

/-- VANA has been measured after every socket of the millisecond: the proximity codes (R303). -/
def State.proximity (s : State) (half : Nat) : State :=
  if !s.pwr.capoOn then s
  else points16.foldl (fun s p =>
    if s.hasSocket p then
      let v := (s.sarEntry 1 p).code
      let c := if (s.conv 1).suspect then 6 else decodeProx v half
      s.modOut p (fun o => { o with rc := proxOhms v half, ppCand := c, ppRun := if o.ppCand = c then o.ppRun + 1 else 1 })
    else s) s

/-- What the result of a reserved entry is used for. (log 46) -/
def State.useResult (s : State) (k i code : Nat) : State :=
  if k = 0 then s.plateau i code
  else if k = 1 then (if i = 16 ∧ s.anySocket = true then s.proximity code else s)
  else if i < 16 then s.modSwch (16 * (k - 2) + i) (fun c => { c with mA := (divFree (code * 2500 : Nat) 4096).toNat })
  else s

/-- SAR_CONVERSION_COMPLETE (R389–R391): the first pending entry of the converter. -/
def execSarConversionComplete (t k code sampled : Nat) (s : State) : Host.Outcome State Fault Refusal :=
  let s := s.at t
  match (s.conv k).pend with
  | (i, d, at') :: rest =>
    if k < 4 ∧ code < 4096 ∧ at' ≤ sampled ∧ sampled ≤ t then
      let f := s.frameAt sampled
      let s := s.modConv k (fun c => { c with pend := rest })
      let s := s.modEntry k i (fun e => { e with valid := true, code := code, offset := min 2499 (f.2 / 100), frame := f.1 })
      let s := s.limitCheck k i d code f.1 f.2
      let s := if dReport d then s.sequenceDone k (sarBody k i 0 (dInput d) code 0 f.1 f.2 0) else s
      .next (s.useResult k i code)
    else .next s
  | [] => .next s

/-- A descriptor takes effect: VALID and the limit run begin afresh (Table 16.6, R390). -/
def State.restartEntry (s : State) (k i : Nat) : State :=
  s.modEntry k i (fun e => { e with valid := false, limit := 0, side := 0, run := 0 })

/-! ### The monitor scan -/

/-- SUPPLY_MONITOR (Table 22.7). -/
def State.supplyMon (s : State) (subject kind : Nat) (value limit ext : Int) : State :=
  s.raise 57 0 ([byteOf subject, byteOf kind, 0, 0] ++ leI 4 value ++ le 8 s.frm ++ leI 4 limit ++ leI 4 ext)

/-- THERMAL_DIE (Table 22.7). (log 47) -/
def State.thermalDie (s : State) (kind : Nat) (value limit ext : Int) : State :=
  s.raise 56 0 ([0, byteOf kind, 0, 0] ++ leI 4 value ++ le 8 s.frm ++ leI 4 limit ++ leI 4 ext)

/-- The furthest value since a report, kept by subject (Table 22.7). -/
def State.putExt (s : State) (i : Nat) (v : Int) : State := s.modPwr (fun x => { x with supExt := put x.supExt i v })

/-- One subject against its range (R514, R94): 0–3 rails, 4 the reference ratio; `bad` is what is in force. (log 46) -/
def State.rangeCheck (s : State) (i : Nat) (bad : Bool) (v lo hi : Int) : State :=
  let e := s.pwr.supExt.getD i 0
  if v < lo ∨ hi < v then
    if bad then s.putExt i (if e < lo then min e v else max e v)
    else (s.putExt i v).supplyMon i (if v < lo then 0 else 1) v (if v < lo then lo else hi) v
  else if bad then s.supplyMon i 2 v (if e < lo then lo else hi) e
  else s

/-- Operating ranges of the rails in mV (Table 22.1), VSW, VIO, VANA, VCORE. -/
def railRange (i : Nat) : Int × Int :=
  [((8000 : Int), (32000 : Int)), (3000, 3600), (3135, 3465), (855, 945)].getD i (0, 0)

/-- One rail (R514). -/
def State.rail (s : State) (i v : Nat) : State :=
  let r := railRange i
  let bad := s.sar.supBad.testBit i
  if (s.pn ND_SUPPLY_MON_MASK).testBit i then
    (s.rangeCheck i bad v r.1 r.2).modSar (fun x => { x with supBad := putBit x.supBad i (decide ((v : Int) < r.1 ∨ r.2 < v)) })
  else s

/-- The die temperature (R515). (log 46) -/
def State.dieCheck (s : State) (v : Int) : State :=
  let w := s.pv ND_TDIE_WARN
  let e := s.pwr.supExt.getD 5 0
  let s := if w < v ∧ s.sar.tempWarn = false then
      ((s.putExt 5 v).modSar (fun x => { x with tempWarn := true })).thermalDie 0 v w v
    else if s.sar.tempWarn ∧ v < w - 50 then (s.modSar (fun x => { x with tempWarn := false })).thermalDie 1 v (w - 50) e
    else if s.sar.tempWarn then s.putExt 5 (max e v)
    else s
  let s := if 1250 < v ∧ s.sar.tempHot = false then s.thermalDie 2 v 1250 (max v (s.pwr.supExt.getD 5 0)) else s
  s.modSar (fun x => { x with dieTemp := v, tempHot := decide (1250 < v) })

/-- The reference ratio (R94), which holds while converter 2 stands failed (Table 16.7). (log 46) -/
def State.refCheck (s : State) (v : Int) : State :=
  if s.sar.refHeld then s
  else
    let tol : Int := s.pn ND_REF_MON_TOL
    (s.rangeCheck 4 s.sar.refBad v (-tol) tol).modSar (fun x => { x with refPpm := v, refBad := decide (v < -tol ∨ tol < v) })

/-- Whether an excitation source is active: it delivers current (04 R107, R108). -/
def State.excActive (s : State) (p : Nat) : Bool := s.excLevel p != 0

/-- The currents of the active sources (R108); a level changed at the last boundary counts as measured once 2 ms
have passed from it (R120). -/
def State.excScan (s : State) (l : List (Nat × Nat)) : State :=
  if s.sar.refHeld then s
  else
    let settled := decide (s.clk.bdryAt + 2000000 ≤ s.clk.up)
    l.foldl (fun s x =>
      if x.1 < 16 ∧ s.excActive x.1 = true then
        s.modSar (fun y => { y with exc := put y.exc x.1 x.2, excGood := upd y.excGood x.1 (· || settled) })
      else s) s

/-- The mean of 256 conversions over the range of 2.500 V (R382, R392), times `k` units a volt at full code. (logs 4, 46) -/
def monMean (k sum : Nat) : Nat := (divFree (sum * 2500 * k : Nat) (256 * 4096)).toNat

/-- The die temperature in 0.1 °C: 0.500 V at −40 °C, rising by 5.000 mV/K (R383). (logs 4, 46) -/
def dieOf (sum : Nat) : Int := divFree ((sum : Int) * 5000 - 1400 * (256 * 4096)) (256 * 4096)

/-- The deviation of VREFA from VREFB in ppm (04 R94). (logs 4, 46) -/
def refPpmOf (a b : Nat) : Int := clipI 32 (divFree (((a : Int) - b) * 1000000) (max 1 b))

/-- MONITOR_SCAN (R392): VSW / 16, VIO / 2, VANA / 2 and VCORE in mV, the die temperature, the reference ratio, and the currents through the
1.000 kΩ resistor in nA (04 R108). (log 46) -/
def execMonitorScan (t : Nat) (m : MonObs) (s : State) : Host.Outcome State Fault Refusal :=
  let s := s.at t
  if s.pwr.stage < 3 then .next s
  else
    let vsw := monMean 16 m.vsw
    let vio := monMean 2 m.vio
    let vana := monMean 2 m.vana
    let vcore := monMean 1 m.vcore
    let s := s.modSar (fun x => { x with monVsw := vsw, monVio := vio, monVana := vana, monVcore := vcore })
    let s := (((s.rail 0 vsw).rail 1 vio).rail 2 vana).rail 3 vcore
    .next (((s.dieCheck (dieOf m.die)).refCheck (refPpmOf m.refA m.refB)).excScan (m.exc.map (fun x => (x.1, monMean 1000 x.2))))

/-! ### The self-test -/

/-- SAR_SELFTEST_RUN (R394, R395): the test DAC serves one use at a time, and a request waits for it, behind the outlets'
residual self-tests that wait for the DAC of converter 3. -/
def execSarSelftestRun (t k : Nat) (s : State) : Host.Outcome State Fault Refusal :=
  let s := s.at t
  let c := s.conv k
  if 3 ≤ s.pwr.stage ∧ k < 4 ∧ c.stRun = false ∧ (c.stWait = true ∨ ripeAt c.stDue t = true) then
    let next := t + (if c.suspect then 1 else s.pn ND_SAR_SELFTEST_PERIOD) * 1000000000
    let s := s.modConv k (fun c => { c with stDue := if ripeAt c.stDue t then some next else c.stDue })
    let waits := k == 3 && points16.any (fun p =>
      (s.outOf p).test == 4 && !s.rcdDiagnosed p && !(s.swch (s.contactor p)).on)
    .next (if c.dac = 0 ∧ waits = false then s.modConv k (fun c => { c with dac := 3, stRun := true, stWait := false })
      else s.modConv k (fun c => { c with stWait := true }))
  else .next s

/-- Expected codes of the four steps: AGND and four times the DAC codes 51, 512 and 972 (R395). -/
def stExpected : List Nat := [0, 204, 2048, 3888]

/-- The step whose mean lies furthest from its expectation: the deviation of its sum, the sum and the expectation. -/
def worstStep (sums : List Nat) : Nat × Nat × Nat :=
  (List.range 4).foldl (fun a i =>
    let v := sums.getD i 0
    let e := stExpected.getD i 0
    let d := ((v : Int) - 16 * e).natAbs
    if a.1 < d then (d, v, e) else a) (0, sums.getD 0 0, 0)

/-- SAR_SELFTEST_COMPLETE (R395, Table 16.7). (log 46) -/
def execSarSelftestComplete (t k : Nat) (sums : List Nat) (s : State) : Host.Outcome State Fault Refusal :=
  let s := s.at t
  let c := s.conv k
  if k < 4 ∧ c.stRun = true ∧ sums.length = 4 then
    let w := worstStep sums
    let fail := decide (16 * s.pn ND_SAR_SELFTEST_TOL < w.1)
    let s := s.modConv k (fun c => { c with
      dac := 0, stRun := false, suspect := fail, stCount := inc32 c.stCount
      stDue := if fail then some (t + 1000000000)
        else if c.suspect then some (t + s.pn ND_SAR_SELFTEST_PERIOD * 1000000000) else c.stDue })
    let s := if fail || c.suspect then
        s.raise 45 k (sarBody k 0xFF (b2n (!fail)) 21 (divFree (w.2.1 : Int) 16).toNat w.2.2 s.frm (s.frameAt t).2 0)
      else s
    .next (if k = 2 ∧ fail ≠ s.sar.refHeld then
      (s.modSar (fun x => { x with refHeld := fail })).supplyMon 5 (if fail then 3 else 4) s.sar.refPpm 0 0
      else s)
  else .next s

/-! ### Host commands -/

/-- A result register (Table 16.6). -/
def resultWord (suspect : Bool) (e : SarEntry) : Nat :=
  2 ^ 31 * b2n e.valid + 2 ^ 30 * b2n e.overrun + 2 ^ 29 * b2n suspect + 2 ^ 27 * e.limit + 2 ^ 12 * e.code + e.offset

/-- sar-results (Table 20.6): two parts of 16 registers with their frames; OVERRUN clears on read. -/
def serveSarResults (p : Bytes) (s : State) : Ans :=
  let k := fld p 0 1
  if p.length ≠ 1 then refuse s 2
  else if 4 ≤ k then refuse s 5
  else
    let c := s.conv k
    let l := c.entries.map (fun e => le 4 (resultWord c.suspect e) ++ le 8 e.frame)
    okParts (s.modConv k (fun c => { c with entries := c.entries.map (fun e => { e with overrun := false }) }))
      [(l.take 16).flatten, (l.drop 16).flatten]

/-- SAR_RESULTS. -/
def execSarResults (h : Hdr) (p : Bytes) (s : State) : Host.Outcome State Fault Refusal := hostCmd 0x0901 h p serveSarResults s

/-- sar-trigger: the command trigger of the named converters (R384). -/
def serveSarTrigger (p : Bytes) (s : State) : Ans :=
  if p.length ≠ 1 then refuse s 2
  else if 16 ≤ fld p 0 1 then refuse s 6
  else okS (s.fireTrigger 49 s.clk.up (bitsOf 4 (fld p 0 1)))

/-- SAR_TRIGGER. -/
def execSarTrigger (h : Hdr) (p : Bytes) (s : State) : Host.Outcome State Fault Refusal := hostCmd 0x0902 h p serveSarTrigger s

/-- sar-selftest (R395): the test is requested. -/
def serveSarSelftest (p : Bytes) (s : State) : Ans :=
  if p.length ≠ 1 then refuse s 2
  else if 4 ≤ fld p 0 1 then refuse s 5
  else okS (s.modConv (fld p 0 1) (fun c => { c with stWait := true }))

/-- SAR_SELFTEST. -/
def execSarSelftest (h : Hdr) (p : Bytes) (s : State) : Host.Outcome State Fault Refusal := hostCmd 0x0903 h p serveSarSelftest s

end Sys2Proof.Machine
end

