-- ==== Sys2Proof/Machine/Outlet.lean ====
section
/-!
DEFINITION. The outlet port (12): the residual-current trip and its self-test, the pilot's periods and accepted codes,
proximity, high-level communication, SLAC matching, welded contacts, and the outlet's host commands.
-/

namespace Sys2Proof.Machine

/-! ### The residual-current trip (R311–R313, 04 R99–R101) -/

/-- DAC code of a threshold: `num` over `den` V in steps of 1/1,024 V, rounded to nearest (R311, Table 4.5). (log 16) -/
def rcdCode (num den : Nat) : Nat := min 1023 (divHalfAway (num * 1024 : Nat) den).toNat

/-- The six comparators as the outlet's parameters give them (R311). -/
def State.rcdSettings (s : State) (p : Nat) : List Comparator :=
  let sens := s.pn PT_RCD_SENS p
  let en := s.pn PT_RCD_ENABLE p
  (List.range 3).map (fun i =>
    ⟨rcdCode (s.pn (PT_RCD_DC_MA_0 + i) p * sens) 100000000, s.pn (PT_RCD_DC_HOLD_0 + i) p, en.testBit i⟩) ++
  (List.range 3).map (fun i =>
    ⟨rcdCode (s.pn (PT_RCD_AC_MA_0 + i) p * sens * 9003) 1000000000000, s.pn (PT_RCD_AC_HOLD_0 + i) p, en.testBit (3 + i)⟩)

/-- The Capo loads the comparators of a point's slices: armed where R101 says so, disabled elsewhere. -/
def State.loadRcd (s : State) (p : Nat) : State :=
  let armed := s.rcdSlices p
  (List.range 8).foldl (fun s k =>
    s.modSlice (8 * p + k) (fun x => { x with
      comps := if armed.contains (8 * p + k) then s.rcdSettings p else x.comps.map (fun c => { c with en := false }) })) s

/-- The Capo reports a trip: the event and the cause (R312). -/
def State.reportTrip (s : State) (p : Nat) : State :=
  let o := s.outOf p
  ((s.modOut p (fun o => { o with tripOwed := false })).rcdEvent p 0 o.tripComp o.tripSlice).addCause p 13

/-- Comparator `comp` of slice `c` trips at `t` (04 R100): with the input of the running frame so far its path stands above the
threshold, and has stood so for the hold time without a break. -/
def State.tripDue (s : State) (t c comp : Nat) (input : List Int) : Bool :=
  let x := (s.slice c).residual c (s.blanked c) ((s.slice c).pathInput (input.take ((t - s.clk.lastTick) / 10000))) s.clk.lastTick
  match x.aboveAt.getD comp none with
  | some a => decide (a + (x.comps.getD comp Comparator.reset).hold * 100000 ≤ t)
  | none => false

/-- RESIDUAL_TRIP (04 R100, R101, R312, R313): the switch die forces the contactor safe at rank 1; a trip of the slice under
self-test is the test's. (log 17) -/
def execResidualTrip (t c comp : Nat) (input : List Int) (s : State) : Host.Outcome State Fault Refusal :=
  let s := s.at t
  let p := pointOf c
  if c < 128 ∧ comp < 6 ∧ s.isOutlet p = true ∧ s.tripDue t c comp input = true then
    let n := s.contactor p
    let s := (s.modSwch n (fun x => { x with resHold := true })).forceSafe n
    let o := s.outOf p
    if o.test = 1 ∧ o.testSlices.head? = some c then
      .next (s.modOut p (fun o => { o with testTrip := o.testTrip || decide (t ≤ o.testDue.getD t) }))
    else
      let s := s.modOut p (fun o => { o with
        lastAbove := some t
        tripOwed := o.tripOwed || !o.trip
        tripComp := if o.trip then o.tripComp else comp
        tripSlice := if o.trip then o.tripSlice else c
        trip := true })
      .next (if s.pwr.capoOn ∧ o.trip = false then s.reportTrip p else s)
  else .next s

/-- The residual latch of a port released in the switch die. -/
def State.releaseRcd (s : State) (p : Nat) : State :=
  (s.modSwch (s.contactor p) (fun x => { x with resHold := false })).modOut p (fun o => { o with trip := false, tripOwed := false })

/-- Step 3 of R313: the injection ends, the slice is reconnected, and the latch is released unless a trip stands. -/
def State.endInjection (s : State) (p : Nat) : State :=
  let o := s.outOf p
  match o.testSlices with
  | c :: _ =>
    let s := (s.modSlice c (fun x => { x with inject := none })).modConv 3 (fun k => { k with dac := 0 })
    let s := s.modOut p (fun o => { o with testDue := none })
    if o.trip then s else s.modSwch (s.contactor p) (fun x => { x with resHold := false })
  | [] => s

/-- The pilot is back in A: a test under way ends without a result. (log 17) -/
def State.dropTest (s : State) (p : Nat) : State :=
  let s := if (s.outOf p).test = 1 then s.endInjection p else s
  s.modOut p (fun o => { o with test := 0, testSlices := [], testDue := none })

/-- Leaving FAULT: the pilot, which was driven low, is decoded afresh from A (Table 9.13). (log 17) -/
def State.freshPilot (s : State) (p : Nat) : State :=
  if s.isOutlet p then
    (s.dropTest p).modOut p (fun o => { o with
      code := 0, cand := 0, run := 0, abAt := if o.abAt.isSome then o.abAt else some s.clk.up })
  else s

/-- RESIDUAL_SELF_TEST_RESULT (R313): a trip within 100 ms, or none. -/
def execResidualSelfTestResult (t p : Nat) (s : State) : Host.Outcome State Fault Refusal :=
  let s := s.at t
  let o := s.outOf p
  if p < 16 ∧ o.test = 1 ∧ (o.testTrip = true ∨ ripeAt o.testDue t = true) then
    let c := o.testSlices.headD 0
    let s := s.endInjection p
    if o.testTrip then
      match o.testSlices.drop 1 with
      | [] => .next ((s.modOut p (fun o => { o with test := 2, testSlices := [], testTrip := false })).rcdEvent p 2 0xFF c)
      | rest => .next ((s.modOut p (fun o => { o with testSlices := rest, testTrip := false })).runSelfTest p)
    else
      let s := (s.modOut p (fun o => { o with test := 3, testSlices := [] })).rcdEvent p 3 0xFF c
      .next (if (s.sesOf p).state = .authorised then s.toFault p 13 else s)
  else .next s

/-- Self-tests that wait for a diagnosis or for the test DAC (R394): the lowest port goes first. (log 17) -/
def State.startWaitingTests (s : State) : State :=
  points16.foldl (fun s p => if (s.outOf p).test = 4 then s.runSelfTest p else s) s

/-- The ports whose paths stand above an enabled threshold at a frame's end (R312). -/
def State.notePaths (s : State) : State :=
  points16.foldl (fun s p =>
    if (s.rcdSlices p).any (fun c => (s.slice c).aboveAt.any (·.isSome)) then
      s.modOut p (fun o => { o with lastAbove := some s.clk.up })
    else s) s

/-- Both paths have stayed below every enabled threshold for the preceding 1 s (R312). -/
def State.pathsQuiet (s : State) (p : Nat) : Bool :=
  match (s.outOf p).lastAbove with
  | some a => a + 1000000000 ≤ s.clk.up
  | none => true

/-! ### The pilot (R295–R302) -/

/-- PILOT_PERIOD (R295): the period of port `p` begins 62.5 µs × p after the start of frame 4k; a new duty is taken, and
the port's edges fire their triggers. -/
def execPilotPeriod (t p : Nat) (s : State) : Host.Outcome State Fault Refusal :=
  let s := s.at t
  let e := s.t0 (s.frm / 4 * 4) + 62500 * p
  if p < 16 ∧ 3 ≤ s.pwr.stage ∧ e ≤ t ∧ e ≠ (s.outOf p).periodAt then
    let s := s.modOut p (fun o =>
      let o := { o with periodAt := e }
      match o.dutyNext with
      | some (d, a) => if a + 250000 ≤ e then { o with duty := d, dutyNext := none } else o
      | none => o)
    let s := s.fireTrigger (16 + p) e convs
    .next (if s.isPwm p then s.fireTrigger (32 + p) (e + s.highTime p) convs else s)
  else .next s

/-- A pilot code as it acts: D without PT_OUT_VENT is treated as B (Table 12.3). -/
def State.pilotActs (s : State) (p code : Nat) : Nat := if code = 3 ∧ s.pb PT_OUT_VENT p = false then 1 else code

/-- The pilot has left A: from IDLE to AUTHORISING, and the self-test each time (Table 12.3, R313). (log 16) -/
def State.leavesA (s : State) (p : Nat) : State :=
  match (s.sesOf p).state with
  | .idle => (s.enterState p .authorising 0).startSelfTest p
  | .fault => s
  | _ => s.startSelfTest p

/-- The pilot has reached A (Table 12.3); the cause is marked as the pilot's own, whose grace is 0 (R302). (log 16) -/
def State.reachesA (s : State) (p : Nat) : State :=
  let s := (s.dropTest p).linkDown p 2
  match (s.sesOf p).state with
  | .authorising => s.backToIdle p 0
  | .authorised => s.backToIdle p 0
  | .transferring => s.addCause p 5
  | .stopping => s.addCause p 5
  | _ => s

/-- What an accepted pilot code does (R301, Table 12.3). (log 16) -/
def State.pilotEffect (s : State) (p old new : Nat) : State :=
  let a := s.pilotActs p old
  let b := s.pilotActs p new
  if 4 ≤ b then (if (s.sesOf p).state = .fault then s else s.addCause p 12)
  else if b = 0 then s.reachesA p
  else
    let s := if a = 0 then s.leavesA p else s
    if b = 1 ∧ (a = 2 ∨ a = 3) ∧ (s.sesOf p).state = .transferring then s.addCause p 104 else s

/-- PILOT_CODE_ACCEPTED (R300, R301). -/
def execPilotCodeAccepted (t p : Nat) (s : State) : Host.Outcome State Fault Refusal :=
  let s := s.at t
  let o := s.outOf p
  if p < 16 ∧ s.isOutlet p = true ∧ s.pwr.capoOn = true ∧ o.duty ≠ 0 ∧ o.cand ≠ o.code ∧ s.pn PT_CP_STABLE p ≤ o.run then
    let s := s.modOut p (fun o => { o with
      code := o.cand
      abAt := if o.cand < 2 then (if o.abAt.isSome then o.abAt else some t) else none })
    let s := s.outletChange p 0 o.code o.cand (pilotReport (o.hi.getD 0)) (o.lo.map pilotReport)
    .next ((s.pilotEffect p o.code o.cand).setPilot p)
  else .next s

/-- PROXIMITY_CODE_ACCEPTED (R303, R304): 10 consecutive equal codes. -/
def execProximityCodeAccepted (t p : Nat) (s : State) : Host.Outcome State Fault Refusal :=
  let s := s.at t
  let o := s.outOf p
  if p < 16 ∧ s.hasSocket p = true ∧ s.pwr.capoOn = true ∧ o.ppCand ≠ o.ppCode ∧ 10 ≤ o.ppRun then
    let s := s.modOut p (fun o => { o with ppCode := o.ppCand })
    let s := s.outletChange p 1 o.ppCode o.ppCand (pilotReport (o.hi.getD 0)) (o.lo.map pilotReport)
    let st := (s.sesOf p).state
    let s := if o.ppCand = 0 ∧ st = .transferring then s.addCause p 5
      else if 5 ≤ o.ppCand ∧ st ≠ .fault then s.addCause p 12
      else s
    .next (s.setPilot p)
  else .next s

/-! ### High-level communication (R305–R309, 09 R231) -/

/-- The status of an authorisation of point `p` that every path of R231 tests (R233, R242, R253, R313): 0 allowed. -/
def State.mayAuthorise (s : State) (p : Nat) : Nat :=
  if (s.pt p).outService || s.stored PT_SERVICE p != 0 then 8
  else if (s.sesOf p).stuck then 8
  else if s.isOutlet p && (s.outOf p).test == 3 then 8
  else if (s.keyState 2 p).invalid then 12
  else 0

/-- The authorisation reference of a contract: 16 bytes of the SHA-256 of its DER (R231). -/
def contractRef (chain : List Bytes) : Bytes := (sha256 (chain.headD [])).take 16

/-- A verified contract (R231): with PT_AUTH_MODE 1 it authorises alone; with 2 it waits for the host. -/
def State.takeContract (s : State) (p : Nat) (chain : List Bytes) : State :=
  let ok := s.keys.roots.any (fun r => match r with | some c => Config.chainVerifies chain c | none => false)
  let st := (s.sesOf p).state
  if !ok || chain.isEmpty then s
  else if s.pn PT_AUTH_MODE p = 1 ∧ (st = .idle ∨ st = .authorising) ∧ s.mayAuthorise p = 0 then
    s.authorise p (contractRef chain) 0 0 none 1
  else if s.pn PT_AUTH_MODE p = 2 then s.modOut p (fun o => { o with contract := some (contractRef chain) })
  else s

/-- The protocol chosen of those offered: the first that PT_OUT_PROTOCOLS enables (R305); under KEY_REGEN_FAIL
ISO 15118-20 is not offered (R433). -/
def State.chooseProtocol (s : State) (p : Nat) (l : List Nat) : Option Nat :=
  l.find? (fun x => 1 ≤ x && x ≤ 3 && !(x == 3 && s.keys.regenFail) && (s.pn PT_OUT_PROTOCOLS p).testBit (x - 1))

/-- Services that a point offers: AC or DC by its type, BPT with PT_OUT_BPT 1 under ISO 15118-20 (Table 12.6, R305). -/
def State.offers (s : State) (p service : Nat) : Bool :=
  service % 2 == (if s.ptType p = 2 then 1 else 0) && service < 4 &&
    (service < 2 || (s.pb PT_OUT_BPT p && (s.outOf p).protocol == 3))

/-- The TLS handshake of ISO 15118-2 or -20: the service pair has the handshake's digest signed by the P-256 or the P-521 key of the
port (R309, 01 R34). The digest is a free value. (log 31) -/
def State.handshake (s : State) (p protocol : Nat) : State :=
  let cls := if protocol = 3 then 5 else 4
  if protocol < 2 ∨ s.keys.regenFail = true then s
  else
    let digest := freeBytes s.clk.freeCtr 0 (digestSize cls)
    match s.privKey cls p (s.keyState cls p).gen with
    | some d => (s.bump.askKey 2 cls 9 digest.length).modOut p (fun o => { o with tlsSig := Config.ecdsaSign d digest })
    | none => s

/-- What a message does (R305–R308). (log 16) -/
def State.v2gEffect (s : State) (p : Nat) (m : V2gMsg) : State :=
  let o := s.outOf p
  let c := s.pilotActs p o.code
  match m.kind with
  | 0 => (match s.chooseProtocol p m.offered with
    | some x => (s.handshake p x).modOut p (fun o => { o with
        protocol := x, v2g := true, paused := false, ident := none
        dcDue := if s.ptType p = 2 ∧ o.dcDue.isNone ∧ o.dcShutdown = false then some (s.clk.up + 250000000) else o.dcDue })
    | none => s)
  | 1 => if s.offers p m.service then s.modOut p (fun o => { o with service := m.service }) else s
  | 2 => if m.ident = 0 ∨ (m.ident = 1 ∧ 2 ≤ o.protocol ∧ s.keys.regenFail = false) then s.modOut p (fun o => { o with ident := some m.ident }) else s
  | 3 => if 2 ≤ o.protocol ∧ o.ident = some 1 ∧ s.keys.regenFail = false then s.takeContract p m.chain else s
  | 4 => if s.ptType p = 1 ∧ (c = 2 ∨ c = 3) then s.modOut p (fun o => { o with wants := true }) else s
  | 5 => if s.ptType p = 2 then s.modOut p (fun o => { o with wants := true }) else s
  | 6 => (s.modOut p (fun o => { o with wants := false })).addCause p 4
  | 7 => (s.modOut p (fun o => { o with wants := false, v2g := false })).addCause p 4
  | 8 => (s.modOut p (fun o => { o with wants := false, paused := true })).addCause p 4
  | 9 => s.addCause p 4
  | 10 => s.modOut p (fun o => { o with tgtV := m.tgtV % 65536, tgtI := m.tgtI % 65536 })
  | _ => s

/-- Whether the SECC of a port serves: an outlet with PT_OUT_HLC 1, its link up, the service pair running (R305). -/
def State.seccServes (s : State) (p : Nat) : Bool :=
  s.isOutlet p && s.pn PT_OUT_HLC p == 1 && (s.plcPort p).link && s.fw.svcRunning && !(s.pt p).outService

/-- The SECC's answer to a message: the present voltage and current of slots 0 and 4 on DC, the request to stop, shutdown, and the one
schedule, from I_a or on DC from the host's limit (R305, R306, R308, Table 12.6). -/
def State.seccAnswer (s : State) (p : Nat) : State :=
  let dc := s.ptType p == 2
  let v (r : Nat) : Int := if dc then (s.pt p).el.oneRms.getD r 0 else 0
  let limit := if dc then (s.outOf p).dcMaxI else s.available p
  s.modOut p (fun o => { o with
    seccV := v 0, seccI := v 4, seccStop := o.asksStop, seccShut := dc && o.dcShutdown, seccLimit := limit })

/-- V2G_MESSAGE_RECEIVED (R306). A cause of STOPPING or TRANSFERRING is noted in those states alone. -/
def execV2gMessageReceived (t p : Nat) (m : V2gMsg) (s : State) : Host.Outcome State Fault Refusal :=
  let s := s.at t
  if p < 16 ∧ s.seccServes p = true then
    .next (((s.v2gEffect p m).modOut p (fun o => { o with protoState := m.state % 256 })).seccAnswer p)
  else .next s

/-- V2G_SESSION_TIMEOUT (R307): a protocol timeout other than an agreed pause. -/
def execV2gSessionTimeout (t p : Nat) (s : State) : Host.Outcome State Fault Refusal :=
  let s := s.at t
  let o := s.outOf p
  if p < 16 ∧ o.v2g = true ∧ o.paused = false then
    let s := s.modOut p (fun o => { o with v2g := false, wants := false })
    .next (if (s.sesOf p).state = .transferring then s.addCause p 11 else s)
  else .next s

/-- PLC_LOSS_TIMEOUT (R307): the link has been down for PT_PLC_LOSS while the service pair ran. -/
def execPlcLossTimeout (t p : Nat) (s : State) : Host.Outcome State Fault Refusal :=
  let s := s.at t
  let o := s.outOf p
  if p < 16 ∧ ripeAt o.lossDue t = true ∧ (s.plcPort p).link = false ∧ s.fw.svcRunning = true then
    let s := s.modOut p (fun o => { o with lossDue := none })
    .next (if (s.sesOf p).state = .transferring ∧ s.pn PT_OUT_HLC p = 1 ∧ o.protocol ≠ 0 then s.addCause p 11 else s)
  else .next s

/-- DC_STATUS_TIMEOUT (R308): the SECC reports shutdown. -/
def execDcStatusTimeout (t p : Nat) (s : State) : Host.Outcome State Fault Refusal :=
  let s := s.at t
  if ripeAt (s.outOf p).dcDue t = true then .next (s.modOut p (fun o => { o with dcDue := none, dcShutdown := true }))
  else .next s

/-! ### SLAC (R310) -/

/-- A port that answers CM_SLAC_PARM.REQ: pilot accepted in B, C or D at 5 %, and no matched link. -/
def State.slacEligible (s : State) (q : Nat) : Bool :=
  let o := s.outOf q
  q < 16 && s.isOutlet q && s.pn PT_OUT_HLC q == 1 && o.duty == 100 && (o.code == 1 || o.code == 2 || o.code == 3) &&
    !(s.plcPort q).link

/-- CM_SLAC_PARM_REQ (R310). -/
def execCmSlacParmReq (t run : Nat) (heard : List Nat) (s : State) : Host.Outcome State Fault Refusal :=
  let s := s.at t
  if s.fw.svcRunning then
    .next (heard.foldl (fun s q =>
      if s.slacEligible q then
        s.modOut q (fun o => { o with slacPending := if o.slacPending.contains run then o.slacPending else o.slacPending ++ [run] })
      else s) s)
  else .next s

/-- A mean attenuation as a fraction: the sum over soundings and tone groups, and how many there are. -/
def meanAtten (l : List Nat) : Nat × Nat := (l.sum, l.length)

/-- `a + m` is at most `b`, both means of attenuations, `m` in dB. -/
def attenLe (a b : Nat × Nat) (m : Nat) : Bool := decide ((a.1 + m * a.2) * b.2 ≤ b.1 * a.2)

/-- The port with the least mean attenuation, the first of equals. -/
def leastAtten : List (Nat × Nat × Nat) → Option (Nat × Nat × Nat)
  | [] => none
  | x :: xs =>
    match leastAtten xs with
    | some y => if attenLe x.2 y.2 0 then some x else some y
    | none => some x

/-- SLAC_RUN_JUDGED (R310): the mean attenuation of the run on each eligible port, and the match; at most one port answers; with none, each eligible port counts the attempt. -/
def execSlacRunJudged (t run : Nat) (atten : List (Nat × List Nat)) (mac : Bytes) (s : State) : Host.Outcome State Fault Refusal :=
  let s := s.at t
  let l := (atten.filter (fun x => !x.2.isEmpty && s.slacEligible x.1 && (s.outOf x.1).slacPending.contains run)).map
    (fun x => (x.1, meanAtten x.2))
  let waiting := points16.filter (fun q => s.slacEligible q && (s.outOf q).slacPending.contains run)
  let done (s : State) : State :=
    points16.foldl (fun s q => s.modOut q (fun o => { o with slacPending := o.slacPending.filter (· != run) })) s
  let failed (s : State) : State :=
    waiting.foldl (fun s q => s.modOut q (fun o => { o with slacFails := inc32 o.slacFails })) (done s)
  match leastAtten l with
  | some (p, a) =>
    if attenLe a (s.pn PT_SLAC_ATTEN_MAX p, 1) 0 = true ∧ l.all (fun x => x.1 == p || attenLe a x.2 (s.pn PT_SLAC_MARGIN p)) = true then
      .next ((done s).modOut p (fun o => { o with
        slacMatched := some run, atten := some (divFree (a.1 : Int) a.2).toNat, mac := padTo 6 mac }))
    else .next (failed s)
  | none => .next (failed s)

/-! ### Welded contact (R314, R315) -/

/-- The contactor has been commanded off and is off. -/
def State.contactorOff (s : State) (p : Nat) : Bool := (s.outOf p).offAt.isSome && !(s.swch (s.contactor p)).on

/-- A voltage above PT_WELD_THRESH. -/
def State.aboveWeld (s : State) (p : Nat) (v : Int) : Bool := (s.pn PT_WELD_THRESH p : Int) * 2 ^ 47 < v * 10

/-- The condition of R314: the source, 0 voltage or 1 mirror, and the slot. -/
def State.weldCondition (s : State) (p : Nat) : Option (Nat × Nat) :=
  let o := s.outOf p
  let wait := s.pn PT_WELD_DELAY p * 1000000
  let past (d : Option Nat) : Bool := ripeAt (d.map (· + wait)) s.clk.up
  let v (r : Nat) := (s.pt p).el.oneRms.getD r 0
  if !s.isOutlet p || !s.contactorOff p || !past o.offAt then none
  else
    let volts := if s.ptType p = 1 then (voltSlots (s.pn PT_WIRING p)).filter (fun r => s.aboveWeld p (v r))
      else if (s.pn PT_OPT_ROLES p).testBit 1 && past o.abAt && s.aboveWeld p (v 1) then [1] else []
    match volts with
    | r :: _ => some (0, r)
    | [] => if s.pb PT_WELD_MIRROR p && !(s.saf.lands.testBit (2 * (2 * p + 1))) then some (1, 0xFF) else none

/-- WELDED_CONTACT (Table 12.12). -/
def State.weldEvent (s : State) (p edge : Nat) : State :=
  let o := s.outOf p
  let v := if o.weldMirror then 0 else ((s.pt p).el.oneRms.getD o.weldSlot 0).toNat * 100 / 2 ^ 47
  s.raise 32 p ([byteOf p, byteOf (b2n o.weldMirror), byteOf o.weldSlot, byteOf edge, byteOf (b2n o.backup), 0, 0, 0] ++
    le 8 o.offFrame ++ le 8 s.frm ++ le 4 (min v (2 ^ 32 - 1)))

/-- The point's other switch channel. -/
def State.otherSwitch (s : State) (p : Nat) : Nat := 2 * p + (1 - s.pn PT_OUT_CONTACTOR p)

/-- WELDED_CONTACT_DECLARED (R314, R315). -/
def execWeldedContactDeclared (t p : Nat) (s : State) : Host.Outcome State Fault Refusal :=
  let s := s.at t
  match s.weldCondition p with
  | some (src, slot) =>
    if p < 16 ∧ (s.outOf p).weld = false ∧ s.pwr.capoOn = true then
      let back := s.pb PT_WELD_BACKUP p
      let s := s.modOut p (fun o => { o with
        weld := true, weldMirror := src == 1, weldSlot := slot, weldGone := none, backup := o.backup || back })
      let s := if back then s.hold4 (64 + p) (s.otherSwitch p) else s
      .next ((s.weldEvent p 0).addCause p 17)
    else .next s
  | none => .next s

/-- At a frame's end the Capo notes since when a declared weld's condition has been absent (R315). -/
def State.noteWeld (s : State) (p : Nat) : State :=
  if (s.outOf p).weld then
    let here := (s.weldCondition p).isSome
    s.modOut p (fun o => { o with weldGone := if here then none else if o.weldGone.isSome then o.weldGone else some s.clk.up })
  else s

/-- WELD_CLEARED (R315): absent for 1 s. The backup hold stays. -/
def execWeldCleared (t p : Nat) (s : State) : Host.Outcome State Fault Refusal :=
  let s := s.at t
  if p < 16 ∧ (s.outOf p).weld = true ∧ ripeAt ((s.outOf p).weldGone.map (· + 1000000000)) t = true then
    .next ((s.weldEvent p 1).modOut p (fun o => { o with weld := false, weldGone := none }))
  else .next s

/-! ### Host commands -/

/-- A command for an outlet point. (log 27) -/
def onOutlet (k : Nat → State → Ans) (p : Bytes) (s : State) : Ans :=
  if 16 ≤ fld p 0 1 then refuse s 5 else if s.isOutlet (fld p 0 1) then k (fld p 0 1) s else refuse s 5

/-- outlet-limit (R297): from the next frame. -/
def serveOutletLimit (p : Bytes) (s : State) : Ans :=
  if p.length ≠ 3 then refuse s 2
  else onOutlet (fun q s => okS (s.modOut q (fun o => { o with limitNext := some (fld p 1 2) }))) p s

/-- OUTLET_LIMIT. -/
def execOutletLimit (h : Hdr) (p : Bytes) (s : State) : Host.Outcome State Fault Refusal := hostCmd 0x0312 h p serveOutletLimit s

/-- outlet-dc-status (R308). -/
def serveOutletDcStatus (p : Bytes) (s : State) : Ans :=
  if p.length ≠ 11 then refuse s 2
  else onOutlet (fun q s =>
    if s.ptType q ≠ 2 then refuse s 5
    else
      let o := s.outOf q
      okB (s.modOut q (fun o => { o with
        dcMaxV := fld p 1 2, dcMaxI := fld p 3 2, dcMaxP := fld p 5 4, dcIso := fld p 9 1, dcStage := fld p 10 1
        dcDue := some (s.clk.up + 250000000), dcShutdown := false }))
        (le 2 o.tgtV ++ le 2 o.tgtI ++ [byteOf o.protoState])) p s

/-- OUTLET_DC_STATUS. -/
def execOutletDcStatus (h : Hdr) (p : Bytes) (s : State) : Host.Outcome State Fault Refusal :=
  hostCmd 0x0313 h p serveOutletDcStatus s

/-- What the log says of a root slot (Table 15.15, kind 7). -/
def rootBytes (slot flag : Nat) (cert : Option Bytes) : Bytes :=
  [byteOf slot, byteOf flag, 0, 0] ++ (match cert with | some c => (sha256 c).take 12 | none => zeros 12)

/-- outlet-root-store (R309): each load or clear is entered in the legal event log. -/
def serveRootStore (h : Hdr) (p : Bytes) (s : State) : Ans :=
  let slot := fld p 0 1
  let clear := fld p 1 1
  let n := fld p 2 2
  if p.length < 4 ∨ p.length ≠ 4 + n then refuse s 2
  else if 8 ≤ slot then refuse s 5
  else if 2 ≤ clear ∨ (clear = 0 ∧ (n = 0 ∨ 1024 < n)) ∨ (clear = 1 ∧ n ≠ 0) then refuse s 6
  else
    let old := s.keys.roots.getD slot none
    let new := if clear = 1 then none else some (p.drop 4)
    withLog 1 (fun s => okS ((s.enterHost h 7 0 0 (rootBytes slot (b2n old.isSome) old) (rootBytes slot clear new)
      (s.frm + 1)).modKeys (fun k => { k with roots := put k.roots slot new }))) s

/-- OUTLET_ROOT_STORE. -/
def execOutletRootStore (h : Hdr) (p : Bytes) (s : State) : Host.Outcome State Fault Refusal :=
  hostCmd 0x0314 h p (serveRootStore h) s

end Sys2Proof.Machine
end

