-- ==== Sys2Proof/Machine/TimeKeep.lean ====
section
/-!
DEFINITION. Node time (03): the servo and its sources, zero crossings, mains beacons (13 R330–R334), time-triggered
outputs and capture inputs, and the time commands of Table 20.6.
-/

namespace Sys2Proof.Machine

/-! ### Events and states -/

/-- Raise a time event (Table 19.11): 9 TIME_JUMP_REFUSED, 10 TIME_HOLDOVER, 11 TIME_LOCKED, 12 ZC_LOST. -/
def State.timeEvent (s : State) (ev : Nat) (old new : ServoState) (source port sender : Nat) (offset : Int)
    (gm : Nat) : State :=
  s.raiseRaw ev ([byteOf (servoCode old), byteOf (servoCode new), byteOf source, byteOf port] ++ le 2 sender ++ zeros 2 ++
    le 8 s.frm ++ leI 8 offset ++ (if source = 1 then be 8 gm else zeros 8))

/-- The runs of Table 3.4 begin afresh. -/
def Servo.clearRuns (v : Servo) : Servo := { v with inRun := 0, outRun := 0, jumpRun := 0, lapseRun := 0 }

/-- Enter HOLDOVER (R71, R81): e0 is the filtered offset, and the standard error of the frequency estimate, whose value
the spec does not give, a free value. (log 15) -/
def State.enterHoldover (s : State) : State :=
  let v := s.servo
  let s := s.modServo (fun v => { v.clearRuns with
    state := .holdover, e0 := v.offset, f0 := s.free, holdAt := s.clk.up, source := 0, port := 255, sender := 0, trim := 0 })
  (s.bump.timeEvent 10 v.state .holdover v.source v.port v.sender v.offset v.gm).queueFault 5
    (if v.source = 1 then Config.clockNode v.gm else 0xFFF) 0

/-- A source is lost (Table 3.4): LOCKED, MAINS, and ACQUIRING once the counter is loaded, hold over. -/
def State.loseSource (s : State) (source : Nat) : State :=
  if s.servo.source ≠ source then s
  else
    match s.servo.state with
    | .locked => s.enterHoldover
    | .mains => s.enterHoldover
    | .acquiring => if s.clk.loaded then s.enterHoldover else s
    | _ => s

/-- Raise TIME_LOCKED and enter LOCKED or MAINS on the source named. -/
def State.enterLocked (s : State) (new : ServoState) (source port sender : Nat) (offset : Int) (gm : Nat) : State :=
  let old := s.servo.state
  (s.modServo (fun v => { v.clearRuns with
    state := new, source := source, port := port, sender := sender, gm := gm, offset := offset,
    mainsHops := if new = .locked then 0 else v.mainsHops
    everLocked := v.everLocked || new == .locked })).timeEvent 11 old new source port sender offset gm

/-- Follow a source from FREE (Table 3.4). -/
def State.acquire (s : State) (source port sender gm : Nat) : State :=
  s.modServo (fun v => { v.clearRuns with
    state := .acquiring, source := source, port := port, sender := sender, gm := gm, recent := [] })

/-! ### Measured offsets -/

/-- Largest less smallest of a list. (log 15) -/
def spreadOf : List Int → Int
  | [] => 0
  | x :: xs => xs.foldl max x - xs.foldl min x

/-- 8 consecutive offsets that agree within 1 µs make the load due at the next interval boundary (R72). (log 15) -/
def State.gather (s : State) (off : Int) : State :=
  let r := (off :: s.servo.recent).take 8
  s.modServo (fun v => { v with
    recent := r, offset := Config.filterOffset v.offset off, loadReady := decide (r.length = 8 ∧ spreadOf r ≤ 1000) })

/-- What is to be removed from local time for an offset measured from a source: a beacon's offset has the other sign
(R76). (log 15) -/
def localOffset (source : Nat) (off : Int) : Int := if source = 2 then -off else off

/-- What a load or an accepted correction still has to remove from local time (R77). -/
def Servo.accepted (v : Servo) : Int := v.slew + (match v.step with | some x => x.1 | none => 0)

/-- A measured offset is corrected by slewing (R64, R71, R72): what it leaves beyond the correction that is being slewed, and the frequency
within ±200 ppm. (log 15) -/
def State.correct (s : State) (source : Nat) (off : Int) : State :=
  s.modServo (fun v => { v with
    trim := localOffset source off - v.accepted
    freq := max (-200000) (min 200000 (Config.steer v.freq (localOffset source off))) })

/-- The correction is refused after 4 offsets beyond ND_JUMP_THRESH from one source (R77). (log 15) -/
def State.refuseJump (s : State) (off : Int) (source port sender gm : Nat) : State :=
  let old := s.servo.state
  let s := s.modServo (fun v => { v with refused := some ⟨off, source, sender, gm⟩, lapseRun := 0 })
  let s := if old = .holdover then s else s.enterHoldover
  (s.timeEvent 9 old .holdover source port sender off gm).queueFault 4 (if source = 1 then Config.clockNode gm else 0xFFF) 0

/-- The runs of Table 3.4 and R77 count the offsets of one source, a grandmaster or a beacon sender: those of another begin
afresh. -/
def State.runsOf (s : State) (source sender gm : Nat) : State :=
  let k := if source = 1 then 2 ^ 64 + gm else sender
  if s.servo.runKey = k then s else s.modServo (fun v => { v.clearRuns with runKey := k })

/-- The refusal in force is one of this source. -/
def Servo.refusedOf (v : Servo) (source sender gm : Nat) : Bool :=
  match v.refused with
  | some r => r.source == source && r.sender == sender && r.gm == gm
  | none => false

/-- A measured offset tested against ND_JUMP_THRESH (R77). The Bool says whether the servo goes on with the offset. A refusal
concerns its own source alone. (log 15) -/
def State.jumpTest (s : State) (off : Int) (source port sender gm : Nat) : Bool × State :=
  let s := s.runsOf source sender gm
  let v := s.servo
  let tested := if v.state = .acquiring then localOffset source off - v.accepted else off
  if (s.pn ND_JUMP_THRESH) < tested.natAbs then
    let s := s.modServo (fun v => { v with jumpRun := v.jumpRun + 1, lapseRun := 0, inRun := 0 })
    if s.servo.jumpRun = 4 ∧ v.refusedOf source sender gm = false then (false, s.refuseJump off source port sender gm)
    else (false, s)
  else
    let s := s.modServo (fun v => { v with jumpRun := 0 })
    if v.refusedOf source sender gm = false then (true, s)
    else if v.lapseRun + 1 < 8 then (false, s.modServo (fun v => { v with lapseRun := v.lapseRun + 1 }))
    else (false, s.modServo (fun v => { v with lapseRun := 0, refused := none }))

/-- A Sync's offset acts on the servo (R72, R77, Table 3.4). -/
def State.ptpOffset (s : State) (off : Int) : State :=
  let v := s.servo
  let m := v.master
  let port := match m with | some x => x.port | none => 255
  let gm := match m with | some x => x.gm | none => 0
  if v.state = .free then s
  else if !s.clk.loaded then (if v.source = 1 then s.gather off else s)
  else
    let r := s.jumpTest off 1 port 0 gm
    if !r.1 then r.2
    else
      let lock := s.pn ND_LOCK_THRESH
      let s := (r.2.correct 1 off).modServo (fun v => { v with
        offset := if v.source = 1 then Config.filterOffset v.offset off else v.offset
        inRun := if off.natAbs ≤ lock then v.inRun + 1 else 0 })
      match v.state with
      | .locked =>
        let s := s.modServo (fun v => { v with outRun := if lock < v.offset.natAbs then v.outRun + 1 else 0 })
        if 16 ≤ s.servo.outRun then s.modServo (fun v => { v.clearRuns with state := .acquiring }) else s
      | .acquiring => if v.source = 1 ∧ 16 ≤ s.servo.inRun then s.enterLocked .locked 1 port 0 off gm else s
      | _ => if 16 ≤ s.servo.inRun then s.enterLocked .locked 1 port 0 off gm else s

/-! ### PTP messages -/

/-- PTP runs on a port: the Capo has its parameters, and ND_PTP_PORTS names the port. -/
def State.ptpOn (s : State) (port : Nat) : Bool := 3 ≤ s.pwr.stage && (s.pn ND_PTP_PORTS).testBit port && port < 3

/-- A discarded message is counted for its port (R67). -/
def State.ptpDiscard (s : State) (port : Nat) : State := s.modServo (fun v => { v with discards := upd v.discards port inc32 })

/-- The timestamp of an event at a port, in units of 0.2 ns: the resolution is 0.8 ns on LKA and LKB and 8 ns on HETH (R68).
(log 15) -/
def State.portStamp (s : State) (port : Nat) : Int :=
  let x := s.clk.frame * 250000 * 2 ^ 32 + s.fineTime s.clk.up
  if port = 2 then 40 * (x / (8 * 2 ^ 32) : Nat) else 4 * (x * 5 / (4 * 2 ^ 32) : Nat)

/-- A message sent, answered or forwarded (R68, R69). -/
def State.noteTx (s : State) (m : PtpTx) : State := s.modServo (fun v => { v with txMsgs := (m :: v.txMsgs).take 16 })

/-- A message of the node's own leaving a port now, over the transport of ND_PTP_TRANSPORT (R67–R69): `origin` and `corr` as the frame
carries them. (log 15) -/
def State.sendPtp (s : State) (kind port seq : Nat) (origin corr : Int) : State :=
  s.noteTx { kind := kind, port := port, seq := seq, udp := s.pn ND_PTP_TRANSPORT == 1, stamp := s.portStamp port, origin := origin, corr := corr }

/-- The timestamp of an own message, units of 0.2 ns. -/
def State.txStamp (s : State) (kind port seq : Nat) : Option Int :=
  (s.servo.txMsgs.find? (fun x => x.kind == kind && x.port == port && x.seq == seq)).map (·.stamp)

/-- The path or link delay of a port, units of 0.2 ns. (log 15) -/
def State.delayOf (s : State) (port : Nat) : Int := s.servo.linkDelay.getD port 0

/-- The other port of the ring, where the transparent clock forwards. -/
def otherPort (port : Nat) : Nat := 1 - port

/-- The transparent clock between LKA and LKB passes an event message on with its residence time in the correctionField, and with the
ingress link delay in peer-to-peer operation (R67, R69). The residence time is a free value; a boundary clock passes none on. (log 15) -/
def State.forwardPtp (s : State) (kind port seq : Nat) (stamp corr : Int) : State :=
  if 2 ≤ port ∨ s.pn ND_PTP_ROLE = 2 then s
  else
    (s.sendPtp kind (otherPort port) seq (5 * stamp)
      (5 * corr + s.free + (if s.pn ND_PTP_DELAY = 1 then s.delayOf port else 0))).bump

/-- The asymmetry of a port (R68). -/
def State.asymmetry (s : State) (port : Nat) : Int := s.pv (ND_PTP_ASYM_LKA + port)

/-- The sync interval in ns. -/
def State.syncNs (s : State) : Nat := logNs (s.pv ND_PTP_LOG_SYNC)

/-- PTP_SYNC_RECEIVED (R67–R69, R72, R77): a Sync is passed on by the transparent clock, and one of the selected master gives an
offset. -/
def execPtpSyncReceived (t : Nat) (m : PtpMsg) (s : State) : Host.Outcome State Fault Refusal :=
  let s := s.at t
  if !s.ptpOn m.port then .next s
  else if !m.supported ∨ m.domain ≠ s.pn ND_PTP_DOMAIN then .next (s.ptpDiscard m.port)
  else
    let s := s.forwardPtp 21 m.port m.seq m.stamp m.corr
    match s.servo.master with
    | some x =>
      if x.port = m.port ∧ x.sender = m.sender then
        let t1 := 5 * (m.stamp + m.corr)
        let t2 := s.portStamp m.port
        let s := s.modServo (fun v => { v with lastT1 := t1, lastT2 := t2, syncDue := some (t + 4 * s.syncNs) })
        .next (s.ptpOffset (divFree (t2 - t1 - s.delayOf m.port) 5 - s.asymmetry m.port))
      else .next s
    | none => .next s

/-- What the default best-master algorithm compares, most significant first (R67). -/
def masterKey (x : PtpMaster) : List Nat := [x.prio1, x.cls, x.acc, x.var, x.prio2, x.gm, x.steps, x.sender]

/-- Lexicographic order. -/
def lexLess : List Nat → List Nat → Bool
  | a :: as, b :: bs => a < b || (a == b && lexLess as bs)
  | _, _ => false

/-- The clockClass the node advertises (R67). The rule gives it for a node that has never been locked and in HOLDOVER; in every other
state after a lock it is 7: DESIGN CHOICE. (log 55) -/
def State.ownClass (s : State) : Nat :=
  if !s.servo.everLocked then 248
  else if s.servo.state = .holdover ∧ s.pv ND_HOLDOVER_MAX_ERR < s.holdError then 52
  else 7

/-- The node's own data set (R67); values the spec does not give stand free in Config. (log 15) -/
def State.ownMaster (s : State) : PtpMaster :=
  { PtpMaster.reset with
    prio1 := s.pn ND_PTP_PRIO1, cls := s.ownClass, acc := if s.servo.state = .locked then 0x21 else 0xFE,
    var := Config.clockVariance, prio2 := s.pn ND_PTP_PRIO2, gm := Config.clockIdentity, steps := 0,
    port := 255, sender := Config.clockIdentity }

/-- The master's UTC offset (R80): the first valid one serves at once; a change that no leap flag announces waits for a
period boundary. (log 15) -/
def State.takeUtc (s : State) (a : Announce) : State :=
  let v := s.servo
  let leap := if a.leap61 then some (v.utc + 1) else if a.leap59 then some (v.utc - 1) else none
  if !a.utcValid then s
  else if !v.utcValid then s.modServo (fun v => { v with utc := a.utc, utcValid := true, utcNew := none })
  else if a.utc = v.utc then s.modServo (fun v => { v with leap := leap, utcNew := none })
  else if v.leap = some a.utc then s
  else s.modServo (fun v => { v with utcNew := some a.utc })

/-- The data set of an announced master. -/
def masterOf (a : Announce) : PtpMaster := ⟨a.gm, a.prio1, a.cls, a.acc, a.var, a.prio2, a.steps, a.port, a.sender⟩

/-- The best of the masters heard (R67): all of them, or, where the node may serve itself, those better than it. -/
def State.bestHeard (s : State) : Option Announce :=
  let ok (a : Announce) : Bool := s.pn ND_PTP_ROLE = 0 || lexLess (masterKey (masterOf a)) (masterKey s.ownMaster)
  (s.servo.foreign.filter (fun x => ok x.1)).foldl (fun b x => match b with
    | some y => if lexLess (masterKey (masterOf x.1)) (masterKey (masterOf y)) then some x.1 else some y
    | none => some x.1) none

/-- The announce receipt timeout from now (R71). -/
def State.announceDue (s : State) : Nat := s.clk.up + s.pn ND_PTP_ANNOUNCE_TIMEOUT * logNs (s.pv ND_PTP_LOG_ANNOUNCE)

/-- The announced master is selected: its data, the hop count and the receipt timeout (R67, R71). (log 15) -/
def State.selectMaster (s : State) (a : Announce) : State :=
  let m := masterOf a
  let s := s.modServo (fun v => { v with
    master := some m, ptpHops := m.steps + 1
    gm := if v.source = 1 then m.gm else v.gm, port := if v.source = 1 then m.port else v.port
    annDue := (v.foreign.find? (fun x => x.1.sender == a.sender && x.1.port == a.port)).map (·.2) })
  let s := s.takeUtc a
  if s.servo.state = .free ∨ (s.servo.state = .acquiring ∧ s.servo.source ≠ 1) then s.acquire 1 m.port 0 m.gm
  else s

/-- PTP_ANNOUNCE_RECEIVED (R67, R71, R80): the best of the masters heard is the selected one. -/
def execPtpAnnounceReceived (t : Nat) (a : Announce) (s : State) : Host.Outcome State Fault Refusal :=
  let s := s.at t
  if !s.ptpOn a.port ∨ !(s.pn ND_TIME_SOURCES).testBit 0 then .next s
  else if !a.supported ∨ a.domain ≠ s.pn ND_PTP_DOMAIN ∨ !a.ptpTimescale then .next (s.ptpDiscard a.port)
  else
    let s := s.modServo (fun v => { v with
      foreign := v.foreign.filter (fun x => decide (s.clk.up < x.2) && !(x.1.sender == a.sender && x.1.port == a.port)) ++
        [(a, s.announceDue)] })
    match s.bestHeard with
    | some b => .next (s.selectMaster b)
    | none => .next (if s.servo.master.isNone then s
        else (s.modServo (fun v => { v with master := none, annDue := none, syncDue := none })).loseSource 1)

/-- A delay request is answered (R67–R69): the response carries the time of receipt; a Pdelay_Resp adds the time until it leaves, a free
value, to the correctionField in one-step operation, or its departure follows in a Pdelay_Resp_Follow_Up. -/
def State.answerDelay (s : State) (m : PtpMsg) : State :=
  let t2 := s.portStamp m.port
  if m.kind = 0 then (s.forwardPtp 22 m.port m.seq m.stamp m.corr).sendPtp 10 m.port m.seq t2 (5 * m.corr)
  else if s.pn ND_PTP_STEP = 1 then (s.sendPtp 12 m.port m.seq t2 (5 * m.corr + s.free)).bump
  else ((s.sendPtp 12 m.port m.seq t2 0).sendPtp 13 m.port m.seq (t2 + s.free) (5 * m.corr)).bump

/-- PTP_DELAY_MESSAGE_RECEIVED (R67–R69): a request is timestamped and answered, a response gives the path or link delay of its port.
The mechanism that is not configured is discarded. -/
def execPtpDelayMessageReceived (t : Nat) (m : PtpMsg) (s : State) : Host.Outcome State Fault Refusal :=
  let s := s.at t
  if !s.ptpOn m.port then .next s
  else if !m.supported ∨ m.domain ≠ s.pn ND_PTP_DOMAIN ∨ 4 ≤ m.kind ∨ m.kind / 2 ≠ s.pn ND_PTP_DELAY then
    .next (s.ptpDiscard m.port)
  else if m.kind % 2 = 0 then .next (s.answerDelay m)
  else
    match s.txStamp 2 m.port m.seq with
    | none => .next s
    | some t0 =>
      let v := s.servo
      let d := if m.kind = 1 then v.lastT2 - v.lastT1 + (5 * (m.stamp - m.corr) - t0)
        else s.portStamp m.port - t0 - 5 * (m.stamp2 - m.stamp + m.corr)
      .next (s.modServo (fun v => { v with linkDelay := put v.linkDelay m.port (divFree d 2) }))

/-- PTP_MANAGEMENT_RECEIVED (R67): GET is answered, SET and COMMAND are discarded. -/
def execPtpManagementReceived (t : Nat) (m : PtpMsg) (s : State) : Host.Outcome State Fault Refusal :=
  let s := s.at t
  if !s.ptpOn m.port then .next s
  else if m.kind = 0 ∧ m.supported = true ∧ m.domain = s.pn ND_PTP_DOMAIN then .next (s.sendPtp 20 m.port m.seq 0 0)
  else .next (s.ptpDiscard m.port)

/-- The interval of a message kind: Announce, Sync, delay request. -/
def State.txNs (s : State) (kind : Nat) : Nat :=
  logNs (s.pv (if kind = 0 then ND_PTP_LOG_ANNOUNCE else if kind = 1 then ND_PTP_LOG_SYNC else ND_PTP_LOG_PDELAY))

/-- Whether the node sends a kind on a port: Announce and Sync as master, a delay request as slave, and a peer-delay
request on every port (R67). -/
def State.txWanted (s : State) (port kind : Nat) : Bool :=
  let slave := match s.servo.master with | some m => m.port == port | none => false
  if kind = 2 then s.pn ND_PTP_DELAY = 1 || slave
  else match s.servo.master with
    | none => s.pn ND_PTP_ROLE != 0
    | some _ => s.pn ND_PTP_ROLE == 2 && !slave

/-- PTP_MESSAGE_TRANSMIT (R67–R69): a Sync carries its own timestamp in one-step operation; in two-step operation a Follow_Up does. -/
def execPtpMessageTransmit (t port kind : Nat) (s : State) : Host.Outcome State Fault Refusal :=
  let s := s.at t
  let i := 3 * port + kind
  let due := s.servo.txDue.getD i none
  if s.ptpOn port && kind < 3 && s.txWanted port kind && (due.isNone || ripeAt due t) then
    let s := s.modServo (fun v => { v with seqId := wrapInc 16 v.seqId, txDue := put v.txDue i (some (t + s.txNs kind)) })
    let now := s.portStamp port
    .next (if kind = 1 ∧ s.pn ND_PTP_STEP = 0 then (s.sendPtp 1 port s.servo.seqId 0 0).sendPtp 3 port s.servo.seqId now 0
      else s.sendPtp kind port s.servo.seqId (if kind = 1 then now else 0) 0)
  else .next s

/-- PTP_ANNOUNCE_TIMEOUT (R71): the selected master is lost, and the best of the others that still announce is selected (R67). -/
def execPtpAnnounceTimeout (t : Nat) (s : State) : Host.Outcome State Fault Refusal :=
  let s := s.at t
  if ripeAt s.servo.annDue t then
    let s := (s.modServo (fun v => { v with
      master := none, annDue := none, syncDue := none, foreign := v.foreign.filter (fun x => t < x.2) })).loseSource 1
    match s.bestHeard with
    | some b => .next (s.selectMaster b)
    | none => .next s
  else .next s

/-- PTP_SYNC_TIMEOUT (R71): no Sync for 4 sync intervals. -/
def execPtpSyncTimeout (t : Nat) (s : State) : Host.Outcome State Fault Refusal :=
  let s := s.at t
  if ripeAt s.servo.syncDue t then .next ((s.modServo (fun v => { v with syncDue := none })).loseSource 1)
  else .next s

/-- A port's entry of a bitmap. -/
def onPort (ports p : Nat) : Bool := ports.testBit p

/-- PTP starts from nothing on the ports of a bitmap; a servo that follows a master there holds over meanwhile (R88, 21 R492). -/
def State.freshPtp (s : State) (ports : Nat) : State :=
  let lost := match s.servo.master with | some x => onPort ports x.port | none => false
  let s := s.modServo (fun v => { v with
    restartDue := none, restartPorts := 0, foreign := v.foreign.filter (fun x => !onPort ports x.1.port)
    txMsgs := v.txMsgs.filter (fun x => !onPort ports x.port)
    txDue := v.txDue.mapIdx (fun i x => if onPort ports (i / 3) then none else x)
    linkDelay := v.linkDelay.mapIdx (fun i x => if onPort ports i then 0 else x) })
  if lost then (s.modServo (fun v => { v with master := none, annDue := none, syncDue := none })).loseSource 1 else s

/-- PTP_RESTART (R88). -/
def execPtpRestart (t : Nat) (s : State) : Host.Outcome State Fault Refusal :=
  let s := s.at t
  if s.servo.restartDue.isSome then .next (s.freshPtp s.servo.restartPorts) else .next s

/-! ### Loads and steps of the frame counter -/

/-- A frame number kept on the other side of a jump from `b` to `b'`, where it lies at or after `b`. -/
def moved (b b' n : Nat) : Nat := if b ≤ n then n + b' - b else n

/-- Node time jumps at a boundary from frame `b` to frame `b'` (R40, R42, R86): every frame number and node time that lies
ahead moves with it, and the short interval begins. (log 15) -/
def State.jumpTo (s : State) (b' : Nat) : State :=
  let b := s.frm
  let shift (x : Nat) : Nat := x + b' * 250000 - b * 250000
  let now := b' * 250000
  (((s.modClk (fun c => { c with frame := b', bdry := c.bdry.map (fun _ => b') })).modServo (fun v => { v with
    zcLast := v.zcLast.map shift, zcFound := v.zcFound.map shift
    grids := v.grids.map (fun g => { g with anchor := shift g.anchor })
    ttos := v.ttos.map (fun o =>
      if o.mode = 2 ∧ o.armed = true then
        { o with next := if now < o.start then o.start else o.start + ((now - o.start) / o.period + 1) * o.period }
      else if o.mode = 1 ∧ o.armed = true ∧ o.next < now then { o with late := true }
      else o) })).modEng (fun e => { e with
    change := e.change.map (fun c => (moved b b' c.1, c.2.1, c.2.2))
    diag := e.diag.map (fun d => { d with first := d.first + b' - b })
    testFrames := if b ≤ e.testFrames then e.testFrames + b' - b else 0 })).modPts (fun l => l.map (fun p =>
      { p with
        ses := { p.ses with
          sFrame := if p.ses.running && p.ses.startRegs.isNone then moved b b' p.ses.sFrame else p.ses.sFrame
          eFrame := p.ses.eFrame.map (moved b b') }
        el := { p.el with
          crossAt := p.el.crossAt.map shift, firstCross := p.el.firstCross.map shift, lastCross := p.el.lastCross.map shift }
        pq := { p.pq with
          winStart := if p.pq.winStart = 0 then 0 else shift p.pq.winStart
          events := p.pq.events.map (fun e => { e with start := e.start + b' - b }) }
        pulse := { p.pulse with hist := p.pulse.hist.map (fun u => (u.1 + b' - b, u.2)) }
        fl := { p.fl with
          exTrip := p.fl.exTrip.map (fun f => f + b' - b)
          roles := p.fl.roles.map (fun r => { r with
            recent := r.recent.map (fun u => (u.1 + b' - b, u.2)), seen := r.seen.map (fun u => (u.1 + b' - b, u.2)) }) } })) |>.modSlices (fun l =>
          l.map (fun x => { x with blankTo := x.blankTo.map (moved b b') })) |>.modFw (fun f => { f with
            hand := f.hand.map (fun h => (moved b b' h.1, h.2)) })

/-- The nearest frame start and what remains to be slewed (R42, R72). Half-way between two frame starts, which R42 does not settle, the
later one is taken: DESIGN CHOICE. (log 55) -/
def nearestFrame (b : Nat) (off : Int) : Nat × Int :=
  let tai : Int := b * 250000 - off
  let n := (2 * tai + 250000) / 500000
  (n.toNat, n * 250000 - tai)

/-- FRAME_COUNTER_LOAD (R40, R42, R72): at a local interval boundary once 8 offsets agree. -/
def execFrameCounterLoad (t : Nat) (s : State) : Host.Outcome State Fault Refusal :=
  let s := s.at t
  if !s.clk.loaded && s.servo.loadReady && s.frm % 4000 == 0 && s.servo.state == .acquiring then
    let off := localOffset s.servo.source (s.servo.recent.headD 0)
    let r := nearestFrame s.frm off
    .next (((s.jumpTo r.1).modClk (fun c => { c with loaded := true })).modServo (fun v => { v.clearRuns with
      loadReady := false, recent := [], slew := r.2, trim := 0, offset := localOffset v.source r.2 }))
  else .next s

/-- TIME_STEP_APPLY (R78, R79): at the first local interval boundary at least 1 ms after the command. -/
def execTimeStepApply (t : Nat) (s : State) : Host.Outcome State Fault Refusal :=
  let s := s.at t
  match s.servo.step with
  | some (off, due) =>
    if due ≤ s.clk.lastTick ∧ s.frm % 4000 = 0 then
      let r := nearestFrame s.frm off
      .next (((s.jumpTo r.1).modClk (fun c => { c with stepped := true })).modServo (fun v => { v with
        step := none, slew := r.2, trim := 0, offset := localOffset v.source r.2 }))
    else .next s
  | none => .next s

/-! ### Zero crossings -/

/-- Mean accepted period T in ns, whole ns below the exact mean, whose rounding R74 does not give: DESIGN CHOICE. (log 55) -/
def State.meanPeriod (s : State) : Nat :=
  if s.servo.zcPeriods.isEmpty then 20000000 else s.servo.zcPeriods.foldl (· + ·) 0 / s.servo.zcPeriods.length

/-- The prediction of the next crossing (R74). -/
def State.zcPredict (s : State) : Option Nat := s.servo.zcLast.map (· + s.meanPeriod)

/-- A rejected crossing, or one that did not come (R74, R75): the prediction takes its place; the 25th raises ZC_LOST. (log 15) -/
def State.zcReject (s : State) (pred : Nat) (err : Int) : State :=
  let n := s.servo.zcRejects + 1
  if 25 ≤ n then
    let v := s.servo
    let s := s.modServo (fun v => { v with zc := .lost, zcLast := none, zcPeriods := [], zcRejects := 0, zcErr := err })
    let lost := v.source = 2 ∧ (v.state = .mains ∨ (v.state = .acquiring ∧ s.clk.loaded = true))
    ((s.timeEvent 12 v.state (if lost then .holdover else v.state) 3 255 0 err 0).queueFault 9 (s.pn ND_NODE_ID) 0).loseSource 2
  else s.modServo (fun v => { v with zcLast := some pred, zcRejects := n, zcErr := err })

/-- Periods that agree within 1 % and lie between 16.4 ms and 22.3 ms (R75). (log 15) -/
def periodsAgree (l : List Nat) : Bool :=
  let hi := l.foldl max 0
  let lo := l.foldl min (l.headD 0)
  l.all (fun x => 16400000 ≤ x && x ≤ 22300000) && 100 * hi ≤ 101 * lo

/-- A crossing of ND_ZC_CHANNEL is judged (R74, R75): each crossing has one prediction, the one within half a period of it. A period
that begins at a prediction taken in a crossing's place counts as accepted: DESIGN CHOICE. (logs 15, 55) -/
def State.judgeCrossing (s : State) (x : Nat) : State :=
  match s.servo.zc, s.zcPredict with
  | .valid, some pred =>
    let err : Int := (x : Int) - pred
    if err.natAbs ≤ 200000 then
      s.modServo (fun v => { v with
        zcPeriods := ((x - v.zcLast.getD x) :: v.zcPeriods).take 8, zcLast := some x, zcRejects := 0 })
    else if 2 * (x : Int) < 2 * pred - s.meanPeriod then s
    else s.zcReject pred err
  | _, _ =>
    match s.servo.zcLast with
    | none => s.modServo (fun v => { v with zc := .lost, zcLast := some x, zcPeriods := [] })
    | some l =>
      let p := x - l
      let ps := p :: s.servo.zcPeriods
      let good := if periodsAgree ps then ps else if periodsAgree [p] then [p] else []
      s.modServo (fun v => { v with
        zc := if good.length = 8 then .valid else .lost, zcLast := some x, zcPeriods := good, zcRejects := 0 })

/-- ZERO_CROSSING (R73–R75): the crossing at `x`, where it is the oldest that the fundamental filter of ND_ZC_CHANNEL has shown and that
waits; the test window may move its timestamp (23 R537). (log 15) -/
def execZeroCrossing (t x : Nat) (s : State) : Host.Outcome State Fault Refusal :=
  let s := s.at t
  match s.servo.zcFound with
  | [] => .next s
  | x0 :: rest =>
    if x = x0 then .next ((s.modServo (fun v => { v with zcFound := rest })).judgeCrossing (((x : Int) + s.test.eff.zc).toNat))
    else .next s

/-- Node time from a crossing's content instant until the frame tick at which the filter has shown it, at most: 132.75 ms of delay in
the chains and filters, four frames between two samples, and the frame that processes the sample (05 R124, R73). (log 55) -/
def crossingLag : Nat := 134000000

/-- ZC_PREDICTION_TIMEOUT (R74): no crossing within 200 µs after its prediction, once the filter would have shown it. (log 55) -/
def execZcPredictionTimeout (t : Nat) (s : State) : Host.Outcome State Fault Refusal :=
  let s := s.at t
  match s.servo.zc, s.zcPredict with
  | .valid, some pred =>
    if 3 ≤ s.pwr.stage ∧ s.servo.zcFound = [] ∧ pred + 200000 + crossingLag < s.nodeNow then .next (s.zcReject pred s.servo.zcErr)
    else .next s
  | _, _ => .next s

/-! ### Mains beacons -/

/-- The node has a valid zero-crossing reference (R75, R333). -/
def State.zcValid (s : State) : Bool := s.servo.zc == .valid && s.pn ND_ZC_CHANNEL != 255

/-- The node's own crossing nearest an instant, by its last used crossing and mean period. -/
def State.nearCrossing (s : State) (x : Int) : Int :=
  let z : Int := s.servo.zcLast.getD 0
  let T : Int := s.meanPeriod
  z + (2 * (x - z) + T) / (2 * T) * T

/-- The node's own crossing that stands for a sender's at `x`, of the one `o` nearest to it: Δ lies from −T/6 to 5T/6 (13 R334). -/
def ownCrossing (o x T : Int) : Int := if 6 * (o - x) + T < 0 then o + T else o

/-- The class of Δ (Table 13.5). -/
def phaseClass (d T : Int) : Nat :=
  let r := (6 * d + T) % (6 * T)
  if r < 2 * T then 1 else if r < 4 * T then 2 else 3

/-- The phase correction of a class (Table 13.5). -/
def phaseCorrection (cls : Nat) (T : Int) : Int :=
  if cls = 2 then divFree T 3 else if cls = 3 then divFree (2 * T) 3 else 0

/-- Raise PLC_LINK_CHANGE (Table 13.8): the change count stands at 24 and the lost symbols at 28. -/
def State.linkDetail (s : State) (port : Nat) (d : Bytes) : State := s.raiseMid 33 port d (le 4 (s.plcPort port).lost)

/-- Raise PLC_LINK_CHANGE (Table 13.8) for a mains neighbour. -/
def State.neighbourEvent (s : State) (port kind edge cause node cls : Nat) : State :=
  s.linkDetail port ([byteOf port, byteOf kind, byteOf edge, byteOf cause] ++ le 2 node ++ zeros 4 ++
    [byteOf cls, 0, 0xFF] ++ zeros 3 ++ le 8 s.frm)

/-- The record kept of a beacon sender. -/
def State.neighbour (s : State) (node : Nat) : Option Neighbour := s.servo.neighbours.find? (fun x => x.node == node)

/-- A neighbour record put in place. -/
def State.putNeighbour (s : State) (n : Neighbour) : State :=
  s.modServo (fun v => { v with
    neighbours := if v.neighbours.any (fun x => x.node == n.node) then
        v.neighbours.map (fun x => if x.node = n.node then n else x)
      else v.neighbours ++ [n] })

/-- A mains offset acts on the servo (R76, R77, Table 3.4). (log 15) -/
def State.mainsOffset (s : State) (b : Beacon) (off : Int) : State :=
  let v := s.servo
  let port := b.port - 13
  if v.state = .free ∨ (!s.clk.loaded ∧ v.source ≠ 2) then s.acquire 2 port b.node 0
  else if !s.clk.loaded then s.gather off
  else
    let r := s.jumpTest off 2 port b.node 0
    if !r.1 then r.2
    else
      let lim := if v.state = .acquiring then 2000 + b.bound else s.pn ND_JUMP_THRESH
      let s := (if v.source = 1 then r.2 else r.2.correct 2 off).modServo (fun v => { v with
        offset := if v.source = 2 then Config.filterOffset v.offset off else v.offset
        inRun := if off.natAbs ≤ lim then v.inRun + 1 else 0
        bound := b.bound + 2000, mainsHops := b.hops + 1 })
      match v.state with
      | .mains => s.modServo (fun v => { v with sender := b.node, port := port })
      | .locked => s
      | .acquiring =>
        if v.source = 2 ∧ 8 ≤ s.servo.inRun then s.enterLocked .mains 2 port b.node off 0 else s
      | _ => if 8 ≤ s.servo.inRun ∧ v.master.isNone then s.enterLocked .mains 2 port b.node off 0 else s

/-- Whether a sender of this servo state and hop count serves as a time source (R76). -/
def servesTime (servo hops : Nat) : Bool := servo == 2 || (servo == 3 && hops ≤ 2)

/-- Whether a beacon serves the node as its time source: an accepted class, a sender in LOCKED, or in MAINS with at most 2
hops, no PTP master, and no followed sender nearer to a LOCKED node (R71, R76, R334). -/
def State.followsBeacon (s : State) (b : Beacon) (cls : Nat) : Bool :=
  (s.pn ND_TIME_SOURCES).testBit 1 && cls != 0 && !b.is4016 && servesTime b.servo b.hops && s.servo.master.isNone &&
    (s.servo.source != 2 || s.servo.sender == b.node || b.hops + 1 < s.servo.mainsHops)

/-- Another sender whose beacons are valid: an accepted class, and a servo state that serves (R71, R76). -/
def State.otherSender (s : State) (node : Nat) : Option Neighbour :=
  s.servo.neighbours.find? (fun x => x.node != node && x.cls != 0 && !x.is4016 && servesTime x.servo x.hops &&
    decide (s.clk.up < x.lastAt + 25 * 40000000))

/-- Whole-site holdover (R76): in HOLDOVER, without a master or a sender that serves, a node follows the crossings of a HOLDOVER sender with
a lower mains hop count. (log 55) -/
def State.followsHoldover (s : State) (b : Beacon) (cls : Nat) : Bool :=
  s.servo.state == .holdover && cls != 0 && !b.is4016 && b.servo == 4 && b.hops < s.servo.mainsHops && s.servo.master.isNone &&
    (s.otherSender 4096).isNone

/-- The branch of MPL0 or MPL1. (log 57) -/
def State.grid (s : State) (q : Nat) : Grid := s.servo.grids.getD q Grid.reset

/-- Change the branch of MPL0 or MPL1. -/
def State.modGrid (s : State) (q : Nat) (f : Grid → Grid) : State := s.modServo (fun v => { v with grids := upd v.grids q f })

/-- Start of beacon slot `j` mod 8 after the anchor (Table 13.4). -/
def slotAt (j : Nat) : Nat := 2000000 + 1500000 * (j % 8)

/-- A beacon as it acts on the grid of its branch (R330, R333, Table 13.7). A node without a reference follows the grid of every beacon. One with a
reference takes the numbering from the first beacon of a grid master, and anchors on a grid master from the first beacon whose class
it has accepted; the anchor is then its own crossing, less the correction, nearest the start of the master's period. (log 57) -/
def State.followGrid (s : State) (g : Grid) (b : Beacon) (cls : Nat) (arrival : Int) : Grid :=
  let start := arrival - slotAt b.pos
  if !s.zcValid then { g with number := b.number % 2 ^ 32, anchor := start.toNat }
  else if b.pos ≠ 0 ∨ g.pos = some 0 then g
  else if cls ≠ 0 ∧ g.master ≠ some b.node then
    let c := phaseCorrection cls s.meanPeriod
    { g with master := some b.node, cls := cls, number := b.number % 2 ^ 32, anchor := (s.nearCrossing (start + c) - c).toNat, on := true }
  else if g.master = some b.node then { g with cls := cls }
  else if g.master = none then { g with number := b.number % 2 ^ 32 }
  else g

/-- BEACON_RECEIVED (R76, R330–R334). -/
def execBeaconReceived (t : Nat) (b : Beacon) (s : State) : Host.Outcome State Fault Refusal :=
  let s := s.at t
  if !(3 ≤ s.pwr.stage && (b.port == 16 || b.port == 17) && (s.pn ND_PLC_MAINS).testBit (b.port - 16)) then .next s
  else
    let arrival : Int := s.nodeNow
    let x := arrival - (b.tx - b.crossing)
    let T : Int := s.meanPeriod
    let o := s.nearCrossing x
    let own := ownCrossing o x T
    let c := if s.zcValid then phaseClass (own - x) T else 0
    let old := (s.neighbour b.node).getD { Neighbour.reset with node := b.node, port := b.port }
    let run := if c ≠ 0 ∧ c = old.cand then old.run + 1 else if c = 0 then 0 else 1
    let cls := if 4 ≤ run then c else old.cls
    let s := if (s.neighbour b.node).isNone then s.neighbourEvent b.port 1 1 5 b.node 0 else s
    let s := s.putNeighbour { old with
      cls := cls, cand := c, run := run, lastAt := t, hops := b.hops, port := b.port, servo := b.servo,
      is4016 := b.is4016 }
    let s := if cls ≠ old.cls then s.neighbourEvent b.port 2 2 6 b.node cls else s
    let s := if b.is4016 then s else s.modGrid (b.port - 16) (fun g => s.followGrid g b cls arrival)
    let off := b.crossing + phaseCorrection cls T - own
    if s.servo.source = 2 ∧ s.servo.sender = b.node ∧ servesTime b.servo b.hops = false then
      .next (s.loseSource 2)
    else if s.zcValid && s.followsBeacon b cls then .next (s.mainsOffset b off)
    else if s.zcValid && s.followsHoldover b cls then
      let r := s.jumpTest off 2 (b.port - 13) b.node 0
      .next (if r.1 then r.2.correct 2 off else r.2)
    else .next s

/-- The correction of the node's class for the grid master of its branch, which sits at position 0 (R330). (log 57) -/
def State.gridCorrection (s : State) (g : Grid) : Int :=
  if g.pos = some 0 then 0 else phaseCorrection g.cls s.meanPeriod

/-- Length of a beacon period: two mains cycles, or nominal length without a reference (R330, R333). -/
def State.beaconPeriod (s : State) : Nat := if s.zcValid then 2 * s.meanPeriod else 40000000

/-- The next beacon period of a branch (R330): the second anchor after the running one. Without a reference the running period was the
last of its own (Table 13.7). (log 57) -/
def State.nextPeriod (s : State) (g : Grid) : Grid :=
  if s.nodeNow < g.anchor + s.beaconPeriod then g
  else if !s.zcValid then { g with on := false }
  else
    let want : Int := if g.anchor = 0 then s.nodeNow else g.anchor + s.beaconPeriod
    let c := s.gridCorrection g
    { g with anchor := (s.nearCrossing (want + c) - c).toNat, number := wrapInc 32 g.number, on := true }

/-- A mains port is powered and its engine runs (13 R319, 22 R507). -/
def State.mainsOn (s : State) (q : Nat) : Bool := 3 ≤ s.pwr.stage && (s.pn ND_PLC_MAINS).testBit q

/-- BEACON_PERIOD_START (R330): the branches whose period has ended. -/
def execBeaconPeriodStart (t : Nat) (s : State) : Host.Outcome State Fault Refusal :=
  let s := s.at t
  .next (s.modServo (fun v => { v with
    grids := v.grids.mapIdx (fun q g => if s.mainsOn q then s.nextPeriod g else g) }))

/-- The error bound reported (Table 3.3). -/
def State.errorBound (s : State) : Nat :=
  match s.servo.state with
  | .locked => s.servo.offset.natAbs
  | .mains => s.servo.bound
  | .holdover => s.holdError.toNat
  | .acquiring => if s.clk.loaded then s.servo.offset.natAbs else 2 ^ 32 - 1
  | .free => 2 ^ 32 - 1

/-- The node's beacon on a branch (R332) at position `j` in the running period. -/
def State.beacon (s : State) (q j : Nat) (g : Grid) : Beacon where
  port := 16 + q
  node := s.nodeId
  pos := j
  number := g.number
  servo := servoCode s.servo.state
  bound := s.errorBound
  hops := if s.servo.state = .locked then 0 else s.servo.mainsHops
  crossing := s.nearCrossing g.anchor
  tx := s.nodeNow
  is4016 := false

/-- The node's slot in the running period of a branch has come, and its beacon has not been sent in that period (R331, R333). -/
def State.slotDue (s : State) (g : Grid) (j : Nat) : Bool :=
  g.on && s.pn ND_ZC_CHANNEL != 255 && g.number % 4 == j / 8 && decide (g.anchor + slotAt j ≤ s.nodeNow) &&
    g.out.map (·.number) != some g.number

/-- A branch after its slot: the beacon is sent where it is due. -/
def State.afterSlot (s : State) (q : Nat) (g : Grid) : Grid :=
  match g.pos with
  | some j => if s.mainsOn q && s.slotDue g j then { g with out := some (s.beacon q j g) } else g
  | none => g

/-- BEACON_SLOT (R331–R333): slot j mod 8 of the periods whose number mod 4 is j div 8, on each branch. (log 57) -/
def execBeaconSlot (t : Nat) (s : State) : Host.Outcome State Fault Refusal :=
  let s := s.at t
  .next (s.modServo (fun v => { v with grids := v.grids.mapIdx s.afterSlot }))

/-- BEACON_TIMEOUT (R333, R337, Table 3.4): 25 periods without a beacon of a sender. -/
def execBeaconTimeout (t node : Nat) (s : State) : Host.Outcome State Fault Refusal :=
  let s := s.at t
  match s.neighbour node with
  | some n =>
    if n.lastAt + 25 * s.beaconPeriod ≤ t then
      let s := s.modServo (fun v => { v with neighbours := v.neighbours.filter (fun x => x.node != node) })
      let s := (s.neighbourEvent n.port 1 0 4 node 0).queueFault 2 node (n.port - 14)
      if s.servo.sender ≠ node then .next s
      else
        match s.otherSender node with
        | some x => .next (s.modServo (fun v => { v with sender := x.node, port := x.port - 13, mainsHops := x.hops + 1 }))
        | none => .next (s.loseSource 2)
    else .next s
  | none => .next s

/-! ### Time-triggered outputs -/

/-- Output `i`. -/
def State.tto (s : State) (i : Nat) : Tto := s.servo.ttos.getD i Tto.reset

/-- Change output `i`. -/
def State.modTto (s : State) (i : Nat) (f : Tto → Tto) : State := s.modServo (fun v => { v with ttos := upd v.ttos i f })

/-- Raise TIME_OUTPUT_FIRED (Table 19.15). -/
def State.ttoEvent (s : State) (i : Nat) (late : Bool) (edge : Nat) : State :=
  s.raise 59 0 ([byteOf i, byteOf (b2n late), 0, 0] ++ le 4 (s.tto i).edges ++ le 8 s.frm ++ le 8 edge)

/-- TTO_EDGE (R84–R86): a trailing edge at its elapsed time, else a leading edge at its node time. A leading edge over a pulse that a STEP
has left running ends with its own width, a case the spec does not settle: DESIGN CHOICE. (logs 15, 55) -/
def execTtoEdge (t i : Nat) (s : State) : Host.Outcome State Fault Refusal :=
  let s := s.at t
  let o := s.tto i
  if ripeAt o.trailAt t then .next (s.modTto i (fun o => { o with level := o.polarity, trailAt := none }))
  else if o.armed && o.mode != 0 && o.next ≤ s.nodeNow then
    let edge := if o.late then s.nodeNow else o.next
    let start := t - (s.nodeNow - edge)
    let s := s.modTto i (fun o => { o with
      level := !o.polarity, edges := inc32 o.edges, trailAt := some (start + o.width), late := false
      armed := o.mode == 2, next := if o.mode = 2 then o.next + o.period else o.next })
    if o.mode = 1 ∨ o.report = true then .next (s.ttoEvent i o.late edge) else .next s
  else .next s

/-- tto-set (R84, R85, Table 20.6). -/
def serveTtoSet (p : Bytes) (s : State) : Ans :=
  let i := fld p 0 1
  let mode := fld p 1 1
  let start := fld p 2 8
  let period := fld p 10 4
  let width := fld p 14 4
  let pol := fld p 18 1
  let rep := fld p 19 1
  let now := s.nodeNow
  if p.length ≠ 20 then refuse s 2
  else if 8 ≤ i then refuse s 5
  else if 3 ≤ mode ∨ 2 ≤ pol ∨ 2 ≤ rep then refuse s 6
  else if mode ≠ 0 ∧ (width < 8 ∨ width % 8 ≠ 0) then refuse s 6
  else if mode = 2 ∧ (period < 1000 ∨ 1000000000 < period ∨ period % 8 ≠ 0 ∨ period < width + 8) then refuse s 6
  else if mode = 1 ∧ start < now then refuse s 6
  else
    let next := if mode = 2 ∧ start < now + 1000 then start + ((now + 1000 - start + period - 1) / period) * period else start
    okS (s.modTto i (fun o => { o with
      mode := mode, start := start, period := period, width := width, polarity := pol == 1, report := rep == 1,
      armed := mode != 0, next := next, trailAt := none, level := pol == 1, late := false }))

/-- TTO_SET. -/
def execTtoSet (h : Hdr) (p : Bytes) (s : State) : Host.Outcome State Fault Refusal := hostCmd 0x0703 h p serveTtoSet s

/-! ### Capture inputs -/

/-- Capture input `i`. -/
def State.tci (s : State) (i : Nat) : Tci := s.servo.tcis.getD i Tci.reset

/-- Change capture input `i`. -/
def State.modTci (s : State) (i : Nat) (f : Tci → Tci) : State := s.modServo (fun v => { v with tcis := upd v.tcis i f })

/-- TCI_EDGE (R87, R454): an accepted edge is timestamped, on the 8 ns grid and not before it, into the 16-entry FIFO; a capture while
full is lost. -/
def execTciEdge (t i : Nat) (rising : Bool) (clocks : Nat) (s : State) : Host.Outcome State Fault Refusal :=
  let s := s.at t
  let x := s.tci i
  let chosen := x.edges == 3 || x.edges == (if rising then 1 else 2)
  if 4 ≤ i ∨ !chosen ∨ clocks < x.filter then .next s
  else if fifoLevel 4 x.fifo < 16 ∧ !s.test.regs.fifo.getLsbD (4 + i) then
    .next (s.modTci i (fun x => { x with fifo := { x.fifo with
      words := x.fifo.words ++ [((s.nodeNow + 7) / 8 * 8 + b2n rising * 2 ^ 64, false, false)], wptr := wrapInc 5 x.fifo.wptr } }))
  else
    let s' := s.modTci i (fun x => { x with fifo := { x.fifo with overrun := true, ovFrame := some s.frm } })
    if x.fifo.ovFrame = some s.frm then .next s'
    else .next (s'.raise 6 (16 + i) (fifoBody (16 + i) 0 (fifoLevel 4 x.fifo) s.frm 1))

/-- tci-set (Table 3.7, Table 20.6). -/
def serveTciSet (p : Bytes) (s : State) : Ans :=
  let i := fld p 0 1
  if p.length ≠ 3 then refuse s 2
  else if 4 ≤ i then refuse s 5
  else if 4 ≤ fld p 1 1 then refuse s 6
  else okS (s.modTci i (fun x => { x with edges := fld p 1 1, filter := fld p 2 1 }))

/-- TCI_SET. -/
def execTciSet (h : Hdr) (p : Bytes) (s : State) : Host.Outcome State Fault Refusal := hostCmd 0x0704 h p serveTciSet s

/-- One 9-byte entry of tci-read: timestamp and edge. -/
def tciEntry (w : Nat × Bool × Bool) : Bytes := le 8 (w.1 % 2 ^ 64) ++ [byteOf (w.1 / 2 ^ 64)]

/-- tci-read (R87, R454, Table 20.6): every timestamp held; an empty or held-empty FIFO underruns. The tag bits are those of
the reads together. -/
def serveTciRead (p : Bytes) (s : State) : Ans :=
  let i := fld p 0 1
  let f := (s.tci i).fifo
  if p.length ≠ 1 then refuse s 2
  else if 4 ≤ i then refuse s 5
  else if f.words.isEmpty ∨ s.test.regs.fifo.getLsbD (12 + i) then
    okB (s.modTci i (fun x => { x with fifo := { x.fifo with underrun := true } })) [0, 2]
  else
    let bad := f.words.any (fun w => w.2.2)
    let s := s.modTci i (fun x => { x with fifo := { x.fifo with
      words := [], rptr := x.fifo.wptr, poison := x.fifo.poison || bad } })
    let s := if bad then
        (if f.poFrame = some s.frm then s
         else (s.modTci i (fun x => { x with fifo := { x.fifo with poFrame := some s.frm } })).raise 7 (16 + i)
          (fifoBody (16 + i) 0 0 s.frm f.rptr))
      else s
    okB s ([byteOf f.words.length, byteOf (b2n bad)] ++ f.words.flatMap tciEntry)

/-- TCI_READ. -/
def execTciRead (h : Hdr) (p : Bytes) (s : State) : Host.Outcome State Fault Refusal := hostCmd 0x0705 h p serveTciRead s

/-! ### Host commands on time -/

/-- Zero-crossing state (Table 20.6): 0 valid, 1 lost, 2 none. -/
def State.zcCode (s : State) : Nat := if s.pn ND_ZC_CHANNEL = 255 then 2 else if s.servo.zc = .valid then 0 else 1

/-- time-status (R71, Table 20.6). -/
def serveTimeStatus (p : Bytes) (s : State) : Ans :=
  noPayload (fun s =>
    let v := s.servo
    okB s ([byteOf (servoCode v.state), byteOf v.source, byteOf s.regime, byteOf s.zcCode] ++ leI 8 v.offset ++
      le 4 (min s.errorBound (2 ^ 32 - 1)) ++ be 8 v.gm ++ le 2 v.ptpHops ++ le 2 v.mainsHops ++ le 8 s.nodeNow)) p s

/-- TIME_STATUS. -/
def execTimeStatus (h : Hdr) (p : Bytes) (s : State) : Host.Outcome State Fault Refusal := hostCmd 0x0701 h p serveTimeStatus s

/-- time-accept (R78): STEP or SLEW of the refused correction. -/
def serveTimeAccept (h : Hdr) (p : Bytes) (s : State) : Ans :=
  let how := fld p 0 1
  if p.length ≠ 1 then refuse s 2
  else if 2 ≤ how then refuse s 6
  else
    match s.servo.refused with
    | none => refuse s 8
    | some r =>
      if how = 1 ∧ 125000 < r.offset.natAbs then refuse s 6
      else
        withLog 1 (fun s =>
          let s := s.enterHost h 4 0 0 (leI 8 r.offset ++ [byteOf r.source] ++ le 2 r.sender)
            ([byteOf how] ++ zeros 7 ++ (if r.source = 1 then be 8 r.gm else zeros 8)) s.frm
          okS (s.modServo (fun v => { v.clearRuns with
            state := .acquiring, source := r.source, sender := r.sender, gm := r.gm
            port := if r.source = 1 then (match v.master with | some m => m.port | none => 255) else v.port
            refused := none, offset := r.offset
            slew := if how = 1 then localOffset r.source r.offset else 0, accSlew := how == 1, trim := 0
            step := if how = 0 then some (localOffset r.source r.offset, s.clk.up + 1000000) else none }))) s

/-- TIME_ACCEPT. -/
def execTimeAccept (h : Hdr) (p : Bytes) (s : State) : Host.Outcome State Fault Refusal :=
  hostCmd 0x0702 h p (serveTimeAccept h) s

end Sys2Proof.Machine
end

