-- ==== Sys2Proof/Machine/Plc.lean ====
section
/-!
DEFINITION. The shared power-line engine (13): streams, turns and the allocation of transform slots, the raw capture
stream, and the links of the outlet ports.
-/

namespace Sys2Proof.Machine

/-- PREAMBLE_DETECTED (R320, R324): the AGC is set, in its steps of 3 dB to 42 dB (Table 13.1), and a receive stream opens on a powered port
that holds none. -/
def execPreambleDetected (t port gain : Nat) (s : State) : Host.Outcome State Fault Refusal :=
  let s := s.at t
  if port < 18 ∧ s.pwr.coreOn = true ∧ s.plcPowered port = true ∧ (s.plcPort port).stream = none then
    .next (s.modPlcPort port (fun x => { x with stream := some false, gain := min gain 42 / 3 * 3 }))
  else .next s

/-! ### Allocation (R325–R327) -/

/-- Class of a receive stream (Table 13.3). -/
def State.rxClass (s : State) (port : Nat) : Nat :=
  if 16 ≤ port then 2
  else
    let o := s.outOf port
    if (s.plcPort port).link || (o.duty == 100 && (o.code == 1 || o.code == 2 || o.code == 3)) then 3 else 4

/-- Order of a symbol in Table 13.3: its class, for an alternate that of its stream, then oldest first, then the lower
port. (log 22) -/
def State.symKey (s : State) (y : Sym) : List Nat :=
  let c := if y.alt then 5 else if y.tx then 1 else s.rxClass y.port
  [c, if y.alt then s.rxClass y.port else 0, 255 - min y.age 255, y.port]

/-- A symbol put in its place. (log 22) -/
def State.insertSym (s : State) (y : Sym) : List Sym → List Sym
  | [] => [y]
  | z :: l => if lexLess (s.symKey y) (s.symKey z) then y :: z :: l else z :: s.insertSym y l

/-- Slots of a turn that serve streams (R325), less those that the test window starves (23 R523). -/
def State.slots (s : State) : Nat := (if s.plc.borrow then 22 else 24) - s.test.eff.starve.toNat

/-- Blanked samples of a symbol as they count: at most the symbol's 3,489 samples, on a port whose blanking is
enabled (R322, ND_PLC_BLANK_ENABLE). (log 22) -/
def State.blankedOf (s : State) (y : Sym) : Nat :=
  if (s.pn ND_PLC_BLANK_ENABLE).testBit y.port then min y.blanked 3489 else 0

/-- Without a period of its own and without a neighbour to follow, a node sends on a branch by carrier sense alone (R333). -/
def State.carrierOnly (s : State) (q : Nat) : Bool :=
  !(s.grid q).on && !(s.servo.neighbours.any (fun n => n.port == 16 + q))

/-- A frame may begin on a branch at a node time (Table 13.4): a beacon in the node's slot of the running period, another frame in the
contention region. (log 22) -/
def State.mayBegin (s : State) (q at' : Nat) : Bool :=
  let g := s.grid q
  let x := (at' - g.anchor) % s.beaconPeriod
  s.carrierOnly q || (14000000 ≤ x && x + 1000000 < s.beaconPeriod) ||
    match g.out with
    | some b => b.number == g.number && slotAt b.pos ≤ x && x < slotAt b.pos + 1500000
    | none => false

/-- A transmit symbol can be presented (R324, R329): the port goes on with the frame it sends, or begins one where the grid of its branch allows
it; after a core-die reset the ports are silent until the service pair runs. (log 22) -/
def State.sends (s : State) (y : Sym) : Bool :=
  s.fw.svcRunning && ((s.plcPort y.port).stream == some true ||
    (s.plcPort y.port).stream == none && (y.port < 16 || s.mayBegin (y.port - 16) y.time))

/-- A symbol can be presented (R324): a powered port that sends, or whose receive stream is open; an alternate for a symbol of frame
control, with ND_PLC_FC_ALT 1. (log 22) -/
def State.presents (s : State) (y : Sym) : Bool :=
  y.port < 18 && s.plcPowered y.port && (if y.tx then s.sends y else (s.plcPort y.port).stream == some false) &&
    (!y.alt || s.pb ND_PLC_FC_ALT && !y.tx && 14 ≤ y.mod)

/-- The symbols of a turn, oldest presented first: a port's buffer holds two, with one alternate (R324). (log 22) -/
def State.presented (s : State) (l : List Sym) : List Sym :=
  l.foldl (fun a y =>
    let n := (a.filter (fun z => z.port == y.port && z.alt == y.alt)).length
    if s.presents y && n < (if y.alt then 1 else 2) then a ++ [y] else a) []

/-! ### Raw capture (R335) -/

/-- The record of a symbol in the raw stream: written whole where it fits, else counted. (log 22) -/
def State.rawRecord (s : State) (y : Sym) (outcome : Nat) : State :=
  let mode := s.pn ND_PLC_RAW_MODE
  let trig := s.pn ND_PLC_RAW_TRIGGER
  if mode = 0 ∨ (s.pn ND_PLC_RAW_PORTS).testBit y.port = false ∨ (trig = 1 ∧ s.blankedOf y = 0) ∨ (trig = 2 ∧ outcome ≠ 1) then s
  else
    let head := [2 * 2 ^ 24 + y.port * 2 ^ 16 + (mode - 1) * 2 ^ 8 + b2n y.tx * 2 ^ 4 + outcome, y.time % 2 ^ 32,
      y.time / 2 ^ 32 % 2 ^ 32]
    let ws := if mode = 1 then
        head ++ [s.blankedOf y * 2 ^ 20 + (if y.mod < 3 then y.mod else 15) * 2 ^ 16 + (s.plcPort y.port).gain % 256 * 2 ^ 8 + min y.index 255,
          (y.snr % 65536).toNat * 2 ^ 16]
      else head ++ ((y.words.map (· % 2 ^ 30)) ++ List.replicate 1024 0).take 1024 ++ [s.blankedOf y * 2 ^ 20]
    if s.streamRoom 3 < ws.length then s.modPlcPort y.port (fun x => { x with rawShort := inc32 x.rawShort })
    else s.writeUnit 3 ws

/-! ### Turns -/

/-- A received frame is complete: counted, its link goes on, and a management message is taken by the service pair, or
waits in the queue of 32 (R328, R329). (log 22) -/
def State.frameDecoded (s : State) (y : Sym) : State :=
  s.modPlcPort y.port (fun x =>
    let x := { x with
      stream := none, frames := inc32 x.frames, lastMod := y.mod % 256, lastAtten := y.atten % 256
      linkDue := if x.link && y.peer then some (s.clk.up + s.pn ND_PLC_LINK_TIMEOUT * 1000000) else x.linkDue }
    if y.frame.isEmpty || (s.fw.svcRunning && !s.host.pause) then x
    else if x.rxQueue.length < 32 then { x with rxQueue := x.rxQueue ++ [y.frame] }
    else { x with rxDropped := inc32 x.rxDropped })

/-- A served symbol (R321, R322, R324). A frame takes the transmit attenuation in force when the port begins to send it (R338). (log 22) -/
def State.serveSym (s : State) (y : Sym) : State :=
  if y.alt then s
  else if y.tx then
    let a := s.pn (if y.port < 16 then ND_PLC_TX_ATTEN_OUT else ND_PLC_TX_ATTEN_MAINS)
    let s := s.modPlcPort y.port (fun x => { x with
      stream := if y.last then none else some true, attenTx := if x.stream = none then a else x.attenTx })
    if y.last ∧ 16 ≤ y.port then
      match s.ring.mainsQueue.find? (fun e => e.1 == y.port) with
      | some e => s.modRing (fun r => { r with mainsQueue := r.mainsQueue.erase e })
      | none => s
    else s
  else
    let s := s.modPlcPort y.port (fun x => { x with blanked := satAdd 32 x.blanked (s.blankedOf y) })
    if y.mod = 14 then s.modPlcPort y.port (fun x => { x with badMod := inc32 x.badMod, stream := none })
    else if y.last then s.frameDecoded y
    else s

/-- A symbol without a slot (R327). (log 22) -/
def State.loseSym (s : State) (y : Sym) : State :=
  if y.alt then s.modPlcPort y.port (fun x => { x with alts := inc32 x.alts })
  else s.modPlcPort y.port (fun x => { x with
    lost := inc32 x.lost, stream := none, blanked := if y.tx then x.blanked else satAdd 32 x.blanked (s.blankedOf y) })

/-- PLC_TURN (R323–R327): the symbols presented are granted slots in the order of Table 13.3. (log 22) -/
def execPlcTurn (t : Nat) (syms : List Sym) (s : State) : Host.Outcome State Fault Refusal :=
  let s := s.at t
  if s.pwr.coreOn then
    let l := (s.presented syms).foldl (fun a y => s.insertSym y a) []
    let go := l.take s.slots
    let off := l.drop s.slots
    let s := s.modPlc (fun x => { x with turns := (x.turns + 1) % 2 ^ 32 })
    let noAlt (port : Nat) : Bool := off.any (fun y => y.alt && y.port == port)
    let s := go.foldl (fun s y =>
      (if y.alt then s else s.rawRecord y (if !y.tx && 14 ≤ y.mod && noAlt y.port then 2 else 0)).serveSym y) s
    .next (off.foldl (fun s y => (if y.alt then s else s.rawRecord y 1).loseSym y) s)
  else .next s

/-! ### Links (R328) -/

/-- PLC_LINK_UP (R328): the CM_SET_KEY exchange of a matched port completes. -/
def execPlcLinkUp (t p : Nat) (s : State) : Host.Outcome State Fault Refusal :=
  let s := s.at t
  if p < 16 ∧ s.plcPowered p = true ∧ (s.outOf p).slacMatched.isSome = true ∧ (s.plcPort p).link = false ∧ s.fw.svcRunning = true then
    .next (((s.modPlcPort p (fun x => { x with
      link := true, frames := 0, linkDue := some (s.clk.up + s.pn ND_PLC_LINK_TIMEOUT * 1000000) })).modOut p
      (fun o => { o with lossDue := none })).linkEvent p 1 0)
  else .next s

/-- PLC_LINK_TIMEOUT (R328): no frame of the peer for ND_PLC_LINK_TIMEOUT. -/
def execPlcLinkTimeout (t p : Nat) (s : State) : Host.Outcome State Fault Refusal :=
  let s := s.at t
  if p < 16 ∧ ripeAt (s.plcPort p).linkDue t = true then .next (s.linkDown p 1) else .next s

/-- Ports that have become idle (R27, Table 13.7): an outlet's stream and link end; a mains port's streams end and its
neighbours are declared lost (R338). -/
def State.plcSweep (s : State) : State :=
  let s := forAll points16 (fun p s =>
    s.linkIdle p) s
  forAll [16, 17] (fun q s =>
    if s.plcPowered q then s
    else
      let gone := s.servo.neighbours.filter (fun n => n.port == q)
      let s := (s.modPlcPort q (fun x => { x with stream := none })).modServo (fun v => { v with
        neighbours := v.neighbours.filter (fun n => n.port != q) })
      gone.foldl (fun s n =>
        let s := (s.neighbourEvent q 1 0 3 n.node 0).queueFault 2 n.node (q - 14)
        if s.servo.sender = n.node then s.loseSource 2 else s) s) s

end Sys2Proof.Machine
end

