-- ==== Sys2Proof/Machine/Ring.lean ====
section
/-!
DEFINITION. The Yudaix ring and sympathetic balance (17): forwarding, ring healing, discovery and the root, the balance
frame and its judging.
-/

namespace Sys2Proof.Machine

/-! ### Ports (R399–R401) -/

/-- Role of a line port (R399). -/
def State.lineRole (s : State) (port : Nat) : Nat := s.pn (if port = 0 then ND_RING_LKA_ROLE else ND_RING_LKB_ROLE)

/-- Link of a line port. -/
def State.lineUp (s : State) (port : Nat) : Bool := if port = 0 then s.ring.lkaUp else s.ring.lkbUp

/-- Node ID of the neighbour on a line port. -/
def State.neighbourOn (s : State) (port : Nat) : Nat := if port = 0 then s.ring.nbrA else if port = 1 then s.ring.nbrB else 0

/-- A line port carries traffic: on, linked, not blocked after a link's return, and not the manager's blocked closing
port (R411). -/
def State.lineOpen (s : State) (port : Nat) : Bool :=
  let r := s.ring
  s.lineRole port != 0 && s.lineUp port && !(if port = 0 then r.lkaBlocked else r.lkbBlocked) &&
    !(r.manager && r.closing == port && r.closingBlocked)

/-- Ports a frame leaves by, other than the one it came in on: the other line port always (R400), and a mains port where
the destination has not been learned elsewhere. (log 20) -/
def State.otherPorts (s : State) (port dst : Nat) : List Nat :=
  let known := s.ring.learned.find? (fun e => e.1 == dst)
  let lines := [0, 1].filter (fun q => q != port && s.lineOpen q)
  let mains := [2, 3].filter (fun q => q != port && (s.pn ND_PLC_MAINS).testBit (q - 2))
  lines ++ (match known with | some e => mains.filter (· == e.2) | none => mains)

/-- A ring-control frame, which a blocked port passes (R411): to the line ports that have a link. (log 20) -/
def State.ringPorts (s : State) (port : Nat) : List Nat :=
  [0, 1].filter (fun q => q != port && s.lineRole q != 0 && s.lineUp q && !(s.ring.manager && s.ring.closing == q))

/-- Put a frame on ports: a line port sends it, a mains port stores it for 20 ms (R400, R401). -/
def State.sendOn (s : State) (ports : List Nat) (prio : Nat) (b : Bytes) : State :=
  s.modRing (fun r => { r with
    sent := (ports.filter (· < 2)).map (fun q => (q, prio, b))
    mainsQueue := r.mainsQueue ++ (ports.filter (2 ≤ ·)).map (fun q => (q + 14, s.clk.up + 20000000, b)) })

/-- Raise RING_TOPOLOGY_CHANGE (Table 17.9). -/
def State.topology (s : State) (cause port nbr : Nat) : State :=
  let r := s.ring
  s.raise 13 0 ([byteOf cause, byteOf port] ++ le 2 r.root ++ le 2 r.branch ++ [byteOf r.position, byteOf (min s.servo.ptpHops 255)] ++
    le 8 s.frm ++ le 2 r.inBal ++ le 2 nbr ++ le 2 ((s.pn ND_ALIGN_BUDGET - 20) / 6) ++ zeros 2 ++ le 4 r.tour)

/-- The ring manager's closing port is opened and the flush follows (R411). (log 20) -/
def State.heal (s : State) : State :=
  let r := s.ring
  if r.manager && r.closingBlocked then
    let s := s.modRing (fun r => { r with closingBlocked := false, testsFrom := none, learned := [] })
    (s.sendOn ([0, 1].filter s.lineOpen) 5 (Config.ringFrame 2)).topology 3 r.closing (s.neighbourOn r.closing)
  else s

/-- A ring-test frame reaches the manager (R411): after 1 ms of them the closing port is blocked again. (log 20) -/
def State.seeTest (s : State) : State :=
  let r := s.ring
  if r.manager then
    let since := r.testsFrom.getD s.clk.up
    let s := s.modRing (fun r => { r with testSeen := some s.clk.up, testsFrom := some since })
    if r.closingBlocked = false ∧ since + 1000000 ≤ s.clk.up then
      let s := s.modRing (fun r => { r with closingBlocked := true })
      (s.sendOn ([0, 1].filter s.lineUp) 5 (Config.ringFrame 3)).topology 4 r.closing (s.neighbourOn r.closing)
    else s
  else s

/-- YUDAIX_FRAME_RECEIVED (R399–R401, R411): the source is learned; a frame not for this node alone goes on. -/
def execYudaixFrameReceived (t : Nat) (f : YuFrame) (s : State) : Host.Outcome State Fault Refusal :=
  let s := s.at t
  let usable := if f.port < 2 then (s.lineRole f.port != 0 && s.lineUp f.port) else
    f.port < 4 && (s.pn ND_PLC_MAINS).testBit (f.port - 2)
  if !usable then .next s
  else if f.kind = 1 ∧ f.port < 2 then .next (if s.ring.manager then s.seeTest else s.sendOn (s.ringPorts f.port) 5 f.bytes)
  else
    let s := if f.kind = 2 then s.modRing (fun r => { r with lkaBlocked := false, lkbBlocked := false }) else s
    if f.kind = 2 ∧ f.port < 2 then .next (if s.ring.manager then s else s.sendOn (s.ringPorts f.port) 5 f.bytes)
    else if f.port < 2 ∧ s.lineOpen f.port = false then .next s
    else
      let s := s.modRing (fun r => { r with learned := (r.learned.filter (fun e => e.1 != f.src)) ++ [(f.src, f.port)] })
      .next (if f.mine then s else s.sendOn (s.otherPorts f.port f.dst) f.prio f.bytes)

/-- MAINS_FRAME_TIMEOUT (R401). -/
def execMainsFrameTimeout (t : Nat) (s : State) : Host.Outcome State Fault Refusal :=
  let s := s.at t
  let late := s.ring.mainsQueue.filter (fun e => e.2.1 ≤ t)
  .next (s.modRing (fun r => { r with
    mainsQueue := r.mainsQueue.filter (fun e => !(e.2.1 ≤ t)), mainsDropped := satAdd 32 r.mainsDropped late.length }))

/-- A link change restarts discovery at the root (R408). -/
def State.rediscover (s : State) (after : Nat) : State :=
  if s.ring.isRoot then s.modRing (fun r => { r with discDue := some (s.clk.up + after) }) else s

/-- LINE_LINK_DOWN (R411, R419). -/
def execLineLinkDown (t port : Nat) (s : State) : Host.Outcome State Fault Refusal :=
  let s := s.at t
  if port < 2 ∧ s.lineUp port = true then
    let nbr := s.neighbourOn port
    let s := s.modRing (fun r => if port = 0 then { r with lkaUp := false, nbrA := 0 } else { r with lkbUp := false, nbrB := 0 })
    let s := if s.ring.inRing then s.sendOn ([1 - port].filter s.lineUp) 5 (Config.ringFrame 0) else s
    .next (((s.topology 1 port nbr).queueFault 1 nbr port).rediscover 0)
  else .next s

/-- LINE_LINK_UP (R411): in a ring the port stays blocked until the ring is restored. -/
def execLineLinkUp (t port : Nat) (s : State) : Host.Outcome State Fault Refusal :=
  let s := s.at t
  if port < 2 ∧ s.lineUp port = false ∧ s.lineRole port ≠ 0 then
    let blk := s.ring.inRing
    let s := s.modRing (fun r =>
      if port = 0 then { r with lkaUp := true, lkaBlocked := blk } else { r with lkbUp := true, lkbBlocked := blk })
    .next ((s.topology 2 port 0).rediscover 0)
  else .next s

/-- RING_TEST_SEND (R411): along the head's LKA direction (R408). -/
def execRingTestSend (t : Nat) (s : State) : Host.Outcome State Fault Refusal :=
  let s := s.at t
  if s.ring.head = true ∧ ripeAt s.ring.testDue t = true then
    let s := s.modRing (fun r => { r with testDue := some (t + 100000) })
    .next (s.sendOn ([0].filter s.lineUp) 5 (Config.ringFrame 1))
  else .next s

/-- RING_TEST_MISSING (R411): three consecutive ring-test frames have not come. -/
def execRingTestMissing (t : Nat) (s : State) : Host.Outcome State Fault Refusal :=
  let s := s.at t
  if s.ring.manager = true ∧ ripeAt (s.ring.testSeen.map (· + 300000)) t = true then
    .next (s.modRing (fun r => { r with testsFrom := none })).heal
  else .next s

/-- LINK_DOWN_NOTICE (R411): the manager heals the ring; another node passes the notice on; a root runs discovery (R408). -/
def execLinkDownNotice (t port : Nat) (s : State) : Host.Outcome State Fault Refusal :=
  let s := s.at t
  if 2 ≤ port then .next s
  else
    let s := s.rediscover 0
    if s.ring.manager then .next s.heal else .next (s.sendOn (s.ringPorts port) 5 (Config.ringFrame 0))

/-- RING_FLUSH (R411). (log 20) -/
def execRingFlush (t port : Nat) (s : State) : Host.Outcome State Fault Refusal :=
  let s := s.at t
  if 2 ≤ port then .next s
  else
    let s := s.modRing (fun r => { r with learned := [] })
    .next (s.sendOn ([1 - port].filter s.lineOpen) 5 (Config.ringFrame 2))

/-! ### The root and discovery (R403–R409) -/

/-- Node ID of the grandmaster: this node's own while it is the grandmaster, 0xFFF for an external one (R407). -/
def State.gmNode (s : State) : Nat :=
  match s.servo.master with
  | some m => if m.gm = Config.clockIdentity then s.nodeId else Config.clockNode m.gm
  | none => s.nodeId

/-- Another claimant is a better root than this node (R407). -/
def State.betterRoot (s : State) (root hops : Nat) : Bool :=
  let want := s.pn ND_BAL_ROOT
  if want = s.nodeId then false
  else if want ≠ 0 ∧ want = root then true
  else if s.gmNode = s.nodeId then false
  else if s.gmNode = root then true
  else lexLess [hops, root] [s.servo.ptpHops, s.nodeId]

/-- A new root is known (R407). -/
def State.setRoot (s : State) (root : Nat) : State :=
  if s.ring.root = root then s
  else
    let mine := root == s.nodeId
    let s := s.modRing (fun r => { r with
      root := root, isRoot := mine, placed := false, noFrame := 0, running := false
      discDue := if mine then some s.clk.up else none
      launchDue := none, retryDue := none, lateDue := none, awaiting := false
      runs := [], results := [], map := if mine then r.map else [], inBal := if mine then r.inBal else 0 })
    s.topology 5 0xFF 0

/-- d_max (R404). -/
def State.depthLimit (s : State) : Nat := (s.pn ND_ALIGN_BUDGET - 20) / 6

/-- Whether the node is too deep, with the event when it becomes so; a node in MAINS is judged by R406 alone (R404). (log 20) -/
def State.checkDepth (s : State) : State :=
  let deep := decide (s.servo.source ≠ 2 ∧ s.depthLimit < s.servo.ptpHops)
  if deep = s.ring.tooDeep then s
  else
    let s := s.modRing (fun r => { r with tooDeep := deep })
    if deep then s.topology 7 0xFF 0 else s

/-- The service pair takes part in discovery: it runs, and the node's ID is assigned (R403). -/
def State.discovers (s : State) : Bool := s.fw.svcRunning && s.nodeId != 0

/-- The node's own discovery entry (R408). -/
def State.ownEntry (s : State) (hops port : Nat) : DiscEntry :=
  ⟨s.nodeId, hops, port, s.lineRole 0, s.lineRole 1, s.ring.tooDeep, s.unaligned⟩

/-- The Yudaix ports of the node. -/
def State.yuPorts (s : State) : List Nat :=
  [0, 1].filter s.lineOpen ++ [2, 3].filter (fun q => (s.pn ND_PLC_MAINS).testBit (q - 2))

/-- DISCOVERY_START (R408). -/
def execDiscoveryStart (t : Nat) (s : State) : Host.Outcome State Fault Refusal :=
  let s := s.at t
  if s.ring.isRoot = true ∧ s.discovers = true ∧ ripeAt s.ring.discDue t = true then
    let s := s.checkDepth
    let s := s.modRing (fun r => { r with
      runNo := (r.runNo + 1) % 65536, runPort := none, running := true, gathered := [s.ownEntry 0 0xFF]
      discDue := some (t + s.pn ND_DISC_PERIOD * 1000000000) })
    .next (s.sendOn s.yuPorts 5 (Config.ringFrame 4))
  else .next s

/-- The neighbour on a line port, as a token's last entry or its root names it. -/
def State.noteNeighbour (s : State) (k : Token) : State :=
  let n := match k.entries.getLast? with | some e => e.node | none => if k.hops = 0 then k.root else 0
  s.modRing (fun r => if k.port = 0 then { r with nbrA := n } else if k.port = 1 then { r with nbrB := n } else r)

/-- DISCOVERY_TOKEN_RECEIVED (R407, R408): the root gathers, or yields to a better claimant; another node appends its entry
and passes the token on, but not on a port where the same run comes a second time. A full token goes back towards the root, and an empty one
goes on (log 20). -/
def execDiscoveryTokenReceived (t : Nat) (k : Token) (s : State) : Host.Outcome State Fault Refusal :=
  let s := s.at t
  if s.discovers = false ∨ 4 ≤ k.port then .next (if s.nodeId = 0 then s.sendOn (s.otherPorts k.port 0) 5 (Config.ringFrame 4) else s)
  else
    let s := (s.noteNeighbour k).checkDepth
    if s.ring.isRoot = true ∧ (k.root = s.nodeId ∨ s.betterRoot k.root k.ptpHops = false) then
      if k.root = s.nodeId ∧ k.run = s.ring.runNo ∧ s.ring.running = true then
        .next (s.modRing (fun r => { r with
          gathered := k.entries.foldl (fun a e => if a.contains e then a else a ++ [e]) r.gathered }))
      else .next s
    else
      let s := s.setRoot k.root
      if k.run = s.ring.runNo ∧ s.ring.runPort.isSome = true ∧ s.ring.runPort ≠ some k.port then .next s
      else
        let s := s.modRing (fun r => { r with runNo := k.run % 65536, runPort := some k.port })
        let s := s.modRing (fun r => { r with gathered := if 160 ≤ k.entries.length then [s.ownEntry (k.hops + 1) k.port]
          else k.entries ++ [s.ownEntry (k.hops + 1) k.port] })
        let out := s.yuPorts.filter (· != k.port)
        .next (s.sendOn (if 160 ≤ k.entries.length then out ++ [k.port] else out) 5 (Config.ringFrame 4))

/-- Entries of one map that name the same node ID twice (R408). -/
def duplicates (l : List MapEntry) : List Nat :=
  ((l.map (fun e => e.entry.node)).filter (fun n => n != 0 && 2 ≤ (l.filter (fun e => e.entry.node == n)).length)).eraseDups

/-- The tour successor of a node: the next of the tour, and the root after the last (R409). -/
def successorOf (root n : Nat) : List MapEntry → Nat
  | [] => 0
  | [e] => if e.entry.node = n then root else 0
  | e :: f :: l => if e.entry.node = n then f.entry.node else successorOf root n (f :: l)

/-- DISCOVERY_COMPLETE (R406, R408, R409): the map is published; a node takes its position, its successor and its part in a
ring. On the mains port by which discovery reached it the node has that position; it heads the branch of any other mains port, at position
0 (Table 17.1, log 57). `m` is the map in tour order: the tree that the run's tokens have found. The root publishes what it has gathered.
(logs 20, 57) -/
def execDiscoveryComplete (t root : Nat) (m : List MapEntry) (s : State) : Host.Outcome State Fault Refusal :=
  let s := s.at t
  let mine := s.ring.isRoot && s.ring.running && root == s.nodeId
  if s.discovers = false ∨ root ≠ s.ring.root ∨ (s.ring.isRoot = true ∧ mine = false) then .next s
  else
    let m := if mine then m.filter (fun e => s.ring.gathered.contains e.entry) else m
    let dups := duplicates m
    let own := m.find? (fun e => e.entry.node == s.nodeId)
    let dup := dups.contains s.nodeId
    let pos := match own with | some e => e.position | none => 0
    let br := match own with | some e => e.branch | none => 0
    let ring := match own with | some e => e.ring | none => false
    let last := (m.filter (fun e => e.branch == br)).foldl (fun a e => max a e.position) 0
    let nxt := successorOf root s.nodeId m
    let changed := s.ring.position ≠ pos ∨ s.ring.successor ≠ nxt
    let manager := ring && pos == last && 0 < last
    let closing := match own with | some e => if e.entry.port = 0 then 1 else 0 | none => 0
    let s := s.modRing (fun r => { r with
      placed := own.isSome && !dup, dup := dup, branch := br, position := pos, successor := nxt, inRing := ring
      head := ring && pos == 0
      testDue := if ring && pos == 0 then some (r.testDue.getD t) else none
      manager := manager, closing := if manager then closing else r.closing
      closingBlocked := manager && (r.closingBlocked || !r.manager)
      testSeen := if manager then some (r.testSeen.getD t) else none })
    let s := match own with
      | some e => s.modServo (fun v => { v with
          grids := v.grids.mapIdx (fun q g => { g with pos := some (if e.entry.port = q + 2 then pos % 32 else 0) }) })
      | none => s
    let s := if changed then s.topology 6 0xFF 0 else s
    if mine then
      let s := s.modRing (fun r => { r with
        running := false, map := m.map (fun e => e.entry)
        inBal := (m.filter (fun e => e.entry.node != 0 && !dups.contains e.entry.node && !e.entry.deep)).length })
      let s := if dups.isEmpty then s else s.topology 8 0xFF (dups.headD 0)
      .next (s.topology 0 0xFF 0)
    else .next s

/-- ROOT_LOST (R421): three intervals without a balance frame; the selection of R407 runs again on what this node knows. -/
def execRootLost (t : Nat) (s : State) : Host.Outcome State Fault Refusal :=
  let s := s.at t
  if s.discovers = true ∧ s.ring.isRoot = false ∧ 3 ≤ s.ring.noFrame then
    let want := s.pn ND_BAL_ROOT
    let pick := if want ≠ 0 ∧ (want = s.nodeId ∨ s.ring.map.any (fun e => e.node == want) = true) then want
      else if s.gmNode = 0xFFF then s.nodeId else s.gmNode
    let s := s.modRing (fun r => { r with root := 0, noFrame := 0 })
    .next (s.setRoot pick)
  else .next s

/-! ### Contributions (R412, R413) -/

/-- The contribution c of a point over an interval (R412): register values now and at its start. -/
def contribution (sign : Nat) (now start : List Nat) : Int :=
  let f := advSum now start 0
  let r := advSum now start 1
  let c : Int := (f : Int) - r - advance now start 32 + advance now start 34 - advance now start 35
  if sign = 1 then -c else c

/-- A group's record before any point (R413). -/
def emptyGroup (g : Nat) : GroupRec := ⟨g, 0, 0, 0, 0, 0, 0⟩

/-- A group's record put among those of a node. -/
def putGroup (l : List GroupRec) (g : GroupRec) : List GroupRec :=
  if l.any (fun x => x.group == g.group) then l.map (fun x => if x.group = g.group then g else x) else l ++ [g]

/-- A group's record of a node. -/
def groupIn (l : List GroupRec) (g : Nat) : GroupRec := (l.find? (fun x => x.group == g)).getD (emptyGroup g)

/-- The node is in balance for the interval that point intervals' flags describe (R406). (log 20) -/
def State.inBalance (s : State) : Bool :=
  let r := s.ring
  s.nodeId != 0 && !r.dup && !r.tooDeep && r.placed && !(s.pts.any (fun x => x.ivl.flags.testBit flagUnaligned))

/-- Step 5 of Table 2.2: the record of the interval that begins at frame `b0`, before its intervals begin afresh. (log 20) -/
def State.postBalance (s : State) (b0 : Nat) : State :=
  let s := s.checkDepth
  let inb := s.inBalance
  let groups := points16.foldl (fun l p =>
    let g := s.pn PT_BAL_GROUP p
    let x := s.pt p
    if s.ptType p = 0 ∨ 64 ≤ g then l
    else
      let e := groupIn l g
      if x.ivl.flags.testBit flagUnaligned || x.ivl.flags.testBit flagMissing || !inb then
        putGroup l { e with absent := min (e.absent + 1) 4095 }
      else
        let c := contribution (s.pn PT_BAL_SIGN p) x.ints x.ivl.regs
        putGroup l { e with
          p := if 0 < c then satAdd 48 e.p c.toNat else e.p
          n := if c < 0 then satAdd 48 e.n (-c).toNat else e.n
          contrib := satAdd 16 e.contrib 1
          flags := e.flags ||| bitmapOf [x.ivl.flags.testBit flagSubst, x.ivl.flags.testBit flagTest] }) []
  let at' := s.clk.bdryAt
  s.modRing (fun r => { r with
    posted := some ⟨b0, groups⟩, postedIn := inb
    noFrame := if r.sawFrame then 0 else min 3 (r.noFrame + 1), sawFrame := false
    launchDue := if r.isRoot then some (at' + 2000000) else none
    retryDue := none, lateDue := if r.isRoot then some (at' + 100000000) else none
    results := r.results })

/-! ### The balance frame (R414, R415, R419) -/

/-- A field put into a frame. -/
def putField (f : Bytes) (off k n : Nat) : Bytes := f.take off ++ le k n ++ f.drop (off + k)

/-- A field raised by an amount, saturating at `bits`. -/
def addField (f : Bytes) (off k bits n : Nat) : Bytes := putField f off k (satAdd bits (fld f off k) n)

/-- The Table CRC of the node's group table (Table 17.4): kinds of one byte, tolerances of four, in PID order. (log 20) -/
def State.tableCrc (s : State) : Nat :=
  (crc32c (((List.range 64).map (fun g => byteOf (s.pn (ND_BAL_KIND_0 + g)))) ++
    (List.range 64).flatMap (fun g => le 4 (s.pn (ND_BAL_TOL_ABS_0 + g))) ++
    (List.range 64).flatMap (fun g => le 4 (s.pn (ND_BAL_TOL_PPM_0 + g))))).toNat

/-- A group's sums added in place. -/
def addGroup (f : Bytes) (g : GroupRec) : Bytes :=
  let o := 32 + 16 * g.group
  let f := addField (addField (addField f o 6 48 g.p) (o + 6) 6 48 g.n) (o + 12) 2 16 g.contrib
  let w := fld f (o + 14) 2
  putField f (o + 14) 2 (min (w % 4096 + g.absent) 4095 + (w / 4096 ||| g.flags) % 4 * 4096)

/-- The absent count of a group raised by one. (log 20) -/
def addAbsent (f : Bytes) (g : GroupRec) : Bytes := addGroup f { emptyGroup g.group with absent := 1 }

/-- One report placed (R419): on its slot, in the first empty slot, or nowhere. -/
def placeFault (rep : Bytes) (f : Bytes) : Nat → Nat → Bytes × Bool
  | 0, _ => (addField f 18 2 16 1, false)
  | k + 1, i =>
    let o := 1312 + 8 * i
    if fld f o 2 / 4096 = 0 then (f.take o ++ padTo 8 rep ++ f.drop (o + 8), true)
    else if fld f o 2 = fld rep 0 2 then (putField f (o + 4) 2 (min (fld f (o + 4) 2 % 4096 + 1) 4095), true)
    else placeFault rep f k (i + 1)

/-- Up to four reports placed, oldest first; those without a slot wait. -/
def placeFaults : Nat → List Bytes → Bytes → Bytes × List Bytes
  | 0, q, f => (f, q)
  | _ + 1, [], f => (f, [])
  | k + 1, r :: q, f =>
    let x := placeFault r f 16 0
    let y := placeFaults k q x.1
    (y.1, if x.2 then y.2 else r :: y.2)

/-- Local points in a group. -/
def State.groupPoints (s : State) (g : Nat) : List Nat :=
  points16.filter (fun p => s.ptType p != 0 && s.pn PT_BAL_GROUP p == g)

/-- The conditions of classes 7 and 8, each reported at its rising edge (R415, R419). -/
def State.reportMismatch (s : State) (crc ival : Bool) : State :=
  let s' := if crc && !s.ring.crcBad then s.queueFault 7 s.nodeId (s.tableCrc % 65536) else s
  let s' := if ival && !s.ring.ivalBad then s'.queueFault 8 s.nodeId 0 else s'
  s'.modRing (fun r => { r with crcBad := crc, ivalBad := ival })

/-- The groups of a node's record, or one absent in each group that its points belong to (R415). -/
def State.addGroups (s : State) (fits : Bool) (f : Bytes) : Bytes :=
  if fits then (match s.ring.posted with | some r => r.groups.foldl addGroup f | none => f)
  else ((List.range 64).filter (fun g => !(s.groupPoints g).isEmpty)).foldl (fun f g => addAbsent f (emptyGroup g)) f

/-- The node's record and reports added to a passing frame (R414, R415, R419). A node whose Capo is stopped holds an old
record, and counts as visited only where that record fits. -/
def State.addOwn (s : State) (f : Bytes) : State × Bytes :=
  let okI := match s.ring.posted with | some r => fld f 4 6 == r.interval % 2 ^ 48 | none => false
  let okC := fld f 20 4 == s.tableCrc
  let f := if s.ring.postedIn && (okI || s.pwr.capoOn && !s.pwr.capoReset) then addField f 16 2 16 1 else f
  let f := s.addGroups (okI && okC) f
  let s := s.reportMismatch (!okC) (!okI)
  let x := placeFaults 4 s.ring.faults f
  (s.modRing (fun r => { r with faults := x.2 }), x.1)

/-- The results in a frame read (R418, Table 17.11): BALANCE_DEVIATION at every change of bit 1 of an own group. -/
def State.readResults (s : State) (f : Bytes) : State :=
  (List.range 64).foldl (fun s g =>
    let pts := s.groupPoints g
    let w := fld f (1056 + 4 * g) 4
    let beyond := w.testBit 1
    if pts.isEmpty || beyond == s.ring.overSeen.contains g then s
    else
      (s.modRing (fun r => { r with overSeen := if beyond then r.overSeen ++ [g] else r.overSeen.filter (· != g) })).raise 15 g
        ([byteOf g, byteOf (b2n !beyond)] ++ le 2 (mapOf 16 pts) ++ leI 4 (signed 24 (w / 256)) ++ le 8 (fld f 10 6) ++
          [byteOf w, byteOf (s.pn ND_BAL_RUN)])) s

/-- The port towards the tour successor: the neighbour's, else an uplink, else LKA (R409). -/
def State.tourPort (s : State) : Nat :=
  let r := s.ring
  if r.successor ≠ 0 ∧ r.successor = r.nbrA then 0
  else if r.successor ≠ 0 ∧ r.successor = r.nbrB then 1
  else if s.lineRole 1 = 2 then 1 else 0

/-- The frame of the posted interval as the root launches it. -/
def State.launchFrame (s : State) (copy : Nat) : Bytes :=
  let i := match s.ring.posted with | some r => r.interval | none => 0
  let res := (List.range 64).flatMap (fun g => le 4 (groupIn s.ring.results g).result)
  [1, byteOf copy] ++ le 2 s.nodeId ++ le 6 i ++ le 6 s.ring.resInterval ++ zeros 4 ++ le 4 s.tableCrc ++ zeros 8 ++
    zeros 1024 ++ res ++ zeros 128

/-- A copy is launched with the root's own record added (R416). -/
def State.launch (s : State) (copy : Nat) : State :=
  let f := s.launchFrame copy
  let x := (s.readResults f).addOwn f
  x.1.sendOn [x.1.tourPort] 7 x.2

/-- BALANCE_FRAME_LAUNCH (R416). -/
def execBalanceFrameLaunch (t : Nat) (s : State) : Host.Outcome State Fault Refusal :=
  let s := s.at t
  if s.ring.isRoot = true ∧ ripeAt s.ring.launchDue t = true then
    let due := s.ring.launchDue.getD t
    let s := s.modRing (fun r => { r with
      launchDue := none, awaiting := true, launchedAt := t, retryDue := some (due + s.pn ND_BAL_RETRY * 1000000) })
    .next (s.launch 0)
  else .next s

/-- BALANCE_RETRY (R416). -/
def execBalanceRetry (t : Nat) (s : State) : Host.Outcome State Fault Refusal :=
  let s := s.at t
  if s.ring.isRoot = true ∧ s.ring.awaiting = true ∧ ripeAt s.ring.retryDue t = true then
    .next ((s.modRing (fun r => { r with retryDue := none })).launch 1)
  else .next s

/-- A frame that has the balance frame's form (Table 17.4). -/
def isBalanceFrame (f : Bytes) : Bool := f.length == 1440 && fld f 0 1 == 1

/-- BALANCE_FRAME_PASS (R414, R415, R418, R419): a node other than the root adds in place and sends the frame on. -/
def execBalanceFramePass (t : Nat) (frame : Bytes) (s : State) : Host.Outcome State Fault Refusal :=
  let s := s.at t
  if isBalanceFrame frame = true ∧ s.pwr.coreOn = true ∧ s.ring.isRoot = false then
    let x := (s.readResults frame).addOwn frame
    let s := x.1.modRing (fun r => { r with sawFrame := true })
    .next (s.sendOn [s.tourPort] 7 x.2)
  else .next s

/-! ### Judging (R417, R418, R420) -/

/-- The run of a group after a judged interval (R417). -/
def runStep (need : Nat) (outside : Bool) (r : GroupRun) : GroupRun :=
  let k := if r.outside = outside then r.run + 1 else 1
  if need ≤ k then { r with outside := outside, run := need, isOver := outside }
  else { r with outside := outside, run := k }

/-- One group of a returned copy judged: its record with the result, and its run. (log 20) -/
def State.judge (s : State) (complete : Bool) (f : Bytes) (g : Nat) : GroupRec × GroupRun :=
  let o := 32 + 16 * g
  let p := fld f o 6
  let n := fld f (o + 6) 6
  let c := fld f (o + 12) 2
  let w := fld f (o + 14) 2
  let old := (s.ring.runs.find? (fun r => r.group == g)).getD ⟨g, false, 0, false⟩
  let judged := complete && w % 4096 == 0 && 1 ≤ c
  let d : Int := (p : Int) - n
  let m := max p n
  let outside := decide (s.pn (ND_BAL_TOL_ABS_0 + g) * 1000000 + s.pn (ND_BAL_TOL_PPM_0 + g) * m < d.natAbs * 1000000)
  let r := if judged then runStep (s.pn ND_BAL_RUN) outside old else old
  let imb := if m = 0 then 0 else clipI 24 (divHalfAway (d * 1000000) m)
  let status := bitmapOf [judged, r.isOver, !judged, w.testBit 12, w.testBit 13]
  (⟨g, p, n, c, w % 4096, w / 4096 % 4, (imb % 16777216).toNat * 256 + status⟩, r)

/-- Groups in use (R424). -/
def State.usedGroups (s : State) : List Nat := (List.range 64).filter (fun g => s.pn (ND_BAL_KIND_0 + g) != 0)

/-- Results kept for the next frame and among the last 16 intervals (R418). -/
def State.keepResults (s : State) (l : List (GroupRec × GroupRun)) (interval : Nat) : State :=
  let rs := l.map (·.1)
  s.modRing (fun r => { r with
    awaiting := false, retryDue := none, lateDue := none
    runs := l.map (·.2), results := rs, resInterval := interval, history := (⟨interval, rs⟩ :: r.history).take 16 })

/-- RING_FAULT_COALESCED for each filled slot (R420, Table 17.10). -/
def State.coalesced (s : State) (f : Bytes) : State :=
  (List.range 16).foldl (fun s i =>
    let o := 1312 + 8 * i
    let w := fld f o 2
    if w / 4096 = 0 then s
    else s.raise 14 0 (le 2 (w % 4096) ++ [byteOf (w / 4096), byteOf i] ++ le 2 (fld f (o + 2) 2 % 4096) ++
      le 2 (fld f (o + 4) 2 % 4096) ++ le 8 (fld f 4 6) ++ le 2 (fld f (o + 6) 2) ++ le 2 (fld f 18 2))) s

/-- BALANCE_FRAME_RETURN (R417, R420): the first copy of the launched interval is judged. -/
def execBalanceFrameReturn (t : Nat) (frame : Bytes) (s : State) : Host.Outcome State Fault Refusal :=
  let s := s.at t
  match s.ring.posted with
  | some r =>
    if isBalanceFrame frame = true ∧ s.ring.isRoot = true ∧ s.ring.awaiting = true ∧ fld frame 4 6 = r.interval % 2 ^ 48 ∧
        t ≤ s.ring.lateDue.getD t then
      let complete := fld frame 16 2 == s.ring.inBal
      let l := s.usedGroups.map (s.judge complete frame)
      let s := (s.keepResults l r.interval).modRing (fun x => { x with sawFrame := true, tour := (t - x.launchedAt) / 1000 })
      .next (s.coalesced frame)
    else .next s
  | none => .next s

/-- BALANCE_RETURN_LATE (R417): the interval is judged for no group. (log 20) -/
def execBalanceReturnLate (t : Nat) (s : State) : Host.Outcome State Fault Refusal :=
  let s := s.at t
  if s.ring.isRoot = true ∧ s.ring.awaiting = true ∧ ripeAt s.ring.lateDue t = true then
    let i := match s.ring.posted with | some r => r.interval | none => 0
    let l := s.usedGroups.map (fun g =>
      let old := (s.ring.runs.find? (fun r => r.group == g)).getD ⟨g, false, 0, false⟩
      ({ emptyGroup g with result := bitmapOf [false, old.isOver, true] }, old))
    .next ((s.keepResults l i).topology 9 0xFF 0)
  else .next s

/-! ### Host commands -/

/-- balance-results (R418, Table 20.6): the last 16 intervals of a group, newest first. -/
def serveBalanceResults (p : Bytes) (s : State) : Ans :=
  let g := fld p 0 1
  if p.length ≠ 1 then refuse s 2
  else if 64 ≤ g then refuse s 5
  else
    let entry (r : BalRec) : Bytes :=
      let x := groupIn r.groups g
      le 8 r.interval ++ le 6 x.p ++ le 6 x.n ++ le 2 x.contrib ++ le 2 (x.absent + x.flags * 4096) ++ le 4 x.result
    okParts s (packParts (s.ring.history.map entry ++ List.replicate (16 - s.ring.history.length) (zeros 28)) [] [])

/-- BALANCE_RESULTS. -/
def execBalanceResults (h : Hdr) (p : Bytes) (s : State) : Host.Outcome State Fault Refusal :=
  hostCmd 0x0706 h p serveBalanceResults s

/-- ring-map (R408, Table 20.6). -/
def serveRingMap : Bytes → State → Ans := noPayload (fun s =>
  okParts s (packParts (s.ring.map.map (fun e =>
      Config.discoveryEntry [e.node, e.hops, e.port, e.roleA, e.roleB, b2n e.deep, b2n e.unaligned]))
    (le 2 s.ring.root ++ le 2 s.ring.inBal) []))

/-- RING_MAP. -/
def execRingMap (h : Hdr) (p : Bytes) (s : State) : Host.Outcome State Fault Refusal := hostCmd 0x0707 h p serveRingMap s

end Sys2Proof.Machine
end

