-- ==== Sys2Proof/Machine/Schedule.lean ====
section
/-!
DEFINITION. The fret schedule (02 R49–R51, R60, R61): what each fret costs, the costliest frame, the cut-off, and what an
abandoned fret or a parity error (01 R32) marks invalid.
-/

namespace Sys2Proof.Machine

/-! ### Costs -/

/-- The rows of Tables 2.4 and 2.5, four modes each: fret 0, standard, wideband, SETTLE, course standard, course SETTLE,
fret 145, fret 146; AC_OUTLET and FEEDER, DC_OUTLET, STEAM, AIR, WATER, HEAT; then the six bursts. -/
def defaultCosts : List Nat :=
  [1200, 1200, 1200, 1200, 520, 0, 505, 240, 0, 0, 745, 0, 150, 0, 150, 150, 0, 975, 0, 0, 0, 290, 0, 0,
   1392, 1392, 1692, 1392, 0, 1228, 0, 0] ++
  [823, 700, 873, 429, 610, 540, 640, 350, 520, 520, 520, 520, 410, 410, 410, 410, 430, 430, 430, 430, 470, 470, 470, 470] ++
  [0, 0, 2900, 400, 1100, 2000]

/-- The cost table of the running microcode (R49, 21 R485). (log 45) -/
def State.costs (s : State) : List Nat := if s.fw.costs.isEmpty then defaultCosts else s.fw.costs

/-- The cost of a row in a mode. -/
def rowCost (l : List Nat) (row mode : Nat) : Nat := l.getD (4 * row + mode) 0

/-- Row of a point type, from the first point row. -/
def typeRow (ty : Nat) : Nat := [0, 0, 1, 0, 2, 3, 4, 5].getD ty 0

/-- Cost of channel fret c+1 in a mode (R49): 0 without a filter and for channel 2j+1 in COURSED mode. -/
def State.chanCost (s : State) (mode c : Nat) : Nat :=
  let f := s.pn CH_FILTER c
  let l := s.costs
  if f = 0 then 0
  else if mode = 1 then (if c % 2 = 1 then 0 else if f = 2 then rowCost l 5 1 else rowCost l 4 1)
  else if f = 2 then rowCost l 3 mode
  else if mode = 2 ∧ s.pb CH_WIDEBAND c = true then rowCost l 2 2
  else rowCost l 1 mode

/-- Base cost of the fret of point `p` in a mode. -/
def State.pointCost (s : State) (mode p : Nat) : Nat :=
  if s.ptType p = 0 then 0 else rowCost s.costs (8 + typeRow (s.ptType p)) mode

/-- Burst of point `p` (R50). -/
def State.burstCost (s : State) (p : Nat) : Nat :=
  if s.ptType p = 0 then 0 else s.costs.getD (56 + typeRow (s.ptType p)) 0

/-- Cost of fret `f` in the schedule that processes frame `n`. -/
def State.fretCost (s : State) (mode n f : Nat) : Nat :=
  if f = 0 then rowCost s.costs 0 mode
  else if f ≤ 128 then s.chanCost mode (f - 1)
  else if f ≤ 144 then s.pointCost mode (f - 129) + (if n % 16 = f - 129 then s.burstCost (f - 129) else 0)
  else if f = 145 then rowCost s.costs 6 mode
  else rowCost s.costs 7 mode

/-- Cost of the costliest frame (R50, R51). -/
def State.costliest (s : State) (mode : Nat) : Nat :=
  let chans := (List.range 128).foldl (fun a c => a + s.chanCost mode c) 0
  let pts := points16.foldl (fun a p => a + s.pointCost mode p) 0
  let burst := points16.foldl (fun a p => max a (s.burstCost p)) 0
  rowCost s.costs 0 mode + chans + pts + burst + rowCost s.costs 6 mode + rowCost s.costs 7 mode

/-! ### The cut-off (R60) -/

/-- Cycles that the test window adds to fret `f` (23 R523). -/
def stretchOf (r : List (BitVec 32)) (f : Nat) : Nat :=
  r.foldl (fun a w =>
    let n := w.toNat
    if n.testBit 31 && n / 2 ^ 12 % 256 == f then a + n % 4096 else a) 0

/-- Cycles that hardware faults take from fret `f`. -/
def stallOf (l : List (Nat × Nat)) (f : Nat) : Nat := l.foldl (fun a x => if x.1 = f then a + x.2 else a) 0

/-- The first fret of `k`, `k` steps on, that has work, or cycles that a stretch or a fault takes, and has not completed at the limit. `done` counts the cycles before
it. -/
def findCut (cost extra : Nat → Nat) (limit : Nat) : Nat → Nat → Nat → Option Nat
  | 0, _, _ => none
  | k + 1, f, done =>
    if cost f = 0 ∧ extra f = 0 then findCut cost extra limit k (f + 1) done
    else
      let stop := done + cost f + extra f
      if limit < stop then some f else findCut cost extra limit k (f + 1) stop

/-- The cut-off of the schedule that processes frame `n`: the abandoned fret, the cycle count of the cut-off, and the test
stretch in the schedule (R60, Table 19.10). -/
def State.cutOff (g : State) (n : Nat) (stalls : List (Nat × Nat)) : Option (Nat × Nat × Nat) :=
  let r := g.test.eff.stretch
  let extra (f : Nat) := stretchOf r f + stallOf stalls f
  let limit := 98000 - g.fretCost g.eng.mode n 145 - stretchOf r 145
  (findCut (g.fretCost g.eng.mode n) extra limit 144 1 (g.fretCost g.eng.mode n 0 + extra 0)).map
    (fun f => (f, limit, r.foldl (fun a w => if w.toNat.testBit 31 then a + w.toNat % 4096 else a) 0))

/-! ### What is invalid -/

/-- Channel `c` is invalid in a frame with an abandoned fret (R61) or frets with parity errors (01 R32). -/
def chanInvalid (cut : Option Nat) (parity : List Nat) (c : Nat) : Bool :=
  (match cut with | some f => f ≤ c + 1 | none => false) || parity.contains 0 || parity.contains (c + 1)

/-- Point `p` is invalid; 147 stands for an error in the hand-over block. `aux` says which channels are auxiliary (R27). -/
def pointInvalid (cut : Option Nat) (parity : List Nat) (aux : Nat → Bool) (p : Nat) : Bool :=
  (match cut with | some f => f ≤ 129 + p | none => false) || parity.contains 0 || parity.contains (129 + p) ||
    parity.contains 145 || parity.contains 147 || (List.range 8).any (fun k => parity.contains (8 * p + k + 1) && !(aux (8 * p + k)))

end Sys2Proof.Machine
end

