-- ==== Sys2Proof/Machine/SafetyFn.lean ====
section
/-!
DEFINITION. Safety functions (15): dual inputs, discrepancy, safety messages, seals, and their host commands.
-/

namespace Sys2Proof.Machine

/-! ### Dual inputs -/

/-- Mode of dual input `k` as it acts (Table 15.1); an input of a point of type NONE acts on nothing (R27). -/
def State.siMode (s : State) (k : Nat) : Nat :=
  if s.ptType (k / 2) = 0 then 0 else s.pn (PT_SI_MODE_0 + k % 2) (k / 2)

/-- Channel A in demand (Table 15.1). -/
def State.demandA (s : State) (k : Nat) : Bool := s.siMode k != 0 && (s.safIn k).a == some false

/-- Channel B in demand (Table 15.1). -/
def State.demandB (s : State) (k : Nat) : Bool :=
  (s.siMode k == 1 && (s.safIn k).b == some false) || (s.siMode k == 2 && (s.safIn k).b == some true)

/-- The switches named by PT_SI_ACT of input `k`. -/
def State.siSwitches (s : State) (k : Nat) : List Nat :=
  (bitsOf 2 (s.pn (PT_SI_ACT_0 + k % 2) (k / 2))).map (fun b => 2 * (k / 2) + b)

/-- The switches of PT_SAFE_REMOTE_SW of a point. -/
def State.remoteSwitches (s : State) (p : Nat) : List Nat :=
  if s.ptType p = 0 then [] else (bitsOf 2 (s.pn PT_SAFE_REMOTE_SW p)).map (fun b => 2 * p + b)

/-- Bitmap of switch channels. -/
def chMap (l : List Nat) : Nat := mapOf 32 l

/-- Raise SAFETY_DEMAND (Table 15.8). -/
def State.demandEvent (s : State) (source input edge chans points switches identity : Nat) : State :=
  s.raise 41 0 ([byteOf source, byteOf input, byteOf edge, byteOf chans] ++ le 2 points ++ zeros 2 ++
    le 8 s.frm ++ le 4 switches ++ le 4 identity)

/-- SAFETY_DEMAND for dual input `k`. -/
def State.inputDemand (s : State) (k edge : Nat) : State :=
  s.demandEvent 0 k edge (b2n (s.demandA k) + 2 * b2n (s.demandB k)) (2 ^ (k / 2)) (chMap (s.siSwitches k)) 0

/-- Restart code of input `k` (R360). -/
def State.siRestart (s : State) (k : Nat) : Nat := s.pn (PT_SI_RESTART_0 + k % 2) (k / 2)

/-- The rank-1 latch of input `k` released, with edge released (R360). -/
def State.releaseInput (s : State) (k : Nat) : State :=
  ((s.releaseSi k).modSafIn k (fun x => { x with trip := false, autoDue := none })).inputDemand k 2

/-- Raise SAFETY_DISCREPANCY (Table 15.9). -/
def State.discEvent (s : State) (k edge samples : Nat) : State :=
  s.raise 39 k ([byteOf k, byteOf (k / 2), byteOf edge, byteOf (s.safIn k).first] ++
    le 2 (s.pn (PT_SI_TD_0 + k % 2) (k / 2)) ++ [byteOf (s.siMode k), 0] ++ le 8 s.frm ++ le 4 samples)

/-- An input that acts on nothing has no latch, no demand and no hold (R357, R27): what stood ends, with its events. (log 36) -/
def State.clearInput (s : State) (k : Nat) : State :=
  let x := s.safIn k
  let s := s.modSafIn k (fun x => { x with latched := false, cycle := 0, disFrom := none, demand := false })
  let s := if x.latched then s.discEvent k 1 (10 * s.pn (PT_SI_TD_0 + k % 2) (k / 2) + 1) else s
  let s := if x.demand then s.inputDemand k 1 else s
  (if x.trip then s.releaseInput k else s.releaseSi k).release4 k

/-- The demand of input `k` starts, goes on or ends, as its channels and its latch now stand (R358, R360). First levels without
a demand after a core-die reset leave no hold of the input (R358). (log 36) -/
def State.settleInput (s : State) (k : Nat) : State :=
  let x := s.safIn k
  let any := s.demandA k || s.demandB k
  if s.siMode k = 0 then s.clearInput k
  else if any then
    let s := if x.latched then s else s.release4 k
    let s := s.modSafIn k (fun x => { x with demand := true, trip := true, autoDue := none })
    let s := (s.siSwitches k).foldl (fun s n => s.holdSi k n) s
    if x.demand then s else (s.inputDemand k 0).addCause (k / 2) 14
  else if x.demand && !x.latched then
    let s := s.modSafIn k (fun x => { x with
      demand := false, autoDue := if s.siRestart k = 1 then some (s.clk.up + 100000000) else none })
    s.inputDemand k 1
  else if !x.trip && !x.latched && x.a.isSome && x.b.isSome then (s.releaseSi k).release4 k
  else s

/-- The disagreement run and the cycle of R362 after a change of a filtered level at `t`. (log 36) -/
def State.runInput (s : State) (k t : Nat) : State :=
  let a := s.demandA k
  let b := s.demandB k
  let both := (s.safIn k).a.isSome && (s.safIn k).b.isSome
  let td := s.pn (PT_SI_TD_0 + k % 2) (k / 2)
  s.modSafIn k (fun x =>
    let x := if both && a != b then
        (match x.disFrom with | some _ => x | none => { x with disFrom := some t, first := if a then 0 else 1 })
      else { x with disFrom := none }
    if !x.latched then x
    else if a && b then { x with cycle := if x.cycle = 3 then 3 else 1 }
    else if a != b then (if x.cycle = 1 then { x with cycle := 2, cycleAt := t } else x)
    else if x.cycle = 2 then { x with cycle := if t - x.cycleAt ≤ td * 1000000 then 3 else 0 }
    else if x.cycle = 1 then { x with cycle := 3 }
    else x)

/-- SI_LEVEL_CHANGE (R356–R361): the filtered level follows after PT_SI_FILTER equal samples, all of them after the Capo has loaded
the safety parameters; a channel entering demand
forces the switches of PT_SI_ACT at rank 1. (log 36) -/
def execSiLevelChange (t k : Nat) (chanB level : Bool) (n : Nat) (s : State) : Host.Outcome State Fault Refusal :=
  let s := (s.at t).modSaf (fun x => { x with lands := putBit x.lands (2 * k + b2n chanB) level })
  let need := s.pn (PT_SI_FILTER_0 + k % 2) (k / 2)
  if 32 ≤ k ∨ !s.saf.live ∨ n < need ∨ t < s.saf.liveAt + (need - 1) * 100000 then .next s
  else
    let s := s.modSafIn k (fun x => if chanB then { x with b := some level } else { x with a := some level })
    .next ((s.runInput k t).settleInput k)

/-- SAFETY_DISCREPANCY_LATCH (R361, R362): a run of 10 × T_d + 1 samples. -/
def execSafetyDiscrepancyLatch (t k : Nat) (s : State) : Host.Outcome State Fault Refusal :=
  let s := s.at t
  let td := s.pn (PT_SI_TD_0 + k % 2) (k / 2)
  if !(s.safIn k).latched && ripeAt ((s.safIn k).disFrom.map (· + td * 1000000)) t then
    let s := s.modSafIn k (fun x => { x with latched := true, demand := true, cycle := 0 })
    let s := (s.siSwitches k).foldl (fun s n => s.hold4 k n) s
    .next ((s.discEvent k 0 (10 * td + 1)).addCause (k / 2) 15)
  else .next s

/-! ### Safety messages -/

/-- ND_SC_CONF_i. -/
def State.scConf (s : State) (i : Nat) : Nat := s.pn (ND_SC_CONF_0 + i)

/-- Entry `i` is a valid consumer. -/
def State.isConsumer (s : State) (i : Nat) : Bool :=
  i < 16 && (s.scConf i).testBit 31 && !(s.scConf i).testBit 30

/-- Entry `i` is a valid producer. -/
def State.isProducer (s : State) (i : Nat) : Bool :=
  i < 16 && (s.scConf i).testBit 31 && (s.scConf i).testBit 30

/-- Kind of a connection as messages carry it: 1 site stop, 2 point stop (Table 15.2, R381). -/
def scKind (conf : Nat) : Nat := if conf / 2 ^ 28 % 4 = 0 then 1 else 2

/-- Identity of a connection (R363); a producer's own node ID stands in a producer entry's place. -/
def State.scIdentity (s : State) (i : Nat) : Nat :=
  let c := s.scConf i
  (if c.testBit 30 then s.nodeId else c / 2 ^ 16 % 4096) * 65536 + c % 65536

/-- CRC of a safety message over the identity and bytes 0–11 (R364). -/
def scCrc (identity : Nat) (msg : Bytes) : Nat := (crc32c (le 4 identity ++ msg.take 12)).toNat

/-- Hold the switches of PT_SAFE_REMOTE_SW of each point of a list at rank 4. -/
def State.holdPoints (s : State) (src : Nat) (pts : List Nat) : State :=
  pts.foldl (fun s p => (s.remoteSwitches p).foldl (fun s n => s.hold4 src n) s) s

/-- Release a rank-4 source on the switches of the points of a list. -/
def State.freePoints (s : State) (src : Nat) (pts : List Nat) : State :=
  pts.foldl (fun s p => [2 * p, 2 * p + 1].foldl (fun s n => s.orderDie (.free src n)) s) s

/-- Every switch of the points of a list. -/
def State.switchesOf (s : State) (pts : List Nat) : Nat := chMap (pts.flatMap s.remoteSwitches)

/-- ND_SC_POINTS_i as a list. -/
def State.scPoints (s : State) (i : Nat) : List Nat := bitsOf 16 (s.pn (ND_SC_POINTS_0 + i))

/-- A point takes a cause. -/
def State.causeAll (s : State) (pts : List Nat) (c : Nat) : State := pts.foldl (fun s p => s.addCause p c) s

/-- Raise SAFETY_MESSAGE_FAULT (Table 15.10). -/
def State.msgFaultEvent (s : State) (i cause edge recv elapsed : Nat) : State :=
  let e := s.scEntry i
  s.raise 40 i ([byteOf i, byteOf cause, byteOf edge, 0] ++ le 4 (s.scIdentity i) ++ le 8 s.frm ++
    le 2 (e.last.getD 0) ++ le 2 recv ++ le 2 (min elapsed 65535) ++ le 2 (mapOf 16 (s.scPoints i)) ++ le 4 e.lost)

/-- Milliseconds since the last accepted message. -/
def State.scElapsed (s : State) (i : Nat) : Nat := (s.clk.up - (s.scEntry i).lastAt) / 1000000

/-- Entry `i` faults (R367, Table 15.3): its points are held and stop with SAFETY_MESSAGE_FAULT. In FAULTED, a fault only
restarts the good time of R369. (log 36) -/
def State.faultEntry (s : State) (i cause recv : Nat) : State :=
  if (s.scEntry i).state = 2 then s.modScEntry i (fun e => { e with goodFrom := none })
  else
    let s := (s.modScEntry i (fun e => { e with state := 2, goodFrom := none })).holdPoints (32 + i) (s.scPoints i)
    ((s.msgFaultEvent i cause 0 recv (if cause = 0 ∨ (s.scEntry i).last.isSome then s.scElapsed i else 0)).causeAll
      (s.scPoints i) 16).queueFault 3 (s.scConf i / 2 ^ 16 % 4096) i

/-- The points a demand of entry `i` affects (Table 15.4). -/
def State.demandPoints (s : State) (i mask : Nat) : List Nat :=
  let m := if scKind (s.scConf i) = 1 then s.pn ND_SITE_STOP_POINTS else mask
  (s.scPoints i).filter (fun p => m.testBit p)

/-- The demand of entry `i` as its last accepted message leaves it, in RUNNING (Table 15.4, R369). -/
def State.settleEntry (s : State) (i : Nat) (was : Bool) : State :=
  let e := s.scEntry i
  let src := scKind (s.scConf i)
  if e.demand then
    let pts := s.demandPoints i e.mask
    let s := s.holdPoints (48 + i) pts
    let s := s.modScEntry i (fun e => { e with
      held := e.held ++ pts.filter (fun p => !e.held.contains p), autoDue := none, ended := false })
    if was then s.causeAll (pts.filter (fun p => !e.held.contains p)) 14
    else (s.demandEvent src 0xFF 0 0 (mapOf 16 pts) (s.switchesOf pts) (s.scIdentity i)).causeAll pts 14
  else if was then
    let s := s.modScEntry i (fun e => { e with ended := true, autoDue := some (s.clk.up + 100000000) })
    s.demandEvent src 0xFF 1 0 (mapOf 16 e.held) (s.switchesOf e.held) (s.scIdentity i)
  else s

/-- A demand received by message released for the points whose dual input 2q has restart code `code` (R369). (log 36) -/
def State.releaseEntry (s : State) (i code : Nat) : State :=
  let e := s.scEntry i
  let go := e.held.filter (fun p => s.siRestart (2 * p) == code)
  if go.isEmpty then s.modScEntry i (fun e => { e with autoDue := none })
  else
  let s := (s.freePoints (48 + i) go).modScEntry i (fun e => { e with
    held := e.held.filter (fun p => !go.contains p), autoDue := none })
  s.demandEvent (scKind (s.scConf i)) 0xFF 2 0 (mapOf 16 go) (s.switchesOf go) (s.scIdentity i)

/-- Bytes of a safety message (Table 15.2). -/
def scMessage (identity seq kind flags mask frame : Nat) : Bytes :=
  let b := le 2 seq ++ [byteOf kind, byteOf flags] ++ le 2 mask ++ le 2 1 ++ le 4 frame
  b ++ le 4 (scCrc identity b)

/-- The demand bit of a producer entry (R365). -/
def State.producerDemand (s : State) (i : Nat) : Bool :=
  (bitsOf 32 (s.pn (ND_SC_SOURCES_0 + i))).any (fun k => (s.safIn k).demand || (s.safIn k).latched) ||
    (scKind (s.scConf i) == 1 && s.saf.ownStop)

/-- A message of one entry passes the test window's safety perturbation (R523): the message to go on with, or none when
it is dropped or held; the count runs down (R522). -/
def State.perturb (s : State) (i : Nat) (msg : Bytes) : Option Bytes × State :=
  let e := s.test.eff
  if e.safAction = 0 ∨ e.safEntry.toNat ≠ i then (some msg, s)
  else
    let r := s.test.regs
    let s' := if e.safCount = 0 then s
      else if e.safCount = 1 then s.setTest { r with safCount := 0, safAction := 0 } 5
      else (s.setTest { r with safCount := e.safCount - 1 } 5).modTest
        (fun x => { x with eff := { x.eff with safCount := e.safCount - 1 } })
    if e.safAction = 1 then (none, s')
    else if e.safAction = 2 then (some (msg.take 12 ++ le 4 (Nat.xor (fld msg 12 4) 1) ++ msg.drop 16), s')
    else if s'.test.held.length < 16 then
      (none, s'.modTest (fun x => { x with held := x.held ++ [(i, s'.clk.up + e.safDelay.toNat * 1000000, msg)] }))
    else (none, s')

/-- A later message waits behind those a delay holds (R524). (log 36) -/
def State.behindDelay (s : State) (i : Nat) : Bool :=
  s.test.eff.safAction != 3 && s.test.held.any (fun x => x.1 == i)

/-- SAFETY_MESSAGE_SEND (R365, R523): at the send period, or in the next frame after the demand bit changes. -/
def execSafetyMessageSend (t i : Nat) (s : State) : Host.Outcome State Fault Refusal :=
  let s := s.at t
  let e := s.scEntry i
  let dem := s.producerDemand i
  if s.isProducer i && s.saf.live && s.pwr.capoOn && !s.pwr.capoReset && (ripeAt e.sendDue t || dem != e.sentDemand) then
    let kind := scKind (s.scConf i)
    let msg := scMessage (s.scIdentity i) e.seq kind (b2n dem + 2 * b2n s.sw.failsafe + 4 * b2n s.testing)
      (if kind = 2 then s.pn (ND_SC_POINTS_0 + i) else 0) (s.frm % 2 ^ 32)
    let s := s.modScEntry i (fun e => { e with
      seq := wrapInc 16 e.seq, sentDemand := dem, sendDue := some (t + s.pn (ND_SC_TIME_0 + i) * 1000000), sent := [] })
    if s.behindDelay i then
      .next (s.modTest (fun x => { x with held := if x.held.length < 16 then x.held ++ [(i, t, msg)] else x.held }))
    else
      let r := s.perturb i msg
      match r.1 with
      | some m => .next (r.2.modScEntry i (fun e => { e with sent := [m] }))
      | none => .next r.2
  else .next s

/-- A consumer's checks in the order of Table 15.3 and what follows (R366, R368). (log 36) -/
def State.consume (s : State) (i : Nat) (msg : Bytes) : State :=
  let e := s.scEntry i
  let seq := fld msg 0 2
  let d := match e.last with | some l => (seq + 65536 - l) % 65536 | none => 1
  if msg.length ≠ 16 ∨ fld msg 6 2 ≠ 1 then s.faultEntry i 3 (if msg.length = 16 then seq else 0)
  else if fld msg 12 4 ≠ scCrc (s.scIdentity i) msg then s.faultEntry i 1 seq
  else if fld msg 2 1 ≠ scKind (s.scConf i) then s.faultEntry i 3 seq
  else if d = 0 ∨ 0x8000 ≤ d then s.modScEntry i (fun e => { e with discarded := inc32 e.discarded })
  else if 5 ≤ d then s.faultEntry i 2 seq
  else
    let dem := (fld msg 3 1).testBit 0
    let s := s.modScEntry i (fun e => { e with
      last := some seq, lastAt := s.clk.up, demand := dem, mask := fld msg 4 2, lost := satAdd 32 e.lost (d - 1)
      goodFrom := match e.goodFrom with | some g => some g | none => some s.clk.up })
    if e.state = 2 then s
    else
      let s := if e.state = 0 then (s.modScEntry i (fun e => { e with state := 1 })).freePoints (32 + i) (s.scPoints i) else s
      s.settleEntry i (e.state = 1 && e.demand)

/-- SAFETY_MESSAGE_RECEIVED (R366, R523). -/
def execSafetyMessageReceived (t i : Nat) (msg : Bytes) (s : State) : Host.Outcome State Fault Refusal :=
  let s := s.at t
  if !(s.isConsumer i && s.saf.live && s.pwr.capoOn && !s.pwr.capoReset) then .next s
  else if s.behindDelay i then
    .next (s.modTest (fun x => { x with held := if x.held.length < 16 then x.held ++ [(i, t, msg)] else x.held }))
  else
    let r := s.perturb i msg
    match r.1 with
    | some m => .next (r.2.consume i m)
    | none => .next r.2

/-- TEST_SAFETY_DELAY_RELEASE (R523, R524): the first held message goes on at its due time. -/
def execTestSafetyDelayRelease (t : Nat) (s : State) : Host.Outcome State Fault Refusal :=
  let s := s.at t
  match s.test.held with
  | (i, due, msg) :: rest =>
    if due ≤ t then
      let s := s.modTest (fun x => { x with held := rest })
      if s.isProducer i then .next (s.modScEntry i (fun e => { e with sent := [msg] }))
      else if s.isConsumer i then .next (s.consume i msg)
      else .next s
    else .next s
  | [] => .next s

/-- SAFETY_TIME_EXPECTATION_EXPIRY (R367): the timer exceeds ND_SC_TIME in RUNNING, or in FAULTED while good messages
run (R369). -/
def execSafetyTimeExpectationExpiry (t i : Nat) (s : State) : Host.Outcome State Fault Refusal :=
  let s := s.at t
  let e := s.scEntry i
  if s.isConsumer i && s.pwr.capoOn && (e.state = 1 || (e.state = 2 && e.goodFrom.isSome)) && e.lastAt + s.pn (ND_SC_TIME_0 + i) * 1000000 < t then
    .next (s.faultEntry i 0 0)
  else .next s

/-- A consumer entry starts, or starts again after a change of its configuration, in WAITING: its points are held and
nothing is raised (R368). -/
def State.startEntry (s : State) (i : Nat) : State :=
  let s := (s.release4 (32 + i)).release4 (48 + i)
  let s := s.modScEntry i (fun e => { ScEntry.reset with
    seq := e.seq, sendDue := if s.isProducer i then some s.clk.up else none })
  if s.isConsumer i then s.holdPoints (32 + i) (s.scPoints i) else s

/-- The node's own site stop (R368): dual inputs with their bit in PT_SI_SITE_STOP in demand. (log 36) -/
def State.ownStopNow (s : State) : Bool :=
  (List.range 32).any (fun k => (s.safIn k).demand && (s.pn PT_SI_SITE_STOP (k / 2)).testBit (k % 2) && s.siMode k != 0)

/-- The own site stop starts or ends, once a frame (R368). (log 36) -/
def State.settleOwnStop (s : State) : State :=
  let now := s.ownStopNow
  if now && !s.saf.ownStop then
    let pts := bitsOf 16 (s.pn ND_SITE_STOP_POINTS)
    let s := (s.modSaf (fun x => { x with
      ownStop := true, ownHeld := x.ownHeld ++ pts.filter (fun p => !x.ownHeld.contains p), ownAutoDue := none })).holdPoints 80 pts
    (s.demandEvent 3 0xFF 0 0 (mapOf 16 pts) (s.switchesOf pts) 0).causeAll pts 14
  else if !now && s.saf.ownStop then
    let s := s.modSaf (fun x => { x with ownStop := false, ownAutoDue := some (s.clk.up + 100000000) })
    s.demandEvent 3 0xFF 1 0 (mapOf 16 s.saf.ownHeld) (s.switchesOf s.saf.ownHeld) 0
  else s

/-- The own site stop released for the points whose dual input 2q has restart code `code` (R360, R368). (log 36) -/
def State.releaseOwn (s : State) (code : Nat) : State :=
  let go := s.saf.ownHeld.filter (fun p => s.siRestart (2 * p) == code)
  if go.isEmpty then s
  else
    let s := (s.freePoints 80 go).modSaf (fun x => { x with
      ownHeld := x.ownHeld.filter (fun p => !go.contains p), ownAutoDue := none })
    s.demandEvent 3 0xFF 2 0 (mapOf 16 go) (s.switchesOf go) 0

/-- SAFETY_AUTO_RELEASE (R360, R369): 100 ms without demand. -/
def execSafetyAutoRelease (t src : Nat) (s : State) : Host.Outcome State Fault Refusal :=
  let s := s.at t
  if src < 32 then
    let x := s.safIn src
    if x.trip && !x.demand && !x.latched && ripeAt x.autoDue t then .next (s.releaseInput src) else .next s
  else if src < 48 then
    let e := s.scEntry (src - 32)
    if e.ended && !e.demand && ripeAt e.autoDue t then .next (s.releaseEntry (src - 32) 1) else .next s
  else if !s.saf.ownStop && ripeAt s.saf.ownAutoDue t then .next (s.releaseOwn 1)
  else .next s

/-! ### Host commands -/

/-- safety-acknowledge for a dual input (R360, R362). (log 36) -/
def ackInput (k : Nat) (s : State) : Ans :=
  let x := s.safIn k
  if x.latched then
    if x.cycle = 3 && !s.demandA k && !s.demandB k then
      let td := s.pn (PT_SI_TD_0 + k % 2) (k / 2)
      let s := ((s.release4 k).modSafIn k (fun x => { x with latched := false, cycle := 0 })).discEvent k 1 (10 * td + 1)
      let s := s.settleInput k
      okS (if s.siRestart k = 0 then s.releaseInput k else s)
    else refuse s 8
  else if x.trip && !x.demand && s.siRestart k = 0 then
    let s := s.releaseInput k
    okS (if s.saf.ownStop || s.saf.ownHeld.isEmpty then s else s.releaseOwn 0)
  else if !s.saf.ownStop && !s.saf.ownHeld.isEmpty && (s.pn PT_SI_SITE_STOP (k / 2)).testBit (k % 2) then
    okS (s.releaseOwn 0)
  else refuse s 8

/-- safety-acknowledge for a consumer entry (R369): a faulted one returns to RUNNING after twice its time expectation
without fault; a running one whose demand has ended is released where the restart is manual. (log 36) -/
def ackEntry (i : Nat) (s : State) : Ans :=
  let e := s.scEntry i
  if e.state = 2 then
    if ripeAt (e.goodFrom.map (· + 2 * s.pn (ND_SC_TIME_0 + i) * 1000000)) s.clk.up &&
        s.clk.up ≤ e.lastAt + s.pn (ND_SC_TIME_0 + i) * 1000000 then
      let s := (s.modScEntry i (fun e => { e with state := 1 })).freePoints (32 + i) (s.scPoints i)
      okS ((s.msgFaultEvent i 0 1 0 (s.scElapsed i)).settleEntry i
        (!e.held.isEmpty && !e.ended))
    else refuse s 8
  else if e.ended && !e.demand && e.held.any (fun p => s.siRestart (2 * p) == 0) then okS (s.releaseEntry i 0)
  else refuse s 8

/-- safety-acknowledge (Table 20.4). (log 36) -/
def serveSafetyAcknowledge (p : Bytes) (s : State) : Ans :=
  let kind := fld p 0 1
  let i := fld p 1 1
  if p.length ≠ 2 then refuse s 2
  else if 2 ≤ kind then refuse s 6
  else if kind = 0 then
    if 32 ≤ i then refuse s 5 else if s.siMode i = 0 then refuse s 5 else ackInput i s
  else if s.isConsumer i then ackEntry i s else refuse s 5

/-- SAFETY_ACKNOWLEDGE. -/
def execSafetyAcknowledge (h : Hdr) (p : Bytes) (s : State) : Host.Outcome State Fault Refusal :=
  hostCmd 0x0318 h p serveSafetyAcknowledge s

/-- safety-status (Table 20.4). -/
def serveSafetyStatus (p : Bytes) (s : State) : Ans :=
  if p.length ≠ 0 then refuse s 2
  else
    okB s (le 4 (bitmapOf (s.saf.ins.map (fun x => x.demand))) ++ le 4 (bitmapOf (s.saf.ins.map (fun x => x.latched))) ++
      le 4 (bitmapOf (s.saf.ins.map (fun x => x.a == some true))) ++
      le 4 (bitmapOf (s.saf.ins.map (fun x => x.b == some true))) ++
      s.saf.entries.map (fun e => byteOf e.state) ++ s.saf.entries.flatMap (fun e => le 2 (e.last.getD 0)))

/-- SAFETY_STATUS. -/
def execSafetyStatus (h : Hdr) (p : Bytes) (s : State) : Host.Outcome State Fault Refusal :=
  hostCmd 0x0319 h p serveSafetyStatus s

/-! ### Seals -/

/-- Keys bound to a change of SEAL0 are invalidated (R430): code 1 at closing, 2 at opening. -/
def State.sealBindings (s : State) (closed : Bool) : State :=
  let code := if closed then 1 else 2
  let s := if s.pn ND_KEY_SEAL0_BIND = code then s.invalidate 1 0 1 0 0 else s
  forAll points16 (fun p s => if s.pn PT_KEY_SEAL0_BIND p = code then s.invalidate 2 p 1 0 0 else s) s

/-- What a change of seal state does, in order: log entry, SEAL record, SEAL_CHANGE (R375), and then what the seal
guards: keys bound to SEAL0, and the test window at SEAL2 opening (R374). -/
def State.sealChange (s : State) (before after : Nat) : State :=
  let s := s.modSaf (fun x => { x with seals := after })
  let idx := s.log.next
  let seq := s.recs.nodeNext
  let s := s.enterCapo 1 0 0 [byteOf before] [byteOf after] s.frm
  let s := s.buildSeal before after s.frm s.nodeFlags s.regime
  let s := s.raise 42 0 ([byteOf before, byteOf after, 0, 0] ++ le 4 idx ++ le 8 s.frm ++ le 4 seq)
  let s := if before.testBit 0 != after.testBit 0 then s.sealBindings (after.testBit 0) else s
  if before.testBit 2 && !after.testBit 2 then s.relock 3 1 0 0 else s

/-- SEAL_CHANGE (R373, R375): a level stable for 20 ms. Before metering only the land is followed, and the start compares
it (R375). -/
def execSealChange (t i : Nat) (closed : Bool) (since : Nat) (s : State) : Host.Outcome State Fault Refusal :=
  let s := s.at t
  if 8 ≤ i ∨ t < since + 20000000 then .next s
  else
    let s := s.modSaf (fun x => { x with sealLands := putBit x.sealLands i closed })
    let after := putBit s.saf.seals i closed
    if s.saf.seals = after ∨ !(s.pwr.capoOn && !s.pwr.capoReset && s.host.metering) then .next s
    else .next (s.sealChange s.saf.seals after)

end Sys2Proof.Machine
end

