-- ==== Sys2Proof/Machine/SessionRun.lean ====
section
/-!
DEFINITION. How sessions run (09 R226–R241, R545): the decisions after each frame, the timers, and the session commands.
-/

namespace Sys2Proof.Machine

/-! ### Frames of a session -/

/-- SESSION_START is due before frame `n` is added (R230). -/
def State.sessionFrameStart (s : State) (p n : Nat) : State :=
  let x := s.sesOf p
  if x.running ∧ x.startRegs.isNone ∧ x.sFrame ≤ n then s.buildStart p x.sFrame else s

/-- The flags of an added frame join the session's, and SESSION_END is built with frame e (R230). -/
def State.sessionFrameEnd (s : State) (p n flags missing regime : Nat) : State :=
  let x := s.sesOf p
  if x.running ∧ x.startRegs.isSome then
    let last := match x.eFrame with | some e => e | none => n
    let s := if n ≤ last then
        s.modPt p (fun y => { y with ivlSes := true, ses := { y.ses with
          span := y.ses.span.join flags missing regime (2 ^ y.tariff) } })
      else s
    match x.eFrame with
    | some e => if e ≤ n then s.buildEnd p e 0 (if x.key.isSome then 3 else 2) else s
    | none => s
  else s

/-- The least code of a list of causes of one kind; 104 is VEHICLE_STOP by the pilot (R302). -/
def leastCause (l : List Nat) : Option Nat :=
  l.foldl (fun a c => match a with
    | some b => if c % 100 < b % 100 ∨ (c % 100 = b % 100 ∧ b < c) then some c else some b
    | none => some c) none

/-- Preset and credit (R234, R236). -/
def State.limitCauses (s : State) (p : Nat) : State :=
  let x := s.sesOf p
  if x.state = .transferring ∧ x.startRegs.isSome then
    let s := if x.preset ≠ 0 ∧ x.preset - x.lead ≤ s.sesQuantity p then s.addCause p 2 else s
    if x.credit ≠ 0 ∧ x.credit * 10000 * priceUnits (s.ptType p) ≤ s.sesSum p then s.addCause p 3 else s
  else s

/-- Every current role in use lies below PT_START_CURRENT (R229). A fluid point has no current role, and its path waits for
the grace alone (DEDUCED, log entry 12). -/
def State.currentsLow (s : State) (p : Nat) : Bool :=
  isElec (s.ptType p) && (currSlots (s.pn PT_WIRING p)).all (fun r =>
    ((s.pt p).el.oneRms.getD r 0).natAbs * 1000 < s.pn PT_START_CURRENT p * 2 ^ 47)

/-- The causes of a frame decided (R238): FAULT first, then the least code; in STOPPING the others are counted. (log 16) -/
def State.decideCauses (s : State) (p : Nat) : State :=
  let x := s.sesOf p
  let s := s.modSes p (fun y => { y with causes := [] })
  let fatal := leastCause (x.causes.filter (fun c => 12 ≤ c && c ≤ 19))
  let soft := x.causes.filter (fun c => c < 12 || 100 ≤ c)
  match x.state with
  | .closed => s
  | .fault => s
  | _ =>
    match fatal, leastCause soft with
    | some c, _ => s.toFault p c
    | none, some c =>
      if x.state = .transferring then s.startStopping p (c % 100) (c % 100 == 5 || 100 ≤ c)
      else if x.state = .stopping then s.modSes p (fun y => { y with counted := satAdd 32 y.counted soft.length })
      else s
    | none, none => s

/-- What the Capo decides for a point after a frame has been added: limits, causes, the stopping sequence, and the start
condition, which is a level (R226, R229, R234–R238, Table 9.6). (log 12) -/
def State.sessionDecide (s : State) (p : Nat) : State :=
  if !s.isSession p then s
  else
    let s := (s.limitCauses p).decideCauses p
    let x := s.sesOf p
    if x.state = .stopping ∧ x.offDone = false ∧ s.currentsLow p = true then s.stopOff p
    else if x.state = .authorised ∧ s.startCondition p = true then s.startTransfer p
    else s

/-- The last frame of the period is the last of a session whose parent was revoked (R240). -/
def State.closeAtPeriod (s : State) (p e : Nat) : State :=
  let x := s.sesOf p
  if x.state = .stopping ∧ x.parentRevoked = true ∧ x.running = true then
    let s := if x.offDone then s else s.pathOff p
    let s := (s.close p).modSes p (fun y => { y with eFrame := some e })
    s.buildEnd p e 0 (if x.key.isSome then 3 else 2)
  else s

/-- A session-modify applies from the next frame (R232). -/
def State.applyModify (s : State) (p : Nat) : State :=
  match (s.sesOf p).modify with
  | some (a, b) => s.modSes p (fun x => { x with preset := a.getD x.preset, credit := b.getD x.credit, modify := none })
  | none => s

/-! ### Timers -/

/-- AUTH_TIMEOUT (Table 9.6). -/
def execAuthTimeout (t p : Nat) (s : State) : Host.Outcome State Fault Refusal :=
  let s := s.at t
  let x := s.sesOf p
  if p < 16 ∧ x.state = .authorising ∧ x.entry + s.pn PT_AUTH_TIMEOUT p * 1000000000 ≤ t then .next (s.backToIdle p 0)
  else .next s

/-- START_TIMEOUT (Table 9.6). -/
def execStartTimeout (t p : Nat) (s : State) : Host.Outcome State Fault Refusal :=
  let s := s.at t
  let x := s.sesOf p
  if p < 16 ∧ x.state = .authorised ∧ x.entry + s.pn PT_START_TIMEOUT p * 1000000000 ≤ t then .next (s.backToIdle p 0)
  else .next s

/-- STOP_GRACE_EXPIRY (R229). (log 12) -/
def execStopGraceExpiry (t p : Nat) (s : State) : Host.Outcome State Fault Refusal :=
  let s := s.at t
  let x := s.sesOf p
  if p < 16 ∧ x.state = .stopping ∧ x.offDone = false ∧ ripeAt x.graceDue t = true then .next (s.stopOff p) else .next s

/-- STOP_SETTLE_EXPIRY (R229). -/
def execStopSettleExpiry (t p : Nat) (s : State) : Host.Outcome State Fault Refusal :=
  let s := s.at t
  let x := s.sesOf p
  if p < 16 ∧ x.state = .stopping ∧ x.offDone = true ∧ ripeAt x.settleDue t = true then .next (s.close p) else .next s

/-! ### Host commands -/

/-- A command for a session point. (log 27) -/
def onSession (k : Nat → State → Ans) (p : Bytes) (s : State) : Ans :=
  if 16 ≤ fld p 0 1 then refuse s 5 else if s.isSession (fld p 0 1) then k (fld p 0 1) s else refuse s 5

/-- A command with one point number for a session point. -/
def onSession1 (k : Nat → State → Ans) (p : Bytes) (s : State) : Ans :=
  if p.length ≠ 1 then refuse s 2 else onSession k p s

/-- session-request (Table 9.6). -/
def serveSessionRequest : Bytes → State → Ans := onSession1 (fun p s =>
  if (s.sesOf p).state = .idle ∧ (s.pt p).outService = false ∧ s.stored PT_SERVICE p = 0 then
    okS (s.enterState p .authorising 0)
  else refuse s 8)

/-- session-reject (Table 9.6). -/
def serveSessionReject : Bytes → State → Ans := onSession1 (fun p s =>
  if (s.sesOf p).state = .authorising then okS (s.backToIdle p 0) else refuse s 8)

/-- session-cancel (Table 9.6). -/
def serveSessionCancel : Bytes → State → Ans := onSession1 (fun p s =>
  if (s.sesOf p).state = .authorised then okS (s.backToIdle p 0) else refuse s 8)

/-- session-stop (R238): HOST_STOP. (log 16) -/
def serveSessionStop : Bytes → State → Ans := onSession1 (fun p s =>
  if (s.sesOf p).state = .transferring then okS (s.addCause p 1) else refuse s 8)

/-- session-revoke (R231): AUTH_REVOKED. (log 16) -/
def serveSessionRevoke : Bytes → State → Ans := onSession1 (fun p s =>
  if (s.sesOf p).state = .transferring then okS (s.addCause p 6) else refuse s 8)

/-- No path switch of the point is held at rank 4 by a source in a range. -/
def State.pathFree4 (s : State) (p lo hi : Nat) : Bool :=
  (s.pathSwitches p).all (fun n => !((s.swch n).hold4.any (fun x => lo ≤ x && x ≤ hi)))

/-- The condition of Table 9.13 for a cause, and no hold of rank 1, 3 or 4 for it (R545). The residual latch of cause 13 and the
backup hold of cause 17 are released by the command, for every cause alike, by the two operations that follow. (log 17) -/
def State.faultGone (s : State) (p cause : Nat) : Bool :=
  let o := s.outOf p
  let path := s.pathSwitches p
  if cause = 12 then !(s.isOutlet p && s.pn PT_OUT_PP_MODE p == 1 && (o.ppCode == 5 || o.ppCode == 6))
  else if cause = 14 then
    let inputs := [2 * p, 2 * p + 1].all (fun k => !(s.safIn k).demand && !(s.safIn k).trip)
    let msgs := s.saf.entries.all (fun e => !(e.held.contains p)) && !(s.saf.ownHeld.contains p)
    inputs && msgs && path.all (fun n => (s.swch n).siHold.isEmpty) && s.pathFree4 p 48 63
  else if cause = 15 then [2 * p, 2 * p + 1].all (fun k => !(s.safIn k).latched) && s.pathFree4 p 0 31
  else if cause = 16 then
    (List.range 16).all (fun i => !(s.isConsumer i && (s.scPoints i).contains p) || (s.scEntry i).state == 1) &&
      s.pathFree4 p 32 47
  else if cause = 17 then !o.weld
  else if cause = 18 then path.all (fun n => !(s.swch n).held2)
  else if cause = 19 then !s.sw.failsafe && path.all (fun n => !(s.swch n).fsHold)
  else true

/-- A residual latch that stands beside another cause releases at fault-acknowledge alone, and under R312 alone. (log 17) -/
def State.ackResidual (s : State) (p : Nat) : Option State :=
  let o := s.outOf p
  if !(s.isOutlet p && o.trip) then some s
  else if s.pathsQuiet p then some ((s.releaseRcd p).rcdEvent p 1 o.tripComp o.tripSlice)
  else none

/-- The backup hold of a weld that has cleared releases at the fault-acknowledge that leaves FAULT (R315). (log 17) -/
def State.ackBackup (s : State) (p : Nat) : State :=
  if (s.outOf p).backup && !(s.outOf p).weld then
    (s.release4 (64 + p)).modOut p (fun o => { o with backup := false })
  else s

/-- fault-acknowledge (R545, R312, R315). The pilot is decoded afresh from IDLE (Table 9.13). -/
def serveFaultAcknowledge : Bytes → State → Ans := onSession1 (fun p s =>
  let x := s.sesOf p
  if x.state = .fault ∧ x.endDone = true ∧ s.faultGone p x.faultCause = true then
    match s.ackResidual p with
    | some s' => okS (((s'.ackBackup p).freshPilot p).backToIdle p 0)
    | none => refuse s 8
  else refuse s 8)

/-- session-authorise (R232, R233, Table 9.6). -/
def serveSessionAuthorise (p : Bytes) (s : State) : Ans :=
  let priced := (fld p 1 1).testBit 0
  if p.length ≠ (if priced then 68 else 36) then refuse s 2
  else onSession (fun q s =>
    let st := (s.sesOf q).state
    if 2 ≤ fld p 1 1 then refuse s 6
    else if st ≠ .idle ∧ st ≠ .authorising then refuse s 8
    else if s.mayAuthorise q ≠ 0 then refuse s (s.mayAuthorise q)
    else
      let prices := if priced then some ((List.range 8).map (fun t => fld p (36 + 4 * t) 4)) else none
      let s := s.authorise q (slice p 4 16) (fld p 20 8) (fld p 28 8) prices 0
      okB (s.modOut q (fun o => { o with contract := none })) (le 4 (s.sesOf q).number)) p s

/-- session-modify (R232): from the next frame. -/
def serveSessionModify (p : Bytes) (s : State) : Ans :=
  if p.length ≠ 20 then refuse s 2
  else onSession (fun q s =>
    let st := (s.sesOf q).state
    let f := fld p 1 1
    if 4 ≤ f then refuse s 6
    else if st = .authorised ∨ st = .transferring ∨ st = .stopping then
      let old := (s.sesOf q).modify.getD (none, none)
      let new := (if f.testBit 0 then some (fld p 4 8) else old.1, if f.testBit 1 then some (fld p 12 8) else old.2)
      okS (s.modSes q (fun x => { x with modify := some new }))
    else refuse s 8) p s

/-- session-status (Table 20.4). -/
def serveSessionStatus : Bytes → State → Ans := onSession1 (fun p s =>
  let x := s.sesOf p
  okB s ([byteOf (sesCode x.state), byteOf x.stopCause, byteOf x.endCause, byteOf x.authBy] ++ le 4 x.number ++ le 8 x.sFrame ++
    le 8 (min (s.sesQuantity p) (2 ^ 64 - 1)) ++ le 8 (min (costOf (s.sesSum p) (priceUnits (s.ptType p))) (2 ^ 64 - 1)) ++
    le 4 x.counted ++ le 2 x.currency ++ padTo 16 x.reference))

/-- SESSION_REQUEST. -/
def execSessionRequest (h : Hdr) (p : Bytes) (s : State) : Host.Outcome State Fault Refusal := hostCmd 0x0301 h p serveSessionRequest s
/-- SESSION_REJECT. -/
def execSessionReject (h : Hdr) (p : Bytes) (s : State) : Host.Outcome State Fault Refusal := hostCmd 0x0302 h p serveSessionReject s
/-- SESSION_CANCEL. -/
def execSessionCancel (h : Hdr) (p : Bytes) (s : State) : Host.Outcome State Fault Refusal := hostCmd 0x0303 h p serveSessionCancel s
/-- SESSION_STOP. -/
def execSessionStop (h : Hdr) (p : Bytes) (s : State) : Host.Outcome State Fault Refusal := hostCmd 0x0304 h p serveSessionStop s
/-- SESSION_REVOKE. -/
def execSessionRevoke (h : Hdr) (p : Bytes) (s : State) : Host.Outcome State Fault Refusal := hostCmd 0x0305 h p serveSessionRevoke s
/-- FAULT_ACKNOWLEDGE. -/
def execFaultAcknowledge (h : Hdr) (p : Bytes) (s : State) : Host.Outcome State Fault Refusal := hostCmd 0x0306 h p serveFaultAcknowledge s
/-- SESSION_AUTHORISE. -/
def execSessionAuthorise (h : Hdr) (p : Bytes) (s : State) : Host.Outcome State Fault Refusal := hostCmd 0x0307 h p serveSessionAuthorise s
/-- SESSION_MODIFY. -/
def execSessionModify (h : Hdr) (p : Bytes) (s : State) : Host.Outcome State Fault Refusal := hostCmd 0x0308 h p serveSessionModify s
/-- SESSION_STATUS. -/
def execSessionStatus (h : Hdr) (p : Bytes) (s : State) : Host.Outcome State Fault Refusal := hostCmd 0x0309 h p serveSessionStatus s

end Sys2Proof.Machine
end

