-- ==== Sys2Proof/Machine/SliceOps.lean ====
section
/-!
DEFINITION. What slices and courses do between frames (04): auto-gain, modulator restarts, and course diagnosis with its
host commands.
-/

namespace Sys2Proof.Machine

/-! ### Auto-gain -/

/-- g_lo of a slice (R102). -/
def State.gainLo (s : State) (c : Nat) : Nat := s.pn CH_GAIN c % 8

/-- g_hi of a slice (R102). -/
def State.gainHi (s : State) (c : Nat) : Nat := s.pn CH_GAIN c / 16 % 8

/-- The slice under test in a diagnosis, whose gain is held (R114). -/
def State.underTest (s : State) (c : Nat) : Bool :=
  match s.testedSlice (c / 2) s.frm with
  | some k => c % 2 == k
  | none => false

/-- The mains cycle of auto-gain in ns (R104). -/
def State.agCycle (s : State) (c : Nat) : Nat :=
  let r := s.pn CH_AG_CYCLE_REF (s.governs c)
  let e := (s.pt (pointOf c)).el
  if r = 2 then 16666667 else if r = 0 ∧ e.valid = true then e.tc else 20000000

/-- The modulator clock at an elapsed instant of the running frame. -/
def State.clockAt (s : State) (t : Nat) : Nat := s.clk.mclk + min 2047 (s.fineTime t * 128 / (15625 * 2 ^ 32))

/-- A slice takes a gain at the modulator sample after `t`: the frame carries GAIN_SEAM and the window begins afresh (R103–R106). -/
def State.switchGain (s : State) (c g t : Nat) : State :=
  s.modSlice c (fun x => { x.takeGain (s.clockAt t + 1) g with seam := true })

/-- AUTO_GAIN_SWITCH_UP (R103): the overload comparator of a slice at g_hi. -/
def execAutoGainSwitchUp (t c : Nat) (s : State) : Host.Outcome State Fault Refusal :=
  let s := s.at t
  if c < 128 ∧ s.gainLo c < s.gainHi c ∧ (s.slice c).gain = s.gainHi c ∧ s.underTest c = false then
    .next (s.switchGain c (s.gainLo c) t)
  else .next s

/-- Auto-gain's window with the output samples that slice `c` has given in the running frame up to `t`, of which `bits` are the modulator
samples, and whether the last of them changed its sign (R104). -/
def State.windowAt (s : State) (c t : Nat) (bits : List Int) : Slice × Bool :=
  let x := s.slice c
  let m0 := s.clk.mclk
  let h := lastN 10240 (x.bits ++ x.inputBits m0 ((bits ++ List.replicate 2048 0).take 2048))
  let x' := { x with bits := h }
  x.qualify (s.gainLo c) ((s.placedSamples c m0 x' (s.feedOf c h)).filter (fun a => a.1 ≤ s.clockAt t))

/-- AUTO_GAIN_SWITCH_DOWN (R104): two cycles of output samples below 4 % of full scale, and then a sign change between two
consecutive ones, or one further cycle. -/
def execAutoGainSwitchDown (t c : Nat) (bits : List Int) (s : State) : Host.Outcome State Fault Refusal :=
  let s := s.at t
  let w := s.windowAt c t bits
  let have' := w.1.qual * 1000000000 / s.rate (s.governs c)
  let cyc := s.agCycle c
  if c < 128 ∧ s.gainLo c < s.gainHi c ∧ (s.slice c).gain = s.gainLo c ∧ s.underTest c = false ∧
      2 * cyc ≤ have' ∧ (w.2 = true ∨ 3 * cyc ≤ have') then
    .next (s.switchGain c (s.gainHi c) t)
  else .next s

/-- MODULATOR_RESTART (R96, R97): 16 modulator clocks whose samples are clipped ones. -/
def execModulatorRestart (t c : Nat) (s : State) : Host.Outcome State Fault Refusal :=
  let s := s.at t
  .next (s.modSlice c (fun x => { x with restarts := x.restarts ++ [s.clockAt t] }))

/-! ### Course diagnosis -/

/-- Fret 146 takes the first course of the queue, its first frame being the next (R114): not while another diagnosis runs, nor
while a self-test has the converter's test DAC. -/
def State.beginDiag (s : State) : State :=
  match s.eng.diag, s.eng.diagQueue with
  | none, j :: rest =>
    let k := s.conv (j % 4)
    if s.eng.mode = 1 ∧ k.dac = 0 ∧ k.stRun = false then
      (s.modEng (fun e => { e with diag := some ⟨j, s.frm + 1, []⟩, diagQueue := rest, diagWait := 0 })).modConv (j % 4)
        (fun k => { k with dac := 1 })
    else s
  | _, _ => s

/-- COURSE_DIAGNOSIS_START (R114). -/
def execCourseDiagnosisStart (t : Nat) (s : State) : Host.Outcome State Fault Refusal := .next (s.at t).beginDiag

/-- A diagnosis begins within 4 frames (R114): at the latest, with the fourth frame that a course has waited. -/
def State.diagWaits (s : State) : State :=
  if s.eng.diag.isSome ∨ s.eng.diagQueue.isEmpty then s.modEng (fun e => { e with diagWait := 0 })
  else if s.eng.diagWait < 3 then s.modEng (fun e => { e with diagWait := e.diagWait + 1 })
  else s.beginDiag

/-- The test DAC's level in µV for a slice: ND_DIAG_LEVEL percent of its full scale at the gain it holds (R114). -/
def State.diagLevel (s : State) (c : Nat) : Int := (s.pn ND_DIAG_LEVEL * 10000 : Nat) / 2 ^ (s.slice c).gain

/-- The injection switch of a slice (R114): the sensor, or a level; disconnection blanks its comparators for 16 frames (R117). -/
def State.injectAt (s : State) (c : Nat) (level : Option Int) (blank : Option Nat) : State :=
  s.modSlice c (fun x => { x with inject := level, blankTo := if blank.isSome then blank else x.blankTo })

/-- What the frame `n` that begins does in the running diagnosis (Table 4.8): the course enters DIAGNOSING at frame d, and the
injection switches move. -/
def State.diagStep (s : State) (n : Nat) : State :=
  match s.eng.diag with
  | some d =>
    let j := d.course
    let i := n - d.first
    let c := if i < 16 then 2 * j + 1 else 2 * j
    if n < d.first then s
    else if i = 0 then
      (s.modCourse j (fun x => { x with state := .diagnosing, repeatDue := none })).injectAt c (some (s.diagLevel c)) (some (d.first + 16))
    else if i = 16 then s.injectAt c (some (s.diagLevel c)) (some (d.first + 32))
    else if i = 4 ∨ i = 20 then s.injectAt c (some (-(s.diagLevel c))) none
    else if i = 8 ∨ i = 24 then s.injectAt c none none
    else s
  | none => s

/-- What the frame `n` just measured gives the running diagnosis (R115): the last frame of each injection step is evaluated. -/
def State.diagFrame (s : State) (n : Nat) : State :=
  match s.eng.diag with
  | some d =>
    let i := n - d.first
    let k := if i < 16 then 2 * d.course + 1 else 2 * d.course
    if d.first ≤ n ∧ (i = 3 ∨ i = 7 ∨ i = 19 ∨ i = 23) then
      s.modEng (fun e => { e with diag := some { d with means := d.means ++ [(s.slice k).cmean] } })
    else s
  | none => s

/-- The running diagnosis stops: DAC and injection switches are free, and what was blanked is armed from zero again (R117). -/
def State.endDiag (s : State) : State :=
  match s.eng.diag with
  | some d =>
    let s := (s.modEng (fun e => { e with diag := none })).modConv (d.course % 4) (fun k => { k with dac := 0 })
    let clear (x : Slice) : Slice := { x with inject := none, blankTo := none }
    (s.modSlice (2 * d.course) clear).modSlice (2 * d.course + 1) clear
  | none => s

/-- The diagnosis is abandoned and its course requeued (R117). -/
def State.abandonDiag (s : State) : State :=
  match s.eng.diag with
  | some d => s.endDiag.modEng (fun e => { e with diagQueue := e.diagQueue ++ [d.course] })
  | none => s

/-- A course ends (R59, R117): its state is that of a first frame, and no diagnosis of it runs or waits. -/
def State.dropCourse (s : State) (j : Nat) : State :=
  let s := match s.eng.diag with
    | some d => if d.course = j then s.endDiag else s
    | none => s
  (s.modEng (fun e => { e with
    diagQueue := e.diagQueue.filter (· != j), restores := e.restores.filter (· != j) })).modCourse j (fun _ => Course.reset)

/-- Parts per million of full scale of a value at full scale 2^62. -/
def ppm62 (x : Int) : Int := clipI 32 (divFree (x * 1000000) (2 ^ 62))

/-- Step and offset errors of one slice: its means at +L and −L (R115). -/
def stepErrors (level : Nat) (plus minus : Int) : Int × Int :=
  (plus - minus - 2 * divFree (level * 2 ^ 62 : Nat) 100, divFree (plus + minus) 2)

/-- Whether a slice fails: tolerance in 0.01 % of its full scale (R115). -/
def sliceFails (tol : Nat) (e : Int × Int) : Bool :=
  tol * 2 ^ 62 < 10000 * e.1.natAbs || tol * 2 ^ 62 < 10000 * e.2.natAbs

/-- COURSE_VERDICT (R115, R116): at frame d+32. -/
def execCourseVerdict (t : Nat) (s : State) : Host.Outcome State Fault Refusal :=
  let s := s.at t
  match s.eng.diag with
  | some d =>
    if s.frm < d.first + 32 ∨ d.means.length < 4 then .next s
    else
      let j := d.course
      let L := s.pn ND_DIAG_LEVEL
      let odd := stepErrors L (d.means.getD 0 0) (d.means.getD 1 0)
      let even := stepErrors L (d.means.getD 2 0) (d.means.getD 3 0)
      let tol := s.pn CH_COURSE_TOL (2 * j)
      let fe := sliceFails tol even
      let fo := sliceFails tol odd
      let back := (s.course j).restoring
      let next : CourseState := if fe != fo then .single else if !fe && back then .agreed else .unresolved
      let s := s.endDiag.modCourse j
        (fun x => { x with
          state := next, good := if fe then 1 else 0, misRun := 0, okRun := 0, restoring := false
          verdict := if fe && fo then 4 else if fe then 1 else if fo then 2 else 3
          errs := [ppm62 even.1, ppm62 even.2, ppm62 odd.1, ppm62 odd.2]
          repeatDue := if next = .unresolved then some (t + s.pn ND_DIAG_REPEAT * 1000000000) else none })
      let a := courseDiff (s.slice (2 * j)).cal (s.slice (2 * j + 1)).cal
      .next (s.courseEvent j (s.coursePpm j a))
  | none => .next s

/-- COURSE_DIAG_REPEAT (Table 4.7): an unresolved course joins the queue again. -/
def execCourseDiagRepeat (t j : Nat) (s : State) : Host.Outcome State Fault Refusal :=
  let s := s.at t
  let x := s.course j
  if s.eng.mode = 1 ∧ x.state = .unresolved ∧ ripeAt x.repeatDue t = true then
    .next ((s.modCourse j (fun x => { x with repeatDue := none })).modEng (fun e => { e with diagQueue := e.diagQueue ++ [j] }))
  else .next s

/-- COURSE_AGREED_RESTORED (Table 4.7): 4,000 consecutive frames without mismatch. -/
def execCourseAgreedRestored (t j : Nat) (s : State) : Host.Outcome State Fault Refusal :=
  let s := s.at t
  if (s.course j).state = .unresolved ∧ 4000 ≤ (s.course j).okRun then
    .next ((s.modCourse j (fun x => { x with state := .agreed, misRun := 0, okRun := 0, repeatDue := none })).modEng
      (fun e => { e with diagQueue := e.diagQueue.filter (· != j) }))
  else .next s

/-- course-restore (R116): a course in SINGLE is queued for diagnosis at the next point interval boundary. -/
def serveCourseRestore (p : Bytes) (s : State) : Ans :=
  let j := fld p 0 1
  if p.length ≠ 1 then refuse s 2
  else if 64 ≤ j then refuse s 5
  else if s.ptType (j / 4) = 0 then refuse s 5
  else if s.eng.mode = 1 ∧ (s.course j).state = .single then
    okS (s.modEng (fun e => { e with restores := if e.restores.contains j then e.restores else e.restores ++ [j] }))
  else refuse s 8

/-- COURSE_RESTORE. -/
def execCourseRestore (h : Hdr) (p : Bytes) (s : State) : Host.Outcome State Fault Refusal :=
  hostCmd 0x0310 h p serveCourseRestore s

/-- An estimate m as channel-status reports it (05 R135): s2.30 of full scale at the present gain, 0 for a block not in use. -/
def Slice.statusM (x : Slice) (m : Option Int) : Bytes :=
  match m with
  | some y => leI 4 (clipI 32 (divFree (regain x.stateG x.gain y) (2 ^ 32)))
  | none => zeros 4

/-- channel-status (Table 20.4). In COURSED mode channel 2j+1 reads as channel 2j (R24). -/
def serveChannelStatus (p : Bytes) (s : State) : Ans :=
  if p.length ≠ 1 then refuse s 2
  else if 128 ≤ fld p 0 1 then refuse s 5
  else
    let c := s.governs (fld p 0 1)
    let x := s.slice c
    okB s ([byteOf x.gain, byteOf (if s.eng.mode = 1 then courseCode (s.course (c / 2)).state else 0), 0, 0] ++
      x.statusM x.m1 ++ x.statusM x.m2 ++
      (List.range 6).flatMap (fun g => leI 4 (Config.trimOffset c g) ++ le 4 (Config.trimGain c g)) ++ leI 4 x.mean)

/-- CHANNEL_STATUS. -/
def execChannelStatus (h : Hdr) (p : Bytes) (s : State) : Host.Outcome State Fault Refusal :=
  hostCmd 0x030F h p serveChannelStatus s

end Sys2Proof.Machine
end

