-- ==== Sys2Proof/Machine/Switch.lean ====
section
/-!
DEFINITION. The switch die's commands and events (14): host commands switch-command, switch-status and switch-reset,
overload, thermal latch, retries, open load, supply, and the serial watchdog.
-/

namespace Sys2Proof.Machine

/-! ### Host commands -/

/-- Whether a path switch answers the session alone (R227, R242). -/
def State.pathLocked (s : State) (n : Nat) : Bool :=
  let p := n / 2
  s.isSession p && !(s.pt p).outService && (s.pathSwitches p).contains n

/-- switch-command (Table 20.4; R33, R227): a rank-6 request that the Capo checks and then commands. -/
def serveSwitchCommand (p : Bytes) (s : State) : Ans :=
  let n := fld p 0 1
  let b := fld p 1 1
  if p.length ≠ 2 then refuse s 2
  else if 32 ≤ n then refuse s 5
  else if 2 ≤ b then refuse s 6
  else if s.ptType (n / 2) = 0 then refuse s 5
  else if s.pathLocked n then refuse s 8
  else if b = 1 ∧ ((s.swch n).held134 || (s.swch n).held2) = true then refuse s 9
  else okS (s.command n (b == 1))

/-- SWITCH_COMMAND. -/
def execSwitchCommand (h : Hdr) (p : Bytes) (s : State) : Host.Outcome State Fault Refusal :=
  hostCmd 0x0315 h p serveSwitchCommand s

/-- SW_CHSTATn (Table 14.6); CMD is write-only and reads 0 (R13). -/
def chstat (c : SwCh) (safe : Bool) : Nat :=
  b2n c.on + 4 * b2n c.uv + 8 * b2n c.ovl + 16 * b2n c.therm + 32 * b2n c.regulating + 64 * b2n c.limiting +
  128 * b2n c.openLoad + 256 * b2n c.fsHold + 512 * b2n (c.resHold || !c.siHold.isEmpty) + 1024 * b2n c.exhausted +
  2 ^ 12 * (c.retries % 16) + 2 ^ 16 * (c.limit % 4) + 2 ^ 18 * (c.slew % 4) + 2 ^ 20 * b2n c.ride + 2 ^ 21 * b2n safe +
  2 ^ 24 * ((c.tj / 10 + 50).toNat % 256)

/-- SW_WDSTAT (Table 14.7). -/
def State.wdstat (s : State) : Nat :=
  b2n s.sw.armed + 2 * b2n s.sw.failsafe + 4 * b2n s.failsafeLow + 16 * (s.sw.wcause % 16) + 256 * (s.sw.window % 256)

/-- Tenths of a second left in START or RECOVERY. -/
def State.phaseLeft (s : State) : Nat :=
  match s.sw.phaseDue with
  | some d => (d - s.clk.up) / 100000000
  | none => 0

/-- SW_SUPPLY (Table 14.7). -/
def State.swSupply (s : State) : Nat :=
  s.sw.vsw % 65536 + 2 ^ 16 * (s.sw.phase % 4) + 2 ^ 18 * b2n s.sw.uv + 2 ^ 19 * b2n s.sw.belowRide +
  2 ^ 20 * (s.phaseLeft % 256)

/-- The registers in the order of switch-status (Table 20.4). -/
def State.swRegs (s : State) : List Nat :=
  (List.range 32).map (fun n => chstat (s.swch n) (s.safeOn n)) ++
    [s.wdstat, s.swSupply, s.sw.fstable, s.sw.chal.toNat]

/-- switch-status: the registers in parts. -/
def serveSwitchStatus (p : Bytes) (s : State) : Ans :=
  if p.length ≠ 0 then refuse s 2 else okParts s (packParts (s.swRegs.map (le 4)) [] [])

/-- SWITCH_STATUS. -/
def execSwitchStatus (h : Hdr) (p : Bytes) (s : State) : Host.Outcome State Fault Refusal :=
  hostCmd 0x0316 h p serveSwitchStatus s

/-- PT_SW_RETRIES of channel `n`. -/
def State.retriesOf (s : State) (n : Nat) : Nat := s.pn (PT_SW_RETRIES_0 + n % 2) (n / 2)

/-- switch-reset (R344): the counter reloads, EXHAUSTED and an overload turn-off release; the standing command is
re-applied in the next frame. -/
def serveSwitchReset (p : Bytes) (s : State) : Ans :=
  let n := fld p 0 1
  let c := s.swch n
  if p.length ≠ 1 then refuse s 2
  else if 32 ≤ n then refuse s 5
  else if s.ptType (n / 2) = 0 then refuse s 5
  else if c.held134 || c.therm then refuse s 9
  else okS (s.orderDie (.reload n))

/-- SWITCH_RESET. -/
def execSwitchReset (h : Hdr) (p : Bytes) (s : State) : Host.Outcome State Fault Refusal :=
  hostCmd 0x0317 h p serveSwitchReset s

/-! ### Overload, thermal latch, retries -/

/-- A path switch that protection holds off gives SWITCH_FAULT (R344, Table 9.7). -/
def State.switchFault (s : State) (n : Nat) : State :=
  if (s.pathSwitches (n / 2)).contains n then s.addCause (n / 2) 18 else s

/-- SWITCH_CURRENT_LIMIT (R343, R344): the limit is reached, LIMITING is set and the overload timer runs unless the
safe state is on; leaving the limit ends both. (log 14) -/
def execSwitchCurrentLimit (t ch : Nat) (reached : Bool) (mA : Nat) (s : State) : Host.Outcome State Fault Refusal :=
  let s := s.at t
  let c := s.swch ch
  if !s.sw.powered || !c.on then .next s
  else if reached then
    .next (s.modSwch ch (fun c => { c with
      limiting := true, mA := mA, onSince := none
      ovlDue := if s.safeOn ch then none
        else if c.limiting then c.ovlDue else some (t + s.pn (PT_SW_OVL_TIME_0 + ch % 2) (ch / 2) * 1000000) }))
  else .next (s.modSwch ch (fun c => { c with limiting := false, mA := mA, ovlDue := none, onSince := some t }))

/-- OVERLOAD_TIMEOUT (R343): off by overload at rank 2; the retry delay runs (R344). -/
def execOverloadTimeout (t ch : Nat) (s : State) : Host.Outcome State Fault Refusal :=
  let s := s.at t
  let c := s.swch ch
  if s.sw.powered && c.limiting && ripeAt c.ovlDue t && !s.safeOn ch then
    let s := s.modSwch ch (fun c => { (c.setOut t false) with
      ovl := true, retryDue := some (t + s.pn (PT_SW_RETRY_DELAY_0 + ch % 2) (ch / 2) * 1000000) })
    .next ((s.swEvent 34 ch 0).switchFault ch)
  else .next s

/-- THERMAL_LATCH (R343, R345): a safe-off channel opens and its counter freezes; a safe-on channel regulates. (log 14) -/
def execThermalLatch (t ch : Nat) (tj : Int) (s : State) : Host.Outcome State Fault Refusal :=
  let s := s.at t
  let c := s.swch ch
  if !s.sw.powered || c.therm || tj < 1700 then .next s
  else if s.safeOn ch then
    .next ((s.modSwch ch (fun c => { c with regulating := true, tj := tj, onSince := none })).swEvent 35 ch 2)
  else
    .next (((s.modSwch ch (fun c => { (c.setOut t false) with therm := true, tj := tj, retryDue := none })).swEvent
      35 ch 0).switchFault ch)

/-- A retry falls due (R344): with the counter above 0 it is spent and rank 2 releases, else the channel is EXHAUSTED. -/
def State.retry (s : State) (ch : Nat) : State :=
  if 0 < (s.swch ch).retries then
    (s.modSwch ch (fun c => { c with retries := c.retries - 1, ovl := false, retryDue := none, reapply := true })).swEvent
      34 ch 2
  else (s.modSwch ch (fun c => { c with exhausted := true, retryDue := none })).swEvent 34 ch 1

/-- THERMAL_RELEASE (R343, R344): the latch releases and the retry follows at once; while rank 3 holds it waits
(Table 14.5). (log 14) -/
def execThermalRelease (t ch : Nat) (tj : Int) (s : State) : Host.Outcome State Fault Refusal :=
  let s := s.at t
  let c := s.swch ch
  if 1650 < tj then .next s
  else if c.regulating then
    .next (s.modSwch ch (fun c => { c with regulating := false, tj := tj, onSince := some t }))
  else if !c.therm then .next s
  else
    let s := (s.modSwch ch (fun c => { c with therm := false, tj := tj })).swEvent 35 ch 1
    if c.fsHold then .next (s.modSwch ch (fun c => { c with ovl := true, retryDue := some t }))
    else .next (s.retry ch)

/-- RETRY_DELAY_EXPIRY (R344, Table 14.5): not taken while rank 3 holds or the latch is closed. -/
def execRetryDelayExpiry (t ch : Nat) (s : State) : Host.Outcome State Fault Refusal :=
  let s := s.at t
  let c := s.swch ch
  if ripeAt c.retryDue t && !c.fsHold && !c.therm then .next (s.retry ch) else .next s

/-- RETRY_COUNTER_RELOAD (R344): after 10 s of continuous on-time without limit or latch. -/
def execRetryCounterReload (t ch : Nat) (s : State) : Host.Outcome State Fault Refusal :=
  let s := s.at t
  let c := s.swch ch
  if ripeAt (c.onSince.map (· + 10000000000)) t && c.on && !c.therm then
    .next (s.modSwch ch (fun c => { c with retries := s.retriesOf ch }))
  else .next s

/-! ### Open load -/

/-- Open-load detection evaluates channel `ch`: enabled, in use, off for 2 ms (R342, R27), the level held for 10 ms. -/
def State.openLoadDue (s : State) (ch since t : Nat) : Bool :=
  s.sw.powered && !(s.swch ch).on && s.ptType (ch / 2) != 0 && (s.pn PT_SW_OL_ENABLE (ch / 2)).testBit (ch % 2) &&
    max since ((s.swch ch).offAt + 2000000) + 10000000 ≤ t

/-- OPEN_LOAD_DECLARED (R342). -/
def execOpenLoadDeclared (t ch since : Nat) (s : State) : Host.Outcome State Fault Refusal :=
  let s := s.at t
  if s.openLoadDue ch since t && !(s.swch ch).openLoad then
    .next ((s.modSwch ch (fun c => { c with openLoad := true })).swEvent 36 ch 0)
  else .next s

/-- OPEN_LOAD_CLEARED (R342). -/
def execOpenLoadCleared (t ch since : Nat) (s : State) : Host.Outcome State Fault Refusal :=
  let s := s.at t
  if s.openLoadDue ch since t && (s.swch ch).openLoad then
    .next ((s.modSwch ch (fun c => { c with openLoad := false })).swEvent 36 ch 1)
  else .next s

/-! ### Supply -/

/-- Turn off at rank 2, by supply, the safe-off channels that `which` selects (R347). (log 37) -/
def State.supplyOff (s : State) (which : SwCh → Bool) : State :=
  let s := s.modSw (fun d => { d with
    uv := true
    ch := d.ch.mapIdx (fun n c =>
      if which c && !d.fstable.testBit n then { (c.setOut s.clk.up false) with uv := true } else c) })
  forAll (List.range 32) (fun n s => if (s.swch n).uv then s.switchFault n else s) s

/-- VSW_UNDERVOLTAGE (R347): in NORMAL every safe-off channel turns off; in the other phases those without
ride-through. A turn-off ends RECOVERY (Table 14.2). (log 14) -/
def execVswUndervoltage (t vsw : Nat) (s : State) : Host.Outcome State Fault Refusal :=
  let s := s.at t
  if !s.sw.powered || s.sw.uv || 1630 < vsw then .next s
  else
    let s := s.modSw (fun d => { d with vsw := vsw, uvNormal := d.phase == 0 || d.phase == 3 })
    if s.sw.phase = 0 then .next ((s.supplyOff (fun _ => true)).supplyEvent 0)
    else
      let s := (s.supplyOff (fun c => !c.ride)).supplyEvent 0
      if s.sw.phase = 3 then .next (s.enterPhase 0) else .next s

/-- VSW_RESTORE (R347): rank 2 by supply releases, the standing commands are re-applied in the next frame, and after a
turn-off in NORMAL the die enters RECOVERY. (log 14) -/
def execVswRestore (t vsw : Nat) (s : State) : Host.Outcome State Fault Refusal :=
  let s := s.at t
  if !s.sw.powered || !s.sw.uv || vsw < 1720 then .next s
  else
    let was := s.sw.uvNormal
    let s := (s.modSw (fun d => { d with
      vsw := vsw, uv := false, belowRide := false, uvNormal := false
      ch := d.ch.map (fun c => if c.uv then { c with uv := false, reapply := true } else c) })).supplyEvent 1
    if was && s.sw.phase = 0 then .next (s.enterPhase 3) else .next s

/-- VSW_BELOW_RIDE (R347): every safe-off channel turns off in every phase; a turn-off ends RECOVERY (Table 14.2). (log 14) -/
def execVswBelowRide (t vsw : Nat) (s : State) : Host.Outcome State Fault Refusal :=
  let s := s.at t
  if !s.sw.powered || s.sw.belowRide || 620 < vsw then .next s
  else
    let ph := s.sw.phase
    let s := ((s.modSw (fun d => { d with
      vsw := vsw, belowRide := true, uvNormal := d.uvNormal || (!d.uv && (ph == 0 || ph == 3)) })).supplyOff (fun _ => true)).supplyEvent 2
    if ph = 3 then .next (s.enterPhase 0) else .next s

/-- A channel of a switch die that resets: every field at its reset value, but for the holds whose sources outside the die still stand,
the direct trips and the Capo's decisions of a core die that runs (01 R33). -/
def SwCh.restart (core : Bool) (c : SwCh) : SwCh :=
  if core then { SwCh.reset with resHold := c.resHold, siHold := c.siHold, hold4 := c.hold4 } else SwCh.reset

/-- SWITCH_DIE_RESET (R347): every register at its reset value, every channel off. (log 14) -/
def execSwitchDieReset (t vsw : Nat) (s : State) : Host.Outcome State Fault Refusal :=
  let s := s.at t
  if !s.sw.powered || 530 < vsw then .next s
  else
    let s := s.modSw (fun d => { SwitchDie.reset with
      waiting := d.waiting, waitOps := d.waitOps, ch := d.ch.map (SwCh.restart s.pwr.coreOn) })
    .next (forAll points16 (fun p s => (s.pathSwitches p).foldl (fun s n => s.switchFault n) s) s)

/-- SWITCH_DIE_POWER_UP (R346, R347, R503): every register at its Reset value, every channel off, phase START, the retry counters loaded;
the Capo, where it runs, arms the watchdog, sets the channels up, and its waiting commands follow. -/
def execSwitchDiePowerUp (t vsw : Nat) (s : State) : Host.Outcome State Fault Refusal :=
  let s := s.at t
  if s.sw.powered || vsw < 530 then .next s
  else
    let s := s.modSw (fun d => { SwitchDie.reset with
      powered := true, upAt := t, phaseDue := some (t + 10000000000), rearm := s.pwr.capoOn
      link := s.pwr.coreOn, waiting := d.waiting, waitOps := d.waitOps
      ch := d.ch.mapIdx (fun n c => { c.restart s.pwr.coreOn with retries := s.retriesOf n }) })
    let s := if s.testing then s.enterPhase 2 else s
    .next (if s.pwr.capoOn then s.replayCommands else s)

/-- SUPPLY_PHASE_TIMEOUT (Table 14.2). -/
def execSupplyPhaseTimeout (t : Nat) (s : State) : Host.Outcome State Fault Refusal :=
  let s := s.at t
  if ripeAt s.sw.phaseDue t then .next (s.enterPhase 0) else .next s

/-! ### The serial watchdog -/

/-- WATCHDOG_ARM (R348, R350, R355): at a start, after a fail-safe application and at the boundary where a switch-die
parameter takes effect; a zero seed arms nothing. -/
def execWatchdogArm (t : Nat) (key seed : BitVec 32) (s : State) : Host.Outcome State Fault Refusal :=
  let s := s.at t
  if s.sw.rearm && s.sw.powered && seed != 0 then .next (s.armWatchdog key seed) else .next s

/-- The switch die takes an answer (R348, R349). (log 11) -/
def State.dieAnswer (s : State) (t : Nat) (ans : BitVec 32) : State :=
  let w := s.sw.window * 1000000
  let last := s.sw.lastGood.getD s.clk.up
  let s := s.modSw (fun d => { d with ans := ans })
  if ans ≠ (lfsr 16 s.sw.chal ^^^ s.sw.key) then s.applyFailsafe 1
  else if 4 * (t - last) < w then s.applyFailsafe 2
  else if w < t - last then s.applyFailsafe 0
  else
    let s := s.modSw (fun d => { d with
      chal := lfsr 16 ans, lastGood := some t, goodFeeds := min 3 (d.goodFeeds + 1) })
    if s.sw.failsafe && s.sw.goodFeeds = 3 then s.releaseFailsafe else s

/-- WATCHDOG_FEED (R348–R350, R523): the Capo writes its answer, unless the test window withholds the feed or makes it
wrong (log entry 11). -/
def execWatchdogFeed (t : Nat) (s : State) : Host.Outcome State Fault Refusal :=
  let s := s.at t
  if !(s.pwr.capoOn && !s.pwr.capoReset && s.sw.powered && s.sw.link && s.sw.armed) then .next s
  else if s.test.regs.skip ≠ 0 then
    .next (s.setTest { s.test.regs with skip := s.test.regs.skip - 1 } 5)
  else
    let right := lfsr 16 s.sw.chal ^^^ s.sw.key
    if s.test.regs.wrong then
      .next ((s.setTest { s.test.regs with wrong := false } 5).dieAnswer t (~~~right))
    else .next (s.dieAnswer t right)

/-- WATCHDOG_WINDOW_EXPIRY (R349): the window passes without a good feed; a lost link counts as a missing feed. -/
def execWatchdogWindowExpiry (t : Nat) (s : State) : Host.Outcome State Fault Refusal :=
  let s := s.at t
  if s.sw.powered && s.sw.armed && ripeAt (s.sw.lastGood.map (· + s.sw.window * 1000000)) t then
    .next (s.applyFailsafe (if s.sw.link then 0 else 3))
  else .next s

/-- DIE_LINK_LOST (R28, R349): the outputs are held in their present state. -/
def execDieLinkLost (t : Nat) (s : State) : Host.Outcome State Fault Refusal :=
  .next ((s.at t).modSw (fun d => { d with link := false }))

end Sys2Proof.Machine
end

