-- ==== Sys2Proof/Machine/Frame.lean ====
section
/-!
DEFINITION. The frame (02): the frame tick, the engine's work on the frame that ends, what takes effect at the next frame
and at an interval boundary, the cut-off, the hand-over block, and the end of a mode changeover.
-/

namespace Sys2Proof.Machine

/-! ### Flags of a frame -/

/-- Channels that carry a role of point `p` (R27, Table 10.5): every voltage, current and residual role in use, or every
fluid role with an input; both slices of a course in COURSED mode. -/
def State.roleChannels (g : State) (p : Nat) : List Nat :=
  let l := if isElec (g.ptType p) then
      (g.vAndI p).filterMap (g.roleChan p) ++ (if (g.rcdSlices p).isEmpty then [] else [if g.eng.mode = 1 then 8 * p + 6 else 8 * p + 7])
    else ((g.fluidSlots p).filter (g.roleUsed p)).filterMap (g.roleChan p)
  if g.eng.mode = 1 then l.flatMap (fun c => [c, c + 1]) else l

/-- Clip and seam by slot (bit k clip, bit 8+k seam), and the flags of the frame from the point's samples. -/
def State.sampleFlags (s g : State) (p : Nat) : Nat × Nat :=
  let l := g.roleChannels p
  let clip := mapOf 8 ((l.filter (fun c => (s.slice c).clip != 0)).map (· % 8))
  let seam := mapOf 8 ((l.filter (fun c => (s.slice c).seam)).map (· % 8))
  let course := if g.eng.mode = 1 then l.foldl (fun a c => a ||| courseFlags (s.course (c / 2)).state) 0 else 0
  (clip + 256 * seam, b2n (seam != 0) + 2 * b2n (clip != 0) + course)

/-! ### The engine's work on a frame -/

/-- Channel frets (05): every channel that is valid takes its samples; an invalid one keeps its filter state, and its wideband
samples, whose chain is no fret's work (07 R178). Then the channels' checks, and the courses' (04 R98, R110, R112). (log 39) -/
def State.channelFrets (s g : State) (obs : FrameObs) (cut : Option Nat) : State :=
  let n := s.frm
  let bad (c : Nat) : Bool := if g.eng.mode = 1 then chanInvalid cut obs.parity (c / 2 * 2) || chanInvalid cut obs.parity (c / 2 * 2 + 1)
    else chanInvalid cut obs.parity c
  let l := (s.hardware g obs).slices.mapIdx (fun c x => s.sliceFrame g n c { x with invalid := bad c })
  let s := s.modSlices (fun _ => l)
  let s := (List.range 128).foldl (fun s c => if g.eng.mode = 1 ∧ c % 2 = 1 then s else s.channelChecks g n c) s
  if g.eng.mode = 1 then
    (List.range 64).foldl (fun s j => if (s.slice (2 * j)).invalid then s else s.crossCheck g j) s
  else s

/-- One point fret (06, 07, 08): the state and the point's part of the hand-over block. (log 53) -/
def State.pointFret (s g : State) (p n : Nat) (valid : Bool) (flush : Bool) : State × PtBlock :=
  let fl := s.sampleFlags g p
  let ty := g.ptType p
  let s := s.modPt p (fun x => { x with el := { x.el with frmFlags := fl.1, flgIvl := x.el.flgIvl ||| fl.1 } })
  let cross := if isElec ty ∧ valid then (g.roleChan p (g.pn PT_F_REF_SLOT p)).bind (fun c => s.crossingOf g c n) else none
  let r : State × List Nat × Bool × Bool :=
    if !valid ∨ ty = 0 then (s, List.replicate 8 0, false, false)
    else if isElec ty then
      let e := s.elecFrame g p n cross
      (e.1, (if flush then e.1.flushLines g p e.2 else e.2), false, false)
    else s.fluidFrame g p n
  let s := r.1
  let s := if isElec ty then ((s.pqDetect g p n valid).windowFrame g p n valid cross).supraFrame g p n valid else s
  let s := if ty = 0 then s else s.capStep p valid
  (s, ⟨valid, r.2.1.map sat6432, fl.2 ||| (if valid then b2n r.2.2.1 * 2 ^ flagSubst else 0),
    (r.2.1.filter (fun q => 2 ^ 64 ≤ q)).length, r.2.2.2⟩)

/-- The staged values that the boundary at the elapsed instant `at'` takes (R46). -/
def State.dueStaged (s : State) (at' : Nat) : List Staged :=
  s.par.staged.filter (fun e => (e.effect == .nextInterval || e.effect == .nextPointInterval) && e.dueAt ≤ at')

/-- Engine flags of the time regime of a frame under the values that govern it (R79, R82): UNALIGNED and TIME_STEP. -/
def State.frameTime (s g : State) : Nat := 16 * b2n g.unaligned + 32 * b2n s.servo.accSlew

/-- The crossing that frame `n` shows on ND_ZC_CHANNEL waits to be judged (03 R73, R74). -/
def State.noteCrossing (s g : State) (n : Nat) : State :=
  let c := g.pn ND_ZC_CHANNEL
  if 128 ≤ c then s
  else
    match s.crossingOf g c n with
    | some x => s.modServo (fun v => { v with zcFound := (v.zcFound ++ [x]).take 16 })
    | none => s

/-- The engine processes frame `n` (R25, R48): every fret in order, then the hand-over block. `next` is the elapsed start of
the frame after it. -/
def State.processFrame (s : State) (obs : FrameObs) (next : Nat) : State :=
  let n := s.frm
  let g := s.ripened
  let cut := g.cutOff n obs.stalls
  let c := cut.map (·.1)
  let s := s.modEng (fun e => { e with
    cut := match cut with | some x => some (n, x.1, x.2.1, x.2.2) | none => e.cut
    parityEv := e.parityEv ++ obs.parity.map (fun f => (n, f)) })
  let s := s.channelFrets g obs c
  let s := if obs.parity.contains 146 then s.abandonDiag else s
  let s := match s.eng.diag with
    | some d => if d.first ≤ n ∧ (s.slice (2 * d.course)).invalid then s.abandonDiag else s.diagFrame n
    | none => s
  let s := s.notePaths.noteCrossing g n
  let retypes := if (n + 1) % 4000 = 0 then
      ((s.dueStaged next).filter (fun e => e.pid == PT_TYPE && e.val != (g.ptType e.inst : Int))).map (fun e => e.inst)
    else []
  let r := points16.foldl (fun (acc : State × List PtBlock) p =>
    let valid := !pointInvalid c obs.parity g.auxChannel p
    let y := acc.1.pointFret g p n valid (retypes.contains p)
    (y.1, acc.2 ++ [y.2])) (s, [])
  let s := r.1.modSlices (fun l => l.map (fun x => { x with seam := false }))
  let b : Block := ⟨n, r.2, s.led.commitDue && s.led.warnFrame == n, s.t0 n, s.regime, s.frameTime g⟩
  s.modEng (fun e => { e with work := some b })

/-! ### Changing mode (R56–R59) -/

/-- Frame b+16: the new mode's schedule measures from here (Table 2.9). -/
def State.changeMode (s : State) : State :=
  match s.eng.change with
  | some (b, old, new) =>
    if s.frm < b + 16 ∨ s.eng.mode = new then s
    else
      let s := if old = 1 then
          (s.endDiag.modEng (fun e => { e with diagQueue := [], restores := [] })).modCourses (fun l => l.map (fun _ => Course.reset))
        else s
      let s := if new = 1 then s.modCourses (fun l => l.map (fun _ => Course.reset)) else s
      let s := if old = 2 then forAll points16 (fun p s => s.leaveSpectrum p) s else s
      let s := (s.modEng (fun e => { e with mode := new })).modPlc (fun x => { x with borrow := new == 2 })
      let s := forAll points16 (fun p s => s.loadRcd p) s
      forAll points16 (fun p s =>
        if s.pqOn p then (s.dropWindow p (contentOf (b + 16))).modPt p (fun x => { x with pq := { x.pq with
          hist := List.replicate 8 [], frames := [] } })
        else s) s
  | none => s

/-! ### What takes effect at the next frame -/

/-- A next-frame value is in force: a SAR descriptor begins its entry afresh (16 R384). -/
def State.frameValueEffect (s : State) (e : Staged) : State :=
  if ND_SAR_ENTRY ≤ e.pid ∧ e.pid < ND_SAR_ENTRY + 128 then
    s.restartEntry ((e.pid - ND_SAR_ENTRY) / 32) ((e.pid - ND_SAR_ENTRY) % 32)
  else s

/-- Everything with the effect "Next frame" (R18), host limits (12 R297), session-modify (R232), and what the streams still
owe (19 R458). -/
def State.frameStart (s : State) : State :=
  let now := s.par.staged.filter (fun e => e.effect == .nextFrame)
  let s := s.modPar (fun x => { x with
    active := putAll x.active (now.map (fun e => (e.pid, e.inst, e.val)))
    staged := x.staged.filter (fun e => e.effect != .nextFrame) })
  let s := now.foldl (fun s e => s.frameValueEffect e) s
  let s := if now.isEmpty then s else s.refreshSw
  let s := forAll points16 (fun p s =>
    let s := match (s.outOf p).limitNext with
      | some l => (s.modOut p (fun o => { o with hostLimit := some l, limitNext := none })).setPilot p
      | none => s
    s.applyModify p) s
  let s := if 3 ≤ s.pwr.stage then s.fireTrigger 48 s.clk.lastTick convs else s
  let s := s.flushMerged
  forAll [0, 1, 2, 3] (fun k s =>
    if 0 < (s.stream k).units ∧ (s.stream k).evFrame ≠ some s.frm then s.streamReport k 0 else s) s

/-! ### The boundary as the engine sees it (R46) -/

/-- Parameters whose change discards a running harmonic window (07 R176). -/
def windowParam (pid : Nat) : Bool :=
  pid == PT_WIRING || pid == PT_F_REF_SLOT || pid == PT_F_NOM || pid == PT_HARM_GROUPING ||
    (PT_RATIO_0 ≤ pid && pid ≤ PT_RATIO_0 + 7)

/-- Parameters whose change ends the events under way (07 R170): all of Table 7.10. -/
def eventParam (pid : Nat) : Bool := 0x4300 ≤ pid && pid ≤ 0x434E

/-- One value that the boundary has taken, as it acts on the engine. (log 39) -/
def State.ripeEffect (s g : State) (b : Nat) (e : Staged) : State :=
  let p := e.inst
  if e.pid = ND_MODE then
    (if e.val.toNat = s.eng.mode then s else s.modEng (fun x => { x with change := some (b, s.eng.mode, e.val.toNat) }))
  else if e.pid = PT_TYPE then
    let s := s.pqEndAll g p b
    let s := match s.eng.capture with | some c => if c.pt = p then s.capTrailer c false else s | none => s
    let s := if e.val = 0 then forAll [4 * p, 4 * p + 1, 4 * p + 2, 4 * p + 3] (fun j s => s.dropCourse j) s else s
    let s := (List.range 8).foldl (fun s k => s.modSlice (8 * p + k) (fun x => { x with limFault := none, outRun := 0, inRun := 0 })) s
    s.modPt p (fun x => { x with
      el := Electrical.reset, pq := Quality.reset, fl := Fluid.reset, pulse := PulseLine.reset
      plsA := { x.plsA with hw := 0, lastAt := none }, plsB := { x.plsB with hw := 0, lastAt := none } })
  else if e.pid = CH_GAIN then s.modSlice p (fun x => x.takeGain s.clk.mclk (e.val.toNat % 8))
  else
    let s := if windowParam e.pid then s.dropWindow p (contentOf b) else s
    if eventParam e.pid then s.pqEndAll g p b else s

/-- The engine's interval values of a point, over the frames that it has processed (06 R152–R154, 07 R175, 08 R194, R206, R214). -/
def State.closeMeasured (s : State) (frames p : Nat) : State :=
  let s := s.modPt p (fun x => ({ x with pq := x.pq.closeInterval }).closeFluid)
  if isElec (s.ptType p) then s.closeElectrical frames p else s

/-- The start of frame `b`, a multiple of 4,000: what R46 applies there is ripe, and the boundary's work is due (R41,
R47). -/
def State.boundaryTick (s : State) (at' : Nat) : State :=
  let b := s.frm
  let g := s.ripened
  let due := s.dueStaged at'
  let changed := due.filter (fun e => s.pv e.pid e.inst != e.val)
  let s := s.modPar (fun x => { x with staged := x.staged.map (fun e =>
    if (e.effect == .nextInterval || e.effect == .nextPointInterval) && e.dueAt ≤ at' then { e with ripe := true } else e) })
  let s := s.modClk (fun c => { c with
    bdry := some b, bdryAt := at', bdryEnd := b - 1, interval := (c.interval + 1) % 2 ^ 32 })
  let s := forAll points16 (fun p s => s.closeMeasured (b - s.clk.ivalStart) p) s
  let s := changed.foldl (fun s e => s.ripeEffect g b e) s
  let h := s.ripened
  let s := s.modSar (fun x => { x with excGood := x.excGood.mapIdx (fun p v => v && g.excLevel p == h.excLevel p) })
  s.timersAtBoundary at' ((changed.filter (fun e => ND_SAR_TIMER_0 ≤ e.pid && e.pid < ND_SAR_TIMER_0 + 8)).map
    (fun e => e.pid - ND_SAR_TIMER_0))

/-! ### The frame tick -/

/-- A value held within a bound of either sign. -/
def holdIn (b : Nat) (x : Int) : Int := max (-(b : Int)) (min b x)

/-- What the servo removes from local time in one frame, of the load or accepted correction and of the measured offset: 25 ns at most, which
is 100 ppm of 250 µs (02 R40, 03 R72). -/
def Servo.slewNow (v : Servo) : Int × Int :=
  let d := holdIn 25 v.slew
  (d, holdIn (25 - d.natAbs) v.trim)

/-- The rate of the time base in the frame that begins: the frequency correction and the slew, within 200 ppm (03 R64, R72). -/
def Servo.rate (v : Servo) : Int :=
  holdIn 858993 (v.freq * 2 ^ 32 / 1000000000 - (v.slewNow.1 + v.slewNow.2) * 2 ^ 32 / 250000)

/-- The corrections after a frame in which they were slewed (R40, R72). -/
def Servo.slewed (v : Servo) : Servo :=
  let d := v.slewNow
  { v with slew := v.slew - d.1, trim := v.trim - d.2, accSlew := v.accSlew && v.slew != 0 }

/-- What a frame tick at `at'` does (R39): the frame ends, the engine has its samples unless a brown-out has stopped it
(22 R505), and the next frame begins. -/
def State.frameTick (s : State) (obs : FrameObs) (at' : Nat) : State :=
  let s := if 5 ≤ s.pwr.stage ∧ s.pwr.tb = none then s.changeMode.processFrame obs at' else s
  let s := s.modClk (fun c => { c with
    frame := (c.frame + 1) % 2 ^ 48, lastTick := at', mclk := c.mclk + 2048
    frac := (s.fineTime at' - 250000 * 2 ^ 32) % 2 ^ 32, rate := s.servo.rate })
  let s := (s.modServo Servo.slewed).modTest (fun x => { x with eff := x.regs })
  let s := if 5 ≤ s.pwr.stage ∧ s.frm % 4000 = 0 then s.boundaryTick at' else s
  let s := if 5 ≤ s.pwr.stage ∧ s.pwr.tb = none then (s.diagStep s.frm).diagWaits else s
  s.frameStart

/-- FRET_CUTOFF (R60, R61, Table 19.10): the event of a frame whose late frets were abandoned. -/
def execFretCutoff (t : Nat) (s : State) : Host.Outcome State Fault Refusal :=
  let s := s.at t
  match s.eng.cut with
  | some (n, f, cycles, stretch) =>
    let first := if f ≤ 128 then f - 1 else 0xFF
    let pts := mapOf 16 (if f ≤ 128 then points16 else points16.filter (fun p => f - 129 ≤ p))
    .next ((s.modEng (fun e => { e with cut := none })).raise 8 0
      (le 2 f ++ le 2 (min stretch 65535) ++ le 4 cycles ++ le 8 n ++ [byteOf first, 0] ++ le 2 pts))
  | none => .next s

/-- HANDOVER_BLOCK_READY (R48): the block of frame n stands in buffer n mod 2. -/
def execHandoverBlockReady (t : Nat) (s : State) : Host.Outcome State Fault Refusal :=
  let s := s.at t
  match s.eng.work with
  | some b =>
    let b := { b with warn := b.warn || (s.led.commitDue && s.led.warnFrame == b.frame) }
    .next (s.modEng (fun e => { e with work := none, buf := put e.buf (b.frame % 2) (some b) }))
  | none => .next s

/-- MODE_CHANGEOVER_COMPLETE (R57, R258): the node-scope MODE record of the changeover. -/
def execModeChangeoverComplete (t : Nat) (s : State) : Host.Outcome State Fault Refusal :=
  let s := s.at t
  match s.eng.change with
  | some (b, old, new) =>
    if s.frm ≤ b + 16 then .next s
    else
      let s := s.changeMode.modEng (fun e => { e with change := none })
      .next (s.build 6 16 (b + 16) { Span.reset with start := b, regime := max (s.pt 0).ivl.regime s.regime } (b + 16) 0
        (nodeBits (s.pt 0).ivl.flags ||| 2 ^ flagModeChange) 1
        ([byteOf old, byteOf new, 0, 0] ++ le 4 (s.costliest new)))
  | none => .next s

end Sys2Proof.Machine
end

