-- ==== Sys2Proof/Machine/Accumulate.lean ====
section
/-!
DEFINITION. Adding a frame to the legal registers (10 R247–R253), the holdup ledger's entries and banks (10 R264–R267), and
FRAME_ACCUMULATE.
-/

namespace Sys2Proof.Machine

/-! ### Registers -/

/-- The reverse of a quantity is billed (06 R147, 08 R207). -/
def State.reverseBilled (s : State) (p : Nat) : Bool := isElec (s.ptType p) || s.pb PT_FL_BIDIR p

/-- The registers that the eight quantities of R267 go to: main forward, main reverse target, second forward, second reverse
target, then the four substitutes (Table 10.1). -/
def State.targets (s : State) (p : Nat) : List Nat :=
  let t := (s.pt p).tariff
  let r := s.reverseBilled p
  [4 * t, if r then 4 * t + 1 else 32, 4 * t + 2, if r then 4 * t + 3 else 33, 34, 35, 36, 37]

/-- The largest value of a register, with its fraction (R249). (log 48) -/
def regTop : Nat := 2 ^ 96 - 1

/-- ACCUMULATOR_ROLLOVER (Table 10.14) for register `i`. (log 48) -/
def State.rollover (s : State) (p kind i n decade : Nat) : State :=
  let x := s.pt p
  s.raiseRaw 18 ([byteOf p, byteOf kind, byteOf i, 0] ++ le 2 (x.wraps.getD i 0) ++ zeros 2 ++ le 8 n ++ le 8 (x.int i) ++
    le 4 (displayed decade (x.int i)))

/-- One quantity added to one register in frame `n` (R248, R249, R251): exactly, with the displayed register's wrap and the
register's stop. (log 48) -/
def State.addReg (s : State) (p n i q : Nat) : State :=
  let old := (s.pt p).regs.getD i 0
  let new := min (old + q) regTop
  if new = old then s
  else
    let d := s.pn PT_REG_DECADE p
    let s := s.modPt p (fun x => { x with regs := put x.regs i new })
    let s := if i < 32 ∧ new / 2 ^ 32 / 10 ^ d / 1000000000 ≠ old / 2 ^ 32 / 10 ^ d / 1000000000 then
        (s.modPt p (fun x => { x with wraps := upd x.wraps i (fun w => min (w + 1) 65535) })).rollover p 0 i n d
      else s
    if i < 32 ∧ new = regTop ∧ (s.pt p).stuck.contains i = false then
      ((s.modPt p (fun x => { x with stuck := x.stuck ++ [i] })).rollover p 1 i n d).buildEvent p 5 0 n [byteOf i]
    else s

/-- The quantities of a frame added to a point's registers. -/
def State.addQuantities (s : State) (p n : Nat) (q : List Nat) : State :=
  ((s.targets p).zip q).foldl (fun s x => s.addReg p n x.1 x.2) s

/-! ### The ledger -/

/-- What an entry keeps of a point (R264): the open period with the part of it that the running interval has seen; no session
key (18 R440). -/
def Point.ledger (x : Point) : LedgerPoint :=
  ⟨x.regs, x.per.join x.ivl.flags x.ivl.missing x.ivl.regime x.ivl.tariffs, { x.ses with key := none, certs := [] }, x.seqNext,
    x.acked, x.wraps, x.late⟩

/-- The entry written now, of the next generation; it includes frame `frame`. The first generation is 1 (log entry 24).
(logs 23, 24) -/
def State.newEntry (s : State) (warning : Bool) (frame : Nat) : LedgerEntry :=
  let top := s.led.slots.foldl (fun a e => match e with | some x => max a x.gen | none => a) 0
  ⟨top + 1, warning, frame, s.clk.interval,
    (if s.servo.utcValid || s.servo.utcSaved then some s.servo.utc else none), s.pts.map Point.ledger, s.recs.nodeNext, s.recs.nodeAcked,
    s.recs.sealsAfter, s.recs.sealEnd, s.recs.sealHash, s.recs.due⟩

/-- The slot that an entry is written to: an empty one, else the one of the lowest generation (R264). -/
def ledgerSlot : List (Option LedgerEntry) → Nat → Nat × Nat → Nat
  | [], _, best => best.1
  | none :: _, i, _ => i
  | some e :: l, i, best => ledgerSlot l (i + 1) (if e.gen < best.2 then (i, e.gen) else best)

/-- An entry saved; the residual advances start from it (R265, R266). (log 23) -/
def State.saveLedger (s : State) (warning : Bool) (frame : Nat) : State :=
  let e := s.newEntry warning frame
  (s.modLed (fun d => { d with slots := put d.slots (ledgerSlot d.slots 0 (0, 2 ^ 64)) (some e) })).modPts (fun l =>
    l.map (fun x => { x with advBase := x.regs }))

/-- Generation of the newest entry. (log 24) -/
def State.newestGen (s : State) : Nat := s.led.slots.foldl (fun a e => match e with | some x => max a x.gen | none => a) 0

/-- The interval save that step 4 wrote, with the open periods and the records due as the boundary leaves them (R264): a restart
from it closes no closed period again, so that the advances of successive records sum to the registers (R256). (log 23) -/
def State.completeEntry (s : State) (frame : Nat) : State :=
  let gen := s.newestGen
  let e := { s.newEntry false frame with gen := gen }
  (s.modLed (fun d => { d with slots := d.slots.map (fun x => match x with
    | some y => if y.gen = gen then some e else x
    | none => none) })).modPts (fun l => l.map (fun x => { x with advBase := x.regs }))

/-- The tailpiece writes a bank after frame `n` (R266, R267): the advances of each point since the newest entry. (log 35) -/
def State.writeBank (s : State) (n : Nat) : State :=
  let adv := points16.map (fun p => (s.targets p).map (fun i =>
    min ((s.pt p).regs.getD i 0 - (s.pt p).advBase.getD i 0) (2 ^ 64 - 1)))
  let b : Bank := ⟨s.newestGen, n, s.pts.map (fun x => x.tariff), adv⟩
  (s.modLed (fun d => { d with banks := put d.banks d.sel (some b), sel := 1 - d.sel })).modPwr (fun x => { x with
    banked := inc32 x.banked })

/-- POWER_EARLY_WARNING (22 Table 22.6). -/
def State.warningEvent (s : State) (edge duration frame : Nat) : State :=
  s.raise 19 0 ([byteOf (s.led.warnSrc - 1), byteOf edge] ++ le 2 s.sw.vsw ++ le 4 duration ++ le 8 frame ++ le 4 s.pwr.banked)

/-- After frame `n` the warning commit, or a bank (R266). (log 35) -/
def State.holdup (s : State) (n : Nat) : State :=
  if s.led.commitDue ∧ s.led.warnFrame ≤ n then
    let s := (s.saveLedger true n).modLed (fun d => { d with commitDue := false, tailing := true })
    s.warningEvent 0 0 n
  else if s.led.tailing then s.writeBank n
  else s

/-! ### One frame of one point -/

/-- Flags that a frame has from the running interval: MODE_CHANGE, TIME_STEP, and UNALIGNED of a short one (02 R42, R56,
03 R79). -/
def State.intervalFlags (s : State) (p : Nat) : Nat :=
  ((s.pt p).ivl.flags &&& 0x60) ||| 16 * b2n (s.clk.ivalStart % 4000 != 0)

/-- A point's part of a block added (R21, R61, R248): registers, interval flags, missing frame, session, records. Those of the
last frame of an interval go after its PERIOD record (01 R38). -/
def State.addPoint (s : State) (b : Block) (p : Nat) : State :=
  let x := b.pts.getD p ⟨true, [], 0, 0, false⟩
  let test := s.testing || decide (b.frame < s.eng.testFrames)
  let none' := s.ptType p == 0
  let flags := x.flags ||| (if x.valid || none' then 0 else 2 ^ flagMissing) ||| b.time ||| (if test then 2 ^ flagTest else 0) |||
    2 ^ flagModeChange * b2n s.eng.ivlChange
  let missing := if x.valid || none' then 0 else 1
  let s := s.sessionFrameStart p b.frame
  let s := if x.valid && !none' then s.addQuantities p b.frame x.q else s
  let s := s.modPt p (fun y => { y with
    satFrames := if 0 < x.sat then inc32 y.satFrames else y.satFrames
    ivl := y.ivl.join flags missing b.regime (2 ^ y.tariff) })
  let all := flags ||| s.intervalFlags p
  let s := s.joinRecords p b.frame all missing b.regime
  let s := s.sessionFrameEnd p b.frame all missing b.regime
  let s := if s.clk.bdry.isSome && s.clk.bdryEnd == b.frame then s else s.buildLate p b.frame
  if x.subst && s.pb PT_STOP_ON_SUBST p then s.addCause p 8 else s

/-- Quantity and span that a meter pulse source takes from a frame (06 R160, R161). (log 19) -/
def mpoQuantity (source : Nat) (q : List Nat) : Nat × Nat :=
  if source = 1 then (q.getD 1 0, 1)
  else if source = 2 then (q.getD 0 0 + q.getD 1 0, 1)
  else if source = 3 then (q.getD 2 0, 4)
  else if source = 4 then (q.getD 3 0, 4)
  else (q.getD 0 0, 1)

/-- The meter pulses of a frame, placed once it is added (06 R161). -/
def State.addPulses (s : State) (b : Block) (p : Nat) : State :=
  let x := b.pts.getD p ⟨true, [], 0, 0, false⟩
  if x.valid && s.mpoOn p then
    let d := mpoQuantity (s.pn PT_MPO_SOURCE p) x.q
    s.mpoFrame p b.frame d.1 d.2
  else s

/-- CORE_EXCEPTION for a parity error that the engine met in frame `n`'s schedule: 147 stands for the hand-over block
(01 R32, 22 Table 22.8). -/
def State.parityEvent (s : State) (n f : Nat) : State :=
  s.raise 63 0 ([byteOf (if f = 147 then 3 else 2), 0xFF] ++ le 2 (if f = 147 then 145 else f) ++ zeros 4 ++ le 8 n)

/-- What the Capo does for each point between frames: a trip to report, a weld's condition, and the session's decisions. -/
def State.afterFrame (s : State) (p : Nat) : State :=
  let s := if (s.outOf p).tripOwed then s.reportTrip p else s
  (s.noteWeld p).sessionDecide p

/-- A frame reaches the node-scope records: those due whose span holds it, and the SEAL record that comes (R21, 03 R83, R258).
(log 53) -/
def State.nodeFrame (s : State) (b : Block) : State :=
  let f := nodeBits (b.time ||| (if s.testing || decide (b.frame < s.eng.testFrames) then 2 ^ flagTest else 0) |||
    2 ^ flagModeChange * b2n s.eng.ivlChange ||| s.intervalFlags 0)
  (s.joinDue 16 b.frame f 0 b.regime).modRecs (fun r => match r.sealEnd with
    | some e => if e ≤ b.frame then { r with sealFlags := r.sealFlags ||| f, sealRegime := max r.sealRegime b.regime } else r
    | none => r)

/-- A hand-over block added to the legal registers, and what the Capo does with the frame (01 R37, 02 R48, 10 R248, R266). -/
def State.accumulate (s : State) (b : Block) : State :=
  let n := b.frame
  let s := forAll points16 (fun p s => s.addPoint b p) s
  let s := s.nodeFrame b
  let s := s.modEng (fun e => { e with added := some n })
  let s := (s.holdup n)
  let s := s.reapplyAll.idleSwitches.seeFailsafe.settleOwnStop.startWaitingTests
  let s := forAll points16 (fun p s => s.afterFrame p) s
  let s := forAll points16 (fun p s => s.addPulses b p) s
  let mine := s.eng.parityEv.filter (fun x => x.1 == n)
  let s := s.modEng (fun e => { e with parityEv := e.parityEv.filter (fun x => x.1 != n) })
  mine.foldl (fun s x => s.parityEvent n x.2) s

/-! ### Which block is next -/

/-- The lower of two blocks by frame start. -/
def earlierBlock (a b : Option Block) : Option Block :=
  match a, b with
  | some x, some y => if y.start < x.start then some y else some x
  | some x, none => some x
  | none, y => y

/-- The block in the buffers that is added next. -/
def State.nextBlock (s : State) : Option Block := s.eng.buf.foldl earlierBlock none

/-- A block belongs to the interval that closes at the pending boundary, or no boundary is pending. -/
def State.mayAdd (s : State) (b : Block) : Bool := s.clk.bdry.isNone || decide (b.start < s.clk.bdryAt)

/-- FRAME_ACCUMULATE (R248): the Capo reads the next hand-over block and adds it; a frame after a boundary waits for that
boundary's work (02 R47). -/
def execFrameAccumulate (t : Nat) (s : State) : Host.Outcome State Fault Refusal :=
  let s := s.at t
  match s.nextBlock with
  | some b =>
    if s.pwr.capoOn && s.mayAdd b then
      .next ((s.modEng (fun e => { e with
        buf := e.buf.map (fun x => if x.map (fun y => y.start) = some b.start then none else x) })).accumulate b)
    else .next s
  | none => .next s

end Sys2Proof.Machine
end

