-- ==== Sys2Proof/Machine/Firmware.lean ====
section
/-!
DEFINITION. Firmware (21): images and their verification, staging, the service handover with its trial and fallback, and the
swap of a legal image or of the engine's microcode.
-/

namespace Sys2Proof.Machine

/-! ### Images (R484, R485) -/

/-- What the header of an image says (Table 21.1). -/
def imageInfo (b : Bytes) : ImageInfo :=
  ⟨fld b 8 2, fld b 10 2, fld b 12 2, fld b 14 2, fld b 16 2, fld b 18 2, slice b 24 32, sha256 b, b⟩

/-- The header's signature stands, with its magic, kind and version (R484). (logs 21, 45) -/
def imageSigned (kind : Nat) (b : Bytes) : Bool :=
  128 ≤ b.length && fld b 0 4 == 0x57463943 && fld b 4 1 == kind && fld b 5 1 == 1 && Config.headerSigned (b.take 128)

/-- The body is the one whose digest the header holds (R484). (log 21) -/
def imageWhole (b : Bytes) : Bool := fld b 20 4 + 128 == b.length && sha256 (b.drop 128) == slice b 24 32

/-- Largest image of a kind (R485). (log 21) -/
def imageLimit (kind : Nat) : Nat := if kind ≤ 1 then 2097152 else if kind = 2 then 524288 else 65536

/-- Kind of Table 21.1 that a staged kind builds: a difference builds a service image. (log 45) -/
def builtKind (kind : Nat) : Nat := if kind = 1 then 0 else kind

/-- A service slot. -/
def State.svcSlot (s : State) (i : Nat) : Slot := s.fw.svc.getD i Slot.reset

/-- A legal slot. -/
def State.legalSlot (s : State) (i : Nat) : Slot := s.fw.legals.getD i Slot.reset

/-- Change the firmware state. -/
def State.modSlot (s : State) (legal : Bool) (i : Nat) (f : Slot → Slot) : State :=
  s.modFw (fun x => if legal then { x with legals := upd x.legals i f } else { x with svc := upd x.svc i f })

/-- The running image of a built kind: the active service image, or the active legal image. -/
def State.runningImage (s : State) (kind : Nat) : Option ImageInfo :=
  if kind = 0 then (s.svcSlot s.fw.active).info else (s.legalSlot s.fw.legal).info

/-- Version in force of a built kind: the microcode has its own. (log 41) -/
def State.runningVersion (s : State) (kind : Nat) : Nat :=
  if kind = 3 then s.fw.mcVersion else match s.runningImage kind with | some x => x.version | none => 0

/-- The slot a built kind is staged in: 0, 1 service, 2, 3 legal (Table 21.6). The recovery loader writes legal slot 0
(R499). -/
def State.stagedSlot (s : State) (kind : Nat) : Nat :=
  if kind = 0 then 1 - s.fw.active else if s.fw.recovery then 2 else 3 - s.fw.legal

/-- FW_STAGED 51, FW_HANDOVER_DONE 52, FW_FALLBACK 53 (Table 21.6). (log 47) -/
def State.fwEvent (s : State) (ev kind outcome cause slot old new frame pause layout logIdx : Nat) : State :=
  s.raise ev 0 ([byteOf kind, byteOf outcome, byteOf cause, byteOf slot] ++ le 2 old ++ le 2 new ++ le 8 frame ++ le 4 pause ++
    le 2 layout ++ le 2 s.fw.format ++ le 4 logIdx)

/-- The value fields of a log entry of kind 3 (Table 15.15). -/
def fwNew (version kind step : Nat) (digest : Bytes) : Bytes := le 2 version ++ [byteOf kind, byteOf step] ++ digest.take 12

/-! ### Staging (R486–R488) -/

/-- fw-begin (R486, R499, R502). (log 21) -/
def serveFwBegin (h : Hdr) (p : Bytes) (s : State) : Ans :=
  let kind := fld p 0 1
  let len := fld p 4 4
  if p.length ≠ 40 then refuse s 2
  else if 4 ≤ kind then refuse s 6
  else if s.fw.recovery ∧ kind ≠ 2 then refuse s 8
  else if kind < 2 ∧ (s.pn ND_FW_SERVICE_METHOD).testBit kind = false then refuse s 6
  else if kind ≠ 1 ∧ imageLimit kind < len then refuse s 6
  else if kind < 2 ∧ s.fw.trial = true then refuse s 8
  else
    let stage (s : State) (idx : Nat) : State := s.modFw (fun f => { f with
      stage := some ⟨kind, len, slice p 8 32, [], 0, [], none, h.heth, h.tag, idx⟩
      bootDue := none, swapAt := none, hand := f.hand.filter (fun x => x.2)
      legalPending := f.legalPending && kind < 2 })
    if kind < 2 then okS (stage s 0)
    else
      withSeal 0 (withLog 1 (fun s =>
        let idx := s.log.next
        let old := le 2 (s.runningVersion kind) ++ [byteOf kind]
        okS (stage (s.bump.enterHost h 3 0 0 old (fwNew (s.free % 65536) kind 0 (le 12 s.free)) s.frm) idx))) s

/-- Bytes received so far. -/
def stagedBytes (l : List (Nat × Bytes)) : Nat := l.foldl (fun a x => max a (x.1 + x.2.length)) 0

/-- Offset of an image slot in the MRAM, by its code: 0 and 1 service, 2 and 3 legal (01 Table 1.7). -/
def slotOffset (k : Nat) : Nat := [0x100000, 0x300000, 0x000000, 0x080000].getD k 0

/-- fw-data (R486, R487). A piece that the MRAM controller blocks is not written (01 R35): the legal slots take none with SEAL0
open. -/
def serveFwData (p : Bytes) (s : State) : Ans :=
  let off := fld p 0 4
  let b := p.drop 4
  if p.length < 5 ∨ 244 < p.length then refuse s 2
  else
    match s.fw.stage with
    | some g =>
      if g.state ≠ 0 then refuse s 8
      else if g.length < off + b.length then refuse s 6
      else if g.kind = 1 ∧ off ≠ stagedBytes g.pieces then refuse s 6
      else
        let k := s.stagedSlot (builtKind g.kind)
        okS (s.writeMram (if g.kind < 2 then 2 else 1) (slotOffset k + if g.kind = 1 then 0 else off) (fun s =>
          let s := if g.kind < 2 then s.modSlot false k (fun _ => Slot.reset) else s.modSlot true (k - 2) (fun _ => Slot.reset)
          s.modFw (fun f => { f with stage := some { g with pieces := g.pieces ++ [(off, b)] } })))
    | none => refuse s 8

/-- Byte `i` of a file: of the latest piece that holds it. -/
def pieceByte (l : List (Nat × Bytes)) (i : Nat) : Option Byte :=
  l.foldl (fun a x => if x.1 ≤ i ∧ i < x.1 + x.2.length then x.2[i - x.1]? else a) none

/-- The whole file, where every byte has been received. -/
def wholeFile (len : Nat) (l : List (Nat × Bytes)) : Option Bytes := (List.range len).mapM (pieceByte l)

/-- The operations of a difference file (Table 21.2): none where one is malformed. -/
def applyOps (src : Bytes) : Nat → Bytes → Bytes → Option Bytes
  | 0, _, _ => none
  | k + 1, ops, out =>
    match ops with
    | [] => some out
    | c :: _ =>
      if c.toNat = 1 then
        (if ops.length < 9 ∨ src.length < fld ops 1 4 + fld ops 5 4 then none
         else applyOps src k (ops.drop 9) (out ++ slice src (fld ops 1 4) (fld ops 5 4)))
      else if c.toNat = 2 then
        (if ops.length < 5 + fld ops 1 4 then none
         else applyOps src k (ops.drop (5 + fld ops 1 4)) (out ++ slice ops 5 (fld ops 1 4)))
      else none

/-- The image a difference builds, at most the 2 MiB of a service image (R485, R487, R488). -/
def buildDifference (src file : Bytes) : Option Bytes :=
  if file.length < 40 ∨ fld file 0 4 ≠ 0x4C443943 ∨ sha256 src ≠ slice file 8 32 then none
  else
    match applyOps src (file.length + 1) (file.drop 40) [] with
    | some out => if out.length = fld file 4 4 ∧ out.length ≤ 2097152 then some out else none
    | none => none

/-- The image that a complete staging leaves in the slot. -/
def State.builtImage (s : State) (g : Staging) : Option Bytes :=
  match wholeFile g.length g.pieces with
  | some f =>
    if sha256 f ≠ g.sha then none
    else if g.kind = 1 then
      (match s.runningImage 0 with | some x => buildDifference x.image f | none => none)
    else some f
  | none => none

/-- fw-verify (R488): the transfer closes; a failed one discards the staging. -/
def serveFwVerify : Bytes → State → Ans := noPayload (fun s =>
  match s.fw.stage with
  | some g =>
    if g.state ≠ 0 then refuse s 8
    else
      match s.builtImage g with
      | some b => okS (s.modFw (fun f => { f with
          stage := some { g with state := 1, built := b } }))
      | none => ⟨s.modFw (fun f => { f with stage := none }), 17, [], []⟩
  | none => refuse s 8)

/-- Outcome of the verification (R488, R497, Table 21.6). A legal image may export a layout that the running one does not
take: it then waits for a start. (log 21) -/
def State.stageOutcome (s : State) (kind : Nat) (b : Bytes) : Nat :=
  let x := imageInfo b
  if !imageSigned kind b then 1
  else if !imageWhole b then 2
  else if Config.siliconRevision < x.silicon then 3
  else
    match s.runningImage kind with
    | some r =>
      if s.fw.recovery = false ∧ ((r.exported < x.importLo ∨ x.importHi < r.exported) ∨
          (kind = 0 ∧ (x.exported < r.importLo ∨ r.importHi < x.exported))) then 4
      else if kind = 0 ∧ Config.canBuildFormat s.fw.format x.format = false then 5
      else 0
    | none => 0

/-- FW_STAGE_VERIFIED (R488): FW_STAGED with its outcome; a failed slot is marked empty. -/
def execFwStageVerified (t : Nat) (s : State) : Host.Outcome State Fault Refusal :=
  let s := s.at t
  match s.fw.stage with
  | some g =>
    if g.state ≠ 1 then .next s
    else
      let k := builtKind g.kind
      let x := imageInfo g.built
      let out := s.stageOutcome k g.built
      let slot := s.stagedSlot k
      let image : ImageInfo := if k = 3 then
          (match s.runningImage 2 with
           | some r => { r with image := r.image.take 458752 ++ zeros (458752 - r.image.length) ++ g.built }
           | none => x)
        else x
      let s := s.fwEvent 51 g.kind out 0 slot (s.runningVersion k) x.version s.frm 0 0 g.logIdx
      let s := s.modFw (fun f => { f with
        stage := if out = 0 then some { g with state := 2, info := some x } else none })
      .next (s.modSlot (2 ≤ slot) (slot % 2) (fun _ =>
        { Slot.reset with info := if out = 0 then some image else none }))
  | none => .next s

/-! ### fw-handover (R489, R496, R500) -/

/-- fw-handover: a service image boots on the standby core, a legal image or microcode waits for its boundary. In the recovery
loader the verified image starts at once (R499). -/
def serveFwHandover (h : Hdr) : Bytes → State → Ans := noPayload (fun s =>
  match s.fw.stage with
  | some g =>
    if g.state ≠ 2 ∨ s.led.warnFrom.isSome = true ∨ s.fw.trial = true ∧ g.kind < 2 then refuse s 8
    else if g.kind < 2 then
      okS (s.modFw (fun f => { f with stage := some { g with state := 3, heth := h.heth, tag := h.tag }
                                      bootDue := some (s.clk.up + 2000000000) }))
    else
      withSeal 0 (withLog 1 (fun s =>
        let idx := s.log.next
        let x := g.info.getD (imageInfo g.built)
        let b := s.nextBoundary
        let s := s.enterHost h 3 0 0 (le 2 (s.runningVersion g.kind) ++ [byteOf g.kind]) (fwNew x.version g.kind 1 x.digest)
          (if s.fw.recovery then s.frm else b)
        if s.fw.recovery then
          let s := s.enterCapo 3 0 0 (le 2 0 ++ [2]) (fwNew x.version 2 3 x.digest) s.frm
          okS ((s.modFw (fun f => { f with recovery := false, stage := none, legal := 0 })).modPwr
            (fun w => { w with stage := 2, capoOn := true })|>.modHost (fun x => { x with capo := true }))
        else
          okS (s.modFw (fun f => { f with
            stage := some { g with state := 3, heth := h.heth, tag := h.tag, logIdx := idx }
            swapAt := some (s.clk.up + 1000000) })))) s
  | none => refuse s 8)

/-- STANDBY_READY (R489): the handover begins at the next frame boundary F. -/
def execStandbyReady (t : Nat) (s : State) : Host.Outcome State Fault Refusal :=
  let s := s.at t
  match s.fw.bootDue with
  | some d =>
    if t ≤ d then .next (s.modFw (fun f => { f with bootDue := none, hand := some (s.frm + 1, false) })) else .next s
  | none => .next s

/-- A handover that does not come about: the image stays staged (R489, R500). No frame is the first under the new image: the
event's frame is a free value (log entry 47). (logs 21, 47) -/
def State.notTaken (s : State) : State :=
  match s.fw.stage with
  | some g =>
    let v := match g.info with | some x => x.version | none => 0
    (s.bump.modFw (fun f => { f with bootDue := none, hand := none, stage := some { g with state := 2 } })).fwEvent 52 g.kind 1 0
      s.fw.active (s.runningVersion 0) v s.free 0 0 0
  | none => s.modFw (fun f => { f with bootDue := none, hand := none })

/-- HANDOVER_BOOT_TIMEOUT (R489). -/
def execHandoverBootTimeout (t : Nat) (s : State) : Host.Outcome State Fault Refusal :=
  let s := s.at t
  if ripeAt s.fw.bootDue t = true then .next s.notTaken else .next s

/-- The new core is active at F + 2 frames (R489, R495): the slots change roles and the trial begins. -/
def State.takeOver (s : State) : State :=
  match s.fw.stage with
  | some g =>
    let old := s.runningImage 0
    let new := g.info.getD (imageInfo g.built)
    let layout := match old with | some x => x.exported | none => 0
    let ov := s.runningVersion 0
    let s := s.modFw (fun f => { f with
      active := 1 - f.active, stage := none, hand := none, trial := true, format := new.format
      confirmDue := some (s.clk.up + s.pn ND_FW_CONFIRM_TIMEOUT * 1000000000) })
    let s := (s.modPar (fun x => { x with oldCopy := x.stored })).modHost (fun x => { x with service := new.version })
    s.fwEvent 52 g.kind 0 0 s.fw.active ov new.version s.frm 500 layout 0
  | none => s.modFw (fun f => { f with hand := none })

/-- The node falls back to the old image (R492, R495): warm or cold; the new slot is marked empty. -/
def State.fallBack (s : State) (cause pause layout : Nat) : State :=
  let ov := s.runningVersion 0
  let gone := s.fw.active
  let s := (s.modFw (fun f => { f with
    active := 1 - f.active, trial := false, hand := none, confirmDue := none
    format := match (f.svc.getD (1 - f.active) Slot.reset).info with | some x => x.format | none => f.format })).modSlot false gone
      (fun _ => Slot.reset)
  let s := (s.modPar (fun x => { x with stored := x.oldCopy, oldCopy := [] })).modHost (fun x => { x with service := s.runningVersion 0 })
  s.fwEvent 53 0 0 cause s.fw.active ov (s.runningVersion 0) s.frm pause layout 0

/-- FW_CONFIRM_TIMEOUT (R492): a warm fallback begins at the next frame boundary. -/
def execFwConfirmTimeout (t : Nat) (s : State) : Host.Outcome State Fault Refusal :=
  let s := s.at t
  if s.fw.trial = true ∧ ripeAt s.fw.confirmDue t = true ∧ s.fw.hand = none then
    .next (s.modFw (fun f => { f with hand := some (s.frm + 1, true) }))
  else .next s

/-- fw-confirm (R491). -/
def serveFwConfirm : Bytes → State → Ans := noPayload (fun s =>
  if s.fw.trial ∧ s.fw.hand = none then
    let top := s.fw.svc.foldl (fun a x => max a x.order) 0
    let s := s.modSlot false s.fw.active (fun x => { x with confirmed := true, order := top + 1 })
    okS ((s.modFw (fun f => { f with trial := false, confirmDue := none })).modPar (fun x => { x with oldCopy := [] }))
  else refuse s 8)

/-! ### The service pair cold (R453, R492, R493) -/

/-- What the service pair knows of the ring, from nothing (R492); the switch's own state, its links, its learned addresses and
its queues, and the record that the Capo has posted stay. (log 20) -/
def Ring.fresh (r : Ring) : Ring :=
  { Ring.reset with
    lkaUp := r.lkaUp, lkbUp := r.lkbUp, lkaBlocked := r.lkaBlocked, lkbBlocked := r.lkbBlocked, learned := r.learned
    tooDeep := r.tooDeep, sawFrame := r.sawFrame, postedIn := r.postedIn, posted := r.posted, faultsLost := r.faultsLost
    overSeen := r.overSeen, crcBad := r.crcBad, ivalBad := r.ivalBad
    mainsQueue := r.mainsQueue, mainsDropped := r.mainsDropped, sent := r.sent }

/-- The service pair starts from nothing: requests in progress are answered ABORTED, held parts, answers and the open batch
go, V2G sessions end and PT_PLC_LOSS is counted from now, the servo holds over. (log 20) -/
def State.coldService (s : State) : State :=
  let s := s.host.held.foldl (fun s r => s.post r.hdr.mbx r.code r.hdr.tag 15 []) s
  let s := s.modHost (fun x => { x with
    held := [], pause := false, replies := [], mbx := x.mbx.map (fun m => { m with held := none, answer := none }) })
  let s := s.modPar (fun x => { x with batch := none })
  let s := forAll points16 (fun p s => s.modOut p (fun o => { o with
    v2g := false, paused := false, wants := false, slacPending := []
    lossDue := if o.lossDue.isSome || o.v2g then some (s.clk.up + s.pn PT_PLC_LOSS p * 1000000) else none })) s
  ((s.modRing Ring.fresh).freshPtp 7).modKeys (fun k => { k with queue := [] })

/-- A handover to a new image is under way, and no fallback. (log 21) -/
def State.handingOver (s : State) : Bool := s.fw.bootDue.isSome || s.fw.hand.any (fun x => !x.2)

/-- SERVICE_LIVENESS_FAIL (R492, R493, R516): `exc` is the code of the exception that stopped the active core, if one did. On
trial the node falls back cold, else the standby core takes over with the same image, and a handover under way does not come
about (log entry 21). -/
def execServiceLivenessFail (t : Nat) (exc : Option Nat) (s : State) : Host.Outcome State Fault Refusal :=
  let s := s.at t
  if s.fw.svcRunning then
    let s := match exc with
      | some c => s.raise 63 0 ([5, 0xFF, 0xFF, 0xFF] ++ zeros 4 ++ le 8 s.frm ++ zeros 4 ++ le 4 c)
      | none => s
    let s := s.coldService
    .next (if s.fw.trial then s.fallBack (if exc.isSome then 2 else 1) 0 0
      else if s.handingOver then s.notTaken
      else s)
  else .next s

/-! ### The swap at a boundary (R496–R498) -/

/-- CONFIG_REFUSED by the cycle condition (Table 19.14). (log 28) -/
def State.cyclesRefused (s : State) (tag cost : Nat) : State :=
  s.raise 55 0 ([1, 1, 0, 5] ++ le 2 0 ++ le 2 tag ++ le 8 s.frm ++ le 4 cost ++ le 4 93100)

/-- The costs a staged image brings. (log 45) -/
def stagedCosts (g : Staging) : List Nat := Config.costTable (if g.kind = 3 then g.built else g.built.drop 458752)

/-- Version of the microcode section that a legal image carries, as the section's own header says (log entry 21). -/
def mcVersionOf (image : Bytes) : Nat := fld (image.drop 458752) 8 2

/-- A scheduled swap that the boundary before frame `b` takes (R496, R497). (log 21) -/
def State.swapImages (s : State) (b : Nat) : State :=
  match s.fw.swapAt, s.fw.stage with
  | some d, some g =>
    if s.clk.bdryAt < d then s
    else
      let x := g.info.getD (imageInfo g.built)
      let outside := match s.runningImage 2 with
        | some r => decide (g.kind = 2 ∧ (x.exported < r.importLo ∨ r.importHi < x.exported))
        | none => false
      let trial := s.modFw (fun f => { f with costs := stagedCosts g })
      let cost := trial.costliest ((s.eng.change.map (fun c => c.2.2)).getD s.eng.mode)
      if outside then
        (s.bump.modFw (fun f => { f with swapAt := none, stage := none, legalPending := true })).fwEvent 52 g.kind 2 0
          (3 - s.fw.legal) (s.runningVersion g.kind) x.version s.free 0 0 g.logIdx
      else if 93100 < cost then
        (s.modFw (fun f => { f with swapAt := none, stage := some { g with state := 2 } })).cyclesRefused g.tag cost
      else
        let ov := s.runningVersion g.kind
        let layout := match s.runningImage 2 with | some r => r.exported | none => 0
        let idx := s.log.next
        let s := s.enterCapo 3 0 0 (le 2 ov ++ [byteOf g.kind]) (fwNew x.version g.kind 2 x.digest) b
        let s := s.modFw (fun f => { f with
          legal := 1 - f.legal, swapAt := none, stage := none, costs := stagedCosts g
          mcVersion := if g.kind = 3 then x.version else mcVersionOf g.built })
        let s := s.modPar (fun y => { y with cost := cost })
        s.fwEvent 52 g.kind 0 0 (2 + s.fw.legal) ov x.version b 0 layout idx
  | _, _ => s

/-! ### fw-status -/

/-- State code of fw-status (R502). -/
def State.fwState (s : State) : Nat :=
  match s.fw.stage with
  | some g => if g.state < 3 then g.state + 1 else if g.kind < 2 then 4 else 6
  | none => if s.fw.trial then 5 else if s.fw.legalPending then 7 else 0

/-- fw-status (Table 20.5). With no staging, the kind is a free value. (log 21) -/
def serveFwStatus : Bytes → State → Ans := noPayload (fun s =>
  let left := match s.fw.confirmDue with | some d => (d - s.clk.up) / 1000000000 | none => 0
  let r := match s.fw.stage with | some g => (g.pieces.foldl (fun (a : Nat) (x : Nat × Bytes) => a + x.2.length) 0, g.kind) | none => (0, s.free)
  okB s.bump ([byteOf s.fw.active, byteOf r.2, byteOf s.fwState, 0] ++ le 4 r.1 ++ le 4 left))

/-- FW_BEGIN. -/
def execFwBegin (h : Hdr) (p : Bytes) (s : State) : Host.Outcome State Fault Refusal := hostCmd 0x0601 h p (serveFwBegin h) s
/-- FW_DATA. -/
def execFwData (h : Hdr) (p : Bytes) (s : State) : Host.Outcome State Fault Refusal := hostCmd 0x0602 h p serveFwData s
/-- FW_VERIFY. -/
def execFwVerify (h : Hdr) (p : Bytes) (s : State) : Host.Outcome State Fault Refusal := hostCmd 0x0603 h p serveFwVerify s
/-- FW_HANDOVER. -/
def execFwHandover (h : Hdr) (p : Bytes) (s : State) : Host.Outcome State Fault Refusal :=
  hostCmd 0x0604 h p (serveFwHandover h) s
/-- FW_CONFIRM. -/
def execFwConfirm (h : Hdr) (p : Bytes) (s : State) : Host.Outcome State Fault Refusal := hostCmd 0x0605 h p serveFwConfirm s
/-- FW_STATUS. -/
def execFwStatus (h : Hdr) (p : Bytes) (s : State) : Host.Outcome State Fault Refusal := hostCmd 0x0606 h p serveFwStatus s

end Sys2Proof.Machine
end

