-- ==== Sys2Proof/Machine/Boundary.lean ====
section
/-!
DEFINITION. The work of the Capo at an interval boundary (02 R41–R47, Table 2.2): intervals, periods, calendar, retypes and
service, the staged values that come into force, and the ledger.
-/

namespace Sys2Proof.Machine

/-! ### Closing the interval -/

/-- Flags that the closing interval carries as a whole (02 R42, R56, 03 R79). -/
def State.closingFlags (s : State) : Nat :=
  2 ^ flagModeChange * b2n s.eng.ivlChange +
    2 ^ flagUnaligned * b2n (decide (s.clk.bdryEnd + 1 < s.clk.ivalStart + 4000)) + 2 ^ flagTimeStep * b2n s.clk.stepped

/-- The interval of every point closes (step 2 of Table 2.2); its flags reach the session that runs. (log 16) -/
def State.closeIntervals (s : State) : State :=
  let f := s.closingFlags
  (s.modRecs (fun r => if r.sealEnd.isSome then { r with sealFlags := r.sealFlags ||| nodeBits f } else r)).modPts (fun l => l.map (fun x =>
    { x with
      ivl := x.ivl.join f 0 0 0
      ses := if x.ses.running && x.ses.startRegs.isSome then
          { x.ses with span := x.ses.span.join f 0 x.ivl.regime 0 } else x.ses }))

/-- The interval that closed is part of every period (R21, R83). -/
def State.joinPeriods (s : State) : State :=
  s.modPts (fun l => l.map (fun x => { x with per := x.per.join x.ivl.flags x.ivl.missing x.ivl.regime x.ivl.tariffs }))

/-- Step 3: INTERVAL_INCOMPLETE (R62, 19 Table 19.12). -/
def State.incomplete (s : State) : State :=
  let l := points16.filter (fun p => s.ptType p != 0 && s.pn ND_INCOMPLETE_MIN ≤ (s.pt p).ivl.missing)
  if l.isEmpty then s
  else s.raise 17 0 (le 2 (mapOf 16 l) ++ [2, 0] ++ le 4 ((s.clk.interval + 2 ^ 32 - 1) % 2 ^ 32) ++ le 8 s.clk.bdryEnd ++
    le 8 s.clk.ivalStart ++ le 2 (l.foldl (fun a p => max a (s.pt p).ivl.missing) 0))

/-! ### UTC (R43, R44, 03 R80) -/

/-- UTC seconds at the start of frame `b`. -/
def utcAt (b : Nat) (utc : Int) : Int := b / 4000 - utc

/-- The announced leap second that the boundary before frame `b` takes (R44): at UTC midnight by the old offset for an
inserted second, by the new one for a deleted second. -/
def State.leapNow (s : State) (b : Nat) : Option Int :=
  match s.servo.leap with
  | some new =>
    if s.servo.utc < new ∧ utcAt b s.servo.utc % 86400 = 0 then some new
    else if new < s.servo.utc ∧ utcAt b new % 86400 = 0 then some new
    else none
  | none => none

/-- The period length in minutes (R63). -/
def periodMinutes (code : Nat) : Nat := [1, 5, 10, 15, 30, 60].getD code 15

/-- A period boundary falls at the start of frame `b` (R43). -/
def State.periodAt (s : State) (b : Nat) : Bool :=
  b % 4000 == 0 && utcAt b s.servo.utc % (60 * periodMinutes (s.pn ND_PERIOD_LEN) : Nat) == 0

/-- Minute of the local week, Monday 00:00 being 0 (R237): TAI second 0 of the epoch lies on a Thursday. -/
def localMinute (b : Nat) (utc tz : Int) : Nat := ((utcAt b utc / 60 + tz + 4320) % 10080).toNat

/-- Minutes since the latest switch point of a calendar entry, at most seven days (R237, Table 9.8). -/
def sinceSwitch (entry now : Nat) : Option Nat :=
  if entry.testBit 31 then
    (bitsOf 7 (entry / 2 ^ 24 % 128)).foldl (fun a d =>
      let x := (now + 10080 - (1440 * d + entry % 2048)) % 10080
      match a with | some y => some (min x y) | none => some x) none
  else none

/-- The tariff of the week calendar (R237): the latest switch point, the higher index where two coincide, else tariff 0. -/
def calendarTariff (entries : List Nat) (now : Nat) : Nat :=
  (entries.foldl (fun (a : Option Nat × Nat) e =>
    match sinceSwitch e now, a.1 with
    | some x, some y => if x ≤ y then (some x, e / 2 ^ 21 % 8) else a
    | some x, none => (some x, e / 2 ^ 21 % 8)
    | none, _ => a) (none, 0)).2

/-- The tariff in force from frame `b` (R237). -/
def State.tariffAt (s : State) (p b : Nat) : Nat :=
  if s.pn PT_TARIFF_MODE p = 1 then s.pn PT_TARIFF_FIXED p
  else calendarTariff ((List.range 24).map (fun i => s.pn (PT_CAL_0 + i) p)) (localMinute b s.servo.utc (s.pv PT_TZ_OFFSET p))

/-! ### Periods -/

/-- An empty period, which PT_REC_IDLE_PERIODS 1 skips (10 R274). -/
def Point.emptyPeriod (x : Point) : Bool :=
  x.ints == x.per.regs && x.per.flags == 0 && !x.ivlSes && !x.missedRestart

/-- The key class that a PERIOD record of point `p` takes (01 Table 1.6, 09 R230, 18 R431). (log 19) -/
def State.periodKey (s : State) (p : Nat) : Nat :=
  let x := s.sesOf p
  if x.running && x.startRegs.isSome && x.key.isSome && !x.parentRevoked then 3 else 2

/-- The period of point `p` closes with frame `e` (R43, 10 R256, R274). -/
def State.closePeriod (s : State) (e p : Nat) : State :=
  let s := s.closeAtPeriod p e
  let x := s.pt p
  let s := if s.pn PT_REC_IDLE_PERIODS p = 1 ∧ x.emptyPeriod = true then s
    else s.build 1 p e x.per e x.wrapSum (if x.missedRestart then putBit x.per.flags flagMissing true else x.per.flags)
      (s.periodKey p) (periodBody x.ints x.per.regs)
  s.modPt p (fun x => { x with missedRestart := false })

/-- PERIOD_CLOSED (19 Table 19.12); a period of full length holds the nominal frames, or one second fewer where a leap
second was deleted at its end (R44). -/
def State.periodClosed (s : State) (l : List Nat) (e : Nat) (deleted : Bool) : State :=
  match l with
  | [] => s
  | p :: _ =>
    let full := periodMinutes (s.pn ND_PERIOD_LEN) * 240000 - (if deleted then 4000 else 0)
    let short := l.any (fun q => decide (e + 1 < (s.pt q).per.start + full))
    s.raise 16 0 (le 2 (mapOf 16 l) ++ [byteOf (b2n short), 0] ++ le 4 ((s.clk.interval + 2 ^ 32 - 1) % 2 ^ 32) ++ le 8 e ++
      le 8 (l.foldl (fun a q => min a (s.pt q).per.start) (s.pt p).per.start))

/-- Step 6: every point whose period closes at the boundary, and the offset change that waits for a period boundary
(03 R80). (log 19) -/
def State.closePeriods (s : State) (b : Nat) (all deleted : Bool) (retyped : List Nat) : State :=
  let e := s.clk.bdryEnd
  let new := if all && s.periodAt b then s.servo.utcNew else none
  let s := if new.isSome then s.modPts (fun l => l.map (fun x => { x with per := x.per.join (2 ^ flagTimeStep) 0 0 0 })) else s
  let l := points16.filter (fun p => s.ptType p != 0 && (all || retyped.contains p))
  let s := (forAll l (fun p s => s.closePeriod e p) s).periodClosed l e deleted
  match new with
  | some u =>
    (s.enterCapo 5 0 0 (leI 2 s.servo.utc) (leI 2 u) b).modServo (fun v => { v with utc := u, utcNew := none, leap := none })
  | none => s

/-! ### Retypes and service (09 R242, R243) -/

/-- The two RETYPE records (10 Table 10.10). -/
def State.retypeRecords (s : State) (p old b : Nat) : State :=
  let l := (s.pt p).ints
  let head := [byteOf old, byteOf (s.ptType p), 0, 0]
  let regs (k : Nat) : Bytes := (List.range 8).flatMap (fun t => le 8 (l.getD (4 * t + k) 0))
  (s.buildEvent p 3 0 b (head ++ regs 0 ++ regs 1)).buildEvent p 3 1 b (head ++ regs 2 ++ regs 3)

/-- A retype in force (R243): the records, and every register of the point from zero. The dual inputs of a point of type NONE
act on nothing (R27). (log 19) -/
def State.retype (s : State) (p old b : Nat) : State :=
  let s := s.retypeRecords p old b
  let s := s.modPt p (fun x => { x with
    regs := List.replicate 38 0, wraps := List.replicate 32 0, stuck := [] })
  let s := s.mpoIdle p
  let s := [2 * p, 2 * p + 1].foldl (fun s k => (s.settleInput k).runInput k s.clk.up) s
  if s.ptType p = 0 then ((s.command (2 * p) false).command (2 * p + 1) false) else s

/-- The point leaves service, or returns (R242). (log 16) -/
def State.serviceAt (s : State) (p b : Nat) : State :=
  let x := s.pt p
  if s.pb PT_SERVICE p then
    if !x.outService && (x.ses.state == .idle || x.ses.state == .fault) then
      (s.modPt p (fun y => { y with outService := true })).buildEvent p 1 0 b [byteOf (sesCode x.ses.state)]
    else s
  else if x.outService then
    let s := if x.ses.state == .idle then s.pathOff p else (s.freshPilot p).backToIdle p 0
    (s.modPt p (fun y => { y with outService := false })).buildEvent p 2 0 b []
  else s

/-! ### Staged values in force -/

/-- What a value just in force does beyond being read (R18), for values with a boundary effect. -/
def State.boundaryValue (s : State) (pid inst : Nat) : State :=
  if pid = ND_NODE_ID then s.rediscover 0
  else if ND_SC_CONF_0 ≤ pid ∧ pid ≤ ND_SC_CONF_0 + 0x3F then s.startEntry (pid % 16)
  else if pid = ND_ZC_CHANNEL then
    s.modServo (fun v => { v with zc := .none, zcLast := none, zcPeriods := [], zcRejects := 0 })
  else if pid = ND_SW_FAILSAFE ∨ pid = ND_WD_WINDOW then
    (if s.sw.powered then s.modSw (fun d => { d with rearm := true }) else s)
  else if pid = PT_SI_MODE_0 ∨ pid = PT_SI_MODE_0 + 1 then
    (s.settleInput (2 * inst + (pid - PT_SI_MODE_0))).runInput (2 * inst + (pid - PT_SI_MODE_0)) s.clk.up
  else if pid = PT_MPO_ENABLE then s.mpoIdle inst
  else if pid = PT_MPO_SOURCE ∨ pid = PT_MPO_CONST then s.modPt inst (fun x => { x with mpo := { x.mpo with acc := 0 } })
  else if pid = PT_MPO_POLARITY then s.driveMpo inst id
  else s

/-- The host's descriptor of an entry that becomes reserved is cleared (16 Table 16.8). (log 28) -/
def State.clearDescr (s : State) (k i : Nat) : State :=
  s.modPar (fun x => { x with
    active := removeP x.active (sarPid k i) 0, stored := removeP x.stored (sarPid k i) 0
    staged := x.staged.filter (fun e => e.pid != sarPid k i) })

/-- Entries that the Capo takes at the boundary begin afresh, without the host's descriptors (16 R387, Table 16.8). -/
def State.reservedNow (s before : State) : State :=
  (List.range 3).foldl (fun s k => (List.range 32).foldl (fun s i =>
    if (before.reservedEntry k i).isNone && (s.reservedEntry k i).isSome then (s.clearDescr k i).restartEntry k i else s) s) s

/-- CONFIG_APPLIED (19 Table 19.14). A batch names no single level or instance: both are free values. (logs 28, 47) -/
def State.configApplied (s : State) (tag frame : Nat) : State :=
  let l := s.free
  s.bump.bump.raise 54 0 ([0, 0, 0, byteOf l] ++ le 2 s.bump.free ++ le 2 tag ++ le 8 frame ++ le 4 s.par.cost ++ le 4 93100)

/-- The values staged for the boundary come into force (R46, R477). -/
def State.commitRipe (s : State) (b : Nat) : State :=
  let before := s
  let changed := s.par.staged.filter (fun e => e.ripe && s.pv e.pid e.inst != e.val)
  let s := s.modPar (fun x => { x with active := putAll x.active x.ripeValues, staged := x.staged.filter (fun e => !e.ripe) })
  let s := changed.foldl (fun s e => s.boundaryValue e.pid e.inst) s
  let retyped := points16.filter (fun p => before.ptType p != s.ptType p)
  let s := forAll retyped (fun p s => s.retype p (before.ptType p) b) s
  let s := s.reservedNow before
  let s := s.modPar (fun x => { x with cost := s.costliest ((s.eng.change.map (fun c => c.2.2)).getD s.eng.mode) })
  let due := s.par.applyTag.filter (fun x => x.2 ≤ s.clk.bdryAt)
  let s := s.modPar (fun x => { x with applyTag := x.applyTag.filter (fun y => !(y.2 ≤ s.clk.bdryAt)) })
  due.foldl (fun s x => s.configApplied x.1 b) s

/-! ### The next interval -/

/-- Every interval begins at frame `b`, and every period that closed (R41, R43). -/
def State.beginSpans (s : State) (b : Nat) (closed : Nat → Bool) : State :=
  let f := 2 ^ flagTimeStep * b2n s.clk.stepped
  s.modPts (fun l => l.mapIdx (fun p x =>
    let span : Span := { Span.reset with start := b, regs := x.ints }
    { x with
      ivl := { span with flags := f }
      per := if closed p then span else x.per
      ivlSes := if closed p then false else x.ivlSes }))

/-- A warning that is over ends its tailpiece with an interval save (R272). -/
def State.endTail (s : State) : State :=
  if s.led.warnFrom.isNone then s.modLed (fun d => { d with tailing := false }) else s

/-- The Capo's work at the boundary before frame `b`, in the order of Table 2.2. The entry of step 4 also receives the periods
that the boundary opens and the records that it makes due (R264, R256; log entry 23). -/
def State.boundaryWork (s : State) (b : Nat) : State :=
  let s := s.closeIntervals.incomplete
  let s := (s.saveLedger false s.clk.bdryEnd).joinPeriods
  let s := s.postBalance s.clk.ivalStart
  let leap := s.leapNow b
  let deleted := match leap with | some u => decide (u < s.servo.utc) | none => false
  let s := match leap with
    | some u => s.modServo (fun v => { v with utc := u, leap := none })
    | none => s
  let g := s.ripened
  let retyped := points16.filter (fun p => g.ptType p != s.ptType p)
  let all := s.periodAt b || s.clk.stepped || g.pn ND_PERIOD_LEN != s.pn ND_PERIOD_LEN
  let s := s.closePeriods b all deleted retyped
  let s := forAll points16 (fun p s => s.buildLate p s.clk.bdryEnd) s
  let s := s.commitRipe b
  let s := forAll points16 (fun p s => s.serviceAt p b) s
  let s := forAll points16 (fun p s => s.modPt p (fun x => { x with tariff := s.tariffAt p b })) s
  let s := s.beginSpans b (fun p => all || retyped.contains p)
  let s := s.swapImages b
  let s := forAll points16 (fun p s => (s.setPilot p).loadRcd p) s
  let s := s.plcSweep
  let s := s.eng.restores.foldl (fun s j => s.modCourse j (fun x => { x with restoring := true })) s
  let s := s.modEng (fun e => { e with
    ivlChange := match e.change with | some c => c.1 == b | none => false
    diagQueue := e.diagQueue ++ e.restores, restores := [] })
  let s := (s.completeEntry s.clk.bdryEnd).endTail
  s.modClk (fun c => { c with ivalStart := b, bdry := none, stepped := false })

/-- Whether a block of the interval that closes is still to be added. -/
def State.blocksWait (s : State) : Bool :=
  (s.eng.buf ++ [s.eng.work]).any (fun x => match x with | some y => decide (y.start < s.clk.bdryAt) | none => false)

/-- INTERVAL_BOUNDARY (R47): once the last frame of the interval has been added. -/
def execIntervalBoundary (t : Nat) (s : State) : Host.Outcome State Fault Refusal :=
  let s := s.at t
  match s.clk.bdry with
  | some b => if s.pwr.capoOn && !s.blocksWait then .next (s.boundaryWork b) else .next s
  | none => .next s

end Sys2Proof.Machine
end

