-- ==== Sys2Proof/Machine/HostRecords.lean ====
section
/-!
DEFINITION. Signing and streaming the records that are due (10 R254, R259–R263), and the commands over the journal and the
legal event log (15 R377, 20 Table 20.5).
-/

namespace Sys2Proof.Machine

/-! ### Records that are due -/

/-- Whether a record waits for room in the record stream (R263). -/
def State.inQueue (s : State) (series seq : Nat) : Bool :=
  s.recs.queue.any (fun b => fld b 2 1 == (if series = 16 then 0xFF else series) && fld b 8 4 == seq)

/-- Points whose SESSION_END has been journalled and streamed leave CLOSED (09 Table 9.6). -/
def State.leaveClosed (s : State) : State :=
  forAll points16 (fun p s =>
    match (s.sesOf p).endSeq with
    | some q => if s.inQueue p q then s else s.closedToIdle p
    | none => s) s

/-- The follow-up of a SESSION_END that has been signed and journalled: its key is erased (09 R231, 18 R428). -/
def State.endSigned (s : State) (d : DueRec) : State :=
  if fld d.head 1 1 = 3 ∧ (s.sesOf d.series).endSeq = some d.seq then
    (s.eraseKey d.series).modSes d.series (fun x => { x with endDone := true })
  else s

/-- RECORD_SIGNED (R254, R259): the first record due is signed, journalled and streamed. -/
def execRecordSigned (t : Nat) (s : State) : Host.Outcome State Fault Refusal :=
  let s := s.at t
  match s.recs.due with
  | d :: rest =>
    if s.pwr.capoOn then
      let bytes := d.head ++ s.signRec d
      let s := if d.cls = 0 then s else s.askKey 1 d.cls (fld d.head 1 1) 32
      let s := (s.modRecs (fun r => { r with due := rest })).journalRec d bytes
      .next (((s.journalNear d).streamRec d bytes).endSigned d).leaveClosed
    else .next s
  | [] => .next s

/-- RECORD_STREAM_DEQUEUE (R263): the first queued record, once 64 words fit. -/
def execRecordStreamDequeue (t : Nat) (s : State) : Host.Outcome State Fault Refusal :=
  let s := s.at t
  match s.recs.queue with
  | b :: rest =>
    if 64 ≤ s.streamRoom 0 then .next ((s.modRecs (fun r => { r with queue := rest })).writeUnit 0 (wordsOf b)).leaveClosed
    else .next s
  | [] => .next s

/-! ### Journal commands -/

/-- A series as commands name it: a point, or 0xFF for node scope. -/
def onSeries (k : Nat → State → Ans) (n : Nat) (s : State) : Ans :=
  if n = 0xFF then k 16 s else if n < 16 then k n s else refuse s 5

/-- A record of a series has been built and journalled or withheld. (log 30) -/
def State.reached (s : State) (series seq : Nat) : Bool :=
  decide (seq < s.seqNext series) && !s.recs.due.any (fun d => d.series == series && d.seq == seq)

/-- The two parts of journal-read (20 Table 20.5). -/
def journalParts (status : Nat) (b : Bytes) : List Bytes :=
  [byteOf status :: padTo 128 b, byteOf status :: padTo 128 (b.drop 128)]

/-- journal-read (R259). (log 30) -/
def serveJournalRead (p : Bytes) (s : State) : Ans :=
  if p.length ≠ 6 then refuse s 2
  else onSeries (fun k s =>
    let seq := fld p 2 4
    if !s.reached k seq then refuse s 13
    else
      match s.recs.journal.find? (fun j => j.series == k && j.seq == seq) with
      | some j =>
        let r := s.readMram 6 0x580000 0xA00000
        if r.1 || j.damaged then
          okParts (r.2.modRecs (fun x => { x with journal := x.journal.map (fun i =>
            if i.slot = j.slot then { i with damaged := true } else i) })) (journalParts 3 j.bytes)
        else okParts r.2 (journalParts 0 j.bytes)
      | none => okParts s (journalParts (if s.isWithheld k seq then 1 else 2) [])) (fld p 0 1) s

/-- The near-full reports of the journal are armed again below 80 % (R262). -/
def State.journalRearm (s : State) : State :=
  if s.journalUnacked < 32768 then s.modRecs (fun r => { r with nearFull := false, withheldEv := false }) else s

/-- The later of two acknowledged numbers. -/
def laterAck (a : Option Nat) (n : Nat) : Option Nat := match a with | some x => some (max x n) | none => some n

/-- record-acknowledge (R260). (log 30) -/
def serveRecordAcknowledge (p : Bytes) (s : State) : Ans :=
  if p.length ≠ 6 then refuse s 2
  else onSeries (fun k s =>
    let seq := fld p 2 4
    if !s.reached k seq then refuse s 13
    else
      let s := if k = 16 then s.modRecs (fun r => { r with nodeAcked := laterAck r.nodeAcked seq })
        else s.modPt k (fun x => { x with acked := laterAck x.acked seq })
      okS s.journalRearm) (fld p 0 1) s

/-- journal-status (20 Table 20.5). -/
def serveJournalStatus : Bytes → State → Ans := noPayload (fun s =>
  okB s (le 2 (40960 - s.recs.journal.length) ++ le 2 s.journalUnacked ++
    (List.range 17).flatMap (fun k => le 4 (s.seqNext k) ++ le 4 (ackedField (s.seqAcked k))) ++
    le 4 s.recs.notStreamed ++ le 4 s.recs.lost))

/-! ### Legal event log commands -/

/-- log-read (20 Table 20.5): a place read over is damaged, and stays so. -/
def serveLogRead (p : Bytes) (s : State) : Ans :=
  let i := fld p 0 4
  if p.length ≠ 4 then refuse s 2
  else if s.log.next ≤ i then refuse s 13
  else
    match s.log.held.find? (fun e => e.index == i) with
    | some e =>
      let r := s.readMram 11 0xFB2000 0x40000
      if r.1 || e.damaged then
        okB (r.2.modLog (fun l => { l with held := l.held.map (fun x => if x.index = i then { x with damaged := true } else x) }))
          (3 :: padTo 64 e.bytes)
      else okB r.2 (0 :: padTo 64 e.bytes)
    | none => okB s (byteOf (if s.log.lost.contains i then 4 else 2) :: zeros 64)

/-- log-acknowledge (R377). -/
def serveLogAcknowledge (p : Bytes) (s : State) : Ans :=
  let i := fld p 0 4
  if p.length ≠ 4 then refuse s 2
  else if s.log.next ≤ i then refuse s 13
  else
    let s := s.modLog (fun l => { l with acked := laterAck l.acked i })
    okS (if s.log.unacked < 3277 then s.modLog (fun l => { l with nearFull := false, fullEv := false }) else s)

/-- JOURNAL_READ. -/
def execJournalRead (h : Hdr) (p : Bytes) (s : State) : Host.Outcome State Fault Refusal := hostCmd 0x0401 h p serveJournalRead s
/-- RECORD_ACKNOWLEDGE. -/
def execRecordAcknowledge (h : Hdr) (p : Bytes) (s : State) : Host.Outcome State Fault Refusal :=
  hostCmd 0x0402 h p serveRecordAcknowledge s
/-- LOG_READ. -/
def execLogRead (h : Hdr) (p : Bytes) (s : State) : Host.Outcome State Fault Refusal := hostCmd 0x0403 h p serveLogRead s
/-- LOG_ACKNOWLEDGE. -/
def execLogAcknowledge (h : Hdr) (p : Bytes) (s : State) : Host.Outcome State Fault Refusal :=
  hostCmd 0x0404 h p serveLogAcknowledge s
/-- JOURNAL_STATUS. -/
def execJournalStatus (h : Hdr) (p : Bytes) (s : State) : Host.Outcome State Fault Refusal :=
  hostCmd 0x0405 h p serveJournalStatus s

end Sys2Proof.Machine
end

