-- ==== Sys2Proof/Machine/Display.lean ====
section
/-!
DEFINITION. The legal display (11): what a page shows, waveforms and the book, updates and clears, power-on and power-off, and
the display's commands.
-/

namespace Sys2Proof.Machine

/-! ### Pages (R279) -/

/-- The pages, in order. -/
def State.pages (s : State) : List (Nat × Nat) :=
  (points16.filter (fun p => s.ptType p != 0)).flatMap (fun p => (bitsOf 32 (s.pn PT_DISP_REGS p)).map (fun i => (p, i)))

/-- One page comes after another. -/
def pageAfter (a b : Nat × Nat) : Bool := a.1 < b.1 || (a.1 == b.1 && a.2 < b.2)

/-- The page that follows `c`; with no pages the current one stays. (log 25) -/
def State.nextPage (s : State) (c : Nat × Nat) : Nat × Nat :=
  match s.pages.find? (fun x => pageAfter c x) with
  | some x => x
  | none => s.pages.headD c

/-- A current page that has gone is replaced by the next one (R291). -/
def State.livePage (s : State) : Nat × Nat :=
  if s.pages.contains s.disp.page then s.disp.page else s.nextPage s.disp.page

/-! ### What a page shows (R278, R280, R281) -/

/-- The segments a–g of a digit, bit 0 segment a (PRESUMED: the usual shapes, log entry 25). -/
def sevenSeg (d : Nat) : Nat := [0x3F, 0x06, 0x5B, 0x4F, 0x66, 0x6D, 0x7D, 0x07, 0x7F, 0x6F].getD d 0

/-- Segments of Table 11.3 above SEG92: k, M, Wh, varh, g, L, m³, J, for the unit of a quantity (0 µWh, 1 µvarh, 2 mg, 3 mL,
4 J) and E; 0 where the table has no row. (log 25) -/
def unitSegs (unit e : Nat) : Nat :=
  match unit, e with
  | 0, 6 => 4
  | 0, 9 => 5
  | 0, 12 => 6
  | 1, 6 => 8
  | 1, 9 => 9
  | 1, 12 => 10
  | 2, 3 => 16
  | 2, 6 => 17
  | 3, 3 => 32
  | 3, 6 => 64
  | 4, 0 => 128
  | 4, 3 => 129
  | 4, 6 => 130
  | _, _ => 0

/-- The unit of a register of a point of type `ty` (Tables 8.6 and 10.1); codes as `unitSegs`. -/
def registerUnit (ty i : Nat) : Nat :=
  let second := decide (2 ≤ i % 4)
  if ty = 4 then (if second then 4 else 2)
  else if ty = 5 then 3
  else if ty = 6 then (if second then 2 else 3)
  else if ty = 7 then (if second then 3 else 4)
  else if second then 1
  else 0

/-- The digit at a place of the nine, or none where it is a leading zero that is blanked. -/
def shownDigit (v dp j : Nat) : Option Nat :=
  if 8 ≤ j + dp ∨ 10 ^ (8 - j) ≤ v then some (v / 10 ^ (8 - j) % 10) else none

/-- SEG0–SEG62 and the decimal point. (log 25) -/
def digitSegs (v dp : Nat) : Nat :=
  (List.range 9).foldl (fun a j => a + (match shownDigit v dp j with | some d => sevenSeg d | none => 0) * 2 ^ (7 * j)) 0 +
    (if dp = 0 then 0 else 2 ^ (71 - dp))

/-- SEG104–SEG110: the status of point `p` at the snapshot. (log 25) -/
def State.statusSegs (s : State) (p : Nat) : Nat :=
  let x := s.pt p
  bitmapOf [x.ses.running || x.ses.state == .transferring || x.ses.state == .stopping, x.outService,
    s.keys.regenFail || !keyUsable (s.keyState 2 p) s.frm, s.testing,
    x.ses.state == .fault, s.unaligned, x.ivl.flags.testBit flagSubst]

/-- The value drawn for a page: the displayed register (10 R250). -/
def State.pageValue (s : State) (c : Nat × Nat) : Nat := displayed (s.pn PT_REG_DECADE c.1) ((s.pt c.1).int c.2)

/-- The image of a page once it is complete: SEG111 is dark (R280). (log 25) -/
def State.pageImage (s : State) (c : Nat × Nat) : Nat :=
  let p := c.1
  let i := c.2
  let dp := s.pn PT_DISP_DP p
  let host := s.disp.hostSegs * 2 ^ 112
  if s.pages.contains c then
    digitSegs (s.pageValue c) dp + sevenSeg (p / 10) * 2 ^ 71 + sevenSeg (p % 10) * 2 ^ 78 + sevenSeg (i / 4) * 2 ^ 85 +
      unitSegs (registerUnit (s.ptType p) i) (s.pn PT_REG_DECADE p + dp) * 2 ^ 92 +
      bitmapOf [i % 2 == 0, i % 2 == 1, decide (2 ≤ i % 4), s.disp.pin == some c] * 2 ^ 100 + s.statusSegs p * 2 ^ 104 + host
  else host

/-! ### Temperature and bands (R286) -/

/-- The panel temperature, 0.1 °C. -/
def State.panelTemp (s : State) : Int :=
  match s.pn ND_DISP_TEMP_SRC, s.disp.hostTemp with
  | 1, some v => v
  | _, _ => s.sar.dieTemp - s.pv ND_DISP_TEMP_OFFSET

/-- The band of a temperature. -/
def bandOf (t : Int) : Option Nat := if t < -200 ∨ 600 < t then none else some (min 7 ((t + 200) / 100).toNat)

/-- The waveform table of a band, empty for none. -/
def State.wave (s : State) (b : Nat) : List WavePhase := s.disp.waves.getD b []

/-- DISPLAY_FAULT (Table 11.7). -/
def State.dispFault (s : State) (cause edge seg : Nat) : State :=
  let s := if edge = 0 then s.modDisp (fun d => { d with faults := inc32 d.faults }) else s
  s.raiseRaw 47 ([byteOf cause, byteOf edge, byteOf seg, byteOf ((bandOf s.panelTemp).getD 0xFF)] ++ leI 2 s.panelTemp ++ zeros 2 ++
    le 8 s.frm ++ le 4 s.disp.faults)

/-! ### Phases and the book (R277, R283–R285) -/

/-- A level code in half-volts. -/
def levelOf (c : Nat) : Int := 15 * c - 30

/-- Voltage across a segment in a phase: 1 turning dark, 2 turning light, else holding. -/
def phaseVolt (w : WavePhase) (kind : Nat) : Int :=
  levelOf (if kind = 1 then w.dark else if kind = 2 then w.light else w.hold) - levelOf w.com

/-- Levels of COM and of segment `i` in half-volts (R277): those of the running phase at `at'` ns, a compensation phase with COM at
0 V; between updates, and past a segment's drive, every output is at 0 V. -/
def State.outputLevels (s : State) (i at' : Nat) : Int × Int :=
  match s.disp.run with
  | some r =>
    let com := match r.phase with | some k => levelOf (((s.disp.waves.getD r.band []).getD k ⟨0, 2, 2, 2, 2⟩).com) | none => 0
    if at' < r.start ∨ r.start + r.comp.getD i 0 * 1000000 ≤ at' then (0, 0) else (com, com + r.volts.getD i 0)
  | none => (0, 0)

/-- What segment `i` does in a run: a clear drives every segment; an update, each by its change. -/
def turning (kind image target i : Nat) : Nat :=
  if kind = 1 ∨ kind = 2 then kind
  else if image.testBit i = target.testBit i then 0
  else if target.testBit i then 2
  else 1

/-- Phase `k` of a waveform begins. -/
def State.startPhase (s : State) (r : DispRun) (k start : Nat) : State :=
  let w := (s.wave r.band).getD k ⟨0, 0, 0, 0, 0⟩
  s.modDisp (fun d => { d with run := some { r with
    phase := some k, start := start, ms := w.ms, marked := 0, comp := List.replicate 160 w.ms
    volts := (List.range 160).map (fun i => phaseVolt w (turning r.kind d.image r.target i)) } })

/-- Milliseconds of compensation of a book value in half V·ms. (log 4) -/
def compMs (x : Int) : Nat := (2 * x.natAbs + 15) / 30

/-- The book after `e` ms of a phase (R285). -/
def bookAfter (book : List Int) (r : DispRun) (e : Nat) : List Int :=
  book.mapIdx (fun i x => x + r.volts.getD i 0 * (min e (r.comp.getD i 0) : Nat))

/-- A run begins, with a compensation phase where the book asks for one. -/
def State.startRun (s : State) (kind cause band start : Nat) : State :=
  let page := s.livePage
  let c := s.disp.book.map compMs
  let m := c.foldl max 0
  let clear := kind == 1
  let s := s.modDisp (fun d => { d with updates := inc32 d.updates, page := page, valid := false, fullNext := d.fullNext && !clear })
  let r : DispRun := { DispRun.reset with
    kind := kind, cause := cause, band := band, page := page, snapshot := s.eng.added.getD 0, compMs := m
    shown := if s.pages.contains page then s.pageValue page else 0
    target := if clear then 2 ^ 160 - 1 else s.pageImage page }
  if m = 0 then s.startPhase r 0 start
  else
    s.modDisp (fun d => { d with run := some { r with
      phase := none, start := start, ms := m, comp := c, volts := d.book.map (fun x => if 0 < x then -15 else 15) } })

/-- The remainder of an interrupted phase begins (R290). -/
def State.startRemainder (s : State) (o : DispRun) (start : Nat) : State :=
  s.modDisp (fun d => { d with openRun := none, run := some { o with kind := 4, start := start, marked := 0 } })

/-- Why a run cannot begin now (R286, R291): 2 temperature, 3 no valid table for its band. -/
def State.deferCause (s : State) (kind : Nat) : Option Nat :=
  match bandOf s.panelTemp with
  | none => some 2
  | some b =>
    let band := match s.disp.openRun with | some o => if kind = 4 then o.band else b | none => b
    if (s.wave band).isEmpty then some 3 else none

/-- The next run of those that are due begins, or is deferred (R286). None begins in a power-fail warning (10 R266). -/
def State.dispNext (s : State) (start : Nat) : State :=
  match s.disp.run, s.disp.todo with
  | none, (k, cause) :: rest =>
    if s.disp.rails ≠ 4 ∨ s.led.warnFrom.isSome = true then s
    else
      match s.deferCause k with
      | some c =>
        if s.disp.deferred.isSome then s
        else (s.modDisp (fun d => { d with deferred := some c })).dispFault c 0 0
      | none =>
        let s := match s.disp.deferred with
          | some c => (s.modDisp (fun d => { d with deferred := none })).dispFault c 1 0
          | none => s
        match k, s.disp.openRun with
        | 4, some o => (s.modDisp (fun d => { d with todo := rest })).startRemainder o start
        | _, _ =>
          let band := (bandOf s.panelTemp).getD 0
          if s.disp.fullNext ∧ k = 0 then
            (s.modDisp (fun d => { d with todo := (3, cause) :: rest })).startRun 1 3 band start
          else (s.modDisp (fun d => { d with todo := rest })).startRun k cause band start
  | _, _ => s

/-- A routine update, or one by command, is wanted now: it begins unless a run is under way or others are due. -/
def State.wantUpdate (s : State) (cause : Nat) : State :=
  if s.disp.run.isSome then s
  else if s.disp.todo.isEmpty then (s.modDisp (fun d => { d with todo := [(0, cause)] })).dispNext s.clk.up
  else s.dispNext s.clk.up

/-- DISPLAY_DONE (Table 11.6). -/
def State.dispDone (s : State) (cause : Nat) (r : DispRun) : State :=
  s.raiseRaw 46 ([byteOf cause, byteOf r.band, byteOf r.page.1, byteOf r.page.2] ++ le 4 r.shown ++ le 8 r.snapshot ++
    le 4 s.disp.updates ++ le 2 r.total ++ le 2 r.compMs)

/-! ### Power (R288, R289) -/

/-- Power-off: FLEN low, the rails removed, every output at AGND. -/
def State.dispOff (s : State) : State :=
  s.modDisp (fun d => { d with flen := false, rails := 0, railDue := none, run := none, todo := [], offPending := false
                               dwellDue := none, refreshDue := none })

/-- A phase stops `e` ms after it began: its share is booked, and its remainder waits for the next start (R285, R290). -/
def State.stopPhase (s : State) (e : Nat) : State :=
  match s.disp.run with
  | some r =>
    let e := min e r.ms
    s.modDisp (fun d => { d with
      book := bookAfter d.book r e, run := none
      openRun := some { r with ms := r.ms - e, comp := r.comp.map (fun x => x - e), marked := 0 } })
  | none => s

/-- At the warning's t0 the running phase stops with its exact elapsed time, and power-off runs at once (R289). The part of a
millisecond is rounded freely (log entry 4). (log 35) -/
def State.dispWarning (s : State) : State :=
  match s.disp.run with
  | some r => (s.stopPhase (divFree (s.clk.up - r.start : Nat) 1000000).toNat).dispOff
  | none => if s.disp.rails = 0 then s else s.dispOff

/-- A reset of the core die without a warning stops the phase at its last 10 ms mark (R285). (logs 25, 32) -/
def State.dispReset (s : State) : State :=
  match s.disp.run with
  | some r => (s.stopPhase r.marked).dispOff
  | none => s.dispOff

/-- Turn the front light as ND_DISP_FLEN says; it stays low until the first clear has been made (R288). -/
def State.frontLight (s : State) : State :=
  let clearing := s.disp.todo.any (fun x => x.1 == 1 || x.1 == 4) ||
    (match s.disp.run with | some r => r.kind == 1 || r.kind == 2 || r.kind == 4 | none => false)
  if clearing then s else s.modDisp (fun d => { d with flen := d.rails == 4 && s.pn ND_DISP_FLEN == 1 })

/-- Write of ND_DISP_ENABLE 0 (R289): power-off after the running update. -/
def State.dispDisable (s : State) : State :=
  if s.disp.run.isSome then s.modDisp (fun d => { d with offPending := true, todo := [] }) else s.dispOff

/-- The rails rise (Table 11.4): `vep`, `ven` and `ladder` are the ns after t0 at which each is good. One that is not good by its
maximum waits for its timeout. -/
def State.railStart (s : State) (t vep ven ladder : Nat) : State :=
  let m := s.readMram 8 0xF90000 0x20000
  let s := if m.1 then
      (m.2.modDisp (fun d => { d with book := List.replicate 160 0, openRun := none })).dispFault 4 0 0
    else m.2
  let s := s.modDisp (fun d => { d with retryDue := none, offPending := false })
  if 5000000 < vep then s.modDisp (fun d => { d with rails := 1, railDue := some (t + 5000000) })
  else if 10000000 < ven then s.modDisp (fun d => { d with rails := 2, railDue := some (t + 10000000) })
  else if 11000000 < ladder then s.modDisp (fun d => { d with rails := 3, railDue := some (t + 11000000) })
  else
    let on := t + max vep (max ven ladder)
    let s := s.modDisp (fun d => { d with
      rails := 4, railDue := none, run := none, todo := (if d.openRun.isSome then [(4, 2)] else []) ++ [(1, 3), (3, 2)]
      dwellDue := some (on + s.pn ND_DISP_DWELL * 1000000000), refreshDue := some (on + s.pn ND_DISP_REFRESH * 1000000000) })
    s.dispNext on

/-- DISPLAY_START (R288): with ND_DISP_ENABLE 1 the display starts once the merge is complete, and again when a warning has ended
or the enable is written. -/
def execDisplayStart (t vep ven ladder : Nat) (s : State) : Host.Outcome State Fault Refusal :=
  let s := s.at t
  if 5 ≤ s.pwr.stage ∧ s.pb ND_DISP_ENABLE = true ∧ s.disp.rails = 0 ∧ s.disp.retryDue = none ∧ s.led.warnFrom = none then
    .next (s.railStart t vep ven ladder)
  else .next s

/-- DISPLAY_RAIL_TIMEOUT (R288): the rails are removed and a retry is due 10 s later. -/
def execDisplayRailTimeout (t : Nat) (s : State) : Host.Outcome State Fault Refusal :=
  let s := s.at t
  if ripeAt s.disp.railDue t then
    .next ((s.modDisp (fun d => { d with
      rails := 0, railDue := none, flen := false, retryDue := some (t + 10000000000) })).dispFault 0 0 0)
  else .next s

/-- DISPLAY_START_RETRY (R288). -/
def execDisplayStartRetry (t vep ven ladder : Nat) (s : State) : Host.Outcome State Fault Refusal :=
  let s := s.at t
  if ripeAt s.disp.retryDue t = true ∧ s.pb ND_DISP_ENABLE = true ∧ s.led.warnFrom = none then
    .next (s.railStart t vep ven ladder)
  else .next s

/-! ### Runs -/

/-- What the end of an update leaves: the image stands, its event, and a temperature two bands away asks for a clear (R287).
(log 25) -/
def State.updateEnd (s : State) (r : DispRun) : State :=
  let far := match bandOf s.panelTemp with
    | some b => decide (r.band + 2 ≤ b ∨ b + 2 ≤ r.band)
    | none => false
  let s := s.modDisp (fun d => { d with image := r.target, valid := true, run := none, fullNext := d.fullNext || far })
  let s := if r.cause = 0 ∧ s.pb ND_DISP_DONE_ALL = false then s else s.dispDone r.cause r
  if s.disp.offPending then s.dispOff else s

/-- A run has made its last phase at `start`. (log 25) -/
def State.endRun (s : State) (r : DispRun) (start : Nat) : State :=
  if r.kind = 1 then s.startPhase { r with kind := 2 } 0 start
  else if r.kind = 2 then
    let s := (s.modDisp (fun d => { d with image := 2 ^ 160 - 1, run := none })).dispDone 3 r
    if s.disp.offPending then s.dispOff else s.frontLight.dispNext start
  else if r.kind = 4 then
    let s := s.modDisp (fun d => { d with run := none })
    if s.disp.offPending then s.dispOff else s.dispNext start
  else (s.updateEnd r).dispNext start

/-- DISPLAY_PHASE_END (R285): the book advances, and the next phase or the end of the run follows. -/
def execDisplayPhaseEnd (t : Nat) (s : State) : Host.Outcome State Fault Refusal :=
  let s := s.at t
  match s.disp.run with
  | some r =>
    let done := r.start + r.ms * 1000000
    if t < done then .next s
    else
      let s := s.modDisp (fun d => { d with book := bookAfter d.book r r.ms })
      let r := { r with total := r.total + r.ms }
      if r.kind = 4 then .next (s.endRun r done)
      else
        match r.phase with
        | none => .next (s.startPhase r 0 done)
        | some k => if k + 1 < (s.wave r.band).length then .next (s.startPhase r (k + 1) done) else .next (s.endRun r done)
  | none => .next s

/-- DISPLAY_BOOK_MARK (R285): the elapsed time is booked every 10 ms. -/
def execDisplayBookMark (t : Nat) (s : State) : Host.Outcome State Fault Refusal :=
  let s := s.at t
  match s.disp.run with
  | some r =>
    .next (s.modDisp (fun d => { d with run := some { r with
      marked := max r.marked (min r.ms ((t - r.start) / 10000000 * 10)) } }))
  | none => .next s

/-! ### The page sequence -/

/-- The next page comes up, and its dwell begins. -/
def State.turnPage (s : State) : State :=
  let next := s.nextPage s.disp.page
  (s.modDisp (fun d => { d with
    page := next, dwellDue := some (s.clk.up + s.pn ND_DISP_DWELL * 1000000000)
    refreshDue := some (s.clk.up + s.pn ND_DISP_REFRESH * 1000000000) })).wantUpdate 0

/-- DISPLAY_PAGE_CHANGE (R279, R284): a pinned page stays. -/
def execDisplayPageChange (t : Nat) (s : State) : Host.Outcome State Fault Refusal :=
  let s := s.at t
  if ripeAt s.disp.dwellDue t = true ∧ s.disp.pin = none then .next s.turnPage else .next s

/-- DISPLAY_REFRESH (R284): skipped while an update runs. -/
def execDisplayRefresh (t : Nat) (s : State) : Host.Outcome State Fault Refusal :=
  let s := s.at t
  if ripeAt s.disp.refreshDue t then
    let s := s.modDisp (fun d => { d with refreshDue := some (t + s.pn ND_DISP_REFRESH * 1000000000) })
    if !s.disp.todo.isEmpty || s.pageImage s.livePage != s.disp.image then .next (s.wantUpdate 0) else .next s
  else .next s

/-- A pin ends: the sequence goes on with the next page. -/
def State.unpin (s : State) : State :=
  if s.disp.pin.isSome then (s.modDisp (fun d => { d with pin := none, pinDue := none })).turnPage else s

/-- DISPLAY_PIN_EXPIRY (R279). -/
def execDisplayPinExpiry (t : Nat) (s : State) : Host.Outcome State Fault Refusal :=
  let s := s.at t
  if ripeAt s.disp.pinDue t then .next s.unpin else .next s

/-- DISPLAY_TEMP_EXPIRY (R286). -/
def execDisplayTempExpiry (t : Nat) (s : State) : Host.Outcome State Fault Refusal :=
  let s := s.at t
  if ripeAt s.disp.tempDue t then .next (s.modDisp (fun d => { d with hostTemp := none, tempDue := none })) else .next s

/-- DISPLAY_OVERCURRENT (24 Table 24.5): `seg` 0–159, or 0xFF for COM. -/
def execDisplayOvercurrent (t seg : Nat) (s : State) : Host.Outcome State Fault Refusal :=
  let s := s.at t
  if s.disp.rails = 4 ∧ (seg < 160 ∨ seg = 0xFF) then .next (s.dispFault 1 0 seg) else .next s

/-! ### Commands -/

/-- display-pin (R279). -/
def serveDisplayPin (p : Bytes) (s : State) : Ans :=
  let pt := fld p 0 1
  let i := fld p 1 1
  let hold := fld p 2 2
  if p.length ≠ 4 then refuse s 2
  else if hold = 0 then okS s.unpin
  else if 16 ≤ pt ∨ s.ptType pt = 0 then refuse s 5
  else if !s.pages.contains (pt, i) || decide (300 < hold) then refuse s 6
  else okS ((s.modDisp (fun d => { d with
    pin := some (pt, i), pinDue := some (s.clk.up + hold * 1000000000), page := (pt, i) })).wantUpdate 0)

/-- display-static (R282): shown at the next update. -/
def serveDisplayStatic (p : Bytes) (s : State) : Ans :=
  if p.length ≠ 6 then refuse s 2 else okS (s.modDisp (fun d => { d with hostSegs := fld p 0 6 }))

/-- The phases of a display-waveform payload. -/
def readPhases (p : Bytes) : List WavePhase :=
  (chunks 6 (p.drop 2)).map (fun b => ⟨fld b 0 2, fld b 2 1, fld b 3 1, fld b 4 1, fld b 5 1⟩)

/-- A table is valid (R283): durations, codes, total, and 0 V·ms for each kind of segment. -/
def waveValid (l : List WavePhase) : Bool :=
  l.all (fun w => 1 ≤ w.ms && w.ms ≤ 1000 && w.com ≤ 4 && w.dark ≤ 4 && w.light ≤ 4 && w.hold ≤ 4) &&
    l.foldl (fun a w => a + w.ms) 0 ≤ 2000 &&
    [0, 1, 2].all (fun k => l.foldl (fun a w => a + phaseVolt w k * w.ms) 0 == 0)

/-- display-waveform (R283). -/
def serveDisplayWaveform (h : Hdr) (p : Bytes) (s : State) : Ans :=
  let band := fld p 0 1
  let n := fld p 1 1
  if p.length ≠ 2 + 6 * n then refuse s 2
  else if 8 ≤ band ∨ n = 0 ∨ 16 < n ∨ waveValid (readPhases p) = false then refuse s 6
  else
    withSeal 0 (withLog 1 (fun s =>
      let old := (s.wave band).length
      let s := s.modDisp (fun d => { d with waves := put d.waves band (readPhases p) })
      okS (s.enterHost h 6 0 0 [byteOf band, byteOf old] ([byteOf band, byteOf n, 0, 0] ++ (sha256 (p.drop 2)).take 12) s.frm))) s

/-- display-temperature (R286). -/
def serveDisplayTemperature (p : Bytes) (s : State) : Ans :=
  if p.length ≠ 2 then refuse s 2
  else okS (s.modDisp (fun d => { d with hostTemp := some (fldI p 0 2), tempDue := some (s.clk.up + 600000000000) }))

/-- display-update (R292): while a run is under way it follows that run. A display that is off cannot do it (log entry 25). -/
def serveDisplayUpdate : Bytes → State → Ans := noPayload (fun s =>
  if s.disp.rails ≠ 4 then refuse s 8
  else if s.disp.run.isSome then
    okS (if s.disp.offPending then s else s.modDisp (fun d => { d with todo := d.todo ++ [(0, 1)] }))
  else okS ((s.modDisp (fun d => { d with todo := d.todo.filter (fun x => x.1 != 0) ++ [(0, 1)] })).dispNext s.clk.up))

/-- DISPLAY_PIN. -/
def execDisplayPin (h : Hdr) (p : Bytes) (s : State) : Host.Outcome State Fault Refusal := hostCmd 0x0801 h p serveDisplayPin s
/-- DISPLAY_STATIC. -/
def execDisplayStatic (h : Hdr) (p : Bytes) (s : State) : Host.Outcome State Fault Refusal :=
  hostCmd 0x0802 h p serveDisplayStatic s
/-- DISPLAY_WAVEFORM. -/
def execDisplayWaveform (h : Hdr) (p : Bytes) (s : State) : Host.Outcome State Fault Refusal :=
  hostCmd 0x0803 h p (serveDisplayWaveform h) s
/-- DISPLAY_TEMPERATURE. -/
def execDisplayTemperature (h : Hdr) (p : Bytes) (s : State) : Host.Outcome State Fault Refusal :=
  hostCmd 0x0804 h p serveDisplayTemperature s
/-- DISPLAY_UPDATE. -/
def execDisplayUpdate (h : Hdr) (p : Bytes) (s : State) : Host.Outcome State Fault Refusal :=
  hostCmd 0x0805 h p serveDisplayUpdate s

end Sys2Proof.Machine
end

