-- ==== Sys2Proof/Machine/HostKeys.lean ====
section
/-!
DEFINITION. The key commands (18 R425–R441, 20 Table 20.5), attestation, and root regeneration.
-/

namespace Sys2Proof.Machine

/-! ### Room in the log for what a command enters -/

/-- Run a command and refuse it with LOG_FULL where the entries it makes would leave fewer than 64 free places (15 R377). -/
def withRoom (k : State → Ans) (s : State) : Ans :=
  let a := k s
  let n := a.st.log.next - s.log.next
  if n ≠ 0 ∧ s.logFull n = true then ⟨s.logRefused, 11, [], []⟩ else a

/-! ### Naming keys -/

/-- Status of a class and point named by a command: 0 where they name a key (R429, Table 18.2). `tls5` accepts class 5. (log 27) -/
def keyNamed (tls5 : Bool) (cls p : Nat) : Nat :=
  if cls = 1 then (if p = 0xFF then 0 else 5)
  else if cls = 2 ∨ cls = 4 ∨ (cls = 5 ∧ tls5 = true) then (if p < 16 then 0 else 5)
  else 6

/-- The classes and points of a list payload. -/
def keyList (p : Bytes) : List (Nat × Nat) := (chunks 2 (p.drop 1)).map (fun b => (fld b 0 1, fld b 1 1))

/-- A command over a list of 1 to 33 keys. (log 27) -/
def onKeys (k : List (Nat × Nat) → State → Ans) (p : Bytes) (s : State) : Ans :=
  let n := fld p 0 1
  if p.length ≠ 1 + 2 * n then refuse s 2
  else if n = 0 ∨ 33 < n then refuse s 6
  else
    match (keyList p).find? (fun x => keyNamed false x.1 x.2 != 0) with
    | some x => refuse s (keyNamed false x.1 x.2)
    | none => k (keyList p) s

/-- key-invalidate (R430). -/
def serveKeyInvalidate (h : Hdr) : Bytes → State → Ans := onKeys (fun l s =>
  withRoom (fun s => okS (l.foldl (fun s x => s.invalidate x.1 x.2 0 (hostSrc h) h.tag) s)) s)

/-- Generation g + 1 of an invalidated key usable (R432); none where the key does not allow it. -/
def State.nextGeneration (s : State) (h : Hdr) (cls p : Nat) : Option State :=
  let k := s.keyState cls p
  if !k.invalid || 65535 ≤ k.gen then none
  else
    let idx := s.log.next
    let s := s.modKey cls p (fun k => { k with gen := k.gen + 1, invalid := false, since := 0 })
    let s := s.enterHost h 8 0 0 (keyValue cls p k.gen 1) (keyValue cls p (k.gen + 1) 0 ++ [4]) s.frm
    some (s.keyEvent cls p 1 0 (k.gen + 1) 0 idx)

/-- key-next-generation (R432): all of the named keys, or none. -/
def serveKeyNextGeneration (h : Hdr) : Bytes → State → Ans := onKeys (fun l s =>
  withRoom (fun s =>
    match l.foldl (fun (a : Option State) x => a.bind (fun s => s.nextGeneration h x.1 x.2)) (some s) with
    | some s' => okS s'
    | none => refuse s 8) s)

/-! ### The root -/

/-- KEY_REGEN_FAIL (Table 18.5). (log 31) -/
def State.regenEvent (s : State) (outcome : Nat) (errors ms : Nat) : State :=
  s.raise 49 0 ([byteOf outcome, byteOf s.keys.copy0, byteOf s.keys.copy1, byteOf s.keys.attempts] ++ le 2 errors ++ le 2 ms ++
    le 8 s.frm)

/-- The attempts on one helper-data copy, at most `n` (R425): the first good one ends them, and so does an uncorrectable MRAM word (code 2), which
is not read again. The code of the last attempt and how many were made. What an attempt finds that `l` does not say counts as too many
errors. (log 31) -/
def tryCopy : Nat → List Nat → Nat × Nat
  | 0, _ => (4, 0)
  | n + 1, l =>
    let c := l.headD 4
    if n = 0 ∨ c = 0 ∨ c = 2 then (c, 1)
    else
      let r := tryCopy n l.tail
      (r.1, r.2 + 1)

/-- A run of R425: copy 0, and copy 1 where copy 0 does not give the root. Erased copies never give it (R441). (log 31) -/
def State.regenerate (s : State) (copy0 copy1 : List Nat) : State :=
  let n := s.pn ND_KEY_REGEN_ATTEMPTS
  let found (l : List Nat) : List Nat := if s.keys.erased then List.replicate n 5 else l.map (fun c => if c < 5 then c else 4)
  let r0 := tryCopy n (found copy0)
  let r1 := if r0.1 = 0 then (s.keys.copy1, 0) else tryCopy n (found copy1)
  let ok := r0.1 == 0 || r1.1 == 0
  s.modKeys (fun k => { k with
    root := if ok then some Config.pufRoot else none, regenFail := !ok, copy0 := r0.1, copy1 := r1.1, attempts := r0.2 + r1.2 })

/-- The helper-data copies are read, copy 1 only where copy 0 did not give the root; an uncorrectable word is reported (R425,
01 R36): of copy 0 the word `words` mod 512, of copy 1 the one that the quotient names. (logs 31, 44) -/
def State.readHelpers (s : State) (words : Nat) : State :=
  let s := s.repairWords
  let s := if s.keys.copy0 = 2 then s.mramError 9 (0xFB0000 + 8 * (words % 512)) else s
  if s.keys.copy0 ≠ 0 ∧ s.keys.copy1 = 2 then s.mramError 10 (0xFB1000 + 8 * (words / 512 % 512)) else s

/-- ROOT_REGENERATED (R425, 22 Table 22.3): the run of a start ends. (log 31) -/
def execRootRegenerated (t : Nat) (copy0 copy1 : List Nat) (words errors ms : Nat) (s : State) : Host.Outcome State Fault Refusal :=
  let s := s.at t
  if s.pwr.stage = 3 then
    let s := ((s.regenerate copy0 copy1).readHelpers words).modPwr (fun x => { x with stage := 4 })
    .next (if s.keys.regenFail then s.regenEvent 0 errors ms else s)
  else .next s

/-- key-regenerate (R434): the outcome of the run is a free value. (log 31) -/
def serveKeyRegenerate : Bytes → State → Ans := noPayload (fun s =>
  let r := Config.regeneration s.clk.freeCtr
  let s := (s.bump.regenerate r.1 r.2.1).readHelpers s.free
  let o := if s.keys.regenFail then 0 else 1
  okB (s.regenEvent o r.2.2.1 r.2.2.2) [byteOf o])

/-- key-erase (R441). -/
def serveKeyErase (h : Hdr) : Bytes → State → Ans := noPayload (withSeal 0 (withRoom (fun s =>
  okS ((s.writeMram 3 0xFB0000 (fun s => s.modKeys (fun k => { k with erased := true }))).enterHost h 8 0 0 [0, 0xFF] [0, 0xFF, 0, 0, 2, 3] s.frm))))

/-! ### Attestation -/

/-- ATTESTATION_READY (Table 18.6). -/
def State.attestEvent (s : State) (kind cls pt gen tag : Nat) : State :=
  s.raise 50 0 ([byteOf kind, byteOf cls, byteOf pt, 0] ++ le 2 gen ++ le 2 tag ++ le 8 s.frm)

/-- The next request tag; 0 is left to session certificates (Table 18.6). (log 31) -/
def nextReqTag (n : Nat) : Nat := if 65535 ≤ n then 1 else n + 1

/-- key-attest (R433, R436). -/
def serveKeyAttest (p : Bytes) (s : State) : Ans :=
  let cls := fld p 0 1
  let pt := fld p 1 1
  if p.length ≠ 18 then refuse s 2
  else if keyNamed true cls pt ≠ 0 then refuse s (keyNamed true cls pt)
  else if s.keys.regenFail then refuse (s.attestEvent 2 cls pt (s.keyState cls pt).gen 0) 12
  else if 4 ≤ s.keys.queue.length then refuse s 14
  else
    let tag := nextReqTag s.keys.nextTag
    okB (s.modKeys (fun k => { k with nextTag := tag, queue := k.queue ++ [⟨tag, cls, pt, slice p 2 16⟩] })) (le 2 tag)

/-- The public key field of a statement (Table 18.2). -/
def publicField (cls d : Nat) : Bytes :=
  if cls = 5 then sha256 (4 :: Config.p521Public d) ++ zeros 32 else Config.p256Public d

/-- ATTESTATION_COMPLETE (R436): the first request is signed by the node identity key, or refused where that key cannot.
(log 31) -/
def execAttestationComplete (t : Nat) (s : State) : Host.Outcome State Fault Refusal :=
  let s := s.at t
  match s.keys.queue with
  | q :: rest =>
    let s := s.modKeys (fun k => { k with queue := rest })
    let k := s.keyState q.cls q.pt
    match s.privKey 1 0 s.keys.node.gen, s.privKey q.cls q.pt k.gen with
    | some signer, some d =>
      if s.keys.node.invalid || s.keys.regenFail then .next (s.attestEvent 2 q.cls q.pt k.gen q.tag)
      else
        let st := statement 0 q.cls q.pt k.gen s.nodeId q.nonce s.frm 0
          (3 + 4 * b2n k.invalid + 8 * b2n (s.pb ND_LIFECYCLE)) (publicField q.cls d) 1 0xFF s.keys.node.gen signer
        .next ((s.modKeys (fun k => { k with ready := ((q.tag, st) :: k.ready).take 4 })).attestEvent 0 q.cls q.pt k.gen q.tag)
    | _, _ => .next (s.attestEvent 2 q.cls q.pt k.gen q.tag)
  | [] => .next s

/-- key-statement-read (R436, R437): a statement that the node does not hold is out of range. (log 31) -/
def serveKeyStatementRead (p : Bytes) (s : State) : Ans :=
  let pt := fld p 1 1
  if p.length ≠ 8 then refuse s 2
  else if 2 ≤ fld p 0 1 then refuse s 6
  else if fld p 0 1 = 0 then
    match s.keys.ready.find? (fun x => x.1 == fld p 2 2) with
    | some x => okB s x.2
    | none => refuse s 6
  else if 16 ≤ pt then refuse s 5
  else
    match (s.sesOf pt).certs.find? (fun c => fld c 40 4 == fld p 4 4) with
    | some c => okB s c
    | none => refuse s 6

/-! ### Certificates and public keys -/

/-- A certificate with its length. -/
def withLength (b : Bytes) : Bytes := le 2 b.length ++ b

/-- key-node-certificate (R438, R441). -/
def serveKeyNodeCertificate : Bytes → State → Ans := noPayload (fun s =>
  okParts s (byteParts (if s.keys.erased then zeros 4
    else withLength Config.nodeCertificate ++ withLength Config.intermediateCertificate)))

/-- Certificates with their lengths, none where the bytes do not hold whole ones; structural on a count. -/
def readCerts : Nat → Bytes → Option (List Bytes)
  | 0, b => if b.isEmpty then some [] else none
  | n + 1, b =>
    let k := fld b 0 2
    if b.length < 2 + k then none else (readCerts n (b.drop (2 + k))).map (fun l => (b.drop 2).take k :: l)

/-- The uncompressed SEC 1 encoding of a key's usable generation (R438). -/
def publicKey (cls d : Nat) : Bytes := 4 :: (if cls = 5 then Config.p521Public d else Config.p256Public d)

/-- key-tls-certificate-load (R438). -/
def serveKeyTlsCertificateLoad (p : Bytes) (s : State) : Ans :=
  let port := fld p 0 1
  let cls := fld p 1 1
  let n := fld p 2 1
  if p.length < 3 then refuse s 2
  else if 16 ≤ port then refuse s 5
  else if !s.isOutlet port then refuse s 5
  else if (cls ≠ 4 ∧ cls ≠ 5) ∨ n = 0 ∨ 3 < n then refuse s 6
  else
    match readCerts n (p.drop 3) with
    | none => refuse s 2
    | some l =>
      if l.any (fun c => decide (1024 < c.length)) then refuse s 6
      else if s.keys.regenFail || (s.keyState cls port).invalid then refuse s 12
      else
        match s.privKey cls port (s.keyState cls port).gen with
        | some d =>
          if Config.certificateKey (l.headD []) = publicKey cls d then
            okS (s.modKeys (fun k => { k with
              chains := k.chains.filter (fun c => !(c.port == port && c.cls == cls)) ++ [⟨port, cls, l⟩] }))
          else refuse s 6
        | none => refuse s 12

/-- key-public-read (R438). -/
def serveKeyPublicRead (p : Bytes) (s : State) : Ans :=
  let cls := fld p 0 1
  let pt := fld p 1 1
  if p.length ≠ 2 then refuse s 2
  else if keyNamed true cls pt ≠ 0 then refuse s (keyNamed true cls pt)
  else
    match s.privKey cls pt (s.keyState cls pt).gen with
    | some d => if s.keys.regenFail then refuse s 12 else okB s (withLength (publicKey cls d))
    | none => refuse s 12

/-- key-status (20 Table 20.5). -/
def serveKeyStatus : Bytes → State → Ans := noPayload (fun s =>
  let one (k : KeyState) : Bytes := le 2 k.gen ++ [byteOf (b2n k.invalid)]
  okB s (one s.keys.node ++ [byteOf (if s.keys.regenFail then 0 else 1)] ++
    points16.flatMap (fun p => one (s.keyState 2 p) ++ one (s.keyState 4 p))))

/-- KEY_STATUS. -/
def execKeyStatus (h : Hdr) (p : Bytes) (s : State) : Host.Outcome State Fault Refusal := hostCmd 0x0501 h p serveKeyStatus s
/-- KEY_INVALIDATE. -/
def execKeyInvalidate (h : Hdr) (p : Bytes) (s : State) : Host.Outcome State Fault Refusal :=
  hostCmd 0x0502 h p (serveKeyInvalidate h) s
/-- KEY_NEXT_GENERATION. -/
def execKeyNextGeneration (h : Hdr) (p : Bytes) (s : State) : Host.Outcome State Fault Refusal :=
  hostCmd 0x0503 h p (serveKeyNextGeneration h) s
/-- KEY_REGENERATE. -/
def execKeyRegenerate (h : Hdr) (p : Bytes) (s : State) : Host.Outcome State Fault Refusal := hostCmd 0x0504 h p serveKeyRegenerate s
/-- KEY_ATTEST. -/
def execKeyAttest (h : Hdr) (p : Bytes) (s : State) : Host.Outcome State Fault Refusal := hostCmd 0x0505 h p serveKeyAttest s
/-- KEY_STATEMENT_READ. -/
def execKeyStatementRead (h : Hdr) (p : Bytes) (s : State) : Host.Outcome State Fault Refusal :=
  hostCmd 0x0506 h p serveKeyStatementRead s
/-- KEY_NODE_CERTIFICATE. -/
def execKeyNodeCertificate (h : Hdr) (p : Bytes) (s : State) : Host.Outcome State Fault Refusal :=
  hostCmd 0x0507 h p serveKeyNodeCertificate s
/-- KEY_TLS_CERTIFICATE_LOAD. -/
def execKeyTlsCertificateLoad (h : Hdr) (p : Bytes) (s : State) : Host.Outcome State Fault Refusal :=
  hostCmd 0x0508 h p serveKeyTlsCertificateLoad s
/-- KEY_ERASE. -/
def execKeyErase (h : Hdr) (p : Bytes) (s : State) : Host.Outcome State Fault Refusal := hostCmd 0x0509 h p (serveKeyErase h) s
/-- KEY_PUBLIC_READ. -/
def execKeyPublicRead (h : Hdr) (p : Bytes) (s : State) : Host.Outcome State Fault Refusal := hostCmd 0x050A h p serveKeyPublicRead s

end Sys2Proof.Machine
end

