-- ==== Sys2Proof/Machine/ParamRules.lean ====
section
/-!
DEFINITION. What an accepted batch must satisfy (20 R476): the values of each parameter (00 R20 and the rules that narrow a
range), the conditions that span several parameters, and admission (02 R55, Table 2.8; 09 R225, Table 9.4). Every test reads
the configuration as it will stand, which `State.future` builds.
-/

namespace Sys2Proof.Machine

/-! ### The configuration as it will stand -/

/-- The configuration with every accepted value and a batch's values in force (R55). (log 29) -/
def State.future (s : State) (es : List (Nat × Nat × Int)) : State :=
  let l := putAll s.par.stored es
  (s.modPar (fun x => { x with active := l, staged := [] })).modEng (fun e => { e with mode := (valueIn l ND_MODE 0).toNat })

/-- A value as its type reads the 64 bits that carry it (R472). -/
def decodeValue (r : ParamRow) (raw : Nat) : Int := if (4 ≤ r.ty ∧ r.ty ≤ 7) ∨ r.ty = 12 then signed 64 raw else raw

/-- The main range and the further values of a row (R20). -/
def inRow (r : ParamRow) (v : Int) : Bool := (decide (r.lo ≤ v) && decide (v ≤ r.hi)) || r.extra.contains v

/-! ### Slots -/

/-- Slots that Table 9.2 gives a voltage. (log 19) -/
def voltageSlots (ty : Nat) : List Nat :=
  if ty = 1 then [0, 1, 2, 3] else if ty = 2 then [0, 1] else if ty = 3 then [0, 1, 2] else []

/-- Wirings that a type allows (Table 6.1). (log 19) -/
def wirings (ty : Nat) : List Nat := if ty = 1 then [0, 1] else if ty = 2 then [3] else if ty = 3 then [0, 1, 2, 3] else []

/-- Optional roles of Table 9.2. -/
def optionalSlots (ty : Nat) : List Nat := if ty = 1 then [3] else if ty = 2 then [1, 7] else []

/-! ### Ranges that other rules narrow -/

/-- CH_GAIN (04 R102). -/
def gainValid (v : Nat) : Bool :=
  v < 128 && !v.testBit 3 && v / 16 ≤ 5 && v % 8 ≤ 5 && v % 8 ≤ v / 16 && v / 16 ≤ v % 8 + 4

/-- A calendar entry (Table 9.8). -/
def calendarValid (v : Nat) : Bool := !v.testBit 31 || (v / 2 ^ 24 % 128 != 0 && v % 2048 ≤ 1439)

/-- A unicast IPv4 address: not zero, not multicast or above (19 R466). -/
def unicast (v : Nat) : Bool := 0 < v && v < 0xE0000000

/-- A contiguous mask of 8 to 30 bits. -/
def maskValid (v : Nat) : Bool := (List.range 23).any (fun i => v == 2 ^ 32 - 2 ^ (24 - i))

/-- An input code of Table 16.2 for a converter. -/
def sarInputValid (k code : Nat) : Bool :=
  code ≤ 22 || (k == 2 && (code == 23 || code == 24 || (32 ≤ code && code ≤ 47)))

/-- A trigger code of Table 16.4. -/
def sarTriggerValid (code : Nat) : Bool := code ≤ 8 || (16 ≤ code && code ≤ 49)

/-- A descriptor written to entry `i` of converter `k` (16 R383, R384, R388). (log 28) -/
def State.descrValid (g : State) (k i d : Nat) : Bool :=
  dRun d != 0 &&
    match g.reservedEntry k i with
    | some x => dInput d == x.1 && dTrigger d == x.2.1 && dDelay d == x.2.2
    | none => sarInputValid k (dInput d) && sarTriggerValid (dTrigger d)

/-- Meter pulse source of a type and wiring (06 R160). (log 19) -/
def State.mpoValid (g : State) (p v : Nat) : Bool :=
  let ty := g.ptType p
  if isElec ty then v ≤ 2 || (v ≤ 4 && g.pn PT_WIRING p != 3) else isFluid ty && v == 5

/-- What narrows the range of a point parameter. (logs 19, 29) -/
def State.pointRange (g : State) (pid p v : Nat) : Bool :=
  let ty := g.ptType p
  if PT_CAL_0 ≤ pid ∧ pid < PT_CAL_0 + 24 then calendarValid v
  else if pid = PT_SESSIONS then (if ty = 1 ∨ ty = 2 then v == 1 else if ty = 3 then v == 0 else true)
  else if pid = PT_AUTH_MODE then v == 0 || ty == 1 || ty == 2
  else if pid = PT_WIRING then (wirings ty).contains v
  else if pid = PT_F_REF_SLOT then (voltageSlots ty).contains v
  else if PT_FL_INPUT_0 ≤ pid ∧ pid < PT_FL_INPUT_0 + 8 then
    v != 3 || (isFluid ty && (tempSlots ty).contains (pid - PT_FL_INPUT_0))
  else if pid = PT_MPO_SOURCE then g.mpoValid p v
  else true

/-- What narrows the range of a node parameter. `now` is the present state. -/
def State.nodeRange (now g : State) (pid v : Nat) : Bool :=
  if pid = ND_LIFECYCLE then v == 1 || now.stored ND_LIFECYCLE 0 == 0
  else if pid = ND_EXC_LEVELS then (List.range 16).all (fun p => v / 4 ^ p % 4 != 3)
  else if pid = ND_SAR_TIMER_0 then v == 100000 || !g.anySocket
  else if ND_SAR_ENTRY ≤ pid ∧ pid < ND_SAR_ENTRY + 128 then
    g.descrValid ((pid - ND_SAR_ENTRY) / 32) ((pid - ND_SAR_ENTRY) % 32) v
  else if ND_SC_TIME_0 ≤ pid ∧ pid < ND_SC_TIME_0 + 16 then 2 ≤ v || !g.isConsumer (pid - ND_SC_TIME_0)
  else if pid = ND_FW_SERVICE_METHOD then v % 4 != 0
  else if pid = ND_HETH_IPV4 then unicast v
  else if pid = ND_HETH_NETMASK then maskValid v
  else if pid = ND_HETH_GATEWAY then v == 0 || (v ^^^ g.pn ND_HETH_IPV4) &&& g.pn ND_HETH_NETMASK == 0
  else if pid = ND_HOST_PEER then v == 0 || unicast v
  else true

/-- The value is one that the parameter accepts (R20). -/
def State.rangeOk (now g : State) (r : ParamRow) (pid inst : Nat) (v : Int) : Bool :=
  inRow r v &&
    (if pid = CH_GAIN then gainValid v.toNat
     else if pid = CH_AUX then v == 0 || !(g.assignedSlots (inst / 8)).contains (inst % 8)
     else if pid / 0x1000 = 4 then g.pointRange pid inst v.toNat
     else if pid / 0x1000 = 5 then now.nodeRange g pid v.toNat
     else true)

/-! ### Conditions that span several parameters -/

/-- 05 R134 over the voltage and current roles of a point: one DC-block corner. -/
def State.oneCorner (g : State) (p : Nat) : Bool :=
  match (g.vAndI p).filterMap (g.roleChan p) with
  | [] => true
  | c :: l => l.all (fun d => g.pn CH_DC_BLOCK d == g.pn CH_DC_BLOCK c)

/-- 04 R119 and the integrator's condition of 05 R134. -/
def State.channelCross (g : State) (c : Nat) : Bool :=
  decide (g.pv CH_LIMIT_LO c ≤ g.pv CH_LIMIT_HI c) && (g.pn CH_INTEGRATOR c == 0 || g.pn CH_DC_BLOCK c != 0)

/-- 12 R311: every enabled threshold of an outlet stays within 1.000 V. µA by 0.01 mV/mA is 10^-8 V. -/
def State.rcdCross (g : State) (p : Nat) : Bool :=
  let sens := g.pn PT_RCD_SENS p
  let en := g.pn PT_RCD_ENABLE p
  (List.range 3).all (fun i =>
    (!en.testBit i || decide (g.pn (PT_RCD_DC_MA_0 + i) p * sens ≤ 100000000)) &&
    (!en.testBit (3 + i) || decide (9003 * g.pn (PT_RCD_AC_MA_0 + i) p * sens ≤ 1000000000000)))

/-- 08 R199, R203, R211 on a fluid point. (log 28) -/
def State.fluidCross (g : State) (p : Nat) : Bool :=
  let d := g.pn PT_FL_ORI_D20 p
  let pipe := g.pn PT_FL_ORI_PIPE20 p
  let f := (List.range (g.pn PT_PLS_LIN_N p)).map (fun i => g.pn (PT_PLS_LIN_F_0 + i) p)
  let rp : Int := g.pn PT_WATER_REF_P p * 2 ^ 60
  let rt := kelvin (g.pv PT_WATER_REF_T p * 2 ^ 32)
  decide (pipe ≤ 10 * d) && decide (4 * d ≤ 3 * pipe) && (f.zip (f.drop 1)).all (fun x => decide (x.1 < x.2)) &&
    (g.ptType p != 6 || decide (satP rt ≤ rp))

/-- 11 R281: every register that PT_DISP_REGS selects has a row of Table 11.3. -/
def State.displayCross (g : State) (p : Nat) : Bool :=
  let e := g.pn PT_REG_DECADE p + g.pn PT_DISP_DP p
  (bitsOf 32 (g.pn PT_DISP_REGS p)).all (fun i => unitSegs (registerUnit (g.ptType p) i) e != 0)

/-- Code of ND_BAL_KIND that a type's main unit matches (17 R412, R423): 1 µWh, 2 mg, 3 mL, 4 J. -/
def balanceKind (ty : Nat) : Nat := [0, 1, 1, 1, 2, 3, 3, 4].getD ty 0

/-- The conditions of one point: 06 R160, 07 R186, 17 R412, and those of its type; of an outlet also 12 R318 and 15 R372. -/
def State.pointCross (g : State) (p : Nat) : Bool :=
  let ty := g.ptType p
  let grp := g.pn PT_BAL_GROUP p
  decide (g.pn PT_INTR_THRESH p < g.pn PT_DIP_THRESH p) &&
  (grp == 255 || (ty != 0 && g.pn (ND_BAL_KIND_0 + grp) == balanceKind ty)) &&
  (ty == 0 || g.displayCross p) &&
  (!isElec ty || g.oneCorner p) &&
  (ty == 0 || g.mpoValid p (g.pn PT_MPO_SOURCE p)) &&
  (!isFluid ty || g.fluidCross p) &&
  (!(ty == 1 || ty == 2) ||
    (g.rcdCross p && !(ty == 1 && (g.pn PT_OUT_PROTOCOLS p).testBit 0) && !(ty == 2 && g.pn PT_OUT_HLC p == 0) &&
      !(g.pb PT_WELD_MIRROR p && g.pn (PT_SI_MODE_0 + 1) p != 0)))

/-- 14 R345 and 15 R359: no channel that a direct trip path acts on is safe on. -/
def State.safeOnCross (g : State) (p : Nat) : Bool :=
  let own := g.pn ND_SW_FAILSAFE / 4 ^ p % 4
  !(g.isOutlet p && own.testBit (g.pn PT_OUT_CONTACTOR p)) &&
  [0, 1].all (fun k => g.pn (PT_SI_MODE_0 + k) p == 0 || own &&& g.pn (PT_SI_ACT_0 + k) p == 0)

/-- 15 R381: identities are unique within a role, and no consumer names the node itself. -/
def State.entriesCross (g : State) : Bool :=
  let l := (List.range 16).filter (fun i => (g.scConf i).testBit 31)
  l.all (fun i =>
    let c := g.scConf i
    (c.testBit 30 || c / 2 ^ 16 % 4096 != g.nodeId) &&
    l.all (fun j => i == j || (g.scConf j).testBit 30 != c.testBit 30 || g.scIdentity i != g.scIdentity j))

/-- Every condition that spans several parameters (R476 step 2). -/
def State.crossOk (g : State) : Bool :=
  (List.range 128).all g.channelCross && points16.all g.pointCross && points16.all g.safeOnCross && g.entriesCross &&
  !((g.pn ND_SAR_LOWPOWER).testBit 0 && points16.any g.isOutlet) &&
  (g.pn ND_HETH_GATEWAY == 0 || (g.pn ND_HETH_GATEWAY ^^^ g.pn ND_HETH_IPV4) &&& g.pn ND_HETH_NETMASK == 0)

/-! ### Admission -/

/-- A wideband channel: CH_WIDEBAND takes effect on a channel with the standard filter (05 R138). -/
def State.isWide (g : State) (c : Nat) : Bool := g.pb CH_WIDEBAND c && g.pn CH_FILTER c == 1

/-- Channels of the voltage and current roles of a point. -/
def State.viChannels (g : State) (p : Nat) : List Nat := (g.vAndI p).filterMap (g.roleChan p)

/-- Rows 1 and 3–7 of Table 9.4 on an electrical point, row 2 with them: the first that fails, 0 none. -/
def State.elecRow (g : State) (p : Nat) : Nat :=
  let ty := g.ptType p
  let w := g.pn PT_WIRING p
  let vi := g.viChannels p
  let opt := bitsOf 8 (g.pn PT_OPT_ROLES p)
  let rcd := if ty = 1 ∨ (ty = 2 ∧ opt.contains 7) then (g.roleChan p 7).toList else []
  let volts := voltSlots w ++ (optionalSlots ty).filter (fun k => k != 7 && opt.contains k)
  if vi.any (fun c => g.pn CH_FILTER c == 0) then 1
  else if !(wirings ty).contains w || (g.eng.mode == 1 && (if ty = 1 then w != 0 else w == 1)) then 2
  else if w < 3 && vi.any (fun c => g.pn CH_FILTER c != 1) then 3
  else if w == 3 && vi.any (fun c => g.pn CH_DC_BLOCK c != 0 && g.pn CH_DCB_FREEZE c == 0) then 4
  else if rcd.any (fun c => g.pn CH_FILTER c != 0 && (g.pn CH_DC_BLOCK c != 0 || g.pn CH_INTEGRATOR c != 0)) then 5
  else if !g.oneCorner p || vi.any (fun c => g.pn CH_INTEGRATOR c != 0 && g.pn CH_DC_BLOCK c == 0) then 6
  else if !volts.contains (g.pn PT_F_REF_SLOT p) then 7
  else if opt.any (fun k => !(optionalSlots ty).contains k) then 9
  else 0

/-- Roles that a fluid type requires (Table 8.1); the flow role too, which no row marks optional. -/
def State.requiredFluid (g : State) (p : Nat) : List Nat :=
  (if g.ptType p = 6 then [1] else [0, 1]) ++ (if g.pn PT_FL_FLOW_SRC p = 2 then [] else [2])

/-- Rows 1, 8 and 9 of Table 9.4 on a fluid point (08 R187, R188): the first that fails, 0 none. -/
def State.fluidRow (g : State) (p : Nat) : Nat :=
  let used := (g.fluidSlots p).filter (g.roleUsed p)
  if (used.filterMap (g.roleChan p)).any (fun c => g.pn CH_FILTER c == 0) then 1
  else if (g.requiredFluid p).any (fun k => g.inputKind p k == 0) ||
      ((g.fluidSlots p).filterMap (g.roleChan p)).any (fun c => g.pn CH_DC_BLOCK c != 0 || g.pn CH_INTEGRATOR c != 0) ||
      used.any (fun k => g.pv (PT_FL_LRV_0 + k) p == g.pv (PT_FL_URV_0 + k) p) then 8
  else if g.pn PT_OPT_ROLES p != 0 then 9
  else 0

/-- The first row of Table 9.4 that a point fails, 0 none. (log 29) -/
def State.roleRow (g : State) (p : Nat) : Nat :=
  if g.ptType p = 0 then 0 else if isElec (g.ptType p) then g.elecRow p else g.fluidRow p

/-- The row of Table 2.8 that fails first, the row of Table 9.4 with it, the level and the instance (Table 19.14); row 0 where
the configuration is admitted. Every type of Table 9.1 has COURSED roles, so row 5 never fails; a wiring without them fails
row 7. -/
def State.admission (g : State) : Nat × Nat × Nat × Nat :=
  let m := g.eng.mode
  let wide := (List.range 128).filter g.isWide
  let many := points16.find? (fun p => decide (2 < (wide.filter (fun c => c / 8 == p)).length))
  let offRole := wide.find? (fun c => !(g.viChannels (c / 8)).contains c || !isElec (g.ptType (c / 8)))
  let both := (List.range 128).find? (fun c => g.pb CH_WIDEBAND c && g.pn CH_FILTER c == 2)
  let uneven := (List.range 64).find? (fun j => g.pn CH_FILTER (2 * j) != g.pn CH_FILTER (2 * j + 1))
  if 93100 < g.costliest m then (1, 0, 5, 0)
  else if m = 2 ∧ 32 < wide.length then (2, 0, 4, wide.getD 32 0 / 8)
  else if m = 2 ∧ many.isSome then (2, 0, 4, many.getD 0)
  else if m = 2 ∧ offRole.isSome then (3, 0, 3, offRole.getD 0)
  else if both.isSome then (4, 0, 3, both.getD 0)
  else if m = 1 ∧ uneven.isSome then (6, 0, 3, 2 * uneven.getD 0)
  else
    match points16.find? (fun p => g.roleRow p != 0) with
    | some p => (7, g.roleRow p, 4, p)
    | none => (0, 0, 0, 0)

end Sys2Proof.Machine
end

