-- ==== Sys2Proof/Machine/ParamWrite.lean ====
section
/-!
DEFINITION. Parameters by command (20 R472–R478): batches and what an accepted one does, parameter-read, parameter-describe and
parameter-list. A batch goes by parameter-write; BATCH_COMMIT, BATCH_ABORT and BATCH_CHECK are parameter-write with the flag
set.
-/

namespace Sys2Proof.Machine

/-! ### Checks at commit (R476) -/

/-- The status of one entry, 0 where it passes: PID, instance, range, seal (R473, R476), and the service condition of PT_TYPE
and PT_SESSIONS (09 R242, R243). `g` is the configuration as it will stand. (log 27) -/
def State.entryStatus (s g : State) (e : BatchEntry) : Nat :=
  match rowOf e.pid with
  | none => 4
  | some r =>
    let v := decodeValue r e.raw
    if maxInstance e.pid < e.inst then 5
    else if e.pid / 256 = 0x46 ∧ ¬ (g.ptType e.inst = 1 ∨ g.ptType e.inst = 2) then 5
    else if s.rangeOk g r e.pid e.inst v = false then 6
    else if r.sealNo ≠ 0 ∧ s.saf.seals.testBit (r.sealNo - 1) = false then 7
    else if (e.pid = PT_SESSIONS ∨ (e.pid = PT_TYPE ∧ v ≠ s.stored PT_TYPE e.inst)) ∧ (s.pt e.inst).outService = false then 8
    else 0

/-- The first entry that fails, by its index, with its status. (logs 27, 28) -/
def State.firstFailure (s g : State) : Nat → List BatchEntry → Option (Nat × Nat)
  | _, [] => none
  | i, e :: l =>
    if s.entryStatus g e = 0 then s.firstFailure g (i + 1) l else some (i, s.entryStatus g e)

/-- An entry as a value; a PID without a parameter keeps its bits. -/
def entryValue (e : BatchEntry) : Nat × Nat × Int :=
  (e.pid, e.inst, match rowOf e.pid with | some r => decodeValue r e.raw | none => e.raw)

/-- Values that a batch selecting the power profile loads too, where it does not write them itself (03 R88). -/
def profileValues (l : List (Nat × Nat × Int)) : List (Nat × Nat × Int) :=
  if l.any (fun e => e.1 == ND_PTP_PROFILE && e.2.2 == 1) then
    ([(ND_PTP_TRANSPORT, 0, 0), (ND_PTP_DELAY, 0, 1), (ND_PTP_LOG_ANNOUNCE, 0, 0), (ND_PTP_LOG_SYNC, 0, 0),
      (ND_PTP_LOG_PDELAY, 0, 0)] : List (Nat × Nat × Int)).filter (fun e => !(l.any (fun x => x.1 == e.1)))
  else []

/-- Two entries for one PID and instance. (log 28) -/
def duplicated : List (Nat × Nat × Int) → Bool
  | [] => false
  | e :: l => l.any (fun x => x.1 == e.1 && x.2.1 == e.2.1) || duplicated l

/-- The values of a batch in the order in which they are taken: as sent, or the other way round where two entries name one
parameter and a free bit says so (Table 20.8). (log 28) -/
def State.batchValues (s : State) (l : List BatchEntry) : List (Nat × Nat × Int) :=
  let es := l.map entryValue
  let es := if duplicated es && s.free % 2 == 1 then es.reverse else es
  es ++ profileValues es

/-- Log entries that a batch makes (R478). -/
def logCount (l : List (Nat × Nat × Int)) : Nat :=
  (l.filter (fun e => match rowOf e.1 with | some r => r.logged | none => false)).length

/-! ### What an accepted batch does (R477) -/

/-- When a parameter takes effect. -/
def effectOf (pid : Nat) : Effect := match rowOf pid with | some r => r.effect | none => .immediate

/-- An effect that a boundary applies. -/
def Effect.atBoundary (e : Effect) : Bool := e == .nextInterval || e == .nextPointInterval

/-- A timer moved with the time it was set from, by the change of that time. -/
def shiftDue (d : Option Nat) (old new : Nat) : Option Nat := d.map (fun x => x + new - old)

/-- What an immediate value does beyond being read. -/
def State.immediateEffect (s : State) (pid inst : Nat) (old new : Int) : State :=
  if pid = PT_OUT_MAX_CURRENT then s.setPilot inst
  else if ND_PTP_PROFILE ≤ pid ∧ pid ≤ ND_PTP_ASYM_HETH then
    let ports := if pid = ND_PTP_PORTS then old.toNat ^^^ new.toNat
      else if ND_PTP_ASYM_LKA ≤ pid then 2 ^ (pid - ND_PTP_ASYM_LKA) else 7
    s.modServo (fun v => { v with restartDue := some (s.clk.up + 10000000), restartPorts := v.restartPorts ||| ports })
  else if pid = ND_UTC_OFFSET then
    (if s.servo.utcValid || s.servo.utcSaved then s else s.modServo (fun v => { v with utc := new }))
  else if pid = ND_RING_LKA_ROLE ∨ pid = ND_RING_LKB_ROLE then s.rediscover 0
  else if pid = ND_PLC_MAINS then s.plcSweep
  else if pid = ND_HOST_WD_TIMEOUT then
    s.modHost (fun h => { h with
      wdDue := if new = 0 ∨ h.ready = false ∨ h.hostLost = true then none
      else if old = 0 then some (s.clk.up + new.toNat * 1000000)
      else shiftDue h.wdDue (old.toNat * 1000000) (new.toNat * 1000000) })
  else if pid = ND_FW_CONFIRM_TIMEOUT then
    s.modFw (fun f => { f with confirmDue := shiftDue f.confirmDue (old.toNat * 1000000000) (new.toNat * 1000000000) })
  else if pid = ND_TEST_TIMEOUT then
    s.modTest (fun x => { x with due := shiftDue x.due (old.toNat * 1000000000) (new.toNat * 1000000000) })
  else if pid = ND_DISP_ENABLE then (if new = 0 then s.dispDisable else s)
  else if pid = ND_DISP_FLEN then s.frontLight
  else s

/-- A waiting value that an earlier boundary than a new one's takes: the next boundary is its own and too near for the new
value (R46). A new ND_MODE replaces every earlier one (R56). (log 28) -/
def State.staysFor (s : State) (y : Staged) : Bool :=
  let next := s.t0 (s.frm / 4000 * 4000 + 4000)
  y.effect.atBoundary && y.pid != ND_MODE && decide (y.dueAt ≤ next) && decide (next < s.clk.up + 1000000)

/-- A value put to wait; it replaces an earlier one that waits for the same moment (R477). (log 28) -/
def State.stageValue (s : State) (pid inst : Nat) (v : Int) (e : Effect) : State :=
  s.modPar (fun x => { x with
    staged := x.staged.filter (fun y => !(y.pid == pid && y.inst == inst && !y.ripe) || s.staysFor y) ++
      [⟨pid, inst, v, e, false, s.clk.up + 1000000⟩] })

/-- One accepted value takes its way (R18, R477); PT_SERVICE 1 ends an open session from now (09 R242). -/
def State.acceptValue (s : State) (e : Nat × Nat × Int) : State :=
  let s :=
    if effectOf e.1 = .immediate then
      let old := s.pv e.1 e.2.1
      (s.modPar (fun x => { x with
        active := putP x.active e.1 e.2.1 (defaultOf e.1 (typeFor x.active e.1 e.2.1)) e.2.2 })).immediateEffect e.1 e.2.1 old e.2.2
    else s.stageValue e.1 e.2.1 e.2.2 (effectOf e.1)
  if e.1 = PT_SERVICE ∧ e.2.2 = 1 then s.addCause e.2.1 9 else s

/-- The frame a log entry names as the first under the new value; for a session or a start to come it is a free value. -/
def State.effectFrame (s : State) (pid : Nat) : Nat :=
  match effectOf pid with
  | .immediate => s.frm
  | .nextFrame => s.frm + 1
  | .nextInterval => s.nextBoundary
  | .nextPointInterval => s.nextBoundary
  | _ => s.free

/-- The log entry of an accepted value (R478). -/
def State.logValue (s : State) (h : Hdr) (before : State) (e : Nat × Nat × Int) : State :=
  match rowOf e.1 with
  | some r =>
    if r.logged then
      s.bump.enterHost h 2 e.1 e.2.1 (leI 8 (before.stored e.1 e.2.1)) (leI 8 e.2.2) (s.effectFrame e.1)
    else s
  | none => s

/-- What waits for a point that a batch retypes goes, with every type-dependent value (09 R244). (log 29) -/
def State.dropRetyped (s : State) (es : List (Nat × Nat × Int)) : State :=
  let pts := (es.filter (fun e => e.1 == PT_TYPE && e.2.2 != s.stored PT_TYPE e.2.1)).map (fun e => e.2.1)
  s.modPar (fun x => { x with staged := x.staged.filter (fun y => y.ripe || !(typeDependent y.pid && pts.contains y.inst)) })

/-- The peer that HETH serves: until the response to the command that changed it over HETH has been sent, the old one
(19 R466; log entry 40). -/
def State.peer (s : State) : Nat := match s.host.peerHold with | some x => x.2.getD 0 0 | none => s.pn ND_HOST_PEER

/-- The address and the port that HETH listens on (19 R447, R466). (logs 28, 40) -/
def State.listens (s : State) : Nat × Nat :=
  match s.host.peerHold with
  | some x => (x.2.getD 1 0, x.2.getD 2 0)
  | none => (s.pn ND_HETH_IPV4, s.pn ND_HOST_UDP_PORT)

/-- The peer, address and port of HETH as they govern (19 R447). (log 28) -/
def State.hethNow (s : State) : List Nat := [s.peer, s.listens.1, s.listens.2]

/-- A batch rung over HETH has changed the peer, the address or the port: the old ones govern until its response has been sent (19 R466).
(log 28) -/
def State.holdPeer (s : State) (h : Hdr) (old : List Nat) : State :=
  if h.heth && [s.pn ND_HOST_PEER, s.pn ND_HETH_IPV4, s.pn ND_HOST_UDP_PORT] != old then
    s.modHost (fun x => { x with peerHold := some (h.mbx, old) })
  else s

/-- An accepted batch (R477, R478; 21 R495 for the old-format copy during a trial): the store, the log, the moments, and
CONFIG_APPLIED, at the boundary where it has boundary entries. (log 28) -/
def State.applyBatch (s : State) (h : Hdr) (es : List (Nat × Nat × Int)) : State :=
  let before := s
  let s := s.dropRetyped es
  let s := s.modPar (fun x => { x with
    stored := putAll x.stored es, oldCopy := if s.fw.trial then putAll x.oldCopy es else x.oldCopy, batch := none })
  let s := es.foldl (fun s e => s.logValue h before e) s
  let s := (es.foldl (fun s e => s.acceptValue e) s).holdPeer h before.hethNow
  if es.any (fun e => (effectOf e.1).atBoundary) then
    s.modPar (fun x => { x with applyTag := x.applyTag ++ [(h.tag, s.clk.up + 1000000)] })
  else s.configApplied h.tag (if es.any (fun e => effectOf e.1 == .nextFrame) then s.frm + 1 else s.frm)

/-! ### parameter-write (R475, R476) -/

/-- The response of parameter-write. Where no boundary or no cost is concerned, the spec states no value for it: both are free
values then. (log 28) -/
def batchBody (num held failing first cost : Nat) : Bytes := le 2 num ++ le 2 held ++ le 2 failing ++ zeros 2 ++ le 8 first ++ le 4 cost

/-- An answer of parameter-write that concerns no boundary. -/
def batchAns (s : State) (status num held failing : Nat) : Ans :=
  let c := s.bump.free
  ⟨s.bump.bump, status, batchBody num held failing s.free c, []⟩

/-- CONFIG_REFUSED by admission (19 Table 19.14). (log 28) -/
def State.configRefused (s : State) (a : Nat × Nat × Nat × Nat) (tag cost : Nat) : State :=
  s.raise 55 0 ([1, byteOf a.1, byteOf a.2.1, byteOf a.2.2.1] ++ le 2 a.2.2.2 ++ le 2 tag ++ le 8 s.frm ++ le 4 cost ++ le 4 93100)

/-- A refused commit closes and discards its batch (R476). -/
def State.closeBatch (s : State) : State := s.modPar (fun x => { x with batch := none })

/-- Commit or check a batch (R476): the steps in order, and the first failure refuses the whole. -/
def State.commitBatch (s : State) (h : Hdr) (check : Bool) (num : Nat) (l : List BatchEntry) : Ans :=
  let s := s.closeBatch
  let es := s.batchValues l
  let s := if duplicated (l.map entryValue) then s.bump else s
  let g := s.future es
  let cost := g.costliest g.eng.mode
  match s.firstFailure g 0 l with
  | some f => batchAns s f.2 num l.length f.1
  | none =>
    if g.crossOk = false then batchAns s 6 num l.length 0xFFFF
    else if 0 < logCount es ∧ s.logFull (logCount es) = true then
      batchAns (if check then s else s.logRefused) 11 num l.length 0xFFFF
    else if g.admission.1 ≠ 0 then
      batchAns (if check then s else s.configRefused g.admission h.tag cost) 10 num l.length 0xFFFF
    else
      let first := if es.any (fun e => (effectOf e.1).atBoundary) then s.nextBoundary else s.free
      okB (if check then s.bump else s.bump.applyBatch h es) (batchBody num l.length 0xFFFF first cost)

/-- The entries of a request. -/
def readEntries (p : Bytes) : List BatchEntry := (chunks 12 (p.drop 4)).map (fun c => ⟨fld c 0 2, fld c 2 2, fld c 4 8⟩)

/-- parameter-write (R475). -/
def serveParameterWrite (h : Hdr) (p : Bytes) (s : State) : Ans :=
  let num := fld p 0 2
  let flags := fld p 3 1
  let open' := match s.par.batch with | some b => b.entries | none => []
  if p.length < 4 ∨ 244 < p.length ∨ (p.length - 4) % 12 ≠ 0 then refuse s 2
  else if (match s.par.batch with | some b => b.num != num | none => false) then batchAns s 8 num 0 0xFFFF
  else
    let s := match s.par.batch with
      | some b => s.modPar (fun x => { x with batch := some { b with due := s.clk.up + 10000000000 } })
      | none => s
    let all := open' ++ readEntries p
    if (flags.testBit 2 && !flags.testBit 0) || (flags.testBit 1 && (flags.testBit 0 || flags.testBit 2)) then
      batchAns s 6 num open'.length 0xFFFF
    else if 1024 < all.length then batchAns s 6 num open'.length 0xFFFF
    else if flags.testBit 1 then batchAns s.closeBatch 0 num 0 0xFFFF
    else if flags.testBit 0 then s.commitBatch h (flags.testBit 2) num all
    else batchAns (s.modPar (fun x => { x with batch := some ⟨num, all, s.clk.up + 10000000000⟩ })) 0 num all.length 0xFFFF

/-- The payload with bits of its flags byte set. -/
def withFlags (bits : Nat) (p : Bytes) : Bytes := upd p 3 (fun b => b ||| byteOf bits)

/-- PARAMETER_WRITE. -/
def execParameterWrite (h : Hdr) (p : Bytes) (s : State) : Host.Outcome State Fault Refusal :=
  hostCmd 0x0202 h p (serveParameterWrite h) s
/-- BATCH_COMMIT: parameter-write with COMMIT. -/
def execBatchCommit (h : Hdr) (p : Bytes) (s : State) : Host.Outcome State Fault Refusal :=
  hostCmd 0x0202 h (withFlags 1 p) (serveParameterWrite h) s
/-- BATCH_ABORT: parameter-write with ABORT. -/
def execBatchAbort (h : Hdr) (p : Bytes) (s : State) : Host.Outcome State Fault Refusal :=
  hostCmd 0x0202 h (withFlags 2 p) (serveParameterWrite h) s
/-- BATCH_CHECK: parameter-write with CHECK and COMMIT. -/
def execBatchCheck (h : Hdr) (p : Bytes) (s : State) : Host.Outcome State Fault Refusal :=
  hostCmd 0x0202 h (withFlags 5 p) (serveParameterWrite h) s

/-- BATCH_TIMEOUT (R475): 10 s without a request of the batch. -/
def execBatchTimeout (t : Nat) (s : State) : Host.Outcome State Fault Refusal :=
  let s := s.at t
  if ripeAt (s.par.batch.map (fun b => b.due)) t then .next s.closeBatch else .next s

/-! ### Reads -/

/-- What a read returns (R473): the stored value; a reserved SAR descriptor as the Capo holds it (16 R388), and timer 0 as it is
held (16 R387). -/
def State.readValue (s : State) (pid inst : Nat) : Int :=
  let v := s.stored pid inst
  if ND_SAR_ENTRY ≤ pid ∧ pid < ND_SAR_ENTRY + 128 then
    s.overDescr ((pid - ND_SAR_ENTRY) / 32) ((pid - ND_SAR_ENTRY) % 32) v.toNat
  else if pid = ND_SAR_TIMER_0 ∧ s.anySocket = true then 100000
  else v

/-- One entry of parameter-read; a value that does not exist reads as zero. -/
def State.readEntry (s : State) (pid inst : Nat) : Bytes :=
  let status := if (rowOf pid).isNone then 4 else if maxInstance pid < inst then 5 else 0
  le 2 pid ++ le 2 inst ++ le 2 status ++ zeros 2 ++ leI 8 (if status = 0 then s.readValue pid inst else 0)

/-- parameter-read (R473). -/
def serveParameterRead (p : Bytes) (s : State) : Ans :=
  if p.length = 0 ∨ 60 < p.length ∨ p.length % 4 ≠ 0 then refuse s 2
  else okB s ((chunks 4 p).flatMap (fun c => s.readEntry (fld c 0 2) (fld c 2 2)))

/-- The number of an effect in the order of R18. -/
def effectCode : Effect → Nat
  | .immediate => 0
  | .nextFrame => 1
  | .nextInterval => 2
  | .nextPointInterval => 3
  | .nextSession => 4
  | .nextStart => 5

/-- parameter-describe (Table 20.4). -/
def serveParameterDescribe (p : Bytes) (s : State) : Ans :=
  if p.length ≠ 4 then refuse s 2
  else
    let pid := fld p 0 2
    match rowOf pid with
    | none => refuse s 4
    | some r =>
      if maxInstance pid < fld p 2 2 then refuse s 5
      else okB s ([byteOf r.ty, byteOf r.frac, byteOf (effectCode r.effect), byteOf r.sealNo] ++ leI 8 r.lo ++ leI 8 r.hi ++
        leI 8 (defaultOf pid (typeFor s.par.active pid (fld p 2 2))) ++ [byteOf r.extra.length] ++ r.extra.flatMap (leI 8))

/-- Every PID of the dictionary, ascending. -/
def allPids : List Nat := paramTable.flatMap (fun r => (List.range (r.last + 1 - r.first)).map (fun i => r.first + i))

/-- parameter-list (Table 20.4). -/
def serveParameterList (p : Bytes) (s : State) : Ans :=
  if p.length ≠ 2 then refuse s 2
  else
    let l := (allPids.filter (fun x => decide (fld p 0 2 ≤ x))).take 120
    okB s (le 2 l.length ++ l.flatMap (le 2))

/-- PARAMETER_READ. -/
def execParameterRead (h : Hdr) (p : Bytes) (s : State) : Host.Outcome State Fault Refusal :=
  hostCmd 0x0201 h p serveParameterRead s
/-- PARAMETER_DESCRIBE. -/
def execParameterDescribe (h : Hdr) (p : Bytes) (s : State) : Host.Outcome State Fault Refusal :=
  hostCmd 0x0203 h p serveParameterDescribe s
/-- PARAMETER_LIST. -/
def execParameterList (h : Hdr) (p : Bytes) (s : State) : Host.Outcome State Fault Refusal :=
  hostCmd 0x0204 h p serveParameterList s

end Sys2Proof.Machine
end

