-- ==== Sys2Proof/Machine/PowerReset.lean ====
section
/-!
DEFINITION. Supplies, resets and start-up (22), with the merge of the holdup ledger at a start (10 R268–R271) and the restart of
the Capo (22 R510).
-/

namespace Sys2Proof.Machine

/-! ### The power-fail warning (10 R266, R272, 22 R513) -/

/-- The warning begins, or a second source joins it (10 R266, R272): `src` is bit 0 PFWn, bit 1 the VSW monitor. A standby core
that boots is abandoned (Table 21.5), and the display goes off (11 R289). (log 35) -/
def State.beginWarning (s : State) (src : Nat) : State :=
  if s.led.warnFrom.isSome then s.modLed (fun d => { d with warnSrc := d.warnSrc ||| src })
  else
    let s := (s.modLed (fun d => { d with
      warnFrom := some s.clk.up, warnSrc := src, commitDue := true, warnFrame := s.frm - 1, tailing := false })).modPwr
        (fun x => { x with banked := 0 })
    let s := if s.fw.bootDue.isSome then s.notTaken else s
    s.dispWarning

/-- Sources that are low now and count (10 R266): bit 0 PFWn, bit 1 the VSW monitor. (log 35) -/
def State.warnNow (s : State) : Nat := (b2n s.pwr.pfw + 2 * b2n s.pwr.vswLow) &&& s.pn ND_HOLDUP_SOURCES

/-- The warning that a low source asks for, once the node meters (Table 22.5). (log 35) -/
def State.warnIfMetering (s : State) (src : Nat) : State :=
  if 5 ≤ s.pwr.stage ∧ (s.warnNow &&& src) ≠ 0 ∧ (s.led.warnFrom = none ∨ (s.led.warnSrc &&& src) = 0) then
    s.beginWarning (s.warnNow &&& src)
  else s

/-- PFW_WARNING (10 R266): PFWn has been low since `since`, for ND_PFW_FILTER. (log 14) -/
def execPfwWarning (t since : Nat) (s : State) : Host.Outcome State Fault Refusal :=
  let s := s.at t
  if since + s.pn ND_PFW_FILTER * 1000 ≤ t then
    .next ((s.modPwr (fun x => { x with pfw := true })).warnIfMetering 1)
  else .next s

/-- VSW_MONITOR_TRIP (22 R513): VSW, in 10 mV, below ND_VSW_WARN within the monitor's 2 %. (log 14) -/
def execVswMonitorTrip (t vsw : Nat) (s : State) : Host.Outcome State Fault Refusal :=
  let s := s.at t
  if vsw * 100 < s.pn ND_VSW_WARN * 102 then
    let s := s.modSw (fun d => if d.powered then { d with vsw := vsw } else d)
    .next ((s.modPwr (fun x => { x with vswLow := true })).warnIfMetering 2)
  else .next s

/-- WARNING_END (10 R272, 22 R513): the supply has been good since `since`, for ND_HOLDUP_RESUME: PFWn high and VSW, in 10 mV,
above ND_VSW_WARN + 1.0 V, each where it counts. The tailpiece goes on until the next interval save. (log 35) -/
def execWarningEnd (t since vsw : Nat) (s : State) : Host.Outcome State Fault Refusal :=
  let s := s.at t
  let low := (s.pn ND_HOLDUP_SOURCES).testBit 1 && vsw ≤ s.pn ND_VSW_WARN + 100
  match s.led.warnFrom with
  | some t0 =>
    if since + s.pn ND_HOLDUP_RESUME * 1000000 ≤ t ∧ low = false then
      let s := s.modPwr (fun x => { x with pfw := false, vswLow := false })
      let s := s.modSw (fun d => if d.powered then { d with vsw := vsw } else d)
      let s := s.warningEvent 1 (min ((t - t0) / 1000) (2 ^ 32 - 1)) s.frm
      .next (s.modLed (fun d => { d with warnFrom := none }))
    else .next s
  | none =>
    if since + s.pn ND_HOLDUP_RESUME * 1000000 ≤ t ∧ low = false then
      .next (s.modPwr (fun x => { x with pfw := false, vswLow := false }))
    else .next s

/-! ### A core-die reset (22 R509) -/

/-- A point over a core-die reset: what the switch die and the pins hold of its outlet stays, the pilot's output among it
(12 R300, Table 22.4); the registers come back from the ledger. (log 32) -/
def Point.afterReset (x : Point) : Point :=
  { Point.reset with out := { Outlet.reset with
      duty := x.out.duty, trip := x.out.trip, tripOwed := x.out.tripOwed, tripComp := x.out.tripComp
      tripSlice := x.out.tripSlice, backup := x.out.backup } }

/-- A staging over a reset of the Capo or the core die: a verified image stays staged, and what was not verified is gone
(Table 21.5). (log 32) -/
def keptStaging (g : Option Staging) : Option Staging :=
  match g with
  | some g => if g.state < 2 then none else some { g with state := 2 }
  | none => none

/-- A self-test that runs ends without a result: the Capo that would judge it is in reset (12 R313). (log 32) -/
def State.endTests (s : State) : State :=
  forAll points16 (fun p s => if (s.outOf p).test = 1 then s.endInjection p else s) s

/-- The core die enters reset with a cause of Table 22.4. What the MRAM and the switch die hold stays; the switch die sees its
link lost (R28). (log 32) -/
def State.coreReset (s : State) (cause : Nat) : State :=
  let s := s.dispReset.endTests
  { s with
    clk := { Clock.reset with up := s.clk.up, freeCtr := s.clk.freeCtr, lastTick := s.clk.up }
    servo := Servo.reset
    par := { s.par with batch := none, staged := s.par.staged.map (fun e => { e with ripe := false }) }
    host := { HostPort.reset with service := s.host.service }
    test := { TestWin.reset with relockDue := s.test.relockDue || s.test.unlocked }
    slices := State.reset.slices
    courses := State.reset.courses
    eng := Engine.reset
    pts := s.pts.map Point.afterReset
    recs := { s.recs with due := [], queue := [], notStreamed := 0, lost := 0 }
    led := { s.led with
      warnFrom := none, warnSrc := 0, commitDue := false, tailing := false, cut := s.led.cut || s.led.commitDue }
    sw := { s.sw with
      link := false, waiting := [], waitOps := [], rearm := false
      ch := if s.sw.powered then s.sw.ch else List.replicate 32 SwCh.reset }
    saf := { Safety.reset with lands := s.saf.lands, sealLands := s.saf.sealLands }
    log := { s.log with notStreamed := 0, refused := 0 }
    keys := { s.keys with root := none, regenFail := false, refusals := 0, queue := [], ready := [] }
    disp := { Display.reset with image := s.disp.image, valid := s.disp.valid, book := s.disp.book, openRun := s.disp.openRun, waves := s.disp.waves }
    plc := Plc.reset
    ring := Ring.reset
    sar := Sar.reset
    fw := { s.fw with
      stage := keptStaging s.fw.stage, bootDue := none, confirmDue := none, swapAt := none, recovery := false
      svcRunning := false, hand := none }
    pwr := { s.pwr with
      coreOn := false, stage := 0, capoOn := false, capoReset := false, cause := cause, banked := 0, tb := none
      shutdown := s.pwr.shutdown || cause == 4, supExt := List.replicate 6 0 } }

/-- A reason that holds the core die in reset (Table 22.4): bit 0 rails or REFCLK25, 1 RESETn, 2 thermal shutdown. (log 32) -/
def State.holdReset (s : State) (bit : Nat) : State := s.modPwr (fun x => { x with coreHeld := putBit x.coreHeld bit true })

/-- The core die enters reset, unless it is in reset already, and `bit` holds it there. (log 32) -/
def State.resetCore (s : State) (cause bit : Nat) : State :=
  (if s.pwr.coreOn then s.coreReset cause else s).holdReset bit

/-- A reason ends; with none left the reset is released and the time base runs (R507): tp. (log 32) -/
def State.releaseCore (s : State) (bit : Nat) : State :=
  let s := s.modPwr (fun x => { x with coreHeld := putBit x.coreHeld bit false })
  if s.pwr.coreHeld = 0 ∧ s.pwr.coreOn = false then
    (s.modPwr (fun x => { x with coreOn := true, stage := 1 })).modClk (fun c => { c with lastTick := s.clk.up })
  else s

/-- POWER_GOOD (R503, R507): VCORE, VIO and VANA, in mV, past their start thresholds with REFCLK25 running. (log 14) -/
def execPowerGood (t vcore vio vana : Nat) (refclk : Bool) (s : State) : Host.Outcome State Fault Refusal :=
  let s := s.at t
  if 810 ≤ vcore ∧ 2800 ≤ vio ∧ 2800 ≤ vana ∧ refclk = true then .next (s.releaseCore 0) else .next s

/-- RAIL_RESTART_TRIP (R504): rail 0 VCORE, 1 VIO, 2 VANA below its restart threshold. -/
def execRailRestartTrip (t rail mV : Nat) (s : State) : Host.Outcome State Fault Refusal :=
  let s := s.at t
  if rail < 3 ∧ mV < [780, 2700, 2700].getD rail 0 then .next (s.resetCore 0 0) else .next s

/-- REFCLK_LOSS (03 R64). -/
def execRefclkLoss (t : Nat) (s : State) : Host.Outcome State Fault Refusal := .next ((s.at t).resetCore 3 0)

/-- THERMAL_SHUTDOWN (R515): the hardware comparator at 150 °C ±5 °C holds the core die in reset. (log 14) -/
def execThermalShutdown (t : Nat) (temp : Int) (s : State) : Host.Outcome State Fault Refusal :=
  let s := s.at t
  if 1450 ≤ temp then .next (s.resetCore 4 2) else .next s

/-- THERMAL_SHUTDOWN_END (R515): below 130 °C ±5 °C. -/
def execThermalShutdownEnd (t : Nat) (temp : Int) (s : State) : Host.Outcome State Fault Refusal :=
  let s := s.at t
  if temp ≤ 1350 ∧ s.pwr.coreHeld.testBit 2 = true then .next (s.releaseCore 2) else .next s

/-- RESETN_ASSERT (R511): RESETn has been low for `width` ns and the switch die has sampled FSRST. Between 1 µs and 10 µs a low
level may reset or not: a free value (log entry 5). (log 32) -/
def execResetnAssert (t width : Nat) (fsrst : Bool) (s : State) : Host.Outcome State Fault Refusal :=
  let s := s.at t
  let acts := 10000 ≤ width ∨ (1000 ≤ width ∧ s.free % 2 = 1)
  let s := if 1000 ≤ width ∧ width < 10000 then s.bump else s
  if acts then
    let s := s.modPwr (fun x => { x with fsrst := fsrst, resetn := true })
    let s := if s.sw.powered && !fsrst then s.applyFailsafe 4 else s
    .next (s.resetCore 2 1)
  else .next s

/-- RESETN_RELEASE (R507). (log 32) -/
def execResetnRelease (t : Nat) (s : State) : Host.Outcome State Fault Refusal :=
  let s := s.at t
  if s.pwr.resetn then .next ((s.modPwr (fun x => { x with resetn := false })).releaseCore 1) else .next s

/-! ### The brown-out (10 R268, 22 R505) -/

/-- The blocks outstanding, the boundary among them, as the Capo ends its work at tb; structural on its fuel. (log 35) -/
def State.drain : Nat → State → State
  | 0, s => s
  | k + 1, s =>
    match s.nextBlock with
    | some b =>
      if s.mayAdd b then
        ((s.modEng (fun e => { e with
          buf := e.buf.map (fun x => if x.map (fun y => y.start) = some b.start then none else x) })).accumulate b).drain k
      else
        match s.clk.bdry with
        | some n => (s.boundaryWork n).drain k
        | none => s
    | none => s

/-- The release lines of an AC point go whole into a block (R268, 06 R159). (log 35) -/
def State.flushBlock (s : State) (b : Block) : Block :=
  { b with pts := b.pts.mapIdx (fun p x =>
      if x.valid && isElec (s.ptType p) && s.pn PT_WIRING p != 3 then
        let q := s.flushLines s p x.q
        { x with q := q.map (fun v => min v (2 ^ 64 - 1)), sat := (q.filter (fun v => 2 ^ 64 ≤ v)).length }
      else x) }

/-- The block of the frame before the running one takes the release lines, wherever it waits. (log 35) -/
def State.flushLast (s : State) : State :=
  let f (x : Option Block) : Option Block := x.map (fun b => if b.frame + 1 = s.frm then s.flushBlock b else b)
  s.modEng (fun e => { e with work := f e.work, buf := e.buf.map f })

/-- BROWN_OUT (10 R268, 22 R505): VCORE or VIO, in mV, below its trip level for 2 µs. Frame m is discarded, frame m−1 is
completed and added, and the tailpiece writes its bank; a warning commit that is not complete is abandoned. (logs 14, 35) -/
def execBrownOut (t vcore vio : Nat) (s : State) : Host.Outcome State Fault Refusal :=
  let s := s.at t
  if s.pwr.coreOn = true ∧ s.pwr.tb = none ∧ (vcore < 865 ∨ vio < 3050) then
    let s := s.modLed (fun d => { d with cut := d.commitDue, commitDue := false })
    let s := if s.pwr.capoOn ∧ 5 ≤ s.pwr.stage then
        let s := s.flushLast
        let s := s.modEng (fun e => { e with
          buf := (match e.work with | some b => put e.buf (b.frame % 2) (some b) | none => e.buf), work := none })
        s.drain 4
      else s
    .next (s.modPwr (fun x => { x with tb := some t }))
  else .next s

/-- BROWN_OUT_RESET (R505): tb + 600 µs. -/
def execBrownOutReset (t : Nat) (s : State) : Host.Outcome State Fault Refusal :=
  let s := s.at t
  match s.pwr.tb with
  | some d => if d + 600000 ≤ t then .next (s.resetCore 1 0) else .next s
  | none => .next s

/-! ### The Capo starts (22 R507, 21 R497, R499) -/

/-- Whether a legal slot holds an image that the boot ROM verifies. -/
def State.legalOk (s : State) (i : Nat) (ok0 ok1 : Bool) : Bool :=
  (s.legalSlot i).info.isSome && (if i = 0 then ok0 else ok1)

/-- A pending legal image becomes the active one at a start (R497), with its microcode and its costs. (log 33) -/
def State.takePending (s : State) : State :=
  if s.fw.legalPending then
    let i := 1 - s.fw.legal
    let x := (s.legalSlot i).info.getD ImageInfo.reset
    s.modFw (fun f => { f with
      legal := i, legalPending := false, swapLog := true, costs := Config.costTable (x.image.drop 458752), mcVersion := mcVersionOf x.image })
  else s

/-- CAPO_BOOT_VERIFIED (R499): `ok0` and `ok1` say which legal slot verifies. -/
def execCapoBootVerified (t : Nat) (ok0 ok1 : Bool) (s : State) : Host.Outcome State Fault Refusal :=
  let s := s.at t
  if s.pwr.stage ≠ 1 ∨ s.pwr.capoOn = true ∨ s.fw.recovery = true then .next s
  else
    let s := s.takePending
    let s := (s.readSlot s.fw.legal (s.fw.legal * 0x80000) 0x80000 (s.legalOk s.fw.legal ok0 ok1))
    let run (s : State) : State := (s.modPwr (fun x => { x with stage := 2, capoOn := true })).modHost (fun x => { x with capo := true })
    if s.legalOk s.fw.legal ok0 ok1 then .next (run s)
    else if s.legalOk (1 - s.fw.legal) ok0 ok1 then
      let s := s.repairWords
      let old := s.runningVersion 2
      let x := (s.legalSlot (1 - s.fw.legal)).info.getD ImageInfo.reset
      let s := s.modFw (fun f => { f with
        legal := 1 - f.legal, swapLog := false, costs := Config.costTable (x.image.drop 458752), mcVersion := mcVersionOf x.image })
      .next (run (s.fwEvent 53 2 0 4 (2 + s.fw.legal) old x.version s.frm 0 0 0))
    else .next ((s.readSlot (1 - s.fw.legal) ((1 - s.fw.legal) * 0x80000) 0x80000 false).modFw (fun f => { f with recovery := true }))

/-- Everything that waits for a start of the core die comes into force (00 R18). (logs 28, 33) -/
def State.applyNextStart (s : State) : State :=
  let now := s.par.staged.filter (fun e => e.effect == .nextStart)
  s.modPar (fun x => { x with
    active := putAll x.active (now.map (fun e => (e.pid, e.inst, e.val)))
    staged := x.staged.filter (fun e => e.effect != .nextStart) })

/-- The Capo begins its safety work (14 R348, 15 R358, R368): the watchdog is armed as soon as the switch die answers, every entry
starts, and what only a running Capo would hold at rank 4 is built anew. (log 32) -/
def State.startSafety (s : State) (key seed : BitVec 32) : State :=
  let s := s.modSaf (fun x => { x with live := true, liveAt := s.clk.up })
  let s := s.release4 80
  let s := forAll points16 (fun i s => s.startEntry i) s
  let s := s.refreshSw
  let s := if s.sw.phase = 2 ∧ s.sw.powered = true ∧ s.testing = false then s.enterPhase 0 else s
  if s.sw.powered && seed != 0 then s.armWatchdog key seed else s.modSw (fun d => { d with rearm := true })

/-- PARAMETER_STORE_LOADED (R507, 01 Table 1.8): `badNew` and `badOld` say which copy holds an uncorrectable word, each with its
offset in the area. Where neither verifies, every parameter is at its default. -/
def execParameterStoreLoaded (t : Nat) (badNew badOld : Option Nat) (key seed : BitVec 32) (s : State) :
    Host.Outcome State Fault Refusal :=
  let s := s.at t
  if s.pwr.stage = 2 ∧ s.pwr.capoOn = true then
    let s := s.repairWords
    let s := match badNew with | some o => s.mramError 5 (0x540000 + o) | none => s
    let s := match badOld with | some o => s.mramError 4 (0x500000 + o) | none => s
    let s := if badNew.isSome ∧ badOld.isSome then
        s.modPar (fun x => { x with stored := [], active := [], staged := [], oldCopy := [], applyTag := [] })
      else if badNew.isSome ∧ s.fw.trial = true then s.modPar (fun x => { x with stored := x.oldCopy })
      else s
    let s := s.applyNextStart
    let s := (s.modEng (fun e => { e with mode := s.pn ND_MODE })).modPlc (fun x => { x with borrow := s.pn ND_MODE == 2 })
    let s := forAll points16 (fun p s => s.driveMpo p id) s
    let s := s.modPar (fun x => { x with cost := s.costliest s.eng.mode })
    let s := s.startSafety key seed
    .next ((s.modSar (fun x => { x with conv := x.conv.map (fun k => { k with stDue := some t }) })).modPwr (fun x => { x with
      stage := 3 }))
  else .next s

/-! ### The holdup merge (10 R264, R270, R271) -/

/-- What a restart finds in the ledger: the entry and the bank to use, the outcome of Table 10.15, and whether a newer entry is
damaged. -/
structure Found where
  entry : Option LedgerEntry
  bank : Option Bank
  outcome : Nat
  damaged : Bool

/-- The entries that verify, `bad` naming the slots that do not. -/
def goodEntries (l : List (Option LedgerEntry)) (bad : List Nat) : List LedgerEntry :=
  (l.zipIdx.filter (fun x => !bad.contains x.2)).filterMap (fun x => x.1)

/-- The entry of the highest generation (R264). -/
def newestEntry (l : List LedgerEntry) : Option LedgerEntry :=
  l.foldl (fun a e => match a with | some x => if x.gen < e.gen then some e else some x | none => some e) none

/-- The bank with the latest header among those of a generation (R270). -/
def latestBank (l : List Bank) (gen : Nat) : Option Bank :=
  (l.filter (fun b => b.gen == gen)).foldl (fun a b => match a with
    | some x => if x.frame < b.frame then some b else some x
    | none => some b) none

/-- What the restart finds (R270, R271); `badE` and `badB` name the entry slots and banks that do not verify. (log 33) -/
def State.findHoldup (s : State) (badE badB : List Nat) : Found :=
  let all := s.led.slots.filterMap id
  match newestEntry (goodEntries s.led.slots badE) with
  | none => ⟨none, none, if all.isEmpty then 5 else 6, false⟩
  | some e =>
    let good := (s.led.banks.zipIdx.filter (fun x => !badB.contains x.2)).filterMap (fun x => x.1)
    let bank := latestBank good e.gen
    let damaged := all.any (fun x => e.gen < x.gen)
    ⟨some e, bank,
      if bank.isSome then 0
      else if damaged then 4
      else if (latestBank (s.led.banks.filterMap id) e.gen).isSome then 3
      else if s.led.cut then 2
      else if e.warning then 0
      else 1, damaged⟩

/-- Last frame merged: that of the bank, or the entry's (R270). -/
def Found.last (f : Found) : Option Nat :=
  match f.bank, f.entry with
  | some b, _ => some b.frame
  | none, some e => some e.frame
  | none, none => none

/-- A residual was merged (R270): a bank, or a warning commit with no bank after it. (log 33) -/
def Found.merged (f : Found) : Bool := f.outcome == 0

/-- The newest high-water line that verifies (R264). -/
def newestLine (l : List (Option HighWater)) (bad : List Nat) : Option HighWater :=
  ((l.zipIdx.filter (fun x => !bad.contains x.2)).filterMap (fun x => x.1)).foldl (fun a h => match a with
    | some x => if x.count < h.count then some h else some x
    | none => some h) none

/-- One above the highest number of a series in the journal, or 0 (R271). -/
def State.journalNext (s : State) (series : Nat) : Nat :=
  s.recs.journal.foldl (fun a j => if j.series = series then max a (j.seq + 1) else a) 0

/-- Next number of a series at a restart (R255, R271): of the line, or of the entry where that is higher; without either, from the
journal. (log 33) -/
def State.restartSeq (s : State) (line : Option HighWater) (entry : Option Nat) (series : Nat) : Nat :=
  match line, entry with
  | some h, e => max (h.seqs.getD series 0) (e.getD 0)
  | none, some e => e
  | none, none => s.journalNext series

/-- Next session number of a point at a restart (R255). Where entries and lines exist and none of them verifies it is a free
value (log entry 5). (log 33) -/
def State.restartSession (s : State) (line : Option HighWater) (entry : Option Nat) (p : Nat) : Nat :=
  match line, entry with
  | some h, e => max (h.sess.getD p 0) (e.getD 0)
  | none, some e => e
  | none, none =>
    if s.led.slots.all (fun x => x.isNone) ∧ s.led.lines.all (fun x => x.isNone) then 0 else s.free % 2 ^ 32

/-- Registers that stand at their top (R249). -/
def stuckOf (regs : List Nat) : List Nat := (List.range 32).filter (fun i => regTop ≤ regs.getD i 0)

/-- A point as the entry holds it, with its numbers continued (R264, R271). (log 33) -/
def State.restorePoint (s : State) (e : Option LedgerEntry) (line : Option HighWater) (p : Nat) : State :=
  let l := e.bind (fun x => x.pts[p]?)
  let seq := s.restartSeq line (l.map (fun x => x.seqNext)) p
  let num := s.restartSession line (l.map (fun x => x.ses.nextNumber)) p
  s.modPt p (fun x =>
    match l with
    | some y => { x with
        regs := y.regs, wraps := y.wraps, stuck := stuckOf y.regs, per := y.per, late := y.late, ses := { y.ses with nextNumber := num }
        seqNext := seq, acked := y.acked, advBase := y.regs }
    | none => { x with
        regs := List.replicate 38 0, wraps := List.replicate 32 0, stuck := [], per := Span.reset, late := []
        ses := { Session.reset with nextNumber := num }, seqNext := seq, acked := none, advBase := List.replicate 38 0 })

/-- Everything that the entry holds (R264). -/
def State.restore (s : State) (e : Option LedgerEntry) (line : Option HighWater) : State :=
  let s := forAll points16 (fun p s => s.restorePoint e line p) s
  let s := if line.isNone ∧ e.isNone then s.bump else s
  let node := s.restartSeq line (e.map (fun x => x.nodeNext)) 16
  let s := s.modRecs (fun r =>
    match e with
    | some x => { r with
        nodeNext := node, nodeAcked := x.nodeAcked, sealsAfter := x.seals, sealEnd := x.sealEnd, sealHash := x.sealHash
        sealFlags := 0, sealRegime := 0 }
    | none => { r with
        nodeNext := node, nodeAcked := none, sealsAfter := 0, sealEnd := none, sealHash := zeros 32
        sealFlags := 0, sealRegime := 0 })
  s.modRecs (fun r => { r with
    due := [], queue := [], stuckSeries := (List.range 17).filter (fun i => s.seqNext i == 2 ^ 32 - 1) })

/-- Step 1 of R270: each point line added to the registers of the header's tariff. (log 33) -/
def State.mergeBank (s : State) (b : Bank) (from' : Nat) : State :=
  forAll points16 (fun p s =>
    let s := s.modPt p (fun x => { x with
      tariff := b.tariffs.getD p 0
      per := if from' < b.frame then x.per.join 0 0 0 (2 ^ b.tariffs.getD p 0) else x.per })
    s.addQuantities p b.frame (b.adv.getD p [])) s

/-- Step 2 of R270 for one point (09 R239): a session that is open ends at frame `f`, and the point restarts in IDLE. (log 33) -/
def State.endOpen (s : State) (p f cause : Nat) (merged : Bool) : State :=
  let x := s.sesOf p
  let open' := x.state == .transferring || x.state == .stopping
  let s := if x.running ∧ x.startRegs.isSome then
      let s := if open' then s.modSes p (fun y => { y with
          endCause := cause, stopCause := if y.state == .transferring then cause else y.stopCause }) else s
      let flags := 2 ^ flagCut * b2n merged + 2 ^ flagRevoked * b2n (!keyUsable (s.keyState 2 p) f)
      s.buildEnd p f flags 2
    else s
  let s := if x.state = .idle then s else s.outletSession p x.state .idle (if open' then cause else 0)
  s.modSes p (fun y => { Session.reset with nextNumber := y.nextNumber })

/-- Step 3 of R270 and R271: the interrupted period closes at frame `f`. (log 33) -/
def State.closeCut (s : State) (f : Nat) (merged missing : Bool) (p : Nat) : State :=
  let s := s.modPt p (fun x => { x with
    per := x.per.join (2 ^ flagCut * b2n merged) 0 0 0, missedRestart := missing, ivlSes := false })
  if s.ptType p = 0 then s else s.closePeriod f p

/-- A record that the entry holds as due, built again (R266, R270): the point key takes the place of the session key, and a key
that signs no longer leaves it UNSIGNED. (log 30) -/
def State.rebuilt (s : State) (d : DueRec) : DueRec :=
  let stop := fld d.head 18 6
  let k := if d.cls = 3 then s.recKey 2 d.series stop
    else if d.cls = 0 ∨ s.keys.regenFail = true ∨ s.keys.root = none then (0, 0, 0, 0)
    else (d.cls, d.pt, d.gen, d.ses)
  let flags := if k.1 = 0 then putBit (fld d.head 6 2) 10 true else fld d.head 6 2
  { d with cls := k.1, pt := k.2.1, gen := k.2.2.1, ses := k.2.2.2
           head := d.head.take 6 ++ le 2 flags ++ (d.head.drop 8).take 24 ++ keyIdBytes k.1 k.2.1 k.2.2.1 k.2.2.2 ++ d.head.drop 40 }

/-- Step 4 of R270: the records due that the journal does not hold (R255). (log 33) -/
def State.rebuildDue (s : State) (e : LedgerEntry) : State :=
  (e.due.filter (fun d => !(s.recs.journal.any (fun j => j.series == d.series && j.seq == d.seq)))).foldl (fun s d =>
    s.modRecs (fun r => { r with due := insertDue (s.rebuilt d) r.due })) s

/-- HOLDUP_RESTORED (Table 10.15). -/
def State.restoredEvent (s : State) (f : Found) : State :=
  let ef := match f.entry with | some e => e.frame | none => 0
  let pts := match f.bank with
    | some b => mapOf 16 (points16.filter (fun p => (b.adv.getD p []).any (fun q => q != 0)))
    | none => 0
  s.raiseRaw 20 ([byteOf f.outcome, 0] ++ le 2 pts ++ le 4 (match f.entry with | some e => e.gen | none => 0) ++ le 8 ef ++
    le 8 (f.last.getD 0) ++ le 2 (f.last.getD 0 - ef))

/-- Cause with which open sessions end at a restart (09 R239, Table 22.4). (log 33) -/
def State.restartCause (s : State) : Nat := if s.pwr.capoReset = false ∧ s.pwr.cause ≤ 1 then 20 else 21

/-- The steps of R270, or of R271 where nothing is merged, with the records due rebuilt first among those of one frame. (log 33) -/
def State.mergeSteps (s : State) (f : Found) : State :=
  match f.entry, f.last with
  | some e, some last =>
    let cause := s.restartCause
    let s := match f.bank with | some b => s.mergeBank b e.frame | none => s
    let s := s.rebuildDue e
    let s := forAll points16 (fun p s => s.endOpen p last cause f.merged) s
    let missing := f.outcome != 0 || f.damaged
    let s := forAll points16 (fun p s => s.closeCut last f.merged missing p) s
    forAll points16 (fun p s => s.buildLate p (2 ^ 48)) s
  | _, _ =>
    let s := forAll points16 (fun p s => s.modSes p (fun y => { Session.reset with nextNumber := y.nextNumber })) s
    if f.outcome = 6 then s.modPts (fun l => l.map (fun x => { x with missedRestart := true })) else s

/-- Every point from frame `n` on: a new interval and a new period, its tariff, and whether it is in service (02 R42, 09 R237,
R242). -/
def State.beginPoints (s : State) (n : Nat) : State :=
  let s := s.modPts (fun l => l.map (fun x =>
    let span : Span := { Span.reset with start := n, regs := x.ints }
    { x with ivl := span, per := span, ivlSes := false }))
  forAll points16 (fun p s => ((s.modPt p (fun x => { x with
    tariff := s.tariffAt p n, outService := s.pb PT_SERVICE p, advBase := x.regs })).setPilot p).loadRcd p) s

/-- The seals as they stand at a start against those of the last SEAL record (15 R375). (log 32) -/
def State.startSeals (s : State) : State :=
  let base := if s.recs.sealEnd.isSome then s.recs.sealsAfter else 0
  if s.saf.sealLands ≠ base then s.sealChange base s.saf.sealLands else s.modSaf (fun x => { x with seals := base })

/-- What the start owes the legal event log: a relock by the reset (Table 15.15), a legal image that has started (21 R498), and a
change of the seals while the Capo did not run (15 R375). (log 32) -/
def State.startLog (s : State) : State :=
  let s := if s.test.relockDue then
      (s.modTest (fun x => { x with relockDue := false })).enterCapo 9 0 0 [1] [0, 3] s.frm
    else s
  let s := if s.fw.swapLog then
      let x := (s.legalSlot s.fw.legal).info.getD ImageInfo.reset
      let old := match (s.legalSlot (1 - s.fw.legal)).info with | some y => y.version | none => 0
      (s.modFw (fun f => { f with swapLog := false })).enterCapo 3 0 0 (le 2 old ++ [2]) (fwNew x.version 2 2 x.digest) s.frm
    else s
  s.startSeals

/-- Metering begins with frame `n` (02 R40–R42, R507), on free-running frames. The temperature that shut the die down is not kept
over the reset, and THERMAL_DIE carries free values for it (log entry 47). (log 33) -/
def State.startMetering (s : State) (n : Nat) : State :=
  let s := s.modClk (fun c => { c with frame := n, ivalStart := n, interval := 0, bdry := none, stepped := false })
  let s := (s.modHost (fun x => { x with metering := true })).modPwr (fun x => { x with
    stage := if s.fw.svcRunning && s.host.ready then 6 else 5 })
  let s := (s.beginPoints n).plcSweep
  let s := s.startLog
  let s := if s.pwr.shutdown then
      (s.bump.bump.modPwr (fun x => { x with shutdown := false })).raise 56 0
        ([0, 3, 0, 0] ++ le 4 s.free ++ le 8 s.frm ++ leI 4 1500 ++ le 4 s.bump.free)
    else s
  if s.warnNow = 0 then s else s.beginWarning s.warnNow

/-- HOLDUP_MERGE (10 R270, R271, R507): the entry slots, banks and lines that do not verify, and the offsets in the ledger of the
uncorrectable words found. -/
def execHoldupMerge (t : Nat) (badE badB badL words : List Nat) (s : State) : Host.Outcome State Fault Refusal :=
  let s := s.at t
  if s.pwr.stage = 4 ∧ s.pwr.capoOn = true then
    let s := words.foldl (fun s w => s.mramError 7 (0xF80000 + w)) s.repairWords
    let f := s.findHoldup badE badB
    let s := s.restore f.entry (newestLine s.led.lines badL)
    let s := s.modClk (fun c => { c with frame := f.last.getD 0 })
    let s := s.modServo (fun v => match f.entry.bind (fun e => e.utc) with
      | some u => { v with utc := u, utcSaved := true }
      | none => { v with utc := s.pv ND_UTC_OFFSET })
    let s := (s.mergeSteps f).restoredEvent f
    let s := match f.last with
      | some n => (s.saveLedger false n).modLed (fun d => { d with cut := false })
      | none => s.modLed (fun d => { d with cut := false })
    .next (s.startMetering (match f.last with | some n => n + 1 | none => 0))
  else .next s

/-! ### A Capo reset and its restart (22 R509, R510) -/

/-- The Capo is in reset with a source of Table 22.8 (2 stands for a factory reset, which raises nothing): it adds no frame and
feeds no watchdog; a swap that waits is abandoned (Table 21.5). -/
def State.capoDown (s : State) (source code : Nat) : State :=
  ((s.modPwr (fun x => { x with capoOn := false, capoReset := true, capoCause := source, capoCode := code, capoFrame := s.frm })).modHost
    (fun x => { x with capo := false })).modFw (fun f =>
      if f.swapAt.isSome then { f with swapAt := none, stage := keptStaging f.stage } else f)

/-- CAPO_DIVERGENCE (01 R31). -/
def execCapoDivergence (t code : Nat) (s : State) : Host.Outcome State Fault Refusal :=
  let s := s.at t
  if s.pwr.capoOn then .next (s.capoDown 0 code) else .next s

/-- CAPO_EXCEPTION (R509). -/
def execCapoException (t code : Nat) (s : State) : Host.Outcome State Fault Refusal :=
  let s := s.at t
  if s.pwr.capoOn then .next (s.capoDown 1 code) else .next s

/-- Frames lost are counted on every point that meters (R510). -/
def State.loseFrames (s : State) (n : Nat) : State :=
  if n = 0 then s
  else forAll points16 (fun p s =>
    if s.ptType p = 0 then s else s.modPt p (fun x => { x with ivl := x.ivl.join (2 ^ flagMissing) n 0 0 })) s

/-- First frame that the restarted Capo adds (R510). (log 33) -/
def State.firstFrame (s : State) : Nat :=
  match s.nextBlock, s.eng.work with
  | some b, _ => b.frame
  | none, some b => b.frame
  | none, none => s.frm

/-- The Capo restarts without a warning (R510): the registers from the newest entry, its sessions ended, the frames up to `first`
lost to their intervals, and the running period goes on. -/
def State.resumeCapo (s : State) (e : LedgerEntry) (first : Nat) : State :=
  let cause := s.restartCause
  let s := s.rebuildDue e
  let s := forAll points16 (fun p s => s.endOpen p e.frame cause false) s
  let s := s.modPts (fun l => l.map (fun x => { x with
    ivl := { x.ivl with start := s.clk.ivalStart, missing := 0, regs := x.ints } }))
  match s.clk.bdry with
  | some b =>
    if b ≤ first then
      (((s.loseFrames (b - 1 - e.frame)).boundaryWork b)).loseFrames (first - max b (e.frame + 1))
    else s.loseFrames (first - 1 - e.frame)
  | none => s.loseFrames (first - 1 - e.frame)

/-- What any restart of the Capo leaves of the outlets and safety functions (12 R300, 15 Table 15.12): pilot codes from A, latches
rebuilt from the inputs. -/
def State.restartParts (s : State) (key seed : BitVec 32) : State :=
  let s := s.endTests
  let s := s.modPts (fun l => l.map (fun x => { x with out := { x.out with
    code := 0, cand := 0, run := 0, ppCode := 0, ppCand := 0, ppRun := 0, test := 0, testSlices := [], testDue := none
    weld := false, weldGone := none, offAt := none, abAt := none } }))
  let s := s.modSaf (fun x => { x with ownStop := false, ownHeld := [], ownAutoDue := none })
  let s := s.modKeys (fun k => { k with ready := [] })
  let s := s.startSafety key seed
  forAll points16 (fun p s => s.setPilot p) s

/-- CORE_EXCEPTION of a Capo reset (Table 22.8). -/
def State.capoEvent (s : State) (source code lost frame : Nat) : State :=
  s.raise 63 0 ([byteOf source, 0xFF, 0xFF, 0xFF] ++ zeros 4 ++ le 8 frame ++ le 4 (min lost (2 ^ 32 - 1)) ++ le 4 code)

/-- What CAPO_RESTART does (R510): the Capo adds frames again. In a warning the merge of R270 runs in full; after a factory reset the ledger
is empty (R271). (log 33) -/
def State.restartCapo (s : State) (badE badB badL words : List Nat) (key seed : BitVec 32) : State :=
  let s := words.foldl (fun s w => s.mramError 7 (0xF80000 + w)) s.repairWords
  let f := s.findHoldup badE badB
  let first := s.firstFrame
  let s := s.restore f.entry (newestLine s.led.lines badL)
  let s := (s.modPwr (fun x => { x with capoOn := true })).modHost (fun x => { x with capo := true })
  let s := match f.entry with
    | some e =>
      if s.led.warnFrom.isSome ∧ f.merged = true then
        let last := f.last.getD e.frame
        let s := (s.mergeSteps f).restoredEvent f
        let s := s.beginPoints (last + 1)
        let s := s.loseFrames (first - 1 - last)
        (s.saveLedger false (first - 1)).capoEvent s.pwr.capoCause s.pwr.capoCode (first - 1 - last) s.pwr.capoFrame
      else
        let s := s.resumeCapo e first
        (s.saveLedger false (first - 1)).capoEvent s.pwr.capoCause s.pwr.capoCode (first - 1 - e.frame) s.pwr.capoFrame
    | none =>
      let s := ((s.mergeSteps f).restoredEvent f).beginPoints first
      if s.pwr.capoCause = 2 then s else s.capoEvent s.pwr.capoCause s.pwr.capoCode 0 s.pwr.capoFrame
  (s.restartParts key seed).startSeals.modPwr (fun x => { x with capoReset := false, capoCause := 0, capoCode := 0 })

end Sys2Proof.Machine
end

