-- ==== Sys2Proof/Machine/HostNode.lean ====
section
/-!
DEFINITION. The node's own commands (20 Table 20.4): identity, node-status, event-detail and factory-reset (R482).
-/

namespace Sys2Proof.Machine

/-- identity. -/
def serveIdentity : Bytes → State → Ans := noPayload (fun s =>
  okB s (le 2 0x4749 ++ le 2 0x9128 ++ [byteOf Config.orderingCode, byteOf Config.siliconRevision] ++ le 2 s.host.service ++
    le 2 (s.runningVersion 2) ++ le 2 (s.runningVersion 3) ++ le 8 Config.serial ++ [byteOf (s.pn ND_LIFECYCLE), 1] ++
    le 2 s.nodeId))

/-- node-status. -/
def serveNodeStatus : Bytes → State → Ans := noPayload (fun s =>
  okB s ([byteOf s.eng.mode, byteOf (servoCode s.servo.state), byteOf s.saf.seals, byteOf s.statusLow] ++ le 4 s.par.cost ++
    le 4 s.clk.interval ++ le 8 s.frm ++ leI 2 s.sar.dieTemp ++ zeros 2 ++ le 4 s.pwr.corrected ++ le 4 s.keys.refusals))

/-- event-detail (R460): the oldest unread detail leaves its queue. -/
def serveEventDetail (p : Bytes) (s : State) : Ans :=
  let n := fld p 0 1
  let q := s.host.events.getD n EventQueue.reset
  if p.length ≠ 1 then refuse s 2
  else if 64 ≤ n then refuse s 6
  else
    okB (s.modHost (fun h => { h with events := upd h.events n (fun q => { q with details := q.details.drop 1 }) }))
      ([byteOf n, byteOf (q.details.length - 1), 0, 0] ++ le 4 q.lost ++ padTo 32 (q.details.headD []))

/-- The parameters that a factory reset keeps: family 5/0. -/
def keptByReset (l : List (Nat × Nat × Int)) : List (Nat × Nat × Int) := l.filter (fun e => e.1 / 0x100 == 0x50)

/-- A point after a factory reset: registers, wraps and series at zero, the engine's contexts as at a retype. -/
def Point.factory (x : Point) : Point :=
  { x with
    regs := List.replicate 38 0, wraps := List.replicate 32 0, stuck := [], seqNext := 0, acked := none
    ses := Session.reset, advBase := List.replicate 38 0, el := Electrical.reset, pq := Quality.reset, fl := Fluid.reset
    pulse := PulseLine.reset, missedRestart := false, late := [] }

/-- What a factory reset does, in the order of R482; the Capo then restarts (CAPO_RESTART). -/
def State.factoryReset (s : State) (h : Hdr) : State :=
  let s := s.enterHost h 10 0 0 [] [] s.frm
  let s := s.modPar (fun x => { x with
    stored := keptByReset x.stored, active := keptByReset x.active, oldCopy := keptByReset x.oldCopy
    staged := x.staged.filter (fun e => e.pid / 0x100 == 0x50), batch := none, applyTag := [] })
  let s := s.modEng (fun e => { e with mode := s.pn ND_MODE, change := none, diag := none, diagQueue := [], restores := [] })
  let s := s.modPlc (fun x => { x with borrow := s.eng.mode == 2 })
  let s := s.modPar (fun x => { x with cost := s.costliest s.eng.mode })
  let s := (s.modPts (fun l => l.map Point.factory)).modCourses (fun l => l.map (fun _ => Course.reset))
  let s := s.modRecs (fun r => { r with
    due := [], journal := [], withheld := [], nodeNext := 0, nodeAcked := none, stuckSeries := [], queue := [], nearFull := false
    withheldEv := false, sealEnd := none, sealHash := zeros 32, sealsAfter := 0, sealFlags := 0, sealRegime := 0 })
  let s := s.modLed (fun d => { d with slots := List.replicate 4 none, banks := [none, none], lines := [none, none], sel := 0 })
  s.capoDown 2 0

/-- factory-reset (R482): SEAL0, every point in IDLE, every journalled record and log entry acknowledged. -/
def serveFactoryReset (h : Hdr) : Bytes → State → Ans := noPayload (withSeal 0 (fun s =>
  if s.allIdle = true ∧ s.journalUnacked = 0 ∧ s.log.unacked = 0 then withLog 1 (fun s => okS (s.factoryReset h)) s
  else refuse s 8))

/-- IDENTITY. -/
def execIdentity (h : Hdr) (p : Bytes) (s : State) : Host.Outcome State Fault Refusal := hostCmd 0x0101 h p serveIdentity s
/-- NODE_STATUS. -/
def execNodeStatus (h : Hdr) (p : Bytes) (s : State) : Host.Outcome State Fault Refusal := hostCmd 0x0102 h p serveNodeStatus s
/-- EVENT_DETAIL. -/
def execEventDetail (h : Hdr) (p : Bytes) (s : State) : Host.Outcome State Fault Refusal := hostCmd 0x0103 h p serveEventDetail s
/-- FACTORY_RESET. -/
def execFactoryReset (h : Hdr) (p : Bytes) (s : State) : Host.Outcome State Fault Refusal :=
  hostCmd 0x0104 h p (serveFactoryReset h) s

end Sys2Proof.Machine
end

