-- ==== Sys2Proof/Machine/TestWindow.lean ====
section
/-!
DEFINITION. The test window (23): its registers, the commands that unlock and relock it, and its timeout.
-/

namespace Sys2Proof.Machine

/-- A field of a register word. -/
def bitsAt (v : BitVec 32) (lo n : Nat) : Nat := v.toNat / 2 ^ lo % 2 ^ n

/-- A field written: the new value inside its range, else the old one (R521). -/
def fieldOr (lo hi new old : Nat) : Nat := if lo ≤ new ∧ new ≤ hi then new else old

/-- The timeout of the window starts again at a write to it (R520). (log 38) -/
def State.testTouched (s : State) : State :=
  s.modTest (fun x => { x with due := some (s.clk.up + s.pn ND_TEST_TIMEOUT * 1000000000) })

/-- A write to the register of perturbation `k` (R450, R520–R522): nothing while the window is locked, and no change while the
perturbation is not allowed. (log 38) -/
def State.testWrite (s : State) (k : Nat) (f : TestRegs → TestRegs) : State :=
  if s.test.unlocked = false then s
  else if (s.pn ND_TEST_ALLOW).testBit k then s.testTouched.setTest (f s.test.regs) 0
  else s.testTouched

/-- H_TEST_FIFO written. -/
def writeTestFifo (v : BitVec 32) (r : TestRegs) : TestRegs := { r with fifo := v.truncate 16 }

/-- H_TEST_RING written. -/
def writeTestRing (v : BitVec 32) (r : TestRegs) : TestRegs :=
  { r with ringDelay := BitVec.ofNat 10 (fieldOr 0 1000 (bitsAt v 0 10) r.ringDelay.toNat)
           ringLka := v.getLsbD 16, ringLkb := v.getLsbD 17 }

/-- H_TEST_ZC written. -/
def writeTestZc (v : BitVec 32) (r : TestRegs) : TestRegs :=
  if -1000000 ≤ v.toInt ∧ v.toInt ≤ 1000000 then { r with zc := v.toInt } else r

/-- H_TEST_SAFETY written. -/
def writeTestSafety (v : BitVec 32) (r : TestRegs) : TestRegs :=
  { r with safDelay := BitVec.ofNat 16 (fieldOr 0 1000 (bitsAt v 16 16) r.safDelay.toNat)
           safCount := BitVec.ofNat 8 (bitsAt v 8 8), safAction := BitVec.ofNat 2 (bitsAt v 5 2)
           safEntry := BitVec.ofNat 4 (bitsAt v 0 4) }

/-- H_TEST_PLC written. -/
def writeTestPlc (v : BitVec 32) (r : TestRegs) : TestRegs :=
  { r with starve := BitVec.ofNat 5 (fieldOr 0 24 (bitsAt v 0 5) r.starve.toNat) }

/-- H_TEST_MRAM written. -/
def writeTestMram (v : BitVec 32) (r : TestRegs) : TestRegs :=
  { r with mram := BitVec.ofNat 14 (fieldOr 0 10000 (bitsAt v 0 14) r.mram.toNat) }

/-- H_TEST_WD written. -/
def writeTestWd (v : BitVec 32) (r : TestRegs) : TestRegs :=
  { r with wrong := v.getLsbD 8, skip := BitVec.ofNat 8 (bitsAt v 0 8) }

/-- H_TEST_STRETCHi as a word: EN, FRET, CYCLES; reserved bits read 0. -/
def stretchWord (en : Bool) (fret cycles : Nat) : BitVec 32 := BitVec.ofNat 32 (b2n en * 2 ^ 31 + fret * 2 ^ 12 + cycles)

/-- H_TEST_STRETCHi written. -/
def writeTestStretch (i : Nat) (v : BitVec 32) (r : TestRegs) : TestRegs :=
  { r with stretch := upd r.stretch i (fun o =>
      stretchWord (v.getLsbD 31) (fieldOr 0 146 (bitsAt v 12 8) (bitsAt o 12 8)) (bitsAt v 0 12)) }

/-- H_TEST_CTRL written: CLEAR returns every other register to reset (R522). (log 38) -/
def State.testClear (s : State) (v : BitVec 32) : State :=
  if s.test.unlocked then (if v.getLsbD 1 then s.testTouched.setTest TestRegs.reset 1 else s.testTouched) else s

/-- The word a register of the window reads as, by its offset from 0x0300: 0 while locked (R450). -/
def State.testRead (s : State) (off : Nat) : Nat :=
  let r := s.test.regs
  if s.test.unlocked = false then 0
  else if off = 0 then 1
  else if off = 0x04 then activeOf r
  else if off = 0x08 then r.fifo.toNat
  else if off = 0x0C then r.ringDelay.toNat + b2n r.ringLka * 2 ^ 16 + b2n r.ringLkb * 2 ^ 17
  else if off = 0x10 then (r.zc % 2 ^ 32).toNat
  else if off = 0x14 then
    r.safDelay.toNat * 2 ^ 16 + r.safCount.toNat * 2 ^ 8 + r.safAction.toNat * 2 ^ 5 + r.safEntry.toNat
  else if off = 0x18 then r.starve.toNat
  else if off = 0x1C then r.mram.toNat
  else if off = 0x20 then r.skip.toNat + b2n r.wrong * 2 ^ 8
  else if 0x40 ≤ off ∧ off < 0x60 then (r.stretch.getD ((off - 0x40) / 4) 0).toNat
  else 0

/-- TEST_CLEAR: a write to H_TEST_CTRL. -/
def execTestClear (v : BitVec 32) (s : State) : Host.Outcome State Fault Refusal := .next (s.testClear v)
/-- TEST_STRETCH_WRITE: H_TEST_STRETCHi. -/
def execTestStretchWrite (i : Nat) (v : BitVec 32) (s : State) : Host.Outcome State Fault Refusal :=
  .next (s.testWrite 0 (writeTestStretch i v))
/-- TEST_FIFO_WRITE. -/
def execTestFifoWrite (v : BitVec 32) (s : State) : Host.Outcome State Fault Refusal := .next (s.testWrite 1 (writeTestFifo v))
/-- TEST_RING_WRITE. -/
def execTestRingWrite (v : BitVec 32) (s : State) : Host.Outcome State Fault Refusal := .next (s.testWrite 2 (writeTestRing v))
/-- TEST_ZC_WRITE. -/
def execTestZcWrite (v : BitVec 32) (s : State) : Host.Outcome State Fault Refusal := .next (s.testWrite 3 (writeTestZc v))
/-- TEST_SAFETY_WRITE. -/
def execTestSafetyWrite (v : BitVec 32) (s : State) : Host.Outcome State Fault Refusal :=
  .next (s.testWrite 4 (writeTestSafety v))
/-- TEST_PLC_WRITE. -/
def execTestPlcWrite (v : BitVec 32) (s : State) : Host.Outcome State Fault Refusal := .next (s.testWrite 5 (writeTestPlc v))
/-- TEST_MRAM_WRITE. -/
def execTestMramWrite (v : BitVec 32) (s : State) : Host.Outcome State Fault Refusal := .next (s.testWrite 6 (writeTestMram v))
/-- TEST_WD_WRITE. -/
def execTestWdWrite (v : BitVec 32) (s : State) : Host.Outcome State Fault Refusal := .next (s.testWrite 7 (writeTestWd v))

/-- TEST_TIMEOUT (R520). (log 38) -/
def execTestTimeout (t : Nat) (s : State) : Host.Outcome State Fault Refusal :=
  let s := s.at t
  if s.test.unlocked = true ∧ ripeAt s.test.due t = true then .next (s.relock 4 2 0 0) else .next s

/-- test-unlock (R520). (log 38) -/
def serveTestUnlock (h : Hdr) : Bytes → State → Ans := noPayload (withSeal 2 (withLog 1 (fun s =>
  let idx := s.log.next
  let before := b2n s.test.unlocked
  okS ((s.testTouched.modTest (fun x => { x with unlocked := true, logIdx := idx })).enterHost h 9 0 0
    [byteOf before] [1, 0] s.frm))))

/-- test-relock (R520). (log 38) -/
def serveTestRelock (h : Hdr) : Bytes → State → Ans := noPayload (fun s =>
  if s.test.unlocked then withLog 1 (fun s => okS (s.relock 2 0 (hostSrc h) h.tag)) s else refuse s 16)

/-- TEST_UNLOCK. -/
def execTestUnlock (h : Hdr) (p : Bytes) (s : State) : Host.Outcome State Fault Refusal := hostCmd 0x0A01 h p (serveTestUnlock h) s
/-- TEST_RELOCK. -/
def execTestRelock (h : Hdr) (p : Bytes) (s : State) : Host.Outcome State Fault Refusal := hostCmd 0x0A02 h p (serveTestRelock h) s

end Sys2Proof.Machine
end

