-- ==== Sys2Proof/Machine/HostPort.lean ====
section
/-!
DEFINITION. The host register space (19 Table 19.3): what each register reads, what a write to it does, the stream ports
(R454, R457–R459), the heartbeat (R463) and the timers of the port.
-/

namespace Sys2Proof.Machine

/-! ### Reads -/

/-- H_MBXm. -/
def Mailbox.word (b : Mailbox) : Nat := b.tag.toNat * 2 ^ 16 + 8 * b2n b.error + 4 * b2n b.busy + 2 * b2n b.rsp + b2n b.req

/-- H_MBX_SUMMARY. -/
def State.mbxSummary (s : State) : Nat :=
  bitmapOf (s.host.mbx.map (fun b => b.req)) + 256 * bitmapOf (s.host.mbx.map (fun b => b.rsp))

/-- Stream `k` is made to read as empty by the test window (23 Table 23.1). (log 38) -/
def State.streamHeld (s : State) (k : Nat) : Bool := s.test.regs.fifo.getLsbD (8 + k)

/-- H_STRs_STATUS. (log 38) -/
def State.streamStatus (s : State) (k : Nat) : Nat :=
  let f := s.stream k
  let level := fifoLevel (streamBits k) f
  bitmapOf [level == 0 || s.streamHeld k, level == 2 ^ streamBits k || s.test.regs.fifo.getLsbD k, f.underrun, f.overrun, f.poison,
    f.tail]

/-- H_IF_ERR. -/
def State.ifErr (s : State) : Nat := bitmapOf [s.host.badInstr, s.host.short, s.host.hethRefused]

/-- The word that a register without a side effect reads as; an address that Table 19.3 does not list reads 0 (R450). -/
def State.regWord (s : State) (a : Nat) : Nat :=
  if a = 0x0000 then 0x47499128
  else if a = 0x0004 then Config.siliconRevision % 256 * 2 ^ 24 + s.host.service % 65536 * 2 ^ 8 + 1
  else if a = 0x0008 then s.nodeId
  else if a = 0x000C then s.hStatus
  else if a = 0x0010 then s.host.pend.toNat % 2 ^ 32
  else if a = 0x0014 then s.host.pend.toNat / 2 ^ 32
  else if a = 0x0018 then s.host.mask.toNat % 2 ^ 32
  else if a = 0x001C then s.host.mask.toNat / 2 ^ 32
  else if a = 0x0028 then s.hIntCtrl
  else if a = 0x0030 then s.frm % 2 ^ 32
  else if a = 0x0034 then s.host.frameHi.toNat
  else if a = 0x0038 then s.host.scratch.toNat
  else if a = 0x003C then s.ifErr
  else if 0x0100 ≤ a ∧ a < 0x0120 ∧ a % 4 = 0 then (s.mbox ((a - 0x0100) / 4)).word
  else if a = 0x0120 then s.mbxSummary
  else if 0x0200 ≤ a ∧ a < 0x0240 then
    let k := (a - 0x0200) / 0x10
    if a % 0x10 = 4 then fifoLevel (streamBits k) (s.stream k)
    else if a % 0x10 = 8 then s.streamStatus k
    else 0
  else if 0x0300 ≤ a ∧ a < 0x0400 then s.testRead (a - 0x0300)
  else if 0x1000 ≤ a ∧ a < 0x2000 ∧ a % 0x200 < 0x100 then
    match (s.mbox ((a - 0x1000) / 0x200)).reqBuf.find? (fun x => x.1 == a % 0x200) with
    | some x => x.2
    | none => 0
  else if 0x1000 ≤ a ∧ a < 0x2000 then fld (s.mbox ((a - 0x1000) / 0x200)).resp (a % 0x200 - 0x100) 4
  else 0

/-- One register read: its word and what the read does. H_FRAME_LO latches H_FRAME_HI (R446); a response buffer whose RSP is 0
reads as a free value (Table 19.16; log entry 5). -/
def State.regRead (s : State) (a : Nat) : Nat × State :=
  if a = 0x0030 then (s.regWord a, s.modHost (fun h => { h with frameHi := BitVec.ofNat 16 (s.frm / 2 ^ 32) }))
  else if 0x1000 ≤ a ∧ a < 0x2000 ∧ 0x100 ≤ a % 0x200 ∧ (s.mbox ((a - 0x1000) / 0x200)).rsp = false then
    (s.free % 2 ^ 32, s.bump)
  else (s.regWord a, s)

/-- FRAME_LO_READ (R446). -/
def execFrameLoRead (s : State) : Host.Outcome State Fault Refusal :=
  hostAct (fun s =>
    let r := s.regRead 0x0030
    r.2.modHost (fun h => { h with lastRead := le 4 r.1 })) s

/-! ### Streams -/

/-- FIFO_POISON (Table 19.9), at most once per frame for a stream (R454). -/
def State.poisonEvent (s : State) (k rptr : Nat) : State :=
  if (s.stream k).poFrame = some s.frm then s
  else
    (s.modStream k (fun f => { f with poFrame := some s.frm })).raise 7 k
      (fifoBody k 0 (fifoLevel (streamBits k) (s.stream k)) s.frm rptr)

/-- The parity of the next word of a FIFO fails. (log 38) -/
def Fifo.spoil (f : Fifo) : Fifo :=
  { f with words := match f.words with | (w, last, _) :: ws => (w, last, true) :: ws | [] => [] }

/-- One read of stream `k` (R454, R457): five bytes, and the FIFO after it. `bad` says that the parity of the word fails. -/
def State.portRead (s : State) (k : Nat) (bad : Bool) : Bytes × State :=
  let f := if bad then (s.stream k).spoil else s.stream k
  let r := fifoRead (streamBits k) s.clk.up (s.streamHeld k) f
  let s := s.modStream k (fun _ => r.2.2)
  (le 4 r.1 ++ [byteOf r.2.1], if r.2.1.testBit 0 then s.poisonEvent k f.rptr else s)

/-- STREAM_PORT_READ (R457). -/
def execStreamPortRead (k : Nat) (bad : Bool) (s : State) : Host.Outcome State Fault Refusal :=
  hostAct (fun s =>
    if k < 4 then
      let r := s.portRead k bad
      r.2.modHost (fun h => { h with lastRead := r.1 })
    else s.modHost (fun h => { h with lastRead := zeros 5 })) s

/-- Words up to and including the last one that closes a unit. -/
def lastUnit (l : List (Nat × Bool × Bool)) : Nat :=
  l.length - (l.reverse.takeWhile (fun w => !w.2.1)).length

/-- A flush (R459): the whole units go; the last word delivered is 0 again (R454). -/
def Fifo.flush (a : Nat) (f : Fifo) : Fifo :=
  let n := lastUnit f.words
  { f with
    words := f.words.drop n, rptr := (f.rptr + n) % 2 ^ (a + 1), lastWord := 0
    heldSince := if (f.words.drop n).isEmpty then none else f.heldSince }

/-- A write to H_STRs_CTRL (R459). -/
def State.flushStream (s : State) (k : Nat) (v : BitVec 32) : State :=
  if k < 4 ∧ v.getLsbD 0 = true then s.modStream k (Fifo.flush (streamBits k)) else s

/-- STREAM_FLUSH. -/
def execStreamFlush (k : Nat) (v : BitVec 32) (s : State) : Host.Outcome State Fault Refusal :=
  hostAct (fun s => s.flushStream k v) s

/-- STREAM_TAIL_TIMEOUT (R454, R458): once, until the next read. -/
def execStreamTailTimeout (t k : Nat) (s : State) : Host.Outcome State Fault Refusal :=
  let s := s.at t
  let f := s.stream k
  let tail := s.pn (ND_STREAM_TAIL_0 + k)
  if k < 4 ∧ tail ≠ 0 ∧ f.tailFired = false ∧ ripeAt (f.heldSince.map (· + tail * 10000)) t = true then
    .next ((s.modStream k (fun f => { f with tail := true, tailFired := true })).streamReport k 1)
  else .next s

/-! ### Writes -/

/-- Pending bits that a write of H_EV_CLEAR clears (R460). -/
def State.clearEvents (s : State) (hi : Bool) (v : BitVec 32) : State :=
  s.modHost (fun h => { h with pend := h.pend &&& ~~~(v.zeroExtend 64 <<< (if hi then 32 else 0)) })

/-- EVENT_CLEAR. -/
def execEventClear (hi : Bool) (v : BitVec 32) (s : State) : Host.Outcome State Fault Refusal :=
  hostAct (fun s => s.clearEvents hi v) s

/-- A write of H_EV_MASK. -/
def State.writeMask (s : State) (hi : Bool) (v : BitVec 32) : State :=
  s.modHost (fun h => { h with
    mask := if hi then v.zeroExtend 64 <<< 32 ||| (h.mask &&& 0x00000000FFFFFFFF) else v.zeroExtend 64 ||| (h.mask &&& 0xFFFFFFFF00000000) })

/-- HOST_WATCHDOG (Table 19.15). -/
def State.watchdogEvent (s : State) (kind : Nat) : State :=
  s.raise 62 0 ([0, byteOf kind, 0, 0] ++ le 4 (s.pn ND_HOST_WD_TIMEOUT) ++ le 8 s.frm ++
    le 8 (s.host.beatFrame.getD (2 ^ 64 - 1)))

/-- A write of H_HEARTBEAT (R463): the watchdog, which counts from READY, starts again, and HOST_LOST clears. -/
def State.heartbeat (s : State) : State :=
  if s.host.ready then
    let w := s.pn ND_HOST_WD_TIMEOUT
    let lost := s.host.hostLost
    let s := s.modHost (fun h => { h with
      wdDue := if w = 0 then none else some (s.clk.up + w * 1000000), beatFrame := some s.frm, hostLost := false })
    if lost then s.watchdogEvent 1 else s
  else s

/-- HEARTBEAT: the value written means nothing. -/
def execHeartbeat (_v : BitVec 32) (s : State) : Host.Outcome State Fault Refusal := hostAct State.heartbeat s

/-- HOST_WATCHDOG_TIMEOUT (R463): HOST_LOST, its event, and the stop cause of the points that stop on it. -/
def execHostWatchdogTimeout (t : Nat) (s : State) : Host.Outcome State Fault Refusal :=
  let s := s.at t
  if ripeAt s.host.wdDue t then
    let s := (s.modHost (fun h => { h with wdDue := none, hostLost := true })).watchdogEvent 0
    .next (forAll points16 (fun p s => if s.pb PT_STOP_ON_HOST_LOSS p then s.addCause p 7 else s) s)
  else .next s

/-- The response of mailbox `m` has been sent over HETH, or is no longer wanted: a new peer is served (R466). (log 28) -/
def State.peerNow (s : State) (m : Nat) : State :=
  s.modHost (fun h => { h with peerHold := match h.peerHold with | some x => if x.1 = m then none else some x | none => none })

/-- RSP written 1: the mailbox is free (R451). -/
def State.releaseMbox (s : State) (m : Nat) : State :=
  (s.modMbox m (fun b => { b with rsp := false, via := if b.rsp then none else b.via })).peerNow m

/-- The mailbox is in use from the other interface for one request (Table 19.16). (log 8) -/
def State.otherVia (s : State) (m : Nat) (heth : Bool) : Bool := (s.mbox m).via == some (!heth)

/-- MAILBOX_RELEASE (R451). The other interface than the request's is the host's undefined case (Table 19.16, R465). (log 8) -/
def execMailboxRelease (m : Nat) (heth : Bool) (s : State) : Host.Outcome State Fault Refusal :=
  hostAct (fun s => if s.otherVia m heth then s.confined else s.releaseMbox m) s

/-- A word put into a request buffer; only words other than 0 are listed. -/
def putWord (l : List (Nat × Nat)) (off w : Nat) : List (Nat × Nat) :=
  let rest := l.filter (fun x => x.1 != off)
  if w = 0 then rest else rest.takeWhile (fun x => x.1 < off) ++ [(off, w)] ++ rest.dropWhile (fun x => x.1 < off)

/-- A write to H_STRs_STATUS: each flag written 1 clears (RW1C). -/
def State.writeStreamStatus (s : State) (k : Nat) (v : BitVec 32) : State :=
  s.modStream k (fun f => { f with
    underrun := f.underrun && !v.getLsbD 2, overrun := f.overrun && !v.getLsbD 3, poison := f.poison && !v.getLsbD 4
    tail := f.tail && !v.getLsbD 5 })

/-- A write to a register of the test window, by its offset. -/
def State.testWriteAt (s : State) (off : Nat) (v : BitVec 32) : State :=
  if off = 0 then s.testClear v
  else if off = 0x08 then s.testWrite 1 (writeTestFifo v)
  else if off = 0x0C then s.testWrite 2 (writeTestRing v)
  else if off = 0x10 then s.testWrite 3 (writeTestZc v)
  else if off = 0x14 then s.testWrite 4 (writeTestSafety v)
  else if off = 0x18 then s.testWrite 5 (writeTestPlc v)
  else if off = 0x1C then s.testWrite 6 (writeTestMram v)
  else if off = 0x20 then s.testWrite 7 (writeTestWd v)
  else if 0x40 ≤ off ∧ off < 0x60 ∧ off % 4 = 0 then s.testWrite 0 (writeTestStretch ((off - 0x40) / 4) v)
  else s

/-- A write to any register but a mailbox register and a request buffer, by its access code (R13); an address that Table 19.3 does
not list ignores it (R450). -/
def State.regWrite (s : State) (a : Nat) (v : BitVec 32) : State :=
  if a = 0x0018 then s.writeMask false v
  else if a = 0x001C then s.writeMask true v
  else if a = 0x0020 then s.clearEvents false v
  else if a = 0x0024 then s.clearEvents true v
  else if a = 0x0028 then s.modHost (fun h => { h with enable := v.getLsbD 0, force := v.getLsbD 1 })
  else if a = 0x002C then s.heartbeat
  else if a = 0x0038 then s.modHost (fun h => { h with scratch := v })
  else if a = 0x003C then s.modHost (fun h => { h with
    badInstr := h.badInstr && !v.getLsbD 0, short := h.short && !v.getLsbD 1, hethRefused := h.hethRefused && !v.getLsbD 2 })
  else if 0x0200 ≤ a ∧ a < 0x0240 then
    let k := (a - 0x0200) / 0x10
    if a % 0x10 = 8 then s.writeStreamStatus k v
    else if a % 0x10 = 12 then s.flushStream k v
    else s
  else if 0x0300 ≤ a ∧ a < 0x0400 then s.testWriteAt (a - 0x0300) v
  else s

/-! ### The interfaces -/

/-- QSPI_TRANSACTION_ERROR (R445): SHORT where HCSn rose before the address was complete, else BAD_INSTR. -/
def execQspiTransactionError (short : Bool) (s : State) : Host.Outcome State Fault Refusal :=
  hostAct (fun s => s.modHost (fun h => if short then { h with short := true } else { h with badInstr := true })) s

/-- REPLY_CACHE_EXPIRY (R449). -/
def execReplyCacheExpiry (t : Nat) (s : State) : Host.Outcome State Fault Refusal :=
  .next ((s.at t).modHost (fun h => { h with replies := h.replies.filter (fun r => t < r.due) }))

end Sys2Proof.Machine
end

