-- ==== Sys2Proof/Machine/PointRead.lean ====
section
/-!
DEFINITION. What the host reads of a point (20 Table 20.4): point-quantities (06 R156, 20 R480), point-registers (10 R250,
R251) and point-status.
-/

namespace Sys2Proof.Machine

/-! ### Electrical quantities (06 Table 6.3) -/

/-- One entry of point-quantities. (log 26) -/
def quantity (code index : Nat) (valid : Bool) (marks : Nat) (v : Int) : Bytes :=
  le 2 code ++ [byteOf index, byteOf (b2n valid + marks)] ++ leI 8 (if valid then v else 0)

/-- Voltage and current slots of the phases 1–3 that the wiring uses (06 Table 6.1). -/
def phaseSlots (w : Nat) : List (Nat × Nat × Nat) :=
  if w = 1 then [(1, 0, 4), (2, 1, 5), (3, 2, 6)] else if w = 2 then [(1, 0, 4), (3, 2, 6)] else [(1, 0, 4)]

/-- Clip and seam marks of slots in a frame, at bits 1 and 2. -/
def marksOf (frm : Nat) (slots : List Nat) : Nat :=
  2 * b2n (slots.any (fun k => frm.testBit k)) + 4 * b2n (slots.any (fun k => frm.testBit (8 + k)))

/-- The slots behind a phase, or behind the total. -/
def phaseBehind (w i : Nat) : List Nat :=
  ((phaseSlots w).filter (fun x => i == 0 || x.1 == i)).flatMap (fun x => [x.2.1, x.2.2])

/-- A quantity with a total and three phases: of the last frame, then of the last interval where the quantity has an interval value. -/
def phased (code w : Nat) (l : List (Nat × (Nat → Int))) : List Bytes :=
  (List.range 4).flatMap (fun i => l.map (fun f =>
    quantity code i (i == 0 || (phaseSlots w).any (fun x => x.1 == i)) (marksOf f.1 (phaseBehind w i)) (f.2 i)))

/-- A complex product with a conjugate. -/
def timesConj (a b : Int × Int) : Int × Int := (a.1 * b.1 + a.2 * b.2, a.2 * b.1 - a.1 * b.2)

/-- The fundamental quantities of a phase (row 8, then row 9 of Table 6.3). (log 26) -/
def fundEntries (e : Electrical) (w marks i : Nat) : List Bytes × List Bytes :=
  let r := match (phaseSlots w).find? (fun x => x.1 == i) with | some x => some x.2 | none => none
  let ok := r.isSome && w != 3 && !e.fund.isEmpty
  let k := r.getD (0, 4)
  let u := e.phasor k.1
  let c := e.phasor k.2
  let s := timesConj u c
  let ui := magnitude u * magnitude c
  let rms (x : Int × Int) : Int := fitU 32 (divHalfAway (magnitude x * 10000) (2 ^ 32))
  ([quantity 8 i ok marks (rms u), quantity 8 i ok marks (rms c), quantity 8 i ok marks (divHalfAway (s.1 * 1000) (2 ^ 64)),
    quantity 8 i ok marks (divHalfAway (s.2 * 1000) (2 ^ 64))],
   [quantity 9 i ok marks (hundredths (angleQ s.1 s.2)),
    quantity 9 i ok marks (if ui = 0 then 0 else clipI 16 (divHalfAway (s.1 * 2 ^ 15) ui))])

/-- Clip and seam marks of the last window of slots, at bits 1 and 2 (07 R175). -/
def Quality.winMarks (q : Quality) (slots : List Nat) : Nat :=
  slots.foldl (fun a k => a ||| (q.lastFlags.getD k 0 / 2 % 4 * 2)) 0

/-- The entries of an electrical point. A row of Table 6.3 that names several quantities gives one entry for each, in the order
named, and a quantity with a value of the frame or window and one of the interval an entry for each, the interval's second (log
entry 26). (log 26) -/
def State.elecEntries (s : State) (p : Nat) : List Bytes :=
  let x := s.pt p
  let e := x.el
  let w := s.pn PT_WIRING p
  let ac := w != 3
  let frm := e.frmFlags
  let wm (i : Nat) : Nat := x.pq.winMarks (phaseBehind w i)
  let rms (l : List Int) (k : Nat) : Int := fitU 32 (divHalfAway (l.getD k 0 * 10000) (2 ^ 47))
  let role (code : Nat) (used : List Nat) (l : List Nat) : List Bytes :=
    l.flatMap (fun k => [quantity code k (used.contains k) (marksOf frm [k]) (rms e.oneRms k),
      quantity code k (used.contains k) (marksOf e.flgRes [k]) (rms e.rmsIvl k)])
  let watts (l : List Int) (i : Nat) : Int := divHalfAway (l.getD i 0 * 1000) (2 ^ 32)
  let both (l : List Int) (k : Nat) := [(frm, watts l), (e.flgRes, watts (e.powIvl.getD k []))]
  let win := ac && !e.fund.isEmpty
  let many := win && (w == 1 || w == 2)
  let u := e.unbalances w
  let f := [1, 2, 3].map (fun i => fundEntries e w (wm i) i)
  let rd (i : Nat) : Int := divHalfAway (e.readings.getD i 0) (2 ^ 32)
  let used := s.vAndI p
  role 1 used [0, 1, 2, 3] ++ role 2 used [4, 5, 6] ++ phased 3 w (both e.pNow 0) ++
    (if ac then phased 4 w (both e.qNow 1) else (List.range 4).flatMap (fun i => List.replicate 2 (quantity 4 i false 0 0))) ++
    phased 5 w (both (e.sNow.map Int.ofNat) 2) ++ phased 6 w [(e.flgRes, fun i => e.pf.getD i 0)] ++
    [quantity 7 0 (ac && e.valid) 0 (fitU 32 (divHalfAway (10 ^ 15) e.tc)), quantity 7 0 (ac && e.freqIvl != 0) 0 e.freqIvl] ++
    f.flatMap (·.1) ++ f.flatMap (·.2) ++
    (List.range 4).flatMap (fun i =>
      let ok := many && (i % 2 == 0 || w == 1)
      [quantity 10 0 ok (wm 0) (u.getD i 0), quantity 10 0 ok (wm 0) (fitU 16 (e.unbRes.getD i 0))]) ++
    [1, 2, 3].flatMap (fun i =>
      let ok := (phaseSlots w).any (fun y => y.1 == i)
      [quantity 11 i ok (marksOf frm (phaseBehind w i)) (rd (i - 1)), quantity 11 i ok (marksOf frm (phaseBehind w i)) (rd (i + 2))]) ++
    [quantity 12 0 true (marksOf frm (phaseBehind w 0)) (rd 6), quantity 13 0 ac (wm 0) (rd 7), quantity 13 0 ac (wm 0) (rd 8)]

/-! ### Fluid quantities (20 R480) -/

/-- A value in units of 2^-60 as s32.32. -/
def s3232 (v : Int) : Int := clipI 64 (divHalfAway v (2 ^ 28))

/-- The entries of a fluid point: the state class and the check counter are plain numbers (log entry 26). -/
def State.fluidEntries (s : State) (p : Nat) : List Bytes :=
  let x := s.pt p
  let f := x.fl
  let ty := s.ptType p
  let frm := x.el.frmFlags
  let two := ty == 4 || ty == 7
  let st (i : Nat) : FluidState := f.st.getD i FluidState.reset
  let both (code : Nat) (v : FluidState → Int) : List Bytes := [0, 1].map (fun i => quantity code i (i == 0 || two) 0 (v (st i)))
  let orifice := s.pn PT_FL_FLOW_SRC p == 0
  (List.range 8).map (fun k =>
    let r := f.roles.getD k RoleState.reset
    quantity 32 k ((s.fluidSlots p).contains k && (!s.roleUsed p k || (r.known && r.faults == 0))) (marksOf frm [k])
      (divHalfAway (s.roleNow s p k) (2 ^ 32))) ++
  [quantity 33 0 true 0 (f.flow.getD 0 0), quantity 33 1 true 0 (f.flow.getD 1 0)] ++
  both 34 (fun y => s3232 y.rho) ++ both 35 (fun y => s3232 y.h) ++ both 36 (fun y => (y.cls : Int)) ++
  [quantity 37 0 orifice 0 (s3232 f.cC), quantity 38 0 orifice 0 (s3232 f.eps), quantity 39 0 orifice 0 (s3232 f.reD),
   quantity 40 0 (s.pn PT_PLS_MODE p != 0) 0 (s3232 f.freq), quantity 41 0 (s.pn PT_PLS_MODE p == 1) 0 (x.pulse.check : Int)]

/-! ### The commands -/

/-- point-quantities (R480). A point of type NONE has none. (log 26) -/
def servePointQuantities : Bytes → State → Ans := onPoint (fun p s =>
  let l := if isElec (s.ptType p) then s.elecEntries p else if isFluid (s.ptType p) then s.fluidEntries p else []
  okParts s (packParts l [] []))

/-- point-registers (10 R247, R250, R251): three fixed parts. -/
def servePointRegisters : Bytes → State → Ans := onPoint (fun p s =>
  let x := s.pt p
  okParts s [(List.range 30).flatMap (fun i => le 8 (x.int i)), (List.range 8).flatMap (fun i => le 8 (x.int (30 + i))),
    (List.range 32).flatMap (fun i => le 4 (displayed (s.pn PT_REG_DECADE p) (x.int i)) ++ le 2 (x.wraps.getD i 0))])

/-- point-status. -/
def servePointStatus : Bytes → State → Ans := onPoint (fun p s =>
  let x := s.pt p
  okB s ([byteOf (s.ptType p), byteOf (b2n x.outService), byteOf (sesCode x.ses.state), byteOf s.regime] ++ le 4 x.seqNext ++
    le 4 (ackedField x.acked) ++ le 2 x.mpo.backlog ++ le 2 0 ++ le 4 x.mpo.dropped ++ le 4 x.pq.discarded ++ le 4 x.pulse.check ++
    le 4 x.fl.nonConv ++ le 4 x.fl.outLim ++ le 4 x.pulse.seqErr ++ le 4 x.fl.negHeat ++ le 4 x.satFrames))

/-- POINT_QUANTITIES. -/
def execPointQuantities (h : Hdr) (p : Bytes) (s : State) : Host.Outcome State Fault Refusal :=
  hostCmd 0x030A h p servePointQuantities s
/-- POINT_REGISTERS. -/
def execPointRegisters (h : Hdr) (p : Bytes) (s : State) : Host.Outcome State Fault Refusal :=
  hostCmd 0x030D h p servePointRegisters s
/-- POINT_STATUS. -/
def execPointStatus (h : Hdr) (p : Bytes) (s : State) : Host.Outcome State Fault Refusal := hostCmd 0x030E h p servePointStatus s

end Sys2Proof.Machine
end

