-- ==== Sys2Proof/Machine/HostDispatch.lean ====
section
/-!
DEFINITION. Requests by their command code (20 Table 20.4): the doorbell (19 R451), request and answer parts (20 R469, R470),
register writes, HETH datagrams (19 R447–R449), the service pair's boot (21 R494), the Capo's restart (22 R510), and the frame tick
with the steps of a service handover (21 R489).
-/

namespace Sys2Proof.Machine

/-! ### A command by its code -/

/-- The node: family 0x01 of Table 20.4, by the low byte of the code. -/
def serveNodeFamily (h : Hdr) (c : Nat) (p : Bytes) (s : State) : Ans :=
  match c with
  | 1 => serveIdentity p s
  | 2 => serveNodeStatus p s
  | 3 => serveEventDetail p s
  | 4 => serveFactoryReset h p s
  | _ => refuse s 1

/-- Parameters: family 0x02 of Table 20.4, by the low byte of the code. -/
def serveParamFamily (h : Hdr) (c : Nat) (p : Bytes) (s : State) : Ans :=
  match c with
  | 1 => serveParameterRead p s
  | 2 => serveParameterWrite h p s
  | 3 => serveParameterDescribe p s
  | 4 => serveParameterList p s
  | _ => refuse s 1

/-- Points, sessions, outlets, switches and safety: family 0x03 of Table 20.4, by the low byte of the code. -/
def servePointFamily (h : Hdr) (c : Nat) (p : Bytes) (s : State) : Ans :=
  match c with
  | 1 => serveSessionRequest p s
  | 2 => serveSessionReject p s
  | 3 => serveSessionCancel p s
  | 4 => serveSessionStop p s
  | 5 => serveSessionRevoke p s
  | 6 => serveFaultAcknowledge p s
  | 7 => serveSessionAuthorise p s
  | 8 => serveSessionModify p s
  | 9 => serveSessionStatus p s
  | 10 => servePointQuantities p s
  | 11 => servePointHarmonics p s
  | 12 => servePointSupraharmonics p s
  | 13 => servePointRegisters p s
  | 14 => servePointStatus p s
  | 15 => serveChannelStatus p s
  | 16 => serveCourseRestore p s
  | 17 => serveCapture p s
  | 18 => serveOutletLimit p s
  | 19 => serveOutletDcStatus p s
  | 20 => serveRootStore h p s
  | 21 => serveSwitchCommand p s
  | 22 => serveSwitchStatus p s
  | 23 => serveSwitchReset p s
  | 24 => serveSafetyAcknowledge p s
  | 25 => serveSafetyStatus p s
  | _ => refuse s 1

/-- Records and log: family 0x04 of Table 20.4, by the low byte of the code. -/
def serveRecordsFamily (c : Nat) (p : Bytes) (s : State) : Ans :=
  match c with
  | 1 => serveJournalRead p s
  | 2 => serveRecordAcknowledge p s
  | 3 => serveLogRead p s
  | 4 => serveLogAcknowledge p s
  | 5 => serveJournalStatus p s
  | _ => refuse s 1

/-- Keys: family 0x05 of Table 20.4, by the low byte of the code. -/
def serveKeysFamily (h : Hdr) (c : Nat) (p : Bytes) (s : State) : Ans :=
  match c with
  | 1 => serveKeyStatus p s
  | 2 => serveKeyInvalidate h p s
  | 3 => serveKeyNextGeneration h p s
  | 4 => serveKeyRegenerate p s
  | 5 => serveKeyAttest p s
  | 6 => serveKeyStatementRead p s
  | 7 => serveKeyNodeCertificate p s
  | 8 => serveKeyTlsCertificateLoad p s
  | 9 => serveKeyErase h p s
  | 10 => serveKeyPublicRead p s
  | _ => refuse s 1

/-- Firmware: family 0x06 of Table 20.4, by the low byte of the code. -/
def serveFirmwareFamily (h : Hdr) (c : Nat) (p : Bytes) (s : State) : Ans :=
  match c with
  | 1 => serveFwBegin h p s
  | 2 => serveFwData p s
  | 3 => serveFwVerify p s
  | 4 => serveFwHandover h p s
  | 5 => serveFwConfirm p s
  | 6 => serveFwStatus p s
  | _ => refuse s 1

/-- Time and ring: family 0x07 of Table 20.4, by the low byte of the code. -/
def serveTimeFamily (h : Hdr) (c : Nat) (p : Bytes) (s : State) : Ans :=
  match c with
  | 1 => serveTimeStatus p s
  | 2 => serveTimeAccept h p s
  | 3 => serveTtoSet p s
  | 4 => serveTciSet p s
  | 5 => serveTciRead p s
  | 6 => serveBalanceResults p s
  | 7 => serveRingMap p s
  | _ => refuse s 1

/-- Display: family 0x08 of Table 20.4, by the low byte of the code. -/
def serveDisplayFamily (h : Hdr) (c : Nat) (p : Bytes) (s : State) : Ans :=
  match c with
  | 1 => serveDisplayPin p s
  | 2 => serveDisplayStatic p s
  | 3 => serveDisplayWaveform h p s
  | 4 => serveDisplayTemperature p s
  | 5 => serveDisplayUpdate p s
  | _ => refuse s 1

/-- SAR: family 0x09 of Table 20.4, by the low byte of the code. -/
def serveSarFamily (c : Nat) (p : Bytes) (s : State) : Ans :=
  match c with
  | 1 => serveSarResults p s
  | 2 => serveSarTrigger p s
  | 3 => serveSarSelftest p s
  | _ => refuse s 1

/-- Test: family 0x0A of Table 20.4, by the low byte of the code. -/
def serveTestFamily (h : Hdr) (c : Nat) (p : Bytes) (s : State) : Ans :=
  match c with
  | 1 => serveTestUnlock h p s
  | 2 => serveTestRelock h p s
  | _ => refuse s 1
/-- A request served by its code; a code that Table 20.4 does not list is unknown. -/
def serveOf (h : Hdr) (code : Nat) (p : Bytes) (s : State) : Ans :=
  match code / 256 with
  | 1 => serveNodeFamily h (code % 256) p s
  | 2 => serveParamFamily h (code % 256) p s
  | 3 => servePointFamily h (code % 256) p s
  | 4 => serveRecordsFamily (code % 256) p s
  | 5 => serveKeysFamily h (code % 256) p s
  | 6 => serveFirmwareFamily h (code % 256) p s
  | 7 => serveTimeFamily h (code % 256) p s
  | 8 => serveDisplayFamily h (code % 256) p s
  | 9 => serveSarFamily (code % 256) p s
  | 10 => serveTestFamily h (code % 256) p s
  | _ => refuse s 1

/-- A request of any code, rung. -/
def hostRequest (h : Hdr) (code : Nat) (p : Bytes) (s : State) : Host.Outcome State Fault Refusal :=
  hostCmd code h p (fun p s => serveOf h code p s) s

/-- REQUEST_PART (20 R469): a request part with MORE set. -/
def execRequestPart (h : Hdr) (code : Nat) (p : Bytes) (s : State) : Host.Outcome State Fault Refusal :=
  hostRequest { h with flags := hdrPart h + 256 * (1 + h.flags / 512 * 2) } code p s

/-- RESPONSE_PART_READ (20 R470): a request with MORE clear, which with PART above 0 and no request part held asks for one part of the
held answer. -/
def execResponsePartRead (h : Hdr) (code : Nat) (p : Bytes) (s : State) : Host.Outcome State Fault Refusal :=
  hostRequest { h with flags := hdrPart h + 512 * (h.flags / 512) } code p s

/-- Requests rung while mailboxes were not served, taken in the order of their doorbells (19 R452, R453). One that stops the
service keeps the rest waiting. (log 7) -/
def takeAll : List HeldReq → State → State
  | [], s => s
  | r :: rs, s =>
    if s.serving then takeAll rs (s.take r.code r.hdr r.payload (fun p s => serveOf r.hdr r.code p s))
    else s.modHost (fun x => { x with held := r :: rs })

/-- The held requests, once mailboxes are served again. (log 7) -/
def State.runHeld (s : State) : State := takeAll s.host.held (s.modHost (fun x => { x with held := [] }))

/-! ### The doorbell and register writes (R13, R451) -/

/-- The bytes of a request buffer. -/
def Mailbox.reqBytes (b : Mailbox) : Bytes :=
  (List.range 64).flatMap (fun i => match b.reqBuf.find? (fun x => x.1 == 4 * i) with
    | some x => le 4 x.2
    | none => zeros 4)

/-- The doorbell of mailbox `m` rung over HETH or QSPI: the request is the one in its buffer. The cases of Tables 19.16 and 20.8
have the outcome that R465 confines. (log 8) -/
def State.ringBell (s : State) (m : Nat) (heth : Bool) : State :=
  let b := (s.mbox m).reqBytes
  let code := fld b 0 2
  let h : Hdr := ⟨m, fld b 2 2, fld b 6 2, heth⟩
  let p := padTo (fld b 4 2) ((b.drop 8).take (fld b 4 2))
  if hdrLegal h && s.mboxFree m && reservedZero code p && !s.otherVia m heth then
    let s := s.modMbox m (fun b => { b with via := some heth })
    if s.serving then s.take code h p (fun p s => serveOf h code p s) else s.holdReq code h p
  else s.undefinedRequest (fun s => s.take code h p (fun p s => serveOf h code p s))

/-- A write of H_MBXm: RSP written 1 releases, REQ written 1 rings, REQ written 0 does nothing (Table 19.3). REQ written 1
while REQ or RSP is 1 is the host's undefined case. -/
def State.writeMbx (s : State) (m : Nat) (v : BitVec 32) (heth : Bool) : State :=
  if v.getLsbD 1 = true ∧ s.otherVia m heth = true then s.confined
  else if v.getLsbD 0 = true then s.ringBell m heth
  else if v.getLsbD 1 then s.releaseMbox m
  else s

/-- A write of one word into a request buffer; while REQ is 1, or from the other interface, it is the host's undefined case. -/
def State.writeReqWord (s : State) (m off : Nat) (v : BitVec 32) (heth : Bool) : State :=
  if (s.mbox m).req = true ∨ s.otherVia m heth = true then s.confined
  else s.modMbox m (fun b => { b with reqBuf := putWord b.reqBuf off v.toNat, via := some heth })

/-- One register written over an interface. -/
def State.writeWord (s : State) (a : Nat) (v : BitVec 32) (heth : Bool) : State :=
  if 0x0100 ≤ a ∧ a < 0x0120 then s.writeMbx ((a - 0x0100) / 4) v heth
  else if 0x1000 ≤ a ∧ a < 0x2000 ∧ a % 0x200 < 0x100 then s.writeReqWord ((a - 0x1000) / 0x200) (a % 0x200) v heth
  else s.regWrite a v

/-- The address of a stream port. -/
def isPort (a : Nat) : Bool := decide (0x0200 ≤ a ∧ a < 0x0240 ∧ a % 0x10 = 0)

/-- REGISTER_WRITE (R13, R446): over QSPI a misaligned address and a stream port have the outcome that R465 confines; over HETH
they are refused (R448). (log 8) -/
def execRegisterWrite (a : Nat) (v : BitVec 32) (heth : Bool) (s : State) : Host.Outcome State Fault Refusal :=
  if s.pwr.coreOn = false then .next s
  else if a % 4 ≠ 0 ∨ isPort a = true then
    .next (if heth then s.modHost (fun h => { h with hethRefused := true }) else s.confined)
  else .next (s.writeWord a v heth)

/-! ### HETH datagrams (R447–R449) -/

/-- The range of Table 19.3 that an address belongs to; addresses between listed ranges form ranges of their own (log entry 40). -/
def rangeOf (a : Nat) : Nat :=
  if a < 0x0040 then 0
  else if a < 0x0100 then 1
  else if a < 0x0124 then 2
  else if a < 0x0200 then 3
  else if a < 0x0240 then (if a % 0x10 < 4 then 4 else 5) + 2 * ((a - 0x0200) / 0x10)
  else if a < 0x0300 then 12
  else if a < 0x0400 then 13
  else if a < 0x1000 then 14
  else if a < 0x2000 then 16 + (a - 0x1000) / 0x100
  else 15

/-- The status with which a datagram is refused, or 0 (Table 19.2, R448). A write to a stream port is refused with a free value among
the codes. (log 40) -/
def State.hethStatus (s : State) (g : Datagram) : Nat :=
  if g.op ≠ 1 ∧ g.op ≠ 2 then 4
  else if g.len = 0 ∨ 1020 < g.len ∨ (g.op = 2 ∧ g.data.length ≠ g.len) ∨ g.addr % 4 ≠ 0 then 1
  else if isPort g.addr = true then (if g.op = 2 then 1 + s.free % 4 else if g.len % 5 ≠ 0 then 3 else 0)
  else if g.len % 4 ≠ 0 then 1
  else if rangeOf g.addr ≠ rangeOf (g.addr + g.len - 1) then 2
  else 0

/-- Successive reads of stream `k`; `bads` names those whose word fails its parity. -/
def State.portReads (s : State) (k : Nat) (bads : List Nat) : Nat → Nat → Bytes → Bytes × State
  | 0, _, acc => (acc, s)
  | n + 1, i, acc =>
    let r := s.portRead k (bads.contains i)
    r.2.portReads k bads n (i + 1) (acc ++ r.1)

/-- Successive register reads. -/
def State.regReads (s : State) (a : Nat) : Nat → Bytes → Bytes × State
  | 0, acc => (acc, s)
  | n + 1, acc =>
    let r := s.regRead a
    r.2.regReads (a + 4) n (acc ++ le 4 r.1)

/-- Successive register writes over HETH. -/
def State.regWrites (s : State) (a : Nat) (data : Bytes) : Nat → State
  | 0 => s
  | n + 1 => (s.writeWord a (BitVec.ofNat 32 (fld data 0 4)) true).regWrites (a + 4) (data.drop 4) n

/-- A response buffer whose request came over QSPI (Table 19.16). -/
def State.foreignResponse (s : State) (a : Nat) : Bool :=
  decide (0x1000 ≤ a ∧ a < 0x2000 ∧ 0x100 ≤ a % 0x200) && s.otherVia ((a - 0x1000) / 0x200) true

/-- A datagram executed: the data read, and the state after it. A response of the other interface reads as free bytes (R465).
(logs 8, 40) -/
def State.hethRun (s : State) (g : Datagram) : Bytes × State :=
  if g.op = 1 then
    if isPort g.addr then s.portReads ((g.addr - 0x0200) / 0x10) g.bads (g.len / 5) 0 []
    else if s.foreignResponse g.addr then (freeBytes s.clk.freeCtr 65536 g.len, s.confined)
    else
      let r := s.regReads g.addr (g.len / 4) []
      (r.1, if 0x1000 ≤ g.addr ∧ g.addr < 0x2000 ∧ 0x100 ≤ g.addr % 0x200 then r.2.peerNow ((g.addr - 0x1000) / 0x200) else r.2)
  else ([], s.regWrites g.addr g.data (g.len / 4))

/-- The reply to a datagram, kept for 2 s as the last one to its source (R447, R449). (log 40) -/
def State.hethReply (s : State) (g : Datagram) (status : Nat) (data : Bytes) : State :=
  let b := [byteOf (g.op % 128 + 128), byteOf status] ++ le 2 g.seq ++ le 2 g.addr ++ le 2 g.len ++ data
  s.modHost (fun h => { h with
    replies := h.replies.filter (fun r => !(r.src == g.src && r.port == g.port)) ++ [⟨g.src, g.port, g.seq, b, s.clk.up + 2000000000⟩] })

/-- HETH_DATAGRAM (R447–R449): one sent to the node's address and port is dropped, answered from the copy, refused, or executed. (log 40) -/
def execHethDatagram (t : Nat) (g : Datagram) (s : State) : Host.Outcome State Fault Refusal :=
  let s := s.at t
  let peer := s.peer
  if s.pwr.coreOn = false ∨ (g.dst, g.dport) ≠ s.listens then .next s
  else if peer ≠ 0 ∧ g.src ≠ peer then
    .next (s.modHost (fun h => { h with hethDropped := inc32 h.hethDropped, hethRefused := true }))
  else if s.host.replies.any (fun r => r.src == g.src && r.port == g.port && r.seq == g.seq && decide (s.clk.up < r.due)) then .next s
  else
    let st := s.hethStatus g
    if st ≠ 0 then .next ((s.bump.modHost (fun h => { h with hethRefused := true })).hethReply g st [])
    else
      let r := s.hethRun g
      .next ((if g.op = 1 then r.2.modHost (fun h => { h with lastRead := r.1 }) else r.2).hethReply g 0 r.1)

/-! ### The service pair boots (21 R494) -/

/-- Whether a service slot holds an image that verifies. (log 34) -/
def State.svcOk (s : State) (i : Nat) (okA okB : Bool) : Bool := (s.svcSlot i).info.isSome && (if i = 0 then okA else okB)

/-- The slot that boots: the newest confirmed one that verifies, else the other one that verifies, which the second part says.
(logs 34, 41) -/
def State.bootSlot (s : State) (okA okB : Bool) : Option (Nat × Bool) :=
  let good := fun i => s.svcOk i okA okB
  let conf := fun i => good i && (s.svcSlot i).confirmed
  if conf 0 && (!conf 1 || decide ((s.svcSlot 1).order ≤ (s.svcSlot 0).order)) then some (0, false)
  else if conf 1 then some (1, false)
  else if good 0 then some (0, true)
  else if good 1 then some (1, true)
  else none

/-- A verified image of a slot, as a staging that fw-handover may take again (R494). (log 34) -/
def stagedAgain (x : ImageInfo) : Staging :=
  { Staging.reset with
    kind := 0, length := x.image.length, sha := x.fileHash, pieces := [(0, x.image)], state := 2, built := x.image, info := some x }

/-- A start during a trial (R494, R495): the confirmed image boots, the parameter store is the copy that it understands, and the image
on trial is left staged. (log 34) -/
def State.restartFallback (s : State) (i : Nat) : State :=
  let old := s.runningVersion 0
  let again := match s.runningImage 0 with | some x => some (stagedAgain x) | none => none
  let s := s.modFw (fun f => { f with
    active := i, trial := false, stage := again
    format := match (f.svc.getD i Slot.reset).info with | some x => x.format | none => f.format })
  let s := s.modPar (fun x => { x with stored := x.oldCopy, oldCopy := [] })
  s.fwEvent 53 0 0 3 i old (s.runningVersion 0) s.frm 0 0 0

/-- The slot in force boots, with the events of R494. (log 34) -/
def State.bootInto (s : State) (i : Nat) (other : Bool) : State :=
  if other then
    let old := s.runningVersion 0
    let s := (s.modFw (fun f => { f with
      active := i, trial := false
      stage := match f.stage with
        | some g => if g.kind < 2 && i != f.active then none else some g
        | none => none })).modPar (fun x => { x with oldCopy := [] })
    s.fwEvent 53 0 0 4 i old (s.runningVersion 0) s.frm 0 0 0
  else if s.fw.trial ∧ i ≠ s.fw.active then s.restartFallback i
  else s.modFw (fun f => { f with active := i })

/-- The service pair takes the management messages that waited for it (13 R329). (log 22) -/
def State.takeQueued (s : State) : State := s.modPlc (fun x => { x with ports := x.ports.map (fun y => { y with rxQueue := [] }) })

/-- READY is set (R507, R508, R463): events raised before it become pending, and the host watchdog counts. (logs 7, 34) -/
def State.setReady (s : State) : State :=
  let w := s.pn ND_HOST_WD_TIMEOUT
  s.modHost (fun h => { h with
    ready := true, service := s.runningVersion 0
    pend := h.pend ||| BitVec.ofNat 64 (bitmapOf (h.events.map (fun q => !q.details.isEmpty)))
    wdDue := if w = 0 then none else some (s.clk.up + w * 1000000) })

/-- SERVICE_IMAGE_BOOTED (R494, R499, R507): `okA` and `okB` say which service slot verifies. It follows the start of metering, or
the Capo's entry into its recovery loader. With neither slot verifying, mailboxes are not served. (log 34) -/
def execServiceImageBooted (t : Nat) (okA okB : Bool) (s : State) : Host.Outcome State Fault Refusal :=
  let s := s.at t
  if s.fw.svcRunning = false ∧ s.pwr.coreOn = true ∧ (s.pwr.stage = 5 ∨ s.fw.recovery = true) then
    let s := (s.readSlot 2 0x100000 0x200000 okA).readSlot 3 0x300000 0x200000 okB
    match s.bootSlot okA okB with
    | some (i, other) =>
      let s := (s.bootInto i other).modFw (fun f => { f with svcRunning := true })
      let s := if s.pwr.stage = 5 then s.modPwr (fun x => { x with stage := 6 }) else s
      .next s.setReady.takeQueued.runHeld
    | none => .next s
  else .next s

/-! ### The Capo's restart and the frame tick -/

/-- CAPO_RESTART (22 R510): the operands are those of HOLDUP_MERGE and of the watchdog's start. Requests that waited for the Capo
are then taken (log entry 7). -/
def execCapoRestart (t : Nat) (badE badB badL words : List Nat) (key seed : BitVec 32) (s : State) :
    Host.Outcome State Fault Refusal :=
  let s := s.at t
  if s.pwr.coreOn = true ∧ s.pwr.capoReset = true then .next (s.restartCapo badE badB badL words key seed).runHeld
  else .next s

/-- The steps of a handover of the service image at the start of a frame (21 R489, R492): PAUSE at F; at F + 2 frames the other core is
active, and the requests held are taken. (log 7) -/
def State.handoverStep (s : State) : State :=
  match s.fw.hand with
  | some (f, back) =>
    if s.frm < f then s
    else if s.frm < f + 2 then s.modHost (fun h => { h with pause := true })
    else
      let layout := match s.runningImage 0 with | some x => x.exported | none => 0
      let s := if back then s.fallBack 0 500 layout else s.takeOver
      (s.modHost (fun h => { h with pause := false })).takeQueued.runHeld
  | none => s

/-- FRAME_TICK (02 R39, 03 R66), once node time has crossed the next multiple of 250,000 ns. (log 1) -/
def execFrameTick (t : Nat) (obs : FrameObs) (s : State) : Host.Outcome State Fault Refusal :=
  let s := s.at t
  let at' := s.tickAt
  if s.pwr.coreOn = false ∨ t < at' then .next s else .next (s.frameTick obs at').handoverStep

end Sys2Proof.Machine
end

