-- ==== Sys2Proof/Machine/Dispatch.lean ====
section
/-!
DEFINITION. One arm per command: the meaning of each, called by its full name.
-/

namespace Sys2Proof.Machine

def exec (i : Instr) (s : State) : Host.Outcome State Fault Refusal :=
  match i with
  | .identity h p => Sys2Proof.Machine.execIdentity h p s
  | .nodeStatus h p => Sys2Proof.Machine.execNodeStatus h p s
  | .eventDetail h p => Sys2Proof.Machine.execEventDetail h p s
  | .factoryReset h p => Sys2Proof.Machine.execFactoryReset h p s
  | .parameterRead h p => Sys2Proof.Machine.execParameterRead h p s
  | .parameterWrite h p => Sys2Proof.Machine.execParameterWrite h p s
  | .batchCommit h p => Sys2Proof.Machine.execBatchCommit h p s
  | .batchAbort h p => Sys2Proof.Machine.execBatchAbort h p s
  | .batchCheck h p => Sys2Proof.Machine.execBatchCheck h p s
  | .parameterDescribe h p => Sys2Proof.Machine.execParameterDescribe h p s
  | .parameterList h p => Sys2Proof.Machine.execParameterList h p s
  | .sessionRequest h p => Sys2Proof.Machine.execSessionRequest h p s
  | .sessionReject h p => Sys2Proof.Machine.execSessionReject h p s
  | .sessionCancel h p => Sys2Proof.Machine.execSessionCancel h p s
  | .sessionStop h p => Sys2Proof.Machine.execSessionStop h p s
  | .sessionRevoke h p => Sys2Proof.Machine.execSessionRevoke h p s
  | .faultAcknowledge h p => Sys2Proof.Machine.execFaultAcknowledge h p s
  | .sessionAuthorise h p => Sys2Proof.Machine.execSessionAuthorise h p s
  | .sessionModify h p => Sys2Proof.Machine.execSessionModify h p s
  | .sessionStatus h p => Sys2Proof.Machine.execSessionStatus h p s
  | .pointQuantities h p => Sys2Proof.Machine.execPointQuantities h p s
  | .pointHarmonics h p => Sys2Proof.Machine.execPointHarmonics h p s
  | .pointSupraharmonics h p => Sys2Proof.Machine.execPointSupraharmonics h p s
  | .pointRegisters h p => Sys2Proof.Machine.execPointRegisters h p s
  | .pointStatus h p => Sys2Proof.Machine.execPointStatus h p s
  | .channelStatus h p => Sys2Proof.Machine.execChannelStatus h p s
  | .courseRestore h p => Sys2Proof.Machine.execCourseRestore h p s
  | .capture h p => Sys2Proof.Machine.execCapture h p s
  | .outletLimit h p => Sys2Proof.Machine.execOutletLimit h p s
  | .outletDcStatus h p => Sys2Proof.Machine.execOutletDcStatus h p s
  | .outletRootStore h p => Sys2Proof.Machine.execOutletRootStore h p s
  | .switchCommand h p => Sys2Proof.Machine.execSwitchCommand h p s
  | .switchStatus h p => Sys2Proof.Machine.execSwitchStatus h p s
  | .switchReset h p => Sys2Proof.Machine.execSwitchReset h p s
  | .safetyAcknowledge h p => Sys2Proof.Machine.execSafetyAcknowledge h p s
  | .safetyStatus h p => Sys2Proof.Machine.execSafetyStatus h p s
  | .journalRead h p => Sys2Proof.Machine.execJournalRead h p s
  | .recordAcknowledge h p => Sys2Proof.Machine.execRecordAcknowledge h p s
  | .logRead h p => Sys2Proof.Machine.execLogRead h p s
  | .logAcknowledge h p => Sys2Proof.Machine.execLogAcknowledge h p s
  | .journalStatus h p => Sys2Proof.Machine.execJournalStatus h p s
  | .keyStatus h p => Sys2Proof.Machine.execKeyStatus h p s
  | .keyInvalidate h p => Sys2Proof.Machine.execKeyInvalidate h p s
  | .keyNextGeneration h p => Sys2Proof.Machine.execKeyNextGeneration h p s
  | .keyRegenerate h p => Sys2Proof.Machine.execKeyRegenerate h p s
  | .keyAttest h p => Sys2Proof.Machine.execKeyAttest h p s
  | .keyStatementRead h p => Sys2Proof.Machine.execKeyStatementRead h p s
  | .keyNodeCertificate h p => Sys2Proof.Machine.execKeyNodeCertificate h p s
  | .keyTlsCertificateLoad h p => Sys2Proof.Machine.execKeyTlsCertificateLoad h p s
  | .keyErase h p => Sys2Proof.Machine.execKeyErase h p s
  | .keyPublicRead h p => Sys2Proof.Machine.execKeyPublicRead h p s
  | .fwBegin h p => Sys2Proof.Machine.execFwBegin h p s
  | .fwData h p => Sys2Proof.Machine.execFwData h p s
  | .fwVerify h p => Sys2Proof.Machine.execFwVerify h p s
  | .fwHandover h p => Sys2Proof.Machine.execFwHandover h p s
  | .fwConfirm h p => Sys2Proof.Machine.execFwConfirm h p s
  | .fwStatus h p => Sys2Proof.Machine.execFwStatus h p s
  | .timeStatus h p => Sys2Proof.Machine.execTimeStatus h p s
  | .timeAccept h p => Sys2Proof.Machine.execTimeAccept h p s
  | .ttoSet h p => Sys2Proof.Machine.execTtoSet h p s
  | .tciSet h p => Sys2Proof.Machine.execTciSet h p s
  | .tciRead h p => Sys2Proof.Machine.execTciRead h p s
  | .balanceResults h p => Sys2Proof.Machine.execBalanceResults h p s
  | .ringMap h p => Sys2Proof.Machine.execRingMap h p s
  | .displayPin h p => Sys2Proof.Machine.execDisplayPin h p s
  | .displayStatic h p => Sys2Proof.Machine.execDisplayStatic h p s
  | .displayWaveform h p => Sys2Proof.Machine.execDisplayWaveform h p s
  | .displayTemperature h p => Sys2Proof.Machine.execDisplayTemperature h p s
  | .displayUpdate h p => Sys2Proof.Machine.execDisplayUpdate h p s
  | .sarResults h p => Sys2Proof.Machine.execSarResults h p s
  | .sarTrigger h p => Sys2Proof.Machine.execSarTrigger h p s
  | .sarSelftest h p => Sys2Proof.Machine.execSarSelftest h p s
  | .testUnlock h p => Sys2Proof.Machine.execTestUnlock h p s
  | .testRelock h p => Sys2Proof.Machine.execTestRelock h p s
  | .requestPart h code p => Sys2Proof.Machine.execRequestPart h code p s
  | .responsePartRead h code p => Sys2Proof.Machine.execResponsePartRead h code p s
  | .mailboxRelease m heth => Sys2Proof.Machine.execMailboxRelease m heth s
  | .eventClear hi v => Sys2Proof.Machine.execEventClear hi v s
  | .heartbeat v => Sys2Proof.Machine.execHeartbeat v s
  | .frameLoRead => Sys2Proof.Machine.execFrameLoRead s
  | .streamPortRead k bad => Sys2Proof.Machine.execStreamPortRead k bad s
  | .streamFlush k v => Sys2Proof.Machine.execStreamFlush k v s
  | .testClear v => Sys2Proof.Machine.execTestClear v s
  | .testStretchWrite k v => Sys2Proof.Machine.execTestStretchWrite k v s
  | .testFifoWrite v => Sys2Proof.Machine.execTestFifoWrite v s
  | .testRingWrite v => Sys2Proof.Machine.execTestRingWrite v s
  | .testZcWrite v => Sys2Proof.Machine.execTestZcWrite v s
  | .testSafetyWrite v => Sys2Proof.Machine.execTestSafetyWrite v s
  | .testPlcWrite v => Sys2Proof.Machine.execTestPlcWrite v s
  | .testMramWrite v => Sys2Proof.Machine.execTestMramWrite v s
  | .testWdWrite v => Sys2Proof.Machine.execTestWdWrite v s
  | .registerWrite a v heth => Sys2Proof.Machine.execRegisterWrite a v heth s
  | .qspiTransactionError short => Sys2Proof.Machine.execQspiTransactionError short s
  | .hethDatagram t g => Sys2Proof.Machine.execHethDatagram t g s
  | .replyCacheExpiry t => Sys2Proof.Machine.execReplyCacheExpiry t s
  | .batchTimeout t => Sys2Proof.Machine.execBatchTimeout t s
  | .hostWatchdogTimeout t => Sys2Proof.Machine.execHostWatchdogTimeout t s
  | .streamTailTimeout t k => Sys2Proof.Machine.execStreamTailTimeout t k s
  | .recordStreamDequeue t => Sys2Proof.Machine.execRecordStreamDequeue t s
  | .frameTick t obs => Sys2Proof.Machine.execFrameTick t obs s
  | .fretCutoff t => Sys2Proof.Machine.execFretCutoff t s
  | .handoverBlockReady t => Sys2Proof.Machine.execHandoverBlockReady t s
  | .frameAccumulate t => Sys2Proof.Machine.execFrameAccumulate t s
  | .intervalBoundary t => Sys2Proof.Machine.execIntervalBoundary t s
  | .recordSigned t => Sys2Proof.Machine.execRecordSigned t s
  | .modeChangeoverComplete t => Sys2Proof.Machine.execModeChangeoverComplete t s
  | .autoGainSwitchUp t c => Sys2Proof.Machine.execAutoGainSwitchUp t c s
  | .autoGainSwitchDown t c bits => Sys2Proof.Machine.execAutoGainSwitchDown t c bits s
  | .modulatorRestart t c => Sys2Proof.Machine.execModulatorRestart t c s
  | .residualTrip t c comp input => Sys2Proof.Machine.execResidualTrip t c comp input s
  | .residualSelfTestResult t p => Sys2Proof.Machine.execResidualSelfTestResult t p s
  | .courseDiagnosisStart t => Sys2Proof.Machine.execCourseDiagnosisStart t s
  | .courseVerdict t => Sys2Proof.Machine.execCourseVerdict t s
  | .courseDiagRepeat t j => Sys2Proof.Machine.execCourseDiagRepeat t j s
  | .courseAgreedRestored t j => Sys2Proof.Machine.execCourseAgreedRestored t j s
  | .sensorFaultDeclared t p src cause => Sys2Proof.Machine.execSensorFaultDeclared t p src cause s
  | .sensorFaultCleared t p src cause => Sys2Proof.Machine.execSensorFaultCleared t p src cause s
  | .excitationCompliance t p tripped => Sys2Proof.Machine.execExcitationCompliance t p tripped s
  | .pulseEdge t p lineB rising both held => Sys2Proof.Machine.execPulseEdge t p lineB rising both held s
  | .mpoPulseEdge t p => Sys2Proof.Machine.execMpoPulseEdge t p s
  | .zeroCrossing t x => Sys2Proof.Machine.execZeroCrossing t x s
  | .zcPredictionTimeout t => Sys2Proof.Machine.execZcPredictionTimeout t s
  | .ptpSyncReceived t m => Sys2Proof.Machine.execPtpSyncReceived t m s
  | .ptpAnnounceReceived t a => Sys2Proof.Machine.execPtpAnnounceReceived t a s
  | .ptpDelayMessageReceived t m => Sys2Proof.Machine.execPtpDelayMessageReceived t m s
  | .ptpManagementReceived t m => Sys2Proof.Machine.execPtpManagementReceived t m s
  | .ptpAnnounceTimeout t => Sys2Proof.Machine.execPtpAnnounceTimeout t s
  | .ptpSyncTimeout t => Sys2Proof.Machine.execPtpSyncTimeout t s
  | .ptpRestart t => Sys2Proof.Machine.execPtpRestart t s
  | .frameCounterLoad t => Sys2Proof.Machine.execFrameCounterLoad t s
  | .timeStepApply t => Sys2Proof.Machine.execTimeStepApply t s
  | .beaconReceived t b => Sys2Proof.Machine.execBeaconReceived t b s
  | .beaconSlot t => Sys2Proof.Machine.execBeaconSlot t s
  | .beaconPeriodStart t => Sys2Proof.Machine.execBeaconPeriodStart t s
  | .beaconTimeout t node => Sys2Proof.Machine.execBeaconTimeout t node s
  | .ttoEdge t k => Sys2Proof.Machine.execTtoEdge t k s
  | .tciEdge t k rising clocks => Sys2Proof.Machine.execTciEdge t k rising clocks s
  | .pilotPeriod t p => Sys2Proof.Machine.execPilotPeriod t p s
  | .sarTimerTick t k => Sys2Proof.Machine.execSarTimerTick t k s
  | .sarTriggerFire t k j => Sys2Proof.Machine.execSarTriggerFire t k j s
  | .sarConversionComplete t k code sampled => Sys2Proof.Machine.execSarConversionComplete t k code sampled s
  | .pilotCodeAccepted t p => Sys2Proof.Machine.execPilotCodeAccepted t p s
  | .proximityCodeAccepted t p => Sys2Proof.Machine.execProximityCodeAccepted t p s
  | .monitorScan t m => Sys2Proof.Machine.execMonitorScan t m s
  | .sarSelftestRun t k => Sys2Proof.Machine.execSarSelftestRun t k s
  | .sarSelftestComplete t k sums => Sys2Proof.Machine.execSarSelftestComplete t k sums s
  | .v2gMessageReceived t p m => Sys2Proof.Machine.execV2gMessageReceived t p m s
  | .cmSlacParmReq t run heard => Sys2Proof.Machine.execCmSlacParmReq t run heard s
  | .slacRunJudged t run atten mac => Sys2Proof.Machine.execSlacRunJudged t run atten mac s
  | .plcLinkUp t p => Sys2Proof.Machine.execPlcLinkUp t p s
  | .plcLinkTimeout t p => Sys2Proof.Machine.execPlcLinkTimeout t p s
  | .plcLossTimeout t p => Sys2Proof.Machine.execPlcLossTimeout t p s
  | .v2gSessionTimeout t p => Sys2Proof.Machine.execV2gSessionTimeout t p s
  | .dcStatusTimeout t p => Sys2Proof.Machine.execDcStatusTimeout t p s
  | .preambleDetected t port gain => Sys2Proof.Machine.execPreambleDetected t port gain s
  | .plcTurn t syms => Sys2Proof.Machine.execPlcTurn t syms s
  | .weldedContactDeclared t p => Sys2Proof.Machine.execWeldedContactDeclared t p s
  | .weldCleared t p => Sys2Proof.Machine.execWeldCleared t p s
  | .authTimeout t p => Sys2Proof.Machine.execAuthTimeout t p s
  | .startTimeout t p => Sys2Proof.Machine.execStartTimeout t p s
  | .stopGraceExpiry t p => Sys2Proof.Machine.execStopGraceExpiry t p s
  | .stopSettleExpiry t p => Sys2Proof.Machine.execStopSettleExpiry t p s
  | .siLevelChange t k chanB level n => Sys2Proof.Machine.execSiLevelChange t k chanB level n s
  | .safetyDiscrepancyLatch t k => Sys2Proof.Machine.execSafetyDiscrepancyLatch t k s
  | .safetyAutoRelease t src => Sys2Proof.Machine.execSafetyAutoRelease t src s
  | .safetyMessageSend t k => Sys2Proof.Machine.execSafetyMessageSend t k s
  | .safetyMessageReceived t k msg => Sys2Proof.Machine.execSafetyMessageReceived t k msg s
  | .safetyTimeExpectationExpiry t k => Sys2Proof.Machine.execSafetyTimeExpectationExpiry t k s
  | .sealChange t k closed since => Sys2Proof.Machine.execSealChange t k closed since s
  | .overloadTimeout t ch => Sys2Proof.Machine.execOverloadTimeout t ch s
  | .thermalLatch t ch tj => Sys2Proof.Machine.execThermalLatch t ch tj s
  | .thermalRelease t ch tj => Sys2Proof.Machine.execThermalRelease t ch tj s
  | .retryDelayExpiry t ch => Sys2Proof.Machine.execRetryDelayExpiry t ch s
  | .retryCounterReload t ch => Sys2Proof.Machine.execRetryCounterReload t ch s
  | .openLoadDeclared t ch since => Sys2Proof.Machine.execOpenLoadDeclared t ch since s
  | .openLoadCleared t ch since => Sys2Proof.Machine.execOpenLoadCleared t ch since s
  | .vswUndervoltage t vsw => Sys2Proof.Machine.execVswUndervoltage t vsw s
  | .vswRestore t vsw => Sys2Proof.Machine.execVswRestore t vsw s
  | .vswBelowRide t vsw => Sys2Proof.Machine.execVswBelowRide t vsw s
  | .switchDieReset t vsw => Sys2Proof.Machine.execSwitchDieReset t vsw s
  | .switchDiePowerUp t vsw => Sys2Proof.Machine.execSwitchDiePowerUp t vsw s
  | .supplyPhaseTimeout t => Sys2Proof.Machine.execSupplyPhaseTimeout t s
  | .watchdogArm t key seed => Sys2Proof.Machine.execWatchdogArm t key seed s
  | .watchdogFeed t => Sys2Proof.Machine.execWatchdogFeed t s
  | .watchdogWindowExpiry t => Sys2Proof.Machine.execWatchdogWindowExpiry t s
  | .dieLinkLost t => Sys2Proof.Machine.execDieLinkLost t s
  | .yudaixFrameReceived t f => Sys2Proof.Machine.execYudaixFrameReceived t f s
  | .mainsFrameTimeout t => Sys2Proof.Machine.execMainsFrameTimeout t s
  | .lineLinkDown t port => Sys2Proof.Machine.execLineLinkDown t port s
  | .lineLinkUp t port => Sys2Proof.Machine.execLineLinkUp t port s
  | .ringTestSend t => Sys2Proof.Machine.execRingTestSend t s
  | .ringTestMissing t => Sys2Proof.Machine.execRingTestMissing t s
  | .linkDownNotice t port => Sys2Proof.Machine.execLinkDownNotice t port s
  | .ringFlush t port => Sys2Proof.Machine.execRingFlush t port s
  | .discoveryStart t => Sys2Proof.Machine.execDiscoveryStart t s
  | .discoveryTokenReceived t k => Sys2Proof.Machine.execDiscoveryTokenReceived t k s
  | .discoveryComplete t root m => Sys2Proof.Machine.execDiscoveryComplete t root m s
  | .balanceFrameLaunch t => Sys2Proof.Machine.execBalanceFrameLaunch t s
  | .balanceRetry t => Sys2Proof.Machine.execBalanceRetry t s
  | .balanceFramePass t frame => Sys2Proof.Machine.execBalanceFramePass t frame s
  | .balanceFrameReturn t frame => Sys2Proof.Machine.execBalanceFrameReturn t frame s
  | .balanceReturnLate t => Sys2Proof.Machine.execBalanceReturnLate t s
  | .rootLost t => Sys2Proof.Machine.execRootLost t s
  | .powerGood t vcore vio vana refclk => Sys2Proof.Machine.execPowerGood t vcore vio vana refclk s
  | .capoBootVerified t ok0 ok1 => Sys2Proof.Machine.execCapoBootVerified t ok0 ok1 s
  | .parameterStoreLoaded t badNew badOld key seed => Sys2Proof.Machine.execParameterStoreLoaded t badNew badOld key seed s
  | .rootRegenerated t copy0 copy1 words errors ms => Sys2Proof.Machine.execRootRegenerated t copy0 copy1 words errors ms s
  | .holdupMerge t badE badB badL words => Sys2Proof.Machine.execHoldupMerge t badE badB badL words s
  | .serviceImageBooted t okA okB => Sys2Proof.Machine.execServiceImageBooted t okA okB s
  | .pfwWarning t since => Sys2Proof.Machine.execPfwWarning t since s
  | .vswMonitorTrip t vsw => Sys2Proof.Machine.execVswMonitorTrip t vsw s
  | .warningEnd t since vsw => Sys2Proof.Machine.execWarningEnd t since vsw s
  | .brownOut t vcore vio => Sys2Proof.Machine.execBrownOut t vcore vio s
  | .brownOutReset t => Sys2Proof.Machine.execBrownOutReset t s
  | .railRestartTrip t rail mV => Sys2Proof.Machine.execRailRestartTrip t rail mV s
  | .refclkLoss t => Sys2Proof.Machine.execRefclkLoss t s
  | .thermalShutdown t temp => Sys2Proof.Machine.execThermalShutdown t temp s
  | .resetnAssert t width fsrst => Sys2Proof.Machine.execResetnAssert t width fsrst s
  | .resetnRelease t => Sys2Proof.Machine.execResetnRelease t s
  | .capoDivergence t code => Sys2Proof.Machine.execCapoDivergence t code s
  | .capoException t code => Sys2Proof.Machine.execCapoException t code s
  | .capoRestart t badE badB badL words key seed => Sys2Proof.Machine.execCapoRestart t badE badB badL words key seed s
  | .displayStart t vep ven ladder => Sys2Proof.Machine.execDisplayStart t vep ven ladder s
  | .displayRailTimeout t => Sys2Proof.Machine.execDisplayRailTimeout t s
  | .displayPageChange t => Sys2Proof.Machine.execDisplayPageChange t s
  | .displayRefresh t => Sys2Proof.Machine.execDisplayRefresh t s
  | .displayPhaseEnd t => Sys2Proof.Machine.execDisplayPhaseEnd t s
  | .displayBookMark t => Sys2Proof.Machine.execDisplayBookMark t s
  | .displayPinExpiry t => Sys2Proof.Machine.execDisplayPinExpiry t s
  | .displayTempExpiry t => Sys2Proof.Machine.execDisplayTempExpiry t s
  | .displayOvercurrent t seg => Sys2Proof.Machine.execDisplayOvercurrent t seg s
  | .attestationComplete t => Sys2Proof.Machine.execAttestationComplete t s
  | .fwStageVerified t => Sys2Proof.Machine.execFwStageVerified t s
  | .standbyReady t => Sys2Proof.Machine.execStandbyReady t s
  | .handoverBootTimeout t => Sys2Proof.Machine.execHandoverBootTimeout t s
  | .fwConfirmTimeout t => Sys2Proof.Machine.execFwConfirmTimeout t s
  | .serviceLivenessFail t exc => Sys2Proof.Machine.execServiceLivenessFail t exc s
  | .testTimeout t => Sys2Proof.Machine.execTestTimeout t s
  | .testSafetyDelayRelease t => Sys2Proof.Machine.execTestSafetyDelayRelease t s
  | .ptpMessageTransmit t port kind => Sys2Proof.Machine.execPtpMessageTransmit t port kind s
  | .displayStartRetry t vep ven ladder => Sys2Proof.Machine.execDisplayStartRetry t vep ven ladder s
  | .thermalShutdownEnd t temp => Sys2Proof.Machine.execThermalShutdownEnd t temp s
  | .switchCurrentLimit t ch reached mA => Sys2Proof.Machine.execSwitchCurrentLimit t ch reached mA s

end Sys2Proof.Machine
end

