-- ==== Sys2Proof/Safety.lean ====
section
/-!
DEFINITION. What it means that a change of state keeps within some parts of the machine, and which runs count as safe: the terms in
which frames and invariants are stated.
-/

namespace Sys2Proof.Machine

/-- The parts of the state. -/
inductive Part where
  /-- The time base and the frame counter. -/
  | clk
  /-- The servo and everything of node time. -/
  | servo
  /-- The parameter store. -/
  | par
  /-- The host register space. -/
  | host
  /-- The test window. -/
  | test
  /-- The 128 slices. -/
  | slices
  /-- The 64 courses. -/
  | courses
  /-- The quantity engine. -/
  | eng
  /-- The 16 points. -/
  | pts
  /-- Records and the journal. -/
  | recs
  /-- The holdup ledger. -/
  | led
  /-- The switch die. -/
  | sw
  /-- The safety functions and the seals. -/
  | saf
  /-- The legal event log. -/
  | log
  /-- The key unit. -/
  | keys
  /-- The display. -/
  | disp
  /-- The power-line engine. -/
  | plc
  /-- The Yudaix ring. -/
  | ring
  /-- The SAR converters. -/
  | sar
  /-- Firmware. -/
  | fw
  /-- Supplies, resets and start-up. -/
  | pwr
  /-- The queue of waiting commands. -/
  | pending
deriving DecidableEq, Repr

/-- Every part of `t` but those of `T` is as in `s`. -/
structure Keeps (T : List Part) (s t : State) : Prop where
  clk : T.contains .clk = false → t.clk = s.clk
  servo : T.contains .servo = false → t.servo = s.servo
  par : T.contains .par = false → t.par = s.par
  host : T.contains .host = false → t.host = s.host
  test : T.contains .test = false → t.test = s.test
  slices : T.contains .slices = false → t.slices = s.slices
  courses : T.contains .courses = false → t.courses = s.courses
  eng : T.contains .eng = false → t.eng = s.eng
  pts : T.contains .pts = false → t.pts = s.pts
  recs : T.contains .recs = false → t.recs = s.recs
  led : T.contains .led = false → t.led = s.led
  sw : T.contains .sw = false → t.sw = s.sw
  saf : T.contains .saf = false → t.saf = s.saf
  log : T.contains .log = false → t.log = s.log
  keys : T.contains .keys = false → t.keys = s.keys
  disp : T.contains .disp = false → t.disp = s.disp
  plc : T.contains .plc = false → t.plc = s.plc
  ring : T.contains .ring = false → t.ring = s.ring
  sar : T.contains .sar = false → t.sar = s.sar
  fw : T.contains .fw = false → t.fw = s.fw
  pwr : T.contains .pwr = false → t.pwr = s.pwr
  pending : T.contains .pending = false → t.pending = s.pending

/-! ### A request and its response -/

/-- A request that its mailbox takes and runs at once (19 R451–R453, 20 R469): the core die and the mailbox service run, the Capo is not in
its recovery loader, the mailbox is free, the header is legal with PART, MORE and the reserved bits 0, the payload fits, and the reserved
payload fields are 0. -/
structure Taken (s : State) (code : Nat) (h : Hdr) (p : Bytes) : Prop where
  core : s.pwr.coreOn = true
  serving : s.serving = true
  normal : s.fw.recovery = false
  mbx : h.mbx < 8
  tag : h.tag < 65536
  flags : h.flags = 0
  free : s.mboxFree h.mbx = true
  reserved : reservedZero code p = true
  fits : p.length ≤ 248

/-- The state on which a taken request's command runs: the request stands in its buffer, and what the mailbox held of earlier requests is
gone. -/
def State.accept (s : State) (code : Nat) (h : Hdr) (p : Bytes) : State := ((s.writeReq code h p).dropAnswer h.mbx).dropHeld h.mbx

/-- The mailbox of `h` holds the response to a request of this code (19 R451, 20 R469): RSP is 1, REQ and BUSY are 0, ERROR says whether the
status is other than 0, TAG is the request's, and the response buffer begins with the header and the payload. -/
structure Answered (t : State) (code : Nat) (h : Hdr) (status : Nat) (body : Bytes) : Prop where
  rsp : (t.mbox h.mbx).rsp = true
  req : (t.mbox h.mbx).req = false
  busy : (t.mbox h.mbx).busy = false
  error : (t.mbox h.mbx).error = (status != 0)
  tag : (t.mbox h.mbx).tag.toNat = h.tag
  resp : (t.mbox h.mbx).resp.take (8 + body.length) = hdrBytes code h.tag body.length status ++ body

/-- The answer of a request in parts (20 R470): part 0 stands in the response buffer after its two part bytes, and the mailbox holds all the
parts for later requests. -/
structure AnsweredParts (t : State) (code : Nat) (h : Hdr) (parts : List Bytes) : Prop where
  first : Answered t code h 0 ([0, byteOf parts.length] ++ parts.headD [])
  held : (t.mbox h.mbx).answer = some ⟨code, h.tag, parts⟩

/-- What a request changes besides its response (19 R451, R460): the parts of `T`; of the time base the free-value counter; of the host
register space its own mailbox, the pending bits and detail queues of the events raised, and the streams that take a record. -/
structure Serves (T : List Part) (s t : State) (h : Hdr) : Prop where
  parts : Keeps (.clk :: .host :: T) s t
  counter : t.clk = { s.clk with freeCtr := t.clk.freeCtr }
  space : t.host = { s.host with mbx := t.host.mbx, events := t.host.events, pend := t.host.pend, streams := t.host.streams }
  boxes : ∀ m, m ≠ h.mbx → t.mbox m = s.mbox m

/-- What a request changes that only reads: its mailbox, the completion event 0, and the free-value counter (19 R451, R460). -/
structure ReadOnly (s t : State) (h : Hdr) : Prop where
  serves : Serves [] s t h
  streams : t.host.streams = s.host.streams
  queues : ∀ e, e ≠ 0 → t.host.events.getD e EventQueue.reset = s.host.events.getD e EventQueue.reset
  bits : ∀ e, e ≠ 0 → t.host.pend.getLsbD e = s.host.pend.getLsbD e

/-- The newest detail of an event begins with these bytes, and once READY stands its pending bit is set (19 R460). -/
structure Raised (t : State) (ev : Nat) (body : Bytes) : Prop where
  newest : ((t.host.events.getD ev EventQueue.reset).details.getLastD []).take body.length = body
  pending : t.host.ready = true → t.host.pend.getLsbD ev = true

/-- The core die has entered reset with a cause of Table 22.4, held by `bit` (22 R509): the units of the core die stand at their reset values,
and what the MRAM holds stays. -/
structure InReset (s t : State) (cause bit : Nat) : Prop where
  off : t.pwr.coreOn = false
  stage : t.pwr.stage = 0
  capo : t.pwr.capoOn = false
  cause : t.pwr.cause = cause
  held : t.pwr.coreHeld.testBit bit = true
  link : t.sw.link = false
  host : t.host = { HostPort.reset with service := s.host.service }
  engine : t.eng = Engine.reset
  slices : t.slices = State.reset.slices
  courses : t.courses = State.reset.courses
  servo : t.servo = Servo.reset
  plc : t.plc = Plc.reset
  ring : t.ring = Ring.reset
  sar : t.sar = Sar.reset
  journal : t.recs.journal = s.recs.journal
  log : t.log.held = s.log.held
  entries : t.led.slots = s.led.slots
  banks : t.led.banks = s.led.banks
  lines : t.led.lines = s.led.lines
  stored : t.par.stored = s.par.stored

/-! ### The invariant -/

/-- A FIFO of 2^a words: its pointers are a+1 bits wide, and the write pointer stands as many words after the read pointer as the FIFO
holds, counted round (19 R454). -/
structure FifoOk (a : Nat) (f : Fifo) : Prop where
  rptr : f.rptr < 2 ^ (a + 1)
  wptr : f.wptr = (f.rptr + f.words.length) % 2 ^ (a + 1)

/-- A mailbox never holds a request and a response at once (19 R451). -/
abbrev boxOk (b : Mailbox) : Prop := b.req = true → b.rsp = false

/-- The host register space: 8 mailboxes, 4 stream FIFOs and 64 event queues of at most 8 details (19 R451, R454, R460). -/
structure HostOk (mbx : List Mailbox) (streams : List Fifo) (events : List EventQueue) : Prop where
  boxes : mbx.length = 8
  box : ∀ m, boxOk (mbx.getD m Mailbox.reset)
  fifos : streams.length = 4
  fifo : ∀ k, k < 4 → FifoOk (streamBits k) (streams.getD k Fifo.reset)
  queues : events.length = 64
  queue : ∀ e, (events.getD e EventQueue.reset).details.length ≤ 8

/-- While the test window is locked, every test register stands at its reset value and no action on safety messages is in force (23 R520,
R522). -/
abbrev TestOk (unlocked : Bool) (regs eff : TestRegs) : Prop := unlocked = false → regs = TestRegs.reset ∧ eff.safAction = 0

/-- What every step keeps: the host space, the locked test window, the number of each of the block's parts, and the 16 places of the fault
reports (17 R419). -/
structure Sound (s : State) : Prop where
  host : HostOk s.host.mbx s.host.streams s.host.events
  test : TestOk s.test.unlocked s.test.regs s.test.eff
  outputs : s.servo.ttos.length = 8
  captures : s.servo.tcis.length = 4
  pointKeys : s.keys.pts.length = 16
  tlsKeys : s.keys.tls.length = 16
  slices : s.slices.length = 128
  courses : s.courses.length = 64
  pts : s.pts.length = 16
  switches : s.sw.ch.length = 32
  inputs : s.saf.ins.length = 32
  entries : s.saf.entries.length = 16
  converters : s.sar.conv.length = 4
  ports : s.plc.ports.length = 18
  reports : s.ring.faults.length ≤ 16


/-- The parts of the state that a command may change; every other part it leaves as it was. -/
def touches (i : Instr) : List Part :=
  match i with
  | .identity _ _ => [.clk, .host]
  | .nodeStatus _ _ => [.clk, .host]
  | .eventDetail _ _ => [.clk, .host]
  | .factoryReset _ _ => [.clk, .par, .host, .courses, .eng, .pts, .recs, .led, .log, .plc, .fw, .pwr]
  | .parameterRead _ _ => [.clk, .host]
  | .parameterWrite _ _ => [.clk, .servo, .par, .host, .test, .eng, .pts, .log, .disp, .plc, .ring, .fw]
  | .batchCommit _ _ => [.clk, .servo, .par, .host, .test, .eng, .pts, .log, .disp, .plc, .ring, .fw]
  | .batchAbort _ _ => [.clk, .servo, .par, .host, .test, .eng, .pts, .log, .disp, .plc, .ring, .fw]
  | .batchCheck _ _ => [.clk, .servo, .par, .host, .test, .eng, .pts, .log, .disp, .plc, .ring, .fw]
  | .parameterDescribe _ _ => [.clk, .host]
  | .parameterList _ _ => [.clk, .host]
  | .sessionRequest _ _ => [.clk, .host, .pts]
  | .sessionReject _ _ => [.clk, .host, .pts]
  | .sessionCancel _ _ => [.clk, .host, .pts]
  | .sessionStop _ _ => [.clk, .host, .pts]
  | .sessionRevoke _ _ => [.clk, .host, .pts]
  | .faultAcknowledge _ _ => [.clk, .host, .slices, .pts, .sw, .sar]
  | .sessionAuthorise _ _ => [.clk, .par, .host, .pts, .led, .plc]
  | .sessionModify _ _ => [.clk, .host, .pts]
  | .sessionStatus _ _ => [.clk, .host]
  | .pointQuantities _ _ => [.clk, .host]
  | .pointHarmonics _ _ => [.clk, .host]
  | .pointSupraharmonics _ _ => [.clk, .host]
  | .pointRegisters _ _ => [.clk, .host]
  | .pointStatus _ _ => [.clk, .host]
  | .channelStatus _ _ => [.clk, .host]
  | .courseRestore _ _ => [.clk, .host, .eng]
  | .capture _ _ => [.clk, .host, .eng]
  | .outletLimit _ _ => [.clk, .host, .pts]
  | .outletDcStatus _ _ => [.clk, .host, .pts]
  | .outletRootStore _ _ => [.clk, .host, .log, .keys]
  | .switchCommand _ _ => [.clk, .host, .pts, .sw]
  | .switchStatus _ _ => [.clk, .host]
  | .switchReset _ _ => [.clk, .host, .sw]
  | .safetyAcknowledge _ _ => [.clk, .host, .pts, .sw, .saf]
  | .safetyStatus _ _ => [.clk, .host]
  | .journalRead _ _ => [.clk, .host, .recs, .pwr]
  | .recordAcknowledge _ _ => [.clk, .host, .pts, .recs]
  | .logRead _ _ => [.clk, .host, .log, .pwr]
  | .logAcknowledge _ _ => [.clk, .host, .log]
  | .journalStatus _ _ => [.clk, .host]
  | .keyStatus _ _ => [.clk, .host]
  | .keyInvalidate _ _ => [.clk, .host, .pts, .log, .keys]
  | .keyNextGeneration _ _ => [.clk, .host, .log, .keys]
  | .keyRegenerate _ _ => [.clk, .host, .keys, .pwr]
  | .keyAttest _ _ => [.clk, .host, .keys]
  | .keyStatementRead _ _ => [.clk, .host]
  | .keyNodeCertificate _ _ => [.clk, .host]
  | .keyTlsCertificateLoad _ _ => [.clk, .host, .keys]
  | .keyErase _ _ => [.clk, .host, .log, .keys]
  | .keyPublicRead _ _ => [.clk, .host]
  | .fwBegin _ _ => [.clk, .host, .log, .fw]
  | .fwData _ _ => [.clk, .host, .fw]
  | .fwVerify _ _ => [.clk, .host, .fw]
  | .fwHandover _ _ => [.clk, .host, .log, .fw, .pwr]
  | .fwConfirm _ _ => [.clk, .par, .host, .fw]
  | .fwStatus _ _ => [.clk, .host]
  | .timeStatus _ _ => [.clk, .host]
  | .timeAccept _ _ => [.clk, .servo, .host, .log]
  | .ttoSet _ _ => [.clk, .servo, .host]
  | .tciSet _ _ => [.clk, .servo, .host]
  | .tciRead _ _ => [.clk, .servo, .host]
  | .balanceResults _ _ => [.clk, .host]
  | .ringMap _ _ => [.clk, .host]
  | .displayPin _ _ => [.clk, .host, .disp]
  | .displayStatic _ _ => [.clk, .host, .disp]
  | .displayWaveform _ _ => [.clk, .host, .log, .disp]
  | .displayTemperature _ _ => [.clk, .host, .disp]
  | .displayUpdate _ _ => [.clk, .host, .disp]
  | .sarResults _ _ => [.clk, .host, .sar]
  | .sarTrigger _ _ => [.clk, .host, .sar]
  | .sarSelftest _ _ => [.clk, .host, .sar]
  | .testUnlock _ _ => [.clk, .host, .test, .log]
  | .testRelock _ _ => [.clk, .host, .test, .eng, .sw, .log]
  | .requestPart _ _ _ => [.clk, .servo, .par, .host, .test, .slices, .courses, .eng, .pts, .recs, .led, .sw, .saf, .log, .keys, .disp, .plc, .ring, .sar, .fw, .pwr]
  | .responsePartRead _ _ _ => [.clk, .servo, .par, .host, .test, .slices, .courses, .eng, .pts, .recs, .led, .sw, .saf, .log, .keys, .disp, .plc, .ring, .sar, .fw, .pwr]
  | .mailboxRelease _ _ => [.clk, .host]
  | .eventClear _ _ => [.host]
  | .heartbeat _ => [.host]
  | .frameLoRead => [.clk, .host]
  | .streamPortRead _ _ => [.host]
  | .streamFlush _ _ => [.host]
  | .testClear _ => [.host, .test, .eng, .sw]
  | .testStretchWrite _ _ => [.host, .test, .eng, .sw]
  | .testFifoWrite _ => [.host, .test, .eng, .sw]
  | .testRingWrite _ => [.host, .test, .eng, .sw]
  | .testZcWrite _ => [.host, .test, .eng, .sw]
  | .testSafetyWrite _ => [.host, .test, .eng, .sw]
  | .testPlcWrite _ => [.host, .test, .eng, .sw]
  | .testMramWrite _ => [.host, .test, .eng, .sw]
  | .testWdWrite _ => [.host, .test, .eng, .sw]
  | .registerWrite _ _ _ => [.clk, .servo, .par, .host, .test, .slices, .courses, .eng, .pts, .recs, .led, .sw, .saf, .log, .keys, .disp, .plc, .ring, .sar, .fw, .pwr]
  | .qspiTransactionError _ => [.host]
  | .hethDatagram _ _ => [.clk, .servo, .par, .host, .test, .slices, .courses, .eng, .pts, .recs, .led, .sw, .saf, .log, .keys, .disp, .plc, .ring, .sar, .fw, .pwr]
  | .replyCacheExpiry _ => [.clk, .host]
  | .batchTimeout _ => [.clk, .par]
  | .hostWatchdogTimeout _ => [.clk, .host, .pts]
  | .streamTailTimeout _ _ => [.clk, .host]
  | .recordStreamDequeue _ => [.clk, .host, .pts, .recs]
  | .frameTick _ _ => [.clk, .servo, .par, .host, .test, .slices, .courses, .eng, .pts, .recs, .led, .sw, .saf, .log, .keys, .disp, .plc, .ring, .sar, .fw, .pwr]
  | .fretCutoff _ => [.clk, .host, .eng]
  | .handoverBlockReady _ => [.clk, .eng]
  | .frameAccumulate _ => [.clk, .host, .slices, .eng, .pts, .recs, .led, .sw, .saf, .ring, .sar, .pwr]
  | .intervalBoundary _ => [.clk, .servo, .par, .host, .slices, .courses, .eng, .pts, .recs, .led, .sw, .saf, .log, .plc, .ring, .sar, .fw]
  | .recordSigned _ => [.clk, .host, .pts, .recs, .keys]
  | .modeChangeoverComplete _ => [.clk, .host, .slices, .courses, .eng, .pts, .recs, .led, .plc, .sar]
  | .autoGainSwitchUp _ _ => [.clk, .slices]
  | .autoGainSwitchDown _ _ _ => [.clk, .slices]
  | .modulatorRestart _ _ => [.clk, .slices]
  | .residualTrip _ _ _ _ => [.clk, .host, .pts, .sw]
  | .residualSelfTestResult _ _ => [.clk, .host, .slices, .pts, .sw, .sar]
  | .courseDiagnosisStart _ => [.clk, .eng, .sar]
  | .courseVerdict _ => [.clk, .host, .slices, .courses, .eng, .sar]
  | .courseDiagRepeat _ _ => [.clk, .courses, .eng]
  | .courseAgreedRestored _ _ => [.clk, .courses, .eng]
  | .sensorFaultDeclared _ _ _ _ => [.clk, .host, .slices, .pts]
  | .sensorFaultCleared _ _ _ _ => [.clk, .host, .slices, .pts]
  | .excitationCompliance _ _ _ => [.clk, .pts]
  | .pulseEdge _ _ _ _ _ _ => [.clk, .pts]
  | .mpoPulseEdge _ _ => [.clk, .pts]
  | .zeroCrossing _ _ => [.clk, .servo, .host, .ring]
  | .zcPredictionTimeout _ => [.clk, .servo, .host, .ring]
  | .ptpSyncReceived _ _ => [.clk, .servo, .host, .ring]
  | .ptpAnnounceReceived _ _ => [.clk, .servo, .host, .ring]
  | .ptpDelayMessageReceived _ _ => [.clk, .servo]
  | .ptpManagementReceived _ _ => [.clk, .servo]
  | .ptpAnnounceTimeout _ => [.clk, .servo, .host, .ring]
  | .ptpSyncTimeout _ => [.clk, .servo, .host, .ring]
  | .ptpRestart _ => [.clk, .servo, .host, .ring]
  | .frameCounterLoad _ => [.clk, .servo, .slices, .eng, .pts, .fw]
  | .timeStepApply _ => [.clk, .servo, .slices, .eng, .pts, .fw]
  | .beaconReceived _ _ => [.clk, .servo, .host, .ring]
  | .beaconSlot _ => [.clk, .servo]
  | .beaconPeriodStart _ => [.clk, .servo]
  | .beaconTimeout _ _ => [.clk, .servo, .host, .ring]
  | .ttoEdge _ _ => [.clk, .servo, .host]
  | .tciEdge _ _ _ _ => [.clk, .servo, .host]
  | .pilotPeriod _ _ => [.clk, .pts, .sar]
  | .sarTimerTick _ _ => [.clk, .sar]
  | .sarTriggerFire _ _ _ => [.clk, .sar]
  | .sarConversionComplete _ _ _ _ => [.clk, .host, .pts, .sw, .sar]
  | .pilotCodeAccepted _ _ => [.clk, .host, .slices, .pts, .sw, .plc, .sar]
  | .proximityCodeAccepted _ _ => [.clk, .host, .pts]
  | .monitorScan _ _ => [.clk, .host, .sar, .pwr]
  | .sarSelftestRun _ _ => [.clk, .sar]
  | .sarSelftestComplete _ _ _ => [.clk, .host, .sar]
  | .v2gMessageReceived _ _ _ => [.clk, .par, .host, .pts, .led, .keys, .plc]
  | .cmSlacParmReq _ _ _ => [.clk, .pts]
  | .slacRunJudged _ _ _ _ => [.clk, .pts]
  | .plcLinkUp _ _ => [.clk, .host, .pts, .plc]
  | .plcLinkTimeout _ _ => [.clk, .host, .pts, .plc]
  | .plcLossTimeout _ _ => [.clk, .pts]
  | .v2gSessionTimeout _ _ => [.clk, .pts]
  | .dcStatusTimeout _ _ => [.clk, .pts]
  | .preambleDetected _ _ _ => [.clk, .plc]
  | .plcTurn _ _ => [.clk, .host, .plc, .ring]
  | .weldedContactDeclared _ _ => [.clk, .host, .pts, .sw]
  | .weldCleared _ _ => [.clk, .host, .pts]
  | .authTimeout _ _ => [.clk, .host, .pts]
  | .startTimeout _ _ => [.clk, .host, .pts]
  | .stopGraceExpiry _ _ => [.clk, .pts, .sw]
  | .stopSettleExpiry _ _ => [.clk, .host, .pts]
  | .siLevelChange _ _ _ _ _ => [.clk, .host, .pts, .sw, .saf]
  | .safetyDiscrepancyLatch _ _ => [.clk, .host, .pts, .sw, .saf]
  | .safetyAutoRelease _ _ => [.clk, .host, .sw, .saf]
  | .safetyMessageSend _ _ => [.clk, .host, .test, .eng, .sw, .saf]
  | .safetyMessageReceived _ _ _ => [.clk, .host, .test, .eng, .pts, .sw, .saf, .ring]
  | .safetyTimeExpectationExpiry _ _ => [.clk, .host, .pts, .sw, .saf, .ring]
  | .sealChange _ _ _ _ => [.clk, .host, .test, .eng, .pts, .recs, .led, .sw, .saf, .log, .keys]
  | .overloadTimeout _ _ => [.clk, .host, .pts, .sw]
  | .thermalLatch _ _ _ => [.clk, .host, .pts, .sw]
  | .thermalRelease _ _ _ => [.clk, .host, .sw]
  | .retryDelayExpiry _ _ => [.clk, .host, .sw]
  | .retryCounterReload _ _ => [.clk, .sw]
  | .openLoadDeclared _ _ _ => [.clk, .host, .sw]
  | .openLoadCleared _ _ _ => [.clk, .host, .sw]
  | .vswUndervoltage _ _ => [.clk, .host, .pts, .sw]
  | .vswRestore _ _ => [.clk, .host, .sw]
  | .vswBelowRide _ _ => [.clk, .host, .pts, .sw]
  | .switchDieReset _ _ => [.clk, .pts, .sw]
  | .switchDiePowerUp _ _ => [.clk, .host, .pts, .sw]
  | .supplyPhaseTimeout _ => [.clk, .host, .sw]
  | .watchdogArm _ _ _ => [.clk, .pts, .sw]
  | .watchdogFeed _ => [.clk, .host, .test, .eng, .sw]
  | .watchdogWindowExpiry _ => [.clk, .sw]
  | .dieLinkLost _ => [.clk, .sw]
  | .yudaixFrameReceived _ _ => [.clk, .host, .ring]
  | .mainsFrameTimeout _ => [.clk, .ring]
  | .lineLinkDown _ _ => [.clk, .host, .ring]
  | .lineLinkUp _ _ => [.clk, .host, .ring]
  | .ringTestSend _ => [.clk, .ring]
  | .ringTestMissing _ => [.clk, .host, .ring]
  | .linkDownNotice _ _ => [.clk, .host, .ring]
  | .ringFlush _ _ => [.clk, .ring]
  | .discoveryStart _ => [.clk, .host, .ring]
  | .discoveryTokenReceived _ _ => [.clk, .host, .ring]
  | .discoveryComplete _ _ _ => [.clk, .servo, .host, .ring]
  | .balanceFrameLaunch _ => [.clk, .host, .ring]
  | .balanceRetry _ => [.clk, .host, .ring]
  | .balanceFramePass _ _ => [.clk, .host, .ring]
  | .balanceFrameReturn _ _ => [.clk, .host, .ring]
  | .balanceReturnLate _ => [.clk, .host, .ring]
  | .rootLost _ => [.clk, .host, .ring]
  | .powerGood _ _ _ _ _ => [.clk, .pwr]
  | .capoBootVerified _ _ _ => [.clk, .host, .fw, .pwr]
  | .parameterStoreLoaded _ _ _ _ _ => [.clk, .par, .host, .eng, .pts, .sw, .saf, .plc, .sar, .pwr]
  | .rootRegenerated _ _ _ _ _ _ => [.clk, .host, .keys, .pwr]
  | .holdupMerge _ _ _ _ _ => [.clk, .servo, .host, .test, .slices, .eng, .pts, .recs, .led, .sw, .saf, .log, .keys, .disp, .plc, .ring, .fw, .pwr]
  | .serviceImageBooted _ _ _ => [.clk, .servo, .par, .host, .test, .slices, .courses, .eng, .pts, .recs, .led, .sw, .saf, .log, .keys, .disp, .plc, .ring, .sar, .fw, .pwr]
  | .pfwWarning _ _ => [.clk, .host, .led, .disp, .fw, .pwr]
  | .vswMonitorTrip _ _ => [.clk, .host, .led, .sw, .disp, .fw, .pwr]
  | .warningEnd _ _ _ => [.clk, .host, .led, .sw, .pwr]
  | .brownOut _ _ _ => [.clk, .servo, .par, .host, .slices, .courses, .eng, .pts, .recs, .led, .sw, .saf, .log, .plc, .ring, .sar, .fw, .pwr]
  | .brownOutReset _ => [.clk, .servo, .par, .host, .test, .slices, .courses, .eng, .pts, .recs, .led, .sw, .saf, .log, .keys, .disp, .plc, .ring, .sar, .fw, .pwr]
  | .railRestartTrip _ _ _ => [.clk, .servo, .par, .host, .test, .slices, .courses, .eng, .pts, .recs, .led, .sw, .saf, .log, .keys, .disp, .plc, .ring, .sar, .fw, .pwr]
  | .refclkLoss _ => [.clk, .servo, .par, .host, .test, .slices, .courses, .eng, .pts, .recs, .led, .sw, .saf, .log, .keys, .disp, .plc, .ring, .sar, .fw, .pwr]
  | .thermalShutdown _ _ => [.clk, .servo, .par, .host, .test, .slices, .courses, .eng, .pts, .recs, .led, .sw, .saf, .log, .keys, .disp, .plc, .ring, .sar, .fw, .pwr]
  | .resetnAssert _ _ _ => [.clk, .servo, .par, .host, .test, .slices, .courses, .eng, .pts, .recs, .led, .sw, .saf, .log, .keys, .disp, .plc, .ring, .sar, .fw, .pwr]
  | .resetnRelease _ => [.clk, .pwr]
  | .capoDivergence _ _ => [.clk, .host, .fw, .pwr]
  | .capoException _ _ => [.clk, .host, .fw, .pwr]
  | .capoRestart _ _ _ _ _ _ _ => [.clk, .servo, .par, .host, .test, .slices, .courses, .eng, .pts, .recs, .led, .sw, .saf, .log, .keys, .disp, .plc, .ring, .sar, .fw, .pwr]
  | .displayStart _ _ _ _ => [.clk, .host, .disp, .pwr]
  | .displayRailTimeout _ => [.clk, .host, .disp]
  | .displayPageChange _ => [.clk, .host, .disp]
  | .displayRefresh _ => [.clk, .host, .disp]
  | .displayPhaseEnd _ => [.clk, .host, .disp]
  | .displayBookMark _ => [.clk, .disp]
  | .displayPinExpiry _ => [.clk, .host, .disp]
  | .displayTempExpiry _ => [.clk, .disp]
  | .displayOvercurrent _ _ => [.clk, .host, .disp]
  | .attestationComplete _ => [.clk, .host, .keys]
  | .fwStageVerified _ => [.clk, .host, .fw]
  | .standbyReady _ => [.clk, .fw]
  | .handoverBootTimeout _ => [.clk, .host, .fw]
  | .fwConfirmTimeout _ => [.clk, .fw]
  | .serviceLivenessFail _ _ => [.clk, .servo, .par, .host, .pts, .keys, .ring, .fw]
  | .testTimeout _ => [.clk, .host, .test, .eng, .sw, .log]
  | .testSafetyDelayRelease _ => [.clk, .host, .test, .pts, .sw, .saf, .ring]
  | .ptpMessageTransmit _ _ _ => [.clk, .servo]
  | .displayStartRetry _ _ _ _ => [.clk, .host, .disp, .pwr]
  | .thermalShutdownEnd _ _ => [.clk, .pwr]
  | .switchCurrentLimit _ _ _ _ => [.clk, .sw]

end Sys2Proof.Machine
end

