-- ==== Sys2Proof/Certificates/Slice0/Obligations.lean ====
section
/-!
DEFINITION. The statements about the block: steps and frames, the invariant, and, family by family, what each command comes to.
-/

open Sys2Proof Sys2Proof.Machine

/-- R479, R460, R482 (Table 20.5): what the node commands answer and change. -/
def Obligations.NodeCommandsAnswer : Prop :=
  ∀ (s : State) (h : Hdr) (p : Bytes), Sound s →
    (Taken s 0x0101 h [] → ∃ t, exec (.identity h []) s = .next t ∧
      Answered t 0x0101 h 0 (le 2 0x4749 ++ le 2 0x9128 ++ [byteOf Config.orderingCode, byteOf Config.siliconRevision] ++
        le 2 s.host.service ++ le 2 (s.runningVersion 2) ++ le 2 (s.runningVersion 3) ++ le 8 Config.serial ++
        [byteOf (s.pn ND_LIFECYCLE), 1] ++ le 2 s.nodeId) ∧ ReadOnly s t h) ∧
    (Taken s 0x0102 h [] → ∃ t, exec (.nodeStatus h []) s = .next t ∧
      Answered t 0x0102 h 0 ([byteOf s.eng.mode, byteOf (servoCode s.servo.state), byteOf s.saf.seals, byteOf s.statusLow] ++
        le 4 s.par.cost ++ le 4 s.clk.interval ++ le 8 s.frm ++ leI 2 s.sar.dieTemp ++ zeros 2 ++ le 4 s.pwr.corrected ++
        le 4 s.keys.refusals) ∧ ReadOnly s t h) ∧
    (Taken s 0x0103 h p → p.length = 1 → fld p 0 1 < 64 → ∃ t, exec (.eventDetail h p) s = .next t ∧
      (let q := s.host.events.getD (fld p 0 1) EventQueue.reset
       Answered t 0x0103 h 0 ([byteOf (fld p 0 1), byteOf (q.details.length - 1), 0, 0] ++ le 4 q.lost ++
          padTo 32 (q.details.headD [])) ∧
        (fld p 0 1 ≠ 0 → (t.host.events.getD (fld p 0 1) EventQueue.reset) = { q with details := q.details.drop 1 }) ∧
        (fld p 0 1 = 0 → ∃ d, (t.host.events.getD 0 EventQueue.reset).details = q.details.drop 1 ++ [d])) ∧
      (∀ e, e ≠ 0 → e ≠ fld p 0 1 → t.host.events.getD e EventQueue.reset = s.host.events.getD e EventQueue.reset) ∧
      (∀ e, e ≠ 0 → t.host.pend.getLsbD e = s.host.pend.getLsbD e) ∧ Serves [] s t h) ∧
    (Taken s 0x0104 h [] → s.saf.seals.testBit 0 = true → s.allIdle = true → s.journalUnacked = 0 → s.log.unacked = 0 →
      s.logFull 1 = false → ∃ t, exec (.factoryReset h []) s = .next t ∧ Answered t 0x0104 h 0 [] ∧
      t.par.stored = keptByReset s.par.stored ∧ t.log.next = s.log.next + 1 ∧
      t.pwr.capoReset = true ∧ t.pwr.capoOn = false ∧ t.recs.journal = [] ∧ t.led.slots = List.replicate 4 none ∧
      (∀ x ∈ t.pts, x.regs = List.replicate 38 0 ∧ x.seqNext = 0) ∧
      Keeps (touches (.factoryReset h [])) s t)

/-- R259, R260, R377 (Table 20.5): what the record commands answer and change. -/
def Obligations.RecordCommandsAnswer : Prop :=
  ∀ (s : State) (h : Hdr) (p : Bytes) (k : Nat), Sound s → (k = if fld p 0 1 = 0xFF then 16 else fld p 0 1) →
    (Taken s 0x0401 h p → p.length = 6 → k < 17 → (fld p 0 1 < 16 ∨ fld p 0 1 = 0xFF) → s.reached k (fld p 2 4) = true →
      ∃ t, exec (.journalRead h p) s = .next t ∧ Serves [.recs, .pwr] s t h ∧
      (∀ j, s.recs.journal.find? (fun j => j.series == k && j.seq == fld p 2 4) = some j →
        AnsweredParts t 0x0401 h (journalParts 0 j.bytes) ∧ t.recs = s.recs ∨ AnsweredParts t 0x0401 h (journalParts 3 j.bytes)) ∧
      (s.recs.journal.find? (fun j => j.series == k && j.seq == fld p 2 4) = none →
        AnsweredParts t 0x0401 h (journalParts (if s.isWithheld k (fld p 2 4) then 1 else 2) []))) ∧
    (Taken s 0x0402 h p → p.length = 6 → (fld p 0 1 < 16 ∨ fld p 0 1 = 0xFF) → s.reached k (fld p 2 4) = true →
      ∃ t, exec (.recordAcknowledge h p) s = .next t ∧ Answered t 0x0402 h 0 [] ∧
      t.seqAcked k = laterAck (s.seqAcked k) (fld p 2 4) ∧ (∀ j, j ≠ k → t.seqAcked j = s.seqAcked j) ∧ Serves [.pts, .recs] s t h) ∧
    (Taken s 0x0403 h p → p.length = 4 → fld p 0 4 < s.log.next →
      ∃ t, exec (.logRead h p) s = .next t ∧ Serves [.log, .pwr] s t h ∧
      (∀ e, s.log.held.find? (fun e => e.index == fld p 0 4) = some e →
        Answered t 0x0403 h 0 (0 :: padTo 64 e.bytes) ∧ t.log = s.log ∨ Answered t 0x0403 h 0 (3 :: padTo 64 e.bytes)) ∧
      (s.log.held.find? (fun e => e.index == fld p 0 4) = none →
        Answered t 0x0403 h 0 (byteOf (if s.log.lost.contains (fld p 0 4) then 4 else 2) :: zeros 64))) ∧
    (Taken s 0x0404 h p → p.length = 4 → fld p 0 4 < s.log.next →
      ∃ t, exec (.logAcknowledge h p) s = .next t ∧ Answered t 0x0404 h 0 [] ∧
      t.log.acked = laterAck s.log.acked (fld p 0 4) ∧ t.log.held = s.log.held ∧ Serves [.log] s t h) ∧
    (Taken s 0x0405 h [] → ∃ t, exec (.journalStatus h []) s = .next t ∧
      Answered t 0x0405 h 0 (le 2 (40960 - s.recs.journal.length) ++ le 2 s.journalUnacked ++
        (List.range 17).flatMap (fun k => le 4 (s.seqNext k) ++ le 4 (ackedField (s.seqAcked k))) ++
        le 4 s.recs.notStreamed ++ le 4 s.recs.lost) ∧ ReadOnly s t h)

/-- R430, R432, R434, R436, R438, R441: what the key commands answer and change. -/
def Obligations.KeyCommandsAnswer : Prop :=
  ∀ (s : State) (h : Hdr) (p : Bytes) (q : Nat), Sound s → q < 16 →
    (Taken s 0x0501 h [] → ∃ t b, exec (.keyStatus h []) s = .next t ∧ Answered t 0x0501 h 0 b ∧
      b.take 4 = le 2 s.keys.node.gen ++ [byteOf (b2n s.keys.node.invalid), byteOf (if s.keys.regenFail then 0 else 1)] ∧
      b.length = 100 ∧ ReadOnly s t h) ∧
    (∀ c, c = 2 ∨ c = 4 → Taken s 0x0502 h [1, byteOf c, byteOf q] → s.logFull 1 = false →
      (s.keyState c q).invalid = false → (c = 2 → (s.sesOf q).state = .idle) →
      ∃ t, exec (.keyInvalidate h [1, byteOf c, byteOf q]) s = .next t ∧ Answered t 0x0502 h 0 [] ∧
      t.keyState c q = ⟨(s.keyState c q).gen, true, s.frm⟩ ∧ t.log.next = s.log.next + 1 ∧ Serves [.log, .keys] s t h) ∧
    (Taken s 0x0502 h p → p.length = 1 + 2 * fld p 0 1 → 0 < fld p 0 1 → fld p 0 1 ≤ 33 →
      (∀ x ∈ keyList p, keyNamed false x.1 x.2 = 0) → s.logFull 33 = false →
      ∃ t, exec (.keyInvalidate h p) s = .next t ∧ Answered t 0x0502 h 0 [] ∧
      (∀ x ∈ keyList p, (t.keyState x.1 x.2).invalid = true) ∧ Serves [.pts, .log, .keys] s t h) ∧
    (Taken s 0x0502 h [1, 1, 0xFF] → s.logFull 33 = false → s.keys.node.invalid = false →
      ∃ t, exec (.keyInvalidate h [1, 1, 0xFF]) s = .next t ∧ Answered t 0x0502 h 0 [] ∧
      t.keys.node = ⟨s.keys.node.gen, true, s.frm⟩ ∧ (t.keyState 2 q).invalid = true ∧
      (t.keyState 4 q).invalid = ((s.keyState 4 q).invalid || s.pb PT_KEY_TLS_BIND q) ∧
      Serves [.pts, .log, .keys] s t h) ∧
    (Taken s 0x0503 h p → p.length = 1 + 2 * fld p 0 1 → 0 < fld p 0 1 → fld p 0 1 ≤ 33 → (keyList p).Nodup →
      (∀ x ∈ keyList p, keyNamed false x.1 x.2 = 0 ∧ (s.keyState x.1 x.2).invalid = true ∧ (s.keyState x.1 x.2).gen < 65535) →
      s.logFull (fld p 0 1) = false →
      ∃ t, exec (.keyNextGeneration h p) s = .next t ∧ Answered t 0x0503 h 0 [] ∧
      (∀ x ∈ keyList p, t.keyState x.1 x.2 = ⟨(s.keyState x.1 x.2).gen + 1, false, 0⟩) ∧ t.log.next = s.log.next + fld p 0 1 ∧
      Serves [.log, .keys] s t h) ∧
    (Taken s 0x0504 h [] → ∃ t, exec (.keyRegenerate h []) s = .next t ∧
      (Answered t 0x0504 h 0 [0] ∧ t.keys.regenFail = true ∨ Answered t 0x0504 h 0 [1] ∧ t.keys.regenFail = false) ∧
      Serves [.keys, .pwr] s t h) ∧
    (Taken s 0x0505 h p → p.length = 18 → keyNamed true (fld p 0 1) (fld p 1 1) = 0 → s.keys.regenFail = false →
      s.keys.queue.length < 4 →
      ∃ t, exec (.keyAttest h p) s = .next t ∧ Answered t 0x0505 h 0 (le 2 (nextReqTag s.keys.nextTag)) ∧
      t.keys = { s.keys with nextTag := nextReqTag s.keys.nextTag,
                             queue := s.keys.queue ++ [⟨nextReqTag s.keys.nextTag, fld p 0 1, fld p 1 1, slice p 2 16⟩] } ∧
      Serves [.keys] s t h) ∧
    (∀ x, Taken s 0x0506 h p → p.length = 8 → fld p 0 1 = 0 → s.keys.ready.find? (fun x => x.1 == fld p 2 2) = some x →
      ∃ t, exec (.keyStatementRead h p) s = .next t ∧ Answered t 0x0506 h 0 x.2 ∧ ReadOnly s t h) ∧
    (∀ c, Taken s 0x0506 h p → p.length = 8 → fld p 0 1 = 1 → fld p 1 1 = q →
      (s.sesOf q).certs.find? (fun c => fld c 40 4 == fld p 4 4) = some c →
      ∃ t, exec (.keyStatementRead h p) s = .next t ∧ Answered t 0x0506 h 0 c ∧ ReadOnly s t h) ∧
    (Taken s 0x0507 h [] → ∃ t, exec (.keyNodeCertificate h []) s = .next t ∧
      AnsweredParts t 0x0507 h (byteParts (if s.keys.erased then zeros 4
        else withLength Config.nodeCertificate ++ withLength Config.intermediateCertificate)) ∧ ReadOnly s t h) ∧
    (∀ l r c n, c = 4 ∨ c = 5 → 1 ≤ n → n ≤ 3 → Taken s 0x0508 h (byteOf q :: byteOf c :: byteOf n :: p) → s.isOutlet q = true →
      readCerts n p = some l → (∀ x ∈ l, x.length ≤ 1024) → s.keys.regenFail = false →
      (s.keyState c q).invalid = false → s.keys.root = some r →
      (let fits := Config.certificateKey (l.headD []) = publicKey c (deriveKey r c q (s.keyState c q).gen)
       ∃ t, exec (.keyTlsCertificateLoad h (byteOf q :: byteOf c :: byteOf n :: p)) s = .next t ∧ Serves [.keys] s t h ∧
        (fits → Answered t 0x0508 h 0 [] ∧ (⟨q, c, l⟩ : TlsChain) ∈ t.keys.chains) ∧
        (¬ fits → Answered t 0x0508 h 6 [] ∧ t.keys = s.keys))) ∧
    (Taken s 0x0509 h [] → s.saf.seals.testBit 0 = true → s.logFull 1 = false →
      ∃ t, exec (.keyErase h []) s = .next t ∧ Answered t 0x0509 h 0 [] ∧ t.keys = { s.keys with erased := true } ∧
      t.log.next = s.log.next + 1 ∧ Serves [.log, .keys] s t h) ∧
    (∀ r, Taken s 0x050A h p → p.length = 2 → keyNamed true (fld p 0 1) (fld p 1 1) = 0 → s.keys.root = some r →
      s.keys.regenFail = false →
      ∃ t, exec (.keyPublicRead h p) s = .next t ∧
      Answered t 0x050A h 0 (withLength (publicKey (fld p 0 1)
        (deriveKey r (fld p 0 1) (fld p 1 1) (s.keyState (fld p 0 1) (fld p 1 1)).gen))) ∧ ReadOnly s t h)

/-- R473, R475–R478 (Table 20.4): what the parameter commands answer and change. -/
def Obligations.ParameterCommandsAnswer : Prop :=
  ∀ (s : State) (h : Hdr) (p : Bytes), Sound s →
    let all := (match s.par.batch with | some b => b.entries | none => []) ++ readEntries p
    let fits := 4 ≤ p.length ∧ p.length ≤ 244 ∧ (p.length - 4) % 12 = 0 ∧ fld p 3 1 = 0 ∧ all.length ≤ 1024 ∧
      (match s.par.batch with | some b => b.num = fld p 0 2 | none => True)
    let passes := fun bits =>
      let x := (s.accept 0x0202 h (withFlags bits p)).closeBatch
      let g := x.future (x.batchValues all)
      duplicated (all.map entryValue) = false ∧ x.firstFailure g 0 all = none ∧ g.crossOk = true ∧
        x.logFull (logCount (x.batchValues all)) = false ∧ g.admission.1 = 0
    (Taken s 0x0201 h p → 0 < p.length → p.length ≤ 60 → p.length % 4 = 0 → ∃ t, exec (.parameterRead h p) s = .next t ∧
      Answered t 0x0201 h 0 ((chunks 4 p).flatMap (fun c => s.readEntry (fld c 0 2) (fld c 2 2))) ∧ ReadOnly s t h) ∧
    (∀ r, Taken s 0x0203 h p → p.length = 4 → rowOf (fld p 0 2) = some r → fld p 2 2 ≤ maxInstance (fld p 0 2) →
      ∃ t, exec (.parameterDescribe h p) s = .next t ∧
      Answered t 0x0203 h 0 ([byteOf r.ty, byteOf r.frac, byteOf (effectCode r.effect), byteOf r.sealNo] ++ leI 8 r.lo ++
        leI 8 r.hi ++ leI 8 (defaultOf (fld p 0 2) (typeFor s.par.active (fld p 0 2) (fld p 2 2))) ++ [byteOf r.extra.length] ++
        r.extra.flatMap (leI 8)) ∧ ReadOnly s t h) ∧
    (Taken s 0x0204 h p → p.length = 2 → ∃ t, exec (.parameterList h p) s = .next t ∧
      (let l := (allPids.filter (fun x => decide (fld p 0 2 ≤ x))).take 120
       Answered t 0x0204 h 0 (le 2 l.length ++ l.flatMap (le 2))) ∧ ReadOnly s t h) ∧
    (Taken s 0x0202 h p → fits → ∃ t b, exec (.parameterWrite h p) s = .next t ∧ Answered t 0x0202 h 0 b ∧
      b.take 6 = le 2 (fld p 0 2) ++ le 2 all.length ++ le 2 0xFFFF ∧
      t.par = { s.par with batch := some ⟨fld p 0 2, all, s.clk.up + 10000000000⟩ } ∧ Serves [.par] s t h) ∧
    (Taken s 0x0202 h (withFlags 2 p) → fits → ∃ t b, exec (.batchAbort h p) s = .next t ∧ Answered t 0x0202 h 0 b ∧
      b.take 6 = le 2 (fld p 0 2) ++ le 2 0 ++ le 2 0xFFFF ∧ t.par = { s.par with batch := none } ∧
      Serves [.par] s t h) ∧
    (Taken s 0x0202 h (withFlags 5 p) → fits → passes 5 → ∃ t b, exec (.batchCheck h p) s = .next t ∧
      Answered t 0x0202 h 0 b ∧ b.take 6 = le 2 (fld p 0 2) ++ le 2 all.length ++ le 2 0xFFFF ∧
      t.par = { s.par with batch := none } ∧ Serves [.par] s t h) ∧
    (Taken s 0x0202 h (withFlags 1 p) → fits → passes 1 → ∃ t b, exec (.batchCommit h p) s = .next t ∧
      Answered t 0x0202 h 0 b ∧ b.take 6 = le 2 (fld p 0 2) ++ le 2 all.length ++ le 2 0xFFFF ∧
      t.par.batch = none ∧ t.par.stored = putAll s.par.stored (s.batchValues all) ∧ Keeps (touches (.batchCommit h p)) s t)

/-- R226, R228, R231, R232, R238, R545 (Table 9.6): what the session commands answer and change. -/
def Obligations.SessionCommandsAnswer : Prop :=
  ∀ (s : State) (h : Hdr) (p : Bytes) (q : Nat), Sound s → q = fld p 0 1 → q < 16 → s.isSession q = true →
    (Taken s 0x0301 h p → p.length = 1 → (s.sesOf q).state = .idle → (s.pt q).outService = false → s.stored PT_SERVICE q = 0 →
      ∃ t, exec (.sessionRequest h p) s = .next t ∧ Answered t 0x0301 h 0 [] ∧ (t.sesOf q).state = .authorising ∧
      (t.sesOf q).since = s.frm + 1 ∧ (t.sesOf q).entry = s.clk.up ∧ Serves [.pts] s t h) ∧
    (Taken s 0x0302 h p → p.length = 1 → (s.sesOf q).state = .authorising →
      ∃ t, exec (.sessionReject h p) s = .next t ∧ Answered t 0x0302 h 0 [] ∧ (t.sesOf q).state = .idle ∧
      (t.sesOf q).since = s.frm + 1 ∧ (t.sesOf q).key = none ∧ Serves [.pts] s t h) ∧
    (Taken s 0x0303 h p → p.length = 1 → (s.sesOf q).state = .authorised →
      ∃ t, exec (.sessionCancel h p) s = .next t ∧ Answered t 0x0303 h 0 [] ∧ (t.sesOf q).state = .idle ∧
      (t.sesOf q).since = s.frm + 1 ∧ (t.sesOf q).key = none ∧ (t.sesOf q).present = false ∧ Serves [.pts] s t h) ∧
    (Taken s 0x0304 h p → p.length = 1 → (s.sesOf q).state = .transferring →
      ∃ t, exec (.sessionStop h p) s = .next t ∧ Answered t 0x0304 h 0 [] ∧ 1 ∈ (t.sesOf q).causes ∧
      Serves [.pts] s t h) ∧
    (Taken s 0x0305 h p → p.length = 1 → (s.sesOf q).state = .transferring →
      ∃ t, exec (.sessionRevoke h p) s = .next t ∧ Answered t 0x0305 h 0 [] ∧ 6 ∈ (t.sesOf q).causes ∧
      Serves [.pts] s t h) ∧
    (Taken s 0x0306 h p → p.length = 1 → (s.sesOf q).state = .fault → (s.sesOf q).endDone = true →
      s.faultGone q (s.sesOf q).faultCause = true → (s.isOutlet q = true → (s.outOf q).trip = true → s.pathsQuiet q = true) →
      ∃ t, exec (.faultAcknowledge h p) s = .next t ∧ Answered t 0x0306 h 0 [] ∧ (t.sesOf q).state = .idle ∧
      (s.isOutlet q = true → (t.outOf q).code = 0 ∧ (t.outOf q).trip = false) ∧
      Serves [.slices, .pts, .sw, .sar] s t h) ∧
    (Taken s 0x0307 h p → p.length = 36 → fld p 1 1 = 0 → (s.sesOf q).state = .idle ∨ (s.sesOf q).state = .authorising →
      s.mayAuthorise q = 0 →
      ∃ t, exec (.sessionAuthorise h p) s = .next t ∧ Answered t 0x0307 h 0 (le 4 (s.sesOf q).nextNumber) ∧
      (t.sesOf q).state = .authorised ∧ (t.sesOf q).number = (s.sesOf q).nextNumber ∧
      (t.sesOf q).nextNumber = (s.sesOf q).nextNumber + 1 ∧ (t.sesOf q).reference = padTo 16 (slice p 4 16) ∧
      (t.sesOf q).preset = fld p 20 8 ∧ (t.sesOf q).credit = fld p 28 8 ∧ Serves [.par, .pts, .led, .plc] s t h) ∧
    (Taken s 0x0308 h p → p.length = 20 → fld p 1 1 = 3 → (s.sesOf q).state = .transferring →
      ∃ t, exec (.sessionModify h p) s = .next t ∧ Answered t 0x0308 h 0 [] ∧
      (t.sesOf q).modify = some (some (fld p 4 8), some (fld p 12 8)) ∧ (t.sesOf q).preset = (s.sesOf q).preset ∧
      Serves [.pts] s t h) ∧
    (Taken s 0x0309 h p → p.length = 1 → ∃ t, exec (.sessionStatus h p) s = .next t ∧
      (let x := s.sesOf q
       Answered t 0x0309 h 0 ([byteOf (sesCode x.state), byteOf x.stopCause, byteOf x.endCause, byteOf x.authBy] ++ le 4 x.number ++
        le 8 x.sFrame ++ le 8 (min (s.sesQuantity q) (2 ^ 64 - 1)) ++
        le 8 (min (costOf (s.sesSum q) (priceUnits (s.ptType q))) (2 ^ 64 - 1)) ++ le 4 x.counted ++ le 2 x.currency ++
        padTo 16 x.reference)) ∧ ReadOnly s t h)

/-- R116, R175, R179, R181, R251, R480 (Table 20.4): what the point commands answer and change. -/
def Obligations.PointCommandsAnswer : Prop :=
  ∀ (s : State) (h : Hdr) (p : Bytes) (q : Nat), Sound s → q = fld p 0 1 →
    (Taken s 0x030A h p → p.length = 1 → q < 16 → ∃ t ps, exec (.pointQuantities h p) s = .next t ∧ AnsweredParts t 0x030A h ps ∧
      (isElec (s.ptType q) = true → ps = packParts (s.elecEntries q) [] []) ∧
      (isFluid (s.ptType q) = true → ps = packParts (s.fluidEntries q) [] []) ∧ ReadOnly s t h) ∧
    (Taken s 0x030B h p → p.length = 3 → q < 16 → fld p 1 1 < 8 → fld p 2 1 < 2 → s.pqOn q = true →
      (s.winRoles q).contains (fld p 1 1) = true →
      ∃ t ps, exec (.pointHarmonics h p) s = .next t ∧ AnsweredParts t 0x030B h ps ∧ ReadOnly s t h) ∧
    (Taken s 0x030C h p → p.length = 2 → q < 16 → fld p 1 1 < 8 → (s.wideSlots q).contains (fld p 1 1) = true →
      ∃ t ps, exec (.pointSupraharmonics h p) s = .next t ∧ AnsweredParts t 0x030C h ps ∧
      (∀ b, b = (s.pt q).pq.blockRes.getD (fld p 1 1) (0, 0, []) →
        ps = packParts ((List.range 75).map (fun m => le 4 (min (b.2.2.getD m (0, 0)).1 (2 ^ 32 - 1)) ++
          le 4 (min (b.2.2.getD m (0, 0)).2 (2 ^ 32 - 1)))) (le 8 b.1 ++ le 2 b.2.1) []) ∧ ReadOnly s t h) ∧
    (Taken s 0x030D h p → p.length = 1 → q < 16 → ∃ t, exec (.pointRegisters h p) s = .next t ∧
      AnsweredParts t 0x030D h [(List.range 30).flatMap (fun i => le 8 ((s.pt q).int i)),
        (List.range 8).flatMap (fun i => le 8 ((s.pt q).int (30 + i))),
        (List.range 32).flatMap (fun i => le 4 (displayed (s.pn PT_REG_DECADE q) ((s.pt q).int i)) ++
          le 2 ((s.pt q).wraps.getD i 0))] ∧ ReadOnly s t h) ∧
    (Taken s 0x030E h p → p.length = 1 → q < 16 → ∃ t b, exec (.pointStatus h p) s = .next t ∧ Answered t 0x030E h 0 b ∧
      b.take 12 = [byteOf (s.ptType q), byteOf (b2n (s.pt q).outService), byteOf (sesCode (s.sesOf q).state), byteOf s.regime] ++
        le 4 (s.pt q).seqNext ++ le 4 (ackedField (s.pt q).acked) ∧ b.length = 48 ∧ ReadOnly s t h) ∧
    (Taken s 0x030F h p → p.length = 1 → q < 128 → ∃ t b, exec (.channelStatus h p) s = .next t ∧ Answered t 0x030F h 0 b ∧
      b.take 1 = [byteOf (s.slice (s.governs q)).gain] ∧ ReadOnly s t h) ∧
    (Taken s 0x0310 h p → p.length = 1 → q < 64 → s.ptType (q / 4) ≠ 0 → s.eng.mode = 1 → (s.course q).state = .single →
      ∃ t, exec (.courseRestore h p) s = .next t ∧ Answered t 0x0310 h 0 [] ∧ q ∈ t.eng.restores ∧
      (∀ j ∈ s.eng.restores, j ∈ t.eng.restores) ∧ t.eng = { s.eng with restores := t.eng.restores } ∧
      Serves [.eng] s t h) ∧
    (Taken s 0x0311 h p → p.length = 1 → q < 16 → s.ptType q ≠ 0 → s.eng.capture = none →
      (let pre := (s.pt q).pq.pre.take (s.pn PT_CAP_PRE q)
       let slots := mapOf 8 ((bitsOf 8 (s.pn PT_CAP_SLOTS q)).filter (fun k => s.pn CH_FILTER (8 * q + k) == 1))
       ∃ t, exec (.capture h p) s = .next t ∧ Answered t 0x0311 h 0 [] ∧ Serves [.eng] s t h ∧
        (5 ≤ s.streamRoom 2 → ((t.stream 2).words.drop (s.stream 2).words.length).take 4 =
          (capHeader q slots 0 (s.frm - pre.length) pre.length (if s.eng.mode = 3 then 2 else 8)).map
            (fun w => (w % 2 ^ 32, false, false))) ∧
        (5 ≤ s.streamRoom 2 → pre = [] → t.eng = { s.eng with capture := some ⟨q, s.pn PT_CAP_POST q, 0, 4, slots, 0⟩ }) ∧
        (s.streamRoom 2 < 5 → t.eng = s.eng ∧ (t.stream 2).words = (s.stream 2).words)))

/-- R33, R227, R297, R308, R309, R344, R360 (Table 20.4): what the outlet, switch and safety commands answer and change. -/
def Obligations.OutletAndSwitchCommandsAnswer : Prop :=
  ∀ (s : State) (h : Hdr) (p : Bytes) (q : Nat), Sound s → q = fld p 0 1 →
    (Taken s 0x0312 h p → p.length = 3 → q < 16 → s.isOutlet q = true → ∃ t, exec (.outletLimit h p) s = .next t ∧
      Answered t 0x0312 h 0 [] ∧ t.pts = (s.modOut q (fun o => { o with limitNext := some (fld p 1 2) })).pts ∧
      Serves [.pts] s t h) ∧
    (Taken s 0x0313 h p → p.length = 11 → q < 16 → s.ptType q = 2 → ∃ t, exec (.outletDcStatus h p) s = .next t ∧
      Answered t 0x0313 h 0 (le 2 (s.outOf q).tgtV ++ le 2 (s.outOf q).tgtI ++ [byteOf (s.outOf q).protoState]) ∧
      (t.outOf q).dcMaxV = fld p 1 2 ∧ (t.outOf q).dcMaxI = fld p 3 2 ∧ (t.outOf q).dcMaxP = fld p 5 4 ∧
      (t.outOf q).dcIso = fld p 9 1 ∧ (t.outOf q).dcStage = fld p 10 1 ∧ (t.outOf q).dcDue = some (s.clk.up + 250000000) ∧
      Serves [.pts] s t h) ∧
    (Taken s 0x0314 h p → q < 8 → fld p 1 1 = 0 → 0 < fld p 2 2 → p.length = 4 + fld p 2 2 → s.logFull 1 = false →
      ∃ t, exec (.outletRootStore h p) s = .next t ∧ Answered t 0x0314 h 0 [] ∧
      t.keys = { s.keys with roots := put s.keys.roots q (some (p.drop 4)) } ∧ t.log.next = s.log.next + 1 ∧
      Serves [.log, .keys] s t h) ∧
    (Taken s 0x0314 h p → q < 8 → fld p 1 1 = 1 → fld p 2 2 = 0 → p.length = 4 → s.logFull 1 = false →
      ∃ t, exec (.outletRootStore h p) s = .next t ∧ Answered t 0x0314 h 0 [] ∧
      t.keys = { s.keys with roots := put s.keys.roots q none } ∧ t.log.next = s.log.next + 1 ∧ Serves [.log, .keys] s t h) ∧
    (Taken s 0x0315 h p → p.length = 2 → q < 32 → fld p 1 1 < 2 → s.ptType (q / 2) ≠ 0 → s.pathLocked q = false →
      (fld p 1 1 = 1 → (s.swch q).held134 = false ∧ (s.swch q).held2 = false) →
      ∃ t, exec (.switchCommand h p) s = .next t ∧ Answered t 0x0315 h 0 [] ∧
      (s.dieAnswers = true → (s.swch q).held134 = false → (t.swch q).on = (fld p 1 1 == 1) ∧ (t.swch q).cmd = (fld p 1 1 == 1)) ∧
      (s.dieAnswers = true → (s.swch q).held134 = true → t.swch q = s.swch q) ∧
      (s.dieAnswers = false → t.swch q = s.swch q ∧ (q, fld p 1 1 == 1) ∈ t.sw.waiting) ∧
      (∀ n, n ≠ q → t.swch n = s.swch n) ∧ Serves [.pts, .sw] s t h) ∧
    (Taken s 0x0316 h [] → ∃ t, exec (.switchStatus h []) s = .next t ∧
      AnsweredParts t 0x0316 h (packParts (s.swRegs.map (le 4)) [] []) ∧ ReadOnly s t h) ∧
    (Taken s 0x0317 h p → p.length = 1 → q < 32 → s.ptType (q / 2) ≠ 0 → (s.swch q).held134 = false → (s.swch q).therm = false →
      ∃ t, exec (.switchReset h p) s = .next t ∧ Answered t 0x0317 h 0 [] ∧
      (s.orderNow = true → (t.swch q).retries = s.retriesOf q ∧ (t.swch q).exhausted = false ∧ (t.swch q).ovl = false ∧
        (t.swch q).on = (s.swch q).on) ∧
      (s.orderNow = false → t.swch q = s.swch q ∧ DieOp.reload q ∈ t.sw.waitOps) ∧
      (∀ n, n ≠ q → t.swch n = s.swch n) ∧ Serves [.sw] s t h) ∧
    (Taken s 0x0318 h [0, byteOf q] → q < 32 → s.siMode q ≠ 0 → (s.safIn q).latched = false → (s.safIn q).trip = true →
      (s.safIn q).demand = false → s.siRestart q = 0 →
      ∃ t, exec (.safetyAcknowledge h [0, byteOf q]) s = .next t ∧ Answered t 0x0318 h 0 [] ∧ (t.safIn q).trip = false ∧
      (∀ n, q ∉ (t.swch n).siHold) ∧ Serves [.pts, .sw, .saf] s t h) ∧
    (Taken s 0x0318 h [0, byteOf q] → q < 32 → s.siMode q ≠ 0 → (s.safIn q).latched = true → (s.safIn q).cycle = 3 →
      s.demandA q = false → s.demandB q = false →
      ∃ t, exec (.safetyAcknowledge h [0, byteOf q]) s = .next t ∧ Answered t 0x0318 h 0 [] ∧ (t.safIn q).latched = false ∧
      Serves [.pts, .sw, .saf] s t h) ∧
    (Taken s 0x0318 h [1, byteOf q] → s.isConsumer q = true → (s.scEntry q).state = 2 →
      ripeAt ((s.scEntry q).goodFrom.map (· + 2 * s.pn (ND_SC_TIME_0 + q) * 1000000)) s.clk.up = true →
      s.clk.up ≤ (s.scEntry q).lastAt + s.pn (ND_SC_TIME_0 + q) * 1000000 →
      ∃ t, exec (.safetyAcknowledge h [1, byteOf q]) s = .next t ∧ Answered t 0x0318 h 0 [] ∧ (t.scEntry q).state = 1 ∧
      Serves [.pts, .sw, .saf] s t h) ∧
    (Taken s 0x0319 h [] → ∃ t b, exec (.safetyStatus h []) s = .next t ∧ Answered t 0x0319 h 0 b ∧
      b.take 8 = le 4 (bitmapOf (s.saf.ins.map (fun x => x.demand))) ++ le 4 (bitmapOf (s.saf.ins.map (fun x => x.latched))) ∧
      b.length = 64 ∧ ReadOnly s t h)

/-- R486–R489, R491, R496, R502 (Table 20.5): what the firmware commands answer and change. -/
def Obligations.FirmwareCommandsAnswer : Prop :=
  ∀ (s : State) (h : Hdr) (p : Bytes), Sound s →
    (Taken s 0x0601 h p → p.length = 40 → fld p 0 1 < 4 →
      (fld p 0 1 < 2 → (s.pn ND_FW_SERVICE_METHOD).testBit (fld p 0 1) = true ∧ s.fw.trial = false) →
      (fld p 0 1 ≠ 1 → fld p 4 4 ≤ imageLimit (fld p 0 1)) →
      (2 ≤ fld p 0 1 → s.saf.seals.testBit 0 = true ∧ s.logFull 1 = false) →
      ∃ t idx, exec (.fwBegin h p) s = .next t ∧ Answered t 0x0601 h 0 [] ∧
      t.fw.stage = some ⟨fld p 0 1, fld p 4 4, slice p 8 32, [], 0, [], none, h.heth, h.tag, idx⟩ ∧ t.fw.svc = s.fw.svc ∧
      t.fw.active = s.fw.active ∧ t.log.next = s.log.next + (if fld p 0 1 < 2 then 0 else 1) ∧ Serves [.log, .fw] s t h) ∧
    (∀ g, Taken s 0x0602 h p → 5 ≤ p.length → p.length ≤ 244 → s.fw.stage = some g → g.state = 0 → g.kind < 4 →
      fld p 0 4 + (p.length - 4) ≤ g.length → (g.kind = 1 → fld p 0 4 = stagedBytes g.pieces) →
      (g.kind ≠ 1 → g.length ≤ imageLimit g.kind) → (2 ≤ g.kind → s.saf.seals.testBit 0 = true ∧ s.fw.legal < 2) →
      ∃ t, exec (.fwData h p) s = .next t ∧ Answered t 0x0602 h 0 [] ∧
      t.fw.stage = some { g with pieces := g.pieces ++ [(fld p 0 4, p.drop 4)] } ∧ t.fw.active = s.fw.active ∧
      Serves [.fw] s t h) ∧
    (∀ g b, Taken s 0x0603 h [] → s.fw.stage = some g → g.state = 0 → s.builtImage g = some b →
      ∃ t, exec (.fwVerify h []) s = .next t ∧ Answered t 0x0603 h 0 [] ∧
      t.fw = { s.fw with stage := some { g with state := 1, built := b } } ∧ Serves [.fw] s t h) ∧
    (∀ g, Taken s 0x0603 h [] → s.fw.stage = some g → g.state = 0 → s.builtImage g = none →
      ∃ t, exec (.fwVerify h []) s = .next t ∧ Answered t 0x0603 h 17 [] ∧ t.fw = { s.fw with stage := none } ∧
      Serves [.fw] s t h) ∧
    (∀ g, Taken s 0x0604 h [] → s.fw.stage = some g → g.state = 2 → s.led.warnFrom = none → s.fw.trial = false → g.kind < 2 →
      ∃ t, exec (.fwHandover h []) s = .next t ∧ Answered t 0x0604 h 0 [] ∧
      t.fw = { s.fw with stage := some { g with state := 3, heth := h.heth, tag := h.tag }
                         bootDue := some (s.clk.up + 2000000000) } ∧ Serves [.fw] s t h) ∧
    (∀ g, Taken s 0x0604 h [] → s.fw.stage = some g → g.state = 2 → s.led.warnFrom = none → 2 ≤ g.kind →
      s.saf.seals.testBit 0 = true → s.logFull 1 = false →
      ∃ t, exec (.fwHandover h []) s = .next t ∧ Answered t 0x0604 h 0 [] ∧
      t.fw.swapAt = some (s.clk.up + 1000000) ∧ t.log.next = s.log.next + 1 ∧ t.fw.legal = s.fw.legal ∧
      Serves [.log, .fw] s t h) ∧
    (Taken s 0x0605 h [] → s.fw.trial = true → s.fw.hand = none → s.fw.active < s.fw.svc.length →
      ∃ t, exec (.fwConfirm h []) s = .next t ∧ Answered t 0x0605 h 0 [] ∧ t.fw.trial = false ∧ t.fw.confirmDue = none ∧
      (t.svcSlot s.fw.active).confirmed = true ∧ t.par.stored = s.par.stored ∧ t.par.oldCopy = [] ∧
      Serves [.par, .fw] s t h) ∧
    (Taken s 0x0606 h [] → ∃ t b, exec (.fwStatus h []) s = .next t ∧ Answered t 0x0606 h 0 b ∧ b.length = 12 ∧
      (s.fw.stage = none → b.take 1 = [byteOf s.fw.active] ∧ (b.drop 2).take 2 = [byteOf s.fwState, 0]) ∧
      (∀ g, s.fw.stage = some g → b.take 4 = [byteOf s.fw.active, byteOf g.kind, byteOf s.fwState, 0]) ∧
      ReadOnly s t h)

/-- R71, R78, R85, R87, R408, R418 (Table 20.6): what the time and ring commands answer and change. -/
def Obligations.TimeCommandsAnswer : Prop :=
  ∀ (s : State) (h : Hdr) (p : Bytes) (i : Nat), Sound s → i = fld p 0 1 →
    (Taken s 0x0701 h [] → ∃ t, exec (.timeStatus h []) s = .next t ∧
      Answered t 0x0701 h 0 ([byteOf (servoCode s.servo.state), byteOf s.servo.source, byteOf s.regime, byteOf s.zcCode] ++
        leI 8 s.servo.offset ++ le 4 (min s.errorBound (2 ^ 32 - 1)) ++ be 8 s.servo.gm ++ le 2 s.servo.ptpHops ++
        le 2 s.servo.mainsHops ++ le 8 s.nodeNow) ∧ ReadOnly s t h) ∧
    (∀ r, Taken s 0x0702 h p → p.length = 1 → i < 2 → s.servo.refused = some r → (i = 1 → r.offset.natAbs ≤ 125000) →
      s.logFull 1 = false →
      ∃ t, exec (.timeAccept h p) s = .next t ∧ Answered t 0x0702 h 0 [] ∧ t.servo.refused = none ∧
      t.servo.source = r.source ∧ t.servo.state = .acquiring ∧ t.servo.slew = (if i = 1 then localOffset r.source r.offset else 0) ∧
      t.servo.step = (if i = 0 then some (localOffset r.source r.offset, s.clk.up + 1000000) else none) ∧ t.log.next = s.log.next + 1 ∧
      Serves [.servo, .log] s t h) ∧
    (let mode := fld p 1 1
     let start := fld p 2 8
     let period := fld p 10 4
     let width := fld p 14 4
     Taken s 0x0703 h p → p.length = 20 → i < 8 → mode < 3 → fld p 18 1 < 2 → fld p 19 1 < 2 →
      (mode ≠ 0 → 8 ≤ width ∧ width % 8 = 0) → (mode = 1 → s.nodeNow ≤ start) →
      (mode = 2 → 1000 ≤ period ∧ period ≤ 1000000000 ∧ period % 8 = 0 ∧ width + 8 ≤ period) →
      ∃ t, exec (.ttoSet h p) s = .next t ∧ Answered t 0x0703 h 0 [] ∧ (t.tto i).mode = mode ∧
      (t.tto i).armed = (mode != 0) ∧ (t.tto i).width = width ∧ (t.tto i).period = period ∧
      (t.tto i).polarity = (fld p 18 1 == 1) ∧ (t.tto i).level = (fld p 18 1 == 1) ∧ (t.tto i).report = (fld p 19 1 == 1) ∧
      (mode ≠ 2 ∨ s.nodeNow + 1000 ≤ start → (t.tto i).next = start) ∧
      (mode = 2 → start < s.nodeNow + 1000 → s.nodeNow + 1000 ≤ (t.tto i).next ∧
        (t.tto i).next < s.nodeNow + 1000 + period ∧ ((t.tto i).next - start) % period = 0) ∧
      (∀ j, j ≠ i → t.tto j = s.tto j) ∧ Serves [.servo] s t h) ∧
    (Taken s 0x0704 h p → p.length = 3 → i < 4 → fld p 1 1 < 4 →
      ∃ t, exec (.tciSet h p) s = .next t ∧ Answered t 0x0704 h 0 [] ∧
      t.tci i = { s.tci i with edges := fld p 1 1, filter := fld p 2 1 } ∧ (∀ j, j ≠ i → t.tci j = s.tci j) ∧
      Serves [.servo] s t h) ∧
    (Taken s 0x0705 h p → p.length = 1 → i < 4 → (s.tci i).fifo.words ≠ [] → s.test.regs.fifo.getLsbD (12 + i) = false →
      ∃ t b, exec (.tciRead h p) s = .next t ∧ Answered t 0x0705 h 0 b ∧
      b.drop 2 = (s.tci i).fifo.words.flatMap tciEntry ∧ (t.tci i).fifo.words = [] ∧
      (t.tci i).fifo.rptr = (s.tci i).fifo.wptr ∧ Serves [.servo] s t h) ∧
    (Taken s 0x0705 h p → p.length = 1 → i < 4 → ((s.tci i).fifo.words = [] ∨ s.test.regs.fifo.getLsbD (12 + i) = true) →
      ∃ t, exec (.tciRead h p) s = .next t ∧ Answered t 0x0705 h 0 [0, 2] ∧ (t.tci i).fifo.underrun = true ∧
      (t.tci i).fifo.words = (s.tci i).fifo.words ∧
      Serves [.servo] s t h) ∧
    (Taken s 0x0706 h p → p.length = 1 → i < 64 → ∃ t ps, exec (.balanceResults h p) s = .next t ∧
      AnsweredParts t 0x0706 h ps ∧ ReadOnly s t h) ∧
    (Taken s 0x0707 h [] → ∃ t ps, exec (.ringMap h []) s = .next t ∧ AnsweredParts t 0x0707 h ps ∧
      (ps.headD []).take 4 = le 2 s.ring.root ++ le 2 s.ring.inBal ∧ ReadOnly s t h)

/-- R279, R282, R283, R286, R292, R384, R389, R395, R520: what the display, SAR and test commands answer and change. -/
def Obligations.DisplaySarTestCommandsAnswer : Prop :=
  ∀ (s : State) (h : Hdr) (p : Bytes) (k : Nat), Sound s → k = fld p 0 1 →
    (Taken s 0x0801 h p → p.length = 4 → 0 < fld p 2 2 → fld p 2 2 ≤ 300 → k < 16 → s.ptType k ≠ 0 →
      s.pages.contains (k, fld p 1 1) = true →
      ∃ t, exec (.displayPin h p) s = .next t ∧ Answered t 0x0801 h 0 [] ∧ t.disp.pin = some (k, fld p 1 1) ∧
      t.disp.pinDue = some (s.clk.up + fld p 2 2 * 1000000000) ∧ t.disp.page = (k, fld p 1 1) ∧
      Serves [.disp] s t h) ∧
    (Taken s 0x0801 h p → p.length = 4 → fld p 2 2 = 0 →
      ∃ t, exec (.displayPin h p) s = .next t ∧ Answered t 0x0801 h 0 [] ∧ t.disp.pin = none ∧
      (s.disp.pin = none → ReadOnly s t h) ∧ Serves [.disp] s t h) ∧
    (Taken s 0x0802 h p → p.length = 6 → ∃ t, exec (.displayStatic h p) s = .next t ∧ Answered t 0x0802 h 0 [] ∧
      t.disp = { s.disp with hostSegs := fld p 0 6 } ∧ Serves [.disp] s t h) ∧
    (Taken s 0x0803 h p → k < 8 → 0 < fld p 1 1 → fld p 1 1 ≤ 16 → p.length = 2 + 6 * fld p 1 1 →
      waveValid (readPhases p) = true → s.saf.seals.testBit 0 = true → s.logFull 1 = false →
      ∃ t, exec (.displayWaveform h p) s = .next t ∧ Answered t 0x0803 h 0 [] ∧
      t.disp = { s.disp with waves := put s.disp.waves k (readPhases p) } ∧ t.log.next = s.log.next + 1 ∧
      Serves [.log, .disp] s t h) ∧
    (Taken s 0x0804 h p → p.length = 2 → ∃ t, exec (.displayTemperature h p) s = .next t ∧ Answered t 0x0804 h 0 [] ∧
      t.disp = { s.disp with hostTemp := some (fldI p 0 2), tempDue := some (s.clk.up + 600000000000) } ∧
      Serves [.disp] s t h) ∧
    (Taken s 0x0805 h [] → s.disp.rails = 4 → s.disp.run.isSome = true → s.disp.offPending = false →
      ∃ t, exec (.displayUpdate h []) s = .next t ∧ Answered t 0x0805 h 0 [] ∧
      t.disp = { s.disp with todo := s.disp.todo ++ [(0, 1)] } ∧ Serves [.disp] s t h) ∧
    (Taken s 0x0805 h [] → s.disp.rails = 4 → s.disp.run = none →
      ∃ t, exec (.displayUpdate h []) s = .next t ∧ Answered t 0x0805 h 0 [] ∧
      (s.led.warnFrom = none → s.deferCause 0 = none → s.disp.deferred = none → s.disp.todo = [] → t.disp.run.isSome = true) ∧
      Serves [.disp] s t h) ∧
    (Taken s 0x0901 h p → p.length = 1 → k < 4 → ∃ t ps, exec (.sarResults h p) s = .next t ∧ AnsweredParts t 0x0901 h ps ∧
      ps.flatten = (s.conv k).entries.flatMap (fun e => le 4 (resultWord (s.conv k).suspect e) ++ le 8 e.frame) ∧
      (∀ e ∈ (t.conv k).entries, e.overrun = false) ∧ Serves [.sar] s t h) ∧
    (Taken s 0x0902 h p → p.length = 1 → k < 16 → ∃ t, exec (.sarTrigger h p) s = .next t ∧ Answered t 0x0902 h 0 [] ∧
      t.sar = (s.fireTrigger 49 s.clk.up (bitsOf 4 k)).sar ∧ Serves [.sar] s t h) ∧
    (Taken s 0x0903 h p → p.length = 1 → k < 4 → ∃ t, exec (.sarSelftest h p) s = .next t ∧ Answered t 0x0903 h 0 [] ∧
      t.conv k = { s.conv k with stWait := true } ∧ (∀ j, j ≠ k → t.conv j = s.conv j) ∧ Serves [.sar] s t h) ∧
    (Taken s 0x0A01 h [] → s.saf.seals.testBit 2 = true → s.logFull 1 = false → ∃ t, exec (.testUnlock h []) s = .next t ∧
      Answered t 0x0A01 h 0 [] ∧ t.test.unlocked = true ∧ t.test.regs = s.test.regs ∧
      t.test.due = some (s.clk.up + s.pn ND_TEST_TIMEOUT * 1000000000) ∧ t.log.next = s.log.next + 1 ∧
      Serves [.test, .log] s t h) ∧
    (Taken s 0x0A02 h [] → s.test.unlocked = true → s.logFull 1 = false → ∃ t, exec (.testRelock h []) s = .next t ∧
      Answered t 0x0A02 h 0 [] ∧ t.test.unlocked = false ∧ t.test.regs = TestRegs.reset ∧ t.test.due = none ∧
      t.log.next = s.log.next + 1 ∧ Serves [.test, .eng, .sw, .log] s t h)

/-- R13, R445, R446, R449–R451, R454, R457, R459, R460, R463 (Table 19.3): what the register commands do. -/
def Obligations.HostPortCommandsComplete : Prop :=
  ∀ (s : State), Sound s →
    (∀ (m : Nat) (heth : Bool), s.pwr.coreOn = true → m < 8 → s.otherVia m heth = false →
      ∃ t, exec (.mailboxRelease m heth) s = .next t ∧ t.mbox m = { s.mbox m with rsp := false, via := (t.mbox m).via } ∧
        (∀ n, n ≠ m → t.mbox n = s.mbox n) ∧ t.host = { s.host with mbx := t.host.mbx, peerHold := t.host.peerHold } ∧
        ((∀ x, s.host.peerHold = some x → x.1 ≠ m) → t.host.peerHold = s.host.peerHold) ∧ Keeps [.host] s t) ∧
    (∀ (hi : Bool) (v : BitVec 32), s.pwr.coreOn = true →
      ∃ t, exec (.eventClear hi v) s = .next t ∧ t.host = { s.host with pend := t.host.pend } ∧
        (∀ n, n < 64 → t.host.pend.getLsbD n = (s.host.pend.getLsbD n && !(decide (n / 32 = b2n hi) && v.getLsbD (n % 32)))) ∧
        Keeps [.host] s t) ∧
    (∀ (v : BitVec 32), s.pwr.coreOn = true → s.host.ready = true →
      ∃ t, exec (.heartbeat v) s = .next t ∧ t.host.hostLost = false ∧ t.host.beatFrame = some s.frm ∧
        t.host.wdDue = (if s.pn ND_HOST_WD_TIMEOUT = 0 then none else some (s.clk.up + s.pn ND_HOST_WD_TIMEOUT * 1000000)) ∧
        t.host = { s.host with wdDue := t.host.wdDue, beatFrame := t.host.beatFrame, hostLost := t.host.hostLost,
                               events := t.host.events, pend := t.host.pend } ∧
        (s.host.hostLost = false → t.host.events = s.host.events ∧ t.host.pend = s.host.pend) ∧
        Keeps [.host] s t) ∧
    (s.pwr.coreOn = true →
      exec .frameLoRead s = .next (s.modHost (fun h => { h with
        frameHi := BitVec.ofNat 16 (s.frm / 2 ^ 32), lastRead := le 4 (s.frm % 2 ^ 32) }))) ∧
    (∀ (k : Nat) (bad last b : Bool) (w : Nat) (ws : List (Nat × Bool × Bool)), s.pwr.coreOn = true → k < 4 →
      s.streamHeld k = false → (s.stream k).words = (w, last, b) :: ws →
      ∃ t, exec (.streamPortRead k bad) s = .next t ∧ t.host.lastRead = le 4 w ++ [byteOf (b2n (bad || b) + 4 * b2n last)] ∧
        (t.stream k).words = ws ∧ (t.stream k).rptr = ((s.stream k).rptr + 1) % 2 ^ (streamBits k + 1) ∧
        (t.stream k).poison = ((s.stream k).poison || (bad || b)) ∧
        t.host = { s.host with lastRead := t.host.lastRead, streams := t.host.streams, events := t.host.events, pend := t.host.pend } ∧
        ((bad || b) = false → t.host.events = s.host.events ∧ t.host.pend = s.host.pend) ∧ (∀ j, j ≠ k → t.stream j = s.stream j) ∧ Keeps [.host] s t) ∧
    (∀ (k : Nat) (bad : Bool), s.pwr.coreOn = true → k < 4 → ((s.stream k).words = [] ∨ s.streamHeld k = true ∧ bad = false) →
      ∃ t, exec (.streamPortRead k bad) s = .next t ∧ t.host.lastRead = le 4 (s.stream k).lastWord ++ [2] ∧
        (t.stream k).underrun = true ∧ (t.stream k).words = (s.stream k).words ∧ (t.stream k).rptr = (s.stream k).rptr ∧
        t.host = { s.host with lastRead := t.host.lastRead, streams := t.host.streams } ∧ (∀ j, j ≠ k → t.stream j = s.stream j) ∧ Keeps [.host] s t) ∧
    (∀ (k : Nat) (v : BitVec 32), s.pwr.coreOn = true → v.getLsbD 0 = false → exec (.streamFlush k v) s = .next s) ∧
    (∀ (k : Nat) (v : BitVec 32), s.pwr.coreOn = true → k < 4 → v.getLsbD 0 = true →
      ∃ t, exec (.streamFlush k v) s = .next t ∧ (t.stream k).words = (s.stream k).words.drop (lastUnit (s.stream k).words) ∧
        (∀ x ∈ (t.stream k).words, x.2.1 = false) ∧ (t.stream k).lastWord = 0 ∧ (∀ j, j ≠ k → t.stream j = s.stream j) ∧
        t.host = { s.host with streams := t.host.streams } ∧ Keeps [.host] s t) ∧
    (∀ (v : BitVec 32) (heth : Bool), s.pwr.coreOn = true →
      exec (.registerWrite 0x0038 v heth) s = .next (s.modHost (fun h => { h with scratch := v })) ∧
      exec (.registerWrite 0x0028 v heth) s = .next (s.modHost (fun h => { h with enable := v.getLsbD 0, force := v.getLsbD 1 })) ∧
      (∃ t, exec (.registerWrite 0x0018 v heth) s = .next t ∧ t.host = { s.host with mask := t.host.mask } ∧
        (∀ n, n < 64 → t.host.mask.getLsbD n = if n < 32 then v.getLsbD n else s.host.mask.getLsbD n) ∧ Keeps [.host] s t) ∧
      (∃ t, exec (.registerWrite 0x001C v heth) s = .next t ∧ t.host = { s.host with mask := t.host.mask } ∧
        (∀ n, n < 64 → t.host.mask.getLsbD n = if n < 32 then s.host.mask.getLsbD n else v.getLsbD (n - 32)) ∧ Keeps [.host] s t) ∧
      exec (.registerWrite 0x0020 v heth) s = exec (.eventClear false v) s ∧
      exec (.registerWrite 0x0024 v heth) s = exec (.eventClear true v) s ∧
      exec (.registerWrite 0x002C v heth) s = exec (.heartbeat v) s ∧
      exec (.registerWrite 0x003C v heth) s = .next (s.modHost (fun h => { h with
        badInstr := h.badInstr && !v.getLsbD 0, short := h.short && !v.getLsbD 1, hethRefused := h.hethRefused && !v.getLsbD 2 })) ∧
      ∀ a, a % 4 = 0 → 0x0124 ≤ a → a < 0x0200 → exec (.registerWrite a v heth) s = .next s) ∧
    (∀ (short : Bool), s.pwr.coreOn = true →
      exec (.qspiTransactionError short) s = .next (s.modHost (fun h =>
        { h with short := h.short || short, badInstr := h.badInstr || !short }))) ∧
    (∀ (t : Nat), exec (.replyCacheExpiry t) s = .next ((s.at t).modHost (fun h =>
      { h with replies := h.replies.filter (fun r => t < r.due) })))

/-- R447, R449, R469, R470 (Tables 19.2, 20.1): parts of requests and answers, and a read over HETH. -/
def Obligations.RequestPartsAndDatagramsComplete : Prop :=
  ∀ (s : State), Sound s →
    (∀ (h : Hdr) (code : Nat) (p : Bytes), Taken s code h p →
      ∃ t, exec (.requestPart h code p) s = .next t ∧ Answered t code h 0 [] ∧
        (t.mbox h.mbx).held = some ⟨code, h.tag, [p]⟩ ∧ (t.mbox h.mbx).answer = none ∧ ReadOnly s t h) ∧
    (∀ (h : Hdr) (code : Nat) (p : Bytes) (d : Bytes) (ds : List Bytes), Taken s code h p → ds.length < 30 →
      (s.mbox h.mbx).held = some ⟨code, h.tag, d :: ds⟩ →
      ∃ t, exec (.requestPart { h with flags := ds.length + 1 } code p) s = .next t ∧ Answered t code h 0 [] ∧
        (t.mbox h.mbx).held = some ⟨code, h.tag, d :: ds ++ [p]⟩ ∧ ReadOnly s t h) ∧
    (∀ (h : Hdr) (code : Nat) (p : Bytes) (d : Bytes) (ds : List Bytes), Taken s code h p → ds.length < 31 →
      (s.mbox h.mbx).held = some ⟨code, h.tag, d :: ds⟩ →
      (let g := { h with flags := ds.length + 1 }
       exec (.responsePartRead g code p) s =
        .next ((serveOf g code ((d :: ds).flatten ++ p) ((s.writeReq code g p).dropHeld h.mbx)).send g code))) ∧
    (∀ (h : Hdr) (code k : Nat) (p : Bytes) (ps : List Bytes), Taken s code h p → 0 < k → k < 256 → k < ps.length →
      (s.mbox h.mbx).held = none → (s.mbox h.mbx).answer = some ⟨code, h.tag, ps⟩ →
      ∃ t, exec (.responsePartRead { h with flags := k } code p) s = .next t ∧
        Answered t code h 0 ([byteOf k, byteOf ps.length] ++ ps.getD k []) ∧
        (t.mbox h.mbx).answer = some ⟨code, h.tag, ps⟩ ∧ ReadOnly s t h) ∧
    (∀ (u : Nat) (g : Datagram), s.pwr.coreOn = true → (g.dst, g.dport) = s.listens → s.peer ≠ 0 → g.src ≠ s.peer →
      exec (.hethDatagram u g) s = .next ((s.at u).modHost (fun h =>
        { h with hethDropped := inc32 h.hethDropped, hethRefused := true }))) ∧
    (∀ (u : Nat) (g : Datagram), s.pwr.coreOn = true → (g.dst, g.dport) = s.listens → (s.peer = 0 ∨ g.src = s.peer) →
      (∀ r ∈ s.host.replies, r.src = g.src → r.port = g.port → r.seq ≠ g.seq) → g.op ≠ 1 → g.op ≠ 2 →
      ∃ t, exec (.hethDatagram u g) s = .next t ∧ t.host.hethRefused = true ∧
        (∃ r, t.host.replies = s.host.replies.filter (fun r => !(r.src == g.src && r.port == g.port)) ++ [r] ∧
          r.bytes = [byteOf (g.op % 128 + 128), 4] ++ le 2 g.seq ++ le 2 g.addr ++ le 2 g.len ∧
          r.due = max s.clk.up u + 2000000000) ∧
        t.host = { s.host with hethRefused := true, replies := t.host.replies } ∧ Keeps [.clk, .host] s t) ∧
    (∀ (u : Nat) (g : Datagram), s.pwr.coreOn = true → (g.dst, g.dport) = s.listens → (s.peer = 0 ∨ g.src = s.peer) →
      (∀ r ∈ s.host.replies, r.src = g.src → r.port = g.port → r.seq ≠ g.seq) → g.op = 2 → g.addr = 0x0038 → g.len = 4 →
      g.data.length = 4 →
      ∃ t, exec (.hethDatagram u g) s = .next t ∧ t.host.scratch = BitVec.ofNat 32 (fld g.data 0 4) ∧
        (∃ r, t.host.replies = s.host.replies.filter (fun r => !(r.src == g.src && r.port == g.port)) ++ [r] ∧
          r.bytes = [byteOf 0x82, byteOf 0] ++ le 2 g.seq ++ le 2 0x0038 ++ le 2 4 ∧ r.due = max s.clk.up u + 2000000000) ∧
        t.host = { s.host with scratch := t.host.scratch, replies := t.host.replies } ∧ Keeps [.clk, .host] s t) ∧
    (∀ (u : Nat) (g : Datagram), s.pwr.coreOn = true → (g.dst, g.dport) = s.listens → (s.peer = 0 ∨ g.src = s.peer) →
      (∀ r ∈ s.host.replies, r.src = g.src → r.port = g.port → r.seq ≠ g.seq) → g.op = 1 → g.addr = 0x0038 → g.len = 4 →
      ∃ t, exec (.hethDatagram u g) s = .next t ∧ t.host.lastRead = le 4 s.host.scratch.toNat ∧
        (∃ r, t.host.replies = s.host.replies.filter (fun r => !(r.src == g.src && r.port == g.port)) ++ [r] ∧
          r.bytes = [byteOf 0x81, byteOf 0] ++ le 2 g.seq ++ le 2 0x0038 ++ le 2 4 ++ le 4 s.host.scratch.toNat ∧
          r.due = max s.clk.up u + 2000000000) ∧
        t.host = { s.host with lastRead := t.host.lastRead, replies := t.host.replies } ∧ Keeps [.clk, .host] s t)

/-- R450, R520–R523 (Table 23.1): what writes to the test window do, and what relocks it. -/
def Obligations.TestWindowCommandsComplete : Prop :=
  ∀ (s : State) (v : BitVec 32), Sound s →
    (s.test.unlocked = false → ∀ i, exec (.testClear v) s = .next s ∧ exec (.testStretchWrite i v) s = .next s ∧
      exec (.testFifoWrite v) s = .next s ∧ exec (.testRingWrite v) s = .next s ∧ exec (.testZcWrite v) s = .next s ∧
      exec (.testSafetyWrite v) s = .next s ∧ exec (.testPlcWrite v) s = .next s ∧ exec (.testMramWrite v) s = .next s ∧
      exec (.testWdWrite v) s = .next s) ∧
    (s.test.unlocked = true →
      let r := s.test.regs
      let due := some (s.clk.up + s.pn ND_TEST_TIMEOUT * 1000000000)
      let allow := s.pn ND_TEST_ALLOW
      (v.getLsbD 1 = true → ∃ t, exec (.testClear v) s = .next t ∧ t.test.regs = TestRegs.reset ∧ t.test.unlocked = true ∧
        t.test.due = due ∧ Keeps [.host, .test, .eng, .sw] s t) ∧
      (v.getLsbD 1 = false → exec (.testClear v) s = .next (s.modTest (fun x => { x with due := due }))) ∧
      (allow.testBit 0 = false → ∀ i, exec (.testStretchWrite i v) s = .next (s.modTest (fun x => { x with due := due }))) ∧
      (allow.testBit 1 = false → exec (.testFifoWrite v) s = .next (s.modTest (fun x => { x with due := due }))) ∧
      (allow.testBit 2 = false → exec (.testRingWrite v) s = .next (s.modTest (fun x => { x with due := due }))) ∧
      (allow.testBit 3 = false → exec (.testZcWrite v) s = .next (s.modTest (fun x => { x with due := due }))) ∧
      (allow.testBit 4 = false → exec (.testSafetyWrite v) s = .next (s.modTest (fun x => { x with due := due }))) ∧
      (allow.testBit 5 = false → exec (.testPlcWrite v) s = .next (s.modTest (fun x => { x with due := due }))) ∧
      (allow.testBit 6 = false → exec (.testMramWrite v) s = .next (s.modTest (fun x => { x with due := due }))) ∧
      (allow.testBit 7 = false → exec (.testWdWrite v) s = .next (s.modTest (fun x => { x with due := due }))) ∧
      (∀ i, i < 8 → r.stretch.length = 8 → allow.testBit 0 = true → ∃ t, exec (.testStretchWrite i v) s = .next t ∧
        t.test.regs = { r with stretch := t.test.regs.stretch } ∧
        (∀ j, j ≠ i → t.test.regs.stretch.getD j 0 = r.stretch.getD j 0) ∧
        (let w := t.test.regs.stretch.getD i 0
         w.getLsbD 31 = v.getLsbD 31 ∧ bitsAt w 0 12 = bitsAt v 0 12 ∧
         bitsAt w 12 8 = (if bitsAt v 12 8 ≤ 146 then bitsAt v 12 8 else bitsAt (r.stretch.getD i 0) 12 8)) ∧
        t.test.due = due ∧ Keeps [.host, .test, .eng, .sw] s t) ∧
      (allow.testBit 1 = true → ∃ t, exec (.testFifoWrite v) s = .next t ∧
        t.test.regs = { r with fifo := v.truncate 16 } ∧ t.test.due = due ∧ Keeps [.host, .test, .eng, .sw] s t) ∧
      (allow.testBit 2 = true → ∃ t, exec (.testRingWrite v) s = .next t ∧
        t.test.regs = { r with ringDelay := t.test.regs.ringDelay, ringLka := v.getLsbD 16, ringLkb := v.getLsbD 17 } ∧
        t.test.regs.ringDelay.toNat = (if bitsAt v 0 10 ≤ 1000 then bitsAt v 0 10 else r.ringDelay.toNat) ∧
        t.test.due = due ∧ Keeps [.host, .test, .eng, .sw] s t) ∧
      (allow.testBit 3 = true → ∃ t, exec (.testZcWrite v) s = .next t ∧
        t.test.regs = { r with zc := if -1000000 ≤ v.toInt ∧ v.toInt ≤ 1000000 then v.toInt else r.zc } ∧
        t.test.due = due ∧ Keeps [.host, .test, .eng, .sw] s t) ∧
      (allow.testBit 4 = true → ∃ t, exec (.testSafetyWrite v) s = .next t ∧
        t.test.regs = { r with
          safDelay := t.test.regs.safDelay, safCount := BitVec.ofNat 8 (bitsAt v 8 8), safAction := BitVec.ofNat 2 (bitsAt v 5 2)
          safEntry := BitVec.ofNat 4 (bitsAt v 0 4) } ∧
        t.test.regs.safDelay.toNat = (if bitsAt v 16 16 ≤ 1000 then bitsAt v 16 16 else r.safDelay.toNat) ∧
        t.test.due = due ∧ Keeps [.host, .test, .eng, .sw] s t) ∧
      (allow.testBit 5 = true → ∃ t, exec (.testPlcWrite v) s = .next t ∧ t.test.regs = { r with starve := t.test.regs.starve } ∧
        t.test.regs.starve.toNat = (if bitsAt v 0 5 ≤ 24 then bitsAt v 0 5 else r.starve.toNat) ∧
        t.test.due = due ∧ Keeps [.host, .test, .eng, .sw] s t) ∧
      (allow.testBit 6 = true → ∃ t, exec (.testMramWrite v) s = .next t ∧ t.test.regs = { r with mram := t.test.regs.mram } ∧
        t.test.regs.mram.toNat = (if bitsAt v 0 14 ≤ 10000 then bitsAt v 0 14 else r.mram.toNat) ∧
        t.test.due = due ∧ Keeps [.host, .test, .eng, .sw] s t) ∧
      (allow.testBit 7 = true → ∃ t, exec (.testWdWrite v) s = .next t ∧
        t.test.regs = { r with wrong := v.getLsbD 8, skip := BitVec.ofNat 8 (bitsAt v 0 8) } ∧
        t.test.due = due ∧ Keeps [.host, .test, .eng, .sw] s t) ∧
      (∀ u, ripeAt s.test.due u = true → ∃ t, exec (.testTimeout u) s = .next t ∧ t.test.unlocked = false ∧
        t.test.regs = TestRegs.reset ∧ t.test.due = none ∧ Keeps (touches (.testTimeout u)) s t)) ∧
    (∀ (u i d : Nat) (m : Bytes) (rest : List (Nat × Nat × Bytes)), s.test.held = (i, d, m) :: rest → d ≤ u →
      s.isProducer i = true → ∃ t, exec (.testSafetyDelayRelease u) s = .next t ∧ t.test = { s.test with held := rest } ∧
        (t.scEntry i).sent = [m] ∧ (∀ j, j ≠ i → t.scEntry j = s.scEntry j) ∧ Keeps [.clk, .test, .saf] s t)

/-- R254, R259, R261, R263, R454, R458, R463, R475: the timers of the host port, and records on their way. -/
def Obligations.HostTimersAndRecordsComplete : Prop :=
  ∀ (s : State) (u : Nat), Sound s →
    (∀ b, s.par.batch = some b → b.due ≤ u →
      exec (.batchTimeout u) s = .next ((s.at u).modPar (fun x => { x with batch := none }))) ∧
    (∀ d, s.host.wdDue = some d → d ≤ u → ∃ t, exec (.hostWatchdogTimeout u) s = .next t ∧ t.host.hostLost = true ∧
      t.host.wdDue = none ∧
      (∀ p, p < 16 → s.isSession p = true → s.pb PT_STOP_ON_HOST_LOSS p = true → 7 ∈ (t.sesOf p).causes) ∧
      (∀ p, s.pb PT_STOP_ON_HOST_LOSS p = false → t.pt p = s.pt p) ∧ Keeps [.clk, .host, .pts] s t) ∧
    (∀ k d, k < 4 → s.pn (ND_STREAM_TAIL_0 + k) ≠ 0 → (s.stream k).tailFired = false → (s.stream k).heldSince = some d →
      d + s.pn (ND_STREAM_TAIL_0 + k) * 10000 ≤ u →
      ∃ t, exec (.streamTailTimeout u k) s = .next t ∧ (t.stream k).tail = true ∧ (t.stream k).tailFired = true ∧
        (t.stream k).words = (s.stream k).words ∧ (∀ j, j ≠ k → t.stream j = s.stream j) ∧ Keeps [.clk, .host] s t) ∧
    (∀ d rest, s.recs.due = d :: rest → s.pwr.capoOn = true → s.recs.journal.length < 40960 →
      ∃ t j, exec (.recordSigned u) s = .next t ∧ t.recs.due = rest ∧ t.recs.journal = s.recs.journal ++ [j] ∧
        j.series = d.series ∧ j.seq = d.seq ∧ j.bytes = d.head ++ s.signRec d ∧ Keeps [.clk, .host, .pts, .recs, .keys] s t) ∧
    (∀ b rest, s.recs.queue = b :: rest → 64 ≤ s.streamRoom 0 →
      ∃ t, exec (.recordStreamDequeue u) s = .next t ∧ t.recs = { s.recs with queue := rest } ∧
        (t.stream 0).words.map (fun w => w.1) = (s.stream 0).words.map (fun w => w.1) ++ (wordsOf b).map (fun w => w % 2 ^ 32) ∧
        Keeps [.clk, .host, .pts, .recs] s t)

/-- R39, R41, R46–R48, R57, R60, R248, R258, R265, R522: what the events of a frame and of an interval do. -/
def Obligations.FrameEventsComplete : Prop :=
  ∀ (s : State) (u : Nat), Sound s →
    (∀ obs f back, s.pwr.coreOn = true → s.tickAt ≤ u → s.fw.hand = some (f, back) → f ≤ (s.clk.frame + 1) % 2 ^ 48 →
      (s.clk.frame + 1) % 2 ^ 48 < f + 2 →
      ∃ t, exec (.frameTick u obs) s = .next t ∧ t.clk.frame = (s.clk.frame + 1) % 2 ^ 48 ∧ t.clk.lastTick = s.tickAt ∧
        t.host.pause = true ∧ t.serving = false ∧ t.fw.active = s.fw.active ∧
        Keeps [.clk, .servo, .par, .host, .test, .slices, .courses, .eng, .pts, .sw, .plc, .sar] s t) ∧
    (∀ obs, s.pwr.coreOn = true → s.tickAt ≤ u → s.fw.hand = none →
      ∃ t, exec (.frameTick u obs) s = .next t ∧ t.clk.frame = (s.clk.frame + 1) % 2 ^ 48 ∧
        t.clk.lastTick = s.tickAt ∧ t.clk.up = max s.clk.up u ∧ t.test = { s.test with eff := s.test.regs } ∧
        (∀ e ∈ t.par.staged, e.effect ≠ .nextFrame) ∧
        (if 5 ≤ s.pwr.stage ∧ (s.clk.frame + 1) % 2 ^ 48 % 4000 = 0 then
          t.clk.bdry = some ((s.clk.frame + 1) % 2 ^ 48) ∧ t.clk.bdryAt = s.tickAt ∧
            t.clk.interval = (s.clk.interval + 1) % 2 ^ 32
        else t.clk.bdry = s.clk.bdry ∧ t.clk.interval = s.clk.interval) ∧
        Keeps [.clk, .servo, .par, .host, .test, .slices, .courses, .eng, .pts, .sw, .plc, .sar] s t) ∧
    (∀ b, s.eng.work = some b → s.eng.buf.length = 2 →
      ∃ t, exec (.handoverBlockReady u) s = .next t ∧ t.eng.work = none ∧
        t.eng.buf.getD (b.frame % 2) none = some { b with warn := b.warn || (s.led.commitDue && s.led.warnFrame == b.frame) } ∧
        t.eng.buf.getD (1 - b.frame % 2) none = s.eng.buf.getD (1 - b.frame % 2) none ∧
        t.eng = { s.eng with work := none, buf := t.eng.buf } ∧ Keeps [.clk, .eng] s t) ∧
    (∀ n f cycles stretch, s.eng.cut = some (n, f, cycles, stretch) →
      ∃ t, exec (.fretCutoff u) s = .next t ∧ t.eng = { s.eng with cut := none } ∧
        Raised t 8 (le 2 f ++ le 2 (min stretch 65535) ++ le 4 cycles ++ le 8 n) ∧ Keeps [.clk, .host, .eng] s t) ∧
    (∀ b, s.nextBlock = some b → s.pwr.capoOn = true → s.mayAdd b = true →
      ∃ t, exec (.frameAccumulate u) s = .next t ∧ t.eng.added = some b.frame ∧
        (∀ x ∈ t.eng.buf, ∀ y, x = some y → y.start ≠ b.start) ∧
        t.eng = { s.eng with
          buf := t.eng.buf, added := some b.frame, parityEv := s.eng.parityEv.filter (fun x => x.1 != b.frame) } ∧
        Keeps (touches (.frameAccumulate u)) s t) ∧
    (∀ b, s.clk.bdry = some b → s.pwr.capoOn = true → s.blocksWait = false →
      ∃ t, exec (.intervalBoundary u) s = .next t ∧ t.clk.bdry = none ∧ t.clk.ivalStart = b ∧ t.clk.stepped = false ∧
        t.clk.frame = s.clk.frame ∧ t.eng.restores = [] ∧ t.eng.diagQueue = s.eng.diagQueue ++ s.eng.restores ∧
        (∀ p, p < 16 → (t.pt p).ivl.start = b ∧ (t.pt p).advBase = (t.pt p).regs) ∧
        Keeps (touches (.intervalBoundary u)) s t) ∧
    (∀ b old new, s.eng.change = some (b, old, new) → b + 16 < s.frm → 16 ∉ s.recs.stuckSeries →
      ∃ t, exec (.modeChangeoverComplete u) s = .next t ∧ t.eng.change = none ∧ t.eng.mode = new ∧
        (∃ d ∈ t.recs.due, d.series = 16 ∧ d.seq = s.recs.nodeNext ∧ d.frame = b + 16) ∧
        Keeps (touches (.modeChangeoverComplete u)) s t)

/-- R96, R103–R105, R113–R117 (Tables 4.7, 4.8): what the events of slices and courses do. -/
def Obligations.SliceAndCourseEventsComplete : Prop :=
  ∀ (s : State) (u : Nat), Sound s →
    (∀ c, c < 128 → s.gainLo c < s.gainHi c → s.underTest c = false →
      ((s.slice c).gain = s.gainHi c → ∃ t, exec (.autoGainSwitchUp u c) s = .next t ∧
        t.slice c = { ((s.slice c).takeGain (s.clockAt u + 1) (s.gainLo c)) with seam := true } ∧ (∀ d, d ≠ c → t.slice d = s.slice d) ∧
        Keeps [.clk, .slices] s t) ∧
      (∀ bits, (s.slice c).gain = s.gainLo c →
        2 * s.agCycle c ≤ (s.windowAt c u bits).1.qual * 1000000000 / s.rate (s.governs c) →
        ((s.windowAt c u bits).2 = true ∨ 3 * s.agCycle c ≤ (s.windowAt c u bits).1.qual * 1000000000 / s.rate (s.governs c)) →
        ∃ t, exec (.autoGainSwitchDown u c bits) s = .next t ∧
        t.slice c = { ((s.slice c).takeGain (s.clockAt u + 1) (s.gainHi c)) with seam := true } ∧ (∀ d, d ≠ c → t.slice d = s.slice d) ∧
        Keeps [.clk, .slices] s t)) ∧
    (∀ c, c < 128 → ∃ t, exec (.modulatorRestart u c) s = .next t ∧
      t.slice c = { s.slice c with restarts := (s.slice c).restarts ++ [s.clockAt u] } ∧ (∀ d, d ≠ c → t.slice d = s.slice d) ∧
      Keeps [.clk, .slices] s t) ∧
    (∀ j rest, s.eng.diag = none → s.eng.diagQueue = j :: rest → j < 64 → s.eng.mode = 1 → (s.conv (j % 4)).dac = 0 →
      (s.conv (j % 4)).stRun = false →
      ∃ t, exec (.courseDiagnosisStart u) s = .next t ∧
        t.eng = { s.eng with diag := some ⟨j, s.frm + 1, []⟩, diagQueue := rest, diagWait := 0 } ∧
        t.conv (j % 4) = { s.conv (j % 4) with dac := 1 } ∧ (∀ k, k ≠ j % 4 → t.conv k = s.conv k) ∧
        Keeps [.clk, .eng, .sar] s t) ∧
    (∀ d, s.eng.diag = some d → d.course < 64 → d.first + 32 ≤ s.frm → 4 ≤ d.means.length →
      let odd := stepErrors (s.pn ND_DIAG_LEVEL) (d.means.getD 0 0) (d.means.getD 1 0)
      let even := stepErrors (s.pn ND_DIAG_LEVEL) (d.means.getD 2 0) (d.means.getD 3 0)
      let fo := sliceFails (s.pn CH_COURSE_TOL (2 * d.course)) odd
      let fe := sliceFails (s.pn CH_COURSE_TOL (2 * d.course)) even
      ∃ t, exec (.courseVerdict u) s = .next t ∧ t.eng = { s.eng with diag := none } ∧ (t.conv (d.course % 4)).dac = 0 ∧
        (fe = true → fo = false → (t.course d.course).state = .single ∧ (t.course d.course).good = 1) ∧
        (fe = false → fo = true → (t.course d.course).state = .single ∧ (t.course d.course).good = 0) ∧
        (fe = true → fo = true → (t.course d.course).state = .unresolved) ∧
        (fe = false → fo = false →
          (t.course d.course).state = if (s.course d.course).restoring then .agreed else .unresolved) ∧
        ((t.course d.course).state = .unresolved →
          (t.course d.course).repeatDue = some (u + s.pn ND_DIAG_REPEAT * 1000000000)) ∧
        (∀ i, i ≠ d.course → t.course i = s.course i) ∧
        (∀ c, t.slice c = if c / 2 = d.course then { s.slice c with inject := none, blankTo := none } else s.slice c) ∧
        Keeps [.clk, .host, .slices, .courses, .eng, .sar] s t) ∧
    (∀ j r, s.eng.mode = 1 → (s.course j).state = .unresolved → (s.course j).repeatDue = some r → r ≤ u →
      ∃ t, exec (.courseDiagRepeat u j) s = .next t ∧ t.eng = { s.eng with diagQueue := s.eng.diagQueue ++ [j] } ∧
        t.course j = { s.course j with repeatDue := none } ∧ (∀ i, i ≠ j → t.course i = s.course i) ∧
        Keeps [.clk, .courses, .eng] s t) ∧
    (∀ j, (s.course j).state = .unresolved → 4000 ≤ (s.course j).okRun →
      ∃ t, exec (.courseAgreedRestored u j) s = .next t ∧ (t.course j).state = .agreed ∧ (t.course j).repeatDue = none ∧
        j ∉ t.eng.diagQueue ∧ (∀ i, i ≠ j → i ∈ s.eng.diagQueue → i ∈ t.eng.diagQueue) ∧
        (∀ i, i ≠ j → t.course i = s.course i) ∧ Keeps [.clk, .courses, .eng] s t)

/-- R107, R109, R110, R161, R162, R191, R192, R213 (Tables 8.8, 8.10): sensor faults and pulses. -/
def Obligations.SensorAndPulseEventsComplete : Prop :=
  ∀ (s : State) (u p : Nat), Sound s → p < 16 →
    (∀ src cause, s.faultDue p src cause = true → ∃ t, exec (.sensorFaultDeclared u p src cause) s = .next t ∧
      Raised t 26 [byteOf p, byteOf src, byteOf cause, 0] ∧
      (let c := (s.limitChan p src).getD (8 * p + src)
       (cause < 2 → (t.slice c).limFault = some cause) ∧ (∀ d, d ≠ c → t.slice d = s.slice d)) ∧
      (src < 8 → s.roleUsed p src = true → (s.pt p).fl.roles.length = 8 → (t.roleAt p src).faults = putBit (s.roleAt p src).faults cause true) ∧
      (∀ q, q ≠ p → t.pt q = s.pt q) ∧ Keeps [.clk, .host, .slices, .pts] s t) ∧
    (∀ src cause, s.faultOver p src cause = true → ∃ t, exec (.sensorFaultCleared u p src cause) s = .next t ∧
      Raised t 26 [byteOf p, byteOf src, byteOf cause, 1] ∧
      (let c := (s.limitChan p src).getD (8 * p + src)
       (cause < 2 → (t.slice c).limFault = none) ∧ (∀ d, d ≠ c → t.slice d = s.slice d)) ∧
      (cause = 2 → (t.pt p).fl.exTrip = none) ∧
      (src < 8 → s.roleUsed p src = true → (s.pt p).fl.roles.length = 8 → (t.roleAt p src).faults = putBit (s.roleAt p src).faults cause false) ∧ (∀ q, q ≠ p → t.pt q = s.pt q) ∧
      Keeps [.clk, .host, .slices, .pts] s t) ∧
    (s.excLevel p ≠ 0 → ∀ tripped, ∃ t, exec (.excitationCompliance u p tripped) s = .next t ∧
      (t.pt p).fl.exLevel = tripped ∧
      (t.pt p).fl.exTrip = (if tripped then some s.frm else (s.pt p).fl.exTrip) ∧
      t.pt p = { s.pt p with fl := (t.pt p).fl } ∧ (∀ q, q ≠ p → t.pt q = s.pt q) ∧ Keeps [.clk, .pts] s t) ∧
    (isFluid (s.ptType p) = true → s.pn PT_PLS_MODE p = 1 →
      (∀ lineB rising both held, held < 100 * s.pn PT_PLS_FILTER p →
        exec (.pulseEdge u p lineB rising both held) s = .next (s.at u)) ∧
      (∀ held, 100 * s.pn PT_PLS_FILTER p ≤ held → s.pn PT_PLS_MIN_FREQ p = 0 →
        ∃ t, exec (.pulseEdge u p false true false held) s = .next t ∧
        (t.pt p).plsA.level = true ∧ (t.pt p).plsA.hw = ((s.pt p).plsA.hw + 1) % 2 ^ 16 ∧
        (t.pt p).plsA.lastAt = some (u / 8 * 8) ∧ (t.pt p).plsB = (s.pt p).plsB ∧
        (t.pt p).pulse = { (s.pt p).pulse with pend := (s.pt p).pulse.pend ++ [(u / 8 * 8, false)] } ∧
        (∀ q, q ≠ p → t.pt q = s.pt q) ∧ Keeps [.clk, .pts] s t)) ∧
    (∀ d, (s.pt p).mpo.trailDue = some d → d ≤ u → ∃ t, exec (.mpoPulseEdge u p) s = .next t ∧
      (t.pt p).mpo = { (s.pt p).mpo with
        level := false, trailDue := none, pin := s.ptType p != 0 && s.pb PT_MPO_POLARITY p } ∧ (∀ q, q ≠ p → t.pt q = s.pt q) ∧
      Keeps [.clk, .pts] s t) ∧
    (∀ e rest, s.mpoOn p = true → (s.pt p).mpo.trailDue = none → (s.pt p).mpo.backlog = 0 → (s.pt p).mpo.sched = e :: rest →
      e ≤ u → (s.pt p).mpo.notBefore ≤ e → ∃ t, exec (.mpoPulseEdge u p) s = .next t ∧ (t.pt p).mpo.level = true ∧
      (t.pt p).mpo.pin = (s.ptType p != 0 && !s.pb PT_MPO_POLARITY p) ∧
      (t.pt p).mpo.trailDue = some (e + s.pn PT_MPO_WIDTH p * 1000000) ∧ (t.pt p).mpo.sched = rest ∧
      (t.pt p).mpo.notBefore = e + 2 * (s.pn PT_MPO_WIDTH p * 1000000) ∧ (∀ q, q ≠ p → t.pt q = s.pt q) ∧
      Keeps [.clk, .pts] s t)

/-- R385, R386, R389, R390, R392, R394, R395 (Tables 16.3, 16.6, 16.7): the SAR converters. -/
def Obligations.SarEventsComplete : Prop :=
  ∀ (s : State) (u : Nat), Sound s →
    (∀ i d, i < 8 → 3 ≤ s.pwr.stage → s.sar.timerNext.getD i none = some d → d ≤ u →
      (∀ k, k < 4 → (s.conv k).entries.length = 32) →
      ∃ t, exec (.sarTimerTick u i) s = .next t ∧
        t.sar.timerNext.getD i none = (if s.sarTimer i = 0 then none else some (d + s.sarTimer i)) ∧
        (∀ k j, k < 4 → j < 32 → (t.sarEntry k j).trigAt =
          if dTrigger (s.descr k j) = 1 + i then (s.sarEntry k j).trigAt ++ [d + 10 * dDelay (s.descr k j)]
          else (s.sarEntry k j).trigAt) ∧ Keeps [.clk, .sar] s t) ∧
    (∀ k i a rest, k < 4 → i < 32 → (s.sarEntry k i).trigAt = a :: rest → a ≤ u →
      ∃ t, exec (.sarTriggerFire u k i) s = .next t ∧ (t.sarEntry k i).trigAt = rest ∧
        ((s.conv k).pend.any (fun x => x.1 == i) = true → (t.sarEntry k i).overrun = true ∧ (t.conv k).pend = (s.conv k).pend) ∧
        ((s.conv k).pend.any (fun x => x.1 == i) = false → (i, s.descr k i, a) ∈ (t.conv k).pend ∧
          (t.conv k).pend.length = (s.conv k).pend.length + 1) ∧
        (∀ c, c ≠ k → t.conv c = s.conv c) ∧ Keeps [.clk, .sar] s t) ∧
    (∀ k i d a rest code sampled, k < 4 → (s.conv k).pend = (i, d, a) :: rest → i < 32 → (s.conv k).entries.length = 32 →
      code < 4096 → a ≤ sampled → sampled ≤ u →
      ∃ t, exec (.sarConversionComplete u k code sampled) s = .next t ∧ (t.conv k).pend = rest ∧
        (t.sarEntry k i).valid = true ∧ (t.sarEntry k i).code = code ∧ (∀ c, c ≠ k → t.conv c = s.conv c) ∧
        Keeps [.clk, .host, .pts, .sw, .sar] s t) ∧
    (∀ m, 3 ≤ s.pwr.stage → ∃ t, exec (.monitorScan u m) s = .next t ∧ t.sar.monVsw = monMean 16 m.vsw ∧ t.sar.monVio = monMean 2 m.vio ∧
      t.sar.monVana = monMean 2 m.vana ∧ t.sar.monVcore = monMean 1 m.vcore ∧ t.sar.dieTemp = dieOf m.die ∧
      (s.sar.refHeld = false → t.sar.refPpm = refPpmOf m.refA m.refB) ∧ t.sar.conv = s.sar.conv ∧ Keeps [.clk, .host, .sar, .pwr] s t) ∧
    (∀ k, k < 4 → 3 ≤ s.pwr.stage → (s.conv k).stRun = false → ((s.conv k).stWait = true ∨ ripeAt (s.conv k).stDue u = true) →
      ∃ t, exec (.sarSelftestRun u k) s = .next t ∧
        ((s.conv k).dac = 0 → (k = 3 → ∀ p, p < 16 → (s.outOf p).test ≠ 4) →
          (t.conv k).dac = 3 ∧ (t.conv k).stRun = true ∧ (t.conv k).stWait = false) ∧
        ((s.conv k).dac ≠ 0 → (t.conv k).dac = (s.conv k).dac ∧ (t.conv k).stRun = false ∧ (t.conv k).stWait = true) ∧
        (∀ c, c ≠ k → t.conv c = s.conv c) ∧ Keeps [.clk, .sar] s t) ∧
    (∀ k sums, k < 4 → (s.conv k).stRun = true → sums.length = 4 →
      ∃ t, exec (.sarSelftestComplete u k sums) s = .next t ∧ (t.conv k).dac = 0 ∧ (t.conv k).stRun = false ∧
        ((t.conv k).suspect = true ↔ 16 * s.pn ND_SAR_SELFTEST_TOL < (worstStep sums).1) ∧
        (t.conv k).stCount = inc32 (s.conv k).stCount ∧ (k = 2 → t.sar.refHeld = (t.conv k).suspect) ∧
        (∀ c, c ≠ k → t.conv c = s.conv c) ∧ Keeps [.clk, .host, .sar] s t)

/-- R320, R324–R328 (Tables 13.3, 13.7): the power-line engine. -/
def Obligations.PlcEventsComplete : Prop :=
  ∀ (s : State) (u : Nat), Sound s →
    (∀ port gain, port < 18 → s.pwr.coreOn = true → s.plcPowered port = true → (s.plcPort port).stream = none →
      ∃ t, exec (.preambleDetected u port gain) s = .next t ∧
        t.plcPort port = { s.plcPort port with stream := some false, gain := min gain 42 / 3 * 3 } ∧
        (∀ q, q ≠ port → t.plcPort q = s.plcPort q) ∧ Keeps [.clk, .plc] s t) ∧
    (∀ syms, s.pwr.coreOn = true → ∃ t, exec (.plcTurn u syms) s = .next t ∧ t.plc.turns = (s.plc.turns + 1) % 2 ^ 32 ∧
      (∀ q, (∀ y ∈ syms, y.port ≠ q) → t.plcPort q = s.plcPort q) ∧ Keeps [.clk, .host, .plc, .ring] s t) ∧
    (∀ y, s.pwr.coreOn = true → s.presents y = true → y.alt = false → y.tx = true → y.last = false →
      ∃ t, exec (.plcTurn u [y]) s = .next t ∧
        (0 < s.slots → (t.plcPort y.port).stream = some true ∧ (t.plcPort y.port).lost = (s.plcPort y.port).lost) ∧
        (s.slots = 0 → (t.plcPort y.port).stream = none ∧ (t.plcPort y.port).lost = inc32 (s.plcPort y.port).lost) ∧
        Keeps [.clk, .host, .plc, .ring] s t) ∧
    (∀ p, p < 16 → s.plcPowered p = true → (s.outOf p).slacMatched.isSome = true → (s.plcPort p).link = false →
      s.fw.svcRunning = true → ∃ t, exec (.plcLinkUp u p) s = .next t ∧ (t.plcPort p).link = true ∧
        (t.plcPort p).linkDue = some (max s.clk.up u + s.pn ND_PLC_LINK_TIMEOUT * 1000000) ∧ (t.outOf p).lossDue = none ∧
        (∀ q, q ≠ p → t.plcPort q = s.plcPort q) ∧ Keeps [.clk, .host, .pts, .plc] s t) ∧
    (∀ p d, p < 16 → (s.plcPort p).link = true → (s.plcPort p).linkDue = some d → d ≤ u →
      ∃ t, exec (.plcLinkTimeout u p) s = .next t ∧ (t.plcPort p).link = false ∧ (t.plcPort p).linkDue = none ∧
        (t.outOf p).lossDue = some (max s.clk.up u + s.pn PT_PLC_LOSS p * 1000000) ∧
        (∀ q, q ≠ p → t.plcPort q = s.plcPort q) ∧ Keeps [.clk, .host, .pts, .plc] s t)

/-- R100, R101, R295, R300, R301, R303, R304, R311–R313 (Tables 12.1–12.5, 12.8): pilots and residual currents. -/
def Obligations.OutletPilotAndResidualEventsComplete : Prop :=
  ∀ (s : State) (u : Nat), Sound s →
    (∀ c comp input, let p := pointOf c
      c < 128 → comp < 6 → s.isOutlet p = true → s.contactor p < 32 → s.tripDue u c comp input = true →
      (¬ ((s.outOf p).test = 1 ∧ (s.outOf p).testSlices.head? = some c) → ∃ t, exec (.residualTrip u c comp input) s = .next t ∧ (t.outOf p).trip = true ∧
        (t.swch (s.contactor p)).resHold = true ∧ (s.safeOn (s.contactor p) = false → (t.swch (s.contactor p)).on = false) ∧
        (s.pwr.capoOn = true → (s.outOf p).trip = false → 13 ∈ (t.sesOf p).causes) ∧
        (∀ n, n ≠ s.contactor p → t.swch n = s.swch n) ∧ (∀ q, q ≠ p → t.pt q = s.pt q) ∧
        Keeps [.clk, .host, .pts, .sw] s t) ∧
      ((s.outOf p).test = 1 → (s.outOf p).testSlices.head? = some c → (∀ d, (s.outOf p).testDue = some d → u ≤ d) → ∃ t, exec (.residualTrip u c comp input) s = .next t ∧
        (t.outOf p) = { s.outOf p with testTrip := true } ∧ (t.swch (s.contactor p)).resHold = true ∧
        Keeps [.clk, .pts, .sw] s t)) ∧
    (∀ p c, p < 16 → (s.outOf p).test = 1 → (s.outOf p).testSlices = [c] → c < 128 →
      ((s.outOf p).testTrip = true → ∃ t, exec (.residualSelfTestResult u p) s = .next t ∧ (t.outOf p).test = 2 ∧
        (t.outOf p).testSlices = [] ∧ (t.slice c).inject = none ∧ (t.conv 3).dac = 0 ∧
        Raised t 31 [byteOf p, 2, 0xFF, byteOf c] ∧ (∀ q, q ≠ p → t.pt q = s.pt q) ∧
        Keeps [.clk, .host, .slices, .pts, .sw, .sar] s t) ∧
      ((s.outOf p).testTrip = false → ripeAt (s.outOf p).testDue u = true → (s.sesOf p).state ≠ .authorised →
        ∃ t, exec (.residualSelfTestResult u p) s = .next t ∧ (t.outOf p).test = 3 ∧ (t.slice c).inject = none ∧
        (t.conv 3).dac = 0 ∧ Raised t 31 [byteOf p, 3, 0xFF, byteOf c] ∧ (∀ q, q ≠ p → t.pt q = s.pt q) ∧
        Keeps [.clk, .host, .slices, .pts, .sw, .sar] s t)) ∧
    (∀ p, let e := (s.at u).t0 (s.frm / 4 * 4) + 62500 * p
      p < 16 → 3 ≤ s.pwr.stage → e ≤ u → e ≠ (s.outOf p).periodAt →
      ∃ t, exec (.pilotPeriod u p) s = .next t ∧ (t.outOf p).periodAt = e ∧
        (∀ d a, (s.outOf p).dutyNext = some (d, a) → a + 250000 ≤ e → (t.outOf p).duty = d ∧ (t.outOf p).dutyNext = none) ∧
        ((s.outOf p).dutyNext = none → (t.outOf p).duty = (s.outOf p).duty) ∧ (∀ q, q ≠ p → t.pt q = s.pt q) ∧
        Keeps [.clk, .pts, .sar] s t) ∧
    (∀ p, p < 16 → s.isOutlet p = true → s.pwr.capoOn = true → (s.outOf p).duty ≠ 0 → (s.outOf p).cand ≠ (s.outOf p).code →
      s.pn PT_CP_STABLE p ≤ (s.outOf p).run →
      (4 ≤ (s.outOf p).cand → (s.sesOf p).state ≠ .fault → ∃ t, exec (.pilotCodeAccepted u p) s = .next t ∧
        (t.outOf p).code = (s.outOf p).cand ∧ 12 ∈ (t.sesOf p).causes ∧
        Raised t 29 [byteOf p, 0, byteOf (s.outOf p).code, byteOf (s.outOf p).cand] ∧ (∀ q, q ≠ p → t.pt q = s.pt q) ∧
        Keeps [.clk, .host, .pts] s t) ∧
      ((s.outOf p).code = 0 → (s.outOf p).cand = 1 → (s.sesOf p).state = .idle →
        ∃ t, exec (.pilotCodeAccepted u p) s = .next t ∧ (t.outOf p).code = 1 ∧ (t.sesOf p).state = .authorising ∧
        (t.sesOf p).since = s.frm + 1 ∧ (∀ q, q ≠ p → t.pt q = s.pt q) ∧ Keeps [.clk, .host, .slices, .pts, .sar] s t)) ∧
    (∀ p, p < 16 → s.hasSocket p = true → s.pwr.capoOn = true → (s.outOf p).ppCand ≠ (s.outOf p).ppCode →
      10 ≤ (s.outOf p).ppRun → ∃ t, exec (.proximityCodeAccepted u p) s = .next t ∧
        (t.outOf p).ppCode = (s.outOf p).ppCand ∧
        ((s.outOf p).ppCand = 0 → (s.sesOf p).state = .transferring → 5 ∈ (t.sesOf p).causes) ∧
        (5 ≤ (s.outOf p).ppCand → (s.sesOf p).state ≠ .fault → 12 ∈ (t.sesOf p).causes) ∧
        Raised t 29 [byteOf p, 1, byteOf (s.outOf p).ppCode, byteOf (s.outOf p).ppCand] ∧ (∀ q, q ≠ p → t.pt q = s.pt q) ∧
        Keeps [.clk, .host, .pts] s t)

/-- R305–R308, R310, R314, R315 (Tables 12.6, 12.12): communication and the contactor. -/
def Obligations.OutletCommunicationAndWeldEventsComplete : Prop :=
  ∀ (s : State) (u p : Nat), Sound s → p < 16 → s.isSession p = true →
    (∀ m, s.seccServes p = true →
      (∀ x, m.kind = 0 → s.chooseProtocol p m.offered = some x → ∃ t, exec (.v2gMessageReceived u p m) s = .next t ∧
        (t.outOf p).protocol = x ∧ (t.outOf p).v2g = true ∧ (t.outOf p).protoState = m.state % 256 ∧
        (∀ q, q ≠ p → t.pt q = s.pt q) ∧ Keeps [.clk, .pts] s t) ∧
      (m.kind = 7 → ∃ t, exec (.v2gMessageReceived u p m) s = .next t ∧ (t.outOf p).wants = false ∧ (t.outOf p).v2g = false ∧
        4 ∈ (t.sesOf p).causes ∧ (∀ q, q ≠ p → t.pt q = s.pt q) ∧ Keeps [.clk, .pts] s t) ∧
      (m.kind = 10 → ∃ t, exec (.v2gMessageReceived u p m) s = .next t ∧ (t.outOf p).tgtV = m.tgtV % 65536 ∧
        (t.outOf p).tgtI = m.tgtI % 65536 ∧ t.sesOf p = s.sesOf p ∧ (∀ q, q ≠ p → t.pt q = s.pt q) ∧ Keeps [.clk, .pts] s t)) ∧
    ((s.outOf p).v2g = true → (s.outOf p).paused = false → ∃ t, exec (.v2gSessionTimeout u p) s = .next t ∧
      (t.outOf p).v2g = false ∧ (t.outOf p).wants = false ∧ ((s.sesOf p).state = .transferring → 11 ∈ (t.sesOf p).causes) ∧
      (∀ q, q ≠ p → t.pt q = s.pt q) ∧ Keeps [.clk, .pts] s t) ∧
    (∀ d, (s.outOf p).lossDue = some d → d ≤ u → (s.plcPort p).link = false → s.fw.svcRunning = true →
      ∃ t, exec (.plcLossTimeout u p) s = .next t ∧ (t.outOf p).lossDue = none ∧
      ((s.sesOf p).state = .transferring → s.pn PT_OUT_HLC p = 1 → (s.outOf p).protocol ≠ 0 → 11 ∈ (t.sesOf p).causes) ∧
      (∀ q, q ≠ p → t.pt q = s.pt q) ∧ Keeps [.clk, .pts] s t) ∧
    (∀ d, (s.outOf p).dcDue = some d → d ≤ u → ∃ t, exec (.dcStatusTimeout u p) s = .next t ∧
      t.outOf p = { s.outOf p with dcDue := none, dcShutdown := true } ∧ t.sesOf p = s.sesOf p ∧
      (∀ q, q ≠ p → t.pt q = s.pt q) ∧ Keeps [.clk, .pts] s t) ∧
    (∀ run heard, s.fw.svcRunning = true → ∃ t, exec (.cmSlacParmReq u run heard) s = .next t ∧
      (∀ q ∈ heard, s.slacEligible q = true → run ∈ (t.outOf q).slacPending) ∧
      (∀ q, q ∉ heard ∨ s.slacEligible q = false → t.pt q = s.pt q) ∧ Keeps [.clk, .pts] s t) ∧
    (∀ run a mac, s.slacEligible p = true → run ∈ (s.outOf p).slacPending →
      ∃ t, exec (.slacRunJudged u run [(p, [a])] mac) s = .next t ∧ run ∉ (t.outOf p).slacPending ∧
      (a ≤ s.pn PT_SLAC_ATTEN_MAX p → (t.outOf p).slacMatched = some run ∧ (t.outOf p).mac = padTo 6 mac) ∧
      (s.pn PT_SLAC_ATTEN_MAX p < a → (t.outOf p).slacMatched = (s.outOf p).slacMatched ∧
        (t.outOf p).slacFails = inc32 (s.outOf p).slacFails) ∧
      (∀ q, q ≠ p → run ∉ (s.outOf q).slacPending → t.pt q = s.pt q) ∧ Keeps [.clk, .pts] s t) ∧
    (∀ src slot, (s.at u).weldCondition p = some (src, slot) → (s.outOf p).weld = false → s.pwr.capoOn = true →
      ∃ t, exec (.weldedContactDeclared u p) s = .next t ∧ (t.outOf p).weld = true ∧ 17 ∈ (t.sesOf p).causes ∧
      Raised t 32 [byteOf p, byteOf (b2n (src == 1)), byteOf slot, 0] ∧
      (s.pb PT_WELD_BACKUP p = true → (s.orderNow = true → 64 + p ∈ (t.swch (s.otherSwitch p)).hold4) ∧
        (s.orderNow = false → DieOp.hold (64 + p) (s.otherSwitch p) ∈ t.sw.waitOps)) ∧
      (s.pb PT_WELD_BACKUP p = false → t.sw = s.sw) ∧ (∀ q, q ≠ p → t.pt q = s.pt q) ∧
      Keeps [.clk, .host, .pts, .sw] s t) ∧
    (∀ g, (s.outOf p).weld = true → (s.outOf p).weldGone = some g → g + 1000000000 ≤ u →
      ∃ t, exec (.weldCleared u p) s = .next t ∧ t.outOf p = { s.outOf p with weld := false, weldGone := none } ∧
      Raised t 32 [byteOf p, byteOf (b2n (s.outOf p).weldMirror), byteOf (s.outOf p).weldSlot, 1] ∧
      t.sesOf p = s.sesOf p ∧ (∀ q, q ≠ p → t.pt q = s.pt q) ∧ Keeps [.clk, .host, .pts] s t)

/-- R226, R228–R230, R428 (Table 9.6): the timers of a session. -/
def Obligations.SessionTimersComplete : Prop :=
  ∀ (s : State) (u p : Nat), Sound s → p < 16 →
    ((s.sesOf p).state = .authorising → (s.sesOf p).entry + s.pn PT_AUTH_TIMEOUT p * 1000000000 ≤ u →
      ∃ t, exec (.authTimeout u p) s = .next t ∧ (t.sesOf p).state = .idle ∧ (t.sesOf p).since = s.frm + 1 ∧
      (t.sesOf p).key = none ∧ (t.sesOf p).causes = [] ∧ (∀ q, q ≠ p → t.pt q = s.pt q) ∧ Keeps [.clk, .host, .pts] s t) ∧
    ((s.sesOf p).state = .authorised → (s.sesOf p).entry + s.pn PT_START_TIMEOUT p * 1000000000 ≤ u →
      ∃ t, exec (.startTimeout u p) s = .next t ∧ (t.sesOf p).state = .idle ∧ (t.sesOf p).since = s.frm + 1 ∧
      (t.sesOf p).key = none ∧ (t.sesOf p).causes = [] ∧ (∀ q, q ≠ p → t.pt q = s.pt q) ∧ Keeps [.clk, .host, .pts] s t) ∧
    (∀ d, (s.sesOf p).state = .stopping → (s.sesOf p).offDone = false → (s.sesOf p).graceDue = some d → d ≤ u →
      ∃ t, exec (.stopGraceExpiry u p) s = .next t ∧ (t.sesOf p).state = .stopping ∧ (t.sesOf p).offDone = true ∧
      (t.sesOf p).settleDue = some (max s.clk.up u + s.pn PT_STOP_SETTLE p * 1000000) ∧
      (∀ n ∈ s.pathSwitches p, s.sw.powered = true → s.sw.link = true → (s.swch n).held134 = false → (t.swch n).on = false) ∧
      (∀ n, n ∉ s.pathSwitches p → t.swch n = s.swch n) ∧ (∀ q, q ≠ p → t.sesOf q = s.sesOf q) ∧
      Keeps [.clk, .pts, .sw] s t) ∧
    (∀ d, (s.sesOf p).state = .stopping → (s.sesOf p).offDone = true → (s.sesOf p).settleDue = some d → d ≤ u →
      ∃ t, exec (.stopSettleExpiry u p) s = .next t ∧ (t.sesOf p).state = .closed ∧ (t.sesOf p).since = s.frm + 1 ∧
      (t.sesOf p).eFrame = some (max s.frm (s.sesOf p).sFrame) ∧ (t.sesOf p).endCause = (s.sesOf p).stopCause ∧
      (∀ q, q ≠ p → t.pt q = s.pt q) ∧ Keeps [.clk, .host, .pts] s t)

/-- R356, R358, R360–R362, R365–R367, R369, R373, R375 (Tables 15.1–15.4, 15.8–15.10): the safety functions and the seals. -/
def Obligations.SafetyEventsComplete : Prop :=
  ∀ (s : State) (u : Nat), Sound s →
    (∀ k chanB level n, k < 32 → n < s.pn (PT_SI_FILTER_0 + k % 2) (k / 2) →
      exec (.siLevelChange u k chanB level n) s =
        .next ((s.at u).modSaf (fun x => { x with lands := putBit x.lands (2 * k + b2n chanB) level }))) ∧
    (∀ k n, k < 32 → s.saf.live = true → s.pn (PT_SI_FILTER_0 + k % 2) (k / 2) ≤ n → s.siMode k ≠ 0 →
      s.saf.liveAt + (s.pn (PT_SI_FILTER_0 + k % 2) (k / 2) - 1) * 100000 ≤ u →
      ∃ t, exec (.siLevelChange u k false false n) s = .next t ∧ (t.safIn k).a = some false ∧ (t.safIn k).demand = true ∧
        (t.safIn k).trip = true ∧ (∀ c ∈ s.siSwitches k, k ∈ (t.swch c).siHold) ∧
        ((s.safIn k).demand = false → Raised t 41 [0, byteOf k, 0] ∧ (s.isSession (k / 2) = true → 14 ∈ (t.sesOf (k / 2)).causes)) ∧
        (∀ c, c ∉ s.siSwitches k → (s.safIn k).latched = true ∨ k ∉ (s.swch c).hold4 → t.swch c = s.swch c) ∧
        (∀ j, j ≠ k → t.safIn j = s.safIn j) ∧ Keeps [.clk, .host, .pts, .sw, .saf] s t) ∧
    (∀ k d, k < 32 → (s.safIn k).latched = false → (s.safIn k).disFrom = some d →
      d + s.pn (PT_SI_TD_0 + k % 2) (k / 2) * 1000000 ≤ u →
      ∃ t, exec (.safetyDiscrepancyLatch u k) s = .next t ∧ (t.safIn k).latched = true ∧ (t.safIn k).demand = true ∧
        (∀ c ∈ s.siSwitches k, (s.orderNow = true → k ∈ (t.swch c).hold4) ∧ (s.orderNow = false → DieOp.hold k c ∈ t.sw.waitOps)) ∧
        Raised t 39 [byteOf k, byteOf (k / 2), 0, byteOf (s.safIn k).first] ∧
        (s.isSession (k / 2) = true → 15 ∈ (t.sesOf (k / 2)).causes) ∧ (∀ j, j ≠ k → t.safIn j = s.safIn j) ∧
        Keeps [.clk, .host, .pts, .sw, .saf] s t) ∧
    (∀ k d, k < 32 → (s.safIn k).trip = true → (s.safIn k).demand = false → (s.safIn k).latched = false →
      (s.safIn k).autoDue = some d → d ≤ u → ∃ t, exec (.safetyAutoRelease u k) s = .next t ∧ (t.safIn k).trip = false ∧
        (∀ c, k ∉ (t.swch c).siHold) ∧ (∀ c, (t.swch c).on = (s.swch c).on) ∧ Raised t 41 [0, byteOf k, 2] ∧
        (∀ j, j ≠ k → t.safIn j = s.safIn j) ∧ Keeps [.clk, .host, .sw, .saf] s t) ∧
    (∀ i d, i < 16 → (s.scEntry i).ended = true → (s.scEntry i).demand = false → (s.scEntry i).autoDue = some d → d ≤ u →
      ∃ t, exec (.safetyAutoRelease u (32 + i)) s = .next t ∧
        (∀ p, p ∈ (t.scEntry i).held ↔ p ∈ (s.scEntry i).held ∧ s.siRestart (2 * p) ≠ 1) ∧ (t.scEntry i).autoDue = none ∧
        (∀ j, j ≠ i → t.scEntry j = s.scEntry j) ∧ Keeps [.clk, .host, .sw, .saf] s t) ∧
    (∀ i d, let e := s.scEntry i
      let kind := scKind (s.scConf i)
      s.isProducer i = true → s.saf.live = true → s.pwr.capoOn = true → s.pwr.capoReset = false → e.sendDue = some d → d ≤ u →
      s.behindDelay i = false → s.test.eff.safAction = 0 →
      ∃ t, exec (.safetyMessageSend u i) s = .next t ∧
        (t.scEntry i).sent = [scMessage (s.scIdentity i) e.seq kind
          (b2n (s.producerDemand i) + 2 * b2n s.sw.failsafe + 4 * b2n s.testing)
          (if kind = 2 then s.pn (ND_SC_POINTS_0 + i) else 0) (s.frm % 2 ^ 32)] ∧
        (t.scEntry i).seq = (e.seq + 1) % 2 ^ 16 ∧ (t.scEntry i).sentDemand = s.producerDemand i ∧
        (t.scEntry i).sendDue = some (u + s.pn (ND_SC_TIME_0 + i) * 1000000) ∧ (∀ j, j ≠ i → t.scEntry j = s.scEntry j) ∧
        Keeps [.clk, .saf] s t) ∧
    (∀ i msg, s.isConsumer i = true → s.saf.live = true → s.pwr.capoOn = true → s.pwr.capoReset = false →
      s.behindDelay i = false → s.test.eff.safAction = 0 → msg.length = 16 → fld msg 6 2 = 1 →
      (fld msg 12 4 ≠ scCrc (s.scIdentity i) msg → (s.scEntry i).state ≠ 2 →
        ∃ t, exec (.safetyMessageReceived u i msg) s = .next t ∧ (t.scEntry i).state = 2 ∧ Raised t 40 [byteOf i, 1, 0, 0] ∧
        (∀ p ∈ s.scPoints i, ∀ c ∈ s.remoteSwitches p, (s.orderNow = true → 32 + i ∈ (t.swch c).hold4) ∧
          (s.orderNow = false → DieOp.hold (32 + i) c ∈ t.sw.waitOps)) ∧
        (∀ p ∈ s.scPoints i, s.isSession p = true → 16 ∈ (t.sesOf p).causes) ∧
        Keeps [.clk, .host, .pts, .sw, .saf, .ring] s t) ∧
      (fld msg 12 4 = scCrc (s.scIdentity i) msg → fld msg 2 1 = scKind (s.scConf i) → (s.scEntry i).state = 1 →
        (s.scEntry i).demand = false → fld msg 3 1 % 2 = 0 →
        (∀ l, (s.scEntry i).last = some l → 0 < (fld msg 0 2 + 65536 - l) % 65536 ∧ (fld msg 0 2 + 65536 - l) % 65536 < 5) →
        ∃ t, exec (.safetyMessageReceived u i msg) s = .next t ∧ (t.scEntry i).last = some (fld msg 0 2) ∧
        (t.scEntry i).lastAt = max s.clk.up u ∧ (t.scEntry i).state = 1 ∧ (∀ j, j ≠ i → t.scEntry j = s.scEntry j) ∧
        Keeps [.clk, .saf] s t)) ∧
    (∀ i, s.isConsumer i = true → s.pwr.capoOn = true → (s.scEntry i).state = 1 →
      (s.scEntry i).lastAt + s.pn (ND_SC_TIME_0 + i) * 1000000 < u →
      ∃ t, exec (.safetyTimeExpectationExpiry u i) s = .next t ∧ (t.scEntry i).state = 2 ∧ Raised t 40 [byteOf i, 0, 0, 0] ∧
        (∀ p ∈ s.scPoints i, ∀ c ∈ s.remoteSwitches p, (s.orderNow = true → 32 + i ∈ (t.swch c).hold4) ∧
          (s.orderNow = false → DieOp.hold (32 + i) c ∈ t.sw.waitOps)) ∧
        Keeps [.clk, .host, .pts, .sw, .saf, .ring] s t) ∧
    (∀ i closed since, i < 8 → since + 20000000 ≤ u → s.pwr.capoOn = true → s.pwr.capoReset = false → s.host.metering = true →
      putBit s.saf.seals i closed ≠ s.saf.seals →
      ∃ t, exec (.sealChange u i closed since) s = .next t ∧ t.saf.seals = putBit s.saf.seals i closed ∧
        Raised t 42 [byteOf s.saf.seals, byteOf (putBit s.saf.seals i closed), 0, 0] ∧
        Keeps (touches (.sealChange u i closed since)) s t)

/-- R342–R345 (Tables 14.5, 14.9): protection of a switch channel. -/
def Obligations.SwitchProtectionEventsComplete : Prop :=
  ∀ (s : State) (u n : Nat), Sound s → n < 32 → s.sw.powered = true →
    (∀ mA, (s.swch n).on = true →
      (s.safeOn n = false → (s.swch n).limiting = false → ∃ t, exec (.switchCurrentLimit u n true mA) s = .next t ∧
        (t.swch n).limiting = true ∧ (t.swch n).mA = mA ∧ (t.swch n).on = true ∧
        (t.swch n).ovlDue = some (u + s.pn (PT_SW_OVL_TIME_0 + n % 2) (n / 2) * 1000000) ∧
        (∀ m, m ≠ n → t.swch m = s.swch m) ∧ Keeps [.clk, .sw] s t) ∧
      (∃ t, exec (.switchCurrentLimit u n false mA) s = .next t ∧ (t.swch n).limiting = false ∧ (t.swch n).ovlDue = none ∧
        (t.swch n).onSince = some u ∧ (∀ m, m ≠ n → t.swch m = s.swch m) ∧ Keeps [.clk, .sw] s t)) ∧
    (∀ d, (s.swch n).limiting = true → (s.swch n).ovlDue = some d → d ≤ u → s.safeOn n = false →
      ∃ t, exec (.overloadTimeout u n) s = .next t ∧ (t.swch n).on = false ∧ (t.swch n).ovl = true ∧
        (t.swch n).retryDue = some (u + s.pn (PT_SW_RETRY_DELAY_0 + n % 2) (n / 2) * 1000000) ∧
        Raised t 34 [byteOf n, byteOf (n / 2), 0] ∧
        (n ∈ s.pathSwitches (n / 2) → s.isSession (n / 2) = true → 18 ∈ (t.sesOf (n / 2)).causes) ∧
        (∀ m, m ≠ n → t.swch m = s.swch m) ∧ Keeps [.clk, .host, .pts, .sw] s t) ∧
    (∀ tj, (s.swch n).therm = false → 1700 ≤ tj →
      (s.safeOn n = false → ∃ t, exec (.thermalLatch u n tj) s = .next t ∧ (t.swch n).therm = true ∧ (t.swch n).on = false ∧
        (t.swch n).tj = tj ∧ (t.swch n).retryDue = none ∧ Raised t 35 [byteOf n, byteOf (n / 2), 0] ∧
        (∀ m, m ≠ n → t.swch m = s.swch m) ∧ Keeps [.clk, .host, .pts, .sw] s t) ∧
      (s.safeOn n = true → ∃ t, exec (.thermalLatch u n tj) s = .next t ∧ (t.swch n).regulating = true ∧
        (t.swch n).on = (s.swch n).on ∧ Raised t 35 [byteOf n, byteOf (n / 2), 2] ∧ (∀ m, m ≠ n → t.swch m = s.swch m) ∧
        Keeps [.clk, .host, .sw] s t)) ∧
    (∀ tj, tj ≤ 1650 → (s.swch n).regulating = false → (s.swch n).therm = true → (s.swch n).fsHold = false →
      0 < (s.swch n).retries → ∃ t, exec (.thermalRelease u n tj) s = .next t ∧ (t.swch n).therm = false ∧
        (t.swch n).retries = (s.swch n).retries - 1 ∧ (t.swch n).ovl = false ∧ (t.swch n).reapply = true ∧
        (∀ m, m ≠ n → t.swch m = s.swch m) ∧ Keeps [.clk, .host, .sw] s t) ∧
    (∀ d, (s.swch n).retryDue = some d → d ≤ u → (s.swch n).fsHold = false → (s.swch n).therm = false →
      ∃ t, exec (.retryDelayExpiry u n) s = .next t ∧ (t.swch n).retryDue = none ∧
        (0 < (s.swch n).retries → (t.swch n).retries = (s.swch n).retries - 1 ∧ (t.swch n).ovl = false ∧
          (t.swch n).reapply = true ∧ Raised t 34 [byteOf n, byteOf (n / 2), 2]) ∧
        ((s.swch n).retries = 0 → (t.swch n).exhausted = true ∧ (t.swch n).ovl = (s.swch n).ovl ∧
          Raised t 34 [byteOf n, byteOf (n / 2), 1]) ∧
        (∀ m, m ≠ n → t.swch m = s.swch m) ∧ Keeps [.clk, .host, .sw] s t) ∧
    (∀ a, (s.swch n).onSince = some a → a + 10000000000 ≤ u → (s.swch n).on = true → (s.swch n).therm = false →
      ∃ t, exec (.retryCounterReload u n) s = .next t ∧
        t.swch n = { s.swch n with retries := s.pn (PT_SW_RETRIES_0 + n % 2) (n / 2) } ∧ (∀ m, m ≠ n → t.swch m = s.swch m) ∧
        Keeps [.clk, .sw] s t) ∧
    (∀ since, (s.swch n).on = false → s.ptType (n / 2) ≠ 0 → (s.pn PT_SW_OL_ENABLE (n / 2)).testBit (n % 2) = true →
      (s.swch n).offAt + 2000000 ≤ since → since + 10000000 ≤ u →
      ((s.swch n).openLoad = false → ∃ t, exec (.openLoadDeclared u n since) s = .next t ∧
        t.swch n = { s.swch n with openLoad := true } ∧ Raised t 36 [byteOf n, byteOf (n / 2), 0] ∧
        (∀ m, m ≠ n → t.swch m = s.swch m) ∧ Keeps [.clk, .host, .sw] s t) ∧
      ((s.swch n).openLoad = true → ∃ t, exec (.openLoadCleared u n since) s = .next t ∧
        t.swch n = { s.swch n with openLoad := false } ∧ Raised t 36 [byteOf n, byteOf (n / 2), 1] ∧
        (∀ m, m ≠ n → t.swch m = s.swch m) ∧ Keeps [.clk, .host, .sw] s t))

/-- R28, R346–R350 (Tables 14.1, 14.2): the supply and the watchdog of the switch die. -/
def Obligations.SwitchSupplyAndWatchdogEventsComplete : Prop :=
  ∀ (s : State) (u : Nat), Sound s →
    (∀ v, s.sw.powered = true → s.sw.uv = false → v ≤ 1630 → s.sw.phase < 3 →
      ∃ t, exec (.vswUndervoltage u v) s = .next t ∧ t.sw.uv = true ∧ t.sw.vsw = v ∧ t.sw.phase = s.sw.phase ∧
        (∀ n, n < 32 → s.safeOn n = false → (s.sw.phase = 0 ∨ (s.swch n).ride = false) →
          (t.swch n).on = false ∧ (t.swch n).uv = true) ∧
        (∀ n, s.safeOn n = true ∨ (s.sw.phase ≠ 0 ∧ (s.swch n).ride = true) → t.swch n = s.swch n) ∧
        Raised t 37 [0xFF, 0xFF, 0] ∧ Keeps [.clk, .host, .pts, .sw] s t) ∧
    (∀ v, s.sw.powered = true → s.sw.uv = true → 1720 ≤ v →
      ∃ t, exec (.vswRestore u v) s = .next t ∧ t.sw.uv = false ∧ t.sw.vsw = v ∧
        (∀ n, t.swch n = if (s.swch n).uv then { s.swch n with uv := false, reapply := true } else s.swch n) ∧
        t.sw.phase = (if s.sw.uvNormal && s.sw.phase == 0 then 3 else s.sw.phase) ∧ Keeps [.clk, .host, .sw] s t) ∧
    (∀ v, s.sw.powered = true → s.sw.belowRide = false → v ≤ 620 →
      ∃ t, exec (.vswBelowRide u v) s = .next t ∧ t.sw.belowRide = true ∧
        (∀ n, n < 32 → s.safeOn n = false → (t.swch n).on = false ∧ (t.swch n).uv = true) ∧
        (∀ n, s.safeOn n = true → t.swch n = s.swch n) ∧ Raised t 37 [0xFF, 0xFF, 2] ∧ Keeps [.clk, .host, .pts, .sw] s t) ∧
    (∀ v, s.sw.powered = true → v ≤ 530 → ∃ t, exec (.switchDieReset u v) s = .next t ∧
      t.sw = { SwitchDie.reset with
        waiting := s.sw.waiting, waitOps := s.sw.waitOps, ch := s.sw.ch.map (SwCh.restart s.pwr.coreOn) } ∧
      (∀ p n, p < 16 → n ∈ s.pathSwitches p → n / 2 = p → s.isSession p = true → 18 ∈ (t.sesOf p).causes) ∧
      Keeps [.clk, .pts, .sw] s t) ∧
    (∀ v, s.sw.powered = false → 530 ≤ v → s.testing = false → s.sw.waiting = [] → s.sw.waitOps = [] →
      ∃ t, exec (.switchDiePowerUp u v) s = .next t ∧ t.sw.powered = true ∧ t.sw.phase = 1 ∧
        t.sw.phaseDue = some (u + 10000000000) ∧ t.sw.armed = false ∧
        (∀ n, n < 32 → (t.swch n).on = false ∧
          (let c := { (s.swch n).restart s.pwr.coreOn with retries := s.pn (PT_SW_RETRIES_0 + n % 2) (n / 2) }
           (s.pwr.capoOn = false → t.swch n = c) ∧
           (s.pwr.capoOn = true → s.pwr.coreOn = true → t.swch n = { c with
             limit := s.pn (PT_SW_LIMIT_0 + n % 2) (n / 2), slew := s.pn (PT_SW_SLEW_0 + n % 2) (n / 2)
             ride := (s.pn PT_SW_RIDE (n / 2)).testBit (n % 2) }))) ∧
        Keeps [.clk, .sw] s t) ∧
    (∀ d, s.sw.phaseDue = some d → d ≤ u → s.sw.phase ≠ 0 → ∃ t, exec (.supplyPhaseTimeout u) s = .next t ∧ t.sw.phase = 0 ∧
      t.sw.phaseDue = none ∧ t.sw.ch = s.sw.ch ∧ Raised t 37 [0xFF, 0xFF, 3] ∧ Keeps [.clk, .host, .sw] s t) ∧
    (∀ key seed, s.sw.rearm = true → s.sw.powered = true → seed ≠ 0 → s.sw.waiting = [] → s.sw.waitOps = [] → ∃ t, exec (.watchdogArm u key seed) s = .next t ∧
      t.sw.armed = true ∧ t.sw.key = key ∧ t.sw.chal = lfsr 16 seed ∧ t.sw.goodFeeds = 0 ∧ t.sw.rearm = false ∧
      t.sw.fstable = (if s.saf.seals.testBit 1 then s.pn ND_SW_FAILSAFE else s.sw.fstable) ∧ t.sw.window = s.pn ND_WD_WINDOW ∧
      (∀ n, n < 32 → if (s.swch n).held134 then (t.swch n).cmd = t.safeOn n else (t.swch n).on = (s.swch n).on) ∧ Keeps [.clk, .sw] s t) ∧
    (∀ l, s.pwr.capoOn = true → s.pwr.capoReset = false → s.sw.powered = true → s.sw.link = true → s.sw.armed = true →
      s.test.regs.skip = 0 → s.test.regs.wrong = false → s.sw.lastGood = some l →
      (s.sw.window * 1000000 ≤ 4 * (u - l) → u - l ≤ s.sw.window * 1000000 → s.sw.failsafe = false →
        ∃ t, exec (.watchdogFeed u) s = .next t ∧ t.sw.lastGood = some u ∧
        t.sw.ans = (lfsr 16 s.sw.chal ^^^ s.sw.key) ∧ t.sw.chal = lfsr 16 (lfsr 16 s.sw.chal ^^^ s.sw.key) ∧
        t.sw.failsafe = false ∧ t.sw.ch = s.sw.ch ∧ Keeps [.clk, .sw] s t) ∧
      (4 * (u - l) < s.sw.window * 1000000 → ∃ t, exec (.watchdogFeed u) s = .next t ∧ t.sw.failsafe = true ∧
        t.sw.wcause = 2 ∧ t.sw.armed = false ∧ (∀ n, n < 32 → s.safeOn n = false → (t.swch n).on = false) ∧
        Keeps [.clk, .sw] s t)) ∧
    (∀ l, s.sw.powered = true → s.sw.armed = true → s.sw.lastGood = some l → l + s.sw.window * 1000000 ≤ u →
      ∃ t, exec (.watchdogWindowExpiry u) s = .next t ∧ t.sw.failsafe = true ∧ t.sw.armed = false ∧
        t.sw.wcause = (if s.sw.link then 0 else 3) ∧
        (∀ n, n < 32 → (t.swch n).fsHold = true ∧ (t.swch n).cmd = s.safeOn n ∧
          (s.safeOn n = false → (t.swch n).on = false)) ∧ Keeps [.clk, .sw] s t) ∧
    (exec (.dieLinkLost u) s = .next ((s.at u).modSw (fun d => { d with link := false })))

/-- R66–R69, R71, R72, R77, R80, R88 (Tables 3.4, 19.11): PTP. The filter's output, the units of 0.2 ns, and the one-step residence time, a
free value, are the model's (log 15). -/
def Obligations.PtpEventsComplete : Prop :=
  ∀ (s : State) (u : Nat), Sound s →
    (∀ m x, s.ptpOn m.port = true → m.supported = true → m.domain = s.pn ND_PTP_DOMAIN → s.servo.master = some x →
      x.port = m.port → x.sender = m.sender → s.clk.loaded = true → s.servo.refused = none →
      let t1 := 5 * (m.stamp + m.corr)
      let t2 := (s.at u).portStamp m.port
      let off := divFree (t2 - t1 - s.delayOf m.port) 5 - s.pv (ND_PTP_ASYM_LKA + m.port)
      let v := s.servo
      v.source = 1 → v.runKey = 2 ^ 64 + x.gm →
      (v.state = .locked → off.natAbs ≤ s.pn ND_JUMP_THRESH →
        v.outRun < 15 → ∃ t, exec (.ptpSyncReceived u m) s = .next t ∧ t.servo.state = .locked ∧
          t.servo.offset = Config.filterOffset v.offset off ∧
          t.servo.outRun = (if s.pn ND_LOCK_THRESH < t.servo.offset.natAbs then v.outRun + 1 else 0) ∧ t.servo.jumpRun = 0 ∧
          t.servo.syncDue = some (u + 4 * s.syncNs) ∧ t.servo.lastT1 = t1 ∧ t.servo.lastT2 = t2 ∧
          Keeps [.clk, .servo] s t) ∧
      (v.state = .acquiring → (off - v.accepted).natAbs ≤ s.pn ND_JUMP_THRESH → off.natAbs ≤ s.pn ND_LOCK_THRESH →
        15 ≤ v.inRun → ∃ t, exec (.ptpSyncReceived u m) s = .next t ∧ t.servo.state = .locked ∧ t.servo.everLocked = true ∧
          Raised t 11 [byteOf (servoCode .acquiring), byteOf (servoCode .locked), 1, byteOf x.port] ∧
          Keeps [.clk, .servo, .host] s t)) ∧
    (∀ a, s.ptpOn a.port = true → (s.pn ND_TIME_SOURCES).testBit 0 = true →
      (a.supported = false → exec (.ptpAnnounceReceived u a) s = .next ((s.at u).modServo (fun v =>
        { v with discards := upd v.discards a.port inc32 }))) ∧
      (a.supported = true → a.domain = s.pn ND_PTP_DOMAIN → a.ptpTimescale = true →
        (s.pn ND_PTP_ROLE = 0 ∨ lexLess (masterKey (masterOf a)) (masterKey (s.at u).ownMaster) = true) → s.servo.foreign = [] →
        ∃ t, exec (.ptpAnnounceReceived u a) s = .next t ∧ t.servo.master = some (masterOf a) ∧ t.servo.ptpHops = a.steps + 1 ∧
        t.servo.annDue = some (max s.clk.up u + s.pn ND_PTP_ANNOUNCE_TIMEOUT * logNs (s.pv ND_PTP_LOG_ANNOUNCE)) ∧
        t.servo.foreign.map (·.1) = [a] ∧ (s.servo.state = .free → t.servo.state = .acquiring ∧ t.servo.source = 1) ∧
        (a.utcValid = true → s.servo.utcValid = false → t.servo.utc = a.utc ∧ t.servo.utcValid = true) ∧
        Keeps [.clk, .servo] s t)) ∧
    (∀ m, s.ptpOn m.port = true → m.supported = true → m.domain = s.pn ND_PTP_DOMAIN → m.kind / 2 = s.pn ND_PTP_DELAY →
      let now := (s.at u).portStamp m.port
      (m.kind = 0 → ∃ t x, exec (.ptpDelayMessageReceived u m) s = .next t ∧ t.servo.txMsgs.head? = some x ∧ x.kind = 10 ∧
        x.port = m.port ∧ x.seq = m.seq ∧ x.origin = now ∧ x.corr = 5 * m.corr ∧ Keeps [.clk, .servo] s t) ∧
      (m.kind = 2 → s.pn ND_PTP_STEP = 1 → ∃ t x, exec (.ptpDelayMessageReceived u m) s = .next t ∧
        t.servo.txMsgs.head? = some x ∧ x.kind = 12 ∧ x.port = m.port ∧ x.seq = m.seq ∧ x.origin = now ∧
        x.corr = 5 * m.corr + s.free ∧ Keeps [.clk, .servo] s t) ∧
      (m.kind = 2 → s.pn ND_PTP_STEP ≠ 1 → ∃ t x y l, exec (.ptpDelayMessageReceived u m) s = .next t ∧
        t.servo.txMsgs = y :: x :: l ∧ x.kind = 12 ∧ x.port = m.port ∧ x.seq = m.seq ∧ x.origin = now ∧ y.kind = 13 ∧
        y.port = m.port ∧ y.seq = m.seq ∧ y.origin = now + s.free ∧ y.corr = 5 * m.corr ∧ Keeps [.clk, .servo] s t) ∧
      (∀ sent, m.kind = 1 → s.txStamp 2 m.port m.seq = some sent → ∃ t, exec (.ptpDelayMessageReceived u m) s = .next t ∧
        t.servo = { s.servo with
          linkDelay := put s.servo.linkDelay m.port (divFree (s.servo.lastT2 - s.servo.lastT1 + (5 * (m.stamp - m.corr) - sent)) 2) } ∧ Keeps [.clk, .servo] s t) ∧
      (∀ sent, m.kind = 3 → s.txStamp 2 m.port m.seq = some sent → ∃ t, exec (.ptpDelayMessageReceived u m) s = .next t ∧
        t.servo = { s.servo with
          linkDelay := put s.servo.linkDelay m.port (divFree (now - sent - 5 * (m.stamp2 - m.stamp + m.corr)) 2) } ∧ Keeps [.clk, .servo] s t)) ∧
    (∀ m, s.ptpOn m.port = true → ∃ t, exec (.ptpManagementReceived u m) s = .next t ∧
      (m.kind = 0 → m.supported = true → m.domain = s.pn ND_PTP_DOMAIN →
        (∃ x, t.servo.txMsgs.head? = some x ∧ x.kind = 20 ∧ x.port = m.port ∧ x.seq = m.seq) ∧
        t.servo.discards = s.servo.discards) ∧
      (m.kind ≠ 0 → t.servo = { s.servo with discards := upd s.servo.discards m.port inc32 }) ∧ Keeps [.clk, .servo] s t) ∧
    (∀ port kind, s.ptpOn port = true → kind < 3 → s.txWanted port kind = true →
      (s.servo.txDue.getD (3 * port + kind) none = none ∨ ripeAt (s.servo.txDue.getD (3 * port + kind) none) u = true) →
      ∃ t x, exec (.ptpMessageTransmit u port kind) s = .next t ∧ t.servo.seqId = (s.servo.seqId + 1) % 2 ^ 16 ∧
        t.servo.txMsgs.head? = some x ∧ x.port = port ∧ x.seq = t.servo.seqId ∧
        (kind = 1 ∧ s.pn ND_PTP_STEP = 0 → x.kind = 3 ∧ x.origin = (s.at u).portStamp port ∧
          ∃ y, t.servo.txMsgs[1]? = some y ∧ y.kind = 1 ∧ y.port = port ∧ y.seq = t.servo.seqId) ∧
        (kind ≠ 1 ∨ s.pn ND_PTP_STEP ≠ 0 → x.kind = kind ∧ x.origin = (if kind = 1 then (s.at u).portStamp port else 0)) ∧
        t.servo.txDue = put s.servo.txDue (3 * port + kind) (some (u + s.txNs kind)) ∧ Keeps [.clk, .servo] s t) ∧
    (∀ d, s.servo.annDue = some d → d ≤ u →
      ((∀ x ∈ s.servo.foreign, x.2 ≤ u) → ∃ t, exec (.ptpAnnounceTimeout u) s = .next t ∧ t.servo.master = none ∧
        t.servo.annDue = none ∧ (s.servo.source ≠ 1 → t.servo.state = s.servo.state) ∧
        (s.servo.source = 1 → s.servo.state = .locked → t.servo.state = .holdover ∧
          Raised t 10 [byteOf (servoCode .locked), byteOf (servoCode .holdover), 1]) ∧
        Keeps [.clk, .servo, .host, .ring] s t) ∧
      (∀ a e, s.pn ND_PTP_ROLE = 0 → s.servo.foreign.filter (fun x => u < x.2) = [(a, e)] →
        ∃ t, exec (.ptpAnnounceTimeout u) s = .next t ∧ t.servo.master = some (masterOf a) ∧ t.servo.annDue = some e ∧
        Keeps [.clk, .servo, .host, .ring] s t)) ∧
    (∀ d, s.servo.syncDue = some d → d ≤ u → ∃ t, exec (.ptpSyncTimeout u) s = .next t ∧ t.servo.syncDue = none ∧
      t.servo.master = s.servo.master ∧ (s.servo.source ≠ 1 → t.servo.state = s.servo.state) ∧
      (s.servo.source = 1 → s.servo.state = .locked → t.servo.state = .holdover ∧ t.servo.holdAt = max s.clk.up u ∧
        t.servo.e0 = s.servo.offset) ∧ Keeps [.clk, .servo, .host, .ring] s t) ∧
    (s.servo.restartDue.isSome = true → ∃ t, exec (.ptpRestart u) s = .next t ∧ t.servo.restartDue = none ∧
      (∀ p, t.servo.linkDelay.getD p 0 = if s.servo.restartPorts.testBit p then 0 else s.servo.linkDelay.getD p 0) ∧
      t.servo.txMsgs = s.servo.txMsgs.filter (fun x => !s.servo.restartPorts.testBit x.port) ∧
      (∀ x, s.servo.master = some x → s.servo.restartPorts.testBit x.port = true → t.servo.master = none ∧
        (s.servo.source = 1 → s.servo.state = .locked → t.servo.state = .holdover)) ∧
      (∀ x, s.servo.master = some x → s.servo.restartPorts.testBit x.port = false →
        t.servo.master = some x ∧ t.servo.state = s.servo.state) ∧ Keeps [.clk, .servo, .host, .ring] s t)

/-- R42, R72–R75, R78, R79 (Table 19.11): the frame counter and the crossings. The half-way frame, the mean's rounding and the delay after
which a crossing counts as missing are the model's (log 55). -/
def Obligations.FrameCounterAndCrossingEventsComplete : Prop :=
  ∀ (s : State) (u : Nat), Sound s →
    (s.clk.loaded = false → s.servo.loadReady = true → s.frm % 4000 = 0 → s.servo.state = .acquiring →
      let r := nearestFrame s.frm (localOffset s.servo.source (s.servo.recent.headD 0))
      ∃ t, exec (.frameCounterLoad u) s = .next t ∧ t.clk.loaded = true ∧ t.clk.frame = r.1 ∧ t.servo.loadReady = false ∧
        t.servo.state = .acquiring ∧ t.servo.slew = r.2 ∧ Keeps [.clk, .servo, .slices, .eng, .pts, .fw] s t) ∧
    (∀ off due, s.servo.step = some (off, due) → due ≤ s.clk.lastTick → s.frm % 4000 = 0 →
      let r := nearestFrame s.frm off
      ∃ t, exec (.timeStepApply u) s = .next t ∧ t.clk.stepped = true ∧ t.clk.frame = r.1 ∧ t.servo.step = none ∧
        t.servo.slew = r.2 ∧ Keeps [.clk, .servo, .slices, .eng, .pts, .fw] s t) ∧
    (∀ (x : Nat) rest, s.servo.zcFound = x :: rest →
      let y := ((x : Int) + s.test.eff.zc).toNat
      (∀ pred, s.servo.zc = .valid → s.zcPredict = some pred →
        (((y : Int) - pred).natAbs ≤ 200000 →
          ∃ t, exec (.zeroCrossing u x) s = .next t ∧ t.servo.zc = .valid ∧ t.servo.zcLast = some y ∧ t.servo.zcRejects = 0 ∧
          t.servo.zcPeriods = ((y - s.servo.zcLast.getD y) :: s.servo.zcPeriods).take 8 ∧ t.servo.zcFound = rest ∧
          Keeps [.clk, .servo] s t) ∧
        (200000 < ((y : Int) - pred).natAbs → 2 * pred ≤ 2 * y + s.meanPeriod → s.servo.zcRejects < 24 →
          ∃ t, exec (.zeroCrossing u x) s = .next t ∧ t.servo = { s.servo with
            zcFound := rest, zcLast := some pred, zcRejects := s.servo.zcRejects + 1, zcErr := (y : Int) - pred } ∧
          Keeps [.clk, .servo] s t)) ∧
      (s.servo.zc ≠ .valid → s.servo.zcLast = none → ∃ t, exec (.zeroCrossing u x) s = .next t ∧ t.servo.zc = .lost ∧
        t.servo.zcLast = some y ∧ t.servo.zcPeriods = [] ∧ t.servo.zcFound = rest ∧ Keeps [.clk, .servo] s t) ∧
      (∀ l, s.servo.zc ≠ .valid → s.servo.zcLast = some l → s.servo.zcPeriods.length = 7 →
        periodsAgree ((y - l) :: s.servo.zcPeriods) = true → ∃ t, exec (.zeroCrossing u x) s = .next t ∧ t.servo.zc = .valid ∧
        t.servo.zcLast = some y ∧ t.servo.zcPeriods = (y - l) :: s.servo.zcPeriods ∧ Keeps [.clk, .servo] s t)) ∧
    (∀ pred, 3 ≤ s.pwr.stage → s.servo.zcFound = [] → s.servo.zc = .valid → s.zcPredict = some pred →
      pred + 200000 + crossingLag < (s.at u).nodeNow →
      (s.servo.zcRejects < 24 → ∃ t, exec (.zcPredictionTimeout u) s = .next t ∧
        t.servo = { s.servo with zcLast := some pred, zcRejects := s.servo.zcRejects + 1 } ∧ Keeps [.clk, .servo] s t) ∧
      (24 ≤ s.servo.zcRejects → ∃ t, exec (.zcPredictionTimeout u) s = .next t ∧ t.servo.zc = .lost ∧
        t.servo.zcLast = none ∧ Raised t 12 [byteOf (servoCode s.servo.state)] ∧
        (s.servo.source = 2 → s.servo.state = .mains → t.servo.state = .holdover) ∧
        (s.servo.source ≠ 2 → t.servo.state = s.servo.state) ∧ Keeps [.clk, .servo, .host, .ring] s t))

/-- R76, R84–R87, R330–R334, R454 (Tables 3.4, 3.6, 13.8): beacons and the timed pins. That the timestamp is not before its edge and the end of
a pulse that a STEP overlapped are the model's (logs 15, 55). -/
def Obligations.BeaconAndPinEventsComplete : Prop :=
  ∀ (s : State) (u : Nat), Sound s →
    (∀ b, 3 ≤ s.pwr.stage → (b.port = 16 ∨ b.port = 17) → (s.pn ND_PLC_MAINS).testBit (b.port - 16) = true →
      (s.neighbour b.node = none →
        ∃ t n, exec (.beaconReceived u b) s = .next t ∧ t.neighbour b.node = some n ∧ n.lastAt = u ∧ n.hops = b.hops ∧
        n.port = b.port ∧ Raised t 33 [byteOf b.port, 1, 1, 5] ∧
        (s.zcValid = false → b.is4016 = false → b.port - 16 < s.servo.grids.length →
          (t.grid (b.port - 16)).number = b.number % 2 ^ 32) ∧
        Keeps [.clk, .servo, .host, .ring] s t) ∧
      (∀ n, s.neighbour b.node = some n → s.zcValid = true →
        let x : Int := (s.at u).nodeNow - (b.tx - b.crossing)
        let own := ownCrossing (s.nearCrossing x) x s.meanPeriod
        let off := b.crossing + phaseCorrection n.cls s.meanPeriod - own
        n.cls ≠ 0 → n.cand = n.cls → phaseClass (own - x) s.meanPeriod = n.cls → b.is4016 = false →
        servesTime b.servo b.hops = true → (s.pn ND_TIME_SOURCES).testBit 1 = true → s.servo.master = none → s.servo.source = 2 →
        s.servo.sender = b.node → s.clk.loaded = true → s.servo.state = .acquiring → s.servo.refused = none →
        s.servo.runKey = b.node → (-off - s.servo.accepted).natAbs ≤ s.pn ND_JUMP_THRESH → off.natAbs ≤ 2000 + b.bound →
        7 ≤ s.servo.inRun → ∃ t, exec (.beaconReceived u b) s = .next t ∧ t.servo.state = .mains ∧
          t.servo.mainsHops = b.hops + 1 ∧ Raised t 11 [byteOf (servoCode .acquiring), byteOf (servoCode .mains), 2] ∧
          Keeps [.clk, .servo, .host] s t)) ∧
    (∀ q j, q < s.servo.grids.length → 3 ≤ s.pwr.stage → (s.pn ND_PLC_MAINS).testBit q = true → (s.grid q).pos = some j →
      (s.grid q).on = true → s.pn ND_ZC_CHANNEL ≠ 255 → (s.grid q).number % 4 = j / 8 →
      (s.grid q).anchor + 2000000 + 1500000 * (j % 8) ≤ (s.at u).nodeNow →
      (s.grid q).out.map (·.number) ≠ some (s.grid q).number →
      ∃ t x, exec (.beaconSlot u) s = .next t ∧ t.grid q = { s.grid q with out := some x } ∧ x.port = 16 + q ∧ x.node = s.nodeId ∧
        x.pos = j ∧ x.number = (s.grid q).number ∧ x.servo = servoCode s.servo.state ∧
        x.hops = (if s.servo.state = .locked then 0 else s.servo.mainsHops) ∧
        x.crossing = s.nearCrossing (s.grid q).anchor ∧ x.tx = (s.at u).nodeNow ∧ Keeps [.clk, .servo] s t) ∧
    (∀ q, q < s.servo.grids.length → 3 ≤ s.pwr.stage → (s.pn ND_PLC_MAINS).testBit q = true → s.zcValid = true →
      (s.grid q).anchor ≠ 0 → (s.grid q).anchor + s.beaconPeriod ≤ (s.at u).nodeNow →
      let c := s.gridCorrection (s.grid q)
      ∃ t, exec (.beaconPeriodStart u) s = .next t ∧ t.grid q = { s.grid q with
          anchor := (s.nearCrossing ((s.grid q).anchor + s.beaconPeriod + c) - c).toNat
          number := ((s.grid q).number + 1) % 2 ^ 32, on := true } ∧ Keeps [.clk, .servo] s t) ∧
    (∀ node n, s.neighbour node = some n → n.lastAt + 25 * s.beaconPeriod ≤ u →
      ∃ t, exec (.beaconTimeout u node) s = .next t ∧ t.neighbour node = none ∧
        (∀ m, m ≠ node → t.neighbour m = s.neighbour m) ∧ Raised t 33 [byteOf n.port, 1, 0, 4] ∧
        (s.servo.sender = node → (s.at u).otherSender node = none → s.servo.source = 2 → s.servo.state = .mains →
          t.servo.state = .holdover) ∧
        (∀ x, s.servo.sender = node → (s.at u).otherSender node = some x → t.servo.state = s.servo.state ∧
          t.servo.sender = x.node ∧ t.servo.mainsHops = x.hops + 1) ∧
        (s.servo.sender ≠ node → t.servo.state = s.servo.state ∧ t.servo.sender = s.servo.sender) ∧
        Keeps [.clk, .servo, .host, .ring] s t) ∧
    (∀ i, i < 8 →
      (∀ d, (s.tto i).trailAt = some d → d ≤ u → ∃ t, exec (.ttoEdge u i) s = .next t ∧
        t.tto i = { s.tto i with level := (s.tto i).polarity, trailAt := none } ∧ (∀ j, j ≠ i → t.tto j = s.tto j) ∧
        Keeps [.clk, .servo] s t) ∧
      (ripeAt (s.tto i).trailAt u = false → (s.tto i).armed = true → (s.tto i).next ≤ (s.at u).nodeNow →
        let now := (s.at u).nodeNow
        let edge := if (s.tto i).late then now else (s.tto i).next
        ((s.tto i).mode = 1 → ∃ t, exec (.ttoEdge u i) s = .next t ∧ (t.tto i).level = !(s.tto i).polarity ∧
          (t.tto i).edges = inc32 (s.tto i).edges ∧ (t.tto i).armed = false ∧
          (t.tto i).trailAt = some (u - (now - edge) + (s.tto i).width) ∧
          Raised t 59 [byteOf i, byteOf (b2n (s.tto i).late)] ∧ (∀ j, j ≠ i → t.tto j = s.tto j) ∧
          Keeps [.clk, .servo, .host] s t) ∧
        ((s.tto i).mode = 2 → ∃ t, exec (.ttoEdge u i) s = .next t ∧ (t.tto i).level = !(s.tto i).polarity ∧
          (t.tto i).edges = inc32 (s.tto i).edges ∧ (t.tto i).armed = true ∧ (t.tto i).next = (s.tto i).next + (s.tto i).period ∧
          (t.tto i).trailAt = some (u - (now - edge) + (s.tto i).width) ∧
          ((s.tto i).report = true → Raised t 59 [byteOf i, byteOf (b2n (s.tto i).late)]) ∧
          (∀ j, j ≠ i → t.tto j = s.tto j) ∧ Keeps [.clk, .servo, .host] s t))) ∧
    (∀ i rising clocks, i < 4 →
      ((s.tci i).edges ≠ 3 → (s.tci i).edges ≠ (if rising then 1 else 2) →
        exec (.tciEdge u i rising clocks) s = .next (s.at u)) ∧
      (((s.tci i).edges = 3 ∨ (s.tci i).edges = (if rising then 1 else 2)) → (s.tci i).filter ≤ clocks →
        (fifoLevel 4 (s.tci i).fifo < 16 → s.test.regs.fifo.getLsbD (4 + i) = false →
          ∃ t, exec (.tciEdge u i rising clocks) s = .next t ∧
          (t.tci i).fifo.words = (s.tci i).fifo.words ++ [(((s.at u).nodeNow + 7) / 8 * 8 + b2n rising * 2 ^ 64, false, false)] ∧
          (t.tci i).fifo.wptr = ((s.tci i).fifo.wptr + 1) % 2 ^ 5 ∧ (∀ j, j ≠ i → t.tci j = s.tci j) ∧
          Keeps [.clk, .servo] s t) ∧
        (16 ≤ fifoLevel 4 (s.tci i).fifo → ∃ t, exec (.tciEdge u i rising clocks) s = .next t ∧
          (t.tci i).fifo.overrun = true ∧ (t.tci i).fifo.words = (s.tci i).fifo.words ∧
          ((s.tci i).fifo.ovFrame ≠ some s.frm → Raised t 6 [byteOf (16 + i), 0]) ∧ (∀ j, j ≠ i → t.tci j = s.tci j) ∧
          Keeps [.clk, .servo, .host] s t)))

/-- R399–R401, R408, R411, R419 (Table 17.9): the ring's links. What a ring-control frame holds and which ports it passes are the model's
(log 20). -/
def Obligations.RingLinkEventsComplete : Prop :=
  ∀ (s : State) (u : Nat), Sound s →
    (∀ f, f.port < 2 → s.lineRole f.port ≠ 0 → s.lineUp f.port = true → f.kind = 0 → s.lineOpen f.port = true →
      ∃ t, exec (.yudaixFrameReceived u f) s = .next t ∧
        t.ring.learned = s.ring.learned.filter (fun e => e.1 != f.src) ++ [(f.src, f.port)] ∧
        (f.mine = true → t.ring.sent = s.ring.sent ∧ t.ring.mainsQueue = s.ring.mainsQueue) ∧
        (f.mine = false → (∀ q, q < 2 → q ≠ f.port → s.lineOpen q = true → (q, f.prio, f.bytes) ∈ t.ring.sent) ∧
          ∀ x ∈ t.ring.sent, x.1 ≠ f.port) ∧ Keeps [.clk, .ring] s t) ∧
    (∀ f, f.port < 2 → s.lineUp f.port = false → exec (.yudaixFrameReceived u f) s = .next (s.at u)) ∧
    (∀ f, f.port < 2 → s.lineRole f.port ≠ 0 → s.lineUp f.port = true → f.kind = 1 →
      (s.ring.manager = false → s.lineRole (1 - f.port) ≠ 0 → s.lineUp (1 - f.port) = true →
        ∃ t, exec (.yudaixFrameReceived u f) s = .next t ∧ t.ring = { s.ring with sent := [(1 - f.port, 5, f.bytes)] } ∧
        Keeps [.clk, .ring] s t) ∧
      (∀ d, s.ring.manager = true → s.ring.closingBlocked = false → s.ring.testsFrom = some d → d + 1000000 ≤ u →
        ∃ t, exec (.yudaixFrameReceived u f) s = .next t ∧ t.ring.closingBlocked = true ∧
        t.ring.testSeen = some (max s.clk.up u) ∧ Raised t 13 [4, byteOf s.ring.closing] ∧ Keeps [.clk, .host, .ring] s t)) ∧
    (∀ f, f.port < 2 → s.lineRole f.port ≠ 0 → s.lineUp f.port = true → f.kind = 2 →
      ∃ t, exec (.yudaixFrameReceived u f) s = .next t ∧ t.ring.lkaBlocked = false ∧ t.ring.lkbBlocked = false ∧
        t.ring.learned = s.ring.learned ∧ Keeps [.clk, .ring] s t) ∧
    (∃ t, exec (.mainsFrameTimeout u) s = .next t ∧
      t.ring.mainsQueue = s.ring.mainsQueue.filter (fun e => u < e.2.1) ∧
      t.ring.mainsDropped = satAdd 32 s.ring.mainsDropped (s.ring.mainsQueue.length - t.ring.mainsQueue.length) ∧
      Keeps [.clk, .ring] s t) ∧
    (∀ port, port < 2 → s.lineUp port = true → ∃ t, exec (.lineLinkDown u port) s = .next t ∧ t.lineUp port = false ∧
      t.lineUp (1 - port) = s.lineUp (1 - port) ∧ Raised t 13 [1, byteOf port] ∧
      (s.ring.inRing = true → s.lineUp (1 - port) = true → t.ring.sent = [(1 - port, 5, Config.ringFrame 0)]) ∧
      (s.ring.isRoot = true → t.ring.discDue = some (max s.clk.up u)) ∧ Keeps [.clk, .host, .ring] s t) ∧
    (∀ port, port < 2 → s.lineUp port = false → s.lineRole port ≠ 0 → ∃ t, exec (.lineLinkUp u port) s = .next t ∧
      t.lineUp port = true ∧ (s.ring.inRing = true → t.lineOpen port = false) ∧ Raised t 13 [2, byteOf port] ∧
      t.lineUp (1 - port) = s.lineUp (1 - port) ∧ Keeps [.clk, .host, .ring] s t) ∧
    (∀ d, s.ring.head = true → s.lineUp 0 = true → s.ring.testDue = some d → d ≤ u → ∃ t, exec (.ringTestSend u) s = .next t ∧
      t.ring.testDue = some (u + 100000) ∧ t.ring.sent = [(0, 5, Config.ringFrame 1)] ∧ Keeps [.clk, .ring] s t) ∧
    (∀ d, s.ring.manager = true → s.ring.closingBlocked = true → s.ring.testSeen = some d → d + 300000 ≤ u →
      ∃ t, exec (.ringTestMissing u) s = .next t ∧ t.ring.closingBlocked = false ∧ t.ring.learned = [] ∧
        (∀ q, q < 2 → t.lineOpen q = true → (q, 5, Config.ringFrame 2) ∈ t.ring.sent) ∧
        Raised t 13 [3, byteOf s.ring.closing] ∧ Keeps [.clk, .host, .ring] s t) ∧
    (∀ port, port < 2 →
      (s.ring.manager = true → s.ring.closingBlocked = true → ∃ t, exec (.linkDownNotice u port) s = .next t ∧
        t.ring.closingBlocked = false ∧ t.ring.learned = [] ∧ Raised t 13 [3, byteOf s.ring.closing] ∧
        (∀ q, q < 2 → t.lineOpen q = true → (q, 5, Config.ringFrame 2) ∈ t.ring.sent) ∧
        (s.ring.isRoot = true → t.ring.discDue = some (max s.clk.up u)) ∧ Keeps [.clk, .host, .ring] s t) ∧
      (s.ring.manager = false → s.lineRole (1 - port) ≠ 0 → s.lineUp (1 - port) = true →
        ∃ t, exec (.linkDownNotice u port) s = .next t ∧ t.ring = { s.ring with
          sent := [(1 - port, 5, Config.ringFrame 0)]
          discDue := if s.ring.isRoot = true then some (max s.clk.up u) else s.ring.discDue } ∧ Keeps [.clk, .ring] s t) ∧
      (s.lineOpen (1 - port) = true → ∃ t, exec (.ringFlush u port) s = .next t ∧
        t.ring = { s.ring with learned := [], sent := [(1 - port, 5, Config.ringFrame 2)] } ∧ Keeps [.clk, .ring] s t))

/-- R406–R409, R414–R418, R420, R421 (Tables 17.1, 17.4, 17.9): discovery and balance. The way back of a full token is the model's
(log 20). -/
def Obligations.DiscoveryAndBalanceEventsComplete : Prop :=
  ∀ (s : State) (u : Nat), Sound s →
    (∀ d, s.ring.isRoot = true → s.discovers = true → s.ring.discDue = some d → d ≤ u →
      ∃ t e, exec (.discoveryStart u) s = .next t ∧ t.ring.runNo = (s.ring.runNo + 1) % 65536 ∧ t.ring.running = true ∧
        t.ring.gathered = [e] ∧ e.node = s.nodeId ∧ e.hops = 0 ∧
        t.ring.discDue = some (u + s.pn ND_DISC_PERIOD * 1000000000) ∧ Keeps [.clk, .host, .ring] s t) ∧
    (∀ k, s.discovers = true → k.port < 4 →
      (s.ring.isRoot = true → k.root = s.nodeId → k.run = s.ring.runNo → s.ring.running = true →
        ∃ t, exec (.discoveryTokenReceived u k) s = .next t ∧ (∀ e ∈ k.entries, e ∈ t.ring.gathered) ∧
        (∀ e ∈ s.ring.gathered, e ∈ t.ring.gathered) ∧ Keeps [.clk, .host, .ring] s t) ∧
      (s.ring.isRoot = false → k.root = s.ring.root → k.run ≠ s.ring.runNo → k.run < 65536 → k.entries.length < 160 →
        ∃ t e, exec (.discoveryTokenReceived u k) s = .next t ∧ t.ring.gathered = k.entries ++ [e] ∧ e.node = s.nodeId ∧
        e.hops = k.hops + 1 ∧ t.ring.runNo = k.run ∧ t.ring.runPort = some k.port ∧ (∀ x ∈ t.ring.sent, x.1 ≠ k.port) ∧
        Keeps [.clk, .host, .ring] s t) ∧
      (s.ring.isRoot = false → k.root = s.ring.root → k.run ≠ s.ring.runNo → 160 ≤ k.entries.length → k.port < 2 →
        ∃ t e, exec (.discoveryTokenReceived u k) s = .next t ∧ t.ring.gathered = [e] ∧ e.node = s.nodeId ∧
        (∃ b, (k.port, 5, b) ∈ t.ring.sent) ∧ Keeps [.clk, .host, .ring] s t) ∧
      (s.ring.isRoot = true → s.ring.root = s.nodeId → k.root ≠ s.nodeId → s.betterRoot k.root k.ptpHops = true →
        ∃ t, exec (.discoveryTokenReceived u k) s = .next t ∧ t.ring.root = k.root ∧ t.ring.isRoot = false ∧
        t.ring.awaiting = false ∧ Raised t 13 [5, 0xFF] ∧ Keeps [.clk, .host, .ring] s t)) ∧
    (∀ m e, s.discovers = true → s.ring.isRoot = false → m.find? (fun x => x.entry.node == s.nodeId) = some e →
      ∃ t, exec (.discoveryComplete u s.ring.root m) s = .next t ∧ t.ring.position = e.position ∧ t.ring.branch = e.branch ∧
        t.ring.successor = successorOf s.ring.root s.nodeId m ∧ t.ring.inRing = e.ring ∧
        (t.ring.placed = true ↔ s.nodeId ∉ duplicates m) ∧ (∀ q, q < s.servo.grids.length →
          (t.grid q).pos = some (if e.entry.port = q + 2 then e.position % 32 else 0)) ∧
        Keeps [.clk, .servo, .host, .ring] s t) ∧
    (∀ m, s.discovers = true → s.ring.isRoot = true → s.ring.running = true → s.ring.root = s.nodeId →
      ∃ t, exec (.discoveryComplete u s.nodeId m) s = .next t ∧ t.ring.running = false ∧
        t.ring.map = (m.map (fun e => e.entry)).filter (fun e => s.ring.gathered.contains e) ∧ Raised t 13 [0, 0xFF] ∧
        Keeps [.clk, .servo, .host, .ring] s t) ∧
    (s.discovers = true → s.ring.isRoot = false → 3 ≤ s.ring.noFrame → ∃ t, exec (.rootLost u) s = .next t ∧
      (s.pn ND_BAL_ROOT = s.nodeId ∨ (s.pn ND_BAL_ROOT = 0 ∧ s.gmNode = 0xFFF) → t.ring.root = s.nodeId ∧
        t.ring.isRoot = true ∧ t.ring.discDue = some (max s.clk.up u) ∧ Raised t 13 [5, 0xFF]) ∧
      (s.pn ND_BAL_ROOT = 0 → s.gmNode ≠ 0xFFF → s.gmNode ≠ 0 → t.ring.root = s.gmNode ∧ Raised t 13 [5, 0xFF]) ∧
      t.ring.noFrame = 0 ∧ Keeps [.clk, .host, .ring] s t) ∧
    (∀ d, s.ring.isRoot = true → s.ring.launchDue = some d → d ≤ u →
      ∃ t q f, exec (.balanceFrameLaunch u) s = .next t ∧ t.ring.sent = [(q, 7, f)] ∧ f.take 2 = [1, 0] ∧ t.ring.awaiting = true ∧
        t.ring.launchDue = none ∧ t.ring.launchedAt = u ∧ t.ring.retryDue = some (d + s.pn ND_BAL_RETRY * 1000000) ∧
        t.ring.posted = s.ring.posted ∧ Keeps [.clk, .host, .ring] s t) ∧
    (∀ d, s.ring.isRoot = true → s.ring.awaiting = true → s.ring.retryDue = some d → d ≤ u →
      ∃ t q f, exec (.balanceRetry u) s = .next t ∧ t.ring.sent = [(q, 7, f)] ∧ f.take 2 = [1, 1] ∧ t.ring.retryDue = none ∧
        t.ring.awaiting = true ∧ Keeps [.clk, .host, .ring] s t) ∧
    (∀ frame, isBalanceFrame frame = true → s.pwr.coreOn = true → s.ring.isRoot = false →
      ∃ t q f, exec (.balanceFramePass u frame) s = .next t ∧ t.ring.sent = [(q, 7, f)] ∧ t.ring.sawFrame = true ∧
        (∀ r, s.ring.postedIn = true → s.ring.posted = some r → fld frame 4 6 = r.interval % 2 ^ 48 →
          fld f 16 2 = satAdd 16 (fld frame 16 2) 1) ∧ Keeps [.clk, .host, .ring] s t) ∧
    (∀ frame r, s.ring.posted = some r → isBalanceFrame frame = true → s.ring.isRoot = true → s.ring.awaiting = true →
      fld frame 4 6 = r.interval % 2 ^ 48 → (∀ d, s.ring.lateDue = some d → u ≤ d) →
      let l := s.usedGroups.map (s.judge (fld frame 16 2 == s.ring.inBal) frame)
      ∃ t, exec (.balanceFrameReturn u frame) s = .next t ∧ t.ring.awaiting = false ∧ t.ring.lateDue = none ∧
        t.ring.results = l.map (fun x => x.1) ∧ t.ring.runs = l.map (fun x => x.2) ∧ t.ring.resInterval = r.interval ∧
        t.ring.history = (⟨r.interval, t.ring.results⟩ :: s.ring.history).take 16 ∧ t.ring.sawFrame = true ∧
        t.ring.tour = (u - s.ring.launchedAt) / 1000 ∧ Keeps [.clk, .host, .ring] s t) ∧
    (∀ d, s.ring.isRoot = true → s.ring.awaiting = true → s.ring.lateDue = some d → d ≤ u →
      ∃ t, exec (.balanceReturnLate u) s = .next t ∧ t.ring.awaiting = false ∧ t.ring.lateDue = none ∧
        t.ring.results.length = s.usedGroups.length ∧ (∀ x ∈ t.ring.results, x.result % 2 = 0) ∧
        Raised t 13 [9, 0xFF] ∧ Keeps [.clk, .host, .ring] s t)

/-- R504, R505, R507, R509, R511, R515, 03 R64 (Table 22.4): resets of the core die. -/
def Obligations.PowerAndResetEventsComplete : Prop :=
  ∀ (s : State) (u : Nat), Sound s →
    (∀ vcore vio vana, 810 ≤ vcore → 2800 ≤ vio → 2800 ≤ vana → s.pwr.coreOn = false → s.pwr.coreHeld = 1 →
      ∃ t, exec (.powerGood u vcore vio vana true) s = .next t ∧ t.pwr.coreOn = true ∧ t.pwr.stage = 1 ∧
        t.pwr.coreHeld = 0 ∧ t.clk.lastTick = max s.clk.up u ∧ Keeps [.clk, .pwr] s t) ∧
    (s.pwr.coreOn = true →
      (∀ rail mV, rail < 3 → mV < [780, 2700, 2700].getD rail 0 →
        ∃ t, exec (.railRestartTrip u rail mV) s = .next t ∧ InReset s t 0 0) ∧
      (∃ t, exec (.refclkLoss u) s = .next t ∧ InReset s t 3 0) ∧
      (∀ temp, 1450 ≤ temp → ∃ t, exec (.thermalShutdown u temp) s = .next t ∧ InReset s t 4 2 ∧ t.pwr.shutdown = true) ∧
      (∀ width, 10000 ≤ width → ∃ t, exec (.resetnAssert u width true) s = .next t ∧ InReset s t 2 1 ∧ t.pwr.resetn = true ∧
        t.pwr.fsrst = true) ∧
      (∀ d, s.pwr.tb = some d → d + 600000 ≤ u → ∃ t, exec (.brownOutReset u) s = .next t ∧ InReset s t 1 0) ∧
      (∀ vcore vio, vcore < 865 ∨ vio < 3050 → s.pwr.tb = none →
        (∃ t, exec (.brownOut u vcore vio) s = .next t ∧ t.pwr.tb = some u ∧ t.test = s.test ∧ t.keys = s.keys ∧
          t.disp = s.disp) ∧
        (s.pwr.capoOn = false → ∃ t, exec (.brownOut u vcore vio) s = .next t ∧
          t.pwr = { s.pwr with tb := some u } ∧ t.led = { s.led with cut := s.led.commitDue, commitDue := false } ∧
          Keeps [.clk, .led, .pwr] s t))) ∧
    (s.pwr.coreOn = false → s.pwr.resetn = true → s.pwr.coreHeld = 2 → ∃ t, exec (.resetnRelease u) s = .next t ∧
      t.pwr = { s.pwr with resetn := false, coreHeld := 0, coreOn := true, stage := 1 } ∧ t.clk.lastTick = max s.clk.up u ∧
      Keeps [.clk, .pwr] s t) ∧
    (∀ temp, temp ≤ 1350 → s.pwr.coreOn = false → s.pwr.coreHeld = 4 → ∃ t, exec (.thermalShutdownEnd u temp) s = .next t ∧
      t.pwr = { s.pwr with coreHeld := 0, coreOn := true, stage := 1 } ∧ t.clk.lastTick = max s.clk.up u ∧
      Keeps [.clk, .pwr] s t)

/-- R270, R271, R425, R494, R497, R499, R507, R508 (Tables 1.8, 22.3): the milestones of a start. What an attempt of R425 finds is an operand (log 31),
and the MRAM's corrections while areas are read are free values (log 44). -/
def Obligations.StartUpEventsComplete : Prop :=
  ∀ (s : State) (u : Nat), Sound s →
    (∀ ok0 ok1, s.pwr.stage = 1 → s.pwr.capoOn = false → s.fw.recovery = false → s.fw.legalPending = false →
      (s.legalOk s.fw.legal ok0 ok1 = true → ∃ t, exec (.capoBootVerified u ok0 ok1) s = .next t ∧ t.pwr.stage = 2 ∧
        t.pwr.capoOn = true ∧ t.host.capo = true ∧ t.fw = s.fw ∧ Keeps [.clk, .host, .pwr] s t) ∧
      (s.legalOk s.fw.legal ok0 ok1 = false → s.legalOk (1 - s.fw.legal) ok0 ok1 = true →
        ∃ t, exec (.capoBootVerified u ok0 ok1) s = .next t ∧ t.pwr.stage = 2 ∧ t.pwr.capoOn = true ∧ t.host.capo = true ∧
        t.fw.legal = 1 - s.fw.legal ∧ Raised t 53 [2, 0, 4] ∧ Keeps [.clk, .host, .fw, .pwr] s t) ∧
      (s.legalOk s.fw.legal ok0 ok1 = false → s.legalOk (1 - s.fw.legal) ok0 ok1 = false →
        ∃ t, exec (.capoBootVerified u ok0 ok1) s = .next t ∧ t.fw = { s.fw with recovery := true } ∧ t.pwr.stage = 1 ∧
        t.pwr.capoOn = false ∧ Keeps [.clk, .host, .fw, .pwr] s t)) ∧
    (∀ ok0 ok1, s.pwr.stage = 1 → s.pwr.capoOn = false → s.fw.recovery = false → s.fw.legalPending = true →
      s.legalOk (1 - s.fw.legal) ok0 ok1 = true → ∃ t, exec (.capoBootVerified u ok0 ok1) s = .next t ∧ t.pwr.stage = 2 ∧
        t.pwr.capoOn = true ∧ t.host.capo = true ∧ t.fw.legal = 1 - s.fw.legal ∧ t.fw.legalPending = false ∧
        Keeps [.clk, .host, .fw, .pwr] s t) ∧
    (∀ badNew badOld key seed, s.pwr.stage = 2 → s.pwr.capoOn = true →
      ∃ t, exec (.parameterStoreLoaded u badNew badOld key seed) s = .next t ∧ t.pwr.stage = 3 ∧ t.eng.mode = t.pn ND_MODE ∧
        t.plc.borrow = (t.pn ND_MODE == 2) ∧ (badNew = none → badOld = none → t.par.stored = s.par.stored) ∧
        (badNew ≠ none → badOld = none → s.fw.trial = true → t.par.stored = s.par.oldCopy) ∧
        (badNew ≠ none → badOld ≠ none → t.par.stored = [] ∧ t.par.active = []) ∧
        Keeps [.clk, .par, .host, .eng, .pts, .sw, .saf, .plc, .sar, .pwr] s t) ∧
    (∀ copy0 copy1 words errors ms, s.pwr.stage = 3 →
      let found (l : List Nat) := (tryCopy (s.pn ND_KEY_REGEN_ATTEMPTS) (l.map (fun c => if c < 5 then c else 4))).1
      (s.keys.erased = false → found copy0 = 0 ∨ found copy1 = 0 → ∃ t, exec (.rootRegenerated u copy0 copy1 words errors ms) s = .next t ∧
        t.pwr.stage = 4 ∧ t.keys.root = some Config.pufRoot ∧ t.keys.regenFail = false ∧ t.keys.copy0 = found copy0 ∧
        Keeps [.clk, .host, .keys, .pwr] s t) ∧
      (s.keys.erased = false → found copy0 ≠ 0 → found copy1 ≠ 0 → ∃ t, exec (.rootRegenerated u copy0 copy1 words errors ms) s = .next t ∧
        t.pwr.stage = 4 ∧ t.keys.root = none ∧ t.keys.regenFail = true ∧ t.keys.copy0 = found copy0 ∧ t.keys.copy1 = found copy1 ∧
        Raised t 49 [0] ∧ Keeps [.clk, .host, .keys, .pwr] s t) ∧
      (s.keys.erased = true → 0 < s.pn ND_KEY_REGEN_ATTEMPTS →
        ∃ t, exec (.rootRegenerated u copy0 copy1 words errors ms) s = .next t ∧
        t.pwr.stage = 4 ∧ t.keys.root = none ∧ t.keys.regenFail = true ∧ Raised t 49 [0] ∧
        Keeps [.clk, .host, .keys, .pwr] s t)) ∧
    (∀ badE badB badL words, s.pwr.stage = 4 → s.pwr.capoOn = true →
      ∃ t, exec (.holdupMerge u badE badB badL words) s = .next t ∧ (t.pwr.stage = 5 ∨ t.pwr.stage = 6) ∧
        t.clk.frame = (match (s.findHoldup badE badB).last with | some n => n + 1 | none => 0) ∧
        t.par = s.par ∧ t.courses = s.courses ∧ t.sar = s.sar) ∧
    (∀ okA okB, s.fw.svcRunning = false → s.pwr.coreOn = true → s.pwr.stage = 5 ∨ s.fw.recovery = true →
      (∀ i other, s.host.held = [] → s.bootSlot okA okB = some (i, other) →
        ∃ t, exec (.serviceImageBooted u okA okB) s = .next t ∧ t.pwr.stage = (if s.pwr.stage = 5 then 6 else s.pwr.stage) ∧
        t.host.ready = true ∧ t.fw.svcRunning = true ∧ t.fw.active = i ∧ Keeps [.clk, .par, .host, .fw, .plc, .pwr] s t) ∧
      (s.bootSlot okA okB = none → ∃ t, exec (.serviceImageBooted u okA okB) s = .next t ∧ t.pwr.stage = s.pwr.stage ∧
        t.host.ready = s.host.ready ∧ t.fw = s.fw ∧ Keeps [.clk, .host, .pwr] s t))

/-- R266, R272, R289, R509, R510, R513, 01 R31 (Table 22.8): the warning, and a reset of the Capo. -/
def Obligations.SupplyWarningAndCapoEventsComplete : Prop :=
  ∀ (s : State) (u : Nat), Sound s →
    (∀ since, 5 ≤ s.pwr.stage → s.led.warnFrom = none → (s.pn ND_HOLDUP_SOURCES).testBit 0 = true →
      since + s.pn ND_PFW_FILTER * 1000 ≤ u → ∃ t, exec (.pfwWarning u since) s = .next t ∧ t.pwr.pfw = true ∧
        t.led = { s.led with warnFrom := some (max s.clk.up u), warnSrc := 1, commitDue := true, warnFrame := s.frm - 1,
                             tailing := false } ∧
        t.disp.rails = 0 ∧ t.disp.run = none ∧ Keeps [.clk, .host, .led, .disp, .fw, .pwr] s t) ∧
    (∀ since, 5 ≤ s.pwr.stage → s.led.warnFrom.isSome = true → s.led.warnSrc = 2 → (s.pn ND_HOLDUP_SOURCES).testBit 0 = true →
      since + s.pn ND_PFW_FILTER * 1000 ≤ u → ∃ t, exec (.pfwWarning u since) s = .next t ∧ t.pwr.pfw = true ∧
        t.led = { s.led with warnSrc := 3 } ∧ Keeps [.clk, .led, .pwr] s t) ∧
    (∀ vsw, 5 ≤ s.pwr.stage → s.led.warnFrom = none → (s.pn ND_HOLDUP_SOURCES).testBit 1 = true →
      vsw * 100 < s.pn ND_VSW_WARN * 102 → ∃ t, exec (.vswMonitorTrip u vsw) s = .next t ∧ t.pwr.vswLow = true ∧
        t.led = { s.led with warnFrom := some (max s.clk.up u), warnSrc := 2, commitDue := true, warnFrame := s.frm - 1,
                             tailing := false } ∧
        t.disp.rails = 0 ∧ t.disp.run = none ∧ (s.sw.powered = true → t.sw = { s.sw with vsw := vsw }) ∧
        Keeps [.clk, .host, .led, .sw, .disp, .fw, .pwr] s t) ∧
    (∀ since vsw t0, s.led.warnFrom = some t0 → since + s.pn ND_HOLDUP_RESUME * 1000000 ≤ u →
      (s.pn ND_HOLDUP_SOURCES).testBit 1 = false ∨ s.pn ND_VSW_WARN + 100 < vsw →
      ∃ t, exec (.warningEnd u since vsw) s = .next t ∧ t.pwr = { s.pwr with pfw := false, vswLow := false } ∧
        t.led = { s.led with warnFrom := none } ∧ Raised t 19 [byteOf (s.led.warnSrc - 1), 1] ∧
        Keeps [.clk, .host, .led, .sw, .pwr] s t) ∧
    (∀ code, s.pwr.capoOn = true →
      (∃ t, exec (.capoDivergence u code) s = .next t ∧
        t.pwr = { s.pwr with capoOn := false, capoReset := true, capoCause := 0, capoCode := code, capoFrame := s.frm } ∧
        t.host = { s.host with capo := false } ∧ t.fw.swapAt = none ∧ Keeps [.clk, .host, .fw, .pwr] s t) ∧
      (∃ t, exec (.capoException u code) s = .next t ∧
        t.pwr = { s.pwr with capoOn := false, capoReset := true, capoCause := 1, capoCode := code, capoFrame := s.frm } ∧
        t.host = { s.host with capo := false } ∧ t.fw.swapAt = none ∧ Keeps [.clk, .host, .fw, .pwr] s t)) ∧
    (∀ badE badB badL words key seed, s.pwr.coreOn = true → s.pwr.capoReset = true →
      ∃ m : State, exec (.capoRestart u badE badB badL words key seed) s = .next m.runHeld ∧
        m.pwr = { s.pwr with
          capoOn := true, capoReset := false, capoCause := 0, capoCode := 0
          corrected := m.pwr.corrected, banked := m.pwr.banked } ∧ m.host.capo = true ∧ m.disp = s.disp)

/-- R279, R284, R286, R288 (Tables 11.4, 11.7): the display's power and its timers. -/
def Obligations.DisplayPowerAndTimersComplete : Prop :=
  ∀ (s : State) (u : Nat), Sound s →
    (∀ i vep ven ladder,
      ((i = Instr.displayStart u vep ven ladder ∧ 5 ≤ s.pwr.stage ∧ s.disp.rails = 0 ∧ s.disp.retryDue = none) ∨
        (i = Instr.displayStartRetry u vep ven ladder ∧ ripeAt s.disp.retryDue u = true)) →
      s.pb ND_DISP_ENABLE = true → s.led.warnFrom = none →
      (5000000 < vep → ∃ t, exec i s = .next t ∧ t.disp.rails = 1 ∧ t.disp.railDue = some (u + 5000000) ∧
        t.disp.retryDue = none ∧ Keeps [.clk, .host, .disp, .pwr] s t) ∧
      (vep ≤ 5000000 → 10000000 < ven → ∃ t, exec i s = .next t ∧ t.disp.rails = 2 ∧ t.disp.railDue = some (u + 10000000) ∧
        t.disp.retryDue = none ∧ Keeps [.clk, .host, .disp, .pwr] s t) ∧
      (vep ≤ 5000000 → ven ≤ 10000000 → 11000000 < ladder → ∃ t, exec i s = .next t ∧ t.disp.rails = 3 ∧
        t.disp.railDue = some (u + 11000000) ∧ t.disp.retryDue = none ∧ Keeps [.clk, .host, .disp, .pwr] s t) ∧
      (vep ≤ 5000000 → ven ≤ 10000000 → ladder ≤ 11000000 → ∃ t, exec i s = .next t ∧ t.disp.rails = 4 ∧
        t.disp.railDue = none ∧ t.disp.retryDue = none ∧
        t.disp.dwellDue = some (u + max vep (max ven ladder) + s.pn ND_DISP_DWELL * 1000000000) ∧
        (s.disp.openRun = none → ∀ b, bandOf s.panelTemp = some b → s.wave b ≠ [] →
          ∃ r, t.disp.run = some r ∧ r.kind = 1 ∧ r.cause = 3 ∧ r.band = b ∧ r.target = 2 ^ 160 - 1) ∧
        Keeps [.clk, .host, .disp, .pwr] s t)) ∧
    (∀ d, s.disp.railDue = some d → d ≤ u → ∃ t, exec (.displayRailTimeout u) s = .next t ∧ t.disp.rails = 0 ∧
      t.disp.railDue = none ∧ t.disp.retryDue = some (u + 10000000000) ∧ t.disp.flen = false ∧ Raised t 47 [0, 0, 0] ∧
      Keeps [.clk, .host, .disp] s t) ∧
    (∀ d, s.disp.dwellDue = some d → d ≤ u → s.disp.pin = none → ∃ t, exec (.displayPageChange u) s = .next t ∧
      t.disp.page = s.nextPage s.disp.page ∧
      t.disp.dwellDue = some (max s.clk.up u + s.pn ND_DISP_DWELL * 1000000000) ∧ t.disp.image = s.disp.image ∧
      Keeps [.clk, .host, .disp] s t) ∧
    (∀ d x, s.disp.pinDue = some d → d ≤ u → s.disp.pin = some x → ∃ t, exec (.displayPinExpiry u) s = .next t ∧
      t.disp.pin = none ∧ t.disp.pinDue = none ∧ t.disp.page = s.nextPage s.disp.page ∧ Keeps [.clk, .host, .disp] s t) ∧
    (∀ d, s.disp.refreshDue = some d → d ≤ u → ∃ t, exec (.displayRefresh u) s = .next t ∧
      t.disp.refreshDue = some (u + s.pn ND_DISP_REFRESH * 1000000000) ∧ t.disp.image = s.disp.image ∧
      (s.disp.todo = [] → (s.at u).pageImage s.livePage = s.disp.image → t.disp.run = s.disp.run ∧ t.host = s.host) ∧
      Keeps [.clk, .host, .disp] s t) ∧
    (∀ d, s.disp.tempDue = some d → d ≤ u → ∃ t, exec (.displayTempExpiry u) s = .next t ∧
      t.disp = { s.disp with hostTemp := none, tempDue := none } ∧ Keeps [.clk, .disp] s t) ∧
    (∀ seg, s.disp.rails = 4 → seg < 160 ∨ seg = 0xFF → ∃ t, exec (.displayOvercurrent u seg) s = .next t ∧
      t.disp = { s.disp with faults := inc32 s.disp.faults } ∧ Raised t 47 [1, 0, byteOf seg] ∧ Keeps [.clk, .host, .disp] s t)

/-- R277, R284, R285, R287: the phases of a run. -/
def Obligations.DisplayPhaseEventsComplete : Prop :=
  ∀ (s : State) (u : Nat) (r : DispRun), Sound s → s.disp.run = some r →
    (∃ t m, exec (.displayBookMark u) s = .next t ∧ t.disp = { s.disp with run := some { r with marked := m } } ∧
      r.marked ≤ m ∧ (r.marked ≤ r.ms → m ≤ r.ms) ∧ Keeps [.clk, .disp] s t) ∧
    (r.kind ≠ 4 → r.start + r.ms * 1000000 ≤ u →
      (r.phase = none → ∃ t q, exec (.displayPhaseEnd u) s = .next t ∧ t.disp.book = bookAfter s.disp.book r r.ms ∧
        t.disp.run = some q ∧ q.phase = some 0 ∧ q.start = r.start + r.ms * 1000000 ∧ q.total = r.total + r.ms ∧
        q.kind = r.kind ∧ t.disp.image = s.disp.image ∧ Keeps [.clk, .disp] s t) ∧
      (∀ k, r.phase = some k → k + 1 < (s.wave r.band).length →
        ∃ t q, exec (.displayPhaseEnd u) s = .next t ∧ t.disp.book = bookAfter s.disp.book r r.ms ∧
        t.disp.run = some q ∧ q.phase = some (k + 1) ∧ q.start = r.start + r.ms * 1000000 ∧ q.total = r.total + r.ms ∧
        q.kind = r.kind ∧ t.disp.image = s.disp.image ∧ Keeps [.clk, .disp] s t) ∧
      (∀ k, r.phase = some k → (s.wave r.band).length ≤ k + 1 → r.kind = 1 →
        ∃ t q, exec (.displayPhaseEnd u) s = .next t ∧ t.disp.book = bookAfter s.disp.book r r.ms ∧
        t.disp.run = some q ∧ q.kind = 2 ∧ q.phase = some 0 ∧ Keeps [.clk, .disp] s t) ∧
      (∀ k, r.phase = some k → (s.wave r.band).length ≤ k + 1 → r.kind = 0 ∨ r.kind = 3 → s.disp.todo = [] →
        ∃ t, exec (.displayPhaseEnd u) s = .next t ∧ t.disp.book = bookAfter s.disp.book r r.ms ∧ t.disp.run = none ∧
        t.disp.image = r.target ∧ t.disp.valid = true ∧ Keeps [.clk, .host, .disp] s t))

/-- R436, R488, R489, R492, R493, R516 (Tables 18.6, 21.5, 21.6): firmware and attestation events. -/
def Obligations.FirmwareAndAttestationEventsComplete : Prop :=
  ∀ (s : State) (u : Nat), Sound s →
    (∀ g, s.fw.stage = some g → g.state = 1 →
      ∃ t, exec (.fwStageVerified u) s = .next t ∧
        Raised t 51 [byteOf g.kind, byteOf (s.stageOutcome (builtKind g.kind) g.built), 0,
          byteOf (s.stagedSlot (builtKind g.kind))] ∧
        (s.stageOutcome (builtKind g.kind) g.built = 0 →
          t.fw.stage = some { g with state := 2, info := some (imageInfo g.built) } ∧
          (builtKind g.kind = 0 → s.fw.svc.length = 2 → (t.svcSlot (s.stagedSlot 0 % 2)).info = some (imageInfo g.built))) ∧
        (s.stageOutcome (builtKind g.kind) g.built ≠ 0 → t.fw.stage = none ∧
          (s.stagedSlot (builtKind g.kind) < 2 → (t.svcSlot (s.stagedSlot (builtKind g.kind) % 2)).info = none) ∧
          (2 ≤ s.stagedSlot (builtKind g.kind) → (t.legalSlot (s.stagedSlot (builtKind g.kind) % 2)).info = none)) ∧ t.fw.active = s.fw.active ∧
        t.fw.legal = s.fw.legal ∧ Keeps [.clk, .host, .fw] s t) ∧
    (∀ d, s.fw.bootDue = some d →
      (u ≤ d → ∃ t, exec (.standbyReady u) s = .next t ∧
        t.fw = { s.fw with bootDue := none, hand := some (s.frm + 1, false) } ∧ Keeps [.clk, .fw] s t) ∧
      (∀ g, s.fw.stage = some g → d ≤ u → ∃ t, exec (.handoverBootTimeout u) s = .next t ∧
        t.fw = { s.fw with bootDue := none, hand := none, stage := some { g with state := 2 } } ∧
        Raised t 52 [byteOf g.kind, 1, 0, byteOf s.fw.active] ∧ Keeps [.clk, .host, .fw] s t)) ∧
    (∀ d, s.fw.trial = true → s.fw.confirmDue = some d → d ≤ u → s.fw.hand = none →
      ∃ t, exec (.fwConfirmTimeout u) s = .next t ∧ t.fw = { s.fw with hand := some (s.frm + 1, true) } ∧
        Keeps [.clk, .fw] s t) ∧
    (∀ exc, s.fw.svcRunning = true → ∃ t, exec (.serviceLivenessFail u exc) s = .next t ∧ t.host.held = [] ∧
      t.par.batch = none ∧ t.keys.queue = [] ∧ (∀ p, p < 16 → (t.outOf p).v2g = false) ∧
      (s.fw.trial = false → t.par.stored = s.par.stored ∧ t.fw.active = s.fw.active ∧ (s.handingOver = false → t.fw = s.fw) ∧
        (∀ g, s.handingOver = true → s.fw.stage = some g →
          t.fw = { s.fw with bootDue := none, hand := none, stage := some { g with state := 2 } } ∧
          Raised t 52 [byteOf g.kind, 1, 0, byteOf s.fw.active])) ∧
      (s.fw.trial = true → t.fw.trial = false ∧ t.fw.active = 1 - s.fw.active ∧ t.par.stored = s.par.oldCopy ∧
        Raised t 53 [0, 0, if exc.isSome then 2 else 1]) ∧
      Keeps [.clk, .servo, .par, .host, .pts, .keys, .ring, .fw] s t) ∧
    (∀ q rest, s.keys.queue = q :: rest →
      (s.keys.root ≠ none → s.keys.node.invalid = false → s.keys.regenFail = false →
        ∃ t signer d, exec (.attestationComplete u) s = .next t ∧ t.keys.queue = rest ∧
        s.privKey 1 0 s.keys.node.gen = some signer ∧ s.privKey q.cls q.pt (s.keyState q.cls q.pt).gen = some d ∧
        t.keys.ready = ((q.tag, statement 0 q.cls q.pt (s.keyState q.cls q.pt).gen s.nodeId q.nonce s.frm 0
          (3 + 4 * b2n (s.keyState q.cls q.pt).invalid + 8 * b2n (s.pb ND_LIFECYCLE)) (publicField q.cls d) 1 0xFF s.keys.node.gen
          signer) :: s.keys.ready).take 4 ∧ Raised t 50 [0, byteOf q.cls, byteOf q.pt, 0] ∧
        Keeps [.clk, .host, .keys] s t) ∧
      (s.keys.root = none ∨ s.keys.node.invalid = true ∨ s.keys.regenFail = true →
        ∃ t, exec (.attestationComplete u) s = .next t ∧ t.keys = { s.keys with queue := rest } ∧
        Raised t 50 [2, byteOf q.cls, byteOf q.pt, 0] ∧ Keeps [.clk, .host, .keys] s t))

/-- R521: what a write to the test window leaves as it was. -/
def Obligations.TestWritesOutsideTheirBoundsAreIgnored : Prop :=
  ∀ (s : State) (v : BitVec 32), Sound s → s.test.unlocked = true →
    (∀ i k, (∃ n, n < 8 ∧ (k, i) ∈ [(0, Instr.testStretchWrite n v), (1, .testFifoWrite v), (2, .testRingWrite v), (3, .testZcWrite v),
        (4, .testSafetyWrite v), (5, .testPlcWrite v), (6, .testMramWrite v), (7, .testWdWrite v)]) →
      (s.pn ND_TEST_ALLOW).testBit k = false →
      ∃ t, exec i s = .next t ∧ t.test.regs = s.test.regs ∧ t.test.eff = s.test.eff ∧ Keeps [.test] s t) ∧
    ((s.pn ND_TEST_ALLOW).testBit 2 = true → 1000 < bitsAt v 0 10 →
      ∃ t, exec (.testRingWrite v) s = .next t ∧ t.test.regs.ringDelay = s.test.regs.ringDelay) ∧
    ((s.pn ND_TEST_ALLOW).testBit 3 = true → (v.toInt < -1000000 ∨ 1000000 < v.toInt) →
      ∃ t, exec (.testZcWrite v) s = .next t ∧ t.test.regs.zc = s.test.regs.zc) ∧
    ((s.pn ND_TEST_ALLOW).testBit 4 = true → 1000 < bitsAt v 16 16 →
      ∃ t, exec (.testSafetyWrite v) s = .next t ∧ t.test.regs.safDelay = s.test.regs.safDelay) ∧
    ((s.pn ND_TEST_ALLOW).testBit 5 = true → 24 < bitsAt v 0 5 →
      ∃ t, exec (.testPlcWrite v) s = .next t ∧ t.test.regs.starve = s.test.regs.starve) ∧
    ((s.pn ND_TEST_ALLOW).testBit 6 = true → 10000 < bitsAt v 0 14 →
      ∃ t, exec (.testMramWrite v) s = .next t ∧ t.test.regs.mram = s.test.regs.mram) ∧
    (∀ n, n < 8 → (s.pn ND_TEST_ALLOW).testBit 0 = true → 146 < bitsAt v 12 8 →
      ∃ t, exec (.testStretchWrite n v) s = .next t ∧
        bitsAt (t.test.regs.stretch.getD n 0) 12 8 = bitsAt (s.test.regs.stretch.getD n 0) 12 8)

/-- R85: starts and reports of the time-triggered outputs. -/
def Obligations.OutputsStartAndReportByRule : Prop :=
  ∀ (s : State) (h : Hdr) (p : Bytes) (u i : Nat), Sound s → i < 8 →
    (Taken s 0x0703 h p → p.length = 20 → fld p 0 1 = i → fld p 1 1 = 1 → fld p 2 8 < s.nodeNow →
      ∃ t st, exec (.ttoSet h p) s = .next t ∧ st ≠ 0 ∧ Answered t 0x0703 h st [] ∧ t.servo = s.servo) ∧
    (Taken s 0x0703 h p → p.length = 20 → fld p 0 1 = i → fld p 1 1 = 2 → fld p 18 1 < 2 → fld p 19 1 < 2 → 8 ≤ fld p 14 4 →
      fld p 14 4 % 8 = 0 → 1000 ≤ fld p 10 4 → fld p 10 4 ≤ 1000000000 → fld p 10 4 % 8 = 0 → fld p 14 4 + 8 ≤ fld p 10 4 →
      ∃ t k, exec (.ttoSet h p) s = .next t ∧ Answered t 0x0703 h 0 [] ∧ (t.tto i).next = fld p 2 8 + k * fld p 10 4 ∧
        (s.nodeNow + 1000 ≤ (t.tto i).next) ∧ ∀ j, j < k → fld p 2 8 + j * fld p 10 4 < s.nodeNow + 1000) ∧
    ((s.tto i).armed = true → ripeAt (s.tto i).trailAt u = false → (s.tto i).next ≤ (s.at u).nodeNow →
      ((s.tto i).mode = 1 → ∃ t, exec (.ttoEdge u i) s = .next t ∧ Raised t 59 [byteOf i]) ∧
      ((s.tto i).mode = 2 → (s.tto i).report = true → ∃ t, exec (.ttoEdge u i) s = .next t ∧ Raised t 59 [byteOf i]) ∧
      ((s.tto i).mode = 2 → (s.tto i).report = false → ∃ t, exec (.ttoEdge u i) s = .next t ∧ t.host = s.host))

/-- R24: channels of a course. -/
def Obligations.CoursedChannelsReadAsTheirCourse : Prop :=
  ∀ (s : State) (h : Hdr) (j : Nat), Sound s → s.eng.mode = 1 → j < 64 →
    Taken s 0x030F h [byteOf (2 * j)] → Taken s 0x030F h [byteOf (2 * j + 1)] →
    ∃ t t' b, exec (.channelStatus h [byteOf (2 * j)]) s = .next t ∧ exec (.channelStatus h [byteOf (2 * j + 1)]) s = .next t' ∧
      Answered t 0x030F h 0 b ∧ Answered t' 0x030F h 0 b ∧
      b.take 2 = [byteOf (s.slice (2 * j)).gain, byteOf (courseCode (s.course j).state)]

/-- R457: the five bytes of a stream read. -/
def Obligations.StreamReadsCarryTheirTag : Prop :=
  ∀ (s : State) (k : Nat) (bad : Bool), Sound s → s.pwr.coreOn = true → k < 4 →
    ∃ t w tag, exec (.streamPortRead k bad) s = .next t ∧ tag < 8 ∧
      t.host.lastRead = [byteOf w, byteOf (w / 256), byteOf (w / 65536), byteOf (w / 16777216), byteOf tag] ∧
      (s.streamHeld k = false → ∀ w0 last b ws, (s.stream k).words = (w0, last, b) :: ws →
        w = w0 ∧ tag.testBit 0 = (bad || b) ∧ tag.testBit 1 = false ∧ tag.testBit 2 = last) ∧
      (s.streamHeld k = true ∨ (s.stream k).words = [] →
        tag.testBit 0 = false ∧ tag.testBit 1 = true ∧ tag.testBit 2 = false)

/-- R459: what a flush and a reset take from the FIFOs. -/
def Obligations.FlushAndResetsOfStreams : Prop :=
  ∀ (s : State), Sound s →
    (∀ k (v : BitVec 32), s.pwr.coreOn = true → k < 4 → v.getLsbD 0 = true → ∃ t l, exec (.streamFlush k v) s = .next t ∧
      (s.stream k).words = l ++ (t.stream k).words ∧ (∀ x ∈ (t.stream k).words, x.2.1 = false) ∧
      (l = [] ∨ ∃ x ∈ l.getLast?, x.2.1 = true)) ∧
    (∀ u i, s.pwr.coreOn = true → i ∈ [Instr.railRestartTrip u 0 0, .refclkLoss u, .resetnAssert u 10000 true, .thermalShutdown u 1450] →
      ∃ t, exec i s = .next t ∧ (∀ k, (t.stream k).words = []) ∧ ∀ c, (t.tci c).fifo.words = []) ∧
    (∀ u d, s.pwr.coreOn = true → s.pwr.tb = some d → d + 600000 ≤ u →
      ∃ t, exec (.brownOutReset u) s = .next t ∧ (∀ k, (t.stream k).words = []) ∧ ∀ c, (t.tci c).fifo.words = []) ∧
    (∀ u exc, s.fw.svcRunning = true → ∃ t, exec (.serviceLivenessFail u exc) s = .next t ∧
      (∀ k, t.stream k = s.stream k) ∧ ∀ c, t.tci c = s.tci c)

/-- R471, R475, R476: a refused commit. The checks are named on the state the request runs on. -/
def Obligations.RefusedCommitChangesNoParameter : Prop :=
  ∀ (s : State) (h : Hdr) (p : Bytes), Sound s → Taken s 0x0202 h (withFlags 1 p) →
    let all := (match s.par.batch with | some b => b.entries | none => []) ++ readEntries p
    let x := (s.accept 0x0202 h (withFlags 1 p)).closeBatch
    let g := x.future (x.batchValues all)
    4 ≤ p.length → p.length ≤ 244 → (p.length - 4) % 12 = 0 → fld p 3 1 = 0 → all.length ≤ 1024 →
    (match s.par.batch with | some b => b.num = fld p 0 2 | none => True) → duplicated (all.map entryValue) = false →
    (∀ f, x.firstFailure g 0 all = some f → ∃ t b, exec (.batchCommit h p) s = .next t ∧ Answered t 0x0202 h f.2 b ∧
      b.take 6 = le 2 (fld p 0 2) ++ le 2 all.length ++ le 2 f.1 ∧ f.2 ≠ 0 ∧ t.par = { s.par with batch := none } ∧
      Keeps [.clk, .par, .host] s t) ∧
    (x.firstFailure g 0 all = none → g.crossOk = false →
      ∃ t b, exec (.batchCommit h p) s = .next t ∧ Answered t 0x0202 h 6 b ∧
      b.take 6 = le 2 (fld p 0 2) ++ le 2 all.length ++ le 2 0xFFFF ∧ t.par = { s.par with batch := none } ∧
      Keeps [.clk, .par, .host] s t) ∧
    (x.firstFailure g 0 all = none → g.crossOk = true → 0 < logCount (x.batchValues all) →
      x.logFull (logCount (x.batchValues all)) = true →
      ∃ t b, exec (.batchCommit h p) s = .next t ∧ Answered t 0x0202 h 11 b ∧ t.par = { s.par with batch := none } ∧
      t.log.held = s.log.held ∧ t.log.next = s.log.next ∧ Keeps [.clk, .par, .host, .log] s t) ∧
    (x.firstFailure g 0 all = none → g.crossOk = true → x.logFull (logCount (x.batchValues all)) = false → g.admission.1 ≠ 0 →
      ∃ t b, exec (.batchCommit h p) s = .next t ∧ Answered t 0x0202 h 10 b ∧ t.par = { s.par with batch := none } ∧
      Raised t 55 [1] ∧ Keeps [.clk, .par, .host] s t)

/-- R326 (Table 13.3): the order of a turn. -/
def Obligations.SlotsFollowTheAllocationOrder : Prop :=
  ∀ (s : State) (l : List Sym) (n : Nat),
    let order := l.foldl (fun a y => s.insertSym y a) []
    order.Perm l ∧ ∀ x ∈ order.take n, ∀ y ∈ order.drop n, lexLess (s.symKey y) (s.symKey x) = false

/-- R248, R249: registers of a point over one frame's quantities. -/
def Obligations.LegalRegistersNeverRunBack : Prop :=
  ∀ (s : State) (p n : Nat) (q : List Nat), Sound s → p < 16 → (∀ i, (s.pt p).regs.getD i 0 ≤ regTop) →
    let t := s.addQuantities p n q
    (∀ i, (s.pt p).regs.getD i 0 ≤ (t.pt p).regs.getD i 0 ∧ (t.pt p).regs.getD i 0 ≤ regTop) ∧
    (∀ i, (s.pt p).regs.getD i 0 = regTop → (t.pt p).regs.getD i 0 = regTop) ∧
    (∀ k, k ≠ p → (t.pt k).regs = (s.pt k).regs)

/-- R261, R376, R377: the journal and the legal event log keep what is not acknowledged. -/
def Obligations.JournalAndLogKeepWhatIsNotAcknowledged : Prop :=
  (∀ (s : State) (d : DueRec) (b : Bytes), s.recs.journal.length ≤ 40960 →
    (s.recs.journal.map (fun j => j.slot)).Nodup →
    (∀ j ∈ s.recs.journal, s.slotAcked j = false → j ∈ (s.journalRec d b).recs.journal) ∧
    (s.journalRec d b).recs.journal.length ≤ 40960 ∧
    (s.recs.journal.length < 40960 ∨ (∃ j ∈ s.recs.journal, s.slotAcked j = true) →
      ∃ j ∈ (s.journalRec d b).recs.journal, j.series = d.series ∧ j.seq = d.seq ∧ j.bytes = b)) ∧
  (∀ (l : LegalLog) (b : Bytes), l.held.length ≤ 4096 →
    (∀ e ∈ l.held, (∀ a, l.acked = some a → a < e.index) → e ∈ (l.store b).held) ∧
    (l.store b).held.length ≤ 4096 ∧ (l.store b).next = l.next + 1 ∧
    (l.held.length < 4096 → ∃ e ∈ (l.store b).held, e.index = l.next ∧ e.bytes = b))

/-- R264, R265, R270: what a restart finds after an interval save. -/
def Obligations.SavedEntryIsTheOneFound : Prop :=
  ∀ (s : State) (w : Bool) (n : Nat), s.led.slots.length = 4 → (∀ x ∈ s.led.slots.filterMap id, x.gen < 2 ^ 64) →
    (∀ b ∈ s.led.banks.filterMap id, b.gen ≤ s.newestGen) →
    ∃ e, ((s.saveLedger w n).findHoldup [] []).entry = some e ∧ e.frame = n ∧ e.warning = w ∧
      (∀ x ∈ s.led.slots.filterMap id, x.gen < e.gen) ∧ ((s.saveLedger w n).findHoldup [] []).last = some n ∧
      ((s.saveLedger w n).findHoldup [] []).bank = none

/-- R33, R358 (Table 1.5): holds on a switch channel. -/
def Obligations.HoldsStandUntilTheyAreReleased : Prop :=
  ∀ (s : State) (n : Nat), Sound s → n < 32 →
    (∀ k, s.sw.powered = true →
      ((s.holdSi k n).swch n).on = s.safeOn n ∧ ((s.holdSi k n).swch n).cmd = s.safeOn n ∧
      ((s.holdSi k n).swch n).held134 = true) ∧
    (∀ k, s.sw.powered = true → s.sw.link = true → ((s.hold4 k n).swch n).on = s.safeOn n ∧
      ((s.hold4 k n).swch n).cmd = s.safeOn n ∧ ((s.hold4 k n).swch n).held134 = true) ∧
    (∀ k, s.sw.powered = true → s.sw.link = false → (s.hold4 k n).swch n = s.swch n ∧
      (s.hold4 k n).sw.waitOps = s.sw.waitOps ++ [.hold k n]) ∧
    (∀ b, (s.swch n).held134 = true → (s.command n b).swch n = s.swch n) ∧
    (∀ h p, Taken s 0x0315 h p → p.length = 2 → fld p 0 1 = n → fld p 1 1 = 1 → s.ptType (n / 2) ≠ 0 →
      s.pathLocked n = false → (s.swch n).held134 = true →
      ∃ t, exec (.switchCommand h p) s = .next t ∧ Answered t 0x0315 h 9 [] ∧ t.sw = s.sw ∧ Keeps [.clk, .host] s t) ∧
    (∀ k, ((s.releaseSi k).swch n).on = (s.swch n).on ∧ ((s.release4 k).swch n).on = (s.swch n).on ∧
      (∀ j ∈ (s.swch n).siHold, j ≠ k → j ∈ ((s.releaseSi k).swch n).siHold) ∧
      ((s.releaseSi k).swch n).hold4 = (s.swch n).hold4 ∧ ((s.releaseSi k).swch n).resHold = (s.swch n).resHold ∧
      ((s.releaseSi k).swch n).fsHold = (s.swch n).fsHold ∧
      (∀ j ∈ (s.swch n).hold4, j ≠ k → j ∈ ((s.release4 k).swch n).hold4) ∧
      ((s.release4 k).swch n).siHold = (s.swch n).siHold)

/-- R264, R267, R270: the registers of a point through a power cut. -/
def Obligations.BankAndEntryRestoreTheRegisters : Prop :=
  ∀ (s : State) (p m : Nat) (e : LedgerEntry) (y : LedgerPoint), Sound s → p < 16 → s.led.banks.length = 2 → s.led.sel < 2 →
    newestEntry (goodEntries s.led.slots []) = some e → e.pts[p]? = some y →
    y.regs = (s.pt p).advBase → (s.pt p).advBase.length = 38 → (s.pt p).regs.length = 38 → (s.pt p).tariff < 8 →
    (∀ i, (s.pt p).advBase.getD i 0 ≤ (s.pt p).regs.getD i 0 ∧ (s.pt p).regs.getD i 0 ≤ regTop ∧
      (s.pt p).regs.getD i 0 < (s.pt p).advBase.getD i 0 + 2 ^ 64) →
    (∀ i, i ∉ s.targets p → (s.pt p).regs.getD i 0 = (s.pt p).advBase.getD i 0) →
    (∀ b ∈ s.led.banks.filterMap id, b.gen = e.gen → b.frame < m) →
    let t := s.writeBank m
    ∃ b, (t.findHoldup [] []).entry = some e ∧ (t.findHoldup [] []).bank = some b ∧ b.frame = m ∧
      (t.findHoldup [] []).outcome = 0 ∧
      (((t.restore (some e) none).mergeBank b e.frame).pt p).regs = (s.pt p).regs

/-- The step of a machine that takes commands (the model's choice of a queue, log entry 2). -/
def Obligations.StepRunsTheFrontCommand : Prop :=
  ∀ (c : Instr) (rest : List Instr) (s : State), s.pending = c :: rest → step s = exec c { s with pending := rest }

/-- The model's choice for an empty queue (log entry 2). -/
def Obligations.AnEmptyQueueIdles : Prop :=
  ∀ (s : State), s.pending = [] → step s = .next s

/-- The frame of every command. -/
def Obligations.CommandsKeepTheirParts : Prop :=
  ∀ (c : Instr) (s t : State), exec c s = .next t → Keeps (touches c) s t ∧ t.pending = s.pending

/-- No command stops the machine. -/
def Obligations.EveryCommandCompletes : Prop :=
  ∀ (c : Instr) (s : State), (∃ t, exec c s = .next t) ∧ ∃ t, step s = .next t

/-- R465, R483 (Tables 19.16, 20.8): cases whose outcome the spec leaves undefined, as free values (log 8). -/
def Obligations.UndefinedHostCasesStayInTheHostSpace : Prop :=
  ∀ (s : State) (v : BitVec 32), Sound s → s.pwr.coreOn = true →
    (∀ i, ((∃ a, i = Instr.registerWrite a v false ∧ (a % 4 ≠ 0 ∨ isPort a = true)) ∨
        (∃ m, m < 8 ∧ i = Instr.registerWrite (0x0100 + 4 * m) v false ∧ v.getLsbD 0 = true ∧ s.mboxFree m = false ∧
          s.serving = false) ∨
        (∃ m w, m < 8 ∧ w < 64 ∧ i = Instr.registerWrite (0x1000 + 0x200 * m + 4 * w) v false ∧ (s.mbox m).req = true) ∨
        (∃ m heth, i = Instr.mailboxRelease m heth ∧ s.otherVia m heth = true)) →
      ∃ t, exec i s = .next t ∧ t.clk = { s.clk with freeCtr := t.clk.freeCtr } ∧
        t.host = { s.host with
          pend := t.host.pend, mask := t.host.mask, enable := t.host.enable, force := t.host.force, frameHi := t.host.frameHi
          scratch := t.host.scratch, badInstr := t.host.badInstr, short := t.host.short, hethRefused := t.host.hethRefused
          mbx := t.host.mbx, streams := t.host.streams, events := t.host.events, lastRead := t.host.lastRead } ∧
        (∀ k, ∃ n, (t.stream k).words = (s.stream k).words.drop n) ∧
        (∀ e, ∃ n, (t.host.events.getD e EventQueue.reset).details = (s.host.events.getD e EventQueue.reset).details.drop n) ∧
        Keeps [.clk, .host] s t) ∧
    (∀ a, a % 4 ≠ 0 ∨ isPort a = true → exec (.registerWrite a v true) s = .next (s.modHost (fun x => { x with hethRefused := true }))) ∧
    (∀ h p, s.mboxFree h.mbx = false ∨ hdrLegal h = false → ∃ t, exec (.identity h p) s = .next t ∧
      t.clk = { s.clk with freeCtr := t.clk.freeCtr } ∧ Keeps [.clk, .host] s t)

/-- R450, R520: the locked test window. -/
def Obligations.LockedTestWindowIgnoresWrites : Prop :=
  ∀ (s : State) (v : BitVec 32) (n : Nat), s.test.unlocked = false →
    (∀ i ∈ [Instr.testClear v, .testStretchWrite n v, .testFifoWrite v, .testRingWrite v, .testZcWrite v, .testSafetyWrite v,
      .testPlcWrite v, .testMramWrite v, .testWdWrite v], exec i s = .next s) ∧
    ∀ a, 0x0300 ≤ a → a < 0x0400 → s.regWord a = 0

/-- R450, R451, R454, R460, R520: the invariant holds at reset. -/
def Obligations.SoundAtReset : Prop := Sound State.reset

/-- R419, R450, R451, R454, R460, R520, R522: the invariant is kept. -/
def Obligations.EveryStepKeepsTheMachineSound : Prop :=
  ∀ (s t : State), Sound s → step s = .next t → Sound t
end

