-- ==== Sys2Proof/Laws/Keeps.lean ====
section
/-!
SUPPORT. How `Keeps` composes: steps, branches, folds, and the one-part updates.
-/

namespace Sys2Proof.Machine

/-- Every part of the first list is in the second. -/
def within (A B : List Part) : Bool := A.all (fun p => B.contains p)

theorem contains_of_within {A B : List Part} (h : within A B = true) {p : Part} (n : B.contains p = false) : A.contains p = false := by
  cases e : A.contains p with
  | false => rfl
  | true =>
    unfold within at h
    rw [List.all_eq_true] at h
    rw [h p (by simpa using e)] at n
    cases n

theorem within_of {A B : List Part} (h : within A B = true) : within A B = true := h

theorem Keeps.refl {T : List Part} {s : State} : Keeps T s s :=
  ⟨fun _ => rfl, fun _ => rfl, fun _ => rfl, fun _ => rfl, fun _ => rfl, fun _ => rfl, fun _ => rfl, fun _ => rfl, fun _ => rfl, fun _ => rfl, fun _ => rfl, fun _ => rfl, fun _ => rfl, fun _ => rfl, fun _ => rfl, fun _ => rfl, fun _ => rfl, fun _ => rfl, fun _ => rfl, fun _ => rfl, fun _ => rfl, fun _ => rfl⟩

/-- One more change within parts already allowed. -/
theorem Keeps.then {T A : List Part} {s x y : State} (g : Keeps A x y) (w : within A T = true) (h : Keeps T s x) : Keeps T s y where
  clk := fun n => (g.clk (contains_of_within w n)).trans (h.clk n)
  servo := fun n => (g.servo (contains_of_within w n)).trans (h.servo n)
  par := fun n => (g.par (contains_of_within w n)).trans (h.par n)
  host := fun n => (g.host (contains_of_within w n)).trans (h.host n)
  test := fun n => (g.test (contains_of_within w n)).trans (h.test n)
  slices := fun n => (g.slices (contains_of_within w n)).trans (h.slices n)
  courses := fun n => (g.courses (contains_of_within w n)).trans (h.courses n)
  eng := fun n => (g.eng (contains_of_within w n)).trans (h.eng n)
  pts := fun n => (g.pts (contains_of_within w n)).trans (h.pts n)
  recs := fun n => (g.recs (contains_of_within w n)).trans (h.recs n)
  led := fun n => (g.led (contains_of_within w n)).trans (h.led n)
  sw := fun n => (g.sw (contains_of_within w n)).trans (h.sw n)
  saf := fun n => (g.saf (contains_of_within w n)).trans (h.saf n)
  log := fun n => (g.log (contains_of_within w n)).trans (h.log n)
  keys := fun n => (g.keys (contains_of_within w n)).trans (h.keys n)
  disp := fun n => (g.disp (contains_of_within w n)).trans (h.disp n)
  plc := fun n => (g.plc (contains_of_within w n)).trans (h.plc n)
  ring := fun n => (g.ring (contains_of_within w n)).trans (h.ring n)
  sar := fun n => (g.sar (contains_of_within w n)).trans (h.sar n)
  fw := fun n => (g.fw (contains_of_within w n)).trans (h.fw n)
  pwr := fun n => (g.pwr (contains_of_within w n)).trans (h.pwr n)
  pending := fun n => (g.pending (contains_of_within w n)).trans (h.pending n)

theorem Keeps.mono {T A : List Part} {s t : State} (g : Keeps A s t) (w : within A T = true) : Keeps T s t := g.then w Keeps.refl

theorem Keeps.ite {T : List Part} {s x y : State} {c : Prop} [Decidable c] (h : Keeps T s x) (g : Keeps T s y) :
    Keeps T s (if c then x else y) := by
  split <;> assumption

theorem Keeps.foldl {α : Type} {T : List Part} {s x : State} {f : State → α → State} {l : List α}
    (g : ∀ y a, Keeps T y (f y a)) (w : within T T = true) (h : Keeps T s x) : Keeps T s (l.foldl f x) := by
  induction l generalizing x with
  | nil => exact h
  | cons a l ih => exact ih ((g x a).then w h)

theorem Keeps.forAll {T : List Part} {s x : State} {f : Nat → State → State} {l : List Nat}
    (g : ∀ i y, Keeps T y (f i y)) (w : within T T = true) (h : Keeps T s x) : Keeps T s (forAll l f x) :=
  Keeps.foldl (fun y a => g a y) w h

theorem State.modClk_keeps {T r s f} (w : within [.clk] T = true) (h : Keeps T r s) : Keeps T r (State.modClk s f) :=
  Keeps.then (A := [.clk]) (x := s) ⟨(fun n => by cases n), fun _ => rfl, fun _ => rfl, fun _ => rfl, fun _ => rfl, fun _ => rfl, fun _ => rfl, fun _ => rfl, fun _ => rfl, fun _ => rfl, fun _ => rfl, fun _ => rfl, fun _ => rfl, fun _ => rfl, fun _ => rfl, fun _ => rfl, fun _ => rfl, fun _ => rfl, fun _ => rfl, fun _ => rfl, fun _ => rfl, fun _ => rfl⟩ w h

theorem State.modServo_keeps {T r s f} (w : within [.servo] T = true) (h : Keeps T r s) : Keeps T r (State.modServo s f) :=
  Keeps.then (A := [.servo]) (x := s) ⟨fun _ => rfl, (fun n => by cases n), fun _ => rfl, fun _ => rfl, fun _ => rfl, fun _ => rfl, fun _ => rfl, fun _ => rfl, fun _ => rfl, fun _ => rfl, fun _ => rfl, fun _ => rfl, fun _ => rfl, fun _ => rfl, fun _ => rfl, fun _ => rfl, fun _ => rfl, fun _ => rfl, fun _ => rfl, fun _ => rfl, fun _ => rfl, fun _ => rfl⟩ w h

theorem State.modPar_keeps {T r s f} (w : within [.par] T = true) (h : Keeps T r s) : Keeps T r (State.modPar s f) :=
  Keeps.then (A := [.par]) (x := s) ⟨fun _ => rfl, fun _ => rfl, (fun n => by cases n), fun _ => rfl, fun _ => rfl, fun _ => rfl, fun _ => rfl, fun _ => rfl, fun _ => rfl, fun _ => rfl, fun _ => rfl, fun _ => rfl, fun _ => rfl, fun _ => rfl, fun _ => rfl, fun _ => rfl, fun _ => rfl, fun _ => rfl, fun _ => rfl, fun _ => rfl, fun _ => rfl, fun _ => rfl⟩ w h

theorem State.modHost_keeps {T r s f} (w : within [.host] T = true) (h : Keeps T r s) : Keeps T r (State.modHost s f) :=
  Keeps.then (A := [.host]) (x := s) ⟨fun _ => rfl, fun _ => rfl, fun _ => rfl, (fun n => by cases n), fun _ => rfl, fun _ => rfl, fun _ => rfl, fun _ => rfl, fun _ => rfl, fun _ => rfl, fun _ => rfl, fun _ => rfl, fun _ => rfl, fun _ => rfl, fun _ => rfl, fun _ => rfl, fun _ => rfl, fun _ => rfl, fun _ => rfl, fun _ => rfl, fun _ => rfl, fun _ => rfl⟩ w h

theorem State.modTest_keeps {T r s f} (w : within [.test] T = true) (h : Keeps T r s) : Keeps T r (State.modTest s f) :=
  Keeps.then (A := [.test]) (x := s) ⟨fun _ => rfl, fun _ => rfl, fun _ => rfl, fun _ => rfl, (fun n => by cases n), fun _ => rfl, fun _ => rfl, fun _ => rfl, fun _ => rfl, fun _ => rfl, fun _ => rfl, fun _ => rfl, fun _ => rfl, fun _ => rfl, fun _ => rfl, fun _ => rfl, fun _ => rfl, fun _ => rfl, fun _ => rfl, fun _ => rfl, fun _ => rfl, fun _ => rfl⟩ w h

theorem State.modSlices_keeps {T r s f} (w : within [.slices] T = true) (h : Keeps T r s) : Keeps T r (State.modSlices s f) :=
  Keeps.then (A := [.slices]) (x := s) ⟨fun _ => rfl, fun _ => rfl, fun _ => rfl, fun _ => rfl, fun _ => rfl, (fun n => by cases n), fun _ => rfl, fun _ => rfl, fun _ => rfl, fun _ => rfl, fun _ => rfl, fun _ => rfl, fun _ => rfl, fun _ => rfl, fun _ => rfl, fun _ => rfl, fun _ => rfl, fun _ => rfl, fun _ => rfl, fun _ => rfl, fun _ => rfl, fun _ => rfl⟩ w h

theorem State.modCourses_keeps {T r s f} (w : within [.courses] T = true) (h : Keeps T r s) : Keeps T r (State.modCourses s f) :=
  Keeps.then (A := [.courses]) (x := s) ⟨fun _ => rfl, fun _ => rfl, fun _ => rfl, fun _ => rfl, fun _ => rfl, fun _ => rfl, (fun n => by cases n), fun _ => rfl, fun _ => rfl, fun _ => rfl, fun _ => rfl, fun _ => rfl, fun _ => rfl, fun _ => rfl, fun _ => rfl, fun _ => rfl, fun _ => rfl, fun _ => rfl, fun _ => rfl, fun _ => rfl, fun _ => rfl, fun _ => rfl⟩ w h

theorem State.modEng_keeps {T r s f} (w : within [.eng] T = true) (h : Keeps T r s) : Keeps T r (State.modEng s f) :=
  Keeps.then (A := [.eng]) (x := s) ⟨fun _ => rfl, fun _ => rfl, fun _ => rfl, fun _ => rfl, fun _ => rfl, fun _ => rfl, fun _ => rfl, (fun n => by cases n), fun _ => rfl, fun _ => rfl, fun _ => rfl, fun _ => rfl, fun _ => rfl, fun _ => rfl, fun _ => rfl, fun _ => rfl, fun _ => rfl, fun _ => rfl, fun _ => rfl, fun _ => rfl, fun _ => rfl, fun _ => rfl⟩ w h

theorem State.modPts_keeps {T r s f} (w : within [.pts] T = true) (h : Keeps T r s) : Keeps T r (State.modPts s f) :=
  Keeps.then (A := [.pts]) (x := s) ⟨fun _ => rfl, fun _ => rfl, fun _ => rfl, fun _ => rfl, fun _ => rfl, fun _ => rfl, fun _ => rfl, fun _ => rfl, (fun n => by cases n), fun _ => rfl, fun _ => rfl, fun _ => rfl, fun _ => rfl, fun _ => rfl, fun _ => rfl, fun _ => rfl, fun _ => rfl, fun _ => rfl, fun _ => rfl, fun _ => rfl, fun _ => rfl, fun _ => rfl⟩ w h

theorem State.modRecs_keeps {T r s f} (w : within [.recs] T = true) (h : Keeps T r s) : Keeps T r (State.modRecs s f) :=
  Keeps.then (A := [.recs]) (x := s) ⟨fun _ => rfl, fun _ => rfl, fun _ => rfl, fun _ => rfl, fun _ => rfl, fun _ => rfl, fun _ => rfl, fun _ => rfl, fun _ => rfl, (fun n => by cases n), fun _ => rfl, fun _ => rfl, fun _ => rfl, fun _ => rfl, fun _ => rfl, fun _ => rfl, fun _ => rfl, fun _ => rfl, fun _ => rfl, fun _ => rfl, fun _ => rfl, fun _ => rfl⟩ w h

theorem State.modLed_keeps {T r s f} (w : within [.led] T = true) (h : Keeps T r s) : Keeps T r (State.modLed s f) :=
  Keeps.then (A := [.led]) (x := s) ⟨fun _ => rfl, fun _ => rfl, fun _ => rfl, fun _ => rfl, fun _ => rfl, fun _ => rfl, fun _ => rfl, fun _ => rfl, fun _ => rfl, fun _ => rfl, (fun n => by cases n), fun _ => rfl, fun _ => rfl, fun _ => rfl, fun _ => rfl, fun _ => rfl, fun _ => rfl, fun _ => rfl, fun _ => rfl, fun _ => rfl, fun _ => rfl, fun _ => rfl⟩ w h

theorem State.modSw_keeps {T r s f} (w : within [.sw] T = true) (h : Keeps T r s) : Keeps T r (State.modSw s f) :=
  Keeps.then (A := [.sw]) (x := s) ⟨fun _ => rfl, fun _ => rfl, fun _ => rfl, fun _ => rfl, fun _ => rfl, fun _ => rfl, fun _ => rfl, fun _ => rfl, fun _ => rfl, fun _ => rfl, fun _ => rfl, (fun n => by cases n), fun _ => rfl, fun _ => rfl, fun _ => rfl, fun _ => rfl, fun _ => rfl, fun _ => rfl, fun _ => rfl, fun _ => rfl, fun _ => rfl, fun _ => rfl⟩ w h

theorem State.modSaf_keeps {T r s f} (w : within [.saf] T = true) (h : Keeps T r s) : Keeps T r (State.modSaf s f) :=
  Keeps.then (A := [.saf]) (x := s) ⟨fun _ => rfl, fun _ => rfl, fun _ => rfl, fun _ => rfl, fun _ => rfl, fun _ => rfl, fun _ => rfl, fun _ => rfl, fun _ => rfl, fun _ => rfl, fun _ => rfl, fun _ => rfl, (fun n => by cases n), fun _ => rfl, fun _ => rfl, fun _ => rfl, fun _ => rfl, fun _ => rfl, fun _ => rfl, fun _ => rfl, fun _ => rfl, fun _ => rfl⟩ w h

theorem State.modLog_keeps {T r s f} (w : within [.log] T = true) (h : Keeps T r s) : Keeps T r (State.modLog s f) :=
  Keeps.then (A := [.log]) (x := s) ⟨fun _ => rfl, fun _ => rfl, fun _ => rfl, fun _ => rfl, fun _ => rfl, fun _ => rfl, fun _ => rfl, fun _ => rfl, fun _ => rfl, fun _ => rfl, fun _ => rfl, fun _ => rfl, fun _ => rfl, (fun n => by cases n), fun _ => rfl, fun _ => rfl, fun _ => rfl, fun _ => rfl, fun _ => rfl, fun _ => rfl, fun _ => rfl, fun _ => rfl⟩ w h

theorem State.modKeys_keeps {T r s f} (w : within [.keys] T = true) (h : Keeps T r s) : Keeps T r (State.modKeys s f) :=
  Keeps.then (A := [.keys]) (x := s) ⟨fun _ => rfl, fun _ => rfl, fun _ => rfl, fun _ => rfl, fun _ => rfl, fun _ => rfl, fun _ => rfl, fun _ => rfl, fun _ => rfl, fun _ => rfl, fun _ => rfl, fun _ => rfl, fun _ => rfl, fun _ => rfl, (fun n => by cases n), fun _ => rfl, fun _ => rfl, fun _ => rfl, fun _ => rfl, fun _ => rfl, fun _ => rfl, fun _ => rfl⟩ w h

theorem State.modDisp_keeps {T r s f} (w : within [.disp] T = true) (h : Keeps T r s) : Keeps T r (State.modDisp s f) :=
  Keeps.then (A := [.disp]) (x := s) ⟨fun _ => rfl, fun _ => rfl, fun _ => rfl, fun _ => rfl, fun _ => rfl, fun _ => rfl, fun _ => rfl, fun _ => rfl, fun _ => rfl, fun _ => rfl, fun _ => rfl, fun _ => rfl, fun _ => rfl, fun _ => rfl, fun _ => rfl, (fun n => by cases n), fun _ => rfl, fun _ => rfl, fun _ => rfl, fun _ => rfl, fun _ => rfl, fun _ => rfl⟩ w h

theorem State.modPlc_keeps {T r s f} (w : within [.plc] T = true) (h : Keeps T r s) : Keeps T r (State.modPlc s f) :=
  Keeps.then (A := [.plc]) (x := s) ⟨fun _ => rfl, fun _ => rfl, fun _ => rfl, fun _ => rfl, fun _ => rfl, fun _ => rfl, fun _ => rfl, fun _ => rfl, fun _ => rfl, fun _ => rfl, fun _ => rfl, fun _ => rfl, fun _ => rfl, fun _ => rfl, fun _ => rfl, fun _ => rfl, (fun n => by cases n), fun _ => rfl, fun _ => rfl, fun _ => rfl, fun _ => rfl, fun _ => rfl⟩ w h

theorem State.modRing_keeps {T r s f} (w : within [.ring] T = true) (h : Keeps T r s) : Keeps T r (State.modRing s f) :=
  Keeps.then (A := [.ring]) (x := s) ⟨fun _ => rfl, fun _ => rfl, fun _ => rfl, fun _ => rfl, fun _ => rfl, fun _ => rfl, fun _ => rfl, fun _ => rfl, fun _ => rfl, fun _ => rfl, fun _ => rfl, fun _ => rfl, fun _ => rfl, fun _ => rfl, fun _ => rfl, fun _ => rfl, fun _ => rfl, (fun n => by cases n), fun _ => rfl, fun _ => rfl, fun _ => rfl, fun _ => rfl⟩ w h

theorem State.modSar_keeps {T r s f} (w : within [.sar] T = true) (h : Keeps T r s) : Keeps T r (State.modSar s f) :=
  Keeps.then (A := [.sar]) (x := s) ⟨fun _ => rfl, fun _ => rfl, fun _ => rfl, fun _ => rfl, fun _ => rfl, fun _ => rfl, fun _ => rfl, fun _ => rfl, fun _ => rfl, fun _ => rfl, fun _ => rfl, fun _ => rfl, fun _ => rfl, fun _ => rfl, fun _ => rfl, fun _ => rfl, fun _ => rfl, fun _ => rfl, (fun n => by cases n), fun _ => rfl, fun _ => rfl, fun _ => rfl⟩ w h

theorem State.modFw_keeps {T r s f} (w : within [.fw] T = true) (h : Keeps T r s) : Keeps T r (State.modFw s f) :=
  Keeps.then (A := [.fw]) (x := s) ⟨fun _ => rfl, fun _ => rfl, fun _ => rfl, fun _ => rfl, fun _ => rfl, fun _ => rfl, fun _ => rfl, fun _ => rfl, fun _ => rfl, fun _ => rfl, fun _ => rfl, fun _ => rfl, fun _ => rfl, fun _ => rfl, fun _ => rfl, fun _ => rfl, fun _ => rfl, fun _ => rfl, fun _ => rfl, (fun n => by cases n), fun _ => rfl, fun _ => rfl⟩ w h

theorem State.modPwr_keeps {T r s f} (w : within [.pwr] T = true) (h : Keeps T r s) : Keeps T r (State.modPwr s f) :=
  Keeps.then (A := [.pwr]) (x := s) ⟨fun _ => rfl, fun _ => rfl, fun _ => rfl, fun _ => rfl, fun _ => rfl, fun _ => rfl, fun _ => rfl, fun _ => rfl, fun _ => rfl, fun _ => rfl, fun _ => rfl, fun _ => rfl, fun _ => rfl, fun _ => rfl, fun _ => rfl, fun _ => rfl, fun _ => rfl, fun _ => rfl, fun _ => rfl, fun _ => rfl, (fun n => by cases n), fun _ => rfl⟩ w h

theorem State.modPending_keeps {T r s f} (w : within [.pending] T = true) (h : Keeps T r s) : Keeps T r (State.modPending s f) :=
  Keeps.then (A := [.pending]) (x := s) ⟨fun _ => rfl, fun _ => rfl, fun _ => rfl, fun _ => rfl, fun _ => rfl, fun _ => rfl, fun _ => rfl, fun _ => rfl, fun _ => rfl, fun _ => rfl, fun _ => rfl, fun _ => rfl, fun _ => rfl, fun _ => rfl, fun _ => rfl, fun _ => rfl, fun _ => rfl, fun _ => rfl, fun _ => rfl, fun _ => rfl, fun _ => rfl, (fun n => by cases n)⟩ w h

theorem Keeps.foldlPair {α β : Type} {T : List Part} {s : State} {f : State × β → α → State × β} {l : List α} {x : State × β}
    (g : ∀ y a, Keeps T y.1 (f y a).1) (w : within T T = true) (h : Keeps T s x.1) : Keeps T s (l.foldl f x).1 := by
  induction l generalizing x with
  | nil => exact h
  | cons a l ih => exact ih ((g x a).then w h)


/-- The queue is as before: everything else may differ. -/
theorem Keeps.ofPending {s t : State} (h : t.pending = s.pending) : Keeps [.clk, .servo, .par, .host, .test, .slices, .courses, .eng, .pts, .recs, .led, .sw, .saf, .log, .keys, .disp, .plc, .ring, .sar, .fw, .pwr] s t :=
  ⟨(fun n => by cases n), (fun n => by cases n), (fun n => by cases n), (fun n => by cases n), (fun n => by cases n), (fun n => by cases n), (fun n => by cases n), (fun n => by cases n), (fun n => by cases n), (fun n => by cases n), (fun n => by cases n), (fun n => by cases n), (fun n => by cases n), (fun n => by cases n), (fun n => by cases n), (fun n => by cases n), (fun n => by cases n), (fun n => by cases n), (fun n => by cases n), (fun n => by cases n), (fun n => by cases n), fun _ => h⟩

/-- `Keeps` of an outcome: nothing is said of a fault or a refusal. -/
def KeepsO (T : List Part) (s : State) (o : Host.Outcome State Fault Refusal) : Prop := ∀ t, o = .next t → Keeps T s t

/-- `Keeps` of a state that may be missing. -/
def KeepsQ (T : List Part) (s : State) (o : Option State) : Prop := ∀ t, o = some t → Keeps T s t

/-- `Keeps` of a pair that may be missing. -/
def KeepsQP (T : List Part) (s : State) (o : Option (Bytes × State)) : Prop := ∀ t, o = some t → Keeps T s t.2

theorem KeepsO.next {T : List Part} {s x : State} (h : Keeps T s x) : KeepsO T s (.next x) := fun _ e => by cases e; exact h
theorem KeepsO.fault {T : List Part} {s : State} {f : Fault} : KeepsO T s (.fault f) := fun _ e => by cases e
theorem KeepsO.ite {T : List Part} {s : State} {c : Prop} [Decidable c] {x y : Host.Outcome State Fault Refusal} (h : KeepsO T s x)
    (g : KeepsO T s y) : KeepsO T s (if c then x else y) := by split <;> assumption
theorem KeepsO.mono {T A : List Part} {s : State} {o : Host.Outcome State Fault Refusal} (w : within A T = true) (h : KeepsO A s o) :
    KeepsO T s o := fun t e => (h t e).mono w
theorem KeepsQ.some {T : List Part} {s x : State} (h : Keeps T s x) : KeepsQ T s (.some x) := fun _ e => by cases e; exact h
theorem KeepsQ.none {T : List Part} {s : State} : KeepsQ T s .none := fun _ e => by cases e
theorem KeepsQ.ite {T : List Part} {s : State} {c : Prop} [Decidable c] {x y : Option State} (h : KeepsQ T s x)
    (g : KeepsQ T s y) : KeepsQ T s (if c then x else y) := by split <;> assumption
theorem KeepsQ.then {T A : List Part} {r s : State} {o : Option State} (g : KeepsQ A s o) (w : within A T = true) (h : Keeps T r s) :
    KeepsQ T r o := fun t e => (g t e).then w h
theorem KeepsQP.some {T : List Part} {s : State} {x : Bytes × State} (h : Keeps T s x.2) : KeepsQP T s (.some x) :=
  fun _ e => by cases e; exact h
theorem KeepsQP.none {T : List Part} {s : State} : KeepsQP T s .none := fun _ e => by cases e

theorem KeepsQ.bind {T : List Part} {s : State} {o : Option State} {f : State → Option State} (h : KeepsQ T s o)
    (g : ∀ x, KeepsQ T x (f x)) (w : within T T = true) : KeepsQ T s (o.bind f) := fun t e => by
  cases o with
  | none => cases e
  | some x => exact (g x t e).then w (h x rfl)

theorem KeepsQ.foldl {α : Type} {T : List Part} {s : State} {f : State → α → Option State} {l : List α} {o : Option State}
    (g : ∀ x a, KeepsQ T x (f x a)) (w : within T T = true) (h : KeepsQ T s o) :
    KeepsQ T s (l.foldl (fun o a => o.bind (fun x => f x a)) o) := by
  induction l generalizing o with
  | nil => exact h
  | cons a l ih => exact ih (h.bind (fun x => g x a) w)

end Sys2Proof.Machine
end

