-- ==== Sys2Proof/Laws/KeepsOps.lean ====
section
/-!
SUPPORT. Which parts of the state each operation of Machine/Ops.lean leaves as they are.
-/

namespace Sys2Proof.Machine

theorem State.at_keeps {T r s x1} (w : within [.clk] T = true) (h : Keeps T r s) : Keeps T r (State.at s x1) := by
  refine Keeps.then (A := [.clk]) ?_ w h
  clear w h
  unfold State.at
  repeat' (first | ((with_reducible apply within_of); rfl) | with_reducible (first | exact Keeps.refl | apply State.modClk_keeps | apply Keeps.ite | apply Keeps.foldl | apply Keeps.forAll | apply Keeps.foldlPair | intro _ _) | split | dsimp only [refuse, okS, okB, okParts])

theorem State.modConv_keeps {T r s x1 x2} (w : within [.sar] T = true) (h : Keeps T r s) : Keeps T r (State.modConv s x1 x2) := by
  refine Keeps.then (A := [.sar]) ?_ w h
  clear w h
  unfold State.modConv
  repeat' (first | ((with_reducible apply within_of); rfl) | with_reducible (first | exact Keeps.refl | apply State.modSar_keeps | apply Keeps.ite | apply Keeps.foldl | apply Keeps.forAll | apply Keeps.foldlPair | intro _ _) | split | dsimp only [refuse, okS, okB, okParts])

theorem State.modPt_keeps {T r s x1 x2} (w : within [.pts] T = true) (h : Keeps T r s) : Keeps T r (State.modPt s x1 x2) := by
  refine Keeps.then (A := [.pts]) ?_ w h
  clear w h
  unfold State.modPt
  repeat' (first | ((with_reducible apply within_of); rfl) | with_reducible (first | exact Keeps.refl | apply State.modPts_keeps | apply Keeps.ite | apply Keeps.foldl | apply Keeps.forAll | apply Keeps.foldlPair | intro _ _) | split | dsimp only [refuse, okS, okB, okParts])

theorem State.modOut_keeps {T r s x1 x2} (w : within [.pts] T = true) (h : Keeps T r s) : Keeps T r (State.modOut s x1 x2) := by
  refine Keeps.then (A := [.pts]) ?_ w h
  clear w h
  unfold State.modOut
  repeat' (first | ((with_reducible apply within_of); rfl) | with_reducible (first | exact Keeps.refl | apply State.modPt_keeps | apply Keeps.ite | apply Keeps.foldl | apply Keeps.forAll | apply Keeps.foldlPair | intro _ _) | split | dsimp only [refuse, okS, okB, okParts])

theorem State.modSlice_keeps {T r s x1 x2} (w : within [.slices] T = true) (h : Keeps T r s) : Keeps T r (State.modSlice s x1 x2) := by
  refine Keeps.then (A := [.slices]) ?_ w h
  clear w h
  unfold State.modSlice
  repeat' (first | ((with_reducible apply within_of); rfl) | with_reducible (first | exact Keeps.refl | apply State.modSlices_keeps | apply Keeps.ite | apply Keeps.foldl | apply Keeps.forAll | apply Keeps.foldlPair | intro _ _) | split | dsimp only [refuse, okS, okB, okParts])

theorem State.modSwch_keeps {T r s x1 x2} (w : within [.sw] T = true) (h : Keeps T r s) : Keeps T r (State.modSwch s x1 x2) := by
  refine Keeps.then (A := [.sw]) ?_ w h
  clear w h
  unfold State.modSwch
  repeat' (first | ((with_reducible apply within_of); rfl) | with_reducible (first | exact Keeps.refl | apply State.modSw_keeps | apply Keeps.ite | apply Keeps.foldl | apply Keeps.forAll | apply Keeps.foldlPair | intro _ _) | split | dsimp only [refuse, okS, okB, okParts])

theorem State.addDetail_keeps {T r s x1 x2} (w : within [.host] T = true) (h : Keeps T r s) : Keeps T r (State.addDetail s x1 x2) := by
  refine Keeps.then (A := [.host]) ?_ w h
  clear w h
  unfold State.addDetail
  repeat' (first | ((with_reducible apply within_of); rfl) | with_reducible (first | exact Keeps.refl | apply State.modHost_keeps | apply Keeps.ite | apply Keeps.foldl | apply Keeps.forAll | apply Keeps.foldlPair | intro _ _) | split | dsimp only [refuse, okS, okB, okParts])

theorem State.raise_keeps {T r s x1 x2 x3} (w : within [.host] T = true) (h : Keeps T r s) : Keeps T r (State.raise s x1 x2 x3) := by
  refine Keeps.then (A := [.host]) ?_ w h
  clear w h
  unfold State.raise
  repeat' (first | ((with_reducible apply within_of); rfl) | with_reducible (first | exact Keeps.refl | apply State.addDetail_keeps | apply State.modHost_keeps | apply Keeps.ite | apply Keeps.foldl | apply Keeps.forAll | apply Keeps.foldlPair | intro _ _) | split | dsimp only [refuse, okS, okB, okParts])

theorem State.modSes_keeps {T r s x1 x2} (w : within [.pts] T = true) (h : Keeps T r s) : Keeps T r (State.modSes s x1 x2) := by
  refine Keeps.then (A := [.pts]) ?_ w h
  clear w h
  unfold State.modSes
  repeat' (first | ((with_reducible apply within_of); rfl) | with_reducible (first | exact Keeps.refl | apply State.modPt_keeps | apply Keeps.ite | apply Keeps.foldl | apply Keeps.forAll | apply Keeps.foldlPair | intro _ _) | split | dsimp only [refuse, okS, okB, okParts])

theorem State.bump_keeps {T r s} (w : within [.clk] T = true) (h : Keeps T r s) : Keeps T r (State.bump s) := by
  refine Keeps.then (A := [.clk]) ?_ w h
  clear w h
  unfold State.bump
  repeat' (first | ((with_reducible apply within_of); rfl) | with_reducible (first | exact Keeps.refl | apply State.modClk_keeps | apply Keeps.ite | apply Keeps.foldl | apply Keeps.forAll | apply Keeps.foldlPair | intro _ _) | split | dsimp only [refuse, okS, okB, okParts])

theorem State.confined_keeps {T r s} (w : within [.clk, .host] T = true) (h : Keeps T r s) : Keeps T r (State.confined s) := by
  refine Keeps.then (A := [.clk, .host]) ?_ w h
  clear w h
  unfold State.confined
  repeat' (first | ((with_reducible apply within_of); rfl) | with_reducible (first | exact Keeps.refl | apply State.bump_keeps | apply State.modHost_keeps | apply Keeps.ite | apply Keeps.foldl | apply Keeps.forAll | apply Keeps.foldlPair | intro _ _) | split | dsimp only [refuse, okS, okB, okParts])

theorem State.modMbox_keeps {T r s x1 x2} (w : within [.host] T = true) (h : Keeps T r s) : Keeps T r (State.modMbox s x1 x2) := by
  refine Keeps.then (A := [.host]) ?_ w h
  clear w h
  unfold State.modMbox
  repeat' (first | ((with_reducible apply within_of); rfl) | with_reducible (first | exact Keeps.refl | apply State.modHost_keeps | apply Keeps.ite | apply Keeps.foldl | apply Keeps.forAll | apply Keeps.foldlPair | intro _ _) | split | dsimp only [refuse, okS, okB, okParts])

theorem State.holdReq_keeps {T r s x1 x2 x3} (w : within [.host] T = true) (h : Keeps T r s) : Keeps T r (State.holdReq s x1 x2 x3) := by
  refine Keeps.then (A := [.host]) ?_ w h
  clear w h
  unfold State.holdReq
  repeat' (first | ((with_reducible apply within_of); rfl) | with_reducible (first | exact Keeps.refl | apply State.modHost_keeps | apply State.modMbox_keeps | apply Keeps.ite | apply Keeps.foldl | apply Keeps.forAll | apply Keeps.foldlPair | intro _ _) | split | dsimp only [refuse, okS, okB, okParts])

theorem State.post_keeps {T r s x1 x2 x3 x4 x5} (w : within [.clk, .host] T = true) (h : Keeps T r s) : Keeps T r (State.post s x1 x2 x3 x4 x5) := by
  refine Keeps.then (A := [.clk, .host]) ?_ w h
  clear w h
  unfold State.post
  repeat' (first | ((with_reducible apply within_of); rfl) | with_reducible (first | exact Keeps.refl | apply State.bump_keeps | apply State.modMbox_keeps | apply State.raise_keeps | apply Keeps.ite | apply Keeps.foldl | apply Keeps.forAll | apply Keeps.foldlPair | intro _ _) | split | dsimp only [refuse, okS, okB, okParts])

theorem Ans.send_keeps {T r a h' code} (w : within [.clk, .host] T = true) (h : Keeps T r a.st) : Keeps T r (Ans.send a h' code) := by
  refine Keeps.then (A := [.clk, .host]) ?_ w h
  unfold Ans.send
  split
  · exact State.post_keeps rfl Keeps.refl
  · exact State.post_keeps rfl (State.modMbox_keeps rfl Keeps.refl)

theorem State.dropAnswer_keeps {T r s x1} (w : within [.host] T = true) (h : Keeps T r s) : Keeps T r (State.dropAnswer s x1) := by
  refine Keeps.then (A := [.host]) ?_ w h
  clear w h
  unfold State.dropAnswer
  repeat' (first | ((with_reducible apply within_of); rfl) | with_reducible (first | exact Keeps.refl | apply State.modMbox_keeps | apply Keeps.ite | apply Keeps.foldl | apply Keeps.forAll | apply Keeps.foldlPair | intro _ _) | split | dsimp only [refuse, okS, okB, okParts])

theorem State.answerPart_keeps {T r s x1 x2} (w : within [.clk, .host] T = true) (h : Keeps T r s) : Keeps T r (State.answerPart s x1 x2) := by
  refine Keeps.then (A := [.clk, .host]) ?_ w h
  clear w h
  unfold State.answerPart
  repeat' (first | ((with_reducible apply within_of); rfl) | with_reducible (first | exact Keeps.refl | apply State.dropAnswer_keeps | apply State.post_keeps | apply Keeps.ite | apply Keeps.foldl | apply Keeps.forAll | apply Keeps.foldlPair | intro _ _) | split | dsimp only [refuse, okS, okB, okParts])

theorem State.dropHeld_keeps {T r s x1} (w : within [.host] T = true) (h : Keeps T r s) : Keeps T r (State.dropHeld s x1) := by
  refine Keeps.then (A := [.host]) ?_ w h
  clear w h
  unfold State.dropHeld
  repeat' (first | ((with_reducible apply within_of); rfl) | with_reducible (first | exact Keeps.refl | apply State.modMbox_keeps | apply Keeps.ite | apply Keeps.foldl | apply Keeps.forAll | apply Keeps.foldlPair | intro _ _) | split | dsimp only [refuse, okS, okB, okParts])

theorem State.take_keeps {T A r s code h' p serve} (g : ∀ p s, Keeps A s (Ans.st (serve p s))) (v : within A T = true)
    (w : within [.clk, .host] T = true) (h : Keeps T r s) : Keeps T r (State.take s code h' p serve) := by
  have g' : ∀ p x, Keeps T r x → Keeps T r (loaderOnly code serve p x).st := fun p x hx => by
    unfold loaderOnly
    split
    · exact hx
    · exact (g p x).then v hx
  have pw : within [.host] T = true := by
    unfold within at w ⊢
    simp_all
  unfold State.take
  repeat' (first | assumption | with_reducible (first | apply State.post_keeps | apply State.dropAnswer_keeps | apply State.dropHeld_keeps | apply State.answerPart_keeps | apply State.modMbox_keeps | apply Ans.send_keeps | apply g') | split | dsimp only)

theorem State.undefinedRequest_keeps {T r s run} (g : ∀ x, Keeps T x (run x)) (w : within [.clk, .host] T = true) (h : Keeps T r s) :
    Keeps T r (State.undefinedRequest s run) := by
  have v : within [.clk] T = true := by
    unfold within at w ⊢
    simp_all
  unfold State.undefinedRequest
  split
  · exact (g _).then (by unfold within; simp) (State.bump_keeps v h)
  · exact State.confined_keeps w h

theorem State.writeReq_keeps {T r s x1 x2 x3} (w : within [.host] T = true) (h : Keeps T r s) : Keeps T r (State.writeReq s x1 x2 x3) := by
  refine Keeps.then (A := [.host]) ?_ w h
  clear w h
  unfold State.writeReq
  repeat' (first | ((with_reducible apply within_of); rfl) | with_reducible (first | exact Keeps.refl | apply State.modMbox_keeps | apply Keeps.ite | apply Keeps.foldl | apply Keeps.forAll | apply Keeps.foldlPair | intro _ _) | split | dsimp only [refuse, okS, okB, okParts])

theorem hostCmd_keeps {T A s code h' p serve} (g : ∀ p s, Keeps A s (Ans.st (serve p s))) (v : within A T = true)
    (w : within [.clk, .host] T = true) : KeepsO T s (hostCmd code h' p serve s) := by
  have pw : within [.host] T = true := by
    unfold within at w ⊢
    simp_all
  unfold hostCmd
  split
  · exact KeepsO.next Keeps.refl
  · split
    · split
      · exact KeepsO.next (State.take_keeps g v w (State.writeReq_keeps pw Keeps.refl))
      · exact KeepsO.next (State.holdReq_keeps pw (State.writeReq_keeps pw Keeps.refl))
    · split
      · exact KeepsO.next (State.undefinedRequest_keeps (fun _ => State.take_keeps g v w (State.writeReq_keeps pw Keeps.refl)) w Keeps.refl)
      · exact KeepsO.next (State.confined_keeps w Keeps.refl)

theorem State.modStream_keeps {T r s x1 x2} (w : within [.host] T = true) (h : Keeps T r s) : Keeps T r (State.modStream s x1 x2) := by
  refine Keeps.then (A := [.host]) ?_ w h
  clear w h
  unfold State.modStream
  repeat' (first | ((with_reducible apply within_of); rfl) | with_reducible (first | exact Keeps.refl | apply State.modHost_keeps | apply Keeps.ite | apply Keeps.foldl | apply Keeps.forAll | apply Keeps.foldlPair | intro _ _) | split | dsimp only [refuse, okS, okB, okParts])

theorem State.unitLost_keeps {T r s x1 x2} (w : within [.host] T = true) (h : Keeps T r s) : Keeps T r (State.unitLost s x1 x2) := by
  refine Keeps.then (A := [.host]) ?_ w h
  clear w h
  unfold State.unitLost
  repeat' (first | ((with_reducible apply within_of); rfl) | with_reducible (first | exact Keeps.refl | apply State.modStream_keeps | apply State.raise_keeps | apply Keeps.ite | apply Keeps.foldl | apply Keeps.forAll | apply Keeps.foldlPair | intro _ _) | split | dsimp only [refuse, okS, okB, okParts])

theorem State.streamReport_keeps {T r s x1 x2} (w : within [.host] T = true) (h : Keeps T r s) : Keeps T r (State.streamReport s x1 x2) := by
  refine Keeps.then (A := [.host]) ?_ w h
  clear w h
  unfold State.streamReport
  repeat' (first | ((with_reducible apply within_of); rfl) | with_reducible (first | exact Keeps.refl | apply State.modStream_keeps | apply State.raise_keeps | apply Keeps.ite | apply Keeps.foldl | apply Keeps.forAll | apply Keeps.foldlPair | intro _ _) | split | dsimp only [refuse, okS, okB, okParts])

theorem State.unitDone_keeps {T r s x1} (w : within [.host] T = true) (h : Keeps T r s) : Keeps T r (State.unitDone s x1) := by
  refine Keeps.then (A := [.host]) ?_ w h
  clear w h
  unfold State.unitDone
  repeat' (first | ((with_reducible apply within_of); rfl) | with_reducible (first | exact Keeps.refl | apply State.modStream_keeps | apply State.streamReport_keeps | apply Keeps.ite | apply Keeps.foldl | apply Keeps.forAll | apply Keeps.foldlPair | intro _ _) | split | dsimp only [refuse, okS, okB, okParts])

theorem State.writeUnit_keeps {T r s x1 x2} (w : within [.host] T = true) (h : Keeps T r s) : Keeps T r (State.writeUnit s x1 x2) := by
  refine Keeps.then (A := [.host]) ?_ w h
  clear w h
  unfold State.writeUnit
  repeat' (first | ((with_reducible apply within_of); rfl) | with_reducible (first | exact Keeps.refl | apply State.modStream_keeps | apply State.unitDone_keeps | apply Keeps.ite | apply Keeps.foldl | apply Keeps.forAll | apply Keeps.foldlPair | intro _ _) | split | dsimp only [refuse, okS, okB, okParts])

theorem State.raiseMid_keeps {T r s x1 x2 x3 x4} (w : within [.host] T = true) (h : Keeps T r s) : Keeps T r (State.raiseMid s x1 x2 x3 x4) := by
  refine Keeps.then (A := [.host]) ?_ w h
  clear w h
  unfold State.raiseMid
  repeat' (first | ((with_reducible apply within_of); rfl) | with_reducible (first | exact Keeps.refl | apply State.addDetail_keeps | apply State.modHost_keeps | apply Keeps.ite | apply Keeps.foldl | apply Keeps.forAll | apply Keeps.foldlPair | intro _ _) | split | dsimp only [refuse, okS, okB, okParts])

theorem State.modPlcPort_keeps {T r s x1 x2} (w : within [.plc] T = true) (h : Keeps T r s) : Keeps T r (State.modPlcPort s x1 x2) := by
  refine Keeps.then (A := [.plc]) ?_ w h
  clear w h
  unfold State.modPlcPort
  repeat' (first | ((with_reducible apply within_of); rfl) | with_reducible (first | exact Keeps.refl | apply State.modPlc_keeps | apply Keeps.ite | apply Keeps.foldl | apply Keeps.forAll | apply Keeps.foldlPair | intro _ _) | split | dsimp only [refuse, okS, okB, okParts])

theorem State.queueFault_keeps {T r s x1 x2 x3} (w : within [.ring] T = true) (h : Keeps T r s) : Keeps T r (State.queueFault s x1 x2 x3) := by
  refine Keeps.then (A := [.ring]) ?_ w h
  clear w h
  unfold State.queueFault
  repeat' (first | ((with_reducible apply within_of); rfl) | with_reducible (first | exact Keeps.refl | apply State.modRing_keeps | apply Keeps.ite | apply Keeps.foldl | apply Keeps.forAll | apply Keeps.foldlPair | intro _ _) | split | dsimp only [refuse, okS, okB, okParts])

theorem State.raiseRaw_keeps {T r s x1 x2} (w : within [.host] T = true) (h : Keeps T r s) : Keeps T r (State.raiseRaw s x1 x2) := by
  refine Keeps.then (A := [.host]) ?_ w h
  clear w h
  unfold State.raiseRaw
  repeat' (first | ((with_reducible apply within_of); rfl) | with_reducible (first | exact Keeps.refl | apply State.addDetail_keeps | apply Keeps.ite | apply Keeps.foldl | apply Keeps.forAll | apply Keeps.foldlPair | intro _ _) | split | dsimp only [refuse, okS, okB, okParts])

theorem State.modSafIn_keeps {T r s x1 x2} (w : within [.saf] T = true) (h : Keeps T r s) : Keeps T r (State.modSafIn s x1 x2) := by
  refine Keeps.then (A := [.saf]) ?_ w h
  clear w h
  unfold State.modSafIn
  repeat' (first | ((with_reducible apply within_of); rfl) | with_reducible (first | exact Keeps.refl | apply State.modSaf_keeps | apply Keeps.ite | apply Keeps.foldl | apply Keeps.forAll | apply Keeps.foldlPair | intro _ _) | split | dsimp only [refuse, okS, okB, okParts])

theorem State.modScEntry_keeps {T r s x1 x2} (w : within [.saf] T = true) (h : Keeps T r s) : Keeps T r (State.modScEntry s x1 x2) := by
  refine Keeps.then (A := [.saf]) ?_ w h
  clear w h
  unfold State.modScEntry
  repeat' (first | ((with_reducible apply within_of); rfl) | with_reducible (first | exact Keeps.refl | apply State.modSaf_keeps | apply Keeps.ite | apply Keeps.foldl | apply Keeps.forAll | apply Keeps.foldlPair | intro _ _) | split | dsimp only [refuse, okS, okB, okParts])

theorem State.countStart_keeps {T r s x1 x2} (w : within [.host] T = true) (h : Keeps T r s) : Keeps T r (State.countStart s x1 x2) := by
  refine Keeps.then (A := [.host]) ?_ w h
  clear w h
  unfold State.countStart
  repeat' (first | ((with_reducible apply within_of); rfl) | with_reducible (first | exact Keeps.refl | apply State.modHost_keeps | apply Keeps.ite | apply Keeps.foldl | apply Keeps.forAll | apply Keeps.foldlPair | intro _ _) | split | dsimp only [refuse, okS, okB, okParts])

theorem State.raiseAt_keeps {T r s x1 x2 x3 x4 x5 x6} (w : within [.host] T = true) (h : Keeps T r s) : Keeps T r (State.raiseAt s x1 x2 x3 x4 x5 x6) := by
  refine Keeps.then (A := [.host]) ?_ w h
  clear w h
  unfold State.raiseAt
  repeat' (first | ((with_reducible apply within_of); rfl) | with_reducible (first | exact Keeps.refl | apply State.addDetail_keeps | apply State.countStart_keeps | apply Keeps.ite | apply Keeps.foldl | apply Keeps.forAll | apply Keeps.foldlPair | intro _ _) | split | dsimp only [refuse, okS, okB, okParts])

theorem State.wordLost_keeps {T r s x1} (w : within [.host] T = true) (h : Keeps T r s) : Keeps T r (State.wordLost s x1) := by
  refine Keeps.then (A := [.host]) ?_ w h
  clear w h
  unfold State.wordLost
  repeat' (first | ((with_reducible apply within_of); rfl) | with_reducible (first | exact Keeps.refl | apply State.modStream_keeps | apply State.raise_keeps | apply Keeps.ite | apply Keeps.foldl | apply Keeps.forAll | apply Keeps.foldlPair | intro _ _) | split | dsimp only [refuse, okS, okB, okParts])

theorem State.modCourse_keeps {T r s x1 x2} (w : within [.courses] T = true) (h : Keeps T r s) : Keeps T r (State.modCourse s x1 x2) := by
  refine Keeps.then (A := [.courses]) ?_ w h
  clear w h
  unfold State.modCourse
  repeat' (first | ((with_reducible apply within_of); rfl) | with_reducible (first | exact Keeps.refl | apply State.modCourses_keeps | apply Keeps.ite | apply Keeps.foldl | apply Keeps.forAll | apply Keeps.foldlPair | intro _ _) | split | dsimp only [refuse, okS, okB, okParts])

end Sys2Proof.Machine
end

