-- ==== Sys2Proof/Laws/Ops.lean ====
section
/-!
SUPPORT. Reading an indexed part after changing one: the entry changed, and the others.
-/

namespace Sys2Proof.Machine

theorem getD_upd_eq {α : Type} {l : List α} {i : Nat} {f : α → α} {d : α} (h : i < l.length) : (upd l i f).getD i d = f (l.getD i d) := by
  simp [upd, List.getD_eq_getElem?_getD, h]

theorem getD_upd_ne {α : Type} {l : List α} {i j : Nat} {f : α → α} {d : α} (h : i ≠ j) : (upd l i f).getD j d = l.getD j d := by
  simp [upd, List.getD_eq_getElem?_getD, h]

theorem State.modPt_same {s : State} {i : Nat} {f} (h : i < s.pts.length) : (s.modPt i f).pt i = f (s.pt i) := getD_upd_eq h
theorem State.modPt_other {s : State} {i j : Nat} {f} (h : i ≠ j) : (s.modPt i f).pt j = s.pt j := getD_upd_ne h

theorem State.modSlice_same {s : State} {i : Nat} {f} (h : i < s.slices.length) : (s.modSlice i f).slice i = f (s.slice i) := getD_upd_eq h
theorem State.modSlice_other {s : State} {i j : Nat} {f} (h : i ≠ j) : (s.modSlice i f).slice j = s.slice j := getD_upd_ne h

theorem State.modCourse_same {s : State} {i : Nat} {f} (h : i < s.courses.length) : (s.modCourse i f).course i = f (s.course i) := getD_upd_eq h
theorem State.modCourse_other {s : State} {i j : Nat} {f} (h : i ≠ j) : (s.modCourse i f).course j = s.course j := getD_upd_ne h

theorem State.modSwch_same {s : State} {i : Nat} {f} (h : i < s.sw.ch.length) : (s.modSwch i f).swch i = f (s.swch i) := getD_upd_eq h
theorem State.modSwch_other {s : State} {i j : Nat} {f} (h : i ≠ j) : (s.modSwch i f).swch j = s.swch j := getD_upd_ne h

theorem State.modSafIn_same {s : State} {i : Nat} {f} (h : i < s.saf.ins.length) : (s.modSafIn i f).safIn i = f (s.safIn i) := getD_upd_eq h
theorem State.modSafIn_other {s : State} {i j : Nat} {f} (h : i ≠ j) : (s.modSafIn i f).safIn j = s.safIn j := getD_upd_ne h

theorem State.modScEntry_same {s : State} {i : Nat} {f} (h : i < s.saf.entries.length) : (s.modScEntry i f).scEntry i = f (s.scEntry i) := getD_upd_eq h
theorem State.modScEntry_other {s : State} {i j : Nat} {f} (h : i ≠ j) : (s.modScEntry i f).scEntry j = s.scEntry j := getD_upd_ne h

theorem State.modConv_same {s : State} {i : Nat} {f} (h : i < s.sar.conv.length) : (s.modConv i f).conv i = f (s.conv i) := getD_upd_eq h
theorem State.modConv_other {s : State} {i j : Nat} {f} (h : i ≠ j) : (s.modConv i f).conv j = s.conv j := getD_upd_ne h

theorem State.modMbox_same {s : State} {i : Nat} {f} (h : i < s.host.mbx.length) : (s.modMbox i f).mbox i = f (s.mbox i) := getD_upd_eq h
theorem State.modMbox_other {s : State} {i j : Nat} {f} (h : i ≠ j) : (s.modMbox i f).mbox j = s.mbox j := getD_upd_ne h

theorem State.modStream_same {s : State} {i : Nat} {f} (h : i < s.host.streams.length) : (s.modStream i f).stream i = f (s.stream i) := getD_upd_eq h
theorem State.modStream_other {s : State} {i j : Nat} {f} (h : i ≠ j) : (s.modStream i f).stream j = s.stream j := getD_upd_ne h

theorem State.modPlcPort_same {s : State} {i : Nat} {f} (h : i < s.plc.ports.length) : (s.modPlcPort i f).plcPort i = f (s.plcPort i) := getD_upd_eq h
theorem State.modPlcPort_other {s : State} {i j : Nat} {f} (h : i ≠ j) : (s.modPlcPort i f).plcPort j = s.plcPort j := getD_upd_ne h

end Sys2Proof.Machine
end

