-- ==== Sys2Proof/Laws/Sound.lean ====
section
/-!
SUPPORT. How `Sound` passes through branches, folds and the one-part updates.
-/

namespace Sys2Proof.Machine

theorem sized_upd {α : Type} {n : Nat} {l : List α} {i : Nat} {f : α → α} (h : l.length = n) : (upd l i f).length = n := by
  simpa [upd] using h

theorem sized_map {α : Type} {n : Nat} {l : List α} {f : α → α} (h : l.length = n) : (l.map f).length = n := by
  simpa using h

theorem sized_mapIdx {α : Type} {n : Nat} {l : List α} {f : Nat → α → α} (h : l.length = n) : (l.mapIdx f).length = n := by
  simpa using h

theorem getD_upd {α : Type} {l : List α} {i j : Nat} {f : α → α} {d : α} (P : α → Prop) (h : P (l.getD j d))
    (g : i = j → P (l.getD j d) → P (f (l.getD j d))) : P ((upd l i f).getD j d) := by
  unfold upd
  rw [List.getD_eq_getElem?_getD, List.getElem?_modify]
  rw [List.getD_eq_getElem?_getD] at h g
  cases e : l[j]? with
  | none => simpa [e] using h
  | some a =>
    rw [e] at h g
    by_cases q : i = j
    · simpa [q] using g q h
    · simpa [q] using h

theorem HostOk.updBox {mbx : List Mailbox} {streams : List Fifo} {events : List EventQueue} (h : HostOk mbx streams events) {m : Nat}
    {f : Mailbox → Mailbox} (g : boxOk (mbx.getD m Mailbox.reset) → boxOk (f (mbx.getD m Mailbox.reset))) :
    HostOk (upd mbx m f) streams events :=
  ⟨sized_upd h.boxes, fun j => getD_upd boxOk (h.box j) (fun e => by cases e; exact g), h.fifos, h.fifo, h.queues, h.queue⟩

theorem HostOk.updFifo {mbx : List Mailbox} {streams : List Fifo} {events : List EventQueue} (h : HostOk mbx streams events) {k : Nat}
    {f : Fifo → Fifo} (g : ∀ x, FifoOk (streamBits k) x → FifoOk (streamBits k) (f x)) : HostOk mbx (upd streams k f) events :=
  ⟨h.boxes, h.box, sized_upd h.fifos,
    fun j l => getD_upd (FifoOk (streamBits j)) (h.fifo j l) (fun e => by cases e; exact g _), h.queues, h.queue⟩

theorem HostOk.updQueue {mbx : List Mailbox} {streams : List Fifo} {events : List EventQueue} (h : HostOk mbx streams events) {e : Nat}
    {f : EventQueue → EventQueue} (g : ∀ q : EventQueue, q.details.length ≤ 8 → (f q).details.length ≤ 8) :
    HostOk mbx streams (upd events e f) :=
  ⟨h.boxes, h.box, h.fifos, h.fifo, sized_upd h.queues,
    fun j => getD_upd (fun q : EventQueue => q.details.length ≤ 8) (h.queue j) (fun _ => g _)⟩

theorem EventQueue.add_small (q : EventQueue) (d : Bytes) (h : q.details.length ≤ 8) : (q.add d).details.length ≤ 8 := by
  unfold EventQueue.add
  split <;> simp <;> omega

theorem Sound.ite {x y : State} {c : Prop} [Decidable c] (h : Sound x) (g : Sound y) : Sound (if c then x else y) := by
  split <;> assumption

theorem Sound.foldl {α : Type} {x : State} {f : State → α → State} {l : List α} (h : Sound x) (g : ∀ y a, Sound y → Sound (f y a)) :
    Sound (l.foldl f x) := by
  induction l generalizing x with
  | nil => exact h
  | cons a l ih => exact ih (g x a h)

theorem Sound.forAll {x : State} {f : Nat → State → State} {l : List Nat} (h : Sound x) (g : ∀ i y, Sound y → Sound (f i y)) :
    Sound (forAll l f x) := h.foldl (fun y a => g a y)

theorem Sound.foldlPair {α β : Type} {f : State × β → α → State × β} {l : List α} {x : State × β} (h : Sound x.1)
    (g : ∀ y a, Sound y.1 → Sound (f y a).1) : Sound (l.foldl f x).1 := by
  induction l generalizing x with
  | nil => exact h
  | cons a l ih => exact ih (g x a h)

/-- A next state, if there is one, is sound. -/
def SoundO (o : Host.Outcome State Fault Refusal) : Prop := ∀ t, o = .next t → Sound t

theorem SoundO.next {x : State} (h : Sound x) : SoundO (.next x) := fun t e => by cases e; exact h
theorem SoundO.fault {f : Fault} : SoundO (.fault f) := fun t e => by cases e
theorem SoundO.ite {x y : Host.Outcome State Fault Refusal} {c : Prop} [Decidable c] (h : SoundO x) (g : SoundO y) :
    SoundO (if c then x else y) := by
  split <;> assumption

/-- A state, if there is one, is sound. -/
def SoundQ (o : Option State) : Prop := ∀ t, o = some t → Sound t

theorem SoundQ.some {x : State} (h : Sound x) : SoundQ (some x) := fun t e => by cases e; exact h
theorem SoundQ.none : SoundQ none := fun t e => by cases e
theorem SoundQ.ite {x y : Option State} {c : Prop} [Decidable c] (h : SoundQ x) (g : SoundQ y) : SoundQ (if c then x else y) := by
  split <;> assumption
theorem SoundQ.bind {o : Option State} {f : State → Option State} (h : SoundQ o) (g : ∀ x, Sound x → SoundQ (f x)) :
    SoundQ (o.bind f) := fun t e => by
  cases q : o with
  | none => rw [q] at e; cases e
  | some x => rw [q] at e; exact g x (h x q) t e
theorem SoundQ.foldl {α : Type} {f : Option State → α → Option State} {l : List α} {o : Option State} (h : SoundQ o)
    (g : ∀ y a, SoundQ y → SoundQ (f y a)) : SoundQ (l.foldl f o) := by
  induction l generalizing o with
  | nil => exact h
  | cons a l ih => exact ih (g o a h)

/-- A state answered beside a value, if there is one, is sound. -/
def SoundQP (o : Option (Bytes × State)) : Prop := ∀ t, o = some t → Sound t.2

theorem SoundQP.some {b : Bytes} {x : State} (h : Sound x) : SoundQP (some (b, x)) := fun t e => by cases e; exact h
theorem SoundQP.mk {r : Bytes × State} (h : Sound r.2) : SoundQP (Option.some r) := fun t e => by cases e; exact h
theorem SoundQP.none : SoundQP none := fun t e => by cases e

theorem State.modClk_sound {s f} (h : Sound s) : Sound (State.modClk s f) :=
  ⟨h.host, h.test, h.outputs, h.captures, h.pointKeys, h.tlsKeys, h.slices, h.courses, h.pts, h.switches, h.inputs, h.entries, h.converters, h.ports, h.reports⟩

theorem State.modServo_sound {s f} (h : Sound s) (g : s.servo.ttos.length = 8 → (f s.servo).ttos.length = 8) (g2 : s.servo.tcis.length = 4 → (f s.servo).tcis.length = 4) : Sound (State.modServo s f) :=
  ⟨h.host, h.test, g h.outputs, g2 h.captures, h.pointKeys, h.tlsKeys, h.slices, h.courses, h.pts, h.switches, h.inputs, h.entries, h.converters, h.ports, h.reports⟩

theorem State.modPar_sound {s f} (h : Sound s) : Sound (State.modPar s f) :=
  ⟨h.host, h.test, h.outputs, h.captures, h.pointKeys, h.tlsKeys, h.slices, h.courses, h.pts, h.switches, h.inputs, h.entries, h.converters, h.ports, h.reports⟩

theorem State.modHost_sound {s f} (h : Sound s) (g : HostOk s.host.mbx s.host.streams s.host.events → HostOk (f s.host).mbx (f s.host).streams (f s.host).events) : Sound (State.modHost s f) :=
  ⟨g h.host, h.test, h.outputs, h.captures, h.pointKeys, h.tlsKeys, h.slices, h.courses, h.pts, h.switches, h.inputs, h.entries, h.converters, h.ports, h.reports⟩

theorem State.modTest_sound {s f} (h : Sound s) (g : TestOk s.test.unlocked s.test.regs s.test.eff → TestOk (f s.test).unlocked (f s.test).regs (f s.test).eff) : Sound (State.modTest s f) :=
  ⟨h.host, g h.test, h.outputs, h.captures, h.pointKeys, h.tlsKeys, h.slices, h.courses, h.pts, h.switches, h.inputs, h.entries, h.converters, h.ports, h.reports⟩

theorem State.modSlices_sound {s f} (h : Sound s) (g : s.slices.length = 128 → (f s.slices).length = 128) : Sound (State.modSlices s f) :=
  ⟨h.host, h.test, h.outputs, h.captures, h.pointKeys, h.tlsKeys, g h.slices, h.courses, h.pts, h.switches, h.inputs, h.entries, h.converters, h.ports, h.reports⟩

theorem State.modCourses_sound {s f} (h : Sound s) (g : s.courses.length = 64 → (f s.courses).length = 64) : Sound (State.modCourses s f) :=
  ⟨h.host, h.test, h.outputs, h.captures, h.pointKeys, h.tlsKeys, h.slices, g h.courses, h.pts, h.switches, h.inputs, h.entries, h.converters, h.ports, h.reports⟩

theorem State.modEng_sound {s f} (h : Sound s) : Sound (State.modEng s f) :=
  ⟨h.host, h.test, h.outputs, h.captures, h.pointKeys, h.tlsKeys, h.slices, h.courses, h.pts, h.switches, h.inputs, h.entries, h.converters, h.ports, h.reports⟩

theorem State.modPts_sound {s f} (h : Sound s) (g : s.pts.length = 16 → (f s.pts).length = 16) : Sound (State.modPts s f) :=
  ⟨h.host, h.test, h.outputs, h.captures, h.pointKeys, h.tlsKeys, h.slices, h.courses, g h.pts, h.switches, h.inputs, h.entries, h.converters, h.ports, h.reports⟩

theorem State.modRecs_sound {s f} (h : Sound s) : Sound (State.modRecs s f) :=
  ⟨h.host, h.test, h.outputs, h.captures, h.pointKeys, h.tlsKeys, h.slices, h.courses, h.pts, h.switches, h.inputs, h.entries, h.converters, h.ports, h.reports⟩

theorem State.modLed_sound {s f} (h : Sound s) : Sound (State.modLed s f) :=
  ⟨h.host, h.test, h.outputs, h.captures, h.pointKeys, h.tlsKeys, h.slices, h.courses, h.pts, h.switches, h.inputs, h.entries, h.converters, h.ports, h.reports⟩

theorem State.modSw_sound {s f} (h : Sound s) (g : s.sw.ch.length = 32 → (f s.sw).ch.length = 32) : Sound (State.modSw s f) :=
  ⟨h.host, h.test, h.outputs, h.captures, h.pointKeys, h.tlsKeys, h.slices, h.courses, h.pts, g h.switches, h.inputs, h.entries, h.converters, h.ports, h.reports⟩

theorem State.modSaf_sound {s f} (h : Sound s) (g : s.saf.ins.length = 32 → (f s.saf).ins.length = 32) (g2 : s.saf.entries.length = 16 → (f s.saf).entries.length = 16) : Sound (State.modSaf s f) :=
  ⟨h.host, h.test, h.outputs, h.captures, h.pointKeys, h.tlsKeys, h.slices, h.courses, h.pts, h.switches, g h.inputs, g2 h.entries, h.converters, h.ports, h.reports⟩

theorem State.modLog_sound {s f} (h : Sound s) : Sound (State.modLog s f) :=
  ⟨h.host, h.test, h.outputs, h.captures, h.pointKeys, h.tlsKeys, h.slices, h.courses, h.pts, h.switches, h.inputs, h.entries, h.converters, h.ports, h.reports⟩

theorem State.modKeys_sound {s f} (h : Sound s) (g : s.keys.pts.length = 16 → (f s.keys).pts.length = 16) (g2 : s.keys.tls.length = 16 → (f s.keys).tls.length = 16) : Sound (State.modKeys s f) :=
  ⟨h.host, h.test, h.outputs, h.captures, g h.pointKeys, g2 h.tlsKeys, h.slices, h.courses, h.pts, h.switches, h.inputs, h.entries, h.converters, h.ports, h.reports⟩

theorem State.modDisp_sound {s f} (h : Sound s) : Sound (State.modDisp s f) :=
  ⟨h.host, h.test, h.outputs, h.captures, h.pointKeys, h.tlsKeys, h.slices, h.courses, h.pts, h.switches, h.inputs, h.entries, h.converters, h.ports, h.reports⟩

theorem State.modPlc_sound {s f} (h : Sound s) (g : s.plc.ports.length = 18 → (f s.plc).ports.length = 18) : Sound (State.modPlc s f) :=
  ⟨h.host, h.test, h.outputs, h.captures, h.pointKeys, h.tlsKeys, h.slices, h.courses, h.pts, h.switches, h.inputs, h.entries, h.converters, g h.ports, h.reports⟩

theorem State.modRing_sound {s f} (h : Sound s) (g : s.ring.faults.length ≤ 16 → (f s.ring).faults.length ≤ 16) : Sound (State.modRing s f) :=
  ⟨h.host, h.test, h.outputs, h.captures, h.pointKeys, h.tlsKeys, h.slices, h.courses, h.pts, h.switches, h.inputs, h.entries, h.converters, h.ports, g h.reports⟩

theorem State.modSar_sound {s f} (h : Sound s) (g : s.sar.conv.length = 4 → (f s.sar).conv.length = 4) : Sound (State.modSar s f) :=
  ⟨h.host, h.test, h.outputs, h.captures, h.pointKeys, h.tlsKeys, h.slices, h.courses, h.pts, h.switches, h.inputs, h.entries, g h.converters, h.ports, h.reports⟩

theorem State.modFw_sound {s f} (h : Sound s) : Sound (State.modFw s f) :=
  ⟨h.host, h.test, h.outputs, h.captures, h.pointKeys, h.tlsKeys, h.slices, h.courses, h.pts, h.switches, h.inputs, h.entries, h.converters, h.ports, h.reports⟩

theorem State.modPwr_sound {s f} (h : Sound s) : Sound (State.modPwr s f) :=
  ⟨h.host, h.test, h.outputs, h.captures, h.pointKeys, h.tlsKeys, h.slices, h.courses, h.pts, h.switches, h.inputs, h.entries, h.converters, h.ports, h.reports⟩

theorem State.modPending_sound {s f} (h : Sound s) : Sound (State.modPending s f) :=
  ⟨h.host, h.test, h.outputs, h.captures, h.pointKeys, h.tlsKeys, h.slices, h.courses, h.pts, h.switches, h.inputs, h.entries, h.converters, h.ports, h.reports⟩

theorem Sound.ofPending {s : State} {l : List Instr} (h : Sound s) : Sound { s with pending := l } :=
  ⟨h.host, h.test, h.outputs, h.captures, h.pointKeys, h.tlsKeys, h.slices, h.courses, h.pts, h.switches, h.inputs, h.entries, h.converters, h.ports, h.reports⟩

end Sys2Proof.Machine
end

