-- ==== Sys2Proof/Laws/SoundOps.lean ====
section
/-!
SUPPORT. Each operation of Machine/Ops.lean keeps the invariant `Sound`.
-/

namespace Sys2Proof.Machine

theorem fifoPush_ok {a t w : Nat} {last : Bool} {f : Fifo} (h : FifoOk a f) : FifoOk a (fifoPush a t w last f) := by
  refine ⟨h.rptr, ?_⟩
  have e := h.wptr
  simp only [fifoPush, wrapInc, List.length_append, List.length_cons, List.length_nil]
  rw [e, Nat.mod_add_mod]
  congr 1

theorem fifoPushUnit_ok {a t : Nat} {ws : List Nat} {f : Fifo} (h : FifoOk a f) : FifoOk a (fifoPushUnit a t ws f) := by
  induction ws generalizing f with
  | nil => exact h
  | cons w l ih =>
    cases l with
    | nil => exact fifoPush_ok h
    | cons v m => exact ih (fifoPush_ok h)

theorem fifoPushes_ok {a t : Nat} {ws : List Nat} {f : Fifo} (h : FifoOk a f) :
    FifoOk a (ws.foldl (fun f w => fifoPush a t w false f) f) := by
  induction ws generalizing f with
  | nil => exact h
  | cons w l ih => exact ih (fifoPush_ok h)

theorem fifoRead_ok {a t : Nat} {hold : Bool} {f : Fifo} (h : FifoOk a f) : FifoOk a (fifoRead a t hold f).2.2 := by
  unfold fifoRead
  split
  · next w last bad ws e =>
    have q := h.wptr
    rw [e] at q
    simp only [List.length_cons] at q
    refine ⟨Nat.mod_lt _ (Nat.two_pow_pos _), ?_⟩
    simp only [wrapInc]
    rw [q]
    simp only [Nat.mod_add_mod]
    congr 1
    omega
  · exact ⟨h.rptr, h.wptr⟩

theorem State.mbox_mod {s : State} {m : Nat} {f : Mailbox → Mailbox} (P : Mailbox → Prop) (h : P (s.mbox m))
    (g : P (s.mbox m) → P (f (s.mbox m))) : P ((s.modMbox m f).mbox m) :=
  getD_upd P h (fun _ => g)

theorem HostOk.ofReset : HostOk HostPort.reset.mbx HostPort.reset.streams HostPort.reset.events := by
  refine ⟨rfl, fun m => ?_, rfl, fun k h => ?_, rfl, fun e => ?_⟩
  · rw [List.getD_eq_getElem?_getD]
    simp only [HostPort.reset, List.getElem?_replicate]
    split <;> intro q <;> cases q
  · rw [List.getD_eq_getElem?_getD]
    simp only [HostPort.reset, List.getElem?_replicate, if_pos h]
    exact ⟨Nat.two_pow_pos _, (Nat.zero_mod _).symm⟩
  · rw [List.getD_eq_getElem?_getD]
    simp only [HostPort.reset, List.getElem?_replicate]
    split <;> exact Nat.zero_le _

theorem HostOk.mapBox {mbx : List Mailbox} {streams : List Fifo} {events : List EventQueue} (h : HostOk mbx streams events)
    {f : Mailbox → Mailbox} (g : ∀ b, boxOk b → boxOk (f b)) : HostOk (mbx.map f) streams events := by
  refine ⟨sized_map h.boxes, fun m => ?_, h.fifos, h.fifo, h.queues, h.queue⟩
  have q := h.box m
  rw [List.getD_eq_getElem?_getD] at q ⊢
  rw [List.getElem?_map]
  cases e : mbx[m]? with
  | none => intro a; cases a
  | some b => rw [e] at q; exact g b q

theorem Mailbox.confined_ok {n m : Nat} {b : Mailbox} : boxOk (b.confined n m) := by
  intro h
  unfold Mailbox.confined at h ⊢
  simp only [beq_iff_eq, beq_eq_false_iff_ne] at h ⊢
  omega

theorem Fifo.confined_ok {n k : Nat} {f : Fifo} (h : FifoOk (streamBits k) f) : FifoOk (streamBits k) (f.confined n k) := by
  refine ⟨Nat.mod_lt _ (Nat.two_pow_pos _), ?_⟩
  have q := h.wptr
  have d := Nat.mod_lt (Config.hostFree n (64 + k)) (Nat.succ_pos f.words.length)
  unfold Fifo.confined
  dsimp only
  generalize Config.hostFree n (64 + k) % (f.words.length + 1) = D at d ⊢
  rw [q, List.length_drop, Nat.mod_add_mod, show f.rptr + f.words.length = f.rptr + D + (f.words.length - D) by omega]

theorem State.at_sound {s x1} (h : Sound s) : Sound (State.at s x1) := by
  unfold State.at
  repeat' (first | with_reducible assumption | with_reducible (first | apply State.modClk_sound | apply Sound.ite | apply Sound.foldl | apply Sound.forAll | apply Sound.foldlPair | intro _ _ _) | split | dsimp only [refuse, okS, okB, okParts])

theorem State.modConv_sound {s x1 x2} (h : Sound s) : Sound (State.modConv s x1 x2) := by
  unfold State.modConv
  repeat' (first | with_reducible assumption | with_reducible (first | refine State.modSar_sound ?_ (by (first | exact fun a => a | exact fun a => by simpa [upd] using a | (intro a; (try dsimp only); repeat' split) <;> first | exact a | simpa [upd] using a | simp_all)) | apply Sound.ite | apply Sound.foldl | apply Sound.forAll | apply Sound.foldlPair | intro _ _ _) | split | dsimp only [refuse, okS, okB, okParts])

theorem State.modPt_sound {s x1 x2} (h : Sound s) : Sound (State.modPt s x1 x2) := by
  unfold State.modPt
  repeat' (first | with_reducible assumption | with_reducible (first | refine State.modPts_sound ?_ (by (first | exact fun a => a | exact fun a => by simpa [upd] using a | (intro a; (try dsimp only); repeat' split) <;> first | exact a | simpa [upd] using a | simp_all)) | apply Sound.ite | apply Sound.foldl | apply Sound.forAll | apply Sound.foldlPair | intro _ _ _) | split | dsimp only [refuse, okS, okB, okParts])

theorem State.modOut_sound {s x1 x2} (h : Sound s) : Sound (State.modOut s x1 x2) := by
  unfold State.modOut
  repeat' (first | with_reducible assumption | with_reducible (first | apply State.modPt_sound | apply Sound.ite | apply Sound.foldl | apply Sound.forAll | apply Sound.foldlPair | intro _ _ _) | split | dsimp only [refuse, okS, okB, okParts])

theorem State.modSlice_sound {s x1 x2} (h : Sound s) : Sound (State.modSlice s x1 x2) := by
  unfold State.modSlice
  repeat' (first | with_reducible assumption | with_reducible (first | refine State.modSlices_sound ?_ (by (first | exact fun a => a | exact fun a => by simpa [upd] using a | (intro a; (try dsimp only); repeat' split) <;> first | exact a | simpa [upd] using a | simp_all)) | apply Sound.ite | apply Sound.foldl | apply Sound.forAll | apply Sound.foldlPair | intro _ _ _) | split | dsimp only [refuse, okS, okB, okParts])

theorem State.modSwch_sound {s x1 x2} (h : Sound s) : Sound (State.modSwch s x1 x2) := by
  unfold State.modSwch
  repeat' (first | with_reducible assumption | with_reducible (first | refine State.modSw_sound ?_ (by (first | exact fun a => a | exact fun a => by simpa [upd] using a | (intro a; (try dsimp only); repeat' split) <;> first | exact a | simpa [upd] using a | simp_all)) | apply Sound.ite | apply Sound.foldl | apply Sound.forAll | apply Sound.foldlPair | intro _ _ _) | split | dsimp only [refuse, okS, okB, okParts])

theorem State.addDetail_sound {s x1 x2} (h : Sound s) : Sound (State.addDetail s x1 x2) := State.modHost_sound h (fun a => a.updQueue (fun q => q.add_small _))

theorem State.raise_sound {s x1 x2 x3} (h : Sound s) : Sound (State.raise s x1 x2 x3) := State.addDetail_sound (State.modHost_sound h (fun a => a.updQueue (fun _ b => b)))

theorem State.modSes_sound {s x1 x2} (h : Sound s) : Sound (State.modSes s x1 x2) := by
  unfold State.modSes
  repeat' (first | with_reducible assumption | with_reducible (first | apply State.modPt_sound | apply Sound.ite | apply Sound.foldl | apply Sound.forAll | apply Sound.foldlPair | intro _ _ _) | split | dsimp only [refuse, okS, okB, okParts])

theorem State.bump_sound {s} (h : Sound s) : Sound (State.bump s) := by
  unfold State.bump
  repeat' (first | with_reducible assumption | with_reducible (first | apply State.modClk_sound | apply Sound.ite | apply Sound.foldl | apply Sound.forAll | apply Sound.foldlPair | intro _ _ _) | split | dsimp only [refuse, okS, okB, okParts])

theorem State.confined_sound {s} (h : Sound s) : Sound (State.confined s) := by
  unfold State.confined
  refine State.modHost_sound (State.bump_sound h) ?_
  intro a
  refine (⟨sized_mapIdx a.boxes, fun m => ?_, sized_mapIdx a.fifos, fun k l => ?_,
    sized_mapIdx a.queues, fun e => ?_⟩)
  · rw [List.getD_eq_getElem?_getD, List.getElem?_mapIdx]
    cases (s.bump.host.mbx)[m]? with
    | none => exact fun e => by cases e
    | some b => exact Mailbox.confined_ok
  · have g := a.fifo k l
    rw [List.getD_eq_getElem?_getD] at g
    rw [List.getD_eq_getElem?_getD, List.getElem?_mapIdx]
    cases c : (s.bump.host.streams)[k]? with
    | none => rw [c] at g; exact g
    | some f => rw [c] at g; exact Fifo.confined_ok g
  · have g := a.queue e
    rw [List.getD_eq_getElem?_getD] at g
    rw [List.getD_eq_getElem?_getD, List.getElem?_mapIdx]
    cases c : (s.bump.host.events)[e]? with
    | none => exact Nat.zero_le _
    | some q =>
      rw [c] at g
      simp only [Option.map_some, Option.getD_some, List.length_drop] at g ⊢
      omega

theorem State.modMbox_sound {s x1 x2} (h : Sound s) (g : boxOk (s.mbox x1) → boxOk (x2 (s.mbox x1))) : Sound (State.modMbox s x1 x2) := State.modHost_sound h (fun a => a.updBox g)

theorem State.holdReq_sound {s x1 x2 x3} (h : Sound s) (g : (s.mbox x2.mbx).rsp = false) : Sound (State.holdReq s x1 x2 x3) := State.modHost_sound (State.modMbox_sound h (fun _ _ => g)) (fun a => a)

theorem State.post_sound {s x1 x2 x3 x4 x5} (h : Sound s) : Sound (State.post s x1 x2 x3 x4 x5) := by
  unfold State.post
  repeat' (first | with_reducible assumption | with_reducible (first | apply State.bump_sound | refine State.modMbox_sound ?_ (by first | exact fun a => a | exact fun a _ => rfl | exact fun _ e => by cases e) | apply State.raise_sound | apply Sound.ite | apply Sound.foldl | apply Sound.forAll | apply Sound.foldlPair | intro _ _ _) | split | dsimp only [refuse, okS, okB, okParts])

theorem Ans.send_sound {a h' code} (h : Sound (Ans.st a)) : Sound (Ans.send a h' code) := by
  unfold Ans.send
  split
  · exact State.post_sound h
  · exact State.post_sound (State.modMbox_sound h (fun a => a))

theorem State.dropAnswer_sound {s x1} (h : Sound s) : Sound (State.dropAnswer s x1) := by
  unfold State.dropAnswer
  repeat' (first | with_reducible assumption | with_reducible (first | refine State.modMbox_sound ?_ (by first | exact fun a => a | exact fun a _ => rfl | exact fun _ e => by cases e) | apply Sound.ite | apply Sound.foldl | apply Sound.forAll | apply Sound.foldlPair | intro _ _ _) | split | dsimp only [refuse, okS, okB, okParts])

theorem State.answerPart_sound {s x1 x2} (h : Sound s) : Sound (State.answerPart s x1 x2) := by
  unfold State.answerPart
  repeat' (first | with_reducible assumption | with_reducible (first | apply State.dropAnswer_sound | apply State.post_sound | apply Sound.ite | apply Sound.foldl | apply Sound.forAll | apply Sound.foldlPair | intro _ _ _) | split | dsimp only [refuse, okS, okB, okParts])

theorem State.dropHeld_sound {s x1} (h : Sound s) : Sound (State.dropHeld s x1) := by
  unfold State.dropHeld
  repeat' (first | with_reducible assumption | with_reducible (first | refine State.modMbox_sound ?_ (by first | exact fun a => a | exact fun a _ => rfl | exact fun _ e => by cases e) | apply Sound.ite | apply Sound.foldl | apply Sound.forAll | apply Sound.foldlPair | intro _ _ _) | split | dsimp only [refuse, okS, okB, okParts])

theorem State.take_sound {s code h' p serve} (h : Sound s) (g : ∀ p s, Sound s → Sound (Ans.st (serve p s))) : Sound (State.take s code h' p serve) := by
  have g' : ∀ p x, Sound x → Sound (loaderOnly code serve p x).st := fun p x hx => by
    unfold loaderOnly
    split
    · exact hx
    · exact g p x hx
  unfold State.take
  repeat' (first | assumption | with_reducible (first | apply State.post_sound | apply State.dropAnswer_sound | apply State.dropHeld_sound | apply State.answerPart_sound | refine State.modMbox_sound ?_ (by exact fun a => a) | apply Ans.send_sound | apply g') | split | dsimp only)

theorem State.undefinedRequest_sound {s run} (h : Sound s) (g : ∀ x, Sound x → Sound (run x)) : Sound (State.undefinedRequest s run) := by
  unfold State.undefinedRequest
  split
  · exact g _ (State.bump_sound h)
  · exact State.confined_sound h

theorem State.writeReq_sound {s x1 x2 x3} (h : Sound s) : Sound (State.writeReq s x1 x2 x3) := by
  unfold State.writeReq
  repeat' (first | with_reducible assumption | with_reducible (first | refine State.modMbox_sound ?_ (by first | exact fun a => a | exact fun a _ => rfl | exact fun _ e => by cases e) | apply Sound.ite | apply Sound.foldl | apply Sound.forAll | apply Sound.foldlPair | intro _ _ _) | split | dsimp only [refuse, okS, okB, okParts])

theorem hostCmd_sound {s code h' p serve} (h : Sound s) (g : ∀ p s, Sound s → Sound (Ans.st (serve p s))) : SoundO (hostCmd code h' p serve s) := by
  have w := State.writeReq_sound (x1 := code) (x2 := h') (x3 := p) h
  unfold hostCmd
  split
  · exact SoundO.next h
  · split
    · next free =>
      split
      · exact SoundO.next (State.take_sound w g)
      · refine SoundO.next (State.holdReq_sound w ?_)
        exact State.mbox_mod (fun b => b.rsp = false) (by simp [State.mboxFree] at free; exact free.1.2.2) (fun a => a)
    · split
      · exact SoundO.next (State.undefinedRequest_sound h (fun _ a => State.take_sound (State.writeReq_sound a) g))
      · exact SoundO.next (State.confined_sound h)

theorem State.modStream_sound {s x1 x2} (h : Sound s) (g : ∀ x, FifoOk (streamBits x1) x → FifoOk (streamBits x1) (x2 x)) : Sound (State.modStream s x1 x2) := State.modHost_sound h (fun a => a.updFifo g)

theorem State.unitLost_sound {s x1 x2} (h : Sound s) : Sound (State.unitLost s x1 x2) := by
  unfold State.unitLost
  split
  · exact h
  · exact State.raise_sound (State.modStream_sound h (fun _ a => ⟨a.1, a.2⟩))

theorem State.streamReport_sound {s x1 x2} (h : Sound s) : Sound (State.streamReport s x1 x2) := by
  unfold State.streamReport
  repeat' (first | with_reducible assumption | with_reducible (first | refine State.modStream_sound ?_ (by first | exact fun _ a => ⟨a.1, a.2⟩ | exact fun _ a => a | exact fun _ a => fifoPushUnit_ok a | exact fun _ a => Fifo.flush_ok a) | apply State.raise_sound | apply Sound.ite | apply Sound.foldl | apply Sound.forAll | apply Sound.foldlPair | intro _ _ _) | split | dsimp only [refuse, okS, okB, okParts])

theorem State.unitDone_sound {s x1} (h : Sound s) : Sound (State.unitDone s x1) := by
  unfold State.unitDone
  repeat' (first | with_reducible assumption | with_reducible (first | refine State.modStream_sound ?_ (by first | exact fun _ a => ⟨a.1, a.2⟩ | exact fun _ a => a | exact fun _ a => fifoPushUnit_ok a | exact fun _ a => Fifo.flush_ok a) | apply State.streamReport_sound | apply Sound.ite | apply Sound.foldl | apply Sound.forAll | apply Sound.foldlPair | intro _ _ _) | split | dsimp only [refuse, okS, okB, okParts])

theorem State.writeUnit_sound {s x1 x2} (h : Sound s) : Sound (State.writeUnit s x1 x2) := by
  unfold State.writeUnit
  repeat' (first | with_reducible assumption | with_reducible (first | refine State.modStream_sound ?_ (by first | exact fun _ a => ⟨a.1, a.2⟩ | exact fun _ a => a | exact fun _ a => fifoPushUnit_ok a | exact fun _ a => Fifo.flush_ok a) | apply State.unitDone_sound | apply Sound.ite | apply Sound.foldl | apply Sound.forAll | apply Sound.foldlPair | intro _ _ _) | split | dsimp only [refuse, okS, okB, okParts])

theorem State.raiseMid_sound {s x1 x2 x3 x4} (h : Sound s) : Sound (State.raiseMid s x1 x2 x3 x4) := State.addDetail_sound (State.modHost_sound h (fun a => a.updQueue (fun _ b => b)))

theorem State.modPlcPort_sound {s x1 x2} (h : Sound s) : Sound (State.modPlcPort s x1 x2) := by
  unfold State.modPlcPort
  repeat' (first | with_reducible assumption | with_reducible (first | refine State.modPlc_sound ?_ (by (first | exact fun a => a | exact fun a => by simpa [upd] using a | (intro a; (try dsimp only); repeat' split) <;> first | exact a | simpa [upd] using a | simp_all)) | apply Sound.ite | apply Sound.foldl | apply Sound.forAll | apply Sound.foldlPair | intro _ _ _) | split | dsimp only [refuse, okS, okB, okParts])

theorem State.queueFault_sound {s x1 x2 x3} (h : Sound s) : Sound (State.queueFault s x1 x2 x3) := State.modRing_sound h (fun a => by split <;> simp <;> omega)

theorem State.raiseRaw_sound {s x1 x2} (h : Sound s) : Sound (State.raiseRaw s x1 x2) := by
  unfold State.raiseRaw
  repeat' (first | with_reducible assumption | with_reducible (first | apply State.addDetail_sound | apply Sound.ite | apply Sound.foldl | apply Sound.forAll | apply Sound.foldlPair | intro _ _ _) | split | dsimp only [refuse, okS, okB, okParts])

theorem State.modSafIn_sound {s x1 x2} (h : Sound s) : Sound (State.modSafIn s x1 x2) := by
  unfold State.modSafIn
  repeat' (first | with_reducible assumption | with_reducible (first | refine State.modSaf_sound ?_ (by (first | exact fun a => a | exact fun a => by simpa [upd] using a | (intro a; (try dsimp only); repeat' split) <;> first | exact a | simpa [upd] using a | simp_all)) (by (first | exact fun a => a | exact fun a => by simpa [upd] using a | (intro a; (try dsimp only); repeat' split) <;> first | exact a | simpa [upd] using a | simp_all)) | apply Sound.ite | apply Sound.foldl | apply Sound.forAll | apply Sound.foldlPair | intro _ _ _) | split | dsimp only [refuse, okS, okB, okParts])

theorem State.modScEntry_sound {s x1 x2} (h : Sound s) : Sound (State.modScEntry s x1 x2) := by
  unfold State.modScEntry
  repeat' (first | with_reducible assumption | with_reducible (first | refine State.modSaf_sound ?_ (by (first | exact fun a => a | exact fun a => by simpa [upd] using a | (intro a; (try dsimp only); repeat' split) <;> first | exact a | simpa [upd] using a | simp_all)) (by (first | exact fun a => a | exact fun a => by simpa [upd] using a | (intro a; (try dsimp only); repeat' split) <;> first | exact a | simpa [upd] using a | simp_all)) | apply Sound.ite | apply Sound.foldl | apply Sound.forAll | apply Sound.foldlPair | intro _ _ _) | split | dsimp only [refuse, okS, okB, okParts])

theorem State.countStart_sound {s x1 x2} (h : Sound s) : Sound (State.countStart s x1 x2) := State.modHost_sound h (fun a => a.updQueue (fun _ b => b))

theorem State.raiseAt_sound {s x1 x2 x3 x4 x5 x6} (h : Sound s) : Sound (State.raiseAt s x1 x2 x3 x4 x5 x6) := by
  unfold State.raiseAt
  refine State.addDetail_sound ?_
  split
  · exact State.modHost_sound h (fun a => a.updQueue (fun _ b => b))
  · exact h

theorem State.wordLost_sound {s x1} (h : Sound s) : Sound (State.wordLost s x1) := by
  unfold State.wordLost
  repeat' (first | with_reducible assumption | with_reducible (first | refine State.modStream_sound ?_ (by first | exact fun _ a => ⟨a.1, a.2⟩ | exact fun _ a => a | exact fun _ a => fifoPushUnit_ok a | exact fun _ a => Fifo.flush_ok a) | apply State.raise_sound | apply Sound.ite | apply Sound.foldl | apply Sound.forAll | apply Sound.foldlPair | intro _ _ _) | split | dsimp only [refuse, okS, okB, okParts])

theorem State.modCourse_sound {s x1 x2} (h : Sound s) : Sound (State.modCourse s x1 x2) := by
  unfold State.modCourse
  repeat' (first | with_reducible assumption | with_reducible (first | refine State.modCourses_sound ?_ (by (first | exact fun a => a | exact fun a => by simpa [upd] using a | (intro a; (try dsimp only); repeat' split) <;> first | exact a | simpa [upd] using a | simp_all)) | apply Sound.ite | apply Sound.foldl | apply Sound.forAll | apply Sound.foldlPair | intro _ _ _) | split | dsimp only [refuse, okS, okB, okParts])

end Sys2Proof.Machine
end

