-- ==== Sys2Proof/Laws/HostCmd.lean ====
section
/-!
SUPPORT. What a request that its mailbox takes comes to: the command runs on the request written, and its answer is posted.
-/

namespace Sys2Proof.Machine

/-- The one spec lemma of `hostCmd` for a request that is taken. -/
theorem hostCmd_taken {code : Nat} {h : Hdr} {p : Bytes} {serve : Bytes → State → Ans} {s : State} (k : Taken s code h p) :
    hostCmd code h p serve s = .next ((serve p (s.accept code h p)).send h code) := by
  have f : hdrPart h = 0 := by rw [hdrPart, k.flags]
  have m : hdrMore h = false := by rw [hdrMore, k.flags]; rfl
  have l : hdrLegal h = true := by simp [hdrLegal, k.flags, k.mbx, k.tag]
  unfold hostCmd
  rw [if_neg (by rw [k.core]; decide), if_pos (by simp [l, k.free, k.reserved]), if_pos k.serving]
  unfold State.take
  rw [if_neg (by have := k.fits; omega), if_pos f]
  simp only [m]
  have n : ((s.writeReq code h p).dropAnswer h.mbx |>.dropHeld h.mbx).fw.recovery = false := k.normal
  unfold loaderOnly
  simp [State.accept, n]

theorem State.accept_keeps {s : State} {code : Nat} {h : Hdr} {p : Bytes} : Keeps [.host] s (s.accept code h p) :=
  State.dropHeld_keeps rfl (State.dropAnswer_keeps rfl (State.writeReq_keeps rfl Keeps.refl))

theorem State.accept_sound {s : State} {code : Nat} {h : Hdr} {p : Bytes} (k : Sound s) : Sound (s.accept code h p) :=
  State.dropHeld_sound (State.dropAnswer_sound (State.writeReq_sound k))

/-- What `raise` leaves of a mailbox. -/
theorem State.raise_mbox {s : State} {ev sub : Nat} {b : Bytes} {m : Nat} : (s.raise ev sub b).mbox m = s.mbox m := rfl

theorem overlay_take {a b : Bytes} {n : Nat} (h : n = a.length) : (overlay a b).take n = a := by
  subst h
  simp [overlay]

theorem hdrBytes_length {a b c d : Nat} : (hdrBytes a b c d).length = 8 := by
  simp [hdrBytes, le]

/-- The mailbox after `post`. -/
theorem State.post_mbox {s : State} {m code tag status : Nat} {body : Bytes} (h : m < s.host.mbx.length) :
    (s.post m code tag status body).mbox m = { s.mbox m with
      resp := overlay (hdrBytes code tag body.length status ++ body) (s.mbox m).resp
      rsp := true, error := status != 0, tag := BitVec.ofNat 16 tag, req := false, busy := false } :=
  State.modMbox_same h

/-- The spec lemma of `post`. -/
theorem State.post_answered {s : State} {code status : Nat} {h : Hdr} {body : Bytes} (b : s.host.mbx.length = 8) (m : h.mbx < 8)
    (t : h.tag < 65536) : Answered (s.post h.mbx code h.tag status body) code h status body := by
  have e := State.post_mbox (s := s) (m := h.mbx) (code := code) (tag := h.tag) (status := status) (body := body) (by omega)
  constructor <;> rw [e]
  · simp; omega
  · exact overlay_take (by simp [hdrBytes_length])

/-- The spec lemma of `Ans.send` for a payload that is not in parts. -/
theorem Ans.send_answered {a : Ans} {h : Hdr} {code : Nat} (n : a.parts = []) (b : a.st.host.mbx.length = 8) (m : h.mbx < 8)
    (t : h.tag < 65536) : Answered (a.send h code) code h a.status a.body := by
  unfold Ans.send
  rw [n]
  exact State.post_answered b m t

/-- The spec lemma of `Ans.send` for a payload in parts. -/
theorem Ans.send_parts {s : State} {ps : List Bytes} {h : Hdr} {code : Nat} (n : ps ≠ []) (b : s.host.mbx.length = 8) (m : h.mbx < 8)
    (t : h.tag < 65536) : AnsweredParts ((okParts s ps).send h code) code h ps := by
  cases ps with
  | nil => exact absurd rfl n
  | cons q qs =>
    have l : (s.modMbox h.mbx (fun b => { b with answer := some ⟨code, h.tag, q :: qs⟩ })).host.mbx.length = 8 := sized_upd b
    refine ⟨State.post_answered l m t, ?_⟩
    unfold okParts Ans.send
    dsimp only
    rw [State.post_mbox (by omega)]
    dsimp only
    rw [State.modMbox_same (by omega)]

/-- `raise` touches the queue of its own event alone. -/
theorem State.raise_events {s : State} {ev sub n : Nat} {b : Bytes} (h : n ≠ ev) :
    (s.raise ev sub b).host.events.getD n EventQueue.reset = s.host.events.getD n EventQueue.reset := by
  unfold State.raise State.addDetail State.modHost
  dsimp only
  rw [getD_upd_ne (Ne.symm h), getD_upd_ne (Ne.symm h)]

/-- A response raises event 0 or event 1 and no other (R451). -/
theorem State.post_events {s : State} {m code tag status n : Nat} {b : Bytes} (h : n ≠ if status = 0 then 0 else 1) :
    (s.post m code tag status b).host.events.getD n EventQueue.reset = s.host.events.getD n EventQueue.reset :=
  State.raise_events h

/-- What a taken request comes to when its command answers with a payload that is not in parts. -/
theorem taken_answered {code status : Nat} {h : Hdr} {p body : Bytes} {serve : Bytes → State → Ans} {s x : State}
    (k : Taken s code h p) (g : serve p (s.accept code h p) = ⟨x, status, body, []⟩) (b : x.host.mbx.length = 8) :
    ∃ t, hostCmd code h p serve s = .next t ∧ Answered t code h status body ∧ Keeps [.clk, .host] x t ∧
      ∀ n, (n ≠ if status = 0 then 0 else 1) → t.host.events.getD n EventQueue.reset = x.host.events.getD n EventQueue.reset := by
  refine ⟨_, hostCmd_taken k, ?_, ?_, ?_⟩
  rotate_left 2
  · rw [g]
    exact fun n h => State.post_events h
  · rw [g]
    exact Ans.send_answered rfl b k.mbx k.tag
  · rw [g]
    exact Ans.send_keeps rfl Keeps.refl

/-- What a taken request comes to when its command answers in parts. -/
theorem taken_parts {code : Nat} {h : Hdr} {p : Bytes} {ps : List Bytes} {serve : Bytes → State → Ans} {s x : State}
    (k : Taken s code h p) (g : serve p (s.accept code h p) = okParts x ps) (n : ps ≠ []) (b : x.host.mbx.length = 8) :
    ∃ t, hostCmd code h p serve s = .next t ∧ AnsweredParts t code h ps ∧ Keeps [.clk, .host] x t := by
  refine ⟨_, hostCmd_taken k, ?_, ?_⟩
  · rw [g]
    exact Ans.send_parts n b k.mbx k.tag
  · rw [g]
    exact Ans.send_keeps rfl Keeps.refl

theorem byteParts_ne {b : Bytes} : byteParts b ≠ [] := by
  unfold byteParts
  split
  · simp
  · next h => simp [chunks, chunksAux, h]

end Sys2Proof.Machine
end

