-- ==== Sys2Proof/Laws/KeepsEnergy.lean ====
section
/-!
SUPPORT. Which parts of the state each operation of Machine/Energy.lean leaves as they are.
-/

namespace Sys2Proof.Machine

theorem State.driveMpo_keeps {T r s x1 x2} (w : within [.pts] T = true) (h : Keeps T r s) : Keeps T r (State.driveMpo s x1 x2) := by
  refine Keeps.then (A := [.pts]) ?_ w h
  clear w h
  unfold State.driveMpo
  repeat' (first | ((with_reducible apply within_of); rfl) | with_reducible (first | exact Keeps.refl | apply State.modPt_keeps | apply Keeps.ite | apply Keeps.foldl | apply Keeps.forAll | apply Keeps.foldlPair | intro _ _) | split | dsimp only [refuse, okS, okB, okParts])

theorem State.mpoIdle_keeps {T r s x1} (w : within [.pts] T = true) (h : Keeps T r s) : Keeps T r (State.mpoIdle s x1) := by
  refine Keeps.then (A := [.pts]) ?_ w h
  clear w h
  unfold State.mpoIdle
  repeat' (first | ((with_reducible apply within_of); rfl) | with_reducible (first | exact Keeps.refl | apply State.driveMpo_keeps | apply Keeps.ite | apply Keeps.foldl | apply Keeps.forAll | apply Keeps.foldlPair | intro _ _) | split | dsimp only [refuse, okS, okB, okParts])

theorem State.addReading_keeps {T r s x1 x2 x3} (w : within [.host, .pts] T = true) (h : Keeps T r s) : Keeps T r (State.addReading s x1 x2 x3) := by
  refine Keeps.then (A := [.host, .pts]) ?_ w h
  clear w h
  unfold State.addReading
  repeat' (first | ((with_reducible apply within_of); rfl) | with_reducible (first | exact Keeps.refl | apply State.modPt_keeps | apply State.raiseRaw_keeps | apply Keeps.ite | apply Keeps.foldl | apply Keeps.forAll | apply Keeps.foldlPair | intro _ _) | split | dsimp only [refuse, okS, okB, okParts])

theorem State.reactiveFrame_keeps {T r s x1 x2 x3 x4} (w : within [.pts] T = true) (h : Keeps T r s) : Keeps T r (State.reactiveFrame s x1 x2 x3 x4).1 := by
  refine Keeps.then (A := [.pts]) ?_ w h
  clear w h
  unfold State.reactiveFrame
  repeat' (first | ((with_reducible apply within_of); rfl) | with_reducible (first | exact Keeps.refl | apply State.modPt_keeps | apply Keeps.ite | apply Keeps.foldl | apply Keeps.forAll | apply Keeps.foldlPair | intro _ _) | split | dsimp only [refuse, okS, okB, okParts])

theorem State.rmsFrame_keeps {T r s x1 x2 x3} (w : within [.pts] T = true) (h : Keeps T r s) : Keeps T r (State.rmsFrame s x1 x2 x3) := by
  refine Keeps.then (A := [.pts]) ?_ w h
  clear w h
  unfold State.rmsFrame
  repeat' (first | ((with_reducible apply within_of); rfl) | with_reducible (first | exact Keeps.refl | apply State.modPt_keeps | apply Keeps.ite | apply Keeps.foldl | apply Keeps.forAll | apply Keeps.foldlPair | intro _ _) | split | dsimp only [refuse, okS, okB, okParts])

theorem State.settlePeriod_keeps {T r s x1 x2} (w : within [.pts] T = true) (h : Keeps T r s) : Keeps T r (State.settlePeriod s x1 x2) := by
  refine Keeps.then (A := [.pts]) ?_ w h
  clear w h
  unfold State.settlePeriod
  repeat' (first | ((with_reducible apply within_of); rfl) | with_reducible (first | exact Keeps.refl | apply State.modPt_keeps | apply Keeps.ite | apply Keeps.foldl | apply Keeps.forAll | apply Keeps.foldlPair | intro _ _) | split | dsimp only [refuse, okS, okB, okParts])

theorem State.elecFrame_keeps {T r s x1 x2 x3 x4} (w : within [.host, .pts] T = true) (h : Keeps T r s) : Keeps T r (State.elecFrame s x1 x2 x3 x4).1 := by
  refine Keeps.then (A := [.host, .pts]) ?_ w h
  clear w h
  unfold State.elecFrame
  repeat' (first | ((with_reducible apply within_of); rfl) | with_reducible (first | exact Keeps.refl | apply State.addReading_keeps | apply State.modPt_keeps | apply State.reactiveFrame_keeps | apply State.rmsFrame_keeps | apply State.settlePeriod_keeps | apply Keeps.ite | apply Keeps.foldl | apply Keeps.forAll | apply Keeps.foldlPair | intro _ _) | split | dsimp only [refuse, okS, okB, okParts])

theorem State.closeElectrical_keeps {T r s x1 x2} (w : within [.pts] T = true) (h : Keeps T r s) : Keeps T r (State.closeElectrical s x1 x2) := by
  refine Keeps.then (A := [.pts]) ?_ w h
  clear w h
  unfold State.closeElectrical
  repeat' (first | ((with_reducible apply within_of); rfl) | with_reducible (first | exact Keeps.refl | apply State.modPt_keeps | apply Keeps.ite | apply Keeps.foldl | apply Keeps.forAll | apply Keeps.foldlPair | intro _ _) | split | dsimp only [refuse, okS, okB, okParts])

theorem State.mpoFrame_keeps {T r s x1 x2 x3 x4} (w : within [.pts] T = true) (h : Keeps T r s) : Keeps T r (State.mpoFrame s x1 x2 x3 x4) := by
  refine Keeps.then (A := [.pts]) ?_ w h
  clear w h
  unfold State.mpoFrame
  repeat' (first | ((with_reducible apply within_of); rfl) | with_reducible (first | exact Keeps.refl | apply State.modPt_keeps | apply Keeps.ite | apply Keeps.foldl | apply Keeps.forAll | apply Keeps.foldlPair | intro _ _) | split | dsimp only [refuse, okS, okB, okParts])

theorem execMpoPulseEdge_keeps {x0 x1 s} : KeepsO [.clk, .pts] s (execMpoPulseEdge x0 x1 s) := by
  unfold execMpoPulseEdge
  repeat' (first | ((with_reducible apply within_of); rfl) | with_reducible (first | exact Keeps.refl | apply State.at_keeps | apply State.driveMpo_keeps | apply State.modPt_keeps | apply KeepsO.next | exact KeepsO.fault | apply KeepsO.ite | apply Keeps.ite | apply Keeps.foldl | apply Keeps.forAll | apply Keeps.foldlPair | intro _ _) | split | dsimp only [refuse, okS, okB, okParts])

end Sys2Proof.Machine
end

