-- ==== Sys2Proof/Laws/KeepsHolds.lean ====
section
/-!
SUPPORT. Which parts of the state each operation of Machine/Holds.lean leaves as they are.
-/

namespace Sys2Proof.Machine

theorem State.forceSafe_keeps {T r s x1} (w : within [.sw] T = true) (h : Keeps T r s) : Keeps T r (State.forceSafe s x1) := by
  refine Keeps.then (A := [.sw]) ?_ w h
  clear w h
  unfold State.forceSafe
  repeat' (first | ((with_reducible apply within_of); rfl) | with_reducible (first | exact Keeps.refl | apply State.modSwch_keeps | apply Keeps.ite | apply Keeps.foldl | apply Keeps.forAll | apply Keeps.foldlPair | intro _ _) | split | dsimp only [refuse, okS, okB, okParts])

theorem State.dieOp_keeps {T r s x1} (w : within [.sw] T = true) (h : Keeps T r s) : Keeps T r (State.dieOp s x1) := by
  refine Keeps.then (A := [.sw]) ?_ w h
  clear w h
  unfold State.dieOp
  repeat' (first | ((with_reducible apply within_of); rfl) | with_reducible (first | exact Keeps.refl | apply State.forceSafe_keeps | apply State.modSw_keeps | apply State.modSwch_keeps | apply Keeps.ite | apply Keeps.foldl | apply Keeps.forAll | apply Keeps.foldlPair | intro _ _) | split | dsimp only [refuse, okS, okB, okParts])

theorem State.orderDie_keeps {T r s x1} (w : within [.sw] T = true) (h : Keeps T r s) : Keeps T r (State.orderDie s x1) := by
  refine Keeps.then (A := [.sw]) ?_ w h
  clear w h
  unfold State.orderDie
  repeat' (first | ((with_reducible apply within_of); rfl) | with_reducible (first | exact Keeps.refl | apply State.dieOp_keeps | apply State.modSw_keeps | apply Keeps.ite | apply Keeps.foldl | apply Keeps.forAll | apply Keeps.foldlPair | intro _ _) | split | dsimp only [refuse, okS, okB, okParts])

theorem State.release4_keeps {T r s x1} (w : within [.sw] T = true) (h : Keeps T r s) : Keeps T r (State.release4 s x1) := by
  refine Keeps.then (A := [.sw]) ?_ w h
  clear w h
  unfold State.release4
  repeat' (first | ((with_reducible apply within_of); rfl) | with_reducible (first | exact Keeps.refl | apply State.orderDie_keeps | apply Keeps.ite | apply Keeps.foldl | apply Keeps.forAll | apply Keeps.foldlPair | intro _ _) | split | dsimp only [refuse, okS, okB, okParts])

theorem State.addCause_keeps {T r s x1 x2} (w : within [.pts] T = true) (h : Keeps T r s) : Keeps T r (State.addCause s x1 x2) := by
  refine Keeps.then (A := [.pts]) ?_ w h
  clear w h
  unfold State.addCause
  repeat' (first | ((with_reducible apply within_of); rfl) | with_reducible (first | exact Keeps.refl | apply State.modSes_keeps | apply Keeps.ite | apply Keeps.foldl | apply Keeps.forAll | apply Keeps.foldlPair | intro _ _) | split | dsimp only [refuse, okS, okB, okParts])

theorem State.releaseSi_keeps {T r s x1} (w : within [.sw] T = true) (h : Keeps T r s) : Keeps T r (State.releaseSi s x1) := by
  refine Keeps.then (A := [.sw]) ?_ w h
  clear w h
  unfold State.releaseSi
  repeat' (first | ((with_reducible apply within_of); rfl) | with_reducible (first | exact Keeps.refl | apply State.modSw_keeps | apply Keeps.ite | apply Keeps.foldl | apply Keeps.forAll | apply Keeps.foldlPair | intro _ _) | split | dsimp only [refuse, okS, okB, okParts])

theorem State.holdSi_keeps {T r s x1 x2} (w : within [.sw] T = true) (h : Keeps T r s) : Keeps T r (State.holdSi s x1 x2) := by
  refine Keeps.then (A := [.sw]) ?_ w h
  clear w h
  unfold State.holdSi
  repeat' (first | ((with_reducible apply within_of); rfl) | with_reducible (first | exact Keeps.refl | apply State.forceSafe_keeps | apply State.modSwch_keeps | apply Keeps.ite | apply Keeps.foldl | apply Keeps.forAll | apply Keeps.foldlPair | intro _ _) | split | dsimp only [refuse, okS, okB, okParts])

theorem State.hold4_keeps {T r s x1 x2} (w : within [.sw] T = true) (h : Keeps T r s) : Keeps T r (State.hold4 s x1 x2) := by
  refine Keeps.then (A := [.sw]) ?_ w h
  clear w h
  unfold State.hold4
  repeat' (first | ((with_reducible apply within_of); rfl) | with_reducible (first | exact Keeps.refl | apply State.orderDie_keeps | apply Keeps.ite | apply Keeps.foldl | apply Keeps.forAll | apply Keeps.foldlPair | intro _ _) | split | dsimp only [refuse, okS, okB, okParts])

theorem State.command_keeps {T r s x1 x2} (w : within [.pts, .sw] T = true) (h : Keeps T r s) : Keeps T r (State.command s x1 x2) := by
  refine Keeps.then (A := [.pts, .sw]) ?_ w h
  clear w h
  unfold State.command
  repeat' (first | ((with_reducible apply within_of); rfl) | with_reducible (first | exact Keeps.refl | apply State.modOut_keeps | apply State.modSw_keeps | apply State.modSwch_keeps | apply Keeps.ite | apply Keeps.foldl | apply Keeps.forAll | apply Keeps.foldlPair | intro _ _) | split | dsimp only [refuse, okS, okB, okParts])

theorem State.reapplyAll_keeps {T r s} (w : within [.sw] T = true) (h : Keeps T r s) : Keeps T r (State.reapplyAll s) := by
  refine Keeps.then (A := [.sw]) ?_ w h
  clear w h
  unfold State.reapplyAll
  repeat' (first | ((with_reducible apply within_of); rfl) | with_reducible (first | exact Keeps.refl | apply State.modSw_keeps | apply Keeps.ite | apply Keeps.foldl | apply Keeps.forAll | apply Keeps.foldlPair | intro _ _) | split | dsimp only [refuse, okS, okB, okParts])

theorem State.swEvent_keeps {T r s x1 x2 x3} (w : within [.host] T = true) (h : Keeps T r s) : Keeps T r (State.swEvent s x1 x2 x3) := by
  refine Keeps.then (A := [.host]) ?_ w h
  clear w h
  unfold State.swEvent
  repeat' (first | ((with_reducible apply within_of); rfl) | with_reducible (first | exact Keeps.refl | apply State.raise_keeps | apply Keeps.ite | apply Keeps.foldl | apply Keeps.forAll | apply Keeps.foldlPair | intro _ _) | split | dsimp only [refuse, okS, okB, okParts])

theorem State.supplyEvent_keeps {T r s x1} (w : within [.host] T = true) (h : Keeps T r s) : Keeps T r (State.supplyEvent s x1) := by
  refine Keeps.then (A := [.host]) ?_ w h
  clear w h
  unfold State.supplyEvent
  repeat' (first | ((with_reducible apply within_of); rfl) | with_reducible (first | exact Keeps.refl | apply State.raise_keeps | apply Keeps.ite | apply Keeps.foldl | apply Keeps.forAll | apply Keeps.foldlPair | intro _ _) | split | dsimp only [refuse, okS, okB, okParts])

theorem State.enterPhase_keeps {T r s x1} (w : within [.host, .sw] T = true) (h : Keeps T r s) : Keeps T r (State.enterPhase s x1) := by
  refine Keeps.then (A := [.host, .sw]) ?_ w h
  clear w h
  unfold State.enterPhase
  repeat' (first | ((with_reducible apply within_of); rfl) | with_reducible (first | exact Keeps.refl | apply State.modSw_keeps | apply State.supplyEvent_keeps | apply Keeps.ite | apply Keeps.foldl | apply Keeps.forAll | apply Keeps.foldlPair | intro _ _) | split | dsimp only [refuse, okS, okB, okParts])

theorem State.testEvent_keeps {T r s x1 x2 x3 x4} (w : within [.host] T = true) (h : Keeps T r s) : Keeps T r (State.testEvent s x1 x2 x3 x4) := by
  refine Keeps.then (A := [.host]) ?_ w h
  clear w h
  unfold State.testEvent
  repeat' (first | ((with_reducible apply within_of); rfl) | with_reducible (first | exact Keeps.refl | apply State.raise_keeps | apply Keeps.ite | apply Keeps.foldl | apply Keeps.forAll | apply Keeps.foldlPair | intro _ _) | split | dsimp only [refuse, okS, okB, okParts])

theorem State.setTest_keeps {T r s x1 x2} (w : within [.host, .test, .eng, .sw] T = true) (h : Keeps T r s) : Keeps T r (State.setTest s x1 x2) := by
  refine Keeps.then (A := [.host, .test, .eng, .sw]) ?_ w h
  clear w h
  unfold State.setTest
  repeat' (first | ((with_reducible apply within_of); rfl) | with_reducible (first | exact Keeps.refl | apply State.enterPhase_keeps | apply State.modEng_keeps | apply State.modTest_keeps | apply State.testEvent_keeps | apply Keeps.ite | apply Keeps.foldl | apply Keeps.forAll | apply Keeps.foldlPair | intro _ _) | split | dsimp only [refuse, okS, okB, okParts])

theorem State.loadTable_keeps {T r s} (w : within [.sw] T = true) (h : Keeps T r s) : Keeps T r (State.loadTable s) := by
  refine Keeps.then (A := [.sw]) ?_ w h
  clear w h
  unfold State.loadTable
  repeat' (first | ((with_reducible apply within_of); rfl) | with_reducible (first | exact Keeps.refl | apply State.forceSafe_keeps | apply State.modSw_keeps | apply Keeps.ite | apply Keeps.foldl | apply Keeps.forAll | apply Keeps.foldlPair | intro _ _) | split | dsimp only [refuse, okS, okB, okParts])

theorem State.refreshSw_keeps {T r s} (w : within [.sw] T = true) (h : Keeps T r s) : Keeps T r (State.refreshSw s) := by
  refine Keeps.then (A := [.sw]) ?_ w h
  clear w h
  unfold State.refreshSw
  repeat' (first | ((with_reducible apply within_of); rfl) | with_reducible (first | exact Keeps.refl | apply State.modSw_keeps | apply Keeps.ite | apply Keeps.foldl | apply Keeps.forAll | apply Keeps.foldlPair | intro _ _) | split | dsimp only [refuse, okS, okB, okParts])

theorem State.replayCommands_keeps {T r s} (w : within [.pts, .sw] T = true) (h : Keeps T r s) : Keeps T r (State.replayCommands s) := by
  refine Keeps.then (A := [.pts, .sw]) ?_ w h
  clear w h
  unfold State.replayCommands
  repeat' (first | ((with_reducible apply within_of); rfl) | with_reducible (first | exact Keeps.refl | apply State.command_keeps | apply State.dieOp_keeps | apply State.modSw_keeps | apply State.refreshSw_keeps | apply Keeps.ite | apply Keeps.foldl | apply Keeps.forAll | apply Keeps.foldlPair | intro _ _) | split | dsimp only [refuse, okS, okB, okParts])

theorem State.armWatchdog_keeps {T r s x1 x2} (w : within [.pts, .sw] T = true) (h : Keeps T r s) : Keeps T r (State.armWatchdog s x1 x2) := by
  refine Keeps.then (A := [.pts, .sw]) ?_ w h
  clear w h
  unfold State.armWatchdog
  repeat' (first | ((with_reducible apply within_of); rfl) | with_reducible (first | exact Keeps.refl | apply State.loadTable_keeps | apply State.modSw_keeps | apply State.replayCommands_keeps | apply Keeps.ite | apply Keeps.foldl | apply Keeps.forAll | apply Keeps.foldlPair | intro _ _) | split | dsimp only [refuse, okS, okB, okParts])

theorem State.idleSwitches_keeps {T r s} (w : within [.pts, .sw] T = true) (h : Keeps T r s) : Keeps T r (State.idleSwitches s) := by
  refine Keeps.then (A := [.pts, .sw]) ?_ w h
  clear w h
  unfold State.idleSwitches
  repeat' (first | ((with_reducible apply within_of); rfl) | with_reducible (first | exact Keeps.refl | apply State.command_keeps | apply Keeps.ite | apply Keeps.foldl | apply Keeps.forAll | apply Keeps.foldlPair | intro _ _) | split | dsimp only [refuse, okS, okB, okParts])

theorem State.reportFailsafe_keeps {T r s} (w : within [.host, .sw, .ring] T = true) (h : Keeps T r s) : Keeps T r (State.reportFailsafe s) := by
  refine Keeps.then (A := [.host, .sw, .ring]) ?_ w h
  clear w h
  unfold State.reportFailsafe
  repeat' (first | ((with_reducible apply within_of); rfl) | with_reducible (first | exact Keeps.refl | apply State.modSw_keeps | apply State.queueFault_keeps | apply State.raise_keeps | apply Keeps.ite | apply Keeps.foldl | apply Keeps.forAll | apply Keeps.foldlPair | intro _ _) | split | dsimp only [refuse, okS, okB, okParts])

theorem State.sightFailsafe_keeps {T r s} (w : within [.pts, .sw] T = true) (h : Keeps T r s) : Keeps T r (State.sightFailsafe s) := by
  refine Keeps.then (A := [.pts, .sw]) ?_ w h
  clear w h
  unfold State.sightFailsafe
  repeat' (first | ((with_reducible apply within_of); rfl) | with_reducible (first | exact Keeps.refl | apply State.addCause_keeps | apply State.modSw_keeps | apply Keeps.ite | apply Keeps.foldl | apply Keeps.forAll | apply Keeps.foldlPair | intro _ _) | split | dsimp only [refuse, okS, okB, okParts])

theorem State.seeFailsafe_keeps {T r s} (w : within [.host, .pts, .sw, .ring] T = true) (h : Keeps T r s) : Keeps T r (State.seeFailsafe s) := by
  refine Keeps.then (A := [.host, .pts, .sw, .ring]) ?_ w h
  clear w h
  unfold State.seeFailsafe
  repeat' (first | ((with_reducible apply within_of); rfl) | with_reducible (first | exact Keeps.refl | apply State.reportFailsafe_keeps | apply State.sightFailsafe_keeps | apply Keeps.ite | apply Keeps.foldl | apply Keeps.forAll | apply Keeps.foldlPair | intro _ _) | split | dsimp only [refuse, okS, okB, okParts])

theorem State.applyFailsafe_keeps {T r s x1} (w : within [.sw] T = true) (h : Keeps T r s) : Keeps T r (State.applyFailsafe s x1) := by
  refine Keeps.then (A := [.sw]) ?_ w h
  clear w h
  unfold State.applyFailsafe
  repeat' (first | ((with_reducible apply within_of); rfl) | with_reducible (first | exact Keeps.refl | apply State.forceSafe_keeps | apply State.modSw_keeps | apply Keeps.ite | apply Keeps.foldl | apply Keeps.forAll | apply Keeps.foldlPair | intro _ _) | split | dsimp only [refuse, okS, okB, okParts])

theorem State.releaseFailsafe_keeps {T r s} (w : within [.host, .sw] T = true) (h : Keeps T r s) : Keeps T r (State.releaseFailsafe s) := by
  refine Keeps.then (A := [.host, .sw]) ?_ w h
  clear w h
  unfold State.releaseFailsafe
  repeat' (first | ((with_reducible apply within_of); rfl) | with_reducible (first | exact Keeps.refl | apply State.modSw_keeps | apply State.raise_keeps | apply Keeps.ite | apply Keeps.foldl | apply Keeps.forAll | apply Keeps.foldlPair | intro _ _) | split | dsimp only [refuse, okS, okB, okParts])

end Sys2Proof.Machine
end

