-- ==== Sys2Proof/Laws/KeepsRecords.lean ====
section
/-!
SUPPORT. Which parts of the state each operation of Machine/Records.lean leaves as they are.
-/

namespace Sys2Proof.Machine

theorem State.askKey_keeps {T r s x1 x2 x3 x4} (w : within [.keys] T = true) (h : Keeps T r s) : Keeps T r (State.askKey s x1 x2 x3 x4) := by
  refine Keeps.then (A := [.keys]) ?_ w h
  clear w h
  unfold State.askKey
  repeat' (first | ((with_reducible apply within_of); rfl) | with_reducible (first | exact Keeps.refl | apply State.modKeys_keeps | apply Keeps.ite | apply Keeps.foldl | apply Keeps.forAll | apply Keeps.foldlPair | intro _ _) | split | dsimp only [refuse, okS, okB, okParts])

theorem State.nearFull_keeps {T r s x1 x2 x3 x4} (w : within [.host] T = true) (h : Keeps T r s) : Keeps T r (State.nearFull s x1 x2 x3 x4) := by
  refine Keeps.then (A := [.host]) ?_ w h
  clear w h
  unfold State.nearFull
  repeat' (first | ((with_reducible apply within_of); rfl) | with_reducible (first | exact Keeps.refl | apply State.raise_keeps | apply Keeps.ite | apply Keeps.foldl | apply Keeps.forAll | apply Keeps.foldlPair | intro _ _) | split | dsimp only [refuse, okS, okB, okParts])

theorem State.journalNear_keeps {T r s x1} (w : within [.host, .recs] T = true) (h : Keeps T r s) : Keeps T r (State.journalNear s x1) := by
  refine Keeps.then (A := [.host, .recs]) ?_ w h
  clear w h
  unfold State.journalNear
  repeat' (first | ((with_reducible apply within_of); rfl) | with_reducible (first | exact Keeps.refl | apply State.modRecs_keeps | apply State.nearFull_keeps | apply Keeps.ite | apply Keeps.foldl | apply Keeps.forAll | apply Keeps.foldlPair | intro _ _) | split | dsimp only [refuse, okS, okB, okParts])

theorem State.journalRec_keeps {T r s x1 x2} (w : within [.recs] T = true) (h : Keeps T r s) : Keeps T r (State.journalRec s x1 x2) := by
  refine Keeps.then (A := [.recs]) ?_ w h
  clear w h
  unfold State.journalRec
  repeat' (first | ((with_reducible apply within_of); rfl) | with_reducible (first | exact Keeps.refl | apply State.modRecs_keeps | apply Keeps.ite | apply Keeps.foldl | apply Keeps.forAll | apply Keeps.foldlPair | intro _ _) | split | dsimp only [refuse, okS, okB, okParts])

theorem State.streamRec_keeps {T r s x1 x2} (w : within [.host, .recs] T = true) (h : Keeps T r s) : Keeps T r (State.streamRec s x1 x2) := by
  refine Keeps.then (A := [.host, .recs]) ?_ w h
  clear w h
  unfold State.streamRec
  repeat' (first | ((with_reducible apply within_of); rfl) | with_reducible (first | exact Keeps.refl | apply State.modRecs_keeps | apply State.unitLost_keeps | apply State.writeUnit_keeps | apply Keeps.ite | apply Keeps.foldl | apply Keeps.forAll | apply Keeps.foldlPair | intro _ _) | split | dsimp only [refuse, okS, okB, okParts])

theorem State.logNear_keeps {T r s} (w : within [.host, .log] T = true) (h : Keeps T r s) : Keeps T r (State.logNear s) := by
  refine Keeps.then (A := [.host, .log]) ?_ w h
  clear w h
  unfold State.logNear
  repeat' (first | ((with_reducible apply within_of); rfl) | with_reducible (first | exact Keeps.refl | apply State.modLog_keeps | apply State.nearFull_keeps | apply Keeps.ite | apply Keeps.foldl | apply Keeps.forAll | apply Keeps.foldlPair | intro _ _) | split | dsimp only [refuse, okS, okB, okParts])

theorem State.enter_keeps {T r s x1 x2 x3 x4 x5 x6 x7 x8 x9} (w : within [.host, .log] T = true) (h : Keeps T r s) : Keeps T r (State.enter s x1 x2 x3 x4 x5 x6 x7 x8 x9) := by
  refine Keeps.then (A := [.host, .log]) ?_ w h
  clear w h
  unfold State.enter
  repeat' (first | ((with_reducible apply within_of); rfl) | with_reducible (first | exact Keeps.refl | apply State.logNear_keeps | apply State.modLog_keeps | apply State.unitLost_keeps | apply State.writeUnit_keeps | apply Keeps.ite | apply Keeps.foldl | apply Keeps.forAll | apply Keeps.foldlPair | intro _ _) | split | dsimp only [refuse, okS, okB, okParts])

theorem State.enterHost_keeps {T r s x1 x2 x3 x4 x5 x6 x7} (w : within [.host, .log] T = true) (h : Keeps T r s) : Keeps T r (State.enterHost s x1 x2 x3 x4 x5 x6 x7) := by
  refine Keeps.then (A := [.host, .log]) ?_ w h
  clear w h
  unfold State.enterHost
  repeat' (first | ((with_reducible apply within_of); rfl) | with_reducible (first | exact Keeps.refl | apply State.enter_keeps | apply Keeps.ite | apply Keeps.foldl | apply Keeps.forAll | apply Keeps.foldlPair | intro _ _) | split | dsimp only [refuse, okS, okB, okParts])

theorem State.logRefused_keeps {T r s} (w : within [.host, .log] T = true) (h : Keeps T r s) : Keeps T r (State.logRefused s) := by
  refine Keeps.then (A := [.host, .log]) ?_ w h
  clear w h
  unfold State.logRefused
  repeat' (first | ((with_reducible apply within_of); rfl) | with_reducible (first | exact Keeps.refl | apply State.modLog_keeps | apply State.nearFull_keeps | apply Keeps.ite | apply Keeps.foldl | apply Keeps.forAll | apply Keeps.foldlPair | intro _ _) | split | dsimp only [refuse, okS, okB, okParts])

theorem State.modKey_keeps {T r s x1 x2 x3} (w : within [.keys] T = true) (h : Keeps T r s) : Keeps T r (State.modKey s x1 x2 x3) := by
  refine Keeps.then (A := [.keys]) ?_ w h
  clear w h
  unfold State.modKey
  repeat' (first | ((with_reducible apply within_of); rfl) | with_reducible (first | exact Keeps.refl | apply State.modKeys_keeps | apply Keeps.ite | apply Keeps.foldl | apply Keeps.forAll | apply Keeps.foldlPair | intro _ _) | split | dsimp only [refuse, okS, okB, okParts])

theorem State.later_keeps {T r s x1 x2 x3 x4 x5} (w : within [.pts] T = true) (h : Keeps T r s) : Keeps T r (State.later s x1 x2 x3 x4 x5) := by
  refine Keeps.then (A := [.pts]) ?_ w h
  clear w h
  unfold State.later
  repeat' (first | ((with_reducible apply within_of); rfl) | with_reducible (first | exact Keeps.refl | apply State.modPt_keeps | apply Keeps.ite | apply Keeps.foldl | apply Keeps.forAll | apply Keeps.foldlPair | intro _ _) | split | dsimp only [refuse, okS, okB, okParts])

theorem State.buildEvent_keeps {T r s x1 x2 x3 x4 x5} (w : within [.pts] T = true) (h : Keeps T r s) : Keeps T r (State.buildEvent s x1 x2 x3 x4 x5) := by
  refine Keeps.then (A := [.pts]) ?_ w h
  clear w h
  unfold State.buildEvent
  repeat' (first | ((with_reducible apply within_of); rfl) | with_reducible (first | exact Keeps.refl | apply State.later_keeps | apply Keeps.ite | apply Keeps.foldl | apply Keeps.forAll | apply Keeps.foldlPair | intro _ _) | split | dsimp only [refuse, okS, okB, okParts])

theorem State.bumpSeq_keeps {T r s x1} (w : within [.pts, .recs] T = true) (h : Keeps T r s) : Keeps T r (State.bumpSeq s x1) := by
  refine Keeps.then (A := [.pts, .recs]) ?_ w h
  clear w h
  unfold State.bumpSeq
  repeat' (first | ((with_reducible apply within_of); rfl) | with_reducible (first | exact Keeps.refl | apply State.modPt_keeps | apply State.modRecs_keeps | apply Keeps.ite | apply Keeps.foldl | apply Keeps.forAll | apply Keeps.foldlPair | intro _ _) | split | dsimp only [refuse, okS, okB, okParts])

theorem State.writeLine_keeps {T r s} (w : within [.led] T = true) (h : Keeps T r s) : Keeps T r (State.writeLine s) := by
  refine Keeps.then (A := [.led]) ?_ w h
  clear w h
  unfold State.writeLine
  repeat' (first | ((with_reducible apply within_of); rfl) | with_reducible (first | exact Keeps.refl | apply State.modLed_keeps | apply Keeps.ite | apply Keeps.foldl | apply Keeps.forAll | apply Keeps.foldlPair | intro _ _) | split | dsimp only [refuse, okS, okB, okParts])

theorem State.build_keeps {T r s x1 x2 x3 x4 x5 x6 x7 x8 x9} (w : within [.host, .pts, .recs, .led] T = true) (h : Keeps T r s) : Keeps T r (State.build s x1 x2 x3 x4 x5 x6 x7 x8 x9) := by
  refine Keeps.then (A := [.host, .pts, .recs, .led]) ?_ w h
  clear w h
  unfold State.build
  repeat' (first | ((with_reducible apply within_of); rfl) | with_reducible (first | exact Keeps.refl | apply State.bumpSeq_keeps | apply State.modRecs_keeps | apply State.raiseRaw_keeps | apply State.writeLine_keeps | apply Keeps.ite | apply Keeps.foldl | apply Keeps.forAll | apply Keeps.foldlPair | intro _ _) | split | dsimp only [refuse, okS, okB, okParts])

theorem State.buildLate_keeps {T r s x1 x2} (w : within [.host, .pts, .recs, .led] T = true) (h : Keeps T r s) : Keeps T r (State.buildLate s x1 x2) := by
  refine Keeps.then (A := [.host, .pts, .recs, .led]) ?_ w h
  clear w h
  unfold State.buildLate
  repeat' (first | ((with_reducible apply within_of); rfl) | with_reducible (first | exact Keeps.refl | apply State.build_keeps | apply State.modPt_keeps | apply Keeps.ite | apply Keeps.foldl | apply Keeps.forAll | apply Keeps.foldlPair | intro _ _) | split | dsimp only [refuse, okS, okB, okParts])

theorem State.mramError_keeps {T r s x1 x2} (w : within [.host] T = true) (h : Keeps T r s) : Keeps T r (State.mramError s x1 x2) := by
  refine Keeps.then (A := [.host]) ?_ w h
  clear w h
  unfold State.mramError
  repeat' (first | ((with_reducible apply within_of); rfl) | with_reducible (first | exact Keeps.refl | apply State.raise_keeps | apply Keeps.ite | apply Keeps.foldl | apply Keeps.forAll | apply Keeps.foldlPair | intro _ _) | split | dsimp only [refuse, okS, okB, okParts])

theorem State.repairWords_keeps {T r s} (w : within [.clk, .pwr] T = true) (h : Keeps T r s) : Keeps T r (State.repairWords s) := by
  refine Keeps.then (A := [.clk, .pwr]) ?_ w h
  clear w h
  unfold State.repairWords
  repeat' (first | ((with_reducible apply within_of); rfl) | with_reducible (first | exact Keeps.refl | apply State.bump_keeps | apply State.modPwr_keeps | apply Keeps.ite | apply Keeps.foldl | apply Keeps.forAll | apply Keeps.foldlPair | intro _ _) | split | dsimp only [refuse, okS, okB, okParts])

theorem State.enterCapo_keeps {T r s x1 x2 x3 x4 x5 x6} (w : within [.host, .log] T = true) (h : Keeps T r s) : Keeps T r (State.enterCapo s x1 x2 x3 x4 x5 x6) := by
  refine Keeps.then (A := [.host, .log]) ?_ w h
  clear w h
  unfold State.enterCapo
  repeat' (first | ((with_reducible apply within_of); rfl) | with_reducible (first | exact Keeps.refl | apply State.enter_keeps | apply Keeps.ite | apply Keeps.foldl | apply Keeps.forAll | apply Keeps.foldlPair | intro _ _) | split | dsimp only [refuse, okS, okB, okParts])

theorem State.buildSeal_keeps {T r s x1 x2 x3 x4 x5} (w : within [.host, .pts, .recs, .led, .log] T = true) (h : Keeps T r s) : Keeps T r (State.buildSeal s x1 x2 x3 x4 x5) := by
  refine Keeps.then (A := [.host, .pts, .recs, .led, .log]) ?_ w h
  clear w h
  unfold State.buildSeal
  repeat' (first | ((with_reducible apply within_of); rfl) | with_reducible (first | exact Keeps.refl | apply State.build_keeps | apply State.modLog_keeps | apply State.modRecs_keeps | apply Keeps.ite | apply Keeps.foldl | apply Keeps.forAll | apply Keeps.foldlPair | intro _ _) | split | dsimp only [refuse, okS, okB, okParts])

theorem State.joinDue_keeps {T r s x1 x2 x3 x4 x5} (w : within [.recs] T = true) (h : Keeps T r s) : Keeps T r (State.joinDue s x1 x2 x3 x4 x5) := by
  refine Keeps.then (A := [.recs]) ?_ w h
  clear w h
  unfold State.joinDue
  repeat' (first | ((with_reducible apply within_of); rfl) | with_reducible (first | exact Keeps.refl | apply State.modRecs_keeps | apply Keeps.ite | apply Keeps.foldl | apply Keeps.forAll | apply Keeps.foldlPair | intro _ _) | split | dsimp only [refuse, okS, okB, okParts])

theorem State.badWord_keeps {T r s x1 x2 x3} (w : within [.clk, .host] T = true) (h : Keeps T r s) : Keeps T r (State.badWord s x1 x2 x3) := by
  refine Keeps.then (A := [.clk, .host]) ?_ w h
  clear w h
  unfold State.badWord
  repeat' (first | ((with_reducible apply within_of); rfl) | with_reducible (first | exact Keeps.refl | apply State.bump_keeps | apply State.mramError_keeps | apply Keeps.ite | apply Keeps.foldl | apply Keeps.forAll | apply Keeps.foldlPair | intro _ _) | split | dsimp only [refuse, okS, okB, okParts])

theorem State.readMram_keeps {T r s x1 x2 x3} (w : within [.clk, .host, .pwr] T = true) (h : Keeps T r s) : Keeps T r (State.readMram s x1 x2 x3).2 := by
  refine Keeps.then (A := [.clk, .host, .pwr]) ?_ w h
  clear w h
  unfold State.readMram
  repeat' (first | ((with_reducible apply within_of); rfl) | with_reducible (first | exact Keeps.refl | apply State.badWord_keeps | apply State.repairWords_keeps | apply Keeps.ite | apply Keeps.foldl | apply Keeps.forAll | apply Keeps.foldlPair | intro _ _) | split | dsimp only [refuse, okS, okB, okParts])

theorem State.writeMram_keeps {T r s x1 x2 f} (g : ∀ x, Keeps T x (f x)) (w : within [.host] T = true) (h : Keeps T r s) :
    Keeps T r (State.writeMram s x1 x2 f) := by
  unfold State.writeMram
  split
  · exact (g _).then (by unfold within; simp) h
  · exact State.raise_keeps w h

theorem State.joinRecords_keeps {T r s x1 x2 x3 x4 x5} (w : within [.pts, .recs] T = true) (h : Keeps T r s) : Keeps T r (State.joinRecords s x1 x2 x3 x4 x5) := by
  refine Keeps.then (A := [.pts, .recs]) ?_ w h
  clear w h
  unfold State.joinRecords
  repeat' (first | ((with_reducible apply within_of); rfl) | with_reducible (first | exact Keeps.refl | apply State.joinDue_keeps | apply State.modPt_keeps | apply Keeps.ite | apply Keeps.foldl | apply Keeps.forAll | apply Keeps.foldlPair | intro _ _) | split | dsimp only [refuse, okS, okB, okParts])

theorem State.readSlot_keeps {T r s x1 x2 x3 x4} (w : within [.clk, .host, .pwr] T = true) (h : Keeps T r s) : Keeps T r (State.readSlot s x1 x2 x3 x4) := by
  refine Keeps.then (A := [.clk, .host, .pwr]) ?_ w h
  clear w h
  unfold State.readSlot
  repeat' (first | ((with_reducible apply within_of); rfl) | with_reducible (first | exact Keeps.refl | apply State.readMram_keeps | apply State.repairWords_keeps | apply Keeps.ite | apply Keeps.foldl | apply Keeps.forAll | apply Keeps.foldlPair | intro _ _) | split | dsimp only [refuse, okS, okB, okParts])

end Sys2Proof.Machine
end

