-- ==== Sys2Proof/Laws/KeepsSar.lean ====
section
/-!
SUPPORT. Which parts of the state each operation of Machine/Sar.lean leaves as they are.
-/

namespace Sys2Proof.Machine

theorem State.pilotSample_keeps {T r s x1 x2} (w : within [.pts] T = true) (h : Keeps T r s) : Keeps T r (State.pilotSample s x1 x2) := by
  refine Keeps.then (A := [.pts]) ?_ w h
  clear w h
  unfold State.pilotSample
  repeat' (first | ((with_reducible apply within_of); rfl) | with_reducible (first | exact Keeps.refl | apply State.modOut_keeps | apply Keeps.ite | apply Keeps.foldl | apply Keeps.forAll | apply Keeps.foldlPair | intro _ _) | split | dsimp only [refuse, okS, okB, okParts])

theorem State.plateau_keeps {T r s x1 x2} (w : within [.pts] T = true) (h : Keeps T r s) : Keeps T r (State.plateau s x1 x2) := by
  refine Keeps.then (A := [.pts]) ?_ w h
  clear w h
  unfold State.plateau
  repeat' (first | ((with_reducible apply within_of); rfl) | with_reducible (first | exact Keeps.refl | apply State.modOut_keeps | apply State.pilotSample_keeps | apply Keeps.ite | apply Keeps.foldl | apply Keeps.forAll | apply Keeps.foldlPair | intro _ _) | split | dsimp only [refuse, okS, okB, okParts])

theorem State.thermalDie_keeps {T r s x1 x2 x3 x4} (w : within [.host] T = true) (h : Keeps T r s) : Keeps T r (State.thermalDie s x1 x2 x3 x4) := by
  refine Keeps.then (A := [.host]) ?_ w h
  clear w h
  unfold State.thermalDie
  repeat' (first | ((with_reducible apply within_of); rfl) | with_reducible (first | exact Keeps.refl | apply State.raise_keeps | apply Keeps.ite | apply Keeps.foldl | apply Keeps.forAll | apply Keeps.foldlPair | intro _ _) | split | dsimp only [refuse, okS, okB, okParts])

theorem State.putExt_keeps {T r s x1 x2} (w : within [.pwr] T = true) (h : Keeps T r s) : Keeps T r (State.putExt s x1 x2) := by
  refine Keeps.then (A := [.pwr]) ?_ w h
  clear w h
  unfold State.putExt
  repeat' (first | ((with_reducible apply within_of); rfl) | with_reducible (first | exact Keeps.refl | apply State.modPwr_keeps | apply Keeps.ite | apply Keeps.foldl | apply Keeps.forAll | apply Keeps.foldlPair | intro _ _) | split | dsimp only [refuse, okS, okB, okParts])

theorem State.supplyMon_keeps {T r s x1 x2 x3 x4 x5} (w : within [.host] T = true) (h : Keeps T r s) : Keeps T r (State.supplyMon s x1 x2 x3 x4 x5) := by
  refine Keeps.then (A := [.host]) ?_ w h
  clear w h
  unfold State.supplyMon
  repeat' (first | ((with_reducible apply within_of); rfl) | with_reducible (first | exact Keeps.refl | apply State.raise_keeps | apply Keeps.ite | apply Keeps.foldl | apply Keeps.forAll | apply Keeps.foldlPair | intro _ _) | split | dsimp only [refuse, okS, okB, okParts])

theorem State.rangeCheck_keeps {T r s x1 x2 x3 x4 x5} (w : within [.host, .pwr] T = true) (h : Keeps T r s) : Keeps T r (State.rangeCheck s x1 x2 x3 x4 x5) := by
  refine Keeps.then (A := [.host, .pwr]) ?_ w h
  clear w h
  unfold State.rangeCheck
  repeat' (first | ((with_reducible apply within_of); rfl) | with_reducible (first | exact Keeps.refl | apply State.putExt_keeps | apply State.supplyMon_keeps | apply Keeps.ite | apply Keeps.foldl | apply Keeps.forAll | apply Keeps.foldlPair | intro _ _) | split | dsimp only [refuse, okS, okB, okParts])

theorem State.rail_keeps {T r s x1 x2} (w : within [.host, .sar, .pwr] T = true) (h : Keeps T r s) : Keeps T r (State.rail s x1 x2) := by
  refine Keeps.then (A := [.host, .sar, .pwr]) ?_ w h
  clear w h
  unfold State.rail
  repeat' (first | ((with_reducible apply within_of); rfl) | with_reducible (first | exact Keeps.refl | apply State.modSar_keeps | apply State.rangeCheck_keeps | apply Keeps.ite | apply Keeps.foldl | apply Keeps.forAll | apply Keeps.foldlPair | intro _ _) | split | dsimp only [refuse, okS, okB, okParts])

theorem State.modEntry_keeps {T r s x1 x2 x3} (w : within [.sar] T = true) (h : Keeps T r s) : Keeps T r (State.modEntry s x1 x2 x3) := by
  refine Keeps.then (A := [.sar]) ?_ w h
  clear w h
  unfold State.modEntry
  repeat' (first | ((with_reducible apply within_of); rfl) | with_reducible (first | exact Keeps.refl | apply State.modConv_keeps | apply Keeps.ite | apply Keeps.foldl | apply Keeps.forAll | apply Keeps.foldlPair | intro _ _) | split | dsimp only [refuse, okS, okB, okParts])

theorem State.restartEntry_keeps {T r s x1 x2} (w : within [.sar] T = true) (h : Keeps T r s) : Keeps T r (State.restartEntry s x1 x2) := by
  refine Keeps.then (A := [.sar]) ?_ w h
  clear w h
  unfold State.restartEntry
  repeat' (first | ((with_reducible apply within_of); rfl) | with_reducible (first | exact Keeps.refl | apply State.modEntry_keeps | apply Keeps.ite | apply Keeps.foldl | apply Keeps.forAll | apply Keeps.foldlPair | intro _ _) | split | dsimp only [refuse, okS, okB, okParts])

theorem State.excScan_keeps {T r s x1} (w : within [.sar] T = true) (h : Keeps T r s) : Keeps T r (State.excScan s x1) := by
  refine Keeps.then (A := [.sar]) ?_ w h
  clear w h
  unfold State.excScan
  repeat' (first | ((with_reducible apply within_of); rfl) | with_reducible (first | exact Keeps.refl | apply State.modSar_keeps | apply Keeps.ite | apply Keeps.foldl | apply Keeps.forAll | apply Keeps.foldlPair | intro _ _) | split | dsimp only [refuse, okS, okB, okParts])

theorem State.proximity_keeps {T r s x1} (w : within [.pts] T = true) (h : Keeps T r s) : Keeps T r (State.proximity s x1) := by
  refine Keeps.then (A := [.pts]) ?_ w h
  clear w h
  unfold State.proximity
  repeat' (first | ((with_reducible apply within_of); rfl) | with_reducible (first | exact Keeps.refl | apply State.modOut_keeps | apply Keeps.ite | apply Keeps.foldl | apply Keeps.forAll | apply Keeps.foldlPair | intro _ _) | split | dsimp only [refuse, okS, okB, okParts])

theorem State.timersAtBoundary_keeps {T r s x1 x2} (w : within [.sar] T = true) (h : Keeps T r s) : Keeps T r (State.timersAtBoundary s x1 x2) := by
  refine Keeps.then (A := [.sar]) ?_ w h
  clear w h
  unfold State.timersAtBoundary
  repeat' (first | ((with_reducible apply within_of); rfl) | with_reducible (first | exact Keeps.refl | apply State.modSar_keeps | apply Keeps.ite | apply Keeps.foldl | apply Keeps.forAll | apply Keeps.foldlPair | intro _ _) | split | dsimp only [refuse, okS, okB, okParts])

theorem State.fireTrigger_keeps {T r s x1 x2 x3} (w : within [.sar] T = true) (h : Keeps T r s) : Keeps T r (State.fireTrigger s x1 x2 x3) := by
  refine Keeps.then (A := [.sar]) ?_ w h
  clear w h
  unfold State.fireTrigger
  repeat' (first | ((with_reducible apply within_of); rfl) | with_reducible (first | exact Keeps.refl | apply State.modEntry_keeps | apply Keeps.ite | apply Keeps.foldl | apply Keeps.forAll | apply Keeps.foldlPair | intro _ _) | split | dsimp only [refuse, okS, okB, okParts])

theorem State.flushMerged_keeps {T r s} (w : within [.host, .sar] T = true) (h : Keeps T r s) : Keeps T r (State.flushMerged s) := by
  refine Keeps.then (A := [.host, .sar]) ?_ w h
  clear w h
  unfold State.flushMerged
  repeat' (first | ((with_reducible apply within_of); rfl) | with_reducible (first | exact Keeps.refl | apply State.modConv_keeps | apply State.raise_keeps | apply Keeps.ite | apply Keeps.foldl | apply Keeps.forAll | apply Keeps.foldlPair | intro _ _) | split | dsimp only [refuse, okS, okB, okParts])

theorem serveSarResults_keeps {T r x0 s} (w : within [.sar] T = true) (h : Keeps T r s) : Keeps T r (serveSarResults x0 s).st := by
  refine Keeps.then (A := [.sar]) ?_ w h
  clear w h
  unfold serveSarResults okParts refuse
  repeat' (first | ((with_reducible apply within_of); rfl) | with_reducible (first | exact Keeps.refl | apply State.modConv_keeps | apply Keeps.ite | apply Keeps.foldl | apply Keeps.forAll | apply Keeps.foldlPair | intro _ _) | split | dsimp only [refuse, okS, okB, okParts])

theorem serveSarSelftest_keeps {T r x0 s} (w : within [.sar] T = true) (h : Keeps T r s) : Keeps T r (serveSarSelftest x0 s).st := by
  refine Keeps.then (A := [.sar]) ?_ w h
  clear w h
  unfold serveSarSelftest okS refuse
  repeat' (first | ((with_reducible apply within_of); rfl) | with_reducible (first | exact Keeps.refl | apply State.modConv_keeps | apply Keeps.ite | apply Keeps.foldl | apply Keeps.forAll | apply Keeps.foldlPair | intro _ _) | split | dsimp only [refuse, okS, okB, okParts])

theorem serveSarTrigger_keeps {T r x0 s} (w : within [.sar] T = true) (h : Keeps T r s) : Keeps T r (serveSarTrigger x0 s).st := by
  refine Keeps.then (A := [.sar]) ?_ w h
  clear w h
  unfold serveSarTrigger okS refuse
  repeat' (first | ((with_reducible apply within_of); rfl) | with_reducible (first | exact Keeps.refl | apply State.fireTrigger_keeps | apply Keeps.ite | apply Keeps.foldl | apply Keeps.forAll | apply Keeps.foldlPair | intro _ _) | split | dsimp only [refuse, okS, okB, okParts])

theorem State.sequenceDone_keeps {T r s x1 x2} (w : within [.host, .sar] T = true) (h : Keeps T r s) : Keeps T r (State.sequenceDone s x1 x2) := by
  refine Keeps.then (A := [.host, .sar]) ?_ w h
  clear w h
  unfold State.sequenceDone
  repeat' (first | ((with_reducible apply within_of); rfl) | with_reducible (first | exact Keeps.refl | apply State.modConv_keeps | apply State.raise_keeps | apply Keeps.ite | apply Keeps.foldl | apply Keeps.forAll | apply Keeps.foldlPair | intro _ _) | split | dsimp only [refuse, okS, okB, okParts])

theorem State.limitCheck_keeps {T r s x1 x2 x3 x4 x5 x6} (w : within [.host, .sar] T = true) (h : Keeps T r s) : Keeps T r (State.limitCheck s x1 x2 x3 x4 x5 x6) := by
  refine Keeps.then (A := [.host, .sar]) ?_ w h
  clear w h
  unfold State.limitCheck
  repeat' (first | ((with_reducible apply within_of); rfl) | with_reducible (first | exact Keeps.refl | apply State.modEntry_keeps | apply State.raise_keeps | apply Keeps.ite | apply Keeps.foldl | apply Keeps.forAll | apply Keeps.foldlPair | intro _ _) | split | dsimp only [refuse, okS, okB, okParts])

theorem State.useResult_keeps {T r s x1 x2 x3} (w : within [.pts, .sw] T = true) (h : Keeps T r s) : Keeps T r (State.useResult s x1 x2 x3) := by
  refine Keeps.then (A := [.pts, .sw]) ?_ w h
  clear w h
  unfold State.useResult
  repeat' (first | ((with_reducible apply within_of); rfl) | with_reducible (first | exact Keeps.refl | apply State.modSwch_keeps | apply State.plateau_keeps | apply State.proximity_keeps | apply Keeps.ite | apply Keeps.foldl | apply Keeps.forAll | apply Keeps.foldlPair | intro _ _) | split | dsimp only [refuse, okS, okB, okParts])

theorem execSarConversionComplete_keeps {x0 x1 x2 x3 s} : KeepsO [.clk, .host, .pts, .sw, .sar] s (execSarConversionComplete x0 x1 x2 x3 s) := by
  unfold execSarConversionComplete
  repeat' (first | ((with_reducible apply within_of); rfl) | with_reducible (first | exact Keeps.refl | apply State.at_keeps | apply State.limitCheck_keeps | apply State.modConv_keeps | apply State.modEntry_keeps | apply State.sequenceDone_keeps | apply State.useResult_keeps | apply KeepsO.next | exact KeepsO.fault | apply KeepsO.ite | apply Keeps.ite | apply Keeps.foldl | apply Keeps.forAll | apply Keeps.foldlPair | intro _ _) | split | dsimp only [refuse, okS, okB, okParts])

theorem execSarTrigger_keeps {x0 x1 s} : KeepsO [.clk, .host, .sar] s (execSarTrigger x0 x1 s) := hostCmd_keeps (A := [.sar]) (fun _ _ => serveSarTrigger_keeps rfl Keeps.refl) rfl rfl

theorem execSarTriggerFire_keeps {x0 x1 x2 s} : KeepsO [.clk, .sar] s (execSarTriggerFire x0 x1 x2 s) := by
  unfold execSarTriggerFire
  repeat' (first | ((with_reducible apply within_of); rfl) | with_reducible (first | exact Keeps.refl | apply State.at_keeps | apply State.modConv_keeps | apply State.modEntry_keeps | apply KeepsO.next | exact KeepsO.fault | apply KeepsO.ite | apply Keeps.ite | apply Keeps.foldl | apply Keeps.forAll | apply Keeps.foldlPair | intro _ _) | split | dsimp only [refuse, okS, okB, okParts])

theorem State.dieCheck_keeps {T r s x1} (w : within [.host, .sar, .pwr] T = true) (h : Keeps T r s) : Keeps T r (State.dieCheck s x1) := by
  refine Keeps.then (A := [.host, .sar, .pwr]) ?_ w h
  clear w h
  unfold State.dieCheck
  repeat' (first | ((with_reducible apply within_of); rfl) | with_reducible (first | exact Keeps.refl | apply State.modSar_keeps | apply State.putExt_keeps | apply State.thermalDie_keeps | apply Keeps.ite | apply Keeps.foldl | apply Keeps.forAll | apply Keeps.foldlPair | intro _ _) | split | dsimp only [refuse, okS, okB, okParts])

theorem State.refCheck_keeps {T r s x1} (w : within [.host, .sar, .pwr] T = true) (h : Keeps T r s) : Keeps T r (State.refCheck s x1) := by
  refine Keeps.then (A := [.host, .sar, .pwr]) ?_ w h
  clear w h
  unfold State.refCheck
  repeat' (first | ((with_reducible apply within_of); rfl) | with_reducible (first | exact Keeps.refl | apply State.modSar_keeps | apply State.rangeCheck_keeps | apply Keeps.ite | apply Keeps.foldl | apply Keeps.forAll | apply Keeps.foldlPair | intro _ _) | split | dsimp only [refuse, okS, okB, okParts])

theorem execMonitorScan_keeps {x0 x1 s} : KeepsO [.clk, .host, .sar, .pwr] s (execMonitorScan x0 x1 s) := by
  unfold execMonitorScan
  repeat' (first | ((with_reducible apply within_of); rfl) | with_reducible (first | exact Keeps.refl | apply State.at_keeps | apply State.dieCheck_keeps | apply State.excScan_keeps | apply State.modSar_keeps | apply State.rail_keeps | apply State.refCheck_keeps | apply KeepsO.next | exact KeepsO.fault | apply KeepsO.ite | apply Keeps.ite | apply Keeps.foldl | apply Keeps.forAll | apply Keeps.foldlPair | intro _ _) | split | dsimp only [refuse, okS, okB, okParts])

theorem execSarSelftestComplete_keeps {x0 x1 x2 s} : KeepsO [.clk, .host, .sar] s (execSarSelftestComplete x0 x1 x2 s) := by
  unfold execSarSelftestComplete
  repeat' (first | ((with_reducible apply within_of); rfl) | with_reducible (first | exact Keeps.refl | apply State.at_keeps | apply State.modConv_keeps | apply State.modSar_keeps | apply State.raise_keeps | apply State.supplyMon_keeps | apply KeepsO.next | exact KeepsO.fault | apply KeepsO.ite | apply Keeps.ite | apply Keeps.foldl | apply Keeps.forAll | apply Keeps.foldlPair | intro _ _) | split | dsimp only [refuse, okS, okB, okParts])

theorem execSarSelftestRun_keeps {x0 x1 s} : KeepsO [.clk, .sar] s (execSarSelftestRun x0 x1 s) := by
  unfold execSarSelftestRun
  repeat' (first | ((with_reducible apply within_of); rfl) | with_reducible (first | exact Keeps.refl | apply State.at_keeps | apply State.modConv_keeps | apply KeepsO.next | exact KeepsO.fault | apply KeepsO.ite | apply Keeps.ite | apply Keeps.foldl | apply Keeps.forAll | apply Keeps.foldlPair | intro _ _) | split | dsimp only [refuse, okS, okB, okParts])

theorem execSarResults_keeps {x0 x1 s} : KeepsO [.clk, .host, .sar] s (execSarResults x0 x1 s) := hostCmd_keeps (A := [.sar]) (fun _ _ => serveSarResults_keeps rfl Keeps.refl) rfl rfl

theorem execSarTimerTick_keeps {x0 x1 s} : KeepsO [.clk, .sar] s (execSarTimerTick x0 x1 s) := by
  unfold execSarTimerTick
  repeat' (first | ((with_reducible apply within_of); rfl) | with_reducible (first | exact Keeps.refl | apply State.at_keeps | apply State.fireTrigger_keeps | apply State.modSar_keeps | apply KeepsO.next | exact KeepsO.fault | apply KeepsO.ite | apply Keeps.ite | apply Keeps.foldl | apply Keeps.forAll | apply Keeps.foldlPair | intro _ _) | split | dsimp only [refuse, okS, okB, okParts])

theorem execSarSelftest_keeps {x0 x1 s} : KeepsO [.clk, .host, .sar] s (execSarSelftest x0 x1 s) := hostCmd_keeps (A := [.sar]) (fun _ _ => serveSarSelftest_keeps rfl Keeps.refl) rfl rfl

end Sys2Proof.Machine
end

