-- ==== Sys2Proof/Laws/KeepsSessions.lean ====
section
/-!
SUPPORT. Which parts of the state each operation of Machine/Sessions.lean leaves as they are.
-/

namespace Sys2Proof.Machine

theorem State.rcdEvent_keeps {T r s x1 x2 x3 x4} (w : within [.host] T = true) (h : Keeps T r s) : Keeps T r (State.rcdEvent s x1 x2 x3 x4) := by
  refine Keeps.then (A := [.host]) ?_ w h
  clear w h
  unfold State.rcdEvent
  repeat' (first | ((with_reducible apply within_of); rfl) | with_reducible (first | exact Keeps.refl | apply State.raise_keeps | apply Keeps.ite | apply Keeps.foldl | apply Keeps.forAll | apply Keeps.foldlPair | intro _ _) | split | dsimp only [refuse, okS, okB, okParts])

theorem State.outletSession_keeps {T r s x1 x2 x3 x4} (w : within [.host] T = true) (h : Keeps T r s) : Keeps T r (State.outletSession s x1 x2 x3 x4) := by
  refine Keeps.then (A := [.host]) ?_ w h
  clear w h
  unfold State.outletSession
  repeat' (first | ((with_reducible apply within_of); rfl) | with_reducible (first | exact Keeps.refl | apply State.raise_keeps | apply Keeps.ite | apply Keeps.foldl | apply Keeps.forAll | apply Keeps.foldlPair | intro _ _) | split | dsimp only [refuse, okS, okB, okParts])

theorem State.setPilot_keeps {T r s x1} (w : within [.pts] T = true) (h : Keeps T r s) : Keeps T r (State.setPilot s x1) := by
  refine Keeps.then (A := [.pts]) ?_ w h
  clear w h
  unfold State.setPilot
  repeat' (first | ((with_reducible apply within_of); rfl) | with_reducible (first | exact Keeps.refl | apply State.modOut_keeps | apply Keeps.ite | apply Keeps.foldl | apply Keeps.forAll | apply Keeps.foldlPair | intro _ _) | split | dsimp only [refuse, okS, okB, okParts])

theorem State.enterState_keeps {T r s x1 x2 x3} (w : within [.host, .pts] T = true) (h : Keeps T r s) : Keeps T r (State.enterState s x1 x2 x3) := by
  refine Keeps.then (A := [.host, .pts]) ?_ w h
  clear w h
  unfold State.enterState
  repeat' (first | ((with_reducible apply within_of); rfl) | with_reducible (first | exact Keeps.refl | apply State.modOut_keeps | apply State.modSes_keeps | apply State.outletSession_keeps | apply State.setPilot_keeps | apply Keeps.ite | apply Keeps.foldl | apply Keeps.forAll | apply Keeps.foldlPair | intro _ _) | split | dsimp only [refuse, okS, okB, okParts])

theorem State.backToIdle_keeps {T r s x1 x2} (w : within [.host, .pts] T = true) (h : Keeps T r s) : Keeps T r (State.backToIdle s x1 x2) := by
  refine Keeps.then (A := [.host, .pts]) ?_ w h
  clear w h
  unfold State.backToIdle
  repeat' (first | ((with_reducible apply within_of); rfl) | with_reducible (first | exact Keeps.refl | apply State.enterState_keeps | apply State.modSes_keeps | apply Keeps.ite | apply Keeps.foldl | apply Keeps.forAll | apply Keeps.foldlPair | intro _ _) | split | dsimp only [refuse, okS, okB, okParts])

theorem State.eraseKey_keeps {T r s x1} (w : within [.pts] T = true) (h : Keeps T r s) : Keeps T r (State.eraseKey s x1) := by
  refine Keeps.then (A := [.pts]) ?_ w h
  clear w h
  unfold State.eraseKey
  repeat' (first | ((with_reducible apply within_of); rfl) | with_reducible (first | exact Keeps.refl | apply State.modSes_keeps | apply Keeps.ite | apply Keeps.foldl | apply Keeps.forAll | apply Keeps.foldlPair | intro _ _) | split | dsimp only [refuse, okS, okB, okParts])

theorem State.closedToIdle_keeps {T r s x1} (w : within [.host, .pts] T = true) (h : Keeps T r s) : Keeps T r (State.closedToIdle s x1) := by
  refine Keeps.then (A := [.host, .pts]) ?_ w h
  clear w h
  unfold State.closedToIdle
  repeat' (first | ((with_reducible apply within_of); rfl) | with_reducible (first | exact Keeps.refl | apply State.enterState_keeps | apply Keeps.ite | apply Keeps.foldl | apply Keeps.forAll | apply Keeps.foldlPair | intro _ _) | split | dsimp only [refuse, okS, okB, okParts])

theorem State.linkEvent_keeps {T r s x1 x2 x3} (w : within [.host] T = true) (h : Keeps T r s) : Keeps T r (State.linkEvent s x1 x2 x3) := by
  refine Keeps.then (A := [.host]) ?_ w h
  clear w h
  unfold State.linkEvent
  repeat' (first | ((with_reducible apply within_of); rfl) | with_reducible (first | exact Keeps.refl | apply State.raiseMid_keeps | apply Keeps.ite | apply Keeps.foldl | apply Keeps.forAll | apply Keeps.foldlPair | intro _ _) | split | dsimp only [refuse, okS, okB, okParts])

theorem State.linkDown_keeps {T r s x1 x2} (w : within [.host, .pts, .plc] T = true) (h : Keeps T r s) : Keeps T r (State.linkDown s x1 x2) := by
  refine Keeps.then (A := [.host, .pts, .plc]) ?_ w h
  clear w h
  unfold State.linkDown
  repeat' (first | ((with_reducible apply within_of); rfl) | with_reducible (first | exact Keeps.refl | apply State.linkEvent_keeps | apply State.modOut_keeps | apply State.modPlcPort_keeps | apply Keeps.ite | apply Keeps.foldl | apply Keeps.forAll | apply Keeps.foldlPair | intro _ _) | split | dsimp only [refuse, okS, okB, okParts])

theorem State.linkIdle_keeps {T r s x1} (w : within [.host, .pts, .plc] T = true) (h : Keeps T r s) : Keeps T r (State.linkIdle s x1) := by
  refine Keeps.then (A := [.host, .pts, .plc]) ?_ w h
  clear w h
  unfold State.linkIdle
  repeat' (first | ((with_reducible apply within_of); rfl) | with_reducible (first | exact Keeps.refl | apply State.linkDown_keeps | apply State.modPlcPort_keeps | apply Keeps.ite | apply Keeps.foldl | apply Keeps.forAll | apply Keeps.foldlPair | intro _ _) | split | dsimp only [refuse, okS, okB, okParts])

theorem State.startStopping_keeps {T r s x1 x2 x3} (w : within [.host, .pts] T = true) (h : Keeps T r s) : Keeps T r (State.startStopping s x1 x2 x3) := by
  refine Keeps.then (A := [.host, .pts]) ?_ w h
  clear w h
  unfold State.startStopping
  repeat' (first | ((with_reducible apply within_of); rfl) | with_reducible (first | exact Keeps.refl | apply State.enterState_keeps | apply State.modOut_keeps | apply State.modSes_keeps | apply Keeps.ite | apply Keeps.foldl | apply Keeps.forAll | apply Keeps.foldlPair | intro _ _) | split | dsimp only [refuse, okS, okB, okParts])

theorem State.endSession_keeps {T r s x1 x2} (w : within [.pts] T = true) (h : Keeps T r s) : Keeps T r (State.endSession s x1 x2) := by
  refine Keeps.then (A := [.pts]) ?_ w h
  clear w h
  unfold State.endSession
  repeat' (first | ((with_reducible apply within_of); rfl) | with_reducible (first | exact Keeps.refl | apply State.modSes_keeps | apply Keeps.ite | apply Keeps.foldl | apply Keeps.forAll | apply Keeps.foldlPair | intro _ _) | split | dsimp only [refuse, okS, okB, okParts])

theorem State.pathOff_keeps {T r s x1} (w : within [.pts, .sw] T = true) (h : Keeps T r s) : Keeps T r (State.pathOff s x1) := by
  refine Keeps.then (A := [.pts, .sw]) ?_ w h
  clear w h
  unfold State.pathOff
  repeat' (first | ((with_reducible apply within_of); rfl) | with_reducible (first | exact Keeps.refl | apply State.command_keeps | apply Keeps.ite | apply Keeps.foldl | apply Keeps.forAll | apply Keeps.foldlPair | intro _ _) | split | dsimp only [refuse, okS, okB, okParts])

theorem State.toFault_keeps {T r s x1 x2} (w : within [.host, .pts, .sw] T = true) (h : Keeps T r s) : Keeps T r (State.toFault s x1 x2) := by
  refine Keeps.then (A := [.host, .pts, .sw]) ?_ w h
  clear w h
  unfold State.toFault
  repeat' (first | ((with_reducible apply within_of); rfl) | with_reducible (first | exact Keeps.refl | apply State.buildEvent_keeps | apply State.endSession_keeps | apply State.enterState_keeps | apply State.modOut_keeps | apply State.modSes_keeps | apply State.pathOff_keeps | apply Keeps.ite | apply Keeps.foldl | apply Keeps.forAll | apply Keeps.foldlPair | intro _ _) | split | dsimp only [refuse, okS, okB, okParts])

theorem State.startTransfer_keeps {T r s x1} (w : within [.host, .pts, .sw] T = true) (h : Keeps T r s) : Keeps T r (State.startTransfer s x1) := by
  refine Keeps.then (A := [.host, .pts, .sw]) ?_ w h
  clear w h
  unfold State.startTransfer
  repeat' (first | ((with_reducible apply within_of); rfl) | with_reducible (first | exact Keeps.refl | apply State.command_keeps | apply State.enterState_keeps | apply State.modSes_keeps | apply Keeps.ite | apply Keeps.foldl | apply Keeps.forAll | apply Keeps.foldlPair | intro _ _) | split | dsimp only [refuse, okS, okB, okParts])

theorem State.stopOff_keeps {T r s x1} (w : within [.pts, .sw] T = true) (h : Keeps T r s) : Keeps T r (State.stopOff s x1) := by
  refine Keeps.then (A := [.pts, .sw]) ?_ w h
  clear w h
  unfold State.stopOff
  repeat' (first | ((with_reducible apply within_of); rfl) | with_reducible (first | exact Keeps.refl | apply State.modSes_keeps | apply State.pathOff_keeps | apply Keeps.ite | apply Keeps.foldl | apply Keeps.forAll | apply Keeps.foldlPair | intro _ _) | split | dsimp only [refuse, okS, okB, okParts])

theorem State.close_keeps {T r s x1} (w : within [.host, .pts] T = true) (h : Keeps T r s) : Keeps T r (State.close s x1) := by
  refine Keeps.then (A := [.host, .pts]) ?_ w h
  clear w h
  unfold State.close
  repeat' (first | ((with_reducible apply within_of); rfl) | with_reducible (first | exact Keeps.refl | apply State.endSession_keeps | apply State.enterState_keeps | apply State.modOut_keeps | apply Keeps.ite | apply Keeps.foldl | apply Keeps.forAll | apply Keeps.foldlPair | intro _ _) | split | dsimp only [refuse, okS, okB, okParts])

theorem State.buildEnd_keeps {T r s x1 x2 x3 x4} (w : within [.host, .pts, .recs, .led] T = true) (h : Keeps T r s) : Keeps T r (State.buildEnd s x1 x2 x3 x4) := by
  refine Keeps.then (A := [.host, .pts, .recs, .led]) ?_ w h
  clear w h
  unfold State.buildEnd
  repeat' (first | ((with_reducible apply within_of); rfl) | with_reducible (first | exact Keeps.refl | apply State.build_keeps | apply State.modSes_keeps | apply Keeps.ite | apply Keeps.foldl | apply Keeps.forAll | apply Keeps.foldlPair | intro _ _) | split | dsimp only [refuse, okS, okB, okParts])

theorem State.applyNextSession_keeps {T r s x1} (w : within [.par] T = true) (h : Keeps T r s) : Keeps T r (State.applyNextSession s x1) := by
  refine Keeps.then (A := [.par]) ?_ w h
  clear w h
  unfold State.applyNextSession
  repeat' (first | ((with_reducible apply within_of); rfl) | with_reducible (first | exact Keeps.refl | apply State.modPar_keeps | apply Keeps.ite | apply Keeps.foldl | apply Keeps.forAll | apply Keeps.foldlPair | intro _ _) | split | dsimp only [refuse, okS, okB, okParts])

theorem State.buildStart_keeps {T r s x1 x2} (w : within [.pts] T = true) (h : Keeps T r s) : Keeps T r (State.buildStart s x1 x2) := by
  refine Keeps.then (A := [.pts]) ?_ w h
  clear w h
  unfold State.buildStart
  repeat' (first | ((with_reducible apply within_of); rfl) | with_reducible (first | exact Keeps.refl | apply State.later_keeps | apply State.modSes_keeps | apply Keeps.ite | apply Keeps.foldl | apply Keeps.forAll | apply Keeps.foldlPair | intro _ _) | split | dsimp only [refuse, okS, okB, okParts])

theorem State.makeSessionKey_keeps {T r s x1} (w : within [.clk, .host, .pts] T = true) (h : Keeps T r s) : Keeps T r (State.makeSessionKey s x1) := by
  refine Keeps.then (A := [.clk, .host, .pts]) ?_ w h
  clear w h
  unfold State.makeSessionKey
  repeat' (first | ((with_reducible apply within_of); rfl) | with_reducible (first | exact Keeps.refl | apply State.bump_keeps | apply State.modSes_keeps | apply State.raise_keeps | apply Keeps.ite | apply Keeps.foldl | apply Keeps.forAll | apply Keeps.foldlPair | intro _ _) | split | dsimp only [refuse, okS, okB, okParts])

theorem State.authorise_keeps {T r s x1 x2 x3 x4 x5 x6} (w : within [.clk, .par, .host, .pts, .led, .plc] T = true) (h : Keeps T r s) : Keeps T r (State.authorise s x1 x2 x3 x4 x5 x6) := by
  refine Keeps.then (A := [.clk, .par, .host, .pts, .led, .plc]) ?_ w h
  clear w h
  unfold State.authorise
  repeat' (first | ((with_reducible apply within_of); rfl) | with_reducible (first | exact Keeps.refl | apply State.applyNextSession_keeps | apply State.enterState_keeps | apply State.linkIdle_keeps | apply State.makeSessionKey_keeps | apply State.modSes_keeps | apply State.raiseRaw_keeps | apply State.writeLine_keeps | apply Keeps.ite | apply Keeps.foldl | apply Keeps.forAll | apply Keeps.foldlPair | intro _ _) | split | dsimp only [refuse, okS, okB, okParts])

theorem State.runSelfTest_keeps {T r s x1} (w : within [.slices, .pts, .sar] T = true) (h : Keeps T r s) : Keeps T r (State.runSelfTest s x1) := by
  refine Keeps.then (A := [.slices, .pts, .sar]) ?_ w h
  clear w h
  unfold State.runSelfTest
  repeat' (first | ((with_reducible apply within_of); rfl) | with_reducible (first | exact Keeps.refl | apply State.modConv_keeps | apply State.modOut_keeps | apply State.modSlice_keeps | apply Keeps.ite | apply Keeps.foldl | apply Keeps.forAll | apply Keeps.foldlPair | intro _ _) | split | dsimp only [refuse, okS, okB, okParts])

theorem State.startSelfTest_keeps {T r s x1} (w : within [.slices, .pts, .sar] T = true) (h : Keeps T r s) : Keeps T r (State.startSelfTest s x1) := by
  refine Keeps.then (A := [.slices, .pts, .sar]) ?_ w h
  clear w h
  unfold State.startSelfTest
  repeat' (first | ((with_reducible apply within_of); rfl) | with_reducible (first | exact Keeps.refl | apply State.modOut_keeps | apply State.runSelfTest_keeps | apply Keeps.ite | apply Keeps.foldl | apply Keeps.forAll | apply Keeps.foldlPair | intro _ _) | split | dsimp only [refuse, okS, okB, okParts])

theorem State.outletChange_keeps {T r s x1 x2 x3 x4 x5 x6} (w : within [.host, .pts] T = true) (h : Keeps T r s) : Keeps T r (State.outletChange s x1 x2 x3 x4 x5 x6) := by
  refine Keeps.then (A := [.host, .pts]) ?_ w h
  clear w h
  unfold State.outletChange
  repeat' (first | ((with_reducible apply within_of); rfl) | with_reducible (first | exact Keeps.refl | apply State.modOut_keeps | apply State.raiseRaw_keeps | apply Keeps.ite | apply Keeps.foldl | apply Keeps.forAll | apply Keeps.foldlPair | intro _ _) | split | dsimp only [refuse, okS, okB, okParts])

end Sys2Proof.Machine
end

