-- ==== Sys2Proof/Laws/KeepsOutlet.lean ====
section
/-!
SUPPORT. Which parts of the state each operation of Machine/Outlet.lean leaves as they are.
-/

namespace Sys2Proof.Machine

theorem State.endInjection_keeps {T r s x1} (w : within [.slices, .pts, .sw, .sar] T = true) (h : Keeps T r s) : Keeps T r (State.endInjection s x1) := by
  refine Keeps.then (A := [.slices, .pts, .sw, .sar]) ?_ w h
  clear w h
  unfold State.endInjection
  repeat' (first | ((with_reducible apply within_of); rfl) | with_reducible (first | exact Keeps.refl | apply State.modConv_keeps | apply State.modOut_keeps | apply State.modSlice_keeps | apply State.modSwch_keeps | apply Keeps.ite | apply Keeps.foldl | apply Keeps.forAll | apply Keeps.foldlPair | intro _ _) | split | dsimp only [refuse, okS, okB, okParts])

theorem State.releaseRcd_keeps {T r s x1} (w : within [.pts, .sw] T = true) (h : Keeps T r s) : Keeps T r (State.releaseRcd s x1) := by
  refine Keeps.then (A := [.pts, .sw]) ?_ w h
  clear w h
  unfold State.releaseRcd
  repeat' (first | ((with_reducible apply within_of); rfl) | with_reducible (first | exact Keeps.refl | apply State.modOut_keeps | apply State.modSwch_keeps | apply Keeps.ite | apply Keeps.foldl | apply Keeps.forAll | apply Keeps.foldlPair | intro _ _) | split | dsimp only [refuse, okS, okB, okParts])

theorem State.dropTest_keeps {T r s x1} (w : within [.slices, .pts, .sw, .sar] T = true) (h : Keeps T r s) : Keeps T r (State.dropTest s x1) := by
  refine Keeps.then (A := [.slices, .pts, .sw, .sar]) ?_ w h
  clear w h
  unfold State.dropTest
  repeat' (first | ((with_reducible apply within_of); rfl) | with_reducible (first | exact Keeps.refl | apply State.endInjection_keeps | apply State.modOut_keeps | apply Keeps.ite | apply Keeps.foldl | apply Keeps.forAll | apply Keeps.foldlPair | intro _ _) | split | dsimp only [refuse, okS, okB, okParts])

theorem State.freshPilot_keeps {T r s x1} (w : within [.slices, .pts, .sw, .sar] T = true) (h : Keeps T r s) : Keeps T r (State.freshPilot s x1) := by
  refine Keeps.then (A := [.slices, .pts, .sw, .sar]) ?_ w h
  clear w h
  unfold State.freshPilot
  repeat' (first | ((with_reducible apply within_of); rfl) | with_reducible (first | exact Keeps.refl | apply State.dropTest_keeps | apply State.modOut_keeps | apply Keeps.ite | apply Keeps.foldl | apply Keeps.forAll | apply Keeps.foldlPair | intro _ _) | split | dsimp only [refuse, okS, okB, okParts])

theorem State.loadRcd_keeps {T r s x1} (w : within [.slices] T = true) (h : Keeps T r s) : Keeps T r (State.loadRcd s x1) := by
  refine Keeps.then (A := [.slices]) ?_ w h
  clear w h
  unfold State.loadRcd
  repeat' (first | ((with_reducible apply within_of); rfl) | with_reducible (first | exact Keeps.refl | apply State.modSlice_keeps | apply Keeps.ite | apply Keeps.foldl | apply Keeps.forAll | apply Keeps.foldlPair | intro _ _) | split | dsimp only [refuse, okS, okB, okParts])

theorem State.noteWeld_keeps {T r s x1} (w : within [.pts] T = true) (h : Keeps T r s) : Keeps T r (State.noteWeld s x1) := by
  refine Keeps.then (A := [.pts]) ?_ w h
  clear w h
  unfold State.noteWeld
  repeat' (first | ((with_reducible apply within_of); rfl) | with_reducible (first | exact Keeps.refl | apply State.modOut_keeps | apply Keeps.ite | apply Keeps.foldl | apply Keeps.forAll | apply Keeps.foldlPair | intro _ _) | split | dsimp only [refuse, okS, okB, okParts])

theorem State.reportTrip_keeps {T r s x1} (w : within [.host, .pts] T = true) (h : Keeps T r s) : Keeps T r (State.reportTrip s x1) := by
  refine Keeps.then (A := [.host, .pts]) ?_ w h
  clear w h
  unfold State.reportTrip
  repeat' (first | ((with_reducible apply within_of); rfl) | with_reducible (first | exact Keeps.refl | apply State.addCause_keeps | apply State.modOut_keeps | apply State.rcdEvent_keeps | apply Keeps.ite | apply Keeps.foldl | apply Keeps.forAll | apply Keeps.foldlPair | intro _ _) | split | dsimp only [refuse, okS, okB, okParts])

theorem State.leavesA_keeps {T r s x1} (w : within [.host, .slices, .pts, .sar] T = true) (h : Keeps T r s) : Keeps T r (State.leavesA s x1) := by
  refine Keeps.then (A := [.host, .slices, .pts, .sar]) ?_ w h
  clear w h
  unfold State.leavesA
  repeat' (first | ((with_reducible apply within_of); rfl) | with_reducible (first | exact Keeps.refl | apply State.enterState_keeps | apply State.startSelfTest_keeps | apply Keeps.ite | apply Keeps.foldl | apply Keeps.forAll | apply Keeps.foldlPair | intro _ _) | split | dsimp only [refuse, okS, okB, okParts])

theorem execV2gSessionTimeout_keeps {x0 x1 s} : KeepsO [.clk, .pts] s (execV2gSessionTimeout x0 x1 s) := by
  unfold execV2gSessionTimeout
  repeat' (first | ((with_reducible apply within_of); rfl) | with_reducible (first | exact Keeps.refl | apply State.addCause_keeps | apply State.at_keeps | apply State.modOut_keeps | apply KeepsO.next | exact KeepsO.fault | apply KeepsO.ite | apply Keeps.ite | apply Keeps.foldl | apply Keeps.forAll | apply Keeps.foldlPair | intro _ _) | split | dsimp only [refuse, okS, okB, okParts])

theorem execCmSlacParmReq_keeps {x0 x1 x2 s} : KeepsO [.clk, .pts] s (execCmSlacParmReq x0 x1 x2 s) := by
  unfold execCmSlacParmReq
  repeat' (first | ((with_reducible apply within_of); rfl) | with_reducible (first | exact Keeps.refl | apply State.at_keeps | apply State.modOut_keeps | apply KeepsO.next | exact KeepsO.fault | apply KeepsO.ite | apply Keeps.ite | apply Keeps.foldl | apply Keeps.forAll | apply Keeps.foldlPair | intro _ _) | split | dsimp only [refuse, okS, okB, okParts])

theorem State.notePaths_keeps {T r s} (w : within [.pts] T = true) (h : Keeps T r s) : Keeps T r (State.notePaths s) := by
  refine Keeps.then (A := [.pts]) ?_ w h
  clear w h
  unfold State.notePaths
  repeat' (first | ((with_reducible apply within_of); rfl) | with_reducible (first | exact Keeps.refl | apply State.modOut_keeps | apply Keeps.ite | apply Keeps.foldl | apply Keeps.forAll | apply Keeps.foldlPair | intro _ _) | split | dsimp only [refuse, okS, okB, okParts])

theorem serveOutletDcStatus_keeps {T r x0 s} (w : within [.pts] T = true) (h : Keeps T r s) : Keeps T r (serveOutletDcStatus x0 s).st := by
  refine Keeps.then (A := [.pts]) ?_ w h
  clear w h
  unfold serveOutletDcStatus onOutlet okB refuse
  repeat' (first | ((with_reducible apply within_of); rfl) | with_reducible (first | exact Keeps.refl | apply State.modOut_keeps | apply Keeps.ite | apply Keeps.foldl | apply Keeps.forAll | apply Keeps.foldlPair | intro _ _) | split | dsimp only [refuse, okS, okB, okParts])

theorem serveOutletLimit_keeps {T r x0 s} (w : within [.pts] T = true) (h : Keeps T r s) : Keeps T r (serveOutletLimit x0 s).st := by
  refine Keeps.then (A := [.pts]) ?_ w h
  clear w h
  unfold serveOutletLimit onOutlet okS refuse
  repeat' (first | ((with_reducible apply within_of); rfl) | with_reducible (first | exact Keeps.refl | apply State.modOut_keeps | apply Keeps.ite | apply Keeps.foldl | apply Keeps.forAll | apply Keeps.foldlPair | intro _ _) | split | dsimp only [refuse, okS, okB, okParts])

theorem serveRootStore_keeps {T r x0 x1 s} (w : within [.host, .log, .keys] T = true) (h : Keeps T r s) : Keeps T r (serveRootStore x0 x1 s).st := by
  refine Keeps.then (A := [.host, .log, .keys]) ?_ w h
  clear w h
  unfold serveRootStore withLog okS refuse
  repeat' (first | ((with_reducible apply within_of); rfl) | with_reducible (first | exact Keeps.refl | apply State.enterHost_keeps | apply State.logRefused_keeps | apply State.modKeys_keeps | apply Keeps.ite | apply Keeps.foldl | apply Keeps.forAll | apply Keeps.foldlPair | intro _ _) | split | dsimp only [refuse, okS, okB, okParts])

theorem execSlacRunJudged_keeps {x0 x1 x2 x3 s} : KeepsO [.clk, .pts] s (execSlacRunJudged x0 x1 x2 x3 s) := by
  unfold execSlacRunJudged
  repeat' (first | ((with_reducible apply within_of); rfl) | with_reducible (first | exact Keeps.refl | apply State.at_keeps | apply State.modOut_keeps | apply KeepsO.next | exact KeepsO.fault | apply KeepsO.ite | apply Keeps.ite | apply Keeps.foldl | apply Keeps.forAll | apply Keeps.foldlPair | intro _ _) | split | dsimp only [refuse, okS, okB, okParts])

theorem State.startWaitingTests_keeps {T r s} (w : within [.slices, .pts, .sar] T = true) (h : Keeps T r s) : Keeps T r (State.startWaitingTests s) := by
  refine Keeps.then (A := [.slices, .pts, .sar]) ?_ w h
  clear w h
  unfold State.startWaitingTests
  repeat' (first | ((with_reducible apply within_of); rfl) | with_reducible (first | exact Keeps.refl | apply State.runSelfTest_keeps | apply Keeps.ite | apply Keeps.foldl | apply Keeps.forAll | apply Keeps.foldlPair | intro _ _) | split | dsimp only [refuse, okS, okB, okParts])

theorem execResidualSelfTestResult_keeps {x0 x1 s} : KeepsO [.clk, .host, .slices, .pts, .sw, .sar] s (execResidualSelfTestResult x0 x1 s) := by
  unfold execResidualSelfTestResult
  repeat' (first | ((with_reducible apply within_of); rfl) | with_reducible (first | exact Keeps.refl | apply State.at_keeps | apply State.endInjection_keeps | apply State.modOut_keeps | apply State.rcdEvent_keeps | apply State.runSelfTest_keeps | apply State.toFault_keeps | apply KeepsO.next | exact KeepsO.fault | apply KeepsO.ite | apply Keeps.ite | apply Keeps.foldl | apply Keeps.forAll | apply Keeps.foldlPair | intro _ _) | split | dsimp only [refuse, okS, okB, okParts])

theorem State.seccAnswer_keeps {T r s x1} (w : within [.pts] T = true) (h : Keeps T r s) : Keeps T r (State.seccAnswer s x1) := by
  refine Keeps.then (A := [.pts]) ?_ w h
  clear w h
  unfold State.seccAnswer
  repeat' (first | ((with_reducible apply within_of); rfl) | with_reducible (first | exact Keeps.refl | apply State.modOut_keeps | apply Keeps.ite | apply Keeps.foldl | apply Keeps.forAll | apply Keeps.foldlPair | intro _ _) | split | dsimp only [refuse, okS, okB, okParts])

theorem State.handshake_keeps {T r s x1 x2} (w : within [.clk, .pts, .keys] T = true) (h : Keeps T r s) : Keeps T r (State.handshake s x1 x2) := by
  refine Keeps.then (A := [.clk, .pts, .keys]) ?_ w h
  clear w h
  unfold State.handshake
  repeat' (first | ((with_reducible apply within_of); rfl) | with_reducible (first | exact Keeps.refl | apply State.askKey_keeps | apply State.bump_keeps | apply State.modOut_keeps | apply Keeps.ite | apply Keeps.foldl | apply Keeps.forAll | apply Keeps.foldlPair | intro _ _) | split | dsimp only [refuse, okS, okB, okParts])

theorem State.takeContract_keeps {T r s x1 x2} (w : within [.clk, .par, .host, .pts, .led, .plc] T = true) (h : Keeps T r s) : Keeps T r (State.takeContract s x1 x2) := by
  refine Keeps.then (A := [.clk, .par, .host, .pts, .led, .plc]) ?_ w h
  clear w h
  unfold State.takeContract
  repeat' (first | ((with_reducible apply within_of); rfl) | with_reducible (first | exact Keeps.refl | apply State.authorise_keeps | apply State.modOut_keeps | apply Keeps.ite | apply Keeps.foldl | apply Keeps.forAll | apply Keeps.foldlPair | intro _ _) | split | dsimp only [refuse, okS, okB, okParts])

theorem State.v2gEffect_keeps {T r s x1 x2} (w : within [.clk, .par, .host, .pts, .led, .keys, .plc] T = true) (h : Keeps T r s) : Keeps T r (State.v2gEffect s x1 x2) := by
  refine Keeps.then (A := [.clk, .par, .host, .pts, .led, .keys, .plc]) ?_ w h
  clear w h
  unfold State.v2gEffect
  repeat' (first | ((with_reducible apply within_of); rfl) | with_reducible (first | exact Keeps.refl | apply State.addCause_keeps | apply State.handshake_keeps | apply State.modOut_keeps | apply State.takeContract_keeps | apply Keeps.ite | apply Keeps.foldl | apply Keeps.forAll | apply Keeps.foldlPair | intro _ _) | split | dsimp only [refuse, okS, okB, okParts])

theorem execV2gMessageReceived_keeps {x0 x1 x2 s} : KeepsO [.clk, .par, .host, .pts, .led, .keys, .plc] s (execV2gMessageReceived x0 x1 x2 s) := by
  unfold execV2gMessageReceived
  repeat' (first | ((with_reducible apply within_of); rfl) | with_reducible (first | exact Keeps.refl | apply State.at_keeps | apply State.modOut_keeps | apply State.seccAnswer_keeps | apply State.v2gEffect_keeps | apply KeepsO.next | exact KeepsO.fault | apply KeepsO.ite | apply Keeps.ite | apply Keeps.foldl | apply Keeps.forAll | apply Keeps.foldlPair | intro _ _) | split | dsimp only [refuse, okS, okB, okParts])

theorem State.reachesA_keeps {T r s x1} (w : within [.host, .slices, .pts, .sw, .plc, .sar] T = true) (h : Keeps T r s) : Keeps T r (State.reachesA s x1) := by
  refine Keeps.then (A := [.host, .slices, .pts, .sw, .plc, .sar]) ?_ w h
  clear w h
  unfold State.reachesA
  repeat' (first | ((with_reducible apply within_of); rfl) | with_reducible (first | exact Keeps.refl | apply State.addCause_keeps | apply State.backToIdle_keeps | apply State.dropTest_keeps | apply State.linkDown_keeps | apply Keeps.ite | apply Keeps.foldl | apply Keeps.forAll | apply Keeps.foldlPair | intro _ _) | split | dsimp only [refuse, okS, okB, okParts])

theorem State.pilotEffect_keeps {T r s x1 x2 x3} (w : within [.host, .slices, .pts, .sw, .plc, .sar] T = true) (h : Keeps T r s) : Keeps T r (State.pilotEffect s x1 x2 x3) := by
  refine Keeps.then (A := [.host, .slices, .pts, .sw, .plc, .sar]) ?_ w h
  clear w h
  unfold State.pilotEffect
  repeat' (first | ((with_reducible apply within_of); rfl) | with_reducible (first | exact Keeps.refl | apply State.addCause_keeps | apply State.leavesA_keeps | apply State.reachesA_keeps | apply Keeps.ite | apply Keeps.foldl | apply Keeps.forAll | apply Keeps.foldlPair | intro _ _) | split | dsimp only [refuse, okS, okB, okParts])

theorem execPilotCodeAccepted_keeps {x0 x1 s} : KeepsO [.clk, .host, .slices, .pts, .sw, .plc, .sar] s (execPilotCodeAccepted x0 x1 s) := by
  unfold execPilotCodeAccepted
  repeat' (first | ((with_reducible apply within_of); rfl) | with_reducible (first | exact Keeps.refl | apply State.at_keeps | apply State.modOut_keeps | apply State.outletChange_keeps | apply State.pilotEffect_keeps | apply State.setPilot_keeps | apply KeepsO.next | exact KeepsO.fault | apply KeepsO.ite | apply Keeps.ite | apply Keeps.foldl | apply Keeps.forAll | apply Keeps.foldlPair | intro _ _) | split | dsimp only [refuse, okS, okB, okParts])

theorem execOutletLimit_keeps {x0 x1 s} : KeepsO [.clk, .host, .pts] s (execOutletLimit x0 x1 s) := hostCmd_keeps (A := [.pts]) (fun _ _ => serveOutletLimit_keeps rfl Keeps.refl) rfl rfl

theorem State.weldEvent_keeps {T r s x1 x2} (w : within [.host] T = true) (h : Keeps T r s) : Keeps T r (State.weldEvent s x1 x2) := by
  refine Keeps.then (A := [.host]) ?_ w h
  clear w h
  unfold State.weldEvent
  repeat' (first | ((with_reducible apply within_of); rfl) | with_reducible (first | exact Keeps.refl | apply State.raise_keeps | apply Keeps.ite | apply Keeps.foldl | apply Keeps.forAll | apply Keeps.foldlPair | intro _ _) | split | dsimp only [refuse, okS, okB, okParts])

theorem execWeldCleared_keeps {x0 x1 s} : KeepsO [.clk, .host, .pts] s (execWeldCleared x0 x1 s) := by
  unfold execWeldCleared
  repeat' (first | ((with_reducible apply within_of); rfl) | with_reducible (first | exact Keeps.refl | apply State.at_keeps | apply State.modOut_keeps | apply State.weldEvent_keeps | apply KeepsO.next | exact KeepsO.fault | apply KeepsO.ite | apply Keeps.ite | apply Keeps.foldl | apply Keeps.forAll | apply Keeps.foldlPair | intro _ _) | split | dsimp only [refuse, okS, okB, okParts])

theorem execPlcLossTimeout_keeps {x0 x1 s} : KeepsO [.clk, .pts] s (execPlcLossTimeout x0 x1 s) := by
  unfold execPlcLossTimeout
  repeat' (first | ((with_reducible apply within_of); rfl) | with_reducible (first | exact Keeps.refl | apply State.addCause_keeps | apply State.at_keeps | apply State.modOut_keeps | apply KeepsO.next | exact KeepsO.fault | apply KeepsO.ite | apply Keeps.ite | apply Keeps.foldl | apply Keeps.forAll | apply Keeps.foldlPair | intro _ _) | split | dsimp only [refuse, okS, okB, okParts])

theorem execResidualTrip_keeps {x0 x1 x2 x3 s} : KeepsO [.clk, .host, .pts, .sw] s (execResidualTrip x0 x1 x2 x3 s) := by
  unfold execResidualTrip
  repeat' (first | ((with_reducible apply within_of); rfl) | with_reducible (first | exact Keeps.refl | apply State.at_keeps | apply State.forceSafe_keeps | apply State.modOut_keeps | apply State.modSwch_keeps | apply State.reportTrip_keeps | apply KeepsO.next | exact KeepsO.fault | apply KeepsO.ite | apply Keeps.ite | apply Keeps.foldl | apply Keeps.forAll | apply Keeps.foldlPair | intro _ _) | split | dsimp only [refuse, okS, okB, okParts])

theorem execPilotPeriod_keeps {x0 x1 s} : KeepsO [.clk, .pts, .sar] s (execPilotPeriod x0 x1 s) := by
  unfold execPilotPeriod
  repeat' (first | ((with_reducible apply within_of); rfl) | with_reducible (first | exact Keeps.refl | apply State.at_keeps | apply State.fireTrigger_keeps | apply State.modOut_keeps | apply KeepsO.next | exact KeepsO.fault | apply KeepsO.ite | apply Keeps.ite | apply Keeps.foldl | apply Keeps.forAll | apply Keeps.foldlPair | intro _ _) | split | dsimp only [refuse, okS, okB, okParts])

theorem execOutletDcStatus_keeps {x0 x1 s} : KeepsO [.clk, .host, .pts] s (execOutletDcStatus x0 x1 s) := hostCmd_keeps (A := [.pts]) (fun _ _ => serveOutletDcStatus_keeps rfl Keeps.refl) rfl rfl

theorem execWeldedContactDeclared_keeps {x0 x1 s} : KeepsO [.clk, .host, .pts, .sw] s (execWeldedContactDeclared x0 x1 s) := by
  unfold execWeldedContactDeclared
  repeat' (first | ((with_reducible apply within_of); rfl) | with_reducible (first | exact Keeps.refl | apply State.addCause_keeps | apply State.at_keeps | apply State.hold4_keeps | apply State.modOut_keeps | apply State.weldEvent_keeps | apply KeepsO.next | exact KeepsO.fault | apply KeepsO.ite | apply Keeps.ite | apply Keeps.foldl | apply Keeps.forAll | apply Keeps.foldlPair | intro _ _) | split | dsimp only [refuse, okS, okB, okParts])

theorem execProximityCodeAccepted_keeps {x0 x1 s} : KeepsO [.clk, .host, .pts] s (execProximityCodeAccepted x0 x1 s) := by
  unfold execProximityCodeAccepted
  repeat' (first | ((with_reducible apply within_of); rfl) | with_reducible (first | exact Keeps.refl | apply State.addCause_keeps | apply State.at_keeps | apply State.modOut_keeps | apply State.outletChange_keeps | apply State.setPilot_keeps | apply KeepsO.next | exact KeepsO.fault | apply KeepsO.ite | apply Keeps.ite | apply Keeps.foldl | apply Keeps.forAll | apply Keeps.foldlPair | intro _ _) | split | dsimp only [refuse, okS, okB, okParts])

theorem execDcStatusTimeout_keeps {x0 x1 s} : KeepsO [.clk, .pts] s (execDcStatusTimeout x0 x1 s) := by
  unfold execDcStatusTimeout
  repeat' (first | ((with_reducible apply within_of); rfl) | with_reducible (first | exact Keeps.refl | apply State.at_keeps | apply State.modOut_keeps | apply KeepsO.next | exact KeepsO.fault | apply KeepsO.ite | apply Keeps.ite | apply Keeps.foldl | apply Keeps.forAll | apply Keeps.foldlPair | intro _ _) | split | dsimp only [refuse, okS, okB, okParts])

theorem execOutletRootStore_keeps {x0 x1 s} : KeepsO [.clk, .host, .log, .keys] s (execOutletRootStore x0 x1 s) := hostCmd_keeps (A := [.host, .log, .keys]) (fun _ _ => serveRootStore_keeps rfl Keeps.refl) rfl rfl

end Sys2Proof.Machine
end

