-- ==== Sys2Proof/Laws/KeepsKeyOps.lean ====
section
/-!
SUPPORT. Which parts of the state each operation of Machine/KeyOps.lean leaves as they are.
-/

namespace Sys2Proof.Machine

theorem State.revokeParent_keeps {T r s x1} (w : within [.host, .pts] T = true) (h : Keeps T r s) : Keeps T r (State.revokeParent s x1) := by
  refine Keeps.then (A := [.host, .pts]) ?_ w h
  clear w h
  unfold State.revokeParent
  repeat' (first | ((with_reducible apply within_of); rfl) | with_reducible (first | exact Keeps.refl | apply State.addCause_keeps | apply State.backToIdle_keeps | apply State.modSes_keeps | apply Keeps.ite | apply Keeps.foldl | apply Keeps.forAll | apply Keeps.foldlPair | intro _ _) | split | dsimp only [refuse, okS, okB, okParts])

theorem State.keyEvent_keeps {T r s x1 x2 x3 x4 x5 x6 x7} (w : within [.host] T = true) (h : Keeps T r s) : Keeps T r (State.keyEvent s x1 x2 x3 x4 x5 x6 x7) := by
  refine Keeps.then (A := [.host]) ?_ w h
  clear w h
  unfold State.keyEvent
  repeat' (first | ((with_reducible apply within_of); rfl) | with_reducible (first | exact Keeps.refl | apply State.raise_keeps | apply Keeps.ite | apply Keeps.foldl | apply Keeps.forAll | apply Keeps.foldlPair | intro _ _) | split | dsimp only [refuse, okS, okB, okParts])

theorem State.invalidateOne_keeps {T r s x1 x2 x3 x4 x5 x6} (w : within [.host, .pts, .log, .keys] T = true) (h : Keeps T r s) : Keeps T r (State.invalidateOne s x1 x2 x3 x4 x5 x6) := by
  refine Keeps.then (A := [.host, .pts, .log, .keys]) ?_ w h
  clear w h
  unfold State.invalidateOne
  repeat' (first | ((with_reducible apply within_of); rfl) | with_reducible (first | exact Keeps.refl | apply State.enter_keeps | apply State.keyEvent_keeps | apply State.modKey_keeps | apply State.revokeParent_keeps | apply Keeps.ite | apply Keeps.foldl | apply Keeps.forAll | apply Keeps.foldlPair | intro _ _) | split | dsimp only [refuse, okS, okB, okParts])

theorem State.invalidate_keeps {T r s x1 x2 x3 x4 x5} (w : within [.host, .pts, .log, .keys] T = true) (h : Keeps T r s) : Keeps T r (State.invalidate s x1 x2 x3 x4 x5) := by
  refine Keeps.then (A := [.host, .pts, .log, .keys]) ?_ w h
  clear w h
  unfold State.invalidate
  repeat' (first | ((with_reducible apply within_of); rfl) | with_reducible (first | exact Keeps.refl | apply State.invalidateOne_keeps | apply State.revokeParent_keeps | apply Keeps.ite | apply Keeps.foldl | apply Keeps.forAll | apply Keeps.foldlPair | intro _ _) | split | dsimp only [refuse, okS, okB, okParts])

theorem State.relock_keeps {T r s x1 x2 x3 x4} (w : within [.host, .test, .eng, .sw, .log] T = true) (h : Keeps T r s) : Keeps T r (State.relock s x1 x2 x3 x4) := by
  refine Keeps.then (A := [.host, .test, .eng, .sw, .log]) ?_ w h
  clear w h
  unfold State.relock
  repeat' (first | ((with_reducible apply within_of); rfl) | with_reducible (first | exact Keeps.refl | apply State.enter_keeps | apply State.modTest_keeps | apply State.setTest_keeps | apply Keeps.ite | apply Keeps.foldl | apply Keeps.forAll | apply Keeps.foldlPair | intro _ _) | split | dsimp only [refuse, okS, okB, okParts])

end Sys2Proof.Machine
end

