-- ==== Sys2Proof/Laws/KeepsSafetyFn.lean ====
section
/-!
SUPPORT. Which parts of the state each operation of Machine/SafetyFn.lean leaves as they are.
-/

namespace Sys2Proof.Machine

theorem State.runInput_keeps {T r s x1 x2} (w : within [.saf] T = true) (h : Keeps T r s) : Keeps T r (State.runInput s x1 x2) := by
  refine Keeps.then (A := [.saf]) ?_ w h
  clear w h
  unfold State.runInput
  repeat' (first | ((with_reducible apply within_of); rfl) | with_reducible (first | exact Keeps.refl | apply State.modSafIn_keeps | apply Keeps.ite | apply Keeps.foldl | apply Keeps.forAll | apply Keeps.foldlPair | intro _ _) | split | dsimp only [refuse, okS, okB, okParts])

theorem State.discEvent_keeps {T r s x1 x2 x3} (w : within [.host] T = true) (h : Keeps T r s) : Keeps T r (State.discEvent s x1 x2 x3) := by
  refine Keeps.then (A := [.host]) ?_ w h
  clear w h
  unfold State.discEvent
  repeat' (first | ((with_reducible apply within_of); rfl) | with_reducible (first | exact Keeps.refl | apply State.raise_keeps | apply Keeps.ite | apply Keeps.foldl | apply Keeps.forAll | apply Keeps.foldlPair | intro _ _) | split | dsimp only [refuse, okS, okB, okParts])

theorem State.demandEvent_keeps {T r s x1 x2 x3 x4 x5 x6 x7} (w : within [.host] T = true) (h : Keeps T r s) : Keeps T r (State.demandEvent s x1 x2 x3 x4 x5 x6 x7) := by
  refine Keeps.then (A := [.host]) ?_ w h
  clear w h
  unfold State.demandEvent
  repeat' (first | ((with_reducible apply within_of); rfl) | with_reducible (first | exact Keeps.refl | apply State.raise_keeps | apply Keeps.ite | apply Keeps.foldl | apply Keeps.forAll | apply Keeps.foldlPair | intro _ _) | split | dsimp only [refuse, okS, okB, okParts])

theorem State.inputDemand_keeps {T r s x1 x2} (w : within [.host] T = true) (h : Keeps T r s) : Keeps T r (State.inputDemand s x1 x2) := by
  refine Keeps.then (A := [.host]) ?_ w h
  clear w h
  unfold State.inputDemand
  repeat' (first | ((with_reducible apply within_of); rfl) | with_reducible (first | exact Keeps.refl | apply State.demandEvent_keeps | apply Keeps.ite | apply Keeps.foldl | apply Keeps.forAll | apply Keeps.foldlPair | intro _ _) | split | dsimp only [refuse, okS, okB, okParts])

theorem State.releaseInput_keeps {T r s x1} (w : within [.host, .sw, .saf] T = true) (h : Keeps T r s) : Keeps T r (State.releaseInput s x1) := by
  refine Keeps.then (A := [.host, .sw, .saf]) ?_ w h
  clear w h
  unfold State.releaseInput
  repeat' (first | ((with_reducible apply within_of); rfl) | with_reducible (first | exact Keeps.refl | apply State.inputDemand_keeps | apply State.modSafIn_keeps | apply State.releaseSi_keeps | apply Keeps.ite | apply Keeps.foldl | apply Keeps.forAll | apply Keeps.foldlPair | intro _ _) | split | dsimp only [refuse, okS, okB, okParts])

theorem State.clearInput_keeps {T r s x1} (w : within [.host, .sw, .saf] T = true) (h : Keeps T r s) : Keeps T r (State.clearInput s x1) := by
  refine Keeps.then (A := [.host, .sw, .saf]) ?_ w h
  clear w h
  unfold State.clearInput
  repeat' (first | ((with_reducible apply within_of); rfl) | with_reducible (first | exact Keeps.refl | apply State.discEvent_keeps | apply State.inputDemand_keeps | apply State.modSafIn_keeps | apply State.release4_keeps | apply State.releaseInput_keeps | apply State.releaseSi_keeps | apply Keeps.ite | apply Keeps.foldl | apply Keeps.forAll | apply Keeps.foldlPair | intro _ _) | split | dsimp only [refuse, okS, okB, okParts])

theorem State.settleInput_keeps {T r s x1} (w : within [.host, .pts, .sw, .saf] T = true) (h : Keeps T r s) : Keeps T r (State.settleInput s x1) := by
  refine Keeps.then (A := [.host, .pts, .sw, .saf]) ?_ w h
  clear w h
  unfold State.settleInput
  repeat' (first | ((with_reducible apply within_of); rfl) | with_reducible (first | exact Keeps.refl | apply State.addCause_keeps | apply State.clearInput_keeps | apply State.holdSi_keeps | apply State.inputDemand_keeps | apply State.modSafIn_keeps | apply State.release4_keeps | apply State.releaseSi_keeps | apply Keeps.ite | apply Keeps.foldl | apply Keeps.forAll | apply Keeps.foldlPair | intro _ _) | split | dsimp only [refuse, okS, okB, okParts])

theorem State.holdPoints_keeps {T r s x1 x2} (w : within [.sw] T = true) (h : Keeps T r s) : Keeps T r (State.holdPoints s x1 x2) := by
  refine Keeps.then (A := [.sw]) ?_ w h
  clear w h
  unfold State.holdPoints
  repeat' (first | ((with_reducible apply within_of); rfl) | with_reducible (first | exact Keeps.refl | apply State.hold4_keeps | apply Keeps.ite | apply Keeps.foldl | apply Keeps.forAll | apply Keeps.foldlPair | intro _ _) | split | dsimp only [refuse, okS, okB, okParts])

theorem State.startEntry_keeps {T r s x1} (w : within [.sw, .saf] T = true) (h : Keeps T r s) : Keeps T r (State.startEntry s x1) := by
  refine Keeps.then (A := [.sw, .saf]) ?_ w h
  clear w h
  unfold State.startEntry
  repeat' (first | ((with_reducible apply within_of); rfl) | with_reducible (first | exact Keeps.refl | apply State.holdPoints_keeps | apply State.modScEntry_keeps | apply State.release4_keeps | apply Keeps.ite | apply Keeps.foldl | apply Keeps.forAll | apply Keeps.foldlPair | intro _ _) | split | dsimp only [refuse, okS, okB, okParts])

theorem State.causeAll_keeps {T r s x1 x2} (w : within [.pts] T = true) (h : Keeps T r s) : Keeps T r (State.causeAll s x1 x2) := by
  refine Keeps.then (A := [.pts]) ?_ w h
  clear w h
  unfold State.causeAll
  repeat' (first | ((with_reducible apply within_of); rfl) | with_reducible (first | exact Keeps.refl | apply State.addCause_keeps | apply Keeps.ite | apply Keeps.foldl | apply Keeps.forAll | apply Keeps.foldlPair | intro _ _) | split | dsimp only [refuse, okS, okB, okParts])

theorem State.settleOwnStop_keeps {T r s} (w : within [.host, .pts, .sw, .saf] T = true) (h : Keeps T r s) : Keeps T r (State.settleOwnStop s) := by
  refine Keeps.then (A := [.host, .pts, .sw, .saf]) ?_ w h
  clear w h
  unfold State.settleOwnStop
  repeat' (first | ((with_reducible apply within_of); rfl) | with_reducible (first | exact Keeps.refl | apply State.causeAll_keeps | apply State.demandEvent_keeps | apply State.holdPoints_keeps | apply State.modSaf_keeps | apply Keeps.ite | apply Keeps.foldl | apply Keeps.forAll | apply Keeps.foldlPair | intro _ _) | split | dsimp only [refuse, okS, okB, okParts])

theorem State.sealBindings_keeps {T r s x1} (w : within [.host, .pts, .log, .keys] T = true) (h : Keeps T r s) : Keeps T r (State.sealBindings s x1) := by
  refine Keeps.then (A := [.host, .pts, .log, .keys]) ?_ w h
  clear w h
  unfold State.sealBindings
  repeat' (first | ((with_reducible apply within_of); rfl) | with_reducible (first | exact Keeps.refl | apply State.invalidate_keeps | apply Keeps.ite | apply Keeps.foldl | apply Keeps.forAll | apply Keeps.foldlPair | intro _ _) | split | dsimp only [refuse, okS, okB, okParts])

theorem State.sealChange_keeps {T r s x1 x2} (w : within [.host, .test, .eng, .pts, .recs, .led, .sw, .saf, .log, .keys] T = true) (h : Keeps T r s) : Keeps T r (State.sealChange s x1 x2) := by
  refine Keeps.then (A := [.host, .test, .eng, .pts, .recs, .led, .sw, .saf, .log, .keys]) ?_ w h
  clear w h
  unfold State.sealChange
  repeat' (first | ((with_reducible apply within_of); rfl) | with_reducible (first | exact Keeps.refl | apply State.buildSeal_keeps | apply State.enterCapo_keeps | apply State.modSaf_keeps | apply State.raise_keeps | apply State.relock_keeps | apply State.sealBindings_keeps | apply Keeps.ite | apply Keeps.foldl | apply Keeps.forAll | apply Keeps.foldlPair | intro _ _) | split | dsimp only [refuse, okS, okB, okParts])

theorem State.msgFaultEvent_keeps {T r s x1 x2 x3 x4 x5} (w : within [.host] T = true) (h : Keeps T r s) : Keeps T r (State.msgFaultEvent s x1 x2 x3 x4 x5) := by
  refine Keeps.then (A := [.host]) ?_ w h
  clear w h
  unfold State.msgFaultEvent
  repeat' (first | ((with_reducible apply within_of); rfl) | with_reducible (first | exact Keeps.refl | apply State.raise_keeps | apply Keeps.ite | apply Keeps.foldl | apply Keeps.forAll | apply Keeps.foldlPair | intro _ _) | split | dsimp only [refuse, okS, okB, okParts])

theorem State.faultEntry_keeps {T r s x1 x2 x3} (w : within [.host, .pts, .sw, .saf, .ring] T = true) (h : Keeps T r s) : Keeps T r (State.faultEntry s x1 x2 x3) := by
  refine Keeps.then (A := [.host, .pts, .sw, .saf, .ring]) ?_ w h
  clear w h
  unfold State.faultEntry
  repeat' (first | ((with_reducible apply within_of); rfl) | with_reducible (first | exact Keeps.refl | apply State.causeAll_keeps | apply State.holdPoints_keeps | apply State.modScEntry_keeps | apply State.msgFaultEvent_keeps | apply State.queueFault_keeps | apply Keeps.ite | apply Keeps.foldl | apply Keeps.forAll | apply Keeps.foldlPair | intro _ _) | split | dsimp only [refuse, okS, okB, okParts])

theorem State.freePoints_keeps {T r s x1 x2} (w : within [.sw] T = true) (h : Keeps T r s) : Keeps T r (State.freePoints s x1 x2) := by
  refine Keeps.then (A := [.sw]) ?_ w h
  clear w h
  unfold State.freePoints
  repeat' (first | ((with_reducible apply within_of); rfl) | with_reducible (first | exact Keeps.refl | apply State.orderDie_keeps | apply Keeps.ite | apply Keeps.foldl | apply Keeps.forAll | apply Keeps.foldlPair | intro _ _) | split | dsimp only [refuse, okS, okB, okParts])

theorem State.settleEntry_keeps {T r s x1 x2} (w : within [.host, .pts, .sw, .saf] T = true) (h : Keeps T r s) : Keeps T r (State.settleEntry s x1 x2) := by
  refine Keeps.then (A := [.host, .pts, .sw, .saf]) ?_ w h
  clear w h
  unfold State.settleEntry
  repeat' (first | ((with_reducible apply within_of); rfl) | with_reducible (first | exact Keeps.refl | apply State.causeAll_keeps | apply State.demandEvent_keeps | apply State.holdPoints_keeps | apply State.modScEntry_keeps | apply Keeps.ite | apply Keeps.foldl | apply Keeps.forAll | apply Keeps.foldlPair | intro _ _) | split | dsimp only [refuse, okS, okB, okParts])

theorem State.consume_keeps {T r s x1 x2} (w : within [.host, .pts, .sw, .saf, .ring] T = true) (h : Keeps T r s) : Keeps T r (State.consume s x1 x2) := by
  refine Keeps.then (A := [.host, .pts, .sw, .saf, .ring]) ?_ w h
  clear w h
  unfold State.consume
  repeat' (first | ((with_reducible apply within_of); rfl) | with_reducible (first | exact Keeps.refl | apply State.faultEntry_keeps | apply State.freePoints_keeps | apply State.modScEntry_keeps | apply State.settleEntry_keeps | apply Keeps.ite | apply Keeps.foldl | apply Keeps.forAll | apply Keeps.foldlPair | intro _ _) | split | dsimp only [refuse, okS, okB, okParts])

theorem State.releaseOwn_keeps {T r s x1} (w : within [.host, .sw, .saf] T = true) (h : Keeps T r s) : Keeps T r (State.releaseOwn s x1) := by
  refine Keeps.then (A := [.host, .sw, .saf]) ?_ w h
  clear w h
  unfold State.releaseOwn
  repeat' (first | ((with_reducible apply within_of); rfl) | with_reducible (first | exact Keeps.refl | apply State.demandEvent_keeps | apply State.freePoints_keeps | apply State.modSaf_keeps | apply Keeps.ite | apply Keeps.foldl | apply Keeps.forAll | apply Keeps.foldlPair | intro _ _) | split | dsimp only [refuse, okS, okB, okParts])

theorem State.perturb_keeps {T r s x1 x2} (w : within [.host, .test, .eng, .sw] T = true) (h : Keeps T r s) : Keeps T r (State.perturb s x1 x2).2 := by
  refine Keeps.then (A := [.host, .test, .eng, .sw]) ?_ w h
  clear w h
  unfold State.perturb
  repeat' (first | ((with_reducible apply within_of); rfl) | with_reducible (first | exact Keeps.refl | apply State.modTest_keeps | apply State.setTest_keeps | apply Keeps.ite | apply Keeps.foldl | apply Keeps.forAll | apply Keeps.foldlPair | intro _ _) | split | dsimp only [refuse, okS, okB, okParts])

theorem execSafetyMessageReceived_keeps {x0 x1 x2 s} : KeepsO [.clk, .host, .test, .eng, .pts, .sw, .saf, .ring] s (execSafetyMessageReceived x0 x1 x2 s) := by
  unfold execSafetyMessageReceived
  repeat' (first | ((with_reducible apply within_of); rfl) | with_reducible (first | exact Keeps.refl | apply State.at_keeps | apply State.consume_keeps | apply State.modTest_keeps | apply State.perturb_keeps | apply KeepsO.next | exact KeepsO.fault | apply KeepsO.ite | apply Keeps.ite | apply Keeps.foldl | apply Keeps.forAll | apply Keeps.foldlPair | intro _ _) | split | dsimp only [refuse, okS, okB, okParts])

theorem State.releaseEntry_keeps {T r s x1 x2} (w : within [.host, .sw, .saf] T = true) (h : Keeps T r s) : Keeps T r (State.releaseEntry s x1 x2) := by
  refine Keeps.then (A := [.host, .sw, .saf]) ?_ w h
  clear w h
  unfold State.releaseEntry
  repeat' (first | ((with_reducible apply within_of); rfl) | with_reducible (first | exact Keeps.refl | apply State.demandEvent_keeps | apply State.freePoints_keeps | apply State.modScEntry_keeps | apply Keeps.ite | apply Keeps.foldl | apply Keeps.forAll | apply Keeps.foldlPair | intro _ _) | split | dsimp only [refuse, okS, okB, okParts])

theorem ackEntry_keeps {T r x0 s} (w : within [.host, .pts, .sw, .saf] T = true) (h : Keeps T r s) : Keeps T r (ackEntry x0 s).st := by
  refine Keeps.then (A := [.host, .pts, .sw, .saf]) ?_ w h
  clear w h
  unfold ackEntry okS refuse
  repeat' (first | ((with_reducible apply within_of); rfl) | with_reducible (first | exact Keeps.refl | apply State.freePoints_keeps | apply State.modScEntry_keeps | apply State.msgFaultEvent_keeps | apply State.releaseEntry_keeps | apply State.settleEntry_keeps | apply Keeps.ite | apply Keeps.foldl | apply Keeps.forAll | apply Keeps.foldlPair | intro _ _) | split | dsimp only [refuse, okS, okB, okParts])

theorem ackInput_keeps {T r x0 s} (w : within [.host, .pts, .sw, .saf] T = true) (h : Keeps T r s) : Keeps T r (ackInput x0 s).st := by
  refine Keeps.then (A := [.host, .pts, .sw, .saf]) ?_ w h
  clear w h
  unfold ackInput okS refuse
  repeat' (first | ((with_reducible apply within_of); rfl) | with_reducible (first | exact Keeps.refl | apply State.discEvent_keeps | apply State.modSafIn_keeps | apply State.release4_keeps | apply State.releaseInput_keeps | apply State.releaseOwn_keeps | apply State.settleInput_keeps | apply Keeps.ite | apply Keeps.foldl | apply Keeps.forAll | apply Keeps.foldlPair | intro _ _) | split | dsimp only [refuse, okS, okB, okParts])

theorem serveSafetyAcknowledge_keeps {T r x0 s} (w : within [.host, .pts, .sw, .saf] T = true) (h : Keeps T r s) : Keeps T r (serveSafetyAcknowledge x0 s).st := by
  refine Keeps.then (A := [.host, .pts, .sw, .saf]) ?_ w h
  clear w h
  unfold serveSafetyAcknowledge refuse
  repeat' (first | ((with_reducible apply within_of); rfl) | with_reducible (first | exact Keeps.refl | apply ackEntry_keeps | apply ackInput_keeps | apply Keeps.ite | apply Keeps.foldl | apply Keeps.forAll | apply Keeps.foldlPair | intro _ _) | split | dsimp only [refuse, okS, okB, okParts])

theorem serveSafetyStatus_keeps {T r x0 s} (w : within [] T = true) (h : Keeps T r s) : Keeps T r (serveSafetyStatus x0 s).st := by
  refine Keeps.then (A := []) ?_ w h
  clear w h
  unfold serveSafetyStatus okB refuse
  repeat' (first | ((with_reducible apply within_of); rfl) | with_reducible (first | exact Keeps.refl | apply Keeps.ite | apply Keeps.foldl | apply Keeps.forAll | apply Keeps.foldlPair | intro _ _) | split | dsimp only [refuse, okS, okB, okParts])

theorem execSafetyDiscrepancyLatch_keeps {x0 x1 s} : KeepsO [.clk, .host, .pts, .sw, .saf] s (execSafetyDiscrepancyLatch x0 x1 s) := by
  unfold execSafetyDiscrepancyLatch
  repeat' (first | ((with_reducible apply within_of); rfl) | with_reducible (first | exact Keeps.refl | apply State.addCause_keeps | apply State.at_keeps | apply State.discEvent_keeps | apply State.hold4_keeps | apply State.modSafIn_keeps | apply KeepsO.next | exact KeepsO.fault | apply KeepsO.ite | apply Keeps.ite | apply Keeps.foldl | apply Keeps.forAll | apply Keeps.foldlPair | intro _ _) | split | dsimp only [refuse, okS, okB, okParts])

theorem execSafetyMessageSend_keeps {x0 x1 s} : KeepsO [.clk, .host, .test, .eng, .sw, .saf] s (execSafetyMessageSend x0 x1 s) := by
  unfold execSafetyMessageSend
  repeat' (first | ((with_reducible apply within_of); rfl) | with_reducible (first | exact Keeps.refl | apply State.at_keeps | apply State.modScEntry_keeps | apply State.modTest_keeps | apply State.perturb_keeps | apply KeepsO.next | exact KeepsO.fault | apply KeepsO.ite | apply Keeps.ite | apply Keeps.foldl | apply Keeps.forAll | apply Keeps.foldlPair | intro _ _) | split | dsimp only [refuse, okS, okB, okParts])

theorem execSiLevelChange_keeps {x0 x1 x2 x3 x4 s} : KeepsO [.clk, .host, .pts, .sw, .saf] s (execSiLevelChange x0 x1 x2 x3 x4 s) := by
  unfold execSiLevelChange
  repeat' (first | ((with_reducible apply within_of); rfl) | with_reducible (first | exact Keeps.refl | apply State.at_keeps | apply State.modSaf_keeps | apply State.modSafIn_keeps | apply State.runInput_keeps | apply State.settleInput_keeps | apply KeepsO.next | exact KeepsO.fault | apply KeepsO.ite | apply Keeps.ite | apply Keeps.foldl | apply Keeps.forAll | apply Keeps.foldlPair | intro _ _) | split | dsimp only [refuse, okS, okB, okParts])

theorem execTestSafetyDelayRelease_keeps {x0 s} : KeepsO [.clk, .host, .test, .pts, .sw, .saf, .ring] s (execTestSafetyDelayRelease x0 s) := by
  unfold execTestSafetyDelayRelease
  repeat' (first | ((with_reducible apply within_of); rfl) | with_reducible (first | exact Keeps.refl | apply State.at_keeps | apply State.consume_keeps | apply State.modScEntry_keeps | apply State.modTest_keeps | apply KeepsO.next | exact KeepsO.fault | apply KeepsO.ite | apply Keeps.ite | apply Keeps.foldl | apply Keeps.forAll | apply Keeps.foldlPair | intro _ _) | split | dsimp only [refuse, okS, okB, okParts])

theorem execSafetyAcknowledge_keeps {x0 x1 s} : KeepsO [.clk, .host, .pts, .sw, .saf] s (execSafetyAcknowledge x0 x1 s) := hostCmd_keeps (A := [.host, .pts, .sw, .saf]) (fun _ _ => serveSafetyAcknowledge_keeps rfl Keeps.refl) rfl rfl

theorem execSafetyAutoRelease_keeps {x0 x1 s} : KeepsO [.clk, .host, .sw, .saf] s (execSafetyAutoRelease x0 x1 s) := by
  unfold execSafetyAutoRelease
  repeat' (first | ((with_reducible apply within_of); rfl) | with_reducible (first | exact Keeps.refl | apply State.at_keeps | apply State.releaseEntry_keeps | apply State.releaseInput_keeps | apply State.releaseOwn_keeps | apply KeepsO.next | exact KeepsO.fault | apply KeepsO.ite | apply Keeps.ite | apply Keeps.foldl | apply Keeps.forAll | apply Keeps.foldlPair | intro _ _) | split | dsimp only [refuse, okS, okB, okParts])

theorem execSealChange_keeps {x0 x1 x2 x3 s} : KeepsO [.clk, .host, .test, .eng, .pts, .recs, .led, .sw, .saf, .log, .keys] s (execSealChange x0 x1 x2 x3 s) := by
  unfold execSealChange
  repeat' (first | ((with_reducible apply within_of); rfl) | with_reducible (first | exact Keeps.refl | apply State.at_keeps | apply State.modSaf_keeps | apply State.sealChange_keeps | apply KeepsO.next | exact KeepsO.fault | apply KeepsO.ite | apply Keeps.ite | apply Keeps.foldl | apply Keeps.forAll | apply Keeps.foldlPair | intro _ _) | split | dsimp only [refuse, okS, okB, okParts])

theorem execSafetyTimeExpectationExpiry_keeps {x0 x1 s} : KeepsO [.clk, .host, .pts, .sw, .saf, .ring] s (execSafetyTimeExpectationExpiry x0 x1 s) := by
  unfold execSafetyTimeExpectationExpiry
  repeat' (first | ((with_reducible apply within_of); rfl) | with_reducible (first | exact Keeps.refl | apply State.at_keeps | apply State.faultEntry_keeps | apply KeepsO.next | exact KeepsO.fault | apply KeepsO.ite | apply Keeps.ite | apply Keeps.foldl | apply Keeps.forAll | apply Keeps.foldlPair | intro _ _) | split | dsimp only [refuse, okS, okB, okParts])

theorem execSafetyStatus_keeps {x0 x1 s} : KeepsO [.clk, .host] s (execSafetyStatus x0 x1 s) := hostCmd_keeps (A := []) (fun _ _ => serveSafetyStatus_keeps rfl Keeps.refl) rfl rfl

end Sys2Proof.Machine
end

