-- ==== Sys2Proof/Laws/KeepsSessionRun.lean ====
section
/-!
SUPPORT. Which parts of the state each operation of Machine/SessionRun.lean leaves as they are.
-/

namespace Sys2Proof.Machine

theorem State.ackBackup_keeps {T r s x1} (w : within [.pts, .sw] T = true) (h : Keeps T r s) : Keeps T r (State.ackBackup s x1) := by
  refine Keeps.then (A := [.pts, .sw]) ?_ w h
  clear w h
  unfold State.ackBackup
  repeat' (first | ((with_reducible apply within_of); rfl) | with_reducible (first | exact Keeps.refl | apply State.modOut_keeps | apply State.release4_keeps | apply Keeps.ite | apply Keeps.foldl | apply Keeps.forAll | apply Keeps.foldlPair | intro _ _) | split | dsimp only [refuse, okS, okB, okParts])

theorem State.ackResidual_keeps {s x1} : KeepsQ [.host, .pts, .sw] s (State.ackResidual s x1) := by
  unfold State.ackResidual
  repeat' (first | ((with_reducible apply within_of); rfl) | with_reducible (first | exact Keeps.refl | apply State.rcdEvent_keeps | apply State.releaseRcd_keeps | apply KeepsQ.some | exact KeepsQ.none | apply KeepsQ.ite | apply Keeps.ite | apply Keeps.foldl | apply Keeps.forAll | apply Keeps.foldlPair | intro _ _) | split | dsimp only [refuse, okS, okB, okParts])

theorem serveFaultAcknowledge_keeps {T r x0 s} (w : within [.host, .slices, .pts, .sw, .sar] T = true) (h : Keeps T r s) : Keeps T r (serveFaultAcknowledge x0 s).st := by
  refine Keeps.then (A := [.host, .slices, .pts, .sw, .sar]) ?_ w h
  clear w h
  unfold serveFaultAcknowledge onSession1 okS refuse onSession
  repeat' (first | ((with_reducible apply within_of); rfl) | with_reducible (first | exact Keeps.refl | apply State.ackBackup_keeps | apply State.backToIdle_keeps | apply State.freshPilot_keeps | apply Keeps.ite | apply Keeps.foldl | apply Keeps.forAll | apply Keeps.foldlPair | intro _ _) | split | dsimp only [refuse, okS, okB, okParts] | refine Keeps.then (State.ackResidual_keeps _ (by assumption)) ?_ ?_)

theorem State.decideCauses_keeps {T r s x1} (w : within [.host, .pts, .sw] T = true) (h : Keeps T r s) : Keeps T r (State.decideCauses s x1) := by
  refine Keeps.then (A := [.host, .pts, .sw]) ?_ w h
  clear w h
  unfold State.decideCauses
  repeat' (first | ((with_reducible apply within_of); rfl) | with_reducible (first | exact Keeps.refl | apply State.modSes_keeps | apply State.startStopping_keeps | apply State.toFault_keeps | apply Keeps.ite | apply Keeps.foldl | apply Keeps.forAll | apply Keeps.foldlPair | intro _ _) | split | dsimp only [refuse, okS, okB, okParts])

theorem State.limitCauses_keeps {T r s x1} (w : within [.pts] T = true) (h : Keeps T r s) : Keeps T r (State.limitCauses s x1) := by
  refine Keeps.then (A := [.pts]) ?_ w h
  clear w h
  unfold State.limitCauses
  repeat' (first | ((with_reducible apply within_of); rfl) | with_reducible (first | exact Keeps.refl | apply State.addCause_keeps | apply Keeps.ite | apply Keeps.foldl | apply Keeps.forAll | apply Keeps.foldlPair | intro _ _) | split | dsimp only [refuse, okS, okB, okParts])

theorem State.sessionDecide_keeps {T r s x1} (w : within [.host, .pts, .sw] T = true) (h : Keeps T r s) : Keeps T r (State.sessionDecide s x1) := by
  refine Keeps.then (A := [.host, .pts, .sw]) ?_ w h
  clear w h
  unfold State.sessionDecide
  repeat' (first | ((with_reducible apply within_of); rfl) | with_reducible (first | exact Keeps.refl | apply State.decideCauses_keeps | apply State.limitCauses_keeps | apply State.startTransfer_keeps | apply State.stopOff_keeps | apply Keeps.ite | apply Keeps.foldl | apply Keeps.forAll | apply Keeps.foldlPair | intro _ _) | split | dsimp only [refuse, okS, okB, okParts])

theorem serveSessionStatus_keeps {T r x0 s} (w : within [] T = true) (h : Keeps T r s) : Keeps T r (serveSessionStatus x0 s).st := by
  refine Keeps.then (A := []) ?_ w h
  clear w h
  unfold serveSessionStatus onSession1 okB onSession
  repeat' (first | ((with_reducible apply within_of); rfl) | with_reducible (first | exact Keeps.refl | apply Keeps.ite | apply Keeps.foldl | apply Keeps.forAll | apply Keeps.foldlPair | intro _ _) | split | dsimp only [refuse, okS, okB, okParts])

theorem execAuthTimeout_keeps {x0 x1 s} : KeepsO [.clk, .host, .pts] s (execAuthTimeout x0 x1 s) := by
  unfold execAuthTimeout
  repeat' (first | ((with_reducible apply within_of); rfl) | with_reducible (first | exact Keeps.refl | apply State.at_keeps | apply State.backToIdle_keeps | apply KeepsO.next | exact KeepsO.fault | apply KeepsO.ite | apply Keeps.ite | apply Keeps.foldl | apply Keeps.forAll | apply Keeps.foldlPair | intro _ _) | split | dsimp only [refuse, okS, okB, okParts])

theorem execStopSettleExpiry_keeps {x0 x1 s} : KeepsO [.clk, .host, .pts] s (execStopSettleExpiry x0 x1 s) := by
  unfold execStopSettleExpiry
  repeat' (first | ((with_reducible apply within_of); rfl) | with_reducible (first | exact Keeps.refl | apply State.at_keeps | apply State.close_keeps | apply KeepsO.next | exact KeepsO.fault | apply KeepsO.ite | apply Keeps.ite | apply Keeps.foldl | apply Keeps.forAll | apply Keeps.foldlPair | intro _ _) | split | dsimp only [refuse, okS, okB, okParts])

theorem State.closeAtPeriod_keeps {T r s x1 x2} (w : within [.host, .pts, .recs, .led, .sw] T = true) (h : Keeps T r s) : Keeps T r (State.closeAtPeriod s x1 x2) := by
  refine Keeps.then (A := [.host, .pts, .recs, .led, .sw]) ?_ w h
  clear w h
  unfold State.closeAtPeriod
  repeat' (first | ((with_reducible apply within_of); rfl) | with_reducible (first | exact Keeps.refl | apply State.buildEnd_keeps | apply State.close_keeps | apply State.modSes_keeps | apply State.pathOff_keeps | apply Keeps.ite | apply Keeps.foldl | apply Keeps.forAll | apply Keeps.foldlPair | intro _ _) | split | dsimp only [refuse, okS, okB, okParts])

theorem State.sessionFrameStart_keeps {T r s x1 x2} (w : within [.pts] T = true) (h : Keeps T r s) : Keeps T r (State.sessionFrameStart s x1 x2) := by
  refine Keeps.then (A := [.pts]) ?_ w h
  clear w h
  unfold State.sessionFrameStart
  repeat' (first | ((with_reducible apply within_of); rfl) | with_reducible (first | exact Keeps.refl | apply State.buildStart_keeps | apply Keeps.ite | apply Keeps.foldl | apply Keeps.forAll | apply Keeps.foldlPair | intro _ _) | split | dsimp only [refuse, okS, okB, okParts])

theorem serveSessionAuthorise_keeps {T r x0 s} (w : within [.clk, .par, .host, .pts, .led, .plc] T = true) (h : Keeps T r s) : Keeps T r (serveSessionAuthorise x0 s).st := by
  refine Keeps.then (A := [.clk, .par, .host, .pts, .led, .plc]) ?_ w h
  clear w h
  unfold serveSessionAuthorise onSession okB refuse
  repeat' (first | ((with_reducible apply within_of); rfl) | with_reducible (first | exact Keeps.refl | apply State.authorise_keeps | apply State.modOut_keeps | apply Keeps.ite | apply Keeps.foldl | apply Keeps.forAll | apply Keeps.foldlPair | intro _ _) | split | dsimp only [refuse, okS, okB, okParts])

theorem execSessionAuthorise_keeps {x0 x1 s} : KeepsO [.clk, .par, .host, .pts, .led, .plc] s (execSessionAuthorise x0 x1 s) := hostCmd_keeps (A := [.clk, .par, .host, .pts, .led, .plc]) (fun _ _ => serveSessionAuthorise_keeps rfl Keeps.refl) rfl rfl

theorem State.applyModify_keeps {T r s x1} (w : within [.pts] T = true) (h : Keeps T r s) : Keeps T r (State.applyModify s x1) := by
  refine Keeps.then (A := [.pts]) ?_ w h
  clear w h
  unfold State.applyModify
  repeat' (first | ((with_reducible apply within_of); rfl) | with_reducible (first | exact Keeps.refl | apply State.modSes_keeps | apply Keeps.ite | apply Keeps.foldl | apply Keeps.forAll | apply Keeps.foldlPair | intro _ _) | split | dsimp only [refuse, okS, okB, okParts])

theorem execStartTimeout_keeps {x0 x1 s} : KeepsO [.clk, .host, .pts] s (execStartTimeout x0 x1 s) := by
  unfold execStartTimeout
  repeat' (first | ((with_reducible apply within_of); rfl) | with_reducible (first | exact Keeps.refl | apply State.at_keeps | apply State.backToIdle_keeps | apply KeepsO.next | exact KeepsO.fault | apply KeepsO.ite | apply Keeps.ite | apply Keeps.foldl | apply Keeps.forAll | apply Keeps.foldlPair | intro _ _) | split | dsimp only [refuse, okS, okB, okParts])

theorem serveSessionCancel_keeps {T r x0 s} (w : within [.host, .pts] T = true) (h : Keeps T r s) : Keeps T r (serveSessionCancel x0 s).st := by
  refine Keeps.then (A := [.host, .pts]) ?_ w h
  clear w h
  unfold serveSessionCancel onSession1 okS refuse onSession
  repeat' (first | ((with_reducible apply within_of); rfl) | with_reducible (first | exact Keeps.refl | apply State.backToIdle_keeps | apply Keeps.ite | apply Keeps.foldl | apply Keeps.forAll | apply Keeps.foldlPair | intro _ _) | split | dsimp only [refuse, okS, okB, okParts])

theorem execSessionCancel_keeps {x0 x1 s} : KeepsO [.clk, .host, .pts] s (execSessionCancel x0 x1 s) := hostCmd_keeps (A := [.host, .pts]) (fun _ _ => serveSessionCancel_keeps rfl Keeps.refl) rfl rfl

theorem execSessionStatus_keeps {x0 x1 s} : KeepsO [.clk, .host] s (execSessionStatus x0 x1 s) := hostCmd_keeps (A := []) (fun _ _ => serveSessionStatus_keeps rfl Keeps.refl) rfl rfl

theorem serveSessionModify_keeps {T r x0 s} (w : within [.pts] T = true) (h : Keeps T r s) : Keeps T r (serveSessionModify x0 s).st := by
  refine Keeps.then (A := [.pts]) ?_ w h
  clear w h
  unfold serveSessionModify onSession okS refuse
  repeat' (first | ((with_reducible apply within_of); rfl) | with_reducible (first | exact Keeps.refl | apply State.modSes_keeps | apply Keeps.ite | apply Keeps.foldl | apply Keeps.forAll | apply Keeps.foldlPair | intro _ _) | split | dsimp only [refuse, okS, okB, okParts])

theorem serveSessionReject_keeps {T r x0 s} (w : within [.host, .pts] T = true) (h : Keeps T r s) : Keeps T r (serveSessionReject x0 s).st := by
  refine Keeps.then (A := [.host, .pts]) ?_ w h
  clear w h
  unfold serveSessionReject onSession1 okS refuse onSession
  repeat' (first | ((with_reducible apply within_of); rfl) | with_reducible (first | exact Keeps.refl | apply State.backToIdle_keeps | apply Keeps.ite | apply Keeps.foldl | apply Keeps.forAll | apply Keeps.foldlPair | intro _ _) | split | dsimp only [refuse, okS, okB, okParts])

theorem serveSessionRequest_keeps {T r x0 s} (w : within [.host, .pts] T = true) (h : Keeps T r s) : Keeps T r (serveSessionRequest x0 s).st := by
  refine Keeps.then (A := [.host, .pts]) ?_ w h
  clear w h
  unfold serveSessionRequest onSession1 okS refuse onSession
  repeat' (first | ((with_reducible apply within_of); rfl) | with_reducible (first | exact Keeps.refl | apply State.enterState_keeps | apply Keeps.ite | apply Keeps.foldl | apply Keeps.forAll | apply Keeps.foldlPair | intro _ _) | split | dsimp only [refuse, okS, okB, okParts])

theorem serveSessionRevoke_keeps {T r x0 s} (w : within [.pts] T = true) (h : Keeps T r s) : Keeps T r (serveSessionRevoke x0 s).st := by
  refine Keeps.then (A := [.pts]) ?_ w h
  clear w h
  unfold serveSessionRevoke onSession1 okS refuse onSession
  repeat' (first | ((with_reducible apply within_of); rfl) | with_reducible (first | exact Keeps.refl | apply State.addCause_keeps | apply Keeps.ite | apply Keeps.foldl | apply Keeps.forAll | apply Keeps.foldlPair | intro _ _) | split | dsimp only [refuse, okS, okB, okParts])

theorem serveSessionStop_keeps {T r x0 s} (w : within [.pts] T = true) (h : Keeps T r s) : Keeps T r (serveSessionStop x0 s).st := by
  refine Keeps.then (A := [.pts]) ?_ w h
  clear w h
  unfold serveSessionStop onSession1 okS refuse onSession
  repeat' (first | ((with_reducible apply within_of); rfl) | with_reducible (first | exact Keeps.refl | apply State.addCause_keeps | apply Keeps.ite | apply Keeps.foldl | apply Keeps.forAll | apply Keeps.foldlPair | intro _ _) | split | dsimp only [refuse, okS, okB, okParts])

theorem State.sessionFrameEnd_keeps {T r s x1 x2 x3 x4 x5} (w : within [.host, .pts, .recs, .led] T = true) (h : Keeps T r s) : Keeps T r (State.sessionFrameEnd s x1 x2 x3 x4 x5) := by
  refine Keeps.then (A := [.host, .pts, .recs, .led]) ?_ w h
  clear w h
  unfold State.sessionFrameEnd
  repeat' (first | ((with_reducible apply within_of); rfl) | with_reducible (first | exact Keeps.refl | apply State.buildEnd_keeps | apply State.modPt_keeps | apply Keeps.ite | apply Keeps.foldl | apply Keeps.forAll | apply Keeps.foldlPair | intro _ _) | split | dsimp only [refuse, okS, okB, okParts])

theorem execFaultAcknowledge_keeps {x0 x1 s} : KeepsO [.clk, .host, .slices, .pts, .sw, .sar] s (execFaultAcknowledge x0 x1 s) := hostCmd_keeps (A := [.host, .slices, .pts, .sw, .sar]) (fun _ _ => serveFaultAcknowledge_keeps rfl Keeps.refl) rfl rfl

theorem execSessionRevoke_keeps {x0 x1 s} : KeepsO [.clk, .host, .pts] s (execSessionRevoke x0 x1 s) := hostCmd_keeps (A := [.pts]) (fun _ _ => serveSessionRevoke_keeps rfl Keeps.refl) rfl rfl

theorem execSessionRequest_keeps {x0 x1 s} : KeepsO [.clk, .host, .pts] s (execSessionRequest x0 x1 s) := hostCmd_keeps (A := [.host, .pts]) (fun _ _ => serveSessionRequest_keeps rfl Keeps.refl) rfl rfl

theorem execStopGraceExpiry_keeps {x0 x1 s} : KeepsO [.clk, .pts, .sw] s (execStopGraceExpiry x0 x1 s) := by
  unfold execStopGraceExpiry
  repeat' (first | ((with_reducible apply within_of); rfl) | with_reducible (first | exact Keeps.refl | apply State.at_keeps | apply State.stopOff_keeps | apply KeepsO.next | exact KeepsO.fault | apply KeepsO.ite | apply Keeps.ite | apply Keeps.foldl | apply Keeps.forAll | apply Keeps.foldlPair | intro _ _) | split | dsimp only [refuse, okS, okB, okParts])

theorem execSessionModify_keeps {x0 x1 s} : KeepsO [.clk, .host, .pts] s (execSessionModify x0 x1 s) := hostCmd_keeps (A := [.pts]) (fun _ _ => serveSessionModify_keeps rfl Keeps.refl) rfl rfl

theorem execSessionReject_keeps {x0 x1 s} : KeepsO [.clk, .host, .pts] s (execSessionReject x0 x1 s) := hostCmd_keeps (A := [.host, .pts]) (fun _ _ => serveSessionReject_keeps rfl Keeps.refl) rfl rfl

theorem execSessionStop_keeps {x0 x1 s} : KeepsO [.clk, .host, .pts] s (execSessionStop x0 x1 s) := hostCmd_keeps (A := [.pts]) (fun _ _ => serveSessionStop_keeps rfl Keeps.refl) rfl rfl

end Sys2Proof.Machine
end

