-- ==== Sys2Proof/Laws/KeepsAccumulate.lean ====
section
/-!
SUPPORT. Which parts of the state each operation of Machine/Accumulate.lean leaves as they are.
-/

namespace Sys2Proof.Machine

theorem State.writeBank_keeps {T r s x1} (w : within [.led, .pwr] T = true) (h : Keeps T r s) : Keeps T r (State.writeBank s x1) := by
  refine Keeps.then (A := [.led, .pwr]) ?_ w h
  clear w h
  unfold State.writeBank
  repeat' (first | ((with_reducible apply within_of); rfl) | with_reducible (first | exact Keeps.refl | apply State.modLed_keeps | apply State.modPwr_keeps | apply Keeps.ite | apply Keeps.foldl | apply Keeps.forAll | apply Keeps.foldlPair | intro _ _) | split | dsimp only [refuse, okS, okB, okParts])

theorem State.afterFrame_keeps {T r s x1} (w : within [.host, .pts, .sw] T = true) (h : Keeps T r s) : Keeps T r (State.afterFrame s x1) := by
  refine Keeps.then (A := [.host, .pts, .sw]) ?_ w h
  clear w h
  unfold State.afterFrame
  repeat' (first | ((with_reducible apply within_of); rfl) | with_reducible (first | exact Keeps.refl | apply State.noteWeld_keeps | apply State.reportTrip_keeps | apply State.sessionDecide_keeps | apply Keeps.ite | apply Keeps.foldl | apply Keeps.forAll | apply Keeps.foldlPair | intro _ _) | split | dsimp only [refuse, okS, okB, okParts])

theorem State.rollover_keeps {T r s x1 x2 x3 x4 x5} (w : within [.host] T = true) (h : Keeps T r s) : Keeps T r (State.rollover s x1 x2 x3 x4 x5) := by
  refine Keeps.then (A := [.host]) ?_ w h
  clear w h
  unfold State.rollover
  repeat' (first | ((with_reducible apply within_of); rfl) | with_reducible (first | exact Keeps.refl | apply State.raiseRaw_keeps | apply Keeps.ite | apply Keeps.foldl | apply Keeps.forAll | apply Keeps.foldlPair | intro _ _) | split | dsimp only [refuse, okS, okB, okParts])

theorem State.addReg_keeps {T r s x1 x2 x3 x4} (w : within [.host, .pts] T = true) (h : Keeps T r s) : Keeps T r (State.addReg s x1 x2 x3 x4) := by
  refine Keeps.then (A := [.host, .pts]) ?_ w h
  clear w h
  unfold State.addReg
  repeat' (first | ((with_reducible apply within_of); rfl) | with_reducible (first | exact Keeps.refl | apply State.buildEvent_keeps | apply State.modPt_keeps | apply State.rollover_keeps | apply Keeps.ite | apply Keeps.foldl | apply Keeps.forAll | apply Keeps.foldlPair | intro _ _) | split | dsimp only [refuse, okS, okB, okParts])

theorem State.addQuantities_keeps {T r s x1 x2 x3} (w : within [.host, .pts] T = true) (h : Keeps T r s) : Keeps T r (State.addQuantities s x1 x2 x3) := by
  refine Keeps.then (A := [.host, .pts]) ?_ w h
  clear w h
  unfold State.addQuantities
  repeat' (first | ((with_reducible apply within_of); rfl) | with_reducible (first | exact Keeps.refl | apply State.addReg_keeps | apply Keeps.ite | apply Keeps.foldl | apply Keeps.forAll | apply Keeps.foldlPair | intro _ _) | split | dsimp only [refuse, okS, okB, okParts])

theorem State.completeEntry_keeps {T r s x1} (w : within [.pts, .led] T = true) (h : Keeps T r s) : Keeps T r (State.completeEntry s x1) := by
  refine Keeps.then (A := [.pts, .led]) ?_ w h
  clear w h
  unfold State.completeEntry
  repeat' (first | ((with_reducible apply within_of); rfl) | with_reducible (first | exact Keeps.refl | apply State.modLed_keeps | apply State.modPts_keeps | apply Keeps.ite | apply Keeps.foldl | apply Keeps.forAll | apply Keeps.foldlPair | intro _ _) | split | dsimp only [refuse, okS, okB, okParts])

theorem State.saveLedger_keeps {T r s x1 x2} (w : within [.pts, .led] T = true) (h : Keeps T r s) : Keeps T r (State.saveLedger s x1 x2) := by
  refine Keeps.then (A := [.pts, .led]) ?_ w h
  clear w h
  unfold State.saveLedger
  repeat' (first | ((with_reducible apply within_of); rfl) | with_reducible (first | exact Keeps.refl | apply State.modLed_keeps | apply State.modPts_keeps | apply Keeps.ite | apply Keeps.foldl | apply Keeps.forAll | apply Keeps.foldlPair | intro _ _) | split | dsimp only [refuse, okS, okB, okParts])

theorem State.nodeFrame_keeps {T r s x1} (w : within [.recs] T = true) (h : Keeps T r s) : Keeps T r (State.nodeFrame s x1) := by
  refine Keeps.then (A := [.recs]) ?_ w h
  clear w h
  unfold State.nodeFrame
  repeat' (first | ((with_reducible apply within_of); rfl) | with_reducible (first | exact Keeps.refl | apply State.joinDue_keeps | apply State.modRecs_keeps | apply Keeps.ite | apply Keeps.foldl | apply Keeps.forAll | apply Keeps.foldlPair | intro _ _) | split | dsimp only [refuse, okS, okB, okParts])

theorem State.addPoint_keeps {T r s x1 x2} (w : within [.host, .pts, .recs, .led] T = true) (h : Keeps T r s) : Keeps T r (State.addPoint s x1 x2) := by
  refine Keeps.then (A := [.host, .pts, .recs, .led]) ?_ w h
  clear w h
  unfold State.addPoint
  repeat' (first | ((with_reducible apply within_of); rfl) | with_reducible (first | exact Keeps.refl | apply State.addCause_keeps | apply State.addQuantities_keeps | apply State.buildLate_keeps | apply State.joinRecords_keeps | apply State.modPt_keeps | apply State.sessionFrameEnd_keeps | apply State.sessionFrameStart_keeps | apply Keeps.ite | apply Keeps.foldl | apply Keeps.forAll | apply Keeps.foldlPair | intro _ _) | split | dsimp only [refuse, okS, okB, okParts])

theorem State.addPulses_keeps {T r s x1 x2} (w : within [.pts] T = true) (h : Keeps T r s) : Keeps T r (State.addPulses s x1 x2) := by
  refine Keeps.then (A := [.pts]) ?_ w h
  clear w h
  unfold State.addPulses
  repeat' (first | ((with_reducible apply within_of); rfl) | with_reducible (first | exact Keeps.refl | apply State.mpoFrame_keeps | apply Keeps.ite | apply Keeps.foldl | apply Keeps.forAll | apply Keeps.foldlPair | intro _ _) | split | dsimp only [refuse, okS, okB, okParts])

theorem State.warningEvent_keeps {T r s x1 x2 x3} (w : within [.host] T = true) (h : Keeps T r s) : Keeps T r (State.warningEvent s x1 x2 x3) := by
  refine Keeps.then (A := [.host]) ?_ w h
  clear w h
  unfold State.warningEvent
  repeat' (first | ((with_reducible apply within_of); rfl) | with_reducible (first | exact Keeps.refl | apply State.raise_keeps | apply Keeps.ite | apply Keeps.foldl | apply Keeps.forAll | apply Keeps.foldlPair | intro _ _) | split | dsimp only [refuse, okS, okB, okParts])

theorem State.holdup_keeps {T r s x1} (w : within [.host, .pts, .led, .pwr] T = true) (h : Keeps T r s) : Keeps T r (State.holdup s x1) := by
  refine Keeps.then (A := [.host, .pts, .led, .pwr]) ?_ w h
  clear w h
  unfold State.holdup
  repeat' (first | ((with_reducible apply within_of); rfl) | with_reducible (first | exact Keeps.refl | apply State.modLed_keeps | apply State.saveLedger_keeps | apply State.warningEvent_keeps | apply State.writeBank_keeps | apply Keeps.ite | apply Keeps.foldl | apply Keeps.forAll | apply Keeps.foldlPair | intro _ _) | split | dsimp only [refuse, okS, okB, okParts])

theorem State.parityEvent_keeps {T r s x1 x2} (w : within [.host] T = true) (h : Keeps T r s) : Keeps T r (State.parityEvent s x1 x2) := by
  refine Keeps.then (A := [.host]) ?_ w h
  clear w h
  unfold State.parityEvent
  repeat' (first | ((with_reducible apply within_of); rfl) | with_reducible (first | exact Keeps.refl | apply State.raise_keeps | apply Keeps.ite | apply Keeps.foldl | apply Keeps.forAll | apply Keeps.foldlPair | intro _ _) | split | dsimp only [refuse, okS, okB, okParts])

theorem State.accumulate_keeps {T r s x1} (w : within [.host, .slices, .eng, .pts, .recs, .led, .sw, .saf, .ring, .sar, .pwr] T = true) (h : Keeps T r s) : Keeps T r (State.accumulate s x1) := by
  refine Keeps.then (A := [.host, .slices, .eng, .pts, .recs, .led, .sw, .saf, .ring, .sar, .pwr]) ?_ w h
  clear w h
  unfold State.accumulate
  repeat' (first | ((with_reducible apply within_of); rfl) | with_reducible (first | exact Keeps.refl | apply State.addPoint_keeps | apply State.addPulses_keeps | apply State.afterFrame_keeps | apply State.holdup_keeps | apply State.idleSwitches_keeps | apply State.modEng_keeps | apply State.nodeFrame_keeps | apply State.parityEvent_keeps | apply State.reapplyAll_keeps | apply State.seeFailsafe_keeps | apply State.settleOwnStop_keeps | apply State.startWaitingTests_keeps | apply Keeps.ite | apply Keeps.foldl | apply Keeps.forAll | apply Keeps.foldlPair | intro _ _) | split | dsimp only [refuse, okS, okB, okParts])

theorem execFrameAccumulate_keeps {x0 s} : KeepsO [.clk, .host, .slices, .eng, .pts, .recs, .led, .sw, .saf, .ring, .sar, .pwr] s (execFrameAccumulate x0 s) := by
  unfold execFrameAccumulate
  repeat' (first | ((with_reducible apply within_of); rfl) | with_reducible (first | exact Keeps.refl | apply State.accumulate_keeps | apply State.at_keeps | apply State.modEng_keeps | apply KeepsO.next | exact KeepsO.fault | apply KeepsO.ite | apply Keeps.ite | apply Keeps.foldl | apply Keeps.forAll | apply Keeps.foldlPair | intro _ _) | split | dsimp only [refuse, okS, okB, okParts])

end Sys2Proof.Machine
end

