-- ==== Sys2Proof/Laws/KeepsChain.lean ====
section
/-!
SUPPORT. Which parts of the state each operation of Machine/Chain.lean leaves as they are.
-/

namespace Sys2Proof.Machine

theorem State.ripened_keeps {T r s} (w : within [.par] T = true) (h : Keeps T r s) : Keeps T r (State.ripened s) := by
  refine Keeps.then (A := [.par]) ?_ w h
  clear w h
  unfold State.ripened
  repeat' (first | ((with_reducible apply within_of); rfl) | with_reducible (first | exact Keeps.refl | apply State.modPar_keeps | apply Keeps.ite | apply Keeps.foldl | apply Keeps.forAll | apply Keeps.foldlPair | intro _ _) | split | dsimp only [refuse, okS, okB, okParts])

theorem State.courseEvent_keeps {T r s x1 x2} (w : within [.host] T = true) (h : Keeps T r s) : Keeps T r (State.courseEvent s x1 x2) := by
  refine Keeps.then (A := [.host]) ?_ w h
  clear w h
  unfold State.courseEvent
  repeat' (first | ((with_reducible apply within_of); rfl) | with_reducible (first | exact Keeps.refl | apply State.raiseRaw_keeps | apply Keeps.ite | apply Keeps.foldl | apply Keeps.forAll | apply Keeps.foldlPair | intro _ _) | split | dsimp only [refuse, okS, okB, okParts])

theorem State.clipEvent_keeps {T r s x1 x2 x3 x4 x5} (w : within [.host, .slices] T = true) (h : Keeps T r s) : Keeps T r (State.clipEvent s x1 x2 x3 x4 x5) := by
  refine Keeps.then (A := [.host, .slices]) ?_ w h
  clear w h
  unfold State.clipEvent
  repeat' (first | ((with_reducible apply within_of); rfl) | with_reducible (first | exact Keeps.refl | apply State.modSlice_keeps | apply State.raise_keeps | apply Keeps.ite | apply Keeps.foldl | apply Keeps.forAll | apply Keeps.foldlPair | intro _ _) | split | dsimp only [refuse, okS, okB, okParts])

theorem State.channelChecks_keeps {T r s x1 x2 x3} (w : within [.host, .slices] T = true) (h : Keeps T r s) : Keeps T r (State.channelChecks s x1 x2 x3) := by
  refine Keeps.then (A := [.host, .slices]) ?_ w h
  clear w h
  unfold State.channelChecks
  repeat' (first | ((with_reducible apply within_of); rfl) | with_reducible (first | exact Keeps.refl | apply State.clipEvent_keeps | apply State.modSlice_keeps | apply Keeps.ite | apply Keeps.foldl | apply Keeps.forAll | apply Keeps.foldlPair | intro _ _) | split | dsimp only [refuse, okS, okB, okParts])

theorem State.crossCheck_keeps {T r s x1 x2} (w : within [.host, .courses, .eng] T = true) (h : Keeps T r s) : Keeps T r (State.crossCheck s x1 x2) := by
  refine Keeps.then (A := [.host, .courses, .eng]) ?_ w h
  clear w h
  unfold State.crossCheck
  repeat' (first | ((with_reducible apply within_of); rfl) | with_reducible (first | exact Keeps.refl | apply State.courseEvent_keeps | apply State.modCourse_keeps | apply State.modEng_keeps | apply Keeps.ite | apply Keeps.foldl | apply Keeps.forAll | apply Keeps.foldlPair | intro _ _) | split | dsimp only [refuse, okS, okB, okParts])

theorem State.hardware_keeps {T r s x1 x2} (w : within [.slices] T = true) (h : Keeps T r s) : Keeps T r (State.hardware s x1 x2) := by
  refine Keeps.then (A := [.slices]) ?_ w h
  clear w h
  unfold State.hardware
  repeat' (first | ((with_reducible apply within_of); rfl) | with_reducible (first | exact Keeps.refl | apply State.modSlices_keeps | apply Keeps.ite | apply Keeps.foldl | apply Keeps.forAll | apply Keeps.foldlPair | intro _ _) | split | dsimp only [refuse, okS, okB, okParts])

end Sys2Proof.Machine
end

