-- ==== Sys2Proof/Laws/KeepsTimeKeep.lean ====
section
/-!
SUPPORT. Which parts of the state each operation of Machine/TimeKeep.lean leaves as they are.
-/

namespace Sys2Proof.Machine

theorem State.modTci_keeps {T r s x1 x2} (w : within [.servo] T = true) (h : Keeps T r s) : Keeps T r (State.modTci s x1 x2) := by
  refine Keeps.then (A := [.servo]) ?_ w h
  clear w h
  unfold State.modTci
  repeat' (first | ((with_reducible apply within_of); rfl) | with_reducible (first | exact Keeps.refl | apply State.modServo_keeps | apply Keeps.ite | apply Keeps.foldl | apply Keeps.forAll | apply Keeps.foldlPair | intro _ _) | split | dsimp only [refuse, okS, okB, okParts])

theorem serveTciRead_keeps {T r x0 s} (w : within [.servo, .host] T = true) (h : Keeps T r s) : Keeps T r (serveTciRead x0 s).st := by
  refine Keeps.then (A := [.servo, .host]) ?_ w h
  clear w h
  unfold serveTciRead okB refuse
  repeat' (first | ((with_reducible apply within_of); rfl) | with_reducible (first | exact Keeps.refl | apply State.modTci_keeps | apply State.raise_keeps | apply Keeps.ite | apply Keeps.foldl | apply Keeps.forAll | apply Keeps.foldlPair | intro _ _) | split | dsimp only [refuse, okS, okB, okParts])

theorem execTciRead_keeps {x0 x1 s} : KeepsO [.clk, .servo, .host] s (execTciRead x0 x1 s) := hostCmd_keeps (A := [.servo, .host]) (fun _ _ => serveTciRead_keeps rfl Keeps.refl) rfl rfl

theorem State.timeEvent_keeps {T r s x1 x2 x3 x4 x5 x6 x7 x8} (w : within [.host] T = true) (h : Keeps T r s) : Keeps T r (State.timeEvent s x1 x2 x3 x4 x5 x6 x7 x8) := by
  refine Keeps.then (A := [.host]) ?_ w h
  clear w h
  unfold State.timeEvent
  repeat' (first | ((with_reducible apply within_of); rfl) | with_reducible (first | exact Keeps.refl | apply State.raiseRaw_keeps | apply Keeps.ite | apply Keeps.foldl | apply Keeps.forAll | apply Keeps.foldlPair | intro _ _) | split | dsimp only [refuse, okS, okB, okParts])

theorem State.enterHoldover_keeps {T r s} (w : within [.clk, .servo, .host, .ring] T = true) (h : Keeps T r s) : Keeps T r (State.enterHoldover s) := by
  refine Keeps.then (A := [.clk, .servo, .host, .ring]) ?_ w h
  clear w h
  unfold State.enterHoldover
  repeat' (first | ((with_reducible apply within_of); rfl) | with_reducible (first | exact Keeps.refl | apply State.bump_keeps | apply State.modServo_keeps | apply State.queueFault_keeps | apply State.timeEvent_keeps | apply Keeps.ite | apply Keeps.foldl | apply Keeps.forAll | apply Keeps.foldlPair | intro _ _) | split | dsimp only [refuse, okS, okB, okParts])

theorem State.loseSource_keeps {T r s x1} (w : within [.clk, .servo, .host, .ring] T = true) (h : Keeps T r s) : Keeps T r (State.loseSource s x1) := by
  refine Keeps.then (A := [.clk, .servo, .host, .ring]) ?_ w h
  clear w h
  unfold State.loseSource
  repeat' (first | ((with_reducible apply within_of); rfl) | with_reducible (first | exact Keeps.refl | apply State.enterHoldover_keeps | apply Keeps.ite | apply Keeps.foldl | apply Keeps.forAll | apply Keeps.foldlPair | intro _ _) | split | dsimp only [refuse, okS, okB, okParts])

theorem State.linkDetail_keeps {T r s x1 x2} (w : within [.host] T = true) (h : Keeps T r s) : Keeps T r (State.linkDetail s x1 x2) := by
  refine Keeps.then (A := [.host]) ?_ w h
  clear w h
  unfold State.linkDetail
  repeat' (first | ((with_reducible apply within_of); rfl) | with_reducible (first | exact Keeps.refl | apply State.raiseMid_keeps | apply Keeps.ite | apply Keeps.foldl | apply Keeps.forAll | apply Keeps.foldlPair | intro _ _) | split | dsimp only [refuse, okS, okB, okParts])

theorem State.neighbourEvent_keeps {T r s x1 x2 x3 x4 x5 x6} (w : within [.host] T = true) (h : Keeps T r s) : Keeps T r (State.neighbourEvent s x1 x2 x3 x4 x5 x6) := by
  refine Keeps.then (A := [.host]) ?_ w h
  clear w h
  unfold State.neighbourEvent
  repeat' (first | ((with_reducible apply within_of); rfl) | with_reducible (first | exact Keeps.refl | apply State.linkDetail_keeps | apply Keeps.ite | apply Keeps.foldl | apply Keeps.forAll | apply Keeps.foldlPair | intro _ _) | split | dsimp only [refuse, okS, okB, okParts])

theorem serveTciSet_keeps {T r x0 s} (w : within [.servo] T = true) (h : Keeps T r s) : Keeps T r (serveTciSet x0 s).st := by
  refine Keeps.then (A := [.servo]) ?_ w h
  clear w h
  unfold serveTciSet okS refuse
  repeat' (first | ((with_reducible apply within_of); rfl) | with_reducible (first | exact Keeps.refl | apply State.modTci_keeps | apply Keeps.ite | apply Keeps.foldl | apply Keeps.forAll | apply Keeps.foldlPair | intro _ _) | split | dsimp only [refuse, okS, okB, okParts])

theorem serveTimeAccept_keeps {T r x0 x1 s} (w : within [.servo, .host, .log] T = true) (h : Keeps T r s) : Keeps T r (serveTimeAccept x0 x1 s).st := by
  refine Keeps.then (A := [.servo, .host, .log]) ?_ w h
  clear w h
  unfold serveTimeAccept withLog okS refuse
  repeat' (first | ((with_reducible apply within_of); rfl) | with_reducible (first | exact Keeps.refl | apply State.enterHost_keeps | apply State.logRefused_keeps | apply State.modServo_keeps | apply Keeps.ite | apply Keeps.foldl | apply Keeps.forAll | apply Keeps.foldlPair | intro _ _) | split | dsimp only [refuse, okS, okB, okParts])

theorem serveTimeStatus_keeps {T r x0 s} (w : within [] T = true) (h : Keeps T r s) : Keeps T r (serveTimeStatus x0 s).st := by
  refine Keeps.then (A := []) ?_ w h
  clear w h
  unfold serveTimeStatus noPayload okB
  repeat' (first | ((with_reducible apply within_of); rfl) | with_reducible (first | exact Keeps.refl | apply Keeps.ite | apply Keeps.foldl | apply Keeps.forAll | apply Keeps.foldlPair | intro _ _) | split | dsimp only [refuse, okS, okB, okParts])

theorem State.modTto_keeps {T r s x1 x2} (w : within [.servo] T = true) (h : Keeps T r s) : Keeps T r (State.modTto s x1 x2) := by
  refine Keeps.then (A := [.servo]) ?_ w h
  clear w h
  unfold State.modTto
  repeat' (first | ((with_reducible apply within_of); rfl) | with_reducible (first | exact Keeps.refl | apply State.modServo_keeps | apply Keeps.ite | apply Keeps.foldl | apply Keeps.forAll | apply Keeps.foldlPair | intro _ _) | split | dsimp only [refuse, okS, okB, okParts])

theorem serveTtoSet_keeps {T r x0 s} (w : within [.servo] T = true) (h : Keeps T r s) : Keeps T r (serveTtoSet x0 s).st := by
  refine Keeps.then (A := [.servo]) ?_ w h
  clear w h
  unfold serveTtoSet okS refuse
  repeat' (first | ((with_reducible apply within_of); rfl) | with_reducible (first | exact Keeps.refl | apply State.modTto_keeps | apply Keeps.ite | apply Keeps.foldl | apply Keeps.forAll | apply Keeps.foldlPair | intro _ _) | split | dsimp only [refuse, okS, okB, okParts])

theorem State.noteTx_keeps {T r s x1} (w : within [.servo] T = true) (h : Keeps T r s) : Keeps T r (State.noteTx s x1) := by
  refine Keeps.then (A := [.servo]) ?_ w h
  clear w h
  unfold State.noteTx
  repeat' (first | ((with_reducible apply within_of); rfl) | with_reducible (first | exact Keeps.refl | apply State.modServo_keeps | apply Keeps.ite | apply Keeps.foldl | apply Keeps.forAll | apply Keeps.foldlPair | intro _ _) | split | dsimp only [refuse, okS, okB, okParts])

theorem State.sendPtp_keeps {T r s x1 x2 x3 x4 x5} (w : within [.servo] T = true) (h : Keeps T r s) : Keeps T r (State.sendPtp s x1 x2 x3 x4 x5) := by
  refine Keeps.then (A := [.servo]) ?_ w h
  clear w h
  unfold State.sendPtp
  repeat' (first | ((with_reducible apply within_of); rfl) | with_reducible (first | exact Keeps.refl | apply State.noteTx_keeps | apply Keeps.ite | apply Keeps.foldl | apply Keeps.forAll | apply Keeps.foldlPair | intro _ _) | split | dsimp only [refuse, okS, okB, okParts])

theorem State.forwardPtp_keeps {T r s x1 x2 x3 x4 x5} (w : within [.clk, .servo] T = true) (h : Keeps T r s) : Keeps T r (State.forwardPtp s x1 x2 x3 x4 x5) := by
  refine Keeps.then (A := [.clk, .servo]) ?_ w h
  clear w h
  unfold State.forwardPtp
  repeat' (first | ((with_reducible apply within_of); rfl) | with_reducible (first | exact Keeps.refl | apply State.bump_keeps | apply State.sendPtp_keeps | apply Keeps.ite | apply Keeps.foldl | apply Keeps.forAll | apply Keeps.foldlPair | intro _ _) | split | dsimp only [refuse, okS, okB, okParts])

theorem State.answerDelay_keeps {T r s x1} (w : within [.clk, .servo] T = true) (h : Keeps T r s) : Keeps T r (State.answerDelay s x1) := by
  refine Keeps.then (A := [.clk, .servo]) ?_ w h
  clear w h
  unfold State.answerDelay
  repeat' (first | ((with_reducible apply within_of); rfl) | with_reducible (first | exact Keeps.refl | apply State.bump_keeps | apply State.forwardPtp_keeps | apply State.sendPtp_keeps | apply Keeps.ite | apply Keeps.foldl | apply Keeps.forAll | apply Keeps.foldlPair | intro _ _) | split | dsimp only [refuse, okS, okB, okParts])

theorem State.ptpDiscard_keeps {T r s x1} (w : within [.servo] T = true) (h : Keeps T r s) : Keeps T r (State.ptpDiscard s x1) := by
  refine Keeps.then (A := [.servo]) ?_ w h
  clear w h
  unfold State.ptpDiscard
  repeat' (first | ((with_reducible apply within_of); rfl) | with_reducible (first | exact Keeps.refl | apply State.modServo_keeps | apply Keeps.ite | apply Keeps.foldl | apply Keeps.forAll | apply Keeps.foldlPair | intro _ _) | split | dsimp only [refuse, okS, okB, okParts])

theorem execPtpDelayMessageReceived_keeps {x0 x1 s} : KeepsO [.clk, .servo] s (execPtpDelayMessageReceived x0 x1 s) := by
  unfold execPtpDelayMessageReceived
  repeat' (first | ((with_reducible apply within_of); rfl) | with_reducible (first | exact Keeps.refl | apply State.answerDelay_keeps | apply State.at_keeps | apply State.modServo_keeps | apply State.ptpDiscard_keeps | apply KeepsO.next | exact KeepsO.fault | apply KeepsO.ite | apply Keeps.ite | apply Keeps.foldl | apply Keeps.forAll | apply Keeps.foldlPair | intro _ _) | split | dsimp only [refuse, okS, okB, okParts])

theorem execTciSet_keeps {x0 x1 s} : KeepsO [.clk, .servo, .host] s (execTciSet x0 x1 s) := hostCmd_keeps (A := [.servo]) (fun _ _ => serveTciSet_keeps rfl Keeps.refl) rfl rfl

theorem State.correct_keeps {T r s x1 x2} (w : within [.servo] T = true) (h : Keeps T r s) : Keeps T r (State.correct s x1 x2) := by
  refine Keeps.then (A := [.servo]) ?_ w h
  clear w h
  unfold State.correct
  repeat' (first | ((with_reducible apply within_of); rfl) | with_reducible (first | exact Keeps.refl | apply State.modServo_keeps | apply Keeps.ite | apply Keeps.foldl | apply Keeps.forAll | apply Keeps.foldlPair | intro _ _) | split | dsimp only [refuse, okS, okB, okParts])

theorem State.refuseJump_keeps {T r s x1 x2 x3 x4 x5} (w : within [.clk, .servo, .host, .ring] T = true) (h : Keeps T r s) : Keeps T r (State.refuseJump s x1 x2 x3 x4 x5) := by
  refine Keeps.then (A := [.clk, .servo, .host, .ring]) ?_ w h
  clear w h
  unfold State.refuseJump
  repeat' (first | ((with_reducible apply within_of); rfl) | with_reducible (first | exact Keeps.refl | apply State.enterHoldover_keeps | apply State.modServo_keeps | apply State.queueFault_keeps | apply State.timeEvent_keeps | apply Keeps.ite | apply Keeps.foldl | apply Keeps.forAll | apply Keeps.foldlPair | intro _ _) | split | dsimp only [refuse, okS, okB, okParts])

theorem State.runsOf_keeps {T r s x1 x2 x3} (w : within [.servo] T = true) (h : Keeps T r s) : Keeps T r (State.runsOf s x1 x2 x3) := by
  refine Keeps.then (A := [.servo]) ?_ w h
  clear w h
  unfold State.runsOf
  repeat' (first | ((with_reducible apply within_of); rfl) | with_reducible (first | exact Keeps.refl | apply State.modServo_keeps | apply Keeps.ite | apply Keeps.foldl | apply Keeps.forAll | apply Keeps.foldlPair | intro _ _) | split | dsimp only [refuse, okS, okB, okParts])

theorem State.jumpTest_keeps {T r s x1 x2 x3 x4 x5} (w : within [.clk, .servo, .host, .ring] T = true) (h : Keeps T r s) : Keeps T r (State.jumpTest s x1 x2 x3 x4 x5).2 := by
  refine Keeps.then (A := [.clk, .servo, .host, .ring]) ?_ w h
  clear w h
  unfold State.jumpTest
  repeat' (first | ((with_reducible apply within_of); rfl) | with_reducible (first | exact Keeps.refl | apply State.modServo_keeps | apply State.refuseJump_keeps | apply State.runsOf_keeps | apply Keeps.ite | apply Keeps.foldl | apply Keeps.forAll | apply Keeps.foldlPair | intro _ _) | split | dsimp only [refuse, okS, okB, okParts])

theorem State.acquire_keeps {T r s x1 x2 x3 x4} (w : within [.servo] T = true) (h : Keeps T r s) : Keeps T r (State.acquire s x1 x2 x3 x4) := by
  refine Keeps.then (A := [.servo]) ?_ w h
  clear w h
  unfold State.acquire
  repeat' (first | ((with_reducible apply within_of); rfl) | with_reducible (first | exact Keeps.refl | apply State.modServo_keeps | apply Keeps.ite | apply Keeps.foldl | apply Keeps.forAll | apply Keeps.foldlPair | intro _ _) | split | dsimp only [refuse, okS, okB, okParts])

theorem State.enterLocked_keeps {T r s x1 x2 x3 x4 x5 x6} (w : within [.servo, .host] T = true) (h : Keeps T r s) : Keeps T r (State.enterLocked s x1 x2 x3 x4 x5 x6) := by
  refine Keeps.then (A := [.servo, .host]) ?_ w h
  clear w h
  unfold State.enterLocked
  repeat' (first | ((with_reducible apply within_of); rfl) | with_reducible (first | exact Keeps.refl | apply State.modServo_keeps | apply State.timeEvent_keeps | apply Keeps.ite | apply Keeps.foldl | apply Keeps.forAll | apply Keeps.foldlPair | intro _ _) | split | dsimp only [refuse, okS, okB, okParts])

theorem State.gather_keeps {T r s x1} (w : within [.servo] T = true) (h : Keeps T r s) : Keeps T r (State.gather s x1) := by
  refine Keeps.then (A := [.servo]) ?_ w h
  clear w h
  unfold State.gather
  repeat' (first | ((with_reducible apply within_of); rfl) | with_reducible (first | exact Keeps.refl | apply State.modServo_keeps | apply Keeps.ite | apply Keeps.foldl | apply Keeps.forAll | apply Keeps.foldlPair | intro _ _) | split | dsimp only [refuse, okS, okB, okParts])

theorem State.mainsOffset_keeps {T r s x1 x2} (w : within [.clk, .servo, .host, .ring] T = true) (h : Keeps T r s) : Keeps T r (State.mainsOffset s x1 x2) := by
  refine Keeps.then (A := [.clk, .servo, .host, .ring]) ?_ w h
  clear w h
  unfold State.mainsOffset
  repeat' (first | ((with_reducible apply within_of); rfl) | with_reducible (first | exact Keeps.refl | apply State.acquire_keeps | apply State.correct_keeps | apply State.enterLocked_keeps | apply State.gather_keeps | apply State.jumpTest_keeps | apply State.modServo_keeps | apply Keeps.ite | apply Keeps.foldl | apply Keeps.forAll | apply Keeps.foldlPair | intro _ _) | split | dsimp only [refuse, okS, okB, okParts])

theorem State.modGrid_keeps {T r s x1 x2} (w : within [.servo] T = true) (h : Keeps T r s) : Keeps T r (State.modGrid s x1 x2) := by
  refine Keeps.then (A := [.servo]) ?_ w h
  clear w h
  unfold State.modGrid
  repeat' (first | ((with_reducible apply within_of); rfl) | with_reducible (first | exact Keeps.refl | apply State.modServo_keeps | apply Keeps.ite | apply Keeps.foldl | apply Keeps.forAll | apply Keeps.foldlPair | intro _ _) | split | dsimp only [refuse, okS, okB, okParts])

theorem State.putNeighbour_keeps {T r s x1} (w : within [.servo] T = true) (h : Keeps T r s) : Keeps T r (State.putNeighbour s x1) := by
  refine Keeps.then (A := [.servo]) ?_ w h
  clear w h
  unfold State.putNeighbour
  repeat' (first | ((with_reducible apply within_of); rfl) | with_reducible (first | exact Keeps.refl | apply State.modServo_keeps | apply Keeps.ite | apply Keeps.foldl | apply Keeps.forAll | apply Keeps.foldlPair | intro _ _) | split | dsimp only [refuse, okS, okB, okParts])

theorem execBeaconReceived_keeps {x0 x1 s} : KeepsO [.clk, .servo, .host, .ring] s (execBeaconReceived x0 x1 s) := by
  unfold execBeaconReceived
  repeat' (first | ((with_reducible apply within_of); rfl) | with_reducible (first | exact Keeps.refl | apply State.at_keeps | apply State.correct_keeps | apply State.jumpTest_keeps | apply State.loseSource_keeps | apply State.mainsOffset_keeps | apply State.modGrid_keeps | apply State.neighbourEvent_keeps | apply State.putNeighbour_keeps | apply KeepsO.next | exact KeepsO.fault | apply KeepsO.ite | apply Keeps.ite | apply Keeps.foldl | apply Keeps.forAll | apply Keeps.foldlPair | intro _ _) | split | dsimp only [refuse, okS, okB, okParts])

theorem State.ptpOffset_keeps {T r s x1} (w : within [.clk, .servo, .host, .ring] T = true) (h : Keeps T r s) : Keeps T r (State.ptpOffset s x1) := by
  refine Keeps.then (A := [.clk, .servo, .host, .ring]) ?_ w h
  clear w h
  unfold State.ptpOffset
  repeat' (first | ((with_reducible apply within_of); rfl) | with_reducible (first | exact Keeps.refl | apply State.correct_keeps | apply State.enterLocked_keeps | apply State.gather_keeps | apply State.jumpTest_keeps | apply State.modServo_keeps | apply Keeps.ite | apply Keeps.foldl | apply Keeps.forAll | apply Keeps.foldlPair | intro _ _) | split | dsimp only [refuse, okS, okB, okParts])

theorem execPtpSyncReceived_keeps {x0 x1 s} : KeepsO [.clk, .servo, .host, .ring] s (execPtpSyncReceived x0 x1 s) := by
  unfold execPtpSyncReceived
  repeat' (first | ((with_reducible apply within_of); rfl) | with_reducible (first | exact Keeps.refl | apply State.at_keeps | apply State.forwardPtp_keeps | apply State.modServo_keeps | apply State.ptpDiscard_keeps | apply State.ptpOffset_keeps | apply KeepsO.next | exact KeepsO.fault | apply KeepsO.ite | apply Keeps.ite | apply Keeps.foldl | apply Keeps.forAll | apply Keeps.foldlPair | intro _ _) | split | dsimp only [refuse, okS, okB, okParts])

theorem execPtpSyncTimeout_keeps {x0 s} : KeepsO [.clk, .servo, .host, .ring] s (execPtpSyncTimeout x0 s) := by
  unfold execPtpSyncTimeout
  repeat' (first | ((with_reducible apply within_of); rfl) | with_reducible (first | exact Keeps.refl | apply State.at_keeps | apply State.loseSource_keeps | apply State.modServo_keeps | apply KeepsO.next | exact KeepsO.fault | apply KeepsO.ite | apply Keeps.ite | apply Keeps.foldl | apply Keeps.forAll | apply Keeps.foldlPair | intro _ _) | split | dsimp only [refuse, okS, okB, okParts])

theorem execTimeAccept_keeps {x0 x1 s} : KeepsO [.clk, .servo, .host, .log] s (execTimeAccept x0 x1 s) := hostCmd_keeps (A := [.servo, .host, .log]) (fun _ _ => serveTimeAccept_keeps rfl Keeps.refl) rfl rfl

theorem State.zcReject_keeps {T r s x1 x2} (w : within [.clk, .servo, .host, .ring] T = true) (h : Keeps T r s) : Keeps T r (State.zcReject s x1 x2) := by
  refine Keeps.then (A := [.clk, .servo, .host, .ring]) ?_ w h
  clear w h
  unfold State.zcReject
  repeat' (first | ((with_reducible apply within_of); rfl) | with_reducible (first | exact Keeps.refl | apply State.loseSource_keeps | apply State.modServo_keeps | apply State.queueFault_keeps | apply State.timeEvent_keeps | apply Keeps.ite | apply Keeps.foldl | apply Keeps.forAll | apply Keeps.foldlPair | intro _ _) | split | dsimp only [refuse, okS, okB, okParts])

theorem State.judgeCrossing_keeps {T r s x1} (w : within [.clk, .servo, .host, .ring] T = true) (h : Keeps T r s) : Keeps T r (State.judgeCrossing s x1) := by
  refine Keeps.then (A := [.clk, .servo, .host, .ring]) ?_ w h
  clear w h
  unfold State.judgeCrossing
  repeat' (first | ((with_reducible apply within_of); rfl) | with_reducible (first | exact Keeps.refl | apply State.modServo_keeps | apply State.zcReject_keeps | apply Keeps.ite | apply Keeps.foldl | apply Keeps.forAll | apply Keeps.foldlPair | intro _ _) | split | dsimp only [refuse, okS, okB, okParts])

theorem execZeroCrossing_keeps {x0 x1 s} : KeepsO [.clk, .servo, .host, .ring] s (execZeroCrossing x0 x1 s) := by
  unfold execZeroCrossing
  repeat' (first | ((with_reducible apply within_of); rfl) | with_reducible (first | exact Keeps.refl | apply State.at_keeps | apply State.judgeCrossing_keeps | apply State.modServo_keeps | apply KeepsO.next | exact KeepsO.fault | apply KeepsO.ite | apply Keeps.ite | apply Keeps.foldl | apply Keeps.forAll | apply Keeps.foldlPair | intro _ _) | split | dsimp only [refuse, okS, okB, okParts])

theorem State.freshPtp_keeps {T r s x1} (w : within [.clk, .servo, .host, .ring] T = true) (h : Keeps T r s) : Keeps T r (State.freshPtp s x1) := by
  refine Keeps.then (A := [.clk, .servo, .host, .ring]) ?_ w h
  clear w h
  unfold State.freshPtp
  repeat' (first | ((with_reducible apply within_of); rfl) | with_reducible (first | exact Keeps.refl | apply State.loseSource_keeps | apply State.modServo_keeps | apply Keeps.ite | apply Keeps.foldl | apply Keeps.forAll | apply Keeps.foldlPair | intro _ _) | split | dsimp only [refuse, okS, okB, okParts])

theorem execPtpRestart_keeps {x0 s} : KeepsO [.clk, .servo, .host, .ring] s (execPtpRestart x0 s) := by
  unfold execPtpRestart
  repeat' (first | ((with_reducible apply within_of); rfl) | with_reducible (first | exact Keeps.refl | apply State.at_keeps | apply State.freshPtp_keeps | apply KeepsO.next | exact KeepsO.fault | apply KeepsO.ite | apply Keeps.ite | apply Keeps.foldl | apply Keeps.forAll | apply Keeps.foldlPair | intro _ _) | split | dsimp only [refuse, okS, okB, okParts])

theorem execBeaconTimeout_keeps {x0 x1 s} : KeepsO [.clk, .servo, .host, .ring] s (execBeaconTimeout x0 x1 s) := by
  unfold execBeaconTimeout
  repeat' (first | ((with_reducible apply within_of); rfl) | with_reducible (first | exact Keeps.refl | apply State.at_keeps | apply State.loseSource_keeps | apply State.modServo_keeps | apply State.neighbourEvent_keeps | apply State.queueFault_keeps | apply KeepsO.next | exact KeepsO.fault | apply KeepsO.ite | apply Keeps.ite | apply Keeps.foldl | apply Keeps.forAll | apply Keeps.foldlPair | intro _ _) | split | dsimp only [refuse, okS, okB, okParts])

theorem execTtoSet_keeps {x0 x1 s} : KeepsO [.clk, .servo, .host] s (execTtoSet x0 x1 s) := hostCmd_keeps (A := [.servo]) (fun _ _ => serveTtoSet_keeps rfl Keeps.refl) rfl rfl

theorem execTciEdge_keeps {x0 x1 x2 x3 s} : KeepsO [.clk, .servo, .host] s (execTciEdge x0 x1 x2 x3 s) := by
  unfold execTciEdge
  repeat' (first | ((with_reducible apply within_of); rfl) | with_reducible (first | exact Keeps.refl | apply State.at_keeps | apply State.modTci_keeps | apply State.raise_keeps | apply KeepsO.next | exact KeepsO.fault | apply KeepsO.ite | apply Keeps.ite | apply Keeps.foldl | apply Keeps.forAll | apply Keeps.foldlPair | intro _ _) | split | dsimp only [refuse, okS, okB, okParts])

theorem execBeaconSlot_keeps {x0 s} : KeepsO [.clk, .servo] s (execBeaconSlot x0 s) := by
  unfold execBeaconSlot
  repeat' (first | ((with_reducible apply within_of); rfl) | with_reducible (first | exact Keeps.refl | apply State.at_keeps | apply State.modServo_keeps | apply KeepsO.next | exact KeepsO.fault | apply KeepsO.ite | apply Keeps.ite | apply Keeps.foldl | apply Keeps.forAll | apply Keeps.foldlPair | intro _ _) | split | dsimp only [refuse, okS, okB, okParts])

theorem State.ttoEvent_keeps {T r s x1 x2 x3} (w : within [.host] T = true) (h : Keeps T r s) : Keeps T r (State.ttoEvent s x1 x2 x3) := by
  refine Keeps.then (A := [.host]) ?_ w h
  clear w h
  unfold State.ttoEvent
  repeat' (first | ((with_reducible apply within_of); rfl) | with_reducible (first | exact Keeps.refl | apply State.raise_keeps | apply Keeps.ite | apply Keeps.foldl | apply Keeps.forAll | apply Keeps.foldlPair | intro _ _) | split | dsimp only [refuse, okS, okB, okParts])

theorem execPtpMessageTransmit_keeps {x0 x1 x2 s} : KeepsO [.clk, .servo] s (execPtpMessageTransmit x0 x1 x2 s) := by
  unfold execPtpMessageTransmit
  repeat' (first | ((with_reducible apply within_of); rfl) | with_reducible (first | exact Keeps.refl | apply State.at_keeps | apply State.modServo_keeps | apply State.sendPtp_keeps | apply KeepsO.next | exact KeepsO.fault | apply KeepsO.ite | apply Keeps.ite | apply Keeps.foldl | apply Keeps.forAll | apply Keeps.foldlPair | intro _ _) | split | dsimp only [refuse, okS, okB, okParts])

theorem State.jumpTo_keeps {T r s x1} (w : within [.clk, .servo, .slices, .eng, .pts, .fw] T = true) (h : Keeps T r s) : Keeps T r (State.jumpTo s x1) := by
  refine Keeps.then (A := [.clk, .servo, .slices, .eng, .pts, .fw]) ?_ w h
  clear w h
  unfold State.jumpTo
  repeat' (first | ((with_reducible apply within_of); rfl) | with_reducible (first | exact Keeps.refl | apply State.modClk_keeps | apply State.modEng_keeps | apply State.modFw_keeps | apply State.modPts_keeps | apply State.modServo_keeps | apply State.modSlices_keeps | apply Keeps.ite | apply Keeps.foldl | apply Keeps.forAll | apply Keeps.foldlPair | intro _ _) | split | dsimp only [refuse, okS, okB, okParts])

theorem execFrameCounterLoad_keeps {x0 s} : KeepsO [.clk, .servo, .slices, .eng, .pts, .fw] s (execFrameCounterLoad x0 s) := by
  unfold execFrameCounterLoad
  repeat' (first | ((with_reducible apply within_of); rfl) | with_reducible (first | exact Keeps.refl | apply State.at_keeps | apply State.jumpTo_keeps | apply State.modClk_keeps | apply State.modServo_keeps | apply KeepsO.next | exact KeepsO.fault | apply KeepsO.ite | apply Keeps.ite | apply Keeps.foldl | apply Keeps.forAll | apply Keeps.foldlPair | intro _ _) | split | dsimp only [refuse, okS, okB, okParts])

theorem execZcPredictionTimeout_keeps {x0 s} : KeepsO [.clk, .servo, .host, .ring] s (execZcPredictionTimeout x0 s) := by
  unfold execZcPredictionTimeout
  repeat' (first | ((with_reducible apply within_of); rfl) | with_reducible (first | exact Keeps.refl | apply State.at_keeps | apply State.zcReject_keeps | apply KeepsO.next | exact KeepsO.fault | apply KeepsO.ite | apply Keeps.ite | apply Keeps.foldl | apply Keeps.forAll | apply Keeps.foldlPair | intro _ _) | split | dsimp only [refuse, okS, okB, okParts])

theorem State.takeUtc_keeps {T r s x1} (w : within [.servo] T = true) (h : Keeps T r s) : Keeps T r (State.takeUtc s x1) := by
  refine Keeps.then (A := [.servo]) ?_ w h
  clear w h
  unfold State.takeUtc
  repeat' (first | ((with_reducible apply within_of); rfl) | with_reducible (first | exact Keeps.refl | apply State.modServo_keeps | apply Keeps.ite | apply Keeps.foldl | apply Keeps.forAll | apply Keeps.foldlPair | intro _ _) | split | dsimp only [refuse, okS, okB, okParts])

theorem State.selectMaster_keeps {T r s x1} (w : within [.servo] T = true) (h : Keeps T r s) : Keeps T r (State.selectMaster s x1) := by
  refine Keeps.then (A := [.servo]) ?_ w h
  clear w h
  unfold State.selectMaster
  repeat' (first | ((with_reducible apply within_of); rfl) | with_reducible (first | exact Keeps.refl | apply State.acquire_keeps | apply State.modServo_keeps | apply State.takeUtc_keeps | apply Keeps.ite | apply Keeps.foldl | apply Keeps.forAll | apply Keeps.foldlPair | intro _ _) | split | dsimp only [refuse, okS, okB, okParts])

theorem execPtpAnnounceTimeout_keeps {x0 s} : KeepsO [.clk, .servo, .host, .ring] s (execPtpAnnounceTimeout x0 s) := by
  unfold execPtpAnnounceTimeout
  repeat' (first | ((with_reducible apply within_of); rfl) | with_reducible (first | exact Keeps.refl | apply State.at_keeps | apply State.loseSource_keeps | apply State.modServo_keeps | apply State.selectMaster_keeps | apply KeepsO.next | exact KeepsO.fault | apply KeepsO.ite | apply Keeps.ite | apply Keeps.foldl | apply Keeps.forAll | apply Keeps.foldlPair | intro _ _) | split | dsimp only [refuse, okS, okB, okParts])

theorem execPtpAnnounceReceived_keeps {x0 x1 s} : KeepsO [.clk, .servo, .host, .ring] s (execPtpAnnounceReceived x0 x1 s) := by
  unfold execPtpAnnounceReceived
  repeat' (first | ((with_reducible apply within_of); rfl) | with_reducible (first | exact Keeps.refl | apply State.at_keeps | apply State.loseSource_keeps | apply State.modServo_keeps | apply State.ptpDiscard_keeps | apply State.selectMaster_keeps | apply KeepsO.next | exact KeepsO.fault | apply KeepsO.ite | apply Keeps.ite | apply Keeps.foldl | apply Keeps.forAll | apply Keeps.foldlPair | intro _ _) | split | dsimp only [refuse, okS, okB, okParts])

theorem execBeaconPeriodStart_keeps {x0 s} : KeepsO [.clk, .servo] s (execBeaconPeriodStart x0 s) := by
  unfold execBeaconPeriodStart
  repeat' (first | ((with_reducible apply within_of); rfl) | with_reducible (first | exact Keeps.refl | apply State.at_keeps | apply State.modServo_keeps | apply KeepsO.next | exact KeepsO.fault | apply KeepsO.ite | apply Keeps.ite | apply Keeps.foldl | apply Keeps.forAll | apply Keeps.foldlPair | intro _ _) | split | dsimp only [refuse, okS, okB, okParts])

theorem execTimeStepApply_keeps {x0 s} : KeepsO [.clk, .servo, .slices, .eng, .pts, .fw] s (execTimeStepApply x0 s) := by
  unfold execTimeStepApply
  repeat' (first | ((with_reducible apply within_of); rfl) | with_reducible (first | exact Keeps.refl | apply State.at_keeps | apply State.jumpTo_keeps | apply State.modClk_keeps | apply State.modServo_keeps | apply KeepsO.next | exact KeepsO.fault | apply KeepsO.ite | apply Keeps.ite | apply Keeps.foldl | apply Keeps.forAll | apply Keeps.foldlPair | intro _ _) | split | dsimp only [refuse, okS, okB, okParts])

theorem execPtpManagementReceived_keeps {x0 x1 s} : KeepsO [.clk, .servo] s (execPtpManagementReceived x0 x1 s) := by
  unfold execPtpManagementReceived
  repeat' (first | ((with_reducible apply within_of); rfl) | with_reducible (first | exact Keeps.refl | apply State.at_keeps | apply State.ptpDiscard_keeps | apply State.sendPtp_keeps | apply KeepsO.next | exact KeepsO.fault | apply KeepsO.ite | apply Keeps.ite | apply Keeps.foldl | apply Keeps.forAll | apply Keeps.foldlPair | intro _ _) | split | dsimp only [refuse, okS, okB, okParts])

theorem execTtoEdge_keeps {x0 x1 s} : KeepsO [.clk, .servo, .host] s (execTtoEdge x0 x1 s) := by
  unfold execTtoEdge
  repeat' (first | ((with_reducible apply within_of); rfl) | with_reducible (first | exact Keeps.refl | apply State.at_keeps | apply State.modTto_keeps | apply State.ttoEvent_keeps | apply KeepsO.next | exact KeepsO.fault | apply KeepsO.ite | apply Keeps.ite | apply Keeps.foldl | apply Keeps.forAll | apply Keeps.foldlPair | intro _ _) | split | dsimp only [refuse, okS, okB, okParts])

theorem execTimeStatus_keeps {x0 x1 s} : KeepsO [.clk, .host] s (execTimeStatus x0 x1 s) := hostCmd_keeps (A := []) (fun _ _ => serveTimeStatus_keeps rfl Keeps.refl) rfl rfl

end Sys2Proof.Machine
end

