-- ==== Sys2Proof/Laws/KeepsFirmware.lean ====
section
/-!
SUPPORT. Which parts of the state each operation of Machine/Firmware.lean leaves as they are.
-/

namespace Sys2Proof.Machine

theorem execStandbyReady_keeps {x0 s} : KeepsO [.clk, .fw] s (execStandbyReady x0 s) := by
  unfold execStandbyReady
  repeat' (first | ((with_reducible apply within_of); rfl) | with_reducible (first | exact Keeps.refl | apply State.at_keeps | apply State.modFw_keeps | apply KeepsO.next | exact KeepsO.fault | apply KeepsO.ite | apply Keeps.ite | apply Keeps.foldl | apply Keeps.forAll | apply Keeps.foldlPair | intro _ _) | split | dsimp only [refuse, okS, okB, okParts])

theorem execFwConfirmTimeout_keeps {x0 s} : KeepsO [.clk, .fw] s (execFwConfirmTimeout x0 s) := by
  unfold execFwConfirmTimeout
  repeat' (first | ((with_reducible apply within_of); rfl) | with_reducible (first | exact Keeps.refl | apply State.at_keeps | apply State.modFw_keeps | apply KeepsO.next | exact KeepsO.fault | apply KeepsO.ite | apply Keeps.ite | apply Keeps.foldl | apply Keeps.forAll | apply Keeps.foldlPair | intro _ _) | split | dsimp only [refuse, okS, okB, okParts])

theorem State.cyclesRefused_keeps {T r s x1 x2} (w : within [.host] T = true) (h : Keeps T r s) : Keeps T r (State.cyclesRefused s x1 x2) := by
  refine Keeps.then (A := [.host]) ?_ w h
  clear w h
  unfold State.cyclesRefused
  repeat' (first | ((with_reducible apply within_of); rfl) | with_reducible (first | exact Keeps.refl | apply State.raise_keeps | apply Keeps.ite | apply Keeps.foldl | apply Keeps.forAll | apply Keeps.foldlPair | intro _ _) | split | dsimp only [refuse, okS, okB, okParts])

theorem State.fwEvent_keeps {T r s x1 x2 x3 x4 x5 x6 x7 x8 x9 x10 x11} (w : within [.host] T = true) (h : Keeps T r s) : Keeps T r (State.fwEvent s x1 x2 x3 x4 x5 x6 x7 x8 x9 x10 x11) := by
  refine Keeps.then (A := [.host]) ?_ w h
  clear w h
  unfold State.fwEvent
  repeat' (first | ((with_reducible apply within_of); rfl) | with_reducible (first | exact Keeps.refl | apply State.raise_keeps | apply Keeps.ite | apply Keeps.foldl | apply Keeps.forAll | apply Keeps.foldlPair | intro _ _) | split | dsimp only [refuse, okS, okB, okParts])

theorem State.swapImages_keeps {T r s x1} (w : within [.clk, .par, .host, .log, .fw] T = true) (h : Keeps T r s) : Keeps T r (State.swapImages s x1) := by
  refine Keeps.then (A := [.clk, .par, .host, .log, .fw]) ?_ w h
  clear w h
  unfold State.swapImages
  repeat' (first | ((with_reducible apply within_of); rfl) | with_reducible (first | exact Keeps.refl | apply State.bump_keeps | apply State.cyclesRefused_keeps | apply State.enterCapo_keeps | apply State.fwEvent_keeps | apply State.modFw_keeps | apply State.modPar_keeps | apply Keeps.ite | apply Keeps.foldl | apply Keeps.forAll | apply Keeps.foldlPair | intro _ _) | split | dsimp only [refuse, okS, okB, okParts])

theorem State.notTaken_keeps {T r s} (w : within [.clk, .host, .fw] T = true) (h : Keeps T r s) : Keeps T r (State.notTaken s) := by
  refine Keeps.then (A := [.clk, .host, .fw]) ?_ w h
  clear w h
  unfold State.notTaken
  repeat' (first | ((with_reducible apply within_of); rfl) | with_reducible (first | exact Keeps.refl | apply State.bump_keeps | apply State.fwEvent_keeps | apply State.modFw_keeps | apply Keeps.ite | apply Keeps.foldl | apply Keeps.forAll | apply Keeps.foldlPair | intro _ _) | split | dsimp only [refuse, okS, okB, okParts])

theorem serveFwVerify_keeps {T r x0 s} (w : within [.fw] T = true) (h : Keeps T r s) : Keeps T r (serveFwVerify x0 s).st := by
  refine Keeps.then (A := [.fw]) ?_ w h
  clear w h
  unfold serveFwVerify noPayload okS refuse
  repeat' (first | ((with_reducible apply within_of); rfl) | with_reducible (first | exact Keeps.refl | apply State.modFw_keeps | apply Keeps.ite | apply Keeps.foldl | apply Keeps.forAll | apply Keeps.foldlPair | intro _ _) | split | dsimp only [refuse, okS, okB, okParts])

theorem State.modSlot_keeps {T r s x1 x2 x3} (w : within [.fw] T = true) (h : Keeps T r s) : Keeps T r (State.modSlot s x1 x2 x3) := by
  refine Keeps.then (A := [.fw]) ?_ w h
  clear w h
  unfold State.modSlot
  repeat' (first | ((with_reducible apply within_of); rfl) | with_reducible (first | exact Keeps.refl | apply State.modFw_keeps | apply Keeps.ite | apply Keeps.foldl | apply Keeps.forAll | apply Keeps.foldlPair | intro _ _) | split | dsimp only [refuse, okS, okB, okParts])

theorem serveFwData_keeps {T r x0 s} (w : within [.host, .fw] T = true) (h : Keeps T r s) : Keeps T r (serveFwData x0 s).st := by
  refine Keeps.then (A := [.host, .fw]) ?_ w h
  clear w h
  unfold serveFwData okS refuse
  repeat' (first | ((with_reducible apply within_of); rfl) | with_reducible (first | exact Keeps.refl | apply State.modFw_keeps | apply State.modSlot_keeps | refine State.writeMram_keeps (fun _ => ?_) ?_ ?_ | apply Keeps.ite | apply Keeps.foldl | apply Keeps.forAll | apply Keeps.foldlPair | intro _ _) | split | dsimp only [refuse, okS, okB, okParts])

theorem serveFwBegin_keeps {T r x0 x1 s} (w : within [.clk, .host, .log, .fw] T = true) (h : Keeps T r s) : Keeps T r (serveFwBegin x0 x1 s).st := by
  refine Keeps.then (A := [.clk, .host, .log, .fw]) ?_ w h
  clear w h
  unfold serveFwBegin withSeal withLog okS refuse
  repeat' (first | ((with_reducible apply within_of); rfl) | with_reducible (first | exact Keeps.refl | apply State.bump_keeps | apply State.enterHost_keeps | apply State.logRefused_keeps | apply State.modFw_keeps | apply Keeps.ite | apply Keeps.foldl | apply Keeps.forAll | apply Keeps.foldlPair | intro _ _) | split | dsimp only [refuse, okS, okB, okParts])

theorem serveFwConfirm_keeps {T r x0 s} (w : within [.par, .fw] T = true) (h : Keeps T r s) : Keeps T r (serveFwConfirm x0 s).st := by
  refine Keeps.then (A := [.par, .fw]) ?_ w h
  clear w h
  unfold serveFwConfirm noPayload okS refuse
  repeat' (first | ((with_reducible apply within_of); rfl) | with_reducible (first | exact Keeps.refl | apply State.modFw_keeps | apply State.modPar_keeps | apply State.modSlot_keeps | apply Keeps.ite | apply Keeps.foldl | apply Keeps.forAll | apply Keeps.foldlPair | intro _ _) | split | dsimp only [refuse, okS, okB, okParts])

theorem serveFwHandover_keeps {T r x0 x1 s} (w : within [.host, .log, .fw, .pwr] T = true) (h : Keeps T r s) : Keeps T r (serveFwHandover x0 x1 s).st := by
  refine Keeps.then (A := [.host, .log, .fw, .pwr]) ?_ w h
  clear w h
  unfold serveFwHandover noPayload withSeal withLog okS refuse
  repeat' (first | ((with_reducible apply within_of); rfl) | with_reducible (first | exact Keeps.refl | apply State.enterCapo_keeps | apply State.enterHost_keeps | apply State.logRefused_keeps | apply State.modFw_keeps | apply State.modHost_keeps | apply State.modPwr_keeps | apply Keeps.ite | apply Keeps.foldl | apply Keeps.forAll | apply Keeps.foldlPair | intro _ _) | split | dsimp only [refuse, okS, okB, okParts])

theorem serveFwStatus_keeps {T r x0 s} (w : within [.clk] T = true) (h : Keeps T r s) : Keeps T r (serveFwStatus x0 s).st := by
  refine Keeps.then (A := [.clk]) ?_ w h
  clear w h
  unfold serveFwStatus noPayload okB
  repeat' (first | ((with_reducible apply within_of); rfl) | with_reducible (first | exact Keeps.refl | apply State.bump_keeps | apply Keeps.ite | apply Keeps.foldl | apply Keeps.forAll | apply Keeps.foldlPair | intro _ _) | split | dsimp only [refuse, okS, okB, okParts])

theorem State.takeOver_keeps {T r s} (w : within [.par, .host, .fw] T = true) (h : Keeps T r s) : Keeps T r (State.takeOver s) := by
  refine Keeps.then (A := [.par, .host, .fw]) ?_ w h
  clear w h
  unfold State.takeOver
  repeat' (first | ((with_reducible apply within_of); rfl) | with_reducible (first | exact Keeps.refl | apply State.fwEvent_keeps | apply State.modFw_keeps | apply State.modHost_keeps | apply State.modPar_keeps | apply Keeps.ite | apply Keeps.foldl | apply Keeps.forAll | apply Keeps.foldlPair | intro _ _) | split | dsimp only [refuse, okS, okB, okParts])

theorem execFwHandover_keeps {x0 x1 s} : KeepsO [.clk, .host, .log, .fw, .pwr] s (execFwHandover x0 x1 s) := hostCmd_keeps (A := [.host, .log, .fw, .pwr]) (fun _ _ => serveFwHandover_keeps rfl Keeps.refl) rfl rfl

theorem execFwStatus_keeps {x0 x1 s} : KeepsO [.clk, .host] s (execFwStatus x0 x1 s) := hostCmd_keeps (A := [.clk]) (fun _ _ => serveFwStatus_keeps rfl Keeps.refl) rfl rfl

theorem State.fallBack_keeps {T r s x1 x2 x3} (w : within [.par, .host, .fw] T = true) (h : Keeps T r s) : Keeps T r (State.fallBack s x1 x2 x3) := by
  refine Keeps.then (A := [.par, .host, .fw]) ?_ w h
  clear w h
  unfold State.fallBack
  repeat' (first | ((with_reducible apply within_of); rfl) | with_reducible (first | exact Keeps.refl | apply State.fwEvent_keeps | apply State.modFw_keeps | apply State.modHost_keeps | apply State.modPar_keeps | apply State.modSlot_keeps | apply Keeps.ite | apply Keeps.foldl | apply Keeps.forAll | apply Keeps.foldlPair | intro _ _) | split | dsimp only [refuse, okS, okB, okParts])

theorem execFwData_keeps {x0 x1 s} : KeepsO [.clk, .host, .fw] s (execFwData x0 x1 s) := hostCmd_keeps (A := [.host, .fw]) (fun _ _ => serveFwData_keeps rfl Keeps.refl) rfl rfl

theorem State.coldService_keeps {T r s} (w : within [.clk, .servo, .par, .host, .pts, .keys, .ring] T = true) (h : Keeps T r s) : Keeps T r (State.coldService s) := by
  refine Keeps.then (A := [.clk, .servo, .par, .host, .pts, .keys, .ring]) ?_ w h
  clear w h
  unfold State.coldService
  repeat' (first | ((with_reducible apply within_of); rfl) | with_reducible (first | exact Keeps.refl | apply State.freshPtp_keeps | apply State.modHost_keeps | apply State.modKeys_keeps | apply State.modOut_keeps | apply State.modPar_keeps | apply State.modRing_keeps | apply State.post_keeps | apply Keeps.ite | apply Keeps.foldl | apply Keeps.forAll | apply Keeps.foldlPair | intro _ _) | split | dsimp only [refuse, okS, okB, okParts])

theorem execServiceLivenessFail_keeps {x0 x1 s} : KeepsO [.clk, .servo, .par, .host, .pts, .keys, .ring, .fw] s (execServiceLivenessFail x0 x1 s) := by
  unfold execServiceLivenessFail
  repeat' (first | ((with_reducible apply within_of); rfl) | with_reducible (first | exact Keeps.refl | apply State.at_keeps | apply State.coldService_keeps | apply State.fallBack_keeps | apply State.notTaken_keeps | apply State.raise_keeps | apply KeepsO.next | exact KeepsO.fault | apply KeepsO.ite | apply Keeps.ite | apply Keeps.foldl | apply Keeps.forAll | apply Keeps.foldlPair | intro _ _) | split | dsimp only [refuse, okS, okB, okParts])

theorem execFwConfirm_keeps {x0 x1 s} : KeepsO [.clk, .par, .host, .fw] s (execFwConfirm x0 x1 s) := hostCmd_keeps (A := [.par, .fw]) (fun _ _ => serveFwConfirm_keeps rfl Keeps.refl) rfl rfl

theorem execHandoverBootTimeout_keeps {x0 s} : KeepsO [.clk, .host, .fw] s (execHandoverBootTimeout x0 s) := by
  unfold execHandoverBootTimeout
  repeat' (first | ((with_reducible apply within_of); rfl) | with_reducible (first | exact Keeps.refl | apply State.at_keeps | apply State.notTaken_keeps | apply KeepsO.next | exact KeepsO.fault | apply KeepsO.ite | apply Keeps.ite | apply Keeps.foldl | apply Keeps.forAll | apply Keeps.foldlPair | intro _ _) | split | dsimp only [refuse, okS, okB, okParts])

theorem execFwVerify_keeps {x0 x1 s} : KeepsO [.clk, .host, .fw] s (execFwVerify x0 x1 s) := hostCmd_keeps (A := [.fw]) (fun _ _ => serveFwVerify_keeps rfl Keeps.refl) rfl rfl

theorem execFwStageVerified_keeps {x0 s} : KeepsO [.clk, .host, .fw] s (execFwStageVerified x0 s) := by
  unfold execFwStageVerified
  repeat' (first | ((with_reducible apply within_of); rfl) | with_reducible (first | exact Keeps.refl | apply State.at_keeps | apply State.fwEvent_keeps | apply State.modFw_keeps | apply State.modSlot_keeps | apply KeepsO.next | exact KeepsO.fault | apply KeepsO.ite | apply Keeps.ite | apply Keeps.foldl | apply Keeps.forAll | apply Keeps.foldlPair | intro _ _) | split | dsimp only [refuse, okS, okB, okParts])

theorem execFwBegin_keeps {x0 x1 s} : KeepsO [.clk, .host, .log, .fw] s (execFwBegin x0 x1 s) := hostCmd_keeps (A := [.clk, .host, .log, .fw]) (fun _ _ => serveFwBegin_keeps rfl Keeps.refl) rfl rfl

end Sys2Proof.Machine
end

