-- ==== Sys2Proof/Laws/KeepsPlc.lean ====
section
/-!
SUPPORT. Which parts of the state each operation of Machine/Plc.lean leaves as they are.
-/

namespace Sys2Proof.Machine

theorem State.plcSweep_keeps {T r s} (w : within [.clk, .servo, .host, .pts, .plc, .ring] T = true) (h : Keeps T r s) : Keeps T r (State.plcSweep s) := by
  refine Keeps.then (A := [.clk, .servo, .host, .pts, .plc, .ring]) ?_ w h
  clear w h
  unfold State.plcSweep
  repeat' (first | ((with_reducible apply within_of); rfl) | with_reducible (first | exact Keeps.refl | apply State.linkIdle_keeps | apply State.loseSource_keeps | apply State.modPlcPort_keeps | apply State.modServo_keeps | apply State.neighbourEvent_keeps | apply State.queueFault_keeps | apply Keeps.ite | apply Keeps.foldl | apply Keeps.forAll | apply Keeps.foldlPair | intro _ _) | split | dsimp only [refuse, okS, okB, okParts])

theorem execPreambleDetected_keeps {x0 x1 x2 s} : KeepsO [.clk, .plc] s (execPreambleDetected x0 x1 x2 s) := by
  unfold execPreambleDetected
  repeat' (first | ((with_reducible apply within_of); rfl) | with_reducible (first | exact Keeps.refl | apply State.at_keeps | apply State.modPlcPort_keeps | apply KeepsO.next | exact KeepsO.fault | apply KeepsO.ite | apply Keeps.ite | apply Keeps.foldl | apply Keeps.forAll | apply Keeps.foldlPair | intro _ _) | split | dsimp only [refuse, okS, okB, okParts])

theorem State.rawRecord_keeps {T r s x1 x2} (w : within [.host, .plc] T = true) (h : Keeps T r s) : Keeps T r (State.rawRecord s x1 x2) := by
  refine Keeps.then (A := [.host, .plc]) ?_ w h
  clear w h
  unfold State.rawRecord
  repeat' (first | ((with_reducible apply within_of); rfl) | with_reducible (first | exact Keeps.refl | apply State.modPlcPort_keeps | apply State.writeUnit_keeps | apply Keeps.ite | apply Keeps.foldl | apply Keeps.forAll | apply Keeps.foldlPair | intro _ _) | split | dsimp only [refuse, okS, okB, okParts])

theorem execPlcLinkTimeout_keeps {x0 x1 s} : KeepsO [.clk, .host, .pts, .plc] s (execPlcLinkTimeout x0 x1 s) := by
  unfold execPlcLinkTimeout
  repeat' (first | ((with_reducible apply within_of); rfl) | with_reducible (first | exact Keeps.refl | apply State.at_keeps | apply State.linkDown_keeps | apply KeepsO.next | exact KeepsO.fault | apply KeepsO.ite | apply Keeps.ite | apply Keeps.foldl | apply Keeps.forAll | apply Keeps.foldlPair | intro _ _) | split | dsimp only [refuse, okS, okB, okParts])

theorem execPlcLinkUp_keeps {x0 x1 s} : KeepsO [.clk, .host, .pts, .plc] s (execPlcLinkUp x0 x1 s) := by
  unfold execPlcLinkUp
  repeat' (first | ((with_reducible apply within_of); rfl) | with_reducible (first | exact Keeps.refl | apply State.at_keeps | apply State.linkEvent_keeps | apply State.modOut_keeps | apply State.modPlcPort_keeps | apply KeepsO.next | exact KeepsO.fault | apply KeepsO.ite | apply Keeps.ite | apply Keeps.foldl | apply Keeps.forAll | apply Keeps.foldlPair | intro _ _) | split | dsimp only [refuse, okS, okB, okParts])

theorem State.loseSym_keeps {T r s x1} (w : within [.plc] T = true) (h : Keeps T r s) : Keeps T r (State.loseSym s x1) := by
  refine Keeps.then (A := [.plc]) ?_ w h
  clear w h
  unfold State.loseSym
  repeat' (first | ((with_reducible apply within_of); rfl) | with_reducible (first | exact Keeps.refl | apply State.modPlcPort_keeps | apply Keeps.ite | apply Keeps.foldl | apply Keeps.forAll | apply Keeps.foldlPair | intro _ _) | split | dsimp only [refuse, okS, okB, okParts])

theorem State.frameDecoded_keeps {T r s x1} (w : within [.plc] T = true) (h : Keeps T r s) : Keeps T r (State.frameDecoded s x1) := by
  refine Keeps.then (A := [.plc]) ?_ w h
  clear w h
  unfold State.frameDecoded
  repeat' (first | ((with_reducible apply within_of); rfl) | with_reducible (first | exact Keeps.refl | apply State.modPlcPort_keeps | apply Keeps.ite | apply Keeps.foldl | apply Keeps.forAll | apply Keeps.foldlPair | intro _ _) | split | dsimp only [refuse, okS, okB, okParts])

theorem State.serveSym_keeps {T r s x1} (w : within [.plc, .ring] T = true) (h : Keeps T r s) : Keeps T r (State.serveSym s x1) := by
  refine Keeps.then (A := [.plc, .ring]) ?_ w h
  clear w h
  unfold State.serveSym
  repeat' (first | ((with_reducible apply within_of); rfl) | with_reducible (first | exact Keeps.refl | apply State.frameDecoded_keeps | apply State.modPlcPort_keeps | apply State.modRing_keeps | apply Keeps.ite | apply Keeps.foldl | apply Keeps.forAll | apply Keeps.foldlPair | intro _ _) | split | dsimp only [refuse, okS, okB, okParts])

theorem execPlcTurn_keeps {x0 x1 s} : KeepsO [.clk, .host, .plc, .ring] s (execPlcTurn x0 x1 s) := by
  unfold execPlcTurn
  repeat' (first | ((with_reducible apply within_of); rfl) | with_reducible (first | exact Keeps.refl | apply State.at_keeps | apply State.loseSym_keeps | apply State.modPlc_keeps | apply State.rawRecord_keeps | apply State.serveSym_keeps | apply KeepsO.next | exact KeepsO.fault | apply KeepsO.ite | apply Keeps.ite | apply Keeps.foldl | apply Keeps.forAll | apply Keeps.foldlPair | intro _ _) | split | dsimp only [refuse, okS, okB, okParts])

end Sys2Proof.Machine
end

