-- ==== Sys2Proof/Laws/KeepsRing.lean ====
section
/-!
SUPPORT. Which parts of the state each operation of Machine/Ring.lean leaves as they are.
-/

namespace Sys2Proof.Machine

theorem State.sendOn_keeps {T r s x1 x2 x3} (w : within [.ring] T = true) (h : Keeps T r s) : Keeps T r (State.sendOn s x1 x2 x3) := by
  refine Keeps.then (A := [.ring]) ?_ w h
  clear w h
  unfold State.sendOn
  repeat' (first | ((with_reducible apply within_of); rfl) | with_reducible (first | exact Keeps.refl | apply State.modRing_keeps | apply Keeps.ite | apply Keeps.foldl | apply Keeps.forAll | apply Keeps.foldlPair | intro _ _) | split | dsimp only [refuse, okS, okB, okParts])

theorem execRingFlush_keeps {x0 x1 s} : KeepsO [.clk, .ring] s (execRingFlush x0 x1 s) := by
  unfold execRingFlush
  repeat' (first | ((with_reducible apply within_of); rfl) | with_reducible (first | exact Keeps.refl | apply State.at_keeps | apply State.modRing_keeps | apply State.sendOn_keeps | apply KeepsO.next | exact KeepsO.fault | apply KeepsO.ite | apply Keeps.ite | apply Keeps.foldl | apply Keeps.forAll | apply Keeps.foldlPair | intro _ _) | split | dsimp only [refuse, okS, okB, okParts])

theorem State.topology_keeps {T r s x1 x2 x3} (w : within [.host] T = true) (h : Keeps T r s) : Keeps T r (State.topology s x1 x2 x3) := by
  refine Keeps.then (A := [.host]) ?_ w h
  clear w h
  unfold State.topology
  repeat' (first | ((with_reducible apply within_of); rfl) | with_reducible (first | exact Keeps.refl | apply State.raise_keeps | apply Keeps.ite | apply Keeps.foldl | apply Keeps.forAll | apply Keeps.foldlPair | intro _ _) | split | dsimp only [refuse, okS, okB, okParts])

theorem State.checkDepth_keeps {T r s} (w : within [.host, .ring] T = true) (h : Keeps T r s) : Keeps T r (State.checkDepth s) := by
  refine Keeps.then (A := [.host, .ring]) ?_ w h
  clear w h
  unfold State.checkDepth
  repeat' (first | ((with_reducible apply within_of); rfl) | with_reducible (first | exact Keeps.refl | apply State.modRing_keeps | apply State.topology_keeps | apply Keeps.ite | apply Keeps.foldl | apply Keeps.forAll | apply Keeps.foldlPair | intro _ _) | split | dsimp only [refuse, okS, okB, okParts])

theorem execDiscoveryStart_keeps {x0 s} : KeepsO [.clk, .host, .ring] s (execDiscoveryStart x0 s) := by
  unfold execDiscoveryStart
  repeat' (first | ((with_reducible apply within_of); rfl) | with_reducible (first | exact Keeps.refl | apply State.at_keeps | apply State.checkDepth_keeps | apply State.modRing_keeps | apply State.sendOn_keeps | apply KeepsO.next | exact KeepsO.fault | apply KeepsO.ite | apply Keeps.ite | apply Keeps.foldl | apply Keeps.forAll | apply Keeps.foldlPair | intro _ _) | split | dsimp only [refuse, okS, okB, okParts])

theorem State.rediscover_keeps {T r s x1} (w : within [.ring] T = true) (h : Keeps T r s) : Keeps T r (State.rediscover s x1) := by
  refine Keeps.then (A := [.ring]) ?_ w h
  clear w h
  unfold State.rediscover
  repeat' (first | ((with_reducible apply within_of); rfl) | with_reducible (first | exact Keeps.refl | apply State.modRing_keeps | apply Keeps.ite | apply Keeps.foldl | apply Keeps.forAll | apply Keeps.foldlPair | intro _ _) | split | dsimp only [refuse, okS, okB, okParts])

theorem State.coalesced_keeps {T r s x1} (w : within [.host] T = true) (h : Keeps T r s) : Keeps T r (State.coalesced s x1) := by
  refine Keeps.then (A := [.host]) ?_ w h
  clear w h
  unfold State.coalesced
  repeat' (first | ((with_reducible apply within_of); rfl) | with_reducible (first | exact Keeps.refl | apply State.raise_keeps | apply Keeps.ite | apply Keeps.foldl | apply Keeps.forAll | apply Keeps.foldlPair | intro _ _) | split | dsimp only [refuse, okS, okB, okParts])

theorem State.keepResults_keeps {T r s x1 x2} (w : within [.ring] T = true) (h : Keeps T r s) : Keeps T r (State.keepResults s x1 x2) := by
  refine Keeps.then (A := [.ring]) ?_ w h
  clear w h
  unfold State.keepResults
  repeat' (first | ((with_reducible apply within_of); rfl) | with_reducible (first | exact Keeps.refl | apply State.modRing_keeps | apply Keeps.ite | apply Keeps.foldl | apply Keeps.forAll | apply Keeps.foldlPair | intro _ _) | split | dsimp only [refuse, okS, okB, okParts])

theorem execBalanceFrameReturn_keeps {x0 x1 s} : KeepsO [.clk, .host, .ring] s (execBalanceFrameReturn x0 x1 s) := by
  unfold execBalanceFrameReturn
  repeat' (first | ((with_reducible apply within_of); rfl) | with_reducible (first | exact Keeps.refl | apply State.at_keeps | apply State.coalesced_keeps | apply State.keepResults_keeps | apply State.modRing_keeps | apply KeepsO.next | exact KeepsO.fault | apply KeepsO.ite | apply Keeps.ite | apply Keeps.foldl | apply Keeps.forAll | apply Keeps.foldlPair | intro _ _) | split | dsimp only [refuse, okS, okB, okParts])

theorem State.setRoot_keeps {T r s x1} (w : within [.host, .ring] T = true) (h : Keeps T r s) : Keeps T r (State.setRoot s x1) := by
  refine Keeps.then (A := [.host, .ring]) ?_ w h
  clear w h
  unfold State.setRoot
  repeat' (first | ((with_reducible apply within_of); rfl) | with_reducible (first | exact Keeps.refl | apply State.modRing_keeps | apply State.topology_keeps | apply Keeps.ite | apply Keeps.foldl | apply Keeps.forAll | apply Keeps.foldlPair | intro _ _) | split | dsimp only [refuse, okS, okB, okParts])

theorem serveBalanceResults_keeps {T r x0 s} (w : within [] T = true) (h : Keeps T r s) : Keeps T r (serveBalanceResults x0 s).st := by
  refine Keeps.then (A := []) ?_ w h
  clear w h
  unfold serveBalanceResults okParts refuse
  repeat' (first | ((with_reducible apply within_of); rfl) | with_reducible (first | exact Keeps.refl | apply Keeps.ite | apply Keeps.foldl | apply Keeps.forAll | apply Keeps.foldlPair | intro _ _) | split | dsimp only [refuse, okS, okB, okParts])

theorem serveRingMap_keeps {T r x0 s} (w : within [] T = true) (h : Keeps T r s) : Keeps T r (serveRingMap x0 s).st := by
  refine Keeps.then (A := []) ?_ w h
  clear w h
  unfold serveRingMap noPayload okParts
  repeat' (first | ((with_reducible apply within_of); rfl) | with_reducible (first | exact Keeps.refl | apply Keeps.ite | apply Keeps.foldl | apply Keeps.forAll | apply Keeps.foldlPair | intro _ _) | split | dsimp only [refuse, okS, okB, okParts])

theorem execRingMap_keeps {x0 x1 s} : KeepsO [.clk, .host] s (execRingMap x0 x1 s) := hostCmd_keeps (A := []) (fun _ _ => serveRingMap_keeps rfl Keeps.refl) rfl rfl

theorem State.postBalance_keeps {T r s x1} (w : within [.host, .ring] T = true) (h : Keeps T r s) : Keeps T r (State.postBalance s x1) := by
  refine Keeps.then (A := [.host, .ring]) ?_ w h
  clear w h
  unfold State.postBalance
  repeat' (first | ((with_reducible apply within_of); rfl) | with_reducible (first | exact Keeps.refl | apply State.checkDepth_keeps | apply State.modRing_keeps | apply Keeps.ite | apply Keeps.foldl | apply Keeps.forAll | apply Keeps.foldlPair | intro _ _) | split | dsimp only [refuse, okS, okB, okParts])

theorem execBalanceResults_keeps {x0 x1 s} : KeepsO [.clk, .host] s (execBalanceResults x0 x1 s) := hostCmd_keeps (A := []) (fun _ _ => serveBalanceResults_keeps rfl Keeps.refl) rfl rfl

theorem execRingTestSend_keeps {x0 s} : KeepsO [.clk, .ring] s (execRingTestSend x0 s) := by
  unfold execRingTestSend
  repeat' (first | ((with_reducible apply within_of); rfl) | with_reducible (first | exact Keeps.refl | apply State.at_keeps | apply State.modRing_keeps | apply State.sendOn_keeps | apply KeepsO.next | exact KeepsO.fault | apply KeepsO.ite | apply Keeps.ite | apply Keeps.foldl | apply Keeps.forAll | apply Keeps.foldlPair | intro _ _) | split | dsimp only [refuse, okS, okB, okParts])

theorem State.seeTest_keeps {T r s} (w : within [.host, .ring] T = true) (h : Keeps T r s) : Keeps T r (State.seeTest s) := by
  refine Keeps.then (A := [.host, .ring]) ?_ w h
  clear w h
  unfold State.seeTest
  repeat' (first | ((with_reducible apply within_of); rfl) | with_reducible (first | exact Keeps.refl | apply State.modRing_keeps | apply State.sendOn_keeps | apply State.topology_keeps | apply Keeps.ite | apply Keeps.foldl | apply Keeps.forAll | apply Keeps.foldlPair | intro _ _) | split | dsimp only [refuse, okS, okB, okParts])

theorem execYudaixFrameReceived_keeps {x0 x1 s} : KeepsO [.clk, .host, .ring] s (execYudaixFrameReceived x0 x1 s) := by
  unfold execYudaixFrameReceived
  repeat' (first | ((with_reducible apply within_of); rfl) | with_reducible (first | exact Keeps.refl | apply State.at_keeps | apply State.modRing_keeps | apply State.seeTest_keeps | apply State.sendOn_keeps | apply KeepsO.next | exact KeepsO.fault | apply KeepsO.ite | apply Keeps.ite | apply Keeps.foldl | apply Keeps.forAll | apply Keeps.foldlPair | intro _ _) | split | dsimp only [refuse, okS, okB, okParts])

theorem State.heal_keeps {T r s} (w : within [.host, .ring] T = true) (h : Keeps T r s) : Keeps T r (State.heal s) := by
  refine Keeps.then (A := [.host, .ring]) ?_ w h
  clear w h
  unfold State.heal
  repeat' (first | ((with_reducible apply within_of); rfl) | with_reducible (first | exact Keeps.refl | apply State.modRing_keeps | apply State.sendOn_keeps | apply State.topology_keeps | apply Keeps.ite | apply Keeps.foldl | apply Keeps.forAll | apply Keeps.foldlPair | intro _ _) | split | dsimp only [refuse, okS, okB, okParts])

theorem execLinkDownNotice_keeps {x0 x1 s} : KeepsO [.clk, .host, .ring] s (execLinkDownNotice x0 x1 s) := by
  unfold execLinkDownNotice
  repeat' (first | ((with_reducible apply within_of); rfl) | with_reducible (first | exact Keeps.refl | apply State.at_keeps | apply State.heal_keeps | apply State.rediscover_keeps | apply State.sendOn_keeps | apply KeepsO.next | exact KeepsO.fault | apply KeepsO.ite | apply Keeps.ite | apply Keeps.foldl | apply Keeps.forAll | apply Keeps.foldlPair | intro _ _) | split | dsimp only [refuse, okS, okB, okParts])

theorem State.noteNeighbour_keeps {T r s x1} (w : within [.ring] T = true) (h : Keeps T r s) : Keeps T r (State.noteNeighbour s x1) := by
  refine Keeps.then (A := [.ring]) ?_ w h
  clear w h
  unfold State.noteNeighbour
  repeat' (first | ((with_reducible apply within_of); rfl) | with_reducible (first | exact Keeps.refl | apply State.modRing_keeps | apply Keeps.ite | apply Keeps.foldl | apply Keeps.forAll | apply Keeps.foldlPair | intro _ _) | split | dsimp only [refuse, okS, okB, okParts])

theorem execDiscoveryTokenReceived_keeps {x0 x1 s} : KeepsO [.clk, .host, .ring] s (execDiscoveryTokenReceived x0 x1 s) := by
  unfold execDiscoveryTokenReceived
  repeat' (first | ((with_reducible apply within_of); rfl) | with_reducible (first | exact Keeps.refl | apply State.at_keeps | apply State.checkDepth_keeps | apply State.modRing_keeps | apply State.noteNeighbour_keeps | apply State.sendOn_keeps | apply State.setRoot_keeps | apply KeepsO.next | exact KeepsO.fault | apply KeepsO.ite | apply Keeps.ite | apply Keeps.foldl | apply Keeps.forAll | apply Keeps.foldlPair | intro _ _) | split | dsimp only [refuse, okS, okB, okParts])

theorem execLineLinkUp_keeps {x0 x1 s} : KeepsO [.clk, .host, .ring] s (execLineLinkUp x0 x1 s) := by
  unfold execLineLinkUp
  repeat' (first | ((with_reducible apply within_of); rfl) | with_reducible (first | exact Keeps.refl | apply State.at_keeps | apply State.modRing_keeps | apply State.rediscover_keeps | apply State.topology_keeps | apply KeepsO.next | exact KeepsO.fault | apply KeepsO.ite | apply Keeps.ite | apply Keeps.foldl | apply Keeps.forAll | apply Keeps.foldlPair | intro _ _) | split | dsimp only [refuse, okS, okB, okParts])

theorem State.reportMismatch_keeps {T r s x1 x2} (w : within [.ring] T = true) (h : Keeps T r s) : Keeps T r (State.reportMismatch s x1 x2) := by
  refine Keeps.then (A := [.ring]) ?_ w h
  clear w h
  unfold State.reportMismatch
  repeat' (first | ((with_reducible apply within_of); rfl) | with_reducible (first | exact Keeps.refl | apply State.modRing_keeps | apply State.queueFault_keeps | apply Keeps.ite | apply Keeps.foldl | apply Keeps.forAll | apply Keeps.foldlPair | intro _ _) | split | dsimp only [refuse, okS, okB, okParts])

theorem execLineLinkDown_keeps {x0 x1 s} : KeepsO [.clk, .host, .ring] s (execLineLinkDown x0 x1 s) := by
  unfold execLineLinkDown
  repeat' (first | ((with_reducible apply within_of); rfl) | with_reducible (first | exact Keeps.refl | apply State.at_keeps | apply State.modRing_keeps | apply State.queueFault_keeps | apply State.rediscover_keeps | apply State.sendOn_keeps | apply State.topology_keeps | apply KeepsO.next | exact KeepsO.fault | apply KeepsO.ite | apply Keeps.ite | apply Keeps.foldl | apply Keeps.forAll | apply Keeps.foldlPair | intro _ _) | split | dsimp only [refuse, okS, okB, okParts])

theorem State.addOwn_keeps {T r s x1} (w : within [.ring] T = true) (h : Keeps T r s) : Keeps T r (State.addOwn s x1).1 := by
  refine Keeps.then (A := [.ring]) ?_ w h
  clear w h
  unfold State.addOwn
  repeat' (first | ((with_reducible apply within_of); rfl) | with_reducible (first | exact Keeps.refl | apply State.modRing_keeps | apply State.reportMismatch_keeps | apply Keeps.ite | apply Keeps.foldl | apply Keeps.forAll | apply Keeps.foldlPair | intro _ _) | split | dsimp only [refuse, okS, okB, okParts])

theorem State.readResults_keeps {T r s x1} (w : within [.host, .ring] T = true) (h : Keeps T r s) : Keeps T r (State.readResults s x1) := by
  refine Keeps.then (A := [.host, .ring]) ?_ w h
  clear w h
  unfold State.readResults
  repeat' (first | ((with_reducible apply within_of); rfl) | with_reducible (first | exact Keeps.refl | apply State.modRing_keeps | apply State.raise_keeps | apply Keeps.ite | apply Keeps.foldl | apply Keeps.forAll | apply Keeps.foldlPair | intro _ _) | split | dsimp only [refuse, okS, okB, okParts])

theorem State.launch_keeps {T r s x1} (w : within [.host, .ring] T = true) (h : Keeps T r s) : Keeps T r (State.launch s x1) := by
  refine Keeps.then (A := [.host, .ring]) ?_ w h
  clear w h
  unfold State.launch
  repeat' (first | ((with_reducible apply within_of); rfl) | with_reducible (first | exact Keeps.refl | apply State.addOwn_keeps | apply State.readResults_keeps | apply State.sendOn_keeps | apply Keeps.ite | apply Keeps.foldl | apply Keeps.forAll | apply Keeps.foldlPair | intro _ _) | split | dsimp only [refuse, okS, okB, okParts])

theorem execBalanceFrameLaunch_keeps {x0 s} : KeepsO [.clk, .host, .ring] s (execBalanceFrameLaunch x0 s) := by
  unfold execBalanceFrameLaunch
  repeat' (first | ((with_reducible apply within_of); rfl) | with_reducible (first | exact Keeps.refl | apply State.at_keeps | apply State.launch_keeps | apply State.modRing_keeps | apply KeepsO.next | exact KeepsO.fault | apply KeepsO.ite | apply Keeps.ite | apply Keeps.foldl | apply Keeps.forAll | apply Keeps.foldlPair | intro _ _) | split | dsimp only [refuse, okS, okB, okParts])

theorem execMainsFrameTimeout_keeps {x0 s} : KeepsO [.clk, .ring] s (execMainsFrameTimeout x0 s) := by
  unfold execMainsFrameTimeout
  repeat' (first | ((with_reducible apply within_of); rfl) | with_reducible (first | exact Keeps.refl | apply State.at_keeps | apply State.modRing_keeps | apply KeepsO.next | exact KeepsO.fault | apply KeepsO.ite | apply Keeps.ite | apply Keeps.foldl | apply Keeps.forAll | apply Keeps.foldlPair | intro _ _) | split | dsimp only [refuse, okS, okB, okParts])

theorem execBalanceReturnLate_keeps {x0 s} : KeepsO [.clk, .host, .ring] s (execBalanceReturnLate x0 s) := by
  unfold execBalanceReturnLate
  repeat' (first | ((with_reducible apply within_of); rfl) | with_reducible (first | exact Keeps.refl | apply State.at_keeps | apply State.keepResults_keeps | apply State.topology_keeps | apply KeepsO.next | exact KeepsO.fault | apply KeepsO.ite | apply Keeps.ite | apply Keeps.foldl | apply Keeps.forAll | apply Keeps.foldlPair | intro _ _) | split | dsimp only [refuse, okS, okB, okParts])

theorem execRootLost_keeps {x0 s} : KeepsO [.clk, .host, .ring] s (execRootLost x0 s) := by
  unfold execRootLost
  repeat' (first | ((with_reducible apply within_of); rfl) | with_reducible (first | exact Keeps.refl | apply State.at_keeps | apply State.modRing_keeps | apply State.setRoot_keeps | apply KeepsO.next | exact KeepsO.fault | apply KeepsO.ite | apply Keeps.ite | apply Keeps.foldl | apply Keeps.forAll | apply Keeps.foldlPair | intro _ _) | split | dsimp only [refuse, okS, okB, okParts])

theorem execDiscoveryComplete_keeps {x0 x1 x2 s} : KeepsO [.clk, .servo, .host, .ring] s (execDiscoveryComplete x0 x1 x2 s) := by
  unfold execDiscoveryComplete
  repeat' (first | ((with_reducible apply within_of); rfl) | with_reducible (first | exact Keeps.refl | apply State.at_keeps | apply State.modRing_keeps | apply State.modServo_keeps | apply State.topology_keeps | apply KeepsO.next | exact KeepsO.fault | apply KeepsO.ite | apply Keeps.ite | apply Keeps.foldl | apply Keeps.forAll | apply Keeps.foldlPair | intro _ _) | split | dsimp only [refuse, okS, okB, okParts])

theorem execRingTestMissing_keeps {x0 s} : KeepsO [.clk, .host, .ring] s (execRingTestMissing x0 s) := by
  unfold execRingTestMissing
  repeat' (first | ((with_reducible apply within_of); rfl) | with_reducible (first | exact Keeps.refl | apply State.at_keeps | apply State.heal_keeps | apply State.modRing_keeps | apply KeepsO.next | exact KeepsO.fault | apply KeepsO.ite | apply Keeps.ite | apply Keeps.foldl | apply Keeps.forAll | apply Keeps.foldlPair | intro _ _) | split | dsimp only [refuse, okS, okB, okParts])

theorem execBalanceRetry_keeps {x0 s} : KeepsO [.clk, .host, .ring] s (execBalanceRetry x0 s) := by
  unfold execBalanceRetry
  repeat' (first | ((with_reducible apply within_of); rfl) | with_reducible (first | exact Keeps.refl | apply State.at_keeps | apply State.launch_keeps | apply State.modRing_keeps | apply KeepsO.next | exact KeepsO.fault | apply KeepsO.ite | apply Keeps.ite | apply Keeps.foldl | apply Keeps.forAll | apply Keeps.foldlPair | intro _ _) | split | dsimp only [refuse, okS, okB, okParts])

theorem execBalanceFramePass_keeps {x0 x1 s} : KeepsO [.clk, .host, .ring] s (execBalanceFramePass x0 x1 s) := by
  unfold execBalanceFramePass
  repeat' (first | ((with_reducible apply within_of); rfl) | with_reducible (first | exact Keeps.refl | apply State.addOwn_keeps | apply State.at_keeps | apply State.modRing_keeps | apply State.readResults_keeps | apply State.sendOn_keeps | apply KeepsO.next | exact KeepsO.fault | apply KeepsO.ite | apply Keeps.ite | apply Keeps.foldl | apply Keeps.forAll | apply Keeps.foldlPair | intro _ _) | split | dsimp only [refuse, okS, okB, okParts])

end Sys2Proof.Machine
end

