-- ==== Sys2Proof/Laws/KeepsBoundary.lean ====
section
/-!
SUPPORT. Which parts of the state each operation of Machine/Boundary.lean leaves as they are.
-/

namespace Sys2Proof.Machine

theorem State.configApplied_keeps {T r s x1 x2} (w : within [.clk, .host] T = true) (h : Keeps T r s) : Keeps T r (State.configApplied s x1 x2) := by
  refine Keeps.then (A := [.clk, .host]) ?_ w h
  clear w h
  unfold State.configApplied
  repeat' (first | ((with_reducible apply within_of); rfl) | with_reducible (first | exact Keeps.refl | apply State.bump_keeps | apply State.raise_keeps | apply Keeps.ite | apply Keeps.foldl | apply Keeps.forAll | apply Keeps.foldlPair | intro _ _) | split | dsimp only [refuse, okS, okB, okParts])

theorem State.boundaryValue_keeps {T r s x1 x2} (w : within [.servo, .host, .pts, .sw, .saf, .ring] T = true) (h : Keeps T r s) : Keeps T r (State.boundaryValue s x1 x2) := by
  refine Keeps.then (A := [.servo, .host, .pts, .sw, .saf, .ring]) ?_ w h
  clear w h
  unfold State.boundaryValue
  repeat' (first | ((with_reducible apply within_of); rfl) | with_reducible (first | exact Keeps.refl | apply State.driveMpo_keeps | apply State.modPt_keeps | apply State.modServo_keeps | apply State.modSw_keeps | apply State.mpoIdle_keeps | apply State.rediscover_keeps | apply State.runInput_keeps | apply State.settleInput_keeps | apply State.startEntry_keeps | apply Keeps.ite | apply Keeps.foldl | apply Keeps.forAll | apply Keeps.foldlPair | intro _ _) | split | dsimp only [refuse, okS, okB, okParts])

theorem State.closePeriod_keeps {T r s x1 x2} (w : within [.host, .pts, .recs, .led, .sw] T = true) (h : Keeps T r s) : Keeps T r (State.closePeriod s x1 x2) := by
  refine Keeps.then (A := [.host, .pts, .recs, .led, .sw]) ?_ w h
  clear w h
  unfold State.closePeriod
  repeat' (first | ((with_reducible apply within_of); rfl) | with_reducible (first | exact Keeps.refl | apply State.build_keeps | apply State.closeAtPeriod_keeps | apply State.modPt_keeps | apply Keeps.ite | apply Keeps.foldl | apply Keeps.forAll | apply Keeps.foldlPair | intro _ _) | split | dsimp only [refuse, okS, okB, okParts])

theorem State.beginSpans_keeps {T r s x1 x2} (w : within [.pts] T = true) (h : Keeps T r s) : Keeps T r (State.beginSpans s x1 x2) := by
  refine Keeps.then (A := [.pts]) ?_ w h
  clear w h
  unfold State.beginSpans
  repeat' (first | ((with_reducible apply within_of); rfl) | with_reducible (first | exact Keeps.refl | apply State.modPts_keeps | apply Keeps.ite | apply Keeps.foldl | apply Keeps.forAll | apply Keeps.foldlPair | intro _ _) | split | dsimp only [refuse, okS, okB, okParts])

theorem State.closeIntervals_keeps {T r s} (w : within [.pts, .recs] T = true) (h : Keeps T r s) : Keeps T r (State.closeIntervals s) := by
  refine Keeps.then (A := [.pts, .recs]) ?_ w h
  clear w h
  unfold State.closeIntervals
  repeat' (first | ((with_reducible apply within_of); rfl) | with_reducible (first | exact Keeps.refl | apply State.modPts_keeps | apply State.modRecs_keeps | apply Keeps.ite | apply Keeps.foldl | apply Keeps.forAll | apply Keeps.foldlPair | intro _ _) | split | dsimp only [refuse, okS, okB, okParts])

theorem State.periodClosed_keeps {T r s x1 x2 x3} (w : within [.host] T = true) (h : Keeps T r s) : Keeps T r (State.periodClosed s x1 x2 x3) := by
  refine Keeps.then (A := [.host]) ?_ w h
  clear w h
  unfold State.periodClosed
  repeat' (first | ((with_reducible apply within_of); rfl) | with_reducible (first | exact Keeps.refl | apply State.raise_keeps | apply Keeps.ite | apply Keeps.foldl | apply Keeps.forAll | apply Keeps.foldlPair | intro _ _) | split | dsimp only [refuse, okS, okB, okParts])

theorem State.closePeriods_keeps {T r s x1 x2 x3 x4} (w : within [.servo, .host, .pts, .recs, .led, .sw, .log] T = true) (h : Keeps T r s) : Keeps T r (State.closePeriods s x1 x2 x3 x4) := by
  refine Keeps.then (A := [.servo, .host, .pts, .recs, .led, .sw, .log]) ?_ w h
  clear w h
  unfold State.closePeriods
  repeat' (first | ((with_reducible apply within_of); rfl) | with_reducible (first | exact Keeps.refl | apply State.closePeriod_keeps | apply State.enterCapo_keeps | apply State.modPts_keeps | apply State.modServo_keeps | apply State.periodClosed_keeps | apply Keeps.ite | apply Keeps.foldl | apply Keeps.forAll | apply Keeps.foldlPair | intro _ _) | split | dsimp only [refuse, okS, okB, okParts])

theorem State.clearDescr_keeps {T r s x1 x2} (w : within [.par] T = true) (h : Keeps T r s) : Keeps T r (State.clearDescr s x1 x2) := by
  refine Keeps.then (A := [.par]) ?_ w h
  clear w h
  unfold State.clearDescr
  repeat' (first | ((with_reducible apply within_of); rfl) | with_reducible (first | exact Keeps.refl | apply State.modPar_keeps | apply Keeps.ite | apply Keeps.foldl | apply Keeps.forAll | apply Keeps.foldlPair | intro _ _) | split | dsimp only [refuse, okS, okB, okParts])

theorem State.reservedNow_keeps {T r s x1} (w : within [.par, .sar] T = true) (h : Keeps T r s) : Keeps T r (State.reservedNow s x1) := by
  refine Keeps.then (A := [.par, .sar]) ?_ w h
  clear w h
  unfold State.reservedNow
  repeat' (first | ((with_reducible apply within_of); rfl) | with_reducible (first | exact Keeps.refl | apply State.clearDescr_keeps | apply State.restartEntry_keeps | apply Keeps.ite | apply Keeps.foldl | apply Keeps.forAll | apply Keeps.foldlPair | intro _ _) | split | dsimp only [refuse, okS, okB, okParts])

theorem State.retypeRecords_keeps {T r s x1 x2 x3} (w : within [.pts] T = true) (h : Keeps T r s) : Keeps T r (State.retypeRecords s x1 x2 x3) := by
  refine Keeps.then (A := [.pts]) ?_ w h
  clear w h
  unfold State.retypeRecords
  repeat' (first | ((with_reducible apply within_of); rfl) | with_reducible (first | exact Keeps.refl | apply State.buildEvent_keeps | apply Keeps.ite | apply Keeps.foldl | apply Keeps.forAll | apply Keeps.foldlPair | intro _ _) | split | dsimp only [refuse, okS, okB, okParts])

theorem State.retype_keeps {T r s x1 x2 x3} (w : within [.host, .pts, .sw, .saf] T = true) (h : Keeps T r s) : Keeps T r (State.retype s x1 x2 x3) := by
  refine Keeps.then (A := [.host, .pts, .sw, .saf]) ?_ w h
  clear w h
  unfold State.retype
  repeat' (first | ((with_reducible apply within_of); rfl) | with_reducible (first | exact Keeps.refl | apply State.command_keeps | apply State.modPt_keeps | apply State.mpoIdle_keeps | apply State.retypeRecords_keeps | apply State.runInput_keeps | apply State.settleInput_keeps | apply Keeps.ite | apply Keeps.foldl | apply Keeps.forAll | apply Keeps.foldlPair | intro _ _) | split | dsimp only [refuse, okS, okB, okParts])

theorem State.commitRipe_keeps {T r s x1} (w : within [.clk, .servo, .par, .host, .pts, .sw, .saf, .ring, .sar] T = true) (h : Keeps T r s) : Keeps T r (State.commitRipe s x1) := by
  refine Keeps.then (A := [.clk, .servo, .par, .host, .pts, .sw, .saf, .ring, .sar]) ?_ w h
  clear w h
  unfold State.commitRipe
  repeat' (first | ((with_reducible apply within_of); rfl) | with_reducible (first | exact Keeps.refl | apply State.boundaryValue_keeps | apply State.configApplied_keeps | apply State.modPar_keeps | apply State.reservedNow_keeps | apply State.retype_keeps | apply Keeps.ite | apply Keeps.foldl | apply Keeps.forAll | apply Keeps.foldlPair | intro _ _) | split | dsimp only [refuse, okS, okB, okParts])

theorem State.endTail_keeps {T r s} (w : within [.led] T = true) (h : Keeps T r s) : Keeps T r (State.endTail s) := by
  refine Keeps.then (A := [.led]) ?_ w h
  clear w h
  unfold State.endTail
  repeat' (first | ((with_reducible apply within_of); rfl) | with_reducible (first | exact Keeps.refl | apply State.modLed_keeps | apply Keeps.ite | apply Keeps.foldl | apply Keeps.forAll | apply Keeps.foldlPair | intro _ _) | split | dsimp only [refuse, okS, okB, okParts])

theorem State.incomplete_keeps {T r s} (w : within [.host] T = true) (h : Keeps T r s) : Keeps T r (State.incomplete s) := by
  refine Keeps.then (A := [.host]) ?_ w h
  clear w h
  unfold State.incomplete
  repeat' (first | ((with_reducible apply within_of); rfl) | with_reducible (first | exact Keeps.refl | apply State.raise_keeps | apply Keeps.ite | apply Keeps.foldl | apply Keeps.forAll | apply Keeps.foldlPair | intro _ _) | split | dsimp only [refuse, okS, okB, okParts])

theorem State.joinPeriods_keeps {T r s} (w : within [.pts] T = true) (h : Keeps T r s) : Keeps T r (State.joinPeriods s) := by
  refine Keeps.then (A := [.pts]) ?_ w h
  clear w h
  unfold State.joinPeriods
  repeat' (first | ((with_reducible apply within_of); rfl) | with_reducible (first | exact Keeps.refl | apply State.modPts_keeps | apply Keeps.ite | apply Keeps.foldl | apply Keeps.forAll | apply Keeps.foldlPair | intro _ _) | split | dsimp only [refuse, okS, okB, okParts])

theorem State.serviceAt_keeps {T r s x1 x2} (w : within [.host, .slices, .pts, .sw, .sar] T = true) (h : Keeps T r s) : Keeps T r (State.serviceAt s x1 x2) := by
  refine Keeps.then (A := [.host, .slices, .pts, .sw, .sar]) ?_ w h
  clear w h
  unfold State.serviceAt
  repeat' (first | ((with_reducible apply within_of); rfl) | with_reducible (first | exact Keeps.refl | apply State.backToIdle_keeps | apply State.buildEvent_keeps | apply State.freshPilot_keeps | apply State.modPt_keeps | apply State.pathOff_keeps | apply Keeps.ite | apply Keeps.foldl | apply Keeps.forAll | apply Keeps.foldlPair | intro _ _) | split | dsimp only [refuse, okS, okB, okParts])

theorem State.boundaryWork_keeps {T r s x1} (w : within [.clk, .servo, .par, .host, .slices, .courses, .eng, .pts, .recs, .led, .sw, .saf, .log, .plc, .ring, .sar, .fw] T = true) (h : Keeps T r s) : Keeps T r (State.boundaryWork s x1) := by
  refine Keeps.then (A := [.clk, .servo, .par, .host, .slices, .courses, .eng, .pts, .recs, .led, .sw, .saf, .log, .plc, .ring, .sar, .fw]) ?_ w h
  clear w h
  unfold State.boundaryWork
  repeat' (first | ((with_reducible apply within_of); rfl) | with_reducible (first | exact Keeps.refl | apply State.beginSpans_keeps | apply State.buildLate_keeps | apply State.closeIntervals_keeps | apply State.closePeriods_keeps | apply State.commitRipe_keeps | apply State.completeEntry_keeps | apply State.endTail_keeps | apply State.incomplete_keeps | apply State.joinPeriods_keeps | apply State.loadRcd_keeps | apply State.modClk_keeps | apply State.modCourse_keeps | apply State.modEng_keeps | apply State.modPt_keeps | apply State.modServo_keeps | apply State.plcSweep_keeps | apply State.postBalance_keeps | apply State.ripened_keeps | apply State.saveLedger_keeps | apply State.serviceAt_keeps | apply State.setPilot_keeps | apply State.swapImages_keeps | apply Keeps.ite | apply Keeps.foldl | apply Keeps.forAll | apply Keeps.foldlPair | intro _ _) | split | dsimp only [refuse, okS, okB, okParts])

theorem execIntervalBoundary_keeps {x0 s} : KeepsO [.clk, .servo, .par, .host, .slices, .courses, .eng, .pts, .recs, .led, .sw, .saf, .log, .plc, .ring, .sar, .fw] s (execIntervalBoundary x0 s) := by
  unfold execIntervalBoundary
  repeat' (first | ((with_reducible apply within_of); rfl) | with_reducible (first | exact Keeps.refl | apply State.at_keeps | apply State.boundaryWork_keeps | apply KeepsO.next | exact KeepsO.fault | apply KeepsO.ite | apply Keeps.ite | apply Keeps.foldl | apply Keeps.forAll | apply Keeps.foldlPair | intro _ _) | split | dsimp only [refuse, okS, okB, okParts])

end Sys2Proof.Machine
end

