-- ==== Sys2Proof/Laws/KeepsDisplay.lean ====
section
/-!
SUPPORT. Which parts of the state each operation of Machine/Display.lean leaves as they are.
-/

namespace Sys2Proof.Machine

theorem State.dispOff_keeps {T r s} (w : within [.disp] T = true) (h : Keeps T r s) : Keeps T r (State.dispOff s) := by
  refine Keeps.then (A := [.disp]) ?_ w h
  clear w h
  unfold State.dispOff
  repeat' (first | ((with_reducible apply within_of); rfl) | with_reducible (first | exact Keeps.refl | apply State.modDisp_keeps | apply Keeps.ite | apply Keeps.foldl | apply Keeps.forAll | apply Keeps.foldlPair | intro _ _) | split | dsimp only [refuse, okS, okB, okParts])

theorem State.stopPhase_keeps {T r s x1} (w : within [.disp] T = true) (h : Keeps T r s) : Keeps T r (State.stopPhase s x1) := by
  refine Keeps.then (A := [.disp]) ?_ w h
  clear w h
  unfold State.stopPhase
  repeat' (first | ((with_reducible apply within_of); rfl) | with_reducible (first | exact Keeps.refl | apply State.modDisp_keeps | apply Keeps.ite | apply Keeps.foldl | apply Keeps.forAll | apply Keeps.foldlPair | intro _ _) | split | dsimp only [refuse, okS, okB, okParts])

theorem State.dispReset_keeps {T r s} (w : within [.disp] T = true) (h : Keeps T r s) : Keeps T r (State.dispReset s) := by
  refine Keeps.then (A := [.disp]) ?_ w h
  clear w h
  unfold State.dispReset
  repeat' (first | ((with_reducible apply within_of); rfl) | with_reducible (first | exact Keeps.refl | apply State.dispOff_keeps | apply State.stopPhase_keeps | apply Keeps.ite | apply Keeps.foldl | apply Keeps.forAll | apply Keeps.foldlPair | intro _ _) | split | dsimp only [refuse, okS, okB, okParts])

theorem State.dispDisable_keeps {T r s} (w : within [.disp] T = true) (h : Keeps T r s) : Keeps T r (State.dispDisable s) := by
  refine Keeps.then (A := [.disp]) ?_ w h
  clear w h
  unfold State.dispDisable
  repeat' (first | ((with_reducible apply within_of); rfl) | with_reducible (first | exact Keeps.refl | apply State.dispOff_keeps | apply State.modDisp_keeps | apply Keeps.ite | apply Keeps.foldl | apply Keeps.forAll | apply Keeps.foldlPair | intro _ _) | split | dsimp only [refuse, okS, okB, okParts])

theorem State.frontLight_keeps {T r s} (w : within [.disp] T = true) (h : Keeps T r s) : Keeps T r (State.frontLight s) := by
  refine Keeps.then (A := [.disp]) ?_ w h
  clear w h
  unfold State.frontLight
  repeat' (first | ((with_reducible apply within_of); rfl) | with_reducible (first | exact Keeps.refl | apply State.modDisp_keeps | apply Keeps.ite | apply Keeps.foldl | apply Keeps.forAll | apply Keeps.foldlPair | intro _ _) | split | dsimp only [refuse, okS, okB, okParts])

theorem State.dispWarning_keeps {T r s} (w : within [.disp] T = true) (h : Keeps T r s) : Keeps T r (State.dispWarning s) := by
  refine Keeps.then (A := [.disp]) ?_ w h
  clear w h
  unfold State.dispWarning
  repeat' (first | ((with_reducible apply within_of); rfl) | with_reducible (first | exact Keeps.refl | apply State.dispOff_keeps | apply State.stopPhase_keeps | apply Keeps.ite | apply Keeps.foldl | apply Keeps.forAll | apply Keeps.foldlPair | intro _ _) | split | dsimp only [refuse, okS, okB, okParts])

theorem serveDisplayStatic_keeps {T r x0 s} (w : within [.disp] T = true) (h : Keeps T r s) : Keeps T r (serveDisplayStatic x0 s).st := by
  refine Keeps.then (A := [.disp]) ?_ w h
  clear w h
  unfold serveDisplayStatic okS refuse
  repeat' (first | ((with_reducible apply within_of); rfl) | with_reducible (first | exact Keeps.refl | apply State.modDisp_keeps | apply Keeps.ite | apply Keeps.foldl | apply Keeps.forAll | apply Keeps.foldlPair | intro _ _) | split | dsimp only [refuse, okS, okB, okParts])

theorem execDisplayStatic_keeps {x0 x1 s} : KeepsO [.clk, .host, .disp] s (execDisplayStatic x0 x1 s) := hostCmd_keeps (A := [.disp]) (fun _ _ => serveDisplayStatic_keeps rfl Keeps.refl) rfl rfl

theorem State.startPhase_keeps {T r s x1 x2 x3} (w : within [.disp] T = true) (h : Keeps T r s) : Keeps T r (State.startPhase s x1 x2 x3) := by
  refine Keeps.then (A := [.disp]) ?_ w h
  clear w h
  unfold State.startPhase
  repeat' (first | ((with_reducible apply within_of); rfl) | with_reducible (first | exact Keeps.refl | apply State.modDisp_keeps | apply Keeps.ite | apply Keeps.foldl | apply Keeps.forAll | apply Keeps.foldlPair | intro _ _) | split | dsimp only [refuse, okS, okB, okParts])

theorem State.startRun_keeps {T r s x1 x2 x3 x4} (w : within [.disp] T = true) (h : Keeps T r s) : Keeps T r (State.startRun s x1 x2 x3 x4) := by
  refine Keeps.then (A := [.disp]) ?_ w h
  clear w h
  unfold State.startRun
  repeat' (first | ((with_reducible apply within_of); rfl) | with_reducible (first | exact Keeps.refl | apply State.modDisp_keeps | apply State.startPhase_keeps | apply Keeps.ite | apply Keeps.foldl | apply Keeps.forAll | apply Keeps.foldlPair | intro _ _) | split | dsimp only [refuse, okS, okB, okParts])

theorem State.dispDone_keeps {T r s x1 x2} (w : within [.host] T = true) (h : Keeps T r s) : Keeps T r (State.dispDone s x1 x2) := by
  refine Keeps.then (A := [.host]) ?_ w h
  clear w h
  unfold State.dispDone
  repeat' (first | ((with_reducible apply within_of); rfl) | with_reducible (first | exact Keeps.refl | apply State.raiseRaw_keeps | apply Keeps.ite | apply Keeps.foldl | apply Keeps.forAll | apply Keeps.foldlPair | intro _ _) | split | dsimp only [refuse, okS, okB, okParts])

theorem State.dispFault_keeps {T r s x1 x2 x3} (w : within [.host, .disp] T = true) (h : Keeps T r s) : Keeps T r (State.dispFault s x1 x2 x3) := by
  refine Keeps.then (A := [.host, .disp]) ?_ w h
  clear w h
  unfold State.dispFault
  repeat' (first | ((with_reducible apply within_of); rfl) | with_reducible (first | exact Keeps.refl | apply State.modDisp_keeps | apply State.raiseRaw_keeps | apply Keeps.ite | apply Keeps.foldl | apply Keeps.forAll | apply Keeps.foldlPair | intro _ _) | split | dsimp only [refuse, okS, okB, okParts])

theorem State.startRemainder_keeps {T r s x1 x2} (w : within [.disp] T = true) (h : Keeps T r s) : Keeps T r (State.startRemainder s x1 x2) := by
  refine Keeps.then (A := [.disp]) ?_ w h
  clear w h
  unfold State.startRemainder
  repeat' (first | ((with_reducible apply within_of); rfl) | with_reducible (first | exact Keeps.refl | apply State.modDisp_keeps | apply Keeps.ite | apply Keeps.foldl | apply Keeps.forAll | apply Keeps.foldlPair | intro _ _) | split | dsimp only [refuse, okS, okB, okParts])

theorem State.dispNext_keeps {T r s x1} (w : within [.host, .disp] T = true) (h : Keeps T r s) : Keeps T r (State.dispNext s x1) := by
  refine Keeps.then (A := [.host, .disp]) ?_ w h
  clear w h
  unfold State.dispNext
  repeat' (first | ((with_reducible apply within_of); rfl) | with_reducible (first | exact Keeps.refl | apply State.dispFault_keeps | apply State.modDisp_keeps | apply State.startRemainder_keeps | apply State.startRun_keeps | apply Keeps.ite | apply Keeps.foldl | apply Keeps.forAll | apply Keeps.foldlPair | intro _ _) | split | dsimp only [refuse, okS, okB, okParts])

theorem State.wantUpdate_keeps {T r s x1} (w : within [.host, .disp] T = true) (h : Keeps T r s) : Keeps T r (State.wantUpdate s x1) := by
  refine Keeps.then (A := [.host, .disp]) ?_ w h
  clear w h
  unfold State.wantUpdate
  repeat' (first | ((with_reducible apply within_of); rfl) | with_reducible (first | exact Keeps.refl | apply State.dispNext_keeps | apply State.modDisp_keeps | apply Keeps.ite | apply Keeps.foldl | apply Keeps.forAll | apply Keeps.foldlPair | intro _ _) | split | dsimp only [refuse, okS, okB, okParts])

theorem State.turnPage_keeps {T r s} (w : within [.host, .disp] T = true) (h : Keeps T r s) : Keeps T r (State.turnPage s) := by
  refine Keeps.then (A := [.host, .disp]) ?_ w h
  clear w h
  unfold State.turnPage
  repeat' (first | ((with_reducible apply within_of); rfl) | with_reducible (first | exact Keeps.refl | apply State.modDisp_keeps | apply State.wantUpdate_keeps | apply Keeps.ite | apply Keeps.foldl | apply Keeps.forAll | apply Keeps.foldlPair | intro _ _) | split | dsimp only [refuse, okS, okB, okParts])

theorem State.unpin_keeps {T r s} (w : within [.host, .disp] T = true) (h : Keeps T r s) : Keeps T r (State.unpin s) := by
  refine Keeps.then (A := [.host, .disp]) ?_ w h
  clear w h
  unfold State.unpin
  repeat' (first | ((with_reducible apply within_of); rfl) | with_reducible (first | exact Keeps.refl | apply State.modDisp_keeps | apply State.turnPage_keeps | apply Keeps.ite | apply Keeps.foldl | apply Keeps.forAll | apply Keeps.foldlPair | intro _ _) | split | dsimp only [refuse, okS, okB, okParts])

theorem serveDisplayPin_keeps {T r x0 s} (w : within [.host, .disp] T = true) (h : Keeps T r s) : Keeps T r (serveDisplayPin x0 s).st := by
  refine Keeps.then (A := [.host, .disp]) ?_ w h
  clear w h
  unfold serveDisplayPin okS refuse
  repeat' (first | ((with_reducible apply within_of); rfl) | with_reducible (first | exact Keeps.refl | apply State.modDisp_keeps | apply State.unpin_keeps | apply State.wantUpdate_keeps | apply Keeps.ite | apply Keeps.foldl | apply Keeps.forAll | apply Keeps.foldlPair | intro _ _) | split | dsimp only [refuse, okS, okB, okParts])

theorem serveDisplayUpdate_keeps {T r x0 s} (w : within [.host, .disp] T = true) (h : Keeps T r s) : Keeps T r (serveDisplayUpdate x0 s).st := by
  refine Keeps.then (A := [.host, .disp]) ?_ w h
  clear w h
  unfold serveDisplayUpdate noPayload okS refuse
  repeat' (first | ((with_reducible apply within_of); rfl) | with_reducible (first | exact Keeps.refl | apply State.dispNext_keeps | apply State.modDisp_keeps | apply Keeps.ite | apply Keeps.foldl | apply Keeps.forAll | apply Keeps.foldlPair | intro _ _) | split | dsimp only [refuse, okS, okB, okParts])

theorem State.updateEnd_keeps {T r s x1} (w : within [.host, .disp] T = true) (h : Keeps T r s) : Keeps T r (State.updateEnd s x1) := by
  refine Keeps.then (A := [.host, .disp]) ?_ w h
  clear w h
  unfold State.updateEnd
  repeat' (first | ((with_reducible apply within_of); rfl) | with_reducible (first | exact Keeps.refl | apply State.dispDone_keeps | apply State.dispOff_keeps | apply State.modDisp_keeps | apply Keeps.ite | apply Keeps.foldl | apply Keeps.forAll | apply Keeps.foldlPair | intro _ _) | split | dsimp only [refuse, okS, okB, okParts])

theorem State.railStart_keeps {T r s x1 x2 x3 x4} (w : within [.clk, .host, .disp, .pwr] T = true) (h : Keeps T r s) : Keeps T r (State.railStart s x1 x2 x3 x4) := by
  refine Keeps.then (A := [.clk, .host, .disp, .pwr]) ?_ w h
  clear w h
  unfold State.railStart
  repeat' (first | ((with_reducible apply within_of); rfl) | with_reducible (first | exact Keeps.refl | apply State.dispFault_keeps | apply State.dispNext_keeps | apply State.modDisp_keeps | apply State.readMram_keeps | apply Keeps.ite | apply Keeps.foldl | apply Keeps.forAll | apply Keeps.foldlPair | intro _ _) | split | dsimp only [refuse, okS, okB, okParts])

theorem serveDisplayTemperature_keeps {T r x0 s} (w : within [.disp] T = true) (h : Keeps T r s) : Keeps T r (serveDisplayTemperature x0 s).st := by
  refine Keeps.then (A := [.disp]) ?_ w h
  clear w h
  unfold serveDisplayTemperature okS refuse
  repeat' (first | ((with_reducible apply within_of); rfl) | with_reducible (first | exact Keeps.refl | apply State.modDisp_keeps | apply Keeps.ite | apply Keeps.foldl | apply Keeps.forAll | apply Keeps.foldlPair | intro _ _) | split | dsimp only [refuse, okS, okB, okParts])

theorem serveDisplayWaveform_keeps {T r x0 x1 s} (w : within [.host, .log, .disp] T = true) (h : Keeps T r s) : Keeps T r (serveDisplayWaveform x0 x1 s).st := by
  refine Keeps.then (A := [.host, .log, .disp]) ?_ w h
  clear w h
  unfold serveDisplayWaveform withSeal withLog okS refuse
  repeat' (first | ((with_reducible apply within_of); rfl) | with_reducible (first | exact Keeps.refl | apply State.enterHost_keeps | apply State.logRefused_keeps | apply State.modDisp_keeps | apply Keeps.ite | apply Keeps.foldl | apply Keeps.forAll | apply Keeps.foldlPair | intro _ _) | split | dsimp only [refuse, okS, okB, okParts])

theorem execDisplayPageChange_keeps {x0 s} : KeepsO [.clk, .host, .disp] s (execDisplayPageChange x0 s) := by
  unfold execDisplayPageChange
  repeat' (first | ((with_reducible apply within_of); rfl) | with_reducible (first | exact Keeps.refl | apply State.at_keeps | apply State.turnPage_keeps | apply KeepsO.next | exact KeepsO.fault | apply KeepsO.ite | apply Keeps.ite | apply Keeps.foldl | apply Keeps.forAll | apply Keeps.foldlPair | intro _ _) | split | dsimp only [refuse, okS, okB, okParts])

theorem execDisplayPin_keeps {x0 x1 s} : KeepsO [.clk, .host, .disp] s (execDisplayPin x0 x1 s) := hostCmd_keeps (A := [.host, .disp]) (fun _ _ => serveDisplayPin_keeps rfl Keeps.refl) rfl rfl

theorem execDisplayUpdate_keeps {x0 x1 s} : KeepsO [.clk, .host, .disp] s (execDisplayUpdate x0 x1 s) := hostCmd_keeps (A := [.host, .disp]) (fun _ _ => serveDisplayUpdate_keeps rfl Keeps.refl) rfl rfl

theorem execDisplayTemperature_keeps {x0 x1 s} : KeepsO [.clk, .host, .disp] s (execDisplayTemperature x0 x1 s) := hostCmd_keeps (A := [.disp]) (fun _ _ => serveDisplayTemperature_keeps rfl Keeps.refl) rfl rfl

theorem State.endRun_keeps {T r s x1 x2} (w : within [.host, .disp] T = true) (h : Keeps T r s) : Keeps T r (State.endRun s x1 x2) := by
  refine Keeps.then (A := [.host, .disp]) ?_ w h
  clear w h
  unfold State.endRun
  repeat' (first | ((with_reducible apply within_of); rfl) | with_reducible (first | exact Keeps.refl | apply State.dispDone_keeps | apply State.dispNext_keeps | apply State.dispOff_keeps | apply State.frontLight_keeps | apply State.modDisp_keeps | apply State.startPhase_keeps | apply State.updateEnd_keeps | apply Keeps.ite | apply Keeps.foldl | apply Keeps.forAll | apply Keeps.foldlPair | intro _ _) | split | dsimp only [refuse, okS, okB, okParts])

theorem execDisplayPhaseEnd_keeps {x0 s} : KeepsO [.clk, .host, .disp] s (execDisplayPhaseEnd x0 s) := by
  unfold execDisplayPhaseEnd
  repeat' (first | ((with_reducible apply within_of); rfl) | with_reducible (first | exact Keeps.refl | apply State.at_keeps | apply State.endRun_keeps | apply State.modDisp_keeps | apply State.startPhase_keeps | apply KeepsO.next | exact KeepsO.fault | apply KeepsO.ite | apply Keeps.ite | apply Keeps.foldl | apply Keeps.forAll | apply Keeps.foldlPair | intro _ _) | split | dsimp only [refuse, okS, okB, okParts])

theorem execDisplayBookMark_keeps {x0 s} : KeepsO [.clk, .disp] s (execDisplayBookMark x0 s) := by
  unfold execDisplayBookMark
  repeat' (first | ((with_reducible apply within_of); rfl) | with_reducible (first | exact Keeps.refl | apply State.at_keeps | apply State.modDisp_keeps | apply KeepsO.next | exact KeepsO.fault | apply KeepsO.ite | apply Keeps.ite | apply Keeps.foldl | apply Keeps.forAll | apply Keeps.foldlPair | intro _ _) | split | dsimp only [refuse, okS, okB, okParts])

theorem execDisplayStartRetry_keeps {x0 x1 x2 x3 s} : KeepsO [.clk, .host, .disp, .pwr] s (execDisplayStartRetry x0 x1 x2 x3 s) := by
  unfold execDisplayStartRetry
  repeat' (first | ((with_reducible apply within_of); rfl) | with_reducible (first | exact Keeps.refl | apply State.at_keeps | apply State.railStart_keeps | apply KeepsO.next | exact KeepsO.fault | apply KeepsO.ite | apply Keeps.ite | apply Keeps.foldl | apply Keeps.forAll | apply Keeps.foldlPair | intro _ _) | split | dsimp only [refuse, okS, okB, okParts])

theorem execDisplayWaveform_keeps {x0 x1 s} : KeepsO [.clk, .host, .log, .disp] s (execDisplayWaveform x0 x1 s) := hostCmd_keeps (A := [.host, .log, .disp]) (fun _ _ => serveDisplayWaveform_keeps rfl Keeps.refl) rfl rfl

theorem execDisplayRefresh_keeps {x0 s} : KeepsO [.clk, .host, .disp] s (execDisplayRefresh x0 s) := by
  unfold execDisplayRefresh
  repeat' (first | ((with_reducible apply within_of); rfl) | with_reducible (first | exact Keeps.refl | apply State.at_keeps | apply State.modDisp_keeps | apply State.wantUpdate_keeps | apply KeepsO.next | exact KeepsO.fault | apply KeepsO.ite | apply Keeps.ite | apply Keeps.foldl | apply Keeps.forAll | apply Keeps.foldlPair | intro _ _) | split | dsimp only [refuse, okS, okB, okParts])

theorem execDisplayPinExpiry_keeps {x0 s} : KeepsO [.clk, .host, .disp] s (execDisplayPinExpiry x0 s) := by
  unfold execDisplayPinExpiry
  repeat' (first | ((with_reducible apply within_of); rfl) | with_reducible (first | exact Keeps.refl | apply State.at_keeps | apply State.unpin_keeps | apply KeepsO.next | exact KeepsO.fault | apply KeepsO.ite | apply Keeps.ite | apply Keeps.foldl | apply Keeps.forAll | apply Keeps.foldlPair | intro _ _) | split | dsimp only [refuse, okS, okB, okParts])

theorem execDisplayRailTimeout_keeps {x0 s} : KeepsO [.clk, .host, .disp] s (execDisplayRailTimeout x0 s) := by
  unfold execDisplayRailTimeout
  repeat' (first | ((with_reducible apply within_of); rfl) | with_reducible (first | exact Keeps.refl | apply State.at_keeps | apply State.dispFault_keeps | apply State.modDisp_keeps | apply KeepsO.next | exact KeepsO.fault | apply KeepsO.ite | apply Keeps.ite | apply Keeps.foldl | apply Keeps.forAll | apply Keeps.foldlPair | intro _ _) | split | dsimp only [refuse, okS, okB, okParts])

theorem execDisplayTempExpiry_keeps {x0 s} : KeepsO [.clk, .disp] s (execDisplayTempExpiry x0 s) := by
  unfold execDisplayTempExpiry
  repeat' (first | ((with_reducible apply within_of); rfl) | with_reducible (first | exact Keeps.refl | apply State.at_keeps | apply State.modDisp_keeps | apply KeepsO.next | exact KeepsO.fault | apply KeepsO.ite | apply Keeps.ite | apply Keeps.foldl | apply Keeps.forAll | apply Keeps.foldlPair | intro _ _) | split | dsimp only [refuse, okS, okB, okParts])

theorem execDisplayStart_keeps {x0 x1 x2 x3 s} : KeepsO [.clk, .host, .disp, .pwr] s (execDisplayStart x0 x1 x2 x3 s) := by
  unfold execDisplayStart
  repeat' (first | ((with_reducible apply within_of); rfl) | with_reducible (first | exact Keeps.refl | apply State.at_keeps | apply State.railStart_keeps | apply KeepsO.next | exact KeepsO.fault | apply KeepsO.ite | apply Keeps.ite | apply Keeps.foldl | apply Keeps.forAll | apply Keeps.foldlPair | intro _ _) | split | dsimp only [refuse, okS, okB, okParts])

theorem execDisplayOvercurrent_keeps {x0 x1 s} : KeepsO [.clk, .host, .disp] s (execDisplayOvercurrent x0 x1 s) := by
  unfold execDisplayOvercurrent
  repeat' (first | ((with_reducible apply within_of); rfl) | with_reducible (first | exact Keeps.refl | apply State.at_keeps | apply State.dispFault_keeps | apply KeepsO.next | exact KeepsO.fault | apply KeepsO.ite | apply Keeps.ite | apply Keeps.foldl | apply Keeps.forAll | apply Keeps.foldlPair | intro _ _) | split | dsimp only [refuse, okS, okB, okParts])

end Sys2Proof.Machine
end

