-- ==== Sys2Proof/Laws/KeepsFluid.lean ====
section
/-!
SUPPORT. Which parts of the state each operation of Machine/Fluid.lean leaves as they are.
-/

namespace Sys2Proof.Machine

theorem State.modFl_keeps {T r s x1 x2} (w : within [.pts] T = true) (h : Keeps T r s) : Keeps T r (State.modFl s x1 x2) := by
  refine Keeps.then (A := [.pts]) ?_ w h
  clear w h
  unfold State.modFl
  repeat' (first | ((with_reducible apply within_of); rfl) | with_reducible (first | exact Keeps.refl | apply State.modPt_keeps | apply Keeps.ite | apply Keeps.foldl | apply Keeps.forAll | apply Keeps.foldlPair | intro _ _) | split | dsimp only [refuse, okS, okB, okParts])

theorem State.burstOrifice_keeps {T r s x1 x2 x3 x4 x5 x6} (w : within [.pts] T = true) (h : Keeps T r s) : Keeps T r (State.burstOrifice s x1 x2 x3 x4 x5 x6) := by
  refine Keeps.then (A := [.pts]) ?_ w h
  clear w h
  unfold State.burstOrifice
  repeat' (first | ((with_reducible apply within_of); rfl) | with_reducible (first | exact Keeps.refl | apply State.modFl_keeps | apply Keeps.ite | apply Keeps.foldl | apply Keeps.forAll | apply Keeps.foldlPair | intro _ _) | split | dsimp only [refuse, okS, okB, okParts])

theorem State.regionEvent_keeps {T r s x1 x2 x3 x4 x5 x6 x7 x8} (w : within [.host] T = true) (h : Keeps T r s) : Keeps T r (State.regionEvent s x1 x2 x3 x4 x5 x6 x7 x8) := by
  refine Keeps.then (A := [.host]) ?_ w h
  clear w h
  unfold State.regionEvent
  repeat' (first | ((with_reducible apply within_of); rfl) | with_reducible (first | exact Keeps.refl | apply State.raiseAt_keeps | apply Keeps.ite | apply Keeps.foldl | apply Keeps.forAll | apply Keeps.foldlPair | intro _ _) | split | dsimp only [refuse, okS, okB, okParts])

theorem State.evalState_keeps {T r s x1 x2 x3 x4 x5 x6 x7} (w : within [.host, .pts] T = true) (h : Keeps T r s) : Keeps T r (State.evalState s x1 x2 x3 x4 x5 x6 x7) := by
  refine Keeps.then (A := [.host, .pts]) ?_ w h
  clear w h
  unfold State.evalState
  repeat' (first | ((with_reducible apply within_of); rfl) | with_reducible (first | exact Keeps.refl | apply State.modFl_keeps | apply State.regionEvent_keeps | apply Keeps.ite | apply Keeps.foldl | apply Keeps.forAll | apply Keeps.foldlPair | intro _ _) | split | dsimp only [refuse, okS, okB, okParts])

theorem State.burst_keeps {T r s x1 x2 x3} (w : within [.host, .pts] T = true) (h : Keeps T r s) : Keeps T r (State.burst s x1 x2 x3) := by
  refine Keeps.then (A := [.host, .pts]) ?_ w h
  clear w h
  unfold State.burst
  repeat' (first | ((with_reducible apply within_of); rfl) | with_reducible (first | exact Keeps.refl | apply State.burstOrifice_keeps | apply State.evalState_keeps | apply State.modFl_keeps | apply Keeps.ite | apply Keeps.foldl | apply Keeps.forAll | apply Keeps.foldlPair | intro _ _) | split | dsimp only [refuse, okS, okB, okParts])

theorem State.modRole_keeps {T r s x1 x2 x3} (w : within [.pts] T = true) (h : Keeps T r s) : Keeps T r (State.modRole s x1 x2 x3) := by
  refine Keeps.then (A := [.pts]) ?_ w h
  clear w h
  unfold State.modRole
  repeat' (first | ((with_reducible apply within_of); rfl) | with_reducible (first | exact Keeps.refl | apply State.modPt_keeps | apply Keeps.ite | apply Keeps.foldl | apply Keeps.forAll | apply Keeps.foldlPair | intro _ _) | split | dsimp only [refuse, okS, okB, okParts])

theorem State.takeRole_keeps {T r s x1 x2 x3 x4} (w : within [.pts] T = true) (h : Keeps T r s) : Keeps T r (State.takeRole s x1 x2 x3 x4) := by
  refine Keeps.then (A := [.pts]) ?_ w h
  clear w h
  unfold State.takeRole
  repeat' (first | ((with_reducible apply within_of); rfl) | with_reducible (first | exact Keeps.refl | apply State.modRole_keeps | apply Keeps.ite | apply Keeps.foldl | apply Keeps.forAll | apply Keeps.foldlPair | intro _ _) | split | dsimp only [refuse, okS, okB, okParts])

theorem State.faultEvent_keeps {T r s x1 x2 x3 x4} (w : within [.host] T = true) (h : Keeps T r s) : Keeps T r (State.faultEvent s x1 x2 x3 x4) := by
  refine Keeps.then (A := [.host]) ?_ w h
  clear w h
  unfold State.faultEvent
  repeat' (first | ((with_reducible apply within_of); rfl) | with_reducible (first | exact Keeps.refl | apply State.raiseAt_keeps | apply Keeps.ite | apply Keeps.foldl | apply Keeps.forAll | apply Keeps.foldlPair | intro _ _) | split | dsimp only [refuse, okS, okB, okParts])

theorem State.putFault_keeps {T r s x1 x2 x3 x4} (w : within [.slices, .pts] T = true) (h : Keeps T r s) : Keeps T r (State.putFault s x1 x2 x3 x4) := by
  refine Keeps.then (A := [.slices, .pts]) ?_ w h
  clear w h
  unfold State.putFault
  repeat' (first | ((with_reducible apply within_of); rfl) | with_reducible (first | exact Keeps.refl | apply State.modFl_keeps | apply State.modRole_keeps | apply State.modSlice_keeps | apply Keeps.ite | apply Keeps.foldl | apply Keeps.forAll | apply Keeps.foldlPair | intro _ _) | split | dsimp only [refuse, okS, okB, okParts])

theorem execSensorFaultDeclared_keeps {x0 x1 x2 x3 s} : KeepsO [.clk, .host, .slices, .pts] s (execSensorFaultDeclared x0 x1 x2 x3 s) := by
  unfold execSensorFaultDeclared
  repeat' (first | ((with_reducible apply within_of); rfl) | with_reducible (first | exact Keeps.refl | apply State.at_keeps | apply State.faultEvent_keeps | apply State.putFault_keeps | apply KeepsO.next | exact KeepsO.fault | apply KeepsO.ite | apply Keeps.ite | apply Keeps.foldl | apply Keeps.forAll | apply Keeps.foldlPair | intro _ _) | split | dsimp only [refuse, okS, okB, okParts])

theorem State.reversal_keeps {T r s x1 x2 x3} (w : within [.host, .pts] T = true) (h : Keeps T r s) : Keeps T r (State.reversal s x1 x2 x3) := by
  refine Keeps.then (A := [.host, .pts]) ?_ w h
  clear w h
  unfold State.reversal
  repeat' (first | ((with_reducible apply within_of); rfl) | with_reducible (first | exact Keeps.refl | apply State.countStart_keeps | apply State.modFl_keeps | apply State.raiseAt_keeps | apply Keeps.ite | apply Keeps.foldl | apply Keeps.forAll | apply Keeps.foldlPair | intro _ _) | split | dsimp only [refuse, okS, okB, okParts])

theorem State.takePulses_keeps {T r s x1 x2 x3 x4} (w : within [.pts] T = true) (h : Keeps T r s) : Keeps T r (State.takePulses s x1 x2 x3 x4) := by
  refine Keeps.then (A := [.pts]) ?_ w h
  clear w h
  unfold State.takePulses
  repeat' (first | ((with_reducible apply within_of); rfl) | with_reducible (first | exact Keeps.refl | apply State.modFl_keeps | apply Keeps.ite | apply Keeps.foldl | apply Keeps.forAll | apply Keeps.foldlPair | intro _ _) | split | dsimp only [refuse, okS, okB, okParts])

theorem State.fluidFrame_keeps {T r s x1 x2 x3} (w : within [.host, .pts] T = true) (h : Keeps T r s) : Keeps T r (State.fluidFrame s x1 x2 x3).1 := by
  refine Keeps.then (A := [.host, .pts]) ?_ w h
  clear w h
  unfold State.fluidFrame
  repeat' (first | ((with_reducible apply within_of); rfl) | with_reducible (first | exact Keeps.refl | apply State.burst_keeps | apply State.modFl_keeps | apply State.modPt_keeps | apply State.reversal_keeps | apply State.takePulses_keeps | apply State.takeRole_keeps | apply Keeps.ite | apply Keeps.foldl | apply Keeps.forAll | apply Keeps.foldlPair | intro _ _) | split | dsimp only [refuse, okS, okB, okParts])

theorem execExcitationCompliance_keeps {x0 x1 x2 s} : KeepsO [.clk, .pts] s (execExcitationCompliance x0 x1 x2 s) := by
  unfold execExcitationCompliance
  repeat' (first | ((with_reducible apply within_of); rfl) | with_reducible (first | exact Keeps.refl | apply State.at_keeps | apply State.modFl_keeps | apply KeepsO.next | exact KeepsO.fault | apply KeepsO.ite | apply Keeps.ite | apply Keeps.foldl | apply Keeps.forAll | apply Keeps.foldlPair | intro _ _) | split | dsimp only [refuse, okS, okB, okParts])

theorem execPulseEdge_keeps {x0 x1 x2 x3 x4 x5 s} : KeepsO [.clk, .pts] s (execPulseEdge x0 x1 x2 x3 x4 x5 s) := by
  unfold execPulseEdge
  repeat' (first | ((with_reducible apply within_of); rfl) | with_reducible (first | exact Keeps.refl | apply State.at_keeps | apply State.bump_keeps | apply State.modPt_keeps | apply KeepsO.next | exact KeepsO.fault | apply KeepsO.ite | apply Keeps.ite | apply Keeps.foldl | apply Keeps.forAll | apply Keeps.foldlPair | intro _ _) | split | dsimp only [refuse, okS, okB, okParts])

theorem execSensorFaultCleared_keeps {x0 x1 x2 x3 s} : KeepsO [.clk, .host, .slices, .pts] s (execSensorFaultCleared x0 x1 x2 x3 s) := by
  unfold execSensorFaultCleared
  repeat' (first | ((with_reducible apply within_of); rfl) | with_reducible (first | exact Keeps.refl | apply State.at_keeps | apply State.faultEvent_keeps | apply State.modFl_keeps | apply State.putFault_keeps | apply KeepsO.next | exact KeepsO.fault | apply KeepsO.ite | apply Keeps.ite | apply Keeps.foldl | apply Keeps.forAll | apply Keeps.foldlPair | intro _ _) | split | dsimp only [refuse, okS, okB, okParts])

end Sys2Proof.Machine
end

