-- ==== Sys2Proof/Laws/KeepsQuality.lean ====
section
/-!
SUPPORT. Which parts of the state each operation of Machine/Quality.lean leaves as they are.
-/

namespace Sys2Proof.Machine

theorem State.capPush_keeps {T r s x1} (w : within [.host] T = true) (h : Keeps T r s) : Keeps T r (State.capPush s x1) := by
  refine Keeps.then (A := [.host]) ?_ w h
  clear w h
  unfold State.capPush
  repeat' (first | ((with_reducible apply within_of); rfl) | with_reducible (first | exact Keeps.refl | apply State.modStream_keeps | apply Keeps.ite | apply Keeps.foldl | apply Keeps.forAll | apply Keeps.foldlPair | intro _ _) | split | dsimp only [refuse, okS, okB, okParts])

theorem State.capTrailer_keeps {T r s x1 x2} (w : within [.host, .eng] T = true) (h : Keeps T r s) : Keeps T r (State.capTrailer s x1 x2) := by
  refine Keeps.then (A := [.host, .eng]) ?_ w h
  clear w h
  unfold State.capTrailer
  repeat' (first | ((with_reducible apply within_of); rfl) | with_reducible (first | exact Keeps.refl | apply State.modEng_keeps | apply State.modStream_keeps | apply State.unitDone_keeps | apply Keeps.ite | apply Keeps.foldl | apply Keeps.forAll | apply Keeps.foldlPair | intro _ _) | split | dsimp only [refuse, okS, okB, okParts])

theorem State.capFrame_keeps {T r s x1} (w : within [.host, .eng] T = true) (h : Keeps T r s) : Keeps T r (State.capFrame s x1) := by
  refine Keeps.then (A := [.host, .eng]) ?_ w h
  clear w h
  unfold State.capFrame
  repeat' (first | ((with_reducible apply within_of); rfl) | with_reducible (first | exact Keeps.refl | apply State.capPush_keeps | apply State.capTrailer_keeps | apply State.modEng_keeps | apply State.wordLost_keeps | apply Keeps.ite | apply Keeps.foldl | apply Keeps.forAll | apply Keeps.foldlPair | intro _ _) | split | dsimp only [refuse, okS, okB, okParts])

theorem State.capTrigger_keeps {T r s x1 x2 x3} (w : within [.host, .eng] T = true) (h : Keeps T r s) : Keeps T r (State.capTrigger s x1 x2 x3) := by
  refine Keeps.then (A := [.host, .eng]) ?_ w h
  clear w h
  unfold State.capTrigger
  repeat' (first | ((with_reducible apply within_of); rfl) | with_reducible (first | exact Keeps.refl | apply State.capFrame_keeps | apply State.capPush_keeps | apply State.modEng_keeps | apply Keeps.ite | apply Keeps.foldl | apply Keeps.forAll | apply Keeps.foldlPair | intro _ _) | split | dsimp only [refuse, okS, okB, okParts])

theorem State.shEvent_keeps {T r s x1 x2 x3 x4 x5 x6 x7} (w : within [.host] T = true) (h : Keeps T r s) : Keeps T r (State.shEvent s x1 x2 x3 x4 x5 x6 x7) := by
  refine Keeps.then (A := [.host]) ?_ w h
  clear w h
  unfold State.shEvent
  repeat' (first | ((with_reducible apply within_of); rfl) | with_reducible (first | exact Keeps.refl | apply State.raiseRaw_keeps | apply Keeps.ite | apply Keeps.foldl | apply Keeps.forAll | apply Keeps.foldlPair | intro _ _) | split | dsimp only [refuse, okS, okB, okParts])

theorem State.publishBlock_keeps {T r s x1 x2 x3} (w : within [.host, .eng, .pts] T = true) (h : Keeps T r s) : Keeps T r (State.publishBlock s x1 x2 x3) := by
  refine Keeps.then (A := [.host, .eng, .pts]) ?_ w h
  clear w h
  unfold State.publishBlock
  repeat' (first | ((with_reducible apply within_of); rfl) | with_reducible (first | exact Keeps.refl | apply State.capTrigger_keeps | apply State.modPt_keeps | apply State.shEvent_keeps | apply Keeps.ite | apply Keeps.foldl | apply Keeps.forAll | apply Keeps.foldlPair | intro _ _) | split | dsimp only [refuse, okS, okB, okParts])

theorem State.pqEvent_keeps {T r s x1 x2 x3 x4 x5 x6} (w : within [.host] T = true) (h : Keeps T r s) : Keeps T r (State.pqEvent s x1 x2 x3 x4 x5 x6) := by
  refine Keeps.then (A := [.host]) ?_ w h
  clear w h
  unfold State.pqEvent
  repeat' (first | ((with_reducible apply within_of); rfl) | with_reducible (first | exact Keeps.refl | apply State.raiseMid_keeps | apply Keeps.ite | apply Keeps.foldl | apply Keeps.forAll | apply Keeps.foldlPair | intro _ _) | split | dsimp only [refuse, okS, okB, okParts])

theorem State.pqKind_keeps {T r s x1 x2 x3 x4 x5} (w : within [.host, .eng, .pts] T = true) (h : Keeps T r s) : Keeps T r (State.pqKind s x1 x2 x3 x4 x5) := by
  refine Keeps.then (A := [.host, .eng, .pts]) ?_ w h
  clear w h
  unfold State.pqKind
  repeat' (first | ((with_reducible apply within_of); rfl) | with_reducible (first | exact Keeps.refl | apply State.capTrigger_keeps | apply State.modPt_keeps | apply State.pqEvent_keeps | apply Keeps.ite | apply Keeps.foldl | apply Keeps.forAll | apply Keeps.foldlPair | intro _ _) | split | dsimp only [refuse, okS, okB, okParts])

theorem State.openWindow_keeps {T r s x1 x2} (w : within [.pts] T = true) (h : Keeps T r s) : Keeps T r (State.openWindow s x1 x2) := by
  refine Keeps.then (A := [.pts]) ?_ w h
  clear w h
  unfold State.openWindow
  repeat' (first | ((with_reducible apply within_of); rfl) | with_reducible (first | exact Keeps.refl | apply State.modPt_keeps | apply Keeps.ite | apply Keeps.foldl | apply Keeps.forAll | apply Keeps.foldlPair | intro _ _) | split | dsimp only [refuse, okS, okB, okParts])

theorem State.dropWindow_keeps {T r s x1 x2} (w : within [.pts] T = true) (h : Keeps T r s) : Keeps T r (State.dropWindow s x1 x2) := by
  refine Keeps.then (A := [.pts]) ?_ w h
  clear w h
  unfold State.dropWindow
  repeat' (first | ((with_reducible apply within_of); rfl) | with_reducible (first | exact Keeps.refl | apply State.modPt_keeps | apply Keeps.ite | apply Keeps.foldl | apply Keeps.forAll | apply Keeps.foldlPair | intro _ _) | split | dsimp only [refuse, okS, okB, okParts])

theorem State.pqEndAll_keeps {T r s x1 x2 x3} (w : within [.host, .pts] T = true) (h : Keeps T r s) : Keeps T r (State.pqEndAll s x1 x2 x3) := by
  refine Keeps.then (A := [.host, .pts]) ?_ w h
  clear w h
  unfold State.pqEndAll
  repeat' (first | ((with_reducible apply within_of); rfl) | with_reducible (first | exact Keeps.refl | apply State.modPt_keeps | apply State.pqEvent_keeps | apply Keeps.ite | apply Keeps.foldl | apply Keeps.forAll | apply Keeps.foldlPair | intro _ _) | split | dsimp only [refuse, okS, okB, okParts])

theorem State.leaveSpectrum_keeps {T r s x1} (w : within [.host, .pts] T = true) (h : Keeps T r s) : Keeps T r (State.leaveSpectrum s x1) := by
  refine Keeps.then (A := [.host, .pts]) ?_ w h
  clear w h
  unfold State.leaveSpectrum
  repeat' (first | ((with_reducible apply within_of); rfl) | with_reducible (first | exact Keeps.refl | apply State.modPt_keeps | apply State.shEvent_keeps | apply Keeps.ite | apply Keeps.foldl | apply Keeps.forAll | apply Keeps.foldlPair | intro _ _) | split | dsimp only [refuse, okS, okB, okParts])

theorem State.capStep_keeps {T r s x1 x2} (w : within [.host, .eng, .pts] T = true) (h : Keeps T r s) : Keeps T r (State.capStep s x1 x2) := by
  refine Keeps.then (A := [.host, .eng, .pts]) ?_ w h
  clear w h
  unfold State.capStep
  repeat' (first | ((with_reducible apply within_of); rfl) | with_reducible (first | exact Keeps.refl | apply State.capFrame_keeps | apply State.modPt_keeps | apply Keeps.ite | apply Keeps.foldl | apply Keeps.forAll | apply Keeps.foldlPair | intro _ _) | split | dsimp only [refuse, okS, okB, okParts])

theorem State.pqDetect_keeps {T r s x1 x2 x3 x4} (w : within [.host, .eng, .pts] T = true) (h : Keeps T r s) : Keeps T r (State.pqDetect s x1 x2 x3 x4) := by
  refine Keeps.then (A := [.host, .eng, .pts]) ?_ w h
  clear w h
  unfold State.pqDetect
  repeat' (first | ((with_reducible apply within_of); rfl) | with_reducible (first | exact Keeps.refl | apply State.modPt_keeps | apply State.pqEndAll_keeps | apply State.pqKind_keeps | apply Keeps.ite | apply Keeps.foldl | apply Keeps.forAll | apply Keeps.foldlPair | intro _ _) | split | dsimp only [refuse, okS, okB, okParts])

theorem State.spectrum_keeps {T r s x1 x2 x3} (w : within [.pts] T = true) (h : Keeps T r s) : Keeps T r (State.spectrum s x1 x2 x3) := by
  refine Keeps.then (A := [.pts]) ?_ w h
  clear w h
  unfold State.spectrum
  repeat' (first | ((with_reducible apply within_of); rfl) | with_reducible (first | exact Keeps.refl | apply State.modPt_keeps | apply Keeps.ite | apply Keeps.foldl | apply Keeps.forAll | apply Keeps.foldlPair | intro _ _) | split | dsimp only [refuse, okS, okB, okParts])

theorem State.supraFrame_keeps {T r s x1 x2 x3 x4} (w : within [.host, .eng, .pts] T = true) (h : Keeps T r s) : Keeps T r (State.supraFrame s x1 x2 x3 x4) := by
  refine Keeps.then (A := [.host, .eng, .pts]) ?_ w h
  clear w h
  unfold State.supraFrame
  repeat' (first | ((with_reducible apply within_of); rfl) | with_reducible (first | exact Keeps.refl | apply State.modPt_keeps | apply State.publishBlock_keeps | apply State.spectrum_keeps | apply Keeps.ite | apply Keeps.foldl | apply Keeps.forAll | apply Keeps.foldlPair | intro _ _) | split | dsimp only [refuse, okS, okB, okParts])

theorem State.keepSamples_keeps {T r s x1 x2 x3 x4} (w : within [.pts] T = true) (h : Keeps T r s) : Keeps T r (State.keepSamples s x1 x2 x3 x4) := by
  refine Keeps.then (A := [.pts]) ?_ w h
  clear w h
  unfold State.keepSamples
  repeat' (first | ((with_reducible apply within_of); rfl) | with_reducible (first | exact Keeps.refl | apply State.modPt_keeps | apply Keeps.ite | apply Keeps.foldl | apply Keeps.forAll | apply Keeps.foldlPair | intro _ _) | split | dsimp only [refuse, okS, okB, okParts])

theorem State.harmLimits_keeps {T r s x1 x2 x3 x4} (w : within [.host, .eng, .pts] T = true) (h : Keeps T r s) : Keeps T r (State.harmLimits s x1 x2 x3 x4) := by
  refine Keeps.then (A := [.host, .eng, .pts]) ?_ w h
  clear w h
  unfold State.harmLimits
  repeat' (first | ((with_reducible apply within_of); rfl) | with_reducible (first | exact Keeps.refl | apply State.capTrigger_keeps | apply State.modPt_keeps | apply State.raiseRaw_keeps | apply Keeps.ite | apply Keeps.foldl | apply Keeps.forAll | apply Keeps.foldlPair | intro _ _) | split | dsimp only [refuse, okS, okB, okParts])

theorem State.closeWindow_keeps {T r s x1 x2 x3 x4 x5 x6} (w : within [.host, .eng, .pts] T = true) (h : Keeps T r s) : Keeps T r (State.closeWindow s x1 x2 x3 x4 x5 x6) := by
  refine Keeps.then (A := [.host, .eng, .pts]) ?_ w h
  clear w h
  unfold State.closeWindow
  repeat' (first | ((with_reducible apply within_of); rfl) | with_reducible (first | exact Keeps.refl | apply State.addReading_keeps | apply State.harmLimits_keeps | apply State.modPt_keeps | apply Keeps.ite | apply Keeps.foldl | apply Keeps.forAll | apply Keeps.foldlPair | intro _ _) | split | dsimp only [refuse, okS, okB, okParts])

theorem State.endWindow_keeps {T r s x1 x2 x3 x4 x5} (w : within [.host, .eng, .pts] T = true) (h : Keeps T r s) : Keeps T r (State.endWindow s x1 x2 x3 x4 x5) := by
  refine Keeps.then (A := [.host, .eng, .pts]) ?_ w h
  clear w h
  unfold State.endWindow
  repeat' (first | ((with_reducible apply within_of); rfl) | with_reducible (first | exact Keeps.refl | apply State.closeWindow_keeps | apply State.dropWindow_keeps | apply State.openWindow_keeps | apply Keeps.ite | apply Keeps.foldl | apply Keeps.forAll | apply Keeps.foldlPair | intro _ _) | split | dsimp only [refuse, okS, okB, okParts])

theorem State.windowCross_keeps {T r s x1 x2 x3 x4} (w : within [.host, .eng, .pts] T = true) (h : Keeps T r s) : Keeps T r (State.windowCross s x1 x2 x3 x4) := by
  refine Keeps.then (A := [.host, .eng, .pts]) ?_ w h
  clear w h
  unfold State.windowCross
  repeat' (first | ((with_reducible apply within_of); rfl) | with_reducible (first | exact Keeps.refl | apply State.dropWindow_keeps | apply State.endWindow_keeps | apply State.modPt_keeps | apply State.openWindow_keeps | apply Keeps.ite | apply Keeps.foldl | apply Keeps.forAll | apply Keeps.foldlPair | intro _ _) | split | dsimp only [refuse, okS, okB, okParts])

theorem State.windowNominal_keeps {T r s x1 x2 x3 x4} (w : within [.host, .eng, .pts] T = true) (h : Keeps T r s) : Keeps T r (State.windowNominal s x1 x2 x3 x4) := by
  refine Keeps.then (A := [.host, .eng, .pts]) ?_ w h
  clear w h
  unfold State.windowNominal
  repeat' (first | ((with_reducible apply within_of); rfl) | with_reducible (first | exact Keeps.refl | apply State.endWindow_keeps | apply State.openWindow_keeps | apply Keeps.ite | apply Keeps.foldl | apply Keeps.forAll | apply Keeps.foldlPair | intro _ _) | split | dsimp only [refuse, okS, okB, okParts])

theorem State.windowFrame_keeps {T r s x1 x2 x3 x4 x5} (w : within [.host, .eng, .pts] T = true) (h : Keeps T r s) : Keeps T r (State.windowFrame s x1 x2 x3 x4 x5) := by
  refine Keeps.then (A := [.host, .eng, .pts]) ?_ w h
  clear w h
  unfold State.windowFrame
  repeat' (first | ((with_reducible apply within_of); rfl) | with_reducible (first | exact Keeps.refl | apply State.keepSamples_keeps | apply State.modPt_keeps | apply State.windowCross_keeps | apply State.windowNominal_keeps | apply Keeps.ite | apply Keeps.foldl | apply Keeps.forAll | apply Keeps.foldlPair | intro _ _) | split | dsimp only [refuse, okS, okB, okParts])

theorem servePointSupraharmonics_keeps {T r x0 s} (w : within [] T = true) (h : Keeps T r s) : Keeps T r (servePointSupraharmonics x0 s).st := by
  refine Keeps.then (A := []) ?_ w h
  clear w h
  unfold servePointSupraharmonics okParts refuse
  repeat' (first | ((with_reducible apply within_of); rfl) | with_reducible (first | exact Keeps.refl | apply Keeps.ite | apply Keeps.foldl | apply Keeps.forAll | apply Keeps.foldlPair | intro _ _) | split | dsimp only [refuse, okS, okB, okParts])

theorem serveCapture_keeps {T r x0 s} (w : within [.host, .eng] T = true) (h : Keeps T r s) : Keeps T r (serveCapture x0 s).st := by
  refine Keeps.then (A := [.host, .eng]) ?_ w h
  clear w h
  unfold serveCapture onPoint okS refuse
  repeat' (first | ((with_reducible apply within_of); rfl) | with_reducible (first | exact Keeps.refl | apply State.capTrigger_keeps | apply Keeps.ite | apply Keeps.foldl | apply Keeps.forAll | apply Keeps.foldlPair | intro _ _) | split | dsimp only [refuse, okS, okB, okParts])

theorem servePointHarmonics_keeps {T r x0 s} (w : within [] T = true) (h : Keeps T r s) : Keeps T r (servePointHarmonics x0 s).st := by
  refine Keeps.then (A := []) ?_ w h
  clear w h
  unfold servePointHarmonics okParts refuse
  repeat' (first | ((with_reducible apply within_of); rfl) | with_reducible (first | exact Keeps.refl | apply Keeps.ite | apply Keeps.foldl | apply Keeps.forAll | apply Keeps.foldlPair | intro _ _) | split | dsimp only [refuse, okS, okB, okParts])

theorem execPointSupraharmonics_keeps {x0 x1 s} : KeepsO [.clk, .host] s (execPointSupraharmonics x0 x1 s) := hostCmd_keeps (A := []) (fun _ _ => servePointSupraharmonics_keeps rfl Keeps.refl) rfl rfl

theorem execPointHarmonics_keeps {x0 x1 s} : KeepsO [.clk, .host] s (execPointHarmonics x0 x1 s) := hostCmd_keeps (A := []) (fun _ _ => servePointHarmonics_keeps rfl Keeps.refl) rfl rfl

theorem execCapture_keeps {x0 x1 s} : KeepsO [.clk, .host, .eng] s (execCapture x0 x1 s) := hostCmd_keeps (A := [.host, .eng]) (fun _ _ => serveCapture_keeps rfl Keeps.refl) rfl rfl

end Sys2Proof.Machine
end

