-- ==== Sys2Proof/Laws/KeepsSliceOps.lean ====
section
/-!
SUPPORT. Which parts of the state each operation of Machine/SliceOps.lean leaves as they are.
-/

namespace Sys2Proof.Machine

theorem serveCourseRestore_keeps {T r x0 s} (w : within [.eng] T = true) (h : Keeps T r s) : Keeps T r (serveCourseRestore x0 s).st := by
  refine Keeps.then (A := [.eng]) ?_ w h
  clear w h
  unfold serveCourseRestore okS refuse
  repeat' (first | ((with_reducible apply within_of); rfl) | with_reducible (first | exact Keeps.refl | apply State.modEng_keeps | apply Keeps.ite | apply Keeps.foldl | apply Keeps.forAll | apply Keeps.foldlPair | intro _ _) | split | dsimp only [refuse, okS, okB, okParts])

theorem State.endDiag_keeps {T r s} (w : within [.slices, .eng, .sar] T = true) (h : Keeps T r s) : Keeps T r (State.endDiag s) := by
  refine Keeps.then (A := [.slices, .eng, .sar]) ?_ w h
  clear w h
  unfold State.endDiag
  repeat' (first | ((with_reducible apply within_of); rfl) | with_reducible (first | exact Keeps.refl | apply State.modConv_keeps | apply State.modEng_keeps | apply State.modSlice_keeps | apply Keeps.ite | apply Keeps.foldl | apply Keeps.forAll | apply Keeps.foldlPair | intro _ _) | split | dsimp only [refuse, okS, okB, okParts])

theorem execCourseVerdict_keeps {x0 s} : KeepsO [.clk, .host, .slices, .courses, .eng, .sar] s (execCourseVerdict x0 s) := by
  unfold execCourseVerdict
  repeat' (first | ((with_reducible apply within_of); rfl) | with_reducible (first | exact Keeps.refl | apply State.at_keeps | apply State.courseEvent_keeps | apply State.endDiag_keeps | apply State.modCourse_keeps | apply KeepsO.next | exact KeepsO.fault | apply KeepsO.ite | apply Keeps.ite | apply Keeps.foldl | apply Keeps.forAll | apply Keeps.foldlPair | intro _ _) | split | dsimp only [refuse, okS, okB, okParts])

theorem State.beginDiag_keeps {T r s} (w : within [.eng, .sar] T = true) (h : Keeps T r s) : Keeps T r (State.beginDiag s) := by
  refine Keeps.then (A := [.eng, .sar]) ?_ w h
  clear w h
  unfold State.beginDiag
  repeat' (first | ((with_reducible apply within_of); rfl) | with_reducible (first | exact Keeps.refl | apply State.modConv_keeps | apply State.modEng_keeps | apply Keeps.ite | apply Keeps.foldl | apply Keeps.forAll | apply Keeps.foldlPair | intro _ _) | split | dsimp only [refuse, okS, okB, okParts])

theorem execCourseDiagnosisStart_keeps {x0 s} : KeepsO [.clk, .eng, .sar] s (execCourseDiagnosisStart x0 s) := by
  unfold execCourseDiagnosisStart
  repeat' (first | ((with_reducible apply within_of); rfl) | with_reducible (first | exact Keeps.refl | apply State.at_keeps | apply State.beginDiag_keeps | apply KeepsO.next | exact KeepsO.fault | apply KeepsO.ite | apply Keeps.ite | apply Keeps.foldl | apply Keeps.forAll | apply Keeps.foldlPair | intro _ _) | split | dsimp only [refuse, okS, okB, okParts])

theorem execModulatorRestart_keeps {x0 x1 s} : KeepsO [.clk, .slices] s (execModulatorRestart x0 x1 s) := by
  unfold execModulatorRestart
  repeat' (first | ((with_reducible apply within_of); rfl) | with_reducible (first | exact Keeps.refl | apply State.at_keeps | apply State.modSlice_keeps | apply KeepsO.next | exact KeepsO.fault | apply KeepsO.ite | apply Keeps.ite | apply Keeps.foldl | apply Keeps.forAll | apply Keeps.foldlPair | intro _ _) | split | dsimp only [refuse, okS, okB, okParts])

theorem State.dropCourse_keeps {T r s x1} (w : within [.slices, .courses, .eng, .sar] T = true) (h : Keeps T r s) : Keeps T r (State.dropCourse s x1) := by
  refine Keeps.then (A := [.slices, .courses, .eng, .sar]) ?_ w h
  clear w h
  unfold State.dropCourse
  repeat' (first | ((with_reducible apply within_of); rfl) | with_reducible (first | exact Keeps.refl | apply State.endDiag_keeps | apply State.modCourse_keeps | apply State.modEng_keeps | apply Keeps.ite | apply Keeps.foldl | apply Keeps.forAll | apply Keeps.foldlPair | intro _ _) | split | dsimp only [refuse, okS, okB, okParts])

theorem State.injectAt_keeps {T r s x1 x2 x3} (w : within [.slices] T = true) (h : Keeps T r s) : Keeps T r (State.injectAt s x1 x2 x3) := by
  refine Keeps.then (A := [.slices]) ?_ w h
  clear w h
  unfold State.injectAt
  repeat' (first | ((with_reducible apply within_of); rfl) | with_reducible (first | exact Keeps.refl | apply State.modSlice_keeps | apply Keeps.ite | apply Keeps.foldl | apply Keeps.forAll | apply Keeps.foldlPair | intro _ _) | split | dsimp only [refuse, okS, okB, okParts])

theorem State.diagStep_keeps {T r s x1} (w : within [.slices, .courses] T = true) (h : Keeps T r s) : Keeps T r (State.diagStep s x1) := by
  refine Keeps.then (A := [.slices, .courses]) ?_ w h
  clear w h
  unfold State.diagStep
  repeat' (first | ((with_reducible apply within_of); rfl) | with_reducible (first | exact Keeps.refl | apply State.injectAt_keeps | apply State.modCourse_keeps | apply Keeps.ite | apply Keeps.foldl | apply Keeps.forAll | apply Keeps.foldlPair | intro _ _) | split | dsimp only [refuse, okS, okB, okParts])

theorem State.diagWaits_keeps {T r s} (w : within [.eng, .sar] T = true) (h : Keeps T r s) : Keeps T r (State.diagWaits s) := by
  refine Keeps.then (A := [.eng, .sar]) ?_ w h
  clear w h
  unfold State.diagWaits
  repeat' (first | ((with_reducible apply within_of); rfl) | with_reducible (first | exact Keeps.refl | apply State.beginDiag_keeps | apply State.modEng_keeps | apply Keeps.ite | apply Keeps.foldl | apply Keeps.forAll | apply Keeps.foldlPair | intro _ _) | split | dsimp only [refuse, okS, okB, okParts])

theorem State.abandonDiag_keeps {T r s} (w : within [.slices, .eng, .sar] T = true) (h : Keeps T r s) : Keeps T r (State.abandonDiag s) := by
  refine Keeps.then (A := [.slices, .eng, .sar]) ?_ w h
  clear w h
  unfold State.abandonDiag
  repeat' (first | ((with_reducible apply within_of); rfl) | with_reducible (first | exact Keeps.refl | apply State.endDiag_keeps | apply State.modEng_keeps | apply Keeps.ite | apply Keeps.foldl | apply Keeps.forAll | apply Keeps.foldlPair | intro _ _) | split | dsimp only [refuse, okS, okB, okParts])

theorem State.diagFrame_keeps {T r s x1} (w : within [.eng] T = true) (h : Keeps T r s) : Keeps T r (State.diagFrame s x1) := by
  refine Keeps.then (A := [.eng]) ?_ w h
  clear w h
  unfold State.diagFrame
  repeat' (first | ((with_reducible apply within_of); rfl) | with_reducible (first | exact Keeps.refl | apply State.modEng_keeps | apply Keeps.ite | apply Keeps.foldl | apply Keeps.forAll | apply Keeps.foldlPair | intro _ _) | split | dsimp only [refuse, okS, okB, okParts])

theorem execCourseRestore_keeps {x0 x1 s} : KeepsO [.clk, .host, .eng] s (execCourseRestore x0 x1 s) := hostCmd_keeps (A := [.eng]) (fun _ _ => serveCourseRestore_keeps rfl Keeps.refl) rfl rfl

theorem serveChannelStatus_keeps {T r x0 s} (w : within [] T = true) (h : Keeps T r s) : Keeps T r (serveChannelStatus x0 s).st := by
  refine Keeps.then (A := []) ?_ w h
  clear w h
  unfold serveChannelStatus okB refuse
  repeat' (first | ((with_reducible apply within_of); rfl) | with_reducible (first | exact Keeps.refl | apply Keeps.ite | apply Keeps.foldl | apply Keeps.forAll | apply Keeps.foldlPair | intro _ _) | split | dsimp only [refuse, okS, okB, okParts])

theorem execCourseAgreedRestored_keeps {x0 x1 s} : KeepsO [.clk, .courses, .eng] s (execCourseAgreedRestored x0 x1 s) := by
  unfold execCourseAgreedRestored
  repeat' (first | ((with_reducible apply within_of); rfl) | with_reducible (first | exact Keeps.refl | apply State.at_keeps | apply State.modCourse_keeps | apply State.modEng_keeps | apply KeepsO.next | exact KeepsO.fault | apply KeepsO.ite | apply Keeps.ite | apply Keeps.foldl | apply Keeps.forAll | apply Keeps.foldlPair | intro _ _) | split | dsimp only [refuse, okS, okB, okParts])

theorem execCourseDiagRepeat_keeps {x0 x1 s} : KeepsO [.clk, .courses, .eng] s (execCourseDiagRepeat x0 x1 s) := by
  unfold execCourseDiagRepeat
  repeat' (first | ((with_reducible apply within_of); rfl) | with_reducible (first | exact Keeps.refl | apply State.at_keeps | apply State.modCourse_keeps | apply State.modEng_keeps | apply KeepsO.next | exact KeepsO.fault | apply KeepsO.ite | apply Keeps.ite | apply Keeps.foldl | apply Keeps.forAll | apply Keeps.foldlPair | intro _ _) | split | dsimp only [refuse, okS, okB, okParts])

theorem State.switchGain_keeps {T r s x1 x2 x3} (w : within [.slices] T = true) (h : Keeps T r s) : Keeps T r (State.switchGain s x1 x2 x3) := by
  refine Keeps.then (A := [.slices]) ?_ w h
  clear w h
  unfold State.switchGain
  repeat' (first | ((with_reducible apply within_of); rfl) | with_reducible (first | exact Keeps.refl | apply State.modSlice_keeps | apply Keeps.ite | apply Keeps.foldl | apply Keeps.forAll | apply Keeps.foldlPair | intro _ _) | split | dsimp only [refuse, okS, okB, okParts])

theorem execAutoGainSwitchDown_keeps {x0 x1 x2 s} : KeepsO [.clk, .slices] s (execAutoGainSwitchDown x0 x1 x2 s) := by
  unfold execAutoGainSwitchDown
  repeat' (first | ((with_reducible apply within_of); rfl) | with_reducible (first | exact Keeps.refl | apply State.at_keeps | apply State.switchGain_keeps | apply KeepsO.next | exact KeepsO.fault | apply KeepsO.ite | apply Keeps.ite | apply Keeps.foldl | apply Keeps.forAll | apply Keeps.foldlPair | intro _ _) | split | dsimp only [refuse, okS, okB, okParts])

theorem execAutoGainSwitchUp_keeps {x0 x1 s} : KeepsO [.clk, .slices] s (execAutoGainSwitchUp x0 x1 s) := by
  unfold execAutoGainSwitchUp
  repeat' (first | ((with_reducible apply within_of); rfl) | with_reducible (first | exact Keeps.refl | apply State.at_keeps | apply State.switchGain_keeps | apply KeepsO.next | exact KeepsO.fault | apply KeepsO.ite | apply Keeps.ite | apply Keeps.foldl | apply Keeps.forAll | apply Keeps.foldlPair | intro _ _) | split | dsimp only [refuse, okS, okB, okParts])

theorem execChannelStatus_keeps {x0 x1 s} : KeepsO [.clk, .host] s (execChannelStatus x0 x1 s) := hostCmd_keeps (A := []) (fun _ _ => serveChannelStatus_keeps rfl Keeps.refl) rfl rfl

end Sys2Proof.Machine
end

