-- ==== Sys2Proof/Laws/KeepsFrame.lean ====
section
/-!
SUPPORT. Which parts of the state each operation of Machine/Frame.lean leaves as they are.
-/

namespace Sys2Proof.Machine

theorem State.closeMeasured_keeps {T r s x1 x2} (w : within [.pts] T = true) (h : Keeps T r s) : Keeps T r (State.closeMeasured s x1 x2) := by
  refine Keeps.then (A := [.pts]) ?_ w h
  clear w h
  unfold State.closeMeasured
  repeat' (first | ((with_reducible apply within_of); rfl) | with_reducible (first | exact Keeps.refl | apply State.closeElectrical_keeps | apply State.modPt_keeps | apply Keeps.ite | apply Keeps.foldl | apply Keeps.forAll | apply Keeps.foldlPair | intro _ _) | split | dsimp only [refuse, okS, okB, okParts])

theorem State.ripeEffect_keeps {T r s x1 x2 x3} (w : within [.host, .slices, .courses, .eng, .pts, .sar] T = true) (h : Keeps T r s) : Keeps T r (State.ripeEffect s x1 x2 x3) := by
  refine Keeps.then (A := [.host, .slices, .courses, .eng, .pts, .sar]) ?_ w h
  clear w h
  unfold State.ripeEffect
  repeat' (first | ((with_reducible apply within_of); rfl) | with_reducible (first | exact Keeps.refl | apply State.capTrailer_keeps | apply State.dropCourse_keeps | apply State.dropWindow_keeps | apply State.modEng_keeps | apply State.modPt_keeps | apply State.modSlice_keeps | apply State.pqEndAll_keeps | apply Keeps.ite | apply Keeps.foldl | apply Keeps.forAll | apply Keeps.foldlPair | intro _ _) | split | dsimp only [refuse, okS, okB, okParts])

theorem State.boundaryTick_keeps {T r s x1} (w : within [.clk, .par, .host, .slices, .courses, .eng, .pts, .sar] T = true) (h : Keeps T r s) : Keeps T r (State.boundaryTick s x1) := by
  refine Keeps.then (A := [.clk, .par, .host, .slices, .courses, .eng, .pts, .sar]) ?_ w h
  clear w h
  unfold State.boundaryTick
  repeat' (first | ((with_reducible apply within_of); rfl) | with_reducible (first | exact Keeps.refl | apply State.closeMeasured_keeps | apply State.modClk_keeps | apply State.modPar_keeps | apply State.modSar_keeps | apply State.ripeEffect_keeps | apply State.ripened_keeps | apply State.timersAtBoundary_keeps | apply Keeps.ite | apply Keeps.foldl | apply Keeps.forAll | apply Keeps.foldlPair | intro _ _) | split | dsimp only [refuse, okS, okB, okParts])

theorem State.changeMode_keeps {T r s} (w : within [.host, .slices, .courses, .eng, .pts, .plc, .sar] T = true) (h : Keeps T r s) : Keeps T r (State.changeMode s) := by
  refine Keeps.then (A := [.host, .slices, .courses, .eng, .pts, .plc, .sar]) ?_ w h
  clear w h
  unfold State.changeMode
  repeat' (first | ((with_reducible apply within_of); rfl) | with_reducible (first | exact Keeps.refl | apply State.dropWindow_keeps | apply State.endDiag_keeps | apply State.leaveSpectrum_keeps | apply State.loadRcd_keeps | apply State.modCourses_keeps | apply State.modEng_keeps | apply State.modPlc_keeps | apply State.modPt_keeps | apply Keeps.ite | apply Keeps.foldl | apply Keeps.forAll | apply Keeps.foldlPair | intro _ _) | split | dsimp only [refuse, okS, okB, okParts])

theorem State.frameValueEffect_keeps {T r s x1} (w : within [.sar] T = true) (h : Keeps T r s) : Keeps T r (State.frameValueEffect s x1) := by
  refine Keeps.then (A := [.sar]) ?_ w h
  clear w h
  unfold State.frameValueEffect
  repeat' (first | ((with_reducible apply within_of); rfl) | with_reducible (first | exact Keeps.refl | apply State.restartEntry_keeps | apply Keeps.ite | apply Keeps.foldl | apply Keeps.forAll | apply Keeps.foldlPair | intro _ _) | split | dsimp only [refuse, okS, okB, okParts])

theorem State.frameStart_keeps {T r s} (w : within [.par, .host, .pts, .sw, .sar] T = true) (h : Keeps T r s) : Keeps T r (State.frameStart s) := by
  refine Keeps.then (A := [.par, .host, .pts, .sw, .sar]) ?_ w h
  clear w h
  unfold State.frameStart
  repeat' (first | ((with_reducible apply within_of); rfl) | with_reducible (first | exact Keeps.refl | apply State.applyModify_keeps | apply State.fireTrigger_keeps | apply State.flushMerged_keeps | apply State.frameValueEffect_keeps | apply State.modOut_keeps | apply State.modPar_keeps | apply State.refreshSw_keeps | apply State.setPilot_keeps | apply State.streamReport_keeps | apply Keeps.ite | apply Keeps.foldl | apply Keeps.forAll | apply Keeps.foldlPair | intro _ _) | split | dsimp only [refuse, okS, okB, okParts])

theorem State.channelFrets_keeps {T r s x1 x2 x3} (w : within [.host, .slices, .courses, .eng] T = true) (h : Keeps T r s) : Keeps T r (State.channelFrets s x1 x2 x3) := by
  refine Keeps.then (A := [.host, .slices, .courses, .eng]) ?_ w h
  clear w h
  unfold State.channelFrets
  repeat' (first | ((with_reducible apply within_of); rfl) | with_reducible (first | exact Keeps.refl | apply State.channelChecks_keeps | apply State.crossCheck_keeps | apply State.hardware_keeps | apply State.modSlices_keeps | apply Keeps.ite | apply Keeps.foldl | apply Keeps.forAll | apply Keeps.foldlPair | intro _ _) | split | dsimp only [refuse, okS, okB, okParts])

theorem State.noteCrossing_keeps {T r s x1 x2} (w : within [.servo] T = true) (h : Keeps T r s) : Keeps T r (State.noteCrossing s x1 x2) := by
  refine Keeps.then (A := [.servo]) ?_ w h
  clear w h
  unfold State.noteCrossing
  repeat' (first | ((with_reducible apply within_of); rfl) | with_reducible (first | exact Keeps.refl | apply State.modServo_keeps | apply Keeps.ite | apply Keeps.foldl | apply Keeps.forAll | apply Keeps.foldlPair | intro _ _) | split | dsimp only [refuse, okS, okB, okParts])

theorem State.pointFret_keeps {T r s x1 x2 x3 x4 x5} (w : within [.host, .eng, .pts] T = true) (h : Keeps T r s) : Keeps T r (State.pointFret s x1 x2 x3 x4 x5).1 := by
  refine Keeps.then (A := [.host, .eng, .pts]) ?_ w h
  clear w h
  unfold State.pointFret
  repeat' (first | ((with_reducible apply within_of); rfl) | with_reducible (first | exact Keeps.refl | apply State.capStep_keeps | apply State.elecFrame_keeps | apply State.fluidFrame_keeps | apply State.modPt_keeps | apply State.pqDetect_keeps | apply State.supraFrame_keeps | apply State.windowFrame_keeps | apply Keeps.ite | apply Keeps.foldl | apply Keeps.forAll | apply Keeps.foldlPair | intro _ _) | split | dsimp only [refuse, okS, okB, okParts])

theorem State.processFrame_keeps {T r s x1 x2} (w : within [.servo, .par, .host, .slices, .courses, .eng, .pts, .sar] T = true) (h : Keeps T r s) : Keeps T r (State.processFrame s x1 x2) := by
  refine Keeps.then (A := [.servo, .par, .host, .slices, .courses, .eng, .pts, .sar]) ?_ w h
  clear w h
  unfold State.processFrame
  repeat' (first | ((with_reducible apply within_of); rfl) | with_reducible (first | exact Keeps.refl | apply State.abandonDiag_keeps | apply State.channelFrets_keeps | apply State.diagFrame_keeps | apply State.modEng_keeps | apply State.modSlices_keeps | apply State.noteCrossing_keeps | apply State.notePaths_keeps | apply State.pointFret_keeps | apply State.ripened_keeps | apply Keeps.ite | apply Keeps.foldl | apply Keeps.forAll | apply Keeps.foldlPair | intro _ _) | split | dsimp only [refuse, okS, okB, okParts])

theorem State.frameTick_keeps {T r s x1 x2} (w : within [.clk, .servo, .par, .host, .test, .slices, .courses, .eng, .pts, .sw, .plc, .sar] T = true) (h : Keeps T r s) : Keeps T r (State.frameTick s x1 x2) := by
  refine Keeps.then (A := [.clk, .servo, .par, .host, .test, .slices, .courses, .eng, .pts, .sw, .plc, .sar]) ?_ w h
  clear w h
  unfold State.frameTick
  repeat' (first | ((with_reducible apply within_of); rfl) | with_reducible (first | exact Keeps.refl | apply State.boundaryTick_keeps | apply State.changeMode_keeps | apply State.diagStep_keeps | apply State.diagWaits_keeps | apply State.frameStart_keeps | apply State.modClk_keeps | apply State.modServo_keeps | apply State.modTest_keeps | apply State.processFrame_keeps | apply Keeps.ite | apply Keeps.foldl | apply Keeps.forAll | apply Keeps.foldlPair | intro _ _) | split | dsimp only [refuse, okS, okB, okParts])

theorem execHandoverBlockReady_keeps {x0 s} : KeepsO [.clk, .eng] s (execHandoverBlockReady x0 s) := by
  unfold execHandoverBlockReady
  repeat' (first | ((with_reducible apply within_of); rfl) | with_reducible (first | exact Keeps.refl | apply State.at_keeps | apply State.modEng_keeps | apply KeepsO.next | exact KeepsO.fault | apply KeepsO.ite | apply Keeps.ite | apply Keeps.foldl | apply Keeps.forAll | apply Keeps.foldlPair | intro _ _) | split | dsimp only [refuse, okS, okB, okParts])

theorem execFretCutoff_keeps {x0 s} : KeepsO [.clk, .host, .eng] s (execFretCutoff x0 s) := by
  unfold execFretCutoff
  repeat' (first | ((with_reducible apply within_of); rfl) | with_reducible (first | exact Keeps.refl | apply State.at_keeps | apply State.modEng_keeps | apply State.raise_keeps | apply KeepsO.next | exact KeepsO.fault | apply KeepsO.ite | apply Keeps.ite | apply Keeps.foldl | apply Keeps.forAll | apply Keeps.foldlPair | intro _ _) | split | dsimp only [refuse, okS, okB, okParts])

theorem execModeChangeoverComplete_keeps {x0 s} : KeepsO [.clk, .host, .slices, .courses, .eng, .pts, .recs, .led, .plc, .sar] s (execModeChangeoverComplete x0 s) := by
  unfold execModeChangeoverComplete
  repeat' (first | ((with_reducible apply within_of); rfl) | with_reducible (first | exact Keeps.refl | apply State.at_keeps | apply State.build_keeps | apply State.changeMode_keeps | apply State.modEng_keeps | apply KeepsO.next | exact KeepsO.fault | apply KeepsO.ite | apply Keeps.ite | apply Keeps.foldl | apply Keeps.forAll | apply Keeps.foldlPair | intro _ _) | split | dsimp only [refuse, okS, okB, okParts])

end Sys2Proof.Machine
end

