-- ==== Sys2Proof/Laws/KeepsHostKeys.lean ====
section
/-!
SUPPORT. Which parts of the state each operation of Machine/HostKeys.lean leaves as they are.
-/

namespace Sys2Proof.Machine

theorem serveKeyInvalidate_keeps {T r x0 x1 s} (w : within [.host, .pts, .log, .keys] T = true) (h : Keeps T r s) : Keeps T r (serveKeyInvalidate x0 x1 s).st := by
  refine Keeps.then (A := [.host, .pts, .log, .keys]) ?_ w h
  clear w h
  unfold serveKeyInvalidate onKeys withRoom okS
  repeat' (first | ((with_reducible apply within_of); rfl) | with_reducible (first | exact Keeps.refl | apply State.invalidate_keeps | apply State.logRefused_keeps | apply Keeps.ite | apply Keeps.foldl | apply Keeps.forAll | apply Keeps.foldlPair | intro _ _) | split | dsimp only [refuse, okS, okB, okParts])

theorem serveKeyTlsCertificateLoad_keeps {T r x0 s} (w : within [.keys] T = true) (h : Keeps T r s) : Keeps T r (serveKeyTlsCertificateLoad x0 s).st := by
  refine Keeps.then (A := [.keys]) ?_ w h
  clear w h
  unfold serveKeyTlsCertificateLoad okS refuse
  repeat' (first | ((with_reducible apply within_of); rfl) | with_reducible (first | exact Keeps.refl | apply State.modKeys_keeps | apply Keeps.ite | apply Keeps.foldl | apply Keeps.forAll | apply Keeps.foldlPair | intro _ _) | split | dsimp only [refuse, okS, okB, okParts])

theorem execKeyTlsCertificateLoad_keeps {x0 x1 s} : KeepsO [.clk, .host, .keys] s (execKeyTlsCertificateLoad x0 x1 s) := hostCmd_keeps (A := [.keys]) (fun _ _ => serveKeyTlsCertificateLoad_keeps rfl Keeps.refl) rfl rfl

theorem State.attestEvent_keeps {T r s x1 x2 x3 x4 x5} (w : within [.host] T = true) (h : Keeps T r s) : Keeps T r (State.attestEvent s x1 x2 x3 x4 x5) := by
  refine Keeps.then (A := [.host]) ?_ w h
  clear w h
  unfold State.attestEvent
  repeat' (first | ((with_reducible apply within_of); rfl) | with_reducible (first | exact Keeps.refl | apply State.raise_keeps | apply Keeps.ite | apply Keeps.foldl | apply Keeps.forAll | apply Keeps.foldlPair | intro _ _) | split | dsimp only [refuse, okS, okB, okParts])

theorem State.nextGeneration_keeps {s x1 x2 x3} : KeepsQ [.host, .log, .keys] s (State.nextGeneration s x1 x2 x3) := by
  unfold State.nextGeneration
  repeat' (first | ((with_reducible apply within_of); rfl) | with_reducible (first | exact Keeps.refl | apply State.enterHost_keeps | apply State.keyEvent_keeps | apply State.modKey_keeps | apply KeepsQ.some | exact KeepsQ.none | apply KeepsQ.ite | apply Keeps.ite | apply Keeps.foldl | apply Keeps.forAll | apply Keeps.foldlPair | intro _ _) | split | dsimp only [refuse, okS, okB, okParts])

theorem serveKeyNextGeneration_keeps {T r x0 x1 s} (w : within [.host, .log, .keys] T = true) (h : Keeps T r s) : Keeps T r (serveKeyNextGeneration x0 x1 s).st := by
  refine Keeps.then (A := [.host, .log, .keys]) ?_ w h
  clear w h
  unfold serveKeyNextGeneration onKeys withRoom
  have q : ∀ l : List (Nat × Nat), KeepsQ [.host, .log, .keys] s
      (l.foldl (fun (a : Option State) x => a.bind (fun s => s.nextGeneration x0 x.1 x.2)) (some s)) := fun l =>
    KeepsQ.foldl (fun _ _ => State.nextGeneration_keeps) rfl (KeepsQ.some Keeps.refl)
  repeat' (first | exact Keeps.refl | exact q _ _ (by assumption) | exact State.logRefused_keeps rfl Keeps.refl | split | dsimp only [okS, okB, okParts, refuse])

theorem execKeyNextGeneration_keeps {x0 x1 s} : KeepsO [.clk, .host, .log, .keys] s (execKeyNextGeneration x0 x1 s) := hostCmd_keeps (A := [.host, .log, .keys]) (fun _ _ => serveKeyNextGeneration_keeps rfl Keeps.refl) rfl rfl

theorem serveKeyAttest_keeps {T r x0 s} (w : within [.host, .keys] T = true) (h : Keeps T r s) : Keeps T r (serveKeyAttest x0 s).st := by
  refine Keeps.then (A := [.host, .keys]) ?_ w h
  clear w h
  unfold serveKeyAttest okB refuse
  repeat' (first | ((with_reducible apply within_of); rfl) | with_reducible (first | exact Keeps.refl | apply State.attestEvent_keeps | apply State.modKeys_keeps | apply Keeps.ite | apply Keeps.foldl | apply Keeps.forAll | apply Keeps.foldlPair | intro _ _) | split | dsimp only [refuse, okS, okB, okParts])

theorem serveKeyErase_keeps {T r x0 x1 s} (w : within [.host, .log, .keys] T = true) (h : Keeps T r s) : Keeps T r (serveKeyErase x0 x1 s).st := by
  refine Keeps.then (A := [.host, .log, .keys]) ?_ w h
  clear w h
  unfold serveKeyErase noPayload withSeal withRoom okS
  repeat' (first | ((with_reducible apply within_of); rfl) | with_reducible (first | exact Keeps.refl | apply State.enterHost_keeps | apply State.logRefused_keeps | apply State.modKeys_keeps | refine State.writeMram_keeps (fun _ => ?_) ?_ ?_ | apply Keeps.ite | apply Keeps.foldl | apply Keeps.forAll | apply Keeps.foldlPair | intro _ _) | split | dsimp only [refuse, okS, okB, okParts])

theorem serveKeyNodeCertificate_keeps {T r x0 s} (w : within [] T = true) (h : Keeps T r s) : Keeps T r (serveKeyNodeCertificate x0 s).st := by
  refine Keeps.then (A := []) ?_ w h
  clear w h
  unfold serveKeyNodeCertificate noPayload okParts
  repeat' (first | ((with_reducible apply within_of); rfl) | with_reducible (first | exact Keeps.refl | apply Keeps.ite | apply Keeps.foldl | apply Keeps.forAll | apply Keeps.foldlPair | intro _ _) | split | dsimp only [refuse, okS, okB, okParts])

theorem serveKeyPublicRead_keeps {T r x0 s} (w : within [] T = true) (h : Keeps T r s) : Keeps T r (serveKeyPublicRead x0 s).st := by
  refine Keeps.then (A := []) ?_ w h
  clear w h
  unfold serveKeyPublicRead okB refuse
  repeat' (first | ((with_reducible apply within_of); rfl) | with_reducible (first | exact Keeps.refl | apply Keeps.ite | apply Keeps.foldl | apply Keeps.forAll | apply Keeps.foldlPair | intro _ _) | split | dsimp only [refuse, okS, okB, okParts])

theorem State.readHelpers_keeps {T r s x1} (w : within [.clk, .host, .pwr] T = true) (h : Keeps T r s) : Keeps T r (State.readHelpers s x1) := by
  refine Keeps.then (A := [.clk, .host, .pwr]) ?_ w h
  clear w h
  unfold State.readHelpers
  repeat' (first | ((with_reducible apply within_of); rfl) | with_reducible (first | exact Keeps.refl | apply State.mramError_keeps | apply State.repairWords_keeps | apply Keeps.ite | apply Keeps.foldl | apply Keeps.forAll | apply Keeps.foldlPair | intro _ _) | split | dsimp only [refuse, okS, okB, okParts])

theorem State.regenEvent_keeps {T r s x1 x2 x3} (w : within [.host] T = true) (h : Keeps T r s) : Keeps T r (State.regenEvent s x1 x2 x3) := by
  refine Keeps.then (A := [.host]) ?_ w h
  clear w h
  unfold State.regenEvent
  repeat' (first | ((with_reducible apply within_of); rfl) | with_reducible (first | exact Keeps.refl | apply State.raise_keeps | apply Keeps.ite | apply Keeps.foldl | apply Keeps.forAll | apply Keeps.foldlPair | intro _ _) | split | dsimp only [refuse, okS, okB, okParts])

theorem State.regenerate_keeps {T r s x1 x2} (w : within [.keys] T = true) (h : Keeps T r s) : Keeps T r (State.regenerate s x1 x2) := by
  refine Keeps.then (A := [.keys]) ?_ w h
  clear w h
  unfold State.regenerate
  repeat' (first | ((with_reducible apply within_of); rfl) | with_reducible (first | exact Keeps.refl | apply State.modKeys_keeps | apply Keeps.ite | apply Keeps.foldl | apply Keeps.forAll | apply Keeps.foldlPair | intro _ _) | split | dsimp only [refuse, okS, okB, okParts])

theorem serveKeyRegenerate_keeps {T r x0 s} (w : within [.clk, .host, .keys, .pwr] T = true) (h : Keeps T r s) : Keeps T r (serveKeyRegenerate x0 s).st := by
  refine Keeps.then (A := [.clk, .host, .keys, .pwr]) ?_ w h
  clear w h
  unfold serveKeyRegenerate noPayload okB
  repeat' (first | ((with_reducible apply within_of); rfl) | with_reducible (first | exact Keeps.refl | apply State.bump_keeps | apply State.readHelpers_keeps | apply State.regenEvent_keeps | apply State.regenerate_keeps | apply Keeps.ite | apply Keeps.foldl | apply Keeps.forAll | apply Keeps.foldlPair | intro _ _) | split | dsimp only [refuse, okS, okB, okParts])

theorem serveKeyStatementRead_keeps {T r x0 s} (w : within [] T = true) (h : Keeps T r s) : Keeps T r (serveKeyStatementRead x0 s).st := by
  refine Keeps.then (A := []) ?_ w h
  clear w h
  unfold serveKeyStatementRead okB refuse
  repeat' (first | ((with_reducible apply within_of); rfl) | with_reducible (first | exact Keeps.refl | apply Keeps.ite | apply Keeps.foldl | apply Keeps.forAll | apply Keeps.foldlPair | intro _ _) | split | dsimp only [refuse, okS, okB, okParts])

theorem serveKeyStatus_keeps {T r x0 s} (w : within [] T = true) (h : Keeps T r s) : Keeps T r (serveKeyStatus x0 s).st := by
  refine Keeps.then (A := []) ?_ w h
  clear w h
  unfold serveKeyStatus noPayload okB
  repeat' (first | ((with_reducible apply within_of); rfl) | with_reducible (first | exact Keeps.refl | apply Keeps.ite | apply Keeps.foldl | apply Keeps.forAll | apply Keeps.foldlPair | intro _ _) | split | dsimp only [refuse, okS, okB, okParts])

theorem execKeyPublicRead_keeps {x0 x1 s} : KeepsO [.clk, .host] s (execKeyPublicRead x0 x1 s) := hostCmd_keeps (A := []) (fun _ _ => serveKeyPublicRead_keeps rfl Keeps.refl) rfl rfl

theorem execKeyStatementRead_keeps {x0 x1 s} : KeepsO [.clk, .host] s (execKeyStatementRead x0 x1 s) := hostCmd_keeps (A := []) (fun _ _ => serveKeyStatementRead_keeps rfl Keeps.refl) rfl rfl

theorem execKeyErase_keeps {x0 x1 s} : KeepsO [.clk, .host, .log, .keys] s (execKeyErase x0 x1 s) := hostCmd_keeps (A := [.host, .log, .keys]) (fun _ _ => serveKeyErase_keeps rfl Keeps.refl) rfl rfl

theorem execRootRegenerated_keeps {x0 x1 x2 x3 x4 x5 s} : KeepsO [.clk, .host, .keys, .pwr] s (execRootRegenerated x0 x1 x2 x3 x4 x5 s) := by
  unfold execRootRegenerated
  repeat' (first | ((with_reducible apply within_of); rfl) | with_reducible (first | exact Keeps.refl | apply State.at_keeps | apply State.modPwr_keeps | apply State.readHelpers_keeps | apply State.regenEvent_keeps | apply State.regenerate_keeps | apply KeepsO.next | exact KeepsO.fault | apply KeepsO.ite | apply Keeps.ite | apply Keeps.foldl | apply Keeps.forAll | apply Keeps.foldlPair | intro _ _) | split | dsimp only [refuse, okS, okB, okParts])

theorem execKeyInvalidate_keeps {x0 x1 s} : KeepsO [.clk, .host, .pts, .log, .keys] s (execKeyInvalidate x0 x1 s) := hostCmd_keeps (A := [.host, .pts, .log, .keys]) (fun _ _ => serveKeyInvalidate_keeps rfl Keeps.refl) rfl rfl

theorem execKeyAttest_keeps {x0 x1 s} : KeepsO [.clk, .host, .keys] s (execKeyAttest x0 x1 s) := hostCmd_keeps (A := [.host, .keys]) (fun _ _ => serveKeyAttest_keeps rfl Keeps.refl) rfl rfl

theorem execKeyStatus_keeps {x0 x1 s} : KeepsO [.clk, .host] s (execKeyStatus x0 x1 s) := hostCmd_keeps (A := []) (fun _ _ => serveKeyStatus_keeps rfl Keeps.refl) rfl rfl

theorem execAttestationComplete_keeps {x0 s} : KeepsO [.clk, .host, .keys] s (execAttestationComplete x0 s) := by
  unfold execAttestationComplete
  repeat' (first | ((with_reducible apply within_of); rfl) | with_reducible (first | exact Keeps.refl | apply State.at_keeps | apply State.attestEvent_keeps | apply State.modKeys_keeps | apply KeepsO.next | exact KeepsO.fault | apply KeepsO.ite | apply Keeps.ite | apply Keeps.foldl | apply Keeps.forAll | apply Keeps.foldlPair | intro _ _) | split | dsimp only [refuse, okS, okB, okParts])

theorem execKeyNodeCertificate_keeps {x0 x1 s} : KeepsO [.clk, .host] s (execKeyNodeCertificate x0 x1 s) := hostCmd_keeps (A := []) (fun _ _ => serveKeyNodeCertificate_keeps rfl Keeps.refl) rfl rfl

theorem execKeyRegenerate_keeps {x0 x1 s} : KeepsO [.clk, .host, .keys, .pwr] s (execKeyRegenerate x0 x1 s) := hostCmd_keeps (A := [.clk, .host, .keys, .pwr]) (fun _ _ => serveKeyRegenerate_keeps rfl Keeps.refl) rfl rfl

end Sys2Proof.Machine
end

