-- ==== Sys2Proof/Laws/KeepsPowerReset.lean ====
section
/-!
SUPPORT. Which parts of the state each operation of Machine/PowerReset.lean leaves as they are.
-/

namespace Sys2Proof.Machine

theorem State.endTests_keeps {T r s} (w : within [.slices, .pts, .sw, .sar] T = true) (h : Keeps T r s) : Keeps T r (State.endTests s) := by
  refine Keeps.then (A := [.slices, .pts, .sw, .sar]) ?_ w h
  clear w h
  unfold State.endTests
  repeat' (first | ((with_reducible apply within_of); rfl) | with_reducible (first | exact Keeps.refl | apply State.endInjection_keeps | apply Keeps.ite | apply Keeps.foldl | apply Keeps.forAll | apply Keeps.foldlPair | intro _ _) | split | dsimp only [refuse, okS, okB, okParts])

theorem State.coreReset_keeps {T r s x1} (w : within [.clk, .servo, .par, .host, .test, .slices, .courses, .eng, .pts, .recs, .led, .sw, .saf, .log, .keys, .disp, .plc, .ring, .sar, .fw, .pwr] T = true) (h : Keeps T r s) : Keeps T r (State.coreReset s x1) := by
  refine Keeps.then (A := [.clk, .servo, .par, .host, .test, .slices, .courses, .eng, .pts, .recs, .led, .sw, .saf, .log, .keys, .disp, .plc, .ring, .sar, .fw, .pwr]) ?_ w h
  clear w h
  unfold State.coreReset
  refine Keeps.then (A := [.clk, .servo, .par, .host, .test, .slices, .courses, .eng, .pts, .recs, .led, .sw, .saf, .log, .keys, .disp, .plc, .ring, .sar, .fw, .pwr]) (x := s.dispReset.endTests) ?_ rfl
    (State.endTests_keeps rfl (State.dispReset_keeps rfl Keeps.refl))
  generalize s.dispReset.endTests = y
  apply Keeps.ofPending
  rfl

theorem State.holdReset_keeps {T r s x1} (w : within [.pwr] T = true) (h : Keeps T r s) : Keeps T r (State.holdReset s x1) := by
  refine Keeps.then (A := [.pwr]) ?_ w h
  clear w h
  unfold State.holdReset
  repeat' (first | ((with_reducible apply within_of); rfl) | with_reducible (first | exact Keeps.refl | apply State.modPwr_keeps | apply Keeps.ite | apply Keeps.foldl | apply Keeps.forAll | apply Keeps.foldlPair | intro _ _) | split | dsimp only [refuse, okS, okB, okParts])

theorem State.resetCore_keeps {T r s x1 x2} (w : within [.clk, .servo, .par, .host, .test, .slices, .courses, .eng, .pts, .recs, .led, .sw, .saf, .log, .keys, .disp, .plc, .ring, .sar, .fw, .pwr] T = true) (h : Keeps T r s) : Keeps T r (State.resetCore s x1 x2) := by
  refine Keeps.then (A := [.clk, .servo, .par, .host, .test, .slices, .courses, .eng, .pts, .recs, .led, .sw, .saf, .log, .keys, .disp, .plc, .ring, .sar, .fw, .pwr]) ?_ w h
  clear w h
  unfold State.resetCore
  repeat' (first | ((with_reducible apply within_of); rfl) | with_reducible (first | exact Keeps.refl | apply State.coreReset_keeps | apply State.holdReset_keeps | apply Keeps.ite | apply Keeps.foldl | apply Keeps.forAll | apply Keeps.foldlPair | intro _ _) | split | dsimp only [refuse, okS, okB, okParts])

theorem execRefclkLoss_keeps {x0 s} : KeepsO [.clk, .servo, .par, .host, .test, .slices, .courses, .eng, .pts, .recs, .led, .sw, .saf, .log, .keys, .disp, .plc, .ring, .sar, .fw, .pwr] s (execRefclkLoss x0 s) := by
  unfold execRefclkLoss
  repeat' (first | ((with_reducible apply within_of); rfl) | with_reducible (first | exact Keeps.refl | apply State.at_keeps | apply State.resetCore_keeps | apply KeepsO.next | exact KeepsO.fault | apply KeepsO.ite | apply Keeps.ite | apply Keeps.foldl | apply Keeps.forAll | apply Keeps.foldlPair | intro _ _) | split | dsimp only [refuse, okS, okB, okParts])

theorem State.restorePoint_keeps {T r s x1 x2 x3} (w : within [.pts] T = true) (h : Keeps T r s) : Keeps T r (State.restorePoint s x1 x2 x3) := by
  refine Keeps.then (A := [.pts]) ?_ w h
  clear w h
  unfold State.restorePoint
  repeat' (first | ((with_reducible apply within_of); rfl) | with_reducible (first | exact Keeps.refl | apply State.modPt_keeps | apply Keeps.ite | apply Keeps.foldl | apply Keeps.forAll | apply Keeps.foldlPair | intro _ _) | split | dsimp only [refuse, okS, okB, okParts])

theorem State.beginPoints_keeps {T r s x1} (w : within [.slices, .pts] T = true) (h : Keeps T r s) : Keeps T r (State.beginPoints s x1) := by
  refine Keeps.then (A := [.slices, .pts]) ?_ w h
  clear w h
  unfold State.beginPoints
  repeat' (first | ((with_reducible apply within_of); rfl) | with_reducible (first | exact Keeps.refl | apply State.loadRcd_keeps | apply State.modPt_keeps | apply State.modPts_keeps | apply State.setPilot_keeps | apply Keeps.ite | apply Keeps.foldl | apply Keeps.forAll | apply Keeps.foldlPair | intro _ _) | split | dsimp only [refuse, okS, okB, okParts])

theorem State.flushLast_keeps {T r s} (w : within [.eng] T = true) (h : Keeps T r s) : Keeps T r (State.flushLast s) := by
  refine Keeps.then (A := [.eng]) ?_ w h
  clear w h
  unfold State.flushLast
  repeat' (first | ((with_reducible apply within_of); rfl) | with_reducible (first | exact Keeps.refl | apply State.modEng_keeps | apply Keeps.ite | apply Keeps.foldl | apply Keeps.forAll | apply Keeps.foldlPair | intro _ _) | split | dsimp only [refuse, okS, okB, okParts])

theorem State.capoDown_keeps {T r s x1 x2} (w : within [.host, .fw, .pwr] T = true) (h : Keeps T r s) : Keeps T r (State.capoDown s x1 x2) := by
  refine Keeps.then (A := [.host, .fw, .pwr]) ?_ w h
  clear w h
  unfold State.capoDown
  repeat' (first | ((with_reducible apply within_of); rfl) | with_reducible (first | exact Keeps.refl | apply State.modFw_keeps | apply State.modHost_keeps | apply State.modPwr_keeps | apply Keeps.ite | apply Keeps.foldl | apply Keeps.forAll | apply Keeps.foldlPair | intro _ _) | split | dsimp only [refuse, okS, okB, okParts])

theorem State.capoEvent_keeps {T r s x1 x2 x3 x4} (w : within [.host] T = true) (h : Keeps T r s) : Keeps T r (State.capoEvent s x1 x2 x3 x4) := by
  refine Keeps.then (A := [.host]) ?_ w h
  clear w h
  unfold State.capoEvent
  repeat' (first | ((with_reducible apply within_of); rfl) | with_reducible (first | exact Keeps.refl | apply State.raise_keeps | apply Keeps.ite | apply Keeps.foldl | apply Keeps.forAll | apply Keeps.foldlPair | intro _ _) | split | dsimp only [refuse, okS, okB, okParts])

theorem State.loseFrames_keeps {T r s x1} (w : within [.pts] T = true) (h : Keeps T r s) : Keeps T r (State.loseFrames s x1) := by
  refine Keeps.then (A := [.pts]) ?_ w h
  clear w h
  unfold State.loseFrames
  repeat' (first | ((with_reducible apply within_of); rfl) | with_reducible (first | exact Keeps.refl | apply State.modPt_keeps | apply Keeps.ite | apply Keeps.foldl | apply Keeps.forAll | apply Keeps.foldlPair | intro _ _) | split | dsimp only [refuse, okS, okB, okParts])

theorem State.closeCut_keeps {T r s x1 x2 x3 x4} (w : within [.host, .pts, .recs, .led, .sw] T = true) (h : Keeps T r s) : Keeps T r (State.closeCut s x1 x2 x3 x4) := by
  refine Keeps.then (A := [.host, .pts, .recs, .led, .sw]) ?_ w h
  clear w h
  unfold State.closeCut
  repeat' (first | ((with_reducible apply within_of); rfl) | with_reducible (first | exact Keeps.refl | apply State.closePeriod_keeps | apply State.modPt_keeps | apply Keeps.ite | apply Keeps.foldl | apply Keeps.forAll | apply Keeps.foldlPair | intro _ _) | split | dsimp only [refuse, okS, okB, okParts])

theorem State.endOpen_keeps {T r s x1 x2 x3 x4} (w : within [.host, .pts, .recs, .led] T = true) (h : Keeps T r s) : Keeps T r (State.endOpen s x1 x2 x3 x4) := by
  refine Keeps.then (A := [.host, .pts, .recs, .led]) ?_ w h
  clear w h
  unfold State.endOpen
  repeat' (first | ((with_reducible apply within_of); rfl) | with_reducible (first | exact Keeps.refl | apply State.buildEnd_keeps | apply State.modSes_keeps | apply State.outletSession_keeps | apply Keeps.ite | apply Keeps.foldl | apply Keeps.forAll | apply Keeps.foldlPair | intro _ _) | split | dsimp only [refuse, okS, okB, okParts])

theorem State.mergeBank_keeps {T r s x1 x2} (w : within [.host, .pts] T = true) (h : Keeps T r s) : Keeps T r (State.mergeBank s x1 x2) := by
  refine Keeps.then (A := [.host, .pts]) ?_ w h
  clear w h
  unfold State.mergeBank
  repeat' (first | ((with_reducible apply within_of); rfl) | with_reducible (first | exact Keeps.refl | apply State.addQuantities_keeps | apply State.modPt_keeps | apply Keeps.ite | apply Keeps.foldl | apply Keeps.forAll | apply Keeps.foldlPair | intro _ _) | split | dsimp only [refuse, okS, okB, okParts])

theorem State.rebuildDue_keeps {T r s x1} (w : within [.recs] T = true) (h : Keeps T r s) : Keeps T r (State.rebuildDue s x1) := by
  refine Keeps.then (A := [.recs]) ?_ w h
  clear w h
  unfold State.rebuildDue
  repeat' (first | ((with_reducible apply within_of); rfl) | with_reducible (first | exact Keeps.refl | apply State.modRecs_keeps | apply Keeps.ite | apply Keeps.foldl | apply Keeps.forAll | apply Keeps.foldlPair | intro _ _) | split | dsimp only [refuse, okS, okB, okParts])

theorem State.mergeSteps_keeps {T r s x1} (w : within [.host, .pts, .recs, .led, .sw] T = true) (h : Keeps T r s) : Keeps T r (State.mergeSteps s x1) := by
  refine Keeps.then (A := [.host, .pts, .recs, .led, .sw]) ?_ w h
  clear w h
  unfold State.mergeSteps
  repeat' (first | ((with_reducible apply within_of); rfl) | with_reducible (first | exact Keeps.refl | apply State.buildLate_keeps | apply State.closeCut_keeps | apply State.endOpen_keeps | apply State.mergeBank_keeps | apply State.modPts_keeps | apply State.modSes_keeps | apply State.rebuildDue_keeps | apply Keeps.ite | apply Keeps.foldl | apply Keeps.forAll | apply Keeps.foldlPair | intro _ _) | split | dsimp only [refuse, okS, okB, okParts])

theorem State.startSafety_keeps {T r s x1 x2} (w : within [.host, .pts, .sw, .saf] T = true) (h : Keeps T r s) : Keeps T r (State.startSafety s x1 x2) := by
  refine Keeps.then (A := [.host, .pts, .sw, .saf]) ?_ w h
  clear w h
  unfold State.startSafety
  repeat' (first | ((with_reducible apply within_of); rfl) | with_reducible (first | exact Keeps.refl | apply State.armWatchdog_keeps | apply State.enterPhase_keeps | apply State.modSaf_keeps | apply State.modSw_keeps | apply State.refreshSw_keeps | apply State.release4_keeps | apply State.startEntry_keeps | apply Keeps.ite | apply Keeps.foldl | apply Keeps.forAll | apply Keeps.foldlPair | intro _ _) | split | dsimp only [refuse, okS, okB, okParts])

theorem State.restartParts_keeps {T r s x1 x2} (w : within [.host, .slices, .pts, .sw, .saf, .keys, .sar] T = true) (h : Keeps T r s) : Keeps T r (State.restartParts s x1 x2) := by
  refine Keeps.then (A := [.host, .slices, .pts, .sw, .saf, .keys, .sar]) ?_ w h
  clear w h
  unfold State.restartParts
  repeat' (first | ((with_reducible apply within_of); rfl) | with_reducible (first | exact Keeps.refl | apply State.endTests_keeps | apply State.modKeys_keeps | apply State.modPts_keeps | apply State.modSaf_keeps | apply State.setPilot_keeps | apply State.startSafety_keeps | apply Keeps.ite | apply Keeps.foldl | apply Keeps.forAll | apply Keeps.foldlPair | intro _ _) | split | dsimp only [refuse, okS, okB, okParts])

theorem State.restore_keeps {T r s x1 x2} (w : within [.clk, .pts, .recs] T = true) (h : Keeps T r s) : Keeps T r (State.restore s x1 x2) := by
  refine Keeps.then (A := [.clk, .pts, .recs]) ?_ w h
  clear w h
  unfold State.restore
  repeat' (first | ((with_reducible apply within_of); rfl) | with_reducible (first | exact Keeps.refl | apply State.bump_keeps | apply State.modRecs_keeps | apply State.restorePoint_keeps | apply Keeps.ite | apply Keeps.foldl | apply Keeps.forAll | apply Keeps.foldlPair | intro _ _) | split | dsimp only [refuse, okS, okB, okParts])

theorem State.restoredEvent_keeps {T r s x1} (w : within [.host] T = true) (h : Keeps T r s) : Keeps T r (State.restoredEvent s x1) := by
  refine Keeps.then (A := [.host]) ?_ w h
  clear w h
  unfold State.restoredEvent
  repeat' (first | ((with_reducible apply within_of); rfl) | with_reducible (first | exact Keeps.refl | apply State.raiseRaw_keeps | apply Keeps.ite | apply Keeps.foldl | apply Keeps.forAll | apply Keeps.foldlPair | intro _ _) | split | dsimp only [refuse, okS, okB, okParts])

theorem State.resumeCapo_keeps {T r s x1 x2} (w : within [.clk, .servo, .par, .host, .slices, .courses, .eng, .pts, .recs, .led, .sw, .saf, .log, .plc, .ring, .sar, .fw] T = true) (h : Keeps T r s) : Keeps T r (State.resumeCapo s x1 x2) := by
  refine Keeps.then (A := [.clk, .servo, .par, .host, .slices, .courses, .eng, .pts, .recs, .led, .sw, .saf, .log, .plc, .ring, .sar, .fw]) ?_ w h
  clear w h
  unfold State.resumeCapo
  repeat' (first | ((with_reducible apply within_of); rfl) | with_reducible (first | exact Keeps.refl | apply State.boundaryWork_keeps | apply State.endOpen_keeps | apply State.loseFrames_keeps | apply State.modPts_keeps | apply State.rebuildDue_keeps | apply Keeps.ite | apply Keeps.foldl | apply Keeps.forAll | apply Keeps.foldlPair | intro _ _) | split | dsimp only [refuse, okS, okB, okParts])

theorem State.startSeals_keeps {T r s} (w : within [.host, .test, .eng, .pts, .recs, .led, .sw, .saf, .log, .keys] T = true) (h : Keeps T r s) : Keeps T r (State.startSeals s) := by
  refine Keeps.then (A := [.host, .test, .eng, .pts, .recs, .led, .sw, .saf, .log, .keys]) ?_ w h
  clear w h
  unfold State.startSeals
  repeat' (first | ((with_reducible apply within_of); rfl) | with_reducible (first | exact Keeps.refl | apply State.modSaf_keeps | apply State.sealChange_keeps | apply Keeps.ite | apply Keeps.foldl | apply Keeps.forAll | apply Keeps.foldlPair | intro _ _) | split | dsimp only [refuse, okS, okB, okParts])

theorem State.restartCapo_keeps {T r s x1 x2 x3 x4 x5 x6} (w : within [.clk, .servo, .par, .host, .test, .slices, .courses, .eng, .pts, .recs, .led, .sw, .saf, .log, .keys, .plc, .ring, .sar, .fw, .pwr] T = true) (h : Keeps T r s) : Keeps T r (State.restartCapo s x1 x2 x3 x4 x5 x6) := by
  refine Keeps.then (A := [.clk, .servo, .par, .host, .test, .slices, .courses, .eng, .pts, .recs, .led, .sw, .saf, .log, .keys, .plc, .ring, .sar, .fw, .pwr]) ?_ w h
  clear w h
  unfold State.restartCapo
  repeat' (first | ((with_reducible apply within_of); rfl) | with_reducible (first | exact Keeps.refl | apply State.beginPoints_keeps | apply State.capoEvent_keeps | apply State.loseFrames_keeps | apply State.mergeSteps_keeps | apply State.modHost_keeps | apply State.modPwr_keeps | apply State.mramError_keeps | apply State.repairWords_keeps | apply State.restartParts_keeps | apply State.restore_keeps | apply State.restoredEvent_keeps | apply State.resumeCapo_keeps | apply State.saveLedger_keeps | apply State.startSeals_keeps | apply Keeps.ite | apply Keeps.foldl | apply Keeps.forAll | apply Keeps.foldlPair | intro _ _) | split | dsimp only [refuse, okS, okB, okParts])

theorem State.beginWarning_keeps {T r s x1} (w : within [.clk, .host, .led, .disp, .fw, .pwr] T = true) (h : Keeps T r s) : Keeps T r (State.beginWarning s x1) := by
  refine Keeps.then (A := [.clk, .host, .led, .disp, .fw, .pwr]) ?_ w h
  clear w h
  unfold State.beginWarning
  repeat' (first | ((with_reducible apply within_of); rfl) | with_reducible (first | exact Keeps.refl | apply State.dispWarning_keeps | apply State.modLed_keeps | apply State.modPwr_keeps | apply State.notTaken_keeps | apply Keeps.ite | apply Keeps.foldl | apply Keeps.forAll | apply Keeps.foldlPair | intro _ _) | split | dsimp only [refuse, okS, okB, okParts])

theorem State.warnIfMetering_keeps {T r s x1} (w : within [.clk, .host, .led, .disp, .fw, .pwr] T = true) (h : Keeps T r s) : Keeps T r (State.warnIfMetering s x1) := by
  refine Keeps.then (A := [.clk, .host, .led, .disp, .fw, .pwr]) ?_ w h
  clear w h
  unfold State.warnIfMetering
  repeat' (first | ((with_reducible apply within_of); rfl) | with_reducible (first | exact Keeps.refl | apply State.beginWarning_keeps | apply Keeps.ite | apply Keeps.foldl | apply Keeps.forAll | apply Keeps.foldlPair | intro _ _) | split | dsimp only [refuse, okS, okB, okParts])

theorem execPfwWarning_keeps {x0 x1 s} : KeepsO [.clk, .host, .led, .disp, .fw, .pwr] s (execPfwWarning x0 x1 s) := by
  unfold execPfwWarning
  repeat' (first | ((with_reducible apply within_of); rfl) | with_reducible (first | exact Keeps.refl | apply State.at_keeps | apply State.modPwr_keeps | apply State.warnIfMetering_keeps | apply KeepsO.next | exact KeepsO.fault | apply KeepsO.ite | apply Keeps.ite | apply Keeps.foldl | apply Keeps.forAll | apply Keeps.foldlPair | intro _ _) | split | dsimp only [refuse, okS, okB, okParts])

theorem State.startLog_keeps {T r s} (w : within [.host, .test, .eng, .pts, .recs, .led, .sw, .saf, .log, .keys, .fw] T = true) (h : Keeps T r s) : Keeps T r (State.startLog s) := by
  refine Keeps.then (A := [.host, .test, .eng, .pts, .recs, .led, .sw, .saf, .log, .keys, .fw]) ?_ w h
  clear w h
  unfold State.startLog
  repeat' (first | ((with_reducible apply within_of); rfl) | with_reducible (first | exact Keeps.refl | apply State.enterCapo_keeps | apply State.modFw_keeps | apply State.modTest_keeps | apply State.startSeals_keeps | apply Keeps.ite | apply Keeps.foldl | apply Keeps.forAll | apply Keeps.foldlPair | intro _ _) | split | dsimp only [refuse, okS, okB, okParts])

theorem State.startMetering_keeps {T r s x1} (w : within [.clk, .servo, .host, .test, .slices, .eng, .pts, .recs, .led, .sw, .saf, .log, .keys, .disp, .plc, .ring, .fw, .pwr] T = true) (h : Keeps T r s) : Keeps T r (State.startMetering s x1) := by
  refine Keeps.then (A := [.clk, .servo, .host, .test, .slices, .eng, .pts, .recs, .led, .sw, .saf, .log, .keys, .disp, .plc, .ring, .fw, .pwr]) ?_ w h
  clear w h
  unfold State.startMetering
  repeat' (first | ((with_reducible apply within_of); rfl) | with_reducible (first | exact Keeps.refl | apply State.beginPoints_keeps | apply State.beginWarning_keeps | apply State.bump_keeps | apply State.modClk_keeps | apply State.modHost_keeps | apply State.modPwr_keeps | apply State.plcSweep_keeps | apply State.raise_keeps | apply State.startLog_keeps | apply Keeps.ite | apply Keeps.foldl | apply Keeps.forAll | apply Keeps.foldlPair | intro _ _) | split | dsimp only [refuse, okS, okB, okParts])

theorem execHoldupMerge_keeps {x0 x1 x2 x3 x4 s} : KeepsO [.clk, .servo, .host, .test, .slices, .eng, .pts, .recs, .led, .sw, .saf, .log, .keys, .disp, .plc, .ring, .fw, .pwr] s (execHoldupMerge x0 x1 x2 x3 x4 s) := by
  unfold execHoldupMerge
  repeat' (first | ((with_reducible apply within_of); rfl) | with_reducible (first | exact Keeps.refl | apply State.at_keeps | apply State.mergeSteps_keeps | apply State.modClk_keeps | apply State.modLed_keeps | apply State.modServo_keeps | apply State.mramError_keeps | apply State.repairWords_keeps | apply State.restore_keeps | apply State.restoredEvent_keeps | apply State.saveLedger_keeps | apply State.startMetering_keeps | apply KeepsO.next | exact KeepsO.fault | apply KeepsO.ite | apply Keeps.ite | apply Keeps.foldl | apply Keeps.forAll | apply Keeps.foldlPair | intro _ _) | split | dsimp only [refuse, okS, okB, okParts])

theorem State.releaseCore_keeps {T r s x1} (w : within [.clk, .pwr] T = true) (h : Keeps T r s) : Keeps T r (State.releaseCore s x1) := by
  refine Keeps.then (A := [.clk, .pwr]) ?_ w h
  clear w h
  unfold State.releaseCore
  repeat' (first | ((with_reducible apply within_of); rfl) | with_reducible (first | exact Keeps.refl | apply State.modClk_keeps | apply State.modPwr_keeps | apply Keeps.ite | apply Keeps.foldl | apply Keeps.forAll | apply Keeps.foldlPair | intro _ _) | split | dsimp only [refuse, okS, okB, okParts])

theorem execThermalShutdownEnd_keeps {x0 x1 s} : KeepsO [.clk, .pwr] s (execThermalShutdownEnd x0 x1 s) := by
  unfold execThermalShutdownEnd
  repeat' (first | ((with_reducible apply within_of); rfl) | with_reducible (first | exact Keeps.refl | apply State.at_keeps | apply State.releaseCore_keeps | apply KeepsO.next | exact KeepsO.fault | apply KeepsO.ite | apply Keeps.ite | apply Keeps.foldl | apply Keeps.forAll | apply Keeps.foldlPair | intro _ _) | split | dsimp only [refuse, okS, okB, okParts])

theorem State.takePending_keeps {T r s} (w : within [.fw] T = true) (h : Keeps T r s) : Keeps T r (State.takePending s) := by
  refine Keeps.then (A := [.fw]) ?_ w h
  clear w h
  unfold State.takePending
  repeat' (first | ((with_reducible apply within_of); rfl) | with_reducible (first | exact Keeps.refl | apply State.modFw_keeps | apply Keeps.ite | apply Keeps.foldl | apply Keeps.forAll | apply Keeps.foldlPair | intro _ _) | split | dsimp only [refuse, okS, okB, okParts])

theorem execCapoBootVerified_keeps {x0 x1 x2 s} : KeepsO [.clk, .host, .fw, .pwr] s (execCapoBootVerified x0 x1 x2 s) := by
  unfold execCapoBootVerified
  repeat' (first | ((with_reducible apply within_of); rfl) | with_reducible (first | exact Keeps.refl | apply State.at_keeps | apply State.fwEvent_keeps | apply State.modFw_keeps | apply State.modHost_keeps | apply State.modPwr_keeps | apply State.readSlot_keeps | apply State.repairWords_keeps | apply State.takePending_keeps | apply KeepsO.next | exact KeepsO.fault | apply KeepsO.ite | apply Keeps.ite | apply Keeps.foldl | apply Keeps.forAll | apply Keeps.foldlPair | intro _ _) | split | dsimp only [refuse, okS, okB, okParts])

theorem State.drain_keeps {T r x0 s} (w : within [.clk, .servo, .par, .host, .slices, .courses, .eng, .pts, .recs, .led, .sw, .saf, .log, .plc, .ring, .sar, .fw, .pwr] T = true) (h : Keeps T r s) : Keeps T r (State.drain x0 s) := by
  refine Keeps.then (A := [.clk, .servo, .par, .host, .slices, .courses, .eng, .pts, .recs, .led, .sw, .saf, .log, .plc, .ring, .sar, .fw, .pwr]) ?_ w h
  clear w h
  induction x0 generalizing s with
  | zero => exact Keeps.refl
  | succ k ih =>
    unfold State.drain
    split
    · split
      · exact ih.then rfl (State.accumulate_keeps rfl (State.modEng_keeps rfl Keeps.refl))
      · split
        · exact ih.then rfl (State.boundaryWork_keeps rfl Keeps.refl)
        · exact Keeps.refl
    · exact Keeps.refl

theorem execBrownOut_keeps {x0 x1 x2 s} : KeepsO [.clk, .servo, .par, .host, .slices, .courses, .eng, .pts, .recs, .led, .sw, .saf, .log, .plc, .ring, .sar, .fw, .pwr] s (execBrownOut x0 x1 x2 s) := by
  unfold execBrownOut
  repeat' (first | ((with_reducible apply within_of); rfl) | with_reducible (first | exact Keeps.refl | apply State.at_keeps | apply State.drain_keeps | apply State.flushLast_keeps | apply State.modEng_keeps | apply State.modLed_keeps | apply State.modPwr_keeps | apply KeepsO.next | exact KeepsO.fault | apply KeepsO.ite | apply Keeps.ite | apply Keeps.foldl | apply Keeps.forAll | apply Keeps.foldlPair | intro _ _) | split | dsimp only [refuse, okS, okB, okParts])

theorem execRailRestartTrip_keeps {x0 x1 x2 s} : KeepsO [.clk, .servo, .par, .host, .test, .slices, .courses, .eng, .pts, .recs, .led, .sw, .saf, .log, .keys, .disp, .plc, .ring, .sar, .fw, .pwr] s (execRailRestartTrip x0 x1 x2 s) := by
  unfold execRailRestartTrip
  repeat' (first | ((with_reducible apply within_of); rfl) | with_reducible (first | exact Keeps.refl | apply State.at_keeps | apply State.resetCore_keeps | apply KeepsO.next | exact KeepsO.fault | apply KeepsO.ite | apply Keeps.ite | apply Keeps.foldl | apply Keeps.forAll | apply Keeps.foldlPair | intro _ _) | split | dsimp only [refuse, okS, okB, okParts])

theorem execBrownOutReset_keeps {x0 s} : KeepsO [.clk, .servo, .par, .host, .test, .slices, .courses, .eng, .pts, .recs, .led, .sw, .saf, .log, .keys, .disp, .plc, .ring, .sar, .fw, .pwr] s (execBrownOutReset x0 s) := by
  unfold execBrownOutReset
  repeat' (first | ((with_reducible apply within_of); rfl) | with_reducible (first | exact Keeps.refl | apply State.at_keeps | apply State.resetCore_keeps | apply KeepsO.next | exact KeepsO.fault | apply KeepsO.ite | apply Keeps.ite | apply Keeps.foldl | apply Keeps.forAll | apply Keeps.foldlPair | intro _ _) | split | dsimp only [refuse, okS, okB, okParts])

theorem execWarningEnd_keeps {x0 x1 x2 s} : KeepsO [.clk, .host, .led, .sw, .pwr] s (execWarningEnd x0 x1 x2 s) := by
  unfold execWarningEnd
  repeat' (first | ((with_reducible apply within_of); rfl) | with_reducible (first | exact Keeps.refl | apply State.at_keeps | apply State.modLed_keeps | apply State.modPwr_keeps | apply State.modSw_keeps | apply State.warningEvent_keeps | apply KeepsO.next | exact KeepsO.fault | apply KeepsO.ite | apply Keeps.ite | apply Keeps.foldl | apply Keeps.forAll | apply Keeps.foldlPair | intro _ _) | split | dsimp only [refuse, okS, okB, okParts])

theorem execResetnRelease_keeps {x0 s} : KeepsO [.clk, .pwr] s (execResetnRelease x0 s) := by
  unfold execResetnRelease
  repeat' (first | ((with_reducible apply within_of); rfl) | with_reducible (first | exact Keeps.refl | apply State.at_keeps | apply State.modPwr_keeps | apply State.releaseCore_keeps | apply KeepsO.next | exact KeepsO.fault | apply KeepsO.ite | apply Keeps.ite | apply Keeps.foldl | apply Keeps.forAll | apply Keeps.foldlPair | intro _ _) | split | dsimp only [refuse, okS, okB, okParts])

theorem execThermalShutdown_keeps {x0 x1 s} : KeepsO [.clk, .servo, .par, .host, .test, .slices, .courses, .eng, .pts, .recs, .led, .sw, .saf, .log, .keys, .disp, .plc, .ring, .sar, .fw, .pwr] s (execThermalShutdown x0 x1 s) := by
  unfold execThermalShutdown
  repeat' (first | ((with_reducible apply within_of); rfl) | with_reducible (first | exact Keeps.refl | apply State.at_keeps | apply State.resetCore_keeps | apply KeepsO.next | exact KeepsO.fault | apply KeepsO.ite | apply Keeps.ite | apply Keeps.foldl | apply Keeps.forAll | apply Keeps.foldlPair | intro _ _) | split | dsimp only [refuse, okS, okB, okParts])

theorem execPowerGood_keeps {x0 x1 x2 x3 x4 s} : KeepsO [.clk, .pwr] s (execPowerGood x0 x1 x2 x3 x4 s) := by
  unfold execPowerGood
  repeat' (first | ((with_reducible apply within_of); rfl) | with_reducible (first | exact Keeps.refl | apply State.at_keeps | apply State.releaseCore_keeps | apply KeepsO.next | exact KeepsO.fault | apply KeepsO.ite | apply Keeps.ite | apply Keeps.foldl | apply Keeps.forAll | apply Keeps.foldlPair | intro _ _) | split | dsimp only [refuse, okS, okB, okParts])

theorem State.applyNextStart_keeps {T r s} (w : within [.par] T = true) (h : Keeps T r s) : Keeps T r (State.applyNextStart s) := by
  refine Keeps.then (A := [.par]) ?_ w h
  clear w h
  unfold State.applyNextStart
  repeat' (first | ((with_reducible apply within_of); rfl) | with_reducible (first | exact Keeps.refl | apply State.modPar_keeps | apply Keeps.ite | apply Keeps.foldl | apply Keeps.forAll | apply Keeps.foldlPair | intro _ _) | split | dsimp only [refuse, okS, okB, okParts])

theorem execParameterStoreLoaded_keeps {x0 x1 x2 x3 x4 s} : KeepsO [.clk, .par, .host, .eng, .pts, .sw, .saf, .plc, .sar, .pwr] s (execParameterStoreLoaded x0 x1 x2 x3 x4 s) := by
  unfold execParameterStoreLoaded
  repeat' (first | ((with_reducible apply within_of); rfl) | with_reducible (first | exact Keeps.refl | apply State.applyNextStart_keeps | apply State.at_keeps | apply State.driveMpo_keeps | apply State.modEng_keeps | apply State.modPar_keeps | apply State.modPlc_keeps | apply State.modPwr_keeps | apply State.modSar_keeps | apply State.mramError_keeps | apply State.repairWords_keeps | apply State.startSafety_keeps | apply KeepsO.next | exact KeepsO.fault | apply KeepsO.ite | apply Keeps.ite | apply Keeps.foldl | apply Keeps.forAll | apply Keeps.foldlPair | intro _ _) | split | dsimp only [refuse, okS, okB, okParts])

theorem execCapoException_keeps {x0 x1 s} : KeepsO [.clk, .host, .fw, .pwr] s (execCapoException x0 x1 s) := by
  unfold execCapoException
  repeat' (first | ((with_reducible apply within_of); rfl) | with_reducible (first | exact Keeps.refl | apply State.at_keeps | apply State.capoDown_keeps | apply KeepsO.next | exact KeepsO.fault | apply KeepsO.ite | apply Keeps.ite | apply Keeps.foldl | apply Keeps.forAll | apply Keeps.foldlPair | intro _ _) | split | dsimp only [refuse, okS, okB, okParts])

theorem execCapoDivergence_keeps {x0 x1 s} : KeepsO [.clk, .host, .fw, .pwr] s (execCapoDivergence x0 x1 s) := by
  unfold execCapoDivergence
  repeat' (first | ((with_reducible apply within_of); rfl) | with_reducible (first | exact Keeps.refl | apply State.at_keeps | apply State.capoDown_keeps | apply KeepsO.next | exact KeepsO.fault | apply KeepsO.ite | apply Keeps.ite | apply Keeps.foldl | apply Keeps.forAll | apply Keeps.foldlPair | intro _ _) | split | dsimp only [refuse, okS, okB, okParts])

theorem execResetnAssert_keeps {x0 x1 x2 s} : KeepsO [.clk, .servo, .par, .host, .test, .slices, .courses, .eng, .pts, .recs, .led, .sw, .saf, .log, .keys, .disp, .plc, .ring, .sar, .fw, .pwr] s (execResetnAssert x0 x1 x2 s) := by
  unfold execResetnAssert
  repeat' (first | ((with_reducible apply within_of); rfl) | with_reducible (first | exact Keeps.refl | apply State.applyFailsafe_keeps | apply State.at_keeps | apply State.bump_keeps | apply State.modPwr_keeps | apply State.resetCore_keeps | apply KeepsO.next | exact KeepsO.fault | apply KeepsO.ite | apply Keeps.ite | apply Keeps.foldl | apply Keeps.forAll | apply Keeps.foldlPair | intro _ _) | split | dsimp only [refuse, okS, okB, okParts])

theorem execVswMonitorTrip_keeps {x0 x1 s} : KeepsO [.clk, .host, .led, .sw, .disp, .fw, .pwr] s (execVswMonitorTrip x0 x1 s) := by
  unfold execVswMonitorTrip
  repeat' (first | ((with_reducible apply within_of); rfl) | with_reducible (first | exact Keeps.refl | apply State.at_keeps | apply State.modPwr_keeps | apply State.modSw_keeps | apply State.warnIfMetering_keeps | apply KeepsO.next | exact KeepsO.fault | apply KeepsO.ite | apply Keeps.ite | apply Keeps.foldl | apply Keeps.forAll | apply Keeps.foldlPair | intro _ _) | split | dsimp only [refuse, okS, okB, okParts])

end Sys2Proof.Machine
end

