-- ==== Sys2Proof/Laws/KeepsHostNode.lean ====
section
/-!
SUPPORT. Which parts of the state each operation of Machine/HostNode.lean leaves as they are.
-/

namespace Sys2Proof.Machine

theorem serveEventDetail_keeps {T r x0 s} (w : within [.host] T = true) (h : Keeps T r s) : Keeps T r (serveEventDetail x0 s).st := by
  refine Keeps.then (A := [.host]) ?_ w h
  clear w h
  unfold serveEventDetail okB refuse
  repeat' (first | ((with_reducible apply within_of); rfl) | with_reducible (first | exact Keeps.refl | apply State.modHost_keeps | apply Keeps.ite | apply Keeps.foldl | apply Keeps.forAll | apply Keeps.foldlPair | intro _ _) | split | dsimp only [refuse, okS, okB, okParts])

theorem State.factoryReset_keeps {T r s x1} (w : within [.par, .host, .courses, .eng, .pts, .recs, .led, .log, .plc, .fw, .pwr] T = true) (h : Keeps T r s) : Keeps T r (State.factoryReset s x1) := by
  refine Keeps.then (A := [.par, .host, .courses, .eng, .pts, .recs, .led, .log, .plc, .fw, .pwr]) ?_ w h
  clear w h
  unfold State.factoryReset
  repeat' (first | ((with_reducible apply within_of); rfl) | with_reducible (first | exact Keeps.refl | apply State.capoDown_keeps | apply State.enterHost_keeps | apply State.modCourses_keeps | apply State.modEng_keeps | apply State.modLed_keeps | apply State.modPar_keeps | apply State.modPlc_keeps | apply State.modPts_keeps | apply State.modRecs_keeps | apply Keeps.ite | apply Keeps.foldl | apply Keeps.forAll | apply Keeps.foldlPair | intro _ _) | split | dsimp only [refuse, okS, okB, okParts])

theorem serveFactoryReset_keeps {T r x0 x1 s} (w : within [.par, .host, .courses, .eng, .pts, .recs, .led, .log, .plc, .fw, .pwr] T = true) (h : Keeps T r s) : Keeps T r (serveFactoryReset x0 x1 s).st := by
  refine Keeps.then (A := [.par, .host, .courses, .eng, .pts, .recs, .led, .log, .plc, .fw, .pwr]) ?_ w h
  clear w h
  unfold serveFactoryReset noPayload withSeal withLog okS refuse
  repeat' (first | ((with_reducible apply within_of); rfl) | with_reducible (first | exact Keeps.refl | apply State.factoryReset_keeps | apply State.logRefused_keeps | apply Keeps.ite | apply Keeps.foldl | apply Keeps.forAll | apply Keeps.foldlPair | intro _ _) | split | dsimp only [refuse, okS, okB, okParts])

theorem serveIdentity_keeps {T r x0 s} (w : within [] T = true) (h : Keeps T r s) : Keeps T r (serveIdentity x0 s).st := by
  refine Keeps.then (A := []) ?_ w h
  clear w h
  unfold serveIdentity noPayload okB
  repeat' (first | ((with_reducible apply within_of); rfl) | with_reducible (first | exact Keeps.refl | apply Keeps.ite | apply Keeps.foldl | apply Keeps.forAll | apply Keeps.foldlPair | intro _ _) | split | dsimp only [refuse, okS, okB, okParts])

theorem serveNodeStatus_keeps {T r x0 s} (w : within [] T = true) (h : Keeps T r s) : Keeps T r (serveNodeStatus x0 s).st := by
  refine Keeps.then (A := []) ?_ w h
  clear w h
  unfold serveNodeStatus noPayload okB
  repeat' (first | ((with_reducible apply within_of); rfl) | with_reducible (first | exact Keeps.refl | apply Keeps.ite | apply Keeps.foldl | apply Keeps.forAll | apply Keeps.foldlPair | intro _ _) | split | dsimp only [refuse, okS, okB, okParts])

theorem execIdentity_keeps {x0 x1 s} : KeepsO [.clk, .host] s (execIdentity x0 x1 s) := hostCmd_keeps (A := []) (fun _ _ => serveIdentity_keeps rfl Keeps.refl) rfl rfl

theorem execFactoryReset_keeps {x0 x1 s} : KeepsO [.clk, .par, .host, .courses, .eng, .pts, .recs, .led, .log, .plc, .fw, .pwr] s (execFactoryReset x0 x1 s) := hostCmd_keeps (A := [.par, .host, .courses, .eng, .pts, .recs, .led, .log, .plc, .fw, .pwr]) (fun _ _ => serveFactoryReset_keeps rfl Keeps.refl) rfl rfl

theorem execEventDetail_keeps {x0 x1 s} : KeepsO [.clk, .host] s (execEventDetail x0 x1 s) := hostCmd_keeps (A := [.host]) (fun _ _ => serveEventDetail_keeps rfl Keeps.refl) rfl rfl

theorem execNodeStatus_keeps {x0 x1 s} : KeepsO [.clk, .host] s (execNodeStatus x0 x1 s) := hostCmd_keeps (A := []) (fun _ _ => serveNodeStatus_keeps rfl Keeps.refl) rfl rfl

end Sys2Proof.Machine
end

