-- ==== Sys2Proof/Laws/KeepsTestWindow.lean ====
section
/-!
SUPPORT. Which parts of the state each operation of Machine/TestWindow.lean leaves as they are.
-/

namespace Sys2Proof.Machine

theorem serveTestRelock_keeps {T r x0 x1 s} (w : within [.host, .test, .eng, .sw, .log] T = true) (h : Keeps T r s) : Keeps T r (serveTestRelock x0 x1 s).st := by
  refine Keeps.then (A := [.host, .test, .eng, .sw, .log]) ?_ w h
  clear w h
  unfold serveTestRelock noPayload withLog okS refuse
  repeat' (first | ((with_reducible apply within_of); rfl) | with_reducible (first | exact Keeps.refl | apply State.logRefused_keeps | apply State.relock_keeps | apply Keeps.ite | apply Keeps.foldl | apply Keeps.forAll | apply Keeps.foldlPair | intro _ _) | split | dsimp only [refuse, okS, okB, okParts])

theorem execTestRelock_keeps {x0 x1 s} : KeepsO [.clk, .host, .test, .eng, .sw, .log] s (execTestRelock x0 x1 s) := hostCmd_keeps (A := [.host, .test, .eng, .sw, .log]) (fun _ _ => serveTestRelock_keeps rfl Keeps.refl) rfl rfl

theorem State.testTouched_keeps {T r s} (w : within [.test] T = true) (h : Keeps T r s) : Keeps T r (State.testTouched s) := by
  refine Keeps.then (A := [.test]) ?_ w h
  clear w h
  unfold State.testTouched
  repeat' (first | ((with_reducible apply within_of); rfl) | with_reducible (first | exact Keeps.refl | apply State.modTest_keeps | apply Keeps.ite | apply Keeps.foldl | apply Keeps.forAll | apply Keeps.foldlPair | intro _ _) | split | dsimp only [refuse, okS, okB, okParts])

theorem serveTestUnlock_keeps {T r x0 x1 s} (w : within [.host, .test, .log] T = true) (h : Keeps T r s) : Keeps T r (serveTestUnlock x0 x1 s).st := by
  refine Keeps.then (A := [.host, .test, .log]) ?_ w h
  clear w h
  unfold serveTestUnlock noPayload withSeal withLog okS
  repeat' (first | ((with_reducible apply within_of); rfl) | with_reducible (first | exact Keeps.refl | apply State.enterHost_keeps | apply State.logRefused_keeps | apply State.modTest_keeps | apply State.testTouched_keeps | apply Keeps.ite | apply Keeps.foldl | apply Keeps.forAll | apply Keeps.foldlPair | intro _ _) | split | dsimp only [refuse, okS, okB, okParts])

theorem State.testClear_keeps {T r s x1} (w : within [.host, .test, .eng, .sw] T = true) (h : Keeps T r s) : Keeps T r (State.testClear s x1) := by
  refine Keeps.then (A := [.host, .test, .eng, .sw]) ?_ w h
  clear w h
  unfold State.testClear
  repeat' (first | ((with_reducible apply within_of); rfl) | with_reducible (first | exact Keeps.refl | apply State.setTest_keeps | apply State.testTouched_keeps | apply Keeps.ite | apply Keeps.foldl | apply Keeps.forAll | apply Keeps.foldlPair | intro _ _) | split | dsimp only [refuse, okS, okB, okParts])

theorem State.testWrite_keeps {T r s x1 x2} (w : within [.host, .test, .eng, .sw] T = true) (h : Keeps T r s) : Keeps T r (State.testWrite s x1 x2) := by
  refine Keeps.then (A := [.host, .test, .eng, .sw]) ?_ w h
  clear w h
  unfold State.testWrite
  repeat' (first | ((with_reducible apply within_of); rfl) | with_reducible (first | exact Keeps.refl | apply State.setTest_keeps | apply State.testTouched_keeps | apply Keeps.ite | apply Keeps.foldl | apply Keeps.forAll | apply Keeps.foldlPair | intro _ _) | split | dsimp only [refuse, okS, okB, okParts])

theorem execTestRingWrite_keeps {x0 s} : KeepsO [.host, .test, .eng, .sw] s (execTestRingWrite x0 s) := by
  unfold execTestRingWrite
  repeat' (first | ((with_reducible apply within_of); rfl) | with_reducible (first | exact Keeps.refl | apply State.testWrite_keeps | apply KeepsO.next | exact KeepsO.fault | apply KeepsO.ite | apply Keeps.ite | apply Keeps.foldl | apply Keeps.forAll | apply Keeps.foldlPair | intro _ _) | split | dsimp only [refuse, okS, okB, okParts])

theorem execTestPlcWrite_keeps {x0 s} : KeepsO [.host, .test, .eng, .sw] s (execTestPlcWrite x0 s) := by
  unfold execTestPlcWrite
  repeat' (first | ((with_reducible apply within_of); rfl) | with_reducible (first | exact Keeps.refl | apply State.testWrite_keeps | apply KeepsO.next | exact KeepsO.fault | apply KeepsO.ite | apply Keeps.ite | apply Keeps.foldl | apply Keeps.forAll | apply Keeps.foldlPair | intro _ _) | split | dsimp only [refuse, okS, okB, okParts])

theorem execTestZcWrite_keeps {x0 s} : KeepsO [.host, .test, .eng, .sw] s (execTestZcWrite x0 s) := by
  unfold execTestZcWrite
  repeat' (first | ((with_reducible apply within_of); rfl) | with_reducible (first | exact Keeps.refl | apply State.testWrite_keeps | apply KeepsO.next | exact KeepsO.fault | apply KeepsO.ite | apply Keeps.ite | apply Keeps.foldl | apply Keeps.forAll | apply Keeps.foldlPair | intro _ _) | split | dsimp only [refuse, okS, okB, okParts])

theorem execTestStretchWrite_keeps {x0 x1 s} : KeepsO [.host, .test, .eng, .sw] s (execTestStretchWrite x0 x1 s) := by
  unfold execTestStretchWrite
  repeat' (first | ((with_reducible apply within_of); rfl) | with_reducible (first | exact Keeps.refl | apply State.testWrite_keeps | apply KeepsO.next | exact KeepsO.fault | apply KeepsO.ite | apply Keeps.ite | apply Keeps.foldl | apply Keeps.forAll | apply Keeps.foldlPair | intro _ _) | split | dsimp only [refuse, okS, okB, okParts])

theorem execTestTimeout_keeps {x0 s} : KeepsO [.clk, .host, .test, .eng, .sw, .log] s (execTestTimeout x0 s) := by
  unfold execTestTimeout
  repeat' (first | ((with_reducible apply within_of); rfl) | with_reducible (first | exact Keeps.refl | apply State.at_keeps | apply State.relock_keeps | apply KeepsO.next | exact KeepsO.fault | apply KeepsO.ite | apply Keeps.ite | apply Keeps.foldl | apply Keeps.forAll | apply Keeps.foldlPair | intro _ _) | split | dsimp only [refuse, okS, okB, okParts])

theorem execTestClear_keeps {x0 s} : KeepsO [.host, .test, .eng, .sw] s (execTestClear x0 s) := by
  unfold execTestClear
  repeat' (first | ((with_reducible apply within_of); rfl) | with_reducible (first | exact Keeps.refl | apply State.testClear_keeps | apply KeepsO.next | exact KeepsO.fault | apply KeepsO.ite | apply Keeps.ite | apply Keeps.foldl | apply Keeps.forAll | apply Keeps.foldlPair | intro _ _) | split | dsimp only [refuse, okS, okB, okParts])

theorem execTestMramWrite_keeps {x0 s} : KeepsO [.host, .test, .eng, .sw] s (execTestMramWrite x0 s) := by
  unfold execTestMramWrite
  repeat' (first | ((with_reducible apply within_of); rfl) | with_reducible (first | exact Keeps.refl | apply State.testWrite_keeps | apply KeepsO.next | exact KeepsO.fault | apply KeepsO.ite | apply Keeps.ite | apply Keeps.foldl | apply Keeps.forAll | apply Keeps.foldlPair | intro _ _) | split | dsimp only [refuse, okS, okB, okParts])

theorem execTestSafetyWrite_keeps {x0 s} : KeepsO [.host, .test, .eng, .sw] s (execTestSafetyWrite x0 s) := by
  unfold execTestSafetyWrite
  repeat' (first | ((with_reducible apply within_of); rfl) | with_reducible (first | exact Keeps.refl | apply State.testWrite_keeps | apply KeepsO.next | exact KeepsO.fault | apply KeepsO.ite | apply Keeps.ite | apply Keeps.foldl | apply Keeps.forAll | apply Keeps.foldlPair | intro _ _) | split | dsimp only [refuse, okS, okB, okParts])

theorem execTestUnlock_keeps {x0 x1 s} : KeepsO [.clk, .host, .test, .log] s (execTestUnlock x0 x1 s) := hostCmd_keeps (A := [.host, .test, .log]) (fun _ _ => serveTestUnlock_keeps rfl Keeps.refl) rfl rfl

theorem execTestWdWrite_keeps {x0 s} : KeepsO [.host, .test, .eng, .sw] s (execTestWdWrite x0 s) := by
  unfold execTestWdWrite
  repeat' (first | ((with_reducible apply within_of); rfl) | with_reducible (first | exact Keeps.refl | apply State.testWrite_keeps | apply KeepsO.next | exact KeepsO.fault | apply KeepsO.ite | apply Keeps.ite | apply Keeps.foldl | apply Keeps.forAll | apply Keeps.foldlPair | intro _ _) | split | dsimp only [refuse, okS, okB, okParts])

theorem execTestFifoWrite_keeps {x0 s} : KeepsO [.host, .test, .eng, .sw] s (execTestFifoWrite x0 s) := by
  unfold execTestFifoWrite
  repeat' (first | ((with_reducible apply within_of); rfl) | with_reducible (first | exact Keeps.refl | apply State.testWrite_keeps | apply KeepsO.next | exact KeepsO.fault | apply KeepsO.ite | apply Keeps.ite | apply Keeps.foldl | apply Keeps.forAll | apply Keeps.foldlPair | intro _ _) | split | dsimp only [refuse, okS, okB, okParts])

end Sys2Proof.Machine
end

