-- ==== Sys2Proof/Laws/KeepsHostPort.lean ====
section
/-!
SUPPORT. Which parts of the state each operation of Machine/HostPort.lean leaves as they are.
-/

namespace Sys2Proof.Machine

theorem State.writeMask_keeps {T r s x1 x2} (w : within [.host] T = true) (h : Keeps T r s) : Keeps T r (State.writeMask s x1 x2) := by
  refine Keeps.then (A := [.host]) ?_ w h
  clear w h
  unfold State.writeMask
  repeat' (first | ((with_reducible apply within_of); rfl) | with_reducible (first | exact Keeps.refl | apply State.modHost_keeps | apply Keeps.ite | apply Keeps.foldl | apply Keeps.forAll | apply Keeps.foldlPair | intro _ _) | split | dsimp only [refuse, okS, okB, okParts])

theorem State.clearEvents_keeps {T r s x1 x2} (w : within [.host] T = true) (h : Keeps T r s) : Keeps T r (State.clearEvents s x1 x2) := by
  refine Keeps.then (A := [.host]) ?_ w h
  clear w h
  unfold State.clearEvents
  repeat' (first | ((with_reducible apply within_of); rfl) | with_reducible (first | exact Keeps.refl | apply State.modHost_keeps | apply Keeps.ite | apply Keeps.foldl | apply Keeps.forAll | apply Keeps.foldlPair | intro _ _) | split | dsimp only [refuse, okS, okB, okParts])

theorem State.poisonEvent_keeps {T r s x1 x2} (w : within [.host] T = true) (h : Keeps T r s) : Keeps T r (State.poisonEvent s x1 x2) := by
  refine Keeps.then (A := [.host]) ?_ w h
  clear w h
  unfold State.poisonEvent
  repeat' (first | ((with_reducible apply within_of); rfl) | with_reducible (first | exact Keeps.refl | apply State.modStream_keeps | apply State.raise_keeps | apply Keeps.ite | apply Keeps.foldl | apply Keeps.forAll | apply Keeps.foldlPair | intro _ _) | split | dsimp only [refuse, okS, okB, okParts])

theorem State.portRead_keeps {T r s x1 x2} (w : within [.host] T = true) (h : Keeps T r s) : Keeps T r (State.portRead s x1 x2).2 := by
  refine Keeps.then (A := [.host]) ?_ w h
  clear w h
  unfold State.portRead
  repeat' (first | ((with_reducible apply within_of); rfl) | with_reducible (first | exact Keeps.refl | apply State.modStream_keeps | apply State.poisonEvent_keeps | apply Keeps.ite | apply Keeps.foldl | apply Keeps.forAll | apply Keeps.foldlPair | intro _ _) | split | dsimp only [refuse, okS, okB, okParts])

theorem State.flushStream_keeps {T r s x1 x2} (w : within [.host] T = true) (h : Keeps T r s) : Keeps T r (State.flushStream s x1 x2) := by
  refine Keeps.then (A := [.host]) ?_ w h
  clear w h
  unfold State.flushStream
  repeat' (first | ((with_reducible apply within_of); rfl) | with_reducible (first | exact Keeps.refl | apply State.modStream_keeps | apply Keeps.ite | apply Keeps.foldl | apply Keeps.forAll | apply Keeps.foldlPair | intro _ _) | split | dsimp only [refuse, okS, okB, okParts])

theorem State.watchdogEvent_keeps {T r s x1} (w : within [.host] T = true) (h : Keeps T r s) : Keeps T r (State.watchdogEvent s x1) := by
  refine Keeps.then (A := [.host]) ?_ w h
  clear w h
  unfold State.watchdogEvent
  repeat' (first | ((with_reducible apply within_of); rfl) | with_reducible (first | exact Keeps.refl | apply State.raise_keeps | apply Keeps.ite | apply Keeps.foldl | apply Keeps.forAll | apply Keeps.foldlPair | intro _ _) | split | dsimp only [refuse, okS, okB, okParts])

theorem State.heartbeat_keeps {T r s} (w : within [.host] T = true) (h : Keeps T r s) : Keeps T r (State.heartbeat s) := by
  refine Keeps.then (A := [.host]) ?_ w h
  clear w h
  unfold State.heartbeat
  repeat' (first | ((with_reducible apply within_of); rfl) | with_reducible (first | exact Keeps.refl | apply State.modHost_keeps | apply State.watchdogEvent_keeps | apply Keeps.ite | apply Keeps.foldl | apply Keeps.forAll | apply Keeps.foldlPair | intro _ _) | split | dsimp only [refuse, okS, okB, okParts])

theorem State.testWriteAt_keeps {T r s x1 x2} (w : within [.host, .test, .eng, .sw] T = true) (h : Keeps T r s) : Keeps T r (State.testWriteAt s x1 x2) := by
  refine Keeps.then (A := [.host, .test, .eng, .sw]) ?_ w h
  clear w h
  unfold State.testWriteAt
  repeat' (first | ((with_reducible apply within_of); rfl) | with_reducible (first | exact Keeps.refl | apply State.testClear_keeps | apply State.testWrite_keeps | apply Keeps.ite | apply Keeps.foldl | apply Keeps.forAll | apply Keeps.foldlPair | intro _ _) | split | dsimp only [refuse, okS, okB, okParts])

theorem State.writeStreamStatus_keeps {T r s x1 x2} (w : within [.host] T = true) (h : Keeps T r s) : Keeps T r (State.writeStreamStatus s x1 x2) := by
  refine Keeps.then (A := [.host]) ?_ w h
  clear w h
  unfold State.writeStreamStatus
  repeat' (first | ((with_reducible apply within_of); rfl) | with_reducible (first | exact Keeps.refl | apply State.modStream_keeps | apply Keeps.ite | apply Keeps.foldl | apply Keeps.forAll | apply Keeps.foldlPair | intro _ _) | split | dsimp only [refuse, okS, okB, okParts])

theorem State.regWrite_keeps {T r s x1 x2} (w : within [.host, .test, .eng, .sw] T = true) (h : Keeps T r s) : Keeps T r (State.regWrite s x1 x2) := by
  refine Keeps.then (A := [.host, .test, .eng, .sw]) ?_ w h
  clear w h
  unfold State.regWrite
  repeat' (first | ((with_reducible apply within_of); rfl) | with_reducible (first | exact Keeps.refl | apply State.clearEvents_keeps | apply State.flushStream_keeps | apply State.heartbeat_keeps | apply State.modHost_keeps | apply State.testWriteAt_keeps | apply State.writeMask_keeps | apply State.writeStreamStatus_keeps | apply Keeps.ite | apply Keeps.foldl | apply Keeps.forAll | apply Keeps.foldlPair | intro _ _) | split | dsimp only [refuse, okS, okB, okParts])

theorem State.peerNow_keeps {T r s x1} (w : within [.host] T = true) (h : Keeps T r s) : Keeps T r (State.peerNow s x1) := by
  refine Keeps.then (A := [.host]) ?_ w h
  clear w h
  unfold State.peerNow
  repeat' (first | ((with_reducible apply within_of); rfl) | with_reducible (first | exact Keeps.refl | apply State.modHost_keeps | apply Keeps.ite | apply Keeps.foldl | apply Keeps.forAll | apply Keeps.foldlPair | intro _ _) | split | dsimp only [refuse, okS, okB, okParts])

theorem State.releaseMbox_keeps {T r s x1} (w : within [.host] T = true) (h : Keeps T r s) : Keeps T r (State.releaseMbox s x1) := by
  refine Keeps.then (A := [.host]) ?_ w h
  clear w h
  unfold State.releaseMbox
  repeat' (first | ((with_reducible apply within_of); rfl) | with_reducible (first | exact Keeps.refl | apply State.modMbox_keeps | apply State.peerNow_keeps | apply Keeps.ite | apply Keeps.foldl | apply Keeps.forAll | apply Keeps.foldlPair | intro _ _) | split | dsimp only [refuse, okS, okB, okParts])

theorem State.regRead_keeps {T r s x1} (w : within [.clk, .host] T = true) (h : Keeps T r s) : Keeps T r (State.regRead s x1).2 := by
  refine Keeps.then (A := [.clk, .host]) ?_ w h
  clear w h
  unfold State.regRead
  repeat' (first | ((with_reducible apply within_of); rfl) | with_reducible (first | exact Keeps.refl | apply State.bump_keeps | apply State.modHost_keeps | apply Keeps.ite | apply Keeps.foldl | apply Keeps.forAll | apply Keeps.foldlPair | intro _ _) | split | dsimp only [refuse, okS, okB, okParts])

theorem execStreamTailTimeout_keeps {x0 x1 s} : KeepsO [.clk, .host] s (execStreamTailTimeout x0 x1 s) := by
  unfold execStreamTailTimeout
  repeat' (first | ((with_reducible apply within_of); rfl) | with_reducible (first | exact Keeps.refl | apply State.at_keeps | apply State.modStream_keeps | apply State.streamReport_keeps | apply KeepsO.next | exact KeepsO.fault | apply KeepsO.ite | apply Keeps.ite | apply Keeps.foldl | apply Keeps.forAll | apply Keeps.foldlPair | intro _ _) | split | dsimp only [refuse, okS, okB, okParts])

theorem execStreamFlush_keeps {x0 x1 s} : KeepsO [.host] s (execStreamFlush x0 x1 s) := by
  unfold execStreamFlush hostAct
  repeat' (first | ((with_reducible apply within_of); rfl) | with_reducible (first | exact Keeps.refl | apply State.flushStream_keeps | apply KeepsO.next | exact KeepsO.fault | apply KeepsO.ite | apply Keeps.ite | apply Keeps.foldl | apply Keeps.forAll | apply Keeps.foldlPair | intro _ _) | split | dsimp only [refuse, okS, okB, okParts])

theorem execQspiTransactionError_keeps {x0 s} : KeepsO [.host] s (execQspiTransactionError x0 s) := by
  unfold execQspiTransactionError hostAct
  repeat' (first | ((with_reducible apply within_of); rfl) | with_reducible (first | exact Keeps.refl | apply State.modHost_keeps | apply KeepsO.next | exact KeepsO.fault | apply KeepsO.ite | apply Keeps.ite | apply Keeps.foldl | apply Keeps.forAll | apply Keeps.foldlPair | intro _ _) | split | dsimp only [refuse, okS, okB, okParts])

theorem execStreamPortRead_keeps {x0 x1 s} : KeepsO [.host] s (execStreamPortRead x0 x1 s) := by
  unfold execStreamPortRead hostAct
  repeat' (first | ((with_reducible apply within_of); rfl) | with_reducible (first | exact Keeps.refl | apply State.modHost_keeps | apply State.portRead_keeps | apply KeepsO.next | exact KeepsO.fault | apply KeepsO.ite | apply Keeps.ite | apply Keeps.foldl | apply Keeps.forAll | apply Keeps.foldlPair | intro _ _) | split | dsimp only [refuse, okS, okB, okParts])

theorem execFrameLoRead_keeps {s} : KeepsO [.clk, .host] s (execFrameLoRead s) := by
  unfold execFrameLoRead hostAct
  repeat' (first | ((with_reducible apply within_of); rfl) | with_reducible (first | exact Keeps.refl | apply State.modHost_keeps | apply State.regRead_keeps | apply KeepsO.next | exact KeepsO.fault | apply KeepsO.ite | apply Keeps.ite | apply Keeps.foldl | apply Keeps.forAll | apply Keeps.foldlPair | intro _ _) | split | dsimp only [refuse, okS, okB, okParts])

theorem execMailboxRelease_keeps {x0 x1 s} : KeepsO [.clk, .host] s (execMailboxRelease x0 x1 s) := by
  unfold execMailboxRelease hostAct
  repeat' (first | ((with_reducible apply within_of); rfl) | with_reducible (first | exact Keeps.refl | apply State.confined_keeps | apply State.releaseMbox_keeps | apply KeepsO.next | exact KeepsO.fault | apply KeepsO.ite | apply Keeps.ite | apply Keeps.foldl | apply Keeps.forAll | apply Keeps.foldlPair | intro _ _) | split | dsimp only [refuse, okS, okB, okParts])

theorem execHostWatchdogTimeout_keeps {x0 s} : KeepsO [.clk, .host, .pts] s (execHostWatchdogTimeout x0 s) := by
  unfold execHostWatchdogTimeout
  repeat' (first | ((with_reducible apply within_of); rfl) | with_reducible (first | exact Keeps.refl | apply State.addCause_keeps | apply State.at_keeps | apply State.modHost_keeps | apply State.watchdogEvent_keeps | apply KeepsO.next | exact KeepsO.fault | apply KeepsO.ite | apply Keeps.ite | apply Keeps.foldl | apply Keeps.forAll | apply Keeps.foldlPair | intro _ _) | split | dsimp only [refuse, okS, okB, okParts])

theorem execEventClear_keeps {x0 x1 s} : KeepsO [.host] s (execEventClear x0 x1 s) := by
  unfold execEventClear hostAct
  repeat' (first | ((with_reducible apply within_of); rfl) | with_reducible (first | exact Keeps.refl | apply State.clearEvents_keeps | apply KeepsO.next | exact KeepsO.fault | apply KeepsO.ite | apply Keeps.ite | apply Keeps.foldl | apply Keeps.forAll | apply Keeps.foldlPair | intro _ _) | split | dsimp only [refuse, okS, okB, okParts])

theorem execHeartbeat_keeps {x0 s} : KeepsO [.host] s (execHeartbeat x0 s) := by
  unfold execHeartbeat hostAct
  repeat' (first | ((with_reducible apply within_of); rfl) | with_reducible (first | exact Keeps.refl | apply State.heartbeat_keeps | apply KeepsO.next | exact KeepsO.fault | apply KeepsO.ite | apply Keeps.ite | apply Keeps.foldl | apply Keeps.forAll | apply Keeps.foldlPair | intro _ _) | split | dsimp only [refuse, okS, okB, okParts])

theorem execReplyCacheExpiry_keeps {x0 s} : KeepsO [.clk, .host] s (execReplyCacheExpiry x0 s) := by
  unfold execReplyCacheExpiry
  repeat' (first | ((with_reducible apply within_of); rfl) | with_reducible (first | exact Keeps.refl | apply State.at_keeps | apply State.modHost_keeps | apply KeepsO.next | exact KeepsO.fault | apply KeepsO.ite | apply Keeps.ite | apply Keeps.foldl | apply Keeps.forAll | apply Keeps.foldlPair | intro _ _) | split | dsimp only [refuse, okS, okB, okParts])

end Sys2Proof.Machine
end

