-- ==== Sys2Proof/Laws/KeepsHostRecords.lean ====
section
/-!
SUPPORT. Which parts of the state each operation of Machine/HostRecords.lean leaves as they are.
-/

namespace Sys2Proof.Machine

theorem State.endSigned_keeps {T r s x1} (w : within [.pts] T = true) (h : Keeps T r s) : Keeps T r (State.endSigned s x1) := by
  refine Keeps.then (A := [.pts]) ?_ w h
  clear w h
  unfold State.endSigned
  repeat' (first | ((with_reducible apply within_of); rfl) | with_reducible (first | exact Keeps.refl | apply State.eraseKey_keeps | apply State.modSes_keeps | apply Keeps.ite | apply Keeps.foldl | apply Keeps.forAll | apply Keeps.foldlPair | intro _ _) | split | dsimp only [refuse, okS, okB, okParts])

theorem State.leaveClosed_keeps {T r s} (w : within [.host, .pts] T = true) (h : Keeps T r s) : Keeps T r (State.leaveClosed s) := by
  refine Keeps.then (A := [.host, .pts]) ?_ w h
  clear w h
  unfold State.leaveClosed
  repeat' (first | ((with_reducible apply within_of); rfl) | with_reducible (first | exact Keeps.refl | apply State.closedToIdle_keeps | apply Keeps.ite | apply Keeps.foldl | apply Keeps.forAll | apply Keeps.foldlPair | intro _ _) | split | dsimp only [refuse, okS, okB, okParts])

theorem execRecordSigned_keeps {x0 s} : KeepsO [.clk, .host, .pts, .recs, .keys] s (execRecordSigned x0 s) := by
  unfold execRecordSigned
  repeat' (first | ((with_reducible apply within_of); rfl) | with_reducible (first | exact Keeps.refl | apply State.askKey_keeps | apply State.at_keeps | apply State.endSigned_keeps | apply State.journalNear_keeps | apply State.journalRec_keeps | apply State.leaveClosed_keeps | apply State.modRecs_keeps | apply State.streamRec_keeps | apply KeepsO.next | exact KeepsO.fault | apply KeepsO.ite | apply Keeps.ite | apply Keeps.foldl | apply Keeps.forAll | apply Keeps.foldlPair | intro _ _) | split | dsimp only [refuse, okS, okB, okParts])

theorem State.journalRearm_keeps {T r s} (w : within [.recs] T = true) (h : Keeps T r s) : Keeps T r (State.journalRearm s) := by
  refine Keeps.then (A := [.recs]) ?_ w h
  clear w h
  unfold State.journalRearm
  repeat' (first | ((with_reducible apply within_of); rfl) | with_reducible (first | exact Keeps.refl | apply State.modRecs_keeps | apply Keeps.ite | apply Keeps.foldl | apply Keeps.forAll | apply Keeps.foldlPair | intro _ _) | split | dsimp only [refuse, okS, okB, okParts])

theorem serveRecordAcknowledge_keeps {T r x0 s} (w : within [.pts, .recs] T = true) (h : Keeps T r s) : Keeps T r (serveRecordAcknowledge x0 s).st := by
  refine Keeps.then (A := [.pts, .recs]) ?_ w h
  clear w h
  unfold serveRecordAcknowledge onSeries okS refuse
  repeat' (first | ((with_reducible apply within_of); rfl) | with_reducible (first | exact Keeps.refl | apply State.journalRearm_keeps | apply State.modPt_keeps | apply State.modRecs_keeps | apply Keeps.ite | apply Keeps.foldl | apply Keeps.forAll | apply Keeps.foldlPair | intro _ _) | split | dsimp only [refuse, okS, okB, okParts])

theorem serveLogRead_keeps {T r x0 s} (w : within [.clk, .host, .log, .pwr] T = true) (h : Keeps T r s) : Keeps T r (serveLogRead x0 s).st := by
  refine Keeps.then (A := [.clk, .host, .log, .pwr]) ?_ w h
  clear w h
  unfold serveLogRead okB refuse
  repeat' (first | ((with_reducible apply within_of); rfl) | with_reducible (first | exact Keeps.refl | apply State.modLog_keeps | apply State.readMram_keeps | apply Keeps.ite | apply Keeps.foldl | apply Keeps.forAll | apply Keeps.foldlPair | intro _ _) | split | dsimp only [refuse, okS, okB, okParts])

theorem execLogRead_keeps {x0 x1 s} : KeepsO [.clk, .host, .log, .pwr] s (execLogRead x0 x1 s) := hostCmd_keeps (A := [.clk, .host, .log, .pwr]) (fun _ _ => serveLogRead_keeps rfl Keeps.refl) rfl rfl

theorem serveJournalRead_keeps {T r x0 s} (w : within [.clk, .host, .recs, .pwr] T = true) (h : Keeps T r s) : Keeps T r (serveJournalRead x0 s).st := by
  refine Keeps.then (A := [.clk, .host, .recs, .pwr]) ?_ w h
  clear w h
  unfold serveJournalRead onSeries okParts refuse
  repeat' (first | ((with_reducible apply within_of); rfl) | with_reducible (first | exact Keeps.refl | apply State.modRecs_keeps | apply State.readMram_keeps | apply Keeps.ite | apply Keeps.foldl | apply Keeps.forAll | apply Keeps.foldlPair | intro _ _) | split | dsimp only [refuse, okS, okB, okParts])

theorem serveJournalStatus_keeps {T r x0 s} (w : within [] T = true) (h : Keeps T r s) : Keeps T r (serveJournalStatus x0 s).st := by
  refine Keeps.then (A := []) ?_ w h
  clear w h
  unfold serveJournalStatus noPayload okB
  repeat' (first | ((with_reducible apply within_of); rfl) | with_reducible (first | exact Keeps.refl | apply Keeps.ite | apply Keeps.foldl | apply Keeps.forAll | apply Keeps.foldlPair | intro _ _) | split | dsimp only [refuse, okS, okB, okParts])

theorem serveLogAcknowledge_keeps {T r x0 s} (w : within [.log] T = true) (h : Keeps T r s) : Keeps T r (serveLogAcknowledge x0 s).st := by
  refine Keeps.then (A := [.log]) ?_ w h
  clear w h
  unfold serveLogAcknowledge okS refuse
  repeat' (first | ((with_reducible apply within_of); rfl) | with_reducible (first | exact Keeps.refl | apply State.modLog_keeps | apply Keeps.ite | apply Keeps.foldl | apply Keeps.forAll | apply Keeps.foldlPair | intro _ _) | split | dsimp only [refuse, okS, okB, okParts])

theorem execLogAcknowledge_keeps {x0 x1 s} : KeepsO [.clk, .host, .log] s (execLogAcknowledge x0 x1 s) := hostCmd_keeps (A := [.log]) (fun _ _ => serveLogAcknowledge_keeps rfl Keeps.refl) rfl rfl

theorem execJournalStatus_keeps {x0 x1 s} : KeepsO [.clk, .host] s (execJournalStatus x0 x1 s) := hostCmd_keeps (A := []) (fun _ _ => serveJournalStatus_keeps rfl Keeps.refl) rfl rfl

theorem execJournalRead_keeps {x0 x1 s} : KeepsO [.clk, .host, .recs, .pwr] s (execJournalRead x0 x1 s) := hostCmd_keeps (A := [.clk, .host, .recs, .pwr]) (fun _ _ => serveJournalRead_keeps rfl Keeps.refl) rfl rfl

theorem execRecordStreamDequeue_keeps {x0 s} : KeepsO [.clk, .host, .pts, .recs] s (execRecordStreamDequeue x0 s) := by
  unfold execRecordStreamDequeue
  repeat' (first | ((with_reducible apply within_of); rfl) | with_reducible (first | exact Keeps.refl | apply State.at_keeps | apply State.leaveClosed_keeps | apply State.modRecs_keeps | apply State.writeUnit_keeps | apply KeepsO.next | exact KeepsO.fault | apply KeepsO.ite | apply Keeps.ite | apply Keeps.foldl | apply Keeps.forAll | apply Keeps.foldlPair | intro _ _) | split | dsimp only [refuse, okS, okB, okParts])

theorem execRecordAcknowledge_keeps {x0 x1 s} : KeepsO [.clk, .host, .pts, .recs] s (execRecordAcknowledge x0 x1 s) := hostCmd_keeps (A := [.pts, .recs]) (fun _ _ => serveRecordAcknowledge_keeps rfl Keeps.refl) rfl rfl

end Sys2Proof.Machine
end

