-- ==== Sys2Proof/Laws/KeepsParamRules.lean ====
section
/-!
SUPPORT. Which parts of the state each operation of Machine/ParamRules.lean leaves as they are.
-/

namespace Sys2Proof.Machine

theorem State.future_keeps {T r s x1} (w : within [.par, .eng] T = true) (h : Keeps T r s) : Keeps T r (State.future s x1) := by
  refine Keeps.then (A := [.par, .eng]) ?_ w h
  clear w h
  unfold State.future
  repeat' (first | ((with_reducible apply within_of); rfl) | with_reducible (first | exact Keeps.refl | apply State.modEng_keeps | apply State.modPar_keeps | apply Keeps.ite | apply Keeps.foldl | apply Keeps.forAll | apply Keeps.foldlPair | intro _ _) | split | dsimp only [refuse, okS, okB, okParts])

end Sys2Proof.Machine
end

