-- ==== Sys2Proof/Laws/KeepsParamWrite.lean ====
section
/-!
SUPPORT. Which parts of the state each operation of Machine/ParamWrite.lean leaves as they are.
-/

namespace Sys2Proof.Machine

theorem State.closeBatch_keeps {T r s} (w : within [.par] T = true) (h : Keeps T r s) : Keeps T r (State.closeBatch s) := by
  refine Keeps.then (A := [.par]) ?_ w h
  clear w h
  unfold State.closeBatch
  repeat' (first | ((with_reducible apply within_of); rfl) | with_reducible (first | exact Keeps.refl | apply State.modPar_keeps | apply Keeps.ite | apply Keeps.foldl | apply Keeps.forAll | apply Keeps.foldlPair | intro _ _) | split | dsimp only [refuse, okS, okB, okParts])

theorem State.immediateEffect_keeps {T r s x1 x2 x3 x4} (w : within [.clk, .servo, .host, .test, .pts, .disp, .plc, .ring, .fw] T = true) (h : Keeps T r s) : Keeps T r (State.immediateEffect s x1 x2 x3 x4) := by
  refine Keeps.then (A := [.clk, .servo, .host, .test, .pts, .disp, .plc, .ring, .fw]) ?_ w h
  clear w h
  unfold State.immediateEffect
  repeat' (first | ((with_reducible apply within_of); rfl) | with_reducible (first | exact Keeps.refl | apply State.dispDisable_keeps | apply State.frontLight_keeps | apply State.modFw_keeps | apply State.modHost_keeps | apply State.modServo_keeps | apply State.modTest_keeps | apply State.plcSweep_keeps | apply State.rediscover_keeps | apply State.setPilot_keeps | apply Keeps.ite | apply Keeps.foldl | apply Keeps.forAll | apply Keeps.foldlPair | intro _ _) | split | dsimp only [refuse, okS, okB, okParts])

theorem State.stageValue_keeps {T r s x1 x2 x3 x4} (w : within [.par] T = true) (h : Keeps T r s) : Keeps T r (State.stageValue s x1 x2 x3 x4) := by
  refine Keeps.then (A := [.par]) ?_ w h
  clear w h
  unfold State.stageValue
  repeat' (first | ((with_reducible apply within_of); rfl) | with_reducible (first | exact Keeps.refl | apply State.modPar_keeps | apply Keeps.ite | apply Keeps.foldl | apply Keeps.forAll | apply Keeps.foldlPair | intro _ _) | split | dsimp only [refuse, okS, okB, okParts])

theorem State.acceptValue_keeps {T r s x1} (w : within [.clk, .servo, .par, .host, .test, .pts, .disp, .plc, .ring, .fw] T = true) (h : Keeps T r s) : Keeps T r (State.acceptValue s x1) := by
  refine Keeps.then (A := [.clk, .servo, .par, .host, .test, .pts, .disp, .plc, .ring, .fw]) ?_ w h
  clear w h
  unfold State.acceptValue
  repeat' (first | ((with_reducible apply within_of); rfl) | with_reducible (first | exact Keeps.refl | apply State.addCause_keeps | apply State.immediateEffect_keeps | apply State.modPar_keeps | apply State.stageValue_keeps | apply Keeps.ite | apply Keeps.foldl | apply Keeps.forAll | apply Keeps.foldlPair | intro _ _) | split | dsimp only [refuse, okS, okB, okParts])

theorem State.dropRetyped_keeps {T r s x1} (w : within [.par] T = true) (h : Keeps T r s) : Keeps T r (State.dropRetyped s x1) := by
  refine Keeps.then (A := [.par]) ?_ w h
  clear w h
  unfold State.dropRetyped
  repeat' (first | ((with_reducible apply within_of); rfl) | with_reducible (first | exact Keeps.refl | apply State.modPar_keeps | apply Keeps.ite | apply Keeps.foldl | apply Keeps.forAll | apply Keeps.foldlPair | intro _ _) | split | dsimp only [refuse, okS, okB, okParts])

theorem State.holdPeer_keeps {T r s x1 x2} (w : within [.host] T = true) (h : Keeps T r s) : Keeps T r (State.holdPeer s x1 x2) := by
  refine Keeps.then (A := [.host]) ?_ w h
  clear w h
  unfold State.holdPeer
  repeat' (first | ((with_reducible apply within_of); rfl) | with_reducible (first | exact Keeps.refl | apply State.modHost_keeps | apply Keeps.ite | apply Keeps.foldl | apply Keeps.forAll | apply Keeps.foldlPair | intro _ _) | split | dsimp only [refuse, okS, okB, okParts])

theorem State.logValue_keeps {T r s x1 x2 x3} (w : within [.clk, .host, .log] T = true) (h : Keeps T r s) : Keeps T r (State.logValue s x1 x2 x3) := by
  refine Keeps.then (A := [.clk, .host, .log]) ?_ w h
  clear w h
  unfold State.logValue
  repeat' (first | ((with_reducible apply within_of); rfl) | with_reducible (first | exact Keeps.refl | apply State.bump_keeps | apply State.enterHost_keeps | apply Keeps.ite | apply Keeps.foldl | apply Keeps.forAll | apply Keeps.foldlPair | intro _ _) | split | dsimp only [refuse, okS, okB, okParts])

theorem State.applyBatch_keeps {T r s x1 x2} (w : within [.clk, .servo, .par, .host, .test, .pts, .log, .disp, .plc, .ring, .fw] T = true) (h : Keeps T r s) : Keeps T r (State.applyBatch s x1 x2) := by
  refine Keeps.then (A := [.clk, .servo, .par, .host, .test, .pts, .log, .disp, .plc, .ring, .fw]) ?_ w h
  clear w h
  unfold State.applyBatch
  repeat' (first | ((with_reducible apply within_of); rfl) | with_reducible (first | exact Keeps.refl | apply State.acceptValue_keeps | apply State.configApplied_keeps | apply State.dropRetyped_keeps | apply State.holdPeer_keeps | apply State.logValue_keeps | apply State.modPar_keeps | apply Keeps.ite | apply Keeps.foldl | apply Keeps.forAll | apply Keeps.foldlPair | intro _ _) | split | dsimp only [refuse, okS, okB, okParts])

theorem State.configRefused_keeps {T r s x1 x2 x3} (w : within [.host] T = true) (h : Keeps T r s) : Keeps T r (State.configRefused s x1 x2 x3) := by
  refine Keeps.then (A := [.host]) ?_ w h
  clear w h
  unfold State.configRefused
  repeat' (first | ((with_reducible apply within_of); rfl) | with_reducible (first | exact Keeps.refl | apply State.raise_keeps | apply Keeps.ite | apply Keeps.foldl | apply Keeps.forAll | apply Keeps.foldlPair | intro _ _) | split | dsimp only [refuse, okS, okB, okParts])

theorem batchAns_keeps {T r s x1 x2 x3 x4} (w : within [.clk] T = true) (h : Keeps T r s) : Keeps T r (batchAns s x1 x2 x3 x4).st := by
  refine Keeps.then (A := [.clk]) ?_ w h
  clear w h
  unfold batchAns
  repeat' (first | ((with_reducible apply within_of); rfl) | with_reducible (first | exact Keeps.refl | apply State.bump_keeps | apply Keeps.ite | apply Keeps.foldl | apply Keeps.forAll | apply Keeps.foldlPair | intro _ _) | split | dsimp only [refuse, okS, okB, okParts])

theorem State.commitBatch_keeps {T r s x1 x2 x3 x4} (w : within [.clk, .servo, .par, .host, .test, .eng, .pts, .log, .disp, .plc, .ring, .fw] T = true) (h : Keeps T r s) : Keeps T r (State.commitBatch s x1 x2 x3 x4).st := by
  refine Keeps.then (A := [.clk, .servo, .par, .host, .test, .eng, .pts, .log, .disp, .plc, .ring, .fw]) ?_ w h
  clear w h
  unfold State.commitBatch okB
  repeat' (first | ((with_reducible apply within_of); rfl) | with_reducible (first | exact Keeps.refl | apply State.applyBatch_keeps | apply State.bump_keeps | apply State.closeBatch_keeps | apply State.configRefused_keeps | apply State.future_keeps | apply State.logRefused_keeps | apply batchAns_keeps | apply Keeps.ite | apply Keeps.foldl | apply Keeps.forAll | apply Keeps.foldlPair | intro _ _) | split | dsimp only [refuse, okS, okB, okParts])

theorem serveParameterWrite_keeps {T r x0 x1 s} (w : within [.clk, .servo, .par, .host, .test, .eng, .pts, .log, .disp, .plc, .ring, .fw] T = true) (h : Keeps T r s) : Keeps T r (serveParameterWrite x0 x1 s).st := by
  refine Keeps.then (A := [.clk, .servo, .par, .host, .test, .eng, .pts, .log, .disp, .plc, .ring, .fw]) ?_ w h
  clear w h
  unfold serveParameterWrite refuse
  repeat' (first | ((with_reducible apply within_of); rfl) | with_reducible (first | exact Keeps.refl | apply State.closeBatch_keeps | apply State.commitBatch_keeps | apply State.modPar_keeps | apply batchAns_keeps | apply Keeps.ite | apply Keeps.foldl | apply Keeps.forAll | apply Keeps.foldlPair | intro _ _) | split | dsimp only [refuse, okS, okB, okParts])

theorem execBatchAbort_keeps {x0 x1 s} : KeepsO [.clk, .servo, .par, .host, .test, .eng, .pts, .log, .disp, .plc, .ring, .fw] s (execBatchAbort x0 x1 s) := hostCmd_keeps (A := [.clk, .servo, .par, .host, .test, .eng, .pts, .log, .disp, .plc, .ring, .fw]) (fun _ _ => serveParameterWrite_keeps rfl Keeps.refl) rfl rfl

theorem execBatchTimeout_keeps {x0 s} : KeepsO [.clk, .par] s (execBatchTimeout x0 s) := by
  unfold execBatchTimeout
  repeat' (first | ((with_reducible apply within_of); rfl) | with_reducible (first | exact Keeps.refl | apply State.at_keeps | apply State.closeBatch_keeps | apply KeepsO.next | exact KeepsO.fault | apply KeepsO.ite | apply Keeps.ite | apply Keeps.foldl | apply Keeps.forAll | apply Keeps.foldlPair | intro _ _) | split | dsimp only [refuse, okS, okB, okParts])

theorem execParameterWrite_keeps {x0 x1 s} : KeepsO [.clk, .servo, .par, .host, .test, .eng, .pts, .log, .disp, .plc, .ring, .fw] s (execParameterWrite x0 x1 s) := hostCmd_keeps (A := [.clk, .servo, .par, .host, .test, .eng, .pts, .log, .disp, .plc, .ring, .fw]) (fun _ _ => serveParameterWrite_keeps rfl Keeps.refl) rfl rfl

theorem execBatchCheck_keeps {x0 x1 s} : KeepsO [.clk, .servo, .par, .host, .test, .eng, .pts, .log, .disp, .plc, .ring, .fw] s (execBatchCheck x0 x1 s) := hostCmd_keeps (A := [.clk, .servo, .par, .host, .test, .eng, .pts, .log, .disp, .plc, .ring, .fw]) (fun _ _ => serveParameterWrite_keeps rfl Keeps.refl) rfl rfl

theorem serveParameterDescribe_keeps {T r x0 s} (w : within [] T = true) (h : Keeps T r s) : Keeps T r (serveParameterDescribe x0 s).st := by
  refine Keeps.then (A := []) ?_ w h
  clear w h
  unfold serveParameterDescribe okB refuse
  repeat' (first | ((with_reducible apply within_of); rfl) | with_reducible (first | exact Keeps.refl | apply Keeps.ite | apply Keeps.foldl | apply Keeps.forAll | apply Keeps.foldlPair | intro _ _) | split | dsimp only [refuse, okS, okB, okParts])

theorem serveParameterList_keeps {T r x0 s} (w : within [] T = true) (h : Keeps T r s) : Keeps T r (serveParameterList x0 s).st := by
  refine Keeps.then (A := []) ?_ w h
  clear w h
  unfold serveParameterList okB refuse
  repeat' (first | ((with_reducible apply within_of); rfl) | with_reducible (first | exact Keeps.refl | apply Keeps.ite | apply Keeps.foldl | apply Keeps.forAll | apply Keeps.foldlPair | intro _ _) | split | dsimp only [refuse, okS, okB, okParts])

theorem serveParameterRead_keeps {T r x0 s} (w : within [] T = true) (h : Keeps T r s) : Keeps T r (serveParameterRead x0 s).st := by
  refine Keeps.then (A := []) ?_ w h
  clear w h
  unfold serveParameterRead okB refuse
  repeat' (first | ((with_reducible apply within_of); rfl) | with_reducible (first | exact Keeps.refl | apply Keeps.ite | apply Keeps.foldl | apply Keeps.forAll | apply Keeps.foldlPair | intro _ _) | split | dsimp only [refuse, okS, okB, okParts])

theorem execParameterDescribe_keeps {x0 x1 s} : KeepsO [.clk, .host] s (execParameterDescribe x0 x1 s) := hostCmd_keeps (A := []) (fun _ _ => serveParameterDescribe_keeps rfl Keeps.refl) rfl rfl

theorem execBatchCommit_keeps {x0 x1 s} : KeepsO [.clk, .servo, .par, .host, .test, .eng, .pts, .log, .disp, .plc, .ring, .fw] s (execBatchCommit x0 x1 s) := hostCmd_keeps (A := [.clk, .servo, .par, .host, .test, .eng, .pts, .log, .disp, .plc, .ring, .fw]) (fun _ _ => serveParameterWrite_keeps rfl Keeps.refl) rfl rfl

theorem execParameterList_keeps {x0 x1 s} : KeepsO [.clk, .host] s (execParameterList x0 x1 s) := hostCmd_keeps (A := []) (fun _ _ => serveParameterList_keeps rfl Keeps.refl) rfl rfl

theorem execParameterRead_keeps {x0 x1 s} : KeepsO [.clk, .host] s (execParameterRead x0 x1 s) := hostCmd_keeps (A := []) (fun _ _ => serveParameterRead_keeps rfl Keeps.refl) rfl rfl

end Sys2Proof.Machine
end

