-- ==== Sys2Proof/Laws/KeepsPointRead.lean ====
section
/-!
SUPPORT. Which parts of the state each operation of Machine/PointRead.lean leaves as they are.
-/

namespace Sys2Proof.Machine

theorem servePointRegisters_keeps {T r x0 s} (w : within [] T = true) (h : Keeps T r s) : Keeps T r (servePointRegisters x0 s).st := by
  refine Keeps.then (A := []) ?_ w h
  clear w h
  unfold servePointRegisters onPoint okParts
  repeat' (first | ((with_reducible apply within_of); rfl) | with_reducible (first | exact Keeps.refl | apply Keeps.ite | apply Keeps.foldl | apply Keeps.forAll | apply Keeps.foldlPair | intro _ _) | split | dsimp only [refuse, okS, okB, okParts])

theorem servePointQuantities_keeps {T r x0 s} (w : within [] T = true) (h : Keeps T r s) : Keeps T r (servePointQuantities x0 s).st := by
  refine Keeps.then (A := []) ?_ w h
  clear w h
  unfold servePointQuantities onPoint okParts
  repeat' (first | ((with_reducible apply within_of); rfl) | with_reducible (first | exact Keeps.refl | apply Keeps.ite | apply Keeps.foldl | apply Keeps.forAll | apply Keeps.foldlPair | intro _ _) | split | dsimp only [refuse, okS, okB, okParts])

theorem servePointStatus_keeps {T r x0 s} (w : within [] T = true) (h : Keeps T r s) : Keeps T r (servePointStatus x0 s).st := by
  refine Keeps.then (A := []) ?_ w h
  clear w h
  unfold servePointStatus onPoint okB
  repeat' (first | ((with_reducible apply within_of); rfl) | with_reducible (first | exact Keeps.refl | apply Keeps.ite | apply Keeps.foldl | apply Keeps.forAll | apply Keeps.foldlPair | intro _ _) | split | dsimp only [refuse, okS, okB, okParts])

theorem execPointRegisters_keeps {x0 x1 s} : KeepsO [.clk, .host] s (execPointRegisters x0 x1 s) := hostCmd_keeps (A := []) (fun _ _ => servePointRegisters_keeps rfl Keeps.refl) rfl rfl

theorem execPointQuantities_keeps {x0 x1 s} : KeepsO [.clk, .host] s (execPointQuantities x0 x1 s) := hostCmd_keeps (A := []) (fun _ _ => servePointQuantities_keeps rfl Keeps.refl) rfl rfl

theorem execPointStatus_keeps {x0 x1 s} : KeepsO [.clk, .host] s (execPointStatus x0 x1 s) := hostCmd_keeps (A := []) (fun _ _ => servePointStatus_keeps rfl Keeps.refl) rfl rfl

end Sys2Proof.Machine
end

