-- ==== Sys2Proof/Laws/KeepsSwitch.lean ====
section
/-!
SUPPORT. Which parts of the state each operation of Machine/Switch.lean leaves as they are.
-/

namespace Sys2Proof.Machine

theorem serveSwitchCommand_keeps {T r x0 s} (w : within [.pts, .sw] T = true) (h : Keeps T r s) : Keeps T r (serveSwitchCommand x0 s).st := by
  refine Keeps.then (A := [.pts, .sw]) ?_ w h
  clear w h
  unfold serveSwitchCommand okS refuse
  repeat' (first | ((with_reducible apply within_of); rfl) | with_reducible (first | exact Keeps.refl | apply State.command_keeps | apply Keeps.ite | apply Keeps.foldl | apply Keeps.forAll | apply Keeps.foldlPair | intro _ _) | split | dsimp only [refuse, okS, okB, okParts])

theorem execSwitchCommand_keeps {x0 x1 s} : KeepsO [.clk, .host, .pts, .sw] s (execSwitchCommand x0 x1 s) := hostCmd_keeps (A := [.pts, .sw]) (fun _ _ => serveSwitchCommand_keeps rfl Keeps.refl) rfl rfl

theorem execWatchdogArm_keeps {x0 x1 x2 s} : KeepsO [.clk, .pts, .sw] s (execWatchdogArm x0 x1 x2 s) := by
  unfold execWatchdogArm
  repeat' (first | ((with_reducible apply within_of); rfl) | with_reducible (first | exact Keeps.refl | apply State.armWatchdog_keeps | apply State.at_keeps | apply KeepsO.next | exact KeepsO.fault | apply KeepsO.ite | apply Keeps.ite | apply Keeps.foldl | apply Keeps.forAll | apply Keeps.foldlPair | intro _ _) | split | dsimp only [refuse, okS, okB, okParts])

theorem execSwitchDiePowerUp_keeps {x0 x1 s} : KeepsO [.clk, .host, .pts, .sw] s (execSwitchDiePowerUp x0 x1 s) := by
  unfold execSwitchDiePowerUp
  repeat' (first | ((with_reducible apply within_of); rfl) | with_reducible (first | exact Keeps.refl | apply State.at_keeps | apply State.enterPhase_keeps | apply State.modSw_keeps | apply State.replayCommands_keeps | apply KeepsO.next | exact KeepsO.fault | apply KeepsO.ite | apply Keeps.ite | apply Keeps.foldl | apply Keeps.forAll | apply Keeps.foldlPair | intro _ _) | split | dsimp only [refuse, okS, okB, okParts])

theorem execRetryCounterReload_keeps {x0 x1 s} : KeepsO [.clk, .sw] s (execRetryCounterReload x0 x1 s) := by
  unfold execRetryCounterReload
  repeat' (first | ((with_reducible apply within_of); rfl) | with_reducible (first | exact Keeps.refl | apply State.at_keeps | apply State.modSwch_keeps | apply KeepsO.next | exact KeepsO.fault | apply KeepsO.ite | apply Keeps.ite | apply Keeps.foldl | apply Keeps.forAll | apply Keeps.foldlPair | intro _ _) | split | dsimp only [refuse, okS, okB, okParts])

theorem State.switchFault_keeps {T r s x1} (w : within [.pts] T = true) (h : Keeps T r s) : Keeps T r (State.switchFault s x1) := by
  refine Keeps.then (A := [.pts]) ?_ w h
  clear w h
  unfold State.switchFault
  repeat' (first | ((with_reducible apply within_of); rfl) | with_reducible (first | exact Keeps.refl | apply State.addCause_keeps | apply Keeps.ite | apply Keeps.foldl | apply Keeps.forAll | apply Keeps.foldlPair | intro _ _) | split | dsimp only [refuse, okS, okB, okParts])

theorem State.supplyOff_keeps {T r s x1} (w : within [.pts, .sw] T = true) (h : Keeps T r s) : Keeps T r (State.supplyOff s x1) := by
  refine Keeps.then (A := [.pts, .sw]) ?_ w h
  clear w h
  unfold State.supplyOff
  repeat' (first | ((with_reducible apply within_of); rfl) | with_reducible (first | exact Keeps.refl | apply State.modSw_keeps | apply State.switchFault_keeps | apply Keeps.ite | apply Keeps.foldl | apply Keeps.forAll | apply Keeps.foldlPair | intro _ _) | split | dsimp only [refuse, okS, okB, okParts])

theorem execVswBelowRide_keeps {x0 x1 s} : KeepsO [.clk, .host, .pts, .sw] s (execVswBelowRide x0 x1 s) := by
  unfold execVswBelowRide
  repeat' (first | ((with_reducible apply within_of); rfl) | with_reducible (first | exact Keeps.refl | apply State.at_keeps | apply State.enterPhase_keeps | apply State.modSw_keeps | apply State.supplyEvent_keeps | apply State.supplyOff_keeps | apply KeepsO.next | exact KeepsO.fault | apply KeepsO.ite | apply Keeps.ite | apply Keeps.foldl | apply Keeps.forAll | apply Keeps.foldlPair | intro _ _) | split | dsimp only [refuse, okS, okB, okParts])

theorem serveSwitchReset_keeps {T r x0 s} (w : within [.sw] T = true) (h : Keeps T r s) : Keeps T r (serveSwitchReset x0 s).st := by
  refine Keeps.then (A := [.sw]) ?_ w h
  clear w h
  unfold serveSwitchReset okS refuse
  repeat' (first | ((with_reducible apply within_of); rfl) | with_reducible (first | exact Keeps.refl | apply State.orderDie_keeps | apply Keeps.ite | apply Keeps.foldl | apply Keeps.forAll | apply Keeps.foldlPair | intro _ _) | split | dsimp only [refuse, okS, okB, okParts])

theorem serveSwitchStatus_keeps {T r x0 s} (w : within [] T = true) (h : Keeps T r s) : Keeps T r (serveSwitchStatus x0 s).st := by
  refine Keeps.then (A := []) ?_ w h
  clear w h
  unfold serveSwitchStatus okParts refuse
  repeat' (first | ((with_reducible apply within_of); rfl) | with_reducible (first | exact Keeps.refl | apply Keeps.ite | apply Keeps.foldl | apply Keeps.forAll | apply Keeps.foldlPair | intro _ _) | split | dsimp only [refuse, okS, okB, okParts])

theorem execSupplyPhaseTimeout_keeps {x0 s} : KeepsO [.clk, .host, .sw] s (execSupplyPhaseTimeout x0 s) := by
  unfold execSupplyPhaseTimeout
  repeat' (first | ((with_reducible apply within_of); rfl) | with_reducible (first | exact Keeps.refl | apply State.at_keeps | apply State.enterPhase_keeps | apply KeepsO.next | exact KeepsO.fault | apply KeepsO.ite | apply Keeps.ite | apply Keeps.foldl | apply Keeps.forAll | apply Keeps.foldlPair | intro _ _) | split | dsimp only [refuse, okS, okB, okParts])

theorem State.retry_keeps {T r s x1} (w : within [.host, .sw] T = true) (h : Keeps T r s) : Keeps T r (State.retry s x1) := by
  refine Keeps.then (A := [.host, .sw]) ?_ w h
  clear w h
  unfold State.retry
  repeat' (first | ((with_reducible apply within_of); rfl) | with_reducible (first | exact Keeps.refl | apply State.modSwch_keeps | apply State.swEvent_keeps | apply Keeps.ite | apply Keeps.foldl | apply Keeps.forAll | apply Keeps.foldlPair | intro _ _) | split | dsimp only [refuse, okS, okB, okParts])

theorem State.dieAnswer_keeps {T r s x1 x2} (w : within [.host, .sw] T = true) (h : Keeps T r s) : Keeps T r (State.dieAnswer s x1 x2) := by
  refine Keeps.then (A := [.host, .sw]) ?_ w h
  clear w h
  unfold State.dieAnswer
  repeat' (first | ((with_reducible apply within_of); rfl) | with_reducible (first | exact Keeps.refl | apply State.applyFailsafe_keeps | apply State.modSw_keeps | apply State.releaseFailsafe_keeps | apply Keeps.ite | apply Keeps.foldl | apply Keeps.forAll | apply Keeps.foldlPair | intro _ _) | split | dsimp only [refuse, okS, okB, okParts])

theorem execWatchdogWindowExpiry_keeps {x0 s} : KeepsO [.clk, .sw] s (execWatchdogWindowExpiry x0 s) := by
  unfold execWatchdogWindowExpiry
  repeat' (first | ((with_reducible apply within_of); rfl) | with_reducible (first | exact Keeps.refl | apply State.applyFailsafe_keeps | apply State.at_keeps | apply KeepsO.next | exact KeepsO.fault | apply KeepsO.ite | apply Keeps.ite | apply Keeps.foldl | apply Keeps.forAll | apply Keeps.foldlPair | intro _ _) | split | dsimp only [refuse, okS, okB, okParts])

theorem execRetryDelayExpiry_keeps {x0 x1 s} : KeepsO [.clk, .host, .sw] s (execRetryDelayExpiry x0 x1 s) := by
  unfold execRetryDelayExpiry
  repeat' (first | ((with_reducible apply within_of); rfl) | with_reducible (first | exact Keeps.refl | apply State.at_keeps | apply State.retry_keeps | apply KeepsO.next | exact KeepsO.fault | apply KeepsO.ite | apply Keeps.ite | apply Keeps.foldl | apply Keeps.forAll | apply Keeps.foldlPair | intro _ _) | split | dsimp only [refuse, okS, okB, okParts])

theorem execVswRestore_keeps {x0 x1 s} : KeepsO [.clk, .host, .sw] s (execVswRestore x0 x1 s) := by
  unfold execVswRestore
  repeat' (first | ((with_reducible apply within_of); rfl) | with_reducible (first | exact Keeps.refl | apply State.at_keeps | apply State.enterPhase_keeps | apply State.modSw_keeps | apply State.supplyEvent_keeps | apply KeepsO.next | exact KeepsO.fault | apply KeepsO.ite | apply Keeps.ite | apply Keeps.foldl | apply Keeps.forAll | apply Keeps.foldlPair | intro _ _) | split | dsimp only [refuse, okS, okB, okParts])

theorem execDieLinkLost_keeps {x0 s} : KeepsO [.clk, .sw] s (execDieLinkLost x0 s) := by
  unfold execDieLinkLost
  repeat' (first | ((with_reducible apply within_of); rfl) | with_reducible (first | exact Keeps.refl | apply State.at_keeps | apply State.modSw_keeps | apply KeepsO.next | exact KeepsO.fault | apply KeepsO.ite | apply Keeps.ite | apply Keeps.foldl | apply Keeps.forAll | apply Keeps.foldlPair | intro _ _) | split | dsimp only [refuse, okS, okB, okParts])

theorem execWatchdogFeed_keeps {x0 s} : KeepsO [.clk, .host, .test, .eng, .sw] s (execWatchdogFeed x0 s) := by
  unfold execWatchdogFeed
  repeat' (first | ((with_reducible apply within_of); rfl) | with_reducible (first | exact Keeps.refl | apply State.at_keeps | apply State.dieAnswer_keeps | apply State.setTest_keeps | apply KeepsO.next | exact KeepsO.fault | apply KeepsO.ite | apply Keeps.ite | apply Keeps.foldl | apply Keeps.forAll | apply Keeps.foldlPair | intro _ _) | split | dsimp only [refuse, okS, okB, okParts])

theorem execVswUndervoltage_keeps {x0 x1 s} : KeepsO [.clk, .host, .pts, .sw] s (execVswUndervoltage x0 x1 s) := by
  unfold execVswUndervoltage
  repeat' (first | ((with_reducible apply within_of); rfl) | with_reducible (first | exact Keeps.refl | apply State.at_keeps | apply State.enterPhase_keeps | apply State.modSw_keeps | apply State.supplyEvent_keeps | apply State.supplyOff_keeps | apply KeepsO.next | exact KeepsO.fault | apply KeepsO.ite | apply Keeps.ite | apply Keeps.foldl | apply Keeps.forAll | apply Keeps.foldlPair | intro _ _) | split | dsimp only [refuse, okS, okB, okParts])

theorem execSwitchReset_keeps {x0 x1 s} : KeepsO [.clk, .host, .sw] s (execSwitchReset x0 x1 s) := hostCmd_keeps (A := [.sw]) (fun _ _ => serveSwitchReset_keeps rfl Keeps.refl) rfl rfl

theorem execSwitchStatus_keeps {x0 x1 s} : KeepsO [.clk, .host] s (execSwitchStatus x0 x1 s) := hostCmd_keeps (A := []) (fun _ _ => serveSwitchStatus_keeps rfl Keeps.refl) rfl rfl

theorem execThermalRelease_keeps {x0 x1 x2 s} : KeepsO [.clk, .host, .sw] s (execThermalRelease x0 x1 x2 s) := by
  unfold execThermalRelease
  repeat' (first | ((with_reducible apply within_of); rfl) | with_reducible (first | exact Keeps.refl | apply State.at_keeps | apply State.modSwch_keeps | apply State.retry_keeps | apply State.swEvent_keeps | apply KeepsO.next | exact KeepsO.fault | apply KeepsO.ite | apply Keeps.ite | apply Keeps.foldl | apply Keeps.forAll | apply Keeps.foldlPair | intro _ _) | split | dsimp only [refuse, okS, okB, okParts])

theorem execOpenLoadDeclared_keeps {x0 x1 x2 s} : KeepsO [.clk, .host, .sw] s (execOpenLoadDeclared x0 x1 x2 s) := by
  unfold execOpenLoadDeclared
  repeat' (first | ((with_reducible apply within_of); rfl) | with_reducible (first | exact Keeps.refl | apply State.at_keeps | apply State.modSwch_keeps | apply State.swEvent_keeps | apply KeepsO.next | exact KeepsO.fault | apply KeepsO.ite | apply Keeps.ite | apply Keeps.foldl | apply Keeps.forAll | apply Keeps.foldlPair | intro _ _) | split | dsimp only [refuse, okS, okB, okParts])

theorem execOpenLoadCleared_keeps {x0 x1 x2 s} : KeepsO [.clk, .host, .sw] s (execOpenLoadCleared x0 x1 x2 s) := by
  unfold execOpenLoadCleared
  repeat' (first | ((with_reducible apply within_of); rfl) | with_reducible (first | exact Keeps.refl | apply State.at_keeps | apply State.modSwch_keeps | apply State.swEvent_keeps | apply KeepsO.next | exact KeepsO.fault | apply KeepsO.ite | apply Keeps.ite | apply Keeps.foldl | apply Keeps.forAll | apply Keeps.foldlPair | intro _ _) | split | dsimp only [refuse, okS, okB, okParts])

theorem execOverloadTimeout_keeps {x0 x1 s} : KeepsO [.clk, .host, .pts, .sw] s (execOverloadTimeout x0 x1 s) := by
  unfold execOverloadTimeout
  repeat' (first | ((with_reducible apply within_of); rfl) | with_reducible (first | exact Keeps.refl | apply State.at_keeps | apply State.modSwch_keeps | apply State.swEvent_keeps | apply State.switchFault_keeps | apply KeepsO.next | exact KeepsO.fault | apply KeepsO.ite | apply Keeps.ite | apply Keeps.foldl | apply Keeps.forAll | apply Keeps.foldlPair | intro _ _) | split | dsimp only [refuse, okS, okB, okParts])

theorem execSwitchCurrentLimit_keeps {x0 x1 x2 x3 s} : KeepsO [.clk, .sw] s (execSwitchCurrentLimit x0 x1 x2 x3 s) := by
  unfold execSwitchCurrentLimit
  repeat' (first | ((with_reducible apply within_of); rfl) | with_reducible (first | exact Keeps.refl | apply State.at_keeps | apply State.modSwch_keeps | apply KeepsO.next | exact KeepsO.fault | apply KeepsO.ite | apply Keeps.ite | apply Keeps.foldl | apply Keeps.forAll | apply Keeps.foldlPair | intro _ _) | split | dsimp only [refuse, okS, okB, okParts])

theorem execThermalLatch_keeps {x0 x1 x2 s} : KeepsO [.clk, .host, .pts, .sw] s (execThermalLatch x0 x1 x2 s) := by
  unfold execThermalLatch
  repeat' (first | ((with_reducible apply within_of); rfl) | with_reducible (first | exact Keeps.refl | apply State.at_keeps | apply State.modSwch_keeps | apply State.swEvent_keeps | apply State.switchFault_keeps | apply KeepsO.next | exact KeepsO.fault | apply KeepsO.ite | apply Keeps.ite | apply Keeps.foldl | apply Keeps.forAll | apply Keeps.foldlPair | intro _ _) | split | dsimp only [refuse, okS, okB, okParts])

theorem execSwitchDieReset_keeps {x0 x1 s} : KeepsO [.clk, .pts, .sw] s (execSwitchDieReset x0 x1 s) := by
  unfold execSwitchDieReset
  repeat' (first | ((with_reducible apply within_of); rfl) | with_reducible (first | exact Keeps.refl | apply State.at_keeps | apply State.modSw_keeps | apply State.switchFault_keeps | apply KeepsO.next | exact KeepsO.fault | apply KeepsO.ite | apply Keeps.ite | apply Keeps.foldl | apply Keeps.forAll | apply Keeps.foldlPair | intro _ _) | split | dsimp only [refuse, okS, okB, okParts])

end Sys2Proof.Machine
end

