-- ==== Sys2Proof/Laws/KeepsHostDispatch.lean ====
section
/-!
SUPPORT. Which parts of the state each operation of Machine/HostDispatch.lean leaves as they are.
-/

namespace Sys2Proof.Machine

theorem serveTimeFamily_keeps {T r x0 x1 x2 s} (w : within [.servo, .host, .log] T = true) (h : Keeps T r s) : Keeps T r (serveTimeFamily x0 x1 x2 s).st := by
  refine Keeps.then (A := [.servo, .host, .log]) ?_ w h
  clear w h
  unfold serveTimeFamily refuse
  repeat' (first | ((with_reducible apply within_of); rfl) | with_reducible (first | exact Keeps.refl | apply serveBalanceResults_keeps | apply serveRingMap_keeps | apply serveTciRead_keeps | apply serveTciSet_keeps | apply serveTimeAccept_keeps | apply serveTimeStatus_keeps | apply serveTtoSet_keeps | apply Keeps.ite | apply Keeps.foldl | apply Keeps.forAll | apply Keeps.foldlPair | intro _ _) | split | dsimp only [refuse, okS, okB, okParts])

theorem serveNodeFamily_keeps {T r x0 x1 x2 s} (w : within [.par, .host, .courses, .eng, .pts, .recs, .led, .log, .plc, .fw, .pwr] T = true) (h : Keeps T r s) : Keeps T r (serveNodeFamily x0 x1 x2 s).st := by
  refine Keeps.then (A := [.par, .host, .courses, .eng, .pts, .recs, .led, .log, .plc, .fw, .pwr]) ?_ w h
  clear w h
  unfold serveNodeFamily refuse
  repeat' (first | ((with_reducible apply within_of); rfl) | with_reducible (first | exact Keeps.refl | apply serveEventDetail_keeps | apply serveFactoryReset_keeps | apply serveIdentity_keeps | apply serveNodeStatus_keeps | apply Keeps.ite | apply Keeps.foldl | apply Keeps.forAll | apply Keeps.foldlPair | intro _ _) | split | dsimp only [refuse, okS, okB, okParts])

theorem serveKeysFamily_keeps {T r x0 x1 x2 s} (w : within [.clk, .host, .pts, .log, .keys, .pwr] T = true) (h : Keeps T r s) : Keeps T r (serveKeysFamily x0 x1 x2 s).st := by
  refine Keeps.then (A := [.clk, .host, .pts, .log, .keys, .pwr]) ?_ w h
  clear w h
  unfold serveKeysFamily refuse
  repeat' (first | ((with_reducible apply within_of); rfl) | with_reducible (first | exact Keeps.refl | apply serveKeyAttest_keeps | apply serveKeyErase_keeps | apply serveKeyInvalidate_keeps | apply serveKeyNextGeneration_keeps | apply serveKeyNodeCertificate_keeps | apply serveKeyPublicRead_keeps | apply serveKeyRegenerate_keeps | apply serveKeyStatementRead_keeps | apply serveKeyStatus_keeps | apply serveKeyTlsCertificateLoad_keeps | apply Keeps.ite | apply Keeps.foldl | apply Keeps.forAll | apply Keeps.foldlPair | intro _ _) | split | dsimp only [refuse, okS, okB, okParts])

theorem State.portReads_keeps {T r s x1 x2 x3 x4 x5} (w : within [.host] T = true) (h : Keeps T r s) : Keeps T r (State.portReads s x1 x2 x3 x4 x5).2 := by
  refine Keeps.then (A := [.host]) ?_ w h
  clear w h
  induction x3 generalizing s x4 x5 with
  | zero => exact Keeps.refl
  | succ k ih =>
    unfold State.portReads
    exact ih.then rfl (State.portRead_keeps rfl Keeps.refl)

theorem servePointFamily_keeps {T r x0 x1 x2 s} (w : within [.clk, .par, .host, .slices, .eng, .pts, .led, .sw, .saf, .log, .keys, .plc, .sar] T = true) (h : Keeps T r s) : Keeps T r (servePointFamily x0 x1 x2 s).st := by
  refine Keeps.then (A := [.clk, .par, .host, .slices, .eng, .pts, .led, .sw, .saf, .log, .keys, .plc, .sar]) ?_ w h
  clear w h
  unfold servePointFamily refuse
  repeat' (first | ((with_reducible apply within_of); rfl) | with_reducible (first | exact Keeps.refl | apply serveCapture_keeps | apply serveChannelStatus_keeps | apply serveCourseRestore_keeps | apply serveFaultAcknowledge_keeps | apply serveOutletDcStatus_keeps | apply serveOutletLimit_keeps | apply servePointHarmonics_keeps | apply servePointQuantities_keeps | apply servePointRegisters_keeps | apply servePointStatus_keeps | apply servePointSupraharmonics_keeps | apply serveRootStore_keeps | apply serveSafetyAcknowledge_keeps | apply serveSafetyStatus_keeps | apply serveSessionAuthorise_keeps | apply serveSessionCancel_keeps | apply serveSessionModify_keeps | apply serveSessionReject_keeps | apply serveSessionRequest_keeps | apply serveSessionRevoke_keeps | apply serveSessionStatus_keeps | apply serveSessionStop_keeps | apply serveSwitchCommand_keeps | apply serveSwitchReset_keeps | apply serveSwitchStatus_keeps | apply Keeps.ite | apply Keeps.foldl | apply Keeps.forAll | apply Keeps.foldlPair | intro _ _) | split | dsimp only [refuse, okS, okB, okParts])

theorem serveRecordsFamily_keeps {T r x0 x1 s} (w : within [.clk, .host, .pts, .recs, .log, .pwr] T = true) (h : Keeps T r s) : Keeps T r (serveRecordsFamily x0 x1 s).st := by
  refine Keeps.then (A := [.clk, .host, .pts, .recs, .log, .pwr]) ?_ w h
  clear w h
  unfold serveRecordsFamily refuse
  repeat' (first | ((with_reducible apply within_of); rfl) | with_reducible (first | exact Keeps.refl | apply serveJournalRead_keeps | apply serveJournalStatus_keeps | apply serveLogAcknowledge_keeps | apply serveLogRead_keeps | apply serveRecordAcknowledge_keeps | apply Keeps.ite | apply Keeps.foldl | apply Keeps.forAll | apply Keeps.foldlPair | intro _ _) | split | dsimp only [refuse, okS, okB, okParts])

theorem serveDisplayFamily_keeps {T r x0 x1 x2 s} (w : within [.host, .log, .disp] T = true) (h : Keeps T r s) : Keeps T r (serveDisplayFamily x0 x1 x2 s).st := by
  refine Keeps.then (A := [.host, .log, .disp]) ?_ w h
  clear w h
  unfold serveDisplayFamily refuse
  repeat' (first | ((with_reducible apply within_of); rfl) | with_reducible (first | exact Keeps.refl | apply serveDisplayPin_keeps | apply serveDisplayStatic_keeps | apply serveDisplayTemperature_keeps | apply serveDisplayUpdate_keeps | apply serveDisplayWaveform_keeps | apply Keeps.ite | apply Keeps.foldl | apply Keeps.forAll | apply Keeps.foldlPair | intro _ _) | split | dsimp only [refuse, okS, okB, okParts])

theorem serveFirmwareFamily_keeps {T r x0 x1 x2 s} (w : within [.clk, .par, .host, .log, .fw, .pwr] T = true) (h : Keeps T r s) : Keeps T r (serveFirmwareFamily x0 x1 x2 s).st := by
  refine Keeps.then (A := [.clk, .par, .host, .log, .fw, .pwr]) ?_ w h
  clear w h
  unfold serveFirmwareFamily refuse
  repeat' (first | ((with_reducible apply within_of); rfl) | with_reducible (first | exact Keeps.refl | apply serveFwBegin_keeps | apply serveFwConfirm_keeps | apply serveFwData_keeps | apply serveFwHandover_keeps | apply serveFwStatus_keeps | apply serveFwVerify_keeps | apply Keeps.ite | apply Keeps.foldl | apply Keeps.forAll | apply Keeps.foldlPair | intro _ _) | split | dsimp only [refuse, okS, okB, okParts])

theorem serveParamFamily_keeps {T r x0 x1 x2 s} (w : within [.clk, .servo, .par, .host, .test, .eng, .pts, .log, .disp, .plc, .ring, .fw] T = true) (h : Keeps T r s) : Keeps T r (serveParamFamily x0 x1 x2 s).st := by
  refine Keeps.then (A := [.clk, .servo, .par, .host, .test, .eng, .pts, .log, .disp, .plc, .ring, .fw]) ?_ w h
  clear w h
  unfold serveParamFamily refuse
  repeat' (first | ((with_reducible apply within_of); rfl) | with_reducible (first | exact Keeps.refl | apply serveParameterDescribe_keeps | apply serveParameterList_keeps | apply serveParameterRead_keeps | apply serveParameterWrite_keeps | apply Keeps.ite | apply Keeps.foldl | apply Keeps.forAll | apply Keeps.foldlPair | intro _ _) | split | dsimp only [refuse, okS, okB, okParts])

theorem serveSarFamily_keeps {T r x0 x1 s} (w : within [.sar] T = true) (h : Keeps T r s) : Keeps T r (serveSarFamily x0 x1 s).st := by
  refine Keeps.then (A := [.sar]) ?_ w h
  clear w h
  unfold serveSarFamily refuse
  repeat' (first | ((with_reducible apply within_of); rfl) | with_reducible (first | exact Keeps.refl | apply serveSarResults_keeps | apply serveSarSelftest_keeps | apply serveSarTrigger_keeps | apply Keeps.ite | apply Keeps.foldl | apply Keeps.forAll | apply Keeps.foldlPair | intro _ _) | split | dsimp only [refuse, okS, okB, okParts])

theorem serveTestFamily_keeps {T r x0 x1 x2 s} (w : within [.host, .test, .eng, .sw, .log] T = true) (h : Keeps T r s) : Keeps T r (serveTestFamily x0 x1 x2 s).st := by
  refine Keeps.then (A := [.host, .test, .eng, .sw, .log]) ?_ w h
  clear w h
  unfold serveTestFamily refuse
  repeat' (first | ((with_reducible apply within_of); rfl) | with_reducible (first | exact Keeps.refl | apply serveTestRelock_keeps | apply serveTestUnlock_keeps | apply Keeps.ite | apply Keeps.foldl | apply Keeps.forAll | apply Keeps.foldlPair | intro _ _) | split | dsimp only [refuse, okS, okB, okParts])

theorem serveOf_keeps {T r x0 x1 x2 s} (w : within [.clk, .servo, .par, .host, .test, .slices, .courses, .eng, .pts, .recs, .led, .sw, .saf, .log, .keys, .disp, .plc, .ring, .sar, .fw, .pwr] T = true) (h : Keeps T r s) : Keeps T r (serveOf x0 x1 x2 s).st := by
  refine Keeps.then (A := [.clk, .servo, .par, .host, .test, .slices, .courses, .eng, .pts, .recs, .led, .sw, .saf, .log, .keys, .disp, .plc, .ring, .sar, .fw, .pwr]) ?_ w h
  clear w h
  unfold serveOf refuse
  repeat' (first | ((with_reducible apply within_of); rfl) | with_reducible (first | exact Keeps.refl | apply serveDisplayFamily_keeps | apply serveFirmwareFamily_keeps | apply serveKeysFamily_keeps | apply serveNodeFamily_keeps | apply serveParamFamily_keeps | apply servePointFamily_keeps | apply serveRecordsFamily_keeps | apply serveSarFamily_keeps | apply serveTestFamily_keeps | apply serveTimeFamily_keeps | apply Keeps.ite | apply Keeps.foldl | apply Keeps.forAll | apply Keeps.foldlPair | intro _ _) | split | dsimp only [refuse, okS, okB, okParts])

theorem State.ringBell_keeps {T r s x1 x2} (w : within [.clk, .servo, .par, .host, .test, .slices, .courses, .eng, .pts, .recs, .led, .sw, .saf, .log, .keys, .disp, .plc, .ring, .sar, .fw, .pwr] T = true) (h : Keeps T r s) : Keeps T r (State.ringBell s x1 x2) := by
  refine Keeps.then (A := [.clk, .servo, .par, .host, .test, .slices, .courses, .eng, .pts, .recs, .led, .sw, .saf, .log, .keys, .disp, .plc, .ring, .sar, .fw, .pwr]) ?_ w h
  clear w h
  unfold State.ringBell
  dsimp only
  split
  · split
    · exact State.take_keeps (A := [.clk, .servo, .par, .host, .test, .slices, .courses, .eng, .pts, .recs, .led, .sw, .saf, .log, .keys, .disp, .plc, .ring, .sar, .fw, .pwr]) (fun _ _ => serveOf_keeps rfl Keeps.refl) rfl rfl
        (State.modMbox_keeps rfl Keeps.refl)
    · exact State.holdReq_keeps rfl (State.modMbox_keeps rfl Keeps.refl)
  · exact State.undefinedRequest_keeps (fun _ => State.take_keeps (A := [.clk, .servo, .par, .host, .test, .slices, .courses, .eng, .pts, .recs, .led, .sw, .saf, .log, .keys, .disp, .plc, .ring, .sar, .fw, .pwr]) (fun _ _ => serveOf_keeps rfl Keeps.refl)
      rfl rfl Keeps.refl) rfl Keeps.refl

theorem State.writeMbx_keeps {T r s x1 x2 x3} (w : within [.clk, .servo, .par, .host, .test, .slices, .courses, .eng, .pts, .recs, .led, .sw, .saf, .log, .keys, .disp, .plc, .ring, .sar, .fw, .pwr] T = true) (h : Keeps T r s) : Keeps T r (State.writeMbx s x1 x2 x3) := by
  refine Keeps.then (A := [.clk, .servo, .par, .host, .test, .slices, .courses, .eng, .pts, .recs, .led, .sw, .saf, .log, .keys, .disp, .plc, .ring, .sar, .fw, .pwr]) ?_ w h
  clear w h
  unfold State.writeMbx
  repeat' (first | ((with_reducible apply within_of); rfl) | with_reducible (first | exact Keeps.refl | apply State.confined_keeps | apply State.releaseMbox_keeps | apply State.ringBell_keeps | apply Keeps.ite | apply Keeps.foldl | apply Keeps.forAll | apply Keeps.foldlPair | intro _ _) | split | dsimp only [refuse, okS, okB, okParts])

theorem State.writeReqWord_keeps {T r s x1 x2 x3 x4} (w : within [.clk, .host] T = true) (h : Keeps T r s) : Keeps T r (State.writeReqWord s x1 x2 x3 x4) := by
  refine Keeps.then (A := [.clk, .host]) ?_ w h
  clear w h
  unfold State.writeReqWord
  repeat' (first | ((with_reducible apply within_of); rfl) | with_reducible (first | exact Keeps.refl | apply State.confined_keeps | apply State.modMbox_keeps | apply Keeps.ite | apply Keeps.foldl | apply Keeps.forAll | apply Keeps.foldlPair | intro _ _) | split | dsimp only [refuse, okS, okB, okParts])

theorem State.writeWord_keeps {T r s x1 x2 x3} (w : within [.clk, .servo, .par, .host, .test, .slices, .courses, .eng, .pts, .recs, .led, .sw, .saf, .log, .keys, .disp, .plc, .ring, .sar, .fw, .pwr] T = true) (h : Keeps T r s) : Keeps T r (State.writeWord s x1 x2 x3) := by
  refine Keeps.then (A := [.clk, .servo, .par, .host, .test, .slices, .courses, .eng, .pts, .recs, .led, .sw, .saf, .log, .keys, .disp, .plc, .ring, .sar, .fw, .pwr]) ?_ w h
  clear w h
  unfold State.writeWord
  repeat' (first | ((with_reducible apply within_of); rfl) | with_reducible (first | exact Keeps.refl | apply State.regWrite_keeps | apply State.writeMbx_keeps | apply State.writeReqWord_keeps | apply Keeps.ite | apply Keeps.foldl | apply Keeps.forAll | apply Keeps.foldlPair | intro _ _) | split | dsimp only [refuse, okS, okB, okParts])

theorem State.hethReply_keeps {T r s x1 x2 x3} (w : within [.host] T = true) (h : Keeps T r s) : Keeps T r (State.hethReply s x1 x2 x3) := by
  refine Keeps.then (A := [.host]) ?_ w h
  clear w h
  unfold State.hethReply
  repeat' (first | ((with_reducible apply within_of); rfl) | with_reducible (first | exact Keeps.refl | apply State.modHost_keeps | apply Keeps.ite | apply Keeps.foldl | apply Keeps.forAll | apply Keeps.foldlPair | intro _ _) | split | dsimp only [refuse, okS, okB, okParts])

theorem takeAll_keeps {T r x0 s} (w : within [.clk, .servo, .par, .host, .test, .slices, .courses, .eng, .pts, .recs, .led, .sw, .saf, .log, .keys, .disp, .plc, .ring, .sar, .fw, .pwr] T = true) (h : Keeps T r s) : Keeps T r (takeAll x0 s) := by
  refine Keeps.then (A := [.clk, .servo, .par, .host, .test, .slices, .courses, .eng, .pts, .recs, .led, .sw, .saf, .log, .keys, .disp, .plc, .ring, .sar, .fw, .pwr]) ?_ w h
  clear w h
  induction x0 generalizing s with
  | nil => exact Keeps.refl
  | cons q rs ih =>
    unfold takeAll
    split
    · exact ih.then rfl (State.take_keeps (A := [.clk, .servo, .par, .host, .test, .slices, .courses, .eng, .pts, .recs, .led, .sw, .saf, .log, .keys, .disp, .plc, .ring, .sar, .fw, .pwr]) (fun _ _ => serveOf_keeps rfl Keeps.refl) rfl rfl Keeps.refl)
    · exact State.modHost_keeps rfl Keeps.refl

theorem State.regReads_keeps {T r s x1 x2 x3} (w : within [.clk, .host] T = true) (h : Keeps T r s) : Keeps T r (State.regReads s x1 x2 x3).2 := by
  refine Keeps.then (A := [.clk, .host]) ?_ w h
  clear w h
  induction x2 generalizing s x1 x3 with
  | zero => exact Keeps.refl
  | succ k ih =>
    unfold State.regReads
    exact ih.then rfl (State.regRead_keeps rfl Keeps.refl)

theorem State.regWrites_keeps {T r s x1 x2 x3} (w : within [.clk, .servo, .par, .host, .test, .slices, .courses, .eng, .pts, .recs, .led, .sw, .saf, .log, .keys, .disp, .plc, .ring, .sar, .fw, .pwr] T = true) (h : Keeps T r s) : Keeps T r (State.regWrites s x1 x2 x3) := by
  refine Keeps.then (A := [.clk, .servo, .par, .host, .test, .slices, .courses, .eng, .pts, .recs, .led, .sw, .saf, .log, .keys, .disp, .plc, .ring, .sar, .fw, .pwr]) ?_ w h
  clear w h
  induction x3 generalizing s x1 x2 with
  | zero => exact Keeps.refl
  | succ k ih =>
    unfold State.regWrites
    exact ih.then rfl (State.writeWord_keeps rfl Keeps.refl)

theorem State.hethRun_keeps {T r s x1} (w : within [.clk, .servo, .par, .host, .test, .slices, .courses, .eng, .pts, .recs, .led, .sw, .saf, .log, .keys, .disp, .plc, .ring, .sar, .fw, .pwr] T = true) (h : Keeps T r s) : Keeps T r (State.hethRun s x1).2 := by
  refine Keeps.then (A := [.clk, .servo, .par, .host, .test, .slices, .courses, .eng, .pts, .recs, .led, .sw, .saf, .log, .keys, .disp, .plc, .ring, .sar, .fw, .pwr]) ?_ w h
  clear w h
  unfold State.hethRun
  repeat' (first | ((with_reducible apply within_of); rfl) | with_reducible (first | exact Keeps.refl | apply State.confined_keeps | apply State.peerNow_keeps | apply State.portReads_keeps | apply State.regReads_keeps | apply State.regWrites_keeps | apply Keeps.ite | apply Keeps.foldl | apply Keeps.forAll | apply Keeps.foldlPair | intro _ _) | split | dsimp only [refuse, okS, okB, okParts])

theorem State.restartFallback_keeps {T r s x1} (w : within [.par, .host, .fw] T = true) (h : Keeps T r s) : Keeps T r (State.restartFallback s x1) := by
  refine Keeps.then (A := [.par, .host, .fw]) ?_ w h
  clear w h
  unfold State.restartFallback
  repeat' (first | ((with_reducible apply within_of); rfl) | with_reducible (first | exact Keeps.refl | apply State.fwEvent_keeps | apply State.modFw_keeps | apply State.modPar_keeps | apply Keeps.ite | apply Keeps.foldl | apply Keeps.forAll | apply Keeps.foldlPair | intro _ _) | split | dsimp only [refuse, okS, okB, okParts])

theorem State.bootInto_keeps {T r s x1 x2} (w : within [.par, .host, .fw] T = true) (h : Keeps T r s) : Keeps T r (State.bootInto s x1 x2) := by
  refine Keeps.then (A := [.par, .host, .fw]) ?_ w h
  clear w h
  unfold State.bootInto
  repeat' (first | ((with_reducible apply within_of); rfl) | with_reducible (first | exact Keeps.refl | apply State.fwEvent_keeps | apply State.modFw_keeps | apply State.modPar_keeps | apply State.restartFallback_keeps | apply Keeps.ite | apply Keeps.foldl | apply Keeps.forAll | apply Keeps.foldlPair | intro _ _) | split | dsimp only [refuse, okS, okB, okParts])

theorem State.runHeld_keeps {T r s} (w : within [.clk, .servo, .par, .host, .test, .slices, .courses, .eng, .pts, .recs, .led, .sw, .saf, .log, .keys, .disp, .plc, .ring, .sar, .fw, .pwr] T = true) (h : Keeps T r s) : Keeps T r (State.runHeld s) := by
  refine Keeps.then (A := [.clk, .servo, .par, .host, .test, .slices, .courses, .eng, .pts, .recs, .led, .sw, .saf, .log, .keys, .disp, .plc, .ring, .sar, .fw, .pwr]) ?_ w h
  clear w h
  unfold State.runHeld
  repeat' (first | ((with_reducible apply within_of); rfl) | with_reducible (first | exact Keeps.refl | apply State.modHost_keeps | apply takeAll_keeps | apply Keeps.ite | apply Keeps.foldl | apply Keeps.forAll | apply Keeps.foldlPair | intro _ _) | split | dsimp only [refuse, okS, okB, okParts])

theorem execRequestPart_keeps {x0 x1 x2 s} : KeepsO [.clk, .servo, .par, .host, .test, .slices, .courses, .eng, .pts, .recs, .led, .sw, .saf, .log, .keys, .disp, .plc, .ring, .sar, .fw, .pwr] s (execRequestPart x0 x1 x2 s) := hostCmd_keeps (A := [.clk, .servo, .par, .host, .test, .slices, .courses, .eng, .pts, .recs, .led, .sw, .saf, .log, .keys, .disp, .plc, .ring, .sar, .fw, .pwr]) (fun _ _ => serveOf_keeps rfl Keeps.refl) rfl rfl

theorem State.takeQueued_keeps {T r s} (w : within [.plc] T = true) (h : Keeps T r s) : Keeps T r (State.takeQueued s) := by
  refine Keeps.then (A := [.plc]) ?_ w h
  clear w h
  unfold State.takeQueued
  repeat' (first | ((with_reducible apply within_of); rfl) | with_reducible (first | exact Keeps.refl | apply State.modPlc_keeps | apply Keeps.ite | apply Keeps.foldl | apply Keeps.forAll | apply Keeps.foldlPair | intro _ _) | split | dsimp only [refuse, okS, okB, okParts])

theorem State.handoverStep_keeps {T r s} (w : within [.clk, .servo, .par, .host, .test, .slices, .courses, .eng, .pts, .recs, .led, .sw, .saf, .log, .keys, .disp, .plc, .ring, .sar, .fw, .pwr] T = true) (h : Keeps T r s) : Keeps T r (State.handoverStep s) := by
  refine Keeps.then (A := [.clk, .servo, .par, .host, .test, .slices, .courses, .eng, .pts, .recs, .led, .sw, .saf, .log, .keys, .disp, .plc, .ring, .sar, .fw, .pwr]) ?_ w h
  clear w h
  unfold State.handoverStep
  repeat' (first | ((with_reducible apply within_of); rfl) | with_reducible (first | exact Keeps.refl | apply State.fallBack_keeps | apply State.modHost_keeps | apply State.runHeld_keeps | apply State.takeOver_keeps | apply State.takeQueued_keeps | apply Keeps.ite | apply Keeps.foldl | apply Keeps.forAll | apply Keeps.foldlPair | intro _ _) | split | dsimp only [refuse, okS, okB, okParts])

theorem execFrameTick_keeps {x0 x1 s} : KeepsO [.clk, .servo, .par, .host, .test, .slices, .courses, .eng, .pts, .recs, .led, .sw, .saf, .log, .keys, .disp, .plc, .ring, .sar, .fw, .pwr] s (execFrameTick x0 x1 s) := by
  unfold execFrameTick
  repeat' (first | ((with_reducible apply within_of); rfl) | with_reducible (first | exact Keeps.refl | apply State.at_keeps | apply State.frameTick_keeps | apply State.handoverStep_keeps | apply KeepsO.next | exact KeepsO.fault | apply KeepsO.ite | apply Keeps.ite | apply Keeps.foldl | apply Keeps.forAll | apply Keeps.foldlPair | intro _ _) | split | dsimp only [refuse, okS, okB, okParts])

theorem State.setReady_keeps {T r s} (w : within [.host] T = true) (h : Keeps T r s) : Keeps T r (State.setReady s) := by
  refine Keeps.then (A := [.host]) ?_ w h
  clear w h
  unfold State.setReady
  repeat' (first | ((with_reducible apply within_of); rfl) | with_reducible (first | exact Keeps.refl | apply State.modHost_keeps | apply Keeps.ite | apply Keeps.foldl | apply Keeps.forAll | apply Keeps.foldlPair | intro _ _) | split | dsimp only [refuse, okS, okB, okParts])

theorem execResponsePartRead_keeps {x0 x1 x2 s} : KeepsO [.clk, .servo, .par, .host, .test, .slices, .courses, .eng, .pts, .recs, .led, .sw, .saf, .log, .keys, .disp, .plc, .ring, .sar, .fw, .pwr] s (execResponsePartRead x0 x1 x2 s) := hostCmd_keeps (A := [.clk, .servo, .par, .host, .test, .slices, .courses, .eng, .pts, .recs, .led, .sw, .saf, .log, .keys, .disp, .plc, .ring, .sar, .fw, .pwr]) (fun _ _ => serveOf_keeps rfl Keeps.refl) rfl rfl

theorem execServiceImageBooted_keeps {x0 x1 x2 s} : KeepsO [.clk, .servo, .par, .host, .test, .slices, .courses, .eng, .pts, .recs, .led, .sw, .saf, .log, .keys, .disp, .plc, .ring, .sar, .fw, .pwr] s (execServiceImageBooted x0 x1 x2 s) := by
  unfold execServiceImageBooted
  repeat' (first | ((with_reducible apply within_of); rfl) | with_reducible (first | exact Keeps.refl | apply State.at_keeps | apply State.bootInto_keeps | apply State.modFw_keeps | apply State.modPwr_keeps | apply State.readSlot_keeps | apply State.runHeld_keeps | apply State.setReady_keeps | apply State.takeQueued_keeps | apply KeepsO.next | exact KeepsO.fault | apply KeepsO.ite | apply Keeps.ite | apply Keeps.foldl | apply Keeps.forAll | apply Keeps.foldlPair | intro _ _) | split | dsimp only [refuse, okS, okB, okParts])

theorem execCapoRestart_keeps {x0 x1 x2 x3 x4 x5 x6 s} : KeepsO [.clk, .servo, .par, .host, .test, .slices, .courses, .eng, .pts, .recs, .led, .sw, .saf, .log, .keys, .disp, .plc, .ring, .sar, .fw, .pwr] s (execCapoRestart x0 x1 x2 x3 x4 x5 x6 s) := by
  unfold execCapoRestart
  repeat' (first | ((with_reducible apply within_of); rfl) | with_reducible (first | exact Keeps.refl | apply State.at_keeps | apply State.restartCapo_keeps | apply State.runHeld_keeps | apply KeepsO.next | exact KeepsO.fault | apply KeepsO.ite | apply Keeps.ite | apply Keeps.foldl | apply Keeps.forAll | apply Keeps.foldlPair | intro _ _) | split | dsimp only [refuse, okS, okB, okParts])

theorem execHethDatagram_keeps {x0 x1 s} : KeepsO [.clk, .servo, .par, .host, .test, .slices, .courses, .eng, .pts, .recs, .led, .sw, .saf, .log, .keys, .disp, .plc, .ring, .sar, .fw, .pwr] s (execHethDatagram x0 x1 s) := by
  unfold execHethDatagram
  repeat' (first | ((with_reducible apply within_of); rfl) | with_reducible (first | exact Keeps.refl | apply State.at_keeps | apply State.bump_keeps | apply State.hethReply_keeps | apply State.hethRun_keeps | apply State.modHost_keeps | apply KeepsO.next | exact KeepsO.fault | apply KeepsO.ite | apply Keeps.ite | apply Keeps.foldl | apply Keeps.forAll | apply Keeps.foldlPair | intro _ _) | split | dsimp only [refuse, okS, okB, okParts])

theorem execRegisterWrite_keeps {x0 x1 x2 s} : KeepsO [.clk, .servo, .par, .host, .test, .slices, .courses, .eng, .pts, .recs, .led, .sw, .saf, .log, .keys, .disp, .plc, .ring, .sar, .fw, .pwr] s (execRegisterWrite x0 x1 x2 s) := by
  unfold execRegisterWrite
  repeat' (first | ((with_reducible apply within_of); rfl) | with_reducible (first | exact Keeps.refl | apply State.confined_keeps | apply State.modHost_keeps | apply State.writeWord_keeps | apply KeepsO.next | exact KeepsO.fault | apply KeepsO.ite | apply Keeps.ite | apply Keeps.foldl | apply Keeps.forAll | apply Keeps.foldlPair | intro _ _) | split | dsimp only [refuse, okS, okB, okParts])

end Sys2Proof.Machine
end

