-- ==== Sys2Proof/Laws/Params.lean ====
section
/-!
SUPPORT. The sparse parameter list keeps its one canonical form: keys strictly rising, and what was put is what is read.
-/

namespace Sys2Proof.Machine

/-- The key of an entry of a parameter list: PID first, then instance. -/
def keyLess (x y : Nat × Nat × Int) : Prop := x.1 < y.1 ∨ (x.1 = y.1 ∧ x.2.1 < y.2.1)

/-- A parameter list in canonical form: keys strictly rising. -/
def rising (l : List (Nat × Nat × Int)) : Prop := l.Pairwise keyLess

theorem mem_insertP {l : List (Nat × Nat × Int)} {pid inst : Nat} {v : Int} {x : Nat × Nat × Int}
    (h : x ∈ insertP l pid inst v) : x = (pid, inst, v) ∨ x ∈ l := by
  induction l with
  | nil => simpa [insertP] using h
  | cons y l ih =>
    obtain ⟨a, b, w⟩ := y
    simp only [insertP] at h
    split at h
    · simp only [List.mem_cons] at h ⊢; tauto
    · split at h
      · simp only [List.mem_cons] at h ⊢; tauto
      · simp only [List.mem_cons] at h ⊢
        rcases h with h | h
        · tauto
        · rcases ih h with h | h <;> tauto

theorem insertP_rising {l : List (Nat × Nat × Int)} (h : rising l) (pid inst : Nat) (v : Int) :
    rising (insertP l pid inst v) := by
  induction l with
  | nil => simp [rising, insertP]
  | cons y l ih =>
    obtain ⟨a, b, w⟩ := y
    obtain ⟨h1, h2⟩ := List.pairwise_cons.1 h
    simp only [insertP]
    split
    · rename_i e
      exact List.pairwise_cons.2 ⟨fun x hx => by have := h1 x hx; simp only [keyLess] at this ⊢; omega, h2⟩
    · split
      · rename_i e
        refine List.pairwise_cons.2 ⟨fun x hx => ?_, h⟩
        rcases List.mem_cons.1 hx with rfl | hx
        · simp only [keyLess]; omega
        · have := h1 x hx
          simp only [keyLess] at this ⊢; omega
      · refine List.pairwise_cons.2 ⟨fun x hx => ?_, ih h2⟩
        rcases mem_insertP hx with rfl | hx
        · simp only [keyLess]; omega
        · exact h1 x hx

theorem removeP_rising {l : List (Nat × Nat × Int)} (h : rising l) (pid inst : Nat) : rising (removeP l pid inst) :=
  List.Pairwise.filter _ h

/-- A write keeps the canonical form. -/
theorem putP_rising {l : List (Nat × Nat × Int)} (h : rising l) (pid inst : Nat) (d v : Int) : rising (putP l pid inst d v) := by
  unfold putP
  split
  · exact removeP_rising h pid inst
  · exact insertP_rising h pid inst v

/-- What was put is what is read. -/
theorem lookupP_insertP (l : List (Nat × Nat × Int)) (pid inst : Nat) (v : Int) :
    lookupP (insertP l pid inst v) pid inst = some v := by
  induction l with
  | nil => simp [insertP, lookupP]
  | cons y l ih =>
    obtain ⟨a, b, w⟩ := y
    simp only [insertP]
    split
    · simp [lookupP]
    · split
      · simp [lookupP]
      · rename_i e _
        simp only [lookupP, if_neg e, ih]

/-- Every other parameter reads as before. -/
theorem lookupP_insertP_ne {l : List (Nat × Nat × Int)} {pid inst q j : Nat} (v : Int) (h : ¬(pid = q ∧ inst = j)) :
    lookupP (insertP l pid inst v) q j = lookupP l q j := by
  induction l with
  | nil => simp [insertP, lookupP, h]
  | cons y l ih =>
    obtain ⟨a, b, w⟩ := y
    simp only [insertP]
    split
    · rename_i e
      simp only [lookupP, if_neg h, e.1, e.2]
    · split
      · simp only [lookupP, if_neg h]
      · simp only [lookupP, ih]

end Sys2Proof.Machine
end

