-- ==== Sys2Proof/WellFormed.lean ====
section
/-!
DEFINITION. Which commands are well formed: every index names something the part has, and no operand is one that the sender could not
spell.
-/

namespace Sys2Proof

/-- The kinds of thing that a command may name by number. -/
inductive Res where
  /-- Mailbox (19 R451). -/
  | mailbox
  /-- Stream (Table 19.5). -/
  | stream
  /-- Slice (04). -/
  | slice
  /-- Course (04 R112). -/
  | course
  /-- Point (09). -/
  | point
  /-- Dual input (15 R358). -/
  | dualInput
  /-- Switch channel (14). -/
  | switchChannel
  /-- Seal land (15 R374). -/
  | seal
  /-- Connection entry (15 R363). -/
  | entry
  /-- Time-triggered output (03 R85). -/
  | tto
  /-- Timed capture input (03 R87). -/
  | tci
  /-- SAR timer (16). -/
  | sarTimer
  /-- SAR converter (16). -/
  | converter
  /-- Fret stretch register (23 Table 23.1). -/
  | stretch
  /-- Line port LKA or LKB (17 R399). -/
  | line
  /-- Power-line port (13). -/
  | plcPort
  /-- What SAFETY_AUTO_RELEASE may release (15). -/
  | releaseSource
  /-- PTP port (03 R66). -/
  | ptpPort
  /-- Node ID (19 Table 19.3). -/
  | node
  /-- Core rail (22 R504). -/
  | rail
deriving DecidableEq, Repr

/-- How many of a kind the part has. -/
def Res.count : Res → Nat
  | .mailbox => 8
  | .stream => 4
  | .slice => 128
  | .course => 64
  | .point => 16
  | .dualInput => 32
  | .switchChannel => 32
  | .seal => 8
  | .entry => 16
  | .tto => 8
  | .tci => 4
  | .sarTimer => 8
  | .converter => 4
  | .stretch => 8
  | .line => 2
  | .plcPort => 18
  | .releaseSource => 49
  | .ptpPort => 3
  | .node => 4096
  | .rail => 3

/-- A request as the host may write it: a mailbox, a tag and a flags word of 16 bits, and at most 248 bytes of payload (19
R451). -/
def Hdr.wf (h : Hdr) (p : Bytes) : Bool := h.tag < 65536 && h.flags < 65536 && p.length ≤ 248

/-- What a command names, and by which number. -/
def Instr.subject : Instr → Option (Res × Nat)
  | .identity h _ => some (.mailbox, h.mbx)
  | .nodeStatus h _ => some (.mailbox, h.mbx)
  | .eventDetail h _ => some (.mailbox, h.mbx)
  | .factoryReset h _ => some (.mailbox, h.mbx)
  | .parameterRead h _ => some (.mailbox, h.mbx)
  | .parameterWrite h _ => some (.mailbox, h.mbx)
  | .batchCommit h _ => some (.mailbox, h.mbx)
  | .batchAbort h _ => some (.mailbox, h.mbx)
  | .batchCheck h _ => some (.mailbox, h.mbx)
  | .parameterDescribe h _ => some (.mailbox, h.mbx)
  | .parameterList h _ => some (.mailbox, h.mbx)
  | .sessionRequest h _ => some (.mailbox, h.mbx)
  | .sessionReject h _ => some (.mailbox, h.mbx)
  | .sessionCancel h _ => some (.mailbox, h.mbx)
  | .sessionStop h _ => some (.mailbox, h.mbx)
  | .sessionRevoke h _ => some (.mailbox, h.mbx)
  | .faultAcknowledge h _ => some (.mailbox, h.mbx)
  | .sessionAuthorise h _ => some (.mailbox, h.mbx)
  | .sessionModify h _ => some (.mailbox, h.mbx)
  | .sessionStatus h _ => some (.mailbox, h.mbx)
  | .pointQuantities h _ => some (.mailbox, h.mbx)
  | .pointHarmonics h _ => some (.mailbox, h.mbx)
  | .pointSupraharmonics h _ => some (.mailbox, h.mbx)
  | .pointRegisters h _ => some (.mailbox, h.mbx)
  | .pointStatus h _ => some (.mailbox, h.mbx)
  | .channelStatus h _ => some (.mailbox, h.mbx)
  | .courseRestore h _ => some (.mailbox, h.mbx)
  | .capture h _ => some (.mailbox, h.mbx)
  | .outletLimit h _ => some (.mailbox, h.mbx)
  | .outletDcStatus h _ => some (.mailbox, h.mbx)
  | .outletRootStore h _ => some (.mailbox, h.mbx)
  | .switchCommand h _ => some (.mailbox, h.mbx)
  | .switchStatus h _ => some (.mailbox, h.mbx)
  | .switchReset h _ => some (.mailbox, h.mbx)
  | .safetyAcknowledge h _ => some (.mailbox, h.mbx)
  | .safetyStatus h _ => some (.mailbox, h.mbx)
  | .journalRead h _ => some (.mailbox, h.mbx)
  | .recordAcknowledge h _ => some (.mailbox, h.mbx)
  | .logRead h _ => some (.mailbox, h.mbx)
  | .logAcknowledge h _ => some (.mailbox, h.mbx)
  | .journalStatus h _ => some (.mailbox, h.mbx)
  | .keyStatus h _ => some (.mailbox, h.mbx)
  | .keyInvalidate h _ => some (.mailbox, h.mbx)
  | .keyNextGeneration h _ => some (.mailbox, h.mbx)
  | .keyRegenerate h _ => some (.mailbox, h.mbx)
  | .keyAttest h _ => some (.mailbox, h.mbx)
  | .keyStatementRead h _ => some (.mailbox, h.mbx)
  | .keyNodeCertificate h _ => some (.mailbox, h.mbx)
  | .keyTlsCertificateLoad h _ => some (.mailbox, h.mbx)
  | .keyErase h _ => some (.mailbox, h.mbx)
  | .keyPublicRead h _ => some (.mailbox, h.mbx)
  | .fwBegin h _ => some (.mailbox, h.mbx)
  | .fwData h _ => some (.mailbox, h.mbx)
  | .fwVerify h _ => some (.mailbox, h.mbx)
  | .fwHandover h _ => some (.mailbox, h.mbx)
  | .fwConfirm h _ => some (.mailbox, h.mbx)
  | .fwStatus h _ => some (.mailbox, h.mbx)
  | .timeStatus h _ => some (.mailbox, h.mbx)
  | .timeAccept h _ => some (.mailbox, h.mbx)
  | .ttoSet h _ => some (.mailbox, h.mbx)
  | .tciSet h _ => some (.mailbox, h.mbx)
  | .tciRead h _ => some (.mailbox, h.mbx)
  | .balanceResults h _ => some (.mailbox, h.mbx)
  | .ringMap h _ => some (.mailbox, h.mbx)
  | .displayPin h _ => some (.mailbox, h.mbx)
  | .displayStatic h _ => some (.mailbox, h.mbx)
  | .displayWaveform h _ => some (.mailbox, h.mbx)
  | .displayTemperature h _ => some (.mailbox, h.mbx)
  | .displayUpdate h _ => some (.mailbox, h.mbx)
  | .sarResults h _ => some (.mailbox, h.mbx)
  | .sarTrigger h _ => some (.mailbox, h.mbx)
  | .sarSelftest h _ => some (.mailbox, h.mbx)
  | .testUnlock h _ => some (.mailbox, h.mbx)
  | .testRelock h _ => some (.mailbox, h.mbx)
  | .requestPart h _ _ => some (.mailbox, h.mbx)
  | .responsePartRead h _ _ => some (.mailbox, h.mbx)
  | .mailboxRelease m _ => some (.mailbox, m)
  | .eventClear _ _ => none
  | .heartbeat _ => none
  | .frameLoRead => none
  | .streamPortRead k _ => some (.stream, k)
  | .streamFlush k _ => some (.stream, k)
  | .testClear _ => none
  | .testStretchWrite i _ => some (.stretch, i)
  | .testFifoWrite _ => none
  | .testRingWrite _ => none
  | .testZcWrite _ => none
  | .testSafetyWrite _ => none
  | .testPlcWrite _ => none
  | .testMramWrite _ => none
  | .testWdWrite _ => none
  | .registerWrite _ _ _ => none
  | .qspiTransactionError _ => none
  | .hethDatagram _ _ => none
  | .replyCacheExpiry _ => none
  | .batchTimeout _ => none
  | .hostWatchdogTimeout _ => none
  | .streamTailTimeout _ k => some (.stream, k)
  | .recordStreamDequeue _ => none
  | .frameTick _ _ => none
  | .fretCutoff _ => none
  | .handoverBlockReady _ => none
  | .frameAccumulate _ => none
  | .intervalBoundary _ => none
  | .recordSigned _ => none
  | .modeChangeoverComplete _ => none
  | .autoGainSwitchUp _ c => some (.slice, c)
  | .autoGainSwitchDown _ c _ => some (.slice, c)
  | .modulatorRestart _ c => some (.slice, c)
  | .residualTrip _ c _ _ => some (.slice, c)
  | .residualSelfTestResult _ p => some (.point, p)
  | .courseDiagnosisStart _ => none
  | .courseVerdict _ => none
  | .courseDiagRepeat _ j => some (.course, j)
  | .courseAgreedRestored _ j => some (.course, j)
  | .sensorFaultDeclared _ p _ _ => some (.point, p)
  | .sensorFaultCleared _ p _ _ => some (.point, p)
  | .excitationCompliance _ p _ => some (.point, p)
  | .pulseEdge _ p _ _ _ _ => some (.point, p)
  | .mpoPulseEdge _ p => some (.point, p)
  | .zeroCrossing _ _ => none
  | .zcPredictionTimeout _ => none
  | .ptpSyncReceived _ m => some (.ptpPort, m.port)
  | .ptpAnnounceReceived _ a => some (.ptpPort, a.port)
  | .ptpDelayMessageReceived _ m => some (.ptpPort, m.port)
  | .ptpManagementReceived _ m => some (.ptpPort, m.port)
  | .ptpAnnounceTimeout _ => none
  | .ptpSyncTimeout _ => none
  | .ptpRestart _ => none
  | .frameCounterLoad _ => none
  | .timeStepApply _ => none
  | .beaconReceived _ b => some (.node, b.node)
  | .beaconSlot _ => none
  | .beaconPeriodStart _ => none
  | .beaconTimeout _ node => some (.node, node)
  | .ttoEdge _ i => some (.tto, i)
  | .tciEdge _ i _ _ => some (.tci, i)
  | .pilotPeriod _ p => some (.point, p)
  | .sarTimerTick _ i => some (.sarTimer, i)
  | .sarTriggerFire _ k _ => some (.converter, k)
  | .sarConversionComplete _ k _ _ => some (.converter, k)
  | .pilotCodeAccepted _ p => some (.point, p)
  | .proximityCodeAccepted _ p => some (.point, p)
  | .monitorScan _ _ => none
  | .sarSelftestRun _ k => some (.converter, k)
  | .sarSelftestComplete _ k _ => some (.converter, k)
  | .v2gMessageReceived _ p _ => some (.point, p)
  | .cmSlacParmReq _ _ _ => none
  | .slacRunJudged _ _ _ _ => none
  | .plcLinkUp _ p => some (.point, p)
  | .plcLinkTimeout _ p => some (.point, p)
  | .plcLossTimeout _ p => some (.point, p)
  | .v2gSessionTimeout _ p => some (.point, p)
  | .dcStatusTimeout _ p => some (.point, p)
  | .preambleDetected _ port _ => some (.plcPort, port)
  | .plcTurn _ _ => none
  | .weldedContactDeclared _ p => some (.point, p)
  | .weldCleared _ p => some (.point, p)
  | .authTimeout _ p => some (.point, p)
  | .startTimeout _ p => some (.point, p)
  | .stopGraceExpiry _ p => some (.point, p)
  | .stopSettleExpiry _ p => some (.point, p)
  | .siLevelChange _ k _ _ _ => some (.dualInput, k)
  | .safetyDiscrepancyLatch _ k => some (.dualInput, k)
  | .safetyAutoRelease _ src => some (.releaseSource, src)
  | .safetyMessageSend _ i => some (.entry, i)
  | .safetyMessageReceived _ i _ => some (.entry, i)
  | .safetyTimeExpectationExpiry _ i => some (.entry, i)
  | .sealChange _ i _ _ => some (.seal, i)
  | .overloadTimeout _ ch => some (.switchChannel, ch)
  | .thermalLatch _ ch _ => some (.switchChannel, ch)
  | .thermalRelease _ ch _ => some (.switchChannel, ch)
  | .retryDelayExpiry _ ch => some (.switchChannel, ch)
  | .retryCounterReload _ ch => some (.switchChannel, ch)
  | .openLoadDeclared _ ch _ => some (.switchChannel, ch)
  | .openLoadCleared _ ch _ => some (.switchChannel, ch)
  | .vswUndervoltage _ _ => none
  | .vswRestore _ _ => none
  | .vswBelowRide _ _ => none
  | .switchDieReset _ _ => none
  | .switchDiePowerUp _ _ => none
  | .supplyPhaseTimeout _ => none
  | .watchdogArm _ _ _ => none
  | .watchdogFeed _ => none
  | .watchdogWindowExpiry _ => none
  | .dieLinkLost _ => none
  | .yudaixFrameReceived _ _ => none
  | .mainsFrameTimeout _ => none
  | .lineLinkDown _ port => some (.line, port)
  | .lineLinkUp _ port => some (.line, port)
  | .ringTestSend _ => none
  | .ringTestMissing _ => none
  | .linkDownNotice _ port => some (.line, port)
  | .ringFlush _ port => some (.line, port)
  | .discoveryStart _ => none
  | .discoveryTokenReceived _ k => some (.node, k.root)
  | .discoveryComplete _ root _ => some (.node, root)
  | .balanceFrameLaunch _ => none
  | .balanceRetry _ => none
  | .balanceFramePass _ _ => none
  | .balanceFrameReturn _ _ => none
  | .balanceReturnLate _ => none
  | .rootLost _ => none
  | .powerGood _ _ _ _ _ => none
  | .capoBootVerified _ _ _ => none
  | .parameterStoreLoaded _ _ _ _ _ => none
  | .rootRegenerated _ _ _ _ _ _ => none
  | .holdupMerge _ _ _ _ _ => none
  | .serviceImageBooted _ _ _ => none
  | .pfwWarning _ _ => none
  | .vswMonitorTrip _ _ => none
  | .warningEnd _ _ _ => none
  | .brownOut _ _ _ => none
  | .brownOutReset _ => none
  | .railRestartTrip _ rail _ => some (.rail, rail)
  | .refclkLoss _ => none
  | .thermalShutdown _ _ => none
  | .resetnAssert _ _ _ => none
  | .resetnRelease _ => none
  | .capoDivergence _ _ => none
  | .capoException _ _ => none
  | .capoRestart _ _ _ _ _ _ _ => none
  | .displayStart _ _ _ _ => none
  | .displayRailTimeout _ => none
  | .displayPageChange _ => none
  | .displayRefresh _ => none
  | .displayPhaseEnd _ => none
  | .displayBookMark _ => none
  | .displayPinExpiry _ => none
  | .displayTempExpiry _ => none
  | .displayOvercurrent _ _ => none
  | .attestationComplete _ => none
  | .fwStageVerified _ => none
  | .standbyReady _ => none
  | .handoverBootTimeout _ => none
  | .fwConfirmTimeout _ => none
  | .serviceLivenessFail _ _ => none
  | .testTimeout _ => none
  | .testSafetyDelayRelease _ => none
  | .ptpMessageTransmit _ port _ => some (.ptpPort, port)
  | .displayStartRetry _ _ _ _ => none
  | .thermalShutdownEnd _ _ => none
  | .switchCurrentLimit _ ch _ _ => some (.switchChannel, ch)

/-- The number that a command names is in range. -/
def Instr.inRange (i : Instr) : Bool :=
  match i.subject with
  | some (r, n) => decide (n < r.count)
  | none => true

/-- The operands besides what `subject` names. -/
def Instr.operandsWf : Instr → Bool
  | .identity h p => h.wf p
  | .nodeStatus h p => h.wf p
  | .eventDetail h p => h.wf p
  | .factoryReset h p => h.wf p
  | .parameterRead h p => h.wf p
  | .parameterWrite h p => h.wf p
  | .batchCommit h p => h.wf p
  | .batchAbort h p => h.wf p
  | .batchCheck h p => h.wf p
  | .parameterDescribe h p => h.wf p
  | .parameterList h p => h.wf p
  | .sessionRequest h p => h.wf p
  | .sessionReject h p => h.wf p
  | .sessionCancel h p => h.wf p
  | .sessionStop h p => h.wf p
  | .sessionRevoke h p => h.wf p
  | .faultAcknowledge h p => h.wf p
  | .sessionAuthorise h p => h.wf p
  | .sessionModify h p => h.wf p
  | .sessionStatus h p => h.wf p
  | .pointQuantities h p => h.wf p
  | .pointHarmonics h p => h.wf p
  | .pointSupraharmonics h p => h.wf p
  | .pointRegisters h p => h.wf p
  | .pointStatus h p => h.wf p
  | .channelStatus h p => h.wf p
  | .courseRestore h p => h.wf p
  | .capture h p => h.wf p
  | .outletLimit h p => h.wf p
  | .outletDcStatus h p => h.wf p
  | .outletRootStore h p => h.wf p
  | .switchCommand h p => h.wf p
  | .switchStatus h p => h.wf p
  | .switchReset h p => h.wf p
  | .safetyAcknowledge h p => h.wf p
  | .safetyStatus h p => h.wf p
  | .journalRead h p => h.wf p
  | .recordAcknowledge h p => h.wf p
  | .logRead h p => h.wf p
  | .logAcknowledge h p => h.wf p
  | .journalStatus h p => h.wf p
  | .keyStatus h p => h.wf p
  | .keyInvalidate h p => h.wf p
  | .keyNextGeneration h p => h.wf p
  | .keyRegenerate h p => h.wf p
  | .keyAttest h p => h.wf p
  | .keyStatementRead h p => h.wf p
  | .keyNodeCertificate h p => h.wf p
  | .keyTlsCertificateLoad h p => h.wf p
  | .keyErase h p => h.wf p
  | .keyPublicRead h p => h.wf p
  | .fwBegin h p => h.wf p
  | .fwData h p => h.wf p
  | .fwVerify h p => h.wf p
  | .fwHandover h p => h.wf p
  | .fwConfirm h p => h.wf p
  | .fwStatus h p => h.wf p
  | .timeStatus h p => h.wf p
  | .timeAccept h p => h.wf p
  | .ttoSet h p => h.wf p
  | .tciSet h p => h.wf p
  | .tciRead h p => h.wf p
  | .balanceResults h p => h.wf p
  | .ringMap h p => h.wf p
  | .displayPin h p => h.wf p
  | .displayStatic h p => h.wf p
  | .displayWaveform h p => h.wf p
  | .displayTemperature h p => h.wf p
  | .displayUpdate h p => h.wf p
  | .sarResults h p => h.wf p
  | .sarTrigger h p => h.wf p
  | .sarSelftest h p => h.wf p
  | .testUnlock h p => h.wf p
  | .testRelock h p => h.wf p
  | .requestPart h code p => h.wf p && code < 65536
  | .responsePartRead h code p => h.wf p && code < 65536
  | .mailboxRelease _ _ => true
  | .eventClear _ _ => true
  | .heartbeat _ => true
  | .frameLoRead => true
  | .streamPortRead _ _ => true
  | .streamFlush _ _ => true
  | .testClear _ => true
  | .testStretchWrite _ _ => true
  | .testFifoWrite _ => true
  | .testRingWrite _ => true
  | .testZcWrite _ => true
  | .testSafetyWrite _ => true
  | .testPlcWrite _ => true
  | .testMramWrite _ => true
  | .testWdWrite _ => true
  | .registerWrite a _ _ => a < 65536
  | .qspiTransactionError _ => true
  | .hethDatagram _ g => g.op < 256 && g.addr < 65536 && g.len < 65536 && g.seq < 65536
  | .replyCacheExpiry _ => true
  | .batchTimeout _ => true
  | .hostWatchdogTimeout _ => true
  | .streamTailTimeout _ _ => true
  | .recordStreamDequeue _ => true
  | .frameTick _ obs => obs.chans.all (fun x => decide (x.chan < 128) && x.bits.length == 2048 && x.bits.all (fun b => decide (b.natAbs ≤ 1)) && x.input.length == 25) && obs.parity.all (fun f => decide (f < 148))
  | .fretCutoff _ => true
  | .handoverBlockReady _ => true
  | .frameAccumulate _ => true
  | .intervalBoundary _ => true
  | .recordSigned _ => true
  | .modeChangeoverComplete _ => true
  | .autoGainSwitchUp _ _ => true
  | .autoGainSwitchDown _ _ bits => bits.length ≤ 2048 && bits.all (fun b => decide (b.natAbs ≤ 1))
  | .modulatorRestart _ _ => true
  | .residualTrip _ _ comp input => comp < 6 && input.length ≤ 25
  | .residualSelfTestResult _ _ => true
  | .courseDiagnosisStart _ => true
  | .courseVerdict _ => true
  | .courseDiagRepeat _ _ => true
  | .courseAgreedRestored _ _ => true
  | .sensorFaultDeclared _ _ src _ => src < 8 || src = 16 || src = 17
  | .sensorFaultCleared _ _ src _ => src < 8 || src = 16 || src = 17
  | .excitationCompliance _ _ _ => true
  | .pulseEdge _ _ _ _ _ _ => true
  | .mpoPulseEdge _ _ => true
  | .zeroCrossing _ _ => true
  | .zcPredictionTimeout _ => true
  | .ptpSyncReceived _ _ => true
  | .ptpAnnounceReceived _ _ => true
  | .ptpDelayMessageReceived _ _ => true
  | .ptpManagementReceived _ _ => true
  | .ptpAnnounceTimeout _ => true
  | .ptpSyncTimeout _ => true
  | .ptpRestart _ => true
  | .frameCounterLoad _ => true
  | .timeStepApply _ => true
  | .beaconReceived _ b => b.port < 18
  | .beaconSlot _ => true
  | .beaconPeriodStart _ => true
  | .beaconTimeout _ _ => true
  | .ttoEdge _ _ => true
  | .tciEdge _ _ _ _ => true
  | .pilotPeriod _ _ => true
  | .sarTimerTick _ _ => true
  | .sarTriggerFire _ _ i => i < 32
  | .sarConversionComplete t _ code sampled => code < 4096 && sampled ≤ t
  | .pilotCodeAccepted _ _ => true
  | .proximityCodeAccepted _ _ => true
  | .monitorScan _ m => m.exc.all (fun e => decide (e.1 < 16))
  | .sarSelftestRun _ _ => true
  | .sarSelftestComplete _ _ sums => sums.length = 4
  | .v2gMessageReceived _ _ _ => true
  | .cmSlacParmReq _ _ heard => heard.all (fun p => decide (p < 16))
  | .slacRunJudged _ _ atten _ => atten.all (fun a => decide (a.1 < 16))
  | .plcLinkUp _ _ => true
  | .plcLinkTimeout _ _ => true
  | .plcLossTimeout _ _ => true
  | .v2gSessionTimeout _ _ => true
  | .dcStatusTimeout _ _ => true
  | .preambleDetected _ _ _ => true
  | .plcTurn _ syms => syms.all (fun y => decide (y.port < 18))
  | .weldedContactDeclared _ _ => true
  | .weldCleared _ _ => true
  | .authTimeout _ _ => true
  | .startTimeout _ _ => true
  | .stopGraceExpiry _ _ => true
  | .stopSettleExpiry _ _ => true
  | .siLevelChange _ _ _ _ _ => true
  | .safetyDiscrepancyLatch _ _ => true
  | .safetyAutoRelease _ _ => true
  | .safetyMessageSend _ _ => true
  | .safetyMessageReceived _ _ _ => true
  | .safetyTimeExpectationExpiry _ _ => true
  | .sealChange t _ _ since => since ≤ t
  | .overloadTimeout _ _ => true
  | .thermalLatch _ _ _ => true
  | .thermalRelease _ _ _ => true
  | .retryDelayExpiry _ _ => true
  | .retryCounterReload _ _ => true
  | .openLoadDeclared t _ since => since ≤ t
  | .openLoadCleared t _ since => since ≤ t
  | .vswUndervoltage _ _ => true
  | .vswRestore _ _ => true
  | .vswBelowRide _ _ => true
  | .switchDieReset _ _ => true
  | .switchDiePowerUp _ _ => true
  | .supplyPhaseTimeout _ => true
  | .watchdogArm _ _ _ => true
  | .watchdogFeed _ => true
  | .watchdogWindowExpiry _ => true
  | .dieLinkLost _ => true
  | .yudaixFrameReceived _ f => f.port < 4
  | .mainsFrameTimeout _ => true
  | .lineLinkDown _ _ => true
  | .lineLinkUp _ _ => true
  | .ringTestSend _ => true
  | .ringTestMissing _ => true
  | .linkDownNotice _ _ => true
  | .ringFlush _ _ => true
  | .discoveryStart _ => true
  | .discoveryTokenReceived _ k => k.port < 4
  | .discoveryComplete _ _ _ => true
  | .balanceFrameLaunch _ => true
  | .balanceRetry _ => true
  | .balanceFramePass _ frame => frame.length ≤ 1500
  | .balanceFrameReturn _ frame => frame.length ≤ 1500
  | .balanceReturnLate _ => true
  | .rootLost _ => true
  | .powerGood _ _ _ _ _ => true
  | .capoBootVerified _ _ _ => true
  | .parameterStoreLoaded _ _ _ _ _ => true
  | .rootRegenerated _ _ _ _ _ _ => true
  | .holdupMerge _ badE badB badL _ => badE.all (fun i => decide (i < 4)) && badB.all (fun i => decide (i < 2)) && badL.all (fun i => decide (i < 2))
  | .serviceImageBooted _ _ _ => true
  | .pfwWarning t since => since ≤ t
  | .vswMonitorTrip _ _ => true
  | .warningEnd t since _ => since ≤ t
  | .brownOut _ _ _ => true
  | .brownOutReset _ => true
  | .railRestartTrip _ _ _ => true
  | .refclkLoss _ => true
  | .thermalShutdown _ _ => true
  | .resetnAssert _ _ _ => true
  | .resetnRelease _ => true
  | .capoDivergence _ _ => true
  | .capoException _ _ => true
  | .capoRestart _ badE badB badL _ _ _ => badE.all (fun i => decide (i < 4)) && badB.all (fun i => decide (i < 2)) && badL.all (fun i => decide (i < 2))
  | .displayStart _ _ _ _ => true
  | .displayRailTimeout _ => true
  | .displayPageChange _ => true
  | .displayRefresh _ => true
  | .displayPhaseEnd _ => true
  | .displayBookMark _ => true
  | .displayPinExpiry _ => true
  | .displayTempExpiry _ => true
  | .displayOvercurrent _ seg => seg < 160 || seg = 255
  | .attestationComplete _ => true
  | .fwStageVerified _ => true
  | .standbyReady _ => true
  | .handoverBootTimeout _ => true
  | .fwConfirmTimeout _ => true
  | .serviceLivenessFail _ _ => true
  | .testTimeout _ => true
  | .testSafetyDelayRelease _ => true
  | .ptpMessageTransmit _ _ kind => kind < 3
  | .displayStartRetry _ _ _ _ => true
  | .thermalShutdownEnd _ _ => true
  | .switchCurrentLimit _ _ _ _ => true

/-- A well-formed command. (log 3) -/
def Instr.wf (i : Instr) : Bool := i.inRange && i.operandsWf

end Sys2Proof
end

