-- ==== Sys2Proof/Laws/PerInstr.lean ====
section
/-!
SUPPORT. Per-command laws of well-formedness: the number by which a well-formed command names a mailbox, a point, a channel or
any other thing is one the part has.
-/

namespace Sys2Proof.Laws.Wf

/-- What a well-formed command names is in range. -/
def Statement (i : Instr) : Prop := i.wf = true → ∀ r n, i.subject = some (r, n) → n < r.count

/-- The range test says so for any command. -/
theorem inRange_subject (i : Instr) (h : i.inRange = true) (r : Res) (n : Nat) (e : i.subject = some (r, n)) : n < r.count := by
  unfold Instr.inRange at h
  rw [e] at h
  simpa using h

/-- Every command is covered by its range test. -/
theorem of_wf (i : Instr) : Statement i := fun h r n e => by
  unfold Instr.wf at h
  exact inRange_subject i (by simp_all) r n e

theorem identity (h : Hdr) (p : Bytes) : Statement (.identity h p) := of_wf _
theorem nodeStatus (h : Hdr) (p : Bytes) : Statement (.nodeStatus h p) := of_wf _
theorem eventDetail (h : Hdr) (p : Bytes) : Statement (.eventDetail h p) := of_wf _
theorem factoryReset (h : Hdr) (p : Bytes) : Statement (.factoryReset h p) := of_wf _
theorem parameterRead (h : Hdr) (p : Bytes) : Statement (.parameterRead h p) := of_wf _
theorem parameterWrite (h : Hdr) (p : Bytes) : Statement (.parameterWrite h p) := of_wf _
theorem batchCommit (h : Hdr) (p : Bytes) : Statement (.batchCommit h p) := of_wf _
theorem batchAbort (h : Hdr) (p : Bytes) : Statement (.batchAbort h p) := of_wf _
theorem batchCheck (h : Hdr) (p : Bytes) : Statement (.batchCheck h p) := of_wf _
theorem parameterDescribe (h : Hdr) (p : Bytes) : Statement (.parameterDescribe h p) := of_wf _
theorem parameterList (h : Hdr) (p : Bytes) : Statement (.parameterList h p) := of_wf _
theorem sessionRequest (h : Hdr) (p : Bytes) : Statement (.sessionRequest h p) := of_wf _
theorem sessionReject (h : Hdr) (p : Bytes) : Statement (.sessionReject h p) := of_wf _
theorem sessionCancel (h : Hdr) (p : Bytes) : Statement (.sessionCancel h p) := of_wf _
theorem sessionStop (h : Hdr) (p : Bytes) : Statement (.sessionStop h p) := of_wf _
theorem sessionRevoke (h : Hdr) (p : Bytes) : Statement (.sessionRevoke h p) := of_wf _
theorem faultAcknowledge (h : Hdr) (p : Bytes) : Statement (.faultAcknowledge h p) := of_wf _
theorem sessionAuthorise (h : Hdr) (p : Bytes) : Statement (.sessionAuthorise h p) := of_wf _
theorem sessionModify (h : Hdr) (p : Bytes) : Statement (.sessionModify h p) := of_wf _
theorem sessionStatus (h : Hdr) (p : Bytes) : Statement (.sessionStatus h p) := of_wf _
theorem pointQuantities (h : Hdr) (p : Bytes) : Statement (.pointQuantities h p) := of_wf _
theorem pointHarmonics (h : Hdr) (p : Bytes) : Statement (.pointHarmonics h p) := of_wf _
theorem pointSupraharmonics (h : Hdr) (p : Bytes) : Statement (.pointSupraharmonics h p) := of_wf _
theorem pointRegisters (h : Hdr) (p : Bytes) : Statement (.pointRegisters h p) := of_wf _
theorem pointStatus (h : Hdr) (p : Bytes) : Statement (.pointStatus h p) := of_wf _
theorem channelStatus (h : Hdr) (p : Bytes) : Statement (.channelStatus h p) := of_wf _
theorem courseRestore (h : Hdr) (p : Bytes) : Statement (.courseRestore h p) := of_wf _
theorem capture (h : Hdr) (p : Bytes) : Statement (.capture h p) := of_wf _
theorem outletLimit (h : Hdr) (p : Bytes) : Statement (.outletLimit h p) := of_wf _
theorem outletDcStatus (h : Hdr) (p : Bytes) : Statement (.outletDcStatus h p) := of_wf _
theorem outletRootStore (h : Hdr) (p : Bytes) : Statement (.outletRootStore h p) := of_wf _
theorem switchCommand (h : Hdr) (p : Bytes) : Statement (.switchCommand h p) := of_wf _
theorem switchStatus (h : Hdr) (p : Bytes) : Statement (.switchStatus h p) := of_wf _
theorem switchReset (h : Hdr) (p : Bytes) : Statement (.switchReset h p) := of_wf _
theorem safetyAcknowledge (h : Hdr) (p : Bytes) : Statement (.safetyAcknowledge h p) := of_wf _
theorem safetyStatus (h : Hdr) (p : Bytes) : Statement (.safetyStatus h p) := of_wf _
theorem journalRead (h : Hdr) (p : Bytes) : Statement (.journalRead h p) := of_wf _
theorem recordAcknowledge (h : Hdr) (p : Bytes) : Statement (.recordAcknowledge h p) := of_wf _
theorem logRead (h : Hdr) (p : Bytes) : Statement (.logRead h p) := of_wf _
theorem logAcknowledge (h : Hdr) (p : Bytes) : Statement (.logAcknowledge h p) := of_wf _
theorem journalStatus (h : Hdr) (p : Bytes) : Statement (.journalStatus h p) := of_wf _
theorem keyStatus (h : Hdr) (p : Bytes) : Statement (.keyStatus h p) := of_wf _
theorem keyInvalidate (h : Hdr) (p : Bytes) : Statement (.keyInvalidate h p) := of_wf _
theorem keyNextGeneration (h : Hdr) (p : Bytes) : Statement (.keyNextGeneration h p) := of_wf _
theorem keyRegenerate (h : Hdr) (p : Bytes) : Statement (.keyRegenerate h p) := of_wf _
theorem keyAttest (h : Hdr) (p : Bytes) : Statement (.keyAttest h p) := of_wf _
theorem keyStatementRead (h : Hdr) (p : Bytes) : Statement (.keyStatementRead h p) := of_wf _
theorem keyNodeCertificate (h : Hdr) (p : Bytes) : Statement (.keyNodeCertificate h p) := of_wf _
theorem keyTlsCertificateLoad (h : Hdr) (p : Bytes) : Statement (.keyTlsCertificateLoad h p) := of_wf _
theorem keyErase (h : Hdr) (p : Bytes) : Statement (.keyErase h p) := of_wf _
theorem keyPublicRead (h : Hdr) (p : Bytes) : Statement (.keyPublicRead h p) := of_wf _
theorem fwBegin (h : Hdr) (p : Bytes) : Statement (.fwBegin h p) := of_wf _
theorem fwData (h : Hdr) (p : Bytes) : Statement (.fwData h p) := of_wf _
theorem fwVerify (h : Hdr) (p : Bytes) : Statement (.fwVerify h p) := of_wf _
theorem fwHandover (h : Hdr) (p : Bytes) : Statement (.fwHandover h p) := of_wf _
theorem fwConfirm (h : Hdr) (p : Bytes) : Statement (.fwConfirm h p) := of_wf _
theorem fwStatus (h : Hdr) (p : Bytes) : Statement (.fwStatus h p) := of_wf _
theorem timeStatus (h : Hdr) (p : Bytes) : Statement (.timeStatus h p) := of_wf _
theorem timeAccept (h : Hdr) (p : Bytes) : Statement (.timeAccept h p) := of_wf _
theorem ttoSet (h : Hdr) (p : Bytes) : Statement (.ttoSet h p) := of_wf _
theorem tciSet (h : Hdr) (p : Bytes) : Statement (.tciSet h p) := of_wf _
theorem tciRead (h : Hdr) (p : Bytes) : Statement (.tciRead h p) := of_wf _
theorem balanceResults (h : Hdr) (p : Bytes) : Statement (.balanceResults h p) := of_wf _
theorem ringMap (h : Hdr) (p : Bytes) : Statement (.ringMap h p) := of_wf _
theorem displayPin (h : Hdr) (p : Bytes) : Statement (.displayPin h p) := of_wf _
theorem displayStatic (h : Hdr) (p : Bytes) : Statement (.displayStatic h p) := of_wf _
theorem displayWaveform (h : Hdr) (p : Bytes) : Statement (.displayWaveform h p) := of_wf _
theorem displayTemperature (h : Hdr) (p : Bytes) : Statement (.displayTemperature h p) := of_wf _
theorem displayUpdate (h : Hdr) (p : Bytes) : Statement (.displayUpdate h p) := of_wf _
theorem sarResults (h : Hdr) (p : Bytes) : Statement (.sarResults h p) := of_wf _
theorem sarTrigger (h : Hdr) (p : Bytes) : Statement (.sarTrigger h p) := of_wf _
theorem sarSelftest (h : Hdr) (p : Bytes) : Statement (.sarSelftest h p) := of_wf _
theorem testUnlock (h : Hdr) (p : Bytes) : Statement (.testUnlock h p) := of_wf _
theorem testRelock (h : Hdr) (p : Bytes) : Statement (.testRelock h p) := of_wf _
theorem requestPart (h : Hdr) (code : Nat) (p : Bytes) : Statement (.requestPart h code p) := of_wf _
theorem responsePartRead (h : Hdr) (code : Nat) (p : Bytes) : Statement (.responsePartRead h code p) := of_wf _
theorem mailboxRelease (m : Nat) (heth : Bool) : Statement (.mailboxRelease m heth) := of_wf _
theorem eventClear (hi : Bool) (v : BitVec 32) : Statement (.eventClear hi v) := of_wf _
theorem heartbeat (v : BitVec 32) : Statement (.heartbeat v) := of_wf _
theorem frameLoRead : Statement (.frameLoRead) := of_wf _
theorem streamPortRead (k : Nat) (bad : Bool) : Statement (.streamPortRead k bad) := of_wf _
theorem streamFlush (k : Nat) (v : BitVec 32) : Statement (.streamFlush k v) := of_wf _
theorem testClear (v : BitVec 32) : Statement (.testClear v) := of_wf _
theorem testStretchWrite (i : Nat) (v : BitVec 32) : Statement (.testStretchWrite i v) := of_wf _
theorem testFifoWrite (v : BitVec 32) : Statement (.testFifoWrite v) := of_wf _
theorem testRingWrite (v : BitVec 32) : Statement (.testRingWrite v) := of_wf _
theorem testZcWrite (v : BitVec 32) : Statement (.testZcWrite v) := of_wf _
theorem testSafetyWrite (v : BitVec 32) : Statement (.testSafetyWrite v) := of_wf _
theorem testPlcWrite (v : BitVec 32) : Statement (.testPlcWrite v) := of_wf _
theorem testMramWrite (v : BitVec 32) : Statement (.testMramWrite v) := of_wf _
theorem testWdWrite (v : BitVec 32) : Statement (.testWdWrite v) := of_wf _
theorem registerWrite (a : Nat) (v : BitVec 32) (heth : Bool) : Statement (.registerWrite a v heth) := of_wf _
theorem qspiTransactionError (short : Bool) : Statement (.qspiTransactionError short) := of_wf _
theorem hethDatagram (t : Nat) (g : Datagram) : Statement (.hethDatagram t g) := of_wf _
theorem replyCacheExpiry (t : Nat) : Statement (.replyCacheExpiry t) := of_wf _
theorem batchTimeout (t : Nat) : Statement (.batchTimeout t) := of_wf _
theorem hostWatchdogTimeout (t : Nat) : Statement (.hostWatchdogTimeout t) := of_wf _
theorem streamTailTimeout (t : Nat) (k : Nat) : Statement (.streamTailTimeout t k) := of_wf _
theorem recordStreamDequeue (t : Nat) : Statement (.recordStreamDequeue t) := of_wf _
theorem frameTick (t : Nat) (obs : FrameObs) : Statement (.frameTick t obs) := of_wf _
theorem fretCutoff (t : Nat) : Statement (.fretCutoff t) := of_wf _
theorem handoverBlockReady (t : Nat) : Statement (.handoverBlockReady t) := of_wf _
theorem frameAccumulate (t : Nat) : Statement (.frameAccumulate t) := of_wf _
theorem intervalBoundary (t : Nat) : Statement (.intervalBoundary t) := of_wf _
theorem recordSigned (t : Nat) : Statement (.recordSigned t) := of_wf _
theorem modeChangeoverComplete (t : Nat) : Statement (.modeChangeoverComplete t) := of_wf _
theorem autoGainSwitchUp (t : Nat) (c : Nat) : Statement (.autoGainSwitchUp t c) := of_wf _
theorem autoGainSwitchDown (t : Nat) (c : Nat) (bits : List Int) : Statement (.autoGainSwitchDown t c bits) := of_wf _
theorem modulatorRestart (t : Nat) (c : Nat) : Statement (.modulatorRestart t c) := of_wf _
theorem residualTrip (t : Nat) (c : Nat) (comp : Nat) (input : List Int) : Statement (.residualTrip t c comp input) := of_wf _
theorem residualSelfTestResult (t : Nat) (p : Nat) : Statement (.residualSelfTestResult t p) := of_wf _
theorem courseDiagnosisStart (t : Nat) : Statement (.courseDiagnosisStart t) := of_wf _
theorem courseVerdict (t : Nat) : Statement (.courseVerdict t) := of_wf _
theorem courseDiagRepeat (t : Nat) (j : Nat) : Statement (.courseDiagRepeat t j) := of_wf _
theorem courseAgreedRestored (t : Nat) (j : Nat) : Statement (.courseAgreedRestored t j) := of_wf _
theorem sensorFaultDeclared (t : Nat) (p : Nat) (src : Nat) (cause : Nat) : Statement (.sensorFaultDeclared t p src cause) := of_wf _
theorem sensorFaultCleared (t : Nat) (p : Nat) (src : Nat) (cause : Nat) : Statement (.sensorFaultCleared t p src cause) := of_wf _
theorem excitationCompliance (t : Nat) (p : Nat) (tripped : Bool) : Statement (.excitationCompliance t p tripped) := of_wf _
theorem pulseEdge (t : Nat) (p : Nat) (lineB : Bool) (rising : Bool) (both : Bool) (held : Nat) : Statement (.pulseEdge t p lineB rising both held) := of_wf _
theorem mpoPulseEdge (t : Nat) (p : Nat) : Statement (.mpoPulseEdge t p) := of_wf _
theorem zeroCrossing (t : Nat) (x : Nat) : Statement (.zeroCrossing t x) := of_wf _
theorem zcPredictionTimeout (t : Nat) : Statement (.zcPredictionTimeout t) := of_wf _
theorem ptpSyncReceived (t : Nat) (m : PtpMsg) : Statement (.ptpSyncReceived t m) := of_wf _
theorem ptpAnnounceReceived (t : Nat) (a : Announce) : Statement (.ptpAnnounceReceived t a) := of_wf _
theorem ptpDelayMessageReceived (t : Nat) (m : PtpMsg) : Statement (.ptpDelayMessageReceived t m) := of_wf _
theorem ptpManagementReceived (t : Nat) (m : PtpMsg) : Statement (.ptpManagementReceived t m) := of_wf _
theorem ptpAnnounceTimeout (t : Nat) : Statement (.ptpAnnounceTimeout t) := of_wf _
theorem ptpSyncTimeout (t : Nat) : Statement (.ptpSyncTimeout t) := of_wf _
theorem ptpRestart (t : Nat) : Statement (.ptpRestart t) := of_wf _
theorem frameCounterLoad (t : Nat) : Statement (.frameCounterLoad t) := of_wf _
theorem timeStepApply (t : Nat) : Statement (.timeStepApply t) := of_wf _
theorem beaconReceived (t : Nat) (b : Beacon) : Statement (.beaconReceived t b) := of_wf _
theorem beaconSlot (t : Nat) : Statement (.beaconSlot t) := of_wf _
theorem beaconPeriodStart (t : Nat) : Statement (.beaconPeriodStart t) := of_wf _
theorem beaconTimeout (t : Nat) (node : Nat) : Statement (.beaconTimeout t node) := of_wf _
theorem ttoEdge (t : Nat) (i : Nat) : Statement (.ttoEdge t i) := of_wf _
theorem tciEdge (t : Nat) (i : Nat) (rising : Bool) (clocks : Nat) : Statement (.tciEdge t i rising clocks) := of_wf _
theorem pilotPeriod (t : Nat) (p : Nat) : Statement (.pilotPeriod t p) := of_wf _
theorem sarTimerTick (t : Nat) (i : Nat) : Statement (.sarTimerTick t i) := of_wf _
theorem sarTriggerFire (t : Nat) (k : Nat) (i : Nat) : Statement (.sarTriggerFire t k i) := of_wf _
theorem sarConversionComplete (t : Nat) (k : Nat) (code : Nat) (sampled : Nat) : Statement (.sarConversionComplete t k code sampled) := of_wf _
theorem pilotCodeAccepted (t : Nat) (p : Nat) : Statement (.pilotCodeAccepted t p) := of_wf _
theorem proximityCodeAccepted (t : Nat) (p : Nat) : Statement (.proximityCodeAccepted t p) := of_wf _
theorem monitorScan (t : Nat) (m : MonObs) : Statement (.monitorScan t m) := of_wf _
theorem sarSelftestRun (t : Nat) (k : Nat) : Statement (.sarSelftestRun t k) := of_wf _
theorem sarSelftestComplete (t : Nat) (k : Nat) (sums : List Nat) : Statement (.sarSelftestComplete t k sums) := of_wf _
theorem v2gMessageReceived (t : Nat) (p : Nat) (m : V2gMsg) : Statement (.v2gMessageReceived t p m) := of_wf _
theorem cmSlacParmReq (t : Nat) (run : Nat) (heard : List Nat) : Statement (.cmSlacParmReq t run heard) := of_wf _
theorem slacRunJudged (t : Nat) (run : Nat) (atten : List (Nat × List Nat)) (mac : Bytes) : Statement (.slacRunJudged t run atten mac) := of_wf _
theorem plcLinkUp (t : Nat) (p : Nat) : Statement (.plcLinkUp t p) := of_wf _
theorem plcLinkTimeout (t : Nat) (p : Nat) : Statement (.plcLinkTimeout t p) := of_wf _
theorem plcLossTimeout (t : Nat) (p : Nat) : Statement (.plcLossTimeout t p) := of_wf _
theorem v2gSessionTimeout (t : Nat) (p : Nat) : Statement (.v2gSessionTimeout t p) := of_wf _
theorem dcStatusTimeout (t : Nat) (p : Nat) : Statement (.dcStatusTimeout t p) := of_wf _
theorem preambleDetected (t : Nat) (port : Nat) (gain : Nat) : Statement (.preambleDetected t port gain) := of_wf _
theorem plcTurn (t : Nat) (syms : List Sym) : Statement (.plcTurn t syms) := of_wf _
theorem weldedContactDeclared (t : Nat) (p : Nat) : Statement (.weldedContactDeclared t p) := of_wf _
theorem weldCleared (t : Nat) (p : Nat) : Statement (.weldCleared t p) := of_wf _
theorem authTimeout (t : Nat) (p : Nat) : Statement (.authTimeout t p) := of_wf _
theorem startTimeout (t : Nat) (p : Nat) : Statement (.startTimeout t p) := of_wf _
theorem stopGraceExpiry (t : Nat) (p : Nat) : Statement (.stopGraceExpiry t p) := of_wf _
theorem stopSettleExpiry (t : Nat) (p : Nat) : Statement (.stopSettleExpiry t p) := of_wf _
theorem siLevelChange (t : Nat) (k : Nat) (chanB : Bool) (level : Bool) (n : Nat) : Statement (.siLevelChange t k chanB level n) := of_wf _
theorem safetyDiscrepancyLatch (t : Nat) (k : Nat) : Statement (.safetyDiscrepancyLatch t k) := of_wf _
theorem safetyAutoRelease (t : Nat) (src : Nat) : Statement (.safetyAutoRelease t src) := of_wf _
theorem safetyMessageSend (t : Nat) (i : Nat) : Statement (.safetyMessageSend t i) := of_wf _
theorem safetyMessageReceived (t : Nat) (i : Nat) (msg : Bytes) : Statement (.safetyMessageReceived t i msg) := of_wf _
theorem safetyTimeExpectationExpiry (t : Nat) (i : Nat) : Statement (.safetyTimeExpectationExpiry t i) := of_wf _
theorem sealChange (t : Nat) (i : Nat) (closed : Bool) (since : Nat) : Statement (.sealChange t i closed since) := of_wf _
theorem overloadTimeout (t : Nat) (ch : Nat) : Statement (.overloadTimeout t ch) := of_wf _
theorem thermalLatch (t : Nat) (ch : Nat) (tj : Int) : Statement (.thermalLatch t ch tj) := of_wf _
theorem thermalRelease (t : Nat) (ch : Nat) (tj : Int) : Statement (.thermalRelease t ch tj) := of_wf _
theorem retryDelayExpiry (t : Nat) (ch : Nat) : Statement (.retryDelayExpiry t ch) := of_wf _
theorem retryCounterReload (t : Nat) (ch : Nat) : Statement (.retryCounterReload t ch) := of_wf _
theorem openLoadDeclared (t : Nat) (ch : Nat) (since : Nat) : Statement (.openLoadDeclared t ch since) := of_wf _
theorem openLoadCleared (t : Nat) (ch : Nat) (since : Nat) : Statement (.openLoadCleared t ch since) := of_wf _
theorem vswUndervoltage (t : Nat) (vsw : Nat) : Statement (.vswUndervoltage t vsw) := of_wf _
theorem vswRestore (t : Nat) (vsw : Nat) : Statement (.vswRestore t vsw) := of_wf _
theorem vswBelowRide (t : Nat) (vsw : Nat) : Statement (.vswBelowRide t vsw) := of_wf _
theorem switchDieReset (t : Nat) (vsw : Nat) : Statement (.switchDieReset t vsw) := of_wf _
theorem switchDiePowerUp (t : Nat) (vsw : Nat) : Statement (.switchDiePowerUp t vsw) := of_wf _
theorem supplyPhaseTimeout (t : Nat) : Statement (.supplyPhaseTimeout t) := of_wf _
theorem watchdogArm (t : Nat) (key : BitVec 32) (seed : BitVec 32) : Statement (.watchdogArm t key seed) := of_wf _
theorem watchdogFeed (t : Nat) : Statement (.watchdogFeed t) := of_wf _
theorem watchdogWindowExpiry (t : Nat) : Statement (.watchdogWindowExpiry t) := of_wf _
theorem dieLinkLost (t : Nat) : Statement (.dieLinkLost t) := of_wf _
theorem yudaixFrameReceived (t : Nat) (f : YuFrame) : Statement (.yudaixFrameReceived t f) := of_wf _
theorem mainsFrameTimeout (t : Nat) : Statement (.mainsFrameTimeout t) := of_wf _
theorem lineLinkDown (t : Nat) (port : Nat) : Statement (.lineLinkDown t port) := of_wf _
theorem lineLinkUp (t : Nat) (port : Nat) : Statement (.lineLinkUp t port) := of_wf _
theorem ringTestSend (t : Nat) : Statement (.ringTestSend t) := of_wf _
theorem ringTestMissing (t : Nat) : Statement (.ringTestMissing t) := of_wf _
theorem linkDownNotice (t : Nat) (port : Nat) : Statement (.linkDownNotice t port) := of_wf _
theorem ringFlush (t : Nat) (port : Nat) : Statement (.ringFlush t port) := of_wf _
theorem discoveryStart (t : Nat) : Statement (.discoveryStart t) := of_wf _
theorem discoveryTokenReceived (t : Nat) (k : Token) : Statement (.discoveryTokenReceived t k) := of_wf _
theorem discoveryComplete (t : Nat) (root : Nat) (m : List MapEntry) : Statement (.discoveryComplete t root m) := of_wf _
theorem balanceFrameLaunch (t : Nat) : Statement (.balanceFrameLaunch t) := of_wf _
theorem balanceRetry (t : Nat) : Statement (.balanceRetry t) := of_wf _
theorem balanceFramePass (t : Nat) (frame : Bytes) : Statement (.balanceFramePass t frame) := of_wf _
theorem balanceFrameReturn (t : Nat) (frame : Bytes) : Statement (.balanceFrameReturn t frame) := of_wf _
theorem balanceReturnLate (t : Nat) : Statement (.balanceReturnLate t) := of_wf _
theorem rootLost (t : Nat) : Statement (.rootLost t) := of_wf _
theorem powerGood (t : Nat) (vcore : Nat) (vio : Nat) (vana : Nat) (refclk : Bool) : Statement (.powerGood t vcore vio vana refclk) := of_wf _
theorem capoBootVerified (t : Nat) (ok0 : Bool) (ok1 : Bool) : Statement (.capoBootVerified t ok0 ok1) := of_wf _
theorem parameterStoreLoaded (t : Nat) (badNew : Option Nat) (badOld : Option Nat) (key : BitVec 32) (seed : BitVec 32) : Statement (.parameterStoreLoaded t badNew badOld key seed) := of_wf _
theorem rootRegenerated (t : Nat) (copy0 : List Nat) (copy1 : List Nat) (words : Nat) (errors : Nat) (ms : Nat) : Statement (.rootRegenerated t copy0 copy1 words errors ms) := of_wf _
theorem holdupMerge (t : Nat) (badE : List Nat) (badB : List Nat) (badL : List Nat) (words : List Nat) : Statement (.holdupMerge t badE badB badL words) := of_wf _
theorem serviceImageBooted (t : Nat) (okA : Bool) (okB : Bool) : Statement (.serviceImageBooted t okA okB) := of_wf _
theorem pfwWarning (t : Nat) (since : Nat) : Statement (.pfwWarning t since) := of_wf _
theorem vswMonitorTrip (t : Nat) (vsw : Nat) : Statement (.vswMonitorTrip t vsw) := of_wf _
theorem warningEnd (t : Nat) (since : Nat) (vsw : Nat) : Statement (.warningEnd t since vsw) := of_wf _
theorem brownOut (t : Nat) (vcore : Nat) (vio : Nat) : Statement (.brownOut t vcore vio) := of_wf _
theorem brownOutReset (t : Nat) : Statement (.brownOutReset t) := of_wf _
theorem railRestartTrip (t : Nat) (rail : Nat) (mV : Nat) : Statement (.railRestartTrip t rail mV) := of_wf _
theorem refclkLoss (t : Nat) : Statement (.refclkLoss t) := of_wf _
theorem thermalShutdown (t : Nat) (temp : Int) : Statement (.thermalShutdown t temp) := of_wf _
theorem resetnAssert (t : Nat) (width : Nat) (fsrst : Bool) : Statement (.resetnAssert t width fsrst) := of_wf _
theorem resetnRelease (t : Nat) : Statement (.resetnRelease t) := of_wf _
theorem capoDivergence (t : Nat) (code : Nat) : Statement (.capoDivergence t code) := of_wf _
theorem capoException (t : Nat) (code : Nat) : Statement (.capoException t code) := of_wf _
theorem capoRestart (t : Nat) (badE : List Nat) (badB : List Nat) (badL : List Nat) (words : List Nat) (key : BitVec 32) (seed : BitVec 32) : Statement (.capoRestart t badE badB badL words key seed) := of_wf _
theorem displayStart (t : Nat) (vep : Nat) (ven : Nat) (ladder : Nat) : Statement (.displayStart t vep ven ladder) := of_wf _
theorem displayRailTimeout (t : Nat) : Statement (.displayRailTimeout t) := of_wf _
theorem displayPageChange (t : Nat) : Statement (.displayPageChange t) := of_wf _
theorem displayRefresh (t : Nat) : Statement (.displayRefresh t) := of_wf _
theorem displayPhaseEnd (t : Nat) : Statement (.displayPhaseEnd t) := of_wf _
theorem displayBookMark (t : Nat) : Statement (.displayBookMark t) := of_wf _
theorem displayPinExpiry (t : Nat) : Statement (.displayPinExpiry t) := of_wf _
theorem displayTempExpiry (t : Nat) : Statement (.displayTempExpiry t) := of_wf _
theorem displayOvercurrent (t : Nat) (seg : Nat) : Statement (.displayOvercurrent t seg) := of_wf _
theorem attestationComplete (t : Nat) : Statement (.attestationComplete t) := of_wf _
theorem fwStageVerified (t : Nat) : Statement (.fwStageVerified t) := of_wf _
theorem standbyReady (t : Nat) : Statement (.standbyReady t) := of_wf _
theorem handoverBootTimeout (t : Nat) : Statement (.handoverBootTimeout t) := of_wf _
theorem fwConfirmTimeout (t : Nat) : Statement (.fwConfirmTimeout t) := of_wf _
theorem serviceLivenessFail (t : Nat) (exc : Option Nat) : Statement (.serviceLivenessFail t exc) := of_wf _
theorem testTimeout (t : Nat) : Statement (.testTimeout t) := of_wf _
theorem testSafetyDelayRelease (t : Nat) : Statement (.testSafetyDelayRelease t) := of_wf _
theorem ptpMessageTransmit (t : Nat) (port : Nat) (kind : Nat) : Statement (.ptpMessageTransmit t port kind) := of_wf _
theorem displayStartRetry (t : Nat) (vep : Nat) (ven : Nat) (ladder : Nat) : Statement (.displayStartRetry t vep ven ladder) := of_wf _
theorem thermalShutdownEnd (t : Nat) (temp : Int) : Statement (.thermalShutdownEnd t temp) := of_wf _
theorem switchCurrentLimit (t : Nat) (ch : Nat) (reached : Bool) (mA : Nat) : Statement (.switchCurrentLimit t ch reached mA) := of_wf _

end Sys2Proof.Laws.Wf
end

