-- ==== Sys2Proof/Laws/SoundEnergy.lean ====
section
/-!
SUPPORT. Each operation of Machine/Energy.lean keeps the invariant `Sound`.
-/

namespace Sys2Proof.Machine

theorem State.driveMpo_sound {s x1 x2} (h : Sound s) : Sound (State.driveMpo s x1 x2) := by
  unfold State.driveMpo
  repeat' (first | with_reducible assumption | with_reducible (first | apply State.modPt_sound | apply Sound.ite | apply Sound.foldl | apply Sound.forAll | apply Sound.foldlPair | intro _ _ _) | split | dsimp only [refuse, okS, okB, okParts])

theorem State.mpoIdle_sound {s x1} (h : Sound s) : Sound (State.mpoIdle s x1) := by
  unfold State.mpoIdle
  repeat' (first | with_reducible assumption | with_reducible (first | apply State.driveMpo_sound | apply Sound.ite | apply Sound.foldl | apply Sound.forAll | apply Sound.foldlPair | intro _ _ _) | split | dsimp only [refuse, okS, okB, okParts])

theorem State.addReading_sound {s x1 x2 x3} (h : Sound s) : Sound (State.addReading s x1 x2 x3) := by
  unfold State.addReading
  repeat' (first | with_reducible assumption | with_reducible (first | apply State.modPt_sound | apply State.raiseRaw_sound | apply Sound.ite | apply Sound.foldl | apply Sound.forAll | apply Sound.foldlPair | intro _ _ _) | split | dsimp only [refuse, okS, okB, okParts])

theorem State.reactiveFrame_sound {s x1 x2 x3 x4} (h : Sound s) : Sound (State.reactiveFrame s x1 x2 x3 x4).1 := by
  unfold State.reactiveFrame
  repeat' (first | with_reducible assumption | with_reducible (first | apply State.modPt_sound | apply Sound.ite | apply Sound.foldl | apply Sound.forAll | apply Sound.foldlPair | intro _ _ _) | split | dsimp only [refuse, okS, okB, okParts])

theorem State.rmsFrame_sound {s x1 x2 x3} (h : Sound s) : Sound (State.rmsFrame s x1 x2 x3) := by
  unfold State.rmsFrame
  repeat' (first | with_reducible assumption | with_reducible (first | apply State.modPt_sound | apply Sound.ite | apply Sound.foldl | apply Sound.forAll | apply Sound.foldlPair | intro _ _ _) | split | dsimp only [refuse, okS, okB, okParts])

theorem State.settlePeriod_sound {s x1 x2} (h : Sound s) : Sound (State.settlePeriod s x1 x2) := by
  unfold State.settlePeriod
  repeat' (first | with_reducible assumption | with_reducible (first | apply State.modPt_sound | apply Sound.ite | apply Sound.foldl | apply Sound.forAll | apply Sound.foldlPair | intro _ _ _) | split | dsimp only [refuse, okS, okB, okParts])

theorem State.elecFrame_sound {s x1 x2 x3 x4} (h : Sound s) : Sound (State.elecFrame s x1 x2 x3 x4).1 := by
  unfold State.elecFrame
  repeat' (first | with_reducible assumption | with_reducible (first | apply State.addReading_sound | apply State.modPt_sound | apply State.reactiveFrame_sound | apply State.rmsFrame_sound | apply State.settlePeriod_sound | apply Sound.ite | apply Sound.foldl | apply Sound.forAll | apply Sound.foldlPair | intro _ _ _) | split | dsimp only [refuse, okS, okB, okParts])

theorem State.closeElectrical_sound {s x1 x2} (h : Sound s) : Sound (State.closeElectrical s x1 x2) := by
  unfold State.closeElectrical
  repeat' (first | with_reducible assumption | with_reducible (first | apply State.modPt_sound | apply Sound.ite | apply Sound.foldl | apply Sound.forAll | apply Sound.foldlPair | intro _ _ _) | split | dsimp only [refuse, okS, okB, okParts])

theorem State.mpoFrame_sound {s x1 x2 x3 x4} (h : Sound s) : Sound (State.mpoFrame s x1 x2 x3 x4) := by
  unfold State.mpoFrame
  repeat' (first | with_reducible assumption | with_reducible (first | apply State.modPt_sound | apply Sound.ite | apply Sound.foldl | apply Sound.forAll | apply Sound.foldlPair | intro _ _ _) | split | dsimp only [refuse, okS, okB, okParts])

theorem execMpoPulseEdge_sound {x0 x1 s} (h : Sound s) : SoundO (execMpoPulseEdge x0 x1 s) := by
  unfold execMpoPulseEdge
  repeat' (first | with_reducible assumption | with_reducible (first | apply State.at_sound | apply State.driveMpo_sound | apply State.modPt_sound | apply SoundO.next | exact SoundO.fault | apply SoundO.ite | apply Sound.ite | apply Sound.foldl | apply Sound.forAll | apply Sound.foldlPair | intro _ _ _) | split | dsimp only [refuse, okS, okB, okParts])

end Sys2Proof.Machine
end

