-- ==== Sys2Proof/Laws/SoundHolds.lean ====
section
/-!
SUPPORT. Each operation of Machine/Holds.lean keeps the invariant `Sound`.
-/

namespace Sys2Proof.Machine

theorem State.setTest_test {s : State} {r : TestRegs} {c : Nat} :
    (s.setTest r c).test = { s.test with regs := r, eff := cutEffect r s.test.eff } := by
  have e : ∀ (x : State) a b c d, (x.testEvent a b c d).test = x.test := fun x a b c d =>
    (State.testEvent_keeps (T := [.host]) rfl Keeps.refl).test rfl
  have p : ∀ (x : State) n, (x.enterPhase n).test = x.test := fun x n =>
    (State.enterPhase_keeps (T := [.host, .sw]) rfl Keeps.refl).test rfl
  unfold State.setTest
  dsimp only
  repeat' split
  all_goals simp [e, p, State.modTest, State.modEng]

theorem State.forceSafe_sound {s x1} (h : Sound s) : Sound (State.forceSafe s x1) := by
  unfold State.forceSafe
  repeat' (first | with_reducible assumption | with_reducible (first | apply State.modSwch_sound | apply Sound.ite | apply Sound.foldl | apply Sound.forAll | apply Sound.foldlPair | intro _ _ _) | split | dsimp only [refuse, okS, okB, okParts])

theorem State.dieOp_sound {s x1} (h : Sound s) : Sound (State.dieOp s x1) := by
  unfold State.dieOp
  repeat' (first | with_reducible assumption | with_reducible (first | apply State.forceSafe_sound | refine State.modSw_sound ?_ (by (first | exact fun a => a | exact fun a => by simpa [upd] using a | (intro a; (try dsimp only); repeat' split) <;> first | exact a | simpa [upd] using a | simp_all)) | apply State.modSwch_sound | apply Sound.ite | apply Sound.foldl | apply Sound.forAll | apply Sound.foldlPair | intro _ _ _) | split | dsimp only [refuse, okS, okB, okParts])

theorem State.orderDie_sound {s x1} (h : Sound s) : Sound (State.orderDie s x1) := by
  unfold State.orderDie
  repeat' (first | with_reducible assumption | with_reducible (first | apply State.dieOp_sound | refine State.modSw_sound ?_ (by (first | exact fun a => a | exact fun a => by simpa [upd] using a | (intro a; (try dsimp only); repeat' split) <;> first | exact a | simpa [upd] using a | simp_all)) | apply Sound.ite | apply Sound.foldl | apply Sound.forAll | apply Sound.foldlPair | intro _ _ _) | split | dsimp only [refuse, okS, okB, okParts])

theorem State.release4_sound {s x1} (h : Sound s) : Sound (State.release4 s x1) := by
  unfold State.release4
  repeat' (first | with_reducible assumption | with_reducible (first | apply State.orderDie_sound | apply Sound.ite | apply Sound.foldl | apply Sound.forAll | apply Sound.foldlPair | intro _ _ _) | split | dsimp only [refuse, okS, okB, okParts])

theorem State.addCause_sound {s x1 x2} (h : Sound s) : Sound (State.addCause s x1 x2) := by
  unfold State.addCause
  repeat' (first | with_reducible assumption | with_reducible (first | apply State.modSes_sound | apply Sound.ite | apply Sound.foldl | apply Sound.forAll | apply Sound.foldlPair | intro _ _ _) | split | dsimp only [refuse, okS, okB, okParts])

theorem State.releaseSi_sound {s x1} (h : Sound s) : Sound (State.releaseSi s x1) := by
  unfold State.releaseSi
  repeat' (first | with_reducible assumption | with_reducible (first | refine State.modSw_sound ?_ (by (first | exact fun a => a | exact fun a => by simpa [upd] using a | (intro a; (try dsimp only); repeat' split) <;> first | exact a | simpa [upd] using a | simp_all)) | apply Sound.ite | apply Sound.foldl | apply Sound.forAll | apply Sound.foldlPair | intro _ _ _) | split | dsimp only [refuse, okS, okB, okParts])

theorem State.holdSi_sound {s x1 x2} (h : Sound s) : Sound (State.holdSi s x1 x2) := by
  unfold State.holdSi
  repeat' (first | with_reducible assumption | with_reducible (first | apply State.forceSafe_sound | apply State.modSwch_sound | apply Sound.ite | apply Sound.foldl | apply Sound.forAll | apply Sound.foldlPair | intro _ _ _) | split | dsimp only [refuse, okS, okB, okParts])

theorem State.hold4_sound {s x1 x2} (h : Sound s) : Sound (State.hold4 s x1 x2) := by
  unfold State.hold4
  repeat' (first | with_reducible assumption | with_reducible (first | apply State.orderDie_sound | apply Sound.ite | apply Sound.foldl | apply Sound.forAll | apply Sound.foldlPair | intro _ _ _) | split | dsimp only [refuse, okS, okB, okParts])

theorem State.command_sound {s x1 x2} (h : Sound s) : Sound (State.command s x1 x2) := by
  unfold State.command
  repeat' (first | with_reducible assumption | with_reducible (first | apply State.modOut_sound | refine State.modSw_sound ?_ (by (first | exact fun a => a | exact fun a => by simpa [upd] using a | (intro a; (try dsimp only); repeat' split) <;> first | exact a | simpa [upd] using a | simp_all)) | apply State.modSwch_sound | apply Sound.ite | apply Sound.foldl | apply Sound.forAll | apply Sound.foldlPair | intro _ _ _) | split | dsimp only [refuse, okS, okB, okParts])

theorem State.reapplyAll_sound {s} (h : Sound s) : Sound (State.reapplyAll s) := by
  unfold State.reapplyAll
  repeat' (first | with_reducible assumption | with_reducible (first | refine State.modSw_sound ?_ (by (first | exact fun a => a | exact fun a => by simpa [upd] using a | (intro a; (try dsimp only); repeat' split) <;> first | exact a | simpa [upd] using a | simp_all)) | apply Sound.ite | apply Sound.foldl | apply Sound.forAll | apply Sound.foldlPair | intro _ _ _) | split | dsimp only [refuse, okS, okB, okParts])

theorem State.swEvent_sound {s x1 x2 x3} (h : Sound s) : Sound (State.swEvent s x1 x2 x3) := by
  unfold State.swEvent
  repeat' (first | with_reducible assumption | with_reducible (first | apply State.raise_sound | apply Sound.ite | apply Sound.foldl | apply Sound.forAll | apply Sound.foldlPair | intro _ _ _) | split | dsimp only [refuse, okS, okB, okParts])

theorem State.supplyEvent_sound {s x1} (h : Sound s) : Sound (State.supplyEvent s x1) := by
  unfold State.supplyEvent
  repeat' (first | with_reducible assumption | with_reducible (first | apply State.raise_sound | apply Sound.ite | apply Sound.foldl | apply Sound.forAll | apply Sound.foldlPair | intro _ _ _) | split | dsimp only [refuse, okS, okB, okParts])

theorem State.enterPhase_sound {s x1} (h : Sound s) : Sound (State.enterPhase s x1) := by
  unfold State.enterPhase
  repeat' (first | with_reducible assumption | with_reducible (first | refine State.modSw_sound ?_ (by (first | exact fun a => a | exact fun a => by simpa [upd] using a | (intro a; (try dsimp only); repeat' split) <;> first | exact a | simpa [upd] using a | simp_all)) | apply State.supplyEvent_sound | apply Sound.ite | apply Sound.foldl | apply Sound.forAll | apply Sound.foldlPair | intro _ _ _) | split | dsimp only [refuse, okS, okB, okParts])

theorem State.testEvent_sound {s x1 x2 x3 x4} (h : Sound s) : Sound (State.testEvent s x1 x2 x3 x4) := by
  unfold State.testEvent
  repeat' (first | with_reducible assumption | with_reducible (first | apply State.raise_sound | apply Sound.ite | apply Sound.foldl | apply Sound.forAll | apply Sound.foldlPair | intro _ _ _) | split | dsimp only [refuse, okS, okB, okParts])

theorem State.setTest_sound {s x1 x2} (h : Sound s) (g : s.test.unlocked = false → x1 = TestRegs.reset) : Sound (State.setTest s x1 x2) := by
  have w : Sound (s.modTest (fun x => { x with regs := x1, eff := cutEffect x1 x.eff })) :=
    State.modTest_sound h (fun _ u => by
      cases g u
      exact ⟨rfl, rfl⟩)
  unfold State.setTest
  repeat' (first | with_reducible assumption | with_reducible (first | apply State.enterPhase_sound | apply State.modEng_sound | apply State.testEvent_sound | apply Sound.ite) | split | dsimp only)

theorem State.loadTable_sound {s} (h : Sound s) : Sound (State.loadTable s) := by
  unfold State.loadTable
  repeat' (first | with_reducible assumption | with_reducible (first | apply State.forceSafe_sound | refine State.modSw_sound ?_ (by (first | exact fun a => a | exact fun a => by simpa [upd] using a | (intro a; (try dsimp only); repeat' split) <;> first | exact a | simpa [upd] using a | simp_all)) | apply Sound.ite | apply Sound.foldl | apply Sound.forAll | apply Sound.foldlPair | intro _ _ _) | split | dsimp only [refuse, okS, okB, okParts])

theorem State.refreshSw_sound {s} (h : Sound s) : Sound (State.refreshSw s) := by
  unfold State.refreshSw
  repeat' (first | with_reducible assumption | with_reducible (first | refine State.modSw_sound ?_ (by (first | exact fun a => a | exact fun a => by simpa [upd] using a | (intro a; (try dsimp only); repeat' split) <;> first | exact a | simpa [upd] using a | simp_all)) | apply Sound.ite | apply Sound.foldl | apply Sound.forAll | apply Sound.foldlPair | intro _ _ _) | split | dsimp only [refuse, okS, okB, okParts])

theorem State.replayCommands_sound {s} (h : Sound s) : Sound (State.replayCommands s) := by
  unfold State.replayCommands
  repeat' (first | with_reducible assumption | with_reducible (first | apply State.command_sound | apply State.dieOp_sound | refine State.modSw_sound ?_ (by (first | exact fun a => a | exact fun a => by simpa [upd] using a | (intro a; (try dsimp only); repeat' split) <;> first | exact a | simpa [upd] using a | simp_all)) | apply State.refreshSw_sound | apply Sound.ite | apply Sound.foldl | apply Sound.forAll | apply Sound.foldlPair | intro _ _ _) | split | dsimp only [refuse, okS, okB, okParts])

theorem State.armWatchdog_sound {s x1 x2} (h : Sound s) : Sound (State.armWatchdog s x1 x2) := by
  unfold State.armWatchdog
  repeat' (first | with_reducible assumption | with_reducible (first | apply State.loadTable_sound | refine State.modSw_sound ?_ (by (first | exact fun a => a | exact fun a => by simpa [upd] using a | (intro a; (try dsimp only); repeat' split) <;> first | exact a | simpa [upd] using a | simp_all)) | apply State.replayCommands_sound | apply Sound.ite | apply Sound.foldl | apply Sound.forAll | apply Sound.foldlPair | intro _ _ _) | split | dsimp only [refuse, okS, okB, okParts])

theorem State.idleSwitches_sound {s} (h : Sound s) : Sound (State.idleSwitches s) := by
  unfold State.idleSwitches
  repeat' (first | with_reducible assumption | with_reducible (first | apply State.command_sound | apply Sound.ite | apply Sound.foldl | apply Sound.forAll | apply Sound.foldlPair | intro _ _ _) | split | dsimp only [refuse, okS, okB, okParts])

theorem State.reportFailsafe_sound {s} (h : Sound s) : Sound (State.reportFailsafe s) := by
  unfold State.reportFailsafe
  repeat' (first | with_reducible assumption | with_reducible (first | refine State.modSw_sound ?_ (by (first | exact fun a => a | exact fun a => by simpa [upd] using a | (intro a; (try dsimp only); repeat' split) <;> first | exact a | simpa [upd] using a | simp_all)) | apply State.queueFault_sound | apply State.raise_sound | apply Sound.ite | apply Sound.foldl | apply Sound.forAll | apply Sound.foldlPair | intro _ _ _) | split | dsimp only [refuse, okS, okB, okParts])

theorem State.sightFailsafe_sound {s} (h : Sound s) : Sound (State.sightFailsafe s) := by
  unfold State.sightFailsafe
  repeat' (first | with_reducible assumption | with_reducible (first | apply State.addCause_sound | refine State.modSw_sound ?_ (by (first | exact fun a => a | exact fun a => by simpa [upd] using a | (intro a; (try dsimp only); repeat' split) <;> first | exact a | simpa [upd] using a | simp_all)) | apply Sound.ite | apply Sound.foldl | apply Sound.forAll | apply Sound.foldlPair | intro _ _ _) | split | dsimp only [refuse, okS, okB, okParts])

theorem State.seeFailsafe_sound {s} (h : Sound s) : Sound (State.seeFailsafe s) := by
  unfold State.seeFailsafe
  repeat' (first | with_reducible assumption | with_reducible (first | apply State.reportFailsafe_sound | apply State.sightFailsafe_sound | apply Sound.ite | apply Sound.foldl | apply Sound.forAll | apply Sound.foldlPair | intro _ _ _) | split | dsimp only [refuse, okS, okB, okParts])

theorem State.applyFailsafe_sound {s x1} (h : Sound s) : Sound (State.applyFailsafe s x1) := by
  unfold State.applyFailsafe
  repeat' (first | with_reducible assumption | with_reducible (first | apply State.forceSafe_sound | refine State.modSw_sound ?_ (by (first | exact fun a => a | exact fun a => by simpa [upd] using a | (intro a; (try dsimp only); repeat' split) <;> first | exact a | simpa [upd] using a | simp_all)) | apply Sound.ite | apply Sound.foldl | apply Sound.forAll | apply Sound.foldlPair | intro _ _ _) | split | dsimp only [refuse, okS, okB, okParts])

theorem State.releaseFailsafe_sound {s} (h : Sound s) : Sound (State.releaseFailsafe s) := by
  unfold State.releaseFailsafe
  repeat' (first | with_reducible assumption | with_reducible (first | refine State.modSw_sound ?_ (by (first | exact fun a => a | exact fun a => by simpa [upd] using a | (intro a; (try dsimp only); repeat' split) <;> first | exact a | simpa [upd] using a | simp_all)) | apply State.raise_sound | apply Sound.ite | apply Sound.foldl | apply Sound.forAll | apply Sound.foldlPair | intro _ _ _) | split | dsimp only [refuse, okS, okB, okParts])

end Sys2Proof.Machine
end

