-- ==== Sys2Proof/Laws/SoundRecords.lean ====
section
/-!
SUPPORT. Each operation of Machine/Records.lean keeps the invariant `Sound`.
-/

namespace Sys2Proof.Machine

theorem State.askKey_sound {s x1 x2 x3 x4} (h : Sound s) : Sound (State.askKey s x1 x2 x3 x4) := by
  unfold State.askKey
  repeat' (first | with_reducible assumption | with_reducible (first | refine State.modKeys_sound ?_ (by (first | exact fun a => a | exact fun a => by simpa [upd] using a | (intro a; (try dsimp only); repeat' split) <;> first | exact a | simpa [upd] using a | simp_all)) (by (first | exact fun a => a | exact fun a => by simpa [upd] using a | (intro a; (try dsimp only); repeat' split) <;> first | exact a | simpa [upd] using a | simp_all)) | apply Sound.ite | apply Sound.foldl | apply Sound.forAll | apply Sound.foldlPair | intro _ _ _) | split | dsimp only [refuse, okS, okB, okParts])

theorem State.nearFull_sound {s x1 x2 x3 x4} (h : Sound s) : Sound (State.nearFull s x1 x2 x3 x4) := by
  unfold State.nearFull
  repeat' (first | with_reducible assumption | with_reducible (first | apply State.raise_sound | apply Sound.ite | apply Sound.foldl | apply Sound.forAll | apply Sound.foldlPair | intro _ _ _) | split | dsimp only [refuse, okS, okB, okParts])

theorem State.journalNear_sound {s x1} (h : Sound s) : Sound (State.journalNear s x1) := by
  unfold State.journalNear
  repeat' (first | with_reducible assumption | with_reducible (first | apply State.modRecs_sound | apply State.nearFull_sound | apply Sound.ite | apply Sound.foldl | apply Sound.forAll | apply Sound.foldlPair | intro _ _ _) | split | dsimp only [refuse, okS, okB, okParts])

theorem State.journalRec_sound {s x1 x2} (h : Sound s) : Sound (State.journalRec s x1 x2) := by
  unfold State.journalRec
  repeat' (first | with_reducible assumption | with_reducible (first | apply State.modRecs_sound | apply Sound.ite | apply Sound.foldl | apply Sound.forAll | apply Sound.foldlPair | intro _ _ _) | split | dsimp only [refuse, okS, okB, okParts])

theorem State.streamRec_sound {s x1 x2} (h : Sound s) : Sound (State.streamRec s x1 x2) := by
  unfold State.streamRec
  repeat' (first | with_reducible assumption | with_reducible (first | apply State.modRecs_sound | apply State.unitLost_sound | apply State.writeUnit_sound | apply Sound.ite | apply Sound.foldl | apply Sound.forAll | apply Sound.foldlPair | intro _ _ _) | split | dsimp only [refuse, okS, okB, okParts])

theorem State.logNear_sound {s} (h : Sound s) : Sound (State.logNear s) := by
  unfold State.logNear
  repeat' (first | with_reducible assumption | with_reducible (first | apply State.modLog_sound | apply State.nearFull_sound | apply Sound.ite | apply Sound.foldl | apply Sound.forAll | apply Sound.foldlPair | intro _ _ _) | split | dsimp only [refuse, okS, okB, okParts])

theorem State.enter_sound {s x1 x2 x3 x4 x5 x6 x7 x8 x9} (h : Sound s) : Sound (State.enter s x1 x2 x3 x4 x5 x6 x7 x8 x9) := by
  unfold State.enter
  repeat' (first | with_reducible assumption | with_reducible (first | apply State.logNear_sound | apply State.modLog_sound | apply State.unitLost_sound | apply State.writeUnit_sound | apply Sound.ite | apply Sound.foldl | apply Sound.forAll | apply Sound.foldlPair | intro _ _ _) | split | dsimp only [refuse, okS, okB, okParts])

theorem State.enterHost_sound {s x1 x2 x3 x4 x5 x6 x7} (h : Sound s) : Sound (State.enterHost s x1 x2 x3 x4 x5 x6 x7) := by
  unfold State.enterHost
  repeat' (first | with_reducible assumption | with_reducible (first | apply State.enter_sound | apply Sound.ite | apply Sound.foldl | apply Sound.forAll | apply Sound.foldlPair | intro _ _ _) | split | dsimp only [refuse, okS, okB, okParts])

theorem State.logRefused_sound {s} (h : Sound s) : Sound (State.logRefused s) := by
  unfold State.logRefused
  repeat' (first | with_reducible assumption | with_reducible (first | apply State.modLog_sound | apply State.nearFull_sound | apply Sound.ite | apply Sound.foldl | apply Sound.forAll | apply Sound.foldlPair | intro _ _ _) | split | dsimp only [refuse, okS, okB, okParts])

theorem State.modKey_sound {s x1 x2 x3} (h : Sound s) : Sound (State.modKey s x1 x2 x3) := by
  unfold State.modKey
  repeat' (first | with_reducible assumption | with_reducible (first | refine State.modKeys_sound ?_ (by (first | exact fun a => a | exact fun a => by simpa [upd] using a | (intro a; (try dsimp only); repeat' split) <;> first | exact a | simpa [upd] using a | simp_all)) (by (first | exact fun a => a | exact fun a => by simpa [upd] using a | (intro a; (try dsimp only); repeat' split) <;> first | exact a | simpa [upd] using a | simp_all)) | apply Sound.ite | apply Sound.foldl | apply Sound.forAll | apply Sound.foldlPair | intro _ _ _) | split | dsimp only [refuse, okS, okB, okParts])

theorem State.later_sound {s x1 x2 x3 x4 x5} (h : Sound s) : Sound (State.later s x1 x2 x3 x4 x5) := by
  unfold State.later
  repeat' (first | with_reducible assumption | with_reducible (first | apply State.modPt_sound | apply Sound.ite | apply Sound.foldl | apply Sound.forAll | apply Sound.foldlPair | intro _ _ _) | split | dsimp only [refuse, okS, okB, okParts])

theorem State.buildEvent_sound {s x1 x2 x3 x4 x5} (h : Sound s) : Sound (State.buildEvent s x1 x2 x3 x4 x5) := by
  unfold State.buildEvent
  repeat' (first | with_reducible assumption | with_reducible (first | apply State.later_sound | apply Sound.ite | apply Sound.foldl | apply Sound.forAll | apply Sound.foldlPair | intro _ _ _) | split | dsimp only [refuse, okS, okB, okParts])

theorem State.bumpSeq_sound {s x1} (h : Sound s) : Sound (State.bumpSeq s x1) := by
  unfold State.bumpSeq
  repeat' (first | with_reducible assumption | with_reducible (first | apply State.modPt_sound | apply State.modRecs_sound | apply Sound.ite | apply Sound.foldl | apply Sound.forAll | apply Sound.foldlPair | intro _ _ _) | split | dsimp only [refuse, okS, okB, okParts])

theorem State.writeLine_sound {s} (h : Sound s) : Sound (State.writeLine s) := by
  unfold State.writeLine
  repeat' (first | with_reducible assumption | with_reducible (first | apply State.modLed_sound | apply Sound.ite | apply Sound.foldl | apply Sound.forAll | apply Sound.foldlPair | intro _ _ _) | split | dsimp only [refuse, okS, okB, okParts])

theorem State.build_sound {s x1 x2 x3 x4 x5 x6 x7 x8 x9} (h : Sound s) : Sound (State.build s x1 x2 x3 x4 x5 x6 x7 x8 x9) := by
  unfold State.build
  repeat' (first | with_reducible assumption | with_reducible (first | apply State.bumpSeq_sound | apply State.modRecs_sound | apply State.raiseRaw_sound | apply State.writeLine_sound | apply Sound.ite | apply Sound.foldl | apply Sound.forAll | apply Sound.foldlPair | intro _ _ _) | split | dsimp only [refuse, okS, okB, okParts])

theorem State.buildLate_sound {s x1 x2} (h : Sound s) : Sound (State.buildLate s x1 x2) := by
  unfold State.buildLate
  repeat' (first | with_reducible assumption | with_reducible (first | apply State.build_sound | apply State.modPt_sound | apply Sound.ite | apply Sound.foldl | apply Sound.forAll | apply Sound.foldlPair | intro _ _ _) | split | dsimp only [refuse, okS, okB, okParts])

theorem State.mramError_sound {s x1 x2} (h : Sound s) : Sound (State.mramError s x1 x2) := by
  unfold State.mramError
  repeat' (first | with_reducible assumption | with_reducible (first | apply State.raise_sound | apply Sound.ite | apply Sound.foldl | apply Sound.forAll | apply Sound.foldlPair | intro _ _ _) | split | dsimp only [refuse, okS, okB, okParts])

theorem State.repairWords_sound {s} (h : Sound s) : Sound (State.repairWords s) := by
  unfold State.repairWords
  repeat' (first | with_reducible assumption | with_reducible (first | apply State.bump_sound | apply State.modPwr_sound | apply Sound.ite | apply Sound.foldl | apply Sound.forAll | apply Sound.foldlPair | intro _ _ _) | split | dsimp only [refuse, okS, okB, okParts])

theorem State.enterCapo_sound {s x1 x2 x3 x4 x5 x6} (h : Sound s) : Sound (State.enterCapo s x1 x2 x3 x4 x5 x6) := by
  unfold State.enterCapo
  repeat' (first | with_reducible assumption | with_reducible (first | apply State.enter_sound | apply Sound.ite | apply Sound.foldl | apply Sound.forAll | apply Sound.foldlPair | intro _ _ _) | split | dsimp only [refuse, okS, okB, okParts])

theorem State.buildSeal_sound {s x1 x2 x3 x4 x5} (h : Sound s) : Sound (State.buildSeal s x1 x2 x3 x4 x5) := by
  unfold State.buildSeal
  repeat' (first | with_reducible assumption | with_reducible (first | apply State.build_sound | apply State.modLog_sound | apply State.modRecs_sound | apply Sound.ite | apply Sound.foldl | apply Sound.forAll | apply Sound.foldlPair | intro _ _ _) | split | dsimp only [refuse, okS, okB, okParts])

theorem State.joinDue_sound {s x1 x2 x3 x4 x5} (h : Sound s) : Sound (State.joinDue s x1 x2 x3 x4 x5) := by
  unfold State.joinDue
  repeat' (first | with_reducible assumption | with_reducible (first | apply State.modRecs_sound | apply Sound.ite | apply Sound.foldl | apply Sound.forAll | apply Sound.foldlPair | intro _ _ _) | split | dsimp only [refuse, okS, okB, okParts])

theorem State.badWord_sound {s x1 x2 x3} (h : Sound s) : Sound (State.badWord s x1 x2 x3) := by
  unfold State.badWord
  repeat' (first | with_reducible assumption | with_reducible (first | apply State.bump_sound | apply State.mramError_sound | apply Sound.ite | apply Sound.foldl | apply Sound.forAll | apply Sound.foldlPair | intro _ _ _) | split | dsimp only [refuse, okS, okB, okParts])

theorem State.readMram_sound {s x1 x2 x3} (h : Sound s) : Sound (State.readMram s x1 x2 x3).2 := by
  unfold State.readMram
  repeat' (first | with_reducible assumption | with_reducible (first | apply State.badWord_sound | apply State.repairWords_sound | apply Sound.ite | apply Sound.foldl | apply Sound.forAll | apply Sound.foldlPair | intro _ _ _) | split | dsimp only [refuse, okS, okB, okParts])

theorem State.writeMram_sound {s x1 x2 f} (h : Sound s) (g : ∀ x, Sound x → Sound (f x)) : Sound (State.writeMram s x1 x2 f) := by
  unfold State.writeMram
  split
  · exact g _ h
  · exact State.raise_sound h

theorem State.joinRecords_sound {s x1 x2 x3 x4 x5} (h : Sound s) : Sound (State.joinRecords s x1 x2 x3 x4 x5) := by
  unfold State.joinRecords
  repeat' (first | with_reducible assumption | with_reducible (first | apply State.joinDue_sound | apply State.modPt_sound | apply Sound.ite | apply Sound.foldl | apply Sound.forAll | apply Sound.foldlPair | intro _ _ _) | split | dsimp only [refuse, okS, okB, okParts])

theorem State.readSlot_sound {s x1 x2 x3 x4} (h : Sound s) : Sound (State.readSlot s x1 x2 x3 x4) := by
  unfold State.readSlot
  repeat' (first | with_reducible assumption | with_reducible (first | apply State.readMram_sound | apply State.repairWords_sound | apply Sound.ite | apply Sound.foldl | apply Sound.forAll | apply Sound.foldlPair | intro _ _ _) | split | dsimp only [refuse, okS, okB, okParts])

end Sys2Proof.Machine
end

