-- ==== Sys2Proof/Laws/SoundSar.lean ====
section
/-!
SUPPORT. Each operation of Machine/Sar.lean keeps the invariant `Sound`.
-/

namespace Sys2Proof.Machine

theorem State.pilotSample_sound {s x1 x2} (h : Sound s) : Sound (State.pilotSample s x1 x2) := by
  unfold State.pilotSample
  repeat' (first | with_reducible assumption | with_reducible (first | apply State.modOut_sound | apply Sound.ite | apply Sound.foldl | apply Sound.forAll | apply Sound.foldlPair | intro _ _ _) | split | dsimp only [refuse, okS, okB, okParts])

theorem State.plateau_sound {s x1 x2} (h : Sound s) : Sound (State.plateau s x1 x2) := by
  unfold State.plateau
  repeat' (first | with_reducible assumption | with_reducible (first | apply State.modOut_sound | apply State.pilotSample_sound | apply Sound.ite | apply Sound.foldl | apply Sound.forAll | apply Sound.foldlPair | intro _ _ _) | split | dsimp only [refuse, okS, okB, okParts])

theorem State.thermalDie_sound {s x1 x2 x3 x4} (h : Sound s) : Sound (State.thermalDie s x1 x2 x3 x4) := by
  unfold State.thermalDie
  repeat' (first | with_reducible assumption | with_reducible (first | apply State.raise_sound | apply Sound.ite | apply Sound.foldl | apply Sound.forAll | apply Sound.foldlPair | intro _ _ _) | split | dsimp only [refuse, okS, okB, okParts])

theorem State.putExt_sound {s x1 x2} (h : Sound s) : Sound (State.putExt s x1 x2) := by
  unfold State.putExt
  repeat' (first | with_reducible assumption | with_reducible (first | apply State.modPwr_sound | apply Sound.ite | apply Sound.foldl | apply Sound.forAll | apply Sound.foldlPair | intro _ _ _) | split | dsimp only [refuse, okS, okB, okParts])

theorem State.supplyMon_sound {s x1 x2 x3 x4 x5} (h : Sound s) : Sound (State.supplyMon s x1 x2 x3 x4 x5) := by
  unfold State.supplyMon
  repeat' (first | with_reducible assumption | with_reducible (first | apply State.raise_sound | apply Sound.ite | apply Sound.foldl | apply Sound.forAll | apply Sound.foldlPair | intro _ _ _) | split | dsimp only [refuse, okS, okB, okParts])

theorem State.rangeCheck_sound {s x1 x2 x3 x4 x5} (h : Sound s) : Sound (State.rangeCheck s x1 x2 x3 x4 x5) := by
  unfold State.rangeCheck
  repeat' (first | with_reducible assumption | with_reducible (first | apply State.putExt_sound | apply State.supplyMon_sound | apply Sound.ite | apply Sound.foldl | apply Sound.forAll | apply Sound.foldlPair | intro _ _ _) | split | dsimp only [refuse, okS, okB, okParts])

theorem State.rail_sound {s x1 x2} (h : Sound s) : Sound (State.rail s x1 x2) := by
  unfold State.rail
  repeat' (first | with_reducible assumption | with_reducible (first | refine State.modSar_sound ?_ (by (first | exact fun a => a | exact fun a => by simpa [upd] using a | (intro a; (try dsimp only); repeat' split) <;> first | exact a | simpa [upd] using a | simp_all)) | apply State.rangeCheck_sound | apply Sound.ite | apply Sound.foldl | apply Sound.forAll | apply Sound.foldlPair | intro _ _ _) | split | dsimp only [refuse, okS, okB, okParts])

theorem State.modEntry_sound {s x1 x2 x3} (h : Sound s) : Sound (State.modEntry s x1 x2 x3) := by
  unfold State.modEntry
  repeat' (first | with_reducible assumption | with_reducible (first | apply State.modConv_sound | apply Sound.ite | apply Sound.foldl | apply Sound.forAll | apply Sound.foldlPair | intro _ _ _) | split | dsimp only [refuse, okS, okB, okParts])

theorem State.restartEntry_sound {s x1 x2} (h : Sound s) : Sound (State.restartEntry s x1 x2) := by
  unfold State.restartEntry
  repeat' (first | with_reducible assumption | with_reducible (first | apply State.modEntry_sound | apply Sound.ite | apply Sound.foldl | apply Sound.forAll | apply Sound.foldlPair | intro _ _ _) | split | dsimp only [refuse, okS, okB, okParts])

theorem State.excScan_sound {s x1} (h : Sound s) : Sound (State.excScan s x1) := by
  unfold State.excScan
  repeat' (first | with_reducible assumption | with_reducible (first | refine State.modSar_sound ?_ (by (first | exact fun a => a | exact fun a => by simpa [upd] using a | (intro a; (try dsimp only); repeat' split) <;> first | exact a | simpa [upd] using a | simp_all)) | apply Sound.ite | apply Sound.foldl | apply Sound.forAll | apply Sound.foldlPair | intro _ _ _) | split | dsimp only [refuse, okS, okB, okParts])

theorem State.proximity_sound {s x1} (h : Sound s) : Sound (State.proximity s x1) := by
  unfold State.proximity
  repeat' (first | with_reducible assumption | with_reducible (first | apply State.modOut_sound | apply Sound.ite | apply Sound.foldl | apply Sound.forAll | apply Sound.foldlPair | intro _ _ _) | split | dsimp only [refuse, okS, okB, okParts])

theorem State.timersAtBoundary_sound {s x1 x2} (h : Sound s) : Sound (State.timersAtBoundary s x1 x2) := by
  unfold State.timersAtBoundary
  repeat' (first | with_reducible assumption | with_reducible (first | refine State.modSar_sound ?_ (by (first | exact fun a => a | exact fun a => by simpa [upd] using a | (intro a; (try dsimp only); repeat' split) <;> first | exact a | simpa [upd] using a | simp_all)) | apply Sound.ite | apply Sound.foldl | apply Sound.forAll | apply Sound.foldlPair | intro _ _ _) | split | dsimp only [refuse, okS, okB, okParts])

theorem State.fireTrigger_sound {s x1 x2 x3} (h : Sound s) : Sound (State.fireTrigger s x1 x2 x3) := by
  unfold State.fireTrigger
  repeat' (first | with_reducible assumption | with_reducible (first | apply State.modEntry_sound | apply Sound.ite | apply Sound.foldl | apply Sound.forAll | apply Sound.foldlPair | intro _ _ _) | split | dsimp only [refuse, okS, okB, okParts])

theorem State.flushMerged_sound {s} (h : Sound s) : Sound (State.flushMerged s) := by
  unfold State.flushMerged
  repeat' (first | with_reducible assumption | with_reducible (first | apply State.modConv_sound | apply State.raise_sound | apply Sound.ite | apply Sound.foldl | apply Sound.forAll | apply Sound.foldlPair | intro _ _ _) | split | dsimp only [refuse, okS, okB, okParts])

theorem serveSarResults_sound {x0 s} (h : Sound s) : Sound (serveSarResults x0 s).st := by
  unfold serveSarResults okParts refuse
  repeat' (first | with_reducible assumption | with_reducible (first | apply State.modConv_sound | apply Sound.ite | apply Sound.foldl | apply Sound.forAll | apply Sound.foldlPair | intro _ _ _) | split | dsimp only [refuse, okS, okB, okParts])

theorem serveSarSelftest_sound {x0 s} (h : Sound s) : Sound (serveSarSelftest x0 s).st := by
  unfold serveSarSelftest okS refuse
  repeat' (first | with_reducible assumption | with_reducible (first | apply State.modConv_sound | apply Sound.ite | apply Sound.foldl | apply Sound.forAll | apply Sound.foldlPair | intro _ _ _) | split | dsimp only [refuse, okS, okB, okParts])

theorem serveSarTrigger_sound {x0 s} (h : Sound s) : Sound (serveSarTrigger x0 s).st := by
  unfold serveSarTrigger okS refuse
  repeat' (first | with_reducible assumption | with_reducible (first | apply State.fireTrigger_sound | apply Sound.ite | apply Sound.foldl | apply Sound.forAll | apply Sound.foldlPair | intro _ _ _) | split | dsimp only [refuse, okS, okB, okParts])

theorem State.sequenceDone_sound {s x1 x2} (h : Sound s) : Sound (State.sequenceDone s x1 x2) := by
  unfold State.sequenceDone
  repeat' (first | with_reducible assumption | with_reducible (first | apply State.modConv_sound | apply State.raise_sound | apply Sound.ite | apply Sound.foldl | apply Sound.forAll | apply Sound.foldlPair | intro _ _ _) | split | dsimp only [refuse, okS, okB, okParts])

theorem State.limitCheck_sound {s x1 x2 x3 x4 x5 x6} (h : Sound s) : Sound (State.limitCheck s x1 x2 x3 x4 x5 x6) := by
  unfold State.limitCheck
  repeat' (first | with_reducible assumption | with_reducible (first | apply State.modEntry_sound | apply State.raise_sound | apply Sound.ite | apply Sound.foldl | apply Sound.forAll | apply Sound.foldlPair | intro _ _ _) | split | dsimp only [refuse, okS, okB, okParts])

theorem State.useResult_sound {s x1 x2 x3} (h : Sound s) : Sound (State.useResult s x1 x2 x3) := by
  unfold State.useResult
  repeat' (first | with_reducible assumption | with_reducible (first | apply State.modSwch_sound | apply State.plateau_sound | apply State.proximity_sound | apply Sound.ite | apply Sound.foldl | apply Sound.forAll | apply Sound.foldlPair | intro _ _ _) | split | dsimp only [refuse, okS, okB, okParts])

theorem execSarConversionComplete_sound {x0 x1 x2 x3 s} (h : Sound s) : SoundO (execSarConversionComplete x0 x1 x2 x3 s) := by
  unfold execSarConversionComplete
  repeat' (first | with_reducible assumption | with_reducible (first | apply State.at_sound | apply State.limitCheck_sound | apply State.modConv_sound | apply State.modEntry_sound | apply State.sequenceDone_sound | apply State.useResult_sound | apply SoundO.next | exact SoundO.fault | apply SoundO.ite | apply Sound.ite | apply Sound.foldl | apply Sound.forAll | apply Sound.foldlPair | intro _ _ _) | split | dsimp only [refuse, okS, okB, okParts])

theorem execSarTrigger_sound {x0 x1 s} (h : Sound s) : SoundO (execSarTrigger x0 x1 s) := hostCmd_sound h (fun _ _ a => serveSarTrigger_sound a)

theorem execSarTriggerFire_sound {x0 x1 x2 s} (h : Sound s) : SoundO (execSarTriggerFire x0 x1 x2 s) := by
  unfold execSarTriggerFire
  repeat' (first | with_reducible assumption | with_reducible (first | apply State.at_sound | apply State.modConv_sound | apply State.modEntry_sound | apply SoundO.next | exact SoundO.fault | apply SoundO.ite | apply Sound.ite | apply Sound.foldl | apply Sound.forAll | apply Sound.foldlPair | intro _ _ _) | split | dsimp only [refuse, okS, okB, okParts])

theorem State.dieCheck_sound {s x1} (h : Sound s) : Sound (State.dieCheck s x1) := by
  unfold State.dieCheck
  repeat' (first | with_reducible assumption | with_reducible (first | refine State.modSar_sound ?_ (by (first | exact fun a => a | exact fun a => by simpa [upd] using a | (intro a; (try dsimp only); repeat' split) <;> first | exact a | simpa [upd] using a | simp_all)) | apply State.putExt_sound | apply State.thermalDie_sound | apply Sound.ite | apply Sound.foldl | apply Sound.forAll | apply Sound.foldlPair | intro _ _ _) | split | dsimp only [refuse, okS, okB, okParts])

theorem State.refCheck_sound {s x1} (h : Sound s) : Sound (State.refCheck s x1) := by
  unfold State.refCheck
  repeat' (first | with_reducible assumption | with_reducible (first | refine State.modSar_sound ?_ (by (first | exact fun a => a | exact fun a => by simpa [upd] using a | (intro a; (try dsimp only); repeat' split) <;> first | exact a | simpa [upd] using a | simp_all)) | apply State.rangeCheck_sound | apply Sound.ite | apply Sound.foldl | apply Sound.forAll | apply Sound.foldlPair | intro _ _ _) | split | dsimp only [refuse, okS, okB, okParts])

theorem execMonitorScan_sound {x0 x1 s} (h : Sound s) : SoundO (execMonitorScan x0 x1 s) := by
  unfold execMonitorScan
  repeat' (first | with_reducible assumption | with_reducible (first | apply State.at_sound | apply State.dieCheck_sound | apply State.excScan_sound | refine State.modSar_sound ?_ (by (first | exact fun a => a | exact fun a => by simpa [upd] using a | (intro a; (try dsimp only); repeat' split) <;> first | exact a | simpa [upd] using a | simp_all)) | apply State.rail_sound | apply State.refCheck_sound | apply SoundO.next | exact SoundO.fault | apply SoundO.ite | apply Sound.ite | apply Sound.foldl | apply Sound.forAll | apply Sound.foldlPair | intro _ _ _) | split | dsimp only [refuse, okS, okB, okParts])

theorem execSarSelftestComplete_sound {x0 x1 x2 s} (h : Sound s) : SoundO (execSarSelftestComplete x0 x1 x2 s) := by
  unfold execSarSelftestComplete
  repeat' (first | with_reducible assumption | with_reducible (first | apply State.at_sound | apply State.modConv_sound | refine State.modSar_sound ?_ (by (first | exact fun a => a | exact fun a => by simpa [upd] using a | (intro a; (try dsimp only); repeat' split) <;> first | exact a | simpa [upd] using a | simp_all)) | apply State.raise_sound | apply State.supplyMon_sound | apply SoundO.next | exact SoundO.fault | apply SoundO.ite | apply Sound.ite | apply Sound.foldl | apply Sound.forAll | apply Sound.foldlPair | intro _ _ _) | split | dsimp only [refuse, okS, okB, okParts])

theorem execSarSelftestRun_sound {x0 x1 s} (h : Sound s) : SoundO (execSarSelftestRun x0 x1 s) := by
  unfold execSarSelftestRun
  repeat' (first | with_reducible assumption | with_reducible (first | apply State.at_sound | apply State.modConv_sound | apply SoundO.next | exact SoundO.fault | apply SoundO.ite | apply Sound.ite | apply Sound.foldl | apply Sound.forAll | apply Sound.foldlPair | intro _ _ _) | split | dsimp only [refuse, okS, okB, okParts])

theorem execSarResults_sound {x0 x1 s} (h : Sound s) : SoundO (execSarResults x0 x1 s) := hostCmd_sound h (fun _ _ a => serveSarResults_sound a)

theorem execSarTimerTick_sound {x0 x1 s} (h : Sound s) : SoundO (execSarTimerTick x0 x1 s) := by
  unfold execSarTimerTick
  repeat' (first | with_reducible assumption | with_reducible (first | apply State.at_sound | apply State.fireTrigger_sound | refine State.modSar_sound ?_ (by (first | exact fun a => a | exact fun a => by simpa [upd] using a | (intro a; (try dsimp only); repeat' split) <;> first | exact a | simpa [upd] using a | simp_all)) | apply SoundO.next | exact SoundO.fault | apply SoundO.ite | apply Sound.ite | apply Sound.foldl | apply Sound.forAll | apply Sound.foldlPair | intro _ _ _) | split | dsimp only [refuse, okS, okB, okParts])

theorem execSarSelftest_sound {x0 x1 s} (h : Sound s) : SoundO (execSarSelftest x0 x1 s) := hostCmd_sound h (fun _ _ a => serveSarSelftest_sound a)

end Sys2Proof.Machine
end

