-- ==== Sys2Proof/Laws/SoundSessions.lean ====
section
/-!
SUPPORT. Each operation of Machine/Sessions.lean keeps the invariant `Sound`.
-/

namespace Sys2Proof.Machine

theorem State.rcdEvent_sound {s x1 x2 x3 x4} (h : Sound s) : Sound (State.rcdEvent s x1 x2 x3 x4) := by
  unfold State.rcdEvent
  repeat' (first | with_reducible assumption | with_reducible (first | apply State.raise_sound | apply Sound.ite | apply Sound.foldl | apply Sound.forAll | apply Sound.foldlPair | intro _ _ _) | split | dsimp only [refuse, okS, okB, okParts])

theorem State.outletSession_sound {s x1 x2 x3 x4} (h : Sound s) : Sound (State.outletSession s x1 x2 x3 x4) := by
  unfold State.outletSession
  repeat' (first | with_reducible assumption | with_reducible (first | apply State.raise_sound | apply Sound.ite | apply Sound.foldl | apply Sound.forAll | apply Sound.foldlPair | intro _ _ _) | split | dsimp only [refuse, okS, okB, okParts])

theorem State.setPilot_sound {s x1} (h : Sound s) : Sound (State.setPilot s x1) := by
  unfold State.setPilot
  repeat' (first | with_reducible assumption | with_reducible (first | apply State.modOut_sound | apply Sound.ite | apply Sound.foldl | apply Sound.forAll | apply Sound.foldlPair | intro _ _ _) | split | dsimp only [refuse, okS, okB, okParts])

theorem State.enterState_sound {s x1 x2 x3} (h : Sound s) : Sound (State.enterState s x1 x2 x3) := by
  unfold State.enterState
  repeat' (first | with_reducible assumption | with_reducible (first | apply State.modOut_sound | apply State.modSes_sound | apply State.outletSession_sound | apply State.setPilot_sound | apply Sound.ite | apply Sound.foldl | apply Sound.forAll | apply Sound.foldlPair | intro _ _ _) | split | dsimp only [refuse, okS, okB, okParts])

theorem State.backToIdle_sound {s x1 x2} (h : Sound s) : Sound (State.backToIdle s x1 x2) := by
  unfold State.backToIdle
  repeat' (first | with_reducible assumption | with_reducible (first | apply State.enterState_sound | apply State.modSes_sound | apply Sound.ite | apply Sound.foldl | apply Sound.forAll | apply Sound.foldlPair | intro _ _ _) | split | dsimp only [refuse, okS, okB, okParts])

theorem State.eraseKey_sound {s x1} (h : Sound s) : Sound (State.eraseKey s x1) := by
  unfold State.eraseKey
  repeat' (first | with_reducible assumption | with_reducible (first | apply State.modSes_sound | apply Sound.ite | apply Sound.foldl | apply Sound.forAll | apply Sound.foldlPair | intro _ _ _) | split | dsimp only [refuse, okS, okB, okParts])

theorem State.closedToIdle_sound {s x1} (h : Sound s) : Sound (State.closedToIdle s x1) := by
  unfold State.closedToIdle
  repeat' (first | with_reducible assumption | with_reducible (first | apply State.enterState_sound | apply Sound.ite | apply Sound.foldl | apply Sound.forAll | apply Sound.foldlPair | intro _ _ _) | split | dsimp only [refuse, okS, okB, okParts])

theorem State.linkEvent_sound {s x1 x2 x3} (h : Sound s) : Sound (State.linkEvent s x1 x2 x3) := by
  unfold State.linkEvent
  repeat' (first | with_reducible assumption | with_reducible (first | apply State.raiseMid_sound | apply Sound.ite | apply Sound.foldl | apply Sound.forAll | apply Sound.foldlPair | intro _ _ _) | split | dsimp only [refuse, okS, okB, okParts])

theorem State.linkDown_sound {s x1 x2} (h : Sound s) : Sound (State.linkDown s x1 x2) := by
  unfold State.linkDown
  repeat' (first | with_reducible assumption | with_reducible (first | apply State.linkEvent_sound | apply State.modOut_sound | apply State.modPlcPort_sound | apply Sound.ite | apply Sound.foldl | apply Sound.forAll | apply Sound.foldlPair | intro _ _ _) | split | dsimp only [refuse, okS, okB, okParts])

theorem State.linkIdle_sound {s x1} (h : Sound s) : Sound (State.linkIdle s x1) := by
  unfold State.linkIdle
  repeat' (first | with_reducible assumption | with_reducible (first | apply State.linkDown_sound | apply State.modPlcPort_sound | apply Sound.ite | apply Sound.foldl | apply Sound.forAll | apply Sound.foldlPair | intro _ _ _) | split | dsimp only [refuse, okS, okB, okParts])

theorem State.startStopping_sound {s x1 x2 x3} (h : Sound s) : Sound (State.startStopping s x1 x2 x3) := by
  unfold State.startStopping
  repeat' (first | with_reducible assumption | with_reducible (first | apply State.enterState_sound | apply State.modOut_sound | apply State.modSes_sound | apply Sound.ite | apply Sound.foldl | apply Sound.forAll | apply Sound.foldlPair | intro _ _ _) | split | dsimp only [refuse, okS, okB, okParts])

theorem State.endSession_sound {s x1 x2} (h : Sound s) : Sound (State.endSession s x1 x2) := by
  unfold State.endSession
  repeat' (first | with_reducible assumption | with_reducible (first | apply State.modSes_sound | apply Sound.ite | apply Sound.foldl | apply Sound.forAll | apply Sound.foldlPair | intro _ _ _) | split | dsimp only [refuse, okS, okB, okParts])

theorem State.pathOff_sound {s x1} (h : Sound s) : Sound (State.pathOff s x1) := by
  unfold State.pathOff
  repeat' (first | with_reducible assumption | with_reducible (first | apply State.command_sound | apply Sound.ite | apply Sound.foldl | apply Sound.forAll | apply Sound.foldlPair | intro _ _ _) | split | dsimp only [refuse, okS, okB, okParts])

theorem State.toFault_sound {s x1 x2} (h : Sound s) : Sound (State.toFault s x1 x2) := by
  unfold State.toFault
  repeat' (first | with_reducible assumption | with_reducible (first | apply State.buildEvent_sound | apply State.endSession_sound | apply State.enterState_sound | apply State.modOut_sound | apply State.modSes_sound | apply State.pathOff_sound | apply Sound.ite | apply Sound.foldl | apply Sound.forAll | apply Sound.foldlPair | intro _ _ _) | split | dsimp only [refuse, okS, okB, okParts])

theorem State.startTransfer_sound {s x1} (h : Sound s) : Sound (State.startTransfer s x1) := by
  unfold State.startTransfer
  repeat' (first | with_reducible assumption | with_reducible (first | apply State.command_sound | apply State.enterState_sound | apply State.modSes_sound | apply Sound.ite | apply Sound.foldl | apply Sound.forAll | apply Sound.foldlPair | intro _ _ _) | split | dsimp only [refuse, okS, okB, okParts])

theorem State.stopOff_sound {s x1} (h : Sound s) : Sound (State.stopOff s x1) := by
  unfold State.stopOff
  repeat' (first | with_reducible assumption | with_reducible (first | apply State.modSes_sound | apply State.pathOff_sound | apply Sound.ite | apply Sound.foldl | apply Sound.forAll | apply Sound.foldlPair | intro _ _ _) | split | dsimp only [refuse, okS, okB, okParts])

theorem State.close_sound {s x1} (h : Sound s) : Sound (State.close s x1) := by
  unfold State.close
  repeat' (first | with_reducible assumption | with_reducible (first | apply State.endSession_sound | apply State.enterState_sound | apply State.modOut_sound | apply Sound.ite | apply Sound.foldl | apply Sound.forAll | apply Sound.foldlPair | intro _ _ _) | split | dsimp only [refuse, okS, okB, okParts])

theorem State.buildEnd_sound {s x1 x2 x3 x4} (h : Sound s) : Sound (State.buildEnd s x1 x2 x3 x4) := by
  unfold State.buildEnd
  repeat' (first | with_reducible assumption | with_reducible (first | apply State.build_sound | apply State.modSes_sound | apply Sound.ite | apply Sound.foldl | apply Sound.forAll | apply Sound.foldlPair | intro _ _ _) | split | dsimp only [refuse, okS, okB, okParts])

theorem State.applyNextSession_sound {s x1} (h : Sound s) : Sound (State.applyNextSession s x1) := by
  unfold State.applyNextSession
  repeat' (first | with_reducible assumption | with_reducible (first | apply State.modPar_sound | apply Sound.ite | apply Sound.foldl | apply Sound.forAll | apply Sound.foldlPair | intro _ _ _) | split | dsimp only [refuse, okS, okB, okParts])

theorem State.buildStart_sound {s x1 x2} (h : Sound s) : Sound (State.buildStart s x1 x2) := by
  unfold State.buildStart
  repeat' (first | with_reducible assumption | with_reducible (first | apply State.later_sound | apply State.modSes_sound | apply Sound.ite | apply Sound.foldl | apply Sound.forAll | apply Sound.foldlPair | intro _ _ _) | split | dsimp only [refuse, okS, okB, okParts])

theorem State.makeSessionKey_sound {s x1} (h : Sound s) : Sound (State.makeSessionKey s x1) := by
  unfold State.makeSessionKey
  repeat' (first | with_reducible assumption | with_reducible (first | apply State.bump_sound | apply State.modSes_sound | apply State.raise_sound | apply Sound.ite | apply Sound.foldl | apply Sound.forAll | apply Sound.foldlPair | intro _ _ _) | split | dsimp only [refuse, okS, okB, okParts])

theorem State.authorise_sound {s x1 x2 x3 x4 x5 x6} (h : Sound s) : Sound (State.authorise s x1 x2 x3 x4 x5 x6) := by
  unfold State.authorise
  repeat' (first | with_reducible assumption | with_reducible (first | apply State.applyNextSession_sound | apply State.enterState_sound | apply State.linkIdle_sound | apply State.makeSessionKey_sound | apply State.modSes_sound | apply State.raiseRaw_sound | apply State.writeLine_sound | apply Sound.ite | apply Sound.foldl | apply Sound.forAll | apply Sound.foldlPair | intro _ _ _) | split | dsimp only [refuse, okS, okB, okParts])

theorem State.runSelfTest_sound {s x1} (h : Sound s) : Sound (State.runSelfTest s x1) := by
  unfold State.runSelfTest
  repeat' (first | with_reducible assumption | with_reducible (first | apply State.modConv_sound | apply State.modOut_sound | apply State.modSlice_sound | apply Sound.ite | apply Sound.foldl | apply Sound.forAll | apply Sound.foldlPair | intro _ _ _) | split | dsimp only [refuse, okS, okB, okParts])

theorem State.startSelfTest_sound {s x1} (h : Sound s) : Sound (State.startSelfTest s x1) := by
  unfold State.startSelfTest
  repeat' (first | with_reducible assumption | with_reducible (first | apply State.modOut_sound | apply State.runSelfTest_sound | apply Sound.ite | apply Sound.foldl | apply Sound.forAll | apply Sound.foldlPair | intro _ _ _) | split | dsimp only [refuse, okS, okB, okParts])

theorem State.outletChange_sound {s x1 x2 x3 x4 x5 x6} (h : Sound s) : Sound (State.outletChange s x1 x2 x3 x4 x5 x6) := by
  unfold State.outletChange
  repeat' (first | with_reducible assumption | with_reducible (first | apply State.modOut_sound | apply State.raiseRaw_sound | apply Sound.ite | apply Sound.foldl | apply Sound.forAll | apply Sound.foldlPair | intro _ _ _) | split | dsimp only [refuse, okS, okB, okParts])

end Sys2Proof.Machine
end

