-- ==== Sys2Proof/Laws/SoundOutlet.lean ====
section
/-!
SUPPORT. Each operation of Machine/Outlet.lean keeps the invariant `Sound`.
-/

namespace Sys2Proof.Machine

theorem State.endInjection_sound {s x1} (h : Sound s) : Sound (State.endInjection s x1) := by
  unfold State.endInjection
  repeat' (first | with_reducible assumption | with_reducible (first | apply State.modConv_sound | apply State.modOut_sound | apply State.modSlice_sound | apply State.modSwch_sound | apply Sound.ite | apply Sound.foldl | apply Sound.forAll | apply Sound.foldlPair | intro _ _ _) | split | dsimp only [refuse, okS, okB, okParts])

theorem State.releaseRcd_sound {s x1} (h : Sound s) : Sound (State.releaseRcd s x1) := by
  unfold State.releaseRcd
  repeat' (first | with_reducible assumption | with_reducible (first | apply State.modOut_sound | apply State.modSwch_sound | apply Sound.ite | apply Sound.foldl | apply Sound.forAll | apply Sound.foldlPair | intro _ _ _) | split | dsimp only [refuse, okS, okB, okParts])

theorem State.dropTest_sound {s x1} (h : Sound s) : Sound (State.dropTest s x1) := by
  unfold State.dropTest
  repeat' (first | with_reducible assumption | with_reducible (first | apply State.endInjection_sound | apply State.modOut_sound | apply Sound.ite | apply Sound.foldl | apply Sound.forAll | apply Sound.foldlPair | intro _ _ _) | split | dsimp only [refuse, okS, okB, okParts])

theorem State.freshPilot_sound {s x1} (h : Sound s) : Sound (State.freshPilot s x1) := by
  unfold State.freshPilot
  repeat' (first | with_reducible assumption | with_reducible (first | apply State.dropTest_sound | apply State.modOut_sound | apply Sound.ite | apply Sound.foldl | apply Sound.forAll | apply Sound.foldlPair | intro _ _ _) | split | dsimp only [refuse, okS, okB, okParts])

theorem State.loadRcd_sound {s x1} (h : Sound s) : Sound (State.loadRcd s x1) := by
  unfold State.loadRcd
  repeat' (first | with_reducible assumption | with_reducible (first | apply State.modSlice_sound | apply Sound.ite | apply Sound.foldl | apply Sound.forAll | apply Sound.foldlPair | intro _ _ _) | split | dsimp only [refuse, okS, okB, okParts])

theorem State.noteWeld_sound {s x1} (h : Sound s) : Sound (State.noteWeld s x1) := by
  unfold State.noteWeld
  repeat' (first | with_reducible assumption | with_reducible (first | apply State.modOut_sound | apply Sound.ite | apply Sound.foldl | apply Sound.forAll | apply Sound.foldlPair | intro _ _ _) | split | dsimp only [refuse, okS, okB, okParts])

theorem State.reportTrip_sound {s x1} (h : Sound s) : Sound (State.reportTrip s x1) := by
  unfold State.reportTrip
  repeat' (first | with_reducible assumption | with_reducible (first | apply State.addCause_sound | apply State.modOut_sound | apply State.rcdEvent_sound | apply Sound.ite | apply Sound.foldl | apply Sound.forAll | apply Sound.foldlPair | intro _ _ _) | split | dsimp only [refuse, okS, okB, okParts])

theorem State.leavesA_sound {s x1} (h : Sound s) : Sound (State.leavesA s x1) := by
  unfold State.leavesA
  repeat' (first | with_reducible assumption | with_reducible (first | apply State.enterState_sound | apply State.startSelfTest_sound | apply Sound.ite | apply Sound.foldl | apply Sound.forAll | apply Sound.foldlPair | intro _ _ _) | split | dsimp only [refuse, okS, okB, okParts])

theorem execV2gSessionTimeout_sound {x0 x1 s} (h : Sound s) : SoundO (execV2gSessionTimeout x0 x1 s) := by
  unfold execV2gSessionTimeout
  repeat' (first | with_reducible assumption | with_reducible (first | apply State.addCause_sound | apply State.at_sound | apply State.modOut_sound | apply SoundO.next | exact SoundO.fault | apply SoundO.ite | apply Sound.ite | apply Sound.foldl | apply Sound.forAll | apply Sound.foldlPair | intro _ _ _) | split | dsimp only [refuse, okS, okB, okParts])

theorem execCmSlacParmReq_sound {x0 x1 x2 s} (h : Sound s) : SoundO (execCmSlacParmReq x0 x1 x2 s) := by
  unfold execCmSlacParmReq
  repeat' (first | with_reducible assumption | with_reducible (first | apply State.at_sound | apply State.modOut_sound | apply SoundO.next | exact SoundO.fault | apply SoundO.ite | apply Sound.ite | apply Sound.foldl | apply Sound.forAll | apply Sound.foldlPair | intro _ _ _) | split | dsimp only [refuse, okS, okB, okParts])

theorem State.notePaths_sound {s} (h : Sound s) : Sound (State.notePaths s) := by
  unfold State.notePaths
  repeat' (first | with_reducible assumption | with_reducible (first | apply State.modOut_sound | apply Sound.ite | apply Sound.foldl | apply Sound.forAll | apply Sound.foldlPair | intro _ _ _) | split | dsimp only [refuse, okS, okB, okParts])

theorem serveOutletDcStatus_sound {x0 s} (h : Sound s) : Sound (serveOutletDcStatus x0 s).st := by
  unfold serveOutletDcStatus onOutlet okB refuse
  repeat' (first | with_reducible assumption | with_reducible (first | apply State.modOut_sound | apply Sound.ite | apply Sound.foldl | apply Sound.forAll | apply Sound.foldlPair | intro _ _ _) | split | dsimp only [refuse, okS, okB, okParts])

theorem serveOutletLimit_sound {x0 s} (h : Sound s) : Sound (serveOutletLimit x0 s).st := by
  unfold serveOutletLimit onOutlet okS refuse
  repeat' (first | with_reducible assumption | with_reducible (first | apply State.modOut_sound | apply Sound.ite | apply Sound.foldl | apply Sound.forAll | apply Sound.foldlPair | intro _ _ _) | split | dsimp only [refuse, okS, okB, okParts])

theorem serveRootStore_sound {x0 x1 s} (h : Sound s) : Sound (serveRootStore x0 x1 s).st := by
  unfold serveRootStore withLog okS refuse
  repeat' (first | with_reducible assumption | with_reducible (first | apply State.enterHost_sound | apply State.logRefused_sound | refine State.modKeys_sound ?_ (by (first | exact fun a => a | exact fun a => by simpa [upd] using a | (intro a; (try dsimp only); repeat' split) <;> first | exact a | simpa [upd] using a | simp_all)) (by (first | exact fun a => a | exact fun a => by simpa [upd] using a | (intro a; (try dsimp only); repeat' split) <;> first | exact a | simpa [upd] using a | simp_all)) | apply Sound.ite | apply Sound.foldl | apply Sound.forAll | apply Sound.foldlPair | intro _ _ _) | split | dsimp only [refuse, okS, okB, okParts])

theorem execSlacRunJudged_sound {x0 x1 x2 x3 s} (h : Sound s) : SoundO (execSlacRunJudged x0 x1 x2 x3 s) := by
  unfold execSlacRunJudged
  repeat' (first | with_reducible assumption | with_reducible (first | apply State.at_sound | apply State.modOut_sound | apply SoundO.next | exact SoundO.fault | apply SoundO.ite | apply Sound.ite | apply Sound.foldl | apply Sound.forAll | apply Sound.foldlPair | intro _ _ _) | split | dsimp only [refuse, okS, okB, okParts])

theorem State.startWaitingTests_sound {s} (h : Sound s) : Sound (State.startWaitingTests s) := by
  unfold State.startWaitingTests
  repeat' (first | with_reducible assumption | with_reducible (first | apply State.runSelfTest_sound | apply Sound.ite | apply Sound.foldl | apply Sound.forAll | apply Sound.foldlPair | intro _ _ _) | split | dsimp only [refuse, okS, okB, okParts])

theorem execResidualSelfTestResult_sound {x0 x1 s} (h : Sound s) : SoundO (execResidualSelfTestResult x0 x1 s) := by
  unfold execResidualSelfTestResult
  repeat' (first | with_reducible assumption | with_reducible (first | apply State.at_sound | apply State.endInjection_sound | apply State.modOut_sound | apply State.rcdEvent_sound | apply State.runSelfTest_sound | apply State.toFault_sound | apply SoundO.next | exact SoundO.fault | apply SoundO.ite | apply Sound.ite | apply Sound.foldl | apply Sound.forAll | apply Sound.foldlPair | intro _ _ _) | split | dsimp only [refuse, okS, okB, okParts])

theorem State.seccAnswer_sound {s x1} (h : Sound s) : Sound (State.seccAnswer s x1) := by
  unfold State.seccAnswer
  repeat' (first | with_reducible assumption | with_reducible (first | apply State.modOut_sound | apply Sound.ite | apply Sound.foldl | apply Sound.forAll | apply Sound.foldlPair | intro _ _ _) | split | dsimp only [refuse, okS, okB, okParts])

theorem State.handshake_sound {s x1 x2} (h : Sound s) : Sound (State.handshake s x1 x2) := by
  unfold State.handshake
  repeat' (first | with_reducible assumption | with_reducible (first | apply State.askKey_sound | apply State.bump_sound | apply State.modOut_sound | apply Sound.ite | apply Sound.foldl | apply Sound.forAll | apply Sound.foldlPair | intro _ _ _) | split | dsimp only [refuse, okS, okB, okParts])

theorem State.takeContract_sound {s x1 x2} (h : Sound s) : Sound (State.takeContract s x1 x2) := by
  unfold State.takeContract
  repeat' (first | with_reducible assumption | with_reducible (first | apply State.authorise_sound | apply State.modOut_sound | apply Sound.ite | apply Sound.foldl | apply Sound.forAll | apply Sound.foldlPair | intro _ _ _) | split | dsimp only [refuse, okS, okB, okParts])

theorem State.v2gEffect_sound {s x1 x2} (h : Sound s) : Sound (State.v2gEffect s x1 x2) := by
  unfold State.v2gEffect
  repeat' (first | with_reducible assumption | with_reducible (first | apply State.addCause_sound | apply State.handshake_sound | apply State.modOut_sound | apply State.takeContract_sound | apply Sound.ite | apply Sound.foldl | apply Sound.forAll | apply Sound.foldlPair | intro _ _ _) | split | dsimp only [refuse, okS, okB, okParts])

theorem execV2gMessageReceived_sound {x0 x1 x2 s} (h : Sound s) : SoundO (execV2gMessageReceived x0 x1 x2 s) := by
  unfold execV2gMessageReceived
  repeat' (first | with_reducible assumption | with_reducible (first | apply State.at_sound | apply State.modOut_sound | apply State.seccAnswer_sound | apply State.v2gEffect_sound | apply SoundO.next | exact SoundO.fault | apply SoundO.ite | apply Sound.ite | apply Sound.foldl | apply Sound.forAll | apply Sound.foldlPair | intro _ _ _) | split | dsimp only [refuse, okS, okB, okParts])

theorem State.reachesA_sound {s x1} (h : Sound s) : Sound (State.reachesA s x1) := by
  unfold State.reachesA
  repeat' (first | with_reducible assumption | with_reducible (first | apply State.addCause_sound | apply State.backToIdle_sound | apply State.dropTest_sound | apply State.linkDown_sound | apply Sound.ite | apply Sound.foldl | apply Sound.forAll | apply Sound.foldlPair | intro _ _ _) | split | dsimp only [refuse, okS, okB, okParts])

theorem State.pilotEffect_sound {s x1 x2 x3} (h : Sound s) : Sound (State.pilotEffect s x1 x2 x3) := by
  unfold State.pilotEffect
  repeat' (first | with_reducible assumption | with_reducible (first | apply State.addCause_sound | apply State.leavesA_sound | apply State.reachesA_sound | apply Sound.ite | apply Sound.foldl | apply Sound.forAll | apply Sound.foldlPair | intro _ _ _) | split | dsimp only [refuse, okS, okB, okParts])

theorem execPilotCodeAccepted_sound {x0 x1 s} (h : Sound s) : SoundO (execPilotCodeAccepted x0 x1 s) := by
  unfold execPilotCodeAccepted
  repeat' (first | with_reducible assumption | with_reducible (first | apply State.at_sound | apply State.modOut_sound | apply State.outletChange_sound | apply State.pilotEffect_sound | apply State.setPilot_sound | apply SoundO.next | exact SoundO.fault | apply SoundO.ite | apply Sound.ite | apply Sound.foldl | apply Sound.forAll | apply Sound.foldlPair | intro _ _ _) | split | dsimp only [refuse, okS, okB, okParts])

theorem execOutletLimit_sound {x0 x1 s} (h : Sound s) : SoundO (execOutletLimit x0 x1 s) := hostCmd_sound h (fun _ _ a => serveOutletLimit_sound a)

theorem State.weldEvent_sound {s x1 x2} (h : Sound s) : Sound (State.weldEvent s x1 x2) := by
  unfold State.weldEvent
  repeat' (first | with_reducible assumption | with_reducible (first | apply State.raise_sound | apply Sound.ite | apply Sound.foldl | apply Sound.forAll | apply Sound.foldlPair | intro _ _ _) | split | dsimp only [refuse, okS, okB, okParts])

theorem execWeldCleared_sound {x0 x1 s} (h : Sound s) : SoundO (execWeldCleared x0 x1 s) := by
  unfold execWeldCleared
  repeat' (first | with_reducible assumption | with_reducible (first | apply State.at_sound | apply State.modOut_sound | apply State.weldEvent_sound | apply SoundO.next | exact SoundO.fault | apply SoundO.ite | apply Sound.ite | apply Sound.foldl | apply Sound.forAll | apply Sound.foldlPair | intro _ _ _) | split | dsimp only [refuse, okS, okB, okParts])

theorem execPlcLossTimeout_sound {x0 x1 s} (h : Sound s) : SoundO (execPlcLossTimeout x0 x1 s) := by
  unfold execPlcLossTimeout
  repeat' (first | with_reducible assumption | with_reducible (first | apply State.addCause_sound | apply State.at_sound | apply State.modOut_sound | apply SoundO.next | exact SoundO.fault | apply SoundO.ite | apply Sound.ite | apply Sound.foldl | apply Sound.forAll | apply Sound.foldlPair | intro _ _ _) | split | dsimp only [refuse, okS, okB, okParts])

theorem execResidualTrip_sound {x0 x1 x2 x3 s} (h : Sound s) : SoundO (execResidualTrip x0 x1 x2 x3 s) := by
  unfold execResidualTrip
  repeat' (first | with_reducible assumption | with_reducible (first | apply State.at_sound | apply State.forceSafe_sound | apply State.modOut_sound | apply State.modSwch_sound | apply State.reportTrip_sound | apply SoundO.next | exact SoundO.fault | apply SoundO.ite | apply Sound.ite | apply Sound.foldl | apply Sound.forAll | apply Sound.foldlPair | intro _ _ _) | split | dsimp only [refuse, okS, okB, okParts])

theorem execPilotPeriod_sound {x0 x1 s} (h : Sound s) : SoundO (execPilotPeriod x0 x1 s) := by
  unfold execPilotPeriod
  repeat' (first | with_reducible assumption | with_reducible (first | apply State.at_sound | apply State.fireTrigger_sound | apply State.modOut_sound | apply SoundO.next | exact SoundO.fault | apply SoundO.ite | apply Sound.ite | apply Sound.foldl | apply Sound.forAll | apply Sound.foldlPair | intro _ _ _) | split | dsimp only [refuse, okS, okB, okParts])

theorem execOutletDcStatus_sound {x0 x1 s} (h : Sound s) : SoundO (execOutletDcStatus x0 x1 s) := hostCmd_sound h (fun _ _ a => serveOutletDcStatus_sound a)

theorem execWeldedContactDeclared_sound {x0 x1 s} (h : Sound s) : SoundO (execWeldedContactDeclared x0 x1 s) := by
  unfold execWeldedContactDeclared
  repeat' (first | with_reducible assumption | with_reducible (first | apply State.addCause_sound | apply State.at_sound | apply State.hold4_sound | apply State.modOut_sound | apply State.weldEvent_sound | apply SoundO.next | exact SoundO.fault | apply SoundO.ite | apply Sound.ite | apply Sound.foldl | apply Sound.forAll | apply Sound.foldlPair | intro _ _ _) | split | dsimp only [refuse, okS, okB, okParts])

theorem execProximityCodeAccepted_sound {x0 x1 s} (h : Sound s) : SoundO (execProximityCodeAccepted x0 x1 s) := by
  unfold execProximityCodeAccepted
  repeat' (first | with_reducible assumption | with_reducible (first | apply State.addCause_sound | apply State.at_sound | apply State.modOut_sound | apply State.outletChange_sound | apply State.setPilot_sound | apply SoundO.next | exact SoundO.fault | apply SoundO.ite | apply Sound.ite | apply Sound.foldl | apply Sound.forAll | apply Sound.foldlPair | intro _ _ _) | split | dsimp only [refuse, okS, okB, okParts])

theorem execDcStatusTimeout_sound {x0 x1 s} (h : Sound s) : SoundO (execDcStatusTimeout x0 x1 s) := by
  unfold execDcStatusTimeout
  repeat' (first | with_reducible assumption | with_reducible (first | apply State.at_sound | apply State.modOut_sound | apply SoundO.next | exact SoundO.fault | apply SoundO.ite | apply Sound.ite | apply Sound.foldl | apply Sound.forAll | apply Sound.foldlPair | intro _ _ _) | split | dsimp only [refuse, okS, okB, okParts])

theorem execOutletRootStore_sound {x0 x1 s} (h : Sound s) : SoundO (execOutletRootStore x0 x1 s) := hostCmd_sound h (fun _ _ a => serveRootStore_sound a)

end Sys2Proof.Machine
end

