-- ==== Sys2Proof/Laws/SoundKeyOps.lean ====
section
/-!
SUPPORT. Each operation of Machine/KeyOps.lean keeps the invariant `Sound`.
-/

namespace Sys2Proof.Machine

theorem State.revokeParent_sound {s x1} (h : Sound s) : Sound (State.revokeParent s x1) := by
  unfold State.revokeParent
  repeat' (first | with_reducible assumption | with_reducible (first | apply State.addCause_sound | apply State.backToIdle_sound | apply State.modSes_sound | apply Sound.ite | apply Sound.foldl | apply Sound.forAll | apply Sound.foldlPair | intro _ _ _) | split | dsimp only [refuse, okS, okB, okParts])

theorem State.keyEvent_sound {s x1 x2 x3 x4 x5 x6 x7} (h : Sound s) : Sound (State.keyEvent s x1 x2 x3 x4 x5 x6 x7) := by
  unfold State.keyEvent
  repeat' (first | with_reducible assumption | with_reducible (first | apply State.raise_sound | apply Sound.ite | apply Sound.foldl | apply Sound.forAll | apply Sound.foldlPair | intro _ _ _) | split | dsimp only [refuse, okS, okB, okParts])

theorem State.invalidateOne_sound {s x1 x2 x3 x4 x5 x6} (h : Sound s) : Sound (State.invalidateOne s x1 x2 x3 x4 x5 x6) := by
  unfold State.invalidateOne
  repeat' (first | with_reducible assumption | with_reducible (first | apply State.enter_sound | apply State.keyEvent_sound | apply State.modKey_sound | apply State.revokeParent_sound | apply Sound.ite | apply Sound.foldl | apply Sound.forAll | apply Sound.foldlPair | intro _ _ _) | split | dsimp only [refuse, okS, okB, okParts])

theorem State.invalidate_sound {s x1 x2 x3 x4 x5} (h : Sound s) : Sound (State.invalidate s x1 x2 x3 x4 x5) := by
  unfold State.invalidate
  repeat' (first | with_reducible assumption | with_reducible (first | apply State.invalidateOne_sound | apply State.revokeParent_sound | apply Sound.ite | apply Sound.foldl | apply Sound.forAll | apply Sound.foldlPair | intro _ _ _) | split | dsimp only [refuse, okS, okB, okParts])

theorem State.relock_sound {s x1 x2 x3 x4} (h : Sound s) : Sound (State.relock s x1 x2 x3 x4) := by
  unfold State.relock
  split
  · refine State.enter_sound (State.modTest_sound (State.setTest_sound h (fun _ => rfl)) ?_)
    intro _ _
    rw [State.setTest_test]
    exact ⟨rfl, rfl⟩
  · exact h

end Sys2Proof.Machine
end

