-- ==== Sys2Proof/Laws/SoundSafetyFn.lean ====
section
/-!
SUPPORT. Each operation of Machine/SafetyFn.lean keeps the invariant `Sound`.
-/

namespace Sys2Proof.Machine

theorem State.runInput_sound {s x1 x2} (h : Sound s) : Sound (State.runInput s x1 x2) := by
  unfold State.runInput
  repeat' (first | with_reducible assumption | with_reducible (first | apply State.modSafIn_sound | apply Sound.ite | apply Sound.foldl | apply Sound.forAll | apply Sound.foldlPair | intro _ _ _) | split | dsimp only [refuse, okS, okB, okParts])

theorem State.discEvent_sound {s x1 x2 x3} (h : Sound s) : Sound (State.discEvent s x1 x2 x3) := by
  unfold State.discEvent
  repeat' (first | with_reducible assumption | with_reducible (first | apply State.raise_sound | apply Sound.ite | apply Sound.foldl | apply Sound.forAll | apply Sound.foldlPair | intro _ _ _) | split | dsimp only [refuse, okS, okB, okParts])

theorem State.demandEvent_sound {s x1 x2 x3 x4 x5 x6 x7} (h : Sound s) : Sound (State.demandEvent s x1 x2 x3 x4 x5 x6 x7) := by
  unfold State.demandEvent
  repeat' (first | with_reducible assumption | with_reducible (first | apply State.raise_sound | apply Sound.ite | apply Sound.foldl | apply Sound.forAll | apply Sound.foldlPair | intro _ _ _) | split | dsimp only [refuse, okS, okB, okParts])

theorem State.inputDemand_sound {s x1 x2} (h : Sound s) : Sound (State.inputDemand s x1 x2) := by
  unfold State.inputDemand
  repeat' (first | with_reducible assumption | with_reducible (first | apply State.demandEvent_sound | apply Sound.ite | apply Sound.foldl | apply Sound.forAll | apply Sound.foldlPair | intro _ _ _) | split | dsimp only [refuse, okS, okB, okParts])

theorem State.releaseInput_sound {s x1} (h : Sound s) : Sound (State.releaseInput s x1) := by
  unfold State.releaseInput
  repeat' (first | with_reducible assumption | with_reducible (first | apply State.inputDemand_sound | apply State.modSafIn_sound | apply State.releaseSi_sound | apply Sound.ite | apply Sound.foldl | apply Sound.forAll | apply Sound.foldlPair | intro _ _ _) | split | dsimp only [refuse, okS, okB, okParts])

theorem State.clearInput_sound {s x1} (h : Sound s) : Sound (State.clearInput s x1) := by
  unfold State.clearInput
  repeat' (first | with_reducible assumption | with_reducible (first | apply State.discEvent_sound | apply State.inputDemand_sound | apply State.modSafIn_sound | apply State.release4_sound | apply State.releaseInput_sound | apply State.releaseSi_sound | apply Sound.ite | apply Sound.foldl | apply Sound.forAll | apply Sound.foldlPair | intro _ _ _) | split | dsimp only [refuse, okS, okB, okParts])

theorem State.settleInput_sound {s x1} (h : Sound s) : Sound (State.settleInput s x1) := by
  unfold State.settleInput
  repeat' (first | with_reducible assumption | with_reducible (first | apply State.addCause_sound | apply State.clearInput_sound | apply State.holdSi_sound | apply State.inputDemand_sound | apply State.modSafIn_sound | apply State.release4_sound | apply State.releaseSi_sound | apply Sound.ite | apply Sound.foldl | apply Sound.forAll | apply Sound.foldlPair | intro _ _ _) | split | dsimp only [refuse, okS, okB, okParts])

theorem State.holdPoints_sound {s x1 x2} (h : Sound s) : Sound (State.holdPoints s x1 x2) := by
  unfold State.holdPoints
  repeat' (first | with_reducible assumption | with_reducible (first | apply State.hold4_sound | apply Sound.ite | apply Sound.foldl | apply Sound.forAll | apply Sound.foldlPair | intro _ _ _) | split | dsimp only [refuse, okS, okB, okParts])

theorem State.startEntry_sound {s x1} (h : Sound s) : Sound (State.startEntry s x1) := by
  unfold State.startEntry
  repeat' (first | with_reducible assumption | with_reducible (first | apply State.holdPoints_sound | apply State.modScEntry_sound | apply State.release4_sound | apply Sound.ite | apply Sound.foldl | apply Sound.forAll | apply Sound.foldlPair | intro _ _ _) | split | dsimp only [refuse, okS, okB, okParts])

theorem State.causeAll_sound {s x1 x2} (h : Sound s) : Sound (State.causeAll s x1 x2) := by
  unfold State.causeAll
  repeat' (first | with_reducible assumption | with_reducible (first | apply State.addCause_sound | apply Sound.ite | apply Sound.foldl | apply Sound.forAll | apply Sound.foldlPair | intro _ _ _) | split | dsimp only [refuse, okS, okB, okParts])

theorem State.settleOwnStop_sound {s} (h : Sound s) : Sound (State.settleOwnStop s) := by
  unfold State.settleOwnStop
  repeat' (first | with_reducible assumption | with_reducible (first | apply State.causeAll_sound | apply State.demandEvent_sound | apply State.holdPoints_sound | refine State.modSaf_sound ?_ (by (first | exact fun a => a | exact fun a => by simpa [upd] using a | (intro a; (try dsimp only); repeat' split) <;> first | exact a | simpa [upd] using a | simp_all)) (by (first | exact fun a => a | exact fun a => by simpa [upd] using a | (intro a; (try dsimp only); repeat' split) <;> first | exact a | simpa [upd] using a | simp_all)) | apply Sound.ite | apply Sound.foldl | apply Sound.forAll | apply Sound.foldlPair | intro _ _ _) | split | dsimp only [refuse, okS, okB, okParts])

theorem State.sealBindings_sound {s x1} (h : Sound s) : Sound (State.sealBindings s x1) := by
  unfold State.sealBindings
  repeat' (first | with_reducible assumption | with_reducible (first | apply State.invalidate_sound | apply Sound.ite | apply Sound.foldl | apply Sound.forAll | apply Sound.foldlPair | intro _ _ _) | split | dsimp only [refuse, okS, okB, okParts])

theorem State.sealChange_sound {s x1 x2} (h : Sound s) : Sound (State.sealChange s x1 x2) := by
  unfold State.sealChange
  repeat' (first | with_reducible assumption | with_reducible (first | apply State.buildSeal_sound | apply State.enterCapo_sound | refine State.modSaf_sound ?_ (by (first | exact fun a => a | exact fun a => by simpa [upd] using a | (intro a; (try dsimp only); repeat' split) <;> first | exact a | simpa [upd] using a | simp_all)) (by (first | exact fun a => a | exact fun a => by simpa [upd] using a | (intro a; (try dsimp only); repeat' split) <;> first | exact a | simpa [upd] using a | simp_all)) | apply State.raise_sound | apply State.relock_sound | apply State.sealBindings_sound | apply Sound.ite | apply Sound.foldl | apply Sound.forAll | apply Sound.foldlPair | intro _ _ _) | split | dsimp only [refuse, okS, okB, okParts])

theorem State.msgFaultEvent_sound {s x1 x2 x3 x4 x5} (h : Sound s) : Sound (State.msgFaultEvent s x1 x2 x3 x4 x5) := by
  unfold State.msgFaultEvent
  repeat' (first | with_reducible assumption | with_reducible (first | apply State.raise_sound | apply Sound.ite | apply Sound.foldl | apply Sound.forAll | apply Sound.foldlPair | intro _ _ _) | split | dsimp only [refuse, okS, okB, okParts])

theorem State.faultEntry_sound {s x1 x2 x3} (h : Sound s) : Sound (State.faultEntry s x1 x2 x3) := by
  unfold State.faultEntry
  repeat' (first | with_reducible assumption | with_reducible (first | apply State.causeAll_sound | apply State.holdPoints_sound | apply State.modScEntry_sound | apply State.msgFaultEvent_sound | apply State.queueFault_sound | apply Sound.ite | apply Sound.foldl | apply Sound.forAll | apply Sound.foldlPair | intro _ _ _) | split | dsimp only [refuse, okS, okB, okParts])

theorem State.freePoints_sound {s x1 x2} (h : Sound s) : Sound (State.freePoints s x1 x2) := by
  unfold State.freePoints
  repeat' (first | with_reducible assumption | with_reducible (first | apply State.orderDie_sound | apply Sound.ite | apply Sound.foldl | apply Sound.forAll | apply Sound.foldlPair | intro _ _ _) | split | dsimp only [refuse, okS, okB, okParts])

theorem State.settleEntry_sound {s x1 x2} (h : Sound s) : Sound (State.settleEntry s x1 x2) := by
  unfold State.settleEntry
  repeat' (first | with_reducible assumption | with_reducible (first | apply State.causeAll_sound | apply State.demandEvent_sound | apply State.holdPoints_sound | apply State.modScEntry_sound | apply Sound.ite | apply Sound.foldl | apply Sound.forAll | apply Sound.foldlPair | intro _ _ _) | split | dsimp only [refuse, okS, okB, okParts])

theorem State.consume_sound {s x1 x2} (h : Sound s) : Sound (State.consume s x1 x2) := by
  unfold State.consume
  repeat' (first | with_reducible assumption | with_reducible (first | apply State.faultEntry_sound | apply State.freePoints_sound | apply State.modScEntry_sound | apply State.settleEntry_sound | apply Sound.ite | apply Sound.foldl | apply Sound.forAll | apply Sound.foldlPair | intro _ _ _) | split | dsimp only [refuse, okS, okB, okParts])

theorem State.releaseOwn_sound {s x1} (h : Sound s) : Sound (State.releaseOwn s x1) := by
  unfold State.releaseOwn
  repeat' (first | with_reducible assumption | with_reducible (first | apply State.demandEvent_sound | apply State.freePoints_sound | refine State.modSaf_sound ?_ (by (first | exact fun a => a | exact fun a => by simpa [upd] using a | (intro a; (try dsimp only); repeat' split) <;> first | exact a | simpa [upd] using a | simp_all)) (by (first | exact fun a => a | exact fun a => by simpa [upd] using a | (intro a; (try dsimp only); repeat' split) <;> first | exact a | simpa [upd] using a | simp_all)) | apply Sound.ite | apply Sound.foldl | apply Sound.forAll | apply Sound.foldlPair | intro _ _ _) | split | dsimp only [refuse, okS, okB, okParts])

theorem State.perturb_sound {s x1 x2} (h : Sound s) : Sound (State.perturb s x1 x2).2 := by
  unfold State.perturb
  dsimp only
  split
  · exact h
  · next c =>
    have u : s.test.unlocked = false → False := fun e => c (Or.inl (h.test e).2)
    have w : Sound (if s.test.eff.safCount = 0 then s
      else if s.test.eff.safCount = 1 then s.setTest { s.test.regs with safCount := 0, safAction := 0 } 5
      else (s.setTest { s.test.regs with safCount := s.test.eff.safCount - 1 } 5).modTest
        (fun x => { x with eff := { x.eff with safCount := s.test.eff.safCount - 1 } })) := by
      repeat' split
      · exact h
      · exact State.setTest_sound h (fun e => (u e).elim)
      · refine State.modTest_sound (State.setTest_sound h (fun e => (u e).elim)) (fun _ e => ?_)
        rw [State.setTest_test] at e
        exact (u e).elim
    revert w
    generalize (ite (s.test.eff.safCount = 0) s _ : State) = z
    intro w
    repeat' split
    · exact w
    · exact w
    · dsimp only
      refine State.modTest_sound w ?_
      exact fun a => a
    · exact w

theorem execSafetyMessageReceived_sound {x0 x1 x2 s} (h : Sound s) : SoundO (execSafetyMessageReceived x0 x1 x2 s) := by
  unfold execSafetyMessageReceived
  repeat' (first | with_reducible assumption | with_reducible (first | apply State.at_sound | apply State.consume_sound | refine State.modTest_sound ?_ (by (first | exact fun a => a | (intro a; dsimp only; repeat' split) <;> exact a)) | apply State.perturb_sound | apply SoundO.next | exact SoundO.fault | apply SoundO.ite | apply Sound.ite | apply Sound.foldl | apply Sound.forAll | apply Sound.foldlPair | intro _ _ _) | split | dsimp only [refuse, okS, okB, okParts])

theorem State.releaseEntry_sound {s x1 x2} (h : Sound s) : Sound (State.releaseEntry s x1 x2) := by
  unfold State.releaseEntry
  repeat' (first | with_reducible assumption | with_reducible (first | apply State.demandEvent_sound | apply State.freePoints_sound | apply State.modScEntry_sound | apply Sound.ite | apply Sound.foldl | apply Sound.forAll | apply Sound.foldlPair | intro _ _ _) | split | dsimp only [refuse, okS, okB, okParts])

theorem ackEntry_sound {x0 s} (h : Sound s) : Sound (ackEntry x0 s).st := by
  unfold ackEntry okS refuse
  repeat' (first | with_reducible assumption | with_reducible (first | apply State.freePoints_sound | apply State.modScEntry_sound | apply State.msgFaultEvent_sound | apply State.releaseEntry_sound | apply State.settleEntry_sound | apply Sound.ite | apply Sound.foldl | apply Sound.forAll | apply Sound.foldlPair | intro _ _ _) | split | dsimp only [refuse, okS, okB, okParts])

theorem ackInput_sound {x0 s} (h : Sound s) : Sound (ackInput x0 s).st := by
  unfold ackInput okS refuse
  repeat' (first | with_reducible assumption | with_reducible (first | apply State.discEvent_sound | apply State.modSafIn_sound | apply State.release4_sound | apply State.releaseInput_sound | apply State.releaseOwn_sound | apply State.settleInput_sound | apply Sound.ite | apply Sound.foldl | apply Sound.forAll | apply Sound.foldlPair | intro _ _ _) | split | dsimp only [refuse, okS, okB, okParts])

theorem serveSafetyAcknowledge_sound {x0 s} (h : Sound s) : Sound (serveSafetyAcknowledge x0 s).st := by
  unfold serveSafetyAcknowledge refuse
  repeat' (first | with_reducible assumption | with_reducible (first | apply ackEntry_sound | apply ackInput_sound | apply Sound.ite | apply Sound.foldl | apply Sound.forAll | apply Sound.foldlPair | intro _ _ _) | split | dsimp only [refuse, okS, okB, okParts])

theorem serveSafetyStatus_sound {x0 s} (h : Sound s) : Sound (serveSafetyStatus x0 s).st := by
  unfold serveSafetyStatus okB refuse
  repeat' (first | with_reducible assumption | with_reducible (first | apply Sound.ite | apply Sound.foldl | apply Sound.forAll | apply Sound.foldlPair | intro _ _ _) | split | dsimp only [refuse, okS, okB, okParts])

theorem execSafetyDiscrepancyLatch_sound {x0 x1 s} (h : Sound s) : SoundO (execSafetyDiscrepancyLatch x0 x1 s) := by
  unfold execSafetyDiscrepancyLatch
  repeat' (first | with_reducible assumption | with_reducible (first | apply State.addCause_sound | apply State.at_sound | apply State.discEvent_sound | apply State.hold4_sound | apply State.modSafIn_sound | apply SoundO.next | exact SoundO.fault | apply SoundO.ite | apply Sound.ite | apply Sound.foldl | apply Sound.forAll | apply Sound.foldlPair | intro _ _ _) | split | dsimp only [refuse, okS, okB, okParts])

theorem execSafetyMessageSend_sound {x0 x1 s} (h : Sound s) : SoundO (execSafetyMessageSend x0 x1 s) := by
  unfold execSafetyMessageSend
  repeat' (first | with_reducible assumption | with_reducible (first | apply State.at_sound | apply State.modScEntry_sound | refine State.modTest_sound ?_ (by (first | exact fun a => a | (intro a; dsimp only; repeat' split) <;> exact a)) | apply State.perturb_sound | apply SoundO.next | exact SoundO.fault | apply SoundO.ite | apply Sound.ite | apply Sound.foldl | apply Sound.forAll | apply Sound.foldlPair | intro _ _ _) | split | dsimp only [refuse, okS, okB, okParts])

theorem execSiLevelChange_sound {x0 x1 x2 x3 x4 s} (h : Sound s) : SoundO (execSiLevelChange x0 x1 x2 x3 x4 s) := by
  unfold execSiLevelChange
  repeat' (first | with_reducible assumption | with_reducible (first | apply State.at_sound | refine State.modSaf_sound ?_ (by (first | exact fun a => a | exact fun a => by simpa [upd] using a | (intro a; (try dsimp only); repeat' split) <;> first | exact a | simpa [upd] using a | simp_all)) (by (first | exact fun a => a | exact fun a => by simpa [upd] using a | (intro a; (try dsimp only); repeat' split) <;> first | exact a | simpa [upd] using a | simp_all)) | apply State.modSafIn_sound | apply State.runInput_sound | apply State.settleInput_sound | apply SoundO.next | exact SoundO.fault | apply SoundO.ite | apply Sound.ite | apply Sound.foldl | apply Sound.forAll | apply Sound.foldlPair | intro _ _ _) | split | dsimp only [refuse, okS, okB, okParts])

theorem execTestSafetyDelayRelease_sound {x0 s} (h : Sound s) : SoundO (execTestSafetyDelayRelease x0 s) := by
  unfold execTestSafetyDelayRelease
  repeat' (first | with_reducible assumption | with_reducible (first | apply State.at_sound | apply State.consume_sound | apply State.modScEntry_sound | refine State.modTest_sound ?_ (by (first | exact fun a => a | (intro a; dsimp only; repeat' split) <;> exact a)) | apply SoundO.next | exact SoundO.fault | apply SoundO.ite | apply Sound.ite | apply Sound.foldl | apply Sound.forAll | apply Sound.foldlPair | intro _ _ _) | split | dsimp only [refuse, okS, okB, okParts])

theorem execSafetyAcknowledge_sound {x0 x1 s} (h : Sound s) : SoundO (execSafetyAcknowledge x0 x1 s) := hostCmd_sound h (fun _ _ a => serveSafetyAcknowledge_sound a)

theorem execSafetyAutoRelease_sound {x0 x1 s} (h : Sound s) : SoundO (execSafetyAutoRelease x0 x1 s) := by
  unfold execSafetyAutoRelease
  repeat' (first | with_reducible assumption | with_reducible (first | apply State.at_sound | apply State.releaseEntry_sound | apply State.releaseInput_sound | apply State.releaseOwn_sound | apply SoundO.next | exact SoundO.fault | apply SoundO.ite | apply Sound.ite | apply Sound.foldl | apply Sound.forAll | apply Sound.foldlPair | intro _ _ _) | split | dsimp only [refuse, okS, okB, okParts])

theorem execSealChange_sound {x0 x1 x2 x3 s} (h : Sound s) : SoundO (execSealChange x0 x1 x2 x3 s) := by
  unfold execSealChange
  repeat' (first | with_reducible assumption | with_reducible (first | apply State.at_sound | refine State.modSaf_sound ?_ (by (first | exact fun a => a | exact fun a => by simpa [upd] using a | (intro a; (try dsimp only); repeat' split) <;> first | exact a | simpa [upd] using a | simp_all)) (by (first | exact fun a => a | exact fun a => by simpa [upd] using a | (intro a; (try dsimp only); repeat' split) <;> first | exact a | simpa [upd] using a | simp_all)) | apply State.sealChange_sound | apply SoundO.next | exact SoundO.fault | apply SoundO.ite | apply Sound.ite | apply Sound.foldl | apply Sound.forAll | apply Sound.foldlPair | intro _ _ _) | split | dsimp only [refuse, okS, okB, okParts])

theorem execSafetyTimeExpectationExpiry_sound {x0 x1 s} (h : Sound s) : SoundO (execSafetyTimeExpectationExpiry x0 x1 s) := by
  unfold execSafetyTimeExpectationExpiry
  repeat' (first | with_reducible assumption | with_reducible (first | apply State.at_sound | apply State.faultEntry_sound | apply SoundO.next | exact SoundO.fault | apply SoundO.ite | apply Sound.ite | apply Sound.foldl | apply Sound.forAll | apply Sound.foldlPair | intro _ _ _) | split | dsimp only [refuse, okS, okB, okParts])

theorem execSafetyStatus_sound {x0 x1 s} (h : Sound s) : SoundO (execSafetyStatus x0 x1 s) := hostCmd_sound h (fun _ _ a => serveSafetyStatus_sound a)

end Sys2Proof.Machine
end

