-- ==== Sys2Proof/Laws/SoundSessionRun.lean ====
section
/-!
SUPPORT. Each operation of Machine/SessionRun.lean keeps the invariant `Sound`.
-/

namespace Sys2Proof.Machine

theorem State.ackBackup_sound {s x1} (h : Sound s) : Sound (State.ackBackup s x1) := by
  unfold State.ackBackup
  repeat' (first | with_reducible assumption | with_reducible (first | apply State.modOut_sound | apply State.release4_sound | apply Sound.ite | apply Sound.foldl | apply Sound.forAll | apply Sound.foldlPair | intro _ _ _) | split | dsimp only [refuse, okS, okB, okParts])

theorem State.ackResidual_sound {s x1} (h : Sound s) : SoundQ (State.ackResidual s x1) := by
  unfold State.ackResidual
  repeat' (first | with_reducible assumption | with_reducible (first | apply State.rcdEvent_sound | apply State.releaseRcd_sound | apply SoundQ.some | exact SoundQ.none | apply SoundQ.ite | apply Sound.ite | apply Sound.foldl | apply Sound.forAll | apply Sound.foldlPair | intro _ _ _) | split | dsimp only [refuse, okS, okB, okParts])

theorem serveFaultAcknowledge_sound {x0 s} (h : Sound s) : Sound (serveFaultAcknowledge x0 s).st := by
  unfold serveFaultAcknowledge onSession1 okS refuse onSession
  repeat' (first | with_reducible assumption | with_reducible (first | apply State.ackBackup_sound | apply State.backToIdle_sound | apply State.freshPilot_sound | apply Sound.ite | apply Sound.foldl | apply Sound.forAll | apply Sound.foldlPair | intro _ _ _) | split | dsimp only [refuse, okS, okB, okParts] | refine State.ackResidual_sound ?_ _ (by assumption))

theorem State.decideCauses_sound {s x1} (h : Sound s) : Sound (State.decideCauses s x1) := by
  unfold State.decideCauses
  repeat' (first | with_reducible assumption | with_reducible (first | apply State.modSes_sound | apply State.startStopping_sound | apply State.toFault_sound | apply Sound.ite | apply Sound.foldl | apply Sound.forAll | apply Sound.foldlPair | intro _ _ _) | split | dsimp only [refuse, okS, okB, okParts])

theorem State.limitCauses_sound {s x1} (h : Sound s) : Sound (State.limitCauses s x1) := by
  unfold State.limitCauses
  repeat' (first | with_reducible assumption | with_reducible (first | apply State.addCause_sound | apply Sound.ite | apply Sound.foldl | apply Sound.forAll | apply Sound.foldlPair | intro _ _ _) | split | dsimp only [refuse, okS, okB, okParts])

theorem State.sessionDecide_sound {s x1} (h : Sound s) : Sound (State.sessionDecide s x1) := by
  unfold State.sessionDecide
  repeat' (first | with_reducible assumption | with_reducible (first | apply State.decideCauses_sound | apply State.limitCauses_sound | apply State.startTransfer_sound | apply State.stopOff_sound | apply Sound.ite | apply Sound.foldl | apply Sound.forAll | apply Sound.foldlPair | intro _ _ _) | split | dsimp only [refuse, okS, okB, okParts])

theorem serveSessionStatus_sound {x0 s} (h : Sound s) : Sound (serveSessionStatus x0 s).st := by
  unfold serveSessionStatus onSession1 okB onSession
  repeat' (first | with_reducible assumption | with_reducible (first | apply Sound.ite | apply Sound.foldl | apply Sound.forAll | apply Sound.foldlPair | intro _ _ _) | split | dsimp only [refuse, okS, okB, okParts])

theorem execAuthTimeout_sound {x0 x1 s} (h : Sound s) : SoundO (execAuthTimeout x0 x1 s) := by
  unfold execAuthTimeout
  repeat' (first | with_reducible assumption | with_reducible (first | apply State.at_sound | apply State.backToIdle_sound | apply SoundO.next | exact SoundO.fault | apply SoundO.ite | apply Sound.ite | apply Sound.foldl | apply Sound.forAll | apply Sound.foldlPair | intro _ _ _) | split | dsimp only [refuse, okS, okB, okParts])

theorem execStopSettleExpiry_sound {x0 x1 s} (h : Sound s) : SoundO (execStopSettleExpiry x0 x1 s) := by
  unfold execStopSettleExpiry
  repeat' (first | with_reducible assumption | with_reducible (first | apply State.at_sound | apply State.close_sound | apply SoundO.next | exact SoundO.fault | apply SoundO.ite | apply Sound.ite | apply Sound.foldl | apply Sound.forAll | apply Sound.foldlPair | intro _ _ _) | split | dsimp only [refuse, okS, okB, okParts])

theorem State.closeAtPeriod_sound {s x1 x2} (h : Sound s) : Sound (State.closeAtPeriod s x1 x2) := by
  unfold State.closeAtPeriod
  repeat' (first | with_reducible assumption | with_reducible (first | apply State.buildEnd_sound | apply State.close_sound | apply State.modSes_sound | apply State.pathOff_sound | apply Sound.ite | apply Sound.foldl | apply Sound.forAll | apply Sound.foldlPair | intro _ _ _) | split | dsimp only [refuse, okS, okB, okParts])

theorem State.sessionFrameStart_sound {s x1 x2} (h : Sound s) : Sound (State.sessionFrameStart s x1 x2) := by
  unfold State.sessionFrameStart
  repeat' (first | with_reducible assumption | with_reducible (first | apply State.buildStart_sound | apply Sound.ite | apply Sound.foldl | apply Sound.forAll | apply Sound.foldlPair | intro _ _ _) | split | dsimp only [refuse, okS, okB, okParts])

theorem serveSessionAuthorise_sound {x0 s} (h : Sound s) : Sound (serveSessionAuthorise x0 s).st := by
  unfold serveSessionAuthorise onSession okB refuse
  repeat' (first | with_reducible assumption | with_reducible (first | apply State.authorise_sound | apply State.modOut_sound | apply Sound.ite | apply Sound.foldl | apply Sound.forAll | apply Sound.foldlPair | intro _ _ _) | split | dsimp only [refuse, okS, okB, okParts])

theorem execSessionAuthorise_sound {x0 x1 s} (h : Sound s) : SoundO (execSessionAuthorise x0 x1 s) := hostCmd_sound h (fun _ _ a => serveSessionAuthorise_sound a)

theorem State.applyModify_sound {s x1} (h : Sound s) : Sound (State.applyModify s x1) := by
  unfold State.applyModify
  repeat' (first | with_reducible assumption | with_reducible (first | apply State.modSes_sound | apply Sound.ite | apply Sound.foldl | apply Sound.forAll | apply Sound.foldlPair | intro _ _ _) | split | dsimp only [refuse, okS, okB, okParts])

theorem execStartTimeout_sound {x0 x1 s} (h : Sound s) : SoundO (execStartTimeout x0 x1 s) := by
  unfold execStartTimeout
  repeat' (first | with_reducible assumption | with_reducible (first | apply State.at_sound | apply State.backToIdle_sound | apply SoundO.next | exact SoundO.fault | apply SoundO.ite | apply Sound.ite | apply Sound.foldl | apply Sound.forAll | apply Sound.foldlPair | intro _ _ _) | split | dsimp only [refuse, okS, okB, okParts])

theorem serveSessionCancel_sound {x0 s} (h : Sound s) : Sound (serveSessionCancel x0 s).st := by
  unfold serveSessionCancel onSession1 okS refuse onSession
  repeat' (first | with_reducible assumption | with_reducible (first | apply State.backToIdle_sound | apply Sound.ite | apply Sound.foldl | apply Sound.forAll | apply Sound.foldlPair | intro _ _ _) | split | dsimp only [refuse, okS, okB, okParts])

theorem execSessionCancel_sound {x0 x1 s} (h : Sound s) : SoundO (execSessionCancel x0 x1 s) := hostCmd_sound h (fun _ _ a => serveSessionCancel_sound a)

theorem execSessionStatus_sound {x0 x1 s} (h : Sound s) : SoundO (execSessionStatus x0 x1 s) := hostCmd_sound h (fun _ _ a => serveSessionStatus_sound a)

theorem serveSessionModify_sound {x0 s} (h : Sound s) : Sound (serveSessionModify x0 s).st := by
  unfold serveSessionModify onSession okS refuse
  repeat' (first | with_reducible assumption | with_reducible (first | apply State.modSes_sound | apply Sound.ite | apply Sound.foldl | apply Sound.forAll | apply Sound.foldlPair | intro _ _ _) | split | dsimp only [refuse, okS, okB, okParts])

theorem serveSessionReject_sound {x0 s} (h : Sound s) : Sound (serveSessionReject x0 s).st := by
  unfold serveSessionReject onSession1 okS refuse onSession
  repeat' (first | with_reducible assumption | with_reducible (first | apply State.backToIdle_sound | apply Sound.ite | apply Sound.foldl | apply Sound.forAll | apply Sound.foldlPair | intro _ _ _) | split | dsimp only [refuse, okS, okB, okParts])

theorem serveSessionRequest_sound {x0 s} (h : Sound s) : Sound (serveSessionRequest x0 s).st := by
  unfold serveSessionRequest onSession1 okS refuse onSession
  repeat' (first | with_reducible assumption | with_reducible (first | apply State.enterState_sound | apply Sound.ite | apply Sound.foldl | apply Sound.forAll | apply Sound.foldlPair | intro _ _ _) | split | dsimp only [refuse, okS, okB, okParts])

theorem serveSessionRevoke_sound {x0 s} (h : Sound s) : Sound (serveSessionRevoke x0 s).st := by
  unfold serveSessionRevoke onSession1 okS refuse onSession
  repeat' (first | with_reducible assumption | with_reducible (first | apply State.addCause_sound | apply Sound.ite | apply Sound.foldl | apply Sound.forAll | apply Sound.foldlPair | intro _ _ _) | split | dsimp only [refuse, okS, okB, okParts])

theorem serveSessionStop_sound {x0 s} (h : Sound s) : Sound (serveSessionStop x0 s).st := by
  unfold serveSessionStop onSession1 okS refuse onSession
  repeat' (first | with_reducible assumption | with_reducible (first | apply State.addCause_sound | apply Sound.ite | apply Sound.foldl | apply Sound.forAll | apply Sound.foldlPair | intro _ _ _) | split | dsimp only [refuse, okS, okB, okParts])

theorem State.sessionFrameEnd_sound {s x1 x2 x3 x4 x5} (h : Sound s) : Sound (State.sessionFrameEnd s x1 x2 x3 x4 x5) := by
  unfold State.sessionFrameEnd
  repeat' (first | with_reducible assumption | with_reducible (first | apply State.buildEnd_sound | apply State.modPt_sound | apply Sound.ite | apply Sound.foldl | apply Sound.forAll | apply Sound.foldlPair | intro _ _ _) | split | dsimp only [refuse, okS, okB, okParts])

theorem execFaultAcknowledge_sound {x0 x1 s} (h : Sound s) : SoundO (execFaultAcknowledge x0 x1 s) := hostCmd_sound h (fun _ _ a => serveFaultAcknowledge_sound a)

theorem execSessionRevoke_sound {x0 x1 s} (h : Sound s) : SoundO (execSessionRevoke x0 x1 s) := hostCmd_sound h (fun _ _ a => serveSessionRevoke_sound a)

theorem execSessionRequest_sound {x0 x1 s} (h : Sound s) : SoundO (execSessionRequest x0 x1 s) := hostCmd_sound h (fun _ _ a => serveSessionRequest_sound a)

theorem execStopGraceExpiry_sound {x0 x1 s} (h : Sound s) : SoundO (execStopGraceExpiry x0 x1 s) := by
  unfold execStopGraceExpiry
  repeat' (first | with_reducible assumption | with_reducible (first | apply State.at_sound | apply State.stopOff_sound | apply SoundO.next | exact SoundO.fault | apply SoundO.ite | apply Sound.ite | apply Sound.foldl | apply Sound.forAll | apply Sound.foldlPair | intro _ _ _) | split | dsimp only [refuse, okS, okB, okParts])

theorem execSessionModify_sound {x0 x1 s} (h : Sound s) : SoundO (execSessionModify x0 x1 s) := hostCmd_sound h (fun _ _ a => serveSessionModify_sound a)

theorem execSessionReject_sound {x0 x1 s} (h : Sound s) : SoundO (execSessionReject x0 x1 s) := hostCmd_sound h (fun _ _ a => serveSessionReject_sound a)

theorem execSessionStop_sound {x0 x1 s} (h : Sound s) : SoundO (execSessionStop x0 x1 s) := hostCmd_sound h (fun _ _ a => serveSessionStop_sound a)

end Sys2Proof.Machine
end

