-- ==== Sys2Proof/Laws/SoundAccumulate.lean ====
section
/-!
SUPPORT. Each operation of Machine/Accumulate.lean keeps the invariant `Sound`.
-/

namespace Sys2Proof.Machine

theorem State.writeBank_sound {s x1} (h : Sound s) : Sound (State.writeBank s x1) := by
  unfold State.writeBank
  repeat' (first | with_reducible assumption | with_reducible (first | apply State.modLed_sound | apply State.modPwr_sound | apply Sound.ite | apply Sound.foldl | apply Sound.forAll | apply Sound.foldlPair | intro _ _ _) | split | dsimp only [refuse, okS, okB, okParts])

theorem State.afterFrame_sound {s x1} (h : Sound s) : Sound (State.afterFrame s x1) := by
  unfold State.afterFrame
  repeat' (first | with_reducible assumption | with_reducible (first | apply State.noteWeld_sound | apply State.reportTrip_sound | apply State.sessionDecide_sound | apply Sound.ite | apply Sound.foldl | apply Sound.forAll | apply Sound.foldlPair | intro _ _ _) | split | dsimp only [refuse, okS, okB, okParts])

theorem State.rollover_sound {s x1 x2 x3 x4 x5} (h : Sound s) : Sound (State.rollover s x1 x2 x3 x4 x5) := by
  unfold State.rollover
  repeat' (first | with_reducible assumption | with_reducible (first | apply State.raiseRaw_sound | apply Sound.ite | apply Sound.foldl | apply Sound.forAll | apply Sound.foldlPair | intro _ _ _) | split | dsimp only [refuse, okS, okB, okParts])

theorem State.addReg_sound {s x1 x2 x3 x4} (h : Sound s) : Sound (State.addReg s x1 x2 x3 x4) := by
  unfold State.addReg
  repeat' (first | with_reducible assumption | with_reducible (first | apply State.buildEvent_sound | apply State.modPt_sound | apply State.rollover_sound | apply Sound.ite | apply Sound.foldl | apply Sound.forAll | apply Sound.foldlPair | intro _ _ _) | split | dsimp only [refuse, okS, okB, okParts])

theorem State.addQuantities_sound {s x1 x2 x3} (h : Sound s) : Sound (State.addQuantities s x1 x2 x3) := by
  unfold State.addQuantities
  repeat' (first | with_reducible assumption | with_reducible (first | apply State.addReg_sound | apply Sound.ite | apply Sound.foldl | apply Sound.forAll | apply Sound.foldlPair | intro _ _ _) | split | dsimp only [refuse, okS, okB, okParts])

theorem State.completeEntry_sound {s x1} (h : Sound s) : Sound (State.completeEntry s x1) := by
  unfold State.completeEntry
  repeat' (first | with_reducible assumption | with_reducible (first | apply State.modLed_sound | refine State.modPts_sound ?_ (by (first | exact fun a => a | exact fun a => by simpa [upd] using a | (intro a; (try dsimp only); repeat' split) <;> first | exact a | simpa [upd] using a | simp_all)) | apply Sound.ite | apply Sound.foldl | apply Sound.forAll | apply Sound.foldlPair | intro _ _ _) | split | dsimp only [refuse, okS, okB, okParts])

theorem State.saveLedger_sound {s x1 x2} (h : Sound s) : Sound (State.saveLedger s x1 x2) := by
  unfold State.saveLedger
  repeat' (first | with_reducible assumption | with_reducible (first | apply State.modLed_sound | refine State.modPts_sound ?_ (by (first | exact fun a => a | exact fun a => by simpa [upd] using a | (intro a; (try dsimp only); repeat' split) <;> first | exact a | simpa [upd] using a | simp_all)) | apply Sound.ite | apply Sound.foldl | apply Sound.forAll | apply Sound.foldlPair | intro _ _ _) | split | dsimp only [refuse, okS, okB, okParts])

theorem State.nodeFrame_sound {s x1} (h : Sound s) : Sound (State.nodeFrame s x1) := by
  unfold State.nodeFrame
  repeat' (first | with_reducible assumption | with_reducible (first | apply State.joinDue_sound | apply State.modRecs_sound | apply Sound.ite | apply Sound.foldl | apply Sound.forAll | apply Sound.foldlPair | intro _ _ _) | split | dsimp only [refuse, okS, okB, okParts])

theorem State.addPoint_sound {s x1 x2} (h : Sound s) : Sound (State.addPoint s x1 x2) := by
  unfold State.addPoint
  repeat' (first | with_reducible assumption | with_reducible (first | apply State.addCause_sound | apply State.addQuantities_sound | apply State.buildLate_sound | apply State.joinRecords_sound | apply State.modPt_sound | apply State.sessionFrameEnd_sound | apply State.sessionFrameStart_sound | apply Sound.ite | apply Sound.foldl | apply Sound.forAll | apply Sound.foldlPair | intro _ _ _) | split | dsimp only [refuse, okS, okB, okParts])

theorem State.addPulses_sound {s x1 x2} (h : Sound s) : Sound (State.addPulses s x1 x2) := by
  unfold State.addPulses
  repeat' (first | with_reducible assumption | with_reducible (first | apply State.mpoFrame_sound | apply Sound.ite | apply Sound.foldl | apply Sound.forAll | apply Sound.foldlPair | intro _ _ _) | split | dsimp only [refuse, okS, okB, okParts])

theorem State.warningEvent_sound {s x1 x2 x3} (h : Sound s) : Sound (State.warningEvent s x1 x2 x3) := by
  unfold State.warningEvent
  repeat' (first | with_reducible assumption | with_reducible (first | apply State.raise_sound | apply Sound.ite | apply Sound.foldl | apply Sound.forAll | apply Sound.foldlPair | intro _ _ _) | split | dsimp only [refuse, okS, okB, okParts])

theorem State.holdup_sound {s x1} (h : Sound s) : Sound (State.holdup s x1) := by
  unfold State.holdup
  repeat' (first | with_reducible assumption | with_reducible (first | apply State.modLed_sound | apply State.saveLedger_sound | apply State.warningEvent_sound | apply State.writeBank_sound | apply Sound.ite | apply Sound.foldl | apply Sound.forAll | apply Sound.foldlPair | intro _ _ _) | split | dsimp only [refuse, okS, okB, okParts])

theorem State.parityEvent_sound {s x1 x2} (h : Sound s) : Sound (State.parityEvent s x1 x2) := by
  unfold State.parityEvent
  repeat' (first | with_reducible assumption | with_reducible (first | apply State.raise_sound | apply Sound.ite | apply Sound.foldl | apply Sound.forAll | apply Sound.foldlPair | intro _ _ _) | split | dsimp only [refuse, okS, okB, okParts])

theorem State.accumulate_sound {s x1} (h : Sound s) : Sound (State.accumulate s x1) := by
  unfold State.accumulate
  repeat' (first | with_reducible assumption | with_reducible (first | apply State.addPoint_sound | apply State.addPulses_sound | apply State.afterFrame_sound | apply State.holdup_sound | apply State.idleSwitches_sound | apply State.modEng_sound | apply State.nodeFrame_sound | apply State.parityEvent_sound | apply State.reapplyAll_sound | apply State.seeFailsafe_sound | apply State.settleOwnStop_sound | apply State.startWaitingTests_sound | apply Sound.ite | apply Sound.foldl | apply Sound.forAll | apply Sound.foldlPair | intro _ _ _) | split | dsimp only [refuse, okS, okB, okParts])

theorem execFrameAccumulate_sound {x0 s} (h : Sound s) : SoundO (execFrameAccumulate x0 s) := by
  unfold execFrameAccumulate
  repeat' (first | with_reducible assumption | with_reducible (first | apply State.accumulate_sound | apply State.at_sound | apply State.modEng_sound | apply SoundO.next | exact SoundO.fault | apply SoundO.ite | apply Sound.ite | apply Sound.foldl | apply Sound.forAll | apply Sound.foldlPair | intro _ _ _) | split | dsimp only [refuse, okS, okB, okParts])

end Sys2Proof.Machine
end

