-- ==== Sys2Proof/Laws/SoundChain.lean ====
section
/-!
SUPPORT. Each operation of Machine/Chain.lean keeps the invariant `Sound`.
-/

namespace Sys2Proof.Machine

theorem State.ripened_sound {s} (h : Sound s) : Sound (State.ripened s) := by
  unfold State.ripened
  repeat' (first | with_reducible assumption | with_reducible (first | apply State.modPar_sound | apply Sound.ite | apply Sound.foldl | apply Sound.forAll | apply Sound.foldlPair | intro _ _ _) | split | dsimp only [refuse, okS, okB, okParts])

theorem State.courseEvent_sound {s x1 x2} (h : Sound s) : Sound (State.courseEvent s x1 x2) := by
  unfold State.courseEvent
  repeat' (first | with_reducible assumption | with_reducible (first | apply State.raiseRaw_sound | apply Sound.ite | apply Sound.foldl | apply Sound.forAll | apply Sound.foldlPair | intro _ _ _) | split | dsimp only [refuse, okS, okB, okParts])

theorem State.clipEvent_sound {s x1 x2 x3 x4 x5} (h : Sound s) : Sound (State.clipEvent s x1 x2 x3 x4 x5) := by
  unfold State.clipEvent
  repeat' (first | with_reducible assumption | with_reducible (first | apply State.modSlice_sound | apply State.raise_sound | apply Sound.ite | apply Sound.foldl | apply Sound.forAll | apply Sound.foldlPair | intro _ _ _) | split | dsimp only [refuse, okS, okB, okParts])

theorem State.channelChecks_sound {s x1 x2 x3} (h : Sound s) : Sound (State.channelChecks s x1 x2 x3) := by
  unfold State.channelChecks
  repeat' (first | with_reducible assumption | with_reducible (first | apply State.clipEvent_sound | apply State.modSlice_sound | apply Sound.ite | apply Sound.foldl | apply Sound.forAll | apply Sound.foldlPair | intro _ _ _) | split | dsimp only [refuse, okS, okB, okParts])

theorem State.crossCheck_sound {s x1 x2} (h : Sound s) : Sound (State.crossCheck s x1 x2) := by
  unfold State.crossCheck
  repeat' (first | with_reducible assumption | with_reducible (first | apply State.courseEvent_sound | apply State.modCourse_sound | apply State.modEng_sound | apply Sound.ite | apply Sound.foldl | apply Sound.forAll | apply Sound.foldlPair | intro _ _ _) | split | dsimp only [refuse, okS, okB, okParts])

theorem State.hardware_sound {s x1 x2} (h : Sound s) : Sound (State.hardware s x1 x2) := State.modSlices_sound h (fun a => by simpa using a)

end Sys2Proof.Machine
end

