-- ==== Sys2Proof/Laws/SoundTimeKeep.lean ====
section
/-!
SUPPORT. Each operation of Machine/TimeKeep.lean keeps the invariant `Sound`.
-/

namespace Sys2Proof.Machine

theorem State.modTci_sound {s x1 x2} (h : Sound s) : Sound (State.modTci s x1 x2) := by
  unfold State.modTci
  repeat' (first | with_reducible assumption | with_reducible (first | refine State.modServo_sound ?_ (by (first | exact fun a => a | exact fun a => by simpa [upd] using a | exact fun a => by simpa [upd, Servo.clearRuns] using a | (intro a; (try dsimp only); repeat' split) <;> first | exact a | simpa [upd] using a | simp_all)) (by (first | exact fun a => a | exact fun a => by simpa [upd] using a | exact fun a => by simpa [upd, Servo.clearRuns] using a | (intro a; (try dsimp only); repeat' split) <;> first | exact a | simpa [upd] using a | simp_all)) | apply Sound.ite | apply Sound.foldl | apply Sound.forAll | apply Sound.foldlPair | intro _ _ _) | split | dsimp only [refuse, okS, okB, okParts])

theorem serveTciRead_sound {x0 s} (h : Sound s) : Sound (serveTciRead x0 s).st := by
  unfold serveTciRead okB refuse
  repeat' (first | with_reducible assumption | with_reducible (first | apply State.modTci_sound | apply State.raise_sound | apply Sound.ite | apply Sound.foldl | apply Sound.forAll | apply Sound.foldlPair | intro _ _ _) | split | dsimp only [refuse, okS, okB, okParts])

theorem execTciRead_sound {x0 x1 s} (h : Sound s) : SoundO (execTciRead x0 x1 s) := hostCmd_sound h (fun _ _ a => serveTciRead_sound a)

theorem State.timeEvent_sound {s x1 x2 x3 x4 x5 x6 x7 x8} (h : Sound s) : Sound (State.timeEvent s x1 x2 x3 x4 x5 x6 x7 x8) := by
  unfold State.timeEvent
  repeat' (first | with_reducible assumption | with_reducible (first | apply State.raiseRaw_sound | apply Sound.ite | apply Sound.foldl | apply Sound.forAll | apply Sound.foldlPair | intro _ _ _) | split | dsimp only [refuse, okS, okB, okParts])

theorem State.enterHoldover_sound {s} (h : Sound s) : Sound (State.enterHoldover s) := by
  unfold State.enterHoldover
  repeat' (first | with_reducible assumption | with_reducible (first | apply State.bump_sound | refine State.modServo_sound ?_ (by (first | exact fun a => a | exact fun a => by simpa [upd] using a | exact fun a => by simpa [upd, Servo.clearRuns] using a | (intro a; (try dsimp only); repeat' split) <;> first | exact a | simpa [upd] using a | simp_all)) (by (first | exact fun a => a | exact fun a => by simpa [upd] using a | exact fun a => by simpa [upd, Servo.clearRuns] using a | (intro a; (try dsimp only); repeat' split) <;> first | exact a | simpa [upd] using a | simp_all)) | apply State.queueFault_sound | apply State.timeEvent_sound | apply Sound.ite | apply Sound.foldl | apply Sound.forAll | apply Sound.foldlPair | intro _ _ _) | split | dsimp only [refuse, okS, okB, okParts])

theorem State.loseSource_sound {s x1} (h : Sound s) : Sound (State.loseSource s x1) := by
  unfold State.loseSource
  repeat' (first | with_reducible assumption | with_reducible (first | apply State.enterHoldover_sound | apply Sound.ite | apply Sound.foldl | apply Sound.forAll | apply Sound.foldlPair | intro _ _ _) | split | dsimp only [refuse, okS, okB, okParts])

theorem State.linkDetail_sound {s x1 x2} (h : Sound s) : Sound (State.linkDetail s x1 x2) := by
  unfold State.linkDetail
  repeat' (first | with_reducible assumption | with_reducible (first | apply State.raiseMid_sound | apply Sound.ite | apply Sound.foldl | apply Sound.forAll | apply Sound.foldlPair | intro _ _ _) | split | dsimp only [refuse, okS, okB, okParts])

theorem State.neighbourEvent_sound {s x1 x2 x3 x4 x5 x6} (h : Sound s) : Sound (State.neighbourEvent s x1 x2 x3 x4 x5 x6) := by
  unfold State.neighbourEvent
  repeat' (first | with_reducible assumption | with_reducible (first | apply State.linkDetail_sound | apply Sound.ite | apply Sound.foldl | apply Sound.forAll | apply Sound.foldlPair | intro _ _ _) | split | dsimp only [refuse, okS, okB, okParts])

theorem serveTciSet_sound {x0 s} (h : Sound s) : Sound (serveTciSet x0 s).st := by
  unfold serveTciSet okS refuse
  repeat' (first | with_reducible assumption | with_reducible (first | apply State.modTci_sound | apply Sound.ite | apply Sound.foldl | apply Sound.forAll | apply Sound.foldlPair | intro _ _ _) | split | dsimp only [refuse, okS, okB, okParts])

theorem serveTimeAccept_sound {x0 x1 s} (h : Sound s) : Sound (serveTimeAccept x0 x1 s).st := by
  unfold serveTimeAccept withLog okS refuse
  repeat' (first | with_reducible assumption | with_reducible (first | apply State.enterHost_sound | apply State.logRefused_sound | refine State.modServo_sound ?_ (by (first | exact fun a => a | exact fun a => by simpa [upd] using a | exact fun a => by simpa [upd, Servo.clearRuns] using a | (intro a; (try dsimp only); repeat' split) <;> first | exact a | simpa [upd] using a | simp_all)) (by (first | exact fun a => a | exact fun a => by simpa [upd] using a | exact fun a => by simpa [upd, Servo.clearRuns] using a | (intro a; (try dsimp only); repeat' split) <;> first | exact a | simpa [upd] using a | simp_all)) | apply Sound.ite | apply Sound.foldl | apply Sound.forAll | apply Sound.foldlPair | intro _ _ _) | split | dsimp only [refuse, okS, okB, okParts])

theorem serveTimeStatus_sound {x0 s} (h : Sound s) : Sound (serveTimeStatus x0 s).st := by
  unfold serveTimeStatus noPayload okB
  repeat' (first | with_reducible assumption | with_reducible (first | apply Sound.ite | apply Sound.foldl | apply Sound.forAll | apply Sound.foldlPair | intro _ _ _) | split | dsimp only [refuse, okS, okB, okParts])

theorem State.modTto_sound {s x1 x2} (h : Sound s) : Sound (State.modTto s x1 x2) := by
  unfold State.modTto
  repeat' (first | with_reducible assumption | with_reducible (first | refine State.modServo_sound ?_ (by (first | exact fun a => a | exact fun a => by simpa [upd] using a | exact fun a => by simpa [upd, Servo.clearRuns] using a | (intro a; (try dsimp only); repeat' split) <;> first | exact a | simpa [upd] using a | simp_all)) (by (first | exact fun a => a | exact fun a => by simpa [upd] using a | exact fun a => by simpa [upd, Servo.clearRuns] using a | (intro a; (try dsimp only); repeat' split) <;> first | exact a | simpa [upd] using a | simp_all)) | apply Sound.ite | apply Sound.foldl | apply Sound.forAll | apply Sound.foldlPair | intro _ _ _) | split | dsimp only [refuse, okS, okB, okParts])

theorem serveTtoSet_sound {x0 s} (h : Sound s) : Sound (serveTtoSet x0 s).st := by
  unfold serveTtoSet okS refuse
  repeat' (first | with_reducible assumption | with_reducible (first | apply State.modTto_sound | apply Sound.ite | apply Sound.foldl | apply Sound.forAll | apply Sound.foldlPair | intro _ _ _) | split | dsimp only [refuse, okS, okB, okParts])

theorem State.noteTx_sound {s x1} (h : Sound s) : Sound (State.noteTx s x1) := by
  unfold State.noteTx
  repeat' (first | with_reducible assumption | with_reducible (first | refine State.modServo_sound ?_ (by (first | exact fun a => a | exact fun a => by simpa [upd] using a | exact fun a => by simpa [upd, Servo.clearRuns] using a | (intro a; (try dsimp only); repeat' split) <;> first | exact a | simpa [upd] using a | simp_all)) (by (first | exact fun a => a | exact fun a => by simpa [upd] using a | exact fun a => by simpa [upd, Servo.clearRuns] using a | (intro a; (try dsimp only); repeat' split) <;> first | exact a | simpa [upd] using a | simp_all)) | apply Sound.ite | apply Sound.foldl | apply Sound.forAll | apply Sound.foldlPair | intro _ _ _) | split | dsimp only [refuse, okS, okB, okParts])

theorem State.sendPtp_sound {s x1 x2 x3 x4 x5} (h : Sound s) : Sound (State.sendPtp s x1 x2 x3 x4 x5) := by
  unfold State.sendPtp
  repeat' (first | with_reducible assumption | with_reducible (first | apply State.noteTx_sound | apply Sound.ite | apply Sound.foldl | apply Sound.forAll | apply Sound.foldlPair | intro _ _ _) | split | dsimp only [refuse, okS, okB, okParts])

theorem State.forwardPtp_sound {s x1 x2 x3 x4 x5} (h : Sound s) : Sound (State.forwardPtp s x1 x2 x3 x4 x5) := by
  unfold State.forwardPtp
  repeat' (first | with_reducible assumption | with_reducible (first | apply State.bump_sound | apply State.sendPtp_sound | apply Sound.ite | apply Sound.foldl | apply Sound.forAll | apply Sound.foldlPair | intro _ _ _) | split | dsimp only [refuse, okS, okB, okParts])

theorem State.answerDelay_sound {s x1} (h : Sound s) : Sound (State.answerDelay s x1) := by
  unfold State.answerDelay
  repeat' (first | with_reducible assumption | with_reducible (first | apply State.bump_sound | apply State.forwardPtp_sound | apply State.sendPtp_sound | apply Sound.ite | apply Sound.foldl | apply Sound.forAll | apply Sound.foldlPair | intro _ _ _) | split | dsimp only [refuse, okS, okB, okParts])

theorem State.ptpDiscard_sound {s x1} (h : Sound s) : Sound (State.ptpDiscard s x1) := by
  unfold State.ptpDiscard
  repeat' (first | with_reducible assumption | with_reducible (first | refine State.modServo_sound ?_ (by (first | exact fun a => a | exact fun a => by simpa [upd] using a | exact fun a => by simpa [upd, Servo.clearRuns] using a | (intro a; (try dsimp only); repeat' split) <;> first | exact a | simpa [upd] using a | simp_all)) (by (first | exact fun a => a | exact fun a => by simpa [upd] using a | exact fun a => by simpa [upd, Servo.clearRuns] using a | (intro a; (try dsimp only); repeat' split) <;> first | exact a | simpa [upd] using a | simp_all)) | apply Sound.ite | apply Sound.foldl | apply Sound.forAll | apply Sound.foldlPair | intro _ _ _) | split | dsimp only [refuse, okS, okB, okParts])

theorem execPtpDelayMessageReceived_sound {x0 x1 s} (h : Sound s) : SoundO (execPtpDelayMessageReceived x0 x1 s) := by
  unfold execPtpDelayMessageReceived
  repeat' (first | with_reducible assumption | with_reducible (first | apply State.answerDelay_sound | apply State.at_sound | refine State.modServo_sound ?_ (by (first | exact fun a => a | exact fun a => by simpa [upd] using a | exact fun a => by simpa [upd, Servo.clearRuns] using a | (intro a; (try dsimp only); repeat' split) <;> first | exact a | simpa [upd] using a | simp_all)) (by (first | exact fun a => a | exact fun a => by simpa [upd] using a | exact fun a => by simpa [upd, Servo.clearRuns] using a | (intro a; (try dsimp only); repeat' split) <;> first | exact a | simpa [upd] using a | simp_all)) | apply State.ptpDiscard_sound | apply SoundO.next | exact SoundO.fault | apply SoundO.ite | apply Sound.ite | apply Sound.foldl | apply Sound.forAll | apply Sound.foldlPair | intro _ _ _) | split | dsimp only [refuse, okS, okB, okParts])

theorem execTciSet_sound {x0 x1 s} (h : Sound s) : SoundO (execTciSet x0 x1 s) := hostCmd_sound h (fun _ _ a => serveTciSet_sound a)

theorem State.correct_sound {s x1 x2} (h : Sound s) : Sound (State.correct s x1 x2) := by
  unfold State.correct
  repeat' (first | with_reducible assumption | with_reducible (first | refine State.modServo_sound ?_ (by (first | exact fun a => a | exact fun a => by simpa [upd] using a | exact fun a => by simpa [upd, Servo.clearRuns] using a | (intro a; (try dsimp only); repeat' split) <;> first | exact a | simpa [upd] using a | simp_all)) (by (first | exact fun a => a | exact fun a => by simpa [upd] using a | exact fun a => by simpa [upd, Servo.clearRuns] using a | (intro a; (try dsimp only); repeat' split) <;> first | exact a | simpa [upd] using a | simp_all)) | apply Sound.ite | apply Sound.foldl | apply Sound.forAll | apply Sound.foldlPair | intro _ _ _) | split | dsimp only [refuse, okS, okB, okParts])

theorem State.refuseJump_sound {s x1 x2 x3 x4 x5} (h : Sound s) : Sound (State.refuseJump s x1 x2 x3 x4 x5) := by
  unfold State.refuseJump
  repeat' (first | with_reducible assumption | with_reducible (first | apply State.enterHoldover_sound | refine State.modServo_sound ?_ (by (first | exact fun a => a | exact fun a => by simpa [upd] using a | exact fun a => by simpa [upd, Servo.clearRuns] using a | (intro a; (try dsimp only); repeat' split) <;> first | exact a | simpa [upd] using a | simp_all)) (by (first | exact fun a => a | exact fun a => by simpa [upd] using a | exact fun a => by simpa [upd, Servo.clearRuns] using a | (intro a; (try dsimp only); repeat' split) <;> first | exact a | simpa [upd] using a | simp_all)) | apply State.queueFault_sound | apply State.timeEvent_sound | apply Sound.ite | apply Sound.foldl | apply Sound.forAll | apply Sound.foldlPair | intro _ _ _) | split | dsimp only [refuse, okS, okB, okParts])

theorem State.runsOf_sound {s x1 x2 x3} (h : Sound s) : Sound (State.runsOf s x1 x2 x3) := by
  unfold State.runsOf
  repeat' (first | with_reducible assumption | with_reducible (first | refine State.modServo_sound ?_ (by (first | exact fun a => a | exact fun a => by simpa [upd] using a | exact fun a => by simpa [upd, Servo.clearRuns] using a | (intro a; (try dsimp only); repeat' split) <;> first | exact a | simpa [upd] using a | simp_all)) (by (first | exact fun a => a | exact fun a => by simpa [upd] using a | exact fun a => by simpa [upd, Servo.clearRuns] using a | (intro a; (try dsimp only); repeat' split) <;> first | exact a | simpa [upd] using a | simp_all)) | apply Sound.ite | apply Sound.foldl | apply Sound.forAll | apply Sound.foldlPair | intro _ _ _) | split | dsimp only [refuse, okS, okB, okParts])

theorem State.jumpTest_sound {s x1 x2 x3 x4 x5} (h : Sound s) : Sound (State.jumpTest s x1 x2 x3 x4 x5).2 := by
  unfold State.jumpTest
  repeat' (first | with_reducible assumption | with_reducible (first | refine State.modServo_sound ?_ (by (first | exact fun a => a | exact fun a => by simpa [upd] using a | exact fun a => by simpa [upd, Servo.clearRuns] using a | (intro a; (try dsimp only); repeat' split) <;> first | exact a | simpa [upd] using a | simp_all)) (by (first | exact fun a => a | exact fun a => by simpa [upd] using a | exact fun a => by simpa [upd, Servo.clearRuns] using a | (intro a; (try dsimp only); repeat' split) <;> first | exact a | simpa [upd] using a | simp_all)) | apply State.refuseJump_sound | apply State.runsOf_sound | apply Sound.ite | apply Sound.foldl | apply Sound.forAll | apply Sound.foldlPair | intro _ _ _) | split | dsimp only [refuse, okS, okB, okParts])

theorem State.acquire_sound {s x1 x2 x3 x4} (h : Sound s) : Sound (State.acquire s x1 x2 x3 x4) := by
  unfold State.acquire
  repeat' (first | with_reducible assumption | with_reducible (first | refine State.modServo_sound ?_ (by (first | exact fun a => a | exact fun a => by simpa [upd] using a | exact fun a => by simpa [upd, Servo.clearRuns] using a | (intro a; (try dsimp only); repeat' split) <;> first | exact a | simpa [upd] using a | simp_all)) (by (first | exact fun a => a | exact fun a => by simpa [upd] using a | exact fun a => by simpa [upd, Servo.clearRuns] using a | (intro a; (try dsimp only); repeat' split) <;> first | exact a | simpa [upd] using a | simp_all)) | apply Sound.ite | apply Sound.foldl | apply Sound.forAll | apply Sound.foldlPair | intro _ _ _) | split | dsimp only [refuse, okS, okB, okParts])

theorem State.enterLocked_sound {s x1 x2 x3 x4 x5 x6} (h : Sound s) : Sound (State.enterLocked s x1 x2 x3 x4 x5 x6) := by
  unfold State.enterLocked
  repeat' (first | with_reducible assumption | with_reducible (first | refine State.modServo_sound ?_ (by (first | exact fun a => a | exact fun a => by simpa [upd] using a | exact fun a => by simpa [upd, Servo.clearRuns] using a | (intro a; (try dsimp only); repeat' split) <;> first | exact a | simpa [upd] using a | simp_all)) (by (first | exact fun a => a | exact fun a => by simpa [upd] using a | exact fun a => by simpa [upd, Servo.clearRuns] using a | (intro a; (try dsimp only); repeat' split) <;> first | exact a | simpa [upd] using a | simp_all)) | apply State.timeEvent_sound | apply Sound.ite | apply Sound.foldl | apply Sound.forAll | apply Sound.foldlPair | intro _ _ _) | split | dsimp only [refuse, okS, okB, okParts])

theorem State.gather_sound {s x1} (h : Sound s) : Sound (State.gather s x1) := by
  unfold State.gather
  repeat' (first | with_reducible assumption | with_reducible (first | refine State.modServo_sound ?_ (by (first | exact fun a => a | exact fun a => by simpa [upd] using a | exact fun a => by simpa [upd, Servo.clearRuns] using a | (intro a; (try dsimp only); repeat' split) <;> first | exact a | simpa [upd] using a | simp_all)) (by (first | exact fun a => a | exact fun a => by simpa [upd] using a | exact fun a => by simpa [upd, Servo.clearRuns] using a | (intro a; (try dsimp only); repeat' split) <;> first | exact a | simpa [upd] using a | simp_all)) | apply Sound.ite | apply Sound.foldl | apply Sound.forAll | apply Sound.foldlPair | intro _ _ _) | split | dsimp only [refuse, okS, okB, okParts])

theorem State.mainsOffset_sound {s x1 x2} (h : Sound s) : Sound (State.mainsOffset s x1 x2) := by
  unfold State.mainsOffset
  repeat' (first | with_reducible assumption | with_reducible (first | apply State.acquire_sound | apply State.correct_sound | apply State.enterLocked_sound | apply State.gather_sound | apply State.jumpTest_sound | refine State.modServo_sound ?_ (by (first | exact fun a => a | exact fun a => by simpa [upd] using a | exact fun a => by simpa [upd, Servo.clearRuns] using a | (intro a; (try dsimp only); repeat' split) <;> first | exact a | simpa [upd] using a | simp_all)) (by (first | exact fun a => a | exact fun a => by simpa [upd] using a | exact fun a => by simpa [upd, Servo.clearRuns] using a | (intro a; (try dsimp only); repeat' split) <;> first | exact a | simpa [upd] using a | simp_all)) | apply Sound.ite | apply Sound.foldl | apply Sound.forAll | apply Sound.foldlPair | intro _ _ _) | split | dsimp only [refuse, okS, okB, okParts])

theorem State.modGrid_sound {s x1 x2} (h : Sound s) : Sound (State.modGrid s x1 x2) := by
  unfold State.modGrid
  repeat' (first | with_reducible assumption | with_reducible (first | refine State.modServo_sound ?_ (by (first | exact fun a => a | exact fun a => by simpa [upd] using a | exact fun a => by simpa [upd, Servo.clearRuns] using a | (intro a; (try dsimp only); repeat' split) <;> first | exact a | simpa [upd] using a | simp_all)) (by (first | exact fun a => a | exact fun a => by simpa [upd] using a | exact fun a => by simpa [upd, Servo.clearRuns] using a | (intro a; (try dsimp only); repeat' split) <;> first | exact a | simpa [upd] using a | simp_all)) | apply Sound.ite | apply Sound.foldl | apply Sound.forAll | apply Sound.foldlPair | intro _ _ _) | split | dsimp only [refuse, okS, okB, okParts])

theorem State.putNeighbour_sound {s x1} (h : Sound s) : Sound (State.putNeighbour s x1) := by
  unfold State.putNeighbour
  repeat' (first | with_reducible assumption | with_reducible (first | refine State.modServo_sound ?_ (by (first | exact fun a => a | exact fun a => by simpa [upd] using a | exact fun a => by simpa [upd, Servo.clearRuns] using a | (intro a; (try dsimp only); repeat' split) <;> first | exact a | simpa [upd] using a | simp_all)) (by (first | exact fun a => a | exact fun a => by simpa [upd] using a | exact fun a => by simpa [upd, Servo.clearRuns] using a | (intro a; (try dsimp only); repeat' split) <;> first | exact a | simpa [upd] using a | simp_all)) | apply Sound.ite | apply Sound.foldl | apply Sound.forAll | apply Sound.foldlPair | intro _ _ _) | split | dsimp only [refuse, okS, okB, okParts])

theorem execBeaconReceived_sound {x0 x1 s} (h : Sound s) : SoundO (execBeaconReceived x0 x1 s) := by
  unfold execBeaconReceived
  repeat' (first | with_reducible assumption | with_reducible (first | apply State.at_sound | apply State.correct_sound | apply State.jumpTest_sound | apply State.loseSource_sound | apply State.mainsOffset_sound | apply State.modGrid_sound | apply State.neighbourEvent_sound | apply State.putNeighbour_sound | apply SoundO.next | exact SoundO.fault | apply SoundO.ite | apply Sound.ite | apply Sound.foldl | apply Sound.forAll | apply Sound.foldlPair | intro _ _ _) | split | dsimp only [refuse, okS, okB, okParts])

theorem State.ptpOffset_sound {s x1} (h : Sound s) : Sound (State.ptpOffset s x1) := by
  unfold State.ptpOffset
  repeat' (first | with_reducible assumption | with_reducible (first | apply State.correct_sound | apply State.enterLocked_sound | apply State.gather_sound | apply State.jumpTest_sound | refine State.modServo_sound ?_ (by (first | exact fun a => a | exact fun a => by simpa [upd] using a | exact fun a => by simpa [upd, Servo.clearRuns] using a | (intro a; (try dsimp only); repeat' split) <;> first | exact a | simpa [upd] using a | simp_all)) (by (first | exact fun a => a | exact fun a => by simpa [upd] using a | exact fun a => by simpa [upd, Servo.clearRuns] using a | (intro a; (try dsimp only); repeat' split) <;> first | exact a | simpa [upd] using a | simp_all)) | apply Sound.ite | apply Sound.foldl | apply Sound.forAll | apply Sound.foldlPair | intro _ _ _) | split | dsimp only [refuse, okS, okB, okParts])

theorem execPtpSyncReceived_sound {x0 x1 s} (h : Sound s) : SoundO (execPtpSyncReceived x0 x1 s) := by
  unfold execPtpSyncReceived
  repeat' (first | with_reducible assumption | with_reducible (first | apply State.at_sound | apply State.forwardPtp_sound | refine State.modServo_sound ?_ (by (first | exact fun a => a | exact fun a => by simpa [upd] using a | exact fun a => by simpa [upd, Servo.clearRuns] using a | (intro a; (try dsimp only); repeat' split) <;> first | exact a | simpa [upd] using a | simp_all)) (by (first | exact fun a => a | exact fun a => by simpa [upd] using a | exact fun a => by simpa [upd, Servo.clearRuns] using a | (intro a; (try dsimp only); repeat' split) <;> first | exact a | simpa [upd] using a | simp_all)) | apply State.ptpDiscard_sound | apply State.ptpOffset_sound | apply SoundO.next | exact SoundO.fault | apply SoundO.ite | apply Sound.ite | apply Sound.foldl | apply Sound.forAll | apply Sound.foldlPair | intro _ _ _) | split | dsimp only [refuse, okS, okB, okParts])

theorem execPtpSyncTimeout_sound {x0 s} (h : Sound s) : SoundO (execPtpSyncTimeout x0 s) := by
  unfold execPtpSyncTimeout
  repeat' (first | with_reducible assumption | with_reducible (first | apply State.at_sound | apply State.loseSource_sound | refine State.modServo_sound ?_ (by (first | exact fun a => a | exact fun a => by simpa [upd] using a | exact fun a => by simpa [upd, Servo.clearRuns] using a | (intro a; (try dsimp only); repeat' split) <;> first | exact a | simpa [upd] using a | simp_all)) (by (first | exact fun a => a | exact fun a => by simpa [upd] using a | exact fun a => by simpa [upd, Servo.clearRuns] using a | (intro a; (try dsimp only); repeat' split) <;> first | exact a | simpa [upd] using a | simp_all)) | apply SoundO.next | exact SoundO.fault | apply SoundO.ite | apply Sound.ite | apply Sound.foldl | apply Sound.forAll | apply Sound.foldlPair | intro _ _ _) | split | dsimp only [refuse, okS, okB, okParts])

theorem execTimeAccept_sound {x0 x1 s} (h : Sound s) : SoundO (execTimeAccept x0 x1 s) := hostCmd_sound h (fun _ _ a => serveTimeAccept_sound a)

theorem State.zcReject_sound {s x1 x2} (h : Sound s) : Sound (State.zcReject s x1 x2) := by
  unfold State.zcReject
  repeat' (first | with_reducible assumption | with_reducible (first | apply State.loseSource_sound | refine State.modServo_sound ?_ (by (first | exact fun a => a | exact fun a => by simpa [upd] using a | exact fun a => by simpa [upd, Servo.clearRuns] using a | (intro a; (try dsimp only); repeat' split) <;> first | exact a | simpa [upd] using a | simp_all)) (by (first | exact fun a => a | exact fun a => by simpa [upd] using a | exact fun a => by simpa [upd, Servo.clearRuns] using a | (intro a; (try dsimp only); repeat' split) <;> first | exact a | simpa [upd] using a | simp_all)) | apply State.queueFault_sound | apply State.timeEvent_sound | apply Sound.ite | apply Sound.foldl | apply Sound.forAll | apply Sound.foldlPair | intro _ _ _) | split | dsimp only [refuse, okS, okB, okParts])

theorem State.judgeCrossing_sound {s x1} (h : Sound s) : Sound (State.judgeCrossing s x1) := by
  unfold State.judgeCrossing
  repeat' (first | with_reducible assumption | with_reducible (first | refine State.modServo_sound ?_ (by (first | exact fun a => a | exact fun a => by simpa [upd] using a | exact fun a => by simpa [upd, Servo.clearRuns] using a | (intro a; (try dsimp only); repeat' split) <;> first | exact a | simpa [upd] using a | simp_all)) (by (first | exact fun a => a | exact fun a => by simpa [upd] using a | exact fun a => by simpa [upd, Servo.clearRuns] using a | (intro a; (try dsimp only); repeat' split) <;> first | exact a | simpa [upd] using a | simp_all)) | apply State.zcReject_sound | apply Sound.ite | apply Sound.foldl | apply Sound.forAll | apply Sound.foldlPair | intro _ _ _) | split | dsimp only [refuse, okS, okB, okParts])

theorem execZeroCrossing_sound {x0 x1 s} (h : Sound s) : SoundO (execZeroCrossing x0 x1 s) := by
  unfold execZeroCrossing
  repeat' (first | with_reducible assumption | with_reducible (first | apply State.at_sound | apply State.judgeCrossing_sound | refine State.modServo_sound ?_ (by (first | exact fun a => a | exact fun a => by simpa [upd] using a | exact fun a => by simpa [upd, Servo.clearRuns] using a | (intro a; (try dsimp only); repeat' split) <;> first | exact a | simpa [upd] using a | simp_all)) (by (first | exact fun a => a | exact fun a => by simpa [upd] using a | exact fun a => by simpa [upd, Servo.clearRuns] using a | (intro a; (try dsimp only); repeat' split) <;> first | exact a | simpa [upd] using a | simp_all)) | apply SoundO.next | exact SoundO.fault | apply SoundO.ite | apply Sound.ite | apply Sound.foldl | apply Sound.forAll | apply Sound.foldlPair | intro _ _ _) | split | dsimp only [refuse, okS, okB, okParts])

theorem State.freshPtp_sound {s x1} (h : Sound s) : Sound (State.freshPtp s x1) := by
  unfold State.freshPtp
  repeat' (first | with_reducible assumption | with_reducible (first | apply State.loseSource_sound | refine State.modServo_sound ?_ (by (first | exact fun a => a | exact fun a => by simpa [upd] using a | exact fun a => by simpa [upd, Servo.clearRuns] using a | (intro a; (try dsimp only); repeat' split) <;> first | exact a | simpa [upd] using a | simp_all)) (by (first | exact fun a => a | exact fun a => by simpa [upd] using a | exact fun a => by simpa [upd, Servo.clearRuns] using a | (intro a; (try dsimp only); repeat' split) <;> first | exact a | simpa [upd] using a | simp_all)) | apply Sound.ite | apply Sound.foldl | apply Sound.forAll | apply Sound.foldlPair | intro _ _ _) | split | dsimp only [refuse, okS, okB, okParts])

theorem execPtpRestart_sound {x0 s} (h : Sound s) : SoundO (execPtpRestart x0 s) := by
  unfold execPtpRestart
  repeat' (first | with_reducible assumption | with_reducible (first | apply State.at_sound | apply State.freshPtp_sound | apply SoundO.next | exact SoundO.fault | apply SoundO.ite | apply Sound.ite | apply Sound.foldl | apply Sound.forAll | apply Sound.foldlPair | intro _ _ _) | split | dsimp only [refuse, okS, okB, okParts])

theorem execBeaconTimeout_sound {x0 x1 s} (h : Sound s) : SoundO (execBeaconTimeout x0 x1 s) := by
  unfold execBeaconTimeout
  repeat' (first | with_reducible assumption | with_reducible (first | apply State.at_sound | apply State.loseSource_sound | refine State.modServo_sound ?_ (by (first | exact fun a => a | exact fun a => by simpa [upd] using a | exact fun a => by simpa [upd, Servo.clearRuns] using a | (intro a; (try dsimp only); repeat' split) <;> first | exact a | simpa [upd] using a | simp_all)) (by (first | exact fun a => a | exact fun a => by simpa [upd] using a | exact fun a => by simpa [upd, Servo.clearRuns] using a | (intro a; (try dsimp only); repeat' split) <;> first | exact a | simpa [upd] using a | simp_all)) | apply State.neighbourEvent_sound | apply State.queueFault_sound | apply SoundO.next | exact SoundO.fault | apply SoundO.ite | apply Sound.ite | apply Sound.foldl | apply Sound.forAll | apply Sound.foldlPair | intro _ _ _) | split | dsimp only [refuse, okS, okB, okParts])

theorem execTtoSet_sound {x0 x1 s} (h : Sound s) : SoundO (execTtoSet x0 x1 s) := hostCmd_sound h (fun _ _ a => serveTtoSet_sound a)

theorem execTciEdge_sound {x0 x1 x2 x3 s} (h : Sound s) : SoundO (execTciEdge x0 x1 x2 x3 s) := by
  unfold execTciEdge
  repeat' (first | with_reducible assumption | with_reducible (first | apply State.at_sound | apply State.modTci_sound | apply State.raise_sound | apply SoundO.next | exact SoundO.fault | apply SoundO.ite | apply Sound.ite | apply Sound.foldl | apply Sound.forAll | apply Sound.foldlPair | intro _ _ _) | split | dsimp only [refuse, okS, okB, okParts])

theorem execBeaconSlot_sound {x0 s} (h : Sound s) : SoundO (execBeaconSlot x0 s) := by
  unfold execBeaconSlot
  repeat' (first | with_reducible assumption | with_reducible (first | apply State.at_sound | refine State.modServo_sound ?_ (by (first | exact fun a => a | exact fun a => by simpa [upd] using a | exact fun a => by simpa [upd, Servo.clearRuns] using a | (intro a; (try dsimp only); repeat' split) <;> first | exact a | simpa [upd] using a | simp_all)) (by (first | exact fun a => a | exact fun a => by simpa [upd] using a | exact fun a => by simpa [upd, Servo.clearRuns] using a | (intro a; (try dsimp only); repeat' split) <;> first | exact a | simpa [upd] using a | simp_all)) | apply SoundO.next | exact SoundO.fault | apply SoundO.ite | apply Sound.ite | apply Sound.foldl | apply Sound.forAll | apply Sound.foldlPair | intro _ _ _) | split | dsimp only [refuse, okS, okB, okParts])

theorem State.ttoEvent_sound {s x1 x2 x3} (h : Sound s) : Sound (State.ttoEvent s x1 x2 x3) := by
  unfold State.ttoEvent
  repeat' (first | with_reducible assumption | with_reducible (first | apply State.raise_sound | apply Sound.ite | apply Sound.foldl | apply Sound.forAll | apply Sound.foldlPair | intro _ _ _) | split | dsimp only [refuse, okS, okB, okParts])

theorem execPtpMessageTransmit_sound {x0 x1 x2 s} (h : Sound s) : SoundO (execPtpMessageTransmit x0 x1 x2 s) := by
  unfold execPtpMessageTransmit
  repeat' (first | with_reducible assumption | with_reducible (first | apply State.at_sound | refine State.modServo_sound ?_ (by (first | exact fun a => a | exact fun a => by simpa [upd] using a | exact fun a => by simpa [upd, Servo.clearRuns] using a | (intro a; (try dsimp only); repeat' split) <;> first | exact a | simpa [upd] using a | simp_all)) (by (first | exact fun a => a | exact fun a => by simpa [upd] using a | exact fun a => by simpa [upd, Servo.clearRuns] using a | (intro a; (try dsimp only); repeat' split) <;> first | exact a | simpa [upd] using a | simp_all)) | apply State.sendPtp_sound | apply SoundO.next | exact SoundO.fault | apply SoundO.ite | apply Sound.ite | apply Sound.foldl | apply Sound.forAll | apply Sound.foldlPair | intro _ _ _) | split | dsimp only [refuse, okS, okB, okParts])

theorem State.jumpTo_sound {s x1} (h : Sound s) : Sound (State.jumpTo s x1) := by
  unfold State.jumpTo
  repeat' (first | with_reducible assumption | with_reducible (first | apply State.modClk_sound | apply State.modEng_sound | apply State.modFw_sound | refine State.modPts_sound ?_ (by (first | exact fun a => a | exact fun a => by simpa [upd] using a | (intro a; (try dsimp only); repeat' split) <;> first | exact a | simpa [upd] using a | simp_all)) | refine State.modServo_sound ?_ (by (first | exact fun a => a | exact fun a => by simpa [upd] using a | exact fun a => by simpa [upd, Servo.clearRuns] using a | (intro a; (try dsimp only); repeat' split) <;> first | exact a | simpa [upd] using a | simp_all)) (by (first | exact fun a => a | exact fun a => by simpa [upd] using a | exact fun a => by simpa [upd, Servo.clearRuns] using a | (intro a; (try dsimp only); repeat' split) <;> first | exact a | simpa [upd] using a | simp_all)) | refine State.modSlices_sound ?_ (by (first | exact fun a => a | exact fun a => by simpa [upd] using a | (intro a; (try dsimp only); repeat' split) <;> first | exact a | simpa [upd] using a | simp_all)) | apply Sound.ite | apply Sound.foldl | apply Sound.forAll | apply Sound.foldlPair | intro _ _ _) | split | dsimp only [refuse, okS, okB, okParts])

theorem execFrameCounterLoad_sound {x0 s} (h : Sound s) : SoundO (execFrameCounterLoad x0 s) := by
  unfold execFrameCounterLoad
  repeat' (first | with_reducible assumption | with_reducible (first | apply State.at_sound | apply State.jumpTo_sound | apply State.modClk_sound | refine State.modServo_sound ?_ (by (first | exact fun a => a | exact fun a => by simpa [upd] using a | exact fun a => by simpa [upd, Servo.clearRuns] using a | (intro a; (try dsimp only); repeat' split) <;> first | exact a | simpa [upd] using a | simp_all)) (by (first | exact fun a => a | exact fun a => by simpa [upd] using a | exact fun a => by simpa [upd, Servo.clearRuns] using a | (intro a; (try dsimp only); repeat' split) <;> first | exact a | simpa [upd] using a | simp_all)) | apply SoundO.next | exact SoundO.fault | apply SoundO.ite | apply Sound.ite | apply Sound.foldl | apply Sound.forAll | apply Sound.foldlPair | intro _ _ _) | split | dsimp only [refuse, okS, okB, okParts])

theorem execZcPredictionTimeout_sound {x0 s} (h : Sound s) : SoundO (execZcPredictionTimeout x0 s) := by
  unfold execZcPredictionTimeout
  repeat' (first | with_reducible assumption | with_reducible (first | apply State.at_sound | apply State.zcReject_sound | apply SoundO.next | exact SoundO.fault | apply SoundO.ite | apply Sound.ite | apply Sound.foldl | apply Sound.forAll | apply Sound.foldlPair | intro _ _ _) | split | dsimp only [refuse, okS, okB, okParts])

theorem State.takeUtc_sound {s x1} (h : Sound s) : Sound (State.takeUtc s x1) := by
  unfold State.takeUtc
  repeat' (first | with_reducible assumption | with_reducible (first | refine State.modServo_sound ?_ (by (first | exact fun a => a | exact fun a => by simpa [upd] using a | exact fun a => by simpa [upd, Servo.clearRuns] using a | (intro a; (try dsimp only); repeat' split) <;> first | exact a | simpa [upd] using a | simp_all)) (by (first | exact fun a => a | exact fun a => by simpa [upd] using a | exact fun a => by simpa [upd, Servo.clearRuns] using a | (intro a; (try dsimp only); repeat' split) <;> first | exact a | simpa [upd] using a | simp_all)) | apply Sound.ite | apply Sound.foldl | apply Sound.forAll | apply Sound.foldlPair | intro _ _ _) | split | dsimp only [refuse, okS, okB, okParts])

theorem State.selectMaster_sound {s x1} (h : Sound s) : Sound (State.selectMaster s x1) := by
  unfold State.selectMaster
  repeat' (first | with_reducible assumption | with_reducible (first | apply State.acquire_sound | refine State.modServo_sound ?_ (by (first | exact fun a => a | exact fun a => by simpa [upd] using a | exact fun a => by simpa [upd, Servo.clearRuns] using a | (intro a; (try dsimp only); repeat' split) <;> first | exact a | simpa [upd] using a | simp_all)) (by (first | exact fun a => a | exact fun a => by simpa [upd] using a | exact fun a => by simpa [upd, Servo.clearRuns] using a | (intro a; (try dsimp only); repeat' split) <;> first | exact a | simpa [upd] using a | simp_all)) | apply State.takeUtc_sound | apply Sound.ite | apply Sound.foldl | apply Sound.forAll | apply Sound.foldlPair | intro _ _ _) | split | dsimp only [refuse, okS, okB, okParts])

theorem execPtpAnnounceTimeout_sound {x0 s} (h : Sound s) : SoundO (execPtpAnnounceTimeout x0 s) := by
  unfold execPtpAnnounceTimeout
  repeat' (first | with_reducible assumption | with_reducible (first | apply State.at_sound | apply State.loseSource_sound | refine State.modServo_sound ?_ (by (first | exact fun a => a | exact fun a => by simpa [upd] using a | exact fun a => by simpa [upd, Servo.clearRuns] using a | (intro a; (try dsimp only); repeat' split) <;> first | exact a | simpa [upd] using a | simp_all)) (by (first | exact fun a => a | exact fun a => by simpa [upd] using a | exact fun a => by simpa [upd, Servo.clearRuns] using a | (intro a; (try dsimp only); repeat' split) <;> first | exact a | simpa [upd] using a | simp_all)) | apply State.selectMaster_sound | apply SoundO.next | exact SoundO.fault | apply SoundO.ite | apply Sound.ite | apply Sound.foldl | apply Sound.forAll | apply Sound.foldlPair | intro _ _ _) | split | dsimp only [refuse, okS, okB, okParts])

theorem execPtpAnnounceReceived_sound {x0 x1 s} (h : Sound s) : SoundO (execPtpAnnounceReceived x0 x1 s) := by
  unfold execPtpAnnounceReceived
  repeat' (first | with_reducible assumption | with_reducible (first | apply State.at_sound | apply State.loseSource_sound | refine State.modServo_sound ?_ (by (first | exact fun a => a | exact fun a => by simpa [upd] using a | exact fun a => by simpa [upd, Servo.clearRuns] using a | (intro a; (try dsimp only); repeat' split) <;> first | exact a | simpa [upd] using a | simp_all)) (by (first | exact fun a => a | exact fun a => by simpa [upd] using a | exact fun a => by simpa [upd, Servo.clearRuns] using a | (intro a; (try dsimp only); repeat' split) <;> first | exact a | simpa [upd] using a | simp_all)) | apply State.ptpDiscard_sound | apply State.selectMaster_sound | apply SoundO.next | exact SoundO.fault | apply SoundO.ite | apply Sound.ite | apply Sound.foldl | apply Sound.forAll | apply Sound.foldlPair | intro _ _ _) | split | dsimp only [refuse, okS, okB, okParts])

theorem execBeaconPeriodStart_sound {x0 s} (h : Sound s) : SoundO (execBeaconPeriodStart x0 s) := by
  unfold execBeaconPeriodStart
  repeat' (first | with_reducible assumption | with_reducible (first | apply State.at_sound | refine State.modServo_sound ?_ (by (first | exact fun a => a | exact fun a => by simpa [upd] using a | exact fun a => by simpa [upd, Servo.clearRuns] using a | (intro a; (try dsimp only); repeat' split) <;> first | exact a | simpa [upd] using a | simp_all)) (by (first | exact fun a => a | exact fun a => by simpa [upd] using a | exact fun a => by simpa [upd, Servo.clearRuns] using a | (intro a; (try dsimp only); repeat' split) <;> first | exact a | simpa [upd] using a | simp_all)) | apply SoundO.next | exact SoundO.fault | apply SoundO.ite | apply Sound.ite | apply Sound.foldl | apply Sound.forAll | apply Sound.foldlPair | intro _ _ _) | split | dsimp only [refuse, okS, okB, okParts])

theorem execTimeStepApply_sound {x0 s} (h : Sound s) : SoundO (execTimeStepApply x0 s) := by
  unfold execTimeStepApply
  repeat' (first | with_reducible assumption | with_reducible (first | apply State.at_sound | apply State.jumpTo_sound | apply State.modClk_sound | refine State.modServo_sound ?_ (by (first | exact fun a => a | exact fun a => by simpa [upd] using a | exact fun a => by simpa [upd, Servo.clearRuns] using a | (intro a; (try dsimp only); repeat' split) <;> first | exact a | simpa [upd] using a | simp_all)) (by (first | exact fun a => a | exact fun a => by simpa [upd] using a | exact fun a => by simpa [upd, Servo.clearRuns] using a | (intro a; (try dsimp only); repeat' split) <;> first | exact a | simpa [upd] using a | simp_all)) | apply SoundO.next | exact SoundO.fault | apply SoundO.ite | apply Sound.ite | apply Sound.foldl | apply Sound.forAll | apply Sound.foldlPair | intro _ _ _) | split | dsimp only [refuse, okS, okB, okParts])

theorem execPtpManagementReceived_sound {x0 x1 s} (h : Sound s) : SoundO (execPtpManagementReceived x0 x1 s) := by
  unfold execPtpManagementReceived
  repeat' (first | with_reducible assumption | with_reducible (first | apply State.at_sound | apply State.ptpDiscard_sound | apply State.sendPtp_sound | apply SoundO.next | exact SoundO.fault | apply SoundO.ite | apply Sound.ite | apply Sound.foldl | apply Sound.forAll | apply Sound.foldlPair | intro _ _ _) | split | dsimp only [refuse, okS, okB, okParts])

theorem execTtoEdge_sound {x0 x1 s} (h : Sound s) : SoundO (execTtoEdge x0 x1 s) := by
  unfold execTtoEdge
  repeat' (first | with_reducible assumption | with_reducible (first | apply State.at_sound | apply State.modTto_sound | apply State.ttoEvent_sound | apply SoundO.next | exact SoundO.fault | apply SoundO.ite | apply Sound.ite | apply Sound.foldl | apply Sound.forAll | apply Sound.foldlPair | intro _ _ _) | split | dsimp only [refuse, okS, okB, okParts])

theorem execTimeStatus_sound {x0 x1 s} (h : Sound s) : SoundO (execTimeStatus x0 x1 s) := hostCmd_sound h (fun _ _ a => serveTimeStatus_sound a)

end Sys2Proof.Machine
end

