-- ==== Sys2Proof/Laws/SoundFirmware.lean ====
section
/-!
SUPPORT. Each operation of Machine/Firmware.lean keeps the invariant `Sound`.
-/

namespace Sys2Proof.Machine

theorem execStandbyReady_sound {x0 s} (h : Sound s) : SoundO (execStandbyReady x0 s) := by
  unfold execStandbyReady
  repeat' (first | with_reducible assumption | with_reducible (first | apply State.at_sound | apply State.modFw_sound | apply SoundO.next | exact SoundO.fault | apply SoundO.ite | apply Sound.ite | apply Sound.foldl | apply Sound.forAll | apply Sound.foldlPair | intro _ _ _) | split | dsimp only [refuse, okS, okB, okParts])

theorem execFwConfirmTimeout_sound {x0 s} (h : Sound s) : SoundO (execFwConfirmTimeout x0 s) := by
  unfold execFwConfirmTimeout
  repeat' (first | with_reducible assumption | with_reducible (first | apply State.at_sound | apply State.modFw_sound | apply SoundO.next | exact SoundO.fault | apply SoundO.ite | apply Sound.ite | apply Sound.foldl | apply Sound.forAll | apply Sound.foldlPair | intro _ _ _) | split | dsimp only [refuse, okS, okB, okParts])

theorem State.cyclesRefused_sound {s x1 x2} (h : Sound s) : Sound (State.cyclesRefused s x1 x2) := by
  unfold State.cyclesRefused
  repeat' (first | with_reducible assumption | with_reducible (first | apply State.raise_sound | apply Sound.ite | apply Sound.foldl | apply Sound.forAll | apply Sound.foldlPair | intro _ _ _) | split | dsimp only [refuse, okS, okB, okParts])

theorem State.fwEvent_sound {s x1 x2 x3 x4 x5 x6 x7 x8 x9 x10 x11} (h : Sound s) : Sound (State.fwEvent s x1 x2 x3 x4 x5 x6 x7 x8 x9 x10 x11) := by
  unfold State.fwEvent
  repeat' (first | with_reducible assumption | with_reducible (first | apply State.raise_sound | apply Sound.ite | apply Sound.foldl | apply Sound.forAll | apply Sound.foldlPair | intro _ _ _) | split | dsimp only [refuse, okS, okB, okParts])

theorem State.swapImages_sound {s x1} (h : Sound s) : Sound (State.swapImages s x1) := by
  unfold State.swapImages
  repeat' (first | with_reducible assumption | with_reducible (first | apply State.bump_sound | apply State.cyclesRefused_sound | apply State.enterCapo_sound | apply State.fwEvent_sound | apply State.modFw_sound | apply State.modPar_sound | apply Sound.ite | apply Sound.foldl | apply Sound.forAll | apply Sound.foldlPair | intro _ _ _) | split | dsimp only [refuse, okS, okB, okParts])

theorem State.notTaken_sound {s} (h : Sound s) : Sound (State.notTaken s) := by
  unfold State.notTaken
  repeat' (first | with_reducible assumption | with_reducible (first | apply State.bump_sound | apply State.fwEvent_sound | apply State.modFw_sound | apply Sound.ite | apply Sound.foldl | apply Sound.forAll | apply Sound.foldlPair | intro _ _ _) | split | dsimp only [refuse, okS, okB, okParts])

theorem serveFwVerify_sound {x0 s} (h : Sound s) : Sound (serveFwVerify x0 s).st := by
  unfold serveFwVerify noPayload okS refuse
  repeat' (first | with_reducible assumption | with_reducible (first | apply State.modFw_sound | apply Sound.ite | apply Sound.foldl | apply Sound.forAll | apply Sound.foldlPair | intro _ _ _) | split | dsimp only [refuse, okS, okB, okParts])

theorem State.modSlot_sound {s x1 x2 x3} (h : Sound s) : Sound (State.modSlot s x1 x2 x3) := by
  unfold State.modSlot
  repeat' (first | with_reducible assumption | with_reducible (first | apply State.modFw_sound | apply Sound.ite | apply Sound.foldl | apply Sound.forAll | apply Sound.foldlPair | intro _ _ _) | split | dsimp only [refuse, okS, okB, okParts])

theorem serveFwData_sound {x0 s} (h : Sound s) : Sound (serveFwData x0 s).st := by
  unfold serveFwData okS refuse
  repeat' (first | with_reducible assumption | with_reducible (first | apply State.modFw_sound | apply State.modSlot_sound | refine State.writeMram_sound ?_ (fun _ _ => ?_) | apply Sound.ite | apply Sound.foldl | apply Sound.forAll | apply Sound.foldlPair | intro _ _ _) | split | dsimp only [refuse, okS, okB, okParts])

theorem serveFwBegin_sound {x0 x1 s} (h : Sound s) : Sound (serveFwBegin x0 x1 s).st := by
  unfold serveFwBegin withSeal withLog okS refuse
  repeat' (first | with_reducible assumption | with_reducible (first | apply State.bump_sound | apply State.enterHost_sound | apply State.logRefused_sound | apply State.modFw_sound | apply Sound.ite | apply Sound.foldl | apply Sound.forAll | apply Sound.foldlPair | intro _ _ _) | split | dsimp only [refuse, okS, okB, okParts])

theorem serveFwConfirm_sound {x0 s} (h : Sound s) : Sound (serveFwConfirm x0 s).st := by
  unfold serveFwConfirm noPayload okS refuse
  repeat' (first | with_reducible assumption | with_reducible (first | apply State.modFw_sound | apply State.modPar_sound | apply State.modSlot_sound | apply Sound.ite | apply Sound.foldl | apply Sound.forAll | apply Sound.foldlPair | intro _ _ _) | split | dsimp only [refuse, okS, okB, okParts])

theorem serveFwHandover_sound {x0 x1 s} (h : Sound s) : Sound (serveFwHandover x0 x1 s).st := by
  unfold serveFwHandover noPayload withSeal withLog okS refuse
  repeat' (first | with_reducible assumption | with_reducible (first | apply State.enterCapo_sound | apply State.enterHost_sound | apply State.logRefused_sound | apply State.modFw_sound | refine State.modHost_sound ?_ (by (first | exact fun a => a | exact fun a => ⟨a.1, a.2, a.3, a.4, a.5, a.6⟩ | (intro a; dsimp only; repeat' split) <;> exact a)) | apply State.modPwr_sound | apply Sound.ite | apply Sound.foldl | apply Sound.forAll | apply Sound.foldlPair | intro _ _ _) | split | dsimp only [refuse, okS, okB, okParts])

theorem serveFwStatus_sound {x0 s} (h : Sound s) : Sound (serveFwStatus x0 s).st := by
  unfold serveFwStatus noPayload okB
  repeat' (first | with_reducible assumption | with_reducible (first | apply State.bump_sound | apply Sound.ite | apply Sound.foldl | apply Sound.forAll | apply Sound.foldlPair | intro _ _ _) | split | dsimp only [refuse, okS, okB, okParts])

theorem State.takeOver_sound {s} (h : Sound s) : Sound (State.takeOver s) := by
  unfold State.takeOver
  repeat' (first | with_reducible assumption | with_reducible (first | apply State.fwEvent_sound | apply State.modFw_sound | refine State.modHost_sound ?_ (by (first | exact fun a => a | exact fun a => ⟨a.1, a.2, a.3, a.4, a.5, a.6⟩ | (intro a; dsimp only; repeat' split) <;> exact a)) | apply State.modPar_sound | apply Sound.ite | apply Sound.foldl | apply Sound.forAll | apply Sound.foldlPair | intro _ _ _) | split | dsimp only [refuse, okS, okB, okParts])

theorem execFwHandover_sound {x0 x1 s} (h : Sound s) : SoundO (execFwHandover x0 x1 s) := hostCmd_sound h (fun _ _ a => serveFwHandover_sound a)

theorem execFwStatus_sound {x0 x1 s} (h : Sound s) : SoundO (execFwStatus x0 x1 s) := hostCmd_sound h (fun _ _ a => serveFwStatus_sound a)

theorem State.fallBack_sound {s x1 x2 x3} (h : Sound s) : Sound (State.fallBack s x1 x2 x3) := by
  unfold State.fallBack
  repeat' (first | with_reducible assumption | with_reducible (first | apply State.fwEvent_sound | apply State.modFw_sound | refine State.modHost_sound ?_ (by (first | exact fun a => a | exact fun a => ⟨a.1, a.2, a.3, a.4, a.5, a.6⟩ | (intro a; dsimp only; repeat' split) <;> exact a)) | apply State.modPar_sound | apply State.modSlot_sound | apply Sound.ite | apply Sound.foldl | apply Sound.forAll | apply Sound.foldlPair | intro _ _ _) | split | dsimp only [refuse, okS, okB, okParts])

theorem execFwData_sound {x0 x1 s} (h : Sound s) : SoundO (execFwData x0 x1 s) := hostCmd_sound h (fun _ _ a => serveFwData_sound a)

theorem State.coldService_sound {s} (h : Sound s) : Sound (State.coldService s) := by
  unfold State.coldService
  refine State.modKeys_sound (State.freshPtp_sound (State.modRing_sound (Sound.forAll (State.modPar_sound (State.modHost_sound
    (Sound.foldl h (fun _ _ a => State.post_sound a)) (fun a => a.mapBox (fun _ b => b))))
    (fun _ _ a => State.modOut_sound a)) (fun _ => Nat.zero_le _))) (fun a => a) (fun a => a)

theorem execServiceLivenessFail_sound {x0 x1 s} (h : Sound s) : SoundO (execServiceLivenessFail x0 x1 s) := by
  unfold execServiceLivenessFail
  repeat' (first | with_reducible assumption | with_reducible (first | apply State.at_sound | apply State.coldService_sound | apply State.fallBack_sound | apply State.notTaken_sound | apply State.raise_sound | apply SoundO.next | exact SoundO.fault | apply SoundO.ite | apply Sound.ite | apply Sound.foldl | apply Sound.forAll | apply Sound.foldlPair | intro _ _ _) | split | dsimp only [refuse, okS, okB, okParts])

theorem execFwConfirm_sound {x0 x1 s} (h : Sound s) : SoundO (execFwConfirm x0 x1 s) := hostCmd_sound h (fun _ _ a => serveFwConfirm_sound a)

theorem execHandoverBootTimeout_sound {x0 s} (h : Sound s) : SoundO (execHandoverBootTimeout x0 s) := by
  unfold execHandoverBootTimeout
  repeat' (first | with_reducible assumption | with_reducible (first | apply State.at_sound | apply State.notTaken_sound | apply SoundO.next | exact SoundO.fault | apply SoundO.ite | apply Sound.ite | apply Sound.foldl | apply Sound.forAll | apply Sound.foldlPair | intro _ _ _) | split | dsimp only [refuse, okS, okB, okParts])

theorem execFwVerify_sound {x0 x1 s} (h : Sound s) : SoundO (execFwVerify x0 x1 s) := hostCmd_sound h (fun _ _ a => serveFwVerify_sound a)

theorem execFwStageVerified_sound {x0 s} (h : Sound s) : SoundO (execFwStageVerified x0 s) := by
  unfold execFwStageVerified
  repeat' (first | with_reducible assumption | with_reducible (first | apply State.at_sound | apply State.fwEvent_sound | apply State.modFw_sound | apply State.modSlot_sound | apply SoundO.next | exact SoundO.fault | apply SoundO.ite | apply Sound.ite | apply Sound.foldl | apply Sound.forAll | apply Sound.foldlPair | intro _ _ _) | split | dsimp only [refuse, okS, okB, okParts])

theorem execFwBegin_sound {x0 x1 s} (h : Sound s) : SoundO (execFwBegin x0 x1 s) := hostCmd_sound h (fun _ _ a => serveFwBegin_sound a)

end Sys2Proof.Machine
end

