-- ==== Sys2Proof/Laws/SoundPlc.lean ====
section
/-!
SUPPORT. Each operation of Machine/Plc.lean keeps the invariant `Sound`.
-/

namespace Sys2Proof.Machine

theorem State.plcSweep_sound {s} (h : Sound s) : Sound (State.plcSweep s) := by
  unfold State.plcSweep
  repeat' (first | with_reducible assumption | with_reducible (first | apply State.linkIdle_sound | apply State.loseSource_sound | apply State.modPlcPort_sound | refine State.modServo_sound ?_ (by (first | exact fun a => a | exact fun a => by simpa [upd] using a | exact fun a => by simpa [upd, Servo.clearRuns] using a | (intro a; (try dsimp only); repeat' split) <;> first | exact a | simpa [upd] using a | simp_all)) (by (first | exact fun a => a | exact fun a => by simpa [upd] using a | exact fun a => by simpa [upd, Servo.clearRuns] using a | (intro a; (try dsimp only); repeat' split) <;> first | exact a | simpa [upd] using a | simp_all)) | apply State.neighbourEvent_sound | apply State.queueFault_sound | apply Sound.ite | apply Sound.foldl | apply Sound.forAll | apply Sound.foldlPair | intro _ _ _) | split | dsimp only [refuse, okS, okB, okParts])

theorem execPreambleDetected_sound {x0 x1 x2 s} (h : Sound s) : SoundO (execPreambleDetected x0 x1 x2 s) := by
  unfold execPreambleDetected
  repeat' (first | with_reducible assumption | with_reducible (first | apply State.at_sound | apply State.modPlcPort_sound | apply SoundO.next | exact SoundO.fault | apply SoundO.ite | apply Sound.ite | apply Sound.foldl | apply Sound.forAll | apply Sound.foldlPair | intro _ _ _) | split | dsimp only [refuse, okS, okB, okParts])

theorem State.rawRecord_sound {s x1 x2} (h : Sound s) : Sound (State.rawRecord s x1 x2) := by
  unfold State.rawRecord
  repeat' (first | with_reducible assumption | with_reducible (first | apply State.modPlcPort_sound | apply State.writeUnit_sound | apply Sound.ite | apply Sound.foldl | apply Sound.forAll | apply Sound.foldlPair | intro _ _ _) | split | dsimp only [refuse, okS, okB, okParts])

theorem execPlcLinkTimeout_sound {x0 x1 s} (h : Sound s) : SoundO (execPlcLinkTimeout x0 x1 s) := by
  unfold execPlcLinkTimeout
  repeat' (first | with_reducible assumption | with_reducible (first | apply State.at_sound | apply State.linkDown_sound | apply SoundO.next | exact SoundO.fault | apply SoundO.ite | apply Sound.ite | apply Sound.foldl | apply Sound.forAll | apply Sound.foldlPair | intro _ _ _) | split | dsimp only [refuse, okS, okB, okParts])

theorem execPlcLinkUp_sound {x0 x1 s} (h : Sound s) : SoundO (execPlcLinkUp x0 x1 s) := by
  unfold execPlcLinkUp
  repeat' (first | with_reducible assumption | with_reducible (first | apply State.at_sound | apply State.linkEvent_sound | apply State.modOut_sound | apply State.modPlcPort_sound | apply SoundO.next | exact SoundO.fault | apply SoundO.ite | apply Sound.ite | apply Sound.foldl | apply Sound.forAll | apply Sound.foldlPair | intro _ _ _) | split | dsimp only [refuse, okS, okB, okParts])

theorem State.loseSym_sound {s x1} (h : Sound s) : Sound (State.loseSym s x1) := by
  unfold State.loseSym
  repeat' (first | with_reducible assumption | with_reducible (first | apply State.modPlcPort_sound | apply Sound.ite | apply Sound.foldl | apply Sound.forAll | apply Sound.foldlPair | intro _ _ _) | split | dsimp only [refuse, okS, okB, okParts])

theorem State.frameDecoded_sound {s x1} (h : Sound s) : Sound (State.frameDecoded s x1) := by
  unfold State.frameDecoded
  repeat' (first | with_reducible assumption | with_reducible (first | apply State.modPlcPort_sound | apply Sound.ite | apply Sound.foldl | apply Sound.forAll | apply Sound.foldlPair | intro _ _ _) | split | dsimp only [refuse, okS, okB, okParts])

theorem State.serveSym_sound {s x1} (h : Sound s) : Sound (State.serveSym s x1) := by
  unfold State.serveSym
  repeat' (first | with_reducible assumption | with_reducible (first | apply State.frameDecoded_sound | apply State.modPlcPort_sound | refine State.modRing_sound ?_ (by (first | exact fun a => a | exact fun a => by simpa [upd] using a | (intro a; (try dsimp only); repeat' split) <;> first | exact a | simpa [upd] using a | simp_all)) | apply Sound.ite | apply Sound.foldl | apply Sound.forAll | apply Sound.foldlPair | intro _ _ _) | split | dsimp only [refuse, okS, okB, okParts])

theorem execPlcTurn_sound {x0 x1 s} (h : Sound s) : SoundO (execPlcTurn x0 x1 s) := by
  unfold execPlcTurn
  repeat' (first | with_reducible assumption | with_reducible (first | apply State.at_sound | apply State.loseSym_sound | refine State.modPlc_sound ?_ (by (first | exact fun a => a | exact fun a => by simpa [upd] using a | (intro a; (try dsimp only); repeat' split) <;> first | exact a | simpa [upd] using a | simp_all)) | apply State.rawRecord_sound | apply State.serveSym_sound | apply SoundO.next | exact SoundO.fault | apply SoundO.ite | apply Sound.ite | apply Sound.foldl | apply Sound.forAll | apply Sound.foldlPair | intro _ _ _) | split | dsimp only [refuse, okS, okB, okParts])

end Sys2Proof.Machine
end

