-- ==== Sys2Proof/Laws/SoundRing.lean ====
section
/-!
SUPPORT. Each operation of Machine/Ring.lean keeps the invariant `Sound`.
-/

namespace Sys2Proof.Machine

theorem placeFaults_le (n : Nat) (q : List Bytes) (f : Bytes) : (placeFaults n q f).2.length ≤ q.length := by
  induction n generalizing q f with
  | zero => exact Nat.le_refl _
  | succ k ih =>
    cases q with
    | nil => exact Nat.le_refl _
    | cons r l =>
      unfold placeFaults
      have := ih l (placeFault r f 16 0).1
      dsimp only
      split <;> simp <;> omega

theorem State.sendOn_sound {s x1 x2 x3} (h : Sound s) : Sound (State.sendOn s x1 x2 x3) := by
  unfold State.sendOn
  repeat' (first | with_reducible assumption | with_reducible (first | refine State.modRing_sound ?_ (by (first | exact fun a => a | exact fun a => by simpa [upd] using a | (intro a; (try dsimp only); repeat' split) <;> first | exact a | simpa [upd] using a | simp_all)) | apply Sound.ite | apply Sound.foldl | apply Sound.forAll | apply Sound.foldlPair | intro _ _ _) | split | dsimp only [refuse, okS, okB, okParts])

theorem execRingFlush_sound {x0 x1 s} (h : Sound s) : SoundO (execRingFlush x0 x1 s) := by
  unfold execRingFlush
  repeat' (first | with_reducible assumption | with_reducible (first | apply State.at_sound | refine State.modRing_sound ?_ (by (first | exact fun a => a | exact fun a => by simpa [upd] using a | (intro a; (try dsimp only); repeat' split) <;> first | exact a | simpa [upd] using a | simp_all)) | apply State.sendOn_sound | apply SoundO.next | exact SoundO.fault | apply SoundO.ite | apply Sound.ite | apply Sound.foldl | apply Sound.forAll | apply Sound.foldlPair | intro _ _ _) | split | dsimp only [refuse, okS, okB, okParts])

theorem State.topology_sound {s x1 x2 x3} (h : Sound s) : Sound (State.topology s x1 x2 x3) := by
  unfold State.topology
  repeat' (first | with_reducible assumption | with_reducible (first | apply State.raise_sound | apply Sound.ite | apply Sound.foldl | apply Sound.forAll | apply Sound.foldlPair | intro _ _ _) | split | dsimp only [refuse, okS, okB, okParts])

theorem State.checkDepth_sound {s} (h : Sound s) : Sound (State.checkDepth s) := by
  unfold State.checkDepth
  repeat' (first | with_reducible assumption | with_reducible (first | refine State.modRing_sound ?_ (by (first | exact fun a => a | exact fun a => by simpa [upd] using a | (intro a; (try dsimp only); repeat' split) <;> first | exact a | simpa [upd] using a | simp_all)) | apply State.topology_sound | apply Sound.ite | apply Sound.foldl | apply Sound.forAll | apply Sound.foldlPair | intro _ _ _) | split | dsimp only [refuse, okS, okB, okParts])

theorem execDiscoveryStart_sound {x0 s} (h : Sound s) : SoundO (execDiscoveryStart x0 s) := by
  unfold execDiscoveryStart
  repeat' (first | with_reducible assumption | with_reducible (first | apply State.at_sound | apply State.checkDepth_sound | refine State.modRing_sound ?_ (by (first | exact fun a => a | exact fun a => by simpa [upd] using a | (intro a; (try dsimp only); repeat' split) <;> first | exact a | simpa [upd] using a | simp_all)) | apply State.sendOn_sound | apply SoundO.next | exact SoundO.fault | apply SoundO.ite | apply Sound.ite | apply Sound.foldl | apply Sound.forAll | apply Sound.foldlPair | intro _ _ _) | split | dsimp only [refuse, okS, okB, okParts])

theorem State.rediscover_sound {s x1} (h : Sound s) : Sound (State.rediscover s x1) := by
  unfold State.rediscover
  repeat' (first | with_reducible assumption | with_reducible (first | refine State.modRing_sound ?_ (by (first | exact fun a => a | exact fun a => by simpa [upd] using a | (intro a; (try dsimp only); repeat' split) <;> first | exact a | simpa [upd] using a | simp_all)) | apply Sound.ite | apply Sound.foldl | apply Sound.forAll | apply Sound.foldlPair | intro _ _ _) | split | dsimp only [refuse, okS, okB, okParts])

theorem State.coalesced_sound {s x1} (h : Sound s) : Sound (State.coalesced s x1) := by
  unfold State.coalesced
  repeat' (first | with_reducible assumption | with_reducible (first | apply State.raise_sound | apply Sound.ite | apply Sound.foldl | apply Sound.forAll | apply Sound.foldlPair | intro _ _ _) | split | dsimp only [refuse, okS, okB, okParts])

theorem State.keepResults_sound {s x1 x2} (h : Sound s) : Sound (State.keepResults s x1 x2) := by
  unfold State.keepResults
  repeat' (first | with_reducible assumption | with_reducible (first | refine State.modRing_sound ?_ (by (first | exact fun a => a | exact fun a => by simpa [upd] using a | (intro a; (try dsimp only); repeat' split) <;> first | exact a | simpa [upd] using a | simp_all)) | apply Sound.ite | apply Sound.foldl | apply Sound.forAll | apply Sound.foldlPair | intro _ _ _) | split | dsimp only [refuse, okS, okB, okParts])

theorem execBalanceFrameReturn_sound {x0 x1 s} (h : Sound s) : SoundO (execBalanceFrameReturn x0 x1 s) := by
  unfold execBalanceFrameReturn
  repeat' (first | with_reducible assumption | with_reducible (first | apply State.at_sound | apply State.coalesced_sound | apply State.keepResults_sound | refine State.modRing_sound ?_ (by (first | exact fun a => a | exact fun a => by simpa [upd] using a | (intro a; (try dsimp only); repeat' split) <;> first | exact a | simpa [upd] using a | simp_all)) | apply SoundO.next | exact SoundO.fault | apply SoundO.ite | apply Sound.ite | apply Sound.foldl | apply Sound.forAll | apply Sound.foldlPair | intro _ _ _) | split | dsimp only [refuse, okS, okB, okParts])

theorem State.setRoot_sound {s x1} (h : Sound s) : Sound (State.setRoot s x1) := by
  unfold State.setRoot
  repeat' (first | with_reducible assumption | with_reducible (first | refine State.modRing_sound ?_ (by (first | exact fun a => a | exact fun a => by simpa [upd] using a | (intro a; (try dsimp only); repeat' split) <;> first | exact a | simpa [upd] using a | simp_all)) | apply State.topology_sound | apply Sound.ite | apply Sound.foldl | apply Sound.forAll | apply Sound.foldlPair | intro _ _ _) | split | dsimp only [refuse, okS, okB, okParts])

theorem serveBalanceResults_sound {x0 s} (h : Sound s) : Sound (serveBalanceResults x0 s).st := by
  unfold serveBalanceResults okParts refuse
  repeat' (first | with_reducible assumption | with_reducible (first | apply Sound.ite | apply Sound.foldl | apply Sound.forAll | apply Sound.foldlPair | intro _ _ _) | split | dsimp only [refuse, okS, okB, okParts])

theorem serveRingMap_sound {x0 s} (h : Sound s) : Sound (serveRingMap x0 s).st := by
  unfold serveRingMap noPayload okParts
  repeat' (first | with_reducible assumption | with_reducible (first | apply Sound.ite | apply Sound.foldl | apply Sound.forAll | apply Sound.foldlPair | intro _ _ _) | split | dsimp only [refuse, okS, okB, okParts])

theorem execRingMap_sound {x0 x1 s} (h : Sound s) : SoundO (execRingMap x0 x1 s) := hostCmd_sound h (fun _ _ a => serveRingMap_sound a)

theorem State.postBalance_sound {s x1} (h : Sound s) : Sound (State.postBalance s x1) := by
  unfold State.postBalance
  repeat' (first | with_reducible assumption | with_reducible (first | apply State.checkDepth_sound | refine State.modRing_sound ?_ (by (first | exact fun a => a | exact fun a => by simpa [upd] using a | (intro a; (try dsimp only); repeat' split) <;> first | exact a | simpa [upd] using a | simp_all)) | apply Sound.ite | apply Sound.foldl | apply Sound.forAll | apply Sound.foldlPair | intro _ _ _) | split | dsimp only [refuse, okS, okB, okParts])

theorem execBalanceResults_sound {x0 x1 s} (h : Sound s) : SoundO (execBalanceResults x0 x1 s) := hostCmd_sound h (fun _ _ a => serveBalanceResults_sound a)

theorem execRingTestSend_sound {x0 s} (h : Sound s) : SoundO (execRingTestSend x0 s) := by
  unfold execRingTestSend
  repeat' (first | with_reducible assumption | with_reducible (first | apply State.at_sound | refine State.modRing_sound ?_ (by (first | exact fun a => a | exact fun a => by simpa [upd] using a | (intro a; (try dsimp only); repeat' split) <;> first | exact a | simpa [upd] using a | simp_all)) | apply State.sendOn_sound | apply SoundO.next | exact SoundO.fault | apply SoundO.ite | apply Sound.ite | apply Sound.foldl | apply Sound.forAll | apply Sound.foldlPair | intro _ _ _) | split | dsimp only [refuse, okS, okB, okParts])

theorem State.seeTest_sound {s} (h : Sound s) : Sound (State.seeTest s) := by
  unfold State.seeTest
  repeat' (first | with_reducible assumption | with_reducible (first | refine State.modRing_sound ?_ (by (first | exact fun a => a | exact fun a => by simpa [upd] using a | (intro a; (try dsimp only); repeat' split) <;> first | exact a | simpa [upd] using a | simp_all)) | apply State.sendOn_sound | apply State.topology_sound | apply Sound.ite | apply Sound.foldl | apply Sound.forAll | apply Sound.foldlPair | intro _ _ _) | split | dsimp only [refuse, okS, okB, okParts])

theorem execYudaixFrameReceived_sound {x0 x1 s} (h : Sound s) : SoundO (execYudaixFrameReceived x0 x1 s) := by
  unfold execYudaixFrameReceived
  repeat' (first | with_reducible assumption | with_reducible (first | apply State.at_sound | refine State.modRing_sound ?_ (by (first | exact fun a => a | exact fun a => by simpa [upd] using a | (intro a; (try dsimp only); repeat' split) <;> first | exact a | simpa [upd] using a | simp_all)) | apply State.seeTest_sound | apply State.sendOn_sound | apply SoundO.next | exact SoundO.fault | apply SoundO.ite | apply Sound.ite | apply Sound.foldl | apply Sound.forAll | apply Sound.foldlPair | intro _ _ _) | split | dsimp only [refuse, okS, okB, okParts])

theorem State.heal_sound {s} (h : Sound s) : Sound (State.heal s) := by
  unfold State.heal
  repeat' (first | with_reducible assumption | with_reducible (first | refine State.modRing_sound ?_ (by (first | exact fun a => a | exact fun a => by simpa [upd] using a | (intro a; (try dsimp only); repeat' split) <;> first | exact a | simpa [upd] using a | simp_all)) | apply State.sendOn_sound | apply State.topology_sound | apply Sound.ite | apply Sound.foldl | apply Sound.forAll | apply Sound.foldlPair | intro _ _ _) | split | dsimp only [refuse, okS, okB, okParts])

theorem execLinkDownNotice_sound {x0 x1 s} (h : Sound s) : SoundO (execLinkDownNotice x0 x1 s) := by
  unfold execLinkDownNotice
  repeat' (first | with_reducible assumption | with_reducible (first | apply State.at_sound | apply State.heal_sound | apply State.rediscover_sound | apply State.sendOn_sound | apply SoundO.next | exact SoundO.fault | apply SoundO.ite | apply Sound.ite | apply Sound.foldl | apply Sound.forAll | apply Sound.foldlPair | intro _ _ _) | split | dsimp only [refuse, okS, okB, okParts])

theorem State.noteNeighbour_sound {s x1} (h : Sound s) : Sound (State.noteNeighbour s x1) := by
  unfold State.noteNeighbour
  repeat' (first | with_reducible assumption | with_reducible (first | refine State.modRing_sound ?_ (by (first | exact fun a => a | exact fun a => by simpa [upd] using a | (intro a; (try dsimp only); repeat' split) <;> first | exact a | simpa [upd] using a | simp_all)) | apply Sound.ite | apply Sound.foldl | apply Sound.forAll | apply Sound.foldlPair | intro _ _ _) | split | dsimp only [refuse, okS, okB, okParts])

theorem execDiscoveryTokenReceived_sound {x0 x1 s} (h : Sound s) : SoundO (execDiscoveryTokenReceived x0 x1 s) := by
  unfold execDiscoveryTokenReceived
  repeat' (first | with_reducible assumption | with_reducible (first | apply State.at_sound | apply State.checkDepth_sound | refine State.modRing_sound ?_ (by (first | exact fun a => a | exact fun a => by simpa [upd] using a | (intro a; (try dsimp only); repeat' split) <;> first | exact a | simpa [upd] using a | simp_all)) | apply State.noteNeighbour_sound | apply State.sendOn_sound | apply State.setRoot_sound | apply SoundO.next | exact SoundO.fault | apply SoundO.ite | apply Sound.ite | apply Sound.foldl | apply Sound.forAll | apply Sound.foldlPair | intro _ _ _) | split | dsimp only [refuse, okS, okB, okParts])

theorem execLineLinkUp_sound {x0 x1 s} (h : Sound s) : SoundO (execLineLinkUp x0 x1 s) := by
  unfold execLineLinkUp
  repeat' (first | with_reducible assumption | with_reducible (first | apply State.at_sound | refine State.modRing_sound ?_ (by (first | exact fun a => a | exact fun a => by simpa [upd] using a | (intro a; (try dsimp only); repeat' split) <;> first | exact a | simpa [upd] using a | simp_all)) | apply State.rediscover_sound | apply State.topology_sound | apply SoundO.next | exact SoundO.fault | apply SoundO.ite | apply Sound.ite | apply Sound.foldl | apply Sound.forAll | apply Sound.foldlPair | intro _ _ _) | split | dsimp only [refuse, okS, okB, okParts])

theorem State.reportMismatch_sound {s x1 x2} (h : Sound s) : Sound (State.reportMismatch s x1 x2) := by
  unfold State.reportMismatch
  repeat' (first | with_reducible assumption | with_reducible (first | refine State.modRing_sound ?_ (by (first | exact fun a => a | exact fun a => by simpa [upd] using a | (intro a; (try dsimp only); repeat' split) <;> first | exact a | simpa [upd] using a | simp_all)) | apply State.queueFault_sound | apply Sound.ite | apply Sound.foldl | apply Sound.forAll | apply Sound.foldlPair | intro _ _ _) | split | dsimp only [refuse, okS, okB, okParts])

theorem execLineLinkDown_sound {x0 x1 s} (h : Sound s) : SoundO (execLineLinkDown x0 x1 s) := by
  unfold execLineLinkDown
  repeat' (first | with_reducible assumption | with_reducible (first | apply State.at_sound | refine State.modRing_sound ?_ (by (first | exact fun a => a | exact fun a => by simpa [upd] using a | (intro a; (try dsimp only); repeat' split) <;> first | exact a | simpa [upd] using a | simp_all)) | apply State.queueFault_sound | apply State.rediscover_sound | apply State.sendOn_sound | apply State.topology_sound | apply SoundO.next | exact SoundO.fault | apply SoundO.ite | apply Sound.ite | apply Sound.foldl | apply Sound.forAll | apply Sound.foldlPair | intro _ _ _) | split | dsimp only [refuse, okS, okB, okParts])

theorem State.addOwn_sound {s x1} (h : Sound s) : Sound (State.addOwn s x1).1 := by
  have w : ∀ (y : State) f, Sound y → Sound (y.modRing (fun r => { r with faults := (placeFaults 4 y.ring.faults f).2 })) :=
    fun y f a => State.modRing_sound a (fun b => Nat.le_trans (placeFaults_le _ _ _) b)
  unfold State.addOwn
  exact w _ _ (State.reportMismatch_sound h)

theorem State.readResults_sound {s x1} (h : Sound s) : Sound (State.readResults s x1) := by
  unfold State.readResults
  repeat' (first | with_reducible assumption | with_reducible (first | refine State.modRing_sound ?_ (by (first | exact fun a => a | exact fun a => by simpa [upd] using a | (intro a; (try dsimp only); repeat' split) <;> first | exact a | simpa [upd] using a | simp_all)) | apply State.raise_sound | apply Sound.ite | apply Sound.foldl | apply Sound.forAll | apply Sound.foldlPair | intro _ _ _) | split | dsimp only [refuse, okS, okB, okParts])

theorem State.launch_sound {s x1} (h : Sound s) : Sound (State.launch s x1) := by
  unfold State.launch
  repeat' (first | with_reducible assumption | with_reducible (first | apply State.addOwn_sound | apply State.readResults_sound | apply State.sendOn_sound | apply Sound.ite | apply Sound.foldl | apply Sound.forAll | apply Sound.foldlPair | intro _ _ _) | split | dsimp only [refuse, okS, okB, okParts])

theorem execBalanceFrameLaunch_sound {x0 s} (h : Sound s) : SoundO (execBalanceFrameLaunch x0 s) := by
  unfold execBalanceFrameLaunch
  repeat' (first | with_reducible assumption | with_reducible (first | apply State.at_sound | apply State.launch_sound | refine State.modRing_sound ?_ (by (first | exact fun a => a | exact fun a => by simpa [upd] using a | (intro a; (try dsimp only); repeat' split) <;> first | exact a | simpa [upd] using a | simp_all)) | apply SoundO.next | exact SoundO.fault | apply SoundO.ite | apply Sound.ite | apply Sound.foldl | apply Sound.forAll | apply Sound.foldlPair | intro _ _ _) | split | dsimp only [refuse, okS, okB, okParts])

theorem execMainsFrameTimeout_sound {x0 s} (h : Sound s) : SoundO (execMainsFrameTimeout x0 s) := by
  unfold execMainsFrameTimeout
  repeat' (first | with_reducible assumption | with_reducible (first | apply State.at_sound | refine State.modRing_sound ?_ (by (first | exact fun a => a | exact fun a => by simpa [upd] using a | (intro a; (try dsimp only); repeat' split) <;> first | exact a | simpa [upd] using a | simp_all)) | apply SoundO.next | exact SoundO.fault | apply SoundO.ite | apply Sound.ite | apply Sound.foldl | apply Sound.forAll | apply Sound.foldlPair | intro _ _ _) | split | dsimp only [refuse, okS, okB, okParts])

theorem execBalanceReturnLate_sound {x0 s} (h : Sound s) : SoundO (execBalanceReturnLate x0 s) := by
  unfold execBalanceReturnLate
  repeat' (first | with_reducible assumption | with_reducible (first | apply State.at_sound | apply State.keepResults_sound | apply State.topology_sound | apply SoundO.next | exact SoundO.fault | apply SoundO.ite | apply Sound.ite | apply Sound.foldl | apply Sound.forAll | apply Sound.foldlPair | intro _ _ _) | split | dsimp only [refuse, okS, okB, okParts])

theorem execRootLost_sound {x0 s} (h : Sound s) : SoundO (execRootLost x0 s) := by
  unfold execRootLost
  repeat' (first | with_reducible assumption | with_reducible (first | apply State.at_sound | refine State.modRing_sound ?_ (by (first | exact fun a => a | exact fun a => by simpa [upd] using a | (intro a; (try dsimp only); repeat' split) <;> first | exact a | simpa [upd] using a | simp_all)) | apply State.setRoot_sound | apply SoundO.next | exact SoundO.fault | apply SoundO.ite | apply Sound.ite | apply Sound.foldl | apply Sound.forAll | apply Sound.foldlPair | intro _ _ _) | split | dsimp only [refuse, okS, okB, okParts])

theorem execDiscoveryComplete_sound {x0 x1 x2 s} (h : Sound s) : SoundO (execDiscoveryComplete x0 x1 x2 s) := by
  unfold execDiscoveryComplete
  repeat' (first | with_reducible assumption | with_reducible (first | apply State.at_sound | refine State.modRing_sound ?_ (by (first | exact fun a => a | exact fun a => by simpa [upd] using a | (intro a; (try dsimp only); repeat' split) <;> first | exact a | simpa [upd] using a | simp_all)) | refine State.modServo_sound ?_ (by (first | exact fun a => a | exact fun a => by simpa [upd] using a | exact fun a => by simpa [upd, Servo.clearRuns] using a | (intro a; (try dsimp only); repeat' split) <;> first | exact a | simpa [upd] using a | simp_all)) (by (first | exact fun a => a | exact fun a => by simpa [upd] using a | exact fun a => by simpa [upd, Servo.clearRuns] using a | (intro a; (try dsimp only); repeat' split) <;> first | exact a | simpa [upd] using a | simp_all)) | apply State.topology_sound | apply SoundO.next | exact SoundO.fault | apply SoundO.ite | apply Sound.ite | apply Sound.foldl | apply Sound.forAll | apply Sound.foldlPair | intro _ _ _) | split | dsimp only [refuse, okS, okB, okParts])

theorem execRingTestMissing_sound {x0 s} (h : Sound s) : SoundO (execRingTestMissing x0 s) := by
  unfold execRingTestMissing
  repeat' (first | with_reducible assumption | with_reducible (first | apply State.at_sound | apply State.heal_sound | refine State.modRing_sound ?_ (by (first | exact fun a => a | exact fun a => by simpa [upd] using a | (intro a; (try dsimp only); repeat' split) <;> first | exact a | simpa [upd] using a | simp_all)) | apply SoundO.next | exact SoundO.fault | apply SoundO.ite | apply Sound.ite | apply Sound.foldl | apply Sound.forAll | apply Sound.foldlPair | intro _ _ _) | split | dsimp only [refuse, okS, okB, okParts])

theorem execBalanceRetry_sound {x0 s} (h : Sound s) : SoundO (execBalanceRetry x0 s) := by
  unfold execBalanceRetry
  repeat' (first | with_reducible assumption | with_reducible (first | apply State.at_sound | apply State.launch_sound | refine State.modRing_sound ?_ (by (first | exact fun a => a | exact fun a => by simpa [upd] using a | (intro a; (try dsimp only); repeat' split) <;> first | exact a | simpa [upd] using a | simp_all)) | apply SoundO.next | exact SoundO.fault | apply SoundO.ite | apply Sound.ite | apply Sound.foldl | apply Sound.forAll | apply Sound.foldlPair | intro _ _ _) | split | dsimp only [refuse, okS, okB, okParts])

theorem execBalanceFramePass_sound {x0 x1 s} (h : Sound s) : SoundO (execBalanceFramePass x0 x1 s) := by
  unfold execBalanceFramePass
  repeat' (first | with_reducible assumption | with_reducible (first | apply State.addOwn_sound | apply State.at_sound | refine State.modRing_sound ?_ (by (first | exact fun a => a | exact fun a => by simpa [upd] using a | (intro a; (try dsimp only); repeat' split) <;> first | exact a | simpa [upd] using a | simp_all)) | apply State.readResults_sound | apply State.sendOn_sound | apply SoundO.next | exact SoundO.fault | apply SoundO.ite | apply Sound.ite | apply Sound.foldl | apply Sound.forAll | apply Sound.foldlPair | intro _ _ _) | split | dsimp only [refuse, okS, okB, okParts])

end Sys2Proof.Machine
end

