-- ==== Sys2Proof/Laws/SoundBoundary.lean ====
section
/-!
SUPPORT. Each operation of Machine/Boundary.lean keeps the invariant `Sound`.
-/

namespace Sys2Proof.Machine

theorem State.configApplied_sound {s x1 x2} (h : Sound s) : Sound (State.configApplied s x1 x2) := by
  unfold State.configApplied
  repeat' (first | with_reducible assumption | with_reducible (first | apply State.bump_sound | apply State.raise_sound | apply Sound.ite | apply Sound.foldl | apply Sound.forAll | apply Sound.foldlPair | intro _ _ _) | split | dsimp only [refuse, okS, okB, okParts])

theorem State.boundaryValue_sound {s x1 x2} (h : Sound s) : Sound (State.boundaryValue s x1 x2) := by
  unfold State.boundaryValue
  repeat' (first | with_reducible assumption | with_reducible (first | apply State.driveMpo_sound | apply State.modPt_sound | refine State.modServo_sound ?_ (by (first | exact fun a => a | exact fun a => by simpa [upd] using a | exact fun a => by simpa [upd, Servo.clearRuns] using a | (intro a; (try dsimp only); repeat' split) <;> first | exact a | simpa [upd] using a | simp_all)) (by (first | exact fun a => a | exact fun a => by simpa [upd] using a | exact fun a => by simpa [upd, Servo.clearRuns] using a | (intro a; (try dsimp only); repeat' split) <;> first | exact a | simpa [upd] using a | simp_all)) | refine State.modSw_sound ?_ (by (first | exact fun a => a | exact fun a => by simpa [upd] using a | (intro a; (try dsimp only); repeat' split) <;> first | exact a | simpa [upd] using a | simp_all)) | apply State.mpoIdle_sound | apply State.rediscover_sound | apply State.runInput_sound | apply State.settleInput_sound | apply State.startEntry_sound | apply Sound.ite | apply Sound.foldl | apply Sound.forAll | apply Sound.foldlPair | intro _ _ _) | split | dsimp only [refuse, okS, okB, okParts])

theorem State.closePeriod_sound {s x1 x2} (h : Sound s) : Sound (State.closePeriod s x1 x2) := by
  unfold State.closePeriod
  repeat' (first | with_reducible assumption | with_reducible (first | apply State.build_sound | apply State.closeAtPeriod_sound | apply State.modPt_sound | apply Sound.ite | apply Sound.foldl | apply Sound.forAll | apply Sound.foldlPair | intro _ _ _) | split | dsimp only [refuse, okS, okB, okParts])

theorem State.beginSpans_sound {s x1 x2} (h : Sound s) : Sound (State.beginSpans s x1 x2) := by
  unfold State.beginSpans
  repeat' (first | with_reducible assumption | with_reducible (first | refine State.modPts_sound ?_ (by (first | exact fun a => a | exact fun a => by simpa [upd] using a | (intro a; (try dsimp only); repeat' split) <;> first | exact a | simpa [upd] using a | simp_all)) | apply Sound.ite | apply Sound.foldl | apply Sound.forAll | apply Sound.foldlPair | intro _ _ _) | split | dsimp only [refuse, okS, okB, okParts])

theorem State.closeIntervals_sound {s} (h : Sound s) : Sound (State.closeIntervals s) := by
  unfold State.closeIntervals
  repeat' (first | with_reducible assumption | with_reducible (first | refine State.modPts_sound ?_ (by (first | exact fun a => a | exact fun a => by simpa [upd] using a | (intro a; (try dsimp only); repeat' split) <;> first | exact a | simpa [upd] using a | simp_all)) | apply State.modRecs_sound | apply Sound.ite | apply Sound.foldl | apply Sound.forAll | apply Sound.foldlPair | intro _ _ _) | split | dsimp only [refuse, okS, okB, okParts])

theorem State.periodClosed_sound {s x1 x2 x3} (h : Sound s) : Sound (State.periodClosed s x1 x2 x3) := by
  unfold State.periodClosed
  repeat' (first | with_reducible assumption | with_reducible (first | apply State.raise_sound | apply Sound.ite | apply Sound.foldl | apply Sound.forAll | apply Sound.foldlPair | intro _ _ _) | split | dsimp only [refuse, okS, okB, okParts])

theorem State.closePeriods_sound {s x1 x2 x3 x4} (h : Sound s) : Sound (State.closePeriods s x1 x2 x3 x4) := by
  unfold State.closePeriods
  repeat' (first | with_reducible assumption | with_reducible (first | apply State.closePeriod_sound | apply State.enterCapo_sound | refine State.modPts_sound ?_ (by (first | exact fun a => a | exact fun a => by simpa [upd] using a | (intro a; (try dsimp only); repeat' split) <;> first | exact a | simpa [upd] using a | simp_all)) | refine State.modServo_sound ?_ (by (first | exact fun a => a | exact fun a => by simpa [upd] using a | exact fun a => by simpa [upd, Servo.clearRuns] using a | (intro a; (try dsimp only); repeat' split) <;> first | exact a | simpa [upd] using a | simp_all)) (by (first | exact fun a => a | exact fun a => by simpa [upd] using a | exact fun a => by simpa [upd, Servo.clearRuns] using a | (intro a; (try dsimp only); repeat' split) <;> first | exact a | simpa [upd] using a | simp_all)) | apply State.periodClosed_sound | apply Sound.ite | apply Sound.foldl | apply Sound.forAll | apply Sound.foldlPair | intro _ _ _) | split | dsimp only [refuse, okS, okB, okParts])

theorem State.clearDescr_sound {s x1 x2} (h : Sound s) : Sound (State.clearDescr s x1 x2) := by
  unfold State.clearDescr
  repeat' (first | with_reducible assumption | with_reducible (first | apply State.modPar_sound | apply Sound.ite | apply Sound.foldl | apply Sound.forAll | apply Sound.foldlPair | intro _ _ _) | split | dsimp only [refuse, okS, okB, okParts])

theorem State.reservedNow_sound {s x1} (h : Sound s) : Sound (State.reservedNow s x1) := by
  unfold State.reservedNow
  repeat' (first | with_reducible assumption | with_reducible (first | apply State.clearDescr_sound | apply State.restartEntry_sound | apply Sound.ite | apply Sound.foldl | apply Sound.forAll | apply Sound.foldlPair | intro _ _ _) | split | dsimp only [refuse, okS, okB, okParts])

theorem State.retypeRecords_sound {s x1 x2 x3} (h : Sound s) : Sound (State.retypeRecords s x1 x2 x3) := by
  unfold State.retypeRecords
  repeat' (first | with_reducible assumption | with_reducible (first | apply State.buildEvent_sound | apply Sound.ite | apply Sound.foldl | apply Sound.forAll | apply Sound.foldlPair | intro _ _ _) | split | dsimp only [refuse, okS, okB, okParts])

theorem State.retype_sound {s x1 x2 x3} (h : Sound s) : Sound (State.retype s x1 x2 x3) := by
  unfold State.retype
  repeat' (first | with_reducible assumption | with_reducible (first | apply State.command_sound | apply State.modPt_sound | apply State.mpoIdle_sound | apply State.retypeRecords_sound | apply State.runInput_sound | apply State.settleInput_sound | apply Sound.ite | apply Sound.foldl | apply Sound.forAll | apply Sound.foldlPair | intro _ _ _) | split | dsimp only [refuse, okS, okB, okParts])

theorem State.commitRipe_sound {s x1} (h : Sound s) : Sound (State.commitRipe s x1) := by
  unfold State.commitRipe
  repeat' (first | with_reducible assumption | with_reducible (first | apply State.boundaryValue_sound | apply State.configApplied_sound | apply State.modPar_sound | apply State.reservedNow_sound | apply State.retype_sound | apply Sound.ite | apply Sound.foldl | apply Sound.forAll | apply Sound.foldlPair | intro _ _ _) | split | dsimp only [refuse, okS, okB, okParts])

theorem State.endTail_sound {s} (h : Sound s) : Sound (State.endTail s) := by
  unfold State.endTail
  repeat' (first | with_reducible assumption | with_reducible (first | apply State.modLed_sound | apply Sound.ite | apply Sound.foldl | apply Sound.forAll | apply Sound.foldlPair | intro _ _ _) | split | dsimp only [refuse, okS, okB, okParts])

theorem State.incomplete_sound {s} (h : Sound s) : Sound (State.incomplete s) := by
  unfold State.incomplete
  repeat' (first | with_reducible assumption | with_reducible (first | apply State.raise_sound | apply Sound.ite | apply Sound.foldl | apply Sound.forAll | apply Sound.foldlPair | intro _ _ _) | split | dsimp only [refuse, okS, okB, okParts])

theorem State.joinPeriods_sound {s} (h : Sound s) : Sound (State.joinPeriods s) := by
  unfold State.joinPeriods
  repeat' (first | with_reducible assumption | with_reducible (first | refine State.modPts_sound ?_ (by (first | exact fun a => a | exact fun a => by simpa [upd] using a | (intro a; (try dsimp only); repeat' split) <;> first | exact a | simpa [upd] using a | simp_all)) | apply Sound.ite | apply Sound.foldl | apply Sound.forAll | apply Sound.foldlPair | intro _ _ _) | split | dsimp only [refuse, okS, okB, okParts])

theorem State.serviceAt_sound {s x1 x2} (h : Sound s) : Sound (State.serviceAt s x1 x2) := by
  unfold State.serviceAt
  repeat' (first | with_reducible assumption | with_reducible (first | apply State.backToIdle_sound | apply State.buildEvent_sound | apply State.freshPilot_sound | apply State.modPt_sound | apply State.pathOff_sound | apply Sound.ite | apply Sound.foldl | apply Sound.forAll | apply Sound.foldlPair | intro _ _ _) | split | dsimp only [refuse, okS, okB, okParts])

theorem State.boundaryWork_sound {s x1} (h : Sound s) : Sound (State.boundaryWork s x1) := by
  unfold State.boundaryWork
  repeat' (first | with_reducible assumption | with_reducible (first | apply State.beginSpans_sound | apply State.buildLate_sound | apply State.closeIntervals_sound | apply State.closePeriods_sound | apply State.commitRipe_sound | apply State.completeEntry_sound | apply State.endTail_sound | apply State.incomplete_sound | apply State.joinPeriods_sound | apply State.loadRcd_sound | apply State.modClk_sound | apply State.modCourse_sound | apply State.modEng_sound | apply State.modPt_sound | refine State.modServo_sound ?_ (by (first | exact fun a => a | exact fun a => by simpa [upd] using a | exact fun a => by simpa [upd, Servo.clearRuns] using a | (intro a; (try dsimp only); repeat' split) <;> first | exact a | simpa [upd] using a | simp_all)) (by (first | exact fun a => a | exact fun a => by simpa [upd] using a | exact fun a => by simpa [upd, Servo.clearRuns] using a | (intro a; (try dsimp only); repeat' split) <;> first | exact a | simpa [upd] using a | simp_all)) | apply State.plcSweep_sound | apply State.postBalance_sound | apply State.ripened_sound | apply State.saveLedger_sound | apply State.serviceAt_sound | apply State.setPilot_sound | apply State.swapImages_sound | apply Sound.ite | apply Sound.foldl | apply Sound.forAll | apply Sound.foldlPair | intro _ _ _) | split | dsimp only [refuse, okS, okB, okParts])

theorem execIntervalBoundary_sound {x0 s} (h : Sound s) : SoundO (execIntervalBoundary x0 s) := by
  unfold execIntervalBoundary
  repeat' (first | with_reducible assumption | with_reducible (first | apply State.at_sound | apply State.boundaryWork_sound | apply SoundO.next | exact SoundO.fault | apply SoundO.ite | apply Sound.ite | apply Sound.foldl | apply Sound.forAll | apply Sound.foldlPair | intro _ _ _) | split | dsimp only [refuse, okS, okB, okParts])

end Sys2Proof.Machine
end

