-- ==== Sys2Proof/Laws/SoundDisplay.lean ====
section
/-!
SUPPORT. Each operation of Machine/Display.lean keeps the invariant `Sound`.
-/

namespace Sys2Proof.Machine

theorem State.dispOff_sound {s} (h : Sound s) : Sound (State.dispOff s) := by
  unfold State.dispOff
  repeat' (first | with_reducible assumption | with_reducible (first | apply State.modDisp_sound | apply Sound.ite | apply Sound.foldl | apply Sound.forAll | apply Sound.foldlPair | intro _ _ _) | split | dsimp only [refuse, okS, okB, okParts])

theorem State.stopPhase_sound {s x1} (h : Sound s) : Sound (State.stopPhase s x1) := by
  unfold State.stopPhase
  repeat' (first | with_reducible assumption | with_reducible (first | apply State.modDisp_sound | apply Sound.ite | apply Sound.foldl | apply Sound.forAll | apply Sound.foldlPair | intro _ _ _) | split | dsimp only [refuse, okS, okB, okParts])

theorem State.dispReset_sound {s} (h : Sound s) : Sound (State.dispReset s) := by
  unfold State.dispReset
  repeat' (first | with_reducible assumption | with_reducible (first | apply State.dispOff_sound | apply State.stopPhase_sound | apply Sound.ite | apply Sound.foldl | apply Sound.forAll | apply Sound.foldlPair | intro _ _ _) | split | dsimp only [refuse, okS, okB, okParts])

theorem State.dispDisable_sound {s} (h : Sound s) : Sound (State.dispDisable s) := by
  unfold State.dispDisable
  repeat' (first | with_reducible assumption | with_reducible (first | apply State.dispOff_sound | apply State.modDisp_sound | apply Sound.ite | apply Sound.foldl | apply Sound.forAll | apply Sound.foldlPair | intro _ _ _) | split | dsimp only [refuse, okS, okB, okParts])

theorem State.frontLight_sound {s} (h : Sound s) : Sound (State.frontLight s) := by
  unfold State.frontLight
  repeat' (first | with_reducible assumption | with_reducible (first | apply State.modDisp_sound | apply Sound.ite | apply Sound.foldl | apply Sound.forAll | apply Sound.foldlPair | intro _ _ _) | split | dsimp only [refuse, okS, okB, okParts])

theorem State.dispWarning_sound {s} (h : Sound s) : Sound (State.dispWarning s) := by
  unfold State.dispWarning
  repeat' (first | with_reducible assumption | with_reducible (first | apply State.dispOff_sound | apply State.stopPhase_sound | apply Sound.ite | apply Sound.foldl | apply Sound.forAll | apply Sound.foldlPair | intro _ _ _) | split | dsimp only [refuse, okS, okB, okParts])

theorem serveDisplayStatic_sound {x0 s} (h : Sound s) : Sound (serveDisplayStatic x0 s).st := by
  unfold serveDisplayStatic okS refuse
  repeat' (first | with_reducible assumption | with_reducible (first | apply State.modDisp_sound | apply Sound.ite | apply Sound.foldl | apply Sound.forAll | apply Sound.foldlPair | intro _ _ _) | split | dsimp only [refuse, okS, okB, okParts])

theorem execDisplayStatic_sound {x0 x1 s} (h : Sound s) : SoundO (execDisplayStatic x0 x1 s) := hostCmd_sound h (fun _ _ a => serveDisplayStatic_sound a)

theorem State.startPhase_sound {s x1 x2 x3} (h : Sound s) : Sound (State.startPhase s x1 x2 x3) := by
  unfold State.startPhase
  repeat' (first | with_reducible assumption | with_reducible (first | apply State.modDisp_sound | apply Sound.ite | apply Sound.foldl | apply Sound.forAll | apply Sound.foldlPair | intro _ _ _) | split | dsimp only [refuse, okS, okB, okParts])

theorem State.startRun_sound {s x1 x2 x3 x4} (h : Sound s) : Sound (State.startRun s x1 x2 x3 x4) := by
  unfold State.startRun
  repeat' (first | with_reducible assumption | with_reducible (first | apply State.modDisp_sound | apply State.startPhase_sound | apply Sound.ite | apply Sound.foldl | apply Sound.forAll | apply Sound.foldlPair | intro _ _ _) | split | dsimp only [refuse, okS, okB, okParts])

theorem State.dispDone_sound {s x1 x2} (h : Sound s) : Sound (State.dispDone s x1 x2) := by
  unfold State.dispDone
  repeat' (first | with_reducible assumption | with_reducible (first | apply State.raiseRaw_sound | apply Sound.ite | apply Sound.foldl | apply Sound.forAll | apply Sound.foldlPair | intro _ _ _) | split | dsimp only [refuse, okS, okB, okParts])

theorem State.dispFault_sound {s x1 x2 x3} (h : Sound s) : Sound (State.dispFault s x1 x2 x3) := by
  unfold State.dispFault
  repeat' (first | with_reducible assumption | with_reducible (first | apply State.modDisp_sound | apply State.raiseRaw_sound | apply Sound.ite | apply Sound.foldl | apply Sound.forAll | apply Sound.foldlPair | intro _ _ _) | split | dsimp only [refuse, okS, okB, okParts])

theorem State.startRemainder_sound {s x1 x2} (h : Sound s) : Sound (State.startRemainder s x1 x2) := by
  unfold State.startRemainder
  repeat' (first | with_reducible assumption | with_reducible (first | apply State.modDisp_sound | apply Sound.ite | apply Sound.foldl | apply Sound.forAll | apply Sound.foldlPair | intro _ _ _) | split | dsimp only [refuse, okS, okB, okParts])

theorem State.dispNext_sound {s x1} (h : Sound s) : Sound (State.dispNext s x1) := by
  unfold State.dispNext
  repeat' (first | with_reducible assumption | with_reducible (first | apply State.dispFault_sound | apply State.modDisp_sound | apply State.startRemainder_sound | apply State.startRun_sound | apply Sound.ite | apply Sound.foldl | apply Sound.forAll | apply Sound.foldlPair | intro _ _ _) | split | dsimp only [refuse, okS, okB, okParts])

theorem State.wantUpdate_sound {s x1} (h : Sound s) : Sound (State.wantUpdate s x1) := by
  unfold State.wantUpdate
  repeat' (first | with_reducible assumption | with_reducible (first | apply State.dispNext_sound | apply State.modDisp_sound | apply Sound.ite | apply Sound.foldl | apply Sound.forAll | apply Sound.foldlPair | intro _ _ _) | split | dsimp only [refuse, okS, okB, okParts])

theorem State.turnPage_sound {s} (h : Sound s) : Sound (State.turnPage s) := by
  unfold State.turnPage
  repeat' (first | with_reducible assumption | with_reducible (first | apply State.modDisp_sound | apply State.wantUpdate_sound | apply Sound.ite | apply Sound.foldl | apply Sound.forAll | apply Sound.foldlPair | intro _ _ _) | split | dsimp only [refuse, okS, okB, okParts])

theorem State.unpin_sound {s} (h : Sound s) : Sound (State.unpin s) := by
  unfold State.unpin
  repeat' (first | with_reducible assumption | with_reducible (first | apply State.modDisp_sound | apply State.turnPage_sound | apply Sound.ite | apply Sound.foldl | apply Sound.forAll | apply Sound.foldlPair | intro _ _ _) | split | dsimp only [refuse, okS, okB, okParts])

theorem serveDisplayPin_sound {x0 s} (h : Sound s) : Sound (serveDisplayPin x0 s).st := by
  unfold serveDisplayPin okS refuse
  repeat' (first | with_reducible assumption | with_reducible (first | apply State.modDisp_sound | apply State.unpin_sound | apply State.wantUpdate_sound | apply Sound.ite | apply Sound.foldl | apply Sound.forAll | apply Sound.foldlPair | intro _ _ _) | split | dsimp only [refuse, okS, okB, okParts])

theorem serveDisplayUpdate_sound {x0 s} (h : Sound s) : Sound (serveDisplayUpdate x0 s).st := by
  unfold serveDisplayUpdate noPayload okS refuse
  repeat' (first | with_reducible assumption | with_reducible (first | apply State.dispNext_sound | apply State.modDisp_sound | apply Sound.ite | apply Sound.foldl | apply Sound.forAll | apply Sound.foldlPair | intro _ _ _) | split | dsimp only [refuse, okS, okB, okParts])

theorem State.updateEnd_sound {s x1} (h : Sound s) : Sound (State.updateEnd s x1) := by
  unfold State.updateEnd
  repeat' (first | with_reducible assumption | with_reducible (first | apply State.dispDone_sound | apply State.dispOff_sound | apply State.modDisp_sound | apply Sound.ite | apply Sound.foldl | apply Sound.forAll | apply Sound.foldlPair | intro _ _ _) | split | dsimp only [refuse, okS, okB, okParts])

theorem State.railStart_sound {s x1 x2 x3 x4} (h : Sound s) : Sound (State.railStart s x1 x2 x3 x4) := by
  unfold State.railStart
  repeat' (first | with_reducible assumption | with_reducible (first | apply State.dispFault_sound | apply State.dispNext_sound | apply State.modDisp_sound | apply State.readMram_sound | apply Sound.ite | apply Sound.foldl | apply Sound.forAll | apply Sound.foldlPair | intro _ _ _) | split | dsimp only [refuse, okS, okB, okParts])

theorem serveDisplayTemperature_sound {x0 s} (h : Sound s) : Sound (serveDisplayTemperature x0 s).st := by
  unfold serveDisplayTemperature okS refuse
  repeat' (first | with_reducible assumption | with_reducible (first | apply State.modDisp_sound | apply Sound.ite | apply Sound.foldl | apply Sound.forAll | apply Sound.foldlPair | intro _ _ _) | split | dsimp only [refuse, okS, okB, okParts])

theorem serveDisplayWaveform_sound {x0 x1 s} (h : Sound s) : Sound (serveDisplayWaveform x0 x1 s).st := by
  unfold serveDisplayWaveform withSeal withLog okS refuse
  repeat' (first | with_reducible assumption | with_reducible (first | apply State.enterHost_sound | apply State.logRefused_sound | apply State.modDisp_sound | apply Sound.ite | apply Sound.foldl | apply Sound.forAll | apply Sound.foldlPair | intro _ _ _) | split | dsimp only [refuse, okS, okB, okParts])

theorem execDisplayPageChange_sound {x0 s} (h : Sound s) : SoundO (execDisplayPageChange x0 s) := by
  unfold execDisplayPageChange
  repeat' (first | with_reducible assumption | with_reducible (first | apply State.at_sound | apply State.turnPage_sound | apply SoundO.next | exact SoundO.fault | apply SoundO.ite | apply Sound.ite | apply Sound.foldl | apply Sound.forAll | apply Sound.foldlPair | intro _ _ _) | split | dsimp only [refuse, okS, okB, okParts])

theorem execDisplayPin_sound {x0 x1 s} (h : Sound s) : SoundO (execDisplayPin x0 x1 s) := hostCmd_sound h (fun _ _ a => serveDisplayPin_sound a)

theorem execDisplayUpdate_sound {x0 x1 s} (h : Sound s) : SoundO (execDisplayUpdate x0 x1 s) := hostCmd_sound h (fun _ _ a => serveDisplayUpdate_sound a)

theorem execDisplayTemperature_sound {x0 x1 s} (h : Sound s) : SoundO (execDisplayTemperature x0 x1 s) := hostCmd_sound h (fun _ _ a => serveDisplayTemperature_sound a)

theorem State.endRun_sound {s x1 x2} (h : Sound s) : Sound (State.endRun s x1 x2) := by
  unfold State.endRun
  repeat' (first | with_reducible assumption | with_reducible (first | apply State.dispDone_sound | apply State.dispNext_sound | apply State.dispOff_sound | apply State.frontLight_sound | apply State.modDisp_sound | apply State.startPhase_sound | apply State.updateEnd_sound | apply Sound.ite | apply Sound.foldl | apply Sound.forAll | apply Sound.foldlPair | intro _ _ _) | split | dsimp only [refuse, okS, okB, okParts])

theorem execDisplayPhaseEnd_sound {x0 s} (h : Sound s) : SoundO (execDisplayPhaseEnd x0 s) := by
  unfold execDisplayPhaseEnd
  repeat' (first | with_reducible assumption | with_reducible (first | apply State.at_sound | apply State.endRun_sound | apply State.modDisp_sound | apply State.startPhase_sound | apply SoundO.next | exact SoundO.fault | apply SoundO.ite | apply Sound.ite | apply Sound.foldl | apply Sound.forAll | apply Sound.foldlPair | intro _ _ _) | split | dsimp only [refuse, okS, okB, okParts])

theorem execDisplayBookMark_sound {x0 s} (h : Sound s) : SoundO (execDisplayBookMark x0 s) := by
  unfold execDisplayBookMark
  repeat' (first | with_reducible assumption | with_reducible (first | apply State.at_sound | apply State.modDisp_sound | apply SoundO.next | exact SoundO.fault | apply SoundO.ite | apply Sound.ite | apply Sound.foldl | apply Sound.forAll | apply Sound.foldlPair | intro _ _ _) | split | dsimp only [refuse, okS, okB, okParts])

theorem execDisplayStartRetry_sound {x0 x1 x2 x3 s} (h : Sound s) : SoundO (execDisplayStartRetry x0 x1 x2 x3 s) := by
  unfold execDisplayStartRetry
  repeat' (first | with_reducible assumption | with_reducible (first | apply State.at_sound | apply State.railStart_sound | apply SoundO.next | exact SoundO.fault | apply SoundO.ite | apply Sound.ite | apply Sound.foldl | apply Sound.forAll | apply Sound.foldlPair | intro _ _ _) | split | dsimp only [refuse, okS, okB, okParts])

theorem execDisplayWaveform_sound {x0 x1 s} (h : Sound s) : SoundO (execDisplayWaveform x0 x1 s) := hostCmd_sound h (fun _ _ a => serveDisplayWaveform_sound a)

theorem execDisplayRefresh_sound {x0 s} (h : Sound s) : SoundO (execDisplayRefresh x0 s) := by
  unfold execDisplayRefresh
  repeat' (first | with_reducible assumption | with_reducible (first | apply State.at_sound | apply State.modDisp_sound | apply State.wantUpdate_sound | apply SoundO.next | exact SoundO.fault | apply SoundO.ite | apply Sound.ite | apply Sound.foldl | apply Sound.forAll | apply Sound.foldlPair | intro _ _ _) | split | dsimp only [refuse, okS, okB, okParts])

theorem execDisplayPinExpiry_sound {x0 s} (h : Sound s) : SoundO (execDisplayPinExpiry x0 s) := by
  unfold execDisplayPinExpiry
  repeat' (first | with_reducible assumption | with_reducible (first | apply State.at_sound | apply State.unpin_sound | apply SoundO.next | exact SoundO.fault | apply SoundO.ite | apply Sound.ite | apply Sound.foldl | apply Sound.forAll | apply Sound.foldlPair | intro _ _ _) | split | dsimp only [refuse, okS, okB, okParts])

theorem execDisplayRailTimeout_sound {x0 s} (h : Sound s) : SoundO (execDisplayRailTimeout x0 s) := by
  unfold execDisplayRailTimeout
  repeat' (first | with_reducible assumption | with_reducible (first | apply State.at_sound | apply State.dispFault_sound | apply State.modDisp_sound | apply SoundO.next | exact SoundO.fault | apply SoundO.ite | apply Sound.ite | apply Sound.foldl | apply Sound.forAll | apply Sound.foldlPair | intro _ _ _) | split | dsimp only [refuse, okS, okB, okParts])

theorem execDisplayTempExpiry_sound {x0 s} (h : Sound s) : SoundO (execDisplayTempExpiry x0 s) := by
  unfold execDisplayTempExpiry
  repeat' (first | with_reducible assumption | with_reducible (first | apply State.at_sound | apply State.modDisp_sound | apply SoundO.next | exact SoundO.fault | apply SoundO.ite | apply Sound.ite | apply Sound.foldl | apply Sound.forAll | apply Sound.foldlPair | intro _ _ _) | split | dsimp only [refuse, okS, okB, okParts])

theorem execDisplayStart_sound {x0 x1 x2 x3 s} (h : Sound s) : SoundO (execDisplayStart x0 x1 x2 x3 s) := by
  unfold execDisplayStart
  repeat' (first | with_reducible assumption | with_reducible (first | apply State.at_sound | apply State.railStart_sound | apply SoundO.next | exact SoundO.fault | apply SoundO.ite | apply Sound.ite | apply Sound.foldl | apply Sound.forAll | apply Sound.foldlPair | intro _ _ _) | split | dsimp only [refuse, okS, okB, okParts])

theorem execDisplayOvercurrent_sound {x0 x1 s} (h : Sound s) : SoundO (execDisplayOvercurrent x0 x1 s) := by
  unfold execDisplayOvercurrent
  repeat' (first | with_reducible assumption | with_reducible (first | apply State.at_sound | apply State.dispFault_sound | apply SoundO.next | exact SoundO.fault | apply SoundO.ite | apply Sound.ite | apply Sound.foldl | apply Sound.forAll | apply Sound.foldlPair | intro _ _ _) | split | dsimp only [refuse, okS, okB, okParts])

end Sys2Proof.Machine
end

