-- ==== Sys2Proof/Laws/SoundFluid.lean ====
section
/-!
SUPPORT. Each operation of Machine/Fluid.lean keeps the invariant `Sound`.
-/

namespace Sys2Proof.Machine

theorem State.modFl_sound {s x1 x2} (h : Sound s) : Sound (State.modFl s x1 x2) := by
  unfold State.modFl
  repeat' (first | with_reducible assumption | with_reducible (first | apply State.modPt_sound | apply Sound.ite | apply Sound.foldl | apply Sound.forAll | apply Sound.foldlPair | intro _ _ _) | split | dsimp only [refuse, okS, okB, okParts])

theorem State.burstOrifice_sound {s x1 x2 x3 x4 x5 x6} (h : Sound s) : Sound (State.burstOrifice s x1 x2 x3 x4 x5 x6) := by
  unfold State.burstOrifice
  repeat' (first | with_reducible assumption | with_reducible (first | apply State.modFl_sound | apply Sound.ite | apply Sound.foldl | apply Sound.forAll | apply Sound.foldlPair | intro _ _ _) | split | dsimp only [refuse, okS, okB, okParts])

theorem State.regionEvent_sound {s x1 x2 x3 x4 x5 x6 x7 x8} (h : Sound s) : Sound (State.regionEvent s x1 x2 x3 x4 x5 x6 x7 x8) := by
  unfold State.regionEvent
  repeat' (first | with_reducible assumption | with_reducible (first | apply State.raiseAt_sound | apply Sound.ite | apply Sound.foldl | apply Sound.forAll | apply Sound.foldlPair | intro _ _ _) | split | dsimp only [refuse, okS, okB, okParts])

theorem State.evalState_sound {s x1 x2 x3 x4 x5 x6 x7} (h : Sound s) : Sound (State.evalState s x1 x2 x3 x4 x5 x6 x7) := by
  unfold State.evalState
  repeat' (first | with_reducible assumption | with_reducible (first | apply State.modFl_sound | apply State.regionEvent_sound | apply Sound.ite | apply Sound.foldl | apply Sound.forAll | apply Sound.foldlPair | intro _ _ _) | split | dsimp only [refuse, okS, okB, okParts])

theorem State.burst_sound {s x1 x2 x3} (h : Sound s) : Sound (State.burst s x1 x2 x3) := by
  unfold State.burst
  repeat' (first | with_reducible assumption | with_reducible (first | apply State.burstOrifice_sound | apply State.evalState_sound | apply State.modFl_sound | apply Sound.ite | apply Sound.foldl | apply Sound.forAll | apply Sound.foldlPair | intro _ _ _) | split | dsimp only [refuse, okS, okB, okParts])

theorem State.modRole_sound {s x1 x2 x3} (h : Sound s) : Sound (State.modRole s x1 x2 x3) := by
  unfold State.modRole
  repeat' (first | with_reducible assumption | with_reducible (first | apply State.modPt_sound | apply Sound.ite | apply Sound.foldl | apply Sound.forAll | apply Sound.foldlPair | intro _ _ _) | split | dsimp only [refuse, okS, okB, okParts])

theorem State.takeRole_sound {s x1 x2 x3 x4} (h : Sound s) : Sound (State.takeRole s x1 x2 x3 x4) := by
  unfold State.takeRole
  repeat' (first | with_reducible assumption | with_reducible (first | apply State.modRole_sound | apply Sound.ite | apply Sound.foldl | apply Sound.forAll | apply Sound.foldlPair | intro _ _ _) | split | dsimp only [refuse, okS, okB, okParts])

theorem State.faultEvent_sound {s x1 x2 x3 x4} (h : Sound s) : Sound (State.faultEvent s x1 x2 x3 x4) := by
  unfold State.faultEvent
  repeat' (first | with_reducible assumption | with_reducible (first | apply State.raiseAt_sound | apply Sound.ite | apply Sound.foldl | apply Sound.forAll | apply Sound.foldlPair | intro _ _ _) | split | dsimp only [refuse, okS, okB, okParts])

theorem State.putFault_sound {s x1 x2 x3 x4} (h : Sound s) : Sound (State.putFault s x1 x2 x3 x4) := by
  unfold State.putFault
  repeat' (first | with_reducible assumption | with_reducible (first | apply State.modFl_sound | apply State.modRole_sound | apply State.modSlice_sound | apply Sound.ite | apply Sound.foldl | apply Sound.forAll | apply Sound.foldlPair | intro _ _ _) | split | dsimp only [refuse, okS, okB, okParts])

theorem execSensorFaultDeclared_sound {x0 x1 x2 x3 s} (h : Sound s) : SoundO (execSensorFaultDeclared x0 x1 x2 x3 s) := by
  unfold execSensorFaultDeclared
  repeat' (first | with_reducible assumption | with_reducible (first | apply State.at_sound | apply State.faultEvent_sound | apply State.putFault_sound | apply SoundO.next | exact SoundO.fault | apply SoundO.ite | apply Sound.ite | apply Sound.foldl | apply Sound.forAll | apply Sound.foldlPair | intro _ _ _) | split | dsimp only [refuse, okS, okB, okParts])

theorem State.reversal_sound {s x1 x2 x3} (h : Sound s) : Sound (State.reversal s x1 x2 x3) := by
  unfold State.reversal
  repeat' (first | with_reducible assumption | with_reducible (first | apply State.countStart_sound | apply State.modFl_sound | apply State.raiseAt_sound | apply Sound.ite | apply Sound.foldl | apply Sound.forAll | apply Sound.foldlPair | intro _ _ _) | split | dsimp only [refuse, okS, okB, okParts])

theorem State.takePulses_sound {s x1 x2 x3 x4} (h : Sound s) : Sound (State.takePulses s x1 x2 x3 x4) := by
  unfold State.takePulses
  repeat' (first | with_reducible assumption | with_reducible (first | apply State.modFl_sound | apply Sound.ite | apply Sound.foldl | apply Sound.forAll | apply Sound.foldlPair | intro _ _ _) | split | dsimp only [refuse, okS, okB, okParts])

theorem State.fluidFrame_sound {s x1 x2 x3} (h : Sound s) : Sound (State.fluidFrame s x1 x2 x3).1 := by
  unfold State.fluidFrame
  repeat' (first | with_reducible assumption | with_reducible (first | apply State.burst_sound | apply State.modFl_sound | apply State.modPt_sound | apply State.reversal_sound | apply State.takePulses_sound | apply State.takeRole_sound | apply Sound.ite | apply Sound.foldl | apply Sound.forAll | apply Sound.foldlPair | intro _ _ _) | split | dsimp only [refuse, okS, okB, okParts])

theorem execExcitationCompliance_sound {x0 x1 x2 s} (h : Sound s) : SoundO (execExcitationCompliance x0 x1 x2 s) := by
  unfold execExcitationCompliance
  repeat' (first | with_reducible assumption | with_reducible (first | apply State.at_sound | apply State.modFl_sound | apply SoundO.next | exact SoundO.fault | apply SoundO.ite | apply Sound.ite | apply Sound.foldl | apply Sound.forAll | apply Sound.foldlPair | intro _ _ _) | split | dsimp only [refuse, okS, okB, okParts])

theorem execPulseEdge_sound {x0 x1 x2 x3 x4 x5 s} (h : Sound s) : SoundO (execPulseEdge x0 x1 x2 x3 x4 x5 s) := by
  unfold execPulseEdge
  repeat' (first | with_reducible assumption | with_reducible (first | apply State.at_sound | apply State.bump_sound | apply State.modPt_sound | apply SoundO.next | exact SoundO.fault | apply SoundO.ite | apply Sound.ite | apply Sound.foldl | apply Sound.forAll | apply Sound.foldlPair | intro _ _ _) | split | dsimp only [refuse, okS, okB, okParts])

theorem execSensorFaultCleared_sound {x0 x1 x2 x3 s} (h : Sound s) : SoundO (execSensorFaultCleared x0 x1 x2 x3 s) := by
  unfold execSensorFaultCleared
  repeat' (first | with_reducible assumption | with_reducible (first | apply State.at_sound | apply State.faultEvent_sound | apply State.modFl_sound | apply State.putFault_sound | apply SoundO.next | exact SoundO.fault | apply SoundO.ite | apply Sound.ite | apply Sound.foldl | apply Sound.forAll | apply Sound.foldlPair | intro _ _ _) | split | dsimp only [refuse, okS, okB, okParts])

end Sys2Proof.Machine
end

