-- ==== Sys2Proof/Laws/SoundQuality.lean ====
section
/-!
SUPPORT. Each operation of Machine/Quality.lean keeps the invariant `Sound`.
-/

namespace Sys2Proof.Machine

theorem State.capPush_sound {s x1} (h : Sound s) : Sound (State.capPush s x1) := State.modStream_sound h (fun _ a => fifoPushes_ok a)

theorem State.capTrailer_sound {s x1 x2} (h : Sound s) : Sound (State.capTrailer s x1 x2) := State.unitDone_sound (State.modStream_sound (State.modEng_sound h) (fun _ a => fifoPush_ok a))

theorem State.capFrame_sound {s x1} (h : Sound s) : Sound (State.capFrame s x1) := by
  unfold State.capFrame
  repeat' (first | with_reducible assumption | with_reducible (first | apply State.capPush_sound | apply State.capTrailer_sound | apply State.modEng_sound | apply State.wordLost_sound | apply Sound.ite | apply Sound.foldl | apply Sound.forAll | apply Sound.foldlPair | intro _ _ _) | split | dsimp only [refuse, okS, okB, okParts])

theorem State.capTrigger_sound {s x1 x2 x3} (h : Sound s) : Sound (State.capTrigger s x1 x2 x3) := by
  unfold State.capTrigger
  repeat' (first | with_reducible assumption | with_reducible (first | apply State.capFrame_sound | apply State.capPush_sound | apply State.modEng_sound | apply Sound.ite | apply Sound.foldl | apply Sound.forAll | apply Sound.foldlPair | intro _ _ _) | split | dsimp only [refuse, okS, okB, okParts])

theorem State.shEvent_sound {s x1 x2 x3 x4 x5 x6 x7} (h : Sound s) : Sound (State.shEvent s x1 x2 x3 x4 x5 x6 x7) := by
  unfold State.shEvent
  repeat' (first | with_reducible assumption | with_reducible (first | apply State.raiseRaw_sound | apply Sound.ite | apply Sound.foldl | apply Sound.forAll | apply Sound.foldlPair | intro _ _ _) | split | dsimp only [refuse, okS, okB, okParts])

theorem State.publishBlock_sound {s x1 x2 x3} (h : Sound s) : Sound (State.publishBlock s x1 x2 x3) := by
  unfold State.publishBlock
  repeat' (first | with_reducible assumption | with_reducible (first | apply State.capTrigger_sound | apply State.modPt_sound | apply State.shEvent_sound | apply Sound.ite | apply Sound.foldl | apply Sound.forAll | apply Sound.foldlPair | intro _ _ _) | split | dsimp only [refuse, okS, okB, okParts])

theorem State.pqEvent_sound {s x1 x2 x3 x4 x5 x6} (h : Sound s) : Sound (State.pqEvent s x1 x2 x3 x4 x5 x6) := by
  unfold State.pqEvent
  repeat' (first | with_reducible assumption | with_reducible (first | apply State.raiseMid_sound | apply Sound.ite | apply Sound.foldl | apply Sound.forAll | apply Sound.foldlPair | intro _ _ _) | split | dsimp only [refuse, okS, okB, okParts])

theorem State.pqKind_sound {s x1 x2 x3 x4 x5} (h : Sound s) : Sound (State.pqKind s x1 x2 x3 x4 x5) := by
  unfold State.pqKind
  repeat' (first | with_reducible assumption | with_reducible (first | apply State.capTrigger_sound | apply State.modPt_sound | apply State.pqEvent_sound | apply Sound.ite | apply Sound.foldl | apply Sound.forAll | apply Sound.foldlPair | intro _ _ _) | split | dsimp only [refuse, okS, okB, okParts])

theorem State.openWindow_sound {s x1 x2} (h : Sound s) : Sound (State.openWindow s x1 x2) := by
  unfold State.openWindow
  repeat' (first | with_reducible assumption | with_reducible (first | apply State.modPt_sound | apply Sound.ite | apply Sound.foldl | apply Sound.forAll | apply Sound.foldlPair | intro _ _ _) | split | dsimp only [refuse, okS, okB, okParts])

theorem State.dropWindow_sound {s x1 x2} (h : Sound s) : Sound (State.dropWindow s x1 x2) := by
  unfold State.dropWindow
  repeat' (first | with_reducible assumption | with_reducible (first | apply State.modPt_sound | apply Sound.ite | apply Sound.foldl | apply Sound.forAll | apply Sound.foldlPair | intro _ _ _) | split | dsimp only [refuse, okS, okB, okParts])

theorem State.pqEndAll_sound {s x1 x2 x3} (h : Sound s) : Sound (State.pqEndAll s x1 x2 x3) := by
  unfold State.pqEndAll
  repeat' (first | with_reducible assumption | with_reducible (first | apply State.modPt_sound | apply State.pqEvent_sound | apply Sound.ite | apply Sound.foldl | apply Sound.forAll | apply Sound.foldlPair | intro _ _ _) | split | dsimp only [refuse, okS, okB, okParts])

theorem State.leaveSpectrum_sound {s x1} (h : Sound s) : Sound (State.leaveSpectrum s x1) := by
  unfold State.leaveSpectrum
  repeat' (first | with_reducible assumption | with_reducible (first | apply State.modPt_sound | apply State.shEvent_sound | apply Sound.ite | apply Sound.foldl | apply Sound.forAll | apply Sound.foldlPair | intro _ _ _) | split | dsimp only [refuse, okS, okB, okParts])

theorem State.capStep_sound {s x1 x2} (h : Sound s) : Sound (State.capStep s x1 x2) := by
  unfold State.capStep
  repeat' (first | with_reducible assumption | with_reducible (first | apply State.capFrame_sound | apply State.modPt_sound | apply Sound.ite | apply Sound.foldl | apply Sound.forAll | apply Sound.foldlPair | intro _ _ _) | split | dsimp only [refuse, okS, okB, okParts])

theorem State.pqDetect_sound {s x1 x2 x3 x4} (h : Sound s) : Sound (State.pqDetect s x1 x2 x3 x4) := by
  unfold State.pqDetect
  repeat' (first | with_reducible assumption | with_reducible (first | apply State.modPt_sound | apply State.pqEndAll_sound | apply State.pqKind_sound | apply Sound.ite | apply Sound.foldl | apply Sound.forAll | apply Sound.foldlPair | intro _ _ _) | split | dsimp only [refuse, okS, okB, okParts])

theorem State.spectrum_sound {s x1 x2 x3} (h : Sound s) : Sound (State.spectrum s x1 x2 x3) := by
  unfold State.spectrum
  repeat' (first | with_reducible assumption | with_reducible (first | apply State.modPt_sound | apply Sound.ite | apply Sound.foldl | apply Sound.forAll | apply Sound.foldlPair | intro _ _ _) | split | dsimp only [refuse, okS, okB, okParts])

theorem State.supraFrame_sound {s x1 x2 x3 x4} (h : Sound s) : Sound (State.supraFrame s x1 x2 x3 x4) := by
  unfold State.supraFrame
  repeat' (first | with_reducible assumption | with_reducible (first | apply State.modPt_sound | apply State.publishBlock_sound | apply State.spectrum_sound | apply Sound.ite | apply Sound.foldl | apply Sound.forAll | apply Sound.foldlPair | intro _ _ _) | split | dsimp only [refuse, okS, okB, okParts])

theorem State.keepSamples_sound {s x1 x2 x3 x4} (h : Sound s) : Sound (State.keepSamples s x1 x2 x3 x4) := by
  unfold State.keepSamples
  repeat' (first | with_reducible assumption | with_reducible (first | apply State.modPt_sound | apply Sound.ite | apply Sound.foldl | apply Sound.forAll | apply Sound.foldlPair | intro _ _ _) | split | dsimp only [refuse, okS, okB, okParts])

theorem State.harmLimits_sound {s x1 x2 x3 x4} (h : Sound s) : Sound (State.harmLimits s x1 x2 x3 x4) := by
  unfold State.harmLimits
  repeat' (first | with_reducible assumption | with_reducible (first | apply State.capTrigger_sound | apply State.modPt_sound | apply State.raiseRaw_sound | apply Sound.ite | apply Sound.foldl | apply Sound.forAll | apply Sound.foldlPair | intro _ _ _) | split | dsimp only [refuse, okS, okB, okParts])

theorem State.closeWindow_sound {s x1 x2 x3 x4 x5 x6} (h : Sound s) : Sound (State.closeWindow s x1 x2 x3 x4 x5 x6) := by
  unfold State.closeWindow
  repeat' (first | with_reducible assumption | with_reducible (first | apply State.addReading_sound | apply State.harmLimits_sound | apply State.modPt_sound | apply Sound.ite | apply Sound.foldl | apply Sound.forAll | apply Sound.foldlPair | intro _ _ _) | split | dsimp only [refuse, okS, okB, okParts])

theorem State.endWindow_sound {s x1 x2 x3 x4 x5} (h : Sound s) : Sound (State.endWindow s x1 x2 x3 x4 x5) := by
  unfold State.endWindow
  repeat' (first | with_reducible assumption | with_reducible (first | apply State.closeWindow_sound | apply State.dropWindow_sound | apply State.openWindow_sound | apply Sound.ite | apply Sound.foldl | apply Sound.forAll | apply Sound.foldlPair | intro _ _ _) | split | dsimp only [refuse, okS, okB, okParts])

theorem State.windowCross_sound {s x1 x2 x3 x4} (h : Sound s) : Sound (State.windowCross s x1 x2 x3 x4) := by
  unfold State.windowCross
  repeat' (first | with_reducible assumption | with_reducible (first | apply State.dropWindow_sound | apply State.endWindow_sound | apply State.modPt_sound | apply State.openWindow_sound | apply Sound.ite | apply Sound.foldl | apply Sound.forAll | apply Sound.foldlPair | intro _ _ _) | split | dsimp only [refuse, okS, okB, okParts])

theorem State.windowNominal_sound {s x1 x2 x3 x4} (h : Sound s) : Sound (State.windowNominal s x1 x2 x3 x4) := by
  unfold State.windowNominal
  repeat' (first | with_reducible assumption | with_reducible (first | apply State.endWindow_sound | apply State.openWindow_sound | apply Sound.ite | apply Sound.foldl | apply Sound.forAll | apply Sound.foldlPair | intro _ _ _) | split | dsimp only [refuse, okS, okB, okParts])

theorem State.windowFrame_sound {s x1 x2 x3 x4 x5} (h : Sound s) : Sound (State.windowFrame s x1 x2 x3 x4 x5) := by
  unfold State.windowFrame
  repeat' (first | with_reducible assumption | with_reducible (first | apply State.keepSamples_sound | apply State.modPt_sound | apply State.windowCross_sound | apply State.windowNominal_sound | apply Sound.ite | apply Sound.foldl | apply Sound.forAll | apply Sound.foldlPair | intro _ _ _) | split | dsimp only [refuse, okS, okB, okParts])

theorem servePointSupraharmonics_sound {x0 s} (h : Sound s) : Sound (servePointSupraharmonics x0 s).st := by
  unfold servePointSupraharmonics okParts refuse
  repeat' (first | with_reducible assumption | with_reducible (first | apply Sound.ite | apply Sound.foldl | apply Sound.forAll | apply Sound.foldlPair | intro _ _ _) | split | dsimp only [refuse, okS, okB, okParts])

theorem serveCapture_sound {x0 s} (h : Sound s) : Sound (serveCapture x0 s).st := by
  unfold serveCapture onPoint okS refuse
  repeat' (first | with_reducible assumption | with_reducible (first | apply State.capTrigger_sound | apply Sound.ite | apply Sound.foldl | apply Sound.forAll | apply Sound.foldlPair | intro _ _ _) | split | dsimp only [refuse, okS, okB, okParts])

theorem servePointHarmonics_sound {x0 s} (h : Sound s) : Sound (servePointHarmonics x0 s).st := by
  unfold servePointHarmonics okParts refuse
  repeat' (first | with_reducible assumption | with_reducible (first | apply Sound.ite | apply Sound.foldl | apply Sound.forAll | apply Sound.foldlPair | intro _ _ _) | split | dsimp only [refuse, okS, okB, okParts])

theorem execPointSupraharmonics_sound {x0 x1 s} (h : Sound s) : SoundO (execPointSupraharmonics x0 x1 s) := hostCmd_sound h (fun _ _ a => servePointSupraharmonics_sound a)

theorem execPointHarmonics_sound {x0 x1 s} (h : Sound s) : SoundO (execPointHarmonics x0 x1 s) := hostCmd_sound h (fun _ _ a => servePointHarmonics_sound a)

theorem execCapture_sound {x0 x1 s} (h : Sound s) : SoundO (execCapture x0 x1 s) := hostCmd_sound h (fun _ _ a => serveCapture_sound a)

end Sys2Proof.Machine
end

