-- ==== Sys2Proof/Laws/SoundSliceOps.lean ====
section
/-!
SUPPORT. Each operation of Machine/SliceOps.lean keeps the invariant `Sound`.
-/

namespace Sys2Proof.Machine

theorem serveCourseRestore_sound {x0 s} (h : Sound s) : Sound (serveCourseRestore x0 s).st := by
  unfold serveCourseRestore okS refuse
  repeat' (first | with_reducible assumption | with_reducible (first | apply State.modEng_sound | apply Sound.ite | apply Sound.foldl | apply Sound.forAll | apply Sound.foldlPair | intro _ _ _) | split | dsimp only [refuse, okS, okB, okParts])

theorem State.endDiag_sound {s} (h : Sound s) : Sound (State.endDiag s) := by
  unfold State.endDiag
  repeat' (first | with_reducible assumption | with_reducible (first | apply State.modConv_sound | apply State.modEng_sound | apply State.modSlice_sound | apply Sound.ite | apply Sound.foldl | apply Sound.forAll | apply Sound.foldlPair | intro _ _ _) | split | dsimp only [refuse, okS, okB, okParts])

theorem execCourseVerdict_sound {x0 s} (h : Sound s) : SoundO (execCourseVerdict x0 s) := by
  unfold execCourseVerdict
  repeat' (first | with_reducible assumption | with_reducible (first | apply State.at_sound | apply State.courseEvent_sound | apply State.endDiag_sound | apply State.modCourse_sound | apply SoundO.next | exact SoundO.fault | apply SoundO.ite | apply Sound.ite | apply Sound.foldl | apply Sound.forAll | apply Sound.foldlPair | intro _ _ _) | split | dsimp only [refuse, okS, okB, okParts])

theorem State.beginDiag_sound {s} (h : Sound s) : Sound (State.beginDiag s) := by
  unfold State.beginDiag
  repeat' (first | with_reducible assumption | with_reducible (first | apply State.modConv_sound | apply State.modEng_sound | apply Sound.ite | apply Sound.foldl | apply Sound.forAll | apply Sound.foldlPair | intro _ _ _) | split | dsimp only [refuse, okS, okB, okParts])

theorem execCourseDiagnosisStart_sound {x0 s} (h : Sound s) : SoundO (execCourseDiagnosisStart x0 s) := by
  unfold execCourseDiagnosisStart
  repeat' (first | with_reducible assumption | with_reducible (first | apply State.at_sound | apply State.beginDiag_sound | apply SoundO.next | exact SoundO.fault | apply SoundO.ite | apply Sound.ite | apply Sound.foldl | apply Sound.forAll | apply Sound.foldlPair | intro _ _ _) | split | dsimp only [refuse, okS, okB, okParts])

theorem execModulatorRestart_sound {x0 x1 s} (h : Sound s) : SoundO (execModulatorRestart x0 x1 s) := by
  unfold execModulatorRestart
  repeat' (first | with_reducible assumption | with_reducible (first | apply State.at_sound | apply State.modSlice_sound | apply SoundO.next | exact SoundO.fault | apply SoundO.ite | apply Sound.ite | apply Sound.foldl | apply Sound.forAll | apply Sound.foldlPair | intro _ _ _) | split | dsimp only [refuse, okS, okB, okParts])

theorem State.dropCourse_sound {s x1} (h : Sound s) : Sound (State.dropCourse s x1) := by
  unfold State.dropCourse
  repeat' (first | with_reducible assumption | with_reducible (first | apply State.endDiag_sound | apply State.modCourse_sound | apply State.modEng_sound | apply Sound.ite | apply Sound.foldl | apply Sound.forAll | apply Sound.foldlPair | intro _ _ _) | split | dsimp only [refuse, okS, okB, okParts])

theorem State.injectAt_sound {s x1 x2 x3} (h : Sound s) : Sound (State.injectAt s x1 x2 x3) := by
  unfold State.injectAt
  repeat' (first | with_reducible assumption | with_reducible (first | apply State.modSlice_sound | apply Sound.ite | apply Sound.foldl | apply Sound.forAll | apply Sound.foldlPair | intro _ _ _) | split | dsimp only [refuse, okS, okB, okParts])

theorem State.diagStep_sound {s x1} (h : Sound s) : Sound (State.diagStep s x1) := by
  unfold State.diagStep
  repeat' (first | with_reducible assumption | with_reducible (first | apply State.injectAt_sound | apply State.modCourse_sound | apply Sound.ite | apply Sound.foldl | apply Sound.forAll | apply Sound.foldlPair | intro _ _ _) | split | dsimp only [refuse, okS, okB, okParts])

theorem State.diagWaits_sound {s} (h : Sound s) : Sound (State.diagWaits s) := by
  unfold State.diagWaits
  repeat' (first | with_reducible assumption | with_reducible (first | apply State.beginDiag_sound | apply State.modEng_sound | apply Sound.ite | apply Sound.foldl | apply Sound.forAll | apply Sound.foldlPair | intro _ _ _) | split | dsimp only [refuse, okS, okB, okParts])

theorem State.abandonDiag_sound {s} (h : Sound s) : Sound (State.abandonDiag s) := by
  unfold State.abandonDiag
  repeat' (first | with_reducible assumption | with_reducible (first | apply State.endDiag_sound | apply State.modEng_sound | apply Sound.ite | apply Sound.foldl | apply Sound.forAll | apply Sound.foldlPair | intro _ _ _) | split | dsimp only [refuse, okS, okB, okParts])

theorem State.diagFrame_sound {s x1} (h : Sound s) : Sound (State.diagFrame s x1) := by
  unfold State.diagFrame
  repeat' (first | with_reducible assumption | with_reducible (first | apply State.modEng_sound | apply Sound.ite | apply Sound.foldl | apply Sound.forAll | apply Sound.foldlPair | intro _ _ _) | split | dsimp only [refuse, okS, okB, okParts])

theorem execCourseRestore_sound {x0 x1 s} (h : Sound s) : SoundO (execCourseRestore x0 x1 s) := hostCmd_sound h (fun _ _ a => serveCourseRestore_sound a)

theorem serveChannelStatus_sound {x0 s} (h : Sound s) : Sound (serveChannelStatus x0 s).st := by
  unfold serveChannelStatus okB refuse
  repeat' (first | with_reducible assumption | with_reducible (first | apply Sound.ite | apply Sound.foldl | apply Sound.forAll | apply Sound.foldlPair | intro _ _ _) | split | dsimp only [refuse, okS, okB, okParts])

theorem execCourseAgreedRestored_sound {x0 x1 s} (h : Sound s) : SoundO (execCourseAgreedRestored x0 x1 s) := by
  unfold execCourseAgreedRestored
  repeat' (first | with_reducible assumption | with_reducible (first | apply State.at_sound | apply State.modCourse_sound | apply State.modEng_sound | apply SoundO.next | exact SoundO.fault | apply SoundO.ite | apply Sound.ite | apply Sound.foldl | apply Sound.forAll | apply Sound.foldlPair | intro _ _ _) | split | dsimp only [refuse, okS, okB, okParts])

theorem execCourseDiagRepeat_sound {x0 x1 s} (h : Sound s) : SoundO (execCourseDiagRepeat x0 x1 s) := by
  unfold execCourseDiagRepeat
  repeat' (first | with_reducible assumption | with_reducible (first | apply State.at_sound | apply State.modCourse_sound | apply State.modEng_sound | apply SoundO.next | exact SoundO.fault | apply SoundO.ite | apply Sound.ite | apply Sound.foldl | apply Sound.forAll | apply Sound.foldlPair | intro _ _ _) | split | dsimp only [refuse, okS, okB, okParts])

theorem State.switchGain_sound {s x1 x2 x3} (h : Sound s) : Sound (State.switchGain s x1 x2 x3) := by
  unfold State.switchGain
  repeat' (first | with_reducible assumption | with_reducible (first | apply State.modSlice_sound | apply Sound.ite | apply Sound.foldl | apply Sound.forAll | apply Sound.foldlPair | intro _ _ _) | split | dsimp only [refuse, okS, okB, okParts])

theorem execAutoGainSwitchDown_sound {x0 x1 x2 s} (h : Sound s) : SoundO (execAutoGainSwitchDown x0 x1 x2 s) := by
  unfold execAutoGainSwitchDown
  repeat' (first | with_reducible assumption | with_reducible (first | apply State.at_sound | apply State.switchGain_sound | apply SoundO.next | exact SoundO.fault | apply SoundO.ite | apply Sound.ite | apply Sound.foldl | apply Sound.forAll | apply Sound.foldlPair | intro _ _ _) | split | dsimp only [refuse, okS, okB, okParts])

theorem execAutoGainSwitchUp_sound {x0 x1 s} (h : Sound s) : SoundO (execAutoGainSwitchUp x0 x1 s) := by
  unfold execAutoGainSwitchUp
  repeat' (first | with_reducible assumption | with_reducible (first | apply State.at_sound | apply State.switchGain_sound | apply SoundO.next | exact SoundO.fault | apply SoundO.ite | apply Sound.ite | apply Sound.foldl | apply Sound.forAll | apply Sound.foldlPair | intro _ _ _) | split | dsimp only [refuse, okS, okB, okParts])

theorem execChannelStatus_sound {x0 x1 s} (h : Sound s) : SoundO (execChannelStatus x0 x1 s) := hostCmd_sound h (fun _ _ a => serveChannelStatus_sound a)

end Sys2Proof.Machine
end

