-- ==== Sys2Proof/Laws/SoundFrame.lean ====
section
/-!
SUPPORT. Each operation of Machine/Frame.lean keeps the invariant `Sound`.
-/

namespace Sys2Proof.Machine

theorem State.closeMeasured_sound {s x1 x2} (h : Sound s) : Sound (State.closeMeasured s x1 x2) := by
  unfold State.closeMeasured
  repeat' (first | with_reducible assumption | with_reducible (first | apply State.closeElectrical_sound | apply State.modPt_sound | apply Sound.ite | apply Sound.foldl | apply Sound.forAll | apply Sound.foldlPair | intro _ _ _) | split | dsimp only [refuse, okS, okB, okParts])

theorem State.ripeEffect_sound {s x1 x2 x3} (h : Sound s) : Sound (State.ripeEffect s x1 x2 x3) := by
  unfold State.ripeEffect
  repeat' (first | with_reducible assumption | with_reducible (first | apply State.capTrailer_sound | apply State.dropCourse_sound | apply State.dropWindow_sound | apply State.modEng_sound | apply State.modPt_sound | apply State.modSlice_sound | apply State.pqEndAll_sound | apply Sound.ite | apply Sound.foldl | apply Sound.forAll | apply Sound.foldlPair | intro _ _ _) | split | dsimp only [refuse, okS, okB, okParts])

theorem State.boundaryTick_sound {s x1} (h : Sound s) : Sound (State.boundaryTick s x1) := by
  unfold State.boundaryTick
  repeat' (first | with_reducible assumption | with_reducible (first | apply State.closeMeasured_sound | apply State.modClk_sound | apply State.modPar_sound | refine State.modSar_sound ?_ (by (first | exact fun a => a | exact fun a => by simpa [upd] using a | (intro a; (try dsimp only); repeat' split) <;> first | exact a | simpa [upd] using a | simp_all)) | apply State.ripeEffect_sound | apply State.ripened_sound | apply State.timersAtBoundary_sound | apply Sound.ite | apply Sound.foldl | apply Sound.forAll | apply Sound.foldlPair | intro _ _ _) | split | dsimp only [refuse, okS, okB, okParts])

theorem State.changeMode_sound {s} (h : Sound s) : Sound (State.changeMode s) := by
  unfold State.changeMode
  repeat' (first | with_reducible assumption | with_reducible (first | apply State.dropWindow_sound | apply State.endDiag_sound | apply State.leaveSpectrum_sound | apply State.loadRcd_sound | refine State.modCourses_sound ?_ (by (first | exact fun a => a | exact fun a => by simpa [upd] using a | (intro a; (try dsimp only); repeat' split) <;> first | exact a | simpa [upd] using a | simp_all)) | apply State.modEng_sound | refine State.modPlc_sound ?_ (by (first | exact fun a => a | exact fun a => by simpa [upd] using a | (intro a; (try dsimp only); repeat' split) <;> first | exact a | simpa [upd] using a | simp_all)) | apply State.modPt_sound | apply Sound.ite | apply Sound.foldl | apply Sound.forAll | apply Sound.foldlPair | intro _ _ _) | split | dsimp only [refuse, okS, okB, okParts])

theorem State.frameValueEffect_sound {s x1} (h : Sound s) : Sound (State.frameValueEffect s x1) := by
  unfold State.frameValueEffect
  repeat' (first | with_reducible assumption | with_reducible (first | apply State.restartEntry_sound | apply Sound.ite | apply Sound.foldl | apply Sound.forAll | apply Sound.foldlPair | intro _ _ _) | split | dsimp only [refuse, okS, okB, okParts])

theorem State.frameStart_sound {s} (h : Sound s) : Sound (State.frameStart s) := by
  unfold State.frameStart
  repeat' (first | with_reducible assumption | with_reducible (first | apply State.applyModify_sound | apply State.fireTrigger_sound | apply State.flushMerged_sound | apply State.frameValueEffect_sound | apply State.modOut_sound | apply State.modPar_sound | apply State.refreshSw_sound | apply State.setPilot_sound | apply State.streamReport_sound | apply Sound.ite | apply Sound.foldl | apply Sound.forAll | apply Sound.foldlPair | intro _ _ _) | split | dsimp only [refuse, okS, okB, okParts])

theorem State.channelFrets_sound {s x1 x2 x3} (h : Sound s) : Sound (State.channelFrets s x1 x2 x3) := by
  have w : (s.hardware x1 x2).slices.length = 128 := (State.hardware_sound h).slices
  unfold State.channelFrets
  repeat' (first | with_reducible assumption | with_reducible (first | apply State.channelChecks_sound | apply State.crossCheck_sound | refine State.modSlices_sound ?_ (by intro _; simpa using w) | apply Sound.ite | apply Sound.foldl | intro _ _ _) | split | dsimp only)

theorem State.noteCrossing_sound {s x1 x2} (h : Sound s) : Sound (State.noteCrossing s x1 x2) := by
  unfold State.noteCrossing
  repeat' (first | with_reducible assumption | with_reducible (first | refine State.modServo_sound ?_ (by (first | exact fun a => a | exact fun a => by simpa [upd] using a | exact fun a => by simpa [upd, Servo.clearRuns] using a | (intro a; (try dsimp only); repeat' split) <;> first | exact a | simpa [upd] using a | simp_all)) (by (first | exact fun a => a | exact fun a => by simpa [upd] using a | exact fun a => by simpa [upd, Servo.clearRuns] using a | (intro a; (try dsimp only); repeat' split) <;> first | exact a | simpa [upd] using a | simp_all)) | apply Sound.ite | apply Sound.foldl | apply Sound.forAll | apply Sound.foldlPair | intro _ _ _) | split | dsimp only [refuse, okS, okB, okParts])

theorem State.pointFret_sound {s x1 x2 x3 x4 x5} (h : Sound s) : Sound (State.pointFret s x1 x2 x3 x4 x5).1 := by
  unfold State.pointFret
  repeat' (first | with_reducible assumption | with_reducible (first | apply State.capStep_sound | apply State.elecFrame_sound | apply State.fluidFrame_sound | apply State.modPt_sound | apply State.pqDetect_sound | apply State.supraFrame_sound | apply State.windowFrame_sound | apply Sound.ite | apply Sound.foldl | apply Sound.forAll | apply Sound.foldlPair | intro _ _ _) | split | dsimp only [refuse, okS, okB, okParts])

theorem State.processFrame_sound {s x1 x2} (h : Sound s) : Sound (State.processFrame s x1 x2) := by
  unfold State.processFrame
  repeat' (first | with_reducible assumption | with_reducible (first | apply State.abandonDiag_sound | apply State.channelFrets_sound | apply State.diagFrame_sound | apply State.modEng_sound | refine State.modSlices_sound ?_ (by (first | exact fun a => a | exact fun a => by simpa [upd] using a | (intro a; (try dsimp only); repeat' split) <;> first | exact a | simpa [upd] using a | simp_all)) | apply State.noteCrossing_sound | apply State.notePaths_sound | apply State.pointFret_sound | apply State.ripened_sound | apply Sound.ite | apply Sound.foldl | apply Sound.forAll | apply Sound.foldlPair | intro _ _ _) | split | dsimp only [refuse, okS, okB, okParts])

theorem State.frameTick_sound {s x1 x2} (h : Sound s) : Sound (State.frameTick s x1 x2) := by
  have w : ∀ {x : State}, Sound x → Sound ((x.modServo Servo.slewed).modTest (fun y => { y with eff := y.regs })) := fun a =>
    State.modTest_sound (State.modServo_sound a (fun b => b) (fun b => b))
      (fun c u => ⟨(c u).1, (congrArg TestRegs.safAction (c u).1).trans rfl⟩)
  unfold State.frameTick
  repeat' (first | with_reducible assumption | with_reducible (first | apply w | apply State.boundaryTick_sound | apply State.changeMode_sound | apply State.frameStart_sound | apply State.diagWaits_sound | apply State.diagStep_sound | apply State.modClk_sound | apply State.processFrame_sound | apply Sound.ite) | dsimp only)

theorem execHandoverBlockReady_sound {x0 s} (h : Sound s) : SoundO (execHandoverBlockReady x0 s) := by
  unfold execHandoverBlockReady
  repeat' (first | with_reducible assumption | with_reducible (first | apply State.at_sound | apply State.modEng_sound | apply SoundO.next | exact SoundO.fault | apply SoundO.ite | apply Sound.ite | apply Sound.foldl | apply Sound.forAll | apply Sound.foldlPair | intro _ _ _) | split | dsimp only [refuse, okS, okB, okParts])

theorem execFretCutoff_sound {x0 s} (h : Sound s) : SoundO (execFretCutoff x0 s) := by
  unfold execFretCutoff
  repeat' (first | with_reducible assumption | with_reducible (first | apply State.at_sound | apply State.modEng_sound | apply State.raise_sound | apply SoundO.next | exact SoundO.fault | apply SoundO.ite | apply Sound.ite | apply Sound.foldl | apply Sound.forAll | apply Sound.foldlPair | intro _ _ _) | split | dsimp only [refuse, okS, okB, okParts])

theorem execModeChangeoverComplete_sound {x0 s} (h : Sound s) : SoundO (execModeChangeoverComplete x0 s) := by
  unfold execModeChangeoverComplete
  repeat' (first | with_reducible assumption | with_reducible (first | apply State.at_sound | apply State.build_sound | apply State.changeMode_sound | apply State.modEng_sound | apply SoundO.next | exact SoundO.fault | apply SoundO.ite | apply Sound.ite | apply Sound.foldl | apply Sound.forAll | apply Sound.foldlPair | intro _ _ _) | split | dsimp only [refuse, okS, okB, okParts])

end Sys2Proof.Machine
end

