-- ==== Sys2Proof/Laws/SoundHostKeys.lean ====
section
/-!
SUPPORT. Each operation of Machine/HostKeys.lean keeps the invariant `Sound`.
-/

namespace Sys2Proof.Machine

theorem serveKeyInvalidate_sound {x0 x1 s} (h : Sound s) : Sound (serveKeyInvalidate x0 x1 s).st := by
  unfold serveKeyInvalidate onKeys withRoom okS
  repeat' (first | with_reducible assumption | with_reducible (first | apply State.invalidate_sound | apply State.logRefused_sound | apply Sound.ite | apply Sound.foldl | apply Sound.forAll | apply Sound.foldlPair | intro _ _ _) | split | dsimp only [refuse, okS, okB, okParts])

theorem serveKeyTlsCertificateLoad_sound {x0 s} (h : Sound s) : Sound (serveKeyTlsCertificateLoad x0 s).st := by
  unfold serveKeyTlsCertificateLoad okS refuse
  repeat' (first | with_reducible assumption | with_reducible (first | refine State.modKeys_sound ?_ (by (first | exact fun a => a | exact fun a => by simpa [upd] using a | (intro a; (try dsimp only); repeat' split) <;> first | exact a | simpa [upd] using a | simp_all)) (by (first | exact fun a => a | exact fun a => by simpa [upd] using a | (intro a; (try dsimp only); repeat' split) <;> first | exact a | simpa [upd] using a | simp_all)) | apply Sound.ite | apply Sound.foldl | apply Sound.forAll | apply Sound.foldlPair | intro _ _ _) | split | dsimp only [refuse, okS, okB, okParts])

theorem execKeyTlsCertificateLoad_sound {x0 x1 s} (h : Sound s) : SoundO (execKeyTlsCertificateLoad x0 x1 s) := hostCmd_sound h (fun _ _ a => serveKeyTlsCertificateLoad_sound a)

theorem State.attestEvent_sound {s x1 x2 x3 x4 x5} (h : Sound s) : Sound (State.attestEvent s x1 x2 x3 x4 x5) := by
  unfold State.attestEvent
  repeat' (first | with_reducible assumption | with_reducible (first | apply State.raise_sound | apply Sound.ite | apply Sound.foldl | apply Sound.forAll | apply Sound.foldlPair | intro _ _ _) | split | dsimp only [refuse, okS, okB, okParts])

theorem State.nextGeneration_sound {s x1 x2 x3} (h : Sound s) : SoundQ (State.nextGeneration s x1 x2 x3) := by
  unfold State.nextGeneration
  repeat' (first | with_reducible assumption | with_reducible (first | apply State.enterHost_sound | apply State.keyEvent_sound | apply State.modKey_sound | apply SoundQ.some | exact SoundQ.none | apply SoundQ.ite | apply Sound.ite | apply Sound.foldl | apply Sound.forAll | apply Sound.foldlPair | intro _ _ _) | split | dsimp only [refuse, okS, okB, okParts])

theorem serveKeyNextGeneration_sound {x0 x1 s} (h : Sound s) : Sound (serveKeyNextGeneration x0 x1 s).st := by
  unfold serveKeyNextGeneration onKeys withRoom
  have q : ∀ l : List (Nat × Nat), SoundQ
      (l.foldl (fun (a : Option State) x => a.bind (fun s => s.nextGeneration x0 x.1 x.2)) (some s)) := fun l =>
    SoundQ.foldl (SoundQ.some h) (fun _ _ g => SoundQ.bind g (fun _ a => State.nextGeneration_sound a))
  repeat' (first | with_reducible assumption | exact q _ _ (by assumption) | with_reducible apply State.logRefused_sound | split | dsimp only [okS, okB, okParts, refuse])

theorem execKeyNextGeneration_sound {x0 x1 s} (h : Sound s) : SoundO (execKeyNextGeneration x0 x1 s) := hostCmd_sound h (fun _ _ a => serveKeyNextGeneration_sound a)

theorem serveKeyAttest_sound {x0 s} (h : Sound s) : Sound (serveKeyAttest x0 s).st := by
  unfold serveKeyAttest okB refuse
  repeat' (first | with_reducible assumption | with_reducible (first | apply State.attestEvent_sound | refine State.modKeys_sound ?_ (by (first | exact fun a => a | exact fun a => by simpa [upd] using a | (intro a; (try dsimp only); repeat' split) <;> first | exact a | simpa [upd] using a | simp_all)) (by (first | exact fun a => a | exact fun a => by simpa [upd] using a | (intro a; (try dsimp only); repeat' split) <;> first | exact a | simpa [upd] using a | simp_all)) | apply Sound.ite | apply Sound.foldl | apply Sound.forAll | apply Sound.foldlPair | intro _ _ _) | split | dsimp only [refuse, okS, okB, okParts])

theorem serveKeyErase_sound {x0 x1 s} (h : Sound s) : Sound (serveKeyErase x0 x1 s).st := by
  unfold serveKeyErase noPayload withSeal withRoom okS
  repeat' (first | with_reducible assumption | with_reducible (first | apply State.enterHost_sound | apply State.logRefused_sound | refine State.modKeys_sound ?_ (by (first | exact fun a => a | exact fun a => by simpa [upd] using a | (intro a; (try dsimp only); repeat' split) <;> first | exact a | simpa [upd] using a | simp_all)) (by (first | exact fun a => a | exact fun a => by simpa [upd] using a | (intro a; (try dsimp only); repeat' split) <;> first | exact a | simpa [upd] using a | simp_all)) | refine State.writeMram_sound ?_ (fun _ _ => ?_) | apply Sound.ite | apply Sound.foldl | apply Sound.forAll | apply Sound.foldlPair | intro _ _ _) | split | dsimp only [refuse, okS, okB, okParts])

theorem serveKeyNodeCertificate_sound {x0 s} (h : Sound s) : Sound (serveKeyNodeCertificate x0 s).st := by
  unfold serveKeyNodeCertificate noPayload okParts
  repeat' (first | with_reducible assumption | with_reducible (first | apply Sound.ite | apply Sound.foldl | apply Sound.forAll | apply Sound.foldlPair | intro _ _ _) | split | dsimp only [refuse, okS, okB, okParts])

theorem serveKeyPublicRead_sound {x0 s} (h : Sound s) : Sound (serveKeyPublicRead x0 s).st := by
  unfold serveKeyPublicRead okB refuse
  repeat' (first | with_reducible assumption | with_reducible (first | apply Sound.ite | apply Sound.foldl | apply Sound.forAll | apply Sound.foldlPair | intro _ _ _) | split | dsimp only [refuse, okS, okB, okParts])

theorem State.readHelpers_sound {s x1} (h : Sound s) : Sound (State.readHelpers s x1) := by
  unfold State.readHelpers
  repeat' (first | with_reducible assumption | with_reducible (first | apply State.mramError_sound | apply State.repairWords_sound | apply Sound.ite | apply Sound.foldl | apply Sound.forAll | apply Sound.foldlPair | intro _ _ _) | split | dsimp only [refuse, okS, okB, okParts])

theorem State.regenEvent_sound {s x1 x2 x3} (h : Sound s) : Sound (State.regenEvent s x1 x2 x3) := by
  unfold State.regenEvent
  repeat' (first | with_reducible assumption | with_reducible (first | apply State.raise_sound | apply Sound.ite | apply Sound.foldl | apply Sound.forAll | apply Sound.foldlPair | intro _ _ _) | split | dsimp only [refuse, okS, okB, okParts])

theorem State.regenerate_sound {s x1 x2} (h : Sound s) : Sound (State.regenerate s x1 x2) := by
  unfold State.regenerate
  repeat' (first | with_reducible assumption | with_reducible (first | refine State.modKeys_sound ?_ (by (first | exact fun a => a | exact fun a => by simpa [upd] using a | (intro a; (try dsimp only); repeat' split) <;> first | exact a | simpa [upd] using a | simp_all)) (by (first | exact fun a => a | exact fun a => by simpa [upd] using a | (intro a; (try dsimp only); repeat' split) <;> first | exact a | simpa [upd] using a | simp_all)) | apply Sound.ite | apply Sound.foldl | apply Sound.forAll | apply Sound.foldlPair | intro _ _ _) | split | dsimp only [refuse, okS, okB, okParts])

theorem serveKeyRegenerate_sound {x0 s} (h : Sound s) : Sound (serveKeyRegenerate x0 s).st := by
  unfold serveKeyRegenerate noPayload okB
  repeat' (first | with_reducible assumption | with_reducible (first | apply State.bump_sound | apply State.readHelpers_sound | apply State.regenEvent_sound | apply State.regenerate_sound | apply Sound.ite | apply Sound.foldl | apply Sound.forAll | apply Sound.foldlPair | intro _ _ _) | split | dsimp only [refuse, okS, okB, okParts])

theorem serveKeyStatementRead_sound {x0 s} (h : Sound s) : Sound (serveKeyStatementRead x0 s).st := by
  unfold serveKeyStatementRead okB refuse
  repeat' (first | with_reducible assumption | with_reducible (first | apply Sound.ite | apply Sound.foldl | apply Sound.forAll | apply Sound.foldlPair | intro _ _ _) | split | dsimp only [refuse, okS, okB, okParts])

theorem serveKeyStatus_sound {x0 s} (h : Sound s) : Sound (serveKeyStatus x0 s).st := by
  unfold serveKeyStatus noPayload okB
  repeat' (first | with_reducible assumption | with_reducible (first | apply Sound.ite | apply Sound.foldl | apply Sound.forAll | apply Sound.foldlPair | intro _ _ _) | split | dsimp only [refuse, okS, okB, okParts])

theorem execKeyPublicRead_sound {x0 x1 s} (h : Sound s) : SoundO (execKeyPublicRead x0 x1 s) := hostCmd_sound h (fun _ _ a => serveKeyPublicRead_sound a)

theorem execKeyStatementRead_sound {x0 x1 s} (h : Sound s) : SoundO (execKeyStatementRead x0 x1 s) := hostCmd_sound h (fun _ _ a => serveKeyStatementRead_sound a)

theorem execKeyErase_sound {x0 x1 s} (h : Sound s) : SoundO (execKeyErase x0 x1 s) := hostCmd_sound h (fun _ _ a => serveKeyErase_sound a)

theorem execRootRegenerated_sound {x0 x1 x2 x3 x4 x5 s} (h : Sound s) : SoundO (execRootRegenerated x0 x1 x2 x3 x4 x5 s) := by
  unfold execRootRegenerated
  repeat' (first | with_reducible assumption | with_reducible (first | apply State.at_sound | apply State.modPwr_sound | apply State.readHelpers_sound | apply State.regenEvent_sound | apply State.regenerate_sound | apply SoundO.next | exact SoundO.fault | apply SoundO.ite | apply Sound.ite | apply Sound.foldl | apply Sound.forAll | apply Sound.foldlPair | intro _ _ _) | split | dsimp only [refuse, okS, okB, okParts])

theorem execKeyInvalidate_sound {x0 x1 s} (h : Sound s) : SoundO (execKeyInvalidate x0 x1 s) := hostCmd_sound h (fun _ _ a => serveKeyInvalidate_sound a)

theorem execKeyAttest_sound {x0 x1 s} (h : Sound s) : SoundO (execKeyAttest x0 x1 s) := hostCmd_sound h (fun _ _ a => serveKeyAttest_sound a)

theorem execKeyStatus_sound {x0 x1 s} (h : Sound s) : SoundO (execKeyStatus x0 x1 s) := hostCmd_sound h (fun _ _ a => serveKeyStatus_sound a)

theorem execAttestationComplete_sound {x0 s} (h : Sound s) : SoundO (execAttestationComplete x0 s) := by
  unfold execAttestationComplete
  repeat' (first | with_reducible assumption | with_reducible (first | apply State.at_sound | apply State.attestEvent_sound | refine State.modKeys_sound ?_ (by (first | exact fun a => a | exact fun a => by simpa [upd] using a | (intro a; (try dsimp only); repeat' split) <;> first | exact a | simpa [upd] using a | simp_all)) (by (first | exact fun a => a | exact fun a => by simpa [upd] using a | (intro a; (try dsimp only); repeat' split) <;> first | exact a | simpa [upd] using a | simp_all)) | apply SoundO.next | exact SoundO.fault | apply SoundO.ite | apply Sound.ite | apply Sound.foldl | apply Sound.forAll | apply Sound.foldlPair | intro _ _ _) | split | dsimp only [refuse, okS, okB, okParts])

theorem execKeyNodeCertificate_sound {x0 x1 s} (h : Sound s) : SoundO (execKeyNodeCertificate x0 x1 s) := hostCmd_sound h (fun _ _ a => serveKeyNodeCertificate_sound a)

theorem execKeyRegenerate_sound {x0 x1 s} (h : Sound s) : SoundO (execKeyRegenerate x0 x1 s) := hostCmd_sound h (fun _ _ a => serveKeyRegenerate_sound a)

end Sys2Proof.Machine
end

