-- ==== Sys2Proof/Laws/SoundPowerReset.lean ====
section
/-!
SUPPORT. Each operation of Machine/PowerReset.lean keeps the invariant `Sound`.
-/

namespace Sys2Proof.Machine

theorem State.endTests_sound {s} (h : Sound s) : Sound (State.endTests s) := by
  unfold State.endTests
  repeat' (first | with_reducible assumption | with_reducible (first | apply State.endInjection_sound | apply Sound.ite | apply Sound.foldl | apply Sound.forAll | apply Sound.foldlPair | intro _ _ _) | split | dsimp only [refuse, okS, okB, okParts])

theorem State.coreReset_sound {s x1} (h : Sound s) : Sound (State.coreReset s x1) := by
  unfold State.coreReset
  have y := State.endTests_sound (State.dispReset_sound h)
  generalize s.dispReset.endTests = z at y ⊢
  refine ⟨?_, fun _ => ⟨rfl, rfl⟩, rfl, rfl, y.pointKeys, y.tlsKeys, rfl, rfl, ?_, ?_, rfl, rfl, rfl, rfl, ?_⟩
  · exact HostOk.ofReset
  · exact sized_map y.pts
  · dsimp only
    split
    · exact y.switches
    · rfl
  · simp [Ring.reset]

theorem State.holdReset_sound {s x1} (h : Sound s) : Sound (State.holdReset s x1) := by
  unfold State.holdReset
  repeat' (first | with_reducible assumption | with_reducible (first | apply State.modPwr_sound | apply Sound.ite | apply Sound.foldl | apply Sound.forAll | apply Sound.foldlPair | intro _ _ _) | split | dsimp only [refuse, okS, okB, okParts])

theorem State.resetCore_sound {s x1 x2} (h : Sound s) : Sound (State.resetCore s x1 x2) := by
  unfold State.resetCore
  repeat' (first | with_reducible assumption | with_reducible (first | apply State.coreReset_sound | apply State.holdReset_sound | apply Sound.ite | apply Sound.foldl | apply Sound.forAll | apply Sound.foldlPair | intro _ _ _) | split | dsimp only [refuse, okS, okB, okParts])

theorem execRefclkLoss_sound {x0 s} (h : Sound s) : SoundO (execRefclkLoss x0 s) := by
  unfold execRefclkLoss
  repeat' (first | with_reducible assumption | with_reducible (first | apply State.at_sound | apply State.resetCore_sound | apply SoundO.next | exact SoundO.fault | apply SoundO.ite | apply Sound.ite | apply Sound.foldl | apply Sound.forAll | apply Sound.foldlPair | intro _ _ _) | split | dsimp only [refuse, okS, okB, okParts])

theorem State.restorePoint_sound {s x1 x2 x3} (h : Sound s) : Sound (State.restorePoint s x1 x2 x3) := by
  unfold State.restorePoint
  repeat' (first | with_reducible assumption | with_reducible (first | apply State.modPt_sound | apply Sound.ite | apply Sound.foldl | apply Sound.forAll | apply Sound.foldlPair | intro _ _ _) | split | dsimp only [refuse, okS, okB, okParts])

theorem State.beginPoints_sound {s x1} (h : Sound s) : Sound (State.beginPoints s x1) := by
  unfold State.beginPoints
  repeat' (first | with_reducible assumption | with_reducible (first | apply State.loadRcd_sound | apply State.modPt_sound | refine State.modPts_sound ?_ (by (first | exact fun a => a | exact fun a => by simpa [upd] using a | (intro a; (try dsimp only); repeat' split) <;> first | exact a | simpa [upd] using a | simp_all)) | apply State.setPilot_sound | apply Sound.ite | apply Sound.foldl | apply Sound.forAll | apply Sound.foldlPair | intro _ _ _) | split | dsimp only [refuse, okS, okB, okParts])

theorem State.flushLast_sound {s} (h : Sound s) : Sound (State.flushLast s) := by
  unfold State.flushLast
  repeat' (first | with_reducible assumption | with_reducible (first | apply State.modEng_sound | apply Sound.ite | apply Sound.foldl | apply Sound.forAll | apply Sound.foldlPair | intro _ _ _) | split | dsimp only [refuse, okS, okB, okParts])

theorem State.capoDown_sound {s x1 x2} (h : Sound s) : Sound (State.capoDown s x1 x2) := by
  unfold State.capoDown
  repeat' (first | with_reducible assumption | with_reducible (first | apply State.modFw_sound | refine State.modHost_sound ?_ (by (first | exact fun a => a | exact fun a => ⟨a.1, a.2, a.3, a.4, a.5, a.6⟩ | (intro a; dsimp only; repeat' split) <;> exact a)) | apply State.modPwr_sound | apply Sound.ite | apply Sound.foldl | apply Sound.forAll | apply Sound.foldlPair | intro _ _ _) | split | dsimp only [refuse, okS, okB, okParts])

theorem State.capoEvent_sound {s x1 x2 x3 x4} (h : Sound s) : Sound (State.capoEvent s x1 x2 x3 x4) := by
  unfold State.capoEvent
  repeat' (first | with_reducible assumption | with_reducible (first | apply State.raise_sound | apply Sound.ite | apply Sound.foldl | apply Sound.forAll | apply Sound.foldlPair | intro _ _ _) | split | dsimp only [refuse, okS, okB, okParts])

theorem State.loseFrames_sound {s x1} (h : Sound s) : Sound (State.loseFrames s x1) := by
  unfold State.loseFrames
  repeat' (first | with_reducible assumption | with_reducible (first | apply State.modPt_sound | apply Sound.ite | apply Sound.foldl | apply Sound.forAll | apply Sound.foldlPair | intro _ _ _) | split | dsimp only [refuse, okS, okB, okParts])

theorem State.closeCut_sound {s x1 x2 x3 x4} (h : Sound s) : Sound (State.closeCut s x1 x2 x3 x4) := by
  unfold State.closeCut
  repeat' (first | with_reducible assumption | with_reducible (first | apply State.closePeriod_sound | apply State.modPt_sound | apply Sound.ite | apply Sound.foldl | apply Sound.forAll | apply Sound.foldlPair | intro _ _ _) | split | dsimp only [refuse, okS, okB, okParts])

theorem State.endOpen_sound {s x1 x2 x3 x4} (h : Sound s) : Sound (State.endOpen s x1 x2 x3 x4) := by
  unfold State.endOpen
  repeat' (first | with_reducible assumption | with_reducible (first | apply State.buildEnd_sound | apply State.modSes_sound | apply State.outletSession_sound | apply Sound.ite | apply Sound.foldl | apply Sound.forAll | apply Sound.foldlPair | intro _ _ _) | split | dsimp only [refuse, okS, okB, okParts])

theorem State.mergeBank_sound {s x1 x2} (h : Sound s) : Sound (State.mergeBank s x1 x2) := by
  unfold State.mergeBank
  repeat' (first | with_reducible assumption | with_reducible (first | apply State.addQuantities_sound | apply State.modPt_sound | apply Sound.ite | apply Sound.foldl | apply Sound.forAll | apply Sound.foldlPair | intro _ _ _) | split | dsimp only [refuse, okS, okB, okParts])

theorem State.rebuildDue_sound {s x1} (h : Sound s) : Sound (State.rebuildDue s x1) := by
  unfold State.rebuildDue
  repeat' (first | with_reducible assumption | with_reducible (first | apply State.modRecs_sound | apply Sound.ite | apply Sound.foldl | apply Sound.forAll | apply Sound.foldlPair | intro _ _ _) | split | dsimp only [refuse, okS, okB, okParts])

theorem State.mergeSteps_sound {s x1} (h : Sound s) : Sound (State.mergeSteps s x1) := by
  unfold State.mergeSteps
  repeat' (first | with_reducible assumption | with_reducible (first | apply State.buildLate_sound | apply State.closeCut_sound | apply State.endOpen_sound | apply State.mergeBank_sound | refine State.modPts_sound ?_ (by (first | exact fun a => a | exact fun a => by simpa [upd] using a | (intro a; (try dsimp only); repeat' split) <;> first | exact a | simpa [upd] using a | simp_all)) | apply State.modSes_sound | apply State.rebuildDue_sound | apply Sound.ite | apply Sound.foldl | apply Sound.forAll | apply Sound.foldlPair | intro _ _ _) | split | dsimp only [refuse, okS, okB, okParts])

theorem State.startSafety_sound {s x1 x2} (h : Sound s) : Sound (State.startSafety s x1 x2) := by
  unfold State.startSafety
  repeat' (first | with_reducible assumption | with_reducible (first | apply State.armWatchdog_sound | apply State.enterPhase_sound | refine State.modSaf_sound ?_ (by (first | exact fun a => a | exact fun a => by simpa [upd] using a | (intro a; (try dsimp only); repeat' split) <;> first | exact a | simpa [upd] using a | simp_all)) (by (first | exact fun a => a | exact fun a => by simpa [upd] using a | (intro a; (try dsimp only); repeat' split) <;> first | exact a | simpa [upd] using a | simp_all)) | refine State.modSw_sound ?_ (by (first | exact fun a => a | exact fun a => by simpa [upd] using a | (intro a; (try dsimp only); repeat' split) <;> first | exact a | simpa [upd] using a | simp_all)) | apply State.refreshSw_sound | apply State.release4_sound | apply State.startEntry_sound | apply Sound.ite | apply Sound.foldl | apply Sound.forAll | apply Sound.foldlPair | intro _ _ _) | split | dsimp only [refuse, okS, okB, okParts])

theorem State.restartParts_sound {s x1 x2} (h : Sound s) : Sound (State.restartParts s x1 x2) := by
  unfold State.restartParts
  repeat' (first | with_reducible assumption | with_reducible (first | apply State.endTests_sound | refine State.modKeys_sound ?_ (by (first | exact fun a => a | exact fun a => by simpa [upd] using a | (intro a; (try dsimp only); repeat' split) <;> first | exact a | simpa [upd] using a | simp_all)) (by (first | exact fun a => a | exact fun a => by simpa [upd] using a | (intro a; (try dsimp only); repeat' split) <;> first | exact a | simpa [upd] using a | simp_all)) | refine State.modPts_sound ?_ (by (first | exact fun a => a | exact fun a => by simpa [upd] using a | (intro a; (try dsimp only); repeat' split) <;> first | exact a | simpa [upd] using a | simp_all)) | refine State.modSaf_sound ?_ (by (first | exact fun a => a | exact fun a => by simpa [upd] using a | (intro a; (try dsimp only); repeat' split) <;> first | exact a | simpa [upd] using a | simp_all)) (by (first | exact fun a => a | exact fun a => by simpa [upd] using a | (intro a; (try dsimp only); repeat' split) <;> first | exact a | simpa [upd] using a | simp_all)) | apply State.setPilot_sound | apply State.startSafety_sound | apply Sound.ite | apply Sound.foldl | apply Sound.forAll | apply Sound.foldlPair | intro _ _ _) | split | dsimp only [refuse, okS, okB, okParts])

theorem State.restore_sound {s x1 x2} (h : Sound s) : Sound (State.restore s x1 x2) := by
  unfold State.restore
  repeat' (first | with_reducible assumption | with_reducible (first | apply State.bump_sound | apply State.modRecs_sound | apply State.restorePoint_sound | apply Sound.ite | apply Sound.foldl | apply Sound.forAll | apply Sound.foldlPair | intro _ _ _) | split | dsimp only [refuse, okS, okB, okParts])

theorem State.restoredEvent_sound {s x1} (h : Sound s) : Sound (State.restoredEvent s x1) := by
  unfold State.restoredEvent
  repeat' (first | with_reducible assumption | with_reducible (first | apply State.raiseRaw_sound | apply Sound.ite | apply Sound.foldl | apply Sound.forAll | apply Sound.foldlPair | intro _ _ _) | split | dsimp only [refuse, okS, okB, okParts])

theorem State.resumeCapo_sound {s x1 x2} (h : Sound s) : Sound (State.resumeCapo s x1 x2) := by
  unfold State.resumeCapo
  repeat' (first | with_reducible assumption | with_reducible (first | apply State.boundaryWork_sound | apply State.endOpen_sound | apply State.loseFrames_sound | refine State.modPts_sound ?_ (by (first | exact fun a => a | exact fun a => by simpa [upd] using a | (intro a; (try dsimp only); repeat' split) <;> first | exact a | simpa [upd] using a | simp_all)) | apply State.rebuildDue_sound | apply Sound.ite | apply Sound.foldl | apply Sound.forAll | apply Sound.foldlPair | intro _ _ _) | split | dsimp only [refuse, okS, okB, okParts])

theorem State.startSeals_sound {s} (h : Sound s) : Sound (State.startSeals s) := by
  unfold State.startSeals
  repeat' (first | with_reducible assumption | with_reducible (first | refine State.modSaf_sound ?_ (by (first | exact fun a => a | exact fun a => by simpa [upd] using a | (intro a; (try dsimp only); repeat' split) <;> first | exact a | simpa [upd] using a | simp_all)) (by (first | exact fun a => a | exact fun a => by simpa [upd] using a | (intro a; (try dsimp only); repeat' split) <;> first | exact a | simpa [upd] using a | simp_all)) | apply State.sealChange_sound | apply Sound.ite | apply Sound.foldl | apply Sound.forAll | apply Sound.foldlPair | intro _ _ _) | split | dsimp only [refuse, okS, okB, okParts])

theorem State.restartCapo_sound {s x1 x2 x3 x4 x5 x6} (h : Sound s) : Sound (State.restartCapo s x1 x2 x3 x4 x5 x6) := by
  unfold State.restartCapo
  repeat' (first | with_reducible assumption | with_reducible (first | apply State.beginPoints_sound | apply State.capoEvent_sound | apply State.loseFrames_sound | apply State.mergeSteps_sound | refine State.modHost_sound ?_ (by (first | exact fun a => a | exact fun a => ⟨a.1, a.2, a.3, a.4, a.5, a.6⟩ | (intro a; dsimp only; repeat' split) <;> exact a)) | apply State.modPwr_sound | apply State.mramError_sound | apply State.repairWords_sound | apply State.restartParts_sound | apply State.restore_sound | apply State.restoredEvent_sound | apply State.resumeCapo_sound | apply State.saveLedger_sound | apply State.startSeals_sound | apply Sound.ite | apply Sound.foldl | apply Sound.forAll | apply Sound.foldlPair | intro _ _ _) | split | dsimp only [refuse, okS, okB, okParts])

theorem State.beginWarning_sound {s x1} (h : Sound s) : Sound (State.beginWarning s x1) := by
  unfold State.beginWarning
  repeat' (first | with_reducible assumption | with_reducible (first | apply State.dispWarning_sound | apply State.modLed_sound | apply State.modPwr_sound | apply State.notTaken_sound | apply Sound.ite | apply Sound.foldl | apply Sound.forAll | apply Sound.foldlPair | intro _ _ _) | split | dsimp only [refuse, okS, okB, okParts])

theorem State.warnIfMetering_sound {s x1} (h : Sound s) : Sound (State.warnIfMetering s x1) := by
  unfold State.warnIfMetering
  repeat' (first | with_reducible assumption | with_reducible (first | apply State.beginWarning_sound | apply Sound.ite | apply Sound.foldl | apply Sound.forAll | apply Sound.foldlPair | intro _ _ _) | split | dsimp only [refuse, okS, okB, okParts])

theorem execPfwWarning_sound {x0 x1 s} (h : Sound s) : SoundO (execPfwWarning x0 x1 s) := by
  unfold execPfwWarning
  repeat' (first | with_reducible assumption | with_reducible (first | apply State.at_sound | apply State.modPwr_sound | apply State.warnIfMetering_sound | apply SoundO.next | exact SoundO.fault | apply SoundO.ite | apply Sound.ite | apply Sound.foldl | apply Sound.forAll | apply Sound.foldlPair | intro _ _ _) | split | dsimp only [refuse, okS, okB, okParts])

theorem State.startLog_sound {s} (h : Sound s) : Sound (State.startLog s) := by
  unfold State.startLog
  repeat' (first | with_reducible assumption | with_reducible (first | apply State.enterCapo_sound | apply State.modFw_sound | refine State.modTest_sound ?_ (by (first | exact fun a => a | (intro a; dsimp only; repeat' split) <;> exact a)) | apply State.startSeals_sound | apply Sound.ite | apply Sound.foldl | apply Sound.forAll | apply Sound.foldlPair | intro _ _ _) | split | dsimp only [refuse, okS, okB, okParts])

theorem State.startMetering_sound {s x1} (h : Sound s) : Sound (State.startMetering s x1) := by
  unfold State.startMetering
  repeat' (first | with_reducible assumption | with_reducible (first | apply State.beginPoints_sound | apply State.beginWarning_sound | apply State.bump_sound | apply State.modClk_sound | refine State.modHost_sound ?_ (by (first | exact fun a => a | exact fun a => ⟨a.1, a.2, a.3, a.4, a.5, a.6⟩ | (intro a; dsimp only; repeat' split) <;> exact a)) | apply State.modPwr_sound | apply State.plcSweep_sound | apply State.raise_sound | apply State.startLog_sound | apply Sound.ite | apply Sound.foldl | apply Sound.forAll | apply Sound.foldlPair | intro _ _ _) | split | dsimp only [refuse, okS, okB, okParts])

theorem execHoldupMerge_sound {x0 x1 x2 x3 x4 s} (h : Sound s) : SoundO (execHoldupMerge x0 x1 x2 x3 x4 s) := by
  unfold execHoldupMerge
  repeat' (first | with_reducible assumption | with_reducible (first | apply State.at_sound | apply State.mergeSteps_sound | apply State.modClk_sound | apply State.modLed_sound | refine State.modServo_sound ?_ (by (first | exact fun a => a | exact fun a => by simpa [upd] using a | exact fun a => by simpa [upd, Servo.clearRuns] using a | (intro a; (try dsimp only); repeat' split) <;> first | exact a | simpa [upd] using a | simp_all)) (by (first | exact fun a => a | exact fun a => by simpa [upd] using a | exact fun a => by simpa [upd, Servo.clearRuns] using a | (intro a; (try dsimp only); repeat' split) <;> first | exact a | simpa [upd] using a | simp_all)) | apply State.mramError_sound | apply State.repairWords_sound | apply State.restore_sound | apply State.restoredEvent_sound | apply State.saveLedger_sound | apply State.startMetering_sound | apply SoundO.next | exact SoundO.fault | apply SoundO.ite | apply Sound.ite | apply Sound.foldl | apply Sound.forAll | apply Sound.foldlPair | intro _ _ _) | split | dsimp only [refuse, okS, okB, okParts])

theorem State.releaseCore_sound {s x1} (h : Sound s) : Sound (State.releaseCore s x1) := by
  unfold State.releaseCore
  repeat' (first | with_reducible assumption | with_reducible (first | apply State.modClk_sound | apply State.modPwr_sound | apply Sound.ite | apply Sound.foldl | apply Sound.forAll | apply Sound.foldlPair | intro _ _ _) | split | dsimp only [refuse, okS, okB, okParts])

theorem execThermalShutdownEnd_sound {x0 x1 s} (h : Sound s) : SoundO (execThermalShutdownEnd x0 x1 s) := by
  unfold execThermalShutdownEnd
  repeat' (first | with_reducible assumption | with_reducible (first | apply State.at_sound | apply State.releaseCore_sound | apply SoundO.next | exact SoundO.fault | apply SoundO.ite | apply Sound.ite | apply Sound.foldl | apply Sound.forAll | apply Sound.foldlPair | intro _ _ _) | split | dsimp only [refuse, okS, okB, okParts])

theorem State.takePending_sound {s} (h : Sound s) : Sound (State.takePending s) := by
  unfold State.takePending
  repeat' (first | with_reducible assumption | with_reducible (first | apply State.modFw_sound | apply Sound.ite | apply Sound.foldl | apply Sound.forAll | apply Sound.foldlPair | intro _ _ _) | split | dsimp only [refuse, okS, okB, okParts])

theorem execCapoBootVerified_sound {x0 x1 x2 s} (h : Sound s) : SoundO (execCapoBootVerified x0 x1 x2 s) := by
  unfold execCapoBootVerified
  repeat' (first | with_reducible assumption | with_reducible (first | apply State.at_sound | apply State.fwEvent_sound | apply State.modFw_sound | refine State.modHost_sound ?_ (by (first | exact fun a => a | exact fun a => ⟨a.1, a.2, a.3, a.4, a.5, a.6⟩ | (intro a; dsimp only; repeat' split) <;> exact a)) | apply State.modPwr_sound | apply State.readSlot_sound | apply State.repairWords_sound | apply State.takePending_sound | apply SoundO.next | exact SoundO.fault | apply SoundO.ite | apply Sound.ite | apply Sound.foldl | apply Sound.forAll | apply Sound.foldlPair | intro _ _ _) | split | dsimp only [refuse, okS, okB, okParts])

theorem State.drain_sound {x0 s} (h : Sound s) : Sound (State.drain x0 s) := by
  induction x0 generalizing s with
  | zero => exact h
  | succ k ih =>
    unfold State.drain
    repeat' split
    · exact ih (State.accumulate_sound (State.modEng_sound h))
    · exact ih (State.boundaryWork_sound h)
    · exact h
    · exact h

theorem execBrownOut_sound {x0 x1 x2 s} (h : Sound s) : SoundO (execBrownOut x0 x1 x2 s) := by
  unfold execBrownOut
  repeat' (first | with_reducible assumption | with_reducible (first | apply State.at_sound | apply State.drain_sound | apply State.flushLast_sound | apply State.modEng_sound | apply State.modLed_sound | apply State.modPwr_sound | apply SoundO.next | exact SoundO.fault | apply SoundO.ite | apply Sound.ite | apply Sound.foldl | apply Sound.forAll | apply Sound.foldlPair | intro _ _ _) | split | dsimp only [refuse, okS, okB, okParts])

theorem execRailRestartTrip_sound {x0 x1 x2 s} (h : Sound s) : SoundO (execRailRestartTrip x0 x1 x2 s) := by
  unfold execRailRestartTrip
  repeat' (first | with_reducible assumption | with_reducible (first | apply State.at_sound | apply State.resetCore_sound | apply SoundO.next | exact SoundO.fault | apply SoundO.ite | apply Sound.ite | apply Sound.foldl | apply Sound.forAll | apply Sound.foldlPair | intro _ _ _) | split | dsimp only [refuse, okS, okB, okParts])

theorem execBrownOutReset_sound {x0 s} (h : Sound s) : SoundO (execBrownOutReset x0 s) := by
  unfold execBrownOutReset
  repeat' (first | with_reducible assumption | with_reducible (first | apply State.at_sound | apply State.resetCore_sound | apply SoundO.next | exact SoundO.fault | apply SoundO.ite | apply Sound.ite | apply Sound.foldl | apply Sound.forAll | apply Sound.foldlPair | intro _ _ _) | split | dsimp only [refuse, okS, okB, okParts])

theorem execWarningEnd_sound {x0 x1 x2 s} (h : Sound s) : SoundO (execWarningEnd x0 x1 x2 s) := by
  unfold execWarningEnd
  repeat' (first | with_reducible assumption | with_reducible (first | apply State.at_sound | apply State.modLed_sound | apply State.modPwr_sound | refine State.modSw_sound ?_ (by (first | exact fun a => a | exact fun a => by simpa [upd] using a | (intro a; (try dsimp only); repeat' split) <;> first | exact a | simpa [upd] using a | simp_all)) | apply State.warningEvent_sound | apply SoundO.next | exact SoundO.fault | apply SoundO.ite | apply Sound.ite | apply Sound.foldl | apply Sound.forAll | apply Sound.foldlPair | intro _ _ _) | split | dsimp only [refuse, okS, okB, okParts])

theorem execResetnRelease_sound {x0 s} (h : Sound s) : SoundO (execResetnRelease x0 s) := by
  unfold execResetnRelease
  repeat' (first | with_reducible assumption | with_reducible (first | apply State.at_sound | apply State.modPwr_sound | apply State.releaseCore_sound | apply SoundO.next | exact SoundO.fault | apply SoundO.ite | apply Sound.ite | apply Sound.foldl | apply Sound.forAll | apply Sound.foldlPair | intro _ _ _) | split | dsimp only [refuse, okS, okB, okParts])

theorem execThermalShutdown_sound {x0 x1 s} (h : Sound s) : SoundO (execThermalShutdown x0 x1 s) := by
  unfold execThermalShutdown
  repeat' (first | with_reducible assumption | with_reducible (first | apply State.at_sound | apply State.resetCore_sound | apply SoundO.next | exact SoundO.fault | apply SoundO.ite | apply Sound.ite | apply Sound.foldl | apply Sound.forAll | apply Sound.foldlPair | intro _ _ _) | split | dsimp only [refuse, okS, okB, okParts])

theorem execPowerGood_sound {x0 x1 x2 x3 x4 s} (h : Sound s) : SoundO (execPowerGood x0 x1 x2 x3 x4 s) := by
  unfold execPowerGood
  repeat' (first | with_reducible assumption | with_reducible (first | apply State.at_sound | apply State.releaseCore_sound | apply SoundO.next | exact SoundO.fault | apply SoundO.ite | apply Sound.ite | apply Sound.foldl | apply Sound.forAll | apply Sound.foldlPair | intro _ _ _) | split | dsimp only [refuse, okS, okB, okParts])

theorem State.applyNextStart_sound {s} (h : Sound s) : Sound (State.applyNextStart s) := by
  unfold State.applyNextStart
  repeat' (first | with_reducible assumption | with_reducible (first | apply State.modPar_sound | apply Sound.ite | apply Sound.foldl | apply Sound.forAll | apply Sound.foldlPair | intro _ _ _) | split | dsimp only [refuse, okS, okB, okParts])

theorem execParameterStoreLoaded_sound {x0 x1 x2 x3 x4 s} (h : Sound s) : SoundO (execParameterStoreLoaded x0 x1 x2 x3 x4 s) := by
  unfold execParameterStoreLoaded
  repeat' (first | with_reducible assumption | with_reducible (first | apply State.applyNextStart_sound | apply State.at_sound | apply State.driveMpo_sound | apply State.modEng_sound | apply State.modPar_sound | refine State.modPlc_sound ?_ (by (first | exact fun a => a | exact fun a => by simpa [upd] using a | (intro a; (try dsimp only); repeat' split) <;> first | exact a | simpa [upd] using a | simp_all)) | apply State.modPwr_sound | refine State.modSar_sound ?_ (by (first | exact fun a => a | exact fun a => by simpa [upd] using a | (intro a; (try dsimp only); repeat' split) <;> first | exact a | simpa [upd] using a | simp_all)) | apply State.mramError_sound | apply State.repairWords_sound | apply State.startSafety_sound | apply SoundO.next | exact SoundO.fault | apply SoundO.ite | apply Sound.ite | apply Sound.foldl | apply Sound.forAll | apply Sound.foldlPair | intro _ _ _) | split | dsimp only [refuse, okS, okB, okParts])

theorem execCapoException_sound {x0 x1 s} (h : Sound s) : SoundO (execCapoException x0 x1 s) := by
  unfold execCapoException
  repeat' (first | with_reducible assumption | with_reducible (first | apply State.at_sound | apply State.capoDown_sound | apply SoundO.next | exact SoundO.fault | apply SoundO.ite | apply Sound.ite | apply Sound.foldl | apply Sound.forAll | apply Sound.foldlPair | intro _ _ _) | split | dsimp only [refuse, okS, okB, okParts])

theorem execCapoDivergence_sound {x0 x1 s} (h : Sound s) : SoundO (execCapoDivergence x0 x1 s) := by
  unfold execCapoDivergence
  repeat' (first | with_reducible assumption | with_reducible (first | apply State.at_sound | apply State.capoDown_sound | apply SoundO.next | exact SoundO.fault | apply SoundO.ite | apply Sound.ite | apply Sound.foldl | apply Sound.forAll | apply Sound.foldlPair | intro _ _ _) | split | dsimp only [refuse, okS, okB, okParts])

theorem execResetnAssert_sound {x0 x1 x2 s} (h : Sound s) : SoundO (execResetnAssert x0 x1 x2 s) := by
  unfold execResetnAssert
  repeat' (first | with_reducible assumption | with_reducible (first | apply State.applyFailsafe_sound | apply State.at_sound | apply State.bump_sound | apply State.modPwr_sound | apply State.resetCore_sound | apply SoundO.next | exact SoundO.fault | apply SoundO.ite | apply Sound.ite | apply Sound.foldl | apply Sound.forAll | apply Sound.foldlPair | intro _ _ _) | split | dsimp only [refuse, okS, okB, okParts])

theorem execVswMonitorTrip_sound {x0 x1 s} (h : Sound s) : SoundO (execVswMonitorTrip x0 x1 s) := by
  unfold execVswMonitorTrip
  repeat' (first | with_reducible assumption | with_reducible (first | apply State.at_sound | apply State.modPwr_sound | refine State.modSw_sound ?_ (by (first | exact fun a => a | exact fun a => by simpa [upd] using a | (intro a; (try dsimp only); repeat' split) <;> first | exact a | simpa [upd] using a | simp_all)) | apply State.warnIfMetering_sound | apply SoundO.next | exact SoundO.fault | apply SoundO.ite | apply Sound.ite | apply Sound.foldl | apply Sound.forAll | apply Sound.foldlPair | intro _ _ _) | split | dsimp only [refuse, okS, okB, okParts])

end Sys2Proof.Machine
end

