-- ==== Sys2Proof/Laws/SoundHostNode.lean ====
section
/-!
SUPPORT. Each operation of Machine/HostNode.lean keeps the invariant `Sound`.
-/

namespace Sys2Proof.Machine

theorem serveEventDetail_sound {x0 s} (h : Sound s) : Sound (serveEventDetail x0 s).st := by
  unfold serveEventDetail
  dsimp only
  repeat' split
  · exact h
  · exact h
  · refine State.modHost_sound (f := fun x => { x with events := upd x.events _ (fun q => { q with details := q.details.drop 1 }) }) h
      (fun a => a.updQueue (f := fun q => { q with details := q.details.drop 1 }) (fun q b => ?_))
    simp only [List.length_drop]
    omega

theorem State.factoryReset_sound {s x1} (h : Sound s) : Sound (State.factoryReset s x1) := by
  unfold State.factoryReset
  repeat' (first | with_reducible assumption | with_reducible (first | apply State.capoDown_sound | apply State.enterHost_sound | refine State.modCourses_sound ?_ (by (first | exact fun a => a | exact fun a => by simpa [upd] using a | (intro a; (try dsimp only); repeat' split) <;> first | exact a | simpa [upd] using a | simp_all)) | apply State.modEng_sound | apply State.modLed_sound | apply State.modPar_sound | refine State.modPlc_sound ?_ (by (first | exact fun a => a | exact fun a => by simpa [upd] using a | (intro a; (try dsimp only); repeat' split) <;> first | exact a | simpa [upd] using a | simp_all)) | refine State.modPts_sound ?_ (by (first | exact fun a => a | exact fun a => by simpa [upd] using a | (intro a; (try dsimp only); repeat' split) <;> first | exact a | simpa [upd] using a | simp_all)) | apply State.modRecs_sound | apply Sound.ite | apply Sound.foldl | apply Sound.forAll | apply Sound.foldlPair | intro _ _ _) | split | dsimp only [refuse, okS, okB, okParts])

theorem serveFactoryReset_sound {x0 x1 s} (h : Sound s) : Sound (serveFactoryReset x0 x1 s).st := by
  unfold serveFactoryReset noPayload withSeal withLog okS refuse
  repeat' (first | with_reducible assumption | with_reducible (first | apply State.factoryReset_sound | apply State.logRefused_sound | apply Sound.ite | apply Sound.foldl | apply Sound.forAll | apply Sound.foldlPair | intro _ _ _) | split | dsimp only [refuse, okS, okB, okParts])

theorem serveIdentity_sound {x0 s} (h : Sound s) : Sound (serveIdentity x0 s).st := by
  unfold serveIdentity noPayload okB
  repeat' (first | with_reducible assumption | with_reducible (first | apply Sound.ite | apply Sound.foldl | apply Sound.forAll | apply Sound.foldlPair | intro _ _ _) | split | dsimp only [refuse, okS, okB, okParts])

theorem serveNodeStatus_sound {x0 s} (h : Sound s) : Sound (serveNodeStatus x0 s).st := by
  unfold serveNodeStatus noPayload okB
  repeat' (first | with_reducible assumption | with_reducible (first | apply Sound.ite | apply Sound.foldl | apply Sound.forAll | apply Sound.foldlPair | intro _ _ _) | split | dsimp only [refuse, okS, okB, okParts])

theorem execIdentity_sound {x0 x1 s} (h : Sound s) : SoundO (execIdentity x0 x1 s) := hostCmd_sound h (fun _ _ a => serveIdentity_sound a)

theorem execFactoryReset_sound {x0 x1 s} (h : Sound s) : SoundO (execFactoryReset x0 x1 s) := hostCmd_sound h (fun _ _ a => serveFactoryReset_sound a)

theorem execEventDetail_sound {x0 x1 s} (h : Sound s) : SoundO (execEventDetail x0 x1 s) := hostCmd_sound h (fun _ _ a => serveEventDetail_sound a)

theorem execNodeStatus_sound {x0 x1 s} (h : Sound s) : SoundO (execNodeStatus x0 x1 s) := hostCmd_sound h (fun _ _ a => serveNodeStatus_sound a)

end Sys2Proof.Machine
end

