-- ==== Sys2Proof/Laws/SoundTestWindow.lean ====
section
/-!
SUPPORT. Each operation of Machine/TestWindow.lean keeps the invariant `Sound`.
-/

namespace Sys2Proof.Machine

theorem serveTestRelock_sound {x0 x1 s} (h : Sound s) : Sound (serveTestRelock x0 x1 s).st := by
  unfold serveTestRelock noPayload withLog okS refuse
  repeat' (first | with_reducible assumption | with_reducible (first | apply State.logRefused_sound | apply State.relock_sound | apply Sound.ite | apply Sound.foldl | apply Sound.forAll | apply Sound.foldlPair | intro _ _ _) | split | dsimp only [refuse, okS, okB, okParts])

theorem execTestRelock_sound {x0 x1 s} (h : Sound s) : SoundO (execTestRelock x0 x1 s) := hostCmd_sound h (fun _ _ a => serveTestRelock_sound a)

theorem State.testTouched_sound {s} (h : Sound s) : Sound (State.testTouched s) := by
  unfold State.testTouched
  repeat' (first | with_reducible assumption | with_reducible (first | refine State.modTest_sound ?_ (by (first | exact fun a => a | (intro a; dsimp only; repeat' split) <;> exact a)) | apply Sound.ite | apply Sound.foldl | apply Sound.forAll | apply Sound.foldlPair | intro _ _ _) | split | dsimp only [refuse, okS, okB, okParts])

theorem serveTestUnlock_sound {x0 x1 s} (h : Sound s) : Sound (serveTestUnlock x0 x1 s).st := by
  unfold serveTestUnlock noPayload withSeal withLog okS refuse
  repeat' (first | with_reducible assumption | with_reducible (first | apply State.enterHost_sound | apply State.logRefused_sound | refine State.modTest_sound ?_ (by exact fun _ e => by cases e) | apply State.testTouched_sound | apply Sound.ite) | split | dsimp only [refuse, okS, okB, okParts])

theorem State.testClear_sound {s x1} (h : Sound s) : Sound (State.testClear s x1) := by
  have w := State.testTouched_sound h
  unfold State.testClear
  repeat' split
  · exact State.setTest_sound w (fun _ => rfl)
  · exact w
  · exact h

theorem State.testWrite_sound {s x1 x2} (h : Sound s) : Sound (State.testWrite s x1 x2) := by
  have w := State.testTouched_sound h
  unfold State.testWrite
  split
  · exact h
  · next u =>
    split
    · exact State.setTest_sound w (fun e => absurd e u)
    · exact w

theorem execTestRingWrite_sound {x0 s} (h : Sound s) : SoundO (execTestRingWrite x0 s) := by
  unfold execTestRingWrite
  repeat' (first | with_reducible assumption | with_reducible (first | apply State.testWrite_sound | apply SoundO.next | exact SoundO.fault | apply SoundO.ite | apply Sound.ite | apply Sound.foldl | apply Sound.forAll | apply Sound.foldlPair | intro _ _ _) | split | dsimp only [refuse, okS, okB, okParts])

theorem execTestPlcWrite_sound {x0 s} (h : Sound s) : SoundO (execTestPlcWrite x0 s) := by
  unfold execTestPlcWrite
  repeat' (first | with_reducible assumption | with_reducible (first | apply State.testWrite_sound | apply SoundO.next | exact SoundO.fault | apply SoundO.ite | apply Sound.ite | apply Sound.foldl | apply Sound.forAll | apply Sound.foldlPair | intro _ _ _) | split | dsimp only [refuse, okS, okB, okParts])

theorem execTestZcWrite_sound {x0 s} (h : Sound s) : SoundO (execTestZcWrite x0 s) := by
  unfold execTestZcWrite
  repeat' (first | with_reducible assumption | with_reducible (first | apply State.testWrite_sound | apply SoundO.next | exact SoundO.fault | apply SoundO.ite | apply Sound.ite | apply Sound.foldl | apply Sound.forAll | apply Sound.foldlPair | intro _ _ _) | split | dsimp only [refuse, okS, okB, okParts])

theorem execTestStretchWrite_sound {x0 x1 s} (h : Sound s) : SoundO (execTestStretchWrite x0 x1 s) := by
  unfold execTestStretchWrite
  repeat' (first | with_reducible assumption | with_reducible (first | apply State.testWrite_sound | apply SoundO.next | exact SoundO.fault | apply SoundO.ite | apply Sound.ite | apply Sound.foldl | apply Sound.forAll | apply Sound.foldlPair | intro _ _ _) | split | dsimp only [refuse, okS, okB, okParts])

theorem execTestTimeout_sound {x0 s} (h : Sound s) : SoundO (execTestTimeout x0 s) := by
  unfold execTestTimeout
  repeat' (first | with_reducible assumption | with_reducible (first | apply State.at_sound | apply State.relock_sound | apply SoundO.next | exact SoundO.fault | apply SoundO.ite | apply Sound.ite | apply Sound.foldl | apply Sound.forAll | apply Sound.foldlPair | intro _ _ _) | split | dsimp only [refuse, okS, okB, okParts])

theorem execTestClear_sound {x0 s} (h : Sound s) : SoundO (execTestClear x0 s) := by
  unfold execTestClear
  repeat' (first | with_reducible assumption | with_reducible (first | apply State.testClear_sound | apply SoundO.next | exact SoundO.fault | apply SoundO.ite | apply Sound.ite | apply Sound.foldl | apply Sound.forAll | apply Sound.foldlPair | intro _ _ _) | split | dsimp only [refuse, okS, okB, okParts])

theorem execTestMramWrite_sound {x0 s} (h : Sound s) : SoundO (execTestMramWrite x0 s) := by
  unfold execTestMramWrite
  repeat' (first | with_reducible assumption | with_reducible (first | apply State.testWrite_sound | apply SoundO.next | exact SoundO.fault | apply SoundO.ite | apply Sound.ite | apply Sound.foldl | apply Sound.forAll | apply Sound.foldlPair | intro _ _ _) | split | dsimp only [refuse, okS, okB, okParts])

theorem execTestSafetyWrite_sound {x0 s} (h : Sound s) : SoundO (execTestSafetyWrite x0 s) := by
  unfold execTestSafetyWrite
  repeat' (first | with_reducible assumption | with_reducible (first | apply State.testWrite_sound | apply SoundO.next | exact SoundO.fault | apply SoundO.ite | apply Sound.ite | apply Sound.foldl | apply Sound.forAll | apply Sound.foldlPair | intro _ _ _) | split | dsimp only [refuse, okS, okB, okParts])

theorem execTestUnlock_sound {x0 x1 s} (h : Sound s) : SoundO (execTestUnlock x0 x1 s) := hostCmd_sound h (fun _ _ a => serveTestUnlock_sound a)

theorem execTestWdWrite_sound {x0 s} (h : Sound s) : SoundO (execTestWdWrite x0 s) := by
  unfold execTestWdWrite
  repeat' (first | with_reducible assumption | with_reducible (first | apply State.testWrite_sound | apply SoundO.next | exact SoundO.fault | apply SoundO.ite | apply Sound.ite | apply Sound.foldl | apply Sound.forAll | apply Sound.foldlPair | intro _ _ _) | split | dsimp only [refuse, okS, okB, okParts])

theorem execTestFifoWrite_sound {x0 s} (h : Sound s) : SoundO (execTestFifoWrite x0 s) := by
  unfold execTestFifoWrite
  repeat' (first | with_reducible assumption | with_reducible (first | apply State.testWrite_sound | apply SoundO.next | exact SoundO.fault | apply SoundO.ite | apply Sound.ite | apply Sound.foldl | apply Sound.forAll | apply Sound.foldlPair | intro _ _ _) | split | dsimp only [refuse, okS, okB, okParts])

end Sys2Proof.Machine
end

