-- ==== Sys2Proof/Laws/SoundHostPort.lean ====
section
/-!
SUPPORT. Each operation of Machine/HostPort.lean keeps the invariant `Sound`.
-/

namespace Sys2Proof.Machine

theorem Fifo.spoil_ok {a : Nat} {f : Fifo} (h : FifoOk a f) : FifoOk a f.spoil := by
  refine ⟨h.rptr, ?_⟩
  have q := h.wptr
  unfold Fifo.spoil
  dsimp only
  split
  · next e => rw [e] at q; simpa using q
  · next e => rw [e] at q; simpa using q

theorem lastUnit_le (l : List (Nat × Bool × Bool)) : lastUnit l ≤ l.length := by
  unfold lastUnit
  omega

theorem Fifo.flush_ok {a b : Nat} {f : Fifo} (h : FifoOk a f) (e : b = a) : FifoOk a (Fifo.flush b f) := by
  cases e
  refine ⟨Nat.mod_lt _ (Nat.two_pow_pos _), ?_⟩
  have q := h.wptr
  have n := lastUnit_le f.words
  unfold Fifo.flush
  dsimp only
  rw [q, List.length_drop, Nat.mod_add_mod]
  congr 1
  omega

theorem fifoReadOf_ok {s : State} {k t : Nat} {hold bad : Bool} (h : Sound s) (l : k < 4) :
    FifoOk (streamBits k) (fifoRead (streamBits k) t hold (if bad then (s.stream k).spoil else s.stream k)).2.2 := by
  have q : FifoOk (streamBits k) (s.stream k) := h.host.fifo k l
  split
  · exact fifoRead_ok (Fifo.spoil_ok q)
  · exact fifoRead_ok q

theorem State.writeMask_sound {s x1 x2} (h : Sound s) : Sound (State.writeMask s x1 x2) := by
  unfold State.writeMask
  repeat' (first | with_reducible assumption | with_reducible (first | refine State.modHost_sound ?_ (by (first | exact fun a => a | exact fun a => ⟨a.1, a.2, a.3, a.4, a.5, a.6⟩ | (intro a; dsimp only; repeat' split) <;> exact a)) | apply Sound.ite | apply Sound.foldl | apply Sound.forAll | apply Sound.foldlPair | intro _ _ _) | split | dsimp only [refuse, okS, okB, okParts])

theorem State.clearEvents_sound {s x1 x2} (h : Sound s) : Sound (State.clearEvents s x1 x2) := by
  unfold State.clearEvents
  repeat' (first | with_reducible assumption | with_reducible (first | refine State.modHost_sound ?_ (by (first | exact fun a => a | exact fun a => ⟨a.1, a.2, a.3, a.4, a.5, a.6⟩ | (intro a; dsimp only; repeat' split) <;> exact a)) | apply Sound.ite | apply Sound.foldl | apply Sound.forAll | apply Sound.foldlPair | intro _ _ _) | split | dsimp only [refuse, okS, okB, okParts])

theorem State.poisonEvent_sound {s x1 x2} (h : Sound s) : Sound (State.poisonEvent s x1 x2) := by
  unfold State.poisonEvent
  repeat' (first | with_reducible assumption | with_reducible (first | refine State.modStream_sound ?_ (by first | exact fun _ a => ⟨a.1, a.2⟩ | exact fun _ a => a | exact fun _ a => fifoPushUnit_ok a | exact fun _ a => Fifo.flush_ok a) | apply State.raise_sound | apply Sound.ite | apply Sound.foldl | apply Sound.forAll | apply Sound.foldlPair | intro _ _ _) | split | dsimp only [refuse, okS, okB, okParts])

theorem State.portRead_sound {s x1 x2} (h : Sound s) : Sound (State.portRead s x1 x2).2 := by
  have w : Sound (s.modStream x1 (fun _ => (fifoRead (streamBits x1) s.clk.up (s.streamHeld x1)
      (if x2 then (s.stream x1).spoil else s.stream x1)).2.2)) :=
    State.modHost_sound h (fun a => by
      by_cases l : x1 < 4
      · exact a.updFifo (fun _ _ => fifoReadOf_ok h l)
      · rw [show upd s.host.streams x1 _ = s.host.streams from List.modify_eq_self (by have := a.fifos; omega)]
        exact a)
  unfold State.portRead
  dsimp only
  generalize (if x2 = true then (s.stream x1).spoil else s.stream x1) = f at w ⊢
  split
  · exact State.poisonEvent_sound w
  · exact w

theorem State.flushStream_sound {s x1 x2} (h : Sound s) : Sound (State.flushStream s x1 x2) := by
  unfold State.flushStream
  split
  · exact State.modStream_sound h (fun _ a => Fifo.flush_ok a rfl)
  · exact h

theorem State.watchdogEvent_sound {s x1} (h : Sound s) : Sound (State.watchdogEvent s x1) := by
  unfold State.watchdogEvent
  repeat' (first | with_reducible assumption | with_reducible (first | apply State.raise_sound | apply Sound.ite | apply Sound.foldl | apply Sound.forAll | apply Sound.foldlPair | intro _ _ _) | split | dsimp only [refuse, okS, okB, okParts])

theorem State.heartbeat_sound {s} (h : Sound s) : Sound (State.heartbeat s) := by
  unfold State.heartbeat
  repeat' (first | with_reducible assumption | with_reducible (first | refine State.modHost_sound ?_ (by (first | exact fun a => a | exact fun a => ⟨a.1, a.2, a.3, a.4, a.5, a.6⟩ | (intro a; dsimp only; repeat' split) <;> exact a)) | apply State.watchdogEvent_sound | apply Sound.ite | apply Sound.foldl | apply Sound.forAll | apply Sound.foldlPair | intro _ _ _) | split | dsimp only [refuse, okS, okB, okParts])

theorem State.testWriteAt_sound {s x1 x2} (h : Sound s) : Sound (State.testWriteAt s x1 x2) := by
  unfold State.testWriteAt
  repeat' (first | with_reducible assumption | with_reducible (first | apply State.testClear_sound | apply State.testWrite_sound | apply Sound.ite | apply Sound.foldl | apply Sound.forAll | apply Sound.foldlPair | intro _ _ _) | split | dsimp only [refuse, okS, okB, okParts])

theorem State.writeStreamStatus_sound {s x1 x2} (h : Sound s) : Sound (State.writeStreamStatus s x1 x2) := by
  unfold State.writeStreamStatus
  repeat' (first | with_reducible assumption | with_reducible (first | refine State.modStream_sound ?_ (by first | exact fun _ a => ⟨a.1, a.2⟩ | exact fun _ a => a | exact fun _ a => fifoPushUnit_ok a | exact fun _ a => Fifo.flush_ok a) | apply Sound.ite | apply Sound.foldl | apply Sound.forAll | apply Sound.foldlPair | intro _ _ _) | split | dsimp only [refuse, okS, okB, okParts])

theorem State.regWrite_sound {s x1 x2} (h : Sound s) : Sound (State.regWrite s x1 x2) := by
  unfold State.regWrite
  repeat' (first | with_reducible assumption | with_reducible (first | apply State.clearEvents_sound | apply State.flushStream_sound | apply State.heartbeat_sound | refine State.modHost_sound ?_ (by (first | exact fun a => a | exact fun a => ⟨a.1, a.2, a.3, a.4, a.5, a.6⟩ | (intro a; dsimp only; repeat' split) <;> exact a)) | apply State.testWriteAt_sound | apply State.writeMask_sound | apply State.writeStreamStatus_sound | apply Sound.ite | apply Sound.foldl | apply Sound.forAll | apply Sound.foldlPair | intro _ _ _) | split | dsimp only [refuse, okS, okB, okParts])

theorem State.peerNow_sound {s x1} (h : Sound s) : Sound (State.peerNow s x1) := by
  unfold State.peerNow
  repeat' (first | with_reducible assumption | with_reducible (first | refine State.modHost_sound ?_ (by (first | exact fun a => a | exact fun a => ⟨a.1, a.2, a.3, a.4, a.5, a.6⟩ | (intro a; dsimp only; repeat' split) <;> exact a)) | apply Sound.ite | apply Sound.foldl | apply Sound.forAll | apply Sound.foldlPair | intro _ _ _) | split | dsimp only [refuse, okS, okB, okParts])

theorem State.releaseMbox_sound {s x1} (h : Sound s) : Sound (State.releaseMbox s x1) := by
  unfold State.releaseMbox
  repeat' (first | with_reducible assumption | with_reducible (first | refine State.modMbox_sound ?_ (by first | exact fun a => a | exact fun a _ => rfl | exact fun _ e => by cases e) | apply State.peerNow_sound | apply Sound.ite | apply Sound.foldl | apply Sound.forAll | apply Sound.foldlPair | intro _ _ _) | split | dsimp only [refuse, okS, okB, okParts])

theorem State.regRead_sound {s x1} (h : Sound s) : Sound (State.regRead s x1).2 := by
  unfold State.regRead
  repeat' (first | with_reducible assumption | with_reducible (first | apply State.bump_sound | refine State.modHost_sound ?_ (by (first | exact fun a => a | exact fun a => ⟨a.1, a.2, a.3, a.4, a.5, a.6⟩ | (intro a; dsimp only; repeat' split) <;> exact a)) | apply Sound.ite | apply Sound.foldl | apply Sound.forAll | apply Sound.foldlPair | intro _ _ _) | split | dsimp only [refuse, okS, okB, okParts])

theorem execStreamTailTimeout_sound {x0 x1 s} (h : Sound s) : SoundO (execStreamTailTimeout x0 x1 s) := by
  unfold execStreamTailTimeout
  repeat' (first | with_reducible assumption | with_reducible (first | apply State.at_sound | refine State.modStream_sound ?_ (by first | exact fun _ a => ⟨a.1, a.2⟩ | exact fun _ a => a | exact fun _ a => fifoPushUnit_ok a | exact fun _ a => Fifo.flush_ok a) | apply State.streamReport_sound | apply SoundO.next | exact SoundO.fault | apply SoundO.ite | apply Sound.ite | apply Sound.foldl | apply Sound.forAll | apply Sound.foldlPair | intro _ _ _) | split | dsimp only [refuse, okS, okB, okParts])

theorem execStreamFlush_sound {x0 x1 s} (h : Sound s) : SoundO (execStreamFlush x0 x1 s) := by
  unfold execStreamFlush hostAct
  repeat' (first | with_reducible assumption | with_reducible (first | apply State.flushStream_sound | apply SoundO.next | exact SoundO.fault | apply SoundO.ite | apply Sound.ite | apply Sound.foldl | apply Sound.forAll | apply Sound.foldlPair | intro _ _ _) | split | dsimp only [refuse, okS, okB, okParts])

theorem execQspiTransactionError_sound {x0 s} (h : Sound s) : SoundO (execQspiTransactionError x0 s) := by
  unfold execQspiTransactionError hostAct
  repeat' (first | with_reducible assumption | with_reducible (first | refine State.modHost_sound ?_ (by (first | exact fun a => a | exact fun a => ⟨a.1, a.2, a.3, a.4, a.5, a.6⟩ | (intro a; dsimp only; repeat' split) <;> exact a)) | apply SoundO.next | exact SoundO.fault | apply SoundO.ite | apply Sound.ite | apply Sound.foldl | apply Sound.forAll | apply Sound.foldlPair | intro _ _ _) | split | dsimp only [refuse, okS, okB, okParts])

theorem execStreamPortRead_sound {x0 x1 s} (h : Sound s) : SoundO (execStreamPortRead x0 x1 s) := by
  unfold execStreamPortRead hostAct
  repeat' (first | with_reducible assumption | with_reducible (first | refine State.modHost_sound ?_ (by (first | exact fun a => a | exact fun a => ⟨a.1, a.2, a.3, a.4, a.5, a.6⟩ | (intro a; dsimp only; repeat' split) <;> exact a)) | apply State.portRead_sound | apply SoundO.next | exact SoundO.fault | apply SoundO.ite | apply Sound.ite | apply Sound.foldl | apply Sound.forAll | apply Sound.foldlPair | intro _ _ _) | split | dsimp only [refuse, okS, okB, okParts])

theorem execFrameLoRead_sound {s} (h : Sound s) : SoundO (execFrameLoRead s) := by
  unfold execFrameLoRead hostAct
  repeat' (first | with_reducible assumption | with_reducible (first | refine State.modHost_sound ?_ (by (first | exact fun a => a | exact fun a => ⟨a.1, a.2, a.3, a.4, a.5, a.6⟩ | (intro a; dsimp only; repeat' split) <;> exact a)) | apply State.regRead_sound | apply SoundO.next | exact SoundO.fault | apply SoundO.ite | apply Sound.ite | apply Sound.foldl | apply Sound.forAll | apply Sound.foldlPair | intro _ _ _) | split | dsimp only [refuse, okS, okB, okParts])

theorem execMailboxRelease_sound {x0 x1 s} (h : Sound s) : SoundO (execMailboxRelease x0 x1 s) := by
  unfold execMailboxRelease hostAct
  repeat' (first | with_reducible assumption | with_reducible (first | apply State.confined_sound | apply State.releaseMbox_sound | apply SoundO.next | exact SoundO.fault | apply SoundO.ite | apply Sound.ite | apply Sound.foldl | apply Sound.forAll | apply Sound.foldlPair | intro _ _ _) | split | dsimp only [refuse, okS, okB, okParts])

theorem execHostWatchdogTimeout_sound {x0 s} (h : Sound s) : SoundO (execHostWatchdogTimeout x0 s) := by
  unfold execHostWatchdogTimeout
  repeat' (first | with_reducible assumption | with_reducible (first | apply State.addCause_sound | apply State.at_sound | refine State.modHost_sound ?_ (by (first | exact fun a => a | exact fun a => ⟨a.1, a.2, a.3, a.4, a.5, a.6⟩ | (intro a; dsimp only; repeat' split) <;> exact a)) | apply State.watchdogEvent_sound | apply SoundO.next | exact SoundO.fault | apply SoundO.ite | apply Sound.ite | apply Sound.foldl | apply Sound.forAll | apply Sound.foldlPair | intro _ _ _) | split | dsimp only [refuse, okS, okB, okParts])

theorem execEventClear_sound {x0 x1 s} (h : Sound s) : SoundO (execEventClear x0 x1 s) := by
  unfold execEventClear hostAct
  repeat' (first | with_reducible assumption | with_reducible (first | apply State.clearEvents_sound | apply SoundO.next | exact SoundO.fault | apply SoundO.ite | apply Sound.ite | apply Sound.foldl | apply Sound.forAll | apply Sound.foldlPair | intro _ _ _) | split | dsimp only [refuse, okS, okB, okParts])

theorem execHeartbeat_sound {x0 s} (h : Sound s) : SoundO (execHeartbeat x0 s) := by
  unfold execHeartbeat hostAct
  repeat' (first | with_reducible assumption | with_reducible (first | apply State.heartbeat_sound | apply SoundO.next | exact SoundO.fault | apply SoundO.ite | apply Sound.ite | apply Sound.foldl | apply Sound.forAll | apply Sound.foldlPair | intro _ _ _) | split | dsimp only [refuse, okS, okB, okParts])

theorem execReplyCacheExpiry_sound {x0 s} (h : Sound s) : SoundO (execReplyCacheExpiry x0 s) := by
  unfold execReplyCacheExpiry
  repeat' (first | with_reducible assumption | with_reducible (first | apply State.at_sound | refine State.modHost_sound ?_ (by (first | exact fun a => a | exact fun a => ⟨a.1, a.2, a.3, a.4, a.5, a.6⟩ | (intro a; dsimp only; repeat' split) <;> exact a)) | apply SoundO.next | exact SoundO.fault | apply SoundO.ite | apply Sound.ite | apply Sound.foldl | apply Sound.forAll | apply Sound.foldlPair | intro _ _ _) | split | dsimp only [refuse, okS, okB, okParts])

end Sys2Proof.Machine
end

