-- ==== Sys2Proof/Laws/SoundHostRecords.lean ====
section
/-!
SUPPORT. Each operation of Machine/HostRecords.lean keeps the invariant `Sound`.
-/

namespace Sys2Proof.Machine

theorem State.endSigned_sound {s x1} (h : Sound s) : Sound (State.endSigned s x1) := by
  unfold State.endSigned
  repeat' (first | with_reducible assumption | with_reducible (first | apply State.eraseKey_sound | apply State.modSes_sound | apply Sound.ite | apply Sound.foldl | apply Sound.forAll | apply Sound.foldlPair | intro _ _ _) | split | dsimp only [refuse, okS, okB, okParts])

theorem State.leaveClosed_sound {s} (h : Sound s) : Sound (State.leaveClosed s) := by
  unfold State.leaveClosed
  repeat' (first | with_reducible assumption | with_reducible (first | apply State.closedToIdle_sound | apply Sound.ite | apply Sound.foldl | apply Sound.forAll | apply Sound.foldlPair | intro _ _ _) | split | dsimp only [refuse, okS, okB, okParts])

theorem execRecordSigned_sound {x0 s} (h : Sound s) : SoundO (execRecordSigned x0 s) := by
  unfold execRecordSigned
  repeat' (first | with_reducible assumption | with_reducible (first | apply State.askKey_sound | apply State.at_sound | apply State.endSigned_sound | apply State.journalNear_sound | apply State.journalRec_sound | apply State.leaveClosed_sound | apply State.modRecs_sound | apply State.streamRec_sound | apply SoundO.next | exact SoundO.fault | apply SoundO.ite | apply Sound.ite | apply Sound.foldl | apply Sound.forAll | apply Sound.foldlPair | intro _ _ _) | split | dsimp only [refuse, okS, okB, okParts])

theorem State.journalRearm_sound {s} (h : Sound s) : Sound (State.journalRearm s) := by
  unfold State.journalRearm
  repeat' (first | with_reducible assumption | with_reducible (first | apply State.modRecs_sound | apply Sound.ite | apply Sound.foldl | apply Sound.forAll | apply Sound.foldlPair | intro _ _ _) | split | dsimp only [refuse, okS, okB, okParts])

theorem serveRecordAcknowledge_sound {x0 s} (h : Sound s) : Sound (serveRecordAcknowledge x0 s).st := by
  unfold serveRecordAcknowledge onSeries okS refuse
  repeat' (first | with_reducible assumption | with_reducible (first | apply State.journalRearm_sound | apply State.modPt_sound | apply State.modRecs_sound | apply Sound.ite | apply Sound.foldl | apply Sound.forAll | apply Sound.foldlPair | intro _ _ _) | split | dsimp only [refuse, okS, okB, okParts])

theorem serveLogRead_sound {x0 s} (h : Sound s) : Sound (serveLogRead x0 s).st := by
  unfold serveLogRead okB refuse
  repeat' (first | with_reducible assumption | with_reducible (first | apply State.modLog_sound | apply State.readMram_sound | apply Sound.ite | apply Sound.foldl | apply Sound.forAll | apply Sound.foldlPair | intro _ _ _) | split | dsimp only [refuse, okS, okB, okParts])

theorem execLogRead_sound {x0 x1 s} (h : Sound s) : SoundO (execLogRead x0 x1 s) := hostCmd_sound h (fun _ _ a => serveLogRead_sound a)

theorem serveJournalRead_sound {x0 s} (h : Sound s) : Sound (serveJournalRead x0 s).st := by
  unfold serveJournalRead onSeries okParts refuse
  repeat' (first | with_reducible assumption | with_reducible (first | apply State.modRecs_sound | apply State.readMram_sound | apply Sound.ite | apply Sound.foldl | apply Sound.forAll | apply Sound.foldlPair | intro _ _ _) | split | dsimp only [refuse, okS, okB, okParts])

theorem serveJournalStatus_sound {x0 s} (h : Sound s) : Sound (serveJournalStatus x0 s).st := by
  unfold serveJournalStatus noPayload okB
  repeat' (first | with_reducible assumption | with_reducible (first | apply Sound.ite | apply Sound.foldl | apply Sound.forAll | apply Sound.foldlPair | intro _ _ _) | split | dsimp only [refuse, okS, okB, okParts])

theorem serveLogAcknowledge_sound {x0 s} (h : Sound s) : Sound (serveLogAcknowledge x0 s).st := by
  unfold serveLogAcknowledge okS refuse
  repeat' (first | with_reducible assumption | with_reducible (first | apply State.modLog_sound | apply Sound.ite | apply Sound.foldl | apply Sound.forAll | apply Sound.foldlPair | intro _ _ _) | split | dsimp only [refuse, okS, okB, okParts])

theorem execLogAcknowledge_sound {x0 x1 s} (h : Sound s) : SoundO (execLogAcknowledge x0 x1 s) := hostCmd_sound h (fun _ _ a => serveLogAcknowledge_sound a)

theorem execJournalStatus_sound {x0 x1 s} (h : Sound s) : SoundO (execJournalStatus x0 x1 s) := hostCmd_sound h (fun _ _ a => serveJournalStatus_sound a)

theorem execJournalRead_sound {x0 x1 s} (h : Sound s) : SoundO (execJournalRead x0 x1 s) := hostCmd_sound h (fun _ _ a => serveJournalRead_sound a)

theorem execRecordStreamDequeue_sound {x0 s} (h : Sound s) : SoundO (execRecordStreamDequeue x0 s) := by
  unfold execRecordStreamDequeue
  repeat' (first | with_reducible assumption | with_reducible (first | apply State.at_sound | apply State.leaveClosed_sound | apply State.modRecs_sound | apply State.writeUnit_sound | apply SoundO.next | exact SoundO.fault | apply SoundO.ite | apply Sound.ite | apply Sound.foldl | apply Sound.forAll | apply Sound.foldlPair | intro _ _ _) | split | dsimp only [refuse, okS, okB, okParts])

theorem execRecordAcknowledge_sound {x0 x1 s} (h : Sound s) : SoundO (execRecordAcknowledge x0 x1 s) := hostCmd_sound h (fun _ _ a => serveRecordAcknowledge_sound a)

end Sys2Proof.Machine
end

