-- ==== Sys2Proof/Laws/SoundParamRules.lean ====
section
/-!
SUPPORT. Each operation of Machine/ParamRules.lean keeps the invariant `Sound`.
-/

namespace Sys2Proof.Machine

theorem State.future_sound {s x1} (h : Sound s) : Sound (State.future s x1) := by
  unfold State.future
  repeat' (first | with_reducible assumption | with_reducible (first | apply State.modEng_sound | apply State.modPar_sound | apply Sound.ite | apply Sound.foldl | apply Sound.forAll | apply Sound.foldlPair | intro _ _ _) | split | dsimp only [refuse, okS, okB, okParts])

end Sys2Proof.Machine
end

