-- ==== Sys2Proof/Laws/SoundParamWrite.lean ====
section
/-!
SUPPORT. Each operation of Machine/ParamWrite.lean keeps the invariant `Sound`.
-/

namespace Sys2Proof.Machine

theorem State.closeBatch_sound {s} (h : Sound s) : Sound (State.closeBatch s) := by
  unfold State.closeBatch
  repeat' (first | with_reducible assumption | with_reducible (first | apply State.modPar_sound | apply Sound.ite | apply Sound.foldl | apply Sound.forAll | apply Sound.foldlPair | intro _ _ _) | split | dsimp only [refuse, okS, okB, okParts])

theorem State.immediateEffect_sound {s x1 x2 x3 x4} (h : Sound s) : Sound (State.immediateEffect s x1 x2 x3 x4) := by
  unfold State.immediateEffect
  repeat' (first | with_reducible assumption | with_reducible (first | apply State.dispDisable_sound | apply State.frontLight_sound | apply State.modFw_sound | refine State.modHost_sound ?_ (by (first | exact fun a => a | exact fun a => ⟨a.1, a.2, a.3, a.4, a.5, a.6⟩ | (intro a; dsimp only; repeat' split) <;> exact a)) | refine State.modServo_sound ?_ (by (first | exact fun a => a | exact fun a => by simpa [upd] using a | exact fun a => by simpa [upd, Servo.clearRuns] using a | (intro a; (try dsimp only); repeat' split) <;> first | exact a | simpa [upd] using a | simp_all)) (by (first | exact fun a => a | exact fun a => by simpa [upd] using a | exact fun a => by simpa [upd, Servo.clearRuns] using a | (intro a; (try dsimp only); repeat' split) <;> first | exact a | simpa [upd] using a | simp_all)) | refine State.modTest_sound ?_ (by (first | exact fun a => a | (intro a; dsimp only; repeat' split) <;> exact a)) | apply State.plcSweep_sound | apply State.rediscover_sound | apply State.setPilot_sound | apply Sound.ite | apply Sound.foldl | apply Sound.forAll | apply Sound.foldlPair | intro _ _ _) | split | dsimp only [refuse, okS, okB, okParts])

theorem State.stageValue_sound {s x1 x2 x3 x4} (h : Sound s) : Sound (State.stageValue s x1 x2 x3 x4) := by
  unfold State.stageValue
  repeat' (first | with_reducible assumption | with_reducible (first | apply State.modPar_sound | apply Sound.ite | apply Sound.foldl | apply Sound.forAll | apply Sound.foldlPair | intro _ _ _) | split | dsimp only [refuse, okS, okB, okParts])

theorem State.acceptValue_sound {s x1} (h : Sound s) : Sound (State.acceptValue s x1) := by
  unfold State.acceptValue
  repeat' (first | with_reducible assumption | with_reducible (first | apply State.addCause_sound | apply State.immediateEffect_sound | apply State.modPar_sound | apply State.stageValue_sound | apply Sound.ite | apply Sound.foldl | apply Sound.forAll | apply Sound.foldlPair | intro _ _ _) | split | dsimp only [refuse, okS, okB, okParts])

theorem State.dropRetyped_sound {s x1} (h : Sound s) : Sound (State.dropRetyped s x1) := by
  unfold State.dropRetyped
  repeat' (first | with_reducible assumption | with_reducible (first | apply State.modPar_sound | apply Sound.ite | apply Sound.foldl | apply Sound.forAll | apply Sound.foldlPair | intro _ _ _) | split | dsimp only [refuse, okS, okB, okParts])

theorem State.holdPeer_sound {s x1 x2} (h : Sound s) : Sound (State.holdPeer s x1 x2) := by
  unfold State.holdPeer
  repeat' (first | with_reducible assumption | with_reducible (first | refine State.modHost_sound ?_ (by (first | exact fun a => a | exact fun a => ⟨a.1, a.2, a.3, a.4, a.5, a.6⟩ | (intro a; dsimp only; repeat' split) <;> exact a)) | apply Sound.ite | apply Sound.foldl | apply Sound.forAll | apply Sound.foldlPair | intro _ _ _) | split | dsimp only [refuse, okS, okB, okParts])

theorem State.logValue_sound {s x1 x2 x3} (h : Sound s) : Sound (State.logValue s x1 x2 x3) := by
  unfold State.logValue
  repeat' (first | with_reducible assumption | with_reducible (first | apply State.bump_sound | apply State.enterHost_sound | apply Sound.ite | apply Sound.foldl | apply Sound.forAll | apply Sound.foldlPair | intro _ _ _) | split | dsimp only [refuse, okS, okB, okParts])

theorem State.applyBatch_sound {s x1 x2} (h : Sound s) : Sound (State.applyBatch s x1 x2) := by
  unfold State.applyBatch
  repeat' (first | with_reducible assumption | with_reducible (first | apply State.acceptValue_sound | apply State.configApplied_sound | apply State.dropRetyped_sound | apply State.holdPeer_sound | apply State.logValue_sound | apply State.modPar_sound | apply Sound.ite | apply Sound.foldl | apply Sound.forAll | apply Sound.foldlPair | intro _ _ _) | split | dsimp only [refuse, okS, okB, okParts])

theorem State.configRefused_sound {s x1 x2 x3} (h : Sound s) : Sound (State.configRefused s x1 x2 x3) := by
  unfold State.configRefused
  repeat' (first | with_reducible assumption | with_reducible (first | apply State.raise_sound | apply Sound.ite | apply Sound.foldl | apply Sound.forAll | apply Sound.foldlPair | intro _ _ _) | split | dsimp only [refuse, okS, okB, okParts])

theorem batchAns_sound {s x1 x2 x3 x4} (h : Sound s) : Sound (batchAns s x1 x2 x3 x4).st := by
  unfold batchAns
  repeat' (first | with_reducible assumption | with_reducible (first | apply State.bump_sound | apply Sound.ite | apply Sound.foldl | apply Sound.forAll | apply Sound.foldlPair | intro _ _ _) | split | dsimp only [refuse, okS, okB, okParts])

theorem State.commitBatch_sound {s x1 x2 x3 x4} (h : Sound s) : Sound (State.commitBatch s x1 x2 x3 x4).st := by
  unfold State.commitBatch okB
  repeat' (first | with_reducible assumption | with_reducible (first | apply State.applyBatch_sound | apply State.bump_sound | apply State.closeBatch_sound | apply State.configRefused_sound | apply State.future_sound | apply State.logRefused_sound | apply batchAns_sound | apply Sound.ite | apply Sound.foldl | apply Sound.forAll | apply Sound.foldlPair | intro _ _ _) | split | dsimp only [refuse, okS, okB, okParts])

theorem serveParameterWrite_sound {x0 x1 s} (h : Sound s) : Sound (serveParameterWrite x0 x1 s).st := by
  unfold serveParameterWrite refuse
  repeat' (first | with_reducible assumption | with_reducible (first | apply State.closeBatch_sound | apply State.commitBatch_sound | apply State.modPar_sound | apply batchAns_sound | apply Sound.ite | apply Sound.foldl | apply Sound.forAll | apply Sound.foldlPair | intro _ _ _) | split | dsimp only [refuse, okS, okB, okParts])

theorem execBatchAbort_sound {x0 x1 s} (h : Sound s) : SoundO (execBatchAbort x0 x1 s) := hostCmd_sound h (fun _ _ a => serveParameterWrite_sound a)

theorem execBatchTimeout_sound {x0 s} (h : Sound s) : SoundO (execBatchTimeout x0 s) := by
  unfold execBatchTimeout
  repeat' (first | with_reducible assumption | with_reducible (first | apply State.at_sound | apply State.closeBatch_sound | apply SoundO.next | exact SoundO.fault | apply SoundO.ite | apply Sound.ite | apply Sound.foldl | apply Sound.forAll | apply Sound.foldlPair | intro _ _ _) | split | dsimp only [refuse, okS, okB, okParts])

theorem execParameterWrite_sound {x0 x1 s} (h : Sound s) : SoundO (execParameterWrite x0 x1 s) := hostCmd_sound h (fun _ _ a => serveParameterWrite_sound a)

theorem execBatchCheck_sound {x0 x1 s} (h : Sound s) : SoundO (execBatchCheck x0 x1 s) := hostCmd_sound h (fun _ _ a => serveParameterWrite_sound a)

theorem serveParameterDescribe_sound {x0 s} (h : Sound s) : Sound (serveParameterDescribe x0 s).st := by
  unfold serveParameterDescribe okB refuse
  repeat' (first | with_reducible assumption | with_reducible (first | apply Sound.ite | apply Sound.foldl | apply Sound.forAll | apply Sound.foldlPair | intro _ _ _) | split | dsimp only [refuse, okS, okB, okParts])

theorem serveParameterList_sound {x0 s} (h : Sound s) : Sound (serveParameterList x0 s).st := by
  unfold serveParameterList okB refuse
  repeat' (first | with_reducible assumption | with_reducible (first | apply Sound.ite | apply Sound.foldl | apply Sound.forAll | apply Sound.foldlPair | intro _ _ _) | split | dsimp only [refuse, okS, okB, okParts])

theorem serveParameterRead_sound {x0 s} (h : Sound s) : Sound (serveParameterRead x0 s).st := by
  unfold serveParameterRead okB refuse
  repeat' (first | with_reducible assumption | with_reducible (first | apply Sound.ite | apply Sound.foldl | apply Sound.forAll | apply Sound.foldlPair | intro _ _ _) | split | dsimp only [refuse, okS, okB, okParts])

theorem execParameterDescribe_sound {x0 x1 s} (h : Sound s) : SoundO (execParameterDescribe x0 x1 s) := hostCmd_sound h (fun _ _ a => serveParameterDescribe_sound a)

theorem execBatchCommit_sound {x0 x1 s} (h : Sound s) : SoundO (execBatchCommit x0 x1 s) := hostCmd_sound h (fun _ _ a => serveParameterWrite_sound a)

theorem execParameterList_sound {x0 x1 s} (h : Sound s) : SoundO (execParameterList x0 x1 s) := hostCmd_sound h (fun _ _ a => serveParameterList_sound a)

theorem execParameterRead_sound {x0 x1 s} (h : Sound s) : SoundO (execParameterRead x0 x1 s) := hostCmd_sound h (fun _ _ a => serveParameterRead_sound a)

end Sys2Proof.Machine
end

