-- ==== Sys2Proof/Laws/SoundPointRead.lean ====
section
/-!
SUPPORT. Each operation of Machine/PointRead.lean keeps the invariant `Sound`.
-/

namespace Sys2Proof.Machine

theorem servePointRegisters_sound {x0 s} (h : Sound s) : Sound (servePointRegisters x0 s).st := by
  unfold servePointRegisters onPoint okParts
  repeat' (first | with_reducible assumption | with_reducible (first | apply Sound.ite | apply Sound.foldl | apply Sound.forAll | apply Sound.foldlPair | intro _ _ _) | split | dsimp only [refuse, okS, okB, okParts])

theorem servePointQuantities_sound {x0 s} (h : Sound s) : Sound (servePointQuantities x0 s).st := by
  unfold servePointQuantities onPoint okParts
  repeat' (first | with_reducible assumption | with_reducible (first | apply Sound.ite | apply Sound.foldl | apply Sound.forAll | apply Sound.foldlPair | intro _ _ _) | split | dsimp only [refuse, okS, okB, okParts])

theorem servePointStatus_sound {x0 s} (h : Sound s) : Sound (servePointStatus x0 s).st := by
  unfold servePointStatus onPoint okB
  repeat' (first | with_reducible assumption | with_reducible (first | apply Sound.ite | apply Sound.foldl | apply Sound.forAll | apply Sound.foldlPair | intro _ _ _) | split | dsimp only [refuse, okS, okB, okParts])

theorem execPointRegisters_sound {x0 x1 s} (h : Sound s) : SoundO (execPointRegisters x0 x1 s) := hostCmd_sound h (fun _ _ a => servePointRegisters_sound a)

theorem execPointQuantities_sound {x0 x1 s} (h : Sound s) : SoundO (execPointQuantities x0 x1 s) := hostCmd_sound h (fun _ _ a => servePointQuantities_sound a)

theorem execPointStatus_sound {x0 x1 s} (h : Sound s) : SoundO (execPointStatus x0 x1 s) := hostCmd_sound h (fun _ _ a => servePointStatus_sound a)

end Sys2Proof.Machine
end

