-- ==== Sys2Proof/Laws/SoundSwitch.lean ====
section
/-!
SUPPORT. Each operation of Machine/Switch.lean keeps the invariant `Sound`.
-/

namespace Sys2Proof.Machine

theorem serveSwitchCommand_sound {x0 s} (h : Sound s) : Sound (serveSwitchCommand x0 s).st := by
  unfold serveSwitchCommand okS refuse
  repeat' (first | with_reducible assumption | with_reducible (first | apply State.command_sound | apply Sound.ite | apply Sound.foldl | apply Sound.forAll | apply Sound.foldlPair | intro _ _ _) | split | dsimp only [refuse, okS, okB, okParts])

theorem execSwitchCommand_sound {x0 x1 s} (h : Sound s) : SoundO (execSwitchCommand x0 x1 s) := hostCmd_sound h (fun _ _ a => serveSwitchCommand_sound a)

theorem execWatchdogArm_sound {x0 x1 x2 s} (h : Sound s) : SoundO (execWatchdogArm x0 x1 x2 s) := by
  unfold execWatchdogArm
  repeat' (first | with_reducible assumption | with_reducible (first | apply State.armWatchdog_sound | apply State.at_sound | apply SoundO.next | exact SoundO.fault | apply SoundO.ite | apply Sound.ite | apply Sound.foldl | apply Sound.forAll | apply Sound.foldlPair | intro _ _ _) | split | dsimp only [refuse, okS, okB, okParts])

theorem execSwitchDiePowerUp_sound {x0 x1 s} (h : Sound s) : SoundO (execSwitchDiePowerUp x0 x1 s) := by
  unfold execSwitchDiePowerUp
  repeat' (first | with_reducible assumption | with_reducible (first | apply State.at_sound | apply State.enterPhase_sound | refine State.modSw_sound ?_ (by (first | exact fun a => a | exact fun a => by simpa [upd] using a | (intro a; (try dsimp only); repeat' split) <;> first | exact a | simpa [upd] using a | simp_all)) | apply State.replayCommands_sound | apply SoundO.next | exact SoundO.fault | apply SoundO.ite | apply Sound.ite | apply Sound.foldl | apply Sound.forAll | apply Sound.foldlPair | intro _ _ _) | split | dsimp only [refuse, okS, okB, okParts])

theorem execRetryCounterReload_sound {x0 x1 s} (h : Sound s) : SoundO (execRetryCounterReload x0 x1 s) := by
  unfold execRetryCounterReload
  repeat' (first | with_reducible assumption | with_reducible (first | apply State.at_sound | apply State.modSwch_sound | apply SoundO.next | exact SoundO.fault | apply SoundO.ite | apply Sound.ite | apply Sound.foldl | apply Sound.forAll | apply Sound.foldlPair | intro _ _ _) | split | dsimp only [refuse, okS, okB, okParts])

theorem State.switchFault_sound {s x1} (h : Sound s) : Sound (State.switchFault s x1) := by
  unfold State.switchFault
  repeat' (first | with_reducible assumption | with_reducible (first | apply State.addCause_sound | apply Sound.ite | apply Sound.foldl | apply Sound.forAll | apply Sound.foldlPair | intro _ _ _) | split | dsimp only [refuse, okS, okB, okParts])

theorem State.supplyOff_sound {s x1} (h : Sound s) : Sound (State.supplyOff s x1) := by
  unfold State.supplyOff
  repeat' (first | with_reducible assumption | with_reducible (first | refine State.modSw_sound ?_ (by (first | exact fun a => a | exact fun a => by simpa [upd] using a | (intro a; (try dsimp only); repeat' split) <;> first | exact a | simpa [upd] using a | simp_all)) | apply State.switchFault_sound | apply Sound.ite | apply Sound.foldl | apply Sound.forAll | apply Sound.foldlPair | intro _ _ _) | split | dsimp only [refuse, okS, okB, okParts])

theorem execVswBelowRide_sound {x0 x1 s} (h : Sound s) : SoundO (execVswBelowRide x0 x1 s) := by
  unfold execVswBelowRide
  repeat' (first | with_reducible assumption | with_reducible (first | apply State.at_sound | apply State.enterPhase_sound | refine State.modSw_sound ?_ (by (first | exact fun a => a | exact fun a => by simpa [upd] using a | (intro a; (try dsimp only); repeat' split) <;> first | exact a | simpa [upd] using a | simp_all)) | apply State.supplyEvent_sound | apply State.supplyOff_sound | apply SoundO.next | exact SoundO.fault | apply SoundO.ite | apply Sound.ite | apply Sound.foldl | apply Sound.forAll | apply Sound.foldlPair | intro _ _ _) | split | dsimp only [refuse, okS, okB, okParts])

theorem serveSwitchReset_sound {x0 s} (h : Sound s) : Sound (serveSwitchReset x0 s).st := by
  unfold serveSwitchReset okS refuse
  repeat' (first | with_reducible assumption | with_reducible (first | apply State.orderDie_sound | apply Sound.ite | apply Sound.foldl | apply Sound.forAll | apply Sound.foldlPair | intro _ _ _) | split | dsimp only [refuse, okS, okB, okParts])

theorem serveSwitchStatus_sound {x0 s} (h : Sound s) : Sound (serveSwitchStatus x0 s).st := by
  unfold serveSwitchStatus okParts refuse
  repeat' (first | with_reducible assumption | with_reducible (first | apply Sound.ite | apply Sound.foldl | apply Sound.forAll | apply Sound.foldlPair | intro _ _ _) | split | dsimp only [refuse, okS, okB, okParts])

theorem execSupplyPhaseTimeout_sound {x0 s} (h : Sound s) : SoundO (execSupplyPhaseTimeout x0 s) := by
  unfold execSupplyPhaseTimeout
  repeat' (first | with_reducible assumption | with_reducible (first | apply State.at_sound | apply State.enterPhase_sound | apply SoundO.next | exact SoundO.fault | apply SoundO.ite | apply Sound.ite | apply Sound.foldl | apply Sound.forAll | apply Sound.foldlPair | intro _ _ _) | split | dsimp only [refuse, okS, okB, okParts])

theorem State.retry_sound {s x1} (h : Sound s) : Sound (State.retry s x1) := by
  unfold State.retry
  repeat' (first | with_reducible assumption | with_reducible (first | apply State.modSwch_sound | apply State.swEvent_sound | apply Sound.ite | apply Sound.foldl | apply Sound.forAll | apply Sound.foldlPair | intro _ _ _) | split | dsimp only [refuse, okS, okB, okParts])

theorem State.dieAnswer_sound {s x1 x2} (h : Sound s) : Sound (State.dieAnswer s x1 x2) := by
  unfold State.dieAnswer
  repeat' (first | with_reducible assumption | with_reducible (first | apply State.applyFailsafe_sound | refine State.modSw_sound ?_ (by (first | exact fun a => a | exact fun a => by simpa [upd] using a | (intro a; (try dsimp only); repeat' split) <;> first | exact a | simpa [upd] using a | simp_all)) | apply State.releaseFailsafe_sound | apply Sound.ite | apply Sound.foldl | apply Sound.forAll | apply Sound.foldlPair | intro _ _ _) | split | dsimp only [refuse, okS, okB, okParts])

theorem execWatchdogWindowExpiry_sound {x0 s} (h : Sound s) : SoundO (execWatchdogWindowExpiry x0 s) := by
  unfold execWatchdogWindowExpiry
  repeat' (first | with_reducible assumption | with_reducible (first | apply State.applyFailsafe_sound | apply State.at_sound | apply SoundO.next | exact SoundO.fault | apply SoundO.ite | apply Sound.ite | apply Sound.foldl | apply Sound.forAll | apply Sound.foldlPair | intro _ _ _) | split | dsimp only [refuse, okS, okB, okParts])

theorem execRetryDelayExpiry_sound {x0 x1 s} (h : Sound s) : SoundO (execRetryDelayExpiry x0 x1 s) := by
  unfold execRetryDelayExpiry
  repeat' (first | with_reducible assumption | with_reducible (first | apply State.at_sound | apply State.retry_sound | apply SoundO.next | exact SoundO.fault | apply SoundO.ite | apply Sound.ite | apply Sound.foldl | apply Sound.forAll | apply Sound.foldlPair | intro _ _ _) | split | dsimp only [refuse, okS, okB, okParts])

theorem execVswRestore_sound {x0 x1 s} (h : Sound s) : SoundO (execVswRestore x0 x1 s) := by
  unfold execVswRestore
  repeat' (first | with_reducible assumption | with_reducible (first | apply State.at_sound | apply State.enterPhase_sound | refine State.modSw_sound ?_ (by (first | exact fun a => a | exact fun a => by simpa [upd] using a | (intro a; (try dsimp only); repeat' split) <;> first | exact a | simpa [upd] using a | simp_all)) | apply State.supplyEvent_sound | apply SoundO.next | exact SoundO.fault | apply SoundO.ite | apply Sound.ite | apply Sound.foldl | apply Sound.forAll | apply Sound.foldlPair | intro _ _ _) | split | dsimp only [refuse, okS, okB, okParts])

theorem execDieLinkLost_sound {x0 s} (h : Sound s) : SoundO (execDieLinkLost x0 s) := by
  unfold execDieLinkLost
  repeat' (first | with_reducible assumption | with_reducible (first | apply State.at_sound | refine State.modSw_sound ?_ (by (first | exact fun a => a | exact fun a => by simpa [upd] using a | (intro a; (try dsimp only); repeat' split) <;> first | exact a | simpa [upd] using a | simp_all)) | apply SoundO.next | exact SoundO.fault | apply SoundO.ite | apply Sound.ite | apply Sound.foldl | apply Sound.forAll | apply Sound.foldlPair | intro _ _ _) | split | dsimp only [refuse, okS, okB, okParts])

theorem execWatchdogFeed_sound {x0 s} (h : Sound s) : SoundO (execWatchdogFeed x0 s) := by
  have y := State.at_sound (x1 := x0) h
  unfold execWatchdogFeed
  generalize s.at x0 = z at y
  dsimp only
  split
  · exact SoundO.next y
  · split
    · next c => exact SoundO.next (State.setTest_sound y (fun e => absurd (by rw [(y.test e).1]; rfl) c))
    · split
      · next c =>
        refine SoundO.next (State.dieAnswer_sound (State.setTest_sound y (fun e => ?_)))
        rw [(y.test e).1] at c
        cases c
      · exact SoundO.next (State.dieAnswer_sound y)

theorem execVswUndervoltage_sound {x0 x1 s} (h : Sound s) : SoundO (execVswUndervoltage x0 x1 s) := by
  unfold execVswUndervoltage
  repeat' (first | with_reducible assumption | with_reducible (first | apply State.at_sound | apply State.enterPhase_sound | refine State.modSw_sound ?_ (by (first | exact fun a => a | exact fun a => by simpa [upd] using a | (intro a; (try dsimp only); repeat' split) <;> first | exact a | simpa [upd] using a | simp_all)) | apply State.supplyEvent_sound | apply State.supplyOff_sound | apply SoundO.next | exact SoundO.fault | apply SoundO.ite | apply Sound.ite | apply Sound.foldl | apply Sound.forAll | apply Sound.foldlPair | intro _ _ _) | split | dsimp only [refuse, okS, okB, okParts])

theorem execSwitchReset_sound {x0 x1 s} (h : Sound s) : SoundO (execSwitchReset x0 x1 s) := hostCmd_sound h (fun _ _ a => serveSwitchReset_sound a)

theorem execSwitchStatus_sound {x0 x1 s} (h : Sound s) : SoundO (execSwitchStatus x0 x1 s) := hostCmd_sound h (fun _ _ a => serveSwitchStatus_sound a)

theorem execThermalRelease_sound {x0 x1 x2 s} (h : Sound s) : SoundO (execThermalRelease x0 x1 x2 s) := by
  unfold execThermalRelease
  repeat' (first | with_reducible assumption | with_reducible (first | apply State.at_sound | apply State.modSwch_sound | apply State.retry_sound | apply State.swEvent_sound | apply SoundO.next | exact SoundO.fault | apply SoundO.ite | apply Sound.ite | apply Sound.foldl | apply Sound.forAll | apply Sound.foldlPair | intro _ _ _) | split | dsimp only [refuse, okS, okB, okParts])

theorem execOpenLoadDeclared_sound {x0 x1 x2 s} (h : Sound s) : SoundO (execOpenLoadDeclared x0 x1 x2 s) := by
  unfold execOpenLoadDeclared
  repeat' (first | with_reducible assumption | with_reducible (first | apply State.at_sound | apply State.modSwch_sound | apply State.swEvent_sound | apply SoundO.next | exact SoundO.fault | apply SoundO.ite | apply Sound.ite | apply Sound.foldl | apply Sound.forAll | apply Sound.foldlPair | intro _ _ _) | split | dsimp only [refuse, okS, okB, okParts])

theorem execOpenLoadCleared_sound {x0 x1 x2 s} (h : Sound s) : SoundO (execOpenLoadCleared x0 x1 x2 s) := by
  unfold execOpenLoadCleared
  repeat' (first | with_reducible assumption | with_reducible (first | apply State.at_sound | apply State.modSwch_sound | apply State.swEvent_sound | apply SoundO.next | exact SoundO.fault | apply SoundO.ite | apply Sound.ite | apply Sound.foldl | apply Sound.forAll | apply Sound.foldlPair | intro _ _ _) | split | dsimp only [refuse, okS, okB, okParts])

theorem execOverloadTimeout_sound {x0 x1 s} (h : Sound s) : SoundO (execOverloadTimeout x0 x1 s) := by
  unfold execOverloadTimeout
  repeat' (first | with_reducible assumption | with_reducible (first | apply State.at_sound | apply State.modSwch_sound | apply State.swEvent_sound | apply State.switchFault_sound | apply SoundO.next | exact SoundO.fault | apply SoundO.ite | apply Sound.ite | apply Sound.foldl | apply Sound.forAll | apply Sound.foldlPair | intro _ _ _) | split | dsimp only [refuse, okS, okB, okParts])

theorem execSwitchCurrentLimit_sound {x0 x1 x2 x3 s} (h : Sound s) : SoundO (execSwitchCurrentLimit x0 x1 x2 x3 s) := by
  unfold execSwitchCurrentLimit
  repeat' (first | with_reducible assumption | with_reducible (first | apply State.at_sound | apply State.modSwch_sound | apply SoundO.next | exact SoundO.fault | apply SoundO.ite | apply Sound.ite | apply Sound.foldl | apply Sound.forAll | apply Sound.foldlPair | intro _ _ _) | split | dsimp only [refuse, okS, okB, okParts])

theorem execThermalLatch_sound {x0 x1 x2 s} (h : Sound s) : SoundO (execThermalLatch x0 x1 x2 s) := by
  unfold execThermalLatch
  repeat' (first | with_reducible assumption | with_reducible (first | apply State.at_sound | apply State.modSwch_sound | apply State.swEvent_sound | apply State.switchFault_sound | apply SoundO.next | exact SoundO.fault | apply SoundO.ite | apply Sound.ite | apply Sound.foldl | apply Sound.forAll | apply Sound.foldlPair | intro _ _ _) | split | dsimp only [refuse, okS, okB, okParts])

theorem execSwitchDieReset_sound {x0 x1 s} (h : Sound s) : SoundO (execSwitchDieReset x0 x1 s) := by
  unfold execSwitchDieReset
  have y := State.at_sound (x1 := x0) h
  generalize s.at x0 = z at y
  dsimp only
  split
  · exact SoundO.next y
  · refine SoundO.next (Sound.forAll (State.modSw_sound y (fun a => sized_map a)) (fun _ _ a => Sound.foldl a (fun _ _ b => State.switchFault_sound b)))

end Sys2Proof.Machine
end

