-- ==== Sys2Proof/Laws/SoundHostDispatch.lean ====
section
/-!
SUPPORT. Each operation of Machine/HostDispatch.lean keeps the invariant `Sound`.
-/

namespace Sys2Proof.Machine

theorem serveTimeFamily_sound {x0 x1 x2 s} (h : Sound s) : Sound (serveTimeFamily x0 x1 x2 s).st := by
  unfold serveTimeFamily refuse
  repeat' (first | with_reducible assumption | with_reducible (first | apply serveBalanceResults_sound | apply serveRingMap_sound | apply serveTciRead_sound | apply serveTciSet_sound | apply serveTimeAccept_sound | apply serveTimeStatus_sound | apply serveTtoSet_sound | apply Sound.ite | apply Sound.foldl | apply Sound.forAll | apply Sound.foldlPair | intro _ _ _) | split | dsimp only [refuse, okS, okB, okParts])

theorem serveNodeFamily_sound {x0 x1 x2 s} (h : Sound s) : Sound (serveNodeFamily x0 x1 x2 s).st := by
  unfold serveNodeFamily refuse
  repeat' (first | with_reducible assumption | with_reducible (first | apply serveEventDetail_sound | apply serveFactoryReset_sound | apply serveIdentity_sound | apply serveNodeStatus_sound | apply Sound.ite | apply Sound.foldl | apply Sound.forAll | apply Sound.foldlPair | intro _ _ _) | split | dsimp only [refuse, okS, okB, okParts])

theorem serveKeysFamily_sound {x0 x1 x2 s} (h : Sound s) : Sound (serveKeysFamily x0 x1 x2 s).st := by
  unfold serveKeysFamily refuse
  repeat' (first | with_reducible assumption | with_reducible (first | apply serveKeyAttest_sound | apply serveKeyErase_sound | apply serveKeyInvalidate_sound | apply serveKeyNextGeneration_sound | apply serveKeyNodeCertificate_sound | apply serveKeyPublicRead_sound | apply serveKeyRegenerate_sound | apply serveKeyStatementRead_sound | apply serveKeyStatus_sound | apply serveKeyTlsCertificateLoad_sound | apply Sound.ite | apply Sound.foldl | apply Sound.forAll | apply Sound.foldlPair | intro _ _ _) | split | dsimp only [refuse, okS, okB, okParts])

theorem State.portReads_sound {s x1 x2 x3 x4 x5} (h : Sound s) : Sound (State.portReads s x1 x2 x3 x4 x5).2 := by
  induction x3 generalizing s x4 x5 with
  | zero => exact h
  | succ k ih =>
    unfold State.portReads
    exact ih (State.portRead_sound h)

theorem servePointFamily_sound {x0 x1 x2 s} (h : Sound s) : Sound (servePointFamily x0 x1 x2 s).st := by
  unfold servePointFamily refuse
  repeat' (first | with_reducible assumption | with_reducible (first | apply serveCapture_sound | apply serveChannelStatus_sound | apply serveCourseRestore_sound | apply serveFaultAcknowledge_sound | apply serveOutletDcStatus_sound | apply serveOutletLimit_sound | apply servePointHarmonics_sound | apply servePointQuantities_sound | apply servePointRegisters_sound | apply servePointStatus_sound | apply servePointSupraharmonics_sound | apply serveRootStore_sound | apply serveSafetyAcknowledge_sound | apply serveSafetyStatus_sound | apply serveSessionAuthorise_sound | apply serveSessionCancel_sound | apply serveSessionModify_sound | apply serveSessionReject_sound | apply serveSessionRequest_sound | apply serveSessionRevoke_sound | apply serveSessionStatus_sound | apply serveSessionStop_sound | apply serveSwitchCommand_sound | apply serveSwitchReset_sound | apply serveSwitchStatus_sound | apply Sound.ite | apply Sound.foldl | apply Sound.forAll | apply Sound.foldlPair | intro _ _ _) | split | dsimp only [refuse, okS, okB, okParts])

theorem serveRecordsFamily_sound {x0 x1 s} (h : Sound s) : Sound (serveRecordsFamily x0 x1 s).st := by
  unfold serveRecordsFamily refuse
  repeat' (first | with_reducible assumption | with_reducible (first | apply serveJournalRead_sound | apply serveJournalStatus_sound | apply serveLogAcknowledge_sound | apply serveLogRead_sound | apply serveRecordAcknowledge_sound | apply Sound.ite | apply Sound.foldl | apply Sound.forAll | apply Sound.foldlPair | intro _ _ _) | split | dsimp only [refuse, okS, okB, okParts])

theorem serveDisplayFamily_sound {x0 x1 x2 s} (h : Sound s) : Sound (serveDisplayFamily x0 x1 x2 s).st := by
  unfold serveDisplayFamily refuse
  repeat' (first | with_reducible assumption | with_reducible (first | apply serveDisplayPin_sound | apply serveDisplayStatic_sound | apply serveDisplayTemperature_sound | apply serveDisplayUpdate_sound | apply serveDisplayWaveform_sound | apply Sound.ite | apply Sound.foldl | apply Sound.forAll | apply Sound.foldlPair | intro _ _ _) | split | dsimp only [refuse, okS, okB, okParts])

theorem serveFirmwareFamily_sound {x0 x1 x2 s} (h : Sound s) : Sound (serveFirmwareFamily x0 x1 x2 s).st := by
  unfold serveFirmwareFamily refuse
  repeat' (first | with_reducible assumption | with_reducible (first | apply serveFwBegin_sound | apply serveFwConfirm_sound | apply serveFwData_sound | apply serveFwHandover_sound | apply serveFwStatus_sound | apply serveFwVerify_sound | apply Sound.ite | apply Sound.foldl | apply Sound.forAll | apply Sound.foldlPair | intro _ _ _) | split | dsimp only [refuse, okS, okB, okParts])

theorem serveParamFamily_sound {x0 x1 x2 s} (h : Sound s) : Sound (serveParamFamily x0 x1 x2 s).st := by
  unfold serveParamFamily refuse
  repeat' (first | with_reducible assumption | with_reducible (first | apply serveParameterDescribe_sound | apply serveParameterList_sound | apply serveParameterRead_sound | apply serveParameterWrite_sound | apply Sound.ite | apply Sound.foldl | apply Sound.forAll | apply Sound.foldlPair | intro _ _ _) | split | dsimp only [refuse, okS, okB, okParts])

theorem serveSarFamily_sound {x0 x1 s} (h : Sound s) : Sound (serveSarFamily x0 x1 s).st := by
  unfold serveSarFamily refuse
  repeat' (first | with_reducible assumption | with_reducible (first | apply serveSarResults_sound | apply serveSarSelftest_sound | apply serveSarTrigger_sound | apply Sound.ite | apply Sound.foldl | apply Sound.forAll | apply Sound.foldlPair | intro _ _ _) | split | dsimp only [refuse, okS, okB, okParts])

theorem serveTestFamily_sound {x0 x1 x2 s} (h : Sound s) : Sound (serveTestFamily x0 x1 x2 s).st := by
  unfold serveTestFamily refuse
  repeat' (first | with_reducible assumption | with_reducible (first | apply serveTestRelock_sound | apply serveTestUnlock_sound | apply Sound.ite | apply Sound.foldl | apply Sound.forAll | apply Sound.foldlPair | intro _ _ _) | split | dsimp only [refuse, okS, okB, okParts])

theorem serveOf_sound {x0 x1 x2 s} (h : Sound s) : Sound (serveOf x0 x1 x2 s).st := by
  unfold serveOf refuse
  repeat' (first | with_reducible assumption | with_reducible (first | apply serveDisplayFamily_sound | apply serveFirmwareFamily_sound | apply serveKeysFamily_sound | apply serveNodeFamily_sound | apply serveParamFamily_sound | apply servePointFamily_sound | apply serveRecordsFamily_sound | apply serveSarFamily_sound | apply serveTestFamily_sound | apply serveTimeFamily_sound | apply Sound.ite | apply Sound.foldl | apply Sound.forAll | apply Sound.foldlPair | intro _ _ _) | split | dsimp only [refuse, okS, okB, okParts])

theorem State.ringBell_sound {s x1 x2} (h : Sound s) : Sound (State.ringBell s x1 x2) := by
  have w : Sound (s.modMbox x1 (fun b => { b with via := some x2 })) := State.modMbox_sound h (fun a => a)
  unfold State.ringBell
  dsimp only
  split
  · next free =>
    split
    · exact State.take_sound w (fun _ _ => serveOf_sound)
    · refine State.holdReq_sound w ?_
      exact State.mbox_mod (fun b => b.rsp = false) (by simp [State.mboxFree] at free; exact free.1.1.2.2) (fun a => a)
  · exact State.undefinedRequest_sound h (fun _ a => State.take_sound a (fun _ _ => serveOf_sound))

theorem State.writeMbx_sound {s x1 x2 x3} (h : Sound s) : Sound (State.writeMbx s x1 x2 x3) := by
  unfold State.writeMbx
  repeat' (first | with_reducible assumption | with_reducible (first | apply State.confined_sound | apply State.releaseMbox_sound | apply State.ringBell_sound | apply Sound.ite | apply Sound.foldl | apply Sound.forAll | apply Sound.foldlPair | intro _ _ _) | split | dsimp only [refuse, okS, okB, okParts])

theorem State.writeReqWord_sound {s x1 x2 x3 x4} (h : Sound s) : Sound (State.writeReqWord s x1 x2 x3 x4) := by
  unfold State.writeReqWord
  repeat' (first | with_reducible assumption | with_reducible (first | apply State.confined_sound | refine State.modMbox_sound ?_ (by first | exact fun a => a | exact fun a _ => rfl | exact fun _ e => by cases e) | apply Sound.ite | apply Sound.foldl | apply Sound.forAll | apply Sound.foldlPair | intro _ _ _) | split | dsimp only [refuse, okS, okB, okParts])

theorem State.writeWord_sound {s x1 x2 x3} (h : Sound s) : Sound (State.writeWord s x1 x2 x3) := by
  unfold State.writeWord
  repeat' (first | with_reducible assumption | with_reducible (first | apply State.regWrite_sound | apply State.writeMbx_sound | apply State.writeReqWord_sound | apply Sound.ite | apply Sound.foldl | apply Sound.forAll | apply Sound.foldlPair | intro _ _ _) | split | dsimp only [refuse, okS, okB, okParts])

theorem State.hethReply_sound {s x1 x2 x3} (h : Sound s) : Sound (State.hethReply s x1 x2 x3) := by
  unfold State.hethReply
  repeat' (first | with_reducible assumption | with_reducible (first | refine State.modHost_sound ?_ (by (first | exact fun a => a | exact fun a => ⟨a.1, a.2, a.3, a.4, a.5, a.6⟩ | (intro a; dsimp only; repeat' split) <;> exact a)) | apply Sound.ite | apply Sound.foldl | apply Sound.forAll | apply Sound.foldlPair | intro _ _ _) | split | dsimp only [refuse, okS, okB, okParts])

theorem takeAll_sound {x0 s} (h : Sound s) : Sound (takeAll x0 s) := by
  induction x0 generalizing s with
  | nil => exact h
  | cons q rs ih =>
    unfold takeAll
    split
    · exact ih (State.take_sound h (fun _ _ => serveOf_sound))
    · exact State.modHost_sound h (fun a => a)

theorem State.regReads_sound {s x1 x2 x3} (h : Sound s) : Sound (State.regReads s x1 x2 x3).2 := by
  induction x2 generalizing s x1 x3 with
  | zero => exact h
  | succ k ih =>
    unfold State.regReads
    exact ih (State.regRead_sound h)

theorem State.regWrites_sound {s x1 x2 x3} (h : Sound s) : Sound (State.regWrites s x1 x2 x3) := by
  induction x3 generalizing s x1 x2 with
  | zero => exact h
  | succ k ih =>
    unfold State.regWrites
    exact ih (State.writeWord_sound h)

theorem State.hethRun_sound {s x1} (h : Sound s) : Sound (State.hethRun s x1).2 := by
  unfold State.hethRun
  dsimp only
  repeat' split
  · exact State.portReads_sound h
  · exact State.confined_sound h
  · exact State.peerNow_sound (State.regReads_sound h)
  · exact State.regReads_sound h
  · exact State.regWrites_sound h

theorem State.restartFallback_sound {s x1} (h : Sound s) : Sound (State.restartFallback s x1) := by
  unfold State.restartFallback
  repeat' (first | with_reducible assumption | with_reducible (first | apply State.fwEvent_sound | apply State.modFw_sound | apply State.modPar_sound | apply Sound.ite | apply Sound.foldl | apply Sound.forAll | apply Sound.foldlPair | intro _ _ _) | split | dsimp only [refuse, okS, okB, okParts])

theorem State.bootInto_sound {s x1 x2} (h : Sound s) : Sound (State.bootInto s x1 x2) := by
  unfold State.bootInto
  repeat' (first | with_reducible assumption | with_reducible (first | apply State.fwEvent_sound | apply State.modFw_sound | apply State.modPar_sound | apply State.restartFallback_sound | apply Sound.ite | apply Sound.foldl | apply Sound.forAll | apply Sound.foldlPair | intro _ _ _) | split | dsimp only [refuse, okS, okB, okParts])

theorem State.runHeld_sound {s} (h : Sound s) : Sound (State.runHeld s) := by
  unfold State.runHeld
  repeat' (first | with_reducible assumption | with_reducible (first | refine State.modHost_sound ?_ (by (first | exact fun a => a | exact fun a => ⟨a.1, a.2, a.3, a.4, a.5, a.6⟩ | (intro a; dsimp only; repeat' split) <;> exact a)) | apply takeAll_sound | apply Sound.ite | apply Sound.foldl | apply Sound.forAll | apply Sound.foldlPair | intro _ _ _) | split | dsimp only [refuse, okS, okB, okParts])

theorem execRequestPart_sound {x0 x1 x2 s} (h : Sound s) : SoundO (execRequestPart x0 x1 x2 s) := hostCmd_sound h (fun _ _ a => serveOf_sound a)

theorem State.takeQueued_sound {s} (h : Sound s) : Sound (State.takeQueued s) := by
  unfold State.takeQueued
  repeat' (first | with_reducible assumption | with_reducible (first | refine State.modPlc_sound ?_ (by (first | exact fun a => a | exact fun a => by simpa [upd] using a | (intro a; (try dsimp only); repeat' split) <;> first | exact a | simpa [upd] using a | simp_all)) | apply Sound.ite | apply Sound.foldl | apply Sound.forAll | apply Sound.foldlPair | intro _ _ _) | split | dsimp only [refuse, okS, okB, okParts])

theorem State.handoverStep_sound {s} (h : Sound s) : Sound (State.handoverStep s) := by
  unfold State.handoverStep
  repeat' (first | with_reducible assumption | with_reducible (first | apply State.fallBack_sound | refine State.modHost_sound ?_ (by (first | exact fun a => a | exact fun a => ⟨a.1, a.2, a.3, a.4, a.5, a.6⟩ | (intro a; dsimp only; repeat' split) <;> exact a)) | apply State.runHeld_sound | apply State.takeOver_sound | apply State.takeQueued_sound | apply Sound.ite | apply Sound.foldl | apply Sound.forAll | apply Sound.foldlPair | intro _ _ _) | split | dsimp only [refuse, okS, okB, okParts])

theorem execFrameTick_sound {x0 x1 s} (h : Sound s) : SoundO (execFrameTick x0 x1 s) := by
  unfold execFrameTick
  repeat' (first | with_reducible assumption | with_reducible (first | apply State.at_sound | apply State.frameTick_sound | apply State.handoverStep_sound | apply SoundO.next | exact SoundO.fault | apply SoundO.ite | apply Sound.ite | apply Sound.foldl | apply Sound.forAll | apply Sound.foldlPair | intro _ _ _) | split | dsimp only [refuse, okS, okB, okParts])

theorem State.setReady_sound {s} (h : Sound s) : Sound (State.setReady s) := by
  unfold State.setReady
  repeat' (first | with_reducible assumption | with_reducible (first | refine State.modHost_sound ?_ (by (first | exact fun a => a | exact fun a => ⟨a.1, a.2, a.3, a.4, a.5, a.6⟩ | (intro a; dsimp only; repeat' split) <;> exact a)) | apply Sound.ite | apply Sound.foldl | apply Sound.forAll | apply Sound.foldlPair | intro _ _ _) | split | dsimp only [refuse, okS, okB, okParts])

theorem execResponsePartRead_sound {x0 x1 x2 s} (h : Sound s) : SoundO (execResponsePartRead x0 x1 x2 s) := hostCmd_sound h (fun _ _ a => serveOf_sound a)

theorem execServiceImageBooted_sound {x0 x1 x2 s} (h : Sound s) : SoundO (execServiceImageBooted x0 x1 x2 s) := by
  unfold execServiceImageBooted
  repeat' (first | with_reducible assumption | with_reducible (first | apply State.at_sound | apply State.bootInto_sound | apply State.modFw_sound | apply State.modPwr_sound | apply State.readSlot_sound | apply State.runHeld_sound | apply State.setReady_sound | apply State.takeQueued_sound | apply SoundO.next | exact SoundO.fault | apply SoundO.ite | apply Sound.ite | apply Sound.foldl | apply Sound.forAll | apply Sound.foldlPair | intro _ _ _) | split | dsimp only [refuse, okS, okB, okParts])

theorem execCapoRestart_sound {x0 x1 x2 x3 x4 x5 x6 s} (h : Sound s) : SoundO (execCapoRestart x0 x1 x2 x3 x4 x5 x6 s) := by
  unfold execCapoRestart
  repeat' (first | with_reducible assumption | with_reducible (first | apply State.at_sound | apply State.restartCapo_sound | apply State.runHeld_sound | apply SoundO.next | exact SoundO.fault | apply SoundO.ite | apply Sound.ite | apply Sound.foldl | apply Sound.forAll | apply Sound.foldlPair | intro _ _ _) | split | dsimp only [refuse, okS, okB, okParts])

theorem execHethDatagram_sound {x0 x1 s} (h : Sound s) : SoundO (execHethDatagram x0 x1 s) := by
  unfold execHethDatagram
  repeat' (first | with_reducible assumption | with_reducible (first | apply State.at_sound | apply State.bump_sound | apply State.hethReply_sound | apply State.hethRun_sound | refine State.modHost_sound ?_ (by (first | exact fun a => a | exact fun a => ⟨a.1, a.2, a.3, a.4, a.5, a.6⟩ | (intro a; dsimp only; repeat' split) <;> exact a)) | apply SoundO.next | exact SoundO.fault | apply SoundO.ite | apply Sound.ite | apply Sound.foldl | apply Sound.forAll | apply Sound.foldlPair | intro _ _ _) | split | dsimp only [refuse, okS, okB, okParts])

theorem execRegisterWrite_sound {x0 x1 x2 s} (h : Sound s) : SoundO (execRegisterWrite x0 x1 x2 s) := by
  unfold execRegisterWrite
  repeat' (first | with_reducible assumption | with_reducible (first | apply State.confined_sound | refine State.modHost_sound ?_ (by (first | exact fun a => a | exact fun a => ⟨a.1, a.2, a.3, a.4, a.5, a.6⟩ | (intro a; dsimp only; repeat' split) <;> exact a)) | apply State.writeWord_sound | apply SoundO.next | exact SoundO.fault | apply SoundO.ite | apply Sound.ite | apply Sound.foldl | apply Sound.forAll | apply Sound.foldlPair | intro _ _ _) | split | dsimp only [refuse, okS, okB, okParts])

end Sys2Proof.Machine
end

