-- ==== Sys2Proof/Laws/State.lean ====
section
/-!
SUPPORT. One lemma per part of `State` and per update of a part, all true by definition: no later proof unfolds a
record update.
-/

namespace Sys2Proof.Machine

@[simp] theorem State.modClk_clk (s : State) (f : Clock → Clock) : (s.modClk f).clk = f s.clk := rfl
@[simp] theorem State.modClk_servo (s : State) (f : Clock → Clock) : (s.modClk f).servo = s.servo := rfl
@[simp] theorem State.modClk_par (s : State) (f : Clock → Clock) : (s.modClk f).par = s.par := rfl
@[simp] theorem State.modClk_host (s : State) (f : Clock → Clock) : (s.modClk f).host = s.host := rfl
@[simp] theorem State.modClk_test (s : State) (f : Clock → Clock) : (s.modClk f).test = s.test := rfl
@[simp] theorem State.modClk_slices (s : State) (f : Clock → Clock) : (s.modClk f).slices = s.slices := rfl
@[simp] theorem State.modClk_courses (s : State) (f : Clock → Clock) : (s.modClk f).courses = s.courses := rfl
@[simp] theorem State.modClk_eng (s : State) (f : Clock → Clock) : (s.modClk f).eng = s.eng := rfl
@[simp] theorem State.modClk_pts (s : State) (f : Clock → Clock) : (s.modClk f).pts = s.pts := rfl
@[simp] theorem State.modClk_recs (s : State) (f : Clock → Clock) : (s.modClk f).recs = s.recs := rfl
@[simp] theorem State.modClk_led (s : State) (f : Clock → Clock) : (s.modClk f).led = s.led := rfl
@[simp] theorem State.modClk_sw (s : State) (f : Clock → Clock) : (s.modClk f).sw = s.sw := rfl
@[simp] theorem State.modClk_saf (s : State) (f : Clock → Clock) : (s.modClk f).saf = s.saf := rfl
@[simp] theorem State.modClk_log (s : State) (f : Clock → Clock) : (s.modClk f).log = s.log := rfl
@[simp] theorem State.modClk_keys (s : State) (f : Clock → Clock) : (s.modClk f).keys = s.keys := rfl
@[simp] theorem State.modClk_disp (s : State) (f : Clock → Clock) : (s.modClk f).disp = s.disp := rfl
@[simp] theorem State.modClk_plc (s : State) (f : Clock → Clock) : (s.modClk f).plc = s.plc := rfl
@[simp] theorem State.modClk_ring (s : State) (f : Clock → Clock) : (s.modClk f).ring = s.ring := rfl
@[simp] theorem State.modClk_sar (s : State) (f : Clock → Clock) : (s.modClk f).sar = s.sar := rfl
@[simp] theorem State.modClk_fw (s : State) (f : Clock → Clock) : (s.modClk f).fw = s.fw := rfl
@[simp] theorem State.modClk_pwr (s : State) (f : Clock → Clock) : (s.modClk f).pwr = s.pwr := rfl
@[simp] theorem State.modClk_pending (s : State) (f : Clock → Clock) : (s.modClk f).pending = s.pending := rfl
@[simp] theorem State.modServo_clk (s : State) (f : Servo → Servo) : (s.modServo f).clk = s.clk := rfl
@[simp] theorem State.modServo_servo (s : State) (f : Servo → Servo) : (s.modServo f).servo = f s.servo := rfl
@[simp] theorem State.modServo_par (s : State) (f : Servo → Servo) : (s.modServo f).par = s.par := rfl
@[simp] theorem State.modServo_host (s : State) (f : Servo → Servo) : (s.modServo f).host = s.host := rfl
@[simp] theorem State.modServo_test (s : State) (f : Servo → Servo) : (s.modServo f).test = s.test := rfl
@[simp] theorem State.modServo_slices (s : State) (f : Servo → Servo) : (s.modServo f).slices = s.slices := rfl
@[simp] theorem State.modServo_courses (s : State) (f : Servo → Servo) : (s.modServo f).courses = s.courses := rfl
@[simp] theorem State.modServo_eng (s : State) (f : Servo → Servo) : (s.modServo f).eng = s.eng := rfl
@[simp] theorem State.modServo_pts (s : State) (f : Servo → Servo) : (s.modServo f).pts = s.pts := rfl
@[simp] theorem State.modServo_recs (s : State) (f : Servo → Servo) : (s.modServo f).recs = s.recs := rfl
@[simp] theorem State.modServo_led (s : State) (f : Servo → Servo) : (s.modServo f).led = s.led := rfl
@[simp] theorem State.modServo_sw (s : State) (f : Servo → Servo) : (s.modServo f).sw = s.sw := rfl
@[simp] theorem State.modServo_saf (s : State) (f : Servo → Servo) : (s.modServo f).saf = s.saf := rfl
@[simp] theorem State.modServo_log (s : State) (f : Servo → Servo) : (s.modServo f).log = s.log := rfl
@[simp] theorem State.modServo_keys (s : State) (f : Servo → Servo) : (s.modServo f).keys = s.keys := rfl
@[simp] theorem State.modServo_disp (s : State) (f : Servo → Servo) : (s.modServo f).disp = s.disp := rfl
@[simp] theorem State.modServo_plc (s : State) (f : Servo → Servo) : (s.modServo f).plc = s.plc := rfl
@[simp] theorem State.modServo_ring (s : State) (f : Servo → Servo) : (s.modServo f).ring = s.ring := rfl
@[simp] theorem State.modServo_sar (s : State) (f : Servo → Servo) : (s.modServo f).sar = s.sar := rfl
@[simp] theorem State.modServo_fw (s : State) (f : Servo → Servo) : (s.modServo f).fw = s.fw := rfl
@[simp] theorem State.modServo_pwr (s : State) (f : Servo → Servo) : (s.modServo f).pwr = s.pwr := rfl
@[simp] theorem State.modServo_pending (s : State) (f : Servo → Servo) : (s.modServo f).pending = s.pending := rfl
@[simp] theorem State.modPar_clk (s : State) (f : ParamStore → ParamStore) : (s.modPar f).clk = s.clk := rfl
@[simp] theorem State.modPar_servo (s : State) (f : ParamStore → ParamStore) : (s.modPar f).servo = s.servo := rfl
@[simp] theorem State.modPar_par (s : State) (f : ParamStore → ParamStore) : (s.modPar f).par = f s.par := rfl
@[simp] theorem State.modPar_host (s : State) (f : ParamStore → ParamStore) : (s.modPar f).host = s.host := rfl
@[simp] theorem State.modPar_test (s : State) (f : ParamStore → ParamStore) : (s.modPar f).test = s.test := rfl
@[simp] theorem State.modPar_slices (s : State) (f : ParamStore → ParamStore) : (s.modPar f).slices = s.slices := rfl
@[simp] theorem State.modPar_courses (s : State) (f : ParamStore → ParamStore) : (s.modPar f).courses = s.courses := rfl
@[simp] theorem State.modPar_eng (s : State) (f : ParamStore → ParamStore) : (s.modPar f).eng = s.eng := rfl
@[simp] theorem State.modPar_pts (s : State) (f : ParamStore → ParamStore) : (s.modPar f).pts = s.pts := rfl
@[simp] theorem State.modPar_recs (s : State) (f : ParamStore → ParamStore) : (s.modPar f).recs = s.recs := rfl
@[simp] theorem State.modPar_led (s : State) (f : ParamStore → ParamStore) : (s.modPar f).led = s.led := rfl
@[simp] theorem State.modPar_sw (s : State) (f : ParamStore → ParamStore) : (s.modPar f).sw = s.sw := rfl
@[simp] theorem State.modPar_saf (s : State) (f : ParamStore → ParamStore) : (s.modPar f).saf = s.saf := rfl
@[simp] theorem State.modPar_log (s : State) (f : ParamStore → ParamStore) : (s.modPar f).log = s.log := rfl
@[simp] theorem State.modPar_keys (s : State) (f : ParamStore → ParamStore) : (s.modPar f).keys = s.keys := rfl
@[simp] theorem State.modPar_disp (s : State) (f : ParamStore → ParamStore) : (s.modPar f).disp = s.disp := rfl
@[simp] theorem State.modPar_plc (s : State) (f : ParamStore → ParamStore) : (s.modPar f).plc = s.plc := rfl
@[simp] theorem State.modPar_ring (s : State) (f : ParamStore → ParamStore) : (s.modPar f).ring = s.ring := rfl
@[simp] theorem State.modPar_sar (s : State) (f : ParamStore → ParamStore) : (s.modPar f).sar = s.sar := rfl
@[simp] theorem State.modPar_fw (s : State) (f : ParamStore → ParamStore) : (s.modPar f).fw = s.fw := rfl
@[simp] theorem State.modPar_pwr (s : State) (f : ParamStore → ParamStore) : (s.modPar f).pwr = s.pwr := rfl
@[simp] theorem State.modPar_pending (s : State) (f : ParamStore → ParamStore) : (s.modPar f).pending = s.pending := rfl
@[simp] theorem State.modHost_clk (s : State) (f : HostPort → HostPort) : (s.modHost f).clk = s.clk := rfl
@[simp] theorem State.modHost_servo (s : State) (f : HostPort → HostPort) : (s.modHost f).servo = s.servo := rfl
@[simp] theorem State.modHost_par (s : State) (f : HostPort → HostPort) : (s.modHost f).par = s.par := rfl
@[simp] theorem State.modHost_host (s : State) (f : HostPort → HostPort) : (s.modHost f).host = f s.host := rfl
@[simp] theorem State.modHost_test (s : State) (f : HostPort → HostPort) : (s.modHost f).test = s.test := rfl
@[simp] theorem State.modHost_slices (s : State) (f : HostPort → HostPort) : (s.modHost f).slices = s.slices := rfl
@[simp] theorem State.modHost_courses (s : State) (f : HostPort → HostPort) : (s.modHost f).courses = s.courses := rfl
@[simp] theorem State.modHost_eng (s : State) (f : HostPort → HostPort) : (s.modHost f).eng = s.eng := rfl
@[simp] theorem State.modHost_pts (s : State) (f : HostPort → HostPort) : (s.modHost f).pts = s.pts := rfl
@[simp] theorem State.modHost_recs (s : State) (f : HostPort → HostPort) : (s.modHost f).recs = s.recs := rfl
@[simp] theorem State.modHost_led (s : State) (f : HostPort → HostPort) : (s.modHost f).led = s.led := rfl
@[simp] theorem State.modHost_sw (s : State) (f : HostPort → HostPort) : (s.modHost f).sw = s.sw := rfl
@[simp] theorem State.modHost_saf (s : State) (f : HostPort → HostPort) : (s.modHost f).saf = s.saf := rfl
@[simp] theorem State.modHost_log (s : State) (f : HostPort → HostPort) : (s.modHost f).log = s.log := rfl
@[simp] theorem State.modHost_keys (s : State) (f : HostPort → HostPort) : (s.modHost f).keys = s.keys := rfl
@[simp] theorem State.modHost_disp (s : State) (f : HostPort → HostPort) : (s.modHost f).disp = s.disp := rfl
@[simp] theorem State.modHost_plc (s : State) (f : HostPort → HostPort) : (s.modHost f).plc = s.plc := rfl
@[simp] theorem State.modHost_ring (s : State) (f : HostPort → HostPort) : (s.modHost f).ring = s.ring := rfl
@[simp] theorem State.modHost_sar (s : State) (f : HostPort → HostPort) : (s.modHost f).sar = s.sar := rfl
@[simp] theorem State.modHost_fw (s : State) (f : HostPort → HostPort) : (s.modHost f).fw = s.fw := rfl
@[simp] theorem State.modHost_pwr (s : State) (f : HostPort → HostPort) : (s.modHost f).pwr = s.pwr := rfl
@[simp] theorem State.modHost_pending (s : State) (f : HostPort → HostPort) : (s.modHost f).pending = s.pending := rfl
@[simp] theorem State.modTest_clk (s : State) (f : TestWin → TestWin) : (s.modTest f).clk = s.clk := rfl
@[simp] theorem State.modTest_servo (s : State) (f : TestWin → TestWin) : (s.modTest f).servo = s.servo := rfl
@[simp] theorem State.modTest_par (s : State) (f : TestWin → TestWin) : (s.modTest f).par = s.par := rfl
@[simp] theorem State.modTest_host (s : State) (f : TestWin → TestWin) : (s.modTest f).host = s.host := rfl
@[simp] theorem State.modTest_test (s : State) (f : TestWin → TestWin) : (s.modTest f).test = f s.test := rfl
@[simp] theorem State.modTest_slices (s : State) (f : TestWin → TestWin) : (s.modTest f).slices = s.slices := rfl
@[simp] theorem State.modTest_courses (s : State) (f : TestWin → TestWin) : (s.modTest f).courses = s.courses := rfl
@[simp] theorem State.modTest_eng (s : State) (f : TestWin → TestWin) : (s.modTest f).eng = s.eng := rfl
@[simp] theorem State.modTest_pts (s : State) (f : TestWin → TestWin) : (s.modTest f).pts = s.pts := rfl
@[simp] theorem State.modTest_recs (s : State) (f : TestWin → TestWin) : (s.modTest f).recs = s.recs := rfl
@[simp] theorem State.modTest_led (s : State) (f : TestWin → TestWin) : (s.modTest f).led = s.led := rfl
@[simp] theorem State.modTest_sw (s : State) (f : TestWin → TestWin) : (s.modTest f).sw = s.sw := rfl
@[simp] theorem State.modTest_saf (s : State) (f : TestWin → TestWin) : (s.modTest f).saf = s.saf := rfl
@[simp] theorem State.modTest_log (s : State) (f : TestWin → TestWin) : (s.modTest f).log = s.log := rfl
@[simp] theorem State.modTest_keys (s : State) (f : TestWin → TestWin) : (s.modTest f).keys = s.keys := rfl
@[simp] theorem State.modTest_disp (s : State) (f : TestWin → TestWin) : (s.modTest f).disp = s.disp := rfl
@[simp] theorem State.modTest_plc (s : State) (f : TestWin → TestWin) : (s.modTest f).plc = s.plc := rfl
@[simp] theorem State.modTest_ring (s : State) (f : TestWin → TestWin) : (s.modTest f).ring = s.ring := rfl
@[simp] theorem State.modTest_sar (s : State) (f : TestWin → TestWin) : (s.modTest f).sar = s.sar := rfl
@[simp] theorem State.modTest_fw (s : State) (f : TestWin → TestWin) : (s.modTest f).fw = s.fw := rfl
@[simp] theorem State.modTest_pwr (s : State) (f : TestWin → TestWin) : (s.modTest f).pwr = s.pwr := rfl
@[simp] theorem State.modTest_pending (s : State) (f : TestWin → TestWin) : (s.modTest f).pending = s.pending := rfl
@[simp] theorem State.modSlices_clk (s : State) (f : List Slice → List Slice) : (s.modSlices f).clk = s.clk := rfl
@[simp] theorem State.modSlices_servo (s : State) (f : List Slice → List Slice) : (s.modSlices f).servo = s.servo := rfl
@[simp] theorem State.modSlices_par (s : State) (f : List Slice → List Slice) : (s.modSlices f).par = s.par := rfl
@[simp] theorem State.modSlices_host (s : State) (f : List Slice → List Slice) : (s.modSlices f).host = s.host := rfl
@[simp] theorem State.modSlices_test (s : State) (f : List Slice → List Slice) : (s.modSlices f).test = s.test := rfl
@[simp] theorem State.modSlices_slices (s : State) (f : List Slice → List Slice) : (s.modSlices f).slices = f s.slices := rfl
@[simp] theorem State.modSlices_courses (s : State) (f : List Slice → List Slice) : (s.modSlices f).courses = s.courses := rfl
@[simp] theorem State.modSlices_eng (s : State) (f : List Slice → List Slice) : (s.modSlices f).eng = s.eng := rfl
@[simp] theorem State.modSlices_pts (s : State) (f : List Slice → List Slice) : (s.modSlices f).pts = s.pts := rfl
@[simp] theorem State.modSlices_recs (s : State) (f : List Slice → List Slice) : (s.modSlices f).recs = s.recs := rfl
@[simp] theorem State.modSlices_led (s : State) (f : List Slice → List Slice) : (s.modSlices f).led = s.led := rfl
@[simp] theorem State.modSlices_sw (s : State) (f : List Slice → List Slice) : (s.modSlices f).sw = s.sw := rfl
@[simp] theorem State.modSlices_saf (s : State) (f : List Slice → List Slice) : (s.modSlices f).saf = s.saf := rfl
@[simp] theorem State.modSlices_log (s : State) (f : List Slice → List Slice) : (s.modSlices f).log = s.log := rfl
@[simp] theorem State.modSlices_keys (s : State) (f : List Slice → List Slice) : (s.modSlices f).keys = s.keys := rfl
@[simp] theorem State.modSlices_disp (s : State) (f : List Slice → List Slice) : (s.modSlices f).disp = s.disp := rfl
@[simp] theorem State.modSlices_plc (s : State) (f : List Slice → List Slice) : (s.modSlices f).plc = s.plc := rfl
@[simp] theorem State.modSlices_ring (s : State) (f : List Slice → List Slice) : (s.modSlices f).ring = s.ring := rfl
@[simp] theorem State.modSlices_sar (s : State) (f : List Slice → List Slice) : (s.modSlices f).sar = s.sar := rfl
@[simp] theorem State.modSlices_fw (s : State) (f : List Slice → List Slice) : (s.modSlices f).fw = s.fw := rfl
@[simp] theorem State.modSlices_pwr (s : State) (f : List Slice → List Slice) : (s.modSlices f).pwr = s.pwr := rfl
@[simp] theorem State.modSlices_pending (s : State) (f : List Slice → List Slice) : (s.modSlices f).pending = s.pending := rfl
@[simp] theorem State.modCourses_clk (s : State) (f : List Course → List Course) : (s.modCourses f).clk = s.clk := rfl
@[simp] theorem State.modCourses_servo (s : State) (f : List Course → List Course) : (s.modCourses f).servo = s.servo := rfl
@[simp] theorem State.modCourses_par (s : State) (f : List Course → List Course) : (s.modCourses f).par = s.par := rfl
@[simp] theorem State.modCourses_host (s : State) (f : List Course → List Course) : (s.modCourses f).host = s.host := rfl
@[simp] theorem State.modCourses_test (s : State) (f : List Course → List Course) : (s.modCourses f).test = s.test := rfl
@[simp] theorem State.modCourses_slices (s : State) (f : List Course → List Course) : (s.modCourses f).slices = s.slices := rfl
@[simp] theorem State.modCourses_courses (s : State) (f : List Course → List Course) : (s.modCourses f).courses = f s.courses := rfl
@[simp] theorem State.modCourses_eng (s : State) (f : List Course → List Course) : (s.modCourses f).eng = s.eng := rfl
@[simp] theorem State.modCourses_pts (s : State) (f : List Course → List Course) : (s.modCourses f).pts = s.pts := rfl
@[simp] theorem State.modCourses_recs (s : State) (f : List Course → List Course) : (s.modCourses f).recs = s.recs := rfl
@[simp] theorem State.modCourses_led (s : State) (f : List Course → List Course) : (s.modCourses f).led = s.led := rfl
@[simp] theorem State.modCourses_sw (s : State) (f : List Course → List Course) : (s.modCourses f).sw = s.sw := rfl
@[simp] theorem State.modCourses_saf (s : State) (f : List Course → List Course) : (s.modCourses f).saf = s.saf := rfl
@[simp] theorem State.modCourses_log (s : State) (f : List Course → List Course) : (s.modCourses f).log = s.log := rfl
@[simp] theorem State.modCourses_keys (s : State) (f : List Course → List Course) : (s.modCourses f).keys = s.keys := rfl
@[simp] theorem State.modCourses_disp (s : State) (f : List Course → List Course) : (s.modCourses f).disp = s.disp := rfl
@[simp] theorem State.modCourses_plc (s : State) (f : List Course → List Course) : (s.modCourses f).plc = s.plc := rfl
@[simp] theorem State.modCourses_ring (s : State) (f : List Course → List Course) : (s.modCourses f).ring = s.ring := rfl
@[simp] theorem State.modCourses_sar (s : State) (f : List Course → List Course) : (s.modCourses f).sar = s.sar := rfl
@[simp] theorem State.modCourses_fw (s : State) (f : List Course → List Course) : (s.modCourses f).fw = s.fw := rfl
@[simp] theorem State.modCourses_pwr (s : State) (f : List Course → List Course) : (s.modCourses f).pwr = s.pwr := rfl
@[simp] theorem State.modCourses_pending (s : State) (f : List Course → List Course) : (s.modCourses f).pending = s.pending := rfl
@[simp] theorem State.modEng_clk (s : State) (f : Engine → Engine) : (s.modEng f).clk = s.clk := rfl
@[simp] theorem State.modEng_servo (s : State) (f : Engine → Engine) : (s.modEng f).servo = s.servo := rfl
@[simp] theorem State.modEng_par (s : State) (f : Engine → Engine) : (s.modEng f).par = s.par := rfl
@[simp] theorem State.modEng_host (s : State) (f : Engine → Engine) : (s.modEng f).host = s.host := rfl
@[simp] theorem State.modEng_test (s : State) (f : Engine → Engine) : (s.modEng f).test = s.test := rfl
@[simp] theorem State.modEng_slices (s : State) (f : Engine → Engine) : (s.modEng f).slices = s.slices := rfl
@[simp] theorem State.modEng_courses (s : State) (f : Engine → Engine) : (s.modEng f).courses = s.courses := rfl
@[simp] theorem State.modEng_eng (s : State) (f : Engine → Engine) : (s.modEng f).eng = f s.eng := rfl
@[simp] theorem State.modEng_pts (s : State) (f : Engine → Engine) : (s.modEng f).pts = s.pts := rfl
@[simp] theorem State.modEng_recs (s : State) (f : Engine → Engine) : (s.modEng f).recs = s.recs := rfl
@[simp] theorem State.modEng_led (s : State) (f : Engine → Engine) : (s.modEng f).led = s.led := rfl
@[simp] theorem State.modEng_sw (s : State) (f : Engine → Engine) : (s.modEng f).sw = s.sw := rfl
@[simp] theorem State.modEng_saf (s : State) (f : Engine → Engine) : (s.modEng f).saf = s.saf := rfl
@[simp] theorem State.modEng_log (s : State) (f : Engine → Engine) : (s.modEng f).log = s.log := rfl
@[simp] theorem State.modEng_keys (s : State) (f : Engine → Engine) : (s.modEng f).keys = s.keys := rfl
@[simp] theorem State.modEng_disp (s : State) (f : Engine → Engine) : (s.modEng f).disp = s.disp := rfl
@[simp] theorem State.modEng_plc (s : State) (f : Engine → Engine) : (s.modEng f).plc = s.plc := rfl
@[simp] theorem State.modEng_ring (s : State) (f : Engine → Engine) : (s.modEng f).ring = s.ring := rfl
@[simp] theorem State.modEng_sar (s : State) (f : Engine → Engine) : (s.modEng f).sar = s.sar := rfl
@[simp] theorem State.modEng_fw (s : State) (f : Engine → Engine) : (s.modEng f).fw = s.fw := rfl
@[simp] theorem State.modEng_pwr (s : State) (f : Engine → Engine) : (s.modEng f).pwr = s.pwr := rfl
@[simp] theorem State.modEng_pending (s : State) (f : Engine → Engine) : (s.modEng f).pending = s.pending := rfl
@[simp] theorem State.modPts_clk (s : State) (f : List Point → List Point) : (s.modPts f).clk = s.clk := rfl
@[simp] theorem State.modPts_servo (s : State) (f : List Point → List Point) : (s.modPts f).servo = s.servo := rfl
@[simp] theorem State.modPts_par (s : State) (f : List Point → List Point) : (s.modPts f).par = s.par := rfl
@[simp] theorem State.modPts_host (s : State) (f : List Point → List Point) : (s.modPts f).host = s.host := rfl
@[simp] theorem State.modPts_test (s : State) (f : List Point → List Point) : (s.modPts f).test = s.test := rfl
@[simp] theorem State.modPts_slices (s : State) (f : List Point → List Point) : (s.modPts f).slices = s.slices := rfl
@[simp] theorem State.modPts_courses (s : State) (f : List Point → List Point) : (s.modPts f).courses = s.courses := rfl
@[simp] theorem State.modPts_eng (s : State) (f : List Point → List Point) : (s.modPts f).eng = s.eng := rfl
@[simp] theorem State.modPts_pts (s : State) (f : List Point → List Point) : (s.modPts f).pts = f s.pts := rfl
@[simp] theorem State.modPts_recs (s : State) (f : List Point → List Point) : (s.modPts f).recs = s.recs := rfl
@[simp] theorem State.modPts_led (s : State) (f : List Point → List Point) : (s.modPts f).led = s.led := rfl
@[simp] theorem State.modPts_sw (s : State) (f : List Point → List Point) : (s.modPts f).sw = s.sw := rfl
@[simp] theorem State.modPts_saf (s : State) (f : List Point → List Point) : (s.modPts f).saf = s.saf := rfl
@[simp] theorem State.modPts_log (s : State) (f : List Point → List Point) : (s.modPts f).log = s.log := rfl
@[simp] theorem State.modPts_keys (s : State) (f : List Point → List Point) : (s.modPts f).keys = s.keys := rfl
@[simp] theorem State.modPts_disp (s : State) (f : List Point → List Point) : (s.modPts f).disp = s.disp := rfl
@[simp] theorem State.modPts_plc (s : State) (f : List Point → List Point) : (s.modPts f).plc = s.plc := rfl
@[simp] theorem State.modPts_ring (s : State) (f : List Point → List Point) : (s.modPts f).ring = s.ring := rfl
@[simp] theorem State.modPts_sar (s : State) (f : List Point → List Point) : (s.modPts f).sar = s.sar := rfl
@[simp] theorem State.modPts_fw (s : State) (f : List Point → List Point) : (s.modPts f).fw = s.fw := rfl
@[simp] theorem State.modPts_pwr (s : State) (f : List Point → List Point) : (s.modPts f).pwr = s.pwr := rfl
@[simp] theorem State.modPts_pending (s : State) (f : List Point → List Point) : (s.modPts f).pending = s.pending := rfl
@[simp] theorem State.modRecs_clk (s : State) (f : RecordStore → RecordStore) : (s.modRecs f).clk = s.clk := rfl
@[simp] theorem State.modRecs_servo (s : State) (f : RecordStore → RecordStore) : (s.modRecs f).servo = s.servo := rfl
@[simp] theorem State.modRecs_par (s : State) (f : RecordStore → RecordStore) : (s.modRecs f).par = s.par := rfl
@[simp] theorem State.modRecs_host (s : State) (f : RecordStore → RecordStore) : (s.modRecs f).host = s.host := rfl
@[simp] theorem State.modRecs_test (s : State) (f : RecordStore → RecordStore) : (s.modRecs f).test = s.test := rfl
@[simp] theorem State.modRecs_slices (s : State) (f : RecordStore → RecordStore) : (s.modRecs f).slices = s.slices := rfl
@[simp] theorem State.modRecs_courses (s : State) (f : RecordStore → RecordStore) : (s.modRecs f).courses = s.courses := rfl
@[simp] theorem State.modRecs_eng (s : State) (f : RecordStore → RecordStore) : (s.modRecs f).eng = s.eng := rfl
@[simp] theorem State.modRecs_pts (s : State) (f : RecordStore → RecordStore) : (s.modRecs f).pts = s.pts := rfl
@[simp] theorem State.modRecs_recs (s : State) (f : RecordStore → RecordStore) : (s.modRecs f).recs = f s.recs := rfl
@[simp] theorem State.modRecs_led (s : State) (f : RecordStore → RecordStore) : (s.modRecs f).led = s.led := rfl
@[simp] theorem State.modRecs_sw (s : State) (f : RecordStore → RecordStore) : (s.modRecs f).sw = s.sw := rfl
@[simp] theorem State.modRecs_saf (s : State) (f : RecordStore → RecordStore) : (s.modRecs f).saf = s.saf := rfl
@[simp] theorem State.modRecs_log (s : State) (f : RecordStore → RecordStore) : (s.modRecs f).log = s.log := rfl
@[simp] theorem State.modRecs_keys (s : State) (f : RecordStore → RecordStore) : (s.modRecs f).keys = s.keys := rfl
@[simp] theorem State.modRecs_disp (s : State) (f : RecordStore → RecordStore) : (s.modRecs f).disp = s.disp := rfl
@[simp] theorem State.modRecs_plc (s : State) (f : RecordStore → RecordStore) : (s.modRecs f).plc = s.plc := rfl
@[simp] theorem State.modRecs_ring (s : State) (f : RecordStore → RecordStore) : (s.modRecs f).ring = s.ring := rfl
@[simp] theorem State.modRecs_sar (s : State) (f : RecordStore → RecordStore) : (s.modRecs f).sar = s.sar := rfl
@[simp] theorem State.modRecs_fw (s : State) (f : RecordStore → RecordStore) : (s.modRecs f).fw = s.fw := rfl
@[simp] theorem State.modRecs_pwr (s : State) (f : RecordStore → RecordStore) : (s.modRecs f).pwr = s.pwr := rfl
@[simp] theorem State.modRecs_pending (s : State) (f : RecordStore → RecordStore) : (s.modRecs f).pending = s.pending := rfl
@[simp] theorem State.modLed_clk (s : State) (f : Ledger → Ledger) : (s.modLed f).clk = s.clk := rfl
@[simp] theorem State.modLed_servo (s : State) (f : Ledger → Ledger) : (s.modLed f).servo = s.servo := rfl
@[simp] theorem State.modLed_par (s : State) (f : Ledger → Ledger) : (s.modLed f).par = s.par := rfl
@[simp] theorem State.modLed_host (s : State) (f : Ledger → Ledger) : (s.modLed f).host = s.host := rfl
@[simp] theorem State.modLed_test (s : State) (f : Ledger → Ledger) : (s.modLed f).test = s.test := rfl
@[simp] theorem State.modLed_slices (s : State) (f : Ledger → Ledger) : (s.modLed f).slices = s.slices := rfl
@[simp] theorem State.modLed_courses (s : State) (f : Ledger → Ledger) : (s.modLed f).courses = s.courses := rfl
@[simp] theorem State.modLed_eng (s : State) (f : Ledger → Ledger) : (s.modLed f).eng = s.eng := rfl
@[simp] theorem State.modLed_pts (s : State) (f : Ledger → Ledger) : (s.modLed f).pts = s.pts := rfl
@[simp] theorem State.modLed_recs (s : State) (f : Ledger → Ledger) : (s.modLed f).recs = s.recs := rfl
@[simp] theorem State.modLed_led (s : State) (f : Ledger → Ledger) : (s.modLed f).led = f s.led := rfl
@[simp] theorem State.modLed_sw (s : State) (f : Ledger → Ledger) : (s.modLed f).sw = s.sw := rfl
@[simp] theorem State.modLed_saf (s : State) (f : Ledger → Ledger) : (s.modLed f).saf = s.saf := rfl
@[simp] theorem State.modLed_log (s : State) (f : Ledger → Ledger) : (s.modLed f).log = s.log := rfl
@[simp] theorem State.modLed_keys (s : State) (f : Ledger → Ledger) : (s.modLed f).keys = s.keys := rfl
@[simp] theorem State.modLed_disp (s : State) (f : Ledger → Ledger) : (s.modLed f).disp = s.disp := rfl
@[simp] theorem State.modLed_plc (s : State) (f : Ledger → Ledger) : (s.modLed f).plc = s.plc := rfl
@[simp] theorem State.modLed_ring (s : State) (f : Ledger → Ledger) : (s.modLed f).ring = s.ring := rfl
@[simp] theorem State.modLed_sar (s : State) (f : Ledger → Ledger) : (s.modLed f).sar = s.sar := rfl
@[simp] theorem State.modLed_fw (s : State) (f : Ledger → Ledger) : (s.modLed f).fw = s.fw := rfl
@[simp] theorem State.modLed_pwr (s : State) (f : Ledger → Ledger) : (s.modLed f).pwr = s.pwr := rfl
@[simp] theorem State.modLed_pending (s : State) (f : Ledger → Ledger) : (s.modLed f).pending = s.pending := rfl
@[simp] theorem State.modSw_clk (s : State) (f : SwitchDie → SwitchDie) : (s.modSw f).clk = s.clk := rfl
@[simp] theorem State.modSw_servo (s : State) (f : SwitchDie → SwitchDie) : (s.modSw f).servo = s.servo := rfl
@[simp] theorem State.modSw_par (s : State) (f : SwitchDie → SwitchDie) : (s.modSw f).par = s.par := rfl
@[simp] theorem State.modSw_host (s : State) (f : SwitchDie → SwitchDie) : (s.modSw f).host = s.host := rfl
@[simp] theorem State.modSw_test (s : State) (f : SwitchDie → SwitchDie) : (s.modSw f).test = s.test := rfl
@[simp] theorem State.modSw_slices (s : State) (f : SwitchDie → SwitchDie) : (s.modSw f).slices = s.slices := rfl
@[simp] theorem State.modSw_courses (s : State) (f : SwitchDie → SwitchDie) : (s.modSw f).courses = s.courses := rfl
@[simp] theorem State.modSw_eng (s : State) (f : SwitchDie → SwitchDie) : (s.modSw f).eng = s.eng := rfl
@[simp] theorem State.modSw_pts (s : State) (f : SwitchDie → SwitchDie) : (s.modSw f).pts = s.pts := rfl
@[simp] theorem State.modSw_recs (s : State) (f : SwitchDie → SwitchDie) : (s.modSw f).recs = s.recs := rfl
@[simp] theorem State.modSw_led (s : State) (f : SwitchDie → SwitchDie) : (s.modSw f).led = s.led := rfl
@[simp] theorem State.modSw_sw (s : State) (f : SwitchDie → SwitchDie) : (s.modSw f).sw = f s.sw := rfl
@[simp] theorem State.modSw_saf (s : State) (f : SwitchDie → SwitchDie) : (s.modSw f).saf = s.saf := rfl
@[simp] theorem State.modSw_log (s : State) (f : SwitchDie → SwitchDie) : (s.modSw f).log = s.log := rfl
@[simp] theorem State.modSw_keys (s : State) (f : SwitchDie → SwitchDie) : (s.modSw f).keys = s.keys := rfl
@[simp] theorem State.modSw_disp (s : State) (f : SwitchDie → SwitchDie) : (s.modSw f).disp = s.disp := rfl
@[simp] theorem State.modSw_plc (s : State) (f : SwitchDie → SwitchDie) : (s.modSw f).plc = s.plc := rfl
@[simp] theorem State.modSw_ring (s : State) (f : SwitchDie → SwitchDie) : (s.modSw f).ring = s.ring := rfl
@[simp] theorem State.modSw_sar (s : State) (f : SwitchDie → SwitchDie) : (s.modSw f).sar = s.sar := rfl
@[simp] theorem State.modSw_fw (s : State) (f : SwitchDie → SwitchDie) : (s.modSw f).fw = s.fw := rfl
@[simp] theorem State.modSw_pwr (s : State) (f : SwitchDie → SwitchDie) : (s.modSw f).pwr = s.pwr := rfl
@[simp] theorem State.modSw_pending (s : State) (f : SwitchDie → SwitchDie) : (s.modSw f).pending = s.pending := rfl
@[simp] theorem State.modSaf_clk (s : State) (f : Safety → Safety) : (s.modSaf f).clk = s.clk := rfl
@[simp] theorem State.modSaf_servo (s : State) (f : Safety → Safety) : (s.modSaf f).servo = s.servo := rfl
@[simp] theorem State.modSaf_par (s : State) (f : Safety → Safety) : (s.modSaf f).par = s.par := rfl
@[simp] theorem State.modSaf_host (s : State) (f : Safety → Safety) : (s.modSaf f).host = s.host := rfl
@[simp] theorem State.modSaf_test (s : State) (f : Safety → Safety) : (s.modSaf f).test = s.test := rfl
@[simp] theorem State.modSaf_slices (s : State) (f : Safety → Safety) : (s.modSaf f).slices = s.slices := rfl
@[simp] theorem State.modSaf_courses (s : State) (f : Safety → Safety) : (s.modSaf f).courses = s.courses := rfl
@[simp] theorem State.modSaf_eng (s : State) (f : Safety → Safety) : (s.modSaf f).eng = s.eng := rfl
@[simp] theorem State.modSaf_pts (s : State) (f : Safety → Safety) : (s.modSaf f).pts = s.pts := rfl
@[simp] theorem State.modSaf_recs (s : State) (f : Safety → Safety) : (s.modSaf f).recs = s.recs := rfl
@[simp] theorem State.modSaf_led (s : State) (f : Safety → Safety) : (s.modSaf f).led = s.led := rfl
@[simp] theorem State.modSaf_sw (s : State) (f : Safety → Safety) : (s.modSaf f).sw = s.sw := rfl
@[simp] theorem State.modSaf_saf (s : State) (f : Safety → Safety) : (s.modSaf f).saf = f s.saf := rfl
@[simp] theorem State.modSaf_log (s : State) (f : Safety → Safety) : (s.modSaf f).log = s.log := rfl
@[simp] theorem State.modSaf_keys (s : State) (f : Safety → Safety) : (s.modSaf f).keys = s.keys := rfl
@[simp] theorem State.modSaf_disp (s : State) (f : Safety → Safety) : (s.modSaf f).disp = s.disp := rfl
@[simp] theorem State.modSaf_plc (s : State) (f : Safety → Safety) : (s.modSaf f).plc = s.plc := rfl
@[simp] theorem State.modSaf_ring (s : State) (f : Safety → Safety) : (s.modSaf f).ring = s.ring := rfl
@[simp] theorem State.modSaf_sar (s : State) (f : Safety → Safety) : (s.modSaf f).sar = s.sar := rfl
@[simp] theorem State.modSaf_fw (s : State) (f : Safety → Safety) : (s.modSaf f).fw = s.fw := rfl
@[simp] theorem State.modSaf_pwr (s : State) (f : Safety → Safety) : (s.modSaf f).pwr = s.pwr := rfl
@[simp] theorem State.modSaf_pending (s : State) (f : Safety → Safety) : (s.modSaf f).pending = s.pending := rfl
@[simp] theorem State.modLog_clk (s : State) (f : LegalLog → LegalLog) : (s.modLog f).clk = s.clk := rfl
@[simp] theorem State.modLog_servo (s : State) (f : LegalLog → LegalLog) : (s.modLog f).servo = s.servo := rfl
@[simp] theorem State.modLog_par (s : State) (f : LegalLog → LegalLog) : (s.modLog f).par = s.par := rfl
@[simp] theorem State.modLog_host (s : State) (f : LegalLog → LegalLog) : (s.modLog f).host = s.host := rfl
@[simp] theorem State.modLog_test (s : State) (f : LegalLog → LegalLog) : (s.modLog f).test = s.test := rfl
@[simp] theorem State.modLog_slices (s : State) (f : LegalLog → LegalLog) : (s.modLog f).slices = s.slices := rfl
@[simp] theorem State.modLog_courses (s : State) (f : LegalLog → LegalLog) : (s.modLog f).courses = s.courses := rfl
@[simp] theorem State.modLog_eng (s : State) (f : LegalLog → LegalLog) : (s.modLog f).eng = s.eng := rfl
@[simp] theorem State.modLog_pts (s : State) (f : LegalLog → LegalLog) : (s.modLog f).pts = s.pts := rfl
@[simp] theorem State.modLog_recs (s : State) (f : LegalLog → LegalLog) : (s.modLog f).recs = s.recs := rfl
@[simp] theorem State.modLog_led (s : State) (f : LegalLog → LegalLog) : (s.modLog f).led = s.led := rfl
@[simp] theorem State.modLog_sw (s : State) (f : LegalLog → LegalLog) : (s.modLog f).sw = s.sw := rfl
@[simp] theorem State.modLog_saf (s : State) (f : LegalLog → LegalLog) : (s.modLog f).saf = s.saf := rfl
@[simp] theorem State.modLog_log (s : State) (f : LegalLog → LegalLog) : (s.modLog f).log = f s.log := rfl
@[simp] theorem State.modLog_keys (s : State) (f : LegalLog → LegalLog) : (s.modLog f).keys = s.keys := rfl
@[simp] theorem State.modLog_disp (s : State) (f : LegalLog → LegalLog) : (s.modLog f).disp = s.disp := rfl
@[simp] theorem State.modLog_plc (s : State) (f : LegalLog → LegalLog) : (s.modLog f).plc = s.plc := rfl
@[simp] theorem State.modLog_ring (s : State) (f : LegalLog → LegalLog) : (s.modLog f).ring = s.ring := rfl
@[simp] theorem State.modLog_sar (s : State) (f : LegalLog → LegalLog) : (s.modLog f).sar = s.sar := rfl
@[simp] theorem State.modLog_fw (s : State) (f : LegalLog → LegalLog) : (s.modLog f).fw = s.fw := rfl
@[simp] theorem State.modLog_pwr (s : State) (f : LegalLog → LegalLog) : (s.modLog f).pwr = s.pwr := rfl
@[simp] theorem State.modLog_pending (s : State) (f : LegalLog → LegalLog) : (s.modLog f).pending = s.pending := rfl
@[simp] theorem State.modKeys_clk (s : State) (f : Keys → Keys) : (s.modKeys f).clk = s.clk := rfl
@[simp] theorem State.modKeys_servo (s : State) (f : Keys → Keys) : (s.modKeys f).servo = s.servo := rfl
@[simp] theorem State.modKeys_par (s : State) (f : Keys → Keys) : (s.modKeys f).par = s.par := rfl
@[simp] theorem State.modKeys_host (s : State) (f : Keys → Keys) : (s.modKeys f).host = s.host := rfl
@[simp] theorem State.modKeys_test (s : State) (f : Keys → Keys) : (s.modKeys f).test = s.test := rfl
@[simp] theorem State.modKeys_slices (s : State) (f : Keys → Keys) : (s.modKeys f).slices = s.slices := rfl
@[simp] theorem State.modKeys_courses (s : State) (f : Keys → Keys) : (s.modKeys f).courses = s.courses := rfl
@[simp] theorem State.modKeys_eng (s : State) (f : Keys → Keys) : (s.modKeys f).eng = s.eng := rfl
@[simp] theorem State.modKeys_pts (s : State) (f : Keys → Keys) : (s.modKeys f).pts = s.pts := rfl
@[simp] theorem State.modKeys_recs (s : State) (f : Keys → Keys) : (s.modKeys f).recs = s.recs := rfl
@[simp] theorem State.modKeys_led (s : State) (f : Keys → Keys) : (s.modKeys f).led = s.led := rfl
@[simp] theorem State.modKeys_sw (s : State) (f : Keys → Keys) : (s.modKeys f).sw = s.sw := rfl
@[simp] theorem State.modKeys_saf (s : State) (f : Keys → Keys) : (s.modKeys f).saf = s.saf := rfl
@[simp] theorem State.modKeys_log (s : State) (f : Keys → Keys) : (s.modKeys f).log = s.log := rfl
@[simp] theorem State.modKeys_keys (s : State) (f : Keys → Keys) : (s.modKeys f).keys = f s.keys := rfl
@[simp] theorem State.modKeys_disp (s : State) (f : Keys → Keys) : (s.modKeys f).disp = s.disp := rfl
@[simp] theorem State.modKeys_plc (s : State) (f : Keys → Keys) : (s.modKeys f).plc = s.plc := rfl
@[simp] theorem State.modKeys_ring (s : State) (f : Keys → Keys) : (s.modKeys f).ring = s.ring := rfl
@[simp] theorem State.modKeys_sar (s : State) (f : Keys → Keys) : (s.modKeys f).sar = s.sar := rfl
@[simp] theorem State.modKeys_fw (s : State) (f : Keys → Keys) : (s.modKeys f).fw = s.fw := rfl
@[simp] theorem State.modKeys_pwr (s : State) (f : Keys → Keys) : (s.modKeys f).pwr = s.pwr := rfl
@[simp] theorem State.modKeys_pending (s : State) (f : Keys → Keys) : (s.modKeys f).pending = s.pending := rfl
@[simp] theorem State.modDisp_clk (s : State) (f : Display → Display) : (s.modDisp f).clk = s.clk := rfl
@[simp] theorem State.modDisp_servo (s : State) (f : Display → Display) : (s.modDisp f).servo = s.servo := rfl
@[simp] theorem State.modDisp_par (s : State) (f : Display → Display) : (s.modDisp f).par = s.par := rfl
@[simp] theorem State.modDisp_host (s : State) (f : Display → Display) : (s.modDisp f).host = s.host := rfl
@[simp] theorem State.modDisp_test (s : State) (f : Display → Display) : (s.modDisp f).test = s.test := rfl
@[simp] theorem State.modDisp_slices (s : State) (f : Display → Display) : (s.modDisp f).slices = s.slices := rfl
@[simp] theorem State.modDisp_courses (s : State) (f : Display → Display) : (s.modDisp f).courses = s.courses := rfl
@[simp] theorem State.modDisp_eng (s : State) (f : Display → Display) : (s.modDisp f).eng = s.eng := rfl
@[simp] theorem State.modDisp_pts (s : State) (f : Display → Display) : (s.modDisp f).pts = s.pts := rfl
@[simp] theorem State.modDisp_recs (s : State) (f : Display → Display) : (s.modDisp f).recs = s.recs := rfl
@[simp] theorem State.modDisp_led (s : State) (f : Display → Display) : (s.modDisp f).led = s.led := rfl
@[simp] theorem State.modDisp_sw (s : State) (f : Display → Display) : (s.modDisp f).sw = s.sw := rfl
@[simp] theorem State.modDisp_saf (s : State) (f : Display → Display) : (s.modDisp f).saf = s.saf := rfl
@[simp] theorem State.modDisp_log (s : State) (f : Display → Display) : (s.modDisp f).log = s.log := rfl
@[simp] theorem State.modDisp_keys (s : State) (f : Display → Display) : (s.modDisp f).keys = s.keys := rfl
@[simp] theorem State.modDisp_disp (s : State) (f : Display → Display) : (s.modDisp f).disp = f s.disp := rfl
@[simp] theorem State.modDisp_plc (s : State) (f : Display → Display) : (s.modDisp f).plc = s.plc := rfl
@[simp] theorem State.modDisp_ring (s : State) (f : Display → Display) : (s.modDisp f).ring = s.ring := rfl
@[simp] theorem State.modDisp_sar (s : State) (f : Display → Display) : (s.modDisp f).sar = s.sar := rfl
@[simp] theorem State.modDisp_fw (s : State) (f : Display → Display) : (s.modDisp f).fw = s.fw := rfl
@[simp] theorem State.modDisp_pwr (s : State) (f : Display → Display) : (s.modDisp f).pwr = s.pwr := rfl
@[simp] theorem State.modDisp_pending (s : State) (f : Display → Display) : (s.modDisp f).pending = s.pending := rfl
@[simp] theorem State.modPlc_clk (s : State) (f : Plc → Plc) : (s.modPlc f).clk = s.clk := rfl
@[simp] theorem State.modPlc_servo (s : State) (f : Plc → Plc) : (s.modPlc f).servo = s.servo := rfl
@[simp] theorem State.modPlc_par (s : State) (f : Plc → Plc) : (s.modPlc f).par = s.par := rfl
@[simp] theorem State.modPlc_host (s : State) (f : Plc → Plc) : (s.modPlc f).host = s.host := rfl
@[simp] theorem State.modPlc_test (s : State) (f : Plc → Plc) : (s.modPlc f).test = s.test := rfl
@[simp] theorem State.modPlc_slices (s : State) (f : Plc → Plc) : (s.modPlc f).slices = s.slices := rfl
@[simp] theorem State.modPlc_courses (s : State) (f : Plc → Plc) : (s.modPlc f).courses = s.courses := rfl
@[simp] theorem State.modPlc_eng (s : State) (f : Plc → Plc) : (s.modPlc f).eng = s.eng := rfl
@[simp] theorem State.modPlc_pts (s : State) (f : Plc → Plc) : (s.modPlc f).pts = s.pts := rfl
@[simp] theorem State.modPlc_recs (s : State) (f : Plc → Plc) : (s.modPlc f).recs = s.recs := rfl
@[simp] theorem State.modPlc_led (s : State) (f : Plc → Plc) : (s.modPlc f).led = s.led := rfl
@[simp] theorem State.modPlc_sw (s : State) (f : Plc → Plc) : (s.modPlc f).sw = s.sw := rfl
@[simp] theorem State.modPlc_saf (s : State) (f : Plc → Plc) : (s.modPlc f).saf = s.saf := rfl
@[simp] theorem State.modPlc_log (s : State) (f : Plc → Plc) : (s.modPlc f).log = s.log := rfl
@[simp] theorem State.modPlc_keys (s : State) (f : Plc → Plc) : (s.modPlc f).keys = s.keys := rfl
@[simp] theorem State.modPlc_disp (s : State) (f : Plc → Plc) : (s.modPlc f).disp = s.disp := rfl
@[simp] theorem State.modPlc_plc (s : State) (f : Plc → Plc) : (s.modPlc f).plc = f s.plc := rfl
@[simp] theorem State.modPlc_ring (s : State) (f : Plc → Plc) : (s.modPlc f).ring = s.ring := rfl
@[simp] theorem State.modPlc_sar (s : State) (f : Plc → Plc) : (s.modPlc f).sar = s.sar := rfl
@[simp] theorem State.modPlc_fw (s : State) (f : Plc → Plc) : (s.modPlc f).fw = s.fw := rfl
@[simp] theorem State.modPlc_pwr (s : State) (f : Plc → Plc) : (s.modPlc f).pwr = s.pwr := rfl
@[simp] theorem State.modPlc_pending (s : State) (f : Plc → Plc) : (s.modPlc f).pending = s.pending := rfl
@[simp] theorem State.modRing_clk (s : State) (f : Ring → Ring) : (s.modRing f).clk = s.clk := rfl
@[simp] theorem State.modRing_servo (s : State) (f : Ring → Ring) : (s.modRing f).servo = s.servo := rfl
@[simp] theorem State.modRing_par (s : State) (f : Ring → Ring) : (s.modRing f).par = s.par := rfl
@[simp] theorem State.modRing_host (s : State) (f : Ring → Ring) : (s.modRing f).host = s.host := rfl
@[simp] theorem State.modRing_test (s : State) (f : Ring → Ring) : (s.modRing f).test = s.test := rfl
@[simp] theorem State.modRing_slices (s : State) (f : Ring → Ring) : (s.modRing f).slices = s.slices := rfl
@[simp] theorem State.modRing_courses (s : State) (f : Ring → Ring) : (s.modRing f).courses = s.courses := rfl
@[simp] theorem State.modRing_eng (s : State) (f : Ring → Ring) : (s.modRing f).eng = s.eng := rfl
@[simp] theorem State.modRing_pts (s : State) (f : Ring → Ring) : (s.modRing f).pts = s.pts := rfl
@[simp] theorem State.modRing_recs (s : State) (f : Ring → Ring) : (s.modRing f).recs = s.recs := rfl
@[simp] theorem State.modRing_led (s : State) (f : Ring → Ring) : (s.modRing f).led = s.led := rfl
@[simp] theorem State.modRing_sw (s : State) (f : Ring → Ring) : (s.modRing f).sw = s.sw := rfl
@[simp] theorem State.modRing_saf (s : State) (f : Ring → Ring) : (s.modRing f).saf = s.saf := rfl
@[simp] theorem State.modRing_log (s : State) (f : Ring → Ring) : (s.modRing f).log = s.log := rfl
@[simp] theorem State.modRing_keys (s : State) (f : Ring → Ring) : (s.modRing f).keys = s.keys := rfl
@[simp] theorem State.modRing_disp (s : State) (f : Ring → Ring) : (s.modRing f).disp = s.disp := rfl
@[simp] theorem State.modRing_plc (s : State) (f : Ring → Ring) : (s.modRing f).plc = s.plc := rfl
@[simp] theorem State.modRing_ring (s : State) (f : Ring → Ring) : (s.modRing f).ring = f s.ring := rfl
@[simp] theorem State.modRing_sar (s : State) (f : Ring → Ring) : (s.modRing f).sar = s.sar := rfl
@[simp] theorem State.modRing_fw (s : State) (f : Ring → Ring) : (s.modRing f).fw = s.fw := rfl
@[simp] theorem State.modRing_pwr (s : State) (f : Ring → Ring) : (s.modRing f).pwr = s.pwr := rfl
@[simp] theorem State.modRing_pending (s : State) (f : Ring → Ring) : (s.modRing f).pending = s.pending := rfl
@[simp] theorem State.modSar_clk (s : State) (f : Sar → Sar) : (s.modSar f).clk = s.clk := rfl
@[simp] theorem State.modSar_servo (s : State) (f : Sar → Sar) : (s.modSar f).servo = s.servo := rfl
@[simp] theorem State.modSar_par (s : State) (f : Sar → Sar) : (s.modSar f).par = s.par := rfl
@[simp] theorem State.modSar_host (s : State) (f : Sar → Sar) : (s.modSar f).host = s.host := rfl
@[simp] theorem State.modSar_test (s : State) (f : Sar → Sar) : (s.modSar f).test = s.test := rfl
@[simp] theorem State.modSar_slices (s : State) (f : Sar → Sar) : (s.modSar f).slices = s.slices := rfl
@[simp] theorem State.modSar_courses (s : State) (f : Sar → Sar) : (s.modSar f).courses = s.courses := rfl
@[simp] theorem State.modSar_eng (s : State) (f : Sar → Sar) : (s.modSar f).eng = s.eng := rfl
@[simp] theorem State.modSar_pts (s : State) (f : Sar → Sar) : (s.modSar f).pts = s.pts := rfl
@[simp] theorem State.modSar_recs (s : State) (f : Sar → Sar) : (s.modSar f).recs = s.recs := rfl
@[simp] theorem State.modSar_led (s : State) (f : Sar → Sar) : (s.modSar f).led = s.led := rfl
@[simp] theorem State.modSar_sw (s : State) (f : Sar → Sar) : (s.modSar f).sw = s.sw := rfl
@[simp] theorem State.modSar_saf (s : State) (f : Sar → Sar) : (s.modSar f).saf = s.saf := rfl
@[simp] theorem State.modSar_log (s : State) (f : Sar → Sar) : (s.modSar f).log = s.log := rfl
@[simp] theorem State.modSar_keys (s : State) (f : Sar → Sar) : (s.modSar f).keys = s.keys := rfl
@[simp] theorem State.modSar_disp (s : State) (f : Sar → Sar) : (s.modSar f).disp = s.disp := rfl
@[simp] theorem State.modSar_plc (s : State) (f : Sar → Sar) : (s.modSar f).plc = s.plc := rfl
@[simp] theorem State.modSar_ring (s : State) (f : Sar → Sar) : (s.modSar f).ring = s.ring := rfl
@[simp] theorem State.modSar_sar (s : State) (f : Sar → Sar) : (s.modSar f).sar = f s.sar := rfl
@[simp] theorem State.modSar_fw (s : State) (f : Sar → Sar) : (s.modSar f).fw = s.fw := rfl
@[simp] theorem State.modSar_pwr (s : State) (f : Sar → Sar) : (s.modSar f).pwr = s.pwr := rfl
@[simp] theorem State.modSar_pending (s : State) (f : Sar → Sar) : (s.modSar f).pending = s.pending := rfl
@[simp] theorem State.modFw_clk (s : State) (f : Firmware → Firmware) : (s.modFw f).clk = s.clk := rfl
@[simp] theorem State.modFw_servo (s : State) (f : Firmware → Firmware) : (s.modFw f).servo = s.servo := rfl
@[simp] theorem State.modFw_par (s : State) (f : Firmware → Firmware) : (s.modFw f).par = s.par := rfl
@[simp] theorem State.modFw_host (s : State) (f : Firmware → Firmware) : (s.modFw f).host = s.host := rfl
@[simp] theorem State.modFw_test (s : State) (f : Firmware → Firmware) : (s.modFw f).test = s.test := rfl
@[simp] theorem State.modFw_slices (s : State) (f : Firmware → Firmware) : (s.modFw f).slices = s.slices := rfl
@[simp] theorem State.modFw_courses (s : State) (f : Firmware → Firmware) : (s.modFw f).courses = s.courses := rfl
@[simp] theorem State.modFw_eng (s : State) (f : Firmware → Firmware) : (s.modFw f).eng = s.eng := rfl
@[simp] theorem State.modFw_pts (s : State) (f : Firmware → Firmware) : (s.modFw f).pts = s.pts := rfl
@[simp] theorem State.modFw_recs (s : State) (f : Firmware → Firmware) : (s.modFw f).recs = s.recs := rfl
@[simp] theorem State.modFw_led (s : State) (f : Firmware → Firmware) : (s.modFw f).led = s.led := rfl
@[simp] theorem State.modFw_sw (s : State) (f : Firmware → Firmware) : (s.modFw f).sw = s.sw := rfl
@[simp] theorem State.modFw_saf (s : State) (f : Firmware → Firmware) : (s.modFw f).saf = s.saf := rfl
@[simp] theorem State.modFw_log (s : State) (f : Firmware → Firmware) : (s.modFw f).log = s.log := rfl
@[simp] theorem State.modFw_keys (s : State) (f : Firmware → Firmware) : (s.modFw f).keys = s.keys := rfl
@[simp] theorem State.modFw_disp (s : State) (f : Firmware → Firmware) : (s.modFw f).disp = s.disp := rfl
@[simp] theorem State.modFw_plc (s : State) (f : Firmware → Firmware) : (s.modFw f).plc = s.plc := rfl
@[simp] theorem State.modFw_ring (s : State) (f : Firmware → Firmware) : (s.modFw f).ring = s.ring := rfl
@[simp] theorem State.modFw_sar (s : State) (f : Firmware → Firmware) : (s.modFw f).sar = s.sar := rfl
@[simp] theorem State.modFw_fw (s : State) (f : Firmware → Firmware) : (s.modFw f).fw = f s.fw := rfl
@[simp] theorem State.modFw_pwr (s : State) (f : Firmware → Firmware) : (s.modFw f).pwr = s.pwr := rfl
@[simp] theorem State.modFw_pending (s : State) (f : Firmware → Firmware) : (s.modFw f).pending = s.pending := rfl
@[simp] theorem State.modPwr_clk (s : State) (f : Power → Power) : (s.modPwr f).clk = s.clk := rfl
@[simp] theorem State.modPwr_servo (s : State) (f : Power → Power) : (s.modPwr f).servo = s.servo := rfl
@[simp] theorem State.modPwr_par (s : State) (f : Power → Power) : (s.modPwr f).par = s.par := rfl
@[simp] theorem State.modPwr_host (s : State) (f : Power → Power) : (s.modPwr f).host = s.host := rfl
@[simp] theorem State.modPwr_test (s : State) (f : Power → Power) : (s.modPwr f).test = s.test := rfl
@[simp] theorem State.modPwr_slices (s : State) (f : Power → Power) : (s.modPwr f).slices = s.slices := rfl
@[simp] theorem State.modPwr_courses (s : State) (f : Power → Power) : (s.modPwr f).courses = s.courses := rfl
@[simp] theorem State.modPwr_eng (s : State) (f : Power → Power) : (s.modPwr f).eng = s.eng := rfl
@[simp] theorem State.modPwr_pts (s : State) (f : Power → Power) : (s.modPwr f).pts = s.pts := rfl
@[simp] theorem State.modPwr_recs (s : State) (f : Power → Power) : (s.modPwr f).recs = s.recs := rfl
@[simp] theorem State.modPwr_led (s : State) (f : Power → Power) : (s.modPwr f).led = s.led := rfl
@[simp] theorem State.modPwr_sw (s : State) (f : Power → Power) : (s.modPwr f).sw = s.sw := rfl
@[simp] theorem State.modPwr_saf (s : State) (f : Power → Power) : (s.modPwr f).saf = s.saf := rfl
@[simp] theorem State.modPwr_log (s : State) (f : Power → Power) : (s.modPwr f).log = s.log := rfl
@[simp] theorem State.modPwr_keys (s : State) (f : Power → Power) : (s.modPwr f).keys = s.keys := rfl
@[simp] theorem State.modPwr_disp (s : State) (f : Power → Power) : (s.modPwr f).disp = s.disp := rfl
@[simp] theorem State.modPwr_plc (s : State) (f : Power → Power) : (s.modPwr f).plc = s.plc := rfl
@[simp] theorem State.modPwr_ring (s : State) (f : Power → Power) : (s.modPwr f).ring = s.ring := rfl
@[simp] theorem State.modPwr_sar (s : State) (f : Power → Power) : (s.modPwr f).sar = s.sar := rfl
@[simp] theorem State.modPwr_fw (s : State) (f : Power → Power) : (s.modPwr f).fw = s.fw := rfl
@[simp] theorem State.modPwr_pwr (s : State) (f : Power → Power) : (s.modPwr f).pwr = f s.pwr := rfl
@[simp] theorem State.modPwr_pending (s : State) (f : Power → Power) : (s.modPwr f).pending = s.pending := rfl
@[simp] theorem State.modPending_clk (s : State) (f : List Instr → List Instr) : (s.modPending f).clk = s.clk := rfl
@[simp] theorem State.modPending_servo (s : State) (f : List Instr → List Instr) : (s.modPending f).servo = s.servo := rfl
@[simp] theorem State.modPending_par (s : State) (f : List Instr → List Instr) : (s.modPending f).par = s.par := rfl
@[simp] theorem State.modPending_host (s : State) (f : List Instr → List Instr) : (s.modPending f).host = s.host := rfl
@[simp] theorem State.modPending_test (s : State) (f : List Instr → List Instr) : (s.modPending f).test = s.test := rfl
@[simp] theorem State.modPending_slices (s : State) (f : List Instr → List Instr) : (s.modPending f).slices = s.slices := rfl
@[simp] theorem State.modPending_courses (s : State) (f : List Instr → List Instr) : (s.modPending f).courses = s.courses := rfl
@[simp] theorem State.modPending_eng (s : State) (f : List Instr → List Instr) : (s.modPending f).eng = s.eng := rfl
@[simp] theorem State.modPending_pts (s : State) (f : List Instr → List Instr) : (s.modPending f).pts = s.pts := rfl
@[simp] theorem State.modPending_recs (s : State) (f : List Instr → List Instr) : (s.modPending f).recs = s.recs := rfl
@[simp] theorem State.modPending_led (s : State) (f : List Instr → List Instr) : (s.modPending f).led = s.led := rfl
@[simp] theorem State.modPending_sw (s : State) (f : List Instr → List Instr) : (s.modPending f).sw = s.sw := rfl
@[simp] theorem State.modPending_saf (s : State) (f : List Instr → List Instr) : (s.modPending f).saf = s.saf := rfl
@[simp] theorem State.modPending_log (s : State) (f : List Instr → List Instr) : (s.modPending f).log = s.log := rfl
@[simp] theorem State.modPending_keys (s : State) (f : List Instr → List Instr) : (s.modPending f).keys = s.keys := rfl
@[simp] theorem State.modPending_disp (s : State) (f : List Instr → List Instr) : (s.modPending f).disp = s.disp := rfl
@[simp] theorem State.modPending_plc (s : State) (f : List Instr → List Instr) : (s.modPending f).plc = s.plc := rfl
@[simp] theorem State.modPending_ring (s : State) (f : List Instr → List Instr) : (s.modPending f).ring = s.ring := rfl
@[simp] theorem State.modPending_sar (s : State) (f : List Instr → List Instr) : (s.modPending f).sar = s.sar := rfl
@[simp] theorem State.modPending_fw (s : State) (f : List Instr → List Instr) : (s.modPending f).fw = s.fw := rfl
@[simp] theorem State.modPending_pwr (s : State) (f : List Instr → List Instr) : (s.modPending f).pwr = s.pwr := rfl
@[simp] theorem State.modPending_pending (s : State) (f : List Instr → List Instr) : (s.modPending f).pending = f s.pending := rfl

end Sys2Proof.Machine
end

