-- ==== Sys2Proof/Tests/Slice0.lean ====
section
/-!
SUPPORT. The package's own tests: ill-formed commands that `Instr.wf` refuses; small checks of one command each against what the
rules say; and for every statement with hypotheses a state and operands that meet them, clause by clause.
-/

namespace Sys2Proof.Tests

set_option Elab.async false

open Sys2Proof.Machine

/-! ### A running machine -/

/-- The header of a test's requests: mailbox 0, tag 7, no flags, over QSPI. -/
abbrev hd : Hdr := ⟨0, 7, 0, false⟩

/-- A node in operation a second after its frame counter's 0: both dies run, metering and the mailbox service are up, every
parameter stands at its default. -/
def up : State := { State.reset with
  clk := { Clock.reset with up := 1000000000, frame := 4000, loaded := true, lastTick := 1000000000 }
  host := { HostPort.reset with capo := true, metering := true, ready := true }
  sw := { SwitchDie.reset with powered := true, phase := 0, armed := true, link := true, lastGood := some 1000000000, window := 20 }
  saf := { Safety.reset with live := true }
  fw := { Firmware.reset with svcRunning := true }
  pwr := { Power.reset with coreOn := true, coreHeld := 0, stage := 6, capoOn := true } }

/-- `up` with parameter values that differ from their defaults. -/
def cfg (l : List (Nat × Nat × Int)) : State := up.modPar (fun x => { x with stored := l, active := l })

/-- An AC outlet at point 15. -/
def ac : State := cfg [(PT_TYPE, 15, 1)]

/-- Its session in a state. -/
def ses (st : SessState) : State := ac.modSes 15 (fun x => { x with state := st })

/-- `up` with the test window unlocked and every group of actions allowed. -/
def unlocked : State := (cfg [(ND_TEST_ALLOW, 0, 255)]).modTest (fun x => { x with unlocked := true })

/-- `Sound` as a check. -/
def soundB (s : State) : Bool :=
  s.host.mbx.length == 8 && s.host.mbx.all (fun b => !b.req || !b.rsp) && s.host.streams.length == 4 &&
  (List.range 4).all (fun k => let f := s.host.streams.getD k Fifo.reset
    decide (f.rptr < 2 ^ (streamBits k + 1)) && f.wptr == (f.rptr + f.words.length) % 2 ^ (streamBits k + 1)) &&
  s.host.events.length == 64 && s.host.events.all (fun q => decide (q.details.length ≤ 8)) &&
  (s.test.unlocked || (s.test.regs == TestRegs.reset && s.test.eff.safAction == 0)) &&
  s.servo.ttos.length == 8 && s.servo.tcis.length == 4 && s.keys.pts.length == 16 && s.keys.tls.length == 16 &&
  s.slices.length == 128 && s.courses.length == 64 && s.pts.length == 16 && s.sw.ch.length == 32 && s.saf.ins.length == 32 &&
  s.saf.entries.length == 16 && s.sar.conv.length == 4 && s.plc.ports.length == 18 && decide (s.ring.faults.length ≤ 16)

theorem getD_of_all {α : Type} {P : α → Prop} {l : List α} {d : α} (hl : ∀ x ∈ l, P x) (hd : P d) (m : Nat) :
    P (l.getD m d) := by
  rw [List.getD_eq_getElem?_getD]
  cases h : l[m]? with
  | none => simpa using hd
  | some x => simpa using hl x (List.mem_of_getElem? h)

theorem sound_of {s : State} (h : soundB s = true) : Sound s := by
  simp only [soundB, Bool.and_eq_true, Bool.or_eq_true, beq_iff_eq, decide_eq_true_eq, List.all_eq_true, List.mem_range,
    Bool.not_eq_true'] at h
  obtain ⟨⟨⟨⟨⟨⟨⟨⟨⟨⟨⟨⟨⟨⟨⟨⟨⟨⟨⟨h1, h2⟩, h3⟩, h4⟩, h5⟩, h6⟩, h7⟩, h8⟩, h9⟩, h10⟩, h11⟩, h12⟩, h13⟩, h14⟩, h15⟩, h16⟩, h17⟩,
    h18⟩, h19⟩, h20⟩ := h
  refine ⟨⟨h1, getD_of_all (P := boxOk) (fun b hb hr => ?_) (by decide), h3, fun k hk => ⟨(h4 k hk).1, (h4 k hk).2⟩, h5,
    getD_of_all (P := fun q : EventQueue => q.details.length ≤ 8) h6 (by decide)⟩, fun hu => ?_, h8, h9, h10, h11, h12, h13, h14, h15, h16, h17,
    h18, h19, h20⟩
  · have := h2 b hb; simpa [hr] using this
  · simpa [hu] using h7

/-- `Taken` as a check. -/
def takenB (s : State) (code : Nat) (h : Hdr) (p : Bytes) : Bool :=
  s.pwr.coreOn && s.serving && !s.fw.recovery && decide (h.mbx < 8) && decide (h.tag < 65536) && h.flags == 0 &&
  s.mboxFree h.mbx && reservedZero code p && decide (p.length ≤ 248)

theorem taken_of {s : State} {code : Nat} {h : Hdr} {p : Bytes} (k : takenB s code h p = true) : Taken s code h p := by
  simp only [takenB, Bool.and_eq_true, Bool.not_eq_true', decide_eq_true_eq, beq_iff_eq] at k
  obtain ⟨⟨⟨⟨⟨⟨⟨⟨k1, k2⟩, k3⟩, k4⟩, k5⟩, k6⟩, k7⟩, k8⟩, k9⟩ := k
  exact ⟨k1, k2, k3, k4, k5, k6, k7, k8, k9⟩

theorem forall_getD {a b : List Nat} {n : Nat} (ha : a.length = n) (hb : b.length = n) {P : Nat → Nat → Nat → Prop}
    (h : ∀ i, i < n → P i (a.getD i 0) (b.getD i 0)) (h0 : ∀ i, P i 0 0) (i : Nat) : P i (a.getD i 0) (b.getD i 0) := by
  by_cases hi : i < n
  · exact h i hi
  · rw [List.getD_eq_default _ _ (by omega), List.getD_eq_default _ _ (by omega)]
    exact h0 i

theorem none_forall {o : Option Nat} {P : Nat → Prop} (h : o = none) : ∀ d, o = some d → P d := by
  intro d hd
  rw [h] at hd
  cases hd

/-- A journal slot and a journal that holds it, unacknowledged. -/
def js : JSlot := ⟨3, 16, 0, [], 0, false⟩

def jr : State := up.modRecs (fun x => { x with journal := [js] })

/-- A ledger entry with 5 in every register of every point, and a node with these registers that has saved it. -/
def ledY : LedgerPoint := { LedgerPoint.reset with regs := List.replicate 38 5 }

def ledE : LedgerEntry := { LedgerEntry.reset with gen := 1, pts := List.replicate 16 ledY }

def led : State := (up.modLed (fun x => { x with slots := [some ledE, none, none, none] })).modPt 15 (fun x => { x with
  regs := List.replicate 38 5, advBase := List.replicate 38 5 })

theorem up_sound : Sound up := sound_of (by decide +kernel)

/-! ### Well-formedness -/

/-- A header whose mailbox the part does not have. -/
abbrev hdBad : Hdr := ⟨8, 0, 0, false⟩

/-- One command for every kind of thing that a command names, by its last number. -/
theorem test_wf_accepts_last_of_each_kind :
    ([.identity ⟨7, 65535, 65535, true⟩ (zeros 248), .streamFlush 3 0, .modulatorRestart 0 127, .courseDiagRepeat 0 63,
      .weldCleared 0 15, .safetyDiscrepancyLatch 0 31, .overloadTimeout 0 31, .sealChange 5 7 true 5, .safetyMessageSend 0 15,
      .ttoEdge 0 7, .tciEdge 0 3 true 0, .sarTimerTick 0 7, .sarSelftestRun 0 3, .testStretchWrite 7 0, .ringFlush 0 1,
      .preambleDetected 0 17 0, .safetyAutoRelease 0 48, .ptpMessageTransmit 0 2 2, .beaconTimeout 0 4095, .railRestartTrip 0 2 0,
      .requestPart hd 65535 [], .registerWrite 65535 0 false, .residualTrip 5 0 5 (List.replicate 25 0), .sensorFaultDeclared 0 0 16 0,
      .sarConversionComplete 5 0 4095 5, .displayOvercurrent 0 255, .holdupMerge 0 [3] [1] [1] []] : List Instr).all Instr.wf =
      true := by decide +kernel

/-- The number after the last one, for every kind. -/
theorem test_wf_refuses_numbers_beyond_the_last :
    ([.identity hdBad [], .mailboxRelease 8 false, .streamFlush 4 0, .modulatorRestart 0 128, .courseDiagRepeat 0 64,
      .weldCleared 0 16, .safetyDiscrepancyLatch 0 32, .overloadTimeout 0 32, .sealChange 5 8 true 5, .safetyMessageSend 0 16,
      .ttoEdge 0 8, .tciEdge 0 4 true 0, .sarTimerTick 0 8, .sarSelftestRun 0 4, .testStretchWrite 8 0, .ringFlush 0 2,
      .preambleDetected 0 18 0, .safetyAutoRelease 0 49, .ptpMessageTransmit 0 3 2, .beaconTimeout 0 4096,
      .railRestartTrip 0 3 0] : List Instr).all (fun i => !i.wf) = true := by decide

/-- An input that stands at zero. -/
abbrev zeros1 (n : Nat) : List Int := List.replicate n 0

/-- Every other check. -/
theorem test_wf_refuses_other_operands :
    ([.identity ⟨0, 65536, 0, false⟩ [], .identity ⟨0, 0, 65536, false⟩ [], .identity hd (zeros 249), .requestPart hd 65536 [],
      .responsePartRead hd 65536 [], .registerWrite 65536 0 false, .hethDatagram 0 ⟨0, 0, 0, 0, 256, 0, 0, 0, [], []⟩,
      .hethDatagram 0 ⟨0, 0, 0, 0, 0, 0, 65536, 0, [], []⟩, .hethDatagram 0 ⟨0, 0, 0, 0, 0, 0, 0, 65536, [], []⟩,
      .hethDatagram 0 ⟨0, 0, 0, 0, 0, 65536, 0, 0, [], []⟩, .frameTick 0 ⟨[⟨128, zeros1 2048, [], [], zeros1 25⟩], [], []⟩, .frameTick 0 ⟨[⟨0, zeros1 2047, [], [], zeros1 25⟩], [], []⟩,
      .frameTick 0 ⟨[⟨0, zeros1 2048, [], [], zeros1 24⟩], [], []⟩,
      .frameTick 0 ⟨[], [148], []⟩, .residualTrip 5 0 6 [], .residualTrip 5 0 0 (zeros1 26), .sensorFaultDeclared 0 0 8 0,
      .sensorFaultCleared 0 0 18 0, .beaconReceived 0 ⟨18, 0, 0, 0, 0, 0, 0, 0, 0, false⟩, .sarTriggerFire 0 0 32,
      .sarConversionComplete 5 0 4096 5, .sarConversionComplete 5 0 0 6, .monitorScan 0 ⟨0, 0, 0, 0, 0, 0, 0, [(16, 0)]⟩,
      .sarSelftestComplete 0 0 [0], .cmSlacParmReq 0 0 [16], .slacRunJudged 0 0 [(16, [])] [],
      .plcTurn 0 [⟨18, true, false, 0, false, 0, 0, 0, 0, 0, 0, [], false, []⟩], .sealChange 5 0 true 6, .openLoadDeclared 5 0 6,
      .openLoadCleared 5 0 6, .yudaixFrameReceived 0 ⟨4, 0, 0, 0, 0, false, []⟩, .discoveryTokenReceived 0 ⟨4, 0, 0, 0, 0, []⟩,
      .balanceFramePass 0 (zeros 1501), .balanceFrameReturn 0 (zeros 1501), .holdupMerge 0 [4] [] [] [], .holdupMerge 0 [] [2] [] [],
      .holdupMerge 0 [] [] [2] [], .pfwWarning 5 6, .warningEnd 5 6 0, .capoRestart 0 [4] [] [] [] 0 0,
      .capoRestart 0 [] [2] [] [] 0 0, .capoRestart 0 [] [] [2] [] 0 0, .displayOvercurrent 0 160,
      .ptpMessageTransmit 0 0 3] : List Instr).all (fun i => !i.wf) = true := by decide +kernel

/-! ### What one command does -/

/-- The state after a command. -/
def after (i : Instr) (s : State) : State :=
  match exec i s with
  | .next t => t
  | _ => s

/-- All channels with the standard filter, and points of two types. -/
def site (a b : Int) : State := cfg ((List.range 128).map (fun c => (CH_FILTER, c, 1)) ++
  (List.range 8).map (fun p => (PT_TYPE, p, a)) ++ (List.range 8).map (fun p => (PT_TYPE, p + 8, b)))

/-- 02, worked example: eight AC_OUTLET and eight STEAM points in FULL mode cost 82,796 cycles. -/
theorem test_costliest_mixed_site : (site 1 4).costliest 0 = 82796 := by decide +kernel

/-- A stretch of 4,095 cycles. -/
def stretchWord (f : Nat) : BitVec 32 := BitVec.ofNat 32 (2 ^ 31 + f * 4096 + 4095)

def stretched (l : List Nat) : State := (site 1 1).modTest (fun x => { x with eff := { x.eff with stretch := l.map stretchWord } })

/-- 02, worked example: with frets 20, 40, 60 and 80 stretched the cut-off at 96,608 falls in fret 144; without fret 80 none is cut. -/
theorem test_cut_off : (stretched [20, 40, 60, 80]).cutOff 4000 [] = some (144, 96608, 16380) ∧
    (stretched [20, 40, 60]).cutOff 4000 [] = none := by decide +kernel

/-- 01, worked example: TAI second 3,000,637 is a boundary of 15-minute periods at a UTC offset of 37 s; the second before is not. -/
theorem test_period_boundary : let s := (cfg [(ND_PERIOD_LEN, 0, 3)]).modServo (fun v => { v with utc := 37 })
    s.periodAt 12002548000 = true ∧ s.periodAt 12002544000 = false := by decide +kernel

/-- 20, worked example: four entries spelled out byte by byte. -/
theorem test_batch_entries : readEntries ([7, 0, 4, 1,
    0x28, 0x44, 2, 0, 0, 0, 0, 0, 0, 0, 0, 0, 0x30, 0x44, 2, 0, 0x80, 0x84, 0x1E, 0, 0, 0, 0, 0,
    0x00, 0x32, 0x10, 0, 0x93, 0x18, 0x04, 0x40, 0, 0, 0, 0, 0x06, 0x32, 0x10, 0, 0, 0, 0, 0, 0, 0, 0, 0]) =
    [⟨PT_FL_LRV_0, 2, 0⟩, ⟨PT_FL_URV_0, 2, 2000000⟩, ⟨CH_CAL_GAIN_G0, 16, 0x40041893⟩, ⟨CH_CAL_OFFSET_G0, 16, 0⟩] := by
  decide +kernel

/-- 20, worked example: a commit at TAI second 3,000,000.9994 takes effect with frame 12,000,008,000. -/
theorem test_first_boundary_a_millisecond_on : (up.modClk (fun c => { c with
    frame := 12000003997, lastTick := 0, up := 150000 })).nextBoundary = 12000008000 := by decide +kernel

/-- R20: the range 0.9–1.1 of a u2.30 is 0x3999_999A to 0x4666_6666. -/
theorem test_range_rounded_inward : (rowOf CH_CAL_GAIN_G0).map (fun r => [0x39999999, 0x3999999A, 0x46666666, 0x46666667].map
    (inRow r)) = some [false, true, true, false] := by decide

/-- R102: 0x22 and 0x40 are gains, and a ratio of 32 is excluded. -/
theorem test_gain_codes : [0x22, 0x40, 0x50].map gainValid = [true, true, false] := by decide

/-- R297: 16.0 A gives a duty of 26.65 %, in 0.05 %. -/
theorem test_pilot_duty : dutyOf 160 = 533 := by decide

/-- R364: the check value of the CRC over "123456789". -/
theorem test_crc32c : crc32c [0x31, 0x32, 0x33, 0x34, 0x35, 0x36, 0x37, 0x38, 0x39] = 0xE3069283 := by decide +kernel

/-- SHA-256 of "abc", by FIPS 180-4. -/
theorem test_sha256 : (sha256 [97, 98, 99]).take 4 = [0xba, 0x78, 0x16, 0xbf] := by decide +kernel

/-- 08, worked example: the compression factor of air at 801,325 Pa and 25 °C, 0.997479. -/
theorem test_air_factor : (airZ (801325 * 2 ^ 60) (5963 * 2 ^ 60 / 20) * 10000000 / 2 ^ 60 + 5) / 10 = 997479 := by decide +kernel

/-- 11, worked example: the three phases of band 4 balance; without the last they do not. -/
theorem test_waveform_balance : waveValid [⟨40, 2, 0, 4, 2⟩, ⟨200, 2, 4, 0, 2⟩, ⟨320, 2, 1, 3, 2⟩] = true ∧
    waveValid [⟨40, 2, 0, 4, 2⟩, ⟨200, 2, 4, 0, 2⟩] = false := by decide +kernel

/-- Ports 3 and 4 wait for SLAC run 7. -/
def slacSite : State := ((cfg [(PT_TYPE, 3, 1), (PT_OUT_HLC, 3, 1), (PT_TYPE, 4, 1), (PT_OUT_HLC, 4, 1)]).modOut 3 (fun o => { o with
  duty := 100, code := 1, slacPending := [7] })).modOut 4 (fun o => { o with duty := 100, code := 1, slacPending := [7] })

/-- 12, worked example: 24 dB against 31 dB matches port 4; 27 dB matches none. -/
theorem test_slac_margin :
    ((after (.slacRunJudged 0 7 [(3, [31]), (4, [24])] []) slacSite).outOf 4).slacMatched = some 7 ∧
    ((after (.slacRunJudged 0 7 [(3, [31]), (4, [27])] []) slacSite).outOf 4).slacMatched = none := by decide +kernel

/-- The symbols of the turn in 13's worked example. -/
def turnSyms : List Sym :=
  let y := fun (port : Nat) (tx alt : Bool) => (⟨port, tx, alt, 0, false, 15, 0, 0, 0, 0, 0, [], false, []⟩ : Sym)
  [y 17 true false, y 16 false false] ++ (List.range 16).map (fun p => y p false false) ++
    (List.range 10).map (fun k => y (k + 6) false true)

def plcSite : State := ((cfg ((List.range 16).map (fun p => (PT_TYPE, p, 1)) ++ (List.range 16).map (fun p => (PT_OUT_HLC, p, 1)) ++
  [(ND_PLC_MAINS, 0, 3), (ND_PLC_FC_ALT, 0, 1)])).modPlc (fun x => { x with
    borrow := true, ports := x.ports.mapIdx (fun i q => { q with stream := some (i == 17) }) }))

/-- 13, worked example: with 22 slots ports 10–15 drop one alternate each, and ports 6–9 none. -/
theorem test_alternates_dropped : ((after (.plcTurn 0 turnSyms) plcSite).plc.ports.map (fun q => q.alts)) =
    [0, 0, 0, 0, 0, 0, 0, 0, 0, 0, 1, 1, 1, 1, 1, 1, 0, 0] := by decide +kernel

/-- The returned frame of 17's worked example. -/
def balanceSums : Bytes := zeros 112 ++ le 6 4300000 ++ le 6 4234770 ++ le 2 3 ++ le 2 0

/-- 17, worked example: at the third interval group 5 reads 15,170 ppm with status 0b11. -/
theorem test_balance_result : let s := (cfg [(ND_BAL_TOL_ABS_0 + 5, 0, 20000), (ND_BAL_TOL_PPM_0 + 5, 0, 10000),
      (ND_BAL_RUN, 0, 3)]).modRing (fun r => { r with runs := [⟨5, true, 2, false⟩] })
    (s.judge true balanceSums 5).1.result = 15170 * 256 + 3 := by decide +kernel

/-- 15, worked example: SI8A and SI8B have disagreed since 1.0 ms; with 50 ms the discrepancy latches at 51.0 ms and not before. -/
theorem test_discrepancy : let s := (cfg [(PT_TYPE, 4, 3), (PT_SI_MODE_0, 4, 1), (PT_SI_TD_0, 4, 50)]).modSafIn 8 (fun x => { x with
      disFrom := some 1000000 })
    ((after (.safetyDiscrepancyLatch 50999999 8) s).safIn 8).latched = false ∧
    ((after (.safetyDiscrepancyLatch 51000000 8) s).safIn 8).latched = true := by decide +kernel

/-- 14, worked example: the latch that releases at 160 °C retries without delay, and the counter goes from 1 to 0. -/
theorem test_thermal_release : let s := (cfg [(PT_TYPE, 3, 6)]).modSwch 6 (fun c => { c with therm := true, retries := 1, cmd := true })
    ((after (.thermalRelease 2000000000 6 1600) s).swch 6).retries = 0 ∧
    ((after (.thermalRelease 2000000000 6 1600) s).swch 6).therm = false ∧
    ((after (.thermalRelease 2000000000 6 1651) s).swch 6).therm = true := by decide +kernel

/-- Table 20.4: identity begins with vendor 0x4749 and device 0x9128, and the response header repeats code and tag. -/
theorem test_identity : ((after (.identity hd []) up).mbox 0).resp.take 4 = [0x01, 0x01, 7, 0] ∧
    (((after (.identity hd []) up).mbox 0).resp.drop 8).take 4 = [0x49, 0x47, 0x28, 0x91] := by decide +kernel

/-- R520: test-unlock asks for SEAL2 closed; while it is open the answer is an error and the window stays locked. -/
theorem test_unlock_sealed : ((after (.testUnlock hd []) up).mbox 0).error = true ∧
    (after (.testUnlock hd []) up).test.unlocked = false ∧
    (after (.testUnlock hd []) (up.modSaf (fun x => { x with seals := 4 }))).test.unlocked = true := by decide +kernel

/-- Table 19.3: a write of 1 clears a pending event, a write of 0 leaves it. -/
theorem test_event_clear : (after (.eventClear false 4) (up.modHost (fun h => { h with pend := 5 }))).host.pend = 1 := by
  decide +kernel

/-- R457: bytes 0–3 are the word, least significant first, and bit 2 of byte 4 marks the last of a record. -/
theorem test_stream_read : (after (.streamPortRead 1 false) (up.modStream 1 (fun f => { f with
    words := [(0x04030201, true, false)], wptr := 1 }))).host.lastRead = [1, 2, 3, 4, 4] := by decide +kernel

/-- R454: a read of an empty stream delivers the tag underrun. -/
theorem test_stream_underrun : (after (.streamPortRead 1 false) up).host.lastRead.getD 4 0 = 2 := by decide +kernel

/-- R39: a frame tick advances the frame counter by one, and only when 250 µs have passed. -/
theorem test_frame_tick : (after (.frameTick 1000250000 ⟨[], [], []⟩) up).clk.frame = 4001 ∧
    (after (.frameTick 1000249999 ⟨[], [], []⟩) up).clk.frame = 4000 := by decide +kernel

/-- Table 9.6: session-request takes IDLE to AUTHORISING, session-reject back to IDLE. -/
theorem test_session_request : ((after (.sessionRequest hd [15]) ac).sesOf 15).state = .authorising ∧
    ((after (.sessionReject hd [15]) (ses .authorising)).sesOf 15).state = .idle := by decide +kernel

/-- 01 Table 1.5: a safety hold on a channel that is on forces it off at once. -/
theorem test_safety_hold : ((((up.modSwch 31 (fun c => { c with on := true, cmd := true })).holdSi 31 31).swch 31).on) = false := by
  decide +kernel

/-- R520: outside the unlocked window a write to it changes nothing. -/
theorem test_locked_write : after (.testFifoWrite 0xFFFFFFFF) up = up := by decide +kernel

/-- 22 Table 22.4: RESETn of 10 µs resets the core die and leaves the switch die powered. -/
theorem test_resetn : (after (.resetnAssert 2000000000 10000 true) up).pwr.coreOn = false ∧
    (after (.resetnAssert 2000000000 10000 true) up).sw.powered = true := by decide +kernel

/-- The block's interface to the host's checks: the table spells no words. -/
theorem test_table_spells_no_words : decodeTableWord 32 0 = none := by decide

/-! ### What the statements assume is met -/

/-- What `Obligations.NodeCommandsAnswer` assumes is met. -/
theorem wit_NodeCommandsAnswer :
    (∃ (s : State) (h : Hdr), Sound s ∧ Taken s 0x0101 h []) ∧
    (∃ (s : State) (h : Hdr), Sound s ∧ Taken s 0x0102 h []) ∧
    (∃ (s : State) (h : Hdr) (p : Bytes), Sound s ∧ Taken s 0x0103 h p ∧ p.length = 1 ∧ fld p 0 1 < 64) ∧
    (∃ (s : State) (h : Hdr), Sound s ∧ Taken s 0x0104 h [] ∧ s.saf.seals.testBit 0 = true ∧ s.allIdle = true ∧
      s.journalUnacked = 0 ∧ s.log.unacked = 0 ∧ s.logFull 1 = false) :=
  ⟨⟨up, hd, up_sound, taken_of (by decide +kernel)⟩,
   ⟨up, hd, up_sound, taken_of (by decide +kernel)⟩,
   ⟨up, hd, [63], up_sound, taken_of (by decide +kernel), by decide +kernel⟩,
   ⟨up.modSaf (fun x => { x with seals := 1 }), hd, sound_of (by decide +kernel), taken_of (by decide +kernel), by decide +kernel⟩⟩

/-- What `Obligations.RecordCommandsAnswer` assumes is met. -/
theorem wit_RecordCommandsAnswer :
    (∃ (s : State) (h : Hdr) (p : Bytes) (k : Nat), Sound s ∧ (k = if fld p 0 1 = 0xFF then 16 else fld p 0 1) ∧
      Taken s 0x0401 h p ∧ p.length = 6 ∧ k < 17 ∧ (fld p 0 1 < 16 ∨ fld p 0 1 = 0xFF) ∧ s.reached k (fld p 2 4) = true) ∧
    (∃ (s : State) (h : Hdr) (p : Bytes) (k : Nat), Sound s ∧ (k = if fld p 0 1 = 0xFF then 16 else fld p 0 1) ∧
      Taken s 0x0402 h p ∧ p.length = 6 ∧ (fld p 0 1 < 16 ∨ fld p 0 1 = 0xFF) ∧ s.reached k (fld p 2 4) = true) ∧
    (∃ (s : State) (h : Hdr) (p : Bytes) (k : Nat), Sound s ∧ (k = if fld p 0 1 = 0xFF then 16 else fld p 0 1) ∧
      Taken s 0x0403 h p ∧ p.length = 4 ∧ fld p 0 4 < s.log.next) ∧
    (∃ (s : State) (h : Hdr) (p : Bytes) (k : Nat), Sound s ∧ (k = if fld p 0 1 = 0xFF then 16 else fld p 0 1) ∧
      Taken s 0x0404 h p ∧ p.length = 4 ∧ fld p 0 4 < s.log.next) ∧
    (∃ (s : State) (h : Hdr) (p : Bytes) (k : Nat), Sound s ∧ (k = if fld p 0 1 = 0xFF then 16 else fld p 0 1) ∧
      Taken s 0x0405 h []) :=
  ⟨⟨up.modRecs (fun x => { x with nodeNext := 1 }), hd, [255, 0, 0, 0, 0, 0], 16, sound_of (by decide +kernel), by decide +kernel,
    taken_of (by decide +kernel), by decide +kernel⟩,
   ⟨up.modRecs (fun x => { x with nodeNext := 1 }), hd, [255, 0, 0, 0, 0, 0], 16, sound_of (by decide +kernel), by decide +kernel,
     taken_of (by decide +kernel), by decide +kernel⟩,
   ⟨up.modLog (fun x => { x with next := 1 }), hd, [0, 0, 0, 0], 0, sound_of (by decide +kernel), by decide +kernel,
     taken_of (by decide +kernel), by decide +kernel⟩,
   ⟨up.modLog (fun x => { x with next := 1 }), hd, [0, 0, 0, 0], 0, sound_of (by decide +kernel), by decide +kernel,
     taken_of (by decide +kernel), by decide +kernel⟩,
   ⟨up, hd, [], 0, up_sound, by decide +kernel, taken_of (by decide +kernel)⟩⟩

/-- What `Obligations.KeyCommandsAnswer` assumes is met. -/
theorem wit_KeyCommandsAnswer :
    (∃ (s : State) (h : Hdr) (q : Nat), Sound s ∧ q < 16 ∧ Taken s 0x0501 h []) ∧
    (∃ (s : State) (h : Hdr) (q : Nat), Sound s ∧ q < 16 ∧ (∃ c, (c = 2 ∨ c = 4) ∧ Taken s 0x0502 h [1, byteOf c, byteOf q] ∧
      s.logFull 1 = false ∧ (s.keyState c q).invalid = false ∧ (c = 2 → (s.sesOf q).state = .idle))) ∧
    (∃ (s : State) (h : Hdr) (p : Bytes) (q : Nat), Sound s ∧ q < 16 ∧ Taken s 0x0502 h p ∧ p.length = 1 + 2 * fld p 0 1 ∧
      0 < fld p 0 1 ∧ fld p 0 1 ≤ 33 ∧ (∀ x ∈ keyList p, keyNamed false x.1 x.2 = 0) ∧ s.logFull 33 = false) ∧
    (∃ (s : State) (h : Hdr) (q : Nat), Sound s ∧ q < 16 ∧ Taken s 0x0502 h [1, 1, 0xFF] ∧ s.logFull 33 = false ∧
      s.keys.node.invalid = false) ∧
    (∃ (s : State) (h : Hdr) (p : Bytes) (q : Nat), Sound s ∧ q < 16 ∧ Taken s 0x0503 h p ∧ p.length = 1 + 2 * fld p 0 1 ∧
      0 < fld p 0 1 ∧ fld p 0 1 ≤ 33 ∧ (keyList p).Nodup ∧ (∀ x ∈ keyList p, keyNamed false x.1 x.2 = 0 ∧
      (s.keyState x.1 x.2).invalid = true ∧ (s.keyState x.1 x.2).gen < 65535) ∧ s.logFull (fld p 0 1) = false) ∧
    (∃ (s : State) (h : Hdr) (q : Nat), Sound s ∧ q < 16 ∧ Taken s 0x0504 h []) ∧
    (∃ (s : State) (h : Hdr) (p : Bytes) (q : Nat), Sound s ∧ q < 16 ∧ Taken s 0x0505 h p ∧ p.length = 18 ∧
      keyNamed true (fld p 0 1) (fld p 1 1) = 0 ∧ s.keys.regenFail = false ∧ s.keys.queue.length < 4) ∧
    (∃ (s : State) (h : Hdr) (p : Bytes) (q : Nat), Sound s ∧ q < 16 ∧ (∃ x, Taken s 0x0506 h p ∧ p.length = 8 ∧ fld p 0 1 = 0 ∧
      (s.keys.ready.find? (fun x => x.1 == fld p 2 2) = some x))) ∧
    (∃ (s : State) (h : Hdr) (p : Bytes) (q : Nat), Sound s ∧ q < 16 ∧ (∃ c, Taken s 0x0506 h p ∧ p.length = 8 ∧ fld p 0 1 = 1 ∧
      fld p 1 1 = q ∧ ((s.sesOf q).certs.find? (fun c => fld c 40 4 == fld p 4 4) = some c))) ∧
    (∃ (s : State) (h : Hdr) (q : Nat), Sound s ∧ q < 16 ∧ Taken s 0x0507 h []) ∧
    (∃ (s : State) (h : Hdr) (p : Bytes) (q : Nat), Sound s ∧ q < 16 ∧ (∃ l r c n, (c = 4 ∨ c = 5) ∧ 1 ≤ n ∧ n ≤ 3 ∧
      Taken s 0x0508 h (byteOf q :: byteOf c :: byteOf n :: p) ∧ s.isOutlet q = true ∧ readCerts n p = some l ∧
      (∀ x ∈ l, x.length ≤ 1024) ∧ s.keys.regenFail = false ∧ (s.keyState c q).invalid = false ∧ s.keys.root = some r)) ∧
    (∃ (s : State) (h : Hdr) (q : Nat), Sound s ∧ q < 16 ∧ Taken s 0x0509 h [] ∧ s.saf.seals.testBit 0 = true ∧
      s.logFull 1 = false) ∧
    (∃ (s : State) (h : Hdr) (p : Bytes) (q : Nat), Sound s ∧ q < 16 ∧ (∃ r, Taken s 0x050A h p ∧ p.length = 2 ∧
      keyNamed true (fld p 0 1) (fld p 1 1) = 0 ∧ s.keys.root = some r ∧ s.keys.regenFail = false)) :=
  ⟨⟨up, hd, 15, up_sound, by decide +kernel, taken_of (by decide +kernel)⟩,
   ⟨up, hd, 15, up_sound, by decide +kernel, 4, by decide +kernel, taken_of (by decide +kernel), by decide +kernel⟩,
   ⟨up, hd, [1, 4, 15], 0, up_sound, by decide +kernel, taken_of (by decide +kernel), by decide +kernel⟩,
   ⟨up, hd, 0, up_sound, by decide +kernel, taken_of (by decide +kernel), by decide +kernel⟩,
   ⟨up.modKey 1 255 (fun k => { k with invalid := true }), hd, [1, 1, 255], 0, sound_of (by decide +kernel), by decide +kernel,
     taken_of (by decide +kernel), by decide +kernel⟩,
   ⟨up, hd, 0, up_sound, by decide +kernel, taken_of (by decide +kernel)⟩,
   ⟨up, hd, [1, 255] ++ zeros 16, 0, up_sound, by decide +kernel, taken_of (by decide +kernel), by decide +kernel⟩,
   ⟨up.modKeys (fun k => { k with ready := [(5, [])] }), hd, [0, 0, 5, 0, 0, 0, 0, 0], 0, sound_of (by decide +kernel),
     by decide +kernel, (5, []), taken_of (by decide +kernel), by decide +kernel⟩,
   ⟨ac.modSes 15 (fun x => { x with certs := [zeros 44] }), hd, [1, 15, 0, 0, 0, 0, 0, 0], 15, sound_of (by decide +kernel),
     by decide +kernel, zeros 44, taken_of (by decide +kernel), by decide +kernel⟩,
   ⟨up, hd, 0, up_sound, by decide +kernel, taken_of (by decide +kernel)⟩,
   ⟨ac.modKeys (fun k => { k with root := some [] }), hd, [0, 0], 15, sound_of (by decide +kernel), by decide +kernel, [[]], [],
     4, 1, by decide +kernel, by decide +kernel, by decide +kernel, taken_of (by decide +kernel), by decide +kernel⟩,
   ⟨up.modSaf (fun x => { x with seals := 1 }), hd, 0, sound_of (by decide +kernel), by decide +kernel,
     taken_of (by decide +kernel), by decide +kernel⟩,
   ⟨up.modKeys (fun k => { k with root := some [] }), hd, [1, 255], 0, sound_of (by decide +kernel), by decide +kernel, [],
     taken_of (by decide +kernel), by decide +kernel⟩⟩

/-- What `Obligations.ParameterCommandsAnswer` assumes is met. -/
theorem wit_ParameterCommandsAnswer :
    (∃ (s : State) (h : Hdr) (p : Bytes), Sound s ∧ Taken s 0x0201 h p ∧ 0 < p.length ∧ p.length ≤ 60 ∧ p.length % 4 = 0) ∧
    (∃ (s : State) (h : Hdr) (p : Bytes), Sound s ∧ (∃ r, Taken s 0x0203 h p ∧ p.length = 4 ∧ rowOf (fld p 0 2) = some r ∧
      fld p 2 2 ≤ maxInstance (fld p 0 2))) ∧
    (∃ (s : State) (h : Hdr) (p : Bytes), Sound s ∧ Taken s 0x0204 h p ∧ p.length = 2) ∧
    (∃ (s : State) (h : Hdr) (p : Bytes), Sound s ∧ 
      let all := (match s.par.batch with | some b => b.entries | none => []) ++ readEntries p
      
      let fits := 4 ≤ p.length ∧ p.length ≤ 244 ∧ (p.length - 4) % 12 = 0 ∧ fld p 3 1 = 0 ∧ all.length ≤ 1024 ∧
        (match s.par.batch with | some b => b.num = fld p 0 2 | none => True)
      Taken s 0x0202 h p ∧ fits) ∧
    (∃ (s : State) (h : Hdr) (p : Bytes), Sound s ∧ 
      let all := (match s.par.batch with | some b => b.entries | none => []) ++ readEntries p
      
      let fits := 4 ≤ p.length ∧ p.length ≤ 244 ∧ (p.length - 4) % 12 = 0 ∧ fld p 3 1 = 0 ∧ all.length ≤ 1024 ∧
        (match s.par.batch with | some b => b.num = fld p 0 2 | none => True)
      Taken s 0x0202 h (withFlags 2 p) ∧ fits) ∧
    (∃ (s : State) (h : Hdr) (p : Bytes), Sound s ∧ 
      let all := (match s.par.batch with | some b => b.entries | none => []) ++ readEntries p
      
      let fits := 4 ≤ p.length ∧ p.length ≤ 244 ∧ (p.length - 4) % 12 = 0 ∧ fld p 3 1 = 0 ∧ all.length ≤ 1024 ∧
        (match s.par.batch with | some b => b.num = fld p 0 2 | none => True)
      
      let passes := fun bits =>
        let x := (s.accept 0x0202 h (withFlags bits p)).closeBatch
        let g := x.future (x.batchValues all)
        duplicated (all.map entryValue) = false ∧ x.firstFailure g 0 all = none ∧ g.crossOk = true ∧
        x.logFull (logCount (x.batchValues all)) = false ∧ g.admission.1 = 0
      Taken s 0x0202 h (withFlags 5 p) ∧ fits ∧ passes 5) ∧
    (∃ (s : State) (h : Hdr) (p : Bytes), Sound s ∧ 
      let all := (match s.par.batch with | some b => b.entries | none => []) ++ readEntries p
      
      let fits := 4 ≤ p.length ∧ p.length ≤ 244 ∧ (p.length - 4) % 12 = 0 ∧ fld p 3 1 = 0 ∧ all.length ≤ 1024 ∧
        (match s.par.batch with | some b => b.num = fld p 0 2 | none => True)
      
      let passes := fun bits =>
        let x := (s.accept 0x0202 h (withFlags bits p)).closeBatch
        let g := x.future (x.batchValues all)
        duplicated (all.map entryValue) = false ∧ x.firstFailure g 0 all = none ∧ g.crossOk = true ∧
        x.logFull (logCount (x.batchValues all)) = false ∧ g.admission.1 = 0
      Taken s 0x0202 h (withFlags 1 p) ∧ fits ∧ passes 1) :=
  ⟨⟨up, hd, [0, 0x40, 15, 0], up_sound, taken_of (by decide +kernel), by decide +kernel⟩,
   ⟨up, hd, [0, 0x50, 0, 0], up_sound, _, taken_of (by decide +kernel), by decide +kernel, rfl, by decide +kernel⟩,
   ⟨up, hd, [0, 0], up_sound, taken_of (by decide +kernel), by decide +kernel⟩,
   ⟨up, hd, [1, 0, 0, 0, 1, 0x58, 0, 0, 20, 0, 0, 0, 0, 0, 0, 0], up_sound, taken_of (by decide +kernel), ⟨by decide +kernel,
     by decide +kernel, by decide +kernel, by decide +kernel, by decide +kernel, trivial⟩⟩,
   ⟨up, hd, [1, 0, 0, 0, 1, 0x58, 0, 0, 20, 0, 0, 0, 0, 0, 0, 0], up_sound, taken_of (by decide +kernel), ⟨by decide +kernel,
     by decide +kernel, by decide +kernel, by decide +kernel, by decide +kernel, trivial⟩⟩,
   ⟨up, hd, [1, 0, 0, 0, 1, 0x58, 0, 0, 20, 0, 0, 0, 0, 0, 0, 0], up_sound, taken_of (by decide +kernel), ⟨by decide +kernel,
     by decide +kernel, by decide +kernel, by decide +kernel, by decide +kernel, trivial⟩, ⟨by decide +kernel, by decide +kernel,
     by decide +kernel, by decide +kernel, by decide +kernel⟩⟩,
   ⟨up, hd, [1, 0, 0, 0, 1, 0x58, 0, 0, 20, 0, 0, 0, 0, 0, 0, 0], up_sound, taken_of (by decide +kernel), ⟨by decide +kernel,
     by decide +kernel, by decide +kernel, by decide +kernel, by decide +kernel, trivial⟩, ⟨by decide +kernel, by decide +kernel,
     by decide +kernel, by decide +kernel, by decide +kernel⟩⟩⟩

/-- What `Obligations.SessionCommandsAnswer` assumes is met. -/
theorem wit_SessionCommandsAnswer :
    (∃ (s : State) (h : Hdr) (p : Bytes) (q : Nat), Sound s ∧ q = fld p 0 1 ∧ q < 16 ∧ s.isSession q = true ∧ Taken s 0x0301 h p ∧
      p.length = 1 ∧ (s.sesOf q).state = .idle ∧ (s.pt q).outService = false ∧ s.stored PT_SERVICE q = 0) ∧
    (∃ (s : State) (h : Hdr) (p : Bytes) (q : Nat), Sound s ∧ q = fld p 0 1 ∧ q < 16 ∧ s.isSession q = true ∧ Taken s 0x0302 h p ∧
      p.length = 1 ∧ (s.sesOf q).state = .authorising) ∧
    (∃ (s : State) (h : Hdr) (p : Bytes) (q : Nat), Sound s ∧ q = fld p 0 1 ∧ q < 16 ∧ s.isSession q = true ∧ Taken s 0x0303 h p ∧
      p.length = 1 ∧ (s.sesOf q).state = .authorised) ∧
    (∃ (s : State) (h : Hdr) (p : Bytes) (q : Nat), Sound s ∧ q = fld p 0 1 ∧ q < 16 ∧ s.isSession q = true ∧ Taken s 0x0304 h p ∧
      p.length = 1 ∧ (s.sesOf q).state = .transferring) ∧
    (∃ (s : State) (h : Hdr) (p : Bytes) (q : Nat), Sound s ∧ q = fld p 0 1 ∧ q < 16 ∧ s.isSession q = true ∧ Taken s 0x0305 h p ∧
      p.length = 1 ∧ (s.sesOf q).state = .transferring) ∧
    (∃ (s : State) (h : Hdr) (p : Bytes) (q : Nat), Sound s ∧ q = fld p 0 1 ∧ q < 16 ∧ s.isSession q = true ∧ Taken s 0x0306 h p ∧
      p.length = 1 ∧ (s.sesOf q).state = .fault ∧ (s.sesOf q).endDone = true ∧ s.faultGone q (s.sesOf q).faultCause = true ∧
      (s.isOutlet q = true → (s.outOf q).trip = true → s.pathsQuiet q = true)) ∧
    (∃ (s : State) (h : Hdr) (p : Bytes) (q : Nat), Sound s ∧ q = fld p 0 1 ∧ q < 16 ∧ s.isSession q = true ∧ Taken s 0x0307 h p ∧
      p.length = 36 ∧ fld p 1 1 = 0 ∧ ((s.sesOf q).state = .idle ∨ (s.sesOf q).state = .authorising) ∧ s.mayAuthorise q = 0) ∧
    (∃ (s : State) (h : Hdr) (p : Bytes) (q : Nat), Sound s ∧ q = fld p 0 1 ∧ q < 16 ∧ s.isSession q = true ∧ Taken s 0x0308 h p ∧
      p.length = 20 ∧ fld p 1 1 = 3 ∧ (s.sesOf q).state = .transferring) ∧
    (∃ (s : State) (h : Hdr) (p : Bytes) (q : Nat), Sound s ∧ q = fld p 0 1 ∧ q < 16 ∧ s.isSession q = true ∧ Taken s 0x0309 h p ∧
      p.length = 1) :=
  ⟨⟨ac, hd, [15], 15, sound_of (by decide +kernel), by decide +kernel, by decide +kernel, by decide +kernel,
    taken_of (by decide +kernel), by decide +kernel⟩,
   ⟨ses .authorising, hd, [15], 15, sound_of (by decide +kernel), by decide +kernel, by decide +kernel, by decide +kernel,
     taken_of (by decide +kernel), by decide +kernel⟩,
   ⟨ses .authorised, hd, [15], 15, sound_of (by decide +kernel), by decide +kernel, by decide +kernel, by decide +kernel,
     taken_of (by decide +kernel), by decide +kernel⟩,
   ⟨ses .transferring, hd, [15], 15, sound_of (by decide +kernel), by decide +kernel, by decide +kernel, by decide +kernel,
     taken_of (by decide +kernel), by decide +kernel⟩,
   ⟨ses .transferring, hd, [15], 15, sound_of (by decide +kernel), by decide +kernel, by decide +kernel, by decide +kernel,
     taken_of (by decide +kernel), by decide +kernel⟩,
   ⟨(ses .fault).modSes 15 (fun x => { x with endDone := true, faultCause := 12 }), hd, [15], 15, sound_of (by decide +kernel),
     by decide +kernel, by decide +kernel, by decide +kernel, taken_of (by decide +kernel), by decide +kernel⟩,
   ⟨ac, hd, [15] ++ zeros 35, 15, sound_of (by decide +kernel), by decide +kernel, by decide +kernel, by decide +kernel,
     taken_of (by decide +kernel), by decide +kernel⟩,
   ⟨ses .transferring, hd, [15, 3] ++ zeros 18, 15, sound_of (by decide +kernel), by decide +kernel, by decide +kernel,
     by decide +kernel, taken_of (by decide +kernel), by decide +kernel⟩,
   ⟨ac, hd, [15], 15, sound_of (by decide +kernel), by decide +kernel, by decide +kernel, by decide +kernel,
     taken_of (by decide +kernel), by decide +kernel⟩⟩

/-- What `Obligations.PointCommandsAnswer` assumes is met. -/
theorem wit_PointCommandsAnswer :
    (∃ (s : State) (h : Hdr) (p : Bytes) (q : Nat), Sound s ∧ q = fld p 0 1 ∧ Taken s 0x030A h p ∧ p.length = 1 ∧ q < 16) ∧
    (∃ (s : State) (h : Hdr) (p : Bytes) (q : Nat), Sound s ∧ q = fld p 0 1 ∧ Taken s 0x030B h p ∧ p.length = 3 ∧ q < 16 ∧
      fld p 1 1 < 8 ∧ fld p 2 1 < 2 ∧ s.pqOn q = true ∧ (s.winRoles q).contains (fld p 1 1) = true) ∧
    (∃ (s : State) (h : Hdr) (p : Bytes) (q : Nat), Sound s ∧ q = fld p 0 1 ∧ Taken s 0x030C h p ∧ p.length = 2 ∧ q < 16 ∧
      fld p 1 1 < 8 ∧ (s.wideSlots q).contains (fld p 1 1) = true) ∧
    (∃ (s : State) (h : Hdr) (p : Bytes) (q : Nat), Sound s ∧ q = fld p 0 1 ∧ Taken s 0x030D h p ∧ p.length = 1 ∧ q < 16) ∧
    (∃ (s : State) (h : Hdr) (p : Bytes) (q : Nat), Sound s ∧ q = fld p 0 1 ∧ Taken s 0x030E h p ∧ p.length = 1 ∧ q < 16) ∧
    (∃ (s : State) (h : Hdr) (p : Bytes) (q : Nat), Sound s ∧ q = fld p 0 1 ∧ Taken s 0x030F h p ∧ p.length = 1 ∧ q < 128) ∧
    (∃ (s : State) (h : Hdr) (p : Bytes) (q : Nat), Sound s ∧ q = fld p 0 1 ∧ Taken s 0x0310 h p ∧ p.length = 1 ∧ q < 64 ∧
      s.ptType (q / 4) ≠ 0 ∧ s.eng.mode = 1 ∧ (s.course q).state = .single) ∧
    (∃ (s : State) (h : Hdr) (p : Bytes) (q : Nat), Sound s ∧ q = fld p 0 1 ∧ Taken s 0x0311 h p ∧ p.length = 1 ∧ q < 16 ∧
      s.ptType q ≠ 0 ∧ s.eng.capture = none) :=
  ⟨⟨ac, hd, [15], 15, sound_of (by decide +kernel), by decide +kernel, taken_of (by decide +kernel), by decide +kernel⟩,
   ⟨cfg [(PT_TYPE, 15, 3), (PT_PQ_ENABLE, 15, 1)], hd, [15, 0, 1], 15, sound_of (by decide +kernel), by decide +kernel,
     taken_of (by decide +kernel), by decide +kernel⟩,
   ⟨(cfg [(CH_FILTER, 127, 1), (CH_WIDEBAND, 127, 1), (PT_TYPE, 15, 1)]).modEng (fun e => { e with mode := 2 }), hd, [15, 7], 15,
     sound_of (by decide +kernel), by decide +kernel, taken_of (by decide +kernel), by decide +kernel⟩,
   ⟨ac, hd, [15], 15, sound_of (by decide +kernel), by decide +kernel, taken_of (by decide +kernel), by decide +kernel⟩,
   ⟨ac, hd, [15], 15, sound_of (by decide +kernel), by decide +kernel, taken_of (by decide +kernel), by decide +kernel⟩,
   ⟨up, hd, [127], 127, up_sound, by decide +kernel, taken_of (by decide +kernel), by decide +kernel⟩,
   ⟨((cfg [(PT_TYPE, 15, 3)]).modEng (fun e => { e with mode := 1 })).modCourse 63 (fun c => { c with state := .single }), hd,
     [63], 63, sound_of (by decide +kernel), by decide +kernel, taken_of (by decide +kernel), by decide +kernel⟩,
   ⟨(cfg [(PT_TYPE, 15, 3), (PT_CAP_PRE, 15, 0)]), hd, [15], 15, sound_of (by decide +kernel), by decide +kernel,
     taken_of (by decide +kernel), by decide +kernel⟩⟩

/-- What `Obligations.OutletAndSwitchCommandsAnswer` assumes is met. -/
theorem wit_OutletAndSwitchCommandsAnswer :
    (∃ (s : State) (h : Hdr) (p : Bytes) (q : Nat), Sound s ∧ q = fld p 0 1 ∧ Taken s 0x0312 h p ∧ p.length = 3 ∧ q < 16 ∧
      s.isOutlet q = true) ∧
    (∃ (s : State) (h : Hdr) (p : Bytes) (q : Nat), Sound s ∧ q = fld p 0 1 ∧ Taken s 0x0313 h p ∧ p.length = 11 ∧ q < 16 ∧
      s.ptType q = 2) ∧
    (∃ (s : State) (h : Hdr) (p : Bytes) (q : Nat), Sound s ∧ q = fld p 0 1 ∧ Taken s 0x0314 h p ∧ q < 8 ∧ fld p 1 1 = 0 ∧
      0 < fld p 2 2 ∧ p.length = 4 + fld p 2 2 ∧ s.logFull 1 = false) ∧
    (∃ (s : State) (h : Hdr) (p : Bytes) (q : Nat), Sound s ∧ q = fld p 0 1 ∧ Taken s 0x0314 h p ∧ q < 8 ∧ fld p 1 1 = 1 ∧
      fld p 2 2 = 0 ∧ p.length = 4 ∧ s.logFull 1 = false) ∧
    (∃ (s : State) (h : Hdr) (p : Bytes) (q : Nat), Sound s ∧ q = fld p 0 1 ∧ Taken s 0x0315 h p ∧ p.length = 2 ∧ q < 32 ∧
      fld p 1 1 < 2 ∧ s.ptType (q / 2) ≠ 0 ∧ s.pathLocked q = false ∧ (fld p 1 1 = 1 → (s.swch q).held134 = false ∧
      (s.swch q).held2 = false)) ∧
    (∃ (s : State) (h : Hdr) (p : Bytes) (q : Nat), Sound s ∧ q = fld p 0 1 ∧ Taken s 0x0316 h []) ∧
    (∃ (s : State) (h : Hdr) (p : Bytes) (q : Nat), Sound s ∧ q = fld p 0 1 ∧ Taken s 0x0317 h p ∧ p.length = 1 ∧ q < 32 ∧
      s.ptType (q / 2) ≠ 0 ∧ (s.swch q).held134 = false ∧ (s.swch q).therm = false) ∧
    (∃ (s : State) (h : Hdr) (p : Bytes) (q : Nat), Sound s ∧ q = fld p 0 1 ∧ Taken s 0x0318 h [0, byteOf q] ∧ q < 32 ∧
      s.siMode q ≠ 0 ∧ (s.safIn q).latched = false ∧ (s.safIn q).trip = true ∧ (s.safIn q).demand = false ∧ s.siRestart q = 0) ∧
    (∃ (s : State) (h : Hdr) (p : Bytes) (q : Nat), Sound s ∧ q = fld p 0 1 ∧ Taken s 0x0318 h [0, byteOf q] ∧ q < 32 ∧
      s.siMode q ≠ 0 ∧ (s.safIn q).latched = true ∧ (s.safIn q).cycle = 3 ∧ s.demandA q = false ∧ s.demandB q = false) ∧
    (∃ (s : State) (h : Hdr) (p : Bytes) (q : Nat), Sound s ∧ q = fld p 0 1 ∧ Taken s 0x0318 h [1, byteOf q] ∧
      s.isConsumer q = true ∧ (s.scEntry q).state = 2 ∧
      ripeAt ((s.scEntry q).goodFrom.map (· + 2 * s.pn (ND_SC_TIME_0 + q) * 1000000)) s.clk.up = true ∧
      s.clk.up ≤ (s.scEntry q).lastAt + s.pn (ND_SC_TIME_0 + q) * 1000000) ∧
    (∃ (s : State) (h : Hdr) (p : Bytes) (q : Nat), Sound s ∧ q = fld p 0 1 ∧ Taken s 0x0319 h []) :=
  ⟨⟨ac, hd, [15, 0, 0], 15, sound_of (by decide +kernel), by decide +kernel, taken_of (by decide +kernel), by decide +kernel⟩,
   ⟨cfg [(PT_TYPE, 15, 2)], hd, [15] ++ zeros 10, 15, sound_of (by decide +kernel), by decide +kernel,
     taken_of (by decide +kernel), by decide +kernel⟩,
   ⟨up, hd, [7, 0, 1, 0, 0x30], 7, up_sound, by decide +kernel, taken_of (by decide +kernel), by decide +kernel⟩,
   ⟨up, hd, [7, 1, 0, 0], 7, up_sound, by decide +kernel, taken_of (by decide +kernel), by decide +kernel⟩,
   ⟨cfg [(PT_TYPE, 15, 3)], hd, [31, 1], 31, sound_of (by decide +kernel), by decide +kernel, taken_of (by decide +kernel),
     by decide +kernel⟩,
   ⟨up, hd, [], 0, up_sound, by decide +kernel, taken_of (by decide +kernel)⟩,
   ⟨cfg [(PT_TYPE, 15, 3)], hd, [31], 31, sound_of (by decide +kernel), by decide +kernel, taken_of (by decide +kernel),
     by decide +kernel⟩,
   ⟨(cfg [(PT_TYPE, 15, 3), (PT_SI_MODE_0 + 1, 15, 1), (PT_SI_RESTART_0 + 1, 15,
     0)]).modSafIn 31 (fun x => { x with trip := true, demand := false }), hd, [31], 31, sound_of (by decide +kernel),
     by decide +kernel, taken_of (by decide +kernel), by decide +kernel⟩,
   ⟨(cfg [(PT_TYPE, 15, 3), (PT_SI_MODE_0 + 1, 15, 1), (PT_SI_RESTART_0 + 1, 15,
     0)]).modSafIn 31 (fun x => { x with latched := true, cycle := 3 }), hd, [31], 31, sound_of (by decide +kernel),
     by decide +kernel, taken_of (by decide +kernel), by decide +kernel⟩,
   ⟨(cfg [(ND_SC_CONF_0 + 15, 0,
     0x80000000)]).modScEntry 15 (fun x => { x with state := 2, goodFrom := some 0, lastAt := 1000000000 }), hd, [15], 15,
     sound_of (by decide +kernel), by decide +kernel, taken_of (by decide +kernel), by decide +kernel⟩,
   ⟨up, hd, [], 0, up_sound, by decide +kernel, taken_of (by decide +kernel)⟩⟩

/-- What `Obligations.FirmwareCommandsAnswer` assumes is met. -/
theorem wit_FirmwareCommandsAnswer :
    (∃ (s : State) (h : Hdr) (p : Bytes), Sound s ∧ Taken s 0x0601 h p ∧ p.length = 40 ∧ fld p 0 1 < 4 ∧
      (fld p 0 1 < 2 → (s.pn ND_FW_SERVICE_METHOD).testBit (fld p 0 1) = true ∧ s.fw.trial = false) ∧
      (fld p 0 1 ≠ 1 → fld p 4 4 ≤ imageLimit (fld p 0 1)) ∧ (2 ≤ fld p 0 1 → s.saf.seals.testBit 0 = true ∧ s.logFull 1 = false)) ∧
    (∃ (s : State) (h : Hdr) (p : Bytes), Sound s ∧ (∃ g, Taken s 0x0602 h p ∧ 5 ≤ p.length ∧ p.length ≤ 244 ∧
      s.fw.stage = some g ∧ g.state = 0 ∧ g.kind < 4 ∧ fld p 0 4 + (p.length - 4) ≤ g.length ∧
      (g.kind = 1 → fld p 0 4 = stagedBytes g.pieces) ∧ (g.kind ≠ 1 → g.length ≤ imageLimit g.kind) ∧
      (2 ≤ g.kind → s.saf.seals.testBit 0 = true ∧ s.fw.legal < 2))) ∧
    (∃ (s : State) (h : Hdr), Sound s ∧ (∃ g b, Taken s 0x0603 h [] ∧ s.fw.stage = some g ∧ g.state = 0 ∧
      s.builtImage g = some b)) ∧
    (∃ (s : State) (h : Hdr), Sound s ∧ (∃ g, Taken s 0x0603 h [] ∧ s.fw.stage = some g ∧ g.state = 0 ∧ s.builtImage g = none)) ∧
    (∃ (s : State) (h : Hdr), Sound s ∧ (∃ g, Taken s 0x0604 h [] ∧ s.fw.stage = some g ∧ g.state = 2 ∧ s.led.warnFrom = none ∧
      s.fw.trial = false ∧ g.kind < 2)) ∧
    (∃ (s : State) (h : Hdr), Sound s ∧ (∃ g, Taken s 0x0604 h [] ∧ s.fw.stage = some g ∧ g.state = 2 ∧ s.led.warnFrom = none ∧
      2 ≤ g.kind ∧ s.saf.seals.testBit 0 = true ∧ s.logFull 1 = false)) ∧
    (∃ (s : State) (h : Hdr), Sound s ∧ Taken s 0x0605 h [] ∧ s.fw.trial = true ∧ s.fw.hand = none ∧
      s.fw.active < s.fw.svc.length) ∧
    (∃ (s : State) (h : Hdr), Sound s ∧ Taken s 0x0606 h []) :=
  ⟨⟨cfg [(ND_FW_SERVICE_METHOD, 0, 1)], hd, zeros 40, sound_of (by decide +kernel), taken_of (by decide +kernel),
    by decide +kernel⟩,
   ⟨up.modFw (fun x =>
     { x with stage := some (⟨0, 3, [0xba, 0x78, 0x16, 0xbf, 0x8f, 0x01, 0xcf, 0xea, 0x41, 0x41, 0x40, 0xde, 0x5d, 0xae, 0x22, 0x23, 0xb0, 0x03, 0x61, 0xa3, 0x96, 0x17, 0x7a, 0x9c, 0xb4, 0x10, 0xff, 0x61, 0xf2, 0x00, 0x15, 0xad], [(0, [97, 98, 99])], 0, [], none, false, 0, 0⟩ : Staging) }), hd, [2, 0, 0, 0, 99], sound_of (by decide +kernel), (⟨0, 3, [0xba, 0x78, 0x16, 0xbf, 0x8f, 0x01, 0xcf, 0xea, 0x41, 0x41, 0x40, 0xde, 0x5d, 0xae, 0x22, 0x23, 0xb0, 0x03, 0x61, 0xa3, 0x96, 0x17, 0x7a, 0x9c, 0xb4, 0x10, 0xff, 0x61, 0xf2, 0x00, 0x15, 0xad], [(0, [97, 98, 99])], 0, [], none, false, 0, 0⟩ : Staging), taken_of (by decide +kernel), by decide +kernel⟩,
   ⟨up.modFw (fun x =>
     { x with stage := some (⟨0, 3, [0xba, 0x78, 0x16, 0xbf, 0x8f, 0x01, 0xcf, 0xea, 0x41, 0x41, 0x40, 0xde, 0x5d, 0xae, 0x22, 0x23, 0xb0, 0x03, 0x61, 0xa3, 0x96, 0x17, 0x7a, 0x9c, 0xb4, 0x10, 0xff, 0x61, 0xf2, 0x00, 0x15, 0xad], [(0, [97, 98, 99])], 0, [], none, false, 0, 0⟩ : Staging) }), hd, sound_of (by decide +kernel), (⟨0, 3, [0xba, 0x78, 0x16, 0xbf, 0x8f, 0x01, 0xcf, 0xea, 0x41, 0x41, 0x40, 0xde, 0x5d, 0xae, 0x22, 0x23, 0xb0, 0x03, 0x61, 0xa3, 0x96, 0x17, 0x7a, 0x9c, 0xb4, 0x10, 0xff, 0x61, 0xf2, 0x00, 0x15, 0xad], [(0, [97, 98, 99])], 0, [], none, false, 0, 0⟩ : Staging), [97, 98, 99], taken_of (by decide +kernel), by decide +kernel⟩,
   ⟨up.modFw (fun x =>
     { x with stage := some (⟨0, 3, [0xba, 0x78, 0x16, 0xbf, 0x8f, 0x01, 0xcf, 0xea, 0x41, 0x41, 0x40, 0xde, 0x5d, 0xae, 0x22, 0x23, 0xb0, 0x03, 0x61, 0xa3, 0x96, 0x17, 0x7a, 0x9c, 0xb4, 0x10, 0xff, 0x61, 0xf2, 0x00, 0x15, 0xad], [], 0, [], none, false, 0, 0⟩ : Staging) }), hd, sound_of (by decide +kernel), (⟨0, 3, [0xba, 0x78, 0x16, 0xbf, 0x8f, 0x01, 0xcf, 0xea, 0x41, 0x41, 0x40, 0xde, 0x5d, 0xae, 0x22, 0x23, 0xb0, 0x03, 0x61, 0xa3, 0x96, 0x17, 0x7a, 0x9c, 0xb4, 0x10, 0xff, 0x61, 0xf2, 0x00, 0x15, 0xad], [], 0, [], none, false, 0, 0⟩ : Staging), taken_of (by decide +kernel), by decide +kernel⟩,
   ⟨up.modFw (fun x =>
     { x with stage := some (⟨0, 3, [0xba, 0x78, 0x16, 0xbf, 0x8f, 0x01, 0xcf, 0xea, 0x41, 0x41, 0x40, 0xde, 0x5d, 0xae, 0x22, 0x23, 0xb0, 0x03, 0x61, 0xa3, 0x96, 0x17, 0x7a, 0x9c, 0xb4, 0x10, 0xff, 0x61, 0xf2, 0x00, 0x15, 0xad], [(0, [97, 98, 99])], 2, [], none, false, 0, 0⟩ : Staging) }), hd, sound_of (by decide +kernel), (⟨0, 3, [0xba, 0x78, 0x16, 0xbf, 0x8f, 0x01, 0xcf, 0xea, 0x41, 0x41, 0x40, 0xde, 0x5d, 0xae, 0x22, 0x23, 0xb0, 0x03, 0x61, 0xa3, 0x96, 0x17, 0x7a, 0x9c, 0xb4, 0x10, 0xff, 0x61, 0xf2, 0x00, 0x15, 0xad], [(0, [97, 98, 99])], 2, [], none, false, 0, 0⟩ : Staging), taken_of (by decide +kernel), by decide +kernel⟩,
   ⟨(up.modSaf (fun x => { x with seals := 1 })).modFw (fun x =>
     { x with stage := some (⟨2, 3, [0xba, 0x78, 0x16, 0xbf, 0x8f, 0x01, 0xcf, 0xea, 0x41, 0x41, 0x40, 0xde, 0x5d, 0xae, 0x22, 0x23, 0xb0, 0x03, 0x61, 0xa3, 0x96, 0x17, 0x7a, 0x9c, 0xb4, 0x10, 0xff, 0x61, 0xf2, 0x00, 0x15, 0xad], [(0, [97, 98, 99])], 2, [], none, false, 0, 0⟩ : Staging) }), hd, sound_of (by decide +kernel), (⟨2, 3, [0xba, 0x78, 0x16, 0xbf, 0x8f, 0x01, 0xcf, 0xea, 0x41, 0x41, 0x40, 0xde, 0x5d, 0xae, 0x22, 0x23, 0xb0, 0x03, 0x61, 0xa3, 0x96, 0x17, 0x7a, 0x9c, 0xb4, 0x10, 0xff, 0x61, 0xf2, 0x00, 0x15, 0xad], [(0, [97, 98, 99])], 2, [], none, false, 0, 0⟩ : Staging), taken_of (by decide +kernel), by decide +kernel⟩,
   ⟨up.modFw (fun x => { x with trial := true }), hd, sound_of (by decide +kernel), taken_of (by decide +kernel),
     by decide +kernel⟩,
   ⟨up, hd, up_sound, taken_of (by decide +kernel)⟩⟩

/-- What `Obligations.TimeCommandsAnswer` assumes is met. -/
theorem wit_TimeCommandsAnswer :
    (∃ (s : State) (h : Hdr) (p : Bytes) (i : Nat), Sound s ∧ i = fld p 0 1 ∧ Taken s 0x0701 h []) ∧
    (∃ (s : State) (h : Hdr) (p : Bytes) (i : Nat), Sound s ∧ i = fld p 0 1 ∧ (∃ r, Taken s 0x0702 h p ∧ p.length = 1 ∧ i < 2 ∧
      s.servo.refused = some r ∧ (i = 1 → r.offset.natAbs ≤ 125000) ∧ s.logFull 1 = false)) ∧
    (∃ (s : State) (h : Hdr) (p : Bytes) (i : Nat), Sound s ∧ i = fld p 0 1 ∧ 
      let mode := fld p 1 1
      
      let start := fld p 2 8
      
      let period := fld p 10 4
      
      let width := fld p 14 4
      Taken s 0x0703 h p ∧ p.length = 20 ∧ i < 8 ∧ mode < 3 ∧ fld p 18 1 < 2 ∧ fld p 19 1 < 2 ∧ (mode ≠ 0 → 8 ≤ width ∧
        width % 8 = 0) ∧ (mode = 1 → s.nodeNow ≤ start) ∧ (mode = 2 → 1000 ≤ period ∧ period ≤ 1000000000 ∧ period % 8 = 0 ∧
        width + 8 ≤ period)) ∧
    (∃ (s : State) (h : Hdr) (p : Bytes) (i : Nat), Sound s ∧ i = fld p 0 1 ∧ Taken s 0x0704 h p ∧ p.length = 3 ∧ i < 4 ∧
      fld p 1 1 < 4) ∧
    (∃ (s : State) (h : Hdr) (p : Bytes) (i : Nat), Sound s ∧ i = fld p 0 1 ∧ Taken s 0x0705 h p ∧ p.length = 1 ∧ i < 4 ∧
      (s.tci i).fifo.words ≠ [] ∧ s.test.regs.fifo.getLsbD (12 + i) = false) ∧
    (∃ (s : State) (h : Hdr) (p : Bytes) (i : Nat), Sound s ∧ i = fld p 0 1 ∧ Taken s 0x0705 h p ∧ p.length = 1 ∧ i < 4 ∧
      ((s.tci i).fifo.words = [] ∨ s.test.regs.fifo.getLsbD (12 + i) = true)) ∧
    (∃ (s : State) (h : Hdr) (p : Bytes) (i : Nat), Sound s ∧ i = fld p 0 1 ∧ Taken s 0x0706 h p ∧ p.length = 1 ∧ i < 64) ∧
    (∃ (s : State) (h : Hdr) (p : Bytes) (i : Nat), Sound s ∧ i = fld p 0 1 ∧ Taken s 0x0707 h []) :=
  ⟨⟨up, hd, [], 0, up_sound, by decide +kernel, taken_of (by decide +kernel)⟩,
   ⟨up.modServo (fun v => { v with refused := some ⟨125000, 1, 0, 0⟩ }), hd, [1], 1, sound_of (by decide +kernel),
     by decide +kernel, ⟨125000, 1, 0, 0⟩, taken_of (by decide +kernel), by decide +kernel⟩,
   ⟨up, hd, [7, 1] ++ le 8 1000000000 ++ zeros 4 ++ le 4 8 ++ [1, 1], 7, up_sound, by decide +kernel,
     taken_of (by decide +kernel), by decide +kernel⟩,
   ⟨up, hd, [3, 3, 0], 3, up_sound, by decide +kernel, taken_of (by decide +kernel), by decide +kernel⟩,
   ⟨up.modTci 3 (fun x => { x with fifo := { Fifo.reset with words := [(1, false, false)] } }), hd, [3], 3,
     sound_of (by decide +kernel), by decide +kernel, taken_of (by decide +kernel), by decide +kernel⟩,
   ⟨up, hd, [3], 3, up_sound, by decide +kernel, taken_of (by decide +kernel), by decide +kernel⟩,
   ⟨up, hd, [63], 63, up_sound, by decide +kernel, taken_of (by decide +kernel), by decide +kernel⟩,
   ⟨up, hd, [], 0, up_sound, by decide +kernel, taken_of (by decide +kernel)⟩⟩

/-- What `Obligations.DisplaySarTestCommandsAnswer` assumes is met. -/
theorem wit_DisplaySarTestCommandsAnswer :
    (∃ (s : State) (h : Hdr) (p : Bytes) (k : Nat), Sound s ∧ k = fld p 0 1 ∧ Taken s 0x0801 h p ∧ p.length = 4 ∧ 0 < fld p 2 2 ∧
      fld p 2 2 ≤ 300 ∧ k < 16 ∧ s.ptType k ≠ 0 ∧ s.pages.contains (k, fld p 1 1) = true) ∧
    (∃ (s : State) (h : Hdr) (p : Bytes) (k : Nat), Sound s ∧ k = fld p 0 1 ∧ Taken s 0x0801 h p ∧ p.length = 4 ∧ fld p 2 2 = 0) ∧
    (∃ (s : State) (h : Hdr) (p : Bytes) (k : Nat), Sound s ∧ k = fld p 0 1 ∧ Taken s 0x0802 h p ∧ p.length = 6) ∧
    (∃ (s : State) (h : Hdr) (p : Bytes) (k : Nat), Sound s ∧ k = fld p 0 1 ∧ Taken s 0x0803 h p ∧ k < 8 ∧ 0 < fld p 1 1 ∧
      fld p 1 1 ≤ 16 ∧ p.length = 2 + 6 * fld p 1 1 ∧ waveValid (readPhases p) = true ∧ s.saf.seals.testBit 0 = true ∧
      s.logFull 1 = false) ∧
    (∃ (s : State) (h : Hdr) (p : Bytes) (k : Nat), Sound s ∧ k = fld p 0 1 ∧ Taken s 0x0804 h p ∧ p.length = 2) ∧
    (∃ (s : State) (h : Hdr) (p : Bytes) (k : Nat), Sound s ∧ k = fld p 0 1 ∧ Taken s 0x0805 h [] ∧ s.disp.rails = 4 ∧
      s.disp.run.isSome = true ∧ s.disp.offPending = false) ∧
    (∃ (s : State) (h : Hdr) (p : Bytes) (k : Nat), Sound s ∧ k = fld p 0 1 ∧ Taken s 0x0805 h [] ∧ s.disp.rails = 4 ∧
      s.disp.run = none) ∧
    (∃ (s : State) (h : Hdr) (p : Bytes) (k : Nat), Sound s ∧ k = fld p 0 1 ∧ Taken s 0x0901 h p ∧ p.length = 1 ∧ k < 4) ∧
    (∃ (s : State) (h : Hdr) (p : Bytes) (k : Nat), Sound s ∧ k = fld p 0 1 ∧ Taken s 0x0902 h p ∧ p.length = 1 ∧ k < 16) ∧
    (∃ (s : State) (h : Hdr) (p : Bytes) (k : Nat), Sound s ∧ k = fld p 0 1 ∧ Taken s 0x0903 h p ∧ p.length = 1 ∧ k < 4) ∧
    (∃ (s : State) (h : Hdr) (p : Bytes) (k : Nat), Sound s ∧ k = fld p 0 1 ∧ Taken s 0x0A01 h [] ∧ s.saf.seals.testBit 2 = true ∧
      s.logFull 1 = false) ∧
    (∃ (s : State) (h : Hdr) (p : Bytes) (k : Nat), Sound s ∧ k = fld p 0 1 ∧ Taken s 0x0A02 h [] ∧ s.test.unlocked = true ∧
      s.logFull 1 = false) :=
  ⟨⟨cfg [(PT_DISP_REGS, 15, 1), (PT_TYPE, 15, 3)], hd, [15, 0, 44, 1], 15, sound_of (by decide +kernel), by decide +kernel,
    taken_of (by decide +kernel), by decide +kernel⟩,
   ⟨up, hd, zeros 4, 0, up_sound, by decide +kernel, taken_of (by decide +kernel), by decide +kernel⟩,
   ⟨up, hd, zeros 6, 0, up_sound, by decide +kernel, taken_of (by decide +kernel), by decide +kernel⟩,
   ⟨up.modSaf (fun x => { x with seals := 1 }), hd, [7, 1] ++ [10, 0, 0, 0, 0, 0], 7, sound_of (by decide +kernel),
     by decide +kernel, taken_of (by decide +kernel), by decide +kernel⟩,
   ⟨up, hd, [0, 0], 0, up_sound, by decide +kernel, taken_of (by decide +kernel), by decide +kernel⟩,
   ⟨up.modDisp (fun x => { x with rails := 4, run := some DispRun.reset }), hd, [], 0, sound_of (by decide +kernel),
     by decide +kernel, taken_of (by decide +kernel), by decide +kernel⟩,
   ⟨up.modDisp (fun x => { x with rails := 4 }), hd, [], 0, sound_of (by decide +kernel), by decide +kernel,
     taken_of (by decide +kernel), by decide +kernel⟩,
   ⟨up, hd, [3], 3, up_sound, by decide +kernel, taken_of (by decide +kernel), by decide +kernel⟩,
   ⟨up, hd, [15], 15, up_sound, by decide +kernel, taken_of (by decide +kernel), by decide +kernel⟩,
   ⟨up, hd, [3], 3, up_sound, by decide +kernel, taken_of (by decide +kernel), by decide +kernel⟩,
   ⟨up.modSaf (fun x => { x with seals := 4 }), hd, [], 0, sound_of (by decide +kernel), by decide +kernel,
     taken_of (by decide +kernel), by decide +kernel⟩,
   ⟨unlocked, hd, [], 0, sound_of (by decide +kernel), by decide +kernel, taken_of (by decide +kernel), by decide +kernel⟩⟩

/-- What `Obligations.HostPortCommandsComplete` assumes is met. -/
theorem wit_HostPortCommandsComplete :
    (∃ (s : State), Sound s ∧ (∃ (m : Nat) (heth : Bool), s.pwr.coreOn = true ∧ m < 8 ∧ s.otherVia m heth = false)) ∧
    (∃ (s : State), Sound s ∧ s.pwr.coreOn = true) ∧
    (∃ (s : State), Sound s ∧ s.pwr.coreOn = true ∧ s.host.ready = true) ∧
    (∃ (s : State), Sound s ∧ s.pwr.coreOn = true) ∧
    (∃ (s : State), Sound s ∧
      (∃ (k : Nat) (last : Bool) (b : Bool) (w : Nat) (ws : List (Nat × Bool × Bool)), s.pwr.coreOn = true ∧ k < 4 ∧
      s.streamHeld k = false ∧ (s.stream k).words = (w, last, b) :: ws)) ∧
    (∃ (s : State), Sound s ∧ (∃ (k : Nat) (bad : Bool), s.pwr.coreOn = true ∧ k < 4 ∧
      ((s.stream k).words = [] ∨ s.streamHeld k = true ∧ bad = false))) ∧
    (∃ (s : State), Sound s ∧ (∃ (v : BitVec 32), s.pwr.coreOn = true ∧ v.getLsbD 0 = false)) ∧
    (∃ (s : State), Sound s ∧ (∃ (k : Nat) (v : BitVec 32), s.pwr.coreOn = true ∧ k < 4 ∧ v.getLsbD 0 = true)) ∧
    (∃ (s : State), Sound s ∧ s.pwr.coreOn = true ∧ (∃ (a : Nat), a % 4 = 0 ∧ 0x0124 ≤ a ∧ a < 0x0200)) ∧
    (∃ (s : State), Sound s ∧ s.pwr.coreOn = true) ∧
    (∃ (s : State), Sound s) :=
  ⟨⟨up, up_sound, 7, true, by decide +kernel⟩,
   ⟨up, up_sound, by decide +kernel⟩,
   ⟨up, up_sound, by decide +kernel⟩,
   ⟨up, up_sound, by decide +kernel⟩,
   ⟨up.modStream 3 (fun f => { f with words := [(5, false, false)], wptr := 1 }), sound_of (by decide +kernel), 3, false, false,
     5, [], by decide +kernel⟩,
   ⟨up, up_sound, 3, false, by decide +kernel⟩,
   ⟨up, up_sound, 0, by decide +kernel⟩,
   ⟨up, up_sound, 3, 1, by decide +kernel⟩,
   ⟨up, up_sound, by decide +kernel, 0x01FC, by decide +kernel⟩,
   ⟨up, up_sound, by decide +kernel⟩,
   ⟨up, up_sound⟩⟩

/-- What `Obligations.RequestPartsAndDatagramsComplete` assumes is met. -/
theorem wit_RequestPartsAndDatagramsComplete :
    (∃ (s : State), Sound s ∧ (∃ (h : Hdr) (code : Nat) (p : Bytes), Taken s code h p)) ∧
    (∃ (s : State), Sound s ∧ (∃ (h : Hdr) (code : Nat) (p : Bytes) (d : Bytes) (ds : List Bytes), Taken s code h p ∧
      ds.length < 30 ∧ (s.mbox h.mbx).held = some ⟨code, h.tag, d :: ds⟩)) ∧
    (∃ (s : State), Sound s ∧ (∃ (h : Hdr) (code : Nat) (p : Bytes) (d : Bytes) (ds : List Bytes), Taken s code h p ∧
      ds.length < 31 ∧ (s.mbox h.mbx).held = some ⟨code, h.tag, d :: ds⟩)) ∧
    (∃ (s : State), Sound s ∧ (∃ (h : Hdr) (code : Nat) (k : Nat) (p : Bytes) (ps : List Bytes), Taken s code h p ∧ 0 < k ∧
      k < 256 ∧ k < ps.length ∧ (s.mbox h.mbx).held = none ∧ (s.mbox h.mbx).answer = some ⟨code, h.tag, ps⟩)) ∧
    (∃ (s : State), Sound s ∧ (∃ (g : Datagram), s.pwr.coreOn = true ∧ (g.dst, g.dport) = s.listens ∧ s.peer ≠ 0 ∧
      g.src ≠ s.peer)) ∧
    (∃ (s : State), Sound s ∧ (∃ (g : Datagram), s.pwr.coreOn = true ∧ (g.dst, g.dport) = s.listens ∧
      (s.peer = 0 ∨ g.src = s.peer) ∧ (∀ r ∈ s.host.replies, r.src = g.src → r.port = g.port → r.seq ≠ g.seq) ∧ g.op ≠ 1 ∧
      g.op ≠ 2)) ∧
    (∃ (s : State), Sound s ∧ (∃ (g : Datagram), s.pwr.coreOn = true ∧ (g.dst, g.dport) = s.listens ∧
      (s.peer = 0 ∨ g.src = s.peer) ∧ (∀ r ∈ s.host.replies, r.src = g.src → r.port = g.port → r.seq ≠ g.seq) ∧ g.op = 2 ∧
      g.addr = 0x0038 ∧ g.len = 4 ∧ g.data.length = 4)) ∧
    (∃ (s : State), Sound s ∧ (∃ (g : Datagram), s.pwr.coreOn = true ∧ (g.dst, g.dport) = s.listens ∧
      (s.peer = 0 ∨ g.src = s.peer) ∧ (∀ r ∈ s.host.replies, r.src = g.src → r.port = g.port → r.seq ≠ g.seq) ∧ g.op = 1 ∧
      g.addr = 0x0038 ∧ g.len = 4)) :=
  ⟨⟨up, up_sound, hd, 0x0101, [], taken_of (by decide +kernel)⟩,
   ⟨up.modMbox 0 (fun b => { b with held := some ⟨0x0101, 7, [[1]]⟩ }), sound_of (by decide +kernel), hd, 0x0101, [], [1], [],
     taken_of (by decide +kernel), by decide +kernel⟩,
   ⟨up.modMbox 0 (fun b => { b with held := some ⟨0x0101, 7, [[1]]⟩ }), sound_of (by decide +kernel), hd, 0x0101, [], [1], [],
     taken_of (by decide +kernel), by decide +kernel⟩,
   ⟨up.modMbox 0 (fun b => { b with answer := some ⟨0x0507, 7, [[], [1]]⟩ }), sound_of (by decide +kernel), hd, 0x0507, 1, [],
     [[], [1]], taken_of (by decide +kernel), by decide +kernel⟩,
   ⟨cfg [(ND_HOST_PEER, 0, 0xC0A80001)], sound_of (by decide +kernel), ⟨5, 0, 0xC0A80080, 40128, 1, 1, 0x0038, 4, [], []⟩,
     by decide +kernel⟩,
   ⟨up, up_sound, ⟨5, 0, 0xC0A80080, 40128, 0, 1, 0x0038, 4, [], []⟩, by decide +kernel, by decide +kernel, by decide +kernel,
     by intro r hr; exact absurd hr (List.not_mem_nil), by decide +kernel⟩,
   ⟨up, up_sound, ⟨5, 0, 0xC0A80080, 40128, 2, 1, 0x0038, 4, [1, 2, 3, 4], []⟩, by decide +kernel, by decide +kernel,
     by decide +kernel, by intro r hr; exact absurd hr (List.not_mem_nil), by decide +kernel⟩,
   ⟨up, up_sound, ⟨5, 0, 0xC0A80080, 40128, 1, 1, 0x0038, 4, [], []⟩, by decide +kernel, by decide +kernel, by decide +kernel,
     by intro r hr; exact absurd hr (List.not_mem_nil), by decide +kernel⟩⟩

/-- What `Obligations.TestWindowCommandsComplete` assumes is met. -/
theorem wit_TestWindowCommandsComplete :
    (∃ (s : State), Sound s ∧ s.test.unlocked = false) ∧
    (∃ (s : State) (v : BitVec 32), Sound s ∧ s.test.unlocked = true ∧ v.getLsbD 1 = true) ∧
    (∃ (s : State) (v : BitVec 32), Sound s ∧ s.test.unlocked = true ∧ v.getLsbD 1 = false) ∧
    (∃ (s : State), Sound s ∧ s.test.unlocked = true ∧ 
      let allow := s.pn ND_TEST_ALLOW
      allow.testBit 0 = false) ∧
    (∃ (s : State), Sound s ∧ s.test.unlocked = true ∧ 
      let allow := s.pn ND_TEST_ALLOW
      allow.testBit 1 = false) ∧
    (∃ (s : State), Sound s ∧ s.test.unlocked = true ∧ 
      let allow := s.pn ND_TEST_ALLOW
      allow.testBit 2 = false) ∧
    (∃ (s : State), Sound s ∧ s.test.unlocked = true ∧ 
      let allow := s.pn ND_TEST_ALLOW
      allow.testBit 3 = false) ∧
    (∃ (s : State), Sound s ∧ s.test.unlocked = true ∧ 
      let allow := s.pn ND_TEST_ALLOW
      allow.testBit 4 = false) ∧
    (∃ (s : State), Sound s ∧ s.test.unlocked = true ∧ 
      let allow := s.pn ND_TEST_ALLOW
      allow.testBit 5 = false) ∧
    (∃ (s : State), Sound s ∧ s.test.unlocked = true ∧ 
      let allow := s.pn ND_TEST_ALLOW
      allow.testBit 6 = false) ∧
    (∃ (s : State), Sound s ∧ s.test.unlocked = true ∧ 
      let allow := s.pn ND_TEST_ALLOW
      allow.testBit 7 = false) ∧
    (∃ (s : State), Sound s ∧ s.test.unlocked = true ∧ 
      let r := s.test.regs
      
      let allow := s.pn ND_TEST_ALLOW
      (∃ i, i < 8 ∧ r.stretch.length = 8 ∧ allow.testBit 0 = true)) ∧
    (∃ (s : State), Sound s ∧ s.test.unlocked = true ∧ 
      let allow := s.pn ND_TEST_ALLOW
      allow.testBit 1 = true) ∧
    (∃ (s : State), Sound s ∧ s.test.unlocked = true ∧ 
      let allow := s.pn ND_TEST_ALLOW
      allow.testBit 2 = true) ∧
    (∃ (s : State), Sound s ∧ s.test.unlocked = true ∧ 
      let allow := s.pn ND_TEST_ALLOW
      allow.testBit 3 = true) ∧
    (∃ (s : State), Sound s ∧ s.test.unlocked = true ∧ 
      let allow := s.pn ND_TEST_ALLOW
      allow.testBit 4 = true) ∧
    (∃ (s : State), Sound s ∧ s.test.unlocked = true ∧ 
      let allow := s.pn ND_TEST_ALLOW
      allow.testBit 5 = true) ∧
    (∃ (s : State), Sound s ∧ s.test.unlocked = true ∧ 
      let allow := s.pn ND_TEST_ALLOW
      allow.testBit 6 = true) ∧
    (∃ (s : State), Sound s ∧ s.test.unlocked = true ∧ 
      let allow := s.pn ND_TEST_ALLOW
      allow.testBit 7 = true) ∧
    (∃ (s : State), Sound s ∧ s.test.unlocked = true ∧ (∃ u, ripeAt s.test.due u = true)) ∧
    (∃ (s : State), Sound s ∧
      (∃ (u : Nat) (i : Nat) (d : Nat) (m : Bytes) (rest : List (Nat × Nat × Bytes)), s.test.held = (i, d, m) :: rest ∧ d ≤ u ∧
      s.isProducer i = true)) :=
  ⟨⟨up, up_sound, by decide +kernel⟩,
   ⟨unlocked, 2, sound_of (by decide +kernel), by decide +kernel⟩,
   ⟨unlocked, 0, sound_of (by decide +kernel), by decide +kernel⟩,
   ⟨(cfg [(ND_TEST_ALLOW, 0, 0)]).modTest (fun x => { x with unlocked := true }), sound_of (by decide +kernel), by decide +kernel⟩,
   ⟨(cfg [(ND_TEST_ALLOW, 0, 0)]).modTest (fun x => { x with unlocked := true }), sound_of (by decide +kernel), by decide +kernel⟩,
   ⟨(cfg [(ND_TEST_ALLOW, 0, 0)]).modTest (fun x => { x with unlocked := true }), sound_of (by decide +kernel), by decide +kernel⟩,
   ⟨(cfg [(ND_TEST_ALLOW, 0, 0)]).modTest (fun x => { x with unlocked := true }), sound_of (by decide +kernel), by decide +kernel⟩,
   ⟨(cfg [(ND_TEST_ALLOW, 0, 0)]).modTest (fun x => { x with unlocked := true }), sound_of (by decide +kernel), by decide +kernel⟩,
   ⟨(cfg [(ND_TEST_ALLOW, 0, 0)]).modTest (fun x => { x with unlocked := true }), sound_of (by decide +kernel), by decide +kernel⟩,
   ⟨(cfg [(ND_TEST_ALLOW, 0, 0)]).modTest (fun x => { x with unlocked := true }), sound_of (by decide +kernel), by decide +kernel⟩,
   ⟨(cfg [(ND_TEST_ALLOW, 0, 0)]).modTest (fun x => { x with unlocked := true }), sound_of (by decide +kernel), by decide +kernel⟩,
   ⟨unlocked, sound_of (by decide +kernel), by decide +kernel, 7, by decide +kernel⟩,
   ⟨unlocked, sound_of (by decide +kernel), by decide +kernel⟩,
   ⟨unlocked, sound_of (by decide +kernel), by decide +kernel⟩,
   ⟨unlocked, sound_of (by decide +kernel), by decide +kernel⟩,
   ⟨unlocked, sound_of (by decide +kernel), by decide +kernel⟩,
   ⟨unlocked, sound_of (by decide +kernel), by decide +kernel⟩,
   ⟨unlocked, sound_of (by decide +kernel), by decide +kernel⟩,
   ⟨unlocked, sound_of (by decide +kernel), by decide +kernel⟩,
   ⟨unlocked.modTest (fun x => { x with due := some 10 }), sound_of (by decide +kernel), by decide +kernel, 10, by decide +kernel⟩,
   ⟨(cfg [(ND_SC_CONF_0 + 15, 0, 0xC0000000)]).modTest (fun x => { x with held := [(15, 10, [])] }), sound_of (by decide +kernel),
     10, 15, 10, [], [], by decide +kernel⟩⟩

/-- What `Obligations.HostTimersAndRecordsComplete` assumes is met. -/
theorem wit_HostTimersAndRecordsComplete :
    (∃ (s : State) (u : Nat), Sound s ∧ (∃ b, s.par.batch = some b ∧ b.due ≤ u)) ∧
    (∃ (s : State) (u : Nat), Sound s ∧ (∃ d, s.host.wdDue = some d ∧ d ≤ u)) ∧
    (∃ (s : State) (u : Nat), Sound s ∧ (∃ k d, k < 4 ∧ s.pn (ND_STREAM_TAIL_0 + k) ≠ 0 ∧ (s.stream k).tailFired = false ∧
      (s.stream k).heldSince = some d ∧ d + s.pn (ND_STREAM_TAIL_0 + k) * 10000 ≤ u)) ∧
    (∃ (s : State), Sound s ∧ (∃ d rest, s.recs.due = d :: rest ∧ s.pwr.capoOn = true ∧ s.recs.journal.length < 40960)) ∧
    (∃ (s : State), Sound s ∧ (∃ b rest, s.recs.queue = b :: rest ∧ 64 ≤ s.streamRoom 0)) :=
  ⟨⟨up.modPar (fun x => { x with batch := some ⟨1, [], 10⟩ }), 10, sound_of (by decide +kernel), (⟨1, [], 10⟩ : Batch),
    by decide +kernel⟩,
   ⟨up.modHost (fun x => { x with wdDue := some 10 }), 10, sound_of (by decide +kernel), 10, by decide +kernel⟩,
   ⟨(cfg [(ND_STREAM_TAIL_0 + 3, 0, 1)]).modStream 3 (fun f => { f with heldSince := some 0 }), 10000,
     sound_of (by decide +kernel), 3, 0, by decide +kernel⟩,
   ⟨up.modRecs (fun x => { x with due := [DueRec.reset] }), sound_of (by decide +kernel), DueRec.reset, ([] : List DueRec),
     by decide +kernel⟩,
   ⟨up.modRecs (fun x => { x with queue := [[1]] }), sound_of (by decide +kernel), [1], ([] : List Bytes), by decide +kernel⟩⟩

/-- What `Obligations.FrameEventsComplete` assumes is met. -/
theorem wit_FrameEventsComplete :
    (∃ (s : State) (u : Nat), Sound s ∧ (∃ f back, s.pwr.coreOn = true ∧ s.tickAt ≤ u ∧ s.fw.hand = some (f, back) ∧
      f ≤ (s.clk.frame + 1) % 2 ^ 48 ∧ (s.clk.frame + 1) % 2 ^ 48 < f + 2)) ∧
    (∃ (s : State) (u : Nat), Sound s ∧ s.pwr.coreOn = true ∧ s.tickAt ≤ u ∧ s.fw.hand = none) ∧
    (∃ (s : State), Sound s ∧ (∃ b, s.eng.work = some b ∧ s.eng.buf.length = 2)) ∧
    (∃ (s : State), Sound s ∧ (∃ n f cycles stretch, s.eng.cut = some (n, f, cycles, stretch))) ∧
    (∃ (s : State), Sound s ∧ (∃ b, s.nextBlock = some b ∧ s.pwr.capoOn = true ∧ s.mayAdd b = true)) ∧
    (∃ (s : State), Sound s ∧ (∃ b, s.clk.bdry = some b ∧ s.pwr.capoOn = true ∧ s.blocksWait = false)) ∧
    (∃ (s : State), Sound s ∧ (∃ b old new, s.eng.change = some (b, old, new) ∧ b + 16 < s.frm ∧ 16 ∉ s.recs.stuckSeries)) :=
  ⟨⟨up.modFw (fun x => { x with hand := some (4001, false) }), 1000250000, sound_of (by decide +kernel), 4001, false,
    by decide +kernel⟩,
   ⟨up, 1000250000, up_sound, by decide +kernel⟩,
   ⟨up.modEng (fun e => { e with work := some Block.reset, buf := [none, none] }), sound_of (by decide +kernel), Block.reset,
     by decide +kernel⟩,
   ⟨up.modEng (fun e => { e with cut := some (4000, 145, 98000, 0) }), sound_of (by decide +kernel), 4000, 145, 98000, 0,
     by decide +kernel⟩,
   ⟨up.modEng (fun e => { e with buf := [some Block.reset, none] }), sound_of (by decide +kernel), Block.reset, by decide +kernel⟩,
   ⟨up.modClk (fun c => { c with bdry := some 4000 }), sound_of (by decide +kernel), 4000, by decide +kernel⟩,
   ⟨up.modEng (fun e => { e with change := some (3983, 0, 1) }), sound_of (by decide +kernel), 3983, 0, 1, by decide +kernel⟩⟩

/-- What `Obligations.SliceAndCourseEventsComplete` assumes is met. -/
theorem wit_SliceAndCourseEventsComplete :
    (∃ (s : State), Sound s ∧ (∃ c, c < 128 ∧ s.gainLo c < s.gainHi c ∧ s.underTest c = false ∧ (s.slice c).gain = s.gainHi c)) ∧
    (∃ (s : State) (u : Nat), Sound s ∧ (∃ c, c < 128 ∧ s.gainLo c < s.gainHi c ∧ s.underTest c = false ∧
      (∃ bits, (s.slice c).gain = s.gainLo c ∧
      2 * s.agCycle c ≤ (s.windowAt c u bits).1.qual * 1000000000 / s.rate (s.governs c) ∧
      ((s.windowAt c u bits).2 = true ∨ 3 * s.agCycle c ≤ (s.windowAt c u bits).1.qual * 1000000000 / s.rate (s.governs c))))) ∧
    (∃ (s : State), Sound s ∧ (∃ c, c < 128)) ∧
    (∃ (s : State), Sound s ∧ (∃ j rest, s.eng.diag = none ∧ s.eng.diagQueue = j :: rest ∧ j < 64 ∧ s.eng.mode = 1 ∧
      (s.conv (j % 4)).dac = 0 ∧ (s.conv (j % 4)).stRun = false)) ∧
    (∃ (s : State), Sound s ∧ (∃ d, s.eng.diag = some d ∧ d.course < 64 ∧ d.first + 32 ≤ s.frm ∧ 4 ≤ d.means.length)) ∧
    (∃ (s : State) (u : Nat), Sound s ∧ (∃ j r, s.eng.mode = 1 ∧ (s.course j).state = .unresolved ∧
      (s.course j).repeatDue = some r ∧ r ≤ u)) ∧
    (∃ (s : State), Sound s ∧ (∃ j, (s.course j).state = .unresolved ∧ 4000 ≤ (s.course j).okRun)) :=
  ⟨⟨(cfg [(CH_GAIN, 127, 0x10)]).modSlice 127 (fun x => { x with gain := 1 }), sound_of (by decide +kernel), 127,
    by decide +kernel⟩,
   ⟨(cfg [(CH_GAIN, 127, 0x10)]).modSlice 127 (fun x => { x with gain := 0, qual := 1920 }), 1000000000,
     sound_of (by decide +kernel), 127, by decide +kernel, by decide +kernel, by decide +kernel, [], by decide +kernel⟩,
   ⟨up, up_sound, 127, by decide +kernel⟩,
   ⟨up.modEng (fun e => { e with mode := 1, diagQueue := [63] }), sound_of (by decide +kernel), 63, [], by decide +kernel⟩,
   ⟨up.modEng (fun e => { e with diag := some ⟨63, 3968, [0, 0, 0, 0]⟩ }), sound_of (by decide +kernel), ⟨63, 3968, [0, 0, 0, 0]⟩,
     by decide +kernel⟩,
   ⟨((up.modEng (fun e => { e with mode := 1 })).modCourse 63 (fun c => { c with state := .unresolved, repeatDue := some 10 })),
     10, sound_of (by decide +kernel), 63, 10, by decide +kernel⟩,
   ⟨((up.modEng (fun e => { e with mode := 1 })).modCourse 63 (fun c => { c with state := .unresolved, okRun := 4000 })),
     sound_of (by decide +kernel), 63, by decide +kernel⟩⟩

/-- What `Obligations.SensorAndPulseEventsComplete` assumes is met. -/
theorem wit_SensorAndPulseEventsComplete :
    (∃ (s : State) (p : Nat), Sound s ∧ p < 16 ∧ (∃ src cause, s.faultDue p src cause = true)) ∧
    (∃ (s : State) (p : Nat), Sound s ∧ p < 16 ∧ (∃ src cause, s.faultOver p src cause = true)) ∧
    (∃ (s : State) (p : Nat), Sound s ∧ p < 16 ∧ s.excLevel p ≠ 0) ∧
    (∃ (s : State) (p : Nat), Sound s ∧ p < 16 ∧ isFluid (s.ptType p) = true ∧ s.pn PT_PLS_MODE p = 1 ∧
      (∃ held, held < 100 * s.pn PT_PLS_FILTER p)) ∧
    (∃ (s : State) (p : Nat), Sound s ∧ p < 16 ∧ isFluid (s.ptType p) = true ∧ s.pn PT_PLS_MODE p = 1 ∧
      (∃ held, 100 * s.pn PT_PLS_FILTER p ≤ held ∧ s.pn PT_PLS_MIN_FREQ p = 0)) ∧
    (∃ (s : State) (u : Nat) (p : Nat), Sound s ∧ p < 16 ∧ (∃ d, (s.pt p).mpo.trailDue = some d ∧ d ≤ u)) ∧
    (∃ (s : State) (u : Nat) (p : Nat), Sound s ∧ p < 16 ∧ (∃ e rest, s.mpoOn p = true ∧ (s.pt p).mpo.trailDue = none ∧
      (s.pt p).mpo.backlog = 0 ∧ (s.pt p).mpo.sched = e :: rest ∧ e ≤ u ∧ (s.pt p).mpo.notBefore ≤ e)) :=
  ⟨⟨(cfg [(CH_FILTER, 120, 1), (CH_LIMIT_FRAMES, 120, 40), (PT_TYPE, 15,
    4)]).modSlice 120 (fun x => { x with outRun := 40, outSide := 0 }), 15, sound_of (by decide +kernel), by decide +kernel, 0, 0,
    by decide +kernel⟩,
   ⟨(cfg [(CH_FILTER, 120, 1), (CH_LIMIT_FRAMES, 120, 40), (PT_TYPE, 15,
     4)]).modSlice 120 (fun x => { x with limFault := some 0, inRun := 40 }), 15, sound_of (by decide +kernel), by decide +kernel,
     0, 0, by decide +kernel⟩,
   ⟨cfg [(PT_TYPE, 15, 5), (PT_FL_INPUT_0 + 1, 15, 3), (ND_EXC_LEVELS, 0, 0xFFFFFFFF)], 15, sound_of (by decide +kernel),
     by decide +kernel⟩,
   ⟨(cfg [(PT_TYPE, 15, 6), (PT_PLS_MODE, 15, 1), (PT_PLS_FILTER, 15, 2), (PT_PLS_MIN_FREQ, 15, 0)]), 15,
     sound_of (by decide +kernel), by decide +kernel, by decide +kernel, by decide +kernel, 199, by decide +kernel⟩,
   ⟨(cfg [(PT_TYPE, 15, 6), (PT_PLS_MODE, 15, 1), (PT_PLS_FILTER, 15, 2), (PT_PLS_MIN_FREQ, 15, 0)]), 15,
     sound_of (by decide +kernel), by decide +kernel, by decide +kernel, by decide +kernel, 200, by decide +kernel⟩,
   ⟨ac.modPt 15 (fun x => { x with mpo := { x.mpo with trailDue := some 10 } }), 10, 15, sound_of (by decide +kernel),
     by decide +kernel, 10, by decide +kernel⟩,
   ⟨(cfg [(PT_TYPE, 15, 3), (PT_MPO_ENABLE, 15, 1)]).modPt 15 (fun x => { x with mpo := { x.mpo with sched := [10] } }), 10, 15,
     sound_of (by decide +kernel), by decide +kernel, 10, [], by decide +kernel⟩⟩

/-- What `Obligations.SarEventsComplete` assumes is met. -/
theorem wit_SarEventsComplete :
    (∃ (s : State) (u : Nat), Sound s ∧ (∃ i d, i < 8 ∧ 3 ≤ s.pwr.stage ∧ s.sar.timerNext.getD i none = some d ∧ d ≤ u ∧
      (∀ k, k < 4 → (s.conv k).entries.length = 32))) ∧
    (∃ (s : State) (u : Nat), Sound s ∧ (∃ k i a rest, k < 4 ∧ i < 32 ∧ (s.sarEntry k i).trigAt = a :: rest ∧ a ≤ u)) ∧
    (∃ (s : State) (u : Nat), Sound s ∧ (∃ k i d a rest code sampled, k < 4 ∧ (s.conv k).pend = (i, d, a) :: rest ∧ i < 32 ∧
      (s.conv k).entries.length = 32 ∧ code < 4096 ∧ a ≤ sampled ∧ sampled ≤ u)) ∧
    (∃ (s : State), Sound s ∧ 3 ≤ s.pwr.stage) ∧
    (∃ (s : State) (u : Nat), Sound s ∧ (∃ k, k < 4 ∧ 3 ≤ s.pwr.stage ∧ (s.conv k).stRun = false ∧
      ((s.conv k).stWait = true ∨ ripeAt (s.conv k).stDue u = true))) ∧
    (∃ (s : State), Sound s ∧ (∃ (k : _) (sums : List Int), k < 4 ∧ (s.conv k).stRun = true ∧ sums.length = 4)) :=
  ⟨⟨up.modSar (fun x => { x with timerNext := x.timerNext.set 7 (some 10) }), 10, sound_of (by decide +kernel), 7, 10,
    by decide +kernel⟩,
   ⟨up.modEntry 3 31 (fun e => { e with trigAt := [10] }), 10, sound_of (by decide +kernel), 3, 31, 10, ([] : List Nat),
     by decide +kernel⟩,
   ⟨up.modConv 3 (fun c => { c with pend := [(31, 0, 5)] }), 5, sound_of (by decide +kernel), 3, 31, 0, 5,
     ([] : List (Nat × Nat × Nat)), 4095, 5, by decide +kernel⟩,
   ⟨up, up_sound, by decide +kernel⟩,
   ⟨up.modConv 3 (fun c => { c with stWait := true }), 2000000000000, sound_of (by decide +kernel), 3, by decide +kernel⟩,
   ⟨up.modConv 3 (fun c => { c with stRun := true }), sound_of (by decide +kernel), 3, [0, 0, 0, 0], by decide +kernel⟩⟩

/-- What `Obligations.PlcEventsComplete` assumes is met. -/
theorem wit_PlcEventsComplete :
    (∃ (s : State), Sound s ∧ (∃ port, port < 18 ∧ s.pwr.coreOn = true ∧ s.plcPowered port = true ∧
      (s.plcPort port).stream = none)) ∧
    (∃ (s : State), Sound s ∧ s.pwr.coreOn = true) ∧
    (∃ (s : State), Sound s ∧ (∃ (y : Sym), s.pwr.coreOn = true ∧ s.presents y = true ∧ y.alt = false ∧ y.tx = true ∧
      y.last = false)) ∧
    (∃ (s : State), Sound s ∧ (∃ p, p < 16 ∧ s.plcPowered p = true ∧ (s.outOf p).slacMatched.isSome = true ∧
      (s.plcPort p).link = false ∧ s.fw.svcRunning = true)) ∧
    (∃ (s : State) (u : Nat), Sound s ∧ (∃ p d, p < 16 ∧ (s.plcPort p).link = true ∧ (s.plcPort p).linkDue = some d ∧ d ≤ u)) :=
  ⟨⟨(cfg [(ND_PLC_MAINS, 0, 2)]), sound_of (by decide +kernel), 17, by decide +kernel⟩,
   ⟨up, up_sound, by decide +kernel⟩,
   ⟨(cfg [(ND_PLC_MAINS, 0, 2)]), sound_of (by decide +kernel), ⟨17, true, false, 0, false, 0, 0, 0, 0, 0, 0, [], false, []⟩,
     by decide +kernel⟩,
   ⟨(cfg [(PT_TYPE, 15, 1), (PT_OUT_HLC, 15, 1), (PT_OUT_PROTOCOLS, 15,
     7)]).modOut 15 (fun o => { o with slacMatched := some 0 }), sound_of (by decide +kernel), 15, by decide +kernel⟩,
   ⟨up.modPlcPort 15 (fun x => { x with link := true, linkDue := some 10 }), 10, sound_of (by decide +kernel), 15, 10,
     by decide +kernel⟩⟩

/-- What `Obligations.OutletPilotAndResidualEventsComplete` assumes is met. -/
theorem wit_OutletPilotAndResidualEventsComplete :
    (∃ (s : State) (u : Nat), Sound s ∧ (∃ c comp input, 
      let p := pointOf c
      c < 128 ∧ comp < 6 ∧ s.isOutlet p = true ∧ s.contactor p < 32 ∧ s.tripDue u c comp input = true ∧ (¬ ((s.outOf p).test = 1 ∧
        (s.outOf p).testSlices.head? = some c)))) ∧
    (∃ (s : State) (u : Nat), Sound s ∧ (∃ c comp input, 
      let p := pointOf c
      c < 128 ∧ comp < 6 ∧ s.isOutlet p = true ∧ s.contactor p < 32 ∧ s.tripDue u c comp input = true ∧ (s.outOf p).test = 1 ∧
        (s.outOf p).testSlices.head? = some c ∧ (∀ d, (s.outOf p).testDue = some d → u ≤ d))) ∧
    (∃ (s : State), Sound s ∧ (∃ p c, p < 16 ∧ (s.outOf p).test = 1 ∧ (s.outOf p).testSlices = [c] ∧ c < 128 ∧
      (s.outOf p).testTrip = true)) ∧
    (∃ (s : State) (u : Nat), Sound s ∧ (∃ p c, p < 16 ∧ (s.outOf p).test = 1 ∧ (s.outOf p).testSlices = [c] ∧ c < 128 ∧
      (s.outOf p).testTrip = false ∧ ripeAt (s.outOf p).testDue u = true ∧ (s.sesOf p).state ≠ .authorised)) ∧
    (∃ (s : State) (u : Nat), Sound s ∧ (∃ p, 
      let e := (s.at u).t0 (s.frm / 4 * 4) + 62500 * p
      p < 16 ∧ 3 ≤ s.pwr.stage ∧ e ≤ u ∧ e ≠ (s.outOf p).periodAt)) ∧
    (∃ (s : State), Sound s ∧ (∃ p, p < 16 ∧ s.isOutlet p = true ∧ s.pwr.capoOn = true ∧ (s.outOf p).duty ≠ 0 ∧
      (s.outOf p).cand ≠ (s.outOf p).code ∧ s.pn PT_CP_STABLE p ≤ (s.outOf p).run ∧ 4 ≤ (s.outOf p).cand ∧
      (s.sesOf p).state ≠ .fault)) ∧
    (∃ (s : State), Sound s ∧ (∃ p, p < 16 ∧ s.isOutlet p = true ∧ s.pwr.capoOn = true ∧ (s.outOf p).duty ≠ 0 ∧
      (s.outOf p).cand ≠ (s.outOf p).code ∧ s.pn PT_CP_STABLE p ≤ (s.outOf p).run ∧ (s.outOf p).code = 0 ∧ (s.outOf p).cand = 1 ∧
      (s.sesOf p).state = .idle)) ∧
    (∃ (s : State), Sound s ∧ (∃ p, p < 16 ∧ s.hasSocket p = true ∧ s.pwr.capoOn = true ∧
      (s.outOf p).ppCand ≠ (s.outOf p).ppCode ∧ 10 ≤ (s.outOf p).ppRun)) :=
  ⟨⟨ac.modSlice 127 (fun x => { x with comps := x.comps.set 5 ⟨0, 1, true⟩, aboveAt := x.aboveAt.set 5 (some 2000000000) }),
    2000100000, sound_of (by decide +kernel), 127, 5, [], by decide +kernel⟩,
   ⟨(ac.modSlice 127 (fun x =>
     { x with comps := x.comps.set 5 ⟨0, 1, true⟩, aboveAt := x.aboveAt.set 5 (some 2000000000) })).modOut 15 (fun o =>
     { o with test := 1, testSlices := [127] }), 2000100000, sound_of (by decide +kernel), 127, 5, [], by decide +kernel,
     by decide +kernel, by decide +kernel, by decide +kernel, by decide +kernel, by decide +kernel, by decide +kernel,
     none_forall (by decide +kernel)⟩,
   ⟨ac.modOut 15 (fun o => { o with test := 1, testSlices := [127], testTrip := true }), sound_of (by decide +kernel), 15, 127,
     by decide +kernel⟩,
   ⟨ac.modOut 15 (fun o => { o with test := 1, testSlices := [127], testDue := some 10 }), 10, sound_of (by decide +kernel), 15,
     127, by decide +kernel⟩,
   ⟨up, 1000937500, up_sound, 15, by decide +kernel⟩,
   ⟨ac.modOut 15 (fun o => { o with duty := 100, cand := 4, run := 1000 }), sound_of (by decide +kernel), 15, by decide +kernel⟩,
   ⟨ac.modOut 15 (fun o => { o with duty := 100, cand := 1, run := 1000 }), sound_of (by decide +kernel), 15, by decide +kernel⟩,
   ⟨(cfg [(PT_TYPE, 15, 1), (PT_OUT_PP_MODE, 15, 1)]).modOut 15 (fun o => { o with ppCand := 1, ppRun := 10 }),
     sound_of (by decide +kernel), 15, by decide +kernel⟩⟩

/-- What `Obligations.OutletCommunicationAndWeldEventsComplete` assumes is met. -/
theorem wit_OutletCommunicationAndWeldEventsComplete :
    (∃ (s : State) (p : Nat), Sound s ∧ p < 16 ∧ s.isSession p = true ∧ (∃ (m : V2gMsg), s.seccServes p = true ∧
      (∃ x, m.kind = 0 ∧ s.chooseProtocol p m.offered = some x))) ∧
    (∃ (s : State) (p : Nat), Sound s ∧ p < 16 ∧ s.isSession p = true ∧ (∃ (m : V2gMsg), s.seccServes p = true ∧ m.kind = 7)) ∧
    (∃ (s : State) (p : Nat), Sound s ∧ p < 16 ∧ s.isSession p = true ∧ (∃ (m : V2gMsg), s.seccServes p = true ∧ m.kind = 10)) ∧
    (∃ (s : State) (p : Nat), Sound s ∧ p < 16 ∧ s.isSession p = true ∧ (s.outOf p).v2g = true ∧ (s.outOf p).paused = false) ∧
    (∃ (s : State) (u : Nat) (p : Nat), Sound s ∧ p < 16 ∧ s.isSession p = true ∧ (∃ d, (s.outOf p).lossDue = some d ∧ d ≤ u ∧
      (s.plcPort p).link = false ∧ s.fw.svcRunning = true)) ∧
    (∃ (s : State) (u : Nat) (p : Nat), Sound s ∧ p < 16 ∧ s.isSession p = true ∧ (∃ d, (s.outOf p).dcDue = some d ∧ d ≤ u)) ∧
    (∃ (s : State) (p : Nat), Sound s ∧ p < 16 ∧ s.isSession p = true ∧ s.fw.svcRunning = true) ∧
    (∃ (s : State) (p : Nat), Sound s ∧ p < 16 ∧ s.isSession p = true ∧ (∃ run, s.slacEligible p = true ∧
      run ∈ (s.outOf p).slacPending)) ∧
    (∃ (s : State) (u : Nat) (p : Nat), Sound s ∧ p < 16 ∧ s.isSession p = true ∧
      (∃ src slot, (s.at u).weldCondition p = some (src, slot) ∧ (s.outOf p).weld = false ∧ s.pwr.capoOn = true)) ∧
    (∃ (s : State) (u : Nat) (p : Nat), Sound s ∧ p < 16 ∧ s.isSession p = true ∧ (∃ g, (s.outOf p).weld = true ∧
      (s.outOf p).weldGone = some g ∧ g + 1000000000 ≤ u)) :=
  ⟨⟨((cfg [(PT_TYPE, 15, 1), (PT_OUT_HLC, 15, 1), (PT_OUT_PROTOCOLS, 15, 7)]).modPlcPort 15 (fun x => { x with link := true })),
    15, sound_of (by decide +kernel), by decide +kernel, by decide +kernel, ⟨0, [2], 0, 0, [], 0, 0, 0⟩, by decide +kernel, 2,
    by decide +kernel⟩,
   ⟨((cfg [(PT_TYPE, 15, 1), (PT_OUT_HLC, 15, 1), (PT_OUT_PROTOCOLS, 15, 7)]).modPlcPort 15 (fun x => { x with link := true })),
     15, sound_of (by decide +kernel), by decide +kernel, by decide +kernel, ⟨7, [2], 0, 0, [], 0, 0, 0⟩, by decide +kernel⟩,
   ⟨((cfg [(PT_TYPE, 15, 1), (PT_OUT_HLC, 15, 1), (PT_OUT_PROTOCOLS, 15, 7)]).modPlcPort 15 (fun x => { x with link := true })),
     15, sound_of (by decide +kernel), by decide +kernel, by decide +kernel, ⟨10, [2], 0, 0, [], 0, 0, 0⟩, by decide +kernel⟩,
   ⟨ac.modOut 15 (fun o => { o with v2g := true }), 15, sound_of (by decide +kernel), by decide +kernel⟩,
   ⟨ac.modOut 15 (fun o => { o with lossDue := some 10 }), 10, 15, sound_of (by decide +kernel), by decide +kernel,
     by decide +kernel, 10, by decide +kernel⟩,
   ⟨ac.modOut 15 (fun o => { o with dcDue := some 10 }), 10, 15, sound_of (by decide +kernel), by decide +kernel,
     by decide +kernel, 10, by decide +kernel⟩,
   ⟨ac, 15, sound_of (by decide +kernel), by decide +kernel⟩,
   ⟨(cfg [(PT_TYPE, 15, 1), (PT_OUT_HLC, 15, 1), (PT_OUT_PROTOCOLS, 15,
     7)]).modOut 15 (fun o => { o with duty := 100, code := 1, slacPending := [1] }), 15, sound_of (by decide +kernel),
     by decide +kernel, by decide +kernel, 1, by decide +kernel⟩,
   ⟨(cfg [(PT_TYPE, 15, 1), (PT_WELD_MIRROR, 15, 1)]).modOut 15 (fun o => { o with offAt := some 0 }), 2000000000, 15,
     sound_of (by decide +kernel), by decide +kernel, by decide +kernel, 1, 255, by decide +kernel⟩,
   ⟨ac.modOut 15 (fun o => { o with weld := true, weldGone := some 0 }), 1000000000, 15, sound_of (by decide +kernel),
     by decide +kernel, by decide +kernel, 0, by decide +kernel⟩⟩

/-- What `Obligations.SessionTimersComplete` assumes is met. -/
theorem wit_SessionTimersComplete :
    (∃ (s : State) (u : Nat) (p : Nat), Sound s ∧ p < 16 ∧ (s.sesOf p).state = .authorising ∧
      (s.sesOf p).entry + s.pn PT_AUTH_TIMEOUT p * 1000000000 ≤ u) ∧
    (∃ (s : State) (u : Nat) (p : Nat), Sound s ∧ p < 16 ∧ (s.sesOf p).state = .authorised ∧
      (s.sesOf p).entry + s.pn PT_START_TIMEOUT p * 1000000000 ≤ u) ∧
    (∃ (s : State) (u : Nat) (p : Nat), Sound s ∧ p < 16 ∧ (∃ d, (s.sesOf p).state = .stopping ∧ (s.sesOf p).offDone = false ∧
      (s.sesOf p).graceDue = some d ∧ d ≤ u)) ∧
    (∃ (s : State) (u : Nat) (p : Nat), Sound s ∧ p < 16 ∧ (∃ d, (s.sesOf p).state = .stopping ∧ (s.sesOf p).offDone = true ∧
      (s.sesOf p).settleDue = some d ∧ d ≤ u)) :=
  ⟨⟨ses .authorising, 2000000000000, 15, sound_of (by decide +kernel), by decide +kernel⟩,
   ⟨ses .authorised, 2000000000000, 15, sound_of (by decide +kernel), by decide +kernel⟩,
   ⟨(ses .stopping).modSes 15 (fun x => { x with graceDue := some 10 }), 10, 15, sound_of (by decide +kernel), by decide +kernel,
     10, by decide +kernel⟩,
   ⟨(ses .stopping).modSes 15 (fun x => { x with offDone := true, settleDue := some 10 }), 10, 15, sound_of (by decide +kernel),
     by decide +kernel, 10, by decide +kernel⟩⟩

/-- What `Obligations.SafetyEventsComplete` assumes is met. -/
theorem wit_SafetyEventsComplete :
    (∃ (s : State), Sound s ∧ (∃ k n, k < 32 ∧ n < s.pn (PT_SI_FILTER_0 + k % 2) (k / 2))) ∧
    (∃ (s : State) (u : Nat), Sound s ∧ (∃ k n, k < 32 ∧ s.saf.live = true ∧ s.pn (PT_SI_FILTER_0 + k % 2) (k / 2) ≤ n ∧
      s.siMode k ≠ 0 ∧ s.saf.liveAt + (s.pn (PT_SI_FILTER_0 + k % 2) (k / 2) - 1) * 100000 ≤ u)) ∧
    (∃ (s : State) (u : Nat), Sound s ∧ (∃ k d, k < 32 ∧ (s.safIn k).latched = false ∧ (s.safIn k).disFrom = some d ∧
      d + s.pn (PT_SI_TD_0 + k % 2) (k / 2) * 1000000 ≤ u)) ∧
    (∃ (s : State) (u : Nat), Sound s ∧ (∃ k d, k < 32 ∧ (s.safIn k).trip = true ∧ (s.safIn k).demand = false ∧
      (s.safIn k).latched = false ∧ (s.safIn k).autoDue = some d ∧ d ≤ u)) ∧
    (∃ (s : State) (u : Nat), Sound s ∧ (∃ i d, i < 16 ∧ (s.scEntry i).ended = true ∧ (s.scEntry i).demand = false ∧
      (s.scEntry i).autoDue = some d ∧ d ≤ u)) ∧
    (∃ (s : State) (u : Nat), Sound s ∧ (∃ i d, 
      let e := s.scEntry i
      s.isProducer i = true ∧ s.saf.live = true ∧ s.pwr.capoOn = true ∧ s.pwr.capoReset = false ∧ e.sendDue = some d ∧ d ≤ u ∧
        s.behindDelay i = false ∧ s.test.eff.safAction = 0)) ∧
    (∃ (s : State), Sound s ∧ (∃ (i : _) (msg : Bytes), s.isConsumer i = true ∧ s.saf.live = true ∧ s.pwr.capoOn = true ∧
      s.pwr.capoReset = false ∧ s.behindDelay i = false ∧ s.test.eff.safAction = 0 ∧ msg.length = 16 ∧ fld msg 6 2 = 1 ∧
      fld msg 12 4 ≠ scCrc (s.scIdentity i) msg ∧ (s.scEntry i).state ≠ 2)) ∧
    (∃ (s : State), Sound s ∧ (∃ (i : _) (msg : Bytes), s.isConsumer i = true ∧ s.saf.live = true ∧ s.pwr.capoOn = true ∧
      s.pwr.capoReset = false ∧ s.behindDelay i = false ∧ s.test.eff.safAction = 0 ∧ msg.length = 16 ∧ fld msg 6 2 = 1 ∧
      fld msg 12 4 = scCrc (s.scIdentity i) msg ∧ fld msg 2 1 = scKind (s.scConf i) ∧ (s.scEntry i).state = 1 ∧
      (s.scEntry i).demand = false ∧ fld msg 3 1 % 2 = 0 ∧
      (∀ l, (s.scEntry i).last = some l → 0 < (fld msg 0 2 + 65536 - l) % 65536 ∧ (fld msg 0 2 + 65536 - l) % 65536 < 5))) ∧
    (∃ (s : State) (u : Nat), Sound s ∧ (∃ i, s.isConsumer i = true ∧ s.pwr.capoOn = true ∧ (s.scEntry i).state = 1 ∧
      (s.scEntry i).lastAt + s.pn (ND_SC_TIME_0 + i) * 1000000 < u)) ∧
    (∃ (s : State) (u : Nat), Sound s ∧ (∃ i closed since, i < 8 ∧ since + 20000000 ≤ u ∧ s.pwr.capoOn = true ∧
      s.pwr.capoReset = false ∧ s.host.metering = true ∧ putBit s.saf.seals i closed ≠ s.saf.seals)) :=
  ⟨⟨(cfg [(PT_TYPE, 15, 3), (PT_SI_MODE_0 + 1, 15, 1), (PT_SI_FILTER_0 + 1, 15, 5)]), sound_of (by decide +kernel), 31, 4,
    by decide +kernel⟩,
   ⟨(cfg [(PT_TYPE, 15, 3), (PT_SI_MODE_0 + 1, 15, 1), (PT_SI_FILTER_0 + 1, 15, 5)]), 2000000000000, sound_of (by decide +kernel),
     31, 5, by decide +kernel⟩,
   ⟨(cfg [(PT_TYPE, 15, 3), (PT_SI_MODE_0 + 1, 15, 1), (PT_SI_FILTER_0 + 1, 15,
     5)]).modSafIn 31 (fun x => { x with disFrom := some 0 }), 2000000000000, sound_of (by decide +kernel), 31, 0,
     by decide +kernel⟩,
   ⟨(cfg [(PT_TYPE, 15, 3), (PT_SI_MODE_0 + 1, 15, 1), (PT_SI_FILTER_0 + 1, 15,
     5)]).modSafIn 31 (fun x => { x with trip := true, demand := false, autoDue := some 10 }), 10, sound_of (by decide +kernel),
     31, 10, by decide +kernel⟩,
   ⟨(cfg [(ND_SC_CONF_0 + 15, 0,
     0x80000000)]).modScEntry 15 (fun x => { x with ended := true, demand := false, autoDue := some 10 }), 10,
     sound_of (by decide +kernel), 15, 10, by decide +kernel⟩,
   ⟨(cfg [(ND_SC_CONF_0 + 15, 0, 0xC0000000)]).modScEntry 15 (fun x => { x with sendDue := some 10 }), 10,
     sound_of (by decide +kernel), 15, 10, by decide +kernel⟩,
   ⟨(cfg [(ND_SC_CONF_0 + 15, 0, 0x80000000)]), sound_of (by decide +kernel), 15, [0, 0, 1, 0, 0, 0, 1, 0, 0, 0, 0, 0, 0, 0, 0,
     0], by decide +kernel⟩,
   ⟨(cfg [(ND_SC_CONF_0 + 15, 0, 0x80000000)]).modScEntry 15 (fun x => { x with state := 1, demand := false }),
     sound_of (by decide +kernel), 15, [0, 0, 1, 0, 0, 0, 1, 0, 0, 0, 0, 0, 0, 0, 0, 0].take 12 ++ le 4 (scCrc 0 [0, 0, 1, 0, 0,
     0, 1, 0, 0, 0, 0, 0, 0, 0, 0, 0]), by decide +kernel⟩,
   ⟨(cfg [(ND_SC_CONF_0 + 15, 0, 0x80000000)]).modScEntry 15 (fun x => { x with state := 1, lastAt := 0 }), 2000000000000,
     sound_of (by decide +kernel), 15, by decide +kernel⟩,
   ⟨up, 20000000, up_sound, 7, true, 0, by decide +kernel⟩⟩

/-- What `Obligations.SwitchProtectionEventsComplete` assumes is met. -/
theorem wit_SwitchProtectionEventsComplete :
    (∃ (s : State) (n : Nat), Sound s ∧ n < 32 ∧ s.sw.powered = true ∧ (s.swch n).on = true ∧ s.safeOn n = false ∧
      (s.swch n).limiting = false) ∧
    (∃ (s : State) (n : Nat), Sound s ∧ n < 32 ∧ s.sw.powered = true ∧ (s.swch n).on = true) ∧
    (∃ (s : State) (u : Nat) (n : Nat), Sound s ∧ n < 32 ∧ s.sw.powered = true ∧ (∃ d, (s.swch n).limiting = true ∧
      (s.swch n).ovlDue = some d ∧ d ≤ u ∧ s.safeOn n = false)) ∧
    (∃ (s : State) (n : Nat), Sound s ∧ n < 32 ∧ s.sw.powered = true ∧ (∃ tj, (s.swch n).therm = false ∧ 1700 ≤ tj ∧
      s.safeOn n = false)) ∧
    (∃ (s : State) (n : Nat), Sound s ∧ n < 32 ∧ s.sw.powered = true ∧ (∃ tj, (s.swch n).therm = false ∧ 1700 ≤ tj ∧
      s.safeOn n = true)) ∧
    (∃ (s : State) (n : Nat), Sound s ∧ n < 32 ∧ s.sw.powered = true ∧ (∃ tj, tj ≤ 1650 ∧ (s.swch n).regulating = false ∧
      (s.swch n).therm = true ∧ (s.swch n).fsHold = false ∧ 0 < (s.swch n).retries)) ∧
    (∃ (s : State) (u : Nat) (n : Nat), Sound s ∧ n < 32 ∧ s.sw.powered = true ∧ (∃ d, (s.swch n).retryDue = some d ∧ d ≤ u ∧
      (s.swch n).fsHold = false ∧ (s.swch n).therm = false)) ∧
    (∃ (s : State) (u : Nat) (n : Nat), Sound s ∧ n < 32 ∧ s.sw.powered = true ∧ (∃ a, (s.swch n).onSince = some a ∧
      a + 10000000000 ≤ u ∧ (s.swch n).on = true ∧ (s.swch n).therm = false)) ∧
    (∃ (s : State) (u : Nat) (n : Nat), Sound s ∧ n < 32 ∧ s.sw.powered = true ∧ (∃ since, (s.swch n).on = false ∧
      s.ptType (n / 2) ≠ 0 ∧ (s.pn PT_SW_OL_ENABLE (n / 2)).testBit (n % 2) = true ∧ (s.swch n).offAt + 2000000 ≤ since ∧
      since + 10000000 ≤ u ∧ (s.swch n).openLoad = false)) ∧
    (∃ (s : State) (u : Nat) (n : Nat), Sound s ∧ n < 32 ∧ s.sw.powered = true ∧ (∃ since, (s.swch n).on = false ∧
      s.ptType (n / 2) ≠ 0 ∧ (s.pn PT_SW_OL_ENABLE (n / 2)).testBit (n % 2) = true ∧ (s.swch n).offAt + 2000000 ≤ since ∧
      since + 10000000 ≤ u ∧ (s.swch n).openLoad = true)) :=
  ⟨⟨up.modSwch 31 (fun c => { c with on := true }), 31, sound_of (by decide +kernel), by decide +kernel⟩,
   ⟨up.modSwch 31 (fun c => { c with on := true, limiting := true }), 31, sound_of (by decide +kernel), by decide +kernel⟩,
   ⟨up.modSwch 31 (fun c => { c with limiting := true, ovlDue := some 10 }), 10, 31, sound_of (by decide +kernel),
     by decide +kernel, by decide +kernel, 10, by decide +kernel⟩,
   ⟨up, 31, up_sound, by decide +kernel, by decide +kernel, 1700, by decide +kernel⟩,
   ⟨up.modSw (fun x => { x with fstable := 2 ^ 31 }), 31, sound_of (by decide +kernel), by decide +kernel, by decide +kernel,
     1700, by decide +kernel⟩,
   ⟨up.modSwch 31 (fun c => { c with therm := true, retries := 1 }), 31, sound_of (by decide +kernel), by decide +kernel,
     by decide +kernel, 1650, by decide +kernel⟩,
   ⟨up.modSwch 31 (fun c => { c with retryDue := some 10 }), 10, 31, sound_of (by decide +kernel), by decide +kernel,
     by decide +kernel, 10, by decide +kernel⟩,
   ⟨up.modSwch 31 (fun c => { c with on := true, onSince := some 0 }), 10000000000, 31, sound_of (by decide +kernel),
     by decide +kernel, by decide +kernel, 0, by decide +kernel⟩,
   ⟨(cfg [(PT_TYPE, 15, 3), (PT_SW_OL_ENABLE, 15, 3)]), 12000000, 31, sound_of (by decide +kernel), by decide +kernel,
     by decide +kernel, 2000000, by decide +kernel⟩,
   ⟨(cfg [(PT_TYPE, 15, 3), (PT_SW_OL_ENABLE, 15, 3)]).modSwch 31 (fun c => { c with openLoad := true }), 12000000, 31,
     sound_of (by decide +kernel), by decide +kernel, by decide +kernel, 2000000, by decide +kernel⟩⟩

/-- What `Obligations.SwitchSupplyAndWatchdogEventsComplete` assumes is met. -/
theorem wit_SwitchSupplyAndWatchdogEventsComplete :
    (∃ (s : State), Sound s ∧ (∃ v, s.sw.powered = true ∧ s.sw.uv = false ∧ v ≤ 1630 ∧ s.sw.phase < 3)) ∧
    (∃ (s : State), Sound s ∧ (∃ v, s.sw.powered = true ∧ s.sw.uv = true ∧ 1720 ≤ v)) ∧
    (∃ (s : State), Sound s ∧ (∃ v, s.sw.powered = true ∧ s.sw.belowRide = false ∧ v ≤ 620)) ∧
    (∃ (s : State), Sound s ∧ (∃ v, s.sw.powered = true ∧ v ≤ 530)) ∧
    (∃ (s : State), Sound s ∧ (∃ v, s.sw.powered = false ∧ 530 ≤ v ∧ s.testing = false ∧ s.sw.waiting = [] ∧ s.sw.waitOps = [])) ∧
    (∃ (s : State) (u : Nat), Sound s ∧ (∃ d, s.sw.phaseDue = some d ∧ d ≤ u ∧ s.sw.phase ≠ 0)) ∧
    (∃ (s : State), Sound s ∧ (∃ seed, s.sw.rearm = true ∧ s.sw.powered = true ∧ seed ≠ 0 ∧ s.sw.waiting = [] ∧
      s.sw.waitOps = [])) ∧
    (∃ (s : State) (u : Nat), Sound s ∧ (∃ l, s.pwr.capoOn = true ∧ s.pwr.capoReset = false ∧ s.sw.powered = true ∧
      s.sw.link = true ∧ s.sw.armed = true ∧ s.test.regs.skip = 0 ∧ s.test.regs.wrong = false ∧ s.sw.lastGood = some l ∧
      s.sw.window * 1000000 ≤ 4 * (u - l) ∧ u - l ≤ s.sw.window * 1000000 ∧ s.sw.failsafe = false)) ∧
    (∃ (s : State) (u : Nat), Sound s ∧ (∃ l, s.pwr.capoOn = true ∧ s.pwr.capoReset = false ∧ s.sw.powered = true ∧
      s.sw.link = true ∧ s.sw.armed = true ∧ s.test.regs.skip = 0 ∧ s.test.regs.wrong = false ∧ s.sw.lastGood = some l ∧
      4 * (u - l) < s.sw.window * 1000000)) ∧
    (∃ (s : State) (u : Nat), Sound s ∧ (∃ l, s.sw.powered = true ∧ s.sw.armed = true ∧ s.sw.lastGood = some l ∧
      l + s.sw.window * 1000000 ≤ u)) ∧
    (∃ (s : State), Sound s) :=
  ⟨⟨up, up_sound, 1630, by decide +kernel⟩,
   ⟨up.modSw (fun x => { x with uv := true }), sound_of (by decide +kernel), 1720, by decide +kernel⟩,
   ⟨up, up_sound, 620, by decide +kernel⟩,
   ⟨up, up_sound, 530, by decide +kernel⟩,
   ⟨up.modSw (fun x => { x with powered := false }), sound_of (by decide +kernel), 530, by decide +kernel⟩,
   ⟨up.modSw (fun x => { x with phase := 1, phaseDue := some 10 }), 10, sound_of (by decide +kernel), 10, by decide +kernel⟩,
   ⟨up.modSw (fun x => { x with rearm := true }), sound_of (by decide +kernel), 1, by decide +kernel⟩,
   ⟨up, 1005000000, up_sound, 1000000000, by decide +kernel⟩,
   ⟨up, 1004999999, up_sound, 1000000000, by decide +kernel⟩,
   ⟨up, 1020000000, up_sound, 1000000000, by decide +kernel⟩,
   ⟨up, up_sound⟩⟩

/-- What `Obligations.PtpEventsComplete` assumes is met. -/
theorem wit_PtpEventsComplete :
    (∃ (s : State) (u : Nat), Sound s ∧ (∃ (m : PtpMsg) (x : _), s.ptpOn m.port = true ∧ m.supported = true ∧
      m.domain = s.pn ND_PTP_DOMAIN ∧ s.servo.master = some x ∧ x.port = m.port ∧ x.sender = m.sender ∧ s.clk.loaded = true ∧
      s.servo.refused = none ∧ 
      let t1 := 5 * (m.stamp + m.corr)
      
      let t2 := (s.at u).portStamp m.port
      
      let off := divFree (t2 - t1 - s.delayOf m.port) 5 - s.pv (ND_PTP_ASYM_LKA + m.port)
      
      let v := s.servo
      v.source = 1 ∧ v.runKey = 2 ^ 64 + x.gm ∧ v.state = .locked ∧ off.natAbs ≤ s.pn ND_JUMP_THRESH ∧ v.outRun < 15)) ∧
    (∃ (s : State) (u : Nat), Sound s ∧ (∃ (m : PtpMsg) (x : _), s.ptpOn m.port = true ∧ m.supported = true ∧
      m.domain = s.pn ND_PTP_DOMAIN ∧ s.servo.master = some x ∧ x.port = m.port ∧ x.sender = m.sender ∧ s.clk.loaded = true ∧
      s.servo.refused = none ∧ 
      let t1 := 5 * (m.stamp + m.corr)
      
      let t2 := (s.at u).portStamp m.port
      
      let off := divFree (t2 - t1 - s.delayOf m.port) 5 - s.pv (ND_PTP_ASYM_LKA + m.port)
      
      let v := s.servo
      v.source = 1 ∧ v.runKey = 2 ^ 64 + x.gm ∧ v.state = .acquiring ∧ (off - v.accepted).natAbs ≤ s.pn ND_JUMP_THRESH ∧
        off.natAbs ≤ s.pn ND_LOCK_THRESH ∧ 15 ≤ v.inRun)) ∧
    (∃ (s : State), Sound s ∧ (∃ (a : Announce), s.ptpOn a.port = true ∧ (s.pn ND_TIME_SOURCES).testBit 0 = true ∧
      a.supported = false)) ∧
    (∃ (s : State) (u : Nat), Sound s ∧ (∃ (a : Announce), s.ptpOn a.port = true ∧ (s.pn ND_TIME_SOURCES).testBit 0 = true ∧
      a.supported = true ∧ a.domain = s.pn ND_PTP_DOMAIN ∧ a.ptpTimescale = true ∧
      (s.pn ND_PTP_ROLE = 0 ∨ lexLess (masterKey (masterOf a)) (masterKey (s.at u).ownMaster) = true) ∧ s.servo.foreign = [])) ∧
    (∃ (s : State), Sound s ∧ (∃ (m : PtpMsg), s.ptpOn m.port = true ∧ m.supported = true ∧ m.domain = s.pn ND_PTP_DOMAIN ∧
      m.kind / 2 = s.pn ND_PTP_DELAY ∧ m.kind = 0)) ∧
    (∃ (s : State), Sound s ∧ (∃ (m : PtpMsg), s.ptpOn m.port = true ∧ m.supported = true ∧ m.domain = s.pn ND_PTP_DOMAIN ∧
      m.kind / 2 = s.pn ND_PTP_DELAY ∧ m.kind = 2 ∧ s.pn ND_PTP_STEP = 1)) ∧
    (∃ (s : State), Sound s ∧ (∃ (m : PtpMsg), s.ptpOn m.port = true ∧ m.supported = true ∧ m.domain = s.pn ND_PTP_DOMAIN ∧
      m.kind / 2 = s.pn ND_PTP_DELAY ∧ m.kind = 2 ∧ s.pn ND_PTP_STEP ≠ 1)) ∧
    (∃ (s : State), Sound s ∧ (∃ (m : PtpMsg), s.ptpOn m.port = true ∧ m.supported = true ∧ m.domain = s.pn ND_PTP_DOMAIN ∧
      m.kind / 2 = s.pn ND_PTP_DELAY ∧ (∃ sent, m.kind = 1 ∧ s.txStamp 2 m.port m.seq = some sent))) ∧
    (∃ (s : State), Sound s ∧ (∃ (m : PtpMsg), s.ptpOn m.port = true ∧ m.supported = true ∧ m.domain = s.pn ND_PTP_DOMAIN ∧
      m.kind / 2 = s.pn ND_PTP_DELAY ∧ (∃ sent, m.kind = 3 ∧ s.txStamp 2 m.port m.seq = some sent))) ∧
    (∃ (s : State), Sound s ∧ (∃ (m : PtpMsg), s.ptpOn m.port = true)) ∧
    (∃ (s : State) (u : Nat), Sound s ∧ (∃ port kind, s.ptpOn port = true ∧ kind < 3 ∧ s.txWanted port kind = true ∧
      (s.servo.txDue.getD (3 * port + kind) none = none ∨ ripeAt (s.servo.txDue.getD (3 * port + kind) none) u = true))) ∧
    (∃ (s : State) (u : Nat), Sound s ∧ (∃ d, s.servo.annDue = some d ∧ d ≤ u ∧ (∀ x ∈ s.servo.foreign, x.2 ≤ u))) ∧
    (∃ (s : State) (u : Nat), Sound s ∧ (∃ d, s.servo.annDue = some d ∧ d ≤ u ∧ (∃ (a : Announce) (e : _), s.pn ND_PTP_ROLE = 0 ∧
      (s.servo.foreign.filter (fun x => u < x.2) = [(a, e)])))) ∧
    (∃ (s : State) (u : Nat), Sound s ∧ (∃ d, s.servo.syncDue = some d ∧ d ≤ u)) ∧
    (∃ (s : State), Sound s ∧ s.servo.restartDue.isSome = true) :=
  ⟨⟨(cfg [(ND_PTP_PORTS, 0, 7), (ND_TIME_SOURCES, 0, 3), (ND_PTP_DELAY, 0, 1), (ND_PTP_ROLE, 0,
    0)]).modServo (fun v =>
    { v with master := some ⟨9, 0, 0, 0, 0, 0, 0, 2, 8⟩, source := 1, runKey := 2 ^ 64 + 9, state := .locked }), 2000000000,
    sound_of (by decide +kernel), ⟨2, 0, true, 8, 5, 0, 2000000000, 0, 0⟩, ⟨9, 0, 0, 0, 0, 0, 0, 2, 8⟩, by decide +kernel⟩,
   ⟨(cfg [(ND_PTP_PORTS, 0, 7), (ND_TIME_SOURCES, 0, 3), (ND_PTP_DELAY, 0, 1), (ND_PTP_ROLE, 0,
     0)]).modServo (fun v =>
     { v with master := some ⟨9, 0, 0, 0, 0, 0, 0, 2, 8⟩, source := 1, runKey := 2 ^ 64 + 9, state := .acquiring, inRun := 15 }),
     2000000000, sound_of (by decide +kernel), ⟨2, 0, true, 8, 5, 0, 2000000000, 0, 0⟩, ⟨9, 0, 0, 0, 0, 0, 0, 2, 8⟩,
     by decide +kernel⟩,
   ⟨(cfg [(ND_PTP_PORTS, 0, 7), (ND_TIME_SOURCES, 0, 3), (ND_PTP_DELAY, 0, 1), (ND_PTP_ROLE, 0, 0)]),
     sound_of (by decide +kernel), ⟨2, 0, false, true, 9, 0, 0, 0, 0, 0, 0, 8, 37, true, false, false⟩, by decide +kernel⟩,
   ⟨(cfg [(ND_PTP_PORTS, 0, 7), (ND_TIME_SOURCES, 0, 3), (ND_PTP_DELAY, 0, 1), (ND_PTP_ROLE, 0, 0)]), 2000000000000,
     sound_of (by decide +kernel), ⟨2, 0, true, true, 9, 0, 0, 0, 0, 0, 0, 8, 37, true, false, false⟩, by decide +kernel⟩,
   ⟨(cfg [(ND_PTP_PORTS, 0, 7), (ND_TIME_SOURCES, 0, 3), (ND_PTP_DELAY, 0, 0), (ND_PTP_STEP, 0, 0), (ND_PTP_ROLE, 0, 0)]),
     sound_of (by decide +kernel), ⟨2, 0, true, 8, 5, 0, 2000000000, 0, 0⟩, by decide +kernel⟩,
   ⟨(cfg [(ND_PTP_PORTS, 0, 7), (ND_TIME_SOURCES, 0, 3), (ND_PTP_DELAY, 0, 1), (ND_PTP_STEP, 0, 1), (ND_PTP_ROLE, 0, 0)]),
     sound_of (by decide +kernel), ⟨2, 0, true, 8, 5, 2, 2000000000, 0, 0⟩, by decide +kernel⟩,
   ⟨(cfg [(ND_PTP_PORTS, 0, 7), (ND_TIME_SOURCES, 0, 3), (ND_PTP_DELAY, 0, 1), (ND_PTP_STEP, 0, 0), (ND_PTP_ROLE, 0, 0)]),
     sound_of (by decide +kernel), ⟨2, 0, true, 8, 5, 2, 2000000000, 0, 0⟩, by decide +kernel⟩,
   ⟨(cfg [(ND_PTP_PORTS, 0, 7), (ND_TIME_SOURCES, 0, 3), (ND_PTP_DELAY, 0, 0), (ND_PTP_STEP, 0, 0), (ND_PTP_ROLE, 0,
     0)]).modServo (fun v => { v with txMsgs := [⟨2, 2, 5, false, 100, 0, 0⟩] }), sound_of (by decide +kernel), ⟨2, 0, true, 8, 5,
     1, 2000000000, 0, 0⟩, by decide +kernel, by decide +kernel, by decide +kernel, by decide +kernel, 100, by decide +kernel⟩,
   ⟨(cfg [(ND_PTP_PORTS, 0, 7), (ND_TIME_SOURCES, 0, 3), (ND_PTP_DELAY, 0, 1), (ND_PTP_STEP, 0, 0), (ND_PTP_ROLE, 0,
     0)]).modServo (fun v => { v with txMsgs := [⟨2, 2, 5, false, 100, 0, 0⟩] }), sound_of (by decide +kernel), ⟨2, 0, true, 8, 5,
     3, 2000000000, 0, 0⟩, by decide +kernel, by decide +kernel, by decide +kernel, by decide +kernel, 100, by decide +kernel⟩,
   ⟨(cfg [(ND_PTP_PORTS, 0, 7), (ND_TIME_SOURCES, 0, 3), (ND_PTP_DELAY, 0, 1), (ND_PTP_ROLE, 0, 0)]),
     sound_of (by decide +kernel), ⟨2, 0, true, 8, 5, 9, 2000000000, 0, 0⟩, by decide +kernel⟩,
   ⟨(cfg [(ND_PTP_PORTS, 0, 7), (ND_TIME_SOURCES, 0, 3), (ND_PTP_DELAY, 0, 1), (ND_PTP_ROLE, 0, 0)]), 2000000000000,
     sound_of (by decide +kernel), 2, 2, by decide +kernel⟩,
   ⟨up.modServo (fun v => { v with annDue := some 10 }), 10, sound_of (by decide +kernel), 10, by decide +kernel,
     by decide +kernel, by intro x hx; exact absurd hx (List.not_mem_nil)⟩,
   ⟨(cfg [(ND_PTP_PORTS, 0, 7), (ND_TIME_SOURCES, 0, 3), (ND_PTP_DELAY, 0, 1), (ND_PTP_ROLE, 0,
     0)]).modServo (fun v =>
     { v with annDue := some 10, foreign := [(⟨2, 0, true, true, 9, 0, 0, 0, 0, 0, 0, 8, 37, true, false, false⟩, 20)] }), 10,
     sound_of (by decide +kernel), 10, by decide +kernel, by decide +kernel, ⟨2, 0, true, true, 9, 0, 0, 0, 0, 0, 0, 8, 37, true,
     false, false⟩, 20, by decide +kernel⟩,
   ⟨up.modServo (fun v => { v with syncDue := some 10 }), 10, sound_of (by decide +kernel), 10, by decide +kernel⟩,
   ⟨up.modServo (fun v => { v with restartDue := some 10 }), sound_of (by decide +kernel), by decide +kernel⟩⟩

/-- What `Obligations.FrameCounterAndCrossingEventsComplete` assumes is met. -/
theorem wit_FrameCounterAndCrossingEventsComplete :
    (∃ (s : State), Sound s ∧ s.clk.loaded = false ∧ s.servo.loadReady = true ∧ s.frm % 4000 = 0 ∧ s.servo.state = .acquiring) ∧
    (∃ (s : State), Sound s ∧ (∃ off due, s.servo.step = some (off, due) ∧ due ≤ s.clk.lastTick ∧ s.frm % 4000 = 0)) ∧
    (∃ (s : State), Sound s ∧ (∃ (x : Nat) (rest : _), s.servo.zcFound = x :: rest ∧ 
      let y := ((x : Int) + s.test.eff.zc).toNat
      (∃ pred, s.servo.zc = .valid ∧ s.zcPredict = some pred ∧ ((y : Int) - pred).natAbs ≤ 200000))) ∧
    (∃ (s : State), Sound s ∧ (∃ (x : Nat) (rest : _), s.servo.zcFound = x :: rest ∧ 
      let y := ((x : Int) + s.test.eff.zc).toNat
      (∃ pred, s.servo.zc = .valid ∧ s.zcPredict = some pred ∧ 200000 < ((y : Int) - pred).natAbs ∧
        2 * pred ≤ 2 * y + s.meanPeriod ∧ s.servo.zcRejects < 24))) ∧
    (∃ (s : State), Sound s ∧ (∃ (x : Nat) (rest : _), s.servo.zcFound = x :: rest ∧ s.servo.zc ≠ .valid ∧ s.servo.zcLast = none)) ∧
    (∃ (s : State), Sound s ∧ (∃ (x : Nat) (rest : _), s.servo.zcFound = x :: rest ∧ 
      let y := ((x : Int) + s.test.eff.zc).toNat
      (∃ l, s.servo.zc ≠ .valid ∧ s.servo.zcLast = some l ∧ s.servo.zcPeriods.length = 7 ∧
        periodsAgree ((y - l) :: s.servo.zcPeriods) = true))) ∧
    (∃ (s : State) (u : Nat), Sound s ∧ (∃ pred, 3 ≤ s.pwr.stage ∧ s.servo.zcFound = [] ∧ s.servo.zc = .valid ∧
      s.zcPredict = some pred ∧ pred + 200000 + crossingLag < (s.at u).nodeNow ∧ s.servo.zcRejects < 24)) ∧
    (∃ (s : State) (u : Nat), Sound s ∧ (∃ pred, 3 ≤ s.pwr.stage ∧ s.servo.zcFound = [] ∧ s.servo.zc = .valid ∧
      s.zcPredict = some pred ∧ pred + 200000 + crossingLag < (s.at u).nodeNow ∧ 24 ≤ s.servo.zcRejects)) :=
  ⟨⟨(up.modClk (fun c => { c with loaded := false })).modServo (fun v => { v with loadReady := true, state := .acquiring }),
    sound_of (by decide +kernel), by decide +kernel⟩,
   ⟨up.modServo (fun v => { v with step := some (300000, 1000000000) }), sound_of (by decide +kernel), 300000, 1000000000,
     by decide +kernel⟩,
   ⟨(cfg [(CH_FILTER, 127, 1), (ND_ZC_CHANNEL, 0, 127), (ND_PLC_MAINS, 0,
     3)]).modServo (fun v => { v with zc := .valid, zcLast := some 1000000000, zcFound := [1020200000] }),
     sound_of (by decide +kernel), 1020200000, [], by decide +kernel, 1020000000, by decide +kernel⟩,
   ⟨(cfg [(CH_FILTER, 127, 1), (ND_ZC_CHANNEL, 0, 127), (ND_PLC_MAINS, 0,
     3)]).modServo (fun v => { v with zc := .valid, zcLast := some 1000000000, zcFound := [1020200001], zcRejects := 23 }),
     sound_of (by decide +kernel), 1020200001, [], by decide +kernel, 1020000000, by decide +kernel⟩,
   ⟨(cfg [(CH_FILTER, 127, 1), (ND_ZC_CHANNEL, 0, 127), (ND_PLC_MAINS, 0,
     3)]).modServo (fun v => { v with zc := .lost, zcLast := none, zcFound := [0] }), sound_of (by decide +kernel), 0, [],
     by decide +kernel⟩,
   ⟨(cfg [(CH_FILTER, 127, 1), (ND_ZC_CHANNEL, 0, 127), (ND_PLC_MAINS, 0,
     3)]).modServo (fun v =>
     { v with zc := .lost, zcLast := some 1000000000, zcPeriods := List.replicate 7 20000000, zcFound := [1020000000] }),
     sound_of (by decide +kernel), 1020000000, [], by decide +kernel, 1000000000, by decide +kernel⟩,
   ⟨(cfg [(CH_FILTER, 127, 1), (ND_ZC_CHANNEL, 0, 127), (ND_PLC_MAINS, 0,
     3)]).modServo (fun v => { v with zc := .valid, zcLast := some 1000000000, zcRejects := 23 }), 1154200001,
     sound_of (by decide +kernel), 1020000000, by decide +kernel⟩,
   ⟨(cfg [(CH_FILTER, 127, 1), (ND_ZC_CHANNEL, 0, 127), (ND_PLC_MAINS, 0,
     3)]).modServo (fun v => { v with zc := .valid, zcLast := some 1000000000, zcRejects := 24 }), 1154200001,
     sound_of (by decide +kernel), 1020000000, by decide +kernel⟩⟩

/-- What `Obligations.BeaconAndPinEventsComplete` assumes is met. -/
theorem wit_BeaconAndPinEventsComplete :
    (∃ (s : State), Sound s ∧ (∃ (b : Beacon), 3 ≤ s.pwr.stage ∧ (b.port = 16 ∨ b.port = 17) ∧
      (s.pn ND_PLC_MAINS).testBit (b.port - 16) = true ∧ s.neighbour b.node = none)) ∧
    (∃ (s : State) (u : Nat), Sound s ∧ (∃ (b : Beacon), 3 ≤ s.pwr.stage ∧ (b.port = 16 ∨ b.port = 17) ∧
      (s.pn ND_PLC_MAINS).testBit (b.port - 16) = true ∧ (∃ n, s.neighbour b.node = some n ∧ s.zcValid = true ∧ 
      let x : Int := (s.at u).nodeNow - (b.tx - b.crossing)
      
      let own := ownCrossing (s.nearCrossing x) x s.meanPeriod
      
      let off := b.crossing + phaseCorrection n.cls s.meanPeriod - own
      n.cls ≠ 0 ∧ n.cand = n.cls ∧ phaseClass (own - x) s.meanPeriod = n.cls ∧ b.is4016 = false ∧
        servesTime b.servo b.hops = true ∧ (s.pn ND_TIME_SOURCES).testBit 1 = true ∧ s.servo.master = none ∧ s.servo.source = 2 ∧
        s.servo.sender = b.node ∧ s.clk.loaded = true ∧ s.servo.state = .acquiring ∧ s.servo.refused = none ∧
        s.servo.runKey = b.node ∧ (-off - s.servo.accepted).natAbs ≤ s.pn ND_JUMP_THRESH ∧ off.natAbs ≤ 2000 + b.bound ∧
        7 ≤ s.servo.inRun))) ∧
    (∃ (s : State) (u : Nat), Sound s ∧ (∃ q j, q < s.servo.grids.length ∧ 3 ≤ s.pwr.stage ∧
      (s.pn ND_PLC_MAINS).testBit q = true ∧ (s.grid q).pos = some j ∧ (s.grid q).on = true ∧ s.pn ND_ZC_CHANNEL ≠ 255 ∧
      (s.grid q).number % 4 = j / 8 ∧ (s.grid q).anchor + 2000000 + 1500000 * (j % 8) ≤ (s.at u).nodeNow ∧
      (s.grid q).out.map (·.number) ≠ some (s.grid q).number)) ∧
    (∃ (s : State) (u : Nat), Sound s ∧ (∃ q, q < s.servo.grids.length ∧ 3 ≤ s.pwr.stage ∧ (s.pn ND_PLC_MAINS).testBit q = true ∧
      s.zcValid = true ∧ (s.grid q).anchor ≠ 0 ∧ (s.grid q).anchor + s.beaconPeriod ≤ (s.at u).nodeNow)) ∧
    (∃ (s : State) (u : Nat), Sound s ∧ (∃ node n, s.neighbour node = some n ∧ n.lastAt + 25 * s.beaconPeriod ≤ u)) ∧
    (∃ (s : State) (u : Nat), Sound s ∧ (∃ i, i < 8 ∧ (∃ d, (s.tto i).trailAt = some d ∧ d ≤ u))) ∧
    (∃ (s : State) (u : Nat), Sound s ∧ (∃ i, i < 8 ∧ ripeAt (s.tto i).trailAt u = false ∧ (s.tto i).armed = true ∧
      (s.tto i).next ≤ (s.at u).nodeNow ∧ (s.tto i).mode = 1)) ∧
    (∃ (s : State) (u : Nat), Sound s ∧ (∃ i, i < 8 ∧ ripeAt (s.tto i).trailAt u = false ∧ (s.tto i).armed = true ∧
      (s.tto i).next ≤ (s.at u).nodeNow ∧ (s.tto i).mode = 2)) ∧
    (∃ (s : State), Sound s ∧ (∃ (i : _) (rising : Bool), i < 4 ∧ (s.tci i).edges ≠ 3 ∧
      (s.tci i).edges ≠ (if rising then 1 else 2))) ∧
    (∃ (s : State), Sound s ∧ (∃ (i : _) (rising : Bool) (clocks : _), i < 4 ∧
      ((s.tci i).edges = 3 ∨ (s.tci i).edges = (if rising then 1 else 2)) ∧ (s.tci i).filter ≤ clocks ∧
      fifoLevel 4 (s.tci i).fifo < 16 ∧ s.test.regs.fifo.getLsbD (4 + i) = false)) ∧
    (∃ (s : State), Sound s ∧ (∃ (i : _) (rising : Bool) (clocks : _), i < 4 ∧
      ((s.tci i).edges = 3 ∨ (s.tci i).edges = (if rising then 1 else 2)) ∧ (s.tci i).filter ≤ clocks ∧
      16 ≤ fifoLevel 4 (s.tci i).fifo)) :=
  ⟨⟨(cfg [(CH_FILTER, 127, 1), (ND_ZC_CHANNEL, 0, 127), (ND_PLC_MAINS, 0, 3)]), sound_of (by decide +kernel), ⟨17, 5, 0, 0, 2, 0,
    0, 0, 0, false⟩, by decide +kernel⟩,
   ⟨(cfg [(CH_FILTER, 127, 1), (ND_ZC_CHANNEL, 0, 127), (ND_PLC_MAINS, 0, 3), (ND_TIME_SOURCES, 0,
     3)]).modServo (fun v =>
     { v with zc := .valid, zcLast := some 1000000000, neighbours := [⟨5, 17, 1, 1, 0, 0, 0, 2, false⟩], source := 2, sender := 5, state := .acquiring, runKey := 5, inRun := 7 }), 1020000000, sound_of (by decide +kernel), ⟨17, 5, 0, 0, 2, 0, 0, 1020000000, 1020000000, false⟩, by decide +kernel, by decide +kernel, by decide +kernel, ⟨5, 17, 1, 1, 0, 0, 0, 2, false⟩, by decide +kernel⟩,
   ⟨(cfg [(CH_FILTER, 127, 1), (ND_ZC_CHANNEL, 0, 127), (ND_PLC_MAINS, 0,
     3)]).modServo (fun v =>
     { v with zc := .valid, grids := v.grids.set 1 { Grid.reset with pos := some 31, number := 3, anchor := 1000000000, on := true } }), 1100000000, sound_of (by decide +kernel), 1, 31, by decide +kernel⟩,
   ⟨(cfg [(CH_FILTER, 127, 1), (ND_ZC_CHANNEL, 0, 127), (ND_PLC_MAINS, 0,
     3)]).modServo (fun v =>
     { v with zc := .valid, zcLast := some 1000000000, grids := v.grids.set 1 { Grid.reset with pos := some 31, number := 3, anchor := 1000000000, on := true } }), 1040000000, sound_of (by decide +kernel), 1, by decide +kernel⟩,
   ⟨up.modServo (fun v => { v with neighbours := [⟨5, 17, 1, 1, 0, 0, 0, 2, false⟩] }), 1000000000, sound_of (by decide +kernel),
     5, ⟨5, 17, 1, 1, 0, 0, 0, 2, false⟩, by decide +kernel⟩,
   ⟨up.modTto 7 (fun x => { x with trailAt := some 10 }), 10, sound_of (by decide +kernel), 7, by decide +kernel, 10,
     by decide +kernel⟩,
   ⟨up.modTto 7 (fun x => { x with armed := true, mode := 1, next := 1000000000 }), 1000000000, sound_of (by decide +kernel), 7,
     by decide +kernel⟩,
   ⟨up.modTto 7 (fun x => { x with armed := true, mode := 2, next := 1000000000, period := 1000 }), 1000000000,
     sound_of (by decide +kernel), 7, by decide +kernel⟩,
   ⟨up.modTci 3 (fun x => { x with edges := 2, filter := 4 }), sound_of (by decide +kernel), 3, true, by decide +kernel⟩,
   ⟨up.modTci 3 (fun x => { x with edges := 3, filter := 4 }), sound_of (by decide +kernel), 3, true, 4, by decide +kernel⟩,
   ⟨up.modTci 3 (fun x =>
     { x with edges := 3, fifo := { Fifo.reset with words := List.replicate 16 (0, false, false), wptr := 16 } }),
     sound_of (by decide +kernel), 3, true, 4, by decide +kernel⟩⟩

/-- What `Obligations.RingLinkEventsComplete` assumes is met. -/
theorem wit_RingLinkEventsComplete :
    (∃ (s : State), Sound s ∧ (∃ (f : YuFrame), f.port < 2 ∧ s.lineRole f.port ≠ 0 ∧ s.lineUp f.port = true ∧ f.kind = 0 ∧
      s.lineOpen f.port = true)) ∧
    (∃ (s : State), Sound s ∧ (∃ (f : YuFrame), f.port < 2 ∧ s.lineUp f.port = false)) ∧
    (∃ (s : State), Sound s ∧ (∃ (f : YuFrame), f.port < 2 ∧ s.lineRole f.port ≠ 0 ∧ s.lineUp f.port = true ∧ f.kind = 1 ∧
      s.ring.manager = false ∧ s.lineRole (1 - f.port) ≠ 0 ∧ s.lineUp (1 - f.port) = true)) ∧
    (∃ (s : State) (u : Nat), Sound s ∧ (∃ (f : YuFrame), f.port < 2 ∧ s.lineRole f.port ≠ 0 ∧ s.lineUp f.port = true ∧
      f.kind = 1 ∧ (∃ d, s.ring.manager = true ∧ s.ring.closingBlocked = false ∧ s.ring.testsFrom = some d ∧ d + 1000000 ≤ u))) ∧
    (∃ (s : State), Sound s ∧ (∃ (f : YuFrame), f.port < 2 ∧ s.lineRole f.port ≠ 0 ∧ s.lineUp f.port = true ∧ f.kind = 2)) ∧
    (∃ (s : State), Sound s) ∧
    (∃ (s : State), Sound s ∧ (∃ port, port < 2 ∧ s.lineUp port = true)) ∧
    (∃ (s : State), Sound s ∧ (∃ port, port < 2 ∧ s.lineUp port = false ∧ s.lineRole port ≠ 0)) ∧
    (∃ (s : State) (u : Nat), Sound s ∧ (∃ d, s.ring.head = true ∧ s.lineUp 0 = true ∧ s.ring.testDue = some d ∧ d ≤ u)) ∧
    (∃ (s : State) (u : Nat), Sound s ∧ (∃ d, s.ring.manager = true ∧ s.ring.closingBlocked = true ∧ s.ring.testSeen = some d ∧
      d + 300000 ≤ u)) ∧
    (∃ (s : State), Sound s ∧ (∃ port, port < 2 ∧ s.ring.manager = true ∧ s.ring.closingBlocked = true)) ∧
    (∃ (s : State), Sound s ∧ (∃ port, port < 2 ∧ s.ring.manager = false ∧ s.lineRole (1 - port) ≠ 0 ∧
      s.lineUp (1 - port) = true)) ∧
    (∃ (s : State), Sound s ∧ (∃ port, port < 2 ∧ s.lineOpen (1 - port) = true)) :=
  ⟨⟨(cfg [(ND_NODE_ID, 0, 7), (ND_RING_LKA_ROLE, 0, 1), (ND_RING_LKB_ROLE, 0, 1)]).modRing (fun r => { r with lkbUp := true }),
    sound_of (by decide +kernel), ⟨1, 0, 0, 3, 7, true, []⟩, by decide +kernel⟩,
   ⟨up, up_sound, ⟨1, 0, 0, 3, 7, true, []⟩, by decide +kernel⟩,
   ⟨(cfg [(ND_NODE_ID, 0, 7), (ND_RING_LKA_ROLE, 0, 1), (ND_RING_LKB_ROLE, 0,
     1)]).modRing (fun r => { r with lkaUp := true, lkbUp := true }), sound_of (by decide +kernel), ⟨1, 0, 1, 3, 7, true, []⟩,
     by decide +kernel⟩,
   ⟨(cfg [(ND_NODE_ID, 0, 7), (ND_RING_LKA_ROLE, 0, 1), (ND_RING_LKB_ROLE, 0,
     1)]).modRing (fun r => { r with manager := true, closingBlocked := false, lkbUp := true, testsFrom := some 0 }), 1000000,
     sound_of (by decide +kernel), ⟨1, 0, 1, 3, 7, true, []⟩, by decide +kernel, by decide +kernel, by decide +kernel,
     by decide +kernel, 0, by decide +kernel⟩,
   ⟨(cfg [(ND_NODE_ID, 0, 7), (ND_RING_LKA_ROLE, 0, 1), (ND_RING_LKB_ROLE, 0, 1)]).modRing (fun r => { r with lkbUp := true }),
     sound_of (by decide +kernel), ⟨1, 0, 2, 3, 7, true, []⟩, by decide +kernel⟩,
   ⟨up, up_sound⟩,
   ⟨(cfg [(ND_NODE_ID, 0, 7), (ND_RING_LKA_ROLE, 0, 1), (ND_RING_LKB_ROLE, 0, 1)]).modRing (fun r => { r with lkbUp := true }),
     sound_of (by decide +kernel), 1, by decide +kernel⟩,
   ⟨(cfg [(ND_NODE_ID, 0, 7), (ND_RING_LKA_ROLE, 0, 1), (ND_RING_LKB_ROLE, 0, 1)]), sound_of (by decide +kernel), 1,
     by decide +kernel⟩,
   ⟨(cfg [(ND_NODE_ID, 0, 7), (ND_RING_LKA_ROLE, 0, 1), (ND_RING_LKB_ROLE, 0,
     1)]).modRing (fun r => { r with head := true, lkaUp := true, testDue := some 10 }), 10, sound_of (by decide +kernel), 10,
     by decide +kernel⟩,
   ⟨(cfg [(ND_NODE_ID, 0, 7), (ND_RING_LKA_ROLE, 0, 1), (ND_RING_LKB_ROLE, 0,
     1)]).modRing (fun r => { r with manager := true, closingBlocked := true, testSeen := some 0 }), 300000,
     sound_of (by decide +kernel), 0, by decide +kernel⟩,
   ⟨(cfg [(ND_NODE_ID, 0, 7), (ND_RING_LKA_ROLE, 0, 1), (ND_RING_LKB_ROLE, 0,
     1)]).modRing (fun r => { r with manager := true, closingBlocked := true }), sound_of (by decide +kernel), 1,
     by decide +kernel⟩,
   ⟨(cfg [(ND_NODE_ID, 0, 7), (ND_RING_LKA_ROLE, 0, 1), (ND_RING_LKB_ROLE, 0, 1)]).modRing (fun r => { r with lkaUp := true }),
     sound_of (by decide +kernel), 1, by decide +kernel⟩,
   ⟨(cfg [(ND_NODE_ID, 0, 7), (ND_RING_LKA_ROLE, 0, 1), (ND_RING_LKB_ROLE, 0, 1)]).modRing (fun r => { r with lkbUp := true }),
     sound_of (by decide +kernel), 0, by decide +kernel⟩⟩

/-- What `Obligations.DiscoveryAndBalanceEventsComplete` assumes is met. -/
theorem wit_DiscoveryAndBalanceEventsComplete :
    (∃ (s : State) (u : Nat), Sound s ∧ (∃ d, s.ring.isRoot = true ∧ s.discovers = true ∧ s.ring.discDue = some d ∧ d ≤ u)) ∧
    (∃ (s : State), Sound s ∧ (∃ (k : Token), s.discovers = true ∧ k.port < 4 ∧ s.ring.isRoot = true ∧ k.root = s.nodeId ∧
      k.run = s.ring.runNo ∧ s.ring.running = true)) ∧
    (∃ (s : State), Sound s ∧ (∃ (k : Token), s.discovers = true ∧ k.port < 4 ∧ s.ring.isRoot = false ∧ k.root = s.ring.root ∧
      k.run ≠ s.ring.runNo ∧ k.run < 65536 ∧ k.entries.length < 160)) ∧
    (∃ (s : State), Sound s ∧ (∃ (k : Token), s.discovers = true ∧ k.port < 4 ∧ s.ring.isRoot = false ∧ k.root = s.ring.root ∧
      k.run ≠ s.ring.runNo ∧ 160 ≤ k.entries.length ∧ k.port < 2)) ∧
    (∃ (s : State), Sound s ∧ (∃ (k : Token), s.discovers = true ∧ k.port < 4 ∧ s.ring.isRoot = true ∧ s.ring.root = s.nodeId ∧
      k.root ≠ s.nodeId ∧ s.betterRoot k.root k.ptpHops = true)) ∧
    (∃ (s : State), Sound s ∧ (∃ (m : List MapEntry) (e : _), s.discovers = true ∧ s.ring.isRoot = false ∧
      (m.find? (fun x => x.entry.node == s.nodeId) = some e))) ∧
    (∃ (s : State), Sound s ∧ s.discovers = true ∧ s.ring.isRoot = true ∧ s.ring.running = true ∧ s.ring.root = s.nodeId) ∧
    (∃ (s : State), Sound s ∧ s.discovers = true ∧ s.ring.isRoot = false ∧ 3 ≤ s.ring.noFrame) ∧
    (∃ (s : State) (u : Nat), Sound s ∧ (∃ d, s.ring.isRoot = true ∧ s.ring.launchDue = some d ∧ d ≤ u)) ∧
    (∃ (s : State) (u : Nat), Sound s ∧ (∃ d, s.ring.isRoot = true ∧ s.ring.awaiting = true ∧ s.ring.retryDue = some d ∧ d ≤ u)) ∧
    (∃ (s : State), Sound s ∧ (∃ (frame : Bytes), isBalanceFrame frame = true ∧ s.pwr.coreOn = true ∧ s.ring.isRoot = false)) ∧
    (∃ (s : State) (u : Nat), Sound s ∧ (∃ (frame : Bytes) (r : _), s.ring.posted = some r ∧ isBalanceFrame frame = true ∧
      s.ring.isRoot = true ∧ s.ring.awaiting = true ∧ fld frame 4 6 = r.interval % 2 ^ 48 ∧
      (∀ d, s.ring.lateDue = some d → u ≤ d))) ∧
    (∃ (s : State) (u : Nat), Sound s ∧ (∃ d, s.ring.isRoot = true ∧ s.ring.awaiting = true ∧ s.ring.lateDue = some d ∧ d ≤ u)) :=
  ⟨⟨(cfg [(ND_NODE_ID, 0, 7), (ND_RING_LKA_ROLE, 0, 1), (ND_RING_LKB_ROLE, 0,
    1)]).modRing (fun r => { r with isRoot := true, root := 7, discDue := some 10 }), 10, sound_of (by decide +kernel), 10,
    by decide +kernel⟩,
   ⟨(cfg [(ND_NODE_ID, 0, 7), (ND_RING_LKA_ROLE, 0, 1), (ND_RING_LKB_ROLE, 0,
     1)]).modRing (fun r => { r with isRoot := true, root := 7, runNo := 4, running := true }), sound_of (by decide +kernel), ⟨3,
     7, 0, 4, 1, []⟩, by decide +kernel⟩,
   ⟨(cfg [(ND_NODE_ID, 0, 7), (ND_RING_LKA_ROLE, 0, 1), (ND_RING_LKB_ROLE, 0, 1)]).modRing (fun r => { r with root := 9 }),
     sound_of (by decide +kernel), ⟨3, 9, 0, 65535, 1, []⟩, by decide +kernel⟩,
   ⟨(cfg [(ND_NODE_ID, 0, 7), (ND_RING_LKA_ROLE, 0, 1), (ND_RING_LKB_ROLE, 0, 1)]).modRing (fun r => { r with root := 9 }),
     sound_of (by decide +kernel), ⟨1, 9, 0, 65535, 1, List.replicate 160 ⟨7, 1, 0, 0, 0, false, false⟩⟩, by decide +kernel⟩,
   ⟨(cfg [(ND_BAL_ROOT, 0, 9), (ND_NODE_ID, 0, 7)]).modRing (fun r => { r with isRoot := true, root := 7 }),
     sound_of (by decide +kernel), ⟨3, 9, 0, 4, 1, []⟩, by decide +kernel⟩,
   ⟨(cfg [(ND_NODE_ID, 0, 7), (ND_RING_LKA_ROLE, 0, 1), (ND_RING_LKB_ROLE, 0, 1)]).modRing (fun r => { r with root := 9 }),
     sound_of (by decide +kernel), [⟨⟨7, 1, 0, 0, 0, false, false⟩, 0, 0, false⟩], ⟨⟨7, 1, 0, 0, 0, false, false⟩, 0, 0, false⟩,
     by decide +kernel⟩,
   ⟨(cfg [(ND_NODE_ID, 0, 7), (ND_RING_LKA_ROLE, 0, 1), (ND_RING_LKB_ROLE, 0,
     1)]).modRing (fun r => { r with isRoot := true, root := 7, running := true }), sound_of (by decide +kernel),
     by decide +kernel⟩,
   ⟨(cfg [(ND_BAL_ROOT, 0, 7), (ND_NODE_ID, 0, 7)]).modRing (fun r => { r with root := 9, noFrame := 3 }),
     sound_of (by decide +kernel), by decide +kernel⟩,
   ⟨(cfg [(ND_NODE_ID, 0, 7), (ND_RING_LKA_ROLE, 0, 1), (ND_RING_LKB_ROLE, 0,
     1)]).modRing (fun r => { r with isRoot := true, launchDue := some 10 }), 10, sound_of (by decide +kernel), 10,
     by decide +kernel⟩,
   ⟨(cfg [(ND_NODE_ID, 0, 7), (ND_RING_LKA_ROLE, 0, 1), (ND_RING_LKB_ROLE, 0,
     1)]).modRing (fun r => { r with isRoot := true, awaiting := true, retryDue := some 10 }), 10, sound_of (by decide +kernel),
     10, by decide +kernel⟩,
   ⟨(cfg [(ND_NODE_ID, 0, 7), (ND_RING_LKA_ROLE, 0, 1), (ND_RING_LKB_ROLE, 0, 1)]), sound_of (by decide +kernel),
     ([1] ++ zeros 3 ++ le 6 9 ++ zeros 1430), by decide +kernel⟩,
   ⟨(cfg [(ND_NODE_ID, 0, 7), (ND_RING_LKA_ROLE, 0, 1), (ND_RING_LKB_ROLE, 0,
     1)]).modRing (fun r => { r with isRoot := true, awaiting := true, posted := some ⟨9, []⟩ }), 0, sound_of (by decide +kernel),
     ([1] ++ zeros 3 ++ le 6 9 ++ zeros 1430), ⟨9, []⟩, by decide +kernel⟩,
   ⟨(cfg [(ND_NODE_ID, 0, 7), (ND_RING_LKA_ROLE, 0, 1), (ND_RING_LKB_ROLE, 0,
     1)]).modRing (fun r => { r with isRoot := true, awaiting := true, lateDue := some 10 }), 10, sound_of (by decide +kernel),
     10, by decide +kernel⟩⟩

/-- What `Obligations.PowerAndResetEventsComplete` assumes is met. -/
theorem wit_PowerAndResetEventsComplete :
    (∃ (s : State), Sound s ∧ (∃ vcore vio vana, 810 ≤ vcore ∧ 2800 ≤ vio ∧ 2800 ≤ vana ∧ s.pwr.coreOn = false ∧
      s.pwr.coreHeld = 1)) ∧
    (∃ (s : State), Sound s ∧ s.pwr.coreOn = true ∧ (∃ rail mV, rail < 3 ∧ mV < [780, 2700, 2700].getD rail 0)) ∧
    (∃ (s : State), Sound s ∧ s.pwr.coreOn = true) ∧
    (∃ (s : State), Sound s ∧ s.pwr.coreOn = true ∧ (∃ temp, 1450 ≤ temp)) ∧
    (∃ (s : State), Sound s ∧ s.pwr.coreOn = true ∧ (∃ width, 10000 ≤ width)) ∧
    (∃ (s : State) (u : Nat), Sound s ∧ s.pwr.coreOn = true ∧ (∃ d, s.pwr.tb = some d ∧ d + 600000 ≤ u)) ∧
    (∃ (s : State), Sound s ∧ s.pwr.coreOn = true ∧ (∃ vcore vio, (vcore < 865 ∨ vio < 3050) ∧ s.pwr.tb = none)) ∧
    (∃ (s : State), Sound s ∧ s.pwr.coreOn = true ∧ (∃ vcore vio, (vcore < 865 ∨ vio < 3050) ∧ s.pwr.tb = none ∧
      s.pwr.capoOn = false)) ∧
    (∃ (s : State), Sound s ∧ s.pwr.coreOn = false ∧ s.pwr.resetn = true ∧ s.pwr.coreHeld = 2) ∧
    (∃ (s : State), Sound s ∧ (∃ temp, temp ≤ 1350 ∧ s.pwr.coreOn = false ∧ s.pwr.coreHeld = 4)) :=
  ⟨⟨State.reset, sound_of (by decide +kernel), 810, 2800, 2800, by decide +kernel⟩,
   ⟨up, up_sound, by decide +kernel, 2, 2699, by decide +kernel⟩,
   ⟨up, up_sound, by decide +kernel⟩,
   ⟨up, up_sound, by decide +kernel, 1450, by decide +kernel⟩,
   ⟨up, up_sound, by decide +kernel, 10000, by decide +kernel⟩,
   ⟨up.modPwr (fun x => { x with tb := some 0 }), 600000, sound_of (by decide +kernel), by decide +kernel, 0, by decide +kernel⟩,
   ⟨up, up_sound, by decide +kernel, 864, 3300, by decide +kernel⟩,
   ⟨up.modPwr (fun x => { x with capoOn := false }), sound_of (by decide +kernel), by decide +kernel, 865, 3049, by decide +kernel⟩,
   ⟨State.reset.modPwr (fun x => { x with resetn := true, coreHeld := 2 }), sound_of (by decide +kernel), by decide +kernel⟩,
   ⟨State.reset.modPwr (fun x => { x with coreHeld := 4 }), sound_of (by decide +kernel), 1350, by decide +kernel⟩⟩

/-- What `Obligations.StartUpEventsComplete` assumes is met. -/
theorem wit_StartUpEventsComplete :
    (∃ (s : State), Sound s ∧ (∃ ok0 ok1, s.pwr.stage = 1 ∧ s.pwr.capoOn = false ∧ s.fw.recovery = false ∧
      s.fw.legalPending = false ∧ s.legalOk s.fw.legal ok0 ok1 = true)) ∧
    (∃ (s : State), Sound s ∧ (∃ ok0 ok1, s.pwr.stage = 1 ∧ s.pwr.capoOn = false ∧ s.fw.recovery = false ∧
      s.fw.legalPending = false ∧ s.legalOk s.fw.legal ok0 ok1 = false ∧ s.legalOk (1 - s.fw.legal) ok0 ok1 = true)) ∧
    (∃ (s : State), Sound s ∧ (∃ ok0 ok1, s.pwr.stage = 1 ∧ s.pwr.capoOn = false ∧ s.fw.recovery = false ∧
      s.fw.legalPending = false ∧ s.legalOk s.fw.legal ok0 ok1 = false ∧ s.legalOk (1 - s.fw.legal) ok0 ok1 = false)) ∧
    (∃ (s : State), Sound s ∧ (∃ ok0 ok1, s.pwr.stage = 1 ∧ s.pwr.capoOn = false ∧ s.fw.recovery = false ∧
      s.fw.legalPending = true ∧ s.legalOk (1 - s.fw.legal) ok0 ok1 = true)) ∧
    (∃ (s : State), Sound s ∧ s.pwr.stage = 2 ∧ s.pwr.capoOn = true) ∧
    (∃ (s : State), Sound s ∧ (∃ copy0 copy1, s.pwr.stage = 3 ∧ 
      let found (l : List Nat) := (tryCopy (s.pn ND_KEY_REGEN_ATTEMPTS) (l.map (fun c => if c < 5 then c else 4))).1
      s.keys.erased = false ∧ (found copy0 = 0 ∨ found copy1 = 0))) ∧
    (∃ (s : State), Sound s ∧ (∃ copy0 copy1, s.pwr.stage = 3 ∧ 
      let found (l : List Nat) := (tryCopy (s.pn ND_KEY_REGEN_ATTEMPTS) (l.map (fun c => if c < 5 then c else 4))).1
      s.keys.erased = false ∧ found copy0 ≠ 0 ∧ found copy1 ≠ 0)) ∧
    (∃ (s : State), Sound s ∧ s.pwr.stage = 3 ∧ s.keys.erased = true ∧ 0 < s.pn ND_KEY_REGEN_ATTEMPTS) ∧
    (∃ (s : State), Sound s ∧ s.pwr.stage = 4 ∧ s.pwr.capoOn = true) ∧
    (∃ (s : State), Sound s ∧ (∃ okA okB, s.fw.svcRunning = false ∧ s.pwr.coreOn = true ∧
      (s.pwr.stage = 5 ∨ s.fw.recovery = true) ∧ (∃ i other, s.host.held = [] ∧ s.bootSlot okA okB = some (i, other)))) ∧
    (∃ (s : State), Sound s ∧ (∃ okA okB, s.fw.svcRunning = false ∧ s.pwr.coreOn = true ∧
      (s.pwr.stage = 5 ∨ s.fw.recovery = true) ∧ s.bootSlot okA okB = none)) :=
  ⟨⟨State.reset.modPwr (fun x => { x with coreOn := true, coreHeld := 0, stage := 1 }), sound_of (by decide +kernel), true, false,
    by decide +kernel⟩,
   ⟨(State.reset.modFw (fun x =>
     { x with legals := [⟨some ImageInfo.reset, false, 0⟩, ⟨some ImageInfo.reset, false, 1⟩] })).modPwr (fun x =>
     { x with coreOn := true, coreHeld := 0, stage := 1 }), sound_of (by decide +kernel), false, true, by decide +kernel⟩,
   ⟨State.reset.modPwr (fun x => { x with coreOn := true, coreHeld := 0, stage := 1 }), sound_of (by decide +kernel), false,
     false, by decide +kernel⟩,
   ⟨(State.reset.modFw (fun x =>
     { x with legalPending := true, legals := [⟨some ImageInfo.reset, false, 0⟩, ⟨some ImageInfo.reset, false, 1⟩] })).modPwr (fun
     x => { x with coreOn := true, coreHeld := 0, stage := 1 }), sound_of (by decide +kernel), true, true, by decide +kernel⟩,
   ⟨State.reset.modPwr (fun x => { x with coreOn := true, coreHeld := 0, stage := 2, capoOn := true }),
     sound_of (by decide +kernel), by decide +kernel⟩,
   ⟨State.reset.modPwr (fun x => { x with coreOn := true, coreHeld := 0, stage := 3, capoOn := true }),
     sound_of (by decide +kernel), [0], [1], by decide +kernel⟩,
   ⟨State.reset.modPwr (fun x => { x with coreOn := true, coreHeld := 0, stage := 3, capoOn := true }),
     sound_of (by decide +kernel), List.replicate 20 1, List.replicate 20 1, by decide +kernel⟩,
   ⟨(State.reset.modKeys (fun k => { k with erased := true })).modPwr (fun x =>
     { x with coreOn := true, coreHeld := 0, stage := 3, capoOn := true }), sound_of (by decide +kernel), by decide +kernel⟩,
   ⟨State.reset.modPwr (fun x => { x with coreOn := true, coreHeld := 0, stage := 4, capoOn := true }),
     sound_of (by decide +kernel), by decide +kernel⟩,
   ⟨(State.reset.modPwr (fun x => { x with coreOn := true, coreHeld := 0, stage := 5, capoOn := true })).modFw (fun f =>
     { f with svc := [⟨some ImageInfo.reset, true, 0⟩, ⟨none, false, 1⟩] }), sound_of (by decide +kernel), true, false,
     by decide +kernel, by decide +kernel, by decide +kernel, 0, false, by decide +kernel⟩,
   ⟨State.reset.modPwr (fun x => { x with coreOn := true, coreHeld := 0, stage := 5, capoOn := true }),
     sound_of (by decide +kernel), false, false, by decide +kernel⟩⟩

/-- What `Obligations.SupplyWarningAndCapoEventsComplete` assumes is met. -/
theorem wit_SupplyWarningAndCapoEventsComplete :
    (∃ (s : State) (u : Nat), Sound s ∧ (∃ since, 5 ≤ s.pwr.stage ∧ s.led.warnFrom = none ∧
      (s.pn ND_HOLDUP_SOURCES).testBit 0 = true ∧ since + s.pn ND_PFW_FILTER * 1000 ≤ u)) ∧
    (∃ (s : State) (u : Nat), Sound s ∧ (∃ since, 5 ≤ s.pwr.stage ∧ s.led.warnFrom.isSome = true ∧ s.led.warnSrc = 2 ∧
      (s.pn ND_HOLDUP_SOURCES).testBit 0 = true ∧ since + s.pn ND_PFW_FILTER * 1000 ≤ u)) ∧
    (∃ (s : State), Sound s ∧ (∃ vsw, 5 ≤ s.pwr.stage ∧ s.led.warnFrom = none ∧ (s.pn ND_HOLDUP_SOURCES).testBit 1 = true ∧
      vsw * 100 < s.pn ND_VSW_WARN * 102)) ∧
    (∃ (s : State) (u : Nat), Sound s ∧ (∃ since vsw t0, s.led.warnFrom = some t0 ∧ since + s.pn ND_HOLDUP_RESUME * 1000000 ≤ u ∧
      ((s.pn ND_HOLDUP_SOURCES).testBit 1 = false ∨ s.pn ND_VSW_WARN + 100 < vsw))) ∧
    (∃ (s : State), Sound s ∧ s.pwr.capoOn = true) ∧
    (∃ (s : State), Sound s ∧ s.pwr.coreOn = true ∧ s.pwr.capoReset = true) :=
  ⟨⟨cfg [(ND_HOLDUP_SOURCES, 0, 3), (ND_PFW_FILTER, 0, 10)], 10000, sound_of (by decide +kernel), 0, by decide +kernel⟩,
   ⟨(cfg [(ND_HOLDUP_SOURCES, 0, 3), (ND_PFW_FILTER, 0, 10)]).modLed (fun x => { x with warnFrom := some 0, warnSrc := 2 }),
     10000, sound_of (by decide +kernel), 0, by decide +kernel⟩,
   ⟨cfg [(ND_HOLDUP_SOURCES, 0, 3), (ND_VSW_WARN, 0, 2000)], sound_of (by decide +kernel), 2039, by decide +kernel⟩,
   ⟨(cfg [(ND_VSW_WARN, 0, 2000), (ND_HOLDUP_RESUME, 0, 1)]).modLed (fun x => { x with warnFrom := some 0 }), 1000000,
     sound_of (by decide +kernel), 0, 2101, 0, by decide +kernel⟩,
   ⟨up, up_sound, by decide +kernel⟩,
   ⟨up.modPwr (fun x => { x with capoReset := true, capoOn := false }), sound_of (by decide +kernel), by decide +kernel⟩⟩

/-- What `Obligations.DisplayPowerAndTimersComplete` assumes is met. -/
theorem wit_DisplayPowerAndTimersComplete :
    (∃ (s : State) (u : Nat), Sound s ∧ (∃ i vep ven ladder, ((i = Instr.displayStart u vep ven ladder ∧ 5 ≤ s.pwr.stage ∧
      s.disp.rails = 0 ∧ s.disp.retryDue = none) ∨ (i = Instr.displayStartRetry u vep ven ladder ∧
      ripeAt s.disp.retryDue u = true)) ∧ s.pb ND_DISP_ENABLE = true ∧ s.led.warnFrom = none ∧ 5000000 < vep)) ∧
    (∃ (s : State) (u : Nat), Sound s ∧ (∃ i vep ven ladder, ((i = Instr.displayStart u vep ven ladder ∧ 5 ≤ s.pwr.stage ∧
      s.disp.rails = 0 ∧ s.disp.retryDue = none) ∨ (i = Instr.displayStartRetry u vep ven ladder ∧
      ripeAt s.disp.retryDue u = true)) ∧ s.pb ND_DISP_ENABLE = true ∧ s.led.warnFrom = none ∧ vep ≤ 5000000 ∧ 10000000 < ven)) ∧
    (∃ (s : State) (u : Nat), Sound s ∧ (∃ i vep ven ladder, ((i = Instr.displayStart u vep ven ladder ∧ 5 ≤ s.pwr.stage ∧
      s.disp.rails = 0 ∧ s.disp.retryDue = none) ∨ (i = Instr.displayStartRetry u vep ven ladder ∧
      ripeAt s.disp.retryDue u = true)) ∧ s.pb ND_DISP_ENABLE = true ∧ s.led.warnFrom = none ∧ vep ≤ 5000000 ∧ ven ≤ 10000000 ∧
      11000000 < ladder)) ∧
    (∃ (s : State) (u : Nat), Sound s ∧ (∃ i vep ven ladder, ((i = Instr.displayStart u vep ven ladder ∧ 5 ≤ s.pwr.stage ∧
      s.disp.rails = 0 ∧ s.disp.retryDue = none) ∨ (i = Instr.displayStartRetry u vep ven ladder ∧
      ripeAt s.disp.retryDue u = true)) ∧ s.pb ND_DISP_ENABLE = true ∧ s.led.warnFrom = none ∧ vep ≤ 5000000 ∧ ven ≤ 10000000 ∧
      ladder ≤ 11000000)) ∧
    (∃ (s : State) (u : Nat), Sound s ∧ (∃ d, s.disp.railDue = some d ∧ d ≤ u)) ∧
    (∃ (s : State) (u : Nat), Sound s ∧ (∃ d, s.disp.dwellDue = some d ∧ d ≤ u ∧ s.disp.pin = none)) ∧
    (∃ (s : State) (u : Nat), Sound s ∧ (∃ d x, s.disp.pinDue = some d ∧ d ≤ u ∧ s.disp.pin = some x)) ∧
    (∃ (s : State) (u : Nat), Sound s ∧ (∃ d, s.disp.refreshDue = some d ∧ d ≤ u)) ∧
    (∃ (s : State) (u : Nat), Sound s ∧ (∃ d, s.disp.tempDue = some d ∧ d ≤ u)) ∧
    (∃ (s : State), Sound s ∧ (∃ seg, s.disp.rails = 4 ∧ (seg < 160 ∨ seg = 0xFF))) :=
  ⟨⟨(cfg [(ND_DISP_ENABLE, 0, 1)]).modDisp (fun x => { x with retryDue := some 10 }), 10, sound_of (by decide +kernel),
    .displayStartRetry 10 5000001 0 0, 5000001, 0, 0, Or.inr ⟨rfl, by decide +kernel⟩, by decide +kernel⟩,
   ⟨(cfg [(ND_DISP_ENABLE, 0, 1)]), 2000000000000, sound_of (by decide +kernel), .displayStart 2000000000000 5000000 10000001 0,
     5000000, 10000001, 0, Or.inl ⟨rfl, by decide +kernel⟩, by decide +kernel⟩,
   ⟨(cfg [(ND_DISP_ENABLE, 0, 1)]), 2000000000000, sound_of (by decide +kernel),
     .displayStart 2000000000000 5000000 10000000 11000001, 5000000, 10000000, 11000001, Or.inl ⟨rfl, by decide +kernel⟩,
     by decide +kernel⟩,
   ⟨(cfg [(ND_DISP_ENABLE, 0, 1)]), 2000000000000, sound_of (by decide +kernel),
     .displayStart 2000000000000 5000000 10000000 11000000, 5000000, 10000000, 11000000, Or.inl ⟨rfl, by decide +kernel⟩,
     by decide +kernel⟩,
   ⟨up.modDisp (fun x => { x with railDue := some 10 }), 10, sound_of (by decide +kernel), 10, by decide +kernel⟩,
   ⟨up.modDisp (fun x => { x with dwellDue := some 10 }), 10, sound_of (by decide +kernel), 10, by decide +kernel⟩,
   ⟨up.modDisp (fun x => { x with pin := some (15, 3), pinDue := some 10 }), 10, sound_of (by decide +kernel), 10, (15, 3),
     by decide +kernel⟩,
   ⟨up.modDisp (fun x => { x with refreshDue := some 10 }), 10, sound_of (by decide +kernel), 10, by decide +kernel⟩,
   ⟨up.modDisp (fun x => { x with tempDue := some 10 }), 10, sound_of (by decide +kernel), 10, by decide +kernel⟩,
   ⟨up.modDisp (fun x => { x with rails := 4 }), sound_of (by decide +kernel), 159, by decide +kernel⟩⟩

/-- What `Obligations.DisplayPhaseEventsComplete` assumes is met. -/
theorem wit_DisplayPhaseEventsComplete :
    (∃ (s : State) (r : DispRun), Sound s ∧ s.disp.run = some r) ∧
    (∃ (s : State) (u : Nat) (r : DispRun), Sound s ∧ s.disp.run = some r ∧ r.kind ≠ 4 ∧ r.start + r.ms * 1000000 ≤ u ∧
      r.phase = none) ∧
    (∃ (s : State) (u : Nat) (r : DispRun), Sound s ∧ s.disp.run = some r ∧ r.kind ≠ 4 ∧ r.start + r.ms * 1000000 ≤ u ∧
      (∃ k, r.phase = some k ∧ k + 1 < (s.wave r.band).length)) ∧
    (∃ (s : State) (u : Nat) (r : DispRun), Sound s ∧ s.disp.run = some r ∧ r.kind ≠ 4 ∧ r.start + r.ms * 1000000 ≤ u ∧
      (∃ k, r.phase = some k ∧ (s.wave r.band).length ≤ k + 1 ∧ r.kind = 1)) ∧
    (∃ (s : State) (u : Nat) (r : DispRun), Sound s ∧ s.disp.run = some r ∧ r.kind ≠ 4 ∧ r.start + r.ms * 1000000 ≤ u ∧
      (∃ k, r.phase = some k ∧ (s.wave r.band).length ≤ k + 1 ∧ (r.kind = 0 ∨ r.kind = 3) ∧ s.disp.todo = [])) :=
  ⟨⟨up.modDisp (fun x =>
    { x with run := some { DispRun.reset with kind := 0, start := 0, ms := 10, phase := none, band := 0 }, waves := List.replicate 8 (List.replicate 1 ⟨10, 0, 0, 0, 0⟩) }), { DispRun.reset with kind := 0, start := 0, ms := 10, phase := none, band := 0 }, sound_of (by decide +kernel), by decide +kernel⟩,
   ⟨up.modDisp (fun x =>
     { x with run := some { DispRun.reset with kind := 1, start := 0, ms := 10, phase := none, band := 0 }, waves := List.replicate 8 (List.replicate 1 ⟨10, 0, 0, 0, 0⟩) }), 10000000, { DispRun.reset with kind := 1, start := 0, ms := 10, phase := none, band := 0 }, sound_of (by decide +kernel), by decide +kernel⟩,
   ⟨up.modDisp (fun x =>
     { x with run := some { DispRun.reset with kind := 1, start := 0, ms := 10, phase := some 0, band := 0 }, waves := List.replicate 8 (List.replicate 2 ⟨10, 0, 0, 0, 0⟩) }), 10000000, { DispRun.reset with kind := 1, start := 0, ms := 10, phase := some 0, band := 0 }, sound_of (by decide +kernel), by decide +kernel, by decide +kernel, by decide +kernel, 0, by decide +kernel⟩,
   ⟨up.modDisp (fun x =>
     { x with run := some { DispRun.reset with kind := 1, start := 0, ms := 10, phase := some 0, band := 0 }, waves := List.replicate 8 (List.replicate 1 ⟨10, 0, 0, 0, 0⟩) }), 10000000, { DispRun.reset with kind := 1, start := 0, ms := 10, phase := some 0, band := 0 }, sound_of (by decide +kernel), by decide +kernel, by decide +kernel, by decide +kernel, 0, by decide +kernel⟩,
   ⟨up.modDisp (fun x =>
     { x with run := some { DispRun.reset with kind := 0, start := 0, ms := 10, phase := some 0, band := 0 }, waves := List.replicate 8 (List.replicate 1 ⟨10, 0, 0, 0, 0⟩) }), 10000000, { DispRun.reset with kind := 0, start := 0, ms := 10, phase := some 0, band := 0 }, sound_of (by decide +kernel), by decide +kernel, by decide +kernel, by decide +kernel, 0, by decide +kernel⟩⟩

/-- What `Obligations.FirmwareAndAttestationEventsComplete` assumes is met. -/
theorem wit_FirmwareAndAttestationEventsComplete :
    (∃ (s : State), Sound s ∧ (∃ g, s.fw.stage = some g ∧ g.state = 1)) ∧
    (∃ (s : State) (u : Nat), Sound s ∧ (∃ d, s.fw.bootDue = some d ∧ u ≤ d)) ∧
    (∃ (s : State) (u : Nat), Sound s ∧ (∃ d, s.fw.bootDue = some d ∧ (∃ g, s.fw.stage = some g ∧ d ≤ u))) ∧
    (∃ (s : State) (u : Nat), Sound s ∧ (∃ d, s.fw.trial = true ∧ s.fw.confirmDue = some d ∧ d ≤ u ∧ s.fw.hand = none)) ∧
    (∃ (s : State), Sound s ∧ s.fw.svcRunning = true) ∧
    (∃ (s : State), Sound s ∧ (∃ q rest, s.keys.queue = q :: rest ∧ s.keys.root ≠ none ∧ s.keys.node.invalid = false ∧
      s.keys.regenFail = false)) ∧
    (∃ (s : State), Sound s ∧ (∃ q rest, s.keys.queue = q :: rest ∧
      (s.keys.root = none ∨ s.keys.node.invalid = true ∨ s.keys.regenFail = true))) :=
  ⟨⟨up.modFw (fun x =>
    { x with stage := some (⟨0, 3, [0xba, 0x78, 0x16, 0xbf, 0x8f, 0x01, 0xcf, 0xea, 0x41, 0x41, 0x40, 0xde, 0x5d, 0xae, 0x22, 0x23, 0xb0, 0x03, 0x61, 0xa3, 0x96, 0x17, 0x7a, 0x9c, 0xb4, 0x10, 0xff, 0x61, 0xf2, 0x00, 0x15, 0xad], [(0, [97, 98, 99])], 1, [], none, false, 0, 0⟩ : Staging) }), sound_of (by decide +kernel), (⟨0, 3, [0xba, 0x78, 0x16, 0xbf, 0x8f, 0x01, 0xcf, 0xea, 0x41, 0x41, 0x40, 0xde, 0x5d, 0xae, 0x22, 0x23, 0xb0, 0x03, 0x61, 0xa3, 0x96, 0x17, 0x7a, 0x9c, 0xb4, 0x10, 0xff, 0x61, 0xf2, 0x00, 0x15, 0xad], [(0, [97, 98, 99])], 1, [], none, false, 0, 0⟩ : Staging), by decide +kernel⟩,
   ⟨up.modFw (fun x => { x with bootDue := some 10 }), 10, sound_of (by decide +kernel), 10, by decide +kernel⟩,
   ⟨(up.modFw (fun x => { x with bootDue := some 10 })).modFw (fun x =>
     { x with stage := some (⟨0, 3, [0xba, 0x78, 0x16, 0xbf, 0x8f, 0x01, 0xcf, 0xea, 0x41, 0x41, 0x40, 0xde, 0x5d, 0xae, 0x22, 0x23, 0xb0, 0x03, 0x61, 0xa3, 0x96, 0x17, 0x7a, 0x9c, 0xb4, 0x10, 0xff, 0x61, 0xf2, 0x00, 0x15, 0xad], [(0, [97, 98, 99])], 2, [], none, false, 0, 0⟩ : Staging) }), 10, sound_of (by decide +kernel), 10, by decide +kernel, (⟨0, 3, [0xba, 0x78, 0x16, 0xbf, 0x8f, 0x01, 0xcf, 0xea, 0x41, 0x41, 0x40, 0xde, 0x5d, 0xae, 0x22, 0x23, 0xb0, 0x03, 0x61, 0xa3, 0x96, 0x17, 0x7a, 0x9c, 0xb4, 0x10, 0xff, 0x61, 0xf2, 0x00, 0x15, 0xad], [(0, [97, 98, 99])], 2, [], none, false, 0, 0⟩ : Staging), by decide +kernel⟩,
   ⟨up.modFw (fun x => { x with trial := true, confirmDue := some 10 }), 10, sound_of (by decide +kernel), 10, by decide +kernel⟩,
   ⟨up, up_sound, by decide +kernel⟩,
   ⟨up.modKeys (fun x => { x with queue := [⟨1, 1, 255, []⟩], root := some [] }), sound_of (by decide +kernel), ⟨1, 1, 255, []⟩,
     [], by decide +kernel⟩,
   ⟨up.modKeys (fun x => { x with queue := [⟨1, 1, 255, []⟩], root := none }), sound_of (by decide +kernel), ⟨1, 1, 255, []⟩, [],
     by decide +kernel⟩⟩

/-- What `Obligations.TestWritesOutsideTheirBoundsAreIgnored` assumes is met. -/
theorem wit_TestWritesOutsideTheirBoundsAreIgnored :
    (∃ (s : State) (v : BitVec 32), Sound s ∧ s.test.unlocked = true ∧ (∃ i k, (∃ n, n < 8 ∧
      (k, i) ∈ [(0, Instr.testStretchWrite n v), (1, .testFifoWrite v), (2, .testRingWrite v), (3, .testZcWrite v), (4,
      .testSafetyWrite v), (5, .testPlcWrite v), (6, .testMramWrite v), (7, .testWdWrite v)]) ∧
      (s.pn ND_TEST_ALLOW).testBit k = false)) ∧
    (∃ (s : State) (v : BitVec 32), Sound s ∧ s.test.unlocked = true ∧ (s.pn ND_TEST_ALLOW).testBit 2 = true ∧
      1000 < bitsAt v 0 10) ∧
    (∃ (s : State) (v : BitVec 32), Sound s ∧ s.test.unlocked = true ∧ (s.pn ND_TEST_ALLOW).testBit 3 = true ∧
      (v.toInt < -1000000 ∨ 1000000 < v.toInt)) ∧
    (∃ (s : State) (v : BitVec 32), Sound s ∧ s.test.unlocked = true ∧ (s.pn ND_TEST_ALLOW).testBit 4 = true ∧
      1000 < bitsAt v 16 16) ∧
    (∃ (s : State) (v : BitVec 32), Sound s ∧ s.test.unlocked = true ∧ (s.pn ND_TEST_ALLOW).testBit 5 = true ∧ 24 < bitsAt v 0 5) ∧
    (∃ (s : State) (v : BitVec 32), Sound s ∧ s.test.unlocked = true ∧ (s.pn ND_TEST_ALLOW).testBit 6 = true ∧
      10000 < bitsAt v 0 14) ∧
    (∃ (s : State) (v : BitVec 32), Sound s ∧ s.test.unlocked = true ∧ (∃ n, n < 8 ∧ (s.pn ND_TEST_ALLOW).testBit 0 = true ∧
      146 < bitsAt v 12 8)) :=
  ⟨⟨(cfg [(ND_TEST_ALLOW, 0, 254)]).modTest (fun x => { x with unlocked := true }), 0, sound_of (by decide +kernel),
    by decide +kernel, .testStretchWrite 7 0, 0, by decide +kernel⟩,
   ⟨unlocked, 1001, sound_of (by decide +kernel), by decide +kernel⟩,
   ⟨unlocked, BitVec.ofInt 32 (-1000001), sound_of (by decide +kernel), by decide +kernel⟩,
   ⟨unlocked, 1001 * 65536, sound_of (by decide +kernel), by decide +kernel⟩,
   ⟨unlocked, 25, sound_of (by decide +kernel), by decide +kernel⟩,
   ⟨unlocked, 10001, sound_of (by decide +kernel), by decide +kernel⟩,
   ⟨unlocked, 147 * 4096, sound_of (by decide +kernel), by decide +kernel, 7, by decide +kernel⟩⟩

/-- What `Obligations.OutputsStartAndReportByRule` assumes is met. -/
theorem wit_OutputsStartAndReportByRule :
    (∃ (s : State) (h : Hdr) (p : Bytes) (i : Nat), Sound s ∧ i < 8 ∧ Taken s 0x0703 h p ∧ p.length = 20 ∧ fld p 0 1 = i ∧
      fld p 1 1 = 1 ∧ fld p 2 8 < s.nodeNow) ∧
    (∃ (s : State) (h : Hdr) (p : Bytes) (i : Nat), Sound s ∧ i < 8 ∧ Taken s 0x0703 h p ∧ p.length = 20 ∧ fld p 0 1 = i ∧
      fld p 1 1 = 2 ∧ fld p 18 1 < 2 ∧ fld p 19 1 < 2 ∧ 8 ≤ fld p 14 4 ∧ fld p 14 4 % 8 = 0 ∧ 1000 ≤ fld p 10 4 ∧
      fld p 10 4 ≤ 1000000000 ∧ fld p 10 4 % 8 = 0 ∧ fld p 14 4 + 8 ≤ fld p 10 4) ∧
    (∃ (s : State) (u : Nat) (i : Nat), Sound s ∧ i < 8 ∧ (s.tto i).armed = true ∧ ripeAt (s.tto i).trailAt u = false ∧
      (s.tto i).next ≤ (s.at u).nodeNow ∧ (s.tto i).mode = 1) ∧
    (∃ (s : State) (u : Nat) (i : Nat), Sound s ∧ i < 8 ∧ (s.tto i).armed = true ∧ ripeAt (s.tto i).trailAt u = false ∧
      (s.tto i).next ≤ (s.at u).nodeNow ∧ (s.tto i).mode = 2 ∧ (s.tto i).report = true) ∧
    (∃ (s : State) (u : Nat) (i : Nat), Sound s ∧ i < 8 ∧ (s.tto i).armed = true ∧ ripeAt (s.tto i).trailAt u = false ∧
      (s.tto i).next ≤ (s.at u).nodeNow ∧ (s.tto i).mode = 2 ∧ (s.tto i).report = false) :=
  ⟨⟨up, hd, [7, 1] ++ le 8 999999999 ++ zeros 4 ++ le 4 8 ++ [1, 1], 7, up_sound, by decide +kernel, taken_of (by decide +kernel),
    by decide +kernel⟩,
   ⟨up, hd, [7, 2] ++ le 8 0 ++ le 4 1000 ++ le 4 992 ++ [1, 1], 7, up_sound, by decide +kernel, taken_of (by decide +kernel),
     by decide +kernel⟩,
   ⟨up.modTto 7 (fun x => { x with armed := true, mode := 1, next := 1000000000 }), 1000000000, 7, sound_of (by decide +kernel),
     by decide +kernel⟩,
   ⟨up.modTto 7 (fun x => { x with armed := true, mode := 2, report := true, next := 1000000000 }), 1000000000, 7,
     sound_of (by decide +kernel), by decide +kernel⟩,
   ⟨up.modTto 7 (fun x => { x with armed := true, mode := 2, next := 1000000000 }), 1000000000, 7, sound_of (by decide +kernel),
     by decide +kernel⟩⟩

/-- What `Obligations.CoursedChannelsReadAsTheirCourse` assumes is met. -/
theorem wit_CoursedChannelsReadAsTheirCourse :
    (∃ (s : State) (h : Hdr) (j : Nat), Sound s ∧ s.eng.mode = 1 ∧ j < 64 ∧ Taken s 0x030F h [byteOf (2 * j)] ∧
      Taken s 0x030F h [byteOf (2 * j + 1)]) :=
  ⟨up.modEng (fun e => { e with mode := 1 }), hd, 63, sound_of (by decide +kernel), by decide +kernel, by decide +kernel,
    taken_of (by decide +kernel), taken_of (by decide +kernel)⟩

/-- What `Obligations.StreamReadsCarryTheirTag` assumes is met. -/
theorem wit_StreamReadsCarryTheirTag :
    (∃ (s : State) (k : Nat), Sound s ∧ s.pwr.coreOn = true ∧ k < 4) :=
  ⟨up, 3, up_sound, by decide +kernel⟩

/-- What `Obligations.FlushAndResetsOfStreams` assumes is met. -/
theorem wit_FlushAndResetsOfStreams :
    (∃ (s : State), Sound s ∧ (∃ (k : _) (v : BitVec 32), s.pwr.coreOn = true ∧ k < 4 ∧ v.getLsbD 0 = true)) ∧
    (∃ (s : State), Sound s ∧ (∃ u i, s.pwr.coreOn = true ∧
      i ∈ [Instr.railRestartTrip u 0 0, .refclkLoss u, .resetnAssert u 10000 true, .thermalShutdown u 1450])) ∧
    (∃ (s : State), Sound s ∧ (∃ u d, s.pwr.coreOn = true ∧ s.pwr.tb = some d ∧ d + 600000 ≤ u)) ∧
    (∃ (s : State), Sound s ∧ s.fw.svcRunning = true) :=
  ⟨⟨up, up_sound, 3, 1, by decide +kernel⟩,
   ⟨up, up_sound, 0, .refclkLoss 0, by decide +kernel⟩,
   ⟨up.modPwr (fun x => { x with tb := some 0 }), sound_of (by decide +kernel), 600000, 0, by decide +kernel⟩,
   ⟨up, up_sound, by decide +kernel⟩⟩

/-- What `Obligations.RefusedCommitChangesNoParameter` assumes is met. -/
theorem wit_RefusedCommitChangesNoParameter :
    (∃ (s : State) (h : Hdr) (p : Bytes), Sound s ∧ Taken s 0x0202 h (withFlags 1 p) ∧ 
      let all := (match s.par.batch with | some b => b.entries | none => []) ++ readEntries p
      
      let x := (s.accept 0x0202 h (withFlags 1 p)).closeBatch
      
      let g := x.future (x.batchValues all)
      4 ≤ p.length ∧ p.length ≤ 244 ∧ (p.length - 4) % 12 = 0 ∧ fld p 3 1 = 0 ∧ all.length ≤ 1024 ∧
        (match s.par.batch with | some b => b.num = fld p 0 2 | none => True) ∧ duplicated (all.map entryValue) = false ∧
        (∃ f, x.firstFailure g 0 all = some f)) ∧
    (∃ (s : State) (h : Hdr) (p : Bytes), Sound s ∧ Taken s 0x0202 h (withFlags 1 p) ∧ 
      let all := (match s.par.batch with | some b => b.entries | none => []) ++ readEntries p
      
      let x := (s.accept 0x0202 h (withFlags 1 p)).closeBatch
      
      let g := x.future (x.batchValues all)
      4 ≤ p.length ∧ p.length ≤ 244 ∧ (p.length - 4) % 12 = 0 ∧ fld p 3 1 = 0 ∧ all.length ≤ 1024 ∧
        (match s.par.batch with | some b => b.num = fld p 0 2 | none => True) ∧ duplicated (all.map entryValue) = false ∧
        x.firstFailure g 0 all = none ∧ g.crossOk = false) ∧
    (∃ (s : State) (h : Hdr) (p : Bytes), Sound s ∧ Taken s 0x0202 h (withFlags 1 p) ∧ 
      let all := (match s.par.batch with | some b => b.entries | none => []) ++ readEntries p
      
      let x := (s.accept 0x0202 h (withFlags 1 p)).closeBatch
      
      let g := x.future (x.batchValues all)
      4 ≤ p.length ∧ p.length ≤ 244 ∧ (p.length - 4) % 12 = 0 ∧ fld p 3 1 = 0 ∧ all.length ≤ 1024 ∧
        (match s.par.batch with | some b => b.num = fld p 0 2 | none => True) ∧ duplicated (all.map entryValue) = false ∧
        x.firstFailure g 0 all = none ∧ g.crossOk = true ∧ 0 < logCount (x.batchValues all) ∧
        x.logFull (logCount (x.batchValues all)) = true) ∧
    (∃ (s : State) (h : Hdr) (p : Bytes), Sound s ∧ Taken s 0x0202 h (withFlags 1 p) ∧ 
      let all := (match s.par.batch with | some b => b.entries | none => []) ++ readEntries p
      
      let x := (s.accept 0x0202 h (withFlags 1 p)).closeBatch
      
      let g := x.future (x.batchValues all)
      4 ≤ p.length ∧ p.length ≤ 244 ∧ (p.length - 4) % 12 = 0 ∧ fld p 3 1 = 0 ∧ all.length ≤ 1024 ∧
        (match s.par.batch with | some b => b.num = fld p 0 2 | none => True) ∧ duplicated (all.map entryValue) = false ∧
        x.firstFailure g 0 all = none ∧ g.crossOk = true ∧ x.logFull (logCount (x.batchValues all)) = false ∧ g.admission.1 ≠ 0) :=
  ⟨⟨(up).modSaf (fun x => { x with seals := 7 }), hd, [1, 0, 0, 0, 255, 63, 0, 0, 0, 0, 0, 0, 0, 0, 0, 0],
    sound_of (by decide +kernel), taken_of (by decide +kernel), by decide +kernel, by decide +kernel, by decide +kernel,
    by decide +kernel, by decide +kernel, trivial, by decide +kernel, (0, 4), by decide +kernel⟩,
   ⟨(cfg [(CH_DC_BLOCK, 0, 0)]).modSaf (fun x => { x with seals := 7 }), hd, [1, 0, 0, 0, 4, 49, 0, 0, 1, 0, 0, 0, 0, 0, 0, 0],
     sound_of (by decide +kernel), taken_of (by decide +kernel), by decide +kernel, by decide +kernel, by decide +kernel,
     by decide +kernel, by decide +kernel, trivial, by decide +kernel⟩,
   ⟨(up.modLog (fun x => { x with held := (List.range 4032).map (fun i => ⟨i, [], false⟩) })).modSaf (fun x =>
     { x with seals := 7 }), hd, [1, 0, 0, 0, 0, 48, 0, 0, 0, 0, 0, 0, 0, 0, 0, 0], sound_of (by decide +kernel),
     taken_of (by decide +kernel), by decide +kernel, by decide +kernel, by decide +kernel, by decide +kernel, by decide +kernel,
     trivial, by decide +kernel⟩,
   ⟨(up.modFw (fun x => { x with costs := List.replicate 62 100000 })).modSaf (fun x => { x with seals := 7 }), hd, [1, 0, 0, 0,
     1, 88, 0, 0, 20, 0, 0, 0, 0, 0, 0, 0], sound_of (by decide +kernel), taken_of (by decide +kernel), by decide +kernel,
     by decide +kernel, by decide +kernel, by decide +kernel, by decide +kernel, trivial, by decide +kernel⟩⟩

/-- What `Obligations.SlotsFollowTheAllocationOrder` assumes is met. -/
theorem wit_SlotsFollowTheAllocationOrder :
    (∃ (s : State) (l : List Sym) (n : Nat), 
      let order := l.foldl (fun a y => s.insertSym y a) []
      (∃ x, x ∈ order.take n ∧ (∃ (y : Sym), y ∈ order.drop n))) :=
  ⟨up, [⟨17, true, false, 0, false, 0, 0, 0, 0, 0, 0, [], false, []⟩, ⟨17, true, false, 0, false, 0, 0, 0, 0, 0, 0, [], false,
    []⟩], 1, ⟨17, true, false, 0, false, 0, 0, 0, 0, 0, 0, [], false, []⟩, by decide +kernel, ⟨17, true, false, 0, false, 0, 0, 0,
    0, 0, 0, [], false, []⟩, by decide +kernel⟩

/-- What `Obligations.LegalRegistersNeverRunBack` assumes is met. -/
theorem wit_LegalRegistersNeverRunBack :
    (∃ (s : State) (p : Nat), Sound s ∧ p < 16 ∧ (∀ i, (s.pt p).regs.getD i 0 ≤ regTop)) ∧
    (∃ (s : State) (p : Nat), Sound s ∧ p < 16 ∧ (∀ i, (s.pt p).regs.getD i 0 ≤ regTop) ∧ (∃ i, (s.pt p).regs.getD i 0 = regTop)) ∧
    (∃ (s : State) (p : Nat), Sound s ∧ p < 16 ∧ (∀ i, (s.pt p).regs.getD i 0 ≤ regTop) ∧ (∃ k, k ≠ p)) :=
  ⟨⟨up, 15, up_sound, by decide +kernel, getD_of_all (P := (· ≤ regTop)) (by decide +kernel) (by decide)⟩,
   ⟨up.modPt 15 (fun x => { x with regs := x.regs.set 0 regTop }), 15, sound_of (by decide +kernel), by decide +kernel,
     getD_of_all (P := (· ≤ regTop)) (by decide +kernel) (by decide), 0, by decide +kernel⟩,
   ⟨up, 15, up_sound, by decide +kernel, getD_of_all (P := (· ≤ regTop)) (by decide +kernel) (by decide), 3, by decide +kernel⟩⟩

/-- What `Obligations.JournalAndLogKeepWhatIsNotAcknowledged` assumes is met. -/
theorem wit_JournalAndLogKeepWhatIsNotAcknowledged :
    (∃ (s : State), s.recs.journal.length ≤ 40960 ∧ ((s.recs.journal.map (fun j => j.slot)).Nodup) ∧ (∃ j, j ∈ s.recs.journal ∧
      s.slotAcked j = false)) ∧
    (∃ (s : State), s.recs.journal.length ≤ 40960 ∧ ((s.recs.journal.map (fun j => j.slot)).Nodup)) ∧
    (∃ (s : State), s.recs.journal.length ≤ 40960 ∧ ((s.recs.journal.map (fun j => j.slot)).Nodup) ∧
      (s.recs.journal.length < 40960 ∨ (∃ j ∈ s.recs.journal, s.slotAcked j = true))) ∧
    (∃ (l : LegalLog), l.held.length ≤ 4096 ∧ (∃ e, e ∈ l.held ∧ (∀ a, l.acked = some a → a < e.index))) ∧
    (∃ (l : LegalLog), l.held.length ≤ 4096) ∧
    (∃ (l : LegalLog), l.held.length ≤ 4096 ∧ l.held.length < 4096) :=
  ⟨⟨jr, by decide +kernel, by decide +kernel, js, by decide +kernel⟩,
   ⟨jr, by decide +kernel⟩,
   ⟨jr, by decide +kernel, by decide +kernel, Or.inl (by decide +kernel)⟩,
   ⟨{ LegalLog.reset with held := [⟨1, [], false⟩], acked := some 0 }, by decide +kernel, ⟨1, [], false⟩, by decide +kernel,
     by intro a ha; cases ha; decide⟩,
   ⟨LegalLog.reset, by decide +kernel⟩,
   ⟨LegalLog.reset, by decide +kernel⟩⟩

/-- What `Obligations.SavedEntryIsTheOneFound` assumes is met. -/
theorem wit_SavedEntryIsTheOneFound :
    (∃ (s : State), s.led.slots.length = 4 ∧ (∀ x ∈ s.led.slots.filterMap id, x.gen < 2 ^ 64) ∧
      (∀ b ∈ s.led.banks.filterMap id, b.gen ≤ s.newestGen)) :=
  ⟨up, by decide +kernel⟩

/-- What `Obligations.HoldsStandUntilTheyAreReleased` assumes is met. -/
theorem wit_HoldsStandUntilTheyAreReleased :
    (∃ (s : State) (n : Nat), Sound s ∧ n < 32 ∧ s.sw.powered = true) ∧
    (∃ (s : State) (n : Nat), Sound s ∧ n < 32 ∧ s.sw.powered = true ∧ s.sw.link = true) ∧
    (∃ (s : State) (n : Nat), Sound s ∧ n < 32 ∧ s.sw.powered = true ∧ s.sw.link = false) ∧
    (∃ (s : State) (n : Nat), Sound s ∧ n < 32 ∧ (s.swch n).held134 = true) ∧
    (∃ (s : State) (n : Nat), Sound s ∧ n < 32 ∧ (∃ h p, Taken s 0x0315 h p ∧ p.length = 2 ∧ fld p 0 1 = n ∧ fld p 1 1 = 1 ∧
      s.ptType (n / 2) ≠ 0 ∧ s.pathLocked n = false ∧ (s.swch n).held134 = true)) ∧
    (∃ (s : State) (n : Nat), Sound s ∧ n < 32) ∧
    (∃ (s : State) (n : Nat), Sound s ∧ n < 32 ∧ (∃ k j, j ∈ (s.swch n).siHold ∧ j ≠ k)) ∧
    (∃ (s : State) (n : Nat), Sound s ∧ n < 32 ∧ (∃ k j, j ∈ (s.swch n).hold4 ∧ j ≠ k)) :=
  ⟨⟨up, 31, up_sound, by decide +kernel⟩,
   ⟨up, 31, up_sound, by decide +kernel⟩,
   ⟨up.modSw (fun x => { x with link := false }), 31, sound_of (by decide +kernel), by decide +kernel⟩,
   ⟨up.modSwch 31 (fun c => { c with resHold := true }), 31, sound_of (by decide +kernel), by decide +kernel⟩,
   ⟨(cfg [(PT_TYPE, 15, 3)]).modSwch 31 (fun c => { c with resHold := true }), 31, sound_of (by decide +kernel),
     by decide +kernel, hd, [31, 1], taken_of (by decide +kernel), by decide +kernel⟩,
   ⟨up, 31, up_sound, by decide +kernel⟩,
   ⟨up.modSwch 31 (fun c => { c with siHold := [30] }), 31, sound_of (by decide +kernel), by decide +kernel, 31, 30,
     by decide +kernel⟩,
   ⟨up.modSwch 31 (fun c => { c with hold4 := [30] }), 31, sound_of (by decide +kernel), by decide +kernel, 31, 30,
     by decide +kernel⟩⟩

/-- What `Obligations.BankAndEntryRestoreTheRegisters` assumes is met. -/
theorem wit_BankAndEntryRestoreTheRegisters :
    (∃ (s : State) (p : Nat) (m : Nat) (e : LedgerEntry) (y : LedgerPoint), Sound s ∧ p < 16 ∧ s.led.banks.length = 2 ∧
      s.led.sel < 2 ∧ newestEntry (goodEntries s.led.slots []) = some e ∧ e.pts[p]? = some y ∧ y.regs = (s.pt p).advBase ∧
      (s.pt p).advBase.length = 38 ∧ (s.pt p).regs.length = 38 ∧ (s.pt p).tariff < 8 ∧
      (∀ i, (s.pt p).advBase.getD i 0 ≤ (s.pt p).regs.getD i 0 ∧ (s.pt p).regs.getD i 0 ≤ regTop ∧
      (s.pt p).regs.getD i 0 < (s.pt p).advBase.getD i 0 + 2 ^ 64) ∧
      (∀ i, i ∉ s.targets p → (s.pt p).regs.getD i 0 = (s.pt p).advBase.getD i 0) ∧
      (∀ b ∈ s.led.banks.filterMap id, b.gen = e.gen → b.frame < m)) :=
  ⟨led, 15, 1, ledE, ledY, sound_of (by decide +kernel), by decide +kernel, by decide +kernel, by decide +kernel,
    by decide +kernel, by decide +kernel, by decide +kernel, by decide +kernel, by decide +kernel, by decide +kernel,
    forall_getD (n := 38) (by decide +kernel) (by decide +kernel) (P := fun _ a b => a ≤ b ∧ b ≤ regTop ∧
    b < a + 2 ^ 64) (by decide +kernel) (by intro _; decide),
    fun i _ => forall_getD (n := 38) (by decide +kernel) (by decide +kernel) (P := fun _ a b => a = b) (by decide +kernel) (by
    intro _; rfl) i, by decide +kernel⟩

/-- What `Obligations.StepRunsTheFrontCommand` assumes is met. -/
theorem wit_StepRunsTheFrontCommand :
    (∃ (c : Instr) (rest : List Instr) (s : State), s.pending = c :: rest) :=
  ⟨.frameLoRead, [], up.modPending (fun _ => [.frameLoRead]), by decide +kernel⟩

/-- What `Obligations.AnEmptyQueueIdles` assumes is met. -/
theorem wit_AnEmptyQueueIdles :
    (∃ (s : State), s.pending = []) :=
  ⟨up, by decide +kernel⟩

/-- What `Obligations.CommandsKeepTheirParts` assumes is met. -/
theorem wit_CommandsKeepTheirParts :
    (∃ (c : Instr) (s : State) (t : State), exec c s = .next t) :=
  ⟨.dieLinkLost 0, up, _, rfl⟩

/-- What `Obligations.UndefinedHostCasesStayInTheHostSpace` assumes is met. -/
theorem wit_UndefinedHostCasesStayInTheHostSpace :
    (∃ (s : State) (v : BitVec 32), Sound s ∧ s.pwr.coreOn = true ∧ (∃ i, ((∃ a, i = Instr.registerWrite a v false ∧
      (a % 4 ≠ 0 ∨ isPort a = true)) ∨ (∃ m, m < 8 ∧ i = Instr.registerWrite (0x0100 + 4 * m) v false ∧ v.getLsbD 0 = true ∧
      s.mboxFree m = false ∧ s.serving = false) ∨ (∃ m w, m < 8 ∧ w < 64 ∧
      i = Instr.registerWrite (0x1000 + 0x200 * m + 4 * w) v false ∧
      (s.mbox m).req = true) ∨ (∃ m heth, i = Instr.mailboxRelease m heth ∧ s.otherVia m heth = true)))) ∧
    (∃ (s : State), Sound s ∧ s.pwr.coreOn = true ∧ (∃ a, (a % 4 ≠ 0 ∨ isPort a = true))) ∧
    (∃ (s : State), Sound s ∧ s.pwr.coreOn = true ∧ (∃ h, (s.mboxFree h.mbx = false ∨ hdrLegal h = false))) :=
  ⟨⟨up, 0, up_sound, by decide +kernel, .registerWrite 1 0 false, Or.inl ⟨1, rfl, by decide⟩⟩,
   ⟨up, up_sound, by decide +kernel, 1, by decide +kernel⟩,
   ⟨up.modMbox 0 (fun b => { b with rsp := true }), sound_of (by decide +kernel), by decide +kernel, hd, by decide +kernel⟩⟩

/-- What `Obligations.LockedTestWindowIgnoresWrites` assumes is met. -/
theorem wit_LockedTestWindowIgnoresWrites :
    (∃ (s : State), s.test.unlocked = false ∧ (∃ (a : Nat), 0x0300 ≤ a ∧ a < 0x0400)) :=
  ⟨up, by decide +kernel, 0x03FF, by decide +kernel⟩

/-- What `Obligations.EveryStepKeepsTheMachineSound` assumes is met. -/
theorem wit_EveryStepKeepsTheMachineSound :
    (∃ (s : State) (t : State), Sound s ∧ step s = .next t) :=
  ⟨up, up, up_sound, rfl⟩

end Sys2Proof.Tests
end

section
/-!
The time-triggered outputs (03 R84–R86): where `tto-set` places the next leading edge, and what a leading edge reports.
-/

namespace Sys2Proof.Machine

/-! ### An event raised is the newest of its queue -/

theorem EventQueue.add_newest {q : EventQueue} {d : Bytes} : (q.add d).details.getLastD [] = d := by
  unfold EventQueue.add
  split <;> simp

theorem prefix_padTo {a b : Bytes} {n : Nat} (h : a <+: b) (l : a.length ≤ n) : a <+: padTo n b :=
  List.prefix_take_iff.mpr ⟨h.trans (List.prefix_append b _), l⟩

/-- The spec lemma of `addDetail`: the detail is the newest of its queue, and its pending bit is set once READY stands (R460, R508). -/
theorem State.addDetail_raised {s : State} {ev : Nat} {a d : Bytes} (l : s.host.events.length = 64) (e : ev < 64) (h : a <+: d) :
    Raised (s.addDetail ev d) ev a where
  newest := by
    have q : (s.addDetail ev d).host.events.getD ev EventQueue.reset = (s.host.events.getD ev EventQueue.reset).add d :=
      getD_upd_eq (by omega)
    rw [q, EventQueue.add_newest]
    exact (List.prefix_iff_eq_take.mp h).symm
  pending := by
    intro r
    have p : (s.addDetail ev d).host.pend = s.host.pend ||| BitVec.ofNat 64 (2 ^ ev) := if_pos r
    rw [p, BitVec.getLsbD_or, BitVec.getLsbD_ofNat, Nat.testBit_two_pow_self, decide_eq_true e]
    exact Bool.or_true _

/-- The spec lemma of `raise`: the detail begins with what the body begins with, up to the place of the Count. -/
theorem State.raise_raised {s : State} {ev sub : Nat} {a b : Bytes} (l : s.host.events.length = 64) (e : ev < 64) (h : a <+: b)
    (n : a.length ≤ 28) : Raised (s.raise ev sub b) ev a :=
  State.addDetail_raised (by simpa [upd] using l) e ((prefix_padTo h n).trans (List.prefix_append _ _))

theorem State.ttoEvent_raised {s : State} {i edge : Nat} {late : Bool} (k : Sound s) :
    Raised (s.ttoEvent i late edge) 59 [byteOf i] :=
  State.raise_raised k.host.queues (by decide) (by simp) (by simp)

/-! ### Node time and the outputs, read after an update -/

theorem State.modTto_same {s : State} {i : Nat} {f : Tto → Tto} (h : i < s.servo.ttos.length) :
    (s.modTto i f).tto i = f (s.tto i) := getD_upd_eq h

theorem State.tto_congr {s t : State} {i : Nat} (h : t.servo = s.servo) : t.tto i = s.tto i := by
  rw [State.tto, h, State.tto]

theorem State.nodeNow_congr {s t : State} (h : t.clk = s.clk) : t.nodeNow = s.nodeNow := by
  simp only [State.nodeNow, State.fineTime, State.timeStep, h]

theorem State.accept_nodeNow {s : State} {code : Nat} {h : Hdr} {p : Bytes} : (s.accept code h p).nodeNow = s.nodeNow :=
  State.nodeNow_congr (State.accept_keeps.clk rfl)

theorem State.accept_servo {s : State} {code : Nat} {h : Hdr} {p : Bytes} : (s.accept code h p).servo = s.servo :=
  State.accept_keeps.servo rfl

/-! ### The first point of a grid at or after an instant -/

theorem grid_reaches {start period target : Nat} (h : 0 < period) :
    target ≤ start + ((target - start) ⌈/⌉ period) * period := by
  have l : target - start ≤ period * ((target - start) ⌈/⌉ period) := le_smul_ceilDiv h
  rw [Nat.mul_comm] at l
  omega

theorem grid_before {start period target j : Nat} (h : 0 < period) (l : j < (target - start) ⌈/⌉ period) :
    start + j * period < target := by
  have g : ¬ target - start ≤ period * j := mt (ceilDiv_le_iff_le_mul h).mpr (Nat.not_le.mpr l)
  rw [Nat.mul_comm] at g
  omega

/-! ### What `tto-set` comes to -/

/-- R85: a one-shot in the past is refused, and nothing changes. The checks that stand before the one of the start answer the
same status. -/
theorem serveTtoSet_past {p : Bytes} {s : State} (hl : p.length = 20) (hi : fld p 0 1 < 8) (hm : fld p 1 1 = 1)
    (hs : fld p 2 8 < s.nodeNow) : serveTtoSet p s = refuse s 6 := by
  unfold serveTtoSet
  dsimp only
  rw [if_neg (not_not_intro hl), if_neg (Nat.not_le.mpr hi), if_pos (And.intro hm hs)]
  simp only [ite_self]

/-- The fields of a periodic output that `tto-set` takes (Table 20.6). -/
structure PeriodicFields (p : Bytes) : Prop where
  length : p.length = 20
  output : fld p 0 1 < 8
  mode : fld p 1 1 = 2
  polarity : fld p 18 1 < 2
  report : fld p 19 1 < 2
  widthMin : 8 ≤ fld p 14 4
  widthGrid : fld p 14 4 % 8 = 0
  periodMin : 1000 ≤ fld p 10 4
  periodMax : fld p 10 4 ≤ 1000000000
  periodGrid : fld p 10 4 % 8 = 0
  gap : fld p 14 4 + 8 ≤ fld p 10 4

/-- R85: a periodic output is programmed, and its next edge is the first of its grid that is 1,000 ns ahead. -/
theorem serveTtoSet_periodic {p : Bytes} {s : State} (hp : PeriodicFields p) :
    ∃ f : Tto → Tto, serveTtoSet p s = okS (s.modTto (fld p 0 1) f) ∧
      ∀ o, (f o).next = fld p 2 8 + ((s.nodeNow + 1000 - fld p 2 8) ⌈/⌉ fld p 10 4) * fld p 10 4 := by
  obtain ⟨hl, hi, hm, hpol, hrep, hw, hw8, hp0, hp1, hp8, hgap⟩ := hp
  unfold serveTtoSet
  dsimp only
  rw [if_neg (not_not_intro hl), if_neg (Nat.not_le.mpr hi), if_neg (by omega), if_neg (by omega), if_neg (by omega),
    if_neg (by omega)]
  refine ⟨_, rfl, fun o => ?_⟩
  dsimp only
  split
  · rfl
  · next h =>
    have d : s.nodeNow + 1000 - fld p 2 8 = 0 := by omega
    rw [d, zero_ceilDiv, Nat.zero_mul, Nat.add_zero]

/-- R85: what `tto-set` of a one-shot in the past comes to. -/
theorem execTtoSet_past {s : State} {h : Hdr} {p : Bytes} (k : Sound s) (q : Taken s 0x0703 h p) (hl : p.length = 20)
    (hi : fld p 0 1 < 8) (hm : fld p 1 1 = 1) (hs : fld p 2 8 < s.nodeNow) :
    ∃ t, execTtoSet h p s = .next t ∧ Answered t 0x0703 h 6 [] ∧ t.servo = s.servo := by
  have hs' : fld p 2 8 < (s.accept 0x0703 h p).nodeNow := by rwa [State.accept_nodeNow]
  have g := serveTtoSet_past hl hi hm hs'
  obtain ⟨t, e, a, c, -⟩ := taken_answered q g (State.accept_sound k).host.boxes
  exact ⟨t, e, a, (c.servo rfl).trans State.accept_servo⟩

/-- R85: what `tto-set` of a periodic output comes to. -/
theorem execTtoSet_periodic {s : State} {h : Hdr} {p : Bytes} (k : Sound s) (q : Taken s 0x0703 h p) (hp : PeriodicFields p) :
    ∃ t, execTtoSet h p s = .next t ∧ Answered t 0x0703 h 0 [] ∧ (t.tto (fld p 0 1)).next =
      fld p 2 8 + ((s.nodeNow + 1000 - fld p 2 8) ⌈/⌉ fld p 10 4) * fld p 10 4 := by
  have k' : Sound (s.accept 0x0703 h p) := State.accept_sound k
  obtain ⟨f, g, n⟩ := serveTtoSet_periodic hp
  obtain ⟨t, e, a, c, -⟩ := taken_answered q g (State.modTto_sound k').host.boxes
  refine ⟨t, e, a, ?_⟩
  rw [State.tto_congr (c.servo rfl), State.modTto_same (k'.outputs.symm ▸ hp.output), n, State.accept_nodeNow]

/-! ### What a leading edge comes to -/

/-- Output `i` reaches its next leading edge at `u`, with no trailing edge before it. -/
structure LeadingEdgeDue (s : State) (u i : Nat) : Prop where
  armed : (s.tto i).armed = true
  mode : (s.tto i).mode ≠ 0
  trail : ripeAt (s.tto i).trailAt u = false
  reached : (s.tto i).next ≤ (s.at u).nodeNow

/-- What a leading edge does besides the output's own part `x`: a one-shot, or an output that reports, raises TIME_OUTPUT_FIRED (R85). -/
theorem execTtoEdge_leading {s : State} {u i : Nat} (k : Sound s) (d : LeadingEdgeDue s u i) :
    ∃ x late edge, Sound x ∧ x.host = s.host ∧ execTtoEdge u i s =
      .next (if (s.tto i).mode = 1 ∨ (s.tto i).report = true then x.ttoEvent i late edge else x) := by
  have o : (s.at u).tto i = s.tto i := State.tto_congr rfl
  unfold execTtoEdge
  dsimp only
  rw [o, if_neg (by simp [d.trail]), if_pos (by simp [d.armed, d.mode, d.reached]), ← apply_ite Host.Outcome.next]
  exact ⟨_, _, _, State.modTto_sound (State.at_sound k), rfl, rfl⟩

theorem execTtoEdge_raises {s : State} {u i : Nat} (k : Sound s) (d : LeadingEdgeDue s u i)
    (c : (s.tto i).mode = 1 ∨ (s.tto i).report = true) : ∃ t, execTtoEdge u i s = .next t ∧ Raised t 59 [byteOf i] := by
  obtain ⟨x, late, edge, kx, -, e⟩ := execTtoEdge_leading k d
  rw [if_pos c] at e
  exact ⟨_, e, State.ttoEvent_raised kx⟩

theorem execTtoEdge_silent {s : State} {u i : Nat} (k : Sound s) (d : LeadingEdgeDue s u i)
    (c : ¬ ((s.tto i).mode = 1 ∨ (s.tto i).report = true)) : ∃ t, execTtoEdge u i s = .next t ∧ t.host = s.host := by
  obtain ⟨x, late, edge, -, hx, e⟩ := execTtoEdge_leading k d
  rw [if_neg c] at e
  exact ⟨x, e, hx⟩

/-- Settles O38: `tto-set` refuses a one-shot in the past and starts a periodic output at the first point of its grid a microsecond
ahead, and a leading edge is reported where R85 says so. -/
theorem outputsStartAndReportByRule : Obligations.OutputsStartAndReportByRule := by
  intro s h p u i k hi
  refine ⟨?past, ?periodic, fun ha hr hn => ⟨?oneShot, ?reported, ?silent⟩⟩
  case past =>
    intro q hl ho hm hs
    obtain ⟨t, e, a, v⟩ := execTtoSet_past k q hl (ho ▸ hi) hm hs
    exact ⟨t, 6, e, by decide, a, v⟩
  case periodic =>
    intro q hl ho hm hpol hrep hw hw8 hp0 hp1 hp8 hgap
    have pos : 0 < fld p 10 4 := by omega
    obtain ⟨t, e, a, n⟩ := execTtoSet_periodic k q ⟨hl, ho ▸ hi, hm, hpol, hrep, hw, hw8, hp0, hp1, hp8, hgap⟩
    rw [ho] at n
    exact ⟨t, _, e, a, n, n ▸ grid_reaches pos, fun j hj => grid_before pos hj⟩
  case oneShot =>
    intro hm
    exact execTtoEdge_raises k ⟨ha, by omega, hr, hn⟩ (.inl hm)
  case reported =>
    intro hm hrep
    exact execTtoEdge_raises k ⟨ha, by omega, hr, hn⟩ (.inr hrep)
  case silent =>
    intro hm hrep
    exact execTtoEdge_silent k ⟨ha, by omega, hr, hn⟩ (by simp [hm, hrep])

end Sys2Proof.Machine
end

section
/-!
The stream FIFOs (19 R457, R459): what a read delivers, what a flush takes, and what the resets of the core die and of the service
pair leave of the FIFOs.
-/

namespace Sys2Proof.Machine

theorem hostAct_on {f : State → State} {s : State} (on : s.pwr.coreOn = true) : hostAct f s = .next (f s) :=
  congrArg Host.Outcome.next (if_pos on)

/-! ### What a stream read delivers (R457) -/

theorem le_four (n : Nat) : le 4 n = [byteOf n, byteOf (n / 256), byteOf (n / 65536), byteOf (n / 16777216)] := by
  simp [le, Nat.div_div_eq_div_mul]

/-- A tag whose underrun bit is clear. -/
theorem tag_bits (bad last : Bool) :
    (b2n bad + 4 * b2n last).testBit 0 = bad ∧ (b2n bad + 4 * b2n last).testBit 1 = false ∧
      (b2n bad + 4 * b2n last).testBit 2 = last := by
  cases bad <;> cases last <;> decide

theorem tag_lt (bad last : Bool) : b2n bad + 4 * b2n last < 8 := by
  cases bad <;> cases last <;> decide

theorem fifoRead_oldest {a t w : Nat} {last bad : Bool} {ws : List (Nat × Bool × Bool)} {f : Fifo}
    (h : f.words = (w, last, bad) :: ws) :
    (fifoRead a t false f).1 = w ∧ (fifoRead a t false f).2.1 = b2n bad + 4 * b2n last := by
  unfold fifoRead
  rw [h]
  exact ⟨rfl, rfl⟩

theorem fifoRead_underrun {a t : Nat} {hold : Bool} {f : Fifo} (h : hold = true ∨ f.words = []) :
    (fifoRead a t hold f).2.1 = 2 := by
  unfold fifoRead
  split
  · next e => simp [e] at h
  · rfl

theorem Fifo.spoil_cons {f : Fifo} {w : Nat} {last b : Bool} {ws : List (Nat × Bool × Bool)} (h : f.words = (w, last, b) :: ws) :
    f.spoil.words = (w, last, true) :: ws := by
  simp [Fifo.spoil, h]

theorem Fifo.spoil_nil {f : Fifo} (h : f.words = []) : f.spoil.words = [] := by
  simp [Fifo.spoil, h]

/-- The FIFO read that a read of stream `k` comes to: the word, its tag and the FIFO after it. -/
def State.streamRead (s : State) (k : Nat) (bad : Bool) : Nat × Nat × Fifo :=
  fifoRead (streamBits k) s.clk.up (s.streamHeld k) (if bad then (s.stream k).spoil else s.stream k)

theorem State.streamRead_oldest {s : State} {k w : Nat} {bad last b : Bool} {ws : List (Nat × Bool × Bool)}
    (held : s.streamHeld k = false) (h : (s.stream k).words = (w, last, b) :: ws) :
    (s.streamRead k bad).1 = w ∧ (s.streamRead k bad).2.1 = b2n (bad || b) + 4 * b2n last := by
  unfold streamRead
  rw [held]
  cases bad with
  | false => exact fifoRead_oldest h
  | true => exact fifoRead_oldest (Fifo.spoil_cons h)

theorem State.streamRead_underrun {s : State} {k : Nat} {bad : Bool} (h : s.streamHeld k = true ∨ (s.stream k).words = []) :
    (s.streamRead k bad).2.1 = 2 := by
  cases bad with
  | false => exact fifoRead_underrun h
  | true => exact fifoRead_underrun (h.imp_right Fifo.spoil_nil)

/-- A tag leaves bits 7:3 zero. -/
theorem State.streamRead_tag_lt {s : State} {k : Nat} {bad : Bool} : (s.streamRead k bad).2.1 < 8 := by
  unfold streamRead fifoRead
  split
  · exact tag_lt _ _
  · exact (by decide : 2 < 8)

/-- The spec lemma of a stream read: the host reads the word and the tag of one FIFO read. -/
theorem execStreamPortRead_delivers {s : State} {k : Nat} {bad : Bool} (on : s.pwr.coreOn = true) (hk : k < 4) :
    ∃ t, execStreamPortRead k bad s = .next t ∧
      t.host.lastRead = le 4 (s.streamRead k bad).1 ++ [byteOf (s.streamRead k bad).2.1] :=
  ⟨_, (hostAct_on on).trans (congrArg Host.Outcome.next (if_pos hk)), rfl⟩

/-- Settles O40: the five bytes of a read are those of one FIFO read, whose tag marks an underrun, or the parity and the end of
record of the oldest word. -/
theorem streamReadsCarryTheirTag : Obligations.StreamReadsCarryTheirTag := by
  intro s k bad _ on hk
  obtain ⟨t, e, d⟩ := execStreamPortRead_delivers (bad := bad) on hk
  rw [le_four] at d
  refine ⟨t, _, _, e, State.streamRead_tag_lt, d, ?word, ?underrun⟩
  case word =>
    intro held w last b ws hw
    obtain ⟨hr, ht⟩ := State.streamRead_oldest (bad := bad) held hw
    rw [ht]
    exact ⟨hr, tag_bits _ _⟩
  case underrun =>
    intro h
    rw [State.streamRead_underrun h]
    decide

/-! ### A flush takes the whole units (R459) -/

/-- The words that a flush leaves are those behind the last one that closes a unit. -/
theorem drop_lastUnit (l : List (Nat × Bool × Bool)) : l.drop (lastUnit l) = l.rtakeWhile (fun w => !w.2.1) := by
  have h := List.suffix_iff_eq_drop.mp (List.rtakeWhile_suffix (fun w => !w.2.1) l)
  rw [List.rtakeWhile, List.length_reverse] at h
  exact h.symm

theorem drop_lastUnit_open {l : List (Nat × Bool × Bool)} {x : Nat × Bool × Bool} (h : x ∈ l.drop (lastUnit l)) :
    x.2.1 = false := by
  rw [drop_lastUnit] at h
  simpa using List.mem_rtakeWhile_imp h

/-- What a flush takes is a beginning of the words that is empty or closes a unit. -/
theorem exists_append_drop_lastUnit (l : List (Nat × Bool × Bool)) :
    ∃ u, l = u ++ l.drop (lastUnit l) ∧ (u = [] ∨ ∃ x ∈ u.getLast?, x.2.1 = true) := by
  refine ⟨l.rdropWhile (fun w => !w.2.1), ?_, or_iff_not_imp_left.mpr fun ne => ?_⟩
  · rw [drop_lastUnit, List.rdropWhile_append_rtakeWhile]
  · exact ⟨_, List.getLast?_eq_getLast_of_ne_nil ne, by simpa using List.rdropWhile_last_not _ _ ne⟩

theorem execStreamFlush_words {s : State} {k : Nat} {v : BitVec 32} (h : Sound s) (on : s.pwr.coreOn = true) (hk : k < 4)
    (hv : v.getLsbD 0 = true) :
    ∃ t, execStreamFlush k v s = .next t ∧ (t.stream k).words = (s.stream k).words.drop (lastUnit (s.stream k).words) := by
  refine ⟨_, (hostAct_on on).trans (congrArg Host.Outcome.next (if_pos ⟨hk, hv⟩)), ?_⟩
  rw [State.modStream_same (h.host.fifos.symm ▸ hk), Fifo.flush]

/-! ### A core-die reset empties every FIFO (R459, R509) -/

/-- The streams and the FIFOs of the capture inputs hold no word. -/
structure FifosEmpty (t : State) : Prop where
  streams : ∀ k, (t.stream k).words = []
  captures : ∀ c, (t.tci c).fifo.words = []

theorem State.resetCore_fifosEmpty {s : State} {cause bit : Nat} (on : s.pwr.coreOn = true) :
    FifosEmpty (s.resetCore cause bit) := by
  rw [resetCore, if_pos on]
  have hs : ((s.coreReset cause).holdReset bit).host.streams = List.replicate 4 Fifo.reset := rfl
  have hc : ((s.coreReset cause).holdReset bit).servo.tcis = List.replicate 4 Tci.reset := rfl
  constructor
  · intro k
    rw [State.stream, hs, List.getD_eq_getElem?_getD, List.getElem?_getD_replicate_default_eq]
    rfl
  · intro c
    rw [State.tci, hc, List.getD_eq_getElem?_getD, List.getElem?_getD_replicate_default_eq]
    rfl

theorem exec_coreReset_fifosEmpty {s : State} {u : Nat} {i : Instr} (on : s.pwr.coreOn = true)
    (hi : i ∈ [Instr.railRestartTrip u 0 0, .refclkLoss u, .resetnAssert u 10000 true, .thermalShutdown u 1450]) :
    ∃ t, exec i s = .next t ∧ FifosEmpty t := by
  simp only [List.mem_cons, List.not_mem_nil, or_false] at hi
  obtain rfl | rfl | rfl | rfl := hi
  · exact ⟨_, rfl, State.resetCore_fifosEmpty (s := s.at u) on⟩
  · exact ⟨_, rfl, State.resetCore_fifosEmpty (s := s.at u) on⟩
  · change ∃ t, execResetnAssert u 10000 true s = .next t ∧ FifosEmpty t
    unfold execResetnAssert
    simp only [Bool.not_true, Bool.and_false]
    exact ⟨_, rfl, State.resetCore_fifosEmpty on⟩
  · exact ⟨_, rfl, State.resetCore_fifosEmpty (s := s.at u) on⟩

theorem execBrownOutReset_fifosEmpty {s : State} {u d : Nat} (on : s.pwr.coreOn = true) (htb : s.pwr.tb = some d)
    (hd : d + 600000 ≤ u) : ∃ t, execBrownOutReset u s = .next t ∧ FifosEmpty t := by
  have h : (s.at u).pwr.tb = some d := htb
  unfold execBrownOutReset
  dsimp only
  rw [h]
  exact ⟨_, if_pos hd, State.resetCore_fifosEmpty (s := s.at u) on⟩

/-! ### A reset of the service pair leaves every FIFO (R459, R516) -/

/-- The streams and the capture inputs of `t` are those of `s`. -/
structure FifosKept (s t : State) : Prop where
  streams : t.host.streams = s.host.streams
  captures : t.servo.tcis = s.servo.tcis

theorem FifosKept.trans {s x t : State} (h : FifosKept s x) (g : FifosKept x t) : FifosKept s t :=
  ⟨g.streams.trans h.streams, g.captures.trans h.captures⟩

theorem FifosKept.ite {s x y : State} {c : Prop} [Decidable c] (h : FifosKept s x) (g : FifosKept s y) :
    FifosKept s (if c then x else y) := by
  split <;> assumption

theorem FifosKept.foldl {α : Type} {s x : State} {f : State → α → State} {l : List α} (h : FifosKept s x)
    (g : ∀ y a, FifosKept y (f y a)) : FifosKept s (l.foldl f x) := by
  induction l generalizing x with
  | nil => exact h
  | cons a l ih => exact ih (h.trans (g x a))

theorem State.loseSource_fifosKept {s : State} {source : Nat} : FifosKept s (s.loseSource source) := by
  unfold loseSource
  refine .ite ⟨rfl, rfl⟩ ?_
  split
  · exact ⟨rfl, rfl⟩
  · exact ⟨rfl, rfl⟩
  · exact .ite ⟨rfl, rfl⟩ ⟨rfl, rfl⟩
  · exact ⟨rfl, rfl⟩

theorem State.freshPtp_fifosKept {s : State} {ports : Nat} : FifosKept s (s.freshPtp ports) := by
  unfold freshPtp
  dsimp only
  refine .ite (.trans ?_ State.loseSource_fifosKept) ?_
  · exact ⟨rfl, rfl⟩
  · exact ⟨rfl, rfl⟩

theorem State.coldService_fifosKept {s : State} : FifosKept s s.coldService := by
  have posted : FifosKept s (s.host.held.foldl (fun s r => s.post r.hdr.mbx r.code r.hdr.tag 15 []) s) :=
    .foldl ⟨rfl, rfl⟩ fun _ _ => ⟨rfl, rfl⟩
  unfold coldService
  dsimp only
  refine .trans ?_ (State.freshPtp_fifosKept.trans ⟨rfl, rfl⟩)
  exact .trans (.foldl (l := points16) ⟨posted.streams, posted.captures⟩ fun _ _ => ⟨rfl, rfl⟩) ⟨rfl, rfl⟩

theorem State.fallBack_fifosKept {s : State} {cause pause layout : Nat} : FifosKept s (s.fallBack cause pause layout) := ⟨rfl, rfl⟩

theorem State.notTaken_fifosKept {s : State} : FifosKept s s.notTaken := by
  unfold notTaken
  split <;> exact ⟨rfl, rfl⟩

theorem execServiceLivenessFail_fifosKept {s : State} {u : Nat} {exc : Option Nat} (run : s.fw.svcRunning = true) :
    ∃ t, execServiceLivenessFail u exc s = .next t ∧ FifosKept s t := by
  refine ⟨_, if_pos run, .trans (.trans ?_ State.coldService_fifosKept)
    (.ite State.fallBack_fifosKept (.ite State.notTaken_fifosKept ⟨rfl, rfl⟩))⟩
  cases exc with
  | none => exact ⟨rfl, rfl⟩
  | some c => exact ⟨rfl, rfl⟩

/-- Settles O41: a flush takes the words up to the last that closes a unit, every reset of the core die loads the reset values of
the streams and of the capture inputs, and a reset of the service pair changes neither. -/
theorem flushAndResetsOfStreams : Obligations.FlushAndResetsOfStreams := by
  intro s h
  refine ⟨?flush, ?core, ?brownOut, ?service⟩
  case flush =>
    intro k v on hk hv
    obtain ⟨t, e, w⟩ := execStreamFlush_words h on hk hv
    obtain ⟨l, hl, hu⟩ := exists_append_drop_lastUnit (s.stream k).words
    rw [← w] at hl
    exact ⟨t, l, e, hl, fun x hx => drop_lastUnit_open (w ▸ hx), hu⟩
  case core =>
    intro u i on hi
    obtain ⟨t, e, f⟩ := exec_coreReset_fifosEmpty on hi
    exact ⟨t, e, f.streams, f.captures⟩
  case brownOut =>
    intro u d on htb hd
    obtain ⟨t, e, f⟩ := execBrownOutReset_fifosEmpty on htb hd
    exact ⟨t, e, f.streams, f.captures⟩
  case service =>
    intro u exc run
    obtain ⟨t, e, f⟩ := execServiceLivenessFail_fifosKept (u := u) (exc := exc) run
    exact ⟨t, e, fun k => by rw [State.stream, f.streams, State.stream], fun c => by rw [State.tci, f.captures, State.tci]⟩

end Sys2Proof.Machine
end

section
/-!
The test window (23 R521): a write to the register of a perturbation that is not allowed, and a field written outside its range.
-/

namespace Sys2Proof.Machine

/-! ### What a write to a test register comes to -/

/-- The perturbations of Table 23.1 with the commands that write their registers, entry `n` for the stretches. -/
def testRegisterWrites (n : Nat) (v : BitVec 32) : List (Nat × Instr) :=
  [(0, .testStretchWrite n v), (1, .testFifoWrite v), (2, .testRingWrite v), (3, .testZcWrite v), (4, .testSafetyWrite v),
    (5, .testPlcWrite v), (6, .testMramWrite v), (7, .testWdWrite v)]

/-- Each of these commands is a write to the register of its own perturbation. -/
theorem exec_testRegisterWrite {n k : Nat} {v : BitVec 32} {i : Instr} {s : State} (h : (k, i) ∈ testRegisterWrites n v) :
    ∃ f, exec i s = .next (s.testWrite k f) := by
  simp only [testRegisterWrites, List.mem_cons, Prod.mk.injEq, List.not_mem_nil, or_false] at h
  obtain ⟨rfl, rfl⟩ | ⟨rfl, rfl⟩ | ⟨rfl, rfl⟩ | ⟨rfl, rfl⟩ | ⟨rfl, rfl⟩ | ⟨rfl, rfl⟩ | ⟨rfl, rfl⟩ | ⟨rfl, rfl⟩ := h
  all_goals exact ⟨_, rfl⟩

theorem State.testWrite_disallowed {s : State} {k : Nat} {f : TestRegs → TestRegs} (u : s.test.unlocked = true)
    (a : (s.pn ND_TEST_ALLOW).testBit k = false) : s.testWrite k f = s.testTouched := by
  simp [testWrite, u, a]

theorem State.testWrite_regs {s : State} {k : Nat} {f : TestRegs → TestRegs} (u : s.test.unlocked = true)
    (a : (s.pn ND_TEST_ALLOW).testBit k = true) : (s.testWrite k f).test.regs = f s.test.regs := by
  have e : s.testWrite k f = s.testTouched.setTest (f s.test.regs) 0 := by simp [testWrite, u, a]
  rw [e, State.setTest_test]

/-! ### A field out of range keeps its value -/

theorem fieldOr_above {lo hi new old : Nat} (h : hi < new) : fieldOr lo hi new old = old :=
  if_neg fun c => Nat.not_le.mpr h c.2

theorem writeTestRing_ringDelay_above {v : BitVec 32} {r : TestRegs} (h : 1000 < bitsAt v 0 10) :
    (writeTestRing v r).ringDelay = r.ringDelay := by
  simp [writeTestRing, fieldOr_above h]

theorem writeTestZc_outside {v : BitVec 32} {r : TestRegs} (h : v.toInt < -1000000 ∨ 1000000 < v.toInt) :
    writeTestZc v r = r :=
  if_neg (by omega)

theorem writeTestSafety_safDelay_above {v : BitVec 32} {r : TestRegs} (h : 1000 < bitsAt v 16 16) :
    (writeTestSafety v r).safDelay = r.safDelay := by
  simp [writeTestSafety, fieldOr_above h]

theorem writeTestPlc_above {v : BitVec 32} {r : TestRegs} (h : 24 < bitsAt v 0 5) : writeTestPlc v r = r := by
  simp [writeTestPlc, fieldOr_above h]

theorem writeTestMram_above {v : BitVec 32} {r : TestRegs} (h : 10000 < bitsAt v 0 14) : writeTestMram v r = r := by
  simp [writeTestMram, fieldOr_above h]

theorem bitsAt_lt (v : BitVec 32) (lo n : Nat) : bitsAt v lo n < 2 ^ n := Nat.mod_lt _ (Nat.two_pow_pos n)

/-- FRET of a stretch word reads back, with CYCLES below it and EN above it. -/
theorem bitsAt_stretchWord_fret {en : Bool} {fret cycles : Nat} (hf : fret < 2 ^ 8) (hc : cycles < 2 ^ 12) :
    bitsAt (stretchWord en fret cycles) 12 8 = fret := by
  rw [bitsAt, stretchWord, BitVec.toNat_ofNat]
  omega

theorem writeTestStretch_fret_above {n : Nat} {v : BitVec 32} {r : TestRegs} (h : 146 < bitsAt v 12 8) :
    bitsAt ((writeTestStretch n v r).stretch.getD n 0) 12 8 = bitsAt (r.stretch.getD n 0) 12 8 :=
  getD_upd (fun o => bitsAt o 12 8 = bitsAt (r.stretch.getD n 0) 12 8) rfl fun _ _ => by
    rw [fieldOr_above h, bitsAt_stretchWord_fret (bitsAt_lt _ 12 8) (bitsAt_lt v 0 12)]

/-- Settles O37: a disallowed write only restarts the timeout of the window, and an allowed one leaves a field as it was where the
new value is out of its range. -/
theorem testWritesOutsideTheirBoundsAreIgnored : Obligations.TestWritesOutsideTheirBoundsAreIgnored := by
  intro s v _ u
  refine ⟨?disallowed, ?ring, ?zc, ?safety, ?plc, ?mram, ?stretch⟩
  case disallowed =>
    rintro i k ⟨n, -, m⟩ a
    obtain ⟨f, e⟩ := exec_testRegisterWrite (n := n) (s := s) m
    rw [State.testWrite_disallowed u a] at e
    exact ⟨s.testTouched, e, rfl, rfl, State.testTouched_keeps rfl Keeps.refl⟩
  case ring =>
    intro a h
    exact ⟨_, rfl, by rw [State.testWrite_regs u a, writeTestRing_ringDelay_above h]⟩
  case zc =>
    intro a h
    exact ⟨_, rfl, by rw [State.testWrite_regs u a, writeTestZc_outside h]⟩
  case safety =>
    intro a h
    exact ⟨_, rfl, by rw [State.testWrite_regs u a, writeTestSafety_safDelay_above h]⟩
  case plc =>
    intro a h
    exact ⟨_, rfl, by rw [State.testWrite_regs u a, writeTestPlc_above h]⟩
  case mram =>
    intro a h
    exact ⟨_, rfl, by rw [State.testWrite_regs u a, writeTestMram_above h]⟩
  case stretch =>
    intro n _ a h
    exact ⟨_, rfl, by rw [State.testWrite_regs u a, writeTestStretch_fret_above h]⟩

end Sys2Proof.Machine
end

section
/-!
Every command of the table: it completes, it keeps to its parts, and it leaves a sound machine sound. The steps of the machine follow.
-/

namespace Sys2Proof.Machine

/-! ### Every command completes -/

/-- The outcome is a next state. -/
def Completes (o : Host.Outcome State Fault Refusal) : Prop := ∃ t, o = .next t

theorem Completes.next {t : State} : Completes (.next t) := ⟨t, rfl⟩

theorem Completes.ite {c : Prop} [Decidable c] {x y : Host.Outcome State Fault Refusal} (h : Completes x) (g : Completes y) :
    Completes (if c then x else y) := by
  split <;> assumption

theorem hostCmd_completes {code : Nat} {h : Hdr} {p : Bytes} {serve : Bytes → State → Ans} {s : State} :
    Completes (hostCmd code h p serve s) := by
  unfold hostCmd
  repeat' split
  all_goals exact .next

/-- A host request completes by `hostCmd`, a command without a condition at once, and every other branch by branch. -/
theorem exec_completes (c : Instr) (s : State) : Completes (exec c s) := by
  cases c
  case identity | nodeStatus | eventDetail | factoryReset | parameterRead | parameterWrite | batchCommit | batchAbort | batchCheck
    | parameterDescribe | parameterList | sessionRequest | sessionReject | sessionCancel | sessionStop | sessionRevoke |
    faultAcknowledge | sessionAuthorise | sessionModify | sessionStatus | pointQuantities | pointHarmonics | pointSupraharmonics |
    pointRegisters | pointStatus | channelStatus | courseRestore | capture | outletLimit | outletDcStatus | outletRootStore |
    switchCommand | switchStatus | switchReset | safetyAcknowledge | safetyStatus | journalRead | recordAcknowledge | logRead |
    logAcknowledge | journalStatus | keyStatus | keyInvalidate | keyNextGeneration | keyRegenerate | keyAttest | keyStatementRead
    | keyNodeCertificate | keyTlsCertificateLoad | keyErase | keyPublicRead | fwBegin | fwData | fwVerify | fwHandover | fwConfirm
    | fwStatus | timeStatus | timeAccept | ttoSet | tciSet | tciRead | balanceResults | ringMap | displayPin | displayStatic |
    displayWaveform | displayTemperature | displayUpdate | sarResults | sarTrigger | sarSelftest | testUnlock | testRelock |
    requestPart | responsePartRead =>
    exact hostCmd_completes
  case mailboxRelease | eventClear | heartbeat | frameLoRead | streamPortRead | streamFlush | testClear | testStretchWrite |
    testFifoWrite | testRingWrite | testZcWrite | testSafetyWrite | testPlcWrite | testMramWrite | testWdWrite |
    qspiTransactionError | replyCacheExpiry | modulatorRestart | courseDiagnosisStart | beaconSlot | beaconPeriodStart |
    dieLinkLost | mainsFrameTimeout | refclkLoss =>
    exact .next
  all_goals
    dsimp only [exec, execRegisterWrite, execHethDatagram, execBatchTimeout, execHostWatchdogTimeout, execStreamTailTimeout, execRecordStreamDequeue,
      execFrameTick, execFretCutoff, execHandoverBlockReady, execFrameAccumulate, execIntervalBoundary, execRecordSigned,
      execModeChangeoverComplete, execAutoGainSwitchUp, execAutoGainSwitchDown, execResidualTrip, execResidualSelfTestResult, execCourseVerdict,
      execCourseDiagRepeat, execCourseAgreedRestored, execSensorFaultDeclared, execSensorFaultCleared, execExcitationCompliance, execPulseEdge,
      execMpoPulseEdge, execZeroCrossing, execZcPredictionTimeout, execPtpSyncReceived, execPtpAnnounceReceived, execPtpDelayMessageReceived,
      execPtpManagementReceived, execPtpAnnounceTimeout, execPtpSyncTimeout, execPtpRestart, execFrameCounterLoad, execTimeStepApply,
      execBeaconReceived, execBeaconTimeout, execTtoEdge, execTciEdge, execPilotPeriod, execSarTimerTick,
      execSarTriggerFire, execSarConversionComplete, execPilotCodeAccepted, execProximityCodeAccepted, execMonitorScan, execSarSelftestRun,
      execSarSelftestComplete, execV2gMessageReceived, execCmSlacParmReq, execSlacRunJudged, execPlcLinkUp, execPlcLinkTimeout,
      execPlcLossTimeout, execV2gSessionTimeout, execDcStatusTimeout, execPreambleDetected, execPlcTurn, execWeldedContactDeclared,
      execWeldCleared, execAuthTimeout, execStartTimeout, execStopGraceExpiry, execStopSettleExpiry, execSiLevelChange,
      execSafetyDiscrepancyLatch, execSafetyAutoRelease, execSafetyMessageSend, execSafetyMessageReceived, execSafetyTimeExpectationExpiry, execSealChange,
      execOverloadTimeout, execThermalLatch, execThermalRelease, execRetryDelayExpiry, execRetryCounterReload, execOpenLoadDeclared,
      execOpenLoadCleared, execVswUndervoltage, execVswRestore, execVswBelowRide, execSwitchDieReset, execSwitchDiePowerUp,
      execSupplyPhaseTimeout, execWatchdogArm, execWatchdogFeed, execWatchdogWindowExpiry, execYudaixFrameReceived, execLineLinkDown,
      execLineLinkUp, execRingTestSend, execRingTestMissing, execLinkDownNotice, execRingFlush, execDiscoveryStart,
      execDiscoveryTokenReceived, execDiscoveryComplete, execBalanceFrameLaunch, execBalanceRetry, execBalanceFramePass, execBalanceFrameReturn,
      execBalanceReturnLate, execRootLost, execPowerGood, execCapoBootVerified, execParameterStoreLoaded, execRootRegenerated,
      execHoldupMerge, execServiceImageBooted, execPfwWarning, execVswMonitorTrip, execWarningEnd, execBrownOut,
      execBrownOutReset, execRailRestartTrip, execThermalShutdown, execResetnAssert, execResetnRelease, execCapoDivergence,
      execCapoException, execCapoRestart, execDisplayStart, execDisplayRailTimeout, execDisplayPageChange, execDisplayRefresh,
      execDisplayPhaseEnd, execDisplayBookMark, execDisplayPinExpiry, execDisplayTempExpiry, execDisplayOvercurrent, execAttestationComplete,
      execFwStageVerified, execStandbyReady, execHandoverBootTimeout, execFwConfirmTimeout, execServiceLivenessFail, execTestTimeout,
      execTestSafetyDelayRelease, execPtpMessageTransmit, execDisplayStartRetry, execThermalShutdownEnd, execSwitchCurrentLimit]
    repeat' (first | with_reducible exact Completes.next | with_reducible apply Completes.ite | split)

theorem step_completes (s : State) : Completes (step s) := by
  unfold step
  split
  · exact .next
  · exact exec_completes _ _

/-- Settles O52, by cases on the command: no branch of any command ends but in a next state. -/
theorem everyCommandCompletes : Obligations.EveryCommandCompletes :=
  fun c s => ⟨exec_completes c s, step_completes s⟩

/-! ### Every command keeps to its parts -/

/-- The frame law of each command, in the order of `Instr`. -/
theorem exec_keeps (c : Instr) (s : State) : KeepsO (touches c) s (exec c s) := by
  cases c
  case heartbeat v => exact execHeartbeat_keeps (x0 := v)
  exacts [
    execIdentity_keeps, execNodeStatus_keeps, execEventDetail_keeps, execFactoryReset_keeps, execParameterRead_keeps,
    execParameterWrite_keeps, execBatchCommit_keeps, execBatchAbort_keeps, execBatchCheck_keeps, execParameterDescribe_keeps,
    execParameterList_keeps, execSessionRequest_keeps, execSessionReject_keeps, execSessionCancel_keeps, execSessionStop_keeps,
    execSessionRevoke_keeps, execFaultAcknowledge_keeps, execSessionAuthorise_keeps, execSessionModify_keeps,
    execSessionStatus_keeps, execPointQuantities_keeps, execPointHarmonics_keeps, execPointSupraharmonics_keeps,
    execPointRegisters_keeps, execPointStatus_keeps, execChannelStatus_keeps, execCourseRestore_keeps, execCapture_keeps,
    execOutletLimit_keeps, execOutletDcStatus_keeps, execOutletRootStore_keeps, execSwitchCommand_keeps, execSwitchStatus_keeps,
    execSwitchReset_keeps, execSafetyAcknowledge_keeps, execSafetyStatus_keeps, execJournalRead_keeps,
    execRecordAcknowledge_keeps, execLogRead_keeps, execLogAcknowledge_keeps, execJournalStatus_keeps, execKeyStatus_keeps,
    execKeyInvalidate_keeps, execKeyNextGeneration_keeps, execKeyRegenerate_keeps, execKeyAttest_keeps,
    execKeyStatementRead_keeps, execKeyNodeCertificate_keeps, execKeyTlsCertificateLoad_keeps, execKeyErase_keeps,
    execKeyPublicRead_keeps, execFwBegin_keeps, execFwData_keeps, execFwVerify_keeps, execFwHandover_keeps, execFwConfirm_keeps,
    execFwStatus_keeps, execTimeStatus_keeps, execTimeAccept_keeps, execTtoSet_keeps, execTciSet_keeps, execTciRead_keeps,
    execBalanceResults_keeps, execRingMap_keeps, execDisplayPin_keeps, execDisplayStatic_keeps, execDisplayWaveform_keeps,
    execDisplayTemperature_keeps, execDisplayUpdate_keeps, execSarResults_keeps, execSarTrigger_keeps, execSarSelftest_keeps,
    execTestUnlock_keeps, execTestRelock_keeps, execRequestPart_keeps, execResponsePartRead_keeps, execMailboxRelease_keeps,
    execEventClear_keeps, execFrameLoRead_keeps, execStreamPortRead_keeps, execStreamFlush_keeps, execTestClear_keeps,
    execTestStretchWrite_keeps, execTestFifoWrite_keeps, execTestRingWrite_keeps, execTestZcWrite_keeps,
    execTestSafetyWrite_keeps, execTestPlcWrite_keeps, execTestMramWrite_keeps, execTestWdWrite_keeps, execRegisterWrite_keeps,
    execQspiTransactionError_keeps, execHethDatagram_keeps, execReplyCacheExpiry_keeps, execBatchTimeout_keeps,
    execHostWatchdogTimeout_keeps, execStreamTailTimeout_keeps, execRecordStreamDequeue_keeps, execFrameTick_keeps,
    execFretCutoff_keeps, execHandoverBlockReady_keeps, execFrameAccumulate_keeps, execIntervalBoundary_keeps,
    execRecordSigned_keeps, execModeChangeoverComplete_keeps, execAutoGainSwitchUp_keeps, execAutoGainSwitchDown_keeps,
    execModulatorRestart_keeps, execResidualTrip_keeps, execResidualSelfTestResult_keeps, execCourseDiagnosisStart_keeps,
    execCourseVerdict_keeps, execCourseDiagRepeat_keeps, execCourseAgreedRestored_keeps, execSensorFaultDeclared_keeps,
    execSensorFaultCleared_keeps, execExcitationCompliance_keeps, execPulseEdge_keeps, execMpoPulseEdge_keeps,
    execZeroCrossing_keeps, execZcPredictionTimeout_keeps, execPtpSyncReceived_keeps, execPtpAnnounceReceived_keeps,
    execPtpDelayMessageReceived_keeps, execPtpManagementReceived_keeps, execPtpAnnounceTimeout_keeps, execPtpSyncTimeout_keeps,
    execPtpRestart_keeps, execFrameCounterLoad_keeps, execTimeStepApply_keeps, execBeaconReceived_keeps, execBeaconSlot_keeps,
    execBeaconPeriodStart_keeps, execBeaconTimeout_keeps, execTtoEdge_keeps, execTciEdge_keeps, execPilotPeriod_keeps,
    execSarTimerTick_keeps, execSarTriggerFire_keeps, execSarConversionComplete_keeps, execPilotCodeAccepted_keeps,
    execProximityCodeAccepted_keeps, execMonitorScan_keeps, execSarSelftestRun_keeps, execSarSelftestComplete_keeps,
    execV2gMessageReceived_keeps, execCmSlacParmReq_keeps, execSlacRunJudged_keeps, execPlcLinkUp_keeps, execPlcLinkTimeout_keeps,
    execPlcLossTimeout_keeps, execV2gSessionTimeout_keeps, execDcStatusTimeout_keeps, execPreambleDetected_keeps,
    execPlcTurn_keeps, execWeldedContactDeclared_keeps, execWeldCleared_keeps, execAuthTimeout_keeps, execStartTimeout_keeps,
    execStopGraceExpiry_keeps, execStopSettleExpiry_keeps, execSiLevelChange_keeps, execSafetyDiscrepancyLatch_keeps,
    execSafetyAutoRelease_keeps, execSafetyMessageSend_keeps, execSafetyMessageReceived_keeps,
    execSafetyTimeExpectationExpiry_keeps, execSealChange_keeps, execOverloadTimeout_keeps, execThermalLatch_keeps,
    execThermalRelease_keeps, execRetryDelayExpiry_keeps, execRetryCounterReload_keeps, execOpenLoadDeclared_keeps,
    execOpenLoadCleared_keeps, execVswUndervoltage_keeps, execVswRestore_keeps, execVswBelowRide_keeps, execSwitchDieReset_keeps,
    execSwitchDiePowerUp_keeps, execSupplyPhaseTimeout_keeps, execWatchdogArm_keeps, execWatchdogFeed_keeps,
    execWatchdogWindowExpiry_keeps, execDieLinkLost_keeps, execYudaixFrameReceived_keeps, execMainsFrameTimeout_keeps,
    execLineLinkDown_keeps, execLineLinkUp_keeps, execRingTestSend_keeps, execRingTestMissing_keeps, execLinkDownNotice_keeps,
    execRingFlush_keeps, execDiscoveryStart_keeps, execDiscoveryTokenReceived_keeps, execDiscoveryComplete_keeps,
    execBalanceFrameLaunch_keeps, execBalanceRetry_keeps, execBalanceFramePass_keeps, execBalanceFrameReturn_keeps,
    execBalanceReturnLate_keeps, execRootLost_keeps, execPowerGood_keeps, execCapoBootVerified_keeps,
    execParameterStoreLoaded_keeps, execRootRegenerated_keeps, execHoldupMerge_keeps, execServiceImageBooted_keeps,
    execPfwWarning_keeps, execVswMonitorTrip_keeps, execWarningEnd_keeps, execBrownOut_keeps, execBrownOutReset_keeps,
    execRailRestartTrip_keeps, execRefclkLoss_keeps, execThermalShutdown_keeps, execResetnAssert_keeps, execResetnRelease_keeps,
    execCapoDivergence_keeps, execCapoException_keeps, execCapoRestart_keeps, execDisplayStart_keeps,
    execDisplayRailTimeout_keeps, execDisplayPageChange_keeps, execDisplayRefresh_keeps, execDisplayPhaseEnd_keeps,
    execDisplayBookMark_keeps, execDisplayPinExpiry_keeps, execDisplayTempExpiry_keeps, execDisplayOvercurrent_keeps,
    execAttestationComplete_keeps, execFwStageVerified_keeps, execStandbyReady_keeps, execHandoverBootTimeout_keeps,
    execFwConfirmTimeout_keeps, execServiceLivenessFail_keeps, execTestTimeout_keeps, execTestSafetyDelayRelease_keeps,
    execPtpMessageTransmit_keeps, execDisplayStartRetry_keeps, execThermalShutdownEnd_keeps, execSwitchCurrentLimit_keeps]

theorem touches_pending (c : Instr) : (touches c).contains .pending = false := by
  cases c <;> rfl

/-- Settles O51: the parts that a command does not name are unchanged, and no command names the queue. -/
theorem commandsKeepTheirParts : Obligations.CommandsKeepTheirParts :=
  fun c s t e => ⟨exec_keeps c s t e, (exec_keeps c s t e).pending (touches_pending c)⟩

/-! ### Every step keeps the machine sound -/

/-- The invariant's law of each command, in the order of `Instr`. -/
theorem exec_sound {s : State} (c : Instr) (h : Sound s) : SoundO (exec c s) := by
  cases c
  case heartbeat v => exact execHeartbeat_sound (x0 := v) h
  exacts [
    execIdentity_sound h, execNodeStatus_sound h, execEventDetail_sound h, execFactoryReset_sound h, execParameterRead_sound h,
    execParameterWrite_sound h, execBatchCommit_sound h, execBatchAbort_sound h, execBatchCheck_sound h,
    execParameterDescribe_sound h, execParameterList_sound h, execSessionRequest_sound h, execSessionReject_sound h,
    execSessionCancel_sound h, execSessionStop_sound h, execSessionRevoke_sound h, execFaultAcknowledge_sound h,
    execSessionAuthorise_sound h, execSessionModify_sound h, execSessionStatus_sound h, execPointQuantities_sound h,
    execPointHarmonics_sound h, execPointSupraharmonics_sound h, execPointRegisters_sound h, execPointStatus_sound h,
    execChannelStatus_sound h, execCourseRestore_sound h, execCapture_sound h, execOutletLimit_sound h, execOutletDcStatus_sound
    h, execOutletRootStore_sound h, execSwitchCommand_sound h, execSwitchStatus_sound h, execSwitchReset_sound h,
    execSafetyAcknowledge_sound h, execSafetyStatus_sound h, execJournalRead_sound h, execRecordAcknowledge_sound h,
    execLogRead_sound h, execLogAcknowledge_sound h, execJournalStatus_sound h, execKeyStatus_sound h, execKeyInvalidate_sound h,
    execKeyNextGeneration_sound h, execKeyRegenerate_sound h, execKeyAttest_sound h, execKeyStatementRead_sound h,
    execKeyNodeCertificate_sound h, execKeyTlsCertificateLoad_sound h, execKeyErase_sound h, execKeyPublicRead_sound h,
    execFwBegin_sound h, execFwData_sound h, execFwVerify_sound h, execFwHandover_sound h, execFwConfirm_sound h,
    execFwStatus_sound h, execTimeStatus_sound h, execTimeAccept_sound h, execTtoSet_sound h, execTciSet_sound h,
    execTciRead_sound h, execBalanceResults_sound h, execRingMap_sound h, execDisplayPin_sound h, execDisplayStatic_sound h,
    execDisplayWaveform_sound h, execDisplayTemperature_sound h, execDisplayUpdate_sound h, execSarResults_sound h,
    execSarTrigger_sound h, execSarSelftest_sound h, execTestUnlock_sound h, execTestRelock_sound h, execRequestPart_sound h,
    execResponsePartRead_sound h, execMailboxRelease_sound h, execEventClear_sound h, execFrameLoRead_sound h,
    execStreamPortRead_sound h, execStreamFlush_sound h, execTestClear_sound h, execTestStretchWrite_sound h,
    execTestFifoWrite_sound h, execTestRingWrite_sound h, execTestZcWrite_sound h, execTestSafetyWrite_sound h,
    execTestPlcWrite_sound h, execTestMramWrite_sound h, execTestWdWrite_sound h, execRegisterWrite_sound h,
    execQspiTransactionError_sound h, execHethDatagram_sound h, execReplyCacheExpiry_sound h, execBatchTimeout_sound h,
    execHostWatchdogTimeout_sound h, execStreamTailTimeout_sound h, execRecordStreamDequeue_sound h, execFrameTick_sound h,
    execFretCutoff_sound h, execHandoverBlockReady_sound h, execFrameAccumulate_sound h, execIntervalBoundary_sound h,
    execRecordSigned_sound h, execModeChangeoverComplete_sound h, execAutoGainSwitchUp_sound h, execAutoGainSwitchDown_sound h,
    execModulatorRestart_sound h, execResidualTrip_sound h, execResidualSelfTestResult_sound h, execCourseDiagnosisStart_sound h,
    execCourseVerdict_sound h, execCourseDiagRepeat_sound h, execCourseAgreedRestored_sound h, execSensorFaultDeclared_sound h,
    execSensorFaultCleared_sound h, execExcitationCompliance_sound h, execPulseEdge_sound h, execMpoPulseEdge_sound h,
    execZeroCrossing_sound h, execZcPredictionTimeout_sound h, execPtpSyncReceived_sound h, execPtpAnnounceReceived_sound h,
    execPtpDelayMessageReceived_sound h, execPtpManagementReceived_sound h, execPtpAnnounceTimeout_sound h,
    execPtpSyncTimeout_sound h, execPtpRestart_sound h, execFrameCounterLoad_sound h, execTimeStepApply_sound h,
    execBeaconReceived_sound h, execBeaconSlot_sound h, execBeaconPeriodStart_sound h, execBeaconTimeout_sound h,
    execTtoEdge_sound h, execTciEdge_sound h, execPilotPeriod_sound h, execSarTimerTick_sound h, execSarTriggerFire_sound h,
    execSarConversionComplete_sound h, execPilotCodeAccepted_sound h, execProximityCodeAccepted_sound h, execMonitorScan_sound h,
    execSarSelftestRun_sound h, execSarSelftestComplete_sound h, execV2gMessageReceived_sound h, execCmSlacParmReq_sound h,
    execSlacRunJudged_sound h, execPlcLinkUp_sound h, execPlcLinkTimeout_sound h, execPlcLossTimeout_sound h,
    execV2gSessionTimeout_sound h, execDcStatusTimeout_sound h, execPreambleDetected_sound h, execPlcTurn_sound h,
    execWeldedContactDeclared_sound h, execWeldCleared_sound h, execAuthTimeout_sound h, execStartTimeout_sound h,
    execStopGraceExpiry_sound h, execStopSettleExpiry_sound h, execSiLevelChange_sound h, execSafetyDiscrepancyLatch_sound h,
    execSafetyAutoRelease_sound h, execSafetyMessageSend_sound h, execSafetyMessageReceived_sound h,
    execSafetyTimeExpectationExpiry_sound h, execSealChange_sound h, execOverloadTimeout_sound h, execThermalLatch_sound h,
    execThermalRelease_sound h, execRetryDelayExpiry_sound h, execRetryCounterReload_sound h, execOpenLoadDeclared_sound h,
    execOpenLoadCleared_sound h, execVswUndervoltage_sound h, execVswRestore_sound h, execVswBelowRide_sound h,
    execSwitchDieReset_sound h, execSwitchDiePowerUp_sound h, execSupplyPhaseTimeout_sound h, execWatchdogArm_sound h,
    execWatchdogFeed_sound h, execWatchdogWindowExpiry_sound h, execDieLinkLost_sound h, execYudaixFrameReceived_sound h,
    execMainsFrameTimeout_sound h, execLineLinkDown_sound h, execLineLinkUp_sound h, execRingTestSend_sound h,
    execRingTestMissing_sound h, execLinkDownNotice_sound h, execRingFlush_sound h, execDiscoveryStart_sound h,
    execDiscoveryTokenReceived_sound h, execDiscoveryComplete_sound h, execBalanceFrameLaunch_sound h, execBalanceRetry_sound h,
    execBalanceFramePass_sound h, execBalanceFrameReturn_sound h, execBalanceReturnLate_sound h, execRootLost_sound h,
    execPowerGood_sound h, execCapoBootVerified_sound h, execParameterStoreLoaded_sound h, execRootRegenerated_sound h,
    execHoldupMerge_sound h, execServiceImageBooted_sound h, execPfwWarning_sound h, execVswMonitorTrip_sound h,
    execWarningEnd_sound h, execBrownOut_sound h, execBrownOutReset_sound h, execRailRestartTrip_sound h, execRefclkLoss_sound h,
    execThermalShutdown_sound h, execResetnAssert_sound h, execResetnRelease_sound h, execCapoDivergence_sound h,
    execCapoException_sound h, execCapoRestart_sound h, execDisplayStart_sound h, execDisplayRailTimeout_sound h,
    execDisplayPageChange_sound h, execDisplayRefresh_sound h, execDisplayPhaseEnd_sound h, execDisplayBookMark_sound h,
    execDisplayPinExpiry_sound h, execDisplayTempExpiry_sound h, execDisplayOvercurrent_sound h, execAttestationComplete_sound h,
    execFwStageVerified_sound h, execStandbyReady_sound h, execHandoverBootTimeout_sound h, execFwConfirmTimeout_sound h,
    execServiceLivenessFail_sound h, execTestTimeout_sound h, execTestSafetyDelayRelease_sound h, execPtpMessageTransmit_sound h,
    execDisplayStartRetry_sound h, execThermalShutdownEnd_sound h, execSwitchCurrentLimit_sound h]

theorem step_sound {s : State} (h : Sound s) : SoundO (step s) := by
  unfold step
  split
  · exact .next h
  · exact exec_sound _ h.ofPending

/-- Settles O56: an empty queue leaves the machine as it is, and the command in front keeps it sound. -/
theorem everyStepKeepsTheMachineSound : Obligations.EveryStepKeepsTheMachineSound :=
  fun _ t h e => step_sound h t e

theorem fifoOk_reset (a : Nat) : FifoOk a Fifo.reset := ⟨Nat.two_pow_pos _, rfl⟩

theorem getD_replicate {α : Type} (n i : Nat) (d : α) : (List.replicate n d).getD i d = d := by
  rw [List.getD_eq_getElem?_getD, List.getElem?_getD_replicate_default_eq]

theorem hostOk_reset : HostOk HostPort.reset.mbx HostPort.reset.streams HostPort.reset.events where
  boxes := rfl
  box m := by
    have e : HostPort.reset.mbx.getD m Mailbox.reset = Mailbox.reset := getD_replicate 8 m _
    rw [e]
    exact fun _ => rfl
  fifos := rfl
  fifo k _ := by
    have e : HostPort.reset.streams.getD k Fifo.reset = Fifo.reset := getD_replicate 4 k _
    rw [e]
    exact fifoOk_reset _
  queues := rfl
  queue n := by
    have e : HostPort.reset.events.getD n EventQueue.reset = EventQueue.reset := getD_replicate 64 n _
    rw [e]
    exact Nat.zero_le _

/-- Settles O55: every numbered part of the reset state is a list of its reset values, in full. -/
theorem soundAtReset : Obligations.SoundAtReset where
  host := hostOk_reset
  test := fun _ => ⟨rfl, rfl⟩
  outputs := rfl
  captures := rfl
  pointKeys := rfl
  tlsKeys := rfl
  slices := rfl
  courses := rfl
  pts := rfl
  switches := rfl
  inputs := rfl
  entries := rfl
  converters := rfl
  ports := rfl
  reports := Nat.zero_le _

/-! ### The queue -/

/-- Settles O49: `step` takes the front of the queue. -/
theorem stepRunsTheFrontCommand : Obligations.StepRunsTheFrontCommand := by
  intro c rest s h
  rw [step, h]

/-- Settles O50: `step` on an empty queue answers the state itself. -/
theorem anEmptyQueueIdles : Obligations.AnEmptyQueueIdles := by
  intro s h
  rw [step, h]

/-! ### The locked test window -/

theorem State.testWrite_locked {s : State} {k : Nat} {f : TestRegs → TestRegs} (u : s.test.unlocked = false) :
    s.testWrite k f = s := if_pos u

theorem State.testClear_locked {s : State} {v : BitVec 32} (u : s.test.unlocked = false) : s.testClear v = s := if_neg (by simp [u])

theorem State.testRead_locked {s : State} {off : Nat} (u : s.test.unlocked = false) : s.testRead off = 0 := if_pos u

/-- The addresses of the test window are those of `testRead`. -/
theorem State.regWord_test {s : State} {a : Nat} (lo : 0x0300 ≤ a) (hi : a < 0x0400) : s.regWord a = s.testRead (a - 0x0300) := by
  unfold State.regWord
  iterate 13 rw [if_neg (by omega)]
  rw [if_neg (by omega), if_neg (by omega), if_neg (by omega), if_pos ⟨lo, hi⟩]

/-- Settles O54: a write to a locked window is dropped, and each of its addresses reads 0. -/
theorem lockedTestWindowIgnoresWrites : Obligations.LockedTestWindowIgnoresWrites := by
  intro s v n u
  refine ⟨fun i hi => ?_, fun a lo hi => (State.regWord_test lo hi).trans (State.testRead_locked u)⟩
  rcases List.mem_cons.mp hi with rfl | hi
  · exact congrArg Host.Outcome.next (State.testClear_locked u)
  · simp only [List.mem_cons, List.not_mem_nil, or_false] at hi
    rcases hi with rfl | rfl | rfl | rfl | rfl | rfl | rfl | rfl
    all_goals exact congrArg Host.Outcome.next (State.testWrite_locked u)

end Sys2Proof.Machine
end

section
/-!
The legal registers of the points (10 R248, R249): what the quantities of a frame do to them.
-/

namespace Sys2Proof.Machine

/-! ### Reading a point after an update of a point -/

/-- What an update leaves of every point. -/
theorem State.modPt_leaves {α : Type} {s : State} {i k : Nat} {f : Point → Point} (g : Point → α) (h : ∀ x, g (f x) = g x) :
    g ((s.modPt i f).pt k) = g (s.pt k) :=
  getD_upd (fun x => g x = g (s.pt k)) rfl fun _ e => (h _).trans e

theorem State.pt_congr {s t : State} {k : Nat} (h : t.pts = s.pts) : t.pt k = s.pt k := by
  rw [State.pt, h, State.pt]

theorem getD_set {α : Type} {l : List α} {i j : Nat} {a d : α} :
    (l.set i a).getD j d = if i = j ∧ i < l.length then a else l.getD j d := by
  simp only [List.getD_eq_getElem?_getD, List.getElem?_set]
  split <;> split <;> simp_all <;> omega

theorem put_getD_self {α : Type} {l : List α} {i : Nat} {d : α} : put l i (l.getD i d) = l := by
  unfold put
  rcases Nat.lt_or_ge i l.length with h | h
  · rw [List.getD_eq_getElem l d h, List.set_getElem_self]
  · exact List.set_eq_of_length_le h

/-! ### One register -/

/-- `t` has the registers and the tariffs of `s`. -/
structure SameRegs (s t : State) : Prop where
  regs : ∀ k, (t.pt k).regs = (s.pt k).regs
  tariff : ∀ k, (t.pt k).tariff = (s.pt k).tariff

theorem SameRegs.refl {s : State} : SameRegs s s := ⟨fun _ => rfl, fun _ => rfl⟩

theorem SameRegs.trans {s t u : State} (h : SameRegs s t) (g : SameRegs t u) : SameRegs s u :=
  ⟨fun k => (g.regs k).trans (h.regs k), fun k => (g.tariff k).trans (h.tariff k)⟩

theorem SameRegs.modPt {s : State} {i : Nat} {f : Point → Point} (r : ∀ x, (f x).regs = x.regs) (t : ∀ x, (f x).tariff = x.tariff) : SameRegs s (s.modPt i f) :=
  ⟨fun _ => State.modPt_leaves _ r, fun _ => State.modPt_leaves _ t⟩

theorem SameRegs.ite {s x y : State} {c : Prop} [Decidable c] (h : SameRegs s x) (g : SameRegs s y) :
    SameRegs s (if c then x else y) := by
  split <;> assumption

theorem State.rollover_sameRegs {s : State} {p kind i n d : Nat} : SameRegs s (s.rollover p kind i n d) :=
  ⟨fun _ => rfl, fun _ => rfl⟩

theorem State.buildEvent_sameRegs {s : State} {p kind part n : Nat} {b : Bytes} : SameRegs s (s.buildEvent p kind part n b) :=
  .modPt (fun _ => rfl) (fun _ => rfl)

/-- A quantity added to a register stops at the top (R249). -/
def regSum (r q : Nat) : Nat := min (r + q) regTop

/-- A wrap of the displayed register counts and reports. -/
theorem State.wrapped_sameRegs {s : State} {p i n d : Nat} {f : List Nat → List Nat} :
    SameRegs s ((s.modPt p (fun x => { x with wraps := f x.wraps })).rollover p 0 i n d) := by
  refine .trans ?_ State.rollover_sameRegs
  exact .modPt (fun _ => rfl) (fun _ => rfl)

/-- A stop at the top is noted, reported and recorded. -/
theorem State.stopped_sameRegs {s : State} {p i n d m : Nat} {b : Bytes} :
    SameRegs s (((s.modPt p (fun x => { x with stuck := x.stuck ++ [i] })).rollover p 1 i n d).buildEvent p 5 0 m b) := by
  refine .trans ?_ State.buildEvent_sameRegs
  refine .trans ?_ State.rollover_sameRegs
  exact .modPt (fun _ => rfl) (fun _ => rfl)

/-- The spec lemma of `addReg`: of the registers it sets the one, to the stopped sum. -/
theorem State.addReg_sameRegs {s : State} {p n i q : Nat} (h : regSum ((s.pt p).regs.getD i 0) q ≠ (s.pt p).regs.getD i 0) :
    SameRegs (s.modPt p (fun x => { x with regs := put x.regs i (regSum ((s.pt p).regs.getD i 0) q) })) (s.addReg p n i q) := by
  unfold State.addReg
  unfold regSum at h ⊢
  dsimp only
  rw [if_neg h]
  refine .trans ?_ (.ite State.stopped_sameRegs .refl)
  exact .ite State.wrapped_sameRegs .refl

theorem State.addReg_idle {s : State} {p n i q : Nat} (h : regSum ((s.pt p).regs.getD i 0) q = (s.pt p).regs.getD i 0) :
    s.addReg p n i q = s := if_pos h

theorem State.addReg_regs {s : State} {p n i q : Nat} (h : p < s.pts.length) :
    ((s.addReg p n i q).pt p).regs = put (s.pt p).regs i (regSum ((s.pt p).regs.getD i 0) q) := by
  by_cases e : regSum ((s.pt p).regs.getD i 0) q = (s.pt p).regs.getD i 0
  · rw [State.addReg_idle e, e, put_getD_self]
  · rw [(State.addReg_sameRegs e).regs, State.modPt_same h]

theorem State.addReg_regs_other {s : State} {p n i q k : Nat} (h : p ≠ k) : ((s.addReg p n i q).pt k).regs = (s.pt k).regs := by
  by_cases e : regSum ((s.pt p).regs.getD i 0) q = (s.pt p).regs.getD i 0
  · rw [State.addReg_idle e]
  · rw [(State.addReg_sameRegs e).regs, State.modPt_other h]

theorem State.addReg_tariff {s : State} {p n i q k : Nat} : ((s.addReg p n i q).pt k).tariff = (s.pt k).tariff := by
  by_cases e : regSum ((s.pt p).regs.getD i 0) q = (s.pt p).regs.getD i 0
  · rw [State.addReg_idle e]
  · rw [(State.addReg_sameRegs e).tariff]
    exact State.modPt_leaves (·.tariff) fun _ => rfl

/-! ### The quantities of a frame -/

/-- The registers after quantities are added to them one by one. -/
def addAll (r : List Nat) (l : List (Nat × Nat)) : List Nat :=
  l.foldl (fun r x => put r x.1 (regSum (r.getD x.1 0) x.2)) r

theorem State.foldl_addReg_regs {l : List (Nat × Nat)} {s : State} {p n : Nat} (k : Sound s) (h : p < 16) :
    ((l.foldl (fun s x => s.addReg p n x.1 x.2) s).pt p).regs = addAll (s.pt p).regs l := by
  induction l generalizing s with
  | nil => rfl
  | cons x l ih =>
    rw [List.foldl_cons, ih (State.addReg_sound k), State.addReg_regs (k.pts ▸ h)]
    rfl

/-- The spec lemma of `addQuantities` for the registers of its point. -/
theorem State.addQuantities_regs {s : State} {p n : Nat} {q : List Nat} (k : Sound s) (h : p < 16) :
    ((s.addQuantities p n q).pt p).regs = addAll (s.pt p).regs ((s.targets p).zip q) := State.foldl_addReg_regs k h

/-- What a fold of additions to point `p` leaves of a point. -/
theorem State.foldl_addReg_leaves {α : Type} {l : List (Nat × Nat)} {s : State} {p n k : Nat} (g : Point → α)
    (h : ∀ (x : State) i q, g ((x.addReg p n i q).pt k) = g (x.pt k)) :
    g ((l.foldl (fun s x => s.addReg p n x.1 x.2) s).pt k) = g (s.pt k) := by
  induction l generalizing s with
  | nil => rfl
  | cons x l ih => rw [List.foldl_cons, ih, h]

theorem State.addQuantities_regs_other {s : State} {p n k : Nat} {q : List Nat} (h : p ≠ k) :
    ((s.addQuantities p n q).pt k).regs = (s.pt k).regs :=
  State.foldl_addReg_leaves (·.regs) fun _ _ _ => State.addReg_regs_other h

theorem State.addQuantities_tariff {s : State} {p n k : Nat} {q : List Nat} :
    ((s.addQuantities p n q).pt k).tariff = (s.pt k).tariff :=
  State.foldl_addReg_leaves (·.tariff) fun _ _ _ => State.addReg_tariff

theorem addAll_length {r : List Nat} {l : List (Nat × Nat)} : (addAll r l).length = r.length := by
  induction l generalizing r with
  | nil => rfl
  | cons x l ih => exact ih.trans List.length_set

theorem regSum_bounds {r q : Nat} (h : r ≤ regTop) : r ≤ regSum r q ∧ regSum r q ≤ regTop := by
  unfold regSum
  omega

/-- Registers at most at the top only rise, and stop there. -/
theorem addAll_bounds {l : List (Nat × Nat)} {r : List Nat} (h : ∀ i, r.getD i 0 ≤ regTop) (i : Nat) :
    r.getD i 0 ≤ (addAll r l).getD i 0 ∧ (addAll r l).getD i 0 ≤ regTop := by
  induction l generalizing r with
  | nil => exact ⟨le_rfl, h i⟩
  | cons x l ih =>
    have step : ∀ j, r.getD j 0 ≤ (put r x.1 (regSum (r.getD x.1 0) x.2)).getD j 0 ∧
        (put r x.1 (regSum (r.getD x.1 0) x.2)).getD j 0 ≤ regTop := by
      intro j
      rw [put, getD_set]
      split
      · next e => exact e.1 ▸ regSum_bounds (h x.1)
      · exact ⟨le_rfl, h j⟩
    have rest := ih fun j => (step j).2
    exact ⟨(step i).1.trans rest.1, rest.2⟩

/-- Settles O44: each register goes through stopped sums, which only rise; those of another point are not touched. -/
theorem legalRegistersNeverRunBack : Obligations.LegalRegistersNeverRunBack := by
  intro s p n q k hp top t
  have bounds : ∀ i, (s.pt p).regs.getD i 0 ≤ (t.pt p).regs.getD i 0 ∧ (t.pt p).regs.getD i 0 ≤ regTop := by
    intro i
    rw [State.addQuantities_regs k hp]
    exact addAll_bounds top i
  exact ⟨bounds, fun i e => Nat.le_antisymm (bounds i).2 (e ▸ (bounds i).1), fun k h => State.addQuantities_regs_other (Ne.symm h)⟩

end Sys2Proof.Machine
end

section
/-!
The ledger through a power cut (10 R264–R270): the entry saved last is the one a restart finds, and its bank brings the registers back.
-/

namespace Sys2Proof.Machine

/-! ### The newest entry and the latest bank are greatest elements -/

theorem newestEntry_eq_argmax (l : List LedgerEntry) : newestEntry l = l.argmax (·.gen) := by
  unfold newestEntry
  induction l using List.reverseRecOn with
  | nil => rfl
  | append_singleton l e ih =>
    rw [List.argmax_concat, ← ih, List.foldl_append]
    cases l.foldl _ (none : Option LedgerEntry) <;> rfl

theorem latestBank_eq_argmax (l : List Bank) (gen : Nat) : latestBank l gen = (l.filter (fun b => b.gen == gen)).argmax (·.frame) := by
  unfold latestBank
  generalize l.filter (fun b => b.gen == gen) = l
  induction l using List.reverseRecOn with
  | nil => rfl
  | append_singleton l b ih =>
    rw [List.argmax_concat, ← ih, List.foldl_append]
    cases l.foldl _ (none : Option Bank) <;> rfl

/-- An element above all others is the greatest. -/
theorem argmax_eq_some_of_lt {α : Type} {f : α → Nat} {l : List α} {m : α} (h : m ∈ l) (g : ∀ x ∈ l, x = m ∨ f x < f m) :
    l.argmax f = some m := by
  cases e : l.argmax f with
  | none => exact absurd (List.argmax_eq_none.mp e ▸ h) List.not_mem_nil
  | some x =>
    have top : f m ≤ f x := List.le_of_mem_argmax h e
    rcases g x (List.argmax_mem e) with rfl | lt
    · rfl
    · omega

/-- With none named bad, every entry that is there verifies. -/
theorem filter_nothing_bad {α : Type} (l : List (Option α)) :
    (l.zipIdx.filter (fun x => !([] : List Nat).contains x.2)).filterMap (fun x => x.1) = l.filterMap id := by
  have e : l.filterMap id = (l.zipIdx.map Prod.fst).filterMap id := by rw [List.zipIdx_map_fst]
  have all : l.zipIdx.filter (fun x => !([] : List Nat).contains x.2) = l.zipIdx := List.filter_eq_self.mpr fun _ _ => rfl
  rw [e, List.filterMap_map, all]
  rfl

theorem mem_filterMap_put {α : Type} {l : List (Option α)} {i : Nat} {a x : α} (h : x ∈ (put l i (some a)).filterMap id) :
    x = a ∨ x ∈ l.filterMap id := by
  simp only [List.mem_filterMap, id_eq, exists_eq_right] at h ⊢
  rcases List.mem_or_eq_of_mem_set h with m | m
  · exact .inr m
  · exact .inl (Option.some.inj m)

theorem put_mem_filterMap {α : Type} {l : List (Option α)} {i : Nat} {a : α} (h : i < l.length) :
    a ∈ (put l i (some a)).filterMap id := by
  simp only [List.mem_filterMap, id_eq, exists_eq_right]
  exact List.mem_set h _

/-! ### The highest generation -/

theorem foldl_gen_bounds (l : List (Option LedgerEntry)) (b : Nat) :
    let g := l.foldl (fun a e => match e with | some x => max a x.gen | none => a) b
    b ≤ g ∧ (∀ x ∈ l.filterMap id, x.gen ≤ g) ∧ ∀ c, b ≤ c → (∀ x ∈ l.filterMap id, x.gen ≤ c) → g ≤ c := by
  induction l generalizing b with
  | nil => exact ⟨le_rfl, by simp, fun c h _ => h⟩
  | cons o l ih =>
    cases o with
    | none =>
      obtain ⟨h1, h2, h3⟩ := ih b
      exact ⟨h1, by simpa using h2, fun c hb hc => h3 c hb (by simpa using hc)⟩
    | some y =>
      obtain ⟨h1, h2, h3⟩ := ih (max b y.gen)
      refine ⟨(Nat.le_max_left _ _).trans h1, ?_, fun c hb hc => h3 c ?_ fun x hx => hc x ?_⟩
      · simpa using ⟨(Nat.le_max_right _ _).trans h1, fun x hx => h2 x (by simpa using hx)⟩
      · exact Nat.max_le.mpr ⟨hb, hc y (by simp)⟩
      · simp only [List.filterMap_cons, id_eq, List.mem_cons]
        exact .inr hx

theorem State.le_newestGen {s : State} {x : LedgerEntry} (h : x ∈ s.led.slots.filterMap id) : x.gen ≤ s.newestGen :=
  (foldl_gen_bounds s.led.slots 0).2.1 x h

theorem State.newestGen_of_newest {s : State} {e : LedgerEntry} (h : newestEntry (s.led.slots.filterMap id) = some e) :
    s.newestGen = e.gen := by
  rw [newestEntry_eq_argmax] at h
  refine Nat.le_antisymm ?_ (State.le_newestGen (List.argmax_mem h))
  exact (foldl_gen_bounds s.led.slots 0).2.2 _ (Nat.zero_le _) fun x hx => List.le_of_mem_argmax hx h

/-! ### What a restart finds -/

/-- A restart with a newest entry and a bank of its generation above the others'. -/
theorem State.findHoldup_bank {s : State} {e : LedgerEntry} {b : Bank} (he : newestEntry (s.led.slots.filterMap id) = some e)
    (hb : b ∈ s.led.banks.filterMap id) (hg : b.gen = e.gen)
    (top : ∀ x ∈ s.led.banks.filterMap id, x.gen = e.gen → x = b ∨ x.frame < b.frame) :
    (s.findHoldup [] []).entry = some e ∧ (s.findHoldup [] []).bank = some b ∧ (s.findHoldup [] []).outcome = 0 := by
  have bank : latestBank (s.led.banks.filterMap id) e.gen = some b := by
    rw [latestBank_eq_argmax]
    refine argmax_eq_some_of_lt (List.mem_filter.mpr ⟨hb, beq_iff_eq.mpr hg⟩) fun x hx => ?_
    obtain ⟨mx, gx⟩ := List.mem_filter.mp hx
    exact top x mx (beq_iff_eq.mp gx)
  unfold State.findHoldup goodEntries
  simp only [filter_nothing_bad, he, bank, Option.isSome_some, if_true, and_self]

/-- A restart with a newest entry and no bank of its generation. -/
theorem State.findHoldup_noBank {s : State} {e : LedgerEntry} (he : newestEntry (s.led.slots.filterMap id) = some e)
    (none' : ∀ x ∈ s.led.banks.filterMap id, x.gen ≠ e.gen) :
    (s.findHoldup [] []).entry = some e ∧ (s.findHoldup [] []).bank = none := by
  have bank : latestBank (s.led.banks.filterMap id) e.gen = none := by
    rw [latestBank_eq_argmax, List.argmax_eq_none, List.filter_eq_nil_iff]
    exact fun x hx => by simpa using none' x hx
  unfold State.findHoldup goodEntries
  simp only [filter_nothing_bad, he, bank, and_self]

/-! ### A save -/

/-- With generations below 2^64, the slot chosen is one of the ledger's. -/
theorem ledgerSlot_lt {l : List (Option LedgerEntry)} {i n : Nat} {best : Nat × Nat} (hn : i + l.length = n)
    (hg : ∀ x ∈ l.filterMap id, x.gen < 2 ^ 64) (h : best.1 < n ∨ (best.2 = 2 ^ 64 ∧ l ≠ [])) : ledgerSlot l i best < n := by
  induction l generalizing i best with
  | nil => exact h.elim id fun c => absurd rfl c.2
  | cons o l ih =>
    rw [List.length_cons] at hn
    cases o with
    | none => exact (by omega : i < n)
    | some e =>
      have ge : e.gen < 2 ^ 64 := hg e (by simp)
      refine ih (by omega) (fun x hx => hg x (by simp only [List.filterMap_cons, id_eq, List.mem_cons]; exact .inr hx)) (.inl ?_)
      split
      · exact (by omega : i < n)
      · next c => exact h.elim id fun d => absurd (d.1 ▸ ge) c

/-- Settles O46: the entry saved stands in one of the slots with a generation above every other's, and no bank has it yet. -/
theorem savedEntryIsTheOneFound : Obligations.SavedEntryIsTheOneFound := by
  intro s w n slots gens banks
  have new : (s.newEntry w n).gen = s.newestGen + 1 := rfl
  have place : ledgerSlot s.led.slots 0 (0, 2 ^ 64) < s.led.slots.length :=
    slots ▸ ledgerSlot_lt (by omega) gens (.inl (by decide))
  have newest : newestEntry ((s.saveLedger w n).led.slots.filterMap id) = some (s.newEntry w n) := by
    rw [newestEntry_eq_argmax]
    refine argmax_eq_some_of_lt (put_mem_filterMap place) fun x hx => ?_
    refine (mem_filterMap_put hx).imp_right fun m => ?_
    rw [new]
    exact Nat.lt_succ_of_le (State.le_newestGen m)
  obtain ⟨entry, bank⟩ := State.findHoldup_noBank newest fun b hb => by
    have := banks b hb
    omega
  refine ⟨_, entry, rfl, rfl, fun x hx => Nat.lt_succ_of_le (State.le_newestGen hx), ?_, bank⟩
  rw [Found.last, bank, entry]
  rfl

/-! ### Work on each point in turn -/

/-- What work on all points comes to for one of them: an observation of the state that only the work on point `p` changes. -/
theorem forAll_at {β : Type} {f : Nat → State → State} {I : State → Prop} {R : State → β} {g : β → β} {p : Nat} {l : List Nat}
    {s : State} (nd : l.Nodup) (hs : I s) (keep : ∀ k x, I x → I (f k x)) (other : ∀ k x, I x → k ≠ p → R (f k x) = R x)
    (own : ∀ x, I x → R (f p x) = g (R x)) : R (forAll l f s) = if p ∈ l then g (R s) else R s := by
  induction l generalizing s with
  | nil => rfl
  | cons k l ih =>
    obtain ⟨nk, nl⟩ := List.nodup_cons.mp nd
    change R (forAll l f (f k s)) = _
    rw [ih nl (keep k s hs)]
    by_cases e : k = p
    · subst e
      rw [if_neg nk, if_pos List.mem_cons_self, own s hs]
    · rw [other k s hs e]
      simp only [List.mem_cons, Ne.symm e, false_or]

theorem mem_points16 {p : Nat} (h : p < 16) : p ∈ points16 := by
  have e : points16 = List.range 16 := rfl
  rw [e]
  exact List.mem_range.mpr h

theorem forAll_points16 {β : Type} {f : Nat → State → State} {I : State → Prop} {R : State → β} {g : β → β} {p : Nat}
    {s : State} (hp : p < 16) (hs : I s) (keep : ∀ k x, I x → I (f k x)) (other : ∀ k x, I x → k ≠ p → R (f k x) = R x)
    (own : ∀ x, I x → R (f p x) = g (R x)) : R (forAll points16 f s) = g (R s) :=
  (forAll_at (by decide) hs keep other own).trans (if_pos (mem_points16 hp))

/-! ### The entry restored -/

theorem State.restorePoint_regs {s : State} {e : LedgerEntry} {line : Option HighWater} {p : Nat} {y : LedgerPoint}
    (h : p < s.pts.length) (hy : e.pts[p]? = some y) : ((s.restorePoint (some e) line p).pt p).regs = y.regs := by
  unfold State.restorePoint
  dsimp only
  rw [State.modPt_same h, Option.bind_some, hy]

theorem State.restorePoint_other {s : State} {e : Option LedgerEntry} {line : Option HighWater} {p k : Nat} (h : k ≠ p) :
    (s.restorePoint e line k).pt p = s.pt p :=
  State.modPt_other h

theorem State.restore_regs {s : State} {e : LedgerEntry} {p : Nat} {y : LedgerPoint} (k : Sound s) (hp : p < 16)
    (hy : e.pts[p]? = some y) : ((s.restore (some e) none).pt p).regs = y.regs := by
  have points : ((forAll points16 (fun p s => s.restorePoint (some e) none p) s).pt p).regs = y.regs :=
    forAll_points16 (I := Sound) (R := fun x => (x.pt p).regs) (g := fun _ => y.regs) hp k
      (fun _ _ kx => State.restorePoint_sound kx) (fun _ _ _ ne => congrArg Point.regs (State.restorePoint_other ne))
      (fun _ kx => State.restorePoint_regs (kx.pts ▸ hp) hy)
  have recs : ∀ (x : State) f g, ((x.modRecs f).modRecs g).pt p = x.pt p := fun _ _ _ => rfl
  unfold State.restore
  dsimp only
  rw [if_neg (by simp), recs, points]

/-! ### The bank added -/

/-- The registers that the quantities of a point go to, of its tariff and of what is billed in reverse. -/
def targetsOf (t : Nat) (r : Bool) : List Nat :=
  [4 * t, if r then 4 * t + 1 else 32, 4 * t + 2, if r then 4 * t + 3 else 33, 34, 35, 36, 37]

theorem State.targets_eq (s : State) (p : Nat) : s.targets p = targetsOf (s.pt p).tariff (s.reverseBilled p) := rfl

theorem State.reverseBilled_congr {s t : State} {p : Nat} (h : t.par = s.par) : t.reverseBilled p = s.reverseBilled p := by
  simp only [State.reverseBilled, State.ptType, State.pb, State.pn, State.pv, h]

theorem targetsOf_nodup {t : Nat} {r : Bool} (h : t < 8) : (targetsOf t r).Nodup := by
  cases r <;> simp [targetsOf] <;> omega

theorem targetsOf_lt {t : Nat} {r : Bool} (h : t < 8) {i : Nat} (m : i ∈ targetsOf t r) : i < 38 := by
  cases r <;> simp [targetsOf] at m <;> omega

theorem State.mergeBank_regs {s : State} {b : Bank} {p n : Nat} (k : Sound s) (hp : p < 16) :
    ((s.mergeBank b n).pt p).regs =
      addAll (s.pt p).regs ((targetsOf (b.tariffs.getD p 0) (s.reverseBilled p)).zip (b.adv.getD p [])) := by
  refine forAll_points16 (I := fun x => Sound x ∧ x.par = s.par) (R := fun x => (x.pt p).regs) (g := fun r => addAll r _)
    hp ⟨k, rfl⟩ (fun i x h => ⟨?_, ?_⟩) (fun i x _ ne => ?_) fun x h => ?_
  · exact State.addQuantities_sound (State.modPt_sound h.1)
  · exact ((State.addQuantities_keeps rfl (State.modPt_keeps rfl (Keeps.refl (T := [.host, .pts])))).par rfl).trans h.2
  · exact (State.addQuantities_regs_other ne).trans (congrArg Point.regs (State.modPt_other ne))
  · have at' : p < x.pts.length := h.1.pts ▸ hp
    rw [State.addQuantities_regs (State.modPt_sound h.1) hp, State.targets_eq, State.modPt_same at',
      State.reverseBilled_congr (t := State.modPt _ _ _) h.2]

/-- Advances of distinct registers reach each of them once. -/
theorem addAll_map_getD {T r : List Nat} {a : Nat → Nat} (nd : T.Nodup) (lt : ∀ i ∈ T, i < r.length) (i : Nat) :
    (addAll r (T.zip (T.map a))).getD i 0 = if i ∈ T then regSum (r.getD i 0) (a i) else r.getD i 0 := by
  induction T generalizing r with
  | nil => rfl
  | cons j T ih =>
    obtain ⟨nj, nT⟩ := List.nodup_cons.mp nd
    have lj : j < r.length := lt j List.mem_cons_self
    change (addAll (put r j (regSum (r.getD j 0) (a j))) (T.zip (T.map a))).getD i 0 = _
    have lt' : ∀ i ∈ T, i < (put r j (regSum (r.getD j 0) (a j))).length :=
      fun i m => (lt i (List.mem_cons_of_mem j m)).trans_eq List.length_set.symm
    rw [ih nT lt', put, getD_set]
    by_cases e : j = i
    · subst e
      rw [if_neg nj, if_pos ⟨rfl, lj⟩, if_pos List.mem_cons_self]
    · simp only [e, false_and, if_false, List.mem_cons, Ne.symm e, false_or]

/-- The advance of a register since the newest entry, as a bank holds it (R267). -/
def State.advance (s : State) (p i : Nat) : Nat := min ((s.pt p).regs.getD i 0 - (s.pt p).advBase.getD i 0) (2 ^ 64 - 1)

/-- The bank that the tailpiece writes after frame `m`. -/
def State.newBank (s : State) (m : Nat) : Bank :=
  ⟨s.newestGen, m, s.pts.map (fun x => x.tariff), points16.map (fun p => (s.targets p).map (s.advance p))⟩

theorem State.writeBank_banks {s : State} {m : Nat} : (s.writeBank m).led.banks = put s.led.banks s.led.sel (some (s.newBank m)) := rfl

theorem State.newBank_tariff {s : State} {m p : Nat} (k : Sound s) (hp : p < 16) :
    (s.newBank m).tariffs.getD p 0 = (s.pt p).tariff := by
  have lt : p < s.pts.length := k.pts ▸ hp
  simp [State.newBank, State.pt, List.getD_eq_getElem?_getD, List.getElem?_eq_getElem lt]

theorem State.newBank_adv {s : State} {m p : Nat} (hp : p < 16) :
    (s.newBank m).adv.getD p [] = (s.targets p).map (s.advance p) := by
  have e : points16 = List.range 16 := rfl
  simp [State.newBank, e, List.getD_eq_getElem?_getD, List.getElem?_range hp]

/-- Settles O48: the bank just written is the latest of the newest entry's generation; the entry gives back the bases of the
advances, and each register gets its advance once. -/
theorem bankAndEntryRestoreTheRegisters : Obligations.BankAndEntryRestoreTheRegisters := by
  intro s p m e y k hp banks sel newest hy base lenB lenR tariff bounds still earlier t
  have newest' : newestEntry (t.led.slots.filterMap id) = some e := by
    rw [goodEntries, filter_nothing_bad] at newest
    exact newest
  have gen : (s.newBank m).gen = e.gen := State.newestGen_of_newest newest'
  have written : s.newBank m ∈ t.led.banks.filterMap id := put_mem_filterMap (banks ▸ sel)
  obtain ⟨entry, bank, outcome⟩ := State.findHoldup_bank newest' written gen fun x hx gx =>
    (mem_filterMap_put hx).imp_right fun old => earlier x old gx
  refine ⟨_, entry, bank, rfl, outcome, ?_⟩
  have kt : Sound t := State.writeBank_sound k
  have par : (t.restore (some e) none).par = s.par :=
    (State.restore_keeps rfl (State.writeBank_keeps rfl (Keeps.refl (T := [.clk, .pts, .recs, .led, .pwr])))).par rfl
  rw [State.mergeBank_regs (State.restore_sound kt) hp, State.restore_regs kt hp hy, State.newBank_tariff k hp,
    State.newBank_adv hp, State.reverseBilled_congr par, ← State.targets_eq, base]
  have nd : (s.targets p).Nodup := targetsOf_nodup tariff
  have lt : ∀ i ∈ s.targets p, i < (s.pt p).advBase.length := fun i h => lenB ▸ targetsOf_lt tariff h
  have each : ∀ i, (addAll (s.pt p).advBase ((s.targets p).zip ((s.targets p).map (s.advance p)))).getD i 0 =
      (s.pt p).regs.getD i 0 := by
    intro i
    rw [addAll_map_getD nd lt]
    split
    · obtain ⟨lo, hi, near⟩ := bounds i
      simp only [regSum, State.advance]
      omega
    · next h => exact (still i h).symm
  refine List.ext_getElem (addAll_length.trans (lenB.trans lenR.symm)) fun i h₁ h₂ => ?_
  rw [← List.getD_eq_getElem _ 0 h₁, ← List.getD_eq_getElem _ 0 h₂, each]

end Sys2Proof.Machine
end

section
/-!
Orders and places: the slots of a power-line turn (13 R326), the journal (10 R261) and the legal event log (15 R377).
-/

namespace Sys2Proof.Machine

/-! ### The order of a turn -/

/-- On lists of one length `lexLess` is the lexicographic order. -/
theorem lexLess_iff {a b : List Nat} (h : a.length = b.length) : lexLess a b = true ↔ a < b := by
  induction a generalizing b with
  | nil =>
    obtain rfl := List.length_eq_zero_iff.mp h.symm
    simp [lexLess]
  | cons x a ih =>
    cases b with
    | nil => cases h
    | cons y b =>
      rw [lexLess, List.cons_lt_cons_iff, Bool.or_eq_true, Bool.and_eq_true, decide_eq_true_iff, beq_iff_eq, ih (Nat.succ.inj h)]

theorem State.symKey_length {s : State} {y : Sym} : (s.symKey y).length = 4 := rfl

/-- Symbol `x` may be served before symbol `y`. -/
def State.mayPrecede (s : State) (x y : Sym) : Prop := s.symKey x ≤ s.symKey y

theorem State.mayPrecede_iff {s : State} {x y : Sym} : s.mayPrecede x y ↔ lexLess (s.symKey y) (s.symKey x) = false := by
  rw [State.mayPrecede, ← not_lt, ← lexLess_iff (State.symKey_length.trans State.symKey_length.symm), Bool.not_eq_true]

theorem State.insertSym_perm {s : State} {y : Sym} {l : List Sym} : (s.insertSym y l).Perm (y :: l) := by
  induction l with
  | nil => exact .refl _
  | cons z l ih =>
    rw [State.insertSym]
    split
    · exact .refl _
    · exact (ih.cons z).trans (.swap y z l)

/-- An insertion keeps the order. -/
theorem State.insertSym_sorted {s : State} {y : Sym} {l : List Sym} (h : l.Pairwise s.mayPrecede) :
    (s.insertSym y l).Pairwise s.mayPrecede := by
  induction l with
  | nil => exact List.pairwise_singleton _ _
  | cons z l ih =>
    obtain ⟨hz, hl⟩ := List.pairwise_cons.mp h
    rw [State.insertSym]
    split
    · next first =>
      have yz : s.mayPrecede y z :=
        ((lexLess_iff (State.symKey_length.trans State.symKey_length.symm)).mp first).le
      exact List.pairwise_cons.mpr ⟨List.forall_mem_cons.mpr ⟨yz, fun x hx => yz.trans (hz x hx)⟩, h⟩
    · next later =>
      have zy : s.mayPrecede z y := State.mayPrecede_iff.mpr (Bool.eq_false_iff.mpr later)
      refine List.pairwise_cons.mpr ⟨fun x hx => ?_, ih hl⟩
      rcases List.mem_cons.mp (State.insertSym_perm.mem_iff.mp hx) with rfl | m
      · exact zy
      · exact hz x m

/-- The symbols presented, inserted one after another. -/
theorem State.foldl_insertSym {s : State} (l acc : List Sym) (h : acc.Pairwise s.mayPrecede) :
    (l.foldl (fun a y => s.insertSym y a) acc).Perm (l ++ acc) ∧
      (l.foldl (fun a y => s.insertSym y a) acc).Pairwise s.mayPrecede := by
  induction l generalizing acc with
  | nil => exact ⟨.refl _, h⟩
  | cons y l ih =>
    obtain ⟨perm, sorted⟩ := ih (s.insertSym y acc) (State.insertSym_sorted h)
    exact ⟨perm.trans ((State.insertSym_perm.append_left l).trans List.perm_middle), sorted⟩

/-- Settles O43: what the insertions build is a rearrangement in the order of the keys, which any cut divides. -/
theorem slotsFollowTheAllocationOrder : Obligations.SlotsFollowTheAllocationOrder := by
  intro s l n order
  obtain ⟨perm, sorted⟩ := State.foldl_insertSym (s := s) l [] .nil
  rw [List.append_nil] at perm
  refine ⟨perm, fun x hx y hy => State.mayPrecede_iff.mp ?_⟩
  have parts : (order.take n ++ order.drop n).Pairwise s.mayPrecede := (List.take_append_drop n order).symm ▸ sorted
  exact (List.pairwise_append.mp parts).2.2 x hx y hy

/-! ### The journal -/

theorem State.slotAcked_built {s : State} {f : Nat → Nat} {j : JSlot} :
    (s.modRecs (fun r => { r with built := f r.built })).slotAcked j = s.slotAcked j := rfl

/-- The earliest slot of a list is one of them. -/
theorem earliest_mem {l : List JSlot} {o : JSlot} (h : earliest l = some o) : o ∈ l := by
  have fold : ∀ (l : List JSlot) (a : Option JSlot), l.foldl (fun a j => match a with
      | some x => if j.order < x.order then some j else some x
      | none => some j) a = some o → o ∈ l ∨ a = some o := by
    intro l
    induction l with
    | nil => exact fun _ e => .inr e
    | cons j l ih =>
      intro a e
      rcases ih _ e with m | m
      · exact .inl (List.mem_cons_of_mem j m)
      · cases a with
        | none => exact .inl (Option.some.inj m ▸ List.mem_cons_self)
        | some x =>
          dsimp only at m
          split at m
          · exact .inl (Option.some.inj m ▸ List.mem_cons_self)
          · exact .inr m
  exact (fold l none h).resolve_right (by simp)

theorem earliest_eq_none {l : List JSlot} (h : earliest l = none) : l = [] := by
  have fold : ∀ (l : List JSlot) (a : Option JSlot), l.foldl (fun a j => match a with
      | some x => if j.order < x.order then some j else some x
      | none => some j) a = none → l = [] ∧ a = none := by
    intro l
    induction l with
    | nil => exact fun _ e => ⟨rfl, e⟩
    | cons j l ih =>
      intro a e
      have := (ih _ e).2
      cases a with
      | none => cases this
      | some x =>
        dsimp only at this
        split at this <;> cases this
  exact (fold l none h).1

/-- The slot that a record takes. -/
def State.newSlot (s : State) (d : DueRec) (b : Bytes) (slot : Nat) : JSlot := ⟨slot, d.series, d.seq, b, s.recs.built + 1, false⟩

theorem State.journalRec_free {s : State} {d : DueRec} {b : Bytes} (h : s.recs.journal.length < 40960) :
    (s.journalRec d b).recs.journal = s.recs.journal ++ [s.newSlot d b s.recs.journal.length] := by
  have e : s.journalRec d b = _ := if_pos (c := s.recs.journal.length < 40960) h
  rw [e]
  rfl

/-- With every slot taken, the record goes over the earliest acknowledged one, or is withheld. -/
theorem State.journalRec_full {s : State} {d : DueRec} {b : Bytes} (h : ¬ s.recs.journal.length < 40960) :
    (s.journalRec d b).recs.journal = match earliest (s.recs.journal.filter s.slotAcked) with
      | some o => s.recs.journal.map (fun j => if j.slot = o.slot then s.newSlot d b o.slot else j)
      | none => s.recs.journal := by
  have e : s.journalRec d b = _ := if_neg (c := s.recs.journal.length < 40960) h
  rw [e]
  change (State.recs (match earliest (s.recs.journal.filter s.slotAcked) with | some o => _ | none => _)).journal = _
  cases earliest (s.recs.journal.filter s.slotAcked) <;> rfl

theorem State.acked_of_earliest {s : State} {o : JSlot} (h : earliest (s.recs.journal.filter s.slotAcked) = some o) :
    o ∈ s.recs.journal ∧ s.slotAcked o = true := List.mem_filter.mp (earliest_mem h)

theorem State.journalRec_keeps_unacked {s : State} {d : DueRec} {b : Bytes} (nd : (s.recs.journal.map (fun j => j.slot)).Nodup)
    {j : JSlot} (m : j ∈ s.recs.journal) (u : s.slotAcked j = false) : j ∈ (s.journalRec d b).recs.journal := by
  by_cases h : s.recs.journal.length < 40960
  · rw [State.journalRec_free h]
    exact List.mem_append_left _ m
  · rw [State.journalRec_full h]
    split
    · next o e =>
      obtain ⟨mo, ao⟩ := State.acked_of_earliest e
      have ne : j.slot ≠ o.slot := fun c => by
        rw [List.inj_on_of_nodup_map nd m mo c, ao] at u
        cases u
      exact List.mem_map.mpr ⟨j, m, if_neg ne⟩
    · exact m

theorem State.journalRec_length {s : State} {d : DueRec} {b : Bytes} (l : s.recs.journal.length ≤ 40960) :
    (s.journalRec d b).recs.journal.length ≤ 40960 := by
  by_cases h : s.recs.journal.length < 40960
  · rw [State.journalRec_free h, List.length_append]
    exact h
  · rw [State.journalRec_full h]
    split
    · rwa [List.length_map]
    · exact l

theorem State.journalRec_takes {s : State} {d : DueRec} {b : Bytes}
    (room : s.recs.journal.length < 40960 ∨ ∃ j ∈ s.recs.journal, s.slotAcked j = true) :
    ∃ k, s.newSlot d b k ∈ (s.journalRec d b).recs.journal := by
  by_cases h : s.recs.journal.length < 40960
  · rw [State.journalRec_free h]
    exact ⟨_, List.mem_append_right _ List.mem_cons_self⟩
  · obtain ⟨j, m, a⟩ := room.resolve_left h
    rw [State.journalRec_full h]
    split
    · next o e => exact ⟨o.slot, List.mem_map.mpr ⟨o, (State.acked_of_earliest e).1, if_pos rfl⟩⟩
    · next e => exact absurd (List.mem_filter.mpr ⟨m, a⟩) (earliest_eq_none e ▸ List.not_mem_nil)

/-! ### The legal event log -/

theorem LegalLog.store_free {l : LegalLog} {b : Bytes} (h : l.held.length < 4096) :
    l.store b = { l with held := l.held ++ [⟨l.next, b, false⟩], next := l.next + 1 } := if_pos h

/-- Storing into a full log takes the place of its first entry, if that is acknowledged, and else of none. -/
theorem LegalLog.store_full {l : LegalLog} {b : Bytes} (h : ¬ l.held.length < 4096) :
    (∃ o rest a, l.held = o :: rest ∧ l.acked = some a ∧ o.index ≤ a ∧
      l.store b = { l with held := rest ++ [⟨l.next, b, false⟩], next := l.next + 1 }) ∨
    ((l.store b).held = l.held ∧ (l.store b).next = l.next + 1) := by
  obtain ⟨held, next, acked, near, full, lost, notStreamed, refused, sealFrom⟩ := l
  unfold LegalLog.store
  rw [if_neg h]
  cases held with
  | nil => exact .inr ⟨rfl, rfl⟩
  | cons o rest =>
    cases acked with
    | none => exact .inr ⟨rfl, rfl⟩
    | some a =>
      dsimp only
      split
      · next le => exact .inl ⟨o, rest, a, rfl, rfl, of_decide_eq_true le, rfl⟩
      · exact .inr ⟨rfl, rfl⟩

theorem LegalLog.store_keeps {l : LegalLog} {b : Bytes} {e : LogSlot} (m : e ∈ l.held) (u : ∀ a, l.acked = some a → a < e.index) :
    e ∈ (l.store b).held := by
  by_cases h : l.held.length < 4096
  · rw [LegalLog.store_free h]
    exact List.mem_append_left _ m
  · rcases LegalLog.store_full (b := b) h with ⟨o, rest, a, held, acked, le, eq⟩ | ⟨held, -⟩
    · rw [eq]
      rcases List.mem_cons.mp (held ▸ m) with rfl | mr
      · exact absurd (u a acked) (Nat.not_lt.mpr le)
      · exact List.mem_append_left _ mr
    · exact held ▸ m

theorem LegalLog.store_length {l : LegalLog} {b : Bytes} (le : l.held.length ≤ 4096) :
    (l.store b).held.length ≤ 4096 ∧ (l.store b).next = l.next + 1 := by
  by_cases h : l.held.length < 4096
  · rw [LegalLog.store_free h]
    exact ⟨by simpa using h, rfl⟩
  · rcases LegalLog.store_full (b := b) h with ⟨o, rest, a, held, -, -, eq⟩ | ⟨held, next⟩
    · rw [eq]
      exact ⟨by simpa [held] using le, rfl⟩
    · exact ⟨held ▸ le, next⟩

/-- Settles O45: a record or an entry goes into a free place or over an acknowledged one, and nowhere else. -/
theorem journalAndLogKeepWhatIsNotAcknowledged : Obligations.JournalAndLogKeepWhatIsNotAcknowledged := by
  refine ⟨fun s d b len nd => ⟨fun j m u => State.journalRec_keeps_unacked nd m u, State.journalRec_length len, fun room => ?_⟩,
    fun l b len => ⟨fun e m u => LegalLog.store_keeps m u, (LegalLog.store_length len).1, (LegalLog.store_length len).2, fun h => ?_⟩⟩
  · obtain ⟨k, m⟩ := State.journalRec_takes (d := d) (b := b) room
    exact ⟨_, m, rfl, rfl, rfl⟩
  · rw [LegalLog.store_free h]
    exact ⟨_, List.mem_append_right _ List.mem_cons_self, rfl, rfl⟩

end Sys2Proof.Machine
end

section
/-!
The holds on a switch channel (01 R33, Table 1.5): what puts a channel in its safe state, and what takes it out.
-/

namespace Sys2Proof.Machine

/-! ### A channel after an update of channels -/

theorem State.swch_congr {s t : State} {n : Nat} (h : t.sw = s.sw) : t.swch n = s.swch n := by
  rw [State.swch, h, State.swch]

/-- A channel of a die whose channels are all changed alike. -/
theorem State.swch_map {s : State} {n : Nat} {f : SwCh → SwCh} (h : n < s.sw.ch.length) :
    (s.modSw (fun d => { d with ch := d.ch.map f })).swch n = f (s.swch n) := by
  simp [State.swch, List.getD_eq_getElem?_getD, List.getElem?_eq_getElem h]

@[simp] theorem SwCh.setOut_on {c : SwCh} {t : Nat} {b : Bool} : (c.setOut t b).on = b := by
  unfold SwCh.setOut
  split
  · assumption
  · cases b <;> rfl

/-- What putting an output on or off leaves: the holds of the four ranks. -/
theorem SwCh.setOut_holds {c : SwCh} {t : Nat} {b : Bool} :
    (c.setOut t b).resHold = c.resHold ∧ (c.setOut t b).siHold = c.siHold ∧ (c.setOut t b).fsHold = c.fsHold ∧
      (c.setOut t b).hold4 = c.hold4 := by
  unfold SwCh.setOut
  repeat' split
  all_goals exact ⟨rfl, rfl, rfl, rfl⟩

theorem SwCh.setOut_held134 {c : SwCh} {t : Nat} {b : Bool} : (c.setOut t b).held134 = c.held134 := by
  obtain ⟨res, si, fs, four⟩ := SwCh.setOut_holds (c := c) (t := t) (b := b)
  rw [SwCh.held134, res, si, fs, four, SwCh.held134]

/-- A channel forced on a powered die is in its safe state, and its standing command with it. -/
theorem SwCh.force_powered {c : SwCh} {t : Nat} {safe : Bool} :
    (c.force t safe true).on = safe ∧ (c.force t safe true).cmd = safe ∧ (c.force t safe true).held134 = c.held134 := by
  refine ⟨?_, rfl, SwCh.setOut_held134⟩
  change (c.setOut t _).on = safe
  cases safe <;> simp

/-- A channel after a hold is put on it and it is forced safe. -/
theorem State.forced_channel {s : State} {n : Nat} {f : SwCh → SwCh} (k : Sound s) (hn : n < 32) (p : s.sw.powered = true)
    (held : (f (s.swch n)).held134 = true) :
    (((s.modSwch n f).forceSafe n).swch n).on = s.safeOn n ∧ (((s.modSwch n f).forceSafe n).swch n).cmd = s.safeOn n ∧
      (((s.modSwch n f).forceSafe n).swch n).held134 = true := by
  have e : ((s.modSwch n f).forceSafe n).swch n = (f (s.swch n)).force s.clk.up (s.safeOn n) true := by
    unfold State.forceSafe
    rw [State.modSwch_same ((sized_upd k.switches).symm ▸ hn), State.modSwch_same (k.switches.symm ▸ hn)]
    exact congrArg _ p
  obtain ⟨on, cmd, h⟩ := SwCh.force_powered (c := f (s.swch n)) (t := s.clk.up) (safe := s.safeOn n)
  rw [e]
  exact ⟨on, cmd, h.trans held⟩

/-! ### Holds -/

/-- A source on a list of sources, as a hold puts it there. -/
theorem added_not_empty {l : List Nat} {k : Nat} : (if l.contains k then l else l ++ [k]).isEmpty = false := by
  split
  · next h => cases l with
    | nil => simp at h
    | cons => rfl
  · simp

theorem State.holdSi_channel {s : State} {k n : Nat} (q : Sound s) (hn : n < 32) (p : s.sw.powered = true) :
    ((s.holdSi k n).swch n).on = s.safeOn n ∧ ((s.holdSi k n).swch n).cmd = s.safeOn n ∧
      ((s.holdSi k n).swch n).held134 = true :=
  State.forced_channel q hn p (by simp only [SwCh.held134, added_not_empty, Bool.not_false, Bool.or_true, Bool.true_or])

/-- An order reaches a die that answers. -/
theorem State.orderDie_now {s : State} {o : DieOp} (h : s.orderNow = true) : s.orderDie o = s.dieOp o := if_pos h

/-- An order waits while a powered die does not answer. -/
theorem State.orderDie_waits {s : State} {o : DieOp} (h : s.orderNow = false) :
    s.orderDie o = s.modSw (fun d => { d with waitOps := d.waitOps ++ [o] }) := if_neg (by simp [h])

theorem State.orderNow_linked {s : State} (p : s.sw.powered = true) : s.orderNow = s.sw.link := by
  simp [State.orderNow, State.dieAnswers, p]

theorem State.hold4_channel {s : State} {k n : Nat} (q : Sound s) (hn : n < 32) (p : s.sw.powered = true)
    (l : s.sw.link = true) : ((s.hold4 k n).swch n).on = s.safeOn n ∧ ((s.hold4 k n).swch n).cmd = s.safeOn n ∧
      ((s.hold4 k n).swch n).held134 = true := by
  rw [State.hold4, State.orderDie_now ((State.orderNow_linked p).trans l)]
  exact State.forced_channel q hn p (by simp only [SwCh.held134, added_not_empty, Bool.not_false, Bool.or_true])

/-! ### Commands -/

/-- A command leaves a channel that rank 1, 3 or 4 holds as it is. -/
theorem State.command_held {s : State} {n : Nat} {b : Bool} (h : (s.swch n).held134 = true) :
    (s.command n b).swch n = s.swch n := by
  have sent : ∀ x : State, x.sw = s.sw → (if !x.dieAnswers then
      x.modSw (fun d => { d with waiting := (d.waiting.filter (fun w => w.1 != n)) ++ [(n, b)] })
    else x.modSwch n (fun c =>
      if c.held134 then c
      else if c.held2 && b then { c with cmd := b }
      else { (c.setOut x.clk.up b) with cmd := b, reapply := false })).swch n = s.swch n := by
    intro x e
    have ex : x.swch n = s.swch n := State.swch_congr e
    split
    · exact ex
    · exact getD_upd (· = s.swch n) ex fun _ _ => by
        change (if (x.swch n).held134 then x.swch n else _) = s.swch n
        rw [ex, if_pos h]
  unfold State.command
  refine sent _ ?_
  split <;> rfl

theorem serveSwitchCommand_held {p : Bytes} {s : State} (l : p.length = 2) (n : fld p 0 1 < 32) (b : fld p 1 1 = 1)
    (ty : s.ptType (fld p 0 1 / 2) ≠ 0) (free : s.pathLocked (fld p 0 1) = false) (h : (s.swch (fld p 0 1)).held134 = true) :
    serveSwitchCommand p s = refuse s 9 := by
  unfold serveSwitchCommand
  dsimp only
  rw [if_neg (not_not_intro l), if_neg (by omega), if_neg (by omega), if_neg ty, if_neg (by simp [free]), if_pos (by simp [b, h])]

theorem execSwitchCommand_held {s : State} {h : Hdr} {p : Bytes} (k : Sound s) (q : Taken s 0x0315 h p) (l : p.length = 2)
    (n : fld p 0 1 < 32) (b : fld p 1 1 = 1) (ty : s.ptType (fld p 0 1 / 2) ≠ 0) (free : s.pathLocked (fld p 0 1) = false)
    (held : (s.swch (fld p 0 1)).held134 = true) :
    ∃ t, execSwitchCommand h p s = .next t ∧ Answered t 0x0315 h 9 [] ∧ t.sw = s.sw ∧ Keeps [.clk, .host] s t := by
  have g : serveSwitchCommand p (s.accept 0x0315 h p) = refuse _ 9 := serveSwitchCommand_held l n b ty free held
  obtain ⟨t, e, a, c, -⟩ := taken_answered q g (State.accept_sound k).host.boxes
  have c' : Keeps [.clk, .host] s t := c.then rfl (State.accept_keeps.mono rfl)
  exact ⟨t, e, a, c'.sw rfl, c'⟩

/-! ### Releases -/

theorem State.releaseSi_channel {s : State} {k n : Nat} (q : Sound s) (hn : n < 32) :
    (s.releaseSi k).swch n = { s.swch n with siHold := (s.swch n).siHold.filter (· != k) } :=
  State.swch_map (q.switches.symm ▸ hn)

theorem State.release4_channel {s : State} {k n : Nat} (q : Sound s) (hn : n < 32) :
    (s.release4 k).swch n = { s.swch n with hold4 := (s.swch n).hold4.filter (· != k) } ∨ (s.release4 k).swch n = s.swch n := by
  cases h : s.orderNow with
  | true =>
    rw [State.release4, State.orderDie_now h]
    exact .inl (State.swch_map (q.switches.symm ▸ hn))
  | false =>
    rw [State.release4, State.orderDie_waits h]
    exact .inr rfl

theorem mem_filter_ne {l : List Nat} {j k : Nat} (h : j ∈ l) (ne : j ≠ k) : j ∈ l.filter (· != k) :=
  List.mem_filter.mpr ⟨h, bne_iff_ne.mpr ne⟩

/-- Settles O47: a hold forces the channel, a command yields to it, and a release takes its own source and no other. -/
theorem holdsStandUntilTheyAreReleased : Obligations.HoldsStandUntilTheyAreReleased := by
  intro s n q hn
  refine ⟨fun k p => State.holdSi_channel q hn p, fun k p l => State.hold4_channel q hn p l, fun k p l => ?waits,
    fun b => State.command_held, ?refused, fun k => ?released⟩
  case waits =>
    rw [State.hold4, State.orderDie_waits ((State.orderNow_linked p).trans l)]
    exact ⟨rfl, rfl⟩
  case refused =>
    rintro h p tk l rfl b ty free held
    exact execSwitchCommand_held q tk l hn b ty free held
  case released =>
    rw [State.releaseSi_channel q hn]
    rcases State.release4_channel (k := k) q hn with e | e <;> rw [e]
    · exact ⟨rfl, rfl, fun j m ne => mem_filter_ne m ne, rfl, rfl, rfl, fun j m ne => mem_filter_ne m ne, rfl⟩
    · exact ⟨rfl, rfl, fun j m ne => mem_filter_ne m ne, rfl, rfl, rfl, fun j m _ => m, rfl⟩

end Sys2Proof.Machine
end

section
/-!
Requests that a mailbox takes (19 R451, 20 R469): what of the machine they change besides the parts they name.
-/

namespace Sys2Proof.Machine

/-! ### What work for a request leaves of the time base and of the host space -/

/-- Of the time base only the free-value counter moved, and of the host space only events and streams. -/
structure Calm (s x : State) : Prop where
  counter : x.clk = { s.clk with freeCtr := x.clk.freeCtr }
  space : x.host = { s.host with events := x.host.events, pend := x.host.pend, streams := x.host.streams }

theorem Calm.refl {s : State} : Calm s s := ⟨rfl, rfl⟩

theorem Calm.of_eq {s x : State} (c : x.clk = s.clk) (h : x.host = s.host) : Calm s x := by
  constructor
  · rw [c]
  · rw [h]

/-- Work on other parts is calm. -/
theorem Calm.of_keeps {T : List Part} {s x : State} (k : Keeps T s x) (c : T.contains .clk = false)
    (h : T.contains .host = false) : Calm s x := .of_eq (k.clk c) (k.host h)

theorem Calm.trans {s x y : State} (h : Calm s x) (g : Calm x y) : Calm s y := by
  constructor
  · rw [g.counter, h.counter]
  · rw [g.space, h.space]

theorem Calm.ite {s x y : State} {c : Prop} [Decidable c] (h : Calm s x) (g : Calm s y) : Calm s (if c then x else y) := by
  split <;> assumption

theorem Calm.foldl {α : Type} {s x : State} {f : State → α → State} {l : List α} (h : Calm s x) (g : ∀ y a, Calm y (f y a)) :
    Calm s (l.foldl f x) := by
  induction l generalizing x with
  | nil => exact h
  | cons a l ih => exact ih (h.trans (g x a))

theorem Calm.forAll {s x : State} {f : Nat → State → State} {l : List Nat} (h : Calm s x) (g : ∀ i y, Calm y (f i y)) :
    Calm s (forAll l f x) := .foldl h fun y a => g a y

theorem State.bump_calm {s : State} : Calm s s.bump := ⟨rfl, rfl⟩

theorem State.raise_calm {s : State} {ev sub : Nat} {b : Bytes} : Calm s (s.raise ev sub b) := ⟨rfl, rfl⟩

theorem State.raiseMid_calm {s : State} {ev sub : Nat} {b c : Bytes} : Calm s (s.raiseMid ev sub b c) := ⟨rfl, rfl⟩

theorem State.modStream_calm {s : State} {k : Nat} {f : Fifo → Fifo} : Calm s (s.modStream k f) := ⟨rfl, rfl⟩

theorem State.modLog_calm {s : State} {f : LegalLog → LegalLog} : Calm s (s.modLog f) := ⟨rfl, rfl⟩

theorem State.nearFull_calm {s : State} {a b c d : Nat} : Calm s (s.nearFull a b c d) := State.raise_calm

theorem State.unitLost_calm {s : State} {k n : Nat} : Calm s (s.unitLost k n) :=
  .ite .refl (State.modStream_calm.trans State.raise_calm)

theorem State.writeUnit_calm {s : State} {k : Nat} {ws : List Nat} : Calm s (s.writeUnit k ws) :=
  State.modStream_calm.trans (State.modStream_calm.trans (.ite .refl (State.modStream_calm.trans State.raise_calm)))

theorem State.logNear_calm {s : State} : Calm s s.logNear :=
  .ite (State.modLog_calm.trans State.nearFull_calm) .refl

theorem State.logRefused_calm {s : State} : Calm s s.logRefused := by
  unfold State.logRefused
  exact .ite State.modLog_calm ((State.modLog_calm.trans State.modLog_calm).trans State.nearFull_calm)

/-- A log entry raises its near-full report and goes to its stream. -/
theorem State.enter_calm {s : State} {kind pid inst source tag eff seals : Nat} {old new : Bytes} :
    Calm s (s.enter kind pid inst source tag old new eff seals) := by
  have stored : ∀ x : State, ∀ f, Calm x (x.modLog f).logNear := fun _ _ => State.modLog_calm.trans State.logNear_calm
  unfold State.enter
  refine (stored s _).trans (.ite State.writeUnit_calm ?_)
  exact State.modLog_calm.trans State.unitLost_calm

theorem State.enterHost_calm {s : State} {h : Hdr} {kind pid inst eff : Nat} {old new : Bytes} :
    Calm s (s.enterHost h kind pid inst old new eff) := State.enter_calm

/-! ### An entry in the legal event log -/

theorem LegalLog.store_next {l : LegalLog} {b : Bytes} : (l.store b).next = l.next + 1 := by
  by_cases h : l.held.length < 4096
  · rw [LegalLog.store_free h]
  · rcases LegalLog.store_full (b := b) h with ⟨o, rest, a, -, -, -, eq⟩ | ⟨-, next⟩
    · rw [eq]
    · exact next

theorem State.logNear_next {s : State} : s.logNear.log.next = s.log.next := by
  unfold State.logNear
  split <;> rfl

theorem State.writeUnit_keeps_log {s : State} {k : Nat} {ws : List Nat} : (s.writeUnit k ws).log = s.log :=
  (State.writeUnit_keeps rfl (Keeps.refl (T := [.host]))).log rfl

theorem State.unitLost_keeps_log {s : State} {k n : Nat} : (s.unitLost k n).log = s.log :=
  (State.unitLost_keeps rfl (Keeps.refl (T := [.host]))).log rfl

/-- An entry takes the next index (R376). -/
theorem State.enter_next {s : State} {kind pid inst source tag eff seals : Nat} {old new : Bytes} :
    (s.enter kind pid inst source tag old new eff seals).log.next = s.log.next + 1 := by
  have stored : ∀ b, (s.modLog (fun l => l.store b)).logNear.log.next = s.log.next + 1 :=
    fun b => State.logNear_next.trans LegalLog.store_next
  unfold State.enter
  dsimp only
  split
  · rw [State.writeUnit_keeps_log, stored]
  · rw [State.unitLost_keeps_log]
    exact stored _

theorem State.enterHost_next {s : State} {h : Hdr} {kind pid inst eff : Nat} {old new : Bytes} :
    (s.enterHost h kind pid inst old new eff).log.next = s.log.next + 1 := State.enter_next

/-! ### Writing a request and posting its answer -/

theorem State.accept_clk {s : State} {code : Nat} {h : Hdr} {p : Bytes} : (s.accept code h p).clk = s.clk := rfl

theorem State.accept_space {s : State} {code : Nat} {h : Hdr} {p : Bytes} :
    (s.accept code h p).host = { s.host with mbx := (s.accept code h p).host.mbx } := rfl

theorem State.accept_boxes {s : State} {code : Nat} {h : Hdr} {p : Bytes} {m : Nat} (ne : m ≠ h.mbx) :
    (s.accept code h p).mbox m = s.mbox m := by
  have other : ∀ (x : State) f, (x.modMbox h.mbx f).mbox m = x.mbox m := fun _ _ => State.modMbox_other (Ne.symm ne)
  exact (other _ _).trans ((other _ _).trans (other _ _))

theorem State.post_boxes {s : State} {n code tag status m : Nat} {b : Bytes} (ne : m ≠ n) :
    (s.post n code tag status b).mbox m = s.mbox m := State.modMbox_other (Ne.symm ne)

/-- The pending bits after a detail: those before, and once READY stands the event's own. -/
theorem State.addDetail_pend {s : State} {ev : Nat} {d : Bytes} {e : Nat} (ne : e ≠ ev) :
    (s.addDetail ev d).host.pend.getLsbD e = s.host.pend.getLsbD e := by
  change BitVec.getLsbD (if s.host.ready then s.host.pend ||| BitVec.ofNat 64 (2 ^ ev) else s.host.pend) e = _
  split
  · rw [BitVec.getLsbD_or, BitVec.getLsbD_ofNat, Nat.testBit_two_pow]
    simp [Ne.symm ne]
  · rfl

theorem State.raise_pend {s : State} {ev sub e : Nat} {b : Bytes} (ne : e ≠ ev) :
    (s.raise ev sub b).host.pend.getLsbD e = s.host.pend.getLsbD e := State.addDetail_pend ne

theorem State.post_pend {s : State} {m code tag status e : Nat} {b : Bytes} (ne : e ≠ if status = 0 then 0 else 1) :
    (s.post m code tag status b).host.pend.getLsbD e = s.host.pend.getLsbD e := State.raise_pend ne

/-- An event raised stands beside the response's own. -/
theorem Raised.post {s : State} {m code tag status ev : Nat} {b d : Bytes} (r : Raised s ev d)
    (ne : ev ≠ if status = 0 then 0 else 1) : Raised (s.post m code tag status b) ev d where
  newest := by
    rw [State.post_events ne]
    exact r.newest
  pending := fun ready => (State.post_pend ne).trans (r.pending ready)

/-! ### What a taken request comes to -/

theorem within_refl (A : List Part) : within A A = true := by
  unfold within
  rw [List.all_eq_true]
  exact fun p m => List.contains_iff_mem.mpr m

theorem within_clk_host (T : List Part) : within [.clk, .host] (.clk :: .host :: T) = true := by simp [within]

theorem within_host (T : List Part) : within [.host] (.clk :: .host :: T) = true := by simp [within]

/-- What a taken request's answer is posted on, and what that leaves. -/
structure Served (s x t : State) (h : Hdr) : Prop where
  after : Keeps [.clk, .host] x t
  streams : t.host.streams = x.host.streams
  ready : t.host.ready = x.host.ready
  counter : t.clk = { x.clk with freeCtr := t.clk.freeCtr }
  space : t.host = { x.host with mbx := t.host.mbx, events := t.host.events, pend := t.host.pend }
  boxes : ∀ m, m ≠ h.mbx → t.mbox m = x.mbox m

theorem State.post_served {s x : State} {h : Hdr} {code status : Nat} {b : Bytes} : Served s x (x.post h.mbx code h.tag status b) h :=
  ⟨State.post_keeps rfl .refl, rfl, rfl, rfl, rfl, fun _ ne => State.post_boxes ne⟩

/-- A request whose work is calm changes what `Serves` names. -/
theorem Served.serves {T : List Part} {s x t : State} {h : Hdr} {code : Nat} {p : Bytes} (v : Served s x t h)
    (c : Calm (s.accept code h p) x) (k : Keeps (.clk :: .host :: T) (s.accept code h p) x) : Serves T s t h where
  parts := v.after.then (within_clk_host T) (k.then (within_refl _) (State.accept_keeps.mono (within_host T)))
  counter := by rw [v.counter, c.counter, State.accept_clk]
  space := by rw [v.space, c.space, State.accept_space]
  boxes := by
    intro m ne
    rw [v.boxes m ne]
    have e : x.host.mbx = (s.accept code h p).host.mbx := by rw [c.space]
    rw [State.mbox, e]
    exact State.accept_boxes ne

/-- The outcome of a taken request whose answer is not in parts. -/
theorem taken_serves {T : List Part} {s x : State} {code status : Nat} {h : Hdr} {p body : Bytes} {serve : Bytes → State → Ans}
    (k : Taken s code h p) (snd : Sound s) (g : serve p (s.accept code h p) = ⟨x, status, body, []⟩)
    (c : Calm (s.accept code h p) x) (kp : Keeps (.clk :: .host :: T) (s.accept code h p) x) :
    ∃ t, hostCmd code h p serve s = .next t ∧ Answered t code h status body ∧ Serves T s t h ∧ Served s x t h ∧
      ∀ ev d, (ev ≠ if status = 0 then 0 else 1) → Raised x ev d → Raised t ev d := by
  have b : x.host.mbx.length = 8 := by
    rw [c.space]
    exact (State.accept_sound snd).host.boxes
  refine ⟨_, hostCmd_taken k, ?_⟩
  rw [g]
  have v : Served s x (x.post h.mbx code h.tag status body) h := State.post_served
  exact ⟨State.post_answered b k.mbx k.tag, v.serves c kp, v, fun ev d ne r => r.post ne⟩

/-- A request that changed nothing but the free-value counter before its answer, with status 0, only reads. -/
theorem ReadOnly.post {s x : State} {code : Nat} {h : Hdr} {p body : Bytes} (c : Calm (s.accept code h p) x)
    (kp : Keeps [.clk] (s.accept code h p) x) : ReadOnly s (x.post h.mbx code h.tag 0 body) h where
  serves := State.post_served.serves c (kp.mono rfl)
  streams := (congrArg HostPort.streams (kp.host rfl) : x.host.streams = (s.accept code h p).host.streams)
  queues := fun e ne => (State.post_events ne).trans (by rw [kp.host rfl]; rfl)
  bits := fun e ne => (State.post_pend ne).trans (by rw [kp.host rfl]; rfl)

/-- The outcome of a taken request that only reads. -/
theorem taken_reads {s : State} {code : Nat} {h : Hdr} {p body : Bytes} {serve : Bytes → State → Ans} (k : Taken s code h p)
    (snd : Sound s) (g : serve p (s.accept code h p) = okB (s.accept code h p) body) :
    ∃ t, hostCmd code h p serve s = .next t ∧ Answered t code h 0 body ∧ ReadOnly s t h := by
  refine ⟨_, hostCmd_taken k, ?_⟩
  rw [g]
  exact ⟨State.post_answered (State.accept_sound snd).host.boxes k.mbx k.tag, ReadOnly.post .refl .refl⟩

/-- The outcome of a taken request that only reads and takes free values. -/
theorem taken_reads_bumped {s x : State} {code : Nat} {h : Hdr} {p body : Bytes} {serve : Bytes → State → Ans}
    (k : Taken s code h p) (snd : Sound s) (g : serve p (s.accept code h p) = okB x body) (c : Calm (s.accept code h p) x)
    (kp : Keeps [.clk] (s.accept code h p) x) :
    ∃ t, hostCmd code h p serve s = .next t ∧ Answered t code h 0 body ∧ ReadOnly s t h := by
  refine ⟨_, hostCmd_taken k, ?_⟩
  have b : x.host.mbx.length = 8 := by
    rw [kp.host rfl]
    exact (State.accept_sound snd).host.boxes
  rw [g]
  exact ⟨State.post_answered b k.mbx k.tag, ReadOnly.post c kp⟩

/-- Keeping an answer's parts for later requests changes the mailbox alone. -/
theorem okParts_send {s : State} {ps : List Bytes} {h : Hdr} {code : Nat} (n : ps ≠ []) :
    (okParts s ps).send h code = (s.modMbox h.mbx (fun b => { b with answer := some ⟨code, h.tag, ps⟩ })).post h.mbx code h.tag 0
      ([0, byteOf ps.length] ++ ps.headD []) := by
  cases ps with
  | nil => exact absurd rfl n
  | cons q qs => rfl

/-- The outcome of a taken request that answers in parts, its work being calm. -/
theorem taken_parts_serves {T : List Part} {s x : State} {code : Nat} {h : Hdr} {p : Bytes} {ps : List Bytes}
    {serve : Bytes → State → Ans} (k : Taken s code h p) (snd : Sound s) (g : serve p (s.accept code h p) = okParts x ps)
    (n : ps ≠ []) (c : Calm (s.accept code h p) x) (kp : Keeps (.clk :: .host :: T) (s.accept code h p) x) :
    ∃ t, hostCmd code h p serve s = .next t ∧ AnsweredParts t code h ps ∧ Serves T s t h ∧ Keeps [.clk, .host] x t ∧
      t.host.streams = x.host.streams ∧
      (∀ e, e ≠ 0 → t.host.events.getD e EventQueue.reset = x.host.events.getD e EventQueue.reset) ∧
      ∀ e, e ≠ 0 → t.host.pend.getLsbD e = x.host.pend.getLsbD e := by
  have b : x.host.mbx.length = 8 := by
    rw [c.space]
    exact (State.accept_sound snd).host.boxes
  refine ⟨_, hostCmd_taken k, ?_⟩
  rw [g]
  refine ⟨Ans.send_parts n b k.mbx k.tag, ?_⟩
  rw [okParts_send n]
  have w : Served s (x.modMbox h.mbx (fun b => { b with answer := some ⟨code, h.tag, ps⟩ })) _ h :=
    State.post_served (code := code) (status := 0) (b := [0, byteOf ps.length] ++ ps.headD [])
  have v : Served s x _ h := ⟨w.after.then rfl (State.modMbox_keeps rfl .refl), w.streams, w.ready, w.counter, w.space,
    fun m ne => (w.boxes m ne).trans (State.modMbox_other (Ne.symm ne))⟩
  have queues : (x.modMbox h.mbx (fun b => { b with answer := some ⟨code, h.tag, ps⟩ })).host.events = x.host.events := rfl
  have bits : (x.modMbox h.mbx (fun b => { b with answer := some ⟨code, h.tag, ps⟩ })).host.pend = x.host.pend := rfl
  refine ⟨v.serves c kp, v.after, rfl, fun e ne => ?_, fun e ne => ?_⟩
  · rw [State.post_events (by simpa using ne), queues]
  · rw [State.post_pend (by simpa using ne), bits]

/-- The outcome of a taken request that only reads and answers in parts. -/
theorem taken_parts_reads {s : State} {code : Nat} {h : Hdr} {p : Bytes} {ps : List Bytes} {serve : Bytes → State → Ans}
    (k : Taken s code h p) (snd : Sound s) (g : serve p (s.accept code h p) = okParts (s.accept code h p) ps) (n : ps ≠ []) :
    ∃ t, hostCmd code h p serve s = .next t ∧ AnsweredParts t code h ps ∧ ReadOnly s t h := by
  obtain ⟨t, e, a, v, -, st, q, bits⟩ := taken_parts_serves (T := []) k snd g n .refl .refl
  exact ⟨t, e, a, v, st, fun e ne => q e ne, fun e ne => bits e ne⟩

end Sys2Proof.Machine
end

section
/-!
The parameter commands (20 R473–R478): batches that are checked, refused or taken, and the reads.
-/

namespace Sys2Proof.Machine

/-! ### The payload of parameter-write -/

/-- Setting a flag in a payload whose flags are 0 sets the flags byte and nothing else. -/
theorem withFlags_fields {p : Bytes} {bits : Nat} (l : 4 ≤ p.length) (z : fld p 3 1 = 0) (b : bits < 256) :
    fld (withFlags bits p) 0 2 = fld p 0 2 ∧ fld (withFlags bits p) 3 1 = bits ∧
      readEntries (withFlags bits p) = readEntries p ∧ (withFlags bits p).length = p.length := by
  match p, l with
  | x :: y :: w :: f :: rest, _ =>
    have f0 : f = 0 := BitVec.eq_of_toNat_eq (by simpa [fld, slice, fromLe] using z)
    subst f0
    refine ⟨rfl, ?_, rfl, rfl⟩
    change (0#8 ||| byteOf bits).toNat + 256 * 0 = bits
    rw [BitVec.zero_or, byteOf, BitVec.toNat_ofNat]
    omega

/-- The entries that a batch holds with those of a request. -/
def State.joined (s : State) (p : Bytes) : List BatchEntry :=
  (match s.par.batch with | some b => b.entries | none => []) ++ readEntries p

/-- A request that an open batch, or none, takes: its layout is legal, its flags are 0, its number is the batch's, and the entries fit. -/
structure BatchFits (s : State) (p : Bytes) : Prop where
  min : 4 ≤ p.length
  max : p.length ≤ 244
  whole : (p.length - 4) % 12 = 0
  flags : fld p 3 1 = 0
  room : (s.joined p).length ≤ 1024
  number : match s.par.batch with | some b => b.num = fld p 0 2 | none => True

/-- What the request is served on: a batch that is open has its 10 s started again. -/
def State.batchAgain (s : State) : State :=
  match s.par.batch with
  | some b => s.modPar (fun x => { x with batch := some { b with due := s.clk.up + 10000000000 } })
  | none => s

theorem State.batchAgain_keeps {s : State} : Keeps [.par] s s.batchAgain := by
  unfold State.batchAgain
  split
  · exact State.modPar_keeps rfl .refl
  · exact .refl

theorem State.batchAgain_closed {s : State} : s.batchAgain.closeBatch = s.closeBatch := by
  unfold State.batchAgain
  split <;> rfl

/-- The spec lemma of parameter-write: what each flag that the host may set comes to. -/
theorem serveParameterWrite_fits {h : Hdr} {p : Bytes} {s : State} {bits : Nat} (f : BatchFits s p) (b : bits ∈ [0, 1, 2, 5]) :
    serveParameterWrite h (withFlags bits p) s =
      if bits = 2 then batchAns s.batchAgain.closeBatch 0 (fld p 0 2) 0 0xFFFF
      else if bits = 0 then batchAns (s.batchAgain.modPar (fun x =>
        { x with batch := some ⟨fld p 0 2, s.joined p, s.clk.up + 10000000000⟩ })) 0 (fld p 0 2) (s.joined p).length 0xFFFF
      else s.batchAgain.commitBatch h (bits == 5) (fld p 0 2) (s.joined p) := by
  have small : bits < 256 := by
    simp only [List.mem_cons, List.not_mem_nil, or_false] at b
    omega
  obtain ⟨num, flag, entries, len⟩ := withFlags_fields f.min f.flags small
  obtain ⟨hmin, hmax, whole, -, room, number⟩ := f
  have up : s.batchAgain.clk.up = s.clk.up := congrArg Clock.up (State.batchAgain_keeps.clk rfl)
  have large : ¬ 1024 < (s.joined p).length := Nat.not_lt.mpr room
  unfold serveParameterWrite
  dsimp only
  rw [num, flag, len, entries, if_neg (by omega)]
  unfold State.joined at large ⊢
  unfold State.batchAgain at up ⊢
  simp only [List.mem_cons, List.not_mem_nil, or_false] at b
  cases e : s.par.batch with
  | none =>
    simp only [e] at large
    rcases b with rfl | rfl | rfl | rfl <;> simp only [large, if_false] <;> rfl
  | some x =>
    simp only [e] at large number
    rw [if_neg (by simp [number])]
    rcases b with rfl | rfl | rfl | rfl <;> simp only [large, if_false] <;> rfl

/-! ### Checks at commit -/

theorem State.batchValues_distinct {s t : State} {l : List BatchEntry} (d : duplicated (l.map entryValue) = false) :
    s.batchValues l = t.batchValues l := by
  simp only [State.batchValues, d, Bool.false_and, Bool.false_eq_true, if_false]

/-- An entry that fails has a status other than 0. -/
theorem State.firstFailure_status {s g : State} {i : Nat} {l : List BatchEntry} {f : Nat × Nat}
    (h : s.firstFailure g i l = some f) : f.2 ≠ 0 := by
  induction l generalizing i with
  | nil => cases h
  | cons e l ih =>
    rw [State.firstFailure] at h
    split at h
    · exact ih h
    · next ne =>
      cases h
      exact ne

section
variable {s : State} {h : Hdr} {check : Bool} {num : Nat} {l : List BatchEntry}

/-- The configuration as it will stand when the batch is in force. -/
abbrev State.batchFuture (s : State) (l : List BatchEntry) : State := s.closeBatch.future (s.closeBatch.batchValues l)

theorem State.commitBatch_entryFails (d : duplicated (l.map entryValue) = false) {f : Nat × Nat}
    (e : s.closeBatch.firstFailure (s.batchFuture l) 0 l = some f) :
    s.commitBatch h check num l = batchAns s.closeBatch f.2 num l.length f.1 := by
  unfold State.commitBatch
  simp only [d, Bool.false_eq_true, if_false]
  rw [e]

variable (d : duplicated (l.map entryValue) = false) (pass : s.closeBatch.firstFailure (s.batchFuture l) 0 l = none)
include d pass

theorem State.commitBatch_crossFails (c : (s.batchFuture l).crossOk = false) :
    s.commitBatch h check num l = batchAns s.closeBatch 6 num l.length 0xFFFF := by
  unfold State.commitBatch
  simp only [d, Bool.false_eq_true, if_false]
  rw [pass]
  exact if_pos c

theorem State.commitBatch_logFull (c : (s.batchFuture l).crossOk = true) (n : 0 < logCount (s.closeBatch.batchValues l))
    (full : s.closeBatch.logFull (logCount (s.closeBatch.batchValues l)) = true) :
    s.commitBatch h check num l =
      batchAns (if check then s.closeBatch else s.closeBatch.logRefused) 11 num l.length 0xFFFF := by
  unfold State.commitBatch
  simp only [d, Bool.false_eq_true, if_false]
  rw [pass]
  exact (if_neg (by simp [c])).trans (if_pos ⟨n, full⟩)

theorem State.commitBatch_notAdmitted (c : (s.batchFuture l).crossOk = true)
    (room : s.closeBatch.logFull (logCount (s.closeBatch.batchValues l)) = false) (a : (s.batchFuture l).admission.1 ≠ 0) :
    s.commitBatch h check num l =
      batchAns (if check then s.closeBatch else s.closeBatch.configRefused (s.batchFuture l).admission h.tag
        ((s.batchFuture l).costliest (s.batchFuture l).eng.mode)) 10 num l.length 0xFFFF := by
  unfold State.commitBatch
  simp only [d, Bool.false_eq_true, if_false]
  rw [pass]
  exact (if_neg (by simp [c])).trans ((if_neg (by simp [room])).trans (if_pos a))

theorem State.commitBatch_passes (c : (s.batchFuture l).crossOk = true)
    (room : s.closeBatch.logFull (logCount (s.closeBatch.batchValues l)) = false) (a : (s.batchFuture l).admission.1 = 0) :
    ∃ first cost, s.commitBatch h check num l =
      okB (if check then s.closeBatch.bump else s.closeBatch.bump.applyBatch h (s.closeBatch.batchValues l))
        (batchBody num l.length 0xFFFF first cost) := by
  unfold State.commitBatch
  simp only [d, Bool.false_eq_true, if_false]
  rw [pass]
  exact ⟨_, _, (if_neg (by simp [c])).trans ((if_neg (by simp [room])).trans (if_neg (by simp [a])))⟩

end

theorem batchBody_take {num held failing first cost : Nat} :
    (batchBody num held failing first cost).take 6 = le 2 num ++ le 2 held ++ le 2 failing := rfl

/-! ### Outcomes of a batch command -/

/-- What a batch command that ends without an effect beyond its batch comes to; `y` is what it answers on. -/
theorem batch_answered {T : List Part} {s y : State} {h : Hdr} {p : Bytes} {status num held failing : Nat} (snd : Sound s)
    (k : Taken s 0x0202 h p) (g : serveParameterWrite h p (s.accept 0x0202 h p) = batchAns y status num held failing)
    (c : Calm (s.accept 0x0202 h p) y) (kp : Keeps (.clk :: .host :: T) (s.accept 0x0202 h p) y) :
    ∃ t b, hostCmd 0x0202 h p (serveParameterWrite h) s = .next t ∧ Answered t 0x0202 h status b ∧
      b.take 6 = le 2 num ++ le 2 held ++ le 2 failing ∧ Serves T s t h ∧ Keeps [.clk, .host] y t ∧
      ∀ ev d, (ev ≠ if status = 0 then 0 else 1) → Raised y ev d → Raised t ev d := by
  have w : within [.clk] (.clk :: .host :: T) = true := by simp [within]
  obtain ⟨t, e, a, v, sv, r⟩ := taken_serves k snd g ((c.trans State.bump_calm).trans State.bump_calm)
    (State.bump_keeps w (State.bump_keeps w kp))
  exact ⟨t, _, e, a, batchBody_take, v, sv.after.then rfl (State.bump_keeps rfl (State.bump_keeps rfl .refl)),
    fun ev d ne hr => r ev d ne ⟨hr.newest, hr.pending⟩⟩

/-- Closing the batch that a request stands on is calm and touches the parameter store alone. -/
theorem State.closed_calm {s : State} : Calm s s.closeBatch := ⟨rfl, rfl⟩

theorem State.closed_keeps {s : State} : Keeps [.par] s s.closeBatch := State.modPar_keeps rfl .refl

theorem State.commitBatch_again {s : State} {h : Hdr} {check : Bool} {num : Nat} {l : List BatchEntry} :
    s.batchAgain.commitBatch h check num l = s.commitBatch h check num l := by
  unfold State.commitBatch
  rw [State.batchAgain_closed]

theorem State.accept_joined {s : State} {code : Nat} {h : Hdr} {p q : Bytes} : (s.accept code h p).joined q = s.joined q := rfl

theorem BatchFits.accept {s : State} {p : Bytes} (f : BatchFits s p) {code : Nat} {h : Hdr} {q : Bytes} :
    BatchFits (s.accept code h q) p := ⟨f.min, f.max, f.whole, f.flags, f.room, f.number⟩

/-- parameter-write with COMMIT, and with CHECK and COMMIT. -/
theorem serveParameterWrite_commit {s : State} {h : Hdr} {p : Bytes} {code bits : Nat} {q : Bytes} (f : BatchFits s p)
    (b : bits = 1 ∨ bits = 5) : serveParameterWrite h (withFlags bits p) (s.accept code h q) =
      (s.accept code h q).commitBatch h (bits == 5) (fld p 0 2) (s.joined p) := by
  rw [serveParameterWrite_fits f.accept (by rcases b with rfl | rfl <;> decide), if_neg (by omega), if_neg (by omega),
    State.commitBatch_again, State.accept_joined]

theorem State.logRefused_held {s : State} : s.logRefused.log.held = s.log.held ∧ s.logRefused.log.next = s.log.next := by
  unfold State.logRefused
  dsimp only
  split <;> exact ⟨rfl, rfl⟩

theorem State.configRefused_raised {s : State} {a : Nat × Nat × Nat × Nat} {tag cost : Nat} (k : Sound s) :
    Raised (s.configRefused a tag cost) 55 [1] :=
  State.raise_raised k.host.queues (by decide) (List.prefix_append [1] _) (by decide)

/-- Settles O42: each failing check answers on the closed batch, with no effect but the reports of a full log and of a refused
admission. -/
theorem refusedCommitChangesNoParameter : Obligations.RefusedCommitChangesNoParameter := by
  intro s h p snd k all x g lmin lmax whole flags room number distinct
  have f : BatchFits s p := ⟨lmin, lmax, whole, flags, room, number⟩
  have commit := serveParameterWrite_commit (code := 0x0202) (h := h) (q := withFlags 1 p) f (.inl rfl)
  have par : x.par = { s.par with batch := none } := rfl
  refine ⟨fun fl fail => ?entry, fun pass cross => ?cross, fun pass cross n full => ?log, fun pass cross free adm => ?admission⟩
  case entry =>
    obtain ⟨t, b, e, a, first, v, after, -⟩ := batch_answered (T := [.par]) snd k
      (commit.trans (State.commitBatch_entryFails distinct fail)) State.closed_calm (State.closed_keeps.mono rfl)
    exact ⟨t, b, e, a, first, State.firstFailure_status fail, (after.par rfl).trans par, v.parts.mono rfl⟩
  case cross =>
    obtain ⟨t, b, e, a, first, v, after, -⟩ := batch_answered (T := [.par]) snd k
      (commit.trans (State.commitBatch_crossFails distinct pass cross)) State.closed_calm (State.closed_keeps.mono rfl)
    exact ⟨t, b, e, a, first, (after.par rfl).trans par, v.parts.mono rfl⟩
  case log =>
    have refused : Keeps [.host, .log] x x.logRefused := State.logRefused_keeps rfl .refl
    obtain ⟨t, b, e, a, -, v, after, -⟩ := batch_answered (T := [.par, .log]) (y := x.logRefused) snd k
      (commit.trans (State.commitBatch_logFull distinct pass cross n full)) (State.closed_calm.trans State.logRefused_calm)
      (State.logRefused_keeps rfl (State.closed_keeps.mono rfl))
    have held := State.logRefused_held (s := x)
    rw [← after.log rfl] at held
    exact ⟨t, b, e, a, (after.par rfl).trans ((refused.par rfl).trans par), held.1, held.2, v.parts.mono rfl⟩
  case admission =>
    obtain ⟨t, b, e, a, -, v, after, raised⟩ := batch_answered (T := [.par]) (y := x.configRefused _ _ _) snd k
      (commit.trans (State.commitBatch_notAdmitted distinct pass cross free adm)) (State.closed_calm.trans State.raise_calm)
      (State.configRefused_keeps rfl (State.closed_keeps.mono rfl))
    have sx : Sound x := State.modPar_sound (State.accept_sound snd)
    exact ⟨t, b, e, a, (after.par rfl).trans par, raised 55 [1] (by decide) (State.configRefused_raised sx), v.parts.mono rfl⟩

/-! ### A batch that is taken -/

/-- The stored values and the open batch of two states are the same. -/
structure SameStore (s t : State) : Prop where
  stored : t.par.stored = s.par.stored
  batch : t.par.batch = s.par.batch

theorem SameStore.trans {s t u : State} (h : SameStore s t) (g : SameStore t u) : SameStore s u :=
  ⟨g.stored.trans h.stored, g.batch.trans h.batch⟩

theorem SameStore.of_keeps {T : List Part} {s t : State} (k : Keeps T s t) (h : T.contains .par = false) : SameStore s t :=
  ⟨by rw [k.par h], by rw [k.par h]⟩

theorem SameStore.foldl {α : Type} {s x : State} {f : State → α → State} {l : List α} (h : SameStore s x)
    (g : ∀ y a, SameStore y (f y a)) : SameStore s (l.foldl f x) := by
  induction l generalizing x with
  | nil => exact h
  | cons a l ih => exact ih (h.trans (g x a))

theorem SameStore.carry {s t : State} {v : List (Nat × Nat × Int)} (h : SameStore s t)
    (g : s.par.stored = v ∧ s.par.batch = none) : t.par.stored = v ∧ t.par.batch = none :=
  ⟨h.stored.trans g.1, h.batch.trans g.2⟩

theorem State.acceptValue_sameStore {s : State} {e : Nat × Nat × Int} : SameStore s (s.acceptValue e) := by
  have cause : ∀ x : State, SameStore s x → SameStore s (if e.1 = PT_SERVICE ∧ e.2.2 = 1 then x.addCause e.2.1 9 else x) := by
    intro x h
    split
    · exact h.trans (.of_keeps (State.addCause_keeps rfl (Keeps.refl (T := [.pts]))) rfl)
    · exact h
  unfold State.acceptValue
  refine cause _ ?_
  split
  · have taken : ∀ f : ParamStore → _, SameStore s (s.modPar (fun x => { x with active := f x })) := fun _ => ⟨rfl, rfl⟩
    exact (taken _).trans (.of_keeps (State.immediateEffect_keeps rfl
      (Keeps.refl (T := [.clk, .servo, .host, .test, .pts, .disp, .plc, .ring, .fw]))) rfl)
  · exact ⟨rfl, rfl⟩

/-- An accepted batch is stored whole and closed (R477). -/
theorem State.applyBatch_stored {s : State} {h : Hdr} {es : List (Nat × Nat × Int)} :
    (s.applyBatch h es).par.stored = putAll s.par.stored es ∧ (s.applyBatch h es).par.batch = none := by
  have logged : ∀ y : State, SameStore y (es.foldl (fun x e => x.logValue h s e) y) := fun y =>
    .foldl ⟨rfl, rfl⟩ fun z e => .of_keeps (State.logValue_keeps rfl (Keeps.refl (T := [.clk, .host, .log]))) rfl
  have accepted : ∀ y : State, SameStore y (es.foldl (fun x e => x.acceptValue e) y) := fun y =>
    .foldl ⟨rfl, rfl⟩ fun z e => State.acceptValue_sameStore
  have held : ∀ y : State, SameStore y (y.holdPeer h s.hethNow) := fun y =>
    .of_keeps (State.holdPeer_keeps rfl (Keeps.refl (T := [.host]))) rfl
  have reported : ∀ (y : State) tag frame, SameStore y (y.configApplied tag frame) := fun y tag frame =>
    .of_keeps (State.configApplied_keeps rfl (Keeps.refl (T := [.clk, .host]))) rfl
  have noted : ∀ (y : State) (tags : ParamStore → _), SameStore y (y.modPar (fun x => { x with applyTag := tags x })) := fun _ _ => ⟨rfl, rfl⟩
  unfold State.applyBatch
  dsimp only
  split
  · exact (noted _ _).carry ((held _).carry ((accepted _).carry ((logged _).carry ⟨rfl, rfl⟩)))
  · exact (reported _ _ _).carry ((held _).carry ((accepted _).carry ((logged _).carry ⟨rfl, rfl⟩)))

/-! ### Reads -/

theorem serveParameterRead_reads {p : Bytes} {s : State} (lo : 0 < p.length) (hi : p.length ≤ 60) (w : p.length % 4 = 0) :
    serveParameterRead p s = okB s ((chunks 4 p).flatMap (fun c => s.readEntry (fld c 0 2) (fld c 2 2))) := by
  unfold serveParameterRead
  rw [if_neg (by omega)]

theorem State.accept_readEntry {s : State} {code pid inst : Nat} {h : Hdr} {p : Bytes} :
    (s.accept code h p).readEntry pid inst = s.readEntry pid inst := by
  have value : (s.accept code h p).readValue pid inst = s.readValue pid inst := by
    have stored : (s.accept code h p).stored pid inst = s.stored pid inst := rfl
    have descr : ∀ k i w, (s.accept code h p).overDescr k i w = s.overDescr k i w := fun _ _ _ => rfl
    have socket : (s.accept code h p).anySocket = s.anySocket := rfl
    simp only [State.readValue, stored, descr, socket]
  simp only [State.readEntry, value]

theorem serveParameterDescribe_reads {p : Bytes} {s : State} {r : ParamRow} (l : p.length = 4) (row : rowOf (fld p 0 2) = some r)
    (i : fld p 2 2 ≤ maxInstance (fld p 0 2)) : serveParameterDescribe p s =
      okB s ([byteOf r.ty, byteOf r.frac, byteOf (effectCode r.effect), byteOf r.sealNo] ++ leI 8 r.lo ++ leI 8 r.hi ++
        leI 8 (defaultOf (fld p 0 2) (typeFor s.par.active (fld p 0 2) (fld p 2 2))) ++ [byteOf r.extra.length] ++
        r.extra.flatMap (leI 8)) := by
  unfold serveParameterDescribe
  rw [if_neg (not_not_intro l)]
  dsimp only
  rw [row]
  exact if_neg (by omega)

/-- parameter-write on a batch that goes on: what it writes of the parameter store. -/
theorem State.batchAgain_par {s : State} : { s.batchAgain.par with batch := none } = { s.par with batch := none } := by
  unfold State.batchAgain
  split <;> rfl

/-- Settles O4: the reads answer from the stored values and the dictionary, and a batch goes by its flags and its checks. -/
theorem parameterCommandsAnswer : Obligations.ParameterCommandsAnswer := by
  intro s h p snd all fits passes
  have fit : fits → BatchFits s p := fun ⟨lmin, lmax, whole, flags, room, number⟩ => ⟨lmin, lmax, whole, flags, room, number⟩
  refine ⟨fun k lo hi w => ?read, fun r k l row i => ?describe, fun k l => ?list, fun k f => ?write, fun k f => ?abort,
    fun k f pass => ?check, fun k f pass => ?commit⟩
  case read =>
    have g := serveParameterRead_reads (s := s.accept 0x0201 h p) lo hi w
    simp only [State.accept_readEntry] at g
    exact taken_reads k snd g
  case describe => exact taken_reads k snd (serveParameterDescribe_reads l row i)
  case list =>
    have g : serveParameterList p (s.accept 0x0204 h p) = okB _ _ := if_neg (not_not_intro l)
    exact taken_reads k snd g
  case write =>
    have f' := fit f
    have g := serveParameterWrite_fits (h := h) (f'.accept (code := 0x0202) (h := h) (q := p)) (List.mem_cons_self (a := 0))
    have p0 : withFlags 0 p = p := by
      match p, f'.min with
      | x :: y :: w :: b :: rest, _ => simp [withFlags, upd, byteOf]
    rw [p0, if_neg (by decide), if_pos rfl] at g
    obtain ⟨t, b, e, a, first, v, after, -⟩ := batch_answered (T := [.par]) snd k g
      (.trans (.of_keeps State.batchAgain_keeps rfl rfl) ⟨rfl, rfl⟩)
      (State.modPar_keeps rfl (State.batchAgain_keeps.mono rfl))
    refine ⟨t, b, e, a, first, (after.par rfl).trans ?_, v⟩
    exact congrArg (fun x : ParamStore => { x with batch := some ⟨fld p 0 2, all, s.clk.up + 10000000000⟩ })
      (State.batchAgain_par (s := s.accept 0x0202 h p))
  case abort =>
    have f' := fit f
    have g := serveParameterWrite_fits (h := h) (f'.accept (code := 0x0202) (h := h) (q := withFlags 2 p)) (bits := 2) (by decide)
    rw [if_pos rfl, State.batchAgain_closed] at g
    obtain ⟨t, b, e, a, first, v, after, -⟩ := batch_answered (T := [.par]) snd k g State.closed_calm (State.closed_keeps.mono rfl)
    exact ⟨t, b, e, a, first, after.par rfl, v⟩
  case check =>
    obtain ⟨distinct, pass, cross, room, adm⟩ := pass
    have commit := serveParameterWrite_commit (code := 0x0202) (h := h) (q := withFlags 5 p) (fit f) (.inr rfl)
    obtain ⟨first, cost, ok⟩ := State.commitBatch_passes (check := true) (h := h) (num := fld p 0 2) distinct pass cross room adm
    obtain ⟨t, e, a, v, sv, -⟩ := taken_serves (T := [.par]) k snd (commit.trans ok) (State.closed_calm.trans State.bump_calm)
      (State.bump_keeps rfl (State.closed_keeps.mono rfl))
    exact ⟨t, _, e, a, batchBody_take, sv.after.par rfl, v⟩
  case commit =>
    obtain ⟨distinct, pass, cross, room, adm⟩ := pass
    have commit := serveParameterWrite_commit (code := 0x0202) (h := h) (q := withFlags 1 p) (fit f) (.inl rfl)
    obtain ⟨first, cost, ok⟩ := State.commitBatch_passes (check := false) (h := h) (num := fld p 0 2) distinct pass cross room adm
    let x := (s.accept 0x0202 h (withFlags 1 p)).closeBatch
    have sound : Sound (x.bump.applyBatch h (x.batchValues all)) :=
      State.applyBatch_sound (State.bump_sound (State.modPar_sound (State.accept_sound snd)))
    obtain ⟨t, e, a, after, -⟩ := taken_answered k (commit.trans ok) sound.host.boxes
    have e' : exec (.batchCommit h p) s = .next t := e
    have par : t.par = (x.bump.applyBatch h (x.batchValues all)).par := after.par rfl
    obtain ⟨stored, batch⟩ := State.applyBatch_stored (s := x.bump) (h := h) (es := x.batchValues all)
    rw [← par] at stored batch
    exact ⟨t, _, e, a, batchBody_take, batch, stored.trans (congrArg _ (State.batchValues_distinct distinct)), exec_keeps _ _ _ e'⟩

end Sys2Proof.Machine
end

section
/-!
The cases that the host must avoid (19 Table 19.16, 20 Table 20.8): what their outcome is confined to (R465, R483).
-/

namespace Sys2Proof.Machine

/-- Of the time base only the free-value counter moved. -/
def Ticks (s x : State) : Prop := x.clk = { s.clk with freeCtr := x.clk.freeCtr }

theorem Ticks.refl {s : State} : Ticks s s := rfl

theorem Ticks.trans {s x y : State} (h : Ticks s x) (g : Ticks x y) : Ticks s y := by
  unfold Ticks at *
  rw [g, h]

theorem Ticks.ite {s x y : State} {c : Prop} [Decidable c] (h : Ticks s x) (g : Ticks s y) : Ticks s (if c then x else y) := by
  split <;> assumption

theorem State.bump_ticks {s : State} : Ticks s s.bump := rfl

theorem State.modMbox_ticks {s : State} {m : Nat} {f : Mailbox → Mailbox} : Ticks s (s.modMbox m f) := rfl

theorem State.post_ticks {s : State} {m code tag status : Nat} {b : Bytes} : Ticks s (s.post m code tag status b) := rfl

theorem State.confined_ticks {s : State} : Ticks s s.confined := rfl

theorem Ans.send_ticks {s : State} {a : Ans} {h : Hdr} {code : Nat} (g : Ticks s a.st) : Ticks s (a.send h code) := by
  unfold Ans.send
  split
  · exact g.trans State.post_ticks
  · exact g.trans (State.modMbox_ticks.trans State.post_ticks)

theorem State.answerPart_ticks {s : State} {h : Hdr} {code : Nat} : Ticks s (s.answerPart h code) := by
  unfold State.answerPart
  split
  · exact .ite State.post_ticks ((Ticks.ite .refl State.modMbox_ticks).trans State.post_ticks)
  · exact State.post_ticks

/-- A request that its mailbox takes moves of the time base what its service moves. -/
theorem State.take_ticks {s : State} {code : Nat} {h : Hdr} {p : Bytes} {serve : Bytes → State → Ans}
    (g : ∀ p s, Ticks s (serve p s).st) : Ticks s (s.take code h p serve) := by
  have run : ∀ p x, Ticks s x → Ticks s ((loaderOnly code serve p x).send h code) := by
    refine fun p x t => Ans.send_ticks ?_
    unfold loaderOnly
    split
    · exact t
    · exact t.trans (g p x)
  have held : ∀ x d c n b, Ticks x ((x.modMbox h.mbx (fun m => { m with held := d })).post h.mbx c h.tag n b) :=
    fun _ _ _ _ _ => State.modMbox_ticks.trans State.post_ticks
  have drop : Ticks s ((s.dropAnswer h.mbx).dropHeld h.mbx) := State.modMbox_ticks.trans State.modMbox_ticks
  unfold State.take
  split
  · exact State.post_ticks
  · split
    · dsimp only
      split
      · exact drop.trans (held _ _ _ _ _)
      · exact run _ _ drop
    · split
      · split
        · split
          · exact held _ _ _ _ _
          · exact run _ _ State.modMbox_ticks
        · exact held _ _ _ _ _
      · split
        · exact State.post_ticks
        · exact State.answerPart_ticks

theorem serveIdentity_ticks (p : Bytes) (s : State) : Ticks s (serveIdentity p s).st := by
  unfold serveIdentity noPayload
  split <;> rfl

/-- A stream after an undefined case holds its newest words. -/
theorem State.confined_words (s : State) (k : Nat) : ∃ n, (s.confined.stream k).words = (s.stream k).words.drop n := by
  change ∃ n, ((s.host.streams.mapIdx fun k f => f.confined s.clk.freeCtr k).getD k Fifo.reset).words = _
  rw [List.getD_eq_getElem?_getD, List.getElem?_mapIdx]
  unfold State.stream
  rw [List.getD_eq_getElem?_getD]
  cases s.host.streams[k]? with
  | none => exact ⟨0, rfl⟩
  | some f => exact ⟨_, rfl⟩

/-- A detail queue after an undefined case holds its newest details. -/
theorem State.confined_details (s : State) (e : Nat) :
    ∃ n, (s.confined.host.events.getD e EventQueue.reset).details = (s.host.events.getD e EventQueue.reset).details.drop n := by
  change ∃ n, ((s.host.events.mapIdx fun e q =>
    { q with details := q.details.drop (Config.hostFree s.clk.freeCtr (128 + e)) }).getD e EventQueue.reset).details = _
  rw [List.getD_eq_getElem?_getD, List.getElem?_mapIdx, List.getD_eq_getElem?_getD]
  cases s.host.events[e]? with
  | none => exact ⟨0, rfl⟩
  | some q => exact ⟨_, rfl⟩

/-! ### Which commands meet an undefined case -/

theorem execRegisterWrite_misplaced {s : State} {a : Nat} {v : BitVec 32} {heth : Bool} (on : s.pwr.coreOn = true)
    (m : a % 4 ≠ 0 ∨ isPort a = true) : execRegisterWrite a v heth s =
      .next (if heth then s.modHost (fun h => { h with hethRefused := true }) else s.confined) := by
  unfold execRegisterWrite
  rw [if_neg (by simp [on]), if_pos m]

theorem execRegisterWrite_word {s : State} {a : Nat} {v : BitVec 32} {heth : Bool} (on : s.pwr.coreOn = true)
    (al : a % 4 = 0) (np : isPort a = false) : execRegisterWrite a v heth s = .next (s.writeWord a v heth) := by
  unfold execRegisterWrite
  rw [if_neg (by simp [on]), if_neg (by simp [al, np])]

/-- A doorbell of a mailbox that is not free, while no request is taken. -/
theorem State.ringBell_busy {s : State} {m : Nat} {heth : Bool} (f : s.mboxFree m = false) (n : s.serving = false) :
    s.ringBell m heth = s.confined := by
  unfold State.ringBell
  dsimp only
  rw [if_neg (by simp [f])]
  unfold State.undefinedRequest
  rw [if_neg (by simp [n])]

/-- REQ written 1 to a mailbox that is not free, while no request is taken. -/
theorem State.writeMbx_busy {s : State} {m : Nat} {v : BitVec 32} {heth : Bool} (r : v.getLsbD 0 = true)
    (f : s.mboxFree m = false) (n : s.serving = false) : s.writeMbx m v heth = s.confined := by
  unfold State.writeMbx
  rw [if_pos r, State.ringBell_busy f n, ite_self]

theorem State.writeReqWord_rung {s : State} {m off : Nat} {v : BitVec 32} {heth : Bool} (r : (s.mbox m).req = true) :
    s.writeReqWord m off v heth = s.confined := by
  unfold State.writeReqWord
  rw [if_pos (Or.inl r)]

theorem State.writeWord_mailbox {s : State} {m : Nat} {v : BitVec 32} {heth : Bool} (l : m < 8) :
    s.writeWord (0x0100 + 4 * m) v heth = s.writeMbx m v heth := by
  unfold State.writeWord
  rw [if_pos (by omega), show (0x0100 + 4 * m - 0x0100) / 4 = m by omega]

theorem State.writeWord_request {s : State} {m w : Nat} {v : BitVec 32} {heth : Bool} (l : m < 8) (k : w < 64) :
    s.writeWord (0x1000 + 0x200 * m + 4 * w) v heth = s.writeReqWord m (4 * w) v heth := by
  unfold State.writeWord
  rw [if_neg (by omega), if_pos (by omega), show (0x1000 + 0x200 * m + 4 * w - 0x1000) / 0x200 = m by omega,
    show (0x1000 + 0x200 * m + 4 * w) % 0x200 = 4 * w by omega]

theorem not_isPort {a : Nat} (h : a < 0x0200 ∨ 0x0240 ≤ a) : isPort a = false := by
  unfold isPort
  rw [decide_eq_false_iff_not]
  omega

theorem execMailboxRelease_other {s : State} {m : Nat} {heth : Bool} (on : s.pwr.coreOn = true) (o : s.otherVia m heth = true) :
    execMailboxRelease m heth s = .next s.confined := by
  unfold execMailboxRelease
  rw [hostAct_on on, if_pos o]

/-- A request to a mailbox that is not free, or with an illegal header, moves of the time base the free-value counter. -/
theorem hostCmd_undefined_ticks {s t : State} {code : Nat} {h : Hdr} {p : Bytes} {serve : Bytes → State → Ans}
    (g : ∀ p s, Ticks s (serve p s).st) (u : s.mboxFree h.mbx = false ∨ hdrLegal h = false)
    (e : hostCmd code h p serve s = .next t) : Ticks s t := by
  unfold hostCmd at e
  rw [if_neg (show ¬ ((hdrLegal h && s.mboxFree h.mbx && reservedZero code p) = true) by
    rcases u with u | u <;> simp [u])] at e
  split at e
  · cases e
    exact .refl
  · split at e
    · cases e
      unfold State.undefinedRequest
      exact .ite (State.bump_ticks.trans (State.modMbox_ticks.trans (State.take_ticks g))) State.confined_ticks
    · cases e
      exact State.confined_ticks

end Sys2Proof.Machine

open Sys2Proof Sys2Proof.Machine

/-- Settles O53: each of the four host cases comes to `State.confined`, whatever the command. -/
theorem undefinedHostCasesStayInTheHostSpace : Obligations.UndefinedHostCasesStayInTheHostSpace := by
  intro s v _ on
  refine ⟨?_, fun a m => execRegisterWrite_misplaced on m, ?_⟩
  · intro i c
    have e : exec i s = .next s.confined := by
      rcases c with ⟨a, rfl, m⟩ | ⟨m, l, rfl, r, f, n⟩ | ⟨m, w, l, k, rfl, r⟩ | ⟨m, heth, rfl, o⟩
      · exact execRegisterWrite_misplaced on m
      · have w := execRegisterWrite_word (v := v) (heth := false) on (a := 0x0100 + 4 * m) (by omega) (not_isPort (by omega))
        rw [State.writeWord_mailbox l, State.writeMbx_busy r f n] at w
        exact w
      · have x := execRegisterWrite_word (v := v) (heth := false) on (a := 0x1000 + 0x200 * m + 4 * w) (by omega)
          (not_isPort (by omega))
        rw [State.writeWord_request l k, State.writeReqWord_rung r] at x
        exact x
      · exact execMailboxRelease_other on o
    exact ⟨_, e, State.confined_ticks, rfl, s.confined_words, s.confined_details, State.confined_keeps rfl .refl⟩
  · intro h p u
    obtain ⟨t, e⟩ := exec_completes (.identity h p) s
    refine ⟨t, e, hostCmd_undefined_ticks serveIdentity_ticks u e, exec_keeps _ _ _ e⟩
end

section
/-!
The host register space (19 Table 19.3): what each write, release and clear does, and what a stream read takes out.
-/

namespace Sys2Proof.Machine

/-! ### Pending and mask bits -/

/-- What a write of H_EV_CLEAR leaves pending (R460). -/
theorem State.clearEvents_bits {s : State} {hi : Bool} {v : BitVec 32} {n : Nat} (l : n < 64) :
    (s.clearEvents hi v).host.pend.getLsbD n =
      (s.host.pend.getLsbD n && !(decide (n / 32 = b2n hi) && v.getLsbD (n % 32))) := by
  change (s.host.pend &&& ~~~(v.zeroExtend 64 <<< (if hi then 32 else 0))).getLsbD n = _
  rw [BitVec.getLsbD_and, BitVec.getLsbD_not, BitVec.getLsbD_shiftLeft]
  congr 1
  rcases Nat.lt_or_ge n 32 with k | k
  · have e : n / 32 = 0 := by omega
    have r : n % 32 = n := by omega
    cases hi <;> simp [l, e, r, k, b2n]
  · have e : n / 32 = 1 := by omega
    have r : n % 32 = n - 32 := by omega
    have z : v.getLsbD n = false := BitVec.getLsbD_of_ge v n k
    cases hi
    · simp [l, e, z, b2n]
    · simp [l, e, r, b2n, Nat.not_lt.mpr k]
      omega

theorem getLsbD_highWord : ∀ n : Fin 64, BitVec.getLsbD 0xFFFFFFFF00000000#64 n = decide (32 ≤ n.val) := by decide

theorem getLsbD_lowWord : ∀ n : Fin 64, BitVec.getLsbD 0x00000000FFFFFFFF#64 n = decide (n.val < 32) := by decide

/-- What a write of the low word of H_EV_MASK leaves of the mask. -/
theorem State.writeMask_low_bits {s : State} {v : BitVec 32} {n : Nat} (l : n < 64) :
    (s.writeMask false v).host.mask.getLsbD n = if n < 32 then v.getLsbD n else s.host.mask.getLsbD n := by
  change (v.zeroExtend 64 ||| (s.host.mask &&& 0xFFFFFFFF00000000#64)).getLsbD n = _
  rw [BitVec.getLsbD_or, BitVec.getLsbD_and, getLsbD_highWord ⟨n, l⟩, BitVec.getLsbD_setWidth]
  by_cases k : n < 32
  · simp [l, k, Nat.not_le.mpr k]
  · simp [k, Nat.not_lt.mp k]

/-- What a write of the high word of H_EV_MASK leaves of the mask. -/
theorem State.writeMask_high_bits {s : State} {v : BitVec 32} {n : Nat} (l : n < 64) :
    (s.writeMask true v).host.mask.getLsbD n = if n < 32 then s.host.mask.getLsbD n else v.getLsbD (n - 32) := by
  change (v.zeroExtend 64 <<< 32 ||| (s.host.mask &&& 0x00000000FFFFFFFF#64)).getLsbD n = _
  rw [BitVec.getLsbD_or, BitVec.getLsbD_and, getLsbD_lowWord ⟨n, l⟩, BitVec.getLsbD_shiftLeft, BitVec.getLsbD_setWidth]
  by_cases k : n < 32
  · simp [k]
  · simp [l, k]
    omega

/-! ### Mailboxes and the heartbeat -/

/-- A mailbox released: RSP is 0, and a new HETH peer that waited for it is served. -/
theorem State.releaseMbox_space {s : State} {m : Nat} :
    (s.releaseMbox m).host = { s.host with mbx := (s.releaseMbox m).host.mbx, peerHold := (s.releaseMbox m).host.peerHold } := rfl

theorem State.releaseMbox_same {s : State} {m : Nat} (l : m < s.host.mbx.length) :
    (s.releaseMbox m).mbox m = { s.mbox m with rsp := false, via := ((s.releaseMbox m).mbox m).via } := by
  have e : (s.releaseMbox m).mbox m = { s.mbox m with rsp := false, via := if (s.mbox m).rsp then none else (s.mbox m).via } :=
    State.modMbox_same l
  rw [e]

theorem State.releaseMbox_other {s : State} {m n : Nat} (ne : n ≠ m) : (s.releaseMbox m).mbox n = s.mbox n :=
  State.modMbox_other (Ne.symm ne)

/-- A peer that waits for another mailbox waits on. -/
theorem State.releaseMbox_peerHold {s : State} {m : Nat} (ne : ∀ x, s.host.peerHold = some x → x.1 ≠ m) :
    (s.releaseMbox m).host.peerHold = s.host.peerHold := by
  change (match s.host.peerHold with | some x => if x.1 = m then none else some x | none => none) = s.host.peerHold
  cases e : s.host.peerHold with
  | none => rfl
  | some x => exact if_neg (ne x e)

/-- The effect of a heartbeat once READY (R463), before the event that the host is back. -/
def State.beaten (s : State) : State :=
  s.modHost (fun h => { h with
    wdDue := if s.pn ND_HOST_WD_TIMEOUT = 0 then none else some (s.clk.up + s.pn ND_HOST_WD_TIMEOUT * 1000000)
    beatFrame := some s.frm, hostLost := false })

theorem State.heartbeat_ready {s : State} (r : s.host.ready = true) :
    s.heartbeat = if s.host.hostLost then s.beaten.watchdogEvent 1 else s.beaten := if_pos r

/-- The heartbeat's own fields stand whether the host was lost or not; what an event adds is its queue and bit. -/
theorem State.heartbeat_space {s : State} (r : s.host.ready = true) :
    s.heartbeat.host = { s.beaten.host with events := s.heartbeat.host.events, pend := s.heartbeat.host.pend } := by
  rw [State.heartbeat_ready r]
  split <;> rfl

/-! ### The commands of a core die out of reset -/

theorem execMailboxRelease_own {s : State} {m : Nat} {heth : Bool} (on : s.pwr.coreOn = true) (o : s.otherVia m heth = false) :
    execMailboxRelease m heth s = .next (s.releaseMbox m) := by
  unfold execMailboxRelease
  rw [hostAct_on on, if_neg (by simp [o])]

theorem execEventClear_on {s : State} {hi : Bool} {v : BitVec 32} (on : s.pwr.coreOn = true) :
    execEventClear hi v s = .next (s.clearEvents hi v) := hostAct_on on

theorem execHeartbeat_on {s : State} {v : BitVec 32} (on : s.pwr.coreOn = true) : execHeartbeat v s = .next s.heartbeat :=
  hostAct_on on

theorem execStreamFlush_on {s : State} {k : Nat} {v : BitVec 32} (on : s.pwr.coreOn = true) :
    execStreamFlush k v s = .next (s.flushStream k v) := hostAct_on on

/-! ### Reads of a stream -/

theorem State.modStream_leaves {α : Type} {s : State} {k j : Nat} {f : Fifo → Fifo} (g : Fifo → α) (e : ∀ x, g (f x) = g x) :
    g ((s.modStream k f).stream j) = g (s.stream j) :=
  getD_upd (fun x => g x = g (s.stream j)) rfl fun _ h => (e _).trans h

/-- The poison event marks the frame in its stream and leaves the rest of every stream. -/
theorem State.poisonEvent_leaves {α : Type} {s : State} {k r j : Nat} (g : Fifo → α) (e : ∀ f x, g { f with poFrame := x } = g f) :
    g ((s.poisonEvent k r).stream j) = g (s.stream j) := by
  unfold State.poisonEvent
  split
  · rfl
  · exact State.modStream_leaves g (fun f => e f _)

theorem State.poisonEvent_other {s : State} {k r j : Nat} (ne : j ≠ k) : (s.poisonEvent k r).stream j = s.stream j := by
  unfold State.poisonEvent
  split
  · rfl
  · exact State.modStream_other (Ne.symm ne)

theorem State.poisonEvent_space {s : State} {k r : Nat} : (s.poisonEvent k r).host = { s.host with
    streams := (s.poisonEvent k r).host.streams, events := (s.poisonEvent k r).host.events
    pend := (s.poisonEvent k r).host.pend } := by
  unfold State.poisonEvent
  split <;> rfl

/-- What a stream read leaves where the event of a poisoned word follows it. -/
theorem State.poisonEvent_if {s : State} {k r : Nat} {c : Bool} :
    (∀ j, ((if c then s.poisonEvent k r else s).stream j).words = (s.stream j).words) ∧
      (∀ j, ((if c then s.poisonEvent k r else s).stream j).rptr = (s.stream j).rptr) ∧
      (∀ j, ((if c then s.poisonEvent k r else s).stream j).poison = (s.stream j).poison) ∧
      (if c then s.poisonEvent k r else s).host = { s.host with
        streams := (if c then s.poisonEvent k r else s).host.streams, events := (if c then s.poisonEvent k r else s).host.events
        pend := (if c then s.poisonEvent k r else s).host.pend } ∧
      (c = false → (if c then s.poisonEvent k r else s) = s) := by
  cases c with
  | false => exact ⟨fun _ => rfl, fun _ => rfl, fun _ => rfl, rfl, fun _ => rfl⟩
  | true =>
    exact ⟨fun j => State.poisonEvent_leaves Fifo.words fun _ _ => rfl, fun j => State.poisonEvent_leaves Fifo.rptr fun _ _ => rfl,
      fun j => State.poisonEvent_leaves Fifo.poison fun _ _ => rfl, State.poisonEvent_space, fun n => absurd n (by decide)⟩

/-- The FIFO that a stream read leaves takes the place of its stream's. -/
def State.drained (s : State) (k : Nat) (bad : Bool) : State := s.modStream k (fun _ => (s.streamRead k bad).2.2)

/-- What a stream read comes to: the words of `State.streamRead`, its FIFO, and the event of a poisoned word. -/
theorem execStreamPortRead_reads {s : State} {k : Nat} {bad : Bool} (on : s.pwr.coreOn = true) (l : k < 4) :
    ∃ r, execStreamPortRead k bad s = .next
      ((if (s.streamRead k bad).2.1.testBit 0 then (s.drained k bad).poisonEvent k r else s.drained k bad).modHost (fun h =>
        { h with lastRead := le 4 (s.streamRead k bad).1 ++ [byteOf (s.streamRead k bad).2.1] })) :=
  ⟨_, (hostAct_on on).trans (congrArg Host.Outcome.next (if_pos l))⟩

/-- The FIFO left by the read of its oldest word. -/
theorem State.streamRead_rest {s : State} {k w : Nat} {bad last b : Bool} {ws : List (Nat × Bool × Bool)}
    (held : s.streamHeld k = false) (h : (s.stream k).words = (w, last, b) :: ws) :
    (s.streamRead k bad).2.2.words = ws ∧ (s.streamRead k bad).2.2.rptr = wrapInc (streamBits k + 1) (s.stream k).rptr ∧
      (s.streamRead k bad).2.2.poison = ((s.stream k).poison || (bad || b)) := by
  unfold State.streamRead
  rw [held]
  cases bad with
  | false =>
    unfold fifoRead
    rw [if_neg Bool.false_ne_true, h]
    exact ⟨rfl, rfl, rfl⟩
  | true =>
    unfold fifoRead
    rw [if_pos rfl, Fifo.spoil_cons h]
    exact ⟨rfl, rfl, rfl⟩

/-- The FIFO and the word of a read that finds nothing to deliver. -/
theorem State.streamRead_empty {s : State} {k : Nat} {bad : Bool}
    (h : (s.stream k).words = [] ∨ s.streamHeld k = true ∧ bad = false) :
    (s.streamRead k bad).1 = (s.stream k).lastWord ∧ (s.streamRead k bad).2.1 = 2 ∧
      (s.streamRead k bad).2.2.underrun = true ∧ (s.streamRead k bad).2.2.words = (s.stream k).words ∧
      (s.streamRead k bad).2.2.rptr = (s.stream k).rptr := by
  unfold State.streamRead fifoRead
  rcases h with e | ⟨e, rfl⟩
  · cases bad with
    | false => simp [e]
    | true => simp [Fifo.spoil, e]
  · simp [e]

/-! ### Register writes by address -/

theorem State.writeWord_register {s : State} {a : Nat} {v : BitVec 32} {heth : Bool} (l : a < 0x0100 ∨ 0x0120 ≤ a ∧ a < 0x1000) :
    s.writeWord a v heth = s.regWrite a v := by
  unfold State.writeWord
  rw [if_neg (by omega), if_neg (by omega)]

/-- A write of a register without a mailbox, over either interface. -/
theorem execRegisterWrite_register {s : State} {a : Nat} {v : BitVec 32} {heth : Bool} (on : s.pwr.coreOn = true)
    (al : a % 4 = 0) (l : a < 0x0100 ∨ 0x0120 ≤ a ∧ a < 0x0200) : exec (.registerWrite a v heth) s = .next (s.regWrite a v) :=
  (execRegisterWrite_word on al (not_isPort (by omega))).trans (by rw [State.writeWord_register (by omega)])

theorem State.regWrite_gap {s : State} {a : Nat} {v : BitVec 32} (g : 0x0124 ≤ a) (l : a < 0x0200) : s.regWrite a v = s := by
  unfold State.regWrite
  rw [if_neg, if_neg, if_neg, if_neg, if_neg, if_neg, if_neg, if_neg, if_neg, if_neg] <;> omega

end Sys2Proof.Machine

open Sys2Proof Sys2Proof.Machine

/-- Settles O11: each command is the register's one effect on the host space of a core die out of reset. -/
theorem hostPortCommandsComplete : Obligations.HostPortCommandsComplete := by
  intro s snd
  refine ⟨?release, ?clear, ?beat, ?frameLo, ?port, ?empty, ?noFlush, ?flush, ?write, ?error, fun _ => rfl⟩
  case release =>
    intro m heth on l o
    exact ⟨_, execMailboxRelease_own on o, State.releaseMbox_same (by rw [snd.host.boxes]; exact l),
      fun n ne => State.releaseMbox_other ne, rfl, fun ne => State.releaseMbox_peerHold ne, State.releaseMbox_keeps rfl .refl⟩
  case clear =>
    intro hi v on
    exact ⟨_, execEventClear_on on, rfl, fun n l => State.clearEvents_bits l, State.clearEvents_keeps rfl .refl⟩
  case beat =>
    intro v on r
    have sp := State.heartbeat_space r
    refine ⟨_, execHeartbeat_on (v := v) on, by rw [sp]; rfl, by rw [sp]; rfl, by rw [sp]; rfl, by rw [sp]; rfl, fun lost => ?_, State.heartbeat_keeps rfl .refl⟩
    rw [State.heartbeat_ready r, lost]
    exact ⟨rfl, rfl⟩
  case frameLo =>
    intro on
    change execFrameLoRead s = _
    unfold execFrameLoRead
    rw [hostAct_on on]
    rfl
  case port =>
    intro k bad last b w ws on l held h
    obtain ⟨r, e⟩ := execStreamPortRead_reads (bad := bad) on l
    obtain ⟨word, tag⟩ := State.streamRead_oldest (bad := bad) held h
    obtain ⟨words, rptr, poison⟩ := State.streamRead_rest (bad := bad) held h
    have bit : (s.streamRead k bad).2.1.testBit 0 = (bad || b) := by
      rw [tag]
      exact (tag_bits _ _).1
    have same : (s.drained k bad).stream k = (s.streamRead k bad).2.2 :=
      State.modStream_same (by rw [snd.host.fifos]; exact l)
    have other : ∀ j, j ≠ k → (s.drained k bad).stream j = s.stream j := fun j ne => State.modStream_other (Ne.symm ne)
    obtain ⟨w', r', p', sp, quiet⟩ := State.poisonEvent_if (s := s.drained k bad) (k := k) (r := r)
      (c := (s.streamRead k bad).2.1.testBit 0)
    refine ⟨_, e, ?_, (w' k).trans ((congrArg Fifo.words same).trans words), (r' k).trans ((congrArg Fifo.rptr same).trans rptr),
      (p' k).trans ((congrArg Fifo.poison same).trans poison), ?_, fun c => ?_, fun j ne => ?_, ?_⟩
    · rw [← word, ← tag]
      rfl
    · rw [State.modHost_host, sp]
      rfl
    · rw [State.modHost_host, quiet (bit.trans c)]
      exact ⟨rfl, rfl⟩
    · refine Eq.trans ?_ (other j ne)
      change State.stream (if _ then _ else _) j = _
      split
      · exact State.poisonEvent_other ne
      · rfl
    · exact State.modHost_keeps rfl (.ite (State.poisonEvent_keeps rfl (State.modStream_keeps rfl .refl))
        (State.modStream_keeps rfl .refl))
  case empty =>
    intro k bad on l h
    obtain ⟨r, e⟩ := execStreamPortRead_reads (bad := bad) on l
    obtain ⟨word, tag, under, words, rptr⟩ := State.streamRead_empty h
    have same : (s.drained k bad).stream k = (s.streamRead k bad).2.2 :=
      State.modStream_same (by rw [snd.host.fifos]; exact l)
    rw [word, tag, if_neg (by decide)] at e
    exact ⟨_, e, rfl, (congrArg Fifo.underrun same).trans under, (congrArg Fifo.words same).trans words,
      (congrArg Fifo.rptr same).trans rptr, rfl, fun j ne => State.modStream_other (Ne.symm ne),
      State.modHost_keeps rfl (State.modStream_keeps rfl .refl)⟩
  case noFlush =>
    intro k v on z
    exact (execStreamFlush_on on).trans (congrArg Host.Outcome.next (if_neg (fun c => by rw [c.2] at z; cases z)))
  case flush =>
    intro k v on l o
    have e : execStreamFlush k v s = .next (s.modStream k (Fifo.flush (streamBits k))) :=
      (execStreamFlush_on on).trans (congrArg Host.Outcome.next (if_pos ⟨l, o⟩))
    have same : (s.modStream k (Fifo.flush (streamBits k))).stream k = (s.stream k).flush (streamBits k) :=
      State.modStream_same (by rw [snd.host.fifos]; exact l)
    have words := congrArg Fifo.words same
    refine ⟨_, e, words, fun x m => drop_lastUnit_open (by rw [words] at m; exact m), congrArg Fifo.lastWord same,
      fun j ne => State.modStream_other (Ne.symm ne), rfl, State.modStream_keeps rfl .refl⟩
  case write =>
    intro v heth on
    have reg : ∀ a, a % 4 = 0 → (a < 0x0100 ∨ 0x0120 ≤ a ∧ a < 0x0200) → exec (.registerWrite a v heth) s = .next (s.regWrite a v) :=
      fun a al l => execRegisterWrite_register on al l
    have keep : ∀ hi, Keeps [.host] s (s.writeMask hi v) := fun _ => State.writeMask_keeps rfl .refl
    refine ⟨reg 0x0038 rfl (by omega), reg 0x0028 rfl (by omega), ⟨_, reg 0x0018 rfl (by omega), rfl, ?_, keep false⟩,
      ⟨_, reg 0x001C rfl (by omega), rfl, ?_, keep true⟩, ?_, ?_, ?_, reg 0x003C rfl (by omega), ?_⟩
    · exact fun n l => State.writeMask_low_bits l
    · exact fun n l => State.writeMask_high_bits l
    · exact (reg 0x0020 rfl (by omega)).trans (execEventClear_on on).symm
    · exact (reg 0x0024 rfl (by omega)).trans (execEventClear_on on).symm
    · exact (reg 0x002C rfl (by omega)).trans (execHeartbeat_on (v := v) on).symm
    · exact fun a al g l => (reg a al (by omega)).trans (congrArg Host.Outcome.next (State.regWrite_gap g l))
  case error =>
    intro short on
    change execQspiTransactionError short s = _
    unfold execQspiTransactionError
    rw [hostAct_on on]
    cases short <;> simp
end

section
/-!
Requests and answers in parts (20 R469, R470), and datagrams over HETH (19 R447–R449).
-/

namespace Sys2Proof.Machine

/-! ### What work on one mailbox leaves -/

/-- Only mailbox `m` may differ. -/
structure OnlyBox (m : Nat) (s x : State) : Prop where
  rest : x = { s with host := { s.host with mbx := x.host.mbx } }
  boxes : ∀ n, n ≠ m → x.mbox n = s.mbox n
  count : x.host.mbx.length = s.host.mbx.length

theorem State.modMbox_onlyBox {m : Nat} {s : State} {f : Mailbox → Mailbox} : OnlyBox m s (s.modMbox m f) :=
  ⟨rfl, fun _ ne => State.modMbox_other (Ne.symm ne), sized_upd rfl⟩

theorem OnlyBox.trans {m : Nat} {s x y : State} (h : OnlyBox m s x) (g : OnlyBox m x y) : OnlyBox m s y where
  rest := by rw [g.rest, h.rest]
  boxes := fun n ne => (g.boxes n ne).trans (h.boxes n ne)
  count := g.count.trans h.count

theorem OnlyBox.clk {m : Nat} {s x : State} (h : OnlyBox m s x) : x.clk = s.clk := by
  rw [h.rest]

theorem OnlyBox.host {m : Nat} {s x : State} (h : OnlyBox m s x) : x.host = { s.host with mbx := x.host.mbx } := by
  rw [h.rest]

theorem OnlyBox.keeps {m : Nat} {s x : State} (h : OnlyBox m s x) : Keeps [.host] s x := by
  rw [h.rest]
  exact State.modHost_keeps (f := fun y => { y with mbx := x.host.mbx }) rfl .refl

/-- A response posted after work on its mailbox alone, with status 0. -/
theorem OnlyBox.readOnly {s x : State} {h : Hdr} {code : Nat} {body : Bytes} (o : OnlyBox h.mbx s x) :
    ReadOnly s (x.post h.mbx code h.tag 0 body) h := by
  have v : Served s x (x.post h.mbx code h.tag 0 body) h := State.post_served
  refine ⟨⟨State.post_keeps rfl (o.keeps.mono rfl), ?_, ?_, fun m ne => (v.boxes m ne).trans (o.boxes m ne)⟩, ?_, fun e ne => ?_,
    fun e ne => ?_⟩
  · rw [v.counter, o.clk]
  · rw [v.space, o.host]
  · rw [v.streams, o.host]
  · rw [State.post_events (by simpa using ne), o.host]
  · rw [State.post_pend (by simpa using ne), o.host]

/-- What the post of a response leaves in its mailbox of the parts held. -/
theorem State.post_held {s : State} {m code tag status : Nat} {b : Bytes} (l : m < s.host.mbx.length) :
    ((s.post m code tag status b).mbox m).held = (s.mbox m).held ∧
      ((s.post m code tag status b).mbox m).answer = (s.mbox m).answer := by
  rw [State.post_mbox l]
  exact ⟨rfl, rfl⟩

/-- Parts of a request held after work on its mailbox alone. -/
theorem OnlyBox.holds {s x : State} {h : Hdr} {code : Nat} {d : Held} (o : OnlyBox h.mbx s x) (b : s.host.mbx.length = 8)
    (m : h.mbx < 8) (tag : h.tag < 65536) :
    (let t := (x.modMbox h.mbx (fun b => { b with held := some d })).post h.mbx code h.tag 0 []
     Answered t code h 0 [] ∧ (t.mbox h.mbx).held = some d ∧ (t.mbox h.mbx).answer = (x.mbox h.mbx).answer ∧ ReadOnly s t h) := by
  have len : (x.modMbox h.mbx (fun b => { b with held := some d })).host.mbx.length = 8 := sized_upd (o.count.trans b)
  have same : (x.modMbox h.mbx (fun b => { b with held := some d })).mbox h.mbx = { x.mbox h.mbx with held := some d } :=
    State.modMbox_same (by rw [o.count, b]; exact m)
  obtain ⟨held, answer⟩ := State.post_held (s := x.modMbox h.mbx (fun b => { b with held := some d })) (m := h.mbx) (code := code)
    (tag := h.tag) (status := 0) (b := []) (by rw [len]; exact m)
  exact ⟨State.post_answered len m tag, held.trans (by rw [same]), answer.trans (by rw [same]),
    (o.trans State.modMbox_onlyBox).readOnly⟩

theorem State.dropped_answer {s : State} {m : Nat} (l : m < s.host.mbx.length) :
    (((s.dropAnswer m).dropHeld m).mbox m).answer = none := by
  unfold State.dropHeld State.dropAnswer
  rw [State.modMbox_same (by rw [State.modMbox_onlyBox.count]; exact l), State.modMbox_same l]

/-! ### A request with PART or MORE -/

/-- A taken request with other flags below 512 is written and run under them. -/
theorem hostRequest_flags {s : State} {code f : Nat} {h : Hdr} {p : Bytes} (k : Taken s code h p) (l : f < 512) :
    hostRequest { h with flags := f } code p s =
      .next ((s.writeReq code { h with flags := f } p).take code { h with flags := f } p (fun p s => serveOf { h with flags := f } code p s)) := by
  have legal : hdrLegal { h with flags := f } = true := by simp [hdrLegal, k.mbx, k.tag, Nat.div_eq_of_lt l]
  unfold hostRequest hostCmd
  rw [if_neg (by rw [k.core]; decide), if_pos (by simp [legal, k.free, k.reserved]), if_pos k.serving]

theorem State.writeReq_mbox {s : State} {code : Nat} {h : Hdr} {p : Bytes} (l : h.mbx < s.host.mbx.length) :
    ((s.writeReq code h p).mbox h.mbx).held = (s.mbox h.mbx).held ∧
      ((s.writeReq code h p).mbox h.mbx).answer = (s.mbox h.mbx).answer := by
  unfold State.writeReq
  rw [State.modMbox_same l]
  exact ⟨rfl, rfl⟩

/-- A first part with MORE is held, and an older answer goes (R469). -/
theorem State.take_first {s : State} {code : Nat} {h : Hdr} {p : Bytes} {serve : Bytes → State → Ans} (fits : p.length ≤ 248)
    (part : hdrPart h = 0) (more : hdrMore h = true) : s.take code h p serve =
      (((s.dropAnswer h.mbx).dropHeld h.mbx).modMbox h.mbx (fun b => { b with held := some ⟨code, h.tag, [p]⟩ })).post
        h.mbx code h.tag 0 [] := by
  unfold State.take
  rw [if_neg (by omega), if_pos part]
  exact if_pos more

/-- The next part in order with MORE is held behind those before it (R469). -/
theorem State.take_next {s : State} {code : Nat} {h : Hdr} {p : Bytes} {ds : List Bytes} {serve : Bytes → State → Ans}
    (fits : p.length ≤ 248) (some : hdrPart h ≠ 0) (held : (s.mbox h.mbx).held = .some ⟨code, h.tag, ds⟩)
    (part : hdrPart h = ds.length) (l : ds.length < 31) (more : hdrMore h = true) : s.take code h p serve =
      (s.modMbox h.mbx (fun b => { b with held := .some ⟨code, h.tag, ds ++ [p]⟩ })).post h.mbx code h.tag 0 [] := by
  unfold State.take
  rw [if_neg (by omega), if_neg some, held]
  dsimp only
  rw [if_pos ⟨rfl, rfl, part, by omega, by omega⟩, if_pos more]

/-- The last part runs the command on the joined payload (R469). -/
theorem State.take_last {s : State} {code : Nat} {h : Hdr} {p : Bytes} {ds : List Bytes} {serve : Bytes → State → Ans}
    (fits : p.length ≤ 248) (some : hdrPart h ≠ 0) (held : (s.mbox h.mbx).held = .some ⟨code, h.tag, ds⟩)
    (part : hdrPart h = ds.length) (l : ds.length < 32) (more : hdrMore h = false) (normal : s.fw.recovery = false) :
    s.take code h p serve = (serve (ds.flatten ++ p) (s.dropHeld h.mbx)).send h code := by
  have run : loaderOnly code serve (ds.flatten ++ p) (s.dropHeld h.mbx) = serve (ds.flatten ++ p) (s.dropHeld h.mbx) := by
    have n : (s.dropHeld h.mbx).fw.recovery = false := normal
    unfold loaderOnly
    rw [if_neg (by simp [n])]
  unfold State.take
  rw [if_neg (by omega), if_neg some, held]
  dsimp only
  rw [if_pos ⟨rfl, rfl, part, by omega, by simp [more]⟩, if_neg (by simp [more]), run]

/-- A part of the answer asked for, with no part of a request held (R470). -/
theorem State.take_answerPart {s : State} {code : Nat} {h : Hdr} {p : Bytes} {ps : List Bytes} {serve : Bytes → State → Ans}
    (fits : p.length ≤ 248) (some : hdrPart h ≠ 0) (held : (s.mbox h.mbx).held = none) (more : hdrMore h = false)
    (answer : (s.mbox h.mbx).answer = .some ⟨code, h.tag, ps⟩) (l : hdrPart h < ps.length) : s.take code h p serve =
      s.post h.mbx code h.tag 0 ([byteOf (hdrPart h), byteOf ps.length] ++ ps.getD (hdrPart h) []) := by
  unfold State.take
  rw [if_neg (by omega), if_neg some, held]
  dsimp only
  rw [if_neg (by simp [more])]
  unfold State.answerPart
  rw [answer]
  exact if_pos ⟨rfl, rfl, l⟩

theorem dropParts_onlyBox {s : State} {m : Nat} : OnlyBox m s ((s.dropAnswer m).dropHeld m) :=
  State.modMbox_onlyBox.trans State.modMbox_onlyBox

theorem State.writeReq_onlyBox {s : State} {code : Nat} {h : Hdr} {p : Bytes} : OnlyBox h.mbx s (s.writeReq code h p) :=
  State.modMbox_onlyBox

theorem part_of_flags {f mbx tag : Nat} {heth : Bool} (l : f < 256) :
    hdrPart ⟨mbx, tag, f, heth⟩ = f ∧ hdrMore ⟨mbx, tag, f, heth⟩ = false := by
  refine ⟨Nat.mod_eq_of_lt l, ?_⟩
  exact Nat.testBit_lt_two_pow l

theorem part_of_more {f mbx tag : Nat} {heth : Bool} (l : f < 256) :
    hdrPart ⟨mbx, tag, f + 256, heth⟩ = f ∧ hdrMore ⟨mbx, tag, f + 256, heth⟩ = true := by
  refine ⟨?_, ?_⟩
  · change (f + 256) % 256 = f
    omega
  · change (f + 256).testBit 8 = true
    rw [Nat.testBit_eq_decide_div_mod_eq, decide_eq_true_eq]
    omega

/-- The flags of a request part: MORE is set besides its PART. -/
theorem execRequestPart_flags {s : State} {code f : Nat} {h : Hdr} {p : Bytes} (l : f < 256) :
    exec (.requestPart { h with flags := f } code p) s = hostRequest { h with flags := f + 256 } code p s := by
  change hostRequest { h with flags := f % 256 + 256 * (1 + f / 512 * 2) } code p s = _
  rw [show f % 256 + 256 * (1 + f / 512 * 2) = f + 256 by omega]

/-- The flags of a request for a part of an answer: MORE is clear. -/
theorem execResponsePartRead_flags {s : State} {code f : Nat} {h : Hdr} {p : Bytes} (l : f < 256) :
    exec (.responsePartRead { h with flags := f } code p) s = hostRequest { h with flags := f } code p s := by
  change hostRequest { h with flags := f % 256 + 512 * (f / 512) } code p s = _
  rw [show f % 256 + 512 * (f / 512) = f by omega]

/-! ### Datagrams -/

/-- No reply to this datagram is kept. -/
def State.fresh (s : State) (g : Datagram) : Prop := ∀ r ∈ s.host.replies, r.src = g.src → r.port = g.port → r.seq ≠ g.seq

theorem State.fresh_any {s : State} {g : Datagram} (n : s.fresh g) (t : Nat) :
    s.host.replies.any (fun r => r.src == g.src && r.port == g.port && r.seq == g.seq && decide (t < r.due)) = false := by
  rw [List.any_eq_false]
  intro r m c
  simp only [Bool.and_eq_true, beq_iff_eq] at c
  exact n r m c.1.1.1 c.1.1.2 c.1.2

/-- A datagram of a permitted source that is not answered from the copy. -/
theorem execHethDatagram_new {s : State} {u : Nat} {g : Datagram} (on : s.pwr.coreOn = true) (toMe : (g.dst, g.dport) = s.listens)
    (src : s.peer = 0 ∨ g.src = s.peer) (n : s.fresh g) : exec (.hethDatagram u g) s =
      .next (if (s.at u).hethStatus g ≠ 0 then
          ((s.at u).bump.modHost (fun h => { h with hethRefused := true })).hethReply g ((s.at u).hethStatus g) []
        else
          (if g.op = 1 then ((s.at u).hethRun g).2.modHost (fun h => { h with lastRead := ((s.at u).hethRun g).1 })
            else ((s.at u).hethRun g).2).hethReply g 0 ((s.at u).hethRun g).1) := by
  have off : ¬ ((s.at u).pwr.coreOn = false ∨ (g.dst, g.dport) ≠ (s.at u).listens) := by
    rintro (c | c)
    · exact absurd (on.symm.trans c) (by decide)
    · exact c toMe
  have far : ¬ ((s.at u).peer ≠ 0 ∧ g.src ≠ (s.at u).peer) := by
    rintro ⟨a, b⟩
    exact src.elim a b
  have kept : ¬ ((s.at u).host.replies.any
      (fun r => r.src == g.src && r.port == g.port && r.seq == g.seq && decide ((s.at u).clk.up < r.due)) = true) := by
    rw [State.fresh_any (s := s.at u) n]
    decide
  change execHethDatagram u g s = _
  unfold execHethDatagram
  dsimp only
  rw [if_neg off, if_neg far, if_neg kept]
  split <;> rfl

theorem State.hethStatus_scratch {s : State} {g : Datagram} (op : g.op = 1 ∨ g.op = 2) (a : g.addr = 0x0038) (l : g.len = 4)
    (d : g.op = 2 → g.data.length = 4) : s.hethStatus g = 0 := by
  have port : isPort g.addr = false := by rw [a]; decide
  have range : rangeOf g.addr = rangeOf (g.addr + g.len - 1) := by rw [a, l]; decide
  unfold State.hethStatus
  rw [if_neg (by omega), if_neg (by rintro (c | c | c | c) <;> omega), if_neg (by simp [port]), if_neg (by omega), if_neg (by simpa using range)]

/-- H_SCRATCH written by a datagram. -/
theorem State.hethRun_write {s : State} {g : Datagram} (op : g.op = 2) (a : g.addr = 0x0038) (l : g.len = 4) :
    s.hethRun g = ([], s.modHost (fun h => { h with scratch := BitVec.ofNat 32 (fld g.data 0 4) })) := by
  unfold State.hethRun
  rw [if_neg (by omega), l, a]
  refine congrArg (Prod.mk []) ?_
  change s.writeWord 0x0038 (BitVec.ofNat 32 (fld g.data 0 4)) true = _
  rw [State.writeWord_register (by omega)]
  rfl

/-- H_SCRATCH read by a datagram. -/
theorem State.hethRun_read {s : State} {g : Datagram} (op : g.op = 1) (a : g.addr = 0x0038) (l : g.len = 4) :
    s.hethRun g = (le 4 s.host.scratch.toNat, s) := by
  have port : isPort g.addr = false := by rw [a]; decide
  have foreign : s.foreignResponse g.addr = false := by rw [a]; rfl
  unfold State.hethRun
  rw [if_pos op, if_neg (by simp [port]), if_neg (by simp [foreign]), l, a]
  dsimp only
  rw [if_neg (by omega)]
  rfl

end Sys2Proof.Machine

open Sys2Proof Sys2Proof.Machine

/-- Settles O12: parts by the four cases of `State.take`, datagrams by `execHethDatagram_new`. -/
theorem requestPartsAndDatagramsComplete : Obligations.RequestPartsAndDatagramsComplete := by
  intro s snd
  refine ⟨?first, ?next, ?last, ?part, ?drop, ?refused, ?write, ?read⟩
  case first =>
    intro h code p k
    have flags : exec (.requestPart h code p) s = hostRequest { h with flags := 0 + 256 } code p s := by
      rw [← execRequestPart_flags (h := h) (f := 0) (by omega), ← k.flags]
    obtain ⟨part, more⟩ := part_of_more (f := 0) (mbx := h.mbx) (tag := h.tag) (heth := h.heth) (by omega)
    rw [hostRequest_flags k (by omega), State.take_first k.fits part more] at flags
    dsimp only at flags
    have w : OnlyBox h.mbx s (s.writeReq code { h with flags := 0 + 256 } p) :=
      State.writeReq_onlyBox (h := { h with flags := 0 + 256 })
    obtain ⟨a, held, answer, r⟩ := (w.trans dropParts_onlyBox).holds (d := ⟨code, h.tag, [p]⟩) snd.host.boxes k.mbx k.tag
    exact ⟨_, flags, a, held, answer.trans (State.dropped_answer (by rw [w.count, snd.host.boxes]; exact k.mbx)), r⟩
  case next =>
    intro h code p d ds k l held
    obtain ⟨part, more⟩ := part_of_more (f := ds.length + 1) (mbx := h.mbx) (tag := h.tag) (heth := h.heth) (by omega)
    have w := State.writeReq_mbox (code := code) (h := { h with flags := ds.length + 1 + 256 }) (p := p)
      (lt_of_lt_of_eq k.mbx snd.host.boxes.symm)
    have e := execRequestPart_flags (s := s) (code := code) (h := h) (p := p) (f := ds.length + 1) (by omega)
    rw [hostRequest_flags k (by omega), State.take_next (ds := d :: ds) k.fits (by rw [part]; omega) (w.1.trans held) part
      (by rw [List.length_cons]; omega) more] at e
    dsimp only at e
    have o : OnlyBox h.mbx s (s.writeReq code { h with flags := ds.length + 1 + 256 } p) :=
      State.writeReq_onlyBox (h := { h with flags := ds.length + 1 + 256 })
    obtain ⟨a, kept, -, r⟩ := o.holds (d := ⟨code, h.tag, d :: ds ++ [p]⟩) snd.host.boxes k.mbx k.tag
    exact ⟨_, e, a, kept, r⟩
  case last =>
    intro h code p d ds k l held
    obtain ⟨part, more⟩ := part_of_flags (f := ds.length + 1) (mbx := h.mbx) (tag := h.tag) (heth := h.heth) (by omega)
    have w := State.writeReq_mbox (code := code) (h := { h with flags := ds.length + 1 }) (p := p)
      (lt_of_lt_of_eq k.mbx snd.host.boxes.symm)
    dsimp only
    rw [execResponsePartRead_flags (by omega), hostRequest_flags k (by omega), State.take_last (ds := d :: ds) k.fits
      (by rw [part]; omega) (w.1.trans held) part (by rw [List.length_cons]; omega) more k.normal]
  case part =>
    intro h code n p ps k pos l inside held answer
    obtain ⟨part, more⟩ := part_of_flags (f := n) (mbx := h.mbx) (tag := h.tag) (heth := h.heth) l
    have w := State.writeReq_mbox (code := code) (h := { h with flags := n }) (p := p) (lt_of_lt_of_eq k.mbx snd.host.boxes.symm)
    have e := execResponsePartRead_flags (s := s) (code := code) (h := h) (p := p) l
    rw [hostRequest_flags k (by omega), State.take_answerPart k.fits (by rw [part]; omega) (w.1.trans held) more
      (w.2.trans answer) (by rw [part]; exact inside), part] at e
    dsimp only at e
    have o : OnlyBox h.mbx s (s.writeReq code { h with flags := n } p) :=
      State.writeReq_onlyBox (h := { h with flags := n })
    have len := o.count.trans snd.host.boxes
    exact ⟨_, e, State.post_answered len k.mbx k.tag,
      (State.post_held (lt_of_lt_of_eq k.mbx len.symm)).2.trans (w.2.trans answer), o.readOnly⟩
  case drop =>
    intro u g on toMe p src
    change execHethDatagram u g s = _
    unfold execHethDatagram
    dsimp only
    have off : ¬ ((s.at u).pwr.coreOn = false ∨ (g.dst, g.dport) ≠ (s.at u).listens) := by
      rintro (c | c)
      · exact absurd (on.symm.trans c) (by decide)
      · exact c toMe
    rw [if_neg off, if_pos ⟨p, src⟩]
  case refused =>
    intro u g on toMe src n r w
    have st : (s.at u).hethStatus g = 4 := if_pos ⟨r, w⟩
    have e := execHethDatagram_new (u := u) on toMe src n
    rw [st, if_pos (by decide)] at e
    exact ⟨_, e, rfl, ⟨_, rfl, by rw [List.append_nil]; rfl, rfl⟩, rfl,
      State.hethReply_keeps rfl (State.modHost_keeps rfl (State.bump_keeps rfl (State.at_keeps rfl .refl)))⟩
  case write =>
    intro u g on toMe src n op a l d
    have st : (s.at u).hethStatus g = 0 := State.hethStatus_scratch (.inr op) a l fun _ => d
    have e := execHethDatagram_new (u := u) on toMe src n
    rw [st, if_neg (by decide), State.hethRun_write op a l, if_neg (by omega)] at e
    dsimp only at e
    refine ⟨_, e, rfl, ⟨_, rfl, ?_, rfl⟩, rfl, State.hethReply_keeps rfl (State.modHost_keeps rfl (State.at_keeps rfl .refl))⟩
    rw [op, a, l, List.append_nil]
  case read =>
    intro u g on toMe src n op a l
    have st : (s.at u).hethStatus g = 0 := State.hethStatus_scratch (.inl op) a l fun c => by omega
    have e := execHethDatagram_new (u := u) on toMe src n
    rw [st, if_neg (by decide), State.hethRun_read op a l, if_pos op] at e
    dsimp only at e
    refine ⟨_, e, rfl, ⟨_, rfl, ?_, rfl⟩, rfl, State.hethReply_keeps rfl (State.modHost_keeps rfl (State.at_keeps rfl .refl))⟩
    rw [op, a, l]
    rfl
end

section
/-!
The test window (23 Table 23.1): what an allowed write sets, field by field, what CLEAR and the timeout leave, and a held message.
-/

namespace Sys2Proof.Machine

/-- A field written into a register of its width: the new value inside its range, else the old one (R521). -/
theorem toNat_ofNat_fieldOr {w hi new old : Nat} (n : new < 2 ^ w) (o : old < 2 ^ w) :
    (BitVec.ofNat w (fieldOr 0 hi new old)).toNat = if new ≤ hi then new else old := by
  have e : fieldOr 0 hi new old = if new ≤ hi then new else old := by
    unfold fieldOr
    simp
  rw [e, BitVec.toNat_ofNat, Nat.mod_eq_of_lt]
  split <;> assumption

theorem State.testWrite_allowed {s : State} {k : Nat} {f : TestRegs → TestRegs} (u : s.test.unlocked = true)
    (a : (s.pn ND_TEST_ALLOW).testBit k = true) : s.testWrite k f = s.testTouched.setTest (f s.test.regs) 0 := by
  simp [State.testWrite, u, a]

/-- What an allowed write comes to: the register's new value, and the timeout started again. -/
theorem State.testWrite_sets {s : State} {k : Nat} {f : TestRegs → TestRegs} (u : s.test.unlocked = true)
    (a : (s.pn ND_TEST_ALLOW).testBit k = true) : (s.testWrite k f).test.regs = f s.test.regs ∧
      (s.testWrite k f).test.due = some (s.clk.up + s.pn ND_TEST_TIMEOUT * 1000000000) ∧
      Keeps [.host, .test, .eng, .sw] s (s.testWrite k f) := by
  refine ⟨State.testWrite_regs u a, ?_, State.testWrite_keeps rfl .refl⟩
  rw [State.testWrite_allowed u a, State.setTest_test]
  rfl

theorem State.testClear_clears {s : State} {v : BitVec 32} (u : s.test.unlocked = true) (c : v.getLsbD 1 = true) :
    s.testClear v = s.testTouched.setTest TestRegs.reset 1 := by
  unfold State.testClear
  rw [if_pos u, if_pos c]

theorem State.testClear_touches {s : State} {v : BitVec 32} (u : s.test.unlocked = true) (c : v.getLsbD 1 = false) :
    s.testClear v = s.testTouched := by
  unfold State.testClear
  rw [if_pos u, c]
  rfl

/-! ### The fields of a stretch word -/

theorem bitsAt_stretchWord_cycles {en : Bool} {fret cycles : Nat} (hf : fret < 2 ^ 8) (hc : cycles < 2 ^ 12) :
    bitsAt (stretchWord en fret cycles) 0 12 = cycles := by
  have hb : b2n en ≤ 1 := by cases en <;> decide
  rw [bitsAt, stretchWord, BitVec.toNat_ofNat]
  omega

theorem stretchWord_en {en : Bool} {fret cycles : Nat} (hf : fret < 2 ^ 8) (hc : cycles < 2 ^ 12) :
    (stretchWord en fret cycles).getLsbD 31 = en := by
  have e : (stretchWord en fret cycles).toNat / 2 ^ 31 % 2 = b2n en := by
    have hb : b2n en ≤ 1 := by cases en <;> decide
    rw [stretchWord, BitVec.toNat_ofNat]
    omega
  rw [BitVec.getLsbD, Nat.testBit_eq_decide_div_mod_eq, e]
  cases en <;> rfl

theorem fieldOr_lt {lo hi new old n : Nat} (a : new < n) (b : old < n) : fieldOr lo hi new old < n := by
  unfold fieldOr
  split <;> assumption

/-- A stretch register written: EN and CYCLES from the word, FRET where it is in range. -/
theorem writeTestStretch_entry {i : Nat} {v : BitVec 32} {r : TestRegs} (l : i < r.stretch.length) :
    (let w := (writeTestStretch i v r).stretch.getD i 0
     w.getLsbD 31 = v.getLsbD 31 ∧ bitsAt w 0 12 = bitsAt v 0 12 ∧
      bitsAt w 12 8 = if bitsAt v 12 8 ≤ 146 then bitsAt v 12 8 else bitsAt (r.stretch.getD i 0) 12 8) := by
  have e : (writeTestStretch i v r).stretch.getD i 0 = stretchWord (v.getLsbD 31)
      (fieldOr 0 146 (bitsAt v 12 8) (bitsAt (r.stretch.getD i 0) 12 8)) (bitsAt v 0 12) := getD_upd_eq l
  have hf : fieldOr 0 146 (bitsAt v 12 8) (bitsAt (r.stretch.getD i 0) 12 8) < 2 ^ 8 :=
    fieldOr_lt (bitsAt_lt v 12 8) (bitsAt_lt _ 12 8)
  dsimp only
  rw [e]
  refine ⟨stretchWord_en hf (bitsAt_lt v 0 12), bitsAt_stretchWord_cycles hf (bitsAt_lt v 0 12), ?_⟩
  rw [bitsAt_stretchWord_fret hf (bitsAt_lt v 0 12), fieldOr]
  simp

/-! ### The timeout and a held message -/

/-- A relock returns every register to reset and stops the timeout (R520). -/
theorem State.relock_window {s : State} {a b c d : Nat} (u : s.test.unlocked = true) :
    (s.relock a b c d).test.unlocked = false ∧ (s.relock a b c d).test.regs = TestRegs.reset ∧ (s.relock a b c d).test.due = none := by
  have e : (s.relock a b c d).test =
      ((s.setTest TestRegs.reset a).modTest (fun x => { x with unlocked := false, due := none })).test := by
    unfold State.relock
    rw [if_pos u]
    exact (State.enter_keeps rfl (Keeps.refl (T := [.host, .log]))).test rfl
  rw [e, State.modTest_test, State.setTest_test]
  exact ⟨rfl, rfl, rfl⟩

theorem execTestTimeout_due {s : State} {u : Nat} (l : s.test.unlocked = true) (d : ripeAt s.test.due u = true) :
    execTestTimeout u s = .next ((s.at u).relock 4 2 0 0) := if_pos ⟨l, d⟩

/-- A producer's message that is due leaves the held ones. -/
theorem execTestSafetyDelayRelease_producer {s : State} {u i d : Nat} {m : Bytes} {rest : List (Nat × Nat × Bytes)}
    (h : s.test.held = (i, d, m) :: rest) (due : d ≤ u) (p : s.isProducer i = true) : execTestSafetyDelayRelease u s =
      .next (((s.at u).modTest (fun x => { x with held := rest })).modScEntry i (fun e => { e with sent := [m] })) := by
  have h' : (s.at u).test.held = (i, d, m) :: rest := h
  have p' : ((s.at u).modTest (fun x => { x with held := rest })).isProducer i = true := p
  unfold execTestSafetyDelayRelease
  dsimp only
  rw [h']
  dsimp only
  rw [if_pos due, if_pos p']

theorem isProducer_lt {s : State} {i : Nat} (p : s.isProducer i = true) : i < 16 := by
  unfold State.isProducer at p
  simp only [Bool.and_eq_true, decide_eq_true_eq] at p
  exact p.1.1

end Sys2Proof.Machine

open Sys2Proof Sys2Proof.Machine

/-- Settles O13: a write is `State.testWrite` or `State.testClear`, whose three outcomes are locked, disallowed and allowed. -/
theorem testWindowCommandsComplete : Obligations.TestWindowCommandsComplete := by
  intro s v snd
  refine ⟨fun u i => ?locked, fun u => ?unlocked, ?held⟩
  case locked =>
    have w : ∀ k f, (.next (s.testWrite k f) : Host.Outcome State Fault Refusal) = .next s :=
      fun _ _ => congrArg Host.Outcome.next (State.testWrite_locked u)
    exact ⟨congrArg Host.Outcome.next (State.testClear_locked u), w _ _, w _ _, w _ _, w _ _, w _ _, w _ _, w _ _, w _ _⟩
  case unlocked =>
    dsimp only
    have no : ∀ k f, (s.pn ND_TEST_ALLOW).testBit k = false → s.testWrite k f = s.testTouched :=
      fun k f a => State.testWrite_disallowed u a
    refine ⟨fun c => ?_, fun c => congrArg Host.Outcome.next (State.testClear_touches u c),
      fun a i => congrArg Host.Outcome.next (no _ _ a), fun a => congrArg Host.Outcome.next (no _ _ a),
      fun a => congrArg Host.Outcome.next (no _ _ a), fun a => congrArg Host.Outcome.next (no _ _ a),
      fun a => congrArg Host.Outcome.next (no _ _ a), fun a => congrArg Host.Outcome.next (no _ _ a),
      fun a => congrArg Host.Outcome.next (no _ _ a), fun a => congrArg Host.Outcome.next (no _ _ a), ?_⟩
    · refine ⟨s.testClear v, rfl, ?_⟩
      rw [State.testClear_clears u c]
      refine ⟨by rw [State.setTest_test], by rw [State.setTest_test]; exact u, by rw [State.setTest_test]; rfl,
        State.setTest_keeps rfl (State.testTouched_keeps rfl .refl)⟩
    refine ⟨fun i l eight a => ?stretch, fun a => ?fifo, fun a => ?ring, fun a => ?zc, fun a => ?safety, fun a => ?plc,
      fun a => ?mram, fun a => ?wd, fun t d => ?timeout⟩
    case stretch =>
      obtain ⟨regs, due, keep⟩ := State.testWrite_sets (f := writeTestStretch i v) u a
      refine ⟨_, rfl, ?_, ?_, ?_, due, keep⟩
      · rw [regs]; rfl
      · rw [regs]; exact fun j ne => getD_upd_ne (Ne.symm ne)
      · rw [regs]; exact writeTestStretch_entry (by rw [eight]; exact l)
    case fifo =>
      obtain ⟨regs, due, keep⟩ := State.testWrite_sets (f := writeTestFifo v) u a
      exact ⟨_, rfl, regs, due, keep⟩
    case ring =>
      obtain ⟨regs, due, keep⟩ := State.testWrite_sets (f := writeTestRing v) u a
      refine ⟨_, rfl, by rw [regs]; rfl, ?_, due, keep⟩
      rw [regs]
      exact toNat_ofNat_fieldOr (bitsAt_lt v 0 10) s.test.regs.ringDelay.isLt
    case zc =>
      obtain ⟨regs, due, keep⟩ := State.testWrite_sets (f := writeTestZc v) u a
      refine ⟨_, rfl, ?_, due, keep⟩
      rw [regs, writeTestZc]
      split <;> rfl
    case safety =>
      obtain ⟨regs, due, keep⟩ := State.testWrite_sets (f := writeTestSafety v) u a
      refine ⟨_, rfl, by rw [regs]; rfl, ?_, due, keep⟩
      rw [regs]
      exact toNat_ofNat_fieldOr (bitsAt_lt v 16 16) s.test.regs.safDelay.isLt
    case plc =>
      obtain ⟨regs, due, keep⟩ := State.testWrite_sets (f := writeTestPlc v) u a
      refine ⟨_, rfl, by rw [regs]; rfl, ?_, due, keep⟩
      rw [regs]
      exact toNat_ofNat_fieldOr (bitsAt_lt v 0 5) s.test.regs.starve.isLt
    case mram =>
      obtain ⟨regs, due, keep⟩ := State.testWrite_sets (f := writeTestMram v) u a
      refine ⟨_, rfl, by rw [regs]; rfl, ?_, due, keep⟩
      rw [regs]
      exact toNat_ofNat_fieldOr (bitsAt_lt v 0 14) s.test.regs.mram.isLt
    case wd =>
      obtain ⟨regs, due, keep⟩ := State.testWrite_sets (f := writeTestWd v) u a
      exact ⟨_, rfl, regs, due, keep⟩
    case timeout =>
      have e := execTestTimeout_due u d
      obtain ⟨locked, regs, due⟩ := State.relock_window (s := s.at t) (a := 4) (b := 2) (c := 0) (d := 0) u
      exact ⟨_, e, locked, regs, due, exec_keeps (.testTimeout t) _ _ e⟩
  case held =>
    intro t i d m rest h due p
    have len : i < ((s.at t).modTest (fun x => { x with held := rest })).saf.entries.length := by
      have l : ((s.at t).modTest (fun x => { x with held := rest })).saf.entries.length = 16 := snd.entries
      rw [l]
      exact isProducer_lt p
    refine ⟨_, execTestSafetyDelayRelease_producer h due p, rfl, ?_, fun j ne => State.modScEntry_other (Ne.symm ne), ?_⟩
    · rw [State.modScEntry_same len]
    · exact State.modScEntry_keeps rfl (State.modTest_keeps rfl (State.at_keeps rfl .refl))
end

section
/-!
The timers of the host port, and records on their way (10 R254, R259, R263, 19 R458, R463, 20 R475).
-/

namespace Sys2Proof.Machine

/-! ### The session points that a cause reaches -/

theorem State.isSession_congr {s t : State} {p : Nat} (h : t.par = s.par) : t.isSession p = s.isSession p := by
  unfold State.isSession State.ptType State.pb State.pv
  rw [h]

theorem State.pb_congr {s t : State} {pid p : Nat} (h : t.par = s.par) : t.pb pid p = s.pb pid p := by
  unfold State.pb State.pv
  rw [h]

theorem State.addCause_other {s : State} {p k c : Nat} (ne : k ≠ p) : (s.addCause k c).pt p = s.pt p := by
  unfold State.addCause
  split
  · exact State.modPt_other ne
  · rfl

/-- A cause noted for a session point stands among its causes. -/
theorem State.addCause_noted {s : State} {p c : Nat} (l : p < s.pts.length) (ses : s.isSession p = true) :
    c ∈ ((s.addCause p c).sesOf p).causes := by
  unfold State.addCause
  rw [if_pos ses]
  have e : ∀ f, ((s.modSes p f).sesOf p) = f (s.sesOf p) := fun f => congrArg Point.ses (State.modPt_same l)
  rw [e]
  dsimp only
  split
  · next h => simpa using h
  · simp

/-- The stop cause of the host's loss, at the points that stop on it (R463). -/
def State.hostLossCauses (s : State) : State :=
  forAll points16 (fun p s => if s.pb PT_STOP_ON_HOST_LOSS p then s.addCause p 7 else s) s

theorem State.hostLoss_keeps_par {s x : State} {p : Nat} (h : x.par = s.par) :
    (if x.pb PT_STOP_ON_HOST_LOSS p then x.addCause p 7 else x).par = s.par := by
  split
  · exact ((State.addCause_keeps rfl (Keeps.refl (T := [.pts]))).par rfl).trans h
  · exact h

theorem State.hostLoss_sound {x : State} {p : Nat} (h : Sound x) :
    Sound (if x.pb PT_STOP_ON_HOST_LOSS p then x.addCause p 7 else x) := .ite (State.addCause_sound h) h

/-- What the causes leave of a point other than the one that takes them. -/
theorem State.hostLoss_other {x : State} {p k : Nat} (ne : k ≠ p) :
    (if x.pb PT_STOP_ON_HOST_LOSS k then x.addCause k 7 else x).pt p = x.pt p := by
  split
  · exact State.addCause_other ne
  · rfl

theorem State.hostLossCauses_noted {s : State} {p : Nat} (snd : Sound s) (l : p < 16) (ses : s.isSession p = true)
    (stop : s.pb PT_STOP_ON_HOST_LOSS p = true) : 7 ∈ ((s.hostLossCauses).sesOf p).causes := by
  have e := forAll_points16 (I := fun x => Sound x ∧ x.par = s.par) (R := fun x => (7 ∈ (x.sesOf p).causes : Prop))
    (g := fun _ => True) (f := fun p s => if s.pb PT_STOP_ON_HOST_LOSS p then s.addCause p 7 else s) l ⟨snd, rfl⟩
    (fun _ _ h => ⟨State.hostLoss_sound h.1, State.hostLoss_keeps_par h.2⟩)
    (fun _ _ _ ne => by rw [State.sesOf, State.hostLoss_other ne, State.sesOf]) (fun x h => ?_)
  · exact of_eq_true e
  · rw [if_pos ((State.pb_congr h.2).trans stop)]
    exact eq_true (State.addCause_noted (h.1.pts ▸ l) ((State.isSession_congr h.2).trans ses))

/-- A point that does not stop on the host's loss is left as it was. -/
theorem State.hostLossCauses_leaves {s : State} {p : Nat} (go : s.pb PT_STOP_ON_HOST_LOSS p = false) :
    s.hostLossCauses.pt p = s.pt p := by
  have e := forAll_at (I := fun x => x.par = s.par) (R := fun x => x.pt p) (g := id) (p := p) (l := points16) (s := s)
    (f := fun p s => if s.pb PT_STOP_ON_HOST_LOSS p then s.addCause p 7 else s) (by decide) rfl
    (fun _ _ h => State.hostLoss_keeps_par h) (fun _ _ _ ne => State.hostLoss_other ne)
    (fun x h => by rw [if_neg (by rw [State.pb_congr h, go]; decide)]; rfl)
  exact e.trans (ite_self _)

theorem State.hostLossCauses_keeps {s : State} : Keeps [.pts] s s.hostLossCauses :=
  Keeps.forAll (fun _ _ => Keeps.ite (State.addCause_keeps rfl .refl) .refl) rfl .refl

/-- HOST_WATCHDOG_TIMEOUT at or after its time. -/
theorem execHostWatchdogTimeout_due {s : State} {u : Nat} (d : ripeAt s.host.wdDue u = true) : execHostWatchdogTimeout u s =
    .next ((((s.at u).modHost (fun h => { h with wdDue := none, hostLost := true })).watchdogEvent 0).hostLossCauses) := if_pos d

/-! ### What only raises events -/

/-- Of the time base only the free-value counter moved, and of the host space only events. -/
structure Quiet (s x : State) : Prop where
  counter : x.clk = { s.clk with freeCtr := x.clk.freeCtr }
  space : x.host = { s.host with events := x.host.events, pend := x.host.pend }

theorem Quiet.refl {s : State} : Quiet s s := ⟨rfl, rfl⟩

theorem Quiet.of_keeps {T : List Part} {s x : State} (k : Keeps T s x) (c : T.contains .clk = false)
    (h : T.contains .host = false) : Quiet s x := by
  constructor
  · rw [k.clk c]
  · rw [k.host h]

theorem Quiet.trans {s x y : State} (h : Quiet s x) (g : Quiet x y) : Quiet s y := by
  constructor
  · rw [g.counter, h.counter]
  · rw [g.space, h.space]

theorem Quiet.ite {s x y : State} {c : Prop} [Decidable c] (h : Quiet s x) (g : Quiet s y) : Quiet s (if c then x else y) := by
  split <;> assumption

theorem Quiet.forAll {s x : State} {f : Nat → State → State} {l : List Nat} (h : Quiet s x) (g : ∀ i y, Quiet y (f i y)) :
    Quiet s (forAll l f x) := by
  induction l generalizing x with
  | nil => exact h
  | cons a l ih => exact ih (h.trans (g a x))

theorem Quiet.calm {s x : State} (h : Quiet s x) : Calm s x := by
  refine ⟨h.counter, ?_⟩
  rw [h.space]

theorem Quiet.streams {s x : State} (h : Quiet s x) : x.host.streams = s.host.streams := by rw [h.space]

theorem State.raise_quiet {s : State} {ev sub : Nat} {b : Bytes} : Quiet s (s.raise ev sub b) := ⟨rfl, rfl⟩

theorem State.modPt_quiet {s : State} {p : Nat} {f : Point → Point} : Quiet s (s.modPt p f) := ⟨rfl, rfl⟩

theorem State.outletSession_quiet {s : State} {p : Nat} {a b : SessState} {c : Nat} : Quiet s (s.outletSession p a b c) :=
  .ite State.raise_quiet .refl

/-- A session enters a state: its outlet reports it. -/
theorem State.enterState_quiet {s : State} {p c : Nat} {n : SessState} : Quiet s (s.enterState p n c) := by
  have pilot : ∀ x : State, Quiet x (x.setPilot p) := fun _ => State.modPt_quiet
  unfold State.enterState
  have entered := fun f => (State.modPt_quiet (s := s) (p := p) (f := f)).trans
    ((State.outletSession_quiet (p := p) (a := (s.sesOf p).state) (b := n) (c := c)).trans (pilot _))
  have wants := fun f g => Quiet.ite (c := n = .idle ∨ n = .stopping ∨ n = .fault)
    ((entered f).trans (State.modPt_quiet (p := p) (f := g))) (entered f)
  exact .ite ((wants _ _).trans State.modPt_quiet) (wants _ _)

theorem State.closedToIdle_quiet {s : State} {p : Nat} : Quiet s (s.closedToIdle p) := .ite State.enterState_quiet .refl

theorem State.leaveClosed_quiet {s : State} : Quiet s s.leaveClosed := by
  refine .forAll .refl fun p x => ?_
  split
  · exact .ite .refl State.closedToIdle_quiet
  · exact .refl

/-! ### A unit written -/

/-- The words of a FIFO after a unit: those before, then the unit's. -/
theorem fifoPushUnit_words {a t : Nat} {ws : List Nat} {f : Fifo} :
    (fifoPushUnit a t ws f).words.map (fun w => w.1) = f.words.map (fun w => w.1) ++ ws.map (fun w => w % 2 ^ 32) := by
  have push : ∀ w last (f : Fifo), (fifoPush a t w last f).words.map (fun w => w.1) = f.words.map (fun w => w.1) ++ [w % 2 ^ 32] := by
    intro w last f
    exact List.map_append
  induction ws generalizing f with
  | nil => exact (List.append_nil _).symm
  | cons w l ih =>
    cases l with
    | nil => exact push _ _ _
    | cons v l =>
      change (fifoPushUnit a t (v :: l) (fifoPush a t w false f)).words.map _ = _
      rw [ih, push, List.append_assoc]
      rfl

theorem State.streamReport_leaves {α : Type} {s : State} {k c j : Nat} (g : Fifo → α)
    (e : ∀ f u x, g { f with units := u, evFrame := x } = g f) : g ((s.streamReport k c).stream j) = g (s.stream j) :=
  State.modStream_leaves g (fun f => e f _ _)

theorem State.streamReport_other {s : State} {k c j : Nat} (ne : j ≠ k) : (s.streamReport k c).stream j = s.stream j :=
  State.modStream_other (Ne.symm ne)

theorem State.unitDone_words {s : State} {k j : Nat} : ((s.unitDone k).stream j).words = (s.stream j).words := by
  have counted : ∀ f : Fifo → Fifo, (∀ x, (f x).words = x.words) → ((s.modStream k f).stream j).words = (s.stream j).words :=
    fun f h => State.modStream_leaves Fifo.words h
  unfold State.unitDone
  dsimp only
  split
  · exact counted _ fun _ => rfl
  · exact (State.streamReport_leaves Fifo.words fun _ _ _ => rfl).trans (counted _ fun _ => rfl)

/-- The words of a stream after a unit written to it. -/
theorem State.writeUnit_words {s : State} {k : Nat} {ws : List Nat} (l : k < s.host.streams.length) :
    ((s.writeUnit k ws).stream k).words.map (fun w => w.1) = (s.stream k).words.map (fun w => w.1) ++ ws.map (fun w => w % 2 ^ 32) := by
  unfold State.writeUnit
  rw [State.unitDone_words, State.modStream_same l, fifoPushUnit_words]

/-! ### The records due and the journal -/

/-- The records due and the journal stay. -/
structure JournalKept (s x : State) : Prop where
  due : x.recs.due = s.recs.due
  journal : x.recs.journal = s.recs.journal

theorem JournalKept.trans {s x y : State} (h : JournalKept s x) (g : JournalKept x y) : JournalKept s y :=
  ⟨g.due.trans h.due, g.journal.trans h.journal⟩

theorem JournalKept.of_keeps {T : List Part} {s x : State} (k : Keeps T s x) (h : T.contains .recs = false) : JournalKept s x :=
  ⟨congrArg RecordStore.due (k.recs h), congrArg RecordStore.journal (k.recs h)⟩

theorem State.modRecs_journalKept {s : State} {f : RecordStore → RecordStore} (d : ∀ r, (f r).due = r.due)
    (j : ∀ r, (f r).journal = r.journal) : JournalKept s (s.modRecs f) := ⟨d _, j _⟩

theorem JournalKept.ite {s x y : State} {c : Prop} [Decidable c] (h : JournalKept s x) (g : JournalKept s y) :
    JournalKept s (if c then x else y) := by
  split <;> assumption

/-- A near-full report with its mark. -/
theorem State.markNear_journalKept {s : State} {f : RecordStore → RecordStore} {a b c e : Nat} (d : ∀ r, (f r).due = r.due)
    (j : ∀ r, (f r).journal = r.journal) : JournalKept s ((s.modRecs f).nearFull a b c e) :=
  (State.modRecs_journalKept d j).trans (.of_keeps (T := [.host]) (State.nearFull_keeps rfl .refl) rfl)

theorem State.journalNear_journalKept {s : State} {d : DueRec} : JournalKept s (s.journalNear d) := by
  have withheld : ∀ x : State, JournalKept s x → JournalKept s (if x.isWithheld d.series d.seq && !x.recs.withheldEv then
      (x.modRecs (fun r => { r with withheldEv := true })).nearFull 0 1 x.journalUnacked (ackedField (x.seqAcked d.series)) else x) :=
    fun x k => .ite (k.trans (State.markNear_journalKept (fun _ => rfl) fun _ => rfl)) k
  exact withheld _ (.ite (State.markNear_journalKept (fun _ => rfl) fun _ => rfl) ⟨rfl, rfl⟩)

theorem State.streamRec_journalKept {s : State} {d : DueRec} {b : Bytes} : JournalKept s (s.streamRec d b) := by
  unfold State.streamRec
  split
  · exact .of_keeps (State.writeUnit_keeps rfl (Keeps.refl (T := [.host]))) rfl
  · split
    · exact ⟨rfl, rfl⟩
    · have lost : ∀ x : State, JournalKept x (x.unitLost 0 1) := fun x =>
        .of_keeps (T := [.host]) (State.unitLost_keeps rfl .refl) rfl
      refine .trans ?_ (lost _)
      exact ⟨rfl, rfl⟩

theorem State.endSigned_journalKept {s : State} {d : DueRec} : JournalKept s (s.endSigned d) :=
  .of_keeps (T := [.pts]) (State.endSigned_keeps rfl .refl) rfl

theorem State.leaveClosed_journalKept {s : State} : JournalKept s s.leaveClosed :=
  .of_keeps (T := [.host, .pts]) (State.leaveClosed_keeps rfl .refl) rfl

theorem State.journalRec_due {s : State} {d : DueRec} {b : Bytes} (h : s.recs.journal.length < 40960) :
    (s.journalRec d b).recs.due = s.recs.due := by
  have e : s.journalRec d b = _ := if_pos (c := s.recs.journal.length < 40960) h
  rw [e]
  rfl

/-- The machine on which the first record due is journalled: the key asked for, and the record no longer due. -/
def State.taking (s : State) (u : Nat) (d : DueRec) (rest : List DueRec) : State :=
  (if d.cls = 0 then s.at u else (s.at u).askKey 1 d.cls (fld d.head 1 1) 32).modRecs (fun r => { r with due := rest })

theorem State.taking_recs {s : State} {u : Nat} {d : DueRec} {rest : List DueRec} :
    (s.taking u d rest).recs = { s.recs with due := rest } := by
  have asked : (if d.cls = 0 then s.at u else (s.at u).askKey 1 d.cls (fld d.head 1 1) 32).recs = s.recs := by
    split
    · rfl
    · exact (State.askKey_keeps rfl (Keeps.refl (T := [.keys]))).recs rfl
  change { (if d.cls = 0 then s.at u else (s.at u).askKey 1 d.cls (fld d.head 1 1) 32).recs with due := rest } = _
  rw [asked]

theorem execRecordSigned_first {s : State} {u : Nat} {d : DueRec} {rest : List DueRec} (h : s.recs.due = d :: rest)
    (on : s.pwr.capoOn = true) : execRecordSigned u s =
      .next ((((((s.taking u d rest).journalRec d (d.head ++ s.signRec d)).journalNear d).streamRec d
        (d.head ++ s.signRec d)).endSigned d).leaveClosed) := by
  have h' : (s.at u).recs.due = d :: rest := h
  unfold execRecordSigned
  dsimp only
  rw [h']
  exact if_pos on

theorem execRecordStreamDequeue_first {s : State} {u : Nat} {b : Bytes} {rest : List Bytes} (h : s.recs.queue = b :: rest)
    (room : 64 ≤ s.streamRoom 0) : execRecordStreamDequeue u s =
      .next ((((s.at u).modRecs (fun r => { r with queue := rest })).writeUnit 0 (wordsOf b)).leaveClosed) := by
  have h' : (s.at u).recs.queue = b :: rest := h
  unfold execRecordStreamDequeue
  dsimp only
  rw [h']
  exact if_pos room

end Sys2Proof.Machine

open Sys2Proof Sys2Proof.Machine

/-- Settles O14: the timers by their due conditions, the records by the first one due or queued. -/
theorem hostTimersAndRecordsComplete : Obligations.HostTimersAndRecordsComplete := by
  intro s u snd
  refine ⟨?batch, ?watchdog, ?tail, ?signed, ?dequeue⟩
  case batch =>
    intro b e d
    have due : ripeAt ((s.at u).par.batch.map (fun b => b.due)) u = true := by
      change ripeAt (s.par.batch.map (fun b => b.due)) u = true
      rw [e]
      exact decide_eq_true d
    exact if_pos due
  case watchdog =>
    intro d e l
    have due : ripeAt s.host.wdDue u = true := by
      rw [e]
      exact decide_eq_true l
    have sndW := State.watchdogEvent_sound (x1 := 0) (State.modHost_sound (f := fun h => { h with wdDue := none, hostLost := true })
      (State.at_sound (x1 := u) snd) (fun a => a))
    refine ⟨_, execHostWatchdogTimeout_due due, ?_, ?_, fun p l ses stop => State.hostLossCauses_noted sndW l ses stop,
      fun p go => State.hostLossCauses_leaves go, ?_⟩
    · rw [State.hostLossCauses_keeps.host rfl]; rfl
    · rw [State.hostLossCauses_keeps.host rfl]; rfl
    · exact State.hostLossCauses_keeps.then rfl (State.watchdogEvent_keeps rfl (State.modHost_keeps rfl (State.at_keeps rfl .refl)))
  case tail =>
    intro k d l pos fired held due
    have ripe : ripeAt ((s.stream k).heldSince.map (· + s.pn (ND_STREAM_TAIL_0 + k) * 10000)) u = true := by
      rw [held]
      exact decide_eq_true due
    have e : execStreamTailTimeout u k s = .next
        (((s.at u).modStream k (fun f => { f with tail := true, tailFired := true })).streamReport k 1) := if_pos ⟨l, pos, fired, ripe⟩
    have same : ((s.at u).modStream k (fun f => { f with tail := true, tailFired := true })).stream k =
        { s.stream k with tail := true, tailFired := true } := State.modStream_same (snd.host.fifos.symm ▸ l)
    refine ⟨_, e, ?_, ?_, ?_, fun j ne => (State.streamReport_other ne).trans (State.modStream_other (Ne.symm ne)),
      State.streamReport_keeps rfl (State.modStream_keeps rfl (State.at_keeps rfl .refl))⟩
    · rw [State.streamReport_leaves Fifo.tail fun _ _ _ => rfl, same]
    · rw [State.streamReport_leaves Fifo.tailFired fun _ _ _ => rfl, same]
    · rw [State.streamReport_leaves Fifo.words fun _ _ _ => rfl, same]
  case signed =>
    intro d rest h capo room
    have e := execRecordSigned_first (u := u) h capo
    have free : (s.taking u d rest).recs.journal.length < 40960 := by
      rw [State.taking_recs]
      exact room
    have k := (State.journalNear_journalKept (s := (s.taking u d rest).journalRec d (d.head ++ s.signRec d)) (d := d)).trans
      ((State.streamRec_journalKept (d := d) (b := d.head ++ s.signRec d)).trans
        ((State.endSigned_journalKept (d := d)).trans State.leaveClosed_journalKept))
    refine ⟨_, (s.taking u d rest).newSlot d (d.head ++ s.signRec d) (s.taking u d rest).recs.journal.length, e, ?_, ?_, rfl, rfl,
      rfl, exec_keeps (.recordSigned u) _ _ e⟩
    · rw [k.due, State.journalRec_due free, State.taking_recs]
    · have before : (s.taking u d rest).recs.journal = s.recs.journal := by rw [State.taking_recs]
      rw [k.journal, State.journalRec_free free]
      exact congrArg (· ++ _) before
  case dequeue =>
    intro b rest h room
    have e := execRecordStreamDequeue_first (u := u) h room
    have written := (State.writeUnit_keeps rfl
      (Keeps.refl (T := [.host]) (s := (s.at u).modRecs (fun r => { r with queue := rest }))) (x1 := 0) (x2 := wordsOf b)).recs rfl
    refine ⟨_, e, ?_, ?_, exec_keeps (.recordStreamDequeue u) _ _ e⟩
    · rw [(State.leaveClosed_keeps rfl (Keeps.refl (T := [.host, .pts]))).recs rfl, written]
      rfl
    · rw [State.stream, State.leaveClosed_quiet.streams]
      exact State.writeUnit_words (by rw [State.modRecs_host]; exact snd.host.fifos.symm ▸ (by decide))
end

section
/-!
Slices and courses (04 Tables 4.7, 4.8): gain switches, modulator restarts, and the diagnosis of courses.
-/

namespace Sys2Proof.Machine

/-! ### Gain switches -/

theorem State.windowAt_at {s : State} {c t u : Nat} {bits : List Int} : (s.at u).windowAt c t bits = s.windowAt c t bits := rfl

theorem State.switchGain_slice {s : State} {c g t : Nat} (l : c < s.slices.length) :
    (s.switchGain c g t).slice c = { ((s.slice c).takeGain (s.clockAt t + 1) g) with seam := true } := State.modSlice_same l

theorem State.switchGain_other {s : State} {c d g t : Nat} (ne : d ≠ c) : (s.switchGain c g t).slice d = s.slice d :=
  State.modSlice_other (Ne.symm ne)

theorem execAutoGainSwitchUp_due {s : State} {u c : Nat} (l : c < 128) (g : s.gainLo c < s.gainHi c)
    (h : (s.slice c).gain = s.gainHi c) (t : s.underTest c = false) :
    execAutoGainSwitchUp u c s = .next ((s.at u).switchGain c (s.gainLo c) u) := if_pos ⟨l, g, h, t⟩

theorem execAutoGainSwitchDown_due {s : State} {u c : Nat} {bits : List Int} (l : c < 128) (g : s.gainLo c < s.gainHi c)
    (h : (s.slice c).gain = s.gainLo c) (t : s.underTest c = false)
    (two : 2 * s.agCycle c ≤ (s.windowAt c u bits).1.qual * 1000000000 / s.rate (s.governs c))
    (sign : (s.windowAt c u bits).2 = true ∨ 3 * s.agCycle c ≤ (s.windowAt c u bits).1.qual * 1000000000 / s.rate (s.governs c)) :
    execAutoGainSwitchDown u c bits s = .next ((s.at u).switchGain c (s.gainHi c) u) := if_pos ⟨l, g, h, t, two, sign⟩

/-! ### The diagnosis of a course -/

theorem State.beginDiag_free {s : State} {j : Nat} {rest : List Nat} (none : s.eng.diag = .none) (q : s.eng.diagQueue = j :: rest)
    (m : s.eng.mode = 1) (d : (s.conv (j % 4)).dac = 0) (r : (s.conv (j % 4)).stRun = false) : s.beginDiag =
      (s.modEng (fun e => { e with diag := some ⟨j, s.frm + 1, []⟩, diagQueue := rest, diagWait := 0 })).modConv (j % 4)
        (fun k => { k with dac := 1 }) := by
  unfold State.beginDiag
  rw [none, q]
  exact if_pos ⟨m, d, r⟩

/-- A slice as the end of a diagnosis leaves it: no injection, no blanking. -/
def Slice.released (x : Slice) : Slice := { x with inject := none, blankTo := none }

/-- What the end of a diagnosis comes to (R115). -/
theorem State.endDiag_running {s : State} {d : Diagnosis} (h : s.eng.diag = some d) : s.endDiag =
    (((s.modEng (fun e => { e with diag := none })).modConv (d.course % 4) (fun k => { k with dac := 0 })).modSlice (2 * d.course)
      Slice.released).modSlice (2 * d.course + 1) Slice.released := by
  unfold State.endDiag
  rw [h]
  rfl

/-- Both slices of a course released, and no other. -/
theorem State.released_slice {s : State} {j c : Nat} (n : s.slices.length = 128) (l : j < 64) :
    (((s.modSlice (2 * j) Slice.released).modSlice (2 * j + 1) Slice.released).slice c) =
      if c / 2 = j then (s.slice c).released else s.slice c := by
  have len : (s.modSlice (2 * j) Slice.released).slices.length = 128 := sized_upd n
  split
  · next h =>
    rcases (by omega : c = 2 * j ∨ c = 2 * j + 1) with rfl | rfl
    · rw [State.modSlice_other (by omega), State.modSlice_same (by omega)]
    · rw [State.modSlice_same (by omega), State.modSlice_other (by omega)]
  · next h => rw [State.modSlice_other (by omega), State.modSlice_other (by omega)]

/-- The state that the step errors of both slices decide (Table 4.8). -/
def verdictState (fe fo back : Bool) : CourseState := if fe != fo then .single else if !fe && back then .agreed else .unresolved

/-- A course as a verdict leaves it (R115, R116). -/
def Course.judged (fe fo back : Bool) (errs : List Int) (due : Nat) (x : Course) : Course :=
  { x with
    state := verdictState fe fo back, good := if fe then 1 else 0, misRun := 0, okRun := 0, restoring := false
    verdict := if fe && fo then 4 else if fe then 1 else if fo then 2 else 3
    errs := errs
    repeatDue := if verdictState fe fo back = .unresolved then some due else none }

/-- A verdict: the diagnosis ends, the course takes what its step errors decide, and the event follows (R115, R116). -/
theorem execCourseVerdict_due {s : State} {u : Nat} {d : Diagnosis} (h : s.eng.diag = some d) (f : d.first + 32 ≤ s.frm)
    (m : 4 ≤ d.means.length) :
    (let fe := sliceFails (s.pn CH_COURSE_TOL (2 * d.course))
       (stepErrors (s.pn ND_DIAG_LEVEL) (d.means.getD 2 0) (d.means.getD 3 0))
     let fo := sliceFails (s.pn CH_COURSE_TOL (2 * d.course))
       (stepErrors (s.pn ND_DIAG_LEVEL) (d.means.getD 0 0) (d.means.getD 1 0))
     ∃ errs a, execCourseVerdict u s = .next (((s.at u).endDiag.modCourse d.course
      (Course.judged fe fo (s.course d.course).restoring errs (u + s.pn ND_DIAG_REPEAT * 1000000000))).courseEvent d.course a)) := by
  have h' : (s.at u).eng.diag = some d := h
  have waits : ¬ ((s.at u).frm < d.first + 32 ∨ d.means.length < 4) := by
    rintro (c | c)
    · exact absurd f (Nat.not_le.mpr c)
    · omega
  unfold execCourseVerdict
  dsimp only
  rw [h']
  exact ⟨_, _, if_neg waits⟩

theorem State.course_unresolved_lt {s : State} {j : Nat} (n : s.courses.length = 64) (h : (s.course j).state = .unresolved) :
    j < 64 := by
  by_contra l
  have e : s.course j = Course.reset := List.getD_eq_default s.courses Course.reset (by omega)
  rw [e] at h
  cases h

end Sys2Proof.Machine

open Sys2Proof Sys2Proof.Machine

/-- Settles O16: each event by its condition's case; a verdict by `execCourseVerdict_due`. -/
theorem sliceAndCourseEventsComplete : Obligations.SliceAndCourseEventsComplete := by
  intro s u snd
  refine ⟨fun c l g t => ⟨fun h => ?up, fun bits h two sign => ?down⟩, fun c l => ?restart, ?start, ?verdict, ?again, ?restored⟩
  case up =>
    exact ⟨_, execAutoGainSwitchUp_due l g h t, State.switchGain_slice (snd.slices.symm ▸ l), fun d ne => State.switchGain_other ne,
      State.switchGain_keeps rfl (State.at_keeps rfl .refl)⟩
  case down =>
    exact ⟨_, execAutoGainSwitchDown_due l g h t two sign, State.switchGain_slice (snd.slices.symm ▸ l),
      fun d ne => State.switchGain_other ne, State.switchGain_keeps rfl (State.at_keeps rfl .refl)⟩
  case restart =>
    exact ⟨_, rfl, State.modSlice_same (snd.slices.symm ▸ l), fun d ne => State.modSlice_other (Ne.symm ne),
      State.modSlice_keeps rfl (State.at_keeps rfl .refl)⟩
  case start =>
    intro j rest none q l m dac run
    have e : execCourseDiagnosisStart u s = _ := congrArg Host.Outcome.next (State.beginDiag_free (s := s.at u) none q m dac run)
    exact ⟨_, e, rfl, State.modConv_same (snd.converters.symm ▸ (by omega)), fun k ne => State.modConv_other (Ne.symm ne),
      State.modConv_keeps rfl (State.modEng_keeps rfl (State.at_keeps rfl .refl))⟩
  case verdict =>
    intro d h l f m
    obtain ⟨errs, a, e⟩ := execCourseVerdict_due (u := u) h f m
    have ended := State.endDiag_running (s := s.at u) h
    have conv : (s.at u).endDiag.conv (d.course % 4) = { s.conv (d.course % 4) with dac := 0 } := by
      rw [ended]
      exact State.modConv_same (snd.converters.symm ▸ (by omega))
    have courses : (s.at u).endDiag.courses = s.courses := by rw [ended]; rfl
    have slice : ∀ c, (s.at u).endDiag.slice c = if c / 2 = d.course then (s.slice c).released else s.slice c := by
      intro c
      rw [ended]
      exact State.released_slice snd.slices l
    have course : ∀ g, ((s.at u).endDiag.modCourse d.course g).course d.course = g (s.course d.course) := by
      intro g
      rw [State.modCourse_same (by rw [courses, snd.courses]; exact l), State.course, courses, State.course]
    dsimp only
    refine ⟨_, e, ?eng, ?dac, ?single, ?other, ?both, ?none, ?due, ?rest, ?slices, exec_keeps (.courseVerdict u) _ _ e⟩
    case eng => exact (congrArg State.eng ended).trans rfl
    case dac => exact congrArg SarConv.dac conv
    case slices => exact slice
    case rest => exact fun i ne => (State.modCourse_other (Ne.symm ne)).trans (by rw [State.course, courses, State.course])
    case single =>
      intro fe fo
      refine ⟨(congrArg Course.state (course _)).trans ?_, (congrArg Course.good (course _)).trans ?_⟩
      · rw [fe, fo]
        rfl
      · rw [fe]
        rfl
    case other =>
      intro fe fo
      refine ⟨(congrArg Course.state (course _)).trans ?_, (congrArg Course.good (course _)).trans ?_⟩
      · rw [fe, fo]
        rfl
      · rw [fe]
        rfl
    case both =>
      intro fe fo
      refine (congrArg Course.state (course _)).trans ?_
      rw [fe, fo]
      rfl
    case none =>
      intro fe fo
      refine (congrArg Course.state (course _)).trans ?_
      rw [fe, fo]
      cases (s.course d.course).restoring <;> rfl
    case due =>
      intro st
      refine (congrArg Course.repeatDue (course _)).trans ?_
      exact if_pos ((congrArg Course.state (course _)).symm.trans st)
  case again =>
    intro j r m st due le
    have ripe : ripeAt (s.course j).repeatDue u = true := by
      rw [due]
      exact decide_eq_true le
    have e : execCourseDiagRepeat u j s = .next (((s.at u).modCourse j (fun x => { x with repeatDue := none })).modEng
      (fun e => { e with diagQueue := e.diagQueue ++ [j] })) := if_pos ⟨m, st, ripe⟩
    exact ⟨_, e, rfl, State.modCourse_same (snd.courses.symm ▸ State.course_unresolved_lt snd.courses st),
      fun i ne => State.modCourse_other (Ne.symm ne), State.modEng_keeps rfl (State.modCourse_keeps rfl (State.at_keeps rfl .refl))⟩
  case restored =>
    intro j st ok
    have e : execCourseAgreedRestored u j s = .next (((s.at u).modCourse j
      (fun x => { x with state := .agreed, misRun := 0, okRun := 0, repeatDue := none })).modEng
      (fun e => { e with diagQueue := e.diagQueue.filter (· != j) })) := if_pos ⟨st, ok⟩
    have same : ((s.at u).modCourse j (fun x => { x with state := .agreed, misRun := 0, okRun := 0, repeatDue := none })).course j =
        { s.course j with state := .agreed, misRun := 0, okRun := 0, repeatDue := none } :=
      State.modCourse_same (snd.courses.symm ▸ State.course_unresolved_lt snd.courses st)
    refine ⟨_, e, congrArg Course.state same, congrArg Course.repeatDue same, ?_, fun i ne m => ?_,
      fun i ne => State.modCourse_other (Ne.symm ne), State.modEng_keeps rfl (State.modCourse_keeps rfl (State.at_keeps rfl .refl))⟩
    · exact fun m => absurd (List.mem_filter.mp m).2 (by simp)
    · exact List.mem_filter.mpr ⟨m, by simpa using ne⟩
end

section
/-!
Sensor faults, excitation and pulse edges (04 R107–R110, 06 R161, R162, 08 R191, R192, R213).
-/

namespace Sys2Proof.Machine

/-! ### Events whose Count stands inside the detail -/

theorem State.raiseAt_raised {s : State} {ev sub off : Nat} {up : Bool} {a b c : Bytes} (l : s.host.events.length = 64) (e : ev < 64)
    (h : a <+: b) (n : a.length ≤ off) : Raised (s.raiseAt ev sub off up b c) ev a := by
  have counted : (if up then s.countStart ev sub else s).host.events.length = 64 := by
    split
    · exact sized_upd l
    · exact l
  refine State.addDetail_raised counted e ((prefix_padTo h n).trans ?_)
  rw [List.append_assoc]
  exact List.prefix_append _ _

theorem Raised.congr {s t : State} {ev : Nat} {b : Bytes} (h : t.host = s.host) (r : Raised s ev b) : Raised t ev b := by
  constructor
  · rw [h]
    exact r.newest
  · rw [h]
    exact r.pending

theorem State.faultEvent_raised {s : State} {p src cause edge : Nat} (k : Sound s) :
    Raised (s.faultEvent p src cause edge) 26 [byteOf p, byteOf src, byteOf cause, byteOf edge] :=
  State.raiseAt_raised k.host.queues (by decide) (by simp) (by simp)

/-! ### The channel of a source -/

theorem courseSlot_lt {ty role k : Nat} (h : courseSlot ty role = some k) : k < 8 := by
  unfold courseSlot at h
  split_ifs at h <;> cases h <;> omega

theorem State.limitChan_lt {s : State} {p src c : Nat} (l : p < 16) (h : s.limitChan p src = some c) : c < 128 := by
  have role : ∀ {c}, src < 8 → s.roleChan p src = some c → c < 128 := by
    intro c r e
    unfold State.roleChan at e
    split at e
    · obtain ⟨k, hk, rfl⟩ := Option.map_eq_some_iff.mp e
      have := courseSlot_lt hk
      omega
    · cases e
      omega
  unfold State.limitChan at h
  split at h
  · cases h
  · split at h
    · exact role (by omega) h
    · split at h
      · cases h
      · split at h
        · cases h
        · cases h
          omega

/-- A cause below 2 is due or over on the channel that carries the role alone (R107). -/
theorem State.limitFault_chan {s : State} {p src cause : Nat} (l : p < 16) (c : cause < 2)
    (h : s.faultDue p src cause = true ∨ s.faultOver p src cause = true) : (s.limitChan p src).getD (8 * p + src) < 128 := by
  cases e : s.limitChan p src with
  | some k => exact State.limitChan_lt l e
  | none =>
    rcases h with h | h
    · unfold State.faultDue at h
      rw [if_pos c, e] at h
      cases h
    · unfold State.faultOver at h
      rw [if_pos c, e] at h
      cases h

/-! ### A cause put in force or out of force -/

/-- The slice whose limit fault a cause below 2 is. -/
theorem State.putFault_slice {s : State} {p src cause : Nat} {b : Bool} (n : s.slices.length = 128) (c : cause < 2)
    (l : (s.limitChan p src).getD (8 * p + src) < 128) :
    ((s.putFault p src cause b).slice ((s.limitChan p src).getD (8 * p + src))).limFault = if b then some cause else none := by
  have e : (s.putFault p src cause b).slices = (s.modSlice ((s.limitChan p src).getD (8 * p + src))
      (fun x => { x with limFault := if b then some cause else none })).slices := by
    unfold State.putFault
    rw [if_pos c]
    dsimp only
    split_ifs <;> rfl
  rw [State.slice, e]
  exact congrArg Slice.limFault (State.modSlice_same (n.symm ▸ l))

theorem State.putFault_slice_other {s : State} {p src cause d : Nat} {b : Bool}
    (ne : d ≠ (s.limitChan p src).getD (8 * p + src)) : (s.putFault p src cause b).slice d = s.slice d := by
  have own : ∀ f, (s.modSlice ((s.limitChan p src).getD (8 * p + src)) f).slice d = s.slice d :=
    fun _ => State.modSlice_other (Ne.symm ne)
  unfold State.putFault
  dsimp only
  split_ifs
  all_goals first | rfl | exact own _

/-- What putting a cause does to the role, on whatever slices. -/
def State.putRole (s : State) (p src cause : Nat) (b : Bool) : State :=
  if !s.srcUsed p src then s
  else if src < 8 then s.modRole p src (fun x => { x with faults := putBit x.faults cause b })
  else s.modFl p (fun f => { f with pls := { f.pls with faults := putBit f.pls.faults cause b } })

theorem State.putRole_faults {s : State} {p src cause : Nat} {b : Bool} (l : p < s.pts.length) (r : src < 8)
    (used : s.roleUsed p src = true) (n : (s.pt p).fl.roles.length = 8) :
    ((s.putRole p src cause b).roleAt p src).faults = putBit (s.roleAt p src).faults cause b := by
  have u : s.srcUsed p src = true := (if_pos r).trans used
  unfold State.putRole
  rw [if_neg (by simp [u]), if_pos r]
  unfold State.roleAt State.modRole
  rw [if_pos r, if_pos r, State.modPt_same l]
  exact congrArg RoleState.faults (getD_upd_eq (by omega))

theorem State.roleUsed_congr {s t : State} {p src : Nat} (h : t.par = s.par) (e : t.eng = s.eng) :
    t.roleUsed p src = s.roleUsed p src := by
  unfold State.roleUsed State.fluidSlots State.inputKind State.roleChan State.ptType State.pn State.pv
  rw [h, e]

/-- The faults of a role in use after a cause is put. -/
theorem State.putFault_role {s : State} {p src cause : Nat} {b : Bool} (l : p < s.pts.length) (r : src < 8)
    (used : s.roleUsed p src = true) (n : (s.pt p).fl.roles.length = 8) :
    ((s.putFault p src cause b).roleAt p src).faults = putBit (s.roleAt p src).faults cause b := by
  by_cases c : cause < 2
  · have e : s.putFault p src cause b = (s.modSlice ((s.limitChan p src).getD (8 * p + src)) (fun x => { x with
        limFault := if b then some cause else none })).putRole p src cause b := by
      unfold State.putFault
      rw [if_pos c]
      rfl
    rw [e]
    exact State.putRole_faults l r ((State.roleUsed_congr rfl rfl).trans used) n
  · have e : s.putFault p src cause b = s.putRole p src cause b := by
      unfold State.putFault
      rw [if_neg c]
      rfl
    rw [e]
    exact State.putRole_faults l r used n

theorem State.putFault_other {s : State} {p q src cause : Nat} {b : Bool} (ne : q ≠ p) :
    (s.putFault p src cause b).pt q = s.pt q := by
  have role : ∀ (x : State) f, (x.modRole p src f).pt q = x.pt q := fun _ _ => State.modPt_other (Ne.symm ne)
  have fl : ∀ (x : State) f, (x.modFl p f).pt q = x.pt q := fun _ _ => State.modPt_other (Ne.symm ne)
  unfold State.putFault
  dsimp only
  split_ifs
  all_goals first | rfl | exact role _ _ | exact fl _ _

/-! ### Pulse edges -/

/-- An edge that does not stay for the filter's time (R191). -/
theorem execPulseEdge_short {s : State} {u p held : Nat} {lineB rising both : Bool} (h : held < 100 * s.pn PT_PLS_FILTER p) :
    execPulseEdge u p lineB rising both held s = .next (s.at u) := by
  unfold execPulseEdge
  dsimp only
  exact if_pos (.inr h)

/-- A rising edge on line A in pulse mode 1, with no lowest frequency: one forward pulse to be taken (R192). -/
theorem execPulseEdge_forward {s : State} {u p held : Nat} (fl : isFluid (s.ptType p) = true) (m : s.pn PT_PLS_MODE p = 1)
    (h : 100 * s.pn PT_PLS_FILTER p ≤ held) (mf : s.pn PT_PLS_MIN_FREQ p = 0) :
    execPulseEdge u p false true false held s = .next (((s.at u).modPt p (fun x =>
      { x with plsA := { x.plsA with level := true, chgAt := u / 8 * 8 } })).modPt p (fun x =>
      { x with plsA := { x.plsA with hw := wrapInc 16 x.plsA.hw, lastAt := some (u / 8 * 8) }
               pulse := { x.pulse with pend := x.pulse.pend ++ [(u / 8 * 8, false)] } })) := by
  have mode : (if isFluid ((s.at u).ptType p) = true then (s.at u).pn PT_PLS_MODE p else 0) = 1 := (if_pos fl).trans m
  have long : ¬ ((1 : Nat) = 0 ∨ held < 100 * (s.at u).pn PT_PLS_FILTER p) := by
    rintro (c | c)
    · cases c
    · exact absurd h (Nat.not_le.mpr c)
  have freq : (s.at u).pn PT_PLS_MIN_FREQ p = 0 := mf
  unfold execPulseEdge
  dsimp only
  rw [mode, if_neg long, freq]
  rfl

/-! ### Metering pulses -/

theorem State.driveMpo_mpo {s : State} {p : Nat} {f : Mpo → Mpo} (l : p < s.pts.length) : ((s.driveMpo p f).pt p).mpo =
    { f (s.pt p).mpo with pin := s.ptType p != 0 && (f (s.pt p).mpo).level != s.pb PT_MPO_POLARITY p } :=
  congrArg Point.mpo (State.modPt_same l)

theorem State.driveMpo_other {s : State} {p q : Nat} {f : Mpo → Mpo} (ne : q ≠ p) : (s.driveMpo p f).pt q = s.pt q :=
  State.modPt_other (Ne.symm ne)

theorem execMpoPulseEdge_trailing {s : State} {u p : Nat} (h : ripeAt (s.pt p).mpo.trailDue u = true) :
    execMpoPulseEdge u p s = .next ((s.at u).driveMpo p (fun x => { x with level := false, trailDue := none })) := if_pos h

/-- A leading edge that is due with nothing in the backlog (R162). -/
theorem execMpoPulseEdge_leading {s : State} {u p e : Nat} {rest : List Nat} (on : s.mpoOn p = true)
    (t : (s.pt p).mpo.trailDue = none) (b : (s.pt p).mpo.backlog = 0) (sch : (s.pt p).mpo.sched = e :: rest) (due : e ≤ u)
    (free : (s.pt p).mpo.notBefore ≤ e) : execMpoPulseEdge u p s = .next ((s.at u).driveMpo p (fun x =>
      { x with level := true, trailDue := some (e + s.pn PT_MPO_WIDTH p * 1000000)
               notBefore := e + 2 * (s.pn PT_MPO_WIDTH p * 1000000), sched := rest })) := by
  have t' : ((s.at u).pt p).mpo.trailDue = none := t
  have b' : ((s.at u).pt p).mpo.backlog = 0 := b
  have sch' : ((s.at u).pt p).mpo.sched = e :: rest := sch
  have on' : (s.at u).mpoOn p = true := on
  unfold execMpoPulseEdge
  dsimp only
  rw [t', b', sch', on']
  dsimp only
  rw [if_neg (by exact Bool.false_ne_true), if_neg (by exact Bool.false_ne_true), if_neg (by omega), if_neg (by omega)]
  exact if_pos ⟨free, rfl, rfl⟩

end Sys2Proof.Machine

open Sys2Proof Sys2Proof.Machine

/-- Settles O17: each event by the one case that its condition names. -/
theorem sensorAndPulseEventsComplete : Obligations.SensorAndPulseEventsComplete := by
  intro s u p snd l
  have pts : p < s.pts.length := snd.pts.symm ▸ l
  refine ⟨fun src cause h => ?declared, fun src cause h => ?cleared, fun lv tripped => ?excitation, fun fl m => ⟨?short, ?forward⟩,
    fun d e le => ?trailing, fun e rest on t b sch due free => ?leading⟩
  case declared =>
    have e : execSensorFaultDeclared u p src cause s = .next (((s.at u).faultEvent p src cause 0).putFault p src cause true) := if_pos h
    have put := State.putFault_keeps (x1 := p) (x2 := src) (x3 := cause) (x4 := true) rfl
      (Keeps.refl (T := [.slices, .pts]) (s := (s.at u).faultEvent p src cause 0))
    refine ⟨_, e, (State.faultEvent_raised (State.at_sound snd)).congr (put.host rfl), ⟨fun c => ?_, fun d ne => ?_⟩,
      fun r used n => ?_, fun q ne => State.putFault_other ne, exec_keeps (.sensorFaultDeclared u p src cause) _ _ e⟩
    · exact State.putFault_slice snd.slices c (State.limitFault_chan l c (.inl h))
    · exact State.putFault_slice_other ne
    · exact State.putFault_role pts r used n
  case cleared =>
    have e : execSensorFaultCleared u p src cause s = .next (if cause = 2 then
        (((s.at u).faultEvent p src cause 1).putFault p src cause false).modFl p (fun f => { f with exTrip := none })
      else ((s.at u).faultEvent p src cause 1).putFault p src cause false) := if_pos h
    have put := State.putFault_keeps (x1 := p) (x2 := src) (x3 := cause) (x4 := false) rfl
      (Keeps.refl (T := [.slices, .pts]) (s := (s.at u).faultEvent p src cause 1))
    have untrip : ∀ x : State, Keeps [.pts] x (if cause = 2 then x.modFl p (fun f => { f with exTrip := none }) else x) :=
      fun x => .ite (State.modFl_keeps rfl .refl) .refl
    have slices : ∀ x : State, ∀ d, (if cause = 2 then x.modFl p (fun f => { f with exTrip := none }) else x).slice d = x.slice d :=
      fun x d => congrArg (fun l => List.getD l d Slice.reset) ((untrip x).slices rfl)
    have roles : ∀ x : State, ((if cause = 2 then x.modFl p (fun f => { f with exTrip := none }) else x).roleAt p src).faults =
        (x.roleAt p src).faults := by
      intro x
      split
      · unfold State.roleAt
        split
        · exact State.modPt_leaves (fun y => (y.fl.roles.getD src RoleState.reset).faults) fun _ => rfl
        · exact State.modPt_leaves (fun y => y.fl.pls.faults) fun _ => rfl
      · rfl
    have putPts : (((s.at u).faultEvent p src cause 1).putFault p src cause false).pts.length = 16 :=
      (State.putFault_sound (State.faultEvent_sound (State.at_sound snd))).pts
    refine ⟨_, e, (State.faultEvent_raised (State.at_sound snd)).congr (((untrip _).host rfl).trans (put.host rfl)),
      ⟨fun c => ?_, fun d ne => ?_⟩, fun c => ?_, fun r used n => ?_, fun q ne => ?_,
      exec_keeps (.sensorFaultCleared u p src cause) _ _ e⟩
    · rw [slices]
      exact State.putFault_slice snd.slices c (State.limitFault_chan l c (.inr h))
    · rw [slices]
      exact State.putFault_slice_other ne
    · rw [if_pos c]
      exact congrArg (fun x : Point => x.fl.exTrip) (State.modPt_same (by rw [putPts]; exact l))
    · rw [roles]
      exact State.putFault_role pts r used n
    · refine Eq.trans ?_ (State.putFault_other (s := (s.at u).faultEvent p src cause 1) (src := src) (cause := cause) (b := false) ne)
      split
      · exact State.modPt_other (Ne.symm ne)
      · rfl
  case excitation =>
    have e : execExcitationCompliance u p tripped s = .next ((s.at u).modFl p (fun f =>
      if tripped then { f with exLevel := true, exTrip := some s.frm, exRun := 0 } else { f with exLevel := false })) := if_neg lv
    have same : ((s.at u).modFl p (fun f =>
        if tripped then { f with exLevel := true, exTrip := some s.frm, exRun := 0 } else { f with exLevel := false })).pt p =
        { s.pt p with fl := if tripped then { (s.pt p).fl with exLevel := true, exTrip := some s.frm, exRun := 0 }
          else { (s.pt p).fl with exLevel := false } } := State.modPt_same pts
    refine ⟨_, e, ?_, ?_, ?_, fun q ne => State.modPt_other (Ne.symm ne), State.modFl_keeps rfl (State.at_keeps rfl .refl)⟩
    · rw [same]
      cases tripped <;> rfl
    · rw [same]
      cases tripped <;> rfl
    · rw [same]
  case short => exact fun lineB rising both held h => execPulseEdge_short h
  case forward =>
    intro held h mf
    have other : ∀ f g, ∀ q, q ≠ p → (((s.at u).modPt p f).modPt p g).pt q = s.pt q := fun f g q ne =>
      (State.modPt_other (Ne.symm ne)).trans (State.modPt_other (Ne.symm ne))
    have same : ∀ f g, (((s.at u).modPt p f).modPt p g).pt p = g (f (s.pt p)) := fun f g =>
      (State.modPt_same (lt_of_lt_of_eq pts (sized_upd rfl).symm)).trans (congrArg g (State.modPt_same pts))
    refine ⟨_, execPulseEdge_forward fl m h mf, ?_, ?_, ?_, ?_, ?_, other _ _, State.modPt_keeps rfl (State.modPt_keeps rfl (State.at_keeps rfl .refl))⟩
    all_goals rw [same]
    · rfl
  case trailing =>
    have ripe : ripeAt (s.pt p).mpo.trailDue u = true := by
      rw [e]
      exact decide_eq_true le
    have mpo := State.driveMpo_mpo (s := s.at u) (p := p) (f := fun x => { x with level := false, trailDue := none }) pts
    refine ⟨_, execMpoPulseEdge_trailing ripe, mpo.trans ?_, fun q ne => State.driveMpo_other ne,
      State.driveMpo_keeps rfl (State.at_keeps rfl .refl)⟩
    rw [Bool.false_bne]
    rfl
  case leading =>
    have mpo := State.driveMpo_mpo (s := s.at u) (p := p) (f := fun x =>
      { x with level := true, trailDue := some (e + s.pn PT_MPO_WIDTH p * 1000000)
               notBefore := e + 2 * (s.pn PT_MPO_WIDTH p * 1000000), sched := rest }) pts
    refine ⟨_, execMpoPulseEdge_leading on t b sch due free, ?_, ?_, ?_, ?_, ?_, fun q ne => State.driveMpo_other ne,
      State.driveMpo_keeps rfl (State.at_keeps rfl .refl)⟩
    all_goals rw [mpo]
    rw [Bool.true_bne]
    rfl
end

section
/-!
The SAR converters (16 Tables 16.3, 16.6, 16.7): timers and triggers, conversions, the monitor scan and the self-tests.
-/

namespace Sys2Proof.Machine

/-! ### Reading a converter after an update -/

theorem State.modConv_leaves {α : Type} {s : State} {k c : Nat} {f : SarConv → SarConv} (g : SarConv → α) (e : ∀ x, g (f x) = g x) :
    g ((s.modConv k f).conv c) = g (s.conv c) :=
  getD_upd (fun x => g x = g (s.conv c)) rfl fun _ h => (e _).trans h

theorem State.modEntry_leaves {α : Type} {s : State} {k i c j : Nat} {f : SarEntry → SarEntry} (g : SarEntry → α)
    (e : ∀ x, g (f x) = g x) : g ((s.modEntry k i f).sarEntry c j) = g (s.sarEntry c j) :=
  State.modConv_leaves (fun x => g (x.entries.getD j SarEntry.reset))
    fun x => getD_upd (fun y => g y = g (x.entries.getD j SarEntry.reset)) rfl fun _ h => (e _).trans h

theorem State.modEntry_same {s : State} {k i : Nat} {f : SarEntry → SarEntry} (l : k < s.sar.conv.length)
    (n : i < (s.conv k).entries.length) : (s.modEntry k i f).sarEntry k i = f (s.sarEntry k i) := by
  unfold State.sarEntry State.modEntry
  rw [State.modConv_same l]
  exact getD_upd_eq n

theorem State.modEntry_entry_other {s : State} {k i c j : Nat} {f : SarEntry → SarEntry} (ne : k ≠ c ∨ i ≠ j) :
    (s.modEntry k i f).sarEntry c j = s.sarEntry c j := by
  by_cases h : k = c
  · subst h
    have ij : i ≠ j := ne.resolve_left fun n => n rfl
    exact State.modConv_leaves (fun x => x.entries.getD j SarEntry.reset) fun _ => getD_upd_ne ij
  · unfold State.sarEntry State.modEntry
    rw [State.modConv_other h]

/-! ### Triggers -/

theorem forAll_leaves {β : Type} {f : Nat → State → State} {R : State → β} {l : List Nat} {s : State}
    (h : ∀ i x, R (f i x) = R x) : R (forAll l f s) = R s := by
  induction l generalizing s with
  | nil => rfl
  | cons i l ih => exact (ih (s := f i s)).trans (h i s)

/-- One entry under a trigger: due after its delay where its descriptor names the trigger. -/
def State.fireEntry (code a k : Nat) (i : Nat) (s : State) : State :=
  if dTrigger (s.descr k i) = code then s.modEntry k i (fun e => { e with trigAt := e.trigAt ++ [a + 10 * dDelay (s.descr k i)] })
  else s

theorem State.fireTrigger_eq {s : State} {code a : Nat} {ks : List Nat} :
    s.fireTrigger code a ks = forAll ks (fun k s => forAll (List.range 32) (State.fireEntry code a k) s) s := rfl

theorem State.descr_congr {s t : State} {k i : Nat} (p : t.par = s.par) (q : t.pts = s.pts) : t.descr k i = s.descr k i := by
  unfold State.descr State.overDescr State.reservedEntry State.anySocket State.hasSocket State.highDelay State.highTime State.isPwm State.outOf
    State.isOutlet State.ptType State.pn State.pv State.pt
  rw [p, q]

/-- A trigger leaves the other fields of the converters, and the number of their entries. -/
theorem State.fireEntry_other {s : State} {code a k k' i : Nat} (ne : k' ≠ k) :
    (State.fireEntry code a k i s).conv k' = s.conv k' := by
  unfold State.fireEntry
  split
  · exact State.modConv_other (Ne.symm ne)
  · rfl

/-- What a trigger needs of the machine on its way: parameters, points, and the converters' entries in full. -/
structure Firing (s x : State) (k : Nat) : Prop where
  par : x.par = s.par
  pts : x.pts = s.pts
  convs : x.sar.conv.length = 4
  entries : (x.conv k).entries.length = 32

theorem Firing.step {s x : State} {k k' code a i : Nat} (h : Firing s x k) : Firing s (State.fireEntry code a k' i x) k := by
  unfold State.fireEntry
  split
  · exact ⟨h.par, h.pts, sized_upd h.convs,
      (State.modConv_leaves (fun c => c.entries.length) fun _ => List.length_modify ..).trans h.entries⟩
  · exact h

theorem Firing.forAll {s x : State} {k : Nat} {f : Nat → State → State} {l : List Nat} (h : Firing s x k)
    (g : ∀ i y, Firing s y k → Firing s (f i y) k) : Firing s (forAll l f x) k := by
  induction l generalizing x with
  | nil => exact h
  | cons a l ih => exact ih (g a x h)

/-- Every entry that names the trigger becomes due after its own delay, and no other (R385). -/
theorem State.fireTrigger_entry {s : State} {code a k j : Nat} {ks : List Nat} (nd : ks.Nodup) (m : k ∈ ks)
    (n : s.sar.conv.length = 4) (l : k < 4) (e : (s.conv k).entries.length = 32) (lj : j < 32) :
    ((s.fireTrigger code a ks).sarEntry k j).trigAt =
      if dTrigger (s.descr k j) = code then (s.sarEntry k j).trigAt ++ [a + 10 * dDelay (s.descr k j)]
      else (s.sarEntry k j).trigAt := by
  have start : Firing s s k := ⟨rfl, rfl, n, e⟩
  rw [State.fireTrigger_eq]
  have outer := forAll_at (I := fun x => Firing s x k) (R := fun x => (x.sarEntry k j).trigAt)
    (g := fun r => if dTrigger (s.descr k j) = code then r ++ [a + 10 * dDelay (s.descr k j)] else r) (p := k) (l := ks) (s := s)
    (f := fun k s => Machine.forAll (List.range 32) (State.fireEntry code a k) s) nd start
    (fun _ _ h => h.forAll fun _ _ h => h.step)
    (fun k' x _ ne => forAll_leaves (R := fun x => (x.sarEntry k j).trigAt) fun i y => by
      unfold State.sarEntry
      rw [State.fireEntry_other (Ne.symm ne)])
    (fun x h => ?_)
  · rw [outer, if_pos m]
  · have inner := forAll_at (I := fun x => Firing s x k) (R := fun x => (x.sarEntry k j).trigAt)
      (g := fun r => if dTrigger (s.descr k j) = code then r ++ [a + 10 * dDelay (s.descr k j)] else r) (p := j)
      (l := List.range 32) (s := x) (f := State.fireEntry code a k) List.nodup_range h (fun _ _ h => h.step)
      (fun i y _ ne => ?_) (fun y h => ?_)
    · rw [inner, if_pos (List.mem_range.mpr lj)]
    · unfold State.fireEntry
      split
      · rw [State.modEntry_entry_other (.inr ne)]
      · rfl
    · have d : y.descr k j = s.descr k j := State.descr_congr h.par h.pts
      unfold State.fireEntry
      rw [d]
      split
      · rw [State.modEntry_same (h.convs.symm ▸ l) (h.entries.symm ▸ lj)]
      · rfl

/-- Of the converters' part a trigger changes the entries alone. -/
theorem State.fireTrigger_timers {s : State} {code a : Nat} {ks : List Nat} :
    (s.fireTrigger code a ks).sar.timerNext = s.sar.timerNext := by
  have step : ∀ k i (x : State), (State.fireEntry code a k i x).sar.timerNext = x.sar.timerNext := by
    intro k i x
    unfold State.fireEntry
    split <;> rfl
  rw [State.fireTrigger_eq]
  exact forAll_leaves (R := fun x => x.sar.timerNext) fun k x => forAll_leaves (R := fun x => x.sar.timerNext) fun i y => step k i y

theorem execSarTimerTick_due {s : State} {u i d : Nat} (l : i < 8) (st : 3 ≤ s.pwr.stage) (h : s.sar.timerNext.getD i none = some d)
    (due : d ≤ u) : execSarTimerTick u i s = .next (((s.at u).fireTrigger (1 + i) d convs).modSar (fun x => { x with
      timerNext := put x.timerNext i (if s.sarTimer i = 0 then none else some (d + s.sarTimer i)) })) := by
  have h' : (s.at u).sar.timerNext.getD i none = some d := h
  unfold execSarTimerTick
  dsimp only
  rw [h']
  exact if_pos ⟨st, due, l⟩

theorem getD_put_eq {α : Type} {l : List α} {i : Nat} {a d : α} (h : i < l.length) : (put l i a).getD i d = a := by
  unfold put
  rw [getD_set, if_pos ⟨rfl, h⟩]

/-! ### An entry that becomes pending -/

theorem insertPend_mem {i d a : Nat} {l : List (Nat × Nat × Nat)} : (i, d, a) ∈ insertPend i d a l := by
  induction l with
  | nil => exact List.mem_singleton_self _
  | cons x xs ih =>
    unfold insertPend
    split
    · exact List.mem_cons_self
    · exact List.mem_cons_of_mem _ ih

theorem insertPend_length {i d a : Nat} {l : List (Nat × Nat × Nat)} : (insertPend i d a l).length = l.length + 1 := by
  induction l with
  | nil => rfl
  | cons x xs ih =>
    unfold insertPend
    split
    · rfl
    · rw [List.length_cons, ih, List.length_cons]

theorem execSarTriggerFire_due {s : State} {u k i a : Nat} {rest : List Nat} (lk : k < 4) (li : i < 32)
    (h : (s.sarEntry k i).trigAt = a :: rest) (due : a ≤ u) : execSarTriggerFire u k i s =
      .next (let x := (s.at u).modEntry k i (fun e => { e with
          trigAt := rest, overrun := e.overrun || (s.conv k).pend.any (fun x => x.1 == i) })
        if (s.conv k).pend.any (fun x => x.1 == i) then x
        else x.modConv k (fun c => { c with pend := insertPend i (s.descr k i) a c.pend })) := by
  have h' : ((s.at u).sarEntry k i).trigAt = a :: rest := h
  unfold execSarTriggerFire
  dsimp only
  rw [h']
  exact if_pos ⟨lk, li, due⟩

theorem State.entries_of_trigAt {s : State} {k i a : Nat} {rest : List Nat} (h : (s.sarEntry k i).trigAt = a :: rest) :
    i < (s.conv k).entries.length := by
  by_contra l
  rw [State.sarEntry, List.getD_eq_default _ _ (Nat.not_lt.mp l)] at h
  cases h

/-! ### A result -/

/-- What follows a result leaves: the conversions pending, the entry's code and VALID, and the other converters. -/
structure ResultKept (k i : Nat) (s x : State) : Prop where
  pend : (x.conv k).pend = (s.conv k).pend
  valid : (x.sarEntry k i).valid = (s.sarEntry k i).valid
  code : (x.sarEntry k i).code = (s.sarEntry k i).code
  other : ∀ c, c ≠ k → x.conv c = s.conv c

theorem ResultKept.refl {k i : Nat} {s : State} : ResultKept k i s s := ⟨rfl, rfl, rfl, fun _ _ => rfl⟩

theorem ResultKept.trans {k i : Nat} {s x y : State} (h : ResultKept k i s x) (g : ResultKept k i x y) : ResultKept k i s y :=
  ⟨g.pend.trans h.pend, g.valid.trans h.valid, g.code.trans h.code, fun c ne => (g.other c ne).trans (h.other c ne)⟩

theorem ResultKept.ite {k i : Nat} {s x y : State} {c : Prop} [Decidable c] (h : ResultKept k i s x) (g : ResultKept k i s y) :
    ResultKept k i s (if c then x else y) := by
  split <;> assumption

theorem ResultKept.of_sar {k i : Nat} {s x : State} (h : x.sar = s.sar) : ResultKept k i s x := by
  have c : ∀ c, x.conv c = s.conv c := fun c => by rw [State.conv, h, State.conv]
  refine ⟨by rw [c], ?_, ?_, fun d _ => c d⟩
  · rw [State.sarEntry, c, State.sarEntry]
  · rw [State.sarEntry, c, State.sarEntry]

theorem State.modConv_resultKept {s : State} {k i : Nat} {f : SarConv → SarConv} (p : ∀ c, (f c).pend = c.pend)
    (e : ∀ c, (f c).entries = c.entries) : ResultKept k i s (s.modConv k f) where
  pend := State.modConv_leaves SarConv.pend p
  valid := State.modConv_leaves (fun c => (c.entries.getD i SarEntry.reset).valid) fun c => by rw [e]
  code := State.modConv_leaves (fun c => (c.entries.getD i SarEntry.reset).code) fun c => by rw [e]
  other := fun _ ne => State.modConv_other (Ne.symm ne)

theorem State.modEntry_resultKept {s : State} {k i j : Nat} {f : SarEntry → SarEntry} (v : ∀ e, (f e).valid = e.valid)
    (c : ∀ e, (f e).code = e.code) : ResultKept k i s (s.modEntry k j f) where
  pend := State.modConv_leaves SarConv.pend fun _ => rfl
  valid := State.modEntry_leaves SarEntry.valid v
  code := State.modEntry_leaves SarEntry.code c
  other := fun _ ne => State.modConv_other (Ne.symm ne)

theorem State.raise_resultKept {s : State} {k i ev sub : Nat} {b : Bytes} : ResultKept k i s (s.raise ev sub b) := .of_sar rfl

theorem State.limitCheck_resultKept {s : State} {k i j d code frame offset : Nat} :
    ResultKept k i s (s.limitCheck k j d code frame offset) := by
  have side : ∀ a b : Nat, ResultKept k i s (s.modEntry k j (fun e => { e with side := a, run := b })) :=
    fun a b => State.modEntry_resultKept (fun _ => rfl) fun _ => rfl
  have limit : ∀ (x : State) (l : Nat), ResultKept k i x (x.modEntry k j (fun e => { e with limit := l })) :=
    fun x l => State.modEntry_resultKept (fun _ => rfl) fun _ => rfl
  unfold State.limitCheck
  split
  · exact .refl
  · exact .ite ((side _ _).trans ((limit _ _).trans State.raise_resultKept)) (side _ _)

theorem State.sequenceDone_resultKept {s : State} {k i : Nat} {b : Bytes} : ResultKept k i s (s.sequenceDone k b) := by
  have done : ∀ n, ResultKept k i s (s.modConv k (fun c => { c with doneFrame := n })) :=
    fun n => State.modConv_resultKept (fun _ => rfl) fun _ => rfl
  exact .ite (State.modConv_resultKept (fun _ => rfl) fun _ => rfl) ((done _).trans State.raise_resultKept)

theorem State.useResult_resultKept {s : State} {k i j code : Nat} : ResultKept k i s (s.useResult k j code) :=
  .of_sar ((State.useResult_keeps rfl (Keeps.refl (T := [.pts, .sw]))).sar rfl)

/-- A conversion completed: its entry's result, then what follows it. -/
theorem execSarConversionComplete_first {s : State} {u k i d a code sampled : Nat} {rest : List (Nat × Nat × Nat)} (lk : k < 4)
    (h : (s.conv k).pend = (i, d, a) :: rest) (lc : code < 4096) (after : a ≤ sampled) (le : sampled ≤ u) :
    ∃ t o f, execSarConversionComplete u k code sampled s = .next t ∧
      ResultKept k i (((s.at u).modConv k (fun c => { c with pend := rest })).modEntry k i
        (fun e => { e with valid := true, code := code, offset := o, frame := f })) t := by
  have h' : ((s.at u).conv k).pend = (i, d, a) :: rest := h
  unfold execSarConversionComplete
  dsimp only
  rw [h']
  exact ⟨_, _, _, if_pos ⟨lk, lc, after, le⟩, (State.limitCheck_resultKept.trans
    (.ite State.sequenceDone_resultKept .refl)).trans State.useResult_resultKept⟩

/-! ### The monitor scan -/

/-- What the checks of a scan leave of the converters' part. -/
structure ScanKept (s x : State) : Prop where
  vsw : x.sar.monVsw = s.sar.monVsw
  vio : x.sar.monVio = s.sar.monVio
  vana : x.sar.monVana = s.sar.monVana
  vcore : x.sar.monVcore = s.sar.monVcore
  held : x.sar.refHeld = s.sar.refHeld
  conv : x.sar.conv = s.sar.conv

theorem ScanKept.refl {s : State} : ScanKept s s := ⟨rfl, rfl, rfl, rfl, rfl, rfl⟩

theorem ScanKept.trans {s x y : State} (h : ScanKept s x) (g : ScanKept x y) : ScanKept s y :=
  ⟨g.vsw.trans h.vsw, g.vio.trans h.vio, g.vana.trans h.vana, g.vcore.trans h.vcore, g.held.trans h.held, g.conv.trans h.conv⟩

theorem ScanKept.of_sar {s x : State} (h : x.sar = s.sar) : ScanKept s x := by
  constructor <;> rw [h]

theorem State.rangeCheck_sar {s : State} {i : Nat} {bad : Bool} {v lo hi : Int} : (s.rangeCheck i bad v lo hi).sar = s.sar :=
  (State.rangeCheck_keeps rfl (Keeps.refl (T := [.host, .pwr]))).sar rfl

theorem State.rail_scanKept {s : State} {i v : Nat} : ScanKept s (s.rail i v) := by
  have mark : ∀ (x : State) (f : Sar → Nat), ScanKept x (x.modSar (fun y => { y with supBad := f y })) :=
    fun _ _ => ⟨rfl, rfl, rfl, rfl, rfl, rfl⟩
  unfold State.rail
  dsimp only
  split
  · exact (ScanKept.of_sar State.rangeCheck_sar).trans (mark _ _)
  · exact .refl

theorem ScanKept.ite {s x y : State} {c : Prop} [Decidable c] (h : ScanKept s x) (g : ScanKept s y) :
    ScanKept s (if c then x else y) := by
  split <;> assumption

theorem State.thermalDie_scanKept {s : State} {k : Nat} {a b c : Int} : ScanKept s (s.thermalDie k a b c) := .of_sar rfl

theorem State.dieCheck_scan {s : State} {v : Int} : (s.dieCheck v).sar.dieTemp = v ∧ ScanKept s (s.dieCheck v) := by
  have mark : ∀ (x : State) (b : Bool), ScanKept x (x.modSar (fun y => { y with tempWarn := b })) :=
    fun _ _ => ⟨rfl, rfl, rfl, rfl, rfl, rfl⟩
  have last : ∀ (x : State) (b : Bool), ScanKept x (x.modSar (fun y => { y with dieTemp := v, tempHot := b })) :=
    fun _ _ => ⟨rfl, rfl, rfl, rfl, rfl, rfl⟩
  have ext : ∀ e, ScanKept s (s.putExt 5 e) := fun _ => .of_sar rfl
  have hot : ∀ (x : State) (c : Prop) [Decidable c] (e : Int), ScanKept x (if c then x.thermalDie 2 v 1250 e else x) :=
    fun x c _ e => .ite State.thermalDie_scanKept .refl
  have warn : ∀ (a b c : Prop) [Decidable a] [Decidable b] [Decidable c] (w e m : Int), ScanKept s
      (if a then ((s.putExt 5 v).modSar (fun x => { x with tempWarn := true })).thermalDie 0 v w v
       else if b then (s.modSar (fun x => { x with tempWarn := false })).thermalDie 1 v (w - 50) e
       else if c then s.putExt 5 m else s) := fun a b c _ _ _ w e m =>
    .ite (((ext v).trans (mark _ true)).trans State.thermalDie_scanKept)
      (.ite ((mark s false).trans State.thermalDie_scanKept) (.ite (ext m) .refl))
  exact ⟨rfl, ((warn _ _ _ _ _ _).trans (hot _ _ _)).trans (last _ _)⟩

/-- The reference ratio of a scan, unless it is held. -/
theorem State.refCheck_scan {s : State} {v : Int} :
    (s.sar.refHeld = false → (s.refCheck v).sar.refPpm = v) ∧ (s.refCheck v).sar.dieTemp = s.sar.dieTemp ∧
      ScanKept s (s.refCheck v) := by
  have mark : ∀ (x : State) (b : Bool), ScanKept x (x.modSar (fun y => { y with refPpm := v, refBad := b })) :=
    fun _ _ => ⟨rfl, rfl, rfl, rfl, rfl, rfl⟩
  have temp : ∀ bad lo hi, (s.rangeCheck 4 bad v lo hi).sar.dieTemp = s.sar.dieTemp :=
    fun _ _ _ => congrArg Sar.dieTemp State.rangeCheck_sar
  unfold State.refCheck
  dsimp only
  split
  · next h => exact ⟨fun n => absurd (h.symm.trans n) (by decide), rfl, .refl⟩
  · exact ⟨fun _ => rfl, temp _ _ _, (ScanKept.of_sar State.rangeCheck_sar).trans (mark _ _)⟩

/-- The excitation currents of a scan leave the other readings. -/
theorem State.excScan_scan {s : State} {l : List (Nat × Nat)} : (s.excScan l).sar.refPpm = s.sar.refPpm ∧
    (s.excScan l).sar.dieTemp = s.sar.dieTemp ∧ ScanKept s (s.excScan l) := by
  have step : ∀ (l : List (Nat × Nat)) (f : State → Nat × Nat → State), (∀ x a, (f x a).sar.refPpm = x.sar.refPpm ∧
      (f x a).sar.dieTemp = x.sar.dieTemp ∧ ScanKept x (f x a)) → ∀ x, (l.foldl f x).sar.refPpm = x.sar.refPpm ∧
      (l.foldl f x).sar.dieTemp = x.sar.dieTemp ∧ ScanKept x (l.foldl f x) := by
    intro l f g
    induction l with
    | nil => exact fun x => ⟨rfl, rfl, .refl⟩
    | cons a l ih =>
      intro x
      obtain ⟨r, d, k⟩ := ih (f x a)
      obtain ⟨r', d', k'⟩ := g x a
      exact ⟨r.trans r', d.trans d', k'.trans k⟩
  unfold State.excScan
  dsimp only
  split
  · exact ⟨rfl, rfl, .refl⟩
  · refine step l _ (fun x a => ?_) s
    split
    · exact ⟨rfl, rfl, rfl, rfl, rfl, rfl, rfl, rfl⟩
    · exact ⟨rfl, rfl, .refl⟩

/-- The readings of a scan, and what else it leaves. -/
theorem execMonitorScan_started {s : State} {u : Nat} {m : MonObs} (st : 3 ≤ s.pwr.stage) :
    ∃ t, execMonitorScan u m s = .next t ∧ t.sar.monVsw = monMean 16 m.vsw ∧ t.sar.monVio = monMean 2 m.vio ∧
      t.sar.monVana = monMean 2 m.vana ∧ t.sar.monVcore = monMean 1 m.vcore ∧ t.sar.dieTemp = dieOf m.die ∧
      (s.sar.refHeld = false → t.sar.refPpm = refPpmOf m.refA m.refB) ∧ t.sar.conv = s.sar.conv := by
  have on : ¬ (s.at u).pwr.stage < 3 := Nat.not_lt.mpr st
  unfold execMonitorScan
  dsimp only
  rw [if_neg on]
  have rails : ∀ (x : State) a b c d, ScanKept x ((((x.rail 0 a).rail 1 b).rail 2 c).rail 3 d) := fun x a b c d =>
    ((State.rail_scanKept.trans State.rail_scanKept).trans State.rail_scanKept).trans State.rail_scanKept
  refine ⟨_, rfl, ?_⟩
  generalize hx : (s.at u).modSar (fun x => { x with
    monVsw := monMean 16 m.vsw, monVio := monMean 2 m.vio, monVana := monMean 2 m.vana, monVcore := monMean 1 m.vcore }) = x
  have r := rails x (monMean 16 m.vsw) (monMean 2 m.vio) (monMean 2 m.vana) (monMean 1 m.vcore)
  generalize (((x.rail 0 (monMean 16 m.vsw)).rail 1 (monMean 2 m.vio)).rail 2 (monMean 2 m.vana)).rail 3 (monMean 1 m.vcore) = y at r
  obtain ⟨dt, dk⟩ := State.dieCheck_scan (s := y) (v := dieOf m.die)
  obtain ⟨rp, rd, rk⟩ := State.refCheck_scan (s := y.dieCheck (dieOf m.die)) (v := refPpmOf m.refA m.refB)
  obtain ⟨ep, ed, ek⟩ := State.excScan_scan (s := (y.dieCheck (dieOf m.die)).refCheck (refPpmOf m.refA m.refB))
    (l := m.exc.map (fun x => (x.1, monMean 1000 x.2)))
  have k := r.trans (dk.trans (rk.trans ek))
  subst hx
  exact ⟨k.vsw, k.vio, k.vana, k.vcore, ed.trans (rd.trans dt),
    fun n => ep.trans (rp ((r.trans dk).held.trans n)), k.conv⟩

/-! ### The self-tests -/

theorem execSarSelftestRun_due {s : State} {u k : Nat} (st : 3 ≤ s.pwr.stage) (l : k < 4) (r : (s.conv k).stRun = false)
    (d : (s.conv k).stWait = true ∨ ripeAt (s.conv k).stDue u = true) :
    ∃ n w, (w = true → k = 3 ∧ ∃ p ∈ points16, (s.outOf p).test = 4) ∧ execSarSelftestRun u k s = .next
      (let x := (s.at u).modConv k (fun c => { c with stDue := if ripeAt c.stDue u then some n else c.stDue })
       if (s.conv k).dac = 0 ∧ w = false then x.modConv k (fun c => { c with dac := 3, stRun := true, stWait := false })
       else x.modConv k (fun c => { c with stWait := true })) := by
  refine ⟨_, _, ?_, if_pos ⟨st, l, r, d⟩⟩
  intro w
  simp only [Bool.and_eq_true, beq_iff_eq, List.any_eq_true] at w
  obtain ⟨k3, p, m, ⟨t, -⟩, -⟩ := w
  exact ⟨k3, p, m, t⟩

/-- A self-test completed: its converter's verdict, its event, and the reference held or not (R395). -/
theorem execSarSelftestComplete_running {s : State} {u k : Nat} {sums : List Nat} (l : k < 4) (r : (s.conv k).stRun = true)
    (n : sums.length = 4) :
    (let fail := decide (16 * s.pn ND_SAR_SELFTEST_TOL < (worstStep sums).1)
     ∃ (due : SarConv → Option Nat) (b : Bytes) (c : Nat) (ppm : Int), execSarSelftestComplete u k sums s = .next
      (let x := (s.at u).modConv k (fun c => { c with
         dac := 0, stRun := false, suspect := fail, stCount := inc32 c.stCount, stDue := due c })
       let y := if fail || (s.conv k).suspect then x.raise 45 k b else x
       if k = 2 ∧ fail ≠ y.sar.refHeld then (y.modSar (fun x => { x with refHeld := fail })).supplyMon 5 c ppm 0 0 else y)) :=
  ⟨_, _, _, _, if_pos ⟨l, r, n⟩⟩

end Sys2Proof.Machine

open Sys2Proof Sys2Proof.Machine

/-- Settles O18: triggers by `State.fireTrigger_entry`, results by `ResultKept`, scans by `ScanKept`. -/
theorem sarEventsComplete : Obligations.SarEventsComplete := by
  intro s u snd
  refine ⟨?timer, ?fire, ?conversion, ?scan, ?run, ?complete⟩
  case timer =>
    intro i d l st h due full
    have li : i < s.sar.timerNext.length := by
      by_contra c
      rw [List.getD_eq_default _ _ (Nat.not_lt.mp c)] at h
      cases h
    have e := execSarTimerTick_due l st h due
    refine ⟨_, e, ?_, fun k j lk lj => ?_, exec_keeps (.sarTimerTick u i) _ _ e⟩
    · refine getD_put_eq ?_
      rw [State.fireTrigger_timers]
      exact li
    · exact State.fireTrigger_entry (s := s.at u) (by decide) (by simp [convs]; omega) snd.converters lk (full k lk) lj
  case fire =>
    intro k i a rest lk li h due
    have e := execSarTriggerFire_due lk li h due
    have in' := State.entries_of_trigAt h
    have same : ∀ o, ((s.at u).modEntry k i (fun e => { e with trigAt := rest, overrun := e.overrun || o })).sarEntry k i =
        { s.sarEntry k i with trigAt := rest, overrun := (s.sarEntry k i).overrun || o } :=
      fun o => State.modEntry_same (snd.converters.symm ▸ lk) in'
    have pend : ∀ o, (((s.at u).modEntry k i (fun e => { e with trigAt := rest, overrun := e.overrun || o })).conv k).pend =
        (s.conv k).pend := fun o => State.modConv_leaves SarConv.pend fun _ => rfl
    have other : ∀ o c, c ≠ k → ((s.at u).modEntry k i (fun e => { e with trigAt := rest, overrun := e.overrun || o })).conv c =
        s.conv c := fun o c ne => State.modConv_other (Ne.symm ne)
    refine ⟨_, e, ?_⟩
    cases busy : (s.conv k).pend.any (fun x => x.1 == i) with
    | true =>
      refine ⟨congrArg SarEntry.trigAt (same true), fun _ => ⟨?_, pend true⟩, fun n => (by cases n), other true,
        State.modEntry_keeps rfl (State.at_keeps rfl .refl)⟩
      refine (congrArg SarEntry.overrun (same true)).trans (Bool.or_true _)
    | false =>
      have put := State.modConv_same (s := (s.at u).modEntry k i (fun e => { e with trigAt := rest, overrun := e.overrun || false }))
        (i := k) (f := fun c => { c with pend := insertPend i (s.descr k i) a c.pend }) (lt_of_lt_of_eq lk (sized_upd snd.converters).symm)
      have pended := (congrArg SarConv.pend put).trans (congrArg (insertPend i (s.descr k i) a) (pend false))
      refine ⟨?_, fun n => (by cases n), fun _ => ⟨?_, ?_⟩, fun c ne => (State.modConv_other (Ne.symm ne)).trans (other false c ne),
        State.modConv_keeps rfl (State.modEntry_keeps rfl (State.at_keeps rfl .refl))⟩
      · exact (congrArg (fun c : SarConv => (c.entries.getD i SarEntry.reset).trigAt) put).trans (congrArg SarEntry.trigAt (same false))
      · exact pended ▸ insertPend_mem
      · exact (congrArg List.length pended).trans insertPend_length
  case conversion =>
    intro k i d a rest code sampled lk h li full lc after le
    obtain ⟨t, o, f, e, kept⟩ := execSarConversionComplete_first (u := u) lk h lc after le
    have taken := State.modConv_same (s := s.at u) (i := k) (f := fun c => { c with pend := rest }) (snd.converters.symm ▸ lk)
    have same : ((((s.at u).modConv k (fun c => { c with pend := rest })).modEntry k i
        (fun e => { e with valid := true, code := code, offset := o, frame := f })).sarEntry k i) = _ :=
      State.modEntry_same (lt_of_lt_of_eq lk (sized_upd snd.converters).symm)
        (by rw [taken]; exact lt_of_lt_of_eq li full.symm)
    refine ⟨t, e, kept.pend.trans ?_, kept.valid.trans (congrArg SarEntry.valid same), kept.code.trans (congrArg SarEntry.code same),
      fun c ne => (kept.other c ne).trans ?_, exec_keeps (.sarConversionComplete u k code sampled) _ _ e⟩
    · have entry : ∀ (x : State) g, ((x.modEntry k i g).conv k).pend = (x.conv k).pend :=
        fun _ _ => State.modConv_leaves SarConv.pend fun _ => rfl
      exact (entry _ _).trans (congrArg SarConv.pend taken)
    · exact (State.modConv_other (Ne.symm ne)).trans (State.modConv_other (Ne.symm ne))
  case scan =>
    intro m st
    obtain ⟨t, e, vsw, vio, vana, vcore, die, ref, conv⟩ := execMonitorScan_started (u := u) (m := m) st
    exact ⟨t, e, vsw, vio, vana, vcore, die, ref, conv, exec_keeps (.monitorScan u m) _ _ e⟩
  case run =>
    intro k lk st r d
    obtain ⟨n, w, waits, e⟩ := execSarSelftestRun_due (u := u) st lk r d
    have len : k < ((s.at u).modConv k (fun c => { c with stDue := if ripeAt c.stDue u then some n else c.stDue })).sar.conv.length :=
      lt_of_lt_of_eq lk (sized_upd snd.converters).symm
    have due := State.modConv_same (s := s.at u) (i := k)
      (f := fun c => { c with stDue := if ripeAt c.stDue u then some n else c.stDue }) (snd.converters.symm ▸ lk)
    have other : ∀ g c, c ≠ k → ((((s.at u).modConv k (fun c => { c with stDue := if ripeAt c.stDue u then some n else c.stDue })).modConv
        k g).conv c) = s.conv c := fun g c ne => (State.modConv_other (Ne.symm ne)).trans (State.modConv_other (Ne.symm ne))
    refine ⟨_, e, fun z free => ?_, fun busy => ?_, fun c ne => ?_, exec_keeps (.sarSelftestRun u k) _ _ e⟩
    · have nw : w = false := by
        cases w with
        | false => rfl
        | true =>
          obtain ⟨k3, p, m, t⟩ := waits rfl
          exact absurd t (free k3 p (by simp [points16] at m; omega))
      dsimp only
      rw [if_pos ⟨z, nw⟩, State.modConv_same len]
      exact ⟨rfl, rfl, rfl⟩
    · dsimp only
      rw [if_neg (fun c => busy c.1), State.modConv_same len, due]
      exact ⟨rfl, r, rfl⟩
    · dsimp only
      split
      · exact other _ c ne
      · exact other _ c ne
  case complete =>
    intro k sums lk r n
    obtain ⟨due, b, c, ppm, e⟩ := execSarSelftestComplete_running (u := u) lk r n
    have same := State.modConv_same (s := s.at u) (i := k) (f := fun c => { c with
      dac := 0, stRun := false, suspect := decide (16 * s.pn ND_SAR_SELFTEST_TOL < (worstStep sums).1), stCount := inc32 c.stCount
      stDue := due c }) (snd.converters.symm ▸ lk)
    have other : ∀ j, j ≠ k → ((s.at u).modConv k (fun c => { c with
      dac := 0, stRun := false, suspect := decide (16 * s.pn ND_SAR_SELFTEST_TOL < (worstStep sums).1), stCount := inc32 c.stCount
      stDue := due c })).conv j = s.conv j := fun j ne => State.modConv_other (Ne.symm ne)
    have raised : ∀ (x : State) (p : Bool), (if p then x.raise 45 k b else x).sar = x.sar := fun x p => by split <;> rfl
    have held : ∀ (y : State) (f : Bool), (if k = 2 ∧ f ≠ y.sar.refHeld then
        (y.modSar (fun x => { x with refHeld := f })).supplyMon 5 c ppm 0 0 else y).sar.conv = y.sar.conv := fun y f => by split <;> rfl
    have reference : ∀ (y : State) (f : Bool), k = 2 → (if k = 2 ∧ f ≠ y.sar.refHeld then
        (y.modSar (fun x => { x with refHeld := f })).supplyMon 5 c ppm 0 0 else y).sar.refHeld = f := by
      intro y f two
      split
      · rfl
      · next h => exact (Decidable.not_not.mp fun ne => h ⟨two, Ne.symm ne⟩)
    dsimp only at e
    have conv := fun (j : Nat) (y : State) (p f : Bool) => congrArg (fun l : List SarConv => l.getD j SarConv.reset)
      ((held (if p then y.raise 45 k b else y) f).trans (congrArg Sar.conv (raised y p)))
    refine ⟨_, e, ?_, ?_, ?_, ?_, fun two => ?_, fun j ne => (conv j _ _ _).trans (other j ne), exec_keeps (.sarSelftestComplete u k sums) _ _ e⟩
    · exact congrArg SarConv.dac ((conv k _ _ _).trans same)
    · exact congrArg SarConv.stRun ((conv k _ _ _).trans same)
    · exact (Bool.eq_iff_iff.mp (congrArg SarConv.suspect ((conv k _ _ _).trans same))).trans decide_eq_true_iff
    · exact congrArg SarConv.stCount ((conv k _ _ _).trans same)
    · exact (reference _ _ two).trans (congrArg SarConv.suspect ((conv k _ _ _).trans same)).symm
end

section
/-!
The node commands and the record commands (20 R479, R482; 10 R259, R260; 15 R377), and the channels of a course (01 R24).
-/

namespace Sys2Proof.Machine

/-! ### Fields of a payload -/

theorem fromLe_lt (p : Bytes) : fromLe p < 256 ^ p.length := by
  induction p with
  | nil => exact Nat.one_pos
  | cons b bs ih =>
    rw [fromLe, List.length_cons, Nat.pow_succ]
    have := b.isLt
    omega

theorem fld_byte_lt (p : Bytes) (off : Nat) : fld p off 1 < 256 :=
  lt_of_lt_of_le (fromLe_lt _) (Nat.pow_le_pow_right (n := 256) (by decide) (List.length_take_le _ _))

theorem toNat_byteOf {n : Nat} (l : n < 256) : (byteOf n).toNat = n := by
  rw [byteOf, BitVec.toNat_ofNat]
  exact Nat.mod_eq_of_lt l

theorem fld_single {n : Nat} (l : n < 256) : fld [byteOf n] 0 1 = n := by
  change (byteOf n).toNat + 256 * 0 = n
  rw [toNat_byteOf l]
  omega

/-! ### The answer of channel-status -/

/-- What channel-status answers of the channel that `c` governs (Table 20.4). -/
def State.channelBody (s : State) (c : Nat) : Bytes :=
  [byteOf (s.slice c).gain, byteOf (if s.eng.mode = 1 then courseCode (s.course (c / 2)).state else 0), 0, 0] ++
    (s.slice c).statusM (s.slice c).m1 ++ (s.slice c).statusM (s.slice c).m2 ++
    (List.range 6).flatMap (fun g => leI 4 (Config.trimOffset c g) ++ le 4 (Config.trimGain c g)) ++ leI 4 (s.slice c).mean

theorem serveChannelStatus_body {p : Bytes} {s : State} (l : p.length = 1) (n : fld p 0 1 < 128) :
    serveChannelStatus p s = okB s (s.channelBody (s.governs (fld p 0 1))) :=
  (if_neg (not_not_intro l)).trans (if_neg (by omega))

/-- In COURSED mode both channels of a course are governed by its even one (R24). -/
theorem State.governs_course {s : State} {j b : Nat} (m : s.eng.mode = 1) (l : b < 2) : s.governs (2 * j + b) = 2 * j := by
  unfold State.governs
  rw [if_pos m]
  omega

/-! ### A response's own detail -/

/-- A response with status 0 adds one detail to the queue of event 0 (R451). -/
theorem State.post_details {s : State} {m code tag : Nat} {b : Bytes} (l : s.host.events.length = 64)
    (room : (s.host.events.getD 0 EventQueue.reset).details.length < 8) :
    ∃ d, ((s.post m code tag 0 b).host.events.getD 0 EventQueue.reset).details =
      (s.host.events.getD 0 EventQueue.reset).details ++ [d] := by
  have added : ∀ (f : EventQueue → EventQueue) (d : Bytes), (∀ q, (f q).details = q.details) →
      ((upd (upd s.host.events 0 f) 0 (fun q => q.add d)).getD 0 EventQueue.reset).details =
      (s.host.events.getD 0 EventQueue.reset).details ++ [d] := by
    intro f d same
    rw [getD_upd_eq (lt_of_lt_of_eq (by decide) (sized_upd l).symm), getD_upd_eq (by omega), EventQueue.add,
      if_neg (by rw [same]; omega), same]
  exact ⟨_, added _ _ fun _ => rfl⟩

/-- The oldest detail of an event taken out of its queue. -/
def State.dropDetail (s : State) (n : Nat) : State :=
  s.modHost (fun h => { h with events := upd h.events n (fun q => { q with details := q.details.drop 1 }) })

theorem State.dropDetail_same {s : State} {n : Nat} (l : n < s.host.events.length) :
    (s.dropDetail n).host.events.getD n EventQueue.reset =
      { s.host.events.getD n EventQueue.reset with details := (s.host.events.getD n EventQueue.reset).details.drop 1 } :=
  getD_upd_eq l

theorem State.dropDetail_other {s : State} {n e : Nat} (ne : e ≠ n) :
    (s.dropDetail n).host.events.getD e EventQueue.reset = s.host.events.getD e EventQueue.reset := getD_upd_ne (Ne.symm ne)

theorem State.dropDetail_pend {s : State} {n : Nat} : (s.dropDetail n).host.pend = s.host.pend := rfl

theorem State.dropDetail_calm {s : State} {n : Nat} : Calm s (s.dropDetail n) := ⟨rfl, rfl⟩

theorem State.dropDetail_keeps {s : State} {n : Nat} : Keeps [.clk, .host] s (s.dropDetail n) := State.modHost_keeps rfl .refl

/-- A response sent when the oldest detail of event 0 was taken. -/
theorem State.post_dropped {s : State} {m code tag : Nat} {b : Bytes} (l : s.host.events.length = 64)
    (q : (s.host.events.getD 0 EventQueue.reset).details.length ≤ 8) :
    ∃ d, (((s.dropDetail 0).post m code tag 0 b).host.events.getD 0 EventQueue.reset).details =
      (s.host.events.getD 0 EventQueue.reset).details.drop 1 ++ [d] := by
  have dropped := congrArg EventQueue.details (State.dropDetail_same (s := s) (n := 0) (by omega))
  have room := congrArg List.length dropped
  rw [List.length_drop] at room
  obtain ⟨d, e⟩ := State.post_details (s := s.dropDetail 0) (m := m) (code := code) (tag := tag) (b := b) (sized_upd l)
    (lt_of_eq_of_lt room (by omega))
  exact ⟨d, e.trans (congrArg (· ++ [d]) dropped)⟩

theorem State.accept_pend {s : State} {code : Nat} {h : Hdr} {p : Bytes} : (s.accept code h p).host.pend = s.host.pend := by
  rw [State.accept_space]

theorem taken_posts {s x : State} {code : Nat} {h : Hdr} {p body : Bytes} {serve : Bytes → State → Ans} (k : Taken s code h p)
    (g : serve p (s.accept code h p) = okB x body) : hostCmd code h p serve s = .next (x.post h.mbx code h.tag 0 body) := by
  rw [hostCmd_taken k, g]
  rfl

/-! ### The node commands -/

theorem serveEventDetail_ok {p : Bytes} {s : State} (l : p.length = 1) (n : fld p 0 1 < 64) :
    serveEventDetail p s =
      okB (s.dropDetail (fld p 0 1))
        ([byteOf (fld p 0 1), byteOf ((s.host.events.getD (fld p 0 1) EventQueue.reset).details.length - 1), 0, 0] ++
          le 4 (s.host.events.getD (fld p 0 1) EventQueue.reset).lost ++
          padTo 32 ((s.host.events.getD (fld p 0 1) EventQueue.reset).details.headD [])) :=
  (if_neg (not_not_intro l)).trans (if_neg (by omega))

theorem serveFactoryReset_ok {s : State} {h : Hdr} (sealed : s.saf.seals.testBit 0 = true) (idle : s.allIdle = true)
    (j : s.journalUnacked = 0) (l : s.log.unacked = 0) (room : s.logFull 1 = false) :
    serveFactoryReset h [] s = okS (s.factoryReset h) := by
  have full : ¬s.logFull 1 = true := by
    rw [room]
    exact Bool.false_ne_true
  unfold serveFactoryReset noPayload withSeal withLog
  dsimp only
  rw [if_neg (not_not_intro List.length_nil), if_pos sealed, if_pos ⟨idle, j, l⟩, if_neg full]

theorem State.allIdle_congr {s t : State} (p : t.pts = s.pts) : t.allIdle = s.allIdle := by
  unfold State.allIdle
  rw [p]

theorem State.seqAcked_congr {s t : State} {k : Nat} (r : t.recs = s.recs) (p : t.pts = s.pts) : t.seqAcked k = s.seqAcked k := by
  unfold State.seqAcked
  rw [r, State.pt_congr p]

theorem State.journalUnacked_congr {s t : State} (r : t.recs = s.recs) (p : t.pts = s.pts) : t.journalUnacked = s.journalUnacked := by
  have acked : t.slotAcked = s.slotAcked := by
    funext j
    unfold State.slotAcked
    rw [State.seqAcked_congr r p]
  unfold State.journalUnacked
  rw [acked, r]

theorem State.logFull_congr {s t : State} {n : Nat} (l : t.log = s.log) : t.logFull n = s.logFull n := by
  unfold State.logFull
  rw [l]

/-- What a factory reset leaves of the node (R482). -/
structure FactoryFresh (s x : State) : Prop where
  params : x.par.stored = keptByReset s.par.stored
  logged : x.log.next = s.log.next + 1
  capoReset : x.pwr.capoReset = true
  capoOff : x.pwr.capoOn = false
  journal : x.recs.journal = []
  ledger : x.led.slots = List.replicate 4 none
  points : ∃ l : List Point, x.pts = l.map Point.factory

theorem State.factoryReset_fresh {s : State} {h : Hdr} : FactoryFresh s (s.factoryReset h) where
  params := congrArg (fun p : ParamStore => keptByReset p.stored)
    ((State.enterHost_keeps rfl (Keeps.refl (T := [.host, .log]))).par rfl :
      (s.enterHost h 10 0 0 [] [] s.frm).par = s.par)
  logged := (State.enterHost_next : (s.enterHost h 10 0 0 [] [] s.frm).log.next = _)
  capoReset := rfl
  capoOff := rfl
  journal := rfl
  ledger := rfl
  points := ⟨(s.enterHost h 10 0 0 [] [] s.frm).pts, rfl⟩

/-- The registers and the series of every point stand at 0. -/
theorem FactoryFresh.cleared {s x : State} (f : FactoryFresh s x) : ∀ y ∈ x.pts, y.regs = List.replicate 38 0 ∧ y.seqNext = 0 := by
  obtain ⟨l, e⟩ := f.points
  intro y m
  rw [e] at m
  obtain ⟨z, -, rfl⟩ := List.mem_map.mp m
  exact ⟨rfl, rfl⟩

/-! ### Reads of the MRAM -/

theorem State.modPwr_calm {s : State} {f : Power → Power} : Calm s (s.modPwr f) := ⟨rfl, rfl⟩

theorem State.modRecs_calm {s : State} {f : RecordStore → RecordStore} : Calm s (s.modRecs f) := ⟨rfl, rfl⟩

theorem State.modPt_calm {s : State} {p : Nat} {f : Point → Point} : Calm s (s.modPt p f) := ⟨rfl, rfl⟩

theorem State.readMram_calm {s : State} {a b c : Nat} : Calm s (s.readMram a b c).2 := by
  have repaired : Calm s s.repairWords := State.modPwr_calm.trans State.bump_calm
  have bad : ∀ x : State, Calm x (x.badWord a b c) := fun x => State.bump_calm.trans State.raise_calm
  unfold State.readMram
  dsimp only
  split
  · exact repaired.trans (bad _)
  · exact repaired

/-! ### The record commands -/

/-- The series that a field names: a point's, or for 0xFF the node's. -/
theorem onSeries_eq {k : Nat} {f : Nat → State → Ans} {n : Nat} {s : State} (named : k = if n = 0xFF then 16 else n)
    (l : n < 16 ∨ n = 0xFF) : onSeries f n s = f k s := by
  unfold onSeries
  rcases l with l | l
  · rw [if_neg (by omega), if_pos l, named, if_neg (by omega)]
  · rw [if_pos l, named, if_pos l]

theorem serveJournalRead_reached {p : Bytes} {s : State} {k : Nat} (len : p.length = 6)
    (named : k = if fld p 0 1 = 0xFF then 16 else fld p 0 1) (l : fld p 0 1 < 16 ∨ fld p 0 1 = 0xFF)
    (r : s.reached k (fld p 2 4) = true) :
    serveJournalRead p s = match s.recs.journal.find? (fun j => j.series == k && j.seq == fld p 2 4) with
      | some j =>
        if (s.readMram 6 0x580000 0xA00000).1 || j.damaged then
          okParts ((s.readMram 6 0x580000 0xA00000).2.modRecs (fun x => { x with journal := x.journal.map (fun i =>
            if i.slot = j.slot then { i with damaged := true } else i) })) (journalParts 3 j.bytes)
        else okParts (s.readMram 6 0x580000 0xA00000).2 (journalParts 0 j.bytes)
      | none => okParts s (journalParts (if s.isWithheld k (fld p 2 4) then 1 else 2) []) :=
  (if_neg (not_not_intro len)).trans ((onSeries_eq named l).trans (if_neg (by rw [r]; exact Bool.false_ne_true)))

theorem serveJournalRead_missing {p : Bytes} {s : State} {k : Nat} (len : p.length = 6)
    (named : k = if fld p 0 1 = 0xFF then 16 else fld p 0 1) (l : fld p 0 1 < 16 ∨ fld p 0 1 = 0xFF)
    (r : s.reached k (fld p 2 4) = true) (n : s.recs.journal.find? (fun j => j.series == k && j.seq == fld p 2 4) = none) :
    serveJournalRead p s = okParts s (journalParts (if s.isWithheld k (fld p 2 4) then 1 else 2) []) := by
  rw [serveJournalRead_reached len named l r, n]

/-- A record that the journal holds is answered with its bytes, and the journal changes where the read failed alone. -/
theorem serveJournalRead_held {p : Bytes} {s : State} {k : Nat} {j : JSlot} (len : p.length = 6)
    (named : k = if fld p 0 1 = 0xFF then 16 else fld p 0 1) (l : fld p 0 1 < 16 ∨ fld p 0 1 = 0xFF)
    (r : s.reached k (fld p 2 4) = true) (n : s.recs.journal.find? (fun j => j.series == k && j.seq == fld p 2 4) = some j) :
    ∃ x status, serveJournalRead p s = okParts x (journalParts status j.bytes) ∧ Calm s x ∧ Keeps [.clk, .host, .recs, .pwr] s x ∧
      (status = 0 ∧ x.recs = s.recs ∨ status = 3) := by
  rw [serveJournalRead_reached len named l r, n]
  dsimp only
  have keeps : Keeps [.clk, .host, .recs, .pwr] s (s.readMram 6 0x580000 0xA00000).2 := State.readMram_keeps rfl .refl
  split
  · exact ⟨_, 3, rfl, State.readMram_calm.trans State.modRecs_calm, State.modRecs_keeps rfl keeps, .inr rfl⟩
  · exact ⟨_, 0, rfl, State.readMram_calm, keeps, .inl ⟨rfl, (State.readMram_keeps rfl (Keeps.refl (T := [.clk, .host, .pwr]))).recs rfl⟩⟩

theorem serveLogRead_missing {p : Bytes} {s : State} (len : p.length = 4) (l : fld p 0 4 < s.log.next)
    (n : s.log.held.find? (fun e => e.index == fld p 0 4) = none) :
    serveLogRead p s = okB s (byteOf (if s.log.lost.contains (fld p 0 4) then 4 else 2) :: zeros 64) := by
  unfold serveLogRead
  dsimp only
  rw [if_neg (not_not_intro len), if_neg (by omega), n]

theorem serveLogRead_held {p : Bytes} {s : State} {e : LogSlot} (len : p.length = 4) (l : fld p 0 4 < s.log.next)
    (n : s.log.held.find? (fun e => e.index == fld p 0 4) = some e) :
    ∃ x status, serveLogRead p s = okB x (status :: padTo 64 e.bytes) ∧ Calm s x ∧ Keeps [.clk, .host, .log, .pwr] s x ∧
      (status = 0 ∧ x.log = s.log ∨ status = 3) := by
  unfold serveLogRead
  dsimp only
  rw [if_neg (not_not_intro len), if_neg (by omega), n]
  dsimp only
  have keeps : Keeps [.clk, .host, .log, .pwr] s (s.readMram 11 0xFB2000 0x40000).2 := State.readMram_keeps rfl .refl
  split
  · exact ⟨_, 3, rfl, State.readMram_calm.trans State.modLog_calm, State.modLog_keeps rfl keeps, .inr rfl⟩
  · exact ⟨_, 0, rfl, State.readMram_calm, keeps, .inl ⟨rfl, (State.readMram_keeps rfl (Keeps.refl (T := [.clk, .host, .pwr]))).log rfl⟩⟩

theorem State.journalRearm_calm {s : State} : Calm s s.journalRearm := .ite State.modRecs_calm .refl

theorem State.journalRearm_acked {s : State} {k : Nat} : s.journalRearm.seqAcked k = s.seqAcked k := by
  unfold State.journalRearm
  split <;> rfl

/-- The series acknowledged: its number moves up to the one named, and no other series' does. -/
def State.ackSeries (s : State) (k seq : Nat) : State :=
  if k = 16 then s.modRecs (fun r => { r with nodeAcked := laterAck r.nodeAcked seq })
  else s.modPt k (fun x => { x with acked := laterAck x.acked seq })

theorem State.ackSeries_same {s : State} {k seq : Nat} (l : k < 17) (n : s.pts.length = 16) :
    (s.ackSeries k seq).seqAcked k = laterAck (s.seqAcked k) seq := by
  unfold State.ackSeries State.seqAcked
  by_cases node : k = 16
  · simp only [if_pos node]
    rfl
  · simp only [if_neg node]
    exact congrArg Point.acked (State.modPt_same (by omega))

theorem State.ackSeries_other {s : State} {k seq j : Nat} (ne : j ≠ k) : (s.ackSeries k seq).seqAcked j = s.seqAcked j := by
  unfold State.ackSeries
  split
  · next node =>
    unfold State.seqAcked
    rw [if_neg (by omega), if_neg (by omega)]
    rfl
  · next point =>
    unfold State.seqAcked
    rw [State.modPt_other (Ne.symm ne)]
    rfl

theorem State.ackSeries_calm {s : State} {k seq : Nat} : Calm s (s.ackSeries k seq) := .ite State.modRecs_calm State.modPt_calm

theorem State.ackSeries_keeps {s : State} {k seq : Nat} : Keeps [.clk, .host, .pts, .recs] s (s.ackSeries k seq) :=
  .ite (State.modRecs_keeps rfl .refl) (State.modPt_keeps rfl .refl)

theorem serveRecordAcknowledge_reached {p : Bytes} {s : State} {k : Nat} (len : p.length = 6)
    (named : k = if fld p 0 1 = 0xFF then 16 else fld p 0 1) (l : fld p 0 1 < 16 ∨ fld p 0 1 = 0xFF)
    (r : s.reached k (fld p 2 4) = true) : serveRecordAcknowledge p s = okS (s.ackSeries k (fld p 2 4)).journalRearm :=
  (if_neg (not_not_intro len)).trans ((onSeries_eq named l).trans (if_neg (by rw [r]; exact Bool.false_ne_true)))

/-- The acknowledged index of the log moves up, and the entries stay. -/
theorem serveLogAcknowledge_made {p : Bytes} {s : State} (len : p.length = 4) (l : fld p 0 4 < s.log.next) :
    ∃ x, serveLogAcknowledge p s = okS x ∧ Calm s x ∧ Keeps [.clk, .host, .log] s x ∧
      x.log.acked = laterAck s.log.acked (fld p 0 4) ∧ x.log.held = s.log.held := by
  refine ⟨_, (if_neg (not_not_intro len)).trans (if_neg (by omega)), .ite (State.modLog_calm.trans State.modLog_calm) State.modLog_calm,
    .ite (State.modLog_keeps rfl (State.modLog_keeps rfl .refl)) (State.modLog_keeps rfl .refl), ?_⟩
  split <;> exact ⟨rfl, rfl⟩

end Sys2Proof.Machine

open Sys2Proof Sys2Proof.Machine

/-- Settles O39: both channels of a course are governed by its even one. -/
theorem coursedChannelsReadAsTheirCourse : Obligations.CoursedChannelsReadAsTheirCourse := by
  intro s h j snd mode l even odd
  have serves : ∀ b, b < 2 → serveChannelStatus [byteOf (2 * j + b)] (s.accept 0x030F h [byteOf (2 * j + b)]) =
      okB (s.accept 0x030F h [byteOf (2 * j + b)]) (s.channelBody (2 * j)) := by
    intro b lb
    have f : fld [byteOf (2 * j + b)] 0 1 = 2 * j + b := fld_single (by omega)
    rw [serveChannelStatus_body rfl (by rw [f]; omega), f]
    exact congrArg (fun c => okB _ (s.channelBody c)) (State.governs_course mode lb)
  obtain ⟨t, e, a, -⟩ := taken_reads even snd (serves 0 (by decide))
  obtain ⟨t', e', a', -⟩ := taken_reads odd snd (serves 1 (by decide))
  refine ⟨t, t', _, e, e', a, a', ?_⟩
  change [_, byteOf (if s.eng.mode = 1 then courseCode (s.course (2 * j / 2)).state else 0)] = _
  rw [if_pos mode, Nat.mul_div_cancel_left j (by decide)]

/-- Settles O1: the reads by `taken_reads`, event-detail on the queue without its oldest detail, factory-reset by `FactoryFresh`. -/
theorem nodeCommandsAnswer : Obligations.NodeCommandsAnswer := by
  intro s h p snd
  refine ⟨fun k => taken_reads k snd rfl, fun k => taken_reads k snd rfl, fun k l n => ?detail, fun k sealed idle j acked room => ?reset⟩
  case detail =>
    have q64 : (s.accept 0x0103 h p).host.events.length = 64 := snd.host.queues
    have g := serveEventDetail_ok (s := s.accept 0x0103 h p) l n
    obtain ⟨t, e, a, v, -⟩ := taken_serves (T := []) k snd g State.dropDetail_calm State.dropDetail_keeps
    have posted := Host.Outcome.next.inj (e.symm.trans (taken_posts k g))
    refine ⟨t, e, ⟨a, fun nz => ?_, fun z => ?_⟩, fun e nz ne => ?_, fun e nz => ?_, v⟩ <;> rw [posted]
    · exact (State.post_events nz).trans (State.dropDetail_same (by rw [q64]; exact n))
    · rw [z]
      exact State.post_dropped q64 (snd.host.queue 0)
    · exact (State.post_events nz).trans (State.dropDetail_other ne)
    · rw [State.post_pend nz, State.dropDetail_pend, State.accept_pend]
  case reset =>
    have kept : Keeps [.host] s (s.accept 0x0104 h []) := State.accept_keeps
    have g := serveFactoryReset_ok (s := s.accept 0x0104 h []) (h := h) sealed ((State.allIdle_congr (kept.pts rfl)).trans idle)
      ((State.journalUnacked_congr (kept.recs rfl) (kept.pts rfl)).trans j)
      ((congrArg LegalLog.unacked (kept.log rfl)).trans acked) ((State.logFull_congr (kept.log rfl)).trans room)
    obtain ⟨t, e, a, v, -⟩ := taken_answered (serve := serveFactoryReset h) k g
      (State.factoryReset_sound (State.accept_sound snd)).host.boxes
    have f : FactoryFresh (s.accept 0x0104 h []) _ := State.factoryReset_fresh (h := h)
    refine ⟨t, e, a, ?_, ?_, ?_, ?_, ?_, ?_, ?_, exec_keeps (.factoryReset h []) _ _ e⟩
    · rw [v.par rfl]
      exact f.params
    · rw [v.log rfl]
      exact f.logged
    · rw [v.pwr rfl]
      exact f.capoReset
    · rw [v.pwr rfl]
      exact f.capoOff
    · rw [v.recs rfl]
      exact f.journal
    · rw [v.led rfl]
      exact f.ledger
    · rw [v.pts rfl]
      exact f.cleared

/-- Settles O2: the reads of the journal and the log by what they find, the acknowledgements by `ackSeries`. -/
theorem recordCommandsAnswer : Obligations.RecordCommandsAnswer := by
  intro s h p k snd named
  refine ⟨fun tk len l17 l r => ?journal, fun tk len l r => ?ack, fun tk len l => ?log, fun tk len l => ?logAck,
    fun tk => taken_reads tk snd rfl⟩
  case journal =>
    cases found : s.recs.journal.find? (fun j => j.series == k && j.seq == fld p 2 4) with
    | none =>
      obtain ⟨t, e, a, v, -⟩ := taken_parts_serves (T := [.recs, .pwr]) tk snd
        (serveJournalRead_missing (s := s.accept 0x0401 h p) len named l r found) (by simp [journalParts]) .refl .refl
      exact ⟨t, e, v, by simp, fun _ => a⟩
    | some j =>
      obtain ⟨x, st, g, c, kp, o⟩ := serveJournalRead_held (s := s.accept 0x0401 h p) len named l r found
      obtain ⟨t, e, a, v, after, -⟩ := taken_parts_serves (T := [.recs, .pwr]) tk snd g (by simp [journalParts]) c kp
      refine ⟨t, e, v, fun j' eq => ?_, by simp⟩
      obtain rfl := Option.some.inj eq
      rcases o with ⟨rfl, same⟩ | rfl
      · exact .inl ⟨a, (after.recs rfl).trans same⟩
      · exact .inr a
  case ack =>
    have g := serveRecordAcknowledge_reached (s := s.accept 0x0402 h p) len named l r
    obtain ⟨t, e, a, v, after, -⟩ := taken_serves (T := [.pts, .recs]) tk snd g (State.ackSeries_calm.trans State.journalRearm_calm)
      (State.journalRearm_keeps rfl State.ackSeries_keeps)
    have acked : ∀ j, t.seqAcked j = ((s.accept 0x0402 h p).ackSeries k (fld p 2 4)).seqAcked j := fun j =>
      (State.seqAcked_congr (after.after.recs rfl) (after.after.pts rfl)).trans State.journalRearm_acked
    refine ⟨t, e, a, (acked k).trans (State.ackSeries_same ?_ snd.pts), fun j ne => (acked j).trans (State.ackSeries_other ne), v⟩
    rcases l with l | l
    · rw [named, if_neg (by omega)]
      omega
    · rw [named, if_pos l]
      decide
  case log =>
    cases found : s.log.held.find? (fun e => e.index == fld p 0 4) with
    | none =>
      obtain ⟨t, e, a, v, -⟩ := taken_serves (T := [.log, .pwr]) tk snd
        (serveLogRead_missing (s := s.accept 0x0403 h p) len l found) .refl .refl
      exact ⟨t, e, v, by simp, fun _ => a⟩
    | some j =>
      obtain ⟨x, st, g, c, kp, o⟩ := serveLogRead_held (s := s.accept 0x0403 h p) len l found
      obtain ⟨t, e, a, v, after, -⟩ := taken_serves (T := [.log, .pwr]) tk snd g c kp
      refine ⟨t, e, v, fun j' eq => ?_, by simp⟩
      obtain rfl := Option.some.inj eq
      rcases o with ⟨rfl, same⟩ | rfl
      · exact .inl ⟨a, (after.after.log rfl).trans (same.trans (State.accept_keeps.log rfl))⟩
      · exact .inr a
  case logAck =>
    obtain ⟨x, g, c, kp, acked, held⟩ := serveLogAcknowledge_made (s := s.accept 0x0404 h p) len l
    obtain ⟨t, e, a, v, after, -⟩ := taken_serves (T := [.log]) tk snd g c kp
    refine ⟨t, e, a, ?_, ?_, v⟩
    · rw [after.after.log rfl]
      exact acked
    · rw [after.after.log rfl]
      exact held
end

section
/-!
The legal display (11 R277–R292): what the next run starts from and leaves, the pages shown, the rails, and the phases of a run.
-/

namespace Sys2Proof.Machine

/-! ### What a page and a waveform depend on -/

theorem State.pn_congr {s t : State} {pid p : Nat} (h : t.par = s.par) : t.pn pid p = s.pn pid p := by
  unfold State.pn State.pv
  rw [h]

theorem State.ptType_congr {s t : State} {p : Nat} (h : t.par = s.par) : t.ptType p = s.ptType p := State.pn_congr h

theorem State.pages_congr {s t : State} (h : t.par = s.par) : t.pages = s.pages := by
  unfold State.pages State.ptType State.pn State.pv
  rw [h]

theorem State.nextPage_congr {s t : State} {c : Nat × Nat} (h : t.par = s.par) : t.nextPage c = s.nextPage c := by
  unfold State.nextPage
  rw [State.pages_congr h]

theorem State.livePage_congr {s t : State} (h : t.par = s.par) (d : t.disp.page = s.disp.page) : t.livePage = s.livePage := by
  unfold State.livePage
  rw [State.pages_congr h, d, State.nextPage_congr h]

theorem State.panelTemp_congr {s t : State} (h : t.par = s.par) (a : t.sar.dieTemp = s.sar.dieTemp)
    (d : t.disp.hostTemp = s.disp.hostTemp) : t.panelTemp = s.panelTemp := by
  unfold State.panelTemp State.pn State.pv
  rw [h, a, d]

/-- The page after a page is a live one, or there is none. -/
theorem State.livePage_next {s t : State} {c : Nat × Nat} (h : t.par = s.par) (d : t.disp.page = s.nextPage c) :
    t.livePage = t.disp.page := by
  unfold State.livePage
  split
  · rfl
  · next out =>
    rw [State.pages_congr h, d] at out
    rw [State.nextPage_congr h, d]
    unfold State.nextPage at *
    cases found : s.pages.find? (fun x => pageAfter c x) with
    | some x =>
      rw [found] at out
      exact absurd (List.contains_iff_mem.mpr (List.mem_of_find?_eq_some found)) out
    | none =>
      rw [found] at out
      cases all : s.pages with
      | nil => rfl
      | cons a l =>
        rw [all] at out
        exact absurd (by simp) out

/-! ### What starts next -/

/-- A deferral in force ends when a run can start (11 R286). -/
def State.undefer (s : State) : State :=
  match s.disp.deferred with
  | some c => (s.modDisp (fun d => { d with deferred := none })).dispFault c 1 0
  | none => s

/-- The run that a place of the list leads to: the remainder of an interrupted phase, a full clear before an update that wants one, or
the run of the place's own kind (11 R284, R287, R290). -/
def State.startDue (s : State) (k cause : Nat) (rest : List (Nat × Nat)) (u : Nat) : State :=
  match k, s.disp.openRun with
  | 4, some o => (s.modDisp (fun d => { d with todo := rest })).startRemainder o u
  | _, _ =>
    if s.disp.fullNext ∧ k = 0 then
      (s.modDisp (fun d => { d with todo := (3, cause) :: rest })).startRun 1 3 ((bandOf s.panelTemp).getD 0) u
    else (s.modDisp (fun d => { d with todo := rest })).startRun k cause ((bandOf s.panelTemp).getD 0) u

/-- The first place of the list leads to its run where the display is on, no warning stands and nothing defers it. -/
theorem State.dispNext_due {s : State} {u k cause : Nat} {rest : List (Nat × Nat)} (n : s.disp.run = none)
    (t : s.disp.todo = (k, cause) :: rest) (r : s.disp.rails = 4) (w : s.led.warnFrom = none) (d : s.deferCause k = none) :
    s.dispNext u = s.undefer.startDue k cause rest u := by
  unfold State.dispNext
  rw [n, t]
  dsimp only
  rw [if_neg (by simp [r, w]), d]
  rfl

/-- Otherwise nothing starts, but a deferral may. -/
theorem State.dispNext_cases {s : State} {u : Nat} : s.dispNext u = s ∨
    (∃ c, s.dispNext u = (s.modDisp (fun d => { d with deferred := some c })).dispFault c 0 0) ∨
    ∃ k cause rest, s.dispNext u = s.undefer.startDue k cause rest u := by
  unfold State.dispNext
  split
  · split
    · exact .inl rfl
    · split
      · split
        · exact .inl rfl
        · exact .inr (.inl ⟨_, rfl⟩)
      · exact .inr (.inr ⟨_, _, _, rfl⟩)
  · exact .inl rfl

/-- Of the display only the runs, their list, the deferral, the page drawn, and the counters of runs and faults may differ. -/
def DispLeft (s x : State) : Prop :=
  x.disp = { s.disp with
    deferred := x.disp.deferred, faults := x.disp.faults, todo := x.disp.todo, openRun := x.disp.openRun, run := x.disp.run
    updates := x.disp.updates, page := x.disp.page, valid := x.disp.valid, fullNext := x.disp.fullNext }

theorem DispLeft.refl {s : State} : DispLeft s s := rfl

theorem DispLeft.trans {s x y : State} (h : DispLeft s x) (g : DispLeft x y) : DispLeft s y := by
  unfold DispLeft at *
  rw [g, h]

theorem State.dispFault_left {s : State} {c e g : Nat} : DispLeft s (s.dispFault c e g) := by
  unfold State.dispFault
  dsimp only
  split <;> rfl

theorem State.startRun_left {s : State} {k c b u : Nat} : DispLeft s (s.startRun k c b u) := by
  unfold State.startRun
  dsimp only
  split <;> rfl

theorem State.undefer_left {s : State} : DispLeft s s.undefer := by
  unfold State.undefer
  split
  · exact DispLeft.trans (x := s.modDisp (fun d => { d with deferred := none })) rfl State.dispFault_left
  · exact .refl

theorem State.startDue_left {s : State} {k c u : Nat} {l : List (Nat × Nat)} : DispLeft s (s.startDue k c l u) := by
  have run : ∀ l k c b, DispLeft s ((s.modDisp (fun d => { d with todo := l })).startRun k c b u) := fun l k c b =>
    DispLeft.trans (x := s.modDisp (fun d => { d with todo := l })) rfl State.startRun_left
  unfold State.startDue
  split
  · rfl
  · split
    · exact run ..
    · exact run ..

theorem State.dispNext_left {s : State} {u : Nat} : DispLeft s (s.dispNext u) := by
  obtain e | ⟨c, e⟩ | ⟨k, cause, rest, e⟩ := State.dispNext_cases (s := s) (u := u) <;> rw [e]
  · exact .refl
  · exact DispLeft.trans (x := s.modDisp (fun d => { d with deferred := some c })) rfl State.dispFault_left
  · exact State.undefer_left.trans State.startDue_left

theorem State.dispFault_calm {s : State} {c e g : Nat} : Calm s (s.dispFault c e g) := by
  unfold State.dispFault
  dsimp only
  split <;> exact ⟨rfl, rfl⟩

theorem State.startRun_keeps_disp {s : State} {k c b u : Nat} : Keeps [.disp] s (s.startRun k c b u) := State.startRun_keeps rfl .refl

theorem State.startDue_keeps {s : State} {k c u : Nat} {l : List (Nat × Nat)} : Keeps [.disp] s (s.startDue k c l u) := by
  unfold State.startDue
  split
  · exact State.startRemainder_keeps rfl (State.modDisp_keeps rfl .refl)
  · exact .ite (State.startRun_keeps rfl (State.modDisp_keeps rfl .refl)) (State.startRun_keeps rfl (State.modDisp_keeps rfl .refl))

theorem State.undefer_calm {s : State} : Calm s s.undefer := by
  unfold State.undefer
  split
  · exact Calm.trans (x := s.modDisp (fun d => { d with deferred := none })) ⟨rfl, rfl⟩ State.dispFault_calm
  · exact .refl

theorem State.dispNext_calm {s : State} {u : Nat} : Calm s (s.dispNext u) := by
  obtain e | ⟨c, e⟩ | ⟨k, cause, rest, e⟩ := State.dispNext_cases (s := s) (u := u) <;> rw [e]
  · exact .refl
  · exact Calm.trans (x := s.modDisp (fun d => { d with deferred := some c })) ⟨rfl, rfl⟩ State.dispFault_calm
  · exact State.undefer_calm.trans (.of_keeps State.startDue_keeps rfl rfl)

/-! ### The page that a run draws -/

theorem State.startRun_page {s : State} {k c b u : Nat} : (s.startRun k c b u).disp.page = s.livePage := by
  unfold State.startRun
  dsimp only
  split <;> rfl

theorem State.undefer_page {s : State} : s.undefer.disp.page = s.disp.page := by
  unfold State.undefer State.dispFault
  split <;> rfl

theorem State.undefer_par {s : State} : s.undefer.par = s.par := by
  unfold State.undefer State.dispFault
  split <;> rfl

/-- What is live stays: a run draws the page that stands where it is a live one. -/
theorem State.dispNext_page {s : State} {u : Nat} (live : s.livePage = s.disp.page) : (s.dispNext u).disp.page = s.disp.page := by
  obtain e | ⟨c, e⟩ | ⟨k, cause, rest, e⟩ := State.dispNext_cases (s := s) (u := u) <;> rw [e]
  · rfl
  · have drawn : ∀ l k c b, ((s.undefer.modDisp (fun d => { d with todo := l })).startRun k c b u).disp.page = s.disp.page :=
      fun l k c b => State.startRun_page.trans ((State.livePage_congr State.undefer_par State.undefer_page).trans live)
    unfold State.startDue
    split
    · exact State.undefer_page
    · split
      · exact drawn ..
      · exact drawn ..

theorem State.wantUpdate_left {s : State} {c : Nat} : DispLeft s (s.wantUpdate c) := by
  unfold State.wantUpdate
  split
  · exact .refl
  · split
    · exact DispLeft.trans (x := s.modDisp (fun d => { d with todo := [(0, c)] })) rfl State.dispNext_left
    · exact State.dispNext_left

theorem State.wantUpdate_calm {s : State} {c : Nat} : Calm s (s.wantUpdate c) := by
  unfold State.wantUpdate
  split
  · exact .refl
  · split
    · exact Calm.trans (x := s.modDisp (fun d => { d with todo := [(0, c)] })) ⟨rfl, rfl⟩ State.dispNext_calm
    · exact State.dispNext_calm

theorem State.wantUpdate_page {s : State} {c : Nat} (live : s.livePage = s.disp.page) : (s.wantUpdate c).disp.page = s.disp.page := by
  unfold State.wantUpdate
  split
  · rfl
  · split
    · exact State.dispNext_page (s := s.modDisp (fun d => { d with todo := [(0, c)] })) live
    · exact State.dispNext_page live

/-- The next page is shown and its dwell begins (11 R279). -/
theorem State.turnPage_page {s : State} : s.turnPage.disp.page = s.nextPage s.disp.page := by
  unfold State.turnPage
  dsimp only
  exact State.wantUpdate_page (State.livePage_next (s := s) rfl rfl)

/-! ### What a run starts as -/

theorem State.startRun_run {s : State} {k c b u : Nat} : ∃ r, (s.startRun k c b u).disp.run = some r ∧ r.kind = k ∧ r.cause = c ∧
    r.band = b ∧ (k = 1 → r.target = 2 ^ 160 - 1) := by
  unfold State.startRun
  dsimp only
  split
  · exact ⟨_, rfl, rfl, rfl, rfl, fun one => if_pos (by simp [one])⟩
  · exact ⟨_, rfl, rfl, rfl, rfl, fun one => if_pos (by simp [one])⟩

theorem State.startDue_runs {s : State} {k c u : Nat} {l : List (Nat × Nat)} : (s.startDue k c l u).disp.run.isSome = true := by
  have started : ∀ l k c b, ((s.modDisp (fun d => { d with todo := l })).startRun k c b u).disp.run.isSome = true := by
    intro l k c b
    obtain ⟨r, e, -⟩ := State.startRun_run (s := s.modDisp (fun d => { d with todo := l })) (k := k) (c := c) (b := b) (u := u)
    rw [e]
    rfl
  unfold State.startDue
  split
  · rfl
  · split
    · exact started ..
    · exact started ..

/-- A full clear starts as one in the band of the panel temperature. -/
theorem State.startDue_clear {s : State} {c u : Nat} {l : List (Nat × Nat)} : ∃ r, (s.startDue 1 c l u).disp.run = some r ∧ r.kind = 1 ∧
    r.cause = c ∧ r.band = (bandOf s.panelTemp).getD 0 ∧ r.target = 2 ^ 160 - 1 := by
  have e : s.startDue 1 c l u = (s.modDisp (fun d => { d with todo := l })).startRun 1 c ((bandOf s.panelTemp).getD 0) u :=
    if_neg (by simp)
  obtain ⟨r, eq, k, cause, band, target⟩ := State.startRun_run (s := s.modDisp (fun d => { d with todo := l })) (k := 1) (c := c)
    (b := (bandOf s.panelTemp).getD 0) (u := u)
  exact ⟨r, e ▸ eq, k, cause, band, target rfl⟩

theorem State.undefer_temp {s : State} : s.undefer.panelTemp = s.panelTemp := by
  refine State.panelTemp_congr State.undefer_par ?_ ?_
  · unfold State.undefer State.dispFault
    split <;> rfl
  · rw [State.undefer_left]

/-! ### The rails -/

/-- Bringing up the rails reads the book from the MRAM first; a failed read takes the book and the remainder with it (11 R288, R290). -/
structure RailsFrom (s x : State) : Prop where
  keeps : Keeps [.clk, .host, .disp, .pwr] s x
  retry : x.disp.retryDue = none
  deferred : x.disp.deferred = s.disp.deferred
  waves : x.disp.waves = s.disp.waves
  hostTemp : x.disp.hostTemp = s.disp.hostTemp
  openRun : s.disp.openRun = none → x.disp.openRun = none

/-- What `railStart` does after the read: the rails in order, and with all of them good the runs of a display just on. -/
theorem State.railStart_from {s : State} {t vep ven ladder : Nat} : ∃ x, RailsFrom s x ∧ s.railStart t vep ven ladder =
    if 5000000 < vep then x.modDisp (fun d => { d with rails := 1, railDue := some (t + 5000000) })
    else if 10000000 < ven then x.modDisp (fun d => { d with rails := 2, railDue := some (t + 10000000) })
    else if 11000000 < ladder then x.modDisp (fun d => { d with rails := 3, railDue := some (t + 11000000) })
    else (x.modDisp (fun d => { d with
      rails := 4, railDue := none, run := none, todo := (if d.openRun.isSome then [(4, 2)] else []) ++ [(1, 3), (3, 2)]
      dwellDue := some (t + max vep (max ven ladder) + x.pn ND_DISP_DWELL * 1000000000)
      refreshDue := some (t + max vep (max ven ladder) + x.pn ND_DISP_REFRESH * 1000000000) })).dispNext
        (t + max vep (max ven ladder)) := by
  have lost : ∀ y, Keeps [.clk, .host, .pwr] s y → RailsFrom s (((y.modDisp (fun d => { d with
      book := List.replicate 160 0, openRun := none })).dispFault 4 0 0).modDisp (fun d => { d with
      retryDue := none, offPending := false })) := fun y k =>
    ⟨State.modDisp_keeps rfl (State.dispFault_keeps rfl (State.modDisp_keeps rfl (k.mono rfl))), rfl,
      (congrArg Display.deferred (k.disp rfl) : y.disp.deferred = _), (congrArg Display.waves (k.disp rfl) : y.disp.waves = _),
      (congrArg Display.hostTemp (k.disp rfl) : y.disp.hostTemp = _), fun _ => rfl⟩
  have good : ∀ y, Keeps [.clk, .host, .pwr] s y → RailsFrom s (y.modDisp (fun d => { d with retryDue := none, offPending := false })) :=
    fun y k => ⟨State.modDisp_keeps rfl (k.mono rfl), rfl, (congrArg Display.deferred (k.disp rfl) : y.disp.deferred = _),
      (congrArg Display.waves (k.disp rfl) : y.disp.waves = _), (congrArg Display.hostTemp (k.disp rfl) : y.disp.hostTemp = _),
      fun n => (congrArg Display.openRun (k.disp rfl) : y.disp.openRun = _).trans n⟩
  refine ⟨(if (s.readMram 8 0xF90000 0x20000).1 then
      ((s.readMram 8 0xF90000 0x20000).2.modDisp (fun d => { d with book := List.replicate 160 0, openRun := none })).dispFault 4 0 0
    else (s.readMram 8 0xF90000 0x20000).2).modDisp (fun d => { d with retryDue := none, offPending := false }), ?_, rfl⟩
  split
  · exact lost _ (State.readMram_keeps rfl .refl)
  · exact good _ (State.readMram_keeps rfl .refl)

/-- A display that starts in a band with a waveform, with no remainder open, clears first (11 R288). -/
theorem State.dispNext_clears {x : State} {u b : Nat} {l : List (Nat × Nat)} (n : x.disp.run = none) (t : x.disp.todo = (1, 3) :: l)
    (r : x.disp.rails = 4) (w : x.led.warnFrom = none) (o : x.disp.openRun = none) (band : bandOf x.panelTemp = some b)
    (wave : x.wave b ≠ []) :
    ∃ r, (x.dispNext u).disp.run = some r ∧ r.kind = 1 ∧ r.cause = 3 ∧ r.band = b ∧ r.target = 2 ^ 160 - 1 := by
  have d : x.deferCause 1 = none := by
    unfold State.deferCause
    rw [band, o]
    simp [wave]
  rw [State.dispNext_due n t r w d]
  obtain ⟨q, e, k, c, bq, tq⟩ := State.startDue_clear (s := x.undefer) (c := 3) (u := u) (l := l)
  rw [State.undefer_temp, band] at bq
  exact ⟨q, e, k, c, bq, tq⟩

theorem execDisplayStart_rails {s : State} {u vep ven ladder : Nat} (st : 5 ≤ s.pwr.stage) (off : s.disp.rails = 0)
    (r : s.disp.retryDue = none) (en : s.pb ND_DISP_ENABLE = true) (w : s.led.warnFrom = none) :
    execDisplayStart u vep ven ladder s = .next ((s.at u).railStart u vep ven ladder) := if_pos ⟨st, en, off, r, w⟩

theorem execDisplayStartRetry_rails {s : State} {u vep ven ladder : Nat} (r : ripeAt s.disp.retryDue u = true)
    (en : s.pb ND_DISP_ENABLE = true) (w : s.led.warnFrom = none) :
    execDisplayStartRetry u vep ven ladder s = .next ((s.at u).railStart u vep ven ladder) := if_pos ⟨r, en, w⟩

theorem execDisplayRefresh_due {s : State} {u : Nat} (d : ripeAt s.disp.refreshDue u = true) :
    (let x := (s.at u).modDisp (fun d => { d with refreshDue := some (u + s.pn ND_DISP_REFRESH * 1000000000) })
     execDisplayRefresh u s = .next
      (if !s.disp.todo.isEmpty || (s.at u).pageImage s.livePage != s.disp.image then x.wantUpdate 0 else x)) :=
  (if_pos d).trans (apply_ite Host.Outcome.next ..).symm

theorem State.dispFault_raised {s : State} {c e g : Nat} (l : s.host.events.length = 64) :
    Raised (s.dispFault c e g) 47 [byteOf c, byteOf e, byteOf g] := by
  unfold State.dispFault
  dsimp only
  split <;> exact State.addDetail_raised l (by decide) (prefix_padTo (by simp) (by simp))

end Sys2Proof.Machine

open Sys2Proof Sys2Proof.Machine

/-- Settles O34: the rails by `State.railStart_from`, the pages by `State.turnPage_page`, what a run leaves by `State.dispNext_left`. -/
theorem displayPowerAndTimersComplete : Obligations.DisplayPowerAndTimersComplete := by
  intro s u snd
  refine ⟨?start, ?timeout, ?page, ?pin, ?refresh, ?temp, ?over'⟩
  case start =>
    intro i vep ven ladder how en w
    have e : exec i s = .next ((s.at u).railStart u vep ven ladder) := by
      rcases how with ⟨rfl, st, off, r⟩ | ⟨rfl, r⟩
      · exact execDisplayStart_rails st off r en w
      · exact execDisplayStartRetry_rails r en w
    obtain ⟨x, f, eq⟩ := State.railStart_from (s := s.at u) (t := u) (vep := vep) (ven := ven) (ladder := ladder)
    have keeps : Keeps [.clk, .host, .disp, .pwr] s ((s.at u).railStart u vep ven ladder) :=
      State.railStart_keeps rfl (State.at_keeps rfl .refl)
    rw [eq] at e keeps
    refine ⟨fun a => ?_, fun a b => ?_, fun a b c => ?_, fun a b c => ?_⟩
    · rw [if_pos a] at e keeps
      exact ⟨_, e, rfl, rfl, f.retry, keeps⟩
    · rw [if_neg (by omega), if_pos b] at e keeps
      exact ⟨_, e, rfl, rfl, f.retry, keeps⟩
    · rw [if_neg (by omega), if_neg (by omega), if_pos c] at e keeps
      exact ⟨_, e, rfl, rfl, f.retry, keeps⟩
    · rw [if_neg (by omega), if_neg (by omega), if_neg (by omega)] at e keeps
      refine ⟨_, e, ?_, ?_, ?_, ?_, fun o b band wave => ?_, keeps⟩
      · rw [State.dispNext_left]
        rfl
      · rw [State.dispNext_left]
        rfl
      · rw [State.dispNext_left]
        exact f.retry
      · rw [State.dispNext_left]
        exact congrArg (fun d => some (u + max vep (max ven ladder) + d * 1000000000)) (State.pn_congr (f.keeps.par rfl))
      · have none' := f.openRun o
        refine State.dispNext_clears (l := [(3, 2)]) rfl ?_ rfl ((congrArg Ledger.warnFrom (f.keeps.led rfl)).trans w) none' ?_ ?_
        · change (if x.disp.openRun.isSome then [(4, 2)] else []) ++ [(1, 3), (3, 2)] = _
          rw [none']
          rfl
        · refine Eq.trans (congrArg bandOf ?_) band
          exact State.panelTemp_congr (f.keeps.par rfl) (congrArg Sar.dieTemp (f.keeps.sar rfl)) f.hostTemp
        · change x.disp.waves.getD b [] ≠ []
          rw [f.waves]
          exact wave
  case timeout =>
    intro d h le
    refine ⟨_, if_pos (show ripeAt s.disp.railDue u = true by rw [h]; exact decide_eq_true le), rfl, rfl, rfl, rfl, ?_,
      State.dispFault_keeps rfl (State.modDisp_keeps rfl (State.at_keeps rfl .refl))⟩
    exact State.dispFault_raised snd.host.queues
  case page =>
    intro d h le free
    refine ⟨_, if_pos ⟨show ripeAt s.disp.dwellDue u = true by rw [h]; exact decide_eq_true le, free⟩, State.turnPage_page, ?_, ?_,
      State.turnPage_keeps rfl (State.at_keeps rfl .refl)⟩
    · rw [State.turnPage, State.wantUpdate_left]
      rfl
    · rw [State.turnPage, State.wantUpdate_left]
      rfl
  case pin =>
    intro d x h le pinned
    have turned : (s.at u).unpin = ((s.at u).modDisp (fun d => { d with pin := none, pinDue := none })).turnPage :=
      if_pos (show s.disp.pin.isSome = true by rw [pinned]; rfl)
    refine ⟨_, if_pos (show ripeAt s.disp.pinDue u = true by rw [h]; exact decide_eq_true le), ?_, ?_, ?_,
      State.unpin_keeps rfl (State.at_keeps rfl .refl)⟩
    · rw [turned, State.turnPage, State.wantUpdate_left]
      rfl
    · rw [turned, State.turnPage, State.wantUpdate_left]
      rfl
    · rw [turned]
      exact State.turnPage_page
  case refresh =>
    intro d h le
    have ripe : ripeAt s.disp.refreshDue u = true := by
      rw [h]
      exact decide_eq_true le
    refine ⟨_, execDisplayRefresh_due ripe, ?_, ?_, fun idle same => ?_, .ite (State.wantUpdate_keeps rfl (State.modDisp_keeps rfl (State.at_keeps rfl .refl)))
      (State.modDisp_keeps rfl (State.at_keeps rfl .refl))⟩
    · split
      · rw [State.wantUpdate_left]
        rfl
      · rfl
    · split
      · rw [State.wantUpdate_left]
        rfl
      · rfl
    · have quiet : ¬(!s.disp.todo.isEmpty || (s.at u).pageImage s.livePage != s.disp.image) = true := by
        rw [idle, same]
        simp
      rw [if_neg quiet]
      exact ⟨rfl, rfl⟩
  case temp =>
    intro d h le
    exact ⟨_, if_pos (show ripeAt s.disp.tempDue u = true by rw [h]; exact decide_eq_true le), rfl,
      State.modDisp_keeps rfl (State.at_keeps rfl .refl)⟩
  case over' =>
    intro seg on ok
    exact ⟨_, if_pos ⟨on, ok⟩, rfl, State.dispFault_raised snd.host.queues, State.dispFault_keeps rfl (State.at_keeps rfl .refl)⟩
end

section
/-!
The phases of a display run (11 R277, R284, R285, R287).
-/

namespace Sys2Proof.Machine

/-- The display with the ended phase booked, at the event's time. -/
def State.phaseBooked (s : State) (r : DispRun) (u : Nat) : State :=
  (s.at u).modDisp (fun d => { d with book := bookAfter d.book r r.ms })

/-- The compensation phase is followed by phase 0 (11 R285). -/
theorem execDisplayPhaseEnd_compensated {s : State} {u : Nat} {r : DispRun} (h : s.disp.run = some r) (k : r.kind ≠ 4)
    (d : r.start + r.ms * 1000000 ≤ u) (p : r.phase = none) :
    execDisplayPhaseEnd u s =
      .next ((s.phaseBooked r u).startPhase { r with total := r.total + r.ms } 0 (r.start + r.ms * 1000000)) := by
  have h' : (s.at u).disp.run = some r := h
  unfold execDisplayPhaseEnd
  dsimp only
  rw [h']
  dsimp only
  rw [if_neg (by omega), if_neg k, p]
  rfl

/-- A phase of a waveform is followed by the next one, the last of them by the run's end. -/
theorem execDisplayPhaseEnd_phase {s : State} {u k : Nat} {r : DispRun} (h : s.disp.run = some r) (n : r.kind ≠ 4)
    (d : r.start + r.ms * 1000000 ≤ u) (p : r.phase = some k) :
    execDisplayPhaseEnd u s = if k + 1 < (s.wave r.band).length then
        .next ((s.phaseBooked r u).startPhase { r with total := r.total + r.ms } (k + 1) (r.start + r.ms * 1000000))
      else .next ((s.phaseBooked r u).endRun { r with total := r.total + r.ms } (r.start + r.ms * 1000000)) := by
  have h' : (s.at u).disp.run = some r := h
  unfold execDisplayPhaseEnd
  dsimp only
  rw [h']
  dsimp only
  rw [if_neg (by omega), if_neg n, p]
  rfl

theorem execDisplayBookMark_running {s : State} {u : Nat} {r : DispRun} (h : s.disp.run = some r) :
    execDisplayBookMark u s = .next ((s.at u).modDisp (fun d => { d with run := some { r with
      marked := max r.marked (min r.ms ((u - r.start) / 10000000 * 10)) } })) := by
  have h' : (s.at u).disp.run = some r := h
  unfold execDisplayBookMark
  dsimp only
  rw [h']

/-- The end of an update or a redraw: its target is the valid image, and nothing runs (11 R284). -/
structure UpdateEnded (s x : State) (r : DispRun) : Prop where
  image : x.disp.image = r.target
  valid : x.disp.valid = true
  run : x.disp.run = none
  book : x.disp.book = s.disp.book
  todo : s.disp.todo = [] → x.disp.todo = []

theorem UpdateEnded.ite {s x y : State} {r : DispRun} {c : Prop} [Decidable c] (h : UpdateEnded s x r) (g : UpdateEnded s y r) :
    UpdateEnded s (if c then x else y) r := by
  split <;> assumption

theorem State.updateEnd_ended {s : State} {r : DispRun} : UpdateEnded s (s.updateEnd r) r := by
  have off : ∀ x : State, UpdateEnded s x r → UpdateEnded s (if x.disp.offPending then x.dispOff else x) r := by
    intro x h
    split
    · exact ⟨h.image, h.valid, rfl, h.book, fun _ => rfl⟩
    · exact h
  unfold State.updateEnd
  dsimp only
  exact off _ (.ite ⟨rfl, rfl, rfl, rfl, id⟩ ⟨rfl, rfl, rfl, rfl, id⟩)

/-- With nothing to follow, nothing starts. -/
theorem State.dispNext_empty {s : State} {u : Nat} (t : s.disp.todo = []) : s.dispNext u = s := by
  unfold State.dispNext
  rw [t]
  split
  · next h => cases h
  · rfl

theorem State.endRun_update {s : State} {r : DispRun} {u : Nat} (k : r.kind = 0 ∨ r.kind = 3) (t : s.disp.todo = []) :
    s.endRun r u = s.updateEnd r :=
  (if_neg (by omega)).trans ((if_neg (by omega)).trans ((if_neg (by omega)).trans (State.dispNext_empty (State.updateEnd_ended.todo t))))

end Sys2Proof.Machine

open Sys2Proof Sys2Proof.Machine

/-- Settles O35: a phase's end by `execDisplayPhaseEnd_phase`, the end of an update by `State.updateEnd_ended`. -/
theorem displayPhaseEventsComplete : Obligations.DisplayPhaseEventsComplete := by
  intro s u r snd h
  refine ⟨⟨_, _, execDisplayBookMark_running h, rfl, le_max_left _ _, fun le => max_le le (min_le_left _ _),
    State.modDisp_keeps rfl (State.at_keeps rfl .refl)⟩, fun nk due => ⟨fun p => ?_, fun k p more => ?_, fun k p last one => ?_,
    fun k p last upd idle => ?_⟩⟩
  · exact ⟨_, _, execDisplayPhaseEnd_compensated h nk due p, rfl, rfl, rfl, rfl, rfl, rfl, rfl,
      State.startPhase_keeps rfl (State.modDisp_keeps rfl (State.at_keeps rfl .refl))⟩
  · exact ⟨_, _, (execDisplayPhaseEnd_phase h nk due p).trans (if_pos more), rfl, rfl, rfl, rfl, rfl, rfl, rfl,
      State.startPhase_keeps rfl (State.modDisp_keeps rfl (State.at_keeps rfl .refl))⟩
  · have second : (s.phaseBooked r u).endRun { r with total := r.total + r.ms } (r.start + r.ms * 1000000) =
      (s.phaseBooked r u).startPhase { r with total := r.total + r.ms, kind := 2 } 0 (r.start + r.ms * 1000000) := if_pos one
    have e := (execDisplayPhaseEnd_phase h nk due p).trans (if_neg (by omega))
    rw [second] at e
    exact ⟨_, _, e, rfl, rfl, rfl, rfl, State.startPhase_keeps rfl (State.modDisp_keeps rfl (State.at_keeps rfl .refl))⟩
  · have e := (execDisplayPhaseEnd_phase h nk due p).trans (if_neg (by omega))
    rw [State.endRun_update (s := s.phaseBooked r u) (r := { r with total := r.total + r.ms }) upd idle] at e
    obtain ⟨image, valid, run, book, -⟩ := State.updateEnd_ended (s := s.phaseBooked r u) (r := { r with total := r.total + r.ms })
    exact ⟨_, e, book, run, image, valid, State.updateEnd_keeps rfl (State.modDisp_keeps rfl (State.at_keeps rfl .refl))⟩
end

section
/-!
The time and ring commands (20 R472; 03 R84–R87; 17): reports of the servo, outputs and captures programmed and read.
-/

namespace Sys2Proof.Machine

/-! ### Answers packed into parts -/

theorem packParts_ne_nil {es : List Bytes} {cur : Bytes} {done : List Bytes} : packParts es cur done ≠ [] := by
  induction es generalizing cur done with
  | nil => simp [packParts]
  | cons e es ih =>
    unfold packParts
    split <;> exact ih

theorem packParts_done {es : List Bytes} {cur d : Bytes} {done : List Bytes} : (packParts es cur (d :: done)).headD [] = d := by
  induction es generalizing cur done with
  | nil => rfl
  | cons e es ih =>
    unfold packParts
    split
    · exact ih (done := done ++ [cur])
    · exact ih

/-- The first part begins with what stood before the first entry. -/
theorem packParts_head {es : List Bytes} {cur : Bytes} : cur <+: (packParts es cur []).headD [] := by
  induction es generalizing cur with
  | nil => exact List.prefix_rfl
  | cons e es ih =>
    unfold packParts
    split
    · exact (packParts_done (done := [])).symm ▸ List.prefix_rfl
    · exact (List.prefix_append _ _).trans ih

theorem packParts_take {es : List Bytes} {cur : Bytes} : ((packParts es cur []).headD []).take cur.length = cur :=
  (List.prefix_iff_eq_take.mp packParts_head).symm

theorem serveBalanceResults_parts {p : Bytes} {s : State} (len : p.length = 1) (l : fld p 0 1 < 64) :
    ∃ es, serveBalanceResults p s = okParts s (packParts es [] []) :=
  ⟨_, (if_neg (not_not_intro len)).trans (if_neg (by omega))⟩

/-! ### The commands of node time -/

theorem State.modServo_calm {s : State} {f : Servo → Servo} : Calm s (s.modServo f) := ⟨rfl, rfl⟩

theorem State.modTto_other {s : State} {i j : Nat} {f : Tto → Tto} (ne : j ≠ i) : (s.modTto i f).tto j = s.tto j :=
  getD_upd_ne (Ne.symm ne)

theorem State.modTci_same {s : State} {i : Nat} {f : Tci → Tci} (l : i < s.servo.tcis.length) : (s.modTci i f).tci i = f (s.tci i) :=
  getD_upd_eq l

theorem State.modTci_other {s : State} {i j : Nat} {f : Tci → Tci} (ne : j ≠ i) : (s.modTci i f).tci j = s.tci j :=
  getD_upd_ne (Ne.symm ne)

theorem State.tci_congr {s t : State} {i : Nat} (h : t.servo = s.servo) : t.tci i = s.tci i := by
  unfold State.tci
  rw [h]

/-- What accepting a refused correction makes of the servo (R78, R82). -/
structure Accepted (s x : State) (r : RefusedCorrection) (how : Nat) : Prop where
  refused : x.servo.refused = none
  source : x.servo.source = r.source
  state : x.servo.state = .acquiring
  slew : x.servo.slew = if how = 1 then localOffset r.source r.offset else 0
  step : x.servo.step = if how = 0 then some (localOffset r.source r.offset, s.clk.up + 1000000) else none
  logged : x.log.next = s.log.next + 1

theorem serveTimeAccept_takes {h : Hdr} {p : Bytes} {s : State} {r : RefusedCorrection} (len : p.length = 1) (l : fld p 0 1 < 2)
    (some' : s.servo.refused = some r) (small : fld p 0 1 = 1 → r.offset.natAbs ≤ 125000) (room : s.logFull 1 = false) :
    ∃ x, serveTimeAccept h p s = okS x ∧ Calm s x ∧ Keeps [.clk, .host, .servo, .log] s x ∧ Accepted s x r (fld p 0 1) := by
  have full : ¬s.logFull 1 = true := by
    rw [room]
    exact Bool.false_ne_true
  unfold serveTimeAccept withLog
  dsimp only
  rw [if_neg (not_not_intro len), if_neg (by omega), some']
  dsimp only
  rw [if_neg (fun c => absurd (small c.1) (by omega)), if_neg full]
  have keeps : ∀ a b, Keeps [.host, .log] s (s.enterHost h 4 0 0 a b s.frm) := fun a b => State.enterHost_keeps rfl .refl
  refine ⟨_, rfl, State.enterHost_calm.trans State.modServo_calm, State.modServo_keeps rfl ((keeps _ _).mono rfl), rfl, rfl, rfl, rfl, ?_,
    (State.enterHost_next : (s.enterHost h 4 0 0 _ _ s.frm).log.next = _)⟩
  exact congrArg (fun c : Clock => if fld p 0 1 = 0 then some (localOffset r.source r.offset, c.up + 1000000) else none)
    ((keeps _ _).clk rfl)

/-- The fields of an output that `tto-set` takes (Table 20.6). -/
structure OutputFields (p : Bytes) (now : Nat) : Prop where
  length : p.length = 20
  output : fld p 0 1 < 8
  mode : fld p 1 1 < 3
  polarity : fld p 18 1 < 2
  report : fld p 19 1 < 2
  width : fld p 1 1 ≠ 0 → 8 ≤ fld p 14 4 ∧ fld p 14 4 % 8 = 0
  start : fld p 1 1 = 1 → now ≤ fld p 2 8
  train : fld p 1 1 = 2 → 1000 ≤ fld p 10 4 ∧ fld p 10 4 ≤ 1000000000 ∧ fld p 10 4 % 8 = 0 ∧ fld p 14 4 + 8 ≤ fld p 10 4

/-- The next leading edge of an output programmed at `now` (R85). -/
def nextEdge (p : Bytes) (now : Nat) : Nat :=
  if fld p 1 1 = 2 ∧ fld p 2 8 < now + 1000 then
    fld p 2 8 + ((now + 1000 - fld p 2 8 + fld p 10 4 - 1) / fld p 10 4) * fld p 10 4
  else fld p 2 8

theorem serveTtoSet_legal {p : Bytes} {s : State} (f : OutputFields p s.nodeNow) :
    serveTtoSet p s = okS (s.modTto (fld p 0 1) (fun o => { o with
      mode := fld p 1 1, start := fld p 2 8, period := fld p 10 4, width := fld p 14 4, polarity := fld p 18 1 == 1
      report := fld p 19 1 == 1, armed := fld p 1 1 != 0, next := nextEdge p s.nodeNow, trailAt := none
      level := fld p 18 1 == 1, late := false })) := by
  obtain ⟨len, out, mode, pol, rep, width, start, train⟩ := f
  unfold serveTtoSet
  dsimp only
  rw [if_neg (not_not_intro len), if_neg (by omega), if_neg (by omega), if_neg (by omega), if_neg (by omega), if_neg (by omega)]
  rfl

/-- The next edge of a train that began earlier is the first of its grid a microsecond ahead (R85). -/
theorem nextEdge_train {p : Bytes} {now : Nat} (m : fld p 1 1 = 2) (l : fld p 2 8 < now + 1000) (pos : 0 < fld p 10 4) :
    now + 1000 ≤ nextEdge p now ∧ nextEdge p now < now + 1000 + fld p 10 4 ∧ (nextEdge p now - fld p 2 8) % fld p 10 4 = 0 := by
  have e : nextEdge p now = fld p 2 8 + ((now + 1000 - fld p 2 8) ⌈/⌉ fld p 10 4) * fld p 10 4 := if_pos ⟨m, l⟩
  have reach := grid_reaches (start := fld p 2 8) (target := now + 1000) pos
  have before := Nat.div_mul_le_self (now + 1000 - fld p 2 8 + fld p 10 4 - 1) (fld p 10 4)
  rw [← Nat.ceilDiv_eq_add_pred_div] at before
  rw [e]
  refine ⟨reach, by omega, ?_⟩
  rw [Nat.add_sub_cancel_left, Nat.mul_mod_left]

theorem serveTciSet_legal {p : Bytes} {s : State} (len : p.length = 3) (l : fld p 0 1 < 4) (e : fld p 1 1 < 4) :
    serveTciSet p s = okS (s.modTci (fld p 0 1) (fun x => { x with edges := fld p 1 1, filter := fld p 2 1 })) :=
  (if_neg (not_not_intro len)).trans ((if_neg (by omega)).trans (if_neg (by omega)))

theorem serveTciRead_empty {p : Bytes} {s : State} (len : p.length = 1) (l : fld p 0 1 < 4)
    (e : (s.tci (fld p 0 1)).fifo.words = [] ∨ s.test.regs.fifo.getLsbD (12 + fld p 0 1) = true) :
    serveTciRead p s = okB (s.modTci (fld p 0 1) (fun x => { x with fifo := { x.fifo with underrun := true } })) [0, 2] := by
  have none' : (s.tci (fld p 0 1)).fifo.words.isEmpty = true ∨ s.test.regs.fifo.getLsbD (12 + fld p 0 1) = true :=
    e.imp_left List.isEmpty_iff.mpr
  exact (if_neg (not_not_intro len)).trans ((if_neg (by omega)).trans (if_pos none'))

/-- A capture FIFO whose timestamps were all taken (R87). -/
structure Drained (s x : State) (i : Nat) : Prop where
  calm : Calm s x
  keeps : Keeps [.clk, .host, .servo] s x
  count : x.servo.tcis.length = 4
  words : (x.tci i).fifo.words = []
  rptr : (x.tci i).fifo.rptr = (s.tci i).fifo.wptr

theorem Drained.ite {s x y : State} {i : Nat} {c : Prop} [Decidable c] (h : Drained s x i) (g : Drained s y i) :
    Drained s (if c then x else y) i := by
  split <;> assumption

theorem State.modTci_drained {s : State} {i : Nat} {f : Tci → Tci} (n : s.servo.tcis.length = 4) (l : i < 4)
    (w : (f (s.tci i)).fifo.words = []) (r : (f (s.tci i)).fifo.rptr = (s.tci i).fifo.wptr) : Drained s (s.modTci i f) i :=
  have same := State.modTci_same (f := f) (n.symm ▸ l)
  ⟨State.modServo_calm, State.modTci_keeps rfl .refl, sized_upd n, same ▸ w, same ▸ r⟩

/-- Noting a reported overflow leaves what was taken. -/
theorem Drained.noted {s x : State} {i ev sub : Nat} {o : Option Nat} {b : Bytes} (h : Drained s x i) (l : i < 4) :
    Drained s ((x.modTci i (fun y => { y with fifo := { y.fifo with poFrame := o } })).raise ev sub b) i :=
  have same := State.modTci_same (s := x) (f := fun y => { y with fifo := { y.fifo with poFrame := o } }) (h.count.symm ▸ l)
  ⟨h.calm.trans (State.modServo_calm.trans State.raise_calm), State.raise_keeps rfl (State.modTci_keeps rfl h.keeps), sized_upd h.count,
    (congrArg (fun y : Tci => y.fifo.words) same).trans h.words, (congrArg (fun y : Tci => y.fifo.rptr) same).trans h.rptr⟩

/-- A capture FIFO read: every timestamp is delivered and leaves it (R87). -/
theorem serveTciRead_held {p : Bytes} {s : State} (n : s.servo.tcis.length = 4) (len : p.length = 1) (l : fld p 0 1 < 4)
    (e : (s.tci (fld p 0 1)).fifo.words ≠ []) (t : s.test.regs.fifo.getLsbD (12 + fld p 0 1) = false) :
    ∃ x a b, serveTciRead p s = okB x ([a, b] ++ (s.tci (fld p 0 1)).fifo.words.flatMap tciEntry) ∧ Drained s x (fld p 0 1) := by
  have some' : ¬((s.tci (fld p 0 1)).fifo.words.isEmpty = true ∨ s.test.regs.fifo.getLsbD (12 + fld p 0 1) = true) := by
    rw [t]
    simpa using e
  refine ⟨_, _, _, (if_neg (not_not_intro len)).trans ((if_neg (by omega)).trans (if_neg some')), ?_⟩
  exact .ite (.ite (State.modTci_drained n l rfl rfl) ((State.modTci_drained n l rfl rfl).noted l)) (State.modTci_drained n l rfl rfl)

end Sys2Proof.Machine

open Sys2Proof Sys2Proof.Machine

/-- Settles O9: the reports by `taken_reads`, the servo by `Accepted`, the outputs' next edges by `nextEdge_train`. -/
theorem timeCommandsAnswer : Obligations.TimeCommandsAnswer := by
  intro s h p i snd named
  subst named
  refine ⟨fun k => taken_reads k snd rfl, fun r k len l some' small room => ?accept, ?tto, fun k len l e => ?tci, fun k len l e t => ?held,
    fun k len l e => ?empty, fun k len l => ?balance, fun k => ?map⟩
  case accept =>
    obtain ⟨x, g, c, kp, acc⟩ := serveTimeAccept_takes (s := s.accept 0x0702 h p) (h := h) len l some' small
      ((State.logFull_congr (State.accept_keeps.log rfl)).trans room)
    obtain ⟨t, e, a, v, after, -⟩ := taken_serves (serve := serveTimeAccept h) (T := [.servo, .log]) k snd g c kp
    have same := after.after.servo rfl
    exact ⟨t, e, a, (congrArg Servo.refused same).trans acc.refused, (congrArg Servo.source same).trans acc.source,
      (congrArg Servo.state same).trans acc.state, (congrArg Servo.slew same).trans acc.slew, (congrArg Servo.step same).trans acc.step,
      (congrArg LegalLog.next (after.after.log rfl)).trans acc.logged, v⟩
  case tto =>
    intro mode start period width k len out m pol rep w st tr
    have g := serveTtoSet_legal (s := s.accept 0x0703 h p) ⟨len, out, m, pol, rep, w, by rwa [State.accept_nodeNow], tr⟩
    obtain ⟨t, e, a, v, after, -⟩ := taken_serves (T := [.servo]) k snd g State.modServo_calm (State.modTto_keeps rfl .refl)
    have servo := after.after.servo rfl
    have same := (State.tto_congr servo).trans (State.modTto_same (snd.outputs.symm ▸ out))
    have next := congrArg Tto.next same
    rw [State.accept_nodeNow] at next
    refine ⟨t, e, a, congrArg Tto.mode same, congrArg Tto.armed same, congrArg Tto.width same, congrArg Tto.period same,
      congrArg Tto.polarity same, congrArg Tto.level same, congrArg Tto.report same, fun o => next.trans (if_neg (by omega)),
      fun m2 l => ?_, fun j ne => (State.tto_congr servo).trans (State.modTto_other ne), v⟩
    rw [next]
    exact nextEdge_train m2 l (by have := tr m2; omega)
  case tci =>
    obtain ⟨t, e', a, v, after, -⟩ := taken_serves (T := [.servo]) k snd (serveTciSet_legal (s := s.accept 0x0704 h p) len l e)
      State.modServo_calm (State.modTci_keeps rfl .refl)
    have servo := after.after.servo rfl
    exact ⟨t, e', a, (State.tci_congr servo).trans (State.modTci_same (snd.captures.symm ▸ l)),
      fun j ne => (State.tci_congr servo).trans (State.modTci_other ne), v⟩
  case held =>
    obtain ⟨x, b0, b1, g, d⟩ := serveTciRead_held (s := s.accept 0x0705 h p) snd.captures len l e t
    obtain ⟨t, e', a, v, after, -⟩ := taken_serves (T := [.servo]) k snd g d.calm d.keeps
    have same := State.tci_congr (i := fld p 0 1) (after.after.servo rfl)
    exact ⟨t, _, e', a, rfl, same ▸ d.words, same ▸ d.rptr, v⟩
  case empty =>
    obtain ⟨t, e', a, v, after, -⟩ := taken_serves (T := [.servo]) k snd (serveTciRead_empty (s := s.accept 0x0705 h p) len l e)
      State.modServo_calm (State.modTci_keeps rfl .refl)
    have same := (State.tci_congr (after.after.servo rfl)).trans (State.modTci_same (snd.captures.symm ▸ l))
    refine ⟨t, e', a, ?_, ?_, v⟩
    · rw [same]
    · rw [same]
      rfl
  case balance =>
    obtain ⟨t, e, a, ro⟩ := taken_parts_reads k snd (serveBalanceResults_parts len l).choose_spec packParts_ne_nil
    exact ⟨t, _, e, a, ro⟩
  case map =>
    obtain ⟨t, e, a, ro⟩ := taken_parts_reads (serve := serveRingMap) k snd rfl packParts_ne_nil
    exact ⟨t, _, e, a, packParts_take (cur := le 2 s.ring.root ++ le 2 s.ring.inBal), ro⟩
end

section
/-!
The display, converter and test-window commands (20 Table 20.4, Table 20.6).
-/

namespace Sys2Proof.Machine

theorem ReadOnly.serving {T : List Part} {s t : State} {h : Hdr} (r : ReadOnly s t h) : Serves T s t h where
  parts := r.serves.parts.mono (within_clk_host T)
  counter := r.serves.counter
  space := r.serves.space
  boxes := r.serves.boxes

/-! ### The display commands -/

theorem State.modDisp_calm {s : State} {f : Display → Display} : Calm s (s.modDisp f) := ⟨rfl, rfl⟩

theorem serveDisplayPin_pins {p : Bytes} {s : State} (len : p.length = 4) (pos : 0 < fld p 2 2) (most : fld p 2 2 ≤ 300)
    (l : fld p 0 1 < 16) (ty : s.ptType (fld p 0 1) ≠ 0) (pg : s.pages.contains (fld p 0 1, fld p 1 1) = true) :
    serveDisplayPin p s = okS ((s.modDisp (fun d => { d with
      pin := some (fld p 0 1, fld p 1 1), pinDue := some (s.clk.up + fld p 2 2 * 1000000000)
      page := (fld p 0 1, fld p 1 1) })).wantUpdate 0) := by
  unfold serveDisplayPin
  dsimp only
  rw [if_neg (not_not_intro len), if_neg (by omega), if_neg (by omega), if_neg (by rw [pg]; simpa using most)]

theorem serveDisplayPin_ends {p : Bytes} {s : State} (len : p.length = 4) (z : fld p 2 2 = 0) : serveDisplayPin p s = okS s.unpin :=
  (if_neg (not_not_intro len)).trans (if_pos z)

theorem State.unpin_free {s : State} (n : s.disp.pin = none) : s.unpin = s := if_neg (by rw [n]; exact Bool.false_ne_true)

theorem State.unpin_pin {s : State} : s.unpin.disp.pin = none := by
  cases pinned : s.disp.pin with
  | none => rw [State.unpin_free pinned, pinned]
  | some x =>
    unfold State.unpin
    rw [if_pos (by rw [pinned]; rfl), State.turnPage, State.wantUpdate_left]
    rfl

theorem State.unpin_calm {s : State} : Calm s s.unpin := by
  unfold State.unpin State.turnPage
  exact .ite (Calm.trans (x := (s.modDisp _).modDisp _) ⟨rfl, rfl⟩ State.wantUpdate_calm) .refl

theorem State.livePage_live {s : State} (h : s.pages.contains s.disp.page = true) : s.livePage = s.disp.page := if_pos h

theorem serveDisplayWaveform_loads {h : Hdr} {p : Bytes} {s : State} (l : fld p 0 1 < 8) (pos : 0 < fld p 1 1) (most : fld p 1 1 ≤ 16)
    (len : p.length = 2 + 6 * fld p 1 1) (w : waveValid (readPhases p) = true) (sealed : s.saf.seals.testBit 0 = true)
    (room : s.logFull 1 = false) :
    ∃ a b, serveDisplayWaveform h p s = okS ((s.modDisp (fun d => { d with waves := put d.waves (fld p 0 1) (readPhases p) })).enterHost
      h 6 0 0 a b s.frm) := by
  have full : ¬s.logFull 1 = true := by
    rw [room]
    exact Bool.false_ne_true
  unfold serveDisplayWaveform withSeal withLog
  dsimp only
  rw [if_neg (not_not_intro len), if_neg (by rw [w]; simp; omega), if_pos sealed, if_neg full]
  exact ⟨_, _, rfl⟩

theorem serveDisplayUpdate_waits {s : State} (on : s.disp.rails = 4) (run : s.disp.run.isSome = true) (o : s.disp.offPending = false) :
    serveDisplayUpdate [] s = okS (s.modDisp (fun d => { d with todo := d.todo ++ [(0, 1)] })) :=
  (if_neg (not_not_intro on)).trans ((if_pos run).trans (congrArg okS (if_neg (by rw [o]; exact Bool.false_ne_true))))

theorem serveDisplayUpdate_begins {s : State} (on : s.disp.rails = 4) (run : s.disp.run = none) :
    serveDisplayUpdate [] s =
      okS ((s.modDisp (fun d => { d with todo := d.todo.filter (fun x => x.1 != 0) ++ [(0, 1)] })).dispNext s.clk.up) :=
  (if_neg (not_not_intro on)).trans (if_neg (by rw [run]; exact Bool.false_ne_true))

/-- What defers a run stands on the panel temperature, the waveforms and the run left open. -/
theorem State.deferCause_congr {s t : State} {k : Nat} (h : t.par = s.par) (a : t.sar.dieTemp = s.sar.dieTemp)
    (d : t.disp.hostTemp = s.disp.hostTemp) (w : t.disp.waves = s.disp.waves) (o : t.disp.openRun = s.disp.openRun) :
    t.deferCause k = s.deferCause k := by
  unfold State.deferCause State.wave
  rw [State.panelTemp_congr h a d, w, o]

/-- An update asked for begins where nothing runs, waits or defers it. -/
theorem State.dispNext_update {s : State} {u : Nat} (on : s.disp.rails = 4) (run : s.disp.run = none) (w : s.led.warnFrom = none)
    (d : s.deferCause 0 = none) (t : s.disp.todo = []) :
    ((s.modDisp (fun d => { d with todo := d.todo.filter (fun x => x.1 != 0) ++ [(0, 1)] })).dispNext u).disp.run.isSome = true := by
  have todo : (s.modDisp (fun d => { d with todo := d.todo.filter (fun x => x.1 != 0) ++ [(0, 1)] })).disp.todo = [(0, 1)] := by
    change s.disp.todo.filter _ ++ _ = _
    rw [t]
    rfl
  have e := State.dispNext_due (s := s.modDisp (fun d => { d with todo := d.todo.filter (fun x => x.1 != 0) ++ [(0, 1)] })) (u := u)
    run todo on w d
  rw [e]
  exact State.startDue_runs

/-! ### The converter commands -/

theorem State.modSar_calm {s : State} {f : Sar → Sar} : Calm s (s.modSar f) := ⟨rfl, rfl⟩

theorem serveSarResults_parts {p : Bytes} {s : State} (len : p.length = 1) (l : fld p 0 1 < 4) :
    (let words := (s.conv (fld p 0 1)).entries.map (fun e => le 4 (resultWord (s.conv (fld p 0 1)).suspect e) ++ le 8 e.frame)
     serveSarResults p s = okParts (s.modConv (fld p 0 1) (fun c => { c with entries := c.entries.map (fun e => { e with overrun := false }) }))
      [(words.take 16).flatten, (words.drop 16).flatten]) :=
  (if_neg (not_not_intro len)).trans (if_neg (by omega))

theorem flatten_halves {l : List Bytes} {n : Nat} : [(l.take n).flatten, (l.drop n).flatten].flatten = l.flatten := by
  rw [List.flatten_cons, List.flatten_singleton, ← List.flatten_append, List.take_append_drop]

theorem serveSarTrigger_fires {p : Bytes} {s : State} (len : p.length = 1) (l : fld p 0 1 < 16) :
    serveSarTrigger p s = okS (s.fireTrigger 49 s.clk.up (bitsOf 4 (fld p 0 1))) :=
  (if_neg (not_not_intro len)).trans (if_neg (by omega))

theorem serveSarSelftest_asks {p : Bytes} {s : State} (len : p.length = 1) (l : fld p 0 1 < 4) :
    serveSarSelftest p s = okS (s.modConv (fld p 0 1) (fun c => { c with stWait := true })) :=
  (if_neg (not_not_intro len)).trans (if_neg (by omega))

/-- Two machines that a trigger finds alike. -/
structure AlikeFor (s x : State) : Prop where
  par : x.par = s.par
  pts : x.pts = s.pts
  sar : x.sar = s.sar

theorem AlikeFor.fired {s x : State} {code a k i : Nat} (h : AlikeFor s x) :
    AlikeFor (State.fireEntry code a k i s) (State.fireEntry code a k i x) := by
  unfold State.fireEntry
  rw [State.descr_congr h.par h.pts]
  split
  · refine ⟨h.par, h.pts, ?_⟩
    unfold State.modEntry State.modConv State.modSar
    rw [h.sar]
  · exact h

theorem AlikeFor.forAll {s x : State} {f : Nat → State → State} {l : List Nat} (h : AlikeFor s x)
    (g : ∀ i y z, AlikeFor y z → AlikeFor (f i y) (f i z)) : AlikeFor (forAll l f s) (forAll l f x) := by
  induction l generalizing s x with
  | nil => exact h
  | cons a l ih => exact ih (g a s x h)

/-- What a trigger makes due stands on the parameters, the points and the converters alone. -/
theorem AlikeFor.trigger {s x : State} {code a : Nat} {ks : List Nat} (h : AlikeFor s x) :
    (x.fireTrigger code a ks).sar = (s.fireTrigger code a ks).sar := by
  rw [State.fireTrigger_eq, State.fireTrigger_eq]
  exact (AlikeFor.forAll (f := fun k s => Machine.forAll (List.range 32) (State.fireEntry code a k) s) h
    fun k _ _ g => g.forAll (f := State.fireEntry code a k) fun _ _ _ g => g.fired).sar

/-! ### The test window's commands -/

theorem State.setTest_calm {s : State} {r : TestRegs} {c : Nat} : Calm s (s.setTest r c) := by
  have entered : ∀ (x : State) (c : Prop) [Decidable c] n, Calm x (if c then x.enterPhase n else x) := fun x c _ n => by
    unfold State.enterPhase State.supplyEvent
    exact .ite (.ite .refl ⟨rfl, rfl⟩) .refl
  have event : ∀ (x : State) a b c d, Calm x (x.testEvent a b c d) := fun _ _ _ _ _ => State.raise_calm
  have window : ∀ f, Calm s (s.modTest f) := fun f => ⟨rfl, rfl⟩
  have engine : ∀ (x : State) f, Calm x (x.modEng f) := fun _ _ => ⟨rfl, rfl⟩
  unfold State.setTest
  dsimp only
  split
  · exact (window _).trans ((event _ _ _ _ _).trans (entered _ _ _))
  · split
    · exact (window _).trans ((engine _ _).trans ((event _ _ _ _ _).trans (entered _ _ _)))
    · exact window _

/-- An unlock opens the window, starts its timeout, and is entered in the log (R520). -/
theorem serveTestUnlock_opens {h : Hdr} {s : State} (sealed : s.saf.seals.testBit 2 = true) (room : s.logFull 1 = false) :
    ∃ x, serveTestUnlock h [] s = okS x ∧ Calm s x ∧ Keeps [.clk, .host, .test, .log] s x ∧ x.test.unlocked = true ∧
      x.test.regs = s.test.regs ∧ x.test.due = some (s.clk.up + s.pn ND_TEST_TIMEOUT * 1000000000) ∧ x.log.next = s.log.next + 1 := by
  have full : ¬s.logFull 1 = true := by
    rw [room]
    exact Bool.false_ne_true
  have touched : ∀ f, Calm s (s.testTouched.modTest f) := fun f => ⟨rfl, rfl⟩
  have test : ∀ (y : State) a b, (y.enterHost h 9 0 0 a b s.frm).test = y.test := fun y a b =>
    (State.enterHost_keeps rfl (Keeps.refl (T := [.host, .log]))).test rfl
  unfold serveTestUnlock noPayload withSeal withLog
  dsimp only
  rw [if_neg (not_not_intro List.length_nil), if_pos sealed, if_neg full]
  refine ⟨_, rfl, (touched _).trans State.enterHost_calm,
    State.enterHost_keeps rfl (State.modTest_keeps rfl (State.testTouched_keeps rfl .refl)), ?_, ?_, ?_, State.enterHost_next⟩
  · rw [test]
    rfl
  · rw [test]
    rfl
  · rw [test]
    rfl

theorem serveTestRelock_locks {h : Hdr} {s : State} (u : s.test.unlocked = true) (room : s.logFull 1 = false) :
    serveTestRelock h [] s = okS (s.relock 2 0 (hostSrc h) h.tag) := by
  have full : ¬s.logFull 1 = true := by
    rw [room]
    exact Bool.false_ne_true
  unfold serveTestRelock noPayload withLog
  dsimp only
  rw [if_neg (not_not_intro List.length_nil), if_pos u, if_neg full]

theorem State.relock_calm {s : State} {a b c d : Nat} : Calm s (s.relock a b c d) := by
  have window : ∀ (x : State) f, Calm x (x.modTest f) := fun _ _ => ⟨rfl, rfl⟩
  unfold State.relock
  exact .ite (State.setTest_calm.trans ((window _ _).trans State.enter_calm)) .refl

theorem State.relock_next {s : State} {a b c d : Nat} (u : s.test.unlocked = true) : (s.relock a b c d).log.next = s.log.next + 1 := by
  have kept : (s.setTest TestRegs.reset a).log = s.log := (State.setTest_keeps rfl (Keeps.refl (T := [.host, .test, .eng, .sw]))).log rfl
  have window : ∀ (x : State) f, (x.modTest f).log = x.log := fun _ _ => rfl
  unfold State.relock
  dsimp only
  rw [if_pos u, State.enter_next, window, kept]

end Sys2Proof.Machine

open Sys2Proof Sys2Proof.Machine

/-- Settles O10: the display by what a run leaves, the converters by `AlikeFor`, the test window by `State.relock_window`. -/
theorem displaySarTestCommandsAnswer : Obligations.DisplaySarTestCommandsAnswer := by
  intro s h p k snd named
  subst named
  have logRoom : ∀ code q, s.logFull 1 = false → (s.accept code h q).logFull 1 = false := fun code q room =>
    (State.logFull_congr (State.accept_keeps.log rfl)).trans room
  refine ⟨fun tk len pos most l ty pg => ?pin, fun tk len z => ?unpin, fun tk len => ?static, fun tk l pos most len w sealed room => ?wave,
    fun tk len => ?temp, fun tk on run o => ?waits, fun tk on run => ?begins, fun tk len l => ?results, fun tk len l => ?trigger,
    fun tk len l => ?selftest, fun tk sealed room => ?unlock, fun tk u room => ?relock⟩
  case pin =>
    have kept : Keeps [.host] s (s.accept 0x0801 h p) := State.accept_keeps
    have pages := State.pages_congr (kept.par rfl)
    have g := serveDisplayPin_pins (s := s.accept 0x0801 h p) len pos most l ((State.ptType_congr (kept.par rfl)).symm ▸ ty) (pages.symm ▸ pg)
    obtain ⟨t, e, a, v, after, -⟩ := taken_serves (T := [.disp]) tk snd g (State.modDisp_calm.trans State.wantUpdate_calm)
      (State.wantUpdate_keeps rfl (State.modDisp_keeps rfl .refl))
    have disp := after.after.disp rfl
    refine ⟨t, e, a, ?_, ?_, ?_, v⟩
    · rw [disp, State.wantUpdate_left]
      rfl
    · rw [disp, State.wantUpdate_left]
      rfl
    · rw [disp]
      exact State.wantUpdate_page (State.livePage_live (pages.symm ▸ pg))
  case unpin =>
    have g := serveDisplayPin_ends (s := s.accept 0x0801 h p) len z
    cases pinned : s.disp.pin with
    | none =>
      rw [State.unpin_free (s := s.accept 0x0801 h p) pinned] at g
      obtain ⟨t, e, a, ro⟩ := taken_reads tk snd g
      have parts : Keeps [.clk, .host] s t := ro.serves.parts
      exact ⟨t, e, a, (congrArg Display.pin (parts.disp rfl)).trans pinned, fun _ => ro, ro.serving⟩
    | some x =>
      obtain ⟨t, e, a, v, after, -⟩ := taken_serves (T := [.disp]) tk snd g State.unpin_calm (State.unpin_keeps rfl .refl)
      exact ⟨t, e, a, (congrArg Display.pin (after.after.disp rfl)).trans State.unpin_pin, fun n => absurd n (by simp), v⟩
  case static =>
    obtain ⟨t, e, a, v, after, -⟩ := taken_serves (T := [.disp]) (serve := serveDisplayStatic) tk snd (if_neg (not_not_intro len))
      State.modDisp_calm (State.modDisp_keeps rfl .refl)
    exact ⟨t, e, a, after.after.disp rfl, v⟩
  case wave =>
    obtain ⟨b, c, g⟩ := serveDisplayWaveform_loads (s := s.accept 0x0803 h p) (h := h) l pos most len w sealed (logRoom _ _ room)
    obtain ⟨t, e, a, v, after, -⟩ := taken_serves (T := [.log, .disp]) (serve := serveDisplayWaveform h) tk snd g
      (State.modDisp_calm.trans State.enterHost_calm) (State.enterHost_keeps rfl (State.modDisp_keeps rfl .refl))
    refine ⟨t, e, a, (after.after.disp rfl).trans ((State.enterHost_keeps rfl (Keeps.refl (T := [.host, .log]))).disp rfl), ?_, v⟩
    rw [after.after.log rfl]
    exact State.enterHost_next
  case temp =>
    obtain ⟨t, e, a, v, after, -⟩ := taken_serves (T := [.disp]) (serve := serveDisplayTemperature) tk snd (if_neg (not_not_intro len))
      State.modDisp_calm (State.modDisp_keeps rfl .refl)
    exact ⟨t, e, a, after.after.disp rfl, v⟩
  case waits =>
    obtain ⟨t, e, a, v, after, -⟩ := taken_serves (T := [.disp]) tk snd (serveDisplayUpdate_waits (s := s.accept 0x0805 h []) on run o)
      State.modDisp_calm (State.modDisp_keeps rfl .refl)
    exact ⟨t, e, a, after.after.disp rfl, v⟩
  case begins =>
    obtain ⟨t, e, a, v, after, -⟩ := taken_serves (T := [.disp]) tk snd (serveDisplayUpdate_begins (s := s.accept 0x0805 h []) on run)
      (State.modDisp_calm.trans State.dispNext_calm) (State.dispNext_keeps rfl (State.modDisp_keeps rfl .refl))
    refine ⟨t, e, a, fun w d _ todo => ?_, v⟩
    rw [after.after.disp rfl]
    exact State.dispNext_update (s := s.accept 0x0805 h []) on run w ((State.deferCause_congr (State.accept_keeps.par rfl) rfl rfl rfl rfl).trans d)
      todo
  case results =>
    obtain ⟨t, e, a, v, after, -⟩ := taken_parts_serves (T := [.sar]) tk snd (serveSarResults_parts (s := s.accept 0x0901 h p) len l)
      (by simp) State.modSar_calm (State.modConv_keeps rfl .refl)
    refine ⟨t, _, e, a, flatten_halves, fun x m => ?_, v⟩
    have same : t.conv (fld p 0 1) = _ := (congrArg (fun x : Sar => x.conv.getD (fld p 0 1) SarConv.reset) (after.sar rfl)).trans
      (State.modConv_same (snd.converters.symm ▸ l))
    rw [same] at m
    obtain ⟨y, -, rfl⟩ := List.mem_map.mp m
    rfl
  case trigger =>
    obtain ⟨t, e, a, v, after, -⟩ := taken_serves (T := [.sar]) tk snd (serveSarTrigger_fires (s := s.accept 0x0902 h p) len l)
      (.of_keeps (State.fireTrigger_keeps rfl (Keeps.refl (T := [.sar]))) rfl rfl) (State.fireTrigger_keeps rfl .refl)
    exact ⟨t, e, a, (after.after.sar rfl).trans (AlikeFor.trigger ⟨State.accept_keeps.par rfl, State.accept_keeps.pts rfl, rfl⟩), v⟩
  case selftest =>
    obtain ⟨t, e, a, v, after, -⟩ := taken_serves (T := [.sar]) tk snd (serveSarSelftest_asks (s := s.accept 0x0903 h p) len l)
      State.modSar_calm (State.modConv_keeps rfl .refl)
    have conv : ∀ j, t.conv j = _ := fun j => congrArg (fun x : Sar => x.conv.getD j SarConv.reset) (after.after.sar rfl)
    exact ⟨t, e, a, (conv _).trans (State.modConv_same (snd.converters.symm ▸ l)),
      fun j ne => (conv j).trans (State.modConv_other (Ne.symm ne)), v⟩
  case unlock =>
    obtain ⟨x, g, c, kp, unlocked, regs, due, next⟩ := serveTestUnlock_opens (s := s.accept 0x0A01 h []) (h := h) sealed (logRoom _ _ room)
    obtain ⟨t, e, a, v, after, -⟩ := taken_serves (T := [.test, .log]) (serve := serveTestUnlock h) tk snd g c kp
    have test := after.after.test rfl
    exact ⟨t, e, a, (congrArg TestWin.unlocked test).trans unlocked, (congrArg TestWin.regs test).trans regs,
      (congrArg TestWin.due test).trans due, (congrArg LegalLog.next (after.after.log rfl)).trans next, v⟩
  case relock =>
    obtain ⟨t, e, a, v, after, -⟩ := taken_serves (T := [.test, .eng, .sw, .log]) (serve := serveTestRelock h) tk snd
      (serveTestRelock_locks (s := s.accept 0x0A02 h []) (h := h) u (logRoom _ _ room)) State.relock_calm (State.relock_keeps rfl .refl)
    have test := after.after.test rfl
    obtain ⟨locked, regs, due⟩ := State.relock_window (s := s.accept 0x0A02 h []) (a := 2) (b := 0) (c := hostSrc h) (d := h.tag) u
    refine ⟨t, e, a, (congrArg TestWin.unlocked test).trans locked, (congrArg TestWin.regs test).trans regs,
      (congrArg TestWin.due test).trans due, ?_, v⟩
    rw [after.after.log rfl]
    exact State.relock_next u
end

section
/-!
The firmware commands (21 R486–R502, 20 Table 20.5): stagings, their pieces, the hand-over and the confirmation.
-/

namespace Sys2Proof.Machine

theorem State.modFw_calm {s : State} {f : Firmware → Firmware} : Calm s (s.modFw f) := ⟨rfl, rfl⟩

theorem withLog_room {n : Nat} {k : State → Ans} {s : State} (room : s.logFull n = false) : withLog n k s = k s :=
  if_neg (by rw [room]; exact Bool.false_ne_true)

theorem withSeal_closed {i : Nat} {k : State → Ans} {s : State} (sealed : s.saf.seals.testBit i = true) : withSeal i k s = k s :=
  if_pos sealed

/-! ### Opening a staging -/

/-- A staging opened: of the kind, length and digest sent, with no piece, and of a legal kind with one log entry (R486, R502). -/
structure Opened (s x : State) (h : Hdr) (p : Bytes) : Prop where
  calm : Calm s x
  keeps : Keeps [.clk, .host, .log, .fw] s x
  stage : ∃ idx, x.fw.stage = some ⟨fld p 0 1, fld p 4 4, Machine.slice p 8 32, [], 0, [], none, h.heth, h.tag, idx⟩
  slots : x.fw.svc = s.fw.svc
  active : x.fw.active = s.fw.active
  logged : x.log.next = s.log.next + (if fld p 0 1 < 2 then 0 else 1)

theorem serveFwBegin_opens {h : Hdr} {p : Bytes} {s : State} (n : s.fw.recovery = false) (len : p.length = 40) (l : fld p 0 1 < 4)
    (svc : fld p 0 1 < 2 → (s.pn ND_FW_SERVICE_METHOD).testBit (fld p 0 1) = true ∧ s.fw.trial = false)
    (lim : fld p 0 1 ≠ 1 → fld p 4 4 ≤ imageLimit (fld p 0 1))
    (legal : 2 ≤ fld p 0 1 → s.saf.seals.testBit 0 = true ∧ s.logFull 1 = false) :
    ∃ x, serveFwBegin h p s = okS x ∧ Opened s x h p := by
  have method : ¬(fld p 0 1 < 2 ∧ (s.pn ND_FW_SERVICE_METHOD).testBit (fld p 0 1) = false) := fun c => by
    rw [(svc c.1).1] at c
    exact absurd c.2 (by decide)
  have trial : ¬(fld p 0 1 < 2 ∧ s.fw.trial = true) := fun c => by
    rw [(svc c.1).2] at c
    exact absurd c.2 (by decide)
  have limit : ¬(fld p 0 1 ≠ 1 ∧ imageLimit (fld p 0 1) < fld p 4 4) := fun c => absurd (lim c.1) (by omega)
  unfold serveFwBegin
  dsimp only
  rw [if_neg (not_not_intro len), if_neg (by omega), if_neg (by rw [n]; simp), if_neg method, if_neg limit, if_neg trial]
  by_cases service : fld p 0 1 < 2
  · rw [if_pos service]
    exact ⟨_, rfl, State.modFw_calm, State.modFw_keeps rfl .refl, ⟨_, rfl⟩, rfl, rfl, by rw [if_pos service]; rfl⟩
  · obtain ⟨sealed, room⟩ := legal (by omega)
    rw [if_neg service, withSeal_closed sealed, withLog_room room]
    have fw : ∀ a b c, (s.bump.enterHost h 3 0 0 a b c).fw = s.fw := fun a b c =>
      (State.enterHost_keeps rfl (Keeps.refl (T := [.host, .log]))).fw rfl
    refine ⟨_, rfl, State.bump_calm.trans (State.enterHost_calm.trans State.modFw_calm),
      State.modFw_keeps rfl (State.enterHost_keeps rfl (State.bump_keeps rfl .refl)), ⟨_, rfl⟩, ?_, ?_, ?_⟩
    · exact (congrArg Firmware.svc (fw _ _ _) : (s.bump.enterHost h 3 0 0 _ _ _).fw.svc = _)
    · exact (congrArg Firmware.active (fw _ _ _) : (s.bump.enterHost h 3 0 0 _ _ _).fw.active = _)
    · rw [if_neg service]
      exact (State.enterHost_next : (s.bump.enterHost h 3 0 0 _ _ _).log.next = _)

/-! ### The pieces of a file -/

/-- An offset within an area of Table 1.7, the areas before it lying below it, is that area's. -/
theorem mramArea_at {a o : Nat} (la : a < 13) (l : o < (mramMap.getD a (0, 0, [])).2.1)
    (before : ∀ b, b < a → (mramMap.getD b (0, 0, [])).1 + (mramMap.getD b (0, 0, [])).2.1 ≤ (mramMap.getD a (0, 0, [])).1) :
    mramArea ((mramMap.getD a (0, 0, [])).1 + o) = a := by
  have at' : ∀ b (lb : b < mramMap.length), mramMap[b] = mramMap.getD b (0, 0, []) := fun b lb => by
    rw [List.getD_eq_getElem?_getD, List.getElem?_eq_getElem lb]
    rfl
  have found : mramMap.findIdx? (fun x => decide (x.1 ≤ (mramMap.getD a (0, 0, [])).1 + o ∧
      (mramMap.getD a (0, 0, [])).1 + o < x.1 + x.2.1)) = some a := by
    rw [List.findIdx?_eq_some_iff_getElem]
    refine ⟨la, ?_, fun b lb => ?_⟩
    · rw [at' a la]
      exact decide_eq_true ⟨Nat.le_add_right _ _, Nat.add_lt_add_left l _⟩
    · rw [at' b (lt_trans lb la), decide_eq_true_iff]
      have := before b lb
      omega
  unfold mramArea
  rw [found]
  rfl

theorem mramArea_service {k o : Nat} (l : o < 0x200000) (k2 : k < 2) : mramArea (slotOffset k + o) = 2 + k := by
  match k, k2 with
  | 0, _ => exact mramArea_at (a := 2) (by decide) l (by decide)
  | 1, _ => exact mramArea_at (a := 3) (by decide) l (by decide)

theorem mramArea_legal {k o : Nat} (l : o < 0x80000) (k2 : k < 2) : mramArea (slotOffset (2 + k) + o) = k := by
  match k, k2 with
  | 0, _ => exact mramArea_at (a := 0) (by decide) l (by decide)
  | 1, _ => exact mramArea_at (a := 1) (by decide) l (by decide)

/-- The controller lets the service core write the slot that is not the active one (R35). -/
theorem State.mayWrite_service {s : State} {o : Nat} (l : o < 0x200000) : s.mayWrite 2 (slotOffset (1 - s.fw.active) + o) = true := by
  have k2 : 1 - s.fw.active < 2 := by omega
  unfold State.mayWrite
  rw [mramArea_service l k2]
  have agents : ∀ k, k < 2 → (mramMap.getD (2 + k) (0, 0, [])).2.2.contains 2 = true := by decide
  have other : (2 + (1 - s.fw.active) != 2 + s.fw.active) = true := by
    rw [bne_iff_ne]
    omega
  simp only [agents _ k2, other, Bool.or_true, Bool.and_true, Bool.true_and, Bool.or_eq_true, decide_eq_true_eq]
  omega

/-- With SEAL0 closed it lets the Capo write the slot of the legal image that does not run (R35). -/
theorem State.mayWrite_legal {s : State} {o : Nat} (l : o < 0x80000) (n : s.fw.legal < 2) (sealed : s.saf.seals.testBit 0 = true) :
    s.mayWrite 1 (slotOffset (3 - s.fw.legal) + o) = true := by
  have k2 : 1 - s.fw.legal < 2 := by omega
  have slot : 3 - s.fw.legal = 2 + (1 - s.fw.legal) := by omega
  unfold State.mayWrite
  rw [slot, mramArea_legal l k2]
  have agents : ∀ k, k < 2 → (mramMap.getD k (0, 0, [])).2.2.contains 1 = true := by decide
  have other : (1 - s.fw.legal != 2 + s.fw.active) = true := by
    rw [bne_iff_ne]
    omega
  simp only [agents _ k2, other, sealed, Bool.or_true, Bool.and_true]

/-- The staging that a piece is added to, and the pieces it then has (R486). -/
def Staging.withPiece (g : Staging) (p : Bytes) : Staging := { g with pieces := g.pieces ++ [(fld p 0 4, p.drop 4)] }

theorem serveFwData_adds {p : Bytes} {s : State} {g : Staging} (n : s.fw.recovery = false) (min : 5 ≤ p.length) (max : p.length ≤ 244)
    (st : s.fw.stage = some g) (open' : g.state = 0) (kind : g.kind < 4) (fits : fld p 0 4 + (p.length - 4) ≤ g.length)
    (order : g.kind = 1 → fld p 0 4 = stagedBytes g.pieces) (lim : g.kind ≠ 1 → g.length ≤ imageLimit g.kind)
    (legal : 2 ≤ g.kind → s.saf.seals.testBit 0 = true ∧ s.fw.legal < 2) :
    ∃ x, serveFwData p s = okS x ∧ Calm s x ∧ Keeps [.clk, .host, .fw] s x ∧ x.fw.stage = some (g.withPiece p) ∧
      x.fw.active = s.fw.active := by
  have inside : ¬g.length < fld p 0 4 + (p.drop 4).length := by
    rw [List.length_drop]
    omega
  have next : ¬(g.kind = 1 ∧ fld p 0 4 ≠ stagedBytes g.pieces) := fun c => c.2 (order c.1)
  have may : s.mayWrite (if g.kind < 2 then 2 else 1)
      (slotOffset (s.stagedSlot (builtKind g.kind)) + if g.kind = 1 then 0 else fld p 0 4) = true := by
    by_cases service : g.kind < 2
    · have slot : s.stagedSlot (builtKind g.kind) = 1 - s.fw.active := if_pos (by unfold builtKind; split <;> omega)
      rw [if_pos service, slot]
      refine State.mayWrite_service ?_
      split
      · decide
      · next one =>
        have l := lim one
        unfold imageLimit at l
        rw [if_pos (by omega)] at l
        omega
    · obtain ⟨sealed, slots⟩ := legal (by omega)
      have slot : s.stagedSlot (builtKind g.kind) = 3 - s.fw.legal := by
        unfold State.stagedSlot builtKind
        rw [if_neg (by split <;> omega), if_neg (by rw [n]; exact Bool.false_ne_true)]
      rw [if_neg service, slot, if_neg (by omega)]
      refine State.mayWrite_legal ?_ slots sealed
      have l := lim (by omega)
      unfold imageLimit at l
      rw [if_neg (by omega)] at l
      split at l <;> omega
  have slotKept : ∀ a b f, (s.modSlot a b f).fw.active = s.fw.active := fun a b f => by
    unfold State.modSlot
    cases a <;> rfl
  unfold serveFwData
  dsimp only
  rw [if_neg (by omega), st]
  dsimp only
  rw [if_neg (not_not_intro open'), if_neg inside, if_neg next, State.writeMram, if_pos may]
  refine ⟨_, rfl, ?_, ?_, rfl, ?_⟩
  · exact Calm.trans (.ite State.modFw_calm State.modFw_calm) State.modFw_calm
  · exact State.modFw_keeps rfl (.ite (State.modFw_keeps rfl .refl) (State.modFw_keeps rfl .refl))
  · split
    · exact slotKept ..
    · exact slotKept ..

/-! ### Verification, hand-over and confirmation -/

theorem serveFwVerify_built {s : State} {g : Staging} {b : Bytes} (st : s.fw.stage = some g) (open' : g.state = 0)
    (b' : s.builtImage g = some b) :
    serveFwVerify [] s = okS (s.modFw (fun f => { f with stage := some { g with state := 1, built := b } })) := by
  unfold serveFwVerify noPayload
  rw [if_neg (not_not_intro List.length_nil)]
  dsimp only
  rw [st]
  dsimp only
  rw [if_neg (not_not_intro open'), b']

theorem serveFwVerify_broken {s : State} {g : Staging} (st : s.fw.stage = some g) (open' : g.state = 0)
    (b' : s.builtImage g = none) : serveFwVerify [] s = ⟨s.modFw (fun f => { f with stage := none }), 17, [], []⟩ := by
  unfold serveFwVerify noPayload
  rw [if_neg (not_not_intro List.length_nil)]
  dsimp only
  rw [st]
  dsimp only
  rw [if_neg (not_not_intro open'), b']

theorem serveFwHandover_service {h : Hdr} {s : State} {g : Staging} (st : s.fw.stage = some g) (verified : g.state = 2)
    (w : s.led.warnFrom = none) (trial : s.fw.trial = false) (kind : g.kind < 2) :
    serveFwHandover h [] s = okS (s.modFw (fun f => { f with
      stage := some { g with state := 3, heth := h.heth, tag := h.tag }, bootDue := some (s.clk.up + 2000000000) })) := by
  unfold serveFwHandover noPayload
  rw [if_neg (not_not_intro List.length_nil)]
  dsimp only
  rw [st]
  dsimp only
  rw [if_neg (by simp [verified, w, trial]), if_pos kind]

/-- A legal image handed over is entered in the log and swapped a millisecond later (R491, R502). -/
structure SwapSet (s x : State) : Prop where
  calm : Calm s x
  keeps : Keeps [.clk, .host, .log, .fw] s x
  due : x.fw.swapAt = some (s.clk.up + 1000000)
  legal : x.fw.legal = s.fw.legal
  logged : x.log.next = s.log.next + 1

theorem serveFwHandover_legal {h : Hdr} {s : State} {g : Staging} (n : s.fw.recovery = false) (st : s.fw.stage = some g)
    (verified : g.state = 2) (w : s.led.warnFrom = none) (kind : 2 ≤ g.kind) (sealed : s.saf.seals.testBit 0 = true)
    (room : s.logFull 1 = false) : ∃ x, serveFwHandover h [] s = okS x ∧ SwapSet s x := by
  have kept : ∀ a b c, Keeps [.host, .log] s (s.enterHost h 3 0 0 a b c) := fun a b c => State.enterHost_keeps rfl .refl
  unfold serveFwHandover noPayload
  rw [if_neg (not_not_intro List.length_nil)]
  dsimp only
  rw [st]
  dsimp only
  rw [if_neg (by simp [verified, w]; omega), if_neg (by omega), withSeal_closed sealed, withLog_room room]
  rw [if_neg (by rw [(kept _ _ _).fw rfl, n]; exact Bool.false_ne_true)]
  refine ⟨_, rfl, State.enterHost_calm.trans State.modFw_calm, State.modFw_keeps rfl (State.enterHost_keeps rfl .refl), ?_, ?_, ?_⟩
  · exact congrArg (fun c : Clock => some (c.up + 1000000)) ((kept _ _ _).clk rfl)
  · exact (congrArg Firmware.legal ((kept _ _ _).fw rfl) : (s.enterHost h 3 0 0 _ _ _).fw.legal = _)
  · exact (State.enterHost_next : (s.enterHost h 3 0 0 _ _ _).log.next = _)

/-- A confirmed trial: it ends, the active slot is confirmed, and the parameters of before the trial are dropped (R493). -/
structure Confirmed (s x : State) : Prop where
  calm : Calm s x
  keeps : Keeps [.clk, .host, .par, .fw] s x
  trial : x.fw.trial = false
  due : x.fw.confirmDue = none
  slot : s.fw.active < s.fw.svc.length → (x.svcSlot s.fw.active).confirmed = true
  stored : x.par.stored = s.par.stored
  old : x.par.oldCopy = []

theorem serveFwConfirm_confirms {s : State} (trial : s.fw.trial = true) (hand : s.fw.hand = none) :
    ∃ x, serveFwConfirm [] s = okS x ∧ Confirmed s x :=
  ⟨_, if_pos ⟨trial, hand⟩,
    { calm := ⟨rfl, rfl⟩
      keeps := State.modPar_keeps rfl (State.modFw_keeps rfl (State.modFw_keeps rfl .refl))
      trial := rfl
      due := rfl
      slot := fun l => congrArg Slot.confirmed (getD_upd_eq l)
      stored := rfl
      old := rfl }⟩

/-- What fw-status answers: 12 bytes that begin with the active slot, the staging's kind and the state (20 Table 20.5). -/
theorem serveFwStatus_body {s : State} : ∃ b, serveFwStatus [] s = okB s.bump b ∧ b.length = 12 ∧
    (s.fw.stage = none → b.take 1 = [byteOf s.fw.active] ∧ (b.drop 2).take 2 = [byteOf s.fwState, 0]) ∧
    ∀ g, s.fw.stage = some g → b.take 4 = [byteOf s.fw.active, byteOf g.kind, byteOf s.fwState, 0] := by
  refine ⟨_, rfl, rfl, fun _ => ⟨rfl, rfl⟩, fun g st => ?_⟩
  rw [st]
  rfl

theorem State.builtImage_congr {s t : State} {g : Staging} (h : t.fw = s.fw) : t.builtImage g = s.builtImage g := by
  unfold State.builtImage State.runningImage State.svcSlot State.legalSlot
  rw [h]

end Sys2Proof.Machine

open Sys2Proof Sys2Proof.Machine

/-- Settles O8: the stagings by `Opened` and `serveFwData_adds`, the hand-over by `SwapSet`. -/
theorem firmwareCommandsAnswer : Obligations.FirmwareCommandsAnswer := by
  intro s h p snd
  have logRoom : ∀ code q, s.logFull 1 = false → (s.accept code h q).logFull 1 = false := fun code q room =>
    (State.logFull_congr (State.accept_keeps.log rfl)).trans room
  refine ⟨fun tk len l svc lim legal => ?begins, fun g tk min max st op kind fits order lim legal => ?data, fun g b tk st op b' => ?built,
    fun g tk st op b' => ?broken, fun g tk st ver w trial kind => ?service, fun g tk st ver w kind sealed room => ?legal,
    fun tk trial hand l => ?confirm, fun tk => ?status⟩
  case begins =>
    obtain ⟨x, g, o⟩ := serveFwBegin_opens (s := s.accept 0x0601 h p) (h := h) tk.normal len l
      (fun c => ⟨(congrArg (fun n : Nat => n.testBit (fld p 0 1)) (State.pn_congr (State.accept_keeps.par rfl))).trans (svc c).1, (svc c).2⟩)
      lim (fun c => ⟨(legal c).1, logRoom _ _ (legal c).2⟩)
    obtain ⟨t, e, a, v, after, -⟩ := taken_serves (T := [.log, .fw]) (serve := serveFwBegin h) tk snd g o.calm o.keeps
    have fw := after.after.fw rfl
    obtain ⟨idx, stage⟩ := o.stage
    exact ⟨t, idx, e, a, (congrArg Firmware.stage fw).trans stage, (congrArg Firmware.svc fw).trans o.slots,
      (congrArg Firmware.active fw).trans o.active, (congrArg LegalLog.next (after.after.log rfl)).trans o.logged, v⟩
  case data =>
    obtain ⟨x, e', c, kp, stage, active⟩ := serveFwData_adds (s := s.accept 0x0602 h p) tk.normal min max st op kind fits order lim legal
    obtain ⟨t, e, a, v, after, -⟩ := taken_serves (T := [.fw]) tk snd e' c kp
    have fw := after.after.fw rfl
    exact ⟨t, e, a, (congrArg Firmware.stage fw).trans stage, (congrArg Firmware.active fw).trans active, v⟩
  case built =>
    obtain ⟨t, e, a, v, after, -⟩ := taken_serves (T := [.fw]) tk snd
      (serveFwVerify_built (s := s.accept 0x0603 h []) st op ((State.builtImage_congr (State.accept_keeps.fw rfl)).trans b'))
      State.modFw_calm (State.modFw_keeps rfl .refl)
    exact ⟨t, e, a, after.after.fw rfl, v⟩
  case broken =>
    obtain ⟨t, e, a, v, after, -⟩ := taken_serves (T := [.fw]) tk snd
      (serveFwVerify_broken (s := s.accept 0x0603 h []) st op ((State.builtImage_congr (State.accept_keeps.fw rfl)).trans b'))
      State.modFw_calm (State.modFw_keeps rfl .refl)
    exact ⟨t, e, a, after.after.fw rfl, v⟩
  case service =>
    obtain ⟨t, e, a, v, after, -⟩ := taken_serves (T := [.fw]) (serve := serveFwHandover h) tk snd
      (serveFwHandover_service (s := s.accept 0x0604 h []) st ver w trial kind) State.modFw_calm (State.modFw_keeps rfl .refl)
    exact ⟨t, e, a, after.after.fw rfl, v⟩
  case legal =>
    obtain ⟨x, g', o⟩ := serveFwHandover_legal (s := s.accept 0x0604 h []) (h := h) tk.normal st ver w kind sealed (logRoom _ _ room)
    obtain ⟨t, e, a, v, after, -⟩ := taken_serves (T := [.log, .fw]) (serve := serveFwHandover h) tk snd g' o.calm o.keeps
    have fw := after.after.fw rfl
    exact ⟨t, e, a, (congrArg Firmware.swapAt fw).trans o.due, (congrArg LegalLog.next (after.after.log rfl)).trans o.logged,
      (congrArg Firmware.legal fw).trans o.legal, v⟩
  case confirm =>
    obtain ⟨x, g, o⟩ := serveFwConfirm_confirms (s := s.accept 0x0605 h []) trial hand
    obtain ⟨t, e, a, v, after, -⟩ := taken_serves (T := [.par, .fw]) tk snd g o.calm (o.keeps.mono rfl)
    have fw := after.after.fw rfl
    have par := after.after.par rfl
    exact ⟨t, e, a, (congrArg Firmware.trial fw).trans o.trial, (congrArg Firmware.confirmDue fw).trans o.due,
      (congrArg (fun f : Firmware => (f.svc.getD s.fw.active Slot.reset).confirmed) fw).trans (o.slot l),
      (congrArg ParamStore.stored par).trans o.stored, (congrArg ParamStore.oldCopy par).trans o.old, v⟩
  case status =>
    obtain ⟨b, g, len, idle, staged⟩ := serveFwStatus_body (s := s.accept 0x0606 h [])
    obtain ⟨t, e, a, ro⟩ := taken_reads_bumped tk snd g State.bump_calm (State.bump_keeps rfl .refl)
    exact ⟨t, b, e, a, len, idle, staged, ro⟩
end

section
/-!
The outlet, switch and safety commands (20 Table 20.4, Table 20.6; 12 R309, R316; 14; 15 R358–R366).
-/

namespace Sys2Proof.Machine

/-! ### Reading a channel, an input and an entry after an update -/

theorem State.modSwch_leaves {α : Type} {s : State} {n m : Nat} {f : SwCh → SwCh} (g : SwCh → α) (e : ∀ c, g (f c) = g c) :
    g ((s.modSwch n f).swch m) = g (s.swch m) :=
  getD_upd (fun c => g c = g (s.swch m)) rfl fun _ h => (e _).trans h

theorem State.modSafIn_leaves {α : Type} {s : State} {k j : Nat} {f : SafIn → SafIn} (g : SafIn → α) (e : ∀ x, g (f x) = g x) :
    g ((s.modSafIn k f).safIn j) = g (s.safIn j) :=
  getD_upd (fun x => g x = g (s.safIn j)) rfl fun _ h => (e _).trans h

theorem State.modScEntry_leaves {α : Type} {s : State} {k j : Nat} {f : ScEntry → ScEntry} (g : ScEntry → α) (e : ∀ x, g (f x) = g x) :
    g ((s.modScEntry k f).scEntry j) = g (s.scEntry j) :=
  getD_upd (fun x => g x = g (s.scEntry j)) rfl fun _ h => (e _).trans h

theorem State.safIn_congr {s t : State} {k : Nat} (h : t.saf = s.saf) : t.safIn k = s.safIn k := by
  unfold State.safIn
  rw [h]

theorem State.scEntry_congr {s t : State} {k : Nat} (h : t.saf = s.saf) : t.scEntry k = s.scEntry k := by
  unfold State.scEntry
  rw [h]

theorem State.siMode_congr {s t : State} {k : Nat} (h : t.par = s.par) : t.siMode k = s.siMode k := by
  unfold State.siMode
  rw [State.ptType_congr h, State.pn_congr h]

theorem State.siRestart_congr {s t : State} {k : Nat} (h : t.par = s.par) : t.siRestart k = s.siRestart k := State.pn_congr h

/-- The level that an input demands by depends on its mode and its two channels. -/
theorem State.demandA_congr {s t : State} {k : Nat} (h : t.par = s.par) (a : (t.safIn k).a = (s.safIn k).a) :
    t.demandA k = s.demandA k := by
  unfold State.demandA
  rw [State.siMode_congr h, a]

theorem State.demandB_congr {s t : State} {k : Nat} (h : t.par = s.par) (b : (t.safIn k).b = (s.safIn k).b) :
    t.demandB k = s.demandB k := by
  unfold State.demandB
  rw [State.siMode_congr h, b]

/-! ### Work of the safety functions is calm -/

theorem State.modSaf_calm {s : State} {f : Safety → Safety} : Calm s (s.modSaf f) := ⟨rfl, rfl⟩

theorem State.orderDie_calm {s : State} {o : DieOp} : Calm s (s.orderDie o) :=
  .of_keeps (State.orderDie_keeps rfl (Keeps.refl (T := [.sw]))) rfl rfl

theorem State.freePoints_calm {s : State} {src : Nat} {l : List Nat} : Calm s (s.freePoints src l) :=
  .of_keeps (State.freePoints_keeps rfl (Keeps.refl (T := [.sw]))) rfl rfl

theorem State.releaseInput_calm {s : State} {k : Nat} : Calm s (s.releaseInput k) :=
  Calm.trans (x := (s.releaseSi k).modSafIn k _) ⟨rfl, rfl⟩ State.raise_calm

theorem State.releaseOwn_calm {s : State} {c : Nat} : Calm s (s.releaseOwn c) := by
  unfold State.releaseOwn
  dsimp only
  split
  · exact .refl
  · exact State.freePoints_calm.trans (State.modSaf_calm.trans State.raise_calm)

theorem State.holdPoints_calm {s : State} {src : Nat} {l : List Nat} : Calm s (s.holdPoints src l) :=
  .of_keeps (State.holdPoints_keeps rfl (Keeps.refl (T := [.sw]))) rfl rfl

theorem State.causeAll_calm {s : State} {c : Nat} {l : List Nat} : Calm s (s.causeAll l c) :=
  .of_keeps (State.causeAll_keeps rfl (Keeps.refl (T := [.pts]))) rfl rfl

theorem State.settleEntry_calm {s : State} {i : Nat} {was : Bool} : Calm s (s.settleEntry i was) := by
  have event : ∀ (x : State) a b c d e f g, Calm x (x.demandEvent a b c d e f g) := fun _ _ _ _ _ _ _ _ => State.raise_calm
  have entry : ∀ (x : State) f, Calm x (x.modScEntry i f) := fun _ _ => State.modSaf_calm
  unfold State.settleEntry
  dsimp only
  split
  · exact (State.holdPoints_calm.trans (entry _ _)).trans (.ite State.causeAll_calm ((event _ _ _ _ _ _ _ _).trans State.causeAll_calm))
  · exact .ite ((entry _ _).trans (event _ _ _ _ _ _ _ _)) .refl

/-! ### What a release takes away -/

/-- A rank-1 release takes the input's hold from every channel. -/
theorem State.releaseSi_gone {s : State} {k n : Nat} : k ∉ ((s.releaseSi k).swch n).siHold := by
  by_cases l : n < s.sw.ch.length
  · rw [State.releaseSi, State.swch_map l]
    simp
  · have none' : (s.releaseSi k).swch n = SwCh.reset := List.getD_eq_default _ _ (by simpa [State.releaseSi, State.modSw] using l)
    rw [none']
    exact List.not_mem_nil

theorem State.orderFree_siHold {s : State} {src m n : Nat} : ((s.orderDie (.free src m)).swch n).siHold = (s.swch n).siHold := by
  cases h : s.orderNow with
  | true =>
    rw [State.orderDie_now h]
    exact State.modSwch_leaves SwCh.siHold fun _ => rfl
  | false =>
    rw [State.orderDie_waits h]
    rfl

theorem State.freePoints_siHold {s : State} {src n : Nat} {l : List Nat} : ((s.freePoints src l).swch n).siHold = (s.swch n).siHold := by
  unfold State.freePoints
  induction l generalizing s with
  | nil => rfl
  | cons p l ih => exact ih.trans (State.orderFree_siHold.trans State.orderFree_siHold)

theorem State.freePoints_saf {s : State} {src : Nat} {l : List Nat} : (s.freePoints src l).saf = s.saf :=
  (State.freePoints_keeps rfl (Keeps.refl (T := [.sw]))).saf rfl

/-- Releasing the points of the own stop leaves the inputs and the rank-1 holds. -/
theorem State.releaseOwn_leaves {s : State} {c k n : Nat} :
    (s.releaseOwn c).safIn k = s.safIn k ∧ ((s.releaseOwn c).swch n).siHold = (s.swch n).siHold := by
  have ins : ∀ src l, ((s.freePoints src l).saf.ins.getD k SafIn.reset) = s.safIn k := fun src l => by
    rw [State.freePoints_saf]
    rfl
  unfold State.releaseOwn
  dsimp only
  split
  · exact ⟨rfl, rfl⟩
  · exact ⟨ins _ _, State.freePoints_siHold⟩

/-- A released input is not tripped and holds no channel. -/
theorem State.releaseInput_free {s : State} {k n : Nat} (l : k < s.saf.ins.length) :
    ((s.releaseInput k).safIn k).trip = false ∧ k ∉ ((s.releaseInput k).swch n).siHold := by
  have same : (s.releaseInput k).safIn k = { s.safIn k with trip := false, autoDue := none } := getD_upd_eq l
  exact ⟨congrArg SafIn.trip same, State.releaseSi_gone (s := s)⟩

theorem State.releaseInput_latched {s : State} {k j : Nat} : ((s.releaseInput k).safIn j).latched = (s.safIn j).latched :=
  State.modSafIn_leaves (s := s.releaseSi k) SafIn.latched fun _ => rfl

/-! ### The safety commands -/

theorem serveSafetyAcknowledge_input {k : Nat} {s : State} (l : k < 32) (m : s.siMode k ≠ 0) :
    serveSafetyAcknowledge [0, byteOf k] s = ackInput k s := by
  have i : fld [0, byteOf k] 1 1 = k := fld_single (by omega)
  unfold serveSafetyAcknowledge
  dsimp only
  have kind : fld [0, byteOf k] 0 1 = 0 := rfl
  rw [i, kind, if_neg (by simp), if_neg (by decide), if_pos rfl, if_neg (by omega), if_neg m]

theorem serveSafetyAcknowledge_entry {k : Nat} {s : State} (l : k < 16) (c : s.isConsumer k = true) :
    serveSafetyAcknowledge [1, byteOf k] s = ackEntry k s := by
  have i : fld [1, byteOf k] 1 1 = k := fld_single (by omega)
  unfold serveSafetyAcknowledge
  dsimp only
  have kind : fld [1, byteOf k] 0 1 = 1 := rfl
  rw [i, kind, if_neg (by simp), if_neg (by decide), if_neg (by decide), if_pos c]

/-- What an acknowledgement of a safety input or entry leaves besides the parts of its work. -/
structure SafetyWork (s x : State) : Prop where
  calm : Calm s x
  keeps : Keeps [.clk, .host, .pts, .sw, .saf] s x

/-- A tripped input without demand is released (R358). -/
theorem ackInput_tripped {s : State} {k : Nat} (l : k < s.saf.ins.length) (la : (s.safIn k).latched = false)
    (tr : (s.safIn k).trip = true) (de : (s.safIn k).demand = false) (re : s.siRestart k = 0) :
    ∃ x, ackInput k s = okS x ∧ SafetyWork s x ∧ (x.safIn k).trip = false ∧ ∀ n, k ∉ (x.swch n).siHold := by
  unfold ackInput
  dsimp only
  rw [if_neg (by rw [la]; exact Bool.false_ne_true), if_pos (by simp [tr, de, re])]
  refine ⟨_, rfl, ⟨State.releaseInput_calm.trans (.ite .refl State.releaseOwn_calm), ?_⟩, ?_, fun n => ?_⟩
  · exact .ite (State.releaseInput_keeps rfl .refl) (State.releaseOwn_keeps rfl (State.releaseInput_keeps rfl .refl))
  · split
    · exact (State.releaseInput_free (n := 0) l).1
    · rw [(State.releaseOwn_leaves (n := 0)).1]
      exact (State.releaseInput_free (n := 0) l).1
  · split
    · exact (State.releaseInput_free l).2
    · rw [(State.releaseOwn_leaves (k := k)).2]
      exact (State.releaseInput_free l).2

/-- Without a demand, settling an input leaves its latch. -/
theorem State.settleInput_quiet {s : State} {k : Nat} (m : s.siMode k ≠ 0) (a : s.demandA k = false) (b : s.demandB k = false) :
    Calm s (s.settleInput k) ∧ ((s.settleInput k).safIn k).latched = (s.safIn k).latched := by
  have entered : ∀ f e, Calm s ((s.modSafIn k f).inputDemand k e) := fun f e => Calm.trans (x := s.modSafIn k f) ⟨rfl, rfl⟩ State.raise_calm
  unfold State.settleInput
  dsimp only
  rw [if_neg m, if_neg (by simp [a, b])]
  split
  · exact ⟨entered _ _, State.modSafIn_leaves (s := s) SafIn.latched fun _ => rfl⟩
  · split
    · refine ⟨Calm.trans (x := s.releaseSi k) ⟨rfl, rfl⟩ State.orderDie_calm, ?_⟩
      exact congrArg (fun x : Safety => (x.ins.getD k SafIn.reset).latched) ((State.release4_keeps rfl (Keeps.refl (T := [.sw]))).saf rfl)
    · exact ⟨.refl, rfl⟩

/-- A latch whose input was cycled and demands nothing is cleared (R360). -/
theorem ackInput_cycled {s : State} {k : Nat} (l : k < s.saf.ins.length) (m : s.siMode k ≠ 0) (la : (s.safIn k).latched = true)
    (cy : (s.safIn k).cycle = 3) (a : s.demandA k = false) (b : s.demandB k = false) :
    ∃ x, ackInput k s = okS x ∧ SafetyWork s x ∧ (x.safIn k).latched = false := by
  have freed : ∀ c e, ∃ y, y = ((s.release4 k).modSafIn k (fun x => { x with latched := false, cycle := 0 })).discEvent k c e ∧ Calm s y ∧
      Keeps [.host, .sw, .saf] s y ∧ y.safIn k = { s.safIn k with latched := false, cycle := 0 } := by
    intro c e
    have saf : (s.release4 k).saf = s.saf := (State.release4_keeps rfl (Keeps.refl (T := [.sw]))).saf rfl
    refine ⟨_, rfl, State.orderDie_calm.trans (State.modSaf_calm.trans State.raise_calm),
      State.discEvent_keeps rfl (State.modSafIn_keeps rfl (State.release4_keeps rfl .refl)), ?_⟩
    have same : ((s.release4 k).modSafIn k (fun x => { x with latched := false, cycle := 0 })).safIn k = _ :=
      getD_upd_eq (saf.symm ▸ l)
    exact same.trans (congrArg (fun x : SafIn => { x with latched := false, cycle := 0 }) (State.safIn_congr saf))
  unfold ackInput
  dsimp only
  rw [if_pos la, if_pos (by simp [cy, a, b])]
  obtain ⟨y, e, c, kp, same⟩ := freed 1 (10 * s.pn (PT_SI_TD_0 + k % 2) (k / 2) + 1)
  rw [← e]
  obtain ⟨sc, sl⟩ := State.settleInput_quiet (s := y) (k := k) (by rwa [State.siMode_congr (kp.par rfl)])
    ((State.demandA_congr (kp.par rfl) (by rw [same])).trans a) ((State.demandB_congr (kp.par rfl) (by rw [same])).trans b)
  have latched : ((y.settleInput k).safIn k).latched = false := by rw [sl, same]
  refine ⟨_, rfl, ⟨(c.trans sc).trans (.ite State.releaseInput_calm .refl), ?_⟩, ?_⟩
  · have work : Keeps [.clk, .host, .pts, .sw, .saf] s (y.settleInput k) := State.settleInput_keeps rfl (kp.mono rfl)
    exact .ite (State.releaseInput_keeps rfl work) work
  · split
    · rw [State.releaseInput_latched, latched]
    · exact latched

theorem State.settleEntry_state {s : State} {i j : Nat} {was : Bool} : ((s.settleEntry i was).scEntry j).state = (s.scEntry j).state := by
  have held : ∀ f src l, (((s.holdPoints src l).modScEntry i f).saf.entries.getD j ScEntry.reset).state =
      ((s.modScEntry i f).scEntry j).state := fun f src l => by
    have saf : (s.holdPoints src l).saf = s.saf := (State.holdPoints_keeps rfl (Keeps.refl (T := [.sw]))).saf rfl
    change ((upd (s.holdPoints src l).saf.entries i f).getD j ScEntry.reset).state = _
    rw [saf]
    rfl
  have caused : ∀ (x : State) l c, ((x.causeAll l c).scEntry j).state = (x.scEntry j).state := fun x l c => by
    rw [State.scEntry_congr ((State.causeAll_keeps rfl (Keeps.refl (T := [.pts]))).saf rfl)]
  unfold State.settleEntry
  dsimp only
  split
  · split
    · exact (caused _ _ _).trans ((held _ _ _).trans (State.modScEntry_leaves ScEntry.state fun _ => rfl))
    · exact (caused _ _ _).trans ((held _ _ _).trans (State.modScEntry_leaves ScEntry.state fun _ => rfl))
  · split
    · exact State.modScEntry_leaves (s := s) ScEntry.state fun _ => rfl
    · rfl

/-- A faulted consumer entry that hears good messages again runs (R366). -/
theorem ackEntry_runs {s : State} {i : Nat} (l : i < s.saf.entries.length) (st : (s.scEntry i).state = 2)
    (good : ripeAt ((s.scEntry i).goodFrom.map (· + 2 * s.pn (ND_SC_TIME_0 + i) * 1000000)) s.clk.up = true)
    (last : s.clk.up ≤ (s.scEntry i).lastAt + s.pn (ND_SC_TIME_0 + i) * 1000000) :
    ∃ x, ackEntry i s = okS x ∧ SafetyWork s x ∧ (x.scEntry i).state = 1 := by
  have run : ∀ src pts, (((s.modScEntry i (fun e => { e with state := 1 })).freePoints src pts).scEntry i).state = 1 := fun src pts => by
    rw [State.scEntry_congr State.freePoints_saf]
    exact congrArg ScEntry.state (getD_upd_eq l)
  have event : ∀ (x : State) a b c d, Calm x (x.msgFaultEvent i a b c d) := fun _ _ _ _ _ => State.raise_calm
  unfold ackEntry
  dsimp only
  rw [if_pos st, if_pos (by rw [good, decide_eq_true last]; rfl)]
  refine ⟨_, rfl, ⟨?_, ?_⟩, State.settleEntry_state.trans (run _ _)⟩
  · exact (State.modSaf_calm.trans State.freePoints_calm).trans ((event _ _ _ _ _).trans State.settleEntry_calm)
  · exact State.settleEntry_keeps rfl (State.msgFaultEvent_keeps rfl (State.freePoints_keeps rfl (State.modScEntry_keeps rfl .refl)))

theorem isConsumer_lt {s : State} {i : Nat} (c : s.isConsumer i = true) : i < 16 := by
  unfold State.isConsumer at c
  simp only [Bool.and_eq_true, decide_eq_true_eq] at c
  exact c.1.1

/-! ### The outlet and switch commands -/

theorem serveOutletLimit_holds {p : Bytes} {s : State} (len : p.length = 3) (l : fld p 0 1 < 16) (o : s.isOutlet (fld p 0 1) = true) :
    serveOutletLimit p s = okS (s.modOut (fld p 0 1) (fun o => { o with limitNext := some (fld p 1 2) })) :=
  (if_neg (not_not_intro len)).trans ((if_neg (by omega)).trans (if_pos o))

theorem State.isOutlet_congr {s t : State} {q : Nat} (h : t.par = s.par) : t.isOutlet q = s.isOutlet q := by
  unfold State.isOutlet
  rw [State.ptType_congr h]

theorem serveOutletDcStatus_takes {p : Bytes} {s : State} (len : p.length = 11) (l : fld p 0 1 < 16) (ty : s.ptType (fld p 0 1) = 2) :
    serveOutletDcStatus p s = okB (s.modOut (fld p 0 1) (fun o => { o with
        dcMaxV := fld p 1 2, dcMaxI := fld p 3 2, dcMaxP := fld p 5 4, dcIso := fld p 9 1, dcStage := fld p 10 1
        dcDue := some (s.clk.up + 250000000), dcShutdown := false }))
      (le 2 (s.outOf (fld p 0 1)).tgtV ++ le 2 (s.outOf (fld p 0 1)).tgtI ++ [byteOf (s.outOf (fld p 0 1)).protoState]) := by
  have outlet : s.isOutlet (fld p 0 1) = true := by
    unfold State.isOutlet
    rw [ty]
    rfl
  exact (if_neg (not_not_intro len)).trans ((if_neg (by omega)).trans ((if_pos outlet).trans (if_neg (not_not_intro ty))))

/-- A root slot loaded or cleared, and entered in the log (R309). -/
theorem serveRootStore_puts {h : Hdr} {p : Bytes} {s : State} (l : fld p 0 1 < 8) (len : p.length = 4 + fld p 2 2) (most : fld p 2 2 ≤ 1024)
    (kind : fld p 1 1 = 0 ∧ 0 < fld p 2 2 ∨ fld p 1 1 = 1 ∧ fld p 2 2 = 0) (room : s.logFull 1 = false) :
    ∃ x, serveRootStore h p s = okS x ∧ Calm s x ∧ Keeps [.clk, .host, .log, .keys] s x ∧
      x.keys = { s.keys with roots := put s.keys.roots (fld p 0 1) (if fld p 1 1 = 1 then none else some (p.drop 4)) } ∧
      x.log.next = s.log.next + 1 := by
  unfold serveRootStore
  dsimp only
  rw [if_neg (by omega), if_neg (by omega), if_neg (by omega), withLog_room room]
  refine ⟨_, rfl, State.enterHost_calm.trans ⟨rfl, rfl⟩, State.modKeys_keeps rfl (State.enterHost_keeps rfl .refl), ?_,
    (State.enterHost_next : (s.enterHost h 7 0 0 _ _ _).log.next = _)⟩
  exact congrArg (fun k : Keys => { k with roots := put k.roots (fld p 0 1) (if fld p 1 1 = 1 then none else some (p.drop 4)) })
    ((State.enterHost_keeps rfl (Keeps.refl (T := [.host, .log]))).keys rfl)

theorem serveSwitchCommand_commands {p : Bytes} {s : State} (len : p.length = 2) (n : fld p 0 1 < 32) (b : fld p 1 1 < 2)
    (ty : s.ptType (fld p 0 1 / 2) ≠ 0) (free : s.pathLocked (fld p 0 1) = false)
    (h : fld p 1 1 = 1 → (s.swch (fld p 0 1)).held134 = false ∧ (s.swch (fld p 0 1)).held2 = false) :
    serveSwitchCommand p s = okS (s.command (fld p 0 1) (fld p 1 1 == 1)) := by
  have clear : ¬(fld p 1 1 = 1 ∧ ((s.swch (fld p 0 1)).held134 || (s.swch (fld p 0 1)).held2) = true) := fun c => by
    obtain ⟨x, y⟩ := h c.1
    rw [x, y] at c
    exact absurd c.2 (by decide)
  unfold serveSwitchCommand
  dsimp only
  rw [if_neg (not_not_intro len), if_neg (by omega), if_neg (by omega), if_neg ty, if_neg (by simp [free]), if_neg clear]

/-- A command reaches its channel through the die, or waits for it, the outlet's own note of it apart. -/
theorem State.command_sw {s : State} {n : Nat} {b : Bool} : ∃ x : State, x.sw = s.sw ∧ x.clk = s.clk ∧
    s.command n b = if !s.dieAnswers then
        x.modSw (fun d => { d with waiting := (d.waiting.filter (fun w => w.1 != n)) ++ [(n, b)] })
      else x.modSwch n (fun c =>
        if c.held134 then c
        else if c.held2 && b then { c with cmd := b }
        else { (c.setOut s.clk.up b) with cmd := b, reapply := false }) := by
  unfold State.command
  dsimp only
  split
  · exact ⟨s.modOut (n / 2) _, rfl, rfl, rfl⟩
  · exact ⟨s, rfl, rfl, rfl⟩

theorem State.pathLocked_congr {s t : State} {n : Nat} (h : t.par = s.par) (p : t.pts = s.pts) : t.pathLocked n = s.pathLocked n := by
  unfold State.pathLocked State.pathSwitches State.contactor
  dsimp only
  rw [State.isSession_congr h, State.pt_congr p, State.isOutlet_congr h, State.ptType_congr h]
  simp only [State.pn_congr h]

theorem State.dieAnswers_congr {s t : State} (h : t.sw = s.sw) : t.dieAnswers = s.dieAnswers := by
  unfold State.dieAnswers
  rw [h]

theorem State.orderNow_congr {s t : State} (h : t.sw = s.sw) : t.orderNow = s.orderNow := by
  unfold State.orderNow
  rw [State.dieAnswers_congr h, h]

theorem State.command_takes {s : State} {n : Nat} {b : Bool} (l : n < s.sw.ch.length) (die : s.dieAnswers = true)
    (free : (s.swch n).held134 = false) (held : b = true → (s.swch n).held2 = false) :
    ((s.command n b).swch n).on = b ∧ ((s.command n b).swch n).cmd = b := by
  obtain ⟨x, sw, -, e⟩ := State.command_sw (s := s) (n := n) (b := b)
  have clear : ((s.swch n).held2 && b) = false := by
    cases b with
    | false => exact Bool.and_false _
    | true => rw [held rfl, Bool.false_and]
  rw [e, die, if_neg (by decide), State.modSwch_same (sw.symm ▸ l), State.swch_congr sw, free, clear]
  exact ⟨SwCh.setOut_on, rfl⟩

theorem State.command_waits {s : State} {n m : Nat} {b : Bool} (die : s.dieAnswers = false) :
    (s.command n b).swch m = s.swch m ∧ (n, b) ∈ (s.command n b).sw.waiting := by
  obtain ⟨x, sw, -, e⟩ := State.command_sw (s := s) (n := n) (b := b)
  rw [e, die, if_pos (by decide)]
  exact ⟨(State.swch_congr sw : x.swch m = s.swch m), List.mem_append_right _ (List.mem_singleton_self _)⟩

theorem State.command_other {s : State} {n m : Nat} {b : Bool} (ne : m ≠ n) : (s.command n b).swch m = s.swch m := by
  obtain ⟨x, sw, -, e⟩ := State.command_sw (s := s) (n := n) (b := b)
  rw [e]
  split
  · exact (State.swch_congr sw : x.swch m = s.swch m)
  · exact (State.modSwch_other (Ne.symm ne)).trans (State.swch_congr sw)

theorem serveSwitchReset_reloads {p : Bytes} {s : State} (len : p.length = 1) (n : fld p 0 1 < 32) (ty : s.ptType (fld p 0 1 / 2) ≠ 0)
    (held : (s.swch (fld p 0 1)).held134 = false) (th : (s.swch (fld p 0 1)).therm = false) :
    serveSwitchReset p s = okS (s.orderDie (.reload (fld p 0 1))) := by
  unfold serveSwitchReset
  dsimp only
  rw [if_neg (not_not_intro len), if_neg (by omega), if_neg ty, if_neg (by simp [held, th])]

/-- What safety-status answers: 64 bytes that begin with the demands and the latches (20 Table 20.4). -/
theorem serveSafetyStatus_body {s : State} (n : s.saf.entries.length = 16) : ∃ b, serveSafetyStatus [] s = okB s b ∧ b.length = 64 ∧
    b.take 8 = le 4 (bitmapOf (s.saf.ins.map (fun x => x.demand))) ++ le 4 (bitmapOf (s.saf.ins.map (fun x => x.latched))) := by
  refine ⟨_, rfl, ?_, rfl⟩
  have lasts : ∀ l : List ScEntry, (l.flatMap (fun e => le 2 (e.last.getD 0))).length = 2 * l.length := by
    intro l
    induction l with
    | nil => rfl
    | cons e l ih =>
      rw [List.flatMap_cons, List.length_append, ih, List.length_cons]
      change 2 + _ = _
      omega
  simp only [List.length_append, List.length_map, lasts, n]
  rfl

end Sys2Proof.Machine

open Sys2Proof Sys2Proof.Machine

/-- Settles O7: the switch by `State.command_sw`, the safety inputs by `ackInput_tripped` and `ackInput_cycled`. -/
theorem outletAndSwitchCommandsAnswer : Obligations.OutletAndSwitchCommandsAnswer := by
  intro s h p q snd named
  have logRoom : ∀ code q, s.logFull 1 = false → (s.accept code h q).logFull 1 = false := fun code q room =>
    (State.logFull_congr (State.accept_keeps.log rfl)).trans room
  have par : ∀ code b, (s.accept code h b).par = s.par := fun _ _ => State.accept_keeps.par rfl
  refine ⟨fun tk len l o => ?limit, fun tk len l ty => ?dc, fun tk l k pos len room => ?load, fun tk l k z len room => ?clear,
    fun tk len l b ty free held => ?command, fun tk => ?status, fun tk len l ty held th => ?reset, fun tk l m la tr de re => ?tripped,
    fun tk l m la cy a b => ?cycled, fun tk c st good last => ?entry, fun tk => ?safety⟩
  case limit =>
    subst named
    obtain ⟨t, e, a, v, after, -⟩ := taken_serves (T := [.pts]) tk snd
      (serveOutletLimit_holds (s := s.accept 0x0312 h p) len l ((State.isOutlet_congr (par _ _)).trans o))
      State.modPt_calm (State.modPt_keeps rfl .refl)
    exact ⟨t, e, a, after.after.pts rfl, v⟩
  case dc =>
    subst named
    obtain ⟨t, e, a, v, after, -⟩ := taken_serves (T := [.pts]) tk snd
      (serveOutletDcStatus_takes (s := s.accept 0x0313 h p) len l ((State.ptType_congr (par _ _)).trans ty))
      State.modPt_calm (State.modPt_keeps rfl .refl)
    have same : t.outOf (fld p 0 1) = _ := congrArg Point.out ((State.pt_congr (after.after.pts rfl)).trans
      (State.modPt_same (snd.pts.symm ▸ l)))
    exact ⟨t, e, a, congrArg Outlet.dcMaxV same, congrArg Outlet.dcMaxI same, congrArg Outlet.dcMaxP same, congrArg Outlet.dcIso same,
      congrArg Outlet.dcStage same, congrArg Outlet.dcDue same, v⟩
  case load =>
    subst named
    have fits := tk.fits
    obtain ⟨x, g, c, kp, keys, next⟩ := serveRootStore_puts (s := s.accept 0x0314 h p) (h := h) l len (by omega) (.inl ⟨k, pos⟩) (logRoom _ _ room)
    obtain ⟨t, e, a, v, after, -⟩ := taken_serves (T := [.log, .keys]) (serve := serveRootStore h) tk snd g c kp
    rw [if_neg (by omega)] at keys
    exact ⟨t, e, a, (after.after.keys rfl).trans keys, (congrArg LegalLog.next (after.after.log rfl)).trans next, v⟩
  case clear =>
    subst named
    obtain ⟨x, g, c, kp, keys, next⟩ := serveRootStore_puts (s := s.accept 0x0314 h p) (h := h) l (by omega) (by omega) (.inr ⟨k, z⟩)
      (logRoom _ _ room)
    obtain ⟨t, e, a, v, after, -⟩ := taken_serves (T := [.log, .keys]) (serve := serveRootStore h) tk snd g c kp
    rw [if_pos k] at keys
    exact ⟨t, e, a, (after.after.keys rfl).trans keys, (congrArg LegalLog.next (after.after.log rfl)).trans next, v⟩
  case command =>
    subst named
    have kept : Keeps [.host] s (s.accept 0x0315 h p) := State.accept_keeps
    have at' : ∀ n, (s.accept 0x0315 h p).swch n = s.swch n := fun n => State.swch_congr (kept.sw rfl)
    have die := State.dieAnswers_congr (kept.sw rfl)
    have g := serveSwitchCommand_commands (s := s.accept 0x0315 h p) len l b ((State.ptType_congr (par _ _)).symm ▸ ty)
      ((State.pathLocked_congr (kept.par rfl) (kept.pts rfl)).trans free) (by rw [at']; exact held)
    obtain ⟨t, e, a, v, after, -⟩ := taken_serves (T := [.pts, .sw]) tk snd g (.of_keeps (State.command_keeps rfl (Keeps.refl (T := [.pts, .sw])))
      rfl rfl) (State.command_keeps rfl .refl)
    have sw := after.after.sw rfl
    refine ⟨t, e, a, fun on clear => ?_, fun on held => ?_, fun off => ?_, fun n ne => ?_, v⟩
    · rw [State.swch_congr sw]
      exact State.command_takes ((State.accept_sound snd).switches.symm ▸ l) (die.trans on)
        (by rw [at']; exact clear) fun b => by rw [at']; exact (held (by simpa using b)).2
    · rw [State.swch_congr sw, State.command_held (by rw [at']; exact held), at']
    · rw [State.swch_congr sw, sw, ← at']
      exact State.command_waits (die.trans off)
    · rw [State.swch_congr sw, State.command_other ne, at']
  case status =>
    exact taken_parts_reads tk snd (if_neg (by decide)) packParts_ne_nil
  case reset =>
    subst named
    have kept : Keeps [.host] s (s.accept 0x0317 h p) := State.accept_keeps
    have at' : ∀ n, (s.accept 0x0317 h p).swch n = s.swch n := fun n => State.swch_congr (kept.sw rfl)
    have order : (s.accept 0x0317 h p).orderNow = s.orderNow := State.orderNow_congr (kept.sw rfl)
    have g := serveSwitchReset_reloads (s := s.accept 0x0317 h p) len l ((State.ptType_congr (par _ _)).symm ▸ ty)
      (by rw [at']; exact held) (by rw [at']; exact th)
    obtain ⟨t, e, a, v, after, -⟩ := taken_serves (T := [.sw]) tk snd g State.orderDie_calm (State.orderDie_keeps rfl .refl)
    have sw := after.after.sw rfl
    refine ⟨t, e, a, fun now => ?_, fun wait => ?_, fun n ne => ?_, v⟩
    · have same : t.swch (fld p 0 1) = _ := (State.swch_congr sw).trans ((congrArg (fun x : State => x.swch (fld p 0 1))
        (State.orderDie_now (order.trans now))).trans (State.modSwch_same ((State.accept_sound snd).switches.symm ▸ l)))
      rw [at'] at same
      have retries : (s.accept 0x0317 h p).pn (PT_SW_RETRIES_0 + fld p 0 1 % 2) (fld p 0 1 / 2) = s.retriesOf (fld p 0 1) :=
        State.pn_congr (par _ _)
      rw [same, retries]
      exact ⟨rfl, rfl, rfl, rfl⟩
    · rw [State.swch_congr sw, sw, State.orderDie_waits (order.trans wait)]
      exact ⟨at' _, List.mem_append_right _ (List.mem_singleton_self _)⟩
    · rw [State.swch_congr sw]
      cases now : (s.accept 0x0317 h p).orderNow with
      | true =>
        rw [State.orderDie_now now]
        exact (State.modSwch_other (Ne.symm ne)).trans (at' n)
      | false =>
        rw [State.orderDie_waits now]
        exact at' n
  case tripped =>
    have at' : (s.accept 0x0318 h [0, byteOf q]).safIn q = s.safIn q := State.safIn_congr (State.accept_keeps.saf rfl)
    obtain ⟨x, g, w, trip, free⟩ := ackInput_tripped (s := s.accept 0x0318 h [0, byteOf q]) ((State.accept_sound snd).inputs.symm ▸ l)
      (by rw [at']; exact la) (by rw [at']; exact tr) (by rw [at']; exact de) ((State.siRestart_congr (par _ _)).trans re)
    obtain ⟨t, e, a, v, after, -⟩ := taken_serves (T := [.pts, .sw, .saf]) tk snd
      ((serveSafetyAcknowledge_input l ((State.siMode_congr (par _ _)).symm ▸ m)).trans g) w.calm w.keeps
    refine ⟨t, e, a, ?_, fun n => ?_, v⟩
    · rw [State.safIn_congr (after.after.saf rfl)]
      exact trip
    · rw [State.swch_congr (after.after.sw rfl)]
      exact free n
  case cycled =>
    have at' : (s.accept 0x0318 h [0, byteOf q]).safIn q = s.safIn q := State.safIn_congr (State.accept_keeps.saf rfl)
    obtain ⟨x, g, w, latched⟩ := ackInput_cycled (s := s.accept 0x0318 h [0, byteOf q]) ((State.accept_sound snd).inputs.symm ▸ l)
      ((State.siMode_congr (par _ _)).symm ▸ m) (by rw [at']; exact la) (by rw [at']; exact cy)
      ((State.demandA_congr (par _ _) (by rw [at'])).trans a) ((State.demandB_congr (par _ _) (by rw [at'])).trans b)
    obtain ⟨t, e, a, v, after, -⟩ := taken_serves (T := [.pts, .sw, .saf]) tk snd
      ((serveSafetyAcknowledge_input l ((State.siMode_congr (par _ _)).symm ▸ m)).trans g) w.calm w.keeps
    refine ⟨t, e, a, ?_, v⟩
    rw [State.safIn_congr (after.after.saf rfl)]
    exact latched
  case entry =>
    have l := isConsumer_lt c
    have pn : (s.accept 0x0318 h [1, byteOf q]).pn (ND_SC_TIME_0 + q) = s.pn (ND_SC_TIME_0 + q) := State.pn_congr (par _ _)
    have at' : (s.accept 0x0318 h [1, byteOf q]).scEntry q = s.scEntry q := State.scEntry_congr (State.accept_keeps.saf rfl)
    obtain ⟨x, g, w, state⟩ := ackEntry_runs (s := s.accept 0x0318 h [1, byteOf q]) ((State.accept_sound snd).entries.symm ▸ l)
      (by rw [at']; exact st) (by rw [at', pn]; exact good) (by rw [at', pn]; exact last)
    have consumer : (s.accept 0x0318 h [1, byteOf q]).isConsumer q = true := by
      unfold State.isConsumer State.scConf at *
      rw [State.pn_congr (par _ _)]
      exact c
    obtain ⟨t, e, a, v, after, -⟩ := taken_serves (T := [.pts, .sw, .saf]) tk snd ((serveSafetyAcknowledge_entry l consumer).trans g)
      w.calm w.keeps
    refine ⟨t, e, a, ?_, v⟩
    rw [State.scEntry_congr (after.after.saf rfl)]
    exact state
  case safety =>
    obtain ⟨b, g, len, first⟩ := serveSafetyStatus_body (s := s.accept 0x0319 h []) snd.entries
    obtain ⟨t, e, a, ro⟩ := taken_reads tk snd g
    exact ⟨t, b, e, a, first, len, ro⟩
end

section
/-!
The point and channel commands (20 Table 20.4; 07 R175–R181; 04 R116).
-/

namespace Sys2Proof.Machine

/-! ### What a request finds -/

/-- Writing a request changes the host space alone, so what is read of the other parts stays as it was. -/
theorem State.accept_eq {s : State} {code : Nat} {h : Hdr} {p : Bytes} :
    s.accept code h p = { s with host := (s.accept code h p).host } := rfl

theorem State.accept_host {s : State} {code : Nat} {h : Hdr} {p : Bytes} :
    ∃ H : HostPort, H.streams = s.host.streams ∧ s.accept code h p = { s with host := H } :=
  ⟨_, by rw [State.accept_space], State.accept_eq⟩

theorem onPoint_eq {f : Nat → State → Ans} {p : Bytes} {s : State} (len : p.length = 1) (l : fld p 0 1 < 16) :
    onPoint f p s = f (fld p 0 1) s := (if_neg (not_not_intro len)).trans (if_neg (by omega))

/-- The entries of a point's quantities by its type (R480). -/
def State.pointEntries (s : State) (q : Nat) : List Bytes :=
  if isElec (s.ptType q) then s.elecEntries q else if isFluid (s.ptType q) then s.fluidEntries q else []

theorem State.pointEntries_host {s : State} {H : HostPort} {q : Nat} : ({ s with host := H } : State).pointEntries q = s.pointEntries q := rfl

theorem State.accept_pointEntries {s : State} {code q : Nat} {h : Hdr} {p : Bytes} :
    (s.accept code h p).pointEntries q = s.pointEntries q :=
  (congrArg (fun x : State => x.pointEntries q) State.accept_eq).trans State.pointEntries_host

theorem servePointQuantities_parts {p : Bytes} {s : State} (len : p.length = 1) (l : fld p 0 1 < 16) :
    servePointQuantities p s = okParts s (packParts (s.pointEntries (fld p 0 1)) [] []) := onPoint_eq len l

/-- What point-status begins with (20 Table 20.4). -/
def State.pointHead (s : State) (q : Nat) : Bytes :=
  [byteOf (s.ptType q), byteOf (b2n (s.pt q).outService), byteOf (sesCode (s.sesOf q).state), byteOf s.regime] ++
    le 4 (s.pt q).seqNext ++ le 4 (ackedField (s.pt q).acked)

theorem State.pointHead_host {s : State} {H : HostPort} {q : Nat} : ({ s with host := H } : State).pointHead q = s.pointHead q := rfl

theorem length_le {k n : Nat} : (le k n).length = k := by
  induction k generalizing n with
  | zero => rfl
  | succ k ih => rw [le, List.length_cons, ih]

theorem servePointStatus_body {p : Bytes} {s : State} (len : p.length = 1) (l : fld p 0 1 < 16) :
    ∃ b, servePointStatus p s = okB s b ∧ b.take 12 = s.pointHead (fld p 0 1) ∧ b.length = 48 := by
  have head : (s.pointHead (fld p 0 1)).length = 12 := by simp only [State.pointHead, List.length_append, length_le, List.length_cons,
    List.length_nil]
  refine ⟨_, onPoint_eq len l, ?_, ?_⟩
  · simp only [List.append_assoc]
    rw [← List.append_assoc, ← List.append_assoc]
    exact List.take_left' head
  · simp only [List.length_append, length_le, List.length_cons, List.length_nil]

theorem isFluid_not_elec {ty : Nat} (h : isFluid ty = true) : isElec ty = false := by
  unfold isFluid isElec at *
  simp only [Bool.or_eq_true, Bool.and_eq_true, decide_eq_true_eq, beq_iff_eq] at h
  simp only [Bool.or_eq_false_iff, Bool.and_eq_false_iff, decide_eq_false_iff_not, beq_eq_false_iff_ne]
  omega

theorem servePointHarmonics_parts {p : Bytes} {s : State} (len : p.length = 3) (l : fld p 0 1 < 16) (k : fld p 1 1 < 8)
    (w : fld p 2 1 < 2) (on : s.pqOn (fld p 0 1) = true) (role : (s.winRoles (fld p 0 1)).contains (fld p 1 1) = true) :
    ∃ es head, servePointHarmonics p s = okParts s (packParts es head []) := by
  unfold servePointHarmonics
  dsimp only
  rw [if_neg (not_not_intro len), if_neg (by omega), if_neg (by omega), if_neg (by rw [on, role]; decide)]
  exact ⟨_, _, rfl⟩

theorem servePointSupraharmonics_parts {p : Bytes} {s : State} (len : p.length = 2) (l : fld p 0 1 < 16) (k : fld p 1 1 < 8)
    (slot : (s.wideSlots (fld p 0 1)).contains (fld p 1 1) = true) :
    (let b := (s.pt (fld p 0 1)).pq.blockRes.getD (fld p 1 1) (0, 0, [])
     servePointSupraharmonics p s = okParts s (packParts ((List.range 75).map (fun m => le 4 (min (b.2.2.getD m (0, 0)).1 (2 ^ 32 - 1)) ++
        le 4 (min (b.2.2.getD m (0, 0)).2 (2 ^ 32 - 1)))) (le 8 b.1 ++ le 2 b.2.1) [])) := by
  unfold servePointSupraharmonics
  dsimp only
  rw [if_neg (not_not_intro len), if_neg (by omega), if_neg (by rw [slot]; decide)]

theorem serveCourseRestore_queues {p : Bytes} {s : State} (len : p.length = 1) (l : fld p 0 1 < 64) (ty : s.ptType (fld p 0 1 / 4) ≠ 0)
    (m : s.eng.mode = 1) (st : (s.course (fld p 0 1)).state = .single) :
    serveCourseRestore p s = okS (s.modEng (fun e => { e with
      restores := if e.restores.contains (fld p 0 1) then e.restores else e.restores ++ [fld p 0 1] })) :=
  (if_neg (not_not_intro len)).trans ((if_neg (by omega)).trans ((if_neg ty).trans (if_pos ⟨m, st⟩)))

/-! ### A capture and its stream -/

/-- Of a capture's work: the engine and the capture stream, to which words are only added. -/
structure CaptureWork (s x : State) : Prop where
  calm : Calm s x
  keeps : Keeps [.clk, .host, .eng] s x
  count : s.host.streams.length = 4 → x.host.streams.length = 4
  added : (s.stream 2).words <+: (x.stream 2).words

theorem CaptureWork.refl {s : State} : CaptureWork s s := ⟨.refl, .refl, id, List.prefix_rfl⟩

theorem CaptureWork.trans {s x y : State} (h : CaptureWork s x) (g : CaptureWork x y) : CaptureWork s y :=
  ⟨h.calm.trans g.calm, g.keeps.then (within_refl _) h.keeps, fun n => g.count (h.count n), h.added.trans g.added⟩

theorem CaptureWork.ite {s x y : State} {c : Prop} [Decidable c] (h : CaptureWork s x) (g : CaptureWork s y) :
    CaptureWork s (if c then x else y) := by
  split <;> assumption

theorem State.modEng_work {s : State} {f : Engine → Engine} : CaptureWork s (s.modEng f) :=
  ⟨⟨rfl, rfl⟩, State.modEng_keeps rfl .refl, id, List.prefix_rfl⟩

theorem State.modStream_work {s : State} {f : Fifo → Fifo} (w : ∀ x : Fifo, x.words <+: (f x).words) : CaptureWork s (s.modStream 2 f) :=
  ⟨State.modStream_calm, State.modStream_keeps rfl .refl, fun n => sized_upd n,
    getD_upd (fun x : Fifo => (s.stream 2).words <+: x.words) List.prefix_rfl fun _ h => h.trans (w _)⟩

theorem State.raise_work {s : State} {ev sub : Nat} {b : Bytes} : CaptureWork s (s.raise ev sub b) :=
  ⟨State.raise_calm, State.raise_keeps rfl .refl, id, List.prefix_rfl⟩

/-- Marks on the capture stream add no word and take none. -/
theorem State.markStream_work {s : State} {f : Fifo → Fifo} (w : ∀ x : Fifo, (f x).words = x.words) : CaptureWork s (s.modStream 2 f) :=
  State.modStream_work fun x => (w x).symm ▸ List.prefix_rfl

theorem State.streamReport_work {s : State} {c : Nat} : CaptureWork s (s.streamReport 2 c) := by
  have marked : ∀ v, CaptureWork s (s.modStream 2 (fun f => { f with units := 0, evFrame := v })) := fun v =>
    State.markStream_work fun _ => rfl
  exact (marked _).trans State.raise_work

theorem State.unitDone_work {s : State} : CaptureWork s (s.unitDone 2) := by
  have counted : CaptureWork s (s.modStream 2 (fun f => { f with units := inc32 f.units })) := State.markStream_work fun _ => rfl
  unfold State.unitDone
  exact counted.trans (.ite .refl State.streamReport_work)

theorem State.wordLost_work {s : State} : CaptureWork s (s.wordLost 2) := by
  have overrun : CaptureWork s (s.modStream 2 (fun f => { f with overrun := true })) := State.markStream_work fun _ => rfl
  have noted : ∀ (x : State) v, CaptureWork x (x.modStream 2 (fun f => { f with ovFrame := v })) := fun _ _ =>
    State.markStream_work fun _ => rfl
  unfold State.wordLost
  exact overrun.trans (.ite .refl ((noted _ _).trans State.raise_work))

/-- Words pushed stand after those that a FIFO holds. -/
theorem fifoPushes_words {a t : Nat} {ws : List Nat} {f : Fifo} :
    (ws.foldl (fun f w => fifoPush a t w false f) f).words = f.words ++ ws.map (fun w => (w % 2 ^ 32, false, false)) := by
  induction ws generalizing f with
  | nil => exact (List.append_nil _).symm
  | cons w ws ih =>
    rw [List.foldl_cons, ih, List.map_cons]
    exact List.append_assoc ..

theorem State.capPush_words {s : State} {ws : List Nat} (n : s.host.streams.length = 4) :
    ((s.capPush ws).stream 2).words = (s.stream 2).words ++ ws.map (fun w => (w % 2 ^ 32, false, false)) := by
  unfold State.capPush
  rw [State.modStream_same (by omega), fifoPushes_words]

theorem State.capPush_work {s : State} {ws : List Nat} : CaptureWork s (s.capPush ws) :=
  State.modStream_work fun _ => fifoPushes_words ▸ List.prefix_append _ _

theorem State.capTrailer_work {s : State} {c : Capture} {b : Bool} : CaptureWork s (s.capTrailer c b) :=
  State.modEng_work.trans ((State.modStream_work fun _ => List.prefix_append _ _).trans State.unitDone_work)

theorem State.capFrame_work {s : State} {b : Nat × List (List Int)} : CaptureWork s (s.capFrame b) := by
  unfold State.capFrame
  split
  · dsimp only
    split
    · exact .ite State.capTrailer_work (State.modEng_work.trans State.wordLost_work)
    · exact (State.capPush_work.trans State.modEng_work).trans (.ite State.capTrailer_work .refl)
  · exact .refl

theorem CaptureWork.frames {s x : State} {l : List (Nat × List (List Int))} (h : CaptureWork s x) :
    CaptureWork s (l.foldl (fun s b => s.capFrame b) x) := by
  induction l generalizing x with
  | nil => exact h
  | cons b l ih => exact ih (h.trans State.capFrame_work)

/-- The slots whose samples a capture at a point takes (R181). -/
def State.capSlots (s : State) (q : Nat) : Nat :=
  mapOf 8 ((bitsOf 8 (s.pn PT_CAP_SLOTS q)).filter (fun k => s.pn CH_FILTER (8 * q + k) == 1))

/-- A capture that begins: its header, then the frames kept from before its trigger. -/
theorem State.capTrigger_begins {s : State} {q cause n : Nat} (free : s.eng.capture = none) (room : 5 ≤ s.streamRoom 2) :
    (let old := ((s.pt q).pq.pre.take (s.pn PT_CAP_PRE q)).reverse
     s.capTrigger q cause n = old.foldl (fun s b => s.capFrame b) ((s.modEng (fun e => { e with
      capture := some ⟨q, s.pn PT_CAP_POST q + old.length, 0, 4, s.capSlots q, 0⟩ })).capPush
        (capHeader q (s.capSlots q) cause (n - old.length) old.length (if s.eng.mode = 3 then 2 else 8)))) := by
  have can : ¬s.canCapture = false := by
    unfold State.canCapture
    rw [free, decide_eq_true room]
    decide
  unfold State.capTrigger
  rw [free]
  exact if_neg can

theorem State.capTrigger_full {s : State} {q cause n : Nat} (free : s.eng.capture = none) (room : s.streamRoom 2 < 5) :
    s.capTrigger q cause n = s := by
  have can : s.canCapture = false := by
    unfold State.canCapture
    rw [decide_eq_false (by omega)]
    exact Bool.and_false _
  unfold State.capTrigger
  rw [free]
  exact if_pos can

theorem State.capTrigger_work {s : State} {q cause n : Nat} (free : s.eng.capture = none) : CaptureWork s (s.capTrigger q cause n) := by
  by_cases room : 5 ≤ s.streamRoom 2
  · rw [State.capTrigger_begins free room]
    exact (State.modEng_work.trans State.capPush_work).frames
  · rw [State.capTrigger_full free (by omega)]
    exact .refl

/-- The header is the first that a capture writes to its stream (R181, Table 7.5). -/
theorem State.capTrigger_header {s : State} {q cause n : Nat} (count : s.host.streams.length = 4) (free : s.eng.capture = none)
    (room : 5 ≤ s.streamRoom 2) :
    (let pre := (s.pt q).pq.pre.take (s.pn PT_CAP_PRE q)
     (((s.capTrigger q cause n).stream 2).words.drop (s.stream 2).words.length).take 4 =
      (capHeader q (s.capSlots q) cause (n - pre.length) pre.length (if s.eng.mode = 3 then 2 else 8)).map
        (fun w => (w % 2 ^ 32, false, false))) := by
  dsimp only
  rw [State.capTrigger_begins free room, List.length_reverse]
  have first := State.capPush_words (s := s.modEng (fun e => { e with
    capture := some ⟨q, s.pn PT_CAP_POST q + ((s.pt q).pq.pre.take (s.pn PT_CAP_PRE q)).length, 0, 4, s.capSlots q, 0⟩ }))
    (ws := capHeader q (s.capSlots q) cause (n - ((s.pt q).pq.pre.take (s.pn PT_CAP_PRE q)).length)
      ((s.pt q).pq.pre.take (s.pn PT_CAP_PRE q)).length (if s.eng.mode = 3 then 2 else 8)) count
  obtain ⟨rest, e⟩ := (CaptureWork.frames (l := ((s.pt q).pq.pre.take (s.pn PT_CAP_PRE q)).reverse) (x := (s.modEng _).capPush _) .refl).added
  rw [← e, first, List.append_assoc]
  exact (congrArg (List.take 4) List.drop_left).trans rfl

/-- With no frame kept from before, the capture runs for the frames after its trigger (R181). -/
theorem State.capTrigger_alone {s : State} {q cause n : Nat} (free : s.eng.capture = none) (room : 5 ≤ s.streamRoom 2)
    (none' : (s.pt q).pq.pre.take (s.pn PT_CAP_PRE q) = []) :
    (s.capTrigger q cause n).eng = { s.eng with capture := some ⟨q, s.pn PT_CAP_POST q, 0, 4, s.capSlots q, 0⟩ } := by
  rw [State.capTrigger_begins free room, none']
  rfl

theorem serveCapture_triggers {p : Bytes} {s : State} (len : p.length = 1) (l : fld p 0 1 < 16) (ty : s.ptType (fld p 0 1) ≠ 0)
    (free : s.eng.capture = none) : serveCapture p s = okS (s.capTrigger (fld p 0 1) 0 s.frm) :=
  (onPoint_eq len l).trans ((if_neg ty).trans (if_neg (by rw [free]; exact Bool.false_ne_true)))

end Sys2Proof.Machine

open Sys2Proof Sys2Proof.Machine

/-- Settles O6: the answers by their entries, the capture's words by `CaptureWork`. -/
theorem pointCommandsAnswer : Obligations.PointCommandsAnswer := by
  intro s h p q snd named
  subst named
  refine ⟨fun tk len l => ?quantities, fun tk len l k w on role => ?harmonics, fun tk len l k slot => ?supra, fun tk len l => ?registers,
    fun tk len l => ?status, fun tk len l => ?channel, fun tk len l ty m st => ?course, fun tk len l ty free => ?capture⟩
  case quantities =>
    have g := servePointQuantities_parts (s := s.accept 0x030A h p) len l
    rw [State.accept_pointEntries] at g
    obtain ⟨t, e, a, ro⟩ := taken_parts_reads tk snd g packParts_ne_nil
    refine ⟨t, _, e, a, fun el => ?_, fun fl => ?_, ro⟩
    · rw [State.pointEntries, if_pos el]
    · rw [State.pointEntries, if_neg (by rw [isFluid_not_elec fl]; exact Bool.false_ne_true), if_pos fl]
  case harmonics =>
    obtain ⟨es, head, g⟩ := servePointHarmonics_parts (s := s.accept 0x030B h p) len l k w on role
    obtain ⟨t, e, a, ro⟩ := taken_parts_reads tk snd g packParts_ne_nil
    exact ⟨t, _, e, a, ro⟩
  case supra =>
    obtain ⟨t, e, a, ro⟩ := taken_parts_reads tk snd (servePointSupraharmonics_parts (s := s.accept 0x030C h p) len l k slot) packParts_ne_nil
    exact ⟨t, _, e, a, fun b eq => by rw [eq]; rfl, ro⟩
  case registers =>
    exact taken_parts_reads tk snd (onPoint_eq len l) (by simp)
  case status =>
    obtain ⟨b, g, first, size⟩ := servePointStatus_body (s := s.accept 0x030E h p) len l
    obtain ⟨t, e, a, ro⟩ := taken_reads tk snd g
    exact ⟨t, b, e, a, first.trans ((congrArg (fun x : State => x.pointHead (fld p 0 1)) State.accept_eq).trans State.pointHead_host), size, ro⟩
  case channel =>
    obtain ⟨t, e, a, ro⟩ := taken_reads tk snd (serveChannelStatus_body (s := s.accept 0x030F h p) len l)
    exact ⟨t, _, e, a, rfl, ro⟩
  case course =>
    obtain ⟨t, e, a, v, after, -⟩ := taken_serves (T := [.eng]) tk snd (serveCourseRestore_queues (s := s.accept 0x0310 h p) len l ty m st)
      ⟨rfl, rfl⟩ (State.modEng_keeps rfl .refl)
    have eng : t.eng = { s.eng with
      restores := if s.eng.restores.contains (fld p 0 1) then s.eng.restores else s.eng.restores ++ [fld p 0 1] } := after.after.eng rfl
    refine ⟨t, e, a, ?_, fun j m => ?_, ?_, v⟩
    · rw [eng]
      dsimp only
      split
      · next c => exact List.contains_iff_mem.mp c
      · exact List.mem_append_right _ (List.mem_singleton_self _)
    · rw [eng]
      dsimp only
      split
      · exact m
      · exact List.mem_append_left _ m
    · rw [eng]
  case capture =>
    intro pre slots
    have g := serveCapture_triggers (s := s.accept 0x0311 h p) len l ty free
    have w : CaptureWork (s.accept 0x0311 h p) ((s.accept 0x0311 h p).capTrigger (fld p 0 1) 0 (s.accept 0x0311 h p).frm) :=
      State.capTrigger_work free
    obtain ⟨t, e, a, v, after, -⟩ := taken_serves (T := [.eng]) tk snd g w.calm w.keeps
    have stream : t.stream 2 = ((s.accept 0x0311 h p).capTrigger (fld p 0 1) 0 (s.accept 0x0311 h p).frm).stream 2 :=
      congrArg (fun l : List Fifo => l.getD 2 Fifo.reset) after.streams
    have eng := after.after.eng rfl
    obtain ⟨H, streams, acc⟩ := State.accept_host (s := s) (code := 0x0311) (h := h) (p := p)
    rw [acc] at stream eng
    have same : ({ s with host := H } : State).stream 2 = s.stream 2 := congrArg (fun l : List Fifo => l.getD 2 Fifo.reset) streams
    have size : ({ s with host := H } : State).streamRoom 2 = s.streamRoom 2 := by
      unfold State.streamRoom
      rw [same]
    refine ⟨t, e, a, v, fun room => ?_, fun room none' => ?_, fun full => ?_⟩
    · rw [stream, ← same]
      exact State.capTrigger_header (s := { s with host := H }) (streams.symm ▸ snd.host.fifos) free (size.symm ▸ room)
    · rw [eng]
      exact State.capTrigger_alone (s := { s with host := H }) free (size.symm ▸ room) none'
    · rw [stream, eng, State.capTrigger_full (s := { s with host := H }) free (size.symm ▸ full)]
      exact ⟨rfl, congrArg Fifo.words same⟩
end

section
/-!
The keys and the commands on them (18 R425–R441, 20 Table 20.5).
-/

namespace Sys2Proof.Machine

/-! ### Which key a class and a point name -/

/-- The key that a class and a point name: the node's, a point's, or the TLS key of a port (18 Table 18.2). -/
def keySlot (cls p : Nat) : Nat × Nat := if cls = 1 then (1, 0) else if cls = 2 then (2, p) else (4, p)

/-- A class and a point that name one of the keys kept. -/
def KeyAt (cls p : Nat) : Prop := cls = 1 ∨ p < 16

theorem KeyAt.of_named {c p : Nat} (h : keyNamed false c p = 0) : KeyAt c p := by
  unfold keyNamed at h
  split at h
  · exact .inl ‹_›
  · split at h
    · split at h
      · exact .inr ‹_›
      · cases h
    · cases h

/-- A change of a key is seen by the classes and points that name it, and by no other. -/
theorem State.modKey_keyState {s : State} {c p c' p' : Nat} {f : KeyState → KeyState} (a : KeyAt c p) (np : s.keys.pts.length = 16)
    (nt : s.keys.tls.length = 16) :
    (s.modKey c p f).keyState c' p' = if keySlot c' p' = keySlot c p then f (s.keyState c' p') else s.keyState c' p' := by
  have listed : ∀ l : List KeyState, l.length = 16 → p < 16 →
      (upd l p f).getD p' KeyState.reset = if p' = p then f (l.getD p' KeyState.reset) else l.getD p' KeyState.reset := by
    intro l n lp
    by_cases e : p' = p
    · rw [if_pos e, e, getD_upd_eq (by omega)]
    · rw [if_neg e, getD_upd_ne (Ne.symm e)]
  unfold State.modKey State.keyState State.modKeys keySlot
  by_cases one : c = 1
  · by_cases one' : c' = 1
    · simp [one, one']
    · by_cases two' : c' = 2 <;> simp [one, one', two']
  · have lp : p < 16 := a.resolve_left one
    by_cases two : c = 2
    · by_cases one' : c' = 1
      · simp [two, one']
      · by_cases two' : c' = 2
        · simpa [two, two'] using listed _ np lp
        · simp [two, one', two']
    · by_cases one' : c' = 1
      · simp [one, two, one']
      · by_cases two' : c' = 2
        · simp [one, two, two']
        · simpa [one, two, one', two'] using listed _ nt lp

theorem State.keyState_slot {s : State} {c p c' p' : Nat} (h : keySlot c p = keySlot c' p') : s.keyState c p = s.keyState c' p' := by
  have by' : ∀ c p, s.keyState c p = if (keySlot c p).1 = 1 then s.keys.node else if (keySlot c p).1 = 2 then
      s.keys.pts.getD (keySlot c p).2 KeyState.reset else s.keys.tls.getD (keySlot c p).2 KeyState.reset := by
    intro c p
    unfold State.keyState keySlot
    split
    · rfl
    · split <;> rfl
  rw [by', by' c', h]

theorem State.keyState_congr {s t : State} {c p : Nat} (h : t.keys = s.keys) : t.keyState c p = s.keyState c p := by
  unfold State.keyState
  rw [h]

/-! ### How many keys are usable -/

/-- The keys not invalidated. -/
def State.usableKeys (s : State) : Nat :=
  b2n (!s.keys.node.invalid) + s.keys.pts.countP (fun k => !k.invalid) + s.keys.tls.countP (fun k => !k.invalid)

theorem State.usableKeys_congr {s t : State} (h : t.keys = s.keys) : t.usableKeys = s.usableKeys := by
  unfold State.usableKeys
  rw [h]

/-- A usable entry of a list that is made unusable is one usable entry less. -/
theorem countP_modify_usable {l : List KeyState} {i : Nat} {f : KeyState → KeyState} (h : i < l.length)
    (u : (l.getD i KeyState.reset).invalid = false) (v : ∀ k, (f k).invalid = true) :
    (l.modify i f).countP (fun k => !k.invalid) + 1 = l.countP (fun k => !k.invalid) := by
  induction l generalizing i with
  | nil => exact absurd h (Nat.not_lt_zero i)
  | cons k l ih =>
    cases i with
    | zero =>
      have uk : k.invalid = false := u
      rw [List.modify_zero_cons, List.countP_cons_of_neg (by simp [v]), List.countP_cons_of_pos (by simp [uk])]
    | succ i =>
      have step := ih (i := i) (Nat.lt_of_succ_lt_succ h) u
      rw [List.modify_succ_cons, List.countP_cons, List.countP_cons]
      omega

theorem State.modKey_usable {s : State} {c p : Nat} {f : KeyState → KeyState} (a : KeyAt c p) (np : s.keys.pts.length = 16)
    (nt : s.keys.tls.length = 16) (u : (s.keyState c p).invalid = false) (v : ∀ k, (f k).invalid = true) :
    (s.modKey c p f).usableKeys + 1 = s.usableKeys := by
  unfold State.keyState at u
  unfold State.usableKeys State.modKey State.modKeys
  dsimp only
  by_cases one : c = 1
  · rw [if_pos one] at u
    simp only [if_pos one, v, u]
    simp only [b2n, Bool.not_true, Bool.not_false, if_true, Bool.false_eq_true, if_false]
    omega
  · have lp : p < 16 := a.resolve_left one
    rw [if_neg one] at u
    by_cases two : c = 2
    · rw [if_pos two] at u
      have n := countP_modify_usable (f := f) (by omega) u v
      simp only [if_neg one, if_pos two, upd]
      omega
    · rw [if_neg two] at u
      have n := countP_modify_usable (f := f) (by omega) u v
      simp only [if_neg one, if_neg two, upd]
      omega

theorem State.usableKeys_le {s : State} (np : s.keys.pts.length = 16) (nt : s.keys.tls.length = 16) : s.usableKeys ≤ 33 := by
  have node : b2n (!s.keys.node.invalid) ≤ 1 := by
    unfold b2n
    split <;> decide
  have pts := List.countP_le_length (p := fun k : KeyState => !k.invalid) (l := s.keys.pts)
  have tls := List.countP_le_length (p := fun k : KeyState => !k.invalid) (l := s.keys.tls)
  unfold State.usableKeys
  omega

/-! ### An invalidation -/

/-- Of work on keys: it is calm, no invalidated key becomes usable, and the log grows by no more than the keys that were usable. -/
structure KeyWork (s x : State) : Prop where
  calm : Calm s x
  keeps : Keeps [.clk, .host, .pts, .log, .keys] s x
  pts : s.keys.pts.length = 16 → x.keys.pts.length = 16
  tls : s.keys.tls.length = 16 → x.keys.tls.length = 16
  stays : ∀ c p, (s.keyState c p).invalid = true → x.keyState c p = s.keyState c p
  room : x.log.next + x.usableKeys ≤ s.log.next + s.usableKeys

theorem KeyWork.refl {s : State} : KeyWork s s := ⟨.refl, .refl, id, id, fun _ _ _ => rfl, le_rfl⟩

theorem KeyWork.trans {s x y : State} (h : KeyWork s x) (g : KeyWork x y) : KeyWork s y :=
  ⟨h.calm.trans g.calm, g.keeps.then rfl h.keeps, fun n => g.pts (h.pts n), fun n => g.tls (h.tls n),
    fun c p v => (g.stays c p ((h.stays c p v).symm ▸ v)).trans (h.stays c p v), g.room.trans h.room⟩

/-- Work that leaves keys and log. -/
theorem KeyWork.of_keeps {s x : State} (c : Calm s x) (k : Keeps [.host, .pts] s x) : KeyWork s x :=
  have keys := k.keys rfl
  ⟨c, k.mono rfl, fun n => keys ▸ n, fun n => keys ▸ n, fun _ _ _ => State.keyState_congr keys,
    le_of_eq (by rw [k.log rfl, State.usableKeys_congr keys])⟩

theorem State.addCause_calm {s : State} {p c : Nat} : Calm s (s.addCause p c) :=
  .of_keeps (State.addCause_keeps rfl (Keeps.refl (T := [.pts]))) rfl rfl

theorem State.backToIdle_calm {s : State} {p c : Nat} : Calm s (s.backToIdle p c) := by
  have cleared : ∀ (x : State) f, Calm x (x.modSes p f) := fun _ _ => ⟨rfl, rfl⟩
  exact State.enterState_quiet.calm.trans (cleared _ _)

theorem State.revokeParent_work {s : State} {p : Nat} : KeyWork s (s.revokeParent p) := by
  refine .of_keeps ?_ (State.revokeParent_keeps rfl .refl)
  unfold State.revokeParent
  split
  · exact Calm.trans (x := s.modSes p _) ⟨rfl, rfl⟩ State.addCause_calm
  · exact Calm.trans (x := s.modSes p _) ⟨rfl, rfl⟩ State.addCause_calm
  · exact State.backToIdle_calm
  · exact .refl

/-- What an invalidation of a usable key is: the key marked from the running frame, one log entry, and its report. -/
def State.markInvalid (s : State) (c p : Nat) : State := s.modKey c p (fun k => { k with invalid := true, since := s.frm })

theorem State.invalidateOne_done {s : State} {c p cause src tag : Nat} {l : List Nat} (v : (s.keyState c p).invalid = true) :
    s.invalidateOne c p cause src tag l = s := if_pos v

/-- The invalidation of a usable key. -/
structure Invalidated (s x : State) (c p : Nat) : Prop where
  calm : Calm s x
  keeps : Keeps [.clk, .host, .pts, .log, .keys] s x
  keys : x.keys = (s.markInvalid c p).keys
  logged : x.log.next = s.log.next + 1
  idle : (c = 2 → (s.sesOf p).state = .idle) → x.pts = s.pts

/-- What leaves the points changes the parts listed besides them alone. -/
theorem Keeps.points_stay {s t : State} (k : Keeps [.clk, .host, .pts, .log, .keys] s t) (e : t.pts = s.pts) :
    Keeps [.clk, .host, .log, .keys] s t := { k with pts := fun _ => e }

theorem State.revokeParent_idle {s : State} {p : Nat} (i : (s.sesOf p).state = .idle) : s.revokeParent p = s := by
  unfold State.revokeParent
  rw [i]

theorem Invalidated.revoked {s y : State} {c p : Nat} (h : Invalidated s y c p) (two : c = 2) :
    Invalidated s (y.revokeParent p) c p := by
  have w : KeyWork y (y.revokeParent p) := State.revokeParent_work
  have kept : Keeps [.host, .pts] y (y.revokeParent p) := State.revokeParent_keeps rfl .refl
  refine ⟨h.calm.trans w.calm, w.keeps.then rfl h.keeps, (kept.keys rfl).trans h.keys, ?_, fun i => ?_⟩
  · rw [kept.log rfl]
    exact h.logged
  · have pts := h.idle i
    have idle : (y.sesOf p).state = .idle := by
      unfold State.sesOf
      rw [State.pt_congr pts]
      exact i two
    rw [State.revokeParent_idle idle, pts]

theorem State.invalidateOne_usable {s : State} {c p cause src tag : Nat} {l : List Nat} (u : (s.keyState c p).invalid = false) :
    Invalidated s (s.invalidateOne c p cause src tag l) c p := by
  have entered : ∀ a b d i n g ss,
      Invalidated s (((s.markInvalid c p).enter 8 0 0 src tag a b s.frm ss).keyEvent c p 0 d i n g) c p := by
    intro a b d i n g ss
    have marked : Calm s (s.markInvalid c p) := ⟨rfl, rfl⟩
    have kept : Keeps [.host, .log] (s.markInvalid c p) ((s.markInvalid c p).enter 8 0 0 src tag a b s.frm ss) := State.enter_keeps rfl .refl
    exact ⟨marked.trans (State.enter_calm.trans State.raise_calm),
      State.keyEvent_keeps rfl (State.enter_keeps rfl (State.modKey_keeps rfl .refl)), kept.keys rfl, State.enter_next, fun _ => kept.pts rfl⟩
  unfold State.invalidateOne
  dsimp only
  rw [if_neg (by rw [u]; exact Bool.false_ne_true)]
  split
  · exact (entered ..).revoked ‹_›
  · exact entered ..

/-- The work of an invalidation, whether the key was usable or not. -/
theorem State.invalidateOne_work {s : State} {c p cause src tag : Nat} {l : List Nat} (a : KeyAt c p) (np : s.keys.pts.length = 16)
    (nt : s.keys.tls.length = 16) : KeyWork s (s.invalidateOne c p cause src tag l) ∧
      ((s.invalidateOne c p cause src tag l).keyState c p).invalid = true := by
  cases u : (s.keyState c p).invalid with
  | true =>
    rw [State.invalidateOne_done u]
    exact ⟨.refl, u⟩
  | false =>
    have d := State.invalidateOne_usable (cause := cause) (src := src) (tag := tag) (l := l) u
    have marked := fun c' p' => (State.keyState_congr (c := c') (p := p') d.keys).trans
      (State.modKey_keyState (f := fun k => { k with invalid := true, since := s.frm }) a np nt)
    have fewer := State.modKey_usable (f := fun k => { k with invalid := true, since := s.frm }) a np nt u fun _ => rfl
    refine ⟨⟨d.calm, d.keeps, fun _ => ?_, fun _ => ?_, fun c' p' v => ?_, ?_⟩, ?_⟩
    · rw [d.keys]
      unfold State.markInvalid State.modKey
      change List.length (Keys.pts (if c = 1 then _ else if c = 2 then _ else _)) = 16
      split
      · exact np
      · split
        · exact sized_upd np
        · exact np
    · rw [d.keys]
      unfold State.markInvalid State.modKey
      change List.length (Keys.tls (if c = 1 then _ else if c = 2 then _ else _)) = 16
      split
      · exact nt
      · split
        · exact nt
        · exact sized_upd nt
    · rw [marked, if_neg]
      intro same
      have := State.keyState_slot (s := s) same
      rw [this, u] at v
      cases v
    · rw [d.logged, State.usableKeys_congr d.keys]
      unfold State.markInvalid
      omega
    · rw [marked, if_pos rfl]

/-- An invalidation leaves every key that it does not name. -/
theorem State.invalidateOne_other {s : State} {c p c' p' cause src tag : Nat} {l : List Nat} (a : KeyAt c p)
    (np : s.keys.pts.length = 16) (nt : s.keys.tls.length = 16) (ne : keySlot c' p' ≠ keySlot c p) :
    (s.invalidateOne c p cause src tag l).keyState c' p' = s.keyState c' p' := by
  cases u : (s.keyState c p).invalid with
  | true => rw [State.invalidateOne_done u]
  | false =>
    exact (State.keyState_congr (State.invalidateOne_usable u).keys).trans ((State.modKey_keyState a np nt).trans (if_neg ne))

/-- A usable key invalidated: its generation stays, and it is invalid from the running frame. -/
theorem State.invalidateOne_marks {s : State} {c p cause src tag : Nat} {l : List Nat} (a : KeyAt c p) (np : s.keys.pts.length = 16)
    (nt : s.keys.tls.length = 16) (u : (s.keyState c p).invalid = false) :
    (s.invalidateOne c p cause src tag l).keyState c p = ⟨(s.keyState c p).gen, true, s.frm⟩ :=
  (State.keyState_congr (State.invalidateOne_usable u).keys).trans ((State.modKey_keyState a np nt).trans (if_pos rfl))

/-- What the node key's invalidation takes of a point: its key, its session, and its TLS key where that is bound to it (R430). -/
def State.followNode (src tag q : Nat) (s : State) : State :=
  let x := (s.invalidateOne 2 q 2 src tag [q]).revokeParent q
  if x.pb PT_KEY_TLS_BIND q then x.invalidateOne 4 q 2 src tag [] else x

theorem State.invalidate_node {s : State} {p cause src tag : Nat} (u : s.keys.node.invalid = false) :
    s.invalidate 1 p cause src tag =
      forAll points16 (State.followNode src tag) (s.invalidateOne 1 0 cause src tag points16) :=
  (if_pos rfl).trans (if_neg (by rw [u]; exact Bool.false_ne_true))

/-- The keys kept in full, and the parameters as they were. -/
structure KeysFull (s x : State) : Prop where
  par : x.par = s.par
  pts : x.keys.pts.length = 16
  tls : x.keys.tls.length = 16

theorem KeysFull.worked {s x y : State} (h : KeysFull s x) (w : KeyWork x y) : KeysFull s y :=
  ⟨(w.keeps.par rfl).trans h.par, w.pts h.pts, w.tls h.tls⟩

theorem KeysFull.followed {s x : State} {src tag q : Nat} (h : KeysFull s x) (l : q < 16) : KeyWork x (State.followNode src tag q x) := by
  have point := (State.invalidateOne_work (cause := 2) (src := src) (tag := tag) (l := [q]) (c := 2) (.inr l) h.pts h.tls).1
  have session := point.trans (State.revokeParent_work (p := q))
  have full := h.worked session
  unfold State.followNode
  dsimp only
  split
  · exact session.trans (State.invalidateOne_work (c := 4) (.inr l) full.pts full.tls).1
  · exact session

/-- What one point's work leaves of the other keys. -/
theorem KeysFull.followed_other {s x : State} {src tag q c p : Nat} (h : KeysFull s x) (l : q < 16) (two : keySlot c p ≠ (2, q))
    (four : keySlot c p ≠ (4, q)) : (State.followNode src tag q x).keyState c p = x.keyState c p := by
  have point := (State.invalidateOne_work (cause := 2) (src := src) (tag := tag) (l := [q]) (c := 2) (.inr l) h.pts h.tls).1
  have session := point.trans (State.revokeParent_work (p := q))
  have full := h.worked session
  have base : ((x.invalidateOne 2 q 2 src tag [q]).revokeParent q).keyState c p = x.keyState c p :=
    (State.keyState_congr ((State.revokeParent_keeps rfl (Keeps.refl (T := [.host, .pts]))).keys rfl)).trans
      (State.invalidateOne_other (.inr l) h.pts h.tls two)
  unfold State.followNode
  dsimp only
  split
  · exact (State.invalidateOne_other (c := 4) (.inr l) full.pts full.tls four).trans base
  · exact base

/-- What it takes of the point's own keys. -/
theorem KeysFull.followed_own {s x : State} {src tag q : Nat} (h : KeysFull s x) (l : q < 16) :
    ((State.followNode src tag q x).keyState 2 q).invalid = true ∧
      ((State.followNode src tag q x).keyState 4 q).invalid = ((x.keyState 4 q).invalid || s.pb PT_KEY_TLS_BIND q) := by
  obtain ⟨point, taken⟩ := State.invalidateOne_work (cause := 2) (src := src) (tag := tag) (l := [q]) (c := 2) (.inr l) h.pts h.tls
  have session := point.trans (State.revokeParent_work (p := q))
  have full := h.worked session
  have keys : ∀ c p, ((x.invalidateOne 2 q 2 src tag [q]).revokeParent q).keyState c p = (x.invalidateOne 2 q 2 src tag [q]).keyState c p :=
    fun c p => State.keyState_congr ((State.revokeParent_keeps rfl (Keeps.refl (T := [.host, .pts]))).keys rfl)
  have own : (((x.invalidateOne 2 q 2 src tag [q]).revokeParent q).keyState 2 q).invalid = true := by rw [keys, taken]
  have tls : ((x.invalidateOne 2 q 2 src tag [q]).revokeParent q).keyState 4 q = x.keyState 4 q :=
    (keys 4 q).trans (State.invalidateOne_other (.inr l) h.pts h.tls (by simp [keySlot]))
  unfold State.followNode
  dsimp only
  rw [State.pb_congr full.par]
  cases bound : s.pb PT_KEY_TLS_BIND q with
  | true =>
    obtain ⟨w, taken⟩ := State.invalidateOne_work (cause := 2) (src := src) (tag := tag) (l := []) (c := 4) (.inr l) full.pts full.tls
    rw [if_pos rfl]
    exact ⟨by rw [w.stays 2 q own, own], by rw [taken, Bool.or_true]⟩
  | false =>
    rw [if_neg Bool.false_ne_true, tls, Bool.or_false]
    exact ⟨own, rfl⟩

theorem KeysFull.all {s x : State} {src tag : Nat} {l : List Nat} (h : KeysFull s x) (m : ∀ q ∈ l, q < 16) :
    KeyWork x (forAll l (State.followNode src tag) x) := by
  induction l generalizing x with
  | nil => exact .refl
  | cons q l ih =>
    have w := h.followed (src := src) (tag := tag) (m q List.mem_cons_self)
    exact w.trans (ih (h.worked w) fun r mr => m r (List.mem_cons_of_mem _ mr))

/-- The work of an invalidation with what follows it (R430). -/
theorem State.invalidate_work {s : State} {c p cause src tag : Nat} (a : KeyAt c p) (np : s.keys.pts.length = 16)
    (nt : s.keys.tls.length = 16) : KeyWork s (s.invalidate c p cause src tag) ∧
      ((s.invalidate c p cause src tag).keyState c p).invalid = true := by
  by_cases one : c = 1
  · subst one
    cases u : s.keys.node.invalid with
    | true =>
      have done : s.invalidate 1 p cause src tag = s := (if_pos rfl).trans (if_pos u)
      rw [done]
      exact ⟨.refl, u⟩
    | false =>
      obtain ⟨w, taken⟩ := State.invalidateOne_work (cause := cause) (src := src) (tag := tag) (l := points16) (c := 1) (p := 0) (.inl rfl) np nt
      rw [State.invalidate_node u]
      have loop := KeysFull.all (s := s) (src := src) (tag := tag) (l := points16) ⟨w.keeps.par rfl, w.pts np, w.tls nt⟩ (by decide)
      exact ⟨w.trans loop, by rw [loop.stays 1 p taken]; exact taken⟩
  · have single : s.invalidate c p cause src tag = s.invalidateOne c p cause src tag [p] := if_neg one
    rw [single]
    exact State.invalidateOne_work a np nt

/-- A list of keys invalidated one after another. -/
theorem State.invalidates_work {s : State} {l : List (Nat × Nat)} {src tag : Nat} (a : ∀ x ∈ l, KeyAt x.1 x.2)
    (np : s.keys.pts.length = 16) (nt : s.keys.tls.length = 16) :
    KeyWork s (l.foldl (fun s x => s.invalidate x.1 x.2 0 src tag) s) ∧
      ∀ x ∈ l, ((l.foldl (fun s x => s.invalidate x.1 x.2 0 src tag) s).keyState x.1 x.2).invalid = true := by
  induction l generalizing s with
  | nil => exact ⟨.refl, fun x m => absurd m List.not_mem_nil⟩
  | cons y l ih =>
    obtain ⟨w, taken⟩ := State.invalidate_work (s := s) (cause := 0) (src := src) (tag := tag) (a y List.mem_cons_self) np nt
    obtain ⟨rest, all⟩ := ih (s := s.invalidate y.1 y.2 0 src tag) (fun x m => a x (List.mem_cons_of_mem _ m)) (w.pts np) (w.tls nt)
    refine ⟨w.trans rest, fun x m => ?_⟩
    rcases List.mem_cons.mp m with rfl | m
    · change ((l.foldl (fun s x => s.invalidate x.1 x.2 0 src tag) (s.invalidate x.1 x.2 0 src tag)).keyState x.1 x.2).invalid = true
      rw [rest.stays _ _ taken, taken]
    · exact all x m

/-- What work on listed points comes to for one of them, the work of each being known for the points listed alone. -/
theorem forAll_listed {β : Type} {f : Nat → State → State} {I : State → Prop} {R : State → β} {g : β → β} {p : Nat} {l : List Nat}
    {s : State} (nd : l.Nodup) (hs : I s) (keep : ∀ k ∈ l, ∀ x, I x → I (f k x)) (other : ∀ k ∈ l, ∀ x, I x → k ≠ p → R (f k x) = R x)
    (own : ∀ x, I x → R (f p x) = g (R x)) : R (forAll l f s) = if p ∈ l then g (R s) else R s := by
  induction l generalizing s with
  | nil => rfl
  | cons k l ih =>
    obtain ⟨nk, nl⟩ := List.nodup_cons.mp nd
    change R (forAll l f (f k s)) = _
    rw [ih nl (keep k List.mem_cons_self s hs) (fun j m => keep j (List.mem_cons_of_mem _ m))
      fun j m => other j (List.mem_cons_of_mem _ m)]
    by_cases e : k = p
    · subst e
      rw [if_neg nk, if_pos List.mem_cons_self, own s hs]
    · rw [other k List.mem_cons_self s hs e]
      simp only [List.mem_cons, Ne.symm e, false_or]

/-- The points' work after the node key's invalidation leaves the node key. -/
theorem KeysFull.all_node {s x : State} {src tag : Nat} {l : List Nat} (h : KeysFull s x) (m : ∀ q ∈ l, q < 16) :
    (forAll l (State.followNode src tag) x).keyState 1 0 = x.keyState 1 0 := by
  induction l generalizing x with
  | nil => rfl
  | cons q l ih =>
    have lq := m q List.mem_cons_self
    exact (ih (h.worked (h.followed lq)) fun r mr => m r (List.mem_cons_of_mem _ mr)).trans
      (h.followed_other lq (by simp [keySlot]) (by simp [keySlot]))

/-- The node key invalidated: the points' keys follow, and the TLS keys bound to their points (R430). -/
theorem State.invalidate_node_follows {s : State} {q p cause src tag : Nat} (l : q < 16) (np : s.keys.pts.length = 16)
    (nt : s.keys.tls.length = 16) (u : s.keys.node.invalid = false) :
    (s.invalidate 1 p cause src tag).keys.node = ⟨s.keys.node.gen, true, s.frm⟩ ∧
      ((s.invalidate 1 p cause src tag).keyState 2 q).invalid = true ∧
      ((s.invalidate 1 p cause src tag).keyState 4 q).invalid = ((s.keyState 4 q).invalid || s.pb PT_KEY_TLS_BIND q) := by
  have w := (State.invalidateOne_work (cause := cause) (src := src) (tag := tag) (l := points16) (c := 1) (p := 0) (.inl rfl) np nt).1
  have full : KeysFull s (s.invalidateOne 1 0 cause src tag points16) := ⟨w.keeps.par rfl, w.pts np, w.tls nt⟩
  have lt : ∀ k ∈ points16, k < 16 := by decide
  have keep : ∀ k ∈ points16, ∀ x, KeysFull s x → KeysFull s (State.followNode src tag k x) := fun k m x h => h.worked (h.followed (lt k m))
  have point := forAll_listed (p := q) (R := fun x => (x.keyState 2 q).invalid) (g := fun _ => true) (f := State.followNode src tag)
    (l := points16) (by decide) full keep
    (fun k m x h ne => by rw [h.followed_other (lt k m) (by simp [keySlot, Ne.symm ne]) (by simp [keySlot])])
    (fun x h => (h.followed_own l).1)
  have tls := forAll_listed (p := q) (R := fun x => (x.keyState 4 q).invalid) (g := fun r => r || s.pb PT_KEY_TLS_BIND q)
    (f := State.followNode src tag) (l := points16) (by decide) full keep
    (fun k m x h ne => by rw [h.followed_other (lt k m) (by simp [keySlot]) (by simp [keySlot, Ne.symm ne])])
    (fun x h => (h.followed_own l).2)
  have node := full.all_node (src := src) (tag := tag) lt
  rw [if_pos (mem_points16 l)] at point tls
  rw [State.invalidateOne_other (.inl rfl) np nt (by simp [keySlot])] at tls
  rw [State.invalidateOne_marks (.inl rfl) np nt u] at node
  rw [State.invalidate_node u]
  exact ⟨node, point, tls⟩

/-! ### The list of keys of a request -/

theorem chunksAux_length {f n : Nat} {l : Bytes} (len : l.length = 2 * n) (fuel : n < f) : (chunksAux f 2 l).length = n := by
  induction f generalizing n l with
  | zero => exact absurd fuel (Nat.not_lt_zero n)
  | succ f ih =>
    unfold chunksAux
    cases n with
    | zero =>
      rw [List.eq_nil_of_length_eq_zero len]
      rfl
    | succ n =>
      have some' : l.isEmpty = false := by
        cases l with
        | nil => cases len
        | cons _ _ => rfl
      rw [if_neg (by rw [some']; exact Bool.false_ne_true), List.length_cons,
        ih (n := n) (by rw [List.length_drop]; omega) (by omega)]

theorem keyList_length {p : Bytes} {n : Nat} (len : p.length = 1 + 2 * n) : (keyList p).length = n := by
  have rest : (p.drop 1).length = 2 * n := by
    rw [List.length_drop]
    omega
  unfold keyList chunks
  rw [List.length_map, chunksAux_length rest (by omega)]

/-- A list of keys that can all be named is given to the command's work. -/
theorem onKeys_named {k : List (Nat × Nat) → State → Ans} {p : Bytes} {s : State} (len : p.length = 1 + 2 * fld p 0 1)
    (least : 0 < fld p 0 1) (most : fld p 0 1 ≤ 33) (named : ∀ x ∈ keyList p, keyNamed false x.1 x.2 = 0) :
    onKeys k p s = k (keyList p) s := by
  have found : (keyList p).find? (fun x => keyNamed false x.1 x.2 != 0) = none := by
    rw [List.find?_eq_none]
    intro x m
    rw [named x m]
    decide
  unfold onKeys
  dsimp only
  rw [if_neg (not_not_intro len), if_neg (by omega), found]

theorem keyList_single {c q : Nat} (lc : c < 256) (lq : q < 256) :
    keyList [1, byteOf c, byteOf q] = [(c, q)] := by
  have single : keyList [1, byteOf c, byteOf q] = [(fld [byteOf c, byteOf q] 0 1, fld [byteOf c, byteOf q] 1 1)] := rfl
  have first : fld [byteOf c, byteOf q] 0 1 = fld [byteOf c] 0 1 := rfl
  have second : fld [byteOf c, byteOf q] 1 1 = fld [byteOf q] 0 1 := rfl
  rw [single, first, second, fld_single lc, fld_single lq]

/-! ### Room in the log -/

/-- Work whose entries have room is taken. -/
theorem withRoom_fits {k : State → Ans} {s : State} {n : Nat} (room : s.logFull n = false) (fits : (k s).st.log.next - s.log.next ≤ n) :
    withRoom k s = k s := by
  refine if_neg fun ⟨_, full⟩ => ?_
  unfold State.logFull at room full
  rw [decide_eq_true_iff] at full
  rw [decide_eq_false_iff_not] at room
  omega

/-! ### The next generation of a key -/

theorem keySlot_named {a b c d : Nat} (h : keyNamed false a b = 0) (g : keyNamed false c d = 0) (e : keySlot a b = keySlot c d) :
    a = c ∧ b = d := by
  unfold keyNamed at h g
  unfold keySlot at e
  split at h <;> split at g <;> grind

/-- The next generation of an invalidated key below the last one (R433). -/
structure NextGeneration (s x : State) (c p : Nat) : Prop where
  calm : Calm s x
  keeps : Keeps [.clk, .host, .log, .keys] s x
  keys : x.keys = (s.modKey c p (fun k => { k with gen := k.gen + 1, invalid := false, since := 0 })).keys
  logged : x.log.next = s.log.next + 1

theorem State.nextGeneration_taken {s : State} {h : Hdr} {c p : Nat} (v : (s.keyState c p).invalid = true)
    (low : (s.keyState c p).gen < 65535) : ∃ x, s.nextGeneration h c p = some x ∧ NextGeneration s x c p := by
  have no : ((!(s.keyState c p).invalid || decide (65535 ≤ (s.keyState c p).gen)) = true) = False := by
    rw [v, decide_eq_false (by omega)]
    simp
  unfold State.nextGeneration
  dsimp only
  rw [if_neg (by rw [no]; exact id)]
  refine ⟨_, rfl, ?_, ?_, ?_, ?_⟩
  · have moved : Calm s (s.modKey c p (fun k => { k with gen := k.gen + 1, invalid := false, since := 0 })) := ⟨rfl, rfl⟩
    exact moved.trans (State.enterHost_calm.trans State.raise_calm)
  · exact State.keyEvent_keeps rfl (State.enterHost_keeps rfl (State.modKey_keeps rfl .refl))
  · exact (State.keyEvent_keeps rfl (State.enterHost_keeps rfl (Keeps.refl (T := [.host, .log])))).keys rfl
  · exact State.enterHost_next

theorem NextGeneration.pts {s x : State} {c p : Nat} (h : NextGeneration s x c p) (n : s.keys.pts.length = 16) : x.keys.pts.length = 16 := by
  rw [h.keys]
  unfold State.modKey
  change List.length (Keys.pts (if c = 1 then _ else if c = 2 then _ else _)) = 16
  split
  · exact n
  · split
    · exact sized_upd n
    · exact n

theorem NextGeneration.tls {s x : State} {c p : Nat} (h : NextGeneration s x c p) (n : s.keys.tls.length = 16) : x.keys.tls.length = 16 := by
  rw [h.keys]
  unfold State.modKey
  change List.length (Keys.tls (if c = 1 then _ else if c = 2 then _ else _)) = 16
  split
  · exact n
  · split
    · exact n
    · exact sized_upd n

/-- Of the keys, the one named goes on by a generation and is usable, and the others stay. -/
theorem NextGeneration.key {s x : State} {c p c' p' : Nat} (h : NextGeneration s x c p) (a : KeyAt c p)
    (np : s.keys.pts.length = 16) (nt : s.keys.tls.length = 16) : x.keyState c' p' =
      if keySlot c' p' = keySlot c p then ⟨(s.keyState c' p').gen + 1, false, 0⟩ else s.keyState c' p' :=
  (State.keyState_congr h.keys).trans (State.modKey_keyState a np nt)

/-- The next generations of a list of keys. -/
structure NextGenerations (s x : State) (l : List (Nat × Nat)) : Prop where
  calm : Calm s x
  keeps : Keeps [.clk, .host, .log, .keys] s x
  logged : x.log.next = s.log.next + l.length
  listed : ∀ y ∈ l, x.keyState y.1 y.2 = ⟨(s.keyState y.1 y.2).gen + 1, false, 0⟩
  others : ∀ c p, (∀ y ∈ l, keySlot c p ≠ keySlot y.1 y.2) → x.keyState c p = s.keyState c p

theorem State.nextGenerations_taken {s : State} {h : Hdr} {l : List (Nat × Nat)} (nd : l.Nodup)
    (named : ∀ x ∈ l, keyNamed false x.1 x.2 = 0) (v : ∀ x ∈ l, (s.keyState x.1 x.2).invalid = true)
    (low : ∀ x ∈ l, (s.keyState x.1 x.2).gen < 65535) (np : s.keys.pts.length = 16) (nt : s.keys.tls.length = 16) :
    ∃ x, l.foldl (fun (a : Option State) x => a.bind (fun s => s.nextGeneration h x.1 x.2)) (some s) = some x ∧ NextGenerations s x l := by
  induction l generalizing s with
  | nil => exact ⟨s, rfl, .refl, .refl, rfl, fun y m => absurd m List.not_mem_nil, fun _ _ _ => rfl⟩
  | cons y l ih =>
    obtain ⟨ny, nl⟩ := List.nodup_cons.mp nd
    have hy := named y List.mem_cons_self
    obtain ⟨x, e, g⟩ := State.nextGeneration_taken (h := h) (v y List.mem_cons_self) (low y List.mem_cons_self)
    have key := fun c p => g.key (c' := c) (p' := p) (.of_named hy) np nt
    have apart : ∀ z ∈ l, keySlot z.1 z.2 ≠ keySlot y.1 y.2 := fun z m e => by
      obtain ⟨e1, e2⟩ := keySlot_named (named z (List.mem_cons_of_mem _ m)) hy e
      exact ny (Prod.ext e1 e2 ▸ m)
    have same : ∀ z ∈ l, x.keyState z.1 z.2 = s.keyState z.1 z.2 := fun z m => (key z.1 z.2).trans (if_neg (apart z m))
    obtain ⟨t, e', r⟩ := ih (s := x) nl (fun z m => named z (List.mem_cons_of_mem _ m))
      (fun z m => by rw [same z m]; exact v z (List.mem_cons_of_mem _ m))
      (fun z m => by rw [same z m]; exact low z (List.mem_cons_of_mem _ m)) (g.pts np) (g.tls nt)
    have fold : (y :: l).foldl (fun (a : Option State) x => a.bind (fun s => s.nextGeneration h x.1 x.2)) (some s) =
        l.foldl (fun (a : Option State) x => a.bind (fun s => s.nextGeneration h x.1 x.2)) (s.nextGeneration h y.1 y.2) := rfl
    refine ⟨t, fold.trans (e ▸ e'), g.calm.trans r.calm, r.keeps.then rfl g.keeps, ?_, fun z m => ?_, fun c p ne => ?_⟩
    · rw [r.logged, g.logged, List.length_cons]
      omega
    · rcases List.mem_cons.mp m with rfl | m
      · rw [r.others _ _ fun w mw => Ne.symm (apart w mw), key, if_pos rfl]
      · rw [r.listed z m, same z m]
    · rw [r.others _ _ fun w mw => ne w (List.mem_cons_of_mem _ mw), key, if_neg (ne y List.mem_cons_self)]

/-! ### What the key commands answer -/

theorem State.privKey_root {s : State} {c p g : Nat} {r : Bytes} (root : s.keys.root = some r) : s.privKey c p g = some (deriveKey r c p g) := by
  unfold State.privKey
  rw [root]

theorem serveKeyStatus_body {s : State} : ∃ b, serveKeyStatus [] s = okB s b ∧
    b.take 4 = le 2 s.keys.node.gen ++ [byteOf (b2n s.keys.node.invalid), byteOf (if s.keys.regenFail then 0 else 1)] ∧ b.length = 100 := by
  have head : (le 2 s.keys.node.gen ++ [byteOf (b2n s.keys.node.invalid)] ++ [byteOf (if s.keys.regenFail then 0 else 1)]).length = 4 := by
    simp [length_le]
  refine ⟨_, rfl, ?_, ?_⟩
  · rw [List.take_left' head, List.append_assoc]
    rfl
  · rw [List.length_append, head]
    simp [List.length_flatMap, length_le, points16]

theorem State.invalidates_fit {s : State} {h : Hdr} {l : List (Nat × Nat)} (a : ∀ x ∈ l, KeyAt x.1 x.2) (np : s.keys.pts.length = 16)
    (nt : s.keys.tls.length = 16) (room : s.logFull 33 = false) :
    withRoom (fun s => okS (l.foldl (fun s x => s.invalidate x.1 x.2 0 (hostSrc h) h.tag) s)) s =
      okS (l.foldl (fun s x => s.invalidate x.1 x.2 0 (hostSrc h) h.tag) s) := by
  have w := (State.invalidates_work (src := hostSrc h) (tag := h.tag) a np nt).1.room
  have most := State.usableKeys_le np nt
  refine withRoom_fits room ?_
  change (l.foldl (fun s x => s.invalidate x.1 x.2 0 (hostSrc h) h.tag) s).log.next - s.log.next ≤ 33
  omega

theorem serveKeyInvalidate_list {s : State} {h : Hdr} {p : Bytes} (len : p.length = 1 + 2 * fld p 0 1) (least : 0 < fld p 0 1)
    (most : fld p 0 1 ≤ 33) (named : ∀ x ∈ keyList p, keyNamed false x.1 x.2 = 0) (np : s.keys.pts.length = 16)
    (nt : s.keys.tls.length = 16) (room : s.logFull 33 = false) :
    serveKeyInvalidate h p s = okS ((keyList p).foldl (fun s x => s.invalidate x.1 x.2 0 (hostSrc h) h.tag) s) :=
  (onKeys_named len least most named).trans (State.invalidates_fit (fun x m => .of_named (named x m)) np nt room)

/-- One point key, TLS key or node key named is that key's invalidation alone. -/
theorem serveKeyInvalidate_one {s : State} {h : Hdr} {c q n : Nat} (lc : c < 256) (lq : q < 256) (named : keyNamed false c q = 0)
    (room : s.logFull n = false) (fits : (s.invalidate c q 0 (hostSrc h) h.tag).log.next - s.log.next ≤ n) :
    serveKeyInvalidate h [1, byteOf c, byteOf q] s = okS (s.invalidate c q 0 (hostSrc h) h.tag) := by
  have single := keyList_single lc lq
  have taken := onKeys_named (k := fun l s => withRoom (fun s => okS (l.foldl (fun s x => s.invalidate x.1 x.2 0 (hostSrc h) h.tag) s)) s)
    (p := [1, byteOf c, byteOf q]) (s := s) rfl (show 0 < 1 by decide) (show 1 ≤ 33 by decide) (fun x m => by
      rw [single, List.mem_singleton] at m
      rw [m]
      exact named)
  rw [single] at taken
  exact taken.trans (withRoom_fits room fits)

theorem serveKeyNextGeneration_list {s : State} {h : Hdr} {p : Bytes} (len : p.length = 1 + 2 * fld p 0 1) (least : 0 < fld p 0 1)
    (most : fld p 0 1 ≤ 33) (nd : (keyList p).Nodup) (named : ∀ x ∈ keyList p, keyNamed false x.1 x.2 = 0)
    (v : ∀ x ∈ keyList p, (s.keyState x.1 x.2).invalid = true) (low : ∀ x ∈ keyList p, (s.keyState x.1 x.2).gen < 65535)
    (np : s.keys.pts.length = 16) (nt : s.keys.tls.length = 16) (room : s.logFull (fld p 0 1) = false) :
    ∃ x, serveKeyNextGeneration h p s = okS x ∧ NextGenerations s x (keyList p) := by
  obtain ⟨x, e, g⟩ := State.nextGenerations_taken (h := h) nd named v low np nt
  refine ⟨x, (onKeys_named len least most named).trans ?_, g⟩
  have work : (match (keyList p).foldl (fun (a : Option State) x => a.bind (fun s => s.nextGeneration h x.1 x.2)) (some s) with
      | some s' => okS s'
      | none => refuse s 8) = okS x := by rw [e]
  refine (withRoom_fits room ?_).trans work
  refine le_of_eq_of_le (congrArg (fun a : Ans => a.st.log.next - s.log.next) work) ?_
  change x.log.next - s.log.next ≤ fld p 0 1
  rw [g.logged, keyList_length len]
  omega

theorem State.readHelpers_calm {s : State} {w : Nat} : Calm s (s.readHelpers w) := by
  have repaired : Calm s s.repairWords := State.modPwr_calm.trans State.bump_calm
  have failed : ∀ (x : State) a b, Calm x (x.mramError a b) := fun _ _ _ => State.raise_calm
  unfold State.readHelpers
  dsimp only
  exact (repaired.trans (.ite (failed _ _ _) .refl)).trans (.ite (failed _ _ _) .refl)

/-- A regeneration answers whether the key stands (R435). -/
theorem serveKeyRegenerate_outcome {s : State} : ∃ x, serveKeyRegenerate [] s = okB x [byteOf (if x.keys.regenFail then 0 else 1)] ∧
    Calm s x ∧ Keeps [.clk, .host, .keys, .pwr] s x := by
  have kept : ∀ (y : State) a, (y.readHelpers a).keys = y.keys :=
    fun y a => (State.readHelpers_keeps rfl (Keeps.refl (T := [.clk, .host, .pwr]))).keys rfl
  have regen : ∀ (y : State) a b, Calm y (y.regenerate a b) := fun _ _ _ => ⟨rfl, rfl⟩
  exact ⟨_, rfl, (State.bump_calm.trans (regen _ _ _)).trans (State.readHelpers_calm.trans State.raise_calm),
    State.regenEvent_keeps rfl (State.readHelpers_keeps rfl (State.regenerate_keeps rfl (State.bump_keeps rfl .refl)))⟩

theorem serveKeyAttest_queues {s : State} {p : Bytes} (len : p.length = 18) (named : keyNamed true (fld p 0 1) (fld p 1 1) = 0)
    (stands : s.keys.regenFail = false) (room : s.keys.queue.length < 4) :
    serveKeyAttest p s = okB (s.modKeys (fun k => { k with
      nextTag := nextReqTag s.keys.nextTag
      queue := k.queue ++ [⟨nextReqTag s.keys.nextTag, fld p 0 1, fld p 1 1, slice p 2 16⟩] })) (le 2 (nextReqTag s.keys.nextTag)) := by
  unfold serveKeyAttest
  dsimp only
  rw [if_neg (not_not_intro len), if_neg (not_not_intro named), if_neg (by rw [stands]; exact Bool.false_ne_true), if_neg (by omega)]

theorem serveKeyStatementRead_key {s : State} {p : Bytes} {x : Nat × Bytes} (len : p.length = 8) (kind : fld p 0 1 = 0)
    (ready : s.keys.ready.find? (fun x => x.1 == fld p 2 2) = some x) : serveKeyStatementRead p s = okB s x.2 := by
  unfold serveKeyStatementRead
  dsimp only
  rw [if_neg (not_not_intro len), if_neg (by omega), if_pos kind, ready]

theorem serveKeyStatementRead_session {s : State} {p c : Bytes} (len : p.length = 8) (kind : fld p 0 1 = 1) (lp : fld p 1 1 < 16)
    (held : (s.sesOf (fld p 1 1)).certs.find? (fun c => fld c 40 4 == fld p 4 4) = some c) : serveKeyStatementRead p s = okB s c := by
  unfold serveKeyStatementRead
  dsimp only
  rw [if_neg (not_not_intro len), if_neg (by omega), if_neg (by omega), if_neg (by omega), held]

/-- A chain is kept where its leaf carries the usable key, and refused otherwise (R440). -/
theorem serveKeyTlsCertificateLoad_chain {s : State} {p : Bytes} {q c n : Nat} {r : Bytes} {l : List Bytes} (lq : q < 16) (cls : c = 4 ∨ c = 5)
    (least : 1 ≤ n) (most : n ≤ 3) (out : s.isOutlet q = true) (certs : readCerts n p = some l) (sizes : ∀ x ∈ l, x.length ≤ 1024)
    (stands : s.keys.regenFail = false) (usable : (s.keyState c q).invalid = false) (root : s.keys.root = some r) :
    serveKeyTlsCertificateLoad (byteOf q :: byteOf c :: byteOf n :: p) s =
      if Config.certificateKey (l.headD []) = publicKey c (deriveKey r c q (s.keyState c q).gen) then
        okS (s.modKeys (fun k => { k with chains := k.chains.filter (fun x => !(x.port == q && x.cls == c)) ++ [⟨q, c, l⟩] }))
      else refuse s 6 := by
  have fq : fld (byteOf q :: byteOf c :: byteOf n :: p) 0 1 = q := (fld_single (n := q) (by omega) :)
  have fc : fld (byteOf q :: byteOf c :: byteOf n :: p) 1 1 = c := (fld_single (n := c) (by omega) :)
  have fn : fld (byteOf q :: byteOf c :: byteOf n :: p) 2 1 = n := (fld_single (n := n) (by omega) :)
  have rest : (byteOf q :: byteOf c :: byteOf n :: p).drop 3 = p := rfl
  have len : ¬ (byteOf q :: byteOf c :: byteOf n :: p).length < 3 := by simp
  have fit : ¬ (l.any fun c => decide (1024 < c.length)) = true := by
    rw [Bool.not_eq_true, List.any_eq_false]
    intro x m
    simpa using sizes x m
  unfold serveKeyTlsCertificateLoad
  dsimp only
  rw [fq, fc, fn, rest, if_neg len, if_neg (by omega), if_neg (by simp [out]), if_neg (by omega), certs]
  dsimp only
  rw [if_neg fit, if_neg (by simp [stands, usable]), State.privKey_root root]

theorem State.mayWrite_helpers {s : State} (sealed : s.saf.seals.testBit 0 = true) : s.mayWrite 3 0xFB0000 = true := by
  have area : mramArea 0xFB0000 = 9 := mramArea_at (a := 9) (o := 0) (by decide) (by decide) (by decide)
  unfold State.mayWrite
  rw [area, sealed]
  rfl

/-- An erasure sets the mark and makes one entry (R437). -/
theorem serveKeyErase_marks {s : State} {h : Hdr} (sealed : s.saf.seals.testBit 0 = true) (room : s.logFull 1 = false) :
    serveKeyErase h [] s = okS ((s.modKeys (fun k => { k with erased := true })).enterHost h 8 0 0 [0, 0xFF] [0, 0xFF, 0, 0, 2, 3] s.frm) := by
  have written : s.writeMram 3 0xFB0000 (fun s => s.modKeys (fun k => { k with erased := true })) =
      s.modKeys (fun k => { k with erased := true }) := if_pos (State.mayWrite_helpers sealed)
  have work : (fun s : State => okS ((s.writeMram 3 0xFB0000 (fun s => s.modKeys (fun k => { k with erased := true }))).enterHost h 8 0 0
      [0, 0xFF] [0, 0xFF, 0, 0, 2, 3] s.frm)) s =
      okS ((s.modKeys (fun k => { k with erased := true })).enterHost h 8 0 0 [0, 0xFF] [0, 0xFF, 0, 0, 2, 3] s.frm) := by
    dsimp only
    rw [written]
  refine (withSeal_closed sealed).trans ((withRoom_fits room ?_).trans work)
  refine le_of_eq_of_le (congrArg (fun a : Ans => a.st.log.next - s.log.next) work) ?_
  change (State.enterHost _ _ _ _ _ _ _ _).log.next - s.log.next ≤ 1
  rw [State.enterHost_next]
  exact le_of_eq (Nat.add_sub_cancel_left s.log.next 1)

theorem serveKeyPublicRead_key {s : State} {p r : Bytes} (len : p.length = 2) (named : keyNamed true (fld p 0 1) (fld p 1 1) = 0)
    (root : s.keys.root = some r) (stands : s.keys.regenFail = false) :
    serveKeyPublicRead p s = okB s (withLength (publicKey (fld p 0 1)
      (deriveKey r (fld p 0 1) (fld p 1 1) (s.keyState (fld p 0 1) (fld p 1 1)).gen))) := by
  unfold serveKeyPublicRead
  dsimp only
  rw [if_neg (not_not_intro len), if_neg (not_not_intro named), State.privKey_root root]
  dsimp only
  rw [if_neg (by rw [stands]; exact Bool.false_ne_true)]

end Sys2Proof.Machine

open Sys2Proof Sys2Proof.Machine

/-- Settles O3: each serve function on the state the request runs on, with the invalidation of a key, of a list and of the node key, and
the next generations of distinct keys, taken from the lemmas of this file. -/
theorem keyCommandsAnswer : Obligations.KeyCommandsAnswer := by
  intro s h p q snd lq
  have keys : ∀ c p, (s.accept c h p).keys = s.keys := fun _ _ => State.accept_keeps.keys rfl
  have state : ∀ c p a b, (s.accept c h p).keyState a b = s.keyState a b := fun c p _ _ => State.keyState_congr (keys c p)
  have room : ∀ {n} c p, s.logFull n = false → (s.accept c h p).logFull n = false := fun _ _ r =>
    (State.logFull_congr (State.accept_keeps.log rfl)).trans r
  have log : ∀ c p, (s.accept c h p).log = s.log := fun _ _ => State.accept_keeps.log rfl
  have frm : ∀ c p, (s.accept c h p).frm = s.frm := fun _ _ => rfl
  have np : ∀ c p, (s.accept c h p).keys.pts.length = 16 := fun c p => keys c p ▸ snd.pointKeys
  have nt : ∀ c p, (s.accept c h p).keys.tls.length = 16 := fun c p => keys c p ▸ snd.tlsKeys
  refine ⟨fun tk => ?status, fun c cls tk r v i => ?one, fun tk len least most named r => ?list, fun tk r v => ?node,
    fun tk len least most nd all r => ?next, fun tk => ?regenerate, fun tk len named stands few => ?attest,
    fun x tk len kind held => ?key, fun c tk len kind pt held => ?session, fun tk => ?certificate,
    fun l r c n cls least most tk out certs sizes stands usable root => ?load, fun tk sealed r => ?erase,
    fun r tk len named root stands => ?reads⟩
  case status =>
    obtain ⟨b, g, head, size⟩ := serveKeyStatus_body (s := s.accept 0x0501 h [])
    obtain ⟨t, e, a, ro⟩ := taken_reads (serve := serveKeyStatus) tk snd g
    rw [keys] at head
    exact ⟨t, b, e, a, head, size, ro⟩
  case one =>
    have at' : KeyAt c q := .inr lq
    have alone : c ≠ 1 := by omega
    have named : keyNamed false c q = 0 := by
      unfold keyNamed
      rw [if_neg alone, if_pos (by omega), if_pos lq]
    have usable : ((s.accept 0x0502 h [1, byteOf c, byteOf q]).keyState c q).invalid = false :=
      (congrArg KeyState.invalid (state _ _ c q)).trans v
    have single : (s.accept 0x0502 h [1, byteOf c, byteOf q]).invalidate c q 0 (hostSrc h) h.tag =
      (s.accept 0x0502 h [1, byteOf c, byteOf q]).invalidateOne c q 0 (hostSrc h) h.tag [q] := if_neg alone
    have d := State.invalidateOne_usable (cause := 0) (src := hostSrc h) (tag := h.tag) (l := [q]) usable
    have g := serveKeyInvalidate_one (h := h) (n := 1) (by omega) (by omega) named (room 0x0502 [1, byteOf c, byteOf q] r)
      (by rw [single, d.logged]; omega)
    rw [single] at g
    have pts := d.idle (fun two => by
      unfold State.sesOf
      rw [State.pt_congr (State.accept_keeps.pts rfl)]
      exact i two)
    have kept : Keeps [.clk, .host, .log, .keys] (s.accept 0x0502 h [1, byteOf c, byteOf q]) _ := Keeps.points_stay d.keeps pts
    obtain ⟨t, e, a, v', after, -⟩ := taken_serves (serve := serveKeyInvalidate h) (T := [.log, .keys]) tk snd g d.calm kept
    refine ⟨t, e, a, ?_, ?_, v'⟩
    · rw [State.keyState_congr (after.after.keys rfl), State.invalidateOne_marks at' (np _ _) (nt _ _) usable, state, frm]
    · rw [after.after.log rfl, d.logged, log]
  case list =>
    have w := State.invalidates_work (s := s.accept 0x0502 h p) (src := hostSrc h) (tag := h.tag)
      (fun x m => KeyAt.of_named (named x m)) (np _ _) (nt _ _)
    obtain ⟨t, e, a, v, after, -⟩ := taken_serves (serve := serveKeyInvalidate h) (T := [.pts, .log, .keys]) tk snd
      (serveKeyInvalidate_list (h := h) len least most named (np _ _) (nt _ _) (room _ _ r)) w.1.calm w.1.keeps
    refine ⟨t, e, a, fun x m => ?_, v⟩
    rw [State.keyState_congr (after.after.keys rfl)]
    exact w.2 x m
  case node =>
    have usable : (s.accept 0x0502 h [1, 1, 0xFF]).keys.node.invalid = false := keys 0x0502 [1, 1, 0xFF] ▸ v
    have w := (State.invalidate_work (s := s.accept 0x0502 h [1, 1, 0xFF]) (c := 1) (p := 255) (cause := 0) (src := hostSrc h) (tag := h.tag)
      (.inl rfl) (np _ _) (nt _ _)).1
    obtain ⟨node, point, tls⟩ := State.invalidate_node_follows (p := 255) (cause := 0) (src := hostSrc h) (tag := h.tag) lq
      (np 0x0502 [1, 1, 0xFF]) (nt _ _) usable
    have g := serveKeyInvalidate_one (s := s.accept 0x0502 h [1, 1, 0xFF]) (h := h) (c := 1) (q := 255) (n := 33) (by decide) (by decide)
      (by decide) (room _ _ r) (by have most := State.usableKeys_le (np 0x0502 [1, 1, 0xFF]) (nt _ _); have := w.room; omega)
    obtain ⟨t, e, a, v', after, -⟩ := taken_serves (serve := serveKeyInvalidate h) (T := [.pts, .log, .keys]) tk snd g w.calm w.keeps
    have same := after.after.keys rfl
    refine ⟨t, e, a, ?_, ?_, ?_, v'⟩
    · rw [same, node, keys, frm]
    · rw [State.keyState_congr same, point]
    · rw [State.keyState_congr same, tls, state, State.pb_congr (State.accept_keeps.par rfl)]
  case next =>
    obtain ⟨x, g, n⟩ := serveKeyNextGeneration_list (s := s.accept 0x0503 h p) (h := h) len least most nd (fun x m => (all x m).1)
      (fun x m => by rw [state]; exact (all x m).2.1) (fun x m => by rw [state]; exact (all x m).2.2) (np _ _) (nt _ _) (room _ _ r)
    obtain ⟨t, e, a, v, after, -⟩ := taken_serves (serve := serveKeyNextGeneration h) (T := [.log, .keys]) tk snd g n.calm n.keeps
    refine ⟨t, e, a, fun y m => ?_, ?_, v⟩
    · rw [State.keyState_congr (after.after.keys rfl), n.listed y m, state]
    · rw [after.after.log rfl, n.logged, log, keyList_length len]
  case regenerate =>
    obtain ⟨x, g, c, kept⟩ := serveKeyRegenerate_outcome (s := s.accept 0x0504 h [])
    obtain ⟨t, e, a, v, after, -⟩ := taken_serves (serve := serveKeyRegenerate) (T := [.keys, .pwr]) tk snd g c (kept.mono rfl)
    have same : t.keys.regenFail = x.keys.regenFail := congrArg Keys.regenFail (after.after.keys rfl)
    refine ⟨t, e, ?_, v⟩
    cases f : x.keys.regenFail with
    | true =>
      rw [f] at a
      exact .inl ⟨a, same.trans f⟩
    | false =>
      rw [f] at a
      exact .inr ⟨a, same.trans f⟩
  case attest =>
    have g := serveKeyAttest_queues (s := s.accept 0x0505 h p) len named (keys 0x0505 p ▸ stands) (keys 0x0505 p ▸ few)
    rw [keys] at g
    obtain ⟨t, e, a, v, after, -⟩ := taken_serves (serve := serveKeyAttest) (T := [.keys]) tk snd g ⟨rfl, rfl⟩ (State.modKeys_keeps rfl .refl)
    refine ⟨t, e, a, ?_, v⟩
    rw [after.after.keys rfl]
    unfold State.modKeys
    rw [keys]
  case key =>
    exact taken_reads tk snd (serveKeyStatementRead_key (s := s.accept 0x0506 h p) len kind (keys 0x0506 p ▸ held))
  case session =>
    refine taken_reads tk snd (serveKeyStatementRead_session (s := s.accept 0x0506 h p) len kind (pt ▸ lq) ?_)
    unfold State.sesOf
    rw [State.pt_congr (State.accept_keeps.pts rfl), pt]
    exact held
  case certificate =>
    have g : serveKeyNodeCertificate [] (s.accept 0x0507 h []) = okParts (s.accept 0x0507 h []) (byteParts (if s.keys.erased then zeros 4
        else withLength Config.nodeCertificate ++ withLength Config.intermediateCertificate)) := by
      rw [← keys 0x0507 []]
      rfl
    exact taken_parts_reads (serve := serveKeyNodeCertificate) tk snd g byteParts_ne
  case load =>
    intro fits
    have g := serveKeyTlsCertificateLoad_chain (s := s.accept 0x0508 h (byteOf q :: byteOf c :: byteOf n :: p)) lq cls least most
      ((State.isOutlet_congr (State.accept_keeps.par rfl)).trans out) certs sizes ((congrArg Keys.regenFail (keys _ _)).trans stands)
      ((congrArg KeyState.invalid (state _ _ c q)).trans usable) ((congrArg Keys.root (keys _ _)).trans root)
    rw [state] at g
    by_cases f : fits
    · rw [if_pos f] at g
      obtain ⟨t, e, a, v, after, -⟩ := taken_serves (serve := serveKeyTlsCertificateLoad) (T := [.keys]) tk snd g ⟨rfl, rfl⟩
        (State.modKeys_keeps rfl .refl)
      refine ⟨t, e, v, fun _ => ⟨a, ?_⟩, fun no => absurd f no⟩
      rw [congrArg Keys.chains (after.after.keys rfl)]
      exact List.mem_append_right _ (List.mem_singleton_self _)
    · rw [if_neg f] at g
      obtain ⟨t, e, a, v, after, -⟩ := taken_serves (serve := serveKeyTlsCertificateLoad) (T := [.keys]) tk snd g .refl .refl
      exact ⟨t, e, v, fun yes => absurd yes f, fun _ => ⟨a, (after.after.keys rfl).trans (keys _ _)⟩⟩
  case erase =>
    have seals : (s.accept 0x0509 h []).saf.seals.testBit 0 = true := (congrArg (fun x : Safety => x.seals.testBit 0) (State.accept_keeps.saf rfl)).trans sealed
    have marked : Calm (s.accept 0x0509 h []) ((s.accept 0x0509 h []).modKeys (fun k => { k with erased := true })) := ⟨rfl, rfl⟩
    obtain ⟨t, e, a, v, after, -⟩ := taken_serves (serve := serveKeyErase h) (T := [.log, .keys]) tk snd
      (serveKeyErase_marks (h := h) seals (room 0x0509 [] r)) (marked.trans State.enterHost_calm)
      (State.enterHost_keeps rfl (State.modKeys_keeps rfl .refl))
    refine ⟨t, e, a, ?_, ?_, v⟩
    · rw [after.after.keys rfl, (State.enterHost_keeps rfl (Keeps.refl (T := [.host, .log]))).keys rfl]
      unfold State.modKeys
      rw [keys]
    · rw [after.after.log rfl, State.enterHost_next]
      exact congrArg (fun l : LegalLog => l.next + 1) (log 0x0509 [])
  case reads =>
    have g := serveKeyPublicRead_key (s := s.accept 0x050A h p) len named ((congrArg Keys.root (keys _ _)).trans root)
      ((congrArg Keys.regenFail (keys _ _)).trans stands)
    rw [state] at g
    exact taken_reads tk snd g
end

section
/-!
Sessions: the states they enter and leave, the commands on them, and their timers (09 R226–R238, R545, Table 9.6).
-/

namespace Sys2Proof.Machine

/-! ### Work on one point -/

/-- Of work on one point: every other point stays, and none is lost. -/
structure OnPoint (p : Nat) (s x : State) : Prop where
  others : ∀ q, q ≠ p → x.pt q = s.pt q
  size : x.pts.length = s.pts.length

theorem OnPoint.refl {p : Nat} {s : State} : OnPoint p s s := ⟨fun _ _ => rfl, rfl⟩

theorem OnPoint.trans {p : Nat} {s x y : State} (h : OnPoint p s x) (g : OnPoint p x y) : OnPoint p s y :=
  ⟨fun q ne => (g.others q ne).trans (h.others q ne), g.size.trans h.size⟩

theorem OnPoint.of_eq {p : Nat} {s x : State} (e : x.pts = s.pts) : OnPoint p s x :=
  ⟨fun _ _ => State.pt_congr e, congrArg List.length e⟩

theorem OnPoint.ite {p : Nat} {s x y : State} {c : Prop} [Decidable c] (h : OnPoint p s x) (g : OnPoint p s y) :
    OnPoint p s (if c then x else y) := by
  split <;> assumption

theorem State.modPt_onPoint {p : Nat} {s : State} {f : Point → Point} : OnPoint p s (s.modPt p f) :=
  ⟨fun _ ne => State.modPt_other (Ne.symm ne), List.length_modify ..⟩

theorem State.modSes_onPoint {p : Nat} {s : State} {f : Session → Session} : OnPoint p s (s.modSes p f) := State.modPt_onPoint

theorem State.modOut_onPoint {p : Nat} {s : State} {f : Outlet → Outlet} : OnPoint p s (s.modOut p f) := State.modPt_onPoint

theorem State.modSes_same {s : State} {p : Nat} {f : Session → Session} (l : p < s.pts.length) :
    (s.modSes p f).sesOf p = f (s.sesOf p) := congrArg Point.ses (State.modPt_same l)

theorem State.modOut_same {s : State} {p : Nat} {f : Outlet → Outlet} (l : p < s.pts.length) :
    (s.modOut p f).outOf p = f (s.outOf p) := congrArg Point.out (State.modPt_same l)

@[simp] theorem State.modOut_ses {s : State} {p q : Nat} {f : Outlet → Outlet} : (s.modOut p f).sesOf q = s.sesOf q :=
  State.modPt_leaves Point.ses fun _ => rfl

@[simp] theorem State.modSes_out {s : State} {p q : Nat} {f : Session → Session} : (s.modSes p f).outOf q = s.outOf q :=
  State.modPt_leaves Point.out fun _ => rfl

theorem State.outletSession_pts {s : State} {p c : Nat} {a b : SessState} : (s.outletSession p a b c).pts = s.pts :=
  (State.outletSession_keeps rfl (Keeps.refl (T := [.host]))).pts rfl

/-! ### Entering a state -/

/-- A session that enters a state with the next frame (09 R226, R228). -/
def Session.entered (x : Session) (n : SessState) (frm up : Nat) : Session :=
  { x with state := n, since := frm + 1, entry := up, xferTo := if x.state = .transferring then some frm else x.xferTo
           present := if n = .idle then false else x.present, parentRevoked := if n = .idle then false else x.parentRevoked }

theorem State.enterState_onPoint {s : State} {p c : Nat} {n : SessState} : OnPoint p s (s.enterState p n c) := by
  have pilot : ∀ x : State, OnPoint p x (x.setPilot p) := fun _ => State.modPt_onPoint
  have entered := fun f => (State.modPt_onPoint (s := s) (p := p) (f := f)).trans
    ((OnPoint.of_eq (State.outletSession_pts (a := (s.sesOf p).state) (b := n) (c := c) (p := p))).trans (pilot _))
  have wants := fun f g => OnPoint.ite (c := n = .idle ∨ n = .stopping ∨ n = .fault)
    ((entered f).trans (State.modPt_onPoint (p := p) (f := g))) (entered f)
  exact .ite ((wants _ _).trans State.modPt_onPoint) (wants _ _)

theorem State.enterState_ses {s : State} {p c : Nat} {n : SessState} (l : p < s.pts.length) :
    (s.enterState p n c).sesOf p = (s.sesOf p).entered n s.frm s.clk.up := by
  have reported : ∀ x : State, (x.outletSession p (s.sesOf p).state n c).sesOf p = x.sesOf p :=
    fun _ => congrArg Point.ses (State.pt_congr State.outletSession_pts)
  have first : ∀ f, (((s.modSes p f).outletSession p (s.sesOf p).state n c).setPilot p).sesOf p = f (s.sesOf p) :=
    fun f => State.modOut_ses.trans ((reported _).trans (State.modSes_same l))
  have size : ∀ f, (((s.modSes p f).outletSession p (s.sesOf p).state n c).setPilot p).pts.length = s.pts.length := fun f =>
    (State.modPt_onPoint (p := p)).size.trans ((congrArg List.length State.outletSession_pts).trans (State.modPt_onPoint (p := p)).size)
  unfold State.enterState Session.entered
  dsimp only
  by_cases idle : n = .idle
  · subst idle
    rw [if_pos rfl, if_pos (.inl rfl), if_pos rfl, if_pos rfl]
    rw [State.modSes_same (State.modOut_onPoint.size.trans (size _) ▸ l), State.modOut_ses, first]
  · rw [if_neg idle, if_neg idle, if_neg idle]
    split
    · exact State.modOut_ses.trans (first _)
    · exact first _

/-- What of an outlet entering a state leaves: everything but the pilot's duty to come and the vehicle's wish. -/
theorem State.enterState_out {α : Type} {s : State} {p q c : Nat} {n : SessState} (g : Outlet → α)
    (e : ∀ o d w, g { o with dutyNext := d, wants := w } = g o) : g ((s.enterState p n c).outOf q) = g (s.outOf q) := by
  have ses : ∀ (x : State) f, g ((x.modSes p f).outOf q) = g (x.outOf q) := fun _ _ => congrArg g State.modSes_out
  have wants : ∀ x : State, g ((x.modOut p (fun o => { o with wants := false })).outOf q) = g (x.outOf q) :=
    fun _ => State.modPt_leaves (fun x => g x.out) fun x => e x.out x.out.dutyNext false
  have pilot : ∀ x : State, g ((x.setPilot p).outOf q) = g (x.outOf q) := fun x => State.modPt_leaves (fun x => g x.out) fun y => by
    dsimp only
    split
    · exact e y.out _ y.out.wants
    · split
      · rfl
      · exact e y.out _ y.out.wants
  have reported : ∀ x : State, g ((x.outletSession p (s.sesOf p).state n c).outOf q) = g (x.outOf q) :=
    fun _ => congrArg (fun y : Point => g y.out) (State.pt_congr State.outletSession_pts)
  have first : ∀ f, g ((((s.modSes p f).outletSession p (s.sesOf p).state n c).setPilot p).outOf q) = g (s.outOf q) :=
    fun f => (pilot _).trans ((reported _).trans (ses _ _))
  unfold State.enterState
  dsimp only
  split
  · refine (ses _ _).trans ?_
    split
    · exact (wants _).trans (first _)
    · exact first _
  · split
    · exact (wants _).trans (first _)
    · exact first _

theorem State.backToIdle_onPoint {s : State} {p c : Nat} : OnPoint p s (s.backToIdle p c) :=
  State.enterState_onPoint.trans State.modPt_onPoint

/-- A session back in IDLE has neither key nor causes. -/
theorem State.backToIdle_ses {s : State} {p c : Nat} (l : p < s.pts.length) :
    (s.backToIdle p c).sesOf p = { (s.sesOf p).entered .idle s.frm s.clk.up with key := none, causes := [] } := by
  rw [← State.enterState_ses (c := c) l]
  exact State.modSes_same (State.enterState_onPoint.size.symm ▸ l)

theorem State.backToIdle_out {α : Type} {s : State} {p q c : Nat} (g : Outlet → α)
    (e : ∀ o d w, g { o with dutyNext := d, wants := w } = g o) : g ((s.backToIdle p c).outOf q) = g (s.outOf q) :=
  (congrArg g State.modSes_out).trans (State.enterState_out g e)

/-! ### The path switches of a session put off -/

/-- Of work on path switches: the sessions stand, the die's supply and link too, a channel keeps its holds, and one that is off stays off. -/
structure PathWork (s x : State) : Prop where
  keeps : Keeps [.pts, .sw] s x
  ses : ∀ q, x.sesOf q = s.sesOf q
  size : x.pts.length = s.pts.length
  powered : x.sw.powered = s.sw.powered
  link : x.sw.link = s.sw.link
  holds : ∀ n, (x.swch n).held134 = (s.swch n).held134
  off : ∀ n, (s.swch n).on = false → (x.swch n).on = false

theorem PathWork.refl {s : State} : PathWork s s := ⟨.refl, fun _ => rfl, rfl, rfl, rfl, fun _ => rfl, fun _ => id⟩

theorem PathWork.trans {s x y : State} (h : PathWork s x) (g : PathWork x y) : PathWork s y :=
  ⟨g.keeps.then rfl h.keeps, fun q => (g.ses q).trans (h.ses q), g.size.trans h.size, g.powered.trans h.powered, g.link.trans h.link,
    fun n => (g.holds n).trans (h.holds n), fun n o => g.off n (h.off n o)⟩

theorem State.modOut_pathWork {s : State} {p : Nat} {f : Outlet → Outlet} : PathWork s (s.modOut p f) :=
  ⟨State.modOut_keeps rfl .refl, fun _ => State.modOut_ses, State.modOut_onPoint.size, rfl, rfl, fun _ => rfl,
    fun _ => id⟩

/-- A channel commanded off keeps its holds, and is off unless rank 1, 3 or 4 holds it. -/
theorem State.command_pathWork {s : State} {n : Nat} : PathWork s (s.command n false) ∧
    (s.sw.powered = true → s.sw.link = true → (s.swch n).held134 = false → ((s.command n false).swch n).on = false) := by
  have sent : ∀ x : State, PathWork s x → PathWork s (if !x.dieAnswers then
        x.modSw (fun d => { d with waiting := (d.waiting.filter (fun w => w.1 != n)) ++ [(n, false)] })
      else x.modSwch n (fun c =>
        if c.held134 then c
        else if c.held2 && false then { c with cmd := false }
        else { (c.setOut x.clk.up false) with cmd := false, reapply := false })) := by
    intro x w
    split
    · exact w.trans ⟨State.modSw_keeps rfl .refl, fun _ => rfl, rfl, rfl, rfl, fun _ => rfl, fun _ => id⟩
    · refine w.trans ⟨State.modSwch_keeps rfl .refl, fun _ => rfl, rfl, rfl, rfl, fun m => State.modSwch_leaves SwCh.held134 fun c => ?_,
        fun m o => getD_upd (fun c : SwCh => c.on = false) o fun _ o => ?_⟩
      · dsimp only
        split
        · rfl
        · rw [Bool.and_false, if_neg Bool.false_ne_true]
          exact SwCh.setOut_held134
      · split
        · exact o
        · rw [Bool.and_false, if_neg Bool.false_ne_true]
          exact SwCh.setOut_on
  refine ⟨?_, fun p l free => ?_⟩
  · unfold State.command
    dsimp only
    split
    · exact sent _ State.modOut_pathWork
    · exact sent _ .refl
  · by_cases lt : n < s.sw.ch.length
    · exact (State.command_takes lt (by unfold State.dieAnswers; rw [p, l]; rfl) free (b := false) fun no => absurd no Bool.false_ne_true).1
    · obtain ⟨x, sw, -, e⟩ := State.command_sw (s := s) (n := n) (b := false)
      have none' : x.swch n = SwCh.reset := by
        rw [State.swch_congr sw]
        exact List.getD_eq_default _ _ (by omega)
      rw [e]
      split
      · exact congrArg SwCh.on none'
      · refine getD_upd (fun c : SwCh => c.on = false) (congrArg SwCh.on none') fun _ o => ?_
        split
        · exact o
        · rw [Bool.and_false, if_neg Bool.false_ne_true]
          exact SwCh.setOut_on

theorem State.pathOff_work {s : State} {l : List Nat} : PathWork s (l.foldl (fun s n => s.command n false) s) ∧
    (∀ n ∈ l, s.sw.powered = true → s.sw.link = true → (s.swch n).held134 = false →
      ((l.foldl (fun s n => s.command n false) s).swch n).on = false) ∧
    ∀ n, n ∉ l → (l.foldl (fun s n => s.command n false) s).swch n = s.swch n := by
  induction l generalizing s with
  | nil => exact ⟨.refl, fun n m => absurd m List.not_mem_nil, fun _ _ => rfl⟩
  | cons k l ih =>
    obtain ⟨first, off⟩ := State.command_pathWork (s := s) (n := k)
    obtain ⟨rest, all, others⟩ := ih (s := s.command k false)
    refine ⟨first.trans rest, fun n m p lk free => ?_, fun n no => ?_⟩
    · rcases List.mem_cons.mp m with rfl | m
      · exact rest.off n (off p lk free)
      · exact all n m (first.powered.trans p) (first.link.trans lk) ((first.holds n).trans free)
    · obtain ⟨ne, no⟩ := not_or.mp (fun h => no (List.mem_cons.mpr h))
      exact (others n no).trans (State.command_other ne)

/-! ### The timers of a session -/

theorem execAuthTimeout_due {s : State} {u p : Nat} (l : p < 16) (st : (s.sesOf p).state = .authorising)
    (d : (s.sesOf p).entry + s.pn PT_AUTH_TIMEOUT p * 1000000000 ≤ u) : execAuthTimeout u p s = .next ((s.at u).backToIdle p 0) :=
  if_pos ⟨l, st, d⟩

theorem execStartTimeout_due {s : State} {u p : Nat} (l : p < 16) (st : (s.sesOf p).state = .authorised)
    (d : (s.sesOf p).entry + s.pn PT_START_TIMEOUT p * 1000000000 ≤ u) : execStartTimeout u p s = .next ((s.at u).backToIdle p 0) :=
  if_pos ⟨l, st, d⟩

theorem execStopGraceExpiry_due {s : State} {u p d : Nat} (l : p < 16) (st : (s.sesOf p).state = .stopping)
    (path : (s.sesOf p).offDone = false) (e : (s.sesOf p).graceDue = some d) (le : d ≤ u) :
    execStopGraceExpiry u p s = .next ((s.at u).stopOff p) :=
  if_pos ⟨l, st, path, by rw [show ((s.at u).sesOf p).graceDue = some d from e]; exact decide_eq_true le⟩

theorem execStopSettleExpiry_due {s : State} {u p d : Nat} (l : p < 16) (st : (s.sesOf p).state = .stopping)
    (path : (s.sesOf p).offDone = true) (e : (s.sesOf p).settleDue = some d) (le : d ≤ u) :
    execStopSettleExpiry u p s = .next ((s.at u).close p) :=
  if_pos ⟨l, st, path, by rw [show ((s.at u).sesOf p).settleDue = some d from e]; exact decide_eq_true le⟩

/-- A session that returns to IDLE when its time has run out. -/
structure Lapsed (s t : State) (p : Nat) : Prop where
  state : (t.sesOf p).state = .idle
  since : (t.sesOf p).since = s.frm + 1
  key : (t.sesOf p).key = none
  causes : (t.sesOf p).causes = []
  others : ∀ q, q ≠ p → t.pt q = s.pt q
  keeps : Keeps [.clk, .host, .pts] s t

theorem State.backToIdle_lapsed {s : State} {u p : Nat} (l : p < s.pts.length) : Lapsed s ((s.at u).backToIdle p 0) p := by
  have ses := State.backToIdle_ses (s := s.at u) (c := 0) l
  exact ⟨congrArg Session.state ses, congrArg Session.since ses, congrArg Session.key ses, congrArg Session.causes ses,
    State.backToIdle_onPoint.others, State.backToIdle_keeps rfl (State.at_keeps rfl .refl)⟩

/-- The session closed: its last frame and its cause are held, and the others stand. -/
theorem State.close_ses {s : State} {p : Nat} (l : p < s.pts.length) : (s.close p).sesOf p =
    ({ s.sesOf p with
      eFrame := some (max s.frm (s.sesOf p).sFrame), endCause := (s.sesOf p).stopCause
      stopCause := if (s.sesOf p).stopCause = 0 then (s.sesOf p).stopCause else (s.sesOf p).stopCause
      settleDue := none, graceDue := none } : Session).entered .closed s.frm s.clk.up := by
  have ended : ∀ f g, ((s.modSes p f).modOut p g).sesOf p = f (s.sesOf p) :=
    fun _ _ => State.modOut_ses.trans (State.modSes_same l)
  have size : ∀ f g, ((s.modSes p f).modOut p g).pts.length = s.pts.length :=
    fun _ _ => (State.modSes_onPoint.trans State.modOut_onPoint).size
  refine (State.enterState_ses ((size _ _).symm ▸ l)).trans ?_
  exact congrArg (fun x : Session => x.entered .closed s.frm s.clk.up) (ended _ _)

theorem State.close_onPoint {s : State} {p : Nat} : OnPoint p s (s.close p) := by
  have ended : ∀ f g, OnPoint p s ((s.modSes p f).modOut p g) := fun _ _ => State.modSes_onPoint.trans State.modOut_onPoint
  unfold State.close State.endSession
  exact (ended _ _).trans State.enterState_onPoint

end Sys2Proof.Machine

open Sys2Proof Sys2Proof.Machine

/-- Settles O22: each timer's command on the session, by the laws of entering a state and of the path switches put off. -/
theorem sessionTimersComplete : Obligations.SessionTimersComplete := by
  intro s u p snd l
  have lp : p < s.pts.length := snd.pts ▸ l
  refine ⟨fun st d => ?auth, fun st d => ?start, fun d st path e le => ?grace, fun d st path e le => ?settle⟩
  case auth =>
    have f : Lapsed s _ p := State.backToIdle_lapsed (u := u) lp
    exact ⟨_, execAuthTimeout_due l st d, f.state, f.since, f.key, f.causes, f.others, f.keeps⟩
  case start =>
    have f : Lapsed s _ p := State.backToIdle_lapsed (u := u) lp
    exact ⟨_, execStartTimeout_due l st d, f.state, f.since, f.key, f.causes, f.others, f.keeps⟩
  case grace =>
    obtain ⟨w, off, others⟩ := State.pathOff_work (s := s.at u) (l := (s.at u).pathSwitches p)
    have ses : ((s.at u).stopOff p).sesOf p = _ := State.modSes_same (s := (s.at u).pathOff p) (w.size.symm ▸ lp)
    refine ⟨_, execStopGraceExpiry_due l st path e le, (congrArg Session.state ses).trans ((congrArg Session.state (w.ses p)).trans st),
      congrArg Session.offDone ses, congrArg Session.settleDue ses, off, others, fun q ne => ?_, ?_⟩
    · exact (congrArg Point.ses (State.modPt_other (Ne.symm ne))).trans (w.ses q)
    · exact State.modSes_keeps rfl (w.keeps.then rfl (State.at_keeps rfl .refl))
  case settle =>
    have ses := State.close_ses (s := s.at u) lp
    exact ⟨_, execStopSettleExpiry_due l st path e le, congrArg Session.state ses, congrArg Session.since ses, congrArg Session.eFrame ses,
      congrArg Session.endCause ses, State.close_onPoint.others, State.close_keeps rfl (State.at_keeps rfl .refl)⟩
end

section
/-!
The session commands (09 R226, R228, R230–R232, R238, R545, 20 Table 20.4).
-/

namespace Sys2Proof.Machine

/-! ### A command on a session point -/

theorem onSession_eq {k : Nat → State → Ans} {p : Bytes} {s : State} (l : fld p 0 1 < 16) (ses : s.isSession (fld p 0 1) = true) :
    onSession k p s = k (fld p 0 1) s := by
  unfold onSession
  rw [if_neg (by omega), if_pos ses]

theorem onSession1_eq {k : Nat → State → Ans} {p : Bytes} {s : State} (len : p.length = 1) (l : fld p 0 1 < 16)
    (ses : s.isSession (fld p 0 1) = true) : onSession1 k p s = k (fld p 0 1) s := by
  unfold onSession1
  rw [if_neg (not_not_intro len), onSession_eq l ses]

theorem State.modOut_leaves {α : Type} {s : State} {p q : Nat} {f : Outlet → Outlet} (g : Outlet → α) (e : ∀ o, g (f o) = g o) :
    g ((s.modOut p f).outOf q) = g (s.outOf q) := State.modPt_leaves (fun x => g x.out) fun x => e x.out

theorem State.modSes_leaves {α : Type} {s : State} {p q : Nat} {f : Session → Session} (g : Session → α) (e : ∀ x, g (f x) = g x) :
    g ((s.modSes p f).sesOf q) = g (s.sesOf q) := State.modPt_leaves (fun x => g x.ses) fun x => e x.ses

theorem State.sesOf_congr {s t : State} {q : Nat} (h : t.pts = s.pts) : t.sesOf q = s.sesOf q := congrArg Point.ses (State.pt_congr h)

theorem State.outOf_congr {s t : State} {q : Nat} (h : t.pts = s.pts) : t.outOf q = s.outOf q := congrArg Point.out (State.pt_congr h)

/-! ### A fault acknowledged -/

/-- Of the work of an acknowledged fault before the point returns to IDLE: it is calm, and the outlet's trip is as it says. -/
structure FaultWork (s x : State) (p : Nat) (trip : Bool) : Prop where
  calm : Calm s x
  keeps : Keeps [.clk, .host, .slices, .pts, .sw, .sar] s x
  size : x.pts.length = s.pts.length
  trip : (x.outOf p).trip = trip

theorem FaultWork.trans {s x y : State} {p : Nat} {a b : Bool} (h : FaultWork s x p a) (g : FaultWork x y p b) : FaultWork s y p b :=
  ⟨h.calm.trans g.calm, g.keeps.then rfl h.keeps, g.size.trans h.size, g.trip⟩

/-- A trip acknowledged with quiet paths is released and reported; without one nothing is to be released (log 17). -/
theorem State.ackResidual_released {s : State} {p : Nat} (l : p < s.pts.length)
    (quiet : s.isOutlet p = true → (s.outOf p).trip = true → s.pathsQuiet p = true) :
    ∃ x b, s.ackResidual p = some x ∧ FaultWork s x p b ∧ (s.isOutlet p = true → b = false) := by
  unfold State.ackResidual
  dsimp only
  by_cases tripped : (s.isOutlet p && (s.outOf p).trip) = true
  · obtain ⟨outlet, trip⟩ := Bool.and_eq_true_iff.mp tripped
    rw [if_neg (by rw [tripped]; decide), if_pos (quiet outlet trip)]
    have same : ((s.releaseRcd p).outOf p) = { s.outOf p with trip := false, tripOwed := false } := State.modOut_same l
    have kept : ∀ a b c, ((s.releaseRcd p).rcdEvent p a b c).pts = (s.releaseRcd p).pts :=
      fun _ _ _ => (State.rcdEvent_keeps rfl (Keeps.refl (T := [.host]))).pts rfl
    have released : Calm s (s.releaseRcd p) := ⟨rfl, rfl⟩
    exact ⟨_, false, rfl, ⟨released.trans State.raise_calm, State.rcdEvent_keeps rfl (State.releaseRcd_keeps rfl .refl),
      (congrArg List.length (kept _ _ _)).trans State.modOut_onPoint.size,
      (congrArg Outlet.trip (State.outOf_congr (kept _ _ _))).trans (congrArg Outlet.trip same)⟩, fun _ => rfl⟩
  · rw [if_pos (by rw [Bool.not_eq_true] at tripped; rw [tripped]; rfl)]
    refine ⟨s, (s.outOf p).trip, rfl, ⟨.refl, .refl, rfl, rfl⟩, fun outlet => ?_⟩
    rw [outlet, Bool.true_and, Bool.not_eq_true] at tripped
    exact tripped

theorem State.modOut_faultWork {s : State} {p : Nat} {f : Outlet → Outlet} (e : ∀ o, (f o).trip = o.trip) :
    FaultWork s (s.modOut p f) p (s.outOf p).trip :=
  ⟨State.modPt_calm, State.modOut_keeps rfl .refl, State.modOut_onPoint.size, State.modOut_leaves Outlet.trip e⟩

theorem FaultWork.of_keeps {s x : State} {p : Nat} (k : Keeps [.slices, .sw, .sar] s x) : FaultWork s x p (s.outOf p).trip :=
  ⟨.of_keeps k rfl rfl, k.mono rfl, congrArg List.length (k.pts rfl), congrArg Outlet.trip (State.outOf_congr (k.pts rfl))⟩

/-- Work after other work that leaves the trip. -/
theorem FaultWork.then {s x y : State} {p : Nat} {b : Bool} (h : FaultWork s x p b) (g : FaultWork x y p (x.outOf p).trip) :
    FaultWork s y p b := h.trip ▸ h.trans g

theorem State.ackBackup_work {s : State} {p : Nat} : FaultWork s (s.ackBackup p) p (s.outOf p).trip := by
  have order : FaultWork s (s.release4 (64 + p)) p (s.outOf p).trip := .of_keeps (State.release4_keeps rfl .refl)
  unfold State.ackBackup
  split
  · exact order.then (State.modOut_faultWork fun _ => rfl)
  · exact ⟨.refl, .refl, rfl, rfl⟩

theorem State.endInjection_work {s : State} {p : Nat} : FaultWork s (s.endInjection p) p (s.outOf p).trip := by
  have freed : ∀ c (f : Slice → Slice) g, FaultWork s ((s.modSlice c f).modConv 3 g) p (s.outOf p).trip := fun _ _ _ =>
    .of_keeps (State.modConv_keeps rfl (State.modSlice_keeps rfl .refl))
  have closed : ∀ (x : State) n f, FaultWork x (x.modSwch n f) p (x.outOf p).trip := fun _ _ _ => .of_keeps (State.modSwch_keeps rfl .refl)
  have ended := fun c f g => (freed c f g).then (State.modOut_faultWork (f := fun o => { o with testDue := none }) fun _ => rfl)
  unfold State.endInjection
  dsimp only
  split
  · split
    · exact ended _ _ _
    · exact (ended _ _ _).then (closed _ _ _)
  · exact ⟨.refl, .refl, rfl, rfl⟩

theorem State.dropTest_work {s : State} {p : Nat} : FaultWork s (s.dropTest p) p (s.outOf p).trip := by
  have dropped : ∀ x : State, FaultWork s x p (s.outOf p).trip →
      FaultWork s (x.modOut p (fun o => { o with test := 0, testSlices := [], testDue := none })) p (s.outOf p).trip := fun _ w =>
    w.then (State.modOut_faultWork fun _ => rfl)
  unfold State.dropTest
  dsimp only
  split
  · exact dropped _ State.endInjection_work
  · exact dropped _ ⟨.refl, .refl, rfl, rfl⟩

/-- An outlet's pilot is decoded afresh from A. -/
theorem State.freshPilot_work {s : State} {p : Nat} (l : p < s.pts.length) : FaultWork s (s.freshPilot p) p (s.outOf p).trip ∧
    (s.isOutlet p = true → ((s.freshPilot p).outOf p).code = 0) := by
  have w : FaultWork s (s.dropTest p) p (s.outOf p).trip := State.dropTest_work
  unfold State.freshPilot
  split
  · have same : ∀ f, ((s.dropTest p).modOut p f).outOf p = f ((s.dropTest p).outOf p) := fun _ => State.modOut_same (w.size.symm ▸ l)
    exact ⟨w.then (State.modOut_faultWork fun _ => rfl), fun _ => congrArg Outlet.code (same _)⟩
  · exact ⟨⟨.refl, .refl, rfl, rfl⟩, fun o => absurd o ‹_›⟩

/-- A fault acknowledged: the point is in IDLE, an outlet's pilot is decoded afresh and its trip released. -/
structure FaultCleared (s x : State) (p : Nat) : Prop where
  calm : Calm s x
  keeps : Keeps [.clk, .host, .slices, .pts, .sw, .sar] s x
  state : (x.sesOf p).state = .idle
  outlet : s.isOutlet p = true → (x.outOf p).code = 0 ∧ (x.outOf p).trip = false

theorem serveFaultAcknowledge_clears {s : State} {p : Bytes} (np : s.pts.length = 16) (len : p.length = 1) (l : fld p 0 1 < 16)
    (ses : s.isSession (fld p 0 1) = true) (st : (s.sesOf (fld p 0 1)).state = .fault) (done : (s.sesOf (fld p 0 1)).endDone = true)
    (gone : s.faultGone (fld p 0 1) (s.sesOf (fld p 0 1)).faultCause = true)
    (quiet : s.isOutlet (fld p 0 1) = true → (s.outOf (fld p 0 1)).trip = true → s.pathsQuiet (fld p 0 1) = true) :
    ∃ x, serveFaultAcknowledge p s = okS x ∧ FaultCleared s x (fld p 0 1) := by
  obtain ⟨x, b, e, w, off⟩ := State.ackResidual_released (np.symm ▸ l) quiet
  have backed := w.trans (State.ackBackup_work (s := x))
  rw [w.trip] at backed
  obtain ⟨f, fresh⟩ := State.freshPilot_work (s := x.ackBackup (fld p 0 1)) (p := fld p 0 1) (by rw [backed.size, np]; exact l)
  rw [backed.trip] at f
  have all := backed.trans f
  have outlet : (x.ackBackup (fld p 0 1)).isOutlet (fld p 0 1) = s.isOutlet (fld p 0 1) := State.isOutlet_congr (backed.keeps.par rfl)
  refine ⟨((x.ackBackup (fld p 0 1)).freshPilot (fld p 0 1)).backToIdle (fld p 0 1) 0, ?_, all.calm.trans State.backToIdle_calm,
    State.backToIdle_keeps rfl all.keeps, ?_, fun o => ⟨?_, ?_⟩⟩
  · refine (onSession1_eq len l ses).trans ?_
    dsimp only
    rw [if_pos ⟨st, done, gone⟩, e]
  · exact congrArg Session.state (State.backToIdle_ses (by rw [all.size, np]; exact l))
  · exact (State.backToIdle_out Outlet.code fun _ _ _ => rfl).trans (fresh (outlet.trans o))
  · exact (State.backToIdle_out Outlet.trip fun _ _ _ => rfl).trans (all.trip.trans (off o))

/-! ### A session authorised -/

/-- What an authorisation sets of a session, and later work on it leaves (09 R230, R232). -/
def Session.terms (x : Session) : Nat × Nat × Bytes × Nat × Nat := (x.number, x.nextNumber, x.reference, x.preset, x.credit)

/-- Of a session authorised: it is in AUTHORISED under the next number, with the terms sent. -/
structure Authorised (s x : State) (q : Nat) (reference : Bytes) (preset credit : Nat) : Prop where
  calm : Calm s x
  keeps : Keeps [.clk, .host, .par, .pts, .led, .plc] s x
  state : (x.sesOf q).state = .authorised
  terms : (x.sesOf q).terms = ((s.sesOf q).nextNumber, (s.sesOf q).nextNumber + 1, padTo 16 reference, preset, credit)

theorem State.raise_pts {s : State} {ev sub : Nat} {b : Bytes} : (s.raise ev sub b).pts = s.pts := rfl

theorem State.raise_ses {s : State} {ev sub q : Nat} {b : Bytes} : (s.raise ev sub b).sesOf q = s.sesOf q := rfl

theorem State.linkDown_calm {s : State} {p c : Nat} : Calm s (s.linkDown p c) :=
  .ite (Calm.trans (x := State.modOut (s.modPlcPort p _) p _) ⟨rfl, rfl⟩ State.raiseMid_calm) .refl

theorem State.linkDown_ses {s : State} {p c q : Nat} : (s.linkDown p c).sesOf q = s.sesOf q := by
  have raised : ∀ (x : State) a b, (x.linkEvent p a b).sesOf q = x.sesOf q := fun _ _ _ =>
    State.sesOf_congr ((State.linkEvent_keeps rfl (Keeps.refl (T := [.host]))).pts rfl)
  unfold State.linkDown
  split
  · exact (raised _ _ _).trans State.modOut_ses
  · rfl

theorem State.linkDown_size {s : State} {p c : Nat} : (s.linkDown p c).pts.length = s.pts.length := by
  have raised : ∀ (x : State) a b, (x.linkEvent p a b).pts = x.pts := fun _ _ _ =>
    (State.linkEvent_keeps rfl (Keeps.refl (T := [.host]))).pts rfl
  unfold State.linkDown
  split
  · exact (congrArg List.length (raised _ _ _)).trans State.modOut_onPoint.size
  · rfl

/-- The session key made, or none: the session's terms stand. -/
theorem State.makeSessionKey_terms {s : State} {p q : Nat} : ((s.makeSessionKey p).sesOf q).terms = (s.sesOf q).terms ∧
    (s.makeSessionKey p).pts.length = s.pts.length ∧ Calm s (s.makeSessionKey p) := by
  have none' : ∀ x : State, ((x.modSes p (fun y => { y with key := none })).sesOf q).terms = (x.sesOf q).terms ∧
      (x.modSes p (fun y => { y with key := none })).pts.length = x.pts.length ∧ Calm x (x.modSes p (fun y => { y with key := none })) :=
    fun _ => ⟨State.modSes_leaves Session.terms fun _ => rfl, State.modSes_onPoint.size, ⟨rfl, rfl⟩⟩
  have made : ∀ (x : State) k g c d,
      (((x.modSes p (fun y => { y with key := some k, keyGen := g, certs := (c :: y.certs).take 5 })).raise 50 0 d).sesOf q).terms =
        (x.sesOf q).terms ∧
      ((x.modSes p (fun y => { y with key := some k, keyGen := g, certs := (c :: y.certs).take 5 })).raise 50 0 d).pts.length = x.pts.length ∧
      Calm x ((x.modSes p (fun y => { y with key := some k, keyGen := g, certs := (c :: y.certs).take 5 })).raise 50 0 d) :=
    fun x k g c d => ⟨(congrArg Session.terms State.raise_ses).trans (State.modSes_leaves Session.terms fun _ => rfl),
      (congrArg List.length State.raise_pts).trans State.modSes_onPoint.size, rfl, rfl⟩
  unfold State.makeSessionKey
  dsimp only
  split
  · exact none' s
  · split
    · obtain ⟨terms, size, calm⟩ := made s.bump _ _ _ _
      exact ⟨terms, size, State.bump_calm.trans calm⟩
    · exact none' s

theorem State.linkIdle_ses {s : State} {p q : Nat} : (s.linkIdle p).sesOf q = s.sesOf q := by
  unfold State.linkIdle
  split
  · rfl
  · exact State.linkDown_ses (s := s) (p := p) (c := 3)

theorem State.linkIdle_size {s : State} {p : Nat} : (s.linkIdle p).pts.length = s.pts.length := by
  unfold State.linkIdle
  split
  · rfl
  · exact State.linkDown_size (s := s) (p := p) (c := 3)

theorem State.linkIdle_calm {s : State} {p : Nat} : Calm s (s.linkIdle p) := by
  have port : ∀ (x : State) f, Calm x (x.modPlcPort p f) := fun _ _ => ⟨rfl, rfl⟩
  exact .ite .refl (State.linkDown_calm.trans (port _ _))

/-- A session number that sticks is noted with its report: the session's terms stand. -/
def State.stickNumber (s : State) (p : Nat) (last : Bool) : State :=
  if last then (s.modSes p (fun x => { x with stuck := true })).raiseRaw 18 ([byteOf p, 4, 0xFF, 0] ++ zeros 4 ++ le 8 s.frm) else s

theorem State.stickNumber_terms {s : State} {p q : Nat} {last : Bool} : ((s.stickNumber p last).sesOf q).terms = (s.sesOf q).terms ∧
    (s.stickNumber p last).pts.length = s.pts.length ∧ Calm s (s.stickNumber p last) := by
  have raised : ∀ (x : State) d, (x.raiseRaw 18 d).pts = x.pts := fun _ _ => rfl
  unfold State.stickNumber
  split
  · exact ⟨(congrArg Session.terms (State.sesOf_congr (raised _ _))).trans (State.modSes_leaves Session.terms fun _ => rfl),
      (congrArg List.length (raised _ _)).trans State.modSes_onPoint.size, rfl, rfl⟩
  · exact ⟨rfl, rfl, .refl⟩

theorem State.authorise_eq {s : State} {p by' preset credit : Nat} {reference : Bytes} {prices : Option (List Nat)} :
    ∃ f : Session → Session, (∀ x, (f x).terms = (((s.applyNextSession p).linkIdle p).sesOf p |>.nextNumber,
        (((s.applyNextSession p).linkIdle p).sesOf p).nextNumber + 1, padTo 16 reference, preset, credit)) ∧
      s.authorise p reference preset credit prices by' =
        ((((((s.applyNextSession p).linkIdle p).modSes p f).writeLine).stickNumber p
          (decide ((((s.applyNextSession p).linkIdle p).sesOf p).nextNumber + 1 = 2 ^ 32 - 1))).makeSessionKey p).enterState p .authorised 0 := by
  unfold State.authorise State.stickNumber
  simp only [decide_eq_true_eq]
  exact ⟨_, fun _ => rfl, rfl⟩

theorem State.authorise_session {s : State} {p by' preset credit : Nat} {reference : Bytes} {prices : Option (List Nat)}
    (l : p < s.pts.length) : Authorised s (s.authorise p reference preset credit prices by') p reference preset credit := by
  obtain ⟨f, terms, e⟩ := State.authorise_eq (s := s) (p := p) (by' := by') (preset := preset) (credit := credit) (reference := reference)
    (prices := prices)
  have ready : ((s.applyNextSession p).linkIdle p).sesOf p = s.sesOf p := State.linkIdle_ses.trans rfl
  have size : ((s.applyNextSession p).linkIdle p).pts.length = s.pts.length := State.linkIdle_size.trans rfl
  rw [ready] at terms e
  have calm : Calm s ((s.applyNextSession p).linkIdle p) := Calm.trans (x := s.applyNextSession p) ⟨rfl, rfl⟩ State.linkIdle_calm
  generalize (s.applyNextSession p).linkIdle p = y at ready size terms e calm
  have set : ((y.modSes p f).writeLine).sesOf p = f (s.sesOf p) := (State.modSes_same (size.symm ▸ l)).trans (congrArg f ready)
  have setSize : ((y.modSes p f).writeLine).pts.length = s.pts.length := (State.modSes_onPoint (p := p)).size.trans size
  have setCalm : Calm s ((y.modSes p f).writeLine) := calm.trans ⟨rfl, rfl⟩
  obtain ⟨stuck, stuckSize, stuckCalm⟩ := State.stickNumber_terms (s := (y.modSes p f).writeLine) (p := p) (q := p)
    (last := decide ((s.sesOf p).nextNumber + 1 = 2 ^ 32 - 1))
  obtain ⟨made, madeSize, madeCalm⟩ := State.makeSessionKey_terms (p := p) (q := p)
    (s := ((y.modSes p f).writeLine).stickNumber p (decide ((s.sesOf p).nextNumber + 1 = 2 ^ 32 - 1)))
  have last := State.enterState_ses (p := p) (c := 0) (n := .authorised) (madeSize.trans (stuckSize.trans setSize) ▸ l)
  refine ⟨?_, State.authorise_keeps rfl .refl, ?_, ?_⟩
  · rw [e]
    exact ((setCalm.trans stuckCalm).trans madeCalm).trans State.enterState_quiet.calm
  · rw [e]
    exact congrArg Session.state last
  · rw [e]
    refine (congrArg Session.terms last).trans (made.trans (stuck.trans ?_))
    rw [set, terms]

theorem serveSessionAuthorise_takes {s : State} {p : Bytes} (np : s.pts.length = 16) (len : p.length = 36) (plain : fld p 1 1 = 0)
    (l : fld p 0 1 < 16) (ses : s.isSession (fld p 0 1) = true)
    (st : (s.sesOf (fld p 0 1)).state = .idle ∨ (s.sesOf (fld p 0 1)).state = .authorising) (may : s.mayAuthorise (fld p 0 1) = 0) :
    ∃ x, serveSessionAuthorise p s = okB x (le 4 (s.sesOf (fld p 0 1)).nextNumber) ∧
      Authorised s x (fld p 0 1) (slice p 4 16) (fld p 20 8) (fld p 28 8) := by
  have a : Authorised s (s.authorise (fld p 0 1) (slice p 4 16) (fld p 20 8) (fld p 28 8) none 0) (fld p 0 1) (slice p 4 16) (fld p 20 8)
    (fld p 28 8) := State.authorise_session (np.symm ▸ l)
  have own : ∀ x : State, (x.modOut (fld p 0 1) (fun o => { o with contract := none })).sesOf (fld p 0 1) = x.sesOf (fld p 0 1) :=
    fun _ => State.modOut_ses
  have priced : (fld p 1 1).testBit 0 = false := by rw [plain]; decide
  have waits : ¬ ((s.sesOf (fld p 0 1)).state ≠ .idle ∧ (s.sesOf (fld p 0 1)).state ≠ .authorising) := fun ⟨i, j⟩ => st.elim i j
  refine ⟨(s.authorise (fld p 0 1) (slice p 4 16) (fld p 20 8) (fld p 28 8) none 0).modOut (fld p 0 1) (fun o => { o with contract := none }),
    ?_, a.calm.trans State.modPt_calm, State.modOut_keeps rfl a.keeps, (congrArg Session.state (own _)).trans a.state,
    (congrArg Session.terms (own _)).trans a.terms⟩
  unfold serveSessionAuthorise
  dsimp only
  rw [priced, if_neg (by rw [len]; decide), onSession_eq l ses, if_neg (by omega), if_neg waits, if_neg (not_not_intro may), if_neg Bool.false_ne_true]
  exact congrArg (okB _) (congrArg (le 4) (congrArg (fun x : Nat × Nat × Bytes × Nat × Nat => x.1) a.terms))

theorem serveSessionModify_holds {s : State} {p : Bytes} (len : p.length = 20) (both : fld p 1 1 = 3) (l : fld p 0 1 < 16)
    (ses : s.isSession (fld p 0 1) = true) (st : (s.sesOf (fld p 0 1)).state = .transferring) :
    serveSessionModify p s = okS (s.modSes (fld p 0 1) (fun x => { x with modify := some (some (fld p 4 8), some (fld p 12 8)) })) := by
  have b0 : (fld p 1 1).testBit 0 = true := by rw [both]; decide
  have b1 : (fld p 1 1).testBit 1 = true := by rw [both]; decide
  unfold serveSessionModify
  rw [if_neg (not_not_intro len), onSession_eq l ses]
  dsimp only
  rw [if_neg (by omega), if_pos (.inr (.inl st)), b0, b1, if_pos rfl, if_pos rfl]

end Sys2Proof.Machine

open Sys2Proof Sys2Proof.Machine

/-- Settles O5: the state each command asks for and the one it enters, a cause noted, a fault cleared, and a session authorised. -/
theorem sessionCommandsAnswer : Obligations.SessionCommandsAnswer := by
  intro s h p q snd eq lq ses
  subst eq
  have pts : ∀ c, (s.accept c h p).pts = s.pts := fun _ => State.accept_keeps.pts rfl
  have own : ∀ c, (s.accept c h p).sesOf (fld p 0 1) = s.sesOf (fld p 0 1) := fun c => State.sesOf_congr (pts c)
  have on : ∀ c, (s.accept c h p).isSession (fld p 0 1) = true := fun _ => (State.isSession_congr (State.accept_keeps.par rfl)).trans ses
  have sized : ∀ c, (s.accept c h p).pts.length = 16 := fun c => (pts c).symm ▸ snd.pts
  have lp : ∀ c, fld p 0 1 < (s.accept c h p).pts.length := fun c => (sized c).symm ▸ lq
  have same : ∀ {x t : State}, Served s x t h → t.sesOf (fld p 0 1) = x.sesOf (fld p 0 1) :=
    fun v => State.sesOf_congr (v.after.pts rfl)
  refine ⟨fun tk len st svc sto => ?request, fun tk len st => ?reject, fun tk len st => ?cancel, fun tk len st => ?stop,
    fun tk len st => ?revoke, fun tk len st done gone quiet => ?fault, fun tk len plain st may => ?authorise,
    fun tk len both st => ?modify, fun tk len => ?status⟩
  case request =>
    have g : serveSessionRequest p (s.accept 0x0301 h p) = okS ((s.accept 0x0301 h p).enterState (fld p 0 1) .authorising 0) :=
      (onSession1_eq len lq (on _)).trans (if_pos ⟨(congrArg Session.state (own _)).trans st,
        (congrArg Point.outService (State.pt_congr (pts _))).trans svc, sto⟩)
    have ses' := State.enterState_ses (c := 0) (n := .authorising) (lp 0x0301)
    obtain ⟨t, e, a, v, after, -⟩ := taken_serves (serve := serveSessionRequest) (T := [.pts]) tk snd g State.enterState_quiet.calm
      (State.enterState_keeps rfl .refl)
    have ent := (same after).trans ses'
    exact ⟨t, e, a, congrArg Session.state ent, congrArg Session.since ent, congrArg Session.entry ent, v⟩
  case reject =>
    have g : serveSessionReject p (s.accept 0x0302 h p) = okS ((s.accept 0x0302 h p).backToIdle (fld p 0 1) 0) :=
      (onSession1_eq len lq (on _)).trans (if_pos ((congrArg Session.state (own _)).trans st))
    obtain ⟨t, e, a, v, after, -⟩ := taken_serves (serve := serveSessionReject) (T := [.pts]) tk snd g State.backToIdle_calm
      (State.backToIdle_keeps rfl .refl)
    have ent := (same after).trans (State.backToIdle_ses (c := 0) (lp 0x0302))
    exact ⟨t, e, a, congrArg Session.state ent, congrArg Session.since ent, congrArg Session.key ent, v⟩
  case cancel =>
    have g : serveSessionCancel p (s.accept 0x0303 h p) = okS ((s.accept 0x0303 h p).backToIdle (fld p 0 1) 0) :=
      (onSession1_eq len lq (on _)).trans (if_pos ((congrArg Session.state (own _)).trans st))
    obtain ⟨t, e, a, v, after, -⟩ := taken_serves (serve := serveSessionCancel) (T := [.pts]) tk snd g State.backToIdle_calm
      (State.backToIdle_keeps rfl .refl)
    have ent := (same after).trans (State.backToIdle_ses (c := 0) (lp 0x0303))
    exact ⟨t, e, a, congrArg Session.state ent, congrArg Session.since ent, congrArg Session.key ent, congrArg Session.present ent, v⟩
  case stop =>
    have g : serveSessionStop p (s.accept 0x0304 h p) = okS ((s.accept 0x0304 h p).addCause (fld p 0 1) 1) :=
      (onSession1_eq len lq (on _)).trans (if_pos ((congrArg Session.state (own _)).trans st))
    obtain ⟨t, e, a, v, after, -⟩ := taken_serves (serve := serveSessionStop) (T := [.pts]) tk snd g State.addCause_calm
      (State.addCause_keeps rfl .refl)
    exact ⟨t, e, a, (congrArg Session.causes (same after)).symm ▸ State.addCause_noted (lp 0x0304) (on _), v⟩
  case revoke =>
    have g : serveSessionRevoke p (s.accept 0x0305 h p) = okS ((s.accept 0x0305 h p).addCause (fld p 0 1) 6) :=
      (onSession1_eq len lq (on _)).trans (if_pos ((congrArg Session.state (own _)).trans st))
    obtain ⟨t, e, a, v, after, -⟩ := taken_serves (serve := serveSessionRevoke) (T := [.pts]) tk snd g State.addCause_calm
      (State.addCause_keeps rfl .refl)
    exact ⟨t, e, a, (congrArg Session.causes (same after)).symm ▸ State.addCause_noted (lp 0x0305) (on _), v⟩
  case fault =>
    obtain ⟨H, -, acc⟩ := State.accept_host (s := s) (code := 0x0306) (h := h) (p := p)
    have outlet : (s.accept 0x0306 h p).isOutlet (fld p 0 1) = s.isOutlet (fld p 0 1) := State.isOutlet_congr (State.accept_keeps.par rfl)
    have g : (s.accept 0x0306 h p).faultGone (fld p 0 1) ((s.accept 0x0306 h p).sesOf (fld p 0 1)).faultCause = true := by
      rw [acc]
      exact gone
    have still : (s.accept 0x0306 h p).pathsQuiet (fld p 0 1) = s.pathsQuiet (fld p 0 1) := by
      rw [acc]
      rfl
    obtain ⟨x, g, f⟩ := serveFaultAcknowledge_clears (s := s.accept 0x0306 h p) (sized _) len lq (on _)
      ((congrArg Session.state (own _)).trans st) ((congrArg Session.endDone (own _)).trans done) g
      (fun o trip => still.trans (quiet (outlet.symm.trans o) ((congrArg Outlet.trip (State.outOf_congr (pts _))).symm.trans trip)))
    obtain ⟨t, e, a, v, after, -⟩ := taken_serves (serve := serveFaultAcknowledge) (T := [.slices, .pts, .sw, .sar]) tk snd g f.calm f.keeps
    refine ⟨t, e, a, (congrArg Session.state (same after)).trans f.state, fun o => ?_, v⟩
    rw [State.outOf_congr (after.after.pts rfl)]
    exact f.outlet (outlet.trans o)
  case authorise =>
    have may' : (s.accept 0x0307 h p).mayAuthorise (fld p 0 1) = 0 := by
      obtain ⟨H, -, acc⟩ := State.accept_host (s := s) (code := 0x0307) (h := h) (p := p)
      rw [acc]
      exact may
    obtain ⟨x, g, f⟩ := serveSessionAuthorise_takes (s := s.accept 0x0307 h p) (sized _) len plain lq (on _) ((own _).symm ▸ st) may'
    have terms := f.terms
    rw [own] at g terms
    obtain ⟨t, e, a, v, after, -⟩ := taken_serves (serve := serveSessionAuthorise) (T := [.par, .pts, .led, .plc]) tk snd g f.calm f.keeps
    have held := (congrArg Session.terms (same after)).trans terms
    simp only [Session.terms, Prod.mk.injEq] at held
    obtain ⟨number, next, reference, preset, credit⟩ := held
    exact ⟨t, e, a, (congrArg Session.state (same after)).trans f.state, number, next, reference, preset, credit, v⟩
  case modify =>
    have g := serveSessionModify_holds (s := s.accept 0x0308 h p) len both lq (on _) ((congrArg Session.state (own _)).trans st)
    obtain ⟨t, e, a, v, after, -⟩ := taken_serves (serve := serveSessionModify) (T := [.pts]) tk snd g ⟨rfl, rfl⟩ (State.modSes_keeps rfl .refl)
    have held := (same after).trans (State.modSes_same (lp 0x0308))
    exact ⟨t, e, a, congrArg Session.modify held, (congrArg Session.preset held).trans
      (congrArg Session.preset (own 0x0308) : ((s.accept 0x0308 h p).sesOf (fld p 0 1)).preset = _), v⟩
  case status =>
    have g := onSession1_eq (k := fun q s =>
      let x := s.sesOf q
      okB s ([byteOf (sesCode x.state), byteOf x.stopCause, byteOf x.endCause, byteOf x.authBy] ++ le 4 x.number ++ le 8 x.sFrame ++
        le 8 (min (s.sesQuantity q) (2 ^ 64 - 1)) ++ le 8 (min (costOf (s.sesSum q) (priceUnits (s.ptType q))) (2 ^ 64 - 1)) ++
        le 4 x.counted ++ le 2 x.currency ++ padTo 16 x.reference)) len lq (on 0x0309)
    obtain ⟨t, e, a, ro⟩ := taken_reads (serve := serveSessionStatus) tk snd g
    refine ⟨t, e, ?_, ro⟩
    obtain ⟨H, -, acc⟩ := State.accept_host (s := s) (code := 0x0309) (h := h) (p := p)
    rw [acc] at a
    exact a
end

section
/-!
The protection of the load switches: limits, overloads, thermal latches, retries and open loads (14 R340–R345).
-/

namespace Sys2Proof.Machine

/-! ### Work on one channel -/

/-- Of work on one channel: what it stands at, and that every other channel stays. -/
structure ChannelNow (s t : State) (n : Nat) (c : SwCh) : Prop where
  own : t.swch n = c
  others : ∀ m, m ≠ n → t.swch m = s.swch m

theorem State.modSwch_now {s : State} {n : Nat} {f : SwCh → SwCh} (snd : Sound s) (l : n < 32) :
    ChannelNow s (s.modSwch n f) n (f (s.swch n)) :=
  ⟨State.modSwch_same (snd.switches.symm ▸ l), fun _ ne => State.modSwch_other (Ne.symm ne)⟩

theorem ChannelNow.congr {s t x : State} {n : Nat} {c : SwCh} (h : ChannelNow s t n c) (e : x.sw = t.sw) : ChannelNow s x n c :=
  ⟨(State.swch_congr e).trans h.own, fun m ne => (State.swch_congr e).trans (h.others m ne)⟩

theorem State.swEvent_sw {s : State} {ev n k : Nat} : (s.swEvent ev n k).sw = s.sw :=
  (State.swEvent_keeps rfl (Keeps.refl (T := [.host]))).sw rfl

theorem State.swEvent_raised {s : State} {ev n k : Nat} (snd : Sound s) (l : ev < 64) :
    Raised (s.swEvent ev n k) ev [byteOf n, byteOf (n / 2), byteOf k] :=
  State.raise_raised snd.host.queues l (by simp) (by simp)

theorem State.switchFault_keeps_pts {s : State} {n : Nat} : Keeps [.pts] s (s.switchFault n) := State.switchFault_keeps rfl .refl

/-- A fault of a path switch is a cause of its point. -/
theorem State.switchFault_noted {s : State} {n : Nat} (l : n / 2 < s.pts.length) (path : n ∈ s.pathSwitches (n / 2))
    (ses : s.isSession (n / 2) = true) : 18 ∈ ((s.switchFault n).sesOf (n / 2)).causes := by
  unfold State.switchFault
  rw [if_pos (List.contains_iff_mem.mpr path)]
  exact State.addCause_noted l ses

/-- A change of one channel, reported and, of a path switch, noted for its point. -/
def State.channelFault (s : State) (n ev k : Nat) (f : SwCh → SwCh) : State := ((s.modSwch n f).swEvent ev n k).switchFault n

theorem State.pathSwitches_congr {s t : State} {p : Nat} (h : t.par = s.par) : t.pathSwitches p = s.pathSwitches p := by
  unfold State.pathSwitches State.contactor
  rw [State.isOutlet_congr h, State.ptType_congr h]
  simp only [State.pn_congr h]

/-- A channel's fault taken: the channel, its report, and its point's cause. -/
structure ChannelFault (s t : State) (n ev k : Nat) (c : SwCh) : Prop where
  now : ChannelNow s t n c
  raised : Raised t ev [byteOf n, byteOf (n / 2), byteOf k]
  noted : n ∈ s.pathSwitches (n / 2) → s.isSession (n / 2) = true → 18 ∈ (t.sesOf (n / 2)).causes
  keeps : Keeps [.clk, .host, .pts, .sw] s t

theorem State.channelFault_taken {s : State} {n ev k : Nat} {f : SwCh → SwCh} (snd : Sound s) (l : n < 32) (le : ev < 64) :
    ChannelFault s (s.channelFault n ev k f) n ev k (f (s.swch n)) := by
  have event : Keeps [.host, .sw] s ((s.modSwch n f).swEvent ev n k) := State.swEvent_keeps rfl (State.modSwch_keeps rfl .refl)
  have fault : Keeps [.pts] ((s.modSwch n f).swEvent ev n k) (s.channelFault n ev k f) := State.switchFault_keeps_pts
  refine ⟨(State.modSwch_now snd l).congr ((fault.sw rfl).trans State.swEvent_sw),
    .congr (fault.host rfl) (State.swEvent_raised (State.modSwch_sound snd) le), fun path ses => ?_,
    fault.then rfl (event.mono rfl)⟩
  exact State.switchFault_noted (by rw [event.pts rfl, snd.pts]; omega) ((State.pathSwitches_congr (event.par rfl)).symm ▸ path)
    ((State.isSession_congr (event.par rfl)).trans ses)

/-- A change of one channel with its report. -/
structure ChannelReport (s t : State) (n ev k : Nat) (c : SwCh) : Prop where
  now : ChannelNow s t n c
  raised : Raised t ev [byteOf n, byteOf (n / 2), byteOf k]
  keeps : Keeps [.clk, .host, .sw] s t

theorem State.channelReport_taken {s : State} {n ev k : Nat} {f : SwCh → SwCh} (snd : Sound s) (l : n < 32) (le : ev < 64) :
    ChannelReport s ((s.modSwch n f).swEvent ev n k) n ev k (f (s.swch n)) :=
  ⟨(State.modSwch_now snd l).congr State.swEvent_sw, State.swEvent_raised (State.modSwch_sound snd) le,
    State.swEvent_keeps rfl (State.modSwch_keeps rfl .refl)⟩

/-- A report after elapsed time moved. -/
theorem ChannelReport.at {s t : State} {u n ev k : Nat} {c : SwCh} (h : ChannelReport (s.at u) t n ev k c) : ChannelReport s t n ev k c :=
  ⟨⟨h.now.own, h.now.others⟩, h.raised, h.keeps.then rfl (State.at_keeps rfl .refl)⟩

theorem ChannelFault.at {s t : State} {u n ev k : Nat} {c : SwCh} (h : ChannelFault (s.at u) t n ev k c) : ChannelFault s t n ev k c :=
  ⟨⟨h.now.own, h.now.others⟩, h.raised, h.noted, h.keeps.then rfl (State.at_keeps rfl .refl)⟩

/-! ### The events -/

theorem execSwitchCurrentLimit_reached {s : State} {u n mA : Nat} (p : s.sw.powered = true) (on : (s.swch n).on = true) :
    execSwitchCurrentLimit u n true mA s = .next ((s.at u).modSwch n (fun c => { c with
      limiting := true, mA := mA, onSince := none
      ovlDue := if s.safeOn n then none
        else if c.limiting then c.ovlDue else some (u + s.pn (PT_SW_OVL_TIME_0 + n % 2) (n / 2) * 1000000) })) :=
  (if_neg (by rw [show (s.at u).sw.powered = true from p, show ((s.at u).swch n).on = true from on]; decide)).trans (if_pos rfl)

theorem execSwitchCurrentLimit_left {s : State} {u n mA : Nat} (p : s.sw.powered = true) (on : (s.swch n).on = true) :
    execSwitchCurrentLimit u n false mA s = .next ((s.at u).modSwch n (fun c => { c with
      limiting := false, mA := mA, ovlDue := none, onSince := some u })) :=
  (if_neg (by rw [show (s.at u).sw.powered = true from p, show ((s.at u).swch n).on = true from on]; decide)).trans
    (if_neg Bool.false_ne_true)

theorem execOverloadTimeout_due {s : State} {u n d : Nat} (p : s.sw.powered = true) (lim : (s.swch n).limiting = true)
    (e : (s.swch n).ovlDue = some d) (le : d ≤ u) (off : s.safeOn n = false) :
    execOverloadTimeout u n s = .next ((s.at u).channelFault n 34 0 (fun c => { (c.setOut u false) with
      ovl := true, retryDue := some (u + s.pn (PT_SW_RETRY_DELAY_0 + n % 2) (n / 2) * 1000000) })) := by
  refine if_pos ?_
  rw [show (s.at u).sw.powered = true from p, show ((s.at u).swch n).limiting = true from lim,
    show ((s.at u).swch n).ovlDue = some d from e, show (s.at u).safeOn n = false from off, Bool.and_eq_true]
  exact ⟨decide_eq_true le, rfl⟩

theorem execThermalLatch_safeOff {s : State} {u n : Nat} {tj : Int} (p : s.sw.powered = true) (cool : (s.swch n).therm = false)
    (hot : 1700 ≤ tj) (off : s.safeOn n = false) :
    execThermalLatch u n tj s = .next ((s.at u).channelFault n 35 0 (fun c => { (c.setOut u false) with
      therm := true, tj := tj, retryDue := none })) := by
  refine (if_neg ?_).trans (if_neg ?_)
  · rw [show (s.at u).sw.powered = true from p, show ((s.at u).swch n).therm = false from cool, decide_eq_false (by omega)]
    decide
  · rw [show ((s.at u).safeOn n) = false from off]
    exact Bool.false_ne_true

theorem execThermalLatch_safeOn {s : State} {u n : Nat} {tj : Int} (p : s.sw.powered = true) (cool : (s.swch n).therm = false)
    (hot : 1700 ≤ tj) (on : s.safeOn n = true) :
    execThermalLatch u n tj s = .next (((s.at u).modSwch n (fun c => { c with regulating := true, tj := tj, onSince := none })).swEvent
      35 n 2) := by
  refine (if_neg ?_).trans (if_pos on)
  rw [show (s.at u).sw.powered = true from p, show ((s.at u).swch n).therm = false from cool, decide_eq_false (by omega)]
  decide

theorem State.retry_left {s : State} {n : Nat} (left : 0 < (s.swch n).retries) : s.retry n =
    (s.modSwch n (fun c => { c with retries := c.retries - 1, ovl := false, retryDue := none, reapply := true })).swEvent 34 n 2 := if_pos left

theorem State.retry_none {s : State} {n : Nat} (none' : (s.swch n).retries = 0) : s.retry n =
    (s.modSwch n (fun c => { c with exhausted := true, retryDue := none })).swEvent 34 n 1 := if_neg (by omega)

theorem execThermalRelease_latched {s : State} {u n : Nat} {tj : Int} (cool : tj ≤ 1650) (reg : (s.swch n).regulating = false)
    (hot : (s.swch n).therm = true) (free : (s.swch n).fsHold = false) : execThermalRelease u n tj s =
      .next ((((s.at u).modSwch n (fun c => { c with therm := false, tj := tj })).swEvent 35 n 1).retry n) := by
  refine (if_neg (by omega)).trans ((if_neg ?_).trans ((if_neg ?_).trans (if_neg ?_)))
  · rw [show ((s.at u).swch n).regulating = false from reg]
    exact Bool.false_ne_true
  · rw [show ((s.at u).swch n).therm = true from hot]
    exact Bool.false_ne_true
  · rw [show ((s.at u).swch n).fsHold = false from free]
    exact Bool.false_ne_true

theorem execRetryDelayExpiry_due {s : State} {u n d : Nat} (e : (s.swch n).retryDue = some d) (le : d ≤ u)
    (free : (s.swch n).fsHold = false) (cool : (s.swch n).therm = false) : execRetryDelayExpiry u n s = .next ((s.at u).retry n) := by
  refine if_pos ?_
  rw [show ((s.at u).swch n).retryDue = some d from e, show ((s.at u).swch n).fsHold = false from free,
    show ((s.at u).swch n).therm = false from cool, Bool.and_eq_true, Bool.and_eq_true]
  exact ⟨⟨decide_eq_true le, rfl⟩, rfl⟩

theorem execRetryCounterReload_due {s : State} {u n a : Nat} (e : (s.swch n).onSince = some a) (le : a + 10000000000 ≤ u)
    (on : (s.swch n).on = true) (cool : (s.swch n).therm = false) : execRetryCounterReload u n s =
      .next ((s.at u).modSwch n (fun c => { c with retries := s.pn (PT_SW_RETRIES_0 + n % 2) (n / 2) })) := by
  refine if_pos ?_
  rw [show ((s.at u).swch n).onSince = some a from e, show ((s.at u).swch n).on = true from on,
    show ((s.at u).swch n).therm = false from cool, Bool.and_eq_true, Bool.and_eq_true]
  exact ⟨⟨decide_eq_true le, rfl⟩, rfl⟩

theorem State.openLoadDue_holds {s : State} {n since u : Nat} (p : s.sw.powered = true) (off : (s.swch n).on = false)
    (ty : s.ptType (n / 2) ≠ 0) (en : (s.pn PT_SW_OL_ENABLE (n / 2)).testBit (n % 2) = true) (quiet : (s.swch n).offAt + 2000000 ≤ since)
    (lasted : since + 10000000 ≤ u) : s.openLoadDue n since u = true := by
  unfold State.openLoadDue
  rw [p, off, en, bne_iff_ne.mpr ty, Nat.max_eq_left quiet, decide_eq_true lasted]
  rfl

theorem execOpenLoadDeclared_due {s : State} {u n since : Nat} (d : s.openLoadDue n since u = true) (closed : (s.swch n).openLoad = false) :
    execOpenLoadDeclared u n since s = .next (((s.at u).modSwch n (fun c => { c with openLoad := true })).swEvent 36 n 0) :=
  if_pos (by rw [show (s.at u).openLoadDue n since u = true from d, show ((s.at u).swch n).openLoad = false from closed]; rfl)

theorem execOpenLoadCleared_due {s : State} {u n since : Nat} (d : s.openLoadDue n since u = true) (open' : (s.swch n).openLoad = true) :
    execOpenLoadCleared u n since s = .next (((s.at u).modSwch n (fun c => { c with openLoad := false })).swEvent 36 n 1) :=
  if_pos (by rw [show (s.at u).openLoadDue n since u = true from d, show ((s.at u).swch n).openLoad = true from open']; rfl)

theorem SwCh.setOut_off {c : SwCh} {u : Nat} : (c.setOut u false).on = false := SwCh.setOut_on

end Sys2Proof.Machine

open Sys2Proof Sys2Proof.Machine

/-- Settles O24: each event changes its one channel, and reports it. -/
theorem switchProtectionEventsComplete : Obligations.SwitchProtectionEventsComplete := by
  intro s u n snd l p
  have sndu : Sound (s.at u) := State.at_sound snd
  have alone : ∀ f, Keeps [.clk, .sw] s ((s.at u).modSwch n f) := fun _ => State.modSwch_keeps rfl (State.at_keeps rfl .refl)
  refine ⟨fun mA on => ⟨fun off lim => ?reached, ?left⟩, fun d lim e le off => ?overload,
    fun tj cool hot => ⟨fun off => ?latch, fun on => ?regulate⟩, fun tj cool reg hot free left => ?release,
    fun d e le free cool => ?retry, fun a e le on cool => ?reload, fun since off ty en quiet lasted => ?openLoad⟩
  case reached =>
    refine ⟨_, execSwitchCurrentLimit_reached p on, ?_⟩
    have now := State.modSwch_now (f := fun c => { c with
      limiting := true, mA := mA, onSince := none
      ovlDue := if s.safeOn n then none
        else if c.limiting then c.ovlDue else some (u + s.pn (PT_SW_OVL_TIME_0 + n % 2) (n / 2) * 1000000) }) sndu l
    refine ⟨congrArg SwCh.limiting now.own, congrArg SwCh.mA now.own, (congrArg SwCh.on now.own).trans on,
      (congrArg SwCh.ovlDue now.own).trans ((if_neg ?_).trans (if_neg ?_)), now.others, alone _⟩
    · rw [off]
      exact Bool.false_ne_true
    · rw [show ((s.at u).swch n).limiting = false from lim]
      exact Bool.false_ne_true
  case left =>
    have now := State.modSwch_now (f := fun c => { c with limiting := false, mA := mA, ovlDue := none, onSince := some u }) sndu l
    exact ⟨_, execSwitchCurrentLimit_left p on, congrArg SwCh.limiting now.own, congrArg SwCh.ovlDue now.own,
      congrArg SwCh.onSince now.own, now.others, alone _⟩
  case overload =>
    have f := ChannelFault.at (State.channelFault_taken (ev := 34) (k := 0) (f := fun c => { (c.setOut u false) with
      ovl := true, retryDue := some (u + s.pn (PT_SW_RETRY_DELAY_0 + n % 2) (n / 2) * 1000000) }) sndu l (by decide))
    exact ⟨_, execOverloadTimeout_due p lim e le off, (congrArg SwCh.on f.now.own).trans SwCh.setOut_off, congrArg SwCh.ovl f.now.own,
      congrArg SwCh.retryDue f.now.own, f.raised, f.noted, f.now.others, f.keeps⟩
  case latch =>
    have f := ChannelFault.at (State.channelFault_taken (ev := 35) (k := 0) (f := fun c => { (c.setOut u false) with
      therm := true, tj := tj, retryDue := none }) sndu l (by decide))
    exact ⟨_, execThermalLatch_safeOff p cool hot off, congrArg SwCh.therm f.now.own, (congrArg SwCh.on f.now.own).trans SwCh.setOut_off,
      congrArg SwCh.tj f.now.own, congrArg SwCh.retryDue f.now.own, f.raised, f.now.others, f.keeps⟩
  case regulate =>
    have f := ChannelReport.at (State.channelReport_taken (ev := 35) (k := 2)
      (f := fun c => { c with regulating := true, tj := tj, onSince := none }) sndu l (by decide))
    exact ⟨_, execThermalLatch_safeOn p cool hot on, congrArg SwCh.regulating f.now.own, (congrArg SwCh.on f.now.own).trans rfl, f.raised,
      f.now.others, f.keeps.mono rfl⟩
  case release =>
    have f := ChannelReport.at (State.channelReport_taken (ev := 35) (k := 1) (f := fun c => { c with therm := false, tj := tj }) sndu l
      (by decide))
    have sound : Sound (((s.at u).modSwch n (fun c => { c with therm := false, tj := tj })).swEvent 35 n 1) :=
      State.swEvent_sound (State.modSwch_sound sndu)
    have g := State.channelReport_taken (ev := 34) (k := 2)
      (f := fun c => { c with retries := c.retries - 1, ovl := false, retryDue := none, reapply := true }) sound l (by decide)
    have still := State.retry_left (n := n) (lt_of_lt_of_eq left ((congrArg SwCh.retries f.now.own).trans rfl).symm)
    refine ⟨_, execThermalRelease_latched cool reg hot free, ?_⟩
    rw [still]
    refine ⟨(congrArg SwCh.therm g.now.own).trans ((congrArg SwCh.therm f.now.own).trans rfl),
      (congrArg SwCh.retries g.now.own).trans ((congrArg (fun c : SwCh => c.retries - 1) f.now.own).trans rfl), congrArg SwCh.ovl g.now.own,
      congrArg SwCh.reapply g.now.own, fun m ne => (g.now.others m ne).trans (f.now.others m ne), (g.keeps.then rfl f.keeps).mono rfl⟩
  case retry =>
    refine ⟨_, execRetryDelayExpiry_due e le free cool, ?_⟩
    rcases Nat.eq_zero_or_pos (s.swch n).retries with none' | left
    · have g := ChannelReport.at (State.channelReport_taken (ev := 34) (k := 1)
        (f := fun c => { c with exhausted := true, retryDue := none }) sndu l (by decide))
      rw [State.retry_none (s := s.at u) none']
      exact ⟨congrArg SwCh.retryDue g.now.own, fun left => absurd left (by omega),
        fun _ => ⟨congrArg SwCh.exhausted g.now.own, (congrArg SwCh.ovl g.now.own).trans rfl, g.raised⟩, g.now.others, g.keeps.mono rfl⟩
    · have g := ChannelReport.at (State.channelReport_taken (ev := 34) (k := 2)
        (f := fun c => { c with retries := c.retries - 1, ovl := false, retryDue := none, reapply := true }) sndu l (by decide))
      rw [State.retry_left (s := s.at u) left]
      exact ⟨congrArg SwCh.retryDue g.now.own, fun _ => ⟨(congrArg SwCh.retries g.now.own).trans rfl, congrArg SwCh.ovl g.now.own,
        congrArg SwCh.reapply g.now.own, g.raised⟩, fun none' => absurd none' (by omega), g.now.others, g.keeps.mono rfl⟩
  case reload =>
    have now := State.modSwch_now (f := fun c => { c with retries := s.pn (PT_SW_RETRIES_0 + n % 2) (n / 2) }) sndu l
    exact ⟨_, execRetryCounterReload_due e le on cool, now.own, now.others, alone _⟩
  case openLoad =>
    have due := State.openLoadDue_holds p off ty en quiet lasted
    refine ⟨fun closed => ?_, fun open' => ?_⟩
    · have g := ChannelReport.at (State.channelReport_taken (ev := 36) (k := 0) (f := fun c => { c with openLoad := true }) sndu l (by decide))
      exact ⟨_, execOpenLoadDeclared_due due closed, g.now.own, g.raised, g.now.others, g.keeps.mono rfl⟩
    · have g := ChannelReport.at (State.channelReport_taken (ev := 36) (k := 1) (f := fun c => { c with openLoad := false }) sndu l (by decide))
      exact ⟨_, execOpenLoadCleared_due due open', g.now.own, g.raised, g.now.others, g.keeps.mono rfl⟩
end

section
/-!
The supply of the switch die in RECOVERY (14 R347, Table 14.2).
-/

namespace Sys2Proof.Machine

theorem State.supplyEvent_raised {s : State} {k : Nat} (snd : Sound s) : Raised (s.supplyEvent k) 37 [0xFF, 0xFF, byteOf k] :=
  State.raise_raised snd.host.queues (by decide) (by simp) (by simp)

/-- A phase entered from another one is reported. -/
theorem State.enterPhase_raised {s : State} {ph : Nat} (snd : Sound s) (ne : s.sw.phase ≠ ph) :
    Raised (s.enterPhase ph) 37 [0xFF, 0xFF, 3] := by
  unfold State.enterPhase
  rw [if_neg ne]
  exact State.supplyEvent_raised (State.modSw_sound snd fun n => n)

theorem State.supplyOff_phase {s : State} {which : SwCh → Bool} : (s.supplyOff which).sw.phase = s.sw.phase := by
  have faults : ∀ x : State, (forAll (List.range 32) (fun n s => if (s.swch n).uv then s.switchFault n else s) x).sw = x.sw := fun x =>
    (Keeps.forAll (T := [.pts]) (fun _ _ => Keeps.ite (State.switchFault_keeps rfl .refl) .refl) rfl .refl).sw rfl
  unfold State.supplyOff
  dsimp only
  rw [faults]
  rfl

/-- Below the ride-through threshold a die in RECOVERY reports the turn-off and then, last, the phase that it enters. -/
theorem execVswBelowRide_recovery {s : State} {u v : Nat} (snd : Sound s) (p : s.sw.powered = true) (b : s.sw.belowRide = false)
    (low : v ≤ 620) (ph : s.sw.phase = 3) : ∃ t, execVswBelowRide u v s = .next t ∧ Raised t 37 [0xFF, 0xFF, 3] := by
  have falls : ¬ (!(s.at u).sw.powered || (s.at u).sw.belowRide || decide (620 < v)) = true := by
    rw [show (s.at u).sw.powered = true from p, show (s.at u).sw.belowRide = false from b, decide_eq_false (by omega)]
    decide
  refine ⟨_, (if_neg falls).trans (if_pos ph), State.enterPhase_raised ?_ ?_⟩
  · exact State.supplyEvent_sound (State.supplyOff_sound (State.modSw_sound (State.at_sound snd) fun n => n))
  · have kept : ∀ x : State, (x.supplyEvent 2).sw = x.sw := fun x => (State.supplyEvent_keeps rfl (Keeps.refl (T := [.host]))).sw rfl
    rw [kept, State.supplyOff_phase]
    exact fun e => absurd (ph.symm.trans e) (by decide)

/-- A powered switch die in RECOVERY. -/
def recoveringDie : State := State.reset.modSw (fun d => { d with powered := true, phase := 3 })

theorem recoveringDie_sound : Sound recoveringDie := State.modSw_sound soundAtReset fun n => n

end Sys2Proof.Machine

open Sys2Proof Sys2Proof.Machine

/-- Refutes O25: VSW_BELOW_RIDE in RECOVERY ends that phase, and the report of the phase (kind 3), not that of the turn-off (kind 2), is
then the newest detail of event 37. -/
theorem not_switchSupplyAndWatchdogEventsComplete : ¬ Obligations.SwitchSupplyAndWatchdogEventsComplete := by
  intro h
  obtain ⟨-, -, below, -⟩ := h recoveringDie 0 recoveringDie_sound
  obtain ⟨t, e, -, -, -, off, -⟩ := below 0 rfl rfl (by decide)
  obtain ⟨x, e', phase⟩ := execVswBelowRide_recovery (u := 0) (v := 0) recoveringDie_sound rfl rfl (by decide) rfl
  cases (Host.Outcome.next.inj (e'.symm.trans e) : x = t)
  exact absurd (phase.newest.symm.trans off.newest) (by decide)
end

section
/-!
Work that leaves an event alone (19 R460): its queue and its pending bit stand, so that a detail raised before stays the newest.
-/

namespace Sys2Proof.Machine

/-- Work that leaves the queue and the pending bit of an event. -/
structure Spares (ev : Nat) (s x : State) : Prop where
  queue : x.host.events.getD ev EventQueue.reset = s.host.events.getD ev EventQueue.reset
  bit : x.host.pend.getLsbD ev = s.host.pend.getLsbD ev
  ready : x.host.ready = s.host.ready

theorem Spares.refl {ev : Nat} {s : State} : Spares ev s s := ⟨rfl, rfl, rfl⟩

theorem Spares.trans {ev : Nat} {s x y : State} (h : Spares ev s x) (g : Spares ev x y) : Spares ev s y :=
  ⟨g.queue.trans h.queue, g.bit.trans h.bit, g.ready.trans h.ready⟩

theorem Spares.of_eq {ev : Nat} {s x : State} (e : x.host = s.host) : Spares ev s x := by
  constructor <;> rw [e]

/-- Work on other parts than the host space. -/
theorem Spares.of_keeps {ev : Nat} {T : List Part} {s x : State} (k : Keeps T s x) (h : T.contains .host = false) : Spares ev s x :=
  .of_eq (k.host h)

theorem Spares.ite {ev : Nat} {s x y : State} {c : Prop} [Decidable c] (h : Spares ev s x) (g : Spares ev s y) :
    Spares ev s (if c then x else y) := by
  split <;> assumption

theorem Spares.forAll {ev : Nat} {s x : State} {f : Nat → State → State} {l : List Nat} (h : Spares ev s x)
    (g : ∀ i y, Spares ev y (f i y)) : Spares ev s (forAll l f x) := by
  induction l generalizing x with
  | nil => exact h
  | cons a l ih => exact ih (h.trans (g a x))

/-- A detail raised stays the newest of its event. -/
theorem Raised.spared {s x : State} {ev : Nat} {b : Bytes} (r : Raised s ev b) (h : Spares ev s x) : Raised x ev b where
  newest := by
    rw [h.queue]
    exact r.newest
  pending := fun ready => h.bit.trans (r.pending (h.ready.symm.trans ready))

theorem State.raise_spares {s : State} {ev e sub : Nat} {b : Bytes} (ne : ev ≠ e) : Spares ev s (s.raise e sub b) :=
  ⟨State.raise_events ne, State.raise_pend ne, rfl⟩

/-! ### The work that several commands share -/

theorem State.modStream_spares {ev k : Nat} {s : State} {f : Fifo → Fifo} : Spares ev s (s.modStream k f) := ⟨rfl, rfl, rfl⟩

theorem State.modLog_spares {ev : Nat} {s : State} {f : LegalLog → LegalLog} : Spares ev s (s.modLog f) := ⟨rfl, rfl, rfl⟩

/-- An entry in the legal event log raises its near-full report and those of its stream alone. -/
theorem State.enter_spares {ev : Nat} {s : State} {kind pid inst source tag eff seals : Nat} {old new : Bytes} (ne : ev ∉ [3, 6, 61]) :
    Spares ev s (s.enter kind pid inst source tag old new eff seals) := by
  simp only [List.mem_cons, List.not_mem_nil, or_false, not_or] at ne
  obtain ⟨n3, n6, n61⟩ := ne
  have near : ∀ x : State, Spares ev x x.logNear := fun x => .ite (State.modLog_spares.trans (State.raise_spares n61)) .refl
  have stored : ∀ (x : State) f, Spares ev x (x.modLog f).logNear := fun _ _ => State.modLog_spares.trans (near _)
  have unit : ∀ (x : State) ws, Spares ev x (x.writeUnit 1 ws) := fun _ _ =>
    State.modStream_spares.trans (State.modStream_spares.trans (.ite .refl (State.modStream_spares.trans (State.raise_spares n3))))
  have lost : ∀ (x : State) n, Spares ev x (x.unitLost 1 n) := fun _ _ => .ite .refl (State.modStream_spares.trans (State.raise_spares n6))
  unfold State.enter
  refine (stored s _).trans (.ite (unit _ _) ?_)
  exact State.modLog_spares.trans (lost _ _)

theorem State.addCause_spares {ev : Nat} {s : State} {p c : Nat} : Spares ev s (s.addCause p c) :=
  .of_keeps (State.addCause_keeps rfl (Keeps.refl (T := [.pts]))) rfl

/-- A session entering a state reports its outlet alone. -/
theorem State.enterState_spares {ev : Nat} {s : State} {p c : Nat} {n : SessState} (ne : ev ≠ 30) : Spares ev s (s.enterState p n c) := by
  have point : ∀ (x : State) f, Spares ev x (x.modPt p f) := fun _ _ => ⟨rfl, rfl, rfl⟩
  have report : ∀ (x : State) a b c, Spares ev x (x.outletSession p a b c) := fun _ _ _ _ => .ite (State.raise_spares ne) .refl
  have pilot : ∀ x : State, Spares ev x (x.setPilot p) := fun _ => ⟨rfl, rfl, rfl⟩
  have entered := fun f => ((point s f).trans (report _ (s.sesOf p).state n c)).trans (pilot _)
  have wants := fun f g => Spares.ite (c := n = .idle ∨ n = .stopping ∨ n = .fault) ((entered f).trans (point _ g)) (entered f)
  exact .ite ((wants _ _).trans (point _ _)) (wants _ _)

theorem State.backToIdle_spares {ev : Nat} {s : State} {p c : Nat} (ne : ev ≠ 30) : Spares ev s (s.backToIdle p c) := by
  have cleared : ∀ (x : State) f, Spares ev x (x.modSes p f) := fun _ _ => ⟨rfl, rfl, rfl⟩
  exact (State.enterState_spares ne).trans (cleared _ _)

theorem State.revokeParent_spares {ev : Nat} {s : State} {p : Nat} (ne : ev ≠ 30) : Spares ev s (s.revokeParent p) := by
  have flagged : ∀ f, Spares ev s (s.modSes p f) := fun _ => ⟨rfl, rfl, rfl⟩
  have marked : ∀ f c, Spares ev s ((s.modSes p f).addCause p c) := fun f _ => (flagged f).trans State.addCause_spares
  unfold State.revokeParent
  split
  · exact marked _ _
  · exact marked _ _
  · exact State.backToIdle_spares ne
  · exact .refl

/-- Keys invalidated raise their own event, those of the log and those of the outlets alone. -/
theorem State.invalidateOne_spares {ev : Nat} {s : State} {c p cause src tag : Nat} {l : List Nat} (ne : ev ∉ [3, 6, 30, 48, 61]) :
    Spares ev s (s.invalidateOne c p cause src tag l) := by
  simp only [List.mem_cons, List.not_mem_nil, or_false, not_or] at ne
  obtain ⟨n3, n6, n30, n48, n61⟩ := ne
  have key : ∀ (x : State) a d i n g, Spares ev x (x.keyEvent c p a d i n g) := fun _ _ _ _ _ _ => State.raise_spares n48
  have marked : Spares ev s (s.markInvalid c p) := ⟨rfl, rfl, rfl⟩
  have entered : ∀ a b d i n g ss,
      Spares ev s (((s.markInvalid c p).enter 8 0 0 src tag a b s.frm ss).keyEvent c p 0 d i n g) := fun a b d i n g ss =>
    (marked.trans (State.enter_spares (by simp only [List.mem_cons, List.not_mem_nil, or_false, not_or]; exact ⟨n3, n6, n61⟩))).trans
      (key _ _ _ _ _ _)
  unfold State.invalidateOne
  dsimp only
  split
  · exact .refl
  · split
    · exact (entered _ _ _ _ _ _ _).trans (State.revokeParent_spares n30)
    · exact entered _ _ _ _ _ _ _

theorem State.invalidate_spares {ev : Nat} {s : State} {c p cause src tag : Nat} (ne : ev ∉ [3, 6, 30, 48, 61]) :
    Spares ev s (s.invalidate c p cause src tag) := by
  have n30 : ev ≠ 30 := by simp only [List.mem_cons, List.not_mem_nil, or_false, not_or] at ne; exact ne.2.2.1
  unfold State.invalidate
  split
  · split
    · exact .refl
    · refine .forAll (State.invalidateOne_spares ne) fun q y => ?_
      have point : Spares ev y ((y.invalidateOne 2 q 2 src tag [q]).revokeParent q) :=
        (State.invalidateOne_spares ne).trans (State.revokeParent_spares n30)
      exact .ite (point.trans (State.invalidateOne_spares ne)) point
  · exact State.invalidateOne_spares ne

theorem State.enterPhase_spares {ev : Nat} {s : State} {ph : Nat} (ne : ev ≠ 37) : Spares ev s (s.enterPhase ph) := by
  have die : ∀ f, Spares ev s (s.modSw f) := fun _ => ⟨rfl, rfl, rfl⟩
  have event : ∀ x : State, Spares ev x (x.supplyEvent 3) := fun _ => State.raise_spares ne
  have entered : ∀ f, Spares ev s ((s.modSw f).supplyEvent 3) := fun f => (die f).trans (event _)
  exact .ite .refl (entered _)

/-- A change of the test registers raises its own event and the phase's alone. -/
theorem State.setTest_spares {ev : Nat} {s : State} {r : TestRegs} {cause : Nat} (n37 : ev ≠ 37) (n58 : ev ≠ 58) :
    Spares ev s (s.setTest r cause) := by
  have phase : ∀ (x : State) c ph, Spares ev s x → Spares ev s (if x.sw.powered = c then x.enterPhase ph else x) := fun _ _ _ h =>
    .ite (h.trans (State.enterPhase_spares n37)) h
  have test : ∀ f, Spares ev s (s.modTest f) := fun _ => ⟨rfl, rfl, rfl⟩
  have event : ∀ (x : State) a b c d, Spares ev s x → Spares ev s (x.testEvent a b c d) := fun _ _ _ _ _ h =>
    h.trans (State.raise_spares n58)
  have engine : ∀ (x : State) f, Spares ev s x → Spares ev s (x.modEng f) := fun _ _ h => h.trans ⟨rfl, rfl, rfl⟩
  unfold State.setTest
  dsimp only
  split
  · exact phase _ _ _ (event _ _ _ _ _ (test _))
  · split
    · exact .ite ((event _ _ _ _ _ (engine _ _ (test _))).trans (State.enterPhase_spares n37)) (event _ _ _ _ _ (engine _ _ (test _)))
    · exact test _

theorem State.relock_spares {ev : Nat} {s : State} {a b c d : Nat} (ne : ev ∉ [3, 6, 37, 58, 61]) : Spares ev s (s.relock a b c d) := by
  simp only [List.mem_cons, List.not_mem_nil, or_false, not_or] at ne
  obtain ⟨n3, n6, n37, n58, n61⟩ := ne
  have test : ∀ (x : State) f, Spares ev x (x.modTest f) := fun _ _ => ⟨rfl, rfl, rfl⟩
  unfold State.relock
  dsimp only
  split
  · exact ((State.setTest_spares n37 n58).trans (test _ _)).trans
      (State.enter_spares (by simp only [List.mem_cons, List.not_mem_nil, or_false, not_or]; exact ⟨n3, n6, n61⟩))
  · exact .refl

end Sys2Proof.Machine
end

section
/-!
The safety functions: holds put on and taken off, dual inputs, safety messages, and the seals (15 R356–R375).
-/

namespace Sys2Proof.Machine

/-! ### Holds put on several switches -/

theorem bitsOf_lt {n m b : Nat} (h : b ∈ bitsOf n m) : b < n := List.mem_range.mp (List.mem_filter.mp h).1

theorem State.siSwitches_lt {s : State} {k c : Nat} (l : k < 32) (h : c ∈ s.siSwitches k) : c < 32 := by
  obtain ⟨b, m, rfl⟩ := List.mem_map.mp h
  have := bitsOf_lt m
  omega

theorem State.siSwitches_congr {s t : State} {k : Nat} (h : t.par = s.par) : t.siSwitches k = s.siSwitches k := by
  unfold State.siSwitches
  rw [State.pn_congr h]

theorem State.remoteSwitches_lt {s : State} {p c : Nat} (l : p < 16) (h : c ∈ s.remoteSwitches p) : c < 32 := by
  unfold State.remoteSwitches at h
  split at h
  · cases h
  · obtain ⟨b, m, rfl⟩ := List.mem_map.mp h
    have := bitsOf_lt m
    omega

theorem State.remoteSwitches_congr {s t : State} {p : Nat} (h : t.par = s.par) : t.remoteSwitches p = s.remoteSwitches p := by
  unfold State.remoteSwitches
  rw [State.ptType_congr h, State.pn_congr h]

/-- Of holds put on switches: nothing is taken off or out of the orders that wait, and orders reach the die as before. -/
structure HoldsOn (s x : State) : Prop where
  keeps : Keeps [.sw] s x
  now : x.orderNow = s.orderNow
  size : x.sw.ch.length = s.sw.ch.length
  four : ∀ k c, k ∈ (s.swch c).hold4 → k ∈ (x.swch c).hold4
  one : ∀ k c, k ∈ (s.swch c).siHold → k ∈ (x.swch c).siHold
  waits : ∀ o ∈ s.sw.waitOps, o ∈ x.sw.waitOps

theorem HoldsOn.refl {s : State} : HoldsOn s s := ⟨.refl, rfl, rfl, fun _ _ => id, fun _ _ => id, fun _ => id⟩

theorem HoldsOn.trans {s x y : State} (h : HoldsOn s x) (g : HoldsOn x y) : HoldsOn s y :=
  ⟨g.keeps.then rfl h.keeps, g.now.trans h.now, g.size.trans h.size, fun k c m => g.four k c (h.four k c m),
    fun k c m => g.one k c (h.one k c m), fun o m => g.waits o (h.waits o m)⟩

theorem State.modSwch_holdsOn {s : State} {n : Nat} {f : SwCh → SwCh} (four : ∀ k c, k ∈ c.hold4 → k ∈ (f c).hold4)
    (one : ∀ k c, k ∈ c.siHold → k ∈ (f c).siHold) : HoldsOn s (s.modSwch n f) :=
  ⟨State.modSwch_keeps rfl .refl, rfl, List.length_modify .., fun k _ m => getD_upd (fun c : SwCh => k ∈ c.hold4) m fun _ => four k _,
    fun k _ m => getD_upd (fun c : SwCh => k ∈ c.siHold) m fun _ => one k _, fun _ => id⟩

theorem State.forceSafe_holdsOn {s : State} {n : Nat} : HoldsOn s (s.forceSafe n) := by
  refine State.modSwch_holdsOn (fun k c m => ?_) fun k c m => ?_
  · exact (SwCh.setOut_holds (c := c)).2.2.2 ▸ m
  · exact (SwCh.setOut_holds (c := c)).2.1 ▸ m

theorem mem_added {l : List Nat} {k j : Nat} (h : j ∈ l) : j ∈ if l.contains k then l else l ++ [k] := by
  split
  · exact h
  · exact List.mem_append_left _ h

theorem added_mem {l : List Nat} {k : Nat} : k ∈ if l.contains k then l else l ++ [k] := by
  split
  · next h => exact List.contains_iff_mem.mp h
  · exact List.mem_append_right _ (List.mem_singleton_self k)

/-- A rank-4 order stands where orders reach the die, and waits where they do not (logs 32, 37). -/
def State.Ordered (s t : State) (src c : Nat) : Prop :=
  (s.orderNow = true → src ∈ (t.swch c).hold4) ∧ (s.orderNow = false → DieOp.hold src c ∈ t.sw.waitOps)

theorem State.hold4_ordered {s : State} {src n : Nat} : HoldsOn s (s.hold4 src n) ∧
    (n < s.sw.ch.length → s.Ordered (s.hold4 src n) src n) := by
  unfold State.hold4 State.Ordered
  cases h : s.orderNow with
  | true =>
    rw [State.orderDie_now h]
    have held : ∀ f : SwCh → SwCh, (∀ k c, k ∈ c.hold4 → k ∈ (f c).hold4) → (∀ c, (f c).siHold = c.siHold) → (∀ c, src ∈ (f c).hold4) →
        HoldsOn s ((s.modSwch n f).forceSafe n) ∧ (n < s.sw.ch.length → src ∈ (((s.modSwch n f).forceSafe n).swch n).hold4) := by
      intro f four one own
      refine ⟨(State.modSwch_holdsOn four fun k c m => (one c).symm ▸ m).trans State.forceSafe_holdsOn, fun l => ?_⟩
      exact State.forceSafe_holdsOn.four _ _ ((State.modSwch_same l).symm ▸ own _)
    obtain ⟨w, own⟩ := held (fun c => { c with hold4 := if c.hold4.contains src then c.hold4 else c.hold4 ++ [src] })
      (fun _ _ => mem_added) (fun _ => rfl) fun _ => added_mem
    exact ⟨w, fun l => ⟨fun _ => own l, fun no => nomatch no⟩⟩
  | false =>
    rw [State.orderDie_waits h]
    exact ⟨⟨State.modSw_keeps rfl .refl, rfl, rfl, fun _ _ => id, fun _ _ => id, fun _ m => List.mem_append_left _ m⟩,
      fun _ => ⟨fun no => absurd no (by decide), fun _ => List.mem_append_right _ (List.mem_singleton_self _)⟩⟩

theorem State.Ordered.after {s x y : State} {src c : Nat} (h : s.Ordered x src c) (g : HoldsOn x y) : s.Ordered y src c :=
  ⟨fun n => g.four _ _ (h.1 n), fun n => g.waits _ (h.2 n)⟩

theorem State.Ordered.before {s x y : State} {src c : Nat} (h : x.Ordered y src c) (e : x.orderNow = s.orderNow) : s.Ordered y src c :=
  ⟨fun n => h.1 (e.trans n), fun n => h.2 (e.trans n)⟩

theorem State.hold4s_ordered {s : State} {src : Nat} {l : List Nat} (lt : ∀ c ∈ l, c < s.sw.ch.length) :
    HoldsOn s (l.foldl (fun s n => s.hold4 src n) s) ∧ ∀ c ∈ l, s.Ordered (l.foldl (fun s n => s.hold4 src n) s) src c := by
  induction l generalizing s with
  | nil => exact ⟨.refl, fun c m => absurd m List.not_mem_nil⟩
  | cons n l ih =>
    obtain ⟨first, own⟩ := State.hold4_ordered (s := s) (src := src) (n := n)
    obtain ⟨rest, all⟩ := ih (s := s.hold4 src n) fun c m => first.size.symm ▸ lt c (List.mem_cons_of_mem _ m)
    refine ⟨first.trans rest, fun c m => ?_⟩
    rcases List.mem_cons.mp m with rfl | m
    · exact (own (lt c List.mem_cons_self)).after rest
    · exact (all c m).before first.now

/-- The switches of points held. -/
theorem State.holdPoints_ordered {s : State} {src : Nat} {l : List Nat} (n : s.sw.ch.length = 32) (lt : ∀ p ∈ l, p < 16) :
    HoldsOn s (s.holdPoints src l) ∧ ∀ p ∈ l, ∀ c ∈ s.remoteSwitches p, s.Ordered (s.holdPoints src l) src c := by
  unfold State.holdPoints
  induction l generalizing s with
  | nil => exact ⟨.refl, fun c m => absurd m List.not_mem_nil⟩
  | cons q l ih =>
    obtain ⟨first, own⟩ := State.hold4s_ordered (s := s) (src := src) (l := s.remoteSwitches q)
      fun c m => n.symm ▸ State.remoteSwitches_lt (lt q List.mem_cons_self) m
    obtain ⟨rest, all⟩ := ih (s := (s.remoteSwitches q).foldl (fun s n => s.hold4 src n) s) (first.size.trans n)
      fun p m => lt p (List.mem_cons_of_mem _ m)
    refine ⟨first.trans rest, fun p m c mc => ?_⟩
    rcases List.mem_cons.mp m with rfl | m
    · exact (own c mc).after rest
    · exact (all p m c (by rwa [State.remoteSwitches_congr (first.keeps.par rfl)])).before first.now

theorem State.holdSis_held {s : State} {k : Nat} {l : List Nat} (lt : ∀ c ∈ l, c < s.sw.ch.length) :
    HoldsOn s (l.foldl (fun s n => s.holdSi k n) s) ∧ (∀ c ∈ l, k ∈ ((l.foldl (fun s n => s.holdSi k n) s).swch c).siHold) ∧
      ∀ c, c ∉ l → (l.foldl (fun s n => s.holdSi k n) s).swch c = s.swch c := by
  have held : ∀ (s : State) n, HoldsOn s (s.holdSi k n) ∧ (n < s.sw.ch.length → k ∈ ((s.holdSi k n).swch n).siHold) ∧
      ∀ c, c ≠ n → (s.holdSi k n).swch c = s.swch c := by
    intro s n
    have other : ∀ (x : State) (f : SwCh → SwCh) c, c ≠ n → (x.modSwch n f).swch c = x.swch c := fun _ _ _ ne => State.modSwch_other (Ne.symm ne)
    have marked : HoldsOn s (s.modSwch n (fun c => { c with siHold := if c.siHold.contains k then c.siHold else c.siHold ++ [k] })) :=
      State.modSwch_holdsOn (fun _ _ m => m) fun _ _ => mem_added
    have forced : ∀ x : State, HoldsOn x (x.forceSafe n) := fun _ => State.forceSafe_holdsOn
    refine ⟨marked.trans (forced _), fun l => (forced _).one _ _ ?_, fun c ne => (other _ _ c ne).trans (other _ _ c ne)⟩
    rw [State.modSwch_same l]
    exact added_mem
  induction l generalizing s with
  | nil => exact ⟨.refl, fun c m => absurd m List.not_mem_nil, fun _ _ => rfl⟩
  | cons n l ih =>
    obtain ⟨first, own, others⟩ := held s n
    obtain ⟨rest, all, same⟩ := ih (s := s.holdSi k n) fun c m => first.size.symm ▸ lt c (List.mem_cons_of_mem _ m)
    refine ⟨first.trans rest, fun c m => ?_, fun c no => ?_⟩
    · rcases List.mem_cons.mp m with rfl | m
      · exact rest.one _ _ (own (lt c List.mem_cons_self))
      · exact all c m
    · obtain ⟨ne, no⟩ := not_or.mp fun m => no (List.mem_cons.mpr m)
      exact (same c no).trans (others c ne)

/-- A rank-4 release leaves a channel that the source does not hold. -/
theorem State.release4_leaves {s : State} {k c : Nat} (no : k ∉ (s.swch c).hold4) : (s.release4 k).swch c = s.swch c := by
  unfold State.release4
  cases h : s.orderNow with
  | true =>
    rw [State.orderDie_now h]
    by_cases l : c < s.sw.ch.length
    · refine (State.swch_map l).trans ?_
      have same : (s.swch c).hold4.filter (· != k) = (s.swch c).hold4 :=
        List.filter_eq_self.mpr fun j m => bne_iff_ne.mpr fun e => no (e ▸ m)
      rw [same]
    · have out : ∀ t : State, t.sw.ch.length = s.sw.ch.length → t.swch c = SwCh.reset := fun t e => List.getD_eq_default _ _ (by omega)
      exact (out _ (List.length_map ..)).trans (out s rfl).symm
  | false =>
    rw [State.orderDie_waits h]
    rfl

/-! ### A dual input that demands -/

theorem State.inputDemand_raised {s : State} {k e : Nat} (snd : Sound s) : Raised (s.inputDemand k e) 41 [0, byteOf k, byteOf e] :=
  State.raise_raised snd.host.queues (by decide) (by simp; rfl) (by simp)

/-- A level that demands settled: the demand and its latch stand, and the input's switches are held at rank 1 (R357, R358). -/
structure Demanded (s t : State) (k : Nat) : Prop where
  input : t.safIn k = { s.safIn k with demand := true, trip := true, autoDue := none }
  held : ∀ c ∈ s.siSwitches k, k ∈ (t.swch c).siHold
  fresh : (s.safIn k).demand = false → Raised t 41 [0, byteOf k, 0] ∧ (s.isSession (k / 2) = true → 14 ∈ (t.sesOf (k / 2)).causes)
  left : ∀ c, c ∉ s.siSwitches k → (s.safIn k).latched = true ∨ k ∉ (s.swch c).hold4 → t.swch c = s.swch c
  others : ∀ j, j ≠ k → t.safIn j = s.safIn j
  keeps : Keeps [.host, .pts, .sw, .saf] s t

/-- The work of a demand before its report. -/
def State.holdInput (s : State) (k : Nat) : State :=
  let y := (if (s.safIn k).latched then s else s.release4 k).modSafIn k (fun x => { x with demand := true, trip := true, autoDue := none })
  (y.siSwitches k).foldl (fun s n => s.holdSi k n) y

theorem State.settleInput_demand {s : State} {k : Nat} (m : s.siMode k ≠ 0) (a : s.demandA k = true) : s.settleInput k =
    if (s.safIn k).demand then s.holdInput k else ((s.holdInput k).inputDemand k 0).addCause (k / 2) 14 := by
  unfold State.settleInput State.holdInput
  dsimp only
  rw [if_neg m, if_pos (by rw [a]; rfl)]

theorem State.settleInput_demanded {s : State} {k : Nat} (snd : Sound s) (l : k < 32) (m : s.siMode k ≠ 0) (a : s.demandA k = true) :
    Demanded s (s.settleInput k) k := by
  have freed : Keeps [.sw] s (if (s.safIn k).latched then s else s.release4 k) := .ite .refl (State.release4_keeps rfl .refl)
  have sound : Sound (if (s.safIn k).latched then s else s.release4 k) := .ite snd (State.release4_sound snd)
  have kept : ∀ c, (s.safIn k).latched = true ∨ k ∉ (s.swch c).hold4 → (if (s.safIn k).latched then s else s.release4 k).swch c = s.swch c := by
    intro c h
    split
    · rfl
    · exact State.release4_leaves (h.resolve_left ‹_›)
  obtain ⟨y, e, now⟩ : ∃ y : State, (s.holdInput k) = (y.siSwitches k).foldl (fun s n => s.holdSi k n) y ∧
      y = (if (s.safIn k).latched then s else s.release4 k).modSafIn k (fun x => { x with demand := true, trip := true, autoDue := none }) :=
    ⟨_, rfl, rfl⟩
  have par : y.par = s.par := by
    rw [now]
    exact freed.par rfl
  have saf : ∀ j, y.safIn j = if j = k then { s.safIn k with demand := true, trip := true, autoDue := none } else s.safIn j := by
    intro j
    by_cases e : j = k
    · rw [if_pos e, e, now, State.modSafIn_same (sound.inputs.symm ▸ l), State.safIn_congr (freed.saf rfl)]
    · rw [if_neg e, now, State.modSafIn_other (Ne.symm e), State.safIn_congr (freed.saf rfl)]
  have ysound : Sound y := by
    rw [now]
    exact State.modSafIn_sound sound
  have ysw : ∀ c, y.swch c = (if (s.safIn k).latched then s else s.release4 k).swch c := fun c => by rw [now]; rfl
  obtain ⟨on, held, left⟩ := State.holdSis_held (s := y) (k := k) (l := y.siSwitches k)
    fun c mc => ysound.switches.symm ▸ State.siSwitches_lt l mc
  rw [← e] at on held left
  rw [State.siSwitches_congr par] at held left
  have keeps : Keeps [.sw, .saf] s (s.holdInput k) := on.keeps.then rfl (by rw [now]; exact State.modSafIn_keeps rfl (freed.mono rfl))
  have event : Keeps [.host] (s.holdInput k) ((s.holdInput k).inputDemand k 0) := State.inputDemand_keeps rfl .refl
  have cause : Keeps [.pts] ((s.holdInput k).inputDemand k 0) (((s.holdInput k).inputDemand k 0).addCause (k / 2) 14) :=
    State.addCause_keeps rfl .refl
  have raised : Raised ((s.holdInput k).inputDemand k 0) 41 [0, byteOf k, 0] := State.inputDemand_raised
    (e ▸ Sound.foldl ysound fun _ _ h => State.holdSi_sound h)
  have input : ∀ j, (s.holdInput k).safIn j = y.safIn j := fun j => State.safIn_congr (on.keeps.saf rfl)
  have after : ∀ x : State, x.sw = (s.holdInput k).sw → x.saf = (s.holdInput k).saf → x.safIn k = { s.safIn k with
      demand := true, trip := true, autoDue := none } ∧ (∀ c ∈ s.siSwitches k, k ∈ (x.swch c).siHold) ∧
      (∀ c, c ∉ s.siSwitches k → (s.safIn k).latched = true ∨ k ∉ (s.swch c).hold4 → x.swch c = s.swch c) ∧
      ∀ j, j ≠ k → x.safIn j = s.safIn j := by
    intro x esw esaf
    refine ⟨?_, fun c mc => ?_, fun c no free => ?_, fun j ne => ?_⟩
    · rw [State.safIn_congr esaf, input, saf, if_pos rfl]
    · rw [State.swch_congr esw]
      exact held c mc
    · rw [State.swch_congr esw, left c no, ysw, kept c free]
    · rw [State.safIn_congr esaf, input, saf, if_neg ne]
  rw [State.settleInput_demand m a]
  split
  · next d =>
    obtain ⟨i, h, f, o⟩ := after _ rfl rfl
    exact ⟨i, h, fun no => absurd (no.symm.trans d) Bool.false_ne_true, f, o, keeps.mono rfl⟩
  · obtain ⟨i, h, f, o⟩ := after (((s.holdInput k).inputDemand k 0).addCause (k / 2) 14) ((cause.sw rfl).trans (event.sw rfl))
      ((cause.saf rfl).trans (event.saf rfl))
    refine ⟨i, h, fun _ => ⟨raised.spared (.of_keeps cause rfl), fun ses => State.addCause_noted ?_ ?_⟩, f, o,
      cause.then rfl (event.then rfl (keeps.mono rfl))⟩
    · rw [event.pts rfl, keeps.pts rfl, snd.pts]
      omega
    · exact (State.isSession_congr ((event.par rfl).trans (keeps.par rfl))).trans ses

theorem State.modSaf_at_keeps {s : State} {u : Nat} {f : Safety → Safety} : Keeps [.clk, .saf] s ((s.at u).modSaf f) :=
  State.modSaf_keeps rfl (State.at_keeps rfl .refl)

/-- The running of an input's discrepancy and cycle leaves its levels, its demand and its latch. -/
theorem State.runInput_leaves {s : State} {k u j : Nat} : ((s.runInput k u).safIn j).a = (s.safIn j).a ∧
    ((s.runInput k u).safIn j).demand = (s.safIn j).demand ∧ ((s.runInput k u).safIn j).latched = (s.safIn j).latched := by
  have all : (fun x : SafIn => (x.a, x.demand, x.latched)) ((s.runInput k u).safIn j) = (fun x : SafIn => (x.a, x.demand, x.latched)) (s.safIn j) := by
    unfold State.runInput
    refine State.modSafIn_leaves (fun x : SafIn => (x.a, x.demand, x.latched)) fun x => ?_
    dsimp only
    repeat' split
    all_goals rfl
  simpa only [Prod.mk.injEq] using all

theorem State.runInput_other {s : State} {k u j : Nat} (ne : j ≠ k) : (s.runInput k u).safIn j = s.safIn j :=
  State.modSafIn_other (Ne.symm ne)

/-- A filtered level taken from a channel of an input, before it is settled. -/
def State.takeLevel (s : State) (u k : Nat) (chanB level : Bool) : State :=
  ((((s.at u).modSaf (fun x => { x with lands := putBit x.lands (2 * k + b2n chanB) level })).modSafIn k
    (fun x => if chanB then { x with b := some level } else { x with a := some level })).runInput k u)

theorem execSiLevelChange_filtered {s : State} {u k n : Nat} {chanB level : Bool} (l : k < 32) (live : s.saf.live = true)
    (lasted : s.pn (PT_SI_FILTER_0 + k % 2) (k / 2) ≤ n)
    (d : s.saf.liveAt + (s.pn (PT_SI_FILTER_0 + k % 2) (k / 2) - 1) * 100000 ≤ u) :
    execSiLevelChange u k chanB level n s = .next ((s.takeLevel u k chanB level).settleInput k) := by
  refine if_neg ?_
  have alive : ((s.at u).modSaf (fun x => { x with lands := putBit x.lands (2 * k + b2n chanB) level })).saf.live = true := live
  rw [alive]
  rintro (h | h | h | h)
  · omega
  · cases h
  · exact absurd lasted (Nat.not_le.mpr h)
  · exact absurd d (Nat.not_le.mpr h)

/-- An input latched by discrepancy, before its switches are held. -/
def State.latchInput (s : State) (u k : Nat) : State :=
  (s.at u).modSafIn k (fun x => { x with latched := true, demand := true, cycle := 0 })

theorem execSafetyDiscrepancyLatch_due {s : State} {u k d : Nat} (free : (s.safIn k).latched = false) (e : (s.safIn k).disFrom = some d)
    (le : d + s.pn (PT_SI_TD_0 + k % 2) (k / 2) * 1000000 ≤ u) : ∃ n, execSafetyDiscrepancyLatch u k s =
      .next (((((s.latchInput u k).siSwitches k).foldl (fun s n => s.hold4 k n) (s.latchInput u k)).discEvent k 0 n).addCause (k / 2) 15) := by
  have td : (s.at u).pn (PT_SI_TD_0 + k % 2) (k / 2) = s.pn (PT_SI_TD_0 + k % 2) (k / 2) := State.pn_congr rfl
  have due : ripeAt (((s.at u).safIn k).disFrom.map (· + (s.at u).pn (PT_SI_TD_0 + k % 2) (k / 2) * 1000000)) u = true := by
    rw [show ((s.at u).safIn k).disFrom = some d from e, td]
    exact decide_eq_true le
  unfold execSafetyDiscrepancyLatch State.latchInput
  dsimp only
  rw [show ((s.at u).safIn k).latched = false from free, due]
  exact ⟨_, if_pos rfl⟩

theorem State.discEvent_raised {s : State} {k e n : Nat} (snd : Sound s) :
    Raised (s.discEvent k e n) 39 [byteOf k, byteOf (k / 2), byteOf e, byteOf (s.safIn k).first] :=
  State.raise_raised snd.host.queues (by decide) (by simp) (by simp)

theorem execSafetyAutoRelease_input {s : State} {u k d : Nat} (l : k < 32) (trip : (s.safIn k).trip = true)
    (gone : (s.safIn k).demand = false) (free : (s.safIn k).latched = false) (e : (s.safIn k).autoDue = some d) (le : d ≤ u) :
    execSafetyAutoRelease u k s = .next ((s.at u).releaseInput k) := by
  refine (if_pos l).trans (if_pos ?_)
  rw [show ((s.at u).safIn k).trip = true from trip, show ((s.at u).safIn k).demand = false from gone,
    show ((s.at u).safIn k).latched = false from free, show ((s.at u).safIn k).autoDue = some d from e]
  exact decide_eq_true le

theorem execSafetyAutoRelease_entry {s : State} {u i d : Nat} (l : i < 16) (ended : (s.scEntry i).ended = true)
    (gone : (s.scEntry i).demand = false) (e : (s.scEntry i).autoDue = some d) (le : d ≤ u) :
    execSafetyAutoRelease u (32 + i) s = .next ((s.at u).releaseEntry i 1) := by
  have index : 32 + i - 32 = i := by omega
  unfold execSafetyAutoRelease
  dsimp only
  rw [index, if_neg (by omega), if_pos (by omega), if_pos ?_]
  rw [show ((s.at u).scEntry i).ended = true from ended, show ((s.at u).scEntry i).demand = false from gone,
    show ((s.at u).scEntry i).autoDue = some d from e]
  exact decide_eq_true le

/-- Points released of a consumer entry: those with the restart code are held no more. -/
structure EntryReleased (s t : State) (i code : Nat) : Prop where
  held : ∀ p, p ∈ (t.scEntry i).held ↔ p ∈ (s.scEntry i).held ∧ s.siRestart (2 * p) ≠ code
  auto : (t.scEntry i).autoDue = none
  others : ∀ j, j ≠ i → t.scEntry j = s.scEntry j
  keeps : Keeps [.host, .sw, .saf] s t

theorem State.releaseEntry_releases {s : State} {i code : Nat} (l : i < s.saf.entries.length) : EntryReleased s (s.releaseEntry i code) i code := by
  have freed : ∀ src pts, (s.freePoints src pts).saf = s.saf := fun _ _ => State.freePoints_saf
  have event : ∀ (x : State) a b c d e f g, (x.demandEvent a b c d e f g).saf = x.saf := fun x a b c d e f g =>
    (State.demandEvent_keeps rfl (Keeps.refl (T := [.host]))).saf rfl
  have kept := State.releaseEntry_keeps (x1 := i) (x2 := code) rfl (Keeps.refl (s := s) (T := [.host, .sw, .saf]))
  unfold State.releaseEntry at kept ⊢
  dsimp only at kept ⊢
  by_cases none' : ((s.scEntry i).held.filter (fun p => s.siRestart (2 * p) == code)).isEmpty = true
  · rw [if_pos none'] at kept ⊢
    have same : (s.modScEntry i (fun e => { e with autoDue := none })).scEntry i = { s.scEntry i with autoDue := none } :=
      State.modScEntry_same l
    refine ⟨fun p => ?_, congrArg ScEntry.autoDue same, fun j ne => State.modScEntry_other (Ne.symm ne), kept⟩
    rw [congrArg ScEntry.held same]
    refine ⟨fun m => ⟨m, fun e => ?_⟩, And.left⟩
    rw [List.isEmpty_iff, List.filter_eq_nil_iff] at none'
    exact none' p m (beq_iff_eq.mpr e)
  · rw [if_neg none'] at kept ⊢
    have now : ∀ f a b c d e g h j, (((s.freePoints (48 + i) ((s.scEntry i).held.filter (fun p => s.siRestart (2 * p) == code))).modScEntry i
        f).demandEvent a b c d e g h).scEntry j = (s.modScEntry i f).scEntry j := by
      intro f a b c d e g h j
      rw [State.scEntry_congr (event _ _ _ _ _ _ _ _)]
      change (upd (s.freePoints _ _).saf.entries i f).getD j ScEntry.reset = _
      rw [freed]
      rfl
    have same : ∀ f, (s.modScEntry i f).scEntry i = f (s.scEntry i) := fun _ => State.modScEntry_same l
    refine ⟨fun p => ?_, ?_, fun j ne => (now ..).trans (State.modScEntry_other (Ne.symm ne)), kept⟩
    · rw [now, same]
      simp only [List.mem_filter, List.contains_eq_mem, Bool.not_eq_eq_eq_not, Bool.not_true, decide_eq_false_iff_not, beq_iff_eq, not_and,
        ne_eq]
      exact and_congr_right fun m => ⟨fun h => h m, fun h _ => h⟩
    · rw [now, same]

/-! ### Safety messages -/

theorem State.perturb_plain {s : State} {i : Nat} {msg : Bytes} (none' : s.test.eff.safAction = 0) : s.perturb i msg = (some msg, s) :=
  if_pos (.inl none')

theorem State.scConf_congr {s t : State} {i : Nat} (h : t.par = s.par) : t.scConf i = s.scConf i := State.pn_congr h

theorem State.scIdentity_congr {s t : State} {i : Nat} (h : t.par = s.par) : t.scIdentity i = s.scIdentity i := by
  unfold State.scIdentity State.nodeId
  rw [State.scConf_congr h, State.pn_congr h]

theorem State.producerDemand_congr {s t : State} {i : Nat} (h : t.par = s.par) (g : t.saf = s.saf) :
    t.producerDemand i = s.producerDemand i := by
  unfold State.producerDemand
  rw [State.pn_congr h, State.scConf_congr h, g]
  simp only [State.safIn_congr g]

/-- The message that a producer sends (15 Table 15.2). -/
def State.nextMessage (s : State) (i : Nat) : Bytes :=
  scMessage (s.scIdentity i) (s.scEntry i).seq (scKind (s.scConf i)) (b2n (s.producerDemand i) + 2 * b2n s.sw.failsafe + 4 * b2n s.testing)
    (if scKind (s.scConf i) = 2 then s.pn (ND_SC_POINTS_0 + i) else 0) (s.frm % 2 ^ 32)

theorem State.nextMessage_at {s : State} {u i : Nat} : (s.at u).nextMessage i = s.nextMessage i := by
  have par : (s.at u).par = s.par := rfl
  have saf : (s.at u).saf = s.saf := rfl
  unfold State.nextMessage
  rw [State.scIdentity_congr par, State.scConf_congr par, State.producerDemand_congr par saf, State.pn_congr par, State.scEntry_congr saf]
  rfl

theorem execSafetyMessageSend_due {s : State} {u i d : Nat} (prod : s.isProducer i = true) (live : s.saf.live = true)
    (capo : s.pwr.capoOn = true) (run : s.pwr.capoReset = false) (e : (s.scEntry i).sendDue = some d) (le : d ≤ u)
    (front : s.behindDelay i = false) (plain : s.test.eff.safAction = 0) : execSafetyMessageSend u i s =
      .next (((s.at u).modScEntry i (fun e => { e with
        seq := wrapInc 16 e.seq, sentDemand := (s.at u).producerDemand i
        sendDue := some (u + (s.at u).pn (ND_SC_TIME_0 + i) * 1000000), sent := [] })).modScEntry i
        (fun e => { e with sent := [(s.at u).nextMessage i] })) := by
  have due : ((s.at u).isProducer i && (s.at u).saf.live && (s.at u).pwr.capoOn && !(s.at u).pwr.capoReset &&
      (ripeAt ((s.at u).scEntry i).sendDue u || (s.at u).producerDemand i != ((s.at u).scEntry i).sentDemand)) = true := by
    rw [show (s.at u).isProducer i = true from prod, show (s.at u).saf.live = true from live, show (s.at u).pwr.capoOn = true from capo,
      show (s.at u).pwr.capoReset = false from run, show ((s.at u).scEntry i).sendDue = some d from e,
      show ripeAt (some d) u = true from decide_eq_true le]
    rfl
  unfold execSafetyMessageSend State.nextMessage
  dsimp only
  have calm : ∀ f, ((s.at u).modScEntry i f).behindDelay i = false := fun _ => front
  have unperturbed : ∀ f msg, ((s.at u).modScEntry i f).perturb i msg = (some msg, (s.at u).modScEntry i f) := fun _ _ =>
    State.perturb_plain plain
  rw [if_pos due, if_neg (by rw [calm]; exact Bool.false_ne_true), unperturbed]

/-- A rank-4 cause noted for session points. -/
theorem State.causeAll_noted {s : State} {l : List Nat} {c : Nat} (n : s.pts.length = 16) (lt : ∀ p ∈ l, p < 16) :
    ∀ p ∈ l, s.isSession p = true → c ∈ ((s.causeAll l c).sesOf p).causes := by
  have stays : ∀ (x : State) q p, c ∈ (x.sesOf p).causes → c ∈ ((x.addCause q c).sesOf p).causes := by
    intro x q p m
    unfold State.addCause
    split
    · refine getD_upd (fun y : Point => c ∈ y.ses.causes) m fun _ h => ?_
      exact mem_added h
    · exact m
  have loop : ∀ (l : List Nat) (x : State) p, c ∈ (x.sesOf p).causes → c ∈ ((x.causeAll l c).sesOf p).causes := by
    intro l
    induction l with
    | nil => exact fun _ _ m => m
    | cons q l ih => exact fun x p m => ih _ p (stays x q p m)
  induction l generalizing s with
  | nil => exact fun p m => absurd m List.not_mem_nil
  | cons q l ih =>
    intro p m ses
    have kept : Keeps [.pts] s (s.addCause q c) := State.addCause_keeps rfl .refl
    rcases List.mem_cons.mp m with rfl | m
    · exact loop l _ p (State.addCause_noted (n.symm ▸ lt p List.mem_cons_self) ses)
    · refine ih (s := s.addCause q c) ?_ (fun p m => lt p (List.mem_cons_of_mem _ m)) p m ((State.isSession_congr (kept.par rfl)).trans ses)
      unfold State.addCause
      split
      · exact State.modSes_onPoint.size.trans n
      · exact n

/-- An entry that faults: its points' switches are held at rank 4, and the fault is reported and a cause of its points (R366). -/
structure EntryFaulted (s t : State) (i cause : Nat) : Prop where
  state : (t.scEntry i).state = 2
  raised : Raised t 40 [byteOf i, byteOf cause, 0, 0]
  held : ∀ p ∈ s.scPoints i, ∀ c ∈ s.remoteSwitches p, s.Ordered t (32 + i) c
  noted : ∀ p ∈ s.scPoints i, s.isSession p = true → 16 ∈ (t.sesOf p).causes
  keeps : Keeps [.host, .pts, .sw, .saf, .ring] s t

theorem State.msgFaultEvent_raised {s : State} {i c e r d : Nat} (snd : Sound s) :
    Raised (s.msgFaultEvent i c e r d) 40 [byteOf i, byteOf c, byteOf e, 0] :=
  State.raise_raised snd.host.queues (by decide) (by simp) (by simp)

theorem State.faultEntry_faults {s : State} {i cause recv : Nat} (snd : Sound s) (l : i < 16) (runs : (s.scEntry i).state ≠ 2) :
    EntryFaulted s (s.faultEntry i cause recv) i cause := by
  have lt : ∀ p ∈ s.scPoints i, p < 16 := fun p => bitsOf_lt
  obtain ⟨y, ey⟩ : ∃ y, y = s.modScEntry i (fun e => { e with state := 2, goodFrom := none }) := ⟨_, rfl⟩
  have ysound : Sound y := by
    rw [ey]
    exact State.modScEntry_sound snd
  have ykeeps : Keeps [.saf] s y := by
    rw [ey]
    exact State.modScEntry_keeps rfl .refl
  have state : (y.scEntry i).state = 2 := by
    rw [ey]
    exact congrArg ScEntry.state (State.modScEntry_same (snd.entries.symm ▸ l))
  obtain ⟨on, held⟩ := State.holdPoints_ordered (s := y) (src := 32 + i) ysound.switches lt
  have now : y.orderNow = s.orderNow := State.orderNow_congr (ykeeps.sw rfl)
  have pts : y.scPoints i = s.scPoints i := congrArg (bitsOf 16) (State.pn_congr (ykeeps.par rfl))
  obtain ⟨z, ez⟩ : ∃ z, z = y.holdPoints (32 + i) (s.scPoints i) := ⟨_, rfl⟩
  rw [← ez] at on held
  have zpts : z.scPoints i = s.scPoints i := (congrArg (bitsOf 16) (State.pn_congr (on.keeps.par rfl))).trans pts
  have zsound : Sound z := by
    rw [ez]
    exact State.holdPoints_sound ysound
  have zkeeps : Keeps [.sw, .saf] s z := on.keeps.then rfl (ykeeps.mono rfl)
  unfold State.faultEntry
  dsimp only
  rw [if_neg runs, ← ey, ← ez]
  obtain ⟨w, ew⟩ : ∃ w, w = z.msgFaultEvent i cause 0 recv (if cause = 0 ∨ (z.scEntry i).last.isSome then z.scElapsed i else 0) := ⟨_, rfl⟩
  have wkeeps : Keeps [.host] z w := by
    rw [ew]
    exact State.msgFaultEvent_keeps rfl .refl
  have raised : Raised w 40 [byteOf i, byteOf cause, 0, 0] := by
    rw [ew]
    exact State.msgFaultEvent_raised zsound
  have caused : Keeps [.pts] w (w.causeAll (s.scPoints i) 16) := State.causeAll_keeps rfl .refl
  have queued : ∀ a b c, Keeps [.ring] (w.causeAll (s.scPoints i) 16) ((w.causeAll (s.scPoints i) 16).queueFault a b c) :=
    fun _ _ _ => State.queueFault_keeps rfl .refl
  have late : ∀ a b c, Keeps [.pts, .ring] w ((w.causeAll (s.scPoints i) 16).queueFault a b c) := fun a b c =>
    (queued a b c).then rfl (caused.mono rfl)
  have all : ∀ a b c, Keeps [.host, .pts, .ring] z ((w.causeAll (s.scPoints i) 16).queueFault a b c) := fun a b c =>
    (late a b c).then rfl (wkeeps.mono rfl)
  rw [zpts, ← ew]
  refine ⟨?_, raised.spared (.of_keeps (late _ _ _) rfl), fun p m c mc => ?_, fun p m ses => ?_, (all _ _ _).then rfl (zkeeps.mono rfl)⟩
  · rw [State.scEntry_congr ((all _ _ _).saf rfl), State.scEntry_congr (on.keeps.saf rfl)]
    exact state
  · have o := (held p m c (by rwa [State.remoteSwitches_congr (ykeeps.par rfl)])).before now
    unfold State.Ordered at o ⊢
    rw [State.swch_congr ((all _ _ _).sw rfl), (all _ _ _).sw rfl]
    exact o
  · rw [State.sesOf_congr ((queued _ _ _).pts rfl)]
    have par : w.par = s.par := (wkeeps.par rfl).trans (zkeeps.par rfl)
    refine State.causeAll_noted ?_ lt p m ((State.isSession_congr par).trans ses)
    rw [wkeeps.pts rfl, zkeeps.pts rfl, snd.pts]

theorem execSafetyMessageReceived_plain {s : State} {u i : Nat} {msg : Bytes} (cons : s.isConsumer i = true) (live : s.saf.live = true)
    (capo : s.pwr.capoOn = true) (run : s.pwr.capoReset = false) (front : s.behindDelay i = false) (plain : s.test.eff.safAction = 0) :
    execSafetyMessageReceived u i msg s = .next ((s.at u).consume i msg) := by
  have on : ((s.at u).isConsumer i && (s.at u).saf.live && (s.at u).pwr.capoOn && !(s.at u).pwr.capoReset) = true := by
    rw [show (s.at u).isConsumer i = true from cons, show (s.at u).saf.live = true from live, show (s.at u).pwr.capoOn = true from capo,
      show (s.at u).pwr.capoReset = false from run]
    rfl
  have clear : (s.at u).behindDelay i = false := front
  unfold execSafetyMessageReceived
  dsimp only
  rw [if_neg (by rw [on]; decide), if_neg (by rw [clear]; exact Bool.false_ne_true), State.perturb_plain (by exact plain)]

theorem State.consume_badCrc {s : State} {i : Nat} {msg : Bytes} (len : msg.length = 16) (proto : fld msg 6 2 = 1)
    (bad : fld msg 12 4 ≠ scCrc (s.scIdentity i) msg) : s.consume i msg = s.faultEntry i 1 (fld msg 0 2) := by
  unfold State.consume
  dsimp only
  rw [if_neg (not_or.mpr ⟨not_not_intro len, not_not_intro proto⟩), if_pos bad]

/-- A good message taken by a running entry: it is the last one heard, and nothing else changes. -/
theorem State.consume_good {s : State} {i : Nat} {msg : Bytes} (len : msg.length = 16) (proto : fld msg 6 2 = 1)
    (crc : fld msg 12 4 = scCrc (s.scIdentity i) msg) (kind : fld msg 2 1 = scKind (s.scConf i)) (runs : (s.scEntry i).state = 1)
    (quiet : (s.scEntry i).demand = false) (none' : fld msg 3 1 % 2 = 0)
    (next : ∀ l, (s.scEntry i).last = some l → 0 < (fld msg 0 2 + 65536 - l) % 65536 ∧ (fld msg 0 2 + 65536 - l) % 65536 < 5)
    (l : i < s.saf.entries.length) :
    ∃ f : ScEntry → ScEntry, s.consume i msg = s.modScEntry i f ∧ ∀ e, (f e).last = some (fld msg 0 2) ∧ (f e).lastAt = s.clk.up ∧
      (f e).state = e.state := by
  have off : (fld msg 3 1).testBit 0 = false := by
    rw [Nat.testBit_zero, decide_eq_false_iff_not]
    omega
  have settled : ∀ (x : State) b, (x.scEntry i).demand = false → b = false → x.settleEntry i b = x := by
    intro x b d e
    subst e
    unfold State.settleEntry
    dsimp only
    rw [if_neg (by rw [d]; exact Bool.false_ne_true), if_neg Bool.false_ne_true]
  unfold State.consume
  dsimp only
  rw [if_neg (not_or.mpr ⟨not_not_intro len, not_not_intro proto⟩), if_neg (not_not_intro crc), if_neg (not_not_intro kind),
    if_neg (by
      cases e : (s.scEntry i).last with
      | none => dsimp only; omega
      | some l => have := next l e; dsimp only; omega),
    if_neg (by
      cases e : (s.scEntry i).last with
      | none => dsimp only; omega
      | some l => have := next l e; dsimp only; omega),
    if_neg (by omega), if_neg (by omega)]
  refine ⟨_, settled _ _ ?_ ?_, fun e => ⟨rfl, rfl, rfl⟩⟩
  · exact (congrArg ScEntry.demand (State.modScEntry_same l)).trans off
  · rw [quiet, Bool.and_false]

theorem execSafetyTimeExpectationExpiry_late {s : State} {u i : Nat} (cons : s.isConsumer i = true) (capo : s.pwr.capoOn = true)
    (runs : (s.scEntry i).state = 1) (late : (s.scEntry i).lastAt + s.pn (ND_SC_TIME_0 + i) * 1000000 < u) :
    execSafetyTimeExpectationExpiry u i s = .next ((s.at u).faultEntry i 0 0) := by
  have time : (s.at u).pn (ND_SC_TIME_0 + i) = s.pn (ND_SC_TIME_0 + i) := State.pn_congr rfl
  unfold execSafetyTimeExpectationExpiry
  dsimp only
  rw [show (s.at u).isConsumer i = true from cons, show (s.at u).pwr.capoOn = true from capo, show ((s.at u).scEntry i).state = 1 from runs,
    time, show ((s.at u).scEntry i).lastAt = (s.scEntry i).lastAt from rfl, decide_eq_true late]
  exact if_pos rfl

/-! ### Seals -/

theorem execSealChange_stable {s : State} {u i since : Nat} {closed : Bool} (l : i < 8) (stable : since + 20000000 ≤ u)
    (capo : s.pwr.capoOn = true) (run : s.pwr.capoReset = false) (meter : s.host.metering = true)
    (ne : putBit s.saf.seals i closed ≠ s.saf.seals) : execSealChange u i closed since s =
      .next (((s.at u).modSaf (fun x => { x with sealLands := putBit x.sealLands i closed })).sealChange s.saf.seals
        (putBit s.saf.seals i closed)) := by
  refine (if_neg (by omega)).trans (if_neg (not_or.mpr ⟨fun e => ne e.symm, ?_⟩))
  have on : ((s.at u).modSaf (fun x => { x with sealLands := putBit x.sealLands i closed })).pwr.capoOn = true := capo
  have go : ((s.at u).modSaf (fun x => { x with sealLands := putBit x.sealLands i closed })).pwr.capoReset = false := run
  have met : ((s.at u).modSaf (fun x => { x with sealLands := putBit x.sealLands i closed })).host.metering = true := meter
  rw [on, go, met]
  decide

theorem State.sealBindings_spares {ev : Nat} {s : State} {closed : Bool} (ne : ev ∉ [3, 6, 30, 48, 61]) :
    Spares ev s (s.sealBindings closed) := by
  unfold State.sealBindings
  dsimp only
  refine .forAll (.ite (State.invalidate_spares ne) .refl) fun p y => ?_
  exact .ite (State.invalidate_spares ne) .refl

/-- A change of the seals entered in the log and its record built, before its report. -/
def State.sealRecord (s : State) (before after : Nat) : State :=
  let s := s.modSaf (fun x => { x with seals := after })
  let s := s.enterCapo 1 0 0 [byteOf before] [byteOf after] s.frm
  s.buildSeal before after s.frm s.nodeFlags s.regime

/-- What the seals guard, after their change. -/
def State.sealGuard (s : State) (before after : Nat) : State :=
  let s := if before.testBit 0 != after.testBit 0 then s.sealBindings (after.testBit 0) else s
  if before.testBit 2 && !after.testBit 2 then s.relock 3 1 0 0 else s

theorem State.sealChange_eq {s : State} {before after : Nat} : ∃ b, s.sealChange before after =
    ((s.sealRecord before after).raise 42 0 ([byteOf before, byteOf after, 0, 0] ++ b)).sealGuard before after := by
  unfold State.sealChange State.sealRecord State.sealGuard
  dsimp only
  rw [List.append_assoc, List.append_assoc]
  exact ⟨_, rfl⟩

theorem State.sealRecord_sound {s : State} {before after : Nat} (snd : Sound s) : Sound (s.sealRecord before after) :=
  State.buildSeal_sound (State.enterCapo_sound (State.modSaf_sound snd (fun n => n) fun n => n))

theorem State.sealRecord_seals {s : State} {before after : Nat} : (s.sealRecord before after).saf.seals = after := by
  have entered : ∀ x : State, (x.enterCapo 1 0 0 [byteOf before] [byteOf after] x.frm).saf = x.saf := fun x =>
    (State.enterCapo_keeps rfl (Keeps.refl (T := [.host, .log]))).saf rfl
  have built : ∀ (x : State) f g h, (x.buildSeal before after f g h).saf = x.saf := fun x f g h =>
    (State.buildSeal_keeps rfl (Keeps.refl (T := [.host, .pts, .recs, .led, .log]))).saf rfl
  unfold State.sealRecord
  dsimp only
  rw [built, entered]
  rfl

/-- Work that leaves the safety functions and the report of a seal. -/
structure SealsStay (s x : State) : Prop where
  saf : x.saf = s.saf
  spares : Spares 42 s x

theorem SealsStay.refl {s : State} : SealsStay s s := ⟨rfl, .refl⟩

theorem SealsStay.trans {s x y : State} (h : SealsStay s x) (g : SealsStay x y) : SealsStay s y :=
  ⟨g.saf.trans h.saf, h.spares.trans g.spares⟩

theorem SealsStay.ite {s x y : State} {c : Prop} [Decidable c] (h : SealsStay s x) (g : SealsStay s y) :
    SealsStay s (if c then x else y) := by
  split <;> assumption

/-- What the seals guard leaves the seals, and the report of their change. -/
theorem State.sealGuard_stay {s : State} {before after : Nat} : SealsStay s (s.sealGuard before after) := by
  have bound : ∀ x : State, SealsStay x (x.sealBindings (after.testBit 0)) := fun x =>
    ⟨(State.sealBindings_keeps rfl (Keeps.refl (T := [.host, .pts, .log, .keys]))).saf rfl, State.sealBindings_spares (by decide)⟩
  have locked : ∀ x : State, SealsStay x (x.relock 3 1 0 0) := fun x =>
    ⟨(State.relock_keeps rfl (Keeps.refl (T := [.host, .test, .eng, .sw, .log]))).saf rfl, State.relock_spares (by decide)⟩
  have guarded : SealsStay s (if before.testBit 0 != after.testBit 0 then s.sealBindings (after.testBit 0) else s) := .ite (bound s) .refl
  exact .ite (guarded.trans (locked _)) guarded

theorem State.raise_saf {s : State} {ev sub : Nat} {b : Bytes} : (s.raise ev sub b).saf = s.saf := rfl

/-- The seals in force after a change, with its report. -/
theorem State.sealChange_reported {s : State} {before after : Nat} (snd : Sound s) :
    (s.sealChange before after).saf.seals = after ∧ Raised (s.sealChange before after) 42 [byteOf before, byteOf after, 0, 0] := by
  obtain ⟨b, e⟩ := State.sealChange_eq (s := s) (before := before) (after := after)
  rw [e]
  constructor
  · rw [State.sealGuard_stay.saf, State.raise_saf, State.sealRecord_seals]
  · exact (State.raise_raised (State.sealRecord_sound snd).host.queues (by decide) (List.prefix_append _ _) (by simp)).spared
      State.sealGuard_stay.spares

/-! ### An input's level taken, an input latched, and an input released -/

theorem State.takeLevel_low {s : State} {u k : Nat} (l : k < s.saf.ins.length) :
    ((s.takeLevel u k false false).safIn k).a = some false ∧ ((s.takeLevel u k false false).safIn k).demand = (s.safIn k).demand ∧
      ((s.takeLevel u k false false).safIn k).latched = (s.safIn k).latched := by
  have same : ∀ f (g : Safety → Nat), (((s.at u).modSaf (fun x => { x with lands := g x })).modSafIn k f).safIn k = f (s.safIn k) :=
    fun _ _ => getD_upd_eq l
  obtain ⟨a, demand, latched⟩ := State.runInput_leaves (s := ((s.at u).modSaf (fun x => { x with
    lands := putBit x.lands (2 * k + b2n false) false })).modSafIn k (fun x => if false then { x with b := some false } else
      { x with a := some false })) (k := k) (u := u) (j := k)
  rw [same _ fun x => putBit x.lands (2 * k + b2n false) false] at a demand latched
  exact ⟨a, demand, latched⟩

theorem State.takeLevel_other {s : State} {u k j : Nat} {b level : Bool} (ne : j ≠ k) : (s.takeLevel u k b level).safIn j = s.safIn j :=
  (State.runInput_other ne).trans (State.modSafIn_other (Ne.symm ne))

/-- An input latched by discrepancy: its switches are held at rank 4, and it is reported and a cause of its point (R360). -/
structure Latched (s t : State) (k : Nat) : Prop where
  latched : (t.safIn k).latched = true
  demand : (t.safIn k).demand = true
  held : ∀ c ∈ s.siSwitches k, s.Ordered t k c
  raised : Raised t 39 [byteOf k, byteOf (k / 2), 0, byteOf (s.safIn k).first]
  noted : s.isSession (k / 2) = true → 15 ∈ (t.sesOf (k / 2)).causes
  others : ∀ j, j ≠ k → t.safIn j = s.safIn j
  keeps : Keeps [.clk, .host, .pts, .sw, .saf] s t

theorem State.latchInput_holds {s : State} {u k n : Nat} (snd : Sound s) (l : k < 32) : Latched s
    (((((s.latchInput u k).siSwitches k).foldl (fun s n => s.hold4 k n) (s.latchInput u k)).discEvent k 0 n).addCause (k / 2) 15) k := by
  have ysound : Sound (s.latchInput u k) := State.modSafIn_sound (State.at_sound snd)
  have ykeeps : Keeps [.clk, .saf] s (s.latchInput u k) := State.modSafIn_keeps rfl (State.at_keeps rfl .refl)
  have same : (s.latchInput u k).safIn k = { s.safIn k with latched := true, demand := true, cycle := 0 } :=
    State.modSafIn_same (s := s.at u) (snd.inputs.symm ▸ l)
  have others : ∀ j, j ≠ k → (s.latchInput u k).safIn j = s.safIn j := fun j ne => State.modSafIn_other (s := s.at u) (Ne.symm ne)
  have switches : (s.latchInput u k).siSwitches k = s.siSwitches k := State.siSwitches_congr (ykeeps.par rfl)
  have now : (s.latchInput u k).orderNow = s.orderNow := State.orderNow_congr (ykeeps.sw rfl)
  obtain ⟨on, held⟩ := State.hold4s_ordered (s := s.latchInput u k) (src := k) (l := (s.latchInput u k).siSwitches k)
    fun c mc => ysound.switches.symm ▸ State.siSwitches_lt l mc
  rw [switches] at on held ⊢
  have zsound : Sound ((s.siSwitches k).foldl (fun s n => s.hold4 k n) (s.latchInput u k)) :=
    Sound.foldl ysound fun _ _ h => State.hold4_sound h
  generalize (s.siSwitches k).foldl (fun s n => s.hold4 k n) (s.latchInput u k) = z at on held zsound
  have input : ∀ j, z.safIn j = (s.latchInput u k).safIn j := fun j => State.safIn_congr (on.keeps.saf rfl)
  have event : Keeps [.host] z (z.discEvent k 0 n) := State.discEvent_keeps rfl .refl
  have cause : Keeps [.pts] (z.discEvent k 0 n) ((z.discEvent k 0 n).addCause (k / 2) 15) := State.addCause_keeps rfl .refl
  have late : Keeps [.host, .pts] z ((z.discEvent k 0 n).addCause (k / 2) 15) := cause.then rfl (event.mono rfl)
  have raised : Raised (z.discEvent k 0 n) 39 [byteOf k, byteOf (k / 2), 0, byteOf (z.safIn k).first] := State.discEvent_raised zsound
  have zkeeps : Keeps [.clk, .sw, .saf] s z := on.keeps.then rfl (ykeeps.mono rfl)
  rw [input, same] at raised
  refine ⟨?_, ?_, fun c mc => ?_, raised.spared (.of_keeps cause rfl), fun ses => State.addCause_noted ?_ ?_, fun j ne => ?_,
    late.then rfl (zkeeps.mono rfl)⟩
  · rw [State.safIn_congr (late.saf rfl), input, same]
  · rw [State.safIn_congr (late.saf rfl), input, same]
  · have o := (held c mc).before now
    unfold State.Ordered at o ⊢
    rw [State.swch_congr (late.sw rfl), late.sw rfl]
    exact o
  · rw [event.pts rfl, zkeeps.pts rfl, snd.pts]
    omega
  · exact (State.isSession_congr ((event.par rfl).trans (zkeeps.par rfl))).trans ses
  · rw [State.safIn_congr (late.saf rfl), input, others j ne]

theorem State.releaseSi_on {s : State} {k c : Nat} : ((s.releaseSi k).swch c).on = (s.swch c).on := by
  by_cases l : c < s.sw.ch.length
  · rw [State.releaseSi, State.swch_map l]
  · have out : ∀ t : State, t.sw.ch.length = s.sw.ch.length → t.swch c = SwCh.reset := fun t e => List.getD_eq_default _ _ (by omega)
    rw [out _ (List.length_map ..), out s rfl]

theorem State.releaseInput_raised {s : State} {k : Nat} (snd : Sound s) : Raised (s.releaseInput k) 41 [0, byteOf k, 2] := by
  have sound : Sound ((s.releaseSi k).modSafIn k (fun x => { x with trip := false, autoDue := none })) :=
    State.modSafIn_sound (State.releaseSi_sound snd)
  exact State.inputDemand_raised sound

end Sys2Proof.Machine

open Sys2Proof Sys2Proof.Machine

/-- Settles O23: the inputs, the messages and the seals, by the laws of the holds they put on and take off. -/
theorem safetyEventsComplete : Obligations.SafetyEventsComplete := by
  intro s u snd
  have sndu : Sound (s.at u) := State.at_sound snd
  refine ⟨fun k chanB level n l short => ?short, fun k n l live lasted m d => ?demand, fun k d l free e le => ?discrepancy,
    fun k d l trip gone free e le => ?release, fun i d l ended gone e le => ?entry, fun i d => ?send,
    fun i msg cons live capo run front plain len proto => ⟨fun bad runs => ?bad, fun crc kind runs quiet none' next => ?good⟩,
    fun i cons capo runs late => ?expires, fun i closed since l stable capo run meter ne => ?seals⟩
  case short => exact if_pos (.inr (.inr (.inl short)))
  case demand =>
    have sound : Sound (s.takeLevel u k false false) :=
      State.runInput_sound (State.modSafIn_sound (State.modSaf_sound sndu (fun n => n) fun n => n))
    have keeps : Keeps [.clk, .saf] s (s.takeLevel u k false false) :=
      State.runInput_keeps rfl (State.modSafIn_keeps rfl State.modSaf_at_keeps)
    obtain ⟨level, old, latch⟩ := State.takeLevel_low (s := s) (u := u) (k := k) (snd.inputs.symm ▸ l)
    have mode : (s.takeLevel u k false false).siMode k = s.siMode k := State.siMode_congr (keeps.par rfl)
    have demand : (s.takeLevel u k false false).demandA k = true := by
      unfold State.demandA
      rw [mode, level, bne_iff_ne.mpr m]
      rfl
    have t := State.settleInput_demanded sound l (mode ▸ m) demand
    have switches : (s.takeLevel u k false false).siSwitches k = s.siSwitches k := State.siSwitches_congr (keeps.par rfl)
    have sw : ∀ c, (s.takeLevel u k false false).swch c = s.swch c := fun c => State.swch_congr (keeps.sw rfl)
    refine ⟨_, execSiLevelChange_filtered l live lasted d, (congrArg SafIn.a t.input).trans level, congrArg SafIn.demand t.input,
      congrArg SafIn.trip t.input, fun c mc => t.held c (switches.symm ▸ mc), fun quiet => ⟨(t.fresh (old.trans quiet)).1, fun ses =>
        (t.fresh (old.trans quiet)).2 ((State.isSession_congr (keeps.par rfl)).trans ses)⟩, fun c no free => ?_, fun j ne => ?_,
      t.keeps.then rfl (keeps.mono rfl)⟩
    · refine (t.left c (switches.symm ▸ no) ?_).trans (sw c)
      rw [latch, sw]
      exact free
    · exact (t.others j ne).trans (State.takeLevel_other ne)
  case discrepancy =>
    obtain ⟨n, f⟩ := execSafetyDiscrepancyLatch_due free e le
    have t := State.latchInput_holds (s := s) (u := u) (n := n) snd l
    exact ⟨_, f, t.latched, t.demand, t.held, t.raised, t.noted, t.others, t.keeps⟩
  case release =>
    have same : ((s.at u).releaseInput k).safIn k = { s.safIn k with trip := false, autoDue := none } := getD_upd_eq (snd.inputs.symm ▸ l)
    refine ⟨_, execSafetyAutoRelease_input l trip gone free e le, congrArg SafIn.trip same,
      fun c => State.releaseSi_gone (s := s.at u), fun c => State.releaseSi_on (s := s.at u), State.releaseInput_raised sndu,
      fun j ne => State.modSafIn_other (s := (s.at u).releaseSi k) (Ne.symm ne), State.releaseInput_keeps rfl (State.at_keeps rfl .refl)⟩
  case entry =>
    have r := State.releaseEntry_releases (s := s.at u) (i := i) (code := 1) (snd.entries.symm ▸ l)
    refine ⟨_, execSafetyAutoRelease_entry l ended gone e le, fun p => ?_, r.auto, r.others, r.keeps.then rfl (State.at_keeps rfl .refl)⟩
    refine (r.held p).trans (and_congr_right fun _ => not_congr ?_)
    rw [State.siRestart_congr (s := s) (t := s.at u) rfl]
  case send =>
    intro e kind prod live capo run due le front plain
    have li : i < s.saf.entries.length := snd.entries.symm ▸ isProducer_lt prod
    have first : ∀ f, ((s.at u).modScEntry i f).scEntry i = f (s.scEntry i) := fun _ => State.modScEntry_same (s := s.at u) li
    have same : ∀ f g, (((s.at u).modScEntry i f).modScEntry i g).scEntry i = g (f (s.scEntry i)) := fun f g =>
      (State.modScEntry_same (s := (s.at u).modScEntry i f) ((List.length_modify ..).symm ▸ li)).trans (congrArg g (first f))
    have time : (s.at u).pn (ND_SC_TIME_0 + i) = s.pn (ND_SC_TIME_0 + i) := State.pn_congr rfl
    refine ⟨_, execSafetyMessageSend_due prod live capo run due le front plain, ?_, congrArg ScEntry.seq (same _ _),
      (congrArg ScEntry.sentDemand (same _ _)).trans (State.producerDemand_congr rfl rfl), ?_, fun j ne => ?_,
      State.modScEntry_keeps rfl (State.modScEntry_keeps rfl (State.at_keeps rfl .refl))⟩
    · rw [same, State.nextMessage_at]
      rfl
    · rw [same, time]
    · exact (State.modScEntry_other (Ne.symm ne)).trans (State.modScEntry_other (Ne.symm ne))
  case bad =>
    have same : (s.at u).scIdentity i = s.scIdentity i := State.scIdentity_congr rfl
    have f := execSafetyMessageReceived_plain (u := u) (msg := msg) cons live capo run front plain
    rw [State.consume_badCrc (s := s.at u) len proto (same.symm ▸ bad)] at f
    have t := State.faultEntry_faults (cause := 1) (recv := fld msg 0 2) sndu (isConsumer_lt cons) runs
    exact ⟨_, f, t.state, t.raised, fun p m c mc => t.held p m c mc, fun p m ses => t.noted p m ses,
      t.keeps.then rfl (State.at_keeps rfl .refl)⟩
  case good =>
    have li : i < (s.at u).saf.entries.length := snd.entries.symm ▸ isConsumer_lt cons
    have same : (s.at u).scIdentity i = s.scIdentity i := State.scIdentity_congr rfl
    have conf : (s.at u).scConf i = s.scConf i := State.scConf_congr rfl
    obtain ⟨f, eq, held⟩ := State.consume_good (s := s.at u) len proto (same.symm ▸ crc) (conf.symm ▸ kind) runs quiet none' next li
    have e := execSafetyMessageReceived_plain (u := u) (msg := msg) cons live capo run front plain
    rw [eq] at e
    have now : ((s.at u).modScEntry i f).scEntry i = f (s.scEntry i) := State.modScEntry_same li
    obtain ⟨last, at', state⟩ := held (s.scEntry i)
    exact ⟨_, e, (congrArg ScEntry.last now).trans last, (congrArg ScEntry.lastAt now).trans at',
      (congrArg ScEntry.state now).trans (state.trans runs), fun j ne => State.modScEntry_other (Ne.symm ne),
      State.modScEntry_keeps rfl (State.at_keeps rfl .refl)⟩
  case expires =>
    have t := State.faultEntry_faults (cause := 0) (recv := 0) sndu (isConsumer_lt cons)
      (fun two => absurd ((show ((s.at u).scEntry i).state = 1 from runs).symm.trans two) (by decide))
    exact ⟨_, execSafetyTimeExpectationExpiry_late cons capo runs late, t.state, t.raised, fun p m c mc => t.held p m c mc,
      t.keeps.then rfl (State.at_keeps rfl .refl)⟩
  case seals =>
    have r := State.sealChange_reported (s := (s.at u).modSaf (fun x => { x with sealLands := putBit x.sealLands i closed }))
      (before := s.saf.seals) (after := putBit s.saf.seals i closed) (State.modSaf_sound sndu (fun n => n) fun n => n)
    have f := execSealChange_stable l stable capo run meter ne
    exact ⟨_, f, r.1, r.2, exec_keeps (.sealChange u i closed since) _ _ f⟩
end

section
/-!
The pilots and the residual currents of an outlet (12 R295–R313).
-/

namespace Sys2Proof.Machine

theorem isSession_of_outlet {s : State} {p : Nat} (o : s.isOutlet p = true) : s.isSession p = true := by
  unfold State.isOutlet at o
  unfold State.isSession
  dsimp only
  rw [o, Bool.true_or]

theorem State.setPilot_ses {s : State} {p q : Nat} : (s.setPilot p).sesOf q = s.sesOf q := State.modOut_ses

theorem State.setPilot_onPoint {s : State} {p : Nat} : OnPoint p s (s.setPilot p) := State.modPt_onPoint

/-- Setting the pilot touches the duty to come alone. -/
theorem State.setPilot_out {α : Type} {s : State} {p q : Nat} (g : Outlet → α) (e : ∀ o d, g { o with dutyNext := d } = g o) :
    g ((s.setPilot p).outOf q) = g (s.outOf q) := State.modOut_leaves g fun o => by
  split
  · exact e o _
  · split
    · rfl
    · exact e o _

theorem State.addCause_onPoint {s : State} {p c : Nat} : OnPoint p s (s.addCause p c) := .ite State.modSes_onPoint .refl

theorem State.addCause_out {s : State} {p q c : Nat} : (s.addCause p c).outOf q = s.outOf q := by
  unfold State.addCause
  split
  · exact State.modSes_out
  · rfl

/-! ### Residual currents -/

theorem State.rcdEvent_raised {s : State} {p k comp c : Nat} (snd : Sound s) :
    Raised (s.rcdEvent p k comp c) 31 [byteOf p, byteOf k, byteOf comp, byteOf c] :=
  State.raise_raised snd.host.queues (by decide) (by simp) (by simp)

theorem State.rcdEvent_pts {s : State} {p k comp c : Nat} : (s.rcdEvent p k comp c).pts = s.pts :=
  (State.rcdEvent_keeps rfl (Keeps.refl (T := [.host]))).pts rfl

/-- A contactor latched at rank 1 by a residual trip, before its outlet takes note of it. -/
def State.latchContactor (s : State) (n : Nat) : State := (s.modSwch n (fun x => { x with resHold := true })).forceSafe n

/-- A contactor latched: the hold stands, a safe-off one is off, and no other channel changes. -/
structure ContactorLatched (s x : State) (n : Nat) : Prop where
  held : (x.swch n).resHold = true
  off : s.safeOn n = false → (x.swch n).on = false
  others : ∀ m, m ≠ n → x.swch m = s.swch m

theorem State.latchContactor_latched {s : State} {n : Nat} (snd : Sound s) (l : n < 32) : ContactorLatched s (s.latchContactor n) n := by
  have sized : n < (s.modSwch n (fun x => { x with resHold := true })).sw.ch.length := (sized_upd snd.switches).symm ▸ l
  have now : (s.latchContactor n).swch n = ({ s.swch n with resHold := true } : SwCh).force s.clk.up (s.safeOn n) s.sw.powered := by
    unfold State.latchContactor State.forceSafe
    rw [State.modSwch_same sized, State.modSwch_same (snd.switches.symm ▸ l)]
    rfl
  refine ⟨?_, fun off => ?_, fun m ne => (State.modSwch_other (Ne.symm ne)).trans (State.modSwch_other (Ne.symm ne))⟩
  · rw [now]
    exact (SwCh.setOut_holds).1
  · rw [now, off]
    exact SwCh.setOut_on

theorem ContactorLatched.congr {s x y : State} {n : Nat} (h : ContactorLatched s x n) (e : y.sw = x.sw) : ContactorLatched s y n :=
  ⟨State.swch_congr e ▸ h.held, fun off => State.swch_congr e ▸ h.off off, fun m ne => (State.swch_congr e).trans (h.others m ne)⟩

/-- What an outlet notes of a trip (R311). -/
def State.noteTrip (s : State) (u p comp c : Nat) : State :=
  s.modOut p (fun o => { o with
    lastAbove := some u
    tripOwed := o.tripOwed || !o.trip
    tripComp := if o.trip then o.tripComp else comp
    tripSlice := if o.trip then o.tripSlice else c
    trip := true })

theorem execResidualTrip_due {s : State} {u c comp : Nat} {input : List Int} (lc : c < 128) (lk : comp < 6)
    (out : s.isOutlet (pointOf c) = true) (due : s.tripDue u c comp input = true)
    (plain : ¬ ((s.outOf (pointOf c)).test = 1 ∧ (s.outOf (pointOf c)).testSlices.head? = some c)) :
    execResidualTrip u c comp input s = .next
      (let x := ((s.at u).latchContactor ((s.at u).contactor (pointOf c))).noteTrip u (pointOf c) comp c
       if s.pwr.capoOn ∧ (s.outOf (pointOf c)).trip = false then x.reportTrip (pointOf c) else x) := by
  unfold execResidualTrip
  dsimp only
  rw [if_pos ⟨lc, lk, out, due⟩]
  exact if_neg plain

theorem execResidualTrip_test {s : State} {u c comp : Nat} {input : List Int} (lc : c < 128) (lk : comp < 6)
    (out : s.isOutlet (pointOf c) = true) (due : s.tripDue u c comp input = true) (test : (s.outOf (pointOf c)).test = 1)
    (own : (s.outOf (pointOf c)).testSlices.head? = some c) : execResidualTrip u c comp input s =
      .next (((s.at u).latchContactor ((s.at u).contactor (pointOf c))).modOut (pointOf c)
        (fun o => { o with testTrip := o.testTrip || decide (u ≤ o.testDue.getD u) })) := by
  unfold execResidualTrip
  dsimp only
  rw [if_pos ⟨lc, lk, out, due⟩]
  exact if_pos ⟨test, own⟩

/-- A trip reported: the trip stands, and it is a cause of the point. -/
theorem State.reportTrip_reports {s : State} {p : Nat} (l : p < s.pts.length) (ses : s.isSession p = true) :
    ((s.reportTrip p).outOf p).trip = (s.outOf p).trip ∧ 13 ∈ ((s.reportTrip p).sesOf p).causes ∧ OnPoint p s (s.reportTrip p) := by
  have event : ∀ (x : State) a b, OnPoint p x (x.rcdEvent p 0 a b) := fun _ _ _ => .of_eq State.rcdEvent_pts
  have noted : ∀ a b, OnPoint p s ((s.modOut p (fun o => { o with tripOwed := false })).rcdEvent p 0 a b) := fun _ _ =>
    State.modOut_onPoint.trans (event _ _ _)
  have kept : ∀ a b, Keeps [.host, .pts] s ((s.modOut p (fun o => { o with tripOwed := false })).rcdEvent p 0 a b) := fun _ _ =>
    State.rcdEvent_keeps rfl (State.modOut_keeps rfl .refl)
  unfold State.reportTrip
  refine ⟨?_, State.addCause_noted ((noted _ _).size.symm ▸ l) ((State.isSession_congr ((kept _ _).par rfl)).trans ses),
    (noted _ _).trans State.addCause_onPoint⟩
  rw [State.addCause_out, State.outOf_congr State.rcdEvent_pts]
  exact State.modOut_leaves Outlet.trip fun _ => rfl

/-! ### The self-test's result -/

/-- An injection ended: the slice and the test DAC are free, and the outlet's test stands as it did. -/
structure InjectionEnded (s x : State) (p c : Nat) : Prop where
  slice : (x.slice c).inject = none
  dac : (x.conv 3).dac = 0
  point : OnPoint p s x
  ses : x.sesOf p = s.sesOf p
  keeps : Keeps [.slices, .pts, .sw, .sar] s x

/-- A slice's injection taken away and the test DAC freed. -/
def State.freeInjection (s : State) (c : Nat) : State :=
  (s.modSlice c (fun x => { x with inject := none })).modConv 3 (fun k => { k with dac := 0 })

theorem State.endInjection_ended {s : State} {p c : Nat} {rest : List Nat} (snd : Sound s) (lc : c < 128)
    (own : (s.outOf p).testSlices = c :: rest) : InjectionEnded s (s.endInjection p) p c := by
  have slice : (s.freeInjection c).slice c = { s.slice c with inject := none } := State.modSlice_same (snd.slices.symm ▸ lc)
  have dac : (s.freeInjection c).conv 3 = { s.conv 3 with dac := 0 } :=
    State.modConv_same (s := s.modSlice c _) (snd.converters.symm ▸ (by decide : 3 < 4))
  have freed : OnPoint p s (s.freeInjection c) := .of_eq rfl
  have kept : Keeps [.slices, .sar] s (s.freeInjection c) := State.modConv_keeps rfl (State.modSlice_keeps rfl .refl)
  have ended : ∀ f, InjectionEnded s ((s.freeInjection c).modOut p f) p c := fun f =>
    ⟨congrArg Slice.inject slice, congrArg SarConv.dac dac, freed.trans State.modOut_onPoint, State.modOut_ses,
      State.modOut_keeps rfl (kept.mono rfl)⟩
  have opened : ∀ (x : State) n f, InjectionEnded s x p c → InjectionEnded s (x.modSwch n f) p c := fun _ _ _ h =>
    ⟨h.slice, h.dac, ⟨h.point.others, h.point.size⟩, h.ses, State.modSwch_keeps rfl h.keeps⟩
  unfold State.endInjection
  dsimp only
  rw [own]
  dsimp only
  split
  · exact ended _
  · exact opened _ _ _ (ended _)

/-- The test of the last slice ended and reported. -/
structure TestEnded (s x : State) (p c test k : Nat) : Prop where
  test : (x.outOf p).test = test
  slices : (x.outOf p).testSlices = []
  slice : (x.slice c).inject = none
  dac : (x.conv 3).dac = 0
  raised : Raised x 31 [byteOf p, byteOf k, 0xFF, byteOf c]
  others : ∀ q, q ≠ p → x.pt q = s.pt q
  ses : x.sesOf p = s.sesOf p
  keeps : Keeps [.clk, .host, .slices, .pts, .sw, .sar] s x

theorem InjectionEnded.reported {s x : State} {p c test k : Nat} {f : Outlet → Outlet} (h : InjectionEnded s x p c) (snd : Sound x)
    (l : p < s.pts.length) (e : ∀ o, (f o).test = test ∧ (f o).testSlices = []) :
    TestEnded s ((x.modOut p f).rcdEvent p k 0xFF c) p c test k := by
  have event : Keeps [.host] (x.modOut p f) ((x.modOut p f).rcdEvent p k 0xFF c) := State.rcdEvent_keeps rfl .refl
  have now : ((x.modOut p f).rcdEvent p k 0xFF c).outOf p = f (x.outOf p) :=
    (State.outOf_congr State.rcdEvent_pts).trans (State.modOut_same (h.point.size.symm ▸ l))
  refine ⟨now ▸ (e _).1, now ▸ (e _).2, ?_, ?_, State.rcdEvent_raised (State.modOut_sound snd), fun q ne => ?_, ?_,
    event.then rfl (State.modOut_keeps rfl (h.keeps.mono rfl))⟩
  · have same : ((x.modOut p f).rcdEvent p k 0xFF c).slices = x.slices := event.slices rfl
    unfold State.slice
    rw [same]
    exact h.slice
  · have same : ((x.modOut p f).rcdEvent p k 0xFF c).sar = x.sar := event.sar rfl
    unfold State.conv
    rw [same]
    exact h.dac
  · exact (State.pt_congr State.rcdEvent_pts).trans ((State.modOut_onPoint.others q ne).trans (h.point.others q ne))
  · exact (State.sesOf_congr State.rcdEvent_pts).trans (State.modOut_ses.trans h.ses)

theorem execResidualSelfTestResult_passes {s : State} {u p c : Nat} (l : p < 16) (test : (s.outOf p).test = 1)
    (own : (s.outOf p).testSlices = [c]) (trip : (s.outOf p).testTrip = true) : execResidualSelfTestResult u p s =
      .next ((((s.at u).endInjection p).modOut p (fun o => { o with test := 2, testSlices := [], testTrip := false })).rcdEvent p 2 0xFF c) := by
  have own' : ((s.at u).outOf p).testSlices = [c] := own
  unfold execResidualSelfTestResult
  dsimp only
  rw [if_pos ⟨l, test, .inl trip⟩, own', if_pos (show ((s.at u).outOf p).testTrip = true from trip)]
  rfl

theorem execResidualSelfTestResult_fails {s : State} {u p c : Nat} (l : p < 16) (test : (s.outOf p).test = 1)
    (own : (s.outOf p).testSlices = [c]) (trip : (s.outOf p).testTrip = false) (due : ripeAt (s.outOf p).testDue u = true)
    (st : (((((s.at u).endInjection p).modOut p (fun o => { o with test := 3, testSlices := [] })).rcdEvent p 3 0xFF c).sesOf p).state ≠ .authorised) :
    execResidualSelfTestResult u p s =
      .next ((((s.at u).endInjection p).modOut p (fun o => { o with test := 3, testSlices := [] })).rcdEvent p 3 0xFF c) := by
  have own' : ((s.at u).outOf p).testSlices = [c] := own
  unfold execResidualSelfTestResult
  dsimp only
  rw [if_pos ⟨l, test, .inr due⟩, own',
    if_neg (by rw [show ((s.at u).outOf p).testTrip = false from trip]; exact Bool.false_ne_true)]
  exact congrArg Host.Outcome.next (if_neg st)

/-! ### Pilot and proximity -/

theorem State.fireTrigger_calmPts {s : State} {a b : Nat} {l : List Nat} : (s.fireTrigger a b l).pts = s.pts :=
  (State.fireTrigger_keeps rfl (Keeps.refl (T := [.sar]))).pts rfl

/-- A pilot period taken by its outlet. -/
def Outlet.period (o : Outlet) (e : Nat) : Outlet :=
  let o := { o with periodAt := e }
  match o.dutyNext with
  | some (d, a) => if a + 250000 ≤ e then { o with duty := d, dutyNext := none } else o
  | none => o

theorem execPilotPeriod_due {s : State} {u p : Nat} (l : p < 16) (st : 3 ≤ s.pwr.stage)
    (le : (s.at u).t0 (s.frm / 4 * 4) + 62500 * p ≤ u) (ne : (s.at u).t0 (s.frm / 4 * 4) + 62500 * p ≠ (s.outOf p).periodAt) :
    ∃ t, execPilotPeriod u p s = .next t ∧
      t.pts = ((s.at u).modOut p (fun o => o.period ((s.at u).t0 (s.frm / 4 * 4) + 62500 * p))).pts := by
  refine ⟨_, if_pos ⟨l, st, le, ne⟩, ?_⟩
  split
  · rw [State.fireTrigger_calmPts, State.fireTrigger_calmPts]
    rfl
  · rw [State.fireTrigger_calmPts]
    rfl

theorem State.outletChange_raised {s : State} {p sig old new : Nat} {hi : Int} {lo : Option Int} (snd : Sound s) :
    Raised (s.outletChange p sig old new hi lo) 29 [byteOf p, byteOf sig, byteOf old, byteOf new] := by
  unfold State.outletChange State.raiseRaw
  refine State.addDetail_raised (State.modOut_sound snd).host.queues (by decide) (prefix_padTo ?_ (by simp))
  simp

theorem State.outletChange_pts {s : State} {p sig old new : Nat} {hi : Int} {lo : Option Int} :
    (s.outletChange p sig old new hi lo).pts = (s.modOut p (fun o => { o with changes := inc32 o.changes })).pts := rfl

theorem State.outletChange_onPoint {s : State} {p sig old new : Nat} {hi : Int} {lo : Option Int} :
    OnPoint p s (s.outletChange p sig old new hi lo) := State.modOut_onPoint.trans (.of_eq State.outletChange_pts)

theorem State.outletChange_ses {s : State} {p sig old new q : Nat} {hi : Int} {lo : Option Int} :
    (s.outletChange p sig old new hi lo).sesOf q = s.sesOf q := (State.sesOf_congr State.outletChange_pts).trans State.modOut_ses

theorem State.outletChange_out {α : Type} {s : State} {p sig old new q : Nat} {hi : Int} {lo : Option Int} (g : Outlet → α)
    (e : ∀ o n, g { o with changes := n } = g o) : g ((s.outletChange p sig old new hi lo).outOf q) = g (s.outOf q) :=
  (congrArg g (State.outOf_congr State.outletChange_pts)).trans (State.modOut_leaves g fun o => e o _)

/-- Of a self-test begun: the session and the pilot's code stand. -/
structure PilotStands (p : Nat) (s x : State) : Prop where
  point : OnPoint p s x
  ses : x.sesOf p = s.sesOf p
  code : (x.outOf p).code = (s.outOf p).code
  keeps : Keeps [.host, .slices, .pts, .sar] s x

theorem PilotStands.refl {p : Nat} {s : State} : PilotStands p s s := ⟨.refl, rfl, rfl, .refl⟩

theorem PilotStands.trans {p : Nat} {s x y : State} (h : PilotStands p s x) (g : PilotStands p x y) : PilotStands p s y :=
  ⟨h.point.trans g.point, g.ses.trans h.ses, g.code.trans h.code, g.keeps.then rfl h.keeps⟩

theorem State.modOut_stands {p : Nat} {s : State} {f : Outlet → Outlet} (e : ∀ o, (f o).code = o.code) : PilotStands p s (s.modOut p f) :=
  ⟨State.modOut_onPoint, State.modOut_ses, State.modOut_leaves Outlet.code e, State.modOut_keeps rfl .refl⟩

theorem PilotStands.of_pts {p : Nat} {s x : State} (k : Keeps [.slices, .sar] s x) : PilotStands p s x :=
  ⟨.of_eq (k.pts rfl), State.sesOf_congr (k.pts rfl), congrArg Outlet.code (State.outOf_congr (k.pts rfl)), k.mono rfl⟩

theorem State.runSelfTest_stands {p : Nat} {s : State} : PilotStands p s (s.runSelfTest p) := by
  have injected : ∀ (x : State) c (f : Slice → Slice) g, PilotStands p x ((x.modConv 3 g).modSlice c f) := fun _ _ _ _ =>
    .of_pts (State.modSlice_keeps rfl (State.modConv_keeps rfl .refl))
  have noted : ∀ f : Outlet → Outlet, (∀ o, (f o).code = o.code) → PilotStands p s (s.modOut p f) := fun _ e => State.modOut_stands e
  unfold State.runSelfTest
  split
  · exact .refl
  · split
    · exact noted _ fun _ => rfl
    · exact (noted (fun o => { o with test := 1, testTrip := false, testDue := some (s.clk.up + 100000000) }) fun _ => rfl).trans (injected _ _ _ _)

theorem State.startSelfTest_stands {p : Nat} {s : State} : PilotStands p s (s.startSelfTest p) := by
  unfold State.startSelfTest
  dsimp only
  split
  · exact State.modOut_stands fun _ => rfl
  · exact (State.modOut_stands (f := fun o => { o with testSlices := s.rcdSlices p }) fun _ => rfl).trans State.runSelfTest_stands

theorem State.pilotEffect_fault {s : State} {p old new : Nat} (four : 4 ≤ new) (st : (s.sesOf p).state ≠ .fault) :
    s.pilotEffect p old new = s.addCause p 12 := by
  have acts : s.pilotActs p new = new := if_neg fun h => absurd h.1 (by omega)
  unfold State.pilotEffect
  dsimp only
  rw [acts, if_pos four, if_neg st]

/-- From A to B an idle session asks for authorisation, and the self-test begins. -/
theorem State.pilotEffect_plugged {s : State} {p : Nat} (st : (s.sesOf p).state = .idle) :
    s.pilotEffect p 0 1 = (s.enterState p .authorising 0).startSelfTest p := by
  have a0 : s.pilotActs p 0 = 0 := if_neg fun h => absurd h.1 (by decide)
  have b1 : s.pilotActs p 1 = 1 := if_neg fun h => absurd h.1 (by decide)
  unfold State.pilotEffect State.leavesA
  dsimp only
  rw [a0, b1, if_neg (by decide), if_neg (by decide), if_pos rfl, st]
  exact if_neg fun h => absurd h.2.1 (by decide)

/-- An accepted pilot code taken by its outlet. -/
def State.takeCode (s : State) (u p : Nat) : State :=
  s.modOut p (fun o => { o with
    code := o.cand
    abAt := if o.cand < 2 then (if o.abAt.isSome then o.abAt else some u) else none })

/-- An accepted code taken and reported, before its effect. -/
structure CodeTaken (s x : State) (p : Nat) : Prop where
  code : (x.outOf p).code = (s.outOf p).cand
  ses : x.sesOf p = s.sesOf p
  point : OnPoint p s x
  raised : Raised x 29 [byteOf p, 0, byteOf (s.outOf p).code, byteOf (s.outOf p).cand]
  frame : x.frm = s.frm
  keeps : Keeps [.clk, .host, .pts] s x

theorem execPilotCodeAccepted_stable {s : State} {u p : Nat} (snd : Sound s) (l : p < 16) (out : s.isOutlet p = true)
    (capo : s.pwr.capoOn = true) (duty : (s.outOf p).duty ≠ 0) (ne : (s.outOf p).cand ≠ (s.outOf p).code)
    (stable : s.pn PT_CP_STABLE p ≤ (s.outOf p).run) : ∃ x, execPilotCodeAccepted u p s =
      .next ((x.pilotEffect p (s.outOf p).code (s.outOf p).cand).setPilot p) ∧ CodeTaken s x p := by
  have lp : p < (s.at u).pts.length := snd.pts.symm ▸ l
  have now : ((s.at u).takeCode u p).outOf p = _ := State.modOut_same lp
  have changed : ∀ hi lo, CodeTaken s (((s.at u).takeCode u p).outletChange p 0 (s.outOf p).code (s.outOf p).cand hi lo) p := fun hi lo =>
    ⟨(State.outletChange_out Outlet.code fun _ _ => rfl).trans (congrArg Outlet.code now), State.outletChange_ses.trans State.modOut_ses,
      ((OnPoint.of_eq rfl : OnPoint p s (s.at u)).trans State.modOut_onPoint).trans State.outletChange_onPoint,
      State.outletChange_raised (State.modOut_sound (State.at_sound snd)), rfl,
      State.outletChange_keeps rfl (State.modOut_keeps rfl (State.at_keeps rfl .refl))⟩
  exact ⟨_, if_pos ⟨l, out, capo, duty, ne, stable⟩, changed _ _⟩

theorem execProximityCodeAccepted_stable {s : State} {u p : Nat} (snd : Sound s) (l : p < 16) (sock : s.hasSocket p = true)
    (capo : s.pwr.capoOn = true) (ne : (s.outOf p).ppCand ≠ (s.outOf p).ppCode) (ten : 10 ≤ (s.outOf p).ppRun) :
    ∃ x : State, (x.outOf p).ppCode = (s.outOf p).ppCand ∧ x.sesOf p = s.sesOf p ∧ OnPoint p s x ∧
      Raised x 29 [byteOf p, 1, byteOf (s.outOf p).ppCode, byteOf (s.outOf p).ppCand] ∧ Keeps [.clk, .host, .pts] s x ∧
      execProximityCodeAccepted u p s = .next (State.setPilot
        (if (s.outOf p).ppCand = 0 ∧ (x.sesOf p).state = .transferring then x.addCause p 5
          else if 5 ≤ (s.outOf p).ppCand ∧ (x.sesOf p).state ≠ .fault then x.addCause p 12 else x) p) := by
  have lp : p < (s.at u).pts.length := snd.pts.symm ▸ l
  have now : ((s.at u).modOut p (fun o => { o with ppCode := o.ppCand })).outOf p = _ := State.modOut_same lp
  have raised : ∀ hi lo, Raised (((s.at u).modOut p (fun o => { o with ppCode := o.ppCand })).outletChange p 1 (s.outOf p).ppCode
      (s.outOf p).ppCand hi lo) 29 [byteOf p, 1, byteOf (s.outOf p).ppCode, byteOf (s.outOf p).ppCand] := fun _ _ =>
    State.outletChange_raised (State.modOut_sound (State.at_sound snd))
  exact ⟨_, (State.outletChange_out Outlet.ppCode fun _ _ => rfl).trans (congrArg Outlet.ppCode now),
    State.outletChange_ses.trans State.modOut_ses,
    ((OnPoint.of_eq rfl : OnPoint p s (s.at u)).trans State.modOut_onPoint).trans State.outletChange_onPoint, raised _ _,
    State.outletChange_keeps rfl (State.modOut_keeps rfl (State.at_keeps rfl .refl)), if_pos ⟨l, sock, capo, ne, ten⟩⟩

/-- A cause noted and the pilot set: the cause stands, and of the outlet only the duty to come changes. -/
theorem State.causedPilot_noted {x : State} {p c : Nat} (l : p < x.pts.length) (ses : x.isSession p = true) :
    c ∈ (((x.addCause p c).setPilot p).sesOf p).causes := by
  rw [State.setPilot_ses]
  exact State.addCause_noted l ses

end Sys2Proof.Machine

open Sys2Proof Sys2Proof.Machine

/-- Settles O20: residual trips and self-tests, pilot periods, and accepted codes, each on its own outlet. -/
theorem outletPilotAndResidualEventsComplete : Obligations.OutletPilotAndResidualEventsComplete := by
  intro s u snd
  have sndu : Sound (s.at u) := State.at_sound snd
  have atOn : ∀ p, OnPoint p s (s.at u) := fun _ => .of_eq rfl
  refine ⟨fun c comp input => ?residual, fun p c l test own lc => ⟨fun trip => ?passes, fun trip due st => ?fails⟩, fun p => ?period,
    fun p l out capo duty ne stable => ⟨fun four st => ?fault, fun a b st => ?plugged⟩, fun p l sock capo ne ten => ?proximity⟩
  case residual =>
    intro p lc lk out ln due
    have lp : p < s.pts.length := by
      have small : p < 16 := by
        change c / 8 < 16
        omega
      exact snd.pts.symm ▸ small
    have latched := State.latchContactor_latched (s := s.at u) (n := s.contactor p) sndu ln
    have kept : Keeps [.clk, .sw] s ((s.at u).latchContactor (s.contactor p)) :=
      State.forceSafe_keeps rfl (State.modSwch_keeps rfl (State.at_keeps rfl .refl))
    have pts : ((s.at u).latchContactor (s.contactor p)).pts = s.pts := kept.pts rfl
    refine ⟨fun plain => ?_, fun test own within' => ?_⟩
    · have note : OnPoint p s (((s.at u).latchContactor (s.contactor p)).noteTrip u p comp c) :=
        (OnPoint.of_eq pts).trans State.modOut_onPoint
      have trip : ((((s.at u).latchContactor (s.contactor p)).noteTrip u p comp c).outOf p).trip = true :=
        congrArg Outlet.trip (State.modOut_same (pts.symm ▸ lp))
      have noteKept : Keeps [.clk, .pts, .sw] s (((s.at u).latchContactor (s.contactor p)).noteTrip u p comp c) :=
        State.modOut_keeps rfl (kept.mono rfl)
      have e := execResidualTrip_due lc lk out due plain
      by_cases report : s.pwr.capoOn = true ∧ (s.outOf p).trip = false
      · obtain ⟨stands, noted, on⟩ := State.reportTrip_reports (s := ((s.at u).latchContactor (s.contactor p)).noteTrip u p comp c) (p := p)
          (note.size.symm ▸ lp) ((State.isSession_congr (noteKept.par rfl)).trans (isSession_of_outlet out))
        have reported : Keeps [.host, .pts] (((s.at u).latchContactor (s.contactor p)).noteTrip u p comp c)
          ((((s.at u).latchContactor (s.contactor p)).noteTrip u p comp c).reportTrip p) := State.reportTrip_keeps rfl .refl
        have sw := latched.congr (y := (((s.at u).latchContactor (s.contactor p)).noteTrip u p comp c).reportTrip p) (reported.sw rfl)
        exact ⟨_, e.trans (congrArg Host.Outcome.next (if_pos report)), stands.trans trip, sw.held, sw.off, fun _ _ => noted, sw.others,
          (note.trans on).others, reported.then rfl (noteKept.mono rfl)⟩
      · have sw := latched.congr (y := ((s.at u).latchContactor (s.contactor p)).noteTrip u p comp c) rfl
        exact ⟨_, e.trans (congrArg Host.Outcome.next (if_neg report)), trip, sw.held, sw.off, fun on off => absurd ⟨on, off⟩ report,
          sw.others, note.others, noteKept.mono rfl⟩
    · have now : (((s.at u).latchContactor (s.contactor p)).modOut p (fun o => { o with
        testTrip := o.testTrip || decide (u ≤ o.testDue.getD u) })).outOf p = _ := State.modOut_same (pts.symm ▸ lp)
      refine ⟨_, execResidualTrip_test lc lk out due test own, now.trans ?_, latched.held,
        State.modOut_keeps rfl (kept.mono rfl)⟩
      rw [State.outOf_congr pts]
      have inTime : u ≤ (s.outOf p).testDue.getD u := by
        cases e : (s.outOf p).testDue with
        | none => exact le_rfl
        | some d => exact within' d e
      dsimp only
      rw [decide_eq_true inTime, Bool.or_true]
  case passes =>
    have ended := State.endInjection_ended (p := p) sndu lc (rest := []) own
    have sound := State.endInjection_sound (x1 := p) sndu
    have r := ended.reported (test := 2) (k := 2) (f := fun o => { o with test := 2, testSlices := [], testTrip := false }) sound
      (snd.pts.symm ▸ l) fun _ => ⟨rfl, rfl⟩
    exact ⟨_, execResidualSelfTestResult_passes l test own trip, r.test, r.slices, r.slice, r.dac, r.raised, r.others,
      r.keeps.then rfl (State.at_keeps rfl .refl)⟩
  case fails =>
    have ended := State.endInjection_ended (p := p) sndu lc (rest := []) own
    have sound := State.endInjection_sound (x1 := p) sndu
    have r := ended.reported (test := 3) (k := 3) (f := fun o => { o with test := 3, testSlices := [] }) sound
      (snd.pts.symm ▸ l) fun _ => ⟨rfl, rfl⟩
    exact ⟨_, execResidualSelfTestResult_fails l test own trip due (by rw [r.ses]; exact st), r.test, r.slice, r.dac, r.raised, r.others,
      r.keeps.then rfl (State.at_keeps rfl .refl)⟩
  case period =>
    intro e l st le ne
    obtain ⟨t, f, pts⟩ := execPilotPeriod_due l st le ne
    have own : t.outOf p = (s.outOf p).period e := (State.outOf_congr pts).trans (State.modOut_same (s := s.at u) (snd.pts.symm ▸ l))
    refine ⟨t, f, ?_, fun d a next soon => ?_, fun none' => ?_, fun q nq => ?_, exec_keeps (.pilotPeriod u p) _ _ f⟩
    · rw [own]
      unfold Outlet.period
      dsimp only
      split
      · split <;> rfl
      · rfl
    · rw [own]
      unfold Outlet.period
      dsimp only
      rw [next]
      dsimp only
      rw [if_pos soon]
      exact ⟨rfl, rfl⟩
    · rw [own]
      unfold Outlet.period
      dsimp only
      rw [none']
    · exact (State.pt_congr pts).trans (State.modOut_onPoint.others q nq)
  case fault =>
    obtain ⟨x, e, c⟩ := execPilotCodeAccepted_stable (u := u) snd l out capo duty ne stable
    rw [State.pilotEffect_fault four (by rw [c.ses]; exact st)] at e
    have late : Keeps [.pts] x ((x.addCause p 12).setPilot p) := State.setPilot_keeps rfl (State.addCause_keeps rfl .refl)
    refine ⟨_, e, ?_, State.causedPilot_noted (c.point.size.symm ▸ snd.pts.symm ▸ l)
      ((State.isSession_congr (c.keeps.par rfl)).trans (isSession_of_outlet out)), c.raised.spared (.of_keeps late rfl),
      (c.point.trans (State.addCause_onPoint.trans State.setPilot_onPoint)).others, late.then rfl (c.keeps.mono rfl)⟩
    exact (State.setPilot_out Outlet.code fun _ _ => rfl).trans ((congrArg Outlet.code State.addCause_out).trans c.code)
  case plugged =>
    obtain ⟨x, e, c⟩ := execPilotCodeAccepted_stable (u := u) snd l out capo duty ne stable
    rw [a, b, State.pilotEffect_plugged (by rw [c.ses]; exact st)] at e
    have sized : p < x.pts.length := c.point.size.symm ▸ snd.pts.symm ▸ l
    have w : PilotStands p (x.enterState p .authorising 0) ((x.enterState p .authorising 0).startSelfTest p) := State.startSelfTest_stands
    have ses : (((x.enterState p .authorising 0).startSelfTest p).setPilot p).sesOf p = (x.sesOf p).entered .authorising x.frm x.clk.up :=
      State.setPilot_ses.trans (w.ses.trans (State.enterState_ses sized))
    have code : (((x.enterState p .authorising 0).startSelfTest p).setPilot p |>.outOf p).code = (x.outOf p).code :=
      (State.setPilot_out Outlet.code fun _ _ => rfl).trans (w.code.trans (State.enterState_out Outlet.code fun _ _ _ => rfl))
    refine ⟨_, e, (code.trans c.code).trans b, congrArg Session.state ses, (congrArg Session.since ses).trans (congrArg (· + 1) c.frame),
      (c.point.trans ((State.enterState_onPoint.trans w.point).trans State.setPilot_onPoint)).others, ?_⟩
    exact State.setPilot_keeps rfl (w.keeps.then rfl (State.enterState_keeps rfl (c.keeps.mono rfl)))
  case proximity =>
    obtain ⟨x, code, ses, on, raised, kept, e⟩ := execProximityCodeAccepted_stable (u := u) snd l sock capo ne ten
    have outlet : s.isOutlet p = true := by
      unfold State.hasSocket at sock
      exact (Bool.and_eq_true_iff.mp sock).1
    have sized : p < x.pts.length := on.size.symm ▸ snd.pts.symm ▸ l
    have session : x.isSession p = true := (State.isSession_congr (kept.par rfl)).trans (isSession_of_outlet outlet)
    have effect : ∀ (c d : Prop) [Decidable c] [Decidable d], OnPoint p x (if c then x.addCause p 5 else if d then x.addCause p 12 else x) ∧
        (if c then x.addCause p 5 else if d then x.addCause p 12 else x).outOf p = x.outOf p ∧
        Keeps [.pts] x (if c then x.addCause p 5 else if d then x.addCause p 12 else x) := by
      intro c d _ _
      split
      · exact ⟨State.addCause_onPoint, State.addCause_out, State.addCause_keeps rfl .refl⟩
      · split
        · exact ⟨State.addCause_onPoint, State.addCause_out, State.addCause_keeps rfl .refl⟩
        · exact ⟨.refl, rfl, .refl⟩
    obtain ⟨point, out, keeps⟩ := effect ((s.outOf p).ppCand = 0 ∧ (x.sesOf p).state = .transferring)
      (5 ≤ (s.outOf p).ppCand ∧ (x.sesOf p).state ≠ .fault)
    have late := State.setPilot_keeps (x1 := p) rfl keeps
    refine ⟨_, e, ?_, fun zero st => ?_, fun five st => ?_, raised.spared (.of_keeps late rfl),
      (on.trans (point.trans State.setPilot_onPoint)).others, late.then rfl (kept.mono rfl)⟩
    · exact (State.setPilot_out Outlet.ppCode fun _ _ => rfl).trans ((congrArg Outlet.ppCode out).trans code)
    · rw [if_pos ⟨zero, by rw [ses]; exact st⟩]
      exact State.causedPilot_noted sized session
    · rw [if_neg (fun h => absurd h.1 (by omega)), if_pos ⟨five, by rw [ses]; exact st⟩]
      exact State.causedPilot_noted sized session
end

section
/-!
The communication of an outlet with its vehicle, and the welded-contact supervision of its contactor (12 R305–R315).
-/

namespace Sys2Proof.Machine

/-! ### Vehicle messages -/

theorem freeBytes_length {n i k : Nat} : (freeBytes n i k).length = k := by
  unfold freeBytes
  rw [List.length_map, List.length_range]

/-- A TLS key may sign a digest of its size. -/
theorem State.askKey_tls {s : State} {cls n : Nat} (c : cls = 4 ∨ cls = 5) (e : n = digestSize cls) : s.askKey 2 cls 9 n = s := by
  refine if_pos ?_
  rw [e, beq_self_eq_true, Bool.and_true]
  rcases c with rfl | rfl <;> rfl

/-- A handshake changes its outlet and the free-value counter alone. -/
theorem State.handshake_work {s : State} {p x : Nat} : OnPoint p s (s.handshake p x) ∧ Keeps [.clk, .pts] s (s.handshake p x) := by
  have signed : ∀ (y : State) f, y = s → OnPoint p s (y.bump.modOut p f) ∧ Keeps [.clk, .pts] s (y.bump.modOut p f) := by
    intro y f e
    subst e
    exact ⟨(OnPoint.of_eq rfl : OnPoint p y y.bump).trans State.modOut_onPoint, State.modOut_keeps rfl (State.bump_keeps rfl .refl)⟩
  have own : (if x = 3 then 5 else 4) = 4 ∨ (if x = 3 then 5 else 4) = 5 := by split <;> simp
  unfold State.handshake
  dsimp only
  split
  · exact ⟨.refl, .refl⟩
  · split
    · rw [State.askKey_tls own freeBytes_length]
      exact signed s _ rfl
    · exact ⟨.refl, .refl⟩

theorem State.seccAnswer_onPoint {s : State} {p : Nat} : OnPoint p s (s.seccAnswer p) := State.modPt_onPoint

theorem State.seccAnswer_ses {s : State} {p q : Nat} : (s.seccAnswer p).sesOf q = s.sesOf q := State.modOut_ses

/-- What the SECC answers is its own note of the outlet. -/
theorem State.seccAnswer_out {α : Type} {s : State} {p q : Nat} (g : Outlet → α)
    (e : ∀ o v i st sh l, g { o with seccV := v, seccI := i, seccStop := st, seccShut := sh, seccLimit := l } = g o) :
    g ((s.seccAnswer p).outOf q) = g (s.outOf q) := State.modOut_leaves g fun o => e o _ _ _ _ _

/-- A message taken: after its effect the protocol's state is noted, and the SECC answers. -/
def State.answerMessage (s : State) (p n : Nat) : State := (s.modOut p (fun o => { o with protoState := n })).seccAnswer p

theorem execV2gMessageReceived_served {s : State} {u p : Nat} {m : V2gMsg} (l : p < 16) (serves : s.seccServes p = true) :
    execV2gMessageReceived u p m s = .next (((s.at u).v2gEffect p m).answerMessage p (m.state % 256)) := if_pos ⟨l, serves⟩

theorem State.answerMessage_out {α : Type} {s : State} {p n : Nat} (l : p < s.pts.length) (g : Outlet → α)
    (e : ∀ o v i st sh l, g { o with seccV := v, seccI := i, seccStop := st, seccShut := sh, seccLimit := l } = g o) :
    g ((s.answerMessage p n).outOf p) = g { s.outOf p with protoState := n } :=
  (State.seccAnswer_out g e).trans (congrArg g (State.modOut_same l))

theorem State.answerMessage_ses {s : State} {p n q : Nat} : (s.answerMessage p n).sesOf q = s.sesOf q :=
  State.seccAnswer_ses.trans State.modOut_ses

theorem State.answerMessage_onPoint {s : State} {p n : Nat} : OnPoint p s (s.answerMessage p n) :=
  State.modOut_onPoint.trans State.seccAnswer_onPoint

theorem State.answerMessage_keeps {s : State} {p n : Nat} : Keeps [.pts] s (s.answerMessage p n) :=
  State.seccAnswer_keeps rfl (State.modOut_keeps rfl .refl)

/-- The effect of a first message that offers an enabled protocol. -/
structure ProtocolTaken (s x : State) (p protocol : Nat) : Prop where
  protocol : (x.outOf p).protocol = protocol
  v2g : (x.outOf p).v2g = true
  point : OnPoint p s x
  keeps : Keeps [.clk, .pts] s x

theorem State.v2gEffect_offer {s : State} {p x : Nat} {m : V2gMsg} (l : p < s.pts.length) (k : m.kind = 0)
    (c : s.chooseProtocol p m.offered = some x) : ProtocolTaken s (s.v2gEffect p m) p x := by
  obtain ⟨on, kept⟩ := State.handshake_work (s := s) (p := p) (x := x)
  have taken : ∀ f : Outlet → Outlet, (∀ o, (f o).protocol = x ∧ (f o).v2g = true) → ProtocolTaken s ((s.handshake p x).modOut p f) p x :=
    fun f e => by
      have now : ((s.handshake p x).modOut p f).outOf p = f ((s.handshake p x).outOf p) := State.modOut_same (on.size.symm ▸ l)
      exact ⟨now ▸ (e _).1, now ▸ (e _).2, on.trans State.modOut_onPoint, State.modOut_keeps rfl kept⟩
  unfold State.v2gEffect
  rw [k]
  dsimp only
  rw [c]
  exact taken _ fun _ => ⟨rfl, rfl⟩

theorem State.v2gEffect_stop {s : State} {p : Nat} {m : V2gMsg} (k : m.kind = 7) :
    s.v2gEffect p m = (s.modOut p (fun o => { o with wants := false, v2g := false })).addCause p 4 := by
  unfold State.v2gEffect
  rw [k]
  rfl

theorem State.v2gEffect_targets {s : State} {p : Nat} {m : V2gMsg} (k : m.kind = 10) :
    s.v2gEffect p m = s.modOut p (fun o => { o with tgtV := m.tgtV % 65536, tgtI := m.tgtI % 65536 }) := by
  unfold State.v2gEffect
  rw [k]
  rfl

/-! ### Timeouts -/

theorem execV2gSessionTimeout_due {s : State} {u p : Nat} (l : p < 16) (v2g : (s.outOf p).v2g = true) (go : (s.outOf p).paused = false) :
    execV2gSessionTimeout u p s = .next
      (let x := (s.at u).modOut p (fun o => { o with v2g := false, wants := false })
       if (x.sesOf p).state = .transferring then x.addCause p 11 else x) := if_pos ⟨l, v2g, go⟩

theorem execPlcLossTimeout_due {s : State} {u p d : Nat} (l : p < 16) (e : (s.outOf p).lossDue = some d) (le : d ≤ u)
    (down : (s.plcPort p).link = false) (run : s.fw.svcRunning = true) : execPlcLossTimeout u p s = .next
      (let x := (s.at u).modOut p (fun o => { o with lossDue := none })
       if (x.sesOf p).state = .transferring ∧ x.pn PT_OUT_HLC p = 1 ∧ (s.outOf p).protocol ≠ 0 then x.addCause p 11 else x) :=
  if_pos ⟨l, by rw [show ((s.at u).outOf p).lossDue = some d from e]; exact decide_eq_true le, down, run⟩

theorem execDcStatusTimeout_due {s : State} {u p d : Nat} (e : (s.outOf p).dcDue = some d) (le : d ≤ u) :
    execDcStatusTimeout u p s = .next ((s.at u).modOut p (fun o => { o with dcDue := none, dcShutdown := true })) :=
  if_pos (by rw [show ((s.at u).outOf p).dcDue = some d from e]; exact decide_eq_true le)

/-- An outlet changed and a cause noted under a condition. -/
structure OutletCaused (s x : State) (p c : Nat) (o : Outlet) (when' : Prop) : Prop where
  out : x.outOf p = o
  noted : when' → s.isSession p = true → c ∈ (x.sesOf p).causes
  point : OnPoint p s x
  keeps : Keeps [.clk, .pts] s x

theorem State.outletCaused {s : State} {u p c : Nat} {f : Outlet → Outlet} {w : Prop} [Decidable w] (l : p < s.pts.length) :
    OutletCaused s (if w then ((s.at u).modOut p f).addCause p c else (s.at u).modOut p f) p c (f (s.outOf p)) w := by
  have now : ((s.at u).modOut p f).outOf p = f (s.outOf p) := State.modOut_same (s := s.at u) l
  have on : OnPoint p s ((s.at u).modOut p f) := (OnPoint.of_eq rfl : OnPoint p s (s.at u)).trans State.modOut_onPoint
  have kept : Keeps [.clk, .pts] s ((s.at u).modOut p f) := State.modOut_keeps rfl (State.at_keeps rfl .refl)
  split
  · exact ⟨State.addCause_out.trans now, fun _ ses => State.addCause_noted (on.size.symm ▸ l) ((State.isSession_congr (kept.par rfl)).trans ses),
      on.trans State.addCause_onPoint, State.addCause_keeps rfl kept⟩
  · next no => exact ⟨now, fun h => absurd h no, on, kept⟩

/-! ### SLAC -/

/-- A run noted as pending at an outlet. -/
def Outlet.hears (o : Outlet) (run : Nat) : Outlet :=
  { o with slacPending := if o.slacPending.contains run then o.slacPending else o.slacPending ++ [run] }

/-- A run forgotten at an outlet. -/
def Outlet.forgets (o : Outlet) (run : Nat) : Outlet := { o with slacPending := o.slacPending.filter (· != run) }

theorem Outlet.forgets_other {o : Outlet} {run : Nat} (no : run ∉ o.slacPending) : o.forgets run = o := by
  have same : o.slacPending.filter (· != run) = o.slacPending :=
    List.filter_eq_self.mpr fun j m => bne_iff_ne.mpr fun e => no (e ▸ m)
  unfold Outlet.forgets
  rw [same]

theorem State.modOut_eq {s : State} {p : Nat} {f : Outlet → Outlet} (e : f (s.outOf p) = s.outOf p) : (s.modOut p f).pt p = s.pt p := by
  by_cases l : p < s.pts.length
  · have now : (s.modOut p f).pt p = { s.pt p with out := f (s.outOf p) } := State.modPt_same l
    rw [now, e]
    rfl
  · have out : ∀ x : State, x.pts.length = s.pts.length → x.pt p = Point.reset := fun x n => List.getD_eq_default _ _ (by omega)
    rw [out _ State.modOut_onPoint.size, out s rfl]

/-- An outlet is eligible by its parameters, its pilot and its link, which noting a run leaves. -/
theorem State.slacEligible_congr {s t : State} {q : Nat} (par : t.par = s.par) (plc : t.plc = s.plc)
    (out : (t.outOf q).duty = (s.outOf q).duty ∧ (t.outOf q).code = (s.outOf q).code) : t.slacEligible q = s.slacEligible q := by
  unfold State.slacEligible State.plcPort
  dsimp only
  rw [State.isOutlet_congr par, State.pn_congr par, plc, out.1, out.2]

theorem slacEligible_lt {s : State} {q : Nat} (e : s.slacEligible q = true) : q < 16 := by
  unfold State.slacEligible at e
  simp only [Bool.and_eq_true, decide_eq_true_eq] at e
  exact e.1.1.1.1.1

/-- A run heard at listed ports: pending at every eligible one, and every other point as it was. -/
structure RunHeard (s x : State) (run : Nat) (heard : List Nat) : Prop where
  pending : ∀ q ∈ heard, s.slacEligible q = true → run ∈ (x.outOf q).slacPending
  others : ∀ q, q ∉ heard ∨ s.slacEligible q = false → x.pt q = s.pt q
  stays : ∀ q, run ∈ (s.outOf q).slacPending → run ∈ (x.outOf q).slacPending
  keeps : Keeps [.pts] s x

theorem State.hears_all {s : State} {run : Nat} {heard : List Nat} (n : s.pts.length = 16) : RunHeard s
    (heard.foldl (fun s q => if s.slacEligible q then s.modOut q (fun o => o.hears run) else s) s) run heard := by
  induction heard generalizing s with
  | nil => exact ⟨fun q m => absurd m List.not_mem_nil, fun _ _ => rfl, fun _ => id, .refl⟩
  | cons k l ih =>
    rw [List.foldl_cons]
    by_cases ok : s.slacEligible k = true
    · rw [if_pos ok]
      have on : OnPoint k s (s.modOut k (fun o => o.hears run)) := State.modOut_onPoint
      have now : (s.modOut k (fun o => o.hears run)).outOf k = (s.outOf k).hears run := State.modOut_same (n.symm ▸ slacEligible_lt ok)
      have stands : ∀ q, ((s.modOut k (fun o => o.hears run)).outOf q).duty = (s.outOf q).duty ∧
          ((s.modOut k (fun o => o.hears run)).outOf q).code = (s.outOf q).code := fun q =>
        ⟨State.modOut_leaves Outlet.duty fun _ => rfl, State.modOut_leaves Outlet.code fun _ => rfl⟩
      have same : ∀ q, (s.modOut k (fun o => o.hears run)).slacEligible q = s.slacEligible q := fun q =>
        State.slacEligible_congr rfl rfl (stands q)
      have h := ih (s := s.modOut k (fun o => o.hears run)) (on.size.trans n)
      refine ⟨fun q m e => ?_, fun q no => ?_, fun q m => h.stays q (getD_upd (fun x : Point => run ∈ x.out.slacPending) m fun _ => mem_added),
        h.keeps.then rfl (State.modOut_keeps rfl .refl)⟩
      · rcases List.mem_cons.mp m with rfl | m
        · exact h.stays q (now ▸ added_mem)
        · exact h.pending q m ((same q).trans e)
      · have ne : q ≠ k := by
          rintro rfl
          exact no.elim (fun n => n List.mem_cons_self) fun e => absurd (ok.symm.trans e) (by decide)
        exact (h.others q (no.imp (fun n m => n (List.mem_cons_of_mem _ m)) ((same q).trans ·))).trans (on.others q ne)
    · rw [if_neg ok]
      have h := ih n
      refine ⟨fun q m e => ?_, fun q no => h.others q ?_, h.stays, h.keeps⟩
      · rcases List.mem_cons.mp m with rfl | m
        · exact absurd e ok
        · exact h.pending q m e
      · exact no.imp (fun n m => n (List.mem_cons_of_mem _ m)) id

/-- What holds before work on listed parts, and what each part's work keeps, holds after it. -/
theorem forAll_holds {C : State → Prop} {f : Nat → State → State} {l : List Nat} {s : State} (h : C s)
    (keep : ∀ i ∈ l, ∀ x, C x → C (f i x)) : C (forAll l f s) := by
  induction l generalizing s with
  | nil => exact h
  | cons i l ih => exact ih (keep i List.mem_cons_self s h) fun j m => keep j (List.mem_cons_of_mem _ m)

theorem execCmSlacParmReq_heard {s : State} {u run : Nat} {heard : List Nat} (go : s.fw.svcRunning = true) :
    execCmSlacParmReq u run heard s = .next
      (heard.foldl (fun s q => if s.slacEligible q then s.modOut q (fun o => o.hears run) else s) (s.at u)) := if_pos go

/-- A run that is judged leaves every outlet's list. -/
def State.slacDone (s : State) (run : Nat) : State := forAll points16 (fun q s => s.modOut q (fun o => o.forgets run)) s

/-- A run judged: forgotten at every outlet, and nothing else of one that it was not pending at. -/
structure RunForgotten (s x : State) (run : Nat) : Prop where
  out : ∀ p, p < 16 → x.outOf p = (s.outOf p).forgets run
  others : ∀ q, run ∉ (s.outOf q).slacPending → x.pt q = s.pt q
  size : x.pts.length = s.pts.length
  keeps : Keeps [.pts] s x

theorem State.slacDone_forgets {s : State} {run : Nat} (n : s.pts.length = 16) : RunForgotten s (s.slacDone run) run where
  out p l := forAll_points16 (R := fun x => x.outOf p) (g := fun o => o.forgets run) (I := fun x => x.pts.length = 16) l n
    (fun _ _ h => State.modOut_onPoint.size.trans h)
    (fun _ _ _ ne => congrArg Point.out (State.modOut_onPoint.others p (Ne.symm ne))) fun _ h => State.modOut_same (h.symm ▸ l)
  others q no := by
    refine forAll_holds (C := fun x => x.pt q = s.pt q) rfl fun k _ x e => ?_
    by_cases h : k = q
    · subst h
      refine (State.modOut_eq (Outlet.forgets_other ?_)).trans e
      rw [show x.outOf k = s.outOf k from congrArg Point.out e]
      exact no
    · exact (State.modOut_onPoint.others q (Ne.symm h)).trans e
  size := forAll_holds (C := fun x => x.pts.length = s.pts.length) rfl fun _ _ _ e => State.modOut_onPoint.size.trans e
  keeps := Keeps.forAll (fun _ _ => State.modOut_keeps rfl .refl) rfl .refl

/-- The outlets at which a run is pending. -/
def State.slacWaiting (s : State) (run : Nat) : List Nat :=
  points16.filter (fun q => s.slacEligible q && (s.outOf q).slacPending.contains run)

/-- A run that no outlet matched is counted at every outlet where it was pending. -/
def State.slacFailed (s : State) (run : Nat) : State :=
  forAll (s.slacWaiting run) (fun q s => s.modOut q (fun o => { o with slacFails := inc32 o.slacFails })) (s.slacDone run)

theorem State.slacFailed_out {s : State} {run p : Nat} (n : s.pts.length = 16) (ok : s.slacEligible p = true)
    (pend : run ∈ (s.outOf p).slacPending) :
    (s.slacFailed run).outOf p = { (s.outOf p).forgets run with slacFails := inc32 (s.outOf p).slacFails } := by
  have h := State.slacDone_forgets (run := run) n
  have nd : (s.slacWaiting run).Nodup := List.Nodup.filter _ (by decide)
  have m : p ∈ s.slacWaiting run := List.mem_filter.mpr ⟨mem_points16 (slacEligible_lt ok), by simp [ok, pend]⟩
  have now := forAll_at (R := fun x => x.outOf p) (g := fun o => { o with slacFails := inc32 o.slacFails })
    (I := fun x => x.pts.length = 16) (p := p) nd (h.size.trans n)
    (f := fun q s => s.modOut q (fun o => { o with slacFails := inc32 o.slacFails }))
    (fun _ _ e => State.modOut_onPoint.size.trans e)
    (fun _ _ _ ne => congrArg Point.out (State.modOut_onPoint.others p (Ne.symm ne)))
    fun _ e => State.modOut_same (e.symm ▸ slacEligible_lt ok)
  rw [if_pos m, h.out p (slacEligible_lt ok)] at now
  exact now

theorem State.slacFailed_other {s : State} {run q : Nat} (n : s.pts.length = 16) (no : run ∉ (s.outOf q).slacPending) :
    (s.slacFailed run).pt q = s.pt q := by
  refine forAll_holds (C := fun x => x.pt q = s.pt q) ((State.slacDone_forgets n).others q no) fun k m x e => ?_
  have pend : run ∈ (s.outOf k).slacPending := by
    have := (List.mem_filter.mp m).2
    simp only [Bool.and_eq_true, List.contains_iff_mem] at this
    exact this.2
  have ne : q ≠ k := by
    rintro rfl
    exact no pend
  exact (State.modOut_onPoint.others q ne).trans e

theorem State.slacFailed_keeps {s : State} {run : Nat} (n : s.pts.length = 16) : Keeps [.pts] s (s.slacFailed run) :=
  Keeps.forAll (fun _ _ => State.modOut_keeps rfl .refl) rfl (State.slacDone_forgets n).keeps

/-- The judgement of a run that one port heard, with the one attenuation `a`: matched where the parameter allows it (R310). -/
theorem execSlacRunJudged_lone {s : State} {u run p a : Nat} {mac : Bytes} (ok : s.slacEligible p = true)
    (pend : run ∈ (s.outOf p).slacPending) : execSlacRunJudged u run [(p, [a])] mac s = .next
      (if a ≤ s.pn PT_SLAC_ATTEN_MAX p then ((s.at u).slacDone run).modOut p (fun o => { o with
        slacMatched := some run, atten := some (divFree (a : Int) 1).toNat, mac := padTo 6 mac })
      else (s.at u).slacFailed run) := by
  have heard : ([(p, [a])] : List (Nat × List Nat)).filter (fun x => !x.2.isEmpty && (s.at u).slacEligible x.1 &&
      ((s.at u).outOf x.1).slacPending.contains run) = [(p, [a])] := by
    have e : (s.at u).slacEligible p = true := ok
    have c : ((s.at u).outOf p).slacPending.contains run = true := List.contains_iff_mem.mpr pend
    simp only [List.filter_cons, List.filter_nil, e, c, List.isEmpty_cons, Bool.not_false, Bool.and_self, if_pos]
  unfold execSlacRunJudged
  dsimp only
  rw [heard]
  have least : leastAtten ([(p, [a])].map fun x => (x.1, meanAtten x.2)) = some (p, (a, 1)) := rfl
  rw [least]
  have low : ∀ m n k, attenLe (m, 1) (n, 1) k = decide (m + k ≤ n) := fun m n k => by simp [attenLe]
  dsimp only
  by_cases h : a ≤ s.pn PT_SLAC_ATTEN_MAX p
  · rw [if_pos h]
    refine (if_pos ⟨(low _ _ _).trans (decide_eq_true h), by simp⟩)
  · rw [if_neg h]
    refine (if_neg fun c => h (of_decide_eq_true ((low _ _ _).symm.trans c.1)))

/-! ### Welded contacts -/

theorem State.weldEvent_raised {s : State} {p e : Nat} (n : s.host.events.length = 64) : Raised (s.weldEvent p e) 32
    [byteOf p, byteOf (b2n (s.outOf p).weldMirror), byteOf (s.outOf p).weldSlot, byteOf e] :=
  State.raise_raised n (by decide) (by simp) (by simp)

theorem State.otherSwitch_lt {s : State} {p : Nat} (l : p < 16) : s.otherSwitch p < 32 := by
  unfold State.otherSwitch
  omega

/-- The outlet as a declared weld leaves it. -/
def Outlet.welded (o : Outlet) (src slot : Nat) (back : Bool) : Outlet :=
  { o with weld := true, weldMirror := src == 1, weldSlot := slot, weldGone := none, backup := o.backup || back }

/-- The other switch ordered open, where the outlet has its backup. -/
def State.backUp (s : State) (p : Nat) (back : Bool) : State := if back then s.hold4 (64 + p) (s.otherSwitch p) else s

theorem execWeldedContactDeclared_found {s : State} {u p src slot : Nat} (l : p < 16) (c : (s.at u).weldCondition p = some (src, slot))
    (no : (s.outOf p).weld = false) (on : s.pwr.capoOn = true) : execWeldedContactDeclared u p s = .next
      (((((s.at u).modOut p (fun o => o.welded src slot (s.pb PT_WELD_BACKUP p))).backUp p (s.pb PT_WELD_BACKUP p)).weldEvent p 0).addCause p 17) := by
  unfold execWeldedContactDeclared
  dsimp only
  rw [c]
  exact if_pos ⟨l, no, on⟩

theorem State.backUp_holdsOn {s : State} {p : Nat} {back : Bool} : HoldsOn s (s.backUp p back) := by
  cases back with
  | true => exact State.hold4_ordered.1
  | false => exact .refl

theorem State.backUp_pts {s : State} {p : Nat} {back : Bool} : (s.backUp p back).pts = s.pts := State.backUp_holdsOn.keeps.pts rfl

/-- A weld declared: reported, a cause, and with the backup the other switch ordered open. -/
structure WeldDeclared (s x : State) (p src slot : Nat) (back : Bool) : Prop where
  weld : (x.outOf p).weld = true
  cause : 17 ∈ (x.sesOf p).causes
  report : Raised x 32 [byteOf p, byteOf (b2n (src == 1)), byteOf slot, 0]
  backup : back = true → s.Ordered x (64 + p) (s.otherSwitch p)
  alone : back = false → x.sw = s.sw
  point : OnPoint p s x
  keeps : Keeps [.clk, .host, .pts, .sw] s x

theorem State.weldDeclared {s : State} {p src slot : Nat} {back : Bool} (snd : Sound s) (l : p < 16) (ses : s.isSession p = true) :
    WeldDeclared s ((((s.modOut p (fun o => o.welded src slot back)).backUp p back).weldEvent p 0).addCause p 17) p src slot back := by
  obtain ⟨y, ey⟩ : ∃ y, y = s.modOut p (fun o => o.welded src slot back) := ⟨_, rfl⟩
  have ykeeps : Keeps [.pts] s y := ey ▸ State.modOut_keeps rfl .refl
  have yon : OnPoint p s y := ey ▸ State.modOut_onPoint
  have yout : y.outOf p = (s.outOf p).welded src slot back := ey ▸ State.modOut_same (snd.pts.symm ▸ l)
  rw [← ey]
  have on : HoldsOn y (y.backUp p back) := State.backUp_holdsOn
  have kept : Keeps [.pts, .sw] s (y.backUp p back) := on.keeps.then rfl (ykeeps.mono rfl)
  have out : (y.backUp p back).outOf p = y.outOf p := State.outOf_congr State.backUp_pts
  have event : Keeps [.host, .pts, .sw] s ((y.backUp p back).weldEvent p 0) := State.weldEvent_keeps rfl (kept.mono rfl)
  have epts : ((y.backUp p back).weldEvent p 0).pts = y.pts :=
    ((State.weldEvent_keeps rfl (Keeps.refl (T := [.host]))).pts rfl).trans State.backUp_pts
  have esw : ((y.backUp p back).weldEvent p 0).sw = (y.backUp p back).sw := (State.weldEvent_keeps rfl (Keeps.refl (T := [.host]))).sw rfl
  have csw : (((y.backUp p back).weldEvent p 0).addCause p 17).sw = ((y.backUp p back).weldEvent p 0).sw :=
    (State.addCause_keeps rfl (Keeps.refl (T := [.pts]))).sw rfl
  have report := State.weldEvent_raised (s := y.backUp p back) (p := p) (e := 0) ((congrArg (fun h : HostPort => h.events.length)
    (kept.host rfl)).trans snd.host.queues)
  rw [out, yout] at report
  refine ⟨?_, ?_, .congr ((State.addCause_keeps rfl (Keeps.refl (T := [.pts]))).host rfl) report, fun b => ?_, fun b => ?_,
    yon.trans ((OnPoint.of_eq epts).trans State.addCause_onPoint), State.addCause_keeps rfl (event.mono rfl)⟩
  · rw [State.addCause_out, State.outOf_congr epts, yout]
    rfl
  · exact State.addCause_noted ((congrArg List.length epts).trans yon.size ▸ snd.pts.symm ▸ l)
      ((State.isSession_congr (event.par rfl)).trans ses)
  · subst b
    have same : y.otherSwitch p = s.otherSwitch p := congrArg (fun n => 2 * p + (1 - n)) (State.pn_congr (ykeeps.par rfl))
    have ordered := State.hold4_ordered (s := y) (src := 64 + p) (n := y.otherSwitch p) |>.2
      ((congrArg (fun w : SwitchDie => w.ch.length) (ykeeps.sw rfl)).trans snd.switches ▸ State.otherSwitch_lt l)
    obtain ⟨now, waits⟩ := ordered.before (State.orderNow_congr (ykeeps.sw rfl))
    rw [same] at now waits
    have held : y.backUp p true = y.hold4 (64 + p) (s.otherSwitch p) := same ▸ rfl
    rw [← held] at now waits
    exact ⟨fun h => (State.swch_congr (csw.trans esw)) ▸ now h, fun h => (csw.trans esw) ▸ waits h⟩
  · subst b
    exact (csw.trans esw).trans (ykeeps.sw rfl)

theorem execWeldCleared_gone {s : State} {u p g : Nat} (l : p < 16) (w : (s.outOf p).weld = true) (e : (s.outOf p).weldGone = some g)
    (le : g + 1000000000 ≤ u) : execWeldCleared u p s = .next
      (((s.at u).weldEvent p 1).modOut p (fun o => { o with weld := false, weldGone := none })) :=
  if_pos ⟨l, w, by rw [show ((s.at u).outOf p).weldGone = some g from e]; exact decide_eq_true le⟩

end Sys2Proof.Machine

open Sys2Proof Sys2Proof.Machine

/-- Settles O21: the messages, their timeouts, the runs and the weld, by the laws of what each does to its outlet. -/
theorem outletCommunicationAndWeldEventsComplete : Obligations.OutletCommunicationAndWeldEventsComplete := by
  intro s u p snd l ses
  have lt : p < s.pts.length := snd.pts.symm ▸ l
  have atOn : OnPoint p s (s.at u) := OnPoint.of_eq rfl
  have atKeeps : Keeps [.clk, .pts] s (s.at u) := State.at_keeps rfl .refl
  refine ⟨fun m serves => ⟨fun x k c => ?offer, fun k => ?stop, fun k => ?targets⟩, fun v2g go => ?session,
    fun d e le down run => ?loss, fun d e le => ?dc, fun run heard go => ?slac, fun run a mac ok pend => ?judged,
    fun src slot c no on => ?welded, fun g w e le => ?cleared⟩
  case offer =>
    have h : ProtocolTaken (s.at u) ((s.at u).v2gEffect p m) p x := State.v2gEffect_offer lt k c
    have lx : p < ((s.at u).v2gEffect p m).pts.length := h.point.size.symm ▸ lt
    exact ⟨_, execV2gMessageReceived_served l serves,
      (State.answerMessage_out lx Outlet.protocol fun _ _ _ _ _ _ => rfl).trans h.protocol,
      (State.answerMessage_out lx Outlet.v2g fun _ _ _ _ _ _ => rfl).trans h.v2g,
      State.answerMessage_out lx Outlet.protoState fun _ _ _ _ _ _ => rfl,
      (atOn.trans (h.point.trans State.answerMessage_onPoint)).others,
      State.answerMessage_keeps.then rfl (h.keeps.then rfl atKeeps)⟩
  case stop =>
    have now : ((s.at u).modOut p (fun o => { o with wants := false, v2g := false })).outOf p =
      { s.outOf p with wants := false, v2g := false } := State.modOut_same (s := s.at u) lt
    have on : OnPoint p s ((s.at u).v2gEffect p m) := by
      rw [State.v2gEffect_stop k]
      exact atOn.trans (State.modOut_onPoint.trans State.addCause_onPoint)
    have out : ((s.at u).v2gEffect p m).outOf p = { s.outOf p with wants := false, v2g := false } := by
      rw [State.v2gEffect_stop k]
      exact State.addCause_out.trans now
    have kept : Keeps [.clk, .pts] s ((s.at u).v2gEffect p m) := by
      rw [State.v2gEffect_stop k]
      exact State.addCause_keeps rfl (State.modOut_keeps rfl atKeeps)
    have noted : 4 ∈ (((s.at u).v2gEffect p m).sesOf p).causes := by
      rw [State.v2gEffect_stop k]
      exact State.addCause_noted ((atOn.trans State.modOut_onPoint).size.symm ▸ lt) ((State.isSession_congr rfl).trans ses)
    have lx : p < ((s.at u).v2gEffect p m).pts.length := on.size.symm ▸ lt
    exact ⟨_, execV2gMessageReceived_served l serves,
      (State.answerMessage_out lx Outlet.wants fun _ _ _ _ _ _ => rfl).trans (congrArg Outlet.wants out),
      (State.answerMessage_out lx Outlet.v2g fun _ _ _ _ _ _ => rfl).trans (congrArg Outlet.v2g out),
      by rw [State.answerMessage_ses]; exact noted, (on.trans State.answerMessage_onPoint).others, State.answerMessage_keeps.then rfl kept⟩
  case targets =>
    have now : ((s.at u).modOut p (fun o => { o with tgtV := m.tgtV % 65536, tgtI := m.tgtI % 65536 })).outOf p =
      { s.outOf p with tgtV := m.tgtV % 65536, tgtI := m.tgtI % 65536 } := State.modOut_same (s := s.at u) lt
    have e := State.v2gEffect_targets (s := s.at u) (p := p) k
    have on : OnPoint p s ((s.at u).v2gEffect p m) := e ▸ atOn.trans State.modOut_onPoint
    rw [← e] at now
    have lx : p < ((s.at u).v2gEffect p m).pts.length := on.size.symm ▸ lt
    refine ⟨_, execV2gMessageReceived_served l serves,
      (State.answerMessage_out lx Outlet.tgtV fun _ _ _ _ _ _ => rfl).trans (congrArg Outlet.tgtV now),
      (State.answerMessage_out lx Outlet.tgtI fun _ _ _ _ _ _ => rfl).trans (congrArg Outlet.tgtI now), ?_,
      (on.trans State.answerMessage_onPoint).others, State.answerMessage_keeps.then rfl (e ▸ State.modOut_keeps rfl atKeeps)⟩
    rw [State.answerMessage_ses, e]
    exact State.modOut_ses
  case session =>
    have h : OutletCaused s _ p 11 _ _ := State.outletCaused (u := u) (f := fun o => { o with v2g := false, wants := false })
      (w := (((s.at u).modOut p (fun o => { o with v2g := false, wants := false })).sesOf p).state = .transferring) lt
    have same : ((s.at u).modOut p (fun o => { o with v2g := false, wants := false })).sesOf p = s.sesOf p := State.modOut_ses
    exact ⟨_, execV2gSessionTimeout_due l v2g go, congrArg Outlet.v2g h.out, congrArg Outlet.wants h.out,
      fun st => h.noted (same.symm ▸ st) ses, h.point.others, h.keeps⟩
  case loss =>
    obtain ⟨y, ey⟩ : ∃ y, y = (s.at u).modOut p (fun o => { o with lossDue := none }) := ⟨_, rfl⟩
    have h : OutletCaused s _ p 11 _ _ := State.outletCaused (u := u) (f := fun o => { o with lossDue := none })
      (w := (y.sesOf p).state = .transferring ∧ y.pn PT_OUT_HLC p = 1 ∧ (s.outOf p).protocol ≠ 0) lt
    have same : y.sesOf p = s.sesOf p := ey ▸ State.modOut_ses
    have par : y.pn PT_OUT_HLC p = s.pn PT_OUT_HLC p := ey ▸ State.pn_congr rfl
    refine ⟨_, execPlcLossTimeout_due l e le down run, ?_⟩
    dsimp only
    rw [← ey] at h ⊢
    exact ⟨congrArg Outlet.lossDue h.out, fun st hlc pr => h.noted ⟨same.symm ▸ st, par.trans hlc, pr⟩ ses, h.point.others, h.keeps⟩
  case dc =>
    exact ⟨_, execDcStatusTimeout_due e le, State.modOut_same (s := s.at u) lt, State.modOut_ses,
      (atOn.trans State.modOut_onPoint).others, State.modOut_keeps rfl atKeeps⟩
  case slac =>
    have h := State.hears_all (s := s.at u) (run := run) (heard := heard) snd.pts
    exact ⟨_, execCmSlacParmReq_heard go, h.pending, h.others, h.keeps.then rfl atKeeps⟩
  case judged =>
    have done := State.slacDone_forgets (s := s.at u) (run := run) snd.pts
    have out : ((s.at u).slacDone run).outOf p = (s.outOf p).forgets run := done.out p l
    have gone : run ∉ ((s.outOf p).forgets run).slacPending := fun m => by
      have := (List.mem_filter.mp m).2
      simp at this
    refine ⟨_, execSlacRunJudged_lone ok pend, ?_⟩
    split
    · next low =>
      have now := State.modOut_same (s := (s.at u).slacDone run) (p := p) (f := fun o => { o with
        slacMatched := some run, atten := some (divFree (a : Int) 1).toNat, mac := padTo 6 mac }) (done.size.symm ▸ lt)
      rw [now, out]
      exact ⟨gone, fun _ => ⟨rfl, rfl⟩, fun no => absurd low (Nat.not_le.mpr no),
        fun q ne no => (State.modOut_onPoint.others q ne).trans (done.others q no),
        State.modOut_keeps rfl (done.keeps.then rfl atKeeps)⟩
    · next high =>
      have now := State.slacFailed_out (s := s.at u) (run := run) (p := p) snd.pts ok pend
      rw [now]
      exact ⟨gone, fun no => absurd no high, fun _ => ⟨rfl, rfl⟩, fun q _ no => State.slacFailed_other (s := s.at u) snd.pts no,
        (State.slacFailed_keeps (s := s.at u) snd.pts).then rfl atKeeps⟩
  case welded =>
    have h := State.weldDeclared (s := s.at u) (src := src) (slot := slot) (back := s.pb PT_WELD_BACKUP p) (State.at_sound snd) l ses
    exact ⟨_, execWeldedContactDeclared_found l c no on, h.weld, h.cause, h.report, h.backup, h.alone, h.point.others,
      h.keeps.then rfl (atKeeps.mono rfl)⟩
  case cleared =>
    have epts : ((s.at u).weldEvent p 1).pts = s.pts := (State.weldEvent_keeps rfl (Keeps.refl (T := [.host]))).pts rfl
    have now := State.modOut_same (s := (s.at u).weldEvent p 1) (p := p) (f := fun o => { o with weld := false, weldGone := none })
      (epts.symm ▸ lt)
    rw [State.outOf_congr epts] at now
    exact ⟨_, execWeldCleared_gone l w e le, now, .congr (State.modPt_keeps rfl (Keeps.refl (T := [.pts])) |>.host rfl)
      (State.weldEvent_raised (s := s.at u) snd.host.queues), State.modOut_ses.trans (State.sesOf_congr epts),
      ((OnPoint.of_eq epts).trans State.modOut_onPoint).others, State.modOut_keeps rfl (State.weldEvent_keeps rfl (State.at_keeps rfl .refl))⟩
end

section
/-!
The power-line engine: streams opened, symbols served and lost, and an outlet's link (13 R320, R324–R328).
-/

namespace Sys2Proof.Machine

/-! ### Work on one port -/

/-- Of work on one port of the engine: the other ports and the count of turns stay. -/
structure OnPort (n : Nat) (s x : State) : Prop where
  others : ∀ q, q ≠ n → x.plcPort q = s.plcPort q
  size : x.plc.ports.length = s.plc.ports.length
  turns : x.plc.turns = s.plc.turns

theorem OnPort.refl {n : Nat} {s : State} : OnPort n s s := ⟨fun _ _ => rfl, rfl, rfl⟩

theorem OnPort.trans {n : Nat} {s x y : State} (h : OnPort n s x) (g : OnPort n x y) : OnPort n s y :=
  ⟨fun q ne => (g.others q ne).trans (h.others q ne), g.size.trans h.size, g.turns.trans h.turns⟩

theorem State.plcPort_congr {s t : State} {q : Nat} (h : t.plc = s.plc) : t.plcPort q = s.plcPort q :=
  congrArg (fun p : Plc => p.ports.getD q PlcPort.reset) h

theorem OnPort.of_eq {n : Nat} {s x : State} (e : x.plc = s.plc) : OnPort n s x :=
  ⟨fun _ _ => State.plcPort_congr e, congrArg (fun p : Plc => p.ports.length) e, congrArg Plc.turns e⟩

theorem State.modPlcPort_onPort {n : Nat} {s : State} {f : PlcPort → PlcPort} : OnPort n s (s.modPlcPort n f) :=
  ⟨fun _ ne => State.modPlcPort_other (Ne.symm ne), List.length_modify .., rfl⟩

theorem State.modPlcPort_leaves {α : Type} {s : State} {n q : Nat} {f : PlcPort → PlcPort} (g : PlcPort → α) (e : ∀ x, g (f x) = g x) :
    g ((s.modPlcPort n f).plcPort q) = g (s.plcPort q) := getD_upd (fun x : PlcPort => g x = g (s.plcPort q)) rfl fun _ h => (e _).trans h

/-- Of a raw record: at most a record without room is counted at its port; the streams and the losses stay. -/
structure RawRecorded (n : Nat) (s x : State) : Prop where
  port : OnPort n s x
  stream : ∀ q, (x.plcPort q).stream = (s.plcPort q).stream
  lost : ∀ q, (x.plcPort q).lost = (s.plcPort q).lost

theorem RawRecorded.of_eq {n : Nat} {s x : State} (e : x.plc = s.plc) : RawRecorded n s x :=
  ⟨.of_eq e, fun _ => congrArg PlcPort.stream (State.plcPort_congr e), fun _ => congrArg PlcPort.lost (State.plcPort_congr e)⟩

theorem State.rawRecord_records {s : State} {y : Sym} {o : Nat} : RawRecorded y.port s (s.rawRecord y o) := by
  have unit : ∀ l, RawRecorded y.port s (s.writeUnit 3 l) := fun _ =>
    .of_eq ((State.writeUnit_keeps rfl (Keeps.refl (T := [.host]))).plc rfl)
  have short : RawRecorded y.port s (s.modPlcPort y.port (fun x => { x with rawShort := inc32 x.rawShort })) :=
    ⟨State.modPlcPort_onPort, fun _ => State.modPlcPort_leaves PlcPort.stream fun _ => rfl,
      fun _ => State.modPlcPort_leaves PlcPort.lost fun _ => rfl⟩
  exact iteInduction (fun _ => .of_eq rfl) fun _ => iteInduction (fun _ => short) fun _ => unit _

theorem State.serveSym_onPort {s : State} {y : Sym} : OnPort y.port s (s.serveSym y) := by
  have tail : ∀ x : State, OnPort y.port s x → ∀ f, OnPort y.port s (x.modRing f) := fun _ h _ => h.trans (.of_eq rfl)
  unfold State.serveSym
  dsimp only
  split
  · exact .refl
  · split
    · split
      · split
        · exact tail _ State.modPlcPort_onPort _
        · exact State.modPlcPort_onPort
      · exact State.modPlcPort_onPort
    · split
      · exact State.modPlcPort_onPort.trans State.modPlcPort_onPort
      · split
        · exact State.modPlcPort_onPort.trans State.modPlcPort_onPort
        · exact State.modPlcPort_onPort

theorem State.loseSym_onPort {s : State} {y : Sym} : OnPort y.port s (s.loseSym y) := by
  unfold State.loseSym
  split
  · exact State.modPlcPort_onPort
  · exact State.modPlcPort_onPort

/-! ### A turn -/

/-- Work on listed symbols leaves a port without one of them, and the count of turns. -/
theorem foldl_onPort {f : State → Sym → State} {l : List Sym} {s : State} {q : Nat} (h : ∀ x y, OnPort y.port x (f x y)) :
    ((∀ y ∈ l, y.port ≠ q) → (l.foldl f s).plcPort q = s.plcPort q) ∧ (l.foldl f s).plc.turns = s.plc.turns := by
  induction l generalizing s with
  | nil => exact ⟨fun _ => rfl, rfl⟩
  | cons y l ih =>
    obtain ⟨rest, turns⟩ := ih (s := f s y)
    exact ⟨fun no => (rest fun z m => no z (List.mem_cons_of_mem _ m)).trans ((h s y).others q (Ne.symm (no y List.mem_cons_self))),
      turns.trans (h s y).turns⟩

/-- The symbols that a turn takes up are of those presented. -/
theorem State.presented_mem {s : State} {l : List Sym} {y : Sym} (m : y ∈ s.presented l) : y ∈ l := by
  have fold : ∀ (l acc : List Sym), y ∈ l.foldl (fun a y =>
      let n := (a.filter (fun z => z.port == y.port && z.alt == y.alt)).length
      if s.presents y && n < (if y.alt then 1 else 2) then a ++ [y] else a) acc → y ∈ acc ∨ y ∈ l := by
    intro l
    induction l with
    | nil => exact fun _ => .inl
    | cons z l ih =>
      intro acc m
      rcases ih _ m with m | m
      · by_cases took : (s.presents z && (acc.filter (fun x => x.port == z.port && x.alt == z.alt)).length < (if z.alt then 1 else 2)) = true
        · have more : y ∈ acc ++ [z] := (if_pos took : (if _ then acc ++ [z] else acc) = _) ▸ m
          rcases List.mem_append.mp more with m | m
          · exact .inl m
          · exact .inr (List.mem_singleton.mp m ▸ List.mem_cons_self)
        · exact .inl ((if_neg took : (if _ then acc ++ [z] else acc) = _) ▸ m)
      · exact .inr (List.mem_cons_of_mem _ m)
  exact (fold l [] m).resolve_left List.not_mem_nil

/-- A symbol that gets a slot, with its raw record. -/
def State.giveSlot (s : State) (y : Sym) (o : Nat) : State := (if y.alt then s else s.rawRecord y o).serveSym y

/-- A symbol that gets none, with its raw record. -/
def State.passOver (s : State) (y : Sym) : State := (if y.alt then s else s.rawRecord y 1).loseSym y

theorem State.giveSlot_onPort {s : State} {y : Sym} {o : Nat} : OnPort y.port s (s.giveSlot y o) := by
  unfold State.giveSlot
  split
  · exact State.serveSym_onPort
  · exact State.rawRecord_records.port.trans State.serveSym_onPort

theorem State.passOver_onPort {s : State} {y : Sym} : OnPort y.port s (s.passOver y) := by
  unfold State.passOver
  split
  · exact State.loseSym_onPort
  · exact State.rawRecord_records.port.trans State.loseSym_onPort

/-- The symbols of a turn in the order in which slots are given. -/
def State.turnOrder (s : State) (syms : List Sym) : List Sym := (s.presented syms).foldl (fun a y => s.insertSym y a) []

theorem State.turnOrder_mem {s : State} {syms : List Sym} {y : Sym} (m : y ∈ s.turnOrder syms) : y ∈ syms := by
  have perm := (State.foldl_insertSym (s := s) (s.presented syms) [] .nil).1
  rw [List.append_nil] at perm
  exact State.presented_mem (perm.mem_iff.mp m)

/-- The record's outcome of a symbol served in a turn: 2 where its alternate got no slot (Table 13.6). -/
def slotOutcome (off : List Sym) (y : Sym) : Nat :=
  if !y.tx && 14 ≤ y.mod && off.any (fun z => z.alt && z.port == y.port) then 2 else 0

theorem execPlcTurn_on {s : State} {u : Nat} {syms : List Sym} (on : s.pwr.coreOn = true) : execPlcTurn u syms s = .next
    ((((s.at u).turnOrder syms).drop s.slots).foldl (fun s y => s.passOver y) ((((s.at u).turnOrder syms).take s.slots).foldl
      (fun x y => x.giveSlot y (slotOutcome (((s.at u).turnOrder syms).drop s.slots) y))
      ((s.at u).modPlc (fun x => { x with turns := (x.turns + 1) % 2 ^ 32 })))) := if_pos on

/-- A lone symbol that can be presented is the turn's whole order. -/
theorem State.turnOrder_lone {s : State} {y : Sym} (h : s.presents y = true) : s.turnOrder [y] = [y] := by
  have one : s.presented [y] = [y] := by
    unfold State.presented
    rw [List.foldl_cons, List.foldl_nil, h]
    exact if_pos (by cases y.alt <;> rfl)
  unfold State.turnOrder
  rw [one]
  rfl

theorem State.presents_port {s : State} {y : Sym} (h : s.presents y = true) : y.port < 18 := by
  unfold State.presents at h
  simp only [Bool.and_eq_true, decide_eq_true_eq] at h
  exact h.1.1.1

/-- A transmit symbol served before its frame's last keeps its stream open. -/
theorem State.giveSlot_sends {s : State} {y : Sym} {o : Nat} (n : s.plc.ports.length = 18) (l : y.port < 18) (na : y.alt = false)
    (tx : y.tx = true) (nl : y.last = false) :
    ((s.giveSlot y o).plcPort y.port).stream = some true ∧ ((s.giveSlot y o).plcPort y.port).lost = (s.plcPort y.port).lost := by
  have raw := State.rawRecord_records (s := s) (y := y) (o := o)
  have served : (s.giveSlot y o) = (s.rawRecord y o).modPlcPort y.port (fun x => { x with
      stream := if y.last then none else some true
      attenTx := if x.stream = none then (s.rawRecord y o).pn (if y.port < 16 then ND_PLC_TX_ATTEN_OUT else ND_PLC_TX_ATTEN_MAINS)
        else x.attenTx }) := by
    simp only [State.giveSlot, State.serveSym, na, tx, nl, Bool.false_eq_true, false_and, if_false, if_true]
  rw [served, State.modPlcPort_same (raw.port.size.symm ▸ n.symm ▸ l), nl]
  exact ⟨rfl, raw.lost _⟩

/-- A symbol without a slot is counted lost, and its stream is closed. -/
theorem State.passOver_loses {s : State} {y : Sym} (n : s.plc.ports.length = 18) (l : y.port < 18) (na : y.alt = false) :
    ((s.passOver y).plcPort y.port).stream = none ∧ ((s.passOver y).plcPort y.port).lost = inc32 (s.plcPort y.port).lost := by
  have raw := State.rawRecord_records (s := s) (y := y) (o := 1)
  have lost : s.passOver y = (s.rawRecord y 1).modPlcPort y.port (fun x => { x with
      lost := inc32 x.lost, stream := none
      blanked := if y.tx then x.blanked else satAdd 32 x.blanked ((s.rawRecord y 1).blankedOf y) }) := by
    unfold State.passOver State.loseSym
    rw [na]
    rfl
  rw [lost, State.modPlcPort_same (raw.port.size.symm ▸ n.symm ▸ l)]
  exact ⟨rfl, congrArg inc32 (raw.lost _)⟩

/-! ### Links -/

theorem State.linkEvent_plc {s : State} {p e c : Nat} : (s.linkEvent p e c).plc = s.plc :=
  (State.linkEvent_keeps rfl (Keeps.refl (T := [.host]))).plc rfl

theorem State.linkEvent_pts {s : State} {p e c : Nat} : (s.linkEvent p e c).pts = s.pts :=
  (State.linkEvent_keeps rfl (Keeps.refl (T := [.host]))).pts rfl

/-- A link's change of an outlet: its port and its loss count, and the other ports as they were. -/
structure LinkChanged (s x : State) (p : Nat) (port : PlcPort) (loss : Option Nat) : Prop where
  port : x.plcPort p = port
  loss : (x.outOf p).lossDue = loss
  others : ∀ q, q ≠ p → x.plcPort q = s.plcPort q

theorem State.linkChanged {s : State} {p e c : Nat} {f : PlcPort → PlcPort} {g : Outlet → Outlet} {loss : Option Nat}
    (snd : Sound s) (l : p < 16) (out : ∀ o, (g o).lossDue = loss) :
    LinkChanged s (((s.modPlcPort p f).modOut p g).linkEvent p e c) p (f (s.plcPort p)) loss where
  port := (State.plcPort_congr State.linkEvent_plc).trans (State.modPlcPort_same (snd.ports.symm ▸ Nat.lt_of_lt_of_le l (by decide)))
  loss := (congrArg Outlet.lossDue ((State.outOf_congr State.linkEvent_pts).trans (State.modOut_same (snd.pts.symm ▸ l)))).trans (out _)
  others q ne := (State.plcPort_congr State.linkEvent_plc).trans (State.modPlcPort_other (Ne.symm ne))

theorem execPlcLinkUp_matched {s : State} {u p : Nat} (l : p < 16) (pow : s.plcPowered p = true)
    (m : (s.outOf p).slacMatched.isSome = true) (no : (s.plcPort p).link = false) (run : s.fw.svcRunning = true) :
    execPlcLinkUp u p s = .next ((((s.at u).modPlcPort p (fun x => { x with
      link := true, frames := 0, linkDue := some ((s.at u).clk.up + s.pn ND_PLC_LINK_TIMEOUT * 1000000) })).modOut p
      (fun o => { o with lossDue := none })).linkEvent p 1 0) := if_pos ⟨l, pow, m, no, run⟩

theorem execPlcLinkTimeout_due {s : State} {u p d : Nat} (l : p < 16) (up : (s.plcPort p).link = true)
    (e : (s.plcPort p).linkDue = some d) (le : d ≤ u) : execPlcLinkTimeout u p s = .next
      ((((s.at u).modPlcPort p (fun x => { x with link := false, linkDue := none })).modOut p (fun o => { o with
        lossDue := some ((s.at u).clk.up + (s.at u).pn PT_PLC_LOSS p * 1000000), slacMatched := none })).linkEvent p 0 1) :=
  (if_pos ⟨l, by rw [show ((s.at u).plcPort p).linkDue = some d from e]; exact decide_eq_true le⟩).trans
    (congrArg Host.Outcome.next (if_pos up))

end Sys2Proof.Machine

open Sys2Proof Sys2Proof.Machine

/-- Settles O19: a turn works on each symbol's own port, and a link's change on its outlet's. -/
theorem plcEventsComplete : Obligations.PlcEventsComplete := by
  intro s u snd
  refine ⟨fun port gain l on pow idle => ?preamble, fun syms on => ?turn, fun y on pres na tx nl => ?lone,
    fun p l pow m no run => ?up, fun p d l link e le => ?down⟩
  case preamble =>
    exact ⟨_, if_pos ⟨l, on, pow, idle⟩, State.modPlcPort_same (s := s.at u) (snd.ports.symm ▸ l),
      fun q ne => State.modPlcPort_other (Ne.symm ne), State.modPlcPort_keeps rfl (State.at_keeps rfl .refl)⟩
  case turn =>
    have e := execPlcTurn_on (u := u) (syms := syms) on
    refine ⟨_, e, ?_, fun q no => ?_, exec_keeps (.plcTurn u syms) _ _ e⟩
    · exact (foldl_onPort (q := 0) fun _ _ => State.passOver_onPort).2.trans
        (foldl_onPort (q := 0) fun _ _ => State.giveSlot_onPort).2
    · exact ((foldl_onPort fun _ _ => State.passOver_onPort).1 fun y m => no y (State.turnOrder_mem (List.mem_of_mem_drop m))).trans
        ((foldl_onPort fun _ _ => State.giveSlot_onPort).1 fun y m => no y (State.turnOrder_mem (List.mem_of_mem_take m)))
  case lone =>
    have e := execPlcTurn_on (u := u) (syms := [y]) on
    refine ⟨_, e, fun some => ?_, fun none => ?_, exec_keeps (.plcTurn u [y]) _ _ e⟩
    · have order : (s.at u).turnOrder [y] = [y] := State.turnOrder_lone pres
      rw [order, List.take_of_length_le (by exact some), List.drop_eq_nil_of_le (by exact some)]
      exact State.giveSlot_sends snd.ports (State.presents_port pres) na tx nl
    · have order : (s.at u).turnOrder [y] = [y] := State.turnOrder_lone pres
      rw [order, none]
      exact State.passOver_loses snd.ports (State.presents_port pres) na
  case up =>
    have e := execPlcLinkUp_matched (u := u) l pow m no run
    have h := State.linkChanged (s := s.at u) (e := 1) (c := 0) (f := fun x => { x with
      link := true, frames := 0, linkDue := some ((s.at u).clk.up + s.pn ND_PLC_LINK_TIMEOUT * 1000000) })
      (g := fun o => { o with lossDue := none }) (loss := none) (State.at_sound snd) l fun _ => rfl
    exact ⟨_, e, congrArg PlcPort.link h.port, congrArg PlcPort.linkDue h.port, h.loss, h.others, exec_keeps (.plcLinkUp u p) _ _ e⟩
  case down =>
    have t := execPlcLinkTimeout_due (u := u) l link e le
    have h := State.linkChanged (s := s.at u) (e := 0) (c := 1) (f := fun x => { x with link := false, linkDue := none })
      (g := fun o => { o with lossDue := some ((s.at u).clk.up + (s.at u).pn PT_PLC_LOSS p * 1000000), slacMatched := none })
      (State.at_sound snd) l fun _ => rfl
    exact ⟨_, t, congrArg PlcPort.link h.port, congrArg PlcPort.linkDue h.port, h.loss, h.others, exec_keeps (.plcLinkTimeout u p) _ _ t⟩
end

section
/-!
What raises events and writes streams: work that leaves every other field of the host space as it was (19 R455, R463).
-/

namespace Sys2Proof.Machine

/-- Of the host space only events and streams changed. -/
structure EventsOnly (s x : State) : Prop where
  space : x.host = { s.host with events := x.host.events, pend := x.host.pend, streams := x.host.streams }

theorem EventsOnly.refl {s : State} : EventsOnly s s := ⟨rfl⟩

theorem EventsOnly.trans {s x y : State} (h : EventsOnly s x) (g : EventsOnly x y) : EventsOnly s y := by
  constructor
  rw [g.space, h.space]

theorem EventsOnly.of_calm {s x y : State} (g : Calm x y) (h : EventsOnly s x) : EventsOnly s y := h.trans ⟨g.space⟩

/-- The parts other than the host space. -/
abbrev besideHost : List Part := [.clk, .servo, .par, .test, .slices, .courses, .eng, .pts, .recs, .led, .sw, .saf, .log, .keys, .disp,
  .plc, .ring, .sar, .fw, .pwr]

/-- Work on parts other than the host space. -/
theorem EventsOnly.apart {s x y : State} (k : Keeps besideHost x y) (h : EventsOnly s x) : EventsOnly s y := by
  constructor
  rw [k.host (by decide)]
  exact h.space

theorem EventsOnly.ite {s x y : State} {c : Prop} [Decidable c] (h : EventsOnly s x) (g : EventsOnly s y) :
    EventsOnly s (if c then x else y) := by
  split <;> assumption

theorem EventsOnly.foldl {α : Type} {s x : State} {f : State → α → State} {l : List α} (h : EventsOnly s x)
    (g : ∀ y a, EventsOnly s y → EventsOnly s (f y a)) : EventsOnly s (l.foldl f x) := by
  induction l generalizing x with
  | nil => exact h
  | cons a l ih => exact ih (g x a h)

theorem EventsOnly.forAll {s x : State} {f : Nat → State → State} {l : List Nat} (h : EventsOnly s x)
    (g : ∀ i y, EventsOnly s y → EventsOnly s (f i y)) : EventsOnly s (forAll l f x) := .foldl h fun y a => g a y

theorem State.raise_eventsOnly {r s : State} {ev sub : Nat} {b : Bytes} (h : EventsOnly r s) : EventsOnly r (s.raise ev sub b) :=
  .of_calm State.raise_calm h

theorem State.raiseMid_eventsOnly {r s : State} {ev sub : Nat} {b c : Bytes} (h : EventsOnly r s) :
    EventsOnly r (s.raiseMid ev sub b c) := .of_calm State.raiseMid_calm h

theorem State.raiseRaw_eventsOnly {r s : State} {ev : Nat} {b : Bytes} (h : EventsOnly r s) : EventsOnly r (s.raiseRaw ev b) :=
  h.trans ⟨rfl⟩

theorem State.mramError_eventsOnly {r s : State} {x1 x2} (h : EventsOnly r s) : EventsOnly r (State.mramError s x1 x2) := by
  unfold State.mramError
  repeat' (first | ((with_reducible apply within_of); rfl) | with_reducible assumption | with_reducible (first
    | apply State.raise_eventsOnly
    | apply EventsOnly.ite | apply EventsOnly.foldl | apply EventsOnly.forAll | intro _ _ _) | split | dsimp only)

theorem State.restoredEvent_eventsOnly {r s : State} {x1} (h : EventsOnly r s) : EventsOnly r (State.restoredEvent s x1) := by
  unfold State.restoredEvent
  repeat' (first | ((with_reducible apply within_of); rfl) | with_reducible assumption | with_reducible (first
    | apply State.raiseRaw_eventsOnly
    | apply EventsOnly.ite | apply EventsOnly.foldl | apply EventsOnly.forAll | intro _ _ _) | split | dsimp only)

theorem State.capoEvent_eventsOnly {r s : State} {x1 x2 x3 x4} (h : EventsOnly r s) : EventsOnly r (State.capoEvent s x1 x2 x3 x4) := by
  unfold State.capoEvent
  repeat' (first | ((with_reducible apply within_of); rfl) | with_reducible assumption | with_reducible (first
    | apply State.raise_eventsOnly
    | apply EventsOnly.ite | apply EventsOnly.foldl | apply EventsOnly.forAll | intro _ _ _) | split | dsimp only)

theorem State.supplyEvent_eventsOnly {r s : State} {x1} (h : EventsOnly r s) : EventsOnly r (State.supplyEvent s x1) := by
  unfold State.supplyEvent
  repeat' (first | ((with_reducible apply within_of); rfl) | with_reducible assumption | with_reducible (first
    | apply State.raise_eventsOnly
    | apply EventsOnly.ite | apply EventsOnly.foldl | apply EventsOnly.forAll | intro _ _ _) | split | dsimp only)

theorem State.enterPhase_eventsOnly {r s : State} {x1} (h : EventsOnly r s) : EventsOnly r (State.enterPhase s x1) := by
  unfold State.enterPhase
  repeat' (first | ((with_reducible apply within_of); rfl) | with_reducible assumption | with_reducible (first
    | apply State.supplyEvent_eventsOnly | refine .apart (State.modSw_keeps ?_ .refl) ?_
    | apply EventsOnly.ite | apply EventsOnly.foldl | apply EventsOnly.forAll | intro _ _ _) | split | dsimp only)

theorem State.enter_eventsOnly {r s : State} {x1 x2 x3 x4 x5 x6 x7 x8 x9} (h : EventsOnly r s) : EventsOnly r (State.enter s x1 x2 x3 x4 x5 x6 x7 x8 x9) := by
  unfold State.enter
  repeat' (first | ((with_reducible apply within_of); rfl) | with_reducible assumption | with_reducible (first
    | refine .of_calm State.logNear_calm ?_ | refine .of_calm State.unitLost_calm ?_ | refine .of_calm State.writeUnit_calm ?_
    | refine .apart (State.modLog_keeps ?_ .refl) ?_
    | apply EventsOnly.ite | apply EventsOnly.foldl | apply EventsOnly.forAll | intro _ _ _) | split | dsimp only)

theorem State.outletSession_eventsOnly {r s : State} {x1 x2 x3 x4} (h : EventsOnly r s) : EventsOnly r (State.outletSession s x1 x2 x3 x4) := by
  unfold State.outletSession
  repeat' (first | ((with_reducible apply within_of); rfl) | with_reducible assumption | with_reducible (first
    | apply State.raise_eventsOnly
    | apply EventsOnly.ite | apply EventsOnly.foldl | apply EventsOnly.forAll | intro _ _ _) | split | dsimp only)

theorem State.enterState_eventsOnly {r s : State} {x1 x2 x3} (h : EventsOnly r s) : EventsOnly r (State.enterState s x1 x2 x3) := by
  unfold State.enterState
  repeat' (first | ((with_reducible apply within_of); rfl) | with_reducible assumption | with_reducible (first
    | apply State.outletSession_eventsOnly | refine .apart (State.modOut_keeps ?_ .refl) ?_ | refine .apart (State.modSes_keeps ?_ .refl) ?_
    | refine .apart (State.setPilot_keeps ?_ .refl) ?_
    | apply EventsOnly.ite | apply EventsOnly.foldl | apply EventsOnly.forAll | intro _ _ _) | split | dsimp only)

theorem State.revokeParent_eventsOnly {r s : State} {x1} (h : EventsOnly r s) : EventsOnly r (State.revokeParent s x1) := by
  unfold State.revokeParent
  repeat' (first | ((with_reducible apply within_of); rfl) | with_reducible assumption | with_reducible (first
    | refine .of_calm State.backToIdle_calm ?_ | refine .apart (State.addCause_keeps ?_ .refl) ?_ | refine .apart (State.modSes_keeps ?_ .refl) ?_
    | apply EventsOnly.ite | apply EventsOnly.foldl | apply EventsOnly.forAll | intro _ _ _) | split | dsimp only)

theorem State.keyEvent_eventsOnly {r s : State} {x1 x2 x3 x4 x5 x6 x7} (h : EventsOnly r s) : EventsOnly r (State.keyEvent s x1 x2 x3 x4 x5 x6 x7) := by
  unfold State.keyEvent
  repeat' (first | ((with_reducible apply within_of); rfl) | with_reducible assumption | with_reducible (first
    | apply State.raise_eventsOnly
    | apply EventsOnly.ite | apply EventsOnly.foldl | apply EventsOnly.forAll | intro _ _ _) | split | dsimp only)

theorem State.invalidateOne_eventsOnly {r s : State} {x1 x2 x3 x4 x5 x6} (h : EventsOnly r s) : EventsOnly r (State.invalidateOne s x1 x2 x3 x4 x5 x6) := by
  unfold State.invalidateOne
  repeat' (first | ((with_reducible apply within_of); rfl) | with_reducible assumption | with_reducible (first
    | apply State.enter_eventsOnly | apply State.keyEvent_eventsOnly | apply State.revokeParent_eventsOnly
    | refine .apart (State.modKey_keeps ?_ .refl) ?_
    | apply EventsOnly.ite | apply EventsOnly.foldl | apply EventsOnly.forAll | intro _ _ _) | split | dsimp only)

theorem State.invalidate_eventsOnly {r s : State} {x1 x2 x3 x4 x5} (h : EventsOnly r s) : EventsOnly r (State.invalidate s x1 x2 x3 x4 x5) := by
  unfold State.invalidate
  repeat' (first | ((with_reducible apply within_of); rfl) | with_reducible assumption | with_reducible (first
    | apply State.invalidateOne_eventsOnly | apply State.revokeParent_eventsOnly
    | apply EventsOnly.ite | apply EventsOnly.foldl | apply EventsOnly.forAll | intro _ _ _) | split | dsimp only)

theorem State.sealBindings_eventsOnly {r s : State} {x1} (h : EventsOnly r s) : EventsOnly r (State.sealBindings s x1) := by
  unfold State.sealBindings
  repeat' (first | ((with_reducible apply within_of); rfl) | with_reducible assumption | with_reducible (first
    | apply State.invalidate_eventsOnly
    | apply EventsOnly.ite | apply EventsOnly.foldl | apply EventsOnly.forAll | intro _ _ _) | split | dsimp only)

theorem State.enterCapo_eventsOnly {r s : State} {x1 x2 x3 x4 x5 x6} (h : EventsOnly r s) : EventsOnly r (State.enterCapo s x1 x2 x3 x4 x5 x6) := by
  unfold State.enterCapo
  repeat' (first | ((with_reducible apply within_of); rfl) | with_reducible assumption | with_reducible (first
    | apply State.enter_eventsOnly
    | apply EventsOnly.ite | apply EventsOnly.foldl | apply EventsOnly.forAll | intro _ _ _) | split | dsimp only)

theorem State.build_eventsOnly {r s : State} {x1 x2 x3 x4 x5 x6 x7 x8 x9} (h : EventsOnly r s) : EventsOnly r (State.build s x1 x2 x3 x4 x5 x6 x7 x8 x9) := by
  unfold State.build
  repeat' (first | ((with_reducible apply within_of); rfl) | with_reducible assumption | with_reducible (first
    | apply State.raiseRaw_eventsOnly | refine .apart (State.bumpSeq_keeps ?_ .refl) ?_ | refine .apart (State.modRecs_keeps ?_ .refl) ?_
    | refine .apart (State.writeLine_keeps ?_ .refl) ?_
    | apply EventsOnly.ite | apply EventsOnly.foldl | apply EventsOnly.forAll | intro _ _ _) | split | dsimp only)

theorem State.buildSeal_eventsOnly {r s : State} {x1 x2 x3 x4 x5} (h : EventsOnly r s) : EventsOnly r (State.buildSeal s x1 x2 x3 x4 x5) := by
  unfold State.buildSeal
  repeat' (first | ((with_reducible apply within_of); rfl) | with_reducible assumption | with_reducible (first
    | apply State.build_eventsOnly | refine .apart (State.modLog_keeps ?_ .refl) ?_ | refine .apart (State.modRecs_keeps ?_ .refl) ?_
    | apply EventsOnly.ite | apply EventsOnly.foldl | apply EventsOnly.forAll | intro _ _ _) | split | dsimp only)

theorem State.sealChange_eventsOnly {r s : State} {x1 x2} (h : EventsOnly r s) : EventsOnly r (State.sealChange s x1 x2) :=
  have noted : EventsOnly r (s.modSaf (fun x => { x with seals := x2 })) := .apart (State.modSaf_keeps rfl .refl) h
  have raised := State.raise_eventsOnly (State.buildSeal_eventsOnly (State.enterCapo_eventsOnly noted))
  have bound := EventsOnly.ite (State.sealBindings_eventsOnly raised) raised
  .ite (.of_calm State.relock_calm bound) bound

theorem State.startSeals_eventsOnly {r s : State} (h : EventsOnly r s) : EventsOnly r (State.startSeals s) :=
  .ite (State.sealChange_eventsOnly h) (.apart (State.modSaf_keeps rfl .refl) h)

theorem State.startSafety_eventsOnly {r s : State} {x1 x2} (h : EventsOnly r s) : EventsOnly r (State.startSafety s x1 x2) := by
  have begun : ∀ f, EventsOnly r ((forAll points16 (fun i s => s.startEntry i) ((s.modSaf f).release4 80)).refreshSw) := fun _ =>
    .apart (State.refreshSw_keeps rfl .refl) (.forAll (.apart (State.release4_keeps rfl .refl) (.apart (State.modSaf_keeps rfl .refl) h))
      fun _ _ g => .apart (State.startEntry_keeps rfl .refl) g)
  have woken : ∀ y, EventsOnly r y → EventsOnly r (if y.sw.phase = 2 ∧ y.sw.powered = true ∧ y.testing = false then y.enterPhase 0 else y) :=
    fun _ g => .ite (State.enterPhase_eventsOnly g) g
  exact .ite (.apart (State.armWatchdog_keeps rfl .refl) (woken _ (begun _))) (.apart (State.modSw_keeps rfl .refl) (woken _ (begun _)))

theorem State.restartParts_eventsOnly {r s : State} {x1 x2} (h : EventsOnly r s) : EventsOnly r (State.restartParts s x1 x2) := by
  have parts : ∀ f g k, EventsOnly r (((s.endTests.modPts f).modSaf g).modKeys k) := fun _ _ _ =>
    .apart (State.modKeys_keeps rfl .refl) (.apart (State.modSaf_keeps rfl .refl) (.apart (State.modPts_keeps rfl .refl)
      (.apart (State.endTests_keeps rfl .refl) h)))
  exact .forAll (State.startSafety_eventsOnly (parts _ _ _)) fun _ _ g => .apart (State.setPilot_keeps rfl .refl) g

theorem State.buildEnd_eventsOnly {r s : State} {x1 x2 x3 x4} (h : EventsOnly r s) : EventsOnly r (State.buildEnd s x1 x2 x3 x4) := by
  unfold State.buildEnd
  repeat' (first | ((with_reducible apply within_of); rfl) | with_reducible assumption | with_reducible (first
    | apply State.build_eventsOnly | refine .apart (State.modSes_keeps ?_ .refl) ?_
    | apply EventsOnly.ite | apply EventsOnly.foldl | apply EventsOnly.forAll | intro _ _ _) | split | dsimp only)

theorem State.endOpen_eventsOnly {r s : State} {x1 x2 x3 x4} (h : EventsOnly r s) : EventsOnly r (State.endOpen s x1 x2 x3 x4) := by
  unfold State.endOpen
  repeat' (first | ((with_reducible apply within_of); rfl) | with_reducible assumption | with_reducible (first
    | apply State.buildEnd_eventsOnly | apply State.outletSession_eventsOnly | refine .apart (State.modSes_keeps ?_ .refl) ?_
    | apply EventsOnly.ite | apply EventsOnly.foldl | apply EventsOnly.forAll | intro _ _ _) | split | dsimp only)

theorem State.incomplete_eventsOnly {r s : State} (h : EventsOnly r s) : EventsOnly r (State.incomplete s) := by
  unfold State.incomplete
  repeat' (first | ((with_reducible apply within_of); rfl) | with_reducible assumption | with_reducible (first
    | apply State.raise_eventsOnly
    | apply EventsOnly.ite | apply EventsOnly.foldl | apply EventsOnly.forAll | intro _ _ _) | split | dsimp only)

theorem State.serviceAt_eventsOnly {r s : State} {x1 x2} (h : EventsOnly r s) : EventsOnly r (State.serviceAt s x1 x2) := by
  unfold State.serviceAt
  repeat' (first | ((with_reducible apply within_of); rfl) | with_reducible assumption | with_reducible (first
    | refine .of_calm State.backToIdle_calm ?_ | refine .apart (State.buildEvent_keeps ?_ .refl) ?_ | refine .apart (State.freshPilot_keeps ?_ .refl) ?_
    | refine .apart (State.modPt_keeps ?_ .refl) ?_ | refine .apart (State.pathOff_keeps ?_ .refl) ?_
    | apply EventsOnly.ite | apply EventsOnly.foldl | apply EventsOnly.forAll | intro _ _ _) | split | dsimp only)

theorem State.topology_eventsOnly {r s : State} {x1 x2 x3} (h : EventsOnly r s) : EventsOnly r (State.topology s x1 x2 x3) := by
  unfold State.topology
  repeat' (first | ((with_reducible apply within_of); rfl) | with_reducible assumption | with_reducible (first
    | apply State.raise_eventsOnly
    | apply EventsOnly.ite | apply EventsOnly.foldl | apply EventsOnly.forAll | intro _ _ _) | split | dsimp only)

theorem State.checkDepth_eventsOnly {r s : State} (h : EventsOnly r s) : EventsOnly r (State.checkDepth s) := by
  unfold State.checkDepth
  repeat' (first | ((with_reducible apply within_of); rfl) | with_reducible assumption | with_reducible (first
    | apply State.topology_eventsOnly | refine .apart (State.modRing_keeps ?_ .refl) ?_
    | apply EventsOnly.ite | apply EventsOnly.foldl | apply EventsOnly.forAll | intro _ _ _) | split | dsimp only)

theorem State.postBalance_eventsOnly {r s : State} {x1} (h : EventsOnly r s) : EventsOnly r (State.postBalance s x1) := by
  unfold State.postBalance
  repeat' (first | ((with_reducible apply within_of); rfl) | with_reducible assumption | with_reducible (first
    | apply State.checkDepth_eventsOnly | refine .apart (State.modRing_keeps ?_ .refl) ?_
    | apply EventsOnly.ite | apply EventsOnly.foldl | apply EventsOnly.forAll | intro _ _ _) | split | dsimp only)

theorem State.buildLate_eventsOnly {r s : State} {x1 x2} (h : EventsOnly r s) : EventsOnly r (State.buildLate s x1 x2) := by
  unfold State.buildLate
  repeat' (first | ((with_reducible apply within_of); rfl) | with_reducible assumption | with_reducible (first
    | apply State.build_eventsOnly | refine .apart (State.modPt_keeps ?_ .refl) ?_
    | apply EventsOnly.ite | apply EventsOnly.foldl | apply EventsOnly.forAll | intro _ _ _) | split | dsimp only)

theorem State.timeEvent_eventsOnly {r s : State} {x1 x2 x3 x4 x5 x6 x7 x8} (h : EventsOnly r s) : EventsOnly r (State.timeEvent s x1 x2 x3 x4 x5 x6 x7 x8) := by
  unfold State.timeEvent
  repeat' (first | ((with_reducible apply within_of); rfl) | with_reducible assumption | with_reducible (first
    | apply State.raiseRaw_eventsOnly
    | apply EventsOnly.ite | apply EventsOnly.foldl | apply EventsOnly.forAll | intro _ _ _) | split | dsimp only)

theorem State.enterHoldover_eventsOnly {r s : State} (h : EventsOnly r s) : EventsOnly r (State.enterHoldover s) := by
  unfold State.enterHoldover
  repeat' (first | ((with_reducible apply within_of); rfl) | with_reducible assumption | with_reducible (first
    | apply State.timeEvent_eventsOnly | refine .apart (State.bump_keeps ?_ .refl) ?_ | refine .apart (State.modServo_keeps ?_ .refl) ?_
    | refine .apart (State.queueFault_keeps ?_ .refl) ?_
    | apply EventsOnly.ite | apply EventsOnly.foldl | apply EventsOnly.forAll | intro _ _ _) | split | dsimp only)

theorem State.loseSource_eventsOnly {r s : State} {x1} (h : EventsOnly r s) : EventsOnly r (State.loseSource s x1) := by
  unfold State.loseSource
  repeat' (first | ((with_reducible apply within_of); rfl) | with_reducible assumption | with_reducible (first
    | apply State.enterHoldover_eventsOnly
    | apply EventsOnly.ite | apply EventsOnly.foldl | apply EventsOnly.forAll | intro _ _ _) | split | dsimp only)

theorem State.linkDetail_eventsOnly {r s : State} {x1 x2} (h : EventsOnly r s) : EventsOnly r (State.linkDetail s x1 x2) := by
  unfold State.linkDetail
  repeat' (first | ((with_reducible apply within_of); rfl) | with_reducible assumption | with_reducible (first
    | apply State.raiseMid_eventsOnly
    | apply EventsOnly.ite | apply EventsOnly.foldl | apply EventsOnly.forAll | intro _ _ _) | split | dsimp only)

theorem State.neighbourEvent_eventsOnly {r s : State} {x1 x2 x3 x4 x5 x6} (h : EventsOnly r s) : EventsOnly r (State.neighbourEvent s x1 x2 x3 x4 x5 x6) := by
  unfold State.neighbourEvent
  repeat' (first | ((with_reducible apply within_of); rfl) | with_reducible assumption | with_reducible (first
    | apply State.linkDetail_eventsOnly
    | apply EventsOnly.ite | apply EventsOnly.foldl | apply EventsOnly.forAll | intro _ _ _) | split | dsimp only)

theorem State.plcSweep_eventsOnly {r s : State} (h : EventsOnly r s) : EventsOnly r (State.plcSweep s) :=
  .forAll (.forAll h fun _ _ g => .of_calm State.linkIdle_calm g) fun _ _ g => .ite g (.foldl
    (.apart (State.modServo_keeps rfl .refl) (.apart (State.modPlcPort_keeps rfl .refl) g)) fun _ _ k =>
      .ite (State.loseSource_eventsOnly (.apart (State.queueFault_keeps rfl .refl) (State.neighbourEvent_eventsOnly k)))
        (.apart (State.queueFault_keeps rfl .refl) (State.neighbourEvent_eventsOnly k)))

theorem State.demandEvent_eventsOnly {r s : State} {x1 x2 x3 x4 x5 x6 x7} (h : EventsOnly r s) : EventsOnly r (State.demandEvent s x1 x2 x3 x4 x5 x6 x7) := by
  unfold State.demandEvent
  repeat' (first | ((with_reducible apply within_of); rfl) | with_reducible assumption | with_reducible (first
    | apply State.raise_eventsOnly
    | apply EventsOnly.ite | apply EventsOnly.foldl | apply EventsOnly.forAll | intro _ _ _) | split | dsimp only)

theorem State.inputDemand_eventsOnly {r s : State} {x1 x2} (h : EventsOnly r s) : EventsOnly r (State.inputDemand s x1 x2) := by
  unfold State.inputDemand
  repeat' (first | ((with_reducible apply within_of); rfl) | with_reducible assumption | with_reducible (first
    | apply State.demandEvent_eventsOnly
    | apply EventsOnly.ite | apply EventsOnly.foldl | apply EventsOnly.forAll | intro _ _ _) | split | dsimp only)

theorem State.discEvent_eventsOnly {r s : State} {x1 x2 x3} (h : EventsOnly r s) : EventsOnly r (State.discEvent s x1 x2 x3) := by
  unfold State.discEvent
  repeat' (first | ((with_reducible apply within_of); rfl) | with_reducible assumption | with_reducible (first
    | apply State.raise_eventsOnly
    | apply EventsOnly.ite | apply EventsOnly.foldl | apply EventsOnly.forAll | intro _ _ _) | split | dsimp only)

theorem State.clearInput_eventsOnly {r s : State} {x1} (h : EventsOnly r s) : EventsOnly r (State.clearInput s x1) := by
  have cleared : ∀ f, EventsOnly r (s.modSafIn x1 f) := fun _ => .apart (State.modSafIn_keeps rfl .refl) h
  have told : ∀ f k d e, EventsOnly r (if (s.safIn x1).latched = true then (s.modSafIn x1 f).discEvent k d e else s.modSafIn x1 f) :=
    fun _ _ _ _ => .ite (State.discEvent_eventsOnly (cleared _)) (cleared _)
  have ended : ∀ y k d, EventsOnly r y → EventsOnly r (if (s.safIn x1).demand = true then y.inputDemand k d else y) :=
    fun _ _ _ g => .ite (State.inputDemand_eventsOnly g) g
  exact .apart (State.release4_keeps rfl .refl) (.ite (.of_calm State.releaseInput_calm (ended _ _ _ (told _ _ _ _)))
    (.apart (State.releaseSi_keeps rfl .refl) (ended _ _ _ (told _ _ _ _))))

theorem State.settleInput_eventsOnly {r s : State} {x1} (h : EventsOnly r s) : EventsOnly r (State.settleInput s x1) := by
  have freed : EventsOnly r (if (s.safIn x1).latched = true then s else s.release4 x1) := .ite h (.apart (State.release4_keeps rfl .refl) h)
  have held : ∀ (y : State) f (l : List Nat), EventsOnly r y → EventsOnly r (l.foldl (fun s n => s.holdSi x1 n) (y.modSafIn x1 f)) :=
    fun _ _ _ g => .foldl (.apart (State.modSafIn_keeps rfl .refl) g) fun _ _ k => .apart (State.holdSi_keeps rfl .refl) k
  unfold State.settleInput
  dsimp only
  split
  · exact State.clearInput_eventsOnly h
  · split
    · exact .ite (held _ _ _ freed) (.of_calm State.addCause_calm (State.inputDemand_eventsOnly (held _ _ _ freed)))
    · split
      · exact State.inputDemand_eventsOnly (.apart (State.modSafIn_keeps rfl .refl) h)
      · exact .ite (.apart (State.release4_keeps rfl .refl) (.apart (State.releaseSi_keeps rfl .refl) h)) h

theorem State.retype_eventsOnly {r s : State} {x1 x2 x3} (h : EventsOnly r s) : EventsOnly r (State.retype s x1 x2 x3) := by
  have emptied : ∀ f, EventsOnly r (((s.retypeRecords x1 x2 x3).modPt x1 f).mpoIdle x1) := fun _ =>
    .apart (State.mpoIdle_keeps rfl .refl) (.apart (State.modPt_keeps rfl .refl) (.apart (State.retypeRecords_keeps rfl .refl) h))
  have settled : ∀ (y : State) (l : List Nat), EventsOnly r y → EventsOnly r (l.foldl (fun s k => (s.settleInput k).runInput k s.clk.up) y) :=
    fun _ _ g => .foldl g fun _ _ k => .apart (State.runInput_keeps rfl .refl) (State.settleInput_eventsOnly k)
  exact .ite (.apart (State.command_keeps rfl .refl) (.apart (State.command_keeps rfl .refl) (settled _ _ (emptied _))))
    (settled _ _ (emptied _))

theorem State.boundaryValue_eventsOnly {r s : State} {x1 x2} (h : EventsOnly r s) : EventsOnly r (State.boundaryValue s x1 x2) := by
  unfold State.boundaryValue
  repeat' (first | ((with_reducible apply within_of); rfl) | with_reducible assumption | with_reducible (first
    | apply State.settleInput_eventsOnly | refine .apart (State.driveMpo_keeps ?_ .refl) ?_ | refine .apart (State.modPt_keeps ?_ .refl) ?_
    | refine .apart (State.modServo_keeps ?_ .refl) ?_ | refine .apart (State.modSw_keeps ?_ .refl) ?_ | refine .apart (State.mpoIdle_keeps ?_ .refl) ?_
    | refine .apart (State.rediscover_keeps ?_ .refl) ?_ | refine .apart (State.runInput_keeps ?_ .refl) ?_ | refine .apart (State.startEntry_keeps ?_ .refl) ?_
    | apply EventsOnly.ite | apply EventsOnly.foldl | apply EventsOnly.forAll | intro _ _ _) | split | dsimp only)

theorem State.configApplied_eventsOnly {r s : State} {x1 x2} (h : EventsOnly r s) : EventsOnly r (State.configApplied s x1 x2) := by
  unfold State.configApplied
  repeat' (first | ((with_reducible apply within_of); rfl) | with_reducible assumption | with_reducible (first
    | apply State.raise_eventsOnly | refine .apart (State.bump_keeps ?_ .refl) ?_
    | apply EventsOnly.ite | apply EventsOnly.foldl | apply EventsOnly.forAll | intro _ _ _) | split | dsimp only)

theorem State.commitRipe_eventsOnly {r s : State} {x1} (h : EventsOnly r s) : EventsOnly r (State.commitRipe s x1) := by
  have ripe : ∀ (f : ParamStore → ParamStore) (l : List Staged) (m : List Nat) (g : Nat → Nat), EventsOnly r (forAll m (fun p s => s.retype p (g p) x1)
      (l.foldl (fun s e => s.boundaryValue e.pid e.inst) (s.modPar f))) := fun _ _ _ _ =>
    .forAll (.foldl (.apart (State.modPar_keeps rfl .refl) h) fun _ _ k => State.boundaryValue_eventsOnly k)
      fun _ _ k => State.retype_eventsOnly k
  have noted : ∀ (y : State) f g, EventsOnly r y → EventsOnly r (((y.reservedNow s).modPar f).modPar g) := fun _ _ _ k =>
    .apart (State.modPar_keeps rfl .refl) (.apart (State.modPar_keeps rfl .refl) (.apart (State.reservedNow_keeps rfl .refl) k))
  exact .foldl (noted _ _ _ (ripe _ _ _ _)) fun _ _ k => State.configApplied_eventsOnly k

theorem State.close_eventsOnly {r s : State} {x1} (h : EventsOnly r s) : EventsOnly r (State.close s x1) := by
  unfold State.close
  repeat' (first | ((with_reducible apply within_of); rfl) | with_reducible assumption | with_reducible (first
    | apply State.enterState_eventsOnly | refine .apart (State.endSession_keeps ?_ .refl) ?_ | refine .apart (State.modOut_keeps ?_ .refl) ?_
    | apply EventsOnly.ite | apply EventsOnly.foldl | apply EventsOnly.forAll | intro _ _ _) | split | dsimp only)

theorem State.closeAtPeriod_eventsOnly {r s : State} {x1 x2} (h : EventsOnly r s) : EventsOnly r (State.closeAtPeriod s x1 x2) := by
  unfold State.closeAtPeriod
  repeat' (first | ((with_reducible apply within_of); rfl) | with_reducible assumption | with_reducible (first
    | apply State.buildEnd_eventsOnly | apply State.close_eventsOnly | refine .apart (State.modSes_keeps ?_ .refl) ?_
    | refine .apart (State.pathOff_keeps ?_ .refl) ?_
    | apply EventsOnly.ite | apply EventsOnly.foldl | apply EventsOnly.forAll | intro _ _ _) | split | dsimp only)

theorem State.closePeriod_eventsOnly {r s : State} {x1 x2} (h : EventsOnly r s) : EventsOnly r (State.closePeriod s x1 x2) := by
  unfold State.closePeriod
  repeat' (first | ((with_reducible apply within_of); rfl) | with_reducible assumption | with_reducible (first
    | apply State.build_eventsOnly | apply State.closeAtPeriod_eventsOnly | refine .apart (State.modPt_keeps ?_ .refl) ?_
    | apply EventsOnly.ite | apply EventsOnly.foldl | apply EventsOnly.forAll | intro _ _ _) | split | dsimp only)

theorem State.periodClosed_eventsOnly {r s : State} {x1 x2 x3} (h : EventsOnly r s) : EventsOnly r (State.periodClosed s x1 x2 x3) := by
  unfold State.periodClosed
  repeat' (first | ((with_reducible apply within_of); rfl) | with_reducible assumption | with_reducible (first
    | apply State.raise_eventsOnly
    | apply EventsOnly.ite | apply EventsOnly.foldl | apply EventsOnly.forAll | intro _ _ _) | split | dsimp only)

theorem State.closePeriods_eventsOnly {r s : State} {x1 x2 x3 x4} (h : EventsOnly r s) : EventsOnly r (State.closePeriods s x1 x2 x3 x4) := by
  unfold State.closePeriods
  repeat' (first | ((with_reducible apply within_of); rfl) | with_reducible assumption | with_reducible (first
    | apply State.closePeriod_eventsOnly | apply State.enterCapo_eventsOnly | apply State.periodClosed_eventsOnly
    | refine .apart (State.modPts_keeps ?_ .refl) ?_ | refine .apart (State.modServo_keeps ?_ .refl) ?_
    | apply EventsOnly.ite | apply EventsOnly.foldl | apply EventsOnly.forAll | intro _ _ _) | split | dsimp only)

theorem State.fwEvent_eventsOnly {r s : State} {x1 x2 x3 x4 x5 x6 x7 x8 x9 x10 x11} (h : EventsOnly r s) : EventsOnly r (State.fwEvent s x1 x2 x3 x4 x5 x6 x7 x8 x9 x10 x11) := by
  unfold State.fwEvent
  repeat' (first | ((with_reducible apply within_of); rfl) | with_reducible assumption | with_reducible (first
    | apply State.raise_eventsOnly
    | apply EventsOnly.ite | apply EventsOnly.foldl | apply EventsOnly.forAll | intro _ _ _) | split | dsimp only)

theorem State.cyclesRefused_eventsOnly {r s : State} {x1 x2} (h : EventsOnly r s) : EventsOnly r (State.cyclesRefused s x1 x2) := by
  unfold State.cyclesRefused
  repeat' (first | ((with_reducible apply within_of); rfl) | with_reducible assumption | with_reducible (first
    | apply State.raise_eventsOnly
    | apply EventsOnly.ite | apply EventsOnly.foldl | apply EventsOnly.forAll | intro _ _ _) | split | dsimp only)

theorem State.swapImages_eventsOnly {r s : State} {x1} (h : EventsOnly r s) : EventsOnly r (State.swapImages s x1) := by
  unfold State.swapImages
  repeat' (first | ((with_reducible apply within_of); rfl) | with_reducible assumption | with_reducible (first
    | apply State.cyclesRefused_eventsOnly | apply State.enterCapo_eventsOnly | apply State.fwEvent_eventsOnly
    | refine .apart (State.bump_keeps ?_ .refl) ?_ | refine .apart (State.modFw_keeps ?_ .refl) ?_ | refine .apart (State.modPar_keeps ?_ .refl) ?_
    | apply EventsOnly.ite | apply EventsOnly.foldl | apply EventsOnly.forAll | intro _ _ _) | split | dsimp only)

/-! ### The work at an interval's boundary, in its stages (10 R258, R265) -/

/-- The interval closed: its span joined to the period's, the ledger entry saved, the balance posted. -/
def State.closeInterval (s : State) : State :=
  let s := s.closeIntervals.incomplete
  let s := (s.saveLedger false s.clk.bdryEnd).joinPeriods
  s.postBalance s.clk.ivalStart

/-- A leap that is due at the boundary taken. -/
def State.takeLeap (s : State) (b : Nat) : State :=
  match s.leapNow b with
  | some u => s.modServo (fun v => { v with utc := u, leap := none })
  | none => s

/-- Whether the leap that is due at the boundary deletes a second. -/
def State.leapDeletes (s : State) (b : Nat) : Bool := match s.leapNow b with | some u => decide (u < s.servo.utc) | none => false

/-- The periods closed that end here, what waited for them built, and the values committed that waited for the boundary. -/
def State.closeAndCommit (s : State) (b : Nat) (all deleted : Bool) (retyped : List Nat) : State :=
  (forAll points16 (fun p s => s.buildLate p s.clk.bdryEnd) (s.closePeriods b all deleted retyped)).commitRipe b

/-- The services and tariffs of the new interval, and its spans. -/
def State.openInterval (s : State) (b : Nat) (closed : Nat → Bool) : State :=
  (forAll points16 (fun p s => s.modPt p (fun x => { x with tariff := s.tariffAt p b }))
    (forAll points16 (fun p s => s.serviceAt p b) s)).beginSpans b closed

/-- Scheduled images swapped, pilots and residual settings loaded, and links without a port taken down. -/
def State.sweep (s : State) (b : Nat) : State := (forAll points16 (fun p s => (s.setPilot p).loadRcd p) (s.swapImages b)).plcSweep

/-- The queued course restores taken up, and the ledger entry completed. -/
def State.takeRestores (s : State) (b : Nat) : State :=
  let s := s.eng.restores.foldl (fun s j => s.modCourse j (fun x => { x with restoring := true })) s
  let s := s.modEng (fun e => { e with
    ivlChange := match e.change with | some c => c.1 == b | none => false
    diagQueue := e.diagQueue ++ e.restores, restores := [] })
  (s.completeEntry s.clk.bdryEnd).endTail

theorem State.boundaryWork_eq {s : State} {b : Nat} : ∃ all retyped, s.boundaryWork b =
    ((((((s.closeInterval.takeLeap b).closeAndCommit b all (s.closeInterval.leapDeletes b) retyped).openInterval b
      (fun p => all || retyped.contains p)).sweep b).takeRestores b).modClk (fun c => { c with
        ivalStart := b, bdry := none, stepped := false })) := ⟨_, _, rfl⟩

theorem State.closeInterval_eventsOnly {r s : State} (h : EventsOnly r s) : EventsOnly r s.closeInterval :=
  State.postBalance_eventsOnly (.apart (State.joinPeriods_keeps rfl .refl) (.apart (State.saveLedger_keeps rfl .refl)
    (State.incomplete_eventsOnly (.apart (State.closeIntervals_keeps rfl .refl) h))))

theorem State.takeLeap_eventsOnly {r s : State} {b : Nat} (h : EventsOnly r s) : EventsOnly r (s.takeLeap b) := by
  unfold State.takeLeap
  split
  · exact .apart (State.modServo_keeps rfl .refl) h
  · exact h

theorem State.closeAndCommit_eventsOnly {r s : State} {b : Nat} {a d : Bool} {l : List Nat} (h : EventsOnly r s) :
    EventsOnly r (s.closeAndCommit b a d l) :=
  State.commitRipe_eventsOnly (.forAll (State.closePeriods_eventsOnly h) fun _ _ k => State.buildLate_eventsOnly k)

theorem State.openInterval_eventsOnly {r s : State} {b : Nat} {c : Nat → Bool} (h : EventsOnly r s) :
    EventsOnly r (s.openInterval b c) :=
  .apart (State.beginSpans_keeps rfl .refl) (.forAll (.forAll h fun _ _ k => State.serviceAt_eventsOnly k)
    fun _ _ k => .apart (State.modPt_keeps rfl .refl) k)

theorem State.sweep_eventsOnly {r s : State} {b : Nat} (h : EventsOnly r s) : EventsOnly r (s.sweep b) :=
  State.plcSweep_eventsOnly (.forAll (State.swapImages_eventsOnly h)
    fun _ _ k => .apart (State.loadRcd_keeps rfl .refl) (.apart (State.setPilot_keeps rfl .refl) k))

theorem State.takeRestores_keeps {s : State} {b : Nat} : Keeps [.courses, .eng, .pts, .led] s (s.takeRestores b) :=
  State.endTail_keeps rfl (State.completeEntry_keeps rfl (State.modEng_keeps rfl
    (Keeps.foldl (fun _ _ => State.modCourse_keeps rfl .refl) rfl .refl)))

theorem State.boundaryWork_eventsOnly {r s : State} {b : Nat} (h : EventsOnly r s) : EventsOnly r (s.boundaryWork b) := by
  obtain ⟨all, retyped, e⟩ := State.boundaryWork_eq (s := s) (b := b)
  rw [e]
  exact .apart (State.modClk_keeps rfl .refl) (.apart (State.takeRestores_keeps.mono rfl) (State.sweep_eventsOnly
    (State.openInterval_eventsOnly (State.closeAndCommit_eventsOnly (State.takeLeap_eventsOnly (State.closeInterval_eventsOnly h))))))

theorem State.resumeCapo_eventsOnly {r s : State} {x1 x2} (h : EventsOnly r s) : EventsOnly r (State.resumeCapo s x1 x2) := by
  have opened : ∀ (g : Nat → State → State) f, (∀ i y, EventsOnly r y → EventsOnly r (g i y)) →
      EventsOnly r ((forAll points16 g (s.rebuildDue x1)).modPts f) := fun _ _ k =>
    .apart (State.modPts_keeps rfl .refl) (.forAll (.apart (State.rebuildDue_keeps rfl .refl) h) k)
  have lost : ∀ (y : State) n, EventsOnly r y → EventsOnly r (y.loseFrames n) := fun _ _ g => .apart (State.loseFrames_keeps rfl .refl) g
  unfold State.resumeCapo
  dsimp only
  split
  · exact .ite (lost _ _ (State.boundaryWork_eventsOnly (lost _ _ (opened _ _ fun _ _ k => State.endOpen_eventsOnly k))))
      (lost _ _ (opened _ _ fun _ _ k => State.endOpen_eventsOnly k))
  · exact lost _ _ (opened _ _ fun _ _ k => State.endOpen_eventsOnly k)

theorem State.rollover_eventsOnly {r s : State} {x1 x2 x3 x4 x5} (h : EventsOnly r s) : EventsOnly r (State.rollover s x1 x2 x3 x4 x5) := by
  unfold State.rollover
  repeat' (first | ((with_reducible apply within_of); rfl) | with_reducible assumption | with_reducible (first
    | apply State.raiseRaw_eventsOnly
    | apply EventsOnly.ite | apply EventsOnly.foldl | apply EventsOnly.forAll | intro _ _ _) | split | dsimp only)

theorem State.addReg_eventsOnly {r s : State} {x1 x2 x3 x4} (h : EventsOnly r s) : EventsOnly r (State.addReg s x1 x2 x3 x4) := by
  unfold State.addReg
  repeat' (first | ((with_reducible apply within_of); rfl) | with_reducible assumption | with_reducible (first
    | apply State.rollover_eventsOnly | refine .apart (State.buildEvent_keeps ?_ .refl) ?_ | refine .apart (State.modPt_keeps ?_ .refl) ?_
    | apply EventsOnly.ite | apply EventsOnly.foldl | apply EventsOnly.forAll | intro _ _ _) | split | dsimp only)

theorem State.addQuantities_eventsOnly {r s : State} {x1 x2 x3} (h : EventsOnly r s) : EventsOnly r (State.addQuantities s x1 x2 x3) := by
  unfold State.addQuantities
  repeat' (first | ((with_reducible apply within_of); rfl) | with_reducible assumption | with_reducible (first
    | apply State.addReg_eventsOnly
    | apply EventsOnly.ite | apply EventsOnly.foldl | apply EventsOnly.forAll | intro _ _ _) | split | dsimp only)

theorem State.mergeBank_eventsOnly {r s : State} {x1 x2} (h : EventsOnly r s) : EventsOnly r (State.mergeBank s x1 x2) := by
  unfold State.mergeBank
  repeat' (first | ((with_reducible apply within_of); rfl) | with_reducible assumption | with_reducible (first
    | apply State.addQuantities_eventsOnly | refine .apart (State.modPt_keeps ?_ .refl) ?_
    | apply EventsOnly.ite | apply EventsOnly.foldl | apply EventsOnly.forAll | intro _ _ _) | split | dsimp only)

theorem State.closeCut_eventsOnly {r s : State} {x1 x2 x3 x4} (h : EventsOnly r s) : EventsOnly r (State.closeCut s x1 x2 x3 x4) := by
  unfold State.closeCut
  repeat' (first | ((with_reducible apply within_of); rfl) | with_reducible assumption | with_reducible (first
    | apply State.closePeriod_eventsOnly | refine .apart (State.modPt_keeps ?_ .refl) ?_
    | apply EventsOnly.ite | apply EventsOnly.foldl | apply EventsOnly.forAll | intro _ _ _) | split | dsimp only)

theorem State.mergeSteps_eventsOnly {r s : State} {x1} (h : EventsOnly r s) : EventsOnly r (State.mergeSteps s x1) := by
  have merged : ∀ (n : Nat) (o : Option Bank), EventsOnly r (match o with | some b => s.mergeBank b n | none => s) := by
    intro n o
    cases o with
    | none => exact h
    | some _ => exact State.mergeBank_eventsOnly h
  unfold State.mergeSteps
  split
  · exact .forAll (.forAll (.forAll (.apart (State.rebuildDue_keeps rfl .refl) (merged _ _)) fun _ _ k => State.endOpen_eventsOnly k)
      fun _ _ k => State.closeCut_eventsOnly k) fun _ _ k => State.buildLate_eventsOnly k
  · have reset : ∀ f : Nat → State → Session → Session, EventsOnly r (forAll points16 (fun p s => s.modSes p (f p s)) s) := fun _ =>
      .forAll h fun _ _ k => .apart (State.modSes_keeps rfl .refl) k
    exact .ite (.apart (State.modPts_keeps rfl .refl) (reset _)) (reset _)

end Sys2Proof.Machine
end

section
/-!
The supply warning, and the Capo's reset and restart (10 R266, R272; 22 R509, R510, R513).
-/

namespace Sys2Proof.Machine

/-! ### The warning -/

theorem State.warnNow_pfw {s : State} (pfw : s.pwr.pfw = true) (counts : (s.pn ND_HOLDUP_SOURCES).testBit 0 = true) : s.warnNow &&& 1 = 1 := by
  have bit : s.warnNow.testBit 0 = true := by
    unfold State.warnNow
    rw [Nat.testBit_and, counts, pfw]
    cases s.pwr.vswLow <;> rfl
  rw [show (1 : Nat) = 2 ^ 0 from rfl, Nat.and_two_pow, bit]
  rfl

theorem State.warnNow_vsw {s : State} (low : s.pwr.vswLow = true) (counts : (s.pn ND_HOLDUP_SOURCES).testBit 1 = true) :
    s.warnNow &&& 2 = 2 := by
  have bit : s.warnNow.testBit 1 = true := by
    unfold State.warnNow
    rw [Nat.testBit_and, counts, low]
    cases s.pwr.pfw <;> rfl
  rw [show (2 : Nat) = 2 ^ 1 from rfl, Nat.and_two_pow, bit]
  rfl

/-- The display off: no rail on and no run under way. -/
structure DispOffAfter (s x : State) : Prop where
  rails : x.disp.rails = 0
  run : x.disp.run = none
  keeps : Keeps [.disp] s x

theorem State.dispWarning_off {s : State} : DispOffAfter s s.dispWarning := by
  have keeps : Keeps [.disp] s s.dispWarning := State.dispWarning_keeps rfl .refl
  unfold State.dispWarning at keeps ⊢
  split
  · next e =>
    rw [e] at keeps
    exact ⟨rfl, rfl, keeps⟩
  · next e =>
    rw [e] at keeps
    dsimp only at keeps
    split at keeps
    · next dark =>
      rw [if_pos dark]
      exact ⟨dark, e, .refl⟩
    · next lit =>
      rw [if_neg lit]
      exact ⟨rfl, rfl, keeps⟩

/-- A warning begun: its time and its commit are noted, and the display is off. -/
structure WarningBegun (s x : State) (src : Nat) : Prop where
  led : x.led = { s.led with warnFrom := some s.clk.up, warnSrc := src, commitDue := true, warnFrame := s.frm - 1, tailing := false }
  pwr : x.pwr = { s.pwr with banked := 0 }
  rails : x.disp.rails = 0
  run : x.disp.run = none
  keeps : Keeps [.clk, .host, .led, .disp, .fw, .pwr] s x

/-- A new warning noted in the ledger, before the handover under way and the display are given up. -/
def State.noteWarning (s : State) (src : Nat) : State :=
  (s.modLed (fun d => { d with
    warnFrom := some s.clk.up, warnSrc := src, commitDue := true, warnFrame := s.frm - 1, tailing := false })).modPwr
      (fun x => { x with banked := 0 })

theorem State.beginWarning_new {s : State} {src : Nat} (no : s.led.warnFrom = none) : s.beginWarning src =
    (if (s.noteWarning src).fw.bootDue.isSome then (s.noteWarning src).notTaken else s.noteWarning src).dispWarning := by
  unfold State.beginWarning
  rw [no]
  rfl

theorem State.beginWarning_begins {s : State} {src : Nat} (no : s.led.warnFrom = none) : WarningBegun s (s.beginWarning src) src := by
  rw [State.beginWarning_new no]
  have given : Keeps [.clk, .host, .fw] (s.noteWarning src)
      (if (s.noteWarning src).fw.bootDue.isSome then (s.noteWarning src).notTaken else s.noteWarning src) :=
    .ite (State.notTaken_keeps rfl .refl) .refl
  have off := State.dispWarning_off (s := if (s.noteWarning src).fw.bootDue.isSome then (s.noteWarning src).notTaken else s.noteWarning src)
  have noted : Keeps [.clk, .host, .led, .disp, .fw, .pwr] s (s.noteWarning src) := State.modPwr_keeps rfl (State.modLed_keeps rfl .refl)
  exact ⟨(off.keeps.led rfl).trans (given.led rfl), (off.keeps.pwr rfl).trans (given.pwr rfl), off.rails, off.run,
    off.keeps.then rfl (given.then rfl noted)⟩

theorem State.warnIfMetering_new {s : State} {src : Nat} (run : 5 ≤ s.pwr.stage) (no : s.led.warnFrom = none) (n : s.warnNow &&& src = src)
    (some' : src ≠ 0) : s.warnIfMetering src = s.beginWarning src := by
  have now : s.warnIfMetering src = s.beginWarning (s.warnNow &&& src) := if_pos ⟨run, n.symm ▸ some', .inl no⟩
  rw [now, n]

theorem State.warnIfMetering_joins {s : State} {src : Nat} (run : 5 ≤ s.pwr.stage) (warns : s.led.warnFrom.isSome = true)
    (n : s.warnNow &&& src = src) (some' : src ≠ 0) (other : s.led.warnSrc &&& src = 0) :
    s.warnIfMetering src = s.modLed (fun d => { d with warnSrc := d.warnSrc ||| src }) := by
  have now : s.warnIfMetering src = s.beginWarning (s.warnNow &&& src) := if_pos ⟨run, n.symm ▸ some', .inr other⟩
  rw [now, n]
  exact if_pos warns

theorem execPfwWarning_lasted {s : State} {u since : Nat} (l : since + s.pn ND_PFW_FILTER * 1000 ≤ u) : execPfwWarning u since s = .next
    (((s.at u).modPwr (fun x => { x with pfw := true })).warnIfMetering 1) := if_pos l

/-- The supply's voltage as the monitor has it, with the die powered. -/
def State.noteVsw (s : State) (vsw : Nat) : State := s.modSw (fun d => if d.powered then { d with vsw := vsw } else d)

theorem execVswMonitorTrip_low {s : State} {u vsw : Nat} (l : vsw * 100 < s.pn ND_VSW_WARN * 102) : execVswMonitorTrip u vsw s = .next
    ((((s.at u).noteVsw vsw).modPwr (fun x => { x with vswLow := true })).warnIfMetering 2) := if_pos l

theorem execWarningEnd_good {s : State} {u since vsw t0 : Nat} (w : s.led.warnFrom = some t0)
    (l : since + s.pn ND_HOLDUP_RESUME * 1000000 ≤ u)
    (good : (s.pn ND_HOLDUP_SOURCES).testBit 1 = false ∨ s.pn ND_VSW_WARN + 100 < vsw) : execWarningEnd u since vsw s = .next
    (((((s.at u).modPwr (fun x => { x with pfw := false, vswLow := false })).noteVsw vsw).warningEvent 1
      (min ((u - t0) / 1000) (2 ^ 32 - 1)) s.frm).modLed (fun d => { d with warnFrom := none })) := by
  have low : ((s.pn ND_HOLDUP_SOURCES).testBit 1 && decide (vsw ≤ s.pn ND_VSW_WARN + 100)) = false := by
    rcases good with no | up
    · rw [no, Bool.false_and]
    · rw [decide_eq_false (Nat.not_le.mpr up), Bool.and_false]
  have from' : (s.at u).led.warnFrom = some t0 := w
  unfold execWarningEnd
  dsimp only
  rw [from']
  exact if_pos ⟨l, low⟩

theorem State.warningEvent_raised {s : State} {e d f : Nat} (snd : Sound s) :
    Raised (s.warningEvent e d f) 19 [byteOf (s.led.warnSrc - 1), byteOf e] :=
  State.raise_raised snd.host.queues (by decide) (by simp) (by simp)

/-! ### The Capo -/

theorem State.capoDown_swap {s : State} {source code : Nat} : (s.capoDown source code).fw.swapAt = none := by
  have none' : ∀ f : Firmware, (if f.swapAt.isSome = true then { f with swapAt := none, stage := keptStaging f.stage } else f).swapAt = none := by
    intro f
    split
    · rfl
    · next no => exact Option.not_isSome_iff_eq_none.mp no
  exact none' _

/-- Work that leaves the power state, and of the host space all but events and streams. -/
structure Aside (r x : State) : Prop where
  events : EventsOnly r x
  pwr : x.pwr = r.pwr

theorem Aside.refl {r : State} : Aside r r := ⟨.refl, rfl⟩

theorem Aside.trans {r x y : State} (h : Aside r x) (g : Aside x y) : Aside r y := ⟨h.events.trans g.events, g.pwr.trans h.pwr⟩

theorem Aside.of_keeps {T : List Part} {r x : State} (h : EventsOnly r x) (k : Keeps T r x) (n : T.contains .pwr = false) : Aside r x :=
  ⟨h, k.pwr n⟩

/-- What a restarted Capo does with the entry and bank that it finds: it merges them in a warning, resumes else, or begins anew. -/
def State.takeBack (s : State) (f : Found) (first : Nat) : State :=
  match f.entry with
  | some e =>
    if s.led.warnFrom.isSome ∧ f.merged = true then
      let last := f.last.getD e.frame
      let s := (s.mergeSteps f).restoredEvent f
      let s := s.beginPoints (last + 1)
      let s := s.loseFrames (first - 1 - last)
      (s.saveLedger false (first - 1)).capoEvent s.pwr.capoCause s.pwr.capoCode (first - 1 - last) s.pwr.capoFrame
    else
      let s := s.resumeCapo e first
      (s.saveLedger false (first - 1)).capoEvent s.pwr.capoCause s.pwr.capoCode (first - 1 - e.frame) s.pwr.capoFrame
  | none =>
    let s := ((s.mergeSteps f).restoredEvent f).beginPoints first
    if s.pwr.capoCause = 2 then s else s.capoEvent s.pwr.capoCause s.pwr.capoCode 0 s.pwr.capoFrame

theorem State.saveLedger_aside {s : State} {w : Bool} {n a b c d : Nat} : Aside s ((s.saveLedger w n).capoEvent a b c d) :=
  .of_keeps (State.capoEvent_eventsOnly (.apart (State.saveLedger_keeps rfl .refl) .refl))
    (State.capoEvent_keeps (T := [.host, .pts, .led]) rfl (State.saveLedger_keeps rfl .refl)) rfl

theorem State.loseFrames_aside {s : State} {n : Nat} : Aside s (s.loseFrames n) :=
  .of_keeps (.apart (State.loseFrames_keeps rfl .refl) .refl) (State.loseFrames_keeps (T := [.pts]) rfl .refl) rfl

theorem State.beginPoints_aside {s : State} {f : Found} {n : Nat} : Aside s (((s.mergeSteps f).restoredEvent f).beginPoints n) :=
  .of_keeps (.apart (State.beginPoints_keeps rfl .refl) (State.restoredEvent_eventsOnly (State.mergeSteps_eventsOnly .refl)))
    (State.beginPoints_keeps (T := [.host, .slices, .pts, .recs, .led, .sw]) rfl (State.restoredEvent_keeps rfl (State.mergeSteps_keeps rfl .refl))) rfl

theorem State.resumeCapo_aside {s : State} {e : LedgerEntry} {n : Nat} : Aside s (s.resumeCapo e n) :=
  .of_keeps (State.resumeCapo_eventsOnly .refl) (State.resumeCapo_keeps (T := [.clk, .servo, .par, .host, .slices, .courses, .eng, .pts, .recs,
    .led, .sw, .saf, .log, .plc, .ring, .sar, .fw]) rfl .refl) rfl

theorem State.takeBack_aside {s : State} {f : Found} {n : Nat} : Aside s (s.takeBack f n) := by
  unfold State.takeBack
  split
  · split
    · exact State.beginPoints_aside.trans (State.loseFrames_aside.trans State.saveLedger_aside)
    · exact State.resumeCapo_aside.trans State.saveLedger_aside
  · refine (State.beginPoints_aside (f := f) (n := n)).trans ?_
    dsimp only
    split
    · exact .refl
    · exact .of_keeps (State.capoEvent_eventsOnly .refl) (State.capoEvent_keeps (T := [.host]) rfl .refl) rfl

theorem State.restartParts_aside {s : State} {key seed : BitVec 32} : Aside s (s.restartParts key seed).startSeals :=
  .of_keeps (State.startSeals_eventsOnly (State.restartParts_eventsOnly .refl))
    (State.startSeals_keeps (T := [.host, .test, .slices, .eng, .pts, .recs, .led, .sw, .saf, .log, .keys, .sar]) rfl
      (State.restartParts_keeps rfl .refl)) rfl

/-- The MRAM read, with the words that it could not correct reported. -/
def State.readWords (s : State) (words : List Nat) : State := words.foldl (fun s w => s.mramError 7 (0xF80000 + w)) s.repairWords

/-- The registers restored from the entry and the high water found, before the Capo runs. -/
def State.readBack (s : State) (badE badB badL : List Nat) : State :=
  s.restore (s.findHoldup badE badB).entry (newestLine s.led.lines badL)

/-- The Capo runs. -/
def State.capoRuns (s : State) : State := (s.modPwr (fun x => { x with capoOn := true })).modHost (fun x => { x with capo := true })

theorem State.restartCapo_eq {s : State} {badE badB badL words : List Nat} {key seed : BitVec 32} :
    s.restartCapo badE badB badL words key seed =
      (((((s.readWords words).readBack badE badB badL).capoRuns.takeBack ((s.readWords words).findHoldup badE badB)
        (s.readWords words).firstFrame).restartParts key seed).startSeals).modPwr
          (fun x => { x with capoReset := false, capoCause := 0, capoCode := 0 }) := by
  unfold State.restartCapo State.takeBack State.readBack State.readWords State.capoRuns
  rfl

theorem State.readBack_pwr {s : State} {badE badB badL words : List Nat} : ∃ c,
    ((s.readWords words).readBack badE badB badL).pwr = { s.pwr with corrected := c } := by
  have told : (s.readWords words).pwr = s.repairWords.pwr :=
    (Keeps.foldl (T := [.host]) (fun _ _ => State.mramError_keeps rfl .refl) rfl .refl).pwr rfl
  exact ⟨_, ((State.restore_keeps (T := [.clk, .pts, .recs]) rfl .refl).pwr rfl).trans told⟩

end Sys2Proof.Machine

open Sys2Proof Sys2Proof.Machine

/-- Settles O33: the warning by what its beginning notes, the restart by what its work leaves of the power state. -/
theorem supplyWarningAndCapoEventsComplete : Obligations.SupplyWarningAndCapoEventsComplete := by
  intro s u snd
  refine ⟨fun since run no counts l => ?pfw, fun since run warns src counts l => ?joins, fun vsw run no counts l => ?vsw,
    fun since vsw t0 w l good => ?ends, fun code on => ⟨?diverges, ?throws⟩, fun badE badB badL words key seed on held => ?restarts⟩
  case pfw =>
    have e := execPfwWarning_lasted l
    obtain ⟨y, ey⟩ : ∃ y, y = (s.at u).modPwr (fun x => { x with pfw := true }) := ⟨_, rfl⟩
    have sources : y.pn ND_HOLDUP_SOURCES = s.pn ND_HOLDUP_SOURCES := ey ▸ State.pn_congr rfl
    rw [← ey, State.warnIfMetering_new (ey ▸ run) (ey ▸ no) (State.warnNow_pfw (ey ▸ rfl) (sources ▸ counts)) (by decide)] at e
    have b := State.beginWarning_begins (s := y) (src := 1) (ey ▸ no)
    have before : Keeps [.clk, .host, .led, .disp, .fw, .pwr] s y := ey ▸ State.modPwr_keeps rfl (State.at_keeps rfl .refl)
    refine ⟨_, e, (congrArg Power.pfw b.pwr).trans (ey ▸ rfl), b.led.trans (ey ▸ rfl), b.rails, b.run, b.keeps.then rfl before⟩
  case joins =>
    have e := execPfwWarning_lasted l
    obtain ⟨y, ey⟩ : ∃ y, y = (s.at u).modPwr (fun x => { x with pfw := true }) := ⟨_, rfl⟩
    have sources : y.pn ND_HOLDUP_SOURCES = s.pn ND_HOLDUP_SOURCES := ey ▸ State.pn_congr rfl
    have led : y.led = s.led := ey ▸ rfl
    rw [← ey, State.warnIfMetering_joins (ey ▸ run) (led ▸ warns) (State.warnNow_pfw (ey ▸ rfl) (sources ▸ counts)) (by decide)
      (by rw [led, src]; rfl)] at e
    have before : Keeps [.clk, .led, .pwr] s y := ey ▸ State.modPwr_keeps rfl (State.at_keeps rfl .refl)
    have now : (y.modLed (fun d => { d with warnSrc := d.warnSrc ||| 1 })).led = { s.led with warnSrc := 3 } := by
      show { y.led with warnSrc := y.led.warnSrc ||| 1 } = _
      rw [led, src]
      rfl
    exact ⟨_, e, ey ▸ rfl, now, State.modLed_keeps rfl before⟩
  case vsw =>
    have e := execVswMonitorTrip_low (u := u) l
    obtain ⟨y, ey⟩ : ∃ y, y = ((s.at u).noteVsw vsw).modPwr (fun x => { x with vswLow := true }) := ⟨_, rfl⟩
    have sources : y.pn ND_HOLDUP_SOURCES = s.pn ND_HOLDUP_SOURCES := ey ▸ State.pn_congr rfl
    rw [← ey, State.warnIfMetering_new (ey ▸ run) (ey ▸ no) (State.warnNow_vsw (ey ▸ rfl) (sources ▸ counts)) (by decide)] at e
    have b := State.beginWarning_begins (s := y) (src := 2) (ey ▸ no)
    have before : Keeps [.clk, .host, .led, .sw, .disp, .fw, .pwr] s y := ey ▸ State.modPwr_keeps rfl (State.modSw_keeps rfl (State.at_keeps rfl .refl))
    have die : y.sw = if s.sw.powered then { s.sw with vsw := vsw } else s.sw := ey ▸ rfl
    exact ⟨_, e, (congrArg Power.vswLow b.pwr).trans (ey ▸ rfl), b.led.trans (ey ▸ rfl), b.rails, b.run,
      fun p => (b.keeps.sw rfl).trans (die.trans (if_pos p)), b.keeps.then rfl before⟩
  case ends =>
    have e := execWarningEnd_good w l good
    obtain ⟨y, ey⟩ : ∃ y, y = ((s.at u).modPwr (fun x => { x with pfw := false, vswLow := false })).noteVsw vsw := ⟨_, rfl⟩
    have ysound : Sound y := ey ▸ State.modSw_sound (State.modPwr_sound (State.at_sound snd)) fun n => by split <;> exact n
    have before : Keeps [.clk, .host, .led, .sw, .pwr] s y := ey ▸ State.modSw_keeps rfl (State.modPwr_keeps rfl (State.at_keeps rfl .refl))
    rw [← ey] at e
    have event : Keeps [.host] y (y.warningEvent 1 (min ((u - t0) / 1000) (2 ^ 32 - 1)) s.frm) := State.warningEvent_keeps rfl .refl
    refine ⟨_, e, (event.pwr rfl).trans (ey ▸ rfl), ?_, ?_, State.modLed_keeps rfl (event.then rfl before)⟩
    · exact congrArg (fun d : Ledger => { d with warnFrom := none }) ((event.led rfl).trans (show y.led = s.led from ey ▸ rfl))
    · have r := State.warningEvent_raised (s := y) (e := 1) (d := min ((u - t0) / 1000) (2 ^ 32 - 1)) (f := s.frm) ysound
      rw [show y.led = s.led from ey ▸ rfl] at r
      have one : byteOf 1 = 1 := rfl
      rw [one] at r
      exact .congr ((State.modLed_keeps rfl (Keeps.refl (T := [.led]))).host rfl) r
  case diverges =>
    exact ⟨_, if_pos on, rfl, rfl, State.capoDown_swap, State.capoDown_keeps rfl (State.at_keeps rfl .refl)⟩
  case throws =>
    exact ⟨_, if_pos on, rfl, rfl, State.capoDown_swap, State.capoDown_keeps rfl (State.at_keeps rfl .refl)⟩
  case restarts =>
    have e : execCapoRestart u badE badB badL words key seed s = .next ((s.at u).restartCapo badE badB badL words key seed).runHeld :=
      if_pos ⟨on, held⟩
    have eq := State.restartCapo_eq (s := s.at u) (badE := badE) (badB := badB) (badL := badL) (words := words) (key := key) (seed := seed)
    obtain ⟨c, read⟩ := State.readBack_pwr (s := s.at u) (badE := badE) (badB := badB) (badL := badL) (words := words)
    obtain ⟨y, ey⟩ : ∃ y, y = (((s.at u).readWords words).readBack badE badB badL).capoRuns := ⟨_, rfl⟩
    rw [← ey] at eq
    have aside : ∀ f n, Aside y ((y.takeBack f n).restartParts key seed).startSeals := fun _ _ =>
      State.takeBack_aside.trans State.restartParts_aside
    have power : y.pwr = { s.pwr with capoOn := true, corrected := c } := by
      rw [ey]
      exact congrArg (fun p : Power => { p with capoOn := true }) read
    have disp : ((s.at u).restartCapo badE badB badL words key seed).disp = s.disp :=
      (State.restartCapo_keeps (T := [.clk, .servo, .par, .host, .test, .slices, .courses, .eng, .pts, .recs, .led, .sw, .saf, .log,
        .keys, .plc, .ring, .sar, .fw, .pwr]) rfl .refl).disp rfl
    have final : ((s.at u).restartCapo badE badB badL words key seed).pwr = { s.pwr with
        capoOn := true, corrected := c, capoReset := false, capoCause := 0, capoCode := 0 } := by
      rw [eq]
      exact congrArg (fun p : Power => { p with capoReset := false, capoCause := 0, capoCode := 0 }) ((aside _ _).pwr.trans power)
    refine ⟨_, e, final ▸ rfl, ?_, disp⟩
    rw [eq]
    exact (congrArg HostPort.capo (aside _ _).events.space).trans (ey ▸ rfl)
end

section
/-!
Power, clock and reset of the core die (22 R504–R515).
-/

namespace Sys2Proof.Machine

theorem putBit_testBit {n i : Nat} : (putBit n i true).testBit i = true := by
  unfold putBit
  split
  · assumption
  · next no => rw [if_pos rfl, Nat.add_comm, Nat.testBit_two_pow_add_eq, Bool.eq_false_iff.mpr no, Bool.not_false]

/-- A core die that ran, put in reset: what the reset loses and what it keeps (Table 22.4). -/
theorem State.resetCore_inReset {s : State} {cause bit : Nat} (on : s.pwr.coreOn = true) : InReset s (s.resetCore cause bit) cause bit := by
  have dark : Keeps [.disp, .slices, .pts, .sw, .sar] s s.dispReset.endTests := State.endTests_keeps rfl (State.dispReset_keeps rfl .refl)
  have now : s.resetCore cause bit = (s.coreReset cause).holdReset bit := congrArg (State.holdReset · bit) (if_pos on)
  rw [now]
  unfold State.coreReset
  generalize s.dispReset.endTests = y at dark ⊢
  exact {
    off := rfl
    stage := rfl
    capo := rfl
    cause := rfl
    held := putBit_testBit
    link := rfl
    host := congrArg (fun h : HostPort => { HostPort.reset with service := h.service }) (dark.host rfl)
    engine := rfl
    slices := rfl
    courses := rfl
    servo := rfl
    plc := rfl
    ring := rfl
    sar := rfl
    journal := (congrArg RecordStore.journal (dark.recs rfl) :)
    log := (congrArg LegalLog.held (dark.log rfl) :)
    entries := (congrArg Ledger.slots (dark.led rfl) :)
    banks := (congrArg Ledger.banks (dark.led rfl) :)
    lines := (congrArg Ledger.lines (dark.led rfl) :)
    stored := (congrArg ParamStore.stored (dark.par rfl) :) }

/-- A reset is told of the state before work that leaves what outlives it. -/
theorem InReset.before {s x t : State} {cause bit : Nat} (h : InReset x t cause bit) (k : Keeps [.clk, .sw, .pwr] s x) : InReset s t cause bit :=
  { h with
    host := h.host.trans (congrArg (fun p : HostPort => { HostPort.reset with service := p.service }) (k.host rfl))
    journal := h.journal.trans (congrArg RecordStore.journal (k.recs rfl))
    log := h.log.trans (congrArg LegalLog.held (k.log rfl))
    entries := h.entries.trans (congrArg Ledger.slots (k.led rfl))
    banks := h.banks.trans (congrArg Ledger.banks (k.led rfl))
    lines := h.lines.trans (congrArg Ledger.lines (k.led rfl))
    stored := h.stored.trans (congrArg ParamStore.stored (k.par rfl)) }

theorem State.resetCore_from {s : State} {u cause bit : Nat} (on : s.pwr.coreOn = true) :
    InReset s ((s.at u).resetCore cause bit) cause bit :=
  (State.resetCore_inReset (s := s.at u) on).before (State.at_keeps rfl .refl)

theorem State.resetCore_resetn {s : State} {cause bit : Nat} (on : s.pwr.coreOn = true) :
    (s.resetCore cause bit).pwr.resetn = s.pwr.resetn ∧ (s.resetCore cause bit).pwr.fsrst = s.pwr.fsrst := by
  have dark : s.dispReset.endTests.pwr = s.pwr :=
    (State.endTests_keeps (T := [.disp, .slices, .pts, .sw, .sar]) rfl (State.dispReset_keeps rfl .refl)).pwr rfl
  have now : s.resetCore cause bit = (s.coreReset cause).holdReset bit := congrArg (State.holdReset · bit) (if_pos on)
  rw [now]
  unfold State.coreReset
  generalize s.dispReset.endTests = y at dark ⊢
  exact ⟨(congrArg Power.resetn dark :), (congrArg Power.fsrst dark :)⟩

theorem State.resetCore_shutdown {s : State} {bit : Nat} (on : s.pwr.coreOn = true) : (s.resetCore 4 bit).pwr.shutdown = true := by
  have now : s.resetCore 4 bit = (s.coreReset 4).holdReset bit := congrArg (State.holdReset · bit) (if_pos on)
  rw [now]
  unfold State.coreReset
  generalize s.dispReset.endTests = y
  exact Bool.or_true _

/-- The last hold of the core die released. -/
theorem State.releaseCore_last {s : State} {bit : Nat} (off : s.pwr.coreOn = false) (last : putBit s.pwr.coreHeld bit false = 0) :
    s.releaseCore bit = ((s.modPwr (fun x => { x with coreHeld := 0 })).modPwr (fun x => { x with coreOn := true, stage := 1 })).modClk
      (fun c => { c with lastTick := s.clk.up }) := by
  have now : s.releaseCore bit = ((s.modPwr (fun x => { x with coreHeld := putBit x.coreHeld bit false })).modPwr (fun x => { x with
      coreOn := true, stage := 1 })).modClk (fun c => { c with lastTick := s.clk.up }) := if_pos ⟨last, off⟩
  have held : s.modPwr (fun x => { x with coreHeld := putBit x.coreHeld bit false }) = s.modPwr (fun x => { x with coreHeld := 0 }) := by
    show { s with pwr := { s.pwr with coreHeld := putBit s.pwr.coreHeld bit false } } = _
    rw [last]
    rfl
  rw [now, held]

/-- RESETn asserted for the time that it takes: the die's link to the switches ends as its strap says, before the reset. -/
def State.noteResetn (s : State) (fsrst : Bool) : State :=
  let s := s.modPwr (fun x => { x with fsrst := fsrst, resetn := true })
  if s.sw.powered && !fsrst then s.applyFailsafe 4 else s

theorem execResetnAssert_long {s : State} {u width : Nat} {f : Bool} (l : 10000 ≤ width) :
    execResetnAssert u width f s = .next (((s.at u).noteResetn f).resetCore 2 1) := by
  have long : ¬ (1000 ≤ width ∧ width < 10000) := fun c => absurd l (Nat.not_le.mpr c.2)
  unfold execResetnAssert
  dsimp only
  rw [if_neg long]
  exact if_pos (.inl l)

theorem State.noteResetn_keeps {s : State} {f : Bool} : Keeps [.sw, .pwr] s (s.noteResetn f) :=
  .ite (State.applyFailsafe_keeps rfl (State.modPwr_keeps rfl .refl)) (State.modPwr_keeps rfl .refl)

theorem State.noteResetn_pwr {s : State} : (s.noteResetn true).pwr = { s.pwr with fsrst := true, resetn := true } := by
  have no : (s.noteResetn true) = s.modPwr (fun x => { x with fsrst := true, resetn := true }) := if_neg (by simp)
  rw [no]
  rfl

theorem execBrownOutReset_due {s : State} {u d : Nat} (e : s.pwr.tb = some d) (le : d + 600000 ≤ u) :
    execBrownOutReset u s = .next ((s.at u).resetCore 1 0) := by
  have h : (s.at u).pwr.tb = some d := e
  unfold execBrownOutReset
  dsimp only
  rw [h]
  exact if_pos le

/-- The commit under way cut off by a brown-out. -/
def State.cutCommit (s : State) : State := s.modLed (fun d => { d with cut := d.commitDue, commitDue := false })

/-- The blocks of the last frames added before the power goes (R515). -/
def State.addLast (s : State) : State :=
  if s.pwr.capoOn ∧ 5 ≤ s.pwr.stage then
    let s := s.flushLast
    let s := s.modEng (fun e => { e with
      buf := (match e.work with | some b => put e.buf (b.frame % 2) (some b) | none => e.buf), work := none })
    s.drain 4
  else s

theorem execBrownOut_low {s : State} {u vcore vio : Nat} (on : s.pwr.coreOn = true) (low : vcore < 865 ∨ vio < 3050) (no : s.pwr.tb = none) :
    execBrownOut u vcore vio s = .next ((s.at u).cutCommit.addLast.modPwr (fun x => { x with tb := some u })) := if_pos ⟨on, no, low⟩

theorem State.addLast_keeps {s : State} : Keeps [.clk, .servo, .par, .host, .slices, .courses, .eng, .pts, .recs, .led, .sw, .saf, .log, .plc,
    .ring, .sar, .fw, .pwr] s s.addLast :=
  .ite (State.drain_keeps rfl (State.modEng_keeps rfl (State.flushLast_keeps rfl .refl))) .refl

end Sys2Proof.Machine

open Sys2Proof Sys2Proof.Machine

/-- Settles O31: each cause resets a running die by one law, and the last hold's release lets it run. -/
theorem powerAndResetEventsComplete : Obligations.PowerAndResetEventsComplete := by
  intro s u snd
  have atKeeps : Keeps [.clk, .pwr] s (s.at u) := State.at_keeps rfl .refl
  refine ⟨fun vcore vio vana a b c off held => ?good, fun on => ⟨fun rail mV l low => ?rail, ?clock, fun temp hot => ?thermal,
    fun width long => ?resetn, fun d e le => ?brownReset, fun vcore vio low no => ⟨?brown, fun stopped => ?stopped⟩⟩,
    fun off rn held => ?released, fun temp cool off held => ?cooled⟩
  case good =>
    have e : execPowerGood u vcore vio vana true s = .next ((s.at u).releaseCore 0) := if_pos ⟨a, b, c, rfl⟩
    rw [State.releaseCore_last (s := s.at u) off (show putBit s.pwr.coreHeld 0 false = 0 by rw [held]; rfl)] at e
    exact ⟨_, e, rfl, rfl, rfl, rfl, State.modClk_keeps rfl (State.modPwr_keeps rfl (State.modPwr_keeps rfl atKeeps))⟩
  case rail => exact ⟨_, if_pos ⟨l, low⟩, State.resetCore_from on⟩
  case clock => exact ⟨_, rfl, State.resetCore_from on⟩
  case thermal => exact ⟨_, if_pos hot, State.resetCore_from on, State.resetCore_shutdown on⟩
  case resetn =>
    have noted : ((s.at u).noteResetn true).pwr = { s.pwr with fsrst := true, resetn := true } := State.noteResetn_pwr
    have runs : ((s.at u).noteResetn true).pwr.coreOn = true := (congrArg Power.coreOn noted).trans on
    obtain ⟨rn, fs⟩ := State.resetCore_resetn (cause := 2) (bit := 1) runs
    exact ⟨_, execResetnAssert_long long,
      (State.resetCore_inReset runs).before (State.noteResetn_keeps.then rfl (State.at_keeps rfl .refl)),
      rn.trans (congrArg Power.resetn noted), fs.trans (congrArg Power.fsrst noted)⟩
  case brownReset => exact ⟨_, execBrownOutReset_due e le, State.resetCore_from on⟩
  case brown =>
    have last := State.addLast_keeps (s := (s.at u).cutCommit)
    exact ⟨_, execBrownOut_low on low no, rfl, last.test rfl, last.keys rfl, last.disp rfl⟩
  case stopped =>
    have e := execBrownOut_low (u := u) on low no
    have none' : (s.at u).cutCommit.addLast = (s.at u).cutCommit := if_neg fun c => absurd (stopped.symm.trans c.1) (by decide)
    rw [none'] at e
    exact ⟨_, e, rfl, rfl, State.modPwr_keeps rfl (State.modLed_keeps rfl (State.at_keeps rfl .refl))⟩
  case released =>
    have e : execResetnRelease u s = .next (((s.at u).modPwr (fun x => { x with resetn := false })).releaseCore 1) := if_pos rn
    rw [State.releaseCore_last (s := (s.at u).modPwr (fun x => { x with resetn := false })) off
      (show putBit s.pwr.coreHeld 1 false = 0 by rw [held]; rfl)] at e
    exact ⟨_, e, rfl, rfl, State.modClk_keeps rfl (State.modPwr_keeps rfl (State.modPwr_keeps rfl (State.modPwr_keeps rfl atKeeps)))⟩
  case cooled =>
    have e : execThermalShutdownEnd u temp s = .next ((s.at u).releaseCore 2) :=
      if_pos ⟨cool, show s.pwr.coreHeld.testBit 2 = true by rw [held]; rfl⟩
    rw [State.releaseCore_last (s := s.at u) off (show putBit s.pwr.coreHeld 2 false = 0 by rw [held]; rfl)] at e
    exact ⟨_, e, rfl, rfl, State.modClk_keeps rfl (State.modPwr_keeps rfl (State.modPwr_keeps rfl atKeeps))⟩
end

section
/-!
The milestones of a start: the Capo's image, the parameter store, the root, metering, and READY (21 R494; 22 R507, R508).
-/

namespace Sys2Proof.Machine

/-! ### What only moves the free-value counter and raises events -/

theorem State.repairWords_calm {s : State} : Calm s s.repairWords := State.modPwr_calm.trans State.bump_calm

theorem State.readSlot_calm {s : State} {a b c : Nat} {ok : Bool} : Calm s (s.readSlot a b c ok) := by
  unfold State.readSlot
  split
  · exact State.repairWords_calm
  · exact State.readMram_calm

theorem State.readSlot_fw {s : State} {a b c : Nat} {ok : Bool} : (s.readSlot a b c ok).fw = s.fw :=
  (State.readSlot_keeps rfl (Keeps.refl (T := [.clk, .host, .pwr]))).fw rfl

/-- A read of a slot corrects words, and leaves the rest of the power state. -/
theorem State.readSlot_pwr {s : State} {a b c : Nat} {ok : Bool} : ∃ n, (s.readSlot a b c ok).pwr = { s.pwr with corrected := n } := by
  have bad : ∀ x : State, (x.badWord a b c).pwr = x.pwr := fun x =>
    (State.badWord_keeps rfl (Keeps.refl (T := [.clk, .host]))).pwr rfl
  unfold State.readSlot
  split
  · exact ⟨_, rfl⟩
  · unfold State.readMram
    dsimp only
    split
    · exact ⟨_, bad s.repairWords⟩
    · exact ⟨_, rfl⟩

theorem State.timeEvent_calm {s : State} {ev port sender a : Nat} {old new : ServoState} {o : Int} {gm : Nat} :
    Calm s (s.timeEvent ev old new port sender a o gm) := ⟨rfl, rfl⟩

theorem State.queueFault_calm {s : State} {a b c : Nat} : Calm s (s.queueFault a b c) := ⟨rfl, rfl⟩

theorem State.enterHoldover_calm {s : State} : Calm s s.enterHoldover :=
  (State.modServo_calm.trans State.bump_calm).trans (State.timeEvent_calm.trans State.queueFault_calm)

theorem State.loseSource_calm {s : State} {k : Nat} : Calm s (s.loseSource k) := by
  unfold State.loseSource
  split
  · exact .refl
  · split
    · exact State.enterHoldover_calm
    · exact State.enterHoldover_calm
    · exact .ite State.enterHoldover_calm .refl
    · exact .refl

theorem State.neighbourEvent_calm {s : State} {a b c d e f : Nat} : Calm s (s.neighbourEvent a b c d e f) := State.raiseMid_calm

theorem State.plcSweep_calm {s : State} : Calm s s.plcSweep := by
  have port : ∀ (x : State) q f, Calm x (x.modPlcPort q f) := fun _ _ _ => ⟨rfl, rfl⟩
  have gone : ∀ (x : State) (l : List Neighbour) (f : State → Neighbour → State), (∀ y n, Calm y (f y n)) → Calm x (l.foldl f x) :=
    fun _ _ _ g => .foldl .refl g
  refine .forAll (.forAll .refl fun _ _ => State.linkIdle_calm) fun q y => .ite .refl ?_
  refine ((port y q _).trans State.modServo_calm).trans (gone _ _ _ fun z n => .ite ?_ ?_)
  · exact State.neighbourEvent_calm.trans (State.queueFault_calm.trans State.loseSource_calm)
  · exact State.neighbourEvent_calm.trans State.queueFault_calm

theorem State.notTaken_calm {s : State} : Calm s s.notTaken := by
  unfold State.notTaken
  split
  · exact (State.bump_calm.trans State.modFw_calm).trans State.raise_calm
  · exact State.modFw_calm

theorem State.beginWarning_calm {s : State} {src : Nat} : Calm s (s.beginWarning src) := by
  have dark : ∀ x : State, Calm x x.dispWarning := fun _ => .of_keeps (State.dispWarning_keeps (T := [.disp]) rfl .refl) rfl rfl
  have noted : ∀ f g, Calm s ((s.modLed f).modPwr g) := fun _ _ => ⟨rfl, rfl⟩
  refine .ite ⟨rfl, rfl⟩ ?_
  exact Calm.trans (.ite ((noted _ _).trans State.notTaken_calm) (noted _ _)) (dark _)

/-! ### The Capo's image -/

/-- The Capo runs an image that verified. -/
def State.capoBoots (s : State) : State := (s.modPwr (fun x => { x with stage := 2, capoOn := true })).modHost (fun x => { x with capo := true })

/-- The other image in force, where the first does not verify, with its report (R497). -/
def State.otherImage (s : State) : State :=
  let s := s.repairWords
  let old := s.runningVersion 2
  let x := (s.legalSlot (1 - s.fw.legal)).info.getD ImageInfo.reset
  let s := s.modFw (fun f => { f with
    legal := 1 - f.legal, swapLog := false, costs := Config.costTable (x.image.drop 458752), mcVersion := mcVersionOf x.image })
  s.fwEvent 53 2 0 4 (2 + s.fw.legal) old x.version s.frm 0 0 0

/-- The legal slot read before it boots. -/
def State.readLegal (s : State) (ok0 ok1 : Bool) : State :=
  s.readSlot s.fw.legal (s.fw.legal * 0x80000) 0x80000 (s.legalOk s.fw.legal ok0 ok1)

theorem State.legalOk_congr {s t : State} {i : Nat} {a b : Bool} (h : t.fw = s.fw) : t.legalOk i a b = s.legalOk i a b := by
  unfold State.legalOk State.legalSlot
  rw [h]

/-- How a start goes on after the legal slot is read. -/
def State.bootLegal (s : State) (ok0 ok1 : Bool) : State :=
  if s.legalOk s.fw.legal ok0 ok1 then s.capoBoots
  else if s.legalOk (1 - s.fw.legal) ok0 ok1 then s.otherImage.capoBoots
  else (s.readSlot (1 - s.fw.legal) ((1 - s.fw.legal) * 0x80000) 0x80000 false).modFw (fun f => { f with recovery := true })

theorem execCapoBootVerified_start {s : State} {u : Nat} {ok0 ok1 : Bool} (st : s.pwr.stage = 1) (off : s.pwr.capoOn = false)
    (rec' : s.fw.recovery = false) : execCapoBootVerified u ok0 ok1 s = .next (((s.at u).takePending.readLegal ok0 ok1).bootLegal ok0 ok1) := by
  have go : ¬ ((s.at u).pwr.stage ≠ 1 ∨ (s.at u).pwr.capoOn = true ∨ (s.at u).fw.recovery = true) := by
    rintro (n | n | n)
    · exact n st
    · exact absurd (off.symm.trans n) (by decide)
    · exact absurd (rec'.symm.trans n) (by decide)
  obtain ⟨x, ex⟩ : ∃ x, x = (s.at u).takePending.readLegal ok0 ok1 := ⟨_, rfl⟩
  have run : execCapoBootVerified u ok0 ok1 s = if x.legalOk x.fw.legal ok0 ok1 then .next x.capoBoots
      else if x.legalOk (1 - x.fw.legal) ok0 ok1 then .next x.otherImage.capoBoots
      else .next ((x.readSlot (1 - x.fw.legal) ((1 - x.fw.legal) * 0x80000) 0x80000 false).modFw (fun f => { f with recovery := true })) :=
    ex ▸ if_neg go
  rw [run, ← ex]
  unfold State.bootLegal
  rw [apply_ite Host.Outcome.next, apply_ite Host.Outcome.next]

theorem State.takePending_none {s : State} (no : s.fw.legalPending = false) : s.takePending = s :=
  if_neg fun c => absurd (no.symm.trans c) (by decide)

theorem State.takePending_some {s : State} (p : s.fw.legalPending = true) : s.takePending.fw.legal = 1 - s.fw.legal ∧
    s.takePending.fw.legalPending = false ∧ s.takePending.fw.legals = s.fw.legals := by
  unfold State.takePending
  rw [if_pos p]
  exact ⟨rfl, rfl, rfl⟩

/-- The state of a start whose legal slot is read. -/
structure LegalRead (s x : State) : Prop where
  fw : x.fw = s.fw
  pwr : ∃ n, x.pwr = { s.pwr with corrected := n }
  queues : x.host.events.length = s.host.events.length
  keeps : Keeps [.clk, .host, .pwr] s x

theorem State.readLegal_reads {s : State} {ok0 ok1 : Bool} (snd : Sound s) : LegalRead s (s.readLegal ok0 ok1) :=
  ⟨State.readSlot_fw, State.readSlot_pwr, (State.readSlot_sound snd).host.queues.trans snd.host.queues.symm, State.readSlot_keeps rfl .refl⟩

theorem State.otherImage_boots {s : State} (n : s.host.events.length = 64) : Raised s.otherImage.capoBoots 53 [2, 0, 4] ∧
    s.otherImage.capoBoots.fw.legal = 1 - s.fw.legal ∧ Keeps [.clk, .host, .fw, .pwr] s s.otherImage.capoBoots := by
  have raised : Raised s.otherImage 53 [byteOf 2, byteOf 0, byteOf 4] := State.raise_raised n (by decide) (by simp) (by simp)
  exact ⟨⟨raised.newest, raised.pending⟩, rfl, State.modHost_keeps rfl (State.modPwr_keeps rfl
    (State.fwEvent_keeps rfl (State.modFw_keeps rfl (State.repairWords_keeps rfl .refl))))⟩

/-! ### The parameter store -/

/-- Copies of the store that do not verify, reported. -/
def State.reportCopies (s : State) (badNew badOld : Option Nat) : State :=
  let s := s.repairWords
  let s := match badNew with | some o => s.mramError 5 (0x540000 + o) | none => s
  match badOld with | some o => s.mramError 4 (0x500000 + o) | none => s

/-- The copy of the store that is taken. -/
def State.takeCopy (s : State) (badNew badOld : Option Nat) : State :=
  if badNew.isSome ∧ badOld.isSome then
    s.modPar (fun x => { x with stored := [], active := [], staged := [], oldCopy := [], applyTag := [] })
  else if badNew.isSome ∧ s.fw.trial = true then s.modPar (fun x => { x with stored := x.oldCopy })
  else s

/-- The mode taken from the store, with the costs of its parameters. -/
def State.takeMode (s : State) : State :=
  let s := (s.modEng (fun e => { e with mode := s.pn ND_MODE })).modPlc (fun x => { x with borrow := s.pn ND_MODE == 2 })
  let s := forAll points16 (fun p s => s.driveMpo p id) s
  s.modPar (fun x => { x with cost := s.costliest s.eng.mode })

theorem execParameterStoreLoaded_start {s : State} {u : Nat} {badNew badOld : Option Nat} {key seed : BitVec 32} (st : s.pwr.stage = 2)
    (on : s.pwr.capoOn = true) : execParameterStoreLoaded u badNew badOld key seed s = .next
      ((((((s.at u).reportCopies badNew badOld).takeCopy badNew badOld).applyNextStart.takeMode.startSafety key seed).modSar (fun x => { x with
        conv := x.conv.map (fun k => { k with stDue := some u }) })).modPwr (fun x => { x with stage := 3 })) := if_pos ⟨st, on⟩

theorem State.reportCopies_keeps {s : State} {a b : Option Nat} : Keeps [.clk, .host, .pwr] s (s.reportCopies a b) := by
  have one : ∀ (x : State) k n (o : Option Nat), Keeps [.clk, .host, .pwr] x (match o with | some o => x.mramError k (n + o) | none => x) := by
    intro x k n o
    cases o with
    | none => exact .refl
    | some _ => exact State.mramError_keeps rfl .refl
  exact (one _ _ _ b).then rfl ((one _ _ _ a).then rfl (State.repairWords_keeps (T := [.clk, .host, .pwr]) rfl .refl))

/-- The mode that the store names is in force. -/
structure ModeTaken (s x : State) : Prop where
  mode : x.eng.mode = s.pn ND_MODE
  borrow : x.plc.borrow = (s.pn ND_MODE == 2)
  stored : x.par.stored = s.par.stored
  active : x.par.active = s.par.active
  keeps : Keeps [.par, .eng, .pts, .plc] s x

theorem State.takeMode_takes {s : State} : ModeTaken s s.takeMode := by
  have driven : ∀ x : State, Keeps [.pts] x (forAll points16 (fun p s => s.driveMpo p id) x) := fun _ =>
    Keeps.forAll (fun _ _ => State.driveMpo_keeps rfl .refl) rfl .refl
  have d := driven ((s.modEng (fun e => { e with mode := s.pn ND_MODE })).modPlc (fun x => { x with borrow := s.pn ND_MODE == 2 }))
  exact ⟨congrArg Engine.mode (d.eng rfl), congrArg Plc.borrow (d.plc rfl), (congrArg ParamStore.stored (d.par rfl) :),
    (congrArg ParamStore.active (d.par rfl) :), by
      unfold State.takeMode
      exact State.modPar_keeps rfl (Keeps.forAll (fun _ _ => State.driveMpo_keeps rfl .refl) rfl
        (State.modPlc_keeps rfl (State.modEng_keeps rfl .refl)))⟩

theorem State.pn_active {s t : State} {pid i : Nat} (h : t.par.active = s.par.active) : t.pn pid i = s.pn pid i := by
  unfold State.pn State.pv
  rw [h]

/-! ### The root -/

/-- Attempts that all fail end without success. -/
theorem tryCopy_fails {n : Nat} {l : List Nat} (h : ∀ c ∈ l, c ≠ 0) : (tryCopy n l).1 ≠ 0 := by
  induction n generalizing l with
  | zero => exact (by decide : 4 ≠ 0)
  | succ n ih =>
    have head : l.headD 4 ≠ 0 := by
      cases l with
      | nil => decide
      | cons c l => exact h c List.mem_cons_self
    unfold tryCopy
    dsimp only
    split
    · exact head
    · exact ih fun c m => h c (List.mem_of_mem_tail m)

/-- The work of ROOT_REGENERATED before its report. -/
def State.regenerated (s : State) (copy0 copy1 : List Nat) (words : Nat) : State :=
  ((s.regenerate copy0 copy1).readHelpers words).modPwr (fun x => { x with stage := 4 })

theorem execRootRegenerated_start {s : State} {u : Nat} {copy0 copy1 : List Nat} {words errors ms : Nat} (st : s.pwr.stage = 3) :
    execRootRegenerated u copy0 copy1 words errors ms s = .next
      (if ((s.at u).regenerated copy0 copy1 words).keys.regenFail then ((s.at u).regenerated copy0 copy1 words).regenEvent 0 errors ms
        else (s.at u).regenerated copy0 copy1 words) := if_pos st

theorem State.regenerated_keys {s : State} {a b : List Nat} {w : Nat} : (s.regenerated a b w).keys = (s.regenerate a b).keys :=
  (State.readHelpers_keeps rfl (Keeps.refl (T := [.clk, .host, .pwr]))).keys rfl

theorem State.regenEvent_raised {s : State} {a b c : Nat} (n : s.host.events.length = 64) : Raised (s.regenEvent a b c) 49 [byteOf a] :=
  State.raise_raised n (by decide) (by simp) (by simp)

/-- What a regeneration leaves: the keys of the attempts, with a report of a failure. -/
structure Regenerated (s : State) (u : Nat) (x : State) (copy0 copy1 : List Nat) : Prop where
  stage : x.pwr.stage = 4
  keys : x.keys = ((s.at u).regenerate copy0 copy1).keys
  report : ((s.at u).regenerate copy0 copy1).keys.regenFail = true → Raised x 49 [0]
  keeps : Keeps [.clk, .host, .keys, .pwr] s x

theorem execRootRegenerated_regenerates {s : State} {u : Nat} {copy0 copy1 : List Nat} {words errors ms : Nat} (snd : Sound s)
    (st : s.pwr.stage = 3) : ∃ x, execRootRegenerated u copy0 copy1 words errors ms s = .next x ∧ Regenerated s u x copy0 copy1 := by
  have e := execRootRegenerated_start (u := u) (copy0 := copy0) (copy1 := copy1) (words := words) (errors := errors) (ms := ms) st
  have keys : ((s.at u).regenerated copy0 copy1 words).keys = ((s.at u).regenerate copy0 copy1).keys := State.regenerated_keys
  have stage : ((s.at u).regenerated copy0 copy1 words).pwr.stage = 4 := rfl
  have kept : Keeps [.clk, .host, .keys, .pwr] s ((s.at u).regenerated copy0 copy1 words) :=
    State.modPwr_keeps rfl (State.readHelpers_keeps rfl (State.regenerate_keeps rfl (State.at_keeps rfl .refl)))
  have sound : Sound ((s.at u).regenerated copy0 copy1 words) :=
    State.modPwr_sound (State.readHelpers_sound (State.regenerate_sound (State.at_sound snd)))
  generalize (s.at u).regenerated copy0 copy1 words = y at e keys stage kept sound
  have event : Keeps [.host] y (y.regenEvent 0 errors ms) := State.regenEvent_keeps rfl .refl
  refine ⟨_, e, ?_⟩
  split
  · exact ⟨(congrArg Power.stage (event.pwr rfl)).trans stage, (event.keys rfl).trans keys,
      fun _ => State.regenEvent_raised sound.host.queues, event.then rfl kept⟩
  · next ok => exact ⟨stage, keys, fun f => absurd (keys ▸ f) ok, kept⟩

/-- The outcome of a copy's attempts, as the reset of the operands to the table's codes has them. -/
def State.attempts (s : State) (l : List Nat) : Nat := (tryCopy (s.pn ND_KEY_REGEN_ATTEMPTS) (l.map (fun c => if c < 5 then c else 4))).1

/-- What a regeneration makes of two copies' outcomes. -/
structure RootFound (s : State) (copy0 copy1 c0 c1 : List Nat) : Prop where
  some' : (tryCopy (s.pn ND_KEY_REGEN_ATTEMPTS) c0).1 = 0 ∨ (tryCopy (s.pn ND_KEY_REGEN_ATTEMPTS) c1).1 = 0 →
    (s.regenerate copy0 copy1).keys.root = some Config.pufRoot ∧ (s.regenerate copy0 copy1).keys.regenFail = false
  none' : (tryCopy (s.pn ND_KEY_REGEN_ATTEMPTS) c0).1 ≠ 0 → (tryCopy (s.pn ND_KEY_REGEN_ATTEMPTS) c1).1 ≠ 0 →
    (s.regenerate copy0 copy1).keys.root = none ∧ (s.regenerate copy0 copy1).keys.regenFail = true ∧
    (s.regenerate copy0 copy1).keys.copy1 = (tryCopy (s.pn ND_KEY_REGEN_ATTEMPTS) c1).1
  first : (s.regenerate copy0 copy1).keys.copy0 = (tryCopy (s.pn ND_KEY_REGEN_ATTEMPTS) c0).1

theorem State.regenerate_found {s : State} {copy0 copy1 c0 c1 : List Nat}
    (e0 : (if s.keys.erased then List.replicate (s.pn ND_KEY_REGEN_ATTEMPTS) 5 else copy0.map (fun c => if c < 5 then c else 4)) = c0)
    (e1 : (if s.keys.erased then List.replicate (s.pn ND_KEY_REGEN_ATTEMPTS) 5 else copy1.map (fun c => if c < 5 then c else 4)) = c1) :
    RootFound s copy0 copy1 c0 c1 := by
  have keys : (s.regenerate copy0 copy1).keys =
      let r0 := tryCopy (s.pn ND_KEY_REGEN_ATTEMPTS) c0
      let r1 := if r0.1 = 0 then (s.keys.copy1, 0) else tryCopy (s.pn ND_KEY_REGEN_ATTEMPTS) c1
      { s.keys with
        root := if r0.1 == 0 || r1.1 == 0 then some Config.pufRoot else none, regenFail := !(r0.1 == 0 || r1.1 == 0)
        copy0 := r0.1, copy1 := r1.1, attempts := r0.2 + r1.2 } := by
    rw [← e0, ← e1]
    rfl
  constructor
  · intro h
    have ok : ((tryCopy (s.pn ND_KEY_REGEN_ATTEMPTS) c0).1 == 0 || (if (tryCopy (s.pn ND_KEY_REGEN_ATTEMPTS) c0).1 = 0 then
        (s.keys.copy1, 0) else tryCopy (s.pn ND_KEY_REGEN_ATTEMPTS) c1).1 == 0) = true := by
      by_cases first : (tryCopy (s.pn ND_KEY_REGEN_ATTEMPTS) c0).1 = 0
      · rw [beq_iff_eq.mpr first, Bool.true_or]
      · rw [if_neg first, beq_iff_eq.mpr (h.resolve_left first), Bool.or_true]
    rw [keys]
    exact ⟨if_pos ok, congrArg not ok⟩
  · intro first second
    have no : ((tryCopy (s.pn ND_KEY_REGEN_ATTEMPTS) c0).1 == 0 || (tryCopy (s.pn ND_KEY_REGEN_ATTEMPTS) c1).1 == 0) = false := by
      rw [beq_eq_false_iff_ne.mpr first, beq_eq_false_iff_ne.mpr second, Bool.or_false]
    rw [keys]
    dsimp only
    rw [if_neg first]
    exact ⟨if_neg (Bool.eq_false_iff.mp no), congrArg not no, rfl⟩
  · rw [keys]

/-! ### Metering -/

/-- Metering begun at a frame: the stage, and a frame counter that nothing moves until the next frame. -/
structure MeteringBegun (s x : State) (n : Nat) : Prop where
  stage : x.pwr.stage = 5 ∨ x.pwr.stage = 6
  frame : x.clk.frame = n

/-- The log's first entries of a start, the report of a shutdown, and a warning that stands. -/
def State.firstReports (s : State) : State :=
  let s := s.startLog
  let s := if s.pwr.shutdown then
      (s.bump.bump.modPwr (fun x => { x with shutdown := false })).raise 56 0
        ([0, 3, 0, 0] ++ le 4 s.free ++ le 8 s.frm ++ leI 4 1500 ++ le 4 s.bump.free)
    else s
  if s.warnNow = 0 then s else s.beginWarning s.warnNow

/-- The frame counter and the stage at the first frame of metering. -/
def State.firstFrames (s : State) (n : Nat) : State :=
  let s := s.modClk (fun c => { c with frame := n, ivalStart := n, interval := 0, bdry := none, stepped := false })
  (s.modHost (fun x => { x with metering := true })).modPwr (fun x => { x with
    stage := if s.fw.svcRunning && s.host.ready then 6 else 5 })

theorem State.startMetering_eq {s : State} {n : Nat} : s.startMetering n = (((s.firstFrames n).beginPoints n).plcSweep).firstReports := rfl

theorem State.firstFrames_begun {s : State} {n : Nat} : MeteringBegun s (s.firstFrames n) n := by
  refine ⟨?_, rfl⟩
  show (if s.fw.svcRunning && s.host.ready then 6 else 5) = 5 ∨ (if s.fw.svcRunning && s.host.ready then 6 else 5) = 6
  split
  · exact .inr rfl
  · exact .inl rfl

/-- Of work that keeps the frame counter and the stage of a start. -/
structure OnStart (s x : State) : Prop where
  frame : x.clk.frame = s.clk.frame
  stage : x.pwr.stage = s.pwr.stage

theorem OnStart.refl {s : State} : OnStart s s := ⟨rfl, rfl⟩

theorem OnStart.trans {s x y : State} (h : OnStart s x) (g : OnStart x y) : OnStart s y :=
  ⟨g.frame.trans h.frame, g.stage.trans h.stage⟩

theorem OnStart.of_calm {T : List Part} {s x : State} (c : Calm s x) (k : Keeps T s x) (n : T.contains .pwr = false) : OnStart s x :=
  ⟨(congrArg Clock.frame c.counter :), congrArg Power.stage (k.pwr n)⟩

theorem OnStart.of_keeps {T : List Part} {s x : State} (k : Keeps T s x) (c : T.contains .clk = false) (n : T.contains .pwr = false) :
    OnStart s x := ⟨congrArg Clock.frame (k.clk c), congrArg Power.stage (k.pwr n)⟩

theorem State.beginWarning_onStart {s : State} {src : Nat} : OnStart s (s.beginWarning src) := by
  refine ⟨(congrArg Clock.frame State.beginWarning_calm.counter :), ?_⟩
  by_cases no : s.led.warnFrom = none
  · exact (congrArg Power.stage (State.beginWarning_begins no).pwr :)
  · have joined : s.beginWarning src = s.modLed (fun d => { d with warnSrc := d.warnSrc ||| src }) :=
      if_pos (Option.isSome_iff_ne_none.mpr no)
    rw [joined]
    rfl

theorem State.firstReports_onStart {s : State} : OnStart s s.firstReports := by
  have log : OnStart s s.startLog := .of_keeps (State.startLog_keeps (T := [.host, .test, .eng, .pts, .recs, .led, .sw, .saf, .log, .keys, .fw])
    rfl .refl) rfl rfl
  have shut : ∀ (x : State) b, OnStart x ((x.bump.bump.modPwr (fun x => { x with shutdown := false })).raise 56 0 b) := fun _ _ => ⟨rfl, rfl⟩
  have told : ∀ (x : State) b, OnStart x (if x.pwr.shutdown then (x.bump.bump.modPwr (fun x => { x with shutdown := false })).raise 56 0 b else x) := by
    intro x b
    split
    · exact shut x b
    · exact .refl
  have warned : ∀ x : State, OnStart x (if x.warnNow = 0 then x else x.beginWarning x.warnNow) := by
    intro x
    split
    · exact .refl
    · exact State.beginWarning_onStart
  exact log.trans ((told _ _).trans (warned _))

theorem State.startMetering_begun {s : State} {n : Nat} : MeteringBegun s (s.startMetering n) n := by
  have first := State.firstFrames_begun (s := s) (n := n)
  rw [State.startMetering_eq]
  have points : OnStart (s.firstFrames n) ((s.firstFrames n).beginPoints n) := .of_keeps (State.beginPoints_keeps (T := [.slices, .pts]) rfl .refl) rfl rfl
  have swept : OnStart ((s.firstFrames n).beginPoints n) ((s.firstFrames n).beginPoints n).plcSweep :=
    .of_calm State.plcSweep_calm (State.plcSweep_keeps (T := [.clk, .servo, .host, .pts, .plc, .ring]) rfl .refl) rfl
  have all := points.trans (swept.trans State.firstReports_onStart)
  exact ⟨all.stage ▸ first.stage, all.frame.trans first.frame⟩

/-- The registers merged with what the hold-up kept, before metering begins. -/
def State.mergeHoldup (s : State) (f : Found) (badL : List Nat) : State :=
  let s := s.restore f.entry (newestLine s.led.lines badL)
  let s := s.modClk (fun c => { c with frame := f.last.getD 0 })
  let s := s.modServo (fun v => match f.entry.bind (fun e => e.utc) with
    | some u => { v with utc := u, utcSaved := true }
    | none => { v with utc := s.pv ND_UTC_OFFSET })
  let s := (s.mergeSteps f).restoredEvent f
  match f.last with
  | some n => (s.saveLedger false n).modLed (fun d => { d with cut := false })
  | none => s.modLed (fun d => { d with cut := false })

theorem execHoldupMerge_start {s : State} {u : Nat} {badE badB badL words : List Nat} (st : s.pwr.stage = 4) (on : s.pwr.capoOn = true) :
    execHoldupMerge u badE badB badL words s = .next ((((s.at u).readWords words).mergeHoldup (((s.at u).readWords words).findHoldup badE badB)
      badL).startMetering (match (((s.at u).readWords words).findHoldup badE badB).last with | some n => n + 1 | none => 0)) := by
  unfold State.mergeHoldup State.readWords
  exact if_pos ⟨st, on⟩

theorem State.findHoldup_congr {s t : State} {a b : List Nat} (h : t.led = s.led) : t.findHoldup a b = s.findHoldup a b := by
  unfold State.findHoldup
  rw [h]

theorem State.readWords_keeps {s : State} {l : List Nat} : Keeps [.clk, .host, .pwr] s (s.readWords l) :=
  Keeps.foldl (fun _ _ => State.mramError_keeps rfl .refl) rfl (State.repairWords_keeps rfl .refl)

/-! ### The service pair -/

/-- The pair starts with a slot: READY, and the messages that waited are taken. -/
def State.serve (s : State) (i : Nat) (other : Bool) : State :=
  let s := (s.bootInto i other).modFw (fun f => { f with svcRunning := true })
  let s := if s.pwr.stage = 5 then s.modPwr (fun x => { x with stage := 6 }) else s
  s.setReady.takeQueued

/-- The service slots read before one boots. -/
def State.readService (s : State) (okA okB : Bool) : State := (s.readSlot 2 0x100000 0x200000 okA).readSlot 3 0x300000 0x200000 okB

theorem State.bootSlot_congr {s t : State} {a b : Bool} (h : t.fw = s.fw) : t.bootSlot a b = s.bootSlot a b := by
  unfold State.bootSlot State.svcOk State.svcSlot
  rw [h]

theorem execServiceImageBooted_ready {s : State} {u : Nat} {okA okB : Bool} (off : s.fw.svcRunning = false) (on : s.pwr.coreOn = true)
    (st : s.pwr.stage = 5 ∨ s.fw.recovery = true) : execServiceImageBooted u okA okB s =
      match ((s.at u).readService okA okB).bootSlot okA okB with
      | some (i, other) => .next (((s.at u).readService okA okB).serve i other).runHeld
      | none => .next ((s.at u).readService okA okB) := by
  unfold State.serve
  exact if_pos ⟨off, on, st⟩

theorem State.bootInto_active {s : State} {i : Nat} {other : Bool} : (s.bootInto i other).fw.active = i := by
  unfold State.bootInto
  split
  · rfl
  · split
    · rfl
    · rfl

/-- What a start of the service pair leaves. -/
structure Served' (s x : State) (i : Nat) : Prop where
  stage : x.pwr.stage = if s.pwr.stage = 5 then 6 else s.pwr.stage
  ready : x.host.ready = true
  running : x.fw.svcRunning = true
  active : x.fw.active = i
  held : x.host.held = s.host.held
  keeps : Keeps [.par, .host, .fw, .plc, .pwr] s x

theorem State.serve_serves {s : State} {i : Nat} {other : Bool} : Served' s (s.serve i other) i := by
  obtain ⟨y, ey⟩ : ∃ y, y = (s.bootInto i other).modFw (fun f => { f with svcRunning := true }) := ⟨_, rfl⟩
  have boot : Keeps [.par, .host, .fw] s y := ey ▸ State.modFw_keeps rfl (State.bootInto_keeps rfl .refl)
  have held : y.host.held = s.host.held := by
    have into : (s.bootInto i other).host.held = s.host.held := by
      unfold State.bootInto
      split
      · rfl
      · split
        · rfl
        · rfl
    exact ey ▸ into
  have active : y.fw.active = i := ey ▸ State.bootInto_active
  have pwr : y.pwr = s.pwr := boot.pwr rfl
  have running : y.fw.svcRunning = true := ey ▸ rfl
  have now : s.serve i other = (if y.pwr.stage = 5 then y.modPwr (fun x => { x with stage := 6 }) else y).setReady.takeQueued := ey ▸ rfl
  rw [now, pwr]
  split
  · next five => exact ⟨(if_pos five).symm, rfl, running, active, held, State.takeQueued_keeps rfl (State.setReady_keeps rfl
      (State.modPwr_keeps rfl (boot.mono rfl)))⟩
  · next no => exact ⟨(congrArg Power.stage pwr).trans (if_neg no).symm, rfl, running, active, held, State.takeQueued_keeps rfl
      (State.setReady_keeps rfl (boot.mono rfl))⟩

theorem State.runHeld_none {s : State} (no : s.host.held = []) : s.runHeld = s.modHost (fun x => { x with held := [] }) := by
  unfold State.runHeld
  rw [no]
  rfl

/-- The store loaded: which copy stands, and the mode that it names. -/
theorem execParameterStoreLoaded_takes {s : State} {u : Nat} {badNew badOld : Option Nat} {key seed : BitVec 32} (st : s.pwr.stage = 2)
    (on : s.pwr.capoOn = true) : ∃ t, execParameterStoreLoaded u badNew badOld key seed s = .next t ∧ t.pwr.stage = 3 ∧
      t.eng.mode = t.pn ND_MODE ∧ t.plc.borrow = (t.pn ND_MODE == 2) ∧
      (badNew = none → badOld = none → t.par.stored = s.par.stored) ∧
      (badNew ≠ none → badOld = none → s.fw.trial = true → t.par.stored = s.par.oldCopy) ∧
      (badNew ≠ none → badOld ≠ none → t.par.stored = [] ∧ t.par.active = []) ∧
      Keeps [.clk, .par, .host, .eng, .pts, .sw, .saf, .plc, .sar, .pwr] s t := by
  have e := execParameterStoreLoaded_start (u := u) (badNew := badNew) (badOld := badOld) (key := key) (seed := seed) st on
  have kept := exec_keeps (.parameterStoreLoaded u badNew badOld key seed) _ _ e
  have reported : Keeps [.clk, .host, .pwr] s ((s.at u).reportCopies badNew badOld) :=
    State.reportCopies_keeps.then rfl (State.at_keeps rfl .refl)
  generalize (s.at u).reportCopies badNew badOld = x at e reported kept
  have trial : x.fw.trial = s.fw.trial := congrArg Firmware.trial (reported.fw rfl)
  have par : x.par = s.par := reported.par rfl
  have none' : badNew = none → badOld = none → (x.takeCopy badNew badOld).applyNextStart.par.stored = s.par.stored := by
    rintro rfl rfl
    exact (congrArg ParamStore.stored par :)
  have old : badNew ≠ none → badOld = none → s.fw.trial = true →
      (x.takeCopy badNew badOld).applyNextStart.par.stored = s.par.oldCopy := by
    rintro new' rfl tr
    have taken : x.takeCopy badNew none = x.modPar (fun y => { y with stored := y.oldCopy }) :=
      (if_neg (by simp)).trans (if_pos ⟨Option.isSome_iff_ne_none.mpr new', trial.trans tr⟩)
    rw [taken]
    exact (congrArg ParamStore.oldCopy par :)
  have gone : badNew ≠ none → badOld ≠ none → (x.takeCopy badNew badOld).applyNextStart.par.stored = [] ∧
      (x.takeCopy badNew badOld).applyNextStart.par.active = [] := by
    intro new' old'
    have taken : x.takeCopy badNew badOld = x.modPar (fun y => { y with
        stored := [], active := [], staged := [], oldCopy := [], applyTag := [] }) :=
      if_pos ⟨Option.isSome_iff_ne_none.mpr new', Option.isSome_iff_ne_none.mpr old'⟩
    rw [taken]
    exact ⟨rfl, rfl⟩
  generalize (x.takeCopy badNew badOld).applyNextStart = z at e none' old gone kept
  have mode := State.takeMode_takes (s := z)
  generalize z.takeMode = y at e mode kept
  have start : Keeps [.host, .pts, .sw, .saf] y (y.startSafety key seed) := State.startSafety_keeps rfl .refl
  generalize y.startSafety key seed = w at e start kept
  have stored : w.par.stored = z.par.stored := (congrArg ParamStore.stored (start.par rfl)).trans mode.stored
  have active : w.par.active = z.par.active := (congrArg ParamStore.active (start.par rfl)).trans mode.active
  have named : w.pn ND_MODE = z.pn ND_MODE := State.pn_active active
  exact ⟨_, e, rfl, (congrArg Engine.mode (start.eng rfl)).trans (mode.mode.trans named.symm),
    (congrArg Plc.borrow (start.plc rfl)).trans (mode.borrow.trans (congrArg (· == 2) named.symm)),
    fun a b => stored.trans (none' a b), fun a b c => stored.trans (old a b c),
    fun a b => ⟨stored.trans (gone a b).1, active.trans (gone a b).2⟩, kept⟩

/-- The service pair booted, or no slot of it verifying. -/
theorem execServiceImageBooted_boots {s : State} {u : Nat} {okA okB : Bool} (off : s.fw.svcRunning = false) (on : s.pwr.coreOn = true)
    (st : s.pwr.stage = 5 ∨ s.fw.recovery = true) :
    (∀ i other, s.host.held = [] → s.bootSlot okA okB = some (i, other) →
      ∃ t, execServiceImageBooted u okA okB s = .next t ∧ t.pwr.stage = (if s.pwr.stage = 5 then 6 else s.pwr.stage) ∧
      t.host.ready = true ∧ t.fw.svcRunning = true ∧ t.fw.active = i ∧ Keeps [.clk, .par, .host, .fw, .plc, .pwr] s t) ∧
    (s.bootSlot okA okB = none → ∃ t, execServiceImageBooted u okA okB s = .next t ∧ t.pwr.stage = s.pwr.stage ∧
      t.host.ready = s.host.ready ∧ t.fw = s.fw ∧ Keeps [.clk, .host, .pwr] s t) := by
  have e := execServiceImageBooted_ready (u := u) (okA := okA) (okB := okB) off on st
  have calm : Calm (s.at u) ((s.at u).readService okA okB) := State.readSlot_calm.trans State.readSlot_calm
  have before : Keeps [.clk, .host, .pwr] s ((s.at u).readService okA okB) :=
    State.readSlot_keeps rfl (State.readSlot_keeps rfl (State.at_keeps rfl .refl))
  have fw : ((s.at u).readService okA okB).fw = s.fw := before.fw rfl
  have stage : ((s.at u).readService okA okB).pwr.stage = s.pwr.stage := by
    obtain ⟨_, first⟩ := State.readSlot_pwr (s := s.at u) (a := 2) (b := 0x100000) (c := 0x200000) (ok := okA)
    obtain ⟨_, second⟩ := State.readSlot_pwr (s := (s.at u).readSlot 2 0x100000 0x200000 okA) (a := 3) (b := 0x300000) (c := 0x200000) (ok := okB)
    exact (congrArg Power.stage second :).trans (congrArg Power.stage first :)
  have host := calm.space
  rw [State.bootSlot_congr fw] at e
  generalize (s.at u).readService okA okB = y at e before fw stage host
  refine ⟨fun i other none' boots => ?_, fun boots => ?_⟩
  · rw [boots] at e
    have e : execServiceImageBooted u okA okB s = .next (y.serve i other).runHeld := e
    have h := State.serve_serves (s := y) (i := i) (other := other)
    have held : (y.serve i other).host.held = [] := h.held.trans ((congrArg HostPort.held host :).trans none')
    rw [State.runHeld_none held] at e
    exact ⟨_, e, stage ▸ h.stage, h.ready, h.running, h.active, State.modHost_keeps rfl (h.keeps.then rfl (before.mono rfl))⟩
  · rw [boots] at e
    exact ⟨_, e, stage, (congrArg HostPort.ready host :), fw, before⟩

end Sys2Proof.Machine

open Sys2Proof Sys2Proof.Machine

/-- Settles O32: each milestone by the law of the state that it leaves. -/
theorem startUpEventsComplete : Obligations.StartUpEventsComplete := by
  intro s u snd
  have sndu : Sound (s.at u) := State.at_sound snd
  refine ⟨fun ok0 ok1 st off rec' no => ?boot, fun ok0 ok1 st off rec' pend ok => ?pending, fun badNew badOld key seed st on => ?store,
    fun copy0 copy1 words errors ms st => ?root, fun badE badB badL words st on => ?merge, fun okA okB off on st => ?service⟩
  case boot =>
    have e := execCapoBootVerified_start (u := u) (ok0 := ok0) (ok1 := ok1) st off rec'
    rw [State.takePending_none (s := s.at u) no] at e
    have read := State.readLegal_reads (ok0 := ok0) (ok1 := ok1) sndu
    obtain ⟨n, pwr⟩ := read.pwr
    have before : Keeps [.clk, .host, .pwr] s ((s.at u).readLegal ok0 ok1) := read.keeps.then rfl (State.at_keeps rfl .refl)
    have fw : ((s.at u).readLegal ok0 ok1).fw = s.fw := read.fw
    have queues : ((s.at u).readLegal ok0 ok1).host.events.length = 64 := read.queues.trans snd.host.queues
    have judge : ∀ i, ((s.at u).readLegal ok0 ok1).legalOk i ok0 ok1 = s.legalOk i ok0 ok1 := fun _ => State.legalOk_congr fw
    generalize (s.at u).readLegal ok0 ok1 = y at e pwr before fw queues judge
    have legal : y.fw.legal = s.fw.legal := congrArg Firmware.legal fw
    refine ⟨fun ok => ?_, fun bad ok => ?_, fun bad bad' => ?_⟩
    · have boots : y.bootLegal ok0 ok1 = y.capoBoots := if_pos (by rw [judge, legal]; exact ok)
      rw [boots] at e
      exact ⟨_, e, rfl, rfl, rfl, fw, State.modHost_keeps rfl (State.modPwr_keeps rfl before)⟩
    · have boots : y.bootLegal ok0 ok1 = y.otherImage.capoBoots :=
        (if_neg (by rw [judge, legal, bad]; decide)).trans (if_pos (by rw [judge, legal]; exact ok))
      obtain ⟨raised, other, kept⟩ := State.otherImage_boots queues
      exact ⟨_, boots ▸ e, rfl, rfl, rfl, other.trans (congrArg (1 - ·) legal), raised, kept.then rfl (before.mono rfl)⟩
    · have boots : y.bootLegal ok0 ok1 = (y.readSlot (1 - y.fw.legal) ((1 - y.fw.legal) * 0x80000) 0x80000 false).modFw
          (fun f => { f with recovery := true }) :=
        (if_neg (by rw [judge, legal, bad]; decide)).trans (if_neg (by rw [judge, legal, bad']; decide))
      obtain ⟨m, after⟩ := State.readSlot_pwr (s := y) (a := 1 - y.fw.legal) (b := (1 - y.fw.legal) * 0x80000) (c := 0x80000) (ok := false)
      refine ⟨_, boots ▸ e, ?_, ?_, ?_, State.modFw_keeps rfl (State.readSlot_keeps rfl (before.mono rfl))⟩
      · exact congrArg (fun f : Firmware => { f with recovery := true }) (State.readSlot_fw.trans fw)
      · exact (congrArg Power.stage after).trans ((congrArg Power.stage pwr).trans st)
      · exact (congrArg Power.capoOn after).trans ((congrArg Power.capoOn pwr).trans off)
  case pending =>
    have e := execCapoBootVerified_start (u := u) (ok0 := ok0) (ok1 := ok1) st off rec'
    obtain ⟨active, none', slots⟩ := State.takePending_some (s := s.at u) pend
    have read := State.readLegal_reads (ok0 := ok0) (ok1 := ok1) (State.takePending_sound sndu)
    have before : Keeps [.clk, .host, .fw, .pwr] s ((s.at u).takePending.readLegal ok0 ok1) :=
      read.keeps.then rfl (State.takePending_keeps rfl (State.at_keeps rfl .refl))
    have fw := read.fw
    generalize (s.at u).takePending.readLegal ok0 ok1 = y at e before fw
    have legal : y.fw.legal = 1 - s.fw.legal := (congrArg Firmware.legal fw).trans active
    have judge : y.legalOk y.fw.legal ok0 ok1 = true := by
      rw [legal]
      unfold State.legalOk State.legalSlot at ok ⊢
      rw [fw, slots]
      exact ok
    have boots : y.bootLegal ok0 ok1 = y.capoBoots := if_pos judge
    rw [boots] at e
    exact ⟨_, e, rfl, rfl, rfl, legal, (congrArg Firmware.legalPending fw).trans none',
      State.modHost_keeps rfl (State.modPwr_keeps rfl before)⟩
  case store => exact execParameterStoreLoaded_takes st on
  case root =>
    obtain ⟨x, e, r⟩ := execRootRegenerated_regenerates (u := u) (copy0 := copy0) (copy1 := copy1) (words := words) (errors := errors)
      (ms := ms) snd st
    have at' : (s.at u).pn ND_KEY_REGEN_ATTEMPTS = s.pn ND_KEY_REGEN_ATTEMPTS := State.pn_congr rfl
    refine ⟨fun live some' => ?_, fun live none0 none1 => ?_, fun gone n => ?_⟩
    · have f : RootFound (s.at u) copy0 copy1 _ _ := State.regenerate_found (if_neg fun c => absurd (live.symm.trans c) (by decide))
        (if_neg fun c => absurd (live.symm.trans c) (by decide))
      obtain ⟨root, fail⟩ := f.some' (by rw [at']; exact some')
      refine ⟨x, e, r.stage, r.keys ▸ root, r.keys ▸ fail, ?_, r.keeps⟩
      rw [r.keys, f.first, at']
    · have f : RootFound (s.at u) copy0 copy1 _ _ := State.regenerate_found (if_neg fun c => absurd (live.symm.trans c) (by decide))
        (if_neg fun c => absurd (live.symm.trans c) (by decide))
      obtain ⟨root, fail, second⟩ := f.none' (by rw [at']; exact none0) (by rw [at']; exact none1)
      refine ⟨x, e, r.stage, r.keys ▸ root, r.keys ▸ fail, ?_, ?_, r.report fail, r.keeps⟩
      · rw [r.keys, f.first, at']
      · rw [r.keys, second, at']
    · have f : RootFound (s.at u) copy0 copy1 _ _ := State.regenerate_found (if_pos gone) (if_pos gone)
      have fails : (tryCopy ((s.at u).pn ND_KEY_REGEN_ATTEMPTS) (List.replicate ((s.at u).pn ND_KEY_REGEN_ATTEMPTS) 5)).1 ≠ 0 :=
        tryCopy_fails fun c m => (List.eq_of_mem_replicate m).symm ▸ (by decide)
      obtain ⟨root, fail, -⟩ := f.none' fails fails
      exact ⟨x, e, r.stage, r.keys ▸ root, r.keys ▸ fail, r.report fail, r.keeps⟩
  case merge =>
    have e := execHoldupMerge_start (u := u) (badE := badE) (badB := badB) (badL := badL) (words := words) st on
    have found : ((s.at u).readWords words).findHoldup badE badB = s.findHoldup badE badB :=
      State.findHoldup_congr (State.readWords_keeps.led rfl)
    rw [found] at e
    have begun := State.startMetering_begun (s := ((s.at u).readWords words).mergeHoldup (s.findHoldup badE badB) badL)
      (n := match (s.findHoldup badE badB).last with | some n => n + 1 | none => 0)
    have kept := exec_keeps (.holdupMerge u badE badB badL words) _ _ e
    exact ⟨_, e, begun.stage, begun.frame, kept.par rfl, kept.courses rfl, kept.sar rfl⟩
  case service => exact execServiceImageBooted_boots off on st
end

section
/-!
Firmware staged, handed over and tried, and attestations signed (18 R436; 21 R488–R493; 22 R516).
-/

namespace Sys2Proof.Machine

/-! ### A staging verified -/

/-- The image that a verified staging puts into its slot: microcode joins the legal image that runs. -/
def State.stagedImage (s : State) (g : Staging) : ImageInfo :=
  if builtKind g.kind = 3 then
    match s.runningImage 2 with
    | some r => { r with image := r.image.take 458752 ++ zeros (458752 - r.image.length) ++ g.built }
    | none => imageInfo g.built
  else imageInfo g.built

/-- The outcome of a verification noted in the staging and in the slot. -/
def State.noteStaged (s : State) (g : Staging) (out slot : Nat) (image : ImageInfo) : State :=
  (s.modFw (fun f => { f with
    stage := if out = 0 then some { g with state := 2, info := some (imageInfo g.built) } else none })).modSlot (2 ≤ slot) (slot % 2)
      (fun _ => { Slot.reset with info := if out = 0 then some image else none })

theorem execFwStageVerified_staged {s : State} {u : Nat} {g : Staging} (e : s.fw.stage = some g) (st : g.state = 1) : ∃ old new' frame,
    execFwStageVerified u s = .next (((s.at u).fwEvent 51 g.kind (s.stageOutcome (builtKind g.kind) g.built) 0
      (s.stagedSlot (builtKind g.kind)) old new' frame 0 0 g.logIdx).noteStaged g (s.stageOutcome (builtKind g.kind) g.built)
        (s.stagedSlot (builtKind g.kind)) (s.stagedImage g)) := by
  have h : (s.at u).fw.stage = some g := e
  unfold execFwStageVerified
  dsimp only
  rw [h]
  exact ⟨_, _, _, if_neg fun n => n st⟩

theorem State.fwEvent_raised {s : State} {ev kind outcome cause slot old new frame pause layout idx : Nat} (n : s.host.events.length = 64)
    (l : ev < 64) : Raised (s.fwEvent ev kind outcome cause slot old new frame pause layout idx) ev
      [byteOf kind, byteOf outcome, byteOf cause, byteOf slot] := State.raise_raised n l (by simp) (by simp)

theorem State.noteStaged_slot {s : State} {g : Staging} {out slot : Nat} {image : ImageInfo} (low : slot < 2) :
    (s.noteStaged g out slot image).fw.svc = upd s.fw.svc (slot % 2) (fun _ => { Slot.reset with info := if out = 0 then some image else none }) := by
  have no : decide (2 ≤ slot) = false := decide_eq_false (Nat.not_le.mpr low)
  unfold State.noteStaged
  rw [no]
  rfl

theorem State.noteStaged_legal {s : State} {g : Staging} {out slot : Nat} {image : ImageInfo} (high : 2 ≤ slot) :
    (s.noteStaged g out slot image).fw.legals = upd s.fw.legals (slot % 2) (fun _ => { Slot.reset with info := if out = 0 then some image else none }) := by
  have yes : decide (2 ≤ slot) = true := decide_eq_true high
  unfold State.noteStaged
  rw [yes]
  rfl

/-- A slot emptied reads empty, also beyond the slots that there are. -/
theorem emptied_slot {l : List Slot} {i : Nat} : ((upd l i (fun _ => { Slot.reset with info := none })).getD i Slot.reset).info = none := by
  by_cases h : i < l.length
  · rw [getD_upd_eq h]
  · have out : (upd l i (fun _ => { Slot.reset with info := none })).length ≤ i := by
      unfold upd
      rw [List.length_modify]
      exact Nat.not_lt.mp h
    rw [List.getD_eq_default _ _ out]
    rfl

/-- What a verification leaves of the firmware. -/
structure StageJudged (s x : State) (g : Staging) (out slot : Nat) (image : ImageInfo) : Prop where
  stage : x.fw.stage = if out = 0 then some { g with state := 2, info := some (imageInfo g.built) } else none
  active : x.fw.active = s.fw.active
  legal : x.fw.legal = s.fw.legal
  host : x.host = s.host
  keeps : Keeps [.fw] s x

theorem State.noteStaged_judged {s : State} {g : Staging} {out slot : Nat} {image : ImageInfo} :
    StageJudged s (s.noteStaged g out slot image) g out slot image := by
  have kept : Keeps [.fw] s (s.noteStaged g out slot image) := State.modSlot_keeps rfl (State.modFw_keeps rfl .refl)
  have slotted : ∀ (x : State) (b : Bool) i f, (x.modSlot b i f).fw.stage = x.fw.stage ∧ (x.modSlot b i f).fw.active = x.fw.active ∧
      (x.modSlot b i f).fw.legal = x.fw.legal := by
    intro x b i f
    cases b <;> exact ⟨rfl, rfl, rfl⟩
  obtain ⟨st, act, leg⟩ := slotted (s.modFw (fun f => { f with
    stage := if out = 0 then some { g with state := 2, info := some (imageInfo g.built) } else none })) (2 ≤ slot) (slot % 2)
      (fun _ => { Slot.reset with info := if out = 0 then some image else none })
  exact ⟨st, act, leg, kept.host rfl, kept⟩

/-! ### A handover given up -/

theorem State.notTaken_staged {s : State} {g : Staging} (n : s.host.events.length = 64) (e : s.fw.stage = some g) :
    s.notTaken.fw = { s.fw with bootDue := none, hand := none, stage := some { g with state := 2 } } ∧
    Raised s.notTaken 52 [byteOf g.kind, 1, 0, byteOf s.fw.active] := by
  unfold State.notTaken
  rw [e]
  exact ⟨rfl, State.fwEvent_raised (kind := g.kind) (outcome := 1) (cause := 0) (slot := s.fw.active) n (by decide)⟩

theorem execStandbyReady_inTime {s : State} {u d : Nat} (e : s.fw.bootDue = some d) (le : u ≤ d) : execStandbyReady u s = .next
    ((s.at u).modFw (fun f => { f with bootDue := none, hand := some (s.frm + 1, false) })) := by
  have h : (s.at u).fw.bootDue = some d := e
  unfold execStandbyReady
  dsimp only
  rw [h]
  exact if_pos le

theorem execHandoverBootTimeout_due {s : State} {u d : Nat} (e : s.fw.bootDue = some d) (le : d ≤ u) :
    execHandoverBootTimeout u s = .next (s.at u).notTaken :=
  if_pos (by rw [show (s.at u).fw.bootDue = some d from e]; exact decide_eq_true le)

theorem execFwConfirmTimeout_due {s : State} {u d : Nat} (tr : s.fw.trial = true) (e : s.fw.confirmDue = some d) (le : d ≤ u)
    (no : s.fw.hand = none) : execFwConfirmTimeout u s = .next ((s.at u).modFw (fun f => { f with hand := some (s.frm + 1, true) })) :=
  if_pos ⟨tr, by rw [show (s.at u).fw.confirmDue = some d from e]; exact decide_eq_true le, no⟩

/-! ### The service pair started cold -/

/-- The failure's exception reported, where there was one. -/
def State.reportException (s : State) (exc : Option Nat) : State :=
  match exc with
  | some c => s.raise 63 0 ([5, 0xFF, 0xFF, 0xFF] ++ zeros 4 ++ le 8 s.frm ++ zeros 4 ++ le 4 c)
  | none => s

/-- The firmware after the service pair's failure: the trial's fallback, a handover given up, or as it was. -/
def State.afterFailure (s : State) (exc : Option Nat) : State :=
  if s.fw.trial then s.fallBack (if exc.isSome then 2 else 1) 0 0 else if s.handingOver then s.notTaken else s

theorem execServiceLivenessFail_runs {s : State} {u : Nat} {exc : Option Nat} (run : s.fw.svcRunning = true) :
    execServiceLivenessFail u exc s = .next (((s.at u).reportException exc).coldService.afterFailure exc) := by
  unfold State.reportException State.afterFailure
  exact if_pos run

/-- What a cold start of the service pair loses. -/
structure ColdStarted (s x : State) : Prop where
  held : x.host.held = []
  batch : x.par.batch = none
  queue : x.keys.queue = []
  links : ∀ p, p < 16 → (x.outOf p).v2g = false
  stored : x.par.stored = s.par.stored
  old : x.par.oldCopy = s.par.oldCopy
  fw : x.fw = s.fw
  events : x.host.events.length = 64
  keeps : Keeps [.clk, .servo, .par, .host, .pts, .keys, .ring] s x

/-- The held requests answered, and what the interfaces held forgotten. -/
def State.dropRequests (s : State) : State :=
  let s := s.host.held.foldl (fun s r => s.post r.hdr.mbx r.code r.hdr.tag 15 []) s
  let s := s.modHost (fun x => { x with
    held := [], pause := false, replies := [], mbx := x.mbx.map (fun m => { m with held := none, answer := none }) })
  s.modPar (fun x => { x with batch := none })

/-- An outlet whose protocol the service pair no longer runs. -/
def Outlet.unserved (o : Outlet) (due : Nat) : Outlet :=
  { o with v2g := false, paused := false, wants := false, slacPending := []
           lossDue := if o.lossDue.isSome || o.v2g then some due else none }

/-- The outlets without the service pair. -/
def State.dropLinks (s : State) : State :=
  forAll points16 (fun p s => s.modOut p (fun o => o.unserved (s.clk.up + s.pn PT_PLC_LOSS p * 1000000))) s

theorem State.coldService_eq {s : State} : s.coldService =
    ((s.dropRequests.dropLinks.modRing Ring.fresh).freshPtp 7).modKeys (fun k => { k with queue := [] }) := rfl

theorem State.freshPtp_calm {s : State} {n : Nat} : Calm s (s.freshPtp n) := by
  have noted : ∀ f, Calm s (s.modServo f) := fun _ => State.modServo_calm
  have lost : ∀ f g, Calm s (((s.modServo f).modServo g).loseSource 1) := fun _ _ =>
    (State.modServo_calm.trans State.modServo_calm).trans State.loseSource_calm
  exact .ite (lost _ _) (noted _)

theorem State.dropLinks_v2g {s : State} {p : Nat} (n : s.pts.length = 16) (l : p < 16) : (s.dropLinks.outOf p).v2g = false :=
  forAll_points16 (R := fun x => (x.outOf p).v2g) (g := fun _ => false) (I := fun x => x.pts.length = 16) l n
    (fun _ _ h => State.modOut_onPoint.size.trans h)
    (fun _ _ _ ne => congrArg (fun x : Point => x.out.v2g) (State.modOut_onPoint.others p (Ne.symm ne)))
    fun _ h => congrArg Outlet.v2g (State.modOut_same (h.symm ▸ l))

theorem State.dropRequests_keeps {s : State} : Keeps [.clk, .par, .host] s s.dropRequests := by
  have posted : Keeps [.clk, .par, .host] s (s.host.held.foldl (fun s r => s.post r.hdr.mbx r.code r.hdr.tag 15 []) s) :=
    Keeps.foldl (fun _ _ => State.post_keeps rfl .refl) rfl .refl
  unfold State.dropRequests
  exact State.modPar_keeps rfl (State.modHost_keeps rfl posted)

theorem State.dropLinks_keeps {s : State} : Keeps [.pts] s s.dropLinks :=
  Keeps.forAll (fun _ _ => State.modOut_keeps rfl .refl) rfl .refl

theorem State.dropRequests_par {s : State} : s.dropRequests.par = { s.par with batch := none } := by
  have posted : (s.host.held.foldl (fun s r => s.post r.hdr.mbx r.code r.hdr.tag 15 []) s).par = s.par :=
    (Keeps.foldl (T := [.clk, .host]) (fun _ _ => State.post_keeps rfl .refl) rfl .refl).par rfl
  exact congrArg (fun p : ParamStore => { p with batch := none }) posted

theorem State.coldService_cold {s : State} (snd : Sound s) : ColdStarted s s.coldService := by
  have kept : Keeps [.clk, .servo, .par, .host, .pts, .keys, .ring] s s.coldService := State.coldService_keeps rfl .refl
  have events : s.coldService.host.events.length = 64 := (State.coldService_sound snd).host.queues
  have requests := State.dropRequests_keeps (s := s)
  have held : s.dropRequests.host.held = [] := rfl
  have par := State.dropRequests_par (s := s)
  have pts : s.dropRequests.pts.length = 16 := (congrArg List.length (requests.pts rfl)).trans snd.pts
  rw [State.coldService_eq] at kept events ⊢
  generalize s.dropRequests = x at kept events requests held par pts
  have links : ∀ p, p < 16 → (x.dropLinks.outOf p).v2g = false := fun p l => State.dropLinks_v2g pts l
  have dropped := State.dropLinks_keeps (s := x)
  generalize x.dropLinks = y at kept events links dropped
  have fresh : Calm y ((y.modRing Ring.fresh).freshPtp 7) := Calm.trans (x := y.modRing Ring.fresh) ⟨rfl, rfl⟩ State.freshPtp_calm
  have ptp : Keeps [.clk, .servo, .host, .ring] y ((y.modRing Ring.fresh).freshPtp 7) := State.freshPtp_keeps rfl (State.modRing_keeps rfl .refl)
  generalize (y.modRing Ring.fresh).freshPtp 7 = z at kept events fresh ptp
  have store : z.par = { s.par with batch := none } := (ptp.par rfl).trans ((dropped.par rfl).trans par)
  have host : z.host.held = y.host.held := (congrArg HostPort.held fresh.space :)
  exact {
    held := host.trans ((congrArg HostPort.held (dropped.host rfl)).trans held)
    batch := congrArg ParamStore.batch store
    queue := rfl
    links := fun p l => (congrArg Outlet.v2g (State.outOf_congr (ptp.pts rfl))).trans (links p l)
    stored := (congrArg ParamStore.stored store :)
    old := (congrArg ParamStore.oldCopy store :)
    fw := kept.fw rfl
    events := events
    keeps := kept }

/-- A trial that falls back to the old image and its parameters. -/
structure FellBack (s x : State) (cause : Nat) : Prop where
  trial : x.fw.trial = false
  active : x.fw.active = 1 - s.fw.active
  stored : x.par.stored = s.par.oldCopy
  batch : x.par.batch = s.par.batch
  held : x.host.held = s.host.held
  report : Raised x 53 [0, 0, byteOf cause]
  keeps : Keeps [.par, .host, .fw] s x

theorem State.fallBack_falls {s : State} {cause a b : Nat} (n : s.host.events.length = 64) : FellBack s (s.fallBack cause a b) cause :=
  ⟨rfl, rfl, rfl, rfl, rfl, State.raise_raised n (by decide) (by simp; rfl) (by simp), State.fallBack_keeps rfl .refl⟩

theorem State.notTaken_par {s : State} : s.notTaken.par = s.par := (State.notTaken_keeps rfl (Keeps.refl (T := [.clk, .host, .fw]))).par rfl

/-- What the failure of the service pair leaves. -/
theorem execServiceLivenessFail_leaves {s : State} {u : Nat} {exc : Option Nat} (snd : Sound s) (run : s.fw.svcRunning = true) :
    ∃ t, execServiceLivenessFail u exc s = .next t ∧ t.host.held = [] ∧
      t.par.batch = none ∧ t.keys.queue = [] ∧ (∀ p, p < 16 → (t.outOf p).v2g = false) ∧
      (s.fw.trial = false → t.par.stored = s.par.stored ∧ t.fw.active = s.fw.active ∧ (s.handingOver = false → t.fw = s.fw) ∧
        (∀ g, s.handingOver = true → s.fw.stage = some g →
          t.fw = { s.fw with bootDue := none, hand := none, stage := some { g with state := 2 } } ∧
          Raised t 52 [byteOf g.kind, 1, 0, byteOf s.fw.active])) ∧
      (s.fw.trial = true → t.fw.trial = false ∧ t.fw.active = 1 - s.fw.active ∧ t.par.stored = s.par.oldCopy ∧
        Raised t 53 [0, 0, if exc.isSome then 2 else 1]) ∧
      Keeps [.clk, .servo, .par, .host, .pts, .keys, .ring, .fw] s t := by
  have e := execServiceLivenessFail_runs (u := u) (exc := exc) run
  have reported : Keeps [.clk, .host] s ((s.at u).reportException exc) := by
    cases exc with
    | none => exact State.at_keeps rfl .refl
    | some c => exact State.raise_keeps rfl (State.at_keeps rfl .refl)
  have sound : Sound ((s.at u).reportException exc) := by
    cases exc with
    | none => exact State.at_sound snd
    | some c => exact State.raise_sound (State.at_sound snd)
  generalize (s.at u).reportException exc = x at e reported sound
  have cold := State.coldService_cold sound
  generalize x.coldService = y at e cold
  have fw : y.fw = s.fw := cold.fw.trans (reported.fw rfl)
  have par : x.par = s.par := reported.par rfl
  have before : Keeps [.clk, .servo, .par, .host, .pts, .keys, .ring] s y := cold.keeps.then rfl (reported.mono rfl)
  have handing : y.handingOver = s.handingOver := by
    unfold State.handingOver
    rw [fw]
  cases tr : s.fw.trial with
  | true =>
    have now : y.afterFailure exc = y.fallBack (if exc.isSome then 2 else 1) 0 0 := if_pos (by rw [fw]; exact tr)
    have back := State.fallBack_falls (s := y) (cause := if exc.isSome then 2 else 1) (a := 0) (b := 0) cold.events
    rw [now] at e
    refine ⟨_, e, back.held.trans cold.held, back.batch.trans cold.batch, (congrArg Keys.queue (back.keeps.keys rfl)).trans cold.queue,
      fun p l => (congrArg Outlet.v2g (State.outOf_congr (back.keeps.pts rfl))).trans (cold.links p l), fun no => absurd no (by decide),
      fun _ => ⟨back.trial, back.active.trans (congrArg (fun f : Firmware => 1 - f.active) fw),
        back.stored.trans (cold.old.trans (congrArg ParamStore.oldCopy par)), ?_⟩, back.keeps.then rfl (before.mono rfl)⟩
    have r := back.report
    cases exc <;> exact r
  | false =>
    have kept : y.afterFailure exc = if y.handingOver then y.notTaken else y := if_neg (by rw [fw, tr]; decide)
    rw [kept] at e
    have calm : Calm y (if y.handingOver then y.notTaken else y) := .ite State.notTaken_calm .refl
    have after : Keeps [.clk, .host, .fw] y (if y.handingOver then y.notTaken else y) := .ite (State.notTaken_keeps rfl .refl) .refl
    have store : (if y.handingOver then y.notTaken else y).par = y.par := after.par rfl
    have active : (if y.handingOver then y.notTaken else y).fw.active = s.fw.active := by
      split
      · unfold State.notTaken
        split
        · exact (congrArg Firmware.active fw :)
        · exact (congrArg Firmware.active fw :)
      · exact congrArg Firmware.active fw
    refine ⟨_, e, (congrArg HostPort.held calm.space :).trans cold.held, (congrArg ParamStore.batch store).trans cold.batch,
      (congrArg Keys.queue (after.keys rfl)).trans cold.queue,
      fun p l => (congrArg Outlet.v2g (State.outOf_congr (after.pts rfl))).trans (cold.links p l),
      fun _ => ⟨(congrArg ParamStore.stored store).trans (cold.stored.trans (congrArg ParamStore.stored par)), active, fun no => ?_,
        fun g yes st => ?_⟩, fun no => absurd no (by decide), after.then rfl (before.mono rfl)⟩
    · rw [if_neg (by rw [handing, no]; decide)]
      exact fw
    · rw [if_pos (handing.trans yes)]
      obtain ⟨left, raised⟩ := State.notTaken_staged cold.events ((congrArg Firmware.stage fw).trans st)
      rw [fw] at left raised
      exact ⟨left, raised⟩

/-! ### Attestations -/

theorem State.attestEvent_raised {s : State} {kind cls pt gen tag : Nat} (n : s.host.events.length = 64) :
    Raised (s.attestEvent kind cls pt gen tag) 50 [byteOf kind, byteOf cls, byteOf pt, 0] :=
  State.raise_raised n (by decide) (by simp) (by simp)

/-- The first attestation request taken from its queue. -/
def State.takeAttest (s : State) (rest : List AttReq) : State := s.modKeys (fun k => { k with queue := rest })

/-- A signed statement held, with the newest three before it (log 31). -/
def State.holdStatement (s : State) (tag : Nat) (b : Bytes) : State := s.modKeys (fun k => { k with ready := ((tag, b) :: k.ready).take 4 })

theorem execAttestationComplete_signs {s : State} {u signer d : Nat} {q : AttReq} {rest : List AttReq} (e : s.keys.queue = q :: rest)
    (own : s.privKey 1 0 s.keys.node.gen = some signer) (key : s.privKey q.cls q.pt (s.keyState q.cls q.pt).gen = some d)
    (valid : s.keys.node.invalid = false) (stands : s.keys.regenFail = false) : execAttestationComplete u s = .next
      ((((s.at u).takeAttest rest).holdStatement q.tag (statement 0 q.cls q.pt (s.keyState q.cls q.pt).gen s.nodeId q.nonce s.frm 0
        (3 + 4 * b2n (s.keyState q.cls q.pt).invalid + 8 * b2n (s.pb ND_LIFECYCLE)) (publicField q.cls d) 1 0xFF s.keys.node.gen
        signer)).attestEvent 0 q.cls q.pt (s.keyState q.cls q.pt).gen q.tag) := by
  have h : (s.at u).keys.queue = q :: rest := e
  have h1 : ((s.at u).takeAttest rest).privKey 1 0 ((s.at u).takeAttest rest).keys.node.gen = some signer := own
  have h2 : ((s.at u).takeAttest rest).privKey q.cls q.pt (((s.at u).takeAttest rest).keyState q.cls q.pt).gen = some d := key
  have good : ¬ ((((s.at u).takeAttest rest).keys.node.invalid || ((s.at u).takeAttest rest).keys.regenFail) = true) := by
    show ¬ ((s.keys.node.invalid || s.keys.regenFail) = true)
    rw [valid, stands]
    decide
  unfold State.takeAttest at h1 h2 good
  unfold execAttestationComplete
  dsimp only
  rw [h]
  dsimp only
  rw [h1, h2]
  exact if_neg good

theorem execAttestationComplete_fails {s : State} {u : Nat} {q : AttReq} {rest : List AttReq} (e : s.keys.queue = q :: rest)
    (bad : s.keys.root = none ∨ s.keys.node.invalid = true ∨ s.keys.regenFail = true) : execAttestationComplete u s = .next
      (((s.at u).takeAttest rest).attestEvent 2 q.cls q.pt (s.keyState q.cls q.pt).gen q.tag) := by
  have h : (s.at u).keys.queue = q :: rest := e
  unfold execAttestationComplete
  dsimp only
  rw [h]
  dsimp only
  split
  · next own key =>
    have no : s.keys.root ≠ none := by
      intro none'
      unfold State.privKey at own
      rw [show ((s.at u).modKeys (fun k => { k with queue := rest })).keys.root = none from none'] at own
      cases own
    have bad' : (s.keys.node.invalid || s.keys.regenFail) = true := by
      rw [Bool.or_eq_true]
      exact bad.resolve_left no
    exact if_pos bad'
  · rfl

end Sys2Proof.Machine

open Sys2Proof Sys2Proof.Machine

/-- Settles O36: the staging, the handover, the trial and the attestations, each by the law of what it leaves. -/
theorem firmwareAndAttestationEventsComplete : Obligations.FirmwareAndAttestationEventsComplete := by
  intro s u snd
  have atKeeps : Keeps [.clk, .fw] s (s.at u) := State.at_keeps rfl .refl
  refine ⟨fun g e st => ?stage, fun d e => ⟨fun le => ?ready, fun g st le => ?gone⟩, fun d tr e le no => ?confirm,
    fun exc run => ?failure, fun q rest e => ⟨fun root valid stands => ?signs, fun bad => ?fails⟩⟩
  case stage =>
    obtain ⟨old, new', frame, run⟩ := execFwStageVerified_staged (u := u) e st
    have raised := State.fwEvent_raised (s := s.at u) (ev := 51) (kind := g.kind) (outcome := s.stageOutcome (builtKind g.kind) g.built) (cause := 0)
      (slot := s.stagedSlot (builtKind g.kind)) (old := old) (new := new') (frame := frame) (pause := 0) (layout := 0) (idx := g.logIdx)
      snd.host.queues (by decide)
    have event : Keeps [.host] (s.at u) ((s.at u).fwEvent 51 g.kind (s.stageOutcome (builtKind g.kind) g.built) 0
      (s.stagedSlot (builtKind g.kind)) old new' frame 0 0 g.logIdx) := State.fwEvent_keeps rfl .refl
    generalize (s.at u).fwEvent 51 g.kind (s.stageOutcome (builtKind g.kind) g.built) 0 (s.stagedSlot (builtKind g.kind)) old new' frame 0 0
      g.logIdx = y at run raised event
    have fw : y.fw = s.fw := event.fw rfl
    have judged := State.noteStaged_judged (s := y) (g := g) (out := s.stageOutcome (builtKind g.kind) g.built)
      (slot := s.stagedSlot (builtKind g.kind)) (image := s.stagedImage g)
    refine ⟨_, run, .congr judged.host raised, fun ok => ⟨judged.stage.trans (if_pos ok), fun service full => ?_⟩,
      fun bad => ⟨judged.stage.trans (if_neg bad), fun low => ?_, fun high => ?_⟩, judged.active.trans (congrArg Firmware.active fw),
      judged.legal.trans (congrArg Firmware.legal fw), (judged.keeps.then rfl (event.then rfl (State.at_keeps rfl .refl)))⟩
    · have low : s.stagedSlot (builtKind g.kind) < 2 := by
        rw [service]
        exact Nat.lt_of_le_of_lt (Nat.sub_le 1 _) (by decide)
      have image : s.stagedImage g = imageInfo g.built := if_neg (by rw [service]; decide)
      have full' : y.fw.svc.length = 2 := (congrArg (fun f : Firmware => f.svc.length) fw).trans full
      unfold State.svcSlot
      rw [State.noteStaged_slot low, ok, image, service, getD_upd_eq (full'.symm ▸ Nat.mod_lt _ (by decide))]
      rfl
    · unfold State.svcSlot
      rw [State.noteStaged_slot low, if_neg bad]
      exact emptied_slot
    · unfold State.legalSlot
      rw [State.noteStaged_legal high, if_neg bad]
      exact emptied_slot
  case ready => exact ⟨_, execStandbyReady_inTime e le, rfl, State.modFw_keeps rfl atKeeps⟩
  case gone =>
    obtain ⟨fw, raised⟩ := State.notTaken_staged (s := s.at u) snd.host.queues st
    exact ⟨_, execHandoverBootTimeout_due e le, fw, raised, State.notTaken_keeps rfl (State.at_keeps rfl .refl)⟩
  case confirm => exact ⟨_, execFwConfirmTimeout_due tr e le no, rfl, State.modFw_keeps rfl atKeeps⟩
  case failure => exact execServiceLivenessFail_leaves snd run
  case signs =>
    obtain ⟨r, root'⟩ := Option.ne_none_iff_exists'.mp root
    have key : ∀ cls p gen, s.privKey cls p gen = some (deriveKey r cls p gen) := by
      intro cls p gen
      unfold State.privKey
      rw [root']
    exact ⟨_, _, _, execAttestationComplete_signs e (key _ _ _) (key _ _ _) valid stands, rfl, key _ _ _, key _ _ _, rfl,
      State.attestEvent_raised snd.host.queues, State.attestEvent_keeps rfl (State.modKeys_keeps rfl (State.modKeys_keeps rfl
        (State.at_keeps rfl .refl)))⟩
  case fails =>
    exact ⟨_, execAttestationComplete_fails e bad, rfl, State.attestEvent_raised snd.host.queues,
      State.attestEvent_keeps rfl (State.modKeys_keeps rfl (State.at_keeps rfl .refl))⟩
end

section
/-!
The frame counter loaded and stepped, and the crossings and their prediction (02 R42; 03 R72–R75, R78, R79).
-/

namespace Sys2Proof.Machine

/-! ### A source lost -/

theorem State.raiseRaw_spares {s : State} {ev e : Nat} {b : Bytes} (ne : ev ≠ e) : Spares ev s (s.raiseRaw e b) :=
  ⟨getD_upd_ne (Ne.symm ne), State.addDetail_pend ne, rfl⟩

theorem State.timeEvent_raised {s : State} {ev source port sender : Nat} {old new : ServoState} {o : Int} {gm : Nat}
    (n : s.host.events.length = 64) (l : ev < 64) : Raised (s.timeEvent ev old new source port sender o gm) ev
      [byteOf (servoCode old), byteOf (servoCode new), byteOf source, byteOf port] :=
  State.addDetail_raised n l (prefix_padTo (by simp) (by simp))

theorem State.timeEvent_fault_raised {s : State} {ev source port sender cls node detail : Nat} {old new : ServoState} {o : Int} {gm : Nat}
    (n : s.host.events.length = 64) (l : ev < 64) : Raised ((s.timeEvent ev old new source port sender o gm).queueFault cls node detail) ev
      [byteOf (servoCode old), byteOf (servoCode new), byteOf source, byteOf port] :=
  let r := State.timeEvent_raised (s := s) (old := old) (new := new) (source := source) (port := port) (sender := sender) (o := o) (gm := gm) n l
  ⟨r.newest, r.pending⟩

/-- The servo in holdover: the offset and the instant at which it began. -/
def State.heldServo (s : State) : Servo :=
  { s.servo.clearRuns with
    state := .holdover, e0 := s.servo.offset, f0 := s.free, holdAt := s.clk.up, source := 0, port := 255, sender := 0, trim := 0 }

theorem State.enterHoldover_raised {s : State} (n : s.host.events.length = 64) : Raised s.enterHoldover 10
    [byteOf (servoCode s.servo.state), byteOf (servoCode .holdover), byteOf s.servo.source, byteOf s.servo.port] := by
  have raised := State.timeEvent_fault_raised (s := (s.modServo fun _ => s.heldServo).bump) (ev := 10) (old := s.servo.state) (new := .holdover)
    (source := s.servo.source) (port := s.servo.port) (sender := s.servo.sender) (o := s.servo.offset) (gm := s.servo.gm) (cls := 5)
    (node := if s.servo.source = 1 then Config.clockNode s.servo.gm else 0xFFF) (detail := 0) n (by decide)
  exact raised

theorem State.enterHoldover_spares {s : State} {ev : Nat} (ne : ev ≠ 10) : Spares ev s s.enterHoldover := by
  have told : ∀ (x : State) a b c d e f g h i j, Spares ev x ((x.timeEvent 10 a b c d e f g).queueFault h i j) := fun _ _ _ _ _ _ _ _ _ _ _ =>
    (State.raiseRaw_spares ne).trans (.of_eq rfl)
  exact Spares.trans (x := (s.modServo fun _ => s.heldServo).bump) (.of_eq rfl) (told _ _ _ _ _ _ _ _ _ _ _)

theorem State.loseSource_other {s : State} {k : Nat} (ne : s.servo.source ≠ k) : s.loseSource k = s := if_pos ne

theorem State.loseSource_locked {s : State} {k : Nat} (e : s.servo.source = k) (st : s.servo.state = .locked ∨ s.servo.state = .mains) :
    s.loseSource k = s.enterHoldover := by
  unfold State.loseSource
  rw [if_neg fun ne => ne e]
  rcases st with st | st <;> rw [st]

theorem State.loseSource_spares {s : State} {k ev : Nat} (ne : ev ≠ 10) : Spares ev s (s.loseSource k) := by
  unfold State.loseSource
  split
  · exact .refl
  · split
    · exact State.enterHoldover_spares ne
    · exact State.enterHoldover_spares ne
    · exact .ite (State.enterHoldover_spares ne) .refl
    · exact .refl

/-- A loss of a source leaves what it does not concern of the servo. -/
theorem State.loseSource_leaves {α : Type} {s : State} {k : Nat} (g : Servo → α) (e : g s.heldServo = g s.servo) :
    g (s.loseSource k).servo = g s.servo := by
  unfold State.loseSource
  split
  · rfl
  · split
    · exact e
    · exact e
    · split
      · exact e
      · rfl
    · rfl

/-! ### The frame counter -/

theorem execFrameCounterLoad_ready {s : State} {u : Nat} (l : s.clk.loaded = false) (r : s.servo.loadReady = true) (b : s.frm % 4000 = 0)
    (a : s.servo.state = .acquiring) : execFrameCounterLoad u s = .next
      ((((s.at u).jumpTo (nearestFrame s.frm (localOffset s.servo.source (s.servo.recent.headD 0))).1).modClk (fun c => { c with
        loaded := true })).modServo (fun v => { v.clearRuns with
          loadReady := false, recent := [], slew := (nearestFrame s.frm (localOffset s.servo.source (s.servo.recent.headD 0))).2, trim := 0
          offset := localOffset v.source (nearestFrame s.frm (localOffset s.servo.source (s.servo.recent.headD 0))).2 })) := by
  have go : (!(s.at u).clk.loaded && (s.at u).servo.loadReady && (s.at u).frm % 4000 == 0 && (s.at u).servo.state == .acquiring) = true := by
    rw [show (s.at u).clk.loaded = false from l, show (s.at u).servo.loadReady = true from r, show (s.at u).frm % 4000 = 0 from b,
      show (s.at u).servo.state = .acquiring from a]
    rfl
  exact if_pos go

theorem execTimeStepApply_due {s : State} {u due : Nat} {off : Int} (e : s.servo.step = some (off, due)) (le : due ≤ s.clk.lastTick)
    (b : s.frm % 4000 = 0) : execTimeStepApply u s = .next
      ((((s.at u).jumpTo (nearestFrame s.frm off).1).modClk (fun c => { c with stepped := true })).modServo (fun v => { v with
        step := none, slew := (nearestFrame s.frm off).2, trim := 0, offset := localOffset v.source (nearestFrame s.frm off).2 })) := by
  have h : (s.at u).servo.step = some (off, due) := e
  unfold execTimeStepApply
  dsimp only
  rw [h]
  exact if_pos ⟨le, b⟩

/-! ### Crossings -/

/-- The oldest crossing found taken. -/
def State.takeCrossing (s : State) (rest : List Nat) : State := s.modServo (fun v => { v with zcFound := rest })

theorem execZeroCrossing_found {s : State} {u x : Nat} {rest : List Nat} (e : s.servo.zcFound = x :: rest) : execZeroCrossing u x s = .next
    (((s.at u).takeCrossing rest).judgeCrossing (((x : Int) + s.test.eff.zc).toNat)) := by
  have h : (s.at u).servo.zcFound = x :: rest := e
  unfold execZeroCrossing
  dsimp only
  rw [h]
  exact if_pos rfl

/-- The judgement of a crossing of a valid reference, with its prediction (R74). -/
theorem State.judgeCrossing_valid {s : State} {x pred : Nat} (v : s.servo.zc = .valid) (p : s.zcPredict = some pred) : s.judgeCrossing x =
    if ((x : Int) - pred).natAbs ≤ 200000 then s.modServo (fun v => { v with
      zcPeriods := ((x - v.zcLast.getD x) :: v.zcPeriods).take 8, zcLast := some x, zcRejects := 0 })
    else if 2 * (x : Int) < 2 * pred - s.meanPeriod then s else s.zcReject pred ((x : Int) - pred) := by
  unfold State.judgeCrossing
  rw [v, p]

/-- The judgement of a crossing before the reference is valid (R73). -/
theorem State.judgeCrossing_early {s : State} {x : Nat} (v : s.servo.zc ≠ .valid) : s.judgeCrossing x =
    match s.servo.zcLast with
    | none => s.modServo (fun v => { v with zc := .lost, zcLast := some x, zcPeriods := [] })
    | some l =>
      let good := if periodsAgree ((x - l) :: s.servo.zcPeriods) then (x - l) :: s.servo.zcPeriods else if periodsAgree [x - l] then [x - l] else []
      s.modServo (fun v => { v with
        zc := if good.length = 8 then .valid else .lost, zcLast := some x, zcPeriods := good, zcRejects := 0 }) := by
  unfold State.judgeCrossing
  split
  · next a _ => exact absurd a v
  · rfl

theorem State.zcReject_early {s : State} {pred : Nat} {err : Int} (few : s.servo.zcRejects < 24) : s.zcReject pred err =
    s.modServo (fun v => { v with zcLast := some pred, zcRejects := s.servo.zcRejects + 1, zcErr := err }) :=
  if_neg (Nat.not_le.mpr (Nat.succ_lt_succ few))

/-- A reference lost by its 25th reject. -/
structure CrossingLost (s x : State) : Prop where
  zc : x.servo.zc = .lost
  last : x.servo.zcLast = none
  report : Raised x 12 [byteOf (servoCode s.servo.state)]
  mains : s.servo.source = 2 → s.servo.state = .mains → x.servo.state = .holdover
  other : s.servo.source ≠ 2 → x.servo.state = s.servo.state
  keeps : Keeps [.clk, .servo, .host, .ring] s x

theorem State.zcReject_loses {s : State} {pred : Nat} {err : Int} (n : s.host.events.length = 64) (many : 24 ≤ s.servo.zcRejects) :
    CrossingLost s (s.zcReject pred err) := by
  have kept : Keeps [.clk, .servo, .host, .ring] s (s.zcReject pred err) := State.zcReject_keeps rfl .refl
  obtain ⟨y, new', e, servo, raised⟩ : ∃ (y : State) (new' : ServoState), s.zcReject pred err = y.loseSource 2 ∧
      y.servo = { s.servo with zc := .lost, zcLast := none, zcPeriods := [], zcRejects := 0, zcErr := err } ∧
      Raised y 12 [byteOf (servoCode s.servo.state), byteOf (servoCode new'), byteOf 3, byteOf 255] :=
    ⟨_, _, if_pos (Nat.succ_le_succ many), rfl, State.timeEvent_fault_raised (s := s.modServo (fun v => { v with
      zc := .lost, zcLast := none, zcPeriods := [], zcRejects := 0, zcErr := err })) n (by decide)⟩
  have source : y.servo.source = s.servo.source := by rw [servo]
  have state : y.servo.state = s.servo.state := by rw [servo]
  have zc : y.servo.zc = .lost := by rw [servo]
  have last : y.servo.zcLast = none := by rw [servo]
  rw [e] at kept ⊢
  refine ⟨(State.loseSource_leaves Servo.zc rfl).trans zc, (State.loseSource_leaves Servo.zcLast rfl).trans last,
    .spared ⟨?_, raised.pending⟩ (State.loseSource_spares (by decide)), fun a b => ?_, fun a => ?_, kept⟩
  · have := congrArg (List.take 1) raised.newest
    rw [List.take_take] at this
    exact this
  · rw [State.loseSource_locked (source.trans a) (.inr (state.trans b))]
    rfl
  · rw [State.loseSource_other (fun e => a (source.symm.trans e))]
    exact state

theorem execZcPredictionTimeout_missed {s : State} {u pred : Nat} (st : 3 ≤ s.pwr.stage) (f : s.servo.zcFound = []) (v : s.servo.zc = .valid)
    (p : s.zcPredict = some pred) (late : pred + 200000 + crossingLag < (s.at u).nodeNow) : execZcPredictionTimeout u s = .next
      ((s.at u).zcReject pred s.servo.zcErr) := by
  have h1 : (s.at u).servo.zc = .valid := v
  have h2 : (s.at u).zcPredict = some pred := p
  unfold execZcPredictionTimeout
  dsimp only
  rw [h1, h2]
  exact if_pos ⟨st, f, late⟩

end Sys2Proof.Machine

open Sys2Proof Sys2Proof.Machine

/-- Settles O27: the counter by its jump, the crossings by the judgement's cases. -/
theorem frameCounterAndCrossingEventsComplete : Obligations.FrameCounterAndCrossingEventsComplete := by
  intro s u snd
  refine ⟨fun l r b a => ?load, fun off due e le b => ?step, fun x rest e => ?crossing, fun pred st f v p late => ?missed⟩
  case load =>
    have e := execFrameCounterLoad_ready (u := u) l r b a
    exact ⟨_, e, rfl, rfl, rfl, a, rfl, State.modServo_keeps rfl (State.modClk_keeps rfl (State.jumpTo_keeps rfl (State.at_keeps rfl .refl)))⟩
  case step =>
    have t := execTimeStepApply_due (u := u) e le b
    exact ⟨_, t, rfl, rfl, rfl, rfl, State.modServo_keeps rfl (State.modClk_keeps rfl (State.jumpTo_keeps rfl (State.at_keeps rfl .refl)))⟩
  case crossing =>
    have t := execZeroCrossing_found (u := u) e
    have before : Keeps [.clk, .servo] s ((s.at u).takeCrossing rest) := State.modServo_keeps rfl (State.at_keeps rfl .refl)
    have period : ((s.at u).takeCrossing rest).meanPeriod = s.meanPeriod := rfl
    refine ⟨fun pred v p => ⟨fun close => ?_, fun far after few => ?_⟩, fun v no => ?_, fun l v last seven agree => ?_⟩
    · rw [State.judgeCrossing_valid (s := (s.at u).takeCrossing rest) v p, if_pos close] at t
      exact ⟨_, t, v, rfl, rfl, rfl, rfl, State.modServo_keeps rfl before⟩
    · rw [State.judgeCrossing_valid (s := (s.at u).takeCrossing rest) v p, if_neg (Nat.not_le.mpr far), if_neg (by rw [period]; omega),
        State.zcReject_early (s := (s.at u).takeCrossing rest) few] at t
      exact ⟨_, t, rfl, State.modServo_keeps rfl before⟩
    · rw [State.judgeCrossing_early (s := (s.at u).takeCrossing rest) v, show ((s.at u).takeCrossing rest).servo.zcLast = none from no] at t
      exact ⟨_, t, rfl, rfl, rfl, rfl, State.modServo_keeps rfl before⟩
    · rw [State.judgeCrossing_early (s := (s.at u).takeCrossing rest) v, show ((s.at u).takeCrossing rest).servo.zcLast = some l from last] at t
      dsimp only at t
      rw [if_pos (show periodsAgree ((_ - l) :: ((s.at u).takeCrossing rest).servo.zcPeriods) = true from agree),
        if_pos (show (_ :: ((s.at u).takeCrossing rest).servo.zcPeriods).length = 8 from congrArg Nat.succ seven)] at t
      exact ⟨_, t, rfl, rfl, rfl, State.modServo_keeps rfl before⟩
  case missed =>
    have t := execZcPredictionTimeout_missed (u := u) st f v p late
    refine ⟨fun few => ?_, fun many => ?_⟩
    · rw [State.zcReject_early (s := s.at u) few] at t
      exact ⟨_, t, rfl, State.modServo_keeps rfl (State.at_keeps rfl .refl)⟩
    · have lost := State.zcReject_loses (s := s.at u) (pred := pred) (err := s.servo.zcErr) snd.host.queues many
      exact ⟨_, t, lost.zc, lost.last, lost.report, lost.mains, lost.other, lost.keeps.then rfl (State.at_keeps rfl .refl)⟩
end

section
/-!
Frames on the ring, its links, its tests and its notices (17 R400, R401, R411, R412).
-/

namespace Sys2Proof.Machine

/-! ### The two line ports, and what is sent -/

theorem line_cases {p : Nat} (l : p < 2) : p = 0 ∨ p = 1 := by omega

/-- Frames on line ports alone leave at once, and the mains queue is as it was. -/
theorem State.sendOn_lines {s : State} {ports : List Nat} {prio : Nat} {b : Bytes} (l : ∀ q ∈ ports, q < 2) :
    (s.sendOn ports prio b).ring = { s.ring with sent := ports.map fun q => (q, prio, b) } := by
  have lines : ports.filter (· < 2) = ports := List.filter_eq_self.mpr fun q m => decide_eq_true (l q m)
  have mains : ports.filter (2 ≤ ·) = [] := List.filter_eq_nil_iff.mpr fun q m => by simpa using l q m
  unfold State.sendOn State.modRing
  dsimp only
  rw [lines, mains]
  simp

theorem State.ringPorts_other {s : State} {p : Nat} (l : p < 2) (m : s.ring.manager = false) (r : s.lineRole (1 - p) ≠ 0)
    (up : s.lineUp (1 - p) = true) : s.ringPorts p = [1 - p] := by
  unfold State.ringPorts
  rcases line_cases l with rfl | rfl <;> simp_all

theorem State.topology_raised {s : State} {cause port nbr : Nat} (n : s.host.events.length = 64) :
    Raised (s.topology cause port nbr) 13 [byteOf cause, byteOf port] :=
  State.raise_raised n (by decide) (by simp) (by simp)

theorem State.rediscover_ring {s : State} {a : Nat} :
    (s.rediscover a).ring = { s.ring with discDue := if s.ring.isRoot = true then some (s.clk.up + a) else s.ring.discDue } := by
  unfold State.rediscover
  split
  · rfl
  · rfl

theorem State.rediscover_keepsRing {s : State} {a : Nat} : Keeps [.ring] s (s.rediscover a) := State.rediscover_keeps rfl .refl

/-- The manager's closing port opened, with the flush sent and the report made (R411). -/
structure Healed (s x : State) : Prop where
  opened : x.ring.closingBlocked = false
  forgotten : x.ring.learned = []
  flushed : ∀ q, q < 2 → x.lineOpen q = true → (q, 5, Config.ringFrame 2) ∈ x.ring.sent
  due : x.ring.discDue = s.ring.discDue
  report : Raised x 13 [3, byteOf s.ring.closing]
  keeps : Keeps [.host, .ring] s x

theorem State.heal_heals {s : State} (n : s.host.events.length = 64) (m : s.ring.manager = true) (b : s.ring.closingBlocked = true) :
    Healed s s.heal := by
  have kept : Keeps [.host, .ring] s s.heal := State.heal_keeps rfl .refl
  have go : (s.ring.manager && s.ring.closingBlocked) = true := by rw [m, b]; rfl
  have e : s.heal = _ := if_pos go
  rw [e] at kept ⊢
  refine ⟨rfl, rfl, fun q l o => ?_, rfl, State.topology_raised n, kept⟩
  have line : q ∈ [0, 1] := by rcases line_cases l with rfl | rfl <;> simp
  exact List.mem_map.mpr ⟨q, List.mem_filter.mpr ⟨List.mem_filter.mpr ⟨line, o⟩, decide_eq_true l⟩, rfl⟩

/-- The closing port blocked again, 1 ms after the first of a run of tests (R411). -/
structure Closed (s x : State) : Prop where
  closed : x.ring.closingBlocked = true
  seen : x.ring.testSeen = some s.clk.up
  report : Raised x 13 [4, byteOf s.ring.closing]
  keeps : Keeps [.host, .ring] s x

theorem State.seeTest_closes {s : State} {d : Nat} (n : s.host.events.length = 64) (m : s.ring.manager = true)
    (b : s.ring.closingBlocked = false) (since : s.ring.testsFrom = some d) (le : d + 1000000 ≤ s.clk.up) : Closed s s.seeTest := by
  have kept : Keeps [.host, .ring] s s.seeTest := State.seeTest_keeps rfl .refl
  have e : s.seeTest = _ := (if_pos m).trans (if_pos ⟨b, by rw [since]; exact le⟩)
  rw [e] at kept ⊢
  exact ⟨rfl, rfl, State.topology_raised n, kept⟩

/-! ### A frame received -/

theorem usable_line {s : State} {p : Nat} (l : p < 2) (r : s.lineRole p ≠ 0) (up : s.lineUp p = true) :
    (if p < 2 then (s.lineRole p != 0 && s.lineUp p) else p < 4 && (s.pn ND_PLC_MAINS).testBit (p - 2)) = true := by
  rw [if_pos l, up]
  simpa using r

theorem execYudaixFrameReceived_down {s : State} {u : Nat} {f : YuFrame} (l : f.port < 2) (up : s.lineUp f.port = false) :
    execYudaixFrameReceived u f s = .next (s.at u) := by
  refine if_pos ?_
  rw [if_pos l, show (s.at u).lineUp f.port = false from up]
  simp

/-- A frame of a port that receives. -/
theorem execYudaixFrameReceived_line {s : State} {u : Nat} {f : YuFrame} (l : f.port < 2) (r : s.lineRole f.port ≠ 0)
    (up : s.lineUp f.port = true) : execYudaixFrameReceived u f s =
      if f.kind = 1 ∧ f.port < 2 then .next (if (s.at u).ring.manager then (s.at u).seeTest else (s.at u).sendOn ((s.at u).ringPorts f.port) 5 f.bytes)
      else
        let s := if f.kind = 2 then (s.at u).modRing (fun r => { r with lkaBlocked := false, lkbBlocked := false }) else s.at u
        if f.kind = 2 ∧ f.port < 2 then .next (if s.ring.manager then s else s.sendOn (s.ringPorts f.port) 5 f.bytes)
        else if f.port < 2 ∧ s.lineOpen f.port = false then .next s
        else
          let s := s.modRing (fun r => { r with learned := (r.learned.filter (fun e => e.1 != f.src)) ++ [(f.src, f.port)] })
          .next (if f.mine then s else s.sendOn (s.otherPorts f.port f.dst) f.prio f.bytes) :=
  if_neg (by rw [usable_line (s := s.at u) l r up]; decide)

/-- An ordinary frame's source learned. -/
def State.learn (s : State) (f : YuFrame) : State :=
  s.modRing fun r => { r with learned := r.learned.filter (fun e => e.1 != f.src) ++ [(f.src, f.port)] }

theorem execYudaixFrameReceived_plain {s : State} {u : Nat} {f : YuFrame} (l : f.port < 2) (r : s.lineRole f.port ≠ 0) (up : s.lineUp f.port = true)
    (k : f.kind = 0) (o : s.lineOpen f.port = true) : execYudaixFrameReceived u f s = .next
      (if f.mine then (s.at u).learn f else ((s.at u).learn f).sendOn (((s.at u).learn f).otherPorts f.port f.dst) f.prio f.bytes) := by
  have not1 : ¬ (f.kind = 1 ∧ f.port < 2) := by omega
  have not2 : f.kind ≠ 2 := by omega
  have o' : (s.at u).lineOpen f.port = true := o
  rw [execYudaixFrameReceived_line l r up, if_neg not1, if_neg not2]
  dsimp only
  rw [if_neg fun a => not2 a.1, if_neg fun a => by rw [o'] at a; exact absurd a.2 (by decide)]
  rfl

theorem execYudaixFrameReceived_test {s : State} {u : Nat} {f : YuFrame} (l : f.port < 2) (r : s.lineRole f.port ≠ 0) (up : s.lineUp f.port = true)
    (k : f.kind = 1) : execYudaixFrameReceived u f s = .next
      (if (s.at u).ring.manager then (s.at u).seeTest else (s.at u).sendOn ((s.at u).ringPorts f.port) 5 f.bytes) := by
  rw [execYudaixFrameReceived_line l r up, if_pos ⟨k, l⟩]

/-- The two line ports unblocked (R411). -/
def State.unblocked (s : State) : State := s.modRing fun r => { r with lkaBlocked := false, lkbBlocked := false }

theorem execYudaixFrameReceived_restored {s : State} {u : Nat} {f : YuFrame} (l : f.port < 2) (r : s.lineRole f.port ≠ 0)
    (up : s.lineUp f.port = true) (k : f.kind = 2) : execYudaixFrameReceived u f s = .next
      (if s.ring.manager then (s.at u).unblocked else (s.at u).unblocked.sendOn ((s.at u).unblocked.ringPorts f.port) 5 f.bytes) := by
  rw [execYudaixFrameReceived_line l r up, if_neg fun a => absurd (k.symm.trans a.1) (by decide)]
  dsimp only
  rw [if_pos ⟨k, l⟩, if_pos k]
  rfl

/-- What a forwarded frame is sent on: every other open line port, and never its own. -/
theorem State.otherPorts_lines {s : State} {p dst q : Nat} (l : q < 2) : q ∈ s.otherPorts p dst ↔ q ≠ p ∧ s.lineOpen q = true := by
  unfold State.otherPorts
  have lines : q ∈ [0, 1] := by rcases line_cases l with rfl | rfl <;> simp
  have low : ∀ (ok : Nat → Bool), q ∉ [2, 3].filter ok := fun ok m => by
    have := (List.mem_filter.mp m).1
    simp at this
    omega
  dsimp only
  rw [List.mem_append]
  constructor
  · rintro (m | m)
    · simpa using (List.mem_filter.mp m).2
    · split at m
      · exact absurd (List.mem_filter.mp m).1 (low _)
      · exact absurd m (low _)
  · rintro ⟨ne, o⟩
    exact .inl (List.mem_filter.mpr ⟨lines, by simp [ne, o]⟩)

theorem State.sendOn_sent {s : State} {ports : List Nat} {prio q : Nat} {b : Bytes} (l : q < 2) (m : q ∈ ports) :
    (q, prio, b) ∈ (s.sendOn ports prio b).ring.sent :=
  List.mem_map.mpr ⟨q, List.mem_filter.mpr ⟨m, decide_eq_true l⟩, rfl⟩

theorem State.sendOn_only {s : State} {ports : List Nat} {prio : Nat} {b : Bytes} {x : Nat × Nat × Bytes}
    (m : x ∈ (s.sendOn ports prio b).ring.sent) : x.1 < 2 ∧ x.1 ∈ ports := by
  obtain ⟨q, h, rfl⟩ := List.mem_map.mp m
  exact ⟨of_decide_eq_true (List.mem_filter.mp h).2, (List.mem_filter.mp h).1⟩

theorem yudaixFrame_plain {s : State} {u : Nat} {f : YuFrame} (l : f.port < 2) (r : s.lineRole f.port ≠ 0) (up : s.lineUp f.port = true)
    (k : f.kind = 0) (o : s.lineOpen f.port = true) : ∃ t, execYudaixFrameReceived u f s = .next t ∧
      t.ring.learned = s.ring.learned.filter (fun e => e.1 != f.src) ++ [(f.src, f.port)] ∧
      (f.mine = true → t.ring.sent = s.ring.sent ∧ t.ring.mainsQueue = s.ring.mainsQueue) ∧
      (f.mine = false → (∀ q, q < 2 → q ≠ f.port → s.lineOpen q = true → (q, f.prio, f.bytes) ∈ t.ring.sent) ∧
        ∀ x ∈ t.ring.sent, x.1 ≠ f.port) ∧ Keeps [.clk, .ring] s t := by
  have t := execYudaixFrameReceived_plain (u := u) l r up k o
  have kept : Keeps [.clk, .ring] s ((s.at u).learn f) := State.modRing_keeps rfl (State.at_keeps rfl .refl)
  by_cases mine : f.mine = true
  · rw [if_pos mine] at t
    exact ⟨_, t, rfl, fun _ => ⟨rfl, rfl⟩, fun no => absurd (no.symm.trans mine) (by decide), kept⟩
  · rw [if_neg mine] at t
    refine ⟨_, t, rfl, fun yes => absurd yes mine, fun _ => ⟨fun q lq ne oq => State.sendOn_sent lq ((State.otherPorts_lines lq).mpr ⟨ne, oq⟩),
      fun x m => ?_⟩, State.sendOn_keeps rfl kept⟩
    obtain ⟨lx, mx⟩ := State.sendOn_only m
    exact ((State.otherPorts_lines lx).mp mx).1

theorem yudaixFrame_restored {s : State} {u : Nat} {f : YuFrame} (l : f.port < 2) (r : s.lineRole f.port ≠ 0) (up : s.lineUp f.port = true)
    (k : f.kind = 2) : ∃ t, execYudaixFrameReceived u f s = .next t ∧ t.ring.lkaBlocked = false ∧ t.ring.lkbBlocked = false ∧
      t.ring.learned = s.ring.learned ∧ Keeps [.clk, .ring] s t := by
  have t := execYudaixFrameReceived_restored (u := u) l r up k
  have kept : Keeps [.clk, .ring] s (s.at u).unblocked := State.modRing_keeps rfl (State.at_keeps rfl .refl)
  by_cases m : s.ring.manager = true
  · rw [if_pos m] at t
    exact ⟨_, t, rfl, rfl, rfl, kept⟩
  · rw [if_neg m] at t
    exact ⟨_, t, rfl, rfl, rfl, State.sendOn_keeps rfl kept⟩

/-! ### Frames that waited too long -/

theorem mainsFrameTimeout_drops {s : State} {u : Nat} : ∃ t, execMainsFrameTimeout u s = .next t ∧
    t.ring.mainsQueue = s.ring.mainsQueue.filter (fun e => u < e.2.1) ∧
    t.ring.mainsDropped = satAdd 32 s.ring.mainsDropped (s.ring.mainsQueue.length - t.ring.mainsQueue.length) ∧ Keeps [.clk, .ring] s t := by
  have split : (s.ring.mainsQueue.filter fun e => e.2.1 ≤ u).length =
      s.ring.mainsQueue.length - (s.ring.mainsQueue.filter fun e => !decide (e.2.1 ≤ u)).length := by
    rw [List.length_eq_length_filter_add (l := s.ring.mainsQueue) fun e => e.2.1 ≤ u]
    exact (Nat.add_sub_cancel _ _).symm
  refine ⟨_, rfl, List.filter_congr fun e _ => ?_, congrArg (satAdd 32 s.ring.mainsDropped) split, State.modRing_keeps rfl (State.at_keeps rfl .refl)⟩
  rw [← decide_not]
  exact decide_eq_decide.mpr Nat.not_le

/-! ### Links -/

/-- The link of a line port taken down, with its neighbour forgotten. -/
def State.linkLost (s : State) (port : Nat) : State :=
  s.modRing fun r => if port = 0 then { r with lkaUp := false, nbrA := 0 } else { r with lkbUp := false, nbrB := 0 }

/-- The notice sent round a ring. -/
def State.noticeRound (s : State) (port : Nat) : State :=
  if s.ring.inRing then s.sendOn ([1 - port].filter s.lineUp) 5 (Config.ringFrame 0) else s

theorem execLineLinkDown_up {s : State} {u port : Nat} (l : port < 2) (up : s.lineUp port = true) : execLineLinkDown u port s = .next
    ((((((s.at u).linkLost port).noticeRound port).topology 1 port (s.neighbourOn port)).queueFault 1 (s.neighbourOn port) port).rediscover 0) :=
  if_pos ⟨l, up⟩

/-- The link lost, and that alone changes which links are up. -/
theorem State.linkLost_up {s : State} {port : Nat} (l : port < 2) :
    (s.linkLost port).lineUp port = false ∧ (s.linkLost port).lineUp (1 - port) = s.lineUp (1 - port) := by
  rcases line_cases l with rfl | rfl <;> exact ⟨rfl, rfl⟩

/-- Two states whose ring is the same but for reports, notices and the discovery that is due. -/
structure SameLinks (s x : State) : Prop where
  lka : x.ring.lkaUp = s.ring.lkaUp
  lkb : x.ring.lkbUp = s.ring.lkbUp
  sent : x.ring.sent = s.ring.sent
  root : x.ring.isRoot = s.ring.isRoot

theorem SameLinks.lineUp {s x : State} (h : SameLinks s x) (port : Nat) : x.lineUp port = s.lineUp port := by
  unfold State.lineUp
  rw [h.lka, h.lkb]

theorem State.queueFault_links {s : State} {a b c : Nat} : SameLinks s (s.queueFault a b c) := by
  unfold State.queueFault State.modRing
  dsimp only
  split
  · exact ⟨rfl, rfl, rfl, rfl⟩
  · exact ⟨rfl, rfl, rfl, rfl⟩

theorem State.rediscover_links {s : State} {a : Nat} : SameLinks s (s.rediscover a) := by
  refine ⟨?_, ?_, ?_, ?_⟩ <;> rw [State.rediscover_ring]

theorem SameLinks.trans {s x y : State} (h : SameLinks s x) (g : SameLinks x y) : SameLinks s y :=
  ⟨g.lka.trans h.lka, g.lkb.trans h.lkb, g.sent.trans h.sent, g.root.trans h.root⟩

theorem State.noticeRound_up {s : State} {port q : Nat} : (s.noticeRound port).lineUp q = s.lineUp q := by
  unfold State.noticeRound
  split
  · rfl
  · rfl

/-- The link's loss reported, noted for the root, and followed by a discovery. -/
theorem State.linkReport {s : State} {cause port cls node detail nbr : Nat} (n : s.host.events.length = 64) :
    SameLinks s (((s.topology cause port nbr).queueFault cls node detail).rediscover 0) ∧
    Raised (((s.topology cause port nbr).queueFault cls node detail).rediscover 0) 13 [byteOf cause, byteOf port] ∧
    (s.ring.isRoot = true → (((s.topology cause port nbr).queueFault cls node detail).rediscover 0).ring.discDue = some s.clk.up) := by
  have told : SameLinks s ((s.topology cause port nbr).queueFault cls node detail) :=
    .trans (x := s.topology cause port nbr) ⟨rfl, rfl, rfl, rfl⟩ State.queueFault_links
  have same : Keeps [.ring] (s.topology cause port nbr) (((s.topology cause port nbr).queueFault cls node detail).rediscover 0) :=
    State.rediscover_keeps rfl (State.queueFault_keeps rfl .refl)
  refine ⟨told.trans State.rediscover_links, .congr (same.host rfl) (State.topology_raised n), fun root => ?_⟩
  rw [State.rediscover_ring]
  dsimp only
  rw [if_pos (told.root.trans root)]
  rfl

theorem lineLinkDown_reports {s : State} {u port : Nat} (snd : Sound s) (l : port < 2) (up : s.lineUp port = true) :
    ∃ t, execLineLinkDown u port s = .next t ∧ t.lineUp port = false ∧ t.lineUp (1 - port) = s.lineUp (1 - port) ∧ Raised t 13 [1, byteOf port] ∧
      (s.ring.inRing = true → s.lineUp (1 - port) = true → t.ring.sent = [(1 - port, 5, Config.ringFrame 0)]) ∧
      (s.ring.isRoot = true → t.ring.discDue = some (max s.clk.up u)) ∧ Keeps [.clk, .host, .ring] s t := by
  have t := execLineLinkDown_up (u := u) l up
  have kept := (exec_keeps (.lineLinkDown u port) _ _ t)
  have lost := State.linkLost_up (s := s.at u) l
  have events : (((s.at u).linkLost port).noticeRound port).host.events.length = 64 := by
    have same : Keeps [.ring] (s.at u) (((s.at u).linkLost port).noticeRound port) :=
      Keeps.ite (State.sendOn_keeps rfl (State.modRing_keeps rfl .refl)) (State.modRing_keeps rfl .refl)
    rw [same.host rfl]
    exact snd.host.queues
  obtain ⟨links, report, due⟩ := State.linkReport (cause := 1) (port := port) (cls := 1) (node := s.neighbourOn port) (detail := port)
    (nbr := s.neighbourOn port) events
  refine ⟨_, t, (links.lineUp port).trans (State.noticeRound_up.trans lost.1), (links.lineUp _).trans (State.noticeRound_up.trans lost.2), report,
    fun ring other => links.sent.trans ?_, fun root => (due ?_).trans ?_, kept⟩
  · have inRing : ((s.at u).linkLost port).ring.inRing = true := by rcases line_cases l with rfl | rfl <;> exact ring
    have one : [1 - port].filter ((s.at u).linkLost port).lineUp = [1 - port] := List.filter_eq_self.mpr fun q m => by
      rw [List.mem_singleton.mp m]
      exact lost.2.trans other
    rw [State.noticeRound, if_pos inRing, one, State.sendOn_lines fun q m => by rw [List.mem_singleton.mp m]; omega]
    rfl
  · unfold State.noticeRound
    rcases line_cases l with rfl | rfl <;> split <;> exact root
  · unfold State.noticeRound
    rcases line_cases l with rfl | rfl <;> split <;> rfl

/-- The link of a line port set, blocked in a ring. -/
def State.linkSet (s : State) (port : Nat) : State := s.modRing fun r =>
  if port = 0 then { r with lkaUp := true, lkaBlocked := s.ring.inRing } else { r with lkbUp := true, lkbBlocked := s.ring.inRing }

theorem execLineLinkUp_down {s : State} {u port : Nat} (l : port < 2) (up : s.lineUp port = false) (r : s.lineRole port ≠ 0) :
    execLineLinkUp u port s = .next ((((s.at u).linkSet port).topology 2 port 0).rediscover 0) :=
  if_pos ⟨l, up, r⟩

theorem State.rediscover_open {s : State} {a q : Nat} : (s.rediscover a).lineOpen q = s.lineOpen q := by
  unfold State.rediscover
  split
  · rfl
  · rfl

theorem lineLinkUp_reports {s : State} {u port : Nat} (snd : Sound s) (l : port < 2) (up : s.lineUp port = false) (r : s.lineRole port ≠ 0) :
    ∃ t, execLineLinkUp u port s = .next t ∧ t.lineUp port = true ∧ (s.ring.inRing = true → t.lineOpen port = false) ∧ Raised t 13 [2, byteOf port] ∧
      t.lineUp (1 - port) = s.lineUp (1 - port) ∧ Keeps [.clk, .host, .ring] s t := by
  have t := execLineLinkUp_down (u := u) l up r
  refine ⟨_, t, (State.rediscover_links.lineUp port).trans ?_, fun ring => State.rediscover_open.trans ?_,
    .congr (State.rediscover_keepsRing.host rfl) (State.topology_raised snd.host.queues), (State.rediscover_links.lineUp _).trans ?_,
    exec_keeps (.lineLinkUp u port) _ _ t⟩
  · rcases line_cases l with rfl | rfl <;> rfl
  · have blocked : (if port = 0 then ((s.at u).linkSet port).ring.lkaBlocked else ((s.at u).linkSet port).ring.lkbBlocked) = true := by
      rcases line_cases l with rfl | rfl <;> exact ring
    have o : (((s.at u).linkSet port).topology 2 port 0).lineOpen port = ((s.at u).linkSet port).lineOpen port := rfl
    rw [o]
    unfold State.lineOpen
    dsimp only
    rw [blocked]
    simp
  · rcases line_cases l with rfl | rfl <;> rfl

/-! ### Ring tests, notices and flushes -/

theorem ringTestSend_sends {s : State} {u d : Nat} (h : s.ring.head = true) (up : s.lineUp 0 = true) (due : s.ring.testDue = some d) (le : d ≤ u) :
    ∃ t, execRingTestSend u s = .next t ∧ t.ring.testDue = some (u + 100000) ∧ t.ring.sent = [(0, 5, Config.ringFrame 1)] ∧ Keeps [.clk, .ring] s t := by
  have ripe : ripeAt (s.at u).ring.testDue u = true := by
    rw [show (s.at u).ring.testDue = some d from due]
    exact decide_eq_true le
  have t : execRingTestSend u s = .next (((s.at u).modRing (fun r => { r with testDue := some (u + 100000) })).sendOn
      ([0].filter ((s.at u).modRing (fun r => { r with testDue := some (u + 100000) })).lineUp) 5 (Config.ringFrame 1)) := if_pos ⟨h, ripe⟩
  have one : [0].filter ((s.at u).modRing (fun r => { r with testDue := some (u + 100000) })).lineUp = [0] :=
    List.filter_eq_self.mpr fun q m => by
      rw [List.mem_singleton.mp m]
      exact up
  rw [one] at t
  exact ⟨_, t, rfl, rfl, State.sendOn_keeps rfl (State.modRing_keeps rfl (State.at_keeps rfl .refl))⟩

theorem ringTestMissing_heals {s : State} {u d : Nat} (snd : Sound s) (m : s.ring.manager = true) (b : s.ring.closingBlocked = true)
    (seen : s.ring.testSeen = some d) (le : d + 300000 ≤ u) : ∃ t, execRingTestMissing u s = .next t ∧
      Healed ((s.at u).modRing fun r => { r with testsFrom := none }) t := by
  have ripe : ripeAt ((s.at u).ring.testSeen.map (· + 300000)) u = true := by
    rw [show (s.at u).ring.testSeen = some d from seen]
    exact decide_eq_true le
  have t : execRingTestMissing u s = .next ((s.at u).modRing fun r => { r with testsFrom := none }).heal := if_pos ⟨m, ripe⟩
  exact ⟨_, t, State.heal_heals snd.host.queues m b⟩

theorem execLinkDownNotice_line {s : State} {u port : Nat} (l : port < 2) : execLinkDownNotice u port s =
    if ((s.at u).rediscover 0).ring.manager then .next ((s.at u).rediscover 0).heal
    else .next (((s.at u).rediscover 0).sendOn (((s.at u).rediscover 0).ringPorts port) 5 (Config.ringFrame 0)) :=
  if_neg (Nat.not_le.mpr l)

theorem State.rediscover_lines {s : State} {a q : Nat} :
    (s.rediscover a).lineRole q = s.lineRole q ∧ (s.rediscover a).ring.manager = s.ring.manager ∧
      (s.rediscover a).ring.closingBlocked = s.ring.closingBlocked ∧ (s.rediscover a).ring.closing = s.ring.closing := by
  unfold State.rediscover
  split
  · exact ⟨rfl, rfl, rfl, rfl⟩
  · exact ⟨rfl, rfl, rfl, rfl⟩

theorem linkDownNotice_heals {s : State} {u port : Nat} (snd : Sound s) (l : port < 2) (m : s.ring.manager = true)
    (b : s.ring.closingBlocked = true) : ∃ t, execLinkDownNotice u port s = .next t ∧ Healed ((s.at u).rediscover 0) t := by
  obtain ⟨-, manager, blocked, -⟩ := State.rediscover_lines (s := s.at u) (a := 0) (q := 0)
  have t := execLinkDownNotice_line (s := s) (u := u) l
  rw [if_pos (manager.trans m)] at t
  have events : ((s.at u).rediscover 0).host.events.length = 64 := by
    rw [State.rediscover_keepsRing.host rfl]
    exact snd.host.queues
  exact ⟨_, t, State.heal_heals events (manager.trans m) (blocked.trans b)⟩

theorem linkDownNotice_passes {s : State} {u port : Nat} (l : port < 2) (m : s.ring.manager = false) (r : s.lineRole (1 - port) ≠ 0)
    (up : s.lineUp (1 - port) = true) : ∃ t, execLinkDownNotice u port s = .next t ∧ t.ring = { s.ring with
      sent := [(1 - port, 5, Config.ringFrame 0)]
      discDue := if s.ring.isRoot = true then some (max s.clk.up u) else s.ring.discDue } ∧ Keeps [.clk, .ring] s t := by
  obtain ⟨role, manager, -⟩ := State.rediscover_lines (s := s.at u) (a := 0) (q := 1 - port)
  have t := execLinkDownNotice_line (s := s) (u := u) l
  rw [if_neg (by rw [manager]; exact fun yes => absurd (m.symm.trans yes) (by decide)),
    State.ringPorts_other l (manager.trans m) (by rw [role]; exact r) ((State.rediscover_links.lineUp _).trans up)] at t
  refine ⟨_, t, ?_, State.sendOn_keeps rfl (State.rediscover_keeps rfl (State.at_keeps rfl .refl))⟩
  rw [State.sendOn_lines fun q m => by rw [List.mem_singleton.mp m]; omega, State.rediscover_ring]
  rfl

theorem ringFlush_passes {s : State} {u port : Nat} (l : port < 2) (o : s.lineOpen (1 - port) = true) : ∃ t, execRingFlush u port s = .next t ∧
    t.ring = { s.ring with learned := [], sent := [(1 - port, 5, Config.ringFrame 2)] } ∧ Keeps [.clk, .ring] s t := by
  have t : execRingFlush u port s = .next (((s.at u).modRing (fun r => { r with learned := [] })).sendOn
      ([1 - port].filter ((s.at u).modRing (fun r => { r with learned := [] })).lineOpen) 5 (Config.ringFrame 2)) := if_neg (Nat.not_le.mpr l)
  have one : [1 - port].filter ((s.at u).modRing (fun r => { r with learned := [] })).lineOpen = [1 - port] :=
    List.filter_eq_self.mpr fun q m => by
      rw [List.mem_singleton.mp m]
      exact o
  rw [one] at t
  refine ⟨_, t, ?_, State.sendOn_keeps rfl (State.modRing_keeps rfl (State.at_keeps rfl .refl))⟩
  rw [State.sendOn_lines fun q m => by rw [List.mem_singleton.mp m]; omega]
  rfl

end Sys2Proof.Machine

open Sys2Proof Sys2Proof.Machine

/-- Settles O29: each event by the lemma of what it does. -/
theorem ringLinkEventsComplete : Obligations.RingLinkEventsComplete := by
  intro s u snd
  refine ⟨fun f l r up k o => yudaixFrame_plain l r up k o, fun f l up => execYudaixFrameReceived_down l up, fun f l r up k => ?test,
    fun f l r up k => yudaixFrame_restored l r up k, mainsFrameTimeout_drops, fun port l up => lineLinkDown_reports snd l up,
    fun port l up r => lineLinkUp_reports snd l up r, fun d h up due le => ringTestSend_sends h up due le, fun d m b seen le => ?missing,
    fun port l => ⟨fun m b => ?notice, fun m r up => linkDownNotice_passes l m r up, fun o => ringFlush_passes l o⟩⟩
  case test =>
    have t := execYudaixFrameReceived_test (u := u) l r up k
    refine ⟨fun m role other => ?_, fun d m b since le => ?_⟩
    · rw [if_neg (show ¬ (s.at u).ring.manager = true from fun yes => absurd (m.symm.trans yes) (by decide)),
        State.ringPorts_other (s := s.at u) l m role other] at t
      refine ⟨_, t, ?_, State.sendOn_keeps rfl (State.at_keeps rfl .refl)⟩
      rw [State.sendOn_lines fun q m => by rw [List.mem_singleton.mp m]; omega]
      rfl
    · rw [if_pos (show (s.at u).ring.manager = true from m)] at t
      have closed := State.seeTest_closes (s := s.at u) snd.host.queues m b since (Nat.le_trans le (Nat.le_max_right _ _))
      exact ⟨_, t, closed.closed, closed.seen, closed.report, closed.keeps.then rfl (State.at_keeps rfl .refl)⟩
  case missing =>
    obtain ⟨t, e, healed⟩ := ringTestMissing_heals (u := u) snd m b seen le
    exact ⟨t, e, healed.opened, healed.forgotten, healed.flushed, healed.report,
      healed.keeps.then rfl (State.modRing_keeps rfl (State.at_keeps rfl .refl))⟩
  case notice =>
    obtain ⟨t, e, healed⟩ := linkDownNotice_heals (u := u) snd l m b
    have closing : ((s.at u).rediscover 0).ring.closing = s.ring.closing := (State.rediscover_lines (q := 0)).2.2.2
    refine ⟨t, e, healed.opened, healed.forgotten, closing ▸ healed.report, healed.flushed, fun root => healed.due.trans ?_,
      healed.keeps.then rfl (State.rediscover_keeps rfl (State.at_keeps rfl .refl))⟩
    rw [State.rediscover_ring]
    exact if_pos root
end

section
/-!
Beacons, their slots and periods, and the pins of node time (03 R76, R85–R87; 13 R330–R334, R337).
-/

namespace Sys2Proof.Machine

theorem State.raiseMid_raised {s : State} {ev sub : Nat} {a b c : Bytes} (l : s.host.events.length = 64) (e : ev < 64) (h : a <+: b)
    (n : a.length ≤ 24) : Raised (s.raiseMid ev sub b c) ev a :=
  State.addDetail_raised (by simpa [upd] using l) e
    (((prefix_padTo h n).trans (List.prefix_append _ _)).trans (List.prefix_append _ _))

theorem State.neighbourEvent_raised {s : State} {port kind edge cause node cls : Nat} (n : s.host.events.length = 64) :
    Raised (s.neighbourEvent port kind edge cause node cls) 33 [byteOf port, byteOf kind, byteOf edge, byteOf cause] :=
  State.raiseMid_raised n (by decide) (by simp) (by simp)

/-! ### The node's own slot and period -/

theorem State.grid_mapIdx {s : State} {f : Nat → Grid → Grid} {q : Nat} (l : q < s.servo.grids.length) :
    (s.modServo fun v => { v with grids := v.grids.mapIdx f }).grid q = f q (s.grid q) := by
  have l' : q < (s.servo.grids.mapIdx f).length := by rwa [List.length_mapIdx]
  change (s.servo.grids.mapIdx f).getD q Grid.reset = f q (s.servo.grids.getD q Grid.reset)
  rw [List.getD_eq_getElem _ _ l, List.getD_eq_getElem _ _ l', List.getElem_mapIdx]

theorem State.afterSlot_sends {s : State} {q j : Nat} {g : Grid} (st : 3 ≤ s.pwr.stage) (on : (s.pn ND_PLC_MAINS).testBit q = true)
    (pos : g.pos = some j) (own : g.on = true) (ch : s.pn ND_ZC_CHANNEL ≠ 255) (turn : g.number % 4 = j / 8)
    (late : g.anchor + 2000000 + 1500000 * (j % 8) ≤ s.nodeNow) (fresh : g.out.map (·.number) ≠ some g.number) :
    s.afterSlot q g = { g with out := some (s.beacon q j g) } := by
  have due : s.slotDue g j = true := by
    have late' : g.anchor + slotAt j ≤ s.nodeNow := by
      unfold slotAt
      omega
    unfold State.slotDue
    simp [own, ch, turn, late', fresh]
  have run : (s.mainsOn q && s.slotDue g j) = true := by
    unfold State.mainsOn
    simp [st, on, due]
  unfold State.afterSlot
  rw [pos]
  exact if_pos run

theorem State.nextPeriod_counts {s : State} {g : Grid} (v : s.zcValid = true) (a : g.anchor ≠ 0) (le : g.anchor + s.beaconPeriod ≤ s.nodeNow) :
    s.nextPeriod g = { g with
      anchor := (s.nearCrossing ((g.anchor : Int) + s.beaconPeriod + s.gridCorrection g) - s.gridCorrection g).toNat
      number := (g.number + 1) % 2 ^ 32, on := true } := by
  unfold State.nextPeriod
  rw [if_neg (Nat.not_lt.mpr le), if_neg (by rw [v]; decide)]
  dsimp only
  rw [if_neg a]
  rfl

/-! ### A sender not heard any more -/

theorem find?_other {α : Type} {p q : α → Bool} {l : List α} (h : ∀ a, q a = true → p a = true) : (l.filter p).find? q = l.find? q := by
  rw [List.find?_filter]
  congr 1
  funext a
  by_cases e : q a = true
  · simp [e, h a e]
  · simp [e]

/-- The sender forgotten. -/
def State.forget (s : State) (node : Nat) : State :=
  s.modServo (fun v => { v with neighbours := v.neighbours.filter (fun x => x.node != node) })

/-- The sender's loss reported. -/
def State.forgetAndTell (s : State) (node port : Nat) : State :=
  ((s.forget node).neighbourEvent port 1 0 4 node 0).queueFault 2 node (port - 14)

theorem execBeaconTimeout_late {s : State} {u node : Nat} {n : Neighbour} (e : s.neighbour node = some n) (le : n.lastAt + 25 * s.beaconPeriod ≤ u) :
    execBeaconTimeout u node s =
      if ((s.at u).forgetAndTell node n.port).servo.sender ≠ node then .next ((s.at u).forgetAndTell node n.port)
      else
        match ((s.at u).forgetAndTell node n.port).otherSender node with
        | some x => .next (((s.at u).forgetAndTell node n.port).modServo (fun v => { v with
            sender := x.node, port := x.port - 13, mainsHops := x.hops + 1 }))
        | none => .next (((s.at u).forgetAndTell node n.port).loseSource 2) := by
  have h : (s.at u).neighbour node = some n := e
  unfold execBeaconTimeout
  dsimp only
  rw [h]
  exact if_pos le

theorem State.forgetAndTell_servo {s : State} {node port : Nat} : (s.forgetAndTell node port).servo =
    { s.servo with neighbours := s.servo.neighbours.filter fun x => x.node != node } := rfl

theorem State.forgetAndTell_neighbour {s : State} {node port m : Nat} :
    (s.forgetAndTell node port).neighbour m = if m = node then none else s.neighbour m := by
  change (s.servo.neighbours.filter fun x => x.node != node).find? (fun x => x.node == m) = _
  split
  · next e =>
    rw [List.find?_eq_none]
    intro x hx
    have := (List.mem_filter.mp hx).2
    subst e
    simpa using this
  · next ne =>
    refine find?_other fun a e => ?_
    simp only [beq_iff_eq] at e
    simpa [e] using ne

theorem State.forgetAndTell_otherSender {s : State} {node port : Nat} :
    (s.forgetAndTell node port).otherSender node = s.otherSender node := by
  refine find?_other fun a e => ?_
  simp only [Bool.and_eq_true] at e
  exact e.1.1.1.1

theorem State.forgetAndTell_raised {s : State} {node port : Nat} (n : s.host.events.length = 64) :
    Raised (s.forgetAndTell node port) 33 [byteOf port, 1, 0, 4] :=
  let r := State.neighbourEvent_raised (s := s.forget node) (port := port) (kind := 1) (edge := 0) (cause := 4) (node := node) (cls := 0) n
  ⟨r.newest, r.pending⟩

/-- What the timeout of a sender comes to. -/
theorem beaconTimeout_forgets {s : State} {u node : Nat} {n : Neighbour} (snd : Sound s) (e : s.neighbour node = some n)
    (le : n.lastAt + 25 * s.beaconPeriod ≤ u) : ∃ t, execBeaconTimeout u node s = .next t ∧ t.neighbour node = none ∧
      (∀ m, m ≠ node → t.neighbour m = s.neighbour m) ∧ Raised t 33 [byteOf n.port, 1, 0, 4] ∧
      (s.servo.sender = node → (s.at u).otherSender node = none → s.servo.source = 2 → s.servo.state = .mains → t.servo.state = .holdover) ∧
      (∀ x, s.servo.sender = node → (s.at u).otherSender node = some x → t.servo.state = s.servo.state ∧
        t.servo.sender = x.node ∧ t.servo.mainsHops = x.hops + 1) ∧
      (s.servo.sender ≠ node → t.servo.state = s.servo.state ∧ t.servo.sender = s.servo.sender) ∧
      Keeps [.clk, .servo, .host, .ring] s t := by
  have t := execBeaconTimeout_late e le
  have other := State.forgetAndTell_otherSender (s := s.at u) (node := node) (port := n.port)
  have known := fun m => State.forgetAndTell_neighbour (s := s.at u) (node := node) (port := n.port) (m := m)
  have told := State.forgetAndTell_raised (s := s.at u) (node := node) (port := n.port) snd.host.queues
  have servo := State.forgetAndTell_servo (s := s.at u) (node := node) (port := n.port)
  have kept : Keeps [.clk, .servo, .host, .ring] s ((s.at u).forgetAndTell node n.port) :=
    State.queueFault_keeps rfl (State.neighbourEvent_keeps rfl (State.modServo_keeps rfl (State.at_keeps rfl .refl)))
  generalize (s.at u).forgetAndTell node n.port = y at t other known told servo kept
  have sender : y.servo.sender = s.servo.sender := by rw [servo]; rfl
  have state : y.servo.state = s.servo.state := by rw [servo]; rfl
  have source : y.servo.source = s.servo.source := by rw [servo]; rfl
  have gone : y.neighbour node = none := (known node).trans (if_pos rfl)
  have rest : ∀ m, m ≠ node → y.neighbour m = s.neighbour m := fun m ne => (known m).trans (if_neg ne)
  by_cases mine : s.servo.sender = node
  · rw [if_neg fun ne => ne (sender.trans mine)] at t
    cases o : (s.at u).otherSender node with
    | some x =>
      rw [other, o] at t
      refine ⟨_, t, gone, rest, ⟨told.newest, told.pending⟩, fun _ no => absurd no (by simp), fun x' _ e' => ?_, fun ne => absurd mine ne,
        State.modServo_keeps rfl kept⟩
      cases e'
      exact ⟨state, rfl, rfl⟩
    | none =>
      rw [other, o] at t
      have same : (y.loseSource 2).servo.neighbours = y.servo.neighbours := State.loseSource_leaves Servo.neighbours rfl
      have look : ∀ m, (y.loseSource 2).neighbour m = y.neighbour m := fun m => congrArg (List.find? fun x : Neighbour => x.node == m) same
      refine ⟨_, t, (look node).trans gone, fun m ne => (look m).trans (rest m ne), told.spared (State.loseSource_spares (by decide)),
        fun _ _ src st => ?_, fun _ _ no => absurd no (by simp), fun ne => absurd mine ne, State.loseSource_keeps rfl kept⟩
      rw [State.loseSource_locked (source.trans src) (.inr (state.trans st))]
      rfl
  · rw [if_pos fun e => mine (sender.symm.trans e)] at t
    exact ⟨_, t, gone, rest, told, fun e => absurd e mine, fun _ e => absurd e mine, fun _ => ⟨state, sender⟩, kept⟩

/-! ### The time-triggered outputs and the captures -/

theorem execTtoEdge_trailing {s : State} {u i d : Nat} (e : (s.tto i).trailAt = some d) (le : d ≤ u) : execTtoEdge u i s = .next
    ((s.at u).modTto i (fun o => { o with level := o.polarity, trailAt := none })) := by
  refine if_pos ?_
  rw [show ((s.at u).tto i).trailAt = some d from e]
  exact decide_eq_true le

/-- The output at a leading edge. -/
def State.leadTto (s : State) (u i : Nat) : State := s.modTto i (fun o => { o with
  level := !o.polarity, edges := inc32 o.edges
  trailAt := some (u - (s.nodeNow - (if (s.tto i).late then s.nodeNow else (s.tto i).next)) + o.width), late := false
  armed := o.mode == 2, next := if o.mode = 2 then o.next + o.period else o.next })

/-- A leading edge, with the output and its report as they are. -/
theorem execTtoEdge_leads {s : State} {u i : Nat} (d : LeadingEdgeDue s u i) : execTtoEdge u i s = .next
    (if (s.tto i).mode = 1 ∨ (s.tto i).report = true then ((s.at u).leadTto u i).ttoEvent i (s.tto i).late
      (if (s.tto i).late then (s.at u).nodeNow else (s.tto i).next) else (s.at u).leadTto u i) := by
  have o : (s.at u).tto i = s.tto i := State.tto_congr rfl
  unfold execTtoEdge
  dsimp only
  rw [o, if_neg (by simp [d.trail]), if_pos (by simp [d.armed, d.mode, d.reached]), ← apply_ite Host.Outcome.next]
  rfl

theorem State.ttoEvent_tells {s : State} {i edge : Nat} {late : Bool} (n : s.host.events.length = 64) :
    Raised (s.ttoEvent i late edge) 59 [byteOf i, byteOf (b2n late)] :=
  State.raise_raised n (by decide) (by simp) (by simp)

theorem State.leadTto_same {s : State} {u i : Nat} (l : i < s.servo.ttos.length) : ((s.leadTto u i).tto i) = { s.tto i with
    level := !(s.tto i).polarity, edges := inc32 (s.tto i).edges
    trailAt := some (u - (s.nodeNow - (if (s.tto i).late then s.nodeNow else (s.tto i).next)) + (s.tto i).width), late := false
    armed := (s.tto i).mode == 2, next := if (s.tto i).mode = 2 then (s.tto i).next + (s.tto i).period else (s.tto i).next } :=
  State.modTto_same l

theorem State.leadTto_other {s : State} {u i j : Nat} (ne : j ≠ i) : (s.leadTto u i).tto j = s.tto j := State.modTto_other ne

theorem execTciEdge_ignored {s : State} {u i clocks : Nat} {rising : Bool} (no3 : (s.tci i).edges ≠ 3)
    (no : (s.tci i).edges ≠ (if rising then 1 else 2)) : execTciEdge u i rising clocks s = .next (s.at u) := by
  have off : ((s.tci i).edges == 3 || (s.tci i).edges == (if rising then 1 else 2)) = false := by simp [no3, no]
  refine if_pos (.inr (.inl ?_))
  rw [show (((s.at u).tci i).edges == 3 || ((s.at u).tci i).edges == (if rising then 1 else 2)) = false from off]
  rfl

/-- An edge that the input takes: stamped where there is room, else lost. -/
theorem execTciEdge_taken {s : State} {u i clocks : Nat} {rising : Bool} (l : i < 4)
    (on : (s.tci i).edges = 3 ∨ (s.tci i).edges = (if rising then 1 else 2)) (long : (s.tci i).filter ≤ clocks) :
    execTciEdge u i rising clocks s =
      if fifoLevel 4 (s.tci i).fifo < 16 ∧ !s.test.regs.fifo.getLsbD (4 + i) then
        .next ((s.at u).modTci i (fun x => { x with fifo := { x.fifo with
          words := x.fifo.words ++ [(((s.at u).nodeNow + 7) / 8 * 8 + b2n rising * 2 ^ 64, false, false)], wptr := wrapInc 5 x.fifo.wptr } }))
      else
        let s' := (s.at u).modTci i (fun x => { x with fifo := { x.fifo with overrun := true, ovFrame := some (s.at u).frm } })
        if (s.tci i).fifo.ovFrame = some s.frm then .next s'
        else .next (s'.raise 6 (16 + i) (fifoBody (16 + i) 0 (fifoLevel 4 (s.tci i).fifo) s.frm 1)) := by
  have chosen : ((s.tci i).edges == 3 || (s.tci i).edges == (if rising then 1 else 2)) = true := by simpa using on
  refine if_neg ?_
  rintro (a | a | a)
  · omega
  · rw [show (((s.at u).tci i).edges == 3 || ((s.at u).tci i).edges == (if rising then 1 else 2)) = true from chosen] at a
    exact absurd a (by decide)
  · exact absurd a (Nat.not_lt.mpr long)

/-! ### A beacon received -/

/-- The crossing of the sender's beacon in the node's time. -/
def State.beaconAt (s : State) (b : Beacon) : Int := (s.nodeNow : Int) - (b.tx - b.crossing)

/-- The node's own crossing that belongs to it. -/
def State.beaconOwn (s : State) (b : Beacon) : Int := ownCrossing (s.nearCrossing (s.beaconAt b)) (s.beaconAt b) s.meanPeriod

/-- The class that this beacon shows. -/
def State.beaconCand (s : State) (b : Beacon) : Nat :=
  if s.zcValid then phaseClass (s.beaconOwn b - s.beaconAt b) s.meanPeriod else 0

/-- The record of its sender. -/
def State.beaconFrom (s : State) (b : Beacon) : Neighbour :=
  (s.neighbour b.node).getD { Neighbour.reset with node := b.node, port := b.port }

def State.beaconRun (s : State) (b : Beacon) : Nat :=
  if s.beaconCand b ≠ 0 ∧ s.beaconCand b = (s.beaconFrom b).cand then (s.beaconFrom b).run + 1 else if s.beaconCand b = 0 then 0 else 1

/-- The class accepted for the sender after this beacon. -/
def State.beaconCls (s : State) (b : Beacon) : Nat := if 4 ≤ s.beaconRun b then s.beaconCand b else (s.beaconFrom b).cls

/-- The sender's record after this beacon. -/
def State.beaconTo (s : State) (u : Nat) (b : Beacon) : Neighbour :=
  { s.beaconFrom b with
    cls := s.beaconCls b, cand := s.beaconCand b, run := s.beaconRun b, lastAt := u, hops := b.hops, port := b.port, servo := b.servo
    is4016 := b.is4016 }

/-- The sender on record, with what is reported of it. -/
def State.recordBeacon (s : State) (u : Nat) (b : Beacon) : State :=
  let x := (if (s.neighbour b.node).isNone then s.neighbourEvent b.port 1 1 5 b.node 0 else s).putNeighbour (s.beaconTo u b)
  if s.beaconCls b ≠ (s.beaconFrom b).cls then x.neighbourEvent b.port 2 2 6 b.node (s.beaconCls b) else x

/-- The branch's grid after the beacon. -/
def State.gridBeacon (s : State) (b : Beacon) (cls : Nat) (arrival : Int) : State :=
  if b.is4016 then s else s.modGrid (b.port - 16) (fun g => s.followGrid g b cls arrival)

/-- The beacon as it acts on the servo. -/
def State.actBeacon (s : State) (b : Beacon) (cls : Nat) (off : Int) : State :=
  if s.servo.source = 2 ∧ s.servo.sender = b.node ∧ servesTime b.servo b.hops = false then s.loseSource 2
  else if s.zcValid && s.followsBeacon b cls then s.mainsOffset b off
  else if s.zcValid && s.followsHoldover b cls then
    if (s.jumpTest off 2 (b.port - 13) b.node 0).1 then (s.jumpTest off 2 (b.port - 13) b.node 0).2.correct 2 off
    else (s.jumpTest off 2 (b.port - 13) b.node 0).2
  else s

/-- The last part of BEACON_RECEIVED. -/
theorem State.actBeacon_next {s : State} {b : Beacon} {cls : Nat} {off : Int} :
    (if s.servo.source = 2 ∧ s.servo.sender = b.node ∧ servesTime b.servo b.hops = false then .next (s.loseSource 2)
    else if s.zcValid && s.followsBeacon b cls then .next (s.mainsOffset b off)
    else if s.zcValid && s.followsHoldover b cls then
      let r := s.jumpTest off 2 (b.port - 13) b.node 0
      .next (if r.1 then r.2.correct 2 off else r.2)
    else .next s : Host.Outcome State Fault Refusal) = .next (s.actBeacon b cls off) := by
  unfold State.actBeacon
  split
  · rfl
  · split
    · rfl
    · split <;> rfl

theorem execBeaconReceived_on {s : State} {u : Nat} {b : Beacon} (st : 3 ≤ s.pwr.stage) (port : b.port = 16 ∨ b.port = 17)
    (on : (s.pn ND_PLC_MAINS).testBit (b.port - 16) = true) : execBeaconReceived u b s = .next
      ((((s.at u).recordBeacon u b).gridBeacon b ((s.at u).beaconCls b) ((s.at u).nodeNow)).actBeacon b ((s.at u).beaconCls b)
        (b.crossing + phaseCorrection ((s.at u).beaconCls b) (s.at u).meanPeriod - (s.at u).beaconOwn b)) := by
  have port' : (b.port == 16 || b.port == 17) = true := by simpa [or_iff_not_imp_left] using port
  have go : (!(3 ≤ (s.at u).pwr.stage && (b.port == 16 || b.port == 17) && ((s.at u).pn ND_PLC_MAINS).testBit (b.port - 16))) = false := by
    rw [show ((s.at u).pn ND_PLC_MAINS).testBit (b.port - 16) = true from on, show decide (3 ≤ (s.at u).pwr.stage) = true from decide_eq_true st,
      port']
    rfl
  unfold execBeaconReceived
  dsimp only
  rw [if_neg (by rw [go]; decide)]
  exact State.actBeacon_next

theorem State.putNeighbour_new {s : State} {n : Neighbour} (none : s.neighbour n.node = none) :
    (s.putNeighbour n).neighbour n.node = some n := by
  have no : s.servo.neighbours.any (fun x => x.node == n.node) = false := by
    rw [List.any_eq_false]
    intro x m
    exact List.find?_eq_none.mp none x m
  have put : (s.putNeighbour n).servo.neighbours = s.servo.neighbours ++ [n] := if_neg (by rw [no]; decide)
  change (s.putNeighbour n).servo.neighbours.find? _ = _
  rw [put, List.find?_append, show s.servo.neighbours.find? (fun x => x.node == n.node) = Option.none from none]
  simp

theorem beaconRun_new {s : State} {b : Beacon} (none : s.neighbour b.node = none) : s.beaconCls b = 0 := by
  have fresh : s.beaconFrom b = { Neighbour.reset with node := b.node, port := b.port } := by rw [State.beaconFrom, none]; rfl
  have low : s.beaconRun b ≤ 1 := by
    unfold State.beaconRun
    rw [fresh]
    split
    · next c => exact absurd c.2 c.1
    · split <;> omega
  rw [State.beaconCls, if_neg (by omega), fresh]
  rfl

theorem State.recordBeacon_new {s : State} {u : Nat} {b : Beacon} (none : s.neighbour b.node = none) :
    s.recordBeacon u b = (s.neighbourEvent b.port 1 1 5 b.node 0).putNeighbour (s.beaconTo u b) := by
  have fresh : s.beaconFrom b = { Neighbour.reset with node := b.node, port := b.port } := by rw [State.beaconFrom, none]; rfl
  have same : ¬ s.beaconCls b ≠ (s.beaconFrom b).cls := not_not_intro (by rw [beaconRun_new none, fresh]; rfl)
  unfold State.recordBeacon
  dsimp only
  rw [if_neg same, if_pos (by rw [none]; rfl)]

theorem State.recordBeacon_known {s : State} {u : Nat} {b : Beacon} {n : Neighbour} (e : s.neighbour b.node = some n)
    (cls : s.beaconCls b = n.cls) : s.recordBeacon u b = s.putNeighbour (s.beaconTo u b) := by
  have same : ¬ s.beaconCls b ≠ (s.beaconFrom b).cls := not_not_intro (by rw [cls, State.beaconFrom, e]; rfl)
  unfold State.recordBeacon
  dsimp only
  rw [if_neg same, if_neg (by rw [e]; exact Bool.false_ne_true)]

theorem beaconCls_steady {s : State} {b : Beacon} {n : Neighbour} (e : s.neighbour b.node = some n)
    (c : s.beaconCand b = n.cls) : s.beaconCls b = n.cls := by
  unfold State.beaconCls
  rw [c, State.beaconFrom, e]
  split <;> rfl

/-- A beacon of no accepted class at most loses its source. -/
theorem State.actBeacon_zero {s : State} {b : Beacon} {off : Int} : s.actBeacon b 0 off =
    if s.servo.source = 2 ∧ s.servo.sender = b.node ∧ servesTime b.servo b.hops = false then s.loseSource 2 else s := by
  have follows : (s.zcValid && s.followsBeacon b 0) = false := by unfold State.followsBeacon; simp
  have holds : (s.zcValid && s.followsHoldover b 0) = false := by unfold State.followsHoldover; simp
  unfold State.actBeacon
  rw [follows, holds]
  rfl

theorem State.actBeacon_leaves {α : Type} {s : State} {b : Beacon} {off : Int} (g : Servo → α) (e : g s.heldServo = g s.servo) :
    g (s.actBeacon b 0 off).servo = g s.servo := by
  rw [State.actBeacon_zero]
  split
  · exact State.loseSource_leaves g e
  · rfl

theorem State.actBeacon_spares {s : State} {b : Beacon} {off : Int} {ev : Nat} (ne : ev ≠ 10) : Spares ev s (s.actBeacon b 0 off) := by
  rw [State.actBeacon_zero]
  exact .ite (State.loseSource_spares ne) .refl

theorem State.gridBeacon_host {s : State} {b : Beacon} {cls : Nat} {a : Int} : (s.gridBeacon b cls a).host = s.host := by
  unfold State.gridBeacon
  split <;> rfl

theorem State.gridBeacon_neighbours {s : State} {b : Beacon} {cls : Nat} {a : Int} :
    (s.gridBeacon b cls a).servo.neighbours = s.servo.neighbours := by
  unfold State.gridBeacon
  split <;> rfl

theorem State.gridBeacon_number {s : State} {b : Beacon} {cls : Nat} {a : Int} (l : b.port - 16 < s.servo.grids.length)
    (v : s.zcValid = false) (k : b.is4016 = false) : ((s.gridBeacon b cls a).grid (b.port - 16)).number = b.number % 2 ^ 32 := by
  have follow : (s.gridBeacon b cls a).grid (b.port - 16) = s.followGrid (s.grid (b.port - 16)) b cls a := by
    unfold State.gridBeacon
    rw [if_neg (by rw [k]; decide)]
    exact getD_upd_eq l
  rw [follow]
  unfold State.followGrid
  rw [if_pos (by rw [v]; rfl)]

/-- A sender heard for the first time. -/
theorem beaconReceived_new {s : State} {u : Nat} {b : Beacon} (snd : Sound s) (st : 3 ≤ s.pwr.stage) (port : b.port = 16 ∨ b.port = 17)
    (on : (s.pn ND_PLC_MAINS).testBit (b.port - 16) = true) (none : s.neighbour b.node = none) :
    ∃ t n, execBeaconReceived u b s = .next t ∧ t.neighbour b.node = some n ∧ n.lastAt = u ∧ n.hops = b.hops ∧
      n.port = b.port ∧ Raised t 33 [byteOf b.port, 1, 1, 5] ∧
      (s.zcValid = false → b.is4016 = false → b.port - 16 < s.servo.grids.length →
        (t.grid (b.port - 16)).number = b.number % 2 ^ 32) ∧ Keeps [.clk, .servo, .host, .ring] s t := by
  have t := execBeaconReceived_on (u := u) st port on
  have kept := exec_keeps (.beaconReceived u b) _ _ t
  have node : ((s.at u).beaconTo u b).node = b.node := by
    change ((s.at u).beaconFrom b).node = b.node
    unfold State.beaconFrom
    rw [show (s.at u).neighbour b.node = Option.none from none]
    rfl
  have told : Raised ((s.at u).recordBeacon u b) 33 [byteOf b.port, 1, 1, 5] := by
    rw [State.recordBeacon_new (s := s.at u) none]
    exact .spared (State.neighbourEvent_raised (s := s.at u) snd.host.queues) (.of_eq rfl)
  have known : ((s.at u).recordBeacon u b).neighbour b.node = some ((s.at u).beaconTo u b) := by
    rw [State.recordBeacon_new (s := s.at u) none, ← node]
    exact State.putNeighbour_new (node.symm ▸ none)
  have grids : ((s.at u).recordBeacon u b).servo.grids = s.servo.grids := by
    rw [State.recordBeacon_new (s := s.at u) none]
    rfl
  have valid : ((s.at u).recordBeacon u b).zcValid = s.zcValid := by
    rw [State.recordBeacon_new (s := s.at u) none]
    rfl
  rw [beaconRun_new (s := s.at u) none] at t kept
  generalize (s.at u).recordBeacon u b = y at t kept told known grids valid
  refine ⟨_, (s.at u).beaconTo u b, t, ?_, rfl, rfl, rfl, ?_, fun v k l => ?_, kept⟩
  · refine (congrArg (List.find? fun x : Neighbour => x.node == b.node) ?_).trans known
    exact (State.actBeacon_leaves Servo.neighbours rfl).trans State.gridBeacon_neighbours
  · exact told.spared (.trans (.of_eq State.gridBeacon_host) (State.actBeacon_spares (by decide)))
  · refine Eq.trans (congrArg (fun l : List Grid => (l.getD (b.port - 16) Grid.reset).number) (State.actBeacon_leaves Servo.grids rfl)) ?_
    exact State.gridBeacon_number (by rw [grids]; exact l) (valid.trans v) k

/-! ### The offset that locks on the mains -/

/-- A servo that the next offset of its sender locks (Table 3.4). -/
structure MainsReady (s : State) (b : Beacon) (off : Int) : Prop where
  acquiring : s.servo.state = .acquiring
  loaded : s.clk.loaded = true
  mains : s.servo.source = 2
  key : s.servo.runKey = b.node
  jump : (-off - s.servo.accepted).natAbs ≤ s.pn ND_JUMP_THRESH
  refused : s.servo.refused = none
  close : off.natAbs ≤ 2000 + b.bound
  run : 7 ≤ s.servo.inRun

theorem State.jumpTest_passes {s : State} {b : Beacon} {off : Int} {port : Nat} (r : MainsReady s b off) :
    s.jumpTest off 2 port b.node 0 = (true, s.modServo (fun v => { v with jumpRun := 0 })) := by
  have same : s.runsOf 2 b.node 0 = s := if_pos r.key
  unfold State.jumpTest
  dsimp only
  rw [same, if_pos r.acquiring,
    if_neg (show ¬ s.pn ND_JUMP_THRESH < (localOffset 2 off - s.servo.accepted).natAbs from Nat.not_lt.mpr r.jump)]
  refine if_pos ?_
  unfold Servo.refusedOf
  rw [r.refused]

theorem State.modServo_congr {s : State} {f g : Servo → Servo} (h : f s.servo = g s.servo) : s.modServo f = s.modServo g := by
  unfold State.modServo
  rw [h]

/-- The servo after the offset taken. -/
def State.mainsTaken (s : State) (b : Beacon) (off : Int) : State :=
  ((s.modServo (fun v => { v with jumpRun := 0 })).correct 2 off).modServo (fun v => { v with
    offset := Config.filterOffset v.offset off, inRun := v.inRun + 1, bound := b.bound + 2000, mainsHops := b.hops + 1 })

theorem State.mainsOffset_locks {s : State} {b : Beacon} {off : Int} (r : MainsReady s b off) :
    s.mainsOffset b off = (s.mainsTaken b off).enterLocked .mains 2 (b.port - 13) b.node off 0 := by
  have not1 : ¬ (s.servo.state = .free ∨ ((!s.clk.loaded) = true ∧ s.servo.source ≠ 2)) := by
    rw [r.acquiring, r.loaded]
    simp
  have go : s.servo.source = 2 ∧ 8 ≤ (s.mainsTaken b off).servo.inRun := ⟨r.mains, Nat.succ_le_succ r.run⟩
  have taken : ((if s.servo.source = 1 then s.modServo (fun v => { v with jumpRun := 0 })
      else (s.modServo (fun v => { v with jumpRun := 0 })).correct 2 off).modServo (fun v => { v with
        offset := if v.source = 2 then Config.filterOffset v.offset off else v.offset
        inRun := if off.natAbs ≤ (if s.servo.state = .acquiring then 2000 + b.bound else s.pn ND_JUMP_THRESH) then v.inRun + 1 else 0
        bound := b.bound + 2000, mainsHops := b.hops + 1 })) = s.mainsTaken b off := by
    rw [if_neg (by rw [r.mains]; decide), if_pos r.acquiring]
    refine State.modServo_congr ?_
    rw [if_pos r.close]
    refine congrArg (fun o => ({ ((s.modServo (fun v => { v with jumpRun := 0 })).correct 2 off).servo with
      offset := o, inRun := s.servo.inRun + 1, bound := b.bound + 2000, mainsHops := b.hops + 1 } : Servo)) (if_pos r.mains)
  unfold State.mainsOffset
  dsimp only
  rw [if_neg not1, if_neg (by rw [r.loaded]; decide), State.jumpTest_passes r]
  dsimp only
  rw [if_neg (by decide), taken]
  split
  · next e => exact absurd (r.acquiring.symm.trans e) (by decide)
  · next e => exact absurd (r.acquiring.symm.trans e) (by decide)
  · exact if_pos go
  · next h => exact absurd r.acquiring (by simpa using h)

theorem State.enterLocked_raised {s : State} {new : ServoState} {source port sender gm : Nat} {off : Int} (n : s.host.events.length = 64) :
    Raised (s.enterLocked new source port sender off gm) 11 [byteOf (servoCode s.servo.state), byteOf (servoCode new), byteOf source, byteOf port] :=
  State.timeEvent_raised n (by decide)

/-- The offset of the sender followed that enters MAINS. -/
theorem beaconReceived_locks {s : State} {u : Nat} {b : Beacon} {n : Neighbour} (snd : Sound s) (st : 3 ≤ s.pwr.stage)
    (port : b.port = 16 ∨ b.port = 17) (on : (s.pn ND_PLC_MAINS).testBit (b.port - 16) = true) (e : s.neighbour b.node = some n)
    (valid : s.zcValid = true) (some' : n.cls ≠ 0)
    (shows' : phaseClass ((s.at u).beaconOwn b - (s.at u).beaconAt b) s.meanPeriod = n.cls) (k : b.is4016 = false)
    (serves : servesTime b.servo b.hops = true) (may : (s.pn ND_TIME_SOURCES).testBit 1 = true) (noMaster : s.servo.master = none)
    (sender : s.servo.sender = b.node)
    (ready : MainsReady s b (b.crossing + phaseCorrection n.cls s.meanPeriod - (s.at u).beaconOwn b)) :
    ∃ t, execBeaconReceived u b s = .next t ∧ t.servo.state = .mains ∧ t.servo.mainsHops = b.hops + 1 ∧
      Raised t 11 [byteOf (servoCode .acquiring), byteOf (servoCode .mains), 2] ∧ Keeps [.clk, .servo, .host] s t := by
  have t := execBeaconReceived_on (u := u) st port on
  have cand : (s.at u).beaconCand b = n.cls := (if_pos valid).trans shows'
  have cls : (s.at u).beaconCls b = n.cls := beaconCls_steady (s := s.at u) e cand
  rw [State.recordBeacon_known (s := s.at u) e cls, cls] at t
  have grid : ∃ f, (((s.at u).putNeighbour ((s.at u).beaconTo u b)).gridBeacon b n.cls ((s.at u).nodeNow)) =
      ((s.at u).putNeighbour ((s.at u).beaconTo u b)).modGrid (b.port - 16) f := ⟨_, if_neg (by rw [k]; decide)⟩
  obtain ⟨f, grid⟩ := grid
  rw [grid] at t
  have kept : Keeps [.clk, .servo, .host] s (((s.at u).putNeighbour ((s.at u).beaconTo u b)).modGrid (b.port - 16) f) :=
    State.modGrid_keeps rfl (State.putNeighbour_keeps rfl (State.at_keeps rfl .refl))
  have ready' : MainsReady (((s.at u).putNeighbour ((s.at u).beaconTo u b)).modGrid (b.port - 16) f) b
      (b.crossing + phaseCorrection n.cls (s.at u).meanPeriod - (s.at u).beaconOwn b) :=
    ⟨ready.acquiring, ready.loaded, ready.mains, ready.key, ready.jump, ready.refused, ready.close, ready.run⟩
  have valid' : (((s.at u).putNeighbour ((s.at u).beaconTo u b)).modGrid (b.port - 16) f).zcValid = true := valid
  have follows : (((s.at u).putNeighbour ((s.at u).beaconTo u b)).modGrid (b.port - 16) f).followsBeacon b n.cls = true := by
    have may' : ((((s.at u).putNeighbour ((s.at u).beaconTo u b)).modGrid (b.port - 16) f).pn ND_TIME_SOURCES).testBit 1 = true := may
    have none' : (((s.at u).putNeighbour ((s.at u).beaconTo u b)).modGrid (b.port - 16) f).servo.master = none := noMaster
    have mine : (((s.at u).putNeighbour ((s.at u).beaconTo u b)).modGrid (b.port - 16) f).servo.sender = b.node := sender
    unfold State.followsBeacon
    rw [may', none', mine]
    simp [some', k, serves]
  have events : (((s.at u).putNeighbour ((s.at u).beaconTo u b)).modGrid (b.port - 16) f).host.events.length = 64 := snd.host.queues
  generalize ((s.at u).putNeighbour ((s.at u).beaconTo u b)).modGrid (b.port - 16) f = y at t kept ready' valid' follows events
  unfold State.actBeacon at t
  rw [if_neg fun a => absurd (serves.symm.trans a.2.2) (by decide), if_pos (by rw [valid', follows]; rfl), State.mainsOffset_locks ready'] at t
  have told := State.enterLocked_raised (s := y.mainsTaken b (b.crossing + phaseCorrection n.cls (s.at u).meanPeriod - (s.at u).beaconOwn b))
    (new := .mains) (source := 2) (port := b.port - 13) (sender := b.node) (gm := 0)
    (off := b.crossing + phaseCorrection n.cls (s.at u).meanPeriod - (s.at u).beaconOwn b) events
  refine ⟨_, t, rfl, rfl, ⟨?_, told.pending⟩, State.enterLocked_keeps rfl (State.modServo_keeps rfl (State.correct_keeps rfl
    (State.modServo_keeps rfl kept)))⟩
  have newest := congrArg (List.take 3) told.newest
  rw [List.take_take, show (y.mainsTaken b _).servo.state = .acquiring from ready'.acquiring] at newest
  exact newest

theorem beaconSlot_sends {s : State} {u q j : Nat} (l : q < s.servo.grids.length) (st : 3 ≤ s.pwr.stage)
    (on : (s.pn ND_PLC_MAINS).testBit q = true) (pos : (s.grid q).pos = some j) (own : (s.grid q).on = true) (ch : s.pn ND_ZC_CHANNEL ≠ 255)
    (turn : (s.grid q).number % 4 = j / 8) (late : (s.grid q).anchor + 2000000 + 1500000 * (j % 8) ≤ (s.at u).nodeNow)
    (fresh : (s.grid q).out.map (·.number) ≠ some (s.grid q).number) :
    ∃ t x, execBeaconSlot u s = .next t ∧ t.grid q = { s.grid q with out := some x } ∧ x.port = 16 + q ∧ x.node = s.nodeId ∧
      x.pos = j ∧ x.number = (s.grid q).number ∧ x.servo = servoCode s.servo.state ∧
      x.hops = (if s.servo.state = .locked then 0 else s.servo.mainsHops) ∧
      x.crossing = s.nearCrossing (s.grid q).anchor ∧ x.tx = (s.at u).nodeNow ∧ Keeps [.clk, .servo] s t := by
  refine ⟨_, (s.at u).beacon q j (s.grid q), rfl, ?_, rfl, rfl, rfl, rfl, rfl, rfl, rfl, rfl, State.modServo_keeps rfl (State.at_keeps rfl .refl)⟩
  exact (State.grid_mapIdx (s := s.at u) l).trans (State.afterSlot_sends (s := s.at u) st on pos own ch turn late fresh)

theorem beaconPeriodStart_counts {s : State} {u q : Nat} (l : q < s.servo.grids.length) (st : 3 ≤ s.pwr.stage)
    (on : (s.pn ND_PLC_MAINS).testBit q = true) (v : s.zcValid = true) (a : (s.grid q).anchor ≠ 0)
    (le : (s.grid q).anchor + s.beaconPeriod ≤ (s.at u).nodeNow) :
    ∃ t, execBeaconPeriodStart u s = .next t ∧ t.grid q = { s.grid q with
      anchor := (s.nearCrossing ((s.grid q).anchor + s.beaconPeriod + s.gridCorrection (s.grid q)) - s.gridCorrection (s.grid q)).toNat
      number := ((s.grid q).number + 1) % 2 ^ 32, on := true } ∧ Keeps [.clk, .servo] s t := by
  refine ⟨_, rfl, (State.grid_mapIdx (s := s.at u) l).trans ?_, State.modServo_keeps rfl (State.at_keeps rfl .refl)⟩
  have run : (s.at u).mainsOn q = true := by
    unfold State.mainsOn
    rw [show ((s.at u).pn ND_PLC_MAINS).testBit q = true from on, show decide (3 ≤ (s.at u).pwr.stage) = true from decide_eq_true st]
    rfl
  exact (if_pos run).trans (State.nextPeriod_counts (s := s.at u) v a le)

/-- An output after a leading edge at the instant `u`. -/
structure Led (s : State) (u i : Nat) (o : Tto) : Prop where
  level : o.level = !(s.tto i).polarity
  edges : o.edges = inc32 (s.tto i).edges
  armed : o.armed = ((s.tto i).mode == 2)
  next : o.next = if (s.tto i).mode = 2 then (s.tto i).next + (s.tto i).period else (s.tto i).next
  trail : o.trailAt = some (u - ((s.at u).nodeNow - (if (s.tto i).late then (s.at u).nodeNow else (s.tto i).next)) + (s.tto i).width)

theorem State.leadTto_led {s : State} {u i : Nat} (n : s.servo.ttos.length = 8) (l : i < 8) : Led s u i (((s.at u).leadTto u i).tto i) := by
  rw [State.leadTto_same (s := s.at u) (n.symm ▸ l)]
  exact ⟨rfl, rfl, rfl, rfl, rfl⟩

theorem ttoEdge_leads {s : State} {u i : Nat} (snd : Sound s) (l : i < 8) (d : LeadingEdgeDue s u i) :
    ∃ t, execTtoEdge u i s = .next t ∧ Led s u i (t.tto i) ∧
      ((s.tto i).mode = 1 ∨ (s.tto i).report = true → Raised t 59 [byteOf i, byteOf (b2n (s.tto i).late)]) ∧
      (∀ j, j ≠ i → t.tto j = s.tto j) ∧ Keeps [.clk, .servo, .host] s t := by
  have t := execTtoEdge_leads d
  have led := State.leadTto_led (u := u) snd.outputs l
  have others : ∀ j, j ≠ i → ((s.at u).leadTto u i).tto j = s.tto j := fun j ne => State.leadTto_other ne
  have events : ((s.at u).leadTto u i).host.events.length = 64 := snd.host.queues
  have kept : Keeps [.clk, .servo, .host] s ((s.at u).leadTto u i) := State.modTto_keeps rfl (State.at_keeps rfl .refl)
  generalize (s.at u).leadTto u i = y at t led others events kept
  by_cases tell : (s.tto i).mode = 1 ∨ (s.tto i).report = true
  · rw [if_pos tell] at t
    exact ⟨_, t, led, fun _ => State.ttoEvent_tells events, others, State.ttoEvent_keeps rfl kept⟩
  · rw [if_neg tell] at t
    exact ⟨_, t, led, fun yes => absurd yes tell, others, kept⟩

theorem tciEdge_stamps {s : State} {u i clocks : Nat} {rising : Bool} (snd : Sound s) (l : i < 4)
    (on : (s.tci i).edges = 3 ∨ (s.tci i).edges = (if rising then 1 else 2)) (long : (s.tci i).filter ≤ clocks)
    (room : fifoLevel 4 (s.tci i).fifo < 16) (free : s.test.regs.fifo.getLsbD (4 + i) = false) :
    ∃ t, execTciEdge u i rising clocks s = .next t ∧
      (t.tci i).fifo.words = (s.tci i).fifo.words ++ [(((s.at u).nodeNow + 7) / 8 * 8 + b2n rising * 2 ^ 64, false, false)] ∧
      (t.tci i).fifo.wptr = ((s.tci i).fifo.wptr + 1) % 2 ^ 5 ∧ (∀ j, j ≠ i → t.tci j = s.tci j) ∧ Keeps [.clk, .servo] s t := by
  have t := execTciEdge_taken (s := s) (u := u) l on long
  rw [if_pos ⟨room, by rw [free]; rfl⟩] at t
  have same := State.modTci_same (s := s.at u) (i := i) (f := fun x => { x with fifo := { x.fifo with
    words := x.fifo.words ++ [(((s.at u).nodeNow + 7) / 8 * 8 + b2n rising * 2 ^ 64, false, false)], wptr := wrapInc 5 x.fifo.wptr } })
    (snd.captures.symm ▸ l)
  refine ⟨_, t, ?_, ?_, fun j ne => State.modTci_other ne, State.modTci_keeps rfl (State.at_keeps rfl .refl)⟩ <;> rw [same] <;> rfl

/-- The input's FIFO marked as overrun in this frame. -/
def State.overrunTci (s : State) (i : Nat) : State :=
  s.modTci i (fun x => { x with fifo := { x.fifo with overrun := true, ovFrame := some s.frm } })

theorem tciEdge_overruns {s : State} {u i clocks : Nat} {rising : Bool} (snd : Sound s) (l : i < 4)
    (on : (s.tci i).edges = 3 ∨ (s.tci i).edges = (if rising then 1 else 2)) (long : (s.tci i).filter ≤ clocks)
    (full : 16 ≤ fifoLevel 4 (s.tci i).fifo) : ∃ t, execTciEdge u i rising clocks s = .next t ∧
      (t.tci i).fifo.overrun = true ∧ (t.tci i).fifo.words = (s.tci i).fifo.words ∧
      ((s.tci i).fifo.ovFrame ≠ some s.frm → Raised t 6 [byteOf (16 + i), 0]) ∧ (∀ j, j ≠ i → t.tci j = s.tci j) ∧
      Keeps [.clk, .servo, .host] s t := by
  have t := execTciEdge_taken (s := s) (u := u) l on long
  rw [if_neg fun a => absurd a.1 (Nat.not_lt.mpr full)] at t
  have t : execTciEdge u i rising clocks s = if (s.tci i).fifo.ovFrame = some s.frm then .next ((s.at u).overrunTci i)
    else .next (((s.at u).overrunTci i).raise 6 (16 + i) (fifoBody (16 + i) 0 (fifoLevel 4 (s.tci i).fifo) s.frm 1)) := t
  have same : ((s.at u).overrunTci i).tci i = { s.tci i with fifo := { (s.tci i).fifo with overrun := true, ovFrame := some s.frm } } :=
    State.modTci_same (s := s.at u) (snd.captures.symm ▸ l)
  have overrun : (((s.at u).overrunTci i).tci i).fifo.overrun = true := by rw [same]
  have words : (((s.at u).overrunTci i).tci i).fifo.words = (s.tci i).fifo.words := by rw [same]
  have others : ∀ j, j ≠ i → ((s.at u).overrunTci i).tci j = s.tci j := fun j ne => State.modTci_other ne
  have events : ((s.at u).overrunTci i).host.events.length = 64 := snd.host.queues
  have kept : Keeps [.clk, .servo, .host] s ((s.at u).overrunTci i) := State.modTci_keeps rfl (State.at_keeps rfl .refl)
  generalize (s.at u).overrunTci i = y at t overrun words others events kept
  by_cases told : (s.tci i).fifo.ovFrame = some s.frm
  · rw [if_pos told] at t
    exact ⟨_, t, overrun, words, fun ne => absurd told ne, others, kept⟩
  · rw [if_neg told] at t
    exact ⟨_, t, overrun, words, fun _ => State.raise_raised events (by decide) (by simp [fifoBody]; rfl) (by simp), others, State.raise_keeps rfl kept⟩

end Sys2Proof.Machine

open Sys2Proof Sys2Proof.Machine

/-- Settles O28: each event by the lemma of what it does. -/
theorem beaconAndPinEventsComplete : Obligations.BeaconAndPinEventsComplete := by
  intro s u snd
  refine ⟨fun b st port on => ⟨fun none => beaconReceived_new snd st port on none, fun n e valid => ?locks⟩,
    fun q j l st on pos own ch turn late fresh => beaconSlot_sends l st on pos own ch turn late fresh,
    fun q l st on v a le => beaconPeriodStart_counts l st on v a le, fun node n e le => beaconTimeout_forgets snd e le,
    fun i l => ⟨fun d e le => ⟨_, execTtoEdge_trailing e le, State.modTto_same (snd.outputs.symm ▸ l), fun j ne => State.modTto_other ne,
      State.modTto_keeps rfl (State.at_keeps rfl .refl)⟩, fun no arm le => ⟨fun one => ?single, fun two => ?train⟩⟩,
    fun i rising clocks l => ⟨fun no3 no => execTciEdge_ignored no3 no, fun on long =>
      ⟨fun room free => tciEdge_stamps snd l on long room free, fun full => tciEdge_overruns snd l on long full⟩⟩⟩
  case locks =>
    intro x own off cls _ phase k serves may noMaster src sender loaded acq refused key jump close run
    exact beaconReceived_locks snd st port on e valid cls phase k serves may noMaster sender
      ⟨acq, loaded, src, key, jump, refused, close, run⟩
  case single =>
    obtain ⟨t, e, h, told, others, kept⟩ := ttoEdge_leads snd l ⟨arm, by rw [one]; decide, no, le⟩
    exact ⟨t, e, h.level, h.edges, by rw [h.armed, one]; rfl, h.trail, told (.inl one), others, kept⟩
  case train =>
    obtain ⟨t, e, h, told, others, kept⟩ := ttoEdge_leads snd l ⟨arm, by rw [two]; decide, no, le⟩
    exact ⟨t, e, h.level, h.edges, by rw [h.armed, two]; rfl, h.next.trans (if_pos two), h.trail, fun r => told (.inr r), others, kept⟩
end

section
/-!
Discovery, the root and its loss (17 R404, R406–R409, R421).
-/

namespace Sys2Proof.Machine

/-! ### A node that hears a token -/

/-- The part of the state in which a node knows its root and its run, unchanged. -/
structure SameRoot (s x : State) : Prop where
  isRoot : x.ring.isRoot = s.ring.isRoot
  root : x.ring.root = s.ring.root
  runNo : x.ring.runNo = s.ring.runNo
  running : x.ring.running = s.ring.running
  gathered : x.ring.gathered = s.ring.gathered
  keeps : Keeps [.host, .ring] s x

theorem SameRoot.trans {s x y : State} (h : SameRoot s x) (g : SameRoot x y) : SameRoot s y :=
  ⟨g.isRoot.trans h.isRoot, g.root.trans h.root, g.runNo.trans h.runNo, g.running.trans h.running, g.gathered.trans h.gathered,
    g.keeps.then rfl h.keeps⟩

theorem State.checkDepth_ring {s : State} : s.checkDepth.ring = { s.ring with tooDeep := s.checkDepth.ring.tooDeep } := by
  unfold State.checkDepth
  dsimp only
  split
  · rfl
  · split
    · rfl
    · rfl

theorem State.checkDepth_root {s : State} : SameRoot s s.checkDepth := by
  have k : Keeps [.host, .ring] s s.checkDepth := State.checkDepth_keeps rfl .refl
  refine ⟨?_, ?_, ?_, ?_, ?_, k⟩ <;> rw [State.checkDepth_ring]

theorem State.noteNeighbour_ring {s : State} {k : Token} : ∃ a b, (s.noteNeighbour k).ring = { s.ring with nbrA := a, nbrB := b } := by
  have put : ∀ (r : Ring) (n : Nat), ∃ a b,
      (if k.port = 0 then { r with nbrA := n } else if k.port = 1 then { r with nbrB := n } else r) = { r with nbrA := a, nbrB := b } := by
    intro r n
    split
    · exact ⟨_, _, rfl⟩
    · split
      · exact ⟨_, _, rfl⟩
      · exact ⟨_, _, rfl⟩
  exact put _ _

theorem State.noteNeighbour_root {s : State} {k : Token} : SameRoot s (s.noteNeighbour k) := by
  have kept : Keeps [.host, .ring] s (s.noteNeighbour k) := State.noteNeighbour_keeps rfl .refl
  obtain ⟨a, b, e⟩ := State.noteNeighbour_ring (s := s) (k := k)
  refine ⟨?_, ?_, ?_, ?_, ?_, kept⟩ <;> rw [e]

theorem SameRoot.nodeId {s x : State} (h : SameRoot s x) : x.nodeId = s.nodeId := State.pn_congr (h.keeps.par rfl)

theorem SameRoot.gmNode {s x : State} (h : SameRoot s x) : x.gmNode = s.gmNode := by
  unfold State.gmNode
  rw [h.keeps.servo rfl, h.nodeId]

theorem SameRoot.betterRoot {s x : State} (h : SameRoot s x) (root hops : Nat) : x.betterRoot root hops = s.betterRoot root hops := by
  unfold State.betterRoot
  rw [h.gmNode, h.nodeId, h.keeps.servo rfl, State.pn_congr (h.keeps.par rfl)]

theorem State.at_root {s : State} {u : Nat} {x : State} (h : SameRoot (s.at u) x) : Keeps [.clk, .host, .ring] s x :=
  h.keeps.then rfl (State.at_keeps rfl .refl)

/-- A node as it hears a token. -/
def State.hearToken (s : State) (k : Token) : State := (s.noteNeighbour k).checkDepth

theorem State.hearToken_root {s : State} {k : Token} : SameRoot s (s.hearToken k) := State.noteNeighbour_root.trans State.checkDepth_root

theorem State.hearToken_sound {s : State} {k : Token} (h : Sound s) : Sound (s.hearToken k) :=
  State.checkDepth_sound (State.noteNeighbour_sound h)

/-- The ports that a token leaves by: the others, and its own for a full one. -/
def State.tokenPorts (s : State) (k : Token) : List Nat :=
  if 160 ≤ k.entries.length then s.yuPorts.filter (· != k.port) ++ [k.port] else s.yuPorts.filter (· != k.port)

/-- The run's token taken up and passed on by a node that is not its root. -/
def State.passToken (s : State) (k : Token) : State :=
  let x := s.modRing (fun r => { r with runNo := k.run % 65536, runPort := some k.port })
  let y := x.modRing (fun r => { r with gathered := if 160 ≤ k.entries.length then [x.ownEntry (k.hops + 1) k.port]
    else k.entries ++ [x.ownEntry (k.hops + 1) k.port] })
  y.sendOn (y.tokenPorts k) 5 (Config.ringFrame 4)

theorem execDiscoveryTokenReceived_takes {s : State} {u : Nat} {k : Token} (d : s.discovers = true) (p : k.port < 4) :
    execDiscoveryTokenReceived u k s =
      if ((s.at u).hearToken k).ring.isRoot = true ∧ (k.root = ((s.at u).hearToken k).nodeId ∨
          ((s.at u).hearToken k).betterRoot k.root k.ptpHops = false) then
        if k.root = ((s.at u).hearToken k).nodeId ∧ k.run = ((s.at u).hearToken k).ring.runNo ∧ ((s.at u).hearToken k).ring.running = true then
          .next (((s.at u).hearToken k).modRing (fun r => { r with
            gathered := k.entries.foldl (fun a e => if a.contains e then a else a ++ [e]) r.gathered }))
        else .next ((s.at u).hearToken k)
      else if k.run = (((s.at u).hearToken k).setRoot k.root).ring.runNo ∧ (((s.at u).hearToken k).setRoot k.root).ring.runPort.isSome = true ∧
          (((s.at u).hearToken k).setRoot k.root).ring.runPort ≠ some k.port then .next (((s.at u).hearToken k).setRoot k.root)
      else .next ((((s.at u).hearToken k).setRoot k.root).passToken k) := by
  refine if_neg ?_
  rintro (no | far)
  · exact absurd (d.symm.trans no) (by decide)
  · omega

theorem mem_gather {a : DiscEntry} {l m : List DiscEntry} (h : a ∈ m ∨ a ∈ l) :
    a ∈ l.foldl (fun a e => if a.contains e then a else a ++ [e]) m := by
  induction l generalizing m with
  | nil => simpa using h
  | cons e l ih =>
    refine ih ?_
    rcases h with h | h
    · left
      dsimp only
      split
      · exact h
      · exact List.mem_append_left _ h
    · rcases List.mem_cons.mp h with rfl | h
      · left
        dsimp only
        split
        · next c => simpa using c
        · exact List.mem_append_right _ (List.mem_singleton.mpr rfl)
      · exact .inr h

theorem State.setRoot_same {s : State} {root : Nat} (e : s.ring.root = root) : s.setRoot root = s := if_pos e

/-- A root that is new to the node. -/
structure RootSet (s x : State) (r : Nat) : Prop where
  root : x.ring.root = r
  isRoot : x.ring.isRoot = (r == s.nodeId)
  due : x.ring.discDue = if r == s.nodeId then some s.clk.up else none
  awaiting : x.ring.awaiting = false
  noFrame : x.ring.noFrame = 0
  report : Raised x 13 [5, 0xFF]

theorem State.setRoot_new {s : State} {root : Nat} (n : s.host.events.length = 64) (ne : s.ring.root ≠ root) :
    RootSet s (s.setRoot root) root := by
  have e : s.setRoot root = _ := if_neg ne
  rw [e]
  exact ⟨rfl, rfl, rfl, rfl, rfl, State.topology_raised n⟩

/-! ### The events of discovery -/

theorem discoveryStart_begins {s : State} {u d : Nat} (root : s.ring.isRoot = true) (takes : s.discovers = true) (due : s.ring.discDue = some d)
    (le : d ≤ u) : ∃ t e, execDiscoveryStart u s = .next t ∧ t.ring.runNo = (s.ring.runNo + 1) % 65536 ∧ t.ring.running = true ∧
      t.ring.gathered = [e] ∧ e.node = s.nodeId ∧ e.hops = 0 ∧
      t.ring.discDue = some (u + s.pn ND_DISC_PERIOD * 1000000000) ∧ Keeps [.clk, .host, .ring] s t := by
  have ripe : ripeAt (s.at u).ring.discDue u = true := by
    rw [show (s.at u).ring.discDue = some d from due]
    exact decide_eq_true le
  have t : execDiscoveryStart u s = _ := if_pos ⟨root, takes, ripe⟩
  have kept := exec_keeps (.discoveryStart u) _ _ t
  have same := State.checkDepth_root (s := s.at u)
  have period : (s.at u).checkDepth.pn ND_DISC_PERIOD = s.pn ND_DISC_PERIOD := State.pn_congr (same.keeps.par rfl)
  exact ⟨_, _, t, congrArg (fun n => (n + 1) % 65536) same.runNo, rfl, rfl, same.nodeId, rfl,
    congrArg (fun n => some (u + n * 1000000000)) period, kept⟩

theorem discoveryToken_gathers {s : State} {u : Nat} {k : Token} (takes : s.discovers = true) (p : k.port < 4) (root : s.ring.isRoot = true)
    (mine : k.root = s.nodeId) (run : k.run = s.ring.runNo) (running : s.ring.running = true) :
    ∃ t, execDiscoveryTokenReceived u k s = .next t ∧ (∀ e ∈ k.entries, e ∈ t.ring.gathered) ∧
      (∀ e ∈ s.ring.gathered, e ∈ t.ring.gathered) ∧ Keeps [.clk, .host, .ring] s t := by
  have t := execDiscoveryTokenReceived_takes (u := u) takes p
  have same := State.hearToken_root (s := s.at u) (k := k)
  rw [if_pos ⟨same.isRoot.trans root, .inl (mine.trans same.nodeId.symm)⟩, if_pos ⟨mine.trans same.nodeId.symm, run.trans same.runNo.symm,
    same.running.trans running⟩] at t
  exact ⟨_, t, fun e m => mem_gather (.inr m), fun e m => mem_gather (.inl (same.gathered ▸ m)), State.modRing_keeps rfl (State.at_root same)⟩

/-- A token of the node's root, of another run, at a node that is not the root. -/
theorem discoveryToken_passes {s : State} {u : Nat} {k : Token} (takes : s.discovers = true) (p : k.port < 4) (root : s.ring.isRoot = false)
    (mine : k.root = s.ring.root) (run : k.run ≠ s.ring.runNo) :
    execDiscoveryTokenReceived u k s = .next (((s.at u).hearToken k).passToken k) := by
  have t := execDiscoveryTokenReceived_takes (u := u) takes p
  have same := State.hearToken_root (s := s.at u) (k := k)
  rw [if_neg fun a => absurd ((same.isRoot.trans root).symm.trans a.1) (by decide), State.setRoot_same (same.root.trans mine.symm),
    if_neg fun a => run (a.1.trans same.runNo)] at t
  exact t

theorem State.tokenPorts_others {s : State} {k : Token} (few : k.entries.length < 160) {q : Nat} (m : q ∈ s.tokenPorts k) : q ≠ k.port := by
  unfold State.tokenPorts at m
  rw [if_neg (Nat.not_le.mpr few)] at m
  simpa using (List.mem_filter.mp m).2

theorem State.tokenPorts_own {s : State} {k : Token} (many : 160 ≤ k.entries.length) : k.port ∈ s.tokenPorts k := by
  unfold State.tokenPorts
  rw [if_pos many]
  exact List.mem_append_right _ (List.mem_singleton.mpr rfl)

theorem State.passToken_sent {s : State} {k : Token} (few : k.entries.length < 160) : ∀ x ∈ (s.passToken k).ring.sent, x.1 ≠ k.port :=
  fun _ m => State.tokenPorts_others few (State.sendOn_only m).2

theorem State.passToken_back {s : State} {k : Token} (many : 160 ≤ k.entries.length) (l : k.port < 2) :
    (k.port, 5, Config.ringFrame 4) ∈ (s.passToken k).ring.sent :=
  State.sendOn_sent l (State.tokenPorts_own many)

theorem State.passToken_gathered {s : State} {k : Token} : (s.passToken k).ring.gathered =
    if 160 ≤ k.entries.length then [s.ownEntry (k.hops + 1) k.port] else k.entries ++ [s.ownEntry (k.hops + 1) k.port] := rfl

theorem State.passToken_keeps {s : State} {k : Token} : Keeps [.ring] s (s.passToken k) :=
  State.sendOn_keeps rfl (State.modRing_keeps rfl (State.modRing_keeps rfl .refl))

/-- The root that yields to a better claimant. -/
theorem discoveryToken_yields {s : State} {u : Nat} {k : Token} (snd : Sound s) (takes : s.discovers = true) (p : k.port < 4)
    (root : s.ring.root = s.nodeId) (ne : k.root ≠ s.nodeId) (better : s.betterRoot k.root k.ptpHops = true) :
    ∃ t, execDiscoveryTokenReceived u k s = .next t ∧ t.ring.root = k.root ∧ t.ring.isRoot = false ∧
      t.ring.awaiting = false ∧ Raised t 13 [5, 0xFF] ∧ Keeps [.clk, .host, .ring] s t := by
  have t := execDiscoveryTokenReceived_takes (u := u) takes p
  have same := State.hearToken_root (s := s.at u) (k := k)
  have better' : ((s.at u).hearToken k).betterRoot k.root k.ptpHops = true := (same.betterRoot _ _).trans better
  have new : RootSet ((s.at u).hearToken k) (((s.at u).hearToken k).setRoot k.root) k.root :=
    State.setRoot_new (State.hearToken_sound (State.at_sound snd)).host.queues fun e => ne (e.symm.trans (same.root.trans root))
  have notMine : (k.root == ((s.at u).hearToken k).nodeId) = false := by
    rw [same.nodeId]
    exact beq_false_of_ne ne
  have kept : Keeps [.clk, .host, .ring] s (((s.at u).hearToken k).setRoot k.root) := State.setRoot_keeps rfl (State.at_root same)
  rw [if_neg fun a => a.2.elim (fun e => ne (e.trans same.nodeId)) fun e => absurd (better'.symm.trans e) (by decide)] at t
  generalize ((s.at u).hearToken k).setRoot k.root = y at t new kept
  split at t
  · exact ⟨_, t, new.root, new.isRoot.trans notMine, new.awaiting, new.report, kept⟩
  · exact ⟨_, t, new.root, new.isRoot.trans notMine, new.awaiting, ⟨new.report.newest, new.report.pending⟩, State.passToken_keeps.then rfl kept⟩

/-! ### The root lost -/

/-- The root that this node selects (R407). -/
def State.pickRoot (s : State) : Nat :=
  if s.pn ND_BAL_ROOT ≠ 0 ∧ (s.pn ND_BAL_ROOT = s.nodeId ∨ s.ring.map.any (fun e => e.node == s.pn ND_BAL_ROOT) = true) then s.pn ND_BAL_ROOT
  else if s.gmNode = 0xFFF then s.nodeId else s.gmNode

theorem execRootLost_selects {s : State} {u : Nat} (takes : s.discovers = true) (root : s.ring.isRoot = false) (n : 3 ≤ s.ring.noFrame) :
    execRootLost u s = .next (((s.at u).modRing (fun r => { r with root := 0, noFrame := 0 })).setRoot s.pickRoot) := if_pos ⟨takes, root, n⟩

theorem rootLost_selects {s : State} {u : Nat} (snd : Sound s) (takes : s.discovers = true) (root : s.ring.isRoot = false) (n : 3 ≤ s.ring.noFrame) :
    ∃ t, execRootLost u s = .next t ∧
      (s.pn ND_BAL_ROOT = s.nodeId ∨ (s.pn ND_BAL_ROOT = 0 ∧ s.gmNode = 0xFFF) → t.ring.root = s.nodeId ∧
        t.ring.isRoot = true ∧ t.ring.discDue = some (max s.clk.up u) ∧ Raised t 13 [5, 0xFF]) ∧
      (s.pn ND_BAL_ROOT = 0 → s.gmNode ≠ 0xFFF → s.gmNode ≠ 0 → t.ring.root = s.gmNode ∧ Raised t 13 [5, 0xFF]) ∧
      t.ring.noFrame = 0 ∧ Keeps [.clk, .host, .ring] s t := by
  have t := execRootLost_selects (u := u) takes root n
  have kept := exec_keeps (.rootLost u) _ _ t
  have assigned : s.nodeId ≠ 0 := by
    unfold State.discovers at takes
    simp only [Bool.and_eq_true, bne_iff_ne, ne_eq] at takes
    exact takes.2
  have new : ∀ pick, 0 ≠ pick → RootSet ((s.at u).modRing (fun r => { r with root := 0, noFrame := 0 }))
      (((s.at u).modRing (fun r => { r with root := 0, noFrame := 0 })).setRoot pick) pick := fun pick ne => State.setRoot_new snd.host.queues ne
  refine ⟨_, t, fun self => ?_, fun none far ne => ?_, ?_, kept⟩
  · have pick : s.pickRoot = s.nodeId := by
      unfold State.pickRoot
      rcases self with e | ⟨z, far⟩
      · rw [if_pos ⟨by rw [e]; exact assigned, .inl e⟩, e]
      · rw [if_neg fun a => a.1 z, if_pos far]
    rw [pick]
    have set := new s.nodeId (Ne.symm assigned)
    have mine : (s.nodeId == ((s.at u).modRing (fun r => { r with root := 0, noFrame := 0 })).nodeId) = true := beq_self_eq_true s.nodeId
    exact ⟨set.root, set.isRoot.trans mine, set.due.trans (if_pos mine), set.report⟩
  · have pick : s.pickRoot = s.gmNode := by
      unfold State.pickRoot
      rw [if_neg fun a => a.1 none, if_neg far]
    rw [pick]
    have set := new s.gmNode (Ne.symm ne)
    exact ⟨set.root, set.report⟩
  · by_cases z : 0 = s.pickRoot
    · rw [State.setRoot_same z]
      rfl
    · exact (new _ z).noFrame

end Sys2Proof.Machine
end

section
/-!
A discovery complete (17 R406, R408, R409).
-/

namespace Sys2Proof.Machine

/-- Where the map places a node: its entry, the last position of its branch, its successor, and whether its ID is on the map twice. -/
structure Place where
  own : Option MapEntry
  last : Nat
  next : Nat
  dup : Bool

def Place.position (x : Place) : Nat := match x.own with | some e => e.position | none => 0
def Place.branch (x : Place) : Nat := match x.own with | some e => e.branch | none => 0
def Place.ring (x : Place) : Bool := match x.own with | some e => e.ring | none => false
def Place.closing (x : Place) : Nat := match x.own with | some e => if e.entry.port = 0 then 1 else 0 | none => 0
def Place.manages (x : Place) : Bool := x.ring && x.position == x.last && 0 < x.last

/-- The place of this node in a map of a root. -/
def State.placeIn (s : State) (root : Nat) (m : List MapEntry) : Place where
  own := m.find? (fun e => e.entry.node == s.nodeId)
  last := (m.filter (fun e => e.branch == (match m.find? (fun e => e.entry.node == s.nodeId) with | some e => e.branch | none => 0))).foldl
    (fun a e => max a e.position) 0
  next := successorOf root s.nodeId m
  dup := (duplicates m).contains s.nodeId

/-- The place taken in the ring's own state. -/
def State.takePlace (s : State) (t : Nat) (x : Place) : State := s.modRing (fun r => { r with
  placed := x.own.isSome && !x.dup, dup := x.dup, branch := x.branch, position := x.position, successor := x.next, inRing := x.ring
  head := x.ring && x.position == 0
  testDue := if x.ring && x.position == 0 then some (r.testDue.getD t) else none
  manager := x.manages, closing := if x.manages then x.closing else r.closing
  closingBlocked := x.manages && (r.closingBlocked || !r.manager)
  testSeen := if x.manages then some (r.testSeen.getD t) else none })

/-- The position taken on the mains branches. -/
def State.takeGrids (s : State) (x : Place) : State :=
  match x.own with
  | some e => s.modServo (fun v => { v with
      grids := v.grids.mapIdx (fun q g => { g with pos := some (if e.entry.port = q + 2 then x.position % 32 else 0) }) })
  | none => s

/-- The place taken, and reported where it is another. -/
def State.bePlaced (s : State) (t : Nat) (x : Place) : State :=
  if s.ring.position ≠ x.position ∨ s.ring.successor ≠ x.next then ((s.takePlace t x).takeGrids x).topology 6 0xFF 0
  else (s.takePlace t x).takeGrids x

/-- The root's map published. -/
def State.publish (s : State) (m : List MapEntry) : State :=
  let x := s.modRing (fun r => { r with
    running := false, map := m.map (fun e => e.entry)
    inBal := (m.filter (fun e => e.entry.node != 0 && !(duplicates m).contains e.entry.node && !e.entry.deep)).length })
  (if (duplicates m).isEmpty then x else x.topology 8 0xFF ((duplicates m).headD 0)).topology 0 0xFF 0

theorem execDiscoveryComplete_other {s : State} {u : Nat} {m : List MapEntry} (takes : s.discovers = true) (root : s.ring.isRoot = false) :
    execDiscoveryComplete u s.ring.root m s = .next ((s.at u).bePlaced u ((s.at u).placeIn s.ring.root m)) := by
  have mine : ((s.at u).ring.isRoot && (s.at u).ring.running && s.ring.root == (s.at u).nodeId) = false := by
    rw [show (s.at u).ring.isRoot = false from root]
    rfl
  unfold execDiscoveryComplete
  dsimp only
  rw [mine, if_neg ?_]
  · rfl
  · rintro (no | no | no)
    · exact absurd (takes.symm.trans no) (by decide)
    · exact no rfl
    · exact absurd (root.symm.trans no.1) (by decide)

theorem execDiscoveryComplete_root {s : State} {u : Nat} {m : List MapEntry} (takes : s.discovers = true) (root : s.ring.isRoot = true)
    (running : s.ring.running = true) (mine : s.ring.root = s.nodeId) : execDiscoveryComplete u s.nodeId m s = .next
      (((s.at u).bePlaced u ((s.at u).placeIn s.nodeId (m.filter (fun e => s.ring.gathered.contains e.entry)))).publish
        (m.filter (fun e => s.ring.gathered.contains e.entry))) := by
  have own : ((s.at u).ring.isRoot && (s.at u).ring.running && s.nodeId == (s.at u).nodeId) = true := by
    rw [show (s.at u).ring.isRoot = true from root, show (s.at u).ring.running = true from running]
    exact beq_self_eq_true s.nodeId
  unfold execDiscoveryComplete
  dsimp only
  rw [own, if_neg ?_]
  · rfl
  · rintro (no | no | no)
    · exact absurd (takes.symm.trans no) (by decide)
    · exact no mine.symm
    · exact absurd no.2 (by decide)

theorem State.takeGrids_ring {s : State} {x : Place} : (s.takeGrids x).ring = s.ring := by
  unfold State.takeGrids
  split <;> rfl

theorem State.bePlaced_ring {s : State} {u : Nat} {x : Place} : (s.bePlaced u x).ring = (s.takePlace u x).ring := by
  unfold State.bePlaced
  split
  · exact State.takeGrids_ring
  · exact State.takeGrids_ring

theorem State.bePlaced_servo {s : State} {u : Nat} {x : Place} : (s.bePlaced u x).servo = ((s.takePlace u x).takeGrids x).servo := by
  unfold State.bePlaced
  split <;> rfl

theorem State.takeGrids_pos {s : State} {x : Place} {e : MapEntry} (own : x.own = some e) {q : Nat} (l : q < s.servo.grids.length) :
    ((s.takeGrids x).grid q).pos = some (if e.entry.port = q + 2 then e.position % 32 else 0) := by
  have position : x.position = e.position := by rw [Place.position, own]
  have grids : s.takeGrids x = s.modServo (fun v => { v with
      grids := v.grids.mapIdx (fun q g => { g with pos := some (if e.entry.port = q + 2 then x.position % 32 else 0) }) }) := by
    rw [State.takeGrids, own]
  rw [grids, State.grid_mapIdx l, position]

theorem State.topology_events {s : State} {cause port nbr : Nat} (h : s.host.events.length = 64) :
    (s.topology cause port nbr).host.events.length = 64 := by
  simpa [State.topology, State.raise, State.addDetail, State.modHost, upd] using h

theorem State.bePlaced_sound {s : State} {u : Nat} {x : Place} (h : s.host.events.length = 64) : (s.bePlaced u x).host.events.length = 64 := by
  have grids : ((s.takePlace u x).takeGrids x).host.events.length = 64 := by
    unfold State.takeGrids
    split <;> exact h
  unfold State.bePlaced
  split
  · exact State.topology_events grids
  · exact grids

theorem discoveryComplete_places {s : State} {u : Nat} {m : List MapEntry} {e : MapEntry} (takes : s.discovers = true) (root : s.ring.isRoot = false)
    (own : m.find? (fun x => x.entry.node == s.nodeId) = some e) : ∃ t, execDiscoveryComplete u s.ring.root m s = .next t ∧
      t.ring.position = e.position ∧ t.ring.branch = e.branch ∧ t.ring.successor = successorOf s.ring.root s.nodeId m ∧ t.ring.inRing = e.ring ∧
      (t.ring.placed = true ↔ s.nodeId ∉ duplicates m) ∧ (∀ q, q < s.servo.grids.length →
        (t.grid q).pos = some (if e.entry.port = q + 2 then e.position % 32 else 0)) ∧ Keeps [.clk, .servo, .host, .ring] s t := by
  have t := execDiscoveryComplete_other (u := u) (m := m) takes root
  have kept := exec_keeps (.discoveryComplete u s.ring.root m) _ _ t
  have own' : ((s.at u).placeIn s.ring.root m).own = some e := own
  have next : ((s.at u).placeIn s.ring.root m).next = successorOf s.ring.root s.nodeId m := rfl
  have dup : ((s.at u).placeIn s.ring.root m).dup = (duplicates m).contains s.nodeId := rfl
  generalize (s.at u).placeIn s.ring.root m = x at t kept own' next dup
  refine ⟨_, t, ?_, ?_, ?_, ?_, ?_, fun q l => ?_, kept⟩
  · rw [State.bePlaced_ring]
    change x.position = _
    rw [Place.position, own']
  · rw [State.bePlaced_ring]
    change x.branch = _
    rw [Place.branch, own']
  · rw [State.bePlaced_ring]
    exact next
  · rw [State.bePlaced_ring]
    change x.ring = _
    rw [Place.ring, own']
  · rw [State.bePlaced_ring]
    change (x.own.isSome && !x.dup) = true ↔ _
    rw [own', dup]
    simp
  · unfold State.grid
    rw [State.bePlaced_servo]
    exact State.takeGrids_pos (s := (s.at u).takePlace u x) own' l

theorem discoveryComplete_publishes {s : State} {u : Nat} {m : List MapEntry} (snd : Sound s) (takes : s.discovers = true)
    (root : s.ring.isRoot = true) (running : s.ring.running = true) (mine : s.ring.root = s.nodeId) :
    ∃ t, execDiscoveryComplete u s.nodeId m s = .next t ∧ t.ring.running = false ∧
      t.ring.map = (m.map (fun e => e.entry)).filter (fun e => s.ring.gathered.contains e) ∧ Raised t 13 [0, 0xFF] ∧
      Keeps [.clk, .servo, .host, .ring] s t := by
  have t := execDiscoveryComplete_root (u := u) (m := m) takes root running mine
  have kept := exec_keeps (.discoveryComplete u s.nodeId m) _ _ t
  have events : ((s.at u).bePlaced u ((s.at u).placeIn s.nodeId (m.filter (fun e => s.ring.gathered.contains e.entry)))).host.events.length = 64 :=
    State.bePlaced_sound snd.host.queues
  generalize (s.at u).bePlaced u ((s.at u).placeIn s.nodeId (m.filter (fun e => s.ring.gathered.contains e.entry))) = y at t kept events
  have told : ∀ (c : Bool) (x : State) n, x.host.events.length = 64 → Raised ((if c then x else x.topology 8 0xFF n).topology 0 0xFF 0) 13 [0, 0xFF] :=
    fun c x n h => State.topology_raised (by
      cases c
      · exact State.topology_events h
      · exact h)
  have same : ∀ (c : Bool) (x : State) n, ((if c then x else x.topology 8 0xFF n).topology 0 0xFF 0).ring = x.ring := fun c x n => by
    cases c <;> rfl
  refine ⟨_, t, congrArg Ring.running (same _ _ _), (congrArg Ring.map (same _ _ _)).trans ?_, told _ _ _ events, kept⟩
  change (m.filter (fun e => s.ring.gathered.contains e.entry)).map (fun e => e.entry) = _
  rw [List.filter_map]
  rfl

end Sys2Proof.Machine
end

section
/-!
The balance frame launched, passed, returned and judged (17 R414–R419).
-/

namespace Sys2Proof.Machine

/-! ### What is added in place leaves the head of the frame -/

theorem putField_head {a f : Bytes} {off k n : Nat} (h : a <+: f) (l : a.length ≤ off) : a <+: putField f off k n := by
  have keep : a <+: f.take off := List.prefix_take_iff.mpr ⟨h, l⟩
  unfold putField
  rw [List.append_assoc]
  exact keep.trans (List.prefix_append _ _)

theorem addField_head {a f : Bytes} {off k bits n : Nat} (h : a <+: f) (l : a.length ≤ off) : a <+: addField f off k bits n := putField_head h l

theorem addGroup_head {a f : Bytes} {g : GroupRec} (h : a <+: f) (l : a.length ≤ 32) : a <+: addGroup f g := by
  unfold addGroup
  refine putField_head (addField_head (addField_head (addField_head h ?_) ?_) ?_) ?_ <;> omega

theorem placeFault_head {a rep f : Bytes} {k i : Nat} (h : a <+: f) (l : a.length ≤ 18) : a <+: (placeFault rep f k i).1 := by
  induction k generalizing i with
  | zero => exact addField_head h l
  | succ k ih =>
    unfold placeFault
    dsimp only
    split
    · rw [List.append_assoc]
      exact (List.prefix_take_iff.mpr ⟨h, by omega⟩).trans (List.prefix_append _ _)
    · split
      · exact putField_head h (by omega)
      · exact ih

theorem placeFaults_head {a : Bytes} (l : a.length ≤ 18) {k : Nat} : ∀ {q : List Bytes} {f : Bytes}, a <+: f → a <+: (placeFaults k q f).1 := by
  induction k with
  | zero => exact fun h => h
  | succ k ih =>
    intro q f h
    cases q with
    | nil => exact h
    | cons r q => exact ih (placeFault_head h l)

theorem foldl_head {α : Type} {a : Bytes} {g : Bytes → α → Bytes} (step : ∀ f x, a <+: f → a <+: g f x) {l : List α} {f : Bytes} (h : a <+: f) :
    a <+: l.foldl g f := by
  induction l generalizing f with
  | nil => exact h
  | cons x l ih => exact ih (step f x h)

theorem State.addGroups_head {s : State} {fits : Bool} {a f : Bytes} (h : a <+: f) (l : a.length ≤ 32) : a <+: s.addGroups fits f := by
  unfold State.addGroups
  split
  · split
    · exact foldl_head (fun _ _ h => addGroup_head h l) h
    · exact h
  · exact foldl_head (fun _ _ h => addGroup_head h l) h

/-- The frame once this node has counted itself as visited (R415). -/
def State.visit (s : State) (f : Bytes) : Bytes :=
  if s.ring.postedIn && ((match s.ring.posted with | some r => fld f 4 6 == r.interval % 2 ^ 48 | none => false) || s.pwr.capoOn && !s.pwr.capoReset)
  then addField f 16 2 16 1 else f

theorem State.addOwn_head {s : State} {a f : Bytes} (h : a <+: s.visit f) (l : a.length ≤ 18) : a <+: (s.addOwn f).2 :=
  placeFaults_head l (State.addGroups_head h (Nat.le_trans l (by decide)))

theorem State.visit_head {s : State} {a f : Bytes} (h : a <+: f) (l : a.length ≤ 16) : a <+: s.visit f := by
  exact iteInduction (motive := fun x => a <+: x) (fun _ => addField_head h l) fun _ => h

/-! ### A field read back -/

theorem fromLe_le : ∀ (k n : Nat), fromLe (le k n) = n % 256 ^ k
  | 0, n => by simp [le, fromLe, Nat.mod_one]
  | k + 1, n => by
    rw [le, fromLe, fromLe_le k, byteOf, BitVec.toNat_ofNat, Nat.pow_succ 256, Nat.mul_comm (256 ^ k) 256, Nat.mod_mul]

theorem fld_of_head {a f : Bytes} {off k : Nat} (h : a <+: f) (l : off + k ≤ a.length) : fld f off k = fld a off k := by
  obtain ⟨r, rfl⟩ := h
  unfold fld slice
  rw [List.drop_append_of_le_length (by omega), List.take_append_of_le_length (by rw [List.length_drop]; omega)]

theorem fld_putField {f : Bytes} {off k n : Nat} (l : off ≤ f.length) : fld (putField f off k n) off k = n % 256 ^ k := by
  have len : (f.take off).length = off := by rw [List.length_take]; omega
  unfold fld slice putField
  rw [List.append_assoc, List.drop_left' len, List.take_left' length_le, fromLe_le]

theorem fld_addField {f : Bytes} {off k n : Nat} (l : off ≤ f.length) (b : 256 ^ k = 2 ^ (8 * k)) :
    fld (addField f off k (8 * k) n) off k = satAdd (8 * k) (fld f off k) n := by
  unfold addField
  rw [fld_putField l, b]
  refine Nat.mod_eq_of_lt (Nat.lt_of_le_of_lt (Nat.min_le_right _ _) ?_)
  have : 0 < 2 ^ (8 * k) := Nat.two_pow_pos _
  omega

/-- A frame of this interval counts the node in (R415). -/
theorem State.addOwn_visited {s : State} {f : Bytes} {r : BalRec} (len : 18 ≤ f.length) (p : s.ring.postedIn = true) (e : s.ring.posted = some r)
    (i : fld f 4 6 = r.interval % 2 ^ 48) : fld (s.addOwn f).2 16 2 = satAdd 16 (fld f 16 2) 1 := by
  have visited : s.visit f = addField f 16 2 16 1 := by
    unfold State.visit
    rw [p, e]
    dsimp only
    rw [i]
    simp
  have long : 18 ≤ (s.visit f).length := by
    rw [visited]
    unfold addField putField
    rw [List.length_append, List.length_append, List.length_take, length_le]
    omega
  have head : (s.visit f).take 18 <+: (s.addOwn f).2 :=
    State.addOwn_head (List.take_prefix _ _) (by rw [List.length_take]; omega)
  have enough : 16 + 2 ≤ ((s.visit f).take 18).length := by rw [List.length_take]; omega
  rw [fld_of_head head enough, ← fld_of_head (List.take_prefix 18 (s.visit f)) enough, visited]
  exact fld_addField (k := 2) (by omega) (by decide)

/-! ### What the node's work on a frame changes of its ring -/

/-- Only the reports to send and the marks of what was read may differ. -/
def OnFrame (s x : State) : Prop :=
  ∃ o f n c i, x.ring = { s.ring with overSeen := o, faults := f, faultsLost := n, crcBad := c, ivalBad := i }

theorem OnFrame.of_eq {s x : State} (h : x.ring = s.ring) : OnFrame s x := ⟨_, _, _, _, _, h⟩

theorem OnFrame.trans {s x y : State} (h : OnFrame s x) (g : OnFrame x y) : OnFrame s y := by
  obtain ⟨o, f, n, c, i, h⟩ := h
  obtain ⟨o', f', n', c', i', g⟩ := g
  exact ⟨o', f', n', c', i', by rw [g, h]⟩

theorem State.queueFault_onFrame {s : State} {a b c : Nat} : OnFrame s (s.queueFault a b c) := by
  unfold State.queueFault State.modRing
  dsimp only
  split
  · exact ⟨_, _, _, _, _, rfl⟩
  · exact ⟨_, _, _, _, _, rfl⟩

theorem OnFrame.ite {s x y : State} {c : Prop} [Decidable c] (h : OnFrame s x) (g : OnFrame s y) : OnFrame s (if c then x else y) := by
  split <;> assumption

theorem State.reportMismatch_onFrame {s : State} {a b : Bool} : OnFrame s (s.reportMismatch a b) := by
  have marks : ∀ x : State, OnFrame x (x.modRing fun r => { r with crcBad := a, ivalBad := b }) := fun _ => ⟨_, _, _, _, _, rfl⟩
  have first : OnFrame s (if a && !s.ring.crcBad then s.queueFault 7 s.nodeId (s.tableCrc % 65536) else s) :=
    .ite State.queueFault_onFrame (.of_eq rfl)
  exact (OnFrame.ite (first.trans State.queueFault_onFrame) first).trans (marks _)

theorem State.addOwn_onFrame {s : State} {f : Bytes} : OnFrame s (s.addOwn f).1 := by
  have faults : ∀ (x : State) l, OnFrame x (x.modRing fun r => { r with faults := l }) := fun _ _ => ⟨_, _, _, _, _, rfl⟩
  exact State.reportMismatch_onFrame.trans (faults _ _)

theorem OnFrame.foldl {α : Type} {s : State} {g : State → α → State} (step : ∀ x a, OnFrame x (g x a)) (l : List α) : OnFrame s (l.foldl g s) := by
  induction l generalizing s with
  | nil => exact .of_eq rfl
  | cons a l ih => exact (step s a).trans ih

theorem State.readResults_onFrame {s : State} {f : Bytes} : OnFrame s (s.readResults f) := by
  refine OnFrame.foldl (fun x g => ?_) _
  exact .ite (.of_eq rfl) ⟨_, _, _, _, _, rfl⟩

/-! ### A frame sent on -/

theorem State.tourPort_line {s : State} : s.tourPort < 2 := by
  unfold State.tourPort
  dsimp only
  split
  · decide
  · split
    · decide
    · split <;> decide

theorem State.sendTour_ring {s : State} {f : Bytes} : (s.sendOn [s.tourPort] 7 f).ring = { s.ring with sent := [(s.tourPort, 7, f)] } :=
  State.sendOn_lines fun q m => by
    rw [List.mem_singleton.mp m]
    exact State.tourPort_line

/-- A copy launched: its frame is sent towards the successor, and the launch's own notes stand. -/
structure Launched (s x : State) (copy : Nat) : Prop where
  sent : ∃ q f, x.ring.sent = [(q, 7, f)] ∧ f.take 2 = [1, byteOf copy]
  awaiting : x.ring.awaiting = s.ring.awaiting
  launchDue : x.ring.launchDue = s.ring.launchDue
  launchedAt : x.ring.launchedAt = s.ring.launchedAt
  retryDue : x.ring.retryDue = s.ring.retryDue
  posted : x.ring.posted = s.ring.posted

theorem State.launch_sends {s : State} {copy : Nat} : Launched s (s.launch copy) copy := by
  obtain ⟨o, fs, n, c, i, ring⟩ := (State.readResults_onFrame (s := s) (f := s.launchFrame copy)).trans
    (State.addOwn_onFrame (f := s.launchFrame copy))
  have head : [1, byteOf copy] <+: ((s.readResults (s.launchFrame copy)).addOwn (s.launchFrame copy)).2 := by
    refine State.addOwn_head (State.visit_head ?_ (by simp)) (by simp)
    unfold State.launchFrame
    simp only [List.append_assoc]
    exact List.prefix_append _ _
  have e : (s.launch copy).ring = { ((s.readResults (s.launchFrame copy)).addOwn (s.launchFrame copy)).1.ring with
      sent := [(((s.readResults (s.launchFrame copy)).addOwn (s.launchFrame copy)).1.tourPort, 7,
        ((s.readResults (s.launchFrame copy)).addOwn (s.launchFrame copy)).2)] } := State.sendTour_ring
  refine ⟨⟨_, _, congrArg Ring.sent e, (List.prefix_iff_eq_take.mp head).symm⟩, ?_, ?_, ?_, ?_, ?_⟩ <;> rw [e, ring]

/-! ### The events of the balance frame -/

theorem balanceFrameLaunch_sends {s : State} {u d : Nat} (root : s.ring.isRoot = true) (due : s.ring.launchDue = some d) (le : d ≤ u) :
    ∃ t q f, execBalanceFrameLaunch u s = .next t ∧ t.ring.sent = [(q, 7, f)] ∧ f.take 2 = [1, 0] ∧ t.ring.awaiting = true ∧
      t.ring.launchDue = none ∧ t.ring.launchedAt = u ∧ t.ring.retryDue = some (d + s.pn ND_BAL_RETRY * 1000000) ∧
      t.ring.posted = s.ring.posted ∧ Keeps [.clk, .host, .ring] s t := by
  have same : (s.at u).ring.launchDue = some d := due
  have ripe : ripeAt (s.at u).ring.launchDue u = true := by
    rw [same]
    exact decide_eq_true le
  have t : execBalanceFrameLaunch u s = .next (((s.at u).modRing (fun r => { r with
      launchDue := none, awaiting := true, launchedAt := u
      retryDue := some ((s.at u).ring.launchDue.getD u + s.pn ND_BAL_RETRY * 1000000) })).launch 0) := if_pos ⟨root, ripe⟩
  have kept := exec_keeps (.balanceFrameLaunch u) _ _ t
  rw [same] at t kept
  have l := State.launch_sends (s := (s.at u).modRing (fun r => { r with
      launchDue := none, awaiting := true, launchedAt := u
      retryDue := some ((some d).getD u + s.pn ND_BAL_RETRY * 1000000) })) (copy := 0)
  obtain ⟨q, f, sent, head⟩ := l.sent
  exact ⟨_, q, f, t, sent, head, l.awaiting, l.launchDue, l.launchedAt, l.retryDue, l.posted, kept⟩

theorem balanceRetry_sends {s : State} {u d : Nat} (root : s.ring.isRoot = true) (out : s.ring.awaiting = true) (due : s.ring.retryDue = some d)
    (le : d ≤ u) : ∃ t q f, execBalanceRetry u s = .next t ∧ t.ring.sent = [(q, 7, f)] ∧ f.take 2 = [1, 1] ∧ t.ring.retryDue = none ∧
      t.ring.awaiting = true ∧ Keeps [.clk, .host, .ring] s t := by
  have ripe : ripeAt (s.at u).ring.retryDue u = true := by
    rw [show (s.at u).ring.retryDue = some d from due]
    exact decide_eq_true le
  have t : execBalanceRetry u s = .next (((s.at u).modRing (fun r => { r with retryDue := none })).launch 1) := if_pos ⟨root, out, ripe⟩
  have l := State.launch_sends (s := (s.at u).modRing (fun r => { r with retryDue := none })) (copy := 1)
  obtain ⟨q, f, sent, head⟩ := l.sent
  exact ⟨_, q, f, t, sent, head, l.retryDue, l.awaiting.trans out, exec_keeps (.balanceRetry u) _ _ t⟩

theorem balanceFramePass_sends {s : State} {u : Nat} {frame : Bytes} (form : isBalanceFrame frame = true) (on : s.pwr.coreOn = true)
    (root : s.ring.isRoot = false) : ∃ t q f, execBalanceFramePass u frame s = .next t ∧ t.ring.sent = [(q, 7, f)] ∧ t.ring.sawFrame = true ∧
      (∀ r, s.ring.postedIn = true → s.ring.posted = some r → fld frame 4 6 = r.interval % 2 ^ 48 →
        fld f 16 2 = satAdd 16 (fld frame 16 2) 1) ∧ Keeps [.clk, .host, .ring] s t := by
  have t : execBalanceFramePass u frame s = .next (((((s.at u).readResults frame).addOwn frame).1.modRing (fun r => { r with sawFrame := true })).sendOn
      [((((s.at u).readResults frame).addOwn frame).1.modRing (fun r => { r with sawFrame := true })).tourPort] 7
      (((s.at u).readResults frame).addOwn frame).2) := if_pos ⟨form, on, root⟩
  have kept := exec_keeps (.balanceFramePass u frame) _ _ t
  have sent := State.sendTour_ring (s := (((s.at u).readResults frame).addOwn frame).1.modRing (fun r => { r with sawFrame := true }))
    (f := (((s.at u).readResults frame).addOwn frame).2)
  have len : 18 ≤ frame.length := by
    unfold isBalanceFrame at form
    simp only [Bool.and_eq_true, beq_iff_eq] at form
    omega
  obtain ⟨o, fs, n, c, i, ring⟩ := State.readResults_onFrame (s := s.at u) (f := frame)
  refine ⟨_, _, _, t, congrArg Ring.sent sent, congrArg Ring.sawFrame sent, fun r p e i => ?_, kept⟩
  exact State.addOwn_visited len (by rw [ring]; exact p) (by rw [ring]; exact e) i

theorem State.coalesced_ring {s : State} {f : Bytes} : (s.coalesced f).ring = s.ring :=
  (State.coalesced_keeps (T := [.host]) rfl .refl).ring rfl

theorem execBalanceFrameReturn_first {s : State} {u : Nat} {frame : Bytes} {r : BalRec} (e : s.ring.posted = some r)
    (form : isBalanceFrame frame = true) (root : s.ring.isRoot = true) (out : s.ring.awaiting = true) (i : fld frame 4 6 = r.interval % 2 ^ 48)
    (early : ∀ d, s.ring.lateDue = some d → u ≤ d) : execBalanceFrameReturn u frame s = .next
      ((((s.at u).keepResults (s.usedGroups.map (s.judge (fld frame 16 2 == s.ring.inBal) frame)) r.interval).modRing (fun x => { x with
        sawFrame := true, tour := (u - x.launchedAt) / 1000 })).coalesced frame) := by
  have h : (s.at u).ring.posted = some r := e
  have inTime : u ≤ (s.at u).ring.lateDue.getD u := by
    cases d : s.ring.lateDue with
    | none => rw [show (s.at u).ring.lateDue = none from d]; exact Nat.le_refl u
    | some d' => rw [show (s.at u).ring.lateDue = some d' from d]; exact early d' d
  unfold execBalanceFrameReturn
  dsimp only
  rw [h]
  exact if_pos ⟨form, root, out, i, inTime⟩

theorem balanceFrameReturn_judges {s : State} {u : Nat} {frame : Bytes} {r : BalRec} (e : s.ring.posted = some r)
    (form : isBalanceFrame frame = true) (root : s.ring.isRoot = true) (out : s.ring.awaiting = true) (i : fld frame 4 6 = r.interval % 2 ^ 48)
    (early : ∀ d, s.ring.lateDue = some d → u ≤ d) :
    let l := s.usedGroups.map (s.judge (fld frame 16 2 == s.ring.inBal) frame)
    ∃ t, execBalanceFrameReturn u frame s = .next t ∧ t.ring.awaiting = false ∧ t.ring.lateDue = none ∧
      t.ring.results = l.map (fun x => x.1) ∧ t.ring.runs = l.map (fun x => x.2) ∧ t.ring.resInterval = r.interval ∧
      t.ring.history = (⟨r.interval, t.ring.results⟩ :: s.ring.history).take 16 ∧ t.ring.sawFrame = true ∧
      t.ring.tour = (u - s.ring.launchedAt) / 1000 ∧ Keeps [.clk, .host, .ring] s t := by
  intro l
  have t := execBalanceFrameReturn_first e form root out i early
  have kept := exec_keeps (.balanceFrameReturn u frame) _ _ t
  refine ⟨_, t, ?_, ?_, ?_, ?_, ?_, ?_, ?_, ?_, kept⟩ <;> rw [State.coalesced_ring] <;> rfl

/-- A group of an interval whose frame came too late: not judged, with its run as it was (R417). -/
def State.unjudged (s : State) (g : Nat) : GroupRec × GroupRun :=
  ({ emptyGroup g with result := bitmapOf [false, ((s.ring.runs.find? (fun r => r.group == g)).getD ⟨g, false, 0, false⟩).isOver, true] },
    (s.ring.runs.find? (fun r => r.group == g)).getD ⟨g, false, 0, false⟩)

theorem balanceReturnLate_judgesNone {s : State} {u d : Nat} (snd : Sound s) (root : s.ring.isRoot = true) (out : s.ring.awaiting = true)
    (due : s.ring.lateDue = some d) (le : d ≤ u) : ∃ t, execBalanceReturnLate u s = .next t ∧ t.ring.awaiting = false ∧ t.ring.lateDue = none ∧
      t.ring.results.length = s.usedGroups.length ∧ (∀ x ∈ t.ring.results, x.result % 2 = 0) ∧
      Raised t 13 [9, 0xFF] ∧ Keeps [.clk, .host, .ring] s t := by
  have ripe : ripeAt (s.at u).ring.lateDue u = true := by
    rw [show (s.at u).ring.lateDue = some d from due]
    exact decide_eq_true le
  have t : execBalanceReturnLate u s = .next (((s.at u).keepResults (s.usedGroups.map s.unjudged)
      (match s.ring.posted with | some r => r.interval | none => 0)).topology 9 0xFF 0) := if_pos ⟨root, out, ripe⟩
  have even : ∀ b : Bool, bitmapOf [false, b, true] % 2 = 0 := by decide
  refine ⟨_, t, rfl, rfl, ?_, fun x m => ?_, State.topology_raised snd.host.queues, exec_keeps (.balanceReturnLate u) _ _ t⟩
  · change ((s.usedGroups.map s.unjudged).map (·.1)).length = _
    rw [List.length_map, List.length_map]
  · have m' : x ∈ (s.usedGroups.map s.unjudged).map (·.1) := m
    simp only [List.mem_map] at m'
    obtain ⟨_, ⟨g, -, rfl⟩, rfl⟩ := m'
    exact even _

end Sys2Proof.Machine

open Sys2Proof Sys2Proof.Machine

/-- Settles O30: each event by the lemma of what it does. -/
theorem discoveryAndBalanceEventsComplete : Obligations.DiscoveryAndBalanceEventsComplete := by
  intro s u snd
  refine ⟨fun d root takes due le => discoveryStart_begins root takes due le, fun k takes p => ⟨fun root mine run running =>
    discoveryToken_gathers takes p root mine run running, fun root mine run low few => ?passes, fun root mine run many l => ?full,
    fun root own ne better => discoveryToken_yields snd takes p own ne better⟩, fun m e takes root own => discoveryComplete_places takes root own,
    fun m takes root running mine => discoveryComplete_publishes snd takes root running mine, fun takes root n => rootLost_selects snd takes root n,
    fun d root due le => balanceFrameLaunch_sends root due le, fun d root out due le => balanceRetry_sends root out due le,
    fun frame form on root => balanceFramePass_sends form on root, fun frame r e form root out i early =>
    balanceFrameReturn_judges e form root out i early, fun d root out due le => balanceReturnLate_judgesNone snd root out due le⟩
  case passes =>
    have t := discoveryToken_passes (u := u) takes p root mine run
    have same := State.hearToken_root (s := s.at u) (k := k)
    exact ⟨_, _, t, State.passToken_gathered.trans (if_neg (Nat.not_le.mpr few)), same.nodeId, rfl, Nat.mod_eq_of_lt low, rfl,
      State.passToken_sent few, State.passToken_keeps.then rfl (State.at_root same)⟩
  case full =>
    have t := discoveryToken_passes (u := u) takes p root mine run
    have same := State.hearToken_root (s := s.at u) (k := k)
    exact ⟨_, _, t, State.passToken_gathered.trans (if_pos many), same.nodeId, ⟨_, State.passToken_back many l⟩,
      State.passToken_keeps.then rfl (State.at_root same)⟩
end

section
/-!
PTP: the Sync of the master, and what the delays and other messages do (03 R67–R72, R77).
-/

namespace Sys2Proof.Machine

/-! ### A Sync of the master -/

/-- A state with other messages sent and another count of free values. -/
def State.sentAs (s : State) (l : List PtpTx) (c : Nat) : State :=
  (s.modServo fun v => { v with txMsgs := l }).modClk fun k => { k with freeCtr := c }

theorem State.forwardPtp_sends {s : State} {kind port seq : Nat} {stamp corr : Int} :
    ∃ l c, s.forwardPtp kind port seq stamp corr = s.sentAs l c := by
  unfold State.forwardPtp
  split
  · exact ⟨s.servo.txMsgs, s.clk.freeCtr, rfl⟩
  · exact ⟨_, _, rfl⟩

theorem State.sentAs_keeps {s : State} {l : List PtpTx} {c : Nat} : Keeps [.clk, .servo] s (s.sentAs l c) :=
  State.modClk_keeps rfl (State.modServo_keeps rfl .refl)

/-- The times of a Sync noted, with the next one due. -/
def State.noteSync (s : State) (u : Nat) (m : PtpMsg) : State := s.modServo fun v => { v with
  lastT1 := 5 * (m.stamp + m.corr), lastT2 := s.portStamp m.port, syncDue := some (u + 4 * s.syncNs) }

/-- The offset that a Sync shows (R68). -/
def State.syncOffset (s : State) (m : PtpMsg) : Int :=
  divFree (s.portStamp m.port - 5 * (m.stamp + m.corr) - s.delayOf m.port) 5 - s.pv (ND_PTP_ASYM_LKA + m.port)

theorem execPtpSyncReceived_master {s : State} {u : Nat} {m : PtpMsg} {x : PtpMaster} (on : s.ptpOn m.port = true) (ok : m.supported = true)
    (dom : m.domain = s.pn ND_PTP_DOMAIN) (e : s.servo.master = some x) (port : x.port = m.port) (sender : x.sender = m.sender) :
    ∃ l c, execPtpSyncReceived u m s = .next ((((s.at u).sentAs l c).noteSync u m).ptpOffset ((s.at u).syncOffset m)) := by
  have on' : (s.at u).ptpOn m.port = true := on
  have good : ¬ ((!m.supported) = true ∨ m.domain ≠ (s.at u).pn ND_PTP_DOMAIN) := by
    rw [ok]
    rintro (no | no)
    · exact absurd no (by decide)
    · exact no dom
  obtain ⟨l, c, sends⟩ := State.forwardPtp_sends (s := s.at u) (kind := 21) (port := m.port) (seq := m.seq) (stamp := m.stamp) (corr := m.corr)
  have h : ((s.at u).sentAs l c).servo.master = some x := e
  refine ⟨l, c, ?_⟩
  unfold execPtpSyncReceived
  dsimp only
  rw [if_neg (by rw [on']; decide), if_neg good, sends, h]
  exact if_pos ⟨port, sender⟩

/-- A servo whose runs count the offsets of this master (R77). -/
structure FollowsPtp (s : State) (x : PtpMaster) : Prop where
  master : s.servo.master = some x
  loaded : s.clk.loaded = true
  source : s.servo.source = 1
  key : s.servo.runKey = 2 ^ 64 + x.gm
  refused : s.servo.refused = none

theorem State.jumpTest_ptp {s : State} {x : PtpMaster} {off : Int} {port : Nat} (f : FollowsPtp s x)
    (jump : (if s.servo.state = .acquiring then off - s.servo.accepted else off).natAbs ≤ s.pn ND_JUMP_THRESH) :
    s.jumpTest off 1 port 0 x.gm = (true, s.modServo (fun v => { v with jumpRun := 0 })) := by
  have same : s.runsOf 1 0 x.gm = s := if_pos f.key
  unfold State.jumpTest
  dsimp only
  rw [same, if_neg (show ¬ s.pn ND_JUMP_THRESH < (if s.servo.state = .acquiring then localOffset 1 off - s.servo.accepted else off).natAbs from
    Nat.not_lt.mpr jump)]
  refine if_pos ?_
  unfold Servo.refusedOf
  rw [f.refused]

/-- The servo after an offset of its master taken. -/
def State.ptpTaken (s : State) (off : Int) : State :=
  ((s.modServo (fun v => { v with jumpRun := 0 })).correct 1 off).modServo (fun v => { v with
    offset := Config.filterOffset v.offset off, inRun := if off.natAbs ≤ s.pn ND_LOCK_THRESH then v.inRun + 1 else 0 })

/-- The servo while it stays locked: the run of offsets outside. -/
def State.ptpLocked (s : State) (off : Int) : State :=
  (s.ptpTaken off).modServo (fun v => { v with outRun := if s.pn ND_LOCK_THRESH < v.offset.natAbs then v.outRun + 1 else 0 })

theorem State.ptpOffset_follows {s : State} {x : PtpMaster} {off : Int} (f : FollowsPtp s x) (st : s.servo.state ≠ .free)
    (jump : (if s.servo.state = .acquiring then off - s.servo.accepted else off).natAbs ≤ s.pn ND_JUMP_THRESH) :
    s.ptpOffset off = match s.servo.state with
      | .locked => if 16 ≤ (s.ptpLocked off).servo.outRun then (s.ptpLocked off).modServo (fun v => { v.clearRuns with state := .acquiring })
          else s.ptpLocked off
      | .acquiring => if s.servo.source = 1 ∧ 16 ≤ (s.ptpTaken off).servo.inRun then (s.ptpTaken off).enterLocked .locked 1 x.port 0 off x.gm
          else s.ptpTaken off
      | _ => if 16 ≤ (s.ptpTaken off).servo.inRun then (s.ptpTaken off).enterLocked .locked 1 x.port 0 off x.gm else s.ptpTaken off := by
  have taken : ((s.modServo (fun v => { v with jumpRun := 0 })).correct 1 off).modServo (fun v => { v with
      offset := if v.source = 1 then Config.filterOffset v.offset off else v.offset
      inRun := if off.natAbs ≤ s.pn ND_LOCK_THRESH then v.inRun + 1 else 0 }) = s.ptpTaken off := by
    refine State.modServo_congr ?_
    exact congrArg (fun o => ({ ((s.modServo (fun v => { v with jumpRun := 0 })).correct 1 off).servo with
      offset := o, inRun := if off.natAbs ≤ s.pn ND_LOCK_THRESH then s.servo.inRun + 1 else 0 } : Servo)) (if_pos f.source)
  unfold State.ptpOffset
  dsimp only
  rw [if_neg st, if_neg (by rw [f.loaded]; decide), f.master]
  dsimp only
  rw [State.jumpTest_ptp f jump]
  dsimp only
  rw [if_neg (by decide), taken]
  rfl

theorem State.ptpOffset_locked {s : State} {x : PtpMaster} {off : Int} (f : FollowsPtp s x) (st : s.servo.state = .locked)
    (jump : off.natAbs ≤ s.pn ND_JUMP_THRESH) (run : s.servo.outRun < 15) : s.ptpOffset off = s.ptpLocked off := by
  have few : ¬ 16 ≤ (s.ptpLocked off).servo.outRun := by
    change ¬ 16 ≤ (if s.pn ND_LOCK_THRESH < (Config.filterOffset s.servo.offset off).natAbs then s.servo.outRun + 1 else 0)
    split <;> omega
  rw [State.ptpOffset_follows f (by rw [st]; decide) (by rw [if_neg (by rw [st]; decide)]; exact jump), st]
  exact if_neg few

theorem State.ptpOffset_locks {s : State} {x : PtpMaster} {off : Int} (f : FollowsPtp s x) (st : s.servo.state = .acquiring)
    (jump : (off - s.servo.accepted).natAbs ≤ s.pn ND_JUMP_THRESH) (close : off.natAbs ≤ s.pn ND_LOCK_THRESH) (run : 15 ≤ s.servo.inRun) :
    s.ptpOffset off = (s.ptpTaken off).enterLocked .locked 1 x.port 0 off x.gm := by
  have many : 16 ≤ (s.ptpTaken off).servo.inRun := by
    change 16 ≤ (if off.natAbs ≤ s.pn ND_LOCK_THRESH then s.servo.inRun + 1 else 0)
    rw [if_pos close]
    omega
  rw [State.ptpOffset_follows f (by rw [st]; decide) (by rw [if_pos st]; exact jump), st]
  exact if_pos ⟨f.source, many⟩

/-- What an offset leaves of a servo that stays locked. -/
structure StaysLocked (s x : State) (off : Int) : Prop where
  state : x.servo.state = s.servo.state
  offset : x.servo.offset = Config.filterOffset s.servo.offset off
  outRun : x.servo.outRun = if s.pn ND_LOCK_THRESH < x.servo.offset.natAbs then s.servo.outRun + 1 else 0
  jumpRun : x.servo.jumpRun = 0
  syncDue : x.servo.syncDue = s.servo.syncDue
  lastT1 : x.servo.lastT1 = s.servo.lastT1
  lastT2 : x.servo.lastT2 = s.servo.lastT2
  keeps : Keeps [.servo] s x

theorem State.ptpLocked_stays {s : State} {off : Int} : StaysLocked s (s.ptpLocked off) off :=
  ⟨rfl, rfl, rfl, rfl, rfl, rfl, rfl, State.modServo_keeps rfl (State.modServo_keeps rfl (State.correct_keeps rfl (State.modServo_keeps rfl .refl)))⟩

theorem State.ptpTaken_keeps {s : State} {off : Int} : Keeps [.servo] s (s.ptpTaken off) :=
  State.modServo_keeps rfl (State.correct_keeps rfl (State.modServo_keeps rfl .refl))

theorem State.ptpTaken_state {s : State} {off : Int} : (s.ptpTaken off).servo.state = s.servo.state := rfl

theorem ptpSync_locked {s : State} {u : Nat} {m : PtpMsg} {x : PtpMaster} (on : s.ptpOn m.port = true) (ok : m.supported = true)
    (dom : m.domain = s.pn ND_PTP_DOMAIN) (port : x.port = m.port) (sender : x.sender = m.sender) (f : FollowsPtp s x)
    (st : s.servo.state = .locked) (jump : ((s.at u).syncOffset m).natAbs ≤ s.pn ND_JUMP_THRESH) (run : s.servo.outRun < 15) :
    ∃ t, execPtpSyncReceived u m s = .next t ∧ t.servo.state = .locked ∧
      t.servo.offset = Config.filterOffset s.servo.offset ((s.at u).syncOffset m) ∧
      t.servo.outRun = (if s.pn ND_LOCK_THRESH < t.servo.offset.natAbs then s.servo.outRun + 1 else 0) ∧ t.servo.jumpRun = 0 ∧
      t.servo.syncDue = some (u + 4 * s.syncNs) ∧ t.servo.lastT1 = 5 * (m.stamp + m.corr) ∧ t.servo.lastT2 = (s.at u).portStamp m.port ∧
      Keeps [.clk, .servo] s t := by
  obtain ⟨l, c, t⟩ := execPtpSyncReceived_master (u := u) on ok dom f.master port sender
  have f' : FollowsPtp (((s.at u).sentAs l c).noteSync u m) x := ⟨f.master, f.loaded, f.source, f.key, f.refused⟩
  have kept : Keeps [.clk, .servo] s (((s.at u).sentAs l c).noteSync u m) :=
    State.modServo_keeps rfl (State.sentAs_keeps.then rfl (State.at_keeps rfl .refl))
  have h := State.ptpLocked_stays (s := ((s.at u).sentAs l c).noteSync u m) (off := (s.at u).syncOffset m)
  rw [State.ptpOffset_locked f' st jump run] at t
  exact ⟨_, t, h.state.trans st, h.offset, h.outRun, h.jumpRun, h.syncDue, h.lastT1, h.lastT2, h.keeps.then rfl kept⟩

theorem ptpSync_locks {s : State} {u : Nat} {m : PtpMsg} {x : PtpMaster} (snd : Sound s) (on : s.ptpOn m.port = true) (ok : m.supported = true)
    (dom : m.domain = s.pn ND_PTP_DOMAIN) (port : x.port = m.port) (sender : x.sender = m.sender) (f : FollowsPtp s x)
    (st : s.servo.state = .acquiring) (jump : ((s.at u).syncOffset m - s.servo.accepted).natAbs ≤ s.pn ND_JUMP_THRESH)
    (close : ((s.at u).syncOffset m).natAbs ≤ s.pn ND_LOCK_THRESH) (run : 15 ≤ s.servo.inRun) :
    ∃ t, execPtpSyncReceived u m s = .next t ∧ t.servo.state = .locked ∧ t.servo.everLocked = true ∧
      Raised t 11 [byteOf (servoCode .acquiring), byteOf (servoCode .locked), 1, byteOf x.port] ∧ Keeps [.clk, .servo, .host] s t := by
  obtain ⟨l, c, t⟩ := execPtpSyncReceived_master (u := u) on ok dom f.master port sender
  have f' : FollowsPtp (((s.at u).sentAs l c).noteSync u m) x := ⟨f.master, f.loaded, f.source, f.key, f.refused⟩
  have kept : Keeps [.clk, .servo, .host] s (((s.at u).sentAs l c).noteSync u m) :=
    State.modServo_keeps rfl (State.sentAs_keeps.then rfl (State.at_keeps rfl .refl))
  rw [State.ptpOffset_locks f' st jump close run] at t
  have state := State.ptpTaken_state (s := ((s.at u).sentAs l c).noteSync u m) (off := (s.at u).syncOffset m)
  have taken := State.ptpTaken_keeps (s := ((s.at u).sentAs l c).noteSync u m) (off := (s.at u).syncOffset m)
  generalize (((s.at u).sentAs l c).noteSync u m).ptpTaken ((s.at u).syncOffset m) = y at t state taken
  have events : y.host.events.length = 64 := by
    rw [taken.host rfl]
    exact snd.host.queues
  have told := State.enterLocked_raised (new := .locked) (source := 1) (port := x.port) (sender := 0) (gm := x.gm) (off := (s.at u).syncOffset m) events
  rw [state.trans st] at told
  exact ⟨_, t, rfl, Bool.or_true _, told, State.enterLocked_keeps rfl (taken.then rfl kept)⟩

end Sys2Proof.Machine
end

section
/-!
PTP: announcements, delays, management and what the node sends (03 R67–R71, R80).
-/

namespace Sys2Proof.Machine

/-! ### An announcement -/

/-- The best of one master heard. -/
theorem State.bestHeard_one {s : State} {a : Announce} {e : Nat} (h : s.servo.foreign = [(a, e)])
    (ok : s.pn ND_PTP_ROLE = 0 ∨ lexLess (masterKey (masterOf a)) (masterKey s.ownMaster) = true) : s.bestHeard = some a := by
  have ok' : (decide (s.pn ND_PTP_ROLE = 0) || lexLess (masterKey (masterOf a)) (masterKey s.ownMaster)) = true := by simpa using ok
  unfold State.bestHeard
  dsimp only
  rw [h]
  simp only [List.filter_cons, ok', List.filter_nil]
  rfl

theorem State.bestHeard_none {s : State} (h : s.servo.foreign = []) : s.bestHeard = none := by
  unfold State.bestHeard
  dsimp only
  rw [h]
  rfl

/-- What the master's UTC data leaves. -/
structure UtcTaken (s x : State) (a : Announce) : Prop where
  master : x.servo.master = s.servo.master
  hops : x.servo.ptpHops = s.servo.ptpHops
  annDue : x.servo.annDue = s.servo.annDue
  foreign : x.servo.foreign = s.servo.foreign
  state : x.servo.state = s.servo.state
  first : a.utcValid = true → s.servo.utcValid = false → x.servo.utc = a.utc ∧ x.servo.utcValid = true

theorem State.takeUtc_takes {s : State} {a : Announce} : UtcTaken s (s.takeUtc a) a := by
  unfold State.takeUtc
  dsimp only
  split
  · next no => exact ⟨rfl, rfl, rfl, rfl, rfl, fun yes => absurd no (by rw [yes]; decide)⟩
  · split
    · exact ⟨rfl, rfl, rfl, rfl, rfl, fun _ _ => ⟨rfl, rfl⟩⟩
    · next known =>
      have old : s.servo.utcValid = false → False := fun no => known (by rw [no]; rfl)
      split
      · exact ⟨rfl, rfl, rfl, rfl, rfl, fun _ no => (old no).elim⟩
      · split
        · exact ⟨rfl, rfl, rfl, rfl, rfl, fun _ no => (old no).elim⟩
        · exact ⟨rfl, rfl, rfl, rfl, rfl, fun _ no => (old no).elim⟩

/-- The announced master selected (R67). -/
structure Selected (s x : State) (a : Announce) : Prop where
  master : x.servo.master = some (masterOf a)
  hops : x.servo.ptpHops = a.steps + 1
  annDue : x.servo.annDue = (s.servo.foreign.find? (fun y => y.1.sender == a.sender && y.1.port == a.port)).map (·.2)
  foreign : x.servo.foreign = s.servo.foreign
  free : s.servo.state = .free → x.servo.state = .acquiring ∧ x.servo.source = 1
  first : a.utcValid = true → s.servo.utcValid = false → x.servo.utc = a.utc ∧ x.servo.utcValid = true

/-- The master's data taken. -/
def State.adoptMaster (s : State) (a : Announce) : State := s.modServo (fun v => { v with
  master := some (masterOf a), ptpHops := (masterOf a).steps + 1
  gm := if v.source = 1 then (masterOf a).gm else v.gm, port := if v.source = 1 then (masterOf a).port else v.port
  annDue := (v.foreign.find? (fun x => x.1.sender == a.sender && x.1.port == a.port)).map (·.2) })

theorem State.selectMaster_eq {s : State} {a : Announce} : s.selectMaster a =
    if ((s.adoptMaster a).takeUtc a).servo.state = .free ∨ (((s.adoptMaster a).takeUtc a).servo.state = .acquiring ∧
      ((s.adoptMaster a).takeUtc a).servo.source ≠ 1) then ((s.adoptMaster a).takeUtc a).acquire 1 a.port 0 a.gm
    else (s.adoptMaster a).takeUtc a := rfl

theorem State.selectMaster_selects {s : State} {a : Announce} : Selected s (s.selectMaster a) a := by
  have utc := State.takeUtc_takes (s := s.adoptMaster a) (a := a)
  have utcFirst : a.utcValid = true → s.servo.utcValid = false →
    ((s.adoptMaster a).takeUtc a).servo.utc = a.utc ∧ ((s.adoptMaster a).takeUtc a).servo.utcValid = true := utc.first
  rw [State.selectMaster_eq]
  split
  · exact ⟨utc.master, utc.hops, utc.annDue, utc.foreign, fun _ => ⟨rfl, rfl⟩, utcFirst⟩
  · next stays => exact ⟨utc.master, utc.hops, utc.annDue, utc.foreign, fun free => absurd (.inl (utc.state.trans free)) stays, utcFirst⟩

theorem execPtpAnnounceReceived_other {s : State} {u : Nat} {a : Announce} (on : s.ptpOn a.port = true)
    (may : (s.pn ND_TIME_SOURCES).testBit 0 = true) (no : a.supported = false) : execPtpAnnounceReceived u a s = .next ((s.at u).ptpDiscard a.port) := by
  have on' : (s.at u).ptpOn a.port = true := on
  have may' : ((s.at u).pn ND_TIME_SOURCES).testBit 0 = true := may
  unfold execPtpAnnounceReceived
  dsimp only
  rw [if_neg (by rw [on', may']; decide), if_pos (.inl (by rw [no]; rfl))]

/-- The masters heard, with this one the latest. -/
def State.hearMaster (s : State) (a : Announce) : State := s.modServo (fun v => { v with
  foreign := v.foreign.filter (fun x => decide (s.clk.up < x.2) && !(x.1.sender == a.sender && x.1.port == a.port)) ++ [(a, s.announceDue)] })

theorem execPtpAnnounceReceived_heard {s : State} {u : Nat} {a b : Announce} (on : s.ptpOn a.port = true)
    (may : (s.pn ND_TIME_SOURCES).testBit 0 = true) (ok : a.supported = true) (dom : a.domain = s.pn ND_PTP_DOMAIN) (tai : a.ptpTimescale = true)
    (best : ((s.at u).hearMaster a).bestHeard = some b) :
    execPtpAnnounceReceived u a s = .next (((s.at u).hearMaster a).selectMaster b) := by
  have on' : (s.at u).ptpOn a.port = true := on
  have may' : ((s.at u).pn ND_TIME_SOURCES).testBit 0 = true := may
  have good : ¬ ((!a.supported) = true ∨ a.domain ≠ (s.at u).pn ND_PTP_DOMAIN ∨ (!a.ptpTimescale) = true) := by
    rw [ok, tai]
    rintro (no | no | no)
    · exact absurd no (by decide)
    · exact no dom
    · exact absurd no (by decide)
  have best' : ((s.at u).modServo (fun v => { v with
      foreign := v.foreign.filter (fun x => decide ((s.at u).clk.up < x.2) && !(x.1.sender == a.sender && x.1.port == a.port)) ++
        [(a, (s.at u).announceDue)] })).bestHeard = some b := best
  unfold execPtpAnnounceReceived
  dsimp only
  rw [if_neg (by rw [on', may']; decide), if_neg good, best']
  rfl

theorem ptpAnnounce_selects {s : State} {u : Nat} {a : Announce} (on : s.ptpOn a.port = true) (may : (s.pn ND_TIME_SOURCES).testBit 0 = true)
    (ok : a.supported = true) (dom : a.domain = s.pn ND_PTP_DOMAIN) (tai : a.ptpTimescale = true)
    (serves : s.pn ND_PTP_ROLE = 0 ∨ lexLess (masterKey (masterOf a)) (masterKey (s.at u).ownMaster) = true) (alone : s.servo.foreign = []) :
    ∃ t, execPtpAnnounceReceived u a s = .next t ∧ t.servo.master = some (masterOf a) ∧ t.servo.ptpHops = a.steps + 1 ∧
      t.servo.annDue = some (max s.clk.up u + s.pn ND_PTP_ANNOUNCE_TIMEOUT * logNs (s.pv ND_PTP_LOG_ANNOUNCE)) ∧
      t.servo.foreign.map (·.1) = [a] ∧ (s.servo.state = .free → t.servo.state = .acquiring ∧ t.servo.source = 1) ∧
      (a.utcValid = true → s.servo.utcValid = false → t.servo.utc = a.utc ∧ t.servo.utcValid = true) ∧ Keeps [.clk, .servo] s t := by
  have foreign : ((s.at u).hearMaster a).servo.foreign = [(a, (s.at u).announceDue)] := by
    change s.servo.foreign.filter _ ++ _ = _
    rw [alone]
    rfl
  have t := execPtpAnnounceReceived_heard (u := u) on may ok dom tai (State.bestHeard_one foreign serves)
  have h := State.selectMaster_selects (s := (s.at u).hearMaster a) (a := a)
  refine ⟨_, t, h.master, h.hops, h.annDue.trans ?_, ?_, h.free, h.first,
    State.selectMaster_keeps rfl (State.modServo_keeps rfl (State.at_keeps rfl .refl))⟩
  · rw [foreign, List.find?_cons_of_pos (by simp)]
    rfl
  · rw [h.foreign, foreign]
    rfl

/-! ### The delays -/

theorem execPtpDelayMessageReceived_taken {s : State} {u : Nat} {m : PtpMsg} (on : s.ptpOn m.port = true) (ok : m.supported = true)
    (dom : m.domain = s.pn ND_PTP_DOMAIN) (few : m.kind < 4) (mech : m.kind / 2 = s.pn ND_PTP_DELAY) :
    execPtpDelayMessageReceived u m s = if m.kind % 2 = 0 then .next ((s.at u).answerDelay m) else
      match s.txStamp 2 m.port m.seq with
      | none => .next (s.at u)
      | some t0 => .next ((s.at u).modServo (fun v => { v with linkDelay := put v.linkDelay m.port (divFree
          (if m.kind = 1 then s.servo.lastT2 - s.servo.lastT1 + (5 * (m.stamp - m.corr) - t0)
          else (s.at u).portStamp m.port - t0 - 5 * (m.stamp2 - m.stamp + m.corr)) 2) })) := by
  have on' : (s.at u).ptpOn m.port = true := on
  have good : ¬ ((!m.supported) = true ∨ m.domain ≠ (s.at u).pn ND_PTP_DOMAIN ∨ 4 ≤ m.kind ∨ m.kind / 2 ≠ (s.at u).pn ND_PTP_DELAY) := by
    rw [ok]
    rintro (no | no | no | no)
    · exact absurd no (by decide)
    · exact no dom
    · omega
    · exact no mech
  unfold execPtpDelayMessageReceived
  dsimp only
  rw [if_neg (by rw [on']; decide), if_neg good]
  rfl

theorem ptpDelay_request {s : State} {u : Nat} {m : PtpMsg} (on : s.ptpOn m.port = true) (ok : m.supported = true)
    (dom : m.domain = s.pn ND_PTP_DOMAIN) (mech : m.kind / 2 = s.pn ND_PTP_DELAY) (k : m.kind = 0) :
    ∃ t x, execPtpDelayMessageReceived u m s = .next t ∧ t.servo.txMsgs.head? = some x ∧ x.kind = 10 ∧ x.port = m.port ∧ x.seq = m.seq ∧
      x.origin = (s.at u).portStamp m.port ∧ x.corr = 5 * m.corr ∧ Keeps [.clk, .servo] s t := by
  have t := execPtpDelayMessageReceived_taken (u := u) on ok dom (by omega) mech
  have answer : (s.at u).answerDelay m = _ := if_pos k
  rw [if_pos (by rw [k])] at t
  have kept := exec_keeps (.ptpDelayMessageReceived u m) _ _ t
  rw [answer] at t kept
  exact ⟨_, _, t, rfl, rfl, rfl, rfl, rfl, rfl, kept⟩

theorem ptpDelay_peerOneStep {s : State} {u : Nat} {m : PtpMsg} (on : s.ptpOn m.port = true) (ok : m.supported = true)
    (dom : m.domain = s.pn ND_PTP_DOMAIN) (mech : m.kind / 2 = s.pn ND_PTP_DELAY) (k : m.kind = 2) (step : s.pn ND_PTP_STEP = 1) :
    ∃ t x, execPtpDelayMessageReceived u m s = .next t ∧ t.servo.txMsgs.head? = some x ∧ x.kind = 12 ∧ x.port = m.port ∧ x.seq = m.seq ∧
      x.origin = (s.at u).portStamp m.port ∧ x.corr = 5 * m.corr + s.free ∧ Keeps [.clk, .servo] s t := by
  have t := execPtpDelayMessageReceived_taken (u := u) on ok dom (by omega) mech
  have answer : (s.at u).answerDelay m = _ := (if_neg (by omega)).trans (if_pos step)
  rw [if_pos (by rw [k])] at t
  have kept := exec_keeps (.ptpDelayMessageReceived u m) _ _ t
  rw [answer] at t kept
  exact ⟨_, _, t, rfl, rfl, rfl, rfl, rfl, rfl, kept⟩

theorem ptpDelay_peerTwoStep {s : State} {u : Nat} {m : PtpMsg} (on : s.ptpOn m.port = true) (ok : m.supported = true)
    (dom : m.domain = s.pn ND_PTP_DOMAIN) (mech : m.kind / 2 = s.pn ND_PTP_DELAY) (k : m.kind = 2) (step : s.pn ND_PTP_STEP ≠ 1) :
    ∃ t x y l, execPtpDelayMessageReceived u m s = .next t ∧ t.servo.txMsgs = y :: x :: l ∧ x.kind = 12 ∧ x.port = m.port ∧ x.seq = m.seq ∧
      x.origin = (s.at u).portStamp m.port ∧ y.kind = 13 ∧ y.port = m.port ∧ y.seq = m.seq ∧ y.origin = (s.at u).portStamp m.port + s.free ∧
      y.corr = 5 * m.corr ∧ Keeps [.clk, .servo] s t := by
  have t := execPtpDelayMessageReceived_taken (u := u) on ok dom (by omega) mech
  have answer : (s.at u).answerDelay m = _ := (if_neg (by omega)).trans (if_neg step)
  rw [if_pos (by rw [k])] at t
  have kept := exec_keeps (.ptpDelayMessageReceived u m) _ _ t
  rw [answer] at t kept
  exact ⟨_, _, _, _, t, rfl, rfl, rfl, rfl, rfl, rfl, rfl, rfl, rfl, rfl, kept⟩

theorem ptpDelay_response {s : State} {u : Nat} {m : PtpMsg} {sent : Int} (on : s.ptpOn m.port = true) (ok : m.supported = true)
    (dom : m.domain = s.pn ND_PTP_DOMAIN) (mech : m.kind / 2 = s.pn ND_PTP_DELAY) (k : m.kind = 1 ∨ m.kind = 3)
    (e : s.txStamp 2 m.port m.seq = some sent) : execPtpDelayMessageReceived u m s = .next ((s.at u).modServo (fun v => { v with
      linkDelay := put v.linkDelay m.port (divFree (if m.kind = 1 then s.servo.lastT2 - s.servo.lastT1 + (5 * (m.stamp - m.corr) - sent)
        else (s.at u).portStamp m.port - sent - 5 * (m.stamp2 - m.stamp + m.corr)) 2) })) := by
  rw [execPtpDelayMessageReceived_taken on ok dom (by omega) mech, if_neg (by omega), e]

theorem ptpManagement_answers {s : State} {u : Nat} {m : PtpMsg} (on : s.ptpOn m.port = true) :
    ∃ t, execPtpManagementReceived u m s = .next t ∧
      (m.kind = 0 → m.supported = true → m.domain = s.pn ND_PTP_DOMAIN →
        (∃ x, t.servo.txMsgs.head? = some x ∧ x.kind = 20 ∧ x.port = m.port ∧ x.seq = m.seq) ∧ t.servo.discards = s.servo.discards) ∧
      (m.kind ≠ 0 → t.servo = { s.servo with discards := upd s.servo.discards m.port inc32 }) ∧ Keeps [.clk, .servo] s t := by
  have on' : (s.at u).ptpOn m.port = true := on
  have t : execPtpManagementReceived u m s =
      if m.kind = 0 ∧ m.supported = true ∧ m.domain = (s.at u).pn ND_PTP_DOMAIN then .next ((s.at u).sendPtp 20 m.port m.seq 0 0)
      else .next ((s.at u).ptpDiscard m.port) := if_neg (by rw [on']; decide)
  by_cases get : m.kind = 0 ∧ m.supported = true ∧ m.domain = (s.at u).pn ND_PTP_DOMAIN
  · rw [if_pos get] at t
    exact ⟨_, t, fun _ _ _ => ⟨⟨_, rfl, rfl, rfl, rfl⟩, rfl⟩, fun ne => absurd get.1 ne, State.sendPtp_keeps rfl (State.at_keeps rfl .refl)⟩
  · rw [if_neg get] at t
    exact ⟨_, t, fun k ok dom => absurd ⟨k, ok, dom⟩ get, fun _ => rfl, State.ptpDiscard_keeps rfl (State.at_keeps rfl .refl)⟩

/-! ### The node's own messages -/

/-- The next sequence number taken, and the next message of the kind due. -/
def State.countTx (s : State) (u port kind : Nat) : State :=
  s.modServo (fun v => { v with seqId := wrapInc 16 v.seqId, txDue := put v.txDue (3 * port + kind) (some (u + s.txNs kind)) })

theorem execPtpMessageTransmit_due {s : State} {u port kind : Nat} (on : s.ptpOn port = true) (k : kind < 3) (want : s.txWanted port kind = true)
    (due : s.servo.txDue.getD (3 * port + kind) none = none ∨ ripeAt (s.servo.txDue.getD (3 * port + kind) none) u = true) :
    execPtpMessageTransmit u port kind s = .next
      (if kind = 1 ∧ s.pn ND_PTP_STEP = 0 then (((s.at u).countTx u port kind).sendPtp 1 port ((s.at u).countTx u port kind).servo.seqId 0 0).sendPtp 3 port
          ((s.at u).countTx u port kind).servo.seqId ((s.at u).portStamp port) 0
      else ((s.at u).countTx u port kind).sendPtp kind port ((s.at u).countTx u port kind).servo.seqId
        (if kind = 1 then (s.at u).portStamp port else 0) 0) := by
  have go : ((s.at u).ptpOn port && decide (kind < 3) && (s.at u).txWanted port kind &&
      (((s.at u).servo.txDue.getD (3 * port + kind) none).isNone || ripeAt ((s.at u).servo.txDue.getD (3 * port + kind) none) u)) = true := by
    rw [show (s.at u).ptpOn port = true from on, show (s.at u).txWanted port kind = true from want, decide_eq_true k]
    rcases due with e | e
    · rw [show (s.at u).servo.txDue.getD (3 * port + kind) none = none from e]
      rfl
    · rw [show ripeAt ((s.at u).servo.txDue.getD (3 * port + kind) none) u = true from e]
      simp
  exact if_pos go

theorem ptpMessageTransmit_sends {s : State} {u port kind : Nat} (on : s.ptpOn port = true) (k : kind < 3) (want : s.txWanted port kind = true)
    (due : s.servo.txDue.getD (3 * port + kind) none = none ∨ ripeAt (s.servo.txDue.getD (3 * port + kind) none) u = true) :
    ∃ t x, execPtpMessageTransmit u port kind s = .next t ∧ t.servo.seqId = (s.servo.seqId + 1) % 2 ^ 16 ∧
      t.servo.txMsgs.head? = some x ∧ x.port = port ∧ x.seq = t.servo.seqId ∧
      (kind = 1 ∧ s.pn ND_PTP_STEP = 0 → x.kind = 3 ∧ x.origin = (s.at u).portStamp port ∧
        ∃ y, t.servo.txMsgs[1]? = some y ∧ y.kind = 1 ∧ y.port = port ∧ y.seq = t.servo.seqId) ∧
      (kind ≠ 1 ∨ s.pn ND_PTP_STEP ≠ 0 → x.kind = kind ∧ x.origin = (if kind = 1 then (s.at u).portStamp port else 0)) ∧
      t.servo.txDue = put s.servo.txDue (3 * port + kind) (some (u + s.txNs kind)) ∧ Keeps [.clk, .servo] s t := by
  have t := execPtpMessageTransmit_due on k want due
  have kept : Keeps [.clk, .servo] s ((s.at u).countTx u port kind) := State.modServo_keeps rfl (State.at_keeps rfl .refl)
  by_cases two : kind = 1 ∧ s.pn ND_PTP_STEP = 0
  · rw [if_pos two] at t
    exact ⟨_, _, t, rfl, rfl, rfl, rfl, fun _ => ⟨rfl, rfl, _, rfl, rfl, rfl, rfl⟩,
      fun no => absurd two fun a => no.elim (fun ne => ne a.1) fun ne => ne a.2, rfl, State.sendPtp_keeps rfl (State.sendPtp_keeps rfl kept)⟩
  · rw [if_neg two] at t
    exact ⟨_, _, t, rfl, rfl, rfl, rfl, fun yes => absurd yes two, fun _ => ⟨rfl, rfl⟩, rfl, State.sendPtp_keeps rfl kept⟩

end Sys2Proof.Machine
end

section
/-!
PTP: its timeouts and its restart (03 R71, R88).
-/

namespace Sys2Proof.Machine

/-! ### A source lost, as the servo shows it -/

theorem State.loseSource_state {s : State} {k : Nat} (ne : s.servo.source ≠ k) : (s.loseSource k).servo.state = s.servo.state := by
  rw [State.loseSource_other ne]

theorem State.loseSource_holds {s : State} {k : Nat} (e : s.servo.source = k) (st : s.servo.state = .locked) :
    (s.loseSource k).servo.state = .holdover ∧ (s.loseSource k).servo.holdAt = s.clk.up ∧ (s.loseSource k).servo.e0 = s.servo.offset := by
  rw [State.loseSource_locked e (.inl st)]
  exact ⟨rfl, rfl, rfl⟩

/-! ### The announcements stop -/

/-- The master dropped, with the masters that announce no more. -/
def State.dropMaster (s : State) (u : Nat) : State := s.modServo (fun v => { v with
  master := none, annDue := none, syncDue := none, foreign := v.foreign.filter (fun x => u < x.2) })

theorem execPtpAnnounceTimeout_late {s : State} {u d : Nat} (due : s.servo.annDue = some d) (le : d ≤ u) : execPtpAnnounceTimeout u s =
    match (((s.at u).dropMaster u).loseSource 1).bestHeard with
    | some b => .next ((((s.at u).dropMaster u).loseSource 1).selectMaster b)
    | none => .next (((s.at u).dropMaster u).loseSource 1) := by
  refine if_pos ?_
  rw [show (s.at u).servo.annDue = some d from due]
  exact decide_eq_true le

theorem State.dropMaster_keeps {s : State} {u : Nat} : Keeps [.clk, .servo, .host, .ring] s (((s.at u).dropMaster u).loseSource 1) :=
  State.loseSource_keeps rfl (State.modServo_keeps rfl (State.at_keeps rfl .refl))

theorem State.dropMaster_foreign {s : State} {u : Nat} :
    (((s.at u).dropMaster u).loseSource 1).servo.foreign = s.servo.foreign.filter (fun x => u < x.2) := State.loseSource_leaves Servo.foreign rfl

theorem ptpAnnounceTimeout_drops {s : State} {u d : Nat} (snd : Sound s) (due : s.servo.annDue = some d) (le : d ≤ u)
    (old : ∀ x ∈ s.servo.foreign, x.2 ≤ u) : ∃ t, execPtpAnnounceTimeout u s = .next t ∧ t.servo.master = none ∧
      t.servo.annDue = none ∧ (s.servo.source ≠ 1 → t.servo.state = s.servo.state) ∧
      (s.servo.source = 1 → s.servo.state = .locked → t.servo.state = .holdover ∧
        Raised t 10 [byteOf (servoCode .locked), byteOf (servoCode .holdover), 1]) ∧ Keeps [.clk, .servo, .host, .ring] s t := by
  have t := execPtpAnnounceTimeout_late due le
  have none' : s.servo.foreign.filter (fun x => decide (u < x.2)) = [] := List.filter_eq_nil_iff.mpr fun x m => by
    simpa using old x m
  have alone : (((s.at u).dropMaster u).loseSource 1).servo.foreign = [] := State.dropMaster_foreign.trans none'
  rw [State.bestHeard_none alone] at t
  refine ⟨_, t, State.loseSource_leaves Servo.master rfl, State.loseSource_leaves Servo.annDue rfl,
    State.loseSource_state (s := (s.at u).dropMaster u), fun e st => ?_,
    State.dropMaster_keeps⟩
  have told := State.enterHoldover_raised (s := (s.at u).dropMaster u) snd.host.queues
  rw [show ((s.at u).dropMaster u).servo.state = .locked from st, show ((s.at u).dropMaster u).servo.source = 1 from e] at told
  have held : ((s.at u).dropMaster u).loseSource 1 = ((s.at u).dropMaster u).enterHoldover := State.loseSource_locked e (.inl st)
  refine ⟨(State.loseSource_holds (s := (s.at u).dropMaster u) e st).1, held ▸ ⟨?_, told.pending⟩⟩
  have newest := congrArg (List.take 3) told.newest
  rw [List.take_take] at newest
  exact newest

theorem ptpAnnounceTimeout_selects {s : State} {u d e : Nat} {a : Announce} (due : s.servo.annDue = some d) (le : d ≤ u)
    (role : s.pn ND_PTP_ROLE = 0) (one : s.servo.foreign.filter (fun x => u < x.2) = [(a, e)]) :
    ∃ t, execPtpAnnounceTimeout u s = .next t ∧ t.servo.master = some (masterOf a) ∧ t.servo.annDue = some e ∧
      Keeps [.clk, .servo, .host, .ring] s t := by
  have t := execPtpAnnounceTimeout_late due le
  have left : (((s.at u).dropMaster u).loseSource 1).servo.foreign = [(a, e)] := State.dropMaster_foreign.trans one
  have role' : (((s.at u).dropMaster u).loseSource 1).pn ND_PTP_ROLE = 0 := (State.pn_congr (State.dropMaster_keeps.par rfl)).trans role
  rw [State.bestHeard_one left (.inl role')] at t
  have h := State.selectMaster_selects (s := ((s.at u).dropMaster u).loseSource 1) (a := a)
  refine ⟨_, t, h.master, h.annDue.trans ?_, State.selectMaster_keeps rfl State.dropMaster_keeps⟩
  rw [left, List.find?_cons_of_pos (by simp)]
  rfl

/-! ### The Syncs stop -/

theorem ptpSyncTimeout_holds {s : State} {u d : Nat} (due : s.servo.syncDue = some d) (le : d ≤ u) : ∃ t, execPtpSyncTimeout u s = .next t ∧
    t.servo.syncDue = none ∧ t.servo.master = s.servo.master ∧ (s.servo.source ≠ 1 → t.servo.state = s.servo.state) ∧
    (s.servo.source = 1 → s.servo.state = .locked → t.servo.state = .holdover ∧ t.servo.holdAt = max s.clk.up u ∧
      t.servo.e0 = s.servo.offset) ∧ Keeps [.clk, .servo, .host, .ring] s t := by
  have ripe : ripeAt (s.at u).servo.syncDue u = true := by
    rw [show (s.at u).servo.syncDue = some d from due]
    exact decide_eq_true le
  have t : execPtpSyncTimeout u s = .next (((s.at u).modServo (fun v => { v with syncDue := none })).loseSource 1) := if_pos ripe
  exact ⟨_, t, State.loseSource_leaves Servo.syncDue rfl, State.loseSource_leaves Servo.master rfl,
    State.loseSource_state (s := (s.at u).modServo (fun v => { v with syncDue := none })),
    fun e st => State.loseSource_holds (s := (s.at u).modServo (fun v => { v with syncDue := none })) e st,
    State.loseSource_keeps rfl (State.modServo_keeps rfl (State.at_keeps rfl .refl))⟩

/-! ### A restart -/

/-- PTP cleared on the ports of a bitmap. -/
def State.clearPtp (s : State) (ports : Nat) : State := s.modServo (fun v => { v with
  restartDue := none, restartPorts := 0, foreign := v.foreign.filter (fun x => !onPort ports x.1.port)
  txMsgs := v.txMsgs.filter (fun x => !onPort ports x.port)
  txDue := v.txDue.mapIdx (fun i x => if onPort ports (i / 3) then none else x)
  linkDelay := v.linkDelay.mapIdx (fun i x => if onPort ports i then 0 else x) })

/-- The master of a restarted port dropped. -/
def State.leaveMaster (s : State) : State := (s.modServo (fun v => { v with master := none, annDue := none, syncDue := none })).loseSource 1

theorem State.freshPtp_eq {s : State} {ports : Nat} : s.freshPtp ports =
    if (match s.servo.master with | some x => onPort ports x.port | none => false) = true then (s.clearPtp ports).leaveMaster
    else s.clearPtp ports := rfl

/-- What leaving a master keeps of the servo. -/
structure MasterLeft (s x : State) : Prop where
  master : x.servo.master = none
  restartDue : x.servo.restartDue = s.servo.restartDue
  linkDelay : x.servo.linkDelay = s.servo.linkDelay
  txMsgs : x.servo.txMsgs = s.servo.txMsgs
  holds : s.servo.source = 1 → s.servo.state = .locked → x.servo.state = .holdover
  keeps : Keeps [.clk, .servo, .host, .ring] s x

theorem State.leaveMaster_leaves {s : State} : MasterLeft s s.leaveMaster where
  master := State.loseSource_leaves Servo.master rfl
  restartDue := State.loseSource_leaves Servo.restartDue rfl
  linkDelay := State.loseSource_leaves Servo.linkDelay rfl
  txMsgs := State.loseSource_leaves Servo.txMsgs rfl
  holds := fun e st => (State.loseSource_holds (s := s.modServo (fun v => { v with master := none, annDue := none, syncDue := none })) e st).1
  keeps := State.loseSource_keeps rfl (State.modServo_keeps rfl .refl)

theorem linkDelay_cleared {l : List Int} {ports p : Nat} :
    (l.mapIdx (fun i x => if onPort ports i then 0 else x)).getD p 0 = if ports.testBit p then 0 else l.getD p 0 := by
  rw [List.getD_eq_getElem?_getD, List.getD_eq_getElem?_getD, List.getElem?_mapIdx]
  cases l[p]? with
  | none => simp
  | some x => rfl

theorem execPtpRestart_due {s : State} {u : Nat} (due : s.servo.restartDue.isSome = true) :
    execPtpRestart u s = .next ((s.at u).freshPtp s.servo.restartPorts) := if_pos due

theorem ptpRestart_clears {s : State} {u : Nat} (due : s.servo.restartDue.isSome = true) : ∃ t, execPtpRestart u s = .next t ∧
    t.servo.restartDue = none ∧
    (∀ p, t.servo.linkDelay.getD p 0 = if s.servo.restartPorts.testBit p then 0 else s.servo.linkDelay.getD p 0) ∧
    t.servo.txMsgs = s.servo.txMsgs.filter (fun x => !s.servo.restartPorts.testBit x.port) ∧
    (∀ x, s.servo.master = some x → s.servo.restartPorts.testBit x.port = true → t.servo.master = none ∧
      (s.servo.source = 1 → s.servo.state = .locked → t.servo.state = .holdover)) ∧
    (∀ x, s.servo.master = some x → s.servo.restartPorts.testBit x.port = false →
      t.servo.master = some x ∧ t.servo.state = s.servo.state) ∧ Keeps [.clk, .servo, .host, .ring] s t := by
  have t := execPtpRestart_due (u := u) due
  have kept : Keeps [.clk, .servo, .host, .ring] s ((s.at u).clearPtp s.servo.restartPorts) := State.modServo_keeps rfl (State.at_keeps rfl .refl)
  have delay : ∀ p, ((s.at u).clearPtp s.servo.restartPorts).servo.linkDelay.getD p 0 =
      if s.servo.restartPorts.testBit p then 0 else s.servo.linkDelay.getD p 0 := fun p => linkDelay_cleared
  have left := State.leaveMaster_leaves (s := (s.at u).clearPtp s.servo.restartPorts)
  rw [State.freshPtp_eq] at t
  by_cases lost : (match (s.at u).servo.master with | some x => onPort s.servo.restartPorts x.port | none => false) = true
  · rw [if_pos lost] at t
    refine ⟨_, t, left.restartDue, fun p => ?_, left.txMsgs, fun x _ _ => ⟨left.master, left.holds⟩, fun x e no => ?_, left.keeps.then rfl kept⟩
    · rw [left.linkDelay]
      exact delay p
    · rw [show (s.at u).servo.master = some x from e] at lost
      exact absurd (no.symm.trans lost) (by decide)
  · rw [if_neg lost] at t
    refine ⟨_, t, rfl, delay, rfl, fun x e yes => ?_, fun x e _ => ⟨e, rfl⟩, kept⟩
    rw [show (s.at u).servo.master = some x from e] at lost
    exact absurd yes lost

end Sys2Proof.Machine

open Sys2Proof Sys2Proof.Machine

/-- Settles O26: each message and each timeout by the lemma of what it does. -/
theorem ptpEventsComplete : Obligations.PtpEventsComplete := by
  intro s u snd
  refine ⟨fun m x on ok dom e port sender loaded refused => ?sync, fun a on may => ⟨execPtpAnnounceReceived_other on may,
    fun ok dom tai serves alone => ptpAnnounce_selects on may ok dom tai serves alone⟩, fun m on ok dom mech => ?delay,
    fun m on => ptpManagement_answers on, fun port kind on k want due => ptpMessageTransmit_sends on k want due,
    fun d due le => ⟨fun old => ptpAnnounceTimeout_drops snd due le old, fun a e role one => ptpAnnounceTimeout_selects due le role one⟩,
    fun d due le => ptpSyncTimeout_holds due le, ptpRestart_clears⟩
  case sync =>
    intro t1 t2 off v source key
    have f : FollowsPtp s x := ⟨e, loaded, source, key, refused⟩
    exact ⟨fun st jump run => ptpSync_locked on ok dom port sender f st jump run,
      fun st jump close run => ptpSync_locks snd on ok dom port sender f st jump close run⟩
  case delay =>
    intro now
    refine ⟨fun k => ptpDelay_request on ok dom mech k, fun k step => ptpDelay_peerOneStep on ok dom mech k step,
      fun k step => ptpDelay_peerTwoStep on ok dom mech k step, fun sent k e => ?_, fun sent k e => ?_⟩
    · have t := ptpDelay_response (u := u) on ok dom mech (.inl k) e
      rw [if_pos k] at t
      exact ⟨_, t, rfl, State.modServo_keeps rfl (State.at_keeps rfl .refl)⟩
    · have t := ptpDelay_response (u := u) on ok dom mech (.inr k) e
      rw [if_neg (by omega)] at t
      exact ⟨_, t, rfl, State.modServo_keeps rfl (State.at_keeps rfl .refl)⟩
end

section
/-!
The frame tick, the handover of a block, and the frame added (02 R39, R41, R46–R48, R60; 10 R248; 21 R489, R492).
-/

namespace Sys2Proof.Machine

/-! ### The frame tick in its stages -/

/-- The frame that ends as the engine has it. -/
def State.frameEnds (s : State) (obs : FrameObs) (at' : Nat) : State :=
  if 5 ≤ s.pwr.stage ∧ s.pwr.tb = none then s.changeMode.processFrame obs at' else s

/-- The frame that begins, with the slew and the test registers in force. -/
def State.frameBegins (s : State) (at' : Nat) : State :=
  ((s.modClk (fun c => { c with
    frame := (c.frame + 1) % 2 ^ 48, lastTick := at', mclk := c.mclk + 2048
    frac := (s.fineTime at' - 250000 * 2 ^ 32) % 2 ^ 32, rate := s.servo.rate })).modServo Servo.slewed).modTest (fun x => { x with eff := x.regs })

/-- The boundary made due where an interval begins. -/
def State.frameBoundary (s : State) (at' : Nat) : State := if 5 ≤ s.pwr.stage ∧ s.frm % 4000 = 0 then s.boundaryTick at' else s

/-- A diagnosis goes on, or waits. -/
def State.frameDiag (s : State) : State := if 5 ≤ s.pwr.stage ∧ s.pwr.tb = none then (s.diagStep s.frm).diagWaits else s

theorem State.frameTick_eq {s : State} {obs : FrameObs} {at' : Nat} :
    s.frameTick obs at' = (((((s.frameEnds obs at').frameBegins at').frameBoundary at').frameDiag).frameStart) := rfl

theorem State.frameEnds_keeps {s : State} {obs : FrameObs} {at' : Nat} :
    Keeps [.servo, .par, .host, .slices, .courses, .eng, .pts, .plc, .sar] s (s.frameEnds obs at') :=
  .ite (State.processFrame_keeps rfl (State.changeMode_keeps rfl .refl)) .refl

theorem State.frameDiag_keeps {s : State} : Keeps [.slices, .courses, .eng, .sar] s s.frameDiag :=
  .ite (State.diagWaits_keeps rfl (State.diagStep_keeps rfl .refl)) .refl

/-- What the boundary marks in the time base. -/
theorem State.boundaryTick_clk {s : State} {at' : Nat} : (s.boundaryTick at').clk =
    { s.clk with bdry := some s.frm, bdryAt := at', bdryEnd := s.frm - 1, interval := (s.clk.interval + 1) % 2 ^ 32 } := by
  unfold State.boundaryTick
  dsimp only
  refine ((State.timersAtBoundary_keeps (T := [.sar]) rfl .refl).clk rfl).trans ?_
  refine ((State.modSar_keeps (T := [.sar]) rfl .refl).clk rfl).trans ?_
  refine ((Keeps.foldl (T := [.host, .slices, .courses, .eng, .pts, .sar]) (fun _ _ => State.ripeEffect_keeps rfl .refl) rfl .refl).clk rfl).trans ?_
  exact ((Keeps.forAll (T := [.pts]) (fun _ _ => State.closeMeasured_keeps rfl .refl) rfl .refl).clk rfl)

/-- The values that waited for the next frame in force. -/
def State.takeFrameValues (s : State) : State := s.modPar (fun x => { x with
  active := putAll x.active ((s.par.staged.filter (fun e => e.effect == .nextFrame)).map (fun e => (e.pid, e.inst, e.val)))
  staged := x.staged.filter (fun e => e.effect != .nextFrame) })

theorem State.frameStart_keepsValues {s : State} : Keeps [.host, .pts, .sw, .sar] s.takeFrameValues s.frameStart := by
  have effects : Keeps [.host, .pts, .sw, .sar] s.takeFrameValues
      ((s.par.staged.filter (fun e => e.effect == .nextFrame)).foldl (fun s e => s.frameValueEffect e) s.takeFrameValues) :=
    .foldl (fun _ _ => State.frameValueEffect_keeps rfl .refl) rfl .refl
  have limits : ∀ (y : State) (p : Nat), Keeps [.host, .pts, .sw, .sar] y (State.applyModify (match (y.outOf p).limitNext with
      | some l => (y.modOut p (fun o => { o with hostLimit := some l, limitNext := none })).setPilot p
      | none => y) p) := by
    intro y p
    refine State.applyModify_keeps rfl ?_
    split
    · exact State.setPilot_keeps rfl (State.modOut_keeps rfl .refl)
    · exact .refl
  have taken : ∀ x : State, Keeps [.host, .pts, .sw, .sar] s.takeFrameValues x → Keeps [.host, .pts, .sw, .sar] s.takeFrameValues
      (forAll points16 (fun p s => State.applyModify (match (s.outOf p).limitNext with
        | some l => (s.modOut p (fun o => { o with hostLimit := some l, limitNext := none })).setPilot p
        | none => s) p) x) := fun _ h => .forAll (fun p y => limits y p) rfl h
  have reports : ∀ x : State, Keeps [.host, .pts, .sw, .sar] s.takeFrameValues x → Keeps [.host, .pts, .sw, .sar] s.takeFrameValues
      (forAll [0, 1, 2, 3] (fun k s => if 0 < (s.stream k).units ∧ (s.stream k).evFrame ≠ some s.frm then s.streamReport k 0 else s) x) :=
    fun _ h => .forAll (fun _ _ => .ite (State.streamReport_keeps rfl .refl) .refl) rfl h
  exact reports _ (State.flushMerged_keeps rfl (.ite (State.fireTrigger_keeps rfl (taken _ (.ite effects (State.refreshSw_keeps rfl effects))))
    (taken _ (.ite effects (State.refreshSw_keeps rfl effects)))))

/-- No value that waited for the next frame waits any more. -/
theorem State.frameStart_staged {s : State} : ∀ e ∈ s.frameStart.par.staged, e.effect ≠ .nextFrame := by
  intro e m
  rw [State.frameStart_keepsValues.par rfl] at m
  simpa using (List.mem_filter.mp m).2

/-- The frame that has begun at `at'`. -/
structure Ticked (s x : State) (at' : Nat) : Prop where
  frame : x.clk.frame = (s.clk.frame + 1) % 2 ^ 48
  lastTick : x.clk.lastTick = at'
  up : x.clk.up = s.clk.up
  test : x.test = { s.test with eff := s.test.regs }
  staged : ∀ e ∈ x.par.staged, e.effect ≠ .nextFrame
  boundary : if 5 ≤ s.pwr.stage ∧ (s.clk.frame + 1) % 2 ^ 48 % 4000 = 0 then
      x.clk.bdry = some ((s.clk.frame + 1) % 2 ^ 48) ∧ x.clk.bdryAt = at' ∧ x.clk.interval = (s.clk.interval + 1) % 2 ^ 32
    else x.clk.bdry = s.clk.bdry ∧ x.clk.interval = s.clk.interval
  keeps : Keeps [.clk, .servo, .par, .host, .test, .slices, .courses, .eng, .pts, .sw, .plc, .sar] s x

/-- The time base as the next frame begins. -/
structure Begun (s x : State) (at' : Nat) : Prop where
  frame : x.clk.frame = (s.clk.frame + 1) % 2 ^ 48
  lastTick : x.clk.lastTick = at'
  up : x.clk.up = s.clk.up
  bdry : x.clk.bdry = s.clk.bdry
  interval : x.clk.interval = s.clk.interval
  test : x.test = { s.test with eff := s.test.regs }
  pwr : x.pwr = s.pwr

theorem State.frameBegins_begun {s : State} {obs : FrameObs} {at' : Nat} : Begun s ((s.frameEnds obs at').frameBegins at') at' := by
  have k := State.frameEnds_keeps (s := s) (obs := obs) (at' := at')
  have clk := k.clk rfl
  have test := k.test rfl
  have pwr := k.pwr rfl
  generalize s.frameEnds obs at' = y at clk test pwr
  refine ⟨?_, rfl, ?_, ?_, ?_, ?_, pwr⟩
  · change (y.clk.frame + 1) % 2 ^ 48 = _
    rw [clk]
  · exact (congrArg Clock.up clk :)
  · exact (congrArg Clock.bdry clk :)
  · exact (congrArg Clock.interval clk :)
  · change { y.test with eff := y.test.regs } = _
    rw [test]

theorem State.frameTick_ticks {s : State} {obs : FrameObs} {at' : Nat} : Ticked s (s.frameTick obs at') at' := by
  have kept : Keeps [.clk, .servo, .par, .host, .test, .slices, .courses, .eng, .pts, .sw, .plc, .sar] s (s.frameTick obs at') :=
    State.frameTick_keeps rfl .refl
  have h := State.frameBegins_begun (s := s) (obs := obs) (at' := at')
  have staged := State.frameStart_staged (s := (((s.frameEnds obs at').frameBegins at').frameBoundary at').frameDiag)
  rw [State.frameTick_eq] at kept ⊢
  generalize (s.frameEnds obs at').frameBegins at' = y at h kept staged
  have last : Keeps [.par, .host, .slices, .courses, .eng, .pts, .sw, .sar] (y.frameBoundary at') (y.frameBoundary at').frameDiag.frameStart :=
    State.frameStart_keeps rfl (State.frameDiag_keeps.mono rfl)
  have clk := last.clk rfl
  have test : (y.frameBoundary at').frameDiag.frameStart.test = y.test := (last.test rfl).trans ((Keeps.ite (State.boundaryTick_keeps
    (T := [.clk, .par, .host, .slices, .courses, .eng, .pts, .sar]) rfl .refl) .refl : Keeps _ y (y.frameBoundary at')).test rfl)
  by_cases go : 5 ≤ y.pwr.stage ∧ y.frm % 4000 = 0
  · have tick : (y.frameBoundary at').clk = _ := (congrArg State.clk (if_pos go)).trans State.boundaryTick_clk
    have frame : y.frm = (s.clk.frame + 1) % 2 ^ 48 := h.frame
    rw [tick] at clk
    refine ⟨by rw [clk]; exact h.frame, by rw [clk]; exact h.lastTick, by rw [clk]; exact h.up, test.trans h.test, staged, ?_, kept⟩
    rw [if_pos ⟨h.pwr ▸ go.1, frame ▸ go.2⟩, clk]
    exact ⟨congrArg some h.frame, rfl, congrArg (fun n => (n + 1) % 2 ^ 32) h.interval⟩
  · have tick : (y.frameBoundary at').clk = y.clk := congrArg State.clk (if_neg go)
    have frame : y.frm = (s.clk.frame + 1) % 2 ^ 48 := h.frame
    rw [tick] at clk
    refine ⟨by rw [clk]; exact h.frame, by rw [clk]; exact h.lastTick, by rw [clk]; exact h.up, test.trans h.test, staged, ?_, kept⟩
    rw [if_neg fun a => go ⟨h.pwr.symm ▸ a.1, frame.symm ▸ a.2⟩, clk]
    exact ⟨h.bdry, h.interval⟩

theorem execFrameTick_due {s : State} {u : Nat} {obs : FrameObs} (on : s.pwr.coreOn = true) (le : s.tickAt ≤ u) :
    execFrameTick u obs s = .next ((s.at u).frameTick obs s.tickAt).handoverStep := by
  refine if_neg ?_
  rintro (off | early)
  · exact absurd (on.symm.trans off) (by decide)
  · exact absurd early (Nat.not_lt.mpr le)

/-- A frame tick with a handover that begins: the mailboxes pause. -/
theorem frameTick_pauses {s : State} {u f : Nat} {back : Bool} {obs : FrameObs} (on : s.pwr.coreOn = true) (le : s.tickAt ≤ u)
    (hand : s.fw.hand = some (f, back)) (from' : f ≤ (s.clk.frame + 1) % 2 ^ 48) (before : (s.clk.frame + 1) % 2 ^ 48 < f + 2) :
    ∃ t, execFrameTick u obs s = .next t ∧ t.clk.frame = (s.clk.frame + 1) % 2 ^ 48 ∧ t.clk.lastTick = s.tickAt ∧
      t.host.pause = true ∧ t.serving = false ∧ t.fw.active = s.fw.active ∧
      Keeps [.clk, .servo, .par, .host, .test, .slices, .courses, .eng, .pts, .sw, .plc, .sar] s t := by
  have t := execFrameTick_due (u := u) (obs := obs) on le
  have h := State.frameTick_ticks (s := s.at u) (obs := obs) (at' := s.tickAt)
  generalize (s.at u).frameTick obs s.tickAt = y at t h
  have fw : y.fw = s.fw := h.keeps.fw rfl
  have frame : y.frm = (s.clk.frame + 1) % 2 ^ 48 := h.frame
  have step : y.handoverStep = y.modHost (fun x => { x with pause := true }) := by
    unfold State.handoverStep
    rw [fw, hand]
    dsimp only
    rw [frame, if_neg (Nat.not_lt.mpr from'), if_pos before]
  rw [step] at t
  refine ⟨_, t, h.frame, h.lastTick, rfl, ?_, congrArg Firmware.active fw, State.modHost_keeps rfl (h.keeps.then rfl (State.at_keeps rfl .refl))⟩
  change (y.host.ready && !true && !y.pwr.capoReset) = false
  simp

theorem frameTick_begins {s : State} {u : Nat} {obs : FrameObs} (on : s.pwr.coreOn = true) (le : s.tickAt ≤ u) (hand : s.fw.hand = none) :
    ∃ t, execFrameTick u obs s = .next t ∧ Ticked (s.at u) t s.tickAt := by
  have t := execFrameTick_due (u := u) (obs := obs) on le
  have h := State.frameTick_ticks (s := s.at u) (obs := obs) (at' := s.tickAt)
  have step : ((s.at u).frameTick obs s.tickAt).handoverStep = (s.at u).frameTick obs s.tickAt := by
    unfold State.handoverStep
    rw [show ((s.at u).frameTick obs s.tickAt).fw.hand = none from (congrArg Firmware.hand (h.keeps.fw rfl)).trans hand]
  rw [step] at t
  exact ⟨_, t, h⟩

end Sys2Proof.Machine
end

section
/-!
The interval's boundary as the next interval has it (02 R41, R46, R47; 10 R258, R265).
-/

namespace Sys2Proof.Machine

/-! ### The boundary's work leaves the frame counter -/

/-- The frame counter stands. -/
def OnFrameCounter (s x : State) : Prop := x.clk.frame = s.clk.frame

theorem OnFrameCounter.trans {s x y : State} (h : OnFrameCounter s x) (g : OnFrameCounter x y) : OnFrameCounter s y := Eq.trans g h

theorem OnFrameCounter.of_keeps {T : List Part} {s x : State} (k : Keeps T s x) (c : T.contains .clk = false) : OnFrameCounter s x :=
  congrArg Clock.frame (k.clk c)

theorem OnFrameCounter.foldl {α : Type} {s : State} {f : State → α → State} (step : ∀ x a, OnFrameCounter x (f x a)) (l : List α) :
    OnFrameCounter s (l.foldl f s) := by
  induction l generalizing s with
  | nil => exact rfl
  | cons a l ih => exact (step s a).trans ih

theorem OnFrameCounter.ite {s x y : State} {c : Prop} [Decidable c] (h : OnFrameCounter s x) (g : OnFrameCounter s y) :
    OnFrameCounter s (if c then x else y) := by
  split <;> assumption

theorem State.configApplied_counter {s : State} {tag frame : Nat} : OnFrameCounter s (s.configApplied tag frame) :=
  OnFrameCounter.trans (x := s.bump.bump) rfl (.of_keeps (State.raise_keeps (T := [.host]) rfl .refl) rfl)

theorem State.commitRipe_counter {s : State} {b : Nat} : OnFrameCounter s (s.commitRipe b) := by
  have values : ∀ (x : State) (l : List Staged), Keeps [.servo, .host, .pts, .sw, .saf, .ring] x (l.foldl (fun s e => s.boundaryValue e.pid e.inst) x) :=
    fun _ _ => .foldl (fun _ _ => State.boundaryValue_keeps rfl .refl) rfl .refl
  have retypes : ∀ (x : State) (l : List Nat) (old : Nat → Nat), Keeps [.host, .pts, .sw, .saf] x (forAll l (fun p s => s.retype p (old p) b) x) :=
    fun _ _ _ => .forAll (fun _ _ => State.retype_keeps rfl .refl) rfl .refl
  unfold State.commitRipe
  dsimp only
  refine OnFrameCounter.trans ?_ (.foldl (fun x a => State.configApplied_counter) _)
  refine .of_keeps (T := [.par, .servo, .host, .pts, .sw, .saf, .ring, .sar]) ?_ rfl
  exact State.modPar_keeps rfl (State.modPar_keeps rfl (State.reservedNow_keeps rfl ((retypes _ _ _).then rfl ((values _ _).then rfl
    (State.modPar_keeps rfl .refl)))))

theorem State.swapImages_counter {s : State} {b : Nat} : OnFrameCounter s (s.swapImages b) := by
  have entered : ∀ (x : State) (a c d : Nat) e f, OnFrameCounter x (x.enterCapo a c d e f b) := fun _ _ _ _ _ _ =>
    .of_keeps (State.enterCapo_keeps (T := [.host, .log]) rfl .refl) rfl
  have told : ∀ (x : State) a c d e f g h i j k l, OnFrameCounter x (x.fwEvent a c d e f g h i j k l) := fun _ _ _ _ _ _ _ _ _ _ _ _ =>
    .of_keeps (State.fwEvent_keeps (T := [.host]) rfl .refl) rfl
  have refused : ∀ (x : State) a c, OnFrameCounter x (x.cyclesRefused a c) := fun _ _ _ =>
    .of_keeps (State.cyclesRefused_keeps (T := [.host]) rfl .refl) rfl
  have noted : ∀ (x : State) f, OnFrameCounter x (x.modFw f) := fun _ _ => rfl
  have priced : ∀ (x : State) f, OnFrameCounter x (x.modPar f) := fun _ _ => rfl
  have bumped : ∀ x : State, OnFrameCounter x x.bump := fun _ => rfl
  unfold State.swapImages
  split
  · refine .ite rfl (.ite ?_ (.ite ?_ ?_))
    · exact ((bumped _).trans (noted _ _)).trans (told _ _ _ _ _ _ _ _ _ _ _ _)
    · exact (noted _ _).trans (refused _ _ _)
    · exact (((entered _ _ _ _ _ _).trans (noted _ _)).trans (priced _ _)).trans (told _ _ _ _ _ _ _ _ _ _ _ _)
  · exact rfl

/-! ### The spans that begin, and what the boundary does after them -/

/-- The running intervals of all points unchanged. -/
def SameIntervals (s x : State) : Prop := x.pts.map Point.ivl = s.pts.map Point.ivl

theorem SameIntervals.trans {s x y : State} (h : SameIntervals s x) (g : SameIntervals x y) : SameIntervals s y := Eq.trans g h

theorem SameIntervals.of_keeps {T : List Part} {s x : State} (k : Keeps T s x) (c : T.contains .pts = false) : SameIntervals s x :=
  congrArg (List.map Point.ivl) (k.pts c)

theorem SameIntervals.foldl {α : Type} {s : State} {f : State → α → State} (step : ∀ x a, SameIntervals x (f x a)) (l : List α) :
    SameIntervals s (l.foldl f s) := by
  induction l generalizing s with
  | nil => exact rfl
  | cons a l ih => exact (step s a).trans ih

theorem map_upd {α β : Type} {g : α → β} {f : α → α} (e : ∀ x, g (f x) = g x) (l : List α) (i : Nat) : (upd l i f).map g = l.map g := by
  unfold upd
  induction l generalizing i with
  | nil => simp
  | cons x l ih => cases i with
    | zero => simp [e]
    | succ i => simpa using ih i

theorem State.modOut_intervals {s : State} {p : Nat} {f : Outlet → Outlet} : SameIntervals s (s.modOut p f) :=
  map_upd (g := Point.ivl) (f := fun x => { x with out := f x.out }) (fun _ => rfl) s.pts p

theorem State.linkIdle_intervals {s : State} {p : Nat} : SameIntervals s (s.linkIdle p) := by
  have port : ∀ (x : State) f, SameIntervals x (x.modPlcPort p f) := fun _ _ => rfl
  have told : ∀ (x : State) a c, SameIntervals x (x.linkEvent p a c) := fun _ _ _ => rfl
  have down : SameIntervals s (s.linkDown p 3) := by
    unfold State.linkDown
    split
    · exact ((port _ _).trans State.modOut_intervals).trans (told _ _ _)
    · exact rfl
  unfold State.linkIdle
  split
  · exact rfl
  · exact down.trans (port _ _)

theorem State.plcSweep_intervals {s : State} : SameIntervals s s.plcSweep := by
  have links : SameIntervals s (forAll points16 (fun p s => s.linkIdle p) s) := .foldl (fun _ _ => State.linkIdle_intervals) points16
  refine links.trans ?_
  refine .of_keeps (T := [.clk, .servo, .host, .plc, .ring]) (Keeps.forAll (fun q y => .ite .refl ?_) rfl .refl) rfl
  have gone : ∀ (x : State) (l : List Neighbour) (f : State → Neighbour → State), (∀ z n, Keeps [.clk, .servo, .host, .ring] z (f z n)) →
      Keeps [.clk, .servo, .host, .ring] x (l.foldl f x) := fun _ _ _ step => .foldl step rfl .refl
  refine (gone _ _ _ fun z n => ?_).then rfl (State.modServo_keeps rfl (State.modPlcPort_keeps rfl .refl))
  exact .ite (State.loseSource_keeps rfl (State.queueFault_keeps rfl (State.neighbourEvent_keeps rfl .refl)))
    (State.queueFault_keeps rfl (State.neighbourEvent_keeps rfl .refl))

theorem State.setPilot_intervals {s : State} {p : Nat} : SameIntervals s (s.setPilot p) := by
  unfold State.setPilot
  exact State.modOut_intervals

theorem State.sweep_intervals {s : State} {b : Nat} : SameIntervals s (s.sweep b) := by
  have swapped : SameIntervals s (s.swapImages b) := .of_keeps (State.swapImages_keeps (T := [.clk, .par, .host, .log, .fw]) rfl .refl) rfl
  have loaded : ∀ (x : State) (p : Nat), SameIntervals x ((x.setPilot p).loadRcd p) := fun _ _ =>
    SameIntervals.trans State.setPilot_intervals (.of_keeps (State.loadRcd_keeps (T := [.slices]) rfl .refl) rfl)
  exact (swapped.trans (.foldl (fun x p => loaded x p) points16)).trans State.plcSweep_intervals

/-- The spans of the interval that begins at `b`. -/
theorem State.openInterval_starts {s : State} {b : Nat} {c : Nat → Bool} : ∀ i ∈ (s.openInterval b c).pts.map Point.ivl, i.start = b := by
  have spans : ∀ x : State, ∀ i ∈ (x.beginSpans b c).pts.map Point.ivl, i.start = b := by
    intro x i m
    obtain ⟨y, my, rfl⟩ := List.mem_map.mp m
    obtain ⟨k, l, rfl⟩ := List.mem_mapIdx.mp my
    rfl
  exact spans _

/-- After the boundary's last stage every residual advance counts from the registers as they stand. -/
theorem State.takeRestores_points {s : State} {b : Nat} :
    (s.takeRestores b).pts = s.pts.map (fun x => { x with advBase := x.regs }) := by
  have queued : ∀ x : State, (x.endTail).pts = x.pts := fun x => (State.endTail_keeps (T := [.led]) rfl .refl).pts rfl
  have courses : ∀ (x : State) (l : List Nat), (l.foldl (fun s j => s.modCourse j (fun x => { x with restoring := true })) x).pts = x.pts := fun _ _ =>
    (Keeps.foldl (T := [.courses]) (fun _ _ => State.modCourse_keeps rfl .refl) rfl .refl).pts rfl
  unfold State.takeRestores
  refine (queued _).trans ?_
  exact congrArg (List.map fun x => { x with advBase := x.regs }) (courses _ _)

theorem State.takeRestores_queue {s : State} {b : Nat} : (s.takeRestores b).eng.restores = [] ∧
    (s.takeRestores b).eng.diagQueue = s.eng.diagQueue ++ s.eng.restores := by
  have last : ∀ x : State, Keeps [.pts, .led] x (x.completeEntry x.clk.bdryEnd).endTail := fun _ =>
    State.endTail_keeps rfl (State.completeEntry_keeps rfl .refl)
  have courses : ∀ (x : State) (l : List Nat), (l.foldl (fun s j => s.modCourse j (fun x => { x with restoring := true })) x).eng = x.eng := fun _ _ =>
    (Keeps.foldl (T := [.courses]) (fun _ _ => State.modCourse_keeps rfl .refl) rfl .refl).eng rfl
  unfold State.takeRestores
  dsimp only
  rw [(last _).eng rfl]
  exact ⟨rfl, congrArg (fun e : Engine => e.diagQueue ++ e.restores) (courses _ _)⟩

/-! ### The stages together -/

/-- The machine before the boundary takes the queued restores. -/
def State.boundaryOpens (s : State) (b : Nat) (all : Bool) (retyped : List Nat) : State :=
  (((s.closeInterval.takeLeap b).closeAndCommit b all (s.closeInterval.leapDeletes b) retyped).openInterval b
    (fun p => all || retyped.contains p)).sweep b

theorem State.closeInterval_keeps {s : State} : Keeps [.host, .pts, .recs, .led, .ring] s s.closeInterval :=
  State.postBalance_keeps rfl (State.joinPeriods_keeps rfl (State.saveLedger_keeps rfl (State.incomplete_keeps rfl (State.closeIntervals_keeps rfl .refl))))

theorem State.takeLeap_keeps {s : State} {b : Nat} : Keeps [.servo] s (s.takeLeap b) := by
  unfold State.takeLeap
  split
  · exact State.modServo_keeps rfl .refl
  · exact .refl

theorem State.beforeCommit_keeps {s : State} {b : Nat} {all deleted : Bool} {retyped : List Nat} :
    Keeps [.servo, .host, .pts, .recs, .led, .sw, .log] s
      (forAll points16 (fun p s => s.buildLate p s.clk.bdryEnd) (s.closePeriods b all deleted retyped)) :=
  .forAll (fun _ _ => State.buildLate_keeps rfl .refl) rfl (State.closePeriods_keeps rfl .refl)

theorem State.openInterval_keeps {s : State} {b : Nat} {c : Nat → Bool} : Keeps [.host, .slices, .pts, .sw, .sar] s (s.openInterval b c) :=
  State.beginSpans_keeps rfl (.forAll (fun _ _ => State.modPt_keeps rfl .refl) rfl (.forAll (fun _ _ => State.serviceAt_keeps rfl .refl) rfl .refl))

theorem State.sweep_keeps {s : State} {b : Nat} : Keeps [.clk, .servo, .par, .host, .slices, .pts, .log, .plc, .ring, .fw] s (s.sweep b) :=
  State.plcSweep_keeps rfl (.forAll (fun _ _ => State.loadRcd_keeps rfl (State.setPilot_keeps rfl .refl)) rfl (State.swapImages_keeps rfl .refl))

/-- The engine is left as it is until the restores are taken. -/
theorem State.boundaryOpens_eng {s : State} {b : Nat} {all : Bool} {retyped : List Nat} : (s.boundaryOpens b all retyped).eng = s.eng :=
  (State.sweep_keeps.eng rfl).trans ((State.openInterval_keeps.eng rfl).trans (((State.commitRipe_keeps
    (T := [.clk, .servo, .par, .host, .pts, .sw, .saf, .ring, .sar]) rfl .refl).eng rfl).trans ((State.beforeCommit_keeps.eng rfl).trans
    ((State.takeLeap_keeps.eng rfl).trans (State.closeInterval_keeps.eng rfl)))))

theorem State.sweep_counter {s : State} {b : Nat} : OnFrameCounter s (s.sweep b) := by
  have loaded : OnFrameCounter (s.swapImages b) (forAll points16 (fun p s => (s.setPilot p).loadRcd p) (s.swapImages b)) :=
    .of_keeps (T := [.slices, .pts]) (.forAll (fun _ _ => State.loadRcd_keeps rfl (State.setPilot_keeps rfl .refl)) rfl .refl) rfl
  have swept : ∀ x : State, OnFrameCounter x x.plcSweep := fun _ => (congrArg Clock.frame State.plcSweep_calm.counter :)
  exact (State.swapImages_counter.trans loaded).trans (swept _)

theorem State.boundaryOpens_counter {s : State} {b : Nat} {all : Bool} {retyped : List Nat} : OnFrameCounter s (s.boundaryOpens b all retyped) := by
  have closed : OnFrameCounter s (s.closeInterval.takeLeap b) := .of_keeps (T := [.servo, .host, .pts, .recs, .led, .ring])
    (State.takeLeap_keeps.then rfl (State.closeInterval_keeps.mono rfl)) rfl
  have committed : ∀ (x : State) a d l, OnFrameCounter x (x.closeAndCommit b a d l) := fun _ _ _ _ =>
    OnFrameCounter.trans (.of_keeps State.beforeCommit_keeps rfl) State.commitRipe_counter
  exact ((closed.trans (committed _ _ _ _)).trans (.of_keeps State.openInterval_keeps rfl)).trans State.sweep_counter

theorem State.boundaryOpens_starts {s : State} {b : Nat} {all : Bool} {retyped : List Nat} :
    ∀ i ∈ (s.boundaryOpens b all retyped).pts.map Point.ivl, i.start = b := by
  intro i m
  rw [show (s.boundaryOpens b all retyped).pts.map Point.ivl = _ from State.sweep_intervals] at m
  exact State.openInterval_starts i m

/-- The next interval begun at `b`. -/
structure IntervalBegun (s x : State) (b : Nat) : Prop where
  bdry : x.clk.bdry = none
  start : x.clk.ivalStart = b
  stepped : x.clk.stepped = false
  frame : x.clk.frame = s.clk.frame
  restores : x.eng.restores = []
  queue : x.eng.diagQueue = s.eng.diagQueue ++ s.eng.restores
  spans : ∀ p, p < x.pts.length → (x.pt p).ivl.start = b ∧ (x.pt p).advBase = (x.pt p).regs

theorem State.boundaryWork_begins {s : State} {b : Nat} : IntervalBegun s (s.boundaryWork b) b := by
  obtain ⟨all, retyped, e⟩ := State.boundaryWork_eq (s := s) (b := b)
  have eng := State.boundaryOpens_eng (s := s) (b := b) (all := all) (retyped := retyped)
  have frame := State.boundaryOpens_counter (s := s) (b := b) (all := all) (retyped := retyped)
  have starts := State.boundaryOpens_starts (s := s) (b := b) (all := all) (retyped := retyped)
  have e : s.boundaryWork b = ((s.boundaryOpens b all retyped).takeRestores b).modClk (fun c => { c with
    ivalStart := b, bdry := none, stepped := false }) := e
  rw [e]
  generalize s.boundaryOpens b all retyped = y at eng frame starts
  obtain ⟨none, queue⟩ := State.takeRestores_queue (s := y) (b := b)
  have clk : (y.takeRestores b).clk = y.clk := State.takeRestores_keeps.clk rfl
  refine ⟨rfl, rfl, rfl, (congrArg Clock.frame clk).trans frame, none, queue.trans (by rw [eng]), fun p l => ?_⟩
  have points : ((y.takeRestores b).modClk (fun c => { c with ivalStart := b, bdry := Option.none, stepped := false })).pts =
    y.pts.map (fun x => { x with advBase := x.regs }) := State.takeRestores_points
  rw [points, List.length_map] at l
  have point : ((y.takeRestores b).modClk (fun c => { c with ivalStart := b, bdry := Option.none, stepped := false })).pt p =
      { y.pts[p] with advBase := y.pts[p].regs } := by
    unfold State.pt
    rw [points, List.getD_eq_getElem _ _ (by rwa [List.length_map]), List.getElem_map]
  rw [point]
  exact ⟨starts _ (List.mem_map.mpr ⟨_, List.getElem_mem l, rfl⟩), rfl⟩

theorem execIntervalBoundary_due {s : State} {u b : Nat} (e : s.clk.bdry = some b) (on : s.pwr.capoOn = true) (done : s.blocksWait = false) :
    execIntervalBoundary u s = .next ((s.at u).boundaryWork b) := by
  have h : (s.at u).clk.bdry = some b := e
  have go : ((s.at u).pwr.capoOn && !(s.at u).blocksWait) = true := by
    rw [show (s.at u).pwr.capoOn = true from on, show (s.at u).blocksWait = false from done]
    rfl
  unfold execIntervalBoundary
  dsimp only
  rw [h]
  exact if_pos go

theorem intervalBoundary_begins {s : State} {u b : Nat} (snd : Sound s) (e : s.clk.bdry = some b) (on : s.pwr.capoOn = true)
    (done : s.blocksWait = false) : ∃ t, execIntervalBoundary u s = .next t ∧ t.clk.bdry = none ∧ t.clk.ivalStart = b ∧ t.clk.stepped = false ∧
      t.clk.frame = s.clk.frame ∧ t.eng.restores = [] ∧ t.eng.diagQueue = s.eng.diagQueue ++ s.eng.restores ∧
      (∀ p, p < 16 → (t.pt p).ivl.start = b ∧ (t.pt p).advBase = (t.pt p).regs) ∧ Keeps (touches (.intervalBoundary u)) s t := by
  have t := execIntervalBoundary_due (u := u) e on done
  have sound : Sound ((s.at u).boundaryWork b) := State.boundaryWork_sound (State.at_sound snd)
  have h := State.boundaryWork_begins (s := s.at u) (b := b)
  exact ⟨_, t, h.bdry, h.start, h.stepped, h.frame, h.restores, h.queue, fun p l => h.spans p (sound.pts.symm ▸ l),
    exec_keeps (.intervalBoundary u) _ _ t⟩

end Sys2Proof.Machine
end

section
/-!
Blocks handed over and added, a frame cut off, and a mode in force (02 R46, R48, R57, R60; 10 R248).
-/

namespace Sys2Proof.Machine

/-! ### A block handed over, and a frame cut off -/

/-- The block as it is handed over: it says whether the warning's commit is due at its frame. -/
def State.handed (s : State) (b : Block) : Block := { b with warn := b.warn || (s.led.commitDue && s.led.warnFrame == b.frame) }

theorem handoverBlockReady_hands {s : State} {u : Nat} {b : Block} (e : s.eng.work = some b) (n : s.eng.buf.length = 2) :
    ∃ t, execHandoverBlockReady u s = .next t ∧ t.eng.work = none ∧
      t.eng.buf.getD (b.frame % 2) none = some { b with warn := b.warn || (s.led.commitDue && s.led.warnFrame == b.frame) } ∧
      t.eng.buf.getD (1 - b.frame % 2) none = s.eng.buf.getD (1 - b.frame % 2) none ∧
      t.eng = { s.eng with work := none, buf := t.eng.buf } ∧ Keeps [.clk, .eng] s t := by
  have h : (s.at u).eng.work = some b := e
  have t : execHandoverBlockReady u s = .next ((s.at u).modEng (fun e => { e with
      work := none, buf := put e.buf (b.frame % 2) (some (s.handed b)) })) := by
    unfold execHandoverBlockReady
    dsimp only
    rw [h]
    rfl
  have l : b.frame % 2 < s.eng.buf.length := by omega
  have same : (put s.eng.buf (b.frame % 2) (some (s.handed b))).getD (b.frame % 2) none = some (s.handed b) := by
    unfold put
    rw [List.getD_eq_getElem?_getD, List.getElem?_set_self l]
    rfl
  have other : (put s.eng.buf (b.frame % 2) (some (s.handed b))).getD (1 - b.frame % 2) none = s.eng.buf.getD (1 - b.frame % 2) none := by
    unfold put
    rw [List.getD_eq_getElem?_getD, List.getElem?_set_ne (by omega), List.getD_eq_getElem?_getD]
  exact ⟨_, t, rfl, same, other, rfl, State.modEng_keeps rfl (State.at_keeps rfl .refl)⟩

theorem fretCutoff_reports {s : State} {u n f cycles stretch : Nat} (snd : Sound s) (e : s.eng.cut = some (n, f, cycles, stretch)) :
    ∃ t, execFretCutoff u s = .next t ∧ t.eng = { s.eng with cut := none } ∧
      Raised t 8 (le 2 f ++ le 2 (min stretch 65535) ++ le 4 cycles ++ le 8 n) ∧ Keeps [.clk, .host, .eng] s t := by
  have h : (s.at u).eng.cut = some (n, f, cycles, stretch) := e
  have t : ∃ rest, execFretCutoff u s = .next (((s.at u).modEng (fun e => { e with cut := none })).raise 8 0
      (le 2 f ++ le 2 (min stretch 65535) ++ le 4 cycles ++ le 8 n ++ rest)) := by
    unfold execFretCutoff
    dsimp only
    rw [h]
    dsimp only
    rw [List.append_assoc (_ ++ le 8 n)]
    exact ⟨_, rfl⟩
  obtain ⟨rest, t⟩ := t
  exact ⟨_, t, rfl, State.raise_raised snd.host.queues (by decide) (List.prefix_append _ _) (by simp [length_le]),
    State.raise_keeps rfl (State.modEng_keeps rfl (State.at_keeps rfl .refl))⟩

/-! ### A frame added -/

theorem State.accumulate_eng {s : State} {b : Block} : (s.accumulate b).eng =
    { s.eng with added := some b.frame, parityEv := s.eng.parityEv.filter (fun x => x.1 != b.frame) } := by
  have added : ((forAll points16 (fun p s => s.addPoint b p) s).nodeFrame b).eng = s.eng :=
    (State.nodeFrame_keeps (T := [.host, .pts, .recs, .led]) rfl (.forAll (fun _ _ => State.addPoint_keeps rfl .refl) rfl .refl)).eng rfl
  have after : ∀ x : State, Keeps [.host, .slices, .pts, .led, .sw, .saf, .ring, .sar, .pwr] x
      (forAll points16 (fun p s => s.addPulses b p) (forAll points16 (fun p s => s.afterFrame p)
        (x.holdup b.frame).reapplyAll.idleSwitches.seeFailsafe.settleOwnStop.startWaitingTests)) := fun _ =>
    .forAll (fun _ _ => State.addPulses_keeps rfl .refl) rfl (.forAll (fun _ _ => State.afterFrame_keeps rfl .refl) rfl
      (State.startWaitingTests_keeps rfl (State.settleOwnStop_keeps rfl (State.seeFailsafe_keeps rfl (State.idleSwitches_keeps rfl
        (State.reapplyAll_keeps rfl (State.holdup_keeps rfl .refl)))))))
  have parity : ∀ (x : State) (E : Engine), x.eng = E → (x.modEng fun e => { e with parityEv := e.parityEv.filter fun x => x.1 != b.frame }).eng =
      { E with parityEv := E.parityEv.filter fun x => x.1 != b.frame } := fun x E h => by rw [← h]; rfl
  unfold State.accumulate
  dsimp only
  refine ((Keeps.foldl (T := [.host]) (fun _ _ => State.parityEvent_keeps rfl .refl) rfl .refl).eng rfl).trans ?_
  refine parity _ { s.eng with added := some b.frame } (((after _).eng rfl).trans ?_)
  rw [← added]
  rfl

/-- The block out of its buffer. -/
def State.takeBlock (s : State) (b : Block) : State :=
  s.modEng (fun e => { e with buf := e.buf.map (fun x => if x.map (fun y => y.start) = some b.start then none else x) })

theorem execFrameAccumulate_adds {s : State} {u : Nat} {b : Block} (e : s.nextBlock = some b) (on : s.pwr.capoOn = true) (may : s.mayAdd b = true) :
    execFrameAccumulate u s = .next (((s.at u).takeBlock b).accumulate b) := by
  have h : (s.at u).nextBlock = some b := e
  have go : ((s.at u).pwr.capoOn && (s.at u).mayAdd b) = true := by
    rw [show (s.at u).pwr.capoOn = true from on, show (s.at u).mayAdd b = true from may]
    rfl
  unfold execFrameAccumulate
  dsimp only
  rw [h]
  exact if_pos go

theorem frameAccumulate_adds {s : State} {u : Nat} {b : Block} (e : s.nextBlock = some b) (on : s.pwr.capoOn = true) (may : s.mayAdd b = true) :
    ∃ t, execFrameAccumulate u s = .next t ∧ t.eng.added = some b.frame ∧
      (∀ x ∈ t.eng.buf, ∀ y, x = some y → y.start ≠ b.start) ∧
      t.eng = { s.eng with
        buf := t.eng.buf, added := some b.frame, parityEv := s.eng.parityEv.filter (fun x => x.1 != b.frame) } ∧
      Keeps (touches (.frameAccumulate u)) s t := by
  have t := execFrameAccumulate_adds (u := u) e on may
  have kept := exec_keeps (.frameAccumulate u) _ _ t
  have eng := State.accumulate_eng (s := (s.at u).takeBlock b) (b := b)
  generalize ((s.at u).takeBlock b).accumulate b = y at t kept eng
  have buf : y.eng.buf = s.eng.buf.map (fun x => if x.map (fun y => y.start) = some b.start then none else x) := by rw [eng]; rfl
  refine ⟨_, t, by rw [eng], fun x m z h => ?_, by rw [eng]; rfl, kept⟩
  rw [buf] at m
  obtain ⟨w, -, rfl⟩ := List.mem_map.mp m
  intro same
  split at h
  · exact absurd h (by simp)
  · next ne => exact ne (by rw [h]; exact congrArg some same)

/-! ### A record due, and the mode of a changeover -/

theorem mem_insertDue {d : DueRec} : ∀ l : List DueRec, d ∈ insertDue d l
  | [] => List.mem_singleton.mpr rfl
  | x :: xs => by
    unfold insertDue
    split
    · exact List.mem_cons_self
    · exact List.mem_cons_of_mem _ (mem_insertDue xs)

/-- The record as it falls due. -/
def State.dueRec (s : State) (ty series due : Nat) (sp : Span) (stop wrap flags want : Nat) (body : Bytes) : DueRec :=
  let k := s.recKey want (if series = 16 then 0xFF else series) stop
  let fl := if k.1 = 0 then putBit flags 10 true else flags
  ⟨series, s.seqNext series, recHead ty series (if series = 16 then 0 else s.ptType series) s.nodeId fl (s.seqNext series) sp.start stop
    sp.missing sp.regime sp.tariffs wrap (keyIdBytes k.1 k.2.1 k.2.2.1 k.2.2.2) body, k.1, k.2.1, k.2.2.1, k.2.2.2, due⟩

/-- The record put among those due. -/
def State.putDue (s : State) (d : DueRec) : State :=
  ((s.bumpSeq d.series).modRecs (fun r => { r with due := insertDue d r.due, built := r.built + 1 })).writeLine

theorem State.putDue_holds {s : State} {d : DueRec} : d ∈ (s.putDue d).recs.due := by
  unfold State.putDue
  rw [(State.writeLine_keeps (T := [.led]) rfl .refl).recs rfl]
  exact mem_insertDue _

theorem State.build_eq {s : State} {ty series due stop wrap flags want : Nat} {sp : Span} {body : Bytes}
    (free : s.recs.stuckSeries.contains series = false) : s.build ty series due sp stop wrap flags want body =
      if (s.putDue (s.dueRec ty series due sp stop wrap flags want body)).seqNext series = 2 ^ 32 - 1 then
        ((s.putDue (s.dueRec ty series due sp stop wrap flags want body)).modRecs (fun r => { r with
          stuckSeries := r.stuckSeries ++ [series] })).raiseRaw 18 ([byteOf (if series = 16 then 0xFF else series), 3, 0xFF, 0] ++ zeros 4 ++
            le 8 (s.putDue (s.dueRec ty series due sp stop wrap flags want body)).frm)
      else s.putDue (s.dueRec ty series due sp stop wrap flags want body) := by
  unfold State.build
  exact if_neg (by rw [free]; decide)

theorem State.build_queues {s : State} {ty series due stop wrap flags want : Nat} {sp : Span} {body : Bytes}
    (free : s.recs.stuckSeries.contains series = false) : ∃ d ∈ (s.build ty series due sp stop wrap flags want body).recs.due,
      d.series = series ∧ d.seq = s.seqNext series ∧ d.frame = due := by
  have told : ∀ (c : Prop) [Decidable c] (x : State) (a : List Nat) b, (if c then (x.modRecs (fun r => { r with
      stuckSeries := r.stuckSeries ++ a })).raiseRaw 18 b else x).recs.due = x.recs.due := fun c _ x a b => by split <;> rfl
  refine ⟨s.dueRec ty series due sp stop wrap flags want body, ?_, rfl, rfl, rfl⟩
  rw [State.build_eq free, told]
  exact State.putDue_holds

theorem State.changeMode_mode {s : State} {b old new : Nat} (e : s.eng.change = some (b, old, new)) (due : b + 16 ≤ s.frm) :
    s.changeMode.eng.mode = new := by
  have windows : ∀ x : State, (forAll points16 (fun p s =>
      if s.pqOn p then (s.dropWindow p (contentOf (b + 16))).modPt p (fun x => { x with pq := { x.pq with
        hist := List.replicate 8 [], frames := [] } })
      else s) (forAll points16 (fun p s => s.loadRcd p) x)).eng = x.eng := fun _ =>
    (Keeps.forAll (T := [.slices, .pts]) (fun _ _ => .ite (State.modPt_keeps rfl (State.dropWindow_keeps rfl .refl)) .refl) rfl
      (.forAll (fun _ _ => State.loadRcd_keeps rfl .refl) rfl .refl)).eng rfl
  unfold State.changeMode
  rw [e]
  dsimp only
  split
  · next stays =>
    rcases stays with early | same
    · omega
    · exact same
  · rw [windows]
    rfl

theorem modeChangeover_completes {s : State} {u b old new : Nat} (e : s.eng.change = some (b, old, new)) (late : b + 16 < s.frm)
    (free : 16 ∉ s.recs.stuckSeries) : ∃ t, execModeChangeoverComplete u s = .next t ∧ t.eng.change = none ∧ t.eng.mode = new ∧
      (∃ d ∈ t.recs.due, d.series = 16 ∧ d.seq = s.recs.nodeNext ∧ d.frame = b + 16) ∧
      Keeps (touches (.modeChangeoverComplete u)) s t := by
  have h : (s.at u).eng.change = some (b, old, new) := e
  have mode := State.changeMode_mode (s := s.at u) h (Nat.le_of_lt late)
  have changed : Keeps [.host, .slices, .courses, .eng, .pts, .plc, .sar] (s.at u) (s.at u).changeMode := State.changeMode_keeps rfl .refl
  have recs : (s.at u).changeMode.recs = s.recs := changed.recs rfl
  obtain ⟨sp, flags, want, body, t⟩ : ∃ sp flags want body, execModeChangeoverComplete u s =
      .next (((s.at u).changeMode.modEng (fun e => { e with change := none })).build 6 16 (b + 16) sp (b + 16) 0 flags want body) := by
    have late' : ¬ (s.at u).frm ≤ b + 16 := Nat.not_le.mpr late
    unfold execModeChangeoverComplete
    dsimp only
    rw [h]
    dsimp only
    rw [if_neg late']
    exact ⟨_, _, _, _, rfl⟩
  have kept := exec_keeps (.modeChangeoverComplete u) _ _ t
  generalize (s.at u).changeMode = y at t kept mode recs
  have free' : (y.modEng (fun e => { e with change := none })).recs.stuckSeries.contains 16 = false := by
    change y.recs.stuckSeries.contains 16 = false
    rw [recs]
    simpa using free
  obtain ⟨d, m, series, seq, frame⟩ := State.build_queues (s := y.modEng (fun e => { e with change := none })) (ty := 6) (series := 16) (due := b + 16)
    (sp := sp) (stop := b + 16) (wrap := 0) (flags := flags) (want := want) (body := body) free'
  have eng : ((y.modEng (fun e => { e with change := none })).build 6 16 (b + 16) sp (b + 16) 0 flags want body).eng = { y.eng with change := none } :=
    (State.build_keeps (T := [.host, .pts, .recs, .led]) rfl .refl).eng rfl
  have next : (y.modEng (fun e => { e with change := none })).seqNext 16 = s.recs.nodeNext := congrArg (fun r => r.nodeNext) recs
  exact ⟨_, t, by rw [eng], by rw [eng]; exact mode, ⟨d, m, series, seq.trans next, frame⟩, kept⟩

end Sys2Proof.Machine

open Sys2Proof Sys2Proof.Machine

/-- Settles O15: each event by the lemma of what it does. -/
theorem frameEventsComplete : Obligations.FrameEventsComplete := by
  intro s u snd
  refine ⟨fun obs f back on le hand reached before => frameTick_pauses on le hand reached before, fun obs on le hand => ?tick,
    fun b e n => handoverBlockReady_hands e n, fun n f cycles stretch e => fretCutoff_reports snd e, fun b e on may => frameAccumulate_adds e on may,
    fun b e on done => intervalBoundary_begins snd e on done, fun b old new e late free => modeChangeover_completes e late free⟩
  case tick =>
    obtain ⟨t, e, h⟩ := frameTick_begins (u := u) (obs := obs) on le hand
    exact ⟨t, e, h.frame, h.lastTick, h.up, h.test, h.staged, h.boundary, h.keeps.then rfl (State.at_keeps rfl .refl)⟩
end
